-- ==== Sys2Proof/Word.lean ====
section
/-!
DEFINITION. The word types of the LN1 model and the plainest arithmetic on them: bytes, 32-bit and 64-bit words.
-/

namespace Sys2Proof

/-- One byte. -/
abbrev Byte := BitVec 8
/-- A 32-bit register word. -/
abbrev W32 := BitVec 32
/-- A 64-bit register or descriptor word. -/
abbrev W64 := BitVec 64

end Sys2Proof
end

