-- ==== Sys2Proof/Syntax.lean ====
section
/-!
DEFINITION. The commands of the LN1 block: one constructor per row of spec/opcode_table.json, in the table's order, with the
operands that the rule of the row gives it. What the surroundings supply (descriptor bytes, list bytes in host memory, sensor
readings, outcomes of unit tests, arriving frames) is an operand.
-/

namespace Sys2Proof

/-- A 64-byte descriptor of a submission ring (Table 13-4), byte 0 in bits 7 to 0. -/
abbrev Desc := BitVec 512

/-- An entry of a change set's list (R345): ADDR, WIDTH, bytes 6-7 and VALUE as they stand in host memory. -/
structure RegEntry where
  addr : Nat
  width : Nat
  rsv : Nat
  value : Nat
  deriving DecidableEq, Repr

/-- An entry of a patch set's list (R346) as it stands in host memory. -/
structure PatchEntry where
  pos : Nat
  lc : Nat
  selector : Nat
  rsv : Nat
  value : Nat
  deriving DecidableEq, Repr

/-- How a requester reaches the device: an offset of BAR0 or of BAR2 by the host (R328), or a device address by a requester of R350. -/
inductive Via where
  | bar0 (offset : Nat)
  | bar2 (offset : Nat)
  | device (requester : Nat) (addr : Nat)
  deriving DecidableEq, Repr

/-- What opens a remote transaction (R297, R299): the frame at the head of the IOD ingress queue of a termination, or lines of
a remote source item of a DMA card: core, card position, iteration and first line. -/
inductive TxnSource where
  | frame (termination : Fin 20)
  | read (core : Fin 128) (pos iter line : Nat)
  deriving DecidableEq, Repr

/-- What reading bytes from host memory gave (R341): the bytes, a list that would wrap the address space, or a failed access. -/
inductive HostRead where
  | bytes (b : List Byte)
  | badList
  | failed
  deriving DecidableEq, Repr

/-- An attempt of a unit that fails in a Dawn: step, UNIT_KIND and UNIT (Table 17-4), whether the step's bound expired for it, and
TIME_US of its entry. -/
structure DawnFail where
  step : Nat
  kind : Nat
  unit : Nat
  timeout : Bool
  time : Nat
  deriving DecidableEq, Repr

/-- What VFUSE does in a programming operation (R537, R538): it does not come into range; it is there to the end; or power, VFUSE or
THERMTRIP_N interrupts the write of a word after `k` words. -/
inductive FuseSupply where
  | absent
  | whole
  | cut (k : Nat)
  deriving DecidableEq, Repr

/-- A job's placement as it reaches the loader (R211, R272, R318; log entry 50): the entries of the partition's peer table, by number,
and by collective group the packages that hold members of it, in ascending rank. -/
structure JobPlacement where
  peers : List (Nat × Nat)
  groups : List (Nat × List Nat)
  deriving DecidableEq, Repr

/-- What a Dawn meets: the attempts that fail (in a wake from Midnight, and in the warm Dawn that follows one that fails),
TIME_US at the end of each step, the record in the configuration flash (Table 17-3, little-endian), VFUSE in range at step 1,
the reference present, the crossings' offsets in 1/64 nc by 4 d + k for each release of the dividers (R269), the physical engines
that fail the known-answer test of step 8, by slot (20 d + 5 c + s), and the failing rows that the march test of step 9 finds, by
die and by physical place: in regions 1 and 2 the slot, 5 c + s, in the place of the logical core. -/
structure DawnIn where
  fails : List DawnFail
  again : List DawnFail
  times : List Nat
  record : Nat
  vfuse : Bool
  refOk : Bool
  offsets : List (List Int)
  engFaults : List (Nat × Nat)
  rows : List (Nat × Nat)
  deriving DecidableEq, Repr

/-- A trip of an alarm source (Tables 18-9 and 18-15): CLASS, UNIT and DETAIL. -/
structure AlarmTrip where
  cls : Fin 5
  unit : BitVec 16
  detail : BitVec 32
  deriving DecidableEq, Repr

/-- What an alarm meets: every trip of one handling, microseconds since the last Dawn began and ended, the meter's tick, VFUSE in
range within 1 us, and the Dawn that follows its reset. -/
structure AlarmIn where
  trips : List AlarmTrip
  sinceDawn : Nat
  time : Nat
  tick : Nat
  vfuse : Bool
  dawn : DawnIn
  deriving DecidableEq, Repr

/-- What a swap window measures of the Hour that ended: P_h in 0.5 W and f_eff in MHz (R427), the dies whose least timing margin fell
below the low threshold and those whose margin stayed above the high one (R425), and the always-on tick. -/
structure HourIn where
  power : Nat
  mhz : Nat
  low : List (Fin 8)
  high : List (Fin 8)
  tick : Nat
  deriving DecidableEq, Repr

/-- A command of the block. An operand `upset` names the words, by device address divided by 8, in which a single-bit error has arisen
in what the command reads (R173). -/
inductive Instr where
  /-- CREATE_RING: Admin command that creates a submission, completion or event ring. (R343) -/
  | createRing (d : Desc)
  /-- DELETE_RING: Admin command that deletes a ring unless it is busy or still named. (R344) -/
  | deleteRing (d : Desc)
  /-- RESET_RING: Admin command that returns a ring to an empty, error-free state. (R344) -/
  | resetRing (d : Desc)
  /-- CHANGE_SET: Admin command that stages up to 256 register writes for one target Hour. (R345) -/
  | changeSet (d : Desc) (list placement : HostRead)
  /-- NET_ADDRESS: Admin command that sets an IPv4 or IPv6 address of an Ethernet port. (R353) -/
  | netAddress (d : Desc)
  /-- NET_WINDOW: Admin command that opens an RDMA window onto staging SRAM. (R353) -/
  | netWindow (d : Desc)
  /-- NET_CLOSE: Admin command that closes an RDMA window once its accepted requests finish. (R353) -/
  | netClose (d : Desc)
  /-- TWILIGHT: Admin command that runs Dusk and moves the package to Twilight. (R409) -/
  | twilight (d : Desc)
  /-- MIDNIGHT: Admin command that runs Dusk, moves the package to Midnight and resets the host interface. (R409) -/
  | midnight (d : Desc)
  /-- WAKE: Admin command that wakes the package from Twilight. (R413) -/
  | wakeCmd (d : Desc) (x : DawnIn)
  /-- RESET: Admin command that resets reset domain 1 to 5, after a Dusk of that domain. (R437) -/
  | resetDomain (d : Desc)
  /-- FENCE_SLOT: Admin command that fences a core slot as for a core failure. (R458) -/
  | fenceSlot (d : Desc)
  /-- JOB_ABORT: Admin command that aborts a multi-package job's step, or fences the job, at a target Hour. (R452) -/
  | jobAbort (d : Desc)
  /-- JOB_RESUME: Admin command that clears a job fence and sets its new generation at a target Hour. (R453) -/
  | jobResume (d : Desc)
  /-- DAWN_RETRY: Admin command that clears a Dawn failure count or marks a unit absent. (R458) -/
  | dawnRetry (d : Desc)
  /-- TENANT_SWITCH: Admin command that empties the package for a new tenant. (R475) -/
  | tenantSwitch (d : Desc)
  /-- ATTEST_LOG: Admin command that writes every measurement block and adapter measurement to host memory. (R474) -/
  | attestLog (d : Desc)
  /-- FUSE_PROGRAM: Admin command that blows one field of the INTEGRATION fuse bank. (R465) -/
  | fuseProgram (d : Desc) (vfuse : FuseSupply)
  /-- FIRMWARE_UPDATE: Admin command that checks a firmware image and writes it to the copy not running. (R470) -/
  | firmwareUpdate (d : Desc) (src : HostRead)
  /-- MU_RECORDS: Admin command that returns held meter records. (R502) -/
  | muRecords (d : Desc)
  /-- MU_AUDIT: Admin command that returns held meter audit entries. (R502) -/
  | muAudit (d : Desc)
  /-- MU_CERT: Admin command that returns the meter certificate. (R502) -/
  | muCert (d : Desc)
  /-- MU_CAL_REPORT: Admin command that returns the meter calibration report. (R502) -/
  | muCalReport (d : Desc)
  /-- TRUST_KEY: Admin command that installs or removes a publisher key in the trust table. (R363) -/
  | trustKey (d : Desc) (key : HostRead)
  /-- IMAGE_FEED: Admin command that announces the next bytes of a staging feed ring to its load. (R361) -/
  | imageFeed (d : Desc)
  /-- BASE_LOAD: Admin command that loads a base image into the common range of selected dies. (R370) -/
  | baseLoad (d : Desc) (src : HostRead)
  /-- BASE_UNLOAD: Admin command that removes a base image from selected dies. (R370) -/
  | baseUnload (d : Desc)
  /-- REPAIR_REQUEST: Admin command left outstanding until the loader needs source bytes for a repair. (R376) -/
  | repairRequest (d : Desc)
  /-- IMAGE_REPAIR: Admin command that supplies a section's stored bytes for a repair. (R376) -/
  | imageRepair (d : Desc) (src : HostRead)
  /-- PLACE_CHECK: Command that runs the load checks up to the placement dry run and reports shortfalls. (R366) -/
  | placeCheck (n : Fin 64) (d : Desc) (src : HostRead)
  /-- LOAD: Command that checks and writes a program image into an ASSIGNED partition. (R369) -/
  | loadImage (n : Fin 64) (d : Desc) (src : HostRead) (job : JobPlacement)
  /-- UNLOAD: Command that returns a LOADED or STOPPED partition to ASSIGNED. (R369) -/
  | unloadImage (n : Fin 64) (d : Desc)
  /-- ADAPTER_LOAD: Command that loads an adapter image into an adapter slot. (R371) -/
  | adapterLoad (n : Fin 64) (d : Desc) (src : HostRead)
  /-- ADAPTER_UNLOAD: Command that closes an adapter slot and frees it once unreferenced. (R371) -/
  | adapterUnload (n : Fin 64) (d : Desc)
  /-- START: Command that starts a LOADED partition's streams at an Hour. (R369) -/
  | startPart (n : Fin 64) (d : Desc)
  /-- STOP: Command that stops a RUNNING partition at its next step boundary. (R369) -/
  | stopPart (n : Fin 64) (d : Desc)
  /-- EXPORT: Command that reads a tensor in device layout and writes it in a publisher format. (R373) -/
  | exportData (n : Fin 64) (d : Desc) (list : Option (List (Nat × Nat)))
  /-- PATCH_SET: Command that stages up to 1,024 card-field patches for a partition. (R346) -/
  | patchSet (n : Fin 64) (d : Desc) (list : HostRead)
  /-- SUBMIT: Request descriptor that submits a serving request after its checks. (R388) -/
  | submit (d : Desc) (prompt : HostRead) (tick : Nat)
  /-- CANCEL: Request descriptor that cancels an active serving request. (R402) -/
  | cancel (d : Desc)
  /-- DOORBELL: Host write to a ring's doorbell page that moves its tail or head, or puts it in ERROR. (R336) -/
  | doorbell (rid : Fin 256) (off : Nat) (v : BitVec 32)
  /-- DESCRIPTOR_TAKE: The device takes the next descriptor of a ring once all taking conditions hold. (R337) -/
  | descriptorTake (rid : Fin 66) (d : Desc)
  /-- EVENT_WRITE: A queued event is written to the event ring once the ring exists and has room. (R334) -/
  | eventWrite
  /-- MSIX_HOLDOFF_EXPIRY: A ring's MSI-X holdoff interval ends and a pending message is sent. (R340) -/
  | msixHoldoffExpiry (rid : Fin 256)
  /-- ENABLE: Write of HST_CTL.ENABLE that starts the host interface or resets it. (R354) -/
  | enable (on : Bool)
  /-- HOST_INTERFACE_READY: READY reads 1 again after a host-interface reset. (R349) -/
  | hostInterfaceReady
  /-- VALID: Write of 1 to HST_ERR_INFO.VALID that clears the capture, MORE and COUNT. (R350) -/
  | errValid
  /-- FUNCTION_LEVEL_RESET: PCIe function-level reset that resets the host interface. (R349) -/
  | functionLevelReset
  /-- HOT_RESET: PCIe hot reset that resets the host interface. (R349) -/
  | hotReset
  /-- LINK_DISABLE: PCIe link disable that resets the host interface. (R349) -/
  | linkDisable
  /-- LINK_DOWN: The PCIe link goes down, which resets the host interface. (R349) -/
  | linkDown
  /-- PERST_N: Assertion of the PCIe fundamental reset, which resets only the host interface. (R436) -/
  | perstN
  /-- CONFIG_REQUEST: A PCIe configuration request, answered with Request Retry Status during Dawn. (R440) -/
  | configRequest
  /-- STAGING_ACCESS: Host access through BAR4 to staging SRAM. (R328) -/
  | stagingAccess (off : BitVec 29) (len : Nat) (w : Option (List Byte))
  /-- SERVICE_ACCESS: Host or management access to a die memory region over the service path. (R161) -/
  | serviceAccess (v : Via) (len : Nat) (w : Option (List Byte)) (t tick : Nat) (upset : List (BitVec 37))
  /-- BROADCAST_WRITE: A write with DIE 15, applied to every compute die present. (R15) -/
  | broadcastWrite (req : Fin 32) (region : Fin 16) (off : BitVec 32) (bs : List Byte) (t : Nat)
  /-- REGISTER_WRITE: A write to a register that has no row of its own, acting per its access codes. (R19) -/
  | registerWrite (v : Via) (wide : Bool) (x meets : BitVec 64)
  /-- LOW_WORD_READ: Read of the low word of a latching 64-bit counter, which latches its high word. (R524) -/
  | lowWordRead (which : Fin 3) (v : BitVec 64) (t : Nat)
  /-- FLAG_WRITE: Service-path write to flag bytes of region 3 that sets or clears flags. (R216) -/
  | flagWrite (req : Fin 32) (d : Fin 8) (c : Fin 4) (n : Fin 256) (bs : List Byte) (t : Nat)
  /-- COUNTER_VALUE_WRITE: Service-path write to a counter's value view. (R221) -/
  | counterValueWrite (req : Fin 32) (d : Fin 8) (c : Fin 4) (n : Fin 256) (bs : List Byte) (t : Nat)
  /-- COUNTER_ADD: Service-path write to a counter's add view. (R221) -/
  | counterAdd (req : Fin 32) (d : Fin 8) (c : Fin 4) (n : Fin 256) (bs : List Byte) (t : Nat)
  /-- HOUR_CTL_WRITE: Write to TOP_HOUR_CTL, which may reject HOUR_LEN_LOG2 and set LEN_REJECT. (R46) -/
  | hourCtlWrite (v : BitVec 32)
  /-- PART_MEMBER_WRITE: Write to TOP_PART_MEMBER_n, ignored with MEMBER_REJECT while LOADED or RUNNING. (R56) -/
  | partMemberWrite (n : Fin 64) (w : Fin 4) (v : BitVec 32)
  /-- PBB_WRITE: Write to a base-and-bound or common-range register, ignored with BOUND_REJECT when forbidden. (R169) -/
  | pbbWrite (d : Fin 8) (n : Fin 64) (which : Fin 3) (w : Fin 2) (wide : Bool) (v : BitVec 64)
  /-- FLAGWIN_WRITE: Write to CD_FLAGWIN_n, discarded with BOUND_REJECT when forbidden. (R217) -/
  | flagwinWrite (d : Fin 8) (n : Fin 64) (w : Fin 2) (wide : Bool) (v : BitVec 64)
  /-- CORE_STREAM_WRITE: Write to CORE_STREAM, ignored with BOUND_REJECT while the partition is loaded. (R184) -/
  | coreStreamWrite (d : Fin 8) (c : Fin 16) (w : Fin 2) (wide : Bool) (v : BitVec 64)
  /-- MCAST_ENTRY_WRITE: Write to a FAB_MCAST entry, ignored when its owner is LOADED or RUNNING. (R247) -/
  | mcastEntryWrite (d : Fin 8) (e : Fin 256) (w : Fin 8) (wide : Bool) (v : BitVec 64)
  /-- PEER_ENTRY_WRITE: Write to a peer-table entry, ignored with PEER_REJECT while the partition is loaded. (R318) -/
  | peerEntryWrite (n : Fin 64) (e : Fin 1024) (v : BitVec 32)
  /-- SWAP: Write of RTE_CTL.SWAP that stages a routing-table swap. (R314) -/
  | swapTable (v : BitVec 32)
  /-- ILK_FIRST_REARM: Write of 1 to CORE_ILK_FIRST.VALID that clears and re-arms the first-firing record. (R236) -/
  | ilkFirstRearm (d : Fin 8) (c : Fin 16)
  /-- ARM: Write of CORE_DIGEST_CAP_CTL.ARM that clears and arms card-digest capture. (R281) -/
  | armCapture (d : Fin 8) (c : Fin 16) (w : Fin 2) (wide : Bool) (v : BitVec 64)
  /-- HOUR_ARRIVAL: A die's schedule counter reaches the next Hour count and the die stops. (R44) -/
  | hourArrival (d : Fin 8) (t : Nat)
  /-- SWAP_WINDOW_OPEN: The package opens the swap window once every die and neighbour has reached the Hour. (R49) -/
  | swapWindowOpen (x : HourIn) (t : Nat)
  /-- ARRIVE_LIMIT_EXPIRY: ARRIVE_LIMIT passes since the first die reached the Hour, opening the window. (R49) -/
  | arriveLimitExpiry (x : HourIn) (t : Nat)
  /-- PLANNED_TIMEOUT: A planned change set finds no step boundary within 4,096 Hours. (R61) -/
  | plannedTimeout
  /-- PATCH_TIMEOUT: A patch set finds no qualifying window within 4,096 Hours. (R212) -/
  | patchTimeout (n : Fin 64)
  /-- FORCED_STOP: A STOP finds no step boundary within 4,096 Hours and abandons the step. (R369) -/
  | forcedStop (n : Fin 64)
  /-- JOB_ABORT_TIMEOUT: A faulted package takes no JOB_ABORT within 4,096 Hours and stops the partition. (R451) -/
  | jobAbortTimeout (n : Fin 64)
  /-- REPAIR_ABANDON: No rewrite completes within 4,096 Hours of an error and the partitions stop. (R376) -/
  | repairAbandon (id : Nat)
  /-- CARD_FETCH: A card arrives in a core's card queue from shared memory. (R186) -/
  | cardFetch (d : Fin 8) (c : Fin 16) (t : Nat) (upset : List (BitVec 37))
  /-- NOP: Issue of a NOP card, which only waits and signals. (R210) -/
  | nopCard (d : Fin 8) (c : Fin 16) (t : Nat)
  /-- MATMUL: Issue of a MATMUL card to the engines of its mask. (R200) -/
  | matmul (d : Fin 8) (c : Fin 16) (t : Nat)
  /-- VECTOR: Issue of a VECTOR card to the vector engine. (R203) -/
  | vectorCard (d : Fin 8) (c : Fin 16) (t : Nat)
  /-- MOVE: Issue of a MOVE card to the DMA mover. (R204) -/
  | moveCard (d : Fin 8) (c : Fin 16) (t : Nat)
  /-- MULTICAST: Issue of a MULTICAST card to the DMA mover. (R205) -/
  | multicast (d : Fin 8) (c : Fin 16) (t : Nat)
  /-- REDUCE: Issue of a REDUCE card to the DMA mover. (R206) -/
  | reduceCard (d : Fin 8) (c : Fin 16) (t : Nat)
  /-- DIGEST: Issue of a DIGEST card that folds card digests into a layer digest. (R207) -/
  | digestCard (d : Fin 8) (c : Fin 16) (t : Nat)
  /-- HOUR_MARK: Issue of an HOUR_MARK card that opens a step. (R208) -/
  | hourMark (d : Fin 8) (c : Fin 16) (t : Nat)
  /-- CARD_LOCAL_COMPLETION: A card reaches local completion and its COMPLETE signals apply. (R198) -/
  | cardLocalCompletion (d : Fin 8) (c : Fin 16) (pos t : Nat)
  /-- STREAM_END: Every core has completed its END card and the partition returns to LOADED. (R185) -/
  | streamEnd (n : Fin 64)
  /-- PRESCAN: PRESCAN reads a pass's scale lines and computes its anchor. (R114) -/
  | prescan (d : Fin 8) (c : Fin 16) (e : Fin 64) (t : Nat) (upset : List (BitVec 37))
  /-- PASS_START: A pass starts accumulating on its bank once issue, bank and PRESCAN allow. (R111) -/
  | passStart (d : Fin 8) (c : Fin 16) (e : Fin 64) (t : Nat) (upset : List (BitVec 37))
  /-- ACCUMULATION_CYCLE: One engine cycle adds its products into the bank. (R83) -/
  | accumulationCycle (d : Fin 8) (c : Fin 16) (e : Fin 64) (t : Nat)
  /-- DRAIN_START: A drain starts once the pass has ended and the previous drain has freed the converter. (R111) -/
  | drainStart (d : Fin 8) (c : Fin 16) (e : Fin 64) (t : Nat)
  /-- TILE_COMPLETE: A drained tile's lines are all written and its status is updated. (R108) -/
  | tileComplete (d : Fin 8) (c : Fin 16) (e : Fin 64) (t : Nat)
  /-- GROUP_ENTRY: A vector group enters the read stage once interlocks and write-port room allow. (R141) -/
  | groupEntry (d : Fin 8) (c : Fin 16) (t : Nat) (upset : List (BitVec 37))
  /-- GROUP_OUTPUT: A vector group's output or reduction record is offered to the write port. (R142) -/
  | groupOutput (d : Fin 8) (c : Fin 16) (t : Nat)
  /-- DMA_ITEM_START: A DMA card's item sends its first request once released by the interlocks. (R229) -/
  | dmaItemStart (d : Fin 8) (c : Fin 16) (pos t : Nat) (upset : List (BitVec 37))
  /-- DMA_ITEM_COMPLETE: An iteration's item is locally complete and its EACH signals apply. (R197) -/
  | dmaItemComplete (d : Fin 8) (c : Fin 16) (pos t : Nat)
  /-- SHM_READ_REQUEST: A read request reaches a shared-memory slice node. (R163) -/
  | shmReadRequest (d : Fin 8) (off : BitVec 32) (lines : Nat) (upset : List (BitVec 37))
  /-- INTERLOCK_RELEASE: A held item is released by its range interlock. (R228) -/
  | interlockRelease (d : Fin 8) (c : Fin 16) (pos : Nat) (e : Fin 64) (t : Nat)
  /-- SCRUB_READ: The scrubber reads a line and writes it back corrected if needed. (R175) -/
  | scrubRead (d : Fin 8) (region : Fin 3) (off : BitVec 32) (upset : List (BitVec 37))
  /-- ECC_UNCORRECTABLE: An uncorrectable error is found and handled by where it is stored. (R180) -/
  | eccUncorrectable (d : Fin 8) (region : Fin 3) (off : BitVec 32) (feed : Bool)
  /-- REWRITE_COMPLETE: A rebuilt or refilled image unit is written and checked. (R376) -/
  | rewriteComplete (id : Nat) (stored : List Byte)
  /-- FIELD_FUSE_WRITE: Management firmware records a field remap or mark in the field fuses. (R178) -/
  | fieldFuseWrite (vfuse : FuseSupply) (time : Nat)
  /-- VFUSE_CHECK: VFUSE is not in range 2 ms after VFUSE_EN rises, so the write fails. (R537) -/
  | vfuseCheck
  /-- HOLD_START: A die begins to hold on an external wait, remote part or full egress. (R262) -/
  | holdStart (d : Fin 8) (t : Nat)
  /-- HOLD_END: A hold ends and the waiting card issues. (R264) -/
  | holdEnd (d : Fin 8) (t : Nat)
  /-- HOLD_LONG: A hold lasts longer than LIMIT_US. (R265) -/
  | holdLong (d : Fin 8) (t : Nat)
  /-- HANG: A die holds for HANG_MS and the partitions holding it stop. (R455) -/
  | hangStop (d : Fin 8) (t time : Nat)
  /-- WATCHDOG_EXPIRY: A management or dispatch watchdog is not kicked for 500 ms and domain 4 resets. (R456) -/
  | watchdogExpiry (which : Fin 2) (x : DawnIn) (time : Nat)
  /-- XING_FAULT: A clock-region crossing's phase difference exceeds 3 nc. (R270) -/
  | xingFault (d : Fin 8) (k : Option (Fin 4)) (skew t time : Nat)
  /-- D2D_LANE_FAILURE: A UCIe lane fails and is spared, or the module narrows. (R250) -/
  | d2dLaneFailure (k : Fin 52) (lane : Fin 64)
  /-- D2D_RETRAIN_COMPLETE: A UCIe module retrain ends and replay resumes. (R255) -/
  | d2dRetrainComplete (k : Fin 52) (ok : Bool)
  /-- D2D_ACK_TIMER: The 200 ns acknowledgement interval expires with unacknowledged items. (R255) -/
  | d2dAckTimer (k : Fin 52)
  /-- D2D_WRITE: A WRITE frame arrives on a UCIe module. (R252) -/
  | d2dWrite (k : Fin 52) (bits : BitVec 2304) (may : Bool) (t : Nat)
  /-- D2D_READ_DATA: A READ_DATA frame arrives on a UCIe module. (R252) -/
  | d2dReadData (k : Fin 52) (bits : BitVec 2304) (may : Bool) (t : Nat)
  /-- D2D_REDUCE_DATA: A REDUCE_DATA frame arrives at a combining point. (R273) -/
  | d2dReduceData (k : Fin 52) (bits : BitVec 2304) (may : Bool) (t : Nat)
  /-- D2D_SIGNAL: A posted SIGNAL message arrives and acts on the flag file. (R223) -/
  | d2dSignal (k : Fin 52) (bits : BitVec 256) (lc : Fin 128) (may : Bool) (t : Nat)
  /-- D2D_READ_REQ: A READ_REQ message arrives and is served from free bank cycles. (R261) -/
  | d2dReadReq (k : Fin 52) (bits : BitVec 256) (may : Bool) (t : Nat)
  /-- D2D_WRITE_REPORT: A WRITE_REPORT message arrives for a transaction tag. (R254) -/
  | d2dWriteReport (k : Fin 52) (bits : BitVec 256) (may : Bool) (t : Nat)
  /-- D2D_CREDIT: A CREDIT message arrives with a cumulative FREED count. (R256) -/
  | d2dCredit (k : Fin 52) (bits : BitVec 256)
  /-- D2D_ACK: An ACK message arrives and frees replay entries. (R255) -/
  | d2dAck (k : Fin 52) (bits : BitVec 256)
  /-- D2D_NAK: A NAK message arrives and starts a replay or retrain. (R255) -/
  | d2dNak (k : Fin 52) (bits : BitVec 256)
  /-- D2D_HOUR: An HOUR message arrives carrying an arrival or window opening. (R254) -/
  | d2dHour (k : Fin 52) (bits : BitVec 256) (may : Bool)
  /-- D2D_IDLE: An IDLE control message arrives. (R254) -/
  | d2dIdle (k : Fin 52) (bits : BitVec 256)
  /-- TCL_WRITE: A WRITE flow unit arrives at a gateway. (R297) -/
  | tclWrite (p : Fin 12) (bits : BitVec 2048) (t : Nat)
  /-- TCL_READ_REQ: A READ_REQ flow unit arrives at a gateway. (R297) -/
  | tclReadReq (p : Fin 12) (bits : BitVec 2048) (t : Nat)
  /-- TCL_SIGNAL: A SIGNAL flow unit arrives at a gateway. (R285) -/
  | tclSignal (p : Fin 12) (bits : BitVec 2048) (t : Nat)
  /-- TCL_REDUCE_DATA: A REDUCE_DATA flow unit arrives at a gateway. (R273) -/
  | tclReduceData (p : Fin 12) (bits : BitVec 2048) (item rank : Nat) (result : Bool) (t : Nat)
  /-- TCL_READ_DATA: A READ_DATA flow unit arrives at a gateway. (R297) -/
  | tclReadData (p : Fin 12) (bits : BitVec 2048) (t : Nat)
  /-- TCL_WRITE_REPORT: A WRITE_REPORT flow unit arrives and ends its transaction. (R297) -/
  | tclWriteReport (p : Fin 12) (bits : BitVec 2048) (t : Nat)
  /-- TCL_ERROR_RSP: An ERROR_RSP flow unit arrives and ends its transaction. (R301) -/
  | tclErrorRsp (p : Fin 12) (bits : BitVec 2048) (t : Nat)
  /-- TCL_LINK: A LINK unit arrives carrying acknowledgement, grant, Hour and sparing state. (R287) -/
  | tclLink (p : Fin 12) (bits : BitVec 2048) (corrected uncorr : Nat)
  /-- UNIT_RELEASE: A unit leaves the receive pool, updating RELEASED, lending and GRANT. (R293) -/
  | unitRelease (p : Fin 12) (vc : Fin 4) (t : Nat)
  /-- LINK_UNIT_TIMER: A LINK unit is sent because 1 µs passed or a field changed. (R287) -/
  | linkUnitTimer (p : Fin 12)
  /-- TCL_ACK_TIMER: The 500 ns acknowledgement interval expires with unacknowledged units. (R289) -/
  | tclAckTimer (p : Fin 12)
  /-- NAK_REPEAT_TIMER: The 200 ns NAK repeat interval expires while the expected unit is missing. (R289) -/
  | nakRepeatTimer (p : Fin 12)
  /-- SILENT_LOSS_REPLAY: The oldest unacknowledged unit waits 4 µs and is replayed. (R289) -/
  | silentLossReplay (p : Fin 12)
  /-- PORT_RETRAIN_COMPLETE: A Tocheas port retrain ends; after two failures the port goes out of service. (R290) -/
  | portRetrainComplete (p : Fin 12) (ok : Bool)
  /-- TCL_LANE_FAILURE: A Tocheas lane exceeds BER_LIMIT or loses lock and a change begins. (R294) -/
  | tclLaneFailure (lane : Fin 104)
  /-- LANE_REPLACEMENT_COMPLETE: A spare lane is trained and traffic resumes with a NAK. (R295) -/
  | laneReplacementComplete (p : Fin 12)
  /-- TXN_START: A remote transaction starts once quota, window and a tag allow. (R298) -/
  | txnStart (x : TxnSource) (t : Nat)
  /-- PARTIAL_UNIT_FLUSH: 16 ns pass without another line and a partial unit is sent. (R297) -/
  | partialUnitFlush (tag : Nat) (last : Bool) (t : Nat)
  /-- TXN_TIMEOUT: A transaction reaches its deadline and ends as a timeout. (R303) -/
  | txnTimeout (tag : Nat)
  /-- QUARANTINE_EXPIRY: A quarantined tag is freed after twice TXN_TIMEOUT_US. (R303) -/
  | quarantineExpiry (tag : Nat)
  /-- SLEEP_IDLE_EXPIRY: A port has been idle SLEEP_IDLE_US and proposes sleep. (R304) -/
  | sleepIdleExpiry (p : Fin 12)
  /-- SLEEP_ENTRY_COMPLETE: A port completes its entry to sleep after agreement. (R306) -/
  | sleepEntryComplete (p : Fin 12)
  /-- PORT_WAKE: A sleeping port has a unit to send or detects wake signalling. (R305) -/
  | portWake (p : Fin 12) (signalled : Bool)
  /-- PORT_WAKE_COMPLETE: A woken port carries sequenced units again. (R305) -/
  | portWakeComplete (p : Fin 12)
  /-- STEP_BOUNDARY: OUT_READY reaches its count and the serving engine judges ends and prepares the next step. (R383) -/
  | stepBoundary (n : Fin 64) (t tick fit : Nat) (heads : List (Nat × Nat))
  /-- TOKEN_RECORDS_WRITE: Token records of a completed step are written to output rings after the window. (R399) -/
  | tokenRecordsWrite (n : Fin 64)
  /-- LOAD_COMPLETE: A load finishes after the window in which its registers apply. (R369) -/
  | loadComplete (n : Fin 64)
  /-- FEED_TIMEOUT: No feed bytes announced for 10 s, so the load fails as truncated. (R361) -/
  | feedTimeout (off : Nat)
  /-- POWER_STATE_ENTERED: Entry to Twilight or Midnight completes and its descriptor completes. (R409) -/
  | powerStateEntered (x : DawnIn)
  /-- DUSK_DRAIN_END: A Dusk drain ends and its record and stop stages run. (R446) -/
  | duskDrainEnd (t tick time : Nat) (vfuse : FuseSupply) (bad : Bool) (x : DawnIn)
  /-- WAKE_N: WAKE_N held low for 1 µs wakes the package. (R412) -/
  | wakeN (x : DawnIn)
  /-- WAKE_TIMER_EXPIRY: The wake timer expires TIMER_MS after entry and wakes the package. (R412) -/
  | wakeTimerExpiry (x : DawnIn)
  /-- REFERENCE_LOST: No reference edge for 1 µs puts clocks into holdover. (R417) -/
  | referenceLost
  /-- REFERENCE_RESTORED: The reference returns and the generators slew back to lock. (R417) -/
  | referenceRestored (x : DawnIn)
  /-- DROOP_TRIP: A droop detector trips and the die stretches its clock. (R420) -/
  | droopTrip (d : Fin 8) (t : Nat)
  /-- DROOP_RELEASE: 32 nc pass after the last trip and the stretch eases back. (R420) -/
  | droopRelease (d : Fin 8) (t : Nat)
  /-- GUARD_TRIP: The power guard trips and halves the clock until the next window. (R428) -/
  | guardTrip (fast slow : Nat)
  /-- TEMPERATURE_SAMPLE: Temperature sensors are sampled and compared with thresholds. (R429) -/
  | temperatureSample (d : Fin 9) (readings averages ages : List Nat) (time : Nat) (x : AlarmIn)
  /-- POWER_GOOD_FALL: A required rail's power-good input falls and raises the VOLT alarm. (R539) -/
  | powerGoodFall (rail : Fin 18) (mv : Nat) (x : AlarmIn)
  /-- POR_N: Power-on or POR_N resets domain 5 and starts a cold Dawn. (R435) -/
  | porN (x : Option DawnIn) (time : Nat)
  /-- WARM_RESET_N: WARM_RESET_N low for 1 µs resets domain 4. (R435) -/
  | warmResetN (x : DawnIn) (time : Nat)
  /-- DAWN_WATCHDOG_EXPIRY: A Dawn exceeds its limit, a TIMEOUT is journalled and domain 4 resets. (R445) -/
  | dawnWatchdogExpiry (kind : Fin 7) (unit : Fin 240) (x : DawnIn) (time : Nat)
  /-- FAILED_DAWN_RESTART: One second after a FAILED Dawn a warm Dawn starts. (R444) -/
  | failedDawnRestart (x : DawnIn)
  /-- FENCE_DRAINED: A fenced job partition has no transaction left and its JOB_ABORT completes. (R452) -/
  | fenceDrained (n : Fin 64)
  /-- ALARM: An alarm source trips, stops all work, erases keys and scrubs per policy. (R480) -/
  | alarmTrip (x : AlarmIn)
  /-- FUSE_SHADOW_CHECK: The periodic comparison of fuse shadow and array runs. (R464) -/
  | fuseShadowCheck (finding : Option AlarmIn)
  /-- DEBUG_GRANT: The debug-grant scrub completes and DEBUG_GRANTED is set. (R515) -/
  | debugGrant (tick : Nat)
  /-- CHALLENGE_EXPIRY: A debug challenge expires after 60 s. (R515) -/
  | challengeExpiry
  /-- GET_VERSION: SPDM GET_VERSION request. (R471) -/
  | getVersion
  /-- GET_CAPABILITIES: SPDM GET_CAPABILITIES request. (R471) -/
  | getCapabilities
  /-- NEGOTIATE_ALGORITHMS: SPDM NEGOTIATE_ALGORITHMS request. (R471) -/
  | negotiateAlgorithms (common : Bool)
  /-- GET_DIGESTS: SPDM GET_DIGESTS request. (R471) -/
  | getDigests
  /-- GET_CERTIFICATE: SPDM GET_CERTIFICATE request for the slot 0 chain. (R468) -/
  | getCertificate (slot : Fin 16) (off len : BitVec 16)
  /-- CHALLENGE: SPDM CHALLENGE request. (R471) -/
  | spdmChallenge (slot : Fin 16) (summary : Bool) (context : BitVec 64)
  /-- GET_MEASUREMENTS: SPDM GET_MEASUREMENTS request answered from one snapshot. (R472) -/
  | getMeasurements (index : BitVec 8) (signed : Bool) (context : BitVec 64)
  /-- KEY_EXCHANGE: SPDM KEY_EXCHANGE request that opens a session. (R471) -/
  | keyExchange (slot : Fin 16) (reqId : BitVec 16) (summary : Bool)
  /-- FINISH: SPDM FINISH request. (R471) -/
  | spdmFinish (id : BitVec 32) (ok : Bool)
  /-- HEARTBEAT: SPDM HEARTBEAT request. (R471) -/
  | spdmHeartbeat (id : BitVec 32) (late : Bool)
  /-- KEY_UPDATE: SPDM KEY_UPDATE request. (R471) -/
  | keyUpdate (id : BitVec 32) (op tag : BitVec 8)
  /-- END_SESSION: SPDM END_SESSION request. (R471) -/
  | endSession (id : BitVec 32)
  /-- MU_POWER_UP: VDD_MU is applied and the meter self-checks, derives its key and starts. (R492) -/
  | muPowerUp (fault : Fin 3)
  /-- MU_CLOCK_SWITCH: MU_TICK changes between the always-on clock and the island oscillator. (R491) -/
  | muClockSwitch (own : Bool) (tick : Nat)
  /-- SECOND_BOUNDARY: A second boundary closes the interval as TICK outside Noon. (R496) -/
  | secondBoundary (tick : Nat)
  /-- LATE_CLOSE: No window opens within 100 ms of a second boundary and the interval closes LATE. (R496) -/
  | lateClose (tick : Nat)
  /-- RECORD_SEAL: A closed interval's record is sealed, chained and signed once every die has latched. (R498) -/
  | recordSeal (energies : List Nat)
  /-- TRST_N: The TAP controller is reset to Test-Logic-Reset. (R505) -/
  | trstN
  /-- BYPASS: JTAG BYPASS instruction. (R506) -/
  | jtagBypass
  /-- IDCODE: JTAG IDCODE instruction. (R507) -/
  | idcode
  /-- SAMPLE_PRELOAD: JTAG SAMPLE/PRELOAD instruction. (R510) -/
  | samplePreload (levels cells : BitVec 1212)
  /-- EXTEST: JTAG EXTEST instruction, accepted only in permitted states. (R509) -/
  | extest (levels cells : BitVec 1212)
  /-- CLAMP: JTAG CLAMP instruction. (R509) -/
  | clamp
  /-- HIGHZ: JTAG HIGHZ instruction. (R509) -/
  | highz
  /-- EXTEST_PULSE: IEEE 1149.6 EXTEST_PULSE instruction on AC pins. (R512) -/
  | extestPulse (levels cells : BitVec 1212)
  /-- EXTEST_TRAIN: IEEE 1149.6 EXTEST_TRAIN instruction on AC pins. (R512) -/
  | extestTrain (levels cells : BitVec 1212)
  /-- STATUS_READ: JTAG instruction that reads and clears JTAG_STATUS. (R519) -/
  | statusRead (shift : BitVec 32)
  /-- JOURNAL_READ: JTAG instruction that reads a boot journal entry. (R513) -/
  | journalRead (index : Fin 1024)
  /-- METER_READ: JTAG instruction that reads meter records, audit entries and counts. (R514) -/
  | meterRead (sel : BitVec 24)
  /-- DEBUG_CHALLENGE: JTAG instruction that captures a debug challenge. (R515) -/
  | debugChallenge
  /-- DEBUG_RESPONSE: JTAG instruction that submits a signed debug response. (R515) -/
  | debugResponse (bytes : List Byte)
  /-- ACCESS: JTAG instruction that issues one 64-bit device access. (R516) -/
  | jtagAccess (window : BitVec 108)
  /-- ACCESS_COMPLETE: A JTAG ACCESS completes with done or error. (R516) -/
  | jtagAccessComplete (t tick : Nat)
  /-- DIE_BIST: JTAG instruction that starts logic or memory BIST on one die. (R517) -/
  | dieBist (x : BitVec 16)
  /-- DIE_BIST_COMPLETE: A die BIST finishes, zeroes the die and resets it as domain 2. (R517) -/
  | dieBistComplete (pass : Bool) (t time : Nat)
  /-- SCAN_IOD: Production instruction for the IOD scan chains. (R508) -/
  | scanIod
  /-- SCAN_CD: Production instruction for the compute-die scan chains. (R508) -/
  | scanCd
  /-- FUSE_PROD: Production instruction for PRODUCTION fuse programming. (R508) -/
  | fuseProd
  /-- RDMA_WRITE: A RoCEv2 RDMA WRITE into an open staging window. (R352) -/
  | rdmaWrite (port : Fin 2) (qpn peer rkey off : Nat) (data : List Byte)
  /-- RDMA_READ: A RoCEv2 RDMA READ from an open staging window. (R352) -/
  | rdmaRead (port : Fin 2) (qpn peer rkey off len : Nat)
  /-- ARP: An ARP frame answered by the management cores. (R352) -/
  | arp (port : Fin 2) (addr : Nat)
  /-- NEIGHBOUR_DISCOVERY: An IPv6 neighbour discovery frame answered by the management cores. (R352) -/
  | neighbourDiscovery (port : Fin 2) (addr : Nat)
  /-- ECHO_REQUEST: An ICMP or ICMPv6 echo request answered by the management cores. (R352) -/
  | echoRequest (port : Fin 2) (six : Bool) (addr : Nat)
  /-- UNSUPPORTED_FRAME: Any other Ethernet frame, discarded and counted in RX_DISCARDS. (R352) -/
  | unsupportedFrame (port : Fin 2)
  /-- DAWN_DONE: A Dawn, or the Dawn steps of a wake from Midnight, reaches the end of step 14, starts the Hour generator and queues DAWN_DONE. (R438) -/
  | dawnDone (x : DawnIn) (map : List (Nat × Nat × Nat × Nat)) (cut : List Nat) (t tick : Nat)
  /-- TWILIGHT_WAKE_COMPLETE: A wake from Twilight finishes its stages, resumes the Hour generator and completes the WAKE descriptor. (R413) -/
  | twilightWakeComplete (bad : List (Fin 8)) (tick : Nat)
  /-- DOMAIN_RESET_COMPLETE: A reset of domain 1, 2 or 3 ends and the domain runs again, completing any RESET descriptor. (R435) -/
  | domainResetComplete (dom : Fin 4) (d : Fin 8) (k : Fin 4) (slot : Fin 5) (pass : Bool)
  /-- POWER_GOOD_RISE: A main-rail power-good input rises after MAIN_PWR_EN is raised, letting Dawn step 5 or a wake from Midnight proceed. (R536) -/
  | powerGoodRise (x : DawnIn)
  /-- PERST_N_RELEASE: PERST_N is released and the host endpoint's link may train again. (R436) -/
  | perstNRelease
  /-- PCIE_LINK_UP: The PCIe link trains and comes up, so the host interface can run again. (R349) -/
  | pcieLinkUp
  /-- VDD_AON_REMOVAL: VDD_AON is removed, losing the journal, the failure counts and the always-on state, and releasing THERMTRIP_N. (R435) -/
  | vddAonRemoval
  /-- VDD_MU_REMOVAL: VDD_MU is removed and the Metering Unit loses its counters, records and audit log. (R492) -/
  | vddMuRemoval
  /-- WAKE_REFERENCE_TIMEOUT: A WAKE taken while the rack reference is absent completes with STATE_CONFLICT after 1 ms. (R415) -/
  | wakeReferenceTimeout
  deriving DecidableEq, Repr

end Sys2Proof
end

