-- ==== Sys2Proof/Machine/Bits.lean ====
section
/-!
DEFINITION. Bit fields, saturating counts and little-endian bytes (00_scope.md, "Notation and units": bit 0 is the least
significant bit; multi-byte values are little-endian).
-/

namespace Sys2Proof

/-- The `w` bits of `n` from bit `lo` up. -/
def fld (n lo w : Nat) : Nat := (n / 2 ^ lo) % 2 ^ w

/-- `n` with the `w` bits from bit `lo` up replaced by `x` (cut to `w` bits). -/
def setFld (n lo w x : Nat) : Nat := n - fld n lo w * 2 ^ lo + (x % 2 ^ w) * 2 ^ lo

/-- Bit `i` of `n`. -/
def bitAt (n i : Nat) : Bool := fld n i 1 == 1

/-- `n` with bit `i` set. -/
def setBit (n i : Nat) : Nat := setFld n i 1 1

/-- The two's complement value of the low `w` bits of `n`. -/
def sext (n w : Nat) : Int := if 2 ^ (w - 1) ≤ n % 2 ^ w then (n % 2 ^ w : Nat) - (2 ^ w : Nat) else (n % 2 ^ w : Nat)

/-- The `w`-bit two's complement code of an integer. -/
def ofInt (w : Nat) (i : Int) : Nat := (i % (2 ^ w : Nat)).toNat

/-- Add `k` to a count that stops at `2 ^ w - 1` and does not wrap (R354 and the counter rules of every chapter). -/
def satAdd (w x k : Nat) : Nat := min (x + k) (2 ^ w - 1)

/-- The number a little-endian byte list spells. -/
def leNat : List Byte → Nat
  | [] => 0
  | b :: t => b.toNat + 256 * leNat t

/-- The `k` little-endian bytes of a number. -/
def leBytes : Nat → Nat → List Byte
  | 0, _ => []
  | k + 1, n => BitVec.ofNat 8 n :: leBytes k (n / 256)

/-- Numbers `0` to `n - 1` that satisfy `p`, in order. -/
def upto (n : Nat) (p : Nat → Bool) : List Nat := (List.range n).filter p

/-- Ceiling of `a / b`. -/
def ceilDiv (a b : Nat) : Nat := (a + b - 1) / b

end Sys2Proof
end

