-- ==== Sys2Proof/Machine/Tab.lean ====
section
/-!
DEFINITION. Tables by number: sparse data as a list of (key, value) pairs in one canonical form. Keys rise strictly and no
entry equals what an unlisted key reads as, so that equal contents are equal data.
-/

namespace Sys2Proof

/-- Sparse contents by number. -/
abbrev Tab (α : Type) := List (Nat × α)

/-- The value at a key; an unlisted key reads as `d key`. -/
def Tab.get {α : Type} (d : Nat → α) : Tab α → Nat → α
  | [], k => d k
  | e :: t, k => if e.1 = k then e.2 else Tab.get d t k

/-- The table without the key. -/
def Tab.erase {α : Type} (k : Nat) : Tab α → Tab α
  | [] => []
  | e :: t => if e.1 = k then Tab.erase k t else e :: Tab.erase k t

/-- The table with an entry put in front of the first larger key. -/
def Tab.insert {α : Type} (k : Nat) (v : α) : Tab α → Tab α
  | [] => [(k, v)]
  | e :: t => if k < e.1 then (k, v) :: e :: t else e :: Tab.insert k v t

/-- The table with the value at a key replaced; a value that an unlisted key reads as removes the entry. -/
def Tab.put {α : Type} [DecidableEq α] (d : Nat → α) (l : Tab α) (k : Nat) (v : α) : Tab α :=
  if v = d k then Tab.erase k l else Tab.insert k v (Tab.erase k l)

/-- Every key of the table is above the bound, keys rise strictly, and no entry is redundant. -/
def Tab.wfFrom {α : Type} [DecidableEq α] (d : Nat → α) : Option Nat → Tab α → Bool
  | _, [] => true
  | lo, e :: t =>
    (match lo with | none => true | some b => decide (b < e.1)) && !decide (e.2 = d e.1) && Tab.wfFrom d (some e.1) t

/-- The canonical form. -/
def Tab.wf {α : Type} [DecidableEq α] (d : Nat → α) (l : Tab α) : Bool := Tab.wfFrom d none l

end Sys2Proof
end

