-- ==== Sys2Proof/Machine/State.lean ====
section
/-!
DEFINITION. The state of the LN1 block, as plain data: registers, memories, queues and the state that the chapters give each
unit beside its registers, and the queue of waiting commands. A default value of a field is its value at reset.
-/

namespace Sys2Proof.Machine

/-- Reasons a command faults. No command of this block ends the machine with a fault: what the spec calls a fault is a status
bit, a counter, an event or a stop of a partition, all of them state. -/
inductive Fault where
  /-- Raised by no command; kept so that the type names a reason. Safe. -/
  | none
  deriving DecidableEq, Repr

/-- Reasons a command is refused. -/
inductive Refusal where
  /-- The command has no meaning yet. Raised by Dispatch arms only. Safe. -/
  | notModelled (mnemonic : String)
  /-- A production scan or fuse instruction on a part that is not locked for production: the spec does not state what the
  chains hold (R508). Raised by scanIod, scanCd and fuseProd. Safe. -/
  | productionTest (mnemonic : String)
  deriving DecidableEq, Repr

/-- What the device sends to its surroundings (the model's own record, log entry 6). -/
inductive Output where
  /-- A memory write to host memory: address, length in bytes, little-endian data. -/
  | hostWrite (addr len data : Nat)
  /-- An MSI-X message of a vector. -/
  | msix (vector : Nat)
  /-- Data returned for a read: length in bytes, little-endian data. -/
  | readData (len data : Nat)
  /-- A frame of 288 bytes sent by a module end (Table 9-8). -/
  | d2dFrame (key bits : Nat)
  /-- A control message of 32 bytes sent by a module end (Table 9-9). -/
  | d2dMsg (key bits : Nat)
  /-- A flow unit of 256 bytes sent by a Tocheas port (Table 11-4). -/
  | tclUnit (port bits : Nat)
  /-- A port's wake signalling (R305). -/
  | tclWake (port : Nat)
  /-- An answer on an Ethernet port (R352): 0 acknowledgement, 1 remote access error, 2 ARP reply, 3 neighbour advertisement,
  4 echo reply. -/
  | net (port kind : Nat)
  /-- An SPDM response message, byte 0 lowest (R471). -/
  | spdm (len data : Nat)
  /-- Bits captured by the test access port and shifted out at TDO (R504). -/
  | tdo (bits data : Nat)
  /-- A pin-driving test instruction in force, by opcode, with the boundary cells it drives from (R509, R512). -/
  | pins (ir cells : Nat)
  /-- A configuration request answered: Request Retry Status, or normally (R440). -/
  | config (retry : Bool)
  /-- A voltage setpoint commanded over AVSBus: rail 2 d for VDD_CDd, 2 d + 1 for VDDM_CDd, in mV (R424). -/
  | avs (rail mv : Nat)
  /-- A level of a control land: 0 MAIN_PWR_EN, 1 VFUSE_EN, 2 THERMTRIP_N (Table 22-4). -/
  | land (which : Nat) (high : Bool)
  deriving DecidableEq, Repr

/-! ## Host rings (13_host_rings.md) -/

/-- A completion (Table 13-5) that has not been written. -/
structure Compl where
  rid : Nat
  cmdId : Nat
  status : Nat
  r0 : Nat
  r1 : Nat
  deriving DecidableEq, Repr

/-- A ring (R329, R330). For a submission ring `head` is the device's and `tail` the host's; for a completion or event ring
the other way round. -/
structure Ring where
  live : Bool := false
  log2 : Nat := 0
  base : Nat := 0
  cq : Nat := 0
  vector : Nat := 0
  holdoff : Nat := 0
  head : Nat := 0
  tail : Nat := 0
  phase : Bool := true
  error : Bool := false
  /-- CMD_IDs of the descriptors taken and not completed, in ring order. -/
  taken : List Nat := []
  /-- Completions that wait because this completion ring is in ERROR. -/
  waiting : List Compl := []
  /-- An MSI-X message was sent within the last HOLDOFF_US (R340). -/
  heldOff : Bool := false
  /-- Entries were written since the last message (R340). -/
  unannounced : Bool := false
  deriving DecidableEq, Repr

/-- An event (Table 13-6) in the IOD queue: DATA as a little-endian number. -/
structure EventRec where
  data : Nat
  type : Nat
  part : Nat
  source : Nat
  seq : Nat
  deriving DecidableEq, Repr

/-- A change set that waits for its Hour (R54, R61, R345). -/
structure ChangeSet where
  cmdId : Nat
  planned : Bool
  /-- 0: the first Hour whose window has not opened. -/
  target : Nat
  entries : List RegEntry
  /-- TOP_HOUR_COUNT when the set was taken. -/
  takenAt : Nat
  deriving DecidableEq, Repr

/-- A patch set that waits for its Hour (R212, R346). -/
structure PatchSet where
  rid : Nat
  cmdId : Nat
  target : Nat
  entries : List PatchEntry
  takenAt : Nat
  deriving DecidableEq, Repr

/-- An address of an Ethernet port (R353). -/
structure NetAddr where
  prefixLen : Nat
  pfc : Nat
  vlan : Nat
  address : Nat
  deriving DecidableEq, Repr

/-- An open RDMA window (R353). -/
structure NetWindow where
  port : Nat
  access : Nat
  peerQpn : Nat
  peerAddr : Nat
  offset : Nat
  length : Nat
  qpn : Nat
  rkey : Nat
  deriving DecidableEq, Repr

/-- The host interface beside its registers. -/
structure HostIf where
  rings : Tab Ring := []
  events : List EventRec := []
  evSeq : Nat := 0
  /-- Events lost since the previous EVENTS_LOST entry (R334). -/
  evLost : Nat := 0
  /-- A host-interface reset is under way (R349). -/
  resetting : Bool := true
  /-- Rings 0 and 128 run. -/
  running : Bool := false
  linkUp : Bool := true
  perst : Bool := false
  /-- MSI-X Enable and Function Mask of the MSI-X capability. -/
  msixEnable : Bool := false
  msixMask : Bool := false
  sets : List ChangeSet := []
  patches : List PatchSet := []
  netAddrs : Tab (Option NetAddr) := []
  windows : List NetWindow := []
  /-- High words latched by a read of a low word (R524): TOP_HOUR_COUNT, CLK_AON_TICK, MU_TICK. -/
  latchHour : Nat := 0
  latchAon : Nat := 0
  latchMu : Nat := 0
  deriving DecidableEq, Repr

/-! ## Dies and their flag files (02, 06, 08) -/

/-- What met on one flag in the present cycle (R220, Table 8-3). -/
structure FlagCell where
  start : Bool
  granted : Bool
  sets : Nat
  clears : Nat
  deriving DecidableEq, Repr

/-- What met on one counter in the present cycle (R220, Table 8-3). -/
structure CtrCell where
  start : Nat
  granted : Nat
  adds : Nat
  /-- Requester and value of the value-view write that stands. -/
  write : Option (Nat × Nat)
  deriving DecidableEq, Repr

/-- An entry of a die's row error table (R176), oldest first in its list; the row by its physical place. -/
structure RowErr where
  row : Nat
  count : Nat
  /-- The scrubber has found an error in the row in its present pass of the row's unit. -/
  inPass : Bool
  deriving DecidableEq, Repr

/-- A hold in progress (R262-R265). -/
structure Hold where
  cause : Nat
  module : Nat
  core : Nat
  card : Nat
  since : Nat
  /-- The cycle of the hold's last HANG (R455). -/
  hung : Option Nat := none
  deriving DecidableEq, Repr

/-- Condition of a compute die. -/
inductive DieCond where
  | inService | absent | inReset
  deriving DecidableEq, Repr

/-! ## The mesh and the DMA movers' lines (06 R155-R163, 09 R238-R246) -/

/-- A DMA item whose lines are still to be read at their source: the mover's core, the card's issue number, iteration and source
copy, the engine cycle from which its request stands at the source, and the lines, ascending. -/
structure SrcRead where
  core : Nat
  seq : Nat
  iter : Nat
  copy : Nat
  from' : Nat
  todo : List Nat
  deriving DecidableEq, Repr

/-- A line of a DMA item on the mesh: its item and line, its bytes and poison mark, the target copy it is for (of a line on a
multicast tree: the table entry it follows), the node it stands at, the links still to go, the cycle from which it may leave,
the port it came in by, the order in which lines left their sources, and whether it has waited. -/
structure MeshLine where
  core : Nat
  seq : Nat
  iter : Nat
  line : Nat
  copy : Nat
  tree : Option Nat
  bytes : List Byte
  bad : Bool
  node : Nat
  path : List Nat
  at' : Nat
  port : Nat
  ord : Nat
  waited : Bool
  deriving DecidableEq, Repr

/-- A line at its target that is still to be written, or to enter an egress queue. -/
structure Landing where
  core : Nat
  seq : Nat
  iter : Nat
  line : Nat
  copy : Nat
  bytes : List Byte
  bad : Bool
  at' : Nat
  ord : Nat
  deriving DecidableEq, Repr

/-- The lines of a die's DMA movers under way; everything before engine cycle `upTo` has been done. -/
structure Mesh where
  upTo : Nat := 0
  next : Nat := 0
  reads : List SrcRead := []
  hops : List MeshLine := []
  lands : List Landing := []
  deriving DecidableEq, Repr

/-- What a swap window left for a die that had not reached its Hour, to apply in that die's own window (R49, R52): the Hour and the
window's length, the die's staged words, register writes and region 3 writes of step 7, and the partitions whose windows it copies. -/
structure LateSet where
  hour : Nat
  len : Nat
  words : Tab (Option W32)
  now : List (Bool × Nat × Nat)
  casts : List (Nat × List Byte)
  copies : List Nat := []
  deriving DecidableEq, Repr

/-- A compute die beside its registers. Times are noon-cycle numbers `t` of the package (log entry 7). -/
structure DieState where
  cond : DieCond := .inService
  /-- The units run from time `t0` on, with engine cycle `e0` and schedule count `s0` at `t0`; stopped where `run` is false. -/
  run : Bool := true
  t0 : Nat := 0
  e0 : Nat := 0
  s0 : Nat := 0
  /-- Engine cycle at which the die's last window opened, and the schedule counts of that window (R44). -/
  winEng : Nat := 0
  winGap : Nat := 0
  /-- The Hour at which the die waits for the window. -/
  atHour : Option Nat := none
  /-- The last Hour whose window the die took. -/
  lastHour : Nat := 0
  /-- The windows that opened without the die, oldest first. -/
  held : List LateSet := []
  hold : Option Hold := none
  /-- The cycle of the flag file's last operation, and the cells that operations of that cycle touched. -/
  flagT : Nat := 0
  flagCells : Tab (Option FlagCell) := []
  ctrCells : Tab (Option CtrCell) := []
  /-- SET_COALESCE of the four clusters, and COALESCED, before the operations of that cycle. -/
  coalBase : List Nat := []
  coalWas : Bool := false
  /-- Hour counts of the last ARRIVE and OPEN messages heard (of a die: OPEN; for the IOD's use: ARRIVE of this die). -/
  heardArrive : Nat := 0
  heardOpen : Nat := 0
  mesh : Mesh := {}
  /-- Lines of write items of other dies that have landed here: sending die, tag and lines (R254). -/
  landing : List (Nat × Nat × Nat) := []
  rowErrs : List RowErr := []
  remapQ : List Nat := []
  sparesUsed : Tab Nat := []
  /-- Swap windows in which the scrubber has read its lines, and lines it has read in idle bank cycles, by unit (R175). -/
  scrubWin : Nat := 0
  scrubIdle : Tab Nat := []
  /-- Rows, by physical place: those that the repair fuses map out, found at production test, those recorded in the field fuses,
  those that the last cold Dawn mapped out, as the always-on store holds them, and those remapped but not recorded (R178). -/
  prodRows : List Nat := []
  fieldRows : List Nat := []
  foundRows : List Nat := []
  unrecorded : List Nat := []
  /-- Holes in effect, and those recorded in the field fuses (R179). -/
  holes : List Nat := []
  fusedHoles : List Nat := []
  /-- Macros that needed a remap and have no spare row left; the next Dawn handles them (R179). -/
  exhausted : List Nat := []
  /-- Die-local logical cores whose position a spare has taken since the slots were chosen (R240). -/
  remapped : List Nat := []
  deriving DecidableEq, Repr

/-! ## The Hour (02_the_hour_and_partitions.md) -/

/-- A JOB_ABORT or JOB_RESUME that waits for its target Hour (R452, R453). -/
structure JobChange where
  cmdId : Nat
  part : Nat
  resume : Bool
  gen : Nat
  target : Nat
  deriving DecidableEq, Repr

/-- The package's Hour beside its registers. -/
structure HourState where
  /-- The Hour that a die has reached first, at which ARRIVE_LIMIT runs. -/
  firstAt : Option Nat := none
  /-- The last Hour that every die in service has reached, and the last whose window has opened (R288). -/
  reached : Nat := 0
  opened : Nat := 0
  /-- The noon cycle in which the window opened last ends (WINDOW_OPEN of Table 2-2). -/
  winEnd : Nat := 0
  /-- Copies of flag windows that the end of a window makes: die, partition and the noon cycle of that end (R234). -/
  copies : List (Nat × Nat × Nat) := []
  /-- The package has left the coupled system (R67), or joins it at the next window (R65). -/
  left : Bool := false
  joining : Bool := false
  /-- Cores whose place a spare takes in step 2 of the next window (R30, R447). -/
  sparing : List Nat := []
  /-- Cores that are fenced in step 2 of the next window (R180). -/
  toFence : List Nat := []
  /-- JOB_ABORT and JOB_RESUME descriptors that wait for their Hour. -/
  jobs : List JobChange := []
  /-- Broadcast writes to region 3 that wait for the next window: offset and bytes (R222). -/
  flagCasts : List (Nat × List Byte) := []
  deriving DecidableEq, Repr

/-! ## Accumulators and engines (03, 04) -/

/-- Special state of a cell's bank (R86). -/
inductive Special where
  | finite | posInf | negInf | nan
  deriving DecidableEq, Repr

/-- One cell's bank: its value in units of 2^A, its special state and its SAT latch (R79, R86, R88). -/
structure Cell where
  v : Int := 0
  sp : Special := .finite
  lat : Bool := false
  deriving DecidableEq, Repr

/-- One bank of an engine's tile. Cells are in row-major order, check cells the check column then the check row; an empty list
is a cleared bank. The event fields gather what a pass causes until it ends (R99, R100). -/
structure Bank where
  cells : List Cell := []
  checks : List Cell := []
  anchor : Int := 0
  trunc : Nat := 0
  passTrunc : Nat := 0
  ovf : Nat := 0
  sat : Bool := false
  shift : Bool := false
  trap : Bool := false
  infSeen : Bool := false
  nanSeen : Bool := false
  poisoned : Bool := false
  /-- Poison from an error in the buffer itself rather than from shared memory (R118, R181). -/
  ownError : Bool := false
  deriving DecidableEq, Repr

/-! ## Cores (04, 05, 07, 08, 10) -/

/-- A card in flight (R198). Times are engine cycles of its die (R101). Items are keyed by slot, engine and iteration. -/
structure Flight where
  /-- Number of the card in the order of issue of its core. -/
  seq : Nat := 0
  pos : Nat := 0
  /-- The 256 bytes of the card. -/
  card : Nat := 0
  issue : Nat := 0
  step : Nat := 0
  gen : Nat := 0
  /-- The card has a remote part: a line of it crosses off-die (R199). -/
  remote : Bool := false
  /-- Items read, and write items released, with the cycle from which they count so (R228). -/
  readAt : Tab (Option Nat) := []
  relAt : Tab (Option Nat) := []
  /-- Number, within its collective group, of a REDUCE card's first item. -/
  base : Nat := 0
  /-- Items that the card has started and done: DMA items, vector groups, drained tiles. -/
  started : Nat := 0
  done : Nat := 0
  /-- The engine cycle of the first request of each DMA item that has started and is not complete (R229), and of the last one. -/
  begun : Tab (Option Nat) := []
  lastBegun : Nat := 0
  /-- Bytes of a DMA item as its lines were read, or arrived from off-die, by iteration and source copy. -/
  fetched : Tab (List Byte) := []
  /-- Off-die lines that an item still waits for, or whose report is outstanding, by iteration. -/
  awaited : Tab Nat := []
  /-- Lines of a DMA item not yet read at their source, and line copies not yet written at a target or in an egress queue, by
  iteration; and the cycle from which the last of them stands there (R198, R228). -/
  unread : Tab Nat := []
  unplaced : Tab Nat := []
  placedAt : Tab Nat := []
  /-- Bytes written, by output item in the order of R277. -/
  wrote : Tab (List Byte) := []
  /-- Transaction tags whose report is outstanding (Table 7-10), with the item they belong to. -/
  tags : List (Nat × Nat) := []
  localAt : Option Nat := none
  fullAt : Option Nat := none
  deriving DecidableEq, Repr

/-- A pass that accumulates (R108): its card and iteration, s, T and the cycles already accumulated. -/
structure PassRun where
  seq : Nat
  iter : Nat
  s : Nat
  len : Nat
  cyc : Nat
  drains : Bool
  deriving DecidableEq, Repr

/-- A pass that has ended and waits for its drain (R111): its card, iteration, bank, end e and drain length D. -/
structure DrainWait where
  seq : Nat
  iter : Nat
  bank : Nat
  fin : Nat
  len : Nat
  deriving DecidableEq, Repr

/-- A tile in the converter or the write lane (R108, R117): start d, length D and what it will write and report. -/
structure TileDrain where
  seq : Nat
  iter : Nat
  start : Nat
  len : Nat
  bytes : List Byte
  sats : Nat
  nan : Bool
  skip : Bool
  fails : Nat
  trunc : Nat
  poisoned : Bool
  ownError : Bool
  deriving DecidableEq, Repr

/-- A PRESCAN that has begun (R114). -/
structure Prescan where
  seq : Nat
  iter : Nat
  /-- The cycle of its next scale read, and the cycle after its last one so far. -/
  at' : Nat
  fin : Nat
  /-- Scale bytes of A and B read so far, by block position; `none` for an operand without scales. -/
  reads : List (Option (List Nat) × Option (List Nat)) := []
  deriving DecidableEq, Repr

/-- A logical engine (R105-R114). -/
structure Engine where
  wait : Option Nat := none
  run : Option Nat := none
  /-- Iteration of the card in the run position whose pass is next. -/
  iter : Nat := 0
  cur : Option PassRun := none
  /-- Start and end of the last pass started. -/
  lastS : Nat := 0
  lastE : Nat := 0
  /-- A pass has run since the core's stream started (Table 3-6). -/
  ran : Bool := false
  /-- Draining passes begun (R111): pass n uses bank n mod 2. -/
  passNo : Nat := 0
  /-- A bank left undrained, which the next pass continues. -/
  open' : Bool := false
  free0 : Nat := 0
  free1 : Nat := 0
  convFree : Nat := 0
  bank0 : Bank := {}
  bank1 : Bank := {}
  /-- The anchor with which the last pass ended (R113). -/
  carry : Int := 0
  toDrain : List DrainWait := []
  drains : List TileDrain := []
  scan : Option Prescan := none
  scanFree : Nat := 0
  /-- Cycle of the last release of a held pass of this engine (R229). -/
  relAt : Nat := 0
  deriving DecidableEq, Repr

/-- An output of the vector engine that has left its group: bytes by address, offered to the write port at a cycle (R142). -/
structure VOut where
  seq : Nat
  iter : Nat
  due : Nat
  offered : Bool
  /-- An element output, which counts in the hold of four groups (R143). -/
  element : Bool
  /-- It ends its iteration's item of its descriptor. -/
  last : Bool
  slot : Nat
  lines : List (Nat × List Byte)
  /-- What the group reports as it leaves the pack stage: lanes rounded, lanes saturated, status bits. -/
  trunc : Nat
  sat : Nat
  bits : List Nat
  group : Bool
  /-- A line the group read was poisoned (R174). -/
  poisoned : Bool := false
  deriving DecidableEq, Repr

/-- The running record of a vector scope (R138). -/
structure RedRun where
  started : Bool := false
  value : Int := 0
  exp : Int := 0
  index : Nat := 0
  nan : Bool := false
  sat : Bool := false
  deriving DecidableEq, Repr

/-- The vector engine of a core (R141-R143). -/
structure VectorEngine where
  wait : Option Nat := none
  run : Option Nat := none
  iter : Nat := 0
  group : Nat := 0
  /-- The cycle in which the next group enters if nothing holds it. -/
  due : Nat := 0
  /-- The cycle in which a waiting card last moved to the run position (R141). -/
  movedAt : Option Nat := none
  /-- Waits for the write port are counted up to, and not including, this cycle (R143). -/
  portAt : Nat := 0
  outs : List VOut := []
  red : RedRun := {}
  /-- Bytes of the running card's broadcast elements and record inputs, by input and 4 times the iteration, read with its first
  group (R128, R228). -/
  bcast : Tab (List Byte) := []
  /-- Scale bytes of a run of blocks whose scale line is not yet offered (R129). -/
  scales : List Byte := []
  deriving DecidableEq, Repr

/-- A core's present reason not to issue the next card: kind (Table 8-10), slot, and since which engine cycle; and, where a
wait firing of the same card was interrupted by a firing of another kind, the cycles it has lasted and its slot (R235). -/
structure Blocked where
  kind : Nat
  slot : Nat
  since : Nat
  waited : Nat := 0
  waitSlot : Nat := 0
  deriving DecidableEq, Repr

/-- A firing whose delay ended in the present engine cycle of its core, kept so that firings of one cycle are recorded in the
order of R236: card position, SLOT, KIND and delay. -/
structure Fired where
  pos : Nat
  slot : Nat
  kind : Nat
  delay : Nat
  deriving DecidableEq, Repr

/-- A byte written at a cycle (R106, R160, R162): its device address, the engine cycle of its die, the writer's rank among the
writers of one cycle, and what the byte held before. -/
structure Past where
  addr : Nat
  cyc : Nat
  rank : Nat
  old : Byte
  deriving DecidableEq, Repr

/-- A closed layer digest (R278, R279). -/
structure LayerClose where
  layer : Nat
  step : Nat
  gen : Nat
  value : Nat
  deriving DecidableEq, Repr

/-- A logical core beside its registers: its sequencer, units and digests. -/
structure CoreState where
  /-- t0 of the stream, or of its refill, in engine cycles. -/
  t0 : Nat := 0
  /-- Cards issued since t0 (up to 16, R192). -/
  fresh : Nat := 0
  lastIssue : Option Nat := none
  /-- Cards in the card queue and cards requested: position, card; position, cycle of the request (R186). -/
  queue : List (Nat × Nat) := []
  asked : List (Nat × Nat) := []
  seq : Nat := 0
  flights : List Flight := []
  blocked : Option Blocked := none
  /-- Cycle from which only the card queue kept the next card from issuing (R186). -/
  fetchFrom : Option Nat := none
  /-- The Hour whose t0 ends an aligned HOUR_MARK (R209). -/
  alignHour : Option Nat := none
  /-- STEP of the current step and position of the HOUR_MARK that opened it. -/
  step : Nat := 0
  markPos : Nat := 0
  /-- The cycle of an overflow under TRAP: no card issues in a later one (R88). -/
  trapped : Option Nat := none
  /-- The core is fenced (R97, R118). -/
  fenced : Bool := false
  engines : Tab Engine := []
  vec : VectorEngine := {}
  /-- Lines that enter the landing queues of core memory, by cycle and bank, and whether from an engine's lane; and, by bank, the
lines queued at the start of a cycle before them (R158). The lines of a tile that drains stand here from the start of its drain. -/
  landed : List (Nat × Nat × Bool) := []
  landQ : Tab (Nat × Nat) := []
  /-- Lines that the write lanes of engines and the vector engine write, by cycle (R110, R158), and bank reads of the vector
engine, by cycle and bank (R156). -/
  portUse : Tab Nat := []
  vecReads : List (Nat × Nat) := []
  /-- Fills and DMA reads of operand buffers that were served of late: cycle, 2 times the engine plus the buffer, bank (R105). -/
  fills : List (Nat × Nat × Nat) := []
  /-- The firings that ended in an engine cycle, and CORE_ILK_FIRST before it (R236). -/
  fired : Nat × List Fired × Nat := (0, [], 0)
  /-- Items of REDUCE cards issued so far, by collective group. -/
  reduceSeq : Tab Nat := []
  /-- Open layer digests, card digests not yet folded, layer digests closed since the last window (R278, R279). -/
  layers : List (Nat × Nat) := []
  unfolded : List (Nat × Nat) := []
  closed : List LayerClose := []
  deriving DecidableEq, Repr

/-! ## Collectives (10 R272-R275) -/

/-- A collective group as the loader recorded it: the ranks of the job's packages that hold members, this package's rank, and
this package's members as package logical cores (R272). -/
structure Group where
  part : Nat
  group : Nat
  pkgs : List Nat
  rank : Nat
  members : List Nat
  /-- Peer-table entry of each package of `pkgs`, in its order; this package's own entry is not used. -/
  peers : List Nat := []
  deriving DecidableEq, Repr

/-- An operand line of a collective at a combining point: its rank, the cycle of its arrival, its bytes and poison mark. -/
structure RedOp where
  rank : Nat
  at' : Nat
  bytes : List Byte
  bad : Bool
  deriving DecidableEq, Repr

/-- One 32-byte line of one item at one level of a collective: the combining die, and its operands so far in the order in which
they count as arrived (R274). -/
structure Combine where
  part : Nat
  group : Nat
  item : Nat
  line : Nat
  level : Nat
  place : Nat
  ops : List RedOp
  deriving DecidableEq, Repr

/-- What goes with a REDUCE_DATA frame and has no place in Table 9-8 (log entry 32): the collective's group and item, the
sender's rank at the level the operand is for, or that it is a result, and the die it is for in the end. -/
structure RedMark where
  group : Nat
  item : Nat
  rank : Nat
  level : Nat
  result : Bool
  target : Nat
  deriving DecidableEq, Repr

/-! ## Die links (09) -/

/-- A frame (Table 9-8) without its SEQ and CHECK; `data` is the payload of 256 bytes, line 0 lowest. The marks that go beside
its lines (R174, R190, R273) have no place in Table 9-8 (log entry 32): `bad` holds the poisoned lines, `tail` the bytes of the
last line that belong to its item, 0 for all, `red` what a REDUCE_DATA frame carries. -/
structure Frame where
  kind : Nat := 0
  src : Nat := 0
  dest : Nat := 0
  cls : Nat := 0
  part : Nat := 0
  gen : Nat := 0
  lmask : Nat := 0
  tag : Nat := 0
  remote : Nat := 0
  peer : Nat := 0
  lc : Nat := 0
  level : Nat := 0
  region : Nat := 0
  addr : Nat := 0
  data : Nat := 0
  bad : Nat := 0
  tail : Nat := 0
  red : Option RedMark := none
  deriving DecidableEq, Repr

/-- A control message (Table 9-9) without its SEQ and CHECK. -/
structure Msg where
  kind : Nat := 0
  src : Nat := 0
  dest : Nat := 0
  body : Nat := 0
  deriving DecidableEq, Repr

/-- One end of a UCIe module (R255, R256, R260): 4 d + m for module m of die d, 32 + t for termination t of the IOD. -/
structure ModEnd where
  outOfService : Bool := false
  retraining : Bool := false
  failedRetrains : Nat := 0
  /-- SEQ of the next frame or message sent, and of the next one expected. -/
  sendF : Nat := 0
  sendM : Nat := 0
  wantF : Nat := 0
  wantM : Nat := 0
  replayF : List (Nat × Frame) := []
  replayM : List (Nat × Msg) := []
  /-- SEQ last named by a NAK received, and how often in a row. -/
  nakF : Nat × Nat := (0, 0)
  nakM : Nat × Nat := (0, 0)
  /-- Items accepted since the last ACK sent. -/
  gotF : Nat := 0
  gotM : Nat := 0
  /-- Egress queues (R260). Of REQ and RSP frames those past the queue's size wait in front of it. -/
  reqE : List Frame := []
  rspE : List Frame := []
  /-- Frames of the REQ ingress queue that wait: at IOD ends behind a remote frame (R299), at dies for room in the reduce buffer
(R273); each with its collective group. -/
  inQ : List (Frame × Nat) := []
  /-- The CONTROL egress queue, and messages other than signals that wait for room in it (R260). -/
  ctlE : List Msg := []
  ctlW : List Msg := []
  /-- By queue (0 REQ, 1 RSP, 2 SIG, 3 RREQ): entries sent, FREED last received, own FREED. -/
  sent : Tab Nat := []
  freedGot : Tab Nat := []
  freed : Tab Nat := []
  deriving DecidableEq, Repr

/-! ## Tocheas ports (11) -/

/-- A flow unit (Tables 11-4 to 11-6) without CHECK and RET fields; `data` is the payload of 224 bytes, line 0 lowest. -/
structure FlowUnit where
  kind : Nat := 0
  vc : Nat := 0
  dest : Nat := 0
  src : Nat := 0
  dpart : Nat := 0
  spart : Nat := 0
  gen : Nat := 0
  lmask : Nat := 0
  tag : Nat := 0xFFFF
  lc : Nat := 0
  level : Nat := 0
  addr : Nat := 0
  count : Nat := 0
  last : Nat := 0
  hops : Nat := 0
  group : Nat := 0
  data : Nat := 0
  deriving DecidableEq, Repr

/-- A unit in a port's receive pool (R293), with what its header does not say of a REDUCE_DATA unit: the item, the sender's
rank, and whether it carries a result. -/
structure PoolUnit where
  unit : FlowUnit
  passed : Bool
  item : Nat
  rank : Nat
  result : Bool
  deriving DecidableEq, Repr

/-- A change of a lane or a quad under way on a port (R294-R296); `spare` is 0x7F where the quad goes out. -/
structure LaneChange where
  lane : Nat
  spare : Nat
  seqAt : Nat
  mine : Bool
  paused : Bool
  deriving DecidableEq, Repr

/-- A Tocheas port beside its registers (R289-R306). -/
structure Port where
  retraining : Bool := false
  failedRetrains : Nat := 0
  sendSeq : Nat := 0
  wantSeq : Nat := 0
  /-- Sequenced units sent and not covered by an ACK, oldest first. -/
  replay : List (Nat × FlowUnit) := []
  /-- Sequence at which the last replay started, and replays that started there in a row. -/
  replays : Nat × Nat := (0, 0)
  /-- Units of this package that wait to leave on the port. -/
  waiting : List FlowUnit := []
  /-- By VC: units sent, grant last received; units in the pool, released, own grant, shared units lent. -/
  sent : Tab Nat := []
  grantGot : Tab Nat := []
  pool : List PoolUnit := []
  released : Tab Nat := []
  grant : Tab Nat := []
  lent : Tab Nat := []
  /-- Units accepted since the last ACK_SEQ sent. -/
  got : Nat := 0
  /-- A unit was discarded and the unit expected has not come (R289). -/
  nakOpen : Bool := false
  /-- POWER sent in LINK units (Table 11-7); SLEEP_IDLE_US passed without a sequenced unit; sleep agreed. -/
  power : Nat := 0
  idle : Bool := false
  agreed : Bool := false
  change : Option LaneChange := none
  /-- A spare in service and the lane it replaced. -/
  subst : List (Nat × Nat) := []
  /-- Failed lanes whose change waits for the one under way (R295). -/
  lanesDue : List Nat := []
  /-- From the neighbour's last LINK unit: its HOUR_ARRIVED and HOUR_OPENED; a LINK unit has come; its HOUR_LEN_LOG2 differs. -/
  farArrived : Nat := 0
  farOpened : Nat := 0
  farSeen : Bool := false
  farLenBad : Bool := false
  farCoupled : Bool := false
  /-- The quad that took the last unit sent, the units that each quad has sent since it trained, and the sequence at which the
  rotation of a narrowed port starts (R284, R296). -/
  turn : Option Nat := none
  dealt : Tab Nat := []
  turnAt : Option Nat := none
  deriving DecidableEq, Repr

/-- An outstanding transaction (R297, R298), keyed by its package tag. `head` is the template of its units. -/
structure Txn where
  part : Nat
  gen : Nat
  die : Nat
  dieTag : Nat
  head : FlowUnit
  /-- Lines packed so far (a write), or lines still to come (a read). -/
  lines : Nat
  /-- Lines of the unit being packed: offset and bytes. -/
  buf : List (Nat × List Byte)
  /-- The unit with LAST has been sent. -/
  closed : Bool
  deriving DecidableEq, Repr

/-- A die's remote write item at the IOD: lines whose transactions have ended well, and whether one failed (R254, R297). -/
structure RemoteItem where
  die : Nat
  tag : Nat
  part : Nat
  gen : Nat
  lines : Nat
  failed : Bool
  deriving DecidableEq, Repr

/-! ## Partitions -/

/-- What a partition does at the next Hour. -/
inductive StopKind where
  /-- Stops as under R31: STOPPED, FAULT_STOP. -/
  | fault
  /-- Returns to LOADED (R349, R369). -/
  | release
  deriving DecidableEq, Repr

/-- What a swap window keeps of a core at a step boundary (R234, R278): the STATE of its sequencer, the position at which it goes
on, the step that opens there, its layer digests and its counts of REDUCE items. -/
structure SnapCore where
  core : Nat
  state : Nat
  pos : Nat
  step : Nat
  markPos : Nat
  layers : List (Nat × Nat)
  unfolded : List (Nat × Nat)
  reduceSeq : Tab Nat
  deriving DecidableEq, Repr

/-- What a swap window at a step boundary keeps for a reissue (R234): flag-file cells by number, and its cores. -/
structure Snapshot where
  flags : List (Nat × Bool)
  ctrs : List (Nat × Nat)
  cores : List SnapCore
  deriving DecidableEq, Repr

/-- A partition beside its registers. -/
structure PartState where
  /-- Status and kind of the stop cause recorded first, and its noon cycle where the command that found it has one (R549). -/
  stop : Option (Nat × StopKind) := none
  stopAt : Option Nat := none
  /-- A fault-driven change of this partition waits for step 2 of the next window (R62, R449). -/
  faultChange : Bool := false
  /-- The step in flight was aborted and waits to be reissued (R62, R447). -/
  reissue : Bool := false
  /-- Hour count at which the step was aborted or the partition suspended. -/
  abortedAt : Nat := 0
  /-- The job's abort has applied (R450, R452). -/
  jobAborted : Bool := false
  /-- A fenced job has no transaction left (FENCE_DRAINED), and the CMD_ID of the JOB_ABORT that waits for it (R452). -/
  drained : Bool := false
  fenceCmd : Option Nat := none
  /-- Units of image data that still have to be rewritten (R376, R447). -/
  rewrites : List Nat := []
  snapshot : Option Snapshot := none
  /-- The program is marked reissuable (R64). -/
  reissuable : Bool := false
  /-- CMD_ID of the START that has not completed (R369). -/
  startCmd : Option Nat := none
  /-- The Hour its START names; 0: the next. -/
  startAt : Nat := 0
  /-- CMD_ID of the STOP that waits, and TOP_HOUR_COUNT at its taking (R369). -/
  stopCmd : Option (Nat × Nat) := none
  deriving DecidableEq, Repr

/-- The Dawn configuration of the reset part (log entry 3): a single uncoupled package, every quad and spare unassigned, both
Ethernet ports disabled; every other byte 0 but MAGIC and VERSION. -/
def defaultConfig : Nat :=
  0x4E574144 + 2 ^ 32 + (2 ^ 256 - 1) * 2 ^ 128 + 0xFFFF * 2 ^ 832

/-! ## The Metering Unit (19) -/

/-- A closed interval that awaits its seal (R497, R498): Table 19-3 close, flags, counts by format code and by partition, and
the dies that have not latched. -/
structure Closed where
  close : Nat
  flags : Nat
  number : Nat
  first : Nat
  last : Nat
  hour : Nat
  epoch : Nat
  macs : Tab Nat
  tokens : Tab Nat
  waiting : List Nat
  deriving DecidableEq, Repr

/-- A sealed record of 1,024 bytes (Table 19-4). -/
structure MeterRec where
  number : Nat
  bytes : Nat
  read : Bool
  deriving DecidableEq, Repr

/-- The Metering Unit beside its registers. -/
structure Meter where
  powered : Bool := false
  bootId : Nat := 0
  /-- The open interval: number, START_TICK, epoch, and whether MU_TICK ran on the island oscillator in it. -/
  number : Nat := 0
  first : Nat := 0
  epoch : Nat := 0
  own : Bool := false
  calFault : Bool := false
  /-- A second boundary has passed in Noon and the interval waits for a window (R496). -/
  due : Bool := false
  /-- The counts of the open interval: MACs by 16 d + format code, tokens by partition. -/
  macs : Tab Nat := []
  tokens : Tab Nat := []
  closed : List Closed := []
  records : List MeterRec := []
  /-- The audit log, oldest first: SEQ and the 32 bytes (R500). -/
  audit : List (Nat × Nat) := []
  auditSeq : Nat := 0
  chain : List Byte := List.replicate 48 0
  prev : List Byte := List.replicate 48 0
  /-- Energy since POWER_UP in uJ, tokens since POWER_UP, records lost since the last RECORDS_LOST entry. -/
  energy : Nat := 0
  tokensAll : Nat := 0
  lost : Nat := 0
  deriving DecidableEq, Repr

/-! ## Fuses and security (18) -/

/-- The INTEGRATION and FIELD fuses and PROD_LOCK (Table 18-2). The rows and holes of R178 and R179 stand with their die. -/
structure Fuses where
  debugLock : Nat := 1
  partRules : Nat := 0
  alarmPolicy : Nat := 0
  /-- TRUST_PIN0 to TRUST_PIN3. -/
  pins : Tab Nat := []
  protLock : Bool := false
  prodLock : Bool := true
  revoke : Nat := 0
  svnMgmt : Nat := 0
  svnDisp : Nat := 0
  udsKill : Bool := false
  dieAbsent : Nat := 0
  altDivider : Nat := 0
  slotFailed : List Nat := []
  moduleOos : List Nat := []
  copyMgmt : Bool := false
  copyDisp : Bool := false
  altLoop : Bool := false
  lanes : List Nat := []
  deriving DecidableEq, Repr

/-- A fuse word by its place, with what it is to hold (R462, R538; log entry 53). -/
inductive FuseWord where
  /-- Word `i` of INTEGRATION field `n`: 56 bits of its value. -/
  | field (n i v : Nat)
  /-- An entry of FIELD_ROWS or of SHM_HOLES of a die. -/
  | row (die row : Nat)
  | hole (die hole : Nat)
  /-- A lane of TCL_LANE_FAILED. -/
  | lane (l : Nat)
  /-- The mark of Table 17-5 for a unit (step 2^16 + UNIT_KIND 2^12 + UNIT). -/
  | mark (key : Nat)
  /-- The next word of FW_SVN_MGMT (0) or FW_SVN_DISP (1). -/
  | svn (target : Nat)
  | udsKill
  deriving DecidableEq, Repr

/-- A firmware copy in the configuration flash (R469). -/
structure Firmware where
  digest : List Byte
  version : Nat
  svn : Nat
  deriving DecidableEq, Repr

/-- An SPDM session (R471). -/
structure Session where
  id : Nat
  finished : Bool
  deriving DecidableEq, Repr

/-- A snapshot of the measurements (R473): SNAP_SEQ, blocks by index, adapter measurements by partition and slot. -/
structure Measured where
  seq : Nat := 0
  blocks : Tab (List Byte) := []
  adapters : List (Nat × Nat × List Byte) := []
  deriving DecidableEq, Repr

/-- The security block beside its registers. -/
structure Security where
  /-- The fuse array and its shadow (R464). -/
  fuses : Fuses := {}
  shadow : Fuses := {}
  /-- The programming operation under way whose VFUSE is not yet in range (R537): the FUSE_PROGRAM's CMD_ID, or a field
  write. -/
  writing : Option (Option Nat) := none
  /-- Words whose write was interrupted, as the always-on store holds them (R538). -/
  record : List FuseWord := []
  /-- DIK and alias key are held (R467); the inputs of C under which the alias certificate was issued (R468). -/
  keys : Bool := false
  certIn : List Byte := []
  sessions : List Session := []
  /-- The version and the algorithms that a requester has negotiated (R471). -/
  version : Bool := false
  caps : Bool := false
  algs : Bool := false
  /-- Copies written by FIRMWARE_UPDATE, by 2 t + c; the copy tried first and the copy running, by target (R470). -/
  flash : Tab (Option Firmware) := []
  first : Tab Nat := []
  running : Tab Nat := []
  /-- Fingerprints of the trust table by slot (R363), and the kept copy in the always-on store (R411). -/
  trust : Tab (Option (List Byte)) := []
  keptTrust : Tab (Option (List Byte)) := []
  snap : Measured := {}
  /-- Alarm-log entries made since the last Dawn's step 14 (R480). -/
  newAlarms : List Nat := []
  /-- A debug challenge and whether a grant waits for its scrub (R515). -/
  challenge : Option (List Byte) := none
  granting : Bool := false
  deriving DecidableEq, Repr

/-! ## Power, clocks and Dawn (16, 17) -/

/-- What a Dusk precedes (R446). -/
inductive DuskFor where
  | twilight | midnight | tenant
  /-- A requested reset: domain, die, cluster, slot. -/
  | reset (domain die cluster slot : Nat)
  deriving DecidableEq, Repr

/-- A Dusk under way, or ended with its target not yet reached. -/
structure Dusk where
  target : DuskFor
  cmdId : Nat
  /-- Stages 1 to 3 have ended. -/
  drained : Bool
  deriving DecidableEq, Repr

/-- A reset of domain 1 to 3 in progress (R435). -/
structure DomainReset where
  domain : Nat
  die : Nat
  cluster : Nat
  slot : Nat
  cmdId : Option Nat
  deriving DecidableEq, Repr

/-- A droop stretch of a die (R420): noon cycles of the first and the last trip. -/
structure Droop where
  first : Nat
  last : Nat
  deriving DecidableEq, Repr

/-- The limiter of a die (R421): the first noon cycle not computed, the accumulating engines of that cycle, the vector engines'
busy spans by core, and the two loads. -/
structure Ramp where
  at' : Nat := 0
  units : Nat := 0
  busy : Tab (Nat × Nat) := []
  rl : Nat := 0
  el : Nat := 0
  deriving DecidableEq, Repr

/-- Power and clock control beside its registers. -/
structure Power where
  dusk : Option Dusk := none
  resets : List DomainReset := []
  /-- Wake sources that wait (Table 16-3), the source of a wake under way, the CMD_ID of its WAKE. -/
  wakes : List Nat := []
  waking : Option Nat := none
  wakeCmd : Option Nat := none
  /-- A raise that waits for its voltage (R419): its code and CLK_AON_TICK of the command. -/
  raise : Option (Nat × Nat) := none
  /-- Hours in a row with no frequency change and P_h at or below 0.97 CAP; Hours since the last cut (R427). -/
  good : Nat := 0
  sinceCut : Nat := 8
  throttled : Bool := false
  /-- By die: Hours in a row with the margin above the high threshold, droop trips of this Hour, a droop stretch, the limiter. -/
  margin : Tab Nat := []
  trips : Tab Nat := []
  droop : Tab (Option Droop) := []
  ramp : Tab Ramp := []
  guard : Bool := false
  /-- THERMTRIP_N is driven low; no wake acts until VDD_AON is cycled (R430, R415). -/
  thermTrip : Bool := false
  /-- Averages of the slot sensors over the last 10 s of Noon, in 0.5 C, by 20 d + 5 k + slot (R431). -/
  average : Tab Nat := []
  /-- Sensors at or above 110 C since a time in us, by 32 d + sensor. -/
  hot : Tab (Option Nat) := []
  /-- Sensors' last readings in 0.5 C, by 32 d + sensor, and the highest since the last window (R429, Table 16-11). -/
  temps : Tab Nat := []
  maxRead : Nat := 0
  /-- Die and Hour of the last fabric fault (Table 17-1). -/
  faultAt : Option (Nat × Nat) := none
  /-- Dies that stay stopped after a wake (R413). -/
  stopped : List Nat := []
  /-- MAIN_PWR_EN is high, and the main rails are good (R535, R536). -/
  mainEn : Bool := false
  mainGood : Bool := false
  /-- A Dawn step or wake waits for power-good. -/
  waitGood : Bool := false
  /-- POR_N is held low (R509). -/
  porLow : Bool := false
  /-- A Dawn, with its kind, that waits because a pin-driving test instruction holds the pins (R509). -/
  pinned : Option (Nat × DawnIn) := none
  deriving DecidableEq, Repr

/-- Dawn beside its registers. Units are numbered step 2^16 + UNIT_KIND 2^12 + UNIT (Tables 17-4 and 17-5). -/
structure DawnState where
  /-- Failure counts (R442), and units whose last Dawn recorded FAIL or TIMEOUT. -/
  counts : Tab Nat := []
  failedLast : List Nat := []
  failedNow : List Nat := []
  /-- Marks that wait to be fused (R443). -/
  marks : List Nat := []
  /-- Dawns in a row that ended FAILED or ran into the watchdog (R444). -/
  failedRow : Nat := 0
  /-- The record that completed the last Dawn (R439). -/
  kept : Nat := defaultConfig
  /-- Slots failed at the last cold Dawn, 20 d + 5 c + s (R438). -/
  slots : List Nat := []
  /-- Faulty engines that the last cold Dawn found, by slot: E0 to E65 (R119, R438). -/
  engines : List (Nat × Nat) := []
  /-- Ethernet ports that failed in this Dawn (Table 17-5). -/
  ethOut : List Nat := []
  deriving DecidableEq, Repr

/-- The test access port (20). -/
structure Jtag where
  /-- The selected instruction; Test-Logic-Reset selects IDCODE. -/
  ir : Nat := 1
  index : Nat := 0
  selector : Nat := 0
  /-- The access window: result and data, and the access under way: address, write, data. -/
  result : Nat := 0
  data : Nat := 0
  access : Option (Nat × Bool × Nat) := none
  /-- The update cells of the boundary-scan register, cell 0 lowest (R510). -/
  cells : Nat := 0
  /-- The BIST control register, and a BIST under way: die and kind. -/
  bist : Nat := 0
  running : Option (Nat × Nat) := none
  deriving DecidableEq, Repr

/-! ## Images (14) -/

/-- A section-table entry (Table 14-3). -/
structure Section where
  type : Nat
  convert : Nat
  codec : Nat
  srcFmt : Nat
  dstFmt : Nat
  role : Nat
  level : Nat
  buf : Nat
  srcLen : Nat
  rawLen : Nat
  rows : Nat
  cols : Nat
  lc : Nat
  engine : Nat
  off : Nat
  dstLen : Nat
  digest : List Byte
  deriving DecidableEq, Repr

/-- Destination bytes of a section: its index, first device address and length. -/
structure Extent where
  sec : Nat
  base : Nat
  len : Nat
  deriving DecidableEq, Repr

/-- A resident image, or the image of a load in progress. -/
structure Image where
  kind : Nat
  part : Nat
  slot : Nat
  dieMask : Nat
  sigAlg : Nat
  /-- KEY_FP, IMAGE_DIGEST, PROGRAM_DIGEST, CONTENT_DIGEST (Table 14-9). -/
  keyFp : List Byte
  digest : List Byte
  program : List Byte
  content : List Byte
  hour : Nat
  /-- Manifest fields (Table 14-2). -/
  reissuable : Bool
  lcCount : Nat
  slots : Nat
  rank : Nat
  baseRef : List Byte
  slotBase : Nat
  slotSize : Nat
  sections : List Section
  /-- The byte of the image at which each section starts. -/
  starts : List Nat
  extents : List Extent
  /-- CRC-64 of the bytes of each section in each 64 KiB unit, by section times 2^24 plus device address divided by 65,536
  (R376). -/
  crcs : Tab Nat
  retain : Bool
  deriving DecidableEq, Repr

/-- A load in progress (R368, R369), or a firmware update or image repair that reads a staging feed. -/
structure Load where
  rid : Nat
  cmdId : Nat
  desc : Desc
  /-- Bytes of the image consumed so far. -/
  got : List Byte
  /-- The image comes through a staging feed. -/
  feed : Bool
  /-- The image once written, with RESULT0 and RESULT1 of its completion; it waits for the window. -/
  ready : Option (Image × Nat × Nat)
  /-- The job's placement that came with a LOAD (log entry 50). -/
  job : JobPlacement
  deriving DecidableEq, Repr

/-- A 64 KiB unit that waits to be rewritten (R376). -/
structure Repair where
  id : Nat
  unit : Nat
  sec : Nat
  since : Nat
  /-- A REPAIR_REQUEST has been completed for it. -/
  asked : Bool
  deriving DecidableEq, Repr

/-- The loader beside its registers. -/
structure Loader where
  loads : List Load := []
  images : List Image := []
  repairs : List Repair := []
  nextRepair : Nat := 0
  /-- Image bytes consumed since Dawn (R377). -/
  bytesIn : Nat := 0
  /-- CMD_IDs of the outstanding REPAIR_REQUESTs, oldest first. -/
  requests : List Nat := []
  /-- Adapter slots closed to admission: partition, slot, ring, CMD_ID of the ADAPTER_UNLOAD (R371). -/
  unloads : List (Nat × Nat × Nat) := []
  /-- Adapter slots that completed and become open in step 8 of the next window. -/
  opening : List (Nat × Nat) := []
  deriving DecidableEq, Repr

/-! ## The serving engine (15) -/

/-- State of an active request (R389). `joining` is an admission that has been prepared and has not joined the batch. -/
inductive ReqState where
  | queued | joining | prefill | decode | paused | ending
  deriving DecidableEq, Repr

/-- A token record to be written (R399): CMD_ID, token, index, step, last. -/
structure TokenRec where
  cmdId : Nat
  token : Nat
  index : Nat
  step : Nat
  last : Bool
  deriving DecidableEq, Repr

/-- An active request. -/
structure Request where
  cmdId : Nat
  part : Nat
  share : Bool
  cache : Bool
  greedy : Bool
  adapter : Nat
  tag : Nat
  maxNew : Nat
  prompt : List Nat
  temp : Nat
  seed : Nat
  outAddr : Nat
  outLog2 : Nat
  topK : Nat
  deadline : Nat
  headAddr : Nat
  /-- CLK_AON_TICK at its taking. -/
  takenAt : Nat
  state : ReqState
  /-- The matched blocks, its own reserved blocks in order, and its slot; they are given back once `freed`. -/
  matched : List Nat
  blocks : List Nat
  slot : Option Nat
  freed : Bool
  /-- Prompt rows processed beyond the matched ones, and rows given to it in the step under way. -/
  rows : Nat
  now : Nat
  /-- Tokens drawn, records written, the head last read, the record held for want of room. -/
  tokens : List Nat
  written : Nat
  head : Nat
  held : Option TokenRec
  /-- A cancel has been taken; the status with which the request ends, once that is decided. -/
  cancel : Bool
  ending : Option Nat
  deriving DecidableEq, Repr

/-- A node of the prefix tree (R394-R396): its block, chain value, tag, parent block, tokens, last use. -/
structure Node where
  block : Nat
  chain : Nat
  tag : Nat
  parent : Option Nat
  tokens : List Nat
  used : Nat
  deriving DecidableEq, Repr

/-- What the engine has prepared for a step boundary that the cores have not reached (R383, R405): the partition's requests and
nodes as they will stand, the records of the completed step, and the KV quota it saw (R391). -/
structure Prepared where
  requests : List Request
  nodes : List Node
  records : List TokenRec
  quota : Nat
  /-- The patches staged for the step, beside STEP (R383). -/
  patches : List PatchEntry
  deriving DecidableEq, Repr

/-- A serving partition (R380): the serving table's fields and the engine's state. -/
structure Serve where
  slots : Nat
  rows : Nat
  maxCtx : Nat
  vocab : Nat
  stepHours : Nat
  prepNc : Nat
  flags : Nat
  stops : List Nat
  readyCtr : Nat
  outCtr : Nat
  slotArea : Nat
  prefillArea : Nat
  treeNodes : Nat
  /-- Program-relative offset and bytes of the patch map. -/
  mapOff : Nat
  mapLen : Nat
  blockBytes : List Nat
  nb : Nat
  /-- The prefix key K (R394). -/
  key0 : Nat
  key1 : Nat
  nodes : List Node
  /-- STEP of the step under way, and the Hour at which it opened. -/
  step : Nat
  boundary : Nat
  /-- Orders the uses of nodes (R396). -/
  clock : Nat
  plan : Option Prepared
  /-- The KV quota seen when the first die reached the Hour (R391). -/
  view : Option Nat
  /-- Records that wait to be written (R399). -/
  records : List TokenRec
  deriving DecidableEq, Repr

/-- The serving engine beside its registers. -/
structure Serving where
  parts : Tab (Option Serve) := []
  /-- Active requests in taking order. -/
  requests : List Request := []
  /-- CMD_IDs of requests that completed, by partition (R402). -/
  past : List (Nat × Nat) := []
  deriving DecidableEq, Repr

/-! ## The block -/

/-- The state of the block. -/
structure State where
  /-- Register words by device address (21_register_index.md); an unlisted word is at its reset value. -/
  regs : Tab W32 := []
  /-- Staged copies of RWH fields (R19, R51). -/
  staged : Tab (Option W32) := []
  /-- Bytes of the memories by device address; an unlisted byte is 0 (R438 step 9). -/
  mem : List Host.Cell := []
  /-- Poisoned 64-bit words by device address divided by 8 (R174). -/
  poison : Tab Bool := []
  /-- Flags and counters of the flag files by number (R216). -/
  flags : Tab Bool := []
  ctrs : Tab W32 := []
  host : HostIf := {}
  hour : HourState := {}
  dies : Tab DieState := []
  parts : Tab PartState := []
  /-- Logical cores by package number 16 d + c. -/
  cores : Tab CoreState := []
  /-- 64-bit words whose own stored codeword is in error, by device address divided by 8 (R181). -/
  selfErr : Tab Bool := []
  /-- 64-bit words stored with a single-bit error, which every read of them finds and corrects (R173). -/
  soft : Tab Bool := []
  /-- The bytes written of late, newest first of each byte, by which a read sees memory as it stood at its cycle. -/
  past : List Past := []
  mods : Tab ModEnd := []
  groups : List Group := []
  combines : List Combine := []
  ports : Tab Port := []
  /-- Outstanding transactions by package tag, tags in quarantine, items at the IOD, and the condition (R298) on which a
  waiting transaction was last counted, by its source. -/
  txns : Tab (Option Txn) := []
  quarantine : List Nat := []
  items : List RemoteItem := []
  txnWaits : Tab Nat := []
  /-- The die-link termination whose transaction took a tag last (R298). -/
  txnLast : Nat := 19
  /-- Foreign transactions answered with an ERROR_RSP before their last unit came: source endpoint and tag (R301). -/
  answered : List (Nat × Nat) := []
  /-- The Dawn configuration in effect (Table 17-3), 4,096 bytes, little-endian (log entry 3). -/
  config : Nat := defaultConfig
  meter : Meter := {}
  sec : Security := {}
  power : Power := {}
  dawn : DawnState := {}
  jtag : Jtag := {}
  loader : Loader := {}
  serving : Serving := {}
  /-- Free values drawn (the model's own field, log entry 4). -/
  freeCount : Nat := 0
  /-- What the device has sent, oldest first (the model's own field, log entry 6). -/
  out : List Output := []
  /-- The commands that wait, first in, first out. -/
  pending : List Instr := []
  deriving DecidableEq, Repr

/-- The machine right after reset (log entry 2). -/
def State.reset : State := {}

end Sys2Proof.Machine
end

