-- ==== Sys2Proof/Machine/Numeric.lean ====
section
/-!
DEFINITION. Number formats, the anchored accumulator, and the drain conversion
(03_number_formats_and_accumulation.md R68-R97).
-/

namespace Sys2Proof.Machine

/-! ## Values -/

/-- An element's value: a special state, and for a finite one the exact number `m` times 2 to the `e`. -/
structure Val where
  sp : Special
  m : Int
  e : Int
  deriving DecidableEq, Repr

/-- A finite value. -/
def Val.fin (m e : Int) : Val := ⟨.finite, m, e⟩
/-- NaN. -/
def Val.nanV : Val := ⟨.nan, 0, 0⟩

/-- 2 to a nonnegative integer power, as an integer; 0 for a negative one. -/
def pow2 (i : Int) : Int := if i < 0 then 0 else (2 : Int) ^ i.toNat

/-- The exact sum of two finite numbers `m * 2^e`. -/
def addME (a b : Int × Int) : Int × Int :=
  if a.1 = 0 then b else if b.1 = 0 then a
  else if a.2 ≤ b.2 then (a.1 + b.1 * pow2 (b.2 - a.2), a.2) else (a.1 * pow2 (a.2 - b.2) + b.1, b.2)

/-- `n / 2^k` rounded to nearest with ties to even. -/
def rneShift (n : Int) (k : Nat) : Int :=
  let q := n / (2 : Int) ^ k
  let r := n - q * (2 : Int) ^ k
  let h := (2 : Int) ^ k
  if h < 2 * r || (2 * r == h && q % 2 == 1) then q + 1 else q

/-- `m * 2^e` in units of `2^A`, rounded to nearest with ties to even, and whether a nonzero bit was lost (R83). -/
def toUnits (m e A : Int) : Int × Bool :=
  if A ≤ e then (m * pow2 (e - A), false)
  else
    let k := (A - e).toNat
    (rneShift m k, m % (2 : Int) ^ k != 0)

/-! ## Element decoding (R68-R75) -/

/-- Exponent width, mantissa width and bias of the floating element formats (Table 3-2). -/
def floatParams (fmt : Nat) : Nat × Nat × Int :=
  match fmt with
  | 1 => (2, 1, 1)
  | 2 => (2, 3, 1)
  | 3 => (3, 2, 3)
  | 6 => (4, 3, 7)
  | 7 => (5, 2, 15)
  | 8 => (5, 10, 15)
  | 9 => (8, 7, 127)
  | _ => (8, 23, 127)

/-- Width in bits of an element (Table 3-1). -/
def fmtWidth (fmt : Nat) : Nat :=
  match fmt with
  | 0 => 4 | 1 => 4 | 2 => 6 | 3 => 6 | 4 => 8 | 5 => 8 | 6 => 8 | 7 => 8 | 8 => 16 | 9 => 16 | _ => 32

/-- MX formats (Table 3-1). -/
def isMx (fmt : Nat) : Bool := fmt == 1 || fmt == 2 || fmt == 3 || fmt == 5
/-- Integer formats (Table 3-1). -/
def isIntFmt (fmt : Nat) : Bool := fmt == 0 || fmt == 4 || fmt == 11

/-- The value of an element code, before its block scale (R70-R73, Tables 3-3 and 3-4). -/
def decodeElem (fmt code : Nat) : Val :=
  if isIntFmt fmt then .fin (sext code (fmtWidth fmt)) 0
  else if fmt = 5 then .fin (sext code 8) (-6)
  else
    let (E, M, bias) := floatParams fmt
    let e := fld code M E
    let m := fld code 0 M
    let neg := bitAt code (E + M)
    let sg : Int := if neg then -1 else 1
    if fmt = 6 ∧ e = 15 ∧ m = 7 then .nanV
    else if 7 ≤ fmt ∧ e = 2 ^ E - 1 then
      (if m = 0 then ⟨if neg then .negInf else .posInf, 0, 0⟩ else .nanV)
    else if e = 0 then .fin (sg * m) (1 - bias - M)
    else .fin (sg * (2 ^ M + m : Nat)) ((e : Int) - bias - M)

/-- The value of an MX element under its block's scale byte (R74). -/
def scaleVal (v : Val) (s : Nat) : Val := if s = 255 then .nanV else { v with e := v.e + ((s : Int) - 127) }

/-- The exact product of two values (R83), with its special state by Table 3-8's classes. -/
def mulVal (a b : Val) : Val :=
  if a.sp = .nan || b.sp = .nan then .nanV
  else if a.sp = .finite && b.sp = .finite then .fin (a.m * b.m) (a.e + b.e)
  else
    let sgn (v : Val) : Int := match v.sp with | .posInf => 1 | .negInf => -1 | _ => if v.m < 0 then -1 else if v.m = 0 then 0 else 1
    let x := sgn a * sgn b
    if x = 0 then .nanV else ⟨if 0 < x then .posInf else .negInf, 0, 0⟩

/-- The exact sum of values (R95): NaN where one is NaN or infinities of both signs meet. -/
def sumVal (vs : List Val) : Val :=
  if vs.any (fun v => v.sp == .nan) || (vs.any (fun v => v.sp == .posInf) && vs.any (fun v => v.sp == .negInf)) then .nanV
  else if vs.any (fun v => v.sp == .posInf) then ⟨.posInf, 0, 0⟩
  else if vs.any (fun v => v.sp == .negInf) then ⟨.negInf, 0, 0⟩
  else
    let r := vs.foldl (fun acc v => addME acc (v.m, v.e)) (0, 0)
    .fin r.1 r.2

/-- Special-state transition by one product (Table 3-8). -/
def Special.step (s p : Special) : Special :=
  match s, p with
  | .nan, _ => .nan
  | _, .nan => .nan
  | x, .finite => x
  | .finite, x => x
  | .posInf, .posInf => .posInf
  | .negInf, .negInf => .negInf
  | _, _ => .nan

/-! ## Anchors (R79-R82) -/

/-- Least and greatest value of a bank (R79). -/
def accMax : Int := 2 ^ 47 - 1
/-- See `accMax`. -/
def accMin : Int := -(2 ^ 47)

/-- Bound exponent p (Table 3-7). -/
def boundExp (fmt : Nat) : Int :=
  match fmt with
  | 1 => 3 | 2 => 3 | 3 => 5 | 5 => 2 | 6 => 9 | 7 => 16 | 8 => 16 | 9 => 128 | _ => 0

/-- The largest unbiased scale exponent of a block position's scale bytes, scales of 0xFF left out (R82). -/
def sigma (scales : List Nat) : Option Int :=
  (scales.filter (fun s => s != 255)).foldl
    (fun (acc : Option Int) (s : Nat) => match acc with | none => some ((s : Int) - 127) | some x => some (max x ((s : Int) - 127))) none

/-- PRESCAN's anchor from the scale bytes of each block position of A and B (`none` for an operand without scales, whose σ is 0
at every position); the ANCHOR field where every position is left out (R82). -/
def prescanAnchor (fa fb : Nat) (scales : List (Option (List Nat) × Option (List Nat))) (field : Int) : Int :=
  let one (x : Option (List Nat)) : Option Int := match x with | none => some 0 | some l => sigma l
  let sums := scales.filterMap (fun p => match one p.1, one p.2 with | some x, some y => some (x + y) | _, _ => none)
  match sums with
  | [] => field
  | x :: t =>
    let smax := t.foldl max x
    max (-512) (min 511 (smax + boundExp fa + boundExp fb - 40))

/-! ## One accumulation cycle (R83-R88, R95) -/

/-- Overflow policies (Table 3-9), DEFAULT resolved. -/
inductive OvfPolicy where
  | sat | shift | trap
  deriving DecidableEq, Repr

/-- The policy of an ACC_OVF field (R87). -/
def ovfPolicy (accOvf : Nat) (integer : Bool) : OvfPolicy :=
  match accOvf with
  | 1 => .sat
  | 2 => .shift
  | 3 => .trap
  | _ => if integer then .sat else .shift

/-- A list brought to length `n` with a filler. -/
def padTo {α : Type} (x : α) (n : Nat) (l : List α) : List α := l.take n ++ List.replicate (n - l.length) x

/-- What a cell would hold after a cycle's products at anchor `A`: the exact sum, the number of roundings, and the sign that SAT
takes where it overflows (R83, R88). -/
def cellTry (c : Cell) (A : Int) (ps : List Val) : Int × Nat × Option Int :=
  if c.lat then (c.v, 0, none)
  else
    let qs := (ps.filter (fun p => p.sp == .finite)).map (fun p => toUnits p.m p.e A)
    let total := c.v + (qs.map (·.1)).sum
    let outside (x : Int) : Bool := x < accMin || accMax < x
    let single := qs.find? (fun q => outside q.1)
    let ovf : Option Int :=
      if outside total || single.isSome then
        (if 0 < total then some 1 else if total < 0 then some (-1)
         else match single with | some q => some (if q.1 < 0 then -1 else 1) | none => some 1)
      else none
    (total, (qs.filter (·.2)).length, ovf)

/-- A cell shifted right by 8 with rounding, and whether its lost bits were nonzero (R88). -/
def cellShift (c : Cell) : Cell × Bool := ({ c with v := rneShift c.v 8 }, c.v % 256 != 0)

/-- A cell after a cycle's products, SAT or TRAP resolving an overflow (R88). -/
def cellAdd (c : Cell) (A : Int) (ps : List Val) : Cell :=
  let sp := ps.foldl (fun s p => s.step p.sp) c.sp
  match cellTry c A ps with
  | (total, _, none) => { c with v := total, sp := sp }
  | (_, _, some sg) => { v := if 0 < sg then accMax else accMin, sp := sp, lat := true }

/-- A check cell after a cycle's check products (R95): wide enough that it does not overflow. Once a cell it checks has latched
the spec promises no range; the check cell then goes on without limit, the model's choice (log entry 21). Its comparison is
skipped (R97), so that no result shows it. -/
def checkAdd (c : Cell) (A : Int) (ps : List Val) : Cell × Nat :=
  let qs := (ps.filter (fun p => p.sp == .finite)).map (fun p => toUnits p.m p.e A)
  ({ c with v := c.v + (qs.map (·.1)).sum, sp := ps.foldl (fun s p => s.step p.sp) c.sp }, (qs.filter (·.2)).length)

/-- The whole bank re-anchored by 8 (R88 SHIFT). -/
def Bank.shift8 (b : Bank) : Bank :=
  let cs := (padTo {} 1024 b.cells).map cellShift
  let ks := (padTo {} 64 b.checks).map cellShift
  let n := (cs.filter (·.2)).length + (ks.filter (·.2)).length
  { b with cells := cs.map (·.1), checks := ks.map (·.1), anchor := b.anchor + 8, trunc := satAdd 32 b.trunc n,
           passTrunc := b.passTrunc + (satAdd 32 b.trunc n - b.trunc), ovf := b.ovf + 1, shift := true }

/-- Whether a cell of the bank overflows in a cycle with the given products. -/
def Bank.overflows (b : Bank) (ps : List (List Val)) : Bool :=
  ((padTo {} 1024 b.cells).zip ps).any (fun x => (cellTry x.1 b.anchor x.2).2.2.isSome)

/-- The bank shifted until no cell overflows or a shift would raise the anchor above 511 (R88 SHIFT). -/
def Bank.shiftWhile (ps : List (List Val)) : Nat → Bank → Bank
  | 0, b => b
  | n + 1, b => if b.overflows ps && decide (b.anchor + 8 ≤ 511) then Bank.shiftWhile ps n b.shift8 else b

/-- The bank after one cycle: `ps` the products of each cell, `ks` those of each check cell (R83-R88, R95). What a pass adds to
the tile's truncation count stops where the count does (R100). INF_SEEN and NAN_SEEN look at the 1,024 cells alone: whether a
check cell that enters INF or NAN sets them is open in R99, and this is the model's choice (log entry 20). -/
def Bank.cycle (b : Bank) (pol : OvfPolicy) (ps ks : List (List Val)) : Bank :=
  let b := if pol = .shift then Bank.shiftWhile ps 128 b else b
  let A := b.anchor
  let old := padTo ({} : Cell) 1024 b.cells
  let tries := (old.zip ps).map (fun x => cellTry x.1 A x.2)
  let new := (old.zip ps).map (fun x => cellAdd x.1 A x.2)
  let oldK := padTo ({} : Cell) 64 b.checks
  let newK := (oldK.zip ks).map (fun x => checkAdd x.1 A x.2)
  let excess := (tries.filter (fun x => x.2.2.isSome)).length
  let n := (tries.map (fun x => x.2.1)).sum + (newK.map (·.2)).sum
  let enters (p : Special → Bool) : Bool :=
    (old.zip new).any (fun x => !(p x.1.sp) && p x.2.sp)
  { b with cells := new, checks := newK.map (·.1), trunc := satAdd 32 b.trunc n,
           passTrunc := b.passTrunc + (satAdd 32 b.trunc n - b.trunc), ovf := b.ovf + excess, sat := b.sat || decide (0 < excess), trap := b.trap || (pol == .trap && decide (0 < excess)),
           infSeen := b.infSeen || enters (fun s => s == .posInf || s == .negInf),
           nanSeen := b.nanSeen || enters (fun s => s == .nan) }

/-! ## The check comparison (R96, R97) -/

/-- The comparison is not made: a cell or check cell is not FINITE or has latched (R97). -/
def Bank.checkSkip (b : Bank) : Bool := (b.cells ++ b.checks).any (fun c => c.sp != .finite || c.lat)

/-- The number of row and column comparisons that fail (R96). -/
def Bank.checkFails (b : Bank) : Nat :=
  let cs := padTo ({} : Cell) 1024 b.cells
  let ks := padTo ({} : Cell) 64 b.checks
  let at' (l : List Cell) (i : Nat) : Int := match l[i]? with | some c => c.v | none => 0
  let row (i : Nat) : Int := ((List.range 32).map (fun j => at' cs (32 * i + j))).sum - at' ks i
  let col (j : Nat) : Int := ((List.range 32).map (fun i => at' cs (32 * i + j))).sum - at' ks (32 + j)
  (upto 32 (fun i => decide (b.trunc < (row i).natAbs))).length + (upto 32 (fun j => decide (b.trunc < (col j).natAbs))).length

/-! ## Rounding (R89-R94) -/

/-- The 24-bit stochastic rounding value of R94. -/
def srValue (seed card eng pass row col : Nat) : Nat :=
  let M := 2 ^ 64
  let ctr := card % 2 ^ 24 * 2 ^ 40 + eng % 64 * 2 ^ 34 + pass % 2 ^ 24 * 2 ^ 10 + row % 32 * 2 ^ 5 + col % 32
  let z := Nat.xor ctr (seed % 2 ^ 32 * 2 ^ 32 + seed % 2 ^ 32)
  let z := Nat.xor z (z / 2 ^ 30) * 0xBF58476D1CE4E5B9 % M
  let z := Nat.xor z (z / 2 ^ 27) * 0x94D049BB133111EB % M
  let z := Nat.xor z (z / 2 ^ 31)
  z / 2 ^ 40

/-- A nonnegative number `m * 2^e` rounded to a multiple of `2^u`, in units of `2^u`: to nearest even, or stochastically
where a 24-bit value is given (R94). -/
def roundMag (m : Nat) (e u : Int) (sr : Option Nat) : Nat :=
  if u ≤ e then m * 2 ^ (e - u).toNat
  else
    let k := (u - e).toNat
    match sr with
    | none => (rneShift m k).toNat
    | some r =>
      let q := m / 2 ^ k
      let f24 := (m % 2 ^ k) * 2 ^ 24 / 2 ^ k
      if 2 ^ 24 ≤ f24 + r then q + 1 else q

/-- ⌊log2 (m * 2^e)⌋ of a positive number. -/
def floorLog2 (m : Nat) (e : Int) : Int := (Nat.log2 m : Int) + e

/-- Result of one conversion: the code, and whether it saturated. -/
abbrev Conv := Nat × Bool

/-- Largest finite code (magnitude part) of a floating format (Table 3-4, R90). -/
def maxFiniteCode (fmt : Nat) : Nat :=
  match fmt with
  | 6 => 0x7E | 7 => 0x7B | 8 => 0x7BFF | 9 => 0x7F7F | 1 => 0x7 | 2 => 0x1F | 3 => 0x1F | _ => 0x7F7FFFFF

/-- Round the exact number `m * 2^e` to a floating format, saturating to the largest finite value (R90). The code of the
magnitude is formed from units of the exponent's last place, so that a carry runs into the exponent field. -/
def toFloat (fmt : Nat) (m e : Int) (sr : Option Nat) : Conv :=
  if m = 0 then (0, false)
  else
    let (E, M, bias) := floatParams fmt
    let a := m.natAbs
    let x := max (floorLog2 a e) (1 - bias)
    let q := roundMag a e (x - M) sr
    let code := q + ((x - (1 - bias)).toNat) * 2 ^ M
    let sign := if m < 0 then 2 ^ (E + M) else 0
    if maxFiniteCode fmt < code then (maxFiniteCode fmt + sign, true) else (code + sign, false)

/-- Round the exact number `m * 2^e` to a `w`-bit integer, saturating (R91). -/
def toInteger (w : Nat) (m e : Int) (sr : Option Nat) : Conv :=
  let q : Int := (roundMag m.natAbs e 0 sr : Nat)
  let q := if m < 0 then -q else q
  if (2 : Int) ^ (w - 1) - 1 < q then (2 ^ (w - 1) - 1, true)
  else if q < -((2 : Int) ^ (w - 1)) then (2 ^ (w - 1), true)
  else (ofInt w q, false)

/-- Round `x / 2^X` to an MX element format (R92 items 5 and 6); the flag says that it took the largest magnitude. An MXINT8
element of rounded magnitude 2.0 takes 1.984375 with its sign: 0x7F or 0x81. -/
def toMxElem (fmt : Nat) (m e : Int) (sr : Option Nat) : Conv :=
  if fmt = 5 then
    let q := roundMag m.natAbs e (-6) sr
    if 127 < q then (if m < 0 then 0x81 else 0x7F, true) else (ofInt 8 (if m < 0 then -(q : Int) else q), false)
  else toFloat fmt m e sr

/-- The scale exponent X of an MX block whose largest magnitude is `m * 2^e` (R92 items 2 and 3), and whether it was clamped at
127. -/
def mxScale (fmt : Nat) (m : Nat) (e : Int) : Int × Bool :=
  if m = 0 then (-127, false)
  else
    let emax : Int := if fmt = 3 then 4 else if fmt = 5 then 0 else 2
    let x := floorLog2 m e - emax
    if 127 < x then (127, true) else (max x (-127), false)

/-- Compare magnitudes `|m| * 2^e`. -/
def magLt (a b : Int × Int) : Bool :=
  let k := min a.2 b.2
  decide (((a.1.natAbs : Int) * pow2 (a.2 - k)) < ((b.1.natAbs : Int) * pow2 (b.2 - k)))

/-- The largest magnitude of a list. -/
def amax (xs : List (Int × Int)) : Int × Int :=
  xs.foldl (fun acc x => if acc.1 = 0 then x else if x.1 ≠ 0 && magLt acc x then x else acc) (0, 0)

/-- An output block: scale byte, element codes, elements counted as saturated, and whether a NaN block was written. -/
structure MxBlock where
  scale : Nat
  elems : List Nat
  sats : Nat
  nan : Bool
  deriving DecidableEq, Repr

/-- One MX block from 32 exact values with their rounding values (R92, R93). -/
def mxBlock (fmt : Nat) (xs : List (Special × Int × Int × Option Nat)) : MxBlock :=
  if xs.any (fun x => x.1 != .finite) then ⟨255, xs.map (fun _ => 0), 0, true⟩
  else
    let a := amax (xs.map (fun x => (x.2.1, x.2.2.1)))
    let X := mxScale fmt a.1.natAbs a.2
    let es := xs.map (fun x => toMxElem fmt x.2.1 (x.2.2.1 - X.1) x.2.2.2)
    ⟨(X.1 + 127).toNat, es.map (·.1), if X.2 then (es.filter (·.2)).length else 0, false⟩

/-- Result of draining one element to a format without blocks: code, saturated, NaN written (R89-R93, Table 3-12). -/
def drainElem (fmt : Nat) (sp : Special) (m e : Int) (sr : Option Nat) : Nat × Bool × Bool :=
  match sp with
  | .finite =>
    let c := if fmt = 4 then toInteger 8 m e sr else if fmt = 11 then toInteger 32 m e sr else toFloat fmt m e sr
    (c.1, c.2, false)
  | .posInf =>
    (match fmt with
     | 4 => (0x7F, true, false) | 11 => (0x7FFFFFFF, true, false) | 6 => (0x7E, true, false) | 7 => (0x7C, false, false)
     | 8 => (0x7C00, false, false) | 9 => (0x7F80, false, false) | _ => (0x7F800000, false, false))
  | .negInf =>
    (match fmt with
     | 4 => (0x80, true, false) | 11 => (0x80000000, true, false) | 6 => (0xFE, true, false) | 7 => (0xFC, false, false)
     | 8 => (0xFC00, false, false) | 9 => (0xFF80, false, false) | _ => (0xFF800000, false, false))
  | .nan =>
    (match fmt with
     | 4 => (0, false, true) | 11 => (0, false, true) | 6 => (0x7F, false, true) | 7 => (0x7E, false, true)
     | 8 => (0x7E00, false, true) | 9 => (0x7FC0, false, true) | _ => (0x7FC00000, false, true))

/-- Little-endian packing of equal-width codes without padding (R76). -/
def packCodes (w : Nat) (codes : List Nat) : Nat := codes.foldr (fun c acc => c % 2 ^ w + 2 ^ w * acc) 0

/-- What a drain writes: the tile's bytes, elements that saturated, and whether a NaN or NaN block was written. -/
structure Drained where
  bytes : List Byte
  sats : Nat
  nan : Bool
  deriving DecidableEq, Repr

/-- The drain of a bank (R89-R93, R109): `sr` gives the rounding value of a row and column where RND is SR. -/
def Bank.drain (b : Bank) (fmt : Nat) (outShift : Int) (colBlocks : Bool) (sr : Nat → Nat → Option Nat) : Drained :=
  let cs := padTo ({} : Cell) 1024 b.cells
  let at' (i j : Nat) : Cell := match cs[32 * i + j]? with | some c => c | none => {}
  let e := b.anchor + outShift
  if isMx fmt then
    let blk (n : Nat) : MxBlock :=
      mxBlock fmt ((List.range 32).map (fun k =>
        let (i, j) := if colBlocks then (k, n) else (n, k)
        let c := at' i j
        (c.sp, c.v, e, sr i j)))
    let bs := (List.range 32).map blk
    let w := fmtWidth fmt
    ⟨(bs.map (fun x => leBytes (4 * w) (packCodes w x.elems))).flatten ++ bs.map (fun x => BitVec.ofNat 8 x.scale),
     (bs.map (·.sats)).sum, bs.any (·.nan)⟩
  else
    let es := (List.range 1024).map (fun k =>
      let c := at' (k / 32) (k % 32)
      drainElem fmt c.sp c.v e (sr (k / 32) (k % 32)))
    ⟨leBytes (32 * 4 * fmtWidth fmt) (packCodes (fmtWidth fmt) (es.map (·.1))),
     (es.filter (fun x => x.2.1)).length, es.any (fun x => x.2.2)⟩

end Sys2Proof.Machine
end

