-- ==== Sys2Proof/Config.lean ====
section
/-!
DEFINITION. What an implementation fixes and what the spec leaves open: the free values of the model. They are opaque
constants: nothing in Lean can evaluate one.
-/

namespace Sys2Proof

/-- The free value number `n` (log entry 4): a value that the spec does not state. Each use draws the next number of
`State.freeCount`. -/
opaque Config.freeValue : Nat → BitVec 64

/-! What differs from part to part, fixed at production or outside the device's own logic (log entry 16). -/

/-- SERIAL of the PRODUCTION fuses (Table 18-2). -/
opaque Config.serial : BitVec 64
/-- MANUFACTURER of IDCODE (Table 20-2). -/
opaque Config.manufacturer : BitVec 11
/-- Fingerprints in the PRODUCTION fuses: 0-3 FW_KEY_FP0 to FW_KEY_FP3, 4 DEBUG_KEY_FP (Table 18-2), first byte lowest. -/
opaque Config.keyFp : Nat → BitVec 384
/-- Stored texts: 0 the certificate chain of slot 0 without the alias certificate (R468), 1 the meter certificate, 2 the meter
calibration report of 512 bytes (Table 19-7). -/
opaque Config.storedText : Nat → List Byte
/-- The alias certificate that DIK signs for given inputs of C (R467, R468). -/
opaque Config.aliasCert : List Byte → List Byte
/-- Firmware copy `c` of target `t` in the configuration flash as shipped, at 2 t + c: digest of FIRMWARE_CODE in bits 383-0,
VERSION in bits 447-384, SVN in bits 455-448 (R469). -/
opaque Config.firmware : Nat → BitVec 456
/-- The digest of the IOD mask ROMs, and the meter's ROM version and key fingerprint (Table 18-6). -/
opaque Config.romDigest : BitVec 384
opaque Config.meterRom : BitVec 448
/-- V_nom of a die for a frequency code, in mV (R424). -/
opaque Config.vNom : Nat → Nat → BitVec 11
/-- D2D_SET_ALLOW of a die (R249): bit `x` allows set `x`. -/
opaque Config.setAllow : Nat → BitVec 5
/-- The entries that a patch map lists, whose layout is not part of the contract (R380, log entry 19): the map's bytes; block and
place of every row's KV write, slots first and then prefill rows; the blocks of the contexts of admitted slots; and the sampling
seeds of admitted slots. -/
opaque Config.patchMap : List Byte → List (Nat × Nat) → List (Nat × List Nat) → List (Nat × Nat) → List PatchEntry

end Sys2Proof
end

