-- ==== Sys2Proof/Machine/Registers.lean ====
section
/-!
DEFINITION. The register index (21_register_index.md R521-R530): the device address of every register, and one table row
per register with its width, its access masks (R19, and the field map of the chapter that defines it) and its reset value
(R528, R529). Offsets that no row covers are reserved (R17).
-/

namespace Sys2Proof

/-- Device address of offset 0 of region 15 of DIE 8, the IOD register space. -/
def Reg.iodBase : Nat := 0x8F00000000

/-- Device address of offset 0 of region 15 of die `d`. -/
def Reg.dieBase (d : Nat) : Nat := d * 0x1000000000 + 0xF00000000

/-- Address of TOP_ID. -/
def Reg.topId : Nat := 0x8F00000000

/-- Address of TOP_HOUR_CTL. -/
def Reg.topHourCtl : Nat := 0x8F00000010

/-- Address of TOP_HOUR_STATUS. -/
def Reg.topHourStatus : Nat := 0x8F00000014

/-- Address of TOP_HOUR_COUNT. -/
def Reg.topHourCount : Nat := 0x8F00000018

/-- Address of TOP_HOUR_LATE. -/
def Reg.topHourLate : Nat := 0x8F00000020

/-- Address of TOP_PART_MEMBER. -/
def Reg.topPartMember (n : Nat) : Nat := 0x8F00010000 + 0x100 * n

/-- Address of TOP_PART_STATUS. -/
def Reg.topPartStatus (n : Nat) : Nat := 0x8F00010010 + 0x100 * n

/-- Address of TOP_PART_QUOTA. -/
def Reg.topPartQuota (n : Nat) : Nat := 0x8F00010018 + 0x100 * n

/-- Address of TOP_PART_USAGE. -/
def Reg.topPartUsage (n : Nat) : Nat := 0x8F00010020 + 0x100 * n

/-- Address of TOP_PART_TDC. -/
def Reg.topPartTdc (n : Nat) : Nat := 0x8F00010028 + 0x100 * n

/-- Address of TOP_PART_DIGEST. -/
def Reg.topPartDigest (n : Nat) : Nat := 0x8F00010030 + 0x100 * n

/-- Address of TOP_PART_JOB. -/
def Reg.topPartJob (n : Nat) : Nat := 0x8F00010034 + 0x100 * n

/-- Address of HST_CTL. -/
def Reg.hstCtl : Nat := 0x8F00100000

/-- Address of HST_STATUS. -/
def Reg.hstStatus : Nat := 0x8F00100004

/-- Address of HST_ADMIN_SQ. -/
def Reg.hstAdminSq : Nat := 0x8F00100008

/-- Address of HST_ADMIN_CQ. -/
def Reg.hstAdminCq : Nat := 0x8F00100010

/-- Address of HST_APERTURE. -/
def Reg.hstAperture : Nat := 0x8F00100018

/-- Address of HST_ERR_ADDR. -/
def Reg.hstErrAddr : Nat := 0x8F00100020

/-- Address of HST_ERR_INFO. -/
def Reg.hstErrInfo : Nat := 0x8F00100028

/-- Address of HST_EVT_COUNT. -/
def Reg.hstEvtCount : Nat := 0x8F00100030

/-- Address of MSIX_ENTRY. -/
def Reg.msixEntry (v : Nat) : Nat := 0x8F00101000 + 0x10 * v

/-- Address of MSIX_PBA. -/
def Reg.msixPba : Nat := 0x8F00102000

/-- Address of IOD_ROUTE. -/
def Reg.iodRoute (d : Nat) : Nat := 0x8F00200000 + 0x4 * d

/-- Address of IOD_MOD_CFG. -/
def Reg.iodModCfg (t : Nat) : Nat := 0x8F00201000 + 0x40 * t

/-- Address of IOD_LANE_ROLE. -/
def Reg.iodLaneRole (t : Nat) : Nat := 0x8F00201010 + 0x40 * t

/-- Address of IOD_MOD_STATUS. -/
def Reg.iodModStatus (t : Nat) : Nat := 0x8F00201020 + 0x40 * t

/-- Address of IOD_MOD_COUNT. -/
def Reg.iodModCount (t : Nat) : Nat := 0x8F00201028 + 0x40 * t

/-- Address of IOD_NET_COUNT. -/
def Reg.iodNetCount (p : Nat) : Nat := 0x8F00202000 + 0x8 * p

/-- Address of TCL_CTL. -/
def Reg.tclCtl : Nat := 0x8F00300000

/-- Address of TCL_PORT_CFG. -/
def Reg.tclPortCfg (p : Nat) : Nat := 0x8F00300100 + 0x20 * p

/-- Address of TCL_PORT_STATUS. -/
def Reg.tclPortStatus (p : Nat) : Nat := 0x8F00300108 + 0x20 * p

/-- Address of TCL_PORT_COUNT0. -/
def Reg.tclPortCount0 (p : Nat) : Nat := 0x8F00300110 + 0x20 * p

/-- Address of TCL_PORT_COUNT1. -/
def Reg.tclPortCount1 (p : Nat) : Nat := 0x8F00300118 + 0x20 * p

/-- Address of TCL_LANE_MAP. -/
def Reg.tclLaneMap (b : Nat) : Nat := 0x8F00300400 + 0x8 * b

/-- Address of TCL_TXN_STATUS. -/
def Reg.tclTxnStatus : Nat := 0x8F00300500

/-- Address of TCL_TXN_COUNT0. -/
def Reg.tclTxnCount0 : Nat := 0x8F00300508

/-- Address of TCL_TXN_COUNT1. -/
def Reg.tclTxnCount1 : Nat := 0x8F00300510

/-- Address of RTE_SELF. -/
def Reg.rteSelf : Nat := 0x8F00400000

/-- Address of RTE_CTL. -/
def Reg.rteCtl : Nat := 0x8F00400008

/-- Address of RTE_GW_MODE. -/
def Reg.rteGwMode : Nat := 0x8F0040000C

/-- Address of RTE_STATUS. -/
def Reg.rteStatus : Nat := 0x8F00400010

/-- Address of RTE_COUNT. -/
def Reg.rteCount : Nat := 0x8F00400018

/-- Address of RTE_PORT. -/
def Reg.rtePort (p : Nat) : Nat := 0x8F00400040 + 0x4 * p

/-- Address of RTE_TABLE_ACT. -/
def Reg.rteTableAct : Nat := 0x8F00401000

/-- Address of RTE_TABLE_STG. -/
def Reg.rteTableStg : Nat := 0x8F00402000

/-- Address of RTE_PEER. -/
def Reg.rtePeer (n e : Nat) : Nat := 0x8F00440000 + 0x1000 * n + 0x4 * e

/-- Address of SRV_STATUS. -/
def Reg.srvStatus : Nat := 0x8F00600000

/-- Address of SRV_ACTIVE. -/
def Reg.srvActive : Nat := 0x8F00600008

/-- Address of SRV_COUNT0. -/
def Reg.srvCount0 : Nat := 0x8F00600010

/-- Address of SRV_COUNT1. -/
def Reg.srvCount1 : Nat := 0x8F00600018

/-- Address of SRV_PART. -/
def Reg.srvPart (n : Nat) : Nat := 0x8F00601000 + 0x10 * n

/-- Address of SRV_PART_KV. -/
def Reg.srvPartKv (n : Nat) : Nat := 0x8F00601008 + 0x10 * n

/-- Address of LDR_STATUS. -/
def Reg.ldrStatus : Nat := 0x8F00700000

/-- Address of LDR_COUNT. -/
def Reg.ldrCount : Nat := 0x8F00700008

/-- Address of PWR_STATE. -/
def Reg.pwrState : Nat := 0x8F00800000

/-- Address of PWR_WAKE. -/
def Reg.pwrWake : Nat := 0x8F00800004

/-- Address of PWR_CAP. -/
def Reg.pwrCap : Nat := 0x8F00800008

/-- Address of PWR_THERM. -/
def Reg.pwrTherm : Nat := 0x8F0080000C

/-- Address of PWR_STATUS. -/
def Reg.pwrStatus : Nat := 0x8F00800010

/-- Address of PWR_POWER. -/
def Reg.pwrPower : Nat := 0x8F00800018

/-- Address of PWR_COUNT. -/
def Reg.pwrCount : Nat := 0x8F00800020

/-- Address of CLK_NOON. -/
def Reg.clkNoon : Nat := 0x8F00880000

/-- Address of CLK_REF. -/
def Reg.clkRef : Nat := 0x8F00880004

/-- Address of CLK_AON_TICK. -/
def Reg.clkAonTick : Nat := 0x8F00880008

/-- Address of DAWN_STATUS. -/
def Reg.dawnStatus : Nat := 0x8F00900000

/-- Address of DAWN_SEQ. -/
def Reg.dawnSeq : Nat := 0x8F00900004

/-- Address of DAWN_JOURNAL_HEAD. -/
def Reg.dawnJournalHead : Nat := 0x8F00900008

/-- Address of DAWN_DIES. -/
def Reg.dawnDies : Nat := 0x8F0090000C

/-- Address of DAWN_HANG_CTL. -/
def Reg.dawnHangCtl : Nat := 0x8F00900010

/-- Address of DAWN_RESET_COUNT. -/
def Reg.dawnResetCount : Nat := 0x8F00900018

/-- Address of DAWN_JOURNAL. -/
def Reg.dawnJournal (e : Nat) : Nat := 0x8F00901000 + 0x10 * e

/-- Address of SEC_STATUS. -/
def Reg.secStatus : Nat := 0x8F00A00000

/-- Address of SEC_PROT. -/
def Reg.secProt : Nat := 0x8F00A00008

/-- Address of SEC_TENANT. -/
def Reg.secTenant : Nat := 0x8F00A00010

/-- Address of SEC_ID. -/
def Reg.secId : Nat := 0x8F00A00018

/-- Address of SEC_ALARM_HEAD. -/
def Reg.secAlarmHead : Nat := 0x8F00A00020

/-- Address of SEC_ALARM_COUNT. -/
def Reg.secAlarmCount : Nat := 0x8F00A00028

/-- Address of SEC_ALARM_LOG. -/
def Reg.secAlarmLog (e : Nat) : Nat := 0x8F00A01000 + 0x10 * e

/-- Address of MU_STATUS. -/
def Reg.muStatus : Nat := 0x8F00B00000

/-- Address of MU_LAST. -/
def Reg.muLast : Nat := 0x8F00B00008

/-- Address of MU_COUNT. -/
def Reg.muCount : Nat := 0x8F00B00010

/-- Address of MU_TICK. -/
def Reg.muTick : Nat := 0x8F00B00018

/-- Address of MU_AUDIT_COUNT. -/
def Reg.muAuditCount (k : Nat) : Nat := 0x8F00B00100 + 0x8 * k

/-- Address of JTAG_STATUS. -/
def Reg.jtagStatus : Nat := 0x8F00C00000

/-- Address of JTAG_ERR_ADDR. -/
def Reg.jtagErrAddr : Nat := 0x8F00C00008

/-- Address of CD_MEM_STATUS. -/
def Reg.cdMemStatus (d : Nat) : Nat := Reg.dieBase d + 0x0

/-- Address of CD_RAS_CTL. -/
def Reg.cdRasCtl (d : Nat) : Nat := Reg.dieBase d + 0x4

/-- Address of CD_RAS_COUNT. -/
def Reg.cdRasCount (d : Nat) : Nat := Reg.dieBase d + 0x8

/-- Address of CD_RAS_LAST. -/
def Reg.cdRasLast (d : Nat) : Nat := Reg.dieBase d + 0x10

/-- Address of CD_COMMON_SHM. -/
def Reg.cdCommonShm (d : Nat) : Nat := Reg.dieBase d + 0x18

/-- Address of CD_FLAG_STATUS. -/
def Reg.cdFlagStatus (d : Nat) : Nat := Reg.dieBase d + 0x20

/-- Address of CD_VOLT. -/
def Reg.cdVolt (d : Nat) : Nat := Reg.dieBase d + 0x24

/-- Address of CD_RAMP. -/
def Reg.cdRamp (d : Nat) : Nat := Reg.dieBase d + 0x28

/-- Address of CD_CLK_COUNT. -/
def Reg.cdClkCount (d : Nat) : Nat := Reg.dieBase d + 0x30

/-- Address of CD_SLOT_MAP. -/
def Reg.cdSlotMap (d k : Nat) : Nat := Reg.dieBase d + 0x40 + 0x4 * k

/-- Address of CD_XING. -/
def Reg.cdXing (d k : Nat) : Nat := Reg.dieBase d + 0x50 + 0x4 * k

/-- Address of CD_FLAG_COUNT. -/
def Reg.cdFlagCount (d k : Nat) : Nat := Reg.dieBase d + 0x60 + 0x8 * k

/-- Address of CD_SLOT_TEMP. -/
def Reg.cdSlotTemp (d k : Nat) : Nat := Reg.dieBase d + 0x80 + 0x10 * k

/-- Address of CD_SLOT_AGE. -/
def Reg.cdSlotAge (d k : Nat) : Nat := Reg.dieBase d + 0x88 + 0x10 * k

/-- Address of CD_PBB_SHM. -/
def Reg.cdPbbShm (d n : Nat) : Nat := Reg.dieBase d + 0x1000 + 0x20 * n

/-- Address of CD_PBB_CORE. -/
def Reg.cdPbbCore (d n : Nat) : Nat := Reg.dieBase d + 0x1008 + 0x20 * n

/-- Address of CD_FLAGWIN. -/
def Reg.cdFlagwin (d n : Nat) : Nat := Reg.dieBase d + 0x1010 + 0x20 * n

/-- Address of FAB_HOLD_CTL. -/
def Reg.fabHoldCtl (d : Nat) : Nat := Reg.dieBase d + 0x100000

/-- Address of FAB_HOLD_COUNT. -/
def Reg.fabHoldCount (d : Nat) : Nat := Reg.dieBase d + 0x100008

/-- Address of FAB_HOLD_LAST. -/
def Reg.fabHoldLast (d : Nat) : Nat := Reg.dieBase d + 0x100010

/-- Address of FAB_HOLD_CYCLES. -/
def Reg.fabHoldCycles (d : Nat) : Nat := Reg.dieBase d + 0x100018

/-- Address of FAB_MCAST. -/
def Reg.fabMcast (d t : Nat) : Nat := Reg.dieBase d + 0x101000 + 0x20 * t

/-- Address of D2D_ROUTE. -/
def Reg.d2dRoute (d x : Nat) : Nat := Reg.dieBase d + 0x200000 + 0x4 * x

/-- Address of D2D_MOD_CFG. -/
def Reg.d2dModCfg (d m : Nat) : Nat := Reg.dieBase d + 0x201000 + 0x40 * m

/-- Address of D2D_LANE_ROLE. -/
def Reg.d2dLaneRole (d m : Nat) : Nat := Reg.dieBase d + 0x201010 + 0x40 * m

/-- Address of D2D_MOD_STATUS. -/
def Reg.d2dModStatus (d m : Nat) : Nat := Reg.dieBase d + 0x201020 + 0x40 * m

/-- Address of D2D_MOD_COUNT. -/
def Reg.d2dModCount (d m : Nat) : Nat := Reg.dieBase d + 0x201028 + 0x40 * m

/-- Address of CORE_STREAM. -/
def Reg.coreStream (d c : Nat) : Nat := Reg.dieBase d + 0x1000000 + 0x10000 * c

/-- Address of CORE_SEQ_STATUS. -/
def Reg.coreSeqStatus (d c : Nat) : Nat := Reg.dieBase d + 0x1000008 + 0x10000 * c

/-- Address of CORE_SEQ_COUNT. -/
def Reg.coreSeqCount (d c : Nat) : Nat := Reg.dieBase d + 0x1000010 + 0x10000 * c

/-- Address of CORE_SEQ_STALL. -/
def Reg.coreSeqStall (d c : Nat) : Nat := Reg.dieBase d + 0x1000018 + 0x10000 * c

/-- Address of CORE_ENG_MAP. -/
def Reg.coreEngMap (d c : Nat) : Nat := Reg.dieBase d + 0x1000020 + 0x10000 * c

/-- Address of CORE_BANK_WAIT. -/
def Reg.coreBankWait (d c : Nat) : Nat := Reg.dieBase d + 0x1000028 + 0x10000 * c

/-- Address of CORE_ILK_COUNT0. -/
def Reg.coreIlkCount0 (d c : Nat) : Nat := Reg.dieBase d + 0x1000030 + 0x10000 * c

/-- Address of CORE_ILK_COUNT1. -/
def Reg.coreIlkCount1 (d c : Nat) : Nat := Reg.dieBase d + 0x1000038 + 0x10000 * c

/-- Address of CORE_ILK_CYCLES. -/
def Reg.coreIlkCycles (d c : Nat) : Nat := Reg.dieBase d + 0x1000040 + 0x10000 * c

/-- Address of CORE_ILK_FIRST. -/
def Reg.coreIlkFirst (d c : Nat) : Nat := Reg.dieBase d + 0x1000048 + 0x10000 * c

/-- Address of CORE_ILK_LAST. -/
def Reg.coreIlkLast (d c : Nat) : Nat := Reg.dieBase d + 0x1000050 + 0x10000 * c

/-- Address of CORE_DIGEST_CAP_CTL. -/
def Reg.coreDigestCapCtl (d c : Nat) : Nat := Reg.dieBase d + 0x1000058 + 0x10000 * c

/-- Address of CORE_DIGEST_CAP. -/
def Reg.coreDigestCap (d c i : Nat) : Nat := Reg.dieBase d + 0x1000100 + 0x10000 * c + 0x10 * i

/-- Address of VEC_STATUS. -/
def Reg.vecStatus (d c : Nat) : Nat := Reg.dieBase d + 0x2000000 + 0x1000 * c

/-- Address of VEC_COUNT0. -/
def Reg.vecCount0 (d c : Nat) : Nat := Reg.dieBase d + 0x2000008 + 0x1000 * c

/-- Address of VEC_COUNT1. -/
def Reg.vecCount1 (d c : Nat) : Nat := Reg.dieBase d + 0x2000010 + 0x1000 * c

/-- Address of VEC_PORT_STALL. -/
def Reg.vecPortStall (d c : Nat) : Nat := Reg.dieBase d + 0x2000018 + 0x1000 * c

/-- Address of ENG_ACC_STATUS. -/
def Reg.engAccStatus (d c e : Nat) : Nat := Reg.dieBase d + 0x3000000 + 0x10000 * c + 0x100 * e

/-- Address of ENG_ACC_COUNT0. -/
def Reg.engAccCount0 (d c e : Nat) : Nat := Reg.dieBase d + 0x3000008 + 0x10000 * c + 0x100 * e

/-- Address of ENG_ACC_COUNT1. -/
def Reg.engAccCount1 (d c e : Nat) : Nat := Reg.dieBase d + 0x3000010 + 0x10000 * c + 0x100 * e

/-- Address of ENG_PASS_COUNT. -/
def Reg.engPassCount (d c e : Nat) : Nat := Reg.dieBase d + 0x3000018 + 0x10000 * c + 0x100 * e

/-- Address of ENG_DRAIN_STALL. -/
def Reg.engDrainStall (d c e : Nat) : Nat := Reg.dieBase d + 0x3000020 + 0x10000 * c + 0x100 * e

/-- Address of ENG_PRESCAN_STALL. -/
def Reg.engPrescanStall (d c e : Nat) : Nat := Reg.dieBase d + 0x3000028 + 0x10000 * c + 0x100 * e

/-- One row of Table 21-4 or 21-5: offset `base`, index strides and counts, width in bytes, masks of the RW, RWH and W1C
bits over the whole width (every other bit is RO or reserved), and the reset value. -/
structure RegRow where
  base : Nat
  s1 : Nat
  n1 : Nat
  s2 : Nat
  n2 : Nat
  bytes : Nat
  rw : Nat
  rwh : Nat
  w1c : Nat
  reset : Nat
  deriving DecidableEq, Repr

/-- Table 21-4, part 0. -/
def Reg.iodRows0 : List RegRow := [
  ⟨0x0, 0x0, 1, 0x0, 1, 4, 0x0, 0x0, 0x0, 0x10100⟩,
  ⟨0x10, 0x0, 1, 0x0, 1, 4, 0x1FF00, 0x1F, 0x0, 0x4010⟩,
  ⟨0x14, 0x0, 1, 0x0, 1, 4, 0x0, 0x0, 0x1F, 0x200000⟩,
  ⟨0x18, 0x0, 1, 0x0, 1, 8, 0x0, 0x0, 0x0, 0x0⟩,
  ⟨0x20, 0x0, 1, 0x0, 1, 4, 0x0, 0x0, 0x0, 0x0⟩,
  ⟨0x10000, 0x100, 64, 0x0, 1, 16, 0x0, 0xFFFFFFFFFFFFFFFFFFFFFFFFFFFFFFFF, 0x0, 0x0⟩,
  ⟨0x10010, 0x100, 64, 0x0, 1, 4, 0x0, 0x0, 0x10000, 0x0⟩,
  ⟨0x10018, 0x100, 64, 0x0, 1, 8, 0x0, 0x1FFFFFFFFFFFFFFF, 0x0, 0x1000201000FFFFFF⟩,
  ⟨0x10020, 0x100, 64, 0x0, 1, 8, 0x0, 0x0, 0x0, 0x0⟩,
  ⟨0x10028, 0x100, 64, 0x0, 1, 8, 0x0, 0x0, 0x0, 0x0⟩,
  ⟨0x10030, 0x100, 64, 0x0, 1, 4, 0x3, 0x0, 0x0, 0x1⟩,
  ⟨0x10034, 0x100, 64, 0x0, 1, 4, 0x0, 0x0, 0x0, 0x0⟩,
  ⟨0x100000, 0x0, 1, 0x0, 1, 4, 0x1, 0x0, 0x0, 0x0⟩,
  ⟨0x100004, 0x0, 1, 0x0, 1, 4, 0x0, 0x0, 0xC, 0x0⟩,
  ⟨0x100008, 0x0, 1, 0x0, 1, 8, 0xFFFFFFFFFFFFF01F, 0x0, 0x0, 0x0⟩,
  ⟨0x100010, 0x0, 1, 0x0, 1, 8, 0xFFFFFFFFFFFFF01F, 0x0, 0x0, 0x0⟩]

/-- Table 21-4, part 1. -/
def Reg.iodRows1 : List RegRow := [
  ⟨0x100018, 0x0, 1, 0x0, 1, 8, 0xFFFF, 0x0, 0x0, 0x0⟩,
  ⟨0x100020, 0x0, 1, 0x0, 1, 8, 0x0, 0x0, 0x0, 0x0⟩,
  ⟨0x100028, 0x0, 1, 0x0, 1, 4, 0x0, 0x0, 0x80000000, 0x0⟩,
  ⟨0x100030, 0x0, 1, 0x0, 1, 8, 0x0, 0x0, 0x0, 0x0⟩,
  ⟨0x101000, 0x10, 256, 0x0, 1, 16, 0x1FFFFFFFFFFFFFFFFFFFFFFFC, 0x0, 0x0, 0x1000000000000000000000000⟩,
  ⟨0x102000, 0x0, 1, 0x0, 1, 32, 0x0, 0x0, 0x0, 0x0⟩,
  ⟨0x200000, 0x4, 8, 0x0, 1, 4, 0x0, 0xFFF, 0x0, 0xEEB⟩,
  ⟨0x201000, 0x40, 20, 0x0, 1, 4, 0x0, 0x0, 0x0, 0x0⟩,
  ⟨0x201010, 0x40, 20, 0x0, 1, 16, 0x0, 0x0, 0x0, 0xAAAAAAAAAAAAAAAAAAAAAAAAAAAAAAAA⟩,
  ⟨0x201020, 0x40, 20, 0x0, 1, 4, 0x0, 0x0, 0x2F, 0x0⟩,
  ⟨0x201028, 0x40, 20, 0x0, 1, 8, 0x0, 0x0, 0x0, 0x0⟩,
  ⟨0x202000, 0x8, 2, 0x0, 1, 8, 0x0, 0x0, 0x0, 0x0⟩,
  ⟨0x300000, 0x0, 1, 0x0, 1, 8, 0xFFFF00FFFF3FFFFF, 0x0, 0x0, 0x3E80000640400C8⟩,
  ⟨0x300100, 0x20, 12, 0x0, 1, 4, 0x0, 0x0, 0x0, 0x0⟩,
  ⟨0x300108, 0x20, 12, 0x0, 1, 8, 0x0, 0x0, 0xBF, 0x0⟩,
  ⟨0x300110, 0x20, 12, 0x0, 1, 8, 0x0, 0x0, 0x0, 0x0⟩]

/-- Table 21-4, part 2. -/
def Reg.iodRows2 : List RegRow := [
  ⟨0x300118, 0x20, 12, 0x0, 1, 8, 0x0, 0x0, 0x0, 0x0⟩,
  ⟨0x300400, 0x8, 4, 0x0, 1, 8, 0x0, 0x0, 0x0, 0xFFFFFFFFFFFFF⟩,
  ⟨0x300500, 0x0, 1, 0x0, 1, 8, 0x0, 0x0, 0x1F, 0x0⟩,
  ⟨0x300508, 0x0, 1, 0x0, 1, 8, 0x0, 0x0, 0x0, 0x0⟩,
  ⟨0x300510, 0x0, 1, 0x0, 1, 8, 0x0, 0x0, 0x0, 0x0⟩,
  ⟨0x400000, 0x0, 1, 0x0, 1, 8, 0x0, 0x0, 0x0, 0x0⟩,
  ⟨0x400008, 0x0, 1, 0x0, 1, 4, 0x0, 0x1, 0x0, 0x0⟩,
  ⟨0x40000C, 0x0, 1, 0x0, 1, 4, 0x0, 0x3F, 0x0, 0x0⟩,
  ⟨0x400010, 0x0, 1, 0x0, 1, 4, 0x0, 0x0, 0x1E, 0x0⟩,
  ⟨0x400018, 0x0, 1, 0x0, 1, 8, 0x0, 0x0, 0x0, 0x0⟩,
  ⟨0x400040, 0x4, 12, 0x0, 1, 4, 0x0, 0x87, 0x0, 0x0⟩,
  ⟨0x401000, 0x0, 1, 0x0, 1, 4096, 0x0, 0x0, 0x0, 0x0⟩,
  ⟨0x402000, 0x0, 1, 0x0, 1, 4096, (2 ^ 32768 - 1) / 0xFF * 0x8F, 0, 0, 0x0⟩,
  ⟨0x440000, 0x1000, 64, 0x4, 1024, 4, 0xBF000FFF, 0x0, 0x0, 0x0⟩,
  ⟨0x600000, 0x0, 1, 0x0, 1, 4, 0x0, 0x0, 0x1F, 0x0⟩,
  ⟨0x600008, 0x0, 1, 0x0, 1, 8, 0x0, 0x0, 0x0, 0x0⟩]

/-- Table 21-4, part 3. -/
def Reg.iodRows3 : List RegRow := [
  ⟨0x600010, 0x0, 1, 0x0, 1, 8, 0x0, 0x0, 0x0, 0x0⟩,
  ⟨0x600018, 0x0, 1, 0x0, 1, 8, 0x0, 0x0, 0x0, 0x0⟩,
  ⟨0x601000, 0x10, 64, 0x0, 1, 8, 0x0, 0x0, 0x0, 0x0⟩,
  ⟨0x601008, 0x10, 64, 0x0, 1, 8, 0x0, 0x0, 0x0, 0x0⟩,
  ⟨0x700000, 0x0, 1, 0x0, 1, 4, 0x0, 0x0, 0x28, 0x0⟩,
  ⟨0x700008, 0x0, 1, 0x0, 1, 8, 0x0, 0x0, 0x0, 0x0⟩,
  ⟨0x800000, 0x0, 1, 0x0, 1, 4, 0x0, 0x0, 0x0, 0x400⟩,
  ⟨0x800004, 0x0, 1, 0x0, 1, 4, 0xFFFFFF03, 0x0, 0x0, 0x1⟩,
  ⟨0x800008, 0x0, 1, 0x0, 1, 4, 0x0, 0xFFF, 0x0, 0x898⟩,
  ⟨0x80000C, 0x0, 1, 0x0, 1, 4, 0xFF, 0x0, 0x0, 0x5F⟩,
  ⟨0x800010, 0x0, 1, 0x0, 1, 4, 0x0, 0x0, 0x3C, 0x0⟩,
  ⟨0x800018, 0x0, 1, 0x0, 1, 8, 0x0, 0x0, 0x0, 0x0⟩,
  ⟨0x800020, 0x0, 1, 0x0, 1, 8, 0x0, 0x0, 0x0, 0x0⟩,
  ⟨0x880000, 0x0, 1, 0x0, 1, 4, 0x0, 0xFF, 0x0, 0x2C⟩,
  ⟨0x880004, 0x0, 1, 0x0, 1, 4, 0x0, 0x0, 0x18, 0x0⟩,
  ⟨0x880008, 0x0, 1, 0x0, 1, 8, 0x0, 0x0, 0x0, 0x0⟩]

/-- Table 21-4, part 4. -/
def Reg.iodRows4 : List RegRow := [
  ⟨0x900000, 0x0, 1, 0x0, 1, 4, 0x0, 0x0, 0x0, 0x0⟩,
  ⟨0x900004, 0x0, 1, 0x0, 1, 4, 0x0, 0x0, 0x0, 0x0⟩,
  ⟨0x900008, 0x0, 1, 0x0, 1, 4, 0x0, 0x0, 0x0, 0x0⟩,
  ⟨0x90000C, 0x0, 1, 0x0, 1, 4, 0x0, 0x0, 0x0, 0x0⟩,
  ⟨0x900010, 0x0, 1, 0x0, 1, 4, 0xFFFF, 0x0, 0x0, 0x64⟩,
  ⟨0x900018, 0x0, 1, 0x0, 1, 8, 0x0, 0x0, 0x0, 0x0⟩,
  ⟨0x901000, 0x10, 1024, 0x0, 1, 16, 0x0, 0x0, 0x0, 0x0⟩,
  ⟨0xA00000, 0x0, 1, 0x0, 1, 4, 0x0, 0x0, 0x40, 0x0⟩,
  ⟨0xA00008, 0x0, 1, 0x0, 1, 8, 0x0, 0x0, 0x0, 0x800001⟩,
  ⟨0xA00010, 0x0, 1, 0x0, 1, 8, 0x0, 0x0, 0x0, 0x0⟩,
  ⟨0xA00018, 0x0, 1, 0x0, 1, 8, 0x0, 0x0, 0x0, 0x0⟩,
  ⟨0xA00020, 0x0, 1, 0x0, 1, 4, 0x0, 0x0, 0x0, 0x0⟩,
  ⟨0xA00028, 0x0, 1, 0x0, 1, 8, 0x0, 0x0, 0x0, 0x0⟩,
  ⟨0xA01000, 0x10, 64, 0x0, 1, 16, 0x0, 0x0, 0x0, 0x0⟩,
  ⟨0xB00000, 0x0, 1, 0x0, 1, 4, 0x0, 0x0, 0x0, 0x0⟩,
  ⟨0xB00008, 0x0, 1, 0x0, 1, 8, 0x0, 0x0, 0x0, 0x0⟩]

/-- Table 21-4, part 5. -/
def Reg.iodRows5 : List RegRow := [
  ⟨0xB00010, 0x0, 1, 0x0, 1, 8, 0x0, 0x0, 0x0, 0x0⟩,
  ⟨0xB00018, 0x0, 1, 0x0, 1, 8, 0x0, 0x0, 0x0, 0x0⟩,
  ⟨0xB00108, 0x8, 11, 0x0, 1, 8, 0x0, 0x0, 0x0, 0x0⟩,
  ⟨0xC00000, 0x0, 1, 0x0, 1, 4, 0x0, 0x0, 0xF0, 0x1⟩,
  ⟨0xC00008, 0x0, 1, 0x0, 1, 8, 0x0, 0x0, 0x0, 0x0⟩]

/-- Table 21-4. -/
def Reg.iodRows : List RegRow := Reg.iodRows0 ++ Reg.iodRows1 ++ Reg.iodRows2 ++ Reg.iodRows3 ++ Reg.iodRows4 ++ Reg.iodRows5

/-- Table 21-5, part 0. -/
def Reg.dieRows0 : List RegRow := [
  ⟨0x0, 0x0, 1, 0x0, 1, 4, 0x0, 0x0, 0xEE, 0x0⟩,
  ⟨0x4, 0x0, 1, 0x0, 1, 4, 0x100, 0xF000, 0x0, 0x3100⟩,
  ⟨0x8, 0x0, 1, 0x0, 1, 8, 0x0, 0x0, 0x0, 0x0⟩,
  ⟨0x10, 0x0, 1, 0x0, 1, 8, 0x0, 0x0, 0x0, 0x0⟩,
  ⟨0x18, 0x0, 1, 0x0, 1, 8, 0x0, 0x1FFF1FFF, 0x0, 0x0⟩,
  ⟨0x20, 0x0, 1, 0x0, 1, 4, 0x0, 0x0, 0xF, 0x0⟩,
  ⟨0x24, 0x0, 1, 0x0, 1, 4, 0x0, 0x0, 0x0, 0x0⟩,
  ⟨0x28, 0x0, 1, 0x0, 1, 4, 0x0, 0x0, 0x0, 0x204000⟩,
  ⟨0x30, 0x0, 1, 0x0, 1, 8, 0x0, 0x0, 0x0, 0x0⟩,
  ⟨0x40, 0x4, 4, 0x0, 1, 4, 0x0, 0x0, 0x0, 0x4688⟩,
  ⟨0x50, 0x4, 4, 0x0, 1, 4, 0x0, 0x0, 0x80000000, 0x0⟩,
  ⟨0x60, 0x8, 4, 0x0, 1, 8, 0x0, 0x0, 0x0, 0x0⟩,
  ⟨0x80, 0x10, 4, 0x0, 1, 8, 0x0, 0x0, 0x0, 0x0⟩,
  ⟨0x88, 0x10, 4, 0x0, 1, 8, 0x0, 0x0, 0x0, 0x0⟩,
  ⟨0x1000, 0x20, 64, 0x0, 1, 8, 0x0, 0x1FFF1FFF1FFF, 0x0, 0x0⟩,
  ⟨0x1008, 0x20, 64, 0x0, 1, 8, 0x0, 0x7F007F03FF03FF, 0x0, 0x0⟩]

/-- Table 21-5, part 1. -/
def Reg.dieRows1 : List RegRow := [
  ⟨0x1010, 0x20, 64, 0x0, 1, 8, 0x0, 0x1FFFF0001FFFF, 0x0, 0x0⟩,
  ⟨0x100000, 0x0, 1, 0x0, 1, 4, 0xFFFF0000, 0x0, 0x1, 0x3E80000⟩,
  ⟨0x100008, 0x0, 1, 0x0, 1, 8, 0x0, 0x0, 0x0, 0x0⟩,
  ⟨0x100010, 0x0, 1, 0x0, 1, 8, 0x0, 0x0, 0x0, 0x0⟩,
  ⟨0x100018, 0x0, 1, 0x0, 1, 8, 0x0, 0x0, 0x0, 0x0⟩,
  ⟨0x101000, 0x20, 256, 0x0, 1, 32, 0xFFFFFFF800000000000FFFFFFFFFFFFFFFFFFFFFFFFFFFFFFFFFFFFFFFFFFFFF, 0x0, 0x0, 0x0⟩,
  ⟨0x200000, 0x4, 9, 0x0, 1, 4, 0x0, 0xFFF, 0x0, 0x0⟩,
  ⟨0x201000, 0x40, 4, 0x0, 1, 4, 0x0, 0x0, 0x0, 0x0⟩,
  ⟨0x201010, 0x40, 4, 0x0, 1, 16, 0x0, 0x0, 0x0, 0xAAAAAAAAAAAAAAAAAAAAAAAAAAAAAAAA⟩,
  ⟨0x201020, 0x40, 4, 0x0, 1, 4, 0x0, 0x0, 0x2F, 0x0⟩,
  ⟨0x201028, 0x40, 4, 0x0, 1, 8, 0x0, 0x0, 0x0, 0x0⟩,
  ⟨0x1000000, 0x10000, 16, 0x0, 1, 8, 0x0, 0x1FFFFFF00FFFFFF, 0x0, 0x0⟩,
  ⟨0x1000008, 0x10000, 16, 0x0, 1, 4, 0x0, 0x0, 0x0, 0x0⟩,
  ⟨0x1000010, 0x10000, 16, 0x0, 1, 8, 0x0, 0x0, 0x0, 0x0⟩,
  ⟨0x1000018, 0x10000, 16, 0x0, 1, 8, 0x0, 0x0, 0x0, 0x0⟩,
  ⟨0x1000020, 0x10000, 16, 0x0, 1, 4, 0x0, 0x0, 0x0, 0x0⟩]

/-- Table 21-5, part 2. -/
def Reg.dieRows2 : List RegRow := [
  ⟨0x1000028, 0x10000, 16, 0x0, 1, 8, 0x0, 0x0, 0x0, 0x0⟩,
  ⟨0x1000030, 0x10000, 16, 0x0, 1, 8, 0x0, 0x0, 0x0, 0x0⟩,
  ⟨0x1000038, 0x10000, 16, 0x0, 1, 8, 0x0, 0x0, 0x0, 0x0⟩,
  ⟨0x1000040, 0x10000, 16, 0x0, 1, 8, 0x0, 0x0, 0x0, 0x0⟩,
  ⟨0x1000048, 0x10000, 16, 0x0, 1, 8, 0x0, 0x0, 0x8000000000000000, 0x0⟩,
  ⟨0x1000050, 0x10000, 16, 0x0, 1, 8, 0x0, 0x0, 0x0, 0x0⟩,
  ⟨0x1000058, 0x10000, 16, 0x0, 1, 8, 0x80FFFFFFFFFFFFFF, 0x0, 0x0, 0x0⟩,
  ⟨0x1000100, 0x10000, 16, 0x10, 64, 16, 0x0, 0x0, 0x0, 0x0⟩,
  ⟨0x2000000, 0x1000, 16, 0x0, 1, 4, 0x0, 0x0, 0xFF, 0x0⟩,
  ⟨0x2000008, 0x1000, 16, 0x0, 1, 8, 0x0, 0x0, 0x0, 0x0⟩,
  ⟨0x2000010, 0x1000, 16, 0x0, 1, 8, 0x0, 0x0, 0x0, 0x0⟩,
  ⟨0x2000018, 0x1000, 16, 0x0, 1, 8, 0x0, 0x0, 0x0, 0x0⟩,
  ⟨0x3000000, 0x10000, 16, 0x100, 64, 4, 0x0, 0x0, 0xF3F, 0x0⟩,
  ⟨0x3000008, 0x10000, 16, 0x100, 64, 8, 0x0, 0x0, 0x0, 0x0⟩,
  ⟨0x3000010, 0x10000, 16, 0x100, 64, 8, 0x0, 0x0, 0x0, 0x0⟩,
  ⟨0x3000018, 0x10000, 16, 0x100, 64, 8, 0x0, 0x0, 0x0, 0x0⟩]

/-- Table 21-5, part 3. -/
def Reg.dieRows3 : List RegRow := [
  ⟨0x3000020, 0x10000, 16, 0x100, 64, 8, 0x0, 0x0, 0x0, 0x0⟩,
  ⟨0x3000028, 0x10000, 16, 0x100, 64, 8, 0x0, 0x0, 0x0, 0x0⟩]

/-- Table 21-5. -/
def Reg.dieRows : List RegRow := Reg.dieRows0 ++ Reg.dieRows1 ++ Reg.dieRows2 ++ Reg.dieRows3

/-- The byte offset inside the register that offset `off` of the space falls in, where the row covers it. -/
def RegRow.within (r : RegRow) (off : Nat) : Option Nat :=
  if off < r.base then none
  else
    let x := off - r.base
    let x1 := if r.s1 = 0 then x else if x / r.s1 < r.n1 then x % r.s1 else r.bytes
    let x2 := if r.s2 = 0 then x1 else if x1 / r.s2 < r.n2 then x1 % r.s2 else r.bytes
    if x2 < r.bytes then some x2 else none

/-- The row that covers an offset, with the byte offset inside its register. -/
def RegRow.find : List RegRow → Nat → Option (RegRow × Nat)
  | [], _ => none
  | r :: t, off => match r.within off with | some x => some (r, x) | none => RegRow.find t off

/-- DIE field of a device address (Table 0-4). -/
def addrDie (a : Nat) : Nat := a / 2 ^ 36
/-- REGION field of a device address (Table 0-4). -/
def addrRegion (a : Nat) : Nat := a / 2 ^ 32 % 16
/-- OFFSET field of a device address (Table 0-4). -/
def addrOffset (a : Nat) : Nat := a % 2 ^ 32

/-- The register at a device address of region 15, with the byte offset inside it; `none` where the offset is reserved
(R521, R522). -/
def Reg.find (a : Nat) : Option (RegRow × Nat) :=
  if addrRegion a ≠ 15 then none
  else if addrDie a = 8 then RegRow.find Reg.iodRows (addrOffset a)
  else if addrDie a < 8 then RegRow.find Reg.dieRows (addrOffset a)
  else none

/-- The module of die `n` whose ring hop leads to die `d` (Tables 1-3 and 9-12), where `d` is a ring neighbour. -/
def ringModule (n d : Nat) : Option Nat :=
  if n < 4 ∧ d < 4 then (if d = n + 1 then some 1 else if d + 1 = n then some 0 else none)
  else if 4 ≤ n ∧ n < 8 ∧ 4 ≤ d ∧ d < 8 then (if d = n + 1 then some 1 else if d + 1 = n then some 0 else none)
  else if (n = 0 ∧ d = 4) ∨ (n = 4 ∧ d = 0) then some 0
  else if (n = 3 ∧ d = 7) ∨ (n = 7 ∧ d = 3) then some 1
  else none

/-- A D2D_ROUTE value (Table 9-10) from REQ, RSP and control module and alternate. -/
def routeWord (req reqAlt rsp rspAlt ctl ctlAlt : Nat) : Nat :=
  req + 4 * reqAlt + 16 * rsp + 64 * rspAlt + 256 * ctl + 1024 * ctlAlt

/-- The reset value of D2D_ROUTE_d on die `n` (Table 9-11; 0 for the die's own number, R257). -/
def d2dRouteReset (n d : Nat) : Nat :=
  if n = d then 0
  else match ringModule n d with
    | some m => let alt := if d < 4 then 2 else 3; routeWord m alt m alt m alt
    | none => if d = 8 then routeWord 2 3 3 2 2 3 else if d < 4 then routeWord 2 3 2 3 2 3 else routeWord 3 2 3 2 3 2

/-- The ring class of a Tocheas port (Table 12-2). -/
def ringClass (p : Nat) : Nat :=
  if p < 2 then 1 else if p < 4 then 3 else if p < 6 then 5 else if p < 8 then 0 else if p < 10 then 2 else 4

/-- The reset word of the register word at a 4-byte-aligned device address (R528, R529). The registers whose reset comes
from the Dawn configuration stand at the values of the record of log entry 3. -/
def Reg.resetWord (a : Nat) : W32 :=
  let off := addrOffset a
  if addrDie a < 8 ∧ addrRegion a = 15 ∧ 0x200000 ≤ off ∧ off < 0x200024 then
    BitVec.ofNat 32 (d2dRouteReset (addrDie a) ((off - 0x200000) / 4))
  else if addrDie a = 8 ∧ addrRegion a = 15 ∧ 0x400040 ≤ off ∧ off < 0x400070 then
    BitVec.ofNat 32 (ringClass ((off - 0x400040) / 4))
  else match Reg.find a with
    | some (r, x) => BitVec.ofNat 32 (r.reset / 2 ^ (8 * x))
    | none => 0

end Sys2Proof
end

