-- ==== Sys2Proof/Machine/Ops.lean ====
section
/-!
DEFINITION. The named operations over the state that every chapter shares: register words and fields, memory bytes and their
poison marks, free values, what the device sends, events, completions and error capture.
-/

namespace Sys2Proof.Machine

/-! ## Registers -/

/-- The value in effect of the 32-bit register word at a device address. -/
def State.r32 (s : State) (a : Nat) : Nat := (Tab.get Reg.resetWord s.regs a).toNat

/-- The state with the register word at a device address set. -/
def State.w32 (s : State) (a v : Nat) : State := { s with regs := Tab.put Reg.resetWord s.regs a (BitVec.ofNat 32 v) }

/-- The value in effect of the 64-bit register at a device address. -/
def State.r64 (s : State) (a : Nat) : Nat := s.r32 a + 2 ^ 32 * s.r32 (a + 4)

/-- The state with a 64-bit register set. -/
def State.w64 (s : State) (a v : Nat) : State := (s.w32 a (v % 2 ^ 32)).w32 (a + 4) (v / 2 ^ 32)

/-- A field of a 32-bit register. -/
def State.f32 (s : State) (a lo w : Nat) : Nat := fld (s.r32 a) lo w

/-- The state with a field of a 32-bit register set. -/
def State.sf32 (s : State) (a lo w x : Nat) : State := s.w32 a (setFld (s.r32 a) lo w x)

/-- A field of a 64-bit register. -/
def State.f64 (s : State) (a lo w : Nat) : Nat := fld (s.r64 a) lo w

/-- The state with a field of a 64-bit register set. -/
def State.sf64 (s : State) (a lo w x : Nat) : State := s.w64 a (setFld (s.r64 a) lo w x)

/-- The state with bit `i` of a 32-bit register set. -/
def State.set32 (s : State) (a i : Nat) : State := s.sf32 a i 1 1

/-- The state with bit `i` of a 32-bit register clear. -/
def State.clr32 (s : State) (a i : Nat) : State := s.sf32 a i 1 0

/-- The state with bits set in a 32-bit status register. -/
def State.orBits (s : State) (a bits : Nat) : State := s.w32 a (Nat.lor (s.r32 a) bits)

/-- A count in a 64-bit register raised by `k`; it stops at its largest value. -/
def State.count64 (s : State) (a lo w k : Nat) : State := s.sf64 a lo w (satAdd w (s.f64 a lo w) k)

/-- A count in a 32-bit register raised by `k`; it stops at its largest value. -/
def State.count32 (s : State) (a lo w k : Nat) : State := s.sf32 a lo w (satAdd w (s.f32 a lo w) k)

/-- The `n` words of a wide register as one number, lowest address first. -/
def State.rWide (s : State) (a : Nat) : Nat → Nat
  | 0 => 0
  | n + 1 => s.r32 a + 2 ^ 32 * s.rWide (a + 4) n

/-- The state with the `n` words of a wide register set. -/
def State.wWide (s : State) (a : Nat) : Nat → Nat → State
  | 0, _ => s
  | n + 1, v => (s.w32 a (v % 2 ^ 32)).wWide (a + 4) n (v / 2 ^ 32)

/-- The staged word at a device address, where one is staged (R19, R21). -/
def State.stagedAt (s : State) (a : Nat) : Option W32 := Tab.get (fun _ => none) s.staged a

/-- The state with a word staged for the next Hour. -/
def State.stage (s : State) (a v : Nat) : State :=
  { s with staged := Tab.put (fun _ => none) s.staged a (some (BitVec.ofNat 32 v)) }

/-- The state without the staged word at a device address. -/
def State.unstage (s : State) (a : Nat) : State := { s with staged := Tab.put (fun _ => none) s.staged a none }

/-- The value that a window opened without a word's die holds for the word (R49). -/
def State.heldAt (s : State) (a : Nat) : Option W32 :=
  ((Tab.get (fun _ => ({} : DieState)) s.dies (addrDie a)).held.filterMap (fun x => Tab.get (fun _ => none) x.words a)).getLast?

/-- The value that waits for a window: the staged one, else one held for a late die. -/
def State.pendingAt (s : State) (a : Nat) : Option W32 := match s.stagedAt a with | some v => some v | none => s.heldAt a

/-- The word as it will stand once its pending value applies: that value, else the value in effect. -/
def State.nextWord (s : State) (a : Nat) : Nat := match s.pendingAt a with | some v => v.toNat | none => s.r32 a

/-- The part of a row's mask that falls in the word at byte offset `x` of the register. -/
def wordMask (m x : Nat) : W32 := BitVec.ofNat 32 (m / 2 ^ (8 * x))

/-- What a read of a register word returns (R19): the staged value of RWH bits where one is pending, else the value in
effect; 0 at a reserved offset (R17). -/
def State.readWord (s : State) (a : Nat) : Nat :=
  match Reg.find a with
  | none => 0
  | some (r, x) =>
    let rwh := wordMask r.rwh x
    let cur := BitVec.ofNat 32 (s.r32 a)
    match s.pendingAt a with
    | none => cur.toNat
    | some v => ((cur &&& ~~~rwh) ||| (v &&& rwh)).toNat

/-- The state with the staged value of a word put in effect (its RWH bits), and nothing staged there any more. -/
def State.applyWord (s : State) (a : Nat) : State :=
  match s.stagedAt a, Reg.find a with
  | some v, some (r, x) =>
    let rwh := wordMask r.rwh x
    (s.w32 a ((BitVec.ofNat 32 (s.r32 a) &&& ~~~rwh) ||| (v &&& rwh)).toNat).unstage a
  | _, _ => s.unstage a

/-! ## Memory bytes -/

/-- What an unlisted memory byte reads as: 0, the contents that Dawn step 9 leaves (R438). -/
def memDefault : Nat → Byte := fun _ => 0

/-- The byte at a device address of a memory. -/
def State.rdByte (s : State) (a : Nat) : Byte := Tab.get memDefault s.mem a

/-- The state with a memory byte set. -/
def State.wrByte (s : State) (a : Nat) (b : Byte) : State := { s with mem := Tab.put memDefault s.mem a b }

/-- `n` bytes from a device address up. -/
def State.rdBytes (s : State) (a : Nat) : Nat → List Byte
  | 0 => []
  | n + 1 => s.rdByte a :: s.rdBytes (a + 1) n

/-- The state with bytes set from a device address up. -/
def State.wrBytes (s : State) (a : Nat) : List Byte → State
  | [] => s
  | b :: t => (s.wrByte a b).wrBytes (a + 1) t

/-- A little-endian number of `n` bytes in memory. -/
def State.rdNat (s : State) (a n : Nat) : Nat := leNat (s.rdBytes a n)

/-- The canonical form of memory: addresses strictly rising, no entry equal to what an unlisted address reads as. -/
def Memory.wf (m : List Host.Cell) : Bool := Tab.wf memDefault m

/-- Whether the 64-bit word that holds a byte is poisoned (R174). -/
def State.poisoned (s : State) (a : Nat) : Bool := Tab.get (fun _ => false) s.poison (a / 8)

/-- The state with the poison mark of the word at an address set, or cleared with the mark of an error of its own (R174, R181). Either
way the stored word is rewritten, and a single-bit error in it goes (R173). -/
def State.setPoison (s : State) (a : Nat) (b : Bool) : State :=
  { s with poison := Tab.put (fun _ => false) s.poison (a / 8) b
           soft := Tab.put (fun _ => false) s.soft (a / 8) false
           selfErr := if b then s.selfErr else Tab.put (fun _ => false) s.selfErr (a / 8) false }

/-- The state with the mark of an error of its own of the word at an address set or cleared (R181). -/
def State.setSelfErr (s : State) (a : Nat) (b : Bool) : State := { s with selfErr := Tab.put (fun _ => false) s.selfErr (a / 8) b }

/-- Whether one of `n` words from the word at an address up is poisoned. -/
def State.poisonedWords (s : State) (a : Nat) : Nat → Bool
  | 0 => false
  | n + 1 => s.poisoned a || s.poisonedWords (a + 8) n

/-- The state with the poison marks of `n` words set or cleared. -/
def State.setPoisonWords (s : State) (a : Nat) (b : Bool) : Nat → State
  | 0 => s
  | n + 1 => (s.setPoison a b).setPoisonWords (a + 8) b n

/-- The state with the words from the one that holds byte `a` to the one that holds byte `b` rewritten: a single-bit error in one of
them goes (R173). -/
def State.rewritten (s : State) (a b : Nat) : State :=
  { s with soft := s.soft.filter (fun e => !(decide (a / 8 ≤ e.1) && decide (e.1 ≤ b / 8))) }

/-- The state with `b` written at an address, and the poison marks of the 64-bit words it covers whole cleared (R174). -/
def State.store (s : State) (a : Nat) (b : List Byte) : State :=
  let w0 := ceilDiv a 8
  let w1 := (a + b.length) / 8
  ((s.wrBytes a b).rewritten a (a + b.length - 1)).setPoisonWords (w0 * 8) false (w1 - w0)

/-! ## Memory by cycle (R106, R160-R163)

A write is stamped with the first engine cycle of its die that sees it: the cycle after a write by a running unit, the present
one for a write while the die stands still. Ranks order the writes of one cycle, the highest standing last. -/

/-- The byte at a device address as a read in engine cycle `c` of its die sees it. -/
def State.asOf (s : State) (c a : Nat) : Byte :=
  match (s.past.filter (fun p => p.addr == a && decide (c < p.cyc))).getLast? with
  | some p => p.old
  | none => s.rdByte a

/-- The state with a byte written at a stamp and rank (R160): it stands unless a later write, or one of higher rank in its
cycle, has come before it. -/
def State.putTimed (s : State) (cyc rank a : Nat) (b : Byte) : State :=
  let later := s.past.filter (fun p => p.addr == a && (decide (cyc < p.cyc) || (cyc == p.cyc && decide (rank < p.rank))))
  match later.getLast? with
  | none => { s.wrByte a b with past := ⟨a, cyc, rank, s.rdByte a⟩ :: s.past }
  | some l => { s with past := (s.past.map (fun p => if p = l then [{ p with old := b }, ⟨a, cyc, rank, l.old⟩] else [p])).flatten }

/-- Ranks of the writers of one cycle (R160, R162): engine lanes by engine, the vector engine, the DMA mover; a slice's writers
by mesh node; landings and service writes above them. -/
def rankVector : Nat := 64
/-- See `rankVector`. -/
def rankDma : Nat := 65
/-- See `rankVector`. -/
def rankOther : Nat := 256

/-! ## Records by number -/

/-- The record of die `d`. -/
def State.die (s : State) (d : Nat) : DieState := Tab.get (fun _ => {}) s.dies d
/-- The state with the record of die `d` set. -/
def State.setDie (s : State) (d : Nat) (v : DieState) : State := { s with dies := Tab.put (fun _ => {}) s.dies d v }
/-- The record of partition `n`. -/
def State.part (s : State) (n : Nat) : PartState := Tab.get (fun _ => {}) s.parts n
/-- The state with the record of partition `n` set. -/
def State.setPart (s : State) (n : Nat) (v : PartState) : State := { s with parts := Tab.put (fun _ => {}) s.parts n v }
/-- The ring with identifier `rid`. -/
def State.ring (s : State) (rid : Nat) : Ring := Tab.get (fun _ => {}) s.host.rings rid
/-- The state with a ring set. -/
def State.setRing (s : State) (rid : Nat) (v : Ring) : State :=
  { s with host := { s.host with rings := Tab.put (fun _ => {}) s.host.rings rid v } }

/-! ## What the device sends, and free values -/

/-- The state with one more thing sent. -/
def State.emit (s : State) (o : Output) : State := { s with out := s.out ++ [o] }

/-- The free value that the next draw gives (log entry 4), cut to `w` bits. -/
def State.freeNat (s : State) (w : Nat) : Nat := (Config.freeValue s.freeCount).toNat % 2 ^ w

/-- The state after a free value has been drawn. -/
def State.drawn (s : State) : State := { s with freeCount := s.freeCount + 1 }

/-! ## Partition registers -/

/-- STATE of partition `n` (Table 2-5). -/
def State.pstate (s : State) (n : Nat) : Nat := s.f32 (Reg.topPartStatus n) 0 3
/-- The state with STATE of partition `n` set. -/
def State.setPstate (s : State) (n x : Nat) : State := s.sf32 (Reg.topPartStatus n) 0 3 x
/-- Partition `n` is LOADED or RUNNING. -/
def State.loadedOrRunning (s : State) (n : Nat) : Bool := s.pstate n == 2 || s.pstate n == 3
/-- The logical cores of partition `n` as a 128-bit set (R55). -/
def State.members (s : State) (n : Nat) : Nat := s.rWide (Reg.topPartMember n) 4
/-- The partition that owns package logical core `g` (R55). -/
def State.owner (s : State) (g : Nat) : Option Nat := (List.range 64).find? (fun n => bitAt (s.members n) g)
/-- The package logical cores of partition `n`, LC0 upward (R55). -/
def State.lcs (s : State) (n : Nat) : List Nat := upto 128 (fun g => bitAt (s.members n) g)
/-- The package logical core of LC `lc` of partition `n`. -/
def State.coreOf (s : State) (n lc : Nat) : Option Nat := (s.lcs n)[lc]?
/-- Partition `n` owns a core on die `d`. -/
def State.hasCoreOn (s : State) (n d : Nat) : Bool := fld (s.members n) (16 * d) 16 != 0
/-- TOP_HOUR_COUNT. -/
def State.hourCount (s : State) : Nat := s.r64 Reg.topHourCount

/-- The state in which partition `n` has recorded a cause to stop at the next Hour: the first stands, and of causes found in
one noon cycle the lowest status code (R549). `t` is the cycle where the command has one; causes without one go in order. -/
def State.recordStopAt (s : State) (t : Option Nat) (n status : Nat) (k : StopKind) : State :=
  let p := s.part n
  match p.stop with
  | some (x, _) => if t.isSome && p.stopAt == t && decide (status < x) then s.setPart n { p with stop := some (status, k) } else s
  | none => s.setPart n { p with stop := some (status, k), stopAt := t }

/-- The same for a cause found by a command that names no cycle. -/
def State.recordStop (s : State) (n status : Nat) (k : StopKind) : State := s.recordStopAt none n status k

/-! ## Events (R334) -/

/-- The state in which an event is generated: queued, or lost and counted where the IOD queue is full. -/
def State.postEvent (s : State) (type part source data : Nat) : State :=
  let s := s.count64 Reg.hstEvtCount 0 32 1
  let q := s.host.evSeq
  let s := { s with host := { s.host with evSeq := (q + 1) % 2 ^ 24 } }
  if s.host.events.length < 4096 then
    { s with host := { s.host with events := s.host.events ++ [⟨data, type, part, source, q⟩] } }
  else
    let s := (s.set32 Reg.hstStatus 3).count64 Reg.hstEvtCount 32 32 1
    { s with host := { s.host with evLost := s.host.evLost + 1 } }

/-- The 32 bytes of an event entry (Table 13-6). -/
def eventEntry (e : EventRec) (phase : Bool) : Nat :=
  e.data % 2 ^ 192 + e.type % 2 ^ 16 * 2 ^ 192 + e.part % 2 ^ 8 * 2 ^ 208 + e.source % 2 ^ 8 * 2 ^ 216 + e.seq % 2 ^ 24 * 2 ^ 224
    + (if phase then 2 ^ 255 else 0)

/-! ## MSI-X (R340) -/

/-- The state in which the message of a vector is sent, or its pending bit set where the vector or the function is masked
(R340, PCI Express). Nothing is sent while MSI-X is not enabled. -/
def State.sendVector (s : State) (v : Nat) : State :=
  if !s.host.msixEnable then s
  else if s.host.msixMask || bitAt (s.r32 (Reg.msixEntry (v % 256) + 12)) 0 then s.set32 (Reg.msixPba + v % 256 / 32 * 4) (v % 32)
  else s.emit (.msix v)

/-- The state after an entry has been written to a device-written ring: its vector's message is sent, or put off while the
hold-off interval runs (R340). -/
def State.announce (s : State) (rid : Nat) : State :=
  let r := s.ring rid
  if r.heldOff then s.setRing rid { r with unannounced := true }
  else (s.setRing rid { r with heldOff := decide (0 < r.holdoff), unannounced := false }).sendVector r.vector

/-! ## Completions (R331-R333) -/

/-- The free slots of a device-written ring (R337). -/
def Ring.freeSlots (r : Ring) : Nat := 2 ^ r.log2 - 1 - (r.tail + 2 ^ r.log2 - r.head) % 2 ^ r.log2

/-- The ring after one entry written at its tail (R333): the tail advances, and PHASE inverts at the end of a pass. -/
def Ring.wrote (r : Ring) : Ring :=
  if (r.tail + 1) % 2 ^ r.log2 = 0 then { r with tail := 0, phase := !r.phase } else { r with tail := r.tail + 1 }

/-- The completion ring of a submission ring: ring 128 for the admin ring (R329). -/
def State.cqOf (s : State) (rid : Nat) : Nat := if rid = 0 then 128 else (s.ring rid).cq

/-- The 32 bytes of a completion entry (Table 13-5). -/
def State.complEntry (s : State) (c : Compl) (phase : Bool) : Nat :=
  c.cmdId % 2 ^ 32 + c.status % 2 ^ 8 * 2 ^ 32 + c.rid % 2 ^ 8 * 2 ^ 40 + (s.ring c.rid).head % 2 ^ 16 * 2 ^ 48
    + s.hourCount * 2 ^ 64 + c.r0 % 2 ^ 64 * 2 ^ 128 + c.r1 % 2 ^ 56 * 2 ^ 192 + (if phase then 2 ^ 255 else 0)

/-- The state with a completion written to a completion ring, or waiting there while the ring is in ERROR (R336). -/
def State.writeCompl (s : State) (cq : Nat) (c : Compl) : State :=
  let r := s.ring cq
  if r.error then s.setRing cq { r with waiting := r.waiting ++ [c] }
  else ((s.emit (.hostWrite (r.base + 32 * r.tail) 32 (s.complEntry c r.phase))).setRing cq r.wrote).announce cq

/-- What stands for the CMD_ID of a command whose ring was deleted under it. -/
def gone : Nat := 2 ^ 32

/-- The state after a command of ring `rid` has completed: its descriptor is no longer outstanding and its completion is
written (R331). Nothing is written for a ring that no longer exists (R349); a command that was outstanding when its ring went
has the number `gone`. -/
def State.complete (s : State) (rid cmdId status r0 r1 : Nat) : State :=
  let r := s.ring rid
  if !r.live || cmdId = gone then s
  else
    let s := s.setRing rid { r with taken := r.taken.erase cmdId }
    if (s.ring (s.cqOf rid)).live then s.writeCompl (s.cqOf rid) ⟨rid, cmdId, status, r0, r1⟩ else s

/-! ## Error capture (R350) -/

/-- The state after an error has been captured: the registers written and an ERROR_CAPTURE event posted where no capture is
held, else MORE set and COUNT raised. -/
def State.capture (s : State) (addr requester kind : Nat) (write : Bool) : State :=
  let i := Reg.hstErrInfo
  if bitAt (s.r32 i) 31 then (s.set32 i 30).count32 i 16 8 1
  else
    let info := 2 ^ 31 + requester % 32 * 2 ^ 8 + kind % 16 * 2 ^ 4 + (if write then 1 else 0)
    let s := (s.w64 Reg.hstErrAddr (addr % 2 ^ 40)).w32 i info
    s.postEvent 0x000A 0xFF 8 (addr % 2 ^ 40 + info * 2 ^ 64)

/-! ## Time (log entry 7) -/

/-- The units of die `d` run in noon cycle `t` (R48, R101): not in a hold or a wait for the Hour, nor inside an open window. -/
def State.dieRuns (s : State) (d t : Nat) : Bool := (s.die d).run && decide ((s.die d).t0 ≤ t)

/-- The engine cycle of die `d` at noon cycle `t` (R101): it stands still while the die's units stand still. -/
def State.engCycle (s : State) (d t : Nat) : Nat :=
  let x := s.die d
  if x.run then x.e0 + (t - x.t0) else x.e0

/-- The schedule counter of die `d` at noon cycle `t` (R44). -/
def State.schedCount (s : State) (d t : Nat) : Nat :=
  let x := s.die d
  if x.run then x.s0 + (t - x.t0) else x.s0

/-- The schedule count of die `d` in engine cycle `e`: a swap window has counts but no engine cycle (R44, R101). -/
def State.countAt (s : State) (d e : Nat) : Nat :=
  let x := s.die d
  x.s0 + e - x.e0 - (if e < x.winEng then x.winGap else 0)

/-- The stamp of a write that a die takes from its ingress queues or its service path at noon cycle `t`: the first engine cycle whose
reads see it (R160). -/
def State.landStamp (s : State) (d t : Nat) : Nat := if s.dieRuns d t then s.engCycle d t + 1 else s.engCycle d t

/-- `n` bytes from a device address up as a read from outside the die's units in noon cycle `t` finds them (R160, R161). -/
def State.rdBytesAt (s : State) (t a n : Nat) : List Byte :=
  if 8 ≤ addrDie a then s.rdBytes a n else (List.range n).map (fun i => s.asOf (s.engCycle (addrDie a) t) (a + i))

/-- The state with `b` written at an address at noon cycle `t` from outside the die's units, and the poison marks of the 64-bit words
it covers whole cleared (R160, R174). -/
def State.storeAt (s : State) (t a : Nat) (b : List Byte) : State :=
  if 8 ≤ addrDie a then s.store a b
  else
    let cyc := s.landStamp (addrDie a) t
    let w0 := ceilDiv a 8
    let w1 := (a + b.length) / 8
    (((b.zipIdx).foldl (fun s x => s.putTimed cyc rankOther (a + x.2) x.1) s).rewritten a (a + b.length - 1)).setPoisonWords (w0 * 8) false (w1 - w0)

end Sys2Proof.Machine
end

