-- ==== Sys2Proof/Machine/Operands.lean ====
section
/-!
DEFINITION. The forms operands take: fields of descriptors (Table 13-4), requesters and BAR0 offsets (R328, R350), device
addresses and the places they name (R13-R17, R42, R150-R152).
-/

namespace Sys2Proof

/-- `n` bytes of a descriptor from byte `b` up, as a number. -/
def Desc.f (d : Desc) (b n : Nat) : Nat := fld d.toNat (8 * b) (8 * n)

/-- Every byte of a descriptor from `b` to `e - 1` is 0. -/
def Desc.zero (d : Desc) (b e : Nat) : Bool := d.f b (e - b) == 0

/-- CMD_ID of a descriptor. -/
def Desc.cmdId (d : Desc) : Nat := d.f 4 4

namespace Machine

/-- What a device address names. -/
inductive Place where
  /-- A byte of a memory, by its device address outside the interleaved view. -/
  | memory (addr : Nat)
  /-- An offset of the flag files of a die. -/
  | flagFile (die off : Nat)
  /-- A register byte offset of region 15 of a die or of the IOD. -/
  | register (addr : Nat)
  /-- A broadcast to a region (R15). -/
  | broadcast (region off : Nat)
  /-- Reserved, with the KIND of the error capture (Table 13-11). -/
  | reserved (kind : Nat)
  deriving DecidableEq, Repr

/-- The device address of the byte that offset `x` of the interleaved view names (R152). -/
def interleave (x : Nat) : Nat := x / 512 % 8 * 2 ^ 36 + x / 4096 * 512 + x % 512

/-- The populated size of a memory region (Table 1-6). -/
def regionSize (die region : Nat) : Nat :=
  if die < 8 then (if region = 0 then 2 ^ 32 else if region = 1 then 768 * 2 ^ 20 else 128 * 2 ^ 20) else 512 * 2 ^ 20

/-- The place a device address names, or why it is reserved (R13-R17, R42; region 3 offsets by Table 8-1). -/
def place (a : Nat) : Place :=
  let die := addrDie a
  let region := addrRegion a
  let off := addrOffset a
  if 2 ^ 40 ≤ a then .reserved 0
  else if die = 14 then (if a % 2 ^ 36 < 2 ^ 35 then .memory (interleave (a % 2 ^ 36)) else .reserved 2)
  else if die = 15 then (if region = 0 ∨ region = 3 ∨ region = 15 then .broadcast region off else .reserved 4)
  else if 8 < die then .reserved 0
  else if region = 15 then (match Reg.find a with | some _ => .register a | none => .reserved 2)
  else if die = 8 ∧ region ≠ 0 then .reserved 1
  else if region = 3 then
    (if 0x4000 ≤ off then .reserved 3
     else if (0x100 ≤ off % 0x1000 ∧ off % 0x1000 < 0x400) ∨ 0xC00 ≤ off % 0x1000 then .reserved 2 else .flagFile die off)
  else if 3 < region then .reserved 1
  else if off < regionSize die region then .memory a else .reserved 3

/-- REQUESTER code of the host (R350). -/
def reqHost : Nat := 0

/-- The requester and device address of an access; a BAR0 offset goes through the aperture from 0x0100_0000 up (R328). -/
def State.resolve (s : State) (v : Via) : Nat × Nat :=
  match v with
  | .bar0 off =>
    if off < 2 ^ 24 then (reqHost, Reg.iodBase + off)
    else (reqHost, s.f64 Reg.hstAperture 0 16 * 2 ^ 24 + (off - 2 ^ 24))
  | .bar2 off => (reqHost, off)
  | .device r a => (r, a)

/-- Whether an access of `len` bytes is one that BAR0 and BAR2 accept: naturally aligned 32 or 64 bits (R328). -/
def barAccessOk (v : Via) (len : Nat) : Bool :=
  match v with
  | .bar0 off | .bar2 off => (len == 4 && off % 4 == 0) || (len == 8 && off % 8 == 0)
  | .device _ _ => true

/-- The BAR offset or device address an error capture records (Table 13-11: the BAR offset for KIND 5 to 7). -/
def captureAddr (v : Via) (kind a : Nat) : Nat :=
  match v with
  | .bar0 off => if 5 ≤ kind then off else a
  | .bar2 off => off
  | .device _ _ => a

/-- Whether Dawn marked die `d` absent. -/
def State.dieAbsent (s : State) (d : Nat) : Bool := decide ((s.die d).cond = .absent)

end Machine

end Sys2Proof
end

