-- ==== Sys2Proof/Machine/Links.lean ====
section
/-!
DEFINITION. The sending side of the UCIe modules: frames and control messages, replay buffers, credits, decoupling queues and
routes between dies (09_fabric_and_die_links.md R252-R261).
-/

namespace Sys2Proof.Machine

/-! ## CRC-32C -/

/-- CRC-32C (Castagnoli, reflected) over one more bit step. -/
def crc32cBits : Nat → Nat → Nat
  | 0, c => c
  | n + 1, c => crc32cBits n (if c % 2 = 1 then Nat.xor (c / 2) 0x82F63B78 else c / 2)

/-- CRC-32C of a byte string. -/
def crc32c (bs : List Byte) : Nat :=
  Nat.xor (bs.foldl (fun c b => crc32cBits 8 (Nat.xor c b.toNat)) 0xFFFFFFFF) 0xFFFFFFFF

/-! ## Frames and messages on the wire -/

/-- The header bits [223:0] of a frame (Table 9-8). -/
def Frame.header (f : Frame) (seq : Nat) : Nat :=
  f.addr % 2 ^ 32 * 2 ^ 108 + f.region % 16 * 2 ^ 140 + f.level % 4 * 2 ^ 144 + f.lc % 128 * 2 ^ 146 + f.peer % 1024 * 2 ^ 153
    + f.remote % 2 * 2 ^ 163 + f.tag % 2 ^ 16 * 2 ^ 164 + f.lmask % 256 * 2 ^ 180 + f.gen % 16 * 2 ^ 188 + f.part % 64 * 2 ^ 192
    + f.cls % 4 * 2 ^ 198 + f.dest % 16 * 2 ^ 200 + f.src % 16 * 2 ^ 204 + f.kind % 16 * 2 ^ 208 + seq % 4096 * 2 ^ 212

/-- The 288 bytes of a frame as a number, header lowest. -/
def Frame.wire (f : Frame) (seq : Nat) : Nat :=
  let h := f.header seq
  let p := f.data % 2 ^ 2048
  h + crc32c (leBytes 28 h ++ leBytes 256 p) * 2 ^ 224 + p * 2 ^ 256

/-- The frame that 288 bytes spell. -/
def Frame.ofWire (x : Nat) : Frame :=
  { kind := fld x 208 4, src := fld x 204 4, dest := fld x 200 4, cls := fld x 198 2, part := fld x 192 6, gen := fld x 188 4,
    lmask := fld x 180 8, tag := fld x 164 16, remote := fld x 163 1, peer := fld x 153 10, lc := fld x 146 7,
    level := fld x 144 2, region := fld x 140 4, addr := fld x 108 32, data := fld x 256 2048 }

/-- SEQ of a frame or message on the wire. -/
def wireSeq (x : Nat) : Nat := fld x 212 12

/-- The CHECK of a frame on the wire is correct. -/
def frameCheck (x : Nat) : Bool := fld x 224 32 == crc32c (leBytes 28 (fld x 0 224) ++ leBytes 256 (fld x 256 2048))

/-- The 32 bytes of a control message. -/
def Msg.wire (m : Msg) (seq : Nat) : Nat :=
  let h := m.body % 2 ^ 200 + m.dest % 16 * 2 ^ 200 + m.src % 16 * 2 ^ 204 + m.kind % 16 * 2 ^ 208 + seq % 4096 * 2 ^ 212
  h + crc32c (leBytes 28 h) * 2 ^ 224

/-- The message that 32 bytes spell. -/
def Msg.ofWire (x : Nat) : Msg := { kind := fld x 208 4, src := fld x 204 4, dest := fld x 200 4, body := fld x 0 200 }

/-- The CHECK of a message on the wire is correct. -/
def msgCheck (x : Nat) : Bool := fld x 224 32 == crc32c (leBytes 28 (fld x 0 224))

/-! ## Module ends -/

/-- The record of a module end. -/
def State.modEnd (s : State) (k : Nat) : ModEnd := Tab.get (fun _ => {}) s.mods k
/-- The state with the record of a module end set. -/
def State.setModEnd (s : State) (k : Nat) (v : ModEnd) : State := { s with mods := Tab.put (fun _ => {}) s.mods k v }

/-- The die a module end belongs to; 8 for the IOD. -/
def endDie (k : Nat) : Nat := if k < 32 then k / 4 else 8
/-- The MOD_STATUS register of a module end. -/
def endStatus (k : Nat) : Nat := if k < 32 then Reg.d2dModStatus (k / 4) (k % 4) else Reg.iodModStatus (k - 32)
/-- The MOD_COUNT register of a module end. -/
def endCount (k : Nat) : Nat := if k < 32 then Reg.d2dModCount (k / 4) (k % 4) else Reg.iodModCount (k - 32)
/-- The MOD_CFG register of a module end. -/
def endCfg (k : Nat) : Nat := if k < 32 then Reg.d2dModCfg (k / 4) (k % 4) else Reg.iodModCfg (k - 32)
/-- The LANE_ROLE register of a module end. -/
def endLanes (k : Nat) : Nat := if k < 32 then Reg.d2dLaneRole (k / 4) (k % 4) else Reg.iodLaneRole (k - 32)

/-- The other end of a module (Table 1-3, R523). -/
def otherEnd (k : Nat) : Nat :=
  if 32 ≤ k then
    (let t := k - 32
     if t < 16 then t / 2 * 4 + 2 + t % 2 else if t = 16 then 0 else if t = 17 then 16 else if t = 18 then 13 else 29)
  else
    let d := k / 4
    let m := k % 4
    if m = 2 ∨ m = 3 then 32 + 2 * d + (m - 2)
    else if m = 1 then (if d = 3 then 32 + 18 else if d = 7 then 32 + 19 else 4 * (d + 1))
    else (if d = 0 then 32 + 16 else if d = 4 then 32 + 17 else 4 * (d - 1) + 1)

/-- Entries of a receiving queue (Table 9-14): 0 REQ, 1 RSP, 2 SIG, 3 RREQ. -/
def queueSize (q : Nat) : Nat := if q = 2 then 128 else 64
/-- Entries sent to a queue of the other end (R256). -/
def ModEnd.sentOf (x : ModEnd) (q : Nat) : Nat := Tab.get (fun _ => 0) x.sent q
/-- FREED last received for a queue (R256). -/
def ModEnd.freedGotOf (x : ModEnd) (q : Nat) : Nat := Tab.get queueSize x.freedGot q
/-- FREED of an own queue (R256). -/
def ModEnd.freedOf (x : ModEnd) (q : Nat) : Nat := Tab.get queueSize x.freed q
/-- One more entry may be sent to a queue (R256). -/
def ModEnd.credit (x : ModEnd) (q : Nat) : Bool :=
  let n := (x.freedGotOf q + 2 ^ 32 - x.sentOf q) % 2 ^ 32
  1 ≤ n && n ≤ 2 ^ 31
/-- One more entry sent to a queue. -/
def ModEnd.spend (x : ModEnd) (q : Nat) : ModEnd := { x with sent := Tab.put (fun _ => 0) x.sent q ((x.sentOf q + 1) % 2 ^ 32) }
/-- Messages of the CONTROL egress queue that are no signals (R260). -/
def ModEnd.others (x : ModEnd) : Nat := (x.ctlE.filter (fun m => m.kind != 0)).length
/-- `n` more scheduled frames find room in the REQ egress queue (Table 9-14). -/
def ModEnd.reqRoom (x : ModEnd) (n : Nat) : Bool := x.reqE.length + n ≤ 64
/-- `n` more scheduled signals find room in the CONTROL egress queue (Table 9-14). -/
def ModEnd.sigRoom (x : ModEnd) (n : Nat) : Bool := x.ctlE.length + n ≤ 256
/-- Waiting messages enter the CONTROL egress queue while 128 of its entries stay kept for signals (Table 9-14). -/
def ModEnd.letIn (x : ModEnd) : ModEnd :=
  let k := min (128 - x.others) (256 - x.ctlE.length)
  { x with ctlE := x.ctlE ++ x.ctlW.take k, ctlW := x.ctlW.drop k }
/-- The module end can send. -/
def ModEnd.up (x : ModEnd) : Bool := !x.outOfService && !x.retraining

/-- Message kinds that are sequenced and replayed (R254). -/
def msgSequenced (k : Nat) : Bool := k == 0 || k == 1 || k == 2 || k == 6
/-- The receiving queue of a sequenced message (Table 9-14). -/
def msgQueue (k : Nat) : Nat := if k = 1 then 3 else 2

/-- The state in which a message that is not sequenced is sent (R254). -/
def State.sendPlain (s : State) (k : Nat) (m : Msg) : State := s.emit (.d2dMsg k (m.wire 0))

/-- Frames of an egress queue sent while replay buffer and credit allow (R255, R256). -/
def State.pumpF (s : State) (k q : Nat) : Nat → State
  | 0 => s
  | n + 1 =>
    let x := s.modEnd k
    match (if q = 0 then x.reqE else x.rspE) with
    | [] => s
    | f :: t =>
      if !x.up || 256 ≤ x.replayF.length then s
      else if !x.credit q then s.set32 (endStatus k) 5
      else
        let x := { x.spend q with sendF := (x.sendF + 1) % 4096, replayF := x.replayF ++ [(x.sendF, f)] }
        let x := if q = 0 then { x with reqE := t } else { x with rspE := t }
        ((s.setModEnd k x).emit (.d2dFrame k (f.wire ((s.modEnd k).sendF)))).pumpF k q n

/-- Sequenced messages sent while replay buffer and credit allow (R255, R256); waiting ones take the room they leave. -/
def State.pumpM (s : State) (k : Nat) : Nat → State
  | 0 => s
  | n + 1 =>
    let x := (s.modEnd k).letIn
    let s := s.setModEnd k x
    match x.ctlE with
    | [] => s
    | m :: t =>
      let q := msgQueue m.kind
      if !x.up || 512 ≤ x.replayM.length then s
      else if !x.credit q then s.set32 (endStatus k) 5
      else
        let y := { x.spend q with sendM := (x.sendM + 1) % 4096, replayM := x.replayM ++ [(x.sendM, m)], ctlE := t }
        ((s.setModEnd k y).emit (.d2dMsg k (m.wire x.sendM))).pumpM k n

/-- Everything a module end can send now is sent. -/
def State.pump (s : State) (k : Nat) : State :=
  let s := s.pumpM k ((s.modEnd k).ctlE.length + (s.modEnd k).ctlW.length + 1)
  let s := s.pumpF k 1 ((s.modEnd k).rspE.length)
  s.pumpF k 0 ((s.modEnd k).reqE.length)

/-- A frame enters the egress queue of its class. -/
def State.sendFrame (s : State) (k : Nat) (f : Frame) : State :=
  let x := s.modEnd k
  let x := if f.cls = 0 then { x with reqE := x.reqE ++ [f] } else { x with rspE := x.rspE ++ [f] }
  (s.setModEnd k x).pump k

/-- A message enters the CONTROL egress queue, or waits for its room where it is no signal; HOUR messages go ahead (R254,
R260). -/
def State.sendMsg (s : State) (k : Nat) (m : Msg) : State :=
  if !msgSequenced m.kind then s.sendPlain k m
  else
    let x := s.modEnd k
    let x := if m.kind = 6 then { x with ctlE := m :: x.ctlE }
      else if m.kind = 0 then { x with ctlE := x.ctlE ++ [m] }
      else { x with ctlW := x.ctlW ++ [m] }
    (s.setModEnd k x).pump k

/-- What the other end of a module sent as the frame of a SEQ, where its replay buffer holds it: the marks beside its lines come
from there (log entry 32). -/
def State.sentFrame (s : State) (k seq : Nat) : Option Frame :=
  ((s.modEnd (otherEnd k)).replayF.find? (fun e => e.1 == seq)).map (·.2)

/-- An arriving frame with the marks that went with it. -/
def State.withMarks (s : State) (k seq : Nat) (f : Frame) : Frame :=
  match s.sentFrame k seq with
  | some y => { f with bad := y.bad, tail := y.tail, red := y.red }
  | none => f

/-- The state after an entry of a receiving queue has been taken: FREED rises and a CREDIT message carries it (R256). -/
def State.freeEntry (s : State) (k q : Nat) : State :=
  let x := s.modEnd k
  let n := (x.freedOf q + 1) % 2 ^ 32
  (s.setModEnd k { x with freed := Tab.put queueSize x.freed q n }).sendPlain k
    { kind := 3, src := endDie k, dest := endDie (otherEnd k), body := n + q * 2 ^ 32 }

/-! ## Routes (R257) -/

/-- The module end by which die `n` (8: the IOD) sends to die `x` (8: the IOD): 0 REQ frames, 1 RSP frames, 2 control messages
(Table 9-10). -/
def State.routeEnd (s : State) (n x traffic : Nat) : Nat :=
  let m := s.f32 (if n = 8 then Reg.iodRoute x else Reg.d2dRoute n x) (4 * traffic) 2
  if n = 8 then (if 2 ≤ m then 32 + 2 * x + (m - 2) else otherEnd (4 * x + m)) else 4 * n + m

/-- A frame goes out by its route. -/
def State.routeFrame (s : State) (n : Nat) (f : Frame) : State := s.sendFrame (s.routeEnd n f.dest (if f.cls = 0 then 0 else 1)) f
/-- A control message goes out by its route. -/
def State.routeMsg (s : State) (n : Nat) (m : Msg) : State := s.sendMsg (s.routeEnd n m.dest 2) m

/-- GEN of a partition (TOP_PART_JOB_n, R449). -/
def State.gen (s : State) (n : Nat) : Nat := s.f32 (Reg.topPartJob n) 0 4

/-- Up to eight lines from `addr` up as the payload of a frame. -/
def framePayload (lines : List (List Byte)) : Nat := leNat ((lines.map (fun l => l ++ List.replicate (32 - l.length) 0)).flatten)

/-- The frames that carry consecutive lines of one target and TAG (R253), eight lines a frame. -/
def framesOf (h : Frame) : Nat → List (List Byte) → List Frame
  | 0, _ => []
  | n + 1, ls =>
    if ls.isEmpty then []
    else
      let now := ls.take 8
      { h with lmask := 2 ^ now.length - 1, data := framePayload now } :: framesOf { h with addr := h.addr + 256 } n (ls.drop 8)

end Sys2Proof.Machine
end

