-- ==== Sys2Proof/Machine/Flags.lean ====
section
/-!
DEFINITION. The flag files: evaluation, grant and update phases of one cycle, and their outcomes
(08_flags_ordering_interlocks.md R216-R223, Table 8-3).
-/

namespace Sys2Proof.Machine

/-- Number of flag or counter `i` of cluster `c` of die `d`, over the package. -/
def flagKey (d c i : Nat) : Nat := d * 1024 + c * 256 + i

/-- The value of a flag now. -/
def State.flag (s : State) (k : Nat) : Bool := Tab.get (fun _ => false) s.flags k
/-- The value of a counter now. -/
def State.ctr (s : State) (k : Nat) : Nat := (Tab.get (fun _ => (0 : W32)) s.ctrs k).toNat
/-- The state with a flag set to a value, outside any cycle. -/
def State.putFlag (s : State) (k : Nat) (b : Bool) : State := { s with flags := Tab.put (fun _ => false) s.flags k b }
/-- The state with a counter set to a value, outside any cycle. -/
def State.putCtr (s : State) (k v : Nat) : State :=
  { s with ctrs := Tab.put (fun _ => (0 : W32)) s.ctrs k (BitVec.ofNat 32 v) }

/-- The flag's value after the update phase (Table 8-3): a set wins over a clear. -/
def FlagCell.result (x : FlagCell) : Bool := if 0 < x.sets then true else if 0 < x.clears then false else x.granted

/-- The sets that leave no trace (Table 8-3): none where a clear met them. -/
def FlagCell.coalesced (x : FlagCell) : Nat :=
  if 0 < x.clears || x.sets == 0 then 0 else if x.granted then x.sets else x.sets - 1

/-- The counter's value after the update phase (Table 8-3): the value-view write, if any, then the adds. -/
def CtrCell.result (x : CtrCell) : Nat := ((match x.write with | some (_, v) => v | none => x.granted) + x.adds) % 2 ^ 32

/-- The state in which the windows of partition `n` on die `d` have been copied for a reissue (R234). -/
def State.copyWindows (s : State) (d n : Nat) : State :=
  match (s.part n).snapshot with
  | none => s
  | some x =>
    let w := s.r64 (Reg.cdFlagwin d n)
    let keys (lo size : Nat) : List Nat := ((List.range 4).map (fun c => (List.range (fld w size 9)).map (fun i => flagKey d c (fld w lo 8 + i)))).flatten
    s.setPart n { s.part n with snapshot := some { x with
      flags := x.flags.filter (fun e => e.1 / 1024 != d) ++ (keys 0 8).map (fun k => (k, s.flag k)),
      ctrs := x.ctrs.filter (fun e => e.1 / 1024 != d) ++ (keys 32 40).map (fun k => (k, s.ctr k)) } }

/-- The state in which the copies that `p` names have been made. -/
def State.makeCopies (s : State) (p : Nat × Nat × Nat → Bool) : State :=
  let l := s.hour.copies.filter p
  if l.isEmpty then s
  else l.foldl (fun s e => s.copyWindows e.1 e.2.1) { s with hour := { s.hour with copies := s.hour.copies.filter (fun e => !p e) } }

/-- The state at cycle `t` of die `d`'s flag file: the cells of an earlier cycle are forgotten, and the copies of a window that has
ended are made. -/
def State.flagCycle (s : State) (d t : Nat) : State :=
  if (s.die d).flagT = t then s
  else
    let s := s.makeCopies (fun e => e.1 == d && decide (e.2.2 ≤ t))
    s.setDie d { s.die d with
    flagT := t, flagCells := [], ctrCells := [], coalBase := (List.range 4).map (fun c => s.f64 (Reg.cdFlagCount d c) 32 32),
    coalWas := bitAt (s.r32 (Reg.cdFlagStatus d)) 0 }

/-- The cell of flag `k` in the present cycle of its die. -/
def State.flagCell (s : State) (k : Nat) : FlagCell :=
  match Tab.get (fun _ => none) (s.die (k / 1024)).flagCells (k % 1024) with
  | some x => x
  | none => ⟨s.flag k, s.flag k, 0, 0⟩

/-- The cell of counter `k` in the present cycle of its die. -/
def State.ctrCell (s : State) (k : Nat) : CtrCell :=
  match Tab.get (fun _ => none) (s.die (k / 1024)).ctrCells (k % 1024) with
  | some x => x
  | none => ⟨s.ctr k, s.ctr k, 0, none⟩

/-- The sets of the present cycle that leave no trace on the flags of a cluster of a die. -/
def DieState.coalescedOf (x : DieState) (c : Nat) : Nat :=
  (x.flagCells.map (fun e => if e.1 / 256 = c then (match e.2 with | some y => y.coalesced | none => 0) else 0)).sum

/-- The state with the cell of flag `k` set, the flag at the cell's result, and SET_COALESCE and COALESCED as the cycle's
coalesced sets say (R237): SET_COALESCE counts from what it held before the cycle and stops at its largest value. -/
def State.setFlagCell (s : State) (k : Nat) (x : FlagCell) : State :=
  let d := k / 1024
  let c := k % 1024 / 256
  let old := (s.flagCell k).coalesced
  let s := s.setDie d { s.die d with flagCells := Tab.put (fun _ => none) (s.die d).flagCells (k % 1024) (some x) }
  let s := s.putFlag k x.result
  if x.coalesced = old then s
  else
    let y := s.die d
    let s := s.sf64 (Reg.cdFlagCount d c) 32 32 (satAdd 32 ((y.coalBase[c]?).getD 0) (y.coalescedOf c))
    if y.coalWas || (List.range 4).any (fun i => decide (0 < y.coalescedOf i)) then s.set32 (Reg.cdFlagStatus d) 0
    else s.clr32 (Reg.cdFlagStatus d) 0

/-- The state with the cell of counter `k` set and the counter at the cell's result. -/
def State.setCtrCell (s : State) (k : Nat) (x : CtrCell) : State :=
  let d := k / 1024
  let s := s.setDie d { s.die d with ctrCells := Tab.put (fun _ => none) (s.die d).ctrCells (k % 1024) (some x) }
  s.putCtr k x.result

/-- Update phase: flag `k` is set (`true`) or cleared at cycle `t` (R220). -/
def State.updFlag (s : State) (k t : Nat) (b : Bool) : State :=
  let s := s.flagCycle (k / 1024) t
  let x := s.flagCell k
  s.setFlagCell k (if b then { x with sets := x.sets + 1 } else { x with clears := x.clears + 1 })

/-- Update phase: `v` is added to counter `k` at cycle `t`, modulo 2^32 (R221). -/
def State.addCtr (s : State) (k t v : Nat) : State :=
  let s := s.flagCycle (k / 1024) t
  let x := s.ctrCell k
  s.setCtrCell k { x with adds := x.adds + v }

/-- Update phase: a value-view write of requester `r` to counter `k` at cycle `t`; of several the lowest requester's stands
(R221). -/
def State.writeCtr (s : State) (k t r v : Nat) : State :=
  let s := s.flagCycle (k / 1024) t
  let x := s.ctrCell k
  match x.write with
  | some (r', _) => if r < r' then s.setCtrCell k { x with write := some (r, v) } else s
  | none => s.setCtrCell k { x with write := some (r, v) }

/-- Evaluation phase: flag `k` at the start of cycle `t` (R220). -/
def State.evalFlag (s : State) (k t : Nat) : Bool := ((s.flagCycle (k / 1024) t).flagCell k).start
/-- Evaluation phase: counter `k` at the start of cycle `t` (R220). -/
def State.evalCtr (s : State) (k t : Nat) : Nat := ((s.flagCycle (k / 1024) t).ctrCell k).start
/-- Flag `k` after the consumptions granted so far in cycle `t` (R220). -/
def State.grantedFlag (s : State) (k t : Nat) : Bool := ((s.flagCycle (k / 1024) t).flagCell k).granted
/-- Counter `k` after the consumptions granted so far in cycle `t` (R220). -/
def State.grantedCtr (s : State) (k t : Nat) : Nat := ((s.flagCycle (k / 1024) t).ctrCell k).granted

/-- Grant phase: a consuming wait clears flag `k` in cycle `t` (R220). -/
def State.consumeFlag (s : State) (k t : Nat) : State :=
  let s := s.flagCycle (k / 1024) t
  s.setFlagCell k { s.flagCell k with granted := false }

/-- Grant phase: a consuming wait subtracts its VALUE from counter `k` in cycle `t` (R220). -/
def State.consumeCtr (s : State) (k t v : Nat) : State :=
  let s := s.flagCycle (k / 1024) t
  let x := s.ctrCell k
  s.setCtrCell k { x with granted := (x.granted + 2 ^ 32 - v % 2 ^ 32) % 2 ^ 32 }

/-! ## Region 3 (Table 8-1) -/

/-- Bytes `bs` written from offset `off` of the flag bytes of die `d` (R216). -/
def State.writeFlagBytes (s : State) (d off t : Nat) : List Byte → State
  | [] => s
  | b :: bs => (s.updFlag (flagKey d (off / 0x1000) (off % 0x1000)) t (b.toNat % 2 == 1)).writeFlagBytes d (off + 1) t bs

/-- Words written from offset `off` of the counter views of die `d` (R216): value view below 0x800, else add view. -/
def State.writeCtrWords (s : State) (d off t r : Nat) : List Nat → State
  | [] => s
  | v :: vs =>
    let x := off % 0x1000
    let s := if x < 0x800 then s.writeCtr (flagKey d (off / 0x1000) ((x - 0x400) / 4)) t r v
      else s.addCtr (flagKey d (off / 0x1000) ((x - 0x800) / 4)) t v
    s.writeCtrWords d (off + 4) t r vs

/-- The little-endian 32-bit words of a byte list (a last part of a word is dropped). -/
def wordsOf : List Byte → List Nat
  | a :: b :: c :: e :: t => leNat [a, b, c, e] :: wordsOf t
  | _ => []

/-- An access of `n` bytes at offset `off` of region 3 is one Table 8-1 allows: inside the flag bytes of one cluster, or whole
counter words of one view. -/
def flagAccessOk (off n : Nat) : Bool :=
  let x := off % 0x1000
  let e := x + n
  off < 0x4000 && 0 < n && (e ≤ 0x100 || ((0x400 ≤ x && e ≤ 0xC00 && (e ≤ 0x800 || 0x800 ≤ x)) && x % 4 == 0 && n % 4 == 0))

/-- A service-path write to region 3 of die `d` in cycle `t` (R216, R222). -/
def State.writeRegion3 (s : State) (d off t r : Nat) (bs : List Byte) : State :=
  if off % 0x1000 < 0x100 then s.writeFlagBytes d off t bs else s.writeCtrWords d off t r (wordsOf bs)

/-- A service-path read of region 3 of die `d` in cycle `t`: the values at the start of the cycle (R216, R222). -/
def State.readRegion3 (s : State) (d off t n : Nat) : Nat :=
  let x := off % 0x1000
  let c := off / 0x1000
  if x < 0x100 then leNat ((List.range n).map (fun j => if s.evalFlag (flagKey d c (x + j)) t then 1 else 0))
  else ((List.range (n / 4)).map (fun j => s.evalCtr (flagKey d c ((x - 0x400) % 0x400 / 4 + j)) t * 2 ^ (32 * j))).sum

end Sys2Proof.Machine
end

