-- ==== Sys2Proof/Machine/Rows.lean ====
section
/-!
DEFINITION. Rows and macros of the memories, single-bit errors, row remaps and the scrubber's walk (06_memory_hierarchy.md R150, R151,
R173-R179).
-/

namespace Sys2Proof.Machine

/-- CD_RAS_LAST's LEVEL of an address (Table 6-12). -/
def addrLevel (a : Nat) : Nat := min (addrRegion a) 3

/-- The state with CD_RAS_LAST of a die written (Table 6-12). -/
def State.rasLast (s : State) (d type a : Nat) : State :=
  s.w64 (Reg.cdRasLast d) (type * 2 ^ 62 + addrLevel a * 2 ^ 60 + a % 2 ^ 40)

/-- A MEMORY event of a die (Table 13-7). -/
def State.memoryEvent (s : State) (d part : Nat) : State :=
  s.postEvent 0x0006 part d (s.r64 (Reg.cdRasLast d) + s.r32 (Reg.cdMemStatus d) * 2 ^ 64)

/-! ## Rows and macros (Table 6-1, R150, R151) -/

/-- First address of the row that holds a byte, and the distance of its lines: eight lines of one bank in shared and core
memory, one line in an operand buffer. -/
def rowOf (a : Nat) : Nat × Nat :=
  let off := addrOffset a
  match addrRegion a with
  | 0 =>
    let x := off % 2 ^ 28
    (a - x + x / 1024 / 8 * 8 * 1024 + off / 32 % 32 * 32, 1024)
  | 1 =>
    let x := off % 0x3000000
    (a - x + x / 2048 / 8 * 8 * 2048 + x / 32 % 64 * 32, 2048)
  | _ => (a / 32 * 32, 0)

/-- Device addresses of the lines of a row. -/
def rowLines (row : Nat) : List Nat :=
  let k := (rowOf row).2
  if k = 0 then [row] else (List.range 8).map (fun i => row + k * i)

/-- The macro that holds a byte by physical place: region times 2^32 plus its number on the die; in shared memory (slice · 8 + macro of the bank)
· 32 + bank, the number of its 1 MiB as a hole (R179). -/
def macroOf (a : Nat) : Nat :=
  let off := addrOffset a
  match addrRegion a with
  | 0 => (off / 2 ^ 28 * 8 + off % 2 ^ 28 / 2 ^ 25) * 32 + off / 32 % 32
  | 1 => 2 ^ 32 + (off / 0x3000000 * 64 + off % 0x3000000 / 32 % 64) * 3 + off % 0x3000000 / 2048 / 8192
  | _ => 2 * 2 ^ 32 + off / 65536 * 8 + off / 32 % 8

/-- Spare rows of a macro (Table 6-1). -/
def spareRows (key : Nat) : Nat := if key / 2 ^ 32 = 0 then 128 else if key / 2 ^ 32 = 1 then 32 else 8

/-- The core of a region 1 or 2 offset (R151). -/
def coreOfOffset (region off : Nat) : Nat := if region = 1 then off / 0x3000000 else off / 2 ^ 23

/-- The spare rows that mapped rows take, by macro. -/
def sparesOf (rows : List Nat) : Tab Nat :=
  rows.foldl (fun t r => Tab.put (fun _ => 0) t (macroOf r) (Tab.get (fun _ => 0) t (macroOf r) + 1)) []

/-- The physical slot that serves a die-local logical core (R239, R240). -/
def State.slotOf (s : State) (g : Nat) : Nat := s.f32 (Reg.cdSlotMap (g / 16) (g % 16 / 4)) (3 * (g % 4)) 3

/-- A device address by physical place: in core memory and operand buffers, the slot that serves the core, 5 k + s, in the place of the
die-local logical core (R240). Rows, their counts and their repairs belong to the slot. -/
def State.physical (s : State) (a : Nat) : Nat :=
  let region := addrRegion a
  let off := addrOffset a
  let unit := if region = 1 then 0x3000000 else 2 ^ 23
  let c := off / unit
  if (region = 1 ∨ region = 2) ∧ c < 16 then a - off + (5 * (c / 4) + s.slotOf (16 * addrDie a + c)) * unit + off % unit else a

/-! ## Remaps (R176-R179) -/

/-- The state in which a row of die `d` has been scheduled for remap, or has exhausted its macro's spares. -/
def State.scheduleRemap (s : State) (d row : Nat) : State :=
  let x := s.die d
  let key := macroOf row
  let used := Tab.get (fun _ => 0) x.sparesUsed key
  if x.remapQ.contains row then s
  else if spareRows key ≤ used then
    let s := if x.exhausted.contains key then s else s.setDie d { x with exhausted := x.exhausted ++ [key] }
    (s.set32 (Reg.cdMemStatus d) 7).memoryEvent d 0xFF
  else
    (s.setDie d { x with remapQ := x.remapQ ++ [row], sparesUsed := Tab.put (fun _ => 0) x.sparesUsed key (used + 1) }).set32 (Reg.cdMemStatus d) 4

/-- Step 2 of a window (R177): at most eight rows of die `d` are remapped, in the order in which they were scheduled. The copy
keeps contents, corrected, and poison, and addresses do not change. A remapped row's entry leaves the row error table with the row
that it counted (DEDUCED, log entry 52). -/
def State.applyRemaps (s : State) (d : Nat) : State :=
  let x := s.die d
  let now := x.remapQ.take 8
  if now.isEmpty then s
  else
    let rest := x.remapQ.drop 8
    let s := s.setDie d { x with remapQ := rest, unrecorded := x.unrecorded ++ now, rowErrs := x.rowErrs.filter (fun e => !now.contains e.row) }
    let s := { s with soft := s.soft.filter (fun e => !now.contains (rowOf (s.physical (8 * e.1))).1) }
    let s := (s.set32 (Reg.cdMemStatus d) 3).count64 (Reg.cdRasCount d) 0 16 now.length
    s.sf32 (Reg.cdMemStatus d) 4 1 (if rest.isEmpty then 0 else 1)

/-- The entries of a row error table after a corrected error in a row, and the row's count (R176). -/
def countRow (l : List RowErr) (row : Nat) : List RowErr × Nat :=
  match l.find? (fun e => e.row == row) with
  | some e => (l.map (fun y => if y.row = row then { y with count := y.count + 1 } else y), e.count + 1)
  | none =>
    if l.length < 256 then (l ++ [⟨row, 1, false⟩], 1)
    else
      let least := l.foldl (fun m e => min m e.count) (l.head?.elim 0 (·.count))
      match l.find? (fun e => e.count == least) with
      | some y => (l.erase y ++ [⟨row, 1, false⟩], 1)
      | none => (l, 0)

/-- The state after a single-bit error in the word at device address `a` of die `d` has been corrected in a read (R173, R176). -/
def State.eccCorrected (s : State) (d a : Nat) : State :=
  let s := ((s.set32 (Reg.cdMemStatus d) 5).count64 (Reg.cdRasCount d) 32 32 1).rasLast d 1 (a / 8 * 8)
  let row := (rowOf (s.physical a)).1
  let x := s.die d
  let r := countRow x.rowErrs row
  let s := s.setDie d { x with rowErrs := r.1 }
  if max 1 (s.f32 (Reg.cdRasCtl d) 12 4) ≤ r.2 then s.scheduleRemap d row else s

/-! ## Reads that find an error (R173) -/

/-- The word that holds a byte is stored with a single-bit error. -/
def State.isSoft (s : State) (a : Nat) : Bool := Tab.get (fun _ => false) s.soft (a / 8)

/-- The state in which words, by device address divided by 8, have come to be stored with a single-bit error; a poisoned word holds a
syndrome of its own (R174). -/
def State.upset (s : State) (words : List (BitVec 37)) : State :=
  { s with soft := words.foldl (fun l w => if s.poisoned (8 * w.toNat) then l else Tab.put (fun _ => false) l w.toNat true) s.soft }

/-- The state after a read of bytes: it has found and corrected the error of each word stored with one. The stored words stay as
they are until the scrubber or a write rewrites them (R173). -/
def State.noticed (s : State) (addrs : List Nat) : State :=
  if s.soft.isEmpty then s
  else (((addrs.map (· / 8)).eraseDups).filter (fun w => s.isSoft (8 * w))).foldl (fun s w => s.eccCorrected (addrDie (8 * w)) (8 * w)) s

/-- The words of lines, each by its first byte. -/
def lineWords (lines : List Nat) : List Nat := (lines.map (fun a => [a, a + 8, a + 16, a + 24])).flatten

/-! ## The scrubber's walk (R175, Table 6-6)

Each slice, core memory and operand buffer is walked by itself, line after line; a unit's key is 2^16 times its region plus its
number on the die, by physical place. -/

/-- The unit that holds a byte by physical place. -/
def scrubUnit (a : Nat) : Nat :=
  let off := addrOffset a
  match addrRegion a with
  | 0 => off / 2 ^ 28
  | 1 => 2 ^ 16 + off / 0x3000000
  | r => r * 2 ^ 16 + off / 65536

/-- Bytes of a unit. -/
def unitBytes (key : Nat) : Nat := if key / 2 ^ 16 = 0 then 2 ^ 28 else if key / 2 ^ 16 = 1 then 0x3000000 else 65536

/-- Lines of a unit, and those that a swap window reads of it: 32 of each bank. -/
def unitLines (key : Nat) : Nat := unitBytes key / 32
/-- Lines of a unit that a swap window reads. -/
def windowLines (key : Nat) : Nat := 32 * (if key / 2 ^ 16 = 0 then 32 else if key / 2 ^ 16 = 1 then 64 else 8)

/-- The number of the line of its unit that holds a byte. -/
def lineInUnit (a : Nat) : Nat := addrOffset a % unitBytes (scrubUnit a) / 32

/-- The line of a unit that the scrubber of die `d` reads next. -/
def State.scrubAt (s : State) (d key : Nat) : Nat :=
  ((s.die d).scrubWin * windowLines key + Tab.get (fun _ => 0) (s.die d).scrubIdle key) % unitLines key

/-- The state after the scrubber has read `k` lines of a unit from one on: a word found with an error is written back corrected. The
write-back follows its read in the same command, so that no write comes between (R175). -/
def State.scrubLines (s : State) (d key line k : Nat) : State :=
  let hit (a : Nat) : Bool := addrDie a == d && scrubUnit (s.physical a) == key && decide (line ≤ lineInUnit a) && decide (lineInUnit a < line + k)
  ((s.soft.map (·.1)).filter (fun w => hit (8 * w))).foldl (fun s w =>
    let s := s.eccCorrected d (8 * w)
    let x := s.die d
    let s := s.setDie d { x with rowErrs := x.rowErrs.map (fun e => if e.row = (rowOf (s.physical (8 * w))).1 then { e with inPass := true } else e) }
    { s with soft := Tab.put (fun _ => false) s.soft w false }) s

/-- The state at the end of a pass of a unit: entries of its rows in which the pass found no error are freed (R176). -/
def State.scrubWrap (s : State) (d key : Nat) : State :=
  let x := s.die d
  let here (e : RowErr) : Bool := scrubUnit e.row == key
  s.setDie d { x with rowErrs := (x.rowErrs.filter (fun e => !here e || e.inPass)).map (fun e => if here e then { e with inPass := false } else e) }

/-- The state after the scrubber has read the next `k` lines of a unit. -/
def State.scrubUnitBy (s : State) (d key k : Nat) : State :=
  let p := s.scrubAt d key
  let n := unitLines key
  if p + k < n then s.scrubLines d key p k else ((s.scrubLines d key p (n - p)).scrubWrap d key).scrubLines d key 0 (p + k - n)

/-- The state after a swap window of die `d`: the scrubber has read its lines of every unit (R175). Only a unit with an error or with
a counted row shows it. -/
def State.scrubWindow (s : State) (d : Nat) : State :=
  let units := (((s.soft.map (fun e => 8 * e.1)).filter (fun a => addrDie a == d)).map s.physical ++ (s.die d).rowErrs.map (·.row)).map scrubUnit
  let s := (units.eraseDups).foldl (fun s key => s.scrubUnitBy d key (windowLines key)) s
  s.setDie d { s.die d with scrubWin := (s.die d).scrubWin + 1 }

/-- The state after the scrubber has read the next line of a unit in an idle bank cycle. -/
def State.scrubIdle (s : State) (d key : Nat) : State :=
  let s := s.scrubUnitBy d key 1
  let x := s.die d
  s.setDie d { x with scrubIdle := Tab.put (fun _ => 0) x.scrubIdle key ((Tab.get (fun _ => 0) x.scrubIdle key + 1) % unitLines key) }

end Sys2Proof.Machine
end

