-- ==== Sys2Proof/Machine/Cards.lean ====
section
/-!
DEFINITION. Layer cards: their fields, the items their descriptors name, ranges and base-and-bound checks, waits and signals,
range interlocks, card digests and completion (07_layer_cards.md, 08_flags_ordering_interlocks.md R227-R236,
06_memory_hierarchy.md R167 and R171, 10_determinism.md R277-R281).
-/

namespace Sys2Proof.Machine

/-! ## Card fields (Tables 7-2 to 7-9) -/

/-- `n` bytes of a card from byte `b` up. -/
def cardF (card b n : Nat) : Nat := fld card (8 * b) (8 * n)
/-- OPCODE. -/
def cardOp (card : Nat) : Nat := cardF card 0 1
/-- FENCE. -/
def cardFence (card : Nat) : Bool := bitAt card 16
/-- END. -/
def cardEnd (card : Nat) : Bool := bitAt card 17
/-- WRAP. -/
def cardWrap (card : Nat) : Bool := bitAt card 18
/-- REPj + 1. -/
def cardRep (card j : Nat) : Nat := cardF card (4 + 2 * j) 2 + 1
/-- ISSUE_GAP. -/
def cardGap (card : Nat) : Nat := cardF card 12 3
/-- WAITi. -/
def cardWait (card i : Nat) : Nat := cardF card (16 + 8 * i) 8
/-- SIGNALi. -/
def cardSignal (card i : Nat) : Nat := cardF card (48 + 8 * i) 8
/-- DESCi. -/
def cardDesc (card i : Nat) : Nat := cardF card (80 + 32 * i) 32
/-- The body. -/
def cardBody (card : Nat) : Nat := cardF card 208 48
/-- A body field. -/
def bodyF (card lo w : Nat) : Nat := fld (cardBody card) lo w
/-- The iterations I of a card (R188). -/
def cardIters (card : Nat) : Nat := cardRep card 0 * cardRep card 1 * cardRep card 2 * cardRep card 3
/-- Index ij of iteration number `n` (R188). -/
def iterIdx (card n j : Nat) : Nat :=
  match j with
  | 0 => n % cardRep card 0
  | 1 => n / cardRep card 0 % cardRep card 1
  | 2 => n / (cardRep card 0 * cardRep card 1) % cardRep card 2
  | _ => n / (cardRep card 0 * cardRep card 1 * cardRep card 2)

/-- LEVEL of a descriptor (Table 7-6). -/
def descLevel (desc : Nat) : Nat := fld desc 62 2
/-- REMOTE. -/
def descRemote (desc : Nat) : Bool := bitAt desc 61
/-- PEER. -/
def descPeer (desc : Nat) : Nat := fld desc 51 10
/-- LC, the package logical core once relocated (R211). -/
def descLc (desc : Nat) : Nat := fld desc 44 7
/-- ENGINE. -/
def descEng (desc : Nat) : Nat := fld desc 38 6
/-- BUF. -/
def descBuf (desc : Nat) : Nat := fld desc 37 1
/-- OFFSET. -/
def descOff (desc : Nat) : Nat := fld desc 0 32
/-- RUN. -/
def descRun (desc : Nat) : Nat := fld desc 64 32
/-- WRAP of a descriptor. -/
def descWrap (desc : Nat) : Nat := fld desc 96 32
/-- STRj. -/
def descStr (desc j : Nat) : Int := sext (fld desc (128 + 32 * j) 32) 32

/-- q of an iteration (R190). -/
def descQ (card desc n : Nat) : Int :=
  (iterIdx card n 0 : Int) * descStr desc 0 + (iterIdx card n 1 : Int) * descStr desc 1
    + (iterIdx card n 2 : Int) * descStr desc 2 + (iterIdx card n 3 : Int) * descStr desc 3

/-- The offset of byte `b` of the item at relative position `q` (R190). -/
def itemOffset (desc : Nat) (q : Int) (b : Nat) : Nat :=
  if descWrap desc = 0 then ((descOff desc : Int) + q + b).toNat
  else descOff desc + ((q + b) % (descWrap desc : Int)).toNat

/-- The device address of an offset of a descriptor's level, for logical core `lc` and engine `e` (R150, R151, R170). -/
def levelAddr (level lc e buf off : Nat) : Nat :=
  let die := lc / 16
  if level = 1 then die * 2 ^ 36 + 2 ^ 32 + lc % 16 * 0x3000000 + off
  else if level = 2 then die * 2 ^ 36 + 2 * 2 ^ 32 + lc % 16 * 2 ^ 23 + e * 2 ^ 17 + buf * 2 ^ 16 + off % 2 ^ 16
  else die * 2 ^ 36 + off % 2 ^ 32

/-! ## Engine masks and copies (R201, R204, R205) -/

/-- The logical engines of a mask, ascending. -/
def maskEngines (m : Nat) : List Nat := upto 64 (fun e => bitAt m e)

/-- ENG_MASK of a MATMUL or MOVE card, or of a MULTICAST card. -/
def cardEngMask (card : Nat) : Nat := if cardOp card = 4 then bodyF card 128 64 else bodyF card 0 64

/-- Rank of an engine in the card's mask. -/
def engRank (card e : Nat) : Nat := ((maskEngines (cardEngMask card)).filter (fun x => decide (x < e))).length

/-- The engine term of an item's position: ENG_OUT_STRIDE for a MATMUL output, ENG_SRC_STRIDE for a spread MOVE's source. -/
def engTerm (card slot e : Nat) : Int :=
  if cardOp card = 1 ∧ slot = 2 then (engRank card e : Int) * sext (bodyF card 96 32) 32
  else if cardOp card = 3 ∧ slot = 0 then (engRank card e : Int) * sext (bodyF card 64 32) 32
  else 0

/-- DRAIN_MODE is CHAIN or CHAIN_OPEN (R201). -/
def cardChained (card : Nat) : Bool := bodyF card 181 2 == 1 || bodyF card 181 2 == 2

/-- q of an item with its engine term; under CHAIN the output advances with i1 to i3 only, as R202 makes STR0 0. -/
def itemQ (card slot n e : Nat) : Int := descQ card (cardDesc card slot) n + engTerm card slot e

/-- A spread MOVE into the buffers of every engine of its mask (R204). -/
def isSpread (card : Nat) : Bool := cardOp card == 3 && descLevel (cardDesc card 1) == 2 && cardEngMask card != 0

/-- The copies of an item: logical core and engine of each place it names. A MATMUL item has one copy per engine of the mask;
a spread MOVE one per engine; a MULTICAST target one per core and engine. -/
def itemCopies (card slot : Nat) : List (Nat × Nat) :=
  let desc := cardDesc card slot
  let lc := descLc desc
  if cardOp card = 1 then (maskEngines (cardEngMask card)).map (fun e => (lc, e))
  else if isSpread card then (maskEngines (cardEngMask card)).map (fun e => (lc, e))
  else if cardOp card = 4 ∧ slot = 1 then
    let lcs := upto 128 (fun c => bitAt (bodyF card 0 128) c)
    if descLevel desc = 2 then (lcs.map (fun c => (maskEngines (cardEngMask card)).map (fun e => (c, e)))).flatten
    else lcs.map (fun c => (c, 0))
  else [(lc, descEng desc)]

/-- The engine whose buffer a copy names: of the source of a spread MOVE it is SRC.ENGINE for every copy (R204). -/
def copyEng (card slot : Nat) (copy : Nat × Nat) : Nat :=
  if cardOp card = 3 ∧ slot = 0 then descEng (cardDesc card 0) else copy.2

/-- The device address of byte `b` of an item's copy. The buffer a MATMUL operand names is fixed by its slot. -/
def itemAddr (card slot n : Nat) (copy : Nat × Nat) (b : Nat) : Nat :=
  let desc := cardDesc card slot
  levelAddr (descLevel desc) copy.1 (copyEng card slot copy) (descBuf desc) (itemOffset desc (itemQ card slot n copy.2) b)

/-- Whether a descriptor is used, and whether the card writes through it (Table 7-7). -/
def slotUse (card slot : Nat) : Option Bool :=
  match cardOp card with
  | 1 => if slot < 2 then some false else if slot = 2 then some true else none
  | 2 =>
    let r := bodyF card (307 + 3 * slot) 3
    if r = 0 ∨ 5 < r then none else some (decide (4 ≤ r))
  | 3 => if slot = 0 then some false else if slot = 1 then some true else none
  | 4 => if slot = 0 then some false else if slot = 1 then some true else none
  | 5 => if slot = 0 then some false else if slot = 1 then some true else none
  | _ => none

/-! ## Ranges of a partition (R167, R171) -/

/-- Whether partition `n` may read (or write) the byte at a device address (R167). -/
def State.mayAccess (s : State) (n : Nat) (write : Bool) (a : Nat) : Bool :=
  let d := addrDie a
  let off := addrOffset a
  let within (base bound unit x : Nat) : Bool := base * unit ≤ x && x < (base + bound) * unit
  let shm := Reg.cdPbbShm d n
  let core := Reg.cdPbbCore d n
  let com := Reg.cdCommonShm d
  if 8 ≤ d || !s.hasCoreOn n d then false
  else match addrRegion a with
    | 0 => within (s.f64 shm 0 13) (s.f64 shm 16 13) (2 ^ 20) off
        || (!write && within (s.f64 com 0 13) (s.f64 com 16 13) (2 ^ 20) off)
    | 1 => bitAt (s.members n) (16 * d + off / 0x3000000) && off < 16 * 0x3000000
        && within (s.f64 core 0 10) (s.f64 core 16 10) (2 ^ 16) (off % 0x3000000)
    | 2 => bitAt (s.members n) (16 * d + off / 2 ^ 23) && off < 2 ^ 27
        && within (s.f64 core 32 7) (s.f64 core 48 7) (2 ^ 10) (off % 2 ^ 16)
    | _ => false

/-- The state after an access of partition `n` outside its ranges, in noon cycle `t` where the command has one (R171, R549). -/
def State.boundFaultAt (s : State) (t : Option Nat) (n a : Nat) : State :=
  let d := addrDie a % 8
  (((s.set32 (Reg.cdMemStatus d) 2).rasLast d 3 a).memoryEvent d n).recordStopAt t n 0x51 .fault

/-- The same for a command that names no cycle. -/
def State.boundFault (s : State) (n a : Nat) : State := s.boundFaultAt none n a

/-- The bytes at addresses that partition `n` may read, and zeros elsewhere (R171). -/
def State.readChecked (s : State) (n : Nat) (addrs : List Nat) : List Byte :=
  addrs.map (fun a => if s.mayAccess n false a then s.rdByte a else 0)

/-- The byte that a read by partition `n` in engine cycle `c` of the address's die returns: zero where it may not read (R171,
R232). -/
def State.readAsOf (s : State) (n c a : Nat) : Byte := if s.mayAccess n false a then s.asOf c a else 0

/-- The state with one byte written at a stamp and rank where partition `n` may write, else as it was (R171); the poison mark of
a word written whole is cleared (R174). -/
def State.writeByteTimed (s : State) (n cyc rank a : Nat) (b : Byte) : State :=
  if !s.mayAccess n true a then s
  else if a % 8 = 7 then (s.putTimed cyc rank a b).setPoison a false else (s.putTimed cyc rank a b).rewritten a a

/-- The state with bytes written at a stamp and rank where partition `n` may write, others discarded. -/
def State.writeTimed (s : State) (n cyc rank : Nat) (w : List (Nat × Byte)) : State :=
  w.foldl (fun s x => s.writeByteTimed n cyc rank x.1 x.2) s

/-- The state after an access to addresses: a bound fault where one of them may not be accessed (R171), and of a read the errors that
it finds and corrects (R173). -/
def State.checkBounds (s : State) (t n : Nat) (write : Bool) (addrs : List Nat) : State :=
  let s' := if write then s else s.noticed (addrs.filter (s.mayAccess n false))
  match addrs.find? (fun a => !s.mayAccess n write a) with
  | some a => s'.boundFaultAt (some t) n a
  | none => s'

/-- The state with the words that hold the addresses marked poisoned (R174). -/
def State.poisonAt (s : State) (addrs : List Nat) : State := addrs.foldl (fun s a => s.setPoison a true) s

/-- The state with the poison of the words at the first addresses carried to the words at the second (R174). -/
def State.carryPoison (s : State) (x : List (Nat × Nat)) : State :=
  s.poisonAt ((x.filter (fun p => s.poisoned p.1)).map (·.2))

/-! ## Cores -/

/-- The record of package logical core `g`. -/
def State.core (s : State) (g : Nat) : CoreState := Tab.get (fun _ => {}) s.cores g
/-- The state with the record of a core set. -/
def State.setCore (s : State) (g : Nat) (v : CoreState) : State := { s with cores := Tab.put (fun _ => {}) s.cores g v }
/-- The record of an engine of a core. -/
def CoreState.eng (c : CoreState) (e : Nat) : Engine := Tab.get (fun _ => {}) c.engines e
/-- The core with the record of an engine set. -/
def CoreState.setEng (c : CoreState) (e : Nat) (v : Engine) : CoreState :=
  { c with engines := Tab.put (fun _ => {}) c.engines e v }
/-- The card in flight with an issue number. -/
def CoreState.flight (c : CoreState) (seq : Nat) : Option Flight := c.flights.find? (fun f => f.seq == seq)
/-- The core with the card in flight of an issue number replaced. -/
def CoreState.setFlight (c : CoreState) (f : Flight) : CoreState :=
  { c with flights := c.flights.map (fun x => if x.seq = f.seq then f else x) }
/-- The state with a card in flight of core `g` replaced. -/
def State.setFlight (s : State) (g : Nat) (f : Flight) : State := s.setCore g ((s.core g).setFlight f)
/-- The oldest card in flight at a position that is not fully complete. -/
def CoreState.flightAt (c : CoreState) (pos : Nat) : Option Flight :=
  c.flights.find? (fun f => f.pos == pos && f.fullAt.isNone)
/-- The partition of a core; 64 where none owns it. -/
def State.ownerN (s : State) (g : Nat) : Nat := (s.owner g).getD 64

/-- Key of an item: slot, engine, iteration. -/
def itemKey (slot e n : Nat) : Nat := slot + 4 * (e + 64 * n)
/-- The item counts as read (or released) at cycle `cyc`. -/
def doneBy (t : Tab (Option Nat)) (k cyc : Nat) : Bool :=
  match Tab.get (fun _ => none) t k with | some x => decide (x ≤ cyc) | none => false
/-- The table with the cycle of an item set. -/
def stampAt (t : Tab (Option Nat)) (k cyc : Nat) : Tab (Option Nat) := Tab.put (fun _ => none) t k (some cyc)

/-- Bytes of an item of `run` bytes with its line `i` put in. -/
def putLine (bs : List Byte) (run i : Nat) (line : List Byte) : List Byte :=
  let bs := bs ++ List.replicate (run - bs.length) 0
  bs.take (32 * i) ++ line.take (run - 32 * i) ++ bs.drop (32 * i + 32)

/-! ## Range interlocks (R227-R230) -/

/-- The extent of an item's copy: an identifier of the memory it lies in, and its bytes in runs of offset and length. -/
def copyExtent (card slot n : Nat) (copy : Nat × Nat) : Nat × List (Nat × Nat) :=
  let desc := cardDesc card slot
  let q := itemQ card slot n copy.2
  let run := descRun desc
  let space := if descRemote desc then 2 ^ 50 + descPeer desc * 8 + descLevel desc else 0
  let base (off : Nat) : Nat :=
    if descRemote desc then off + copy.1 * 2 ^ 48 + (if descLevel desc = 2 then (2 * copyEng card slot copy + descBuf desc) * 2 ^ 40 else 0)
    else levelAddr (descLevel desc) copy.1 (copyEng card slot copy) (descBuf desc) off
  let w := descWrap desc
  if w = 0 then (space, [(base (itemOffset desc q 0), run)])
  else
    let x := (q % (w : Int)).toNat
    if x + run ≤ w then (space, [(base (descOff desc + x), run)])
    else (space, [(base (descOff desc + x), w - x), (base (descOff desc), x + run - w)])

/-- Two runs of bytes touch a line in common. -/
def linesMeet (a b : Nat × Nat) : Bool :=
  decide (0 < a.2) && decide (0 < b.2) && decide (a.1 / 32 ≤ (b.1 + b.2 - 1) / 32) && decide (b.1 / 32 ≤ (a.1 + a.2 - 1) / 32)

/-- Two extents overlap. -/
def extentsMeet (a b : Nat × List (Nat × Nat)) : Bool := a.1 == b.1 && a.2.any (fun x => b.2.any (linesMeet x))

/-- Two descriptors share a ring at given copies (R230). -/
def sharesRing (c1 s1 : Nat) (p1 : Nat × Nat) (c2 s2 : Nat) (p2 : Nat × Nat) : Bool :=
  let a := cardDesc c1 s1
  let b := cardDesc c2 s2
  descWrap a != 0 && descWrap a == descWrap b && descLevel a == descLevel b && descOff a == descOff b && p1.1 == p2.1
    && (descLevel a != 2 || (copyEng c1 s1 p1 == copyEng c2 s2 p2 && descBuf a == descBuf b)) && descRemote a == descRemote b && descPeer a == descPeer b

/-- Coordinates u of an item on its ring: first and length. -/
def ringSpan (card slot n e : Nat) : Int × Nat := (itemQ card slot n e, descRun (cardDesc card slot))

/-- Two spans of ring coordinates share a line. -/
def spansMeet (a b : Int × Nat) : Bool :=
  decide (0 < a.2) && decide (0 < b.2) && decide (a.1 / 32 ≤ (b.1 + b.2 - 1) / 32) && decide (b.1 / 32 ≤ (a.1 + a.2 - 1) / 32)

/-- Iteration `n` of a MATMUL card drains its bank (R201). -/
def mmDrains (card n : Nat) : Bool :=
  (!cardChained card || iterIdx card n 0 + 1 == cardRep card 0) && !(bodyF card 181 2 == 2 && n + 1 == cardIters card)

/-- The items of a card: slot, iteration and copy. A MATMUL output item stands for a draining pass (R201). -/
def cardItems (card : Nat) : List (Nat × Nat × (Nat × Nat) × Bool) :=
  ((List.range 4).map (fun slot =>
    match slotUse card slot with
    | none => []
    | some w => ((List.range (cardIters card)).map (fun n =>
        if cardOp card = 1 ∧ slot = 2 ∧ !mmDrains card n then []
        else (itemCopies card slot).map (fun c => (slot, n, c, w)))).flatten)).flatten

/-- The engine part of an item's key: engines run MATMUL items apart; the other units move an iteration's copies as one item. -/
def keyEng (card e : Nat) : Nat := if cardOp card = 1 then e else 0

/-- The item has been read, or its write released, at a cycle (R228). -/
def Flight.itemDone (f : Flight) (slot n e cyc : Nat) (write : Bool) : Bool :=
  doneBy (if write then f.relAt else f.readAt) (itemKey slot (keyEng f.card e) n) cyc

/-- The kinds (Table 8-10) for which an item of flight `y` is held at a cycle (R228, R230): REMOTE for a hold on a card with a
remote part, which lasts from its issue to its full completion (R199). -/
def CoreState.holds (c : CoreState) (y : Flight) (slot n : Nat) (copy : Nat × Nat) (write : Bool) (cyc : Nat) : List Nat :=
  let ext := copyExtent y.card slot n copy
  let span := ringSpan y.card slot n copy.2
  let earlier := c.flights.filter (fun x => decide (x.seq < y.seq))
  let later := c.flights.filter (fun x => decide (y.seq < x.seq))
  let one (x : Flight) (it : Nat × Nat × (Nat × Nat) × Bool) : List Nat :=
    let (sl, m, cp, w) := it
    if !(w || write) || x.itemDone sl m cp.2 cyc w then []
    else
      let meet := if sharesRing x.card sl cp y.card slot copy then spansMeet (ringSpan x.card sl m cp.2) span
        else extentsMeet (copyExtent x.card sl m cp) ext
      if !meet then []
      else if x.remote then [6] else if w && write then [3] else if w then [1] else [2]
  let ringNext : List Nat :=
    if !write || descWrap (cardDesc y.card slot) = 0 then []
    else
      let back : Int × Nat := (span.1 - descWrap (cardDesc y.card slot), span.2)
      let named := later.any (fun z => decide (z.issue ≤ cyc) && (cardItems z.card).any (fun it => sharesRing z.card it.1 it.2.2.1 y.card slot copy))
      let unread := later.any (fun z => (cardItems z.card).any (fun it =>
        !it.2.2.2 && sharesRing z.card it.1 it.2.2.1 y.card slot copy && spansMeet (ringSpan z.card it.1 it.2.1 it.2.2.1.2) back
          && !z.itemDone it.1 it.2.1 it.2.2.1.2 cyc false))
      if unread || (decide ((descWrap (cardDesc y.card slot) : Int) < span.1 + span.2) && !named) then [4] else []
  ((earlier.map (fun x => ((cardItems x.card).map (one x)).flatten)).flatten) ++ ringNext

/-- The kinds for which any copy of the items of iteration `n` of flight `y` (one engine's for a MATMUL card) is held. -/
def CoreState.heldKinds (c : CoreState) (y : Flight) (n : Nat) (eng : Option Nat) (slots : List Nat) (cyc : Nat) : List Nat :=
  (slots.map (fun slot => match slotUse y.card slot with
    | none => []
    | some w => (((itemCopies y.card slot).filter (fun cp => match eng with | some e => cp.2 == e | none => true)).map
        (fun cp => c.holds y slot n cp w cyc)).flatten)).flatten

/-- The lowest of a list of kinds. -/
def minKind (l : List Nat) : Nat := l.foldl min 7

/-! ## Firings (R235, R236) -/

/-- The record of a firing (Table 8-10). -/
def Fired.record (x : Fired) : Nat :=
  2 ^ 63 + x.kind * 2 ^ 60 + (if x.kind = 5 then 0 else x.slot) * 2 ^ 58 + min x.delay 0xFFFFFF * 2 ^ 24 + x.pos % 2 ^ 24

/-- Whether a firing is recorded before another that ends in the same cycle: by card position, SLOT and KIND (R236). -/
def Fired.before (x y : Fired) : Bool :=
  decide (x.pos < y.pos) || (x.pos == y.pos && (decide (x.slot < y.slot) || (x.slot == y.slot && decide (x.kind < y.kind))))

/-- A firing among those of its cycle, in the order of R236. -/
def insertFired (x : Fired) : List Fired → List Fired
  | [] => [x]
  | y :: t => if x.before y then x :: y :: t else y :: insertFired x t

/-- The state after a firing of core `g` has ended in engine cycle `cyc`: counted and recorded (R235, R236). -/
def State.firing (s : State) (g cyc kind slot delay pos : Nat) : State :=
  let d := g / 16
  let c := g % 16
  if delay = 0 then s
  else
    let s := if kind = 0 then s.count64 (Reg.coreIlkCount0 d c) 32 32 1
      else if kind = 5 then s.count64 (Reg.coreIlkCount1 d c) 0 32 1
      else if kind = 6 then s.count64 (Reg.coreIlkCount1 d c) 32 32 1
      else s.count64 (Reg.coreIlkCount0 d c) 0 32 1
    let s := s.count64 (Reg.coreIlkCycles d c) 0 64 delay
    let x := s.core g
    let was := if x.fired.1 = cyc && !x.fired.2.1.isEmpty then x.fired.2.2 else s.r64 (Reg.coreIlkFirst d c)
    let now := insertFired ⟨pos, slot, kind, delay⟩ (if x.fired.1 = cyc then x.fired.2.1 else [])
    let s := s.setCore g { x with fired := (cyc, now, was) }
    let s := s.w64 (Reg.coreIlkLast d c) ((now.getLast?.map Fired.record).getD 0)
    if bitAt was 63 then s else s.w64 (Reg.coreIlkFirst d c) ((now.head?.map Fired.record).getD 0)

/-! ## Waits (R194, R195) -/

/-- Flag-file number that a wait or signal entry names. -/
def entryKey (lc index : Nat) : Nat := flagKey (lc / 16) (lc % 16 / 4) index

/-- VALID of a wait. -/
def waitValid (w : Nat) : Bool := bitAt w 63
/-- EXT of a wait. -/
def waitExt (w : Nat) : Bool := bitAt w 59
/-- CONSUME of a wait. -/
def waitConsume (w : Nat) : Bool := bitAt w 58
/-- Flag-file number of a wait. -/
def waitKey (w : Nat) : Nat := entryKey (fld w 50 7) (fld w 40 8)

/-- A condition on a counter value (R195). -/
def ctrCond (cond v value : Nat) : Bool :=
  if cond = 2 then decide (0 ≤ sext ((v + 2 ^ 32 - value) % 2 ^ 32) 32) else v == value

/-- The condition of a wait in the evaluation phase of cycle `t` (R220). -/
def State.waitHolds (s : State) (w t : Nat) : Bool :=
  let k := waitKey w
  let cond := fld w 60 3
  if cond = 0 then s.evalFlag k t else if cond = 1 then !s.evalFlag k t else ctrCond cond (s.evalCtr k t) (fld w 0 32)

/-- A consuming wait still holds after the consumptions granted (R220). -/
def State.waitGranted (s : State) (w t : Nat) : Bool :=
  let k := waitKey w
  if fld w 60 3 = 0 then s.grantedFlag k t else ctrCond 2 (s.grantedCtr k t) (fld w 0 32)

/-- The state with a consumption granted. -/
def State.consume (s : State) (w t : Nat) : State :=
  if fld w 60 3 = 0 then s.consumeFlag (waitKey w) t else s.consumeCtr (waitKey w) t (fld w 0 32)

/-- The grants of a card's consuming waits from WAIT0 on (R220): the state with them granted, or the slot that loses. -/
def State.grantWaits (s : State) (card t : Nat) : List Nat → State × Option Nat
  | [] => (s, none)
  | i :: is =>
    let w := cardWait card i
    if !waitValid w || !waitConsume w then s.grantWaits card t is
    else if s.waitGranted w t then (s.consume w t).grantWaits card t is
    else (s, some i)

/-! ## Signals (R196, R197) -/

/-- The flag-file operation of a signal on its own die (R196). -/
def State.signalHere (s : State) (k kind op value t : Nat) : State :=
  if kind = 0 then s.updFlag k t (op == 0) else s.addCtr k t value

/-- A signal entry of a card of core `g` is given in cycle `t`: applied on its own die, posted otherwise (R196). -/
def State.giveSignal (s : State) (g sig t : Nat) : State :=
  let lc := fld sig 51 7
  let n := s.ownerN g
  if !bitAt sig 60 && lc / 16 == g / 16 then
    s.signalHere (entryKey lc (fld sig 32 8)) (fld sig 58 1) (fld sig 59 1) (fld sig 0 32) t
  else
    let body := fld sig 0 32 + fld sig 32 8 * 2 ^ 32 + lc % 16 / 4 * 2 ^ 40 + fld sig 58 1 * 2 ^ 42 + fld sig 59 1 * 2 ^ 43
      + n % 64 * 2 ^ 44 + s.gen n * 2 ^ 50 + fld sig 60 1 * 2 ^ 54 + fld sig 41 10 * 2 ^ 55
    s.routeMsg (g / 16) { kind := 0, src := g / 16, dest := if bitAt sig 60 then 8 else lc / 16, body := body }

/-- The signals of a card with a given WHEN (R197). -/
def State.giveSignals (s : State) (g card when' t : Nat) : State :=
  (List.range 4).foldl (fun s i =>
    let sig := cardSignal card i
    if bitAt sig 63 && fld sig 61 2 == when' then s.giveSignal g sig t else s) s

/-! ## Digests (R277-R281) -/

/-- CRC-64 of ECMA-182 over `n` more bits of a byte. -/
def crc64Bits : Nat → Nat → Nat
  | 0, c => c
  | n + 1, c => crc64Bits n (if 2 ^ 63 ≤ c then Nat.xor (c * 2 % 2 ^ 64) 0x42F0E1EBA9EA3693 else c * 2)

/-- crc64 of a byte string (R277). -/
def crc64 (bs : List Byte) : Nat := bs.foldl (fun c b => crc64Bits 8 (Nat.xor c (b.toNat * 2 ^ 56))) 0

/-- The card digest of a card in flight (R277). -/
def Flight.digest (f : Flight) : Nat :=
  crc64 (leBytes 3 f.pos ++ leBytes 1 (cardOp f.card) ++ leBytes 4 (cardIters f.card - 1) ++ (f.wrote.map (·.2)).flatten)

/-- Bytes appended to an output item's part of the digest string: by iteration, slot and rank. -/
def Flight.record (f : Flight) (n slot rank : Nat) (bs : List Byte) : Flight :=
  let k := (n * 4 + slot) * 64 + rank
  { f with wrote := Tab.put (fun _ => []) f.wrote k (Tab.get (fun _ => []) f.wrote k ++ bs) }

/-- The capture of a card digest (R281). -/
def State.captureDigest (s : State) (g : Nat) (f : Flight) : State :=
  let d := g / 16
  let c := g % 16
  let ctl := Reg.coreDigestCapCtl d c
  let v := s.r64 ctl
  let i := f.pos - fld v 0 24
  if !bitAt v 63 || fld v 24 32 != f.step || f.pos < fld v 0 24 || 64 ≤ i then s
  else
    let cap := Reg.coreDigestCap d c i
    let s := ((s.w64 cap f.digest).set32 (cap + 8) 0).sf64 ctl 56 7 (min (fld v 56 7 + 1) 64)
    if 64 ≤ fld v 56 7 + 1 then s.sf64 ctl 63 1 0 else s

/-! ## Completion (R198, R199) -/

/-- The state after a card of core `g` has fully completed: ACKED signals, its digest, the capture (R197, R277). -/
def State.fullyComplete (s : State) (g seq cyc t : Nat) : State :=
  match (s.core g).flight seq with
  | none => s
  | some f =>
    let s := s.setFlight g { f with fullAt := some cyc }
    let s := s.giveSignals g f.card 3 t
    let c := s.core g
    let s := if cardOp f.card = 6 then s else s.setCore g { c with unfolded := c.unfolded ++ [(f.pos, f.digest)] }
    s.captureDigest g f

/-- No line of the card still waits for its arrival, or for the report of an off-die target (Table 7-10). -/
def Flight.reported (f : Flight) : Bool := f.awaited.all (fun x => x.2 == 0)

/-- The state after a card has reached local completion: COMPLETE signals, and full completion where nothing of it is off-die
or all of it has been reported (R198). -/
def State.locallyComplete (s : State) (g seq cyc t : Nat) : State :=
  match (s.core g).flight seq with
  | none => s
  | some f =>
    let s := s.setFlight g { f with localAt := some cyc }
    let s := s.giveSignals g f.card 1 t
    if f.reported then s.fullyComplete g seq cyc t else s

/-- Cards in flight that need be kept: everything after the first card that is not fully complete before `cyc`. -/
def keepFlights (cyc : Nat) (l : List Flight) : List Flight :=
  l.dropWhile (fun f => match f.fullAt with | some x => decide (x + 1 < cyc) | none => false)

/-- Every earlier card of the stream has fully completed in a cycle before `cyc` (R192). -/
def CoreState.allDone (c : CoreState) (cyc : Nat) : Bool :=
  c.flights.all (fun f => match f.fullAt with | some x => decide (x < cyc) | none => false)

/-- A card of the stream waits for remote parts only (R199): every earlier card that is not fully complete has one. -/
def CoreState.onlyRemote (c : CoreState) (cyc : Nat) : Bool :=
  c.flights.all (fun f => f.remote || (match f.fullAt with | some x => decide (x < cyc) | none => false))

end Sys2Proof.Machine
end

