-- ==== Sys2Proof/Machine/Recovery.lean ====
section
/-!
DEFINITION. Fencing a core, suspending a partition and aborting its step (01_package_anatomy.md R30 and R31,
02_the_hour_and_partitions.md R62 and R64, 17_dawn_resets_recovery.md R447-R451).
-/

namespace Sys2Proof.Machine

/-- SPAN of a partition's job (R449). -/
def State.span (s : State) (n : Nat) : Nat := s.f32 (Reg.topPartJob n) 16 13
/-- SUSPENDED of a partition (R447). -/
def State.suspended (s : State) (n : Nat) : Bool := bitAt (s.r32 (Reg.topPartJob n)) 6
/-- FENCED of a partition (R452). -/
def State.fencedJob (s : State) (n : Nat) : Bool := bitAt (s.r32 (Reg.topPartJob n)) 4

/-! ## The stream and step boundaries (R60, R183-R185) -/

/-- LEN of CORE_STREAM. -/
def State.streamLen (s : State) (g : Nat) : Nat := s.f64 (Reg.coreStream (g / 16) (g % 16)) 32 25
/-- The device address of the card at a position. -/
def State.cardAddr (s : State) (g pos : Nat) : Nat :=
  g / 16 * 2 ^ 36 + (s.f64 (Reg.coreStream (g / 16) (g % 16)) 0 24 + pos) * 256
/-- The card at a position, as it stands in shared memory. -/
def State.cardAt (s : State) (g pos : Nat) : Nat := s.rdNat (s.cardAddr g pos) 256
/-- The stream's last card has WRAP set (R185). -/
def State.streamWraps (s : State) (g : Nat) : Bool := cardWrap (s.cardAt g (s.streamLen g - 1))
/-- STATE of CORE_SEQ_STATUS (Table 7-14). -/
def State.seqState (s : State) (g : Nat) : Nat := s.f32 (Reg.coreSeqStatus (g / 16) (g % 16)) 30 2
/-- The state with STATE of CORE_SEQ_STATUS set. -/
def State.setSeqState (s : State) (g x : Nat) : State := s.sf32 (Reg.coreSeqStatus (g / 16) (g % 16)) 30 2 x
/-- POS of CORE_SEQ_STATUS. -/
def State.seqPos (s : State) (g : Nat) : Nat := s.f32 (Reg.coreSeqStatus (g / 16) (g % 16)) 0 24
/-- The state with POS of CORE_SEQ_STATUS set. -/
def State.setSeqPos (s : State) (g x : Nat) : State := s.sf32 (Reg.coreSeqStatus (g / 16) (g % 16)) 0 24 x

/-- A core of a running partition is done (R185): no stream, or its END card completed and nothing in flight. -/
def State.coreEnded (s : State) (g : Nat) : Bool :=
  s.streamLen g == 0 || (s.seqState g == 3 && (s.core g).flights.all (fun f => f.fullAt.isSome))

/-- Core `g` has reached an HOUR_MARK, has no stream, or has ended. -/
def State.coreAtMark (s : State) (g : Nat) : Bool :=
  let c := s.core g
  c.flights.all (fun f => f.fullAt.isSome)
    && (s.seqState g == 2 || s.coreEnded g || (s.seqState g == 1 && cardOp (s.cardAt g (s.seqPos g)) == 7))

/-- RUNNING partition `n` is at a step boundary. -/
def State.atBoundary (s : State) (n : Nat) : Bool :=
  s.pstate n == 3 && !s.suspended n && (s.lcs n).all s.coreAtMark && s.txns.all (fun e => match e.2 with | some x => x.part != n | none => true)

/-! ## Aborting a step (R62, R64, R447) -/

/-- The state in which the step in flight of a RUNNING partition is aborted and the partition suspended, and
what the serving engine prepared for its boundary is withdrawn (R62, R405, R447). -/
def State.suspendStep (s : State) (n : Nat) : State :=
  if s.pstate n != 3 then s
  else if !(s.part n).reissuable then s.recordStop n 0x54 .fault
  else
    let was := s.suspended n
    let s := { s with serving := { s.serving with
      parts := s.serving.parts.map (fun (e : Nat × Option Serve) => if e.1 = n then (e.1, e.2.map (fun (v : Serve) => { v with plan := none })) else e) } }
    let s := s.set32 (Reg.topPartJob n) 6
    let p := s.part n
    s.setPart n { p with reissue := true, faultChange := p.faultChange || decide (s.span n ≤ 1),
                         abortedAt := if p.reissue then p.abortedAt else s.hourCount,
                         jobAborted := if was then p.jobAborted else false }

/-- The state after a fault-driven change has touched a partition: its step is aborted, and a job of SPAN above 1 asks for a
JOB_ABORT instead of advancing GEN (R451). -/
def State.abortStep (s : State) (n : Nat) : State :=
  let s' := s.suspendStep n
  if s'.suspended n && !s.suspended n && 1 < s.span n then
    s'.postEvent 0x0111 n 8 (n + (s.gen n + 1) % 16 * 2 ^ 8 + s.hourCount * 2 ^ 64)
  else s'

/-- The core without anything in flight: its stream's cards are abandoned and its units empty. An engine so emptied has no anchor to
carry: the spec speaks of the start of a stream only, and the model gives an engine's first pass after a reissue the ANCHOR field too
(Table 3-6; DESIGN CHOICE, log entry 46). -/
def CoreState.emptied (c : CoreState) : CoreState :=
  { c with flights := [], queue := [], asked := [], engines := [], vec := {}, blocked := none, fetchFrom := none, landed := [], landQ := [],
           portUse := [], vecReads := [], fills := [] }

/-- Nothing of the DMA movers is under way on the die. -/
def Mesh.idle (m : Mesh) : Bool := m.reads.isEmpty && m.hops.isEmpty && m.lands.isEmpty

/-- The state without the lines of core `g`'s DMA mover: its cards have been abandoned (R31, R447). -/
def State.dropLines (s : State) (g : Nat) : State :=
  let m := (s.die (g / 16)).mesh
  if m.idle then s
  else s.setDie (g / 16) { s.die (g / 16) with mesh := { m with
    reads := m.reads.filter (fun x => x.core != g), hops := m.hops.filter (fun x => x.core != g), lands := m.lands.filter (fun x => x.core != g) } }

/-- The state in which core `g`'s cards are abandoned, with the lines of its DMA mover. -/
def State.emptyCore (s : State) (g : Nat) : State := (s.setCore g (s.core g).emptied).dropLines g

/-- What the failure of a core does to its partition (R30, R62, R64): its step in flight is aborted; where none is in flight (`bound`)
nothing is aborted, and only the rewrite of the spare's memory delays its next step. It stops where no spare is left. -/
def State.failPart (s : State) (own : Option Nat) (spare bound : Bool) : State :=
  match own with
  | none => s
  | some n =>
    let s := if spare then s else s.recordStop n 0x50 .fault
    if bound then s.setPart n { s.part n with faultChange := true } else s.abortStep n

/-- The partition of a core, RUNNING under a job of one package, has no step in flight (R60, R64). -/
def State.betweenSteps (s : State) (own : Option Nat) : Bool :=
  match own with | some n => decide (s.span n ≤ 1) && s.atBoundary n | none => false

/-- The state after a core has failed (R30, R31, R64, R447, Table 17-7): its slot is fenced and its cards are abandoned; its
partition's step is aborted, or the partition stops where no spare is left. -/
def State.fenceCore (s : State) (g : Nat) : State :=
  let d := g / 16
  let k := g % 16 / 4
  let slot := s.slotOf g
  let c := s.core g
  if c.fenced then s
  else
    let mapR := Reg.cdSlotMap d k
    let spare := s.f32 mapR 12 3 != 7 && !((s.hour.sparing).any (fun x => x / 4 == g / 4))
    let own := s.owner g
    let bound := s.betweenSteps own
    let s := s.emptyCore g
    let s := s.setCore g { s.core g with fenced := true }
    let s := s.set32 mapR (15 + slot)
    let s := s.postEvent 0x0004 (own.getD 0xFF) d (d + k * 2 ^ 8 + slot * 2 ^ 16)
    ({ s with hour := { s.hour with sparing := s.hour.sparing ++ [g] } }).failPart own spare bound

/-! ## The idle slot (R431, R432) -/

/-- Five times a slot's score: AGE + 16 ΔT, with ΔT the slot's average less its cluster's mean, from 0 to 63 °C (R431). -/
def State.slotScore (s : State) (d k x : Nat) : Nat :=
  let avg (y : Nat) : Nat := Tab.get (fun _ => 0) s.power.average (20 * d + 5 * k + y)
  let sum := avg 0 + avg 1 + avg 2 + avg 3 + avg 4
  5 * s.f64 (Reg.cdSlotAge d k) (12 * x) 12 + min (8 * (5 * avg x - sum)) (5 * 16 * 63)

/-- A slot that is neither failed nor fenced. -/
def State.slotHealthy (s : State) (d k x : Nat) : Bool :=
  !(s.dawn.slots.contains (20 * d + 5 * k + x)) && !(bitAt (s.r32 (Reg.cdSlotMap d k)) (15 + x))

/-- The slot of a list with the highest score, the higher number on a tie. -/
def State.bestSlot (s : State) (d k : Nat) (l : List Nat) : Option Nat :=
  l.foldl (fun acc x => match acc with
    | none => some x
    | some y => if s.slotScore d k y ≤ s.slotScore d k x then some x else some y) none

/-- The state in which a cluster's idle slot has been chosen and the other healthy slots serve P0 to P3 in ascending order
(R432, R240). A position with no healthy slot left keeps its number in the map, and no slot serves it. -/
def State.chooseIdle (s : State) (d k : Nat) : State :=
  let ok := (List.range 5).filter (s.slotHealthy d k)
  let idle := if ok.length = 5 then s.bestSlot d k ok else none
  let serve := ok.filter (fun x => some x != idle)
  let r := Reg.cdSlotMap d k
  let s := s.setDie d { s.die d with remapped := (s.die d).remapped.filter (fun c => c / 4 != k) }
  let s := (s.sf32 r 12 3 (idle.getD 7)).sf32 r 20 1 (if idle.isSome then 0 else 1)
  (List.range 4).foldl (fun s j =>
    let g := 16 * d + 4 * k + j
    let s := s.setCore g { s.core g with fenced := (serve[j]?).isNone }
    match serve[j]? with | some x => s.sf32 r (3 * j) 3 x | none => s) s

end Sys2Proof.Machine
end

