-- ==== Sys2Proof/Machine/Feed.lean ====
section
/-!
DEFINITION. MATMUL cards and the reads of a pass: fields, operand layout, the cycles in which the feed reads each line, the
start of the next pass and the scale reads of PRESCAN (04_matrix_engine.md R103-R107, R111 and R114).
-/

namespace Sys2Proof.Machine

/-! ## MATMUL fields (Table 7-11) -/

/-- FMT_A. -/
def mmA (card : Nat) : Nat := bodyF card 144 4
/-- FMT_B. -/
def mmB (card : Nat) : Nat := bodyF card 148 4
/-- OUT_FMT. -/
def mmOut (card : Nat) : Nat := bodyF card 152 4
/-- K_PASS. -/
def mmK (card : Nat) : Nat := bodyF card 128 16
/-- ACC_INIT is KEEP. -/
def mmKeep (card : Nat) : Bool := bodyF card 170 1 == 1
/-- Both operands are integers. -/
def mmInt (card : Nat) : Bool := isIntFmt (mmA card) && isIntFmt (mmB card)

/-- Rate class (Table 4-1): 4-bit, 8-bit or 16-bit. -/
inductive RateClass where
  | bits4 | bits8 | bits16
  deriving DecidableEq, Repr

/-- The rate class of a card (R103). -/
def mmRate (card : Nat) : RateClass :=
  let a := fmtWidth (mmA card)
  let b := fmtWidth (mmB card)
  if 16 ≤ a || 16 ≤ b then .bits16 else if a = 4 && b = 4 then .bits4 else .bits8

/-- T of one pass (Table 4-1). -/
def mmT (card : Nat) : Nat :=
  match mmRate card with | .bits4 => mmK card / 2 | .bits8 => mmK card | .bits16 => 4 * mmK card

/-- Cycles that 32 k-steps take. -/
def groupCycles (card : Nat) : Nat := match mmRate card with | .bits4 => 16 | .bits8 => 32 | .bits16 => 128

/-- S of a format (R106). -/
def feedS (fmt : Nat) : Nat := if fmt = 1 then 9 else if fmt = 2 ∨ fmt = 3 then 13 else if fmt = 5 then 17 else 0
/-- S of a card (R106). -/
def mmS (card : Nat) : Nat := max (feedS (mmA card)) (feedS (mmB card))

/-- Bytes of a tile in a format (Table 4-4). -/
def tileBytes (fmt : Nat) : Nat :=
  if isMx fmt then 128 * fmtWidth fmt + 32 else 128 * fmtWidth fmt
/-- L of a format (Table 4-4). -/
def tileLines (fmt : Nat) : Nat := tileBytes fmt / 32
/-- D of a format (Table 4-4). -/
def drainLen (fmt : Nat) : Nat := max 32 (tileLines fmt)

/-- Iteration `n` starts its bank (R201). -/
def mmStarts (card n : Nat) : Bool := !cardChained card || iterIdx card n 0 == 0
/-- Iteration `n` continues the bank of the pass before it. -/
def mmContinues (card n : Nat) : Bool := !mmStarts card n || (n == 0 && mmKeep card)
/-! ## Operands (R104) -/

/-- The positions in the item of the element of index `i` (0 to 31) at k-step `k`, as a bit offset, and of its scale byte. -/
def elemPlace (fmt k i : Nat) : Nat × Option Nat :=
  let w := fmtWidth fmt
  if isMx fmt then
    let g := k / 32 * (128 * w + 32)
    (8 * (g + 4 * w * i) + w * (k % 32), some (g + 128 * w + i))
  else (32 * w * k + w * i, none)

/-- The byte addresses that a bit field of an item covers. -/
def fieldAddrs (card slot n : Nat) (copy : Nat × Nat) (bit w : Nat) : List Nat :=
  (List.range ((bit % 8 + w + 7) / 8)).map (fun j => itemAddr card slot n copy (bit / 8 + j))

/-! ## The feed (R106) -/

/-- The first accumulation cycle of a pass, counted from its start, that takes k-step `k` (R102, R103). -/
def stepCycle (card k : Nat) : Nat := match mmRate card with | .bits4 => k / 2 | .bits8 => k | .bits16 => 4 * k

/-- Bytes of a scale group of an MX format (R104). -/
def groupBytes (fmt : Nat) : Nat := 128 * fmtWidth fmt + 32

/-- The format of a MATMUL operand. -/
def mmFmt (card slot : Nat) : Nat := if slot = 0 then mmA card else mmB card

/-- The cycle in which the feed reads the line that holds byte `b` of an operand item, for a pass that starts at `s`: a scale
group two lines a cycle in the S cycles ending 4 before its first product, another line 3 cycles before the first
accumulation cycle that takes a k-step of it (R106, log entry 26). -/
def feedCycle (card slot s b : Nat) : Nat :=
  let fmt := mmFmt card slot
  if isMx fmt then s + stepCycle card (32 * (b / groupBytes fmt)) - 3 - feedS fmt + b % groupBytes fmt / 32 / 2
  else s + stepCycle card (b / 32 * 32 / (4 * fmtWidth fmt)) - 3

/-- Bytes of an operand item of a pass (Table 4-2). -/
def operandBytes (card slot : Nat) : Nat :=
  let fmt := mmFmt card slot
  if isMx fmt then mmK card / 32 * groupBytes fmt else (4 * fmtWidth fmt * mmK card)

/-- The cycle from which an operand item counts as read (R228): the cycle after the feed read of its last line (R106). -/
def feedReadAt (card slot s : Nat) : Nat := feedCycle card slot s (operandBytes card slot - 1) + 1

/-- The bytes of engine `e` that a pass reads from an operand in cycle `c`, as first offsets of lines in the item. -/
def feedLines (card slot s c : Nat) : List Nat :=
  ((List.range (ceilDiv (operandBytes card slot) 32)).map (32 * ·)).filter (fun b => feedCycle card slot s b == c)

/-- The bank of an operand buffer that holds a byte (R105). -/
def bufferBank (a : Nat) : Nat := a / 32 % 8

/-- The 32 values of an operand at k-step `k` for engine `e` of core `g`, each as the feed read it, and the byte addresses read;
the pass starts at `st`. -/
def State.operandAt (s : State) (g e card slot n st k : Nat) : List Val × List Nat :=
  let fmt := mmFmt card slot
  let w := fmtWidth fmt
  let part := s.ownerN g
  let byteAt (b a : Nat) : Byte := s.readAsOf part (feedCycle card slot st b) a
  let one (i : Nat) : Val × List Nat :=
    let (bit, sc) := elemPlace fmt k i
    let as := fieldAddrs card slot n (g, e) bit w
    let code := leNat (as.map (byteAt (bit / 8))) / 2 ^ (bit % 8) % 2 ^ w
    let v := decodeElem fmt code
    match sc with
    | none => (v, as)
    | some b =>
      let a := itemAddr card slot n (g, e) b
      (scaleVal v (byteAt b a).toNat, a :: as)
  let r := (List.range 32).map one
  (r.map (·.1), (r.map (·.2)).flatten)

/-! ## The next pass of an engine (R111, R114) -/

/-- The next pass of an engine: its card in flight and iteration. -/
def CoreState.nextPass (c : CoreState) (e : Nat) : Option (Flight × Nat) :=
  match (c.eng e).run with
  | none => none
  | some q => match c.flight q with | some f => some (f, (c.eng e).iter) | none => none

/-- The pass needs a PRESCAN (R81): a floating pass that starts its bank under ANCHOR_MODE PRESCAN. -/
def mmScans (card n : Nat) : Bool := bodyF card 156 2 == 1 && !mmInt card && !mmContinues card n

/-- Block positions of a pass that PRESCAN looks at (R82, R114). -/
def scanBlocks (card : Nat) : Nat := ceilDiv (mmK card) 32

/-- d + D of the last draining pass of a bank: of its drains begun, or of those that wait for the converter (R111). -/
def Engine.bankFree (x : Engine) (bank : Nat) : Nat :=
  (x.toDrain.foldl (fun (a : Nat × Nat) w =>
    let fin := max w.fin a.2 + w.len
    (if w.bank % 2 = bank % 2 then fin else a.1, fin)) (if bank % 2 = 0 then x.free0 else x.free1, x.convFree)).1

/-- The terms of s(n): e(n-1), f, b and p of R111; `none` where a PRESCAN is still to end. -/
def Engine.terms (x : Engine) (f : Flight) (n : Nat) : Option (Nat × Nat × Nat × Nat) :=
  let fT := if n = 0 then f.issue + 4 + mmS f.card else 0
  let b := if mmContinues f.card n then 0 else x.bankFree x.passNo
  if !mmScans f.card n then some (x.lastE, fT, b, 0)
  else match x.scan with
    | some p => if p.seq = f.seq ∧ p.iter = n ∧ p.reads.length = scanBlocks f.card then some (x.lastE, fT, b, p.fin) else none
    | none => none

/-- The cycle in which the next pass of engine `e` may start (R111), and in which it does for its last release (R229). -/
def Engine.startAt (x : Engine) (f : Flight) (n : Nat) : Option Nat :=
  (x.terms f n).map (fun (e1, fT, b, p) =>
    let s0 := max (max e1 fT) (max b p)
    if x.relAt = 0 then s0 else max s0 (x.relAt + 4 + mmS f.card))

/-- Whether an interlock holds the next pass of engine `e` whose feed would begin at cycle `cyc`. -/
def CoreState.passHeld (c : CoreState) (f : Flight) (n e cyc : Nat) : Bool := !(c.heldKinds f n (some e) [0, 1, 2] cyc).isEmpty

/-- The passes of an engine whose feed may read in cycle `cyc`, with their starts: the one that runs, and the next where its
first reads are due and nothing holds it. -/
def CoreState.feeding (c : CoreState) (e cyc : Nat) : List (Nat × Nat × Nat) :=
  let x := c.eng e
  let now := match x.cur with
    | some p => (match c.flight p.seq with | some f => [(f.card, p.iter, p.s)] | none => [])
    | none => []
  match c.nextPass e with
  | none => now
  | some (f, n) =>
    match x.startAt f n with
    | none => now
    | some st =>
      if cyc + 4 + mmS f.card < st || c.passHeld f n e (st - 4 - mmS f.card) then now else now ++ [(f.card, n, st)]

/-- The banks of buffer `slot` of engine `e` of core `g` that the feed reads in cycle `cyc` (R105). -/
def CoreState.feedBanks (c : CoreState) (g e slot cyc : Nat) : List Nat :=
  ((c.feeding e cyc).map (fun (card, n, st) =>
    (feedLines card slot st cyc).map (fun b => bufferBank (itemAddr card slot n (g, e) b)))).flatten

/-- The banks of buffer `slot` of engine `e` in which a fill or a DMA read was served in cycle `cyc` (R105, R155). -/
def CoreState.fillBanks (c : CoreState) (e slot cyc : Nat) : List Nat :=
  (c.fills.filter (fun x => x.1 == cyc && x.2.1 == 2 * e + slot)).map (·.2.2)

/-! ## The scale reads of PRESCAN (R105, R114) -/

/-- Byte offset, in an MX operand item, of the scale line of block position `b`. -/
def scaleOff (fmt b : Nat) : Nat := b * groupBytes fmt + 128 * fmtWidth fmt

/-- The addresses of the scale bytes of an operand at block position `b`; `none` for a format without scales. -/
def scaleAddrs (g e card slot n b : Nat) : Option (List Nat) :=
  if !isMx (mmFmt card slot) then none
  else some ((List.range 32).map (fun i => itemAddr card slot n (g, e) (scaleOff (mmFmt card slot) b + i)))

/-- PRESCAN in cycle `cyc`: it reads the scale lines of its next block position, unless the feed or a fill has the bank of one of
them (R105). -/
def State.scanCycle (s : State) (g e cyc : Nat) (f : Flight) (p : Prescan) : Prescan :=
  let c := s.core g
  let b := p.reads.length
  let lost (slot : Nat) : Bool :=
    match scaleAddrs g e f.card slot p.iter b with
    | some (a :: _) => (c.feedBanks g e slot cyc ++ c.fillBanks e slot cyc).contains (bufferBank a)
    | _ => false
  if scanBlocks f.card ≤ b || cyc < p.at' then p
  else if lost 0 || lost 1 then { p with at' := cyc + 1 }
  else
    let part := s.ownerN g
    let one (slot : Nat) : Option (List Nat) :=
      (scaleAddrs g e f.card slot p.iter b).map (fun l => l.map (fun a => (s.readAsOf part cyc a).toNat))
    { p with at' := cyc + 1, fin := cyc + 1, reads := p.reads ++ [(one 0, one 1)] }

/-- PRESCAN through `n` cycles from `cyc` on. -/
def State.scanRun (s : State) (g e : Nat) (f : Flight) : Nat → Nat → Prescan → Prescan
  | 0, _, p => p
  | n + 1, cyc, p => if scanBlocks f.card ≤ p.reads.length then p else s.scanRun g e f n (cyc + 1) (s.scanCycle g e cyc f p)

/-- The state in which engine `e` of core `g` has made the scale reads of every cycle before `cyc`. -/
def State.scanTo (s : State) (g e cyc : Nat) : State :=
  let c := s.core g
  match (c.eng e).scan with
  | none => s
  | some p =>
    match c.flight p.seq with
    | none => s
    | some f => s.setCore g (c.setEng e { c.eng e with scan := some (s.scanRun g e f (cyc - p.at') p.at' p) })

end Sys2Proof.Machine
end

