-- ==== Sys2Proof/Machine/Collect.lean ====
section
/-!
DEFINITION. Collectives: the combining steps, the levels and points of a REDUCE, and the travel of operands and results
(07_layer_cards.md R206, 09_fabric_and_die_links.md R257 and R258, 10_determinism.md R271-R275).
-/

namespace Sys2Proof.Machine

/-! ## One combining step (R206) -/

/-- Bytes of an element of a REDUCE type. -/
def redWidth (rtype : Nat) : Nat := if rtype = 9 then 2 else 4

/-- The order of two values that are no NaN: first below, equal, first above. -/
def Val.order (x y : Val) : Ordering :=
  let inf (v : Val) : Int := match v.sp with | .posInf => 1 | .negInf => -1 | _ => 0
  if inf x ≠ 0 ∨ inf y ≠ 0 then compare (inf x) (inf y)
  else let k := min x.e y.e; compare (x.m * pow2 (x.e - k)) (y.m * pow2 (y.e - k))

/-- One combining step on two element codes (R206): NaN wins a MAX or MIN. Codes of equal value differ for the two zeros only, of
which -0 counts as below +0 (log entry 33). -/
def combineElem (rtype rop a b : Nat) : Nat :=
  if rtype = 11 then
    (if rop = 0 then (a + b) % 2 ^ 32
     else if rop = 1 then (if sext a 32 < sext b 32 then b else a)
     else (if sext b 32 < sext a 32 then b else a))
  else
    let x := decodeElem rtype a
    let y := decodeElem rtype b
    if rop = 0 then (let z := sumVal [x, y]; (drainElem rtype z.sp z.m z.e none).1)
    else if x.sp = .nan ∨ y.sp = .nan then (drainElem rtype .nan 0 0 none).1
    else match x.order y with
      | .lt => if rop = 1 then b else a
      | .gt => if rop = 1 then a else b
      | .eq => if rop = 1 then min a b else max a b

/-- One combining step on two lines. -/
def combineLine (rtype rop : Nat) (a b : List Byte) : List Byte :=
  let w := redWidth rtype
  let x := leNat a
  let y := leNat b
  leBytes 32 (packCodes (8 * w) ((List.range (32 / w)).map (fun i => combineElem rtype rop (fld x (8 * w * i) (8 * w)) (fld y (8 * w * i) (8 * w)))))

/-- A left fold of lines in list order (R273). -/
def foldLines (rtype rop : Nat) : List (List Byte) → List Byte
  | [] => []
  | x :: t => t.foldl (combineLine rtype rop) x

/-- An operand put in its place by a key, behind those of the same key. -/
def putOp (key : RedOp → Nat) (x : RedOp) : List RedOp → List RedOp
  | [] => [x]
  | y :: t => if key x < key y then x :: y :: t else y :: putOp key x t

/-- Operands in ascending rank (R273). -/
def byRank (l : List RedOp) : List RedOp := l.foldl (fun acc x => putOp (fun o => o.rank) x acc) []

/-- Operands in the order of their arrival, those of one cycle in ascending rank (R274). -/
def byArrival (l : List RedOp) : List RedOp := (byRank l).foldl (fun acc x => putOp (fun o => o.at') x acc) []

/-! ## Groups, ranks and points (R272, R273) -/

/-- Ring position of a die (R272). -/
def ringPos (d : Nat) : Nat := if d < 4 then d else 11 - d
/-- The die at a ring position. -/
def ringDie (p : Nat) : Nat := if p < 4 then p else 11 - p

/-- The dies of a group's members on this package, by ring position (R272). -/
def Group.dies (x : Group) : List Nat := (List.range 8).filter (fun p => x.members.any (fun g => ringPos (g / 16) == p)) |>.map ringDie
/-- The members of a group on a die, ascending. -/
def Group.onDie (x : Group) (d : Nat) : List Nat := (upto 128 (fun g => x.members.contains g)).filter (fun g => g / 16 == d)

/-- The group of a partition. -/
def State.groupOf (s : State) (part group : Nat) : Option Group := s.groups.find? (fun x => x.part == part && x.group == group)

/-- The combining point of `line` of `lines` among `points` of a level, the lines divided evenly in order (R273). -/
def pointOf (points : List Nat) (line lines : Nat) : Nat := (points[line * points.length / max lines 1]?).getD 0

/-- The next die on the ring from `d` toward `x`: the shorter way, ascending on a tie. -/
def ringNext (d x : Nat) : Nat :=
  let up := (ringPos x + 8 - ringPos d) % 8
  ringDie (if up ≤ 4 then (ringPos d + 1) % 8 else (ringPos d + 7) % 8)

/-- The ranks of the operands that a level folds for a line, ascending (R273). -/
def Group.ranks (x : Group) (level place : Nat) : List Nat :=
  if level = 1 then (x.onDie place).map (fun g => g % 16) else if level = 2 then x.dies.map ringPos else x.pkgs

/-- The number of operands a level folds for a line. -/
def Group.need (x : Group) (level place : Nat) : Nat := (x.ranks level place).length

/-- The member's REDUCE card in flight that has an item of the group. -/
def State.reduceCard (s : State) (x : Group) (g item : Nat) : Option Flight :=
  (s.core g).flights.find? (fun f => cardOp f.card == 5 && bodyF f.card 8 16 == x.group && f.fullAt.isNone
    && decide (f.base ≤ item) && decide (item < f.base + cardIters f.card))

/-- What the REDUCE card of an item says, from the first member that has it in flight: RTYPE, ROP, RMODE and lines of an item. -/
def State.reduceShape (s : State) (x : Group) (item : Nat) : Option (Nat × Nat × Nat × Nat) :=
  (x.members.filterMap (fun g => s.reduceCard x g item)).head?.map
    (fun f => (bodyF f.card 0 4, bodyF f.card 4 2, bodyF f.card 6 1, (descRun (cardDesc f.card 0) + 31) / 32))

/-- The peer-table entry of a package of the group. -/
def Group.peerOf (x : Group) (k : Nat) : Nat := ((x.pkgs.zip x.peers).find? (fun y => y.1 == k)).elim 0 (·.2)

/-! ## Travel of operands and results (R258) -/

/-- A line of a collective goes from die `d` toward die `m.target`, one ring hop on (R258; log entry 34). -/
def State.ringSend (s : State) (part d line : Nat) (m : RedMark) (bytes : List Byte) (bad : Bool) : State :=
  let hop := ringNext d m.target
  s.sendFrame (s.routeEnd d hop 0)
    { kind := 2, src := d, dest := hop, cls := 0, part := part, gen := s.gen part, lmask := 1, tag := 0xFFFF, addr := 32 * line,
      data := leNat bytes, bad := if bad then 1 else 0, red := some m }

/-- A line of a collective leaves the package from die `d` to a peer, through the gateway (R297). -/
def State.sendReduce (s : State) (x : Group) (d line peer : Nat) (m : RedMark) (bytes : List Byte) (bad : Bool) : State :=
  s.routeFrame d
    { kind := 2, src := d, dest := 8, cls := 0, part := x.part, gen := s.gen x.part, lmask := 1, tag := 0xFFFF, remote := 1, peer := peer,
      addr := 32 * line, data := leNat bytes, bad := if bad then 1 else 0, red := some m }

/-- The mesh as lines join it in cycle `cyc`: while it was idle no cycle had to be computed. -/
def Mesh.wake (m : Mesh) (cyc : Nat) : Mesh := if m.idle then { m with upTo := max cyc m.upTo } else m

/-- A result line reaches die `d` in cycle `cyc`: it goes to the DST of each member there (R206, R273). -/
def State.placeResult (s : State) (x : Group) (d item line cyc : Nat) (bytes : List Byte) (bad : Bool) : State :=
  (x.onDie d).foldl (fun s g =>
    match s.reduceCard x g item with
    | none => s
    | some f =>
      let n := item - f.base
      let run := descRun (cardDesc f.card 1)
      let f := { f with fetched := Tab.put (fun _ => []) f.fetched (n * 8192) (putLine (Tab.get (fun _ => []) f.fetched (n * 8192)) run line bytes) }
      let s := s.setFlight g f
      let m := (s.die d).mesh.wake cyc
      s.setDie d { s.die d with mesh := { m with
        next := m.next + 1, lands := m.lands ++ [⟨g, f.seq, n, line, 0, bytes.take (run - 32 * line), bad, cyc, m.next⟩] } }) s

/-- A result line at its combining die `d`: to the members there, and along the ring to the group's other dies (R258, R273). -/
def State.shareResult (s : State) (x : Group) (d item line cyc : Nat) (bytes : List Byte) (bad : Bool) : State :=
  (x.dies.filter (fun p => p != d)).foldl (fun s p =>
    s.ringSend x.part d line ⟨x.group, item, 0, 3, true, p⟩ bytes bad) (s.placeResult x d item line cyc bytes bad)

/-! ## The levels (R273-R275) -/

/-- The operand lines of a fold that wait for their turn: under EXACT those behind a rank that is missing, under FAST none, and
all of them while no member's card says which (R273, R274). -/
def State.waitingOps (s : State) (c : Combine) : Nat :=
  match s.groupOf c.part c.group with
  | none => 0
  | some x =>
    match s.reduceShape x c.item with
    | none => c.ops.length
    | some (_, _, rmode, _) =>
      if rmode = 1 then c.ops.length - ((x.ranks c.level c.place).takeWhile (fun r => c.ops.any (fun o => o.rank == r))).length else 0

/-- Bytes that wait in the reduce buffer of combining die `d` (R273). -/
def State.reduceUse (s : State) (d : Nat) : Nat := ((s.combines.filter (fun c => c.place == d)).map (fun c => 32 * s.waitingOps c)).sum

/-- The reduce buffer of die `d` has room for `n` more lines (R273). -/
def State.reduceRoom (s : State) (d n : Nat) : Bool := s.reduceUse d + 32 * n ≤ 65536

/-- The state with an operand line added at die `place`, and the line folded once all its operands are there: its result goes on
to level 2, to level 3, or to the members. An operand whose card no member here has issued waits for it. `fuel` bounds the
levels. -/
def State.addOperand (s : State) (x : Group) (item line level place : Nat) (o : RedOp) : Nat → State
  | 0 => s
  | fuel + 1 =>
    let isC (c : Combine) : Bool :=
      c.part == x.part && c.group == x.group && c.item == item && c.line == line && c.level == level && c.place == place
    let ops := byArrival ((match s.combines.find? isC with | some c => c.ops | none => []) ++ [o])
    let rest := s.combines.filter (fun c => !isC c)
    let wait : State := { s with combines := rest ++ [⟨x.part, x.group, item, line, level, place, ops⟩] }
    match s.reduceShape x item with
    | none => wait
    | some (rtype, rop, rmode, lines) =>
      if ops.length < x.need level place then wait
      else
        let sorted := byRank ops
        let exact := rmode == 1
        let r := foldLines rtype rop ((if exact then sorted else ops).map (·.bytes))
        let bad := ops.any (·.bad)
        let chosen := !exact && rop == 0 && (rtype == 9 || rtype == 10) && decide (3 ≤ ops.length) && ops.map (·.rank) != sorted.map (·.rank)
        let s := { s with combines := rest }
        let s := if chosen then s.count64 (Reg.topPartTdc x.part) 0 64 1 else s
        if level = 1 then
          let point := pointOf x.dies line lines
          if point = place then s.addOperand x item line 2 place ⟨ringPos place, o.at', r, bad⟩ fuel
          else s.ringSend x.part place line ⟨x.group, item, ringPos place, 2, false, point⟩ r bad
        else if level = 2 then
          let pkg := pointOf x.pkgs line lines
          if x.pkgs.length ≤ 1 || pkg == x.rank then s.addOperand x item line 3 place ⟨x.rank, o.at', r, bad⟩ fuel
          else s.sendReduce x place line (x.peerOf pkg) ⟨x.group, item, x.rank, 3, false, place⟩ r bad
        else
          ((x.pkgs.filter (fun k => k != x.rank)).foldl (fun s k =>
            s.sendReduce x place line (x.peerOf k) ⟨x.group, item, x.rank, 3, true, place⟩ r bad) s).shareResult x place item line o.at' r bad

end Sys2Proof.Machine
end

