-- ==== Sys2Proof/Machine/Sequencer.lean ====
section
/-!
DEFINITION. The card sequencer: fetching cards, the issue of each card, local completion and the end of a stream
(07_layer_cards.md R183-R210, 08_flags_ordering_interlocks.md R220 and R235, 10_determinism.md R278 and R281).
-/

namespace Sys2Proof.Machine

/-! ## Mesh places (R150, R238, R239, R242) -/

/-- Row and column of the top-left node of a cluster's block (Table 9-1). -/
def clusterOrigin (k : Nat) : Nat × Nat := (3 * (k / 2), 3 * (k % 2))
/-- The node of die-local logical core `c` (R239). -/
def coreNode (c : Nat) : Nat × Nat :=
  let o := clusterOrigin (c / 4)
  (o.1 + 2 * (c % 4 / 2), o.2 + 2 * (c % 4 % 2))
/-- The node of shared-memory slice `x` (R150, R238). -/
def sliceNode (x : Nat) : Nat × Nat :=
  let o := clusterOrigin (x / 4)
  match x % 4 with
  | 0 => (o.1, o.2 + 1)
  | 1 => (o.1 + 1, o.2 + 2)
  | 2 => (o.1 + 1, o.2)
  | _ => (o.1 + 2, o.2 + 1)
/-- Hops between two nodes (R242). -/
def hops (a b : Nat × Nat) : Nat := (max a.1 b.1 - min a.1 b.1) + (max a.2 b.2 - min a.2 b.2)

/-! ## The stream (R183-R186) -/

/-- The position requested `i` after position `p` (R186): modulo LEN where the stream wraps, none beyond its end otherwise. -/
def askPos (wraps : Bool) (len p i : Nat) : Option Nat := if wraps then some ((p + i) % max len 1) else if p + i < len then some (p + i) else none

/-- The core at t0, engine cycle `e0`: the card queue is emptied and 16 positions from `pos` on are requested (R186). -/
def State.refill (s : State) (g pos e0 : Nat) : State :=
  let c := s.core g
  let asks := (List.range 16).filterMap (fun i => (askPos (s.streamWraps g) (s.streamLen g) pos i).map (fun p => (p, e0 + i)))
  ((s.setCore g { c with t0 := e0, fresh := 0, lastIssue := none, queue := [], asked := asks, blocked := none, fetchFrom := none,
                         alignHour := none }).setSeqPos g pos).setSeqState g 1

/-- CARD_FETCH: the card requested longest ago arrives in core `g`'s card queue, as it stood when its request reached the slice;
a request that would reach it in a service cycle is sent one cycle later (R163, R171, R186). -/
def cardFetch (g t : Nat) (s : State) : State :=
  let d := g / 16
  let cyc := s.engCycle d t
  let c := s.core g
  match c.asked with
  | [] => s
  | (p, r) :: rest =>
    let h := hops (sliceNode (addrOffset (s.cardAddr g p) / 2 ^ 28)) (coreNode (g % 16))
    let late := if s.countAt d (r + 2 * h) % 16 = 15 then 1 else 0
    if !s.dieRuns d t || cyc < r + 4 * h + 9 + late || 16 ≤ c.queue.length then s
    else
      let stall := match c.fetchFrom with | some x => cyc - x | none => 0
      let n := s.ownerN g
      let addrs := (List.range 256).map (s.cardAddr g p + ·)
      let card := leNat (addrs.map (s.readAsOf n (r + 2 * h + late)))
      let s := (s.setCore g { c with asked := rest, queue := c.queue ++ [(p, card)], fetchFrom := none }).checkBounds t n false addrs
      s.count64 (Reg.coreSeqStall d (g % 16)) 0 64 stall

/-! ## Issue (R192-R194, R220) -/

/-- The unit of the card accepts it in cycle `cyc` (R193). -/
def CoreState.accepts (c : CoreState) (card cyc : Nat) : Bool :=
  let op := cardOp card
  if op = 1 then (maskEngines (cardEngMask card)).all (fun e => (c.eng e).wait.isNone)
  else if op = 2 then c.vec.wait.isNone && (match c.vec.movedAt with | some x => decide (x < cyc) | none => true)
  else if 3 ≤ op ∧ op ≤ 5 then
    decide ((c.flights.filter (fun f => 3 ≤ cardOp f.card && cardOp f.card ≤ 5 && f.localAt.isNone)).length < 8)
  else true

/-- Conditions 1 and 2 of R192. -/
def CoreState.gapOver (c : CoreState) (card cyc : Nat) : Bool :=
  (match c.lastIssue with | some x => decide (x < cyc) | none => true)
    && decide ((if c.fresh < 16 then c.t0 else c.lastIssue.getD c.t0) + cardGap card ≤ cyc)

/-- The slot of the first valid wait that does not hold in cycle `t`, among the external or the internal ones. -/
def State.openWait (s : State) (card t : Nat) (ext : Bool) : Option Nat :=
  (List.range 4).find? (fun i =>
    let w := cardWait card i
    waitValid w && waitExt w == ext && !s.waitHolds w t)

/-- Condition 6 of R192 applies. -/
def needsDrain (card : Nat) : Bool := cardFence card || cardOp card == 6 || cardOp card == 7

/-- The core issues cards: its stream runs and nothing has stopped it (R369, R447, R452), and no overflow under TRAP, failed
comparison or fence came in an earlier cycle (R88, R97). -/
def State.streamGoes (s : State) (g cyc : Nat) : Bool :=
  let c := s.core g
  let trapped := match c.trapped with | some x => decide (x < cyc) | none => false
  match s.owner g with
  | none => false
  | some n => s.seqState g == 1 && s.pstate n == 3 && !trapped && !c.fenced && !s.suspended n && !s.fencedJob n

/-- The core issues cards in noon cycle `t`: its stream goes and its die runs (R48). -/
def State.mayIssue (s : State) (g t : Nat) : Bool := s.dieRuns (g / 16) t && s.streamGoes g (s.engCycle (g / 16) t)

/-- The state in which the next card's issue is blocked for a kind of interlock from this cycle on. A FENCE firing ends where a
wait begins; a wait firing goes on through it, since it counts once per issue (R235). -/
def State.blockIssue (s : State) (g kind slot cyc : Nat) : State :=
  match (s.core g).blocked with
  | none => s.setCore g { s.core g with blocked := some { kind := kind, slot := slot, since := cyc } }
  | some b =>
    if b.kind = kind then s.setCore g { s.core g with blocked := some { b with slot := slot } }
    else
      let s := if b.kind = 0 then s else s.firing g cyc b.kind b.slot (cyc - b.since) (s.seqPos g)
      let waited := if b.kind = 0 then b.waited + (cyc - b.since) else b.waited
      let waitSlot := if b.kind = 0 then b.slot else b.waitSlot
      s.setCore g { s.core g with blocked := some { kind := kind, slot := slot, since := cyc, waited := waited, waitSlot := waitSlot } }

/-- The state in which the firings that held the issue of the card at `pos` have ended in cycle `cyc` (R235). -/
def State.unblock (s : State) (g pos cyc : Nat) : State :=
  match (s.core g).blocked with
  | none => s
  | some b =>
    if b.kind = 0 then s.firing g cyc 0 b.slot (b.waited + (cyc - b.since)) pos
    else (s.firing g cyc 0 b.waitSlot b.waited pos).firing g cyc b.kind b.slot (cyc - b.since) pos

/-- The state after a lost grant (R220, R237). -/
def State.contested (s : State) (g w : Nat) : State :=
  (s.set32 (Reg.cdFlagStatus (g / 16)) 1).count64 (Reg.cdFlagCount (g / 16) (fld w 50 7 % 16 / 4)) 0 32 1

/-- The card placed in its unit (R106, R141, R193). -/
def CoreState.place (c : CoreState) (card seq : Nat) : CoreState :=
  if cardOp card = 1 then
    (maskEngines (cardEngMask card)).foldl (fun c e =>
      let x := c.eng e
      c.setEng e (if x.run.isNone then { x with run := some seq, iter := 0 } else { x with wait := some seq })) c
  else if cardOp card = 2 then
    { c with vec := if c.vec.run.isNone then { c.vec with run := some seq, iter := 0, group := 0 } else { c.vec with wait := some seq } }
  else c

/-- A card as the unit takes it: the LC_MASK of a MULTICAST card names package logical cores from here on (R205). -/
def State.resolveTargets (s : State) (n card : Nat) : Nat :=
  if cardOp card = 4 then
    setFld card 1664 128 (((upto 128 (fun c => bitAt (bodyF card 0 128) c)).map (fun c =>
      match s.coreOf n c with | some g => 2 ^ g | none => 0)).sum)
  else card

/-- The source of a MOVE or MULTICAST is off-die for core `g`. -/
def srcOffDie (g card : Nat) : Bool :=
  (cardOp card == 3 || cardOp card == 4) && (descRemote (cardDesc card 0) || descLc (cardDesc card 0) / 16 != g / 16)
/-- A target copy is off-die for core `g`. -/
def dstOffDie (g card : Nat) (p : Nat × Nat) : Bool := descRemote (cardDesc card 1) || p.1 / 16 != g / 16

/-- A line of the card crosses off-die, so that it has a remote part (R199): a MOVE or MULTICAST with an off-die source or target,
a REDUCE whose group has members on another die or package. -/
def State.crossesDie (s : State) (g card : Nat) : Bool :=
  if cardOp card = 3 ∨ cardOp card = 4 then srcOffDie g card || (itemCopies card 1).any (dstOffDie g card)
  else if cardOp card = 5 then
    match s.groupOf (s.ownerN g) (bodyF card 8 16) with
    | some x => decide (1 < x.pkgs.length) || x.members.any (fun m => m / 16 != g / 16)
    | none => false
  else false

/-- The state after the card at the head of core `g`'s queue has issued in cycle `t`: its consumptions are granted already. -/
def State.issued (s : State) (g pos card t : Nat) : State :=
  let d := g / 16
  let cl := g % 16
  let cyc := s.engCycle d t
  let n := s.ownerN g
  let s := s.unblock g pos cyc
  let c := s.core g
  let grp := bodyF card 8 16
  let base := Tab.get (fun _ => 0) c.reduceSeq grp
  let card' := s.resolveTargets n card
  let f : Flight := { seq := c.seq, pos := pos, card := card', issue := cyc, step := c.step, gen := s.gen n, base := base,
                      remote := s.crossesDie g card' }
  let asks := match askPos (s.streamWraps g) (s.streamLen g) pos 16 with | some p => [(p, cyc)] | none => []
  let c := { c with seq := c.seq + 1, flights := keepFlights cyc c.flights ++ [f], lastIssue := some cyc, fresh := min 16 (c.fresh + 1),
                    queue := c.queue.drop 1, asked := c.asked ++ asks, blocked := none, fetchFrom := none,
                    reduceSeq := if cardOp card = 5 then Tab.put (fun _ => 0) c.reduceSeq grp (base + cardIters card) else c.reduceSeq }
  let s := s.setCore g (c.place card f.seq)
  let s := s.count64 (Reg.coreSeqCount d cl) 0 64 1
  let s := if cardEnd card then (if cardWrap card then s.setSeqPos g 0 else (s.setSeqPos g (pos + 1)).setSeqState g 3)
    else s.setSeqPos g (pos + 1)
  s.giveSignals g card 0 t

/-- The card at the head of core `g`'s queue, where it is the one at its position (R186, R192). -/
def State.headCard (s : State) (g : Nat) : Option Nat :=
  match (s.core g).queue with
  | (p, card) :: _ => if p = s.seqPos g then some card else none
  | [] => none

/-- The module ends by which the signals of a card with a given WHEN leave the die. -/
def State.signalEnds (s : State) (g card when' : Nat) : List Nat :=
  (List.range 4).filterMap (fun i =>
    let sig := cardSignal card i
    let far := bitAt sig 60
    if !bitAt sig 63 || fld sig 61 2 != when' || (!far && fld sig 51 7 / 16 == g / 16) then none
    else some (s.routeEnd (g / 16) (if far then 8 else fld sig 51 7 / 16) 2))

/-- The first of those ends whose CONTROL egress queue lacks room for them all (R260, R262). -/
def State.signalLack (s : State) (g card when' : Nat) : Option Nat :=
  let ends := s.signalEnds g card when'
  ends.find? (fun k => !(s.modEnd k).sigRoom (ends.count k))

/-- The signals of a card with a given WHEN that leave the die all find room in their CONTROL egress queues (R260, R262). -/
def State.signalsFit (s : State) (g card when' : Nat) : Bool := (s.signalLack g card when').isNone

/-- The next card of core `g` meets every condition of R192 in noon cycle `t` but the grant of its consuming waits. -/
def State.issueReady (s : State) (g t : Nat) : Bool :=
  let cyc := s.engCycle (g / 16) t
  let c := s.core g
  match s.headCard g with
  | none => false
  | some card =>
    s.mayIssue g t && c.gapOver card cyc && c.accepts card cyc && (s.openWait card t false).isNone && (s.openWait card t true).isNone
      && (!needsDrain card || c.allDone cyc) && s.signalsFit g card 0

/-- The state in which the lower cores of core `g`'s die whose cards can issue in cycle `t` have their grants: the grant phase
takes the cards of one cycle in ascending die-local core (R220). -/
def State.lowerGrants (s : State) (g t : Nat) : State :=
  (List.range (g % 16)).foldl (fun x c =>
    let h := g / 16 * 16 + c
    match s.headCard h with
    | some card => if s.issueReady h t then (match x.grantWaits card t [0, 1, 2, 3] with | (y, none) => y | (_, some _) => x) else x
    | none => x) s

/-- Issue of the next card of core `g`, if it is one of opcode `op`, in noon cycle `t`: the state, and the card's position,
number and bytes where it issued (R192). Where it does not issue, the state records what blocked it. -/
def State.tryIssue (s : State) (g op t : Nat) : State × Option (Nat × Nat × Nat) :=
  let cyc := s.engCycle (g / 16) t
  let c := s.core g
  let pos := s.seqPos g
  let inQueue := (s.headCard g).isSome
  let card := (s.headCard g).getD (s.cardAt g pos)
  if !s.mayIssue g t || cardOp card != op || !c.gapOver card cyc || !c.accepts card cyc then (s, none)
  else
    let fence := needsDrain card && !c.allDone cyc
    match s.openWait card t false with
    | some i => (if inQueue then s.blockIssue g 0 i cyc else s, none)
    | none =>
      if fence && !c.onlyRemote cyc then (if inQueue then s.blockIssue g 5 0 cyc else s, none)
      else if fence || (s.openWait card t true).isSome || !s.signalsFit g card 0 then (s, none)
      else if !inQueue then (s.setCore g { c with fetchFrom := match c.fetchFrom with | some x => some x | none => some cyc }, none)
      else if let (_, some i) := (s.lowerGrants g t).grantWaits card t [0, 1, 2, 3] then
        let s := s.contested g (cardWait card i)
        (if waitExt (cardWait card i) then s else s.blockIssue g 0 i cyc, none)
      else
        match s.grantWaits card t [0, 1, 2, 3] with
        | (s', none) => (s'.issued g pos card t, some (pos, c.seq, card))
        | (_, some i) =>
          let s := s.contested g (cardWait card i)
          (if waitExt (cardWait card i) then s else s.blockIssue g 0 i cyc, none)

/-- What keeps the next card of core `g` from issuing in a way that holds its die (R262): 0 an external wait, 1 the remote part
of an earlier card, 3 a posted signal without room. Conditions 1, 2, 3 and 5 of R192 and the internal waits hold. -/
def State.holdCause (s : State) (g t : Nat) : Option Nat :=
  let cyc := s.engCycle (g / 16) t
  let c := s.core g
  match s.headCard g with
  | none => none
  | some card =>
    let fence := needsDrain card && !c.allDone cyc
    if !s.streamGoes g cyc || !c.gapOver card cyc || !c.accepts card cyc || (s.openWait card t false).isSome
        || (fence && !c.onlyRemote cyc) then none
    else if (s.openWait card t true).isSome then some 0
    else if fence then some 1
    else if !s.signalsFit g card 0 then some 3
    else none

/-- An external wait holds die `d` (R233, R262). -/
def State.waitHeld (s : State) (d t : Nat) : Bool :=
  (s.die d).hold.isSome && (List.range 16).any (fun c => s.holdCause (16 * d + c) t == some 0)

/-- Issue of a card that a unit runs. -/
def issueUnit (op g t : Nat) (s : State) : State := (s.tryIssue g op t).1

/-- Completion of a sequencer card in its issue cycle (R193, Table 7-10). -/
def State.completeNow (s : State) (g seq t : Nat) : State := s.locallyComplete g seq (s.engCycle (g / 16) t) t

/-- NOP (R210). -/
def issueNop (g t : Nat) (s : State) : State :=
  match s.tryIssue g 0 t with
  | (s, some (_, q, _)) => s.completeNow g q t
  | (s, none) => s

/-- Insertion of a card digest by position. -/
def insertPos (x : Nat × Nat) : List (Nat × Nat) → List (Nat × Nat)
  | [] => [x]
  | y :: t => if x.1 < y.1 then x :: y :: t else y :: insertPos x t

/-- DIGEST: the card digests since the previous DIGEST card are folded into layer digest LAYER, which CLOSE reports (R207,
R278). -/
def CoreState.foldDigest (c : CoreState) (pos card gen : Nat) : CoreState :=
  let layer := bodyF card 0 16
  let acc := match c.layers.find? (fun x => x.1 == layer) with | some x => x.2 | none => 0
  let ds := (c.unfolded.filter (fun x => decide (x.1 < pos))).foldl (fun l x => insertPos x l) []
  let acc := crc64 (leBytes 8 acc ++ (ds.map (fun x => leBytes 8 x.2)).flatten)
  let rest := c.layers.filter (fun x => x.1 != layer)
  if bodyF card 16 1 = 1 then { c with unfolded := [], layers := rest, closed := c.closed ++ [⟨layer, c.step, gen, acc⟩] }
  else { c with unfolded := [], layers := rest ++ [(layer, acc)] }

/-- Issue of a DIGEST card. -/
def issueDigest (g t : Nat) (s : State) : State :=
  match s.tryIssue g 6 t with
  | (s, some (pos, q, card)) =>
    let s := s.setCore g ((s.core g).foldDigest pos card (s.gen (s.ownerN g)))
    s.completeNow g q t
  | (s, none) => s

/-- HOUR_LEN in noon cycles (R46). -/
def State.hourLen (s : State) : Nat := 2 ^ s.f32 Reg.topHourCtl 0 5

/-- Issue of an HOUR_MARK card: a step opens; with ALIGN = 1 nothing issues before the next Hour's t0, unless the stream ended
with the card (R185, R208, R209, R281). -/
def issueHourMark (g t : Nat) (s : State) : State :=
  match s.tryIssue g 7 t with
  | (s, some (pos, q, card)) =>
    let step := bodyF card 0 32
    let s := s.setCore g { s.core g with step := step, markPos := pos }
    let ctl := Reg.coreDigestCapCtl (g / 16) (g % 16)
    let s := if bitAt (s.r64 ctl) 63 && decide (s.f64 ctl 24 32 < step) then s.sf64 ctl 63 1 0 else s
    let s := match (s.core g).flight q with | some f => s.setFlight g { f with step := step } | none => s
    let s := s.completeNow g q t
    if bodyF card 32 1 = 1 && s.seqState g == 1 then
      (s.setCore g { s.core g with alignHour := some (ceilDiv (s.schedCount (g / 16) t) s.hourLen) }).setSeqState g 2
    else s
  | (s, none) => s

/-! ## Completion (R198, R199) -/

/-- The items of a card whose completion makes it locally complete: drained tiles and the open chain's passes, groups, or
iterations (Table 7-10). -/
def CoreState.workDone (c : CoreState) (f : Flight) (cyc : Nat) : Bool :=
  let card := f.card
  if cardOp card = 1 then
    let per := if cardChained card then cardIters card / cardRep card 0 else cardIters card
    f.done == per * (maskEngines (cardEngMask card)).length
  else if cardOp card = 2 then
    f.started == cardIters card * ((bodyF card 288 15 + 255) / 256) && c.vec.outs.all (fun o => o.seq != f.seq)
      && f.placedAt.all (fun x => decide (x.2 ≤ cyc))
  else f.done == cardIters card

/-- CARD_LOCAL_COMPLETION: the card in flight at position `pos` of core `g` has done its work (R198). -/
def cardLocalCompletion (g pos t : Nat) (s : State) : State :=
  let d := g / 16
  let c := s.core g
  match c.flights.find? (fun f => f.pos == pos && f.localAt.isNone) with
  | none => s
  | some f =>
    if !s.dieRuns d t || !c.workDone f (s.engCycle d t) || !s.signalsFit g f.card 1 || (f.reported && !s.signalsFit g f.card 3) then s
    else s.locallyComplete g f.seq (s.engCycle d t) t

/-- Ring of a partition's commands (Table 13-3). -/
def partRing (n : Nat) : Nat := n + 1

/-- The START command of a partition completes. -/
def State.completeStart (s : State) (n status : Nat) : State :=
  match (s.part n).startCmd with
  | none => s
  | some id => (s.setPart n { s.part n with startCmd := none }).complete (partRing n) id status 0 0

/-! ## Meanings -/

/-- CARD_FETCH. -/
def execCardFetch (d : Fin 8) (c : Fin 16) (t : Nat) (upset : List (BitVec 37)) (s : State) : Host.Outcome State Fault Refusal :=
  .next (cardFetch (16 * d + c) t (s.upset upset))
/-- NOP. -/
def execNopCard (d : Fin 8) (c : Fin 16) (t : Nat) (s : State) : Host.Outcome State Fault Refusal := .next (issueNop (16 * d + c) t s)
/-- MATMUL: the card takes the waiting slot of each engine of its mask (R106, R200). -/
def execMatmul (d : Fin 8) (c : Fin 16) (t : Nat) (s : State) : Host.Outcome State Fault Refusal := .next (issueUnit 1 (16 * d + c) t s)
/-- VECTOR (R203). -/
def execVectorCard (d : Fin 8) (c : Fin 16) (t : Nat) (s : State) : Host.Outcome State Fault Refusal := .next (issueUnit 2 (16 * d + c) t s)
/-- MOVE (R204). -/
def execMoveCard (d : Fin 8) (c : Fin 16) (t : Nat) (s : State) : Host.Outcome State Fault Refusal := .next (issueUnit 3 (16 * d + c) t s)
/-- MULTICAST (R205). -/
def execMulticast (d : Fin 8) (c : Fin 16) (t : Nat) (s : State) : Host.Outcome State Fault Refusal := .next (issueUnit 4 (16 * d + c) t s)
/-- REDUCE (R206). -/
def execReduceCard (d : Fin 8) (c : Fin 16) (t : Nat) (s : State) : Host.Outcome State Fault Refusal := .next (issueUnit 5 (16 * d + c) t s)
/-- DIGEST (R207). -/
def execDigestCard (d : Fin 8) (c : Fin 16) (t : Nat) (s : State) : Host.Outcome State Fault Refusal := .next (issueDigest (16 * d + c) t s)
/-- HOUR_MARK (R208). -/
def execHourMark (d : Fin 8) (c : Fin 16) (t : Nat) (s : State) : Host.Outcome State Fault Refusal := .next (issueHourMark (16 * d + c) t s)
/-- CARD_LOCAL_COMPLETION. -/
def execCardLocalCompletion (d : Fin 8) (c : Fin 16) (pos t : Nat) (s : State) : Host.Outcome State Fault Refusal :=
  .next (cardLocalCompletion (16 * d + c) pos t s)

end Sys2Proof.Machine
end

