-- ==== Sys2Proof/Machine/Mesh.lean ====
section
/-!
DEFINITION. The lines of the DMA movers: source reads, the scheduled mesh with its lanes and multicast trees, fills, landing
queues, slice banks and egress queues, cycle by cycle (06_memory_hierarchy.md R155-R163, 09_fabric_and_die_links.md R238-R246, R253,
R260 and R262). What a cycle does depends on the schedule alone; it is computed when a later command of the die asks.
-/

namespace Sys2Proof.Machine

/-! ## Nodes and paths (R238, R242, R243) -/

/-- Number of a node: 6 r + c. -/
def nodeNum (x : Nat × Nat) : Nat := 6 * x.1 + x.2

/-- The node that carries the port of module `m` (Table 9-1). -/
def moduleNode (m : Nat) : Nat × Nat := if m = 0 then (4, 0) else if m = 1 then (4, 5) else if m = 2 then (0, 1) else (0, 4)

/-- Links along a row from column `a` to column `b`: direction 1 toward column + 1, 3 toward column - 1 (Table 9-3). -/
def rowLinks (a b : Nat) : List Nat := if a ≤ b then List.replicate (b - a) 1 else List.replicate (a - b) 3
/-- Links along a column from row `a` to row `b`: direction 2 toward row + 1, 0 toward row - 1. -/
def colLinks (a b : Nat) : List Nat := if a ≤ b then List.replicate (b - a) 2 else List.replicate (a - b) 0

/-- The path of line `i` of a scheduled item (R243): straight, or row-first for an even line and column-first for an odd one. -/
def linePath (a b : Nat × Nat) (i : Nat) : List Nat :=
  if i % 2 = 0 then rowLinks a.2 b.2 ++ colLinks a.1 b.1 else colLinks a.1 b.1 ++ rowLinks a.2 b.2

/-- The node a link leads to. -/
def linkTo (node dir : Nat) : Nat := if dir = 0 then node - 6 else if dir = 1 then node + 1 else if dir = 2 then node + 6 else node - 1
/-- The port by which a line that used a link arrives, in the order of R244: local, row - 1, column + 1, row + 1, column - 1. -/
def portOf (dir : Nat) : Nat := if dir = 0 then 3 else if dir = 1 then 4 else if dir = 2 then 1 else 2

/-- The node at which a memory byte of a die is reached (R150, R151, R238). -/
def homeNode (a : Nat) : Nat × Nat :=
  let off := addrOffset a
  match addrRegion a with
  | 1 => coreNode (off / 0x3000000)
  | 2 => coreNode (off / 2 ^ 23)
  | _ => sliceNode (off / 2 ^ 28)

/-- The bank of a line: of a slice, of core memory or of an operand buffer (R105, R150, R151). -/
def bankOf (a : Nat) : Nat :=
  let off := addrOffset a
  match addrRegion a with
  | 1 => off % 0x3000000 / 32 % 64
  | 2 => off / 32 % 8
  | _ => off / 32 % 32

/-! ## Items (R204-R206) -/

/-- The source copies of a DMA item: one per engine of a spread MOVE, else one. -/
def dmaSources (card : Nat) : List (Nat × Nat) := if isSpread card then itemCopies card 0 else ((itemCopies card 0).head?).toList
/-- The target copies of a DMA item, each with the number of the source copy it takes. -/
def dmaTargets (card : Nat) : List (Nat × (Nat × Nat)) :=
  let l := itemCopies card 1
  if isSpread card then (List.range l.length).zip l else l.map (fun p => (0, p))

/-- Lines of an item. -/
def itemLen (card : Nat) : Nat := ceilDiv (descRun (cardDesc card 0)) 32
/-- Bytes of line `i` of an item. -/
def lineBytes (card i : Nat) : Nat := min 32 (descRun (cardDesc card 0) - 32 * i)
/-- The addresses of line `i` of an item's copy. -/
def lineAddrs (card slot n : Nat) (copy : Nat × Nat) (i : Nat) : List Nat :=
  (List.range (lineBytes card i)).map (fun j => itemAddr card slot n copy (32 * i + j))

/-- The die, 0 to 7 or 8 for the IOD, that an off-die target copy's frames are for. -/
def copyDest (card : Nat) (p : Nat × Nat) : Nat := if descRemote (cardDesc card 1) then 8 else p.1 / 16

/-- The off-die destinations of a card of core `g`: each gets one copy of a line (R246). -/
def offDests (g card : Nat) : List Nat :=
  (((itemCopies card 1).filter (dstOffDie g card)).map (copyDest card)).eraseDups

/-- Key of a copy's bytes held between an item's start and its completion. -/
def fetchKey (n i : Nat) : Nat := n * 8192 + i

/-- Entry of the die's multicast table for a MULTICAST item (R246): OWNER, SRC_NODE and TARGETS match. -/
def State.mcastEntry (s : State) (g part n card : Nat) : Option Nat :=
  let d := g / 16
  let src := itemAddr card 0 n ((dmaSources card)[0]?.getD (g, 0)) 0
  let targets := fld (bodyF card 0 128) (16 * d) 16
  (List.range 256).find? (fun t =>
    let v := s.r32 (Reg.fabMcast d t + 28)
    bitAt v 31 && fld v 25 6 == part && fld v 19 6 == nodeNum (homeNode src)
      && fld (s.rWide (Reg.fabMcast d t) 8) 227 16 == targets)

/-- The links that a multicast entry's mask sets at a node, and whether it sets LOCAL (Table 9-3). -/
def State.mcastMask (s : State) (d t node : Nat) : List Nat × Bool :=
  let m := fld (s.rWide (Reg.fabMcast d t) 8) (5 * node) 5
  ((List.range 4).filter (fun i => bitAt m i), bitAt m 4)

/-- The mesh of a die. -/
def State.mesh (s : State) (d : Nat) : Mesh := (s.die d).mesh
/-- The state with the mesh of a die replaced. -/
def State.setMesh (s : State) (d : Nat) (m : Mesh) : State := s.setDie d { s.die d with mesh := m }

/-- The flight of a DMA line. -/
def State.lineFlight (s : State) (core seq : Nat) : Option Flight := (s.core core).flight seq

/-! ## Source reads (R155, R156, R162, R163) -/

/-- Source reads in the order in which a memory serves them: of core memory those that fill operand buffers first, in ascending
engine, then the others (R156); of a slice by the node of the requester (R162). -/
def State.readOrder (s : State) (r : SrcRead) : Nat :=
  match s.lineFlight r.core r.seq with
  | none => 0
  | some f =>
    if descLevel (cardDesc f.card 0) = 1 then
      (if descLevel (cardDesc f.card 1) = 2 then ((dmaTargets f.card)[r.copy]?.map (·.2.2)).getD 0 else 64)
    else nodeNum (coreNode (r.core % 16))

/-- A key's place in a list in ascending order, behind equal ones. -/
def putBy {α : Type} (key : α → Nat) (x : α) : List α → List α
  | [] => [x]
  | y :: t => if key x < key y then x :: y :: t else y :: putBy key x t
/-- A list in ascending order of a key, equal ones as they stood. -/
def sortBy {α : Type} (key : α → Nat) (l : List α) : List α := l.foldl (fun acc x => putBy key x acc) []

/-- What reads of one memory in one cycle may take: ports left by memory, and accesses by memory and bank. -/
structure Grants where
  lines : Tab Nat := []
  banks : Tab Nat := []
  deriving DecidableEq, Repr

/-- Number of a memory: 0 to 15 core memories by die-local core, 16 to 31 slices, from 32 up operand buffers. -/
def memNum (a : Nat) : Nat :=
  let off := addrOffset a
  match addrRegion a with
  | 1 => off / 0x3000000
  | 2 => 32 + off / 2 ^ 16
  | _ => 16 + off / 2 ^ 28

/-- Lines that a memory reads for the DMA movers in one cycle, and accesses of one of its banks (Table 6-1, R105, R155, R156,
R162). -/
def readLimits (mem : Nat) : Nat × Nat := if mem < 16 then (128, 2) else if mem < 32 then (32, 1) else (2, 1)

/-- Core and engine buffer of an operand buffer's number: die-local core, engine, buffer. -/
def bufferOf (mem : Nat) : Nat × Nat × Nat := ((mem - 32) / 128, (mem - 32) / 2 % 64, (mem - 32) % 2)

/-- Accesses that other requesters make of a bank in cycle `c` before the DMA movers' reads: the vector engine's, the feed's and
the fills'. -/
def State.bankTaken (s : State) (d mem bank c : Nat) : Nat :=
  if mem < 16 then ((s.core (16 * d + mem)).vecReads.filter (fun x => x.1 == c && x.2 == bank)).length
  else if mem < 32 then 0
  else
    let (k, e, b) := bufferOf mem
    let x := s.core (16 * d + k)
    ((x.feedBanks (16 * d + k) e b c ++ x.fillBanks e b c).filter (· == bank)).length

/-- Lines that fills took of a buffer's port in cycle `c` (R155). -/
def State.portTaken (s : State) (d mem c : Nat) : Nat :=
  if mem < 32 then 0 else let (k, e, b) := bufferOf mem; ((s.core (16 * d + k)).fillBanks e b c).length

/-- One line asks its memory in cycle `c`: the grants after it, and whether it is read, waits for a bank, or finds no port. -/
def State.askLine (s : State) (d c a : Nat) (x : Grants) : Grants × Option Bool :=
  let mem := memNum a
  let key := 64 * mem + bankOf a
  let lim := readLimits mem
  let used := Tab.get (fun _ => s.portTaken d mem c) x.lines mem
  let bank := Tab.get (fun _ => s.bankTaken d mem (bankOf a) c) x.banks key
  if lim.1 ≤ used then (x, none)
  else
    let y := { x with lines := Tab.put (fun _ => s.portTaken d mem c) x.lines mem (used + 1) }
    if lim.2 ≤ bank then (y, some false)
    else ({ y with banks := Tab.put (fun _ => s.bankTaken d mem (bankOf a) c) y.banks key (bank + 1) }, some true)

/-- The lines of a source read that are read in cycle `c`, those left, those that waited for a bank, and the grants after them. -/
def State.askLines (s : State) (d c : Nat) (addr : Nat → Nat) : List Nat → Grants → List Nat × List Nat × Nat × Grants
  | [], x => ([], [], 0, x)
  | i :: t, x =>
    match s.askLine d c (addr i) x with
    | (y, some true) => let (a, b, w, z) := s.askLines d c addr t y; (i :: a, b, w, z)
    | (y, some false) => let (a, b, w, z) := s.askLines d c addr t y; (a, i :: b, w + 1, z)
    | (_, none) => ([], i :: t, 0, x)

/-- A line that has left its source enters the mesh, or stands at its target at once. -/
def Mesh.send (m : Mesh) (x : MeshLine) : Mesh :=
  { m with next := m.next + 1,
           lands := if x.path.isEmpty && x.tree.isNone then
               m.lands ++ [⟨x.core, x.seq, x.iter, x.line, x.copy, x.bytes, x.bad, x.at', m.next⟩] else m.lands,
           hops := if x.path.isEmpty && x.tree.isNone then m.hops else m.hops ++ [{ x with ord := m.next }] }

/-- The state after line `i` of a source read has been read in cycle `c`: it is held for the digest, and goes to its targets; an
operand of a REDUCE reaches its die's combining point (R155, R163, R206). -/
def State.lineRead (s : State) (d c : Nat) (r : SrcRead) (f : Flight) (i : Nat) : State :=
  let card := f.card
  let n := r.iter
  let g := r.core
  let part := s.ownerN g
  let src := (dmaSources card)[r.copy]?.getD (g, 0)
  let addrs := lineAddrs card 0 n src i
  let bytes := addrs.map (s.readAsOf part c)
  let bad := addrs.any (fun a => s.poisoned a)
  let from' := homeNode (addrs.headD 0)
  let at' := if descLevel (cardDesc card 0) = 1 ∨ descLevel (cardDesc card 0) = 2 then c + 4 else c + 8
  let k := fetchKey n r.copy
  let left := Tab.get (fun _ => 0) f.unread n - 1
  let f' := { f with
    fetched := Tab.put (fun _ => []) f.fetched k (putLine (Tab.get (fun _ => []) f.fetched k) (descRun (cardDesc card 0)) i bytes),
    unread := Tab.put (fun _ => 0) f.unread n left, readAt := if left = 0 then stampAt f.readAt (itemKey 0 0 n) (c + 1) else f.readAt }
  let s := s.setFlight g f'
  let line (copy : Nat) (tree : Option Nat) (path : List Nat) : MeshLine :=
    { core := g, seq := r.seq, iter := n, line := i, copy := copy, tree := tree, bytes := bytes, bad := bad, node := nodeNum from',
      path := path, at' := at', port := 0, ord := 0, waited := false }
  if cardOp card = 5 then
    match s.groupOf part (bodyF card 8 16) with
    | some x => s.addOperand x (f.base + n) i 1 d ⟨g % 16, at', bytes ++ List.replicate (32 - bytes.length) 0, bad⟩ 4
    | none => s
  else
    let all := (List.range (dmaTargets card).length).zip (dmaTargets card)
    let here := all.filter (fun x => !dstOffDie g card x.2.2 && x.2.1 == r.copy)
    let s := if cardOp card = 4 then
        (if here.isEmpty then s else match s.mcastEntry g part n card with
          | some t => s.setMesh d ((s.mesh d).send (line 0 (some t) []))
          | none => s)
      else here.foldl (fun s x =>
        let goal := homeNode (itemAddr card 1 n x.2.2 0)
        s.setMesh d ((s.mesh d).send (line x.1 none (linePath from' goal i)))) s
    (offDests g card).foldl (fun s dest =>
      match all.find? (fun x => dstOffDie g card x.2.2 && copyDest card x.2.2 == dest && x.2.1 == r.copy) with
      | some x => s.setMesh d ((s.mesh d).send (line x.1 none (linePath from' (moduleNode (s.routeEnd d dest 0 % 4)) i)))
      | none => s) s

/-- The source reads of one DMA item's copy in cycle `c`, in the order of the movers. -/
def State.serveRead (s : State) (d c : Nat) (acc : State × Grants) (r : SrcRead) : State × Grants :=
  let s' := acc.1
  match s.lineFlight r.core r.seq with
  | none => acc
  | some f =>
    if c < r.from' then (s'.setMesh d { s'.mesh d with reads := (s'.mesh d).reads ++ [r] }, acc.2)
    else
      let src := (dmaSources f.card)[r.copy]?.getD (r.core, 0)
      let (got, left, waits, x) := s.askLines d c (fun i => itemAddr f.card 0 r.iter src (32 * i)) r.todo acc.2
      let s' := got.foldl (fun y i => match y.lineFlight r.core r.seq with | some f => y.lineRead d c r f i | none => y) s'
      let s' := if descLevel (cardDesc f.card 0) = 1 then s'.count64 (Reg.coreBankWait d (src.1 % 16)) 0 64 waits else s'
      (if left.isEmpty then s' else s'.setMesh d { s'.mesh d with reads := (s'.mesh d).reads ++ [{ r with todo := left }] }, x)

/-- Every source read of die `d` in cycle `c`. -/
def State.serveReads (s : State) (d c : Nat) : State :=
  let rs := sortBy s.readOrder (s.mesh d).reads
  (rs.foldl (s.serveRead d c) (s.setMesh d { s.mesh d with reads := [] }, {})).1

/-! ## Links (R242, R244, R246) -/

/-- The copies that a line on a multicast tree makes at a node it has reached: landings in the core served there, and a line
for each link of the node's mask (R246). Another line at the end of its path lands. -/
def State.arrive (s : State) (d c : Nat) (x : MeshLine) : List MeshLine × List Landing :=
  let land (copy : Nat) : Landing := ⟨x.core, x.seq, x.iter, x.line, copy, x.bytes, x.bad, x.at', x.ord⟩
  if c < x.at' || !x.path.isEmpty then ([x], [])
  else match x.tree, s.lineFlight x.core x.seq with
    | none, _ => ([], [land x.copy])
    | some _, none => ([], [])
    | some t, some f =>
      let (dirs, here) := s.mcastMask d t x.node
      let all := (List.range (dmaTargets f.card).length).zip (dmaTargets f.card)
      (dirs.map (fun k => { x with path := [k] }),
       if here then (all.filter (fun y => y.2.2.1 / 16 == d && nodeNum (coreNode (y.2.2.1 % 16)) == x.node)).map (fun y => land y.1) else [])

/-- Lines that have reached their target stand there, and trees branch. -/
def State.arrivals (s : State) (d c : Nat) : State :=
  let m := s.mesh d
  let r := m.hops.map (s.arrive d c)
  s.setMesh d { m with hops := (r.map (·.1)).flatten, lands := m.lands ++ (r.map (·.2)).flatten }

/-- The order in which lines take the lanes of their links: those that have waited first, then by port, then by arrival (R244). -/
def laneOrder (x : MeshLine) : Nat := ((if x.waited then 0 else 5) + x.port) * 2 ^ 128 + x.at' * 2 ^ 64 + x.ord

/-- Lines in lane order take lanes, 16 a link and cycle; the others wait. The lanes taken, the lines after the cycle, and the
waits. -/
def takeLanes (c : Nat) : List MeshLine → Tab Nat → List MeshLine × Nat
  | [], _ => ([], 0)
  | x :: t, used =>
    match x.path with
    | [] => let (l, w) := takeLanes c t used; (x :: l, w)
    | k :: rest =>
      if c < x.at' then (let (l, w) := takeLanes c t used; (x :: l, w))
      else
        let link := 4 * x.node + k
        let n := Tab.get (fun _ => 0) used link
        if n < 16 then
          let (l, w) := takeLanes c t (Tab.put (fun _ => 0) used link (n + 1))
          ({ x with node := linkTo x.node k, path := rest, at' := c + 2, port := portOf k, waited := false } :: l, w)
        else
          let (l, w) := takeLanes c t used
          ({ x with waited := true } :: l, w + 1)

/-- The scheduled lines on the mesh of die `d` in cycle `c`; every wait for a lane adds to DEFERS (R244). -/
def State.links (s : State) (d c : Nat) : State :=
  let m := s.mesh d
  let (l, w) := takeLanes c (sortBy laneOrder m.hops) []
  (s.setMesh d { m with hops := l }).count64 (Reg.fabHoldCount d) 0 32 w

/-! ## Core memory's write side (R110, R158) -/

/-- Lines that enter bank `b`'s landing queue in cycle `c`. -/
def CoreState.entered (x : CoreState) (b c : Nat) : Nat := (x.landed.filter (fun y => y.1 == c && y.2.1 == b)).length
/-- Those of them that come from the engines' write lanes. -/
def CoreState.engineLines (x : CoreState) (b c : Nat) : Nat := (x.landed.filter (fun y => y.1 == c && y.2.1 == b && y.2.2)).length

/-- Lines queued at a bank after `n` cycles from `c`, each retiring one line that stood there and taking in its own (R158). -/
def CoreState.queueRun (x : CoreState) (b : Nat) : Nat → Nat → Nat → Nat
  | 0, _, q => q
  | n + 1, c, q => x.queueRun b n (c + 1) (q - 1 + x.entered b c)

/-- Lines queued at bank `b` at the start of cycle `c`. A bank without a line for 256 cycles is empty. -/
def CoreState.queued (x : CoreState) (b c : Nat) : Nat :=
  let (c0, q) := Tab.get (fun _ => (0, 0)) x.landQ b
  if c - c0 ≤ 512 then x.queueRun b (c - c0) c0 q else x.queueRun b 512 (c - 512) 0

/-- Bank `b` admits a vector or DMA line in cycle `c`: at most 63 lines stand there after the cycle's engine lines (R158). -/
def CoreState.admits (x : CoreState) (b c : Nat) : Bool := x.queued b c + x.engineLines b c ≤ 63

/-- Write slots that the engine lanes and the vector engine leave the DMA mover in cycle `c` (R110). -/
def CoreState.freeSlots (x : CoreState) (c : Nat) : Nat := 64 - Tab.get (fun _ => 0) x.portUse c

/-- The core with one more line entered in a landing queue in cycle `c`, through the write port. -/
def CoreState.enterLine (x : CoreState) (c b : Nat) (engine : Bool) : CoreState :=
  { x with landed := x.landed ++ [(c, b, engine)], portUse := Tab.put (fun _ => 0) x.portUse c (Tab.get (fun _ => 0) x.portUse c + 1) }

/-- The core without the record of cycles long past: the queues are brought to cycle `c`. -/
def CoreState.settle (x : CoreState) (c : Nat) : CoreState :=
  let banks := (x.landed.map (·.2.1) ++ x.landQ.map (·.1)).eraseDups
  { x with
    landQ := banks.foldl (fun tb b => Tab.put (fun _ => (0, 0)) tb b (let q := x.queued b c; if q = 0 then (0, 0) else (c, q))) [],
    landed := x.landed.filter (fun y => decide (c ≤ y.1)), portUse := x.portUse.filter (fun y => decide (c ≤ y.1)),
    vecReads := x.vecReads.filter (fun y => decide (c ≤ y.1)), fills := x.fills.filter (fun y => decide (c < y.1 + 512)) }

/-! ## Landings (R110, R155, R158, R160, R162) -/

/-- What landings of one cycle have taken: write slots by core, lines and banks by memory, and engine lines by core bank. -/
structure Taken where
  lines : Tab Nat := []
  banks : List Nat := []
  deriving DecidableEq, Repr

/-- The state in which a landing's line stands at its target from cycle `c` on: the item counts it, and is released with the last
of its lines where no report is outstanding (R160, R198, R228). -/
def State.placed (s : State) (x : Landing) (f : Flight) (c : Nat) : State :=
  let left := Tab.get (fun _ => 0) f.unplaced x.iter - 1
  let last := max c (Tab.get (fun _ => 0) f.placedAt x.iter)
  let done := left == 0 && Tab.get (fun _ => 0) f.awaited x.iter == 0
  s.setFlight x.core { f with unplaced := Tab.put (fun _ => 0) f.unplaced x.iter left, placedAt := Tab.put (fun _ => 0) f.placedAt x.iter last,
                              relAt := if done then stampAt f.relAt (itemKey 1 0 x.iter) last else f.relAt }

/-- The state with the bytes of a landing written in cycle `c`, the poison mark with them (R160, R174). -/
def State.writeLanding (s : State) (x : Landing) (f : Flight) (addrs : List Nat) (c rank : Nat) : State :=
  let n := s.ownerN x.core
  let s := s.writeTimed n (c + 1) rank (addrs.zip x.bytes)
  let s := if x.bad then s.poisonAt (addrs.filter (s.mayAccess n true)) else s
  s.placed x f (c + 1)

/-- One landing on its own die in cycle `c`: written where its memory takes it, else it waits, which a core memory counts. -/
def State.landLine (s : State) (d c : Nat) (acc : State × Taken × List Landing) (x : Landing) : State × Taken × List Landing :=
  let (s', tk, wait) := acc
  match s'.lineFlight x.core x.seq with
  | none => acc
  | some f =>
    let copy := ((dmaTargets f.card)[x.copy]?.map (·.2)).getD (x.core, 0)
    let addrs := (List.range x.bytes.length).map (fun j => itemAddr f.card 1 x.iter copy (32 * x.line + j))
    let a := addrs.headD 0
    let mem := memNum a
    let b := bankOf a
    let n := Tab.get (fun _ => 0) tk.lines mem
    let tk' : Taken := ⟨Tab.put (fun _ => 0) tk.lines mem (n + 1), tk.banks ++ [64 * mem + b]⟩
    if mem < 16 then
      let core := s.core (16 * d + mem)
      if n < core.freeSlots c && core.admits b c then
        let s' := s'.setCore (16 * d + mem) ((s'.core (16 * d + mem)).enterLine c b false)
        (s'.writeLanding x f addrs c rankDma, tk', wait)
      else (s'.count64 (Reg.coreBankWait d mem) 0 64 1, tk, wait ++ [x])
    else if mem < 32 then
      if n < 16 && !tk.banks.contains (64 * mem + b) then
        (s'.writeLanding x f addrs c (nodeNum (coreNode (x.core % 16))), tk', wait)
      else (s', tk, wait ++ [x])
    else
      let (k, e, buf) := bufferOf mem
      if n < 2 && !tk.banks.contains (64 * mem + b) && !((s.core (16 * d + k)).feedBanks (16 * d + k) e buf c).contains b then
        let y := s'.core (16 * d + k)
        let s' := s'.setCore (16 * d + k) { y with fills := y.fills ++ [(c, 2 * e + buf, b)] }
        (s'.writeLanding x f addrs c rankDma, tk', wait)
      else (s', tk, wait ++ [x])

/-! ## Egress (R246, R253, R260, R262) -/

/-- Tags of die `d` in use. -/
def State.tagsOf (s : State) (d : Nat) : List Nat :=
  ((List.range 16).map (fun c => ((s.core (16 * d + c)).flights.map (fun f => f.tags.map (·.1))).flatten)).flatten

/-- The lowest tag of die `d` that is free. -/
def State.freeTag (s : State) (d : Nat) : Option Nat :=
  let used := s.tagsOf d
  (List.range (used.length + 1)).find? (fun t => !used.contains t && decide (t < 4096))

/-- Consecutive lines gathered into runs. -/
def lineRuns (l : List (Nat × List Byte × Bool)) : List (Nat × List (List Byte × Bool)) :=
  l.foldr (fun x acc => match acc with
    | (a, ls) :: t => if x.1 + 32 = a then (x.1, x.2 :: ls) :: t else (x.1, [x.2]) :: acc
    | [] => [(x.1, [x.2])]) []

/-- Up to eight lines from `addr` up in frames (R253), each with the poison marks and the length of its last line. -/
def markedFrames (h : Frame) : Nat → List (List Byte × Bool) → List Frame
  | 0, _ => []
  | n + 1, ls =>
    if ls.isEmpty then []
    else
      let now := ls.take 8
      let short := ((now.getLast?).map (fun x => x.1.length % 32)).getD 0
      { h with lmask := 2 ^ now.length - 1, data := framePayload (now.map (·.1)),
               bad := ((List.range now.length).zipWith (fun i x => if x.2 then 2 ^ i else 0) now).sum, tail := short }
        :: markedFrames { h with addr := h.addr + 256 } n (ls.drop 8)

/-- The frames of lines of an item that enter an egress queue in one cycle, for one off-die target copy (R252, R253). For a remote
operand buffer, ADDR carries the engine and the buffer above the offset, as region 2 does (log entry 11). -/
def State.copyFrames (s : State) (g card n tag : Nat) (copy : Nat × Nat) (ls : List Landing) : List Frame :=
  let desc := cardDesc card 1
  let part := s.ownerN g
  let rem := descRemote desc
  let buf := if descLevel desc = 2 then copy.2 * 2 ^ 17 + descBuf desc * 2 ^ 16 else 0
  let addr (i : Nat) : Nat := if rem then buf + itemOffset desc (itemQ card 1 n copy.2) (32 * i) else itemAddr card 1 n copy (32 * i)
  ((lineRuns (ls.map (fun x => (addr x.line, x.bytes, x.bad)))).map (fun r =>
    markedFrames { kind := 0, src := g / 16, dest := if rem then 8 else copy.1 / 16, cls := 0, part := part, gen := s.gen part, tag := tag,
                   remote := if rem then 1 else 0, peer := if rem then descPeer desc else 0, lc := if rem then copy.1 else 0,
                   level := if rem then descLevel desc else 0, region := if rem then 0 else addrRegion r.1,
                   addr := addrOffset r.1 } (r.2.length + 1) r.2)).flatten

/-- The off-die lines of die `d` due in cycle `c`, in the order in which they left their sources. -/
def State.dueOut (s : State) (d c : Nat) : List Landing :=
  sortBy (fun x => x.ord) ((s.mesh d).lands.filter (fun x => decide (x.at' ≤ c) && (match s.lineFlight x.core x.seq with
    | some f => dstOffDie x.core f.card (((dmaTargets f.card)[x.copy]?.map (·.2)).getD (x.core, 0))
    | none => false)))

/-- The frames of one item's lines, for every target of the card on the die they go to: one copy reached the module (R246, log
entry 35). -/
def State.itemFrames (s : State) (f : Flight) (tag : Nat) (ls : List Landing) : List Frame :=
  match ls with
  | [] => []
  | x :: _ =>
    let dest (p : Nat × Nat) : Nat := copyDest f.card p
    let mine := ((dmaTargets f.card)[x.copy]?.map (fun p => dest p.2)).getD 0
    let src := ((dmaTargets f.card)[x.copy]?.map (·.1)).getD 0
    (((dmaTargets f.card).filter (fun p => dstOffDie x.core f.card p.2 && dest p.2 == mine && p.1 == src)).map (fun p =>
      s.copyFrames x.core f.card x.iter tag p.2 ls)).flatten

/-- Frames of the due lines with tags taken, where every item finds one: the state with the tags held, and the frames. -/
def State.formFrames (s : State) (d : Nat) : List (List Landing) → State × List Frame → Option (State × List Frame)
  | [], acc => some acc
  | ls :: t, acc =>
    match ls.head? with
    | none => s.formFrames d t acc
    | some x =>
      match acc.1.lineFlight x.core x.seq with
      | none => s.formFrames d t acc
      | some f =>
        match f.tags.find? (fun y => y.2 == x.iter) with
        | some (tag, _) => s.formFrames d t (acc.1, acc.2 ++ s.itemFrames f tag ls)
        | none =>
          match acc.1.freeTag d with
          | none => none
          | some tag => s.formFrames d t (acc.1.setFlight x.core { f with tags := f.tags ++ [(tag, x.iter)] }, acc.2 ++ s.itemFrames f tag ls)

/-- Landings gathered by item and target die, in order. -/
def byItem (l : List Landing) : List (List Landing) :=
  l.foldl (fun acc x =>
    if acc.any (fun ls => ls.any (fun y => y.core == x.core && y.seq == x.seq && y.iter == x.iter && y.copy == x.copy)) then
      acc.map (fun ls => if ls.any (fun y => y.core == x.core && y.seq == x.seq && y.iter == x.iter && y.copy == x.copy) then ls ++ [x] else ls)
    else acc ++ [[x]]) []

/-- The due off-die lines of die `d` enter their egress queues in cycle `c` together, or none where a queue or the tags lack room
(R262): the state after them, `none` where they hold the die. -/
def State.egress (s : State) (d c : Nat) : Option State :=
  let due := s.dueOut d c
  if due.isEmpty then some s
  else match s.formFrames d (byItem due) (s, []) with
    | none => none
    | some (s', fs) =>
      let ends := fs.map (fun f => s.routeEnd d f.dest 0)
      if !(ends.all (fun k => (s.modEnd k).reqRoom (ends.count k))) then none
      else
        let s' := s'.setMesh d { s'.mesh d with lands := (s'.mesh d).lands.filter (fun x => !due.contains x) }
        let s' := due.foldl (fun y x => match y.lineFlight x.core x.seq with | some f => y.placed x f c | none => y) s'
        some (fs.foldl (fun y f => y.routeFrame d f) s')

/-- The off-die lines of die `d` that wait for room or a tag in cycle `c`, by core: module, core and card position (R265). -/
def State.egressWaits (s : State) (d c : Nat) : List (Nat × Nat × Nat) :=
  match s.egress d c with
  | some _ => []
  | none =>
    let l := (s.dueOut d c).filterMap (fun x => (s.lineFlight x.core x.seq).map (fun f =>
      (s.routeEnd d (copyDest f.card (((dmaTargets f.card)[x.copy]?.map (·.2)).getD (x.core, 0))) 0 % 4, x.core % 16, f.pos)))
    sortBy (fun (x : Nat × Nat × Nat) => x.2.1) l

/-! ## The vector engine's write port (R142, R143, R147, R148, R158) -/

/-- Outputs of a vector engine as due in cycle `c`: the group's report is made in the cycle in which it leaves the pack stage. -/
def State.reportDue (s : State) (g c : Nat) : State :=
  let d := g / 16
  let cl := g % 16
  let outs := (s.core g).vec.outs
  let new := outs.filter (fun o => decide (o.due ≤ c) && !o.offered)
  let s := new.foldl (fun s o =>
    let s := s.orBits (Reg.vecStatus d cl) ((o.bits.eraseDups.map (fun b => 2 ^ b)).sum)
    let s := s.count64 (Reg.vecCount0 d cl) 0 64 (if o.group then 1 else 0)
    (s.count64 (Reg.vecCount1 d cl) 32 32 o.trunc).count64 (Reg.vecCount1 d cl) 0 32 o.sat) s
  let x := s.core g
  s.setCore g { x with vec := { x.vec with outs := outs.map (fun o => if o.due ≤ c then { o with offered := true } else o) } }

/-- One line offered to the write port in cycle `c`: the core, the lines taken so far, and whether it entered its bank's queue. -/
def offerLine (x : CoreState) (c n a : Nat) : CoreState × Bool :=
  if n < 32 && decide (0 < x.freeSlots c) && x.admits (bankOf a) c then (x.enterLine c (bankOf a) false, true) else (x, false)

/-- The lines of an output offered in cycle `c`, the first 32 of the cycle: the core, the number offered, the lines written and
those that wait. -/
def offerLines (c : Nat) : List (Nat × List Byte) → CoreState → Nat → CoreState × Nat × List (Nat × List Byte) × List (Nat × List Byte)
  | [], x, n => (x, n, [], [])
  | l :: t, x, n =>
    let (y, ok) := offerLine x c n l.1
    let (z, k, w, r) := offerLines c t y (n + 1)
    if ok then (z, k, l :: w, r) else (z, k, w, l :: r)

/-- One output in cycle `c`: what enters is written, and with its last line the item is released. -/
def State.portOutput (s : State) (g c : Nat) (acc : State × Nat) (o : VOut) : State × Nat :=
  let (s', n) := acc
  let (x, k, now, rest) := offerLines c o.lines (s'.core g) n
  let part := s.ownerN g
  let s' := s'.setCore g x
  let s' := now.foldl (fun s l =>
    let addrs := (List.range l.2.length).map (l.1 + ·)
    let s := s.writeTimed part (c + 1) rankVector (addrs.zip l.2)
    if o.poisoned then s.poisonAt (addrs.filter (s.mayAccess part true)) else s) s'
  let y := s'.core g
  let y := { y with vec := { y.vec with outs := if rest.isEmpty then y.vec.outs else y.vec.outs ++ [{ o with lines := rest }] } }
  let y := match y.flight o.seq with
    | none => y
    | some f =>
      let f := if rest.isEmpty then { f with placedAt := Tab.put (fun _ => 0) f.placedAt o.iter (max (c + 1) (Tab.get (fun _ => 0) f.placedAt o.iter)) } else f
      y.setFlight (if rest.isEmpty && o.last then { f with relAt := stampAt f.relAt (itemKey o.slot 0 o.iter) (c + 1) } else f)
  (s'.setCore g y, k)

/-- Cycle `c` of the write port of core `g`'s vector engine: up to 32 lines of the outputs that are due, in the slots the engine
lanes leave; a cycle in which one waits counts in PORT_STALL (R143). -/
def State.portCycle (s : State) (g c : Nat) : State :=
  let s := s.reportDue g c
  let x := s.core g
  let due := sortBy (fun (o : VOut) => o.due) (x.vec.outs.filter (fun o => decide (o.due ≤ c)))
  let later := x.vec.outs.filter (fun o => decide (c < o.due))
  let s := s.setCore g { x with vec := { x.vec with outs := [] } }
  let s := (due.foldl (s.portOutput g c) (s, 0)).1
  let y := s.core g
  let s := if y.vec.outs.isEmpty then s else s.count64 (Reg.vecPortStall (g / 16) (g % 16)) 0 64 1
  s.setCore g { s.core g with vec := { y.vec with outs := y.vec.outs ++ later, portAt := c + 1 } }

/-- At most `n` cycles of a vector engine's write port before cycle `cyc`. -/
def State.portRun (s : State) (g cyc : Nat) : Nat → State
  | 0 => s
  | n + 1 =>
    let v := (s.core g).vec
    if v.outs.isEmpty || cyc ≤ v.portAt then s
    else
      -- nothing happens before the first output is due
      let c := max v.portAt ((v.outs.map (·.due)).foldl min cyc)
      if cyc ≤ c then s else (s.portCycle g c).portRun g cyc n

/-- The state in which the write port of core `g`'s vector engine has done every cycle before `cyc`. -/
def State.portTo (s : State) (g cyc : Nat) : State := s.portRun g cyc (cyc - (s.core g).vec.portAt)

/-! ## One cycle, and the cycles up to a command -/

/-- The landings of die `d` in cycle `c`: core memories, buffers and slices, then the egress queues. -/
def State.landings (s : State) (d c : Nat) : State :=
  let m := s.mesh d
  let out := s.dueOut d c
  let due := sortBy (fun (x : Landing) => x.ord) (m.lands.filter (fun x => decide (x.at' ≤ c) && !out.contains x))
  let order (x : Landing) : Nat := nodeNum (coreNode (x.core % 16))
  let base := s.setMesh d { m with lands := m.lands.filter (fun x => decide (c < x.at') || out.contains x) }
  let (s', _, wait) := (sortBy order due).foldl (s.landLine d c) (base, {}, [])
  let s' := s'.setMesh d { s'.mesh d with lands := (s'.mesh d).lands ++ wait }
  (s'.egress d c).getD s'

/-- Cycle `c` of the lines of die `d`, after what the vector engines write in it (R160). -/
def State.meshCycle (s : State) (d c : Nat) : State :=
  let s := (List.range 16).foldl (fun s k => s.portTo (16 * d + k) (c + 1)) s
  let s := (((s.arrivals d c).landings d c).links d c).serveReads d c
  s.setMesh d { s.mesh d with upTo := c + 1 }

/-- At most `n` cycles of the lines of die `d`, from the first one not yet done. -/
def State.meshRun (s : State) (d : Nat) : Nat → State
  | 0 => s
  | n + 1 => if (s.mesh d).idle then s else (s.meshCycle d (s.mesh d).upTo).meshRun d n

/-- The state in which every engine cycle of die `d` before `cyc` is done for the lines of its DMA movers. -/
def State.meshTo (s : State) (d cyc : Nat) : State := s.meshRun d (cyc - (s.mesh d).upTo)

/-- The state in which the units of the die that holds an address have done what they do before noon cycle `t`. -/
def State.caughtUp (s : State) (t a : Nat) : State := if addrDie a < 8 then s.meshTo (addrDie a) (s.engCycle (addrDie a) t) else s

/-- The cycle before which nothing of core memory's write side is asked any more. -/
def Mesh.settled (m : Mesh) (cyc : Nat) : Nat := if m.idle then cyc else min cyc m.upTo

end Sys2Proof.Machine
end

