-- ==== Sys2Proof/Machine/Dma.lean ====
section
/-!
DEFINITION. The DMA mover's items: MOVE, MULTICAST and REDUCE (07_layer_cards.md R193, R197, R198 and R204-R206,
08_flags_ordering_interlocks.md R229, 09_fabric_and_die_links.md R260), and the release of held items (R228, R235).
-/

namespace Sys2Proof.Machine

/-! ## Starting an item -/

/-- A card of the DMA mover. -/
def isMover (card : Nat) : Bool := cardOp card == 3 || cardOp card == 4 || cardOp card == 5

/-- The mover has started every earlier card of its own, or an interlock holds that card's first item (R193, R229). -/
def CoreState.moverTurn (c : CoreState) (f : Flight) (cyc : Nat) : Bool :=
  c.flights.all (fun x => !(isMover x.card && decide (x.seq < f.seq) && x.localAt.isNone && x.started == 0)
    || !(c.heldKinds x 0 none [0, 1] cyc).isEmpty)

/-- The places at which one line of an item comes to stand: target copies on the die, and one egress queue for each source copy and
off-die destination (R246, log entry 35). -/
def itemPlaces (g card : Nat) : Nat :=
  let ts := dmaTargets card
  (ts.filter (fun x => !dstOffDie g card x.2)).length
    + ((List.range (dmaSources card).length).map (fun r =>
        ((ts.filter (fun x => dstOffDie g card x.2 && x.1 == r)).map (fun x => copyDest card x.2)).eraseDups.length)).sum

/-- The off-die target copies of an item: each of its lines is reported once for each (R198, R254). -/
def itemReports (g card : Nat) : Nat := ((dmaTargets card).filter (fun x => dstOffDie g card x.2)).length

/-- The READ_REQ messages of an off-die source item of another die: at most 256 lines each, one TAG for the item. -/
def readReqs (src dest part gen tag : Nat) : Nat → Nat → Nat → List Msg
  | 0, _, _ => []
  | fuel + 1, a, lines =>
    if lines = 0 then []
    else
      let k := min 256 lines
      { kind := 1, src := src, dest := dest,
        body := a % 2 ^ 36 + tag * 2 ^ 36 + part % 64 * 2 ^ 52 + gen * 2 ^ 58 + (k - 1) * 2 ^ 62 }
        :: readReqs src dest part gen tag fuel (a + 32 * k) (lines - k)

/-- The state after an item with its source on core `g`'s die has sent its first request: its reads stand at their sources, and
its lines are counted (R155, R163). -/
def State.startHere (s : State) (g t : Nat) (f : Flight) : State :=
  let d := g / 16
  let cyc := s.engCycle d t
  let card := f.card
  let n := f.started
  let srcs := dmaSources card
  let lines := itemLen card
  let f' := { f with
    started := n + 1, begun := stampAt f.begun n cyc, lastBegun := cyc,
    unread := Tab.put (fun _ => 0) f.unread n (lines * srcs.length), unplaced := Tab.put (fun _ => 0) f.unplaced n (lines * itemPlaces g card),
    awaited := Tab.put (fun _ => 0) f.awaited n (lines * itemReports g card) }
  let s := s.setFlight g f'
  let read (x : Nat × (Nat × Nat)) : SrcRead :=
    { core := g, seq := f.seq, iter := n, copy := x.1,
      from' := cyc + 2 * hops (coreNode (g % 16)) (homeNode (itemAddr card 0 n x.2 0)), todo := List.range lines }
  let m := (s.mesh d).wake cyc
  let s := s.setMesh d { m with reads := m.reads ++ (((List.range srcs.length).zip srcs).map read).filter (fun r => !r.todo.isEmpty) }
  let part := s.ownerN g
  let all (slot : Nat) (p : Nat × Nat) : List Nat := (List.range (descRun (cardDesc card slot))).map (itemAddr card slot n p)
  let s := srcs.foldl (fun s p => s.checkBounds t part false (all 0 p)) s
  ((dmaTargets card).filter (fun x => !dstOffDie g card x.2)).foldl (fun s x => s.checkBounds t part true (all 1 x.2)) s

/-- The state after an item with an off-die source has sent its first request: it takes a tag, and asks the die that holds its
lines; the gateway asks another package (R254, R260, R297). -/
def State.startFar (s : State) (g t : Nat) (f : Flight) : State :=
  let d := g / 16
  let cyc := s.engCycle d t
  let card := f.card
  let n := f.started
  let srcs := dmaSources card
  let lines := itemLen card
  let part := s.ownerN g
  match s.freeTag d with
  | none => s
  | some tag =>
    let s := s.setFlight g { f with
      started := n + 1, begun := stampAt f.begun n cyc, lastBegun := cyc,
      awaited := Tab.put (fun _ => 0) f.awaited n (lines * srcs.length), tags := f.tags ++ [(tag, n)] }
    if descRemote (cardDesc card 0) then s
    else
      let dest := descLc (cardDesc card 0) / 16
      srcs.foldl (fun s p =>
        (readReqs d dest part (s.gen part) tag (lines + 1) (itemAddr card 0 n p 0) lines).foldl (fun s m => s.routeMsg d m) s) s

/-- DMA_ITEM_START: the next item of the card at position `pos` of core `g` sends its first request (R193, R229). -/
def dmaItemStart (g pos t : Nat) (s : State) : State :=
  let d := g / 16
  let cyc := s.engCycle d t
  let s := s.meshTo d cyc
  let c := s.core g
  match c.flightAt pos with
  | none => s
  | some f =>
    let held := !(c.heldKinds f f.started none [0, 1] cyc).isEmpty
    if !s.dieRuns d t || !isMover f.card || cardIters f.card ≤ f.started || cyc ≤ f.issue || held || !c.moverTurn f cyc then s
    else if srcOffDie g f.card then s.startFar g t f
    else s.startHere g t f

/-! ## The end of an item -/

/-- Item `n` of a flight has been read, and stands at every target on its die or in its egress queues by cycle `cyc`; one with an
off-die source has all its lines (Table 7-10). -/
def Flight.itemEnded (f : Flight) (g n cyc : Nat) : Bool :=
  Tab.get (fun _ => 0) f.unread n == 0 && Tab.get (fun _ => 0) f.unplaced n == 0
    && decide (Tab.get (fun _ => 0) f.placedAt n ≤ cyc) && (!srcOffDie g f.card || Tab.get (fun _ => 0) f.awaited n == 0)

/-- The bytes held for a source copy of an item. -/
def Flight.held (f : Flight) (n i : Nat) : List Byte := Tab.get (fun _ => []) f.fetched (fetchKey n i)

/-- The flight after its oldest item under way has ended: what its targets received joins the digest string (R277). -/
def Flight.endItem (f : Flight) : Flight :=
  let n := f.done
  let run := descRun (cardDesc f.card 0)
  let f := (List.range (dmaSources f.card).length).foldl (fun f i => f.record n 1 i ((f.held n i).take run)) { f with done := n + 1 }
  { f with fetched := f.fetched.filter (fun e => e.1 / 8192 != n) }

/-- DMA_ITEM_COMPLETE: the oldest item under way of the card at position `pos` of core `g` is locally complete in this cycle, and
gives its EACH signals (R197, R198). A line that enters its egress queue in this very cycle counts. -/
def dmaItemComplete (g pos t : Nat) (s : State) : State :=
  let d := g / 16
  let cyc := s.engCycle d t
  let s := s.meshTo d cyc
  match (s.core g).flightAt pos, ((s.meshTo d (cyc + 1)).core g).flightAt pos with
  | some f, some y =>
    if !s.dieRuns d t || !isMover f.card || f.started ≤ f.done || !y.itemEnded g f.done cyc || !s.signalsFit g f.card 2 then s
    else (s.setFlight g f.endItem).giveSignals g f.card 2 t
  | _, _ => s

/-! ## INTERLOCK_RELEASE (R228, R229, R235, R236) -/

/-- The item of flight `f` of core `g` that its unit takes next, on engine `e` for a MATMUL card: its iteration, and the engine
cycle in which it would start were nothing held (R111, R141, R193; for items of one DMA card the cycle after the one before,
log entry 40). -/
def CoreState.nextItem (c : CoreState) (f : Flight) (e : Nat) : Option (Nat × Nat) :=
  if cardOp f.card = 1 then
    let x := c.eng e
    match c.nextPass e with
    | some (y, n) =>
      if y.seq ≠ f.seq then none
      else (x.terms f n).map (fun (e1, fT, b, p) => (n, max (max e1 fT) (max b p) - 4 - mmS f.card))
    | none => none
  else if cardOp f.card = 2 then
    if c.vec.run = some f.seq ∧ c.vec.group = 0 then some (c.vec.iter, max c.vec.due (f.issue + 1)) else none
  else if f.started < cardIters f.card then some (f.started, if f.started = 0 then f.issue + 1 else max f.lastBegun f.issue + 1)
  else none

/-- Key under which a flight keeps the cycle that a held item was released in. -/
def releaseKey (n e : Nat) : Nat := itemKey 3 e n + 2 ^ 64

/-- INTERLOCK_RELEASE: the next item of the card at `pos` of core `g` (its pass on engine `e` for a MATMUL card), which an interlock
has held past the cycle of its start, is released: the firing counts under the kind that released last (R228, R235). -/
def interlockRelease (g pos e t : Nat) (s : State) : State :=
  let d := g / 16
  let cyc := s.engCycle d t
  let s := s.meshTo d cyc
  let c := s.core g
  match c.flightAt pos with
  | none => s
  | some f =>
    match c.nextItem f e with
    | none => s
    | some (n, since) =>
      let eng := if cardOp f.card = 1 then some e else none
      let slots := upto 4 (fun i => (slotUse f.card i).isSome)
      let heldAt (x : Nat) : List Nat := c.heldKinds f n eng slots x
      let again := (Tab.get (fun _ => none) f.begun (releaseKey n (keyEng f.card e))).isSome
      match ((List.range (cyc + 1 - since)).map (since + ·)).find? (fun x => (heldAt x).isEmpty) with
      | none => s
      | some r =>
        if !s.dieRuns d t || again || r ≤ since then s
        else
          let kind := minKind (heldAt (r - 1))
          let slot := (slots.find? (fun i => (c.heldKinds f n eng [i] (r - 1)).contains kind)).getD 0
          let s := s.setFlight g { f with begun := stampAt f.begun (releaseKey n (keyEng f.card e)) r }
          let s := if cardOp f.card = 1 then s.setCore g ((s.core g).setEng e { (s.core g).eng e with relAt := r }) else s
          s.firing g r kind slot (r - since) pos

/-! ## Meanings -/

/-- DMA_ITEM_START. -/
def execDmaItemStart (d : Fin 8) (c : Fin 16) (pos t : Nat) (upset : List (BitVec 37)) (s : State) : Host.Outcome State Fault Refusal :=
  .next (dmaItemStart (16 * d + c) pos t (s.upset upset))
/-- DMA_ITEM_COMPLETE. -/
def execDmaItemComplete (d : Fin 8) (c : Fin 16) (pos t : Nat) (s : State) : Host.Outcome State Fault Refusal :=
  .next (dmaItemComplete (16 * d + c) pos t s)
/-- INTERLOCK_RELEASE. -/
def execInterlockRelease (d : Fin 8) (c : Fin 16) (pos : Nat) (e : Fin 64) (t : Nat) (s : State) :
    Host.Outcome State Fault Refusal := .next (interlockRelease (16 * d + c) pos e t s)

end Sys2Proof.Machine
end

