-- ==== Sys2Proof/Machine/Crypto.lean ====
section
/-!
DEFINITION. The standard functions that the spec names: SHA-384 (FIPS 180-4), ECDSA P-384 verification (FIPS 186-5) and
SipHash-2-4 (R394). Digests are byte lists in the order of the standard.
-/

namespace Sys2Proof

/-! ## SHA-384 -/

/-- Round constants, part 0. -/
def sha384K0 : List W64 := [
  0x428A2F98D728AE22, 0x7137449123EF65CD, 0xB5C0FBCFEC4D3B2F, 0xE9B5DBA58189DBBC,
  0x3956C25BF348B538, 0x59F111F1B605D019, 0x923F82A4AF194F9B, 0xAB1C5ED5DA6D8118,
  0xD807AA98A3030242, 0x12835B0145706FBE, 0x243185BE4EE4B28C, 0x550C7DC3D5FFB4E2,
  0x72BE5D74F27B896F, 0x80DEB1FE3B1696B1, 0x9BDC06A725C71235, 0xC19BF174CF692694,
  0xE49B69C19EF14AD2, 0xEFBE4786384F25E3, 0x0FC19DC68B8CD5B5, 0x240CA1CC77AC9C65]

/-- Round constants, part 1. -/
def sha384K1 : List W64 := [
  0x2DE92C6F592B0275, 0x4A7484AA6EA6E483, 0x5CB0A9DCBD41FBD4, 0x76F988DA831153B5,
  0x983E5152EE66DFAB, 0xA831C66D2DB43210, 0xB00327C898FB213F, 0xBF597FC7BEEF0EE4,
  0xC6E00BF33DA88FC2, 0xD5A79147930AA725, 0x06CA6351E003826F, 0x142929670A0E6E70,
  0x27B70A8546D22FFC, 0x2E1B21385C26C926, 0x4D2C6DFC5AC42AED, 0x53380D139D95B3DF,
  0x650A73548BAF63DE, 0x766A0ABB3C77B2A8, 0x81C2C92E47EDAEE6, 0x92722C851482353B]

/-- Round constants, part 2. -/
def sha384K2 : List W64 := [
  0xA2BFE8A14CF10364, 0xA81A664BBC423001, 0xC24B8B70D0F89791, 0xC76C51A30654BE30,
  0xD192E819D6EF5218, 0xD69906245565A910, 0xF40E35855771202A, 0x106AA07032BBD1B8,
  0x19A4C116B8D2D0C8, 0x1E376C085141AB53, 0x2748774CDF8EEB99, 0x34B0BCB5E19B48A8,
  0x391C0CB3C5C95A63, 0x4ED8AA4AE3418ACB, 0x5B9CCA4F7763E373, 0x682E6FF3D6B2B8A3,
  0x748F82EE5DEFB2FC, 0x78A5636F43172F60, 0x84C87814A1F0AB72, 0x8CC702081A6439EC]

/-- Round constants, part 3. -/
def sha384K3 : List W64 := [
  0x90BEFFFA23631E28, 0xA4506CEBDE82BDE9, 0xBEF9A3F7B2C67915, 0xC67178F2E372532B,
  0xCA273ECEEA26619C, 0xD186B8C721C0C207, 0xEADA7DD6CDE0EB1E, 0xF57D4F7FEE6ED178,
  0x06F067AA72176FBA, 0x0A637DC5A2C898A6, 0x113F9804BEF90DAE, 0x1B710B35131C471B,
  0x28DB77F523047D84, 0x32CAAB7B40C72493, 0x3C9EBE0A15C9BEBC, 0x431D67C49C100D4C,
  0x4CC5D4BECB3E42B6, 0x597F299CFC657E2A, 0x5FCB6FAB3AD6FAEC, 0x6C44198C4A475817]

/-- The round constants. -/
def sha384K : List W64 := sha384K0 ++ sha384K1 ++ sha384K2 ++ sha384K3

/-- The eight working words. -/
structure ShaState where
  a : W64
  b : W64
  c : W64
  d : W64
  e : W64
  f : W64
  g : W64
  h : W64
  deriving DecidableEq, Repr

/-- The initial value. -/
def sha384Init : ShaState :=
  ⟨0xCBBB9D5DC1059ED8, 0x629A292A367CD507, 0x9159015A3070DD17, 0x152FECD8F70E5939,
   0x67332667FFC00B31, 0x8EB44A8768581511, 0xDB0C2E0D64F98FA7, 0x47B5481DBEFA4FA4⟩

/-- One round. -/
def shaRound (s : ShaState) (k w : W64) : ShaState :=
  let s1 := s.e.rotateRight 14 ^^^ s.e.rotateRight 18 ^^^ s.e.rotateRight 41
  let ch := (s.e &&& s.f) ^^^ (~~~s.e &&& s.g)
  let t1 := s.h + s1 + ch + k + w
  let s0 := s.a.rotateRight 28 ^^^ s.a.rotateRight 34 ^^^ s.a.rotateRight 39
  let maj := (s.a &&& s.b) ^^^ (s.a &&& s.c) ^^^ (s.b &&& s.c)
  ⟨t1 + s0 + maj, s.a, s.b, s.c, s.d + t1, s.e, s.f, s.g⟩

/-- The word that follows sixteen words of the message schedule. -/
def shaNext (w : List W64) : W64 :=
  match w with
  | w0 :: w1 :: r =>
    let w9 := (r[7]?).getD 0
    let w14 := (r[12]?).getD 0
    let s0 := w1.rotateRight 1 ^^^ w1.rotateRight 8 ^^^ (w1 >>> 7)
    let s1 := w14.rotateRight 19 ^^^ w14.rotateRight 61 ^^^ (w14 >>> 6)
    s1 + w9 + s0 + w0
  | _ => 0

/-- The rounds over the constants that remain, with the window of sixteen schedule words. -/
def shaRounds : List W64 → List W64 → ShaState → ShaState
  | [], _, s => s
  | k :: ks, w, s => shaRounds ks (w.drop 1 ++ [shaNext w]) (shaRound s k (w.headD 0))

/-- One block of sixteen words. -/
def shaBlock (s : ShaState) (w : List W64) : ShaState :=
  let r := shaRounds sha384K w s
  ⟨s.a + r.a, s.b + r.b, s.c + r.c, s.d + r.d, s.e + r.e, s.f + r.f, s.g + r.g, s.h + r.h⟩

/-- The number a big-endian byte list spells. -/
def beNat (bs : List Byte) : Nat := bs.foldl (fun n b => n * 256 + b.toNat) 0

/-- The `k` big-endian bytes of a number. -/
def beBytes (k n : Nat) : List Byte := (leBytes k n).reverse

/-- The big-endian 64-bit words of a byte list. -/
def shaWords : Nat → List Byte → List W64
  | 0, _ => []
  | n + 1, bs => BitVec.ofNat 64 (beNat (bs.take 8)) :: shaWords n (bs.drop 8)

/-- The blocks of a padded message. -/
def shaBlocks : Nat → List Byte → ShaState → ShaState
  | 0, _, s => s
  | n + 1, bs, s => shaBlocks n (bs.drop 128) (shaBlock s (shaWords 16 (bs.take 128)))

/-- SHA-384 of a byte string, 48 bytes. -/
def sha384 (m : List Byte) : List Byte :=
  let n := m.length
  let z := (239 - n % 128) % 128
  let p := m ++ [0x80] ++ List.replicate z 0 ++ beBytes 16 (8 * n)
  let s := shaBlocks (p.length / 128) p sha384Init
  ([s.a, s.b, s.c, s.d, s.e, s.f].map (fun w => beBytes 8 w.toNat)).flatten

/-! ## ECDSA P-384 -/

/-- The prime of the field. -/
def p384p : Nat := 2 ^ 384 - 2 ^ 128 - 2 ^ 96 + 2 ^ 32 - 1
/-- The order of the base point. -/
def p384n : Nat := 0xFFFFFFFFFFFFFFFFFFFFFFFFFFFFFFFFFFFFFFFFFFFFFFFFC7634D81F4372DDF581A0DB248B0A77AECEC196ACCC52973
/-- The coefficient b. -/
def p384b : Nat := 0xB3312FA7E23EE7E4988E056BE3F82D19181D9C6EFE8141120314088F5013875AC656398D8A2ED19D2A85C8EDD3EC2AEF
/-- The base point. -/
def p384g : Nat × Nat :=
  (0xAA87CA22BE8B05378EB1C71EF320AD746E1D3B628BA79B9859F741E082542A385502F25DBF55296C3A545E3872760AB7,
   0x3617DE4A96262C6F5D9E98BF9292DC29F8F41DBD289A147CE9DA3113B5F0B8C00A60B1CE1D7E819D7A431D7C90EA0E5F)

/-- `a ^ e` modulo `m`, over the low `k` bits of `e`. -/
def powMod (m : Nat) : Nat → Nat → Nat → Nat
  | 0, _, _ => 1 % m
  | k + 1, a, e => (if e % 2 = 1 then a else 1) * powMod m k (a * a % m) (e / 2) % m

/-- The inverse modulo a prime of at most 384 bits. -/
def invMod (m a : Nat) : Nat := powMod m 384 (a % m) (m - 2)

/-- The sum of two points of the curve; `none` is the point at infinity. -/
def p384Add (x y : Option (Nat × Nat)) : Option (Nat × Nat) :=
  match x, y with
  | none, _ => y
  | _, none => x
  | some (x1, y1), some (x2, y2) =>
    let slope : Option Nat :=
      if x1 ≠ x2 then some ((y2 + p384p - y1) * invMod p384p (x2 + p384p - x1) % p384p)
      else if y1 = y2 ∧ y1 ≠ 0 then some ((3 * x1 * x1 + p384p - 3) * invMod p384p (2 * y1) % p384p)
      else none
    match slope with
    | none => none
    | some l =>
      let x3 := (l * l + 2 * p384p - x1 - x2) % p384p
      some (x3, (l * (x1 + p384p - x3) + p384p - y1) % p384p)

/-- `k` times a point, over the low `n` bits of `k`. -/
def p384Mul : Nat → Nat → Option (Nat × Nat) → Option (Nat × Nat)
  | 0, _, _ => none
  | n + 1, k, p =>
    let r := p384Mul n (k / 2) (p384Add p p)
    if k % 2 = 1 then p384Add p r else r

/-- The point is on the curve. -/
def p384On (q : Nat × Nat) : Bool :=
  q.1 < p384p && q.2 < p384p && q.2 * q.2 % p384p == (q.1 * q.1 % p384p * q.1 + (p384p - 3) * q.1 + p384b) % p384p

/-- Verification of a signature r then s, 48 bytes each, big-endian, over SHA-384 of a message, by a SEC1 uncompressed key of
97 bytes (R356, FIPS 186-5). -/
def ecdsaVerify (key sig msg : List Byte) : Bool :=
  let q := (beNat ((key.drop 1).take 48), beNat ((key.drop 49).take 48))
  let r := beNat (sig.take 48)
  let t := beNat ((sig.drop 48).take 48)
  if key.length ≠ 97 ∨ sig.length ≠ 96 ∨ key.headD 0 ≠ 4 then false
  else if !(p384On q) || r = 0 || p384n ≤ r || t = 0 || p384n ≤ t then false
  else
    let w := invMod p384n t
    let e := beNat (sha384 msg)
    match p384Add (p384Mul 384 (e * w % p384n) (some p384g)) (p384Mul 384 (r * w % p384n) (some q)) with
    | none => false
    | some (x, _) => x % p384n == r

/-! ## SipHash-2-4 -/

/-- One SipRound. -/
def sipRound (v : W64 × W64 × W64 × W64) : W64 × W64 × W64 × W64 :=
  let (v0, v1, v2, v3) := v
  let v0 := v0 + v1
  let v1 := v1.rotateLeft 13 ^^^ v0
  let v0 := v0.rotateLeft 32
  let v2 := v2 + v3
  let v3 := v3.rotateLeft 16 ^^^ v2
  let v0 := v0 + v3
  let v3 := v3.rotateLeft 21 ^^^ v0
  let v2 := v2 + v1
  let v1 := v1.rotateLeft 17 ^^^ v2
  let v2 := v2.rotateLeft 32
  (v0, v1, v2, v3)

/-- The compression of one word. -/
def sipWord (v : W64 × W64 × W64 × W64) (m : W64) : W64 × W64 × W64 × W64 :=
  let (v0, v1, v2, v3) := v
  let (v0, v1, v2, v3) := sipRound (sipRound (v0, v1, v2, v3 ^^^ m))
  (v0 ^^^ m, v1, v2, v3)

/-- Little-endian 64-bit words of a byte list. -/
def sipWords : Nat → List Byte → List W64
  | 0, _ => []
  | n + 1, bs => BitVec.ofNat 64 (leNat (bs.take 8)) :: sipWords n (bs.drop 8)

/-- SipHash-2-4 of a byte string under the key k0, k1 (R394). -/
def siphash24 (k0 k1 : W64) (m : List Byte) : Nat :=
  let n := m.length
  let last := BitVec.ofNat 64 (leNat (m.drop (n / 8 * 8)) + n % 256 * 2 ^ 56)
  let v := (k0 ^^^ 0x736F6D6570736575, k1 ^^^ 0x646F72616E646F6D, k0 ^^^ 0x6C7967656E657261, k1 ^^^ 0x7465646279746573)
  let v := (sipWords (n / 8) m ++ [last]).foldl sipWord v
  let (v0, v1, v2, v3) := v
  let (v0, v1, v2, v3) := sipRound (sipRound (sipRound (sipRound (v0, v1, v2 ^^^ 0xFF, v3))))
  (v0 ^^^ v1 ^^^ v2 ^^^ v3).toNat

end Sys2Proof
end

