-- ==== Sys2Proof/Machine/Meter.lean ====
section
/-!
DEFINITION. The Metering Unit: taps, intervals, records, the audit log and the meter descriptors (19_metering_unit.md).
-/

namespace Sys2Proof.Machine

/-! ## Package states -/

/-- The package is in Noon (Table 16-1): PWR_STATE reads Noon and its Dawn has ended DONE. -/
def State.inNoon (s : State) : Bool := s.f32 Reg.pwrState 0 2 == 0 && s.f32 Reg.dawnStatus 28 2 == 1

/-! ## Clock and audit log (R491, R500, R501) -/

/-- The state with MU_TICK at a count. -/
def State.muAt (s : State) (tick : Nat) : State := s.w64 Reg.muTick tick

/-- The state with the meter's record replaced. -/
def State.setMeter (s : State) (m : Meter) : State := { s with meter := m }

/-- An audit entry of a KIND with its seven DATA bytes is written (Table 19-5). -/
def State.audit (s : State) (kind data : Nat) : State :=
  if !s.meter.powered then s
  else
    let m := s.meter
    let e := m.auditSeq + s.r64 Reg.muTick * 2 ^ 64 + m.number * 2 ^ 128 + kind * 2 ^ 192 + data % 2 ^ 56 * 2 ^ 200
    let log := m.audit ++ [(m.auditSeq, e)]
    (s.setMeter { m with audit := if 1024 < log.length then log.drop 1 else log, auditSeq := m.auditSeq + 1,
                         chain := sha384 (m.chain ++ leBytes 32 e) }).w64 (Reg.muAuditCount kind) (s.r64 (Reg.muAuditCount kind) + 1)

/-! ## Taps (R494, R495) -/

/-- MACs of one accumulation cycle of an engine (Table 1-2) for two input formats of given widths. -/
def macsPerCycle (width : Nat) : Nat := if width ≤ 4 then 2048 else if width ≤ 8 then 1024 else 256

/-- The MAC tap of die `d` counts an accumulation cycle of a pass under a format code (R494). -/
def State.tapMacs (s : State) (d fmt width : Nat) : State :=
  if !s.meter.powered then s
  else
    let m := s.meter
    let k := 16 * d + fmt
    s.setMeter { m with macs := Tab.put (fun _ => 0) m.macs k (Tab.get (fun _ => 0) m.macs k + macsPerCycle width) }

/-- The token tap counts a token record of partition `n` (R495). -/
def State.tapToken (s : State) (n : Nat) : State :=
  if !s.meter.powered then s
  else
    let m := s.meter
    s.setMeter { m with tokens := Tab.put (fun _ => 0) m.tokens n (Tab.get (fun _ => 0) m.tokens n + 1), tokensAll := m.tokensAll + 1 }

/-! ## Intervals (R496, R497) -/

/-- Counts by format code of the dies of a list, added to counts. -/
def sumMacs (macs : Tab Nat) (dies : List Nat) (acc : Tab Nat) : Tab Nat :=
  macs.foldl (fun acc e => if e.1 / 16 ∈ dies then Tab.put (fun _ => 0) acc (e.1 % 16) (Tab.get (fun _ => 0) acc (e.1 % 16) + e.2) else acc) acc

/-- Die `d` latches its MAC tap for the oldest closed interval that waits for it (R497). -/
def State.latchDie (s : State) (d : Nat) : State :=
  let m := s.meter
  match m.closed.find? (fun c => decide (d ∈ c.waiting)) with
  | none => s
  | some c =>
    let c' := { c with macs := sumMacs m.macs [d] c.macs, waiting := c.waiting.filter (fun x => x != d) }
    s.setMeter { m with macs := m.macs.filter (fun e => e.1 / 16 != d),
                        closed := m.closed.map (fun x => if x.number = c.number then c' else x) }

/-- The open interval closes for a reason of Table 19-3 at MU_TICK `tick`, and the next one opens (R496). `late` are the dies
that latch later; `missing` says that a die was absent or in reset. -/
def State.closeInterval (s : State) (close tick : Nat) (late : List Nat) (missing : Bool) : State :=
  let s := s.muAt tick
  if !s.meter.powered then s
  else
    let s := (List.range 8).foldl (fun s d => s.latchDie d) s
    let m := s.meter
    -- at the opening of a window a die out of service contributes zero; its tap keeps its counts
    let now := (List.range 8).filter (fun d => decide (d ∉ late) && (close != 0 || decide ((s.die d).cond = .inService)))
    let flags := (if m.own then 4 else 0) + (if m.calFault then 8 else 0) + (if missing then 16 else 0)
    let c : Closed := ⟨close, flags, m.number, m.first, tick, if close = 0 then s.hourCount + 1 else 0, m.epoch,
      sumMacs m.macs now [], m.tokens, late⟩
    let s := s.setMeter { m with number := m.number + 1, first := tick, epoch := s.r64 Reg.secTenant, due := false,
                                 own := bitAt (s.r32 Reg.muStatus) 4, macs := m.macs.filter (fun e => decide (e.1 / 16 ∉ now)),
                                 tokens := [], closed := m.closed ++ [c] }
    s.set32 Reg.muStatus 5

/-- An EPOCH closure before a scrub (R496): the next interval opens under the new epoch. -/
def State.closeEpoch (s : State) (tick newEpoch : Nat) : State :=
  let s := s.closeInterval 4 tick [] false
  if s.meter.powered then s.setMeter { s.meter with epoch := newEpoch } else s

/-- SECOND_BOUNDARY: MU_TICK reaches a multiple of 50,000,000 (R496). -/
def secondBoundary (tick : Nat) (s : State) : State :=
  let s := s.muAt tick
  if !s.meter.powered then s
  else if s.inNoon then s.setMeter { s.meter with due := true }
  else s.closeInterval 2 tick [] false

/-- LATE_CLOSE: 100 ms have passed since the second boundary without a window (Table 19-3). -/
def lateClose (tick : Nat) (s : State) : State :=
  if !s.meter.powered || !s.meter.due then s
  else
    let s := (s.closeInterval 1 tick [] false).audit 0x0A 100
    s.count64 Reg.muCount 0 32 1

/-! ## Records (R498, R499) -/

/-- HELD of MU_STATUS. -/
def heldCode (unread : Nat) : Nat := if unread = 0 then 0 else if unread < 32 then 1 else if unread < 64 then 2 else 3

/-- The state with HELD set from the records held. -/
def State.putHeld (s : State) : State :=
  s.sf32 Reg.muStatus 6 2 (heldCode ((s.meter.records.filter (fun r => !r.read)).length))

/-- The bits of 48 fresh free bytes and more: `n` draws of 64 bits (log entry 4). -/
def State.drawWide (s : State) : Nat → Nat × State
  | 0 => (0, s)
  | n + 1 => let (x, s') := s.drawn.drawWide n; (s.freeNat 64 + 2 ^ 64 * x, s')

/-- FLAGS bits RANGE_LOW and RANGE_HIGH (Table 19-2) of an interval's energy in uJ and length in ticks. -/
def rangeFlags (energy ticks : Nat) : Nat :=
  if 50 * energy < 200 * ticks then 1 else if 2200 * ticks < 50 * energy then 2 else 0

/-- The first 928 bytes of a record (Table 19-4) from a closed interval and the sixteen rails' energies in uJ. -/
def recordBody (c : Closed) (m : Meter) (energies : List Nat) (flags energy : Nat) : List Byte :=
  let e (i : Nat) : Nat := energies[i]?.getD 0
  leBytes 4 0x5254454D ++ leBytes 2 1 ++ leBytes 1 c.close ++ leBytes 1 flags ++ leBytes 8 Config.serial.toNat
    ++ leBytes 8 m.bootId ++ leBytes 8 c.number ++ leBytes 8 c.first ++ leBytes 8 c.last ++ leBytes 8 c.hour ++ leBytes 8 c.epoch
    ++ ((List.range 16).map (fun i => leBytes 8 (e i))).flatten ++ leBytes 8 (energy / 1000)
    ++ ((List.range 10).map (fun f => leBytes 8 (Tab.get (fun _ => 0) c.macs f))).flatten
    ++ ((List.range 64).map (fun n => leBytes 4 (Tab.get (fun _ => 0) c.tokens n))).flatten
    ++ leBytes 8 m.tokensAll ++ leBytes 8 m.auditSeq ++ m.chain ++ m.prev ++ List.replicate 280 0

/-- RECORD_SEAL: the oldest closed interval that every die has latched is sealed with the energies of its rails (R498). The
signature is a free value (log entry 4). -/
def recordSeal (energies : List Nat) (s : State) : State :=
  match s.meter.closed with
  | [] => s
  | c :: rest =>
    if !s.meter.powered || !c.waiting.isEmpty then s
    else
      let s := if 0 < s.meter.lost then
          let s := s.audit 0x0B s.meter.lost
          s.setMeter { s.meter with lost := 0 }
        else s
      let total := (energies.take 16).sum
      let m := s.meter
      let flags := c.flags + rangeFlags total (c.last - c.first)
      let body := recordBody c m energies flags (m.energy + total)
      let (sig, s) := s.drawWide 12
      let bytes := body ++ leBytes 96 sig
      let full := m.records ++ [⟨c.number, leNat bytes, false⟩]
      let dropped := decide (64 < full.length) && (match m.records.head? with | some r => !r.read | none => false)
      let s := s.setMeter { m with closed := rest, records := if 64 < full.length then full.drop 1 else full, prev := sha384 bytes,
                                   energy := m.energy + total, lost := m.lost + (if dropped then 1 else 0) }
      let s := if dropped then s.count64 Reg.muCount 32 32 1 else s
      let s := (s.w64 Reg.muLast c.number).sf32 Reg.muStatus 5 1 (if rest.isEmpty then 0 else 1)
      let s := s.sf32 Reg.muStatus 1 1 (if c.close = 1 then 1 else 0)
      let s := s.sf32 Reg.muStatus 2 1 (if flags % 4 = 0 then 0 else 1)
      (s.putHeld).postEvent 0x0130 0xFF 8 (c.number + c.close * 2 ^ 64 + flags * 2 ^ 72)

/-! ## Power (R491, R492) -/

/-- The meter's registers after its island has lost or just received power: every count 0. -/
def State.clearMeter (s : State) : State :=
  let s := ((((s.w32 Reg.muStatus 0).w64 Reg.muLast 0).w64 Reg.muCount 0).w64 Reg.muTick 0)
  (List.range 11).foldl (fun s k => s.w64 (Reg.muAuditCount (k + 1)) 0) s

/-- MU_POWER_UP: VDD_MU is applied; `fault` is the outcome of the self-check: 0 pass, 1 ROM digest, 2 MU_CAL (R492). -/
def muPowerUp (fault : Nat) (s : State) : State :=
  if s.meter.powered then s
  else
    let s := s.clearMeter
    let boot := s.freeNat 64
    let s := s.drawn
    let s := s.setMeter { powered := true, bootId := boot, epoch := s.r64 Reg.secTenant, calFault := fault != 0 }
    let s := s.audit 0x01 (boot % 2 ^ 56)
    let s := if fault = 0 then s else (s.audit 0x02 fault).set32 Reg.muStatus 3
    s.set32 Reg.muStatus 0

/-- MU_CLOCK_SWITCH: MU_TICK changes between the always-on clock and the island oscillator (R491). -/
def muClockSwitch (own : Bool) (tick : Nat) (s : State) : State :=
  let s := s.muAt tick
  if !s.meter.powered || bitAt (s.r32 Reg.muStatus) 4 == own then s
  else
    let s := s.setMeter { s.meter with own := s.meter.own || own }
    (s.sf32 Reg.muStatus 4 1 (if own then 1 else 0)).audit 0x09 (if own then 1 else 0)

/-- VDD_MU_REMOVAL: the meter loses its counters, records and audit log (R492). -/
def vddMuRemoval (s : State) : State := s.clearMeter.setMeter {}

/-! ## Descriptors (R502) -/

/-- A meter command whose destination holds `data`: written where it fits, else BAD_FIELD with the bytes needed. -/
def State.muAnswer (s : State) (d : Desc) (ok : Bool) (data : List Byte) (r0 r1 : Nat) : State :=
  if !ok then s.complete 0 d.cmdId 0x11 0 0
  else if d.f 28 4 < data.length then s.complete 0 d.cmdId 0x11 data.length 0
  else
    let s := if data.isEmpty then s else s.emit (.hostWrite (d.f 8 8) data.length (leNat data))
    s.complete 0 d.cmdId 0 r0 r1

/-- The reserved bytes of a meter descriptor are 0 and COUNT is in range. -/
def muFieldsOk (d : Desc) (most : Nat) : Bool :=
  1 ≤ d.f 24 2 && d.f 24 2 ≤ most && d.zero 26 28 && d.zero 32 64

/-- MU_RECORDS (Table 19-7). Records written count as read. -/
def muRecords (d : Desc) (s : State) : State :=
  let rs := (s.meter.records.filter (fun r => decide (d.f 16 8 ≤ r.number))).take (d.f 24 2)
  let low := match s.meter.records.head? with | some r => r.number | none => 0
  let ok := muFieldsOk d 64
  let s' := s.muAnswer d ok ((rs.map (fun r => leBytes 1024 r.bytes)).flatten) rs.length low
  if ok && 1024 * rs.length ≤ d.f 28 4 then
    (s'.setMeter { s'.meter with records := s'.meter.records.map (fun r => if rs.any (fun x => x.number == r.number) then { r with read := true } else r) }).putHeld
  else s'

/-- MU_AUDIT (Table 19-7). -/
def muAudit (d : Desc) (s : State) : State :=
  let es := (s.meter.audit.filter (fun e => decide (d.f 16 8 ≤ e.1))).take (d.f 24 2)
  let low := match s.meter.audit.head? with | some e => e.1 | none => 0
  s.muAnswer d (muFieldsOk d 1024) ((es.map (fun e => leBytes 32 e.2)).flatten) es.length low

/-- A stored text of the meter returned whole (Table 19-7). -/
def muText (d : Desc) (text : List Byte) (s : State) : State :=
  s.muAnswer d (d.zero 16 28 && d.zero 32 64) text text.length 0

/-! ## Meanings -/

/-- MU_POWER_UP. -/
def execMuPowerUp (fault : Fin 3) (s : State) : Host.Outcome State Fault Refusal := .next (muPowerUp fault s)
/-- MU_CLOCK_SWITCH. -/
def execMuClockSwitch (own : Bool) (tick : Nat) (s : State) : Host.Outcome State Fault Refusal := .next (muClockSwitch own tick s)
/-- SECOND_BOUNDARY. -/
def execSecondBoundary (tick : Nat) (s : State) : Host.Outcome State Fault Refusal := .next (secondBoundary tick s)
/-- LATE_CLOSE. -/
def execLateClose (tick : Nat) (s : State) : Host.Outcome State Fault Refusal := .next (lateClose tick s)
/-- RECORD_SEAL. -/
def execRecordSeal (energies : List Nat) (s : State) : Host.Outcome State Fault Refusal := .next (recordSeal energies s)
/-- VDD_MU_REMOVAL. -/
def execVddMuRemoval (s : State) : Host.Outcome State Fault Refusal := .next (vddMuRemoval s)
/-- MU_RECORDS. -/
def execMuRecords (d : Desc) (s : State) : Host.Outcome State Fault Refusal := .next (muRecords d s)
/-- MU_AUDIT. -/
def execMuAudit (d : Desc) (s : State) : Host.Outcome State Fault Refusal := .next (muAudit d s)
/-- MU_CERT: the meter certificate (Table 19-7). -/
def execMuCert (d : Desc) (s : State) : Host.Outcome State Fault Refusal := .next (muText d (Config.storedText 1) s)
/-- MU_CAL_REPORT: the calibration report (Table 19-7). -/
def execMuCalReport (d : Desc) (s : State) : Host.Outcome State Fault Refusal := .next (muText d (Config.storedText 2) s)

end Sys2Proof.Machine
end

