-- ==== Sys2Proof/Machine/Ramp.lean ====
section
/-!
DEFINITION. The current-ramp limiter of a die (16_clocks_power_sleep.md R421-R423). It changes wall time only; the model keeps its
loads, its demand and the count of stretched cycles.
-/

namespace Sys2Proof.Machine

/-- The limiter of die `d`. -/
def State.ramp (s : State) (d : Nat) : Ramp := Tab.get (fun _ => {}) s.power.ramp d
/-- The state with the limiter of die `d` replaced. -/
def State.setRamp (s : State) (d : Nat) (r : Ramp) : State :=
  { s with power := { s.power with ramp := Tab.put (fun _ => {}) s.power.ramp d r } }

/-- D(c) of the limiter's cycle `c` (R421). -/
def Ramp.demand (r : Ramp) (c : Nat) : Nat :=
  r.units + 4 * (r.busy.filter (fun e => decide (e.2.1 ≤ c) && decide (c ≤ e.2.2))).length

/-- The limiter after its present cycle, and whether the cycle is stretched (R421, R422). -/
def Ramp.cycle (r : Ramp) (stepUp fall : Nat) : Ramp × Bool :=
  let rl := max (r.demand r.at') (r.rl - fall)
  let el := min rl (r.el + stepUp)
  ({ r with at' := r.at' + 1, units := 0, rl := rl, el := el }, decide (0 < el) && decide (el < rl))

/-- The limiter after `n` cycles, with the stretched ones counted on to `k`. -/
def Ramp.run (stepUp fall : Nat) : Nat → Ramp → Nat → Ramp × Nat
  | 0, r, k => (r, k)
  | n + 1, r, k => let (r, b) := r.cycle stepUp fall; Ramp.run stepUp fall n r (if b then k + 1 else k)

/-- Cycles after which a limiter without new demand no longer changes: every span of a vector engine has ended and both loads
have settled. -/
def rampSettles : Nat := 2200

/-- The state with the limiter of die `d` computed up to, and not including, noon cycle `t`. -/
def State.rampTo (s : State) (d t : Nat) : State :=
  let r := s.ramp d
  let stepUp := s.f32 (Reg.cdRamp d) 16 8
  let fall := s.f32 (Reg.cdRamp d) 11 5
  let (r', k) := Ramp.run stepUp fall (min (t - r.at') rampSettles) r 0
  let s := s.setRamp d { r' with at' := max t r.at' }
  (s.count64 (Reg.cdClkCount d) 0 24 k).sf32 (Reg.cdRamp d) 0 11 r'.rl

/-- An engine of die `d` accumulates in noon cycle `t` (R421). -/
def State.rampEngine (s : State) (d t : Nat) : State :=
  let s := s.rampTo d t
  s.setRamp d { s.ramp d with units := (s.ramp d).units + 1 }

/-- A group of the vector engine of core `c` of die `d` is between its read and pack stages from noon cycle `t` to `last`. -/
def State.rampVector (s : State) (d c t last : Nat) : State :=
  let s := s.rampTo d t
  let r := s.ramp d
  let span := match Tab.get (fun _ => (1, 0)) r.busy c with
    | (a, b) => if t ≤ b + 1 then (a, max b last) else (t, last)
  s.setRamp d { r with busy := Tab.put (fun _ => (1, 0)) r.busy c span }

end Sys2Proof.Machine
end

