-- ==== Sys2Proof/Machine/Matrix.lean ====
section
/-!
DEFINITION. The matrix engines: PRESCAN, passes, accumulation cycles, drains and tiles (04_matrix_engine.md R101-R121; statuses
and counters of 03_number_formats_and_accumulation.md R88, R99 and R100).
-/

namespace Sys2Proof.Machine

/-! ## PRESCAN (R114) -/

/-- An item of an earlier card meets a scale line of pass `n` on engine `e`: by ring coordinate where they share a ring, else by
address (R114, R230). -/
def scaleMeets (g e : Nat) (y : Flight) (n slot off : Nat) (x : Flight) (sl m : Nat) (cp : Nat × Nat) : Bool :=
  if sharesRing x.card sl cp y.card slot (g, e) then
    spansMeet (ringSpan x.card sl m cp.2) (itemQ y.card slot n e + off, 32)
  else extentsMeet (copyExtent x.card sl m cp) (0, [(itemAddr y.card slot n (g, e) off, 32)])

/-- The cycle from which the writers of a pass's scale lines allow its PRESCAN: the one after the last release among the write
items of earlier cards in flight; `none` while one is not released (R114). -/
def CoreState.scanFrom (c : CoreState) (g e : Nat) (y : Flight) (n : Nat) : Option Nat :=
  let offs (slot : Nat) : List Nat :=
    if isMx (mmFmt y.card slot) then (List.range (scanBlocks y.card)).map (scaleOff (mmFmt y.card slot)) else []
  let writers := (c.flights.filter (fun x => decide (x.seq < y.seq) && x.fullAt.isNone)).map (fun x =>
    ((cardItems x.card).filter (fun it => it.2.2.2 && [0, 1].any (fun slot =>
      (offs slot).any (fun off => scaleMeets g e y n slot off x it.1 it.2.1 it.2.2.1)))).map (fun it =>
        Tab.get (fun _ => none) x.relAt (itemKey it.1 (keyEng x.card it.2.2.1.2) it.2.1)))
  writers.flatten.foldl (fun acc r => match acc, r with | some a, some r => some (max a (r + 1)) | _, _ => none) (some 0)

/-- PRESCAN of the next pass of engine `e` of core `g`: it begins at q(n) and reads a block position a cycle from there on. -/
def prescan (g e t : Nat) (s : State) : State :=
  let d := g / 16
  let cyc := s.engCycle d t
  let s := s.meshTo d cyc
  let c := s.core g
  let x := c.eng e
  match c.nextPass e with
  | none => s
  | some (f, n) =>
    let again := match x.scan with | some p => p.seq == f.seq && p.iter == n | none => false
    match c.scanFrom g e f n with
    | none => s
    | some r =>
      -- of the previous pass the start is that of its own accumulation, also where it ends a KEEP chain (log entry 36)
      let q := max (max x.scanFree x.lastS) (max (f.issue + 1) r)
      if !s.dieRuns d t || !mmScans f.card n || again || cyc < q then s
      else
        let s := s.setCore g (c.setEng e { x with scan := some { seq := f.seq, iter := n, at' := q, fin := q } })
        let addrs := ((List.range (scanBlocks f.card)).map (fun b =>
          ((scaleAddrs g e f.card 0 n b).getD []) ++ ((scaleAddrs g e f.card 1 n b).getD []))).flatten
        (s.checkBounds t (s.ownerN g) false addrs).scanTo g e cyc

/-! ## Pass start (R111-R114, R121, R229) -/

/-- The bank with which a pass begins (R81, R86, R113). -/
def Engine.startBank (x : Engine) (card n : Nat) : Bank :=
  let old := if x.passNo % 2 = 0 then x.bank0 else x.bank1
  if mmContinues card n then old
  else
    let field := sext (bodyF card 158 10) 10
    let anchor : Int :=
      if mmInt card then 0
      else if bodyF card 156 2 = 1 then (match x.scan with | some p => prescanAnchor (mmA card) (mmB card) p.reads field | none => field)
      else if bodyF card 156 2 = 2 then (if x.ran then x.carry else field)
      else field
    { anchor := anchor }

/-- The engine with the bank of the present pass set. -/
def Engine.putBank (x : Engine) (i : Nat) (b : Bank) : Engine := if i % 2 = 0 then { x with bank0 := b } else { x with bank1 := b }
/-- A bank of the engine. -/
def Engine.bankOf (x : Engine) (i : Nat) : Bank := if i % 2 = 0 then x.bank0 else x.bank1

/-- The bank of the engine's next pass still waits to be drained (R111). -/
def Engine.bankBusy (x : Engine) (card n : Nat) : Bool :=
  !mmContinues card n && x.toDrain.any (fun w => w.bank % 2 == x.passNo % 2)

/-- PASS_START: the next pass of engine `e` of core `g` starts once its card, bank, PRESCAN and interlocks allow. -/
def passStart (g e t : Nat) (s : State) : State :=
  let d := g / 16
  let cyc := s.engCycle d t
  let s := (s.meshTo d cyc).scanTo g e cyc
  let c := s.core g
  let x := c.eng e
  match c.nextPass e with
  | none => s
  | some (f, n) =>
    match x.terms f n, x.startAt f n with
    | some (e1, fT, b, p), some st =>
      if !s.dieRuns d t || x.cur.isSome || x.bankBusy f.card n || cyc < st || c.passHeld f n e (st - 4 - mmS f.card) then s
      else
        let T := mmT f.card
        let fin := st + T
        let last := n + 1 == cardIters f.card
        let x' := { x with
          cur := some ⟨f.seq, n, st, T, 0, mmDrains f.card n⟩, lastS := st, lastE := fin, ran := true, scanFree := max x.scanFree p,
          run := if last then x.wait else x.run, wait := if last then none else x.wait, iter := if last then 0 else n + 1 }
        let x' := x'.putBank x.passNo (x.startBank f.card n)
        let f' := { f with readAt := stampAt (stampAt f.readAt (itemKey 0 e n) (feedReadAt f.card 0 st)) (itemKey 1 e n) (feedReadAt f.card 1 st) }
        let s := s.setCore g ((c.setEng e x').setFlight f')
        let s := s.count64 (Reg.engPassCount d (g % 16) e) 0 64 1
        let s := s.count64 (Reg.engDrainStall d (g % 16) e) 0 64 (b - max e1 fT)
        let s := s.count64 (Reg.engPrescanStall d (g % 16) e) 0 64 (p - max (max e1 fT) b)
        let run := descRun (cardDesc f.card 0)
        let s := s.checkBounds t (s.ownerN g) false ((List.range run).map (itemAddr f.card 0 n (g, e)))
        s.checkBounds t (s.ownerN g) false ((List.range (descRun (cardDesc f.card 1))).map (itemAddr f.card 1 n (g, e)))
    | _, _ => s

/-! ## Accumulation (R83, R84, R95, R102, R103) -/

/-- The k-steps whose products enter the bank in accumulation cycle `j` (R84, R103): at 16-bit, in the last of four cycles. -/
def cycleSteps (card j : Nat) : List Nat :=
  match mmRate card with
  | .bits4 => [2 * j, 2 * j + 1]
  | .bits8 => [j]
  | .bits16 => if j % 4 = 3 then [j / 4] else []

/-- The products of each cell and of each check cell for the k-steps of one cycle (R83, R95): A and B values by k-step. -/
def cycleProducts (ab : List (List Val × List Val)) : List (List Val) × List (List Val) :=
  let get (l : List Val) (i : Nat) : Val := (l[i]?).getD (.fin 0 0)
  ((List.range 1024).map (fun m => ab.map (fun p => mulVal (get p.1 (m / 32)) (get p.2 (m % 32)))),
   (List.range 64).map (fun m => ab.map (fun p =>
     if m < 32 then mulVal (get p.1 m) (sumVal p.2) else mulVal (sumVal p.1) (get p.2 (m - 32)))))

/-- The bits of ENG_ACC_STATUS that a pass leaves (Table 3-14). -/
def Bank.passBits (b : Bank) : Nat :=
  (if 0 < b.passTrunc then 1 else 0) + (if b.sat then 2 else 0) + (if b.shift then 4 else 0) + (if b.trap then 8 else 0)
    + (if b.nanSeen then 16 else 0) + (if b.infSeen then 32 else 0)

/-- The state after a pass has ended (R99, R100): its status and counts, and its drain or the open bank. -/
def State.passEnd (s : State) (g e : Nat) (p : PassRun) : State :=
  let d := g / 16
  let cl := g % 16
  let c := s.core g
  let x := c.eng e
  let b := x.bankOf x.passNo
  let len := match c.flight p.seq with | some f => drainLen (mmOut f.card) | none => 0
  let s := s.orBits (Reg.engAccStatus d cl e) b.passBits
  let s := s.count64 (Reg.engAccCount0 d cl e) 0 64 b.passTrunc
  let s := s.count64 (Reg.engAccCount1 d cl e) 8 24 b.ovf
  let b' := { b with passTrunc := 0, ovf := 0, sat := false, shift := false, trap := false, infSeen := false, nanSeen := false }
  let x' := { x.putBank x.passNo b' with cur := none, carry := b.anchor, open' := !p.drains }
  let x' := if p.drains then { x' with passNo := x.passNo + 1, toDrain := x.toDrain ++ [⟨p.seq, p.iter, x.passNo, p.s + p.len, len⟩] } else x'
  let c := c.setEng e x'
  match c.flight p.seq with
  | none => s.setCore g c
  | some f =>
    -- a card that leaves its last chain open is complete at the end of its last pass (Table 7-10)
    let leaves := !p.drains && p.iter + 1 == cardIters f.card
    s.setCore g (if leaves then c.setFlight { f with done := f.done + 1 } else c)

/-- ACCUMULATION_CYCLE: the next accumulation cycle of the pass that engine `e` of core `g` runs. -/
def accumulationCycle (g e t : Nat) (s : State) : State :=
  let d := g / 16
  let c := s.core g
  let x := c.eng e
  match x.cur with
  | none => s
  | some p =>
    match c.flight p.seq with
    | none => s
    | some f =>
      if !s.dieRuns d t || s.engCycle d t < p.s + p.cyc then s
      else
        let reads := (cycleSteps f.card p.cyc).map (fun k => (s.operandAt g e f.card 0 p.iter p.s k, s.operandAt g e f.card 1 p.iter p.s k))
        let addrs := (reads.map (fun r => r.1.2 ++ r.2.2)).flatten
        let (ps, ks) := cycleProducts (reads.map (fun r => (r.1.1, r.2.1)))
        let b := x.bankOf x.passNo
        let b' := if reads.isEmpty then b else b.cycle (ovfPolicy (bodyF f.card 168 2) (mmInt f.card)) ps ks
        let own := addrs.any (fun a => Tab.get (fun _ => false) s.selfErr (a / 8))
        let b' := { b' with poisoned := b'.poisoned || addrs.any (fun a => s.poisoned a),
                            ownError := b'.ownError || own }
        let x' := { x.putBank x.passNo b' with cur := some { p with cyc := p.cyc + 1 } }
        let s := s.setCore g { c.setEng e x' with
          trapped := match c.trapped with | some y => some y | none => if b'.trap then some (p.s + p.cyc) else none }
        -- the MAC tap counts under the wider format (R494), and the limiter sees the engine (R421)
        let wa := fmtWidth (mmA f.card)
        let wb := fmtWidth (mmB f.card)
        let rate := match mmRate f.card with | .bits4 => 4 | .bits8 => 8 | .bits16 => 16
        let s := (s.tapMacs d (if wb ≤ wa then mmA f.card else mmB f.card) rate).rampEngine d t
        let s := if b'.trap && !b.trap then s.recordStopAt (some t) (s.ownerN g) 0x53 .fault else s
        if p.cyc + 1 < p.len then s else s.passEnd g e { p with cyc := p.cyc + 1 }

/-! ## Drains and tiles (R108, R110, R117, R118) -/

/-- DRAIN_START: the oldest ended pass of engine `e` of core `g` drains once the converter is free: its tile's lines have their
cycles at the write lane from now on (R108, R110), and the bank is cleared (R89). -/
def drainStart (g e t : Nat) (s : State) : State :=
  let d := g / 16
  let c := s.core g
  let x := c.eng e
  match x.toDrain with
  | [] => s
  | w :: rest =>
    match c.flight w.seq with
    | none => s
    | some f =>
      let st := max w.fin x.convFree
      if !s.dieRuns d t || s.engCycle d t < st then s
      else
        let D := drainLen (mmOut f.card)
        let L := tileLines (mmOut f.card)
        let b := x.bankOf w.bank
        let sr (r k : Nat) : Option Nat :=
          if bodyF f.card 179 1 = 1 then some (srValue (bodyF f.card 64 32) f.pos e w.iter r k) else none
        let o := b.drain (mmOut f.card) (sext (bodyF f.card 171 8) 8) (bodyF f.card 180 1 == 1) sr
        let skip := b.checkSkip
        let td : TileDrain := ⟨w.seq, w.iter, st, D, o.bytes, o.sats, o.nan, skip, if skip then 0 else b.checkFails, b.trunc,
                               b.poisoned, b.ownError⟩
        let x' := { x.putBank w.bank {} with
          toDrain := rest, drains := x.drains ++ [td], convFree := st + D,
          free0 := if w.bank % 2 = 0 then st + D else x.free0, free1 := if w.bank % 2 = 1 then st + D else x.free1 }
        let enter (c : CoreState) (i : Nat) : CoreState :=
          c.enterLine (st + 32 + D - L + i) (bankOf (itemAddr f.card 2 w.iter (g, e) (32 * i))) true
        s.setCore g ((List.range L).foldl enter ((c.settle ((s.mesh d).settled (s.engCycle d t))).setEng e x'))

/-- The state with the lines of a tile in the converter written that leave the write lane before cycle `cyc`, each in its own
cycle (R108). -/
def State.writeTile (s : State) (g e : Nat) (td : TileDrain) (card cyc : Nat) : State :=
  let first := td.start + 32 + td.len - ceilDiv td.bytes.length 32
  ((List.range (ceilDiv td.bytes.length 32)).filter (fun i => decide (first + i < cyc))).foldl (fun s i =>
    let line := (td.bytes.drop (32 * i)).take 32
    s.writeTimed (s.ownerN g) (first + i + 1) e ((List.range line.length).zipWith (fun j b => (itemAddr card 2 td.iter (g, e) (32 * i + j), b)) line)) s

/-- The state with what the engines of core `g` have written before cycle `cyc`, as its core is fenced (R117). -/
def State.flushTiles (s : State) (g cyc : Nat) : State :=
  (List.range 64).foldl (fun s e =>
    ((s.core g).eng e).drains.foldl (fun s td =>
      match (s.core g).flight td.seq with | some f => s.writeTile g e td f.card cyc | none => s) s) s

/-- The tiles that an iteration of a MATMUL card drains: one an engine of the mask. -/
def mmEngines (card : Nat) : Nat := (maskEngines (cardEngMask card)).length

/-- TILE_COMPLETE: the oldest tile in engine `e`'s converter has been written; its status is updated, its item released and a
failed comparison or poison fences the core (R97, R99, R117, R118, R181). -/
def tileComplete (g e t : Nat) (s : State) : State :=
  let d := g / 16
  let cl := g % 16
  let c := s.core g
  let x := c.eng e
  match x.drains with
  | [] => s
  | td :: rest =>
    match c.flight td.seq with
    | none => s
    | some f =>
      let cyc := td.start + 32 + td.len
      if !s.dieRuns d t || s.engCycle d t < cyc || !s.signalsFit g f.card 2 then s
      else
        let n := s.ownerN g
        let addrs := (List.range td.bytes.length).map (itemAddr f.card 2 td.iter (g, e))
        let s := (s.checkBounds t n true addrs).writeTile g e td f.card cyc
        let s := s.orBits (Reg.engAccStatus d cl e)
          ((if td.skip then 2 ^ 11 else 0) + (if 0 < td.fails then 2 ^ 10 else 0) + (if 0 < td.sats then 2 ^ 9 else 0)
            + (if td.nan then 2 ^ 8 else 0))
        let s := s.count64 (Reg.engAccCount1 d cl e) 0 8 (if 0 < td.fails then 1 else 0)
        let s := s.count64 (Reg.engAccCount1 d cl e) 32 32 td.sats
        let tiles := Tab.get (fun _ => 0) f.awaited td.iter + 1
        let whole := tiles == mmEngines f.card
        let f' := { f.record td.iter 2 (engRank f.card e) td.bytes with
          done := f.done + 1, relAt := stampAt f.relAt (itemKey 2 e td.iter) cyc,
          awaited := Tab.put (fun _ => 0) f.awaited td.iter (if whole then 0 else tiles) }
        let s := s.setCore g (((s.core g).setEng e { x with drains := rest }).setFlight f')
        let s := if whole then s.giveSignals g f.card 2 t else s
        if 0 < td.fails || td.ownError then (s.flushTiles g cyc).fenceCore g
        else if td.poisoned then s.abortStep n else s

/-! ## Meanings -/

/-- PRESCAN. -/
def execPrescan (d : Fin 8) (c : Fin 16) (e : Fin 64) (t : Nat) (upset : List (BitVec 37)) (s : State) : Host.Outcome State Fault Refusal :=
  .next (prescan (16 * d + c) e t (s.upset upset))
/-- PASS_START. -/
def execPassStart (d : Fin 8) (c : Fin 16) (e : Fin 64) (t : Nat) (upset : List (BitVec 37)) (s : State) : Host.Outcome State Fault Refusal :=
  .next (passStart (16 * d + c) e t (s.upset upset))
/-- ACCUMULATION_CYCLE. -/
def execAccumulationCycle (d : Fin 8) (c : Fin 16) (e : Fin 64) (t : Nat) (s : State) : Host.Outcome State Fault Refusal :=
  .next (accumulationCycle (16 * d + c) e t s)
/-- DRAIN_START. -/
def execDrainStart (d : Fin 8) (c : Fin 16) (e : Fin 64) (t : Nat) (s : State) : Host.Outcome State Fault Refusal :=
  .next (drainStart (16 * d + c) e t s)
/-- TILE_COMPLETE. -/
def execTileComplete (d : Fin 8) (c : Fin 16) (e : Fin 64) (t : Nat) (s : State) : Host.Outcome State Fault Refusal :=
  .next (tileComplete (16 * d + c) e t s)

end Sys2Proof.Machine
end

