-- ==== Sys2Proof/Machine/VectorFn.lean ====
section
/-!
DEFINITION. The six functions by table and interpolation (05_vector_engine.md R134-R136, Table 5-6). Nodes follow from the
rule: each is the core function at a point, rounded to nearest at a multiple of 2^-32. EXP2, RECIP and RSQRT nodes are found by
exact integer comparison; LOG2 and SIGMOID nodes are computed with more than 150 guard bits, and no node lies near a tie.
-/

namespace Sys2Proof.Machine

/-- The largest number below `2^k + acc` of the form `acc` plus low bits that satisfies a downward closed condition. -/
def largestBits (p : Nat → Bool) : Nat → Nat → Nat
  | 0, acc => acc
  | k + 1, acc => if p (acc + 2 ^ k) then largestBits p k (acc + 2 ^ k) else largestBits p k acc

/-- `a / b` rounded to nearest, ties to even. -/
def rneDiv (a b : Nat) : Nat :=
  let q := a / b
  let r := a % b
  if b < 2 * r || (2 * r == b && q % 2 == 1) then q + 1 else q

/-- Node of EXP2 at u = j/256: 2^u in units of 2^-32. -/
def exp2Node (j : Nat) : Nat := (largestBits (fun k => k ^ 256 ≤ 2 ^ (33 * 256 + j)) 35 0 + 1) / 2

/-- Node of RECIP at u = j/256: 1/(1+u) in units of 2^-32. -/
def recipNode (j : Nat) : Nat := rneDiv (2 ^ 32 * 256) (256 + j)

/-- Node of RSQRT at u = j/128 of the half of [1, 2) (`hi` false) or [2, 4). -/
def rsqrtNode (hi : Bool) (j : Nat) : Nat :=
  let den := if hi then 64 else 128
  (largestBits (fun k => k * k * (128 + j) ≤ 2 ^ 66 * den) 34 0 + 1) / 2

/-- `n` further bits of log2 of a mantissa `m` of `p` fraction bits in [1, 2), by repeated squaring. -/
def log2Bits (p : Nat) : Nat → Nat → Nat → Nat
  | 0, _, acc => acc
  | n + 1, m, acc =>
    let sq := m * m / 2 ^ p
    if 2 ^ (p + 1) ≤ sq then log2Bits p n (sq / 2) (2 * acc + 1) else log2Bits p n sq (2 * acc)

/-- Node of LOG2 at u = j/256: log2(1+u) in units of 2^-32. -/
def log2Node (j : Nat) : Nat := if j = 256 then 2 ^ 32 else (log2Bits 256 33 ((256 + j) * 2 ^ 248) 0 + 1) / 2

/-- e^-1/64 with 320 fraction bits, by its power series: the terms left are summed with alternating sign. -/
def expSeries : Nat → Nat → Nat → Int → Int
  | 0, _, _, acc => acc
  | n + 1, k, term, acc => expSeries n (k + 1) (term / (64 * k)) (if k % 2 = 0 then acc + (term / (64 * k) : Nat) else acc - (term / (64 * k) : Nat))

/-- e^(-1/64) in units of 2^-320. -/
def expM64 : Nat := (expSeries 60 1 (2 ^ 320) (2 ^ 320)).toNat

/-- `b^n` in units of 2^-320, by squaring over the bits of `n` (12 suffice). -/
def powFix (b : Nat) : Nat → Nat → Nat
  | 0, _ => 2 ^ 320
  | k + 1, n =>
    let h := powFix b k (n / 2)
    let sq := h * h / 2 ^ 320
    if n % 2 = 1 then sq * b / 2 ^ 320 else sq

/-- Node of SIGMOID and TANH at u = j/2048: 1/(1 + e^(-32u)) in units of 2^-32. -/
def sigmoidNode (j : Nat) : Nat :=
  let e := powFix expM64 12 j
  (2 ^ 33 * 2 ^ 320 / (2 ^ 320 + e) + 1) / 2

/-- The quadratic through three nodes at `t` in units of 2^-24 (R134 steps 3 and 4). -/
def interp (y0 y1 y2 : Nat) (t : Nat) : Int :=
  let c0 : Int := y0
  let c1 : Int := -3 * y0 + 4 * y1 - y2
  let c2 : Int := 2 * y0 - 4 * y1 + 2 * y2
  let w := c1 + rneShift (c2 * t) 24
  c0 + rneShift (w * t) 24

/-- The core function at `u` held in units of 2^-(b+24), with 2^b segments (R134 steps 1 to 4). At the start of a segment the
quadratic gives its first node. A `u` that rounds up to 1 names segment S, which does not exist: it takes the end node of the
last segment, the model's choice where R134 leaves it open (log entry 25). -/
def tableAt (node : Nat → Nat) (u : Nat) : Int :=
  let i := u / 2 ^ 24
  let t := u % 2 ^ 24
  if t = 0 then (node (2 * i) : Int) else interp (node (2 * i)) (node (2 * i + 1)) (node (2 * i + 2)) t

/-- `m * 2^e` (nonnegative) in units of `2^-f`, rounded to nearest even. -/
def fixOf (m : Nat) (e : Int) (f : Nat) : Nat := (toUnits m e (-(f : Int))).1.toNat

/-- A reassembled result: exact number `m * 2^e`, or a domain error with its lane value. -/
inductive FnRes where
  | num (m e : Int)
  | domain (lane : Int)
  | huge (neg : Bool)
  deriving DecidableEq, Repr

/-- EXP2 of `v * 2^e` (Table 5-6). Results beyond 2^1100 are huge; below 2^-1100 they are 0. -/
def fnExp2 (v e : Int) : FnRes :=
  if v = 0 then .num 1 0
  else if 11 < floorLog2 v.natAbs e then (if 0 < v then .huge false else .num 0 0)
  else
    let n := if 0 ≤ e then v * pow2 e else v / pow2 (-e)
    let u := if 0 ≤ e then 0 else fixOf (v % pow2 (-e)).toNat e 31
    .num (tableAt exp2Node u) (n - 32)

/-- LOG2 of `v * 2^e`. -/
def fnLog2 (v e : Int) : FnRes :=
  if v ≤ 0 then .domain (-(2 ^ 31))
  else
    let n := floorLog2 v.natAbs e
    let u := (toUnits v (e - n) (-31)).1.toNat - 2 ^ 31
    .num (n * 2 ^ 32 + tableAt log2Node u) (-32)

/-- RECIP of `v * 2^e`. -/
def fnRecip (v e : Int) : FnRes :=
  if v = 0 then .domain (2 ^ 31 - 1)
  else
    let n := floorLog2 v.natAbs e
    let u := (toUnits v.natAbs (e - n) (-31)).1.toNat - 2 ^ 31
    let y := tableAt recipNode u
    .num (if v < 0 then -y else y) (-n - 32)

/-- RSQRT of `v * 2^e`: u is held with 30 fraction bits within its half (R134). -/
def fnRsqrt (v e : Int) : FnRes :=
  if v = 0 then .domain (2 ^ 31 - 1)
  else if v < 0 then .domain 0
  else
    let n := floorLog2 v.natAbs e
    let j := n / 2
    let hi := n % 2 == 1
    let u := (toUnits v (e - n) (-30)).1.toNat - 2 ^ 30
    .num (tableAt (rsqrtNode hi) u) (-j - 32)

/-- The SIGMOID table at `|x|` times `2^k`, saturating to 1 from `32` up. -/
def sigTable (a : Nat) (e : Int) : Int :=
  if a = 0 then tableAt sigmoidNode 0
  else if 5 ≤ floorLog2 a e then 2 ^ 32
  else tableAt sigmoidNode (fixOf a (e - 5) 34)

/-- SIGMOID of `v * 2^e`. -/
def fnSigmoid (v e : Int) : FnRes :=
  let y := sigTable v.natAbs e
  .num (if v < 0 then 2 ^ 32 - y else y) (-32)

/-- TANH of `v * 2^e`: 2s - 1 with s from the SIGMOID table at 2|x|. -/
def fnTanh (v e : Int) : FnRes :=
  let r := 2 * sigTable v.natAbs (e + 1) - 2 ^ 32
  .num (if v < 0 then -r else r) (-32)

end Sys2Proof.Machine
end

