-- ==== Sys2Proof/Machine/VectorNum.lean ====
section
/-!
DEFINITION. The arithmetic of the vector engine: blocks and exponents, unpacking and packing, steps, and reductions
(05_vector_engine.md R122-R140).
-/

namespace Sys2Proof.Machine

/-! ## Blocks (R122-R124) -/

/-- A block of 32 lanes with its exponent and NaN mark (R122). -/
structure Block where
  lanes : List Int
  exp : Int
  nan : Bool
  deriving DecidableEq, Repr

/-- What an operation does besides its result: lanes rounded, lanes saturated, and VEC_STATUS bits (Table 5-9). -/
structure VEv where
  trunc : Nat := 0
  sat : Nat := 0
  bits : List Nat := []
  deriving DecidableEq, Repr

/-- Both of two effects. -/
def VEv.join (a b : VEv) : VEv := ⟨a.trunc + b.trunc, a.sat + b.sat, a.bits ++ b.bits⟩

/-- Greatest and least lane. -/
def laneMax : Int := 2 ^ 31 - 1
/-- See `laneMax`. -/
def laneMin : Int := -(2 ^ 31)
/-- A value saturated to the lane range, and whether it was. -/
def satLane (x : Int) : Int × Bool := if laneMax < x then (laneMax, true) else if x < laneMin then (laneMin, true) else (x, false)
/-- A value wrapped to 32 bits. -/
def wrapLane (x : Int) : Int := sext (ofInt 32 x) 32

/-- The number of the first `a` entries that are true. -/
def countTo (a : Nat) (l : List Bool) : Nat := ((l.take a).filter id).length

/-- Lanes shifted right by `k` with rounding, and which lost nonzero bits. -/
def lanesRight (ls : List Int) (k : Nat) : List Int × List Bool :=
  (ls.map (fun v => rneShift v k), ls.map (fun v => v % (2 : Int) ^ k != 0))

/-- Lanes shifted left by `k` with saturation, and which saturated. -/
def lanesLeftSat (ls : List Int) (k : Nat) : List Int × List Bool :=
  let r := ls.map (fun v => satLane (if v = 0 then 0 else if 32 < k then (if v < 0 then laneMin - 1 else laneMax + 1) else v * (2 : Int) ^ k))
  (r.map (·.1), r.map (·.2))

/-- A block brought to exponent `e`: a right shift rounds and is counted with ALIGN_TRUNC, a left shift saturates and is
counted with ARITH_SAT. `a` lanes are active. NORM and DENORM count the lanes that lose nonzero bits, as R123 and the
alignment of R133 do: R133's "rounds and is counted" leaves open whether an exact right shift counts, and this is the model's
choice (log entry 22). -/
def Block.toExp (b : Block) (e : Int) (a : Nat) : Block × VEv :=
  if b.exp ≤ e then
    let r := lanesRight b.lanes (e - b.exp).toNat
    let n := countTo a r.2
    ({ b with lanes := r.1, exp := e }, { trunc := n, bits := if n = 0 then [] else [0] })
  else
    let r := lanesLeftSat b.lanes (b.exp - e).toNat
    let n := countTo a r.2
    ({ b with lanes := r.1, exp := e }, { sat := n, bits := if n = 0 then [] else [1] })

/-- The exponent clamp of R123. -/
def Block.clamp (b : Block) (a : Nat) : Block × VEv :=
  if b.exp < -512 then b.toExp (-512) a else if 511 < b.exp then b.toExp 511 a else (b, {})

/-- The exponent that brings the largest of some magnitudes to 2^29 up (R130, R133, R135). -/
def normExp (m : Nat) (e : Int) : Int := floorLog2 m e - 29

/-- The largest magnitude among the first `a` lanes. -/
def maxMag (ls : List Int) (a : Nat) : Nat := (ls.take a).foldl (fun m v => max m v.natAbs) 0

/-! ## Unpacking (R130) -/

/-- Width in bits of a VECTOR element type (Table 5-4). -/
def vWidth (t : Nat) : Nat := if t = 12 then 16 else if t = 14 then 32 else fmtWidth t

/-- Types whose lanes are integers or raw words. -/
def vIsInt (t : Nat) : Bool := t == 0 || t == 4 || t == 11 || t == 12 || t == 14

/-- A NaN replaced by 0 and an infinity by its format's largest finite value (R130). -/
def deInf (t : Nat) (v : Val) (scale : Int) : Int × Int :=
  match v.sp with
  | .finite => (v.m, v.e)
  | .nan => (0, 0)
  | .posInf => let x := decodeElem t (maxFiniteCode t); (x.m, x.e + scale)
  | .negInf => let x := decodeElem t (maxFiniteCode t); (-x.m, x.e + scale)

/-- One block unpacked from element codes; `scale` is the block's E8M0 byte for an MX type. `a` lanes are active, the rest take
zero (R127, R130). -/
def unpackBlock (t : Nat) (codes : List Nat) (scale : Nat) (a : Nat) : Block × VEv :=
  let codes := padTo 0 32 (codes.take a)
  if vIsInt t then (⟨codes.map (fun c => sext c (vWidth t)), 0, false⟩, {})
  else
    let raw := codes.map (fun c => decodeElem t c)
    let vals := if isMx t then raw.map (fun v => scaleVal v scale) else raw
    let act := vals.take a
    let nan := act.any (fun v => v.sp == .nan)
    let inf := act.any (fun v => v.sp == .posInf || v.sp == .negInf)
    let xs := padTo (0, 0) 32 (act.map (fun v => deInf t v 0))
    let m := amax xs
    let bits := (if nan then [3] else []) ++ (if inf then [4] else [])
    if m.1 = 0 then (⟨xs.map (fun _ => 0), -512, nan⟩, { bits := bits })
    else
      let e := normExp m.1.natAbs m.2
      let r := xs.map (fun x => toUnits x.1 x.2 e)
      let b : Block := ⟨r.map (·.1), e, nan⟩
      let c := b.clamp a
      (c.1, { trunc := (r.filter (·.2)).length + c.2.trunc, sat := c.2.sat, bits := bits ++ c.2.bits })

/-- Lane value, exponent and NaN mark of a REDREC record (R130), and whether it was shifted, so that its lane is counted. -/
def unpackRec (r : Nat) : Int × Int × Bool × Bool :=
  let v := sext r 64
  let e := sext (fld r 64 10) 10
  let fits (k : Nat) : Bool := !(satLane (rneShift v k)).2
  let k := ((List.range 34).find? fits).getD 33
  (rneShift v k, e + k, bitAt r 80, k != 0)

/-- Lane value, exponent and NaN mark of a REDIDX record (R130). -/
def unpackIdx (r : Nat) : Int × Int × Bool × Bool := ((fld r 96 14 : Nat), 0, bitAt r 80, false)

/-! ## Steps (R132-R137) -/

/-- Latency of a step operation (Table 5-5). -/
def stepLatency (op : Nat) : Nat :=
  if op = 6 ∨ op = 7 ∨ op = 0x14 ∨ op = 0x15 then 2 else if op = 0x17 then 3 else if 0x18 ≤ op then 6 else 1

/-- Exact comparison of `x * 2^ex` with `y * 2^ey`. -/
def cmpVal (x ex y ey : Int) : Ordering :=
  let k := min ex ey
  compare (x * pow2 (ex - k)) (y * pow2 (ey - k))

/-- Two source blocks aligned to the larger exponent (R133), with the lanes of each that lost bits. -/
def align2 (a b : Block) : Int × (List Int × List Bool) × (List Int × List Bool) :=
  let e := max a.exp b.exp
  (e, lanesRight a.lanes (e - a.exp).toNat, lanesRight b.lanes (e - b.exp).toNat)

/-- A lane-wise result with saturation: the block and the saturated lanes counted. -/
def satBlock (xs : List Int) (e : Int) (nan : Bool) (act : Nat) (ev : VEv) : Block × VEv :=
  let r := xs.map satLane
  let n := countTo act (r.map (·.2))
  let c := (Block.mk (r.map (·.1)) e nan).clamp act
  (c.1, (ev.join { sat := n, bits := if n = 0 then [] else [1] }).join c.2)

/-- The alignment's effect: lanes that lost bits. -/
def alignEv (act : Nat) (l : List Bool) : VEv :=
  let n := countTo act l
  { trunc := n, bits := if n = 0 then [] else [0] }

/-- Element-wise operation of two lists. -/
def zip2 (f : Int → Int → Int) (a b : List Int) : List Int := (a.zip b).map (fun x => f x.1 x.2)

/-- A bitwise operation on lanes. -/
def bitLane (f : Nat → Nat → Nat) (x y : Int) : Int := sext (f (ofInt 32 x) (ofInt 32 y)) 32

/-- Uniform variate of R137. -/
def rngLane (vseed salt idx b : Nat) : Nat :=
  let M := 2 ^ 64
  let z := Nat.xor (salt % 2 ^ 32 * 2 ^ 32 + idx % 2 ^ 32) (vseed % 2 ^ 32 * 2 ^ 32 + vseed % 2 ^ 32)
  let z := Nat.xor z (z / 2 ^ 30) * 0xBF58476D1CE4E5B9 % M
  let z := Nat.xor z (z / 2 ^ 27) * 0x94D049BB133111EB % M
  let z := Nat.xor z (z / 2 ^ 31)
  2 * (z / 2 ^ (64 - b)) + 1

/-- A function result in lanes at exponent `e` (R134 step 5). -/
def fnLane (r : FnRes) (e : Int) : Int :=
  match r with
  | .domain l => l
  | .huge neg => if neg then laneMin - 1 else laneMax + 1
  | .num m x => if 64 < floorLog2 m.natAbs x - e ∧ m ≠ 0 then (if m < 0 then laneMin - 1 else laneMax + 1)
                else if m ≠ 0 ∧ floorLog2 m.natAbs x - e < -4 then 0 else (toUnits m x e).1

/-- A block of function results at a fixed exponent or normalized (R135, R136). Where a normalized exponent is clamped under
R123 the lane of a domain error, 2^31 - 1, is shifted with its block: R136 does not settle it, and this is the model's choice
(log entry 23). -/
def fnBlock (f : Int → Int → FnRes) (a : Block) (fixed : Option Int) (act : Nat) : Block × VEv :=
  let rs := a.lanes.map (fun v => f v a.exp)
  let isDom (r : FnRes) : Bool := match r with | .domain _ => true | _ => false
  let dom := countTo act (rs.map isDom)
  let nums := (rs.take act).filterMap (fun r => match r with | .num m e => some (m, e) | _ => none)
  let e := match fixed with
    | some e => e
    | none => let m := amax nums; if m.1 = 0 then 511 else normExp m.1.natAbs m.2
  satBlock (rs.map (fun r => fnLane r e)) e a.nan act { bits := if dom = 0 then [] else [2] }

/-- One step on one block (Table 5-5): sources A, B, C, the signed immediate, `act` active lanes, VSEED and the element index of
lane 0. For MIN, MAX and SEL a lane counts as rounded where its chosen value lost bits: whether the source not chosen counts
too is open in R133, and this is the model's choice (log entry 24). -/
def stepBlock (op : Nat) (a b c : Block) (imm : Int) (act vseed idx : Nat) : Block × VEv :=
  let nab := a.nan || b.nan
  let s (y : Int) : Nat := ofInt 5 y
  let aligned (f : Int → Int → Int) (wrap : Bool) : Block × VEv :=
    let (e, la, lb) := align2 a b
    let ev := (alignEv act la.2).join (alignEv act lb.2)
    let xs := zip2 f la.1 lb.1
    if wrap then (⟨xs.map wrapLane, e, nab⟩, ev) else satBlock xs e nab act ev
  let choose (pick : Int → Int → Int → Bool) (nan : Bool) : Block × VEv :=
    let (e, la, lb) := align2 a b
    let p := ((a.lanes.zip b.lanes).zip c.lanes).map (fun x => pick x.1.1 x.1.2 x.2)
    let xs := (p.zip (la.1.zip lb.1)).map (fun x => if x.1 then x.2.1 else x.2.2)
    let ls := (p.zip (la.2.zip lb.2)).map (fun x => if x.1 then x.2.1 else x.2.2)
    (⟨xs, e, nan⟩, alignEv act ls)
  match op with
  | 0x00 => (a, {})
  | 0x01 => aligned (· + ·) true
  | 0x02 => aligned (· + ·) false
  | 0x03 => aligned (· - ·) true
  | 0x04 => aligned (· - ·) false
  | 0x05 => satBlock (a.lanes.map (fun v => (v.natAbs : Int))) a.exp a.nan act {}
  | 0x06 => satBlock (zip2 (fun x y => sext (ofInt 16 x) 16 * sext (ofInt 16 y) 16) a.lanes b.lanes) (a.exp + b.exp) nab act {}
  | 0x07 => satBlock (zip2 (fun x y => rneShift (x * y) 31) a.lanes b.lanes) (a.exp + b.exp + 31) nab act {}
  | 0x08 => choose (fun x y _ => cmpVal x a.exp y b.exp != .gt) nab
  | 0x09 => choose (fun x y _ => cmpVal x a.exp y b.exp != .lt) nab
  | 0x0A => (⟨zip2 (bitLane Nat.land) a.lanes b.lanes, a.exp, nab⟩, {})
  | 0x0B => (⟨zip2 (bitLane Nat.lor) a.lanes b.lanes, a.exp, nab⟩, {})
  | 0x0C => (⟨zip2 (bitLane Nat.xor) a.lanes b.lanes, a.exp, nab⟩, {})
  | 0x0D => (⟨zip2 (fun x y => wrapLane (x * 2 ^ s y)) a.lanes b.lanes, a.exp, nab⟩, {})
  | 0x0E => satBlock (zip2 (fun x y => x * 2 ^ s y) a.lanes b.lanes) a.exp nab act {}
  | 0x0F => (⟨zip2 (fun x y => sext (ofInt 32 x / 2 ^ s y) 32) a.lanes b.lanes, a.exp, nab⟩, {})
  | 0x10 => (⟨zip2 (fun x y => x / (2 : Int) ^ s y) a.lanes b.lanes, a.exp, nab⟩, {})
  | 0x11 => (⟨zip2 (fun x y => rneShift x (s y)) a.lanes b.lanes, a.exp, nab⟩, {})
  | 0x12 =>
    let holds (o : Ordering) : Bool :=
      match imm % 8 with
      | 0 => o == .eq | 1 => o != .eq | 2 => o == .lt | 3 => o != .gt | 4 => o == .gt | _ => o != .lt
    (⟨zip2 (fun x y => if holds (cmpVal x a.exp y b.exp) then -1 else 0) a.lanes b.lanes, 0, nab⟩, {})
  | 0x13 => choose (fun _ _ z => z != 0) (nab || c.nan)
  | 0x14 =>
    let m := maxMag a.lanes act
    if m = 0 then (a, {})
    else
      let k := floorLog2 m 0 - 29
      let r := a.toExp (a.exp + k) act
      let c := r.1.clamp act
      (c.1, r.2.join c.2)
  | 0x15 => a.toExp imm act
  | 0x16 => ({ a with exp := imm }, {})
  | 0x17 =>
    let n := imm.toNat
    (⟨(List.range 32).zipWith (fun i v => (rngLane vseed (ofInt 32 v) (idx + i) n : Int)) a.lanes, -(n + 1 : Nat), a.nan⟩, {})
  | 0x18 => fnBlock fnExp2 a (some imm) act
  | 0x19 => fnBlock fnLog2 a (some imm) act
  | 0x1A => fnBlock fnRecip a none act
  | 0x1B => fnBlock fnRsqrt a none act
  | 0x1C => fnBlock fnSigmoid a (some imm) act
  | _ => fnBlock fnTanh a (some imm) act

/-! ## Packing (R131) -/

/-- One block packed to a type: element codes, scale byte, and effects; `sr` gives the rounding value of a lane under SR. -/
def packBlock (t : Nat) (b : Block) (act : Nat) (sr : Nat → Option Nat) : List Nat × Nat × VEv :=
  if b.nan then
    let code := if vIsInt t || isMx t then 0 else (drainElem t .nan 0 0 none).1
    (b.lanes.map (fun _ => code), 255, { bits := [6] })
  else if t = 14 then (b.lanes.map (ofInt 32), 0, {})
  else if isMx t then
    let r := mxBlock t ((List.range 32).zipWith (fun i v => (Special.finite, v, b.exp, sr i)) b.lanes)
    (r.elems, r.scale, { sat := r.sats, bits := if r.sats = 0 then [] else [5] })
  else
    let cs := (List.range 32).zipWith
      (fun i v => if vIsInt t then toInteger (vWidth t) v b.exp (sr i) else toFloat t v b.exp (sr i)) b.lanes
    let n := countTo act (cs.map (·.2))
    (cs.map (·.1), 0, { sat := n, bits := if n = 0 then [] else [5] })

/-! ## Reductions (R138-R140) -/

/-- A SUM lane aligned to RED_EXP: value, whether it lost nonzero bits, saturated (R138). -/
def sumLane (v e redExp : Int) : Int × Bool × Bool :=
  if e ≤ redExp then let r := toUnits v e redExp; (r.1, r.2, false)
  else
    let x := if v = 0 then 0 else if 48 < e - redExp then (if v < 0 then -(2 ^ 48) else 2 ^ 48) else v * pow2 (e - redExp)
    if 2 ^ 47 - 1 < x then (2 ^ 47 - 1, false, true) else if x < -(2 ^ 47) then (-(2 ^ 47), false, true) else (x, false, false)

/-- One block folded into a running record: `op` by RED_OP, `idx` the element index of lane 0 (R138, R139: the earlier position
wins ties). -/
def redBlock (op : Nat) (redExp : Int) (acc : RedRun) (b : Block) (act idx : Nat) : RedRun × VEv :=
  if act = 0 then (acc, {})
  else if op = 1 then
    let xs := (b.lanes.take act).map (fun v => sumLane v b.exp redExp)
    -- every lane shifted right is counted; ALIGN_TRUNC is set where one lost nonzero bits
    let nt := if b.exp < redExp then act else 0
    let lost := xs.any (fun x => x.2.1)
    let ns := (xs.filter (fun x => x.2.2)).length
    ({ acc with started := true, value := acc.value + (xs.map (·.1)).sum, exp := redExp, nan := acc.nan || b.nan,
                sat := acc.sat || decide (0 < ns) },
     { trunc := nt, sat := ns, bits := (if lost then [0] else []) ++ (if ns = 0 then [] else [7]) })
  else
    let better (x ex y ey : Int) : Bool := if op = 2 ∨ op = 4 then cmpVal x ex y ey == .gt else cmpVal x ex y ey == .lt
    let step (r : RedRun) (p : Nat × Int) : RedRun :=
      if !r.started || better p.2 b.exp r.value r.exp then
        { r with started := true, value := p.2, exp := b.exp, index := if 4 ≤ op then idx + p.1 else 0 }
      else r
    let r := ((List.range act).zip (b.lanes.take act)).foldl step acc
    ({ r with nan := acc.nan || b.nan }, {})

/-- The 16-byte record (Table 5-7): NAN makes VALUE, EXP and INDEX 0, and leaves SAT as it is (R138). -/
def redRecord (r : RedRun) : Nat :=
  (if r.sat then 2 ^ 82 else 0)
    + if r.nan then 2 ^ 80 else ofInt 64 r.value + ofInt 10 r.exp * 2 ^ 64 + r.index % 2 ^ 14 * 2 ^ 96

end Sys2Proof.Machine
end

