-- ==== Sys2Proof/Machine/Vector.lean ====
section
/-!
DEFINITION. The vector engine: groups entering the read stage, the chain of steps, outputs and reduction records
(05_vector_engine.md R122-R148).
-/

namespace Sys2Proof.Machine

/-! ## VECTOR fields (Table 7-12) -/

/-- VN. -/
def vN (card : Nat) : Nat := bodyF card 288 15
/-- NSTEPS. -/
def vSteps (card : Nat) : Nat := bodyF card 303 4
/-- STEPi. -/
def vStep (card i : Nat) : Nat := bodyF card (32 * i) 32
/-- VSEED. -/
def vSeed (card : Nat) : Nat := bodyF card 256 32
/-- VTYPE_INi. -/
def vTypeIn (card i : Nat) : Nat := bodyF card (319 + 4 * i) 4
/-- VTYPE_OUT. -/
def vTypeOut (card : Nat) : Nat := bodyF card 331 4
/-- OUT_SRC. -/
def vOutSrc (card : Nat) : Nat := bodyF card 335 3
/-- RED_OP. -/
def vRedOp (card : Nat) : Nat := bodyF card 338 3
/-- RED_SRC. -/
def vRedSrc (card : Nat) : Nat := bodyF card 341 3
/-- RED_SCOPE. -/
def vRedScope (card : Nat) : Nat := bodyF card 344 2
/-- Groups per span (RED_SPAN; 0 means 64). -/
def vSpan (card : Nat) : Nat := let x := bodyF card 346 6; if x = 0 then 64 else x
/-- RED_EXP. -/
def vRedExp (card : Nat) : Int := sext (bodyF card 352 10) 10
/-- RND is SR. -/
def vSr (card : Nat) : Bool := bodyF card 362 1 == 1
/-- The descriptor with a role (Table 5-1), if any. -/
def vRole (card role : Nat) : Option Nat := (List.range 4).find? (fun i => bodyF card (307 + 3 * i) 3 == role)
/-- G, the groups of an iteration (R127). -/
def vGroups (card : Nat) : Nat := (vN card + 255) / 256
/-- Active lanes of a group (R127). -/
def vActive (card g : Nat) : Nat := min 256 (vN card - 256 * g)

/-- Bytes per group of an element type (Table 5-4). -/
def vBytes (t : Nat) : Nat := if isMx t then 32 * fmtWidth t + 8 else 32 * vWidth t
/-- Bytes of `k` elements of a type from a group boundary, MX scales apart (R127, R129). -/
def vElemBytes (t k : Nat) : Nat := (k * vWidth t + 7) / 8

/-- The blocks of the run of 32 blocks that holds block `b`, for `n` elements (R129): first block and number. -/
def mxRun (n b : Nat) : Nat × Nat := (b / 32 * 32, min 32 ((n + 31) / 32 - b / 32 * 32))
/-- Byte offset of a run of blocks: runs before it are whole, and a run starts at a 32-byte boundary. -/
def mxRunBase (t b : Nat) : Nat := b / 32 * (128 * fmtWidth t + 32)

/-- An input supplies one element, broadcast (R128). With N = 1 one element is also N elements: the model takes it as an element
input like any other (log entry 37). -/
def vBroadcast (card i : Nat) : Bool :=
  match vRole card (i + 1) with
  | none => false
  | some slot =>
    let t := vTypeIn card i
    let run := descRun (cardDesc card slot)
    let one := if t = 0 then 1 else if isMx t then 2 else vWidth t / 8
    t != 13 && t != 15 && vN card != 1 && run == one

/-- An input supplies reduction records. -/
def vRecords (card i : Nat) : Bool := (vRole card (i + 1)).isSome && (vTypeIn card i == 13 || vTypeIn card i == 15)
/-- An input is read with the card's first group: a broadcast element, or records (R128, R228). -/
def vOnce (card i : Nat) : Bool := vBroadcast card i || vRecords card i
/-- The iteration whose item an input of that kind takes in iteration `n`: one element or record serves the whole card. -/
def vOnceIter (card i n : Nat) : Nat :=
  let run := match vRole card (i + 1) with | some slot => descRun (cardDesc card slot) | none => 0
  if vBroadcast card i || run ≤ 16 then 0 else n

/-- R: bytes per group of the non-broadcast element inputs (R141). -/
def vReadBytes (card : Nat) : Nat :=
  ((List.range 3).map (fun i =>
    let t := vTypeIn card i
    if (vRole card (i + 1)).isNone || t == 13 || t == 15 || vBroadcast card i then 0 else vBytes t)).sum
/-- W: bytes per group of OUT (R141). -/
def vWriteBytes (card : Nat) : Nat := if (vRole card 4).isSome then vBytes (vTypeOut card) else 0
/-- c: cycles per group (R141). -/
def vCycles (card : Nat) : Nat := max 1 (max (ceilDiv (vReadBytes card) 2048) (ceilDiv (vWriteBytes card) 1024))
/-- Λ: the sum of the steps' latencies (R142). -/
def vLambda (card : Nat) : Nat := ((List.range (vSteps card)).map (fun i => stepLatency (fld (vStep card i) 26 6))).sum

/-! ## Reading inputs (R128, R130) -/

/-- `k` bytes of an item of a VECTOR card from byte `b` up, as a read in engine cycle `c` sees them. -/
def State.vRead (s : State) (g card slot n b k c : Nat) : Nat :=
  leNat ((List.range k).map (fun j => s.readAsOf (s.ownerN g) c (itemAddr card slot n (g, 0) (b + j))))

/-- A block of 32 lanes all equal. -/
def constBlock (v e : Int) (nan : Bool) : Block := ⟨List.replicate 32 v, e, nan⟩

/-- The records an input of type REDREC or REDIDX supplies, and which of them block `b` of group `g` takes (R128). -/
def recordIndex (card run g b : Nat) : Nat :=
  let k := run / 16
  if k ≤ 1 then 0
  else if k = (vN card + 31) / 32 then 8 * g + b
  else if k = vGroups card then g
  else g / vSpan card

/-- An input record or broadcast element is unpacked now for the first time in the card, so that its effects count (R128). -/
def firstUse (n g b : Nat) : Bool := n == 0 && g == 0 && b == 0

/-- The offsets, in its item, of the bytes of group `g` of an element input, as first bytes of 32-byte lines (R127, R129). -/
def vGroupLines (card i g : Nat) : List Nat :=
  let t := vTypeIn card i
  let act := vActive card g
  if (vRole card (i + 1)).isNone || vOnce card i then []
  else if isMx t then
    let (first, cnt) := mxRun (vN card) (8 * g)
    let base := mxRunBase t first
    let from' := base + (8 * g - first) * 4 * vWidth t
    let scale := base + cnt * 4 * vWidth t + (8 * g - first)
    ((List.range (ceilDiv (from' % 32 + (act + 31) / 32 * 4 * vWidth t) 32)).map (fun j => from' / 32 * 32 + 32 * j) ++ [scale / 32 * 32]).eraseDups
  else
    let from' := 32 * g * vWidth t
    (List.range (ceilDiv (vElemBytes t act) 32)).map (fun j => from' + 32 * j)

/-- The lines that a group reads, input by input: input and offset. The read path takes 64 of them a cycle (R141, R157). -/
def vAllLines (card g : Nat) : List (Nat × Nat) := ((List.range 3).map (fun i => (vGroupLines card i g).map (fun b => (i, b)))).flatten

/-- The cycle in which a group that enters in cycle `cyc` reads the line of input `i` that holds byte `b`. -/
def vReadCycle (card g cyc i b : Nat) : Nat := cyc + (vAllLines card g).idxOf (i, b / 32 * 32) / 64

/-- Block `b` of group `g` of input `i` in iteration `n` of a group that enters in cycle `cyc`, with what its unpacking reports
(R128, R130). A record with NAN set marks the block and sets NAN_IN (log entry 38). A broadcast record counts once a card, and
the rounding of MULH is no lane rounded under the rules that Table 5-11 names (log entry 39). -/
def State.vInput (s : State) (core card n g cyc : Nat) (once : Tab (List Byte)) (b i : Nat) : Block × VEv :=
  match vRole card (i + 1) with
  | none => (constBlock 0 0 false, {})
  | some slot =>
    let t := vTypeIn card i
    let act := min 32 (vActive card g - 32 * b)
    let held := Tab.get (fun _ => []) once (i + 4 * vOnceIter card i n)
    if t = 13 ∨ t = 15 then
      let run := descRun (cardDesc card slot)
      let r := leNat ((held.drop (16 * recordIndex card run g b)).take 16)
      let u := if t = 13 then unpackRec r else unpackIdx r
      -- a record's rounding counts in each active lane it reaches, or once where it is broadcast
      let cnt := if run ≤ 16 then (if firstUse n g b then 1 else 0) else act
      let cl := (constBlock u.1 u.2.1 u.2.2.1).clamp (if run ≤ 16 then min cnt 1 else act)
      (cl.1, VEv.join ⟨if u.2.2.2 then cnt else 0, 0, if u.2.2.1 ∧ 0 < cnt then [3] else []⟩ cl.2)
    else if vBroadcast card i then
      let code := leNat (held.take (max 1 (vWidth t / 8))) % 2 ^ vWidth t
      let sc := if isMx t then leNat ((held.drop 1).take 1) else 127
      let r := unpackBlock t (code :: List.replicate 31 0) sc 1
      (constBlock ((r.1.lanes[0]?).getD 0) r.1.exp r.1.nan, if firstUse n g b then r.2 else {})
    else
      let blk := 8 * g + b
      let w := vWidth t
      let read (b k : Nat) : Nat := s.vRead core card slot n b k (vReadCycle card g cyc i b)
      if isMx t then
        let (first, cnt) := mxRun (vN card) blk
        let base := mxRunBase t first
        let codes := read (base + (blk - first) * 4 * w) (4 * w)
        let sc := read (base + cnt * 4 * w + (blk - first)) 1
        unpackBlock t ((List.range 32).map (fun j => fld codes (w * j) w)) sc act
      else
        let codes := read (blk * 4 * w) (4 * w)
        unpackBlock t ((List.range 32).map (fun j => if j < act then fld codes (w * j) w else 0)) 127 act

/-- The bytes of the inputs that a card reads with its first group, in cycle `cyc` (R128). -/
def State.readOnce (s : State) (g card cyc : Nat) : Tab (List Byte) :=
  (List.range 3).foldl (fun tb i =>
    match vRole card (i + 1) with
    | none => tb
    | some slot =>
      if !vOnce card i then tb
      else
        let run := descRun (cardDesc card slot)
        (List.range (if vOnceIter card i 1 = 0 then 1 else cardIters card)).foldl (fun tb n =>
          Tab.put (fun _ => []) tb (i + 4 * n) (leBytes run (s.vRead g card slot n 0 run cyc))) tb) []

/-! ## The chain (R126, R132-R137) -/

/-- A source of a step for a block: temporaries, inputs, IMM, ZERO or INDEX (Table 5-3). -/
def vSource (code : Nat) (temps ins : List Block) (imm : Int) (idx : Nat) : Block :=
  if code < 8 then (temps[code]?).getD (constBlock 0 0 false)
  else if code < 11 then (ins[code - 8]?).getD (constBlock 0 0 false)
  else if code = 11 then constBlock imm 0 false
  else if code = 12 then constBlock 0 (-512) false
  else ⟨(List.range 32).map (fun j => ((idx + j : Nat) : Int)), 0, false⟩

/-- The steps of a chain on one block: temporaries and what the steps report. -/
def vChain (card : Nat) (ins : List Block) (act idx : Nat) : List Block × VEv :=
  let temps : List Block := List.replicate 8 (constBlock 0 0 false)
  if vSteps card = 0 then (temps.set 0 ((ins[0]?).getD (constBlock 0 0 false)), {})
  else (List.range (vSteps card)).foldl (fun st i =>
    let w := vStep card i
    let imm := sext (fld w 0 10) 10
    let src (lo : Nat) : Block := vSource (fld w lo 4) st.1 ins imm idx
    let r := stepBlock (fld w 26 6) (src 19) (src 15) (src 11) imm act (vSeed card) idx
    (st.1.set (fld w 23 3) r.1, st.2.join r.2)) (temps, {})

/-- One group that enters in cycle `cyc`: per block its temporaries and the events of unpacking and steps. -/
def State.vGroup (s : State) (core card n g cyc : Nat) (once : Tab (List Byte)) : List (List Block × VEv) :=
  (List.range 8).map (fun b =>
    let ins := (List.range 3).map (fun i => s.vInput core card n g cyc once b i)
    let act := min 32 (vActive card g - 32 * b)
    let r := vChain card (ins.map (·.1)) act (256 * g + 32 * b)
    (r.1, (ins.map (·.2)).foldl VEv.join r.2))

/-! ## Outputs (R129, R131, R138-R140) -/

/-- Bytes with their addresses gathered into 32-byte lines. -/
def linesOfBytes (w : List (Nat × Byte)) : List (Nat × List Byte) :=
  w.foldr (fun x acc =>
    match acc with
    | (a, bs) :: t => if x.1 + 1 = a ∧ x.1 / 32 = a / 32 then (x.1, x.2 :: bs) :: t else (x.1, [x.2]) :: acc
    | [] => [(x.1, [x.2])]) []

/-- Bytes of an item from position `b` up, with their addresses. -/
def bytesAt (g card slot n b : Nat) (bs : List Byte) : List (Nat × Byte) :=
  (List.range bs.length).zipWith (fun j x => (itemAddr card slot n (g, 0) (b + j), x)) bs
/-- The lines of bytes of an item from position `b` up. -/
def placeBytes (g card slot n b : Nat) (bs : List Byte) : List (Nat × List Byte) := linesOfBytes (bytesAt g card slot n b bs)

/-- What packing a group gives: element bytes and their position, the scale bytes of its blocks, and its events. -/
def vPack (card n g pos : Nat) (blocks : List Block) : List Byte × List Byte × VEv :=
  let t := vTypeOut card
  let act := vActive card g
  let gi := n * vGroups card + g
  let packed := (List.range 8).zipWith (fun b blk =>
    packBlock t blk (min 32 (act - 32 * b))
      (fun lane => if vSr card then some (srValue (vSeed card) pos 0 gi b lane) else none)) blocks
  let used := (List.range 8).filter (fun b => decide (32 * b < act))
  let codes := ((List.range 8).zipWith (fun b p => (b, p)) packed).filter (fun x => decide (32 * x.1 < act))
  let bits := packCodes (vWidth t) ((codes.map (fun x => x.2.1)).flatten)
  let nbytes := if isMx t then used.length * 4 * vWidth t else vElemBytes t act
  (leBytes nbytes bits, codes.map (fun x => BitVec.ofNat 8 x.2.2.1), (codes.map (fun x => x.2.2.2)).foldl VEv.join {})

/-- A finished scope's record and the records before it in its iteration. -/
def vRecordSlot (card g b : Nat) : Nat :=
  match vRedScope card with | 0 => 8 * g + b | 1 => g | _ => g / vSpan card

/-- The reduction of a group: records completed (number, 16 bytes), the running record after it, and events (R138-R140). -/
def vReduce (card g : Nat) (red : RedRun) (blocks : List Block) : List (Nat × Nat) × RedRun × VEv :=
  let op := vRedOp card
  let act := vActive card g
  let step (st : List (Nat × Nat) × RedRun × VEv) (x : Nat × Block) : List (Nat × Nat) × RedRun × VEv :=
    let a := min 32 (act - 32 * x.1)
    if a = 0 then st
    else
      let acc := if vRedScope card = 0 then {} else st.2.1
      let r := redBlock op (vRedExp card) acc x.2 a (256 * g + 32 * x.1)
      if vRedScope card = 0 then (st.1 ++ [(vRecordSlot card g x.1, redRecord r.1)], {}, st.2.2.join r.2)
      else (st.1, r.1, st.2.2.join r.2)
  let r := ((List.range 8).zip blocks).foldl step ([], red, {})
  let ends := vRedScope card == 1 || (vRedScope card == 2 && ((g + 1) % vSpan card == 0 || g + 1 == vGroups card))
  if vRedScope card != 0 && ends then (r.1 ++ [(vRecordSlot card g 0, redRecord r.2.1)], {}, r.2.2) else r

/-! ## Group entry (R141, R143, R229) -/

/-- The groups that the hold counts (R143). -/
def VectorEngine.holdCount (v : VectorEngine) : Nat := (v.outs.filter (fun o => o.element && o.offered && !o.lines.isEmpty)).length

/-- The card's next group on the vector engine: flight, iteration and group. -/
def CoreState.nextGroup (c : CoreState) : Option (Flight × Nat × Nat) :=
  match c.vec.run with
  | none => none
  | some q => match c.flight q with | some f => some (f, c.vec.iter, c.vec.group) | none => none

/-- Descriptors of a VECTOR card that it reads with its first group, and the others it uses (R228). -/
def vOnceSlots (card : Nat) : List Nat :=
  upto 4 (fun k => slotUse card k == some false && (List.range 3).any (fun i => vRole card (i + 1) == some k && vOnce card i))
/-- See `vOnceSlots`. -/
def vOwnSlots (card : Nat) : List Nat := upto 4 (fun k => (slotUse card k).isSome && !(vOnceSlots card).contains k)

/-- An interlock holds the group that is next: an iteration's first group for the items of that iteration, the card's first group
also for its broadcast inputs and records of every iteration (R229). -/
def CoreState.groupHeld (c : CoreState) (f : Flight) (n gr cyc : Nat) : Bool :=
  gr == 0 && (!(c.heldKinds f n none (vOwnSlots f.card) cyc).isEmpty
    || (n == 0 && (List.range (cardIters f.card)).any (fun m => !(c.heldKinds f m none (vOnceSlots f.card) cyc).isEmpty)))

/-- What a group of a card gives as it leaves the pack stage: element output, scale line, records (R142). -/
def groupOuts (g card seq pos n gr cyc : Nat) (blocks : List (List Block × VEv)) (red : RedRun) (scales : List Byte) (bad : Bool) :
    List VOut × List (Nat × List Byte) × RedRun × List Byte :=
  let ev := (blocks.map (·.2)).foldl VEv.join {}
  let temp (k : Nat) : List Block := blocks.map (fun b => (b.1[k]?).getD (constBlock 0 0 false))
  let hasOut := (vRole card 4).isSome
  let (recs, red, rev) := if vRedOp card = 0 then (([] : List (Nat × Nat)), red, ({} : VEv)) else vReduce card gr red (temp (vRedSrc card))
  let t' := vTypeOut card
  let (eb, sb, pev) := if hasOut then vPack card n gr pos (temp (vOutSrc card)) else ([], [], {})
  let all := (ev.join rev).join pev
  let lastG := gr + 1 == vGroups card
  let outSlot := (vRole card 4).getD 0
  let redSlot := (vRole card 5).getD 0
  let blk := 8 * gr
  let (first, cnt) := mxRun (vN card) blk
  let at0 := if isMx t' then mxRunBase t' first + (blk - first) * 4 * vWidth t' else blk * 4 * vWidth t'
  let runEnds := lastG || (blk + 8) % 32 == 0
  let scales := scales ++ (if isMx t' && hasOut then sb else [])
  let lam := vLambda card
  let element : VOut := ⟨seq, n, cyc + 7 + lam, false, hasOut, lastG && !(isMx t') && hasOut, outSlot, placeBytes g card outSlot n at0 eb,
    all.trunc, all.sat, all.bits, true, bad⟩
  let hasScale := isMx t' && hasOut && runEnds
  let scale : List VOut := if hasScale then
      [⟨seq, n, cyc + 7 + lam, false, false, lastG, outSlot, placeBytes g card outSlot n (mxRunBase t' first + cnt * 4 * vWidth t') scales,
        0, 0, [], false, bad⟩] else []
  let record : List VOut := if recs.isEmpty then [] else
      [⟨seq, n, cyc + 14 + lam, false, false, lastG, redSlot,
        linesOfBytes ((recs.map (fun r => bytesAt g card redSlot n (16 * r.1) (leBytes 16 r.2))).flatten), 0, 0, [], false, bad⟩]
  ([element] ++ scale ++ record,
   [(outSlot, eb ++ (if hasScale then scales else [])), (redSlot, (recs.map (fun r => leBytes 16 r.2)).flatten)].filter (fun x => !x.2.isEmpty),
   if lastG then {} else red, if runEnds then [] else scales)

/-- GROUP_ENTRY: the next group of core `g`'s vector engine enters the read stage. -/
def groupEntry (g t : Nat) (s : State) : State :=
  let d := g / 16
  let cyc := s.engCycle d t
  let s := if s.dieRuns d t then (s.meshTo d cyc).portTo g (cyc + 1) else s
  let c := s.core g
  match c.nextGroup with
  | none => s
  | some (f, n, gr) =>
    let card := f.card
    let v := c.vec
    let due := if n = 0 ∧ gr = 0 then max v.due (f.issue + 1) else v.due
    if !s.dieRuns d t || cyc < due || c.groupHeld f n gr cyc || ((vRole card 4).isSome && 4 ≤ v.holdCount) then s
    else
      let first := n == 0 && gr == 0
      let once := if first then s.readOnce g card cyc else v.bcast
      let lines := vAllLines card gr
      let addr (x : Nat × Nat) : Nat := itemAddr card ((vRole card (x.1 + 1)).getD 0) n (g, 0) x.2
      let onceAddrs := ((vOnceSlots card).map (fun k => (List.range (descRun (cardDesc card k))).map (itemAddr card k n (g, 0)))).flatten
      let bad := lines.any (fun x => s.poisonedWords (addr x) 4) || onceAddrs.any s.poisoned
      let (outs, wrote, red, scales) := groupOuts g card f.seq f.pos n gr cyc (s.vGroup g card n gr cyc once) v.red v.scales bad
      let lastG := gr + 1 == vGroups card
      let lastI := n + 1 == cardIters card
      let v' := { v with
        due := cyc + vCycles card, outs := v.outs ++ outs, red := red, scales := scales, bcast := if lastG && lastI then [] else once,
        group := if lastG then 0 else gr + 1, iter := if lastG then (if lastI then 0 else n + 1) else n,
        run := if lastG && lastI then v.wait else v.run, wait := if lastG && lastI then none else v.wait,
        movedAt := if lastG && lastI && v.wait.isSome then some cyc else v.movedAt }
      -- an item counts as read at the end of the three-cycle read stage of the iteration's last group, or of the card's first one
      let own := if lastG then (vOwnSlots card).filter (fun k => slotUse card k == some false) else []
      let stamps := own.map (fun k => (k, n)) ++
        (if first then ((vOnceSlots card).map (fun k => (List.range (cardIters card)).map (fun m => (k, m)))).flatten else [])
      let f' := { f with
        started := f.started + 1, readAt := stamps.foldl (fun tb x => stampAt tb (itemKey x.1 0 x.2) (cyc + 3)) f.readAt }
      let f' := wrote.foldl (fun f x => f.record n x.1 0 x.2) f'
      let c' := { (c.settle ((s.mesh d).settled cyc)) with
        vec := v', vecReads := c.vecReads ++ (List.range lines.length).zipWith (fun j x => (cyc + j / 64, bankOf (addr x))) lines }
      let s := (s.setCore g (c'.setFlight f')).rampVector d (g % 16) t (t + 6 + vLambda card)
      if gr = 0 then
        (upto 4 (fun i => (slotUse card i).isSome)).foldl (fun s i =>
          s.checkBounds t (s.ownerN g) (slotUse card i == some true) ((List.range (descRun (cardDesc card i))).map (itemAddr card i n (g, 0)))) s
      else s

/-! ## Group output (R142, R143, R147, R148) -/

/-- The oldest VECTOR card in flight with an iteration whose EACH signals are due in cycle `cyc`: its groups have entered, and the
last line of its outputs was written before. -/
def CoreState.iterDone (c : CoreState) (cyc : Nat) : Option Flight :=
  c.flights.find? (fun f => cardOp f.card == 2 && f.localAt.isNone && decide (f.done < cardIters f.card)
    && decide ((f.done + 1) * vGroups f.card ≤ f.started) && c.vec.outs.all (fun o => o.seq != f.seq || o.iter != f.done)
    && decide (Tab.get (fun _ => 0) f.placedAt f.done ≤ cyc))

/-- GROUP_OUTPUT: the write port of core `g` takes what is due through this cycle, each group reporting as it leaves the pack
stage (R143, R147, R148), and an iteration whose last line was written before gives its EACH signals (R197). -/
def groupOutput (g t : Nat) (s : State) : State :=
  let d := g / 16
  let cyc := s.engCycle d t
  if !s.dieRuns d t then s
  else
    let s := (s.meshTo d cyc).portTo g (cyc + 1)
    match (s.core g).iterDone cyc with
    | none => s
    | some f => if s.signalsFit g f.card 2 then (s.setFlight g { f with done := f.done + 1 }).giveSignals g f.card 2 t else s

/-! ## Meanings -/

/-- GROUP_ENTRY. -/
def execGroupEntry (d : Fin 8) (c : Fin 16) (t : Nat) (upset : List (BitVec 37)) (s : State) : Host.Outcome State Fault Refusal :=
  .next (groupEntry (16 * d + c) t (s.upset upset))
/-- GROUP_OUTPUT. -/
def execGroupOutput (d : Fin 8) (c : Fin 16) (t : Nat) (s : State) : Host.Outcome State Fault Refusal :=
  .next (groupOutput (16 * d + c) t s)

end Sys2Proof.Machine
end

