-- ==== Sys2Proof/Machine/Held.lean ====
section
/-!
DEFINITION. What holds a die, and the record of a hold (09_fabric_and_die_links.md R262-R265).
-/

namespace Sys2Proof.Machine

/-- A tile, an iteration or an item of flight `f` has ended by cycle `cyc`, and its EACH signals are due (R197). -/
def CoreState.eachDue (c : CoreState) (g : Nat) (f : Flight) (cyc : Nat) : Bool :=
  if cardOp f.card = 1 then (maskEngines (cardEngMask f.card)).any (fun e => match (c.eng e).drains.head? with
    | some td => td.seq == f.seq && decide (td.start + 32 + td.len ≤ cyc)
    | none => false)
  else if cardOp f.card = 2 then (match c.iterDone cyc with | some y => y.seq == f.seq | none => false)
  else isMover f.card && decide (f.done < f.started) && f.itemEnded g f.done cyc

/-- A signal of a card of core `g` under way that is due in noon cycle `t` and finds no room: its module and the card's position. -/
def State.signalHeld (s : State) (g t : Nat) : Option (Nat × Nat) :=
  let cyc := s.engCycle (g / 16) t
  let c := s.core g
  ((c.flights.filter (fun f => f.localAt.isNone)).filterMap (fun f =>
    let each := if c.eachDue g f cyc then s.signalLack g f.card 2 else none
    let done := if c.workDone f cyc then (s.signalLack g f.card 1).or (if f.reported then s.signalLack g f.card 3 else none) else none
    (each.or done).map (fun k => (k % 4, f.pos)))).head?

/-- The conditions that hold die `d` in noon cycle `t`: cause, module, core and card position, lowest cause first, and among those the
lowest core (R262, R265). -/
def State.holders (s : State) (d t : Nat) : List (Nat × Nat × Nat × Nat) :=
  let cores := (List.range 16).filterMap (fun c =>
    let g := 16 * d + c
    match s.holdCause g t with
    | some k =>
      let module := if k = 3 then (((s.headCard g).bind (fun card => s.signalLack g card 0)).getD 0) % 4 else 0
      some (k, module, c, s.seqPos g)
    | none => (s.signalHeld g t).map (fun x => (3, x.1, c, x.2)))
  let lines := (s.egressWaits d (s.engCycle d t)).map (fun x => (2, x))
  cores.filter (fun x => x.1 == 0) ++ cores.filter (fun x => x.1 == 1) ++ lines ++ cores.filter (fun x => x.1 == 3)

/-- FAB_HOLD_LAST of a hold after `cycles` held cycles (Table 9-17). -/
def holdRecord (h : Hold) (cycles : Nat) : Nat :=
  2 ^ 63 + h.cause * 2 ^ 60 + h.module * 2 ^ 56 + h.core * 2 ^ 52 + min cycles (2 ^ 24 - 1) * 2 ^ 24 + h.card

/-- The hold with the condition that holds the die in cycle `t`; as it was where none does. -/
def State.holdNow (s : State) (d t : Nat) (h : Hold) : Hold :=
  match (s.holders d t).head? with
  | some (k, m, c, card) => { h with cause := k, module := m, core := c, card := card }
  | none => h

/-- The state before something reaches a held die in noon cycle `t`: its hold notes the condition that holds it up to there, since the
record names the one of the last held cycle (R265). -/
def State.seeHold (s : State) (d t : Nat) : State :=
  match (s.die d).hold with
  | none => s
  | some h => s.setDie d { s.die d with hold := some (s.holdNow d t h) }

/-- The state in which the hold of die `d` has ended at cycle `t`, counted and recorded (R265). -/
def State.recordHold (s : State) (d t : Nat) : State :=
  match (s.die d).hold with
  | none => s
  | some h =>
    let n := t - h.since
    let s := s.setDie d { s.die d with hold := none }
    let s := (s.clr32 (Reg.fabHoldCtl d) 1).count64 (Reg.fabHoldCount d) 32 32 1
    (s.count64 (Reg.fabHoldCycles d) 0 64 n).w64 (Reg.fabHoldLast d) (holdRecord h n)

end Sys2Proof.Machine
end

