-- ==== Sys2Proof/Machine/Tocheas.lean ====
section
/-!
DEFINITION. The Tocheas link layer: flow units on the wire, LINK units, replay, credits and the receive pool, lane and quad
changes, and link sleep (11_tocheas_link_layer.md R282-R296, R304-R307).
-/

namespace Sys2Proof.Machine

/-! ## Flow units on the wire (R285, R286) -/

/-- The header bits [223:0] of a flow unit with its RET fields (Table 11-5). -/
def FlowUnit.header (u : FlowUnit) (retKind retVc retValue : Nat) : Nat :=
  u.group % 2 ^ 16 * 2 ^ 39 + retValue % 2 ^ 32 * 2 ^ 55 + retVc % 4 * 2 ^ 87 + retKind % 8 * 2 ^ 89 + u.hops % 64 * 2 ^ 92
    + u.last % 2 * 2 ^ 98 + u.count % 256 * 2 ^ 99 + u.addr % 2 ^ 32 * 2 ^ 107 + u.level % 4 * 2 ^ 139 + u.lc % 128 * 2 ^ 141
    + u.tag % 2 ^ 16 * 2 ^ 148 + u.lmask % 128 * 2 ^ 164 + u.gen % 16 * 2 ^ 172 + u.spart % 64 * 2 ^ 176 + u.dpart % 64 * 2 ^ 182
    + u.src % 2 ^ 15 * 2 ^ 188 + u.dest % 2 ^ 15 * 2 ^ 203 + u.vc % 4 * 2 ^ 218 + u.kind % 16 * 2 ^ 220

/-- CHECK of the bytes from byte 4 up of a unit, with a prefix (R286). -/
def unitCheck (pre body : Nat) : Nat := crc32c (leBytes 4 pre ++ leBytes 252 body)

/-- The 256 bytes of a flow unit as a number, byte 0 lowest. -/
def unitWire (pre header data : Nat) : Nat :=
  let body := header % 2 ^ 224 + data % 2 ^ 1792 * 2 ^ 224
  unitCheck pre body + body * 2 ^ 32

/-- Header field of a unit on the wire. -/
def unitF (x lo w : Nat) : Nat := fld x (32 + lo) w

/-- The flow unit that 256 bytes spell. -/
def FlowUnit.ofWire (x : Nat) : FlowUnit :=
  { kind := unitF x 220 4, vc := unitF x 218 2, dest := unitF x 203 15, src := unitF x 188 15, dpart := unitF x 182 6,
    spart := unitF x 176 6, gen := unitF x 172 4, lmask := unitF x 164 7, tag := unitF x 148 16, lc := unitF x 141 7,
    level := unitF x 139 2, addr := unitF x 107 32, count := unitF x 99 8, last := unitF x 98 1, hops := unitF x 92 6,
    group := unitF x 39 16, data := fld x 256 1792 }

/-- The prefix of a LINK unit. -/
def linkPrefix : Nat := 0xFFFFFFFF

/-- A unit's CHECK matches with a prefix. -/
def unitGood (x pre : Nat) : Bool := fld x 0 32 == unitCheck pre (fld x 32 2016)

/-- The reserved bits of a unit are 0 and its KIND is not reserved (R285). -/
def unitSound (x : Nat) : Bool := unitF x 0 39 == 0 && unitF x 171 1 == 0 && unitF x 220 4 < 8

/-- A KIND of the request class (Table 11-6). -/
def isRequest (kind : Nat) : Bool := kind < 4

/-! ## Ports -/

/-- The record of a port. -/
def State.port (s : State) (p : Nat) : Port := Tab.get (fun _ => {}) s.ports p
/-- The state with the record of a port set. -/
def State.setPort (s : State) (p : Nat) (v : Port) : State := { s with ports := Tab.put (fun _ => {}) s.ports p v }

/-- Units sent on a VC (R293). -/
def Port.sentOf (x : Port) (v : Nat) : Nat := Tab.get (fun _ => 0) x.sent v
/-- The grant last received for a VC (R293). -/
def Port.grantGotOf (x : Port) (v : Nat) : Nat := Tab.get (fun _ => 256) x.grantGot v
/-- RELEASED of a VC. -/
def Port.releasedOf (x : Port) (v : Nat) : Nat := Tab.get (fun _ => 0) x.released v
/-- GRANT of a VC; 256 at link-up. -/
def Port.grantOf (x : Port) (v : Nat) : Nat := Tab.get (fun _ => 256) x.grant v
/-- L of a VC. -/
def Port.lentOf (x : Port) (v : Nat) : Nat := Tab.get (fun _ => 0) x.lent v
/-- O of a VC. -/
def Port.held (x : Port) (v : Nat) : Nat := (x.pool.filter (fun u => u.unit.vc == v)).length

/-- POWER of TCL_PORT_STATUS (Table 11-12). -/
def State.portPower (s : State) (p : Nat) : Nat := s.f64 (Reg.tclPortStatus p) 27 2
/-- The state with POWER of TCL_PORT_STATUS set. -/
def State.setPortPower (s : State) (p x : Nat) : State := s.sf64 (Reg.tclPortStatus p) 27 2 x
/-- OUT_OF_SERVICE of a port. -/
def State.portOut (s : State) (p : Nat) : Bool := bitAt (s.r64 (Reg.tclPortStatus p)) 6
/-- IN_SERVICE of a port: it trained at Dawn. -/
def State.portTrained (s : State) (p : Nat) : Bool := bitAt (s.r32 (Reg.tclPortCfg p)) 31
/-- The port is in service. -/
def State.portIn (s : State) (p : Nat) : Bool := s.portTrained p && !s.portOut p
/-- QUADS_LIVE of a port. -/
def State.quadsLive (s : State) (p : Nat) : Nat := s.f64 (Reg.tclPortStatus p) 32 24
/-- The port has quads (R315). -/
def State.hasQuads (s : State) (p : Nat) : Bool := s.f32 (Reg.tclPortCfg p) 0 24 != 0
/-- The state with bit `i` of TCL_PORT_STATUS set. -/
def State.portFlag (s : State) (p i : Nat) : State := s.sf64 (Reg.tclPortStatus p) i 1 1
/-- A port that carries the Hour handshake: a primary port (R288). -/
def isPrimary (p : Nat) : Bool := p < 6

/-- The port can send sequenced units now. -/
def State.portUp (s : State) (p : Nat) : Bool :=
  let x := s.port p
  s.portIn p && !x.retraining && s.portPower p == 0 && (match x.change with | some c => !c.paused | none => true)

/-- The package's own identifier (Table 12-1). -/
def State.pkgId (s : State) : Nat := s.f64 Reg.rteSelf 0 12
/-- The far end's package identifier of a port. -/
def State.neighbour (s : State) (p : Nat) : Nat := s.f32 (Reg.rtePort p) 20 12
/-- COUPLED. -/
def State.coupled (s : State) : Bool := bitAt (s.r32 Reg.topHourCtl) 16

/-! ## Quads (R282, R284) -/

/-- Lane `i` (0 to 3) of quad `q` (R282): of each codeword it carries the symbols whose number is `i` modulo 4 (R284). -/
def quadLane (q i : Nat) : Nat := q / 6 * 26 + q % 6 * 4 + i

/-- The codeword of a quad, of 514 message symbols of 10 bits, and the symbol in it, that hold a bit of its message stream, where
unit `k` of the quad occupies bits 2,048 k up (R284). -/
def streamSymbol (b : Nat) : Nat × Nat := (b / 5140, b % 5140 / 10)

/-- The live quad that takes the next unit of a rotation in which `last` took the one before (R284). -/
def nextQuad (live : Nat) (last : Option Nat) : Nat :=
  let l := upto 24 (fun q => bitAt live q)
  let later := match last with | some x => l.filter (fun q => decide (x < q)) | none => l
  ((later ++ l).head?).getD 0

/-- The state after a unit has been dealt to a live quad of port `p`: a narrowed port's rotation starts with the unit of the agreed
sequence (R284, R296; log entry 41). -/
def State.deal (s : State) (p : Nat) (seq : Option Nat) : State :=
  let x := s.port p
  let starts := seq.isSome && seq == x.turnAt
  let q := nextQuad (s.quadsLive p) (if starts then none else x.turn)
  s.setPort p { x with turn := some q, dealt := Tab.put (fun _ => 0) x.dealt q (Tab.get (fun _ => 0) x.dealt q + 1),
                       turnAt := if starts then none else x.turnAt }

/-! ## LINK units (R287) -/

/-- The payload of a LINK unit (Table 11-7): SPARE_OP is 1 REQ or 2 ACK where a change is under way. -/
def State.linkPayload (s : State) (p : Nat) (nak : Bool) (spareOp : Nat) : Nat :=
  let x := s.port p
  let c : LaneChange := x.change.getD ⟨0, 0, 0, false, false⟩
  (x.wantSeq + 2 ^ 32 - 1) % 2 ^ 32
    + x.wantSeq * 2 ^ 32
    + ((if nak then 1 else 0) + (if s.coupled then 2 else 0) + x.power % 4 * 4) * 2 ^ 64
    + s.f32 Reg.topHourCtl 0 5 * 2 ^ 72
    + (if spareOp = 0 then 0 else c.spare % 128 + c.lane % 128 * 2 ^ 7 + spareOp * 2 ^ 14) * 2 ^ 80
    + (if spareOp = 0 then 0 else c.seqAt % 2 ^ 32) * 2 ^ 96
    + (x.grantOf 0 + x.grantOf 1 * 2 ^ 32 + x.grantOf 2 * 2 ^ 64 + x.grantOf 3 * 2 ^ 96) * 2 ^ 128
    + s.hour.reached % 2 ^ 64 * 2 ^ 256 + s.hour.opened % 2 ^ 64 * 2 ^ 320 + s.quadsLive p * 2 ^ 384

/-- The state in which a port sends a LINK unit; it carries ACK_SEQ, so nothing remains unacknowledged. -/
def State.sendLink (s : State) (p : Nat) (nak : Bool) (spareOp : Nat) : State :=
  let h : FlowUnit := { kind := 7, dest := s.neighbour p * 8, src := s.pkgId * 8 }
  let s := (s.emit (.tclUnit p (unitWire linkPrefix (h.header 0 0 0) (s.linkPayload p nak spareOp)))).deal p none
  s.setPort p { s.port p with got := 0 }

/-! ## Sending (R289, R293) -/

/-- One sequenced unit on the wire. Its RET fields carry an ACK while one is owed, and else the grant of a VC, the four in turn
(R285, R293, log entry 68). -/
def State.emitUnit (s : State) (p seq : Nat) (u : FlowUnit) : State :=
  let x := s.port p
  let h := if 0 < x.got then u.header 1 0 ((x.wantSeq + 2 ^ 32 - 1) % 2 ^ 32) else u.header 2 (seq % 4) (x.grantOf (seq % 4))
  let s := (s.emit (.tclUnit p (unitWire seq h u.data))).deal p (some seq)
  s.setPort p { s.port p with got := 0, idle := false }

/-- One more unit may be sent on a VC (R293). -/
def Port.credit (x : Port) (v : Nat) : Bool :=
  let n := (x.grantGotOf v + 2 ^ 32 - x.sentOf v) % 2 ^ 32
  1 ≤ n && n ≤ 2 ^ 31

/-- The state in which port `p` sends a unit, or none where it cannot now: the port not up, its replay buffer full, or no
credit, which sets CREDIT_STALL (R289, R293). HOPS counts the hop (log entry 12). -/
def State.trySend (s : State) (p : Nat) (u : FlowUnit) : State × Bool :=
  let x := s.port p
  if !s.portUp p || 4096 ≤ x.replay.length then
    -- a unit to send withdraws a proposal of sleep that is not agreed (R305)
    (if x.power = 1 ∧ !x.agreed then s.setPort p { x with power := 0, idle := false } else s, false)
  else if !x.credit u.vc then (s.portFlag p 1, false)
  else
    let u := { u with hops := u.hops + 1 }
    let seq := x.sendSeq
    let x := { x with sendSeq := (seq + 1) % 2 ^ 32, replay := x.replay ++ [(seq, u)],
                      sent := Tab.put (fun _ => 0) x.sent u.vc ((x.sentOf u.vc + 1) % 2 ^ 32),
                      power := if x.power = 1 ∧ !x.agreed then 0 else x.power }
    ((s.setPort p x).emitUnit p seq u, true)

/-- The waiting units of a port sent in order, each VC for itself: the state and the units that still wait (R292). -/
def State.sendWaiting (s : State) (p : Nat) (blocked : List Nat) : List FlowUnit → State × List FlowUnit
  | [] => (s, [])
  | u :: t =>
    if blocked.contains u.vc then
      let r := s.sendWaiting p blocked t
      (r.1, u :: r.2)
    else
      match s.trySend p u with
      | (s', true) => s'.sendWaiting p blocked t
      | (s', false) =>
        let r := s'.sendWaiting p (u.vc :: blocked) t
        (r.1, u :: r.2)

/-- Everything of this package that port `p` can send now is sent. -/
def State.pumpPort (s : State) (p : Nat) : State :=
  let r := s.sendWaiting p [] (s.port p).waiting
  r.1.setPort p { r.1.port p with waiting := r.2 }

/-- A unit of this package enters the queue of its port. -/
def State.queueUnit (s : State) (p : Nat) (u : FlowUnit) : State :=
  (s.setPort p { s.port p with waiting := (s.port p).waiting ++ [u] }).pumpPort p

/-! ## Replay (R289, R290) -/

/-- `a - b` modulo 2^32 lies below 2^31. -/
def seqGe (a b : Nat) : Bool := (a + 2 ^ 32 - b) % 2 ^ 32 < 2 ^ 31

/-- A port begins to retrain (R290). -/
def State.startRetrain (s : State) (p : Nat) : State := s.setPort p { s.port p with retraining := true, nakOpen := false }

/-- The units of the replay buffer from a sequence onward sent again. -/
def State.resend (s : State) (p start : Nat) : State :=
  ((s.port p).replay.filter (fun e => seqGe e.1 start)).foldl (fun s e => s.emitUnit p e.1 e.2) s

/-- A replay from a sequence: counted, and after 16 that start there the port retrains (R289, R290). -/
def State.replayFrom (s : State) (p start : Nat) : State :=
  let x := s.port p
  let n := if x.replays.1 = start then x.replays.2 + 1 else 1
  let s := (s.portFlag p 2).count64 (Reg.tclPortCount1 p) 8 24 1
  let s := (s.setPort p { x with replays := (start, n) }).resend p start
  if 16 ≤ n then s.startRetrain p else s

/-- ACK_SEQ drops the units it covers (R289). -/
def State.takeAck (s : State) (p ack : Nat) : State :=
  let x := s.port p
  let rest := x.replay.filter (fun e => !seqGe ack e.1)
  if rest.length = x.replay.length then s
  else s.setPort p { x with replay := rest, replays := (0, 0) }

/-- A grant of a VC: the count only rises (R293). -/
def State.takeGrant (s : State) (p v g : Nat) : State :=
  let x := s.port p
  if seqGe g (x.grantGotOf v) then s.setPort p { x with grantGot := Tab.put (fun _ => 256) x.grantGot v g } else s

/-- A NAK names the sequence to resend from; outside the buffer and the place after it the port retrains (R289, R290; log
entry 42). -/
def State.takeNak (s : State) (p start : Nat) : State :=
  let x := s.port p
  if x.retraining then s
  else if x.replay.any (fun e => e.1 == start) then s.replayFrom p start
  else if start = x.sendSeq then s
  else s.startRetrain p

/-- RET fields of an accepted unit (Table 11-5). -/
def State.takeRet (s : State) (p bits : Nat) : State :=
  let k := unitF bits 89 3
  let v := unitF bits 55 32
  if k = 1 then s.takeAck p v else if k = 2 then s.takeGrant p (unitF bits 87 2) v else s

/-- A unit is discarded: counted, and a NAK names the unit expected (R285, R286, R289). -/
def State.discardUnit (s : State) (p : Nat) : State :=
  let s := s.count64 (Reg.tclPortCount1 p) 32 32 1
  if (s.port p).nakOpen then s
  else (s.setPort p { s.port p with nakOpen := true }).sendLink p true 0

/-! ## The receive pool (R293) -/

/-- `x` rounded up to a multiple of 64. -/
def ceil64 (x : Nat) : Nat := (x + 63) / 64 * 64

/-- The sum of the shared units lent. -/
def Port.lentSum (x : Port) : Nat := x.lentOf 0 + x.lentOf 1 + x.lentOf 2 + x.lentOf 3

/-- R293's rule for one VC, once. -/
def Port.lend (x : Port) (v : Nat) : Port :=
  let o := x.held v
  let l := x.lentOf v
  let u := (x.grantOf v + 2 ^ 32 - x.releasedOf v) % 2 ^ 32
  let l' := if 256 + l - 64 ≤ o ∧ l ≤ 1984 ∧ x.lentSum ≤ 3008 then l + 64
    else if o < 64 ∧ 0 < l then max (l - 64) (ceil64 (u - 256)) else l
  let g := (x.releasedOf v + 256 + l') % 2 ^ 32
  { x with lent := Tab.put (fun _ => 0) x.lent v l',
           grant := Tab.put (fun _ => 256) x.grant v (if seqGe g (x.grantOf v) then g else x.grantOf v) }

/-- R293's rule for every VC, as often as it still changes anything (it runs each IOD cycle). -/
def Port.lendAll (x : Port) : Nat → Port
  | 0 => x
  | n + 1 => ((((x.lend 0).lend 1).lend 2).lend 3).lendAll n

/-- The runs of the rule that a change of a VC's pool can need: 32 steps of 64 units lend or take back all that one VC may have. -/
def lendRuns : Nat := 32

/-! ## The Hour fields (R47, R288) -/

/-- The Hour fields of a LINK unit: a primary neighbour's count, and a different HOUR_LEN_LOG2, which sets LEN_MISMATCH and, where
that was clear, posts the event (R47, Table 13-7). -/
def State.takeHour (s : State) (p arrived opened len : Nat) (coupled : Bool) : State :=
  let x := s.port p
  let bad := len != s.f32 Reg.topHourCtl 0 5
  let s := s.setPort p { x with farArrived := arrived, farOpened := opened, farSeen := true, farLenBad := bad, farCoupled := coupled }
  if bad && isPrimary p && !bitAt (s.r32 Reg.topHourStatus) 3 then
    let s := s.set32 Reg.topHourStatus 3
    s.postEvent 0x0008 0xFF 8 (s.r32 Reg.topHourStatus)
  else s

/-! ## Sleep (R304-R306) -/

/-- The state-held conditions of R304 for a port: it may sleep, it has been idle, and nothing is in its buffer or pool. -/
def State.maySleep (s : State) (p : Nat) : Bool :=
  let x := s.port p
  s.portUp p && (!isPrimary p || !s.coupled || s.f32 Reg.pwrState 0 3 != 0) && s.f64 Reg.tclCtl 24 16 != 0
    && x.idle && x.replay.isEmpty && x.pool.isEmpty && x.waiting.isEmpty

/-- POWER of an accepted LINK unit (R305). A proposal stands until it is answered or a unit has to be sent. -/
def State.takePower (s : State) (p far : Nat) : State :=
  let x := s.port p
  if far = 1 then
    (if x.agreed then s
     else if s.maySleep p then ((s.setPort p { x with power := 2, agreed := true }).setPortPower p 1).sendLink p false 0
     else (s.setPort p { x with power := 0 }).sendLink p false 0)
  else if far = 2 then
    (if x.power = 1 ∧ !x.agreed then (s.setPort p { x with agreed := true }).setPortPower p 1 else s)
  else s

/-! ## Lane and quad changes (R294-R296) -/

/-- The quad that a lane serves: its own, or for a spare in service that of the lane it replaced. -/
def laneQuad (x : Port) (lane : Nat) : Nat :=
  let l := if lane % 26 < 24 then lane else ((x.subst.find? (fun y => y.1 == lane)).elim lane (·.2))
  l / 26 * 6 + l % 26 / 4

/-- The port whose live quads a lane serves. -/
def State.lanePort (s : State) (lane : Nat) : Option Nat :=
  (List.range 12).find? (fun p =>
    let x := s.port p
    (lane % 26 < 24 || x.subst.any (fun y => y.1 == lane)) && s.portIn p && bitAt (s.quadsLive p) (laneQuad x lane))

/-- State of a lane (Table 11-15). -/
def State.laneState (s : State) (l : Nat) : Nat := s.f64 (Reg.tclLaneMap (l / 26)) (2 * (l % 26)) 2
/-- The state with the state of a lane set. -/
def State.setLane (s : State) (l x : Nat) : State := s.sf64 (Reg.tclLaneMap (l / 26)) (2 * (l % 26)) 2 x

/-- Byte `i` of the Dawn configuration in effect (Table 17-3). -/
def State.configByte (s : State) (i : Nat) : Nat := fld s.config (8 * i) 8

/-- A healthy spare lane of a bank wired into a port's cable (R294, R312). -/
def State.spareFor (s : State) (p bank : Nat) : Option Nat :=
  ((List.range 2).map (fun j => bank * 26 + 24 + j)).find? (fun l => s.configByte (40 + 2 * bank + (l % 26 - 24)) == p && s.laneState l == 1)

/-- A port goes out of service (R290, R296): the units in its replay buffer and pool are lost (R303, R321). -/
def State.portGone (s : State) (p : Nat) : State :=
  let s := s.setPort p { s.port p with retraining := false, change := none, lanesDue := [], replay := [], pool := [] }
  (s.portFlag p 6).postEvent 0x0007 0xFF 8 (1 + 8 * 2 ^ 8 + p * 2 ^ 16)

/-- The end of a change: the lane or quad takes its new state, and the receiver's NAK names its E (R295, R296). -/
def State.applyChange (s : State) (p : Nat) (c : LaneChange) : State :=
  let x := s.port p
  let q := laneQuad x c.lane
  let orig := if c.lane % 26 < 24 then c.lane else ((x.subst.find? (fun y => y.1 == c.lane)).elim c.lane (·.2))
  let s := s.count64 (Reg.tclPortCount1 p) 0 8 1
  let x := { x with change := none, nakOpen := true }
  if c.spare ≠ 0x7F then
    let x := { x with subst := (x.subst.filter (fun y => y.1 != c.lane)) ++ [(c.spare, orig)] }
    let s := ((s.setPort p x).setLane c.lane 2).setLane c.spare 0
    ((s.portFlag p 3).sendLink p true 0).pumpPort p
  else
    let s := (List.range 4).foldl (fun s i => let l := q / 6 * 26 + q % 6 * 4 + i; if s.laneState l = 0 then s.setLane l 3 else s) s
    -- a spare that served the quad is a spare again (log entry 69)
    let served := x.subst.filter (fun y => laneQuad x y.1 == q)
    let s : State := served.foldl (fun s y => s.setLane y.1 1) s
    let x : Port := { x with subst := x.subst.filter (fun y => !served.contains y) }
    -- in the direction whose receiver named SPARE_AT the rotation starts there, in the other with the next unit
    let x : Port := if c.mine then { x with turn := none } else { x with turnAt := some c.seqAt }
    let s : State := ((s.setPort p x).setLane c.lane 2).sf64 (Reg.tclPortStatus p) (32 + q) 1 0
    let s := s.portFlag p 4
    if s.quadsLive p = 0 then s.portGone p else (s.sendLink p true 0).pumpPort p

/-- A receiver begins a change of a failed lane that serves a live quad of port `p`: it names the spare, or none for the quad
(R294, R295). -/
def State.beginChange (s : State) (p lane : Nat) : State :=
  let x := s.port p
  let spare := (s.spareFor p (lane / 26)).getD 0x7F
  (s.setPort p { x with change := some ⟨lane, spare, (x.wantSeq + 1) % 2 ^ 32, true, false⟩ }).sendLink p false 1

/-- The change of the next failed lane that waits begins; a lane that serves no live quad any more is forgotten (R295). -/
def State.nextChange (s : State) (p : Nat) : State :=
  let x := s.port p
  if x.change.isSome then s
  else match x.lanesDue.filter (fun l => s.lanePort l == some p) with
    | [] => s.setPort p { x with lanesDue := [] }
    | l :: ls => (s.setPort p { x with lanesDue := ls }).beginChange p l

/-- SPARE_OP of an accepted LINK unit (R295): a REQ is answered with ACK, an ACK of the own change stops the port's traffic. Of
two REQs that meet, the one of the end with the lower endpoint number goes first, and the other starts afresh. -/
def State.takeSpareOp (s : State) (p op lane spare seqAt farEnd : Nat) : State :=
  let x := s.port p
  if op = 1 then
    let first := match x.change with
      | none => true
      | some c => !c.mine && c.lane == lane || (c.mine && !c.paused && decide (farEnd < s.pkgId * 8))
    let due := match x.change with
      | some c => if c.mine && c.lane != lane then x.lanesDue ++ [c.lane] else x.lanesDue
      | none => x.lanesDue
    if first then (s.setPort p { x with change := some ⟨lane, spare, seqAt, false, true⟩, lanesDue := due }).sendLink p false 2 else s
  else if op = 2 then
    match x.change with
    | some c => if c.mine && c.lane == lane && c.spare == spare then s.setPort p { x with change := some { c with paused := true } } else s
    | none => s
  else s

/-! ## LINK units that arrive (R286-R290, R305) -/

/-- Field of a LINK unit's payload, by byte of the unit. -/
def linkF (x byte n : Nat) : Nat := fld x (8 * byte) (8 * n)

/-- What the FEC of a port reports: symbols corrected and codewords it could not correct, added to TCL_PORT_COUNT0
(Table 11-13). -/
def State.countFec (s : State) (p corrected uncorr : Nat) : State :=
  (s.count64 (Reg.tclPortCount0 p) 32 32 corrected).count64 (Reg.tclPortCount0 p) 0 32 uncorr

/-- A unit arrives that the port takes as a LINK unit, or discards. -/
def takeLinkUnit (p x : Nat) (s : State) : State :=
  if !(unitGood x linkPrefix && unitF x 220 4 == 7 && unitSound x && fld x 664 1384 == 0) then s.discardUnit p
  else
    let s := if unitF x 188 15 / 8 = s.neighbour p then s else s.portFlag p 7
    let s := (s.takeRet p x).takeAck p (linkF x 32 4)
    let s := (List.range 4).foldl (fun s v => s.takeGrant p v (linkF x (48 + 4 * v) 4)) s
    let s := s.takeHour p (linkF x 64 8) (linkF x 72 8) (fld x (8 * 41) 5) (bitAt x (8 * 40 + 1))
    let s := s.takePower p (fld x (8 * 40 + 2) 2)
    let s := s.takeSpareOp p (fld x (8 * 42 + 14) 2) (fld x (8 * 42 + 7) 7) (fld x (8 * 42) 7) (linkF x 44 4) (unitF x 188 15)
    let s := if bitAt x (8 * 40) then s.takeNak p (linkF x 36 4) else s
    s.pumpPort p

/-- TCL_LINK: a port that is in takes the unit, with what its FEC corrected and failed to correct since the last LINK unit. -/
def tclLink (p x corrected uncorr : Nat) (s : State) : State :=
  if !s.portIn p then s else takeLinkUnit p x (s.countFec p corrected uncorr)

/-! ## Timers and completions -/

/-- LINK_UNIT_TIMER: a LINK unit is sent (R287). -/
def linkUnitTimer (p : Nat) (s : State) : State := if s.portIn p then s.sendLink p false 0 else s

/-- TCL_ACK_TIMER: accepted units wait for their acknowledgement 500 ns (R289). -/
def tclAckTimer (p : Nat) (s : State) : State := if s.portIn p && 0 < (s.port p).got then s.sendLink p false 0 else s

/-- NAK_REPEAT_TIMER: the expected unit is still missing 200 ns after the last NAK (R289). -/
def nakRepeatTimer (p : Nat) (s : State) : State := if s.portIn p && (s.port p).nakOpen then s.sendLink p true 0 else s

/-- SILENT_LOSS_REPLAY: the oldest unacknowledged unit has waited 4 µs (R289). -/
def silentLossReplay (p : Nat) (s : State) : State :=
  match (s.port p).replay with
  | [] => s
  | e :: _ => if s.portIn p && !(s.port p).retraining then s.replayFrom p e.1 else s

/-- PORT_RETRAIN_COMPLETE: a retrain ends well and replay resumes, or fails; two failures in a row take the port out of service
(R290). -/
def portRetrainComplete (p : Nat) (ok : Bool) (s : State) : State :=
  let x := s.port p
  if !x.retraining then s
  else
    let s := (s.portFlag p 5).count64 (Reg.tclPortCount1 p) 0 8 1
    if ok then
      let s := s.setPort p { x with retraining := false, failedRetrains := 0, replays := (0, 0), nakOpen := true,
                                    turn := none, dealt := [], turnAt := none }
      (((x.replay.head?).elim s (fun e => s.resend p e.1)).sendLink p true 0).pumpPort p
    else if 1 ≤ x.failedRetrains then s.portGone p
    else s.setPort p { x with failedRetrains := x.failedRetrains + 1 }

/-- TCL_LANE_FAILURE: the receiver begins a change of the failed lane or of its quad (R294, R295). -/
def tclLaneFailure (lane : Nat) (s : State) : State :=
  match s.lanePort lane with
  | none => s
  | some p =>
    let x := s.port p
    match x.change with
    | some c => if c.lane == lane || x.lanesDue.contains lane then s else s.setPort p { x with lanesDue := x.lanesDue ++ [lane] }
    | none => s.beginChange p lane

/-- LANE_REPLACEMENT_COMPLETE: the lane is trained, or the narrowed rotation begins (R295, R296). -/
def laneReplacementComplete (p : Nat) (s : State) : State :=
  match (s.port p).change with
  | none => s
  | some c => if c.paused then (s.applyChange p c).nextChange p else s

/-- SLEEP_IDLE_EXPIRY: a port has been idle for SLEEP_IDLE_US and proposes to sleep (R304, R305). -/
def sleepIdleExpiry (p : Nat) (s : State) : State :=
  let s' := s.setPort p { s.port p with idle := true }
  if s'.maySleep p && (s.port p).power == 0 then (s'.setPort p { s'.port p with power := 1 }).sendLink p false 0 else s'

/-- SLEEP_ENTRY_COMPLETE: the entry to sleep ends (R305). -/
def sleepEntryComplete (p : Nat) (s : State) : State := if s.portPower p = 1 then s.setPortPower p 2 else s

/-- PORT_WAKE_COMPLETE: the woken port carries sequenced units again (R305). -/
def portWakeComplete (p : Nat) (s : State) : State :=
  if s.portPower p = 3 then
    ((s.setPortPower p 0).setPort p { s.port p with power := 0, agreed := false, idle := false }).pumpPort p
  else s

/-! ## Meanings -/

/-- TCL_LINK. -/
def execTclLink (p : Fin 12) (bits : BitVec 2048) (corrected uncorr : Nat) (s : State) : Host.Outcome State Fault Refusal :=
  .next (tclLink p bits.toNat corrected uncorr s)
/-- LINK_UNIT_TIMER. -/
def execLinkUnitTimer (p : Fin 12) (s : State) : Host.Outcome State Fault Refusal := .next (linkUnitTimer p s)
/-- TCL_ACK_TIMER. -/
def execTclAckTimer (p : Fin 12) (s : State) : Host.Outcome State Fault Refusal := .next (tclAckTimer p s)
/-- NAK_REPEAT_TIMER. -/
def execNakRepeatTimer (p : Fin 12) (s : State) : Host.Outcome State Fault Refusal := .next (nakRepeatTimer p s)
/-- SILENT_LOSS_REPLAY. -/
def execSilentLossReplay (p : Fin 12) (s : State) : Host.Outcome State Fault Refusal := .next (silentLossReplay p s)
/-- PORT_RETRAIN_COMPLETE. -/
def execPortRetrainComplete (p : Fin 12) (ok : Bool) (s : State) : Host.Outcome State Fault Refusal := .next (portRetrainComplete p ok s)
/-- TCL_LANE_FAILURE. -/
def execTclLaneFailure (lane : Fin 104) (s : State) : Host.Outcome State Fault Refusal := .next (tclLaneFailure lane s)
/-- LANE_REPLACEMENT_COMPLETE. -/
def execLaneReplacementComplete (p : Fin 12) (s : State) : Host.Outcome State Fault Refusal := .next (laneReplacementComplete p s)
/-- SLEEP_IDLE_EXPIRY. -/
def execSleepIdleExpiry (p : Fin 12) (s : State) : Host.Outcome State Fault Refusal := .next (sleepIdleExpiry p s)
/-- SLEEP_ENTRY_COMPLETE. -/
def execSleepEntryComplete (p : Fin 12) (s : State) : Host.Outcome State Fault Refusal := .next (sleepEntryComplete p s)
/-- PORT_WAKE_COMPLETE. -/
def execPortWakeComplete (p : Fin 12) (s : State) : Host.Outcome State Fault Refusal := .next (portWakeComplete p s)

end Sys2Proof.Machine
end

