-- ==== Sys2Proof/Machine/Route.lean ====
section
/-!
DEFINITION. Routing of flow units, delivery at the target, remote transactions and the arrival of sequenced flow units
(11_tocheas_link_layer.md R285-R303, 12_system_topology.md R308-R318, 17_dawn_resets_recovery.md R450).
-/

namespace Sys2Proof.Machine

/-! ## Routing (R315, R316) -/

/-- What the active table says of a unit (R315). -/
inductive RouteAct where
  | unreachable
  | routeErr
  | passMode
  | deliver
  | port (q : Nat)
  deriving DecidableEq, Repr

/-- An entry of the active routing table (Table 12-6). -/
def State.routeEntry (s : State) (pkg : Nat) : Nat := fld (s.r32 (Reg.rteTableAct + pkg / 4 * 4)) (8 * (pkg % 4)) 8
/-- RING of a port (Table 12-12). -/
def State.portRing (s : State) (p : Nat) : Nat := s.f32 (Reg.rtePort p) 0 3
/-- A gateway is in PASS mode (R39). -/
def State.passGate (s : State) (g : Nat) : Bool := bitAt (s.r32 Reg.rteGwMode) g

/-- The action for a unit that came from a port, or from a die of this package (R315). -/
def State.routeOf (s : State) (arrival : Option Nat) (u : FlowUnit) : RouteAct :=
  let e := s.routeEntry (u.dest / 8)
  let q := e % 16
  if !bitAt e 7 then .unreachable
  else if q = 12 then
    (if u.dest / 8 = s.pkgId then
      (match arrival with
        | none => .deliver
        | some p => if s.passGate (p / 2) then .passMode else .deliver)
     else .routeErr)
  else if 12 < q || !s.hasQuads q || 6 ≤ s.portRing q then .routeErr
  else match arrival with
    | none => .port q
    | some p => if s.portRing q < s.portRing p then .routeErr else .port q

/-- The unit with the VC that a departure gives it (R316). -/
def State.withVc (s : State) (arrival : Option Nat) (q : Nat) (u : FlowUnit) : FlowUnit :=
  let base := if isRequest u.kind then 0 else 2
  let v := match arrival with
    | none => base
    | some p => if s.portRing p = s.portRing q then base + u.vc % 2 else base
  { u with vc := if bitAt (s.r32 (Reg.rtePort q)) 7 then base + 1 else v }

/-- A unit met an entry with VALID = 0 (R315). -/
def State.countUnreachable (s : State) : State := (s.set32 Reg.rteStatus 2).count64 Reg.rteCount 32 32 1
/-- An entry or a departure broke R315 or R316. -/
def State.countRouteErr (s : State) : State := (s.set32 Reg.rteStatus 3).count64 Reg.rteCount 0 32 1
/-- A response that no transaction holds (R303, R450). -/
def State.lateDrop (s : State) : State := s.count64 Reg.tclTxnCount1 8 12 1

/-! ## Transactions (R297-R303) -/

/-- The transaction of a tag. -/
def State.txn (s : State) (tag : Nat) : Option Txn := Tab.get (fun _ => none) s.txns tag

/-- The state with the transaction of a tag set; OUTSTANDING and HIGH_WATER follow (Table 11-16). -/
def State.setTxn (s : State) (tag : Nat) (v : Option Txn) : State :=
  let s := { s with txns := Tab.put (fun _ => none) s.txns tag v }
  let n := s.txns.length
  let s := s.sf64 Reg.tclTxnStatus 16 15 n
  if s.f64 Reg.tclTxnStatus 32 15 < n then s.sf64 Reg.tclTxnStatus 32 15 n else s

/-- The transactions in flight. -/
def State.txnList (s : State) : List (Nat × Txn) := s.txns.filterMap (fun e => e.2.map (fun x => (e.1, x)))

/-- Reports of written lines from die `d` (8: the IOD) to a die, at most 4,095 lines each (R254). -/
def State.reportLines (s : State) (d die tag part gen : Nat) : Nat → Nat → State
  | 0, _ => s
  | n + 1, lines =>
    if lines = 0 then s
    else
      let k := min lines 4095
      (s.routeMsg d { kind := 2, src := d, dest := die, body := tag % 2 ^ 16 + k * 2 ^ 16 + part % 64 * 2 ^ 28 + gen % 16 * 2 ^ 34 }).reportLines
        d die tag part gen n (lines - k)

/-- The state after a transaction has ended: its tag, quota and window units are free; its item is reported to its die once
every transaction of the item has ended, and a failed item never is (R297, R301, R303). -/
def State.endTxn (s : State) (tag : Nat) (failed : Bool) : State :=
  match s.txn tag with
  | none => s
  | some x =>
    let s := s.setTxn tag none
    if x.head.kind = 1 then s
    else
      let mine (i : RemoteItem) : Bool := i.die == x.die && i.tag == x.dieTag && i.part == x.part
      let i : RemoteItem := (s.items.find? mine).getD ⟨x.die, x.dieTag, x.part, x.gen, 0, false⟩
      let i := { i with lines := if failed then i.lines else i.lines + x.lines, failed := i.failed || failed }
      let rest := s.items.filter (fun y => !mine y)
      if s.txnList.any (fun e => e.2.die == x.die && e.2.dieTag == x.dieTag && e.2.part == x.part && e.2.head.kind != 1) then
        { s with items := rest ++ [i] }
      else
        let s := { s with items := rest }
        if i.failed || x.dieTag = 0xFFFF then s else s.reportLines 8 x.die x.dieTag x.part x.gen (i.lines / 4095 + 1) i.lines

/-- The state with a partition's stop recorded for a failed transaction; a fenced job does not stop for them (R452). -/
def State.stopFor (s : State) (n status : Nat) : State := if s.fencedJob n then s else s.recordStop n status .fault

/-- A tag put in quarantine (R303). -/
def State.quarantined (s : State) (tag : Nat) : State := { s with quarantine := s.quarantine ++ [tag] }

/-- Every transaction of a partition ends at once as its generation advances (R450). -/
def State.endPartTxns (s : State) (n : Nat) : State :=
  let tags := (s.txnList.filter (fun e => e.2.part == n)).map (·.1)
  let s := tags.foldl (fun s tag => (s.setTxn tag none).quarantined tag) s
  { s with items := s.items.filter (fun i => i.part != n) }

/-! ## Responses at their source -/

/-- Lines that a mask of `n` bits names, in order. -/
def maskLines (mask n : Nat) : List Nat := upto n (fun i => bitAt mask i)

/-- The outcome of an ERROR_RSP code at the source partition (Table 11-9). -/
def errorStop (code : Nat) : Option Nat :=
  if code = 1 ∨ code = 2 then some 0x63 else if code = 3 then some 0x51 else if code = 5 then some 0x64 else none

/-- A response is taken at its source (R297, R301, R303). -/
def State.takeResponse (s : State) (u : FlowUnit) : State :=
  if u.kind = 6 then
    let s := s.sf64 Reg.tclTxnStatus 3 1 1
    if u.tag = 0xFFFF then
      (if u.gen = s.gen u.dpart then (errorStop u.count).elim s (fun st => s.stopFor u.dpart st) else s.lateDrop)
    else match s.txn u.tag with
      | none => s.lateDrop
      | some x =>
        if x.gen ≠ u.gen then s.lateDrop
        else
          let s := s.endTxn u.tag true
          (errorStop u.count).elim s (fun st => s.stopFor x.part st)
  else match s.txn u.tag with
    | none => s.lateDrop
    | some x =>
      if x.gen ≠ u.gen then s.lateDrop
      else if u.kind = 5 then (if x.head.kind = 1 then s.lateDrop else s.endTxn u.tag false)
      else if x.head.kind ≠ 1 then s.lateDrop
      else
        let n := (maskLines u.lmask 7).length
        let s := s.routeFrame 8 { kind := 1, src := 8, dest := x.die, cls := 1, part := x.part, gen := x.gen, lmask := u.lmask,
                                  tag := x.dieTag, addr := u.addr, data := u.data }
        if u.last = 1 || x.lines ≤ n then s.endTxn u.tag false else s.setTxn u.tag (some { x with lines := x.lines - n })

/-- A response of this package goes out: delivered here, or queued on its port; one that cannot be served is discarded
without answer (R301, R315). -/
def State.sendResponse (s : State) (u : FlowUnit) : State :=
  match s.routeOf none u with
  | .deliver => s.takeResponse u
  | .passMode => s.takeResponse u
  | .port q => s.queueUnit q (s.withVc none q u)
  | .unreachable => s.countUnreachable
  | .routeErr => s.countRouteErr

/-! ## Requests at their target (R301, R308) -/

/-- The answer to a request that cannot be served (R301). -/
def errorAnswer (pkg : Nat) (u : FlowUnit) (code : Nat) : FlowUnit :=
  { kind := 6, vc := 2, dest := u.src, src := pkg * 8, dpart := u.spart, spart := u.dpart, gen := u.gen, tag := u.tag, count := code, last := 1 }

/-- A later unit of a transaction that has been answered; its last one ends the matter (R301). -/
def State.endAnswered (s : State) (u : FlowUnit) : State :=
  if u.last = 1 then { s with answered := s.answered.erase (u.src, u.tag) } else s

/-- A request is answered with an ERROR_RSP; the later units of its transaction are discarded without answer (R301). -/
def State.refuseUnit (s : State) (u : FlowUnit) (code : Nat) : State :=
  if s.answered.contains (u.src, u.tag) ∧ u.tag ≠ 0xFFFF then s.endAnswered u
  else
    let s := if u.tag ≠ 0xFFFF ∧ u.last = 0 ∧ u.kind ≠ 1 then { s with answered := s.answered ++ [(u.src, u.tag)] } else s
    s.sendResponse (errorAnswer s.pkgId u code)

/-- The device address that a remote offset means in partition `n` (R170, R211, R308), where it stays inside its level. -/
def State.targetAddr (s : State) (n lc level off : Nat) : Option Nat :=
  match s.coreOf n lc with
  | none => none
  | some g =>
    let d := g / 16
    let shm := s.f64 (Reg.cdPbbShm d n) 0 13 * 2 ^ 20 + off
    let com := s.f64 (Reg.cdCommonShm d) 0 13 * 2 ^ 20 + off
    let cm := s.f64 (Reg.cdPbbCore d n) 0 10 * 2 ^ 16 + off
    let ob := s.f64 (Reg.cdPbbCore d n) 32 7 * 2 ^ 10 + off % 2 ^ 16
    if level = 0 then (if shm < 2 ^ 32 then some (d * 2 ^ 36 + shm) else none)
    else if level = 1 then (if cm < 0x3000000 then some (d * 2 ^ 36 + 2 ^ 32 + g % 16 * 0x3000000 + cm) else none)
    else if level = 2 then
      (if ob < 2 ^ 16 && off < 2 ^ 23 then some (d * 2 ^ 36 + 2 * 2 ^ 32 + g % 16 * 2 ^ 23 + off / 2 ^ 16 * 2 ^ 16 + ob) else none)
    else (if com < 2 ^ 32 then some (d * 2 ^ 36 + com) else none)

/-- The die that a request is for. -/
def State.targetDie (s : State) (u : FlowUnit) : Nat := ((s.coreOf u.dpart u.lc).elim 0 (fun g => g / 16))

/-- Why a request cannot be served before its address is judged (Table 11-9). -/
def State.refusal (s : State) (u : FlowUnit) : Option Nat :=
  if !s.loadedOrRunning u.dpart then some 2
  else if u.gen ≠ s.gen u.dpart ∨ s.fencedJob u.dpart then some 4
  else if (s.die (s.targetDie u)).cond ≠ .inService then some 1
  else none

/-- The WRITE_REPORT of a transaction whose every line is readable (R297). -/
def State.sendReport (s : State) (u : FlowUnit) (die : Nat) : State :=
  s.sendResponse { kind := 5, vc := 2, dest := u.src, src := s.pkgId * 8 + die, dpart := u.spart, spart := u.dpart, gen := u.gen,
                   tag := u.tag, last := 1 }

/-- The lines of a unit or frame with their offsets: payload line `i` belongs at `addr + 32 i`. -/
def payloadLines (addr mask n data : Nat) : List (Nat × List Byte) :=
  (maskLines mask n).map (fun i => (addr + 32 * i, leBytes 32 (fld data (256 * i) 256)))

/-- A partition may write (read) a whole line. -/
def State.lineOk (s : State) (n : Nat) (write : Bool) (a : Nat) : Bool := s.mayAccess n write a && s.mayAccess n write (a + 31)

/-- A WRITE unit at its target. -/
def State.deliverWrite (s : State) (u : FlowUnit) (t : Nat) : State :=
  let lines := (payloadLines u.addr u.lmask 7 u.data).map (fun l => (s.targetAddr u.dpart u.lc u.level l.1, l.2))
  match lines.find? (fun l => match l.1 with | some a => !s.lineOk u.dpart true a | none => true) with
  | some l => (s.boundFault u.dpart (l.1.getD (s.targetDie u * 2 ^ 36 + u.addr))).refuseUnit u 3
  | none =>
    let s := lines.foldl (fun s l => match l.1 with | some a => s.storeAt t a l.2 | none => s) s
    if u.last = 1 then s.sendReport u (s.targetDie u) else s

/-- READ_DATA units of up to seven lines each (R297). -/
def readDataUnits (h : FlowUnit) : Nat → Nat → List (List Byte) → List FlowUnit
  | 0, _, _ => []
  | n + 1, off, ls =>
    if ls.isEmpty then []
    else
      let now := ls.take 7
      let rest := ls.drop 7
      { h with addr := off, lmask := 2 ^ now.length - 1, last := if rest.isEmpty then 1 else 0, data := leNat now.flatten }
        :: readDataUnits h n (off + 224) rest

/-- A READ_REQ unit at its target. -/
def State.deliverRead (s : State) (u : FlowUnit) (t : Nat) : State :=
  let addrs := (List.range (u.count + 1)).map (fun i => s.targetAddr u.dpart u.lc u.level (u.addr + 32 * i))
  match addrs.find? (fun x => match x with | some a => !s.lineOk u.dpart false a | none => true) with
  | some x => (s.boundFault u.dpart (x.getD (s.targetDie u * 2 ^ 36 + u.addr))).refuseUnit u 3
  | none =>
    let s := s.caughtUp t (s.targetDie u * 2 ^ 36)
    let ls := addrs.filterMap (fun x => x.map (fun a => s.rdBytesAt t a 32))
    let s := s.noticed (lineWords (addrs.filterMap id))
    let h : FlowUnit := { kind := 4, vc := 2, dest := u.src, src := s.pkgId * 8 + s.targetDie u, dpart := u.spart, spart := u.dpart,
                          gen := u.gen, tag := u.tag }
    (readDataUnits h (ls.length + 1) u.addr ls).foldl (fun s r => s.sendResponse r) s

/-- A signal relocated into the target partition's window acts on the flag file, or is a bound fault (R218, R223). -/
def State.signalAt (s : State) (n g index kind op value t : Nat) : State :=
  let d := g / 16
  let w := s.r64 (Reg.cdFlagwin d n)
  let base := if kind = 0 then fld w 0 8 else fld w 32 8
  let size := if kind = 0 then fld w 8 9 else fld w 40 9
  if index < size then s.signalHere (flagKey d (g % 16 / 4) (base + index)) kind op value t
  else
    let off := g % 16 / 4 * 0x1000 + (if kind = 0 then base + index else 0x800 + 4 * (base + index))
    ((s.set32 (Reg.cdFlagStatus d) 3).rasLast d 3 (d * 2 ^ 36 + 3 * 2 ^ 32 + off)).recordStop n 0x51 .fault

/-- A SIGNAL unit at its target. -/
def State.deliverSignal (s : State) (u : FlowUnit) (t : Nat) : State :=
  match s.coreOf u.dpart u.lc with
  | none => s.refuseUnit u 3
  | some g => s.signalAt u.dpart g (fld u.data 32 8) (fld u.data 40 1) (fld u.data 41 1) (fld u.data 0 32) t

/-- The die at which a line of a collective is combined on this package (R273): of a line whose card no member has issued yet, the
die that the unit is for. -/
def State.combineDie (s : State) (x : Group) (item line die : Nat) : Nat :=
  match s.reduceShape x item with
  | some (_, _, _, lines) => pointOf x.dies line lines
  | none => die

/-- A REDUCE_DATA unit at its combining point, or with lines of a result, which go on to the members (R258, R273). -/
def State.deliverReduce (s : State) (u : FlowUnit) (item rank : Nat) (result : Bool) (t : Nat) : State :=
  let s := match s.groupOf u.dpart u.group with
    | none => s
    | some x => (payloadLines u.addr u.lmask 7 u.data).foldl (fun s l =>
        let d := s.combineDie x item (l.1 / 32) (s.targetDie u)
        let cyc := s.engCycle d t
        if result then s.shareResult x d item (l.1 / 32) cyc l.2 false
        else s.addOperand x item (l.1 / 32) 3 d ⟨rank, cyc, l.2, false⟩ 4) s
  if u.last = 1 then s.sendReport u (s.targetDie u) else s

/-- A request unit is delivered, or answered (R301). -/
def State.deliverRequest (s : State) (u : FlowUnit) (item rank : Nat) (result : Bool) (t : Nat) : State :=
  if s.answered.contains (u.src, u.tag) ∧ u.tag ≠ 0xFFFF then s.endAnswered u
  else match s.refusal u with
    | some code => s.refuseUnit u code
    | none =>
      if u.kind = 0 then s.deliverWrite u t
      else if u.kind = 1 then s.deliverRead u t
      else if u.kind = 2 then s.deliverSignal u t
      else s.deliverReduce u item rank result t

/-- A request of this package goes out: delivered here, queued on its port, or answered at once (R315). -/
def State.sendRequest (s : State) (u : FlowUnit) (t : Nat) : State :=
  match s.routeOf none u with
  | .deliver => s.deliverRequest u 0 0 false t
  | .passMode => s.deliverRequest u 0 0 false t
  | .port q => s.queueUnit q (s.withVc none q u)
  | .unreachable => s.countUnreachable.takeResponse (errorAnswer s.pkgId u 5)
  | .routeErr => s.countRouteErr.takeResponse (errorAnswer s.pkgId u 5)

/-! ## Units that arrive on a port (R286, R293, R315) -/

/-- Partition `n`'s job spans packages and this package has left the coupled system: for that job its gateways act as if the package
were out of service (R40, R67). -/
def State.leftJob (s : State) (n : Nat) : Bool := s.hour.left && decide (1 < s.span n)

/-- What the gateway does with a unit of a pool: the state, and whether the unit has been passed on or ended (R67, R315). -/
def State.passUnit (s : State) (p : Nat) (x : PoolUnit) (t : Nat) : State × Bool :=
  let u := x.unit
  let answer (s : State) (code : Nat) : State := if isRequest u.kind then s.refuseUnit u code else s
  match s.routeOf (some p) u with
  | .unreachable => (answer s.countUnreachable 5, true)
  | .routeErr => (answer s.countRouteErr 5, true)
  | .passMode => (answer s 1, true)
  | .deliver =>
    if s.leftJob u.dpart then (answer s 1, true)
    else (if isRequest u.kind then s.deliverRequest u x.item x.rank x.result t else s.takeResponse u, true)
  | .port q =>
    if 48 ≤ u.hops then ((s.portFlag p 0).count64 Reg.tclTxnCount1 0 8 1, true) else s.trySend q (s.withVc (some p) q u)

/-- The units of one VC of a pool passed on in order, as far as that goes now (R292, log entry 13). -/
def State.passList (s : State) (p v t : Nat) : List PoolUnit → State × List PoolUnit
  | [] => (s, [])
  | x :: l =>
    if x.passed || x.unit.vc != v then
      let r := s.passList p v t l
      (r.1, x :: r.2)
    else
      let y := s.passUnit p x t
      if y.2 then
        let r := y.1.passList p v t l
        (r.1, { x with passed := true } :: r.2)
      else (y.1, x :: l)

/-- The pool of a port passed on for one VC. -/
def State.passPool (s : State) (p v t : Nat) : State :=
  let r := s.passList p v t (s.port p).pool
  r.1.setPort p { r.1.port p with pool := r.2 }

/-- A sequenced unit of KIND `kind` arrives on a port, or a unit that the port discards (R285, R286, R289). -/
def unitArrives (kind p x item rank : Nat) (result : Bool) (t : Nat) (s : State) : State :=
  let y := s.port p
  if !s.portIn p then s
  else if !(unitF x 220 4 != 7 && unitGood x y.wantSeq && unitSound x) then s.discardUnit p
  else
    let u := FlowUnit.ofWire x
    if u.kind ≠ kind then s
    else
      let y := { y with wantSeq := (y.wantSeq + 1) % 2 ^ 32, got := y.got + 1, nakOpen := false, idle := false,
                        pool := y.pool ++ [(⟨u, false, item, rank, result⟩ : PoolUnit)] }
      let s := (s.setPort p (y.lendAll lendRuns)).takeRet p x
      let s := s.passPool p u.vc t
      let s := if 64 ≤ (s.port p).got then s.sendLink p false 0 else s
      s.pumpPort p

/-- The units that wait for a port out of service are routed afresh, and those of the pools that a new table lets go pass on (R303,
R315, R321). -/
def State.rerouteLost (s : State) (t : Nat) : State :=
  let s := (List.range 12).foldl (fun s p =>
    if s.portOut p then
      (s.port p).waiting.foldl (fun s u => if isRequest u.kind then s.sendRequest u t else s.sendResponse u)
        (s.setPort p { s.port p with waiting := [] })
    else s) s
  (List.range 12).foldl (fun s p => if s.portOut p then s else (List.range 4).foldl (fun s v => s.passPool p v t) s) s

/-- UNIT_RELEASE: the oldest unit of a VC leaves the pool once it has been passed on (R293). -/
def unitRelease (p v t : Nat) (s : State) : State :=
  let s := s.passPool p v t
  let x := s.port p
  match x.pool.find? (fun u => u.unit.vc == v) with
  | none => s
  | some u =>
    if !u.passed then s
    else
      let x := { x with pool := x.pool.erase u, released := Tab.put (fun _ => 0) x.released v ((x.releasedOf v + 1) % 2 ^ 32) }
      s.setPort p (x.lendAll lendRuns)

/-- A unit waits to leave on port `p`: one of this package, or one in a port's pool that its route sends there (R315). -/
def State.unitFor (s : State) (p : Nat) : Bool :=
  !(s.port p).waiting.isEmpty
    || (List.range 12).any (fun q => (s.port q).pool.any (fun x => !x.passed && s.routeOf (some q) x.unit == .port p))

/-- PORT_WAKE: a sleeping port has a unit to send, or detects wake signalling, and wakes (R305, R306). -/
def portWake (p : Nat) (signalled : Bool) (s : State) : State :=
  if s.portPower p = 2 ∧ (signalled ∨ s.unitFor p) then
    (((s.setPortPower p 3).setPort p { s.port p with power := 3 }).emit (.tclWake p)).sendLink p false 0
  else s

/-! ## Starting transactions (R297-R299) -/

/-- An entry of the peer table in use: DPART and PACKAGE (Table 12-7). -/
def State.peerEntry (s : State) (n e : Nat) : Option (Nat × Nat) :=
  let v := s.r32 (Reg.rtePeer n e)
  if bitAt v 31 then some (fld v 24 6, fld v 0 12) else none

/-- The first condition of R298 that a new transaction does not meet, 1 to 3; 0 where all hold. -/
def State.txnBlock (s : State) (n pkg : Nat) : Nat :=
  let mine := (s.txnList.filter (fun e => e.2.part == n)).length
  let there := (s.txnList.filter (fun e => e.2.head.dest / 8 == pkg)).length
  if fld (s.r64 (Reg.topPartQuota n)) 46 15 ≤ mine then 1
  else if max 1 (s.f64 Reg.tclCtl 8 14) ≤ there then 2
  else if 16384 ≤ s.txns.length + s.quarantine.length then 3
  else 0

/-- The lowest free package tag (log entry 14). -/
def State.freePkgTag (s : State) : Nat :=
  ((List.range (s.txns.length + s.quarantine.length + 1)).find? (fun tag => (s.txn tag).isNone && !s.quarantine.contains tag)).getD 0

/-- A transaction of the source `key` waits on a condition: counted once as the wait on it begins (R299). -/
def State.waitTxn (s : State) (key cond : Nat) : State :=
  if Tab.get (fun _ => 0) s.txnWaits key = cond then s
  else
    let s := { s with txnWaits := Tab.put (fun _ => 0) s.txnWaits key cond }
    if cond = 1 then (s.sf64 Reg.tclTxnStatus 1 1 1).count64 Reg.tclTxnCount1 32 32 1
    else if cond = 2 then (s.sf64 Reg.tclTxnStatus 2 1 1).count64 Reg.tclTxnCount0 0 32 1
    else (s.sf64 Reg.tclTxnStatus 0 1 1).count64 Reg.tclTxnCount0 32 32 1

/-- A tag is left for termination `term` when every termination that waits for one, and comes before it in the rotation after the
termination served last, has taken its own (R298). -/
def State.tagTurn (s : State) (term : Nat) : Bool :=
  let place (k : Nat) : Nat := (k + 40 - s.txnLast - 1) % 20
  let ahead := (List.range 20).filter (fun k => k != term && Tab.get (fun _ => 0) s.txnWaits k == 3 && decide (place k < place term))
  ahead.length < 16384 - (s.txns.length + s.quarantine.length)

/-- What keeps the frame at the head of a termination's queue from opening its transaction, 1 to 3 as R298 counts; 0: nothing. -/
def State.startBlock (s : State) (term n pkg : Nat) : Nat :=
  let b := s.txnBlock n pkg
  if b ≠ 0 then b else if s.tagTurn term then 0 else 3

/-- The wait of a source ends. -/
def State.waitOver (s : State) (key : Nat) : State := { s with txnWaits := Tab.put (fun _ => 0) s.txnWaits key 0 }

/-- The unit being packed goes out, with LAST where it is the transaction's final one (R297). -/
def State.flushUnit (s : State) (tag : Nat) (last : Bool) (t : Nat) : State :=
  match s.txn tag with
  | none => s
  | some x =>
    match x.buf with
    | [] => s
    | (a, _) :: _ =>
      let u := { x.head with addr := a, lmask := 2 ^ x.buf.length - 1, last := if last then 1 else 0, data := leNat (x.buf.map (·.2)).flatten }
      (s.setTxn tag (some { x with buf := [], closed := last })).sendRequest u t

/-- Lines packed into units of a transaction: up to seven consecutive lines a unit, 256 lines in all. The lines that did not
fit remain. -/
def State.packLines (s : State) (tag t : Nat) : List (Nat × List Byte) → State × List (Nat × List Byte)
  | [] => (s, [])
  | l :: ls =>
    match s.txn tag with
    | none => (s, [])
    | some x =>
      if x.closed || 256 ≤ x.lines then (s, l :: ls)
      else
        let start := (x.buf.head?).elim l.1 (·.1)
        let full := 7 ≤ x.buf.length || (start + 32 * x.buf.length != l.1)
        let s := if full && !x.buf.isEmpty then s.flushUnit tag false t else s
        match s.txn tag with
        | none => (s, [])
        | some x =>
          let s := s.setTxn tag (some { x with buf := x.buf ++ [l], lines := x.lines + 1 })
          let s := if x.lines + 1 = 256 then s.flushUnit tag true t else s
          s.packLines tag t ls

/-- The frame with only the given lines. -/
def Frame.restrict (f : Frame) (ls : List (Nat × List Byte)) : Frame :=
  { f with lmask := (ls.map (fun l => 2 ^ ((l.1 - f.addr) / 32))).sum }

/-- The open transaction that a remote frame continues. -/
def State.openTxn (s : State) (f : Frame) : Option Nat :=
  (s.txnList.find? (fun e => e.2.die == f.src && e.2.dieTag == f.tag && e.2.part == f.part && e.2.gen == f.gen && !e.2.closed
    && e.2.lines < 256 && e.2.head.kind == (if f.kind = 2 then 3 else 0) && e.2.head.lc == f.lc
    && some (e.2.head.dpart, e.2.head.dest / 8) == s.peerEntry f.part f.peer)).map (·.1)

/-- A local frame whose endpoint is the IOD: its lines go to staging SRAM (R259, Table 9-13). -/
def State.stageFrame (s : State) (f : Frame) : State :=
  if f.kind ≠ 0 ∨ f.region ≠ 0 then s
  else (payloadLines f.addr f.lmask 8 f.data).foldl (fun s l => if l.1 + 32 ≤ 2 ^ 29 then s.store (8 * 2 ^ 36 + l.1) l.2 else s) s

/-- The frames at the head of an IOD ingress queue that need no new transaction pass on (R259, R299): frames for other dies through
the switch, local ones for the IOD into staging SRAM, frames of an open transaction into its units, and frames of an older
generation into nothing (R450). -/
def State.drainIn (s : State) (k t : Nat) : Nat → State
  | 0 => s
  | n + 1 =>
    match (s.modEnd k).inQ with
    | [] => s
    | (f, grp) :: rest =>
      let pop (s : State) : State := (s.setModEnd k { s.modEnd k with inQ := rest }).freeEntry k 0
      if f.gen ≠ s.gen f.part then (pop s).drainIn k t n
      else if f.remote = 0 then (if f.dest = 8 then (pop s).stageFrame f else (pop s).routeFrame 8 f).drainIn k t n
      else match s.openTxn f with
        | none => s
        | some tag =>
          let r := s.packLines tag t (payloadLines f.addr f.lmask 8 f.data)
          if r.2.isEmpty then (pop r.1).drainIn k t n
          else r.1.setModEnd k { r.1.modEnd k with inQ := (f.restrict r.2, grp) :: rest }

/-- A transaction opened: it holds its tag, its quota unit and its window unit. -/
def State.openNew (s : State) (x : Txn) : State × Nat :=
  let tag := s.freePkgTag
  (s.setTxn tag (some { x with head := { x.head with tag := tag } }), tag)

/-- The frame at the head of the IOD ingress queue of a termination opens a transaction, or waits (R298, R299). -/
def txnStartFrame (term t : Nat) (s : State) : State :=
  let k := 32 + term
  let s := s.drainIn k t ((s.modEnd k).inQ.length)
  match (s.modEnd k).inQ with
  | [] => s
  | (f, grp) :: rest =>
    if s.fencedJob f.part then s
    else match s.peerEntry f.part f.peer with
      | none =>
        -- answered at the source IOD with ERROR_RSP 0x05 (R318)
        let s := ((s.setModEnd k { s.modEnd k with inQ := rest }).freeEntry k 0).sf64 Reg.tclTxnStatus 3 1 1
        (s.waitOver term).stopFor f.part 0x64
      | some (dpart, pkg) =>
        let b := s.startBlock term f.part pkg
        if b ≠ 0 then s.waitTxn term b
        else
          let s := { s with txnLast := term }
          let head : FlowUnit := { kind := if f.kind = 2 then 3 else 0, dest := pkg * 8, src := s.pkgId * 8 + f.src, dpart := dpart,
                                   spart := f.part, gen := f.gen, lc := f.lc, level := f.level, group := grp }
          let r := (s.waitOver term).openNew ⟨f.part, f.gen, f.src, f.tag, head, 0, [], false⟩
          r.1.drainIn k t ((s.modEnd k).inQ.length)

/-- Offsets that follow one another by 32 bytes, from the front of a list. -/
def contiguous : List Nat → List Nat
  | [] => []
  | [a] => [a]
  | a :: b :: l => if b = a + 32 then a :: contiguous (b :: l) else [a]

/-- The remote source item of iteration `n` of the card at position `pos` of core `g` opens the transaction of its lines from
`line` up, or waits (R297-R299). -/
def txnStartRead (g pos n line t : Nat) (s : State) : State :=
  match (s.core g).flightAt pos with
  | none => s
  | some f =>
    let desc := cardDesc f.card 0
    let lines := (descRun desc + 31) / 32
    match f.tags.find? (fun x => x.2 == n) with
    | none => s
    | some (dieTag, _) =>
      let part := s.ownerN g
      let copies := if isSpread f.card then itemCopies f.card 0 else (itemCopies f.card 0).take 1
      let buf (e : Nat) : Nat := if descLevel desc = 2 then e * 2 ^ 17 + descBuf desc * 2 ^ 16 else 0
      let all := (copies.map (fun p => (List.range lines).map (fun i => buf p.2 + itemOffset desc (itemQ f.card 0 n p.2) (32 * i)))).flatten
      let offs := contiguous ((all.drop line).take 256)
      let dup := s.txnList.any (fun e => e.2.die == g / 16 && e.2.dieTag == dieTag && e.2.head.kind == 1 && some e.2.head.addr == offs.head?)
      if !(srcOffDie g f.card && descRemote desc) || Tab.get (fun _ => 0) f.awaited n = 0 || offs.isEmpty || dup || s.fencedJob part then s
      else match s.peerEntry part (descPeer desc) with
        | none => (s.sf64 Reg.tclTxnStatus 3 1 1).stopFor part 0x64
        | some (dpart, pkg) =>
          let b := s.txnBlock part pkg
          if b ≠ 0 then s.waitTxn (32 + g) b
          else
            let head : FlowUnit := { kind := 1, dest := pkg * 8, src := s.pkgId * 8 + g / 16, dpart := dpart, spart := part,
                                     gen := s.gen part, lc := descLc desc, level := descLevel desc, addr := (offs.head?).getD 0,
                                     count := offs.length - 1, last := 1 }
            let r := (s.waitOver (32 + g)).openNew ⟨part, s.gen part, g / 16, dieTag, head, offs.length, [], true⟩
            r.1.sendRequest { head with tag := r.2 } t

/-- PARTIAL_UNIT_FLUSH: 16 ns pass without another line of a transaction; `last` tells that its item has no more (R297). -/
def partialUnitFlush (tag : Nat) (last : Bool) (t : Nat) (s : State) : State := s.flushUnit tag last t

/-- TXN_TIMEOUT: a transaction reaches its deadline (R303). -/
def txnTimeout (tag : Nat) (s : State) : State :=
  match s.txn tag with
  | none => s
  | some x =>
    let s := ((s.endTxn tag true).quarantined tag).sf64 Reg.tclTxnStatus 4 1 1
    (s.count64 Reg.tclTxnCount1 20 12 1).stopFor x.part 0x65

/-- QUARANTINE_EXPIRY: a quarantined tag is freed (R303). -/
def quarantineExpiry (tag : Nat) (s : State) : State := { s with quarantine := s.quarantine.erase tag }

/-! ## Meanings -/

/-- TCL_WRITE. -/
def execTclWrite (p : Fin 12) (bits : BitVec 2048) (t : Nat) (s : State) : Host.Outcome State Fault Refusal :=
  .next (unitArrives 0 p bits.toNat 0 0 false t s)
/-- TCL_READ_REQ. -/
def execTclReadReq (p : Fin 12) (bits : BitVec 2048) (t : Nat) (s : State) : Host.Outcome State Fault Refusal :=
  .next (unitArrives 1 p bits.toNat 0 0 false t s)
/-- TCL_SIGNAL. -/
def execTclSignal (p : Fin 12) (bits : BitVec 2048) (t : Nat) (s : State) : Host.Outcome State Fault Refusal :=
  .next (unitArrives 2 p bits.toNat 0 0 false t s)
/-- TCL_REDUCE_DATA. -/
def execTclReduceData (p : Fin 12) (bits : BitVec 2048) (item rank : Nat) (result : Bool) (t : Nat) (s : State) :
    Host.Outcome State Fault Refusal := .next (unitArrives 3 p bits.toNat item rank result t s)
/-- TCL_READ_DATA. -/
def execTclReadData (p : Fin 12) (bits : BitVec 2048) (t : Nat) (s : State) : Host.Outcome State Fault Refusal :=
  .next (unitArrives 4 p bits.toNat 0 0 false t s)
/-- TCL_WRITE_REPORT. -/
def execTclWriteReport (p : Fin 12) (bits : BitVec 2048) (t : Nat) (s : State) : Host.Outcome State Fault Refusal :=
  .next (unitArrives 5 p bits.toNat 0 0 false t s)
/-- TCL_ERROR_RSP. -/
def execTclErrorRsp (p : Fin 12) (bits : BitVec 2048) (t : Nat) (s : State) : Host.Outcome State Fault Refusal :=
  .next (unitArrives 6 p bits.toNat 0 0 false t s)
/-- PORT_WAKE. -/
def execPortWake (p : Fin 12) (signalled : Bool) (s : State) : Host.Outcome State Fault Refusal := .next (portWake p signalled s)
/-- UNIT_RELEASE. -/
def execUnitRelease (p : Fin 12) (vc : Fin 4) (t : Nat) (s : State) : Host.Outcome State Fault Refusal := .next (unitRelease p vc t s)
/-- TXN_START. -/
def execTxnStart (x : TxnSource) (t : Nat) (s : State) : Host.Outcome State Fault Refusal :=
  .next (match x with
    | .frame term => txnStartFrame term t s
    | .read g pos n line => txnStartRead g pos n line t s)
/-- PARTIAL_UNIT_FLUSH. -/
def execPartialUnitFlush (tag : Nat) (last : Bool) (t : Nat) (s : State) : Host.Outcome State Fault Refusal :=
  .next (partialUnitFlush tag last t s)
/-- TXN_TIMEOUT. -/
def execTxnTimeout (tag : Nat) (s : State) : Host.Outcome State Fault Refusal := .next (txnTimeout tag s)
/-- QUARANTINE_EXPIRY. -/
def execQuarantineExpiry (tag : Nat) (s : State) : Host.Outcome State Fault Refusal := .next (quarantineExpiry tag s)

end Sys2Proof.Machine
end

