-- ==== Sys2Proof/Machine/Fabric.lean ====
section
/-!
DEFINITION. Frames and control messages that arrive on the UCIe modules, replay and retraining, lane failures and modules that
go out of service (09_fabric_and_die_links.md R248-R261, R266; 08_flags_ordering_interlocks.md R223;
10_determinism.md R273).
-/

namespace Sys2Proof.Machine

/-! ## Arrival of frames and messages (R255) -/

/-- The frame or message of SEQ `b` is covered by an ACK of SEQ `a` (modulo 4,096). -/
def seqCovers (a b : Nat) : Bool := (a + 4096 - b) % 4096 < 2048

/-- The state in which a module end acknowledges what it has accepted: frames (lanes 0) or messages (lanes 1). -/
def State.sendAck (s : State) (k lanes : Nat) : State :=
  let x := s.modEnd k
  let last := ((if lanes = 0 then x.wantF else x.wantM) + 4095) % 4096
  let x := if lanes = 0 then { x with gotF := 0 } else { x with gotM := 0 }
  (s.setModEnd k x).sendPlain k { kind := 4, src := endDie k, dest := endDie (otherEnd k), body := last + lanes * 2 ^ 12 }

/-- The state in which a module end answers a discarded item with a NAK; `may` tells that 100 ns have passed since its last. -/
def State.sendNak (s : State) (k lanes : Nat) (may : Bool) : State :=
  let x := s.modEnd k
  if may then
    s.sendPlain k { kind := 5, src := endDie k, dest := endDie (otherEnd k), body := (if lanes = 0 then x.wantF else x.wantM) + lanes * 2 ^ 12 }
  else s

/-- The state after an arriving frame or message has been discarded; a bad CHECK counts (R255, R266). -/
def State.discardItem (s : State) (k lanes : Nat) (badCheck may : Bool) : State :=
  (if badCheck then s.count64 (endCount k) 32 32 1 else s).sendNak k lanes may

/-- The partner of a joined IOD termination (R258, R259). -/
def joinedPartner (k : Nat) : Option Nat :=
  if k = 48 then some 49 else if k = 49 then some 48 else if k = 50 then some 51 else if k = 51 then some 50 else none

/-- A joined termination forwards: the IOD is powered and out of reset, and has trained both terminations (R36). -/
def State.joinLive (s : State) (k : Nat) : Bool :=
  match joinedPartner k with
  | none => true
  | some j => s.power.mainEn && !s.power.porLow && bitAt (s.r32 (endCfg k)) 31 && bitAt (s.r32 (endCfg j)) 31

/-- The line of a REDUCE_DATA frame with a mark is taken by its combining die `d` now: its level folds it at once, or the reduce buffer
has room (R273; log entry 44). -/
def State.takesLine (s : State) (d part line : Nat) (m : RedMark) (n : Nat) : Bool :=
  m.result || m.target != d || s.reduceRoom d n || (match s.groupOf part m.group with
    | none => true
    | some x =>
      let c := (s.combines.find? (fun c => c.part == part && c.group == m.group && c.item == m.item && c.line == line
        && c.level == m.level && c.place == d)).getD ⟨part, m.group, m.item, line, m.level, d, []⟩
      ((x.ranks m.level d).find? (fun r => !c.ops.any (fun o => o.rank == r))) == some m.rank)

/-- A frame that die `d` has accepted finds room there: a REDUCE_DATA frame waits in REQ ingress for the reduce buffer (R273). -/
def State.takesFrame (s : State) (d : Nat) (f : Frame) : Bool :=
  match f.red with
  | none => true
  | some m =>
    let lines := payloadLines f.addr f.lmask 8 f.data
    f.kind != 2 || f.gen != s.gen f.part || lines.all (fun l => s.takesLine d f.part (l.1 / 32) m lines.length)

/-- The receiving queue of a frame. -/
def frameQueue (f : Frame) : Nat := if f.cls = 0 then 0 else 1

/-- What a module end does with a frame that it has accepted: `land` is its effect on the die it is for. -/
def State.takeFrame (s : State) (k t : Nat) (f : Frame) (land : State → State) : State :=
  match joinedPartner k with
  | some j => (s.sendFrame j f).freeEntry k (frameQueue f)
  | none =>
    let x := s.modEnd k
    let queued := s.setModEnd k { x with inQ := x.inQ ++ [(f, f.red.elim 0 (·.group))] }
    if k < 32 then (if s.takesFrame (k / 4) f then (land s).freeEntry k (frameQueue f) else queued)
    else if f.cls = 0 then queued.drainIn k t (x.inQ.length + 1)
    else (if f.dest = 8 then s else s.routeFrame 8 f).freeEntry k 1

/-- A frame of KIND `kind` arrives on a module end, or an item that it discards (R255). -/
def frameArrives (kind k x t : Nat) (may : Bool) (land : Frame → State → State) (s : State) : State :=
  let e := s.modEnd k
  if !e.up || !s.joinLive k then s
  else if !(frameCheck x && wireSeq x == e.wantF) then s.discardItem k 0 (!frameCheck x) may
  else
    let f := s.withMarks k (wireSeq x) (Frame.ofWire x)
    if f.kind ≠ kind then s
    else
      let s := s.setModEnd k { e with wantF := (e.wantF + 1) % 4096, gotF := e.gotF + 1 }
      let s := s.takeFrame k t f (land f)
      if 32 ≤ (s.modEnd k).gotF then s.sendAck k 0 else s

/-- A sequenced message of KIND `kind` arrives on a module end, or an item that it discards (R254, R255). -/
def msgArrives (kind k x : Nat) (may : Bool) (land : Msg → State → State) (s : State) : State :=
  let e := s.modEnd k
  if !e.up || !s.joinLive k then s
  else if !(msgCheck x && wireSeq x == e.wantM) then s.discardItem k 1 (!msgCheck x) may
  else
    let m := Msg.ofWire x
    if m.kind ≠ kind then s
    else
      let s := s.setModEnd k { e with wantM := (e.wantM + 1) % 4096, gotM := e.gotM + 1 }
      let s := match joinedPartner k with
        | some j => s.sendMsg j m
        | none => if 32 ≤ k && m.dest != 8 then s.routeMsg 8 m else land m s
      let s := s.freeEntry k (msgQueue kind)
      if 32 ≤ (s.modEnd k).gotM then s.sendAck k 1 else s

/-- A message that is not sequenced arrives: taken if its CHECK is good, else discarded (R254). -/
def plainArrives (kind k x : Nat) (take : Msg → State → State) (s : State) : State :=
  let m := Msg.ofWire x
  if (s.modEnd k).outOfService then s
  else if !msgCheck x then s.count64 (endCount k) 32 32 1
  else if m.kind ≠ kind || wireSeq x ≠ 0 then s
  else take m s

/-! ## Landings on a die (R252, R261, R450) -/

/-- Lines of another generation at a remapped position are dropped and counted (R240, R450). -/
def State.staleLines (s : State) (d : Nat) (f : Frame) : State :=
  let c := (if f.region = 1 then f.addr / 0x3000000 else f.addr / 2 ^ 23) % 16
  if (f.region = 1 ∨ f.region = 2) ∧ (s.die d).remapped.contains c then
    s.count32 (Reg.cdSlotMap d (c / 4)) 21 8 (maskLines f.lmask 8).length
  else s

/-- The lines of a frame as their items have them: the last one of an item may end early (R190). -/
def Frame.lines (f : Frame) (base : Nat) : List (Nat × List Byte × Bool) :=
  let l := payloadLines base f.lmask 8 f.data
  let last := (l.getLast?).map (·.1)
  l.map (fun x => (x.1, if some x.1 = last ∧ f.tail ≠ 0 then x.2.take f.tail else x.2, bitAt f.bad ((x.1 - base) / 32)))

/-- The state with a line from a frame written at noon cycle `t`, its poison mark with it (R174, R261). -/
def State.landLineAt (s : State) (t : Nat) (l : Nat × List Byte × Bool) : State :=
  let s := s.storeAt t l.1 l.2.1
  if l.2.2 then s.poisonAt ((List.range l.2.1.length).map (l.1 + ·)) else s

/-- The card in flight of die `d` that holds a transaction tag, with its core and the item. -/
def State.tagHolder (s : State) (d tag : Nat) : Option (Nat × Flight × Nat) :=
  ((List.range 16).filterMap (fun c =>
    ((s.core (16 * d + c)).flights.filterMap (fun f => (f.tags.find? (fun x => x.1 == tag)).map (fun x => (16 * d + c, f, x.2)))).head?)).head?

/-- Lines that the item of a tag of die `src` writes on die `d`: its lines, for each of its target copies there; 0 where no card in
flight holds the tag. -/
def State.itemLines (s : State) (src tag d : Nat) : Nat :=
  match s.tagHolder src tag with
  | none => 0
  | some (g, y, _) => itemLen y.card * ((dmaTargets y.card).filter (fun x => dstOffDie g y.card x.2 && copyDest y.card x.2 == d)).length

/-- Lines of a tag of another die have become readable on die `d`: with the last of the item's there they are reported (R254). -/
def State.landed (s : State) (d : Nat) (f : Frame) (n : Nat) : State :=
  let x := s.die d
  let mine (e : Nat × Nat × Nat) : Bool := e.1 == f.src && e.2.1 == f.tag
  let n := n + ((x.landing.find? mine).map (·.2.2)).getD 0
  let rest := x.landing.filter (fun e => !mine e)
  if n < s.itemLines f.src f.tag d then s.setDie d { x with landing := rest ++ [(f.src, f.tag, n)] }
  else (s.setDie d { x with landing := rest }).reportLines d f.src f.tag f.part f.gen (n / 4095 + 1) n

/-- WRITE lands on die `d`: its lines are checked and written, and the item is reported for its TAG once all of it is readable (R167,
R171, R254). -/
def landWrite (d t : Nat) (f : Frame) (s : State) : State :=
  if f.gen ≠ s.gen f.part then s.staleLines d f
  else
    let lines := f.lines (d * 2 ^ 36 + f.region * 2 ^ 32 + f.addr)
    let ok (l : Nat × List Byte × Bool) : Bool := s.lineOk f.part true l.1
    let s' := (lines.find? (fun l => !ok l)).elim s (fun l => s.boundFaultAt (some t) f.part l.1)
    let s' := (lines.filter ok).foldl (fun s l => s.landLineAt t l) s'
    if f.tag = 0xFFFF then s' else s'.landed d f lines.length

/-- The line of an item with an off-die source that stands at an address of the frame, for its source copy `p`. -/
def sourceLine (card n : Nat) (p : Nat × Nat) (a : Nat) : Option Nat :=
  let desc := cardDesc card 0
  let want (i : Nat) : Nat :=
    if descRemote desc then (if descLevel desc = 2 then p.2 * 2 ^ 17 + descBuf desc * 2 ^ 16 else 0) + itemOffset desc (itemQ card 0 n p.2) (32 * i)
    else itemAddr card 0 n p (32 * i)
  (List.range (itemLen card)).find? (fun i => want i == a)

/-- Line `i` of source copy `r` of an item has come from off-die: its bytes are held for the digest and written at every target of the
copy on the die (R261, R277). -/
def State.lineCame (s : State) (g n t : Nat) (y : Flight) (r i : Nat) (l : Nat × List Byte × Bool) : State :=
  let card := y.card
  let bytes := l.2.1.take (lineBytes card i)
  let k := fetchKey n r
  let y := (s.lineFlight g y.seq).getD y
  let s := s.setFlight g { y with
    fetched := Tab.put (fun _ => []) y.fetched k (putLine (Tab.get (fun _ => []) y.fetched k) (descRun (cardDesc card 0)) i bytes) }
  let part := s.ownerN g
  ((dmaTargets card).filter (fun x => x.1 == r && !dstOffDie g card x.2)).foldl (fun s x =>
    let addrs := (List.range bytes.length).map (fun j => itemAddr card 1 n x.2 (32 * i + j))
    let s := s.checkBounds t part true addrs
    let s := s.writeTimed part (s.landStamp (g / 16) t) rankOther (addrs.zip bytes)
    if l.2.2 then s.poisonAt (addrs.filter (s.mayAccess part true)) else s) s

/-- READ_DATA lands on die `d`: the lines of the item that waits for the TAG arrive and are written at its targets; with the last of
them the item has been read and stands there, and the tag is free (R228, R260). -/
def landRead (d t : Nat) (f : Frame) (s : State) : State :=
  if f.gen ≠ s.gen f.part then s.lateDrop
  else match s.tagHolder d f.tag with
    | none => s.lateDrop
    | some (g, y, n) =>
      let base := if descRemote (cardDesc y.card 0) then f.addr else f.src * 2 ^ 36 + f.region * 2 ^ 32 + f.addr
      let srcs := dmaSources y.card
      let lines := f.lines base
      let s := lines.foldl (fun s l =>
        ((List.range srcs.length).zip srcs).foldl (fun s x => match sourceLine y.card n x.2 l.1 with
          | some i => s.lineCame g n t y x.1 i l
          | none => s) s) s
      let y := (s.lineFlight g y.seq).getD y
      let left := Tab.get (fun _ => 0) y.awaited n - lines.length
      let cyc := s.landStamp d t
      let y := { y with awaited := Tab.put (fun _ => 0) y.awaited n left }
      let y := if left = 0 then { y with
          tags := y.tags.filter (fun x => x.1 != f.tag), placedAt := Tab.put (fun _ => 0) y.placedAt n cyc,
          readAt := stampAt y.readAt (itemKey 0 0 n) cyc, relAt := stampAt y.relAt (itemKey 1 0 n) cyc } else y
      s.setFlight g y

/-- REDUCE_DATA lands on die `d`: an operand at its combining point, a result at a die with members, or a line on its way along the
ring (R206, R258, R273). -/
def landReduce (d t : Nat) (f : Frame) (s : State) : State :=
  if f.gen ≠ s.gen f.part then s
  else match f.red with
    | none => s
    | some m => match s.groupOf f.part m.group with
      | none => s
      | some x => (f.lines f.addr).foldl (fun s l =>
          let line := l.1 / 32
          let cyc := s.landStamp d t
          if m.target ≠ d then s.ringSend f.part d line m l.2.1 l.2.2
          else if m.result then s.placeResult x d m.item line cyc l.2.1 l.2.2
          else s.addOperand x m.item line m.level d ⟨m.rank, cyc, l.2.1, l.2.2⟩ 4) s

/-- The REDUCE_DATA frames that wait at a module end of die `d` for the reduce buffer are taken as far as it has room now (R273). -/
def State.drainReduce (s : State) (k t : Nat) : State :=
  (s.modEnd k).inQ.foldl (fun s e =>
    if 32 ≤ k || !s.takesFrame (k / 4) e.1 then s
    else
      let x := s.modEnd k
      (landReduce (k / 4) t e.1 (s.setModEnd k { x with inQ := x.inQ.erase e })).freeEntry k 0) s

/-- The same at the four modules of die `d`. -/
def State.drainDie (s : State) (d t : Nat) : State := (List.range 4).foldl (fun s m => s.drainReduce (4 * d + m) t) s

/-- A SIGNAL at its target die (R223), or at the IOD on its way to another package (R297). -/
def landSignal (k lc t : Nat) (m : Msg) (s : State) : State :=
  let b := m.body
  let part := fld b 44 6
  if fld b 50 4 ≠ s.gen part then s
  else if k < 32 then
    s.signalHere (flagKey (k / 4) (fld b 40 2) (fld b 32 8)) (fld b 42 1) (fld b 43 1) (fld b 0 32) t
  else match s.peerEntry part (fld b 55 10) with
    | none => (s.sf64 Reg.tclTxnStatus 3 1 1).stopFor part 0x64
    | some (dpart, pkg) =>
      s.sendRequest { kind := 2, dest := pkg * 8, src := s.pkgId * 8 + m.src, dpart := dpart, spart := part, gen := fld b 50 4, lmask := 1,
                      lc := lc, last := 1, data := fld b 0 40 + fld b 42 1 * 2 ^ 40 + fld b 43 1 * 2 ^ 41 } t

/-- A READ_REQ at the die that holds the lines, or at the IOD for staging SRAM (R259): its data goes into RSP egress (R261); lines
outside the partition's ranges read as zeros (R171). Poison marks go with the lines (R174). -/
def landReadReq (d t : Nat) (m : Msg) (s : State) : State :=
  let b := m.body
  let part := fld b 52 6
  let gen := fld b 58 4
  let a := d * 2 ^ 36 + fld b 0 36
  let n := fld b 62 8 + 1
  if 9 ≤ d || gen ≠ s.gen part then s
  else
    let addrs := (List.range n).map (fun i => a + 32 * i)
    let ok (x : Nat) : Bool := if d = 8 then decide (x + 32 ≤ 8 * 2 ^ 36 + 2 ^ 29) else s.lineOk part false x
    let s' := if d = 8 then s else (addrs.find? (fun x => !ok x)).elim s (fun x => s.boundFaultAt (some t) part x)
    let s' := (s'.caughtUp t a).noticed (lineWords (addrs.filter ok))
    let ls := addrs.map (fun x => if ok x then (s'.rdBytesAt t x 32, s'.poisonedWords x 4) else (List.replicate 32 0, false))
    (markedFrames { kind := 1, src := d, dest := m.src, cls := 1, part := part, gen := gen, tag := fld b 36 16, region := addrRegion a,
                    addr := addrOffset a } (n + 1) ls).foldl (fun s f => s.routeFrame d f) s'

/-- The last engine cycle of die `d` before noon cycle `t` ends: the present one while the die runs. -/
def State.doneStamp (s : State) (d t : Nat) : Nat := if s.dieRuns d t then s.engCycle d t else s.engCycle d t - 1

/-- The cards of die `d` whose last report has come complete, unless an external wait holds the die (R198, R233). -/
def State.settleReports (s : State) (d t : Nat) : State :=
  if s.waitHeld d t then s
  else (List.range 16).foldl (fun s c =>
    let g := 16 * d + c
    ((s.core g).flights.filter (fun y => y.localAt.isSome && y.fullAt.isNone && y.reported)).foldl (fun s y =>
      s.fullyComplete g y.seq (s.doneStamp d t) t) s) s

/-- A WRITE_REPORT at the die that holds the tag: lines of its item are readable at the target; with the last of them the tag
is free, the item released, and the card complete where nothing else of it is outstanding (R198, R228, R254, R260). -/
def landReport (d t : Nat) (m : Msg) (s : State) : State :=
  let b := m.body
  let tag := fld b 0 16
  if fld b 34 4 ≠ s.gen (fld b 28 6) then s.lateDrop
  else match s.tagHolder d tag with
    | none => s.lateDrop
    | some (g, y, n) =>
      let left := Tab.get (fun _ => 0) y.awaited n - fld b 16 12
      let y := { y with awaited := Tab.put (fun _ => 0) y.awaited n left }
      if left ≠ 0 then s.setFlight g y
      else
        let rel := Tab.get (fun _ => 0) y.unplaced n == 0
        let y := { y with tags := y.tags.filter (fun x => x.1 != tag),
                          relAt := if rel then stampAt y.relAt (itemKey 1 0 n) (s.landStamp d t) else y.relAt }
        (s.setFlight g y).settleReports d t

/-- An HOUR message: a die's arrival at the IOD, or the opening of a window at a die (R49, R254). -/
def landHour (k : Nat) (m : Msg) (s : State) : State :=
  let n := fld m.body 0 64
  if k < 32 then s.setDie (k / 4) { s.die (k / 4) with heardOpen := n }
  else s.setDie m.src { s.die m.src with heardArrive := n }

/-! ## Credits, acknowledgements, replay (R255, R256) -/

/-- CREDIT: FREED of a queue of the other end (R256). -/
def takeCredit (k : Nat) (m : Msg) (s : State) : State :=
  let x := s.modEnd k
  (s.setModEnd k { x with freedGot := Tab.put queueSize x.freedGot (fld m.body 32 2) (fld m.body 0 32) }).pump k

/-- ACK: everything up to a SEQ leaves the replay buffer; the NAKs counted for a SEQ stand until an ACK covers it (R255). -/
def takeModAck (k : Nat) (m : Msg) (s : State) : State :=
  let x := s.modEnd k
  let a := fld m.body 0 12
  let x := if bitAt m.body 12 then { x with replayM := x.replayM.filter (fun e => !seqCovers a e.1),
                                             nakM := if seqCovers a x.nakM.1 then (0, 0) else x.nakM }
    else { x with replayF := x.replayF.filter (fun e => !seqCovers a e.1), nakF := if seqCovers a x.nakF.1 then (0, 0) else x.nakF }
  (s.setModEnd k x).pump k

/-- Everything in the replay buffers from a SEQ onward sent again. -/
def State.resendMod (s : State) (k lanes start : Nat) : State :=
  let x := s.modEnd k
  if lanes = 0 then (x.replayF.filter (fun e => seqCovers e.1 start)).foldl (fun s e => s.emit (.d2dFrame k (e.2.wire e.1))) s
  else (x.replayM.filter (fun e => seqCovers e.1 start)).foldl (fun s e => s.emit (.d2dMsg k (e.2.wire e.1))) s

/-- Both ends of a module begin to retrain (R255). -/
def State.retrainMod (s : State) (k : Nat) : State :=
  let s := s.setModEnd k { s.modEnd k with retraining := true }
  s.setModEnd (otherEnd k) { s.modEnd (otherEnd k) with retraining := true }

/-- NAK: a replay, and a retrain after 16 NAKs for one SEQ (R255). -/
def takeModNak (k : Nat) (m : Msg) (s : State) : State :=
  let x := s.modEnd k
  let lanes := fld m.body 12 1
  let a := fld m.body 0 12
  let old := if lanes = 0 then x.nakF else x.nakM
  let n := if old.1 = a then old.2 + 1 else 1
  let held := if lanes = 0 then x.replayF.any (fun e => e.1 == a) else x.replayM.any (fun e => e.1 == a)
  if x.retraining then s
  else
    let s := s.setModEnd k (if lanes = 0 then { x with nakF := (a, n) } else { x with nakM := (a, n) })
    let s := if held then ((s.set32 (endStatus k) 0).count64 (endCount k) 8 24 1).resendMod k lanes a else s
    if 16 ≤ n then s.retrainMod k else s

/-- D2D_ACK_TIMER: 200 ns with accepted items not acknowledged (R255). -/
def d2dAckTimer (k : Nat) (s : State) : State :=
  let s := if (s.modEnd k).up && 0 < (s.modEnd k).gotF then s.sendAck k 0 else s
  if (s.modEnd k).up && 0 < (s.modEnd k).gotM then s.sendAck k 1 else s

/-! ## Modules out of service (R251) -/

/-- The compute dies whose traffic a module end carries: those at the ends of its path. -/
def pathDies (k : Nat) : List Nat :=
  let ends (k : Nat) : List Nat := [endDie k, endDie (otherEnd k)].filter (fun d => decide (d < 8))
  let term := if 48 ≤ k then some k else if 48 ≤ otherEnd k then some (otherEnd k) else none
  match term.bind joinedPartner with
  | some j => ends k ++ ends j
  | none => ends k

/-- A module goes out of service: both ends report it, and the partitions with cores on the dies it joins undergo a
fault-driven change (R251). -/
def State.moduleOut (s : State) (k : Nat) : State :=
  let one (s : State) (e : Nat) : State :=
    let s := s.setModEnd e { s.modEnd e with outOfService := true, retraining := false }
    let s := (s.set32 (endStatus e) 4).clr32 (endCfg e) 31
    if e < 32 then s.postEvent 0x0007 0xFF (e / 4) (e / 4 * 2 ^ 8 + e % 4 * 2 ^ 16)
    else s.postEvent 0x0007 0xFF 8 (8 * 2 ^ 8 + (e - 32) * 2 ^ 16)
  let s := one (one s k) (otherEnd k)
  (List.range 64).foldl (fun s n => if (pathDies k).any (fun d => s.hasCoreOn n d) then s.abortStep n else s) s

/-- A module on the way from a module end is out of service: its own, or the one behind a joined termination (R251, R258). -/
def State.wayOut (s : State) (k : Nat) : Bool :=
  (s.modEnd k).outOfService
    || (k < 32 && (match joinedPartner (otherEnd k) with | some j => (s.modEnd j).outOfService | none => false))

/-- Every route of some nodes, dies and the IOD (8), that uses a module out of service uses its alternate (R251, R257). -/
def State.switchRoutes (s : State) (nodes : List Nat) : State :=
  nodes.foldl (fun s n => (List.range 9).foldl (fun s x =>
    if n = x then s
    else (List.range 3).foldl (fun s tr =>
      let r := if n = 8 then Reg.iodRoute x else Reg.d2dRoute n x
      if s.wayOut (s.routeEnd n x tr) then s.sf32 r (4 * tr) 2 (s.f32 r (4 * tr + 2) 2) else s) s) s) s

/-- D2D_RETRAIN_COMPLETE: a retrain ends, and replay resumes; after two failures in a row the module is out (R255). -/
def d2dRetrainComplete (k : Nat) (ok : Bool) (s : State) : State :=
  if !(s.modEnd k).retraining then s
  else
    let j := otherEnd k
    let seen (s : State) (e : Nat) : State := (s.set32 (endStatus e) 3).count64 (endCount e) 0 8 1
    let s := seen (seen s k) j
    if ok then
      let fresh (s : State) (e : Nat) : State :=
        let x := { s.modEnd e with retraining := false, failedRetrains := 0, nakF := (0, 0), nakM := (0, 0) }
        let s := s.setModEnd e x
        let s := (x.replayM.head?).elim s (fun m => s.resendMod e 1 m.1)
        ((x.replayF.head?).elim s (fun f => s.resendMod e 0 f.1)).pump e
      fresh (fresh s k) j
    else if 1 ≤ (s.modEnd k).failedRetrains then s.moduleOut k
    else
      let more (s : State) (e : Nat) : State := s.setModEnd e { s.modEnd e with failedRetrains := (s.modEnd e).failedRetrains + 1 }
      more (more s k) j

/-! ## Lane failures (R250) -/

/-- Roles of a module's 64 lanes: 0 TENSOR, 1 CONTROL, 2 SPARE, 3 FAILED (Table 9-7). -/
def State.laneRoles (s : State) (k : Nat) : List Nat := (List.range 64).map (fun i => fld (s.rWide (endLanes k) 4) (2 * i) 2)

/-- Lanes of a role. -/
def lanesOf (roles : List Nat) (r : Nat) : List Nat := upto 64 (fun i => roles.getD i 2 == r)

/-- The roles with one lane's changed. -/
def setRole (roles : List Nat) (i r : Nat) : List Nat := roles.set i r

/-- The roles, with the highest TENSOR lanes above a count made SPARE (R250; log entry 15). -/
def narrow (roles : List Nat) : List Nat :=
  let ts := lanesOf roles 0
  let keep := ts.length / 4 * 4
  (ts.drop keep).foldl (fun r i => setRole r i 2) roles

/-- The state with the roles of a module's lanes in its LANE_ROLE and MOD_CFG registers, at both ends. -/
def State.putRoles (s : State) (k : Nat) (roles : List Nat) : State :=
  let bits := ((List.range 64).map (fun i => roles.getD i 2 * 2 ^ (2 * i))).sum
  let n (r : Nat) : Nat := (lanesOf roles r).length
  let one (s : State) (e : Nat) : State :=
    let s := s.wWide (endLanes e) 4 bits
    let keep := fld (s.r32 (endCfg e)) 25 7
    s.w32 (endCfg e) (keep * 2 ^ 25 + n 0 % 128 * 2 ^ 18 + n 1 % 16 * 2 ^ 14 + n 2 % 128 * 2 ^ 7 + n 3 % 128)
  one (one s k) (otherEnd k)

/-- D2D_LANE_FAILURE: a SPARE lane takes the place of the failed one, or the module narrows, or goes out of service (R250). -/
def d2dLaneFailure (k lane : Nat) (s : State) : State :=
  let roles := s.laneRoles k
  let role := roles.getD lane 3
  let failed := setRole roles lane 3
  let both (s : State) (i : Nat) : State :=
    let one (s : State) (e : Nat) : State := (s.set32 (endStatus e) i).count64 (endCount e) 0 8 1
    one (one s k) (otherEnd k)
  if role = 3 || (s.modEnd k).outOfService then s
  else if role = 2 then s.putRoles k failed
  else match (lanesOf failed 2).head? with
    | some sp => both (s.putRoles k (setRole failed sp role)) 1
    | none =>
      -- a CONTROL lane that failed is replaced by the highest TENSOR lane
      let moved := if role = 1 then ((lanesOf failed 0).getLast?).elim failed (fun i => setRole failed i 1) else failed
      let r := narrow moved
      let s := both (s.putRoles k r) 2
      if (lanesOf r 0).length < 32 || (lanesOf r 1).length < 2 then s.moduleOut k else s

/-! ## Meanings -/

/-- D2D_WRITE. Before every arrival a hold of the die notes its condition, and after every arrival with a time, what waits at the die for the reduce buffer is offered again. -/
def execD2dWrite (k : Fin 52) (bits : BitVec 2304) (may : Bool) (t : Nat) (s : State) : Host.Outcome State Fault Refusal :=
  .next ((frameArrives 0 k bits.toNat t may (landWrite (k / 4) t) (s.seeHold (k / 4) t)).drainDie (k / 4) t)
/-- D2D_READ_DATA. -/
def execD2dReadData (k : Fin 52) (bits : BitVec 2304) (may : Bool) (t : Nat) (s : State) : Host.Outcome State Fault Refusal :=
  .next ((frameArrives 1 k bits.toNat t may (landRead (k / 4) t) (s.seeHold (k / 4) t)).drainDie (k / 4) t)
/-- D2D_REDUCE_DATA. -/
def execD2dReduceData (k : Fin 52) (bits : BitVec 2304) (may : Bool) (t : Nat) (s : State) : Host.Outcome State Fault Refusal :=
  .next ((frameArrives 2 k bits.toNat t may (landReduce (k / 4) t) (s.seeHold (k / 4) t)).drainDie (k / 4) t)
/-- D2D_SIGNAL. -/
def execD2dSignal (k : Fin 52) (bits : BitVec 256) (lc : Fin 128) (may : Bool) (t : Nat) (s : State) : Host.Outcome State Fault Refusal :=
  .next ((msgArrives 0 k bits.toNat may (landSignal k lc t) (s.seeHold (k / 4) t)).drainDie (k / 4) t)
/-- D2D_READ_REQ. -/
def execD2dReadReq (k : Fin 52) (bits : BitVec 256) (may : Bool) (t : Nat) (s : State) : Host.Outcome State Fault Refusal :=
  .next ((msgArrives 1 k bits.toNat may (landReadReq (endDie k) t) s).drainDie (k / 4) t)
/-- D2D_WRITE_REPORT. -/
def execD2dWriteReport (k : Fin 52) (bits : BitVec 256) (may : Bool) (t : Nat) (s : State) : Host.Outcome State Fault Refusal :=
  .next ((msgArrives 2 k bits.toNat may (landReport (k / 4) t) (s.seeHold (k / 4) t)).drainDie (k / 4) t)
/-- D2D_CREDIT. It names no cycle; the flag file stands as after its last operation. -/
def execD2dCredit (k : Fin 52) (bits : BitVec 256) (s : State) : Host.Outcome State Fault Refusal :=
  .next (plainArrives 3 k bits.toNat (takeCredit k) (s.seeHold (k / 4) ((s.die (k / 4)).flagT + 1)))
/-- D2D_ACK. -/
def execD2dAck (k : Fin 52) (bits : BitVec 256) (s : State) : Host.Outcome State Fault Refusal :=
  .next (plainArrives 4 k bits.toNat (takeModAck k) s)
/-- D2D_NAK. -/
def execD2dNak (k : Fin 52) (bits : BitVec 256) (s : State) : Host.Outcome State Fault Refusal :=
  .next (plainArrives 5 k bits.toNat (takeModNak k) s)
/-- D2D_HOUR. -/
def execD2dHour (k : Fin 52) (bits : BitVec 256) (may : Bool) (s : State) : Host.Outcome State Fault Refusal :=
  .next (msgArrives 6 k bits.toNat may (landHour k) s)
/-- D2D_IDLE. -/
def execD2dIdle (k : Fin 52) (bits : BitVec 256) (s : State) : Host.Outcome State Fault Refusal :=
  .next (plainArrives 7 k bits.toNat (fun _ s => s) s)
/-- D2D_ACK_TIMER. -/
def execD2dAckTimer (k : Fin 52) (s : State) : Host.Outcome State Fault Refusal := .next (d2dAckTimer k s)
/-- D2D_RETRAIN_COMPLETE. -/
def execD2dRetrainComplete (k : Fin 52) (ok : Bool) (s : State) : Host.Outcome State Fault Refusal := .next (d2dRetrainComplete k ok s)
/-- D2D_LANE_FAILURE. -/
def execD2dLaneFailure (k : Fin 52) (lane : Fin 64) (s : State) : Host.Outcome State Fault Refusal := .next (d2dLaneFailure k lane s)

end Sys2Proof.Machine
end

