-- ==== Sys2Proof/Machine/CardCheck.lean ====
section
/-!
DEFINITION. What the loader refuses a card or a stream for under R18: the field rules of a card, of its waits, signals and
descriptors, of each opcode's body, and of a stream as a whole (03_number_formats_and_accumulation.md R98,
04_matrix_engine.md R103, 05_vector_engine.md R125-R137, 06_memory_hierarchy.md R157-R170, 07_layer_cards.md R183-R210,
08_flags_ordering_interlocks.md R231, 10_determinism.md R278). Cards are judged before relocation: their addresses count from
the partition's ranges and their LC fields are logical cores of the partition.
-/

namespace Sys2Proof.Machine

/-! ## Descriptors (R187-R191) -/

/-- A descriptor that the card uses. -/
def slotUsed (card slot : Nat) : Bool :=
  match cardOp card with
  | 1 => slot < 3
  | 2 => bodyF card (307 + 3 * slot) 3 != 0
  | 3 => slot < 2
  | 4 => slot < 2
  | 5 => slot < 2
  | _ => false

/-- The fields of a used descriptor are in range (R189, Tables 7-5 and 7-6). -/
def descFieldsOk (desc : Nat) : Bool :=
  fld desc 32 5 == 0 && (descRemote desc || descPeer desc == 0) && descOff desc % 32 == 0 && descWrap desc % 32 == 0
    && (List.range 4).all (fun j => descStr desc j % 32 == 0) && 1 ≤ descRun desc && descRun desc ≤ 2 ^ 31
    && (descWrap desc == 0 || descRun desc ≤ descWrap desc)

/-- The least and the greatest position of an item of a descriptor, over every iteration and engine rank (R190, R201, R204). -/
def itemSpan (card slot : Nat) : Int × Int :=
  let desc := cardDesc card slot
  let last : Int := ((maskEngines (cardEngMask card)).length : Int) - 1
  let eng : Int :=
    if cardOp card = 1 ∧ slot = 2 then last * sext (bodyF card 96 32) 32
    else if cardOp card = 3 ∧ slot = 0 ∧ isSpread card then last * sext (bodyF card 64 32) 32 else 0
  (List.range 4).foldl (fun a j =>
    let x := descStr desc j * ((cardRep card j : Int) - 1)
    (a.1 + min 0 x, a.2 + max 0 x)) (min 0 eng, max 0 eng)

/-- The extent of a descriptor that the loader checks: first offset, and first offset past it (R190). -/
def descExtent (card slot : Nat) : Int × Int :=
  let desc := cardDesc card slot
  let off : Int := descOff desc
  if descWrap desc ≠ 0 then (off, off + descWrap desc)
  else let x := itemSpan card slot; (off + x.1, off + x.2 + descRun desc)

/-- Bytes of a level's range of partition `n` on die `d`, KV reserve included (R167). -/
def State.levelBound (s : State) (n d level : Nat) : Nat :=
  match level with
  | 0 => s.f64 (Reg.cdPbbShm d n) 16 13 * 2 ^ 20
  | 1 => s.f64 (Reg.cdPbbCore d n) 16 10 * 2 ^ 16
  | 2 => s.f64 (Reg.cdPbbCore d n) 48 7 * 2 ^ 10
  | _ => s.f64 (Reg.cdCommonShm d) 16 13 * 2 ^ 20

/-- First byte of a level's range of partition `n` on die `d` (R170). -/
def State.levelBase (s : State) (n d level : Nat) : Nat :=
  match level with
  | 0 => s.f64 (Reg.cdPbbShm d n) 0 13 * 2 ^ 20
  | 1 => s.f64 (Reg.cdPbbCore d n) 0 10 * 2 ^ 16
  | 2 => s.f64 (Reg.cdPbbCore d n) 32 7 * 2 ^ 10
  | _ => s.f64 (Reg.cdCommonShm d) 0 13 * 2 ^ 20

/-- The logical cores that a descriptor names: its LC, or the targets of a MULTICAST. -/
def descLcs (card slot : Nat) : List Nat :=
  if cardOp card = 4 ∧ slot = 1 then upto 128 (fun c => bitAt (bodyF card 0 128) c) else [descLc (cardDesc card slot)]

/-- A descriptor's extent lies in its range on every die it names (R170, R191); the target die checks a remote one (R211). -/
def State.extentOk (s : State) (n card slot : Nat) : Bool :=
  let desc := cardDesc card slot
  let x := descExtent card slot
  descRemote desc || (descLcs card slot).all (fun lc =>
    match s.coreOf n lc with
    | none => false
    | some g => decide (0 ≤ x.1) && decide (x.2 ≤ (s.levelBound n (g / 16) (descLevel desc) : Int)))

/-- A level, buffer and core that Table 7-7 allows the descriptor; `own` is the logical core of the stream. -/
def State.roleOk (s : State) (n own card slot : Nat) : Bool :=
  let desc := cardDesc card slot
  let level := descLevel desc
  let mine := !descRemote desc && descLc desc == own
  let die (lc : Nat) : Option Nat := (s.coreOf n lc).map (· / 16)
  let here := !descRemote desc && die (descLc desc) == die own
  match cardOp card with
  | 1 => mine && (if slot < 2 then level == 2 && descBuf desc == slot else level == 1)
  | 2 => mine && level == 1
  | 3 => slot == 0 || level != 3
  | 4 => if slot = 0 then here && level != 2 else !descRemote desc && (level == 1 || level == 2)
  | _ => mine && level == 1

/-! ## Waits and signals (R195, R196) -/

/-- A wait entry of a card is allowed (R195, Table 7-8). -/
def State.waitOk (s : State) (n own w : Nat) : Bool :=
  let cond := fld w 60 3
  let kind := fld w 57 1
  if !waitValid w then w == 0
  else cond < 4 && (cond < 2) == (kind == 0) && (!waitConsume w || cond == 0 || cond == 2) && fld w 48 2 == 0 && fld w 32 8 == 0
    && (kind == 1 || fld w 0 32 == 0)
    && (match s.coreOf n (fld w 50 7), s.coreOf n own with | some g, some h => g / 16 == h / 16 | _, _ => false)

/-- A signal entry of a card is allowed (R196, Table 7-9). -/
def State.signalOk (s : State) (n x : Nat) : Bool :=
  let remote := bitAt x 60
  let kind := fld x 58 1
  if !bitAt x 63 then x == 0
  else !(bitAt x 59 && kind == 1) && fld x 40 1 == 0 && (remote || fld x 41 10 == 0) && (kind == 1 || fld x 0 32 == 0)
    && (remote || (s.coreOf n (fld x 51 7)).isSome)

/-! ## Bodies -/

/-- Every tile of a MATMUL card occupies consecutive lines (R159, R202). -/
def tilesWhole (card : Nat) : Bool :=
  let desc := cardDesc card 2
  descWrap desc == 0 || (List.range (cardIters card)).all (fun n =>
    (maskEngines (cardEngMask card)).all (fun e =>
      decide (itemQ card 2 n e % (descWrap desc : Int) + (descRun desc : Int) ≤ (descWrap desc : Int))))

/-- The fields of a MATMUL card are allowed, apart from its neighbours (R69, R98, R103, R200, R202). -/
def matmulOk (card : Nat) : Bool :=
  let a := mmA card
  let b := mmB card
  let k := mmK card
  let mx := isMx a || isMx b
  cardEngMask card != 0 && a ≤ 9 && b ≤ 9 && isIntFmt a == isIntFmt b && 1 ≤ mmOut card && mmOut card ≤ 0xB
    && bodyF card 156 2 != 3 && bodyF card 181 2 != 3 && fld (cardBody card) 183 201 == 0 && bodyF card 96 32 % 32 == 0
    && k != 0 && (!mx || k % 32 == 0) && (mmRate card != .bits4 || k % 2 == 0)
    && descRun (cardDesc card 0) == operandBytes card 0 && descRun (cardDesc card 1) == operandBytes card 1
    && descRun (cardDesc card 2) == tileBytes (mmOut card) && (!cardChained card || descStr (cardDesc card 2) 0 == 0)
    && tilesWhole card

/-- Bytes of `n` elements of a vector type (R127, R129). -/
def vItemBytes (t n : Nat) : Nat := if isMx t then n / 32 * (4 * fmtWidth t + 1) else ceilDiv (n * vWidth t) 8

/-- Bytes of a single element of a vector type (R128). -/
def vOneBytes (t : Nat) : Nat := if isMx t then 2 else ceilDiv (vWidth t) 8

/-- Records per iteration of a scope (R138). -/
def vRecordCount (card scope : Nat) : Nat :=
  match scope with
  | 0 => ceilDiv (vN card) 32
  | 1 => vGroups card
  | _ => ceilDiv (vGroups card) (vSpan card)

/-- Types D and F, which only an input may have (Table 5-4). -/
def vIsRecord (t : Nat) : Bool := t == 13 || t == 15

/-- RUN of the input with role `i + 1` is one that R128 allows (R203). -/
def vInRunOk (card i slot : Nat) : Bool :=
  let t := vTypeIn card i
  let run := descRun (cardDesc card slot)
  if vIsRecord t then
    run % 16 == 0 && (run == 16 || (List.range 3).any (fun scope => run == 16 * vRecordCount card scope))
  else run == vItemBytes t (vN card) || run == vOneBytes t

/-- The sources that a step reads (Table 5-5). -/
def stepSources (w : Nat) : List Nat :=
  let op := fld w 26 6
  let b := (1 ≤ op && op ≤ 4) || (6 ≤ op && op ≤ 0x13)
  [fld w 19 4] ++ (if b then [fld w 15 4] else []) ++ (if op = 0x13 then [fld w 11 4] else [])

/-- Operations that take IMM as a parameter (Table 5-5). -/
def stepTakesImm (op : Nat) : Bool :=
  op == 0x12 || op == 0x15 || op == 0x16 || op == 0x17 || op == 0x18 || op == 0x19 || op == 0x1C || op == 0x1D

/-- A step word is allowed after the temporaries in `written` (R125, R126, R132, R137). -/
def stepOk (card w : Nat) (written : List Nat) : Bool :=
  let op := fld w 26 6
  op ≤ 0x1D && fld w 19 4 ≤ 0xD && fld w 15 4 ≤ 0xD && fld w 11 4 ≤ 0xD
    && (stepSources w).all (fun x =>
      (8 ≤ x || written.contains x) && (!(8 ≤ x && x ≤ 10) || (vRole card (x - 7)).isSome) && !(x == 0xB && stepTakesImm op))
    && (op != 0x12 || fld w 0 3 ≤ 5) && (op != 0x17 || (1 ≤ fld w 0 10 && fld w 0 10 ≤ 30))

/-- The temporaries that a chain has written, where every step is allowed. -/
def chainWrites (card : Nat) : Option (List Nat) :=
  if vSteps card = 0 then (if (vRole card 1).isSome then some [0] else none)
  else (List.range (vSteps card)).foldl (fun acc i =>
    acc.bind (fun l => if stepOk card (vStep card i) l then some (fld (vStep card i) 23 3 :: l) else none)) (some [])

/-- The core-memory lines that a group reads, in the order IN0, IN1, IN2 (R141). -/
def groupLines (card n g : Nat) : List Nat :=
  ((List.range 3).map (fun i =>
    match vRole card (i + 1) with
    | none => []
    | some slot =>
      let t := vTypeIn card i
      if vIsRecord t || vBroadcast card i then []
      else
        let desc := cardDesc card slot
        let lo := vItemBytes t (256 * g)
        let hi := vItemBytes t (min (256 * (g + 1)) (vN card))
        ((List.range (hi / 32 + 1 - lo / 32)).map (fun j =>
          (itemOffset desc (descQ card desc n) (lo / 32 * 32 + 32 * j)) / 32)).take (ceilDiv hi 32 - lo / 32))).flatten

/-- Of `l`, read 64 in a cycle, no cycle has more than two lines in one bank (R157). -/
def banksOk : Nat → List Nat → Bool
  | 0, _ => true
  | k + 1, l =>
    let now := (l.take 64).map (· % 64)
    now.all (fun b => now.count b ≤ 2) && banksOk k (l.drop 64)

/-- No group of a VECTOR card reads more than two lines of a bank in a cycle (R157). The lines of an input without a ring are
consecutive, so two such inputs cannot break the rule. -/
def vectorBanksOk (card : Nat) : Bool :=
  let ins := (List.range 3).filter (fun i => (vRole card (i + 1)).isSome && !vIsRecord (vTypeIn card i) && !vBroadcast card i)
  let ring (i : Nat) : Bool := match vRole card (i + 1) with | some slot => descWrap (cardDesc card slot) != 0 | none => false
  (ins.length < 3 && !ins.any ring)
    || (List.range (cardIters card)).all (fun n =>
      (List.range (vGroups card)).all (fun g => let l := groupLines card n g; banksOk (l.length / 64 + 1) l))

/-- The fields of a VECTOR card are allowed (R125-R129, R137, R157, R203). -/
def vectorOk (card : Nat) : Bool :=
  let roles := (List.range 4).map (fun i => bodyF card (307 + 3 * i) 3)
  let has (r : Nat) : Bool := roles.contains r
  let ins := (List.range 3).filter (fun i => has (i + 1))
  let types := ins.map (vTypeIn card) ++ (if has 4 then [vTypeOut card] else [])
  1 ≤ vN card && vN card ≤ 16384 && vSteps card ≤ 8 && roles.all (· ≤ 5)
    && (List.range 5).all (fun r => roles.count (r + 1) ≤ 1) && vRedOp card ≤ 5 && vRedScope card != 3
    && (vRedOp card != 0) == has 5 && (has 4 || has 5) && !(has 4 && vIsRecord (vTypeOut card))
    && (List.range 8).all (fun i => !bitAt (vStep card i) 10) && fld (cardBody card) 363 21 == 0
    && (match chainWrites card with
        | none => false
        | some l => (!has 4 || l.contains (vOutSrc card)) && (!has 5 || l.contains (vRedSrc card)))
    && (vN card % 32 == 0 || types.all (fun t => !isMx t && (vIsRecord t || 8 ≤ vWidth t)))
    && ins.all (fun i => match vRole card (i + 1) with | some slot => vInRunOk card i slot | none => true)
    && (match vRole card 4 with | some slot => descRun (cardDesc card slot) == vItemBytes (vTypeOut card) (vN card) | none => true)
    && (match vRole card 5 with | some slot => descRun (cardDesc card slot) == 16 * vRecordCount card (vRedScope card) | none => true)
    && vectorBanksOk card

/-- The fields of a MOVE card are allowed (R204). -/
def State.moveOk (s : State) (n own card : Nat) : Bool :=
  let die (lc : Nat) : Option Nat := (s.coreOf n lc).map (· / 16)
  let here (slot : Nat) : Bool := !descRemote (cardDesc card slot) && die (descLc (cardDesc card slot)) == die own
  let ob := descLevel (cardDesc card 1) == 2
  descRun (cardDesc card 0) == descRun (cardDesc card 1) && (here 0 || here 1) && (ob || bodyF card 0 96 == 0)
    && fld (cardBody card) 96 288 == 0

/-- The fields of a MULTICAST card are allowed (R205); RUN of source and target are the item's. -/
def multicastOk (card : Nat) : Bool :=
  descRun (cardDesc card 0) == descRun (cardDesc card 1) && fld (cardBody card) 192 192 == 0
    && (descLevel (cardDesc card 1) == 2) == (bodyF card 128 64 != 0)

/-- The fields of a REDUCE card are allowed (R206). -/
def reduceOk (card : Nat) : Bool :=
  9 ≤ bodyF card 0 4 && bodyF card 0 4 ≤ 0xB && bodyF card 4 2 != 3 && bodyF card 7 1 == 0 && fld (cardBody card) 24 360 == 0
    && descRun (cardDesc card 0) == descRun (cardDesc card 1)

/-- The body's fields are allowed. -/
def State.bodyOk (s : State) (n own card : Nat) : Bool :=
  match cardOp card with
  | 0 => cardBody card == 0
  | 1 => matmulOk card
  | 2 => vectorOk card
  | 3 => s.moveOk n own card
  | 4 => multicastOk card
  | 5 => reduceOk card
  | 6 => fld (cardBody card) 17 367 == 0
  | _ => fld (cardBody card) 33 351 == 0

/-- A card alone is one that the loader accepts (R18): header, waits, signals, descriptors and body. -/
def State.cardOk (s : State) (n own card : Nat) : Bool :=
  cardOp card ≤ 7 && cardF card 1 1 == 1 && fld card 19 13 == 0 && fld card 120 8 == 0 && cardIters card ≤ 2 ^ 32
    && (List.range 4).all (fun i => s.waitOk n own (cardWait card i) && s.signalOk n (cardSignal card i))
    && (List.range 4).all (fun i =>
      if slotUsed card i then descFieldsOk (cardDesc card i) && s.roleOk n own card i && s.extentOk n card i
      else cardDesc card i == 0)
    && s.bodyOk n own card

/-! ## Streams -/

/-- The MATMUL cards of a stream pair as R202 asks: a KEEP card follows a CHAIN_OPEN card of the same mask, formats and
policy, and nothing else follows one. -/
def chainsOk : Option Nat → List Nat → Bool
  | _, [] => true
  | prev, c :: t =>
    if cardOp c = 1 then
      let open' : Bool := match prev with | some p => bodyF p 181 2 == 2 | none => false
      (if mmKeep c then open' && (match prev with
          | some p => bodyF p 0 64 == bodyF c 0 64 && bodyF p 144 8 == bodyF c 144 8 && bodyF p 168 2 == bodyF c 168 2
          | none => false)
        else !open') && chainsOk (some c) t
    else chainsOk prev t

/-- Two cards' descriptors name one ring (R230); ENGINE does not count where the card ignores it. -/
def namesRing (c1 s1 c2 s2 : Nat) : Bool :=
  let a := cardDesc c1 s1
  let b := cardDesc c2 s2
  let anyEng (c slot : Nat) : Bool := cardOp c == 1 || (isSpread c && slot == 1) || cardOp c == 4
  descWrap a != 0 && descLevel a == descLevel b && descOff a == descOff b && descWrap a == descWrap b
    && descRemote a == descRemote b && descPeer a == descPeer b
    && (descLcs c1 s1).any (fun x => (descLcs c2 s2).contains x)
    && (descLevel a != 2 || (descBuf a == descBuf b && (anyEng c1 s1 || anyEng c2 s2 || descEng a == descEng b)))

/-- After a card that writes past a ring's end, a later card names the ring before the END card and before any card that
waits for the writer (R231). -/
def ringReader (c slot : Nat) : List Nat → Bool
  | [] => false
  | y :: t =>
    if cardEnd y then false
    else if (List.range 4).any (fun i => slotUsed y i && namesRing c slot y i) then true
    else if needsDrain y then false else ringReader c slot t

/-- The rings of a stream are safe (R231). -/
def ringsOk : List Nat → Bool
  | [] => true
  | c :: t =>
    (List.range 4).all (fun i =>
      match slotUse c i with
      | some true =>
        let desc := cardDesc c i
        descWrap desc == 0 || decide ((itemSpan c i).2 + (descRun desc : Int) ≤ (descWrap desc : Int)) || ringReader c i t
      | _ => true) && ringsOk t

/-- The layer digests of a stream: never more than four open, none at the END card (R278). -/
def digestsOk : List Nat → List Nat → Bool
  | _, [] => true
  | opened, c :: t =>
    let layer := bodyF c 0 16
    let next := if cardOp c = 6 then (if bitAt (cardBody c) 16 then opened.erase layer
      else if opened.contains layer then opened else layer :: opened) else opened
    if 4 < next.length then false else if cardEnd c then next.isEmpty else digestsOk next t

/-! ## Service cycles (R154) -/

/-- The schedule counts, modulo HOUR_LEN, at which cards issue whose gaps alone decide it (R192): `t0` is the first count after the
window, `past` the earlier cards. The counts end at the first card that a wait, a fence behind a unit's card or a busy unit may
delay (log entry 47). -/
def issueCounts (t0 : Nat) : Nat → List Nat → List Nat → List (Nat × Nat)
  | _, _, [] => []
  | last, past, c :: t =>
    let count (op : Nat) : Nat := (past.filter (fun x => cardOp x == op)).length
    let movers := count 3 + count 4 + count 5
    let waits := (List.range 4).any (fun i => waitValid (cardWait c i))
    let fenced := needsDrain c && 0 < count 1 + count 2 + movers
    if waits || fenced || 2 ≤ count 1 || 2 ≤ count 2 || 8 ≤ movers then []
    else
      let at' := max ((if past.length < 16 then t0 else last) + cardGap c) (if past.isEmpty then t0 else last + 1)
      (c, at') :: issueCounts t0 at' (past ++ [c]) t

/-- The counts at which the first item of a MOVE or MULTICAST card that issues at a count uses a slice of its die: its source reads, 32
lines a cycle, or the arrival of its lines at a slice, 16 a link. -/
def State.sliceCounts (s : State) (n own card at' : Nat) : List Nat :=
  match s.coreOf n own with
  | none => []
  | some g =>
    let d := g / 16
    let node (slot : Nat) : Option (Nat × Nat) :=
      let desc := cardDesc card slot
      let level := descLevel desc
      match s.coreOf n (descLc desc) with
      | none => none
      | some h => if descRemote desc || h / 16 != d || (level != 0 && level != 3) then none
        else some (sliceNode ((s.levelBase n d level + descOff desc) / 2 ^ 28 % 16))
    let lines := ceilDiv (descRun (cardDesc card 0)) 32
    let here := coreNode (g % 16)
    let reads := match node 0 with
      | some x => (List.range (ceilDiv lines 32)).map (fun i => at' + 1 + 2 * hops here x + i)
      | none => []
    let lands := if cardOp card != 3 then [] else match node 1 with
      | some y =>
        let src := (node 0).getD here
        let wide := if src.1 = y.1 ∨ src.2 = y.2 then 16 else 32
        let first := at' + 1 + 2 * hops here src + (if (node 0).isSome then 8 else 4) + 2 * hops src y
        (List.range (ceilDiv lines wide)).map (first + ·)
      | none => []
    if cardOp card = 3 ∨ cardOp card = 4 then reads ++ lands else []

/-- No slice is used in a service cycle, counts 15 modulo 16, as far as the stream's cards fix its counts; `w` is the program's window
length (R50, R154). -/
def State.serviceFree (s : State) (n own w : Nat) (cards : List Nat) : Bool :=
  (issueCounts w 0 [] cards).all (fun x => (s.sliceCounts n own x.1 x.2).all (fun c => c % 16 != 15))

/-- A stream is one that the loader accepts (R18): card 0 is an HOUR_MARK (R185), the END card is the last one, and every
card and the rules over several cards hold. -/
def State.streamOk (s : State) (n own w : Nat) (cards : List Nat) : Bool :=
  (match cards.head? with | some c => cardOp c == 7 | none => false)
    && (match cards.getLast? with | some c => cardEnd c | none => false) && cards.dropLast.all (fun c => !cardEnd c)
    && cards.all (s.cardOk n own) && chainsOk none cards && ringsOk cards && digestsOk [] cards && s.serviceFree n own w cards

/-! ## External waits (R233) -/

/-- What a signal of a card advances: logical core's cluster and die, kind and index, before relocation. -/
def State.signalTarget (s : State) (n x : Nat) : Option (Nat × Nat × Nat) :=
  (s.coreOf n (fld x 51 7)).map (fun g => (g / 4, fld x 58 1, fld x 32 8))

/-- No external wait of the program waits for what only cards on its own die signal (R233). `streams` holds the logical core
and the cards of each stream. A flag or counter that no card signals is taken as fed by the service path or another package: an
image has no field for the record of producers that R233 names (log entry 48). -/
def State.externalsOk (s : State) (n : Nat) (streams : List (Nat × List Nat)) : Bool :=
  let signals : List ((Nat × Nat × Nat) × Nat) := (streams.map (fun p =>
    (p.2.map (fun c => ((List.range 4).filterMap (fun i =>
      let x := cardSignal c i
      if bitAt x 63 && !bitAt x 60 then (s.signalTarget n x).map (fun k => (k, (s.coreOf n p.1).getD 0 / 16)) else none)))).flatten)).flatten
  streams.all (fun p => p.2.all (fun c => (List.range 4).all (fun i =>
    let w := cardWait c i
    !(waitValid w && waitExt w) ||
      (match s.coreOf n (fld w 50 7) with
       | none => true
       | some g =>
         let mine := signals.filter (fun x => x.1 == (g / 4, fld w 57 1, fld w 40 8))
         mine.isEmpty || mine.any (fun x => x.2 != g / 16)))))

/-! ## Relocation (R170, R211, R218) -/

/-- An INDEX of a wait or signal relocated into a partition's window on the die of core `g`; `none` past its end (R218). -/
def State.relocIndex (s : State) (n g kind index : Nat) : Option Nat :=
  let r := Reg.cdFlagwin (g / 16) n
  let base := s.f64 r (32 * kind) 8
  let size := s.f64 r (32 * kind + 8) 9
  if index < size then some (base + index) else none

/-- A field of a card replaced. -/
def setCardF (card lo w x : Nat) : Nat := setFld card lo w x

/-- A card with its waits, signals and descriptors relocated (R211); `none` where an INDEX lies past its window (R218). -/
def State.relocCard (s : State) (n card : Nat) : Option Nat :=
  let entry (acc : Option Nat) (at' lcLo idxLo : Nat) (use : Bool) (kind lc idx : Nat) : Option Nat :=
    acc.bind (fun c =>
      if !use then some c
      else (s.coreOf n lc).bind (fun g => (s.relocIndex n g kind idx).map (fun k =>
        setCardF (setCardF c (at' + lcLo) 7 g) (at' + idxLo) 8 k)))
  let acc := (List.range 4).foldl (fun acc i =>
    let w := cardWait card i
    entry acc (128 + 64 * i) 50 40 (waitValid w) (fld w 57 1) (fld w 50 7) (fld w 40 8)) (some card)
  let acc := (List.range 4).foldl (fun acc i =>
    let x := cardSignal card i
    entry acc (384 + 64 * i) 51 32 (bitAt x 63 && !bitAt x 60) (fld x 58 1) (fld x 51 7) (fld x 32 8)) acc
  acc.map (fun c => (List.range 4).foldl (fun c i =>
    let desc := cardDesc c i
    if !slotUsed c i || descRemote desc then c
    else match s.coreOf n (if cardOp c = 4 ∧ i = 1 then ((descLcs c i)[0]?).getD 0 else descLc desc) with
      | none => c
      | some g =>
        let at' := 640 + 256 * i
        setCardF (setCardF c (at' + 44) 7 g) at' 32 (descOff desc + s.levelBase n (g / 16) (descLevel desc))) c)

end Sys2Proof.Machine
end

