-- ==== Sys2Proof/Machine/Zstd.lean ====
section
/-!
DEFINITION. Decompression of Zstandard frames under RFC 8878 within the limits of R360: frames in sequence, a window of at most
8 MiB, no dictionary, no skippable frame, the frame checksum verified where a frame has one.
-/

namespace Sys2Proof

namespace Zstd

/-- The position of the highest set bit; 0 for 0. -/
def top (n : Nat) : Nat := Nat.log2 n

/-! ## The frame checksum: the low half of XXH64 with seed 0 -/

/-- The five primes of XXH64. -/
def prime1 : W64 := 0x9E3779B185EBCA87
/-- The second prime. -/
def prime2 : W64 := 0xC2B2AE3D27D4EB4F
/-- The third prime. -/
def prime3 : W64 := 0x165667B19E3779F9
/-- The fourth prime. -/
def prime4 : W64 := 0x85EBCA77C2B2AE63
/-- The fifth prime. -/
def prime5 : W64 := 0x27D4EB2F165667C5

/-- One lane takes a word. -/
def lane (acc x : W64) : W64 := (acc + x * prime2).rotateLeft 31 * prime1

/-- The little-endian word at the head of a byte list. -/
def word (n : Nat) (b : List Byte) : W64 := BitVec.ofNat 64 (leNat (b.take n))

/-- The four lanes take the stripes of 32 bytes. -/
def stripes : Nat → List Byte → W64 × W64 × W64 × W64 → W64 × W64 × W64 × W64
  | 0, _, v => v
  | n + 1, b, (v1, v2, v3, v4) =>
    stripes n (b.drop 32) (lane v1 (word 8 b), lane v2 (word 8 (b.drop 8)), lane v3 (word 8 (b.drop 16)), lane v4 (word 8 (b.drop 24)))

/-- The words of 8 bytes past the stripes. -/
def tail8 : Nat → List Byte → W64 → W64
  | 0, _, h => h
  | n + 1, b, h => tail8 n (b.drop 8) ((h ^^^ lane 0 (word 8 b)).rotateLeft 27 * prime1 + prime4)

/-- XXH64 of a byte string with seed 0. -/
def xxh64 (b : List Byte) : W64 :=
  let n := b.length
  let start : W64 :=
    if n < 32 then prime5
    else
      let (v1, v2, v3, v4) := stripes (n / 32) b (prime1 + prime2, prime2, 0, 0 - prime1)
      let merge (h v : W64) : W64 := (h ^^^ lane 0 v) * prime1 + prime4
      merge (merge (merge (merge (v1.rotateLeft 1 + v2.rotateLeft 7 + v3.rotateLeft 12 + v4.rotateLeft 18) v1) v2) v3) v4
  let r := b.drop (n / 32 * 32)
  let h := tail8 (r.length / 8) r (start + BitVec.ofNat 64 n)
  let r := r.drop (r.length / 8 * 8)
  let h := if 4 ≤ r.length then (h ^^^ word 4 r * prime1).rotateLeft 23 * prime2 + prime3 else h
  let h := (r.drop (r.length / 4 * 4)).foldl (fun h x => (h ^^^ x.setWidth 64 * prime5).rotateLeft 11 * prime1) h
  let h := (h ^^^ h >>> 33) * prime2
  let h := (h ^^^ h >>> 29) * prime3
  h ^^^ h >>> 32

/-! ## Bitstreams -/

/-- A stream read backwards: its bits as a number, and how many of them are left; a reader takes the highest first. -/
structure Back where
  bits : Nat
  left : Nat

/-- The backward stream of a byte string: the highest set bit of the last byte marks its start. -/
def Back.ofBytes (b : List Byte) : Option Back :=
  match b.getLast? with
  | none => none
  | some x => if x = 0 then none else some ⟨leNat b, 8 * (b.length - 1) + top x.toNat⟩

/-- The next `k` bits, with zeros past the end. -/
def Back.peek (s : Back) (k : Nat) : Nat :=
  if k ≤ s.left then fld s.bits (s.left - k) k else fld s.bits 0 s.left * 2 ^ (k - s.left)

/-- `k` bits off the stream; `none` where it holds fewer. -/
def Back.take (s : Back) (k : Nat) : Option (Nat × Back) := if k ≤ s.left then some (s.peek k, { s with left := s.left - k }) else none

/-! ## FSE tables -/

/-- An entry of a decoding table: its symbol, the bits read for the next state, and what is added to them. -/
structure Cell where
  sym : Nat
  bits : Nat
  base : Nat

/-- A decoding table with its accuracy. -/
structure Table where
  log : Nat
  cells : List Cell

/-- The zero counts that flags of 2 bits after a zero count stand for, and the bit after the flags. -/
def zeroRuns (n : Nat) : Nat → Nat → Nat × Nat
  | 0, p => (0, p)
  | f + 1, p =>
    let k := fld n p 2
    if k = 3 then let r := zeroRuns n f (p + 2); (3 + r.1, r.2) else (k, p + 2)

/-- The counts of a table description from bit `p` on, with `r` cells left to give: one per symbol, -1 for "less than one". The
result holds the bit after them. -/
def counts (n len most : Nat) : Nat → Nat → Nat → List Int → Option (List Int × Nat)
  | 0, _, _, _ => none
  | f + 1, p, r, acc =>
    if r = 0 then (if acc.length ≤ most + 1 then some (acc, p) else none)
    else if most < acc.length ∨ 8 * len < p then none
    else
      let k := top (r + 1) + 1
      let v := fld n p k
      let low := v % 2 ^ (k - 1)
      let spare := 2 ^ k - 1 - (r + 1)
      let (v, p) := if low < spare then (low, p + k - 1) else (if 2 ^ (k - 1) ≤ v then v - spare else v, p + k)
      let c : Int := (v : Nat) - 1
      if c = 0 then
        let z := zeroRuns n (4 * len + 1) p
        counts n len most f z.2 r (acc ++ [0] ++ List.replicate z.1 0)
      else if r < c.natAbs then none
      else counts n len most f p (r - c.natAbs) (acc ++ [c])

/-- The decoding table of counts. -/
def tableOf (log : Nat) (cs : List Int) : Table :=
  let size := 2 ^ log
  let syms := List.range cs.length
  let count (s : Nat) : Int := (cs[s]?).getD 0
  let rare := syms.filter (fun s => count s == -1)
  let high := size - rare.length
  let step := size / 2 + size / 8 + 3
  let places := ((List.range size).map (fun k => k * step % size)).filter (fun i => i < high)
  let placed := places.zip ((syms.map (fun s => List.replicate (count s).toNat s)).flatten)
  let symAt (i : Nat) : Nat := if high ≤ i then (rare[size - 1 - i]?).getD 0 else ((placed.find? (fun p => p.1 == i)).map (·.2)).getD 0
  let order := (List.range size).map symAt
  ⟨log, (List.range size).map (fun i =>
    let s := symAt i
    let next := (count s).natAbs + ((order.take i).filter (· == s)).length
    let k := log - top next
    ⟨s, k, next * 2 ^ k - size⟩)⟩

/-- A table that gives one symbol and reads no bits. -/
def rleTable (s : Nat) : Table := ⟨0, [⟨s, 0, 0⟩]⟩

/-- The table that a description gives, and the bytes it takes. `most` bounds the accuracy, `last` is the highest symbol. -/
def readTable (most last : Nat) (b : List Byte) : Option (Table × Nat) :=
  let n := leNat (b.take 512)
  let log := fld n 0 4 + 5
  if b.isEmpty ∨ most < log then none
  else (counts n (min b.length 512) last (last + 3) 4 (2 ^ log) []).bind (fun r =>
    let used := ceilDiv r.2 8
    if used ≤ b.length then some (tableOf log r.1, used) else none)

/-- The entry of a state. -/
def Table.at (t : Table) (x : Nat) : Cell := (t.cells[x]?).getD ⟨0, 0, 0⟩

/-! ## Huffman trees -/

/-- The symbols of weights coded by two states that take turns. `here` is the state whose turn it is. -/
def weightsOf (t : Table) : Nat → Back → Nat → Nat → List Nat → Option (List Nat)
  | 0, _, _, _, _ => none
  | f + 1, s, here, other, acc =>
    let c := t.at here
    let acc := acc ++ [c.sym]
    if s.left < c.bits then some (acc ++ [(t.at other).sym])
    else weightsOf t f { s with left := s.left - c.bits } other (c.base + s.peek c.bits) acc

/-- The weights of a tree description, and the bytes it takes. -/
def readWeights (b : List Byte) : Option (List Nat × Nat) :=
  match b with
  | [] => none
  | h :: r =>
    if 128 ≤ h.toNat then
      let n := h.toNat - 127
      let k := ceilDiv n 2
      if r.length < k then none
      else some ((List.range n).map (fun i => fld ((r[i / 2]?).getD 0).toNat (if i % 2 = 0 then 4 else 0) 4), 1 + k)
    else
      let d := r.take h.toNat
      if d.length < h.toNat then none
      else (readTable 6 255 d).bind (fun p =>
        (Back.ofBytes (d.drop p.2)).bind (fun s =>
        (s.take p.1.log).bind (fun a =>
        (a.2.take p.1.log).bind (fun c =>
        (weightsOf p.1 255 c.2 a.1 c.1 []).map (fun w => (w, 1 + h.toNat))))))

/-- A Huffman tree: the longest code, and the symbol and length of code for every value of that many bits. -/
structure Tree where
  long : Nat
  codes : List (Nat × Nat)

/-- The tree of given weights; the weight of the last symbol is what completes a power of 2. -/
def treeOf (w : List Nat) : Option Tree :=
  let sum := (w.map (fun x => if x = 0 then 0 else 2 ^ (x - 1))).sum
  if sum = 0 ∨ 255 < w.length ∨ w.any (fun x => decide (11 < x)) then none
  else
    let long := top sum + 1
    let rest := 2 ^ long - sum
    if 11 < long ∨ 2 ^ top rest ≠ rest then none
    else
      let w := w ++ [top rest + 1]
      some ⟨long, ((List.range long).map (fun k => ((upto w.length (fun s => w[s]? == some (k + 1))).map (fun s =>
        List.replicate (2 ^ k) (s, long - k))).flatten)).flatten⟩

/-- `n` literals from a stream, which they use up. -/
def literalsOf (t : Tree) : Nat → Back → Option (List Byte)
  | 0, s => if s.left = 0 then some [] else none
  | n + 1, s =>
    match t.codes[s.peek t.long]? with
    | none => none
    | some (x, k) => if k ≤ s.left then (literalsOf t n { s with left := s.left - k }).map (BitVec.ofNat 8 x :: ·) else none

/-- `n` literals from the bytes of one stream. -/
def streamOf (t : Tree) (n : Nat) (b : List Byte) : Option (List Byte) := (Back.ofBytes b).bind (literalsOf t n)

/-- `n` literals from four streams behind their jump table. -/
def fourStreams (t : Tree) (n : Nat) (b : List Byte) : Option (List Byte) :=
  let l (i : Nat) : Nat := leNat ((b.drop (2 * i)).take 2)
  let r := b.drop 6
  let part := (n + 3) / 4
  if b.length < 6 ∨ r.length < l 0 + l 1 + l 2 ∨ n < 3 * part then none
  else
    (streamOf t part (r.take (l 0))).bind (fun a =>
    (streamOf t part ((r.drop (l 0)).take (l 1))).bind (fun c =>
    (streamOf t part ((r.drop (l 0 + l 1)).take (l 2))).bind (fun d =>
    (streamOf t (n - 3 * part) (r.drop (l 0 + l 1 + l 2))).map (fun e => a ++ c ++ d ++ e))))

/-! ## Blocks -/

/-- What one block leaves to the next of its frame: the Huffman tree, the tables of literals lengths, offsets and match lengths,
and the three offsets used last. -/
structure Carry where
  tree : Option Tree := none
  ll : Option Table := none
  off : Option Table := none
  ml : Option Table := none
  reps : Nat × Nat × Nat := (1, 4, 8)

/-- The literals section of a block: its literals, the tree in effect, and the bytes it takes. -/
def literals (c : Carry) (b : List Byte) : Option (List Byte × Option Tree × Nat) :=
  let h := leNat (b.take 5)
  let kind := fld h 0 2
  let form := fld h 2 2
  if b.isEmpty then none
  else if kind < 2 then
    let (k, n) := if form % 2 = 0 then (1, fld h 3 5) else if form = 1 then (2, fld h 4 12) else (3, fld h 4 20)
    let r := b.drop k
    if b.length < k ∨ 2 ^ 17 < n then none
    else if kind = 0 then (if n ≤ r.length then some (r.take n, c.tree, k + n) else none)
    else r.head?.map (fun x => (List.replicate n x, c.tree, k + 1))
  else
    let (k, w) := if form < 2 then (3, 10) else if form = 2 then (4, 14) else (5, 18)
    let n := fld h 4 w
    let size := fld h (4 + w) w
    let d := (b.drop k).take size
    if b.length < k + size ∨ 2 ^ 17 < n then none
    else
      let got := if kind = 2 then (readWeights d).bind (fun p => (treeOf p.1).map (fun t => (t, p.2))) else c.tree.map (fun t => (t, 0))
      got.bind (fun g =>
        let r := d.drop g.2
        (if form = 0 then streamOf g.1 n r else fourStreams g.1 n r).map (fun l => (l, some g.1, k + size)))

/-- Counts of the predefined table of literals lengths. -/
def llCounts : List Int :=
  [4, 3, 2, 2, 2, 2, 2, 2, 2, 2, 2, 2, 2, 1, 1, 1, 2, 2, 2, 2, 2, 2, 2, 2, 2, 3, 2, 1, 1, 1, 1, 1, -1, -1, -1, -1]
/-- Counts of the predefined table of match lengths. -/
def mlCounts : List Int := [1, 4, 3, 2, 2, 2, 2, 2, 2] ++ List.replicate 37 1 ++ List.replicate 7 (-1)
/-- Counts of the predefined table of offsets. -/
def offCounts : List Int := List.replicate 6 1 ++ [2, 2, 2] ++ List.replicate 15 1 ++ List.replicate 5 (-1)

/-- Baseline and extra bits of a literals length code. -/
def llCode (c : Nat) : Nat × Nat :=
  if c < 16 then (c, 0)
  else ([(16, 1), (18, 1), (20, 1), (22, 1), (24, 2), (28, 2), (32, 3), (40, 3), (48, 4), (64, 6)][c - 16]?).getD (2 ^ (c - 19), c - 19)

/-- Baseline and extra bits of a match length code. -/
def mlCode (c : Nat) : Nat × Nat :=
  if c < 32 then (c + 3, 0)
  else ([(35, 1), (37, 1), (39, 1), (41, 1), (43, 2), (47, 2), (51, 3), (59, 3), (67, 4), (83, 4), (99, 5)][c - 32]?).getD
    (2 ^ (c - 36) + 3, c - 36)

/-- A table of the sequences section by its mode, and the bytes it takes. -/
def seqTable (mode most last : Nat) (pre : Table) (old : Option Table) (b : List Byte) : Option (Table × Nat) :=
  match mode with
  | 0 => some (pre, 0)
  | 1 => b.head?.bind (fun x => if x.toNat ≤ last then some (rleTable x.toNat, 1) else none)
  | 2 => readTable most last b
  | _ => old.map (fun t => (t, 0))

/-- A sequence: literals length, offset value, match length. -/
structure Seq where
  ll : Nat
  off : Nat
  ml : Nat

/-- The sequences of a block from its stream, which they use up: `n` of them, from the states of the three tables. -/
def sequencesOf (tl tf tm : Table) : Nat → Back → Nat → Nat → Nat → Option (List Seq)
  | 0, s, _, _, _ => if s.left = 0 then some [] else none
  | n + 1, s, xl, xo, xm =>
    let cl := tl.at xl
    let co := tf.at xo
    let cm := tm.at xm
    (s.take co.sym).bind (fun o =>
    (o.2.take (mlCode cm.sym).2).bind (fun m =>
    (m.2.take (llCode cl.sym).2).bind (fun l =>
      let q : Seq := ⟨(llCode cl.sym).1 + l.1, 2 ^ co.sym + o.1, (mlCode cm.sym).1 + m.1⟩
      if n = 0 then (sequencesOf tl tf tm 0 l.2 0 0 0).map (q :: ·)
      else
        (l.2.take cl.bits).bind (fun a =>
        (a.2.take cm.bits).bind (fun c =>
        (c.2.take co.bits).bind (fun d =>
          (sequencesOf tl tf tm n d.2 (cl.base + a.1) (co.base + d.1) (cm.base + c.1)).map (q :: ·)))))))

/-- The sequences section of a block: its sequences and the tables in effect. -/
def sequences (c : Carry) (b : List Byte) : Option (List Seq × Carry) :=
  match b with
  | [] => none
  | h :: r =>
    let b0 := h.toNat
    let b1 := ((r[0]?).getD 0).toNat
    let b2 := ((r[1]?).getD 0).toNat
    let (n, k) := if b0 < 128 then (b0, 0) else if b0 < 255 then ((b0 - 128) * 256 + b1, 1) else (b1 + 256 * b2 + 0x7F00, 2)
    if n = 0 then (if r.length = k then some ([], c) else none)
    else if r.length ≤ k then none
    else
      let modes := ((r[k]?).getD 0).toNat
      let r := r.drop (k + 1)
      if fld modes 0 2 ≠ 0 then none
      else
        (seqTable (fld modes 6 2) 9 35 (tableOf 6 llCounts) c.ll r).bind (fun tl =>
        (seqTable (fld modes 4 2) 8 31 (tableOf 5 offCounts) c.off (r.drop tl.2)).bind (fun tf =>
        (seqTable (fld modes 2 2) 9 52 (tableOf 6 mlCounts) c.ml (r.drop (tl.2 + tf.2))).bind (fun tm =>
        (Back.ofBytes (r.drop (tl.2 + tf.2 + tm.2))).bind (fun s =>
        (s.take tl.1.log).bind (fun xl =>
        (xl.2.take tf.1.log).bind (fun xo =>
        (xo.2.take tm.1.log).bind (fun xm =>
          (sequencesOf tl.1 tf.1 tm.1 n xm.2 xl.1 xo.1 xm.1).map (fun q =>
            (q, { c with ll := some tl.1, off := some tf.1, ml := some tm.1 })))))))))

/-- The offset of a sequence, and the three used last after it. -/
def offsetOf (reps : Nat × Nat × Nat) (q : Seq) : Nat × (Nat × Nat × Nat) :=
  let (a, b, c) := reps
  if 3 < q.off then (q.off - 3, q.off - 3, a, b)
  else
    match q.off + (if q.ll = 0 then 1 else 0) with
    | 1 => (a, a, b, c)
    | 2 => (b, b, a, c)
    | 3 => (c, c, a, b)
    | _ => (a - 1, a - 1, a, b)

/-- `n` bytes copied from `d` back; the output stands newest first. -/
def copyBack (d : Nat) : Nat → List Byte → List Byte
  | 0, out => out
  | n + 1, out => copyBack d n ((out[d - 1]?).getD 0 :: out)

/-- The sequences carried out: literals, then a match. `most` bounds offsets. -/
def runSeqs (most : Nat) : List Seq → List Byte → Nat × Nat × Nat → List Byte → Option (List Byte × (Nat × Nat × Nat))
  | [], lits, reps, out => some (lits.reverse ++ out, reps)
  | q :: qs, lits, reps, out =>
    let (d, reps) := offsetOf reps q
    let out := (lits.take q.ll).reverse ++ out
    if lits.length < q.ll ∨ d = 0 ∨ most < d ∨ out.length < d then none
    else runSeqs most qs (lits.drop q.ll) reps (copyBack d q.ml out)

/-- A compressed block: the output after it and what it leaves. -/
def compressed (window : Nat) (c : Carry) (b out : List Byte) : Option (List Byte × Carry) :=
  (literals c b).bind (fun l =>
  (sequences { c with tree := l.2.1 } (b.drop l.2.2)).bind (fun q =>
  (runSeqs window q.1 l.1 q.2.reps out).bind (fun r =>
    if r.1.length ≤ out.length + min window (2 ^ 17) then some (r.1, { q.2 with reps := r.2 }) else none)))

/-- The blocks of a frame: the output, newest first, and the bytes after the last block. -/
def blocks (window : Nat) : Nat → Carry → List Byte → List Byte → Option (List Byte × List Byte)
  | 0, _, _, _ => none
  | f + 1, c, b, out =>
    let h := leNat (b.take 3)
    let r := b.drop 3
    let size := fld h 3 21
    let go (out r : List Byte) (c : Carry) : Option (List Byte × List Byte) := if bitAt h 0 then some (out, r) else blocks window f c r out
    if b.length < 3 ∨ min window (2 ^ 17) < size then none
    else
      match fld h 1 2 with
      | 0 => if r.length < size then none else go ((r.take size).reverse ++ out) (r.drop size) c
      | 1 => r.head?.bind (fun x => go (List.replicate size x ++ out) (r.drop 1) c)
      | 2 => if r.length < size then none else (compressed window c (r.take size) out).bind (fun p => go p.1 (r.drop size) p.2)
      | _ => none

/-! ## Frames -/

/-- The window size that a window descriptor names. -/
def windowOf (x : Nat) : Nat := let base := 2 ^ (10 + fld x 3 5); base + base / 8 * fld x 0 3

/-- One frame: its content and the bytes after it. -/
def frame (b : List Byte) : Option (List Byte × List Byte) :=
  let d := ((b[4]?).getD 0).toNat
  let single := bitAt d 5
  let w := if single then 0 else 1
  let idLen := ([0, 1, 2, 4][fld d 0 2]?).getD 0
  let sizeLen := if fld d 6 2 = 0 then (if single then 1 else 0) else 2 ^ fld d 6 2
  let head := 5 + w + idLen + sizeLen
  let size := leNat ((b.drop (5 + w + idLen)).take sizeLen) + (if sizeLen = 2 then 256 else 0)
  let window := if single then size else windowOf ((b[5]?).getD 0).toNat
  if b.length < head ∨ leNat (b.take 4) ≠ 0xFD2FB528 ∨ bitAt d 3 ∨ leNat ((b.drop (5 + w)).take idLen) ≠ 0 ∨ 2 ^ 23 < window then none
  else
    (blocks window b.length {} (b.drop head) []).bind (fun r =>
      let out := r.1.reverse
      if sizeLen ≠ 0 ∧ out.length ≠ size then none
      else if bitAt d 2 then
        (if r.2.length < 4 ∨ leNat (r.2.take 4) ≠ (xxh64 out).toNat % 2 ^ 32 then none else some (out, r.2.drop 4))
      else some (out, r.2))

/-- Frames one after another to the end of a byte string. -/
def frames : Nat → List Byte → Option (List Byte)
  | 0, _ => none
  | f + 1, b => (frame b).bind (fun r => if r.2.isEmpty then some r.1 else (frames f r.2).map (r.1 ++ ·))

/-- The content of one or more frames; `none` where they are malformed under R360. -/
def decode (b : List Byte) : Option (List Byte) := frames b.length b

end Zstd

end Sys2Proof
end

