-- ==== Sys2Proof/Machine/Convert.lean ====
section
/-!
DEFINITION. The format converter: publisher tensors, the device layout, import and export
(14_model_images_and_loading.md R357-R360, R373).
-/

namespace Sys2Proof.Machine

/-! ## Publisher formats (Table 14-4) -/

/-- The element format of a publisher format: MXFP8 E4M3 and E5M2 have FP8 elements. -/
def pubElem (fmt : Nat) : Nat := if fmt = 0x10 then 6 else if fmt = 0x11 then 7 else fmt
/-- The publisher format has block scales. -/
def pubMx (fmt : Nat) : Bool := isMx fmt || fmt == 0x10 || fmt == 0x11
/-- A code of Table 14-4 that is not reserved. -/
def pubKnown (fmt : Nat) : Bool := fmt ≤ 0x0B || fmt == 0x10 || fmt == 0x11
/-- Width of an element in bits. -/
def pubWidth (fmt : Nat) : Nat := fmtWidth (pubElem fmt)

/-- A tensor: element codes row-major, and block scales row-major of the blocks along K. -/
structure Tensor where
  fmt : Nat
  role : Nat
  rows : Nat
  cols : Nat
  codes : Nat
  scales : List Byte
  deriving DecidableEq, Repr

/-- K runs along the rows of the tensor (ROLE 1). -/
def kAlongRows (role : Nat) : Bool := role == 1

/-- Number of block scales of a publisher tensor. -/
def scaleCount (role rows cols : Nat) : Nat := if kAlongRows role then ceilDiv rows 32 * cols else rows * ceilDiv cols 32

/-- Bytes of a publisher tensor (Table 14-4). -/
def pubSize (fmt role rows cols : Nat) : Nat :=
  ceilDiv (rows * cols * pubWidth fmt) 8 + (if pubMx fmt then scaleCount role rows cols else 0)

/-- The tensor that a publisher's bytes spell. -/
def Tensor.ofBytes (fmt role rows cols : Nat) (bs : List Byte) : Tensor :=
  let n := ceilDiv (rows * cols * pubWidth fmt) 8
  ⟨fmt, role, rows, cols, leNat (bs.take n), bs.drop n⟩

/-- The code of an element; zero outside the tensor (R358). -/
def Tensor.code (t : Tensor) (r c : Nat) : Nat :=
  if r < t.rows ∧ c < t.cols then fld t.codes ((r * t.cols + c) * pubWidth t.fmt) (pubWidth t.fmt) else 0

/-- The scale byte of the block that holds an element; 0 outside the tensor (R358). -/
def Tensor.scale (t : Tensor) (r c : Nat) : Nat :=
  if r < t.rows ∧ c < t.cols then
    ((t.scales[if kAlongRows t.role then r / 32 * t.cols + c else r * ceilDiv t.cols 32 + c / 32]?).getD 0).toNat
  else 0

/-- The value of an element. -/
def Tensor.val (t : Tensor) (r c : Nat) : Val :=
  let v := decodeElem (pubElem t.fmt) (t.code r c)
  if pubMx t.fmt then scaleVal v (t.scale r c) else v

/-! ## The device layout (R358) -/

/-- The next multiple of 32. -/
def ceil32 (n : Nat) : Nat := ceilDiv n 32 * 32

/-- Row and column of element `i` (of the 32) at step `k` of a strip. -/
def stripPos (role strip i k : Nat) : Nat × Nat := if role = 1 then (k, 32 * strip + i) else (32 * strip + i, k)

/-- Number of strips and padded K of a tensor with ROLE 0 or 1. -/
def stripDims (role rows cols : Nat) : Nat × Nat := if role = 1 then (ceilDiv cols 32, ceil32 rows) else (ceilDiv rows 32, ceil32 cols)

/-- Blocks of 32 elements of a ROLE 2 tensor, row after row. -/
def rowBlocks (rows cols : Nat) : Nat := rows * ceilDiv cols 32

/-- Bytes of a tensor in device layout without channel scales. -/
def layoutSize (fmt role rows cols : Nat) : Nat :=
  let w := fmtWidth fmt
  if role ≤ 1 then
    (let (n, k) := stripDims role rows cols
     n * (k / 32) * (128 * w + (if isMx fmt then 32 else 0)))
  else if isMx fmt then
    (let b := rowBlocks rows cols
     b / 32 * (128 * w + 32) + b % 32 * (4 * w + 1))
  else ceilDiv (rows * cols * w) 8

/-- A block of 32 elements in device layout: its codes and its scale byte. -/
structure LBlock where
  codes : List Nat
  scale : Nat
  deriving DecidableEq, Repr

/-- A run of blocks: elements first, then the scales (R77, R129). -/
def blockRun (w : Nat) (bs : List LBlock) : List Byte :=
  (bs.map (fun b => leBytes (4 * w) (packCodes w b.codes))).flatten ++ bs.map (fun b => BitVec.ofNat 8 b.scale)

/-- Blocks `i`, `i + 1`, ... up to `n` in runs of 32. -/
def blockRuns (w : Nat) (block : Nat → LBlock) (n : Nat) : List Byte :=
  ((List.range (ceilDiv n 32)).map (fun r => blockRun w ((List.range (min 32 (n - 32 * r))).map (fun j => block (32 * r + j))))).flatten

/-- The device layout of a tensor from the code of each element and, for an MX format, the block at an element (R76, R77, R104,
R129, R358). `block r c` is the block along K that starts at that element. -/
def layout (fmt role rows cols : Nat) (code : Nat → Nat → Nat) (block : Nat → Nat → LBlock) : List Byte :=
  let w := fmtWidth fmt
  if role ≤ 1 then
    let (n, k) := stripDims role rows cols
    ((List.range n).map (fun s =>
      if isMx fmt then
        ((List.range (k / 32)).map (fun kb =>
          blockRun w ((List.range 32).map (fun i => let p := stripPos role s i (32 * kb); block p.1 p.2)))).flatten
      else
        ((List.range k).map (fun j =>
          leBytes (4 * w) (packCodes w ((List.range 32).map (fun i => let p := stripPos role s i j; code p.1 p.2))))).flatten)).flatten
  else if isMx fmt then
    let per := ceilDiv cols 32
    blockRuns w (fun b => block (b / per) (b % per * 32)) (rowBlocks rows cols)
  else
    leBytes (ceilDiv (rows * cols * w) 8) (packCodes w ((List.range (rows * cols)).map (fun i => code (i / cols) (i % cols))))

/-- Row and column of element `j` of the block that starts at an element. -/
def blockElem (role r c j : Nat) : Nat × Nat := if role = 1 then (r + j, c) else (r, c + j)

/-- RELAYOUT: the same codes and scales in device layout. A block outside the tensor takes scale 0 (R358). -/
def relayout (t : Tensor) : List Byte :=
  layout t.fmt t.role t.rows t.cols t.code (fun r c =>
    ⟨(List.range 32).map (fun j => let p := blockElem t.role r c j; t.code p.1 p.2), t.scale r c⟩)

/-! ## QUANTIZE (R359) -/

/-- What a conversion gives: its bytes, and the elements saturated or made NaN. -/
structure Converted where
  bytes : List Byte
  bad : Nat
  deriving DecidableEq, Repr

/-- One element converted to FP8, FP16 or BF16: Inf saturates and is counted, NaN is counted. -/
def quantFloat (fmt : Nat) (v : Val) : Nat × Bool :=
  match v.sp with
  | .finite => toFloat fmt v.m v.e none
  | .posInf => (maxFiniteCode fmt, true)
  | .negInf => (maxFiniteCode fmt + 2 ^ (fmtWidth fmt - 1), true)
  | .nan => ((drainElem fmt .nan 0 0 none).1, true)

/-- X of an integer channel (R359): the least X with amax at most q times 2 to the X, between -127 and 127. -/
def channelExp (w : Nat) (a : Int × Int) : Int :=
  if a.1 = 0 then -127
  else
    let q : Int := 2 ^ (w - 1) - 1
    let lo := floorLog2 a.1.natAbs a.2 - w
    let fits (X : Int) : Bool := !(magLt (q, X) (a.1.natAbs, a.2))
    let X := ((List.range (w + 3)).map (fun i => lo + (i : Nat))).find? fits
    max (-127) (min 127 (X.getD (lo + w + 2)))

/-- One element of an integer channel with exponent X: NaN gives 0, an infinity saturates, both counted. -/
def quantInt (w : Nat) (X : Int) (v : Val) : Nat × Bool :=
  match v.sp with
  | .finite => toInteger w v.m (v.e - X) none
  | .posInf => (2 ^ (w - 1) - 1, true)
  | .negInf => (2 ^ (w - 1), true)
  | .nan => (0, true)

/-- An MX block of the elements from one on along K, and its count: a NaN block makes all 32 elements NaN. -/
def quantBlock (t : Tensor) (fmt r c : Nat) : LBlock × Nat :=
  let vs := (List.range 32).map (fun j => let p := blockElem t.role r c j; t.val p.1 p.2)
  let b := mxBlock fmt (vs.map (fun v => (v.sp, v.m, v.e, none)))
  (⟨b.elems, b.scale⟩, if b.nan then 32 else b.sats)

/-- Elements of a channel: a row for ROLE 0 and 2, a column for ROLE 1. -/
def channelVals (t : Tensor) (ch : Nat) : List Val :=
  if t.role = 1 then (List.range t.rows).map (fun r => t.val r ch) else (List.range t.cols).map (fun c => t.val ch c)

/-- Number of channels written: padded for ROLE 0 and 1. -/
def channelCount (role rows cols : Nat) : Nat := if role = 0 then ceil32 rows else if role = 1 then ceil32 cols else rows

/-- X of channel `ch`: the least that holds the largest magnitude among the channel's finite elements. That elements which are not finite
take no part is the model's reading (log entry 49). -/
def Tensor.channelX (t : Tensor) (w ch : Nat) : Int :=
  channelExp w (amax (((channelVals t ch).filter (fun v => v.sp == .finite)).map (fun v => (v.m, v.e))))

/-- Rows and columns of a tensor's elements. -/
def Tensor.cells (t : Tensor) : List (Nat × Nat) :=
  ((List.range t.rows).map (fun r => (List.range t.cols).map (fun c => (r, c)))).flatten

/-- QUANTIZE into a destination format (R359). -/
def quantize (t : Tensor) (fmt : Nat) : Converted :=
  if isMx fmt then
    let starts := t.cells.filter (fun p => (if t.role = 1 then p.1 else p.2) % 32 == 0)
    ⟨layout fmt t.role t.rows t.cols (fun _ _ => 0)
       (fun r c => if r < t.rows ∧ c < t.cols then (quantBlock t fmt r c).1 else ⟨List.replicate 32 0, 0⟩),
     (starts.map (fun p => (quantBlock t fmt p.1 p.2).2)).sum⟩
  else if isIntFmt fmt then
    let w := fmtWidth fmt
    let n := channelCount t.role t.rows t.cols
    let xs := (List.range n).map (t.channelX w)
    let q (r c : Nat) : Nat × Bool := quantInt w (xs[if t.role = 1 then c else r]?.getD (-127)) (t.val r c)
    let body := layout fmt t.role t.rows t.cols (fun r c => if r < t.rows ∧ c < t.cols then (q r c).1 else 0) (fun _ _ => ⟨[], 0⟩)
    ⟨body ++ List.replicate (ceil32 body.length - body.length) 0 ++ xs.map (fun X => BitVec.ofNat 8 (X + 127).toNat),
     (t.cells.filter (fun p => (q p.1 p.2).2)).length⟩
  else
    let q (r c : Nat) : Nat × Bool := quantFloat fmt (t.val r c)
    ⟨layout fmt t.role t.rows t.cols (fun r c => if r < t.rows ∧ c < t.cols then (q r c).1 else 0) (fun _ _ => ⟨[], 0⟩),
     (t.cells.filter (fun p => (q p.1 p.2).2)).length⟩

/-! ## Sections (R357, R358) -/

/-- CONVERT with its formats is one of R358's rows. -/
def Section.formatsOk (x : Section) : Bool :=
  if x.convert = 0 then x.dstFmt == 0 && x.role == 3 && pubKnown x.srcFmt
  else if x.convert = 1 then x.srcFmt ≤ 9 && x.dstFmt == x.srcFmt && x.role ≤ 2
  else if x.convert = 2 then
    (x.srcFmt == 10 || x.srcFmt == 9 || x.srcFmt == 8 || x.srcFmt == 6 || x.srcFmt == 7 || x.srcFmt == 0x10 || x.srcFmt == 0x11)
      && x.dstFmt ≤ 9 && x.role ≤ 2
  else false

/-- The size that R358 and R359 give a section's destination. -/
def Section.size (x : Section) : Nat :=
  if x.convert = 0 then x.rawLen
  else
    let n := layoutSize x.dstFmt x.role x.rows x.cols
    if x.convert = 2 && isIntFmt x.dstFmt then ceil32 n + channelCount x.role x.rows x.cols else n

/-- The bytes of a section after decompression; `none` where the stored bytes are malformed (R360). -/
def Section.raw (x : Section) (stored : List Byte) : Option (List Byte) :=
  let r := if x.codec = 0 then some stored else Zstd.decode stored
  r.bind (fun b => if b.length = x.rawLen then some b else none)

/-- The destination bytes of a section from its stored bytes (R358). -/
def Section.run (x : Section) (stored : List Byte) : Option Converted :=
  (x.raw stored).bind (fun b =>
    if x.convert = 0 then some ⟨b, 0⟩
    else if b.length ≠ pubSize x.srcFmt x.role x.rows x.cols then none
    else
      let t := Tensor.ofBytes x.srcFmt x.role x.rows x.cols b
      some (if x.convert = 1 then ⟨relayout t, 0⟩ else quantize t x.dstFmt))

/-! ## Export (R373) -/

/-- Byte and bit places of device layouts: the code of an element. -/
def layoutCode (fmt role rows cols : Nat) (dev : List Byte) (r c : Nat) : Nat :=
  let w := fmtWidth fmt
  let at' (byte bit : Nat) : Nat := fld (leNat ((dev.drop (byte + bit / 8)).take 6)) (bit % 8) w
  if role ≤ 1 then
    let (_, k) := stripDims role rows cols
    let s := if role = 1 then c / 32 else r / 32
    let i := if role = 1 then c % 32 else r % 32
    let j := if role = 1 then r else c
    if isMx fmt then
      let g := 128 * w + 32
      at' (s * (k / 32) * g + j / 32 * g + i * 4 * w) (j % 32 * w)
    else at' (s * k * 4 * w + j * 4 * w) (i * w)
  else if isMx fmt then
    let b := r * ceilDiv cols 32 + c / 32
    at' (b / 32 * (128 * w + 32) + b % 32 * 4 * w) (c % 32 * w)
  else at' 0 ((r * cols + c) * w)

/-- The scale byte of an element's block in device layout. -/
def layoutScale (fmt role rows cols : Nat) (dev : List Byte) (r c : Nat) : Nat :=
  let w := fmtWidth fmt
  let at' (byte : Nat) : Nat := ((dev[byte]?).getD 0).toNat
  if role ≤ 1 then
    let (_, k) := stripDims role rows cols
    let s := if role = 1 then c / 32 else r / 32
    let i := if role = 1 then c % 32 else r % 32
    let j := if role = 1 then r else c
    let g := 128 * w + 32
    at' (s * (k / 32) * g + j / 32 * g + 128 * w + i)
  else
    let b := r * ceilDiv cols 32 + c / 32
    let run := min 32 (rowBlocks rows cols - b / 32 * 32)
    at' (b / 32 * (128 * w + 32) + run * 4 * w + b % 32)

/-- The value of an element in device layout. -/
def layoutVal (fmt role rows cols : Nat) (dev : List Byte) (r c : Nat) : Val :=
  let v := decodeElem fmt (layoutCode fmt role rows cols dev r c)
  if isMx fmt then scaleVal v (layoutScale fmt role rows cols dev r c) else v

/-- One element exported to a publisher format without scales: what it can hold exactly, infinities among it, else rounded
under R90 or R91; NaN as in Table 3-12. -/
def exportElem (fmt : Nat) (v : Val) : Nat × Bool :=
  if fmt = 0 then (match v.sp with
    | .finite => toInteger 4 v.m v.e none | .posInf => (7, true) | .negInf => (8, true) | .nan => (0, true))
  else let r := drainElem fmt v.sp v.m v.e none; (r.1, r.2.1 || r.2.2)

/-- emax of an MX publisher format (R92, R373). -/
def pubEmax (fmt : Nat) : Int := if fmt = 0x10 then 8 else if fmt = 0x11 then 15 else 0

/-- One block exported to MXFP8 (R92 with the emax of R373): codes, scale, count. -/
def mxfp8Block (fmt : Nat) (vs : List Val) : LBlock × Nat :=
  if vs.any (fun v => v.sp != .finite) then (⟨vs.map (fun _ => 0), 255⟩, vs.length)
  else
    let a := amax (vs.map (fun v => (v.m, v.e)))
    let x0 := floorLog2 a.1.natAbs a.2 - pubEmax fmt
    let X : Int := if a.1 = 0 then -127 else max (-127) (min 127 x0)
    let es := vs.map (fun v => toFloat (pubElem fmt) v.m (v.e - X) none)
    let es := (es.zip vs).map (fun p => if p.1.1 = 0 ∧ p.2.m < 0 then (0x80, p.1.2) else p.1)
    (⟨es.map (·.1), (X + 127).toNat⟩, if a.1 != 0 && 127 < x0 then (es.filter (·.2)).length else 0)

/-- The block of an MX publisher format. -/
def exportBlock (fmt : Nat) (vs : List Val) : LBlock × Nat :=
  if fmt = 0x10 ∨ fmt = 0x11 then mxfp8Block fmt vs
  else
    let b := mxBlock fmt (vs.map (fun v => (v.sp, v.m, v.e, none)))
    (⟨b.elems, b.scale⟩, if b.nan then vs.length else b.sats)

/-- EXPORT of a tensor in device layout to a publisher format (R373). -/
def exportTensor (src dst role rows cols : Nat) (dev : List Byte) : Converted :=
  let val := layoutVal src role rows cols dev
  let w := pubWidth dst
  let pack (codes : List Nat) : List Byte := leBytes (ceilDiv (codes.length * w) 8) (packCodes w codes)
  if pubMx dst then
    let along := kAlongRows role
    let block (r c : Nat) : LBlock × Nat := exportBlock dst ((List.range 32).map (fun j =>
      let p := blockElem role r c j
      if p.1 < rows ∧ p.2 < cols then val p.1 p.2 else .fin 0 0))
    let base (r c : Nat) : Nat × Nat := if along then (r / 32 * 32, c) else (r, c / 32 * 32)
    let idx (r c : Nat) : Nat := if along then r % 32 else c % 32
    let codes := ((List.range rows).map (fun r => (List.range cols).map (fun c =>
      (((block (base r c).1 (base r c).2).1.codes)[idx r c]?).getD 0))).flatten
    let starts := if along then ((List.range (ceilDiv rows 32)).map (fun i => (List.range cols).map (fun c => (32 * i, c)))).flatten
      else ((List.range rows).map (fun r => (List.range (ceilDiv cols 32)).map (fun i => (r, 32 * i)))).flatten
    ⟨pack codes ++ starts.map (fun p => BitVec.ofNat 8 (block p.1 p.2).1.scale), (starts.map (fun p => (block p.1 p.2).2)).sum⟩
  else
    let es := ((List.range rows).map (fun r => (List.range cols).map (fun c => exportElem dst (val r c)))).flatten
    ⟨pack (es.map (·.1)), (es.filter (·.2)).length⟩

end Sys2Proof.Machine
end

