-- ==== Sys2Proof/Machine/Rings.lean ====
section
/-!
DEFINITION. Rings, doorbells, the taking of descriptors, events on the event ring, and the admin commands that create, delete
and reset rings (13_host_rings.md R329-R344).
-/

namespace Sys2Proof.Machine

/-- RID names a submission ring (Table 13-3). -/
def isSubRing (rid : Nat) : Bool := rid ≤ 65
/-- RID names a completion ring (Table 13-3). -/
def isComplRing (rid : Nat) : Bool := 128 ≤ rid && rid ≤ 255

/-- The descriptors owed to a completion ring (R337): taken from a submission ring that names it and not yet completed. -/
def State.owed (s : State) (cq : Nat) : Nat :=
  ((upto 66 (fun rid => (s.ring rid).live && s.cqOf rid == cq)).map (fun rid => (s.ring rid).taken.length)).sum
    + (s.ring cq).waiting.length

/-! ## CREATE_RING, DELETE_RING, RESET_RING -/

/-- The status with which CREATE_RING completes (R343; log entry 10 for the order of its checks). -/
def createRingStatus (d : Desc) (s : State) : Nat :=
  let rid := d.f 8 1
  let sub := isSubRing rid
  if !(d.zero 13 16 && d.zero 24 64) || d.f 9 1 < 4 || 16 < d.f 9 1 || (sub && (d.f 11 1 != 0 || d.f 12 1 != 0))
      || (!sub && d.f 10 1 != 0) then 0x11
  else if rid = 0 || rid == 128 || (66 < rid && rid < 128) || (s.ring rid).live
      || (sub && !(isComplRing (d.f 10 1) && (s.ring (d.f 10 1)).live)) then 0x12
  else if d.f 16 8 % 4096 ≠ 0 then 0x16
  else 0

/-- CREATE_RING (R343). SEQ numbers events from the creation of the event ring on (R334). -/
def createRing (d : Desc) (s : State) : State :=
  let st := createRingStatus d s
  let s := if st = 0 ∧ d.f 8 1 = 66 then { s with host := { s.host with evSeq := 0 } } else s
  let s := if st = 0 then
      s.setRing (d.f 8 1) { live := true, log2 := d.f 9 1, base := d.f 16 8, cq := d.f 10 1, vector := d.f 11 1, holdoff := d.f 12 1 }
    else s
  s.complete 0 d.cmdId st 0 0

/-- The status with which DELETE_RING completes (R344). -/
def deleteRingStatus (d : Desc) (s : State) : Nat :=
  let rid := d.f 8 1
  let r := s.ring rid
  if !(d.zero 9 64) then 0x11
  else if rid = 0 || rid == 128 || !r.live then 0x12
  else if (isSubRing rid && (r.head != r.tail || !r.taken.isEmpty))
      || (isComplRing rid && (s.owed rid != 0 || (upto 66 (fun q => (s.ring q).live && s.cqOf q == rid)).length != 0)) then 0x13
  else 0

/-- DELETE_RING (R344). The events a deleted event ring has not been given stand in the IOD queue. -/
def deleteRing (d : Desc) (s : State) : State :=
  let st := deleteRingStatus d s
  let s := if st = 0 then s.setRing (d.f 8 1) {} else s
  s.complete 0 d.cmdId st 0 0

/-- The status with which RESET_RING completes (R344); the reset's own completion, owed to ring 128, does not hold back a
reset of ring 128. -/
def resetRingStatus (d : Desc) (s : State) : Nat :=
  let rid := d.f 8 1
  let own := if rid = 128 ∧ d.cmdId ∈ (s.ring 0).taken then 1 else 0
  if !(d.zero 9 64) then 0x11
  else if !(s.ring rid).live then 0x12
  else if isComplRing rid && own < s.owed rid then 0x13
  else 0

/-- RESET_RING (R344): an empty, error-free ring; descriptors already taken still complete. -/
def resetRing (d : Desc) (s : State) : State :=
  let st := resetRingStatus d s
  let r := s.ring (d.f 8 1)
  let s := if st = 0 then s.setRing (d.f 8 1) { r with head := 0, tail := 0, phase := true, error := false } else s
  s.complete 0 d.cmdId st 0 0

/-! ## Doorbells (R335, R336) -/

/-- Whether a doorbell's index is valid on a ring (R336). -/
def Ring.bellOk (r : Ring) (sub : Bool) (index : Nat) : Bool :=
  let n := 2 ^ r.log2
  if sub then index < n && (r.tail + n - r.head) % n ≤ (index + n - r.head) % n
  else (index + n - r.head) % n ≤ (r.tail + n - r.head) % n && index < n

/-- A 32-bit host write of `v` to offset `off` of a ring's BAR2 page (R335, R336). -/
def doorbell (rid off v : Nat) (s : State) : State :=
  let barOff := rid * 0x1000 + off
  if off ≠ 0 then s.capture barOff reqHost 6 true
  else
    let r := s.ring rid
    if !r.live then s.capture barOff reqHost 7 true
    else if v < 2 ^ 16 && r.bellOk (isSubRing rid) v then
      (if isSubRing rid then s.setRing rid { r with tail := v } else s.setRing rid { r with head := v })
    else
      let s := ((s.setRing rid { r with error := true }).set32 Reg.hstStatus 2).capture barOff reqHost 7 true
      if rid = 66 then s
      else s.postEvent 0x0009 0xFF 8 (rid + s.r64 Reg.hstErrAddr * 2 ^ 64 + s.r32 Reg.hstErrInfo * 2 ^ 128)

/-! ## Taking (R337, R342) -/

/-- The opcodes of a submission ring (Tables 13-8, 14-7, 16-2, 17-9, 19-7; R387, R465, R470, R474, R475). -/
def opcodeKnown (rid op : Nat) : Bool :=
  if rid = 0 then
    (1 ≤ op && op ≤ 7) || (0x10 ≤ op && op ≤ 0x12) || (0x18 ≤ op && op ≤ 0x1C) || (0x20 ≤ op && op ≤ 0x23)
      || (0x30 ≤ op && op ≤ 0x33) || (0x38 ≤ op && op ≤ 0x3D)
  else if rid = 65 then op == 1 || op == 2
  else (1 ≤ op && op ≤ 8) || op == 0x20

/-- Whether the package is in Twilight (PWR_STATE, Table 16-8). -/
def State.inTwilight (s : State) : Bool := s.f32 Reg.pwrState 0 2 == 1

/-- A load of any kind: LOAD, PLACE_CHECK, ADAPTER_LOAD or BASE_LOAD (R368). -/
def isLoad (rid op : Nat) : Bool := if rid = 0 then op == 0x3A else rid ≤ 64 && (op == 1 || op == 2 || op == 4)

/-- A Dusk over the whole package is under way (R446). -/
def State.closing (s : State) : Bool := match s.power.dusk with
  | some x => (match x.target with | .reset dom _ _ _ => decide (3 < dom) | _ => true)
  | none => false

/-- Logical cores of a reset domain 1 to 3 (Table 17-1), by package number; domain 1 is a core slot, whose position the slot map
gives. -/
def State.scopeCores (s : State) (dom die cluster slot : Nat) : List Nat :=
  if dom = 3 then List.range 128
  else if dom = 2 then (List.range 16).map (fun c => 16 * die + c)
  else (List.range 4).filterMap (fun j => if s.f32 (Reg.cdSlotMap die cluster) (3 * j) 3 = slot then some (16 * die + 4 * cluster + j) else none)

/-- Stage 1 of a Dusk closes the ring (Table 17-6): every ring but the admin ring for the whole package, the command rings of the
partitions in the scope otherwise. -/
def State.closed (s : State) (rid : Nat) : Bool :=
  if rid = 0 then false
  else if s.closing then true
  else match s.power.dusk with
    | some x => (match x.target with
      | .reset dom die k slot => 1 ≤ rid && rid ≤ 64 && (s.scopeCores dom die k slot).any (fun g => bitAt (s.members (rid - 1)) g)
      | _ => false)
    | none => false

/-- A tenant switch is under way; a second one is taken after it (Table 18-8). -/
def State.switching (s : State) : Bool := match s.power.dusk with
  | some x => x.target == .tenant
  | none => false

/-- The descriptor may be taken from its ring now (R337, R345, R410): an untaken entry, ring and completion ring not in
ERROR, room for its completion, FENCE satisfied, not the 65th change set, not a fifth load. -/
def State.takeable (s : State) (rid : Nat) (d : Desc) : Bool :=
  let r := s.ring rid
  let cq := s.ring (s.cqOf rid)
  s.host.running && isSubRing rid && r.live && r.head != r.tail && !r.error && cq.live && !cq.error
    && s.owed (s.cqOf rid) < cq.freeSlots && (fld (d.f 1 1) 0 1 == 0 || r.taken.isEmpty)
    && !(rid == 0 && d.f 0 1 == 4 && 64 ≤ s.host.sets.length) && !(isLoad rid (d.f 0 1) && 4 ≤ s.loader.loads.length)
    && !(s.inTwilight && rid != 0) && !s.closed rid && !(s.switching && rid == 0 && d.f 0 1 == 0x20)

/-- The status with which the taking itself completes a descriptor (R331, R342, R410, R452), 0 where it is carried out. -/
def takeStatus (s : State) (rid : Nat) (d : Desc) : Nat :=
  let op := d.f 0 1
  if !(opcodeKnown rid op) then 0x10
  else if s.inTwilight && !(op == 0x11 || op == 0x12 || (0x30 ≤ op && op ≤ 0x33)) then 0x24
  else if 4 ≤ d.f 1 1 || (bitAt (d.f 1 1) 1 && !(rid == 0 && op == 4)) || !(d.zero 2 4) then 0x11
  else if (1 ≤ rid && rid ≤ 64 && bitAt (s.r32 (Reg.topPartJob (rid - 1))) 4)
      || (rid == 65 && op == 1 && d.f 8 1 < 64 && bitAt (s.r32 (Reg.topPartJob (d.f 8 1))) 4) then 0x66
  else 0

/-- DESCRIPTOR_TAKE: the ring's head passes the descriptor, which is outstanding from then on (R331). -/
def descriptorTake (rid : Nat) (d : Desc) (s : State) : State :=
  if s.takeable rid d then
    let r := s.ring rid
    let s := s.setRing rid { r with head := (r.head + 1) % 2 ^ r.log2, taken := r.taken ++ [d.cmdId] }
    let st := takeStatus s rid d
    if st = 0 then s else s.complete rid d.cmdId st 0 0
  else s

/-! ## The event ring (R333, R334) and hold-off (R340) -/

/-- The event ring has room for an entry and may be written. -/
def State.eventRoom (s : State) : Bool :=
  let r := s.ring 66
  s.host.running && r.live && !r.error && 0 < r.freeSlots

/-- One entry written at the tail of the event ring. -/
def State.putEvent (s : State) (e : EventRec) : State :=
  let r := s.ring 66
  ((s.emit (.hostWrite (r.base + 32 * r.tail) 32 (eventEntry e r.phase))).setRing 66 r.wrote).announce 66

/-- EVENT_WRITE: the first queued event is written; after a loss an EVENTS_LOST entry goes first (R334). -/
def eventWrite (s : State) : State :=
  if !s.eventRoom then s
  else if 0 < s.host.evLost then
    let e : EventRec := ⟨s.host.evLost, 0x000B, 0xFF, 8, s.host.evSeq⟩
    let s := s.count64 Reg.hstEvtCount 0 32 1
    ({ s with host := { s.host with evLost := 0, evSeq := (s.host.evSeq + 1) % 2 ^ 24 } }).putEvent e
  else match s.host.events with
    | [] => s
    | e :: t => ({ s with host := { s.host with events := t } }).putEvent e

/-- MSIX_HOLDOFF_EXPIRY: one message where entries were written since the last (R340). -/
def msixHoldoffExpiry (rid : Nat) (s : State) : State :=
  let r := s.ring rid
  if !r.heldOff then s
  else if r.unannounced then (s.setRing rid { r with unannounced := false }).sendVector r.vector
  else s.setRing rid { r with heldOff := false }

/-! ## Meanings -/

/-- CREATE_RING. -/
def execCreateRing (d : Desc) (s : State) : Host.Outcome State Fault Refusal := .next (createRing d s)
/-- DELETE_RING. -/
def execDeleteRing (d : Desc) (s : State) : Host.Outcome State Fault Refusal := .next (deleteRing d s)
/-- RESET_RING. -/
def execResetRing (d : Desc) (s : State) : Host.Outcome State Fault Refusal := .next (resetRing d s)
/-- DOORBELL. -/
def execDoorbell (rid : Fin 256) (off : Nat) (v : BitVec 32) (s : State) : Host.Outcome State Fault Refusal :=
  .next (doorbell rid off v.toNat s)
/-- DESCRIPTOR_TAKE. -/
def execDescriptorTake (rid : Fin 66) (d : Desc) (s : State) : Host.Outcome State Fault Refusal :=
  .next (descriptorTake rid d s)
/-- EVENT_WRITE. -/
def execEventWrite (s : State) : Host.Outcome State Fault Refusal := .next (eventWrite s)
/-- MSIX_HOLDOFF_EXPIRY. -/
def execMsixHoldoffExpiry (rid : Fin 256) (s : State) : Host.Outcome State Fault Refusal := .next (msixHoldoffExpiry rid s)

end Sys2Proof.Machine
end

