-- ==== Sys2Proof/Machine/HostIf.lean ====
section
/-!
DEFINITION. Starting and resetting the host interface (13_host_rings.md R349, R350, R354; 17_dawn_resets_recovery.md R436, R440)
and the ordinary network (R351-R353).
-/

namespace Sys2Proof.Machine

/-! ## Commands whose ring goes -/

/-- The state in which every outstanding command of rings that satisfy `p` is forgotten: nothing will complete it. -/
def State.forget (s : State) (p : Nat → Bool) : State :=
  let c (rid id : Nat) : Nat := if p rid then gone else id
  let parts := s.parts.map (fun e => (e.1, if p (e.1 + 1) then { e.2 with
    startCmd := e.2.startCmd.map (fun _ => gone), stopCmd := e.2.stopCmd.map (fun x => (gone, x.2)) } else e.2))
  let parts := parts.map (fun (e : Nat × PartState) => (e.1, { e.2 with fenceCmd := e.2.fenceCmd.map (c 0) }))
  let h := { s.host with
    sets := s.host.sets.map (fun x => { x with cmdId := c 0 x.cmdId })
    patches := s.host.patches.map (fun x => { x with cmdId := c x.rid x.cmdId }) }
  let l := { s.loader with
    loads := s.loader.loads.map (fun x => { x with cmdId := c x.rid x.cmdId })
    requests := if p 0 then [] else s.loader.requests
    unloads := s.loader.unloads.map (fun x => (x.1, x.2.1, c (x.1 + 1) x.2.2)) }
  let w := { s.power with
    dusk := s.power.dusk.map (fun x => { x with cmdId := c 0 x.cmdId })
    resets := s.power.resets.map (fun x => { x with cmdId := x.cmdId.map (c 0) })
    wakeCmd := s.power.wakeCmd.map (c 0) }
  let f := { s.sec with writing := s.sec.writing.map (fun x => x.map (c 0)) }
  let j := s.hour.jobs.map (fun (x : JobChange) => { x with cmdId := c 0 x.cmdId })
  { s with hour := { s.hour with jobs := j }, parts := parts, host := h, loader := l, power := w, sec := f }

/-- The state with the rings that satisfy `p` deleted. -/
def State.deleteRings (s : State) (p : Nat → Bool) : State :=
  { s with host := { s.host with rings := s.host.rings.filter (fun e => !p e.1) } }

/-- MSI-X state at its reset values (R349). -/
def State.resetMsix (s : State) : State :=
  let s := { s with host := { s.host with msixEnable := false, msixMask := false } }
  let s := (List.range 256).foldl (fun s v => (((s.w32 (Reg.msixEntry v) 0).w32 (Reg.msixEntry v + 4) 0).w32 (Reg.msixEntry v + 8) 0).w32
    (Reg.msixEntry v + 12) 1) s
  (List.range 8).foldl (fun s i => s.w32 (Reg.msixPba + 4 * i) 0) s

/-- The host-interface reset (R349): rings deleted, windows closed, RUNNING partitions stop at the next Hour, active requests
end. READY reads 0 until HOST_INTERFACE_READY. -/
def State.hostReset (s : State) : State :=
  let s := (s.forget (fun _ => true)).deleteRings (fun _ => true)
  let s := { s with host := { s.host with resetting := true, running := false, windows := [] },
                    serving := { s.serving with requests := [], past := [], parts := s.serving.parts.map (fun (e : Nat × Option Serve) =>
                      (e.1, e.2.map (fun (v : Serve) => { v with plan := none, records := [] }))) } }
  let s := (s.resetMsix.sf32 Reg.hstStatus 0 2 0).sf64 Reg.srvActive 0 13 0
  (List.range 64).foldl (fun s n => if s.pstate n = 3 then s.recordStop n 0x67 .release else s) s

/-- A reset of the endpoint: the registers of Table 13-11 but the error capture and the event counts go to reset as well
(log entry 18). -/
def State.endpointReset (s : State) : State :=
  let s := s.hostReset
  ((((s.w32 Reg.hstCtl 0).w32 Reg.hstStatus 0).w64 Reg.hstAdminSq 0).w64 Reg.hstAdminCq 0).w64 Reg.hstAperture 0

/-- Rings 0 and 128 start (R354), or FATAL is set where an admin register is not usable. -/
def State.startHost (s : State) : State :=
  let sq := s.r64 Reg.hstAdminSq
  let cq := s.r64 Reg.hstAdminCq
  let ok (x : Nat) : Bool := 4 ≤ x % 32 && x % 32 ≤ 16
  if ok sq && ok cq then
    let s := (s.setRing 0 { live := true, log2 := sq % 32, base := sq / 4096 * 4096, cq := 128 }).setRing 128
      { live := true, log2 := cq % 32, base := cq / 4096 * 4096 }
    ({ s with host := { s.host with running := true } }).sf32 Reg.hstStatus 0 2 1
  else s.sf32 Reg.hstStatus 0 2 2

/-- ENABLE: a write of HST_CTL with bit 0 `on` (R349, R354). -/
def enable (on : Bool) (s : State) : State :=
  let was := bitAt (s.r32 Reg.hstCtl) 0
  let s := s.sf32 Reg.hstCtl 0 1 (if on then 1 else 0)
  if on && !was then (if s.host.resetting then s else s.startHost)
  else if !on && was then s.hostReset
  else s

/-- HOST_INTERFACE_READY: the reset of the interface has ended (R349). -/
def hostInterfaceReady (s : State) : State :=
  if !s.host.resetting || !s.host.linkUp then s
  else
    let s := ({ s with host := { s.host with resetting := false } }).sf32 Reg.hstStatus 0 1 1
    if bitAt (s.r32 Reg.hstCtl) 0 then s.startHost else s

/-- The state with the PCIe link up or down. -/
def State.setLink (s : State) (up : Bool) : State := { s with host := { s.host with linkUp := up } }

/-- PERST_N: asserted; the link is held down until its release (R436). -/
def perstN (s : State) : State :=
  let s := { s with host := { s.host with perst := true } }
  (s.setLink false).endpointReset

/-- PCIE_LINK_UP: the link trains and comes up; PERST_N must be released (R436, R349). -/
def pcieLinkUp (s : State) : State := if s.host.perst then s else s.setLink true

/-- CONFIG_REQUEST: Request Retry Status from step 4 of Dawn until step 14 completes (R440). -/
def configRequest (s : State) : State :=
  let st := s.r32 Reg.dawnStatus
  if s.host.linkUp && fld st 28 2 != 2 then s.emit (.config (fld st 28 2 == 0 && 4 ≤ fld st 24 4)) else s

/-- VALID: a write of 1 to HST_ERR_INFO.VALID (R350). -/
def errValid (s : State) : State := ((s.sf32 Reg.hstErrInfo 31 1 0).sf32 Reg.hstErrInfo 30 1 0).sf32 Reg.hstErrInfo 16 8 0

/-! ## The ordinary network (R352, R353, R362) -/

/-- Ethernet port `p` works: it is not disabled by the Dawn configuration (Table 17-3) and the package is in Noon. -/
def State.netUp (s : State) (p : Nat) : Bool := fld s.config (8 * (104 + p)) 8 != 0xFF && !s.dawn.ethOut.contains p && s.inNoon

/-- First byte of the converter's own area of staging SRAM (R362). -/
def stagingOpen : Nat := 0x1C000000

/-- Device address of an offset of staging SRAM. -/
def stagingAddr (off : Nat) : Nat := 8 * 2 ^ 36 + off

/-- The status of a NET_ADDRESS (R353). -/
def netAddressStatus (d : Desc) : Nat :=
  let fam := d.f 9 1
  if 1 < d.f 8 1 || (fam != 4 && fam != 6) || (if fam = 4 then 32 else 128) < d.f 10 1 || (7 < d.f 11 1 && d.f 11 1 != 0xFF)
      || 4094 < d.f 12 2 || !(d.zero 14 16 && d.zero 32 64) || (fam == 4 && !d.zero 20 32) then 0x11 else 0

/-- NET_ADDRESS. -/
def netAddress (d : Desc) (s : State) : State :=
  let st := netAddressStatus d
  let k := 2 * d.f 8 1 + (if d.f 9 1 = 6 then 1 else 0)
  let s := if st = 0 then { s with host := { s.host with
      netAddrs := Tab.put (fun _ => none) s.host.netAddrs k (some ⟨d.f 10 1, d.f 11 1, d.f 12 2, d.f 16 16⟩) } } else s
  s.complete 0 d.cmdId st 0 0

/-- The status of a NET_WINDOW (R353, R362, R465). -/
def netWindowStatus (d : Desc) (s : State) : Nat :=
  let off := d.f 32 4
  let len := d.f 36 4
  if 1 < d.f 8 1 || 3 < d.f 9 1 || !(d.zero 13 16 && d.zero 40 64) || off % 4096 != 0 || len % 4096 != 0 || stagingOpen < off + len then 0x11
  else if bitAt s.sec.shadow.partRules 2 && bitAt (d.f 9 1) 1 then 0x48
  else if 64 ≤ s.host.windows.length then 0x22
  else 0

/-- NET_WINDOW: QPN and R_KEY are free values (log entry 4). -/
def netWindow (d : Desc) (s : State) : State :=
  let st := netWindowStatus d s
  if st ≠ 0 then s.complete 0 d.cmdId st 0 0
  else
    let qpn := s.freeNat 24
    let s := s.drawn
    let rkey := s.freeNat 32
    let s := s.drawn
    let w : NetWindow := ⟨d.f 8 1, d.f 9 1, d.f 10 3, d.f 16 16, d.f 32 4, d.f 36 4, qpn, rkey⟩
    ({ s with host := { s.host with windows := s.host.windows ++ [w] } }).complete 0 d.cmdId 0 (qpn + rkey * 2 ^ 32) 0

/-- NET_CLOSE. A request is one step of the model, so no accepted request is unfinished. A QPN that names no open window of
the port is out of range. -/
def netClose (d : Desc) (s : State) : State :=
  let hit (w : NetWindow) : Bool := w.port == d.f 8 1 && w.qpn == d.f 9 3
  if !(d.zero 12 64) || !s.host.windows.any hit then s.complete 0 d.cmdId 0x11 0 0
  else ({ s with host := { s.host with windows := s.host.windows.filter (fun w => !hit w) } }).complete 0 d.cmdId 0 0 0

/-- The window that an RDMA request reaches, and whether the request lies within its bounds and rights (R352). New requests are
refused in stage 1 of a Dusk over the package (R446). -/
def State.rdmaWindow (s : State) (port qpn peer rkey off len access : Nat) : Option NetWindow :=
  (s.host.windows.find? (fun w => w.port == port && w.qpn == qpn)).bind (fun w =>
    if w.peerQpn = peer ∧ w.rkey = rkey ∧ off + len ≤ w.length ∧ bitAt w.access access ∧ !s.closing then some w else none)

/-- A request outside its window's bounds or rights (R352). -/
def State.rdmaError (s : State) (port : Nat) : State := (s.count64 (Reg.iodNetCount port) 0 32 1).emit (.net port 1)

/-- RDMA_WRITE of bytes at an offset of a window. -/
def rdmaWrite (port qpn peer rkey off : Nat) (data : List Byte) (s : State) : State :=
  if !s.netUp port then s
  else match s.rdmaWindow port qpn peer rkey off data.length 0 with
    | none => s.rdmaError port
    | some w => (s.store (stagingAddr (w.offset + off)) data).emit (.net port 0)

/-- RDMA_READ of bytes at an offset of a window. -/
def rdmaRead (port qpn peer rkey off len : Nat) (s : State) : State :=
  if !s.netUp port then s
  else match s.rdmaWindow port qpn peer rkey off len 1 with
    | none => s.rdmaError port
    | some w => s.emit (.readData len (s.rdNat (stagingAddr (w.offset + off)) len))

/-- A reachability request of family slot `fam` (0 IPv4, 1 IPv6) for an address of the port, answered by the management cores
(Table 13-12). -/
def reach (port fam addr kind : Nat) (s : State) : State :=
  if !s.netUp port then s
  else match Tab.get (fun _ => none) s.host.netAddrs (2 * port + fam) with
    | some a => if a.address = addr then s.emit (.net port kind) else s
    | none => s

/-- UNSUPPORTED_FRAME. -/
def unsupportedFrame (port : Nat) (s : State) : State := if s.netUp port then s.count64 (Reg.iodNetCount port) 32 32 1 else s

/-! ## Meanings -/

/-- ENABLE. -/
def execEnable (on : Bool) (s : State) : Host.Outcome State Fault Refusal := .next (enable on s)
/-- HOST_INTERFACE_READY. -/
def execHostInterfaceReady (s : State) : Host.Outcome State Fault Refusal := .next (hostInterfaceReady s)
/-- VALID. -/
def execErrValid (s : State) : Host.Outcome State Fault Refusal := .next (errValid s)
/-- FUNCTION_LEVEL_RESET (R349). -/
def execFunctionLevelReset (s : State) : Host.Outcome State Fault Refusal := .next s.endpointReset
/-- HOT_RESET (R349): the link trains again. -/
def execHotReset (s : State) : Host.Outcome State Fault Refusal := .next (s.setLink false).endpointReset
/-- LINK_DISABLE (R349). -/
def execLinkDisable (s : State) : Host.Outcome State Fault Refusal := .next (s.setLink false).endpointReset
/-- LINK_DOWN (R349). -/
def execLinkDown (s : State) : Host.Outcome State Fault Refusal := .next (s.setLink false).endpointReset
/-- PERST_N. -/
def execPerstN (s : State) : Host.Outcome State Fault Refusal := .next (perstN s)
/-- PERST_N_RELEASE (R436). -/
def execPerstNRelease (s : State) : Host.Outcome State Fault Refusal := .next { s with host := { s.host with perst := false } }
/-- PCIE_LINK_UP. -/
def execPcieLinkUp (s : State) : Host.Outcome State Fault Refusal := .next (pcieLinkUp s)
/-- CONFIG_REQUEST. -/
def execConfigRequest (s : State) : Host.Outcome State Fault Refusal := .next (configRequest s)
/-- NET_ADDRESS. -/
def execNetAddress (d : Desc) (s : State) : Host.Outcome State Fault Refusal := .next (netAddress d s)
/-- NET_WINDOW. -/
def execNetWindow (d : Desc) (s : State) : Host.Outcome State Fault Refusal := .next (netWindow d s)
/-- NET_CLOSE. -/
def execNetClose (d : Desc) (s : State) : Host.Outcome State Fault Refusal := .next (netClose d s)
/-- RDMA_WRITE. -/
def execRdmaWrite (port : Fin 2) (qpn peer rkey off : Nat) (data : List Byte) (s : State) : Host.Outcome State Fault Refusal :=
  .next (rdmaWrite port qpn peer rkey off data s)
/-- RDMA_READ. -/
def execRdmaRead (port : Fin 2) (qpn peer rkey off len : Nat) (s : State) : Host.Outcome State Fault Refusal :=
  .next (rdmaRead port qpn peer rkey off len s)
/-- ARP. -/
def execArp (port : Fin 2) (addr : Nat) (s : State) : Host.Outcome State Fault Refusal := .next (reach port 0 addr 2 s)
/-- NEIGHBOUR_DISCOVERY. -/
def execNeighbourDiscovery (port : Fin 2) (addr : Nat) (s : State) : Host.Outcome State Fault Refusal := .next (reach port 1 addr 3 s)
/-- ECHO_REQUEST, of IPv4 or IPv6. -/
def execEchoRequest (port : Fin 2) (six : Bool) (addr : Nat) (s : State) : Host.Outcome State Fault Refusal :=
  .next (reach port (if six then 1 else 0) addr 4 s)
/-- UNSUPPORTED_FRAME. -/
def execUnsupportedFrame (port : Fin 2) (s : State) : Host.Outcome State Fault Refusal := .next (unsupportedFrame port s)

end Sys2Proof.Machine
end

