-- ==== Sys2Proof/Machine/Measure.lean ====
section
/-!
DEFINITION. Measurements and their snapshots (14_model_images_and_loading.md R375, 18_security.md R472 and R473).
-/

namespace Sys2Proof.Machine

/-- The 208 bytes of a load measurement (Table 14-9). -/
def Image.measurement (i : Image) : List Byte :=
  leBytes 1 i.kind ++ leBytes 1 i.part ++ leBytes 2 i.slot ++ leBytes 1 i.sigAlg ++ leBytes 1 i.dieMask ++ leBytes 2 0
    ++ leBytes 8 i.hour ++ i.keyFp ++ i.digest ++ i.program ++ i.content

/-- The program image of a partition. -/
def State.program (s : State) (n : Nat) : Option Image := s.loader.images.find? (fun i => i.kind == 0 && i.part == n)
/-- The base image on a die. -/
def State.base (s : State) (d : Nat) : Option Image := s.loader.images.find? (fun i => i.kind == 1 && bitAt i.dieMask d)
/-- The adapter image in a slot of a partition. -/
def State.adapter (s : State) (n slot : Nat) : Option Image :=
  s.loader.images.find? (fun i => i.kind == 2 && i.part == n && i.slot == slot)
/-- The adapter images of a partition in slot order. -/
def State.adapters (s : State) (n : Nat) : List Image := (List.range 256).filterMap (fun x => s.adapter n x)

/-- A firmware copy in the configuration flash (R469): as FIRMWARE_UPDATE wrote it, else as shipped. -/
def State.firmwareCopy (s : State) (t c : Nat) : Firmware :=
  match Tab.get (fun _ => none) s.sec.flash (2 * t + c) with
  | some f => f
  | none =>
    let x := (Config.firmware (2 * t + c)).toNat
    ⟨leBytes 48 x, fld x 384 64, fld x 448 8⟩

/-- The firmware copy that runs on a target. -/
def State.firmwareRuns (s : State) (t : Nat) : Firmware := s.firmwareCopy t (Tab.get (fun _ => 0) s.sec.running t)

/-- Digest, SVN and VERSION of running firmware: 60 bytes. -/
def State.firmwareBlock (s : State) (t : Nat) : List Byte :=
  let f := s.firmwareRuns t
  f.digest ++ leBytes 4 f.svn ++ leBytes 8 f.version

/-- Index 0x05: the fuse state, 32 bytes (the widths of its parts are log entry 27's). -/
def State.fuseBlock (s : State) : List Byte :=
  let f := s.sec.shadow
  leBytes 8 (s.r64 Reg.secProt) ++ leBytes 1 (if f.prodLock then 1 else 0) ++ leBytes 1 (if f.udsKill then 1 else 0)
    ++ leBytes 1 f.revoke ++ leBytes 1 f.svnMgmt ++ leBytes 1 f.svnDisp ++ leBytes 1 f.dieAbsent ++ leBytes 1 f.slotFailed.length
    ++ leBytes 1 f.moduleOos.length ++ leBytes 1 f.lanes.length ++ leBytes 15 0

/-- Measurement of an image, or zeros. -/
def measureOr (i : Option Image) : List Byte := match i with | some i => i.measurement | none => List.replicate 208 0

/-- The indices of Table 18-6. -/
def measureIndices : List Nat := [1, 2, 3, 4, 5, 6, 7, 8] ++ (List.range 72).map (· + 0x10)

/-- The measurement block of an index (Table 18-6), as things stand; `seq` is the snapshot's number. -/
def State.measureBlock (s : State) (seq i : Nat) : List Byte :=
  if i = 1 then leBytes 48 Config.romDigest.toNat
  else if i = 2 then s.firmwareBlock 0
  else if i = 3 then s.firmwareBlock 1
  else if i = 4 then leBytes 56 Config.meterRom.toNat
  else if i = 5 then s.fuseBlock
  else if i = 6 then ((List.range 16).map (fun k => (Tab.get (fun _ => none) s.sec.trust k).getD (List.replicate 48 0))).flatten
  else if i = 7 then leBytes 4 (s.r32 Reg.topId) ++ leBytes 8 Config.serial.toNat ++ sha384 (leBytes 4096 s.config) ++ leBytes 4 (s.r32 Reg.dawnSeq)
  else if i = 8 then leBytes 8 seq ++ leBytes 8 s.hourCount ++ leBytes 8 (s.r64 Reg.secTenant) ++ leBytes 1 (s.f32 Reg.secStatus 3 1)
  else if i < 0x50 then
    let n := i - 0x10
    let ads := s.adapters n
    measureOr (s.program n) ++ (if ads.isEmpty then List.replicate 48 0 else sha384 ((ads.map Image.measurement).flatten))
  else measureOr (s.base (i - 0x50))

/-- The state in which the security block has published a snapshot of every measurement (R473). -/
def State.publish (s : State) : State :=
  let seq := s.sec.snap.seq + 1
  let m : Measured := {
    seq := seq
    blocks := measureIndices.map (fun i => (i, s.measureBlock seq i))
    adapters := ((List.range 64).map (fun n => (s.adapters n).map (fun i => (n, i.slot, i.measurement)))).flatten }
  { s with sec := { s.sec with snap := m } }

end Sys2Proof.Machine
end

