-- ==== Sys2Proof/Machine/MlDsa.lean ====
section
/-!
DEFINITION. Verification of ML-DSA-65 signatures (R356, FIPS 204, pure mode, empty context string) with the SHAKE functions that it
uses (FIPS 202). Polynomials are lists of 256 coefficients modulo q.
-/

namespace Sys2Proof

/-! ## SHAKE -/

namespace Keccak

/-- Round constants, first half. -/
def rc0 : List W64 := [
  0x0000000000000001, 0x0000000000008082, 0x800000000000808A, 0x8000000080008000,
  0x000000000000808B, 0x0000000080000001, 0x8000000080008081, 0x8000000000008009,
  0x000000000000008A, 0x0000000000000088, 0x0000000080008009, 0x000000008000000A]

/-- Round constants, second half. -/
def rc1 : List W64 := [
  0x000000008000808B, 0x800000000000008B, 0x8000000000008089, 0x8000000000008003,
  0x8000000000008002, 0x8000000000000080, 0x000000000000800A, 0x800000008000000A,
  0x8000000080008081, 0x8000000000008080, 0x0000000080000001, 0x8000000080008008]

/-- Rotations of the lanes, lane x + 5 y at place x + 5 y. -/
def turns : List Nat := [0, 1, 62, 28, 27, 36, 44, 6, 55, 20, 3, 10, 43, 25, 39, 41, 45, 15, 21, 8, 18, 2, 61, 56, 14]

/-- The lane at a place. -/
def lane (a : List W64) (i : Nat) : W64 := (a[i]?).getD 0

/-- One round. -/
def round (a : List W64) (rc : W64) : List W64 :=
  let col := (List.range 5).map (fun x => lane a x ^^^ lane a (x + 5) ^^^ lane a (x + 10) ^^^ lane a (x + 15) ^^^ lane a (x + 20))
  let mix := (List.range 5).map (fun x => lane col ((x + 4) % 5) ^^^ (lane col ((x + 1) % 5)).rotateLeft 1)
  let turned := (List.range 25).map (fun i => (lane a i ^^^ lane mix (i % 5)).rotateLeft ((turns[i]?).getD 0))
  -- The lane that moves to x, y comes from x + 3 y, x.
  let moved := (List.range 25).map (fun i => lane turned ((i % 5 + 3 * (i / 5)) % 5 + 5 * (i % 5)))
  (List.range 25).map (fun i =>
    let y := i / 5 * 5
    let v := lane moved i ^^^ (~~~lane moved (y + (i + 1) % 5) &&& lane moved (y + (i + 2) % 5))
    if i = 0 then v ^^^ rc else v)

/-- The permutation of 24 rounds. -/
def permute (a : List W64) : List W64 := (rc0 ++ rc1).foldl round a

/-- The lanes of a byte string. -/
def lanesOf (b : List Byte) : List W64 := (List.range 25).map (fun i => BitVec.ofNat 64 (leNat ((b.drop (8 * i)).take 8)))

/-- The state after blocks of `rate` bytes. -/
def absorb (rate : Nat) : Nat → List Byte → List W64 → List W64
  | 0, _, a => a
  | n + 1, b, a => absorb rate n (b.drop rate) (permute ((a.zip (lanesOf (b.take rate))).map (fun p => p.1 ^^^ p.2)))

/-- `n` blocks of output. -/
def squeeze (rate : Nat) : Nat → List W64 → List Byte
  | 0, _ => []
  | n + 1, a => ((a.map (fun w => leBytes 8 w.toNat)).flatten).take rate ++ squeeze rate n (permute a)

/-- The first `n` bytes of SHAKE of a byte string; the rate is 168 bytes for SHAKE128 and 136 for SHAKE256. -/
def shake (rate n : Nat) (m : List Byte) : List Byte :=
  let z := rate - 1 - m.length % rate
  let p := if z = 0 then m ++ [0x9F] else m ++ [0x1F] ++ List.replicate (z - 1) 0 ++ [0x80]
  (squeeze rate (ceilDiv n rate) (absorb rate (p.length / rate) p (List.replicate 25 0))).take n

end Keccak

/-! ## ML-DSA-65 -/

namespace MlDsa

/-- The modulus. -/
def q : Nat := 8380417

/-- SHAKE256 of a byte string. -/
def hash (n : Nat) (m : List Byte) : List Byte := Keccak.shake 136 n m

/-- The powers of the 512th root of unity 1753. -/
def roots : List Nat := (List.range 511).foldl (fun l _ => l ++ [l.getLastD 1 * 1753 % q]) [1]

/-- Eight bits in reverse order. -/
def rev8 (n : Nat) : Nat := (List.range 8).foldl (fun r i => 2 * r + fld n i 1) 0

/-- The NTT of a polynomial: its value at each odd power of the root, in bit-reversed order. -/
def ntt (w : List Nat) : List Nat :=
  let r := roots
  (List.range 256).map (fun j =>
    let e := 2 * rev8 j + 1
    (w.zipIdx.map (fun p => p.1 * (r[e * p.2 % 512]?).getD 0)).sum % q)

/-- The inverse of the NTT; 8347681 is the inverse of 256. -/
def unNtt (w : List Nat) : List Nat :=
  let r := roots
  (List.range 256).map (fun i =>
    (w.zipIdx.map (fun p => p.1 * (r[(512 - (2 * rev8 p.2 + 1) * i % 512) % 512]?).getD 0)).sum % q * 8347681 % q)

/-- Sums and products of polynomials, place by place. -/
def add (a b : List Nat) : List Nat := (a.zip b).map (fun p => (p.1 + p.2) % q)
/-- The product of two polynomials under the NTT. -/
def mul (a b : List Nat) : List Nat := (a.zip b).map (fun p => p.1 * p.2 % q)
/-- The negative of a polynomial. -/
def neg (a : List Nat) : List Nat := a.map (fun x => (q - x) % q)

/-- Fields of `w` bits of a byte string. -/
def unpack (w : Nat) (b : List Byte) : List Nat := let n := leNat b; (List.range (8 * b.length / w)).map (fun i => fld n (w * i) w)

/-- The fields of `w` bits as bytes. -/
def pack (w : Nat) (l : List Nat) : List Byte := leBytes (l.length * w / 8) (l.foldr (fun x n => x + 2 ^ w * n) 0)

/-- The entry of A at row `r` and column `s` (RejNTTPoly). The stream is cut after 1,344 bytes, past the bound that FIPS 204 lets
an implementation set. -/
def entry (seed : List Byte) (r s : Nat) : List Nat :=
  (((unpack 24 (Keccak.shake 168 1344 (seed ++ [BitVec.ofNat 8 s, BitVec.ofNat 8 r]))).map (· % 2 ^ 23)).filter (fun z => z < q)).take 256

/-- The challenge polynomial (SampleInBall), from a stream cut after 272 bytes. -/
def challenge (seed : List Byte) : List Nat :=
  let b := hash 272 seed
  let signs := leNat (b.take 8)
  ((List.range 49).foldl (fun (acc : List Nat × List Byte) k =>
    let i := 207 + k
    let r := acc.2.dropWhile (fun x => decide (i < x.toNat))
    let j := (r.headD 0).toNat
    ((acc.1.set i ((acc.1[j]?).getD 0)).set j (if bitAt signs k then q - 1 else 1), r.drop 1)) (List.replicate 256 0, b.drop 8)).1

/-- The hint of a signature, by polynomial the coefficients it names; `none` where it is malformed. -/
def hints (y : List Byte) : Option (List (List Nat)) :=
  let v (i : Nat) : Nat := ((y[i]?).getD 0).toNat
  let start (i : Nat) : Nat := if i = 0 then 0 else v (54 + i)
  let rows := List.range 6
  let rising (l : List Nat) : Bool := (l.zip (l.drop 1)).all (fun p => decide (p.1 < p.2))
  let row (i : Nat) : List Nat := ((List.range (v (55 + i))).drop (start i)).map v
  if rows.all (fun i => decide (start i ≤ v (55 + i)) && decide (v (55 + i) ≤ 55) && rising (row i))
      && ((List.range 55).drop (v 60)).all (fun i => v i == 0) then some (rows.map row) else none

/-- The high part of a coefficient, corrected by its hint. -/
def useHint (h : Bool) (r : Nat) : Nat :=
  let low : Int := let x := r % 523776; if 261888 < x then (x : Int) - 523776 else x
  let (r1, r0) : Nat × Int := if (r : Int) - low = q - 1 then (0, low - 1) else (((r : Int) - low).toNat / 523776, low)
  if !h then r1 else if 0 < r0 then (r1 + 1) % 16 else (r1 + 15) % 16

/-- Verification of a signature over a message by a key. -/
def verify (key sig msg : List Byte) : Bool :=
  if key.length ≠ 1952 ∨ sig.length ≠ 3309 then false
  else
    let seed := key.take 32
    let t1 (i : Nat) : List Nat := unpack 10 ((key.drop (32 + 320 * i)).take 320)
    let tilde := sig.take 48
    let fields (i : Nat) : List Nat := unpack 20 ((sig.drop (48 + 640 * i)).take 640)
    match hints (sig.drop 3248) with
    | none => false
    | some h =>
      let inRange := (List.range 5).all (fun i => (fields i).all (fun f => decide (((2 ^ 19 : Int) - f).natAbs < 2 ^ 19 - 196)))
      let z := (List.range 5).map (fun i => ntt ((fields i).map (fun f => (q + 2 ^ 19 - f) % q)))
      let mu := hash 64 (hash 64 key ++ [0, 0] ++ msg)
      let c := ntt (challenge tilde)
      let w1 (i : Nat) : List Nat :=
        let az := (List.range 5).foldl (fun a j => add a (mul (entry seed i j) ((z[j]?).getD []))) (List.replicate 256 0)
        let w := unNtt (add az (neg (mul c (ntt ((t1 i).map (fun x => x * 2 ^ 13 % q))))))
        w.zipIdx.map (fun p => useHint (((h[i]?).getD []).contains p.2) p.1)
      inRange && hash 48 (mu ++ ((List.range 6).map (fun i => pack 4 (w1 i))).flatten) == tilde

end MlDsa

end Sys2Proof
end

