-- ==== Sys2Proof/Machine/Image.lean ====
section
/-!
DEFINITION. Images: the container, the checks of Table 14-5 that need no command, the placement dry run, and the destination of
a section (14_model_images_and_loading.md R355-R360, R364-R367, R375, R376).
-/

namespace Sys2Proof.Machine

/-! ## The container (R355, R356) -/

/-- `n` bytes of a byte string from byte `o` up, as a number. -/
def bytesF (b : List Byte) (o n : Nat) : Nat := leNat ((b.drop o).take n)
/-- `x` raised to a multiple of `a`. -/
def roundUp (x a : Nat) : Nat := ceilDiv x a * a
/-- KEY_LEN. -/
def imgKeyLen (b : List Byte) : Nat := bytesF b 8 4
/-- SIG_LEN. -/
def imgSigLen (b : List Byte) : Nat := bytesF b 12 4
/-- MANIFEST_LEN. -/
def imgManLen (b : List Byte) : Nat := bytesF b 16 4
/-- IMAGE_LEN. -/
def imgLen (b : List Byte) : Nat := bytesF b 24 8
/-- SIG_ALG. -/
def imgAlg (b : List Byte) : Nat := bytesF b 7 1
/-- First byte of the signature. -/
def imgSigAt (b : List Byte) : Nat := roundUp (64 + imgKeyLen b) 64
/-- First byte of the manifest. -/
def imgManAt (b : List Byte) : Nat := roundUp (imgSigAt b + imgSigLen b) 64
/-- First byte after the manifest. -/
def imgManEnd (b : List Byte) : Nat := imgManAt b + imgManLen b
/-- The publisher's key. -/
def imgKey (b : List Byte) : List Byte := (b.drop 64).take (imgKeyLen b)
/-- The signature. -/
def imgSig (b : List Byte) : List Byte := (b.drop (imgSigAt b)).take (imgSigLen b)
/-- The manifest. -/
def imgManifest (b : List Byte) : List Byte := (b.drop (imgManAt b)).take (imgManLen b)
/-- M, the signed message. -/
def imgMessage (b : List Byte) : List Byte := b.take 64 ++ imgManifest b

/-- The header is one that Table 14-1 allows for an image of a kind (step 2 of Table 14-5). The bytes at hand hold it. -/
def headerOk (kind : Nat) (b : List Byte) : Bool :=
  64 ≤ b.length && bytesF b 0 4 == 0x494E5645 && bytesF b 4 2 == 1 && bytesF b 6 1 == kind
    && ((imgAlg b == 1 && imgKeyLen b == 97 && imgSigLen b == 96) || (imgAlg b == 2 && imgKeyLen b == 1952 && imgSigLen b == 3309))
    && 256 < imgManLen b && (imgManLen b - 256) % 128 == 0 && bytesF b 20 4 == 0 && bytesF b 32 32 == 0 && imgManEnd b ≤ imgLen b

/-- The pad bytes between header, key, signature and manifest are 0 (R355). -/
def padsOk (b : List Byte) : Bool :=
  bytesF b (64 + imgKeyLen b) (imgSigAt b - (64 + imgKeyLen b)) == 0
    && bytesF b (imgSigAt b + imgSigLen b) (imgManAt b - (imgSigAt b + imgSigLen b)) == 0

/-- The image's signature verifies under the key it carries (R356). -/
def signatureOk (b : List Byte) : Bool :=
  if imgAlg b = 1 then ecdsaVerify (imgKey b) (imgSig b) (imgMessage b) else MlDsa.verify (imgKey b) (imgSig b) (imgMessage b)

/-- A section entry from its 128 bytes (Table 14-3). -/
def sectionOf (e : List Byte) : Section :=
  { type := bytesF e 0 1, convert := bytesF e 1 1, codec := bytesF e 2 1, srcFmt := bytesF e 3 1, dstFmt := bytesF e 4 1,
    role := bytesF e 5 1, level := bytesF e 6 1, buf := bytesF e 7 1, srcLen := bytesF e 8 8, rawLen := bytesF e 16 8,
    rows := bytesF e 24 8, cols := bytesF e 32 8, lc := bytesF e 40 2, engine := bytesF e 42 1, off := bytesF e 48 8,
    dstLen := bytesF e 56 8, digest := (e.drop 64).take 48 }

/-- The sections of an image, each with the byte of the image at which it starts (R355). -/
def imgSections (b : List Byte) : List (Section × Nat) :=
  let m := imgManifest b
  ((List.range ((imgManLen b - 256) / 128)).foldl (fun (acc : List (Section × Nat) × Nat) i =>
    let x := sectionOf ((m.drop (256 + 128 * i)).take 128)
    let at' := roundUp acc.2 4096
    (acc.1 ++ [(x, at')], at' + x.srcLen)) ([], imgManEnd b)).1

/-- Manifest byte field. -/
def manF (b : List Byte) (o n : Nat) : Nat := bytesF (imgManifest b) o n

/-! ## Step 4: manifest and section entries -/

/-- The fixed part of the manifest is in range for a kind (Table 14-2). -/
def manifestOk (kind : Nat) (b : List Byte) : Bool :=
  let program := kind == 0
  let lcs := manF b 8 2
  let secs := manF b 10 2
  let rank := manF b 14 1
  manF b 2 1 == 1 && (if program then 12 ≤ manF b 4 1 && manF b 4 1 ≤ 24 else manF b 4 2 == 0) && manF b 6 1 < 2 && manF b 7 1 == 0
    && (if program then 1 ≤ lcs && lcs ≤ 128 else lcs == 0) && 1 ≤ secs && secs ≤ 4096 && imgManLen b == 256 + 128 * secs
    && (if program then manF b 12 2 ≤ 256 else manF b 12 2 == 0) && rank ≤ 64 && manF b 15 1 == 0
    && manF b 64 8 % 4096 == 0 && manF b 72 8 % 4096 == 0 && bytesF (imgManifest b) 80 176 == 0

/-- A section type that an image of a kind may hold. -/
def typeFits (kind type : Nat) : Bool :=
  match kind with
  | 0 => type == 0 || type == 1 || type == 3
  | 1 => type == 1
  | 2 => type == 2
  | _ => type == 4

/-- A section entry is in range (R357, R358). `lcs` bounds its LC. -/
def sectionOk (kind lcs len : Nat) (e : List Byte) (x : Section) (at' : Nat) : Bool :=
  typeFits kind x.type && bytesF e 43 5 == 0 && bytesF e 112 16 == 0 && x.codec ≤ 1 && (x.codec == 1 || x.rawLen == x.srcLen)
    && x.level ≤ 3 && x.buf ≤ 1 && x.engine ≤ 63 && x.lc < lcs && x.formatsOk && (x.role != 3 || (x.rows == 0 && x.cols == 0))
    && (x.type == 3 || x.dstLen == x.size) && at' + x.srcLen ≤ len
    && (x.type != 0 || (x.convert == 0 && x.level == 0))
    && (kind != 1 || x.level == 3) && (kind != 2 || x.level == 0)

/-- The number of the first section that fails step 4; `none` where all pass and no core has two streams. -/
def badSection (kind : Nat) (b : List Byte) : Option Nat :=
  let lcs := if kind = 0 then manF b 8 2 else 128
  let l := imgSections b
  (List.range l.length).find? (fun i =>
    match l[i]? with
    | none => true
    | some (x, at') =>
      !(sectionOk kind lcs (imgLen b) (((imgManifest b).drop (256 + 128 * i)).take 128) x at')
        || (x.type == 0 && ((l.take i).any (fun y => y.1.type == 0 && y.1.lc == x.lc))))

/-! ## Destinations (R170, R370, R371) -/

/-- The package logical core that a section's LC names: a core of the partition, or for a base a core of the package. -/
def State.sectionCore (s : State) (kind n : Nat) (x : Section) : Option Nat :=
  if kind = 1 then (if x.lc < 128 then some x.lc else none) else s.coreOf n x.lc

/-- The device address of a section's first byte for core `g`; `slotAt` is the offset of the adapter slot. -/
def State.sectionBase (s : State) (n slotAt g : Nat) (x : Section) : Nat :=
  levelAddr x.level g x.engine x.buf (s.levelBase n (g / 16) x.level + slotAt + x.off)

/-! ## Placement (R366, R367) -/

/-- Bytes below offset `x` of a die's shared memory that lie in hole `h`: a macro, numbered slice, eighth and bank (R179). -/
def holeBelow (h x : Nat) : Nat :=
  let first := h / 32 * 2 ^ 25
  let y := min (x - first) (2 ^ 25)
  y / 1024 * 32 + min (y % 1024 - h % 32 * 32) 32

/-- Bytes of the holes of die `d` that offsets `a` to `b - 1` of its shared memory cover. -/
def State.holeBytes (s : State) (d a b : Nat) : Nat := ((s.die d).holes.map (fun h => holeBelow h b - holeBelow h a)).sum

/-- The extents that an image places on die `d` at level `l`: first offset in the range and end (R366). -/
def State.extentsOn (s : State) (kind n : Nat) (b : List Byte) (d l : Nat) : List (Nat × Nat) :=
  let secs := (imgSections b).filterMap (fun p =>
    let x := p.1
    match s.sectionCore kind n x with
    | some g => if x.type ≠ 3 ∧ g / 16 = d ∧ x.level = l then some (x.off, roundUp (x.off + x.dstLen) 32) else none
    | none => none)
  let slots := manF b 12 2
  if kind = 0 ∧ l = 0 ∧ 0 < slots ∧ s.hasCoreOn n d then secs ++ [(manF b 64 8, manF b 64 8 + slots * manF b 72 8)] else secs

/-- The image places something on die `d`. -/
def State.placesOn (s : State) (kind n : Nat) (b : List Byte) (d : Nat) : Bool :=
  (List.range 4).any (fun l => !(s.extentsOn kind n b d l).isEmpty)

/-- BUDGET of a level (Table 14-6). -/
def State.budget (s : State) (n d l : Nat) : Nat :=
  match l with
  | 0 => s.levelBound n d 0 - s.f64 (Reg.cdPbbShm d n) 32 13 * 2 ^ 20
  | 1 => s.levelBound n d 1
  | 2 => s.levelBound n d 2
  | 3 => s.levelBound n d 3
  | 4 => s.f64 (Reg.cdFlagwin d n) 8 9
  | 5 => s.f64 (Reg.cdFlagwin d n) 40 9
  | _ => (upto 256 (fun t => let v := s.r32 (Reg.fabMcast d t + 28); !bitAt v 31 || fld v 25 6 == n)).length

/-- NEED, BUDGET, SHORT and HOLES of die `d` and level `l` (R366). An adapter's image is measured against its slot (R371), and a
base's on the dies of `mask`, in their common ranges (R370). -/
def State.dryEntry (s : State) (kind n slotSize : Nat) (b : List Byte) (d l : Nat) (mask : Nat := 255) : Nat × Nat × Nat × Nat :=
  if !s.placesOn kind n b d || 6 < l || !bitAt mask d || (kind == 1 && l != 3) then (0, 0, 0, 0)
  else if kind = 2 then
    if l ≠ 0 then (0, 0, 0, 0)
    else
      let need := (s.extentsOn kind n b d 0).foldl (fun m x => max m x.2) 0
      (need, slotSize, need - slotSize, 0)
  else
    let xs := if l < 4 then s.extentsOn kind n b d l else []
    let need := xs.foldl (fun m x => max m x.2) 0
    let base := s.levelBase n d 0
    let holes := if l = 0 then (xs.map (fun x => s.holeBytes d (base + x.1) (base + x.2))).sum
      else if l = 3 then let c := s.levelBase n d 3; (xs.map (fun x => s.holeBytes d (c + x.1) (c + x.2))).sum else 0
    (need, s.budget n d l, need - s.budget n d l + holes, holes)

/-- The first die with a shortfall. -/
def State.shortDie (s : State) (kind n slotSize : Nat) (b : List Byte) (mask : Nat := 255) : Option Nat :=
  (List.range 8).find? (fun d => (List.range 7).any (fun l => (s.dryEntry kind n slotSize b d l mask).2.2.1 != 0))

/-- The report of 2,048 bytes (R367). -/
def State.dryReport (s : State) (kind n slotSize : Nat) (b : List Byte) (mask : Nat := 255) : Nat :=
  leNat (((List.range 8).map (fun d => ((List.range 8).map (fun l =>
    let e := s.dryEntry kind n slotSize b d l mask
    leBytes 8 e.1 ++ leBytes 8 e.2.1 ++ leBytes 8 e.2.2.1 ++ leBytes 8 e.2.2.2)).flatten)).flatten)

/-! ## Sections as they arrive (steps 7 and 8) -/

/-- The stored bytes of a section. -/
def imgStored (b : List Byte) (p : Section × Nat) : List Byte := (b.drop p.2).take p.1.srcLen

/-- The 256-byte cards that bytes spell. -/
def cardsOf (b : List Byte) : List Nat := (List.range (b.length / 256)).map (fun i => bytesF b (256 * i) 256)

/-- The bytes of cards. -/
def cardBytes (l : List Nat) : List Byte := (l.map (leBytes 256)).flatten

/-- A stream lies where R183 allows: whole cards, 1 to 2^24 of them, from a BASE that CORE_STREAM can hold, within its partition's
range on its die and below the KV reserve (R184). -/
def State.streamPlaced (s : State) (n : Nat) (x : Section) : Bool :=
  x.off % 256 == 0 && x.dstLen % 256 == 0 && 1 ≤ x.dstLen && x.dstLen ≤ 2 ^ 32
    && ((s.coreOf n x.lc).map (fun g => decide (x.off + x.dstLen ≤ s.budget n (g / 16) 0))).getD false

/-- An entry of a placement record: a section entry for another core count, which names a section of the same image. -/
def placementOk (secs : List Section) (e : List Byte) : Bool :=
  let x := sectionOf e
  sectionOk 0 128 (2 ^ 64) e x 0 && secs.any (fun y => y.digest == x.digest && y.srcLen == x.srcLen)

/-- The bytes of a placement record: whole entries, each of them right (R357). -/
def placementBytesOk (secs : List Section) (b : List Byte) : Bool :=
  !b.isEmpty && b.length % 128 == 0 && (List.range (b.length / 128)).all (fun i => placementOk secs ((b.drop (128 * i)).take 128))

/-- The pad bytes before each section, and after the last one, are 0 (R355). -/
def gapsOk (b : List Byte) : Bool :=
  let l := imgSections b
  let starts := l.map (·.2) ++ [imgLen b]
  let ends := imgManEnd b :: l.map (fun p => p.2 + p.1.srcLen)
  (ends.zip starts).all (fun g => ((b.drop g.1).take (g.2 - g.1)).all (· == 0))

/-- The status with which a section fails step 7, if it does. -/
def State.sectionStatus (s : State) (n : Nat) (b : List Byte) (p : Section × Nat) : Option Nat :=
  let stored := imgStored b p
  if sha384 stored ≠ p.1.digest then some 0x47
  else match p.1.run stored with
    | none => some 0x46
    | some c =>
      if p.1.type = 0 then (if s.streamPlaced n p.1 && s.streamOk n p.1.lc (manF b 5 1) (cardsOf c.bytes) then none else some 0x41)
      else if p.1.type = 3 then (if placementBytesOk ((imgSections b).map (·.1)) c.bytes then none else some 0x46)
      else if c.bytes.length = p.1.dstLen then none else some 0x46

/-- Destination bytes of a section that has passed step 7, with its count of saturated and NaN elements; a stream's cards are
relocated. `none` where a card's INDEX lies past its window (step 8). -/
def State.sectionBytes (s : State) (n : Nat) (b : List Byte) (p : Section × Nat) : Option (List Byte × Nat) :=
  (p.1.run (imgStored b p)).bind (fun c =>
    if p.1.type = 0 then ((cardsOf c.bytes).mapM (s.relocCard n)).map (fun l => (cardBytes l, c.bad))
    else some (c.bytes, c.bad))

/-- The pieces of a run of bytes by 64 KiB unit of the device address: unit and bytes. -/
def unitPieces (base : Nat) (bs : List Byte) : List (Nat × List Byte) :=
  (List.range ((base + bs.length) / 65536 + 1 - base / 65536)).filterMap (fun i =>
    let u := base / 65536 + i
    let lo := max base (u * 65536)
    let hi := min (base + bs.length) ((u + 1) * 65536)
    if lo < hi then some (u, (bs.drop (lo - base)).take (hi - lo)) else none)

/-- Key of a section's piece in a unit. -/
def pieceKey (sec unit : Nat) : Nat := sec * 2 ^ 24 + unit

end Sys2Proof.Machine
end

