-- ==== Sys2Proof/Machine/Loader.lean ====
section
/-!
DEFINITION. The loader: trust table, loads, bases, adapters, start and stop of a partition, export and image repair
(14_model_images_and_loading.md R361-R377; 18_security.md R465, R470, R481).
-/

namespace Sys2Proof.Machine

/-! ## Loads in progress -/

/-- The command is a load of R368, not a firmware update or image repair that reads a feed. -/
def Load.counts (l : Load) : Bool := isLoad l.rid (l.desc.f 0 1)
/-- Partition of a load. -/
def Load.part (l : Load) : Nat := l.rid - 1
/-- OPCODE of a load. -/
def Load.op (l : Load) : Nat := l.desc.f 0 1
/-- KIND of the image that a load reads. -/
def Load.kind (l : Load) : Nat := if l.rid = 0 then (if l.op = 0x3A then 1 else 3) else if l.op = 4 then 2 else 0
/-- The dies on which a load may place something: for a base those of its DIE_MASK (R370). -/
def Load.mask (l : Load) : Nat := if l.kind = 1 then l.desc.f 40 1 else 255
/-- Adapter slot of a load. -/
def Load.slot (l : Load) : Nat := l.desc.f 40 2
/-- Offset of the adapter slot in the partition's range, and its size. -/
def State.slotAt (s : State) (n slot : Nat) : Nat × Nat :=
  match s.program n with | some p => (p.slotBase + slot * p.slotSize, p.slotSize) | none => (0, 0)

/-- The state with the list of loads set, and ACTIVE with it (Table 14-10). -/
def State.setLoads (s : State) (l : List Load) : State :=
  ({ s with loader := { s.loader with loads := l } }).sf32 Reg.ldrStatus 0 3 (l.filter Load.counts).length

/-- A LOAD of partition `n` is in progress: its registers are closed as if it were LOADED (R369). -/
def State.loading (s : State) (n : Nat) : Bool := s.loader.loads.any (fun l => l.counts && l.rid == n + 1 && l.op == 2)

/-- Partition `n` is LOADED or RUNNING, or a LOAD of it is in progress (R56, R169, R217, R369). -/
def State.locked (s : State) (n : Nat) : Bool := s.loadedOrRunning n || s.loading n

/-- The state with a load replaced. -/
def State.putLoad (s : State) (l : Load) : State :=
  s.setLoads (s.loader.loads.map (fun x => if x.rid = l.rid ∧ x.desc = l.desc then l else x))

/-- RESULT1 of a failed load (R372). -/
def failAt (step sec die : Nat) : Nat := step + sec * 2 ^ 8 + die * 2 ^ 24

/-- The state after a load has ended. -/
def State.endLoad (s : State) (l : Load) (status r0 r1 : Nat) : State :=
  let s := s.setLoads (s.loader.loads.filter (fun x => !(x.rid == l.rid && x.desc == l.desc)))
  let s := if status ≠ 0 ∧ l.counts then s.count64 Reg.ldrCount 0 8 1 else s
  s.complete l.rid l.cmdId status r0 r1

/-- The state in which bytes of an image have been consumed (Table 14-11). -/
def State.consumed (s : State) (k : Nat) : State :=
  let s := { s with loader := { s.loader with bytesIn := s.loader.bytesIn + k } }
  s.sf64 Reg.ldrCount 24 40 (min (s.loader.bytesIn / 2 ^ 20) (2 ^ 40 - 1))

/-! ## Steps 3, 5 and 6 -/

/-- The status with which step 3 fails, if it does (R356, R364, R465). -/
def State.step3 (s : State) (kind : Nat) (b : List Byte) : Option Nat :=
  let rules := s.sec.shadow.partRules
  let fp := sha384 (imgKey b)
  if !(s.sec.trust.any (fun e => e.2 == some fp)) then some 0x40
  else if (kind == 1 && bitAt rules 3) || (kind == 2 && bitAt rules 4) || (imgAlg b == 1 && bitAt rules 5) then some 0x48
  else if signatureOk b then none else some 0x40

/-- Step 5: the status and the section with which it fails, if it does. -/
def State.step5 (s : State) (kind n : Nat) (b : List Byte) : Option (Nat × Nat) :=
  let ref := ((imgManifest b).drop 16).take 48
  let id := s.r32 Reg.topId
  if manF b 1 1 ≠ fld id 8 8 ∨ fld id 0 8 < manF b 0 1 then some (0x42, 0xFFFF)
  else if manF b 3 1 ≠ fld id 24 8 then some (0x43, 0xFFFF)
  else if kind = 0 ∧ manF b 4 1 ≠ s.f32 Reg.topHourCtl 0 5 then some (0x44, 0xFFFF)
  else if kind = 0 ∧ manF b 5 1 < 40 then some (0x45, 0xFFFF)
  else if kind = 0 then
    let l := imgSections b
    ((List.range l.length).find? (fun i =>
      match l[i]? with
      | some (x, _) => x.level == 3 && (match s.coreOf n x.lc with
          | some g => !((s.base (g / 16)).any (fun y => y.digest == ref))
          | none => false)
      | none => false)).map (fun i => (0x47, i))
  else if kind = 2 then
    match s.program n with
    | none => some (0x47, 0xFFFF)
    | some p => if p.digest ≠ ref then some (0x47, 0xFFFF) else if p.rank < manF b 14 1 then some (0x46, 0xFFFF) else none
  else none

/-- Every LC of an image's sections names a core that the partition has; a program's LC_COUNT does not exceed its cores. -/
def State.coresFit (s : State) (kind n : Nat) (b : List Byte) : Bool :=
  (kind != 0 || manF b 8 2 ≤ (s.lcs n).length) && (imgSections b).all (fun p => p.1.type == 3 || (s.sectionCore kind n p.1).isSome)

/-- The first logical core of a program whose place no slot serves (R31): a placement that uses it is refused as one that does not
fit, the spec naming no status (DESIGN CHOICE, log entry 51). -/
def State.unserved (s : State) (kind n : Nat) (b : List Byte) : Option Nat :=
  if kind = 0 then ((s.lcs n).take (manF b 8 2)).find? (fun g => (s.core g).fenced) else none

/-- Steps 3 to 6 before the report: status, step, section and die of the first failure. -/
def State.preChecks (s : State) (l : Load) (b : List Byte) : Option (Nat × Nat × Nat × Nat) :=
  let kind := l.kind
  let n := l.part
  let size := (s.slotAt n l.slot).2
  if !padsOk b then some (0x46, 2, 0xFFFF, 0xFF)
  else match s.step3 kind b with
    | some st => some (st, 3, 0xFFFF, 0xFF)
    | none =>
      if !manifestOk kind b then some (0x46, 4, 0xFFFF, 0xFF)
      else match badSection kind b with
        | some i => some (0x46, 4, i, 0xFF)
        | none => match s.step5 kind n b with
          | some (st, i) => some (st, 5, i, 0xFF)
          | none => match s.shortDie kind n size b l.mask with
            | some d => some (0x23, 6, 0xFFFF, d)
            | none => match s.unserved kind n b with
              | some g => some (0x23, 6, 0xFFFF, g / 16)
              | none => if s.coresFit kind n b then none else some (0x23, 6, 0xFFFF, 0xFF)

/-! ## Multicast trees and groups (R211, R246, R272) -/

/-- The nodes of the row-first path from node `a` to node `b`, each with the bit of the link that leaves it (log entry 28). -/
def rowFirst : Nat → Nat × Nat → Nat × Nat → List (Nat × Nat)
  | 0, _, _ => []
  | k + 1, a, b =>
    if a.2 < b.2 then (6 * a.1 + a.2, 1) :: rowFirst k (a.1, a.2 + 1) b
    else if b.2 < a.2 then (6 * a.1 + a.2, 3) :: rowFirst k (a.1, a.2 - 1) b
    else if a.1 < b.1 then (6 * a.1 + a.2, 2) :: rowFirst k (a.1 + 1, a.2) b
    else if b.1 < a.1 then (6 * a.1 + a.2, 0) :: rowFirst k (a.1 - 1, a.2) b
    else [(6 * a.1 + a.2, 4)]

/-- MASKS of the tree from a node to the die-local cores of a set. -/
def treeMasks (node : Nat × Nat) (targets : Nat) : Nat :=
  (upto 16 (fun c => bitAt targets c)).foldl (fun m c =>
    (rowFirst 12 node (coreNode c)).foldl (fun m x => setBit m (5 * x.1 + x.2)) m) 0

/-- The source nodes of a relocated MULTICAST card's items; `none` where an item spans two slices (R246). -/
def multicastNodes (g card : Nat) : Option (List (Nat × Nat)) :=
  let desc := cardDesc card 0
  if descLevel desc = 1 then some [coreNode (descLc desc % 16)]
  else
    let slice (x : Nat) : Nat := x % 2 ^ 32 / 2 ^ 28
    let e := descExtent card 0
    if slice e.1.toNat = slice (e.2.toNat - 1) then some [sliceNode (slice e.1.toNat)]
    else
      (List.range (cardIters card)).foldl (fun acc n => acc.bind (fun l =>
        let xs := ((List.range (descRun desc)).map (fun b => slice (itemAddr card 0 n (g, 0) b))).eraseDups
        match xs with
        | [x] => some (if l.contains (sliceNode x) then l else l ++ [sliceNode x])
        | _ => none)) (some [])

/-- The multicast entries that the streams of a partition need: die, source node and targets; `streams` holds package logical
cores and relocated cards. `none` where a card is refused (R246). -/
def State.multicastNeeds (s : State) (n : Nat) (streams : List (Nat × List Nat)) : Option (List (Nat × (Nat × Nat) × Nat)) :=
  streams.foldl (fun acc p => p.2.foldl (fun acc c => acc.bind (fun l =>
    if cardOp c ≠ 4 then some l
    else
      let d := p.1 / 16
      let targets := fld (bodyF (s.resolveTargets n c) 0 128) (16 * d) 16
      if targets = 0 then some l
      else (multicastNodes p.1 c).map (fun nodes => nodes.foldl (fun l x =>
        if l.contains (d, x, targets) then l else l ++ [(d, x, targets)]) l))) acc) (some [])

/-- The state with the multicast entries of partition `n` built: its old entries go, and the new ones take free entries in
ascending order; `none` where a die's 256 entries cannot hold them. -/
def State.buildMulticast (s : State) (n : Nat) (needs : List (Nat × (Nat × Nat) × Nat)) : Option State :=
  let s := (List.range 8).foldl (fun s d => (List.range 256).foldl (fun s t =>
    let v := s.r32 (Reg.fabMcast d t + 28)
    if bitAt v 31 && fld v 25 6 == n then s.wWide (Reg.fabMcast d t) 8 0 else s) s) s
  needs.foldl (fun acc x => acc.bind (fun s =>
    ((List.range 256).find? (fun t => !bitAt (s.r32 (Reg.fabMcast x.1 t + 28)) 31)).map (fun t =>
      s.wWide (Reg.fabMcast x.1 t) 8 (2 ^ 255 + n * 2 ^ 249 + (6 * x.2.1.1 + x.2.1.2) * 2 ^ 243 + x.2.2 * 2 ^ 227
        + treeMasks x.2.1 x.2.2)))) (some s)

/-- The packages of a partition's job, ascending, with the peer-table entry of each other one (R318, R449). -/
def State.jobPackages (s : State) (n : Nat) : List (Nat × Nat) :=
  let self := s.f64 Reg.rteSelf 0 12
  let others := (List.range 1024).foldl (fun (l : List (Nat × Nat)) e =>
    let v := s.r32 (Reg.rtePeer n e)
    if bitAt v 31 && fld v 0 12 != self && !(l.any (fun x => x.1 == fld v 0 12)) then l ++ [(fld v 0 12, e)] else l) []
  (List.range 4096).filterMap (fun p => if p = self then some (p, 0) else others.find? (fun x => x.1 == p))

/-- The word of a peer-table entry that the loader writes: the fields of Table 12-7. -/
def peerWord (v : Nat) : Nat := fld v 31 1 * 2 ^ 31 + fld v 24 6 * 2 ^ 24 + fld v 0 12

/-- The state with a partition's peer table built from its job's placement (R211, R318); entries that it does not name are unused. -/
def State.buildPeers (s : State) (n : Nat) (job : JobPlacement) : State :=
  (List.range 1024).foldl (fun s e => s.w32 (Reg.rtePeer n e) (((job.peers.find? (fun x => x.1 == e)).map (fun x => peerWord x.2)).getD 0)) s

/-- The collective groups of a program (R272): the members here are the cores whose streams hold a REDUCE card of the group, and the
packages with members, in ascending rank, are those of the job's placement; of a group that it does not name, every package of the
job. -/
def State.programGroups (s : State) (n : Nat) (place : JobPlacement) (streams : List (Nat × List Nat)) : List Group :=
  let self := s.f64 Reg.rteSelf 0 12
  let job := s.jobPackages n
  let uses (cards : List Nat) : List Nat := (cards.filter (fun c => cardOp c == 5)).map (fun c => bodyF c 8 16)
  let ids := ((streams.map (fun p => uses p.2)).flatten).eraseDups
  ids.map (fun g =>
    let pkgs : List Nat := ((place.groups.find? (fun (x : Nat × List Nat) => x.1 == g && x.2.contains self)).map (·.2)).getD (job.map (·.1))
    { part := n, group := g, pkgs := List.range pkgs.length, rank := pkgs.idxOf self
      members := (streams.filter (fun p => (uses p.2).contains g)).map (·.1)
      peers := pkgs.map (fun p => ((job.find? (fun x => x.1 == p)).map (·.2)).getD 0) })

/-- The peer-table entries that cards use are in use (step 8). -/
def State.peersOk (s : State) (n : Nat) (cards : List Nat) : Bool :=
  let used (e : Nat) : Bool := bitAt (s.r32 (Reg.rtePeer n e)) 31
  cards.all (fun c => (List.range 4).all (fun i =>
    (!(slotUsed c i && descRemote (cardDesc c i)) || used (descPeer (cardDesc c i)))
      && (!(bitAt (cardSignal c i) 63 && bitAt (cardSignal c i) 60) || used (fld (cardSignal c i) 41 10))))

/-! ## Digests -/

/-- A card with every field of Table 7-13 taken as zero (R214). -/
def patchless (card : Nat) : Nat :=
  let c := (List.range 4).foldl (fun c i =>
    setFld (setFld (setFld (setFld c (640 + 256 * i) 32 0) (640 + 256 * i + 51) 10 0) (128 + 64 * i) 32 0) (384 + 64 * i) 32 0) card
  if cardOp card = 1 then setFld c (1664 + 64) 32 0
  else if cardOp card = 2 then setFld c (1664 + 256) 32 0
  else if cardOp card = 7 then setFld c 1664 32 0 else c

/-- PROGRAM_DIGEST (R375) from the relocated streams by logical core. -/
def programDigest (lcs : Nat) (streams : List (Nat × List Nat)) : List Byte :=
  sha384 (((List.range lcs).map (fun lc =>
    let cards := ((streams.find? (fun p => p.1 == lc)).elim [] (·.2))
    leBytes 2 lc ++ leBytes 4 cards.length ++ cardBytes (cards.map patchless))).flatten)

/-! ## Writing sections (steps 7 and 8) -/

/-- A section whose bytes the loader writes when they arrive, and where, for its load. -/
def State.sectionDest (s : State) (l : Load) (x : Section) : Option Nat :=
  if x.type = 3 ∨ x.type = 4 then none
  else (s.sectionCore l.kind l.part x).bind (fun g =>
    if l.kind = 1 ∧ !(bitAt (l.desc.f 40 1) (g / 16)) then none
    else some (s.sectionBase l.part (if l.kind = 2 then (s.slotAt l.part l.slot).1 else 0) g x))

/-- The state with zeros over the bytes that a load wrote for its first `k` sections (R365). -/
def State.clearLoad (s : State) (l : Load) (b : List Byte) (k : Nat) : State :=
  ((imgSections b).take k).foldl (fun s p =>
    match s.sectionDest l p.1 with
    | some a => s.store a (List.replicate p.1.dstLen 0)
    | none => s) s

/-- Bytes that the sections before number `k` take in device memory. -/
def State.writtenBy (s : State) (l : Load) (b : List Byte) (k : Nat) : Nat :=
  (((imgSections b).take k).map (fun p => if (s.sectionDest l p.1).isSome then p.1.dstLen else 0)).sum

/-- The state after a load has failed at step 7 or 8 with `k` sections written (R365, R372). -/
def State.failLate (s : State) (l : Load) (b : List Byte) (k status step sec die : Nat) : State :=
  (((s.clearLoad l b k).set32 Reg.ldrStatus 3)).endLoad l status (s.writtenBy l b k) (failAt step sec die)

/-- Die of a section, 0xFF where it names none. -/
def State.sectionDie (s : State) (l : Load) (x : Section) : Nat := (s.sectionCore l.kind l.part x).elim 0xFF (· / 16)

/-- The state after section `i` has arrived (step 7); the number of a status where it fails. -/
def State.arriveSection (s : State) (l : Load) (b : List Byte) (p : Section × Nat) : State × Option Nat :=
  match s.sectionStatus l.part b p with
  | some st => (s, some st)
  | none =>
    if p.1.type = 0 then (s, none)
    else match s.sectionDest l p.1, s.sectionBytes l.part b p with
      | some a, some (bs, _) => (s.store a bs, none)
      | _, _ => (s, none)

/-- The streams of a program image, relocated: logical core and cards; `none` where an INDEX lies past its window. -/
def State.programStreams (s : State) (n : Nat) (b : List Byte) (reloc : Bool) : Option (List (Nat × List Nat)) :=
  ((imgSections b).filter (fun p => p.1.type == 0)).mapM (fun p =>
    (p.1.run (imgStored b p)).bind (fun c =>
      (if reloc then (cardsOf c.bytes).mapM (s.relocCard n) else some (cardsOf c.bytes)).map (fun l => (p.1.lc, l))))

/-- The record of a loaded image. -/
def State.imageOf (s : State) (l : Load) (b : List Byte) (program : List Byte) : Image :=
  let secs := imgSections b
  let n := l.part
  let data := secs.map (fun p => (s.sectionBytes n b p).elim [] (·.1))
  let placed := (List.range secs.length).filterMap (fun i =>
    (secs[i]?).bind (fun p => (s.sectionDest l p.1).map (fun a => (i, a, (data[i]?).getD []))))
  { kind := l.kind, part := if l.kind = 1 then 0xFF else n, slot := if l.kind = 2 then l.slot else 0
    dieMask := if l.kind = 1 then l.desc.f 40 1 else 0, sigAlg := imgAlg b, keyFp := sha384 (imgKey b)
    digest := sha384 (imgMessage b), program := program
    content := sha384 ((secs.zip data).filter (fun x => x.1.1.type == 1 || x.1.1.type == 2) |>.map (·.2) |>.flatten)
    hour := s.hourCount, reissuable := bitAt (manF b 6 1) 0, lcCount := manF b 8 2, slots := manF b 12 2, rank := manF b 14 1
    baseRef := ((imgManifest b).drop 16).take 48, slotBase := manF b 64 8, slotSize := manF b 72 8
    sections := secs.map (·.1), starts := secs.map (·.2), extents := placed.map (fun x => ⟨x.1, x.2.1, x.2.2.length⟩)
    crcs := placed.foldl (fun t x => (unitPieces x.2.1 x.2.2).foldl (fun t u =>
      Tab.put (fun _ => 0) t (pieceKey x.1 u.1) (crc64 u.2)) t) []
    retain := bitAt (l.desc.f 19 1) 0 && !l.feed }

/-- Elements saturated or made NaN, for RESULT1 (R372). -/
def State.badElements (s : State) (n : Nat) (b : List Byte) : Nat :=
  min 255 (((imgSections b).map (fun p => (s.sectionBytes n b p).elim 0 (·.2))).sum)

/-- The state with every flag and counter of a partition's windows clear (R219). -/
def State.clearWindows (s : State) (n : Nat) : State :=
  (List.range 8).foldl (fun s d =>
    let w := s.r64 (Reg.cdFlagwin d n)
    (List.range 4).foldl (fun s c =>
      let s := (List.range (fld w 8 9)).foldl (fun s i => s.putFlag (flagKey d c (fld w 0 8 + i)) false) s
      (List.range (fld w 40 9)).foldl (fun s i => s.putCtr (flagKey d c (fld w 32 8 + i)) 0) s) s) s

/-- The state with CORE_STREAM staged for every core of a partition: the streams' places, LEN 0 where a core has none. -/
def State.stageStreams (s : State) (n : Nat) (secs : List Section) : State :=
  (s.lcs n).foldl (fun s g =>
    let lc := (s.lcs n).idxOf g
    let r := Reg.coreStream (g / 16) (g % 16)
    match secs.find? (fun x => x.type == 0 && x.lc == lc) with
    | some x => (s.stage r ((s.levelBase n (g / 16) 0 + x.off) / 256)).stage (r + 4) (x.dstLen / 256)
    | none => (s.stage r 0).stage (r + 4) 0) s

/-- The state after the last step of a program's load: its tables built and its streams written, or the load failed. -/
def State.finishProgram (s : State) (l : Load) (b : List Byte) : State :=
  let n := l.part
  let secs := imgSections b
  let k := secs.length
  let bad := s.failLate l b k 0x41 8 0xFFFF 0xFF
  match s.programStreams n b true, s.programStreams n b false with
  | some rel, some raw =>
    let byCore := rel.map (fun p => (((s.coreOf n p.1).getD 0), p.2))
    let s := s.buildPeers n l.job
    if !(s.externalsOk n raw) || !(rel.all (fun p => s.peersOk n p.2)) then bad
    else match (s.multicastNeeds n byCore).bind (s.buildMulticast n) with
      | none => bad
      | some s =>
        let s := (secs.filter (fun p => p.1.type == 0)).foldl (fun s p =>
          match s.sectionDest l p.1, s.sectionBytes n b p with | some a, some (bs, _) => s.store a bs | _, _ => s) s
        let s := (s.clearWindows n).stageStreams n (secs.map (·.1))
        let s := { s with groups := s.groups.filter (fun (x : Group) => x.part != n) ++ s.programGroups n l.job byCore }
        let img := s.imageOf l b (programDigest (manF b 8 2) rel)
        s.putLoad { l with got := [], ready := some (img, s.writtenBy l b k, s.badElements n b) }
  | _, _ => bad

/-- The state after the last step of a load of another kind: the image is resident and the command completes. -/
def State.finishOther (s : State) (l : Load) (b : List Byte) : State :=
  let img := s.imageOf l b (List.replicate 48 0)
  let s := { s with loader := { s.loader with
    images := s.loader.images ++ [img]
    opening := if l.kind = 2 then s.loader.opening ++ [(l.part, l.slot)] else s.loader.opening } }
  s.endLoad l 0 (s.writtenBy l b (imgSections b).length) (s.badElements l.part b)

/-- The state after further bytes of a load's image have come; `last` where no more will. -/
def State.advanceLoad (s : State) (l : Load) (new : List Byte) (last : Bool) : State :=
  let prev := l.got
  let b := prev ++ new
  let s := s.consumed new.length
  let wait := s.putLoad { l with got := b }
  if b.length < 64 then (if last then s.endLoad l 0x46 0 (failAt 2 0xFFFF 0xFF) else wait)
  else if !(headerOk l.kind b) || (last && b.length < imgLen b) then s.endLoad l 0x46 0 (failAt 2 0xFFFF 0xFF)
  else if b.length < imgManEnd b then wait
  else
    let fresh := prev.length < 64 || prev.length < imgManEnd b
    let report := l.desc.f 24 8
    let size := (s.slotAt l.part l.slot).2
    let pre := if fresh then s.preChecks l b else none
    let dry := match pre with | none => true | some (_, step, _, _) => step == 6
    let s := if fresh && dry && report != 0 then s.emit (.hostWrite report 2048 (s.dryReport l.kind l.part size b l.mask)) else s
    match pre with
    | some (st, step, sec, die) => s.endLoad l st 0 (failAt step sec die)
    | none =>
      if l.op = 1 ∧ l.rid ≠ 0 then s.endLoad l 0 0 0
      else
        let secs := imgSections b
        let due := (List.range secs.length).filter (fun i => match secs[i]? with
          | some (x, at') => at' + x.srcLen ≤ b.length && (fresh || prev.length < at' + x.srcLen)
          | none => false)
        let (s, bad) := due.foldl (fun (acc : State × Option (Nat × Nat)) i =>
          match acc.2, secs[i]? with
          | none, some p => let r := acc.1.arriveSection l b p; (r.1, r.2.map (fun st => (st, i)))
          | _, _ => acc) (s, none)
        match bad with
        | some (st, i) => s.failLate l b i st 7 i (((secs[i]?).map (fun p => s.sectionDie l p.1)).getD 0xFF)
        | none =>
          if b.length < imgLen b then s.putLoad { l with got := b }
          else if !gapsOk b then s.failLate l b secs.length 0x46 7 0xFFFF 0xFF
          else if l.kind = 0 then s.finishProgram l b else s.finishOther l b

/-! ## Taking a load (R361, R368-R371, step 1) -/

/-- The source fields of a descriptor are in range; `own` holds the byte ranges of the command's own fields. -/
def sourceOk (d : Desc) (own : List (Nat × Nat)) : Bool :=
  d.f 18 1 ≤ 1 && d.f 19 1 < 2 && (d.f 18 1 == 1 || 1 ≤ d.f 16 2)
    && (List.range 28).all (fun i => own.any (fun r => r.1 ≤ 36 + i && 36 + i < r.2) || d.f (36 + i) 1 == 0)

/-- The feed ring of a descriptor is one that R361 and R362 allow and no load in progress overlaps it. -/
def State.feedOk (s : State) (d : Desc) : Bool :=
  let o := d.f 20 4
  let n := d.f 32 4
  o % 4096 == 0 && n % 4096 == 0 && 0 < n && o + n ≤ stagingOpen
    && s.loader.loads.all (fun l => !l.feed || decide (o + n ≤ l.desc.f 20 4) || decide (l.desc.f 20 4 + l.desc.f 32 4 ≤ o))

/-- The list or the report of a descriptor would wrap the host's address space. -/
def wraps (d : Desc) : Bool :=
  (d.f 18 1 == 0 && decide (2 ^ 64 < d.f 8 8 + 16 * d.f 16 2)) || decide (2 ^ 64 < d.f 24 8 + 2048)

/-- A staged value is pending for a register that governs where partition `n` is placed (R369). -/
def State.placementStaged (s : State) (n : Nat) : Bool :=
  let words (a k : Nat) : Bool := (List.range k).any (fun i => (s.pendingAt (a + 4 * i)).isSome)
  words (Reg.topPartMember n) 4 || (List.range 8).any (fun d => words (Reg.cdPbbShm d n) 2 || words (Reg.cdPbbCore d n) 2 || words (Reg.cdFlagwin d n) 2)

/-- A partition with cores on die `d` is LOADED or RUNNING (R169, R370). -/
def State.dieBusy (s : State) (d : Nat) : Bool := (List.range 64).any (fun n => s.hasCoreOn n d && s.loadedOrRunning n)

/-- Slots of a partition that are occupied, or become so by a load in progress (R371). -/
def State.slotsUsed (s : State) (n : Nat) : List Nat :=
  (s.adapters n).map (·.slot) ++ (s.loader.loads.filter (fun l => l.counts && l.rid == n + 1 && l.op == 4)).map Load.slot

/-- Loads are closed by the tenant switch or by UDS_KILL (R477, R481): the status. -/
def State.loadsClosed (s : State) : Option Nat :=
  if bitAt (s.r32 Reg.secStatus) 4 then some 0x48 else if bitAt (s.r32 Reg.secStatus) 2 then some 0x24 else none

/-- The status with which step 1 fails, if it does. -/
def State.step1 (s : State) (rid : Nat) (d : Desc) : Option Nat :=
  let n := rid - 1
  let op := d.f 0 1
  match s.loadsClosed with
  | some st => some st
  | none =>
    if rid = 0 then
      (if (upto 8 (fun k => bitAt (d.f 40 1) k)).any (fun k => s.dieBusy k || (s.base k).isSome
          || s.loader.loads.any (fun l => l.kind == 1 && l.counts && bitAt (l.desc.f 40 1) k)) then some 0x24 else none)
    else if op = 4 then
      let slot := d.f 40 2
      if !s.loadedOrRunning n then some 0x24
      else if (s.slotsUsed n).contains slot || s.loader.unloads.any (fun x => x.1 == n && x.2.1 == slot) then some 0x24
      else if s.f64 (Reg.topPartQuota n) 37 9 < (s.slotsUsed n).length + 1 then some 0x21
      else none
    else if s.pstate n ≠ 1 ∨ s.loader.loads.any (fun l => l.rid == rid) ∨ s.placementStaged n then some 0x24
    else none

/-- The state with the idle slots of a partition's clusters chosen again where no core of the cluster belongs to a LOADED,
RUNNING or STOPPED partition (R432). -/
def State.rechoose (s : State) (n : Nat) : State :=
  (List.range 32).foldl (fun s x =>
    let cores := (List.range 4).map (fun j => 4 * x + j)
    let held := cores.any (fun g => match s.owner g with | some m => 2 ≤ s.pstate m | none => false)
    if cores.any (fun g => bitAt (s.members n) g) && !held then s.chooseIdle (x / 4) (x % 4) else s) s

/-- LOAD, PLACE_CHECK, ADAPTER_LOAD and BASE_LOAD: the command is taken. -/
def takeLoad (rid : Nat) (own : List (Nat × Nat)) (d : Desc) (src : HostRead) (job : JobPlacement) (s : State) : State :=
  let n := rid - 1
  let feed := d.f 18 1 == 1
  let field := !(sourceOk d own) || (feed && !(s.feedOk d))
    || (rid == 0 && (d.f 40 1 == 0 || (upto 8 (fun k => bitAt (d.f 40 1) k)).any s.dieAbsent))
    || (rid != 0 && d.f 0 1 == 4 && s.loadedOrRunning n && (match s.program n with | some p => decide (p.slots ≤ d.f 40 2) | none => true))
  if field then s.complete rid d.cmdId 0x11 0 0
  else if wraps d || (!feed && src == .badList) then s.complete rid d.cmdId 0x16 0 0
  else match s.step1 rid d with
    | some st => (s.count64 Reg.ldrCount 0 8 1).complete rid d.cmdId st 0 (failAt 1 0xFFFF 0xFF)
    | none =>
      let l : Load := ⟨rid, d.cmdId, d, [], feed, none, job⟩
      let s := if rid ≠ 0 ∧ d.f 0 1 = 2 then s.rechoose n else s
      let s := s.setLoads (s.loader.loads ++ [l])
      if feed then s
      else match src with
        | .bytes b => s.advanceLoad l b true
        | _ => s.endLoad l 0x57 0 (failAt 2 0xFFFF 0xFF)

/-! ## What a feed carries (R361) -/

/-- FIRMWARE_UPDATE on a whole image (R469, R470). -/
def State.firmwareCheck (s : State) (b : List Byte) : Nat × Option (Nat × Firmware) :=
  let fp := sha384 (imgKey b)
  let slots := (List.range 4).filter (fun i => leBytes 48 (Config.keyFp i).toNat == fp)
  let reject : Nat × Option (Nat × Firmware) := (0x49, none)
  if !(headerOk 3 b && padsOk b) || b.length < imgLen b then reject
  else if slots.isEmpty then reject
  else if slots.all (fun i => bitAt s.sec.shadow.revoke i) then (0x48, none)
  else if !(signatureOk b && manifestOk 3 b && (badSection 3 b).isNone) then reject
  else
    match (imgSections b).head? with
    | none => reject
    | some p =>
      let stored := imgStored b p
      match p.1.run stored with
      | none => reject
      | some c =>
        let t := bytesF c.bytes 0 4
        let svn := bytesF c.bytes 4 4
        let least := if t = 0 then s.sec.shadow.svnMgmt else s.sec.shadow.svnDisp
        if !((imgSections b).all (fun q => sha384 (imgStored b q) == q.1.digest)) || 1 < t || 64 < svn || svn < least
            || bytesF c.bytes 16 48 != 0 || c.bytes.length < 64 then reject
        else (0, some (t, ⟨sha384 stored, bytesF c.bytes 8 8, svn⟩))

/-- The state after FIRMWARE_UPDATE has its whole image. -/
def State.firmwareWrite (s : State) (rid cmdId : Nat) (b : List Byte) : State :=
  match s.firmwareCheck b with
  | (st, none) => s.complete rid cmdId st 0 0
  | (st, some (t, f)) =>
    let c := 1 - Tab.get (fun _ => 0) s.sec.running t % 2
    ({ s with sec := { s.sec with
      flash := Tab.put (fun _ => none) s.sec.flash (2 * t + c) (some f)
      first := Tab.put (fun _ => 0) s.sec.first t c } }).complete rid cmdId st 0 0

/-! ## Repair (R376) -/

/-- The image that holds a repair's unit, with its section. -/
def State.repairImage (s : State) (r : Repair) : Option (Image × Section) :=
  (s.loader.images.find? (fun i => i.extents.any (fun x => x.sec == r.sec && x.base / 65536 ≤ r.unit && r.unit ≤ (x.base + x.len - 1) / 65536 && 0 < x.len))).bind
    (fun i => (i.sections[r.sec]?).map (fun x => (i, x)))

/-- REPAIR_WAIT as the outstanding repairs say (Table 14-10). -/
def State.repairWait (s : State) : State :=
  s.sf32 Reg.ldrStatus 4 1 (if s.loader.repairs.isEmpty then 0 else 1)

/-- The partitions that use a unit's image: its own, or for a base those that reference it. -/
def State.repairParts (s : State) (i : Image) : List Nat :=
  if i.kind = 1 then (List.range 64).filter (fun n => (s.program n).any (fun p => p.baseRef == i.digest)) else [i.part]

/-- The state in which a repair is abandoned: every partition whose image or base holds the unit stops (R376). -/
def State.abandonRepair (s : State) (r : Repair) : State :=
  let parts := match s.repairImage r with | some (i, _) => s.repairParts i | none => []
  let s := { s with loader := { s.loader with repairs := s.loader.repairs.filter (fun x => x.id != r.id) } }
  let s := (s.set32 Reg.ldrStatus 5).repairWait
  parts.foldl (fun s n => s.recordStop n 0x52 .fault) s

/-- Destination bytes of a section from its stored bytes, as first written; a stream relocated. -/
def State.rebuild (s : State) (n : Nat) (x : Section) (stored : List Byte) : Option (List Byte) :=
  (x.run stored).bind (fun c => if x.type = 0 then ((cardsOf c.bytes).mapM (s.relocCard n)).map cardBytes else some c.bytes)

/-- The state after a repair's source bytes have come: the unit is rebuilt, checked and written, or the repair ends as
abandoned (R376). -/
def State.rewrite (s : State) (r : Repair) (stored : List Byte) : State :=
  match s.repairImage r with
  | none => ({ s with loader := { s.loader with repairs := s.loader.repairs.filter (fun x => x.id != r.id) } }).repairWait
  | some (i, x) =>
    match s.rebuild i.part x stored, i.extents.find? (fun e => e.sec == r.sec) with
    | some bs, some e =>
      match (unitPieces e.base bs).find? (fun u => u.1 == r.unit) with
      | some u =>
        if crc64 u.2 = Tab.get (fun _ => 0) i.crcs (pieceKey r.sec r.unit) then
          let s := s.store (max e.base (r.unit * 65536)) u.2
          let s := s.count64 Reg.ldrCount 8 16 1
          let s := ({ s with loader := { s.loader with repairs := s.loader.repairs.filter (fun y => y.id != r.id) } }).repairWait
          (s.repairParts i).foldl (fun s n => let p := s.part n; s.setPart n { p with rewrites := p.rewrites.erase r.id }) s
        else s.abandonRepair r
      | none => s.abandonRepair r
    | _, _ => s.abandonRepair r

/-- The byte of the image at which a repair's section starts, the first source byte that IMAGE_REPAIR supplies (log entry 70). -/
def State.repairStart (s : State) (r : Repair) : Nat := (s.repairImage r).elim 0 (fun x => (x.1.starts[r.sec]?).getD 0)

/-- The state in which the oldest outstanding REPAIR_REQUESTs have been completed for repairs that need source bytes. -/
def State.askRepairs (s : State) : Nat → State
  | 0 => s
  | k + 1 =>
    match s.loader.requests, s.loader.repairs.find? (fun r => !r.asked && !((s.repairImage r).any (fun x => x.1.retain))) with
    | id :: rest, some r =>
      let s := { s with loader := { s.loader with
        requests := rest, repairs := s.loader.repairs.map (fun (x : Repair) => if x.id = r.id then { x with asked := true } else x) } }
      (s.complete 0 id 0 (r.id + r.sec * 2 ^ 32) (s.repairStart r % 2 ^ 48)).askRepairs k
    | _, _ => s

/-- The state in which repairs have been opened for the sections of resident images that meet `len` bytes from `a` on; the
partitions that use them wait for the rewrites (R376, R447). -/
def State.openRepairs (s : State) (a len : Nat) : State :=
  let hits := (s.loader.images.map (fun i => (i.extents.map (fun e =>
    if a < e.base + e.len ∧ e.base < a + len then
      (List.range ((a + len - 1) / 65536 + 1 - a / 65536)).filterMap (fun j =>
        let u := a / 65536 + j
        if e.base < (u + 1) * 65536 ∧ u * 65536 < e.base + e.len then some (u, e.sec, s.repairParts i) else none)
    else [])).flatten)).flatten
  let s := hits.foldl (fun s h =>
    match s.loader.repairs.find? (fun r => r.unit == h.1 && r.sec == h.2.1) with
    | some _ => s
    | none =>
      let id := s.loader.nextRepair
      let s := { s with loader := { s.loader with
        nextRepair := (id + 1) % 2 ^ 32, repairs := s.loader.repairs ++ [⟨id, h.1, h.2.1, s.hourCount, false⟩] } }
      h.2.2.foldl (fun s n => let p := s.part n; s.setPart n { p with rewrites := p.rewrites ++ [id] }) s) s
  s.repairWait.askRepairs s.loader.requests.length

/-- The state after further bytes of a firmware update's or repair's feed have come. -/
def State.advanceOther (s : State) (l : Load) (new : List Byte) : State :=
  let b := l.got ++ new
  let s := s.consumed new.length
  let drop (s : State) : State := s.setLoads (s.loader.loads.filter (fun x => !(x.rid == l.rid && x.desc == l.desc)))
  if l.op = 0x23 then (if b.length < 64 ∨ b.length < imgLen b then s.putLoad { l with got := b } else (drop s).firmwareWrite l.rid l.cmdId b)
  else
    match s.loader.repairs.find? (fun r => r.id == l.desc.f 40 4) with
    | none => (drop s).complete l.rid l.cmdId 0x11 0 0
    | some r =>
      match s.repairImage r with
      | none => (drop s).complete l.rid l.cmdId 0x11 0 0
      | some (_, x) =>
        if b.length < x.srcLen then s.putLoad { l with got := b }
        else ((drop s).rewrite r (b.take x.srcLen)).complete l.rid l.cmdId 0 0 0

/-- IMAGE_FEED (R361): the announced bytes are consumed at once, in order, from the ring in staging SRAM
(log entry 71). -/
def imageFeed (d : Desc) (s : State) : State :=
  let len := d.f 12 4
  match s.loader.loads.find? (fun l => l.feed && l.ready.isNone && l.desc.f 20 4 == d.f 8 4) with
  | none => s.complete 0 d.cmdId 0x11 0 0
  | some l =>
    let size := l.desc.f 32 4
    if !(d.zero 16 64) || size < len then s.complete 0 d.cmdId 0x11 0 0
    else
      let bs := (List.range len).map (fun i => s.rdByte (stagingAddr (l.desc.f 20 4 + (l.got.length + i) % size)))
      let s := if l.counts then s.advanceLoad l bs false else s.advanceOther l bs
      s.complete 0 d.cmdId 0 0 0

/-- FEED_TIMEOUT: no bytes were announced for 10 s and the load that reads the ring fails as truncated (R361, log entry 71). -/
def feedTimeout (off : Nat) (s : State) : State :=
  match s.loader.loads.find? (fun l => l.feed && l.ready.isNone && l.desc.f 20 4 == off) with
  | none => s
  | some l =>
    let b := l.got
    if !l.counts then
      (s.setLoads (s.loader.loads.filter (fun x => !(x.rid == l.rid && x.desc == l.desc)))).complete l.rid l.cmdId 0x46 0 0
    else if b.length < 64 || b.length < imgManEnd b then s.endLoad l 0x46 0 (failAt 2 0xFFFF 0xFF)
    else
      let k := ((imgSections b).filter (fun p => p.2 + p.1.srcLen ≤ b.length)).length
      s.failLate l b k 0x46 7 k 0xFF

/-! ## The admin and command descriptors -/

/-- TRUST_KEY (R363, R465, R477, R481). -/
def trustKey (d : Desc) (key : HostRead) (s : State) : State :=
  let slot := d.f 8 1
  let install := d.f 9 1 == 0
  let len := d.f 24 4
  let rules := s.sec.shadow.partRules
  let done (st : Nat) (s : State) : State := s.complete 0 d.cmdId st 0 0
  let put (v : Option (List Byte)) : State :=
    let t := Tab.put (fun _ => none) s.sec.trust slot v
    done 0 (({ s with sec := { s.sec with trust := t } }).sf32 Reg.ldrStatus 16 5 t.length)
  if !(d.zero 10 16) || !(d.zero 28 64) || 15 < slot || 1 < d.f 9 1 || (install && len != 97 && len != 1952) then done 0x11 s
  else match s.loadsClosed with
    | some st => done st s
    | none =>
      if (List.range 64).any s.loadedOrRunning || s.loader.loads.any Load.counts then done 0x24 s
      else if !install then put none
      else if 2 ^ 64 < d.f 16 8 + len then done 0x16 s
      else match key with
        | .badList => done 0x16 s
        | .failed => done 0x57 s
        | .bytes b =>
          let fp := sha384 (b.take len)
          if bitAt rules 6 && !((List.range 4).any (fun i => let p := Tab.get (fun _ => 0) s.sec.shadow.pins i; p != 0 && leBytes 48 p == fp)) then
            done 0x48 s
          else put (some fp)

/-- BASE_UNLOAD (R370). -/
def baseUnload (d : Desc) (s : State) : State :=
  let mask := d.f 8 1
  let dies := upto 8 (fun k => bitAt mask k)
  let used (n : Nat) : Bool := 2 ≤ s.pstate n && (match s.program n with
    | some p => dies.any (fun k => s.hasCoreOn n k && (s.base k).any (fun b => b.digest == p.baseRef))
    | none => false)
  if !(d.zero 9 64) then s.complete 0 d.cmdId 0x11 0 0
  else if (List.range 64).any used || s.loader.loads.any (fun l => l.counts && l.kind == 1 && dies.any (fun k => bitAt (l.desc.f 40 1) k)) then
    s.complete 0 d.cmdId 0x24 0 0
  else
    let imgs := s.loader.images.map (fun i => if i.kind = 1 then
      { i with dieMask := Nat.land i.dieMask (255 - mask), extents := i.extents.filter (fun e => !(bitAt mask (e.base / 2 ^ 36))) } else i)
    let s := { s with loader := { s.loader with images := imgs.filter (fun i => i.kind != 1 || i.dieMask != 0) } }
    s.publish.complete 0 d.cmdId 0 0 0

/-- REPAIR_REQUEST: outstanding until the loader needs source bytes (R376). -/
def repairRequest (d : Desc) (s : State) : State :=
  if !(d.zero 8 64) then s.complete 0 d.cmdId 0x11 0 0
  else
    let s := { s with loader := { s.loader with requests := s.loader.requests ++ [d.cmdId] } }
    s.askRepairs 1

/-- IMAGE_REPAIR: the stored bytes of a repair's section (R376, log entry 71). -/
def imageRepair (d : Desc) (src : HostRead) (s : State) : State :=
  let feed := d.f 18 1 == 1
  let done (st : Nat) (s : State) : State := s.complete 0 d.cmdId st 0 0
  if !(sourceOk d [(40, 44)]) || (feed && !(s.feedOk d)) then done 0x11 s
  else match s.loader.repairs.find? (fun r => r.id == d.f 40 4) with
    | none => done 0x11 s
    | some r =>
      if feed then s.setLoads (s.loader.loads ++ [⟨0, d.cmdId, d, [], true, none, ⟨[], []⟩⟩])
      else if wraps d then done 0x16 s
      else match src with
        | .badList => done 0x16 s
        | .failed => done 0x57 s
        | .bytes b => done 0 ((s.consumed b.length).rewrite r (match s.repairImage r with | some (_, x) => b.take x.srcLen | none => b))

/-- FIRMWARE_UPDATE (R470). -/
def firmwareUpdate (d : Desc) (src : HostRead) (s : State) : State :=
  let feed := d.f 18 1 == 1
  let done (st : Nat) (s : State) : State := s.complete 0 d.cmdId st 0 0
  if !(sourceOk d []) || (feed && !(s.feedOk d)) then done 0x11 s
  else if feed then s.setLoads (s.loader.loads ++ [⟨0, d.cmdId, d, [], true, none, ⟨[], []⟩⟩])
  else if wraps d then done 0x16 s
  else match src with
    | .badList => done 0x16 s
    | .failed => done 0x57 s
    | .bytes b => (s.consumed b.length).firmwareWrite 0 d.cmdId b

/-- REWRITE_COMPLETE: the loader has read the source bytes of a repair again from its host list, and rebuilds the unit. -/
def rewriteComplete (id : Nat) (stored : List Byte) (s : State) : State :=
  match s.loader.repairs.find? (fun r => r.id == id) with
  | none => s
  | some r => if (s.repairImage r).any (fun x => x.1.retain) then (s.consumed stored.length).rewrite r stored else s

/-- LOAD_COMPLETE: the window in which a LOAD's registers applied has passed, and the command completes (R369). -/
def loadComplete (part : Nat) (s : State) : State :=
  match s.loader.loads.find? (fun l => l.rid == part + 1 && l.ready.isSome && l.kind == 0) with
  | none => s
  | some l =>
    match l.ready with
    | some (_, r0, r1) => if (s.program part).isSome && s.loadedOrRunning part then s.endLoad l 0 r0 r1 else s
    | none => s

/-- The state in which the LOADs whose tables are ready have taken effect, in step 4 of the window of Hour `h` (R369, R449). -/
def State.loadsApply (s : State) (h : Nat) : State :=
  s.loader.loads.foldl (fun s l =>
    match l.ready with
    | some (img, _, _) =>
      let n := l.part
      if s.pstate n ≠ 1 ∨ l.kind ≠ 0 then s
      else
        let s := { s with loader := { s.loader with images := s.loader.images ++ [{ img with hour := h }] } }
        let s := s.setPstate n 2
        let s := (s.w32 (Reg.topPartJob n) 0).sf32 (Reg.topPartJob n) 16 13 (s.jobPackages n).length
        s.setPart n { reissuable := img.reissuable }
    | none => s) s

/-- The state in which a core of a partition has no stream and nothing in flight. The layer digests it has closed stay until the next
window reports them (R279). -/
def State.idleCore (s : State) (g : Nat) : State :=
  let s := s.emptyCore g
  let s := s.setCore g { s.core g with t0 := 0, fresh := 0, lastIssue := none, alignHour := none, trapped := none, step := 0, markPos := 0,
                                        reduceSeq := [], layers := [], unfolded := [] }
  (s.setSeqState g 0).setSeqPos g 0

/-- UNLOAD (R369, R375). Every LEN is staged as 0 and switches in the next window (R51); adapter loads in progress end (log entry
71). -/
def unloadPart (n : Nat) (d : Desc) (s : State) : State :=
  let rid := n + 1
  if !(d.zero 8 64) then s.complete rid d.cmdId 0x11 0 0
  else if s.pstate n ≠ 2 ∧ s.pstate n ≠ 4 then s.complete rid d.cmdId 0x24 0 0
  else
    let s := (s.lcs n).foldl (fun s g =>
      let r := Reg.coreStream (g / 16) (g % 16)
      ((s.unstage r).stage (r + 4) 0).idleCore g) s
    let gone' := s.loader.loads.filter (fun l => l.counts && l.rid == rid && l.op == 4)
    let s := gone'.foldl (fun s l => s.endLoad l 0x24 0 (failAt 1 0xFFFF 0xFF)) s
    let offs := s.loader.unloads.filter (fun x => x.1 == n)
    let s := offs.foldl (fun s x => s.complete rid x.2.2 0 0 0) s
    let s := { s with loader := { s.loader with
      images := s.loader.images.filter (fun i => i.kind == 1 || i.part != n)
      unloads := s.loader.unloads.filter (fun x => x.1 != n)
      opening := s.loader.opening.filter (fun x => x.1 != n) } }
    let s := { s with groups := s.groups.filter (fun x => x.part != n) }
    let s := { s with serving := { s.serving with parts := Tab.put (fun _ => none) s.serving.parts n none } }
    let p := s.part n
    let s := s.setPart n { startCmd := p.startCmd, startAt := p.startAt }
    let j := Reg.topPartJob n
    let s := ((s.sf32 j 16 13 0).sf32 j 4 3 0).sf32 (Reg.topPartStatus n) 17 1 0
    (s.setPstate n 1).publish.complete rid d.cmdId 0 0 0

/-- ADAPTER_UNLOAD closes the slot to admission (R371). -/
def adapterUnload (n : Nat) (d : Desc) (s : State) : State :=
  let rid := n + 1
  let slot := d.f 8 2
  if !(d.zero 10 64) || (match s.program n with | some p => decide (p.slots ≤ slot) | none => false) then s.complete rid d.cmdId 0x11 0 0
  else if (s.adapter n slot).isNone || s.loader.unloads.any (fun x => x.1 == n && x.2.1 == slot) then s.complete rid d.cmdId 0x24 0 0
  else { s with loader := { s.loader with
    unloads := s.loader.unloads ++ [(n, slot, d.cmdId)], opening := s.loader.opening.filter (fun x => !(x.1 == n && x.2 == slot)) } }

/-- STOP (R369). -/
def stopPart (n : Nat) (d : Desc) (s : State) : State :=
  let rid := n + 1
  let p := s.part n
  if !(d.zero 8 64) then s.complete rid d.cmdId 0x11 0 0
  else if s.pstate n ≠ 3 ∨ p.stopCmd.isSome then s.complete rid d.cmdId 0x24 0 0
  else s.setPart n { p with stopCmd := some (d.cmdId, s.hourCount) }

/-! ## EXPORT (R373) -/

/-- The state with bytes written through a host list, entry after entry. -/
def State.scatter (s : State) : List (Nat × Nat) → List Byte → State
  | [], _ => s
  | e :: t, bs =>
    if bs.isEmpty then s
    else
      let k := min e.2 bs.length
      (if k = 0 then s else s.emit (.hostWrite e.1 k (leNat (bs.take k)))).scatter t (bs.drop k)

/-- EXPORT; `list` holds the entries of the destination list, `none` where reading them failed (R373, log entry
71). -/
def exportData (n : Nat) (d : Desc) (list : Option (List (Nat × Nat))) (s : State) : State :=
  let rid := n + 1
  let role := d.f 19 1
  let src := d.f 24 1
  let dst := d.f 25 1
  let level := d.f 26 1
  let rows := d.f 40 8
  let cols := d.f 48 8
  let staging := d.f 18 1 == 1
  let done (st : Nat) (s : State) : State := s.complete rid d.cmdId st 0 0
  match s.coreOf n (d.f 27 1) with
  | none => done (if s.pstate n = 2 ∨ s.pstate n = 4 then 0x11 else 0x24) s
  | some g =>
    let size := layoutSize src role rows cols
    let out := pubSize dst role rows cols
    let fits := decide (d.f 32 8 + size ≤ s.levelBound n (g / 16) level)
    if 1 < d.f 18 1 || 2 < role || 0xB < src || !(pubKnown dst) || 3 < level || !(d.zero 28 32) || !(d.zero 56 64) || !fits
        || (staging && decide (stagingOpen < d.f 20 4 + out)) || (!staging && d.f 16 2 == 0) then done 0x11 s
    else if s.pstate n ≠ 2 ∧ s.pstate n ≠ 4 then done 0x24 s
    else if bitAt s.sec.shadow.partRules 0 then done 0x48 s
    else if !staging && decide (2 ^ 64 < d.f 8 8 + 16 * d.f 16 2) then done 0x16 s
    else
      let a := levelAddr level g 0 0 (s.levelBase n (g / 16) level + d.f 32 8)
      let c := exportTensor src dst role rows cols (s.rdBytes a size)
      let s := s.noticed ((List.range size).map (a + ·))
      let fin (s : State) : State := s.complete rid d.cmdId 0 c.bytes.length (min 255 c.bad)
      if staging then fin (s.store (stagingAddr (d.f 20 4)) c.bytes)
      else match list with
        | none => done 0x57 s
        | some l =>
          if l.any (fun e => decide (2 ^ 64 < e.1 + e.2)) then done 0x16 s
          else if (l.map (·.2)).sum < c.bytes.length then done 0x11 s
          else fin (s.scatter l c.bytes)

/-! ## Meanings -/

/-- TRUST_KEY. -/
def execTrustKey (d : Desc) (key : HostRead) (s : State) : Host.Outcome State Fault Refusal := .next (trustKey d key s)
/-- IMAGE_FEED. -/
def execImageFeed (d : Desc) (s : State) : Host.Outcome State Fault Refusal := .next (imageFeed d s)
/-- FEED_TIMEOUT, of the ring at a staging offset. -/
def execFeedTimeout (off : Nat) (s : State) : Host.Outcome State Fault Refusal := .next (feedTimeout off s)
/-- BASE_LOAD. -/
def execBaseLoad (d : Desc) (src : HostRead) (s : State) : Host.Outcome State Fault Refusal := .next (takeLoad 0 [(40, 41)] d src ⟨[], []⟩ s)
/-- BASE_UNLOAD. -/
def execBaseUnload (d : Desc) (s : State) : Host.Outcome State Fault Refusal := .next (baseUnload d s)
/-- REPAIR_REQUEST. -/
def execRepairRequest (d : Desc) (s : State) : Host.Outcome State Fault Refusal := .next (repairRequest d s)
/-- IMAGE_REPAIR. -/
def execImageRepair (d : Desc) (src : HostRead) (s : State) : Host.Outcome State Fault Refusal := .next (imageRepair d src s)
/-- FIRMWARE_UPDATE. -/
def execFirmwareUpdate (d : Desc) (src : HostRead) (s : State) : Host.Outcome State Fault Refusal := .next (firmwareUpdate d src s)
/-- REWRITE_COMPLETE. -/
def execRewriteComplete (id : Nat) (stored : List Byte) (s : State) : Host.Outcome State Fault Refusal := .next (rewriteComplete id stored s)
/-- PLACE_CHECK, on the command ring of a partition. -/
def execPlaceCheck (n : Fin 64) (d : Desc) (src : HostRead) (s : State) : Host.Outcome State Fault Refusal := .next (takeLoad (n + 1) [] d src ⟨[], []⟩ s)
/-- LOAD. -/
def execLoadImage (n : Fin 64) (d : Desc) (src : HostRead) (job : JobPlacement) (s : State) : Host.Outcome State Fault Refusal :=
  .next (takeLoad (n + 1) [] d src job s)
/-- ADAPTER_LOAD. -/
def execAdapterLoad (n : Fin 64) (d : Desc) (src : HostRead) (s : State) : Host.Outcome State Fault Refusal :=
  .next (takeLoad (n + 1) [(40, 42)] d src ⟨[], []⟩ s)
/-- ADAPTER_UNLOAD. -/
def execAdapterUnload (n : Fin 64) (d : Desc) (s : State) : Host.Outcome State Fault Refusal := .next (adapterUnload n d s)
/-- UNLOAD. -/
def execUnloadImage (n : Fin 64) (d : Desc) (s : State) : Host.Outcome State Fault Refusal := .next (unloadPart n d s)
/-- LOAD_COMPLETE. -/
def execLoadComplete (n : Fin 64) (s : State) : Host.Outcome State Fault Refusal := .next (loadComplete n s)
/-- STOP. -/
def execStopPart (n : Fin 64) (d : Desc) (s : State) : Host.Outcome State Fault Refusal := .next (stopPart n d s)
/-- EXPORT. -/
def execExportData (n : Fin 64) (d : Desc) (list : Option (List (Nat × Nat))) (s : State) : Host.Outcome State Fault Refusal :=
  .next (exportData n d list s)

end Sys2Proof.Machine
end

