-- ==== Sys2Proof/Machine/Serving.lean ====
section
/-!
DEFINITION. The serving engine (15_serving_engine.md), the START that reads a serving table (R369, R380), patch sets (R212, R213, R346)
and the ends of a partition's run that end requests (R185, R369, R406).
-/

namespace Sys2Proof.Machine

/-! ## Records by partition -/

/-- The serving partition `n`, if it serves. -/
def State.serve (s : State) (n : Nat) : Option Serve := Tab.get (fun _ => none) s.serving.parts n
/-- The state with a serving partition set. -/
def State.setServe (s : State) (n : Nat) (v : Option Serve) : State :=
  { s with serving := { s.serving with parts := Tab.put (fun _ => none) s.serving.parts n v } }
/-- The active requests of partition `n` in taking order. -/
def State.requestsOf (s : State) (n : Nat) : List Request := s.serving.requests.filter (fun r => r.part == n)
/-- The state with the active requests replaced. -/
def State.setRequests (s : State) (l : List Request) : State := { s with serving := { s.serving with requests := l } }

/-! ## The serving table (R380, Table 15-1) -/

/-- Bytes of partition `n`'s shared-memory range on die `d` (R167). -/
def State.shmBytes (s : State) (n d : Nat) : Nat := s.levelBound n d 0
/-- Device address of program-relative shared-memory offset `off` of partition `n` on die `d`. -/
def State.shmAddr (s : State) (n d off : Nat) : Nat := d * 2 ^ 36 + s.levelBase n d 0 + off
/-- Dies on which partition `n` has cores. -/
def State.diesOf (s : State) (n : Nat) : List Nat := upto 8 (fun d => s.hasCoreOn n d)
/-- Die of LC0 of partition `n`. -/
def State.homeDie (s : State) (n : Nat) : Nat := (s.coreOf n 0).getD 0 / 16
/-- First byte of the KV reserve of partition `n` on die `d`, as an offset of the die's shared memory, and its bytes (R172). -/
def State.kvReserve (s : State) (n d : Nat) : Nat × Nat :=
  let kv := s.f64 (Reg.cdPbbShm d n) 32 13 * 2 ^ 20
  (s.levelBase n d 0 + s.shmBytes n d - kv, kv)

/-- The number of KV blocks NB (R385); 0 where no die holds KV. -/
def State.blockCount (s : State) (n : Nat) (bytes : List Nat) : Nat :=
  let per := (s.diesOf n).filterMap (fun d => let b := bytes.getD d 0; if b = 0 then none else some ((s.kvReserve n d).2 / b))
  match per with
  | [] => 0
  | x :: t => t.foldl min x

/-- The serving table of partition `n`: `none` where MAGIC does not match, and the table if every field is in range. -/
def State.servingTable (s : State) (n : Nat) : Option (Option Serve) :=
  let a := s.shmAddr n (s.homeDie n) 0
  let f (b k : Nat) : Nat := s.rdNat (a + b) k
  if s.shmBytes n (s.homeDie n) < 256 ∨ f 0 4 ≠ 0x01565253 then none
  else
    let dies := s.diesOf n
    let fits (off len : Nat) : Bool := dies.all (fun d => off + len ≤ s.shmBytes n d)
    let home (off len : Nat) : Bool := off + len ≤ s.shmBytes n (s.homeDie n)
    let ctr (i : Nat) : Bool := dies.all (fun d => i < s.f64 (Reg.cdFlagwin d n) 40 9)
    let bytes := (List.range 8).map (fun d => f (96 + 4 * d) 4)
    let ok := 1 ≤ f 4 2 && f 4 2 ≤ 4096 && 64 ≤ f 6 2 && f 6 2 ≤ 4096 && f 6 2 % 64 == 0
      && 128 ≤ f 8 4 && f 8 4 ≤ 2 ^ 20 && f 8 4 % 64 == 0 && 2 ≤ f 12 4 && f 12 4 ≤ 2 ^ 24 && 1 ≤ f 16 4 && f 16 4 ≤ 65535
      && f 24 1 < 4 && f 25 1 ≤ 8 && ctr (f 26 1) && ctr (f 27 1) && f 60 4 == 0
      && fits (f 64 8) (64 * f 4 2) && fits (f 72 8) (16 * f 6 2) && home (f 80 8) (f 88 8) && f 88 8 % 320 == 0
      && bytes.all (fun b => b % 32 == 0) && home (f 128 8) (f 136 8) && f 144 112 == 0
    some (if ok then some {
      slots := f 4 2, rows := f 6 2, maxCtx := f 8 4, vocab := f 12 4, stepHours := f 16 4, prepNc := f 20 4, flags := f 24 1
      stops := (List.range (f 25 1)).map (fun i => f (28 + 4 * i) 4), readyCtr := f 26 1, outCtr := f 27 1
      slotArea := f 64 8, prefillArea := f 72 8, treeNodes := f 88 8 / 320, mapOff := f 128 8, mapLen := f 136 8, blockBytes := bytes, nb := s.blockCount n bytes
      key0 := 0, key1 := 0, nodes := [], step := 0, boundary := s.hourCount, clock := 0, plan := none, view := none, records := [] }
    else none)

/-! ## Records in memory (R382, R393, R397) -/

/-- log2(e) times 2 to the 256, rounded down. -/
def log2E : Nat := 167052672916848388242985626561247531987276682633131050150846402744536260568207

/-- log2(e) / TEMPERATURE rounded to the nearest FP32 number, ties to even, and whether it is beyond the largest finite one. -/
def invTemp (temp : Nat) : Nat × Bool :=
  let v := decodeElem 10 temp
  toFloat 10 (2 * (log2E * 2 ^ 32 / v.m.natAbs : Nat) + 1) (-(289 : Int) - v.e) none

/-- INV_TEMP of a request; where the quotient is beyond FP32 the spec states no value, and it is free (log entry 4). -/
def State.invTempOf (s : State) (r : Request) : Nat × State :=
  if r.greedy then (0, s)
  else let x := invTemp r.temp; if x.2 then (s.freeNat 32, s.drawn) else (x.1, s)

/-- SALT of output token `index` (R397). -/
def saltOf (seed index : Nat) : Nat := Nat.xor (seed % 2 ^ 32) (index * 0x9E3779B9 % 2 ^ 32)

/-- The first 21 bytes of a slot's record (Table 15-2); of an idle slot, zeros. -/
def slotRecord (r : Option Request) (inv : Nat) : List Byte :=
  match r with
  | none => List.replicate 21 0
  | some r =>
    let k := r.tokens.length
    let pre := decide (r.state = .prefill ∨ r.state = .joining)
    let active := decide (r.state = .decode)
    leBytes 4 (r.tokens.getLastD 0) ++ leBytes 4 (if k = 0 then 0 else r.prompt.length + k - 1) ++ leBytes 4 (saltOf r.seed k) ++ leBytes 4 inv
      ++ leBytes 2 r.adapter ++ leBytes 2 r.topK
      ++ leBytes 1 ((if active then 1 else 0) + (if r.greedy then 2 else 0) + (if pre then 4 else 0))

/-- The prefill rows of the step: token, position, slot, last, in the order of R393. -/
def prefillRows (l : List Request) : List (Nat × Nat × Nat × Bool) :=
  (l.map (fun r =>
    if (r.state = .prefill ∨ r.state = .joining) ∧ !r.freed then
      (List.range r.now).map (fun i =>
        let p := 64 * r.matched.length + r.rows + i
        (r.prompt.getD p 0, p, r.slot.getD 0, p + 1 == r.prompt.length))
    else [])).flatten

/-- The 11 bytes of a prefill row's record (Table 15-2). -/
def prefillRecord (x : Option (Nat × Nat × Nat × Bool)) : List Byte :=
  match x with
  | none => List.replicate 11 0
  | some (tok, pos, slot, last) => leBytes 4 tok ++ leBytes 4 pos ++ leBytes 2 slot ++ leBytes 1 (if last then 3 else 1)

/-- The state with bytes written at a program-relative offset on every die that partition `n` uses. -/
def State.storeAll (s : State) (n off : Nat) (bs : List Byte) : State :=
  (s.diesOf n).foldl (fun s d => s.store (s.shmAddr n d off) bs) s

/-- The state with every slot and prefill-row record of partition `n` written for a step with these requests (R382). -/
def State.writeRecords (s : State) (n : Nat) (v : Serve) (l : List Request) : State :=
  let s := (List.range v.slots).foldl (fun s i =>
    let r := l.find? (fun r => r.slot == some i && !r.freed)
    let x := match r with | some r => s.invTempOf r | none => (0, s)
    x.2.storeAll n (v.slotArea + 64 * i) (slotRecord r x.1)) s
  let rows := prefillRows l
  (List.range v.rows).foldl (fun s i => s.storeAll n (v.prefillArea + 16 * i) (prefillRecord rows[i]?)) s

/-- The state with STEP of card 0 of every stream of partition `n` patched (R383). -/
def State.patchStep (s : State) (n k : Nat) : State :=
  (s.lcs n).foldl (fun s g => if s.streamLen g = 0 then s else s.store (s.cardAddr g 0 + 208) (leBytes 4 k)) s

/-! ## Patches of cards (R212, Table 7-13) -/

/-- A card as stored, with its descriptors relative to partition `n` again: what relocation changed in them undone (R211). -/
def State.unrelocDescs (s : State) (n card : Nat) : Nat :=
  (List.range 4).foldl (fun c i =>
    let desc := cardDesc c i
    if !slotUsed c i || descRemote desc then c
    else
      let g := if cardOp c = 4 ∧ i = 1 then ((s.coreOf n (((descLcs c i)[0]?).getD 0)).getD 0) else descLc desc
      let at' := 640 + 256 * i
      setCardF (setCardF c (at' + 44) 7 ((s.lcs n).idxOf g)) at' 32 (descOff desc + 2 ^ 32 - s.levelBase n (g / 16) (descLevel desc))) card

/-- A value fits a field's width. -/
def fitsIn (v w : Nat) : Bool := v < 2 ^ w

/-- One entry applied to the card it names (Table 7-13): the card as it will stand, or `none` where the entry is refused. `own` is
the logical core of the stream. -/
def State.patchCard (s : State) (n own card sel v : Nat) : Option Nat :=
  let i := sel % 4
  let at' := 640 + 256 * i
  let check (raw : Nat) : Bool := descFieldsOk (cardDesc raw i) && s.roleOk n own raw i && s.extentOk n raw i && (cardOp raw != 1 || tilesWhole raw)
  if sel < 4 then
    let raw := setCardF (s.unrelocDescs n card) at' 32 v
    let desc := cardDesc card i
    let g := descLc desc
    let base := if descRemote desc then 0 else s.levelBase n (g / 16) (descLevel desc)
    if fitsIn v 32 && slotUsed card i && check raw then some (setCardF card at' 32 (v + base)) else none
  else if sel < 8 then
    let raw := setCardF (s.unrelocDescs n card) (at' + 51) 10 v
    if fitsIn v 10 && slotUsed card i && check raw && s.peersOk n [raw] then some (setCardF card (at' + 51) 10 v) else none
  else if sel < 12 then (if fitsIn v 32 then some (setCardF card (128 + 64 * i) 32 v) else none)
  else if sel < 16 then (if fitsIn v 32 then some (setCardF card (384 + 64 * i) 32 v) else none)
  else if sel = 16 then
    if !(fitsIn v 32) then none
    else if cardOp card = 1 then some (setCardF card (1664 + 64) 32 v)
    else if cardOp card = 2 then some (setCardF card (1664 + 256) 32 v) else none
  else if sel = 17 then (if fitsIn v 32 && cardOp card == 7 then some (setCardF card 1664 32 v) else none)
  else none

/-- The state after one entry of a patch set of partition `n`, or `none` where it is refused (R212, R346). -/
def State.patchOne (s : State) (n : Nat) (e : PatchEntry) : Option State :=
  match s.coreOf n e.lc with
  | none => none
  | some g =>
    if e.rsv ≠ 0 ∨ s.streamLen g ≤ e.pos then none
    else (s.patchCard n e.lc (s.cardAt g e.pos) e.selector e.value).map (fun c => s.store (s.cardAddr g e.pos) (leBytes 256 c))

/-- Block and place within it of token `p` of a request (R385). -/
def Request.kvPlace (r : Request) (p : Nat) : Nat × Nat := ((r.matched ++ r.blocks).getD (p / 64) 0, p % 64)

/-- Where every row of the step writes its KV: the slots' decode rows, then the prefill rows; of an inactive row, in the scratch
block (R382, R385). -/
def rowPlaces (v : Serve) (l : List Request) : List (Nat × Nat) :=
  let rows := prefillRows l
  (List.range v.slots).map (fun i =>
    match l.find? (fun r => r.slot == some i && !r.freed && r.state == .decode) with
    | some r => r.kvPlace (r.prompt.length + r.tokens.length - 1)
    | none => (0, 0))
  ++ (List.range v.rows).map (fun i =>
    match rows[i]? with
    | some x => ((l.find? (fun r => r.slot == some x.2.2.1 && !r.freed)).map (fun r => r.kvPlace x.2.1)).getD (0, 0)
    | none => (0, 0))

/-- The patches that the preparation of a step stages: KV write offsets for every row, context descriptors and sampling seeds of
the admitted requests (R383, R397). An empty map lists nothing. -/
def State.stagePatches (s : State) (n : Nat) (v : Serve) (l : List Request) : List PatchEntry :=
  let joined := l.filter (fun r => r.state == .joining)
  if v.mapLen = 0 then []
  else Config.patchMap (s.rdBytes (s.shmAddr n (s.homeDie n) v.mapOff) v.mapLen) (rowPlaces v l)
    (joined.map (fun r => (r.slot.getD 0, r.matched ++ r.blocks))) (joined.map (fun r => (r.slot.getD 0, r.seed / 2 ^ 32)))

/-- The state with staged patches of partition `n` applied to its cards; an entry that R212 does not allow changes nothing. -/
def State.patchAll (s : State) (n : Nat) (l : List PatchEntry) : State := l.foldl (fun s e => (s.patchOne n e).getD s) s

/-! ## The prefix tree (R394-R396) -/

/-- The chain value of a block of 64 tokens (R394). -/
def chainValue (v : Serve) (tag : Nat) (prev : Option Nat) (toks : List Nat) : Nat :=
  siphash24 (BitVec.ofNat 64 v.key0) (BitVec.ofNat 64 v.key1)
    (leBytes 8 (prev.getD tag) ++ (toks.map (leBytes 4)).flatten)

/-- The node that holds a block of tokens under a parent. -/
def findNode (nodes : List Node) (chain tag : Nat) (parent : Option Nat) (toks : List Nat) : Option Node :=
  nodes.find? (fun x => x.chain == chain && x.tag == tag && x.parent == parent && x.tokens == toks)

/-- The blocks that match a token sequence, at most `k` (R394). -/
def walkTree (v : Serve) (nodes : List Node) (tag : Nat) : Nat → Option Nat → Option Nat → List Nat → List Nat
  | 0, _, _, _ => []
  | k + 1, prev, parent, toks =>
    let b := toks.take 64
    let h := chainValue v tag prev b
    match findNode nodes h tag parent b with
    | none => []
    | some x => x.block :: walkTree v nodes tag k (some h) (some x.block) (toks.drop 64)

/-- The matched blocks of a request (R394). -/
def Request.lookup (r : Request) (v : Serve) (nodes : List Node) : List Nat :=
  if r.share then walkTree v nodes r.tag ((r.prompt.length - 1) / 64) none none r.prompt else []

/-- Blocks of a sequence from block `i` on enter the tree where they are the request's own and there is room (R395); the walk
ends at a block that is neither in the tree nor can enter it. -/
def growTree (v : Serve) (r : Request) : Nat → Nat → Option Nat → Option Nat → List Nat → List Node → List Node
  | 0, _, _, _, _, nodes => nodes
  | k + 1, i, prev, parent, toks, nodes =>
    let b := toks.take 64
    let h := chainValue v r.tag prev b
    match findNode nodes h r.tag parent b with
    | some x => growTree v r k (i + 1) (some h) (some x.block) (toks.drop 64) nodes
    | none =>
      let m := r.matched.length
      match (if m ≤ i ∧ nodes.length < v.treeNodes then r.blocks[i - m]? else none) with
      | none => nodes
      | some own => growTree v r k (i + 1) (some h) (some own) (toks.drop 64) (nodes ++ [⟨own, h, r.tag, parent, b, v.clock⟩])

/-- KV rows of a request that have been written. -/
def Request.rowsWritten (r : Request) : Nat :=
  if r.tokens.isEmpty then 64 * r.matched.length + r.rows else r.prompt.length + r.tokens.length - 1

/-- The tree after the blocks of a request that are complete have entered it (R395). -/
def Request.enter (r : Request) (v : Serve) (nodes : List Node) : List Node :=
  if r.cache && r.slot.isSome && !r.freed then
    growTree v r (r.rowsWritten / 64) 0 none none (r.prompt ++ r.tokens) nodes
  else nodes

/-- The request holds its slot and blocks. -/
def Request.holds (r : Request) : Bool := r.slot.isSome && !r.freed
/-- Blocks that requests hold a reference to. -/
def heldBlocks (l : List Request) : List Nat := ((l.filter Request.holds).map (fun r => r.matched ++ r.blocks)).flatten
/-- KV usage (R386). -/
def kvUsage (l : List Request) (nodes : List Node) : Nat :=
  nodes.length + (((l.filter Request.holds).map (fun r => (r.blocks.filter (fun b => !(nodes.any (fun x => x.block == b)))).length)).sum)
/-- The free blocks, ascending (R386). -/
def freeBlocks (v : Serve) (l : List Request) (nodes : List Node) : List Nat :=
  let held := heldBlocks l
  (List.range (v.nb - 1)).filterMap (fun i => if held.contains (i + 1) || nodes.any (fun x => x.block == i + 1) then none else some (i + 1))

/-- The leaf to reclaim next: unreferenced, least recently used, lowest block number (R396). -/
def nextLeaf (held : List Nat) (nodes : List Node) : Option Node :=
  (nodes.filter (fun x => !held.contains x.block && !(nodes.any (fun y => y.parent == some x.block)))).foldl (fun acc x =>
    match acc with
    | none => some x
    | some y => if x.used < y.used ∨ (x.used = y.used ∧ x.block < y.block) then some x else some y) none

/-- The tree after at most `k` leaves have been reclaimed. -/
def reclaim (held : List Nat) : Nat → List Node → List Node
  | 0, nodes => nodes
  | k + 1, nodes =>
    match nextLeaf held nodes with
    | none => nodes
    | some x => reclaim held k (nodes.filter (fun y => y.block != x.block))

/-! ## Admission (R390-R393) -/

/-- The package's Noon frequency in MHz (R418). -/
def State.noonMHz (s : State) : Nat := 400 + 25 * s.f32 Reg.clkNoon 8 8

/-- Prompt rows that a request with `m` matched blocks has to process. -/
def Request.promptRows (r : Request) (m : Nat) : Nat := r.prompt.length - 64 * m
/-- Prompt rows that a request in PREFILL still has to process. -/
def Request.rowsLeft (r : Request) : Nat := r.promptRows r.matched.length - r.rows

/-- What judging a queue needs to know (R390-R392): the KV quota, the time of the window in ticks of 20 ns, the Noon frequency in
MHz, HOUR_LEN, the Hours to the next step boundary, whether the window ends a step, how many admissions the preparation has
time for (R384), and the adapter slots that are not open. -/
structure Judge where
  quota : Nat
  tick : Nat
  mhz : Nat
  hourLen : Nat
  hours : Nat
  boundary : Bool
  fit : Nat
  closed : List Nat

/-- How far a queue has been judged. -/
structure Judged where
  all : List Request
  nodes : List Node
  blocked : Bool
  queued : Nat
  fit : Nat
  refused : List (Request × Nat × Nat)

/-- The prediction exceeds the deadline (R392). -/
def Judge.late (j : Judge) (v : Serve) (r : Request) (ahead m : Nat) : Bool :=
  r.deadline != 0 &&
    decide (r.deadline * 50 * j.mhz < (j.tick - r.takenAt) * j.mhz
      + 50 * ((j.hours + ceilDiv (ahead + r.promptRows m) v.rows * v.stepHours) * j.hourLen))

/-- One request of the queue judged (R390, R404). -/
def Judge.one (j : Judge) (v : Serve) (x : Judged) (r : Request) : Judged :=
  let hits := r.lookup v x.nodes
  let m := hits.length
  let need := ceilDiv (min (r.prompt.length + r.maxNew) v.maxCtx) 64 - m
  let usage := kvUsage x.all x.nodes
  let drop (st why : Nat) : Judged :=
    { x with all := x.all.filter (fun y => !(y.cmdId == r.cmdId && y.part == r.part)), refused := x.refused ++ [(r, st, why)] }
  if j.closed.contains r.adapter then drop 0x24 5
  else if j.quota != 0xFFFFFF && j.quota < usage + need then drop 0x21 2
  else if v.nb - 1 - m < need then drop 0x22 3
  else if j.late v r x.queued m then drop 0x22 4
  else
    let wait : Judged := { x with blocked := true, queued := x.queued + r.promptRows m }
    let slot := (List.range v.slots).find? (fun i => !(x.all.any (fun y => y.holds && y.slot == some i)))
    match slot with
    | none => wait
    | some i =>
      if x.blocked || !j.boundary || x.fit = 0 then wait
      else
        let held := heldBlocks x.all ++ hits
        let nodes := reclaim held (need - (freeBlocks v x.all x.nodes).length) x.nodes
        let free := freeBlocks v x.all nodes
        if free.length < need then wait
        else
          let nodes := nodes.map (fun y => if hits.contains y.block then { y with used := v.clock } else y)
          let r' := { r with state := .joining, matched := hits, blocks := free.take need, slot := some i, rows := 0, now := 0 }
          { x with all := x.all.map (fun y => if y.cmdId = r.cmdId ∧ y.part = r.part then r' else y), nodes := nodes
                   queued := x.queued + r.promptRows m, fit := x.fit - 1 }

/-- The queue of a partition judged in taking order (R390). -/
def Judge.run (j : Judge) (v : Serve) (l : List Request) (nodes : List Node) : Judged :=
  (l.filter (fun r => decide (r.state = .queued))).foldl (j.one v)
    { all := l, nodes := nodes, blocked := false
      queued := ((l.filter (fun r => decide (r.state = .prefill ∨ r.state = .joining) && !r.freed)).map Request.rowsLeft).sum
      fit := j.fit, refused := [] }

/-- Rows of the prefill lane given out in order of admission (R393). -/
def giveRows : Nat → List Request → List Request
  | _, [] => []
  | k, r :: t =>
    if (r.state = .prefill ∨ r.state = .joining) ∧ !r.freed then
      let x := min r.rowsLeft k
      { r with now := x } :: giveRows (k - x) t
    else r :: giveRows k t

/-- The KV quota in the settings that the next window will hold, as they stand now (R391): staged values, then the change sets
that name that Hour. -/
def State.foreseenKv (s : State) (n : Nat) : Nat :=
  let a := Reg.topPartQuota n
  let sets := s.host.sets.filter (fun c => !c.planned && (c.target == 0 || c.target == s.hourCount + 1))
  let last := ((sets.map (·.entries)).flatten).foldl (fun acc e => if e.addr = a then some e.value else acc) none
  fld (last.getD (s.nextWord a)) 0 24

/-- The adapter slots that are not open to admission: closed, not loaded, or not yet open (R371, R388). -/
def State.slotOpen (s : State) (n slot : Nat) : Bool :=
  slot == 0xFFFF || ((s.adapter n slot).isSome && !s.loader.unloads.any (fun x => x.1 == n && x.2.1 == slot)
    && !s.loader.opening.any (fun x => x.1 == n && x.2 == slot))

/-- Adapter slots that queued requests of a partition name and that are closed (R404). -/
def State.closedSlots (s : State) (n : Nat) : List Nat := ((s.requestsOf n).map (·.adapter)).filter (fun a => !s.slotOpen n a)

/-! ## Ends of requests (R401-R406, Table 15-7) -/

/-- The state after a request has completed: it is no longer active and its SUBMIT completes with Table 15-7's results. -/
def State.endRequest (s : State) (r : Request) (status reason : Nat) : State :=
  let s := { s with serving := { s.serving with
    requests := s.serving.requests.filter (fun x => !(x.part == r.part && x.cmdId == r.cmdId))
    past := s.serving.past ++ [(r.part, r.cmdId)] } }
  let s := if status = 0 ∨ status = 0x31 then s.count64 Reg.srvCount0 32 32 1 else s
  let s := if status = 0x30 then s.count64 Reg.srvCount0 0 16 1 else s
  let s := if status = 0x55 then s.set32 Reg.srvStatus 2 else s
  let s := if reason = 4 then (s.set32 Reg.srvStatus 1).count64 Reg.srvCount1 16 16 1 else s
  let r0 := r.written + 64 * r.matched.length * 2 ^ 32
  let r1 := r.blocks.length + reason * 2 ^ 32 + (r.slot.getD 0xFFFF) * 2 ^ 40
  s.complete 65 r.cmdId status r0 r1

/-- The state after the requests of partition `n` whose end is decided and whose records are written have completed. -/
def State.finishRequests (s : State) (n : Nat) : State :=
  let waits := match s.serve n with | some v => v.records.map (fun (x : TokenRec) => x.cmdId) | none => []
  (s.requestsOf n).foldl (fun s r =>
    if r.state = .ending ∧ !waits.contains r.cmdId then s.endRequest r (r.ending.getD 0) 0 else s) s

/-- The state in which every active request of a partition ends with ENDED_BY_STOP (R406); what was prepared is withdrawn. -/
def State.stopRequests (s : State) (n : Nat) : State :=
  let s := s.setRequests (s.serving.requests.map (fun r =>
    if r.part = n ∧ r.state ≠ .ending then { r with state := .ending, freed := true, ending := some 0x32, held := none } else r))
  let s := match s.serve n with | some v => s.setServe n (some { v with plan := none }) | none => s
  s.finishRequests n

/-! ## SUBMIT and CANCEL (R387, R388, R402, R403) -/

/-- The fields of a SUBMIT are in range (Table 15-4), apart from what the serving table bounds. -/
def submitFieldsOk (d : Desc) : Bool :=
  let temp := d.f 28 4
  d.f 8 1 < 64 && d.f 9 1 < 8 && (d.f 10 2 ≤ 255 || d.f 10 2 == 0xFFFF) && 1 ≤ d.f 12 4 && d.f 12 4 ≤ 2 ^ 20
    && 1 ≤ d.f 24 4 && d.f 24 4 ≤ 2 ^ 20 && (bitAt (d.f 9 1) 2 || (temp != 0 && temp < 0x7F800000))
    && 4 ≤ d.f 48 1 && d.f 48 1 ≤ 16 && d.f 49 1 == 0

/-- TOP_K is one that the program allows (Table 15-5 check 1). -/
def topKOk (v : Option Serve) (k : Nat) : Bool :=
  match v with | some v => k == 0 || (bitAt v.flags 1 && k ≤ v.vocab) | none => true

/-- SUBMIT: the checks of Table 15-5, in order, and the request joins its queue. `prompt` is what reading the prompt gave. -/
def submit (d : Desc) (prompt : HostRead) (tick : Nat) (s : State) : State :=
  let n := d.f 8 1
  let len := d.f 24 4
  let done (st why : Nat) (s : State) : State := s.complete 65 d.cmdId st 0 (why * 2 ^ 32 + 0xFFFF * 2 ^ 40)
  let active := s.serving.requests
  let v := if s.pstate n = 3 then s.serve n else none
  if !submitFieldsOk d || active.any (fun r => r.part == n && r.cmdId == d.cmdId) || !topKOk v (d.f 50 2) then done 0x11 0 s
  else if d.f 16 8 % 4 ≠ 0 ∨ d.f 40 8 % 4096 ≠ 0 ∨ d.f 56 8 % 8 ≠ 0 then done 0x16 0 s
  else match v with
    | none => done 0x24 6 s
    | some v =>
      if !s.slotOpen n (d.f 10 2) then done 0x24 5 s
      else if v.maxCtx ≤ len then done 0x31 0 (s.count64 Reg.srvCount0 32 32 1)
      else if 4096 ≤ active.length then done 0x20 0 ((s.set32 Reg.srvStatus 0).count64 Reg.srvCount0 16 16 1)
      else if s.f64 (Reg.topPartQuota n) 24 13 < (s.requestsOf n).length + 1 then done 0x21 1 s
      else
        let r : Request := {
          cmdId := d.cmdId, part := n, share := bitAt (d.f 9 1) 0, cache := bitAt (d.f 9 1) 1, greedy := bitAt (d.f 9 1) 2
          adapter := d.f 10 2, tag := match s.adapter n (d.f 10 2) with | some i => leNat (i.digest.take 8) | none => 0
          maxNew := d.f 12 4
          prompt := match prompt with | .bytes b => (List.range len).map (fun i => leNat ((b.drop (4 * i)).take 4)) | _ => []
          temp := d.f 28 4, seed := d.f 32 8, outAddr := d.f 40 8, outLog2 := d.f 48 1, topK := d.f 50 2, deadline := d.f 52 4
          headAddr := d.f 56 8, takenAt := tick, state := .queued, matched := [], blocks := [], slot := none, freed := false
          rows := 0, now := 0, tokens := [], written := 0, head := 0, held := none, cancel := false, ending := none }
        let s := s.setRequests (active ++ [r])
        let s := s.sf64 Reg.srvActive 32 13 (max (s.f64 Reg.srvActive 32 13) (active.length + 1))
        match prompt with
        | .bytes _ => s
        | .badList => s.endRequest r 0x16 0
        | .failed => s.endRequest r 0x57 0

/-- CANCEL (R402, R403). A natural end whose records are not yet written gives way to the cancel. -/
def cancel (d : Desc) (s : State) : State :=
  let n := d.f 8 1
  let id := d.f 12 4
  let done (k : Nat) (s : State) : State := s.complete 65 d.cmdId 0 k 0
  let plan := match s.serve n with | some v => v.plan | none => none
  if 64 ≤ n ∨ !(d.zero 9 12) ∨ !(d.zero 16 64) then s.complete 65 d.cmdId 0x11 0 0
  else match (s.requestsOf n).find? (fun r => r.cmdId == id) with
    | none => done (if s.serving.past.contains (n, id) then 1 else 2) s
    | some r =>
      let joining := match plan with | some p => p.requests.any (fun x => x.cmdId == id && decide (x.state = .joining)) | none => false
      let waits := match s.serve n with | some v => v.records.any (fun x => x.cmdId == id) | none => false
      let put (r' : Request) (s : State) : State :=
        s.setRequests (s.serving.requests.map (fun x => if x.part = n ∧ x.cmdId = id then r' else x))
      let dropRecords (s : State) : State :=
        match s.serve n with
        | some v => s.setServe n (some { v with records := v.records.filter (fun x => x.cmdId != id) })
        | none => s
      if r.state = .queued ∧ !joining then done 0 (s.endRequest { r with cancel := true } 0x30 0)
      else if r.state = .ending then
        if waits && (r.ending == some 0 || r.ending == some 0x31) then
          done 0 ((dropRecords (put { r with cancel := true, ending := some 0x30 } s)).finishRequests n)
        else done 1 s
      else if r.ending = some 0x55 then done 1 s
      else done 0 (dropRecords (put { r with cancel := true, held := none } s))

/-! ## The step boundary (R383, R384) -/

/-- The key of a counter of CL0 of die `d` in partition `n`'s window (R218). -/
def State.ctr0 (s : State) (n d i : Nat) : Nat := flagKey d 0 (s.f64 (Reg.cdFlagwin d n) 32 8 + i)
/-- Cores of partition `n` on die `d`. -/
def State.coresOn (s : State) (n d : Nat) : Nat := ((s.lcs n).filter (fun g => g / 16 == d)).length

/-- Entries of a request's output ring that hold records the host has not consumed, in the engine's view (R330). -/
def Request.unread (r : Request) : Nat := (r.written + 2 ^ r.outLog2 - r.head % 2 ^ r.outLog2) % 2 ^ r.outLog2
/-- The engine's view shows a free entry. -/
def Request.room (r : Request) : Bool := r.unread < 2 ^ r.outLog2 - 1

/-- The request after the engine has read its head, if its own view shows no free entry; a head that shows more consumed than
written counts as the value read before and is captured (R400). -/
def State.readHead (s : State) (heads : List (Nat × Nat)) (r : Request) : State × Request :=
  if r.room then (s, r)
  else match heads.find? (fun x => x.1 == r.cmdId) with
    | none => (s, r)
    | some (_, h) =>
      if 2 ^ r.outLog2 ≤ h ∨ r.unread < (h + 2 ^ r.outLog2 - r.head) % 2 ^ r.outLog2 then
        let x := s.freeNat 64
        (s.drawn.capture (fld x 0 40) (fld x 40 5) (fld x 45 4) (bitAt x 49), r)
      else (s, { r with head := h })

/-- A request after the step that has just completed (R389, R393, R400-R403), with the record that its token gives. -/
def Request.advance (v : Serve) (token : Nat) (r : Request) : Request × List TokenRec :=
  if r.freed ∨ r.slot.isNone ∨ r.state = .ending then (r, [])
  else if r.cancel then ({ r with state := .ending, ending := some 0x30, held := none, now := 0,
                                  rows := r.rows + r.now }, [])
  else if r.state = .paused then
    match r.held with
    | some x => if r.room then ({ r with held := none, state := if r.ending.isSome then .ending else .decode }, [x]) else (r, [])
    | none => ({ r with state := .decode }, [])
  else
    let r := { r with rows := r.rows + r.now, now := 0 }
    if r.state = .prefill ∧ 0 < r.rowsLeft then (r, [])
    else
      let i := r.tokens.length
      let stop := i + 1 == r.maxNew || v.stops.contains token
      let full := r.prompt.length + i + 1 == v.maxCtx
      let x : TokenRec := ⟨r.cmdId, token, i, v.step, stop || full⟩
      let r := { r with tokens := r.tokens ++ [token], ending := if stop then some 0 else if full then some 0x31 else none }
      if r.room then ({ r with state := if stop || full then .ending else .decode }, [x])
      else ({ r with state := .paused, held := some x }, [])

/-- Admissions that a preparation has time for: none where the bound of R384 exceeds PREP_NC at `mhz` even without a patch entry,
else `fit`, the number whose entries the bound leaves time for. -/
def Serve.admits (v : Serve) (mhz fit : Nat) : Nat := if (2000 + 10 * (v.slots + v.rows)) * mhz ≤ v.prepNc * 1000 then fit else 0

/-- STEP_BOUNDARY: OUT_READY of partition `n` has reached its count on every die. Ends and cancels are judged, the queue is
judged, the next step's records are written and READY_CTR advances. `heads` is what reading the head indexes gave, `fit` how
many admissions the patch entries leave time for (R384), `tick` the time of the window that the preparation reckons with. -/
def stepBoundary (n t tick fit : Nat) (heads : List (Nat × Nat)) (s : State) : State :=
  match s.serve n with
  | none => s
  | some v =>
    let dies := s.diesOf n
    if s.pstate n ≠ 3 ∨ v.plan.isSome ∨ s.suspended n ∨ !(dies.all (fun d => s.ctr (s.ctr0 n d v.outCtr) == s.coresOn n d)) then s
    else
      let late := (s.lcs n).any (fun g => (s.die (g / 16)).hold.isSome && s.seqPos g + 2 == s.streamLen g)
      let s := dies.foldl (fun s d => s.addCtr (s.ctr0 n d v.outCtr) t (2 ^ 32 - s.coresOn n d)) s
      let home := s.homeDie n
      let acc := (s.requestsOf n).foldl (fun (acc : State × List Request × List TokenRec) r =>
        let (s, r) := acc.1.readHead heads r
        let x := r.advance v (match r.slot with | some i => s.rdNat (s.shmAddr n home (v.slotArea + 64 * i + 24)) 4 | none => 0)
        (s, acc.2.1 ++ [x.1], acc.2.2 ++ x.2)) (s, [], [])
      let s := acc.1
      let paused := acc.2.1.any (fun r => r.state == .paused && (s.requestsOf n).any (fun y => y.cmdId == r.cmdId && y.state != .paused))
      let s := if paused then s.set32 Reg.srvStatus 3 else s
      let v := { v with clock := v.clock + 1 }
      let nodes := acc.2.1.foldl (fun nodes r => r.enter v nodes) v.nodes
      let quota := s.foreseenKv n
      let excess := (quota != 0xFFFFFF && quota < kvUsage acc.2.1 nodes) || bitAt (s.r32 (Reg.topPartStatus n)) 8
      let nodes := if excess then reclaim (heldBlocks acc.2.1) nodes.length nodes else nodes
      let j : Judge := ⟨quota, tick, s.noonMHz, s.hourLen, 0, true, v.admits s.noonMHz fit, s.closedSlots n⟩
      let x := j.run v acc.2.1 nodes
      let kept := x.refused.map (·.1)
      let reqs := giveRows v.rows (acc.2.1.map (fun r => (x.all.find? (fun y => y.cmdId == r.cmdId)).getD r))
      let s := s.setServe n (some { v with plan := some ⟨reqs.filter (fun r => !(kept.any (fun y => y.cmdId == r.cmdId))), x.nodes, acc.2.2, quota,
        s.stagePatches n v (reqs.map (fun r => if r.state = .ending then { r with freed := true } else r))⟩ })
      let s := s.writeRecords n v (reqs.map (fun r => if r.state = .ending then { r with freed := true } else r))
      let s := dies.foldl (fun s d => s.addCtr (s.ctr0 n d v.readyCtr) t (s.coresOn n d)) s
      if late then (s.set32 Reg.srvStatus 4).count64 Reg.srvCount1 0 16 1 else s

/-! ## The swap window (R390, R391, R395, R404, R405) -/

/-- The state after the refusals of a judgement have completed. -/
def State.refuseAll (s : State) (l : List (Request × Nat × Nat)) : State := l.foldl (fun s x => s.endRequest x.1 x.2.1 x.2.2) s

/-- The requests of a partition once what was prepared takes effect: requests not prepared stand as they are, and a cancel taken
since stands. -/
def commitRequests (p : Prepared) (l : List Request) : List Request :=
  l.map (fun r =>
    match p.requests.find? (fun y => y.cmdId == r.cmdId) with
    | none => r
    | some y =>
      if y.state = .joining then (if r.cancel then { y with state := .ending, ending := some 0x30, cancel := true, freed := true } else { y with state := .prefill })
      else if y.state = .ending then
        { y with freed := true, ending := if r.cancel && (y.ending == some 0 || y.ending == some 0x31) then some 0x30 else y.ending, cancel := r.cancel }
      else { y with cancel := r.cancel, held := if r.cancel then none else y.held })

/-- Step 8 for partition `n` in the window of Hour `h`, opened at tick `tick`; `ends` says whether the window ends a step of the
partition. -/
def State.serveWindow (s : State) (n h tick : Nat) (ends : Bool) : State :=
  match s.serve n with
  | none => s
  | some v =>
    if s.pstate n ≠ 3 then s
    else
      let judge (s : State) (v : Serve) (quota hours : Nat) (skip : List Nat) : State :=
        let l := (s.requestsOf n).map (fun r => if skip.contains r.cmdId then
          (match v.plan with | some p => (p.requests.find? (fun y => y.cmdId == r.cmdId)).getD r | none => r) else r)
        let j : Judge := ⟨quota, tick, s.noonMHz, s.hourLen, hours, false, 0, s.closedSlots n⟩
        s.refuseAll (j.run v l v.nodes).refused
      match (if ends then v.plan else none) with
      | some p =>
        let l := commitRequests p (s.requestsOf n)
        let joined := ((p.requests.filter (fun r => decide (r.state = .joining))).map (fun r => r.matched.length)).sum
        let s := s.setRequests (s.serving.requests.map (fun r => if r.part = n then (l.find? (fun y => y.cmdId == r.cmdId)).getD r else r))
        let s := s.count64 Reg.srvCount1 32 32 joined
        let cancelled := (l.filter (fun r => r.cancel)).map (·.cmdId)
        let v := { v with plan := none, nodes := p.nodes, records := v.records ++ p.records.filter (fun x => !cancelled.contains x.cmdId),
                          step := v.step + 1, boundary := h, view := none }
        let s := s.setServe n (some v)
        let s := judge s v p.quota 0 []
        ((s.patchStep n v.step).patchAll n p.patches).finishRequests n
      | none =>
        let joins := match v.plan with
          | some p => (p.requests.filter (fun r => decide (r.state = .joining))).map (·.cmdId)
          | none => []
        let s := s.setServe n (some { v with view := none })
        judge s v (v.view.getD (s.f64 (Reg.topPartQuota n) 0 24)) (max 1 (v.boundary + v.stepHours - h)) joins

/-- Step 5 for partition `n` (R59): unreferenced blocks of the prefix cache are reclaimed where the quota is exceeded or OVER_KV
is set. Blocks that a prepared admission has matched stay. -/
def State.serveReclaim (s : State) (n : Nat) : State :=
  match s.serve n with
  | none => s
  | some v =>
    let l := s.requestsOf n
    let quota := s.f64 (Reg.topPartQuota n) 0 24
    if (quota != 0xFFFFFF && quota < kvUsage l v.nodes) || bitAt (s.r32 (Reg.topPartStatus n)) 8 then
      let held := heldBlocks l ++ (match v.plan with | some p => heldBlocks p.requests | none => [])
      let sweep (x : List Node) : List Node := reclaim held x.length x
      s.setServe n (some { v with nodes := sweep v.nodes, plan := v.plan.map (fun p => { p with nodes := sweep p.nodes }) })
    else s

/-- KV usage of partition `n` (R386). -/
def State.kvUsed (s : State) (n : Nat) : Nat :=
  match s.serve n with | some v => kvUsage (s.requestsOf n) v.nodes | none => 0

/-- The state in which the step of partition `n` that is reissued has its records again, and the requests that lost a block have
ended (R405). -/
def State.serveReissue (s : State) (n : Nat) : State :=
  match s.serve n with
  | none => s
  | some v =>
    let s := s.setRequests (s.serving.requests.map (fun r =>
      if r.part = n ∧ r.ending = some 0x55 then { r with state := .ending, freed := true, held := none } else r))
    let s := s.setServe n (some { v with records := v.records.filter (fun x => !((s.requestsOf n).any (fun r => r.cmdId == x.cmdId && r.ending == some 0x55))) })
    (s.writeRecords n v (s.requestsOf n)).finishRequests n

/-- The state after an uncorrectable error in the byte at offset `off` of the KV reserve of serving partition `n` on die `d`: the
block's node is removed, and the requests that refer to it end with KV_LOST at the reissue (R405). -/
def State.loseBlock (s : State) (n d off : Nat) : State :=
  match s.serve n with
  | none => s
  | some v =>
    let bytes := v.blockBytes.getD d 0
    if bytes = 0 then s
    else
      let b := (off - (s.kvReserve n d).1) / bytes
      let hit (r : Request) : Bool := r.holds && (r.matched.contains b || r.blocks.contains b)
      let planned := match v.plan with | some p => p.requests.any hit | none => false
      let any := planned || (s.requestsOf n).any hit
      let s := s.setRequests (s.serving.requests.map (fun r =>
        if r.part = n ∧ hit r ∧ r.state ≠ .ending then { r with ending := some 0x55 } else r))
      let cut (x : List Node) : List Node := x.filter (fun y => y.block != b)
      let s := s.setServe n (some { v with nodes := cut v.nodes, plan := v.plan.map (fun p => { p with nodes := cut p.nodes }) })
      if any then s.abortStep n else s

/-- The serving registers' level fields after a window (R407). -/
def State.serveLevels (s : State) : State :=
  let s := s.sf64 Reg.srvActive 0 13 s.serving.requests.length
  (List.range 64).foldl (fun s n =>
    match s.serve n with
    | none => (s.w64 (Reg.srvPart n) 0).w64 (Reg.srvPartKv n) 0
    | some v =>
      let l := s.requestsOf n
      let queued := (l.filter (fun r => decide (r.state = .queued))).length
      let held := (l.filter Request.holds).length
      let refs := heldBlocks l
      let s := s.w64 (Reg.srvPart n) (v.slots - held + held * 2 ^ 16 + queued * 2 ^ 32)
      s.w64 (Reg.srvPartKv n) ((freeBlocks v l v.nodes).length + (v.nodes.filter (fun x => !refs.contains x.block)).length * 2 ^ 32)) s

/-! ## Token records (R399, R400) -/

/-- The 16 bytes of a token record written as a request's `k`-th (Table 15-6). -/
def tokenEntry (x : TokenRec) (log2 k : Nat) : Nat :=
  x.token % 2 ^ 32 + x.index % 2 ^ 32 * 2 ^ 32 + x.step % 2 ^ 32 * 2 ^ 64 + (if x.last then 2 ^ 120 else 0)
    + (if k / 2 ^ log2 % 2 = 0 then 2 ^ 127 else 0)

/-- The state after one record has been written to its request's ring. -/
def State.writeRecord (s : State) (n : Nat) (x : TokenRec) : State :=
  match (s.requestsOf n).find? (fun r => r.cmdId == x.cmdId) with
  | none => s
  | some r =>
    let s := s.emit (.hostWrite (r.outAddr + 16 * (r.written % 2 ^ r.outLog2)) 16 (tokenEntry x r.outLog2 r.written))
    (s.tapToken n).setRequests (s.serving.requests.map (fun y =>
      if y.part = n ∧ y.cmdId = x.cmdId then { y with written := y.written + 1 } else y))

/-- TOKEN_RECORDS_WRITE: the records of partition `n`'s completed step are written, then the requests that ended complete. -/
def tokenRecordsWrite (n : Nat) (s : State) : State :=
  match s.serve n with
  | none => s
  | some v => ((v.records.foldl (fun s x => s.writeRecord n x) s).setServe n (some { v with records := [] })).finishRequests n

/-! ## START and the end of the streams (R185, R369, R380) -/

/-- START: the streams start at the Hour that TARGET_HOUR names, or the next where it has passed; a serving table is read, its
records are written for a step without requests and STEP is 0 (R380, R382, R383). -/
def startPart (n : Nat) (d : Desc) (s : State) : State :=
  let rid := n + 1
  let h := d.f 24 8
  let p := s.part n
  if !(d.zero 8 24) || !(d.zero 32 64) then s.complete rid d.cmdId 0x11 0 0
  else if s.pstate n ≠ 2 ∨ p.startCmd.isSome then s.complete rid d.cmdId 0x24 0 0
  else
    let run (s : State) : State := s.setPart n { p with startCmd := some d.cmdId, startAt := if h ≤ s.hourCount then 0 else h }
    match s.servingTable n with
    | none => run (s.setServe n none)
    | some none => s.complete rid d.cmdId 0x46 0 0
    | some (some v) =>
      let v := { v with key0 := s.freeNat 64, key1 := s.drawn.freeNat 64 }
      run (((s.drawn.drawn.setServe n (some v)).writeRecords n v []).patchStep n 0)

/-- The state after a STOP that waits has completed, `forced` or not (R369). -/
def State.completeStop (s : State) (n status : Nat) (forced : Bool) : State :=
  match (s.part n).stopCmd with
  | none => s
  | some (id, _) => (s.setPart n { s.part n with stopCmd := none }).complete (partRing n) id status (if forced then 1 else 0) 0

/-- The state in which partition `n` has returned to LOADED because its streams ended or a STOP took effect: START and STOP
complete with OK and its requests end (R185, R369, R406). -/
def State.returnLoaded (s : State) (n : Nat) (forced : Bool) : State :=
  let s := (s.lcs n).foldl (fun s g => s.idleCore g) (s.setPstate n 2)
  ((s.completeStop n 0 forced).completeStart n 0).stopRequests n

/-- STREAM_END: every core of RUNNING partition `n` has completed its END card (R185). -/
def streamEnd (n : Nat) (s : State) : State :=
  if s.pstate n = 3 ∧ (s.lcs n).all (fun g => s.coreEnded g) then s.returnLoaded n false else s

/-- The state with partition `n`'s flag windows written back from the copy taken at its step's opening; SNAPSHOT_RESTORED tells of it
(R234, R237). -/
def State.restoreFlags (s : State) (n : Nat) : State :=
  let s := s.makeCopies (fun e => e.2.1 == n)
  match (s.part n).snapshot with
  | none => s
  | some x =>
    let s := x.flags.foldl (fun s e => s.putFlag e.1 e.2) s
    let s := x.ctrs.foldl (fun s e => s.putCtr e.1 e.2) s
    (s.diesOf n).foldl (fun s d => s.set32 (Reg.cdFlagStatus d) 2) s

/-- The state after the step in flight of partition `n` has been abandoned (R369): nothing in flight is left, its transactions
have ended and its flag windows are as at the step's opening. -/
def State.abandonStep (s : State) (n : Nat) : State :=
  let s := (s.lcs n).foldl (fun s g => s.emptyCore g) s
  let s := (s.endPartTxns n).restoreFlags n
  match s.serve n with | some v => s.setServe n (some { v with plan := none }) | none => s

/-- FORCED_STOP: the STOP of partition `n` found no step boundary within 4,096 Hours and takes effect at the next (R369). -/
def forcedStop (n : Nat) (s : State) : State :=
  match (s.part n).stopCmd with
  | none => s
  | some (_, at') => if s.pstate n = 3 ∧ at' + 4096 < s.hourCount then (s.abandonStep n).returnLoaded n true else s

/-! ## Patch sets (R212, R213, R346) -/

/-- Entries of a patch set's list. -/
def patchEntries (b : List Byte) (count : Nat) : List PatchEntry :=
  (List.range count).map (fun i =>
    let f (lo k : Nat) : Nat := leNat ((b.drop (16 * i + lo)).take k)
    ⟨f 0 3, f 3 1, f 4 1, f 5 3, f 8 8⟩)

/-- PATCH_SET: the set waits for its window, or completes at once where it cannot apply. -/
def patchSet (n : Nat) (d : Desc) (list : HostRead) (s : State) : State :=
  let rid := n + 1
  let count := d.f 16 2
  let h := d.f 24 8
  let done (st : Nat) : State := s.complete rid d.cmdId st 0 0
  if count < 1 ∨ 1024 < count ∨ !(d.zero 18 24) ∨ !(d.zero 32 64) then done 0x11
  else if d.f 8 8 % 16 ≠ 0 ∨ 2 ^ 64 < d.f 8 8 + 16 * count then done 0x16
  else if s.pstate n < 2 then done 0x24
  else match list with
    | .badList => done 0x16
    | .failed => done 0x57
    | .bytes b => { s with host := { s.host with patches := s.host.patches ++
        [⟨rid, d.cmdId, if h ≤ s.hourCount then s.hourCount + 1 else h, patchEntries b count, s.hourCount⟩] } }

/-- Every core of partition `n` waits at an aligned HOUR_MARK (R212). -/
def State.allAligned (s : State) (n : Nat) : Bool := (s.lcs n).all (fun g => s.seqState g == 2)

/-- Step 8, after admissions: the patch sets that qualify in the window of Hour `h` apply (R212). -/
def State.applyPatches (s : State) (h : Nat) : State :=
  s.host.patches.foldl (fun s p =>
    let n := p.rid - 1
    let st := s.pstate n
    let gone' (s : State) : State := { s with host := { s.host with patches := s.host.patches.erase p } }
    if h < p.target then s
    else if st < 2 then (gone' s).complete p.rid p.cmdId 0x24 0 0
    else if st = 3 ∧ !s.allAligned n then s
    else match p.entries.foldl (fun acc e => acc.bind (fun s => s.patchOne n e)) (some s) with
      | some s' => (gone' s').complete p.rid p.cmdId 0 h 0
      | none => (gone' s).complete p.rid p.cmdId 0x15 0 0) s

/-- PATCH_TIMEOUT: the oldest patch set of partition `n` that found no qualifying window within 4,096 Hours of its target
completes (R212). -/
def patchTimeout (n : Nat) (s : State) : State :=
  match s.host.patches.find? (fun p => p.rid == n + 1 && p.target + 4096 ≤ s.hourCount) with
  | none => s
  | some p => ({ s with host := { s.host with patches := s.host.patches.erase p } }).complete p.rid p.cmdId 0x62 0 0

/-! ## Meanings -/

/-- SUBMIT. -/
def execSubmit (d : Desc) (prompt : HostRead) (tick : Nat) (s : State) : Host.Outcome State Fault Refusal := .next (submit d prompt tick s)
/-- CANCEL. -/
def execCancel (d : Desc) (s : State) : Host.Outcome State Fault Refusal := .next (cancel d s)
/-- STEP_BOUNDARY. -/
def execStepBoundary (n : Fin 64) (t tick fit : Nat) (heads : List (Nat × Nat)) (s : State) : Host.Outcome State Fault Refusal :=
  .next (stepBoundary n t tick fit heads s)
/-- TOKEN_RECORDS_WRITE. -/
def execTokenRecordsWrite (n : Fin 64) (s : State) : Host.Outcome State Fault Refusal := .next (tokenRecordsWrite n s)
/-- START. -/
def execStartPart (n : Fin 64) (d : Desc) (s : State) : Host.Outcome State Fault Refusal := .next (startPart n d s)
/-- STREAM_END. -/
def execStreamEnd (n : Fin 64) (s : State) : Host.Outcome State Fault Refusal := .next (streamEnd n s)
/-- FORCED_STOP. -/
def execForcedStop (n : Fin 64) (s : State) : Host.Outcome State Fault Refusal := .next (forcedStop n s)
/-- PATCH_SET. -/
def execPatchSet (n : Fin 64) (d : Desc) (list : HostRead) (s : State) : Host.Outcome State Fault Refusal := .next (patchSet n d list s)
/-- PATCH_TIMEOUT. -/
def execPatchTimeout (n : Fin 64) (s : State) : Host.Outcome State Fault Refusal := .next (patchTimeout n s)

end Sys2Proof.Machine
end

