-- ==== Sys2Proof/Machine/Ras.lean ====
section
/-!
DEFINITION. Errors in the memories, the scrubber, spare rows and the field fuses (06_memory_hierarchy.md R163, R173-R181;
14_model_images_and_loading.md R376; 22_electrical_mechanical.md R537).
-/

namespace Sys2Proof.Machine

/-! ## Reads (R163, R175) -/

/-- SHM_READ_REQUEST: a read of `n` lines from offset `off` of die `d`'s shared memory. The slice returns the lines. -/
def shmReadRequest (d off n : Nat) (upset : List (BitVec 37)) (s : State) : State :=
  let a := d * 2 ^ 36 + off / 32 * 32
  let s := (s.upset upset).noticed ((List.range (4 * n)).map (fun i => a + 8 * i))
  s.emit (.readData (32 * n) (leNat (s.rdBytes a (32 * n))))

/-- SCRUB_READ: the scrubber reads the line at an offset of a region of die `d` in an idle bank cycle, where SCRUB_IDLE lets it and the
line is the next of its walk (R175). -/
def scrubRead (d region off : Nat) (upset : List (BitVec 37)) (s : State) : State :=
  let s := s.upset upset
  let a := d * 2 ^ 36 + region * 2 ^ 32 + off
  let key := scrubUnit (s.physical a)
  if bitAt (s.r32 (Reg.cdRasCtl d)) 8 && lineInUnit a == s.scrubAt d key then s.scrubIdle d key else s

/-! ## Uncorrectable errors (R180, R181, Table 6-7) -/

/-- The partition on die `d` whose shared-memory range holds an offset. -/
def State.rangeOwner (s : State) (d off : Nat) : Option Nat :=
  (List.range 64).find? (fun n => s.hasCoreOn n d && s.levelBase n d 0 ≤ off && off < s.levelBase n d 0 + s.levelBound n d 0)

/-- The state after the outcome of an error in the word at an offset of die `d`'s shared memory, by where that word is stored; a
rewrite takes in the whole row. -/
def State.shmError (s : State) (d off a : Nat) : State :=
  let lines := rowLines (rowOf a).1
  let meets (e : Extent) : Bool := e.base < a / 8 * 8 + 8 && a / 8 * 8 < e.base + e.len
  let imgs := s.loader.images.filter (fun i => i.extents.any meets)
  let common := s.levelBase 0 d 3 ≤ off && off < s.levelBase 0 d 3 + s.levelBound 0 d 3
  let kv (n : Nat) : Bool := let r := s.kvReserve n d; r.1 ≤ off && off < r.1 + r.2
  if !imgs.isEmpty || common then
    let users := if imgs.isEmpty then (List.range 64).filter (fun n => s.hasCoreOn n d && 2 ≤ s.pstate n)
      else ((imgs.map s.repairParts).flatten).eraseDups
    let s := users.foldl (fun s n => s.abortStep n) s
    lines.foldl (fun s l => s.openRepairs l 32) s
  else match s.rangeOwner d off with
    | none => s
    | some n =>
      if s.pstate n = 3 ∧ (s.serve n).isSome ∧ kv n then s.loseBlock n d off
      else if 2 ≤ s.pstate n then s.recordStop n 0x52 .fault else s

/-- ECC_UNCORRECTABLE: the word at an offset of a region of die `d` fails correction; `feed` says that an engine's feed or scale
read found it. The word reads as poisoned from then on. -/
def eccUncorrectable (d region off : Nat) (feed : Bool) (s : State) : State :=
  let a := d * 2 ^ 36 + region * 2 ^ 32 + off
  let s := (s.setPoison a true).setSelfErr a true
  let s := ((s.set32 (Reg.cdMemStatus d) 6).count64 (Reg.cdRasCount d) 16 16 1).rasLast d 2 (a / 8 * 8)
  let own := if region = 0 then s.rangeOwner d off else s.owner (16 * d + coreOfOffset region off)
  let s := (s.memoryEvent d (own.getD 0xFF)).scheduleRemap d (rowOf (s.physical a)).1
  if region = 0 then s.shmError d off a
  else if region = 2 ∧ feed then s
  else
    let g := 16 * d + coreOfOffset region off
    if (s.core g).fenced ∨ s.hour.toFence.contains g then s
    else
      let s := { s with hour := { s.hour with toFence := s.hour.toFence ++ [g] } }
      match s.owner g with | some n => s.abortStep n | none => s

/-- REPAIR_ABANDON: no rewrite of a unit came within 4,096 Hours of its error (R376). -/
def repairAbandon (id : Nat) (s : State) : State :=
  match s.loader.repairs.find? (fun r => r.id == id && r.since + 4096 ≤ s.hourCount) with
  | some r => s.abandonRepair r
  | none => s

/-! ## The boot journal (R441) -/

/-- An entry of the boot journal is written (R441, Table 17-4). -/
def State.journal (s : State) (time step kind unit result count detail : Nat) : State :=
  let h := Reg.dawnJournalHead
  let a := Reg.dawnJournal (s.f32 h 0 10)
  let x := detail % 2 ^ 32 + count % 4 * 2 ^ 34 + result % 16 * 2 ^ 36 + unit % 2 ^ 12 * 2 ^ 40 + kind % 16 * 2 ^ 52
    + step % 2 ^ 8 * 2 ^ 56 + min time (2 ^ 32 - 1) * 2 ^ 64 + s.r32 Reg.dawnSeq * 2 ^ 96
  let s := if s.rWide a 4 = 0 then s else s.set32 h 10
  let s := (s.wWide a 4 x).sf32 h 0 10 (s.f32 h 0 10 + 1)
  s.sf32 Reg.jtagStatus 16 10 (s.f32 h 0 10)

/-! ## Fuse words (R178, R179, R296, R443, R462, R537, R538) -/

/-- The fuses with a mark of Table 17-5 for a unit (step 2^16 + UNIT_KIND 2^12 + UNIT). -/
def Fuses.mark (f : Fuses) (key : Nat) : Fuses :=
  let step := key / 2 ^ 16
  let kind := key / 2 ^ 12 % 16
  let unit := key % 2 ^ 12
  match step, kind with
  | 2, _ => { f with copyMgmt := true }
  | 4, _ => { f with altLoop := true }
  | 13, _ => { f with copyDisp := true }
  | 6, _ => { f with altDivider := setBit f.altDivider unit }
  | 7, _ => { f with moduleOos := if f.moduleOos.contains unit then f.moduleOos else f.moduleOos ++ [unit] }
  | _, 3 => { f with slotFailed := if f.slotFailed.contains unit then f.slotFailed else f.slotFailed ++ [unit] }
  | _, _ => { f with dieAbsent := setBit f.dieAbsent unit }

/-- The value of an INTEGRATION field (Table 18-3) and its width in bits; 0 bits where the number is reserved. -/
def Fuses.field (f : Fuses) (n : Nat) : Nat × Nat :=
  match n with
  | 0 => (f.debugLock, 2)
  | 1 => (f.partRules, 7)
  | 2 => (f.alarmPolicy, 10)
  | 7 => (if f.protLock then 1 else 0, 1)
  | _ => if n < 7 then (Tab.get (fun _ => 0) f.pins (n - 3), 384) else (0, 0)

/-- The fuses with bits of an INTEGRATION field blown. -/
def Fuses.blowField (f : Fuses) (n v : Nat) : Fuses :=
  let x := Nat.lor (f.field n).1 v
  match n with
  | 0 => { f with debugLock := x }
  | 1 => { f with partRules := x }
  | 2 => { f with alarmPolicy := x }
  | 7 => { f with protLock := x != 0 }
  | _ => { f with pins := Tab.put (fun _ => 0) f.pins (n - 3) x }

/-- The fuse words that give an INTEGRATION field a value, 56 bits each, lowest first: those that still lack a bit of it (R462). -/
def Fuses.wordsOf (f : Fuses) (n v : Nat) : List FuseWord :=
  (List.range (ceilDiv (f.field n).2 56)).filterMap (fun i =>
    let x := v / 2 ^ (56 * i) % 2 ^ 56
    if Nat.lor ((f.field n).1 / 2 ^ (56 * i) % 2 ^ 56) x = (f.field n).1 / 2 ^ (56 * i) % 2 ^ 56 then none else some (.field n i x))

/-- The state with the fuses themselves changed. -/
def State.setFuses (s : State) (f : Fuses) : State := { s with sec := { s.sec with fuses := f } }

/-- The state with a fuse word blown, valid bit and all. A full field of a die takes no more (R178, R462). -/
def State.blow (s : State) (w : FuseWord) : State :=
  let f := s.sec.fuses
  match w with
  | .field n i v => s.setFuses (f.blowField n (v * 2 ^ (56 * i)))
  | .row d r =>
    let x := s.die d
    s.setDie d { x with fieldRows := if x.fieldRows.contains r then x.fieldRows else (x.fieldRows ++ [r]).take 512 }
  | .hole d h =>
    let x := s.die d
    s.setDie d { x with fusedHoles := if x.fusedHoles.contains h then x.fusedHoles else (x.fusedHoles ++ [h]).take 64 }
  | .lane l => s.setFuses { f with lanes := if f.lanes.contains l then f.lanes else f.lanes ++ [l] }
  | .mark key => s.setFuses (f.mark key)
  | .svn t => s.setFuses (if t = 0 then { f with svnMgmt := min 64 (f.svnMgmt + 1) } else { f with svnDisp := min 64 (f.svnDisp + 1) })
  | .udsKill => s.setFuses { f with udsKill := true }

/-- A programming operation over fuse words in their order, and whether it came to its end. Each word is recorded before it is blown;
the one under way when the write is interrupted stays recorded, and the words after it are not begun (R538). -/
def State.blowWords (s : State) (ws : List FuseWord) (v : FuseSupply) : State × Bool :=
  match v with
  | .absent => (s, false)
  | .whole => (ws.foldl State.blow s, true)
  | .cut k =>
    match ws[k]? with
    | none => (ws.foldl State.blow s, true)
    | some w =>
      let s := (ws.take k).foldl State.blow s
      ({ s with sec := { s.sec with record := s.sec.record ++ [w] } }, false)

/-- The fuse words that wait in the field writes of R178, R179 and R296: remapped rows, holes and failed lanes. -/
def State.fieldWords (s : State) : List FuseWord :=
  let dies := ((List.range 8).map (fun d =>
    let x := s.die d
    (x.unrecorded.filter (fun r => !x.fieldRows.contains r)).map (FuseWord.row d) ++ (x.holes.filter (fun h => !x.fusedHoles.contains h)).map (FuseWord.hole d))).flatten
  dies ++ (upto 104 (fun l => s.f64 (Reg.tclLaneMap (l / 26)) (2 * (l % 26)) 2 == 2 && !s.sec.fuses.lanes.contains l)).map FuseWord.lane

/-- The state in which what has been recorded no longer waits; so does a row for which its die's field has no room (R178). -/
def State.fieldSettled (s : State) : State :=
  let s := (List.range 8).foldl (fun s d =>
    let x := s.die d
    if x.unrecorded.isEmpty then s
    else s.setDie d { x with unrecorded := if x.fieldRows.length < 512 then x.unrecorded.filter (fun r => !x.fieldRows.contains r) else [] }) s
  { s with dawn := { s.dawn with marks := s.dawn.marks.filter (fun k => s.sec.fuses.mark k != s.sec.fuses) } }

/-- A programming operation waits for VFUSE: VFUSE_EN rises. -/
def State.raiseVfuse (s : State) (who : Option Nat) : State :=
  { s.emit (.land 1 true) with sec := { s.sec with writing := some who } }

/-- The end of a programming operation: VFUSE_EN falls. -/
def State.dropVfuse (s : State) : State := { s.emit (.land 1 false) with sec := { s.sec with writing := none } }

/-- The field words that wait, and with `marks` the marks, are blown, `more` after them; marks that were made are journalled PERMANENT
(R443). -/
def State.burn (s : State) (marks : Bool) (more : List FuseWord) (vfuse : FuseSupply) (time : Nat) : State :=
  let keys := if marks then s.dawn.marks else []
  let s := (s.blowWords (s.fieldWords ++ keys.map FuseWord.mark ++ more) vfuse).1
  let made := keys.filter (fun k => s.sec.fuses.mark k == s.sec.fuses)
  (made.foldl (fun s k => s.journal time (k / 2 ^ 16) (k / 2 ^ 12 % 16) (k % 2 ^ 12) 5 3 0) s).fieldSettled

/-- Marks are made in step 14 of a Dawn and in Dusk (R443). -/
def State.markTime (s : State) : Bool :=
  s.power.dusk.isSome || (s.r32 Reg.dawnSeq != 0 && s.f32 Reg.dawnStatus 28 2 == 0 && s.f32 Reg.dawnStatus 24 4 == 14)

/-- FIELD_FUSE_WRITE: management firmware records what waits in the field fuses. -/
def fieldFuseWrite (vfuse : FuseSupply) (time : Nat) (s : State) : State :=
  if s.sec.writing.isSome then s
  else
    let s := s.raiseVfuse none
    if vfuse = .absent then s else (s.burn s.markTime [] vfuse time).dropVfuse

/-- VFUSE_CHECK: VFUSE is not in range 2 ms after VFUSE_EN rose, and the write fails (R537): FUSE_PROGRAM completes with
STATE_CONFLICT, and a field write is not made. -/
def vfuseCheck (s : State) : State :=
  match s.sec.writing with
  | none => s
  | some none => s.dropVfuse
  | some (some id) => s.dropVfuse.complete 0 id 0x24 0 0

/-! ## Meanings -/

/-- SHM_READ_REQUEST. -/
def execShmReadRequest (d : Fin 8) (off : BitVec 32) (lines : Nat) (upset : List (BitVec 37)) (s : State) :
    Host.Outcome State Fault Refusal := .next (shmReadRequest d off.toNat lines upset s)
/-- SCRUB_READ. -/
def execScrubRead (d : Fin 8) (region : Fin 3) (off : BitVec 32) (upset : List (BitVec 37)) (s : State) :
    Host.Outcome State Fault Refusal := .next (scrubRead d region off.toNat upset s)
/-- ECC_UNCORRECTABLE. -/
def execEccUncorrectable (d : Fin 8) (region : Fin 3) (off : BitVec 32) (feed : Bool) (s : State) : Host.Outcome State Fault Refusal :=
  .next (eccUncorrectable d region off.toNat feed s)
/-- REPAIR_ABANDON. -/
def execRepairAbandon (id : Nat) (s : State) : Host.Outcome State Fault Refusal := .next (repairAbandon id s)
/-- FIELD_FUSE_WRITE. -/
def execFieldFuseWrite (vfuse : FuseSupply) (time : Nat) (s : State) : Host.Outcome State Fault Refusal :=
  .next (fieldFuseWrite vfuse time s)
/-- VFUSE_CHECK. -/
def execVfuseCheck (s : State) : Host.Outcome State Fault Refusal := .next (vfuseCheck s)

end Sys2Proof.Machine
end

