-- ==== Sys2Proof/Machine/Holds.lean ====
section
/-!
DEFINITION. Die holds (09_fabric_and_die_links.md R262-R265) and the stop of a partition for a fault
(01_package_anatomy.md R31, 13_host_rings.md R348, 15_serving_engine.md R406).
-/

namespace Sys2Proof.Machine

/-! ## The stop of a partition -/

/-- The state in which every descriptor outstanding on partition `n`'s command ring has completed with a status (R348). -/
def State.completeAll (s : State) (n status : Nat) : State :=
  let rid := partRing n
  let s := (s.completeStart n status).completeStop n status false
  let s := (s.host.patches.filter (fun p => p.rid == rid)).foldl (fun s p => s.complete rid p.cmdId status 0 0) s
  let s := { s with host := { s.host with patches := s.host.patches.filter (fun p => p.rid != rid) } }
  let s := (s.loader.loads.filter (fun l => l.rid == rid && l.counts)).foldl (fun s l => s.endLoad l status 0 0) s
  let s := (s.loader.unloads.filter (fun x => x.1 == n)).foldl (fun s x => s.complete rid x.2.2 status 0 0) s
  { s with loader := { s.loader with unloads := s.loader.unloads.filter (fun x => x.1 != n) } }

/-- The PARTITION_STOPPED event (Table 13-7). -/
def State.stoppedEvent (s : State) (n status : Nat) : State := s.postEvent 0x0003 n 8 status

/-- The state in which partition `n` has stopped for a fault: its cards in flight are abandoned, its commands complete with the
status, and its requests end (R31, R348, R406). A partition without a program has nothing to stop. -/
def State.stopFault (s : State) (n status : Nat) : State :=
  if s.pstate n < 2 ∨ s.pstate n = 4 then s.setPart n { s.part n with stop := none }
  else
    let s := (s.lcs n).foldl (fun s g => s.idleCore g) s
    let s := (s.setPstate n 4).set32 (Reg.topPartStatus n) 17
    let s := s.clr32 (Reg.topPartJob n) 6
    let s := s.setPart n { s.part n with stop := none, reissue := false, faultChange := false, rewrites := [], snapshot := none }
    ((s.completeAll n status).stopRequests n).stoppedEvent n status

/-! ## Holds -/

/-- HOLD_START: die `d` begins to hold in noon cycle `t`, where a condition of R262 does hold in that cycle; not in a swap window, in
which nothing is due (R264). -/
def holdStart (d t : Nat) (s : State) : State :=
  let y := s.meshTo d (s.engCycle d t)
  if !s.dieRuns d t || (s.die d).hold.isSome then s
  else match (y.holders d t).head? with
    | none => s
    | some (k, m, c, card) =>
      (y.setDie d { y.die d with hold := some { cause := k, module := m, core := c, card := card, since := t }, run := false, e0 := y.engCycle d t, s0 := y.schedCount d t, t0 := t }).set32
        (Reg.fabHoldCtl d) 1

/-- HOLD_END: no condition of R262 holds at the start of cycle `t`; the die goes on, cards whose last report came in the hold are
complete, and its registers tell of the hold (R233, R264, R265). -/
def holdEnd (d t : Nat) (s : State) : State :=
  if (s.die d).hold.isNone then s
  else
    let y := s.settleReports d t
    if !(y.holders d t).isEmpty then s
    else
      let y := y.recordHold d t
      y.setDie d { y.die d with run := true, t0 := t }

/-- HOLD_LONG: the hold of die `d` passes LIMIT_US (R265). -/
def holdLong (d t : Nat) (s : State) : State :=
  match (s.die d).hold with
  | none => s
  | some h =>
    if t - h.since ≤ max 1 (s.f32 (Reg.fabHoldCtl d) 16 16) * s.noonMHz then s
    else
      let x := holdRecord (s.holdNow d t h) (t - h.since)
      (((s.seeHold d t).w64 (Reg.fabHoldLast d) x).set32 (Reg.fabHoldCtl d) 0).postEvent 0x0005 0xFF d x

/-! ## Meanings -/

/-- HOLD_START. -/
def execHoldStart (d : Fin 8) (t : Nat) (s : State) : Host.Outcome State Fault Refusal := .next (holdStart d t s)
/-- HOLD_END. -/
def execHoldEnd (d : Fin 8) (t : Nat) (s : State) : Host.Outcome State Fault Refusal := .next (holdEnd d t s)
/-- HOLD_LONG. -/
def execHoldLong (d : Fin 8) (t : Nat) (s : State) : Host.Outcome State Fault Refusal := .next (holdLong d t s)

end Sys2Proof.Machine
end

