-- ==== Sys2Proof/Machine/Security.lean ====
section
/-!
DEFINITION. The boot journal, fuses in use, keys, the scrub, the tenant switch's start, attestation and SPDM
(17_dawn_resets_recovery.md R441, 18_security.md).
-/

namespace Sys2Proof.Machine

/-! ## Resets and the alarm log -/

/-- A reset of domain 1 to 5 is counted, and journalled from domain 2 on (R441, Table 17-15). -/
def State.countReset (s : State) (dom time : Nat) : State :=
  let r := Reg.dawnResetCount
  let s := match dom with
    | 1 => s.count64 r 48 16 1
    | 2 => s.count64 r 32 16 1
    | 3 => s.count64 r 24 8 1
    | 4 => s.count64 r 16 8 1
    | _ => s.count64 r 8 8 1
  if dom = 1 then s else s.journal time 16 0 0 0 0 dom

/-- The bits of an alarm-log entry (Table 18-15) but POLICY and STATE. -/
def alarmBits (seq time cls unit detail : Nat) : Nat :=
  detail % 2 ^ 32 + unit % 2 ^ 16 * 2 ^ 32 + 2 ^ 56 + cls % 8 * 2 ^ 61 + min time (2 ^ 32 - 1) * 2 ^ 64 + seq % 2 ^ 32 * 2 ^ 96

/-- An entry is written to the alarm log, and its class counts (R488, Table 18-16). -/
def State.logAlarm (s : State) (entry : Nat) : State :=
  let h := Reg.secAlarmHead
  let a := Reg.secAlarmLog (s.f32 h 0 6)
  let s := if bitAt (s.r64 a) 56 then s.sf32 h 6 1 1 else s
  let s := (s.wWide a 4 entry).sf32 h 0 6 (s.f32 h 0 6 + 1)
  let s := (s.count64 Reg.secAlarmCount (8 * fld entry 61 3) 8 1).set32 Reg.secStatus 6
  { s with sec := { s.sec with newAlarms := s.sec.newAlarms ++ [entry] } }

/-! ## Fuses in use (R464, Tables 18-12 and 18-14) -/

/-- The registers that report the shadow. -/
def State.showFuses (s : State) : State :=
  let f := s.sec.shadow
  let b (x : Bool) (i : Nat) : Nat := if x then 2 ^ i else 0
  let pins := ((List.range 4).map (fun i => if Tab.get (fun _ => 0) f.pins i = 0 then 0 else 2 ^ i)).sum
  let s := s.w64 Reg.secProt (f.debugLock % 4 + f.partRules % 64 * 2 ^ 2 + f.alarmPolicy % 2 ^ 10 * 2 ^ 8 + pins * 2 ^ 18
    + b f.protLock 22 + b f.prodLock 23)
  let s := s.w64 Reg.secId (Config.serial.toNat % 2 ^ 30 + f.revoke % 16 * 2 ^ 30 + f.svnMgmt % 128 * 2 ^ 34 + f.svnDisp % 128 * 2 ^ 41
    + b (bitAt f.partRules 6) 63)
  (s.sf32 Reg.secStatus 4 1 (if f.udsKill then 1 else 0)).sf32 Reg.jtagStatus 0 2 f.debugLock

/-- Step 1 of a Dawn: fuse words whose write was interrupted are completed where VFUSE is there (R538), and the array is read into its
shadow. Where it is not, they stay recorded (log entry 53). -/
def State.readFuses (s : State) (vfuse : Bool) : State :=
  let s := if s.sec.record.isEmpty then s
    else
      let s := s.raiseVfuse none
      let s := if vfuse then let s := s.sec.record.foldl State.blow s; { s with sec := { s.sec with record := [] } } else s
      s.dropVfuse
  ({ s with sec := { s.sec with shadow := s.sec.fuses } }).showFuses

/-- FUSE_PROGRAM (R465). Where VFUSE does not come into range, VFUSE_CHECK ends the command; where the write is interrupted, VFUSE
counts as absent, and the word under way is completed at the next Dawn (R537, R538). A fuse word is written once: a TRUST_PIN that is
not zero is full, while R480 lets bits be added to a policy (log entry 30). -/
def fuseProgram (d : Desc) (vfuse : FuseSupply) (s : State) : State :=
  let n := d.f 8 1
  let v := d.f 16 48
  let (now, w) := s.sec.fuses.field n
  let done (st : Nat) (s : State) : State := s.complete 0 d.cmdId st 0 0
  if s.sec.fuses.protLock then done 0x48 s
  else if (List.range 64).any (fun p => s.pstate p == 3) || s.sec.writing.isSome then done 0x24 s
  else if w = 0 ∨ 2 ^ w ≤ v ∨ Nat.land v now ≠ now ∨ (3 ≤ n ∧ n ≤ 6 ∧ now ≠ 0 ∧ v ≠ now) ∨ !(d.zero 9 16) then done 0x11 s
  else
    let s := s.raiseVfuse (some d.cmdId)
    match s.blowWords (s.sec.fuses.wordsOf n v) vfuse with
    | (s, true) => done 0 (s.dropVfuse.set32 Reg.secStatus 1)
    | (s, false) => if vfuse = .absent then s else done 0x24 s.dropVfuse

/-! ## Keys (R466, R467, R480) -/

/-- The inputs of C (R467). -/
def State.aliasInputs (s : State) : List Byte :=
  let f := s.firmwareRuns 0
  leBytes 48 Config.romDigest.toNat ++ f.digest ++ leBytes 4 f.svn ++ leBytes 8 (s.r64 Reg.secProt) ++ leBytes 1 (s.f32 Reg.secStatus 3 1)

/-- Step 2 of a Dawn derives DIK and the alias key, unless UDS_KILL is blown (R467, R481). -/
def State.deriveKeys (s : State) : State :=
  { s with sec := { s.sec with keys := !s.sec.fuses.udsKill, certIn := s.aliasInputs } }

/-- Session and prefix keys are erased, and with `all` DIK and the alias key (R480). -/
def State.eraseKeys (s : State) (all : Bool) : State :=
  let parts := s.serving.parts.map (fun (e : Nat × Option Serve) => (e.1, e.2.map (fun (v : Serve) => { v with key0 := 0, key1 := 0 })))
  { s with sec := { s.sec with sessions := [], keys := s.sec.keys && !all }, serving := { s.serving with parts := parts } }

/-- The policy of an alarm class (R480). -/
def State.policyOf (s : State) (cls : Nat) : Nat := fld s.sec.shadow.alarmPolicy (2 * cls) 2

/-- The strength of a policy (R483): SESSION, VOLATILE, PERMANENT. -/
def policyRank (p : Nat) : Nat := if p = 1 then 0 else if p = 0 then 1 else 2

/-! ## The scrub (R476, Table 18-7) -/

/-- A register word that the scrub resets. -/
def scrubbed (a : Nat) : Bool :=
  let off := addrOffset a
  let within (lo n : Nat) : Bool := lo ≤ off && off < lo + n
  if addrRegion a != 15 then false
  else if addrDie a = 8 then
    within 0x10000 0x4000 || within 0x300508 16 || within 0x400018 8 || within 0x440000 0x40000 || within 0x600000 0x1400
  else
    within 0x18 8 || within 0x60 32 || within 0x1000 0x800 || within 0x100008 8 || within 0x100018 8 || within 0x101000 0x800
      || (within 0x1000000 0x100000 && (off % 0x10000 < 0x20 || (0x28 ≤ off % 0x10000 && off % 0x10000 < 0x48)))
      || (within 0x2000000 0x10000 && 8 ≤ off % 0x1000 && off % 0x1000 < 0x20)
      || (within 0x3000000 0x100000 && 8 ≤ off % 0x100 && off % 0x100 < 0x30)

/-- The decoupling queues of a module end are empty; entries of the ingress queue are freed. -/
def State.emptyQueues (s : State) (k : Nat) : State :=
  let x := s.modEnd k
  let s := s.setModEnd k { x with reqE := [], rspE := [], ctlE := [], ctlW := [], inQ := [] }
  (List.range x.inQ.length).foldl (fun s _ => s.freeEntry k 0) s

/-- The state after the scrub (Table 18-7). -/
def State.scrub (s : State) : State :=
  let s := (List.range 64).foldl (fun s n => s.endPartTxns n) s
  let s := (List.range 52).foldl (fun s k => s.emptyQueues k) s
  let fenced := upto 128 (fun g => (s.core g).fenced)
  let s := { s with
    regs := s.regs.filter (fun e => !scrubbed e.1)
    staged := s.staged.filter (fun e => !scrubbed e.1)
    mem := [], poison := [], selfErr := [], soft := [], past := [], flags := [], ctrs := []
    dies := s.dies.map (fun (e : Nat × DieState) => (e.1, { e.2 with flagCells := [], ctrCells := [], coalBase := [], coalWas := false, mesh := {}, landing := [] }))
    parts := [], cores := [], groups := [], combines := [], items := [], answered := [], txnWaits := []
    ports := s.ports.map (fun (e : Nat × Port) => (e.1, { e.2 with waiting := [] }))
    hour := { s.hour with flagCasts := [] }
    loader := { nextRepair := s.loader.nextRepair, bytesIn := s.loader.bytesIn, requests := s.loader.requests }
    serving := {}
    host := { s.host with events := [], evLost := 0, sets := [], patches := [] }
    sec := { s.sec with trust := [], keptTrust := [], sessions := [] } }
  let s := fenced.foldl (fun s g => s.setCore g { fenced := true }) s
  ((s.sf32 Reg.ldrStatus 16 5 0).sf32 Reg.ldrStatus 4 1 0).sf32 Reg.ldrStatus 0 3 0

/-- TENANT_EPOCH after the next switch, alarm or grant (Table 18-13). -/
def State.nextEpoch (s : State) : Nat := (s.r64 Reg.secTenant + 1) % 2 ^ 64

/-- The scrub of a switch, an alarm or a grant, with the meter's epoch closed before it and TENANT_EPOCH advanced (R476, R496). -/
def State.scrubEpoch (s : State) (tick kind data : Nat) : State :=
  let e := s.nextEpoch
  let s := (s.closeEpoch tick e).audit kind data
  s.scrub.w64 Reg.secTenant e

/-! ## The tenant switch (R475) -/

/-- Every command outstanding on a ring completes with a status. -/
def State.completeRing (s : State) (rid status : Nat) : State :=
  (s.ring rid).taken.foldl (fun s id => s.complete rid id status 0 0) s

/-- A load of R368 is in progress. -/
def State.anyLoad (s : State) : Bool := s.loader.loads.any Load.counts
/-- A partition is RUNNING. -/
def State.anyRunning (s : State) : Bool := (List.range 64).any (fun n => s.pstate n == 3)

/-- TENANT_SWITCH: refused, or steps 1 to 3 of R475 and the start of its Dusk, whose end is DUSK_DRAIN_END. -/
def tenantSwitch (d : Desc) (s : State) : State :=
  if !(d.zero 8 64) then s.complete 0 d.cmdId 0x11 0 0
  else if !s.inNoon || s.anyRunning || s.anyLoad || s.power.dusk.isSome then s.complete 0 d.cmdId 0x24 0 0
  else
    let s := s.host.sets.foldl (fun s x => s.complete 0 x.cmdId 0x24 0 0) s
    let s := s.host.patches.foldl (fun s x => s.complete x.rid x.cmdId 0x24 0 0) s
    let s := (List.range 65).foldl (fun s i => s.completeRing (i + 1) 0x24) s
    let goes (rid : Nat) : Bool := (1 ≤ rid && rid ≤ 65) || (129 ≤ rid && rid ≤ 255)
    let s := (s.forget (fun rid => 1 ≤ rid && rid ≤ 65)).deleteRings goes
    let s := { s with host := { s.host with sets := [], patches := [], windows := [] }
                      serving := { s.serving with requests := [], past := [] } }
    { s with power := { s.power with dusk := some ⟨.tenant, d.cmdId, false⟩ } }

/-- Steps 5 and 6 of a tenant switch; `bad` says that a macro or register did not verify twice (R477). -/
def State.tenantEnd (s : State) (cmdId tick : Nat) (bad : Bool) : State :=
  let s := s.scrubEpoch tick 0x06 s.nextEpoch
  let s := ({ s with power := { s.power with dusk := none } }).sf32 Reg.secStatus 2 1 (if bad then 1 else 0)
  let s := s.publish.postEvent 0x0121 0xFF 8 (s.r64 Reg.secTenant + (if bad then 2 ^ 64 else 0))
  s.complete 0 cmdId (if bad then 0x52 else 0) 0 0

/-! ## Measurements for a verifier (R472-R474) -/

/-- DMTFSpecMeasurementValueType of an index, as the SPDM specification numbers the types, bit 7 set for the raw form (Table
18-6; log entry 29). -/
def valueType (i : Nat) : Nat := if i = 1 then 0 else if i = 2 ∨ i = 3 then 0x81 else if i ≤ 5 ∨ i = 7 then 0x82 else 0x83

/-- A measurement block as a response encodes it. -/
def spdmBlock (i : Nat) (v : List Byte) : List Byte :=
  leBytes 1 i ++ leBytes 1 1 ++ leBytes 2 (v.length + 3) ++ leBytes 1 (valueType i) ++ leBytes 2 v.length ++ v

/-- The blocks of a list of indices from the last snapshot. -/
def State.snapBlocks (s : State) (l : List Nat) : List Byte :=
  (l.map (fun i => spdmBlock i (Tab.get (fun _ => []) s.sec.snap.blocks i))).flatten

/-- ATTEST_LOG (R474). -/
def attestLog (d : Desc) (s : State) : State :=
  let data := s.snapBlocks measureIndices ++ (s.sec.snap.adapters.map (fun x => x.2.2)).flatten
  if !(d.zero 20 64) then s.complete 0 d.cmdId 0x11 0 0
  else if d.f 16 4 < data.length then s.complete 0 d.cmdId 0x11 data.length 0
  else (s.emit (.hostWrite (d.f 8 8) data.length (leNat data))).complete 0 d.cmdId 0 data.length 0

/-! ## SPDM (R471, Table 18-5) -/

/-- The responder answers: from the end of Dawn, in Noon and Twilight (R471). -/
def State.spdmUp (s : State) : Bool := bitAt (s.r32 Reg.secStatus) 0 && (s.inNoon || s.inTwilight)

/-- A response of version 1.3: code, parameters, the rest of the message. -/
def State.spdm (s : State) (code p1 p2 : Nat) (body : List Byte) : State :=
  let m := leBytes 1 0x13 ++ leBytes 1 code ++ leBytes 1 p1 ++ leBytes 1 p2 ++ body
  s.emit (.spdm m.length (leNat m))

/-- An ERROR response with a code of the SPDM specification. -/
def State.spdmError (s : State) (code : Nat) : State := s.spdm 0x7F code 0 []

/-- Random or signature bytes of a response: free values (log entry 4). -/
def State.spdmFree (s : State) (n : Nat) : List Byte × State := let (x, s') := s.drawWide (ceilDiv n 8); (leBytes n x, s')

/-- Version, capabilities and algorithms have been negotiated. -/
def State.spdmReady (s : State) : Bool := s.sec.version && s.sec.caps && s.sec.algs

/-- What a request that needs the device's keys meets: no answer, an error, or `none` where it is served (R471, R481). -/
def State.spdmGate (s : State) (slot : Nat) : Option State :=
  if !s.spdmUp then some s
  else if !s.spdmReady then some (s.spdmError 0x04)
  else if s.sec.fuses.udsKill || !s.sec.keys then some (s.spdmError 0x05)
  else if slot ≠ 0 then some (s.spdmError 0x01)
  else none

/-- The certificate chain of slot 0 (R468). -/
def State.certChain (s : State) : List Byte := Config.storedText 0 ++ Config.aliasCert s.sec.certIn

/-- The summary of all measurements: the digest of every block of the snapshot. -/
def State.measureSummary (s : State) : List Byte := sha384 (s.snapBlocks measureIndices)

/-- GET_VERSION: version 1.3 only. -/
def getVersion (s : State) : State :=
  if !s.spdmUp then s
  else
    let m := leBytes 4 0x0410 ++ [0, 1] ++ leBytes 2 0x1300
    let s := { s with sec := { s.sec with version := true, caps := false, algs := false } }
    s.emit (.spdm m.length (leNat m))

/-- GET_CAPABILITIES: CERT, CHAL, MEAS with signature, ENCRYPT, MAC, KEY_EX, HBEAT, KEY_UPD. -/
def getCapabilities (s : State) : State :=
  if !s.spdmUp then s
  else if !s.sec.version then s.spdmError 0x04
  else
    let (ct, s) := s.spdmFree 1
    let (sizes, s) := s.spdmFree 8
    let s := { s with sec := { s.sec with caps := true } }
    s.spdm 0x61 0 0 ([0] ++ ct ++ [0, 0] ++ leBytes 4 0x62D6 ++ sizes)

/-- NEGOTIATE_ALGORITHMS; `common` says that the request offers every algorithm of Table 18-5. -/
def negotiateAlgorithms (common : Bool) (s : State) : State :=
  if !s.spdmUp then s
  else if !s.sec.version || !s.sec.caps then s.spdmError 0x04
  else if !common then s.spdmError 0x01
  else
    let s := { s with sec := { s.sec with algs := true } }
    s.spdm 0x63 4 0 (leBytes 2 52 ++ [1, 2] ++ leBytes 4 4 ++ leBytes 4 0x80 ++ leBytes 4 2 ++ leBytes 12 0 ++ leBytes 4 0
      ++ leBytes 4 0x00102002 ++ leBytes 4 0x00022003 ++ leBytes 4 0x00002004 ++ leBytes 4 0x00012005)

/-- GET_DIGESTS: slot 0 only. -/
def getDigests (s : State) : State :=
  if !s.spdmUp then s
  else if !s.spdmReady then s.spdmError 0x04
  else s.spdm 0x01 0 1 (sha384 s.certChain)

/-- GET_CERTIFICATE: a portion of the chain. -/
def getCertificate (slot off len : Nat) (s : State) : State :=
  match s.spdmGate slot with
  | some r => r
  | none =>
    let c := s.certChain
    if c.length ≤ off then s.spdmError 0x01
    else
      let p := (c.drop off).take len
      s.spdm 0x02 0 0 (leBytes 2 p.length ++ leBytes 2 (c.length - off - p.length) ++ p)

/-- CHALLENGE. -/
def spdmChallenge (slot : Nat) (summary : Bool) (context : List Byte) (s : State) : State :=
  match s.spdmGate slot with
  | some r => r
  | none =>
    let (nonce, s) := s.spdmFree 32
    let (sig, s) := s.spdmFree 96
    s.spdm 0x03 0 1 (sha384 s.certChain ++ nonce ++ (if summary then s.measureSummary else []) ++ leBytes 2 0 ++ context.take 8 ++ sig)

/-- GET_MEASUREMENTS: index 0 asks for the number of blocks, 0xFF for all; every block comes from one snapshot (R473). -/
def getMeasurements (index : Nat) (signed : Bool) (context : List Byte) (s : State) : State :=
  match s.spdmGate 0 with
  | some r => r
  | none =>
    let l := if index = 0xFF then measureIndices else measureIndices.filter (fun i => i == index)
    if index ≠ 0 ∧ l.isEmpty then s.spdmError 0x01
    else
      let rec' := if index = 0 then [] else s.snapBlocks l
      let (nonce, s) := s.spdmFree 32
      let (sig, s) := if signed then s.spdmFree 96 else ([], s)
      s.spdm 0x60 (if index = 0 then measureIndices.length else 0) 0
        (leBytes 1 (if index = 0 then 0 else l.length) ++ leBytes 3 rec'.length ++ rec' ++ nonce ++ leBytes 2 0 ++ context.take 8 ++ sig)

/-- KEY_EXCHANGE: at most four sessions at once. -/
def keyExchange (slot : Nat) (reqId : Nat) (summary : Bool) (s : State) : State :=
  match s.spdmGate slot with
  | some r => r
  | none =>
    if 4 ≤ s.sec.sessions.length then s.spdmError 0x0A
    else
      let (rsp, s) := s.spdmFree 2
      let (beat, s) := s.spdmFree 1
      let (random, s) := s.spdmFree 32
      let (share, s) := s.spdmFree 96
      let (sig, s) := s.spdmFree 96
      let (hmac, s) := s.spdmFree 48
      let s := { s with sec := { s.sec with sessions := s.sec.sessions ++ [(⟨reqId % 2 ^ 16 + 2 ^ 16 * leNat rsp, false⟩ : Session)] } }
      s.spdm 0x64 (leNat beat) 0 (rsp ++ [0, 0] ++ random ++ share ++ (if summary then s.measureSummary else []) ++ leBytes 2 0 ++ sig ++ hmac)

/-- The state with an SPDM session ended. -/
def State.endSession (s : State) (id : Nat) : State :=
  { s with sec := { s.sec with sessions := s.sec.sessions.filter (fun x => x.id != id) } }

/-- The session exists, with its handshake finished or not. -/
def State.hasSession (s : State) (id : Nat) (finished : Bool) : Bool := s.sec.sessions.any (fun x => x.id == id && x.finished == finished)

/-- FINISH of a session; `ok` says that the requester's verify data verify. -/
def spdmFinish (id : Nat) (ok : Bool) (s : State) : State :=
  if !s.spdmUp then s
  else if !s.hasSession id false then s.spdmError 0x04
  else if !ok then (s.endSession id).spdmError 0x06
  else
    let s := { s with sec := { s.sec with sessions := s.sec.sessions.map (fun (x : Session) => if x.id = id then { x with finished := true } else x) } }
    s.spdm 0x65 0 0 []

/-- HEARTBEAT in a session; `late` says that the session's heartbeat period has passed twice without one, which ends it. -/
def spdmHeartbeat (id : Nat) (late : Bool) (s : State) : State :=
  if !s.spdmUp then s
  else if !s.hasSession id true then s.spdmError 0x04
  else if late then (s.endSession id).spdmError 0x04
  else s.spdm 0x68 0 0 []

/-- KEY_UPDATE in a session, with its operation and tag. -/
def keyUpdate (id op tag : Nat) (s : State) : State :=
  if !s.spdmUp then s
  else if !s.hasSession id true then s.spdmError 0x04
  else if op = 0 ∨ 3 < op then s.spdmError 0x01
  else s.spdm 0x69 op tag []

/-- END_SESSION. -/
def endSession (id : Nat) (s : State) : State :=
  if !s.spdmUp then s
  else if !s.hasSession id true then s.spdmError 0x04
  else (s.endSession id).spdm 0x6C 0 0 []

/-! ## Meanings -/

/-- TENANT_SWITCH. -/
def execTenantSwitch (d : Desc) (s : State) : Host.Outcome State Fault Refusal := .next (tenantSwitch d s)
/-- ATTEST_LOG. -/
def execAttestLog (d : Desc) (s : State) : Host.Outcome State Fault Refusal := .next (attestLog d s)
/-- FUSE_PROGRAM. -/
def execFuseProgram (d : Desc) (vfuse : FuseSupply) (s : State) : Host.Outcome State Fault Refusal := .next (fuseProgram d vfuse s)
/-- GET_VERSION. -/
def execGetVersion (s : State) : Host.Outcome State Fault Refusal := .next (getVersion s)
/-- GET_CAPABILITIES. -/
def execGetCapabilities (s : State) : Host.Outcome State Fault Refusal := .next (getCapabilities s)
/-- NEGOTIATE_ALGORITHMS. -/
def execNegotiateAlgorithms (common : Bool) (s : State) : Host.Outcome State Fault Refusal := .next (negotiateAlgorithms common s)
/-- GET_DIGESTS. -/
def execGetDigests (s : State) : Host.Outcome State Fault Refusal := .next (getDigests s)
/-- GET_CERTIFICATE. -/
def execGetCertificate (slot : Fin 16) (off len : BitVec 16) (s : State) : Host.Outcome State Fault Refusal :=
  .next (getCertificate slot off.toNat len.toNat s)
/-- CHALLENGE. -/
def execSpdmChallenge (slot : Fin 16) (summary : Bool) (context : BitVec 64) (s : State) : Host.Outcome State Fault Refusal :=
  .next (spdmChallenge slot summary (leBytes 8 context.toNat) s)
/-- GET_MEASUREMENTS. -/
def execGetMeasurements (index : BitVec 8) (signed : Bool) (context : BitVec 64) (s : State) : Host.Outcome State Fault Refusal :=
  .next (getMeasurements index.toNat signed (leBytes 8 context.toNat) s)
/-- KEY_EXCHANGE. -/
def execKeyExchange (slot : Fin 16) (reqId : BitVec 16) (summary : Bool) (s : State) : Host.Outcome State Fault Refusal :=
  .next (keyExchange slot reqId.toNat summary s)
/-- FINISH. -/
def execSpdmFinish (id : BitVec 32) (ok : Bool) (s : State) : Host.Outcome State Fault Refusal := .next (spdmFinish id.toNat ok s)
/-- HEARTBEAT. -/
def execSpdmHeartbeat (id : BitVec 32) (late : Bool) (s : State) : Host.Outcome State Fault Refusal := .next (spdmHeartbeat id.toNat late s)
/-- KEY_UPDATE. -/
def execKeyUpdate (id : BitVec 32) (op tag : BitVec 8) (s : State) : Host.Outcome State Fault Refusal :=
  .next (keyUpdate id.toNat op.toNat tag.toNat s)
/-- END_SESSION. -/
def execEndSession (id : BitVec 32) (s : State) : Host.Outcome State Fault Refusal := .next (endSession id.toNat s)

end Sys2Proof.Machine
end

