-- ==== Sys2Proof/Machine/Tori.lean ====
section
/-!
DEFINITION. The routing tables that the management firmware builds by the default policy, with packages cut out or with none
(12_system_topology.md R310, R316, R317, R319, R320). Coordinates are lists [x, y, z]; `sizes` and `skips` say by dimension how many
packages a line has and whether its skip ports carry quads; `cut` holds the coordinates of the packages cut out.
-/

namespace Sys2Proof.Machine

/-! ## One line (R310, R319) -/

/-- The position `k` further on from `a` in a ring of `n`. -/
def ringMove (n a k : Nat) (plus : Bool) : Nat := if plus then (a + k) % n else (a + (n - k % n)) % n

/-- Hops of a walk of that many positions from the second number along a line with cuts: primary hops, and a bridge over a gap of one
package where there are skip ports; none where it meets a gap that nothing bridges (R319). -/
def lineHops (n : Nat) (skip : Bool) (cut : List Nat) (plus : Bool) : Nat → Nat → Option Nat
  | 0, _ => some 0
  | 1, a => if cut.contains (ringMove n a 1 plus) then none else some 1
  | k + 2, a =>
    if !cut.contains (ringMove n a 1 plus) then (lineHops n skip cut plus (k + 1) (ringMove n a 1 plus)).map (· + 1)
    else if skip && !cut.contains (ringMove n a 2 plus) then (lineHops n skip cut plus k (ringMove n a 2 plus)).map (· + 1)
    else none

/-- The first hop of a route along a line: its direction, and whether it leaves on the skip port. In a whole line the shorter
direction, + on a tie, with skip hops while 3 or more positions remain (R317); in a line with a cut every hop is a primary hop or a
bridge, and of two directions that reach the target the one with fewer hops, + on a tie (R319; log entry 73). -/
def lineRoute (n : Nat) (skip : Bool) (cut : List Nat) (a b : Nat) : Option (Bool × Bool) :=
  let up := (b + n - a) % n
  let down := (a + n - b) % n
  if cut.isEmpty then some (if up ≤ down then (true, skip && decide (3 ≤ up)) else (false, skip && decide (3 ≤ down)))
  else
    let via (plus : Bool) : Option (Bool × Bool) := some (plus, cut.contains (ringMove n a 1 plus))
    match lineHops n skip cut true up a, lineHops n skip cut false down a with
    | some x, some y => via (decide (x ≤ y))
    | some _, none => via true
    | none, some _ => via false
    | none, none => none

/-- The port of dimension `k` for a direction and a kind of hop (Table 12-2). -/
def linePort (k : Nat) (r : Bool × Bool) : Nat := 2 * k + (if r.1 then 0 else 1) + (if r.2 then 6 else 0)

/-! ## Three dimensions (R317, R319) -/

/-- Cut positions of the line through `c` along dimension `k`. -/
def lineCut (cut : List (List Nat)) (c : List Nat) (k : Nat) : List Nat :=
  (cut.filter (fun q => (List.range 3).all (fun j => j == k || q.getD j 0 == c.getD j 0))).map (fun q => q.getD k 0)

/-- The first port of the path from `c` to `dest`, in the order X, Y, Z; none where some part of the path has no route. -/
def pathPort (sizes : List Nat) (skips : List Bool) (cut : List (List Nat)) (c dest : List Nat) : Option Nat :=
  let path := (List.range 3).foldl (fun (acc : Option (List Nat × Option Nat)) k =>
    match acc with
    | none => none
    | some (at', port) =>
      if at'.getD k 0 = dest.getD k 0 then acc
      else match lineRoute (sizes.getD k 1) (skips.getD k false) (lineCut cut at' k) (at'.getD k 0) (dest.getD k 0) with
        | none => none
        | some r => some (at'.set k (dest.getD k 0), some (port.getD (linePort k r)))) (some (c, none))
  match path with | some (_, p) => p | none => none

/-- The routing table entry of the package at `c` for the package at `dest` (Table 12-6). -/
def toriEntry (sizes : List Nat) (skips : List Bool) (cut : List (List Nat)) (c dest : List Nat) : Nat :=
  if dest = c then 2 ^ 7 + 12
  else if cut.contains dest then 0
  else match pathPort sizes skips cut c dest with | some p => 2 ^ 7 + p | none => 0

/-! ## RING and DATELINE of a port (R317, R320) -/

/-- Whether port `p` of the package at `c` bridges a single cut package, and whether its line has a gap that nothing bridges. -/
def portBridges (sizes : List Nat) (skips : List Bool) (cut : List (List Nat)) (c : List Nat) (p : Nat) : Bool × Bool :=
  let k := p % 6 / 2
  let n := sizes.getD k 1
  let l := lineCut cut c k
  (decide (6 ≤ p) && l.contains (ringMove n (c.getD k 0) 1 (p % 2 == 0)) && !l.contains (ringMove n (c.getD k 0) 2 (p % 2 == 0)),
   (lineHops n (skips.getD k false) l true n (c.getD k 0)).isNone)

/-- RING and DATELINE that RTE_PORT_p takes: the class of Table 12-2, that of the primary ring for a bridge; DATELINE where the hop
crosses the coordinate wrap, but nowhere on an open path. -/
def portRoute (sizes : List Nat) (skips : List Bool) (cut : List (List Nat)) (c : List Nat) (p : Nat) : Nat :=
  let k := p % 6 / 2
  let b := portBridges sizes skips cut c p
  let reach := if p < 6 then 1 else 2
  let wraps := if p % 2 = 0 then decide (sizes.getD k 1 ≤ c.getD k 0 + reach) else decide (c.getD k 0 < reach)
  (if b.1 then ringClass (p - 6) else ringClass p) + (if wraps && !b.2 then 2 ^ 7 else 0)

end Sys2Proof.Machine
end

