-- ==== Sys2Proof/Machine/Dawn.lean ====
section
/-!
DEFINITION. Dawn: the resets of domains 4 and 5, the steps of Table 17-2, repeated starts, and the end of a Dawn
(17_dawn_resets_recovery.md R435-R445).
-/

namespace Sys2Proof.Machine

/-! ## What a reset of domain 4 or 5 keeps (Table 17-1) -/

/-- A register word that a reset of domain 4 keeps, and with `cold` one that a reset of domain 5 keeps: the always-on domain and the
Metering Unit (R434, R460, R488, R519), and outside a cold Dawn the counters that only a cold Dawn clears. -/
def keptReg (cold : Bool) (a : Nat) : Bool :=
  let off := addrOffset a
  let within (lo n : Nat) : Bool := lo ≤ off && off < lo + n
  if addrRegion a != 15 then false
  else if addrDie a = 8 then
    within 0x900000 0x20 || within 0x901000 0x4000 || within 0xA00020 16 || within 0xA01000 0x400 || within 0xB00000 0x1000
      || within 0xC00000 16
      || (!cold && (within 0x800000 8 || within 0x800020 8 || within 0x880004 12 || within 0xA00010 8 || within 0xA00000 4
        || (within 0x201000 0x500 && 0x28 ≤ off % 0x40 && off % 0x40 < 0x30)
        || (within 0x300100 0x180 && 0x10 ≤ off % 0x20)))
  else
    (within 0x80 0x40 && 8 ≤ off % 16)
      || (!cold && (within 0x8 8 || within 0x30 8 || (within 0x201000 0x100 && 0x28 ≤ off % 0x40 && off % 0x40 < 0x30)
        || (within 0x1000000 0x100000 && 0x20 ≤ off % 0x10000 && off % 0x10000 < 0x24)))

/-- A die as a reset of domain 4 or 5 leaves it: what fuses and the always-on store hold of it. A field remap that is neither recorded
nor found at the last cold Dawn is lost (R178). -/
def DieState.afterReset (x : DieState) : DieState :=
  { run := false, prodRows := x.prodRows, fieldRows := x.fieldRows, foundRows := x.foundRows, holes := x.holes, fusedHoles := x.fusedHoles
    exhausted := x.exhausted, unrecorded := x.unrecorded.filter x.foundRows.contains }

/-- The state after everything but the always-on domain, the Metering Unit and the fuses has been reset (Table 17-1). -/
def State.resetAll (s : State) (cold : Bool) : State :=
  let ran := s.f32 Reg.dawnStatus 28 2 == 1
  let s' : State := {
    regs := s.regs.filter (fun e => keptReg cold e.1)
    host := { perst := s.host.perst, linkUp := !s.host.perst }
    dies := s.dies.map (fun (e : Nat × DieState) => (e.1, e.2.afterReset))
    config := s.config
    meter := s.meter
    sec := { fuses := s.sec.fuses, shadow := s.sec.shadow, record := s.sec.record, flash := s.sec.flash, first := s.sec.first, running := s.sec.running
             keptTrust := if cold then [] else if ran then s.sec.trust else s.sec.keptTrust
             newAlarms := s.sec.newAlarms }
    power := { mainEn := s.power.mainEn, mainGood := s.power.mainGood, thermTrip := s.power.thermTrip, porLow := s.power.porLow
               average := s.power.average, hot := s.power.hot, wakes := if cold then [] else s.power.wakes }
    dawn := s.dawn
    jtag := s.jtag
    freeCount := s.freeCount
    out := s.out
    pending := s.pending }
  let st := Reg.secStatus
  let s' := s'.w32 st (s.f32 st 5 1 * 2 ^ 5 + (if cold then 0 else s.f32 st 3 1 * 2 ^ 3 + s.f32 st 6 1 * 2 ^ 6))
  ((List.range 8).foldl (fun s d => s.setDie d { s.die d with run := false }) s').sf32 Reg.jtagStatus 3 1 0

/-! ## Failure counts and treatments (R442, R443, Table 17-5) -/

/-- The number of a step's unit. -/
def dawnKey (step kind unit : Nat) : Nat := step * 2 ^ 16 + kind * 2 ^ 12 + unit

/-- The failure count of a unit. -/
def State.dawnCount (s : State) (key : Nat) : Nat := Tab.get (fun _ => 0) s.dawn.counts key
/-- The state with a failure count set. -/
def State.setDawnCount (s : State) (key n : Nat) : State := { s with dawn := { s.dawn with counts := Tab.put (fun _ => 0) s.dawn.counts key n } }

/-- A step keeps failure counts. -/
def stepCounted (step : Nat) : Bool := [2, 4, 5, 6, 7, 8, 9, 11, 12, 13].contains step
/-- A count of 3 marks the unit for good. -/
def stepMarks (step : Nat) : Bool := stepCounted step && step != 11 && step != 12

/-- A fuse marks the unit (R443). -/
def Fuses.marked (f : Fuses) (step kind unit : Nat) : Bool :=
  match step, kind with
  | 2, _ => f.copyMgmt
  | 4, _ => f.altLoop
  | 13, _ => f.copyDisp
  | 5, 1 => bitAt f.dieAbsent unit
  | 6, 1 => bitAt f.altDivider unit
  | 7, 2 => f.moduleOos.contains unit
  | 8, 1 => bitAt f.dieAbsent unit
  | 8, 3 => f.slotFailed.contains unit
  | 9, 3 => f.slotFailed.contains unit
  | _, _ => false

/-- Whether a step's repeat treatment is SKIP, or an alternate method (Table 17-5). -/
def stepSkips (step kind : Nat) : Bool := step == 5 || (step == 8 && kind == 1)
def stepAlternate (step : Nat) : Bool := [2, 4, 6, 7, 11, 13].contains step

/-- The result of a unit's step (Table 17-4): 0 PASS, 1 PASS_ALTERNATE, 2 FAIL, 3 TIMEOUT, 4 SKIPPED, 6 ABSENT. -/
def State.dawnResult (s : State) (fails : List DawnFail) (step kind unit : Nat) : Nat :=
  let key := dawnKey step kind unit
  let n := s.dawnCount key
  let bad := fails.find? (fun f => f.step == step && f.kind == kind && f.unit == unit)
  let tried (r : Nat) : Nat := match bad with | some f => if f.timeout then 3 else 2 | none => r
  let marked := s.sec.shadow.marked step kind unit || (n == 3 && stepMarks step)
  if marked then (if step = 2 ∨ step = 4 ∨ step = 6 ∨ step = 13 then tried 6 else 6)
  else if stepSkips step kind && 0 < n && s.dawn.failedLast.contains key then 4
  else if step = 3 ∧ s.dawn.failedLast.contains key then 1
  else tried (if stepAlternate step && 0 < n then 1 else 0)

/-- The time of an entry of a step. -/
def dawnTime (x : DawnIn) (step : Nat) : Nat := x.times.getD (step - 1) 0

/-- The state in which a unit's result other than PASS has been counted and journalled, or a pass has cleared its count. -/
def State.dawnRecord (s : State) (x : DawnIn) (step kind unit r detail : Nat) : State :=
  let key := dawnKey step kind unit
  let n := s.dawnCount key
  if r = 0 then (if stepCounted step then s.setDawnCount key 0 else s)
  else if r = 2 ∨ r = 3 then
    let m := if stepCounted step then min 3 (n + 1) else n
    let s := s.setDawnCount key m
    let time := match (x.fails ++ x.again).find? (fun f => f.step == step && f.kind == kind && f.unit == unit) with
      | some f => f.time | none => dawnTime x step
    let s := { s with dawn := { s.dawn with
      failedNow := s.dawn.failedNow ++ [key]
      marks := if m = 3 ∧ n < 3 ∧ stepMarks step then s.dawn.marks ++ [key] else s.dawn.marks } }
    (s.count32 Reg.dawnStatus 16 8 1).journal time step kind unit r m detail
  else
    let s := if r = 1 then s.count32 Reg.dawnStatus 8 8 1 else s.count32 Reg.dawnStatus 0 8 1
    s.journal (dawnTime x step) step kind unit r n detail

/-- Units of a step that failed, count or are marked: kinds and units in ascending order. -/
def State.dawnUnits (s : State) (fails : List DawnFail) (step : Nat) : List (Nat × Nat) :=
  ((List.range 7).map (fun kind => (List.range 240).filterMap (fun u =>
    if fails.any (fun f => f.step == step && f.kind == kind && f.unit == u) || 0 < s.dawnCount (dawnKey step kind u)
      || s.sec.shadow.marked step kind u && (step != 2 && step != 4 && step != 13 && !(step == 8 && kind == 0)) && kind != 0
    then some (kind, u) else none))).flatten

/-- The die of a unit, where it has one. -/
def unitDie (kind unit : Nat) : Option Nat :=
  if kind = 1 then some unit else if kind = 2 ∨ kind = 4 then some (unit / 4) else if kind = 3 then some (unit / 20) else none

/-! ## Effects of results -/

/-- DIE_d of DAWN_DIES and, for an absent die, its condition (Table 17-13). -/
def State.setDawnDie (s : State) (d code : Nat) : State :=
  let s := s.sf32 Reg.dawnDies (2 * d) 2 code
  if code = 1 ∨ code = 2 then s.setDie d { s.die d with cond := .absent, run := false } else s

/-- Lane-role set `x` at both ends of a module pair: TENSOR lanes lowest, then CONTROL, then SPARE (Table 9-5; log entry 31). -/
def State.setModule (s : State) (k x : Nat) : State :=
  let (t, c) := match x with | 0 => (56, 4) | 1 => (52, 4) | 2 => (48, 8) | 3 => (60, 2) | _ => (40, 4)
  let roles := (List.range 64).map (fun i => if i < t then 0 else if i < t + c then 1 else 2)
  let one (s : State) (e : Nat) : State := s.w32 (endCfg e) (2 ^ 31 + x * 2 ^ 28 + s.f32 (endCfg e) 25 3 * 2 ^ 25)
  (one (one s k) (otherEnd k)).putRoles k roles

/-- A module pair is out of service from Dawn on. -/
def State.moduleAbsent (s : State) (k : Nat) : State :=
  let one (s : State) (e : Nat) : State :=
    ((s.setModEnd e { s.modEnd e with outOfService := true }).set32 (endStatus e) 4).clr32 (endCfg e) 31
  one (one s k) (otherEnd k)

/-- One end of every module pair of the package. -/
def modPairs : List Nat := upto 32 (fun k => 32 ≤ otherEnd k || k < otherEnd k)

/-- The set that Dawn picks for a pair (R249): the one the configuration names where both dies allow it, else the first allowed of
A, B, C and E. -/
def State.pickSet (s : State) (k : Nat) : Nat :=
  let dies := if otherEnd k < 32 then [k / 4, otherEnd k / 4] else [k / 4]
  let ok (x : Nat) : Bool := dies.all (fun d => bitAt (Config.setAllow d).toNat x)
  let req := fld s.config (8 * (72 + k)) 8
  if ok req then req else ([0, 1, 2, 4].find? ok).getD 4

/-- Port `p` after its training at step 11: its quads of the configuration, less those with a fused lane that no spare replaces
(R282, R294, R296, R312). -/
def State.trainPort (s : State) (p r : Nat) : State :=
  let quads := upto 24 (fun q => fld s.config (8 * (16 + q)) 8 == p)
  let (s, live) := quads.foldl (fun (acc : State × Nat) q =>
    let b := q / 6
    let lanes := (List.range 4).map (fun i => 26 * b + 4 * (q % 6) + i)
    let s := lanes.foldl (fun s l => s.setLane l (if s.sec.shadow.lanes.contains l then 2 else 0)) acc.1
    let lost := lanes.filter (fun l => s.sec.shadow.lanes.contains l)
    let (s, ok) := lost.foldl (fun (a : State × Bool) _ => match a.1.spareFor p b with
      | some sp => (a.1.setLane sp 0, a.2)
      | none => (a.1, false)) (s, true)
    (s, if ok then acc.2 + 2 ^ q else acc.2)) (s, 0)
  let up := live != 0 && r != 2 && r != 3
  let s := s.w32 (Reg.tclPortCfg p) ((quads.map (fun q => 2 ^ q)).sum + (if r = 1 then 2 ^ 30 else 0) + (if up then 2 ^ 31 else 0))
  s.sf64 (Reg.tclPortStatus p) 32 24 (if up then live else 0)

/-- Step 11: every spare lane that a cable carries is a spare, and the ports train. -/
def State.spares (s : State) : State :=
  (List.range 8).foldl (fun s i =>
    let l := 26 * (i / 2) + 24 + i % 2
    s.setLane l (if s.sec.shadow.lanes.contains l then 2 else if s.configByte (40 + i) = 0xFF then 3 else 1)) s

/-! ## The Dawn configuration (R439, Table 17-3) -/

/-- Quads of a dimension's primary and skip ports under a ratio set (Table 12-3). -/
def ratioQuads (x : Nat) : Nat × Nat :=
  match x with | 0 => (3, 1) | 1 => (2, 2) | 2 => (4, 0) | 3 => (5, 1) | 4 => (4, 2) | _ => (6, 6)

/-- A port takes quads under the record's ratio sets. -/
def portAllowed (rec' p : Nat) : Bool :=
  p < 12 && (let x := ratioQuads (fld rec' (8 * (13 + p % 6 / 2)) 8); if p < 6 then 0 < x.1 else 0 < x.2)

/-- Step 3 accepts the record (R439). -/
def configOk (rec' : Nat) : Bool :=
  let b (i : Nat) : Nat := fld rec' (8 * i) 8
  let quads := (List.range 24).map (fun q => b (16 + q))
  let spares := (List.range 8).map (fun i => b (40 + i))
  fld rec' 32704 64 == crc64 (leBytes 4088 (rec' % 2 ^ 32704)) && rec' % 2 ^ 48 == 0x14E574144
    && (List.range 12).all (fun p => (quads.filter (fun q => q == p)).length ≤ 6)
    && (quads ++ spares).all (fun p => p == 0xFF || portAllowed rec' p)
    && modPairs.all (fun k =>
      let x := b (72 + k)
      let far := otherEnd k
      bitAt (Config.setAllow (k / 4)).toNat x && x < 5
        && (32 ≤ far || (b (72 + far) == x && bitAt (Config.setAllow (far / 4)).toNat x)))

/-- The record takes effect: RTE_SELF, COUPLED, the ports' neighbours and the sets requested (R309, Tables 2-1, 9-6, 12-12). -/
def State.applyConfig (s : State) (rec' : Nat) : State :=
  let b (i n : Nat) : Nat := fld rec' (8 * i) (8 * n)
  let s := { s with config := rec' }
  let s := s.w64 Reg.rteSelf (b 6 2 % 2 ^ 12 + b 8 1 % 16 * 2 ^ 16 + b 9 1 % 16 * 2 ^ 20 + b 10 1 % 16 * 2 ^ 24 + b 11 2 % 2 ^ 12 * 2 ^ 32)
  let s := s.sf32 Reg.topHourCtl 16 1 (b 106 1)
  let s := (List.range 12).foldl (fun s p => s.sf32 (Reg.rtePort p) 20 12 (b (48 + 2 * p) 2)) s
  modPairs.foldl (fun s k =>
    let s := s.sf32 (endCfg k) 25 3 (b (72 + k) 1)
    let far := otherEnd k
    s.sf32 (endCfg far) 25 3 (if far < 32 then b (72 + far) 1 else b (72 + k) 1)) s

/-! ## Voltages (R424, R534) -/

/-- TRIM of a die in units of 5 mV. -/
def State.trim (s : State) (d : Nat) : Int := sext (s.f32 (Reg.cdVolt d) 0 8) 8
/-- The setpoint of VDD_CDd for a frequency code, in mV. -/
def State.setpoint (s : State) (d code : Nat) : Nat := ((Config.vNom d code).toNat + 5 * s.trim d : Int).toNat

/-- Setpoints commanded on a rail, in steps of at most 50 mV (R534). -/
def State.avsSteps (s : State) (rail cur dest : Nat) : Nat → State
  | 0 => s
  | n + 1 =>
    if cur = dest then s
    else
      let v := if cur < dest then min dest (cur + 50) else max dest (cur - 50)
      (s.emit (.avs rail v)).avsSteps rail v dest n

/-- VDD_CDd is commanded to the setpoint of a code; a rail that has just started stands at its boot voltage of 750 mV. -/
def State.commandVolt (s : State) (d code : Nat) : State :=
  let v := s.setpoint d code
  let cur := s.f32 (Reg.cdVolt d) 16 11
  (s.avsSteps (2 * d) (if cur = 0 then 750 else cur) v 64).sf32 (Reg.cdVolt d) 16 11 v

/-! ## Clock-region alignment (R269) -/

/-- The offsets of the four crossings of die `d` as measured after its release number `i`; no release given beyond the list changes
what was measured last. -/
def dieOffsets (x : DawnIn) (i d : Nat) : List Int :=
  (List.range 4).map (fun k => (x.offsets.getD (min i (x.offsets.length - 1)) []).getD (4 * d + k) 0)

/-- The offsets are within ±0.5 nc. -/
def aligned (l : List Int) : Bool := l.all (fun v => decide (v.natAbs ≤ 32))

/-- The offsets that a die keeps: those of its first release within ±0.5 nc, else those of the third release after the first. -/
def keptOffsets (x : DawnIn) (d : Nat) : List Int :=
  dieOffsets x (((List.range 4).find? (fun i => aligned (dieOffsets x i d))).getD 3) d

/-! ## Engine spares (R119, Table 4-8) -/

/-- CORE_ENG_MAP of a core whose slot has the given faulty engines: those below 64, in ascending order, are replaced by the spares that
are sound. -/
def engMapWord (faulty : List Nat) : Nat :=
  let lost := upto 64 faulty.contains
  let spares := [64, 65].filter (fun e => !faulty.contains e)
  (upto 66 faulty.contains).length + ((lost.zip spares).map (fun x => if x.2 = 64 then 2 ^ 23 + x.1 * 2 ^ 16 else 2 ^ 31 + x.1 * 2 ^ 24)).sum

/-- The faulty engines of a slot, 20 d + 5 c + s, that the last cold Dawn found. -/
def State.faultyEngines (s : State) (slot : Nat) : List Nat := (s.dawn.engines.filter (fun e => e.1 == slot)).map (·.2)

/-- Slots with more than two faulty engines fail step 8 (R29, R119). -/
def engineFails (x : DawnIn) : List DawnFail :=
  (upto 160 (fun u => decide (2 < (upto 66 (fun e => x.engFaults.contains (u, e))).length))).map (fun u => ⟨8, 3, u, false, dawnTime x 8⟩)

/-- Step 10: the map of every core of die `d`, by the slot that serves it. -/
def State.mapEngines (s : State) (d : Nat) : State :=
  (List.range 16).foldl (fun s c => s.w32 (Reg.coreEngMap d c) (engMapWord (s.faultyEngines (20 * d + 5 * (c / 4) + s.slotOf (16 * d + c))))) s

/-! ## The memories (R178, R179) -/

/-- A die after the march test has found a failing row that is not yet mapped: it takes a spare row of its macro; with none left its
1 MiB of shared memory is a hole. -/
def DieState.marchRow (x : DieState) (row : Nat) : DieState :=
  let key := macroOf row
  let used := Tab.get (fun _ => 0) x.sparesUsed key
  if (x.prodRows ++ x.fieldRows ++ x.foundRows).contains row then x
  else if used < spareRows key then
    { x with foundRows := x.foundRows ++ [row], unrecorded := x.unrecorded ++ [row], sparesUsed := Tab.put (fun _ => 0) x.sparesUsed key (used + 1) }
  else if key / 2 ^ 32 = 0 then { x with holes := if x.holes.contains key then x.holes else x.holes ++ [key] }
  else x

/-- A die at step 9: recorded repairs are applied, and in a cold Dawn those that its march test finds; macros that were exhausted in
operation become holes. -/
def DieState.memoryStep (x : DieState) (cold : Bool) (rows : List Nat) : DieState :=
  let lost := x.exhausted.filter (fun k => k / 2 ^ 32 == 0)
  let x := { x with
    foundRows := if cold then [] else x.foundRows
    unrecorded := if cold then [] else x.unrecorded
    holes := ((if cold then x.fusedHoles else x.fusedHoles ++ x.holes) ++ lost).eraseDups }
  let x := { x with sparesUsed := sparesOf (x.prodRows ++ x.fieldRows ++ x.foundRows) }
  if cold then rows.foldl DieState.marchRow x else x

/-- Failing rows of a die by the march test. -/
def marchRows (x : DawnIn) (d : Nat) : List Nat := (x.rows.filter (fun e => e.1 == d)).map (·.2)

/-- The slot of a macro of region 1 or 2 on die `d`, numbered 20 d + 5 k + s. -/
def macroSlot (d key : Nat) : Nat := 20 * d + (if key / 2 ^ 32 = 1 then key % 2 ^ 32 / 192 else key % 2 ^ 32 / 1024)

/-- Slots with a failing row that no spare row of its macro is left for fail step 9 of a cold Dawn (Table 17-5); `s` is the state after
the memories have been tested. -/
def State.memoryFails (s : State) (x : DawnIn) : List DawnFail :=
  let bad := ((List.range 8).map (fun d =>
    let y := s.die d
    ((marchRows x d).filter (fun r => 0 < macroOf r / 2 ^ 32 && !((y.prodRows ++ y.fieldRows ++ y.foundRows).contains r))).map (fun r => macroSlot d (macroOf r)))).flatten
  bad.eraseDups.map (fun u => ⟨9, 3, u, false, dawnTime x 9⟩)

/-! ## The steps (Table 17-2) -/

/-- What a step does for every unit before results are looked at; `kind` is the kind of Dawn. -/
def State.stepBegin (s : State) (x : DawnIn) (kind step : Nat) : State :=
  match step with
  | 1 =>
    let s := (s.sf32 Reg.clkRef 0 1 (if x.refOk then 1 else 0)).sf32 Reg.clkRef 1 1 (if x.refOk then 0 else 1)
    s.readFuses x.vfuse
  | 2 =>
    let first := Tab.get (fun _ => 0) s.sec.first 0
    let n := s.dawnCount (dawnKey 2 0 0)
    let c := if s.sec.shadow.copyMgmt || 0 < n then 1 - first % 2 else first
    { s with sec := { s.sec with running := Tab.put (fun _ => 0) s.sec.running 0 c } }
  | 3 =>
    if kind = 2 then s
    else s.applyConfig (if s.dawn.failedLast.contains (dawnKey 3 0 0) then s.dawn.kept else x.record)
  | 5 => (upto 8 (fun d => s.f32 Reg.dawnDies (2 * d) 2 != 1 && s.f32 Reg.dawnDies (2 * d) 2 != 2)).foldl (fun s d =>
      (s.commandVolt d (s.f32 Reg.clkNoon 8 8)).emit (.avs (2 * d + 1) 800)) s
  | 6 => (List.range 32).foldl (fun s i => s.sf32 (Reg.cdXing (i / 4) (i % 4)) 0 8 (ofInt 8 ((keptOffsets x (i / 4)).getD (i % 4) 0))) s
  | 7 => modPairs.foldl (fun s k => s.setModule k (s.pickSet k)) s
  | 8 => { s with dawn := { s.dawn with engines := x.engFaults } }
  | 9 => (List.range 8).foldl (fun s d => s.setDie d ((s.die d).memoryStep (kind == 0) (marchRows x d))) s
  | 10 => (List.range 8).foldl (fun s d => if s.dieAbsent d then s else
      ((List.range 4).foldl (fun s k => s.chooseIdle d k) s).mapEngines d) s
  | 11 => s.spares
  | 13 =>
    let first := Tab.get (fun _ => 0) s.sec.first 1
    let n := s.dawnCount (dawnKey 13 0 0)
    let c := if s.sec.shadow.copyDisp || 0 < n then 1 - first % 2 else first
    { s with sec := { s.sec with running := Tab.put (fun _ => 0) s.sec.running 1 c } }
  | _ => s

/-- What a unit's result other than PASS does (Table 17-5). -/
def State.stepEffect (s : State) (step kind unit r : Nat) : State :=
  let bad := r = 2 ∨ r = 3 ∨ r = 4 ∨ r = 6
  let slot (s : State) : State :=
    if s.dawn.slots.contains unit then s else { s with dawn := { s.dawn with slots := s.dawn.slots ++ [unit] } }
  if step = 5 then (if bad then s.setDawnDie unit (if s.sec.shadow.marked 5 1 unit then 2 else 1) else s)
  else if step = 6 then (if r = 2 ∨ r = 3 then s.setDawnDie unit 1 else if r = 0 then s else s.setDawnDie unit 3)
  else if step = 7 then (if bad then s.moduleAbsent unit else if r = 1 then s.setModule unit 4 else s)
  else if step = 8 then (if kind = 1 then (if bad then s.setDawnDie unit 1 else s) else if bad then slot s else s)
  else if step = 9 then (if bad ∧ kind = 3 then slot s else s)
  else if step = 12 then (if r = 2 ∨ r = 3 then { s with dawn := { s.dawn with ethOut := s.dawn.ethOut ++ [unit] } } else s)
  else s

/-- What a step does once every unit has its result. -/
def State.stepEnd (s : State) (step : Nat) (port : Nat → Nat) : State :=
  match step with
  | 2 => s.deriveKeys
  | 9 => (List.range 8).foldl (fun s d => s.setDie d { s.die d with exhausted := [] }) s
  | 11 => (List.range 12).foldl (fun s p => s.trainPort p (port p)) s
  | _ => s

/-- The worst crossing offset of some dies. -/
def worstOffset (x : DawnIn) (dies : List Nat) : Nat := ((dies.map (keptOffsets x)).flatten.map Int.natAbs).foldl max 0

/-- DETAIL of a step's entry (Table 17-4): the worst crossing offset at step 6. -/
def dawnDetail (x : DawnIn) (step : Nat) : Nat := if step = 6 then worstOffset x (List.range 8) else 0

/-- DETAIL of a unit's entry: the set used at step 7, the die's worst offset at step 6. -/
def State.unitDetail (s : State) (x : DawnIn) (step unit : Nat) : Nat :=
  if step = 7 then s.f32 (endCfg unit) 28 3 else if step = 6 then worstOffset x [unit] else 0

/-- MAIN_PWR_EN is low, and one more Dawn has failed in a row (R444, R536). -/
def State.mainFalls (s : State) : State :=
  { s with power := { s.power with mainEn := false, waitGood := false }, dawn := { s.dawn with failedRow := s.dawn.failedRow + 1 } }

/-- The end of a Dawn as FAILED (R444): MAIN_PWR_EN falls (R536). -/
def State.dawnFailed (s : State) (x : DawnIn) (step : Nat) : State :=
  let s := (s.sf32 Reg.dawnStatus 28 2 2).sf32 Reg.dawnStatus 24 4 step
  let s := s.journal (dawnTime x step) 15 0 0 2 0 0
  (s.emit (.land 0 false)).mainFalls

/-- Dies whose crossings are out of range after the last release: they fail step 6 (R269). -/
def dawnSkewed (x : DawnIn) : List DawnFail :=
  (upto 8 (fun d => !aligned (keptOffsets x d))).map (fun d => ⟨6, 1, d, false, (dawnTime x 6)⟩)

/-- The state after one step with its result for each unit; the flag says that a package step failed, or with a wake from
Midnight that any unit did. -/
def State.dawnStep (s : State) (x : DawnIn) (fails : List DawnFail) (kind step : Nat) : State × Bool :=
  let s := s.sf32 Reg.dawnStatus 24 4 step
  let s := s.stepBegin x kind step
  let fails := if step = 6 then fails ++ dawnSkewed x
    else if step = 8 then fails ++ engineFails x
    else if step = 9 ∧ kind = 0 then fails ++ s.memoryFails x else fails
  let fails := if step = 3 ∧ kind ≠ 2 ∧ !configOk x.record then fails ++ [⟨3, 0, 0, false, (dawnTime x 3)⟩] else fails
  let slots := if step = 9 then ((List.range 8).map (fun d => ((s.die d).exhausted.filter (fun k => 0 < k / 2 ^ 32)).map (macroSlot d))).flatten
    else []
  let s := slots.foldl (fun s u => (s.journal (dawnTime x 9) 9 3 u 2 (s.dawnCount (dawnKey 9 3 u)) 0).stepEffect 9 3 u 2) s
  let units := (s.dawnUnits fails step).filter (fun u => match unitDie u.1 u.2 with | some d => step == 5 || !s.dieAbsent d | none => true)
  let pack := step = 1 ∨ step = 2 ∨ step = 3 ∨ step = 4 ∨ step = 13
  let units := if pack then [(0, 0)] else units
  let rs := units.map (fun u => (u, s.dawnResult fails step u.1 u.2))
  let s := rs.foldl (fun s e => (s.dawnRecord x step e.1.1 e.1.2 e.2 (s.unitDetail x step e.1.2)).stepEffect step e.1.1 e.1.2 e.2) s
  let clean := rs.all (fun e => e.2 == 0) && slots.isEmpty
  let s := if clean then s.journal (dawnTime x step) step 0 0 0 0 (dawnDetail x step) else s
  let lost := rs.any (fun e => (e.2 == 2 || e.2 == 3) && (pack || kind == 2))
  let port (p : Nat) : Nat := match rs.find? (fun e => e.1 == (5, p)) with | some e => e.2 | none => 0
  (if lost then s else s.stepEnd step port, lost)

/-- KILL_PENDING is carried out at step 1 (R481, R537); `none` where VFUSE is absent. -/
def State.killStep (s : State) (x : DawnIn) : Option State :=
  if !bitAt (s.r32 Reg.secStatus) 5 then some s
  else
    let s := (s.emit (.land 1 true)).emit (.land 1 false)
    if x.vfuse then some ((s.blow .udsKill).clr32 Reg.secStatus 5) else none

/-- Steps of a kind of Dawn from `step` on, in order (Table 17-2). -/
def stepsFrom (kind step : Nat) : List Nat :=
  ((if kind = 0 then [1, 2, 3, 4, 5, 6, 7, 8, 9, 10, 11, 12, 13]
    else if kind = 1 then [1, 2, 3, 4, 5, 6, 7, 9, 10, 11, 12, 13] else [2, 4, 5, 6, 7, 9, 10, 13]).filter (fun k => step ≤ k))

/-- MAIN_PWR_EN is raised where it is low. -/
def State.raiseMain (s : State) : State :=
  if s.power.mainEn then s else { s.emit (.land 0 true) with power := { s.power with mainEn := true } }

/-- The state in which step `k` runs: a requested kill of UDS is done first at step 1, or the step fails. -/
def State.killGate (s : State) (x : DawnIn) (k : Nat) : Option State := if k = 1 then s.killStep x else some s

/-- The steps of a list; the flag says that one ended the Dawn. Step 5 of a Dawn, and step 4 of a wake from Midnight, wait until the
main rails are good (R535, R536). -/
def State.dawnSteps (s : State) (x : DawnIn) (fails : List DawnFail) (kind : Nat) : List Nat → State × Bool
  | [] => (s.sf32 Reg.dawnStatus 24 4 14, false)
  | k :: rest =>
    if ((kind = 2 ∧ k = 4) ∨ k = 5) ∧ !s.power.mainGood then
      (({ s with power := { s.power with waitGood := true } }).sf32 Reg.dawnStatus 24 4 k, false)
    else
      let s := if k = 1 then s.raiseMain else s
      match s.killGate x k with
      | none => (s.dawnFailed x 1, true)
      | some s =>
        match s.dawnStep x fails kind k with
        | (s, true) => (if kind = 2 then s else s.dawnFailed x k, true)
        | (s, false) => s.dawnSteps x fails kind rest

/-- A Dawn of a kind begins: it is numbered and journalled, and the meter is told (R441, Table 19-6). -/
def State.dawnBegin (s : State) (kind : Nat) : State :=
  let s := s.w32 Reg.dawnSeq (s.r32 Reg.dawnSeq + 1)
  let s := (s.w32 Reg.dawnStatus (kind * 2 ^ 30)).sf32 Reg.jtagStatus 14 2 0
  let s := { s with sec := { s.sec with challenge := none } }
  let s := { s with dawn := { s.dawn with failedLast := s.dawn.failedNow, failedNow := [], ethOut := []
                                          slots := if kind = 0 then s.sec.fuses.slotFailed else s.dawn.slots } }
  let s := (s.journal 0 0 0 0 0 0 kind).sf32 Reg.pwrState 2 1 1
  s.audit 0x03 (kind + s.r32 Reg.dawnSeq % 2 ^ 32 * 2 ^ 8)

/-- A Dawn of a kind runs from its first step as far as it gets. A wake from Midnight that fails becomes a warm Dawn at once
(R438). -/
def State.runDawn (s : State) (x : DawnIn) (kind : Nat) : State :=
  let s := ({ s with power := { s.power with waitGood := false } }).w32 Reg.dawnDies 0
  let s := { s with dies := s.dies.map (fun (e : Nat × DieState) => (e.1, { e.2 with cond := .inService })) }
  match (s.dawnBegin kind).dawnSteps x x.fails kind (stepsFrom kind 0) with
  | (s, lost) =>
    if lost && kind == 2 then
      let s := s.w32 Reg.dawnDies 0
      let s := { s with dies := s.dies.map (fun (e : Nat × DieState) => (e.1, { e.2 with cond := .inService })) }
      ((s.dawnBegin 1).dawnSteps x x.again 1 (stepsFrom 1 0)).1
    else s

/-- The Dawn that waited for power-good goes on. -/
def State.resumeDawn (s : State) (x : DawnIn) : State :=
  if !s.power.waitGood then s
  else
    let s := { s with power := { s.power with waitGood := false } }
    let kind := s.f32 Reg.dawnStatus 30 2
    match s.dawnSteps x x.fails kind (stepsFrom kind (s.f32 Reg.dawnStatus 24 4)) with
    | (s, lost) => if lost && kind == 2 then ((s.dawnBegin 1).dawnSteps x x.again 1 (stepsFrom 1 0)).1 else s

/-- A reset of domain 4 or 5, counted, journalled and told to the meter, with everything reset (R435). -/
def State.resetPackage (s : State) (cold : Bool) (time : Nat) : State :=
  let dom := if cold then 5 else 4
  let s := ((s.countReset dom time).audit 0x04 dom).resetAll cold
  if cold then { s with jtag := { s.jtag with ir := 1 } }.clr32 Reg.jtagStatus 2 else s

/-- A pin-driving test instruction holds the pins (R509). -/
def State.pinsHeld (s : State) : Bool := bitAt (s.r32 Reg.jtagStatus) 2

/-- A Dawn of a kind begins, or waits while a pin-driving test instruction holds the pins (R509). A wake from Midnight raises
MAIN_PWR_EN first (R536). -/
def State.startDawn (s : State) (x : DawnIn) (kind : Nat) : State :=
  if s.pinsHeld then { s with power := { s.power with pinned := some (kind, x) } }
  else (if kind = 2 then s.raiseMain else s).runDawn x kind

/-- The pins are under mission control again, and a Dawn or wake that waited for them goes on (R509). -/
def State.freePins (s : State) : State :=
  let s := s.clr32 Reg.jtagStatus 2
  match s.power.pinned with
  | none => s
  | some (kind, x) => { s with power := { s.power with pinned := none } }.startDawn x kind

/-- A reset of domain 4 and the warm Dawn after it; none where three Dawns in a row have failed (R444). -/
def State.warmStart (s : State) (x : DawnIn) (time : Nat) : State :=
  let s := s.resetPackage false time
  if 3 ≤ s.dawn.failedRow then
    (s.sf32 Reg.dawnStatus 28 2 2)
  else s.runDawn x 1

/-! ## Events of a Dawn -/

/-- POR_N: low (`none`), a reset of domain 5 is held; released, the cold Dawn begins, or waits for the pins (R435, R509, R542). -/
def porN (x : Option DawnIn) (time : Nat) (s : State) : State :=
  match x with
  | none => if s.power.porLow then s else
      let s := s.resetPackage true time
      { s with power := { s.power with porLow := true }, dawn := { s.dawn with failedRow := 0 } }
  | some x =>
    let s := if s.power.porLow then s else s.resetPackage true time
    let s := { s with power := { s.power with porLow := false }, dawn := { s.dawn with failedRow := 0 } }
    if s.power.thermTrip then s else s.startDawn x 0

/-- WARM_RESET_N low for 1 us: a reset of domain 4, whose warm Dawn may wait for the pins (R435, R437, R509). -/
def warmResetN (x : DawnIn) (time : Nat) (s : State) : State :=
  if s.power.porLow || s.power.thermTrip then s
  else if s.pinsHeld && s.dawn.failedRow < 3 then (s.resetPackage false time).startDawn x 1
  else s.warmStart x time

/-- DAWN_WATCHDOG_EXPIRY: the Dawn has run past its limit; the unit in progress counts as failed (R445). -/
def dawnWatchdogExpiry (kind unit : Nat) (x : DawnIn) (time : Nat) (s : State) : State :=
  if s.f32 Reg.dawnStatus 28 2 ≠ 0 || s.r32 Reg.dawnSeq == 0 || s.pinsHeld || s.power.porLow then s
  else
    let step := s.f32 Reg.dawnStatus 24 4
    let s := s.dawnRecord { x with fails := [⟨step, kind, unit, true, time⟩] } step kind unit 3 0
    let s := s.count64 Reg.dawnResetCount 0 8 1
    let s := { s with dawn := { s.dawn with failedRow := s.dawn.failedRow + 1 } }
    s.warmStart x time

/-- FAILED_DAWN_RESTART: 1 s after a FAILED Dawn, a warm Dawn begins, unless three have failed in a row (R444). -/
def failedDawnRestart (x : DawnIn) (s : State) : State :=
  if s.f32 Reg.dawnStatus 28 2 ≠ 2 || 3 ≤ s.dawn.failedRow || s.power.pinned.isSome || s.power.porLow || s.power.thermTrip then s
  else (s.resetAll false).startDawn x 1

/-- Entries of a routing table, four to a word. -/
def State.writeRoutes (s : State) (base : Nat) (l : List Byte) : State :=
  (List.range 1024).foldl (fun s i => s.w32 (base + 4 * i) (leNat ((List.range 4).map (fun j => l.getD (4 * i + j) 0)))) s

/-- The routing table that the management firmware computes from the system map, package identifiers with their coordinates, and from
the identifiers of the packages cut out (R317, R319, R326). An identifier that the map does not hold has no route. -/
def State.routeTable (s : State) (map : List (Nat × Nat × Nat × Nat)) (cut : List Nat) : List Byte :=
  let w := s.r64 Reg.rteSelf
  let sizes := (List.range 3).map (fun k => fld w (32 + 4 * k) 4 + 1)
  let skips := (List.range 3).map (fun k => decide (4 ≤ sizes.getD k 1) && decide (0 < (ratioQuads (fld s.config (8 * (13 + k)) 8)).2))
  let place (e : Nat × Nat × Nat × Nat) : List Nat := [e.2.1, e.2.2.1, e.2.2.2]
  let gone' := (map.filter (fun e => cut.contains e.1)).map place
  (List.range 4096).map (fun id => BitVec.ofNat 8 (if id = fld w 0 12 then 2 ^ 7 + 12 else match map.find? (fun e => e.1 == id) with
    | none => 0
    | some e => toriEntry sizes skips gone' ((List.range 3).map (fun k => fld w (16 + 4 * k) 4)) (place e)))

/-- The lower SVN of a target's two firmware copies (R469). -/
def State.lowerSvn (s : State) (t : Nat) : Nat := min (s.firmwareCopy t 0).svn (s.firmwareCopy t 1).svn

/-- The field writes and marks that wait, and `more`, in one programming operation (R178, R443); a FUSE_PROGRAM that waits for VFUSE
goes on waiting. -/
def State.burnMarks (s : State) (more : List FuseWord) (vfuse : FuseSupply) (time : Nat) : State :=
  if s.dawn.marks.isEmpty && s.fieldWords.isEmpty && more.isEmpty then s
  else
    let who := s.sec.writing
    let s := ((s.raiseVfuse none).burn true more vfuse time).dropVfuse
    { s with sec := { s.sec with writing := who } }

/-- The fuse words by which each SVN fuse advances to the lower of the SVNs of its two copies (R462, R469). -/
def State.svnWords (s : State) : List FuseWord :=
  List.replicate (s.lowerSvn 0 - s.sec.fuses.svnMgmt) (.svn 0) ++ List.replicate (s.lowerSvn 1 - s.sec.fuses.svnDisp) (.svn 1)

/-- Ports and Ethernet train after Noon in a wake from Midnight (Table 17-2). -/
def State.lateSteps (s : State) (x : DawnIn) : State :=
  let st := s.r32 Reg.dawnStatus
  let s := ((s.dawnStep x x.fails 1 11).1.dawnStep x x.fails 1 12).1
  s.w32 Reg.dawnStatus (setFld (s.r32 Reg.dawnStatus) 24 8 (fld st 24 8))

/-- The Hour generator starts at count 0 in noon cycle `t` for every die present (R44, R438). -/
def State.startHours (s : State) (t : Nat) : State :=
  (List.range 8).foldl (fun s d =>
    let x := s.die d
    if s.dieAbsent d then s
    else s.setDie d { x with run := true, t0 := t, e0 := 0, s0 := 0, winEng := 0, winGap := 0, atHour := none, lastHour := 0, hold := none }) (s.w64 Reg.topHourCount 0)

/-- What a Dawn carries into Noon: the coupled package joins the Hours, kept trust keys are installed, and the configuration is
kept for the next Dawn (R361, R444). -/
def State.dawnCarried (s : State) : State :=
  let s := { s with hour := { s.hour with joining := s.coupled } }
  let used := (s.sec.keptTrust.filter (fun e => e.2.isSome)).length
  let s := ({ s with sec := { s.sec with trust := s.sec.keptTrust } }).sf32 Reg.ldrStatus 16 5 used
  { s with dawn := { s.dawn with failedRow := 0, kept := s.config } }

/-- An event for each alarm entry that the host has not heard of. -/
def State.tellAlarms (s : State) : State :=
  let s := s.sec.newAlarms.foldl (fun s e => s.postEvent 0x0120 0xFF 8 e) s
  { s with sec := { s.sec with newAlarms := [] } }

/-- The wake has ended. -/
def State.wokenUp (s : State) : State := { s with power := { s.power with waking := none } }

/-- DAWN_DONE: step 14 ends (R438, R440, R471, R480). The routing tables are those that the management firmware computes from the system
map and the packages cut out of the system (R326, log entry 67). -/
def dawnDone (x : DawnIn) (map : List (Nat × Nat × Nat × Nat)) (cut : List Nat) (t tick : Nat) (s : State) : State :=
  let st := s.r32 Reg.dawnStatus
  if fld st 28 2 ≠ 0 ∨ fld st 24 4 ≠ 14 then s
  else
    let kind := fld st 30 2
    let routes := s.routeTable map cut
    let s := (s.writeRoutes Reg.rteTableAct routes).writeRoutes Reg.rteTableStg routes
    let s := (s.burnMarks s.svnWords (if x.vfuse then .whole else .absent) (dawnTime x 14)).startHours t
    let s := s.dawnCarried
    let s := (s.sf32 Reg.dawnStatus 28 2 1).journal (dawnTime x 14) 14 0 0 0 0 0
    let s := s.journal (dawnTime x 14) 15 0 0 0 0 0
    let s := (s.sf32 Reg.pwrState 0 3 0).sf32 Reg.pwrState 8 3 (if kind = 2 then (s.power.waking.getD 4) else 4)
    let s := s.set32 Reg.secStatus 0
    let s := (s.closeInterval 5 tick [] false).audit 0x05 0
    let s := s.publish.postEvent 0x0110 0xFF 8 (s.r32 Reg.dawnSeq + kind * 2 ^ 32 + s.r32 Reg.dawnStatus * 2 ^ 64)
    let s := s.tellAlarms
    if kind = 2 then (s.postEvent 0x0100 0xFF 8 (s.power.waking.getD 4 * 2 ^ 8)).wokenUp.lateSteps x else s

/-! ## Meanings -/

/-- POR_N. -/
def execPorN (x : Option DawnIn) (time : Nat) (s : State) : Host.Outcome State Fault Refusal := .next (porN x time s)
/-- WARM_RESET_N. -/
def execWarmResetN (x : DawnIn) (time : Nat) (s : State) : Host.Outcome State Fault Refusal := .next (warmResetN x time s)
/-- DAWN_WATCHDOG_EXPIRY. -/
def execDawnWatchdogExpiry (kind : Fin 7) (unit : Fin 240) (x : DawnIn) (time : Nat) (s : State) : Host.Outcome State Fault Refusal :=
  .next (dawnWatchdogExpiry kind unit x time s)
/-- FAILED_DAWN_RESTART. -/
def execFailedDawnRestart (x : DawnIn) (s : State) : Host.Outcome State Fault Refusal := .next (failedDawnRestart x s)
/-- DAWN_DONE. -/
def execDawnDone (x : DawnIn) (map : List (Nat × Nat × Nat × Nat)) (cut : List Nat) (t tick : Nat) (s : State) : Host.Outcome State Fault Refusal :=
  .next (dawnDone x map cut t tick s)

end Sys2Proof.Machine
end

