-- ==== Sys2Proof/Machine/Resets.lean ====
section
/-!
DEFINITION. The resets of domains 1 to 3, hangs and watchdogs, job aborts and fences, and their admin commands
(17_dawn_resets_recovery.md R435-R437, R449-R458; 10_determinism.md R270).
-/

namespace Sys2Proof.Machine

/-! ## Resets of domains 1 to 3 (Table 17-1) -/

/-- A die that enters service waits for the first window it joins (R45). -/
def State.joinDie (s : State) (d : Nat) : State :=
  let k := s.hour.opened + 1
  s.setDie d { s.die d with cond := .inService, run := false, s0 := k * s.hourLen, atHour := some k, hold := none }

/-- A device address that lies in the core memory or the operand buffers of core `g`. -/
def inCore (g a : Nat) : Bool :=
  addrDie a == g / 16 && ((addrRegion a == 1 && addrOffset a / 0x3000000 == g % 16) || (addrRegion a == 2 && addrOffset a / 2 ^ 23 == g % 16))

/-- Core `g` reset: nothing in flight, its memories zero, the status registers of its units at reset (R435). -/
def State.resetCore (s : State) (g : Nat) : State :=
  let s := s.idleCore g
  let vec := Reg.vecStatus (g / 16) (g % 16)
  let s := { s with
    mem := s.mem.filter (fun e => !inCore g e.1)
    poison := s.poison.filter (fun e => !inCore g (8 * e.1))
    selfErr := s.selfErr.filter (fun e => !inCore g (8 * e.1))
    soft := s.soft.filter (fun e => !inCore g (8 * e.1))
    past := s.past.filter (fun e => !inCore g e.addr) }
  (List.range 64).foldl (fun s e => s.w32 (Reg.engAccStatus (g / 16) (g % 16) e) 0) (s.w32 vec 0)

/-- The flag file of a die and the contents of its decoupling queues are cleared. -/
def State.clearFabric (s : State) (d : Nat) : State :=
  let s := { s with flags := s.flags.filter (fun e => e.1 / 1024 != d), ctrs := s.ctrs.filter (fun e => e.1 / 1024 != d)
                    combines := s.combines.filter (fun x => x.place != d) }
  let s := s.setDie d { s.die d with flagCells := [], ctrCells := [], coalBase := [], coalWas := false, mesh := {}, landing := [] }
  (List.range 4).foldl (fun s m => s.emptyQueues (4 * d + m)) s

/-- What windows held back for a die that is reset before its own waits for the next window again, but for words staged since. -/
def State.restageHeld (s : State) (d : Nat) : State :=
  let x := s.die d
  let words := ((x.held.map (·.words)).flatten).filterMap (fun e => e.2.map (fun v => (e.1, v.toNat)))
  words.foldl (fun s w => if (s.stagedAt w.1).isSome && (x.held.all (fun y => Tab.get (fun _ => none) y.words w.1 != s.stagedAt w.1)) then s
    else s.stage w.1 w.2) (s.setDie d { x with held := [] })

/-- Image data of core `g` waits to be rewritten (R447, R376). -/
def State.rewriteCore (s : State) (g : Nat) : State :=
  let d := g / 16 * 2 ^ 36
  (s.openRepairs (d + 2 ^ 32 + g % 16 * 0x3000000) 0x3000000).openRepairs (d + 2 * 2 ^ 32 + g % 16 * 2 ^ 23) (2 ^ 23)

/-- A reset of domain 1, 2 or 3 begins in noon cycle `t`: its units stop and are reset, and its partitions undergo a fault-driven
change (R437). -/
def State.resetDomain (s : State) (dom d k slot : Nat) (cmd : Option Nat) (t time : Nat) : State :=
  let s := s.countReset dom time
  let cores := s.scopeCores dom d k slot
  let dies := if dom = 1 then [] else if dom = 2 then [d] else upto 8 (fun x => !s.dieAbsent x)
  let s := (List.range 64).foldl (fun s n => if cores.any (fun g => bitAt (s.members n) g) then s.abortStep n else s) s
  let s := dies.foldl (fun s x =>
    let s := ((s.recordHold x t).makeCopies (fun e => e.1 == x)).restageHeld x
    let y := s.die x
    (s.setDie x { y with cond := .inReset, run := false, e0 := s.engCycle x t, s0 := s.schedCount x t, t0 := t, hold := none }).clearFabric x) s
  let s := cores.foldl (fun s g => (s.resetCore g).rewriteCore g) s
  { s with power := { s.power with resets := s.power.resets ++ [⟨dom, d, k, slot, cmd⟩] } }

/-- A fabric fault of die `d`: a reset of domain 2, or of domain 3 where another die has faulted in the same Hour. -/
def State.fabricFault (s : State) (d t time : Nat) : State :=
  let s' := { s with power := { s.power with faultAt := some (d, s.hourCount) } }
  if s.power.resets.any (fun r => r.domain == 3 || (r.domain == 2 && r.die == d)) then s
  else match s.power.faultAt with
    | some (d', h) => if h = s.hourCount ∧ d' ≠ d then s'.resetDomain 3 0 0 0 none t time else s'.resetDomain 2 d 0 0 none t time
    | none => s'.resetDomain 2 d 0 0 none t time

/-- DOMAIN_RESET_COMPLETE: a reset of domain 1 to 3 ends and the domain runs again. A fenced slot that passed the method of step 8
is its cluster's idle slot again (Table 17-9). -/
def domainResetComplete (dom d k slot : Nat) (pass : Bool) (s : State) : State :=
  match s.power.resets.find? (fun r => r.domain == dom && (dom == 3 || (r.die == d && (dom == 2 || (r.cluster == k && r.slot == slot))))) with
  | none => s
  | some r =>
    let s := { s with power := { s.power with resets := s.power.resets.erase r } }
    let dies := if dom = 1 then [] else if dom = 2 then [d] else upto 8 (fun x => decide ((s.die x).cond = .inReset))
    let s := dies.foldl (fun s x => s.joinDie x) s
    let m := Reg.cdSlotMap d k
    let fenced := dom = 1 ∧ bitAt (s.r32 m) (15 + slot)
    let s := if fenced ∧ pass then ((s.clr32 m (15 + slot)).sf32 m 12 3 slot).clr32 m 20 else s
    match r.cmdId with
    | some id => s.complete 0 id 0 (if fenced ∧ pass then 1 else 0) 0
    | none => s

/-- XING_FAULT: the phase difference of crossing `k` of die `d` exceeds 3 nc (R270). Without a crossing it is a fault of a router node,
a mesh link or the slot exchange, which is a fabric fault too and for which the table has no row of its own (R241; log entry 54). -/
def xingFault (d : Nat) (k : Option Nat) (skew t time : Nat) (s : State) : State :=
  match k with
  | none => s.fabricFault d t time
  | some k =>
    let r := Reg.cdXing d k
    let s := s.sf32 r 16 8 (max (s.f32 r 16 8) (min skew 255))
    if skew ≤ 192 then s else (s.set32 r 31).fabricFault d t time

/-! ## RESET, FENCE_SLOT and DAWN_RETRY (Table 17-9) -/

/-- RESET: the Dusk of its domain begins (R437, R446). -/
def resetCmd (d : Desc) (s : State) : State :=
  let dom := d.f 8 1
  let die := d.f 9 1
  let k := d.f 10 1
  let slot := d.f 11 1
  let done (st : Nat) : State := s.complete 0 d.cmdId st 0 0
  let fieldsOk := 1 ≤ dom ∧ dom ≤ 5 ∧ die < 8 ∧ k < 4 ∧ slot < 5 ∧ (dom = 1 ∨ (k = 0 ∧ slot = 0)) ∧ (dom ≤ 2 ∨ die = 0) ∧ d.zero 12 64
  if !fieldsOk ∨ (dom ≤ 2 ∧ s.dieAbsent die) then done 0x11
  else
    let fenced := dom = 1 ∧ bitAt (s.r32 (Reg.cdSlotMap die k)) (15 + slot)
    let cores := s.scopeCores dom die k slot
    let runs := (List.range 64).any (fun n => s.pstate n == 3 && cores.any (fun g => bitAt (s.members n) g))
    let busy := s.power.dusk.isSome ∨ s.power.resets.any (fun r => r.domain == 3 || (dom ≤ 2 && r.die == die) || dom == 3)
    if dom ≤ 3 ∧ ((!fenced ∧ (runs ∨ (dom = 1 ∧ !cores.isEmpty))) ∨ busy) then done 0x24
    else if s.power.dusk.isSome then done 0x24
    else
      let s := { s with power := { s.power with dusk := some ⟨.reset dom die k slot, d.cmdId, false⟩ } }
      if dom ≤ 3 then s
      else (List.range 64).foldl (fun s n =>
        let p := s.part n
        if s.pstate n = 3 ∧ p.stopCmd.isNone then s.setPart n { p with stopCmd := some (gone, s.hourCount) } else s) s

/-- FENCE_SLOT: a serving slot is fenced as for a core failure. -/
def fenceSlot (d : Desc) (s : State) : State :=
  let die := d.f 9 1
  let k := d.f 10 1
  let slot := d.f 11 1
  if !(die < 8 && k < 4 && slot < 5 && d.zero 8 9 && d.zero 12 64) || s.dieAbsent die then s.complete 0 d.cmdId 0x11 0 0
  else match (s.scopeCores 1 die k slot).head? with
    | none => s.complete 0 d.cmdId 0x24 0 0
    | some g =>
      if bitAt (s.r32 (Reg.cdSlotMap die k)) (15 + slot) then s.complete 0 d.cmdId 0x24 0 0
      else (s.fenceCore g).complete 0 d.cmdId 0 0 0

/-- DAWN_RETRY: ACTION 0 clears a count of 1 or 2; ACTION 1 marks the unit, to be fused in the next Dusk (R442, R443). -/
def dawnRetry (d : Desc) (s : State) : State :=
  let step := d.f 8 1
  let key := dawnKey step (d.f 9 1) (d.f 10 2)
  if step = 0 ∨ 14 < step ∨ 6 < d.f 9 1 ∨ 2 ^ 12 ≤ d.f 10 2 ∨ 1 < d.f 12 1 ∨ !(d.zero 13 64) ∨ (d.f 12 1 = 1 ∧ !stepMarks step) then
    s.complete 0 d.cmdId 0x11 0 0
  else if d.f 12 1 = 1 then
    ({ s with dawn := { s.dawn with marks := if s.dawn.marks.contains key then s.dawn.marks else s.dawn.marks ++ [key] } }).complete 0 d.cmdId 0 0 0
  else (if s.dawnCount key ≤ 2 then s.setDawnCount key 0 else s).complete 0 d.cmdId 0 0 0

/-! ## Job aborts and fences (R451-R454) -/

/-- The state with a JOB_ABORT or JOB_RESUME waiting for its target Hour. -/
def State.pendJob (s : State) (j : JobChange) : State :=
  ({ s with hour := { s.hour with jobs := s.hour.jobs ++ [j] } }).set32 (Reg.topPartJob j.part) 5

/-- The status with which a JOB_ABORT or JOB_RESUME completes when it is taken, 0 where it waits. -/
def State.jobStatus (s : State) (d : Desc) : Nat :=
  let n := d.f 8 1
  if 64 ≤ n ∨ 16 ≤ d.f 9 1 ∨ !(d.zero 10 24) ∨ !(d.zero 32 64) then 0x11
  else if d.f 9 1 ≠ (s.gen n + 1) % 16 then 0x11
  else if s.pstate n < 2 then 0x24
  else if d.f 24 8 ≤ s.hour.opened then 0x60 else 0

/-- JOB_ABORT. -/
def jobAbort (d : Desc) (s : State) : State :=
  let n := d.f 8 1
  if n < 64 ∧ d.f 9 1 = s.gen n ∧ d.zero 10 24 ∧ d.zero 32 64 then s.complete 0 d.cmdId 0 0 0
  else
    let st := s.jobStatus d
    if st ≠ 0 then s.complete 0 d.cmdId st 0 0 else s.pendJob ⟨d.cmdId, n, false, d.f 9 1, d.f 24 8⟩

/-- JOB_RESUME. -/
def jobResume (d : Desc) (s : State) : State :=
  let n := d.f 8 1
  let st := s.jobStatus d
  if st ≠ 0 then s.complete 0 d.cmdId st 0 0
  else if !s.fencedJob n || !(s.part n).drained then s.complete 0 d.cmdId 0x24 0 0
  else s.pendJob ⟨d.cmdId, n, true, d.f 9 1, d.f 24 8⟩

/-- The JOB_ABORTs and JOB_RESUMEs of Hour `h` apply, in step 4 of its window (R452, R453). -/
def State.applyJobs (s : State) (h : Nat) : State :=
  let due := s.hour.jobs.filter (fun j => j.target ≤ h)
  let s := { s with hour := { s.hour with jobs := s.hour.jobs.filter (fun j => h < j.target) } }
  due.foldl (fun s j =>
    let n := j.part
    let r := Reg.topPartJob n
    let s := if s.hour.jobs.any (fun x => x.part == n) then s else s.clr32 r 5
    if j.resume then
      let s := ((s.clr32 r 4).sf32 r 0 4 j.gen).endPartTxns n
      (s.setPart n { s.part n with jobAborted := true, drained := false }).complete 0 j.cmdId 0 0 0
    else
      let s := s.suspendStep n
      if s.span n ≤ 256 then
        let s := (s.sf32 r 0 4 j.gen).endPartTxns n
        (s.setPart n { s.part n with jobAborted := true, faultChange := false }).complete 0 j.cmdId 0 0 0
      else (s.set32 r 4).setPart n { s.part n with jobAborted := false, drained := false, fenceCmd := some j.cmdId }) s

/-- FENCE_DRAINED: a fenced partition has no transaction left (R452). -/
def fenceDrained (n : Nat) (s : State) : State :=
  if !s.fencedJob n || (s.part n).drained || s.txnList.any (fun e => e.2.part == n) then s
  else
    let cmd := (s.part n).fenceCmd
    let s := s.setPart n { s.part n with drained := true, fenceCmd := none }
    let s := s.postEvent 0x0112 n 8 (n + s.hourCount * 2 ^ 64)
    match cmd with | some id => s.complete 0 id 0 0 0 | none => s

/-- JOB_ABORT_TIMEOUT: the faulted package has taken no JOB_ABORT for 4,096 Hours (R451). -/
def jobAbortTimeout (n : Nat) (s : State) : State :=
  let p := s.part n
  if s.suspended n && 1 < s.span n && !p.jobAborted && !s.fencedJob n && p.abortedAt + 4096 ≤ s.hourCount
      && !(s.hour.jobs.any (fun j => j.part == n)) then s.recordStop n 0x65 .fault
  else s

/-! ## Hangs and watchdogs (R455, R456) -/

/-- Partitions that own the cores whose conditions hold die `d` in noon cycle `t`. -/
def State.hangOwners (s : State) (d t : Nat) : List Nat :=
  let cores := (s.holders d t).map (fun x => x.2.2.1)
  (cores.filterMap (fun c => (s.owner (16 * d + c)).bind (fun n => if s.pstate n = 3 then some n else none))).eraseDups

/-- HANG: die `d` has held for HANG_MS without a break, and its holders' partitions stop at once; where it still holds HANG_MS later with
no owner left, the die is reset as domain 2. -/
def hangStop (d t time : Nat) (s : State) : State :=
  match (s.die d).hold with
  | none => s
  | some h =>
    if t - h.hung.getD h.since < max 1 (s.f32 Reg.dawnHangCtl 0 16) * 1000 * s.noonMHz then s
    else
      let now := s.holdNow d t h
      let owners := s.hangOwners d t
      let s := s.w64 (Reg.fabHoldLast d) (holdRecord now (t - h.since))
      let s := s.postEvent 0x0113 0xFF d (d + s.r64 (Reg.fabHoldLast d) * 2 ^ 64)
      if owners.isEmpty ∧ h.hung.isSome then s.fabricFault d t time
      else owners.foldl (fun s n => s.stopFault n 0x65) (s.setDie d { s.die d with hold := some { now with hung := some t } })

/-- WATCHDOG_EXPIRY: the watchdog of the management cores (0) or the dispatch cores (1) expires, and domain 4 is reset. -/
def watchdogExpiry (which : Nat) (x : DawnIn) (time : Nat) (s : State) : State :=
  if !(s.inNoon || (s.inTwilight && which == 0)) then s
  else
    let s := (s.journal time 17 0 0 3 0 which).count64 Reg.dawnResetCount 0 8 1
    s.warmStart x time

/-- VDD_AON_REMOVAL: everything but the fuses, the configuration flash and the Metering Unit is lost; THERMTRIP_N is released
(R435, R430). -/
def vddAonRemoval (s : State) : State :=
  let s' : State := {
    regs := s.regs.filter (fun e => addrDie e.1 == 8 && addrRegion e.1 == 15 && 0xB00000 ≤ addrOffset e.1 && addrOffset e.1 < 0xB01000)
    dies := s.dies.map (fun (e : Nat × DieState) => (e.1, { prodRows := e.2.prodRows, fieldRows := e.2.fieldRows, fusedHoles := e.2.fusedHoles, run := false }))
    meter := s.meter
    sec := { fuses := s.sec.fuses, flash := s.sec.flash, first := s.sec.first }
    host := { perst := s.host.perst, linkUp := false }
    freeCount := s.freeCount, out := s.out, pending := s.pending }
  if s.power.thermTrip then s'.emit (.land 2 true) else s'

/-! ## Meanings -/

/-- RESET. -/
def execResetDomain (d : Desc) (s : State) : Host.Outcome State Fault Refusal := .next (resetCmd d s)
/-- DOMAIN_RESET_COMPLETE. -/
def execDomainResetComplete (dom : Fin 4) (d : Fin 8) (k : Fin 4) (slot : Fin 5) (pass : Bool) (s : State) :
    Host.Outcome State Fault Refusal := .next (domainResetComplete dom d k slot pass s)
/-- XING_FAULT. -/
def execXingFault (d : Fin 8) (k : Option (Fin 4)) (skew t time : Nat) (s : State) : Host.Outcome State Fault Refusal :=
  .next (xingFault d (k.map (·.val)) skew t time s)
/-- FENCE_SLOT. -/
def execFenceSlot (d : Desc) (s : State) : Host.Outcome State Fault Refusal := .next (fenceSlot d s)
/-- DAWN_RETRY. -/
def execDawnRetry (d : Desc) (s : State) : Host.Outcome State Fault Refusal := .next (dawnRetry d s)
/-- JOB_ABORT. -/
def execJobAbort (d : Desc) (s : State) : Host.Outcome State Fault Refusal := .next (jobAbort d s)
/-- JOB_RESUME. -/
def execJobResume (d : Desc) (s : State) : Host.Outcome State Fault Refusal := .next (jobResume d s)
/-- FENCE_DRAINED. -/
def execFenceDrained (n : Fin 64) (s : State) : Host.Outcome State Fault Refusal := .next (fenceDrained n s)
/-- JOB_ABORT_TIMEOUT. -/
def execJobAbortTimeout (n : Fin 64) (s : State) : Host.Outcome State Fault Refusal := .next (jobAbortTimeout n s)
/-- HANG. -/
def execHangStop (d : Fin 8) (t time : Nat) (s : State) : Host.Outcome State Fault Refusal := .next (hangStop d t time s)
/-- WATCHDOG_EXPIRY. -/
def execWatchdogExpiry (which : Fin 2) (x : DawnIn) (time : Nat) (s : State) : Host.Outcome State Fault Refusal :=
  .next (watchdogExpiry which x time s)
/-- VDD_AON_REMOVAL. -/
def execVddAonRemoval (s : State) : Host.Outcome State Fault Refusal := .next (vddAonRemoval s)

end Sys2Proof.Machine
end

