-- ==== Sys2Proof/Machine/Power.lean ====
section
/-!
DEFINITION. Package states, Dusk, waking, the reference, droop and the guard (16_clocks_power_sleep.md,
17_dawn_resets_recovery.md R446, 22_electrical_mechanical.md R536).
-/

namespace Sys2Proof.Machine

/-! ## Entering a state (R408-R411) -/

/-- Every event that the event ring has room for is written. -/
def State.writeEvents (s : State) : State := (List.range s.host.events.length).foldl (fun s _ => eventWrite s) s

/-- Every die stops in noon cycle `t`. -/
def State.stopDies (s : State) (t : Nat) : State :=
  (List.range 8).foldl (fun s d =>
    let s := s.recordHold d t
    let x := s.die d
    if !x.run then s else s.setDie d { x with run := false, e0 := s.engCycle d t, s0 := s.schedCount d t, t0 := t, hold := none }) s

/-- The package leaves the coupled system (R67). -/
def State.leaveCoupled (s : State) : State := { s with hour := { s.hour with left := true, joining := false } }

/-- SLIP is set with its event, and the package leaves the coupled system (R67). -/
def State.slip (s : State) : State :=
  let s := s.set32 Reg.topHourStatus 4
  (s.postEvent 0x0008 0xFF 8 (s.r32 Reg.topHourStatus)).leaveCoupled

/-- The package is in Midnight: every domain but the always-on domain and the Metering Unit has lost its contents (R408, R411). The
event queue is kept (R433), and MAIN_PWR_EN falls (R536). -/
def State.enterMidnight (s : State) : State :=
  let granted := s.f32 Reg.jtagStatus 3 1
  let s' := s.resetAll false
  let s' := { s' with
    host := { s'.host with events := s.host.events, evSeq := s.host.evSeq, evLost := s.host.evLost, linkUp := false }
    power := { s'.power with mainEn := false } }
  let s' := (s'.emit (.land 0 false)).sf32 Reg.jtagStatus 3 1 granted
  ((s'.sf32 Reg.pwrState 0 3 2).audit 0x05 2).postEvent 0x0100 0xFF 8 2

/-- TWILIGHT, MIDNIGHT: refused, or the Dusk of the whole package begins (R409). -/
def sleepCmd (target : DuskFor) (d : Desc) (s : State) : State :=
  let ok := s.inNoon || (target == .midnight && s.inTwilight)
  if !(d.zero 8 64) then s.complete 0 d.cmdId 0x11 0 0
  else if !ok || s.anyRunning || s.anyLoad || s.power.dusk.isSome || s.power.waking.isSome || s.power.wakeCmd.isSome then
    s.complete 0 d.cmdId 0x24 0 0
  else ({ s with power := { s.power with dusk := some ⟨target, d.cmdId, false⟩ } }).set32 Reg.pwrState 2

/-! ## Waking (R412-R415) -/

/-- Entry to Twilight or Midnight is in progress. -/
def State.entering (s : State) : Bool := match s.power.dusk with
  | some x => x.target == .twilight || x.target == .midnight
  | none => false

/-- A wake source waits (Table 16-5). -/
def State.keepWake (s : State) (src : Nat) : State :=
  if s.power.wakes.contains src then s else { s with power := { s.power with wakes := s.power.wakes ++ [src] } }

/-- An enabled wake source acts: it waits for an entry in progress, or for the reference; from Midnight the wake's
Dawn steps run, once no test instruction holds the pins (R509). -/
def State.wakeBy (s : State) (src : Nat) (x : DawnIn) : State :=
  let st := s.f32 Reg.pwrState 0 2
  if s.power.thermTrip || s.power.waking.isSome then s
  else if s.entering then s.keepWake src
  else if st = 0 then s
  else if !bitAt (s.r32 Reg.clkRef) 0 then s.keepWake src
  else
    let s := ({ s with power := { s.power with waking := some src, wakes := s.power.wakes.erase src } }).set32 Reg.pwrState 2
    if st = 1 then s else s.startDawn x 2

/-- The first wake source that waits acts. -/
def State.nextWake (s : State) (x : DawnIn) : State := match s.power.wakes with
  | [] => s
  | src :: _ => s.wakeBy src x

/-- WAKE: taken in Twilight, or while the package enters it (R410, R415). -/
def wakeCmd (d : Desc) (x : DawnIn) (s : State) : State :=
  let twilight := s.inTwilight || (match s.power.dusk with | some k => k.target == .twilight | none => false)
  let leaving := match s.power.dusk with | some k => k.target == .midnight | none => false
  if !(d.zero 8 64) then s.complete 0 d.cmdId 0x11 0 0
  else if !twilight || leaving || s.power.waking.isSome || s.power.wakeCmd.isSome then s.complete 0 d.cmdId 0x24 0 0
  else ({ s with power := { s.power with wakeCmd := some d.cmdId } }).wakeBy 1 x

/-- WAKE_N held low for 1 us. -/
def wakeN (x : DawnIn) (s : State) : State := if bitAt (s.r32 Reg.pwrWake) 0 then s.wakeBy 2 x else s

/-- WAKE_TIMER_EXPIRY: TIMER_MS after entry. -/
def wakeTimerExpiry (x : DawnIn) (s : State) : State :=
  if bitAt (s.r32 Reg.pwrWake) 1 && s.f32 Reg.pwrWake 8 24 != 0 then s.wakeBy 3 x else s

/-- WAKE_REFERENCE_TIMEOUT: the reference stays absent for 1 ms after a WAKE (Table 16-5). -/
def wakeReferenceTimeout (s : State) : State :=
  match s.power.wakeCmd with
  | none => s
  | some id =>
    if s.power.waking.isSome || bitAt (s.r32 Reg.clkRef) 0 then s
    else ({ s with power := { s.power with wakeCmd := none, wakes := s.power.wakes.erase 1 } }).complete 0 id 0x24 0 0

/-- TWILIGHT_WAKE_COMPLETE: the stages of Table 16-4 have ended; the dies of `bad` have failed their crossings and stay stopped
(R413). -/
def twilightWakeComplete (bad : List Nat) (tick : Nat) (s : State) : State :=
  match s.power.waking with
  | none => s
  | some src =>
    if !s.inTwilight then s
    else
      let s := (s.sf32 Reg.pwrState 0 3 0).sf32 Reg.pwrState 8 3 src
      let s := (List.range 8).foldl (fun s d =>
        if s.dieAbsent d then s
        else
          let s := (s.avsSteps (2 * d) 550 (s.f32 (Reg.cdVolt d) 16 11) 64).avsSteps (2 * d + 1) 550 800 64
          if bad.contains d then ({ s with power := { s.power with stopped := s.power.stopped ++ [d] } }).postEvent 0x0104 0xFF d d
          else s.joinDie d) s
      let s := (s.closeInterval 5 tick [] false).audit 0x05 0
      let s := { s with hour := { s.hour with left := s.hour.left && !s.coupled, joining := s.coupled } }
      let s := s.postEvent 0x0100 0xFF 8 (src * 2 ^ 8)
      let cmd := s.power.wakeCmd
      let s := { s with power := { s.power with waking := none, wakeCmd := none, wakes := [] } }
      match cmd with | some id => s.complete 0 id 0 0 0 | none => s

/-! ## Dusk (R446, Table 17-6) -/

/-- Stage 4 of a Dusk: field writes, the journal entry, and over the whole package the meter's closure. -/
def State.duskRecord (s : State) (whole : Bool) (dom time tick : Nat) (vfuse : FuseSupply) : State :=
  let s := s.burnMarks [] vfuse time
  let s := if dom ≤ 1 then s.journal time 16 0 0 0 0 dom else s
  if whole then s.closeInterval 3 tick [] false else s

/-- DUSK_DRAIN_END: stages 1 to 3 have ended, and stages 4 and 5 run; a tenant switch's scrub and the reset of a requested domain
follow. `bad` is the scrub's verification (R477). -/
def duskDrainEnd (t tick time : Nat) (vfuse : FuseSupply) (bad : Bool) (x : DawnIn) (s : State) : State :=
  match s.power.dusk with
  | none => s
  | some k =>
    if k.drained then s
    else match k.target with
    | .tenant => if s.txnList.isEmpty then s.writeEvents.tenantEnd k.cmdId tick bad else s
    | .reset dom d c slot =>
      if dom ≤ 3 then
        let s := s.duskRecord false dom time tick vfuse
        ({ s with power := { s.power with dusk := none } }).resetDomain dom d c slot (some k.cmdId) t time
      else if s.anyRunning || !s.txnList.isEmpty then s
      else
        let s := (s.writeEvents.duskRecord true dom time tick vfuse).complete 0 k.cmdId 0 0 0
        let s := ({ s with power := { s.power with dusk := none } }).resetPackage (dom == 5) time
        s.runDawn x (5 - dom)
    | _ =>
      if !s.txnList.isEmpty then s
      else
        let s := (s.writeEvents.duskRecord true 0 time tick vfuse).stopDies t
        { s with power := { s.power with dusk := some { k with drained := true } } }

/-- POWER_STATE_ENTERED: entry to Twilight or Midnight is complete (R409); a wake source that waits acts then. -/
def powerStateEntered (x : DawnIn) (s : State) : State :=
  match s.power.dusk with
  | none => s
  | some k =>
    if !k.drained then s
    else match k.target with
    | .twilight =>
      let s := { s with power := { s.power with dusk := none } }
      let s := (List.range 8).foldl (fun s d => if s.dieAbsent d then s else
        (s.avsSteps (2 * d) (s.f32 (Reg.cdVolt d) 16 11) 550 64).avsSteps (2 * d + 1) 800 550 64) s
      let s := ((s.leaveCoupled.sf32 Reg.pwrState 0 3 1).audit 0x05 1).postEvent 0x0100 0xFF 8 1
      (s.complete 0 k.cmdId 0 0 0).nextWake x
    | .midnight =>
      let s := s.complete 0 k.cmdId 0 0 0
      (({ s with power := { s.power with dusk := none } }).enterMidnight).nextWake x
    | _ => s

/-! ## The reference and power-good (R417, R535, R536) -/

/-- REFERENCE_LOST: clocks go into holdover, the ports lose lock, and the package leaves the coupled system (R67, R417, R323). -/
def referenceLost (s : State) : State :=
  if !bitAt (s.r32 Reg.clkRef) 0 then s
  else
    let r := Reg.clkRef
    let s := (((s.clr32 r 0).set32 r 1).set32 r 2).set32 r 3
    let s := (List.range 12).foldl (fun s p => if s.portIn p then s.portGone p else s) s
    (if s.coupled then s.slip else s).postEvent 0x0102 0xFF 8 0

/-- REFERENCE_RESTORED: the generators slew back to lock; a wake source that waits acts (R415, R417). -/
def referenceRestored (x : DawnIn) (s : State) : State :=
  if bitAt (s.r32 Reg.clkRef) 0 then s
  else
    let r := Reg.clkRef
    let s := (((s.set32 r 0).clr32 r 1).clr32 r 2).set32 r 4
    (s.postEvent 0x0102 0xFF 8 1).nextWake x

/-- POWER_GOOD_RISE: the main rails are good, and what waits for them goes on. -/
def powerGoodRise (x : DawnIn) (s : State) : State :=
  if !s.power.mainEn then s else ({ s with power := { s.power with mainGood := true } }).resumeDawn x

/-! ## Droop and the guard (R420, R428) -/

/-- DROOP_TRIP: a detector of die `d` trips in noon cycle `t`. -/
def droopTrip (d t : Nat) (s : State) : State :=
  let s := s.count64 (Reg.cdClkCount d) 48 16 1
  let old := Tab.get (fun _ => none) s.power.droop d
  let now : Droop := match old with | some x => { x with last := t } | none => ⟨t, t⟩
  { s with power := { s.power with
    droop := Tab.put (fun _ => none) s.power.droop d (some now)
    trips := Tab.put (fun _ => 0) s.power.trips d (Tab.get (fun _ => 0) s.power.trips d + 1) } }

/-- DROOP_RELEASE: 32 nc after the last trip the stretch eases back over 16 nc; its cycles count. -/
def droopRelease (d t : Nat) (s : State) : State :=
  match Tab.get (fun _ => none) s.power.droop d with
  | none => s
  | some x =>
    if t < x.last + 32 then s
    else
      let s := s.count64 (Reg.cdClkCount d) 24 24 (x.last - x.first + 48)
      { s with power := { s.power with droop := Tab.put (fun _ => none) s.power.droop d none } }

/-- CAP in force: CAP_W, or the nearer end of its range (R427). -/
def State.capW (s : State) : Nat := min 2200 (max 600 (s.f32 Reg.pwrCap 0 12))

/-- GUARD_TRIP: the 100 us average (in 0.5 W) exceeds 2,400 W, or the 2 ms average exceeds CAP (R428). -/
def guardTrip (fast slow : Nat) (s : State) : State :=
  let s := s.sf64 Reg.pwrPower 16 16 (min fast 0xFFFF)
  if fast ≤ 4800 && slow ≤ 2 * s.capW then s
  else (({ s with power := { s.power with guard := true } }).set32 Reg.pwrStatus 3).count64 Reg.pwrCount 16 16 1

/-! ## Meanings -/

/-- TWILIGHT. -/
def execTwilight (d : Desc) (s : State) : Host.Outcome State Fault Refusal := .next (sleepCmd .twilight d s)
/-- MIDNIGHT. -/
def execMidnight (d : Desc) (s : State) : Host.Outcome State Fault Refusal := .next (sleepCmd .midnight d s)
/-- WAKE. -/
def execWakeCmd (d : Desc) (x : DawnIn) (s : State) : Host.Outcome State Fault Refusal := .next (wakeCmd d x s)
/-- WAKE_N. -/
def execWakeN (x : DawnIn) (s : State) : Host.Outcome State Fault Refusal := .next (wakeN x s)
/-- WAKE_TIMER_EXPIRY. -/
def execWakeTimerExpiry (x : DawnIn) (s : State) : Host.Outcome State Fault Refusal := .next (wakeTimerExpiry x s)
/-- WAKE_REFERENCE_TIMEOUT. -/
def execWakeReferenceTimeout (s : State) : Host.Outcome State Fault Refusal := .next (wakeReferenceTimeout s)
/-- TWILIGHT_WAKE_COMPLETE. -/
def execTwilightWakeComplete (bad : List (Fin 8)) (tick : Nat) (s : State) : Host.Outcome State Fault Refusal :=
  .next (twilightWakeComplete (bad.map (·.val)) tick s)
/-- DUSK_DRAIN_END. -/
def execDuskDrainEnd (t tick time : Nat) (vfuse : FuseSupply) (bad : Bool) (x : DawnIn) (s : State) : Host.Outcome State Fault Refusal :=
  .next (duskDrainEnd t tick time vfuse bad x s)
/-- POWER_STATE_ENTERED. -/
def execPowerStateEntered (x : DawnIn) (s : State) : Host.Outcome State Fault Refusal := .next (powerStateEntered x s)
/-- REFERENCE_LOST. -/
def execReferenceLost (s : State) : Host.Outcome State Fault Refusal := .next (referenceLost s)
/-- REFERENCE_RESTORED. -/
def execReferenceRestored (x : DawnIn) (s : State) : Host.Outcome State Fault Refusal := .next (referenceRestored x s)
/-- POWER_GOOD_RISE. -/
def execPowerGoodRise (x : DawnIn) (s : State) : Host.Outcome State Fault Refusal := .next (powerGoodRise x s)
/-- DROOP_TRIP. -/
def execDroopTrip (d : Fin 8) (t : Nat) (s : State) : Host.Outcome State Fault Refusal := .next (droopTrip d t s)
/-- DROOP_RELEASE. -/
def execDroopRelease (d : Fin 8) (t : Nat) (s : State) : Host.Outcome State Fault Refusal := .next (droopRelease d t s)
/-- GUARD_TRIP. -/
def execGuardTrip (fast slow : Nat) (s : State) : Host.Outcome State Fault Refusal := .next (guardTrip fast slow s)

end Sys2Proof.Machine
end

