-- ==== Sys2Proof/Machine/Alarms.lean ====
section
/-!
DEFINITION. Alarms, the fuse check, power-good, temperature and the end of a debug grant (18_security.md R464, R479-R483, R485,
16_clocks_power_sleep.md R429-R431, 20_boundary_scan_and_test.md R515, 22_electrical_mechanical.md R539).
-/

namespace Sys2Proof.Machine

/-- STATE of an alarm-log entry (Table 18-15): 0 Noon, 1 Twilight, 2 Midnight, 3 Dawn. -/
def State.alarmState (s : State) : Nat :=
  if s.f32 Reg.pwrState 0 2 = 1 then 1
  else if s.f32 Reg.pwrState 0 2 = 2 ∧ s.power.waking.isNone then 2
  else if s.inNoon then 0 else 3

/-- The strongest policy of the classes of one handling (R483). -/
def State.strongest (s : State) (trips : List AlarmTrip) : Nat :=
  trips.foldl (fun p x => if policyRank p < policyRank (s.policyOf x.cls.val) then s.policyOf x.cls.val else p) 1

/-- One alarm-log entry per class, and the entries (R483, R488). -/
def State.logTrips (s : State) (x : AlarmIn) (policy state : Nat) : List Nat × State :=
  x.trips.foldl (fun acc y =>
    let (l, s) := acc
    if l.any (fun e => fld e 61 3 == y.cls.val) then acc
    else
      let e := alarmBits (s.r32 Reg.dawnSeq) x.time y.cls.val y.unit.toNat y.detail.toNat + policy * 2 ^ 59 + state * 2 ^ 57
      (l ++ [e], s.logAlarm e)) ([], s)

/-- PERMANENT: UDS_KILL is blown where VFUSE is present, or waits for it (R481). -/
def State.killUds (s : State) (vfuse : Bool) : State :=
  if vfuse then (s.blow .udsKill).set32 Reg.secStatus 4
  else s.set32 Reg.secStatus 5

/-- Every partition stops with ALARM: no die issues, and every LOADED or RUNNING partition ends (R480, R485). -/
def State.stopForAlarm (s : State) : State :=
  let s := (List.range 8).foldl (fun s d => s.setDie d { s.die d with run := false, hold := none }) s
  let s := (List.range 64).foldl (fun s n => if s.loadedOrRunning n then s.stopFault n 0x56 else s) s
  s.serving.requests.foldl (fun s r => s.endRequest r (r.ending.getD 0x32) 0) s

/-- Every owed completion is written: ALARM, beside what R406 has given the requests (R480). -/
def State.completeOwed (s : State) : State :=
  let s := s.host.sets.foldl (fun s x => s.complete 0 x.cmdId 0x56 0 0) s
  let s := s.host.patches.foldl (fun s x => s.complete x.rid x.cmdId 0x56 0 0) s
  (List.range 66).foldl (fun s rid => s.completeRing rid 0x56) s

/-- An alarm in Noon (R480). -/
def State.alarmNoon (s : State) (x : AlarmIn) (policy : Nat) (entries : List Nat) : State :=
  let temp := x.trips.any (fun y => y.cls.val == 2)
  let s := s.stopForAlarm
  let s := s.eraseKeys (policy != 1)
  let s := s.journal x.time 16 0 0 0 0 (if temp then 0 else 4)
  let s := s.completeOwed
  let s := { s with power := { s.power with dusk := none, wakeCmd := none } }
  let s := entries.foldl (fun s e => s.postEvent 0x0120 0xFF 8 e) s
  let s := if s.host.running then s.writeEvents else s
  let cls (e : Nat) : Nat := fld e 61 3 + s.nextEpoch % 2 ^ 48 * 2 ^ 8
  let rest := (entries.drop 1).map cls
  let s := s.scrubEpoch x.tick 0x07 (cls (entries.headD 0))
  let s := rest.foldl (fun s c => s.audit 0x07 c) s
  if temp then s.enterMidnight else s.warmStart x.dawn x.time

/-- An alarm of one handling acts by the state of the package (R480-R483). -/
def State.alarm (s : State) (x : AlarmIn) : State :=
  if x.trips.isEmpty then s
  else
    let state := s.alarmState
    let policy := s.strongest x.trips
    let s := if state = 0 then { s with dies := s.dies.map (fun (e : Nat × DieState) => (e.1, { e.2 with run := false })) } else s
    let (entries, s) := s.logTrips x policy state
    let s := if policyRank policy = 2 then s.killUds x.vfuse else s
    let told (s : State) : State := entries.foldl (fun s e => s.audit 0x07 (fld e 61 3 + s.r64 Reg.secTenant % 2 ^ 48 * 2 ^ 8)) s
    match state with
    | 0 => s.alarmNoon x policy entries
    | 1 =>
      let s := told (s.eraseKeys (policy != 1))
      let s := (match s.power.wakeCmd with | some id => s.complete 0 id 0x56 0 0 | none => s)
      ({ s with mem := [], poison := [], selfErr := [], soft := [], past := [] }).enterMidnight
    | 2 => told s
    | _ =>
      let s := told (s.eraseKeys (policy != 1))
      if s.f32 Reg.dawnStatus 28 2 = 0 ∧ s.r32 Reg.dawnSeq ≠ 0 then s.dawnFailed x.dawn (s.f32 Reg.dawnStatus 24 4) else s

/-- FUSE_SHADOW_CHECK: in Noon and Twilight, with what the comparison found (R464). -/
def fuseShadowCheck (finding : Option AlarmIn) (s : State) : State :=
  match finding with
  | none => s
  | some x => if s.alarmState ≤ 1 then s.alarm x else s

/-- POWER_GOOD_FALL: the input of a rail falls, 2 d and 2 d + 1 for VDD_CDd and VDDM_CDd, 16 VDD_IOD, 17 VDD_SDS, with its reading in
mV. A rail that the present state requires raises the VOLT alarm (R539). -/
def powerGoodFall (rail mv : Nat) (x : AlarmIn) (s : State) : State :=
  let needed := s.power.mainEn && s.alarmState != 2 && !s.power.waitGood && s.f32 Reg.dawnStatus 28 2 != 2
    && !(rail < 16 && s.dieAbsent (rail / 2))
  let s := { s with power := { s.power with mainGood := false } }
  let unit := (if rail < 16 then rail / 2 else 8) + 16 * rail
  if needed then s.alarm { x with trips := ⟨0, BitVec.ofNat 16 unit, BitVec.ofNat 32 mv⟩ :: x.trips } else s

/-! ## Temperature (R429-R431) -/

/-- THROTTLE_C in force, in 0.5 C. -/
def State.throttleAt (s : State) : Nat := 2 * min 105 (max 70 (s.f32 Reg.pwrTherm 0 8))

/-- A trip at 120 C: THERMTRIP_N falls, and the package goes to Midnight (R430). -/
def State.thermTrip (s : State) (time : Nat) (x : DawnIn) : State :=
  if s.power.thermTrip then s
  else
    let dawning := s.alarmState == 3 && s.f32 Reg.dawnStatus 28 2 == 0 && s.r32 Reg.dawnSeq != 0
    let s := if dawning then s.dawnFailed { x with times := List.replicate 14 time } (s.f32 Reg.dawnStatus 24 4) else s
    let s : State := { s.emit (.land 2 false) with power := { s.power with thermTrip := true } }
    if s.alarmState = 2 then s else s.enterMidnight

/-- The THERMAL event of a sensor (Table 16-7). -/
def State.thermalEvent (s : State) (kind d sensor reading : Nat) : State :=
  s.postEvent 0x0101 0xFF 8 (kind + d * 2 ^ 8 + sensor * 2 ^ 16 + reading * 2 ^ 64)

/-- The readings of a die (8: the IOD) are stored: the slots' in CD_SLOT_TEMP, and their averages and ages (R429, R431). -/
def State.storeTemps (s : State) (d : Nat) (readings averages ages : List Nat) : State :=
  let n := if d = 8 then 8 else 24
  let s := { s with power := { s.power with
    temps := (List.range n).foldl (fun t i => Tab.put (fun _ => 0) t (32 * d + i) (readings.getD i 0)) s.power.temps
    maxRead := (readings.take n).foldl max s.power.maxRead } }
  if d = 8 then s
  else (List.range 20).foldl (fun s i =>
    let s := (s.sf64 (Reg.cdSlotTemp d (i / 5)) (8 * (i % 5)) 8 (min 255 (readings.getD i 0))).sf64 (Reg.cdSlotAge d (i / 5)) (12 * (i % 5)) 12
      (min 4095 (ages.getD i 0))
    { s with power := { s.power with average := Tab.put (fun _ => 0) s.power.average (20 * d + i) (averages.getD i 0) } }) s

/-- Sensors of a die at or above 110 C are followed; those that have held for 1 ms are listed (R430). -/
def State.hotSensors (s : State) (d time : Nat) (readings : List Nat) : List (Nat × Nat) × State :=
  (List.range (if d = 8 then 8 else 24)).foldl (fun acc i =>
    let (l, s) := acc
    let r := readings.getD i 0
    let put (v : Option Nat) : State := { s with power := { s.power with hot := Tab.put (fun _ => none) s.power.hot (32 * d + i) v } }
    if r < 220 then (l, put none)
    else match Tab.get (fun _ => none) s.power.hot (32 * d + i) with
      | none => (l, put (some time))
      | some t0 => if time - t0 < 1000 then acc else (l ++ [(i, r)], put (some time))) ([], s)

/-- TEMPERATURE_SAMPLE: the sensors of a die or of the IOD (8) are sampled at a time in us, readings in 0.5 C; `averages` over the last
10 s of Noon and `ages` in ppm are the slots'. In Midnight only the IOD's sensors run (R429-R431). -/
def temperatureSample (d : Nat) (readings averages ages : List Nat) (time : Nat) (x : AlarmIn) (s : State) : State :=
  let st := s.alarmState
  if d ≠ 8 ∧ (st = 2 ∨ s.dieAbsent d) then s
  else
    let s := s.storeTemps d readings averages ages
    let top := (readings.zipIdx).foldl (fun (b : Nat × Nat) r => if b.1 < r.1 then r else b) (0, 0)
    let s :=
      if st ≠ 0 then s
      else
        let was := s.power.throttled
        let now := s.power.temps.any (fun e => s.throttleAt ≤ e.2)
        let s := if now then s.set32 Reg.pwrStatus 4 else s
        let s := { s with power := { s.power with throttled := now } }
        if was == now then s else s.thermalEvent (if now then 0 else 1) d top.2 top.1
    let (hot, s) := s.hotSensors d time readings
    let s := match hot with
      | [] => s
      | (i, r) :: _ => (s.thermalEvent 2 d i r).alarm { x with trips := ⟨2, BitVec.ofNat 16 (d + 16 * i), BitVec.ofNat 32 r⟩ :: x.trips }
    if 240 ≤ top.1 then s.thermTrip time x.dawn else s

/-! ## The debug grant (R485, R515) -/

/-- DEBUG_GRANT: the scrub of a debug grant completes. -/
def debugGrant (tick : Nat) (s : State) : State :=
  if !s.sec.granting then s
  else
    let s := { s.completeOwed with power := { s.power with dusk := none, wakeCmd := none } }
    let s := s.scrubEpoch tick 0x08 (s.nextEpoch % 2 ^ 48 * 2 ^ 8)
    let s := { s with sec := { s.sec with granting := false } }
    ((s.set32 Reg.secStatus 3).set32 Reg.jtagStatus 3).postEvent 0x0122 0xFF 8 (s.r32 Reg.dawnSeq)

/-- CHALLENGE_EXPIRY: 60 s after a challenge it is no longer valid. -/
def challengeExpiry (s : State) : State := { s with sec := { s.sec with challenge := none } }

/-! ## Meanings -/

/-- ALARM. -/
def execAlarmTrip (x : AlarmIn) (s : State) : Host.Outcome State Fault Refusal := .next (s.alarm x)
/-- FUSE_SHADOW_CHECK. -/
def execFuseShadowCheck (finding : Option AlarmIn) (s : State) : Host.Outcome State Fault Refusal := .next (fuseShadowCheck finding s)
/-- POWER_GOOD_FALL. -/
def execPowerGoodFall (rail : Fin 18) (mv : Nat) (x : AlarmIn) (s : State) : Host.Outcome State Fault Refusal :=
  .next (powerGoodFall rail mv x s)
/-- TEMPERATURE_SAMPLE. -/
def execTemperatureSample (d : Fin 9) (readings averages ages : List Nat) (time : Nat) (x : AlarmIn) (s : State) :
    Host.Outcome State Fault Refusal := .next (temperatureSample d readings averages ages time x s)
/-- DEBUG_GRANT. -/
def execDebugGrant (tick : Nat) (s : State) : Host.Outcome State Fault Refusal := .next (debugGrant tick s)
/-- CHALLENGE_EXPIRY. -/
def execChallengeExpiry (s : State) : Host.Outcome State Fault Refusal := .next (challengeExpiry s)

end Sys2Proof.Machine
end

