-- ==== Sys2Proof/Machine/Writes.lean ====
section
/-!
DEFINITION. Writes of register words, with the conditions under which a register ignores them (00_scope.md R19 and R23,
02_the_hour_and_partitions.md R46 and R56, 06_memory_hierarchy.md R169, 07_layer_cards.md R184, 08_flags_ordering_interlocks.md R217,
09_fabric_and_die_links.md R247, 10_determinism.md R281, 12_system_topology.md R318, 14_model_images_and_loading.md R369).
-/

namespace Sys2Proof.Machine

/-- BOUND_REJECT of a die (R169, R184, R217, R247). -/
def State.boundReject (s : State) (d : Nat) : State := s.set32 (Reg.cdMemStatus d) 1
/-- MEMBER_REJECT of a partition (R55, R56). -/
def State.memberReject (s : State) (n : Nat) : State := s.set32 (Reg.topPartStatus n) 16

/-- Partition whose TOP_PART_MEMBER, or whose peer table, holds the register word at an address. -/
def memberOf (a : Nat) : Option Nat :=
  if Reg.topPartMember 0 ≤ a ∧ a < Reg.topPartMember 64 ∧ (a - Reg.topPartMember 0) % 0x100 < 16 then some ((a - Reg.topPartMember 0) / 0x100) else none
/-- Partition whose peer table holds the register word at an address. -/
def peerOf (a : Nat) : Option Nat :=
  if Reg.rtePeer 0 0 ≤ a ∧ a < Reg.rtePeer 64 0 then some ((a - Reg.rtePeer 0 0) / 0x1000) else none
/-- Die and partition whose CD_PBB_SHM, CD_PBB_CORE or CD_FLAGWIN holds the register word at an address. -/
def boundOf (a : Nat) : Option (Nat × Nat) :=
  let o := addrOffset a
  if addrRegion a = 15 ∧ addrDie a < 8 ∧ 0x1000 ≤ o ∧ o < 0x1800 ∧ (o - 0x1000) % 0x20 < 0x18 then some (addrDie a, (o - 0x1000) / 0x20) else none
/-- Core whose CORE_STREAM holds the register word at an address. -/
def streamOf (a : Nat) : Option Nat :=
  let o := addrOffset a
  if addrRegion a = 15 ∧ addrDie a < 8 ∧ 0x1000000 ≤ o ∧ o < 0x1100000 ∧ o % 0x10000 < 8 then some (16 * addrDie a + (o - 0x1000000) / 0x10000) else none
/-- Core whose CORE_DIGEST_CAP_CTL holds the register word at an address. -/
def captureOf (a : Nat) : Option Nat :=
  let o := addrOffset a
  if addrRegion a = 15 ∧ addrDie a < 8 ∧ 0x1000000 ≤ o ∧ o < 0x1100000 ∧ 0x58 ≤ o % 0x10000 ∧ o % 0x10000 < 0x60 then
    some (16 * addrDie a + (o - 0x1000000) / 0x10000) else none
/-- Die and entry of FAB_MCAST that holds the register word at an address. -/
def mcastOf (a : Nat) : Option (Nat × Nat) :=
  let o := addrOffset a
  if addrRegion a = 15 ∧ addrDie a < 8 ∧ 0x101000 ≤ o ∧ o < 0x103000 then some (addrDie a, (o - 0x101000) / 0x20) else none
/-- Die whose CD_COMMON_SHM holds the register word at an address. -/
def commonOf (a : Nat) : Option Nat :=
  if addrRegion a = 15 ∧ addrDie a < 8 ∧ 0x18 ≤ addrOffset a ∧ addrOffset a < 0x20 then some (addrDie a) else none

/-- OWNER of a FAB_MCAST entry (Table 9-3). -/
def State.mcastOwner (s : State) (d t : Nat) : Nat := s.f32 (Reg.fabMcast d t + 28) 25 6

/-- The state in which a write of the register word at an address has been ignored with its reject bit set; `none` where the
register takes it. `planned` says that a planned capacity change writes it. -/
def State.ignoredWrite (s : State) (planned : Bool) (a : Nat) : Option State :=
  match memberOf a, peerOf a, boundOf a, streamOf a, mcastOf a, commonOf a with
  | some n, _, _, _, _, _ => if !planned && s.locked n then some (s.memberReject n) else none
  | _, some n, _, _, _, _ => if !planned && s.loadedOrRunning n then some (s.set32 Reg.rteStatus 4) else none
  | _, _, some (d, n), _, _, _ => if !planned && s.locked n then some (s.boundReject d) else none
  | _, _, _, some g, _, _ =>
    if !planned && (match s.owner g with | some n => s.loadedOrRunning n | none => false) then some (s.boundReject (g / 16)) else none
  | _, _, _, _, some (d, t), _ => if s.loadedOrRunning (s.mcastOwner d t) then some (s.boundReject d) else none
  | _, _, _, _, _, some d => if !planned && s.dieBusy d then some (s.boundReject d) else none
  | _, _, _, _, _, _ => none

/-- What writing 1 to ARM does beside setting it: every VALID bit and COUNT clear (R281). -/
def State.armCapture (s : State) (g : Nat) : State :=
  let d := g / 16
  let c := g % 16
  let s := (List.range 64).foldl (fun s i => s.w32 (Reg.coreDigestCap d c i + 8) 0) s
  s.sf64 (Reg.coreDigestCapCtl d c) 56 7 0

/-- HOUR_LEN_LOG2 of a write to TOP_HOUR_CTL (R46). -/
def State.stageHourLen (s : State) (v : Nat) : State :=
  let n := v % 32
  if n = fld (s.nextWord Reg.topHourCtl) 0 5 then s
  else if n < 12 ∨ 24 < n ∨ (List.range 64).any s.loadedOrRunning then s.set32 Reg.topHourStatus 1
  else s.stage Reg.topHourCtl n

/-- The RWH fields of a register word written: staged for the next Hour (R19, R21). -/
def State.writeStaged (s : State) (planned : Bool) (a v : Nat) : State :=
  match Reg.find a with
  | none => s
  | some (r, x) =>
    let m := wordMask r.rwh x
    if r.rwh = 0 then s
    else match s.ignoredWrite planned a with
      | some s' => s'
      | none => if a = Reg.topHourCtl then s.stageHourLen v else if m = 0 then s else s.stage a (BitVec.ofNat 32 v &&& m).toNat

/-- The RW and W1C fields of a register word written: they act at once (R19). -/
def State.writeNow (s : State) (planned : Bool) (a v : Nat) : State :=
  match Reg.find a with
  | none => s
  | some (r, x) =>
    let rw := wordMask r.rw x
    let w1c := wordMask r.w1c x
    let v' := BitVec.ofNat 32 v
    if r.rw = 0 ∧ r.w1c = 0 then s
    else match (if r.rw = 0 then none else s.ignoredWrite planned a) with
      | some s' => s'
      | none =>
        let cur := BitVec.ofNat 32 (s.r32 a)
        let s := s.w32 a (((cur &&& ~~~rw) ||| (v' &&& rw)) &&& ~~~(v' &&& w1c)).toNat
        match captureOf a with
        | some g => if a % 8 = 4 ∧ bitAt v 31 then s.armCapture g else s
        | none => s

/-- A plain write of a register word. -/
def State.writeReg (s : State) (a v : Nat) : State := (s.writeNow false a v).writeStaged false a v

/-- A write of `k` consecutive register words. -/
def State.writeRegs (s : State) (a v : Nat) : Nat → State
  | 0 => s
  | k + 1 => (s.writeReg a (v % 2 ^ 32)).writeRegs (a + 4) (v / 2 ^ 32) k

end Sys2Proof.Machine
end

