-- ==== Sys2Proof/Machine/Access.lean ====
section
/-!
DEFINITION. Accesses of the host, the management cores and the dispatch cores to memories, flag files and registers
(00_scope.md R13-R19; 06_memory_hierarchy.md R152, R161 and R164; 08_flags_ordering_interlocks.md R216, R221, R222 and R236;
10_determinism.md R281; 12_system_topology.md R314 and R318; 13_host_rings.md R328, R340, R350 and R354;
14_model_images_and_loading.md R362; 18_security.md R465; 21_register_index.md R521-R526).
-/

namespace Sys2Proof.Machine

/-! ## Registers with an action of their own -/

/-- The MSI-X vector whose mask word lies at an address. -/
def maskOf (a : Nat) : Option Nat :=
  let lo := Reg.msixEntry 0
  if lo ≤ a ∧ a < Reg.msixPba ∧ (a - lo) % 16 = 12 then some ((a - lo) / 16) else none

/-- A vector unmasked with its pending bit set sends its message (R340). -/
def State.sendPending (s : State) (v : Nat) : State :=
  let p := Reg.msixPba + v / 32 * 4
  if bitAt (s.r32 (Reg.msixEntry v + 12)) 0 || !bitAt (s.r32 p) (v % 32) then s else (s.clr32 p (v % 32)).sendVector v

/-- A register of a die that Dawn left absent. -/
def State.onAbsent (s : State) (a : Nat) : Bool := addrDie a < 8 && s.dieAbsent (addrDie a)

/-- A write of one register word by any requester: what its register does (R19, R349, R350, R354). -/
def State.putRegister (s : State) (a v : Nat) : State :=
  if s.onAbsent a then s
  else if a = Reg.hstCtl then enable (bitAt v 0) s
  else if a = Reg.hstErrInfo then (if bitAt v 31 then errValid s else s)
  else if Reg.hstAdminSq ≤ a ∧ a < Reg.hstAdminCq + 8 then (if bitAt (s.r32 Reg.hstCtl) 0 then s else s.writeReg a v)
  else match maskOf a with
    | some x => (s.writeReg a v).sendPending x
    | none => s.writeReg a v

/-- A write of consecutive register words, low address first. -/
def State.putRegisters (s : State) (a : Nat) : List Nat → State
  | [] => s
  | v :: t => (s.putRegister a v).putRegisters (a + 4) t

/-- The low word of TOP_HOUR_COUNT (0), CLK_AON_TICK (1) or MU_TICK (2) is read, which latches the high word (R524). -/
def State.latchHigh (s : State) (which v : Nat) : State :=
  let h := s.host
  { s with host := match which with
    | 0 => { h with latchHour := v / 2 ^ 32 }
    | 1 => { h with latchAon := v / 2 ^ 32 }
    | _ => { h with latchMu := v / 2 ^ 32 } }

/-- A swap window is open in noon cycle `t` (WINDOW_OPEN of Table 2-2). -/
def State.windowOpen (s : State) (t : Nat) : Bool := decide (t < s.hour.winEnd)

/-- TOP_HOUR_COUNT in noon cycle `t`: the last Hour whose window completed (R44). -/
def State.hourCountAt (s : State) (t : Nat) : Nat := if s.windowOpen t then s.hourCount - 1 else s.hourCount

/-- FAB_HOLD_CYCLES of die `d` in noon cycle `t`: the held cycles of a hold in progress count as they pass (R265). -/
def State.heldCycles (s : State) (d t : Nat) : Nat :=
  min (2 ^ 64 - 1) (s.r64 (Reg.fabHoldCycles d) + match (s.die d).hold with | some h => t - h.since | none => 0)

/-- What a read of a register word returns in noon cycle `t`. -/
def State.readWordAt (s : State) (t a : Nat) : Nat :=
  let d := addrDie a
  if a = Reg.topHourStatus ∧ s.windowOpen t then setFld (s.readWord a) 8 1 1
  else if d < 8 ∧ a = Reg.fabHoldCycles d then s.heldCycles d t % 2 ^ 32
  else if d < 8 ∧ a = Reg.fabHoldCycles d + 4 then s.heldCycles d t / 2 ^ 32
  else s.readWord a

/-- The latching counters with their values in noon cycle `t`; `tick` is the value of the tick counter that is read. -/
def State.latching (s : State) (t tick : Nat) : List (Nat × Nat × Nat × Nat) :=
  [(Reg.topHourCount, 0, s.hourCountAt t, s.host.latchHour), (Reg.clkAonTick, 1, tick % 2 ^ 64, s.host.latchAon),
   (Reg.muTick, 2, tick % 2 ^ 64, s.host.latchMu)]

/-- A read of `k` consecutive register words in noon cycle `t`: the value, and the state once a latch is taken. -/
def State.getRegisters (s : State) (a k t tick : Nat) : Nat × State :=
  match (s.latching t tick).find? (fun x => x.1 == a || x.1 + 4 == a) with
  | some (b, i, v, high) => if a ≠ b then (high, s) else if k = 1 then (v % 2 ^ 32, s.latchHigh i v) else (v, s)
  | none => (((List.range k).map (fun i => s.readWordAt t (a + 4 * i) * 2 ^ (32 * i))).sum, s)

/-! ## Which accesses are captured (R15-R17, R42, R362, Table 8-1) -/

/-- The words from an address on are registers. -/
def wordsExist (a k : Nat) : Bool := (List.range k).all (fun i => (Reg.find (a + 4 * i)).isSome)

/-- KIND of the capture that an access of `len` bytes causes; `none` where it acts. -/
def accessKind (req a len : Nat) (write : Bool) : Option Nat :=
  let off := addrOffset a
  let regs (x : Nat) : Bool := len % 4 == 0 && x % 4 == 0 && wordsExist x (len / 4)
  match place a with
  | .reserved k => some k
  | .register x => if regs x then none else some 2
  | .flagFile _ o => if flagAccessOk o len then none else some 2
  | .broadcast region o =>
    if !write then some 4
    else if region = 0 then (if o + len ≤ 2 ^ 32 then none else some 3)
    else if region = 3 then (if 0x4000 ≤ o then some 3 else if flagAccessOk o len then none else some 2)
    else if regs (15 * 2 ^ 32 + o) then none else some 2
  | .memory _ =>
    if addrDie a = 14 then (if a % 2 ^ 36 + len ≤ 2 ^ 35 then none else some 2)
    else if regionSize (addrDie a) (addrRegion a) < off + len then some 3
    else if req = reqHost ∧ addrDie a = 8 ∧ stagingOpen < off + len then some 2
    else none

/-! ## Memories -/

/-- A byte of a memory region lies in a range of a partition that is LOADED, RUNNING or STOPPED (R465). -/
def State.liveByte (s : State) (a : Nat) : Bool :=
  let d := addrDie a
  let off := addrOffset a
  let inside (n level x : Nat) : Bool := decide (s.levelBase n d level ≤ x) && decide (x < s.levelBase n d level + s.levelBound n d level)
  if d = 8 then false
  else if addrRegion a = 0 then (List.range 64).any (fun n => 2 ≤ s.pstate n && s.hasCoreOn n d && inside n 0 off)
  else if addrRegion a = 1 then
    (match s.owner (16 * d + off / 0x3000000) with | some n => 2 ≤ s.pstate n && inside n 1 (off % 0x3000000) | none => false)
  else (match s.owner (16 * d + off / 2 ^ 23) with | some n => 2 ≤ s.pstate n && inside n 2 (off % 2 ^ 16) | none => false)

/-- The device address of the byte that an address names, through the interleaved view where it is one (R152). -/
def viewAddr (a : Nat) : Nat := if addrDie a = 14 then interleave (a % 2 ^ 36) else a

/-- NO_LIVE_READ keeps a service-path read of `len` bytes from an address (R465). -/
def State.liveRead (s : State) (a len : Nat) : Bool :=
  bitAt s.sec.shadow.partRules 1 && (List.range len).any (fun i => s.liveByte (viewAddr (a + i)))

/-- Bytes of a memory, or of the interleaved view, as they stand in noon cycle `t` (R161), and the state with what the dies read have
done before. -/
def State.getMemory (s : State) (a len t : Nat) : List Byte × State :=
  let addrs := (List.range len).map (fun i => viewAddr (a + i))
  let s := ((addrs.map addrDie).eraseDups).foldl (fun s d => s.caughtUp t (d * 2 ^ 36)) s
  ((addrs.map (fun x => s.rdBytesAt t x 1)).flatten, s.noticed addrs)

/-- Bytes written in noon cycle `t` to a memory, or through the interleaved view in pieces of at most 512 bytes. -/
def State.putMemory (s : State) (a t : Nat) (bs : List Byte) : Nat → State
  | 0 => s
  | k + 1 =>
    if addrDie a ≠ 14 then (if s.onAbsent a then s else s.storeAt t a bs)
    else
      let n := min bs.length (512 - a % 512)
      let x := viewAddr a
      let s := if s.onAbsent x then s else s.storeAt t x (bs.take n)
      if n < bs.length then s.putMemory (a + n) t (bs.drop n) k else s

/-! ## An access -/

/-- Registers of die `d` in which the DMA lines and the write ports of the vector engines count by themselves: FAB_HOLD_COUNT,
CORE_BANK_WAIT, VEC_STATUS, VEC_COUNT0, VEC_COUNT1 and VEC_PORT_STALL. -/
def selfCounting (d a : Nat) : Bool :=
  Reg.fabHoldCount d / 8 == a / 8
    || (List.range 16).any (fun c => [Reg.coreBankWait d c, Reg.vecStatus d c, Reg.vecCount0 d c, Reg.vecCount1 d c, Reg.vecPortStall d c].any
      (fun r => r / 8 == a / 8))

/-- The state in which the DMA lines and the write ports of die `d` have done every cycle before noon cycle `t`. -/
def State.unitsSeen (s : State) (d t : Nat) : State :=
  let cyc := s.engCycle d t
  (List.range 16).foldl (fun s k => s.portTo (16 * d + k) cyc) (s.meshTo d cyc)

/-- The state in which what a read register of a die shows has come up to noon cycle `t`: the limiter for CD_RAMP and CD_CLK_COUNT (Table
16-18), the units that count by themselves for their registers. -/
def State.loadSeen (s : State) (a t : Nat) : State :=
  let d := addrDie a
  if 8 ≤ d then s
  else if a = Reg.cdRamp d ∨ a = Reg.cdClkCount d then s.rampTo d t
  else if selfCounting d a then s.unitsSeen d t
  else s

/-- A read of `len` bytes at a device address that is not captured, in noon cycle `t`: the value and the state after
it. A die that Dawn left absent gives free bytes. -/
def State.getDevice (s : State) (a len t tick : Nat) : Nat × State :=
  if s.onAbsent (viewAddr a) then (let (v, s) := s.drawWide (ceilDiv len 8); (v % 2 ^ (8 * len), s))
  else match place a with
    | .memory _ => let (b, s) := s.getMemory a len t; (leNat b, s)
    | .flagFile d o => (s.readRegion3 d o t len, s)
    | .register x => (s.loadSeen x t).getRegisters x (len / 4) t tick
    | _ => (0, s)

/-- A broadcast write in noon cycle `t` (R15, R164, R222, R525). -/
def State.putBroadcast (s : State) (region off t : Nat) (bs : List Byte) : State :=
  let dies := (List.range 8).filter (fun d => !s.dieAbsent d)
  if region = 0 then dies.foldl (fun s d => s.storeAt t (d * 2 ^ 36 + off) bs) s
  else if region = 3 then { s with hour := { s.hour with flagCasts := s.hour.flagCasts ++ [(off, bs)] } }
  else dies.foldl (fun s d => s.putRegisters (d * 2 ^ 36 + 15 * 2 ^ 32 + off) (wordsOf bs)) s

/-- A write at a device address that is not captured. -/
def State.putDevice (s : State) (req a t : Nat) (bs : List Byte) : State :=
  match place a with
  | .memory _ => s.putMemory a t bs (bs.length / 512 + 2)
  | .flagFile d o => if s.dieAbsent d then s else (s.seeHold d t).writeRegion3 d o t req bs
  | .register x => (s.loadSeen x t).putRegisters x (wordsOf bs)
  | .broadcast region o => s.putBroadcast region o t bs
  | .reserved _ => s

/-- A 32-bit or 64-bit read through BAR2: an index at offset 0 of a ring's page (R335); the rest of a page is reserved (R328). -/
def State.readBell (s : State) (off len : Nat) : State :=
  let r := s.ring (off / 0x1000)
  let x := if off % 0x1000 ≠ 0 || !r.live then 0 else if isSubRing (off / 0x1000) then r.head else r.tail
  let s := if off % 0x1000 = 0 then (if len = 4 then s else s.capture (off + 4) reqHost 6 false) else s.capture off reqHost 6 false
  s.emit (.readData len x)

/-- A 32-bit or 64-bit write through BAR2: a doorbell at offset 0 of a ring's page (R335, R336). -/
def State.writeBell (s : State) (off : Nat) (bs : List Byte) : State :=
  let s := doorbell (off / 0x1000) (off % 0x1000) (leNat (bs.take 4)) s
  if off % 0x1000 = 0 ∧ bs.length = 8 then s.capture (off + 4) reqHost 6 true else s

/-- A read by a requester. What R17, R328 or R465 forbids returns zeros and is captured. -/
def State.readBy (s : State) (v : Via) (len t tick : Nat) : State :=
  let (req, a) := s.resolve v
  let zeros (k : Nat) : State := (s.capture (captureAddr v k a) req k false).emit (.readData len 0)
  if !barAccessOk v len then zeros 5
  else match v, accessKind req a len false with
    | .bar2 off, _ => s.readBell off len
    | _, some k => zeros k
    | _, none =>
      let mem := match place a with | .memory _ => true | _ => false
      if mem && s.liveRead a len then zeros 3
      else let (x, s) := s.getDevice a len t tick; s.emit (.readData len x)

/-- A write by a requester. What R17 or R328 forbids is discarded and captured. -/
def State.writeBy (s : State) (v : Via) (bs : List Byte) (t : Nat) : State :=
  let (req, a) := s.resolve v
  if !barAccessOk v bs.length then s.capture (captureAddr v 5 a) req 5 true
  else match v, accessKind req a bs.length true with
    | .bar2 off, _ => s.writeBell off bs
    | _, some k => s.capture (captureAddr v k a) req k true
    | _, none => s.putDevice req a t bs

/-- STAGING_ACCESS: the host reads `len` bytes, or writes bytes, through BAR4 (R328, R362). -/
def stagingAccess (off len : Nat) (w : Option (List Byte)) (s : State) : State :=
  let v := Via.device reqHost (stagingAddr off)
  match w with
  | none => s.readBy v len 0 0
  | some bs => s.writeBy v bs 0

/-- One word, or the two words from an even one, of a register of several words. -/
def wordPair (w : Nat) (wide : Bool) (v : Nat) : Nat × List Nat :=
  if wide then (w / 2 * 2, [v % 2 ^ 32, v / 2 ^ 32 % 2 ^ 32]) else (w, [v % 2 ^ 32])

/-- A write of one word, or of two, of the register at an address. -/
def State.putPart (s : State) (a w : Nat) (wide : Bool) (v : Nat) : State :=
  let (i, l) := wordPair w wide v
  s.putRegisters (a + 4 * i) l

/-- LOW_WORD_READ in noon cycle `t` (R524). -/
def lowWordRead (which v t : Nat) (s : State) : State :=
  let v := if which = 0 then s.hourCountAt t else v
  (s.latchHigh which v).emit (.readData 4 (v % 2 ^ 32))

/-- A write to region 3 by requester `req` (R216, R221): captured where Table 8-1 does not allow it. -/
def flagWrite (req d off t : Nat) (bs : List Byte) (s : State) : State := s.writeBy (.device req (d * 2 ^ 36 + 3 * 2 ^ 32 + off)) bs t

/-! ## Meanings -/

/-- STAGING_ACCESS. -/
def execStagingAccess (off : BitVec 29) (len : Nat) (w : Option (List Byte)) (s : State) : Host.Outcome State Fault Refusal :=
  .next (stagingAccess off.toNat len w s)
/-- SERVICE_ACCESS. -/
def execServiceAccess (v : Via) (len : Nat) (w : Option (List Byte)) (t tick : Nat) (upset : List (BitVec 37)) (s : State) :
    Host.Outcome State Fault Refusal :=
  .next (match w with | none => (s.upset upset).readBy v len t tick | some bs => (s.upset upset).writeBy v bs t)
/-- BROADCAST_WRITE. -/
def execBroadcastWrite (req : Fin 32) (region : Fin 16) (off : BitVec 32) (bs : List Byte) (t : Nat) (s : State) :
    Host.Outcome State Fault Refusal := .next (s.writeBy (.device req (15 * 2 ^ 36 + region * 2 ^ 32 + off.toNat)) bs t)
/-- The W1C bits of the words of an access that `bits` names are set again: the hardware sets them in the cycle of the write, and they
end set (R20). -/
def State.stillSet (s : State) (v : Via) (req a len bits : Nat) : State :=
  if !barAccessOk v len || (accessKind req a len true).isSome then s
  else match place a with
    | .register x => (wordsOf (leBytes len bits)).zipIdx.foldl (fun s e =>
        let w := x + 4 * e.2
        match Reg.find w with
        | some (r, o) => if s.onAbsent w then s else s.orBits w (BitVec.ofNat 32 e.1 &&& wordMask r.w1c o).toNat
        | none => s) s
    | _ => s

/-- REGISTER_WRITE. -/
def execRegisterWrite (v : Via) (wide : Bool) (x meets : BitVec 64) (s : State) : Host.Outcome State Fault Refusal :=
  let len := if wide then 8 else 4
  let (req, a) := s.resolve v
  .next ((s.writeBy v (leBytes len x.toNat) 0).stillSet v req a len meets.toNat)
/-- LOW_WORD_READ. -/
def execLowWordRead (which : Fin 3) (v : BitVec 64) (t : Nat) (s : State) : Host.Outcome State Fault Refusal :=
  .next (lowWordRead which v.toNat t s)
/-- FLAG_WRITE. -/
def execFlagWrite (req : Fin 32) (d : Fin 8) (c : Fin 4) (n : Fin 256) (bs : List Byte) (t : Nat) (s : State) :
    Host.Outcome State Fault Refusal := .next (flagWrite req d (c * 0x1000 + n) t bs s)
/-- COUNTER_VALUE_WRITE. -/
def execCounterValueWrite (req : Fin 32) (d : Fin 8) (c : Fin 4) (n : Fin 256) (bs : List Byte) (t : Nat) (s : State) :
    Host.Outcome State Fault Refusal := .next (flagWrite req d (c * 0x1000 + 0x400 + 4 * n) t bs s)
/-- COUNTER_ADD. -/
def execCounterAdd (req : Fin 32) (d : Fin 8) (c : Fin 4) (n : Fin 256) (bs : List Byte) (t : Nat) (s : State) :
    Host.Outcome State Fault Refusal := .next (flagWrite req d (c * 0x1000 + 0x800 + 4 * n) t bs s)
/-- HOUR_CTL_WRITE. -/
def execHourCtlWrite (v : BitVec 32) (s : State) : Host.Outcome State Fault Refusal := .next (s.putRegister Reg.topHourCtl v.toNat)
/-- PART_MEMBER_WRITE. -/
def execPartMemberWrite (n : Fin 64) (w : Fin 4) (v : BitVec 32) (s : State) : Host.Outcome State Fault Refusal :=
  .next (s.putRegister (Reg.topPartMember n + 4 * w) v.toNat)
/-- PBB_WRITE: `which` is 0 for CD_PBB_SHM_n, 1 for CD_PBB_CORE_n, 2 for CD_COMMON_SHM. -/
def execPbbWrite (d : Fin 8) (n : Fin 64) (which : Fin 3) (w : Fin 2) (wide : Bool) (v : BitVec 64) (s : State) :
    Host.Outcome State Fault Refusal :=
  .next (s.putPart (if which = 0 then Reg.cdPbbShm d n else if which = 1 then Reg.cdPbbCore d n else Reg.cdCommonShm d) w wide v.toNat)
/-- FLAGWIN_WRITE. -/
def execFlagwinWrite (d : Fin 8) (n : Fin 64) (w : Fin 2) (wide : Bool) (v : BitVec 64) (s : State) : Host.Outcome State Fault Refusal :=
  .next (s.putPart (Reg.cdFlagwin d n) w wide v.toNat)
/-- CORE_STREAM_WRITE. -/
def execCoreStreamWrite (d : Fin 8) (c : Fin 16) (w : Fin 2) (wide : Bool) (v : BitVec 64) (s : State) : Host.Outcome State Fault Refusal :=
  .next (s.putPart (Reg.coreStream d c) w wide v.toNat)
/-- MCAST_ENTRY_WRITE. -/
def execMcastEntryWrite (d : Fin 8) (e : Fin 256) (w : Fin 8) (wide : Bool) (v : BitVec 64) (s : State) :
    Host.Outcome State Fault Refusal := .next (s.putPart (Reg.fabMcast d e) w wide v.toNat)
/-- PEER_ENTRY_WRITE. -/
def execPeerEntryWrite (n : Fin 64) (e : Fin 1024) (v : BitVec 32) (s : State) : Host.Outcome State Fault Refusal :=
  .next (s.putRegister (Reg.rtePeer n e) v.toNat)
/-- SWAP. -/
def execSwapTable (v : BitVec 32) (s : State) : Host.Outcome State Fault Refusal := .next (s.putRegister Reg.rteCtl v.toNat)
/-- ILK_FIRST_REARM. -/
def execIlkFirstRearm (d : Fin 8) (c : Fin 16) (s : State) : Host.Outcome State Fault Refusal :=
  .next (s.putRegister (Reg.coreIlkFirst d c + 4) (2 ^ 31))
/-- ARM. -/
def execArmCapture (d : Fin 8) (c : Fin 16) (w : Fin 2) (wide : Bool) (v : BitVec 64) (s : State) : Host.Outcome State Fault Refusal :=
  .next (s.putPart (Reg.coreDigestCapCtl d c) w wide v.toNat)

end Sys2Proof.Machine
end

