-- ==== Sys2Proof/Machine/HourSteps.lean ====
section
/-!
DEFINITION. What applies in steps 1 to 7 of a swap window (02_the_hour_and_partitions.md R51-R59 with Tables 2-3 and 2-4;
06_memory_hierarchy.md R168; 10_determinism.md R279; 12_system_topology.md R314; 16_clocks_power_sleep.md R418, R419 and R425-R428;
17_dawn_resets_recovery.md R447 and R449).
-/

namespace Sys2Proof.Machine

/-- ORDER_RESOLVED (R53). -/
def State.resolved (s : State) (b : Bool) : State := if b then s.set32 Reg.topHourStatus 0 else s

/-! ## Staged words -/

/-- One of `k` words from an address has a staged value. -/
def State.anyStaged (s : State) (a : Nat) : Nat → Bool
  | 0 => false
  | k + 1 => (s.stagedAt a).isSome || s.anyStaged (a + 4) k

/-- The `k` words from an address as they will stand. -/
def State.nextWide (s : State) (a : Nat) : Nat → Nat
  | 0 => 0
  | k + 1 => s.nextWord a + 2 ^ 32 * s.nextWide (a + 4) k

/-- The staged values of `k` words take effect. -/
def State.applyWords (s : State) (a : Nat) : Nat → State
  | 0 => s
  | k + 1 => (if (s.stagedAt a).isSome then s.applyWord a else s).applyWords (a + 4) k

/-- The staged values of `k` words are discarded. -/
def State.dropWords (s : State) (a : Nat) : Nat → State
  | 0 => s
  | k + 1 => (s.unstage a).dropWords (a + 4) k

/-- Every staged word that `p` admits takes effect. -/
def State.applyWhere (s : State) (p : Nat → Bool) : State :=
  (s.staged.map (·.1)).foldl (fun s a => if p a then s.applyWord a else s) s

/-! ## Step 1: digest records (R279, Table 10-4) -/

/-- A layer digest closed by a core of a partition: step, layer, generation, logical core, value. -/
structure CloseRec where
  step : Nat
  layer : Nat
  gen : Nat
  lc : Nat
  value : Nat
  deriving DecidableEq, Repr

/-- The order of the records of one partition. -/
def CloseRec.before (a b : CloseRec) : Bool :=
  let key (x : CloseRec) : Nat := ((x.step * 2 ^ 16 + x.layer) * 128 + x.lc) * 16 + x.gen
  key a ≤ key b

/-- A record put in its place. -/
def CloseRec.insert (x : CloseRec) : List CloseRec → List CloseRec
  | [] => [x]
  | y :: t => if x.before y then x :: y :: t else y :: x.insert t

/-- The closed layer digests of a partition, in order. -/
def State.closes (s : State) (n : Nat) : List CloseRec :=
  let l := ((s.lcs n).zipIdx.map (fun (g, lc) => (s.core g).closed.map (fun (x : LayerClose) => (⟨x.step, x.layer, x.gen, lc, x.value⟩ : CloseRec)))).flatten
  l.foldl (fun acc x => x.insert acc) []

/-- What a core's close adds to a combined record. -/
def CloseRec.share (x : CloseRec) : Nat := crc64 (leBytes 1 x.lc ++ [0] ++ leBytes 2 x.layer ++ leBytes 8 x.value)

/-- A digest record (Table 10-4). -/
def digestRecord (part gen detail lc cores layer step hour digest : Nat) : Nat :=
  digest % 2 ^ 64 + hour % 2 ^ 32 * 2 ^ 64 + step % 2 ^ 32 * 2 ^ 96 + layer % 2 ^ 16 * 2 ^ 144 + cores % 2 ^ 8 * 2 ^ 166
    + lc % 2 ^ 7 * 2 ^ 174 + detail * 2 ^ 181 + gen % 16 * 2 ^ 182 + part % 64 * 2 ^ 186

/-- The records of one partition for the Hour that ended. -/
def State.digestRecords (s : State) (n : Nat) : List Nat :=
  let l := s.closes n
  let h := s.hourCount
  if bitAt (s.r32 (Reg.topPartDigest n)) 1 then l.map (fun x => digestRecord n x.gen 1 x.lc 1 x.layer x.step h x.value)
  else
    let same (a b : CloseRec) : Bool := a.step == b.step && a.layer == b.layer && a.gen == b.gen
    let heads := l.foldl (fun (acc : List CloseRec) x => if acc.any (same x) then acc else acc ++ [x]) []
    heads.map (fun x =>
      let grp := l.filter (same x)
      digestRecord n x.gen 0 0 grp.length x.layer x.step h (grp.foldl (fun d y => Nat.xor d y.share) 0))

/-- The layer digests closed since the last window are reported. -/
def State.reportDigests (s : State) : State :=
  let s := (List.range 64).foldl (fun s n =>
    if bitAt (s.r32 (Reg.topPartDigest n)) 0 then (s.digestRecords n).foldl (fun s r => s.postEvent 0x0001 n 8 r) s else s) s
  { s with cores := s.cores.map (fun (e : Nat × CoreState) => (e.1, { e.2 with closed := [] })) }

/-! ## Step 2: fencing, spares, remaps (R30, R31, R177, R447) -/

/-- Register words that report the physical core behind logical core `g` (R215, R235, R280, R523); the counts that only Dawn and the
tenant-switch scrub clear stay (R156, R182). -/
def coreReport (g a : Nat) : Bool :=
  let o := addrOffset a
  let c := g % 16
  addrRegion a == 15 && addrDie a == g / 16
    && ((0x1000000 + 0x10000 * c + 8 ≤ o && o < 0x1000000 + 0x10000 * (c + 1) && o % 0x10000 != 0x20 && !(0x28 ≤ o % 0x10000 && o % 0x10000 < 0x30))
      || (0x2000000 + 0x1000 * c ≤ o && o < 0x2000000 + 0x1000 * (c + 1))
      || (0x3000000 + 0x10000 * c ≤ o && o < 0x3000000 + 0x10000 * (c + 1)))

/-- The cluster's idle slot takes the place of core `g`, with its memories zero and its registers at reset; the failed slot is reset
as domain 1. Nothing happens where the cluster has no idle slot (Table 17-7). -/
def State.spareTakes (s : State) (g : Nat) : State :=
  let m := Reg.cdSlotMap (g / 16) (g % 16 / 4)
  let idle := s.f32 m 12 3
  let c := s.core g
  let st := s.seqState g
  let pos := s.seqPos g
  let waits := match s.owner g with | some n => s.pstate n == 3 && !s.suspended n | none => false
  if idle = 7 then s
  else
    let s := ((s.sf32 m (3 * (g % 4)) 3 idle).sf32 m 12 3 7).set32 m 20
    let s := (s.resetCore g).countReset 1 0
    let s := { s with regs := s.regs.filter (fun e => !coreReport g e.1) }
    let x := s.die (g / 16)
    let s := s.setDie (g / 16) { x with remapped := (x.remapped ++ [g % 16]).eraseDups }
    let s := (s.setCore g { s.core g with fenced := false }).rewriteCore g
    if !waits then s
    else
      -- no step was in flight (R64): the position goes on where its stream stood
      ((s.setCore g { s.core g with alignHour := c.alignHour, step := c.step, markPos := c.markPos, layers := c.layers, unfolded := c.unfolded,
                                    reduceSeq := c.reduceSeq }).setSeqState g (if st = 1 then 2 else st)).setSeqPos g pos

/-- GEN advances for a fault-driven change of a job of SPAN 1 (R449). -/
def State.advanceGen (s : State) (n : Nat) : State :=
  let p := s.part n
  if !p.faultChange then s
  else
    let s := s.setPart n { p with faultChange := false }
    if 1 < s.span n then s else (s.sf32 (Reg.topPartJob n) 0 4 ((s.gen n + 1) % 16)).endPartTxns n

/-- A partition stops for the cause recorded first (R31, R549), or returns to LOADED (R349). -/
def State.stopNow (s : State) (n : Nat) : State :=
  match (s.part n).stop with
  | none => s
  | some (st, .fault) => s.stopFault n st
  | some (_, .release) =>
    let s := if s.pstate n = 3 then ((s.abandonStep n).returnLoaded n true).clr32 (Reg.topPartJob n) 6 else s
    s.setPart n { s.part n with stop := none, reissue := false, faultChange := false, rewrites := [], snapshot := none }

/-- The fences, spares and remaps of step 2 on the dies that `on` admits; a late die's wait for its own window (R49, R52). -/
def State.dieFences (s : State) (on : Nat → Bool) : State :=
  let s := (s.hour.toFence.filter (fun g => on (g / 16))).foldl (fun s g => s.fenceCore g) s
  let s := (s.hour.sparing.filter (fun g => on (g / 16))).foldl (fun s g => s.spareTakes g) s
  let s := { s with hour := { s.hour with
    toFence := s.hour.toFence.filter (fun g => !on (g / 16)), sparing := s.hour.sparing.filter (fun g => !on (g / 16)) } }
  (List.range 8).foldl (fun s d => if s.dieAbsent d || !on d then s else s.applyRemaps d) s

/-- Failed core `g` meets a staged change in one of the first two rows of Table 2-4. `used` are the clusters whose idle slot an earlier
core of the window takes. -/
def State.fenceClash (s : State) (used : List Nat) (g : Nat) : Bool :=
  let own := s.ownerN g
  if s.f32 (Reg.cdSlotMap (g / 16) (g % 16 / 4)) 12 3 != 7 && !used.contains (g / 4) then
    (List.range 64).any (fun n => s.anyStaged (Reg.topPartMember n) 4 && bitAt (s.nextWide (Reg.topPartMember n) 4) g)
  else own < 64 && (s.anyStaged (Reg.topPartMember own) 4 || s.anyStaged (Reg.topPartQuota own) 2)

/-- Some core of a list, taken in order, meets a staged change (Table 2-4). -/
def State.fencesClash (s : State) (used : List Nat) : List Nat → Bool
  | [] => false
  | g :: t => s.fenceClash used g || s.fencesClash (g / 4 :: used) t

/-- Step 2; `on` admits the dies that take the window now. -/
def State.windowFences (s : State) (on : Nat → Bool) : State :=
  let s := s.resolved (s.fencesClash [] (s.hour.sparing ++ s.hour.toFence.filter (fun g => !(s.core g).fenced)))
  let s := s.dieFences on
  let s := (List.range 64).foldl (fun s n => s.advanceGen n) s
  (List.range 64).foldl (fun s n => s.stopNow n) s

/-! ## Step 3: the cap, the voltages, the frequency (R418, R419, R425-R428) -/

/-- The highest code that the dies present can run (R438, Table 17-5 step 6). -/
def State.codeLimit (s : State) : Nat :=
  if (List.range 8).any (fun d => !s.dieAbsent d && (s.sec.shadow.marked 6 1 d || 0 < s.dawnCount (dawnKey 6 1 d))) then 36 else 44
/-- TARGET as it acts. -/
def State.targetCode (s : State) : Nat := min s.codeLimit (s.f32 Reg.clkNoon 0 8)
/-- The code in effect. -/
def State.code (s : State) : Nat := s.f32 Reg.clkNoon 8 8
/-- The rack reference is present. -/
def State.refOk (s : State) : Bool := bitAt (s.r32 Reg.clkRef) 0

/-- TRIM of a die changed by `k` steps within its range; MARGIN_LOW where it would need to rise above it (R426). -/
def State.moveTrim (s : State) (d : Nat) (k : Int) : State :=
  let t := s.trim d + k
  let s := if 10 < t then s.set32 Reg.pwrStatus 5 else s
  s.sf32 (Reg.cdVolt d) 0 8 ((min 10 (max (-10) t) + 256 : Int).toNat % 256)

/-- The trims of step 3: the step of R425, and 5 mV more after too many trips (R420). -/
def State.trimStep (s : State) (x : HourIn) (d : Nat) : State :=
  if s.dieAbsent d then s
  else
    let low := x.low.any (fun y => y.val == d)
    let run := if x.high.any (fun y => y.val == d) then Tab.get (fun _ => 0) s.power.margin d + 1 else 0
    let step : Int := if low then 1 else if 16 ≤ run then -1 else 0
    let more : Int := if 16 < Tab.get (fun _ => 0) s.power.trips d then 1 else 0
    let s := { s with power := { s.power with margin := Tab.put (fun _ => 0) s.power.margin d (min 16 run) } }
    if step + more = 0 then s else s.moveTrim d (step + more)

/-- The frequency that the cap loop decides from P_h and f_eff, with CAP_LIMITED, CAP_UNMET and the counts of R427; the flags say that
the cap or the throttle cut it, and that the cap did. -/
def State.capLoop (s : State) (x : HourIn) : State × Nat × Bool × Bool :=
  let st := Reg.pwrStatus
  let cap := 2 * s.capW
  let f := s.code
  let excess := cap < x.power
  let good := if 100 * x.power ≤ 97 * cap then s.power.good + 1 else 0
  let s := { s with power := { s.power with good := good, sinceCut := min 8 (s.power.sinceCut + 1) } }
  if excess then
    let mhz := max 400 (x.mhz * cap / x.power / 25 * 25)
    let f' := min f ((mhz - 400) / 25)
    let s := s.set32 st 1
    let s := { s with power := { s.power with sinceCut := 0 } }
    let s := if f' < f then s.count64 Reg.pwrCount 0 16 1 else s
    let s := if f' = 0 then (s.set32 st 2).postEvent 0x0103 0xFF 8 (x.power % 2 ^ 32 + s.capW * 2 ^ 32) else s
    (s, f', true, true)
  else if s.power.throttled then (s, f - 2, true, false)
  else (s, f, false, false)

/-- VDD of every die present is commanded to the setpoint of a code. -/
def State.commandVolts (s : State) (code : Nat) : State :=
  (List.range 8).foldl (fun s d => if s.dieAbsent d then s else s.commandVolt d code) s

/-- The code in effect is `f'`: a raise towards TARGET is commanded where nothing forbids it, the rails follow, and the record of a
cut ends once TARGET is in effect again (R417). `f` is the code before the window, `cut` says that the cap or the throttle cut it. -/
def State.raiseCode (s : State) (x : HourIn) (f f' : Nat) (cut : Bool) : State :=
  let up := !cut && f' == f && s.power.raise.isNone && 8 ≤ s.power.good && f' < s.targetCode && s.refOk
  let c := if bitAt (s.r32 Reg.pwrStatus) 1 then f' + 1 else s.targetCode
  let s := if up then { s with power := { s.power with raise := some (c, x.tick) } } else s
  let s := s.sf32 Reg.clkNoon 16 1 (if s.power.raise.isSome then 1 else 0)
  let s := s.commandVolts (match s.power.raise with | some (c, _) => c | none => f')
  if f' = s.targetCode ∧ 8 ≤ s.power.sinceCut then s.clr32 Reg.pwrStatus 1 else s

/-- The next code: a raise applies 20 us after it was commanded unless the window cuts, and TARGET bounds it; a fall ends a raise that
waits (R417). -/
def State.settleCode (s : State) (x : HourIn) (f f' : Nat) (cut : Bool) : State :=
  let due := match s.power.raise with
    | some (c, at') => if !cut && s.refOk && at' + 1000 ≤ x.tick then some c else none
    | none => none
  let f' := due.getD f'
  let f' := if s.refOk then min f' s.targetCode else f'
  let s := if cut || due.isSome then { s with power := { s.power with raise := none } } else s
  let s := if f' ≠ f then { s with power := { s.power with good := 0 } } else s
  let s := if f' < f ∨ s.targetCode < f' then { s with power := { s.power with raise := none } } else s
  (s.sf32 Reg.clkNoon 8 8 f').raiseCode x f f' cut

/-- The Hour's power, frequency and highest temperature are reported, and the interval's records start again (Table 16-14). -/
def State.reportPower (s : State) (x : HourIn) : State :=
  let s := (s.sf64 Reg.pwrPower 0 16 (min x.power 0xFFFF)).sf64 Reg.pwrPower 32 16 (min x.mhz 0xFFFF)
  let s := s.sf32 Reg.pwrTherm 16 8 (min s.power.maxRead 255)
  let s := if s.power.throttled then s.count64 Reg.pwrCount 32 32 1 else s
  { s with power := { s.power with guard := false, maxRead := 0, trips := [] } }

/-- Step 3. A raise is commanded first and applies 20 us later; a step down applies at once and its voltage follows. Without the
reference only the cap and the throttle change the frequency (R417). -/
def State.windowPower (s : State) (x : HourIn) : State :=
  let wanted := decide (s.targetCode < min s.codeLimit (fld (s.nextWord Reg.clkNoon) 0 8))
  let s := (s.applyWhere (fun a => a == Reg.pwrCap)).applyWhere (fun a => a == Reg.clkNoon)
  let s := (List.range 8).foldl (fun s d => s.trimStep x d) s
  let f := s.code
  let (s, f', cut, capped) := s.capLoop x
  let s := s.resolved (capped && (s.power.raise.isSome || wanted))
  (s.settleCode x f f' cut).reportPower x

/-! ## Step 4: membership, ranges, windows, loads and jobs (R55, R166-R168, R217) -/

/-- Of the membership changes `l`, those that name no core that another partition will still own (R55). -/
def State.settleMembers (s : State) : Nat → List Nat → List Nat
  | 0, l => l
  | k + 1, l =>
    let next (m : Nat) : Nat := if l.contains m then s.nextWide (Reg.topPartMember m) 4 else s.members m
    let ok := l.filter (fun n => (List.range 64).all (fun m => m == n || Nat.land (next n) (next m) == 0))
    if ok.length = l.length then l else s.settleMembers k ok

/-- The staged memberships apply or are discarded whole (R55, Table 2-4). The cores that joined a RUNNING partition are returned. -/
def State.windowMembers (s : State) : State × List Nat :=
  let all := (List.range 64).filter (fun n => s.anyStaged (Reg.topPartMember n) 4)
  if all.isEmpty then (s, [])
  else
    let next (n : Nat) : Nat := s.nextWide (Reg.topPartMember n) 4
    let here := all.filter (fun n => (List.range 8).all (fun d => !(s.dieAbsent d) || fld (next n) (16 * d) 16 == 0))
    let free := here.filter (fun n => here.all (fun m => m == n || Nat.land (next n) (next m) == 0))
    let ok := s.settleMembers 64 free
    let s := s.resolved (ok.length < here.length)
    all.foldl (fun (acc : State × List Nat) n =>
      let (s, joined) := acc
      let a := Reg.topPartMember n
      if !ok.contains n then ((s.dropWords a 4).memberReject n, joined)
      else
        let old := s.members n
        let s := s.applyWords a 4
        let new := s.members n
        if s.pstate n ≤ 1 then (s.setPstate n (if new = 0 then 0 else 1), joined)
        else
          let gone' := upto 128 (fun g => bitAt old g && !bitAt new g)
          let s := gone'.foldl (fun s g => s.idleCore g) s
          (s, if s.pstate n = 3 then joined ++ upto 128 (fun g => bitAt new g && !bitAt old g) else joined)) (s, [])

/-- A register that holds a range: address, words, and its range as it would stand, where its staged value fits. -/
structure RangeReg where
  addr : Nat
  words : Nat
  staged : Bool
  fits : Bool
  base : Nat
  size : Nat
  deriving DecidableEq, Repr

/-- Two ranges of nonzero size overlap. -/
def RangeReg.meets (a b : RangeReg) : Bool :=
  a.addr != b.addr && 0 < a.size && 0 < b.size && decide (a.base < b.base + b.size) && decide (b.base < a.base + a.size)

/-- The staged ranges of a list of registers of die `d` apply, but for those that do not fit or that overlap (R168, R217). -/
def State.applyRanges (s : State) (d : Nat) (regs : List (Nat × Nat)) (fit : Nat → Bool) (span : Nat → Nat × Nat) : State :=
  if regs.all (fun r => !s.anyStaged r.1 r.2) then s
  else
    let items : List RangeReg := regs.map (fun r =>
      let st := s.anyStaged r.1 r.2
      let x := s.nextWide r.1 r.2
      let y := if st && fit x then x else s.rWide r.1 r.2
      ⟨r.1, r.2, st, fit x, (span y).1, (span y).2⟩)
    items.foldl (fun s i =>
      if !i.staged then s
      else if !i.fits || items.any i.meets then (s.dropWords i.addr i.words).boundReject d
      else s.applyWords i.addr i.words) s

/-- A CD_PBB_SHM or CD_COMMON_SHM value fits (R168). -/
def shmFits (x : Nat) : Bool := fld x 0 13 ≤ 4095 && fld x 0 13 + fld x 16 13 ≤ 4096 && fld x 32 13 ≤ fld x 16 13
/-- A CD_PBB_CORE value fits (R168). -/
def coreFits (x : Nat) : Bool :=
  fld x 0 10 ≤ 767 && fld x 0 10 + fld x 16 10 ≤ 768 && fld x 32 7 ≤ 63 && fld x 32 7 + fld x 48 7 ≤ 64
/-- One part of a CD_FLAGWIN value fits (R217). -/
def winFits (x : Nat) : Bool := fld x 0 8 + fld x 8 9 ≤ 256

/-- The ranges of step 4 on die `d`. -/
def State.windowRanges (s : State) (d : Nat) : State :=
  let each (f : Nat → Nat) (k : Nat) : List (Nat × Nat) := (List.range 64).map (fun n => (f n, k))
  let s := s.applyRanges d ((Reg.cdCommonShm d, 2) :: each (Reg.cdPbbShm d) 2) shmFits (fun x => (fld x 0 13, fld x 16 13))
  let s := s.applyRanges d (each (Reg.cdPbbCore d) 2) coreFits (fun _ => (0, 0))
  let s := s.applyRanges d (each (Reg.cdFlagwin d) 1) winFits (fun x => (fld x 0 8, fld x 8 9))
  s.applyRanges d (each (fun n => Reg.cdFlagwin d n + 4) 1) winFits (fun x => (fld x 0 8, fld x 8 9))

/-- Step 4 in the window of Hour `k`. -/
def State.windowParts (s : State) (k : Nat) : State × List Nat :=
  let (s, joined) := s.windowMembers
  let s := (List.range 8).foldl (fun s d => s.windowRanges d) s
  ((s.loadsApply k).applyJobs k, joined)

/-! ## Step 5: quotas (R57-R59) -/

/-- A quota value with each field at most its maximum (R57). -/
def clampQuota (x : Nat) : Nat :=
  fld x 0 24 + min 4096 (fld x 24 13) * 2 ^ 24 + min 256 (fld x 37 9) * 2 ^ 37 + min 16384 (fld x 46 15) * 2 ^ 46

/-- Usage of a partition in the layout of TOP_PART_QUOTA (R57). -/
def State.usageNow (s : State) (n : Nat) : Nat :=
  min (2 ^ 24 - 1) (s.kvUsed n) + (s.requestsOf n).length * 2 ^ 24 + (s.slotsUsed n).length * 2 ^ 37
    + (s.txnList.filter (fun e => e.2.part == n)).length * 2 ^ 46

/-- Place and width of the fields of a quota, in the order of the OVER_QUOTA event. -/
def quotaFields : List (Nat × Nat) := [(0, 24), (24, 13), (37, 9), (46, 15)]

/-- A usage is above a quota; a KV quota of all ones is no limit. -/
def overQuota (i usage quota : Nat) : Bool :=
  match quotaFields[i]? with
  | some (lo, w) => decide (fld quota lo w < fld usage lo w) && !(i == 0 && fld quota lo w == 2 ^ 24 - 1)
  | none => false

/-- The OVER_ bits and the usage of a partition (R59). -/
def State.overBits (s : State) (n : Nat) : State :=
  let usage := s.usageNow n
  let quota := s.r64 (Reg.topPartQuota n)
  let s := s.w64 (Reg.topPartUsage n) usage
  (List.range 4).foldl (fun s i =>
    let was := bitAt (s.r32 (Reg.topPartStatus n)) (8 + i)
    let now := overQuota i usage quota
    if was == now then s
    else
      let (lo, w) := (quotaFields[i]?).getD (0, 0)
      (s.sf32 (Reg.topPartStatus n) (8 + i) 1 (if now then 1 else 0)).postEvent 0x0002 n 8
        (i + (if now then 1 else 0) * 2 ^ 8 + fld usage lo w * 2 ^ 64 + fld quota lo w * 2 ^ 128)) s

/-- Adapter slots whose unload waits are freed where no active request references them (R371). -/
def State.freeSlots (s : State) : State :=
  let free (x : Nat × Nat × Nat) : Bool := !(s.requestsOf x.1).any (fun r => r.adapter == x.2.1 && decide (r.state ≠ .queued))
  let now := s.loader.unloads.filter free
  let s := { s with loader := { s.loader with
    unloads := s.loader.unloads.filter (fun x => !free x)
    images := s.loader.images.filter (fun i => !(i.kind == 2 && now.any (fun x => x.1 == i.part && x.2.1 == i.slot))) } }
  now.foldl (fun s x => s.complete (x.1 + 1) x.2.2 0 0 0) s

/-- Step 5. -/
def State.windowQuotas (s : State) : State :=
  let s := (List.range 64).foldl (fun s n =>
    let a := Reg.topPartQuota n
    if !s.anyStaged a 2 then s
    else
      let new := clampQuota (s.nextWide a 2)
      let cut := quotaFields.any (fun f => fld new f.1 f.2 < fld (s.r64 a) f.1 f.2)
      let s := s.resolved (cut && (s.requestsOf n).any (fun r => decide (r.state = .queued)))
      (s.dropWords a 2).w64 a new) s
  let s := (List.range 64).foldl (fun s n => s.serveReclaim n) s
  (List.range 64).foldl (fun s n => s.overBits n) s.freeSlots

/-! ## Steps 6 and 7 -/

/-- Register words that apply in step 6 (R257, R314, R326). -/
def isRoute (a : Nat) : Bool :=
  let o := addrOffset a
  addrRegion a == 15 && (if addrDie a = 8 then (0x200000 ≤ o && o < 0x200020) || (0x400008 ≤ o && o < 0x400070)
    else 0x200000 ≤ o && o < 0x200024)

/-- The staged routing table becomes the active one (R314). -/
def State.swapTables (s : State) : State :=
  ((List.range 1024).foldl (fun s i => s.w32 (Reg.rteTableAct + 4 * i) (s.r32 (Reg.rteTableStg + 4 * i))) s).set32 Reg.rteStatus 1

/-- Routes of some nodes leave modules that are out of service (R251). -/
def State.leaveModules (s : State) (nodes : List Nat) : State :=
  if (List.range 52).any (fun k => (s.modEnd k).outOfService) then s.switchRoutes nodes else s

/-- Step 6 at noon cycle `t`; under a new table, units that found no way are routed afresh (R315, R321). `on` admits the dies that
take the window now. -/
def State.windowRoutes (s : State) (on : Nat → Bool) (t : Nat) : State :=
  let swap := bitAt (s.nextWord Reg.rteCtl) 0
  let modes := (s.stagedAt Reg.rteGwMode).any (fun v => v.toNat != s.r32 Reg.rteGwMode)
  let s := s.resolved (swap && modes)
  let s := if swap then s.swapTables else s
  let s := ((s.unstage Reg.rteCtl).applyWhere isRoute).leaveModules ((List.range 9).filter (fun n => n == 8 || on n))
  if swap then s.rerouteLost t else s

/-- Register writes of step 7 that act at once (R345). -/
def State.writeList (s : State) (now : List (Bool × Nat × Nat)) : State := now.foldl (fun s w => s.writeNow w.1 w.2.1 w.2.2) s

/-- Broadcast writes to region 3 on die `d` (R222). -/
def State.castOn (s : State) (d t : Nat) (casts : List (Nat × List Byte)) : State :=
  if s.dieAbsent d then s else casts.foldl (fun s c => s.writeRegion3 d c.1 t 0 c.2) s

/-- Step 7: every other RWH field, the RW fields of change sets, and broadcast writes to region 3 (R222, R345). -/
def State.windowRest (s : State) (on : Nat → Bool) (now : List (Bool × Nat × Nat)) (t : Nat) : State :=
  let s := (s.applyWhere (fun _ => true)).writeList (now.filter (fun w => on (addrDie w.2.1)))
  let casts := s.hour.flagCasts
  let s := (List.range 8).foldl (fun s d => if on d then s.castOn d t casts else s) s
  { s with hour := { s.hour with flagCasts := [] } }

/-! ## A die that reaches its Hour late (R49, R52) -/

/-- What the window of Hour `k`, of `w` noon cycles, would change on die `d` waits for the die's own window. -/
def State.holdBack (s : State) (k w : Nat) (now : List (Bool × Nat × Nat)) (d : Nat) : State :=
  let mine (a : Nat) : Bool := addrDie a == d
  let x : LateSet := { hour := k, len := w, words := s.staged.filter (fun e => mine e.1), now := now.filter (fun e => mine e.2.1),
                       casts := s.hour.flagCasts }
  let s := { s with staged := s.staged.filter (fun e => !mine e.1) }
  s.setDie d { s.die d with held := (s.die d).held ++ [x] }

/-- What a window held back for die `d` applies, in the steps' order; what is staged for a later Hour stays staged. -/
def State.heldSteps (s : State) (d t : Nat) (x : LateSet) : State :=
  let mine (a : Nat) : Bool := addrDie a == d
  let later := s.staged.filter (fun e => mine e.1)
  let put (s : State) (l : Tab (Option W32)) : State := l.foldl (fun s e => match e.2 with | some v => s.stage e.1 v.toNat | none => s) s
  let s := { s with staged := s.staged.filter (fun e => !mine e.1) }
  let s := put (s.setDie d { s.die d with held := (s.die d).held.filter (fun y => y.hour != x.hour) }) x.words
  let s := (s.dieFences (· == d)).windowRanges d
  let s := (s.applyWhere (fun a => mine a && isRoute a)).leaveModules [d]
  let s := (((s.applyWhere mine).writeList x.now).castOn d t x.casts)
  put s later

end Sys2Proof.Machine
end

