-- ==== Sys2Proof/Machine/ChangeSet.lean ====
section
/-!
DEFINITION. Change sets: their checks, planned capacity changes with their placement records, and the timeout
(02_the_hour_and_partitions.md R54 and R61; 13_host_rings.md R345; 14_model_images_and_loading.md R357; 21_register_index.md R531).
-/

namespace Sys2Proof.Machine

/-! ## Entries (R345, R531) -/

/-- Entries of a change set's list. -/
def regEntries (b : List Byte) (count : Nat) : List RegEntry :=
  (List.range count).map (fun i =>
    let f (lo k : Nat) : Nat := leNat ((b.drop (16 * i + lo)).take k)
    ⟨f 0 5, f 5 1, f 6 2, f 8 8⟩)

/-- The register address of an entry on one die: DIE 15 stands for every compute die present. -/
def entryOn (a d : Nat) : Nat := if addrDie a = 15 then a - 15 * 2 ^ 36 + d * 2 ^ 36 else a

/-- The address names no register of the HST_ block, no MSI-X entry and no JTAG_ register (R531). -/
def setMayName (a : Nat) : Bool :=
  let o := addrOffset a
  !(addrDie a == 8 && ((0x100000 ≤ o && o < 0x103000) || (0xC00000 ≤ o && o < 0xC01000)))

/-- An entry keeps its layout, names one register that qualifies, and sets no bit outside the RW and RWH fields. -/
def entryOk (e : RegEntry) : Bool :=
  let a := entryOn e.addr 0
  addrRegion e.addr == 15 && (addrDie e.addr ≤ 8 || addrDie e.addr == 15) && e.width ≤ 1 && e.rsv == 0
    && e.addr % (if e.width = 1 then 8 else 4) == 0 && (e.width == 1 || decide (e.value < 2 ^ 32)) && setMayName e.addr
    && (match Reg.find a with
      | none => false
      | some (r, x) =>
        let m := Nat.lor r.rw r.rwh
        m != 0 && (e.width == 0 || (x % 8 == 0 && decide (x + 8 ≤ r.bytes)))
          && Nat.land e.value ((m / 2 ^ (8 * x)) % 2 ^ (if e.width = 1 then 64 else 32)) == e.value)

/-- The register words that an entry writes, with their values. -/
def State.entryWords (s : State) (e : RegEntry) : List (Nat × Nat) :=
  let dies := if addrDie e.addr = 15 then (List.range 8).filter (fun d => !s.dieAbsent d) else [0]
  (dies.map (fun d =>
    let a := entryOn e.addr d
    (a, e.value % 2 ^ 32) :: (if e.width = 1 then [(a + 4, e.value / 2 ^ 32 % 2 ^ 32)] else []))).flatten

/-- The register words that a list of entries writes, in order. -/
def State.wordsWritten (s : State) (l : List RegEntry) : List (Nat × Nat) := (l.map s.entryWords).flatten

/-- Partition whose TOP_ registers hold the register word at an address. -/
def topPartOf (a : Nat) : Option Nat :=
  let lo := Reg.topPartMember 0 / 0x100 * 0x100
  if lo ≤ a ∧ a < lo + 0x4000 then some ((a - lo) / 0x100) else none

/-- A register word that a planned change writes touches a partition (R61). -/
def State.touches (s : State) (n a : Nat) : Bool :=
  topPartOf a == some n || (match boundOf a with | some (_, m) => m == n | none => false)
    || (match streamOf a with | some g => s.owner g == some n | none => false)
    || (match commonOf a with | some d => s.hasCoreOn n d | none => false) || peerOf a == some n

/-- A change set touches a partition. -/
def State.setTouches (s : State) (n : Nat) (l : List RegEntry) : Bool := (s.wordsWritten l).any (fun w => s.touches n w.1)

/-! ## The placement record (R61, R357) -/

/-- The state as it would stand with the register words written. -/
def State.asWritten (s : State) (l : List (Nat × Nat)) : State := l.foldl (fun s w => s.w32 w.1 w.2) s

/-- Partitions that a planned change takes a core from. -/
def State.losers (s : State) (next : State) : List Nat :=
  (List.range 64).filter (fun n => Nat.land (s.members n) (next.members n) != s.members n)

/-- A section lies on a core of the partition and within its bounds. -/
def State.sectionFits (s : State) (n : Nat) (x : Section) : Bool :=
  match s.coreOf n x.lc with
  | none => false
  | some g => decide (x.off + x.dstLen ≤ s.budget n (g / 16) x.level)

/-- The status with which the check of a placement record fails, 0 where it passes. -/
def State.placementStatus (s : State) (n : Nat) (b : List Byte) : Nat :=
  match s.program n with
  | none => 0
  | some img =>
    let l := (List.range (b.length / 128)).map (fun i => (b.drop (128 * i)).take 128)
    if !placementBytesOk img.sections b then 0x46
    else if l.any (fun e => !s.sectionFits n (sectionOf e)) then 0x23 else 0

/-! ## CHANGE_SET -/

/-- PLANNED_WAIT of every partition, from the planned sets that wait. -/
def State.planWaits (s : State) : State :=
  (List.range 64).foldl (fun s n =>
    let now := s.pstate n == 3 && s.host.sets.any (fun c => c.planned && s.setTouches n c.entries)
    if now == bitAt (s.r32 (Reg.topPartStatus n)) 18 then s else s.sf32 (Reg.topPartStatus n) 18 1 (if now then 1 else 0)) s

/-- The status with which a planned change that removes cores fails its placement check, 0 where it passes. -/
def State.plannedStatus (s : State) (at' : Nat) (entries : List RegEntry) (placement : HostRead) : Nat :=
  let next := s.asWritten (s.wordsWritten entries)
  let l := (s.losers next).filter s.loadedOrRunning
  if l.isEmpty then 0
  else if at' = 0 then 0x11
  else match placement with
    | .badList => 0x16
    | .failed => 0x57
    | .bytes b => ((l.map (fun n => next.placementStatus n b)).find? (· != 0)).getD 0

/-- CHANGE_SET: the set waits for its Hour, or completes at once where it cannot apply. -/
def changeSet (d : Desc) (list placement : HostRead) (s : State) : State :=
  let count := d.f 16 2
  let planned := bitAt (d.f 1 1) 1
  let target := d.f 24 8
  let done (st : Nat) : State := s.complete 0 d.cmdId st 0 0
  if count < 1 ∨ 256 < count ∨ !(d.zero 18 24) ∨ !(d.zero 40 64) ∨ (!planned ∧ !(d.zero 32 40)) then done 0x11
  else if d.f 8 8 % 16 ≠ 0 ∨ 2 ^ 64 < d.f 8 8 + 16 * count then done 0x16
  else match list with
    | .badList => done 0x16
    | .failed => done 0x57
    | .bytes b =>
      let entries := regEntries b count
      if entries.any (fun e => !entryOk e) then done 0x14
      else if target ≠ 0 ∧ target ≤ s.hour.opened then done 0x60
      else
        let st := if planned then s.plannedStatus (d.f 32 8) entries placement else 0
        if st ≠ 0 then done st
        else
          let c : ChangeSet := ⟨d.cmdId, planned, target, entries, s.hour.opened⟩
          ({ s with host := { s.host with sets := s.host.sets ++ [c] } }).planWaits

/-- PLANNED_TIMEOUT: the oldest planned change that found no window within 4,096 Hours of its target completes (R61). -/
def plannedTimeout (s : State) : State :=
  match s.host.sets.find? (fun c => c.planned && decide (max c.target (c.takenAt + 1) + 4096 ≤ s.hourCount)) with
  | none => s
  | some c => (({ s with host := { s.host with sets := s.host.sets.erase c } }).complete 0 c.cmdId 0x61 0 0).planWaits

/-! ## Change sets in a window (R54) -/

/-- Partitions at a step boundary allow a planned change now. -/
def State.planReady (s : State) (ends : List Nat) (c : ChangeSet) : Bool :=
  (List.range 64).all (fun n => !s.setTouches n c.entries || s.pstate n != 3 || ends.contains n)

/-- The RWH fields of the register words of a set are staged after what was staged directly, which gives way (R53, R54). An entry that
its register ignores as it is applied (TOP_PART_MEMBER of a RUNNING partition, HOUR_LEN_LOG2 while one is LOADED) is dropped alone: the
set's other entries apply, and the set completes with OK (DESIGN CHOICE, log entry 55: R54 says whole or not at all and does not settle
an entry that is valid when taken and ignored when it applies). -/
def State.stageSet (s : State) (direct : List Nat) (c : ChangeSet) : State :=
  let words := s.wordsWritten c.entries
  let clash := words.any (fun w => direct.contains w.1 && (match Reg.find w.1 with | some (r, x) => wordMask r.rwh x != 0 | none => false))
  words.foldl (fun s w => s.writeStaged c.planned w.1 w.2) (s.resolved clash)

/-! ## Meanings -/

/-- CHANGE_SET. -/
def execChangeSet (d : Desc) (list placement : HostRead) (s : State) : Host.Outcome State Fault Refusal := .next (changeSet d list placement s)
/-- PLANNED_TIMEOUT. -/
def execPlannedTimeout (s : State) : Host.Outcome State Fault Refusal := .next (plannedTimeout s)

end Sys2Proof.Machine
end

