-- ==== Sys2Proof/Machine/Hour.lean ====
section
/-!
DEFINITION. The Hour: a die's arrival, the opening of the swap window and its eight steps in order, the restart of the streams and
the copies that a reissue needs (02_the_hour_and_partitions.md R44-R49, R52-R54, R60-R67; 07_layer_cards.md R185 and R209;
08_flags_ordering_interlocks.md R234; 11_tocheas_link_layer.md R288; 14_model_images_and_loading.md R369; 17_dawn_resets_recovery.md
R447-R453).
-/

namespace Sys2Proof.Machine

/-! ## Arrival (R44, R48, R49) -/

/-- A die takes part in the Hour: in service, and not left stopped by a wake (R413). -/
def State.dieIn (s : State) (d : Nat) : Bool := (s.die d).cond == .inService && !s.power.stopped.contains d

/-- The dies that take part in the Hour. -/
def State.diesIn (s : State) : List Nat := upto 8 s.dieIn

/-- The Hour whose window opens next. -/
def State.nextHour (s : State) : Nat := s.hour.opened + 1

/-- The die waits at the Hour whose window opens next. -/
def State.waitsAt (s : State) (d : Nat) : Bool := (s.die d).atHour == some s.nextHour

/-- LINK units leave on the primary ports (R287). -/
def State.linkPrimaries (s : State) : State :=
  (List.range 6).foldl (fun s p => if s.portIn p && s.portPower p == 0 then s.sendLink p false 0 else s) s

/-- The package has reached the Hour `k` once every die has (R288). -/
def State.announceHour (s : State) (k : Nat) : State :=
  if s.diesIn.all s.waitsAt && s.hour.reached < k then ({ s with hour := { s.hour with reached := k } }).linkPrimaries else s

/-- A waiting core's stream goes on at t0 of the window of Hour `k` (R185, R209). A suspended partition's does not (R447). -/
def State.resumeCore (s : State) (k g : Nat) : State :=
  match s.owner g with
  | none => s
  | some n =>
    let c := s.core g
    if s.pstate n == 3 && !s.suspended n && s.seqState g == 2 && (c.alignHour.getD 0) ≤ k then s.refill g (s.seqPos g) (s.die (g / 16)).e0 else s

/-- Die `d` takes the window of Hour `k`, of `w` noon cycles, from noon cycle `t` on: the IOD tells it, the scrubber reads its lines, and
its units run from the window's end on (R44, R48, R175, R254). -/
def State.dieWindow (s : State) (d k t w : Nat) : State :=
  let s := s.routeMsg 8 { kind := 6, src := 8, dest := d, body := k % 2 ^ 64 + 2 ^ 64 + s.f32 Reg.topHourCtl 0 5 * 2 ^ 65 }
  let s := s.scrubWindow d
  let x := s.die d
  let s := s.setDie d { x with run := true, t0 := t + w, s0 := k * s.hourLen + w, winEng := x.e0, winGap := w, atHour := none, lastHour := k,
                               hold := none }
  (List.range 16).foldl (fun s c => s.resumeCore k (16 * d + c)) s

/-- Die `d` arrives at Hour `k`, whose window opened without it, and takes its own from noon cycle `t` on, with the same settings (R49,
R52). -/
def State.lateWindow (s : State) (d k t : Nat) : State :=
  match (s.die d).held.find? (fun y => y.hour == k) with
  | none => s.dieWindow d k t (s.f32 Reg.topHourStatus 16 8)
  | some y =>
    let s := (s.heldSteps d t y).dieWindow d k t y.len
    { s with hour := { s.hour with copies := s.hour.copies.filter (fun e => e.1 != d) ++ y.copies.map (fun n => (d, n, t + y.len)) } }

/-- Die `d` tells the IOD that it has reached Hour `k` (R254). -/
def State.sendArrive (s : State) (d k : Nat) : State :=
  s.routeMsg d { kind := 6, src := d, dest := 8, body := k % 2 ^ 64 + s.f32 Reg.topHourCtl 0 5 * 2 ^ 65 }

/-- LATE_ARRIVAL and TOP_HOUR_LATE (R49). -/
def State.lateArrival (s : State) : State := (s.set32 Reg.topHourStatus 2).count32 Reg.topHourLate 0 32 1

/-- The first die has reached the Hour: ARRIVE_LIMIT runs, and admission of a window that ends no step is judged against the KV quota
staged now (R49, R391). -/
def State.firstArrival (s : State) (k : Nat) : State :=
  if s.hour.firstAt.isSome then s
  else
    let s := { s with hour := { s.hour with firstAt := some k } }
    (List.range 64).foldl (fun s n => match s.serve n with
      | some v => s.setServe n (some { v with view := some (s.foreseenKv n) })
      | none => s) s

/-- HOUR_ARRIVAL: the schedule counter of die `d` reaches the next Hour and the die stops. A die that arrives after the window
opened takes its own at once. -/
def hourArrival (d t : Nat) (s : State) : State :=
  let x := s.die d
  if !s.inNoon || !s.dieIn d then s
  else if !x.run then (if s.waitsAt d then (s.firstArrival s.nextHour).announceHour s.nextHour else s)
  else
    let k := x.lastHour + 1
    let goal := k * s.hourLen
    let n := s.schedCount d t
    if n < goal then s
    else
      let e := s.engCycle d t - (n - goal)
      let s := s.meshTo d e
      let s := s.setDie d { s.die d with run := false, t0 := t, e0 := e, s0 := goal, atHour := some k, hold := none }
      let s := s.sendArrive d k
      if k ≤ s.hour.opened then (s.lateArrival.latchDie d).lateWindow d k t
      else (s.firstArrival k).announceHour k

/-! ## Neighbours (R47, R65-R67, R288) -/

/-- The primary ports whose neighbours share the Hour handshake. -/
def State.hourPorts (s : State) : List Nat :=
  if !s.coupled || s.hour.left then []
  else upto 6 (fun p => let x := s.port p; s.portIn p && !x.farLenBad && (!x.farSeen || x.farCoupled))

/-- A neighbour's message for Hour `k` has arrived. -/
def State.portArrived (s : State) (k p : Nat) : Bool := let x := s.port p; x.farSeen && k ≤ x.farArrived

/-- The Hour with which a package joins: the one its neighbours have reached and not opened, else the next. -/
def State.joinHour (s : State) : Nat := s.hourPorts.foldl (fun m p => let x := s.port p; max m (max x.farArrived (x.farOpened + 1))) 1

/-- The package adopts its neighbours' count and counts Hour `k` next (R65): every Hour that it noted by its own count moves with it. -/
def State.adopt (s : State) (k : Nat) : State :=
  let old := s.nextHour
  let len := s.hourLen
  let move (h : Nat) : Nat := h + k - old
  let s := (List.range 8).foldl (fun s d =>
    let x := s.die d
    s.setDie d { x with s0 := x.s0 + k * len - old * len, atHour := x.atHour.map move, lastHour := move x.lastHour,
                        held := x.held.map (fun (y : LateSet) => { y with hour := move y.hour }) }) s
  let s := { s with
    cores := s.cores.map (fun (e : Nat × CoreState) => (e.1, { e.2 with alignHour := e.2.alignHour.map move }))
    loader := { s.loader with repairs := s.loader.repairs.map (fun (r : Repair) => { r with since := move r.since }) }
    host := { s.host with sets := s.host.sets.map (fun (c : ChangeSet) => { c with takenAt := move c.takenAt }) }
    power := { s.power with faultAt := s.power.faultAt.map (fun (x : Nat × Nat) => (x.1, move x.2)) } }
  let s := (List.range 64).foldl (fun s n =>
    let p := s.part n
    let s := if p.reissue || p.stopCmd.isSome then
        s.setPart n { p with abortedAt := move p.abortedAt, stopCmd := p.stopCmd.map (fun (x : Nat × Nat) => (x.1, move x.2)) } else s
    match s.serve n with | some v => s.setServe n (some { v with boundary := move v.boundary }) | none => s) s
  ({ s with hour := { s.hour with opened := k - 1, reached := k } }).w64 Reg.topHourCount (k - 1)

/-- SLIP where a neighbour has opened an Hour outside `k - 1` to `k + 1`: the package leaves the coupled system (R67, R288). -/
def State.checkSlip (s : State) (k : Nat) : State :=
  if s.hourPorts.any (fun p => let x := s.port p; x.farSeen && (x.farOpened + 1 < k || k + 1 < x.farOpened)) then s.slip else s

/-! ## Copies for a reissue (R234, R278) -/

/-- The copy of a partition's windows and cores that a reissue restores (R234, R278): its cores as they stand, and its flag windows as
the window of Hour `k` leaves them when it ends, in noon cycle `fin`, or on a late die when the die's own window ends. -/
def State.takeSnapshot (s : State) (k fin n : Nat) : State :=
  let cores := (s.lcs n).map (fun g =>
    let c := s.core g
    let st := s.seqState g
    (⟨g, if st = 1 then 2 else st, s.seqPos g, c.step, c.markPos, c.layers, c.unfolded, c.reduceSeq⟩ : SnapCore))
  let s := s.setPart n { s.part n with snapshot := some ⟨[], [], cores⟩ }
  let s := { s with hour := { s.hour with copies := s.hour.copies.filter (fun e => e.2.1 != n) } }
  (s.diesOf n).foldl (fun s d =>
    let x := s.die d
    if x.held.any (fun y => y.hour == k) then
      s.setDie d { x with held := x.held.map (fun y => if y.hour = k then { y with copies := y.copies ++ [n] } else y) }
    else { s with hour := { s.hour with copies := s.hour.copies ++ [(d, n, fin)] } }) s

/-- A RUNNING partition that lost a core between two steps, and whose spare is not filled yet, waits for the rewrite as for a reissue of
the step that opens here (R64, R447; DESIGN CHOICE, log entry 56). -/
def State.awaitRewrite (s : State) (n : Nat) : State :=
  if s.pstate n ≠ 3 || s.suspended n || (s.part n).rewrites.isEmpty then s
  else (s.set32 (Reg.topPartJob n) 6).setPart n { s.part n with reissue := true, abortedAt := s.hourCount, jobAborted := false }

/-! ## Jobs and streams in step 8 (R185, R369, R447) -/

/-- Core `g` waits for t0 of Hour `k` at a position. -/
def State.armCore (s : State) (k g pos : Nat) : State :=
  ((s.setCore g { s.core g with alignHour := some k }).setSeqState g 2).setSeqPos g pos

/-- A coupled package that has left the Hours of the others joins them again where partition `n` spans packages (R185). -/
def State.joinFor (s : State) (n : Nat) : State :=
  if 1 < s.span n && s.hour.left && s.coupled then { s with hour := { s.hour with left := false, joining := true } } else s

/-- A serving partition's first boundary is Hour `k` (Table 15-10). -/
def State.serveFrom (s : State) (k n : Nat) : State :=
  match s.serve n with | some v => s.setServe n (some { v with boundary := k }) | none => s

/-- LEN of CORE_STREAM as it will stand on core `g`'s die once the die has taken the window. -/
def State.nextLen (s : State) (g : Nat) : Nat := fld (s.nextWord (Reg.coreStream (g / 16) (g % 16) + 4)) 0 25

/-- Core `g` of a partition that starts or that gains it: armed at position 0, or ended where it has no stream. -/
def State.startCore (s : State) (k g : Nat) : State :=
  let s := s.idleCore g
  if s.nextLen g = 0 then s.setSeqState g 3 else s.armCore k g 0

/-- Partition `n` is RUNNING from Hour `k` on, its cores armed at position 0 (R32). -/
def State.runStart (s : State) (k n : Nat) : State :=
  (((s.lcs n).foldl (fun s g => s.startCore k g) (s.setPstate n 3)).serveFrom k n).joinFor n

/-- A START whose Hour has come (R185, R369). The flag says that the partition runs from this window on. It waits while a spare's memory
is being filled for a core that the LOADED partition lost (R64; DESIGN CHOICE, log entry 57). -/
def State.startAtHour (s : State) (k n : Nat) : State × Bool :=
  let p := s.part n
  let st := s.pstate n
  if p.startCmd.isNone || st == 3 then (s, false)
  else if st ≠ 2 then (s.completeStart n 0x24, false)
  else if k < p.startAt then (s, false)
  else if (s.lcs n).any (fun g => s.power.stopped.contains (g / 16)) then (s.completeStart n 0x24, false)
  else if (s.lcs n).any (fun g => (s.core g).fenced) || !p.rewrites.isEmpty then (s, false)
  else if (s.lcs n).all (fun g => s.nextLen g == 0) then (s.completeStart n 0, false)
  else (s.runStart k n, true)

/-- A RUNNING partition's aborted step can be reissued now (R62, R447, R450, R452). -/
def State.mayReissue (s : State) (n : Nat) : Bool :=
  let p := s.part n
  s.pstate n == 3 && s.suspended n && p.reissue && p.rewrites.isEmpty && (s.span n ≤ 1 || p.jobAborted) && !s.fencedJob n
    && (s.lcs n).all (fun g => !(s.core g).fenced)

/-- The step of partition `n` is reissued from its opening HOUR_MARK at Hour `k` (R234, R447). -/
def State.reissueStep (s : State) (k n : Nat) : State :=
  let s := s.restoreFlags n
  let s := match (s.part n).snapshot with
    | none => s
    | some x => x.cores.foldl (fun s (y : SnapCore) =>
      let s := s.emptyCore y.core
      let c := s.core y.core
      let s := s.setCore y.core { c with step := y.step, markPos := y.markPos, layers := y.layers, unfolded := y.unfolded,
                                         reduceSeq := y.reduceSeq, trapped := none }
      if y.state = 2 then s.armCore k y.core y.pos else (s.setSeqState y.core y.state).setSeqPos y.core y.pos) s
  let s := { s with combines := s.combines.filter (fun x => x.part != n) }
  let s := s.clr32 (Reg.topPartJob n) 6
  (s.setPart n { s.part n with reissue := false, jobAborted := false }).serveReissue n

/-- Adapter slots whose loads completed become open (R371). -/
def State.openSlots (s : State) : State := { s with loader := { s.loader with opening := [] } }

/-- Step 8 in the window of Hour `k`, opened at tick `tick` and ending in noon cycle `fin`: admission, patches, STOPs at a boundary,
STARTs, reissues, and the copies that R234 makes at the end. `ends` are the partitions at a step boundary, `joined` the cores that
planned changes added. -/
def State.windowServe (s : State) (k tick fin : Nat) (ends joined : List Nat) : State :=
  let s := (List.range 64).foldl (fun s n => s.serveWindow n k tick (ends.contains n)) s
  let s := s.openSlots.applyPatches k
  let s := ends.foldl (fun s n => if s.pstate n == 3 && (s.part n).stopCmd.isSome then s.returnLoaded n false else s) s
  let s := joined.foldl (fun s g => s.startCore k g) s
  let (s, started) := (List.range 64).foldl (fun (acc : State × List Nat) n =>
    let (s, b) := acc.1.startAtHour k n
    (s, if b then acc.2 ++ [n] else acc.2)) (s, [])
  let s := (List.range 64).foldl (fun s n => if s.mayReissue n then s.reissueStep k n else s) s
  let s := (ends ++ started).foldl (fun s n => if s.pstate n == 3 && !s.suspended n then (s.takeSnapshot k fin n).awaitRewrite n else s) s
  s.serveLevels

/-! ## The window (R49, R52-R54) -/

/-- Length of the swap window: 40 nc on A0 where a meter interval closes, else 32 (R48, R50). -/
def State.windowLen (s : State) : Nat := if s.meter.due && s.meter.powered then 40 else 32

/-- The window of Hour `k` opens in noon cycle `t`. -/
def State.openWindow (s : State) (k : Nat) (x : HourIn) (t : Nat) : State :=
  let w := s.windowLen
  let late := s.diesIn.filter (fun d => !s.waitsAt d)
  let missing := (List.range 8).any (fun d => (s.die d).cond != .inService)
  let ends := upto 64 s.atBoundary
  let direct := s.staged.map (·.1)
  let sets := s.host.sets
  let missed := sets.filter (fun c => !c.planned && c.target != 0 && decide (c.target < k))
  let due := sets.filter (fun c => if c.planned then decide (c.target ≤ k) && s.planReady ends c else c.target == 0 || c.target == k)
  let s := { s with host := { s.host with sets := sets.filter (fun c => !missed.contains c && !due.contains c) } }
  let s := missed.foldl (fun s c => s.complete 0 c.cmdId 0x60 0 0) s
  let s := due.foldl (fun s c => s.stageSet direct c) s
  let now := (due.map (fun c => (s.wordsWritten c.entries).map (fun y => (c.planned, y.1, y.2)))).flatten
  let s := if s.meter.due && s.meter.powered then s.closeInterval 0 x.tick late missing else s
  let s := s.reportDigests
  let s := s.w64 Reg.topHourCount k
  let s := { s with hour := { s.hour with opened := k, firstAt := none, winEnd := t + w } }
  let on (d : Nat) : Bool := !late.contains d
  let s := late.foldl (fun s d => s.holdBack k w now d) s
  let s := (s.windowFences on).windowPower x
  let (s, joined) := s.windowParts k
  let s := ((s.windowQuotas.windowRoutes on t).windowRest on now t).windowServe k x.tick (t + w) ends joined
  let s := due.foldl (fun s c => s.complete 0 c.cmdId 0 k 0) s
  let s := s.planWaits.sf32 Reg.topHourStatus 16 8 w
  let s := (s.diesIn.filter (fun d => (s.die d).atHour == some k)).foldl (fun s d => s.dieWindow d k t w) s
  s.linkPrimaries.publish

/-- SWAP_WINDOW_OPEN: every die in service, and in a coupled system every neighbour, has reached the Hour (R49). -/
def swapWindowOpen (x : HourIn) (t : Nat) (s : State) : State :=
  if !s.inNoon || s.diesIn.isEmpty || !s.diesIn.all s.waitsAt then s
  else
    let k := if s.hour.joining then s.joinHour else s.nextHour
    if !s.hourPorts.all (s.portArrived k) then s
    else
      let s := if s.hour.joining then ({ s with hour := { s.hour with joining := false } }).adopt k else s
      (s.checkSlip k).openWindow k x t

/-- ARRIVE_LIMIT_EXPIRY: ARRIVE_LIMIT has passed since the first die reached the Hour (R49). A neighbour whose message has not come
is late. -/
def arriveLimitExpiry (x : HourIn) (t : Nat) (s : State) : State :=
  if !s.inNoon || !s.diesIn.any s.waitsAt then s
  else
    let k := if s.hour.joining then s.joinHour else s.nextHour
    let s := if s.hour.joining then ({ s with hour := { s.hour with joining := false } }).adopt k else s
    let s := { s with hour := { s.hour with reached := k } }
    let s := (s.hourPorts.filter (fun p => !s.portArrived k p)).foldl (fun s _ => s.lateArrival) s
    (s.checkSlip k).openWindow k x t

/-! ## Meanings -/

/-- HOUR_ARRIVAL. -/
def execHourArrival (d : Fin 8) (t : Nat) (s : State) : Host.Outcome State Fault Refusal := .next (hourArrival d t s)
/-- SWAP_WINDOW_OPEN. -/
def execSwapWindowOpen (x : HourIn) (t : Nat) (s : State) : Host.Outcome State Fault Refusal := .next (swapWindowOpen x t s)
/-- ARRIVE_LIMIT_EXPIRY. -/
def execArriveLimitExpiry (x : HourIn) (t : Nat) (s : State) : Host.Outcome State Fault Refusal := .next (arriveLimitExpiry x t s)

end Sys2Proof.Machine
end

