-- ==== Sys2Proof/Machine/Jtag.lean ====
section
/-!
DEFINITION. The test access port: instructions, their data registers and what they do (20_boundary_scan_and_test.md R505-R519). A
command is one selection of an instruction with one scan of its data register: the captured bits leave at TDO, and the bits shifted in
act on Update-DR.
-/

namespace Sys2Proof.Machine

/-! ## Selecting an instruction (R506, R508, R509) -/

/-- Captured bits leave at TDO. -/
def State.captured (s : State) (bits data : Nat) : State := s.emit (.tdo bits data)

/-- The instruction register is scanned: it captures 1, and the instruction selected before no longer holds the pins. -/
def State.selectIr (s : State) (op : Nat) : State := (({ s with jtag := { s.jtag with ir := op } }).captured 8 1).freePins

/-- An instruction that acts as BYPASS: the bypass register captures 0. -/
def State.bypass (s : State) : State := (s.selectIr 0xFF).captured 1 0

/-- A closed instruction is selected (R508). -/
def State.closedIr (s : State) : State := s.bypass.set32 Reg.jtagStatus 5

/-- DEBUG_LOCK in effect (R484). -/
def State.debugLock (s : State) : Nat := s.sec.shadow.debugLock

/-- Debug instructions are available (R508). -/
def State.debugOpen (s : State) : Bool := s.debugLock == 0 || (s.debugLock == 1 && bitAt (s.r32 Reg.jtagStatus) 3)

/-- A debug instruction with its effect, or as BYPASS where it is closed. -/
def State.debugIr (s : State) (op : Nat) (act : State → State) : State := if s.debugOpen then act (s.selectIr op) else s.closedIr

/-- Test-Logic-Reset selects IDCODE and gives every pin back (R505). -/
def trstN (s : State) : State := ({ s with jtag := { s.jtag with ir := 1 } }).freePins

/-! ## Boundary scan (R509, R510, R512) -/

/-- The device accepts pin-driving instructions (R509). -/
def State.pinsAllowed (s : State) : Bool := s.alarmState == 2 || s.f32 Reg.dawnStatus 28 2 == 2 || s.power.porLow

/-- A pin-driving instruction: its effect with the pins held, or BYPASS with EXTEST_REFUSED. While a Dawn waits for the pins the
instruction that holds them stays in force, and any other gives them back (R509; log entry 72). -/
def State.pinIr (s : State) (op : Nat) (act : State → State) : State :=
  if s.power.pinned.isSome && s.jtag.ir == op then
    let s := act (s.captured 8 1)
    s.emit (.pins op s.jtag.cells)
  else if s.pinsAllowed && s.power.pinned.isNone then
    let s := act ((s.selectIr op).set32 Reg.jtagStatus 2)
    s.emit (.pins op s.jtag.cells)
  else s.bypass.set32 Reg.jtagStatus 4

/-- A scan of the boundary register: the pins' levels are captured and the cells take the bits shifted in. -/
def State.scanCells (s : State) (levels cells : Nat) : State :=
  let s := s.captured 1212 levels
  { s with jtag := { s.jtag with cells := cells } }

/-! ## Reading without firmware (R507, R513, R514, R519) -/

/-- IDCODE (Table 20-2). -/
def idcodeValue : Nat := 1 + Config.manufacturer.toNat * 2 + 0x0A01 * 2 ^ 12

/-- STATUS_READ: JTAG_STATUS is captured, and the bits shifted in clear its W1C bits. -/
def statusRead (shift : Nat) (s : State) : State :=
  let s := s.selectIr 0x10
  (s.captured 32 (s.r32 Reg.jtagStatus)).writeReg Reg.jtagStatus shift

/-- JOURNAL_READ: the entry of the index last set is captured, then the index is set. -/
def journalRead (index : Nat) (s : State) : State :=
  let s := s.selectIr 0x11
  let x := s.rWide (Reg.dawnJournal s.jtag.index) 4 + s.freeNat 10 * 2 ^ 128
  let s := s.drawn.captured 138 x
  { s with jtag := { s.jtag with index := index } }

/-- The 256 bits of the meter that a selector names (R514); zeros beyond what the meter holds. -/
def State.meterItem (s : State) (sel : Nat) : Nat :=
  let i := sel % 2 ^ 16
  let m := s.meter
  match sel / 2 ^ 16 with
  | 0 => match m.records[i / 32]? with | some r => fld r.bytes (256 * (i % 32)) 256 | none => 0
  | 1 => match m.audit[i]? with | some e => e.2 | none => 0
  | 2 => if 1 ≤ i ∧ i ≤ 11 then s.r64 (Reg.muAuditCount i) else 0
  | 3 => if i = 0 then s.r32 Reg.muStatus + s.r64 Reg.muLast * 2 ^ 64 else 0
  | _ => 0

/-- METER_READ: the item of the selector last set is captured, then the selector is set. -/
def meterRead (sel : Nat) (s : State) : State :=
  let s := s.selectIr 0x12
  let x := s.meterItem s.jtag.selector % 2 ^ 256 + s.freeNat 24 * 2 ^ 256
  let s := s.drawn.captured 280 x
  { s with jtag := { s.jtag with selector := sel } }

/-! ## The debug grant (R515) -/

/-- GRANT_FAILS. -/
def State.grantFails (s : State) : Nat := s.f32 Reg.jtagStatus 14 2

/-- DEBUG_CHALLENGE: 48 random bytes are captured, zeros after three failures. -/
def debugChallenge (s : State) : State :=
  if 2 ≤ s.debugLock then s.closedIr
  else
    let s := s.selectIr 0x20
    if s.grantFails = 3 then s.captured 384 0
    else
      let (x, s) := s.drawWide 6
      ({ s with sec := { s.sec with challenge := some (leBytes 48 x) } }).captured 384 x

/-- A response answers the challenge under DEBUG_KEY_FP. -/
def State.responseOk (s : State) (bytes : List Byte) : Bool :=
  match s.sec.challenge with
  | none => false
  | some c =>
    bytes.length == 193 && sha384 (bytes.take 97) == leBytes 48 (Config.keyFp 4).toNat
      && ecdsaVerify (bytes.take 97) (bytes.drop 97) (c ++ leBytes 8 Config.serial.toNat)

/-- DEBUG_RESPONSE: a response that verifies stops every partition, erases the keys and starts the scrub of R485. -/
def debugResponse (bytes : List Byte) (s : State) : State :=
  if 2 ≤ s.debugLock then s.closedIr
  else
    let s := s.selectIr 0x21
    if s.debugLock = 0 ∨ s.grantFails = 3 ∨ s.sec.granting then s
    else
      let ok := s.responseOk bytes
      let s := { s with sec := { s.sec with challenge := none } }
      if ok then
        let s := s.stopForAlarm.eraseKeys true
        { s with sec := { s.sec with granting := true } }
      else s.sf32 Reg.jtagStatus 14 2 (s.grantFails + 1)

/-! ## ACCESS (R516, R518) -/

/-- The rails of the dies are off: the main rails are not good, or the package is in Midnight (R408). -/
def State.railsOff (s : State) : Bool := !s.power.mainGood || s.alarmState == 2

/-- A die that the test port does not reach: absent, or with its rail off (R518). -/
def State.dieDark (s : State) (d : Nat) : Bool := s.dieAbsent d || s.railsOff

/-- REQUESTER with which an ACCESS meets others at a flag file, after every other (log entry 45). -/
def reqJtag : Nat := 31

/-- Whether an ACCESS is refused: R17, the die test port, the Metering Unit, NO_LIVE_READ, or an address that is not aligned. -/
def State.accessBad (s : State) (a : Nat) (write : Bool) : Bool :=
  let mem := match place a with | .memory _ => true | _ => false
  a % 8 != 0 || (accessKind reqJtag a 8 write).isSome || (addrDie (viewAddr a) < 8 && s.dieDark (addrDie (viewAddr a)))
    || (addrDie a == 15 && s.railsOff)
    || (write && addrDie a == 8 && addrRegion a == 15 && addrOffset a / 0x100000 == 0xB) || (!write && mem && s.liveRead a 8)

/-- ACCESS: the window is captured; OP 1 or 2 starts an access where none is under way. -/
def jtagAccess (window : Nat) (s : State) : State :=
  s.debugIr 0x30 (fun s =>
    let j := s.jtag
    let x := j.data % 2 ^ 64 + s.freeNat 40 * 2 ^ 64 + j.result % 4 * 2 ^ 104 + s.drawn.freeNat 2 * 2 ^ 106
    let s := s.drawn.drawn.captured 108 x
    let op := fld window 106 2
    if op = 0 ∨ op = 3 ∨ j.access.isSome then s
    else { s with jtag := { s.jtag with access := some (fld window 64 40, op == 2, fld window 0 64), result := 1 } })

/-- ACCESS_COMPLETE: the access under way ends in cycle `t`; `tick` is the value of a tick counter that it reads. -/
def jtagAccessComplete (t tick : Nat) (s : State) : State :=
  match s.jtag.access with
  | none => s
  | some (a, write, data) =>
    let fin (s : State) (result x : Nat) : State := { s with jtag := { s.jtag with access := none, result := result, data := x } }
    if s.accessBad a write then ((fin s 2 0).w64 Reg.jtagErrAddr a).set32 Reg.jtagStatus 6
    else if write then fin (s.putDevice reqJtag a t (leBytes 8 data)) 0 data
    else let (x, s) := s.getDevice a 8 t tick; fin s 0 x

/-! ## DIE_BIST (R517) -/

/-- A partition with cores on the die is LOADED, RUNNING or STOPPED. -/
def State.dieHeld (s : State) (d : Nat) : Bool := (List.range 64).any (fun n => 2 ≤ s.pstate n && s.hasCoreOn n d)

/-- DIE_BIST: the control register is captured and set; START begins a BIST, or sets DONE at once where it may not. -/
def dieBist (x : Nat) (s : State) : State :=
  s.debugIr 0x31 (fun s =>
    let s := s.captured 16 s.jtag.bist
    if s.jtag.running.isSome then s
    else
      let d := fld x 0 4
      let kind := fld x 4 2
      let put (s : State) (v : Nat) : State := { s with jtag := { s.jtag with bist := v } }
      let set := d + kind * 2 ^ 4
      if !bitAt x 6 then put s (set + s.jtag.bist / 2 ^ 7 % 4 * 2 ^ 7)
      else if d < 8 && s.dieHeld d then (put s (set + 2 ^ 7)).set32 Reg.jtagStatus 7
      else if 8 ≤ d ∨ s.dieDark d ∨ 1 < kind then put s (set + 2 ^ 7)
      else { put s set with jtag := { s.jtag with bist := set, running := some (d, kind) } })

/-- DIE_BIST_COMPLETE: the BIST ends in noon cycle `t`; every SRAM of the die is zero, and the die is reset as domain 2. -/
def dieBistComplete (pass : Bool) (t time : Nat) (s : State) : State :=
  match s.jtag.running with
  | none => s
  | some (d, kind) =>
    let s := { s with jtag := { s.jtag with running := none, bist := d + kind * 2 ^ 4 + 2 ^ 7 + (if pass then 2 ^ 8 else 0) } }
    let s := s.journal time (8 + kind) 1 d (if pass then 0 else 2) (s.dawnCount (dawnKey (8 + kind) 1 d)) 0
    let s := { s with
      mem := s.mem.filter (fun e => addrDie e.1 != d)
      poison := s.poison.filter (fun e => addrDie (8 * e.1) != d)
      soft := s.soft.filter (fun e => addrDie (8 * e.1) != d)
      past := s.past.filter (fun p => addrDie p.addr != d)
      selfErr := s.selfErr.filter (fun e => addrDie (8 * e.1) != d) }
    s.resetDomain 2 d 0 0 none t time

/-! ## Production instructions (R508) -/

/-- A production instruction: closed once PROD_LOCK is blown; before, the spec does not state what its chains hold. -/
def State.production (s : State) (name : String) : Host.Outcome State Fault Refusal :=
  if s.sec.shadow.prodLock then .next s.closedIr else .refused (.productionTest name)

/-! ## Meanings -/

/-- TRST_N. -/
def execTrstN (s : State) : Host.Outcome State Fault Refusal := .next (trstN s)
/-- BYPASS. -/
def execJtagBypass (s : State) : Host.Outcome State Fault Refusal := .next s.bypass
/-- IDCODE. -/
def execIdcode (s : State) : Host.Outcome State Fault Refusal := .next ((s.selectIr 1).captured 32 idcodeValue)
/-- SAMPLE_PRELOAD. -/
def execSamplePreload (levels cells : BitVec 1212) (s : State) : Host.Outcome State Fault Refusal :=
  .next ((s.selectIr 2).scanCells levels.toNat cells.toNat)
/-- EXTEST. -/
def execExtest (levels cells : BitVec 1212) (s : State) : Host.Outcome State Fault Refusal :=
  .next (s.pinIr 3 (fun s => s.scanCells levels.toNat cells.toNat))
/-- CLAMP. -/
def execClamp (s : State) : Host.Outcome State Fault Refusal := .next (s.pinIr 4 (fun s => s.captured 1 0))
/-- HIGHZ. -/
def execHighz (s : State) : Host.Outcome State Fault Refusal := .next (s.pinIr 5 (fun s => s.captured 1 0))
/-- EXTEST_PULSE. -/
def execExtestPulse (levels cells : BitVec 1212) (s : State) : Host.Outcome State Fault Refusal :=
  .next (s.pinIr 6 (fun s => s.scanCells levels.toNat cells.toNat))
/-- EXTEST_TRAIN. -/
def execExtestTrain (levels cells : BitVec 1212) (s : State) : Host.Outcome State Fault Refusal :=
  .next (s.pinIr 7 (fun s => s.scanCells levels.toNat cells.toNat))
/-- STATUS_READ. -/
def execStatusRead (shift : BitVec 32) (s : State) : Host.Outcome State Fault Refusal := .next (statusRead shift.toNat s)
/-- JOURNAL_READ. -/
def execJournalRead (index : Fin 1024) (s : State) : Host.Outcome State Fault Refusal := .next (journalRead index s)
/-- METER_READ. -/
def execMeterRead (sel : BitVec 24) (s : State) : Host.Outcome State Fault Refusal := .next (meterRead sel.toNat s)
/-- DEBUG_CHALLENGE. -/
def execDebugChallenge (s : State) : Host.Outcome State Fault Refusal := .next (debugChallenge s)
/-- DEBUG_RESPONSE. -/
def execDebugResponse (bytes : List Byte) (s : State) : Host.Outcome State Fault Refusal := .next (debugResponse bytes s)
/-- ACCESS. -/
def execJtagAccess (window : BitVec 108) (s : State) : Host.Outcome State Fault Refusal := .next (jtagAccess window.toNat s)
/-- ACCESS_COMPLETE. -/
def execJtagAccessComplete (t tick : Nat) (s : State) : Host.Outcome State Fault Refusal := .next (jtagAccessComplete t tick s)
/-- DIE_BIST. -/
def execDieBist (x : BitVec 16) (s : State) : Host.Outcome State Fault Refusal := .next (dieBist x.toNat s)
/-- DIE_BIST_COMPLETE. -/
def execDieBistComplete (pass : Bool) (t time : Nat) (s : State) : Host.Outcome State Fault Refusal := .next (dieBistComplete pass t time s)
/-- SCAN_IOD. -/
def execScanIod (s : State) : Host.Outcome State Fault Refusal := s.production "SCAN_IOD"
/-- SCAN_CD. -/
def execScanCd (s : State) : Host.Outcome State Fault Refusal := s.production "SCAN_CD"
/-- FUSE_PROD. -/
def execFuseProd (s : State) : Host.Outcome State Fault Refusal := s.production "FUSE_PROD"

end Sys2Proof.Machine
end

