-- ==== Sys2Proof/Machine/Dispatch.lean ====
section
/-!
DEFINITION. The dispatch of commands to their meanings: one arm per constructor of Instr, no wildcard.
-/

namespace Sys2Proof.Machine

/-- The effect of a command on everything but the queue. -/
def exec (i : Instr) (s : State) : Host.Outcome State Fault Refusal :=
  match i with
  | .createRing d => Sys2Proof.Machine.execCreateRing d s
  | .deleteRing d => Sys2Proof.Machine.execDeleteRing d s
  | .resetRing d => Sys2Proof.Machine.execResetRing d s
  | .changeSet d list placement => Sys2Proof.Machine.execChangeSet d list placement s
  | .netAddress d => Sys2Proof.Machine.execNetAddress d s
  | .netWindow d => Sys2Proof.Machine.execNetWindow d s
  | .netClose d => Sys2Proof.Machine.execNetClose d s
  | .twilight d => Sys2Proof.Machine.execTwilight d s
  | .midnight d => Sys2Proof.Machine.execMidnight d s
  | .wakeCmd d x => Sys2Proof.Machine.execWakeCmd d x s
  | .resetDomain d => Sys2Proof.Machine.execResetDomain d s
  | .fenceSlot d => Sys2Proof.Machine.execFenceSlot d s
  | .jobAbort d => Sys2Proof.Machine.execJobAbort d s
  | .jobResume d => Sys2Proof.Machine.execJobResume d s
  | .dawnRetry d => Sys2Proof.Machine.execDawnRetry d s
  | .tenantSwitch d => Sys2Proof.Machine.execTenantSwitch d s
  | .attestLog d => Sys2Proof.Machine.execAttestLog d s
  | .fuseProgram d vfuse => Sys2Proof.Machine.execFuseProgram d vfuse s
  | .firmwareUpdate d src => Sys2Proof.Machine.execFirmwareUpdate d src s
  | .muRecords d => Sys2Proof.Machine.execMuRecords d s
  | .muAudit d => Sys2Proof.Machine.execMuAudit d s
  | .muCert d => Sys2Proof.Machine.execMuCert d s
  | .muCalReport d => Sys2Proof.Machine.execMuCalReport d s
  | .trustKey d key => Sys2Proof.Machine.execTrustKey d key s
  | .imageFeed d => Sys2Proof.Machine.execImageFeed d s
  | .baseLoad d src => Sys2Proof.Machine.execBaseLoad d src s
  | .baseUnload d => Sys2Proof.Machine.execBaseUnload d s
  | .repairRequest d => Sys2Proof.Machine.execRepairRequest d s
  | .imageRepair d src => Sys2Proof.Machine.execImageRepair d src s
  | .placeCheck n d src => Sys2Proof.Machine.execPlaceCheck n d src s
  | .loadImage n d src job => Sys2Proof.Machine.execLoadImage n d src job s
  | .unloadImage n d => Sys2Proof.Machine.execUnloadImage n d s
  | .adapterLoad n d src => Sys2Proof.Machine.execAdapterLoad n d src s
  | .adapterUnload n d => Sys2Proof.Machine.execAdapterUnload n d s
  | .startPart n d => Sys2Proof.Machine.execStartPart n d s
  | .stopPart n d => Sys2Proof.Machine.execStopPart n d s
  | .exportData n d list => Sys2Proof.Machine.execExportData n d list s
  | .patchSet n d list => Sys2Proof.Machine.execPatchSet n d list s
  | .submit d prompt tick => Sys2Proof.Machine.execSubmit d prompt tick s
  | .cancel d => Sys2Proof.Machine.execCancel d s
  | .doorbell rid off v => Sys2Proof.Machine.execDoorbell rid off v s
  | .descriptorTake rid d => Sys2Proof.Machine.execDescriptorTake rid d s
  | .eventWrite => Sys2Proof.Machine.execEventWrite s
  | .msixHoldoffExpiry rid => Sys2Proof.Machine.execMsixHoldoffExpiry rid s
  | .enable on => Sys2Proof.Machine.execEnable on s
  | .hostInterfaceReady => Sys2Proof.Machine.execHostInterfaceReady s
  | .errValid => Sys2Proof.Machine.execErrValid s
  | .functionLevelReset => Sys2Proof.Machine.execFunctionLevelReset s
  | .hotReset => Sys2Proof.Machine.execHotReset s
  | .linkDisable => Sys2Proof.Machine.execLinkDisable s
  | .linkDown => Sys2Proof.Machine.execLinkDown s
  | .perstN => Sys2Proof.Machine.execPerstN s
  | .configRequest => Sys2Proof.Machine.execConfigRequest s
  | .stagingAccess off len w => Sys2Proof.Machine.execStagingAccess off len w s
  | .serviceAccess v len w t tick upset => Sys2Proof.Machine.execServiceAccess v len w t tick upset s
  | .broadcastWrite req region off bs t => Sys2Proof.Machine.execBroadcastWrite req region off bs t s
  | .registerWrite v wide x meets => Sys2Proof.Machine.execRegisterWrite v wide x meets s
  | .lowWordRead which v t => Sys2Proof.Machine.execLowWordRead which v t s
  | .flagWrite req d c n bs t => Sys2Proof.Machine.execFlagWrite req d c n bs t s
  | .counterValueWrite req d c n bs t => Sys2Proof.Machine.execCounterValueWrite req d c n bs t s
  | .counterAdd req d c n bs t => Sys2Proof.Machine.execCounterAdd req d c n bs t s
  | .hourCtlWrite v => Sys2Proof.Machine.execHourCtlWrite v s
  | .partMemberWrite n w v => Sys2Proof.Machine.execPartMemberWrite n w v s
  | .pbbWrite d n which w wide v => Sys2Proof.Machine.execPbbWrite d n which w wide v s
  | .flagwinWrite d n w wide v => Sys2Proof.Machine.execFlagwinWrite d n w wide v s
  | .coreStreamWrite d c w wide v => Sys2Proof.Machine.execCoreStreamWrite d c w wide v s
  | .mcastEntryWrite d e w wide v => Sys2Proof.Machine.execMcastEntryWrite d e w wide v s
  | .peerEntryWrite n e v => Sys2Proof.Machine.execPeerEntryWrite n e v s
  | .swapTable v => Sys2Proof.Machine.execSwapTable v s
  | .ilkFirstRearm d c => Sys2Proof.Machine.execIlkFirstRearm d c s
  | .armCapture d c w wide v => Sys2Proof.Machine.execArmCapture d c w wide v s
  | .hourArrival d t => Sys2Proof.Machine.execHourArrival d t s
  | .swapWindowOpen x t => Sys2Proof.Machine.execSwapWindowOpen x t s
  | .arriveLimitExpiry x t => Sys2Proof.Machine.execArriveLimitExpiry x t s
  | .plannedTimeout => Sys2Proof.Machine.execPlannedTimeout s
  | .patchTimeout n => Sys2Proof.Machine.execPatchTimeout n s
  | .forcedStop n => Sys2Proof.Machine.execForcedStop n s
  | .jobAbortTimeout n => Sys2Proof.Machine.execJobAbortTimeout n s
  | .repairAbandon id => Sys2Proof.Machine.execRepairAbandon id s
  | .cardFetch d c t upset => Sys2Proof.Machine.execCardFetch d c t upset s
  | .nopCard d c t => Sys2Proof.Machine.execNopCard d c t s
  | .matmul d c t => Sys2Proof.Machine.execMatmul d c t s
  | .vectorCard d c t => Sys2Proof.Machine.execVectorCard d c t s
  | .moveCard d c t => Sys2Proof.Machine.execMoveCard d c t s
  | .multicast d c t => Sys2Proof.Machine.execMulticast d c t s
  | .reduceCard d c t => Sys2Proof.Machine.execReduceCard d c t s
  | .digestCard d c t => Sys2Proof.Machine.execDigestCard d c t s
  | .hourMark d c t => Sys2Proof.Machine.execHourMark d c t s
  | .cardLocalCompletion d c pos t => Sys2Proof.Machine.execCardLocalCompletion d c pos t s
  | .streamEnd n => Sys2Proof.Machine.execStreamEnd n s
  | .prescan d c e t upset => Sys2Proof.Machine.execPrescan d c e t upset s
  | .passStart d c e t upset => Sys2Proof.Machine.execPassStart d c e t upset s
  | .accumulationCycle d c e t => Sys2Proof.Machine.execAccumulationCycle d c e t s
  | .drainStart d c e t => Sys2Proof.Machine.execDrainStart d c e t s
  | .tileComplete d c e t => Sys2Proof.Machine.execTileComplete d c e t s
  | .groupEntry d c t upset => Sys2Proof.Machine.execGroupEntry d c t upset s
  | .groupOutput d c t => Sys2Proof.Machine.execGroupOutput d c t s
  | .dmaItemStart d c pos t upset => Sys2Proof.Machine.execDmaItemStart d c pos t upset s
  | .dmaItemComplete d c pos t => Sys2Proof.Machine.execDmaItemComplete d c pos t s
  | .shmReadRequest d off lines upset => Sys2Proof.Machine.execShmReadRequest d off lines upset s
  | .interlockRelease d c pos e t => Sys2Proof.Machine.execInterlockRelease d c pos e t s
  | .scrubRead d region off upset => Sys2Proof.Machine.execScrubRead d region off upset s
  | .eccUncorrectable d region off feed => Sys2Proof.Machine.execEccUncorrectable d region off feed s
  | .rewriteComplete id stored => Sys2Proof.Machine.execRewriteComplete id stored s
  | .fieldFuseWrite vfuse time => Sys2Proof.Machine.execFieldFuseWrite vfuse time s
  | .vfuseCheck => Sys2Proof.Machine.execVfuseCheck s
  | .holdStart d t => Sys2Proof.Machine.execHoldStart d t s
  | .holdEnd d t => Sys2Proof.Machine.execHoldEnd d t s
  | .holdLong d t => Sys2Proof.Machine.execHoldLong d t s
  | .hangStop d t time => Sys2Proof.Machine.execHangStop d t time s
  | .watchdogExpiry which x time => Sys2Proof.Machine.execWatchdogExpiry which x time s
  | .xingFault d k skew t time => Sys2Proof.Machine.execXingFault d k skew t time s
  | .d2dLaneFailure k lane => Sys2Proof.Machine.execD2dLaneFailure k lane s
  | .d2dRetrainComplete k ok => Sys2Proof.Machine.execD2dRetrainComplete k ok s
  | .d2dAckTimer k => Sys2Proof.Machine.execD2dAckTimer k s
  | .d2dWrite k bits may t => Sys2Proof.Machine.execD2dWrite k bits may t s
  | .d2dReadData k bits may t => Sys2Proof.Machine.execD2dReadData k bits may t s
  | .d2dReduceData k bits may t => Sys2Proof.Machine.execD2dReduceData k bits may t s
  | .d2dSignal k bits lc may t => Sys2Proof.Machine.execD2dSignal k bits lc may t s
  | .d2dReadReq k bits may t => Sys2Proof.Machine.execD2dReadReq k bits may t s
  | .d2dWriteReport k bits may t => Sys2Proof.Machine.execD2dWriteReport k bits may t s
  | .d2dCredit k bits => Sys2Proof.Machine.execD2dCredit k bits s
  | .d2dAck k bits => Sys2Proof.Machine.execD2dAck k bits s
  | .d2dNak k bits => Sys2Proof.Machine.execD2dNak k bits s
  | .d2dHour k bits may => Sys2Proof.Machine.execD2dHour k bits may s
  | .d2dIdle k bits => Sys2Proof.Machine.execD2dIdle k bits s
  | .tclWrite p bits t => Sys2Proof.Machine.execTclWrite p bits t s
  | .tclReadReq p bits t => Sys2Proof.Machine.execTclReadReq p bits t s
  | .tclSignal p bits t => Sys2Proof.Machine.execTclSignal p bits t s
  | .tclReduceData p bits item rank result t => Sys2Proof.Machine.execTclReduceData p bits item rank result t s
  | .tclReadData p bits t => Sys2Proof.Machine.execTclReadData p bits t s
  | .tclWriteReport p bits t => Sys2Proof.Machine.execTclWriteReport p bits t s
  | .tclErrorRsp p bits t => Sys2Proof.Machine.execTclErrorRsp p bits t s
  | .tclLink p bits corrected uncorr => Sys2Proof.Machine.execTclLink p bits corrected uncorr s
  | .unitRelease p vc t => Sys2Proof.Machine.execUnitRelease p vc t s
  | .linkUnitTimer p => Sys2Proof.Machine.execLinkUnitTimer p s
  | .tclAckTimer p => Sys2Proof.Machine.execTclAckTimer p s
  | .nakRepeatTimer p => Sys2Proof.Machine.execNakRepeatTimer p s
  | .silentLossReplay p => Sys2Proof.Machine.execSilentLossReplay p s
  | .portRetrainComplete p ok => Sys2Proof.Machine.execPortRetrainComplete p ok s
  | .tclLaneFailure lane => Sys2Proof.Machine.execTclLaneFailure lane s
  | .laneReplacementComplete p => Sys2Proof.Machine.execLaneReplacementComplete p s
  | .txnStart x t => Sys2Proof.Machine.execTxnStart x t s
  | .partialUnitFlush tag last t => Sys2Proof.Machine.execPartialUnitFlush tag last t s
  | .txnTimeout tag => Sys2Proof.Machine.execTxnTimeout tag s
  | .quarantineExpiry tag => Sys2Proof.Machine.execQuarantineExpiry tag s
  | .sleepIdleExpiry p => Sys2Proof.Machine.execSleepIdleExpiry p s
  | .sleepEntryComplete p => Sys2Proof.Machine.execSleepEntryComplete p s
  | .portWake p signalled => Sys2Proof.Machine.execPortWake p signalled s
  | .portWakeComplete p => Sys2Proof.Machine.execPortWakeComplete p s
  | .stepBoundary n t tick fit heads => Sys2Proof.Machine.execStepBoundary n t tick fit heads s
  | .tokenRecordsWrite n => Sys2Proof.Machine.execTokenRecordsWrite n s
  | .loadComplete n => Sys2Proof.Machine.execLoadComplete n s
  | .feedTimeout off => Sys2Proof.Machine.execFeedTimeout off s
  | .powerStateEntered x => Sys2Proof.Machine.execPowerStateEntered x s
  | .duskDrainEnd t tick time vfuse bad x => Sys2Proof.Machine.execDuskDrainEnd t tick time vfuse bad x s
  | .wakeN x => Sys2Proof.Machine.execWakeN x s
  | .wakeTimerExpiry x => Sys2Proof.Machine.execWakeTimerExpiry x s
  | .referenceLost => Sys2Proof.Machine.execReferenceLost s
  | .referenceRestored x => Sys2Proof.Machine.execReferenceRestored x s
  | .droopTrip d t => Sys2Proof.Machine.execDroopTrip d t s
  | .droopRelease d t => Sys2Proof.Machine.execDroopRelease d t s
  | .guardTrip fast slow => Sys2Proof.Machine.execGuardTrip fast slow s
  | .temperatureSample d readings averages ages time x => Sys2Proof.Machine.execTemperatureSample d readings averages ages time x s
  | .powerGoodFall rail mv x => Sys2Proof.Machine.execPowerGoodFall rail mv x s
  | .porN x time => Sys2Proof.Machine.execPorN x time s
  | .warmResetN x time => Sys2Proof.Machine.execWarmResetN x time s
  | .dawnWatchdogExpiry kind unit x time => Sys2Proof.Machine.execDawnWatchdogExpiry kind unit x time s
  | .failedDawnRestart x => Sys2Proof.Machine.execFailedDawnRestart x s
  | .fenceDrained n => Sys2Proof.Machine.execFenceDrained n s
  | .alarmTrip x => Sys2Proof.Machine.execAlarmTrip x s
  | .fuseShadowCheck finding => Sys2Proof.Machine.execFuseShadowCheck finding s
  | .debugGrant tick => Sys2Proof.Machine.execDebugGrant tick s
  | .challengeExpiry => Sys2Proof.Machine.execChallengeExpiry s
  | .getVersion => Sys2Proof.Machine.execGetVersion s
  | .getCapabilities => Sys2Proof.Machine.execGetCapabilities s
  | .negotiateAlgorithms common => Sys2Proof.Machine.execNegotiateAlgorithms common s
  | .getDigests => Sys2Proof.Machine.execGetDigests s
  | .getCertificate slot off len => Sys2Proof.Machine.execGetCertificate slot off len s
  | .spdmChallenge slot summary context => Sys2Proof.Machine.execSpdmChallenge slot summary context s
  | .getMeasurements index signed context => Sys2Proof.Machine.execGetMeasurements index signed context s
  | .keyExchange slot reqId summary => Sys2Proof.Machine.execKeyExchange slot reqId summary s
  | .spdmFinish id ok => Sys2Proof.Machine.execSpdmFinish id ok s
  | .spdmHeartbeat id late => Sys2Proof.Machine.execSpdmHeartbeat id late s
  | .keyUpdate id op tag => Sys2Proof.Machine.execKeyUpdate id op tag s
  | .endSession id => Sys2Proof.Machine.execEndSession id s
  | .muPowerUp fault => Sys2Proof.Machine.execMuPowerUp fault s
  | .muClockSwitch own tick => Sys2Proof.Machine.execMuClockSwitch own tick s
  | .secondBoundary tick => Sys2Proof.Machine.execSecondBoundary tick s
  | .lateClose tick => Sys2Proof.Machine.execLateClose tick s
  | .recordSeal energies => Sys2Proof.Machine.execRecordSeal energies s
  | .trstN => Sys2Proof.Machine.execTrstN s
  | .jtagBypass => Sys2Proof.Machine.execJtagBypass s
  | .idcode => Sys2Proof.Machine.execIdcode s
  | .samplePreload levels cells => Sys2Proof.Machine.execSamplePreload levels cells s
  | .extest levels cells => Sys2Proof.Machine.execExtest levels cells s
  | .clamp => Sys2Proof.Machine.execClamp s
  | .highz => Sys2Proof.Machine.execHighz s
  | .extestPulse levels cells => Sys2Proof.Machine.execExtestPulse levels cells s
  | .extestTrain levels cells => Sys2Proof.Machine.execExtestTrain levels cells s
  | .statusRead shift => Sys2Proof.Machine.execStatusRead shift s
  | .journalRead index => Sys2Proof.Machine.execJournalRead index s
  | .meterRead sel => Sys2Proof.Machine.execMeterRead sel s
  | .debugChallenge => Sys2Proof.Machine.execDebugChallenge s
  | .debugResponse bytes => Sys2Proof.Machine.execDebugResponse bytes s
  | .jtagAccess window => Sys2Proof.Machine.execJtagAccess window s
  | .jtagAccessComplete t tick => Sys2Proof.Machine.execJtagAccessComplete t tick s
  | .dieBist x => Sys2Proof.Machine.execDieBist x s
  | .dieBistComplete pass t time => Sys2Proof.Machine.execDieBistComplete pass t time s
  | .scanIod => Sys2Proof.Machine.execScanIod s
  | .scanCd => Sys2Proof.Machine.execScanCd s
  | .fuseProd => Sys2Proof.Machine.execFuseProd s
  | .rdmaWrite port qpn peer rkey off data => Sys2Proof.Machine.execRdmaWrite port qpn peer rkey off data s
  | .rdmaRead port qpn peer rkey off len => Sys2Proof.Machine.execRdmaRead port qpn peer rkey off len s
  | .arp port addr => Sys2Proof.Machine.execArp port addr s
  | .neighbourDiscovery port addr => Sys2Proof.Machine.execNeighbourDiscovery port addr s
  | .echoRequest port six addr => Sys2Proof.Machine.execEchoRequest port six addr s
  | .unsupportedFrame port => Sys2Proof.Machine.execUnsupportedFrame port s
  | .dawnDone x map cut t tick => Sys2Proof.Machine.execDawnDone x map cut t tick s
  | .twilightWakeComplete bad tick => Sys2Proof.Machine.execTwilightWakeComplete bad tick s
  | .domainResetComplete dom d k slot pass => Sys2Proof.Machine.execDomainResetComplete dom d k slot pass s
  | .powerGoodRise x => Sys2Proof.Machine.execPowerGoodRise x s
  | .perstNRelease => Sys2Proof.Machine.execPerstNRelease s
  | .pcieLinkUp => Sys2Proof.Machine.execPcieLinkUp s
  | .vddAonRemoval => Sys2Proof.Machine.execVddAonRemoval s
  | .vddMuRemoval => Sys2Proof.Machine.execVddMuRemoval s
  | .wakeReferenceTimeout => Sys2Proof.Machine.execWakeReferenceTimeout s

end Sys2Proof.Machine
end

