-- ==== Sys2Proof/Safety.lean ====
section
/-!
DEFINITION. What counts as a safe state and a safe run: the tables that every access reads stand in their canonical form, and
the step at hand answers a next state.
-/

namespace Sys2Proof.Machine

/-- The sparse tables of bytes, words, marks, flags and counters stand in canonical form: keys rise strictly and no entry
equals what an unlisted key reads as, so that equal contents are equal data. -/
def State.Canonical (s : State) : Prop :=
  Memory.wf s.mem = true ∧ Tab.wf Reg.resetWord s.regs = true ∧ Tab.wf (fun _ => none) s.staged = true
    ∧ Tab.wf (fun _ => false) s.poison = true ∧ Tab.wf (fun _ => false) s.soft = true ∧ Tab.wf (fun _ => false) s.selfErr = true
    ∧ Tab.wf (fun _ => false) s.flags = true ∧ Tab.wf (fun _ => (0 : W32)) s.ctrs = true

/-- The block takes its next step: no fault and no refusal. -/
def State.Runs (s : State) : Prop := ∃ t, step s = .next t

/-- Each of the next `k` steps is taken. -/
def State.RunsFor : Nat → State → Prop
  | 0, _ => True
  | k + 1, s => ∃ t, step s = .next t ∧ State.RunsFor k t

end Sys2Proof.Machine

namespace Sys2Proof

/-- The commands that a part not locked for production refuses (R508). -/
def Instr.production (i : Instr) : Bool :=
  match i with
  | .scanIod .. => true
  | .scanCd .. => true
  | .fuseProd .. => true
  | _ => false

end Sys2Proof

namespace Sys2Proof.Machine

/-! ## The terms of the statements -/

/-- Every memory byte, with the mark of its word, reads as before. -/
def State.SameBytes (s t : State) : Prop := ∀ a, t.rdByte a = s.rdByte a ∧ t.poisoned a = s.poisoned a

/-- Every memory byte outside `n` bytes from `a` up reads as before. -/
def State.SameBytesBut (s t : State) (a n : Nat) : Prop := ∀ x, (x < a ∨ a + n ≤ x) → t.rdByte x = s.rdByte x

/-- Every register word but those that `f` names reads as before. -/
def State.SameRegsBut (s t : State) (f : Nat → Bool) : Prop := ∀ a, f a = false → t.r32 a = s.r32 a

/-- Every register word reads as before. -/
def State.SameRegs (s t : State) : Prop := ∀ a, t.r32 a = s.r32 a

/-- Of the bytes from `a` to `a + n - 1` of die `d` no write is on its way at cycle `cyc`: each stands for every later read, and before
any later write. -/
def State.Still (s : State) (cyc a n : Nat) : Prop := ∀ p, p ∈ s.past → a ≤ p.addr → p.addr < a + n → p.cyc ≤ cyc ∧ p.rank ≤ rankOther

/-- None of the words that hold the bytes from `a` to `a + n - 1` is stored with a single-bit error. -/
def State.Sound (s : State) (a n : Nat) : Prop := ∀ x, a ≤ x → x < a + n → s.isSoft x = false

/-- What the movers of die `d` do before noon cycle `t` has been done: nothing of theirs is under way, or it is done up to there. -/
def State.Settled (s : State) (d t : Nat) : Prop := (s.mesh d).idle = true ∨ s.engCycle d t ≤ (s.mesh d).upTo

/-- Partition `n` may read the bytes at the addresses, and none of their words is stored with a single-bit error. -/
def State.MayRead (s : State) (n : Nat) (addrs : List Nat) : Prop := ∀ a, a ∈ addrs → s.mayAccess n false a = true ∧ s.isSoft a = false

/-- Nothing but registers, the host interface and what has been sent differs. -/
def State.TellsOnly (s t : State) : Prop := t = { s with regs := t.regs, host := t.host, out := t.out }

/-- The registers that telling the host of a command's end may write: the pending bits of MSI-X (R340). -/
def toldRegs (a : Nat) : Bool := decide (Reg.msixPba ≤ a) && decide (a < Reg.msixPba + 0x20)

/-- The registers that posting an event writes (R334). -/
def eventRegs (a : Nat) : Bool := a == Reg.hstEvtCount || a == Reg.hstEvtCount + 4 || a == Reg.hstStatus

/-- The registers that an error capture writes (R350). -/
def captureRegs (a : Nat) : Bool := eventRegs a || a == Reg.hstErrAddr || a == Reg.hstErrAddr + 4 || a == Reg.hstErrInfo

/-- The 64-bit register at `b`, as two words. -/
def pairOf (b a : Nat) : Bool := a == b || a == b + 4

/-- Nothing but the flag file of die `d` differs: its flags, counters and the record of its cycle, COALESCED and SET_COALESCE, the copies
of flag windows for a reissue that a new cycle makes (R234), and what the die's hold notes of its cause (R265). -/
def State.FlagFileOnly (s t : State) (d : Nat) : Prop :=
  t = { s with dies := t.dies, flags := t.flags, ctrs := t.ctrs, parts := t.parts, hour := { s.hour with copies := t.hour.copies }, regs := t.regs }
    ∧ (∀ e, e ≠ d → t.die e = s.die e)
    ∧ (t.die d) = { s.die d with hold := (t.die d).hold, flagT := (t.die d).flagT, flagCells := (t.die d).flagCells, ctrCells := (t.die d).ctrCells,
                                 coalBase := (t.die d).coalBase, coalWas := (t.die d).coalWas }
    ∧ (∀ n, t.part n = { s.part n with snapshot := (t.part n).snapshot })
    ∧ s.SameRegsBut t (fun a => a == Reg.cdFlagStatus d || (List.range 4).any (fun c => pairOf (Reg.cdFlagCount d c) a))

/-- A command of ring `rid` can be told: the ring and its completion ring exist, and the completion ring is not in ERROR (R331). -/
def State.CanTell (s : State) (rid : Nat) : Prop :=
  (s.ring rid).live = true ∧ (s.ring (s.cqOf rid)).live = true ∧ (s.ring (s.cqOf rid)).error = false ∧ s.cqOf rid ≠ rid

/-- The completion of a command has been written: 32 bytes at the tail that the completion ring had, with the command's CMD_ID, its
STATUS, its RID, RESULT0 and RESULT1 (R333, Table 13-5). -/
def State.Told (s t : State) (rid cmdId status r0 r1 : Nat) : Prop :=
  ∃ e, Output.hostWrite ((s.ring (s.cqOf rid)).base + 32 * (s.ring (s.cqOf rid)).tail) 32 e ∈ t.out ∧ fld e 0 32 = cmdId % 2 ^ 32
    ∧ fld e 32 8 = status % 2 ^ 8 ∧ fld e 40 8 = rid % 2 ^ 8 ∧ fld e 128 64 = r0 % 2 ^ 64 ∧ fld e 192 56 = r1 % 2 ^ 56

/-- The 288 bytes `x` are the frame of KIND `kind` that module end `k` expects next, with a correct CHECK, and the end can receive (R255). -/
def State.NextFrame (s : State) (k kind x : Nat) : Prop :=
  (s.modEnd k).outOfService = false ∧ (s.modEnd k).retraining = false ∧ frameCheck x = true ∧ wireSeq x = (s.modEnd k).wantF
    ∧ fld x 208 4 = kind

/-- No frame waits at a module of die `d` for its reduce buffer (R273). -/
def State.NoneWaits (s : State) (d : Nat) : Prop := ∀ m, m < 4 → (s.modEnd (4 * d + m)).inQ = []

/-- The address that line `i` of a frame's payload has on die `d`. -/
def lineAt (d x i : Nat) : Nat := d * 2 ^ 36 + fld x 140 4 * 2 ^ 32 + fld x 108 32 + 32 * i

/-- The bytes of line `i` of a frame that its item has: all 32, or of the last line as many as the marks beside the frame say (R190, log
entry 32). -/
def State.lineLen (s : State) (k x i : Nat) : Nat :=
  let n := (s.withMarks k (wireSeq x) (Frame.ofWire x)).tail
  if n = 0 ∨ (List.range 8).any (fun j => decide (i < j) && bitAt x (180 + j)) = true then 32 else min 32 n

/-- The 32 bytes `x` are the sequenced message of KIND `kind` that module end `k` expects next, with a correct CHECK (R254, R255). -/
def State.NextMsg (s : State) (k kind x : Nat) : Prop :=
  (s.modEnd k).outOfService = false ∧ (s.modEnd k).retraining = false ∧ msgCheck x = true ∧ wireSeq x = (s.modEnd k).wantM
    ∧ fld x 208 4 = kind

/-! ## Cards -/

/-- The cards in flight of a core have rising numbers, all below the number that the next card gets. -/
def CoreState.Numbered (c : CoreState) : Prop := c.flights.Pairwise (fun x y => x.seq < y.seq) ∧ ∀ f, f ∈ c.flights → f.seq < c.seq

/-- No valid signal of the card has the given WHEN (R197). -/
def quietCard (card when' : Nat) : Prop := ∀ i, i < 4 → bitAt (cardSignal card i) 63 = true → fld (cardSignal card i) 61 2 ≠ when'

/-- The card at the head of core `g`'s queue meets the conditions of R192 in noon cycle `t`, whatever its waits. -/
def State.Ready (s : State) (g card t : Nat) : Prop :=
  s.mayIssue g t = true ∧ (∃ rest, (s.core g).queue = (s.seqPos g, card) :: rest)
    ∧ (s.core g).gapOver card (s.engCycle (g / 16) t) = true ∧ (s.core g).accepts card (s.engCycle (g / 16) t) = true
    ∧ (needsDrain card = true → (s.core g).allDone (s.engCycle (g / 16) t) = true)

/-- Every valid wait of the card holds in noon cycle `t`, and none consumes (R194, R195). -/
def State.WaitsHold (s : State) (card t : Nat) : Prop :=
  ∀ i, i < 4 → waitValid (cardWait card i) = true → s.waitHolds (cardWait card i) t = true ∧ waitConsume (cardWait card i) = false

/-- The register words that a core's sequencer writes: CORE_SEQ_STATUS, CORE_SEQ_COUNT, the interlock records and the digest capture. -/
def issueRegs (g a : Nat) : Bool :=
  let b := Reg.coreStream (g / 16) (g % 16)
  (decide (b + 0x08 ≤ a) && decide (a < b + 0x18)) || (decide (b + 0x30 ≤ a) && decide (a < b + 0x60))
    || (decide (b + 0x100 ≤ a) && decide (a < b + 0x500))

/-- Core `g` has taken the card at the head of its queue in noon cycle `t` (R192): the card is numbered and in flight, POS advances (to 0
behind an END card with WRAP), CARDS counts, and no other core, memory byte or foreign register differs. -/
def State.Issued (s u : State) (g card t : Nat) : Prop :=
  (u.core g).seq = (s.core g).seq + 1 ∧ (u.core g).queue = (s.core g).queue.drop 1
    ∧ (u.core g).lastIssue = some (s.engCycle (g / 16) t)
    ∧ (∃ f, f ∈ (u.core g).flights ∧ f.seq = (s.core g).seq ∧ f.pos = s.seqPos g ∧ f.issue = s.engCycle (g / 16) t
      ∧ f.card = s.resolveTargets (s.ownerN g) card)
    ∧ u.seqPos g = (if cardEnd card && cardWrap card then 0 else (s.seqPos g + 1) % 2 ^ 24)
    ∧ u.r64 (Reg.coreSeqCount (g / 16) (g % 16)) = min (s.r64 (Reg.coreSeqCount (g / 16) (g % 16)) + 1) (2 ^ 64 - 1)
    ∧ (∀ h, h ≠ g → u.core h = s.core h) ∧ s.SameBytes u ∧ s.SameRegsBut u (issueRegs g)

/-- STATE of a core's sequencer after it has issued a card: ENDED behind an END card without WRAP, else RUNNING (Table 7-14). -/
def afterCard (card : Nat) : Nat := if cardEnd card && !cardWrap card then 3 else 1

/-! ## Passes -/

/-- The bank of engine `e` of core `g` after accumulation cycle `p.cyc` of the pass `p` of card `f`: the products of the cycle's k-steps
enter it (R83, R84, R95, R103). -/
def State.cycled (s : State) (g e : Nat) (f : Flight) (p : PassRun) : Bank :=
  let x := (s.core g).eng e
  let ab := (cycleSteps f.card p.cyc).map (fun k => ((s.operandAt g e f.card 0 p.iter p.s k).1, (s.operandAt g e f.card 1 p.iter p.s k).1))
  if cycleSteps f.card p.cyc = [] then x.bankOf x.passNo
  else (x.bankOf x.passNo).cycle (ovfPolicy (bodyF f.card 168 2) (mmInt f.card)) (cycleProducts ab).1 (cycleProducts ab).2

/-- Engine `e` of core `g` runs the pass `p` of card `f`, whose next accumulation cycle has come by noon cycle `t` (R108). -/
def State.Accumulating (s : State) (g e t : Nat) (p : PassRun) (f : Flight) : Prop :=
  s.dieRuns (g / 16) t = true ∧ ((s.core g).eng e).cur = some p ∧ (s.core g).flight p.seq = some f ∧ p.s + p.cyc ≤ s.engCycle (g / 16) t

/-- Nothing of core `g` but engine `e` and its card in flight `seq` differs, nor of any other core. -/
def State.OnlyEngine (s u : State) (g e seq : Nat) : Prop :=
  (∀ h, h ≠ g → u.core h = s.core h) ∧ (∀ x, x ≠ e → (u.core g).eng x = (s.core g).eng x)
    ∧ (∀ q, q ≠ seq → (u.core g).flight q = (s.core g).flight q) ∧ (u.core g).vec = (s.core g).vec ∧ (u.core g).queue = (s.core g).queue

/-! ## Flow units -/

/-- The 256 bytes `x` are the sequenced unit of KIND `kind` that port `p` expects next, with a correct CHECK and its reserved bits 0 (R285,
R286, R289). -/
def State.NextUnit (s : State) (p kind x : Nat) : Prop :=
  s.portIn p = true ∧ unitGood x (s.port p).wantSeq = true ∧ unitSound x = true ∧ unitF x 220 4 = kind ∧ kind < 7

/-- The unit `x` that arrives on port `p` is for this package, whose gateway takes units of its partition (R67), and every unit of its VC
in the pool has been passed on (R292, R315). -/
def State.Delivers (s : State) (p x : Nat) : Prop :=
  s.routeOf (some p) (FlowUnit.ofWire x) = .deliver ∧ s.leftJob (FlowUnit.ofWire x).dpart = false ∧ ∀ y, y ∈ (s.port p).pool → y.unit.vc = unitF x 218 2 → y.passed = true

/-- The request unit `u` is one that its target serves (R301): the partition is there, of its generation, and its transaction has not been
answered. -/
def State.Serves (s : State) (u : FlowUnit) : Prop := s.refusal u = none ∧ (u.src, u.tag) ∉ s.answered

/-- A unit that satisfies `f` waits at port `q` or is in its replay buffer. -/
def State.OnPort (s : State) (q : Nat) (f : FlowUnit → Prop) : Prop :=
  ∃ r, f r ∧ (r ∈ (s.port q).waiting ∨ ∃ k, (k, r) ∈ (s.port q).replay)

/-- The 256 bytes `w` are a LINK unit of port `p` in state `s` (R287, Table 11-7): a correct CHECK, KIND 7, ACK_SEQ and NAK_SEQ around the
unit expected, NAK, SPARE_OP, HOUR_LEN_LOG2 and the own grants. -/
def State.LinkUnit (s : State) (p w nak spareOp : Nat) : Prop :=
  unitGood w linkPrefix = true ∧ unitF w 220 4 = 7 ∧ linkF w 32 4 = ((s.port p).wantSeq + 2 ^ 32 - 1) % 2 ^ 32
    ∧ linkF w 36 4 = (s.port p).wantSeq ∧ fld w 320 1 = nak ∧ fld w 350 2 = spareOp ∧ linkF w 41 1 = s.f32 Reg.topHourCtl 0 5
    ∧ ∀ v, v < 4 → linkF w (48 + 4 * v) 4 = (s.port p).grantOf v

/-- The sequence numbers and grants of a port are 32-bit counts (R289, R293). -/
def Port.Counts (x : Port) : Prop := x.wantSeq < 2 ^ 32 ∧ ∀ v, x.grantOf v < 2 ^ 32

/-- Port `p` has sent a LINK unit from its state `x`: an ACK is no longer owed, and the unit went to the next live quad of the rotation
(R284, R287). No other port differs. -/
def State.SentLink (s t : State) (p : Nat) (x : Port) : Prop :=
  t.port p = { x with got := 0, turn := some (nextQuad (s.quadsLive p) x.turn), dealt := (t.port p).dealt } ∧ ∀ q, q ≠ p → t.port q = s.port q

/-! ## The host interface and the test port -/

/-- The registers of the host interface, with MSI-X. -/
def hostRegs (a : Nat) : Bool := (decide (Reg.hstCtl ≤ a) && decide (a < Reg.iodRoute 0)) || pairOf Reg.srvActive a

/-- The host interface has been reset (R349): no ring, no window, no active request, READY 0, MSI-X disabled and every vector masked; a
RUNNING partition without a recorded stop stops at the next Hour with 0x67. Memories, dies, cores, links and flags stay. -/
def State.HostReset (s t : State) : Prop :=
  (∀ q, (t.ring q).live = false) ∧ t.host.resetting = true ∧ t.host.running = false ∧ t.host.windows = [] ∧ t.serving.requests = []
    ∧ t.f32 Reg.hstStatus 0 2 = 0 ∧ t.host.msixEnable = false ∧ t.host.msixMask = false
    ∧ (∀ v, v < 256 → t.r32 (Reg.msixEntry v + 12) = 1) ∧ (∀ i, i < 8 → t.r32 (Reg.msixPba + 4 * i) = 0)
    ∧ (∀ n, n < 64 → (t.part n).stop = if s.pstate n = 3 ∧ (s.part n).stop = none then some (0x67, .release) else (s.part n).stop)
    ∧ t = { s with regs := t.regs, host := t.host, serving := t.serving, parts := t.parts, loader := t.loader, power := t.power, sec := t.sec, hour := t.hour }
    ∧ s.SameRegsBut t hostRegs ∧ t.r64 Reg.hstErrAddr = s.r64 Reg.hstErrAddr ∧ t.r32 Reg.hstErrInfo = s.r32 Reg.hstErrInfo
    ∧ t.r64 Reg.hstEvtCount = s.r64 Reg.hstEvtCount

/-- A test instruction with opcode `op` has been selected: the instruction register captured 1 and the pins are the device's (R506). -/
def State.Selected (s t : State) (op : Nat) (o : List Output) : Prop :=
  t.jtag.ir = op ∧ bitAt (t.r32 Reg.jtagStatus) 2 = false ∧ t.out = s.out ++ .tdo 8 1 :: o

/-! ## Measurements and sessions -/

/-- The responder answers and version, capabilities and algorithms have been negotiated (R471, Table 18-5). -/
def State.SpdmOpen (s : State) : Prop :=
  bitAt (s.r32 Reg.secStatus) 0 = true ∧ (s.inNoon = true ∨ s.inTwilight = true) ∧ s.sec.version = true ∧ s.sec.caps = true ∧ s.sec.algs = true

/-- As `SpdmOpen`, and the device holds its keys: UDS_KILL is not blown (R467, R481). -/
def State.SpdmKeys (s : State) : Prop := s.SpdmOpen ∧ s.sec.fuses.udsKill = false ∧ s.sec.keys = true

/-- One SPDM message has been sent, of version 1.3, with a code and two parameters; `f` says what the whole message is. -/
def State.SpdmSays (s t : State) (code p1 p2 : Nat) (f : Nat → Prop) : Prop :=
  ∃ n m, t.out = s.out ++ [.spdm n m] ∧ m % 2 ^ 32 = 0x13 + code * 2 ^ 8 + p1 * 2 ^ 16 + p2 * 2 ^ 24 ∧ f m

/-- A write of a completion of ring `rid`, at some place of its completion ring. -/
def State.Completes (s t : State) (rid cmdId status : Nat) : Prop :=
  ∃ k e, Output.hostWrite ((s.ring (s.cqOf rid)).base + 32 * k) 32 e ∈ t.out ∧ fld e 0 32 = cmdId % 2 ^ 32 ∧ fld e 32 8 = status % 2 ^ 8
    ∧ fld e 40 8 = rid % 2 ^ 8

/-! ## The Metering Unit -/

/-- The registers of the Metering Unit (R503). -/
def muRegs (a : Nat) : Bool := decide (Reg.muStatus ≤ a) && decide (a < Reg.muAuditCount 12)

/-- The counts of the meter fit their 64 bits. -/
def Meter.Counts (m : Meter) : Prop := m.auditSeq < 2 ^ 64 ∧ m.number + 1 < 2 ^ 64

/-- One entry of a KIND has been written to the audit log, with the chain over it and its count (R500, R501, Table 19-5). -/
def State.Audited (s t : State) (kind data : Nat) : Prop :=
  (∃ e, t.meter.audit.getLast? = some (s.meter.auditSeq, e) ∧ fld e 0 64 = s.meter.auditSeq ∧ fld e 64 64 = t.r64 Reg.muTick
    ∧ fld e 128 64 = t.meter.number ∧ fld e 192 8 = kind ∧ fld e 200 56 = data ∧ t.meter.chain = sha384 (s.meter.chain ++ leBytes 32 e))
    ∧ t.meter.auditSeq = s.meter.auditSeq + 1 ∧ t.r64 (Reg.muAuditCount kind) = (s.r64 (Reg.muAuditCount kind) + 1) % 2 ^ 64

/-- The open interval has closed for a reason of Table 19-3 at MU_TICK `tick`, with every die's tap latched, and the next one is open
(R496, R497). -/
def State.Closes (s t : State) (close tick : Nat) : Prop :=
  (∃ c, t.meter.closed = s.meter.closed ++ [c] ∧ c.close = close ∧ c.number = s.meter.number ∧ c.first = s.meter.first ∧ c.last = tick
    ∧ c.epoch = s.meter.epoch ∧ c.tokens = s.meter.tokens ∧ c.waiting = [] ∧ c.macs = sumMacs s.meter.macs (List.range 8) []
    ∧ bitAt c.flags 2 = s.meter.own ∧ bitAt c.flags 3 = s.meter.calFault)
    ∧ t.meter.number = s.meter.number + 1 ∧ t.meter.first = tick ∧ t.meter.epoch = s.r64 Reg.secTenant ∧ t.meter.due = false
    ∧ t.meter.macs = [] ∧ t.meter.tokens = [] ∧ t.meter.tokensAll = s.meter.tokensAll ∧ t.meter.records = s.meter.records
    ∧ t.meter.energy = s.meter.energy ∧ t.r64 Reg.muTick = tick ∧ bitAt (t.r32 Reg.muStatus) 5 = true

/-- Nothing but the meter and its registers differs. -/
def State.MeterOnly (s t : State) : Prop := t = { s with meter := t.meter, regs := t.regs } ∧ s.SameRegsBut t muRegs

/-- A meter descriptor has been answered with `data` in host memory, or with BAD_FIELD and the bytes needed (R502). -/
def State.MuTells (s t : State) (d : Desc) (data : List Byte) (r0 r1 : Nat) : Prop :=
  if data.length ≤ d.f 28 4 then
    (data ≠ [] → Output.hostWrite (d.f 8 8) data.length (leNat data) ∈ t.out) ∧ s.Told t 0 d.cmdId 0 r0 r1
  else s.Told t 0 d.cmdId 0x11 data.length 0

/-! ## Errors in the memories -/

/-- The registers that an error in a memory of die `d` writes: CD_MEM_STATUS, CD_RAS_COUNT, CD_RAS_LAST and those of its event. -/
def rasRegs (d a : Nat) : Bool := (decide (Reg.cdMemStatus d ≤ a) && decide (a < Reg.cdMemStatus d + 0x18)) || eventRegs a

/-- A corrected error in the word at device address `a` has been reported: CE_SEEN, CD_RAS_COUNT and CD_RAS_LAST (R173, R182). -/
def State.Corrected (s t : State) (d a : Nat) : Prop :=
  bitAt (t.r32 (Reg.cdMemStatus d)) 5 = true ∧ t.f64 (Reg.cdRasCount d) 32 32 = min (s.f64 (Reg.cdRasCount d) 32 32 + 1) (2 ^ 32 - 1)
    ∧ t.f64 (Reg.cdRasLast d) 62 2 = 1 ∧ t.f64 (Reg.cdRasLast d) 0 40 = a / 8 * 8

/-- Nothing but the records of die `d`, its error registers and the event queue differs, and no byte or mark of memory. -/
def State.ErrorOnly (s t : State) (d : Nat) : Prop :=
  t = { s with regs := t.regs, host := t.host, dies := t.dies, out := t.out, soft := t.soft } ∧ (∀ x, x ≠ d → t.die x = s.die x)
    ∧ s.SameRegsBut t (rasRegs d)

end Sys2Proof.Machine
end

