-- ==== Sys2Proof/Certificates/Slice0/Obligations.lean ====
section
/-!
DEFINITION. The statements for the provers, from the numbered rules of the spec, in the terms of Safety.lean.
-/

open Sys2Proof Sys2Proof.Machine

/-- With a command at the front of the queue, a step is exec of that command on the state with the queue's rest; with an empty queue
a step answers the same state (the model's choice, log entry 8). (00_scope.md, R10) -/
def Obligations.StepRunsTheFrontCommand : Prop :=
  (∀ (s : State) (c : Instr) (rest : List Instr), s.pending = c :: rest → step s = exec c { s with pending := rest })
    ∧ ∀ s : State, s.pending = [] → step s = .next s

/-- For every command and every state exec answers a next state, unless the command is SCAN_IOD, SCAN_CD or FUSE_PROD on a part
whose PROD_LOCK reads unblown; those are then refused by name as production tests. (R508, 00_scope.md) -/
def Obligations.EveryCommandEndsInANextState : Prop :=
  (∀ (c : Instr) (s : State), c.production = false ∨ s.sec.shadow.prodLock = true → ∃ t, exec c s = .next t)
    ∧ ∀ (c : Instr) (s : State), c.production = true → s.sec.shadow.prodLock = false → ∃ m, exec c s = .refused (.productionTest m)

/-- For every state whose sparse tables of memory bytes, register words, staged words, poison marks, own-error marks, flags and
counters stand in canonical form (keys rise strictly, no redundant entry), whatever command is at the front of the queue, the
next state has them in canonical form too. (06_memory_hierarchy.md, 08_flags_ordering_interlocks.md, 21_register_index.md) -/
def Obligations.EveryStepKeepsTheCanonicalForm : Prop :=
  ∀ s t : State, s.Canonical → step s = .next t → t.Canonical

/-- Whatever the state and the command in front, the next state's queue is the old queue without its first command, what the device
had sent is the beginning of what it has sent, and the count of free values drawn (the model's own field, log entry 4) does not
fall. (00_scope.md, R10, R331) -/
def Obligations.EveryStepTakesOneCommand : Prop :=
  ∀ s t : State, step s = .next t → t.pending = s.pending.tail ∧ s.out <+: t.out ∧ s.freeCount ≤ t.freeCount

/-- State.reset has every sparse table in canonical form, an empty queue, nothing sent, every memory byte reading 0 (R438 leaves 0)
and every register word at its reset value. (R435, R438, 21_register_index.md) -/
def Obligations.ResetStateIsCanonical : Prop :=
  State.reset.Canonical ∧ State.reset.pending = [] ∧ State.reset.out = [] ∧ (∀ a, State.reset.rdByte a = 0)
    ∧ ∀ a, State.reset.r32 a = (Reg.resetWord a).toNat

/-- With every field in range, a new RID and, for a submission ring, an existing completion ring, CREATE_RING makes the ring of its
body with head and tail 0 and PHASE 1. DELETE_RING of an existing ring with nothing untaken, nothing owed and named by no
submission ring removes it. RESET_RING of a ring that owes nothing returns head and tail to 0, PHASE to 1 and clears ERROR. Each
completes with status 0, and no other ring but 0 and 128, no memory byte and no register but the MSI-X pending bits changes.
(R331, R343, R344) -/
def Obligations.RingCommandsChangeTheirRing : Prop :=
  (∀ (s : State) (d : Desc), d.zero 13 16 = true → d.zero 24 64 = true → 4 ≤ d.f 9 1 → d.f 9 1 ≤ 16
      → (1 ≤ d.f 8 1 ∧ d.f 8 1 ≤ 65 ∧ d.f 11 1 = 0 ∧ d.f 12 1 = 0 ∧ 128 ≤ d.f 10 1 ∧ (s.ring (d.f 10 1)).live = true)
        ∨ ((d.f 8 1 = 66 ∨ 129 ≤ d.f 8 1) ∧ d.f 10 1 = 0)
      → (s.ring (d.f 8 1)).live = false → d.f 16 8 % 4096 = 0 → s.CanTell 0
      → ∃ t, exec (.createRing d) s = .next t
        ∧ t.ring (d.f 8 1) = { live := true, log2 := d.f 9 1, base := d.f 16 8, cq := d.f 10 1, vector := d.f 11 1, holdoff := d.f 12 1 }
        ∧ (∀ q, q ≠ d.f 8 1 → q ≠ 0 → q ≠ 128 → t.ring q = s.ring q)
        ∧ s.Told t 0 d.cmdId 0 0 0 ∧ s.SameBytes t ∧ s.SameRegsBut t toldRegs)
    ∧ (∀ (s : State) (d : Desc), d.zero 9 64 = true → d.f 8 1 ≠ 0 → d.f 8 1 ≠ 128 → (s.ring (d.f 8 1)).live = true
      → (s.ring (d.f 8 1)).head = (s.ring (d.f 8 1)).tail → (s.ring (d.f 8 1)).taken = []
      → (128 ≤ d.f 8 1 → s.owed (d.f 8 1) = 0 ∧ ∀ q, q < 66 → (s.ring q).live = true → s.cqOf q ≠ d.f 8 1) → s.CanTell 0
      → ∃ t, exec (.deleteRing d) s = .next t ∧ t.ring (d.f 8 1) = {} ∧ (∀ q, q ≠ d.f 8 1 → q ≠ 0 → q ≠ 128 → t.ring q = s.ring q)
        ∧ s.Told t 0 d.cmdId 0 0 0 ∧ s.SameBytes t ∧ s.SameRegsBut t toldRegs)
    ∧ ∀ (s : State) (d : Desc), d.zero 9 64 = true → d.f 8 1 ≠ 0 → d.f 8 1 ≠ 128 → (s.ring (d.f 8 1)).live = true
      → (128 ≤ d.f 8 1 → s.owed (d.f 8 1) = 0) → s.CanTell 0
      → ∃ t, exec (.resetRing d) s = .next t
        ∧ t.ring (d.f 8 1) = { s.ring (d.f 8 1) with head := 0, tail := 0, phase := true, error := false }
        ∧ (∀ q, q ≠ d.f 8 1 → q ≠ 0 → q ≠ 128 → t.ring q = s.ring q)
        ∧ s.Told t 0 d.cmdId 0 0 0 ∧ s.SameBytes t ∧ s.SameRegsBut t toldRegs

/-- A doorbell to offset 0 of an existing ring, valid by R336, sets the tail of a submission ring or the head of a completion ring
and changes nothing else. One that is not valid, or has a bit above 15 set, moves nothing, puts the ring in ERROR, sets
DOORBELL_ERR and, with no capture held, captures the BAR2 offset with KIND 7. DESCRIPTOR_TAKE under the conditions of R337
passes the head over the descriptor and makes it outstanding; a known opcode changes nothing else, an unknown one completes with
BAD_OPCODE (0x10). (R331, R335, R336, R337, R350) -/
def Obligations.DoorbellsMoveTheirRingAndTakingMovesItsHead : Prop :=
  (∀ (s : State) (rid : Fin 256) (v : BitVec 32), (s.ring rid).live = true → v.toNat < 2 ^ 16
      → (if rid.val ≤ 65 then v.toNat < 2 ^ (s.ring rid).log2
            ∧ ((s.ring rid).tail + 2 ^ (s.ring rid).log2 - (s.ring rid).head) % 2 ^ (s.ring rid).log2
              ≤ (v.toNat + 2 ^ (s.ring rid).log2 - (s.ring rid).head) % 2 ^ (s.ring rid).log2
          else v.toNat < 2 ^ (s.ring rid).log2
            ∧ (v.toNat + 2 ^ (s.ring rid).log2 - (s.ring rid).head) % 2 ^ (s.ring rid).log2
              ≤ ((s.ring rid).tail + 2 ^ (s.ring rid).log2 - (s.ring rid).head) % 2 ^ (s.ring rid).log2)
      → ∃ t, exec (.doorbell rid 0 v) s = .next t ∧ t = { s with host := t.host } ∧ (∀ q, q ≠ rid.val → t.ring q = s.ring q)
        ∧ t.ring rid = (if rid.val ≤ 65 then { s.ring rid with tail := v.toNat } else { s.ring rid with head := v.toNat }))
    ∧ (∀ (s : State) (rid : Fin 256) (v : BitVec 32), (s.ring rid).live = true
      → (2 ^ 16 ≤ v.toNat ∨ (if rid.val ≤ 65 then 2 ^ (s.ring rid).log2 ≤ v.toNat
            ∨ (v.toNat + 2 ^ (s.ring rid).log2 - (s.ring rid).head) % 2 ^ (s.ring rid).log2
              < ((s.ring rid).tail + 2 ^ (s.ring rid).log2 - (s.ring rid).head) % 2 ^ (s.ring rid).log2
          else ((s.ring rid).tail + 2 ^ (s.ring rid).log2 - (s.ring rid).head) % 2 ^ (s.ring rid).log2
              < (v.toNat + 2 ^ (s.ring rid).log2 - (s.ring rid).head) % 2 ^ (s.ring rid).log2))
      → bitAt (s.r32 Reg.hstErrInfo) 31 = false
      → ∃ t, exec (.doorbell rid 0 v) s = .next t ∧ t.ring rid = { s.ring rid with error := true } ∧ (∀ q, q ≠ rid.val → t.ring q = s.ring q)
        ∧ bitAt (t.r32 Reg.hstStatus) 2 = true ∧ t.r64 Reg.hstErrAddr = rid.val * 0x1000
        ∧ bitAt (t.r32 Reg.hstErrInfo) 31 = true ∧ t.f32 Reg.hstErrInfo 4 4 = 7 ∧ s.TellsOnly t ∧ s.SameRegsBut t captureRegs)
    ∧ (∀ (s : State) (rid : Fin 66) (d : Desc), s.host.running = true → (s.ring rid).live = true → (s.ring rid).head ≠ (s.ring rid).tail
      → (s.ring rid).error = false → s.CanTell rid → s.owed (s.cqOf rid) < (s.ring (s.cqOf rid)).freeSlots
      → (bitAt (d.f 1 1) 0 = false ∨ (s.ring rid).taken = []) → s.host.sets.length < 64 → s.loader.loads.length < 4
      → s.f32 Reg.pwrState 0 2 ≠ 1 → s.power.dusk = none →
        (opcodeKnown rid (d.f 0 1) = true → d.f 1 1 ≤ 1 → d.zero 2 4 = true
          → (∀ n, (1 ≤ rid.val ∧ rid.val ≤ 64 ∧ n = rid.val - 1) ∨ (rid.val = 65 ∧ n = d.f 8 1 ∧ n < 64) → bitAt (s.r32 (Reg.topPartJob n)) 4 = false)
          → ∃ t, exec (.descriptorTake rid d) s = .next t ∧ t = { s with host := t.host } ∧ (∀ q, q ≠ rid.val → t.ring q = s.ring q)
            ∧ t.ring rid = { s.ring rid with head := ((s.ring rid).head + 1) % 2 ^ (s.ring rid).log2, taken := (s.ring rid).taken ++ [d.cmdId] })
        ∧ (opcodeKnown rid (d.f 0 1) = false
          → ∃ t, exec (.descriptorTake rid d) s = .next t ∧ (t.ring rid).head = ((s.ring rid).head + 1) % 2 ^ (s.ring rid).log2
            ∧ s.Told t rid d.cmdId 0x10 0 0 ∧ s.TellsOnly t ∧ s.SameRegsBut t toldRegs))

/-- With the interface running and room in an error-free event ring, EVENT_WRITE writes 32 bytes at the ring's tail: after a loss an
EVENTS_LOST entry with the count and the next SEQ, else the oldest queued event with the fields of Table 13-6; the tail advances
modulo the size, and PHASE inverts at the end of a pass. When a hold-off interval ends, MSIX_HOLDOFF_EXPIRY sends the ring's
vector if entries were written since, and otherwise ends the hold-off. (R332, R333, R334, R340, 13_host_rings.md) -/
def Obligations.EventsAreWrittenInOrderAndAnnounced : Prop :=
  (∀ (s : State) (e : EventRec) (rest : List EventRec), s.host.running = true → (s.ring 66).live = true → (s.ring 66).error = false
      → 0 < (s.ring 66).freeSlots → (s.ring 66).tail < 2 ^ (s.ring 66).log2 → s.host.evLost = 0 → s.host.events = e :: rest
      → ∃ t x, exec .eventWrite s = .next t ∧ t.host.events = rest ∧ t.host.evSeq = s.host.evSeq
        ∧ Output.hostWrite ((s.ring 66).base + 32 * (s.ring 66).tail) 32 x ∈ t.out ∧ fld x 0 192 = e.data % 2 ^ 192
        ∧ fld x 192 16 = e.type % 2 ^ 16 ∧ fld x 208 8 = e.part % 2 ^ 8 ∧ fld x 216 8 = e.source % 2 ^ 8 ∧ fld x 224 24 = e.seq % 2 ^ 24
        ∧ bitAt x 255 = (s.ring 66).phase ∧ (t.ring 66).tail = ((s.ring 66).tail + 1) % 2 ^ (s.ring 66).log2
        ∧ (t.ring 66).phase = ((s.ring 66).phase ^^ decide ((s.ring 66).tail + 1 = 2 ^ (s.ring 66).log2))
        ∧ s.TellsOnly t ∧ s.SameRegsBut t toldRegs)
    ∧ (∀ s : State, s.host.running = true → (s.ring 66).live = true → (s.ring 66).error = false
      → 0 < (s.ring 66).freeSlots → (s.ring 66).tail < 2 ^ (s.ring 66).log2 → 0 < s.host.evLost
      → ∃ t x, exec .eventWrite s = .next t ∧ t.host.events = s.host.events ∧ t.host.evLost = 0 ∧ t.host.evSeq = (s.host.evSeq + 1) % 2 ^ 24
        ∧ Output.hostWrite ((s.ring 66).base + 32 * (s.ring 66).tail) 32 x ∈ t.out ∧ fld x 0 192 = s.host.evLost % 2 ^ 192
        ∧ fld x 192 16 = 0x000B ∧ fld x 224 24 = s.host.evSeq % 2 ^ 24 ∧ s.TellsOnly t)
    ∧ (∀ (s : State) (rid : Fin 256), (s.ring rid).heldOff = true → (s.ring rid).unannounced = true → s.host.msixEnable = true
      → s.host.msixMask = false → bitAt (s.r32 (Reg.msixEntry ((s.ring rid).vector % 256) + 12)) 0 = false
      → ∃ t, exec (.msixHoldoffExpiry rid) s = .next t ∧ t.out = s.out ++ [.msix (s.ring rid).vector]
        ∧ t.ring rid = { s.ring rid with unannounced := false } ∧ (∀ q, q ≠ rid.val → t.ring q = s.ring q)
        ∧ t = { s with host := t.host, out := t.out })
    ∧ ∀ (s : State) (rid : Fin 256), (s.ring rid).heldOff = true → (s.ring rid).unannounced = false
      → ∃ t, exec (.msixHoldoffExpiry rid) s = .next t ∧ t.ring rid = { s.ring rid with heldOff := false }
        ∧ (∀ q, q ≠ rid.val → t.ring q = s.ring q) ∧ t = { s with host := t.host }

/-- A service-path or staging read of a memory inside its populated size answers its bytes; where no word of it holds a single-bit
error and no line of the die's DMA movers is under way, it changes nothing else. A write stores its bytes at the address, clears
the poison of each 64-bit word it covers whole, and leaves every other byte, mark, register and unit as it was. A broadcast to
region 0 stores them on every die that is not absent and nowhere else. A read at DIE 9-13 answers zeros and, with no capture held,
is captured with KIND 0. (A byte is read as the cycle of the access finds it, log entry 7. That a read of an absent die is excluded
is the model's reading of R525.) (R15, R17, R160, R174, R362, R465, 06_memory_hierarchy.md) -/
def Obligations.MemoryIsReadAndWrittenByAddress : Prop :=
  (∀ (s : State) (r d g off len n tick : Nat) (u : List (BitVec 37)), d < 8 → g < 3 → off < regionSize d g → off + len ≤ regionSize d g
      → (s.die d).cond ≠ .absent → bitAt s.sec.shadow.partRules 1 = false → (s.mesh d).idle = true
      → s.Still (s.engCycle d n) (d * 2 ^ 36 + g * 2 ^ 32 + off) len →
      (∃ t, exec (.serviceAccess (.device r (d * 2 ^ 36 + g * 2 ^ 32 + off)) len none n tick u) s = .next t
        ∧ t.out = s.out ++ [.readData len (s.rdNat (d * 2 ^ 36 + g * 2 ^ 32 + off) len)] ∧ s.SameBytes t)
      ∧ (s.Sound (d * 2 ^ 36 + g * 2 ^ 32 + off) len
        → exec (.serviceAccess (.device r (d * 2 ^ 36 + g * 2 ^ 32 + off)) len none n tick []) s
          = .next { s with out := s.out ++ [.readData len (s.rdNat (d * 2 ^ 36 + g * 2 ^ 32 + off) len)] }))
    ∧ (∀ (s : State) (r d g off n tick len : Nat) (b : List Byte) (u : List (BitVec 37)), d < 8 → g < 3 → off < regionSize d g
      → off + b.length ≤ regionSize d g → (s.die d).cond ≠ .absent → s.Still (s.landStamp d n) (d * 2 ^ 36 + g * 2 ^ 32 + off) b.length
      → ∃ t, exec (.serviceAccess (.device r (d * 2 ^ 36 + g * 2 ^ 32 + off)) len (some b) n tick u) s = .next t
        ∧ t.rdBytes (d * 2 ^ 36 + g * 2 ^ 32 + off) b.length = b ∧ s.SameBytesBut t (d * 2 ^ 36 + g * 2 ^ 32 + off) b.length
        ∧ (∀ x, t.poisoned (8 * x) = (s.poisoned (8 * x) && !(decide (d * 2 ^ 36 + g * 2 ^ 32 + off ≤ 8 * x)
          && decide (8 * x + 8 ≤ d * 2 ^ 36 + g * 2 ^ 32 + off + b.length))))
        ∧ t = { s with mem := t.mem, poison := t.poison, selfErr := t.selfErr, soft := t.soft, past := t.past })
    ∧ (∀ (s : State) (off : BitVec 29) (len : Nat), off.toNat + len ≤ 0x1C000000 → bitAt s.sec.shadow.partRules 1 = false
      → s.Sound (8 * 2 ^ 36 + off.toNat) len
      → exec (.stagingAccess off len none) s = .next { s with out := s.out ++ [.readData len (s.rdNat (8 * 2 ^ 36 + off.toNat) len)] })
    ∧ (∀ (s : State) (off : BitVec 29) (len : Nat) (b : List Byte), off.toNat + b.length ≤ 0x1C000000
      → ∃ t, exec (.stagingAccess off len (some b)) s = .next t ∧ t.rdBytes (8 * 2 ^ 36 + off.toNat) b.length = b
        ∧ s.SameBytesBut t (8 * 2 ^ 36 + off.toNat) b.length
        ∧ t = { s with mem := t.mem, poison := t.poison, selfErr := t.selfErr, soft := t.soft })
    ∧ (∀ (s : State) (r : Fin 32) (off : BitVec 32) (b : List Byte) (n : Nat), off.toNat + b.length ≤ 2 ^ 32
      → (∀ d, d < 8 → s.Still (s.landStamp d n) (d * 2 ^ 36 + off.toNat) b.length)
      → ∃ t, exec (.broadcastWrite r 0 off b n) s = .next t
        ∧ (∀ d, d < 8 → (s.die d).cond ≠ .absent → t.rdBytes (d * 2 ^ 36 + off.toNat) b.length = b)
        ∧ (∀ x, (∀ d, d < 8 → (s.die d).cond ≠ .absent → x < d * 2 ^ 36 + off.toNat ∨ d * 2 ^ 36 + off.toNat + b.length ≤ x) → t.rdByte x = s.rdByte x)
        ∧ t = { s with mem := t.mem, poison := t.poison, selfErr := t.selfErr, soft := t.soft, past := t.past })
    ∧ ∀ (s : State) (r a len n tick : Nat) (u : List (BitVec 37)), 9 ≤ addrDie a → addrDie a ≤ 13 → bitAt (s.r32 Reg.hstErrInfo) 31 = false
      → ∃ t, exec (.serviceAccess (.device r a) len none n tick u) s = .next t ∧ t.out = s.out ++ [.readData len 0]
        ∧ t.r64 Reg.hstErrAddr = a ∧ bitAt (t.r32 Reg.hstErrInfo) 31 = true ∧ t.f32 Reg.hstErrInfo 4 4 = 0
        ∧ t.f32 Reg.hstErrInfo 8 5 = r % 32 ∧ (s.upset u).TellsOnly t ∧ s.SameRegsBut t captureRegs

/-- PART_MEMBER_WRITE, PBB_WRITE, FLAGWIN_WRITE, CORE_STREAM_WRITE and SWAP, written while no load or run locks the register and on
a die that is present, stage exactly the writable bits of the written word; no register in effect and nothing else changes. A
TOP_HOUR_CTL write of a new HOUR_LEN_LOG2 in 12-24, with no partition LOADED or RUNNING, stages it while COUPLED and
ARRIVE_LIMIT act at once. (That a load in progress locks too is the model's reading of R371.) (R19, R46, R55, R169, R184, R217,
R314) -/
def Obligations.StagedRegisterWritesWaitForTheHour : Prop :=
  (∀ (s : State) (n : Fin 64) (w : Fin 4) (v : BitVec 32), s.locked n = false
      → ∃ t, exec (.partMemberWrite n w v) s = .next t ∧ t = { s with staged := t.staged }
        ∧ ∀ b, t.stagedAt b = if b = Reg.topPartMember n + 4 * w.val then some v else s.stagedAt b)
    ∧ (∀ (s : State) (d : Fin 8) (n : Fin 64) (k : Fin 3) (v : BitVec 64), (s.die d).cond ≠ .absent
      → (k ≠ 2 → s.locked n = false) → (k = 2 → s.dieBusy d = false)
      → ∃ t, exec (.pbbWrite d n k 0 false v) s = .next t ∧ t = { s with staged := t.staged }
        ∧ ∀ b, t.stagedAt b = if b = (if k = 0 then Reg.cdPbbShm d n else if k = 1 then Reg.cdPbbCore d n else Reg.cdCommonShm d)
          then some (v.setWidth 32 &&& (if k = 1 then 0x03FF03FF else 0x1FFF1FFF)) else s.stagedAt b)
    ∧ (∀ (s : State) (d : Fin 8) (n : Fin 64) (w : Fin 2) (v : BitVec 64), (s.die d).cond ≠ .absent → s.locked n = false
      → ∃ t, exec (.flagwinWrite d n w false v) s = .next t ∧ t = { s with staged := t.staged }
        ∧ ∀ b, t.stagedAt b = if b = Reg.cdFlagwin d n + 4 * w.val then some (v.setWidth 32 &&& 0x0001FFFF) else s.stagedAt b)
    ∧ (∀ (s : State) (d : Fin 8) (c : Fin 16) (w : Fin 2) (v : BitVec 64), (s.die d).cond ≠ .absent
      → (∀ n, s.owner (16 * d.val + c.val) = some n → s.loadedOrRunning n = false)
      → ∃ t, exec (.coreStreamWrite d c w false v) s = .next t ∧ t = { s with staged := t.staged }
        ∧ ∀ b, t.stagedAt b = if b = Reg.coreStream d c + 4 * w.val then some (v.setWidth 32 &&& (if w = 0 then 0x00FFFFFF else 0x01FFFFFF))
          else s.stagedAt b)
    ∧ (∀ (s : State) (v : BitVec 32), ∃ t, exec (.swapTable v) s = .next t ∧ t = { s with staged := t.staged }
        ∧ ∀ b, t.stagedAt b = if b = Reg.rteCtl then some (v &&& 1) else s.stagedAt b)
    ∧ ∀ (s : State) (v : BitVec 32), 12 ≤ v.toNat % 32 → v.toNat % 32 ≤ 24 → (∀ n, n < 64 → s.loadedOrRunning n = false)
      → v.toNat % 32 ≠ fld (s.nextWord Reg.topHourCtl) 0 5
      → ∃ t, exec (.hourCtlWrite v) s = .next t ∧ t = { s with staged := t.staged, regs := t.regs }
        ∧ t.stagedAt Reg.topHourCtl = some (v &&& 0x1F) ∧ (∀ b, b ≠ Reg.topHourCtl → t.stagedAt b = s.stagedAt b)
        ∧ t.f32 Reg.topHourCtl 0 5 = s.f32 Reg.topHourCtl 0 5 ∧ t.f32 Reg.topHourCtl 8 9 = fld v.toNat 8 9
        ∧ s.SameRegsBut t (fun b => b == Reg.topHourCtl)

/-- MCAST_ENTRY_WRITE of an entry whose OWNER is not LOADED or RUNNING and PEER_ENTRY_WRITE of an unlocked partition put the
writable bits in effect. A BAR0 word write in the power, Dawn, security or meter blocks follows R19 and R20: RW bits take the value,
W1C bits written 1 clear but for those that the hardware sets in the same cycle, others stay. ILK_FIRST_REARM clears VALID alone.
ARM = 1 clears all 64 VALID bits and COUNT and arms. LOW_WORD_READ of TOP_HOUR_COUNT answers its low word and latches the high one;
in an open swap window the count is still the last Hour's. Nothing else changes. (R19, R20, R44, R236, R247, R281, R318, R524,
R328) -/
def Obligations.RegisterWritesAndReadsThatActAtOnce : Prop :=
  (∀ (s : State) (d : Fin 8) (e : Fin 256) (w : Fin 8) (v : BitVec 64), (s.die d).cond ≠ .absent → s.loadedOrRunning (s.mcastOwner d e) = false
      → ∃ t, exec (.mcastEntryWrite d e w false v) s = .next t ∧ t = { s with regs := t.regs }
        ∧ t.r32 (Reg.fabMcast d e + 4 * w.val) = (v.setWidth 32 &&& (if w < 5 then 0xFFFFFFFF else if w = 5 then 0x000FFFFF else if w = 6 then 0 else 0xFFFFFFF8)
            ||| BitVec.ofNat 32 (s.r32 (Reg.fabMcast d e + 4 * w.val)) &&& ~~~(if w < 5 then 0xFFFFFFFF else if w = 5 then 0x000FFFFF else if w = 6 then 0 else 0xFFFFFFF8)).toNat
        ∧ s.SameRegsBut t (fun b => b == Reg.fabMcast d e + 4 * w.val))
    ∧ (∀ (s : State) (n : Fin 64) (e : Fin 1024) (v : BitVec 32), s.loadedOrRunning n = false
      → ∃ t, exec (.peerEntryWrite n e v) s = .next t ∧ t = { s with regs := t.regs }
        ∧ t.r32 (Reg.rtePeer n e) = (v &&& 0xBF000FFF ||| BitVec.ofNat 32 (s.r32 (Reg.rtePeer n e)) &&& ~~~0xBF000FFF).toNat
        ∧ s.SameRegsBut t (fun b => b == Reg.rtePeer n e))
    ∧ (∀ (s : State) (off : Nat) (v m : BitVec 64) (r : RegRow) (x : Nat), 0x800000 ≤ off → off < 0xD00000 → off % 4 = 0
      → Reg.find (Reg.iodBase + off) = some (r, x) → wordMask r.rwh x = 0
      → ∃ t, exec (.registerWrite (.bar0 off) false v m) s = .next t ∧ t = { s with regs := t.regs }
        ∧ t.r32 (Reg.iodBase + off) = ((BitVec.ofNat 32 (s.r32 (Reg.iodBase + off)) &&& ~~~wordMask r.rw x ||| v.setWidth 32 &&& wordMask r.rw x)
            &&& ~~~(v.setWidth 32 &&& wordMask r.w1c x) ||| (m.setWidth 32 &&& wordMask r.w1c x)).toNat
        ∧ s.SameRegsBut t (fun b => b == Reg.iodBase + off))
    ∧ (∀ (s : State) (d : Fin 8) (c : Fin 16), (s.die d).cond ≠ .absent
      → ∃ t, exec (.ilkFirstRearm d c) s = .next t ∧ t = { s with regs := t.regs }
        ∧ t.r32 (Reg.coreIlkFirst d c + 4) = s.r32 (Reg.coreIlkFirst d c + 4) % 2 ^ 31
        ∧ s.SameRegsBut t (fun b => b == Reg.coreIlkFirst d c + 4))
    ∧ (∀ (s : State) (d : Fin 8) (c : Fin 16) (v : BitVec 64), (s.die d).cond ≠ .absent → bitAt v.toNat 31 = true
      → ∃ t, exec (.armCapture d c 1 false v) s = .next t ∧ t = { s with regs := t.regs }
        ∧ t.r32 (Reg.coreDigestCapCtl d c + 4) = 2 ^ 31 + v.toNat % 2 ^ 24
        ∧ (∀ i, i < 64 → bitAt (t.r32 (Reg.coreDigestCap d c i + 8)) 0 = false)
        ∧ s.SameRegsBut t (fun b => b == Reg.coreDigestCapCtl d c + 4
          || (List.range 64).any (fun i => b == Reg.coreDigestCap d c i + 8)))
    ∧ ∀ (s : State) (v : BitVec 64) (n : Nat), ∃ t k, exec (.lowWordRead 0 v n) s = .next t
        ∧ k = (if n < s.hour.winEnd then s.hourCount - 1 else s.hourCount) ∧ t.out = s.out ++ [.readData 4 (k % 2 ^ 32)]
        ∧ t.host = { s.host with latchHour := k / 2 ^ 32 } ∧ t = { s with host := t.host, out := t.out }

/-- In one cycle of a present die's flag file, FLAG_WRITE of any bytes of one cluster sets or clears each flag, a set winning over a
clear; COUNTER_VALUE_WRITE of whole words sets each counter, the lowest requester of the cycle standing, and COUNTER_ADD adds on
top, modulo 2^32. Nothing differs but the flag file; a set of a flag already set raises the cluster's COALESCED count. In a new
cycle a set and a clear of a flag leave it set in either order, and a value write and an add leave the counter at value plus addend
in either order. (R216, R220, R221, R222, R234, R237) -/
def Obligations.FlagFileCycleGivesOneResultInAnyOrder : Prop :=
  (∀ (s : State) (r : Fin 32) (d : Fin 8) (c : Fin 4) (n : Fin 256) (b : List Byte) (now : Nat), (s.die d).cond ≠ .absent → b ≠ [] →
      (n.val + b.length ≤ 256
        → ∃ t, exec (.flagWrite r d c n b now) s = .next t ∧ s.FlagFileOnly t d ∧ t.ctrs = s.ctrs
          ∧ (∀ i x, b[i]? = some x → t.flag (flagKey d c (n + i))
            = (let y := (s.flagCycle d now).flagCell (flagKey d c (n + i))
               if x.getLsbD 0 then { y with sets := y.sets + 1 } else { y with clears := y.clears + 1 } : FlagCell).result)
          ∧ ∀ k, (∀ i, i < b.length → k ≠ flagKey d c (n + i)) → t.flag k = s.flag k)
      ∧ (b.length % 4 = 0 → 4 * n.val + b.length ≤ 1024 →
        (∃ t, exec (.counterValueWrite r d c n b now) s = .next t ∧ s.FlagFileOnly t d ∧ t.flags = s.flags ∧ t.regs = s.regs
          ∧ (∀ i v, (wordsOf b)[i]? = some v → t.ctr (flagKey d c (n + i))
            = (let y := (s.flagCycle d now).ctrCell (flagKey d c (n + i))
               if (match y.write with | some (q, _) => decide (r.val < q) | none => true) then ({ y with write := some (r.val, v) } : CtrCell).result
               else s.ctr (flagKey d c (n + i))))
          ∧ ∀ k, (∀ i, i < b.length / 4 → k ≠ flagKey d c (n + i)) → t.ctr k = s.ctr k)
        ∧ ∃ t, exec (.counterAdd r d c n b now) s = .next t ∧ s.FlagFileOnly t d ∧ t.flags = s.flags ∧ t.regs = s.regs
          ∧ (∀ i v, (wordsOf b)[i]? = some v → t.ctr (flagKey d c (n + i))
            = (let y := (s.flagCycle d now).ctrCell (flagKey d c (n + i)); ({ y with adds := y.adds + v } : CtrCell).result))
          ∧ ∀ k, (∀ i, i < b.length / 4 → k ≠ flagKey d c (n + i)) → t.ctr k = s.ctr k))
    ∧ (∀ (s : State) (r : Fin 32) (d : Fin 8) (c : Fin 4) (n : Fin 256) (b : Byte) (now : Nat), (s.die d).cond ≠ .absent → (s.die d).flagT ≠ now
      → ∃ t, exec (.flagWrite r d c n [b] now) s = .next t ∧ t.flag (flagKey d c n) = b.getLsbD 0
        ∧ (b.getLsbD 0 && s.flag (flagKey d c n) = false → s.SameRegs t)
        ∧ (b.getLsbD 0 && s.flag (flagKey d c n) = true → bitAt (t.r32 (Reg.cdFlagStatus d)) 0 = true
          ∧ t.f64 (Reg.cdFlagCount d c) 32 32 = min (s.f64 (Reg.cdFlagCount d c) 32 32 + 1) (2 ^ 32 - 1)
          ∧ s.SameRegsBut t (fun a => pairOf (Reg.cdFlagCount d c) a || a == Reg.cdFlagStatus d)))
    ∧ ∀ (s u t u' t' : State) (r : Fin 32) (d : Fin 8) (c : Fin 4) (n : Fin 256) (now : Nat), (s.die d).cond ≠ .absent → (s.die d).flagT ≠ now →
      (exec (.flagWrite r d c n [1] now) s = .next u → exec (.flagWrite r d c n [0] now) u = .next t
        → exec (.flagWrite r d c n [0] now) s = .next u' → exec (.flagWrite r d c n [1] now) u' = .next t'
        → t.flag (flagKey d c n) = true ∧ t'.flag (flagKey d c n) = true)
      ∧ ∀ b0 b1 b2 b3 a0 a1 a2 a3 : Byte,
        exec (.counterValueWrite r d c n [b0, b1, b2, b3] now) s = .next u → exec (.counterAdd r d c n [a0, a1, a2, a3] now) u = .next t
        → exec (.counterAdd r d c n [a0, a1, a2, a3] now) s = .next u' → exec (.counterValueWrite r d c n [b0, b1, b2, b3] now) u' = .next t'
        → t.ctr (flagKey d c n) = (leNat [b0, b1, b2, b3] + leNat [a0, a1, a2, a3]) % 2 ^ 32
          ∧ t'.ctr (flagKey d c n) = (leNat [b0, b1, b2, b3] + leNat [a0, a1, a2, a3]) % 2 ^ 32

/-- HOUR_ARRIVAL changes nothing before the die's schedule counter reaches the next Hour; then its units have done what they do before
that cycle, the die stops there, and no other die, byte, flag, counter, core or TOP_ register is touched. After a window has opened
without it, the die counts LATE_ARRIVAL and TOP_HOUR_LATE, takes the window's changes for it and goes on. In an uncoupled package
SWAP_WINDOW_OPEN with every die in service waiting, and ARRIVE_LIMIT_EXPIRY with one, put the new Hour into TOP_HOUR_COUNT and start
each waiting die after the 32 or 40 cycles of the window. (R44, R48, R49, R52, 02_the_hour_and_partitions.md) -/
def Obligations.DiesArriveAndTheWindowOpens : Prop :=
  (∀ (s y : State) (d : Fin 8) (now : Nat), s.inNoon = true → s.dieIn d = true → (s.die d).run = true
      → y = s.meshTo d (s.engCycle d now - (s.schedCount d now - ((s.die d).lastHour + 1) * s.hourLen)) →
      (s.schedCount d now < ((s.die d).lastHour + 1) * s.hourLen → exec (.hourArrival d now) s = .next s)
      ∧ (((s.die d).lastHour + 1) * s.hourLen ≤ s.schedCount d now → s.hour.opened ≤ (s.die d).lastHour
        → ∃ t, exec (.hourArrival d now) s = .next t ∧ (t.die d).run = false ∧ (t.die d).atHour = some ((s.die d).lastHour + 1)
          ∧ (t.die d).s0 = ((s.die d).lastHour + 1) * s.hourLen ∧ (∀ e, e ≠ d.val → t.die e = y.die e) ∧ y.SameBytes t
          ∧ t.flags = y.flags ∧ t.ctrs = y.ctrs ∧ t.cores = y.cores ∧ t.parts = y.parts ∧ t.staged = y.staged
          ∧ ∀ a, Reg.iodBase ≤ a → a < Reg.topPartMember 64 → t.r32 a = y.r32 a)
      ∧ (((s.die d).lastHour + 1) * s.hourLen ≤ s.schedCount d now → (s.die d).lastHour < s.hour.opened
        → (∀ z, z ∈ (s.die d).held → ∀ w, w ∈ z.now → addrDie w.2.1 = d.val)
        → ∃ t, exec (.hourArrival d now) s = .next t ∧ (t.die d).run = true ∧ (t.die d).lastHour = (s.die d).lastHour + 1
          ∧ (t.die d).atHour = none
          ∧ bitAt (t.r32 Reg.topHourStatus) 2 = true ∧ t.r32 Reg.topHourLate = min (y.r32 Reg.topHourLate + 1) (2 ^ 32 - 1)
          ∧ ((s.die d).held = [] → (t.die d).t0 = now + y.f32 Reg.topHourStatus 16 8 ∧ y.SameBytes t ∧ t.flags = y.flags ∧ t.ctrs = y.ctrs
            ∧ t.parts = y.parts)))
    ∧ (∀ (s : State) (x : HourIn) (now : Nat), s.inNoon = true → s.diesIn ≠ [] → s.diesIn.all s.waitsAt = true → s.hour.joining = false
      → s.hourPorts = [] → s.hour.opened + 1 < 2 ^ 64
      → ∃ t, exec (.swapWindowOpen x now) s = .next t ∧ t.hourCount = s.hour.opened + 1 ∧ t.hour.opened = s.hour.opened + 1
        ∧ t.f32 Reg.topHourStatus 16 8 = (if s.meter.due && s.meter.powered then 40 else 32)
        ∧ t.hour.winEnd = now + (if s.meter.due && s.meter.powered then 40 else 32)
        ∧ ∀ d, d ∈ s.diesIn → (t.die d).run = true ∧ (t.die d).lastHour = s.hour.opened + 1
          ∧ (t.die d).t0 = now + (if s.meter.due && s.meter.powered then 40 else 32))
    ∧ ∀ (s : State) (x : HourIn) (now : Nat), s.inNoon = true → s.diesIn.any s.waitsAt = true → s.hour.joining = false
      → s.hourPorts = [] → s.hour.opened + 1 < 2 ^ 64
      → ∃ t, exec (.arriveLimitExpiry x now) s = .next t ∧ t.hourCount = s.hour.opened + 1 ∧ t.hour.opened = s.hour.opened + 1
        ∧ ∀ d, d ∈ s.diesIn → s.waitsAt d = true → (t.die d).run = true ∧ (t.die d).lastHour = s.hour.opened + 1

/-- A CHANGE_SET that is not planned, with 1 to 256 entries of which each names a register that qualifies, and a target of 0 or
beyond the last window, waits for its Hour, a target of 0 for the next one; nothing else changes but PLANNED_WAIT bits. With an entry that does not qualify it
completes with 0x14, with a target already passed with 0x60, and nothing waits. PLANNED_TIMEOUT completes with 0x61 the oldest
planned set whose window did not come within 4,096 Hours of its target, or of the Hour it was taken before where it names none. (R54, R61, R345, R531) -/
def Obligations.ChangeSetsWaitForTheirHour : Prop :=
  (∀ (s : State) (d : Desc) (b : List Byte) (p : HostRead), 1 ≤ d.f 16 2 → d.f 16 2 ≤ 256 → d.zero 18 24 = true → d.zero 32 64 = true
      → bitAt (d.f 1 1) 1 = false → d.f 8 8 % 16 = 0 → d.f 8 8 + 16 * d.f 16 2 ≤ 2 ^ 64 →
      ((regEntries b (d.f 16 2)).all entryOk = true → d.f 24 8 = 0 ∨ s.hour.opened < d.f 24 8
        → ∃ t, exec (.changeSet d (.bytes b) p) s = .next t
          ∧ t.host.sets = s.host.sets ++ [⟨d.cmdId, false, d.f 24 8, regEntries b (d.f 16 2), s.hour.opened⟩]
          ∧ t = { s with host := { s.host with sets := t.host.sets }, regs := t.regs }
          ∧ s.SameRegsBut t (fun a => (List.range 64).any (fun n => a == Reg.topPartStatus n)))
      ∧ ((regEntries b (d.f 16 2)).all entryOk = true → d.f 24 8 ≠ 0 → d.f 24 8 ≤ s.hour.opened → s.CanTell 0
        → ∃ t, exec (.changeSet d (.bytes b) p) s = .next t ∧ s.Told t 0 d.cmdId 0x60 0 0 ∧ t.host.sets = s.host.sets
          ∧ s.TellsOnly t ∧ s.SameRegsBut t toldRegs)
      ∧ ((regEntries b (d.f 16 2)).all entryOk = false → s.CanTell 0
        → ∃ t, exec (.changeSet d (.bytes b) p) s = .next t ∧ s.Told t 0 d.cmdId 0x14 0 0 ∧ t.host.sets = s.host.sets
          ∧ s.TellsOnly t ∧ s.SameRegsBut t toldRegs))
    ∧ ∀ (s : State) (c : ChangeSet), s.host.sets.find? (fun c => c.planned && decide (max c.target (c.takenAt + 1) + 4096 ≤ s.hourCount)) = some c
      → c.cmdId < 2 ^ 32 → s.CanTell 0
      → ∃ t, exec .plannedTimeout s = .next t ∧ s.Told t 0 c.cmdId 0x61 0 0 ∧ t.host.sets = s.host.sets.erase c
        ∧ s.TellsOnly t ∧ s.SameRegsBut t (fun a => toldRegs a || (List.range 64).any (fun n => a == Reg.topPartStatus n))

/-- In Noon with no partition RUNNING and no load, Dusk or wake, TWILIGHT and MIDNIGHT begin the Dusk of the package and set
ENTERING; MIDNIGHT also from Twilight; otherwise they complete with 0x24. In Twilight, with the reference present, WAKE, an
enabled WAKE_N and an enabled timer begin the wake as sources 1, 2 and 3. A WAKE that has waited 1 ms for the reference
completes with 0x24. Nothing else changes. (R409, R410, R412, R415, R446, 16_clocks_power_sleep.md) -/
def Obligations.SleepAndWakeCommandsBeginTheirTransitions : Prop :=
  (∀ (s : State) (d : Desc), d.zero 8 64 = true → s.anyLoad = false → s.power.dusk = none → s.power.waking = none → s.power.wakeCmd = none →
      (s.anyRunning = false → s.inNoon = true
        → ∃ t, exec (.twilight d) s = .next t ∧ t.power = { s.power with dusk := some ⟨.twilight, d.cmdId, false⟩ }
          ∧ bitAt (t.r32 Reg.pwrState) 2 = true ∧ t = { s with power := t.power, regs := t.regs } ∧ s.SameRegsBut t (fun a => a == Reg.pwrState))
      ∧ (s.anyRunning = false → s.inNoon = true ∨ s.inTwilight = true
        → ∃ t, exec (.midnight d) s = .next t ∧ t.power = { s.power with dusk := some ⟨.midnight, d.cmdId, false⟩ }
          ∧ bitAt (t.r32 Reg.pwrState) 2 = true ∧ t = { s with power := t.power, regs := t.regs } ∧ s.SameRegsBut t (fun a => a == Reg.pwrState))
      ∧ (s.anyRunning = true → s.CanTell 0
        → (∃ t, exec (.twilight d) s = .next t ∧ s.Told t 0 d.cmdId 0x24 0 0 ∧ s.TellsOnly t ∧ s.SameRegsBut t toldRegs)
          ∧ ∃ t, exec (.midnight d) s = .next t ∧ s.Told t 0 d.cmdId 0x24 0 0 ∧ s.TellsOnly t ∧ s.SameRegsBut t toldRegs))
    ∧ (∀ (s : State) (d : Desc) (x : DawnIn), s.inTwilight = true → s.power.dusk = none → s.power.waking = none → s.power.thermTrip = false
      → bitAt (s.r32 Reg.clkRef) 0 = true →
      (d.zero 8 64 = true → s.power.wakeCmd = none
        → ∃ t, exec (.wakeCmd d x) s = .next t ∧ t.power = { s.power with waking := some 1, wakeCmd := some d.cmdId, wakes := s.power.wakes.erase 1 }
          ∧ bitAt (t.r32 Reg.pwrState) 2 = true ∧ t = { s with power := t.power, regs := t.regs } ∧ s.SameRegsBut t (fun a => a == Reg.pwrState))
      ∧ (bitAt (s.r32 Reg.pwrWake) 0 = true
        → ∃ t, exec (.wakeN x) s = .next t ∧ t.power = { s.power with waking := some 2, wakes := s.power.wakes.erase 2 }
          ∧ bitAt (t.r32 Reg.pwrState) 2 = true ∧ t = { s with power := t.power, regs := t.regs } ∧ s.SameRegsBut t (fun a => a == Reg.pwrState))
      ∧ (bitAt (s.r32 Reg.pwrWake) 1 = true → s.f32 Reg.pwrWake 8 24 ≠ 0
        → ∃ t, exec (.wakeTimerExpiry x) s = .next t ∧ t.power = { s.power with waking := some 3, wakes := s.power.wakes.erase 3 }
          ∧ bitAt (t.r32 Reg.pwrState) 2 = true ∧ t = { s with power := t.power, regs := t.regs } ∧ s.SameRegsBut t (fun a => a == Reg.pwrState)))
    ∧ ∀ (s : State) (id : Nat), s.power.wakeCmd = some id → id < 2 ^ 32 → s.power.waking = none → bitAt (s.r32 Reg.clkRef) 0 = false → s.CanTell 0
      → ∃ t, exec .wakeReferenceTimeout s = .next t ∧ s.Told t 0 id 0x24 0 0 ∧ t.power = { s.power with wakeCmd := none, wakes := s.power.wakes.erase 1 }
        ∧ t = { s with power := t.power, regs := t.regs, host := t.host, out := t.out } ∧ s.SameRegsBut t toldRegs

/-- With no transaction outstanding, DUSK_DRAIN_END of a Dusk to Twilight or Midnight marks it drained and every die stands still.
POWER_STATE_ENTERED with no wake source waiting then puts the package in Twilight, with every memory byte kept, or in Midnight,
with MAIN_PWR_EN low and every memory byte reading 0 (the model's default, log entry 5), and ends the Dusk.
TWILIGHT_WAKE_COMPLETE puts the package in Noon with the source's number in CAUSE, every memory byte kept and the wake ended.
(R408, R409, R411, R412, R413, R446, R536, 16_clocks_power_sleep.md) -/
def Obligations.TransitionsBetweenPowerStatesComplete : Prop :=
  (∀ (s : State) (k : Dusk) (now tick time : Nat) (v : FuseSupply) (b : Bool) (x : DawnIn), s.power.dusk = some k → k.drained = false
      → k.target = .twilight ∨ k.target = .midnight → s.txnList = []
      → ∃ t, exec (.duskDrainEnd now tick time v b x) s = .next t ∧ t.power.dusk = some { k with drained := true }
        ∧ (∀ d, d < 8 → (t.die d).run = false) ∧ s.SameBytes t ∧ t.flags = s.flags ∧ t.ctrs = s.ctrs)
    ∧ (∀ (s : State) (k : Dusk) (x : DawnIn), s.power.dusk = some k → k.drained = true → s.power.wakes = [] →
      (k.target = .twilight
        → ∃ t, exec (.powerStateEntered x) s = .next t ∧ t.f32 Reg.pwrState 0 3 = 1 ∧ t.power.dusk = none ∧ t.hour.left = true ∧ s.SameBytes t
          ∧ t.flags = s.flags ∧ t.ctrs = s.ctrs ∧ t.cores = s.cores)
      ∧ (k.target = .midnight
        → ∃ t, exec (.powerStateEntered x) s = .next t ∧ t.f32 Reg.pwrState 0 3 = 2 ∧ t.power.dusk = none ∧ t.power.mainEn = false
          ∧ (∀ a, t.rdByte a = 0 ∧ t.poisoned a = false) ∧ Output.land 0 false ∈ t.out ∧ t.sec.fuses = s.sec.fuses))
    ∧ ∀ (s : State) (src tick : Nat) (bad : List (Fin 8)), s.power.waking = some src → s.inTwilight = true
      → ∃ t, exec (.twilightWakeComplete bad tick) s = .next t ∧ t.f32 Reg.pwrState 0 3 = 0 ∧ t.f32 Reg.pwrState 8 3 = src % 8
        ∧ t.power.waking = none ∧ t.power.wakeCmd = none ∧ t.power.wakes = [] ∧ s.SameBytes t ∧ t.flags = s.flags ∧ t.ctrs = s.ctrs

/-- REFERENCE_LOST clears REF_OK and sets AON_INTERNAL, HOLDOVER and REF_LOST; a coupled package sets SLIP and leaves the coupled Hours.
REFERENCE_RESTORED sets REF_OK and REF_RESTORED and clears AON_INTERNAL and HOLDOVER. POWER_GOOD_RISE with no Dawn waiting notes that the rails are good
and no more. DROOP_TRIP raises the die's trip count and DROOP_RELEASE, 32 cycles after the last trip, adds the stretched cycles
(their number is the model's reading, in the log). GUARD_TRIP reports the fast average and, above 2,400 W or CAP, sets the guard
with its status bit and count. (R67, R417, R420, R427, R428, R535, 16_clocks_power_sleep.md) -/
def Obligations.ReferencePowerGoodDroopAndGuardEvents : Prop :=
  (∀ s : State, bitAt (s.r32 Reg.clkRef) 0 = true
      → ∃ t, exec .referenceLost s = .next t ∧ fld (t.r32 Reg.clkRef) 0 4 = 0xE ∧ s.SameBytes t ∧ t.flags = s.flags
        ∧ t.ctrs = s.ctrs ∧ t.dies = s.dies ∧ t.cores = s.cores
        ∧ (if s.coupled then t.hour.left = true ∧ t.hour.joining = false ∧ bitAt (t.r32 Reg.topHourStatus) 4 = true else t.hour = s.hour))
    ∧ (∀ (s : State) (x : DawnIn), bitAt (s.r32 Reg.clkRef) 0 = false → s.power.wakes = []
      → ∃ t, exec (.referenceRestored x) s = .next t ∧ fld (t.r32 Reg.clkRef) 0 3 = 1 ∧ bitAt (t.r32 Reg.clkRef) 4 = true
        ∧ t = { s with regs := t.regs, host := t.host } ∧ s.SameRegsBut t (fun a => a == Reg.clkRef || eventRegs a))
    ∧ (∀ (s : State) (x : DawnIn), s.power.mainEn = true → s.power.waitGood = false
      → exec (.powerGoodRise x) s = .next { s with power := { s.power with mainGood := true } })
    ∧ (∀ (s : State) (d : Fin 8) (now : Nat),
        ∃ t, exec (.droopTrip d now) s = .next t ∧ t.f64 (Reg.cdClkCount d) 48 16 = min (s.f64 (Reg.cdClkCount d) 48 16 + 1) (2 ^ 16 - 1)
          ∧ ((Tab.get (fun _ => none) t.power.droop d).map Droop.last) = some now
          ∧ t = { s with regs := t.regs, power := { s.power with droop := t.power.droop, trips := t.power.trips } }
          ∧ s.SameRegsBut t (pairOf (Reg.cdClkCount d)))
    ∧ (∀ (s : State) (d : Fin 8) (now : Nat) (x : Droop), Tab.get (fun _ => none) s.power.droop d = some x → x.last + 32 ≤ now
      → ∃ t, exec (.droopRelease d now) s = .next t ∧ Tab.get (fun _ => none) t.power.droop d = none
          ∧ t.f64 (Reg.cdClkCount d) 24 24 = min (s.f64 (Reg.cdClkCount d) 24 24 + (x.last - x.first + 48)) (2 ^ 24 - 1)
          ∧ t = { s with regs := t.regs, power := { s.power with droop := t.power.droop } } ∧ s.SameRegsBut t (pairOf (Reg.cdClkCount d)))
    ∧ ∀ (s : State) (fast slow : Nat),
      (fast ≤ 4800 → slow ≤ 2 * min 2200 (max 600 (s.f32 Reg.pwrCap 0 12))
        → ∃ t, exec (.guardTrip fast slow) s = .next t ∧ t.f64 Reg.pwrPower 16 16 = fast ∧ t = { s with regs := t.regs }
          ∧ s.SameRegsBut t (pairOf Reg.pwrPower))
      ∧ (4800 < fast ∨ 2 * min 2200 (max 600 (s.f32 Reg.pwrCap 0 12)) < slow
        → ∃ t, exec (.guardTrip fast slow) s = .next t ∧ t.f64 Reg.pwrPower 16 16 = min fast 0xFFFF ∧ t.power.guard = true
          ∧ bitAt (t.r32 Reg.pwrStatus) 3 = true ∧ t.f64 Reg.pwrCount 16 16 = min (s.f64 Reg.pwrCount 16 16 + 1) (2 ^ 16 - 1)
          ∧ t = { s with regs := t.regs, power := { s.power with guard := true } }
          ∧ s.SameRegsBut t (fun a => pairOf Reg.pwrPower a || a == Reg.pwrStatus || pairOf Reg.pwrCount a))

/-- HOLD_START of a die whose units run and which a condition of R262 holds stops the die with that hold and sets HOLDING; with none it
changes nothing. HOLD_END with no condition left starts the die, counts one hold, adds its
cycles to FAB_HOLD_CYCLES and writes FAB_HOLD_LAST with the hold's record. HOLD_LONG past LIMIT_US sets LONG and posts HOLD_LONG.
No other die, no byte, flag, counter or core changes; a card whose last report came in the hold completes at its end. (That counts
move at the end of a hold is the model's reading, in the log.) (R233, R262, R264, R265, 09_fabric_and_die_links.md) -/
def Obligations.DieHoldsStopAndRecord : Prop :=
  (∀ (s y : State) (d : Fin 8) (now k m c card : Nat) (rest : List (Nat × Nat × Nat × Nat)), s.dieRuns d now = true → (s.die d).hold = none
      → y = s.meshTo d (s.engCycle d now) → y.holders d now = (k, m, c, card) :: rest
      → ∃ t, exec (.holdStart d now) s = .next t
        ∧ (t.die d).hold = some ⟨k, m, c, card, now, none⟩ ∧ (t.die d).run = false ∧ (t.die d).s0 = y.schedCount d now
        ∧ (t.die d).e0 = y.engCycle d now ∧ bitAt (t.r32 (Reg.fabHoldCtl d)) 1 = true ∧ (∀ e, e ≠ d.val → t.die e = y.die e)
        ∧ t = { y with dies := t.dies, regs := t.regs } ∧ y.SameRegsBut t (fun a => a == Reg.fabHoldCtl d))
    ∧ (∀ (s : State) (d : Fin 8) (now : Nat), (s.meshTo d (s.engCycle d now)).holders d now = [] ∨ s.dieRuns d now = false ∨ (s.die d).hold ≠ none
      → exec (.holdStart d now) s = .next s)
    ∧ (∀ (s y : State) (d : Fin 8) (now : Nat) (h : Hold), (s.die d).hold ≠ none → y = s.settleReports d now → (y.die d).hold = some h →
      (y.holders d now = []
        → ∃ t, exec (.holdEnd d now) s = .next t ∧ (t.die d).hold = none ∧ (t.die d).run = true ∧ (t.die d).t0 = now
          ∧ (t.die d).s0 = (y.die d).s0 ∧ (t.die d).e0 = (y.die d).e0 ∧ bitAt (t.r32 (Reg.fabHoldCtl d)) 1 = false
          ∧ t.f64 (Reg.fabHoldCount d) 32 32 = min (y.f64 (Reg.fabHoldCount d) 32 32 + 1) (2 ^ 32 - 1)
          ∧ t.r64 (Reg.fabHoldCycles d) = min (y.r64 (Reg.fabHoldCycles d) + (now - h.since)) (2 ^ 64 - 1)
          ∧ t.r64 (Reg.fabHoldLast d) = holdRecord h (now - h.since) % 2 ^ 64
          ∧ (∀ e, e ≠ d.val → t.die e = y.die e) ∧ t = { y with dies := t.dies, regs := t.regs }
          ∧ y.SameRegsBut t (fun a => a == Reg.fabHoldCtl d || pairOf (Reg.fabHoldCount d) a || pairOf (Reg.fabHoldLast d) a || pairOf (Reg.fabHoldCycles d) a))
      ∧ (y.holders d now ≠ [] → exec (.holdEnd d now) s = .next s))
    ∧ ∀ (s : State) (d : Fin 8) (now : Nat) (h : Hold), (s.die d).hold = some h →
      (max 1 (s.f32 (Reg.fabHoldCtl d) 16 16) * s.noonMHz < now - h.since
        → ∃ t, exec (.holdLong d now) s = .next t ∧ bitAt (t.r32 (Reg.fabHoldCtl d)) 0 = true
          ∧ t.r64 (Reg.fabHoldLast d) = holdRecord (s.holdNow d now h) (now - h.since) % 2 ^ 64
          ∧ (s.host.events.length < 4096 → ∃ e, t.host.events = s.host.events ++ [e] ∧ e.type = 5 ∧ e.source = d.val)
          ∧ (t.die d) = { s.die d with hold := some (s.holdNow d now h) } ∧ (∀ e, e ≠ d.val → t.die e = s.die e)
          ∧ t = { s with dies := t.dies, regs := t.regs, host := t.host }
          ∧ s.SameRegsBut t (fun a => a == Reg.fabHoldCtl d || pairOf (Reg.fabHoldLast d) a || eventRegs a))
      ∧ (now - h.since ≤ max 1 (s.f32 (Reg.fabHoldCtl d) 16 16) * s.noonMHz → exec (.holdLong d now) s = .next s)

/-- RESET of an idle die begins its Dusk and changes nothing else; of a die with a RUNNING core it completes with 0x24.
DOMAIN_RESET_COMPLETE puts the die in service at the next Hour and completes its command; a fenced slot that passes is its
cluster's idle slot again with RESULT0 = 1. XING_FAULT keeps the peak offset and, beyond 192, sets FAULT and resets the die: its
flags and core memories read 0; so does a fault of a router node, a link or the slot exchange (without a crossing; log entry 54).
FENCE_SLOT of a serving slot fences it. A hang stops the holders' partitions, and nothing before HANG_MS; where the die still hangs
with no owner left it is reset. (R241, R269, R270, R435,
R437, R446, R455, 17_dawn_resets_recovery.md) -/
def Obligations.DomainResetsFencesAndHangs : Prop :=
  (∀ (s : State) (d : Desc), d.f 8 1 = 2 → d.f 9 1 < 8 → d.zero 10 64 = true → (s.die (d.f 9 1)).cond ≠ .absent →
      ((∀ n, n < 64 → s.pstate n ≠ 3 ∨ s.hasCoreOn n (d.f 9 1) = false) → s.power.dusk = none → s.power.resets = []
        → exec (.resetDomain d) s = .next { s with power := { s.power with dusk := some ⟨.reset 2 (d.f 9 1) 0 0, d.cmdId, false⟩ } })
      ∧ ((∃ n, n < 64 ∧ s.pstate n = 3 ∧ s.hasCoreOn n (d.f 9 1) = true) → s.CanTell 0
        → ∃ t, exec (.resetDomain d) s = .next t ∧ s.Told t 0 d.cmdId 0x24 0 0 ∧ s.TellsOnly t ∧ s.SameRegsBut t toldRegs))
    ∧ (∀ (s : State) (d : Fin 8) (k : Fin 4) (slot : Fin 5) (id : Nat), id < 2 ^ 32 → s.CanTell 0 →
      (s.power.resets = [⟨2, d, 0, 0, some id⟩]
        → ∃ t, exec (.domainResetComplete 2 d k slot true) s = .next t ∧ t.power.resets = [] ∧ s.Told t 0 id 0 0 0
          ∧ (t.die d).cond = .inService ∧ (t.die d).run = false ∧ (t.die d).atHour = some (s.hour.opened + 1)
          ∧ (∀ e, e ≠ d.val → t.die e = s.die e) ∧ s.SameBytes t ∧ s.SameRegsBut t toldRegs)
      ∧ (s.power.resets = [⟨1, d, k, slot, some id⟩] → bitAt (s.r32 (Reg.cdSlotMap d k)) (15 + slot.val) = true
        → ∃ t, exec (.domainResetComplete 1 d k slot true) s = .next t ∧ t.power.resets = [] ∧ s.Told t 0 id 0 1 0
          ∧ bitAt (t.r32 (Reg.cdSlotMap d k)) (15 + slot.val) = false ∧ t.f32 (Reg.cdSlotMap d k) 12 3 = slot.val
          ∧ bitAt (t.r32 (Reg.cdSlotMap d k)) 20 = false ∧ s.SameBytes t ∧ s.SameRegsBut t (fun a => toldRegs a || a == Reg.cdSlotMap d k)))
    ∧ (∀ (s : State) (d : Fin 8) (k : Fin 4) (skew now time : Nat), skew ≤ 192 → ∃ t, exec (.xingFault d (some k) skew now time) s = .next t
        ∧ t.f32 (Reg.cdXing d k) 16 8 = max (s.f32 (Reg.cdXing d k) 16 8) skew ∧ t = { s with regs := t.regs }
        ∧ s.SameRegsBut t (fun a => a == Reg.cdXing d k))
    ∧ (∀ (s : State) (d : Fin 8) (x : Option (Fin 4)) (skew now time : Nat), x = none ∨ 192 < skew → s.power.resets = [] → s.power.faultAt = none
        → ∃ t, exec (.xingFault d x skew now time) s = .next t ∧ (∀ k, x = some k → bitAt (t.r32 (Reg.cdXing d k)) 31 = true) ∧ (t.die d).cond = .inReset
          ∧ (∀ i, i < 1024 → t.flag (1024 * d + i) = false ∧ t.ctr (1024 * d + i) = 0)
          ∧ (∀ c, c < 16 → ∀ a, inCore (16 * d + c) a = true → t.rdByte a = 0)
          ∧ ∀ a, (∀ c, c < 16 → inCore (16 * d + c) a = false) → t.rdByte a = s.rdByte a)
    ∧ (∀ (s : State) (d : Desc) (g : Nat) (rest : List Nat), d.f 9 1 < 8 → d.f 10 1 < 4 → d.f 11 1 < 5 → d.zero 8 9 = true → d.zero 12 64 = true
      → (s.die (d.f 9 1)).cond ≠ .absent → s.scopeCores 1 (d.f 9 1) (d.f 10 1) (d.f 11 1) = g :: rest → (s.core g).fenced = false
      → bitAt (s.r32 (Reg.cdSlotMap (d.f 9 1) (d.f 10 1))) (15 + d.f 11 1) = false → s.CanTell 0
      → ∃ t, exec (.fenceSlot d) s = .next t ∧ s.Told t 0 d.cmdId 0 0 0 ∧ (t.core g).fenced = true
        ∧ bitAt (t.r32 (Reg.cdSlotMap (d.f 9 1) (d.f 10 1))) (15 + d.f 11 1) = true ∧ s.SameBytes t ∧ t.flags = s.flags ∧ t.ctrs = s.ctrs)
    ∧ ∀ (s : State) (d : Fin 8) (now time : Nat) (h : Hold), (s.die d).hold = some h →
      (now - h.hung.getD h.since < max 1 (s.f32 Reg.dawnHangCtl 0 16) * 1000 * s.noonMHz → exec (.hangStop d now time) s = .next s)
      ∧ (max 1 (s.f32 Reg.dawnHangCtl 0 16) * 1000 * s.noonMHz ≤ now - h.hung.getD h.since → s.hangOwners d now ≠ []
        → ∃ t, exec (.hangStop d now time) s = .next t ∧ t.r64 (Reg.fabHoldLast d) = holdRecord (s.holdNow d now h) (now - h.since) % 2 ^ 64
          ∧ (∀ n, n ∈ s.hangOwners d now → t.pstate n = 4) ∧ s.SameBytes t ∧ t.flags = s.flags ∧ t.ctrs = s.ctrs)
      ∧ (max 1 (s.f32 Reg.dawnHangCtl 0 16) * 1000 * s.noonMHz ≤ now - h.hung.getD h.since → s.hangOwners d now = [] → h.hung ≠ none
        → s.power.resets = [] → s.power.faultAt = none
        → ∃ t, exec (.hangStop d now time) s = .next t ∧ (t.die d).cond = .inReset)

/-- JOB_ABORT and JOB_RESUME of a LOADED or RUNNING partition with the next GEN and a target beyond the last window wait for it with
PENDING set; a JOB_ABORT with the present GEN completes at once. FENCE_DRAINED with no transaction left tells FENCE_DRAINED and
completes the JOB_ABORT. 4,096 Hours without a JOB_ABORT record a stop with 0x65. DAWN_RETRY ACTION 0 clears a count of 1 or 2
and leaves a count of 3, ACTION 1 marks the unit. (R442, R443, R451, R452, R453, 17_dawn_resets_recovery.md) -/
def Obligations.JobAbortsFencesAndDawnRetries : Prop :=
  (∀ (s : State) (d : Desc), d.f 8 1 < 64 → d.zero 10 24 = true → d.zero 32 64 = true →
      (d.f 9 1 = (s.gen (d.f 8 1) + 1) % 16 → 2 ≤ s.pstate (d.f 8 1) → s.hour.opened < d.f 24 8 →
        (∃ t, exec (.jobAbort d) s = .next t ∧ t.hour.jobs = s.hour.jobs ++ [⟨d.cmdId, d.f 8 1, false, d.f 9 1, d.f 24 8⟩]
          ∧ bitAt (t.r32 (Reg.topPartJob (d.f 8 1))) 5 = true ∧ t = { s with regs := t.regs, hour := { s.hour with jobs := t.hour.jobs } }
          ∧ s.SameRegsBut t (fun a => a == Reg.topPartJob (d.f 8 1)))
        ∧ (s.fencedJob (d.f 8 1) = true → (s.part (d.f 8 1)).drained = true
          → ∃ t, exec (.jobResume d) s = .next t ∧ t.hour.jobs = s.hour.jobs ++ [⟨d.cmdId, d.f 8 1, true, d.f 9 1, d.f 24 8⟩]
          ∧ bitAt (t.r32 (Reg.topPartJob (d.f 8 1))) 5 = true ∧ t = { s with regs := t.regs, hour := { s.hour with jobs := t.hour.jobs } }
          ∧ s.SameRegsBut t (fun a => a == Reg.topPartJob (d.f 8 1))))
      ∧ (d.f 9 1 = s.gen (d.f 8 1) → s.CanTell 0
        → ∃ t, exec (.jobAbort d) s = .next t ∧ s.Told t 0 d.cmdId 0 0 0 ∧ s.TellsOnly t ∧ s.SameRegsBut t toldRegs))
    ∧ (∀ (s : State) (n : Fin 64) (id : Nat), s.fencedJob n = true → (s.part n).drained = false → (∀ e ∈ s.txnList, e.2.part ≠ n.val)
      → (s.part n).fenceCmd = some id → id < 2 ^ 32 → s.CanTell 0
      → ∃ t, exec (.fenceDrained n) s = .next t ∧ s.Told t 0 id 0 0 0 ∧ (t.part n).drained = true ∧ (t.part n).fenceCmd = none
        ∧ (∀ m, m ≠ n.val → t.part m = s.part m) ∧ s.SameBytes t ∧ s.SameRegsBut t (fun a => toldRegs a || eventRegs a))
    ∧ (∀ (s : State) (n : Fin 64), s.suspended n = true → 1 < s.span n → (s.part n).jobAborted = false → s.fencedJob n = false
      → (s.part n).stop = none → (∀ j ∈ s.hour.jobs, j.part ≠ n.val) →
      ((s.part n).abortedAt + 4096 ≤ s.hourCount
        → ∃ t, exec (.jobAbortTimeout n) s = .next t ∧ (t.part n).stop = some (0x65, .fault) ∧ (∀ m, m ≠ n.val → t.part m = s.part m)
          ∧ t = { s with parts := t.parts })
      ∧ (s.hourCount < (s.part n).abortedAt + 4096 → exec (.jobAbortTimeout n) s = .next s))
    ∧ ∀ (s : State) (d : Desc), 1 ≤ d.f 8 1 → d.f 8 1 ≤ 14 → d.f 9 1 ≤ 6 → d.f 10 2 < 2 ^ 12 → d.zero 13 64 = true → s.CanTell 0 →
      (d.f 12 1 = 0 → ∃ t, exec (.dawnRetry d) s = .next t ∧ s.Told t 0 d.cmdId 0 0 0
        ∧ t.dawnCount (dawnKey (d.f 8 1) (d.f 9 1) (d.f 10 2))
          = (if s.dawnCount (dawnKey (d.f 8 1) (d.f 9 1) (d.f 10 2)) ≤ 2 then 0 else s.dawnCount (dawnKey (d.f 8 1) (d.f 9 1) (d.f 10 2)))
        ∧ (∀ k, k ≠ dawnKey (d.f 8 1) (d.f 9 1) (d.f 10 2) → t.dawnCount k = s.dawnCount k) ∧ s.SameBytes t ∧ s.SameRegsBut t toldRegs)
      ∧ (d.f 12 1 = 1 → stepMarks (d.f 8 1) = true
        → ∃ t, exec (.dawnRetry d) s = .next t ∧ s.Told t 0 d.cmdId 0 0 0 ∧ dawnKey (d.f 8 1) (d.f 9 1) (d.f 10 2) ∈ t.dawn.marks
          ∧ (∀ k, k ∈ s.dawn.marks → k ∈ t.dawn.marks) ∧ t.dawn.counts = s.dawn.counts ∧ s.SameBytes t ∧ s.SameRegsBut t toldRegs)

/-- POR_N low, WARM_RESET_N, DAWN_WATCHDOG_EXPIRY, FAILED_DAWN_RESTART and WATCHDOG_EXPIRY, each where its conditions hold, leave
every memory byte reading 0 and no partition, core, ring or transaction. POR_N's release begins a cold Dawn, the others a warm
one: DAWN_SEQ rises by 1 and KIND says which; while a pin-driving test instruction holds the pins, the Dawn of POR_N's release and
of WARM_RESET_N waits. A watchdog raises its count by 1. VDD_AON_REMOVAL keeps the fuses and the Metering
Unit's registers, and every other register reads its reset value. (R434, R435, R441, R444, R445, R456, R509, R542,
17_dawn_resets_recovery.md) -/
def Obligations.ResetsOfThePackageBeginADawn : Prop :=
  (∀ (s : State) (time : Nat), s.power.porLow = false
      → ∃ t, exec (.porN none time) s = .next t ∧ t.power.porLow = true ∧ t.mem = [] ∧ t.poison = [] ∧ t.cores = [] ∧ t.parts = []
        ∧ t.host.rings = [] ∧ t.txns = [] ∧ t.sec.fuses = s.sec.fuses ∧ t.r32 Reg.dawnSeq = s.r32 Reg.dawnSeq
        ∧ ∀ a, keptReg true a = false → a ≠ Reg.secStatus → t.r32 a = (Reg.resetWord a).toNat)
    ∧ (∀ (s : State) (x : DawnIn) (time : Nat), s.power.porLow = true → s.pinsHeld = true → s.power.thermTrip = false
      → exec (.porN (some x) time) s = .next { s with
        power := { s.power with porLow := false, pinned := some (0, x) }, dawn := { s.dawn with failedRow := 0 } })
    ∧ (∀ (s : State) (x : DawnIn) (time : Nat), s.power.porLow = false → s.pinsHeld = true → s.power.thermTrip = false → s.dawn.failedRow < 3
      → ∃ t, exec (.warmResetN x time) s = .next t ∧ t.power.pinned = some (1, x) ∧ t.r32 Reg.dawnSeq = s.r32 Reg.dawnSeq ∧ t.pinsHeld = true
        ∧ t.mem = [] ∧ t.parts = [] ∧ t.host.rings = [] ∧ t.txns = [])
    ∧ (∀ (s : State) (x : DawnIn) (time : Nat), s.power.thermTrip = false → (s.power.porLow = true → s.pinsHeld = false)
      → ∃ t, exec (.porN (some x) time) s = .next t ∧ t.power.porLow = false ∧ t.r32 Reg.dawnSeq = (s.r32 Reg.dawnSeq + 1) % 2 ^ 32
        ∧ t.f32 Reg.dawnStatus 30 2 = 0 ∧ (s.power.porLow = false → ∀ a, t.rdByte a = 0))
    ∧ (∀ (s : State) (x : DawnIn) (time : Nat), s.power.porLow = false → s.pinsHeld = false → s.power.thermTrip = false → s.dawn.failedRow < 3
      → ∃ t, exec (.warmResetN x time) s = .next t ∧ t.r32 Reg.dawnSeq = (s.r32 Reg.dawnSeq + 1) % 2 ^ 32 ∧ t.f32 Reg.dawnStatus 30 2 = 1
        ∧ (∀ a, t.rdByte a = 0) ∧ t.parts = [] ∧ t.host.rings = [] ∧ t.txns = [])
    ∧ (∀ (s : State) (k : Fin 7) (u : Fin 240) (x : DawnIn) (time : Nat), s.f32 Reg.dawnStatus 28 2 = 0 → s.r32 Reg.dawnSeq ≠ 0 → s.pinsHeld = false
      → s.power.porLow = false → s.dawn.failedRow < 2
      → ∃ t, exec (.dawnWatchdogExpiry k u x time) s = .next t ∧ t.r32 Reg.dawnSeq = (s.r32 Reg.dawnSeq + 1) % 2 ^ 32 ∧ t.f32 Reg.dawnStatus 30 2 = 1
        ∧ t.f64 Reg.dawnResetCount 0 8 = min (s.f64 Reg.dawnResetCount 0 8 + 1) 255 ∧ ∀ a, t.rdByte a = 0)
    ∧ (∀ (s : State) (x : DawnIn), s.f32 Reg.dawnStatus 28 2 = 2 → s.dawn.failedRow < 3 → s.pinsHeld = false → s.power.porLow = false
      → s.power.thermTrip = false
      → ∃ t, exec (.failedDawnRestart x) s = .next t ∧ t.r32 Reg.dawnSeq = (s.r32 Reg.dawnSeq + 1) % 2 ^ 32 ∧ t.f32 Reg.dawnStatus 30 2 = 1
        ∧ ∀ a, t.rdByte a = 0)
    ∧ (∀ (s : State) (w : Fin 2) (x : DawnIn) (time : Nat), s.inNoon = true → s.dawn.failedRow < 3
      → ∃ t, exec (.watchdogExpiry w x time) s = .next t ∧ t.r32 Reg.dawnSeq = (s.r32 Reg.dawnSeq + 1) % 2 ^ 32 ∧ t.f32 Reg.dawnStatus 30 2 = 1
        ∧ t.f64 Reg.dawnResetCount 0 8 = min (s.f64 Reg.dawnResetCount 0 8 + 1) 255 ∧ ∀ a, t.rdByte a = 0)
    ∧ ∀ s : State, ∃ t, exec .vddAonRemoval s = .next t ∧ t.sec.fuses = s.sec.fuses ∧ t.meter = s.meter ∧ t.mem = [] ∧ t.cores = [] ∧ t.parts = []
        ∧ ∀ a, t.r32 a = if addrDie a = 8 ∧ addrRegion a = 15 ∧ 0xB00000 ≤ addrOffset a ∧ addrOffset a < 0xB01000 then s.r32 a
          else (Reg.resetWord a).toNat

/-- With a cold or warm Dawn in progress at STEP 14, DAWN_DONE sets STATE of DAWN_STATUS to DONE and PWR_STATE to Noon, starts every
die that is not absent at schedule count 0 with TOP_HOUR_COUNT 0, makes the routing table computed from the system map both
active and staged, ends the row of failed Dawns and changes no memory byte. In that table the package itself is LOCAL, and an
identifier that the map does not hold, or whose package is cut out, has VALID 0. In any other state of the Dawn it changes
nothing. (R44, R315, R319, R326, R438, R440, R444, R469, 12_system_topology.md, 17_dawn_resets_recovery.md) -/
def Obligations.DawnEndsInNoon : Prop :=
  (∀ (s : State) (x : DawnIn) (map : List (Nat × Nat × Nat × Nat)) (cut : List Nat) (now tick : Nat), s.f32 Reg.dawnStatus 28 2 = 0 → s.f32 Reg.dawnStatus 24 4 = 14
      → s.f32 Reg.dawnStatus 30 2 ≠ 2
      → ∃ t, exec (.dawnDone x map cut now tick) s = .next t ∧ t.f32 Reg.dawnStatus 28 2 = 1 ∧ t.f32 Reg.pwrState 0 3 = 0 ∧ t.inNoon = true
        ∧ t.hourCount = 0 ∧ t.dawn.failedRow = 0 ∧ s.SameBytes t
        ∧ (∀ d, d < 8 → (s.die d).cond ≠ .absent → (t.die d).run = true ∧ (t.die d).t0 = now ∧ (t.die d).s0 = 0 ∧ (t.die d).lastHour = 0)
        ∧ ∀ i, i < 1024 → t.r32 (Reg.rteTableAct + 4 * i) = leNat ((List.range 4).map (fun j => (s.routeTable map cut).getD (4 * i + j) 0))
          ∧ t.r32 (Reg.rteTableStg + 4 * i) = leNat ((List.range 4).map (fun j => (s.routeTable map cut).getD (4 * i + j) 0)))
    ∧ (∀ (s : State) (map : List (Nat × Nat × Nat × Nat)) (cut : List Nat) (id : Nat), id < 4096 →
      (id = s.f64 Reg.rteSelf 0 12 → (s.routeTable map cut).getD id 0 = 0x8C)
      ∧ (id ≠ s.f64 Reg.rteSelf 0 12 → (∀ e, e ∈ map → e.1 ≠ id) → (s.routeTable map cut).getD id 0 = 0)
      ∧ (id ≠ s.f64 Reg.rteSelf 0 12 → id ∈ cut
        → (∀ e, e ∈ map → e.1 = id → [e.2.1, e.2.2.1, e.2.2.2] ≠ (List.range 3).map (fun k => s.f64 Reg.rteSelf (16 + 4 * k) 4))
        → (s.routeTable map cut).getD id 0 = 0))
    ∧ ∀ (s : State) (x : DawnIn) (map : List (Nat × Nat × Nat × Nat)) (cut : List Nat) (now tick : Nat), s.f32 Reg.dawnStatus 28 2 ≠ 0 ∨ s.f32 Reg.dawnStatus 24 4 ≠ 14
      → exec (.dawnDone x map cut now tick) s = .next s

/-- In Midnight an ALARM of one trip writes its entry at the head of the alarm log with policy and state, raises its class's count
and sets ALARM_SEEN, and nothing is reset. In Noon it leaves every memory byte reading 0 and the package outside Noon; under
PERMANENT with VFUSE in range UDS_KILL is blown. FUSE_SHADOW_CHECK acts as the alarm it found in Noon and Twilight and is
nothing without a finding or elsewhere. A required rail that falls raises VOLT with the rail's unit; in Midnight it only loses
power-good. A challenge that expires is gone. (R480, R481, R483, R485, R488, R539, 18_security.md) -/
def Obligations.AlarmsAreLoggedAndEndNoon : Prop :=
  (∀ (s : State) (x : AlarmIn) (y : AlarmTrip), s.alarmState = 2 → x.trips = [y] → policyRank (s.policyOf y.cls) ≠ 2
      → ∃ t, exec (.alarmTrip x) s = .next t
        ∧ t.rWide (Reg.secAlarmLog (s.f32 Reg.secAlarmHead 0 6)) 4
          = alarmBits (s.r32 Reg.dawnSeq) x.time y.cls y.unit.toNat y.detail.toNat + s.policyOf y.cls * 2 ^ 59 + 2 * 2 ^ 57
        ∧ t.f32 Reg.secAlarmHead 0 6 = (s.f32 Reg.secAlarmHead 0 6 + 1) % 64
        ∧ t.f64 Reg.secAlarmCount (8 * y.cls.val) 8 = min (s.f64 Reg.secAlarmCount (8 * y.cls.val) 8 + 1) 255
        ∧ bitAt (t.r32 Reg.secStatus) 6 = true ∧ t.alarmState = 2 ∧ s.SameBytes t ∧ t.power = s.power ∧ t.host = s.host)
    ∧ (∀ (s : State) (x : AlarmIn), s.alarmState = 0 → x.trips ≠ []
      → ∃ t, exec (.alarmTrip x) s = .next t ∧ (∀ a, t.rdByte a = 0) ∧ t.inNoon = false
        ∧ (policyRank (s.strongest x.trips) = 2 → x.vfuse = true → t.sec.fuses.udsKill = true))
    ∧ (∀ (s : State) (x : AlarmIn), exec (.fuseShadowCheck none) s = .next s
      ∧ (s.alarmState ≤ 1 → exec (.fuseShadowCheck (some x)) s = exec (.alarmTrip x) s)
      ∧ (2 ≤ s.alarmState → exec (.fuseShadowCheck (some x)) s = .next s))
    ∧ (∀ (s : State) (rail : Fin 18) (mv : Nat) (x : AlarmIn),
      (s.alarmState = 2 → exec (.powerGoodFall rail mv x) s = .next { s with power := { s.power with mainGood := false } })
      ∧ (s.power.mainEn = true → s.alarmState = 0 → s.power.waitGood = false → (rail.val < 16 → (s.die (rail.val / 2)).cond ≠ .absent)
        → exec (.powerGoodFall rail mv x) s = exec (.alarmTrip { x with trips := ⟨0, BitVec.ofNat 16 ((if rail.val < 16 then rail.val / 2 else 8) + 16 * rail.val), BitVec.ofNat 32 mv⟩ :: x.trips })
          { s with power := { s.power with mainGood := false } }))
    ∧ ∀ s : State, exec .challengeExpiry s = .next { s with sec := { s.sec with challenge := none } }

/-- In Noon a sample of a present die with every reading below THROTTLE_C, and every other reading too, stores the twenty slots'
readings in CD_SLOT_TEMP and raises nothing; in Midnight only the IOD's sensors are stored and no register changes below 110 C.
DEBUG_GRANT ends the grant in progress with DEBUG_ACTIVE of SEC_STATUS and GRANTED of JTAG_STATUS set, and without one it
changes nothing. (R429, R430, R431, R485, R515, 16_clocks_power_sleep.md, 20_boundary_scan_and_test.md) -/
def Obligations.TemperatureSamplesAndDebugGrants : Prop :=
  (∀ (s : State) (d : Fin 8) (r av ag : List Nat) (time : Nat) (x : AlarmIn), s.alarmState = 0 → (s.die d).cond ≠ .absent → r.length = 24
      → (∀ v ∈ r, v < s.throttleAt) → s.power.throttled = false → (∀ e ∈ s.power.temps, e.2 < s.throttleAt)
      → ∃ t, exec (.temperatureSample (Fin.castLE (by decide) d) r av ag time x) s = .next t
        ∧ (∀ i, i < 20 → t.f64 (Reg.cdSlotTemp d (i / 5)) (8 * (i % 5)) 8 = min 255 (r.getD i 0)
          ∧ t.f64 (Reg.cdSlotAge d (i / 5)) (12 * (i % 5)) 12 = min 4095 (ag.getD i 0))
        ∧ t.power.throttled = false ∧ t = { s with regs := t.regs, power := t.power }
        ∧ s.SameRegsBut t (fun a => (List.range 4).any (fun k => pairOf (Reg.cdSlotTemp d k) a || pairOf (Reg.cdSlotAge d k) a)))
    ∧ (∀ (s : State) (r av ag : List Nat) (time : Nat) (x : AlarmIn), s.alarmState = 2 → (∀ v ∈ r, v < 220)
      → ∃ t, exec (.temperatureSample 8 r av ag time x) s = .next t ∧ t = { s with power := t.power }
        ∧ t.power.maxRead = (r.take 8).foldl max s.power.maxRead)
    ∧ (∀ (s : State) (tick : Nat), s.sec.granting = true
      → ∃ t, exec (.debugGrant tick) s = .next t ∧ t.sec.granting = false ∧ bitAt (t.r32 Reg.secStatus) 3 = true ∧ bitAt (t.r32 Reg.jtagStatus) 3 = true)
    ∧ ∀ (s : State) (tick : Nat), s.sec.granting = false → exec (.debugGrant tick) s = .next s

/-- The frame a die's module end expects next, of the partition's generation, moves on the expected SEQ. A WRITE whose lines the
partition may write stores each line of LMASK and leaves every other byte as it was. READ_DATA lowers the lines that its tag's
item awaits, writes the line at the item's target and nowhere else, and one that no tag holds counts as late. A REDUCE_DATA line at
its combining die joins the operands while some are missing; of another die's it goes one hop on along the ring. A frame with a
wrong CHECK counts and changes nothing else but the NAK sent; a stale one stores nothing. (R167, R171, R206, R228, R252, R255,
R258, R260, R261, R273, R450, 09_fabric_and_die_links.md) -/
def Obligations.FramesLandOnTheirDie : Prop :=
  (∀ (s : State) (k : Fin 52) (x : BitVec 2304) (may : Bool) (now : Nat), k.val < 32 → s.NextFrame k 0 x.toNat → s.NoneWaits (k.val / 4) →
      (fld x.toNat 188 4 = s.gen (fld x.toNat 192 6)
        → (∀ i, i < 8 → bitAt x.toNat (180 + i) = true → s.lineOk (fld x.toNat 192 6) true (lineAt (k.val / 4) x.toNat i) = true
          ∧ s.Still (s.landStamp (k.val / 4) now) (lineAt (k.val / 4) x.toNat i) 32)
        → ∃ t, exec (.d2dWrite k x may now) s = .next t ∧ (t.modEnd k).wantF = ((s.modEnd k).wantF + 1) % 4096
          ∧ (∀ i, i < 8 → bitAt x.toNat (180 + i) = true
            → t.rdBytes (lineAt (k.val / 4) x.toNat i) (s.lineLen k x.toNat i) = (leBytes 32 (fld x.toNat (256 + 256 * i) 256)).take (s.lineLen k x.toNat i))
          ∧ (∀ a, (∀ i, i < 8 → bitAt x.toNat (180 + i) = true → a < lineAt (k.val / 4) x.toNat i
            ∨ lineAt (k.val / 4) x.toNat i + s.lineLen k x.toNat i ≤ a) → t.rdByte a = s.rdByte a)
          ∧ t.flags = s.flags ∧ t.ctrs = s.ctrs ∧ t.cores = s.cores ∧ t.parts = s.parts ∧ ∀ e, e ≠ k.val / 4 → t.die e = s.die e)
      ∧ (fld x.toNat 188 4 ≠ s.gen (fld x.toNat 192 6)
        → ∃ t, exec (.d2dWrite k x may now) s = .next t ∧ (t.modEnd k).wantF = ((s.modEnd k).wantF + 1) % 4096 ∧ s.SameBytes t
          ∧ t.flags = s.flags ∧ t.ctrs = s.ctrs ∧ t.cores = s.cores))
    ∧ (∀ (s : State) (k : Fin 52) (x : BitVec 2304) (may : Bool) (now g n : Nat) (y : Flight), k.val < 32 → s.NextFrame k 1 x.toNat
      → s.NoneWaits (k.val / 4) →
      (fld x.toNat 188 4 = s.gen (fld x.toNat 192 6) → s.tagHolder (k.val / 4) (fld x.toNat 164 16) = some (g, y, n) → (s.core g).Numbered
        → ∃ t, exec (.d2dReadData k x may now) s = .next t ∧ (t.modEnd k).wantF = ((s.modEnd k).wantF + 1) % 4096
          ∧ (∃ y', y' ∈ (t.core g).flights ∧ y'.seq = y.seq
            ∧ Tab.get (fun _ => 0) y'.awaited n = Tab.get (fun _ => 0) y.awaited n - (maskLines (fld x.toNat 180 8) 8).length)
          ∧ (∀ a, (∀ p, p ∈ dmaTargets y.card → ∀ b, b < descRun (cardDesc y.card 0) → itemAddr y.card 1 n p.2 b ≠ a) → t.rdByte a = s.rdByte a)
          ∧ t.flags = s.flags ∧ t.ctrs = s.ctrs ∧ (∀ e, e ≠ k.val / 4 → t.die e = s.die e) ∧ ∀ h, h ≠ g → t.core h = s.core h)
      ∧ (s.tagHolder (k.val / 4) (fld x.toNat 164 16) = none
        → ∃ t, exec (.d2dReadData k x may now) s = .next t ∧ t.f64 Reg.tclTxnCount1 8 12 = min (s.f64 Reg.tclTxnCount1 8 12 + 1) (2 ^ 12 - 1)
          ∧ s.SameBytes t ∧ t.flags = s.flags ∧ t.ctrs = s.ctrs ∧ t.cores = s.cores))
    ∧ (∀ (s : State) (k : Fin 52) (x : BitVec 2304) (may : Bool) (now g n i : Nat) (y : Flight) (p q : Nat × Nat), k.val < 32
      → s.NextFrame k 1 x.toNat → s.NoneWaits (k.val / 4) → fld x.toNat 188 4 = s.gen (fld x.toNat 192 6)
      → s.tagHolder (k.val / 4) (fld x.toNat 164 16) = some (g, y, n) → (s.core g).Numbered → fld x.toNat 180 8 = 1
      → (s.withMarks k (wireSeq x.toNat) (Frame.ofWire x.toNat)).tail = 0 → descRemote (cardDesc y.card 0) = false
      → dmaSources y.card = [p] → dmaTargets y.card = [(0, q)] → dstOffDie g y.card q = false
      → sourceLine y.card n p (lineAt (fld x.toNat 204 4) x.toNat 0) = some i
      → (∀ j, j < lineBytes y.card i → itemAddr y.card 1 n q (32 * i + j) = itemAddr y.card 1 n q (32 * i) + j)
      → (∀ j, j < lineBytes y.card i → s.mayAccess (s.ownerN g) true (itemAddr y.card 1 n q (32 * i + j)) = true)
      → s.Still (s.landStamp (k.val / 4) now) (itemAddr y.card 1 n q (32 * i)) 32 → g / 16 = k.val / 4
      → ∃ t, exec (.d2dReadData k x may now) s = .next t
        ∧ t.rdBytes (itemAddr y.card 1 n q (32 * i)) (lineBytes y.card i) = (leBytes 32 (fld x.toNat 256 256)).take (lineBytes y.card i))
    ∧ (∀ (s : State) (k : Fin 52) (x : BitVec 2304) (may : Bool) (now : Nat) (f : Frame) (m : RedMark) (gr : Group), k.val < 32
      → s.NextFrame k 2 x.toNat → s.NoneWaits (k.val / 4) → fld x.toNat 188 4 = s.gen (fld x.toNat 192 6) → fld x.toNat 180 8 = 1
      → f = s.withMarks k (wireSeq x.toNat) (Frame.ofWire x.toNat) → f.red = some m → f.tail = 0 → s.groupOf (fld x.toNat 192 6) m.group = some gr →
      (m.target = k.val / 4 → m.result = false → s.takesFrame (k.val / 4) f = true → 1 < gr.need m.level (k.val / 4)
        → s.combines.find? (fun c => c.part == gr.part && c.group == gr.group && c.item == m.item && c.line == fld x.toNat 108 32 / 32
          && c.level == m.level && c.place == k.val / 4) = none
        → ∃ t, exec (.d2dReduceData k x may now) s = .next t
          ∧ ⟨gr.part, gr.group, m.item, fld x.toNat 108 32 / 32, m.level, k.val / 4,
              [⟨m.rank, s.landStamp (k.val / 4) now, leBytes 32 (fld x.toNat 256 256), bitAt f.bad 0⟩]⟩ ∈ t.combines
          ∧ (t.modEnd k).wantF = ((s.modEnd k).wantF + 1) % 4096 ∧ s.SameBytes t ∧ t.flags = s.flags ∧ t.ctrs = s.ctrs ∧ t.cores = s.cores)
      ∧ (m.target ≠ k.val / 4
        → ∃ t z e, exec (.d2dReduceData k x may now) s = .next t ∧ e = s.routeEnd (k.val / 4) (ringNext (k.val / 4) m.target) 0
          ∧ z.kind = 2 ∧ z.dest = ringNext (k.val / 4) m.target ∧ z.red = some m ∧ z.addr = 32 * (fld x.toNat 108 32 / 32)
          ∧ z.data = leNat (leBytes 32 (fld x.toNat 256 256)) ∧ (z ∈ (t.modEnd e).reqE ∨ ∃ r, (r, z) ∈ (t.modEnd e).replayF)
          ∧ (t.modEnd k).wantF = ((s.modEnd k).wantF + 1) % 4096 ∧ t.combines = s.combines ∧ s.SameBytes t ∧ t.flags = s.flags
          ∧ t.ctrs = s.ctrs ∧ t.cores = s.cores))
    ∧ ∀ (s : State) (k : Fin 52) (x : BitVec 2304) (now : Nat) (may : Bool), (s.modEnd k).outOfService = false
      → (s.modEnd k).retraining = false → s.joinLive k = true → (k.val < 32 → s.NoneWaits (k.val / 4)) → frameCheck x.toNat = false
      → ∃ t, exec (.d2dWrite k x may now) s = .next t ∧ exec (.d2dReadData k x may now) s = .next t
        ∧ exec (.d2dReduceData k x may now) s = .next t
        ∧ t.f64 (endCount k) 32 32 = min (s.f64 (endCount k) 32 32 + 1) (2 ^ 32 - 1) ∧ t = { s.seeHold (k.val / 4) now with regs := t.regs, out := t.out }
        ∧ s.SameRegsBut t (pairOf (endCount k)) ∧ t.out.length = s.out.length + (if may then 1 else 0)

/-- The message a die's module end expects next moves on the expected SEQ. A SIGNAL of the present generation sets or clears its flag,
or adds to its counter, in the cycle of its arrival. A READ_REQ of one line that the partition may read puts a READ_DATA frame with
that line's bytes into RSP egress for the asker. A WRITE_REPORT lowers the lines its item awaits, and one without a holder
counts as late. HOUR notes the opened Hour, at the IOD the die's arrival. IDLE changes nothing. No memory byte changes. (R223,
R228, R254, R260, R261, R450, 09_fabric_and_die_links.md) -/
def Obligations.MessagesLandOnTheirDie : Prop :=
  (∀ (s : State) (k : Fin 52) (x : BitVec 256) (lc : Fin 128) (may : Bool) (now key : Nat), k.val < 32 → s.NextMsg k 0 x.toNat
      → s.NoneWaits (k.val / 4) → fld x.toNat 50 4 = s.gen (fld x.toNat 44 6) → key = flagKey (k.val / 4) (fld x.toNat 40 2) (fld x.toNat 32 8)
      → ∃ t, exec (.d2dSignal k x lc may now) s = .next t ∧ (t.modEnd k).wantM = ((s.modEnd k).wantM + 1) % 4096 ∧ s.SameBytes t ∧ t.cores = s.cores
        ∧ (fld x.toNat 42 1 = 0 → (∀ i, t.flag i = if i = key then
              (let y := (s.flagCycle (k.val / 4) now).flagCell key
               if fld x.toNat 43 1 = 0 then { y with sets := y.sets + 1 } else { y with clears := y.clears + 1 } : FlagCell).result else s.flag i)
          ∧ t.ctrs = s.ctrs)
        ∧ (fld x.toNat 42 1 = 1 → (∀ i, t.ctr i = if i = key then
              (let y := (s.flagCycle (k.val / 4) now).ctrCell key; ({ y with adds := y.adds + fld x.toNat 0 32 } : CtrCell).result) else s.ctr i)
          ∧ t.flags = s.flags)
        ∧ ((s.die (k.val / 4)).flagT ≠ now → (fld x.toNat 42 1 = 0 → t.flag key = (fld x.toNat 43 1 == 0))
          ∧ (fld x.toNat 42 1 = 1 → t.ctr key = (s.ctr key + fld x.toNat 0 32) % 2 ^ 32)))
    ∧ (∀ (s : State) (k : Fin 52) (x : BitVec 256) (may : Bool) (now : Nat), k.val < 32 → s.NextMsg k 1 x.toNat → s.NoneWaits (k.val / 4)
      → fld x.toNat 58 4 = s.gen (fld x.toNat 52 6) → fld x.toNat 62 8 = 0 → s.lineOk (fld x.toNat 52 6) false (k.val / 4 * 2 ^ 36 + fld x.toNat 0 36) = true
      → (s.mesh (k.val / 4)).idle = true → s.Still (s.engCycle (k.val / 4) now) (k.val / 4 * 2 ^ 36 + fld x.toNat 0 36) 32
      → s.Sound (k.val / 4 * 2 ^ 36 + fld x.toNat 0 36) 32
      → ∃ t f, exec (.d2dReadReq k x may now) s = .next t ∧ (t.modEnd k).wantM = ((s.modEnd k).wantM + 1) % 4096
        ∧ f.kind = 1 ∧ f.src = k.val / 4 ∧ f.dest = fld x.toNat 204 4 ∧ f.tag = fld x.toNat 36 16 ∧ f.lmask = 1
        ∧ fld f.data 0 256 = leNat (s.rdBytes (k.val / 4 * 2 ^ 36 + fld x.toNat 0 36) 32)
        ∧ (f ∈ (t.modEnd (s.routeEnd (k.val / 4) f.dest 1)).rspE ∨ ∃ q, (q, f) ∈ (t.modEnd (s.routeEnd (k.val / 4) f.dest 1)).replayF)
        ∧ s.SameBytes t ∧ t.flags = s.flags ∧ t.ctrs = s.ctrs ∧ t.cores = s.cores ∧ t.parts = s.parts)
    ∧ (∀ (s : State) (k : Fin 52) (x : BitVec 256) (may : Bool) (now g n : Nat) (y : Flight), k.val < 32 → s.NextMsg k 2 x.toNat
      → s.NoneWaits (k.val / 4) →
      (fld x.toNat 34 4 = s.gen (fld x.toNat 28 6) → s.tagHolder (k.val / 4) (fld x.toNat 0 16) = some (g, y, n)
        → fld x.toNat 16 12 < Tab.get (fun _ => 0) y.awaited n
        → ∃ t, exec (.d2dWriteReport k x may now) s = .next t ∧ (t.modEnd k).wantM = ((s.modEnd k).wantM + 1) % 4096
          ∧ (∃ y', y' ∈ (t.core g).flights ∧ y'.seq = y.seq ∧ Tab.get (fun _ => 0) y'.awaited n = Tab.get (fun _ => 0) y.awaited n - fld x.toNat 16 12)
          ∧ s.SameBytes t ∧ t.flags = s.flags ∧ t.ctrs = s.ctrs ∧ ∀ h, h ≠ g → t.core h = s.core h)
      ∧ (s.tagHolder (k.val / 4) (fld x.toNat 0 16) = none
        → ∃ t, exec (.d2dWriteReport k x may now) s = .next t ∧ t.f64 Reg.tclTxnCount1 8 12 = min (s.f64 Reg.tclTxnCount1 8 12 + 1) (2 ^ 12 - 1)
          ∧ s.SameBytes t ∧ t.flags = s.flags ∧ t.ctrs = s.ctrs ∧ t.cores = s.cores))
    ∧ (∀ (s : State) (k : Fin 52) (x : BitVec 256) (may : Bool), s.NextMsg k 6 x.toNat →
      (k.val < 32 → ∃ t, exec (.d2dHour k x may) s = .next t ∧ (t.modEnd k).wantM = ((s.modEnd k).wantM + 1) % 4096
        ∧ t.die (k.val / 4) = { s.die (k.val / 4) with heardOpen := fld x.toNat 0 64 } ∧ t = { s with dies := t.dies, mods := t.mods, out := t.out })
      ∧ (32 ≤ k.val → k.val < 48 → fld x.toNat 200 4 = 8
        → ∃ t, exec (.d2dHour k x may) s = .next t ∧ t.die (fld x.toNat 204 4) = { s.die (fld x.toNat 204 4) with heardArrive := fld x.toNat 0 64 }
          ∧ t = { s with dies := t.dies, mods := t.mods, out := t.out }))
    ∧ ∀ (s : State) (k : Fin 52) (x : BitVec 256), (s.modEnd k).outOfService = false → msgCheck x.toNat = true → exec (.d2dIdle k x) s = .next s

/-- With nothing waiting in egress, CREDIT notes FREED of its queue, ACK drops what it covers, and a NAK for a held SEQ counts one
replay and sends everything from that SEQ on again. D2D_ACK_TIMER acknowledges accepted frames. A retrain that succeeds brings
both ends back, a second failure in a row takes both out of service. A SPARE lane takes the role of a failed TENSOR or CONTROL
lane at both ends, which count it (which of the SPARE lanes is the model's reading, log entry 15). (R250, R251, R254, R255,
R256, 09_fabric_and_die_links.md) -/
def Obligations.ModulesAcknowledgeReplayRetrainAndNarrow : Prop :=
  (∀ (s : State) (k : Fin 52) (x : BitVec 256), (s.modEnd k).outOfService = false → msgCheck x.toNat = true → wireSeq x.toNat = 0
      → (s.modEnd k).reqE = [] → (s.modEnd k).rspE = [] → (s.modEnd k).ctlE = [] → (s.modEnd k).ctlW = [] →
      (fld x.toNat 208 4 = 3 → ∃ t, exec (.d2dCredit k x) s = .next t ∧ (t.modEnd k).freedGotOf (fld x.toNat 32 2) = fld x.toNat 0 32
        ∧ (∀ q, q ≠ fld x.toNat 32 2 → (t.modEnd k).freedGotOf q = (s.modEnd k).freedGotOf q) ∧ (∀ j, j ≠ k.val → t.modEnd j = s.modEnd j)
        ∧ t = { s.seeHold (k.val / 4) ((s.die (k.val / 4)).flagT + 1) with mods := t.mods })
      ∧ (fld x.toNat 208 4 = 4 → ∃ t, exec (.d2dAck k x) s = .next t
        ∧ (bitAt x.toNat 12 = false → (t.modEnd k).replayF = (s.modEnd k).replayF.filter (fun e => !seqCovers (fld x.toNat 0 12) e.1)
          ∧ (t.modEnd k).replayM = (s.modEnd k).replayM)
        ∧ (bitAt x.toNat 12 = true → (t.modEnd k).replayM = (s.modEnd k).replayM.filter (fun e => !seqCovers (fld x.toNat 0 12) e.1)
          ∧ (t.modEnd k).replayF = (s.modEnd k).replayF)
        ∧ (∀ j, j ≠ k.val → t.modEnd j = s.modEnd j) ∧ t = { s with mods := t.mods })
      ∧ (fld x.toNat 208 4 = 5 → (s.modEnd k).retraining = false → fld x.toNat 12 1 = 0 → (∃ f, (fld x.toNat 0 12, f) ∈ (s.modEnd k).replayF)
        → (s.modEnd k).nakF.2 < 15
        → ∃ t, exec (.d2dNak k x) s = .next t ∧ bitAt (t.r32 (endStatus k)) 0 = true
          ∧ t.f64 (endCount k) 8 24 = min (s.f64 (endCount k) 8 24 + 1) (2 ^ 24 - 1)
          ∧ t.out = s.out ++ ((s.modEnd k).replayF.filter (fun e => seqCovers e.1 (fld x.toNat 0 12))).map (fun e => Output.d2dFrame k (e.2.wire e.1))
          ∧ (t.modEnd k).replayF = (s.modEnd k).replayF ∧ t = { s with regs := t.regs, mods := t.mods, out := t.out }
          ∧ s.SameRegsBut t (fun a => a == endStatus k || pairOf (endCount k) a)))
    ∧ (∀ (s : State) (k : Fin 52), (s.modEnd k).up = true → 0 < (s.modEnd k).gotF → (s.modEnd k).gotM = 0
      → ∃ t w, exec (.d2dAckTimer k) s = .next t ∧ t.out = s.out ++ [.d2dMsg k w] ∧ fld w 208 4 = 4 ∧ fld w 0 13 = ((s.modEnd k).wantF + 4095) % 4096
        ∧ t.modEnd k = { s.modEnd k with gotF := 0 } ∧ t = { s with mods := t.mods, out := t.out })
    ∧ (∀ (s : State) (k : Fin 52), (s.modEnd k).retraining = true →
      (∃ t, exec (.d2dRetrainComplete k true) s = .next t ∧ (t.modEnd k).retraining = false ∧ (t.modEnd (otherEnd k)).retraining = false
        ∧ (t.modEnd k).failedRetrains = 0 ∧ bitAt (t.r32 (endStatus k)) 3 = true ∧ bitAt (t.r32 (endStatus (otherEnd k))) 3 = true ∧ s.SameBytes t)
      ∧ (1 ≤ (s.modEnd k).failedRetrains
        → ∃ t, exec (.d2dRetrainComplete k false) s = .next t ∧ (t.modEnd k).outOfService = true ∧ (t.modEnd (otherEnd k)).outOfService = true
          ∧ bitAt (t.r32 (endStatus k)) 4 = true ∧ bitAt (t.r32 (endStatus (otherEnd k))) 4 = true ∧ s.SameBytes t))
    ∧ ∀ (s : State) (k : Fin 52) (lane : Fin 64) (sp : Nat) (rest : List Nat), (s.modEnd k).outOfService = false → (s.laneRoles k).getD lane 3 ≤ 1
      → lanesOf (s.laneRoles k) 2 = sp :: rest
      → ∃ t, exec (.d2dLaneFailure k lane) s = .next t ∧ (t.laneRoles k).getD lane 0 = 3 ∧ (t.laneRoles k).getD sp 0 = (s.laneRoles k).getD lane 3
        ∧ t.laneRoles (otherEnd k) = t.laneRoles k ∧ bitAt (t.r32 (endStatus k)) 1 = true ∧ bitAt (t.r32 (endStatus (otherEnd k))) 1 = true
        ∧ t = { s with regs := t.regs }

/-- When a core may issue, the card at its queue's head has the command's opcode, its gap is over, its unit accepts it, its fence is
met and its waits hold without consuming, and no signal of it is given at issue, then the card issues: it is numbered and in
flight, POS and CARDS advance. A MATMUL card takes the run position of every engine of its mask or else its waiting slot, a
VECTOR card the vector engine's. MOVE, MULTICAST and REDUCE leave the engines alone. Only that core and its registers change.
(R106, R141, R192, R193, R200, R203, R204, R205, R206, 07_layer_cards.md) -/
def Obligations.CardsIssueToTheirUnits : Prop :=
  ∀ (s : State) (d : Fin 8) (c : Fin 16) (t card : Nat), s.Ready (16 * d.val + c.val) card t → s.WaitsHold card t → quietCard card 0 →
    (cardOp card = 1 → ∃ u, exec (.matmul d c t) s = .next u ∧ s.Issued u (16 * d.val + c.val) card t ∧ u = { s with cores := u.cores, regs := u.regs }
      ∧ u.seqState (16 * d.val + c.val) = afterCard card ∧ (u.core (16 * d.val + c.val)).vec = (s.core (16 * d.val + c.val)).vec
      ∧ ∀ e, (u.core (16 * d.val + c.val)).eng e =
        if e < 64 ∧ bitAt (cardEngMask card) e = true
        then (if ((s.core (16 * d.val + c.val)).eng e).run = none
          then { (s.core (16 * d.val + c.val)).eng e with run := some (s.core (16 * d.val + c.val)).seq, iter := 0 }
          else { (s.core (16 * d.val + c.val)).eng e with wait := some (s.core (16 * d.val + c.val)).seq })
        else (s.core (16 * d.val + c.val)).eng e)
    ∧ (cardOp card = 2 → ∃ u, exec (.vectorCard d c t) s = .next u ∧ s.Issued u (16 * d.val + c.val) card t
      ∧ u = { s with cores := u.cores, regs := u.regs } ∧ u.seqState (16 * d.val + c.val) = afterCard card
      ∧ (u.core (16 * d.val + c.val)).engines = (s.core (16 * d.val + c.val)).engines
      ∧ (u.core (16 * d.val + c.val)).vec =
        if (s.core (16 * d.val + c.val)).vec.run = none
        then { (s.core (16 * d.val + c.val)).vec with run := some (s.core (16 * d.val + c.val)).seq, iter := 0, group := 0 }
        else { (s.core (16 * d.val + c.val)).vec with wait := some (s.core (16 * d.val + c.val)).seq })
    ∧ (cardOp card = 3 → ∃ u, exec (.moveCard d c t) s = .next u ∧ s.Issued u (16 * d.val + c.val) card t
      ∧ u = { s with cores := u.cores, regs := u.regs } ∧ u.seqState (16 * d.val + c.val) = afterCard card
      ∧ (u.core (16 * d.val + c.val)).engines = (s.core (16 * d.val + c.val)).engines ∧ (u.core (16 * d.val + c.val)).vec = (s.core (16 * d.val + c.val)).vec)
    ∧ (cardOp card = 4 → ∃ u, exec (.multicast d c t) s = .next u ∧ s.Issued u (16 * d.val + c.val) card t
      ∧ u = { s with cores := u.cores, regs := u.regs } ∧ u.seqState (16 * d.val + c.val) = afterCard card
      ∧ (u.core (16 * d.val + c.val)).engines = (s.core (16 * d.val + c.val)).engines ∧ (u.core (16 * d.val + c.val)).vec = (s.core (16 * d.val + c.val)).vec)
    ∧ (cardOp card = 5 → ∃ u, exec (.reduceCard d c t) s = .next u ∧ s.Issued u (16 * d.val + c.val) card t
      ∧ u = { s with cores := u.cores, regs := u.regs } ∧ u.seqState (16 * d.val + c.val) = afterCard card
      ∧ (u.core (16 * d.val + c.val)).engines = (s.core (16 * d.val + c.val)).engines ∧ (u.core (16 * d.val + c.val)).vec = (s.core (16 * d.val + c.val)).vec
      ∧ Tab.get (fun _ => 0) (u.core (16 * d.val + c.val)).reduceSeq (bodyF card 8 16)
        = Tab.get (fun _ => 0) (s.core (16 * d.val + c.val)).reduceSeq (bodyF card 8 16) + cardIters card)

/-- Under the conditions of R192, with waits that hold without consuming and no signals, a NOP, DIGEST or HOUR_MARK card issues and
is complete in its issue cycle. A NOP adds its card digest to those not yet folded. A DIGEST folds the digests since the
previous DIGEST, in stream order, into its layer's digest, which CLOSE reports with the step and generation. An HOUR_MARK opens
its step at its position, and with ALIGN the sequencer waits for the next Hour's start unless the stream ended with it. (R185, R193, R207, R208, R209, R210, R277,
R278, R281, 07_layer_cards.md) -/
def Obligations.SequencerCardsCompleteInTheirIssueCycle : Prop :=
  ∀ (s : State) (d : Fin 8) (c : Fin 16) (t card : Nat), s.Ready (16 * d.val + c.val) card t → s.WaitsHold card t → (s.core (16 * d.val + c.val)).Numbered
    → quietCard card 0 → quietCard card 1 → quietCard card 3 →
    (cardOp card = 0 → ∃ u f, exec (.nopCard d c t) s = .next u ∧ s.Issued u (16 * d.val + c.val) card t ∧ u = { s with cores := u.cores, regs := u.regs }
      ∧ u.seqState (16 * d.val + c.val) = afterCard card
      ∧ f ∈ (u.core (16 * d.val + c.val)).flights ∧ f.seq = (s.core (16 * d.val + c.val)).seq
      ∧ f.localAt = some (s.engCycle d t) ∧ f.fullAt = some (s.engCycle d t)
      ∧ (u.core (16 * d.val + c.val)).unfolded = (s.core (16 * d.val + c.val)).unfolded
        ++ [(s.seqPos (16 * d.val + c.val), crc64 (leBytes 3 (s.seqPos (16 * d.val + c.val)) ++ leBytes 1 0 ++ leBytes 4 (cardIters card - 1)))]
      ∧ (u.core (16 * d.val + c.val)).layers = (s.core (16 * d.val + c.val)).layers ∧ (u.core (16 * d.val + c.val)).engines = (s.core (16 * d.val + c.val)).engines
      ∧ (u.core (16 * d.val + c.val)).vec = (s.core (16 * d.val + c.val)).vec ∧ (u.core (16 * d.val + c.val)).step = (s.core (16 * d.val + c.val)).step)
    ∧ (cardOp card = 6 → ∀ acc, acc = ((s.core (16 * d.val + c.val)).layers.find? (fun x => x.1 == bodyF card 0 16)).elim 0 (·.2)
      → (s.core (16 * d.val + c.val)).unfolded.Pairwise (fun x y => x.1 < y.1)
      → (∀ x, x ∈ (s.core (16 * d.val + c.val)).unfolded → x.1 < s.seqPos (16 * d.val + c.val))
      → ∃ u f v, exec (.digestCard d c t) s = .next u ∧ s.Issued u (16 * d.val + c.val) card t ∧ u = { s with cores := u.cores, regs := u.regs }
        ∧ u.seqState (16 * d.val + c.val) = afterCard card
        ∧ f ∈ (u.core (16 * d.val + c.val)).flights ∧ f.seq = (s.core (16 * d.val + c.val)).seq
        ∧ f.localAt = some (s.engCycle d t) ∧ f.fullAt = some (s.engCycle d t)
        ∧ v = crc64 (leBytes 8 acc ++ ((s.core (16 * d.val + c.val)).unfolded.map (fun x => leBytes 8 x.2)).flatten)
        ∧ (u.core (16 * d.val + c.val)).unfolded = [] ∧ (u.core (16 * d.val + c.val)).engines = (s.core (16 * d.val + c.val)).engines
        ∧ (u.core (16 * d.val + c.val)).vec = (s.core (16 * d.val + c.val)).vec
        ∧ (bodyF card 16 1 = 1 → (u.core (16 * d.val + c.val)).closed = (s.core (16 * d.val + c.val)).closed
            ++ [⟨bodyF card 0 16, (s.core (16 * d.val + c.val)).step, s.gen (s.ownerN (16 * d.val + c.val)), v⟩]
          ∧ (u.core (16 * d.val + c.val)).layers.find? (fun x => x.1 == bodyF card 0 16) = none)
        ∧ (bodyF card 16 1 = 0 → (u.core (16 * d.val + c.val)).closed = (s.core (16 * d.val + c.val)).closed
          ∧ (u.core (16 * d.val + c.val)).layers.find? (fun x => x.1 == bodyF card 0 16) = some (bodyF card 0 16, v)))
    ∧ (cardOp card = 7 → ∃ u f, exec (.hourMark d c t) s = .next u ∧ s.Issued u (16 * d.val + c.val) card t
      ∧ u = { s with cores := u.cores, regs := u.regs }
      ∧ f ∈ (u.core (16 * d.val + c.val)).flights ∧ f.seq = (s.core (16 * d.val + c.val)).seq
      ∧ f.localAt = some (s.engCycle d t) ∧ f.fullAt = some (s.engCycle d t)
      ∧ (u.core (16 * d.val + c.val)).step = bodyF card 0 32 ∧ (u.core (16 * d.val + c.val)).markPos = s.seqPos (16 * d.val + c.val)
      ∧ (u.core (16 * d.val + c.val)).engines = (s.core (16 * d.val + c.val)).engines ∧ (u.core (16 * d.val + c.val)).vec = (s.core (16 * d.val + c.val)).vec
      ∧ (bodyF card 32 1 = 1 → afterCard card = 1 → u.seqState (16 * d.val + c.val) = 2
        ∧ (u.core (16 * d.val + c.val)).alignHour = some (ceilDiv (s.schedCount d t) s.hourLen))
      ∧ (bodyF card 32 1 = 0 ∨ afterCard card = 3 → u.seqState (16 * d.val + c.val) = afterCard card
        ∧ (u.core (16 * d.val + c.val)).alignHour = (s.core (16 * d.val + c.val)).alignHour))

/-- For a NOP card that is otherwise ready and whose only valid wait is WAIT0: a consuming flag wait that no lower core of the die takes
first clears its flag, a consuming counter wait subtracts its VALUE, and the card issues. Where the flag was set at the cycle's
start but its consumption has been granted already, the card does not issue and CONTESTED is set and counted. Where an internal
wait does not hold, the card stays blocked for kind 0 from this cycle. A card whose only valid signal is an ISSUED flag signal to
its own die sets or clears that flag. No memory byte changes. (R192, R194, R195, R196, R220, R235, R237,
08_flags_ordering_interlocks.md) -/
def Obligations.WaitsConsumeBlockAndLoseGrants : Prop :=
  ∀ (s : State) (d : Fin 8) (c : Fin 16) (g t card w : Nat), g = 16 * d.val + c.val → w = cardWait card 0 → s.Ready g card t → (s.core g).Numbered
    → cardOp card = 0 → quietCard card 1 → quietCard card 3 → (∀ i, 0 < i → i < 4 → waitValid (cardWait card i) = false) →
    (quietCard card 0 → waitValid w = true → (s.die (waitKey w / 1024)).flagT ≠ t →
      (waitConsume w = true → fld w 60 3 = 0 → s.flag (waitKey w) = true → ((s.lowerGrants g t).grantWaits card t [0, 1, 2, 3]).2 = none
        → ∃ u, exec (.nopCard d c t) s = .next u ∧ s.Issued u g card t ∧ (∀ k, u.flag k = if k = waitKey w then false else s.flag k) ∧ u.ctrs = s.ctrs
          ∧ u = { s with cores := u.cores, regs := u.regs, flags := u.flags, dies := u.dies, parts := u.parts
                         hour := { s.hour with copies := u.hour.copies } })
      ∧ (waitConsume w = true → fld w 60 3 = 2 → ctrCond 2 (s.ctr (waitKey w)) (fld w 0 32) = true
        → ((s.lowerGrants g t).grantWaits card t [0, 1, 2, 3]).2 = none
        → ∃ u, exec (.nopCard d c t) s = .next u ∧ s.Issued u g card t
          ∧ (∀ k, u.ctr k = if k = waitKey w then (s.ctr k + 2 ^ 32 - fld w 0 32) % 2 ^ 32 else s.ctr k) ∧ u.flags = s.flags
          ∧ u = { s with cores := u.cores, regs := u.regs, ctrs := u.ctrs, dies := u.dies, parts := u.parts
                         hour := { s.hour with copies := u.hour.copies } })
      ∧ (waitExt w = false → fld w 60 3 = 0 → s.flag (waitKey w) = false → (s.core g).blocked = none
        → ∃ u, exec (.nopCard d c t) s = .next u ∧ u.core g = { s.core g with blocked := some { kind := 0, slot := 0, since := s.engCycle d t } }
          ∧ (∀ h, h ≠ g → u.core h = s.core h) ∧ u = { s with cores := u.cores }))
    ∧ (waitValid w = true → waitConsume w = true → fld w 60 3 = 0 → s.evalFlag (waitKey w) t = true → s.grantedFlag (waitKey w) t = false
      → s.signalsFit g card 0 = true
      → ∃ u, exec (.nopCard d c t) s = .next u ∧ (u.core g).seq = (s.core g).seq ∧ (u.core g).queue = (s.core g).queue
        ∧ (u.core g).flights = (s.core g).flights ∧ bitAt (u.r32 (Reg.cdFlagStatus d)) 1 = true
        ∧ u.f64 (Reg.cdFlagCount d (fld w 50 7 % 16 / 4)) 0 32 = min (s.f64 (Reg.cdFlagCount d (fld w 50 7 % 16 / 4)) 0 32 + 1) (2 ^ 32 - 1)
        ∧ u = { s with cores := u.cores, regs := u.regs })
    ∧ (waitValid w = false → bitAt (cardSignal card 0) 63 = true → fld (cardSignal card 0) 61 2 = 0 → bitAt (cardSignal card 0) 60 = false
      → fld (cardSignal card 0) 51 7 / 16 = d.val → fld (cardSignal card 0) 58 1 = 0 → (∀ i, 0 < i → i < 4 → bitAt (cardSignal card i) 63 = false)
      → (s.die d).flagT ≠ t
      → ∃ u, exec (.nopCard d c t) s = .next u ∧ (u.core g).seq = (s.core g).seq + 1
        ∧ (∀ k, u.flag k = if k = entryKey (fld (cardSignal card 0) 51 7) (fld (cardSignal card 0) 32 8)
            then fld (cardSignal card 0) 59 1 == 0 else s.flag k)
        ∧ u.ctrs = s.ctrs ∧ s.SameBytes u ∧ ∀ h, h ≠ g → u.core h = s.core h)

/-- CARD_FETCH, once the oldest request has been under way for its hops (one cycle more for a request that would reach its slice in a
service cycle) and at most 15 cards stand in the queue, appends the card as it stood in shared memory when the request reached the
slice, and counts the cycles that only the queue held the issue; a byte outside the partition's ranges makes the partition record
a stop. CARD_LOCAL_COMPLETION of a card whose work is done marks it locally complete; with no report outstanding it is fully
complete in the same cycle and its digest joins those not yet folded, and its COMPLETE signal sets its flag. No memory byte and no
other core changes. (R163, R171, R186, R197, R198, R199, R277, 07_layer_cards.md) -/
def Obligations.CardsAreFetchedAndCompleteLocally : Prop :=
  (∀ (s y : State) (d : Fin 8) (c : Fin 16) (g t p r a x k : Nat) (rest : List (Nat × Nat)) (up : List (BitVec 37)), g = 16 * d.val + c.val
      → y = s.upset up → s.dieRuns d t = true → (s.core g).asked = (p, r) :: rest → (s.core g).queue.length < 16 → a = s.cardAddr g p
      → k = hops (sliceNode (addrOffset a / 2 ^ 28)) (coreNode c) → x = r + 2 * k + (if s.countAt d (r + 2 * k) % 16 = 15 then 1 else 0)
      → x + 2 * k + 9 ≤ s.engCycle d t →
      (y.MayRead (s.ownerN g) ((List.range 256).map (a + ·))
        → ∃ u, exec (.cardFetch d c t up) s = .next u
          ∧ u.core g = { s.core g with
            asked := rest, queue := (s.core g).queue ++ [(p, leNat ((List.range 256).map (fun i => s.asOf x (a + i))))], fetchFrom := none }
          ∧ (∀ h, h ≠ g → u.core h = s.core h)
          ∧ u.r64 (Reg.coreSeqStall d c) = min (s.r64 (Reg.coreSeqStall d c) + ((s.core g).fetchFrom.elim 0 (fun z => s.engCycle d t - z))) (2 ^ 64 - 1)
          ∧ u = { y with cores := u.cores, regs := u.regs } ∧ s.SameRegsBut u (pairOf (Reg.coreSeqStall d c)))
      ∧ ∀ i, i < 256 → s.mayAccess (s.ownerN g) false (a + i) = false
        → ∃ u, exec (.cardFetch d c t up) s = .next u ∧ (u.core g).asked = rest ∧ (u.part (s.ownerN g)).stop ≠ none ∧ s.SameBytes u
          ∧ ∀ h, h ≠ g → u.core h = s.core h)
    ∧ (∀ (s : State) (d : Fin 8) (c : Fin 16) (g pos t : Nat) (f : Flight), g = 16 * d.val + c.val → s.dieRuns d t = true → (s.core g).Numbered
      → (s.core g).flights.find? (fun y => y.pos == pos && y.localAt.isNone) = some f → (s.core g).workDone f (s.engCycle d t) = true
      → quietCard f.card 3 →
      (f.reported = true → quietCard f.card 1 → cardOp f.card ≠ 6
        → ∃ u, exec (.cardLocalCompletion d c pos t) s = .next u
          ∧ (u.core g).flight f.seq = some { f with localAt := some (s.engCycle d t), fullAt := some (s.engCycle d t) }
          ∧ (∀ q, q ≠ f.seq → (u.core g).flight q = (s.core g).flight q)
          ∧ (u.core g).unfolded = (s.core g).unfolded
            ++ [(f.pos, crc64 (leBytes 3 f.pos ++ leBytes 1 (cardOp f.card) ++ leBytes 4 (cardIters f.card - 1) ++ (f.wrote.map (·.2)).flatten))]
          ∧ (∀ h, h ≠ g → u.core h = s.core h) ∧ u = { s with cores := u.cores, regs := u.regs } ∧ s.SameRegsBut u (issueRegs g))
      ∧ (f.reported = false → quietCard f.card 1
        → ∃ u, exec (.cardLocalCompletion d c pos t) s = .next u ∧ (u.core g).flight f.seq = some { f with localAt := some (s.engCycle d t) }
          ∧ (∀ q, q ≠ f.seq → (u.core g).flight q = (s.core g).flight q) ∧ (u.core g).unfolded = (s.core g).unfolded
          ∧ (∀ h, h ≠ g → u.core h = s.core h) ∧ u = { s with cores := u.cores })
      ∧ (bitAt (cardSignal f.card 0) 63 = true → fld (cardSignal f.card 0) 61 2 = 1 → bitAt (cardSignal f.card 0) 60 = false
        → fld (cardSignal f.card 0) 51 7 / 16 = d.val → fld (cardSignal f.card 0) 58 1 = 0 → (∀ i, 0 < i → i < 4 → bitAt (cardSignal f.card i) 63 = false)
        → (s.die d).flagT ≠ t
        → ∃ u, exec (.cardLocalCompletion d c pos t) s = .next u
          ∧ (∃ h, h ∈ (u.core g).flights ∧ h.seq = f.seq ∧ h.localAt = some (s.engCycle d t))
          ∧ (∀ k, u.flag k = if k = entryKey (fld (cardSignal f.card 0) 51 7) (fld (cardSignal f.card 0) 32 8)
              then fld (cardSignal f.card 0) 59 1 == 0 else s.flag k)
          ∧ u.ctrs = s.ctrs ∧ s.SameBytes u))

/-- At reset, and after each command of the card sequencer that starts where it holds, the cards in flight of every core have rising
numbers, all below the number that the core's next card gets. This is the invariant that the statements about completion assume.
(R192, R198, 07_layer_cards.md) -/
def Obligations.CardsKeepRisingNumbers : Prop :=
  (∀ g, (State.reset.core g).Numbered) ∧ ∀ (s : State) (d : Fin 8) (c : Fin 16) (t pos : Nat) (up : List (BitVec 37)), (∀ g, (s.core g).Numbered) →
    ∀ i, i ∈ [Instr.cardFetch d c t up, .nopCard d c t, .matmul d c t, .vectorCard d c t, .moveCard d c t, .multicast d c t, .reduceCard d c t,
      .digestCard d c t, .hourMark d c t, .cardLocalCompletion d c pos t] → ∃ u, exec i s = .next u ∧ ∀ g, (u.core g).Numbered

/-- What comes before a command of the units of a die has been done by then: `y` is that state. PRESCAN of the next pass begins at the
latest of the end of the scan before it, the start of the pass before it, the cycle after its card's issue and the one after the
last release of a writer of its scale lines, and reads one block position a cycle that the feed and the fills leave its banks.
PASS_START, from the latest of the pass before it, its card's feed, its bank, its PRESCAN and its interlocks on, starts the pass
for T cycles with its bank as R113 begins it, frees or refills the run position, counts the pass and the cycles its bank and its
PRESCAN held it. A source byte outside the partition's ranges makes the partition record a stop. Nothing else changes. (R81, R105,
R111, R112, R113, R114, R121, R171, R228, R229, 04_matrix_engine.md) -/
def Obligations.PassesScanAndStart : Prop :=
  (∀ (s y : State) (d : Fin 8) (c : Fin 16) (e : Fin 64) (g t n r q : Nat) (f : Flight) (up : List (BitVec 37)), g = 16 * d.val + c.val
      → y = (s.upset up).meshTo d (s.engCycle d t) → y.dieRuns d t = true → (y.core g).nextPass e = some (f, n) → mmScans f.card n = true
      → ((y.core g).eng e).scan = none → (y.core g).scanFrom g e f n = some r
      → q = max (max ((y.core g).eng e).scanFree ((y.core g).eng e).lastS) (max (f.issue + 1) r) → q ≤ s.engCycle d t →
      ((∀ k, k < 2 → ∀ b, b < scanBlocks f.card → ∀ l, scaleAddrs g e f.card k n b = some l → y.MayRead (y.ownerN g) l)
        → ∃ u p, exec (.prescan d c e t up) s = .next u ∧ (u.core g).eng e = { (y.core g).eng e with scan := some p }
          ∧ p.seq = f.seq ∧ p.iter = n ∧ p.reads.length ≤ scanBlocks f.card ∧ p.reads.length ≤ s.engCycle d t - q ∧ p.at' ≤ s.engCycle d t
          ∧ q + p.reads.length ≤ p.fin ∧ p.fin ≤ p.at' ∧ (p.reads.length = scanBlocks f.card ∨ p.at' = s.engCycle d t)
          ∧ y.OnlyEngine u g e f.seq ∧ (u.core g).flights = (y.core g).flights ∧ u = { y with cores := u.cores })
      ∧ ∀ k l a, k < 2 → (∃ b, b < scanBlocks f.card ∧ scaleAddrs g e f.card k n b = some l) → a ∈ l → y.mayAccess (y.ownerN g) false a = false
        → ∃ u, exec (.prescan d c e t up) s = .next u ∧ (u.part (y.ownerN g)).stop ≠ none ∧ y.SameBytes u)
    ∧ (∀ (s : State) (g e cyc : Nat) (f : Flight) (p : Prescan), p.reads.length < scanBlocks f.card → p.at' ≤ cyc → ∀ x, x = s.scanCycle g e cyc f p →
      ((∀ k, k < 2 → (s.core g).feedBanks g e k cyc = [] ∧ (s.core g).fillBanks e k cyc = [])
        → x = { p with at' := cyc + 1, fin := cyc + 1, reads := p.reads ++ [
          ((scaleAddrs g e f.card 0 p.iter p.reads.length).map (List.map (fun a => (s.readAsOf (s.ownerN g) cyc a).toNat)),
            (scaleAddrs g e f.card 1 p.iter p.reads.length).map (List.map (fun a => (s.readAsOf (s.ownerN g) cyc a).toNat)))] })
      ∧ ((∃ k a l, k < 2 ∧ scaleAddrs g e f.card k p.iter p.reads.length = some (a :: l)
          ∧ bufferBank a ∈ (s.core g).feedBanks g e k cyc ++ (s.core g).fillBanks e k cyc) → x = { p with at' := cyc + 1 }))
    ∧ ∀ (s y : State) (d : Fin 8) (c : Fin 16) (e : Fin 64) (g t n e1 fT b p st : Nat) (f : Flight) (up : List (BitVec 37)), g = 16 * d.val + c.val
      → y = ((s.upset up).meshTo d (s.engCycle d t)).scanTo g e (s.engCycle d t) → y.dieRuns d t = true → (y.core g).nextPass e = some (f, n)
      → ((y.core g).eng e).terms f n = some (e1, fT, b, p) → ((y.core g).eng e).cur = none → ((y.core g).eng e).bankBusy f.card n = false
      → st = (if ((y.core g).eng e).relAt = 0 then max (max e1 fT) (max b p)
          else max (max (max e1 fT) (max b p)) (((y.core g).eng e).relAt + 4 + mmS f.card)) → st ≤ s.engCycle d t
      → (y.core g).heldKinds f n (some e.val) [0, 1, 2] (st - 4 - mmS f.card) = [] →
      (y.MayRead (y.ownerN g) ((List.range (descRun (cardDesc f.card 0))).map (itemAddr f.card 0 n (g, e.val)))
        → y.MayRead (y.ownerN g) ((List.range (descRun (cardDesc f.card 1))).map (itemAddr f.card 1 n (g, e.val)))
        → ∃ u x, exec (.passStart d c e t up) s = .next u ∧ (u.core g).eng e = x
          ∧ x.cur = some ⟨f.seq, n, st, mmT f.card, 0, mmDrains f.card n⟩ ∧ x.lastS = st ∧ x.lastE = st + mmT f.card
          ∧ x.bankOf x.passNo = ((y.core g).eng e).startBank f.card n ∧ x.passNo = ((y.core g).eng e).passNo
          ∧ x.bankOf (x.passNo + 1) = ((y.core g).eng e).bankOf (x.passNo + 1)
          ∧ (n + 1 = cardIters f.card → x.run = ((y.core g).eng e).wait ∧ x.wait = none ∧ x.iter = 0)
          ∧ (n + 1 ≠ cardIters f.card → x.run = ((y.core g).eng e).run ∧ x.wait = ((y.core g).eng e).wait ∧ x.iter = n + 1)
          ∧ (∃ f', (u.core g).flight f.seq = some f' ∧ doneBy f'.readAt (itemKey 0 e n) (feedReadAt f.card 0 st) = true
            ∧ doneBy f'.readAt (itemKey 1 e n) (feedReadAt f.card 1 st) = true)
          ∧ u.r64 (Reg.engPassCount d c e) = min (y.r64 (Reg.engPassCount d c e) + 1) (2 ^ 64 - 1)
          ∧ u.r64 (Reg.engDrainStall d c e) = min (y.r64 (Reg.engDrainStall d c e) + (b - max e1 fT)) (2 ^ 64 - 1)
          ∧ u.r64 (Reg.engPrescanStall d c e) = min (y.r64 (Reg.engPrescanStall d c e) + (p - max (max e1 fT) b)) (2 ^ 64 - 1)
          ∧ y.OnlyEngine u g e f.seq ∧ u = { y with cores := u.cores, regs := u.regs }
          ∧ y.SameRegsBut u (fun a => pairOf (Reg.engPassCount d c e) a || pairOf (Reg.engDrainStall d c e) a || pairOf (Reg.engPrescanStall d c e) a))
      ∧ ∀ k i, k < 2 → i < descRun (cardDesc f.card k) → y.mayAccess (y.ownerN g) false (itemAddr f.card k n (g, e.val) i) = false
        → ∃ u, exec (.passStart d c e t up) s = .next u ∧ (u.part (y.ownerN g)).stop ≠ none ∧ y.SameBytes u
          ∧ ((u.core g).eng e).cur = some ⟨f.seq, n, st, mmT f.card, 0, mmDrains f.card n⟩

/-- ACCUMULATION_CYCLE, when its cycle has come, puts the cycle's products into the bank and moves on, or at the last cycle ends the
pass: its status bits are set, its rounded results and overflows are counted, and the bank waits for its drain or stays open. In
an INT8 pass that does not shift, a cell holds its old value plus A's element times B's, both as they stood where the card's
descriptors place them when the feed read their lines, while that stays in range. The other bank, the other engines and all memory stay; the meter's tap, the limiter,
CD_RAMP and CD_CLK_COUNT move. (R83, R84, R87, R95, R99, R100, R103, R108, R421, R494, 03_number_formats_and_accumulation.md,
04_matrix_engine.md) -/
def Obligations.PassesAccumulateAndEnd : Prop :=
  (∀ (s : State) (d : Fin 8) (c : Fin 16) (e : Fin 64) (t : Nat) (p : PassRun) (f : Flight), s.Accumulating (16 * d.val + c.val) e t p f →
      (s.cycled (16 * d.val + c.val) e f p).trap = (((s.core (16 * d.val + c.val)).eng e).bankOf ((s.core (16 * d.val + c.val)).eng e).passNo).trap →
      (p.cyc + 1 < p.len → ∃ u x y z, exec (.accumulationCycle d c e t) s = .next u ∧ (u.core (16 * d.val + c.val)).eng e = x
        ∧ x.cur = some { p with cyc := p.cyc + 1 } ∧ x.passNo = ((s.core (16 * d.val + c.val)).eng e).passNo
        ∧ x.bankOf x.passNo = { s.cycled (16 * d.val + c.val) e f p with poisoned := y, ownError := z }
        ∧ x.bankOf (x.passNo + 1) = ((s.core (16 * d.val + c.val)).eng e).bankOf (x.passNo + 1)
        ∧ s.OnlyEngine u (16 * d.val + c.val) e p.seq ∧ u = { s with cores := u.cores, meter := u.meter, power := u.power, regs := u.regs }
        ∧ s.SameRegsBut u (fun a => pairOf (Reg.cdClkCount d) a || a == Reg.cdRamp d))
      ∧ (p.cyc + 1 = p.len → ∃ u x, exec (.accumulationCycle d c e t) s = .next u ∧ (u.core (16 * d.val + c.val)).eng e = x ∧ x.cur = none
        ∧ x.carry = (s.cycled (16 * d.val + c.val) e f p).anchor
        ∧ (x.bankOf ((s.core (16 * d.val + c.val)).eng e).passNo).cells = (s.cycled (16 * d.val + c.val) e f p).cells
        ∧ (x.bankOf ((s.core (16 * d.val + c.val)).eng e).passNo).checks = (s.cycled (16 * d.val + c.val) e f p).checks
        ∧ (p.drains = true → x.passNo = ((s.core (16 * d.val + c.val)).eng e).passNo + 1 ∧ x.open' = false
          ∧ x.toDrain = ((s.core (16 * d.val + c.val)).eng e).toDrain 
            ++ [⟨p.seq, p.iter, ((s.core (16 * d.val + c.val)).eng e).passNo, p.s + p.len, drainLen (mmOut f.card)⟩])
        ∧ (p.drains = false → x.passNo = ((s.core (16 * d.val + c.val)).eng e).passNo ∧ x.open' = true
          ∧ x.toDrain = ((s.core (16 * d.val + c.val)).eng e).toDrain)
        ∧ u.r32 (Reg.engAccStatus d c e) = Nat.lor (s.r32 (Reg.engAccStatus d c e)) (s.cycled (16 * d.val + c.val) e f p).passBits
        ∧ u.r64 (Reg.engAccCount0 d c e) = min (s.r64 (Reg.engAccCount0 d c e) + (s.cycled (16 * d.val + c.val) e f p).passTrunc) (2 ^ 64 - 1)
        ∧ u.f64 (Reg.engAccCount1 d c e) 8 24
          = min (s.f64 (Reg.engAccCount1 d c e) 8 24 + (s.cycled (16 * d.val + c.val) e f p).ovf) (2 ^ 24 - 1)
        ∧ s.OnlyEngine u (16 * d.val + c.val) e p.seq ∧ u = { s with cores := u.cores, meter := u.meter, power := u.power, regs := u.regs }
        ∧ s.SameRegsBut u (fun a => pairOf (Reg.cdClkCount d) a || a == Reg.cdRamp d || a == Reg.engAccStatus d c e
          || pairOf (Reg.engAccCount0 d c e) a || pairOf (Reg.engAccCount1 d c e) a)))
    ∧ ∀ (s : State) (d : Fin 8) (c : Fin 16) (e : Fin 64) (t : Nat) (p : PassRun) (f : Flight) (i j : Fin 32) (x : Cell),
      s.Accumulating (16 * d.val + c.val) e t p f → p.cyc + 1 < p.len → mmA f.card = 4 → mmB f.card = 4 → bodyF f.card 168 2 ≠ 2
      → (((s.core (16 * d.val + c.val)).eng e).bankOf ((s.core (16 * d.val + c.val)).eng e).passNo).anchor = 0
      → (padTo {} 1024 (((s.core (16 * d.val + c.val)).eng e).bankOf ((s.core (16 * d.val + c.val)).eng e).passNo).cells)[32 * i.val + j.val]? = some x
      → x.lat = false
      → s.mayAccess (s.ownerN (16 * d.val + c.val)) false (itemAddr f.card 0 p.iter (16 * d.val + c.val, e.val) (32 * p.cyc + i.val)) = true
      → s.mayAccess (s.ownerN (16 * d.val + c.val)) false (itemAddr f.card 1 p.iter (16 * d.val + c.val, e.val) (32 * p.cyc + j.val)) = true
      → ∀ v, v = x.v + sext (s.asOf (feedCycle f.card 0 p.s (32 * p.cyc + i.val))
            (itemAddr f.card 0 p.iter (16 * d.val + c.val, e.val) (32 * p.cyc + i.val))).toNat 8
          * sext (s.asOf (feedCycle f.card 1 p.s (32 * p.cyc + j.val))
            (itemAddr f.card 1 p.iter (16 * d.val + c.val, e.val) (32 * p.cyc + j.val))).toNat 8
        → -(2 ^ 47) ≤ v → v ≤ 2 ^ 47 - 1
        → ∃ u, exec (.accumulationCycle d c e t) s = .next u
          ∧ (((u.core (16 * d.val + c.val)).eng e).bankOf ((s.core (16 * d.val + c.val)).eng e).passNo).cells[32 * i.val + j.val]? = some { x with v := v }

/-- DRAIN_START of the oldest ended pass, once the converter is free, converts the bank in the output format, clears it, frees it D
cycles later and books the tile's lines at the write lane, one a cycle. TILE_COMPLETE, 32 cycles and D after the drain's start,
has the tile's bytes written where the card's output descriptor places them and no other byte, sets and counts its saturations,
NaN, skipped and failed comparisons, one a tile, and releases the item. A failed comparison fences the core; poison aborts the
partition's step. (R89, R96, R97, R99, R108, R110, R117, R118, R158, R167, R181, 04_matrix_engine.md) -/
def Obligations.TilesDrainAndAreChecked : Prop :=
  (∀ (s : State) (d : Fin 8) (c : Fin 16) (e : Fin 64) (g t st : Nat) (x : Engine) (w : DrainWait) (rest : List DrainWait) (f : Flight),
      g = 16 * d.val + c.val → s.dieRuns d t = true → x = (s.core g).eng e → x.toDrain = w :: rest → (s.core g).flight w.seq = some f
      → st = max w.fin x.convFree → st ≤ s.engCycle d t
      → ∀ b o, b = x.bankOf w.bank
        → o = b.drain (mmOut f.card) (sext (bodyF f.card 171 8) 8) (bodyF f.card 180 1 == 1) (fun r k =>
          if bodyF f.card 179 1 = 1 then some (srValue (bodyF f.card 64 32) f.pos e w.iter r k) else none)
        → ∃ u, exec (.drainStart d c e t) s = .next u
          ∧ (u.core g).eng e = { x.putBank w.bank {} with
            toDrain := rest
            drains := x.drains ++ [⟨w.seq, w.iter, st, drainLen (mmOut f.card), o.bytes, o.sats, o.nan, b.checkSkip,
              if b.checkSkip then 0 else b.checkFails, b.trunc, b.poisoned, b.ownError⟩]
            convFree := st + drainLen (mmOut f.card)
            free0 := if w.bank % 2 = 0 then st + drainLen (mmOut f.card) else x.free0
            free1 := if w.bank % 2 = 1 then st + drainLen (mmOut f.card) else x.free1 }
          ∧ (∀ i, i < tileLines (mmOut f.card) → (st + 32 + drainLen (mmOut f.card) - tileLines (mmOut f.card) + i,
            bankOf (itemAddr f.card 2 w.iter (g, e.val) (32 * i)), true) ∈ (u.core g).landed)
          ∧ s.OnlyEngine u g e w.seq ∧ (u.core g).flights = (s.core g).flights ∧ u = { s with cores := u.cores })
    ∧ ∀ (s : State) (d : Fin 8) (c : Fin 16) (e : Fin 64) (g t n : Nat) (td : TileDrain) (rest : List TileDrain) (f : Flight), g = 16 * d.val + c.val
      → s.dieRuns d t = true → ((s.core g).eng e).drains = td :: rest → (s.core g).flight td.seq = some f
      → td.start + 32 + td.len ≤ s.engCycle d t → n = s.ownerN g →
      (td.fails = 0 → td.ownError = false → td.poisoned = false → quietCard f.card 2 → (td.bytes.length + 31) / 32 ≤ td.len
        → (∀ i, i < td.bytes.length → s.mayAccess n true (itemAddr f.card 2 td.iter (g, e.val) i) = true)
        → ∃ u, exec (.tileComplete d c e t) s = .next u
          ∧ ((∀ p, p ∈ s.past → (∃ i, i < td.bytes.length ∧ p.addr = itemAddr f.card 2 td.iter (g, e.val) i)
              → p.cyc ≤ td.start + 32 + td.len - (td.bytes.length + 31) / 32)
            → ∀ i b, td.bytes[i]? = some b
              → (∀ j, i < j → j < td.bytes.length → itemAddr f.card 2 td.iter (g, e.val) j ≠ itemAddr f.card 2 td.iter (g, e.val) i)
              → u.rdByte (itemAddr f.card 2 td.iter (g, e.val) i) = b)
          ∧ (∀ a, (∀ i, i < td.bytes.length → a ≠ itemAddr f.card 2 td.iter (g, e.val) i) → u.rdByte a = s.rdByte a)
          ∧ ((u.core g).eng e).drains = rest
          ∧ (∃ f', (u.core g).flight td.seq = some f' ∧ f'.done = f.done + 1
            ∧ doneBy f'.relAt (itemKey 2 e td.iter) (td.start + 32 + td.len) = true)
          ∧ u.r32 (Reg.engAccStatus d c e) = Nat.lor (s.r32 (Reg.engAccStatus d c e))
            ((if td.skip then 2 ^ 11 else 0) + (if 0 < td.sats then 2 ^ 9 else 0) + (if td.nan then 2 ^ 8 else 0))
          ∧ u.f64 (Reg.engAccCount1 d c e) 32 32 = min (s.f64 (Reg.engAccCount1 d c e) 32 32 + td.sats) (2 ^ 32 - 1)
          ∧ s.OnlyEngine u g e td.seq
          ∧ u = { s with cores := u.cores, regs := u.regs, mem := u.mem, poison := u.poison, selfErr := u.selfErr, soft := u.soft, past := u.past }
          ∧ s.SameRegsBut u (fun a => a == Reg.engAccStatus d c e || pairOf (Reg.engAccCount1 d c e) a))
      ∧ (0 < td.fails → s.signalsFit g f.card 2 = true → ∃ u, exec (.tileComplete d c e t) s = .next u ∧ (u.core g).fenced = true
        ∧ bitAt (u.r32 (Reg.engAccStatus d c e)) 10 = true
        ∧ u.f64 (Reg.engAccCount1 d c e) 0 8 = min (s.f64 (Reg.engAccCount1 d c e) 0 8 + 1) (2 ^ 8 - 1))

/-- What comes before a command of the units of a die has been done by then: `y` is that state. GROUP_ENTRY of the next group of an
iteration, due, not held by an interlock and with the hold below four, advances the engine to the next group, iteration or card,
and of an element output without MX blocks and reductions puts the packed bytes of the group, chained from its inputs, into the
hold for 7 cycles and its steps' latencies later; broadcast inputs are read with the card's first group. GROUP_OUTPUT lets the
lines of what is due enter the write port in their cycle, writes them where the partition may write, and sets the group's status
bits and counts; an iteration whose outputs are written counts as done and sets its EACH signal's flag. No byte outside those
lines changes. (R126, R128, R141, R142, R143, R147, R148, R158, R167, R197, R229, 05_vector_engine.md) -/
def Obligations.VectorGroupsEnterAndLeave : Prop :=
  (∀ (s y : State) (d : Fin 8) (c : Fin 16) (g t n k cyc : Nat) (f : Flight) (once : Tab (List Byte)) (up : List (BitVec 37)), g = 16 * d.val + c.val
      → cyc = s.engCycle d t → s.dieRuns d t = true → y = ((s.upset up).meshTo d cyc).portTo g (cyc + 1) → y.dieRuns d t = true
      → (y.core g).nextGroup = some (f, n, k) → (y.core g).vec.due ≤ cyc → (n = 0 → k = 0 → f.issue < cyc)
      → (y.core g).groupHeld f n k cyc = false → (y.core g).vec.holdCount < 4
      → (k = 0 → ∀ i, i < 4 → ∀ w, slotUse f.card i = some w →
          (w = false → y.MayRead (y.ownerN g) ((List.range (descRun (cardDesc f.card i))).map (itemAddr f.card i n (g, 0))))
          ∧ (w = true → ∀ b, b < descRun (cardDesc f.card i) → y.mayAccess (y.ownerN g) true (itemAddr f.card i n (g, 0) b) = true))
      → once = (if n = 0 ∧ k = 0 then y.readOnce g f.card cyc else (y.core g).vec.bcast)
      → (∃ slot, vRole f.card 4 = some slot) → isMx (vTypeOut f.card) = false → vRedOp f.card = 0
      → ∃ u v o, exec (.groupEntry d c t up) s = .next u ∧ v = (u.core g).vec
        ∧ v.due = cyc + vCycles f.card ∧ v.outs = (y.core g).vec.outs ++ [o]
        ∧ o.seq = f.seq ∧ o.iter = n ∧ o.due = cyc + 7 + vLambda f.card ∧ o.offered = false ∧ some o.slot = vRole f.card 4
        ∧ o.last = (k + 1 == vGroups f.card)
        ∧ o.lines = placeBytes g f.card o.slot n (8 * k * 4 * vWidth (vTypeOut f.card))
          (vPack f.card n k f.pos ((y.vGroup g f.card n k cyc once).map (fun b => (b.1[vOutSrc f.card]?).getD (constBlock 0 0 false)))).1
        ∧ (k + 1 ≠ vGroups f.card → v.group = k + 1 ∧ v.iter = n ∧ v.run = (y.core g).vec.run ∧ v.bcast = once)
        ∧ (k + 1 = vGroups f.card → n + 1 ≠ cardIters f.card → v.group = 0 ∧ v.iter = n + 1 ∧ v.run = (y.core g).vec.run ∧ v.bcast = once)
        ∧ (k + 1 = vGroups f.card → n + 1 = cardIters f.card → v.group = 0 ∧ v.iter = 0 ∧ v.run = (y.core g).vec.wait ∧ v.wait = none)
        ∧ (∃ f', (u.core g).flight f.seq = some f' ∧ f'.started = f.started + 1)
        ∧ (u.core g).engines = (y.core g).engines ∧ (∀ h, h ≠ g → u.core h = y.core h)
        ∧ u = { y with cores := u.cores, regs := u.regs, power := u.power }
        ∧ y.SameRegsBut u (fun a => pairOf (Reg.cdClkCount d) a || a == Reg.cdRamp d))
    ∧ (∀ (s y : State) (d : Fin 8) (c : Fin 16) (g t cyc c0 : Nat) (o : VOut) (f : Flight), g = 16 * d.val + c.val → cyc = s.engCycle d t
      → s.dieRuns d t = true → y = s.meshTo d cyc → (y.core g).vec.outs = [o] → (y.core g).flight o.seq = some f → o.offered = false
      → (∀ h, h ∈ (y.core g).flights → cardOp h.card = 2 → quietCard h.card 2)
      → c0 = max (y.core g).vec.portAt o.due → c0 ≤ cyc → (offerLines c0 o.lines (y.core g) 0).2.2.2 = []
      → (∀ l, l ∈ o.lines → ∀ i, i < l.2.length → y.mayAccess (y.ownerN g) true (l.1 + i) = true)
      → (∀ p, p ∈ y.past → ∀ l, l ∈ o.lines → l.1 ≤ p.addr → p.addr < l.1 + l.2.length → p.cyc ≤ c0)
      → o.lines.Pairwise (fun l m => l.1 + l.2.length ≤ m.1 ∨ m.1 + m.2.length ≤ l.1)
      → ∃ u, exec (.groupOutput d c t) s = .next u ∧ (∀ l, l ∈ o.lines → u.rdBytes l.1 l.2.length = l.2)
        ∧ (∀ a, (∀ l, l ∈ o.lines → a < l.1 ∨ l.1 + l.2.length ≤ a) → u.rdByte a = y.rdByte a)
        ∧ (u.core g).vec.outs = [] ∧ (∀ b, b ∈ o.bits → b < 32 → bitAt (u.r32 (Reg.vecStatus d c)) b = true)
        ∧ u.r64 (Reg.vecCount0 d c) = min (y.r64 (Reg.vecCount0 d c) + (if o.group then 1 else 0)) (2 ^ 64 - 1)
        ∧ u.f64 (Reg.vecCount1 d c) 32 32 = min (y.f64 (Reg.vecCount1 d c) 32 32 + o.trunc) (2 ^ 32 - 1)
        ∧ u.f64 (Reg.vecCount1 d c) 0 32 = min (y.f64 (Reg.vecCount1 d c) 0 32 + o.sat) (2 ^ 32 - 1)
        ∧ (o.last = true → ∃ f', (u.core g).flight o.seq = some f' ∧ doneBy f'.relAt (itemKey o.slot 0 o.iter) (c0 + 1) = true)
        ∧ (u.core g).engines = (y.core g).engines ∧ (∀ h, h ≠ g → u.core h = y.core h)
        ∧ u = { y with cores := u.cores, regs := u.regs, mem := u.mem, poison := u.poison, selfErr := u.selfErr, soft := u.soft, past := u.past }
        ∧ y.SameRegsBut u (fun a => a == Reg.vecStatus d c || pairOf (Reg.vecCount0 d c) a || pairOf (Reg.vecCount1 d c) a))
    ∧ ∀ (s y : State) (d : Fin 8) (c : Fin 16) (g t cyc : Nat) (f : Flight), g = 16 * d.val + c.val → cyc = s.engCycle d t
      → s.dieRuns d t = true → y = s.meshTo d cyc → (y.core g).vec.outs = [] → (y.core g).Numbered → (y.core g).iterDone cyc = some f →
      (quietCard f.card 2 → ∃ u, exec (.groupOutput d c t) s = .next u ∧ (u.core g).flight f.seq = some { f with done := f.done + 1 }
        ∧ (∀ q, q ≠ f.seq → (u.core g).flight q = (y.core g).flight q) ∧ (∀ h, h ≠ g → u.core h = y.core h) ∧ u = { y with cores := u.cores })
      ∧ (bitAt (cardSignal f.card 0) 63 = true → fld (cardSignal f.card 0) 61 2 = 2 → bitAt (cardSignal f.card 0) 60 = false
        → fld (cardSignal f.card 0) 51 7 / 16 = d.val → fld (cardSignal f.card 0) 58 1 = 0 → (∀ i, 0 < i → i < 4 → bitAt (cardSignal f.card i) 63 = false)
        → (y.die d).flagT ≠ t
        → ∃ u, exec (.groupOutput d c t) s = .next u ∧ (u.core g).flight f.seq = some { f with done := f.done + 1 }
          ∧ (∀ k, u.flag k = if k = entryKey (fld (cardSignal f.card 0) 51 7) (fld (cardSignal f.card 0) 32 8)
              then fld (cardSignal f.card 0) 59 1 == 0 else y.flag k)
          ∧ u.ctrs = y.ctrs ∧ y.SameBytes u)

/-- What comes before a command of the units of a die has been done by then: `y` is that state. DMA_ITEM_START of a MOVE with its source
on its own die counts the item's lines and puts a read of them at the source for when its request has got there; with its source on
another die it takes a free tag and awaits its lines. Cycle by cycle, a source line that its memory takes is held as it stood, and
goes on its way to the target; a line at its target that the memory takes is written there and no other byte. DMA_ITEM_COMPLETE of
an item that stands at every target counts it done, and adds its bytes to the card's digest string. INTERLOCK_RELEASE of an item
held until now counts the firing under the kind that released last, adds the cycles it held, and records kind, slot, delay and
position. (R155, R158, R167, R198, R204, R228, R229, R235, R236, R260, R277, 07_layer_cards.md) -/
def Obligations.MoverItemsStartAndComplete : Prop :=
  (∀ (s y : State) (d : Fin 8) (c : Fin 16) (g pos t cyc : Nat) (f : Flight) (up : List (BitVec 37)), g = 16 * d.val + c.val → cyc = s.engCycle d t
      → y = (s.upset up).meshTo d cyc → y.dieRuns d t = true → (y.core g).flightAt pos = some f → (y.core g).flight f.seq = some f
      → cardOp f.card = 3 → isSpread f.card = false → descRemote (cardDesc f.card 0) = false → f.started < cardIters f.card → f.issue < cyc
      → (y.core g).heldKinds f f.started none [0, 1] cyc = [] → (y.core g).moverTurn f cyc = true →
      (descLc (cardDesc f.card 0) / 16 = d.val → 0 < descRun (cardDesc f.card 0)
        → y.MayRead (y.ownerN g) ((List.range (descRun (cardDesc f.card 0))).map
            (itemAddr f.card 0 f.started (descLc (cardDesc f.card 0), descEng (cardDesc f.card 0))))
        → (descRemote (cardDesc f.card 1) = false → descLc (cardDesc f.card 1) / 16 = d.val → ∀ i, i < descRun (cardDesc f.card 1)
          → y.mayAccess (y.ownerN g) true (itemAddr f.card 1 f.started (descLc (cardDesc f.card 1), descEng (cardDesc f.card 1)) i) = true)
        → ∃ u f', exec (.dmaItemStart d c pos t up) s = .next u ∧ (u.core g).flight f.seq = some f' ∧ f'.started = f.started + 1
          ∧ Tab.get (fun _ => 0) f'.unread f.started = (descRun (cardDesc f.card 0) + 31) / 32
          ∧ Tab.get (fun _ => 0) f'.unplaced f.started = (descRun (cardDesc f.card 0) + 31) / 32
          ∧ (u.mesh d).reads = (y.mesh d).reads ++ [{
            core := g, seq := f.seq, iter := f.started, copy := 0
            from' := cyc + 2 * hops (coreNode c) (homeNode (itemAddr f.card 0 f.started (descLc (cardDesc f.card 0), descEng (cardDesc f.card 0)) 0))
            todo := List.range ((descRun (cardDesc f.card 0) + 31) / 32) }]
          ∧ (∀ h, h ≠ g → u.core h = y.core h) ∧ (∀ k, k ≠ d.val → u.die k = y.die k) ∧ u = { y with cores := u.cores, dies := u.dies })
      ∧ (∀ k, descLc (cardDesc f.card 0) / 16 ≠ d.val → y.freeTag d = some k
        → ∃ u f', exec (.dmaItemStart d c pos t up) s = .next u ∧ (u.core g).flight f.seq = some f' ∧ f'.started = f.started + 1
          ∧ f'.tags = f.tags ++ [(k, f.started)] ∧ Tab.get (fun _ => 0) f'.awaited f.started = (descRun (cardDesc f.card 0) + 31) / 32
          ∧ (∀ h, h ≠ g → u.core h = y.core h) ∧ y.SameBytes u ∧ u.flags = y.flags ∧ u.ctrs = y.ctrs))
    ∧ (∀ (s : State) (d : Fin 8) (g cyc i left : Nat) (f : Flight) (r : SrcRead) (p : Nat × Nat) (bytes : List Byte), (s.core g).flight r.seq = some f → r.core = g
      → cardOp f.card = 3 → (dmaSources f.card)[r.copy]? = some p → left = Tab.get (fun _ => 0) f.unread r.iter
      → bytes = (lineAddrs f.card 0 r.iter p i).map (s.readAsOf (s.ownerN g) cyc) →
      ∃ f', ((s.lineRead d cyc r f i).core g).flight r.seq = some f'
        ∧ f'.held r.iter r.copy = putLine (f.held r.iter r.copy) (descRun (cardDesc f.card 0)) i bytes
        ∧ Tab.get (fun _ => 0) f'.unread r.iter = left - 1 ∧ (left = 1 → doneBy f'.readAt (itemKey 0 0 r.iter) (cyc + 1) = true)
        ∧ (∀ q, q ≠ r.seq → ((s.lineRead d cyc r f i).core g).flight q = (s.core g).flight q) ∧ s.SameBytes (s.lineRead d cyc r f i)
        ∧ (∀ x, x ∈ ((s.lineRead d cyc r f i).mesh d).hops → x ∈ (s.mesh d).hops ∨ (x.core = g ∧ x.seq = r.seq ∧ x.line = i ∧ x.bytes = bytes))
        ∧ (∀ x, x ∈ ((s.lineRead d cyc r f i).mesh d).lands → x ∈ (s.mesh d).lands ∨ (x.core = g ∧ x.seq = r.seq ∧ x.line = i ∧ x.bytes = bytes)))
    ∧ (∀ (s : State) (x : Landing) (f : Flight) (addrs : List Nat) (cyc rank : Nat), (s.core x.core).flight x.seq = some f → addrs.length = x.bytes.length
      → addrs.Pairwise (· ≠ ·) → (∀ a, a ∈ addrs → s.mayAccess (s.ownerN x.core) true a = true) →
      ((∀ p, p ∈ s.past → p.addr ∈ addrs → p.cyc ≤ cyc) → addrs.map (s.writeLanding x f addrs cyc rank).rdByte = x.bytes)
      ∧ (∀ a, a ∉ addrs → (s.writeLanding x f addrs cyc rank).rdByte a = s.rdByte a)
      ∧ (x.bad = true → ∀ a, a ∈ addrs → (s.writeLanding x f addrs cyc rank).poisoned a = true)
      ∧ ∃ f', ((s.writeLanding x f addrs cyc rank).core x.core).flight x.seq = some f'
        ∧ Tab.get (fun _ => 0) f'.unplaced x.iter = Tab.get (fun _ => 0) f.unplaced x.iter - 1
        ∧ (Tab.get (fun _ => 0) f.unplaced x.iter = 1 → Tab.get (fun _ => 0) f.awaited x.iter = 0 → Tab.get (fun _ => 0) f.placedAt x.iter ≤ cyc + 1
          → doneBy f'.relAt (itemKey 1 0 x.iter) (cyc + 1) = true))
    ∧ (∀ (s y : State) (d : Fin 8) (c : Fin 16) (g pos t cyc : Nat) (f z : Flight), g = 16 * d.val + c.val → cyc = s.engCycle d t → y = s.meshTo d cyc
      → y.dieRuns d t = true → (y.core g).flightAt pos = some f → (y.core g).flight f.seq = some f
      → ((y.meshTo d (cyc + 1)).core g).flightAt pos = some z → 3 ≤ cardOp f.card → cardOp f.card ≤ 5 → f.done < f.started
      → z.itemEnded g f.done cyc = true → quietCard f.card 2
      → ∃ u f', exec (.dmaItemComplete d c pos t) s = .next u ∧ (u.core g).flight f.seq = some f' ∧ f'.done = f.done + 1
        ∧ ((dmaSources f.card).length = 1 → Tab.get (fun _ => []) f'.wrote ((f.done * 4 + 1) * 64)
          = Tab.get (fun _ => []) f.wrote ((f.done * 4 + 1) * 64) ++ (f.held f.done 0).take (descRun (cardDesc f.card 0)))
        ∧ (∀ q, q ≠ f.seq → (u.core g).flight q = (y.core g).flight q) ∧ (∀ h, h ≠ g → u.core h = y.core h) ∧ u = { y with cores := u.cores })
    ∧ ∀ (s y : State) (d : Fin 8) (c : Fin 16) (g pos n since r t cyc : Nat) (e : Fin 64) (f : Flight) (l : List Nat) (held : Nat → List Nat),
      g = 16 * d.val + c.val → cyc = s.engCycle d t → y = s.meshTo d cyc → y.dieRuns d t = true → (y.core g).flightAt pos = some f
      → (y.core g).nextItem f e = some (n, since) → Tab.get (fun _ => none) f.begun (releaseKey n (keyEng f.card e)) = none
      → (∀ x, held x = (y.core g).heldKinds f n (if cardOp f.card = 1 then some e.val else none) (upto 4 (fun i => (slotUse f.card i).isSome)) x)
      → since < r → r ≤ cyc → held r = [] → (∀ x, since ≤ x → x < r → held x ≠ []) → l = held (r - 1) → (y.core g).fired.1 ≠ r
      → ∃ u slot, exec (.interlockRelease d c pos e t) s = .next u ∧ slot < 4
        ∧ u.r64 (Reg.coreIlkLast d c) = 2 ^ 63 + minKind l * 2 ^ 60 + slot * 2 ^ 58 + min (r - since) 0xFFFFFF * 2 ^ 24 + pos % 2 ^ 24
        ∧ (bitAt (y.r64 (Reg.coreIlkFirst d c)) 63 = false → u.r64 (Reg.coreIlkFirst d c) = u.r64 (Reg.coreIlkLast d c))
        ∧ (bitAt (y.r64 (Reg.coreIlkFirst d c)) 63 = true → u.r64 (Reg.coreIlkFirst d c) = y.r64 (Reg.coreIlkFirst d c))
        ∧ u.r64 (Reg.coreIlkCycles d c) = min (y.r64 (Reg.coreIlkCycles d c) + (r - since)) (2 ^ 64 - 1)
        ∧ (minKind l = 6 → u.f64 (Reg.coreIlkCount1 d c) 32 32 = min (y.f64 (Reg.coreIlkCount1 d c) 32 32 + 1) (2 ^ 32 - 1))
        ∧ (minKind l < 5 → u.f64 (Reg.coreIlkCount0 d c) 0 32 = min (y.f64 (Reg.coreIlkCount0 d c) 0 32 + 1) (2 ^ 32 - 1))
        ∧ (cardOp f.card = 1 → ((u.core g).eng e).relAt = r) ∧ (cardOp f.card ≠ 1 → (u.core g).engines = (y.core g).engines)
        ∧ (∀ h, h ≠ g → u.core h = y.core h) ∧ u = { y with cores := u.cores, regs := u.regs } ∧ y.SameRegsBut u (issueRegs g)

/-- A sound TCL_LINK that asks for nothing drops the units its ACK_SEQ covers, raises the grants of the four VCs, notes the
neighbour's Hours, and adds what the FEC reported to FEC_CORRECTED and FEC_UNCORR; one whose NAK names a held unit counts one
replay and sends everything from it on. LINK_UNIT_TIMER, TCL_ACK_TIMER with units not acknowledged, and NAK_REPEAT_TIMER with a
unit missing send a LINK unit whose fields Table 11-7 gives. SILENT_LOSS_REPLAY replays from the oldest unacknowledged unit, and
the sixteenth such replay begins a retrain. (R286, R287, R288, R289, R290, R293, R305, 11_tocheas_link_layer.md) -/
def Obligations.LinkUnitsCarryAcksGrantsAndHours : Prop :=
  (∀ (s : State) (p : Fin 12) (x : BitVec 2048) (fc fu : Nat), s.portIn p = true → unitGood x.toNat linkPrefix = true → unitF x.toNat 220 4 = 7 → unitSound x.toNat = true
      → fld x.toNat 664 1384 = 0 → unitF x.toNat 188 15 / 8 = s.neighbour p → unitF x.toNat 89 3 = 0 → fld x.toNat 322 2 = 0 → fld x.toNat 350 2 = 0
      → fld x.toNat 328 5 = s.f32 Reg.topHourCtl 0 5 → (s.port p).waiting = [] →
      (bitAt x.toNat 320 = false → ∃ t, exec (.tclLink p x fc fu) s = .next t
        ∧ (t.port p).replay = (s.port p).replay.filter (fun e => !seqGe (linkF x.toNat 32 4) e.1)
        ∧ (∀ v, v < 4 → (t.port p).grantGotOf v
          = if seqGe (linkF x.toNat (48 + 4 * v) 4) ((s.port p).grantGotOf v) then linkF x.toNat (48 + 4 * v) 4 else (s.port p).grantGotOf v)
        ∧ (t.port p).farArrived = linkF x.toNat 64 8 ∧ (t.port p).farOpened = linkF x.toNat 72 8 ∧ (t.port p).farCoupled = bitAt x.toNat 321
        ∧ (t.port p).farLenBad = false ∧ (t.port p).wantSeq = (s.port p).wantSeq ∧ (t.port p).sendSeq = (s.port p).sendSeq
        ∧ (t.port p).pool = (s.port p).pool ∧ (∀ q, q ≠ p.val → t.port q = s.port q)
        ∧ t.f64 (Reg.tclPortCount0 p) 32 32 = min (s.f64 (Reg.tclPortCount0 p) 32 32 + fc) (2 ^ 32 - 1)
        ∧ t.f64 (Reg.tclPortCount0 p) 0 32 = min (s.f64 (Reg.tclPortCount0 p) 0 32 + fu) (2 ^ 32 - 1)
        ∧ s.SameRegsBut t (pairOf (Reg.tclPortCount0 p)) ∧ t = { s with ports := t.ports, regs := t.regs })
      ∧ (bitAt x.toNat 320 = true → (s.port p).got = 0 → (s.port p).retraining = false → (s.port p).replays.2 < 15
        → (∀ e, e ∈ (s.port p).replay → seqGe (linkF x.toNat 32 4) e.1 = false)
        → (∃ e, e ∈ (s.port p).replay ∧ e.1 = linkF x.toNat 36 4)
        → ∃ t, exec (.tclLink p x fc fu) s = .next t ∧ (t.port p).replay = (s.port p).replay
          ∧ t.out = s.out ++ ((s.port p).replay.filter (fun e => seqGe e.1 (linkF x.toNat 36 4))).map (fun e =>
            Output.tclUnit p (unitWire e.1 (e.2.header 2 (e.1 % 4) ((s.port p).grantOf (e.1 % 4))) e.2.data))
          ∧ bitAt (t.r64 (Reg.tclPortStatus p)) 2 = true
          ∧ t.f64 (Reg.tclPortCount1 p) 8 24 = min (s.f64 (Reg.tclPortCount1 p) 8 24 + 1) (2 ^ 24 - 1)
          ∧ t = { s with ports := t.ports, regs := t.regs, out := t.out }
          ∧ s.SameRegsBut t (fun a => pairOf (Reg.tclPortStatus p) a || pairOf (Reg.tclPortCount1 p) a || pairOf (Reg.tclPortCount0 p) a)))
    ∧ (∀ (s : State) (p : Fin 12), s.portIn p = true → (s.port p).Counts →
      (∃ t w, exec (.linkUnitTimer p) s = .next t ∧ t.out = s.out ++ [.tclUnit p w] ∧ s.LinkUnit p w 0 0 ∧ s.SentLink t p (s.port p)
        ∧ t = { s with ports := t.ports, out := t.out })
      ∧ (0 < (s.port p).got → ∃ t w, exec (.tclAckTimer p) s = .next t ∧ t.out = s.out ++ [.tclUnit p w] ∧ s.LinkUnit p w 0 0
        ∧ s.SentLink t p (s.port p) ∧ t = { s with ports := t.ports, out := t.out })
      ∧ ((s.port p).nakOpen = true → ∃ t w, exec (.nakRepeatTimer p) s = .next t ∧ t.out = s.out ++ [.tclUnit p w] ∧ s.LinkUnit p w 1 0
        ∧ s.SentLink t p (s.port p) ∧ t = { s with ports := t.ports, out := t.out }))
    ∧ ∀ (s : State) (p : Fin 12) (e : Nat × FlowUnit) (rest : List (Nat × FlowUnit)) (n : Nat), s.portIn p = true → (s.port p).retraining = false
      → (s.port p).got = 0 → (s.port p).replay = e :: rest → n = (if (s.port p).replays.1 = e.1 then (s.port p).replays.2 + 1 else 1)
      → ∃ t, exec (.silentLossReplay p) s = .next t ∧ (t.port p).replays = (e.1, n) ∧ (t.port p).retraining = decide (16 ≤ n)
        ∧ (t.port p).replay = (s.port p).replay
        ∧ t.out = s.out ++ ((s.port p).replay.filter (fun y => seqGe y.1 e.1)).map (fun y =>
          Output.tclUnit p (unitWire y.1 (y.2.header 2 (y.1 % 4) ((s.port p).grantOf (y.1 % 4))) y.2.data))
        ∧ bitAt (t.r64 (Reg.tclPortStatus p)) 2 = true
        ∧ t.f64 (Reg.tclPortCount1 p) 8 24 = min (s.f64 (Reg.tclPortCount1 p) 8 24 + 1) (2 ^ 24 - 1)
        ∧ (∀ q, q ≠ p.val → t.port q = s.port q) ∧ t = { s with ports := t.ports, regs := t.regs, out := t.out }
        ∧ s.SameRegsBut t (fun a => pairOf (Reg.tclPortStatus p) a || pairOf (Reg.tclPortCount1 p) a)

/-- A successful retrain lets a port go on with a NAK; a second failure in a row takes it out of service with an event. A failed
lane of a port begins a change to a healthy spare of its bank, or of its quad where there is none, with a LINK unit. A change
both ends have agreed puts the spare into service and the lane to failed. An idle port with nothing held proposes to sleep; the
entry ends in sleep; a sleeping port wakes when it has a unit to send or is signalled, and carries units again when the wake is
complete. (R290, R294, R295, R296, R304, R305, R306, 11_tocheas_link_layer.md) -/
def Obligations.PortsRetrainChangeLanesAndSleep : Prop :=
  (∀ (s : State) (p : Fin 12), (s.port p).retraining = true →
      ((s.port p).waiting = [] → (s.port p).replay = [] → ∃ t w, exec (.portRetrainComplete p true) s = .next t
        ∧ (t.port p).retraining = false ∧ (t.port p).failedRetrains = 0 ∧ (t.port p).nakOpen = true ∧ t.out = s.out ++ [.tclUnit p w]
        ∧ bitAt (t.r64 (Reg.tclPortStatus p)) 5 = true
        ∧ t.f64 (Reg.tclPortCount1 p) 0 8 = min (s.f64 (Reg.tclPortCount1 p) 0 8 + 1) (2 ^ 8 - 1)
        ∧ (∀ q, q ≠ p.val → t.port q = s.port q) ∧ t = { s with ports := t.ports, regs := t.regs, out := t.out }
        ∧ s.SameRegsBut t (fun a => pairOf (Reg.tclPortStatus p) a || pairOf (Reg.tclPortCount1 p) a))
      ∧ ((s.port p).failedRetrains = 0 → ∃ t, exec (.portRetrainComplete p false) s = .next t ∧ t.port p = { s.port p with failedRetrains := 1 }
        ∧ bitAt (t.r64 (Reg.tclPortStatus p)) 5 = true ∧ t = { s with ports := t.ports, regs := t.regs })
      ∧ (1 ≤ (s.port p).failedRetrains → s.host.events.length < 4096 → ∃ t e, exec (.portRetrainComplete p false) s = .next t
        ∧ t.portOut p = true ∧ (t.port p).retraining = false ∧ t.host.events = s.host.events ++ [e] ∧ e.type = 0x0007
        ∧ e.data = 1 + 8 * 2 ^ 8 + p.val * 2 ^ 16 ∧ t = { s with ports := t.ports, regs := t.regs, host := t.host }))
    ∧ (∀ (s : State) (lane : Fin 104) (p : Nat), s.lanePort lane = some p → (s.port p).change = none → (s.port p).Counts →
      ∃ t w c, exec (.tclLaneFailure lane) s = .next t ∧ (t.port p).change = some c ∧ c.lane = lane.val ∧ c.mine = true ∧ c.paused = false
        ∧ c.seqAt = ((s.port p).wantSeq + 1) % 2 ^ 32 ∧ t.out = s.out ++ [.tclUnit p w] ∧ fld w 350 2 = 1 ∧ fld w 343 7 = lane.val ∧ fld w 336 7 = c.spare
        ∧ (c.spare = 0x7F ∧ s.spareFor p (lane.val / 26) = none ∨ s.spareFor p (lane.val / 26) = some c.spare ∧ c.spare / 26 = lane.val / 26 ∧ s.laneState c.spare = 1)
        ∧ (∀ q, q ≠ p → t.port q = s.port q) ∧ t = { s with ports := t.ports, out := t.out })
    ∧ (∀ (s : State) (p : Fin 12) (c : LaneChange), (s.port p).change = some c → c.paused = true → c.spare < 104 → c.lane < 104 → c.spare ≠ c.lane
      → c.lane % 26 < 24 → (s.port p).waiting = [] → (s.port p).lanesDue = [] → (s.port p).Counts
      → ∃ t w, exec (.laneReplacementComplete p) s = .next t ∧ (t.port p).change = none ∧ (c.spare, c.lane) ∈ (t.port p).subst
        ∧ t.laneState c.lane = 2 ∧ t.laneState c.spare = 0 ∧ (∀ l, l < 104 → l ≠ c.lane → l ≠ c.spare → t.laneState l = s.laneState l)
        ∧ bitAt (t.r64 (Reg.tclPortStatus p)) 3 = true
        ∧ t.f64 (Reg.tclPortCount1 p) 0 8 = min (s.f64 (Reg.tclPortCount1 p) 0 8 + 1) (2 ^ 8 - 1)
        ∧ t.out = s.out ++ [.tclUnit p w] ∧ fld w 320 1 = 1 ∧ (∀ q, q ≠ p.val → t.port q = s.port q)
        ∧ t = { s with ports := t.ports, regs := t.regs, out := t.out })
    ∧ ∀ (s : State) (p : Fin 12), (s.port p).Counts →
      ((s.setPort p { s.port p with idle := true }).maySleep p = true → (s.port p).power = 0
        → ∃ t w, exec (.sleepIdleExpiry p) s = .next t ∧ s.SentLink t p { s.port p with idle := true, power := 1 }
          ∧ t.out = s.out ++ [.tclUnit p w] ∧ fld w 322 2 = 1 ∧ t = { s with ports := t.ports, out := t.out })
      ∧ (s.portPower p = 1 → ∃ t, exec (.sleepEntryComplete p) s = .next t ∧ t.portPower p = 2 ∧ t = { s with regs := t.regs }
        ∧ s.SameRegsBut t (pairOf (Reg.tclPortStatus p)))
      ∧ (∀ b, s.portPower p = 2 → b = true ∨ s.unitFor p = true
        → ∃ t w, exec (.portWake p b) s = .next t ∧ t.portPower p = 3 ∧ t.out = s.out ++ [.tclWake p, .tclUnit p w] ∧ fld w 322 2 = 3
          ∧ s.SentLink t p { s.port p with power := 3 } ∧ t = { s with ports := t.ports, regs := t.regs, out := t.out } ∧ s.SameRegsBut t (pairOf (Reg.tclPortStatus p)))
      ∧ (s.portPower p = 3 → (s.port p).waiting = [] → ∃ t, exec (.portWakeComplete p) s = .next t ∧ t.portPower p = 0
        ∧ t.port p = { s.port p with power := 0, agreed := false, idle := false } ∧ (∀ q, q ≠ p.val → t.port q = s.port q)
        ∧ t = { s with ports := t.ports, regs := t.regs } ∧ s.SameRegsBut t (pairOf (Reg.tclPortStatus p)))

/-- The expected unit of a request kind, for this package and served by its partition, moves the port's expected sequence. A WRITE
whose lines are in range stores each line of LMASK at its target address and no other byte. A READ_REQ of one readable line puts
a READ_DATA unit with its bytes, for the requester and its tag, on the way of the response. A SIGNAL inside the partition's flag
window sets, clears or adds. A REDUCE_DATA line of a result goes to the DST of each member on its combining die whose card waits
for it. (R206, R218, R223, R273, R285, R286, R297, R301, R308, 11_tocheas_link_layer.md, 12_system_topology.md) -/
def Obligations.RequestUnitsAreServedAtTheirTarget : Prop :=
  ∀ (s : State) (p : Fin 12) (x : BitVec 2048) (t : Nat) (u : FlowUnit), u = FlowUnit.ofWire x.toNat → s.Delivers p x.toNat → s.Serves u →
    (∀ b : Nat → Nat, s.NextUnit p 0 x.toNat → (∀ i, i < 7 → bitAt u.lmask i = true → s.targetAddr u.dpart u.lc u.level (u.addr + 32 * i) = some (b i)
        ∧ s.lineOk u.dpart true (b i) = true ∧ s.Still (s.landStamp (addrDie (b i)) t) (b i) 32)
      → ∃ v, exec (.tclWrite p x t) s = .next v ∧ (v.port p).wantSeq = ((s.port p).wantSeq + 1) % 2 ^ 32
        ∧ (∀ i, i < 7 → bitAt u.lmask i = true → v.rdBytes (b i) 32 = leBytes 32 (fld u.data (256 * i) 256))
        ∧ (∀ a, (∀ i, i < 7 → bitAt u.lmask i = true → a < b i ∨ b i + 32 ≤ a) → v.rdByte a = s.rdByte a)
        ∧ v.flags = s.flags ∧ v.ctrs = s.ctrs ∧ v.cores = s.cores ∧ v.dies = s.dies)
    ∧ (∀ a q h, s.NextUnit p 1 x.toNat → u.count = 0 → s.targetAddr u.dpart u.lc u.level u.addr = some a → s.lineOk u.dpart false a = true
      → s.Settled (s.targetDie u) t → s.Sound a 32
      → h = { kind := 4, vc := 2, dest := u.src, src := s.pkgId * 8 + s.targetDie u, dpart := u.spart, spart := u.dpart, gen := u.gen, tag := u.tag,
              addr := u.addr, lmask := 1, last := 1, data := leNat (s.rdBytesAt t a 32) }
      → s.routeOf none h = .port q
      → ∃ v, exec (.tclReadReq p x t) s = .next v ∧ (v.port p).wantSeq = ((s.port p).wantSeq + 1) % 2 ^ 32
        ∧ v.OnPort q (fun r => r.kind = 4 ∧ r.dest = u.src ∧ r.tag = u.tag ∧ r.dpart = u.spart ∧ r.gen = u.gen ∧ r.addr = u.addr ∧ r.lmask = 1 ∧ r.last = 1
          ∧ r.data = leNat (s.rdBytesAt t a 32))
        ∧ s.SameBytes v ∧ v.flags = s.flags ∧ v.ctrs = s.ctrs ∧ v.cores = s.cores ∧ v.dies = s.dies)
    ∧ (∀ g w, s.NextUnit p 2 x.toNat → s.coreOf u.dpart u.lc = some g → (s.die (g / 16)).flagT ≠ t → w = s.r64 (Reg.cdFlagwin (g / 16) u.dpart) →
      (fld u.data 40 1 = 0 → fld u.data 32 8 < fld w 8 9 → fld w 0 8 + fld w 8 9 ≤ 256
        → ∃ v, exec (.tclSignal p x t) s = .next v ∧ (v.port p).wantSeq = ((s.port p).wantSeq + 1) % 2 ^ 32
          ∧ (∀ k, v.flag k = if k = flagKey (g / 16) (g % 16 / 4) (fld w 0 8 + fld u.data 32 8) then fld u.data 41 1 == 0 else s.flag k)
          ∧ v.ctrs = s.ctrs ∧ s.SameBytes v ∧ v.cores = s.cores)
      ∧ (fld u.data 40 1 = 1 → fld u.data 32 8 < fld w 40 9 → fld w 32 8 + fld w 40 9 ≤ 256
        → ∃ v, exec (.tclSignal p x t) s = .next v ∧ (v.port p).wantSeq = ((s.port p).wantSeq + 1) % 2 ^ 32
          ∧ (∀ k, v.ctr k = if k = flagKey (g / 16) (g % 16 / 4) (fld w 32 8 + fld u.data 32 8) then (s.ctr k + fld u.data 0 32) % 2 ^ 32 else s.ctr k)
          ∧ v.flags = s.flags ∧ s.SameBytes v ∧ v.cores = s.cores))
    ∧ ∀ item rank gr D, s.NextUnit p 3 x.toNat → s.groupOf u.dpart u.group = some gr → u.lmask = 1
      → D = s.combineDie gr item (u.addr / 32) (s.targetDie u)
      → ∃ v, exec (.tclReduceData p x item rank true t) s = .next v ∧ (v.port p).wantSeq = ((s.port p).wantSeq + 1) % 2 ^ 32
        ∧ (∀ g f, g ∈ gr.onDie D → s.reduceCard gr g item = some f → ∃ l, l ∈ (v.mesh D).lands ∧ l.core = g ∧ l.seq = f.seq ∧ l.iter = item - f.base
          ∧ l.line = u.addr / 32
          ∧ l.bytes = (leBytes 32 (fld u.data 0 256)).take (descRun (cardDesc f.card 1) - 32 * (u.addr / 32)))
        ∧ (∀ g, g ∉ gr.members → v.core g = s.core g) ∧ (∀ k, k ≠ D → v.die k = s.die k)
        ∧ s.SameBytes v ∧ v.flags = s.flags ∧ v.ctrs = s.ctrs

/-- The expected response for this package moves the port's expected sequence. READ_DATA of the transaction's generation lowers its
lines still to come, LAST ends it. A WRITE_REPORT ends its write. An ERROR_RSP ends its transaction and records the stop its
code maps to. A response without a transaction counts as late and does nothing else to transactions. UNIT_RELEASE takes the
oldest passed unit of a VC out of the pool and counts it released; the other VCs' counts stay, and the grant of one that needs no
shared unit. No memory byte and no core changes. (R293, R297, R300, R301, R303, R450, 11_tocheas_link_layer.md) -/
def Obligations.ResponsesEndTransactionsAndPoolsRelease : Prop :=
  (∀ (s : State) (p : Fin 12) (x : BitVec 2048) (t : Nat) (u : FlowUnit), u = FlowUnit.ofWire x.toNat → s.Delivers p x.toNat →
    (∀ y, s.txn u.tag = some y → y.gen = u.gen →
      (s.NextUnit p 4 x.toNat → y.head.kind = 1
        → ∃ v, exec (.tclReadData p x t) s = .next v ∧ (v.port p).wantSeq = ((s.port p).wantSeq + 1) % 2 ^ 32
          ∧ (u.last = 1 → v.txn u.tag = none)
          ∧ (u.last ≠ 1 → (maskLines u.lmask 7).length < y.lines → v.txn u.tag = some { y with lines := y.lines - (maskLines u.lmask 7).length })
          ∧ (∀ k, k ≠ u.tag → v.txn k = s.txn k) ∧ s.SameBytes v ∧ v.flags = s.flags ∧ v.ctrs = s.ctrs ∧ v.cores = s.cores)
      ∧ (s.NextUnit p 5 x.toNat → y.head.kind ≠ 1
        → ∃ v, exec (.tclWriteReport p x t) s = .next v ∧ (v.port p).wantSeq = ((s.port p).wantSeq + 1) % 2 ^ 32 ∧ v.txn u.tag = none
          ∧ (∀ k, k ≠ u.tag → v.txn k = s.txn k) ∧ s.SameBytes v ∧ v.flags = s.flags ∧ v.ctrs = s.ctrs ∧ v.cores = s.cores)
      ∧ (∀ st, s.NextUnit p 6 x.toNat → u.tag ≠ 0xFFFF → errorStop u.count = some st → s.fencedJob y.part = false → (s.part y.part).stop = none
        → ∃ v, exec (.tclErrorRsp p x t) s = .next v ∧ (v.port p).wantSeq = ((s.port p).wantSeq + 1) % 2 ^ 32 ∧ v.txn u.tag = none
          ∧ (v.part y.part).stop = some (st, .fault) ∧ bitAt (v.r64 Reg.tclTxnStatus) 3 = true
          ∧ (∀ k, k ≠ u.tag → v.txn k = s.txn k) ∧ s.SameBytes v ∧ v.flags = s.flags ∧ v.ctrs = s.ctrs ∧ v.cores = s.cores))
    ∧ (s.txn u.tag = none → s.NextUnit p 5 x.toNat
      → ∃ v, exec (.tclWriteReport p x t) s = .next v ∧ v.f64 Reg.tclTxnCount1 8 12 = min (s.f64 Reg.tclTxnCount1 8 12 + 1) (2 ^ 12 - 1)
        ∧ v.txns = s.txns ∧ v.items = s.items ∧ v.parts = s.parts ∧ s.SameBytes v ∧ v.flags = s.flags ∧ v.ctrs = s.ctrs ∧ v.cores = s.cores))
    ∧ ∀ (s : State) (p : Fin 12) (v : Fin 4) (t : Nat) (y : PoolUnit), (∀ z, z ∈ (s.port p).pool → z.unit.vc = v.val → z.passed = true)
      → (s.port p).pool.find? (fun z => z.unit.vc == v.val) = some y
      → ∃ u, exec (.unitRelease p v t) s = .next u ∧ (u.port p).pool = (s.port p).pool.erase y
        ∧ (u.port p).releasedOf v = ((s.port p).releasedOf v + 1) % 2 ^ 32 ∧ (∀ w, w ≠ v.val → (u.port p).releasedOf w = (s.port p).releasedOf w)
        ∧ (∀ w, w ≠ v.val → (s.port p).lentOf w = 0 → (s.port p).held w < 192 → (s.port p).grantOf w = ((s.port p).releasedOf w + 256) % 2 ^ 32
          → (u.port p).grantOf w = (s.port p).grantOf w)
        ∧ (∀ q, q ≠ p.val → u.port q = s.port q) ∧ u = { s with ports := u.ports }

/-- TXN_START for a remote frame of one line at the head of an otherwise empty IOD queue opens a transaction with the lowest free
tag for the peer the table names and packs the line. Where the partition's quota, the window or the tags do not allow it, the
wait is counted once for the condition it waits on. A peer entry not in use ends the partition with 0x64. For a remote read item the request goes out under
its transaction. PARTIAL_UNIT_FLUSH sends the lines packed so far. TXN_TIMEOUT ends the transaction, puts its tag in quarantine
and records stop 0x65; QUARANTINE_EXPIRY frees the tag. (R297, R298, R299, R301, R303, R318, 11_tocheas_link_layer.md) -/
def Obligations.TransactionsOpenFlushAndExpire : Prop :=
  (∀ (s : State) (term : Fin 20) (t : Nat) (f : Frame) (grp : Nat), (s.modEnd (32 + term.val)).inQ = [(f, grp)] → f.gen = s.gen f.part → f.remote = 1
      → s.openTxn f = none → s.fencedJob f.part = false →
      (∀ dpart pkg, s.peerEntry f.part f.peer = some (dpart, pkg) →
        (s.startBlock term f.part pkg = 0 → f.lmask = 1 → pkg < 2 ^ 12
          → ∃ u x, exec (.txnStart (.frame term) t) s = .next u ∧ u.txn s.freePkgTag = some x ∧ x.part = f.part ∧ x.gen = f.gen ∧ x.die = f.src
            ∧ x.dieTag = f.tag ∧ x.head.dest = pkg * 8 ∧ x.head.dpart = dpart ∧ x.head.tag = s.freePkgTag ∧ x.lines = 1 ∧ x.closed = false
            ∧ x.buf = [(f.addr, leBytes 32 (fld f.data 0 256))] ∧ (u.modEnd (32 + term.val)).inQ = []
            ∧ (∀ k, k ≠ s.freePkgTag → u.txn k = s.txn k) ∧ s.SameBytes u ∧ u.flags = s.flags ∧ u.ctrs = s.ctrs ∧ u.cores = s.cores ∧ u.parts = s.parts)
        ∧ (∀ k a lo, (k, a, lo) ∈ [(1, Reg.tclTxnCount1, 32), (2, Reg.tclTxnCount0, 0), (3, Reg.tclTxnCount0, 32)]
          → s.startBlock term f.part pkg = k → Tab.get (fun _ => 0) s.txnWaits term ≠ k
          → ∃ u, exec (.txnStart (.frame term) t) s = .next u ∧ bitAt (u.r64 Reg.tclTxnStatus) (k % 3) = true
            ∧ u.f64 a lo 32 = min (s.f64 a lo 32 + 1) (2 ^ 32 - 1) ∧ u = { s with regs := u.regs, txnWaits := u.txnWaits }))
      ∧ (s.peerEntry f.part f.peer = none → (s.part f.part).stop = none
        → ∃ u, exec (.txnStart (.frame term) t) s = .next u ∧ (u.part f.part).stop = some (0x64, .fault) ∧ (u.modEnd (32 + term.val)).inQ = []
          ∧ bitAt (u.r64 Reg.tclTxnStatus) 3 = true ∧ u.txns = s.txns ∧ s.SameBytes u ∧ u.flags = s.flags ∧ u.ctrs = s.ctrs ∧ u.cores = s.cores))
    ∧ (∀ (s : State) (g : Fin 128) (pos n t q dieTag dpart pkg off : Nat) (f : Flight) (h : FlowUnit), (s.core g).flightAt pos = some f → cardOp f.card = 3
      → isSpread f.card = false → descRemote (cardDesc f.card 0) = true → 0 < descRun (cardDesc f.card 0) → descRun (cardDesc f.card 0) ≤ 32
      → f.tags.find? (fun x => x.2 == n) = some (dieTag, n) → Tab.get (fun _ => 0) f.awaited n ≠ 0 → s.fencedJob (s.ownerN g) = false
      → s.peerEntry (s.ownerN g) (descPeer (cardDesc f.card 0)) = some (dpart, pkg) → s.txnBlock (s.ownerN g) pkg = 0 → descLevel (cardDesc f.card 0) ≠ 2
      → off = itemOffset (cardDesc f.card 0) (itemQ f.card 0 n (descEng (cardDesc f.card 0))) 0
      → (∀ e, e ∈ s.txnList → e.2.head.kind = 1 → e.2.die ≠ g.val / 16)
      → h = { kind := 1, dest := pkg * 8, src := s.pkgId * 8 + g.val / 16, dpart := dpart, spart := s.ownerN g, gen := s.gen (s.ownerN g),
              lc := descLc (cardDesc f.card 0), level := descLevel (cardDesc f.card 0), addr := off, count := 0, last := 1, tag := s.freePkgTag }
      → s.routeOf none h = .port q
      → ∃ u x, exec (.txnStart (.read g pos n 0) t) s = .next u ∧ u.txn s.freePkgTag = some x ∧ x.lines = 1 ∧ x.die = g.val / 16 ∧ x.dieTag = dieTag
        ∧ u.OnPort q (fun r => r.kind = 1 ∧ r.tag = s.freePkgTag ∧ r.dest = pkg * 8 ∧ r.dpart = dpart ∧ r.addr = off ∧ r.count = 0)
        ∧ (∀ k, k ≠ s.freePkgTag → u.txn k = s.txn k) ∧ s.SameBytes u ∧ u.flags = s.flags ∧ u.ctrs = s.ctrs ∧ u.cores = s.cores ∧ u.parts = s.parts)
    ∧ (∀ (s : State) (tag t q a : Nat) (last : Bool) (x : Txn) (b : List Byte) (l : List (Nat × List Byte)) (h : FlowUnit), s.txn tag = some x
      → x.buf = (a, b) :: l
      → h = { x.head with addr := a, lmask := 2 ^ x.buf.length - 1, last := if last then 1 else 0, data := leNat (x.buf.map (·.2)).flatten }
      → s.routeOf none h = .port q
      → ∃ u, exec (.partialUnitFlush tag last t) s = .next u ∧ u.txn tag = some { x with buf := [], closed := last }
        ∧ u.OnPort q (fun r => r.kind = h.kind ∧ r.tag = h.tag ∧ r.dest = h.dest ∧ r.addr = a ∧ r.lmask = 2 ^ x.buf.length - 1 ∧ r.data = h.data
          ∧ r.last = if last then 1 else 0)
        ∧ (∀ k, k ≠ tag → u.txn k = s.txn k) ∧ s.SameBytes u ∧ u.flags = s.flags ∧ u.ctrs = s.ctrs ∧ u.cores = s.cores ∧ u.parts = s.parts)
    ∧ (∀ (s : State) (tag : Nat) (x : Txn), s.txn tag = some x → (s.part x.part).stop = none → s.fencedJob x.part = false
      → ∃ u, exec (.txnTimeout tag) s = .next u ∧ u.txn tag = none ∧ u.quarantine = s.quarantine ++ [tag] ∧ bitAt (u.r64 Reg.tclTxnStatus) 4 = true
        ∧ u.f64 Reg.tclTxnCount1 20 12 = min (s.f64 Reg.tclTxnCount1 20 12 + 1) (2 ^ 12 - 1) ∧ (u.part x.part).stop = some (0x65, .fault)
        ∧ (∀ k, k ≠ tag → u.txn k = s.txn k) ∧ s.SameBytes u ∧ u.flags = s.flags ∧ u.ctrs = s.ctrs ∧ u.cores = s.cores)
    ∧ ∀ (s : State) (tag : Nat), exec (.quarantineExpiry tag) s = .next { s with quarantine := s.quarantine.erase tag }

/-- ENABLE 0 to 1 outside a reset creates rings 0 and 128 from the admin registers, or sets FATAL where one is not usable; 1 to 0, a
function-level reset, a hot reset, a link disable, a link that goes down and PERST_N reset the host interface, all but the first
two taking the link down. READY follows when the reset has ended with the link up. PERST_N's release lets the link train. A
configuration request is answered with Retry Status while Dawn runs from step 4 on. Writing VALID clears the capture, MORE and
COUNT. (R329, R349, R350, R354, R436, R440, 13_host_rings.md, 17_dawn_resets_recovery.md) -/
def Obligations.HostInterfaceStartsResetsAndLinks : Prop :=
  (∀ s : State, bitAt (s.r32 Reg.hstCtl) 0 = false → s.host.resetting = false →
      (4 ≤ s.r64 Reg.hstAdminSq % 32 → s.r64 Reg.hstAdminSq % 32 ≤ 16 → 4 ≤ s.r64 Reg.hstAdminCq % 32 → s.r64 Reg.hstAdminCq % 32 ≤ 16
        → ∃ t, exec (.enable true) s = .next t ∧ bitAt (t.r32 Reg.hstCtl) 0 = true ∧ t.host.running = true ∧ t.f32 Reg.hstStatus 0 2 = 1
          ∧ t.ring 0 = { live := true, log2 := s.r64 Reg.hstAdminSq % 32, base := s.r64 Reg.hstAdminSq / 4096 * 4096, cq := 128 }
          ∧ t.ring 128 = { live := true, log2 := s.r64 Reg.hstAdminCq % 32, base := s.r64 Reg.hstAdminCq / 4096 * 4096 }
          ∧ (∀ q, q ≠ 0 → q ≠ 128 → t.ring q = s.ring q) ∧ t = { s with regs := t.regs, host := t.host }
          ∧ s.SameRegsBut t (fun a => a == Reg.hstCtl || a == Reg.hstStatus))
      ∧ (s.r64 Reg.hstAdminSq % 32 < 4 ∨ 16 < s.r64 Reg.hstAdminSq % 32 ∨ s.r64 Reg.hstAdminCq % 32 < 4 ∨ 16 < s.r64 Reg.hstAdminCq % 32
        → ∃ t, exec (.enable true) s = .next t ∧ bitAt (t.r32 Reg.hstCtl) 0 = true ∧ t.f32 Reg.hstStatus 0 2 = 2 ∧ t = { s with regs := t.regs }
          ∧ s.SameRegsBut t (fun a => a == Reg.hstCtl || a == Reg.hstStatus)))
    ∧ (∀ s : State, (bitAt (s.r32 Reg.hstCtl) 0 = true → ∃ t, exec (.enable false) s = .next t ∧ s.HostReset t ∧ t.host.linkUp = s.host.linkUp)
      ∧ (∃ t, exec .functionLevelReset s = .next t ∧ s.HostReset t ∧ t.host.linkUp = s.host.linkUp ∧ t.r32 Reg.hstCtl = 0)
      ∧ (∃ t, exec .hotReset s = .next t ∧ s.HostReset t ∧ t.host.linkUp = false ∧ t.r32 Reg.hstCtl = 0)
      ∧ (∃ t, exec .linkDisable s = .next t ∧ s.HostReset t ∧ t.host.linkUp = false ∧ t.r32 Reg.hstCtl = 0)
      ∧ (∃ t, exec .linkDown s = .next t ∧ s.HostReset t ∧ t.host.linkUp = false ∧ t.r32 Reg.hstCtl = 0)
      ∧ (∃ t, exec .perstN s = .next t ∧ s.HostReset t ∧ t.host.linkUp = false ∧ t.host.perst = true ∧ t.r32 Reg.hstCtl = 0)
      ∧ exec .perstNRelease s = .next { s with host := { s.host with perst := false } }
      ∧ (s.host.perst = false → exec .pcieLinkUp s = .next { s with host := { s.host with linkUp := true } })
      ∧ (s.host.perst = true → exec .pcieLinkUp s = .next s))
    ∧ (∀ s : State, s.host.resetting = true → s.host.linkUp = true → bitAt (s.r32 Reg.hstCtl) 0 = false
      → ∃ t, exec .hostInterfaceReady s = .next t ∧ t.host = { s.host with resetting := false } ∧ bitAt (t.r32 Reg.hstStatus) 0 = true
        ∧ t = { s with host := t.host, regs := t.regs } ∧ s.SameRegsBut t (fun a => a == Reg.hstStatus))
    ∧ (∀ s : State, s.host.linkUp = true →
      (fld (s.r32 Reg.dawnStatus) 28 2 = 0 → 4 ≤ fld (s.r32 Reg.dawnStatus) 24 4 → exec .configRequest s = .next { s with out := s.out ++ [.config true] })
      ∧ (fld (s.r32 Reg.dawnStatus) 28 2 = 1 → exec .configRequest s = .next { s with out := s.out ++ [.config false] }))
    ∧ ∀ s : State, ∃ t, exec .errValid s = .next t ∧ bitAt (t.r32 Reg.hstErrInfo) 31 = false ∧ bitAt (t.r32 Reg.hstErrInfo) 30 = false
      ∧ t.f32 Reg.hstErrInfo 16 8 = 0 ∧ t.f32 Reg.hstErrInfo 0 16 = s.f32 Reg.hstErrInfo 0 16 ∧ t = { s with regs := t.regs }
      ∧ s.SameRegsBut t (fun a => a == Reg.hstErrInfo)

/-- NET_ADDRESS with valid fields sets the address of a port and family. NET_WINDOW with valid fields opens a window and returns its
QPN and R_KEY, which are free values (log entry 4); NET_CLOSE closes it. An RDMA write inside a window of its peer, key and
rights stores its bytes in staging SRAM and no other byte, a read returns them; any other is answered with a remote access error
and counted. ARP, neighbour discovery and echo requests for the port's address are answered. Another frame is counted. (R351,
R352, R353, R362, R446, 13_host_rings.md) -/
def Obligations.NetworkWindowsAndRequests : Prop :=
  (∀ (s : State) (d : Desc), s.CanTell 0 →
      (netAddressStatus d = 0 → ∃ t, exec (.netAddress d) s = .next t ∧ s.Told t 0 d.cmdId 0 0 0
        ∧ (∀ k, Tab.get (fun _ => none) t.host.netAddrs k
          = if k = 2 * d.f 8 1 + (if d.f 9 1 = 6 then 1 else 0) then some ⟨d.f 10 1, d.f 11 1, d.f 12 2, d.f 16 16⟩
            else Tab.get (fun _ => none) s.host.netAddrs k)
        ∧ s.TellsOnly t ∧ s.SameRegsBut t toldRegs)
      ∧ (netWindowStatus d s = 0 → ∃ t w, exec (.netWindow d) s = .next t ∧ t.host.windows = s.host.windows ++ [w] ∧ w.port = d.f 8 1
        ∧ w.access = d.f 9 1 ∧ w.peerQpn = d.f 10 3 ∧ w.peerAddr = d.f 16 16 ∧ w.offset = d.f 32 4 ∧ w.length = d.f 36 4 ∧ w.qpn < 2 ^ 24 ∧ w.rkey < 2 ^ 32
        ∧ s.Told t 0 d.cmdId 0 (w.qpn + w.rkey * 2 ^ 32) 0
        ∧ t = { s with regs := t.regs, host := t.host, out := t.out, freeCount := s.freeCount + 2 } ∧ s.SameRegsBut t toldRegs)
      ∧ (d.zero 12 64 = true → (∃ w, w ∈ s.host.windows ∧ w.port = d.f 8 1 ∧ w.qpn = d.f 9 3)
        → ∃ t, exec (.netClose d) s = .next t ∧ s.Told t 0 d.cmdId 0 0 0
          ∧ t.host.windows = s.host.windows.filter (fun w => !(w.port == d.f 8 1 && w.qpn == d.f 9 3)) ∧ s.TellsOnly t ∧ s.SameRegsBut t toldRegs))
    ∧ ∀ (s : State) (p : Fin 2), s.netUp p = true →
      (∀ (qpn peer rkey off len : Nat) (w : NetWindow) (data : List Byte),
        (s.rdmaWindow p qpn peer rkey off data.length 0 = some w → ∃ t, exec (.rdmaWrite p qpn peer rkey off data) s = .next t
          ∧ t.rdBytes (8 * 2 ^ 36 + w.offset + off) data.length = data ∧ s.SameBytesBut t (8 * 2 ^ 36 + w.offset + off) data.length
          ∧ t.out = s.out ++ [.net p 0] ∧ t = { s with mem := t.mem, poison := t.poison, selfErr := t.selfErr, soft := t.soft, out := t.out })
        ∧ (s.rdmaWindow p qpn peer rkey off data.length 0 = none → ∃ t, exec (.rdmaWrite p qpn peer rkey off data) s = .next t
          ∧ t.out = s.out ++ [.net p 1] ∧ t.f64 (Reg.iodNetCount p) 0 32 = min (s.f64 (Reg.iodNetCount p) 0 32 + 1) (2 ^ 32 - 1)
          ∧ t = { s with regs := t.regs, out := t.out } ∧ s.SameRegsBut t (pairOf (Reg.iodNetCount p)))
        ∧ (s.rdmaWindow p qpn peer rkey off len 1 = some w → exec (.rdmaRead p qpn peer rkey off len) s
          = .next { s with out := s.out ++ [.readData len (leNat (s.rdBytes (8 * 2 ^ 36 + w.offset + off) len))] }))
      ∧ (∀ (a : NetAddr) (six : Bool),
        (Tab.get (fun _ => none) s.host.netAddrs (2 * p.val) = some a → exec (.arp p a.address) s = .next { s with out := s.out ++ [.net p 2] })
        ∧ (Tab.get (fun _ => none) s.host.netAddrs (2 * p.val + 1) = some a
          → exec (.neighbourDiscovery p a.address) s = .next { s with out := s.out ++ [.net p 3] })
        ∧ (Tab.get (fun _ => none) s.host.netAddrs (2 * p.val + (if six then 1 else 0)) = some a
          → exec (.echoRequest p six a.address) s = .next { s with out := s.out ++ [.net p 4] })
        ∧ (∀ x, Tab.get (fun _ => none) s.host.netAddrs (2 * p.val) = some a → x ≠ a.address → exec (.arp p x) s = .next s))
      ∧ ∃ t, exec (.unsupportedFrame p) s = .next t ∧ t.f64 (Reg.iodNetCount p) 32 32 = min (s.f64 (Reg.iodNetCount p) 32 32 + 1) (2 ^ 32 - 1)
        ∧ t = { s with regs := t.regs } ∧ s.SameRegsBut t (pairOf (Reg.iodNetCount p))

/-- BYPASS captures 0 and IDCODE the identification. SAMPLE_PRELOAD captures the levels and takes the cells. STATUS_READ captures
JTAG_STATUS and clears the W1C bits shifted in; JOURNAL_READ and METER_READ capture the item last named and take the next.
EXTEST, EXTEST_PULSE, EXTEST_TRAIN, CLAMP and HIGHZ hold the pins in Midnight, after a failed Dawn or with POR_N low, and act as
BYPASS with bit 4 otherwise. The production instructions of a locked part act as BYPASS with bit 5. TRST_N selects IDCODE and
gives the pins back. Where a Dawn waits for the pins, each of BYPASS, IDCODE and TRST_N gives them back and begins it, and a scan
of the instruction in force keeps it waiting. (R505, R506, R507, R508, R509, R510, R512, R513, R514, R519, 20_boundary_scan_and_test.md) -/
def Obligations.TestPortSelectsReadsAndDrivesPins : Prop :=
  (∀ s : State, s.power.pinned = none → (∃ t, exec .jtagBypass s = .next t ∧ s.Selected t 0xFF [.tdo 1 0] ∧ t = { s with jtag := t.jtag, regs := t.regs, out := t.out }
        ∧ t.jtag = { s.jtag with ir := 0xFF } ∧ s.SameRegsBut t (fun a => a == Reg.jtagStatus))
      ∧ (∃ t, exec .idcode s = .next t ∧ s.Selected t 1 [.tdo 32 (1 + Config.manufacturer.toNat * 2 + 0x0A01 * 2 ^ 12)]
        ∧ t.jtag = { s.jtag with ir := 1 } ∧ t = { s with jtag := t.jtag, regs := t.regs, out := t.out } ∧ s.SameRegsBut t (fun a => a == Reg.jtagStatus))
      ∧ (∀ levels cells : BitVec 1212, ∃ t, exec (.samplePreload levels cells) s = .next t ∧ s.Selected t 2 [.tdo 1212 levels.toNat]
        ∧ t.jtag = { s.jtag with ir := 2, cells := cells.toNat } ∧ t = { s with jtag := t.jtag, regs := t.regs, out := t.out }
        ∧ s.SameRegsBut t (fun a => a == Reg.jtagStatus))
      ∧ (∀ x : BitVec 32, ∃ t, exec (.statusRead x) s = .next t
        ∧ t.out = s.out ++ [.tdo 8 1, .tdo 32 (setFld (s.r32 Reg.jtagStatus) 2 1 0)] ∧ t.jtag = { s.jtag with ir := 0x10 }
        ∧ (∀ i, i < 32 → bitAt (t.r32 Reg.jtagStatus) i
          = (bitAt (s.r32 Reg.jtagStatus) i && (i != 2) && !(decide (4 ≤ i) && decide (i ≤ 7) && bitAt x.toNat i)))
        ∧ t = { s with jtag := t.jtag, regs := t.regs, out := t.out } ∧ s.SameRegsBut t (fun a => a == Reg.jtagStatus))
      ∧ (∀ i : Fin 1024, s.jtag.index < 1024 → ∃ t v, exec (.journalRead i) s = .next t ∧ s.Selected t 0x11 [.tdo 138 v]
        ∧ fld v 0 128 = s.rWide (Reg.dawnJournal s.jtag.index) 4 ∧ t.jtag = { s.jtag with ir := 0x11, index := i }
        ∧ t = { s with jtag := t.jtag, regs := t.regs, out := t.out, freeCount := s.freeCount + 1 } ∧ s.SameRegsBut t (fun a => a == Reg.jtagStatus))
      ∧ (∀ x : BitVec 24, ∃ t v, exec (.meterRead x) s = .next t ∧ s.Selected t 0x12 [.tdo 280 v] ∧ t.jtag = { s.jtag with ir := 0x12, selector := x.toNat }
        ∧ (∀ r, s.jtag.selector / 2 ^ 16 = 0 → s.meter.records[s.jtag.selector % 2 ^ 16 / 32]? = some r
          → fld v 0 256 = fld r.bytes (256 * (s.jtag.selector % 32)) 256)
        ∧ (s.jtag.selector / 2 ^ 16 = 2 → 1 ≤ s.jtag.selector % 2 ^ 16 → s.jtag.selector % 2 ^ 16 ≤ 11
          → fld v 0 256 = s.r64 (Reg.muAuditCount (s.jtag.selector % 2 ^ 16)))
        ∧ t = { s with jtag := t.jtag, regs := t.regs, out := t.out, freeCount := s.freeCount + 1 } ∧ s.SameRegsBut t (fun a => a == Reg.jtagStatus))
      ∧ ∃ t, exec .trstN s = .next t ∧ t.jtag = { s.jtag with ir := 1 } ∧ bitAt (t.r32 Reg.jtagStatus) 2 = false
        ∧ t = { s with jtag := t.jtag, regs := t.regs } ∧ s.SameRegsBut t (fun a => a == Reg.jtagStatus))
    ∧ (∀ (s : State) (k : Nat) (x : DawnIn), s.power.pinned = some (k, x) → k < 2 →
      (∀ i, i ∈ [Instr.jtagBypass, .idcode, .trstN] → ∃ t, exec i s = .next t ∧ t.power.pinned = none ∧ t.pinsHeld = false
        ∧ t.r32 Reg.dawnSeq = (s.r32 Reg.dawnSeq + 1) % 2 ^ 32 ∧ t.f32 Reg.dawnStatus 30 2 = k)
      ∧ ∀ levels cells : BitVec 1212, s.jtag.ir = 3 → exec (.extest levels cells) s
          = .next { s with jtag := { s.jtag with cells := cells.toNat }, out := s.out ++ [.tdo 8 1, .tdo 1212 levels.toNat, .pins 3 cells.toNat] })
    ∧ (∀ (s : State) (levels cells : BitVec 1212), s.power.pinned = none →
      (s.alarmState = 2 ∨ fld (s.r32 Reg.dawnStatus) 28 2 = 2 ∨ s.power.porLow = true →
        ∀ i op, (i, op) ∈ [(Instr.extest levels cells, 3), (.extestPulse levels cells, 6), (.extestTrain levels cells, 7)]
          → ∃ t, exec i s = .next t ∧ bitAt (t.r32 Reg.jtagStatus) 2 = true ∧ t.jtag = { s.jtag with ir := op, cells := cells.toNat }
            ∧ t.out = s.out ++ [.tdo 8 1, .tdo 1212 levels.toNat, .pins op cells.toNat]
            ∧ t = { s with jtag := t.jtag, regs := t.regs, out := t.out } ∧ s.SameRegsBut t (fun a => a == Reg.jtagStatus))
      ∧ (s.alarmState = 2 ∨ fld (s.r32 Reg.dawnStatus) 28 2 = 2 ∨ s.power.porLow = true →
        ∀ i op, (i, op) ∈ [(Instr.clamp, 4), (.highz, 5)]
          → ∃ t, exec i s = .next t ∧ bitAt (t.r32 Reg.jtagStatus) 2 = true ∧ t.jtag = { s.jtag with ir := op }
            ∧ t.out = s.out ++ [.tdo 8 1, .tdo 1 0, .pins op s.jtag.cells]
            ∧ t = { s with jtag := t.jtag, regs := t.regs, out := t.out } ∧ s.SameRegsBut t (fun a => a == Reg.jtagStatus))
      ∧ (s.alarmState ≠ 2 → fld (s.r32 Reg.dawnStatus) 28 2 ≠ 2 → s.power.porLow = false →
        ∀ i, i ∈ [Instr.extest levels cells, .extestPulse levels cells, .extestTrain levels cells, .clamp, .highz]
          → ∃ t, exec i s = .next t ∧ s.Selected t 0xFF [.tdo 1 0] ∧ bitAt (t.r32 Reg.jtagStatus) 4 = true ∧ t.jtag = { s.jtag with ir := 0xFF }
            ∧ t = { s with jtag := t.jtag, regs := t.regs, out := t.out } ∧ s.SameRegsBut t (fun a => a == Reg.jtagStatus)))
    ∧ ∀ s : State, s.sec.shadow.prodLock = true → s.power.pinned = none → ∀ i, i ∈ [Instr.scanIod, .scanCd, .fuseProd]
      → ∃ t, exec i s = .next t ∧ s.Selected t 0xFF [.tdo 1 0] ∧ bitAt (t.r32 Reg.jtagStatus) 5 = true ∧ t.jtag = { s.jtag with ir := 0xFF }
        ∧ t = { s with jtag := t.jtag, regs := t.regs, out := t.out } ∧ s.SameRegsBut t (fun a => a == Reg.jtagStatus)

/-- Below DEBUG_LOCK 2, DEBUG_CHALLENGE captures 48 bytes, which then stand as the challenge; a response that fails raises
GRANT_FAILS and ends the challenge, one that verifies erases the keys and waits for its scrub. With debug available, ACCESS with
OP 1 or 2 starts an access; its completion reads the word or writes it, or is refused with the address recorded. DIE_BIST with
START begins on a die no partition holds; its completion records the result, zeroes every memory of the die and resets it.
Closed, all act as BYPASS with bit 5. (R484, R485, R508, R515, R516, R517, R518, 20_boundary_scan_and_test.md, 18_security.md) -/
def Obligations.DebugGrantsAccessesAndBist : Prop :=
  (∀ s : State, s.debugLock < 2 → s.power.pinned = none →
      (s.grantFails ≠ 3 → ∃ t c, exec .debugChallenge s = .next t ∧ c.length = 48 ∧ t.sec = { s.sec with challenge := some c }
        ∧ s.Selected t 0x20 [.tdo 384 (leNat c)]
        ∧ t = { s with jtag := t.jtag, regs := t.regs, out := t.out, sec := t.sec, freeCount := s.freeCount + 6 }
        ∧ s.SameRegsBut t (fun a => a == Reg.jtagStatus))
      ∧ (∀ bytes, s.debugLock = 1 → s.grantFails < 3 → s.sec.granting = false →
        (s.responseOk bytes = false → ∃ t, exec (.debugResponse bytes) s = .next t ∧ t.grantFails = s.grantFails + 1
          ∧ t.sec = { s.sec with challenge := none } ∧ s.Selected t 0x21 []
          ∧ t = { s with jtag := t.jtag, regs := t.regs, out := t.out, sec := t.sec } ∧ s.SameRegsBut t (fun a => a == Reg.jtagStatus))
        ∧ (s.responseOk bytes = true → ∃ t, exec (.debugResponse bytes) s = .next t ∧ t.sec.granting = true ∧ t.sec.challenge = none ∧ t.sec.keys = false
          ∧ t.sec.sessions = [] ∧ t.grantFails = s.grantFails ∧ (∀ d, d < 8 → (t.die d).run = false) ∧ s.SameBytes t)))
    ∧ (∀ (s : State) (x : BitVec 108), s.debugOpen = true → s.jtag.access = none → s.power.pinned = none →
      (fld x.toNat 106 2 = 1 ∨ fld x.toNat 106 2 = 2 → ∃ t v, exec (.jtagAccess x) s = .next t
        ∧ t.jtag = { s.jtag with ir := 0x30, access := some (fld x.toNat 64 40, fld x.toNat 106 2 == 2, fld x.toNat 0 64), result := 1 }
        ∧ s.Selected t 0x30 [.tdo 108 v] ∧ fld v 0 64 = s.jtag.data % 2 ^ 64 ∧ fld v 104 2 = s.jtag.result % 4
        ∧ t = { s with jtag := t.jtag, regs := t.regs, out := t.out, freeCount := s.freeCount + 2 } ∧ s.SameRegsBut t (fun a => a == Reg.jtagStatus)))
    ∧ (∀ (s : State) (a data t tick : Nat) (w : Bool), s.jtag.access = some (a, w, data) →
      (s.accessBad a w = true → ∃ u, exec (.jtagAccessComplete t tick) s = .next u ∧ u.jtag = { s.jtag with access := none, result := 2, data := 0 }
        ∧ u.r64 Reg.jtagErrAddr = a % 2 ^ 64 ∧ bitAt (u.r32 Reg.jtagStatus) 6 = true ∧ u = { s with jtag := u.jtag, regs := u.regs }
        ∧ s.SameRegsBut u (fun b => b == Reg.jtagStatus || pairOf Reg.jtagErrAddr b))
      ∧ (∀ b, s.accessBad a w = false → place a = .memory b → addrDie a ≠ 14 →
        (w = true → (addrDie a < 8 → s.Still (s.landStamp (addrDie a) t) a 8)
          → ∃ u, exec (.jtagAccessComplete t tick) s = .next u ∧ u.rdBytes a 8 = leBytes 8 data ∧ s.SameBytesBut u a 8
          ∧ u.jtag = { s.jtag with access := none, result := 0, data := data }
          ∧ u = { s with jtag := u.jtag, mem := u.mem, poison := u.poison, selfErr := u.selfErr, soft := u.soft, past := u.past })
        ∧ (w = false → s.Sound a 8 → (addrDie a < 8 → s.Settled (addrDie a) t) → exec (.jtagAccessComplete t tick) s
          = .next { s with jtag := { s.jtag with access := none, result := 0, data := leNat (s.rdBytesAt t a 8) } })))
    ∧ (∀ (s : State) (x : BitVec 16), s.debugOpen = true → s.jtag.running = none → s.power.pinned = none → fld x.toNat 0 4 < 8 → fld x.toNat 4 2 ≤ 1 → bitAt x.toNat 6 = true →
      (s.dieHeld (fld x.toNat 0 4) = false → s.dieDark (fld x.toNat 0 4) = false → ∃ t, exec (.dieBist x) s = .next t
        ∧ t.jtag = { s.jtag with ir := 0x31, bist := fld x.toNat 0 4 + fld x.toNat 4 2 * 2 ^ 4, running := some (fld x.toNat 0 4, fld x.toNat 4 2) }
        ∧ s.Selected t 0x31 [.tdo 16 s.jtag.bist] ∧ t = { s with jtag := t.jtag, regs := t.regs, out := t.out }
        ∧ s.SameRegsBut t (fun a => a == Reg.jtagStatus))
      ∧ (s.dieHeld (fld x.toNat 0 4) = true → ∃ t, exec (.dieBist x) s = .next t ∧ bitAt (t.r32 Reg.jtagStatus) 7 = true
        ∧ t.jtag = { s.jtag with ir := 0x31, bist := fld x.toNat 0 4 + fld x.toNat 4 2 * 2 ^ 4 + 2 ^ 7 }
        ∧ t = { s with jtag := t.jtag, regs := t.regs, out := t.out } ∧ s.SameRegsBut t (fun a => a == Reg.jtagStatus)))
    ∧ (∀ (s : State) (pass : Bool) (t time d kind : Nat), s.jtag.running = some (d, kind) → d < 8
      → ∃ u, exec (.dieBistComplete pass t time) s = .next u
        ∧ u.jtag = { s.jtag with running := none, bist := d + kind * 2 ^ 4 + 2 ^ 7 + (if pass then 2 ^ 8 else 0) }
        ∧ (∀ a, addrDie a = d → u.rdByte a = 0) ∧ (∀ a, addrDie a ≠ d → u.rdByte a = s.rdByte a)
        ∧ (u.die d).cond = .inReset ∧ (u.die d).run = false ∧ ⟨2, d, 0, 0, none⟩ ∈ u.power.resets)
    ∧ ∀ s : State, s.debugLock = 2 ∨ s.debugLock = 3 → s.power.pinned = none → ∀ (bytes : List Byte) (x : BitVec 108) (y : BitVec 16),
      ∀ i, i ∈ [Instr.debugChallenge, .debugResponse bytes, .jtagAccess x, .dieBist y]
        → ∃ t, exec i s = .next t ∧ s.Selected t 0xFF [.tdo 1 0] ∧ bitAt (t.r32 Reg.jtagStatus) 5 = true
          ∧ t = { s with jtag := t.jtag, regs := t.regs, out := t.out } ∧ s.SameRegsBut t (fun a => a == Reg.jtagStatus)

/-- TENANT_SWITCH in Noon with no partition RUNNING and no load completes every outstanding command of rings 1 to 65 with
STATE_CONFLICT, deletes rings 1 to 65 and 129 to 255, drops the pending sets, closes every window and starts the drain that its
completion waits for. ATTEST_LOG writes every block of the last snapshot and the adapter measurements to host memory, or
completes BAD_FIELD with the bytes needed. FUSE_PROGRAM of a field that gains bits only blows it and sets FUSE_PENDING, while
SEC_PROT stays; cut at its first word it records that word, blows nothing and completes with STATE_CONFLICT; without VFUSE it raises
VFUSE_EN and waits; PROT_LOCK blown refuses it with LOCKED. That bits may be added to fields 0, 1, 2 and 7 is the model's reading
(log entry 30). (R465, R473, R474, R475, R480, R537, R538, 18_security.md, 22_electrical_mechanical.md) -/
def Obligations.TenantSwitchAttestLogAndFuses : Prop :=
  (∀ (s : State) (d : Desc), d.zero 8 64 = true → s.inNoon = true → (∀ n, n < 64 → s.pstate n ≠ 3) → s.anyLoad = false → s.power.dusk = none
      → ∃ t, exec (.tenantSwitch d) s = .next t ∧ t.power = { s.power with dusk := some ⟨.tenant, d.cmdId, false⟩ }
        ∧ t.host.sets = [] ∧ t.host.patches = [] ∧ t.host.windows = [] ∧ t.serving.requests = []
        ∧ (∀ q, (1 ≤ q ∧ q ≤ 65) ∨ (129 ≤ q ∧ q ≤ 255) → (t.ring q).live = false)
        ∧ (∀ q id, 1 ≤ q → q ≤ 65 → s.CanTell q → id ∈ (s.ring q).taken → id < 2 ^ 32 → s.Completes t q id 0x24)
        ∧ t = { s with regs := t.regs, host := t.host, out := t.out, power := t.power, serving := t.serving, parts := t.parts, loader := t.loader }
        ∧ s.SameRegsBut t toldRegs)
    ∧ (∀ (s : State) (d : Desc) (data : List Byte), d.zero 20 64 = true → s.CanTell 0
      → data = s.snapBlocks measureIndices ++ (s.sec.snap.adapters.map (fun x => x.2.2)).flatten
      → (data.length ≤ d.f 16 4 → ∃ t, exec (.attestLog d) s = .next t ∧ .hostWrite (d.f 8 8) data.length (leNat data) ∈ t.out
          ∧ s.Told t 0 d.cmdId 0 data.length 0 ∧ s.TellsOnly t ∧ s.SameRegsBut t toldRegs)
        ∧ (d.f 16 4 < data.length → ∃ t, exec (.attestLog d) s = .next t ∧ s.Told t 0 d.cmdId 0x11 data.length 0 ∧ s.TellsOnly t ∧ s.SameRegsBut t toldRegs))
    ∧ ∀ (s : State) (d : Desc), s.CanTell 0 →
      (s.sec.fuses.protLock = true → ∀ p, ∃ t, exec (.fuseProgram d p) s = .next t ∧ s.Told t 0 d.cmdId 0x48 0 0 ∧ s.TellsOnly t ∧ s.SameRegsBut t toldRegs)
      ∧ (s.sec.fuses.protLock = false → (∀ n, n < 64 → s.pstate n ≠ 3) → s.sec.writing = none → d.zero 9 16 = true → d.f 8 1 < 8
        → d.f 16 48 < 2 ^ (s.sec.fuses.field (d.f 8 1)).2 → Nat.land (d.f 16 48) (s.sec.fuses.field (d.f 8 1)).1 = (s.sec.fuses.field (d.f 8 1)).1
        → (3 ≤ d.f 8 1 → d.f 8 1 ≤ 6 → (s.sec.fuses.field (d.f 8 1)).1 = 0 ∨ d.f 16 48 = (s.sec.fuses.field (d.f 8 1)).1)
        → (∃ t, exec (.fuseProgram d .whole) s = .next t ∧ s.Told t 0 d.cmdId 0 0 0 ∧ (t.sec.fuses.field (d.f 8 1)).1 = d.f 16 48
            ∧ (∀ m, m < 8 → m ≠ d.f 8 1 → t.sec.fuses.field m = s.sec.fuses.field m) ∧ t.sec = { s.sec with fuses := t.sec.fuses }
            ∧ bitAt (t.r32 Reg.secStatus) 1 = true ∧ t = { s with regs := t.regs, host := t.host, out := t.out, sec := t.sec }
            ∧ s.SameRegsBut t (fun a => toldRegs a || a == Reg.secStatus))
          ∧ (∀ w ws, s.sec.fuses.wordsOf (d.f 8 1) (d.f 16 48) = w :: ws
            → ∃ t, exec (.fuseProgram d (.cut 0)) s = .next t ∧ s.Told t 0 d.cmdId 0x24 0 0 ∧ t.sec = { s.sec with record := s.sec.record ++ [w] }
              ∧ t = { s with regs := t.regs, host := t.host, out := t.out, sec := t.sec } ∧ s.SameRegsBut t toldRegs)
          ∧ exec (.fuseProgram d .absent) s
            = .next { s with sec := { s.sec with writing := some (some d.cmdId) }, out := s.out ++ [.land 1 true] })

/-- From the end of Dawn in Noon and Twilight, GET_VERSION is answered with version 1.3 alone, GET_CAPABILITIES with the features of
Table 18-5, NEGOTIATE_ALGORITHMS with its algorithms, or an error where the request does not offer them. GET_DIGESTS answers the
digest of slot 0's chain, GET_CERTIFICATE a portion of it, CHALLENGE and GET_MEASUREMENTS are answered with blocks of the last
snapshot; index 0 gives their number, 80; an unknown index is an error. With UDS_KILL blown, requests that need keys get an
error. The message layouts and error codes are those of the SPDM standard (log entry 29); nonces and signatures are free (log
entry 4). Nothing else changes. (R467, R468, R471, R472, R473, R481, 18_security.md) -/
def Obligations.TheResponderNegotiatesAndReports : Prop :=
  (∀ s : State, bitAt (s.r32 Reg.secStatus) 0 = true → (s.inNoon = true ∨ s.inTwilight = true)
      → (∃ t, exec .getVersion s = .next t ∧ t.sec = { s.sec with version := true, caps := false, algs := false }
          ∧ t = { s with sec := t.sec, out := s.out ++ [.spdm 8 0x1300010000000410] })
        ∧ (s.sec.version = true → ∃ t, exec .getCapabilities s = .next t ∧ t.sec = { s.sec with caps := true }
          ∧ s.SpdmSays t 0x61 0 0 (fun m => fld m 64 32 = 0x62D6) ∧ t = { s with sec := t.sec, out := t.out, freeCount := s.freeCount + 2 })
        ∧ (s.sec.version = true → s.sec.caps = true → (∃ t, exec (.negotiateAlgorithms true) s = .next t ∧ t.sec = { s.sec with algs := true }
            ∧ s.SpdmSays t 0x63 4 0 (fun m => fld m 64 32 = 4 ∧ fld m 96 32 = 0x80 ∧ fld m 128 32 = 2) ∧ t = { s with sec := t.sec, out := t.out })
          ∧ ∃ t, exec (.negotiateAlgorithms false) s = .next t ∧ s.SpdmSays t 0x7F 1 0 (fun _ => True) ∧ t = { s with out := t.out }))
    ∧ (∀ s : State, s.SpdmOpen → ∃ t, exec .getDigests s = .next t ∧ s.SpdmSays t 1 0 1 (fun m => m / 2 ^ 32 = leNat (sha384 s.certChain))
      ∧ t = { s with out := t.out })
    ∧ (∀ s : State, s.SpdmKeys →
      (∀ off len : BitVec 16, off.toNat < s.certChain.length → ∃ t, exec (.getCertificate 0 off len) s = .next t
          ∧ s.SpdmSays t 2 0 0 (fun m => fld m 32 16 = ((s.certChain.drop off.toNat).take len.toNat).length % 2 ^ 16
            ∧ m / 2 ^ 64 = leNat ((s.certChain.drop off.toNat).take len.toNat)) ∧ t = { s with out := t.out })
      ∧ (∀ (summary : Bool) (context : BitVec 64), ∃ t, exec (.spdmChallenge 0 summary context) s = .next t
          ∧ s.SpdmSays t 3 0 1 (fun m => ∃ r, m / 2 ^ 32 = leNat (sha384 s.certChain ++ r)) ∧ t = { s with out := t.out, freeCount := s.freeCount + 16 })
      ∧ (∀ (signed : Bool) (context : BitVec 64), (∃ t, exec (.getMeasurements 0 signed context) s = .next t ∧ s.SpdmSays t 0x60 80 0 (fun m => fld m 32 32 = 0)
            ∧ t = { s with out := t.out, freeCount := s.freeCount + (if signed then 16 else 4) })
          ∧ (∃ t, exec (.getMeasurements 255 signed context) s = .next t
            ∧ s.SpdmSays t 0x60 0 0 (fun m => fld m 32 8 = 80 ∧ ∃ r, m / 2 ^ 64 = leNat (s.snapBlocks measureIndices ++ r))
            ∧ t = { s with out := t.out, freeCount := s.freeCount + (if signed then 16 else 4) })
          ∧ (∀ i : BitVec 8, i.toNat ∈ measureIndices → ∃ t, exec (.getMeasurements i signed context) s = .next t
            ∧ s.SpdmSays t 0x60 0 0 (fun m => fld m 32 8 = 1 ∧ fld m 64 8 = i.toNat ∧ ∃ r, m / 2 ^ 64 = leNat (s.snapBlocks [i.toNat] ++ r))
            ∧ t = { s with out := t.out, freeCount := s.freeCount + (if signed then 16 else 4) })
          ∧ ∀ i : BitVec 8, i ≠ 0 → i ≠ 255 → i.toNat ∉ measureIndices
            → ∃ t, exec (.getMeasurements i signed context) s = .next t ∧ s.SpdmSays t 0x7F 1 0 (fun _ => True) ∧ t = { s with out := t.out }))
    ∧ ∀ s : State, s.SpdmOpen → s.sec.fuses.udsKill = true → ∀ (slot : Fin 16) (off len : BitVec 16) (index : BitVec 8) (b : Bool) (c : BitVec 64) (i : Instr),
      i = .getCertificate slot off len ∨ i = .spdmChallenge slot b c ∨ i = .getMeasurements index b c
      → ∃ t, exec i s = .next t ∧ s.SpdmSays t 0x7F 5 0 (fun _ => True) ∧ t = { s with out := t.out }

/-- With fewer than four sessions, KEY_EXCHANGE on slot 0 adds a session whose number holds the requester's half and a free half
(log entry 4), not yet finished; with four it is answered with an error and nothing changes. FINISH with good verify data
finishes the session, with bad data ends it. In a finished session HEARTBEAT, KEY_UPDATE with operations 1 to 3 and END_SESSION
are acknowledged; a missed heartbeat period and END_SESSION end that session and no other. Message layouts and error codes are
those of the SPDM standard (log entry 29). (R471, R480, R481, 18_security.md) -/
def Obligations.SessionsOpenLiveAndEnd : Prop :=
  (∀ (s : State) (reqId : BitVec 16) (summary : Bool), s.SpdmKeys →
      (s.sec.sessions.length < 4 → ∃ t id, exec (.keyExchange 0 reqId summary) s = .next t ∧ t.sec = { s.sec with sessions := s.sec.sessions ++ [⟨id, false⟩] }
        ∧ id < 2 ^ 32 ∧ id % 2 ^ 16 = reqId.toNat ∧ (∃ p, p < 256 ∧ s.SpdmSays t 0x64 p 0 (fun m => fld m 32 16 = id / 2 ^ 16))
        ∧ t = { s with sec := t.sec, out := t.out, freeCount := s.freeCount + 36 })
      ∧ (4 ≤ s.sec.sessions.length → ∃ t, exec (.keyExchange 0 reqId summary) s = .next t ∧ s.SpdmSays t 0x7F 0x0A 0 (fun _ => True)
        ∧ t = { s with out := t.out }))
    ∧ (∀ (s : State) (id : BitVec 32), s.spdmUp = true → (∃ x, x ∈ s.sec.sessions ∧ x.id = id.toNat ∧ x.finished = false)
      → (∃ t, exec (.spdmFinish id true) s = .next t ∧ t.sec.sessions = s.sec.sessions.map (fun x => if x.id = id.toNat then { x with finished := true } else x)
          ∧ s.SpdmSays t 0x65 0 0 (fun m => m < 2 ^ 32) ∧ t = { s with sec := { s.sec with sessions := t.sec.sessions }, out := t.out })
        ∧ ∃ t, exec (.spdmFinish id false) s = .next t ∧ t.sec.sessions = s.sec.sessions.filter (fun x => x.id != id.toNat)
          ∧ s.SpdmSays t 0x7F 6 0 (fun _ => True) ∧ t = { s with sec := { s.sec with sessions := t.sec.sessions }, out := t.out })
    ∧ ∀ (s : State) (id : BitVec 32), s.spdmUp = true → (∃ x, x ∈ s.sec.sessions ∧ x.id = id.toNat ∧ x.finished = true)
      → (∃ t, exec (.spdmHeartbeat id false) s = .next t ∧ s.SpdmSays t 0x68 0 0 (fun m => m < 2 ^ 32) ∧ t = { s with out := t.out })
        ∧ (∃ t, exec (.spdmHeartbeat id true) s = .next t ∧ t.sec.sessions = s.sec.sessions.filter (fun x => x.id != id.toNat)
          ∧ s.SpdmSays t 0x7F 4 0 (fun _ => True) ∧ t = { s with sec := { s.sec with sessions := t.sec.sessions }, out := t.out })
        ∧ (∀ op tag : BitVec 8, 1 ≤ op.toNat → op.toNat ≤ 3 → ∃ t, exec (.keyUpdate id op tag) s = .next t
          ∧ s.SpdmSays t 0x69 op.toNat tag.toNat (fun m => m < 2 ^ 32) ∧ t = { s with out := t.out })
        ∧ ∃ t, exec (.endSession id) s = .next t ∧ t.sec.sessions = s.sec.sessions.filter (fun x => x.id != id.toNat)
          ∧ s.SpdmSays t 0x6C 0 0 (fun m => m < 2 ^ 32) ∧ t = { s with sec := { s.sec with sessions := t.sec.sessions }, out := t.out }

/-- When VDD_MU returns, the meter starts with every counter, the log and the records empty, a BOOT_ID that is free (log entry 4)
and a POWER_UP entry, and a SELF_TEST entry where a check failed; VDD_MU's removal empties it. A change of clock is an audit
entry. A second boundary waits for a window in Noon and closes the interval as TICK elsewhere; 100 ms later it closes as LATE.
With no die still to latch, the closed interval holds the counts of the open one, and the next number opens with none.
RECORD_SEAL makes the record of the oldest closed interval: its bytes, the digest of the record before it, at most 64 kept, HELD
and an event. (R491, R492, R496, R497, R498, R499, R500, R501, 19_metering_unit.md) -/
def Obligations.IntervalsCloseAndRecordsAreSealed : Prop :=
  (∀ (s : State) (fault : Fin 3), s.meter.powered = false → ∃ t, exec (.muPowerUp fault) s = .next t
      ∧ t.meter = { powered := true, bootId := t.meter.bootId, epoch := s.r64 Reg.secTenant, calFault := decide (fault ≠ 0), audit := t.meter.audit,
                    auditSeq := t.meter.auditSeq, chain := t.meter.chain }
      ∧ t.meter.bootId < 2 ^ 64 ∧ t.meter.auditSeq = (if fault = 0 then 1 else 2)
      ∧ t.meter.audit.map (fun e => (e.1, fld e.2 192 8, fld e.2 200 56))
        = (0, 1, t.meter.bootId % 2 ^ 56) :: (if fault = 0 then [] else [(1, 2, fault.val)])
      ∧ t.r64 Reg.muTick = 0 ∧ t.r64 Reg.muLast = 0 ∧ t.r64 Reg.muCount = 0 ∧ t.r64 (Reg.muAuditCount 1) = 1
      ∧ t.r32 Reg.muStatus = (if fault = 0 then 1 else 9)
      ∧ t = { s with meter := t.meter, regs := t.regs, freeCount := s.freeCount + 1 } ∧ s.SameRegsBut t muRegs)
    ∧ (∀ s : State, ∃ t, exec .vddMuRemoval s = .next t ∧ t.meter = {} ∧ t.r32 Reg.muStatus = 0 ∧ t.r64 Reg.muTick = 0 ∧ t.r64 Reg.muLast = 0
      ∧ t.r64 Reg.muCount = 0 ∧ (∀ k, 1 ≤ k → k ≤ 11 → t.r64 (Reg.muAuditCount k) = 0) ∧ s.MeterOnly t)
    ∧ (∀ (s : State) (own : Bool) (tick : Nat), s.meter.powered = true → s.meter.Counts → tick < 2 ^ 64 → bitAt (s.r32 Reg.muStatus) 4 ≠ own
      → ∃ t, exec (.muClockSwitch own tick) s = .next t ∧ bitAt (t.r32 Reg.muStatus) 4 = own ∧ t.r64 Reg.muTick = tick
        ∧ s.Audited t 9 (if own then 1 else 0) ∧ t.meter.own = (s.meter.own || own) ∧ t.meter.number = s.meter.number ∧ s.MeterOnly t)
    ∧ (∀ (s : State) (tick : Nat), s.meter.powered = true → s.meter.Counts → tick < 2 ^ 64 → (∀ c, c ∈ s.meter.closed → c.waiting = [])
      → (s.inNoon = true → ∃ t, exec (.secondBoundary tick) s = .next t ∧ t.meter = { s.meter with due := true } ∧ t.r64 Reg.muTick = tick ∧ s.MeterOnly t)
        ∧ (s.inNoon = false → ∃ t, exec (.secondBoundary tick) s = .next t ∧ s.Closes t 2 tick ∧ t.meter.audit = s.meter.audit ∧ s.MeterOnly t)
        ∧ (s.meter.due = true → ∃ t, exec (.lateClose tick) s = .next t ∧ s.Closes t 1 tick ∧ s.Audited t 10 100
          ∧ t.f64 Reg.muCount 0 32 = min (s.f64 Reg.muCount 0 32 + 1) (2 ^ 32 - 1) ∧ s.MeterOnly t))
    ∧ ∀ (s : State) (energies : List Nat) (c : Closed) (rest : List Closed), s.meter.powered = true → s.meter.closed = c :: rest → c.waiting = []
      → s.meter.lost = 0 → s.host.events.length < 4096 → c.number < 2 ^ 64
      → ∃ t b sig, exec (.recordSeal energies) s = .next t ∧ t.meter.closed = rest ∧ sig.length = 96
        ∧ b = recordBody c s.meter energies (c.flags + rangeFlags (energies.take 16).sum (c.last - c.first)) (s.meter.energy + (energies.take 16).sum) ++ sig
        ∧ t.meter.records = (if s.meter.records.length < 64 then s.meter.records else s.meter.records.drop 1) ++ [⟨c.number, leNat b, false⟩]
        ∧ t.meter.prev = sha384 b ∧ t.meter.energy = s.meter.energy + (energies.take 16).sum
        ∧ t.meter.lost = (if 64 ≤ s.meter.records.length ∧ s.meter.records.head?.any (fun r => !r.read) then 1 else 0)
        ∧ t.r64 Reg.muLast = c.number ∧ bitAt (t.r32 Reg.muStatus) 5 = !rest.isEmpty
        ∧ t.f32 Reg.muStatus 6 2 = heldCode (t.meter.records.filter (fun r => !r.read)).length
        ∧ (∃ e, t.host.events = s.host.events ++ [e] ∧ e.type = 0x0130 ∧ fld e.data 0 64 = c.number)
        ∧ t = { s with meter := t.meter, regs := t.regs, host := t.host, freeCount := s.freeCount + 12 }
        ∧ s.SameRegsBut t (fun a => muRegs a || eventRegs a)

/-- With a COUNT in range and reserved bytes 0, MU_RECORDS writes the held records from FROM_INTERVAL on, at most COUNT, with their
number and the lowest interval held in the results, and marks them read; MU_AUDIT does so with audit entries. MU_CERT and
MU_CAL_REPORT write the stored texts, whose contents are constants of the part (log entry 16). A destination that is too small
is left alone and the command completes with BAD_FIELD and the bytes needed. None of them changes what the meter measures.
(R498, R500, R502, 19_metering_unit.md) -/
def Obligations.TheMeterAnswersItsDescriptors : Prop :=
  ∀ (s : State) (d : Desc), s.CanTell 0 →
    (∀ rs, d.zero 26 28 = true → d.zero 32 64 = true → 1 ≤ d.f 24 2 → d.f 24 2 ≤ 64
      → rs = (s.meter.records.filter (fun r => decide (d.f 16 8 ≤ r.number))).take (d.f 24 2)
      → ∃ t, exec (.muRecords d) s = .next t
        ∧ s.MuTells t d ((rs.map (fun r => leBytes 1024 r.bytes)).flatten) rs.length (s.meter.records.head?.elim 0 (fun r => r.number))
        ∧ t.meter = { s.meter with records := t.meter.records } ∧ t.meter.records.map (fun r => (r.number, r.bytes)) = s.meter.records.map (fun r => (r.number, r.bytes))
        ∧ (∀ (i : Nat) (r : MeterRec), s.meter.records[i]? = some r → t.meter.records[i]? = some { r with read :=
            r.read || (decide (1024 * rs.length ≤ d.f 28 4) && rs.any (fun x => x.number == r.number)) })
        ∧ t = { s with meter := t.meter, regs := t.regs, host := t.host, out := t.out } ∧ s.SameRegsBut t (fun a => toldRegs a || a == Reg.muStatus))
    ∧ (∀ es, d.zero 26 28 = true → d.zero 32 64 = true → 1 ≤ d.f 24 2 → d.f 24 2 ≤ 1024
      → es = (s.meter.audit.filter (fun e => decide (d.f 16 8 ≤ e.1))).take (d.f 24 2)
      → ∃ t, exec (.muAudit d) s = .next t
        ∧ s.MuTells t d ((es.map (fun e => leBytes 32 e.2)).flatten) es.length (s.meter.audit.head?.elim 0 (fun e => e.1))
        ∧ s.TellsOnly t ∧ s.SameRegsBut t toldRegs)
    ∧ (d.zero 16 28 = true → d.zero 32 64 = true
      → (∃ t, exec (.muCert d) s = .next t ∧ s.MuTells t d (Config.storedText 1) (Config.storedText 1).length 0 ∧ s.TellsOnly t ∧ s.SameRegsBut t toldRegs)
        ∧ ∃ t, exec (.muCalReport d) s = .next t ∧ s.MuTells t d (Config.storedText 2) (Config.storedText 2).length 0 ∧ s.TellsOnly t ∧ s.SameRegsBut t toldRegs)

/-- A read of shared memory returns its lines, and of a word stored with a single-bit error it reports the correction. The scrubber reads
a line only where SCRUB_IDLE lets it and the line is the next of its unit's walk: the walk moves on; an error found is reported, written
back corrected and noted for the pass, and a row whose count reaches the threshold is scheduled for remap; behind the last line the
entries of the unit's rows in which the pass found nothing are freed. An uncorrectable error poisons its word and no other, counts, is
recorded and leaves every byte; in core memory or an operand buffer, not found by a feed, it fences the core at the next Hour, and
outside images, common range and partitions nothing else happens. A repair not rewritten in 4,096 Hours is abandoned. A field write
records remapped rows, holes and lanes, in Dusk and step 14 the marks too; a word whose write is interrupted stays recorded; without
VFUSE the write fails. (R173, R174, R175, R176, R178, R179, R180, R376, R443, R537, R538, 06_memory_hierarchy.md) -/
def Obligations.ErrorsAreCorrectedPoisonedAndRecorded : Prop :=
  (∀ (s : State) (d : Fin 8) (off : BitVec 32) (n a : Nat) (up : List (BitVec 37)), a = d.val * 2 ^ 36 + off.toNat / 32 * 32 →
      (∃ t, exec (.shmReadRequest d off n up) s = .next t ∧ t.out = s.out ++ [.readData (32 * n) (leNat (s.rdBytes a (32 * n)))] ∧ s.SameBytes t)
      ∧ (s.Sound a (32 * n) → exec (.shmReadRequest d off n []) s
        = .next { s with out := s.out ++ [.readData (32 * n) (leNat (s.rdBytes a (32 * n)))] })
      ∧ (∀ w, s.soft = [] → s.poisoned (8 * w.toNat) = false → a ≤ 8 * w.toNat → 8 * w.toNat < a + 32 * n → addrDie (8 * w.toNat) = d.val
        → ∃ t, exec (.shmReadRequest d off n [w]) s = .next t ∧ s.Corrected t d (8 * w.toNat) ∧ t.isSoft (8 * w.toNat) = true ∧ s.ErrorOnly t d))
    ∧ (∀ (s : State) (d : Fin 8) (region : Fin 3) (off : BitVec 32) (a key p : Nat), a = d.val * 2 ^ 36 + region.val * 2 ^ 32 + off.toNat
      → key = scrubUnit (s.physical a) → p = s.scrubAt d key →
      (bitAt (s.r32 (Reg.cdRasCtl d)) 8 = false ∨ lineInUnit a ≠ p → ∀ up, exec (.scrubRead d region off up) s = .next (s.upset up))
      ∧ (bitAt (s.r32 (Reg.cdRasCtl d)) 8 = true → lineInUnit a = p → s.soft = [] →
        (p + 1 < unitLines key → ∃ t, exec (.scrubRead d region off []) s = .next t ∧ t.scrubAt d key = p + 1 ∧ (∀ k, k ≠ key → t.scrubAt d k = s.scrubAt d k)
          ∧ t.die d = { s.die d with scrubIdle := (t.die d).scrubIdle } ∧ (∀ x, x ≠ d.val → t.die x = s.die x) ∧ t = { s with dies := t.dies })
        ∧ (∀ (w : BitVec 37) (row : Nat), p + 1 < unitLines key → s.poisoned (8 * w.toNat) = false → addrDie (8 * w.toNat) = d.val
          → scrubUnit (s.physical (8 * w.toNat)) = key → lineInUnit (8 * w.toNat) = p → row = (rowOf (s.physical (8 * w.toNat))).1
          → ∃ t, exec (.scrubRead d region off [w]) s = .next t ∧ s.Corrected t d (8 * w.toNat) ∧ t.isSoft (8 * w.toNat) = false
            ∧ t.scrubAt d key = p + 1 ∧ s.ErrorOnly t d ∧ t.out = s.out
            ∧ ∀ e, (s.die d).rowErrs.find? (fun e => e.row == row) = some e
              → (∃ e', (t.die d).rowErrs.find? (fun e => e.row == row) = some e' ∧ e'.count = e.count + 1 ∧ e'.inPass = true)
                ∧ (max 1 (s.f32 (Reg.cdRasCtl d) 12 4) ≤ e.count + 1 → row ∉ (s.die d).remapQ
                  → Tab.get (fun _ => 0) (s.die d).sparesUsed (macroOf row) < spareRows (macroOf row)
                  → (t.die d).remapQ = (s.die d).remapQ ++ [row] ∧ bitAt (t.r32 (Reg.cdMemStatus d)) 4 = true))
        ∧ (p + 1 = unitLines key → ∃ t, exec (.scrubRead d region off []) s = .next t ∧ t.scrubAt d key = 0
          ∧ (t.die d).rowErrs = (s.die d).rowErrs.filterMap (fun e => if scrubUnit e.row = key then
              (if e.inPass then some { e with inPass := false } else none) else some e)
          ∧ t = { s with dies := t.dies } ∧ ∀ x, x ≠ d.val → t.die x = s.die x)))
    ∧ (∀ (s : State) (d : Fin 8) (region : Fin 3) (off : BitVec 32) (feed : Bool), ∃ t, exec (.eccUncorrectable d region off feed) s = .next t
      ∧ (∀ a, a = d.val * 2 ^ 36 + region.val * 2 ^ 32 + off.toNat → t.poisoned a = true ∧ (∀ x, x / 8 ≠ a / 8 → t.poisoned x = s.poisoned x)
        ∧ t.f64 (Reg.cdRasLast d) 62 2 = 2 ∧ t.f64 (Reg.cdRasLast d) 0 40 = a / 8 * 8)
      ∧ (∀ x, t.rdByte x = s.rdByte x) ∧ bitAt (t.r32 (Reg.cdMemStatus d)) 6 = true
      ∧ t.f64 (Reg.cdRasCount d) 16 16 = min (s.f64 (Reg.cdRasCount d) 16 16 + 1) (2 ^ 16 - 1)
      ∧ (∀ g, (region.val = 1 ∧ off.toNat < 16 * 0x3000000 ∧ g = 16 * d.val + off.toNat / 0x3000000)
            ∨ (region.val = 2 ∧ feed = false ∧ off.toNat < 16 * 2 ^ 23 ∧ g = 16 * d.val + off.toNat / 2 ^ 23)
          → (s.core g).fenced = false → g ∉ s.hour.toFence → t.hour = { s.hour with toFence := s.hour.toFence ++ [g] } ∧ t.core g = s.core g)
      ∧ (region.val = 0 → s.loader.images = [] → s.levelBound 0 d 3 = 0 → s.rangeOwner d off.toNat = none
          → t = { s with poison := t.poison, selfErr := t.selfErr, soft := t.soft, regs := t.regs, dies := t.dies, host := t.host }
            ∧ s.SameRegsBut t (rasRegs d)))
    ∧ (∀ (s : State) (r : Repair), r ∈ s.loader.repairs → (∀ x, x ∈ s.loader.repairs → x.id = r.id → x = r) → r.since + 4096 ≤ s.hourCount
      → ∃ t, exec (.repairAbandon r.id) s = .next t ∧ t.loader = { s.loader with repairs := s.loader.repairs.filter (fun x => x.id != r.id) }
        ∧ bitAt (t.r32 Reg.ldrStatus) 5 = true
        ∧ (∀ i x, s.repairImage r = some (i, x) → ∀ n, n ∈ s.repairParts i → (t.part n).stop = some ((s.part n).stop.getD (0x52, .fault)))
        ∧ t = { s with loader := t.loader, regs := t.regs, parts := t.parts } ∧ s.SameRegsBut t (fun a => a == Reg.ldrStatus))
    ∧ (∀ (s : State) (time : Nat), s.sec.writing = none → (∀ d, d < 8 → (s.die d).fieldRows.length ≤ 512) →
      (s.markTime = false → ∃ t, exec (.fieldFuseWrite .whole time) s = .next t ∧ t.out = s.out ++ [.land 1 true, .land 1 false]
          ∧ t.sec = { s.sec with fuses := t.sec.fuses } ∧ t.dawn = { s.dawn with marks := t.dawn.marks }
          ∧ (∀ l, l < 104 → (l ∈ t.sec.fuses.lanes ↔ l ∈ s.sec.fuses.lanes ∨ s.f64 (Reg.tclLaneMap (l / 26)) (2 * (l % 26)) 2 = 2))
          ∧ (∀ d, d < 8 → (t.die d).unrecorded = [] ∧ (∀ r, r ∈ (s.die d).unrecorded → r ∈ (t.die d).fieldRows ∨ (t.die d).fieldRows.length = 512)
            ∧ ∀ h, h ∈ (s.die d).holes → h ∈ (t.die d).fusedHoles ∨ 64 ≤ (t.die d).fusedHoles.length)
          ∧ t = { s with out := t.out, dawn := t.dawn, sec := t.sec, dies := t.dies })
        ∧ (s.markTime = true → ∃ t, exec (.fieldFuseWrite .whole time) s = .next t ∧ t.dawn = { s.dawn with marks := [] }
          ∧ (∀ key, key ∈ s.dawn.marks → t.sec.fuses.mark key = t.sec.fuses
            ∧ (key / 2 ^ 16 ∉ [2, 4, 6, 7, 13] → key / 2 ^ 12 % 16 = 3 → key % 2 ^ 12 ∈ t.sec.fuses.slotFailed))
          ∧ (∀ d, d < 8 → (t.die d).unrecorded = []) ∧ t = { s with out := t.out, dawn := t.dawn, sec := t.sec, dies := t.dies, regs := t.regs })
        ∧ (∀ k w, s.markTime = false → s.fieldWords[k]? = some w → ∃ t, exec (.fieldFuseWrite (.cut k) time) s = .next t
          ∧ t.sec = { s.sec with fuses := t.sec.fuses, record := s.sec.record ++ [w] } ∧ (k = 0 → t.sec.fuses = s.sec.fuses)
          ∧ t = { s with out := t.out, dawn := t.dawn, sec := t.sec, dies := t.dies })
        ∧ exec (.fieldFuseWrite .absent time) s = .next { s with out := s.out ++ [.land 1 true], sec := { s.sec with writing := some none } })
    ∧ ∀ s : State, (s.sec.writing = some none → exec .vfuseCheck s = .next { s with out := s.out ++ [.land 1 false], sec := { s.sec with writing := none } })
      ∧ ∀ d : Desc, s.sec.writing = some (some d.cmdId) → s.CanTell 0 → ∃ t, exec .vfuseCheck s = .next t ∧ t.sec = { s.sec with writing := none }
        ∧ s.Told t 0 d.cmdId 0x24 0 0 ∧ .land 1 false ∈ t.out ∧ t = { s with sec := t.sec, regs := t.regs, host := t.host, out := t.out } ∧ s.SameRegsBut t toldRegs

/-- With no partition LOADED or RUNNING and no load, TRUST_KEY installs the SHA-384 fingerprint of its key in a slot, unless the key
is not one of the pinned ones where that fuse is blown, or removes it. IMAGE_FEED gives the load that reads the ring the
announced bytes, wrapping in the ring; FEED_TIMEOUT ends a load whose header has not come as truncated. FIRMWARE_UPDATE writes
an accepted image to the copy that does not run, or completes with the status of the check. A REPAIR_REQUEST names the first
repair that needs source bytes, or waits. IMAGE_REPAIR and the loader's own re-read write the unit only where its CRC-64
matches, and abandon the repair otherwise. (R361, R363, R376, R469, R470, R480, 14_model_images_and_loading.md, 18_security.md) -/
def Obligations.KeysFeedsFirmwareAndRepairs : Prop :=
  (∀ (s : State) (d : Desc) (key : HostRead), s.CanTell 0 → d.zero 10 16 = true → d.zero 28 64 = true → d.f 8 1 ≤ 15 → s.loadsClosed = none
      → (∀ n, n < 64 → s.loadedOrRunning n = false) → (∀ l, l ∈ s.loader.loads → l.counts = false)
      → (d.f 9 1 = 1 → ∃ t, exec (.trustKey d key) s = .next t ∧ s.Told t 0 d.cmdId 0 0 0
          ∧ (∀ k, Tab.get (fun _ => none) t.sec.trust k = if k = d.f 8 1 then none else Tab.get (fun _ => none) s.sec.trust k)
          ∧ t.f32 Reg.ldrStatus 16 5 = t.sec.trust.length % 32 ∧ t = { s with sec := { s.sec with trust := t.sec.trust }, regs := t.regs, host := t.host, out := t.out }
          ∧ s.SameRegsBut t (fun a => toldRegs a || a == Reg.ldrStatus))
        ∧ (∀ b, d.f 9 1 = 0 → (d.f 24 4 = 97 ∨ d.f 24 4 = 1952) → d.f 16 8 + d.f 24 4 ≤ 2 ^ 64 → key = .bytes b →
          (bitAt s.sec.shadow.partRules 6 = false ∨ (∃ i, i < 4 ∧ Tab.get (fun _ => 0) s.sec.shadow.pins i ≠ 0
              ∧ leBytes 48 (Tab.get (fun _ => 0) s.sec.shadow.pins i) = sha384 (b.take (d.f 24 4)))
            → ∃ t, exec (.trustKey d key) s = .next t ∧ s.Told t 0 d.cmdId 0 0 0
              ∧ (∀ k, Tab.get (fun _ => none) t.sec.trust k = if k = d.f 8 1 then some (sha384 (b.take (d.f 24 4))) else Tab.get (fun _ => none) s.sec.trust k)
              ∧ t = { s with sec := { s.sec with trust := t.sec.trust }, regs := t.regs, host := t.host, out := t.out }
              ∧ s.SameRegsBut t (fun a => toldRegs a || a == Reg.ldrStatus))
          ∧ (bitAt s.sec.shadow.partRules 6 = true → (∀ i, i < 4 → Tab.get (fun _ => 0) s.sec.shadow.pins i = 0
              ∨ leBytes 48 (Tab.get (fun _ => 0) s.sec.shadow.pins i) ≠ sha384 (b.take (d.f 24 4)))
            → ∃ t, exec (.trustKey d key) s = .next t ∧ s.Told t 0 d.cmdId 0x48 0 0 ∧ s.TellsOnly t ∧ s.SameRegsBut t toldRegs)))
    ∧ (∀ (s : State) (d : Desc) (l : Load), s.loader.loads.find? (fun l => l.feed && l.ready.isNone && l.desc.f 20 4 == d.f 8 4) = some l
      → (s.CanTell 0 → d.zero 16 64 = true → d.f 12 4 ≤ l.desc.f 32 4 → l.counts = true → l.got.length + d.f 12 4 < 64
        → ∃ t bs, exec (.imageFeed d) s = .next t ∧ s.Told t 0 d.cmdId 0 0 0 ∧ bs.length = d.f 12 4
          ∧ (∀ i, i < d.f 12 4 → bs[i]? = some (s.rdByte (stagingAddr (l.desc.f 20 4 + (l.got.length + i) % l.desc.f 32 4))))
          ∧ t.loader = { s.loader with bytesIn := s.loader.bytesIn + d.f 12 4, loads := s.loader.loads.map (fun x => if x.rid = l.rid ∧ x.desc = l.desc then { l with got := l.got ++ bs } else x) }
          ∧ t = { s with loader := t.loader, regs := t.regs, host := t.host, out := t.out })
        ∧ (s.CanTell l.rid → l.cmdId < 2 ^ 32 → l.counts = true → l.got.length < 64 → ∃ t, exec (.feedTimeout (d.f 8 4)) s = .next t
          ∧ s.Told t l.rid l.cmdId 0x46 0 (failAt 2 0xFFFF 0xFF) ∧ t.f64 Reg.ldrCount 0 8 = min (s.f64 Reg.ldrCount 0 8 + 1) 255
          ∧ t.loader = { s.loader with loads := s.loader.loads.filter (fun x => !(x.rid == l.rid && x.desc == l.desc)) }
          ∧ t = { s with loader := t.loader, regs := t.regs, host := t.host, out := t.out }))
    ∧ (∀ (s : State) (d : Desc) (b : List Byte), s.CanTell 0 → sourceOk d [] = true → d.f 18 1 = 0 → wraps d = false →
      (∀ st, s.firmwareCheck b = (st, none) → ∃ t, exec (.firmwareUpdate d (.bytes b)) s = .next t ∧ s.Told t 0 d.cmdId st 0 0 ∧ t.sec = s.sec ∧ s.SameBytes t)
      ∧ (∀ k f, s.firmwareCheck b = (0, some (k, f)) → ∃ t, exec (.firmwareUpdate d (.bytes b)) s = .next t ∧ s.Told t 0 d.cmdId 0 0 0
        ∧ (∀ c, t.firmwareCopy k c = if c = 1 - Tab.get (fun _ => 0) s.sec.running k % 2 then f else s.firmwareCopy k c)
        ∧ Tab.get (fun _ => 0) t.sec.first k = 1 - Tab.get (fun _ => 0) s.sec.running k % 2 ∧ t.sec.running = s.sec.running ∧ s.SameBytes t))
    ∧ (∀ (s : State) (d : Desc), d.zero 8 64 = true →
      ((∀ r, r ∈ s.loader.repairs → r.asked = true ∨ (s.repairImage r).any (fun x => x.1.retain) = true)
        → exec (.repairRequest d) s = .next { s with loader := { s.loader with requests := s.loader.requests ++ [d.cmdId] } })
      ∧ (∀ r, s.CanTell 0 → s.loader.requests = [] → s.loader.repairs.find? (fun r => !r.asked && !((s.repairImage r).any (fun x => x.1.retain))) = some r
        → ∃ t, exec (.repairRequest d) s = .next t ∧ s.Told t 0 d.cmdId 0 (r.id + r.sec * 2 ^ 32) 0
          ∧ t.loader = { s.loader with repairs := s.loader.repairs.map (fun x => if x.id = r.id then { x with asked := true } else x) }
          ∧ t = { s with loader := t.loader, regs := t.regs, host := t.host, out := t.out } ∧ s.SameRegsBut t toldRegs))
    ∧ ∀ (s : State) (d : Desc) (r : Repair) (i : Image) (x : Section) (b bs : List Byte) (e : Extent) (u : Nat × List Byte) (c : Instr),
      ((c = .imageRepair d (.bytes b) ∧ sourceOk d [(40, 44)] = true ∧ d.f 18 1 = 0 ∧ wraps d = false ∧ d.f 40 4 = r.id)
        ∨ (c = .rewriteComplete r.id (b.take x.srcLen) ∧ i.retain = true))
      → s.loader.repairs.find? (fun y => y.id == r.id) = some r → s.repairImage r = some (i, x) → s.rebuild i.part x (b.take x.srcLen) = some bs
      → i.extents.find? (fun e => e.sec == r.sec) = some e → (unitPieces e.base bs).find? (fun u => u.1 == r.unit) = some u
      → (crc64 u.2 = Tab.get (fun _ => 0) i.crcs (pieceKey r.sec r.unit) → ∃ t, exec c s = .next t
          ∧ t.rdBytes (max e.base (r.unit * 65536)) u.2.length = u.2 ∧ s.SameBytesBut t (max e.base (r.unit * 65536)) u.2.length
          ∧ t.loader.repairs = s.loader.repairs.filter (fun y => y.id != r.id) ∧ t.loader.images = s.loader.images
          ∧ t.f64 Reg.ldrCount 8 16 = min (s.f64 Reg.ldrCount 8 16 + 1) (2 ^ 16 - 1))
        ∧ (crc64 u.2 ≠ Tab.get (fun _ => 0) i.crcs (pieceKey r.sec r.unit) → ∃ t, exec c s = .next t ∧ s.SameBytes t
          ∧ t.loader.repairs = s.loader.repairs.filter (fun y => y.id != r.id) ∧ bitAt (t.r32 Reg.ldrStatus) 5 = true
          ∧ ∀ n, n ∈ s.repairParts i → (t.part n).stop = some ((s.part n).stop.getD (0x52, .fault)))

/-- With its fields in range and step 1 passed, a LOAD, PLACE_CHECK, ADAPTER_LOAD or BASE_LOAD that reads a feed joins the loads in
progress and ACTIVE counts it. One that reads an image from host memory completes at the first of steps 3 to 6 that fails, with
that step, section and die, and writes no byte of memory; a PLACE_CHECK that passes them completes with OK and writes none. With
every check passed, an adapter or base becomes resident and completes; a program's tables are built, the peer table from its job's
placement (log entry 50), and LOAD_COMPLETE completes its LOAD after the window in which its registers applied. A LOAD first chooses
the idle slots of its clusters again. (R211, R361, R364, R365, R366, R368, R369, R370, R371, R372, R432,
14_model_images_and_loading.md) -/
def Obligations.LoadsAreTakenCheckedAndCompleted : Prop :=
  (∀ (s u : State) (d : Desc) (src : HostRead) (n : Fin 64) (job : JobPlacement) (rid : Nat) (c : Instr),
      ((c = .loadImage n d src job ∧ d.f 0 1 = 2 ∧ rid = n.val + 1 ∧ sourceOk d [] = true ∧ u = s.rechoose n)
        ∨ (job = ⟨[], []⟩ ∧ u = s ∧ ((c = .placeCheck n d src ∧ d.f 0 1 = 1 ∧ rid = n.val + 1 ∧ sourceOk d [] = true)
          ∨ (c = .adapterLoad n d src ∧ d.f 0 1 = 4 ∧ rid = n.val + 1 ∧ sourceOk d [(40, 42)] = true ∧ (∃ p, s.program n = some p ∧ d.f 40 2 < p.slots))
          ∨ (c = .baseLoad d src ∧ d.f 0 1 = 0x3A ∧ rid = 0 ∧ sourceOk d [(40, 41)] = true ∧ d.f 40 1 ≠ 0
            ∧ ∀ k, k < 8 → bitAt (d.f 40 1) k = true → s.dieAbsent k = false))))
      → s.step1 rid d = none → wraps d = false →
        (d.f 18 1 = 1 → s.feedOk d = true
          → ∃ t, exec c s = .next t ∧ t.loader = { s.loader with loads := s.loader.loads ++ [⟨rid, d.cmdId, d, [], true, none, job⟩] }
          ∧ t.f32 Reg.ldrStatus 0 3 = (t.loader.loads.filter Load.counts).length % 8 ∧ t = { u with loader := t.loader, regs := t.regs }
          ∧ u.SameRegsBut t (fun a => a == Reg.ldrStatus))
        ∧ (∀ (b : List Byte) (l : Load), d.f 18 1 = 0 → src = .bytes b → l = ⟨rid, d.cmdId, d, [], false, none, job⟩ → 64 ≤ b.length
          → headerOk l.kind b = true → imgLen b ≤ b.length → imgManEnd b ≤ b.length → s.CanTell rid →
          (∀ st step sec die, u.preChecks l b = some (st, step, sec, die)
            → ∃ t, exec c s = .next t ∧ s.Told t rid d.cmdId st 0 (failAt step sec die) ∧ s.SameBytes t
              ∧ t.loader.loads = s.loader.loads.filter (fun x => !(x.rid == rid && x.desc == d)) ∧ t.loader.images = s.loader.images
              ∧ t.f64 Reg.ldrCount 0 8 = min (s.f64 Reg.ldrCount 0 8 + 1) 255)
          ∧ (d.f 0 1 = 1 → s.preChecks l b = none → ∃ t, exec c s = .next t ∧ s.Told t rid d.cmdId 0 0 0 ∧ s.SameBytes t
            ∧ (d.f 24 8 ≠ 0 → .hostWrite (d.f 24 8) 2048 (s.dryReport 0 n (s.slotAt n l.slot).2 b) ∈ t.out)
            ∧ t.loader.loads = s.loader.loads.filter (fun x => !(x.rid == rid && x.desc == d)) ∧ t.loader.images = s.loader.images)
          ∧ (d.f 0 1 = 4 ∨ rid = 0 → s.preChecks l b = none → gapsOk b = true → (∀ p, p ∈ imgSections b → s.sectionStatus l.part b p = none)
            → ∃ t img, exec c s = .next t ∧ t.loader.images = s.loader.images ++ [img] ∧ img.kind = l.kind ∧ img.digest = sha384 (imgMessage b)
              ∧ (rid ≠ 0 → img.part = n.val ∧ img.slot = d.f 40 2 ∧ t.loader.opening = s.loader.opening ++ [(n.val, d.f 40 2)])
              ∧ (rid = 0 → img.dieMask = d.f 40 1 ∧ t.loader.opening = s.loader.opening)
              ∧ s.Told t rid d.cmdId 0 (s.writtenBy l b (imgSections b).length) (s.badElements l.part b)
              ∧ ∀ p a bs k, imgSections b = [p] → s.sectionDest l p.1 = some a → s.sectionBytes l.part b p = some (bs, k)
                → t.rdBytes a bs.length = bs ∧ s.SameBytesBut t a bs.length)
          ∧ (∀ y rel raw, d.f 0 1 = 2 → rid ≠ 0 → y = u.buildPeers n job → u.preChecks l b = none → gapsOk b = true
            → (∀ p, p ∈ imgSections b → u.sectionStatus n b p = none)
            → u.programStreams n b true = some rel → u.programStreams n b false = some raw → y.externalsOk n raw = true
            → (∀ p, p ∈ rel → y.peersOk n p.2 = true)
            → ((y.multicastNeeds n (rel.map (fun p => ((y.coreOf n p.1).getD 0, p.2)))).bind (y.buildMulticast n)).isSome = true
            → ∃ t x img r0 r1, exec c s = .next t ∧ x ∈ t.loader.loads ∧ x.rid = rid ∧ x.desc = d ∧ x.ready = some (img, r0, r1) ∧ img.kind = 0
              ∧ img.part = n.val ∧ img.digest = sha384 (imgMessage b) ∧ t.loader.images = s.loader.images ∧ t.pstate n = s.pstate n)))
    ∧ ∀ (s : State) (n : Fin 64) (l : Load) (img : Image) (r0 r1 : Nat),
      s.loader.loads.find? (fun l => l.rid == n.val + 1 && l.ready.isSome && l.kind == 0) = some l → l.ready = some (img, r0, r1)
      → (s.program n).isSome = true → s.loadedOrRunning n = true → s.CanTell (n.val + 1) → l.cmdId < 2 ^ 32
      → ∃ t, exec (.loadComplete n) s = .next t ∧ s.Told t (n.val + 1) l.cmdId 0 r0 r1
        ∧ t.loader = { s.loader with loads := s.loader.loads.filter (fun x => !(x.rid == l.rid && x.desc == l.desc)) }
        ∧ t = { s with loader := t.loader, regs := t.regs, host := t.host, out := t.out } ∧ s.SameRegsBut t (fun a => toldRegs a || a == Reg.ldrStatus)

/-- UNLOAD of a LOADED or STOPPED partition returns it to ASSIGNED with no image, group or serving record and every LEN staged as 0,
completes its adapter loads with STATE_CONFLICT and its adapter unloads with OK, and publishes a snapshot; no byte of memory changes.
BASE_UNLOAD takes a base that no such partition uses off its dies. ADAPTER_UNLOAD closes its slot, and STOP waits for a step
boundary; both complete later. EXPORT of a LOADED or STOPPED partition's tensor writes it, converted, to staging SRAM or host
memory, with the bytes in RESULT0, unless a fuse forbids it. No other partition changes state. (R369, R370, R371, R373, R375,
R465, R473, 14_model_images_and_loading.md) -/
def Obligations.PartitionsUnloadStopAndExport : Prop :=
  (∀ (s : State) (n : Fin 64) (d : Desc), d.zero 8 64 = true → (s.pstate n = 2 ∨ s.pstate n = 4) → s.CanTell (n.val + 1)
      → ∃ t, exec (.unloadImage n d) s = .next t ∧ t.pstate n = 1 ∧ (∀ m, m < 64 → m ≠ n.val → t.pstate m = s.pstate m)
        ∧ s.Completes t (n.val + 1) d.cmdId 0
        ∧ (∀ l, l ∈ s.loader.loads → l.counts = true → l.rid = n.val + 1 → l.op = 4 → l.cmdId < 2 ^ 32 → s.Completes t (n.val + 1) l.cmdId 0x24)
        ∧ (∀ x, x ∈ s.loader.unloads → x.1 = n.val → x.2.2 < 2 ^ 32 → s.Completes t (n.val + 1) x.2.2 0)
        ∧ t.loader.images = s.loader.images.filter (fun i => i.kind == 1 || i.part != n.val) ∧ t.loader.unloads = s.loader.unloads.filter (fun x => x.1 != n.val)
        ∧ t.groups = s.groups.filter (fun x => x.part != n.val) ∧ t.serve n = none ∧ t.sec = { s.sec with snap := t.sec.snap }
        ∧ t.sec.snap.seq = s.sec.snap.seq + 1
        ∧ (∀ g, g ∈ s.lcs n → t.stagedAt (Reg.coreStream (g / 16) (g % 16)) = none ∧ t.stagedAt (Reg.coreStream (g / 16) (g % 16) + 4) = some 0
          ∧ t.seqState g = 0 ∧ (t.core g).flights = [] ∧ (t.core g).queue = [] ∧ (t.core g).closed = (s.core g).closed)
        ∧ (∀ g, g ∉ s.lcs n → t.core g = s.core g) ∧ (∀ x, t.die x = { s.die x with mesh := (t.die x).mesh })
        ∧ t = { s with regs := t.regs, staged := t.staged, cores := t.cores, dies := t.dies, loader := t.loader, host := t.host, out := t.out
                       groups := t.groups, serving := t.serving, parts := t.parts, sec := t.sec })
    ∧ (∀ (s : State) (d : Desc), d.zero 9 64 = true → s.CanTell 0
      → (∀ n p k b, n < 64 → 2 ≤ s.pstate n → s.program n = some p → k < 8 → bitAt (d.f 8 1) k = true → s.hasCoreOn n k = true → s.base k = some b
          → b.digest ≠ p.baseRef)
      → (∀ l, l ∈ s.loader.loads → l.counts = true → l.kind = 1 → ∀ k, k < 8 → bitAt (d.f 8 1) k = true → bitAt (l.desc.f 40 1) k = false)
      → ∃ t, exec (.baseUnload d) s = .next t ∧ s.Told t 0 d.cmdId 0 0 0 ∧ (∀ k, k < 8 → bitAt (d.f 8 1) k = true → t.base k = none)
        ∧ (∀ k, k < 8 → bitAt (d.f 8 1) k = false → (t.base k).map (fun b => b.digest) = (s.base k).map (fun b => b.digest))
        ∧ (∀ i, i.kind ≠ 1 → (i ∈ t.loader.images ↔ i ∈ s.loader.images)) ∧ t.sec.snap.seq = s.sec.snap.seq + 1
        ∧ t = { s with regs := t.regs, host := t.host, out := t.out, loader := { s.loader with images := t.loader.images }, sec := { s.sec with snap := t.sec.snap } }
        ∧ s.SameRegsBut t toldRegs)
    ∧ (∀ (s : State) (n : Fin 64) (d : Desc),
      (d.zero 10 64 = true → (∀ p, s.program n = some p → d.f 8 2 < p.slots) → (s.adapter n (d.f 8 2)).isSome = true
        → (∀ x, x ∈ s.loader.unloads → x.1 = n.val → x.2.1 ≠ d.f 8 2)
        → exec (.adapterUnload n d) s = .next { s with loader := { s.loader with
            unloads := s.loader.unloads ++ [(n.val, d.f 8 2, d.cmdId)]
            opening := s.loader.opening.filter (fun x => !(x.1 == n.val && x.2 == d.f 8 2)) } })
      ∧ (d.zero 8 64 = true → s.pstate n = 3 → (s.part n).stopCmd = none
        → ∃ t, exec (.stopPart n d) s = .next t ∧ t.part n = { s.part n with stopCmd := some (d.cmdId, s.hourCount) }
          ∧ (∀ m, m ≠ n.val → t.part m = s.part m) ∧ t = { s with parts := t.parts }))
    ∧ ∀ (s : State) (n : Fin 64) (d : Desc) (g a : Nat) (list : Option (List (Nat × Nat))), s.coreOf n (d.f 27 1) = some g → s.CanTell (n.val + 1)
      → (s.pstate n = 2 ∨ s.pstate n = 4) → d.f 18 1 ≤ 1 → d.f 19 1 ≤ 2 → d.f 24 1 ≤ 0xB → pubKnown (d.f 25 1) = true → d.f 26 1 ≤ 3
      → d.zero 28 32 = true → d.zero 56 64 = true
      → d.f 32 8 + layoutSize (d.f 24 1) (d.f 19 1) (d.f 40 8) (d.f 48 8) ≤ s.levelBound n (g / 16) (d.f 26 1)
      → (d.f 18 1 = 1 → d.f 20 4 + pubSize (d.f 25 1) (d.f 19 1) (d.f 40 8) (d.f 48 8) ≤ stagingOpen)
      → (d.f 18 1 = 0 → d.f 16 2 ≠ 0 ∧ d.f 8 8 + 16 * d.f 16 2 ≤ 2 ^ 64) → a = levelAddr (d.f 26 1) g 0 0 (s.levelBase n (g / 16) (d.f 26 1) + d.f 32 8)
      → (bitAt s.sec.shadow.partRules 0 = true → ∃ t, exec (.exportData n d list) s = .next t ∧ s.Told t (n.val + 1) d.cmdId 0x48 0 0 ∧ s.TellsOnly t)
        ∧ (bitAt s.sec.shadow.partRules 0 = false → s.Sound a (layoutSize (d.f 24 1) (d.f 19 1) (d.f 40 8) (d.f 48 8)) → ∀ c, c = exportTensor (d.f 24 1) (d.f 25 1) (d.f 19 1) (d.f 40 8) (d.f 48 8)
              (s.rdBytes a (layoutSize (d.f 24 1) (d.f 19 1) (d.f 40 8) (d.f 48 8))) →
            (d.f 18 1 = 1 → ∃ t, exec (.exportData n d list) s = .next t ∧ t.rdBytes (stagingAddr (d.f 20 4)) c.bytes.length = c.bytes
              ∧ s.SameBytesBut t (stagingAddr (d.f 20 4)) c.bytes.length ∧ s.Told t (n.val + 1) d.cmdId 0 c.bytes.length (min 255 c.bad)
              ∧ t = { s with mem := t.mem, poison := t.poison, selfErr := t.selfErr, soft := t.soft, regs := t.regs, host := t.host, out := t.out })
            ∧ (∀ x k, d.f 18 1 = 0 → list = some [(x, k)] → x + k ≤ 2 ^ 64 → c.bytes.length ≤ k → c.bytes ≠ []
              → ∃ t, exec (.exportData n d list) s = .next t ∧ .hostWrite x c.bytes.length (leNat c.bytes) ∈ t.out
                ∧ s.Told t (n.val + 1) d.cmdId 0 c.bytes.length (min 255 c.bad) ∧ s.TellsOnly t))

/-- On a RUNNING serving partition, a SUBMIT with fields in range, an open adapter slot, a prompt below the context limit, room
among 4,096 and within quota becomes a queued request, and nothing is completed. One at the context limit completes with
CONTEXT_LIMIT, above 4,096 with RING_FULL, above quota with OVER_QUOTA and reason 1, and on a partition that does not serve with
STATE_CONFLICT and reason 6. CANCEL ends a queued request with CANCELLED, marks an admitted one, and answers 1 for one that has
ended and 2 for one never taken. (R386, R387, R388, R402, R403, R404, 15_serving_engine.md) -/
def Obligations.RequestsAreSubmittedAndCancelled : Prop :=
  (∀ (s : State) (d : Desc) (prompt : HostRead) (tick n : Nat), n = d.f 8 1 → submitFieldsOk d = true → s.CanTell 65
      → (∀ r, r ∈ s.serving.requests → r.part = n → r.cmdId ≠ d.cmdId) → d.f 16 8 % 4 = 0 → d.f 40 8 % 4096 = 0 → d.f 56 8 % 8 = 0 →
      ((s.pstate n ≠ 3 ∨ s.serve n = none) → ∃ t, exec (.submit d prompt tick) s = .next t ∧ s.Told t 65 d.cmdId 0x24 0 (6 * 2 ^ 32 + 0xFFFF * 2 ^ 40)
        ∧ s.TellsOnly t ∧ s.SameRegsBut t toldRegs)
      ∧ (∀ v, s.pstate n = 3 → s.serve n = some v → topKOk (some v) (d.f 50 2) = true → s.slotOpen n (d.f 10 2) = true →
        (v.maxCtx ≤ d.f 24 4 → ∃ t, exec (.submit d prompt tick) s = .next t ∧ s.Told t 65 d.cmdId 0x31 0 (0xFFFF * 2 ^ 40) ∧ s.TellsOnly t
          ∧ t.f64 Reg.srvCount0 32 32 = min (s.f64 Reg.srvCount0 32 32 + 1) (2 ^ 32 - 1))
        ∧ (d.f 24 4 < v.maxCtx → 4096 ≤ s.serving.requests.length → ∃ t, exec (.submit d prompt tick) s = .next t
          ∧ s.Told t 65 d.cmdId 0x20 0 (0xFFFF * 2 ^ 40) ∧ bitAt (t.r32 Reg.srvStatus) 0 = true ∧ s.TellsOnly t)
        ∧ (d.f 24 4 < v.maxCtx → s.serving.requests.length < 4096 → s.f64 (Reg.topPartQuota n) 24 13 < (s.requestsOf n).length + 1
          → ∃ t, exec (.submit d prompt tick) s = .next t ∧ s.Told t 65 d.cmdId 0x21 0 (1 * 2 ^ 32 + 0xFFFF * 2 ^ 40) ∧ s.TellsOnly t ∧ s.SameRegsBut t toldRegs)
        ∧ (∀ b, d.f 24 4 < v.maxCtx → s.serving.requests.length < 4096 → (s.requestsOf n).length + 1 ≤ s.f64 (Reg.topPartQuota n) 24 13 → prompt = .bytes b
          → ∃ t r, exec (.submit d prompt tick) s = .next t ∧ t.serving = { s.serving with requests := s.serving.requests ++ [r] } ∧ r.state = .queued
            ∧ r.part = n ∧ r.cmdId = d.cmdId ∧ r.prompt.length = d.f 24 4
            ∧ (∀ i, i < d.f 24 4 → r.prompt[i]? = some (leNat ((b.drop (4 * i)).take 4)))
            ∧ r.maxNew = d.f 12 4 ∧ r.share = bitAt (d.f 9 1) 0 ∧ r.cache = bitAt (d.f 9 1) 1 ∧ r.greedy = bitAt (d.f 9 1) 2 ∧ r.adapter = d.f 10 2
            ∧ r.temp = d.f 28 4 ∧ r.seed = d.f 32 8 ∧ r.outAddr = d.f 40 8 ∧ r.outLog2 = d.f 48 1 ∧ r.topK = d.f 50 2 ∧ r.deadline = d.f 52 4
            ∧ r.headAddr = d.f 56 8 ∧ r.takenAt = tick ∧ r.slot = none ∧ r.tokens = [] ∧ r.blocks = [] ∧ r.written = 0
            ∧ t.f64 Reg.srvActive 32 13 = max (s.f64 Reg.srvActive 32 13) (s.serving.requests.length + 1)
            ∧ t = { s with serving := t.serving, regs := t.regs } ∧ s.SameRegsBut t (pairOf Reg.srvActive))))
    ∧ ∀ (s : State) (d : Desc) (n id : Nat), n = d.f 8 1 → id = d.f 12 4 → n < 64 → d.zero 9 12 = true → d.zero 16 64 = true → s.CanTell 65 →
      ((∀ r, r ∈ s.serving.requests → r.part = n → r.cmdId ≠ id) → ∃ t, exec (.cancel d) s = .next t
        ∧ s.Told t 65 d.cmdId 0 (if s.serving.past.contains (n, id) then 1 else 2) 0 ∧ s.TellsOnly t ∧ s.SameRegsBut t toldRegs)
      ∧ (∀ r, (s.requestsOf n).find? (fun r => r.cmdId == id) = some r →
        (r.state = .queued → (∀ v, s.serve n = some v → v.plan = none) → ∃ t, exec (.cancel d) s = .next t
          ∧ t.serving.requests = s.serving.requests.filter (fun x => !(x.part == n && x.cmdId == id))
          ∧ s.Completes t 65 id 0x30 ∧ s.Completes t 65 d.cmdId 0 ∧ t.f64 Reg.srvCount0 0 16 = min (s.f64 Reg.srvCount0 0 16 + 1) (2 ^ 16 - 1)
          ∧ t = { s with serving := t.serving, regs := t.regs, host := t.host, out := t.out })
        ∧ ((r.state = .prefill ∨ r.state = .decode ∨ r.state = .paused) → r.ending ≠ some 0x55 → ∃ t, exec (.cancel d) s = .next t
          ∧ t.serving.requests = s.serving.requests.map (fun x => if x.part = n ∧ x.cmdId = id then { r with cancel := true, held := none } else x)
          ∧ (∀ v, s.serve n = some v → t.serve n = some { v with records := v.records.filter (fun x => x.cmdId != id) })
          ∧ s.Told t 65 d.cmdId 0 0 0 ∧ t = { s with serving := t.serving, regs := t.regs, host := t.host, out := t.out } ∧ s.SameRegsBut t toldRegs))

/-- When OUT_READY of a RUNNING serving partition has its count on every die, STEP_BOUNDARY consumes it, prepares the next step,
writes zero records with no request, advances READY_CTR on every die and writes no byte outside the record areas. For a single
request in DECODE with room in its output ring, the token in its slot joins it and gives a record, the last one where it is a
stop token or a limit; else its slot record is that of Table 15-2. TOKEN_RECORDS_WRITE writes the 16 bytes of a record at its
place in the ring, counts it at the token tap, and completes a request whose end is decided. (R381, R382, R383, R389, R391,
R399, R401, R495, 15_serving_engine.md) -/
def Obligations.StepsArePreparedAndTokensWritten : Prop :=
  (∀ (s : State) (n : Fin 64) (c tick fit : Nat) (heads : List (Nat × Nat)) (v : Serve), s.serve n = some v → s.pstate n = 3 → v.plan = none
      → s.suspended n = false → (∀ d, d ∈ s.diesOf n → s.ctr (s.ctr0 n d v.outCtr) = s.coresOn n d ∧ (s.die d).flagT ≠ c
        ∧ s.f64 (Reg.cdFlagwin d n) 32 8 + v.outCtr < 256 ∧ s.f64 (Reg.cdFlagwin d n) 32 8 + v.readyCtr < 256
        ∧ s.levelBase n d 0 + v.slotArea + 64 * v.slots ≤ 2 ^ 36 ∧ s.levelBase n d 0 + v.prefillArea + 16 * v.rows ≤ 2 ^ 36)
      → v.outCtr ≠ v.readyCtr → (v.slotArea + 64 * v.slots ≤ v.prefillArea ∨ v.prefillArea + 16 * v.rows ≤ v.slotArea)
      → ∃ t p, exec (.stepBoundary n c tick fit heads) s = .next t ∧ t.serve n = some { v with clock := v.clock + 1, plan := some p }
        ∧ p.quota = s.foreseenKv n
        ∧ (∀ d, d ∈ s.diesOf n → t.ctr (s.ctr0 n d v.outCtr) = 0
          ∧ t.ctr (s.ctr0 n d v.readyCtr) = (s.ctr (s.ctr0 n d v.readyCtr) + s.coresOn n d) % 2 ^ 32)
        ∧ (∀ x, (∀ d, d ∈ s.diesOf n → (x < s.shmAddr n d v.slotArea ∨ s.shmAddr n d (v.slotArea + 64 * v.slots) ≤ x)
            ∧ (x < s.shmAddr n d v.prefillArea ∨ s.shmAddr n d (v.prefillArea + 16 * v.rows) ≤ x)) → t.rdByte x = s.rdByte x)
        ∧ t.serving.requests = s.serving.requests ∧ t.cores = s.cores ∧ t.out = s.out ∧ t.pstate n = 3
        ∧ (s.requestsOf n = [] → p.requests = [] ∧ p.records = [] ∧ (∀ d i j, d ∈ s.diesOf n → i < v.slots → j < 21
          → t.rdByte (s.shmAddr n d (v.slotArea + 64 * i + j)) = 0))
        ∧ (∀ r i token stop full, s.requestsOf n = [r] → r.state = .decode → r.slot = some i → i < v.slots → r.freed = false → r.cancel = false → r.room = true
          → token = s.rdNat (s.shmAddr n (s.homeDie n) (v.slotArea + 64 * i + 24)) 4
          → stop = (r.tokens.length + 1 == r.maxNew || v.stops.contains token) → full = (r.prompt.length + r.tokens.length + 1 == v.maxCtx)
          → p.requests = [{ r with rows := r.rows + r.now, now := 0, tokens := r.tokens ++ [token], state := if stop || full then .ending else .decode
                                   ending := if stop then some 0 else if full then some 0x31 else none }]
            ∧ p.records = [⟨r.cmdId, token, r.tokens.length, v.step, stop || full⟩]
            ∧ ((stop || full) = false → ∀ d, d ∈ s.diesOf n → t.rdBytes (s.shmAddr n d (v.slotArea + 64 * i)) 21
              = slotRecord (some { r with rows := r.rows + r.now, now := 0, tokens := r.tokens ++ [token], ending := none }) (s.invTempOf r).1)))
    ∧ ∀ (s : State) (n : Fin 64) (v : Serve) (x : TokenRec) (r : Request), s.serve n = some v → v.records = [x] → s.requestsOf n = [r] → r.cmdId = x.cmdId →
      (∀ t, exec (.tokenRecordsWrite n) s = .next t → (s.meter.powered = true → Tab.get (fun _ => 0) t.meter.tokens n = Tab.get (fun _ => 0) s.meter.tokens n + 1
          ∧ t.meter.tokensAll = s.meter.tokensAll + 1) ∧ t.meter.macs = s.meter.macs ∧ t.serve n = some { v with records := [] } ∧ s.SameBytes t)
      ∧ (r.state ≠ .ending → ∃ t e, exec (.tokenRecordsWrite n) s = .next t
        ∧ t.out = s.out ++ [.hostWrite (r.outAddr + 16 * (r.written % 2 ^ r.outLog2)) 16 e] ∧ fld e 0 32 = x.token % 2 ^ 32
        ∧ fld e 32 32 = x.index % 2 ^ 32 ∧ fld e 64 32 = x.step % 2 ^ 32 ∧ bitAt e 120 = x.last ∧ bitAt e 127 = decide (r.written / 2 ^ r.outLog2 % 2 = 0)
        ∧ t.serving.requests = s.serving.requests.map (fun y => if y.part = n.val ∧ y.cmdId = x.cmdId then { y with written := y.written + 1 } else y)
        ∧ t = { s with serving := t.serving, meter := t.meter, out := t.out })
      ∧ (∀ st, r.state = .ending → r.ending = some st → s.CanTell 65 → r.cmdId < 2 ^ 32 → ∃ t, exec (.tokenRecordsWrite n) s = .next t
        ∧ s.Told t 65 r.cmdId st (r.written + 1 + 64 * r.matched.length * 2 ^ 32) (r.blocks.length + r.slot.getD 0xFFFF * 2 ^ 40)
        ∧ t.serving.requests = (s.serving.requests.map (fun y => if y.part = n.val ∧ y.cmdId = x.cmdId then { y with written := y.written + 1 } else y)).filter
          (fun y => !(y.part == n.val && y.cmdId == r.cmdId)))

/-- START of a LOADED partition is recorded for its Hour, with a prefix key that is free (log entry 4) where a serving table is
there; the slot and prefill-row records are then written and STEP is 0 in card 0 of every stream. A table with a field out of
range completes it with IMAGE_FORMAT. When every core has ended its stream, or a STOP has waited more than 4,096 Hours, the
partition is LOADED, its START and STOP complete with OK, its cores are idle and its requests end with ENDED_BY_STOP; only the
forced STOP reports 1. A PATCH_SET in order waits for its window, and completes as timed out 4,096 Hours after its target. No
other memory byte and no other partition's state changes. (R185, R212, R346, R369, R380, R383, R406, 07_layer_cards.md,
14_model_images_and_loading.md) -/
def Obligations.PartitionsStartEndStopAndArePatched : Prop :=
  (∀ (s : State) (n : Fin 64) (d : Desc), d.zero 8 24 = true → d.zero 32 64 = true → s.pstate n = 2 → (s.part n).startCmd = none →
      (s.servingTable n = none → ∃ t, exec (.startPart n d) s = .next t
        ∧ t.part n = { s.part n with startCmd := some d.cmdId, startAt := if d.f 24 8 ≤ s.hourCount then 0 else d.f 24 8 }
        ∧ (∀ m, m ≠ n.val → t.part m = s.part m) ∧ t.serve n = none ∧ (∀ m, m ≠ n.val → t.serve m = s.serve m) ∧ t.serving.requests = s.serving.requests
        ∧ t = { s with parts := t.parts, serving := t.serving })
      ∧ (s.servingTable n = some none → s.CanTell (n.val + 1) → ∃ t, exec (.startPart n d) s = .next t ∧ s.Told t (n.val + 1) d.cmdId 0x46 0 0
        ∧ s.TellsOnly t ∧ s.SameRegsBut t toldRegs)
      ∧ (∀ v, s.servingTable n = some (some v) → ∃ t k0 k1, exec (.startPart n d) s = .next t ∧ k0 < 2 ^ 64 ∧ k1 < 2 ^ 64
        ∧ t.part n = { s.part n with startCmd := some d.cmdId, startAt := if d.f 24 8 ≤ s.hourCount then 0 else d.f 24 8 }
        ∧ (∀ m, m ≠ n.val → t.part m = s.part m) ∧ t.serve n = some { v with key0 := k0, key1 := k1 }
        ∧ (∀ m, m ≠ n.val → t.serve m = s.serve m)
        ∧ (∀ x, (∀ e, e ∈ s.diesOf n → (x < s.shmAddr n e v.slotArea ∨ s.shmAddr n e (v.slotArea + 64 * v.slots) ≤ x)
            ∧ (x < s.shmAddr n e v.prefillArea ∨ s.shmAddr n e (v.prefillArea + 16 * v.rows) ≤ x))
          → (∀ g, g ∈ s.lcs n → s.streamLen g ≠ 0 → x < s.cardAddr g 0 + 208 ∨ s.cardAddr g 0 + 212 ≤ x) → t.rdByte x = s.rdByte x)
        ∧ (∀ g j, g ∈ s.lcs n → s.streamLen g ≠ 0 → j < 4 → t.rdByte (s.cardAddr g 0 + 208 + j) = 0)
        ∧ t = { s with parts := t.parts, serving := t.serving, mem := t.mem, poison := t.poison, selfErr := t.selfErr, soft := t.soft
                       freeCount := s.freeCount + 2 }))
    ∧ (∀ (s : State) (n : Fin 64) (c : Instr) (forced : Bool), s.pstate n = 3
      → ((c = .streamEnd n ∧ forced = false ∧ ∀ g, g ∈ s.lcs n → s.coreEnded g = true)
        ∨ (c = .forcedStop n ∧ forced = true ∧ ∃ id a, (s.part n).stopCmd = some (id, a) ∧ a + 4096 < s.hourCount))
      → ∃ t, exec c s = .next t ∧ t.pstate n = 2 ∧ (∀ m, m < 64 → m ≠ n.val → t.pstate m = s.pstate m)
        ∧ (t.part n).startCmd = none ∧ (t.part n).stopCmd = none
        ∧ (∀ id, (s.part n).startCmd = some id → id < 2 ^ 32 → s.CanTell (n.val + 1) → s.Completes t (n.val + 1) id 0)
        ∧ (∀ id a, (s.part n).stopCmd = some (id, a) → id < 2 ^ 32 → s.CanTell (n.val + 1) → ∃ k e,
          Output.hostWrite ((s.ring (s.cqOf (n.val + 1))).base + 32 * k) 32 e ∈ t.out ∧ fld e 0 32 = id ∧ fld e 32 8 = 0
            ∧ fld e 128 64 = (if forced then 1 else 0))
        ∧ (∀ g, g ∈ s.lcs n → (t.core g).flights = [] ∧ (t.core g).queue = [] ∧ t.seqState g = 0) ∧ (∀ g, g ∉ s.lcs n → t.core g = s.core g)
        ∧ (∀ v r, s.serve n = some v → v.records = [] → r ∈ s.requestsOf n → r.state ≠ .ending → r.cmdId < 2 ^ 32 → s.CanTell 65 → s.Completes t 65 r.cmdId 0x32)
        ∧ (∀ v, s.serve n = some v → v.records = [] → t.serving.requests = s.serving.requests.filter (fun r => r.part != n.val))
        ∧ s.SameBytes t)
    ∧ ∀ (s : State) (n : Fin 64) (d : Desc),
      (∀ b, 1 ≤ d.f 16 2 → d.f 16 2 ≤ 1024 → d.zero 18 24 = true → d.zero 32 64 = true → d.f 8 8 % 16 = 0 → d.f 8 8 + 16 * d.f 16 2 ≤ 2 ^ 64
        → 2 ≤ s.pstate n → exec (.patchSet n d (.bytes b)) s = .next { s with host := { s.host with patches := s.host.patches ++
            [⟨n.val + 1, d.cmdId, if d.f 24 8 ≤ s.hourCount then s.hourCount + 1 else d.f 24 8, patchEntries b (d.f 16 2), s.hourCount⟩] } })
      ∧ (∀ p, s.host.patches.find? (fun p => p.rid == n.val + 1 && decide (p.target + 4096 ≤ s.hourCount)) = some p → s.CanTell (n.val + 1) → p.cmdId < 2 ^ 32
        → ∃ t, exec (.patchTimeout n) s = .next t ∧ s.Told t (n.val + 1) p.cmdId 0x62 0 0 ∧ t.host.patches = s.host.patches.erase p
          ∧ s.TellsOnly t ∧ s.SameRegsBut t toldRegs)

/-- After reset a read of TOP_ID answers a word whose bits 15 to 8 hold the major number 1 and whose bits 7 to 0 hold the minor
number 0, so that its low half is 0x0100. A write of any value to TOP_ID by any requester leaves every register as it was. (R8) -/
def Obligations.TopIdReportsTheContractVersion : Prop :=
  (∀ (r n tick : Nat) (u : List (BitVec 37)), ∃ t w, exec (.serviceAccess (.device r Reg.topId) 4 none n tick u) State.reset = .next t ∧ t.out = [.readData 4 w]
      ∧ w = State.reset.r32 Reg.topId ∧ fld w 8 8 = 1 ∧ fld w 0 8 = 0 ∧ fld w 0 16 = 0x0100)
    ∧ ∀ (s : State) (r : Nat) (v m : BitVec 64), ∃ t, exec (.registerWrite (.device r Reg.topId) false v m) s = .next t ∧ s.SameRegs t

/-- On the running admin ring, with an untaken entry, no error, room for its completion, FENCE satisfied, the package not in
Twilight and no Dusk under way, DESCRIPTOR_TAKE of a descriptor whose OPCODE lies in 0x24 to 0x2F passes the head over it and
completes it with BAD_OPCODE (0x10), whatever its other fields hold. No memory byte, no core, no partition and no register but
the pending bits of MSI-X changes. (R487) -/
def Obligations.ReservedAdminOpcodesCompleteWithBadOpcode : Prop :=
  ∀ (s : State) (d : Desc), 0x24 ≤ d.f 0 1 → d.f 0 1 ≤ 0x2F → s.host.running = true → (s.ring 0).live = true → (s.ring 0).head ≠ (s.ring 0).tail
    → (s.ring 0).error = false → s.CanTell 0 → s.owed 128 < (s.ring 128).freeSlots → (bitAt (d.f 1 1) 0 = false ∨ (s.ring 0).taken = [])
    → s.f32 Reg.pwrState 0 2 ≠ 1 → s.power.dusk = none
    → ∃ t, exec (.descriptorTake 0 d) s = .next t ∧ (t.ring 0).head = ((s.ring 0).head + 1) % 2 ^ (s.ring 0).log2
      ∧ s.Told t 0 d.cmdId 0x10 0 0 ∧ s.TellsOnly t ∧ s.SameRegsBut t toldRegs
end

