-- ==== Sys2Proof/Laws/Bits.lean ====
section
/-!
SUPPORT. Laws of bit fields, counts and little-endian bytes.
-/

namespace Sys2Proof

/-- A number cut at a field: the part above, the field, the part below. -/
theorem fld_split (n lo w : Nat) : n = n / 2 ^ (lo + w) * 2 ^ (lo + w) + fld n lo w * 2 ^ lo + n % 2 ^ lo := by
  have h1 := Nat.div_add_mod n (2 ^ lo)
  have h2 := Nat.div_add_mod (n / 2 ^ lo) (2 ^ w)
  rw [Nat.div_div_eq_div_mul, ← Nat.pow_add] at h2
  unfold fld
  calc n = 2 ^ lo * (n / 2 ^ lo) + n % 2 ^ lo := h1.symm
    _ = 2 ^ lo * (2 ^ w * (n / 2 ^ (lo + w)) + n / 2 ^ lo % 2 ^ w) + n % 2 ^ lo := by rw [h2]
    _ = _ := by rw [Nat.pow_add]; ring

theorem fld_lt (n lo w : Nat) : fld n lo w < 2 ^ w := Nat.mod_lt _ (Nat.two_pow_pos w)

theorem setFld_eq (n lo w x : Nat) : setFld n lo w x = n / 2 ^ (lo + w) * 2 ^ (lo + w) + x % 2 ^ w * 2 ^ lo + n % 2 ^ lo := by
  have h := fld_split n lo w
  unfold setFld
  omega

/-- A field in bits: bit `j` of the field is bit `lo + j` of the number. -/
theorem testBit_fld (n lo w j : Nat) : (fld n lo w).testBit j = (decide (j < w) && n.testBit (lo + j)) := by
  simp [fld, Nat.testBit_mod_two_pow, Nat.testBit_div_two_pow, Nat.add_comm]

/-- A replaced field in bits. -/
theorem testBit_setFld (n lo w x j : Nat) :
    (setFld n lo w x).testBit j = if lo ≤ j ∧ j < lo + w then x.testBit (j - lo) else n.testBit j := by
  have hx : x % 2 ^ w < 2 ^ w := Nat.mod_lt _ (Nat.two_pow_pos w)
  have hn : n % 2 ^ lo < 2 ^ lo := Nat.mod_lt _ (Nat.two_pow_pos lo)
  have e : setFld n lo w x = 2 ^ lo * (2 ^ w * (n / 2 ^ (lo + w)) + x % 2 ^ w) + n % 2 ^ lo := by
    rw [setFld_eq, Nat.pow_add]; ring
  rw [e, Nat.testBit_two_pow_mul_add _ hn]
  split
  · next h => rw [if_neg (by omega), Nat.testBit_mod_two_pow]; simp [h]
  · next h =>
    rw [Nat.testBit_two_pow_mul_add _ hx]
    split
    · next h2 => rw [if_pos (by omega), Nat.testBit_mod_two_pow]; simp [h2]
    · next h2 => rw [if_neg (by omega), Nat.testBit_div_two_pow]; congr 1; omega

/-- A field reads as what was put there. -/
@[simp] theorem fld_setFld_same (n lo w x : Nat) : fld (setFld n lo w x) lo w = x % 2 ^ w := by
  apply Nat.eq_of_testBit_eq
  intro j
  rw [testBit_fld, testBit_setFld, Nat.testBit_mod_two_pow]
  by_cases h : j < w <;> simp [h]

/-- Every other field reads as before. -/
theorem fld_setFld_other (n lo w x lo' w' : Nat) (h : lo + w ≤ lo' ∨ lo' + w' ≤ lo) : fld (setFld n lo w x) lo' w' = fld n lo' w' := by
  apply Nat.eq_of_testBit_eq
  intro j
  rw [testBit_fld, testBit_fld, testBit_setFld]
  by_cases hj : j < w'
  · rw [if_neg (by omega)]
  · simp [hj]

/-- A field inside the one replaced. -/
theorem fld_setFld_sub (n lo w x lo' w' : Nat) (h : lo ≤ lo') (h2 : lo' + w' ≤ lo + w) :
    fld (setFld n lo w x) lo' w' = fld x (lo' - lo) w' := by
  apply Nat.eq_of_testBit_eq
  intro j
  rw [testBit_fld, testBit_fld, testBit_setFld]
  by_cases hj : j < w'
  · rw [if_pos (by omega)]; congr 2; omega
  · simp [hj]

theorem setFld_lt (n lo w x k : Nat) (hn : n < 2 ^ k) (h : lo + w ≤ k) : setFld n lo w x < 2 ^ k := by
  apply Nat.lt_pow_two_of_testBit
  intro j hj
  rw [testBit_setFld, if_neg (by omega)]
  exact Nat.testBit_lt_two_pow (lt_of_lt_of_le hn (Nat.pow_le_pow_right (by omega) hj))

theorem fld_zero (lo w : Nat) : fld 0 lo w = 0 := by simp [fld]

theorem bitAt_eq (n i : Nat) : bitAt n i = n.testBit i := by
  unfold bitAt
  have h := testBit_fld n i 1 0
  have hl := fld_lt n i 1
  simp at h
  have hc : fld n i 1 = 0 ∨ fld n i 1 = 1 := by omega
  rcases hc with h0 | h1
  · rw [h0] at h ⊢; simp at h; simp [h]
  · rw [h1] at h ⊢; simp at h; simp [h]

@[simp] theorem bitAt_setBit_same (n i : Nat) : bitAt (setBit n i) i = true := by simp [bitAt, setBit]

theorem bitAt_setBit_other (n i j : Nat) (h : j ≠ i) : bitAt (setBit n i) j = bitAt n j := by
  unfold bitAt setBit
  rw [fld_setFld_other _ _ _ _ _ _ (by omega)]

theorem satAdd_le (w x k : Nat) : satAdd w x k ≤ 2 ^ w - 1 := min_le_right _ _

theorem satAdd_mono (w x k : Nat) (h : x ≤ 2 ^ w - 1) : x ≤ satAdd w x k := by unfold satAdd; omega

/-! ## Little-endian bytes -/

@[simp] theorem length_leBytes (k n : Nat) : (leBytes k n).length = k := by
  induction k generalizing n with
  | zero => rfl
  | succ k ih => simp [leBytes, ih]

/-- The bytes of a number spell the number. -/
theorem leNat_leBytes (k n : Nat) : leNat (leBytes k n) = n % 256 ^ k := by
  induction k generalizing n with
  | zero => simp [leBytes, leNat, Nat.mod_one]
  | succ k ih =>
    have e : (BitVec.ofNat 8 n).toNat = n % 256 := BitVec.toNat_ofNat n 8
    simp only [leBytes, leNat, ih, e]
    rw [Nat.pow_succ', Nat.mod_mul]

theorem leNat_lt (b : List Byte) : leNat b < 256 ^ b.length := by
  induction b with
  | nil => simp [leNat]
  | cons x t ih =>
    have := x.isLt
    simp only [leNat, List.length_cons, Nat.pow_succ']
    omega

/-- The bytes that a list spells are the list. -/
theorem leBytes_leNat (b : List Byte) : leBytes b.length (leNat b) = b := by
  induction b with
  | nil => rfl
  | cons x t ih =>
    have hx := x.isLt
    have h1 : (x.toNat + 256 * leNat t) / 256 = leNat t := by omega
    simp only [List.length_cons, leBytes, leNat, h1, ih]
    congr 1
    apply BitVec.eq_of_toNat_eq
    simp only [BitVec.toNat_ofNat]
    omega

end Sys2Proof
end

