-- ==== Sys2Proof/Laws/State.lean ====
section
/-!
SUPPORT. What each update of the state does to each of its fields, one lemma per field and update, true by definition.
-/

namespace Sys2Proof.Machine

variable (s : State)

/-! ## w32 -/

@[simp] theorem State.w32_regs (a v : Nat) : (s.w32 a v).regs = Tab.put Reg.resetWord s.regs a (BitVec.ofNat 32 v) := rfl
@[simp] theorem State.w32_staged (a v : Nat) : (s.w32 a v).staged = s.staged := rfl
@[simp] theorem State.w32_mem (a v : Nat) : (s.w32 a v).mem = s.mem := rfl
@[simp] theorem State.w32_poison (a v : Nat) : (s.w32 a v).poison = s.poison := rfl
@[simp] theorem State.w32_flags (a v : Nat) : (s.w32 a v).flags = s.flags := rfl
@[simp] theorem State.w32_ctrs (a v : Nat) : (s.w32 a v).ctrs = s.ctrs := rfl
@[simp] theorem State.w32_host (a v : Nat) : (s.w32 a v).host = s.host := rfl
@[simp] theorem State.w32_hour (a v : Nat) : (s.w32 a v).hour = s.hour := rfl
@[simp] theorem State.w32_dies (a v : Nat) : (s.w32 a v).dies = s.dies := rfl
@[simp] theorem State.w32_parts (a v : Nat) : (s.w32 a v).parts = s.parts := rfl
@[simp] theorem State.w32_cores (a v : Nat) : (s.w32 a v).cores = s.cores := rfl
@[simp] theorem State.w32_selfErr (a v : Nat) : (s.w32 a v).selfErr = s.selfErr := rfl
@[simp] theorem State.w32_soft (a v : Nat) : (s.w32 a v).soft = s.soft := rfl
@[simp] theorem State.w32_past (a v : Nat) : (s.w32 a v).past = s.past := rfl
@[simp] theorem State.w32_mods (a v : Nat) : (s.w32 a v).mods = s.mods := rfl
@[simp] theorem State.w32_groups (a v : Nat) : (s.w32 a v).groups = s.groups := rfl
@[simp] theorem State.w32_combines (a v : Nat) : (s.w32 a v).combines = s.combines := rfl
@[simp] theorem State.w32_ports (a v : Nat) : (s.w32 a v).ports = s.ports := rfl
@[simp] theorem State.w32_txns (a v : Nat) : (s.w32 a v).txns = s.txns := rfl
@[simp] theorem State.w32_quarantine (a v : Nat) : (s.w32 a v).quarantine = s.quarantine := rfl
@[simp] theorem State.w32_items (a v : Nat) : (s.w32 a v).items = s.items := rfl
@[simp] theorem State.w32_txnWaits (a v : Nat) : (s.w32 a v).txnWaits = s.txnWaits := rfl
@[simp] theorem State.w32_txnLast (a v : Nat) : (s.w32 a v).txnLast = s.txnLast := rfl
@[simp] theorem State.w32_answered (a v : Nat) : (s.w32 a v).answered = s.answered := rfl
@[simp] theorem State.w32_config (a v : Nat) : (s.w32 a v).config = s.config := rfl
@[simp] theorem State.w32_meter (a v : Nat) : (s.w32 a v).meter = s.meter := rfl
@[simp] theorem State.w32_sec (a v : Nat) : (s.w32 a v).sec = s.sec := rfl
@[simp] theorem State.w32_power (a v : Nat) : (s.w32 a v).power = s.power := rfl
@[simp] theorem State.w32_dawn (a v : Nat) : (s.w32 a v).dawn = s.dawn := rfl
@[simp] theorem State.w32_jtag (a v : Nat) : (s.w32 a v).jtag = s.jtag := rfl
@[simp] theorem State.w32_loader (a v : Nat) : (s.w32 a v).loader = s.loader := rfl
@[simp] theorem State.w32_serving (a v : Nat) : (s.w32 a v).serving = s.serving := rfl
@[simp] theorem State.w32_freeCount (a v : Nat) : (s.w32 a v).freeCount = s.freeCount := rfl
@[simp] theorem State.w32_out (a v : Nat) : (s.w32 a v).out = s.out := rfl
@[simp] theorem State.w32_pending (a v : Nat) : (s.w32 a v).pending = s.pending := rfl

/-! ## stage -/

@[simp] theorem State.stage_regs (a v : Nat) : (s.stage a v).regs = s.regs := rfl
@[simp] theorem State.stage_staged (a v : Nat) : (s.stage a v).staged = Tab.put (fun _ => none) s.staged a (some (BitVec.ofNat 32 v)) := rfl
@[simp] theorem State.stage_mem (a v : Nat) : (s.stage a v).mem = s.mem := rfl
@[simp] theorem State.stage_poison (a v : Nat) : (s.stage a v).poison = s.poison := rfl
@[simp] theorem State.stage_flags (a v : Nat) : (s.stage a v).flags = s.flags := rfl
@[simp] theorem State.stage_ctrs (a v : Nat) : (s.stage a v).ctrs = s.ctrs := rfl
@[simp] theorem State.stage_host (a v : Nat) : (s.stage a v).host = s.host := rfl
@[simp] theorem State.stage_hour (a v : Nat) : (s.stage a v).hour = s.hour := rfl
@[simp] theorem State.stage_dies (a v : Nat) : (s.stage a v).dies = s.dies := rfl
@[simp] theorem State.stage_parts (a v : Nat) : (s.stage a v).parts = s.parts := rfl
@[simp] theorem State.stage_cores (a v : Nat) : (s.stage a v).cores = s.cores := rfl
@[simp] theorem State.stage_selfErr (a v : Nat) : (s.stage a v).selfErr = s.selfErr := rfl
@[simp] theorem State.stage_soft (a v : Nat) : (s.stage a v).soft = s.soft := rfl
@[simp] theorem State.stage_past (a v : Nat) : (s.stage a v).past = s.past := rfl
@[simp] theorem State.stage_mods (a v : Nat) : (s.stage a v).mods = s.mods := rfl
@[simp] theorem State.stage_groups (a v : Nat) : (s.stage a v).groups = s.groups := rfl
@[simp] theorem State.stage_combines (a v : Nat) : (s.stage a v).combines = s.combines := rfl
@[simp] theorem State.stage_ports (a v : Nat) : (s.stage a v).ports = s.ports := rfl
@[simp] theorem State.stage_txns (a v : Nat) : (s.stage a v).txns = s.txns := rfl
@[simp] theorem State.stage_quarantine (a v : Nat) : (s.stage a v).quarantine = s.quarantine := rfl
@[simp] theorem State.stage_items (a v : Nat) : (s.stage a v).items = s.items := rfl
@[simp] theorem State.stage_txnWaits (a v : Nat) : (s.stage a v).txnWaits = s.txnWaits := rfl
@[simp] theorem State.stage_txnLast (a v : Nat) : (s.stage a v).txnLast = s.txnLast := rfl
@[simp] theorem State.stage_answered (a v : Nat) : (s.stage a v).answered = s.answered := rfl
@[simp] theorem State.stage_config (a v : Nat) : (s.stage a v).config = s.config := rfl
@[simp] theorem State.stage_meter (a v : Nat) : (s.stage a v).meter = s.meter := rfl
@[simp] theorem State.stage_sec (a v : Nat) : (s.stage a v).sec = s.sec := rfl
@[simp] theorem State.stage_power (a v : Nat) : (s.stage a v).power = s.power := rfl
@[simp] theorem State.stage_dawn (a v : Nat) : (s.stage a v).dawn = s.dawn := rfl
@[simp] theorem State.stage_jtag (a v : Nat) : (s.stage a v).jtag = s.jtag := rfl
@[simp] theorem State.stage_loader (a v : Nat) : (s.stage a v).loader = s.loader := rfl
@[simp] theorem State.stage_serving (a v : Nat) : (s.stage a v).serving = s.serving := rfl
@[simp] theorem State.stage_freeCount (a v : Nat) : (s.stage a v).freeCount = s.freeCount := rfl
@[simp] theorem State.stage_out (a v : Nat) : (s.stage a v).out = s.out := rfl
@[simp] theorem State.stage_pending (a v : Nat) : (s.stage a v).pending = s.pending := rfl

/-! ## unstage -/

@[simp] theorem State.unstage_regs (a : Nat) : (s.unstage a).regs = s.regs := rfl
@[simp] theorem State.unstage_staged (a : Nat) : (s.unstage a).staged = Tab.put (fun _ => none) s.staged a none := rfl
@[simp] theorem State.unstage_mem (a : Nat) : (s.unstage a).mem = s.mem := rfl
@[simp] theorem State.unstage_poison (a : Nat) : (s.unstage a).poison = s.poison := rfl
@[simp] theorem State.unstage_flags (a : Nat) : (s.unstage a).flags = s.flags := rfl
@[simp] theorem State.unstage_ctrs (a : Nat) : (s.unstage a).ctrs = s.ctrs := rfl
@[simp] theorem State.unstage_host (a : Nat) : (s.unstage a).host = s.host := rfl
@[simp] theorem State.unstage_hour (a : Nat) : (s.unstage a).hour = s.hour := rfl
@[simp] theorem State.unstage_dies (a : Nat) : (s.unstage a).dies = s.dies := rfl
@[simp] theorem State.unstage_parts (a : Nat) : (s.unstage a).parts = s.parts := rfl
@[simp] theorem State.unstage_cores (a : Nat) : (s.unstage a).cores = s.cores := rfl
@[simp] theorem State.unstage_selfErr (a : Nat) : (s.unstage a).selfErr = s.selfErr := rfl
@[simp] theorem State.unstage_soft (a : Nat) : (s.unstage a).soft = s.soft := rfl
@[simp] theorem State.unstage_past (a : Nat) : (s.unstage a).past = s.past := rfl
@[simp] theorem State.unstage_mods (a : Nat) : (s.unstage a).mods = s.mods := rfl
@[simp] theorem State.unstage_groups (a : Nat) : (s.unstage a).groups = s.groups := rfl
@[simp] theorem State.unstage_combines (a : Nat) : (s.unstage a).combines = s.combines := rfl
@[simp] theorem State.unstage_ports (a : Nat) : (s.unstage a).ports = s.ports := rfl
@[simp] theorem State.unstage_txns (a : Nat) : (s.unstage a).txns = s.txns := rfl
@[simp] theorem State.unstage_quarantine (a : Nat) : (s.unstage a).quarantine = s.quarantine := rfl
@[simp] theorem State.unstage_items (a : Nat) : (s.unstage a).items = s.items := rfl
@[simp] theorem State.unstage_txnWaits (a : Nat) : (s.unstage a).txnWaits = s.txnWaits := rfl
@[simp] theorem State.unstage_txnLast (a : Nat) : (s.unstage a).txnLast = s.txnLast := rfl
@[simp] theorem State.unstage_answered (a : Nat) : (s.unstage a).answered = s.answered := rfl
@[simp] theorem State.unstage_config (a : Nat) : (s.unstage a).config = s.config := rfl
@[simp] theorem State.unstage_meter (a : Nat) : (s.unstage a).meter = s.meter := rfl
@[simp] theorem State.unstage_sec (a : Nat) : (s.unstage a).sec = s.sec := rfl
@[simp] theorem State.unstage_power (a : Nat) : (s.unstage a).power = s.power := rfl
@[simp] theorem State.unstage_dawn (a : Nat) : (s.unstage a).dawn = s.dawn := rfl
@[simp] theorem State.unstage_jtag (a : Nat) : (s.unstage a).jtag = s.jtag := rfl
@[simp] theorem State.unstage_loader (a : Nat) : (s.unstage a).loader = s.loader := rfl
@[simp] theorem State.unstage_serving (a : Nat) : (s.unstage a).serving = s.serving := rfl
@[simp] theorem State.unstage_freeCount (a : Nat) : (s.unstage a).freeCount = s.freeCount := rfl
@[simp] theorem State.unstage_out (a : Nat) : (s.unstage a).out = s.out := rfl
@[simp] theorem State.unstage_pending (a : Nat) : (s.unstage a).pending = s.pending := rfl

/-! ## wrByte -/

@[simp] theorem State.wrByte_regs (a : Nat) (b : Byte) : (s.wrByte a b).regs = s.regs := rfl
@[simp] theorem State.wrByte_staged (a : Nat) (b : Byte) : (s.wrByte a b).staged = s.staged := rfl
@[simp] theorem State.wrByte_mem (a : Nat) (b : Byte) : (s.wrByte a b).mem = Tab.put memDefault s.mem a b := rfl
@[simp] theorem State.wrByte_poison (a : Nat) (b : Byte) : (s.wrByte a b).poison = s.poison := rfl
@[simp] theorem State.wrByte_flags (a : Nat) (b : Byte) : (s.wrByte a b).flags = s.flags := rfl
@[simp] theorem State.wrByte_ctrs (a : Nat) (b : Byte) : (s.wrByte a b).ctrs = s.ctrs := rfl
@[simp] theorem State.wrByte_host (a : Nat) (b : Byte) : (s.wrByte a b).host = s.host := rfl
@[simp] theorem State.wrByte_hour (a : Nat) (b : Byte) : (s.wrByte a b).hour = s.hour := rfl
@[simp] theorem State.wrByte_dies (a : Nat) (b : Byte) : (s.wrByte a b).dies = s.dies := rfl
@[simp] theorem State.wrByte_parts (a : Nat) (b : Byte) : (s.wrByte a b).parts = s.parts := rfl
@[simp] theorem State.wrByte_cores (a : Nat) (b : Byte) : (s.wrByte a b).cores = s.cores := rfl
@[simp] theorem State.wrByte_selfErr (a : Nat) (b : Byte) : (s.wrByte a b).selfErr = s.selfErr := rfl
@[simp] theorem State.wrByte_soft (a : Nat) (b : Byte) : (s.wrByte a b).soft = s.soft := rfl
@[simp] theorem State.wrByte_past (a : Nat) (b : Byte) : (s.wrByte a b).past = s.past := rfl
@[simp] theorem State.wrByte_mods (a : Nat) (b : Byte) : (s.wrByte a b).mods = s.mods := rfl
@[simp] theorem State.wrByte_groups (a : Nat) (b : Byte) : (s.wrByte a b).groups = s.groups := rfl
@[simp] theorem State.wrByte_combines (a : Nat) (b : Byte) : (s.wrByte a b).combines = s.combines := rfl
@[simp] theorem State.wrByte_ports (a : Nat) (b : Byte) : (s.wrByte a b).ports = s.ports := rfl
@[simp] theorem State.wrByte_txns (a : Nat) (b : Byte) : (s.wrByte a b).txns = s.txns := rfl
@[simp] theorem State.wrByte_quarantine (a : Nat) (b : Byte) : (s.wrByte a b).quarantine = s.quarantine := rfl
@[simp] theorem State.wrByte_items (a : Nat) (b : Byte) : (s.wrByte a b).items = s.items := rfl
@[simp] theorem State.wrByte_txnWaits (a : Nat) (b : Byte) : (s.wrByte a b).txnWaits = s.txnWaits := rfl
@[simp] theorem State.wrByte_txnLast (a : Nat) (b : Byte) : (s.wrByte a b).txnLast = s.txnLast := rfl
@[simp] theorem State.wrByte_answered (a : Nat) (b : Byte) : (s.wrByte a b).answered = s.answered := rfl
@[simp] theorem State.wrByte_config (a : Nat) (b : Byte) : (s.wrByte a b).config = s.config := rfl
@[simp] theorem State.wrByte_meter (a : Nat) (b : Byte) : (s.wrByte a b).meter = s.meter := rfl
@[simp] theorem State.wrByte_sec (a : Nat) (b : Byte) : (s.wrByte a b).sec = s.sec := rfl
@[simp] theorem State.wrByte_power (a : Nat) (b : Byte) : (s.wrByte a b).power = s.power := rfl
@[simp] theorem State.wrByte_dawn (a : Nat) (b : Byte) : (s.wrByte a b).dawn = s.dawn := rfl
@[simp] theorem State.wrByte_jtag (a : Nat) (b : Byte) : (s.wrByte a b).jtag = s.jtag := rfl
@[simp] theorem State.wrByte_loader (a : Nat) (b : Byte) : (s.wrByte a b).loader = s.loader := rfl
@[simp] theorem State.wrByte_serving (a : Nat) (b : Byte) : (s.wrByte a b).serving = s.serving := rfl
@[simp] theorem State.wrByte_freeCount (a : Nat) (b : Byte) : (s.wrByte a b).freeCount = s.freeCount := rfl
@[simp] theorem State.wrByte_out (a : Nat) (b : Byte) : (s.wrByte a b).out = s.out := rfl
@[simp] theorem State.wrByte_pending (a : Nat) (b : Byte) : (s.wrByte a b).pending = s.pending := rfl

/-! ## setPoison -/

@[simp] theorem State.setPoison_regs (a : Nat) (b : Bool) : (s.setPoison a b).regs = s.regs := rfl
@[simp] theorem State.setPoison_staged (a : Nat) (b : Bool) : (s.setPoison a b).staged = s.staged := rfl
@[simp] theorem State.setPoison_mem (a : Nat) (b : Bool) : (s.setPoison a b).mem = s.mem := rfl
@[simp] theorem State.setPoison_poison (a : Nat) (b : Bool) : (s.setPoison a b).poison = Tab.put (fun _ => false) s.poison (a / 8) b := rfl
@[simp] theorem State.setPoison_flags (a : Nat) (b : Bool) : (s.setPoison a b).flags = s.flags := rfl
@[simp] theorem State.setPoison_ctrs (a : Nat) (b : Bool) : (s.setPoison a b).ctrs = s.ctrs := rfl
@[simp] theorem State.setPoison_host (a : Nat) (b : Bool) : (s.setPoison a b).host = s.host := rfl
@[simp] theorem State.setPoison_hour (a : Nat) (b : Bool) : (s.setPoison a b).hour = s.hour := rfl
@[simp] theorem State.setPoison_dies (a : Nat) (b : Bool) : (s.setPoison a b).dies = s.dies := rfl
@[simp] theorem State.setPoison_parts (a : Nat) (b : Bool) : (s.setPoison a b).parts = s.parts := rfl
@[simp] theorem State.setPoison_cores (a : Nat) (b : Bool) : (s.setPoison a b).cores = s.cores := rfl
@[simp] theorem State.setPoison_soft (a : Nat) (b : Bool) : (s.setPoison a b).soft = Tab.put (fun _ => false) s.soft (a / 8) false := rfl
@[simp] theorem State.setPoison_past (a : Nat) (b : Bool) : (s.setPoison a b).past = s.past := rfl
@[simp] theorem State.setPoison_mods (a : Nat) (b : Bool) : (s.setPoison a b).mods = s.mods := rfl
@[simp] theorem State.setPoison_groups (a : Nat) (b : Bool) : (s.setPoison a b).groups = s.groups := rfl
@[simp] theorem State.setPoison_combines (a : Nat) (b : Bool) : (s.setPoison a b).combines = s.combines := rfl
@[simp] theorem State.setPoison_ports (a : Nat) (b : Bool) : (s.setPoison a b).ports = s.ports := rfl
@[simp] theorem State.setPoison_txns (a : Nat) (b : Bool) : (s.setPoison a b).txns = s.txns := rfl
@[simp] theorem State.setPoison_quarantine (a : Nat) (b : Bool) : (s.setPoison a b).quarantine = s.quarantine := rfl
@[simp] theorem State.setPoison_items (a : Nat) (b : Bool) : (s.setPoison a b).items = s.items := rfl
@[simp] theorem State.setPoison_txnWaits (a : Nat) (b : Bool) : (s.setPoison a b).txnWaits = s.txnWaits := rfl
@[simp] theorem State.setPoison_txnLast (a : Nat) (b : Bool) : (s.setPoison a b).txnLast = s.txnLast := rfl
@[simp] theorem State.setPoison_answered (a : Nat) (b : Bool) : (s.setPoison a b).answered = s.answered := rfl
@[simp] theorem State.setPoison_config (a : Nat) (b : Bool) : (s.setPoison a b).config = s.config := rfl
@[simp] theorem State.setPoison_meter (a : Nat) (b : Bool) : (s.setPoison a b).meter = s.meter := rfl
@[simp] theorem State.setPoison_sec (a : Nat) (b : Bool) : (s.setPoison a b).sec = s.sec := rfl
@[simp] theorem State.setPoison_power (a : Nat) (b : Bool) : (s.setPoison a b).power = s.power := rfl
@[simp] theorem State.setPoison_dawn (a : Nat) (b : Bool) : (s.setPoison a b).dawn = s.dawn := rfl
@[simp] theorem State.setPoison_jtag (a : Nat) (b : Bool) : (s.setPoison a b).jtag = s.jtag := rfl
@[simp] theorem State.setPoison_loader (a : Nat) (b : Bool) : (s.setPoison a b).loader = s.loader := rfl
@[simp] theorem State.setPoison_serving (a : Nat) (b : Bool) : (s.setPoison a b).serving = s.serving := rfl
@[simp] theorem State.setPoison_freeCount (a : Nat) (b : Bool) : (s.setPoison a b).freeCount = s.freeCount := rfl
@[simp] theorem State.setPoison_out (a : Nat) (b : Bool) : (s.setPoison a b).out = s.out := rfl
@[simp] theorem State.setPoison_pending (a : Nat) (b : Bool) : (s.setPoison a b).pending = s.pending := rfl

/-! ## setSelfErr -/

@[simp] theorem State.setSelfErr_regs (a : Nat) (b : Bool) : (s.setSelfErr a b).regs = s.regs := rfl
@[simp] theorem State.setSelfErr_staged (a : Nat) (b : Bool) : (s.setSelfErr a b).staged = s.staged := rfl
@[simp] theorem State.setSelfErr_mem (a : Nat) (b : Bool) : (s.setSelfErr a b).mem = s.mem := rfl
@[simp] theorem State.setSelfErr_poison (a : Nat) (b : Bool) : (s.setSelfErr a b).poison = s.poison := rfl
@[simp] theorem State.setSelfErr_flags (a : Nat) (b : Bool) : (s.setSelfErr a b).flags = s.flags := rfl
@[simp] theorem State.setSelfErr_ctrs (a : Nat) (b : Bool) : (s.setSelfErr a b).ctrs = s.ctrs := rfl
@[simp] theorem State.setSelfErr_host (a : Nat) (b : Bool) : (s.setSelfErr a b).host = s.host := rfl
@[simp] theorem State.setSelfErr_hour (a : Nat) (b : Bool) : (s.setSelfErr a b).hour = s.hour := rfl
@[simp] theorem State.setSelfErr_dies (a : Nat) (b : Bool) : (s.setSelfErr a b).dies = s.dies := rfl
@[simp] theorem State.setSelfErr_parts (a : Nat) (b : Bool) : (s.setSelfErr a b).parts = s.parts := rfl
@[simp] theorem State.setSelfErr_cores (a : Nat) (b : Bool) : (s.setSelfErr a b).cores = s.cores := rfl
@[simp] theorem State.setSelfErr_selfErr (a : Nat) (b : Bool) : (s.setSelfErr a b).selfErr = Tab.put (fun _ => false) s.selfErr (a / 8) b := rfl
@[simp] theorem State.setSelfErr_soft (a : Nat) (b : Bool) : (s.setSelfErr a b).soft = s.soft := rfl
@[simp] theorem State.setSelfErr_past (a : Nat) (b : Bool) : (s.setSelfErr a b).past = s.past := rfl
@[simp] theorem State.setSelfErr_mods (a : Nat) (b : Bool) : (s.setSelfErr a b).mods = s.mods := rfl
@[simp] theorem State.setSelfErr_groups (a : Nat) (b : Bool) : (s.setSelfErr a b).groups = s.groups := rfl
@[simp] theorem State.setSelfErr_combines (a : Nat) (b : Bool) : (s.setSelfErr a b).combines = s.combines := rfl
@[simp] theorem State.setSelfErr_ports (a : Nat) (b : Bool) : (s.setSelfErr a b).ports = s.ports := rfl
@[simp] theorem State.setSelfErr_txns (a : Nat) (b : Bool) : (s.setSelfErr a b).txns = s.txns := rfl
@[simp] theorem State.setSelfErr_quarantine (a : Nat) (b : Bool) : (s.setSelfErr a b).quarantine = s.quarantine := rfl
@[simp] theorem State.setSelfErr_items (a : Nat) (b : Bool) : (s.setSelfErr a b).items = s.items := rfl
@[simp] theorem State.setSelfErr_txnWaits (a : Nat) (b : Bool) : (s.setSelfErr a b).txnWaits = s.txnWaits := rfl
@[simp] theorem State.setSelfErr_txnLast (a : Nat) (b : Bool) : (s.setSelfErr a b).txnLast = s.txnLast := rfl
@[simp] theorem State.setSelfErr_answered (a : Nat) (b : Bool) : (s.setSelfErr a b).answered = s.answered := rfl
@[simp] theorem State.setSelfErr_config (a : Nat) (b : Bool) : (s.setSelfErr a b).config = s.config := rfl
@[simp] theorem State.setSelfErr_meter (a : Nat) (b : Bool) : (s.setSelfErr a b).meter = s.meter := rfl
@[simp] theorem State.setSelfErr_sec (a : Nat) (b : Bool) : (s.setSelfErr a b).sec = s.sec := rfl
@[simp] theorem State.setSelfErr_power (a : Nat) (b : Bool) : (s.setSelfErr a b).power = s.power := rfl
@[simp] theorem State.setSelfErr_dawn (a : Nat) (b : Bool) : (s.setSelfErr a b).dawn = s.dawn := rfl
@[simp] theorem State.setSelfErr_jtag (a : Nat) (b : Bool) : (s.setSelfErr a b).jtag = s.jtag := rfl
@[simp] theorem State.setSelfErr_loader (a : Nat) (b : Bool) : (s.setSelfErr a b).loader = s.loader := rfl
@[simp] theorem State.setSelfErr_serving (a : Nat) (b : Bool) : (s.setSelfErr a b).serving = s.serving := rfl
@[simp] theorem State.setSelfErr_freeCount (a : Nat) (b : Bool) : (s.setSelfErr a b).freeCount = s.freeCount := rfl
@[simp] theorem State.setSelfErr_out (a : Nat) (b : Bool) : (s.setSelfErr a b).out = s.out := rfl
@[simp] theorem State.setSelfErr_pending (a : Nat) (b : Bool) : (s.setSelfErr a b).pending = s.pending := rfl

/-! ## putFlag -/

@[simp] theorem State.putFlag_regs (k : Nat) (b : Bool) : (s.putFlag k b).regs = s.regs := rfl
@[simp] theorem State.putFlag_staged (k : Nat) (b : Bool) : (s.putFlag k b).staged = s.staged := rfl
@[simp] theorem State.putFlag_mem (k : Nat) (b : Bool) : (s.putFlag k b).mem = s.mem := rfl
@[simp] theorem State.putFlag_poison (k : Nat) (b : Bool) : (s.putFlag k b).poison = s.poison := rfl
@[simp] theorem State.putFlag_flags (k : Nat) (b : Bool) : (s.putFlag k b).flags = Tab.put (fun _ => false) s.flags k b := rfl
@[simp] theorem State.putFlag_ctrs (k : Nat) (b : Bool) : (s.putFlag k b).ctrs = s.ctrs := rfl
@[simp] theorem State.putFlag_host (k : Nat) (b : Bool) : (s.putFlag k b).host = s.host := rfl
@[simp] theorem State.putFlag_hour (k : Nat) (b : Bool) : (s.putFlag k b).hour = s.hour := rfl
@[simp] theorem State.putFlag_dies (k : Nat) (b : Bool) : (s.putFlag k b).dies = s.dies := rfl
@[simp] theorem State.putFlag_parts (k : Nat) (b : Bool) : (s.putFlag k b).parts = s.parts := rfl
@[simp] theorem State.putFlag_cores (k : Nat) (b : Bool) : (s.putFlag k b).cores = s.cores := rfl
@[simp] theorem State.putFlag_selfErr (k : Nat) (b : Bool) : (s.putFlag k b).selfErr = s.selfErr := rfl
@[simp] theorem State.putFlag_soft (k : Nat) (b : Bool) : (s.putFlag k b).soft = s.soft := rfl
@[simp] theorem State.putFlag_past (k : Nat) (b : Bool) : (s.putFlag k b).past = s.past := rfl
@[simp] theorem State.putFlag_mods (k : Nat) (b : Bool) : (s.putFlag k b).mods = s.mods := rfl
@[simp] theorem State.putFlag_groups (k : Nat) (b : Bool) : (s.putFlag k b).groups = s.groups := rfl
@[simp] theorem State.putFlag_combines (k : Nat) (b : Bool) : (s.putFlag k b).combines = s.combines := rfl
@[simp] theorem State.putFlag_ports (k : Nat) (b : Bool) : (s.putFlag k b).ports = s.ports := rfl
@[simp] theorem State.putFlag_txns (k : Nat) (b : Bool) : (s.putFlag k b).txns = s.txns := rfl
@[simp] theorem State.putFlag_quarantine (k : Nat) (b : Bool) : (s.putFlag k b).quarantine = s.quarantine := rfl
@[simp] theorem State.putFlag_items (k : Nat) (b : Bool) : (s.putFlag k b).items = s.items := rfl
@[simp] theorem State.putFlag_txnWaits (k : Nat) (b : Bool) : (s.putFlag k b).txnWaits = s.txnWaits := rfl
@[simp] theorem State.putFlag_txnLast (k : Nat) (b : Bool) : (s.putFlag k b).txnLast = s.txnLast := rfl
@[simp] theorem State.putFlag_answered (k : Nat) (b : Bool) : (s.putFlag k b).answered = s.answered := rfl
@[simp] theorem State.putFlag_config (k : Nat) (b : Bool) : (s.putFlag k b).config = s.config := rfl
@[simp] theorem State.putFlag_meter (k : Nat) (b : Bool) : (s.putFlag k b).meter = s.meter := rfl
@[simp] theorem State.putFlag_sec (k : Nat) (b : Bool) : (s.putFlag k b).sec = s.sec := rfl
@[simp] theorem State.putFlag_power (k : Nat) (b : Bool) : (s.putFlag k b).power = s.power := rfl
@[simp] theorem State.putFlag_dawn (k : Nat) (b : Bool) : (s.putFlag k b).dawn = s.dawn := rfl
@[simp] theorem State.putFlag_jtag (k : Nat) (b : Bool) : (s.putFlag k b).jtag = s.jtag := rfl
@[simp] theorem State.putFlag_loader (k : Nat) (b : Bool) : (s.putFlag k b).loader = s.loader := rfl
@[simp] theorem State.putFlag_serving (k : Nat) (b : Bool) : (s.putFlag k b).serving = s.serving := rfl
@[simp] theorem State.putFlag_freeCount (k : Nat) (b : Bool) : (s.putFlag k b).freeCount = s.freeCount := rfl
@[simp] theorem State.putFlag_out (k : Nat) (b : Bool) : (s.putFlag k b).out = s.out := rfl
@[simp] theorem State.putFlag_pending (k : Nat) (b : Bool) : (s.putFlag k b).pending = s.pending := rfl

/-! ## putCtr -/

@[simp] theorem State.putCtr_regs (k v : Nat) : (s.putCtr k v).regs = s.regs := rfl
@[simp] theorem State.putCtr_staged (k v : Nat) : (s.putCtr k v).staged = s.staged := rfl
@[simp] theorem State.putCtr_mem (k v : Nat) : (s.putCtr k v).mem = s.mem := rfl
@[simp] theorem State.putCtr_poison (k v : Nat) : (s.putCtr k v).poison = s.poison := rfl
@[simp] theorem State.putCtr_flags (k v : Nat) : (s.putCtr k v).flags = s.flags := rfl
@[simp] theorem State.putCtr_ctrs (k v : Nat) : (s.putCtr k v).ctrs = Tab.put (fun _ => (0 : W32)) s.ctrs k (BitVec.ofNat 32 v) := rfl
@[simp] theorem State.putCtr_host (k v : Nat) : (s.putCtr k v).host = s.host := rfl
@[simp] theorem State.putCtr_hour (k v : Nat) : (s.putCtr k v).hour = s.hour := rfl
@[simp] theorem State.putCtr_dies (k v : Nat) : (s.putCtr k v).dies = s.dies := rfl
@[simp] theorem State.putCtr_parts (k v : Nat) : (s.putCtr k v).parts = s.parts := rfl
@[simp] theorem State.putCtr_cores (k v : Nat) : (s.putCtr k v).cores = s.cores := rfl
@[simp] theorem State.putCtr_selfErr (k v : Nat) : (s.putCtr k v).selfErr = s.selfErr := rfl
@[simp] theorem State.putCtr_soft (k v : Nat) : (s.putCtr k v).soft = s.soft := rfl
@[simp] theorem State.putCtr_past (k v : Nat) : (s.putCtr k v).past = s.past := rfl
@[simp] theorem State.putCtr_mods (k v : Nat) : (s.putCtr k v).mods = s.mods := rfl
@[simp] theorem State.putCtr_groups (k v : Nat) : (s.putCtr k v).groups = s.groups := rfl
@[simp] theorem State.putCtr_combines (k v : Nat) : (s.putCtr k v).combines = s.combines := rfl
@[simp] theorem State.putCtr_ports (k v : Nat) : (s.putCtr k v).ports = s.ports := rfl
@[simp] theorem State.putCtr_txns (k v : Nat) : (s.putCtr k v).txns = s.txns := rfl
@[simp] theorem State.putCtr_quarantine (k v : Nat) : (s.putCtr k v).quarantine = s.quarantine := rfl
@[simp] theorem State.putCtr_items (k v : Nat) : (s.putCtr k v).items = s.items := rfl
@[simp] theorem State.putCtr_txnWaits (k v : Nat) : (s.putCtr k v).txnWaits = s.txnWaits := rfl
@[simp] theorem State.putCtr_txnLast (k v : Nat) : (s.putCtr k v).txnLast = s.txnLast := rfl
@[simp] theorem State.putCtr_answered (k v : Nat) : (s.putCtr k v).answered = s.answered := rfl
@[simp] theorem State.putCtr_config (k v : Nat) : (s.putCtr k v).config = s.config := rfl
@[simp] theorem State.putCtr_meter (k v : Nat) : (s.putCtr k v).meter = s.meter := rfl
@[simp] theorem State.putCtr_sec (k v : Nat) : (s.putCtr k v).sec = s.sec := rfl
@[simp] theorem State.putCtr_power (k v : Nat) : (s.putCtr k v).power = s.power := rfl
@[simp] theorem State.putCtr_dawn (k v : Nat) : (s.putCtr k v).dawn = s.dawn := rfl
@[simp] theorem State.putCtr_jtag (k v : Nat) : (s.putCtr k v).jtag = s.jtag := rfl
@[simp] theorem State.putCtr_loader (k v : Nat) : (s.putCtr k v).loader = s.loader := rfl
@[simp] theorem State.putCtr_serving (k v : Nat) : (s.putCtr k v).serving = s.serving := rfl
@[simp] theorem State.putCtr_freeCount (k v : Nat) : (s.putCtr k v).freeCount = s.freeCount := rfl
@[simp] theorem State.putCtr_out (k v : Nat) : (s.putCtr k v).out = s.out := rfl
@[simp] theorem State.putCtr_pending (k v : Nat) : (s.putCtr k v).pending = s.pending := rfl

/-! ## setDie -/

@[simp] theorem State.setDie_regs (d : Nat) (v : DieState) : (s.setDie d v).regs = s.regs := rfl
@[simp] theorem State.setDie_staged (d : Nat) (v : DieState) : (s.setDie d v).staged = s.staged := rfl
@[simp] theorem State.setDie_mem (d : Nat) (v : DieState) : (s.setDie d v).mem = s.mem := rfl
@[simp] theorem State.setDie_poison (d : Nat) (v : DieState) : (s.setDie d v).poison = s.poison := rfl
@[simp] theorem State.setDie_flags (d : Nat) (v : DieState) : (s.setDie d v).flags = s.flags := rfl
@[simp] theorem State.setDie_ctrs (d : Nat) (v : DieState) : (s.setDie d v).ctrs = s.ctrs := rfl
@[simp] theorem State.setDie_host (d : Nat) (v : DieState) : (s.setDie d v).host = s.host := rfl
@[simp] theorem State.setDie_hour (d : Nat) (v : DieState) : (s.setDie d v).hour = s.hour := rfl
@[simp] theorem State.setDie_dies (d : Nat) (v : DieState) : (s.setDie d v).dies = Tab.put (fun _ => {}) s.dies d v := rfl
@[simp] theorem State.setDie_parts (d : Nat) (v : DieState) : (s.setDie d v).parts = s.parts := rfl
@[simp] theorem State.setDie_cores (d : Nat) (v : DieState) : (s.setDie d v).cores = s.cores := rfl
@[simp] theorem State.setDie_selfErr (d : Nat) (v : DieState) : (s.setDie d v).selfErr = s.selfErr := rfl
@[simp] theorem State.setDie_soft (d : Nat) (v : DieState) : (s.setDie d v).soft = s.soft := rfl
@[simp] theorem State.setDie_past (d : Nat) (v : DieState) : (s.setDie d v).past = s.past := rfl
@[simp] theorem State.setDie_mods (d : Nat) (v : DieState) : (s.setDie d v).mods = s.mods := rfl
@[simp] theorem State.setDie_groups (d : Nat) (v : DieState) : (s.setDie d v).groups = s.groups := rfl
@[simp] theorem State.setDie_combines (d : Nat) (v : DieState) : (s.setDie d v).combines = s.combines := rfl
@[simp] theorem State.setDie_ports (d : Nat) (v : DieState) : (s.setDie d v).ports = s.ports := rfl
@[simp] theorem State.setDie_txns (d : Nat) (v : DieState) : (s.setDie d v).txns = s.txns := rfl
@[simp] theorem State.setDie_quarantine (d : Nat) (v : DieState) : (s.setDie d v).quarantine = s.quarantine := rfl
@[simp] theorem State.setDie_items (d : Nat) (v : DieState) : (s.setDie d v).items = s.items := rfl
@[simp] theorem State.setDie_txnWaits (d : Nat) (v : DieState) : (s.setDie d v).txnWaits = s.txnWaits := rfl
@[simp] theorem State.setDie_txnLast (d : Nat) (v : DieState) : (s.setDie d v).txnLast = s.txnLast := rfl
@[simp] theorem State.setDie_answered (d : Nat) (v : DieState) : (s.setDie d v).answered = s.answered := rfl
@[simp] theorem State.setDie_config (d : Nat) (v : DieState) : (s.setDie d v).config = s.config := rfl
@[simp] theorem State.setDie_meter (d : Nat) (v : DieState) : (s.setDie d v).meter = s.meter := rfl
@[simp] theorem State.setDie_sec (d : Nat) (v : DieState) : (s.setDie d v).sec = s.sec := rfl
@[simp] theorem State.setDie_power (d : Nat) (v : DieState) : (s.setDie d v).power = s.power := rfl
@[simp] theorem State.setDie_dawn (d : Nat) (v : DieState) : (s.setDie d v).dawn = s.dawn := rfl
@[simp] theorem State.setDie_jtag (d : Nat) (v : DieState) : (s.setDie d v).jtag = s.jtag := rfl
@[simp] theorem State.setDie_loader (d : Nat) (v : DieState) : (s.setDie d v).loader = s.loader := rfl
@[simp] theorem State.setDie_serving (d : Nat) (v : DieState) : (s.setDie d v).serving = s.serving := rfl
@[simp] theorem State.setDie_freeCount (d : Nat) (v : DieState) : (s.setDie d v).freeCount = s.freeCount := rfl
@[simp] theorem State.setDie_out (d : Nat) (v : DieState) : (s.setDie d v).out = s.out := rfl
@[simp] theorem State.setDie_pending (d : Nat) (v : DieState) : (s.setDie d v).pending = s.pending := rfl

/-! ## setPart -/

@[simp] theorem State.setPart_regs (n : Nat) (v : PartState) : (s.setPart n v).regs = s.regs := rfl
@[simp] theorem State.setPart_staged (n : Nat) (v : PartState) : (s.setPart n v).staged = s.staged := rfl
@[simp] theorem State.setPart_mem (n : Nat) (v : PartState) : (s.setPart n v).mem = s.mem := rfl
@[simp] theorem State.setPart_poison (n : Nat) (v : PartState) : (s.setPart n v).poison = s.poison := rfl
@[simp] theorem State.setPart_flags (n : Nat) (v : PartState) : (s.setPart n v).flags = s.flags := rfl
@[simp] theorem State.setPart_ctrs (n : Nat) (v : PartState) : (s.setPart n v).ctrs = s.ctrs := rfl
@[simp] theorem State.setPart_host (n : Nat) (v : PartState) : (s.setPart n v).host = s.host := rfl
@[simp] theorem State.setPart_hour (n : Nat) (v : PartState) : (s.setPart n v).hour = s.hour := rfl
@[simp] theorem State.setPart_dies (n : Nat) (v : PartState) : (s.setPart n v).dies = s.dies := rfl
@[simp] theorem State.setPart_parts (n : Nat) (v : PartState) : (s.setPart n v).parts = Tab.put (fun _ => {}) s.parts n v := rfl
@[simp] theorem State.setPart_cores (n : Nat) (v : PartState) : (s.setPart n v).cores = s.cores := rfl
@[simp] theorem State.setPart_selfErr (n : Nat) (v : PartState) : (s.setPart n v).selfErr = s.selfErr := rfl
@[simp] theorem State.setPart_soft (n : Nat) (v : PartState) : (s.setPart n v).soft = s.soft := rfl
@[simp] theorem State.setPart_past (n : Nat) (v : PartState) : (s.setPart n v).past = s.past := rfl
@[simp] theorem State.setPart_mods (n : Nat) (v : PartState) : (s.setPart n v).mods = s.mods := rfl
@[simp] theorem State.setPart_groups (n : Nat) (v : PartState) : (s.setPart n v).groups = s.groups := rfl
@[simp] theorem State.setPart_combines (n : Nat) (v : PartState) : (s.setPart n v).combines = s.combines := rfl
@[simp] theorem State.setPart_ports (n : Nat) (v : PartState) : (s.setPart n v).ports = s.ports := rfl
@[simp] theorem State.setPart_txns (n : Nat) (v : PartState) : (s.setPart n v).txns = s.txns := rfl
@[simp] theorem State.setPart_quarantine (n : Nat) (v : PartState) : (s.setPart n v).quarantine = s.quarantine := rfl
@[simp] theorem State.setPart_items (n : Nat) (v : PartState) : (s.setPart n v).items = s.items := rfl
@[simp] theorem State.setPart_txnWaits (n : Nat) (v : PartState) : (s.setPart n v).txnWaits = s.txnWaits := rfl
@[simp] theorem State.setPart_txnLast (n : Nat) (v : PartState) : (s.setPart n v).txnLast = s.txnLast := rfl
@[simp] theorem State.setPart_answered (n : Nat) (v : PartState) : (s.setPart n v).answered = s.answered := rfl
@[simp] theorem State.setPart_config (n : Nat) (v : PartState) : (s.setPart n v).config = s.config := rfl
@[simp] theorem State.setPart_meter (n : Nat) (v : PartState) : (s.setPart n v).meter = s.meter := rfl
@[simp] theorem State.setPart_sec (n : Nat) (v : PartState) : (s.setPart n v).sec = s.sec := rfl
@[simp] theorem State.setPart_power (n : Nat) (v : PartState) : (s.setPart n v).power = s.power := rfl
@[simp] theorem State.setPart_dawn (n : Nat) (v : PartState) : (s.setPart n v).dawn = s.dawn := rfl
@[simp] theorem State.setPart_jtag (n : Nat) (v : PartState) : (s.setPart n v).jtag = s.jtag := rfl
@[simp] theorem State.setPart_loader (n : Nat) (v : PartState) : (s.setPart n v).loader = s.loader := rfl
@[simp] theorem State.setPart_serving (n : Nat) (v : PartState) : (s.setPart n v).serving = s.serving := rfl
@[simp] theorem State.setPart_freeCount (n : Nat) (v : PartState) : (s.setPart n v).freeCount = s.freeCount := rfl
@[simp] theorem State.setPart_out (n : Nat) (v : PartState) : (s.setPart n v).out = s.out := rfl
@[simp] theorem State.setPart_pending (n : Nat) (v : PartState) : (s.setPart n v).pending = s.pending := rfl

/-! ## setCore -/

@[simp] theorem State.setCore_regs (g : Nat) (v : CoreState) : (s.setCore g v).regs = s.regs := rfl
@[simp] theorem State.setCore_staged (g : Nat) (v : CoreState) : (s.setCore g v).staged = s.staged := rfl
@[simp] theorem State.setCore_mem (g : Nat) (v : CoreState) : (s.setCore g v).mem = s.mem := rfl
@[simp] theorem State.setCore_poison (g : Nat) (v : CoreState) : (s.setCore g v).poison = s.poison := rfl
@[simp] theorem State.setCore_flags (g : Nat) (v : CoreState) : (s.setCore g v).flags = s.flags := rfl
@[simp] theorem State.setCore_ctrs (g : Nat) (v : CoreState) : (s.setCore g v).ctrs = s.ctrs := rfl
@[simp] theorem State.setCore_host (g : Nat) (v : CoreState) : (s.setCore g v).host = s.host := rfl
@[simp] theorem State.setCore_hour (g : Nat) (v : CoreState) : (s.setCore g v).hour = s.hour := rfl
@[simp] theorem State.setCore_dies (g : Nat) (v : CoreState) : (s.setCore g v).dies = s.dies := rfl
@[simp] theorem State.setCore_parts (g : Nat) (v : CoreState) : (s.setCore g v).parts = s.parts := rfl
@[simp] theorem State.setCore_cores (g : Nat) (v : CoreState) : (s.setCore g v).cores = Tab.put (fun _ => {}) s.cores g v := rfl
@[simp] theorem State.setCore_selfErr (g : Nat) (v : CoreState) : (s.setCore g v).selfErr = s.selfErr := rfl
@[simp] theorem State.setCore_soft (g : Nat) (v : CoreState) : (s.setCore g v).soft = s.soft := rfl
@[simp] theorem State.setCore_past (g : Nat) (v : CoreState) : (s.setCore g v).past = s.past := rfl
@[simp] theorem State.setCore_mods (g : Nat) (v : CoreState) : (s.setCore g v).mods = s.mods := rfl
@[simp] theorem State.setCore_groups (g : Nat) (v : CoreState) : (s.setCore g v).groups = s.groups := rfl
@[simp] theorem State.setCore_combines (g : Nat) (v : CoreState) : (s.setCore g v).combines = s.combines := rfl
@[simp] theorem State.setCore_ports (g : Nat) (v : CoreState) : (s.setCore g v).ports = s.ports := rfl
@[simp] theorem State.setCore_txns (g : Nat) (v : CoreState) : (s.setCore g v).txns = s.txns := rfl
@[simp] theorem State.setCore_quarantine (g : Nat) (v : CoreState) : (s.setCore g v).quarantine = s.quarantine := rfl
@[simp] theorem State.setCore_items (g : Nat) (v : CoreState) : (s.setCore g v).items = s.items := rfl
@[simp] theorem State.setCore_txnWaits (g : Nat) (v : CoreState) : (s.setCore g v).txnWaits = s.txnWaits := rfl
@[simp] theorem State.setCore_txnLast (g : Nat) (v : CoreState) : (s.setCore g v).txnLast = s.txnLast := rfl
@[simp] theorem State.setCore_answered (g : Nat) (v : CoreState) : (s.setCore g v).answered = s.answered := rfl
@[simp] theorem State.setCore_config (g : Nat) (v : CoreState) : (s.setCore g v).config = s.config := rfl
@[simp] theorem State.setCore_meter (g : Nat) (v : CoreState) : (s.setCore g v).meter = s.meter := rfl
@[simp] theorem State.setCore_sec (g : Nat) (v : CoreState) : (s.setCore g v).sec = s.sec := rfl
@[simp] theorem State.setCore_power (g : Nat) (v : CoreState) : (s.setCore g v).power = s.power := rfl
@[simp] theorem State.setCore_dawn (g : Nat) (v : CoreState) : (s.setCore g v).dawn = s.dawn := rfl
@[simp] theorem State.setCore_jtag (g : Nat) (v : CoreState) : (s.setCore g v).jtag = s.jtag := rfl
@[simp] theorem State.setCore_loader (g : Nat) (v : CoreState) : (s.setCore g v).loader = s.loader := rfl
@[simp] theorem State.setCore_serving (g : Nat) (v : CoreState) : (s.setCore g v).serving = s.serving := rfl
@[simp] theorem State.setCore_freeCount (g : Nat) (v : CoreState) : (s.setCore g v).freeCount = s.freeCount := rfl
@[simp] theorem State.setCore_out (g : Nat) (v : CoreState) : (s.setCore g v).out = s.out := rfl
@[simp] theorem State.setCore_pending (g : Nat) (v : CoreState) : (s.setCore g v).pending = s.pending := rfl

/-! ## setRing -/

@[simp] theorem State.setRing_regs (rid : Nat) (v : Ring) : (s.setRing rid v).regs = s.regs := rfl
@[simp] theorem State.setRing_staged (rid : Nat) (v : Ring) : (s.setRing rid v).staged = s.staged := rfl
@[simp] theorem State.setRing_mem (rid : Nat) (v : Ring) : (s.setRing rid v).mem = s.mem := rfl
@[simp] theorem State.setRing_poison (rid : Nat) (v : Ring) : (s.setRing rid v).poison = s.poison := rfl
@[simp] theorem State.setRing_flags (rid : Nat) (v : Ring) : (s.setRing rid v).flags = s.flags := rfl
@[simp] theorem State.setRing_ctrs (rid : Nat) (v : Ring) : (s.setRing rid v).ctrs = s.ctrs := rfl
@[simp] theorem State.setRing_host (rid : Nat) (v : Ring) : (s.setRing rid v).host = { s.host with rings := Tab.put (fun _ => {}) s.host.rings rid v } := rfl
@[simp] theorem State.setRing_hour (rid : Nat) (v : Ring) : (s.setRing rid v).hour = s.hour := rfl
@[simp] theorem State.setRing_dies (rid : Nat) (v : Ring) : (s.setRing rid v).dies = s.dies := rfl
@[simp] theorem State.setRing_parts (rid : Nat) (v : Ring) : (s.setRing rid v).parts = s.parts := rfl
@[simp] theorem State.setRing_cores (rid : Nat) (v : Ring) : (s.setRing rid v).cores = s.cores := rfl
@[simp] theorem State.setRing_selfErr (rid : Nat) (v : Ring) : (s.setRing rid v).selfErr = s.selfErr := rfl
@[simp] theorem State.setRing_soft (rid : Nat) (v : Ring) : (s.setRing rid v).soft = s.soft := rfl
@[simp] theorem State.setRing_past (rid : Nat) (v : Ring) : (s.setRing rid v).past = s.past := rfl
@[simp] theorem State.setRing_mods (rid : Nat) (v : Ring) : (s.setRing rid v).mods = s.mods := rfl
@[simp] theorem State.setRing_groups (rid : Nat) (v : Ring) : (s.setRing rid v).groups = s.groups := rfl
@[simp] theorem State.setRing_combines (rid : Nat) (v : Ring) : (s.setRing rid v).combines = s.combines := rfl
@[simp] theorem State.setRing_ports (rid : Nat) (v : Ring) : (s.setRing rid v).ports = s.ports := rfl
@[simp] theorem State.setRing_txns (rid : Nat) (v : Ring) : (s.setRing rid v).txns = s.txns := rfl
@[simp] theorem State.setRing_quarantine (rid : Nat) (v : Ring) : (s.setRing rid v).quarantine = s.quarantine := rfl
@[simp] theorem State.setRing_items (rid : Nat) (v : Ring) : (s.setRing rid v).items = s.items := rfl
@[simp] theorem State.setRing_txnWaits (rid : Nat) (v : Ring) : (s.setRing rid v).txnWaits = s.txnWaits := rfl
@[simp] theorem State.setRing_txnLast (rid : Nat) (v : Ring) : (s.setRing rid v).txnLast = s.txnLast := rfl
@[simp] theorem State.setRing_answered (rid : Nat) (v : Ring) : (s.setRing rid v).answered = s.answered := rfl
@[simp] theorem State.setRing_config (rid : Nat) (v : Ring) : (s.setRing rid v).config = s.config := rfl
@[simp] theorem State.setRing_meter (rid : Nat) (v : Ring) : (s.setRing rid v).meter = s.meter := rfl
@[simp] theorem State.setRing_sec (rid : Nat) (v : Ring) : (s.setRing rid v).sec = s.sec := rfl
@[simp] theorem State.setRing_power (rid : Nat) (v : Ring) : (s.setRing rid v).power = s.power := rfl
@[simp] theorem State.setRing_dawn (rid : Nat) (v : Ring) : (s.setRing rid v).dawn = s.dawn := rfl
@[simp] theorem State.setRing_jtag (rid : Nat) (v : Ring) : (s.setRing rid v).jtag = s.jtag := rfl
@[simp] theorem State.setRing_loader (rid : Nat) (v : Ring) : (s.setRing rid v).loader = s.loader := rfl
@[simp] theorem State.setRing_serving (rid : Nat) (v : Ring) : (s.setRing rid v).serving = s.serving := rfl
@[simp] theorem State.setRing_freeCount (rid : Nat) (v : Ring) : (s.setRing rid v).freeCount = s.freeCount := rfl
@[simp] theorem State.setRing_out (rid : Nat) (v : Ring) : (s.setRing rid v).out = s.out := rfl
@[simp] theorem State.setRing_pending (rid : Nat) (v : Ring) : (s.setRing rid v).pending = s.pending := rfl

/-! ## setModEnd -/

@[simp] theorem State.setModEnd_regs (k : Nat) (v : ModEnd) : (s.setModEnd k v).regs = s.regs := rfl
@[simp] theorem State.setModEnd_staged (k : Nat) (v : ModEnd) : (s.setModEnd k v).staged = s.staged := rfl
@[simp] theorem State.setModEnd_mem (k : Nat) (v : ModEnd) : (s.setModEnd k v).mem = s.mem := rfl
@[simp] theorem State.setModEnd_poison (k : Nat) (v : ModEnd) : (s.setModEnd k v).poison = s.poison := rfl
@[simp] theorem State.setModEnd_flags (k : Nat) (v : ModEnd) : (s.setModEnd k v).flags = s.flags := rfl
@[simp] theorem State.setModEnd_ctrs (k : Nat) (v : ModEnd) : (s.setModEnd k v).ctrs = s.ctrs := rfl
@[simp] theorem State.setModEnd_host (k : Nat) (v : ModEnd) : (s.setModEnd k v).host = s.host := rfl
@[simp] theorem State.setModEnd_hour (k : Nat) (v : ModEnd) : (s.setModEnd k v).hour = s.hour := rfl
@[simp] theorem State.setModEnd_dies (k : Nat) (v : ModEnd) : (s.setModEnd k v).dies = s.dies := rfl
@[simp] theorem State.setModEnd_parts (k : Nat) (v : ModEnd) : (s.setModEnd k v).parts = s.parts := rfl
@[simp] theorem State.setModEnd_cores (k : Nat) (v : ModEnd) : (s.setModEnd k v).cores = s.cores := rfl
@[simp] theorem State.setModEnd_selfErr (k : Nat) (v : ModEnd) : (s.setModEnd k v).selfErr = s.selfErr := rfl
@[simp] theorem State.setModEnd_soft (k : Nat) (v : ModEnd) : (s.setModEnd k v).soft = s.soft := rfl
@[simp] theorem State.setModEnd_past (k : Nat) (v : ModEnd) : (s.setModEnd k v).past = s.past := rfl
@[simp] theorem State.setModEnd_mods (k : Nat) (v : ModEnd) : (s.setModEnd k v).mods = Tab.put (fun _ => {}) s.mods k v := rfl
@[simp] theorem State.setModEnd_groups (k : Nat) (v : ModEnd) : (s.setModEnd k v).groups = s.groups := rfl
@[simp] theorem State.setModEnd_combines (k : Nat) (v : ModEnd) : (s.setModEnd k v).combines = s.combines := rfl
@[simp] theorem State.setModEnd_ports (k : Nat) (v : ModEnd) : (s.setModEnd k v).ports = s.ports := rfl
@[simp] theorem State.setModEnd_txns (k : Nat) (v : ModEnd) : (s.setModEnd k v).txns = s.txns := rfl
@[simp] theorem State.setModEnd_quarantine (k : Nat) (v : ModEnd) : (s.setModEnd k v).quarantine = s.quarantine := rfl
@[simp] theorem State.setModEnd_items (k : Nat) (v : ModEnd) : (s.setModEnd k v).items = s.items := rfl
@[simp] theorem State.setModEnd_txnWaits (k : Nat) (v : ModEnd) : (s.setModEnd k v).txnWaits = s.txnWaits := rfl
@[simp] theorem State.setModEnd_txnLast (k : Nat) (v : ModEnd) : (s.setModEnd k v).txnLast = s.txnLast := rfl
@[simp] theorem State.setModEnd_answered (k : Nat) (v : ModEnd) : (s.setModEnd k v).answered = s.answered := rfl
@[simp] theorem State.setModEnd_config (k : Nat) (v : ModEnd) : (s.setModEnd k v).config = s.config := rfl
@[simp] theorem State.setModEnd_meter (k : Nat) (v : ModEnd) : (s.setModEnd k v).meter = s.meter := rfl
@[simp] theorem State.setModEnd_sec (k : Nat) (v : ModEnd) : (s.setModEnd k v).sec = s.sec := rfl
@[simp] theorem State.setModEnd_power (k : Nat) (v : ModEnd) : (s.setModEnd k v).power = s.power := rfl
@[simp] theorem State.setModEnd_dawn (k : Nat) (v : ModEnd) : (s.setModEnd k v).dawn = s.dawn := rfl
@[simp] theorem State.setModEnd_jtag (k : Nat) (v : ModEnd) : (s.setModEnd k v).jtag = s.jtag := rfl
@[simp] theorem State.setModEnd_loader (k : Nat) (v : ModEnd) : (s.setModEnd k v).loader = s.loader := rfl
@[simp] theorem State.setModEnd_serving (k : Nat) (v : ModEnd) : (s.setModEnd k v).serving = s.serving := rfl
@[simp] theorem State.setModEnd_freeCount (k : Nat) (v : ModEnd) : (s.setModEnd k v).freeCount = s.freeCount := rfl
@[simp] theorem State.setModEnd_out (k : Nat) (v : ModEnd) : (s.setModEnd k v).out = s.out := rfl
@[simp] theorem State.setModEnd_pending (k : Nat) (v : ModEnd) : (s.setModEnd k v).pending = s.pending := rfl

/-! ## setPort -/

@[simp] theorem State.setPort_regs (p : Nat) (v : Port) : (s.setPort p v).regs = s.regs := rfl
@[simp] theorem State.setPort_staged (p : Nat) (v : Port) : (s.setPort p v).staged = s.staged := rfl
@[simp] theorem State.setPort_mem (p : Nat) (v : Port) : (s.setPort p v).mem = s.mem := rfl
@[simp] theorem State.setPort_poison (p : Nat) (v : Port) : (s.setPort p v).poison = s.poison := rfl
@[simp] theorem State.setPort_flags (p : Nat) (v : Port) : (s.setPort p v).flags = s.flags := rfl
@[simp] theorem State.setPort_ctrs (p : Nat) (v : Port) : (s.setPort p v).ctrs = s.ctrs := rfl
@[simp] theorem State.setPort_host (p : Nat) (v : Port) : (s.setPort p v).host = s.host := rfl
@[simp] theorem State.setPort_hour (p : Nat) (v : Port) : (s.setPort p v).hour = s.hour := rfl
@[simp] theorem State.setPort_dies (p : Nat) (v : Port) : (s.setPort p v).dies = s.dies := rfl
@[simp] theorem State.setPort_parts (p : Nat) (v : Port) : (s.setPort p v).parts = s.parts := rfl
@[simp] theorem State.setPort_cores (p : Nat) (v : Port) : (s.setPort p v).cores = s.cores := rfl
@[simp] theorem State.setPort_selfErr (p : Nat) (v : Port) : (s.setPort p v).selfErr = s.selfErr := rfl
@[simp] theorem State.setPort_soft (p : Nat) (v : Port) : (s.setPort p v).soft = s.soft := rfl
@[simp] theorem State.setPort_past (p : Nat) (v : Port) : (s.setPort p v).past = s.past := rfl
@[simp] theorem State.setPort_mods (p : Nat) (v : Port) : (s.setPort p v).mods = s.mods := rfl
@[simp] theorem State.setPort_groups (p : Nat) (v : Port) : (s.setPort p v).groups = s.groups := rfl
@[simp] theorem State.setPort_combines (p : Nat) (v : Port) : (s.setPort p v).combines = s.combines := rfl
@[simp] theorem State.setPort_ports (p : Nat) (v : Port) : (s.setPort p v).ports = Tab.put (fun _ => {}) s.ports p v := rfl
@[simp] theorem State.setPort_txns (p : Nat) (v : Port) : (s.setPort p v).txns = s.txns := rfl
@[simp] theorem State.setPort_quarantine (p : Nat) (v : Port) : (s.setPort p v).quarantine = s.quarantine := rfl
@[simp] theorem State.setPort_items (p : Nat) (v : Port) : (s.setPort p v).items = s.items := rfl
@[simp] theorem State.setPort_txnWaits (p : Nat) (v : Port) : (s.setPort p v).txnWaits = s.txnWaits := rfl
@[simp] theorem State.setPort_txnLast (p : Nat) (v : Port) : (s.setPort p v).txnLast = s.txnLast := rfl
@[simp] theorem State.setPort_answered (p : Nat) (v : Port) : (s.setPort p v).answered = s.answered := rfl
@[simp] theorem State.setPort_config (p : Nat) (v : Port) : (s.setPort p v).config = s.config := rfl
@[simp] theorem State.setPort_meter (p : Nat) (v : Port) : (s.setPort p v).meter = s.meter := rfl
@[simp] theorem State.setPort_sec (p : Nat) (v : Port) : (s.setPort p v).sec = s.sec := rfl
@[simp] theorem State.setPort_power (p : Nat) (v : Port) : (s.setPort p v).power = s.power := rfl
@[simp] theorem State.setPort_dawn (p : Nat) (v : Port) : (s.setPort p v).dawn = s.dawn := rfl
@[simp] theorem State.setPort_jtag (p : Nat) (v : Port) : (s.setPort p v).jtag = s.jtag := rfl
@[simp] theorem State.setPort_loader (p : Nat) (v : Port) : (s.setPort p v).loader = s.loader := rfl
@[simp] theorem State.setPort_serving (p : Nat) (v : Port) : (s.setPort p v).serving = s.serving := rfl
@[simp] theorem State.setPort_freeCount (p : Nat) (v : Port) : (s.setPort p v).freeCount = s.freeCount := rfl
@[simp] theorem State.setPort_out (p : Nat) (v : Port) : (s.setPort p v).out = s.out := rfl
@[simp] theorem State.setPort_pending (p : Nat) (v : Port) : (s.setPort p v).pending = s.pending := rfl

/-! ## setMeter -/

@[simp] theorem State.setMeter_regs (m : Meter) : (s.setMeter m).regs = s.regs := rfl
@[simp] theorem State.setMeter_staged (m : Meter) : (s.setMeter m).staged = s.staged := rfl
@[simp] theorem State.setMeter_mem (m : Meter) : (s.setMeter m).mem = s.mem := rfl
@[simp] theorem State.setMeter_poison (m : Meter) : (s.setMeter m).poison = s.poison := rfl
@[simp] theorem State.setMeter_flags (m : Meter) : (s.setMeter m).flags = s.flags := rfl
@[simp] theorem State.setMeter_ctrs (m : Meter) : (s.setMeter m).ctrs = s.ctrs := rfl
@[simp] theorem State.setMeter_host (m : Meter) : (s.setMeter m).host = s.host := rfl
@[simp] theorem State.setMeter_hour (m : Meter) : (s.setMeter m).hour = s.hour := rfl
@[simp] theorem State.setMeter_dies (m : Meter) : (s.setMeter m).dies = s.dies := rfl
@[simp] theorem State.setMeter_parts (m : Meter) : (s.setMeter m).parts = s.parts := rfl
@[simp] theorem State.setMeter_cores (m : Meter) : (s.setMeter m).cores = s.cores := rfl
@[simp] theorem State.setMeter_selfErr (m : Meter) : (s.setMeter m).selfErr = s.selfErr := rfl
@[simp] theorem State.setMeter_soft (m : Meter) : (s.setMeter m).soft = s.soft := rfl
@[simp] theorem State.setMeter_past (m : Meter) : (s.setMeter m).past = s.past := rfl
@[simp] theorem State.setMeter_mods (m : Meter) : (s.setMeter m).mods = s.mods := rfl
@[simp] theorem State.setMeter_groups (m : Meter) : (s.setMeter m).groups = s.groups := rfl
@[simp] theorem State.setMeter_combines (m : Meter) : (s.setMeter m).combines = s.combines := rfl
@[simp] theorem State.setMeter_ports (m : Meter) : (s.setMeter m).ports = s.ports := rfl
@[simp] theorem State.setMeter_txns (m : Meter) : (s.setMeter m).txns = s.txns := rfl
@[simp] theorem State.setMeter_quarantine (m : Meter) : (s.setMeter m).quarantine = s.quarantine := rfl
@[simp] theorem State.setMeter_items (m : Meter) : (s.setMeter m).items = s.items := rfl
@[simp] theorem State.setMeter_txnWaits (m : Meter) : (s.setMeter m).txnWaits = s.txnWaits := rfl
@[simp] theorem State.setMeter_txnLast (m : Meter) : (s.setMeter m).txnLast = s.txnLast := rfl
@[simp] theorem State.setMeter_answered (m : Meter) : (s.setMeter m).answered = s.answered := rfl
@[simp] theorem State.setMeter_config (m : Meter) : (s.setMeter m).config = s.config := rfl
@[simp] theorem State.setMeter_meter (m : Meter) : (s.setMeter m).meter = m := rfl
@[simp] theorem State.setMeter_sec (m : Meter) : (s.setMeter m).sec = s.sec := rfl
@[simp] theorem State.setMeter_power (m : Meter) : (s.setMeter m).power = s.power := rfl
@[simp] theorem State.setMeter_dawn (m : Meter) : (s.setMeter m).dawn = s.dawn := rfl
@[simp] theorem State.setMeter_jtag (m : Meter) : (s.setMeter m).jtag = s.jtag := rfl
@[simp] theorem State.setMeter_loader (m : Meter) : (s.setMeter m).loader = s.loader := rfl
@[simp] theorem State.setMeter_serving (m : Meter) : (s.setMeter m).serving = s.serving := rfl
@[simp] theorem State.setMeter_freeCount (m : Meter) : (s.setMeter m).freeCount = s.freeCount := rfl
@[simp] theorem State.setMeter_out (m : Meter) : (s.setMeter m).out = s.out := rfl
@[simp] theorem State.setMeter_pending (m : Meter) : (s.setMeter m).pending = s.pending := rfl

/-! ## setServe -/

@[simp] theorem State.setServe_regs (n : Nat) (v : Option Serve) : (s.setServe n v).regs = s.regs := rfl
@[simp] theorem State.setServe_staged (n : Nat) (v : Option Serve) : (s.setServe n v).staged = s.staged := rfl
@[simp] theorem State.setServe_mem (n : Nat) (v : Option Serve) : (s.setServe n v).mem = s.mem := rfl
@[simp] theorem State.setServe_poison (n : Nat) (v : Option Serve) : (s.setServe n v).poison = s.poison := rfl
@[simp] theorem State.setServe_flags (n : Nat) (v : Option Serve) : (s.setServe n v).flags = s.flags := rfl
@[simp] theorem State.setServe_ctrs (n : Nat) (v : Option Serve) : (s.setServe n v).ctrs = s.ctrs := rfl
@[simp] theorem State.setServe_host (n : Nat) (v : Option Serve) : (s.setServe n v).host = s.host := rfl
@[simp] theorem State.setServe_hour (n : Nat) (v : Option Serve) : (s.setServe n v).hour = s.hour := rfl
@[simp] theorem State.setServe_dies (n : Nat) (v : Option Serve) : (s.setServe n v).dies = s.dies := rfl
@[simp] theorem State.setServe_parts (n : Nat) (v : Option Serve) : (s.setServe n v).parts = s.parts := rfl
@[simp] theorem State.setServe_cores (n : Nat) (v : Option Serve) : (s.setServe n v).cores = s.cores := rfl
@[simp] theorem State.setServe_selfErr (n : Nat) (v : Option Serve) : (s.setServe n v).selfErr = s.selfErr := rfl
@[simp] theorem State.setServe_soft (n : Nat) (v : Option Serve) : (s.setServe n v).soft = s.soft := rfl
@[simp] theorem State.setServe_past (n : Nat) (v : Option Serve) : (s.setServe n v).past = s.past := rfl
@[simp] theorem State.setServe_mods (n : Nat) (v : Option Serve) : (s.setServe n v).mods = s.mods := rfl
@[simp] theorem State.setServe_groups (n : Nat) (v : Option Serve) : (s.setServe n v).groups = s.groups := rfl
@[simp] theorem State.setServe_combines (n : Nat) (v : Option Serve) : (s.setServe n v).combines = s.combines := rfl
@[simp] theorem State.setServe_ports (n : Nat) (v : Option Serve) : (s.setServe n v).ports = s.ports := rfl
@[simp] theorem State.setServe_txns (n : Nat) (v : Option Serve) : (s.setServe n v).txns = s.txns := rfl
@[simp] theorem State.setServe_quarantine (n : Nat) (v : Option Serve) : (s.setServe n v).quarantine = s.quarantine := rfl
@[simp] theorem State.setServe_items (n : Nat) (v : Option Serve) : (s.setServe n v).items = s.items := rfl
@[simp] theorem State.setServe_txnWaits (n : Nat) (v : Option Serve) : (s.setServe n v).txnWaits = s.txnWaits := rfl
@[simp] theorem State.setServe_txnLast (n : Nat) (v : Option Serve) : (s.setServe n v).txnLast = s.txnLast := rfl
@[simp] theorem State.setServe_answered (n : Nat) (v : Option Serve) : (s.setServe n v).answered = s.answered := rfl
@[simp] theorem State.setServe_config (n : Nat) (v : Option Serve) : (s.setServe n v).config = s.config := rfl
@[simp] theorem State.setServe_meter (n : Nat) (v : Option Serve) : (s.setServe n v).meter = s.meter := rfl
@[simp] theorem State.setServe_sec (n : Nat) (v : Option Serve) : (s.setServe n v).sec = s.sec := rfl
@[simp] theorem State.setServe_power (n : Nat) (v : Option Serve) : (s.setServe n v).power = s.power := rfl
@[simp] theorem State.setServe_dawn (n : Nat) (v : Option Serve) : (s.setServe n v).dawn = s.dawn := rfl
@[simp] theorem State.setServe_jtag (n : Nat) (v : Option Serve) : (s.setServe n v).jtag = s.jtag := rfl
@[simp] theorem State.setServe_loader (n : Nat) (v : Option Serve) : (s.setServe n v).loader = s.loader := rfl
@[simp] theorem State.setServe_serving (n : Nat) (v : Option Serve) : (s.setServe n v).serving = { s.serving with parts := Tab.put (fun _ => none) s.serving.parts n v } := rfl
@[simp] theorem State.setServe_freeCount (n : Nat) (v : Option Serve) : (s.setServe n v).freeCount = s.freeCount := rfl
@[simp] theorem State.setServe_out (n : Nat) (v : Option Serve) : (s.setServe n v).out = s.out := rfl
@[simp] theorem State.setServe_pending (n : Nat) (v : Option Serve) : (s.setServe n v).pending = s.pending := rfl

/-! ## setRequests -/

@[simp] theorem State.setRequests_regs (l : List Request) : (s.setRequests l).regs = s.regs := rfl
@[simp] theorem State.setRequests_staged (l : List Request) : (s.setRequests l).staged = s.staged := rfl
@[simp] theorem State.setRequests_mem (l : List Request) : (s.setRequests l).mem = s.mem := rfl
@[simp] theorem State.setRequests_poison (l : List Request) : (s.setRequests l).poison = s.poison := rfl
@[simp] theorem State.setRequests_flags (l : List Request) : (s.setRequests l).flags = s.flags := rfl
@[simp] theorem State.setRequests_ctrs (l : List Request) : (s.setRequests l).ctrs = s.ctrs := rfl
@[simp] theorem State.setRequests_host (l : List Request) : (s.setRequests l).host = s.host := rfl
@[simp] theorem State.setRequests_hour (l : List Request) : (s.setRequests l).hour = s.hour := rfl
@[simp] theorem State.setRequests_dies (l : List Request) : (s.setRequests l).dies = s.dies := rfl
@[simp] theorem State.setRequests_parts (l : List Request) : (s.setRequests l).parts = s.parts := rfl
@[simp] theorem State.setRequests_cores (l : List Request) : (s.setRequests l).cores = s.cores := rfl
@[simp] theorem State.setRequests_selfErr (l : List Request) : (s.setRequests l).selfErr = s.selfErr := rfl
@[simp] theorem State.setRequests_soft (l : List Request) : (s.setRequests l).soft = s.soft := rfl
@[simp] theorem State.setRequests_past (l : List Request) : (s.setRequests l).past = s.past := rfl
@[simp] theorem State.setRequests_mods (l : List Request) : (s.setRequests l).mods = s.mods := rfl
@[simp] theorem State.setRequests_groups (l : List Request) : (s.setRequests l).groups = s.groups := rfl
@[simp] theorem State.setRequests_combines (l : List Request) : (s.setRequests l).combines = s.combines := rfl
@[simp] theorem State.setRequests_ports (l : List Request) : (s.setRequests l).ports = s.ports := rfl
@[simp] theorem State.setRequests_txns (l : List Request) : (s.setRequests l).txns = s.txns := rfl
@[simp] theorem State.setRequests_quarantine (l : List Request) : (s.setRequests l).quarantine = s.quarantine := rfl
@[simp] theorem State.setRequests_items (l : List Request) : (s.setRequests l).items = s.items := rfl
@[simp] theorem State.setRequests_txnWaits (l : List Request) : (s.setRequests l).txnWaits = s.txnWaits := rfl
@[simp] theorem State.setRequests_txnLast (l : List Request) : (s.setRequests l).txnLast = s.txnLast := rfl
@[simp] theorem State.setRequests_answered (l : List Request) : (s.setRequests l).answered = s.answered := rfl
@[simp] theorem State.setRequests_config (l : List Request) : (s.setRequests l).config = s.config := rfl
@[simp] theorem State.setRequests_meter (l : List Request) : (s.setRequests l).meter = s.meter := rfl
@[simp] theorem State.setRequests_sec (l : List Request) : (s.setRequests l).sec = s.sec := rfl
@[simp] theorem State.setRequests_power (l : List Request) : (s.setRequests l).power = s.power := rfl
@[simp] theorem State.setRequests_dawn (l : List Request) : (s.setRequests l).dawn = s.dawn := rfl
@[simp] theorem State.setRequests_jtag (l : List Request) : (s.setRequests l).jtag = s.jtag := rfl
@[simp] theorem State.setRequests_loader (l : List Request) : (s.setRequests l).loader = s.loader := rfl
@[simp] theorem State.setRequests_serving (l : List Request) : (s.setRequests l).serving = { s.serving with requests := l } := rfl
@[simp] theorem State.setRequests_freeCount (l : List Request) : (s.setRequests l).freeCount = s.freeCount := rfl
@[simp] theorem State.setRequests_out (l : List Request) : (s.setRequests l).out = s.out := rfl
@[simp] theorem State.setRequests_pending (l : List Request) : (s.setRequests l).pending = s.pending := rfl

/-! ## setRamp -/

@[simp] theorem State.setRamp_regs (d : Nat) (r : Ramp) : (s.setRamp d r).regs = s.regs := rfl
@[simp] theorem State.setRamp_staged (d : Nat) (r : Ramp) : (s.setRamp d r).staged = s.staged := rfl
@[simp] theorem State.setRamp_mem (d : Nat) (r : Ramp) : (s.setRamp d r).mem = s.mem := rfl
@[simp] theorem State.setRamp_poison (d : Nat) (r : Ramp) : (s.setRamp d r).poison = s.poison := rfl
@[simp] theorem State.setRamp_flags (d : Nat) (r : Ramp) : (s.setRamp d r).flags = s.flags := rfl
@[simp] theorem State.setRamp_ctrs (d : Nat) (r : Ramp) : (s.setRamp d r).ctrs = s.ctrs := rfl
@[simp] theorem State.setRamp_host (d : Nat) (r : Ramp) : (s.setRamp d r).host = s.host := rfl
@[simp] theorem State.setRamp_hour (d : Nat) (r : Ramp) : (s.setRamp d r).hour = s.hour := rfl
@[simp] theorem State.setRamp_dies (d : Nat) (r : Ramp) : (s.setRamp d r).dies = s.dies := rfl
@[simp] theorem State.setRamp_parts (d : Nat) (r : Ramp) : (s.setRamp d r).parts = s.parts := rfl
@[simp] theorem State.setRamp_cores (d : Nat) (r : Ramp) : (s.setRamp d r).cores = s.cores := rfl
@[simp] theorem State.setRamp_selfErr (d : Nat) (r : Ramp) : (s.setRamp d r).selfErr = s.selfErr := rfl
@[simp] theorem State.setRamp_soft (d : Nat) (r : Ramp) : (s.setRamp d r).soft = s.soft := rfl
@[simp] theorem State.setRamp_past (d : Nat) (r : Ramp) : (s.setRamp d r).past = s.past := rfl
@[simp] theorem State.setRamp_mods (d : Nat) (r : Ramp) : (s.setRamp d r).mods = s.mods := rfl
@[simp] theorem State.setRamp_groups (d : Nat) (r : Ramp) : (s.setRamp d r).groups = s.groups := rfl
@[simp] theorem State.setRamp_combines (d : Nat) (r : Ramp) : (s.setRamp d r).combines = s.combines := rfl
@[simp] theorem State.setRamp_ports (d : Nat) (r : Ramp) : (s.setRamp d r).ports = s.ports := rfl
@[simp] theorem State.setRamp_txns (d : Nat) (r : Ramp) : (s.setRamp d r).txns = s.txns := rfl
@[simp] theorem State.setRamp_quarantine (d : Nat) (r : Ramp) : (s.setRamp d r).quarantine = s.quarantine := rfl
@[simp] theorem State.setRamp_items (d : Nat) (r : Ramp) : (s.setRamp d r).items = s.items := rfl
@[simp] theorem State.setRamp_txnWaits (d : Nat) (r : Ramp) : (s.setRamp d r).txnWaits = s.txnWaits := rfl
@[simp] theorem State.setRamp_txnLast (d : Nat) (r : Ramp) : (s.setRamp d r).txnLast = s.txnLast := rfl
@[simp] theorem State.setRamp_answered (d : Nat) (r : Ramp) : (s.setRamp d r).answered = s.answered := rfl
@[simp] theorem State.setRamp_config (d : Nat) (r : Ramp) : (s.setRamp d r).config = s.config := rfl
@[simp] theorem State.setRamp_meter (d : Nat) (r : Ramp) : (s.setRamp d r).meter = s.meter := rfl
@[simp] theorem State.setRamp_sec (d : Nat) (r : Ramp) : (s.setRamp d r).sec = s.sec := rfl
@[simp] theorem State.setRamp_power (d : Nat) (r : Ramp) : (s.setRamp d r).power = { s.power with ramp := Tab.put (fun _ => {}) s.power.ramp d r } := rfl
@[simp] theorem State.setRamp_dawn (d : Nat) (r : Ramp) : (s.setRamp d r).dawn = s.dawn := rfl
@[simp] theorem State.setRamp_jtag (d : Nat) (r : Ramp) : (s.setRamp d r).jtag = s.jtag := rfl
@[simp] theorem State.setRamp_loader (d : Nat) (r : Ramp) : (s.setRamp d r).loader = s.loader := rfl
@[simp] theorem State.setRamp_serving (d : Nat) (r : Ramp) : (s.setRamp d r).serving = s.serving := rfl
@[simp] theorem State.setRamp_freeCount (d : Nat) (r : Ramp) : (s.setRamp d r).freeCount = s.freeCount := rfl
@[simp] theorem State.setRamp_out (d : Nat) (r : Ramp) : (s.setRamp d r).out = s.out := rfl
@[simp] theorem State.setRamp_pending (d : Nat) (r : Ramp) : (s.setRamp d r).pending = s.pending := rfl

/-! ## emit -/

@[simp] theorem State.emit_regs (o : Output) : (s.emit o).regs = s.regs := rfl
@[simp] theorem State.emit_staged (o : Output) : (s.emit o).staged = s.staged := rfl
@[simp] theorem State.emit_mem (o : Output) : (s.emit o).mem = s.mem := rfl
@[simp] theorem State.emit_poison (o : Output) : (s.emit o).poison = s.poison := rfl
@[simp] theorem State.emit_flags (o : Output) : (s.emit o).flags = s.flags := rfl
@[simp] theorem State.emit_ctrs (o : Output) : (s.emit o).ctrs = s.ctrs := rfl
@[simp] theorem State.emit_host (o : Output) : (s.emit o).host = s.host := rfl
@[simp] theorem State.emit_hour (o : Output) : (s.emit o).hour = s.hour := rfl
@[simp] theorem State.emit_dies (o : Output) : (s.emit o).dies = s.dies := rfl
@[simp] theorem State.emit_parts (o : Output) : (s.emit o).parts = s.parts := rfl
@[simp] theorem State.emit_cores (o : Output) : (s.emit o).cores = s.cores := rfl
@[simp] theorem State.emit_selfErr (o : Output) : (s.emit o).selfErr = s.selfErr := rfl
@[simp] theorem State.emit_soft (o : Output) : (s.emit o).soft = s.soft := rfl
@[simp] theorem State.emit_past (o : Output) : (s.emit o).past = s.past := rfl
@[simp] theorem State.emit_mods (o : Output) : (s.emit o).mods = s.mods := rfl
@[simp] theorem State.emit_groups (o : Output) : (s.emit o).groups = s.groups := rfl
@[simp] theorem State.emit_combines (o : Output) : (s.emit o).combines = s.combines := rfl
@[simp] theorem State.emit_ports (o : Output) : (s.emit o).ports = s.ports := rfl
@[simp] theorem State.emit_txns (o : Output) : (s.emit o).txns = s.txns := rfl
@[simp] theorem State.emit_quarantine (o : Output) : (s.emit o).quarantine = s.quarantine := rfl
@[simp] theorem State.emit_items (o : Output) : (s.emit o).items = s.items := rfl
@[simp] theorem State.emit_txnWaits (o : Output) : (s.emit o).txnWaits = s.txnWaits := rfl
@[simp] theorem State.emit_txnLast (o : Output) : (s.emit o).txnLast = s.txnLast := rfl
@[simp] theorem State.emit_answered (o : Output) : (s.emit o).answered = s.answered := rfl
@[simp] theorem State.emit_config (o : Output) : (s.emit o).config = s.config := rfl
@[simp] theorem State.emit_meter (o : Output) : (s.emit o).meter = s.meter := rfl
@[simp] theorem State.emit_sec (o : Output) : (s.emit o).sec = s.sec := rfl
@[simp] theorem State.emit_power (o : Output) : (s.emit o).power = s.power := rfl
@[simp] theorem State.emit_dawn (o : Output) : (s.emit o).dawn = s.dawn := rfl
@[simp] theorem State.emit_jtag (o : Output) : (s.emit o).jtag = s.jtag := rfl
@[simp] theorem State.emit_loader (o : Output) : (s.emit o).loader = s.loader := rfl
@[simp] theorem State.emit_serving (o : Output) : (s.emit o).serving = s.serving := rfl
@[simp] theorem State.emit_freeCount (o : Output) : (s.emit o).freeCount = s.freeCount := rfl
@[simp] theorem State.emit_out (o : Output) : (s.emit o).out = s.out ++ [o] := rfl
@[simp] theorem State.emit_pending (o : Output) : (s.emit o).pending = s.pending := rfl

/-! ## drawn -/

@[simp] theorem State.drawn_regs : (s.drawn).regs = s.regs := rfl
@[simp] theorem State.drawn_staged : (s.drawn).staged = s.staged := rfl
@[simp] theorem State.drawn_mem : (s.drawn).mem = s.mem := rfl
@[simp] theorem State.drawn_poison : (s.drawn).poison = s.poison := rfl
@[simp] theorem State.drawn_flags : (s.drawn).flags = s.flags := rfl
@[simp] theorem State.drawn_ctrs : (s.drawn).ctrs = s.ctrs := rfl
@[simp] theorem State.drawn_host : (s.drawn).host = s.host := rfl
@[simp] theorem State.drawn_hour : (s.drawn).hour = s.hour := rfl
@[simp] theorem State.drawn_dies : (s.drawn).dies = s.dies := rfl
@[simp] theorem State.drawn_parts : (s.drawn).parts = s.parts := rfl
@[simp] theorem State.drawn_cores : (s.drawn).cores = s.cores := rfl
@[simp] theorem State.drawn_selfErr : (s.drawn).selfErr = s.selfErr := rfl
@[simp] theorem State.drawn_soft : (s.drawn).soft = s.soft := rfl
@[simp] theorem State.drawn_past : (s.drawn).past = s.past := rfl
@[simp] theorem State.drawn_mods : (s.drawn).mods = s.mods := rfl
@[simp] theorem State.drawn_groups : (s.drawn).groups = s.groups := rfl
@[simp] theorem State.drawn_combines : (s.drawn).combines = s.combines := rfl
@[simp] theorem State.drawn_ports : (s.drawn).ports = s.ports := rfl
@[simp] theorem State.drawn_txns : (s.drawn).txns = s.txns := rfl
@[simp] theorem State.drawn_quarantine : (s.drawn).quarantine = s.quarantine := rfl
@[simp] theorem State.drawn_items : (s.drawn).items = s.items := rfl
@[simp] theorem State.drawn_txnWaits : (s.drawn).txnWaits = s.txnWaits := rfl
@[simp] theorem State.drawn_txnLast : (s.drawn).txnLast = s.txnLast := rfl
@[simp] theorem State.drawn_answered : (s.drawn).answered = s.answered := rfl
@[simp] theorem State.drawn_config : (s.drawn).config = s.config := rfl
@[simp] theorem State.drawn_meter : (s.drawn).meter = s.meter := rfl
@[simp] theorem State.drawn_sec : (s.drawn).sec = s.sec := rfl
@[simp] theorem State.drawn_power : (s.drawn).power = s.power := rfl
@[simp] theorem State.drawn_dawn : (s.drawn).dawn = s.dawn := rfl
@[simp] theorem State.drawn_jtag : (s.drawn).jtag = s.jtag := rfl
@[simp] theorem State.drawn_loader : (s.drawn).loader = s.loader := rfl
@[simp] theorem State.drawn_serving : (s.drawn).serving = s.serving := rfl
@[simp] theorem State.drawn_freeCount : (s.drawn).freeCount = s.freeCount + 1 := rfl
@[simp] theorem State.drawn_out : (s.drawn).out = s.out := rfl
@[simp] theorem State.drawn_pending : (s.drawn).pending = s.pending := rfl

/-! ## rewritten -/

@[simp] theorem State.rewritten_regs (a b : Nat) : (s.rewritten a b).regs = s.regs := rfl
@[simp] theorem State.rewritten_staged (a b : Nat) : (s.rewritten a b).staged = s.staged := rfl
@[simp] theorem State.rewritten_mem (a b : Nat) : (s.rewritten a b).mem = s.mem := rfl
@[simp] theorem State.rewritten_poison (a b : Nat) : (s.rewritten a b).poison = s.poison := rfl
@[simp] theorem State.rewritten_flags (a b : Nat) : (s.rewritten a b).flags = s.flags := rfl
@[simp] theorem State.rewritten_ctrs (a b : Nat) : (s.rewritten a b).ctrs = s.ctrs := rfl
@[simp] theorem State.rewritten_host (a b : Nat) : (s.rewritten a b).host = s.host := rfl
@[simp] theorem State.rewritten_hour (a b : Nat) : (s.rewritten a b).hour = s.hour := rfl
@[simp] theorem State.rewritten_dies (a b : Nat) : (s.rewritten a b).dies = s.dies := rfl
@[simp] theorem State.rewritten_parts (a b : Nat) : (s.rewritten a b).parts = s.parts := rfl
@[simp] theorem State.rewritten_cores (a b : Nat) : (s.rewritten a b).cores = s.cores := rfl
@[simp] theorem State.rewritten_selfErr (a b : Nat) : (s.rewritten a b).selfErr = s.selfErr := rfl
@[simp] theorem State.rewritten_past (a b : Nat) : (s.rewritten a b).past = s.past := rfl
@[simp] theorem State.rewritten_mods (a b : Nat) : (s.rewritten a b).mods = s.mods := rfl
@[simp] theorem State.rewritten_groups (a b : Nat) : (s.rewritten a b).groups = s.groups := rfl
@[simp] theorem State.rewritten_combines (a b : Nat) : (s.rewritten a b).combines = s.combines := rfl
@[simp] theorem State.rewritten_ports (a b : Nat) : (s.rewritten a b).ports = s.ports := rfl
@[simp] theorem State.rewritten_txns (a b : Nat) : (s.rewritten a b).txns = s.txns := rfl
@[simp] theorem State.rewritten_quarantine (a b : Nat) : (s.rewritten a b).quarantine = s.quarantine := rfl
@[simp] theorem State.rewritten_items (a b : Nat) : (s.rewritten a b).items = s.items := rfl
@[simp] theorem State.rewritten_txnWaits (a b : Nat) : (s.rewritten a b).txnWaits = s.txnWaits := rfl
@[simp] theorem State.rewritten_txnLast (a b : Nat) : (s.rewritten a b).txnLast = s.txnLast := rfl
@[simp] theorem State.rewritten_answered (a b : Nat) : (s.rewritten a b).answered = s.answered := rfl
@[simp] theorem State.rewritten_config (a b : Nat) : (s.rewritten a b).config = s.config := rfl
@[simp] theorem State.rewritten_meter (a b : Nat) : (s.rewritten a b).meter = s.meter := rfl
@[simp] theorem State.rewritten_sec (a b : Nat) : (s.rewritten a b).sec = s.sec := rfl
@[simp] theorem State.rewritten_power (a b : Nat) : (s.rewritten a b).power = s.power := rfl
@[simp] theorem State.rewritten_dawn (a b : Nat) : (s.rewritten a b).dawn = s.dawn := rfl
@[simp] theorem State.rewritten_jtag (a b : Nat) : (s.rewritten a b).jtag = s.jtag := rfl
@[simp] theorem State.rewritten_loader (a b : Nat) : (s.rewritten a b).loader = s.loader := rfl
@[simp] theorem State.rewritten_serving (a b : Nat) : (s.rewritten a b).serving = s.serving := rfl
@[simp] theorem State.rewritten_freeCount (a b : Nat) : (s.rewritten a b).freeCount = s.freeCount := rfl
@[simp] theorem State.rewritten_out (a b : Nat) : (s.rewritten a b).out = s.out := rfl
@[simp] theorem State.rewritten_pending (a b : Nat) : (s.rewritten a b).pending = s.pending := rfl
@[simp] theorem State.rewritten_soft (a b : Nat) :
    (s.rewritten a b).soft = s.soft.filter (fun e => !(decide (a / 8 ≤ e.1) && decide (e.1 ≤ b / 8))) := rfl

end Sys2Proof.Machine
end

