-- ==== Sys2Proof/Laws/Tab.lean ====
section
/-!
SUPPORT. Laws of sparse tables: reading what was put, leaving every other key alone, and keeping the canonical form.
-/

namespace Sys2Proof

variable {α : Type}

theorem Tab.get_erase_same (d : Nat → α) (l : Tab α) (k : Nat) : Tab.get d (Tab.erase k l) k = d k := by
  induction l with
  | nil => rfl
  | cons e t ih => by_cases h : e.1 = k <;> simp [Tab.erase, Tab.get, h, ih]

theorem Tab.get_erase_other (d : Nat → α) (l : Tab α) (k j : Nat) (h : j ≠ k) : Tab.get d (Tab.erase k l) j = Tab.get d l j := by
  induction l with
  | nil => rfl
  | cons e t ih =>
    by_cases hk : e.1 = k
    · simp [Tab.erase, Tab.get, hk, ih, Ne.symm h]
    · simp [Tab.erase, Tab.get, hk, ih]

theorem Tab.get_insert_same (d : Nat → α) (l : Tab α) (k : Nat) (v : α) (h : ∀ e ∈ l, e.1 ≠ k) : Tab.get d (Tab.insert k v l) k = v := by
  induction l with
  | nil => simp [Tab.insert, Tab.get]
  | cons e t ih =>
    have he : e.1 ≠ k := h e (by simp)
    by_cases hk : k < e.1
    · simp [Tab.insert, Tab.get, hk]
    · simp [Tab.insert, Tab.get, hk, he, ih (fun x hx => h x (by simp [hx]))]

theorem Tab.get_insert_other (d : Nat → α) (l : Tab α) (k j : Nat) (v : α) (h : j ≠ k) : Tab.get d (Tab.insert k v l) j = Tab.get d l j := by
  induction l with
  | nil => simp [Tab.insert, Tab.get, Ne.symm h]
  | cons e t ih =>
    by_cases hk : k < e.1
    · simp [Tab.insert, Tab.get, hk, Ne.symm h]
    · simp [Tab.insert, Tab.get, hk, ih]

theorem Tab.ne_of_mem_erase (l : Tab α) (k : Nat) : ∀ e ∈ Tab.erase k l, e.1 ≠ k := by
  induction l with
  | nil => simp [Tab.erase]
  | cons x t ih =>
    intro e he
    by_cases hx : x.1 = k
    · simp [Tab.erase, hx] at he; exact ih e he
    · simp [Tab.erase, hx] at he
      rcases he with rfl | he
      · exact hx
      · exact ih e he

variable [DecidableEq α]

/-- A key reads as what was put there. -/
@[simp] theorem Tab.get_put_same (d : Nat → α) (l : Tab α) (k : Nat) (v : α) : Tab.get d (Tab.put d l k v) k = v := by
  unfold Tab.put
  split
  · next h => rw [Tab.get_erase_same, h]
  · exact Tab.get_insert_same d _ k v (Tab.ne_of_mem_erase l k)

/-- Every other key reads as before. -/
theorem Tab.get_put_other (d : Nat → α) (l : Tab α) (k j : Nat) (v : α) (h : j ≠ k) : Tab.get d (Tab.put d l k v) j = Tab.get d l j := by
  unfold Tab.put
  split
  · exact Tab.get_erase_other d l k j h
  · rw [Tab.get_insert_other d _ k j v h, Tab.get_erase_other d l k j h]

theorem Tab.get_put (d : Nat → α) (l : Tab α) (k j : Nat) (v : α) : Tab.get d (Tab.put d l k v) j = if j = k then v else Tab.get d l j := by
  split
  · next h => subst h; exact Tab.get_put_same d l j v
  · next h => exact Tab.get_put_other d l k j v h

/-! ## The canonical form -/

/-- The canonical form in words: keys rise strictly and no entry is redundant. -/
theorem Tab.wfFrom_iff (d : Nat → α) (lo : Option Nat) (l : Tab α) :
    Tab.wfFrom d lo l = true ↔ (∀ b, lo = some b → ∀ e ∈ l, b < e.1) ∧ l.Pairwise (fun x y => x.1 < y.1) ∧ ∀ e ∈ l, e.2 ≠ d e.1 := by
  induction l generalizing lo with
  | nil => simp [Tab.wfFrom]
  | cons e t ih =>
    simp only [Tab.wfFrom, Bool.and_eq_true, ih, List.pairwise_cons, List.mem_cons, forall_eq_or_imp, Bool.not_eq_true', decide_eq_false_iff_not,
      Option.some.injEq, forall_eq']
    constructor
    · rintro ⟨⟨hlo, hd⟩, hlt, hp, ht⟩
      refine ⟨?_, ⟨hlt, hp⟩, hd, ht⟩
      intro b hb
      subst hb
      have h0 : b < e.1 := by simpa using hlo
      exact ⟨h0, fun x hx => lt_trans h0 (hlt x hx)⟩
    · rintro ⟨hlo, ⟨hlt, hp⟩, hd, ht⟩
      refine ⟨⟨?_, hd⟩, hlt, hp, ht⟩
      cases lo with
      | none => rfl
      | some b => simpa using (hlo b rfl).1

theorem Tab.wf_iff (d : Nat → α) (l : Tab α) : Tab.wf d l = true ↔ l.Pairwise (fun x y => x.1 < y.1) ∧ ∀ e ∈ l, e.2 ≠ d e.1 := by
  simp [Tab.wf, Tab.wfFrom_iff]

/-- Taking entries away keeps the canonical form. -/
theorem Tab.wf_filter (d : Nat → α) (l : Tab α) (p : Nat × α → Bool) (h : Tab.wf d l = true) : Tab.wf d (l.filter p) = true := by
  rw [Tab.wf_iff] at *
  exact ⟨h.1.filter p, fun e he => h.2 e (List.mem_of_mem_filter he)⟩

omit [DecidableEq α] in
theorem Tab.erase_eq_filter (l : Tab α) (k : Nat) : Tab.erase k l = l.filter (fun e => !decide (e.1 = k)) := by
  induction l with
  | nil => rfl
  | cons e t ih => by_cases h : e.1 = k <;> simp [Tab.erase, h, ih]

omit [DecidableEq α] in
theorem Tab.mem_insert (l : Tab α) (k : Nat) (v : α) (e : Nat × α) : e ∈ Tab.insert k v l ↔ e = (k, v) ∨ e ∈ l := by
  induction l with
  | nil => simp [Tab.insert]
  | cons x t ih =>
    by_cases h : k < x.1
    · simp [Tab.insert, h]
    · simp [Tab.insert, h, ih, or_left_comm]

omit [DecidableEq α] in
theorem Tab.pairwise_insert (l : Tab α) (k : Nat) (v : α) (hk : ∀ e ∈ l, e.1 ≠ k) (h : l.Pairwise (fun x y => x.1 < y.1)) :
    (Tab.insert k v l).Pairwise (fun x y => x.1 < y.1) := by
  induction l with
  | nil => simp [Tab.insert]
  | cons x t ih =>
    rw [List.pairwise_cons] at h
    have hx : x.1 ≠ k := hk x (by simp)
    by_cases hlt : k < x.1
    · simp only [Tab.insert, if_pos hlt, List.pairwise_cons, List.mem_cons, forall_eq_or_imp]
      exact ⟨⟨hlt, fun y hy => lt_trans hlt (h.1 y hy)⟩, h.1, h.2⟩
    · simp only [Tab.insert, if_neg hlt, List.pairwise_cons]
      refine ⟨fun y hy => ?_, ih (fun e he => hk e (by simp [he])) h.2⟩
      rcases (Tab.mem_insert t k v y).1 hy with rfl | hy
      · show x.1 < k
        omega
      · exact h.1 y hy

/-- Putting a value keeps the canonical form. -/
theorem Tab.wf_put (d : Nat → α) (l : Tab α) (k : Nat) (v : α) (h : Tab.wf d l = true) : Tab.wf d (Tab.put d l k v) = true := by
  have he : Tab.wf d (Tab.erase k l) = true := by rw [Tab.erase_eq_filter]; exact Tab.wf_filter d l _ h
  unfold Tab.put
  split
  · exact he
  · next hv =>
    rw [Tab.wf_iff] at he ⊢
    refine ⟨Tab.pairwise_insert _ k v (Tab.ne_of_mem_erase l k) he.1, fun e hm => ?_⟩
    rcases (Tab.mem_insert _ k v e).1 hm with rfl | hm
    · exact hv
    · exact he.2 e hm

omit [DecidableEq α] in
theorem Tab.get_of_lt (d : Nat → α) (l : Tab α) (k : Nat) (h : ∀ e ∈ l, k < e.1) : Tab.get d l k = d k := by
  induction l with
  | nil => rfl
  | cons x t ih =>
    have hx : k < x.1 := h x (by simp)
    rw [Tab.get, if_neg (by omega), ih (fun e he => h e (by simp [he]))]

/-- Canonical tables that read alike are equal data. -/
theorem Tab.ext_of_reads (d : Nat → α) (l m : Tab α) (hl : Tab.wf d l = true) (hm : Tab.wf d m = true)
    (h : ∀ k, Tab.get d l k = Tab.get d m k) : l = m := by
  rw [Tab.wf_iff] at hl hm
  induction l generalizing m with
  | nil =>
    cases m with
    | nil => rfl
    | cons y u =>
      have hy := h y.1
      simp only [Tab.get, if_pos] at hy
      exact absurd hy.symm (hm.2 y (by simp))
  | cons x t ih =>
    rw [List.pairwise_cons] at hl
    cases m with
    | nil =>
      have hx := h x.1
      simp only [Tab.get, if_pos] at hx
      exact absurd hx (hl.2 x (by simp))
    | cons y u =>
      rw [List.pairwise_cons] at hm
      have key : x.1 = y.1 := by
        rcases lt_trichotomy x.1 y.1 with hlt | he | hlt
        · have hx := h x.1
          rw [Tab.get_of_lt d (y :: u) x.1 (by
            intro e he
            rcases List.mem_cons.1 he with rfl | he
            · exact hlt
            · exact lt_trans hlt (hm.1.1 e he))] at hx
          simp only [Tab.get, if_pos] at hx
          exact absurd hx (hl.2 x (by simp))
        · exact he
        · have hy := h y.1
          rw [Tab.get_of_lt d (x :: t) y.1 (by
            intro e he
            rcases List.mem_cons.1 he with rfl | he
            · exact hlt
            · exact lt_trans hlt (hl.1.1 e he))] at hy
          simp only [Tab.get, if_pos] at hy
          exact absurd hy.symm (hm.2 y (by simp))
      have val : x.2 = y.2 := by
        have hx := h x.1
        simp only [Tab.get, if_pos] at hx
        rw [if_pos key.symm] at hx
        exact hx
      have tails : t = u := by
        apply ih u ⟨hl.1.2, fun e he => hl.2 e (by simp [he])⟩ ⟨hm.1.2, fun e he => hm.2 e (by simp [he])⟩
        intro k
        by_cases hk : k = x.1
        · subst hk
          rw [Tab.get_of_lt d t x.1 hl.1.1, Tab.get_of_lt d u x.1 (by rw [key]; exact hm.1.1)]
        · have hh := h k
          rw [Tab.get, Tab.get, if_neg (Ne.symm hk), if_neg (by rw [← key]; exact Ne.symm hk)] at hh
          exact hh
      rw [tails, Prod.ext key val]

end Sys2Proof
end

