-- ==== Sys2Proof/Laws/Memory.lean ====
section
/-!
SUPPORT. Laws of memory bytes and poison marks: read after write, every other byte as before, and the canonical form kept.
-/

namespace Sys2Proof.Machine

variable (s : State)

@[simp] theorem State.rdByte_wrByte_same (a : Nat) (b : Byte) : (s.wrByte a b).rdByte a = b := by
  unfold State.rdByte
  rw [State.wrByte_mem, Tab.get_put_same]

theorem State.rdByte_wrByte_other (a : Nat) (b : Byte) (x : Nat) (h : x ≠ a) : (s.wrByte a b).rdByte x = s.rdByte x := by
  unfold State.rdByte
  rw [State.wrByte_mem, Tab.get_put_other _ _ _ _ _ h]

theorem State.rdByte_wrBytes_other (a : Nat) (b : List Byte) (x : Nat) (h : x < a ∨ a + b.length ≤ x) :
    (s.wrBytes a b).rdByte x = s.rdByte x := by
  induction b generalizing s a with
  | nil => rfl
  | cons y t ih =>
    simp only [List.length_cons] at h
    unfold State.wrBytes
    rw [ih _ _ (by omega), State.rdByte_wrByte_other _ _ _ _ (by omega)]

theorem State.rdByte_wrBytes_same (a : Nat) (b : List Byte) (i : Nat) (h : i < b.length) :
    (s.wrBytes a b).rdByte (a + i) = b[i] := by
  induction b generalizing s a i with
  | nil => simp at h
  | cons y t ih =>
    unfold State.wrBytes
    cases i with
    | zero => rw [State.rdByte_wrBytes_other _ _ _ _ (by omega)]; simp
    | succ i =>
      have e : a + (i + 1) = a + 1 + i := by omega
      rw [e, ih _ _ i (by simpa using h)]
      rfl

theorem State.rdBytes_congr (t : State) (a n : Nat) (h : ∀ x, a ≤ x → x < a + n → t.rdByte x = s.rdByte x) :
    t.rdBytes a n = s.rdBytes a n := by
  induction n generalizing a with
  | zero => rfl
  | succ n ih =>
    unfold State.rdBytes
    rw [h a (by omega) (by omega), ih (a + 1) (fun x h1 h2 => h x (by omega) (by omega))]

/-- Bytes written read back. -/
theorem State.rdBytes_wrBytes_same (a : Nat) (b : List Byte) : (s.wrBytes a b).rdBytes a b.length = b := by
  induction b generalizing s a with
  | nil => rfl
  | cons y t ih =>
    simp only [List.length_cons, State.rdBytes, State.wrBytes]
    rw [ih, State.rdByte_wrBytes_other _ _ _ _ (by omega), State.rdByte_wrByte_same]

/-! ## Poison -/

theorem State.poisoned_setPoison (a : Nat) (b : Bool) (x : Nat) :
    (s.setPoison a b).poisoned x = if x / 8 = a / 8 then b else s.poisoned x := by
  unfold State.poisoned
  rw [State.setPoison_poison, Tab.get_put]

theorem State.setPoisonWords_mem (a : Nat) (b : Bool) (n : Nat) : (s.setPoisonWords a b n).mem = s.mem := by
  induction n generalizing s a with
  | zero => rfl
  | succ n ih => unfold State.setPoisonWords; rw [ih, State.setPoison_mem]

theorem State.setPoisonWords_regs (a : Nat) (b : Bool) (n : Nat) : (s.setPoisonWords a b n).regs = s.regs := by
  induction n generalizing s a with
  | zero => rfl
  | succ n ih => unfold State.setPoisonWords; rw [ih, State.setPoison_regs]

theorem State.wrBytes_regs (a : Nat) (b : List Byte) : (s.wrBytes a b).regs = s.regs := by
  induction b generalizing s a with
  | nil => rfl
  | cons y t ih => unfold State.wrBytes; rw [ih, State.wrByte_regs]

theorem State.wrBytes_poison (a : Nat) (b : List Byte) : (s.wrBytes a b).poison = s.poison := by
  induction b generalizing s a with
  | nil => rfl
  | cons y t ih => unfold State.wrBytes; rw [ih, State.wrByte_poison]

/-- A word whose single-bit error a rewriting may remove: no other word's mark changes. -/
theorem State.rdByte_rewritten (a b x : Nat) : (s.rewritten a b).rdByte x = s.rdByte x := rfl

@[simp] theorem State.store_regs (a : Nat) (b : List Byte) : (s.store a b).regs = s.regs := by
  simp only [State.store, State.setPoisonWords_regs, State.rewritten_regs, State.wrBytes_regs]

@[simp] theorem State.rdByte_setPoison (a : Nat) (b : Bool) (x : Nat) : (s.setPoison a b).rdByte x = s.rdByte x := rfl

@[simp] theorem State.rdByte_setPoisonWords (a : Nat) (b : Bool) (n x : Nat) : (s.setPoisonWords a b n).rdByte x = s.rdByte x := by
  unfold State.rdByte
  rw [State.setPoisonWords_mem]

/-- A store leaves every byte outside it as it was. -/
theorem State.rdByte_store_other (a : Nat) (b : List Byte) (x : Nat) (h : x < a ∨ a + b.length ≤ x) :
    (s.store a b).rdByte x = s.rdByte x := by
  simp only [State.store, State.rdByte_setPoisonWords, State.rdByte_rewritten]
  exact State.rdByte_wrBytes_other s a b x h

/-- The bytes of a store read back. -/
theorem State.rdBytes_store_same (a : Nat) (b : List Byte) : (s.store a b).rdBytes a b.length = b := by
  rw [State.rdBytes_congr (s.wrBytes a b) _ a _ (fun x _ _ => by simp [State.store, State.rdByte_rewritten]), State.rdBytes_wrBytes_same]

@[simp] theorem State.rdByte_w32 (a v x : Nat) : (s.w32 a v).rdByte x = s.rdByte x := rfl
@[simp] theorem State.rdByte_emit (o : Output) (x : Nat) : (s.emit o).rdByte x = s.rdByte x := rfl

/-! ## The canonical form -/

theorem Memory.wf_reset : Memory.wf State.reset.mem = true := rfl

theorem Memory.wf_wrByte (a : Nat) (b : Byte) (h : Memory.wf s.mem = true) : Memory.wf (s.wrByte a b).mem = true := Tab.wf_put _ _ _ _ h

theorem Memory.wf_wrBytes (a : Nat) (b : List Byte) (h : Memory.wf s.mem = true) : Memory.wf (s.wrBytes a b).mem = true := by
  induction b generalizing s a with
  | nil => exact h
  | cons y t ih => exact ih _ _ (Memory.wf_wrByte s a y h)

theorem Memory.wf_setPoisonWords (a : Nat) (b : Bool) (n : Nat) (h : Memory.wf s.mem = true) : Memory.wf (s.setPoisonWords a b n).mem = true := by
  rw [State.setPoisonWords_mem]; exact h

theorem Memory.wf_store (a : Nat) (b : List Byte) (h : Memory.wf s.mem = true) : Memory.wf (s.store a b).mem = true := by
  simp only [State.store, State.setPoisonWords_mem, State.rewritten_mem]
  exact Memory.wf_wrBytes s a b h

/-- Memories in canonical form that read alike are equal data. -/
theorem Memory.ext_of_reads (m n : List Host.Cell) (hm : Memory.wf m = true) (hn : Memory.wf n = true)
    (h : ∀ a, Tab.get memDefault m a = Tab.get memDefault n a) : m = n := Tab.ext_of_reads memDefault m n hm hn h

end Sys2Proof.Machine
end

