-- ==== Sys2Proof/Laws/Keep.lean ====
section
/-!
SUPPORT. What every operation keeps: the canonical form of the sparse tables, the queue of waiting commands, the free values
already drawn and what has been sent. `Kept x s`: seen from `x`, the state `s` keeps all of this. One lemma per operation follows in
the files Keep<File>, each from the lemmas of the operations it calls.
-/

namespace Sys2Proof.Machine

/-- The canonical form, field by field. -/
def CanonicalF (regs : Tab W32) (staged : Tab (Option W32)) (mem : List Host.Cell) (poison soft selfErr flags : Tab Bool) (ctrs : Tab W32) : Prop :=
  Memory.wf mem = true ∧ Tab.wf Reg.resetWord regs = true ∧ Tab.wf (fun _ => none) staged = true
    ∧ Tab.wf (fun _ => false) poison = true ∧ Tab.wf (fun _ => false) soft = true ∧ Tab.wf (fun _ => false) selfErr = true
    ∧ Tab.wf (fun _ => false) flags = true ∧ Tab.wf (fun _ => (0 : W32)) ctrs = true

/-- What `x` keeps, over the fields concerned. -/
def KeptF (x : State) (regs : Tab W32) (staged : Tab (Option W32)) (mem : List Host.Cell) (poison soft selfErr flags : Tab Bool) (ctrs : Tab W32)
    (freeCount : Nat) (out : List Output) (pending : List Instr) : Prop :=
  (x.Canonical → CanonicalF regs staged mem poison soft selfErr flags ctrs) ∧ x.freeCount ≤ freeCount ∧ x.out <+: out ∧ pending = x.pending

/-- Seen from `x`, the state `s` keeps the canonical form and the queue, draws no free value twice and takes nothing back. -/
def Kept (x s : State) : Prop :=
  KeptF x s.regs s.staged s.mem s.poison s.soft s.selfErr s.flags s.ctrs s.freeCount s.out s.pending

/-- The present tables of `s` where each stands in canonical form. -/
abbrev State.Tables (s : State) : Prop := CanonicalF s.regs s.staged s.mem s.poison s.soft s.selfErr s.flags s.ctrs

theorem Kept.refl (x : State) : Kept x x := ⟨id, Nat.le.refl, List.prefix_rfl, rfl⟩

theorem Kept.fold {x s : State} (h : Kept x s) :
    KeptF x s.regs s.staged s.mem s.poison s.soft s.selfErr s.flags s.ctrs s.freeCount s.out s.pending := h

theorem Kept.trans {x y z : State} (h : Kept x y) (g : Kept y z) : Kept x z :=
  ⟨g.1 ∘ h.1, h.2.1.trans g.2.1, h.2.2.1.trans g.2.2.1, g.2.2.2.trans h.2.2.2⟩

theorem Kept.canonical {x s : State} (h : Kept x s) (hc : x.Canonical) : s.Canonical := h.1 hc

/-- A change of the tables alone that leaves them canonical. -/
theorem Kept.tables {x s t : State} (h : Kept x s) (hc : s.Tables → t.Tables) (hf : t.freeCount = s.freeCount := by rfl)
    (ho : t.out = s.out := by rfl) (hp : t.pending = s.pending := by rfl) : Kept x t :=
  ⟨hc ∘ h.1, hf ▸ h.2.1, ho ▸ h.2.2.1, hp.trans h.2.2.2⟩

/-! ## Shapes of code -/

theorem Kept.ite {x a b : State} {p : Prop} [Decidable p] (ha : p → Kept x a) (hb : ¬p → Kept x b) : Kept x (if p then a else b) :=
  if h : p then by rw [if_pos h]; exact ha h else by rw [if_neg h]; exact hb h

/-- A fold keeps what each of its rounds keeps; `view` picks the state out of what is carried along. -/
theorem Kept.rounds {x : State} {α β : Type} (view : β → State) {f : β → α → β} {l : List α} {b : β} (start : Kept x (view b))
    (each : ∀ c a, Kept x (view c) → Kept x (view (f c a))) : Kept x (view (l.foldl f b)) :=
  List.foldlRecOn l f (motive := fun c => Kept x (view c)) start (fun c hc a _ => each c a hc)

theorem Kept.foldl {x : State} {α : Type} {f : State → α → State} {l : List α} {s : State} (hs : Kept x s)
    (hf : ∀ t a, Kept x t → Kept x (f t a)) : Kept x (l.foldl f s) := Kept.rounds id hs hf

theorem Kept.foldl_fst {x : State} {α β : Type} {f : State × β → α → State × β} {l : List α} {s : State × β} (hs : Kept x s.1)
    (hf : ∀ t a, Kept x t.1 → Kept x (f t a).1) : Kept x (l.foldl f s).1 := Kept.rounds Prod.fst hs hf

theorem Kept.foldl_snd {x : State} {α β : Type} {f : β × State → α → β × State} {l : List α} {s : β × State} (hs : Kept x s.2)
    (hf : ∀ t a, Kept x t.2 → Kept x (f t a).2) : Kept x (l.foldl f s).2 := Kept.rounds Prod.snd hs hf

theorem Kept.elim {x : State} {α : Type} (o : Option α) (s : State) (f : α → State) (hs : Kept x s) (hf : ∀ a, Kept x (f a)) :
    Kept x (o.elim s f) := o.rec hs hf

theorem Kept.fst_eq {x t : State} {β : Type} {r : State × β} {y : β} (e : r = (t, y)) (h : Kept x r.1) : Kept x t := by subst e; exact h

theorem Kept.snd_eq {x t : State} {β : Type} {r : β × State} {y : β} (e : r = (y, t)) (h : Kept x r.2) : Kept x t := by subst e; exact h

/-- Every answer of a partial operation is kept. -/
structure KeptAll (x : State) (o : Option State) : Prop where
  all : ∀ t, o = some t → Kept x t

theorem KeptAll.nil {x : State} : KeptAll x none := ⟨fun _ e => nomatch e⟩

theorem KeptAll.one {x s : State} (h : Kept x s) : KeptAll x (some s) := ⟨fun _ e => Option.some.inj e ▸ h⟩

theorem KeptAll.get {x t : State} {o : Option State} (e : o = some t) (h : KeptAll x o) : Kept x t := h.all t e

theorem KeptAll.getD {x s : State} {o : Option State} (h : KeptAll x o) (hs : Kept x s) : Kept x (o.getD s) := by
  cases e : o with
  | none => exact hs
  | some t => exact h.all t e

theorem KeptAll.fst {x t : State} {β : Type} {o : Option (State × β)} {y : β} (h : KeptAll x (o.map Prod.fst)) (e : o = some (t, y)) : Kept x t :=
  h.all t (by rw [e]; rfl)

theorem KeptAll.map {x : State} {α : Type} {o : Option α} {g : α → State} (h : ∀ a, Kept x (g a)) : KeptAll x (o.map g) := by
  refine ⟨fun t e => ?_⟩
  obtain ⟨a, -, rfl⟩ := Option.map_eq_some_iff.1 e
  exact h a

theorem KeptAll.bind {x : State} {α : Type} {o : Option α} {g : α → Option State} (h : ∀ a, KeptAll x (g a)) : KeptAll x (o.bind g) := by
  refine ⟨fun t e => ?_⟩
  obtain ⟨a, -, e⟩ := Option.bind_eq_some_iff.1 e
  exact (h a).all t e

/-- A fold over partial rounds. -/
theorem KeptAll.rounds {x : State} {α : Type} {l : List α} {g : α → State → Option State} {o : Option State} (start : KeptAll x o)
    (each : ∀ a u, Kept x u → KeptAll x (g a u)) : KeptAll x (l.foldl (fun acc a => acc.bind (fun u => g a u)) o) :=
  List.foldlRecOn l _ (motive := KeptAll x) start (fun _ ho a _ => KeptAll.mk fun t e => by
    obtain ⟨u, hu, e⟩ := Option.bind_eq_some_iff.1 e
    exact (each a u (ho.all u hu)).all t e)

/-! ## The tables -/

theorem Tab.wf_sublist {α : Type} [DecidableEq α] (d : Nat → α) {l m : Tab α} (h : l.Sublist m) (hm : Tab.wf d m = true) : Tab.wf d l = true := by
  rw [Tab.wf_iff] at *
  exact ⟨hm.1.sublist h, fun e he => hm.2 e (h.subset he)⟩

/-- Entries taken away from the tables. -/
theorem Kept.sub {x s : State} {regs : Tab W32} {staged : Tab (Option W32)} {mem : List Host.Cell} {poison soft selfErr flags : Tab Bool} {ctrs : Tab W32}
    (h : Kept x s) (h1 : regs.Sublist s.regs) (h2 : staged.Sublist s.staged) (h3 : mem.Sublist s.mem) (h4 : poison.Sublist s.poison)
    (h5 : soft.Sublist s.soft) (h6 : selfErr.Sublist s.selfErr) (h7 : flags.Sublist s.flags) (h8 : ctrs.Sublist s.ctrs) :
    KeptF x regs staged mem poison soft selfErr flags ctrs s.freeCount s.out s.pending :=
  ⟨fun hc => match h.1 hc with
    | ⟨g1, g2, g3, g4, g5, g6, g7, g8⟩ => ⟨Tab.wf_sublist _ h3 g1, Tab.wf_sublist _ h1 g2, Tab.wf_sublist _ h2 g3, Tab.wf_sublist _ h4 g4,
        Tab.wf_sublist _ h5 g5, Tab.wf_sublist _ h6 g6, Tab.wf_sublist _ h7 g7, Tab.wf_sublist _ h8 g8⟩, h.2⟩

theorem State.w32_kept {x s : State} (a v : Nat) (h : Kept x s) : Kept x (s.w32 a v) :=
  h.tables (fun ⟨h1, h2, h3⟩ => ⟨h1, Tab.wf_put _ _ _ _ h2, h3⟩)

theorem State.stage_kept {x s : State} (a v : Nat) (h : Kept x s) : Kept x (s.stage a v) :=
  h.tables (fun ⟨h1, h2, h3, h4⟩ => ⟨h1, h2, (State.stage_staged s a v).symm ▸ Tab.wf_put _ _ _ _ h3, h4⟩)

theorem State.unstage_kept {x s : State} (a : Nat) (h : Kept x s) : Kept x (s.unstage a) :=
  h.tables (fun ⟨h1, h2, h3, h4⟩ => ⟨h1, h2, (State.unstage_staged s a).symm ▸ Tab.wf_put _ _ _ _ h3, h4⟩)

theorem State.wrByte_kept {x s : State} (a : Nat) (b : Byte) (h : Kept x s) : Kept x (s.wrByte a b) :=
  h.tables (fun ⟨h1, h2⟩ => ⟨Tab.wf_put _ _ _ _ h1, h2⟩)

/-- A change of the single-bit marks alone. -/
theorem Kept.softly {x s : State} {l : Tab Bool} (h : Kept x s) (hl : Tab.wf (fun _ => false) s.soft = true → Tab.wf (fun _ => false) l = true) :
    Kept x { s with soft := l } :=
  h.tables (fun ⟨h1, h2, h3, h4, h5, h6⟩ => ⟨h1, h2, h3, h4, hl h5, h6⟩)

theorem State.rewritten_kept {x s : State} (a b : Nat) (h : Kept x s) : Kept x (s.rewritten a b) := h.softly (Tab.wf_filter _ _ _)

theorem State.setPoison_kept {x s : State} (a : Nat) (b : Bool) (h : Kept x s) : Kept x (s.setPoison a b) :=
  h.tables (fun ⟨h1, h2, h3, h4, h5, h6, h7⟩ => ⟨h1, h2, h3, Tab.wf_put _ _ _ _ h4,
    (State.setPoison_soft s a b).symm ▸ Tab.wf_put _ _ _ _ h5, by
    unfold State.setPoison
    cases b
    · simpa using Tab.wf_put _ _ _ _ h6
    · simpa using h6, h7⟩)

theorem State.setSelfErr_kept {x s : State} (a : Nat) (b : Bool) (h : Kept x s) : Kept x (s.setSelfErr a b) :=
  h.tables (fun ⟨h1, h2, h3, h4, h5, h6, h7⟩ => ⟨h1, h2, h3, h4, h5, Tab.wf_put _ _ _ _ h6, h7⟩)

theorem State.putFlag_kept {x s : State} (k : Nat) (b : Bool) (h : Kept x s) : Kept x (s.putFlag k b) :=
  h.tables (fun ⟨h1, h2, h3, h4, h5, h6, h7, h8⟩ => ⟨h1, h2, h3, h4, h5, h6, Tab.wf_put _ _ _ _ h7, h8⟩)

theorem State.putCtr_kept {x s : State} (k v : Nat) (h : Kept x s) : Kept x (s.putCtr k v) :=
  h.tables (fun ⟨h1, h2, h3, h4, h5, h6, h7, h8⟩ => ⟨h1, h2, h3, h4, h5, h6, h7, Tab.wf_put _ _ _ _ h8⟩)

theorem State.emit_kept {x s : State} (o : Output) (h : Kept x s) : Kept x (s.emit o) :=
  ⟨h.1, h.2.1, h.2.2.1.trans (List.prefix_append _ _), h.2.2.2⟩

theorem State.drawn_kept {x s : State} (h : Kept x s) : Kept x s.drawn := ⟨h.1, Nat.le_succ_of_le h.2.1, h.2.2⟩

end Sys2Proof.Machine
end

