-- ==== Sys2Proof/Laws/KeepOps.lean ====
section
/-!
SUPPORT. What the operations of Machine/Ops.lean keep (Laws/Keep.lean).
-/

namespace Sys2Proof.Machine

theorem State.w64_kept {x0 s : State} (a v : Nat) (hk : Kept x0 s) : Kept x0 (State.w64 s a v) := by
  unfold State.w64
  repeat' (first
    | with_reducible assumption
    | with_reducible apply State.w32_kept)

theorem State.sf32_kept {x0 s : State} (a lo w x : Nat) (hk : Kept x0 s) : Kept x0 (State.sf32 s a lo w x) := by
  unfold State.sf32
  repeat' (first
    | with_reducible assumption
    | with_reducible apply State.w32_kept)

theorem State.sf64_kept {x0 s : State} (a lo w x : Nat) (hk : Kept x0 s) : Kept x0 (State.sf64 s a lo w x) := by
  unfold State.sf64
  repeat' (first
    | with_reducible assumption
    | with_reducible apply State.w64_kept)

theorem State.set32_kept {x0 s : State} (a i : Nat) (hk : Kept x0 s) : Kept x0 (State.set32 s a i) := by
  unfold State.set32
  repeat' (first
    | with_reducible assumption
    | with_reducible apply State.sf32_kept)

theorem State.clr32_kept {x0 s : State} (a i : Nat) (hk : Kept x0 s) : Kept x0 (State.clr32 s a i) := by
  unfold State.clr32
  repeat' (first
    | with_reducible assumption
    | with_reducible apply State.sf32_kept)

theorem State.orBits_kept {x0 s : State} (a bits : Nat) (hk : Kept x0 s) : Kept x0 (State.orBits s a bits) := by
  unfold State.orBits
  repeat' (first
    | with_reducible assumption
    | with_reducible apply State.w32_kept)

theorem State.count64_kept {x0 s : State} (a lo w k : Nat) (hk : Kept x0 s) : Kept x0 (State.count64 s a lo w k) := by
  unfold State.count64
  repeat' (first
    | with_reducible assumption
    | with_reducible apply State.sf64_kept)

theorem State.count32_kept {x0 s : State} (a lo w k : Nat) (hk : Kept x0 s) : Kept x0 (State.count32 s a lo w k) := by
  unfold State.count32
  repeat' (first
    | with_reducible assumption
    | with_reducible apply State.sf32_kept)

theorem State.wWide_kept {x0 s : State} (a r2 r3 : Nat) (hk : Kept x0 s) : Kept x0 (State.wWide s a r2 r3) := by
  induction r2 generalizing s a r3 with
  | zero =>
    unfold State.wWide
    repeat' (first
      | with_reducible assumption)
  | succ m ih =>
    unfold State.wWide
    repeat' (first
      | with_reducible assumption
      | with_reducible apply ih
      | with_reducible apply State.w32_kept)

theorem State.applyWord_kept {x0 s : State} (a : Nat) (hk : Kept x0 s) : Kept x0 (State.applyWord s a) := by
  unfold State.applyWord
  repeat' (first
    | with_reducible assumption
    | (refine id ?_; extract_lets +onlyGivenNames u1; clear_value u1)
    | with_reducible apply State.unstage_kept
    | with_reducible apply State.w32_kept
    | split)

theorem State.wrBytes_kept {x0 s : State} (a : Nat) (r2 : List Byte) (hk : Kept x0 s) : Kept x0 (State.wrBytes s a r2) := by
  induction r2 generalizing s a with
  | nil =>
    unfold State.wrBytes
    repeat' (first
      | with_reducible assumption)
  | cons m ms ih =>
    unfold State.wrBytes
    repeat' (first
      | with_reducible assumption
      | with_reducible apply ih
      | with_reducible apply State.wrByte_kept)

theorem State.setPoisonWords_kept {x0 s : State} (a : Nat) (b : Bool) (r3 : Nat) (hk : Kept x0 s) : Kept x0 (State.setPoisonWords s a b r3) := by
  induction r3 generalizing s a b with
  | zero =>
    unfold State.setPoisonWords
    repeat' (first
      | with_reducible assumption)
  | succ m ih =>
    unfold State.setPoisonWords
    repeat' (first
      | with_reducible assumption
      | with_reducible apply ih
      | with_reducible apply State.setPoison_kept)

theorem State.store_kept {x0 s : State} (a : Nat) (b : List Byte) (hk : Kept x0 s) : Kept x0 (State.store s a b) := by
  unfold State.store
  repeat' (first
    | with_reducible assumption
    | (refine id ?_; extract_lets +onlyGivenNames u1; clear_value u1)
    | with_reducible apply State.setPoisonWords_kept
    | with_reducible apply State.rewritten_kept
    | with_reducible apply State.wrBytes_kept)

theorem State.putTimed_kept {x0 s : State} (cyc rank a : Nat) (b : Byte) (hk : Kept x0 s) : Kept x0 (State.putTimed s cyc rank a b) := by
  unfold State.putTimed
  repeat' (first
    | with_reducible assumption
    | (refine id ?_; extract_lets +onlyGivenNames u1; first
        | ((refine (fun k1 : Kept x0 u1 => ?_) ?_) <;> [clear_value u1; subst u1])
        | clear_value u1)
    | with_reducible apply State.wrByte_kept
    | split
    | (unfold Kept; dsimp only; with_reducible apply Kept.fold))

theorem State.setDie_kept {x0 s : State} (d : Nat) (v : DieState) (hk : Kept x0 s) : Kept x0 (State.setDie s d v) := by
  unfold State.setDie
  repeat' (first
    | with_reducible assumption
    | (unfold Kept; dsimp only; with_reducible apply Kept.fold))

theorem State.setPart_kept {x0 s : State} (n : Nat) (v : PartState) (hk : Kept x0 s) : Kept x0 (State.setPart s n v) := by
  unfold State.setPart
  repeat' (first
    | with_reducible assumption
    | (unfold Kept; dsimp only; with_reducible apply Kept.fold))

theorem State.setRing_kept {x0 s : State} (rid : Nat) (v : Ring) (hk : Kept x0 s) : Kept x0 (State.setRing s rid v) := by
  unfold State.setRing
  repeat' (first
    | with_reducible assumption
    | (unfold Kept; dsimp only; with_reducible apply Kept.fold))

theorem State.setPstate_kept {x0 s : State} (n x : Nat) (hk : Kept x0 s) : Kept x0 (State.setPstate s n x) := by
  unfold State.setPstate
  repeat' (first
    | with_reducible assumption
    | with_reducible apply State.sf32_kept)

theorem State.recordStopAt_kept {x0 s : State} (t : Option Nat) (n status : Nat) (k : StopKind)
    (hk : Kept x0 s) : Kept x0 (State.recordStopAt s t n status k) := by
  unfold State.recordStopAt
  repeat' (first
    | with_reducible assumption
    | (refine id ?_; extract_lets +onlyGivenNames u1; clear_value u1)
    | with_reducible apply State.setPart_kept
    | ((with_reducible apply Kept.ite) <;> intro _)
    | split)

theorem State.recordStop_kept {x0 s : State} (n status : Nat) (k : StopKind) (hk : Kept x0 s) : Kept x0 (State.recordStop s n status k) := by
  unfold State.recordStop
  repeat' (first
    | with_reducible assumption
    | with_reducible apply State.recordStopAt_kept)

theorem State.postEvent_kept {x0 s : State} (type part source data : Nat) (hk : Kept x0 s) : Kept x0 (State.postEvent s type part source data) := by
  unfold State.postEvent
  repeat' (first
    | with_reducible assumption
    | (refine id ?_; extract_lets +onlyGivenNames u1; first
        | ((refine (fun k1 : Kept x0 u1 => ?_) ?_) <;> [clear_value u1; subst u1])
        | clear_value u1)
    | with_reducible apply State.count64_kept
    | with_reducible apply State.set32_kept
    | ((with_reducible apply Kept.ite) <;> intro _)
    | (unfold Kept; dsimp only; with_reducible apply Kept.fold))

theorem State.sendVector_kept {x0 s : State} (v : Nat) (hk : Kept x0 s) : Kept x0 (State.sendVector s v) := by
  unfold State.sendVector
  repeat' (first
    | with_reducible assumption
    | with_reducible apply State.set32_kept
    | with_reducible apply State.emit_kept
    | ((with_reducible apply Kept.ite) <;> intro _))

theorem State.announce_kept {x0 s : State} (rid : Nat) (hk : Kept x0 s) : Kept x0 (State.announce s rid) := by
  unfold State.announce
  repeat' (first
    | with_reducible assumption
    | (refine id ?_; extract_lets +onlyGivenNames u1; clear_value u1)
    | with_reducible apply State.setRing_kept
    | with_reducible apply State.sendVector_kept
    | ((with_reducible apply Kept.ite) <;> intro _))

theorem State.writeCompl_kept {x0 s : State} (cq : Nat) (c : Compl) (hk : Kept x0 s) : Kept x0 (State.writeCompl s cq c) := by
  unfold State.writeCompl
  repeat' (first
    | with_reducible assumption
    | (refine id ?_; extract_lets +onlyGivenNames u1; clear_value u1)
    | with_reducible apply State.setRing_kept
    | with_reducible apply State.announce_kept
    | with_reducible apply State.emit_kept
    | ((with_reducible apply Kept.ite) <;> intro _))

theorem State.complete_kept {x0 s : State} (rid cmdId status r0 r1 : Nat) (hk : Kept x0 s) : Kept x0 (State.complete s rid cmdId status r0 r1) := by
  unfold State.complete
  repeat' (first
    | with_reducible assumption
    | (refine id ?_; extract_lets +onlyGivenNames u1; first
        | ((refine (fun k1 : Kept x0 u1 => ?_) ?_) <;> [clear_value u1; subst u1])
        | clear_value u1)
    | with_reducible apply State.setRing_kept
    | with_reducible apply State.writeCompl_kept
    | ((with_reducible apply Kept.ite) <;> intro _))

theorem State.capture_kept {x0 s : State} (addr requester kind : Nat) (write : Bool)
    (hk : Kept x0 s) : Kept x0 (State.capture s addr requester kind write) := by
  unfold State.capture
  repeat' (first
    | with_reducible assumption
    | (refine id ?_; extract_lets +onlyGivenNames u1; first
        | ((refine (fun k1 : Kept x0 u1 => ?_) ?_) <;> [clear_value u1; subst u1])
        | clear_value u1)
    | with_reducible apply State.count32_kept
    | with_reducible apply State.set32_kept
    | with_reducible apply State.w32_kept
    | with_reducible apply State.w64_kept
    | with_reducible apply State.postEvent_kept
    | ((with_reducible apply Kept.ite) <;> intro _))

theorem State.storeAt_kept {x0 s : State} (t a : Nat) (b : List Byte) (hk : Kept x0 s) : Kept x0 (State.storeAt s t a b) := by
  unfold State.storeAt
  repeat' (first
    | with_reducible assumption
    | intro _
    | (refine id ?_; extract_lets +onlyGivenNames u1; clear_value u1)
    | with_reducible apply State.store_kept
    | with_reducible apply State.setPoisonWords_kept
    | with_reducible apply State.rewritten_kept
    | with_reducible apply State.putTimed_kept
    | with_reducible apply Kept.foldl
    | ((with_reducible apply Kept.ite) <;> intro _))

end Sys2Proof.Machine
end

