-- ==== Sys2Proof/Laws/KeepLinks.lean ====
section
/-!
SUPPORT. What the operations of Machine/Links.lean keep (Laws/Keep.lean).
-/

namespace Sys2Proof.Machine

theorem State.setModEnd_kept {x0 s : State} (k : Nat) (v : ModEnd) (hk : Kept x0 s) : Kept x0 (State.setModEnd s k v) := by
  unfold State.setModEnd
  repeat' (first
    | with_reducible assumption
    | (unfold Kept; dsimp only; with_reducible apply Kept.fold))

theorem State.sendPlain_kept {x0 s : State} (k : Nat) (m : Msg) (hk : Kept x0 s) : Kept x0 (State.sendPlain s k m) := by
  unfold State.sendPlain
  repeat' (first
    | with_reducible assumption
    | with_reducible apply State.emit_kept)

theorem State.pumpF_kept {x0 s : State} (k q r3 : Nat) (hk : Kept x0 s) : Kept x0 (State.pumpF s k q r3) := by
  induction r3 generalizing s k q with
  | zero =>
    unfold State.pumpF
    repeat' (first
      | with_reducible assumption)
  | succ m ih =>
    unfold State.pumpF
    repeat' (first
      | with_reducible assumption
      | (refine id ?_; extract_lets +onlyGivenNames u1; clear_value u1)
      | with_reducible apply ih
      | with_reducible apply State.set32_kept
      | with_reducible apply State.emit_kept
      | with_reducible apply State.setModEnd_kept
      | ((with_reducible apply Kept.ite) <;> intro _)
      | split)

theorem State.pumpM_kept {x0 s : State} (k r2 : Nat) (hk : Kept x0 s) : Kept x0 (State.pumpM s k r2) := by
  induction r2 generalizing s k with
  | zero =>
    unfold State.pumpM
    repeat' (first
      | with_reducible assumption)
  | succ m ih =>
    unfold State.pumpM
    repeat' (first
      | with_reducible assumption
      | (refine id ?_; extract_lets +onlyGivenNames u1; first
        | ((refine (fun k1 : Kept x0 u1 => ?_) ?_) <;> [clear_value u1; subst u1])
        | clear_value u1)
      | with_reducible apply ih
      | with_reducible apply State.setModEnd_kept
      | with_reducible apply State.set32_kept
      | with_reducible apply State.emit_kept
      | ((with_reducible apply Kept.ite) <;> intro _)
      | split)

theorem State.pump_kept {x0 s : State} (k : Nat) (hk : Kept x0 s) : Kept x0 (State.pump s k) := by
  unfold State.pump
  repeat' (first
    | with_reducible assumption
    | (refine id ?_; extract_lets +onlyGivenNames u1; ((refine (fun k1 : Kept x0 u1 => ?_) ?_) <;> [clear_value u1; subst u1]))
    | with_reducible apply State.pumpM_kept
    | with_reducible apply State.pumpF_kept)

theorem State.sendFrame_kept {x0 s : State} (k : Nat) (f : Frame) (hk : Kept x0 s) : Kept x0 (State.sendFrame s k f) := by
  unfold State.sendFrame
  repeat' (first
    | with_reducible assumption
    | (refine id ?_; extract_lets +onlyGivenNames u1; clear_value u1)
    | with_reducible apply State.pump_kept
    | with_reducible apply State.setModEnd_kept)

theorem State.sendMsg_kept {x0 s : State} (k : Nat) (m : Msg) (hk : Kept x0 s) : Kept x0 (State.sendMsg s k m) := by
  unfold State.sendMsg
  repeat' (first
    | with_reducible assumption
    | (refine id ?_; extract_lets +onlyGivenNames u1; clear_value u1)
    | with_reducible apply State.sendPlain_kept
    | with_reducible apply State.pump_kept
    | with_reducible apply State.setModEnd_kept
    | ((with_reducible apply Kept.ite) <;> intro _))

theorem State.freeEntry_kept {x0 s : State} (k q : Nat) (hk : Kept x0 s) : Kept x0 (State.freeEntry s k q) := by
  unfold State.freeEntry
  repeat' (first
    | with_reducible assumption
    | (refine id ?_; extract_lets +onlyGivenNames u1; clear_value u1)
    | with_reducible apply State.sendPlain_kept
    | with_reducible apply State.setModEnd_kept)

theorem State.routeFrame_kept {x0 s : State} (n : Nat) (f : Frame) (hk : Kept x0 s) : Kept x0 (State.routeFrame s n f) := by
  unfold State.routeFrame
  repeat' (first
    | with_reducible assumption
    | with_reducible apply State.sendFrame_kept)

theorem State.routeMsg_kept {x0 s : State} (n : Nat) (m : Msg) (hk : Kept x0 s) : Kept x0 (State.routeMsg s n m) := by
  unfold State.routeMsg
  repeat' (first
    | with_reducible assumption
    | with_reducible apply State.sendMsg_kept)

end Sys2Proof.Machine
end

