-- ==== Sys2Proof/Laws/KeepFlags.lean ====
section
/-!
SUPPORT. What the operations of Machine/Flags.lean keep (Laws/Keep.lean).
-/

namespace Sys2Proof.Machine

theorem State.copyWindows_kept {x0 s : State} (d n : Nat) (hk : Kept x0 s) : Kept x0 (State.copyWindows s d n) := by
  unfold State.copyWindows
  repeat' (first
    | with_reducible assumption
    | (refine id ?_; extract_lets +onlyGivenNames u1; clear_value u1)
    | with_reducible apply State.setPart_kept
    | split)

theorem State.makeCopies_kept {x0 s : State} (p : Nat × Nat × Nat → Bool) (hk : Kept x0 s) : Kept x0 (State.makeCopies s p) := by
  unfold State.makeCopies
  repeat' (first
    | with_reducible assumption
    | intro _
    | (refine id ?_; extract_lets +onlyGivenNames u1; clear_value u1)
    | with_reducible apply State.copyWindows_kept
    | with_reducible apply Kept.foldl
    | ((with_reducible apply Kept.ite) <;> intro _)
    | (unfold Kept; dsimp only; with_reducible apply Kept.fold))

theorem State.flagCycle_kept {x0 s : State} (d t : Nat) (hk : Kept x0 s) : Kept x0 (State.flagCycle s d t) := by
  unfold State.flagCycle
  repeat' (first
    | with_reducible assumption
    | (refine id ?_; extract_lets +onlyGivenNames u1; first
        | ((refine (fun k1 : Kept x0 u1 => ?_) ?_) <;> [clear_value u1; subst u1])
        | clear_value u1)
    | with_reducible apply State.makeCopies_kept
    | with_reducible apply State.setDie_kept
    | ((with_reducible apply Kept.ite) <;> intro _))

theorem State.setFlagCell_kept {x0 s : State} (k : Nat) (x : FlagCell) (hk : Kept x0 s) : Kept x0 (State.setFlagCell s k x) := by
  unfold State.setFlagCell
  repeat' (first
    | with_reducible assumption
    | (refine id ?_; extract_lets +onlyGivenNames u1; first
        | ((refine (fun k1 : Kept x0 u1 => ?_) ?_) <;> [clear_value u1; subst u1])
        | clear_value u1)
    | with_reducible apply State.setDie_kept
    | with_reducible apply State.putFlag_kept
    | with_reducible apply State.sf64_kept
    | with_reducible apply State.set32_kept
    | with_reducible apply State.clr32_kept
    | ((with_reducible apply Kept.ite) <;> intro _))

theorem State.setCtrCell_kept {x0 s : State} (k : Nat) (x : CtrCell) (hk : Kept x0 s) : Kept x0 (State.setCtrCell s k x) := by
  unfold State.setCtrCell
  repeat' (first
    | with_reducible assumption
    | (refine id ?_; extract_lets +onlyGivenNames u1; first
        | ((refine (fun k1 : Kept x0 u1 => ?_) ?_) <;> [clear_value u1; subst u1])
        | clear_value u1)
    | with_reducible apply State.setDie_kept
    | with_reducible apply State.putCtr_kept)

theorem State.updFlag_kept {x0 s : State} (k t : Nat) (b : Bool) (hk : Kept x0 s) : Kept x0 (State.updFlag s k t b) := by
  unfold State.updFlag
  repeat' (first
    | with_reducible assumption
    | (refine id ?_; extract_lets +onlyGivenNames u1; first
        | ((refine (fun k1 : Kept x0 u1 => ?_) ?_) <;> [clear_value u1; subst u1])
        | clear_value u1)
    | with_reducible apply State.flagCycle_kept
    | with_reducible apply State.setFlagCell_kept)

theorem State.addCtr_kept {x0 s : State} (k t v : Nat) (hk : Kept x0 s) : Kept x0 (State.addCtr s k t v) := by
  unfold State.addCtr
  repeat' (first
    | with_reducible assumption
    | (refine id ?_; extract_lets +onlyGivenNames u1; first
        | ((refine (fun k1 : Kept x0 u1 => ?_) ?_) <;> [clear_value u1; subst u1])
        | clear_value u1)
    | with_reducible apply State.flagCycle_kept
    | with_reducible apply State.setCtrCell_kept)

theorem State.writeCtr_kept {x0 s : State} (k t r v : Nat) (hk : Kept x0 s) : Kept x0 (State.writeCtr s k t r v) := by
  unfold State.writeCtr
  repeat' (first
    | with_reducible assumption
    | (refine id ?_; extract_lets +onlyGivenNames u1; first
        | ((refine (fun k1 : Kept x0 u1 => ?_) ?_) <;> [clear_value u1; subst u1])
        | clear_value u1)
    | with_reducible apply State.flagCycle_kept
    | with_reducible apply State.setCtrCell_kept
    | ((with_reducible apply Kept.ite) <;> intro _)
    | split)

theorem State.consumeFlag_kept {x0 s : State} (k t : Nat) (hk : Kept x0 s) : Kept x0 (State.consumeFlag s k t) := by
  unfold State.consumeFlag
  repeat' (first
    | with_reducible assumption
    | (refine id ?_; extract_lets +onlyGivenNames u1; first
        | ((refine (fun k1 : Kept x0 u1 => ?_) ?_) <;> [clear_value u1; subst u1])
        | clear_value u1)
    | with_reducible apply State.flagCycle_kept
    | with_reducible apply State.setFlagCell_kept)

theorem State.consumeCtr_kept {x0 s : State} (k t v : Nat) (hk : Kept x0 s) : Kept x0 (State.consumeCtr s k t v) := by
  unfold State.consumeCtr
  repeat' (first
    | with_reducible assumption
    | (refine id ?_; extract_lets +onlyGivenNames u1; first
        | ((refine (fun k1 : Kept x0 u1 => ?_) ?_) <;> [clear_value u1; subst u1])
        | clear_value u1)
    | with_reducible apply State.flagCycle_kept
    | with_reducible apply State.setCtrCell_kept)

theorem State.writeFlagBytes_kept {x0 s : State} (d off t : Nat) (r4 : List Byte)
    (hk : Kept x0 s) : Kept x0 (State.writeFlagBytes s d off t r4) := by
  induction r4 generalizing s d off t with
  | nil =>
    unfold State.writeFlagBytes
    repeat' (first
      | with_reducible assumption)
  | cons m ms ih =>
    unfold State.writeFlagBytes
    repeat' (first
      | with_reducible assumption
      | with_reducible apply ih
      | with_reducible apply State.updFlag_kept)

theorem State.writeCtrWords_kept {x0 s : State} (d off t r : Nat) (r5 : List Nat)
    (hk : Kept x0 s) : Kept x0 (State.writeCtrWords s d off t r r5) := by
  induction r5 generalizing s d off t r with
  | nil =>
    unfold State.writeCtrWords
    repeat' (first
      | with_reducible assumption)
  | cons m ms ih =>
    unfold State.writeCtrWords
    repeat' (first
      | with_reducible assumption
      | (refine id ?_; extract_lets +onlyGivenNames u1; first
        | ((refine (fun k1 : Kept x0 u1 => ?_) ?_) <;> [clear_value u1; subst u1])
        | clear_value u1)
      | with_reducible apply ih
      | with_reducible apply State.writeCtr_kept
      | with_reducible apply State.addCtr_kept
      | ((with_reducible apply Kept.ite) <;> intro _))

theorem State.writeRegion3_kept {x0 s : State} (d off t r : Nat) (bs : List Byte)
    (hk : Kept x0 s) : Kept x0 (State.writeRegion3 s d off t r bs) := by
  unfold State.writeRegion3
  repeat' (first
    | with_reducible assumption
    | with_reducible apply State.writeFlagBytes_kept
    | with_reducible apply State.writeCtrWords_kept
    | ((with_reducible apply Kept.ite) <;> intro _))

end Sys2Proof.Machine
end

