-- ==== Sys2Proof/Laws/KeepRows.lean ====
section
/-!
SUPPORT. What the operations of Machine/Rows.lean keep (Laws/Keep.lean).
-/

namespace Sys2Proof.Machine

theorem State.rasLast_kept {x0 s : State} (d type a : Nat) (hk : Kept x0 s) : Kept x0 (State.rasLast s d type a) := by
  unfold State.rasLast
  repeat' (first
    | with_reducible assumption
    | with_reducible apply State.w64_kept)

theorem State.memoryEvent_kept {x0 s : State} (d part : Nat) (hk : Kept x0 s) : Kept x0 (State.memoryEvent s d part) := by
  unfold State.memoryEvent
  repeat' (first
    | with_reducible assumption
    | with_reducible apply State.postEvent_kept)

theorem State.scheduleRemap_kept {x0 s : State} (d row : Nat) (hk : Kept x0 s) : Kept x0 (State.scheduleRemap s d row) := by
  unfold State.scheduleRemap
  repeat' (first
    | with_reducible assumption
    | (refine id ?_; extract_lets +onlyGivenNames u1; first
        | ((refine (fun k1 : Kept x0 u1 => ?_) ?_) <;> [clear_value u1; subst u1])
        | clear_value u1)
    | with_reducible apply State.setDie_kept
    | with_reducible apply State.memoryEvent_kept
    | with_reducible apply State.set32_kept
    | ((with_reducible apply Kept.ite) <;> intro _))

theorem State.applyRemaps_kept {x0 s : State} (d : Nat) (hk : Kept x0 s) : Kept x0 (State.applyRemaps s d) := by
  unfold State.applyRemaps
  repeat' (first
    | with_reducible assumption
    | (refine id ?_; extract_lets +onlyGivenNames u1; first
        | ((refine (fun k1 : Kept x0 u1 => ?_) ?_) <;> [clear_value u1; subst u1])
        | clear_value u1)
    | (with_reducible refine Kept.softly ?_ (Tab.wf_filter _ _ _))
    | with_reducible apply State.setDie_kept
    | with_reducible apply State.count64_kept
    | with_reducible apply State.set32_kept
    | with_reducible apply State.sf32_kept
    | ((with_reducible apply Kept.ite) <;> intro _))

theorem State.eccCorrected_kept {x0 s : State} (d a : Nat) (hk : Kept x0 s) : Kept x0 (State.eccCorrected s d a) := by
  unfold State.eccCorrected
  repeat' (first
    | with_reducible assumption
    | (refine id ?_; extract_lets +onlyGivenNames u1; first
        | ((refine (fun k1 : Kept x0 u1 => ?_) ?_) <;> [clear_value u1; subst u1])
        | clear_value u1)
    | with_reducible apply State.rasLast_kept
    | with_reducible apply State.count64_kept
    | with_reducible apply State.set32_kept
    | with_reducible apply State.setDie_kept
    | with_reducible apply State.scheduleRemap_kept
    | ((with_reducible apply Kept.ite) <;> intro _))

theorem State.upset_kept {x0 s : State} (words : List (BitVec 37)) (hk : Kept x0 s) : Kept x0 (State.upset s words) := by
  refine hk.softly (fun h => List.foldlRecOn words _ (motive := fun l => Tab.wf (fun _ => false) l = true) h (fun l hl w _ => ?_))
  split
  · exact hl
  · exact Tab.wf_put _ _ _ _ hl

theorem State.noticed_kept {x0 s : State} (addrs : List Nat) (hk : Kept x0 s) : Kept x0 (State.noticed s addrs) := by
  unfold State.noticed
  repeat' (first
    | with_reducible assumption
    | intro _
    | with_reducible apply State.eccCorrected_kept
    | with_reducible apply Kept.foldl
    | ((with_reducible apply Kept.ite) <;> intro _))

theorem State.scrubLines_kept {x0 s : State} (d key line k : Nat) (hk : Kept x0 s) : Kept x0 (State.scrubLines s d key line k) := by
  unfold State.scrubLines
  repeat' (first
    | with_reducible assumption
    | intro _
    | (refine id ?_; extract_lets +onlyGivenNames u1; first
        | ((refine (fun k1 : Kept x0 u1 => ?_) ?_) <;> [clear_value u1; subst u1])
        | clear_value u1)
    | (with_reducible refine Kept.softly ?_ (Tab.wf_put _ _ _ _))
    | with_reducible apply State.eccCorrected_kept
    | with_reducible apply State.setDie_kept
    | with_reducible apply Kept.foldl)

theorem State.scrubWrap_kept {x0 s : State} (d key : Nat) (hk : Kept x0 s) : Kept x0 (State.scrubWrap s d key) := by
  unfold State.scrubWrap
  repeat' (first
    | with_reducible assumption
    | (refine id ?_; extract_lets +onlyGivenNames u1; clear_value u1)
    | with_reducible apply State.setDie_kept)

theorem State.scrubUnitBy_kept {x0 s : State} (d key k : Nat) (hk : Kept x0 s) : Kept x0 (State.scrubUnitBy s d key k) := by
  unfold State.scrubUnitBy
  repeat' (first
    | with_reducible assumption
    | (refine id ?_; extract_lets +onlyGivenNames u1; clear_value u1)
    | with_reducible apply State.scrubLines_kept
    | with_reducible apply State.scrubWrap_kept
    | ((with_reducible apply Kept.ite) <;> intro _))

theorem State.scrubWindow_kept {x0 s : State} (d : Nat) (hk : Kept x0 s) : Kept x0 (State.scrubWindow s d) := by
  unfold State.scrubWindow
  repeat' (first
    | with_reducible assumption
    | intro _
    | (refine id ?_; extract_lets +onlyGivenNames u1; first
        | ((refine (fun k1 : Kept x0 u1 => ?_) ?_) <;> [clear_value u1; subst u1])
        | clear_value u1)
    | with_reducible apply State.scrubUnitBy_kept
    | with_reducible apply State.setDie_kept
    | with_reducible apply Kept.foldl)

theorem State.scrubIdle_kept {x0 s : State} (d key : Nat) (hk : Kept x0 s) : Kept x0 (State.scrubIdle s d key) := by
  unfold State.scrubIdle
  repeat' (first
    | with_reducible assumption
    | (refine id ?_; extract_lets +onlyGivenNames u1; first
        | ((refine (fun k1 : Kept x0 u1 => ?_) ?_) <;> [clear_value u1; subst u1])
        | clear_value u1)
    | with_reducible apply State.scrubUnitBy_kept
    | with_reducible apply State.setDie_kept)

end Sys2Proof.Machine
end

