-- ==== Sys2Proof/Laws/KeepCards.lean ====
section
/-!
SUPPORT. What the operations of Machine/Cards.lean keep (Laws/Keep.lean).
-/

namespace Sys2Proof.Machine

theorem State.boundFaultAt_kept {x0 s : State} (t : Option Nat) (n a : Nat) (hk : Kept x0 s) : Kept x0 (State.boundFaultAt s t n a) := by
  unfold State.boundFaultAt
  repeat' (first
    | with_reducible assumption
    | (refine id ?_; extract_lets +onlyGivenNames u1; clear_value u1)
    | with_reducible apply State.recordStopAt_kept
    | with_reducible apply State.memoryEvent_kept
    | with_reducible apply State.rasLast_kept
    | with_reducible apply State.set32_kept)

theorem State.boundFault_kept {x0 s : State} (n a : Nat) (hk : Kept x0 s) : Kept x0 (State.boundFault s n a) := by
  unfold State.boundFault
  repeat' (first
    | with_reducible assumption
    | with_reducible apply State.boundFaultAt_kept)

theorem State.writeByteTimed_kept {x0 s : State} (n cyc rank a : Nat) (b : Byte)
    (hk : Kept x0 s) : Kept x0 (State.writeByteTimed s n cyc rank a b) := by
  unfold State.writeByteTimed
  repeat' (first
    | with_reducible assumption
    | with_reducible apply State.setPoison_kept
    | with_reducible apply State.putTimed_kept
    | with_reducible apply State.rewritten_kept
    | ((with_reducible apply Kept.ite) <;> intro _))

theorem State.writeTimed_kept {x0 s : State} (n cyc rank : Nat) (w : List (Nat × Byte))
    (hk : Kept x0 s) : Kept x0 (State.writeTimed s n cyc rank w) := by
  unfold State.writeTimed
  repeat' (first
    | with_reducible assumption
    | intro _
    | with_reducible apply State.writeByteTimed_kept
    | with_reducible apply Kept.foldl)

theorem State.checkBounds_kept {x0 s : State} (t n : Nat) (write : Bool) (addrs : List Nat)
    (hk : Kept x0 s) : Kept x0 (State.checkBounds s t n write addrs) := by
  unfold State.checkBounds
  repeat' (first
    | with_reducible assumption
    | (refine id ?_; extract_lets +onlyGivenNames u1; ((refine (fun k1 : Kept x0 u1 => ?_) ?_) <;> [clear_value u1; subst u1]))
    | with_reducible apply State.noticed_kept
    | with_reducible apply State.boundFaultAt_kept
    | ((with_reducible apply Kept.ite) <;> intro _)
    | split)

theorem State.poisonAt_kept {x0 s : State} (addrs : List Nat) (hk : Kept x0 s) : Kept x0 (State.poisonAt s addrs) := by
  unfold State.poisonAt
  repeat' (first
    | with_reducible assumption
    | intro _
    | with_reducible apply State.setPoison_kept
    | with_reducible apply Kept.foldl)

theorem State.carryPoison_kept {x0 s : State} (x : List (Nat × Nat)) (hk : Kept x0 s) : Kept x0 (State.carryPoison s x) := by
  unfold State.carryPoison
  repeat' (first
    | with_reducible assumption
    | with_reducible apply State.poisonAt_kept)

theorem State.setCore_kept {x0 s : State} (g : Nat) (v : CoreState) (hk : Kept x0 s) : Kept x0 (State.setCore s g v) := by
  unfold State.setCore
  repeat' (first
    | with_reducible assumption
    | (unfold Kept; dsimp only; with_reducible apply Kept.fold))

theorem State.setFlight_kept {x0 s : State} (g : Nat) (f : Flight) (hk : Kept x0 s) : Kept x0 (State.setFlight s g f) := by
  unfold State.setFlight
  repeat' (first
    | with_reducible assumption
    | with_reducible apply State.setCore_kept)

theorem State.firing_kept {x0 s : State} (g cyc kind slot delay pos : Nat)
    (hk : Kept x0 s) : Kept x0 (State.firing s g cyc kind slot delay pos) := by
  unfold State.firing
  repeat' (first
    | with_reducible assumption
    | (refine id ?_; extract_lets +onlyGivenNames u1; first
        | ((refine (fun k1 : Kept x0 u1 => ?_) ?_) <;> [clear_value u1; subst u1])
        | clear_value u1)
    | with_reducible apply State.count64_kept
    | with_reducible apply State.setCore_kept
    | with_reducible apply State.w64_kept
    | ((with_reducible apply Kept.ite) <;> intro _))

theorem State.consume_kept {x0 s : State} (w t : Nat) (hk : Kept x0 s) : Kept x0 (State.consume s w t) := by
  unfold State.consume
  repeat' (first
    | with_reducible assumption
    | with_reducible apply State.consumeFlag_kept
    | with_reducible apply State.consumeCtr_kept
    | ((with_reducible apply Kept.ite) <;> intro _))

theorem State.grantWaits_kept {x0 s : State} (card t : Nat) (r3 : List Nat) (hk : Kept x0 s) : Kept x0 (State.grantWaits s card t r3).1 := by
  induction r3 generalizing s card t with
  | nil =>
    unfold State.grantWaits
    repeat' (first
      | with_reducible assumption)
  | cons m ms ih =>
    unfold State.grantWaits
    repeat' (first
      | with_reducible assumption
      | (refine id ?_; extract_lets +onlyGivenNames u1; clear_value u1)
      | with_reducible apply ih
      | with_reducible apply State.consume_kept
      | split)

theorem State.signalHere_kept {x0 s : State} (k kind op value t : Nat) (hk : Kept x0 s) : Kept x0 (State.signalHere s k kind op value t) := by
  unfold State.signalHere
  repeat' (first
    | with_reducible assumption
    | with_reducible apply State.updFlag_kept
    | with_reducible apply State.addCtr_kept
    | ((with_reducible apply Kept.ite) <;> intro _))

theorem State.giveSignal_kept {x0 s : State} (g sig t : Nat) (hk : Kept x0 s) : Kept x0 (State.giveSignal s g sig t) := by
  unfold State.giveSignal
  repeat' (first
    | with_reducible assumption
    | (refine id ?_; extract_lets +onlyGivenNames u1; clear_value u1)
    | with_reducible apply State.signalHere_kept
    | with_reducible apply State.routeMsg_kept
    | ((with_reducible apply Kept.ite) <;> intro _))

theorem State.giveSignals_kept {x0 s : State} (g card when' t : Nat) (hk : Kept x0 s) : Kept x0 (State.giveSignals s g card when' t) := by
  unfold State.giveSignals
  repeat' (first
    | with_reducible assumption
    | intro _
    | (refine id ?_; extract_lets +onlyGivenNames u1; clear_value u1)
    | with_reducible apply State.giveSignal_kept
    | with_reducible apply Kept.foldl
    | ((with_reducible apply Kept.ite) <;> intro _))

theorem State.captureDigest_kept {x0 s : State} (g : Nat) (f : Flight) (hk : Kept x0 s) : Kept x0 (State.captureDigest s g f) := by
  unfold State.captureDigest
  repeat' (first
    | with_reducible assumption
    | (refine id ?_; extract_lets +onlyGivenNames u1; first
        | ((refine (fun k1 : Kept x0 u1 => ?_) ?_) <;> [clear_value u1; subst u1])
        | clear_value u1)
    | with_reducible apply State.sf64_kept
    | with_reducible apply State.set32_kept
    | with_reducible apply State.w64_kept
    | ((with_reducible apply Kept.ite) <;> intro _))

theorem State.fullyComplete_kept {x0 s : State} (g seq cyc t : Nat) (hk : Kept x0 s) : Kept x0 (State.fullyComplete s g seq cyc t) := by
  unfold State.fullyComplete
  repeat' (first
    | with_reducible assumption
    | (refine id ?_; extract_lets +onlyGivenNames u1; first
        | ((refine (fun k1 : Kept x0 u1 => ?_) ?_) <;> [clear_value u1; subst u1])
        | clear_value u1)
    | with_reducible apply State.setFlight_kept
    | with_reducible apply State.giveSignals_kept
    | with_reducible apply State.setCore_kept
    | with_reducible apply State.captureDigest_kept
    | ((with_reducible apply Kept.ite) <;> intro _)
    | split)

theorem State.locallyComplete_kept {x0 s : State} (g seq cyc t : Nat) (hk : Kept x0 s) : Kept x0 (State.locallyComplete s g seq cyc t) := by
  unfold State.locallyComplete
  repeat' (first
    | with_reducible assumption
    | (refine id ?_; extract_lets +onlyGivenNames u1; ((refine (fun k1 : Kept x0 u1 => ?_) ?_) <;> [clear_value u1; subst u1]))
    | with_reducible apply State.setFlight_kept
    | with_reducible apply State.giveSignals_kept
    | with_reducible apply State.fullyComplete_kept
    | ((with_reducible apply Kept.ite) <;> intro _)
    | split)

end Sys2Proof.Machine
end

