-- ==== Sys2Proof/Laws/KeepRecovery.lean ====
section
/-!
SUPPORT. What the operations of Machine/Recovery.lean keep (Laws/Keep.lean).
-/

namespace Sys2Proof.Machine

theorem State.setSeqState_kept {x0 s : State} (g x : Nat) (hk : Kept x0 s) : Kept x0 (State.setSeqState s g x) := by
  unfold State.setSeqState
  repeat' (first
    | with_reducible assumption
    | with_reducible apply State.sf32_kept)

theorem State.setSeqPos_kept {x0 s : State} (g x : Nat) (hk : Kept x0 s) : Kept x0 (State.setSeqPos s g x) := by
  unfold State.setSeqPos
  repeat' (first
    | with_reducible assumption
    | with_reducible apply State.sf32_kept)

theorem State.suspendStep_kept {x0 s : State} (n : Nat) (hk : Kept x0 s) : Kept x0 (State.suspendStep s n) := by
  unfold State.suspendStep
  repeat' (first
    | with_reducible assumption
    | (refine id ?_; extract_lets +onlyGivenNames u1; first
        | ((refine (fun k1 : Kept x0 u1 => ?_) ?_) <;> [clear_value u1; subst u1])
        | clear_value u1)
    | with_reducible apply State.recordStop_kept
    | with_reducible apply State.set32_kept
    | with_reducible apply State.setPart_kept
    | ((with_reducible apply Kept.ite) <;> intro _)
    | (unfold Kept; dsimp only; with_reducible apply Kept.fold))

theorem State.abortStep_kept {x0 s : State} (n : Nat) (hk : Kept x0 s) : Kept x0 (State.abortStep s n) := by
  unfold State.abortStep
  repeat' (first
    | with_reducible assumption
    | (refine id ?_; extract_lets +onlyGivenNames u1; ((refine (fun k1 : Kept x0 u1 => ?_) ?_) <;> [clear_value u1; subst u1]))
    | with_reducible apply State.suspendStep_kept
    | with_reducible apply State.postEvent_kept
    | ((with_reducible apply Kept.ite) <;> intro _))

theorem State.dropLines_kept {x0 s : State} (g : Nat) (hk : Kept x0 s) : Kept x0 (State.dropLines s g) := by
  unfold State.dropLines
  repeat' (first
    | with_reducible assumption
    | (refine id ?_; extract_lets +onlyGivenNames u1; clear_value u1)
    | with_reducible apply State.setDie_kept
    | ((with_reducible apply Kept.ite) <;> intro _))

theorem State.emptyCore_kept {x0 s : State} (g : Nat) (hk : Kept x0 s) : Kept x0 (State.emptyCore s g) := by
  unfold State.emptyCore
  repeat' (first
    | with_reducible assumption
    | with_reducible apply State.dropLines_kept
    | with_reducible apply State.setCore_kept)

theorem State.failPart_kept {x0 s : State} (own : Option Nat) (spare bound : Bool)
    (hk : Kept x0 s) : Kept x0 (State.failPart s own spare bound) := by
  unfold State.failPart
  repeat' (first
    | with_reducible assumption
    | (refine id ?_; extract_lets +onlyGivenNames u1; first
        | ((refine (fun k1 : Kept x0 u1 => ?_) ?_) <;> [clear_value u1; subst u1])
        | clear_value u1)
    | with_reducible apply State.recordStop_kept
    | with_reducible apply State.setPart_kept
    | with_reducible apply State.abortStep_kept
    | ((with_reducible apply Kept.ite) <;> intro _)
    | split)

theorem State.fenceCore_kept {x0 s : State} (g : Nat) (hk : Kept x0 s) : Kept x0 (State.fenceCore s g) := by
  unfold State.fenceCore
  repeat' (first
    | with_reducible assumption
    | (refine id ?_; extract_lets +onlyGivenNames u1; first
        | ((refine (fun k1 : Kept x0 u1 => ?_) ?_) <;> [clear_value u1; subst u1])
        | clear_value u1)
    | with_reducible apply State.emptyCore_kept
    | with_reducible apply State.setCore_kept
    | with_reducible apply State.set32_kept
    | with_reducible apply State.postEvent_kept
    | with_reducible apply State.failPart_kept
    | ((with_reducible apply Kept.ite) <;> intro _)
    | (unfold Kept; dsimp only; with_reducible apply Kept.fold))

theorem State.chooseIdle_kept {x0 s : State} (d k : Nat) (hk : Kept x0 s) : Kept x0 (State.chooseIdle s d k) := by
  unfold State.chooseIdle
  repeat' (first
    | with_reducible assumption
    | intro _
    | (refine id ?_; extract_lets +onlyGivenNames u1; first
        | ((refine (fun k1 : Kept x0 u1 => ?_) ?_) <;> [clear_value u1; subst u1])
        | clear_value u1)
    | with_reducible apply State.setDie_kept
    | with_reducible apply State.sf32_kept
    | with_reducible apply State.setCore_kept
    | with_reducible apply Kept.foldl
    | split)

end Sys2Proof.Machine
end

