-- ==== Sys2Proof/Laws/KeepFeed.lean ====
section
/-!
SUPPORT. What the operations of Machine/Feed.lean keep (Laws/Keep.lean).
-/

namespace Sys2Proof.Machine

theorem State.scanTo_kept {x0 s : State} (g e cyc : Nat) (hk : Kept x0 s) : Kept x0 (State.scanTo s g e cyc) := by
  unfold State.scanTo
  repeat' (first
    | with_reducible assumption
    | (refine id ?_; extract_lets +onlyGivenNames u1; clear_value u1)
    | with_reducible apply State.setCore_kept
    | split)

end Sys2Proof.Machine
end

