-- ==== Sys2Proof/Laws/KeepCollect.lean ====
section
/-!
SUPPORT. What the operations of Machine/Collect.lean keep (Laws/Keep.lean).
-/

namespace Sys2Proof.Machine

theorem State.ringSend_kept {x0 s : State} (part d line : Nat) (m : RedMark) (bytes : List Byte) (bad : Bool)
    (hk : Kept x0 s) : Kept x0 (State.ringSend s part d line m bytes bad) := by
  unfold State.ringSend
  repeat' (first
    | with_reducible assumption
    | (refine id ?_; extract_lets +onlyGivenNames u1; clear_value u1)
    | with_reducible apply State.sendFrame_kept)

theorem State.sendReduce_kept {x0 s : State} (x : Group) (d line peer : Nat) (m : RedMark) (bytes : List Byte) (bad : Bool)
    (hk : Kept x0 s) : Kept x0 (State.sendReduce s x d line peer m bytes bad) := by
  unfold State.sendReduce
  repeat' (first
    | with_reducible assumption
    | with_reducible apply State.routeFrame_kept)

theorem State.placeResult_kept {x0 s : State} (x : Group) (d item line cyc : Nat) (bytes : List Byte) (bad : Bool)
    (hk : Kept x0 s) : Kept x0 (State.placeResult s x d item line cyc bytes bad) := by
  unfold State.placeResult
  repeat' (first
    | with_reducible assumption
    | intro _
    | (refine id ?_; extract_lets +onlyGivenNames u1; first
        | ((refine (fun k1 : Kept x0 u1 => ?_) ?_) <;> [clear_value u1; subst u1])
        | clear_value u1)
    | with_reducible apply State.setFlight_kept
    | with_reducible apply State.setDie_kept
    | with_reducible apply Kept.foldl
    | split)

theorem State.shareResult_kept {x0 s : State} (x : Group) (d item line cyc : Nat) (bytes : List Byte) (bad : Bool)
    (hk : Kept x0 s) : Kept x0 (State.shareResult s x d item line cyc bytes bad) := by
  unfold State.shareResult
  repeat' (first
    | with_reducible assumption
    | intro _
    | with_reducible apply State.ringSend_kept
    | with_reducible apply State.placeResult_kept
    | with_reducible apply Kept.foldl)

theorem State.addOperand_kept {x0 s : State} (x : Group) (item line level place : Nat) (o : RedOp) (r7 : Nat)
    (hk : Kept x0 s) : Kept x0 (State.addOperand s x item line level place o r7) := by
  induction r7 generalizing s x item line level place o with
  | zero =>
    unfold State.addOperand
    repeat' (first
      | with_reducible assumption)
  | succ m ih =>
    unfold State.addOperand
    repeat' (first
      | with_reducible assumption
      | intro _
      | (refine id ?_; extract_lets +onlyGivenNames u1; first
        | ((refine (fun k1 : Kept x0 u1 => ?_) ?_) <;> [clear_value u1; subst u1])
        | clear_value u1)
      | with_reducible apply ih
      | with_reducible apply State.count64_kept
      | with_reducible apply State.ringSend_kept
      | with_reducible apply State.sendReduce_kept
      | with_reducible apply State.shareResult_kept
      | with_reducible apply Kept.foldl
      | ((with_reducible apply Kept.ite) <;> intro _)
      | split
      | (unfold Kept; dsimp only; with_reducible apply Kept.fold))

end Sys2Proof.Machine
end

