-- ==== Sys2Proof/Laws/KeepSequencer.lean ====
section
/-!
SUPPORT. What the operations of Machine/Sequencer.lean keep (Laws/Keep.lean).
-/

namespace Sys2Proof.Machine

theorem State.refill_kept {x0 s : State} (g pos e0 : Nat) (hk : Kept x0 s) : Kept x0 (State.refill s g pos e0) := by
  unfold State.refill
  repeat' (first
    | with_reducible assumption
    | (refine id ?_; extract_lets +onlyGivenNames u1; clear_value u1)
    | with_reducible apply State.setSeqState_kept
    | with_reducible apply State.setSeqPos_kept
    | with_reducible apply State.setCore_kept)

theorem cardFetch_kept {x0 s : State} (g t : Nat) (hk : Kept x0 s) : Kept x0 (cardFetch g t s) := by
  unfold cardFetch
  repeat' (first
    | with_reducible assumption
    | (refine id ?_; extract_lets +onlyGivenNames u1; first
        | ((refine (fun k1 : Kept x0 u1 => ?_) ?_) <;> [clear_value u1; subst u1])
        | clear_value u1)
    | with_reducible apply State.checkBounds_kept
    | with_reducible apply State.setCore_kept
    | with_reducible apply State.count64_kept
    | ((with_reducible apply Kept.ite) <;> intro _)
    | split)

theorem State.blockIssue_kept {x0 s : State} (g kind slot cyc : Nat) (hk : Kept x0 s) : Kept x0 (State.blockIssue s g kind slot cyc) := by
  unfold State.blockIssue
  repeat' (first
    | with_reducible assumption
    | (refine id ?_; extract_lets +onlyGivenNames u1; first
        | ((refine (fun k1 : Kept x0 u1 => ?_) ?_) <;> [clear_value u1; subst u1])
        | clear_value u1)
    | with_reducible apply State.setCore_kept
    | with_reducible apply State.firing_kept
    | ((with_reducible apply Kept.ite) <;> intro _)
    | split)

theorem State.unblock_kept {x0 s : State} (g pos cyc : Nat) (hk : Kept x0 s) : Kept x0 (State.unblock s g pos cyc) := by
  unfold State.unblock
  repeat' (first
    | with_reducible assumption
    | with_reducible apply State.firing_kept
    | ((with_reducible apply Kept.ite) <;> intro _)
    | split)

theorem State.contested_kept {x0 s : State} (g w : Nat) (hk : Kept x0 s) : Kept x0 (State.contested s g w) := by
  unfold State.contested
  repeat' (first
    | with_reducible assumption
    | with_reducible apply State.count64_kept
    | with_reducible apply State.set32_kept)

theorem State.issued_kept {x0 s : State} (g pos card t : Nat) (hk : Kept x0 s) : Kept x0 (State.issued s g pos card t) := by
  unfold State.issued
  repeat' (first
    | with_reducible assumption
    | (refine id ?_; extract_lets +onlyGivenNames u1; first
        | ((refine (fun k1 : Kept x0 u1 => ?_) ?_) <;> [clear_value u1; subst u1])
        | clear_value u1)
    | with_reducible apply State.unblock_kept
    | with_reducible apply State.setCore_kept
    | with_reducible apply State.count64_kept
    | with_reducible apply State.setSeqPos_kept
    | with_reducible apply State.setSeqState_kept
    | with_reducible apply State.giveSignals_kept
    | ((with_reducible apply Kept.ite) <;> intro _))

theorem State.lowerGrants_kept {x0 s : State} (g t : Nat) (hk : Kept x0 s) : Kept x0 (State.lowerGrants s g t) := by
  unfold State.lowerGrants
  repeat' (first
    | with_reducible assumption
    | intro _
    | (refine id ?_; extract_lets +onlyGivenNames u1; clear_value u1)
    | with_reducible apply State.grantWaits_kept
    | with_reducible apply Kept.foldl
    | ((with_reducible apply Kept.ite) <;> intro _)
    | with_reducible refine Kept.fst_eq (by with_reducible assumption) ?_
    | split)

theorem State.tryIssue_kept {x0 s : State} (g op t : Nat) (hk : Kept x0 s) : Kept x0 (State.tryIssue s g op t).1 := by
  unfold State.tryIssue
  repeat' (first
    | with_reducible assumption
    | (refine id ?_; extract_lets +onlyGivenNames u1; first
        | ((refine (fun k1 : Kept x0 u1 => ?_) ?_) <;> [clear_value u1; subst u1])
        | clear_value u1)
    | with_reducible apply State.blockIssue_kept
    | with_reducible apply State.setCore_kept
    | with_reducible apply State.grantWaits_kept
    | with_reducible apply State.contested_kept
    | with_reducible apply State.issued_kept
    | ((with_reducible apply Kept.ite) <;> intro _)
    | with_reducible refine Kept.fst_eq (by with_reducible assumption) ?_
    | split)

theorem issueUnit_kept {x0 s : State} (op g t : Nat) (hk : Kept x0 s) : Kept x0 (issueUnit op g t s) := by
  unfold issueUnit
  repeat' (first
    | with_reducible assumption
    | with_reducible apply State.tryIssue_kept)

theorem State.completeNow_kept {x0 s : State} (g seq t : Nat) (hk : Kept x0 s) : Kept x0 (State.completeNow s g seq t) := by
  unfold State.completeNow
  repeat' (first
    | with_reducible assumption
    | with_reducible apply State.locallyComplete_kept)

theorem issueNop_kept {x0 s : State} (g t : Nat) (hk : Kept x0 s) : Kept x0 (issueNop g t s) := by
  unfold issueNop
  repeat' (first
    | with_reducible assumption
    | with_reducible apply State.tryIssue_kept
    | with_reducible apply State.completeNow_kept
    | with_reducible refine Kept.fst_eq (by with_reducible assumption) ?_
    | split)

theorem issueDigest_kept {x0 s : State} (g t : Nat) (hk : Kept x0 s) : Kept x0 (issueDigest g t s) := by
  unfold issueDigest
  repeat' (first
    | with_reducible assumption
    | (refine id ?_; extract_lets +onlyGivenNames u1; ((refine (fun k1 : Kept x0 u1 => ?_) ?_) <;> [clear_value u1; subst u1]))
    | with_reducible apply State.tryIssue_kept
    | with_reducible apply State.setCore_kept
    | with_reducible apply State.completeNow_kept
    | with_reducible refine Kept.fst_eq (by with_reducible assumption) ?_
    | split)

theorem issueHourMark_kept {x0 s : State} (g t : Nat) (hk : Kept x0 s) : Kept x0 (issueHourMark g t s) := by
  unfold issueHourMark
  repeat' (first
    | with_reducible assumption
    | (refine id ?_; extract_lets +onlyGivenNames u1; first
        | ((refine (fun k1 : Kept x0 u1 => ?_) ?_) <;> [clear_value u1; subst u1])
        | clear_value u1)
    | with_reducible apply State.tryIssue_kept
    | with_reducible apply State.setCore_kept
    | with_reducible apply State.sf64_kept
    | with_reducible apply State.setFlight_kept
    | with_reducible apply State.completeNow_kept
    | with_reducible apply State.setSeqState_kept
    | ((with_reducible apply Kept.ite) <;> intro _)
    | with_reducible refine Kept.fst_eq (by with_reducible assumption) ?_
    | split)

theorem cardLocalCompletion_kept {x0 s : State} (g pos t : Nat) (hk : Kept x0 s) : Kept x0 (cardLocalCompletion g pos t s) := by
  unfold cardLocalCompletion
  repeat' (first
    | with_reducible assumption
    | (refine id ?_; extract_lets +onlyGivenNames u1; clear_value u1)
    | with_reducible apply State.locallyComplete_kept
    | ((with_reducible apply Kept.ite) <;> intro _)
    | split)

theorem State.completeStart_kept {x0 s : State} (n status : Nat) (hk : Kept x0 s) : Kept x0 (State.completeStart s n status) := by
  unfold State.completeStart
  repeat' (first
    | with_reducible assumption
    | with_reducible apply State.complete_kept
    | with_reducible apply State.setPart_kept
    | split)

theorem execCardFetch_kept {x0 s t0 : State} (d : Fin 8) (c : Fin 16) (t : Nat) (upset : List (BitVec 37)) (hk : Kept x0 s) (ek : execCardFetch d c t upset s = .next t0) : Kept x0 t0 := by
  unfold execCardFetch at ek
  rw [Host.Outcome.next.injEq] at ek; subst ek
  all_goals
    repeat' (first
      | with_reducible assumption
      | with_reducible apply cardFetch_kept
      | with_reducible apply State.upset_kept)

theorem execNopCard_kept {x0 s t0 : State} (d : Fin 8) (c : Fin 16) (t : Nat) (hk : Kept x0 s) (ek : execNopCard d c t s = .next t0) : Kept x0 t0 := by
  unfold execNopCard at ek
  rw [Host.Outcome.next.injEq] at ek; subst ek
  all_goals
    repeat' (first
      | with_reducible assumption
      | with_reducible apply issueNop_kept)

theorem execMatmul_kept {x0 s t0 : State} (d : Fin 8) (c : Fin 16) (t : Nat) (hk : Kept x0 s) (ek : execMatmul d c t s = .next t0) : Kept x0 t0 := by
  unfold execMatmul at ek
  rw [Host.Outcome.next.injEq] at ek; subst ek
  all_goals
    repeat' (first
      | with_reducible assumption
      | with_reducible apply issueUnit_kept)

theorem execVectorCard_kept {x0 s t0 : State} (d : Fin 8) (c : Fin 16) (t : Nat) (hk : Kept x0 s) (ek : execVectorCard d c t s = .next t0) : Kept x0 t0 := by
  unfold execVectorCard at ek
  rw [Host.Outcome.next.injEq] at ek; subst ek
  all_goals
    repeat' (first
      | with_reducible assumption
      | with_reducible apply issueUnit_kept)

theorem execMoveCard_kept {x0 s t0 : State} (d : Fin 8) (c : Fin 16) (t : Nat) (hk : Kept x0 s) (ek : execMoveCard d c t s = .next t0) : Kept x0 t0 := by
  unfold execMoveCard at ek
  rw [Host.Outcome.next.injEq] at ek; subst ek
  all_goals
    repeat' (first
      | with_reducible assumption
      | with_reducible apply issueUnit_kept)

theorem execMulticast_kept {x0 s t0 : State} (d : Fin 8) (c : Fin 16) (t : Nat) (hk : Kept x0 s) (ek : execMulticast d c t s = .next t0) : Kept x0 t0 := by
  unfold execMulticast at ek
  rw [Host.Outcome.next.injEq] at ek; subst ek
  all_goals
    repeat' (first
      | with_reducible assumption
      | with_reducible apply issueUnit_kept)

theorem execReduceCard_kept {x0 s t0 : State} (d : Fin 8) (c : Fin 16) (t : Nat) (hk : Kept x0 s) (ek : execReduceCard d c t s = .next t0) : Kept x0 t0 := by
  unfold execReduceCard at ek
  rw [Host.Outcome.next.injEq] at ek; subst ek
  all_goals
    repeat' (first
      | with_reducible assumption
      | with_reducible apply issueUnit_kept)

theorem execDigestCard_kept {x0 s t0 : State} (d : Fin 8) (c : Fin 16) (t : Nat) (hk : Kept x0 s) (ek : execDigestCard d c t s = .next t0) : Kept x0 t0 := by
  unfold execDigestCard at ek
  rw [Host.Outcome.next.injEq] at ek; subst ek
  all_goals
    repeat' (first
      | with_reducible assumption
      | with_reducible apply issueDigest_kept)

theorem execHourMark_kept {x0 s t0 : State} (d : Fin 8) (c : Fin 16) (t : Nat) (hk : Kept x0 s) (ek : execHourMark d c t s = .next t0) : Kept x0 t0 := by
  unfold execHourMark at ek
  rw [Host.Outcome.next.injEq] at ek; subst ek
  all_goals
    repeat' (first
      | with_reducible assumption
      | with_reducible apply issueHourMark_kept)

theorem execCardLocalCompletion_kept {x0 s t0 : State} (d : Fin 8) (c : Fin 16) (pos t : Nat) (hk : Kept x0 s) (ek : execCardLocalCompletion d c pos t s = .next t0) : Kept x0 t0 := by
  unfold execCardLocalCompletion at ek
  rw [Host.Outcome.next.injEq] at ek; subst ek
  all_goals
    repeat' (first
      | with_reducible assumption
      | with_reducible apply cardLocalCompletion_kept)

end Sys2Proof.Machine
end

