-- ==== Sys2Proof/Laws/KeepMesh.lean ====
section
/-!
SUPPORT. What the operations of Machine/Mesh.lean keep (Laws/Keep.lean).
-/

namespace Sys2Proof.Machine

theorem State.setMesh_kept {x0 s : State} (d : Nat) (m : Mesh) (hk : Kept x0 s) : Kept x0 (State.setMesh s d m) := by
  unfold State.setMesh
  repeat' (first
    | with_reducible assumption
    | with_reducible apply State.setDie_kept)

theorem State.lineRead_kept {x0 s : State} (d c : Nat) (r : SrcRead) (f : Flight) (i : Nat)
    (hk : Kept x0 s) : Kept x0 (State.lineRead s d c r f i) := by
  unfold State.lineRead
  repeat' (first
    | with_reducible assumption
    | intro _
    | (refine id ?_; extract_lets +onlyGivenNames u1; first
        | ((refine (fun k1 : Kept x0 u1 => ?_) ?_) <;> [clear_value u1; subst u1])
        | clear_value u1)
    | with_reducible apply State.setFlight_kept
    | with_reducible apply State.addOperand_kept
    | with_reducible apply State.setMesh_kept
    | with_reducible apply Kept.foldl
    | ((with_reducible apply Kept.ite) <;> intro _)
    | split)

theorem State.serveRead_kept {x0 s : State} (d c : Nat) (acc : State × Grants) (r : SrcRead) (hacc : Kept x0 acc.1)
    : Kept x0 (State.serveRead s d c acc r).1 := by
  unfold State.serveRead
  repeat' (first
    | with_reducible assumption
    | intro _
    | (refine id ?_; extract_lets +onlyGivenNames u1; first
        | ((refine (fun k1 : Kept x0 u1 => ?_) ?_) <;> [clear_value u1; subst u1])
        | clear_value u1)
    | with_reducible apply State.setMesh_kept
    | with_reducible apply State.lineRead_kept
    | with_reducible apply State.count64_kept
    | with_reducible apply Kept.foldl
    | ((with_reducible apply Kept.ite) <;> intro _)
    | split)

theorem State.serveReads_kept {x0 s : State} (d c : Nat) (hk : Kept x0 s) : Kept x0 (State.serveReads s d c) := by
  unfold State.serveReads
  repeat' (first
    | with_reducible assumption
    | intro _
    | (refine id ?_; extract_lets +onlyGivenNames u1; clear_value u1)
    | with_reducible apply State.serveRead_kept
    | with_reducible apply State.setMesh_kept
    | with_reducible apply Kept.foldl_fst)

theorem State.arrivals_kept {x0 s : State} (d c : Nat) (hk : Kept x0 s) : Kept x0 (State.arrivals s d c) := by
  unfold State.arrivals
  repeat' (first
    | with_reducible assumption
    | (refine id ?_; extract_lets +onlyGivenNames u1; clear_value u1)
    | with_reducible apply State.setMesh_kept)

theorem State.links_kept {x0 s : State} (d c : Nat) (hk : Kept x0 s) : Kept x0 (State.links s d c) := by
  unfold State.links
  repeat' (first
    | with_reducible assumption
    | (refine id ?_; extract_lets +onlyGivenNames u1; clear_value u1)
    | with_reducible apply State.count64_kept
    | with_reducible apply State.setMesh_kept)

theorem State.placed_kept {x0 s : State} (x : Landing) (f : Flight) (c : Nat) (hk : Kept x0 s) : Kept x0 (State.placed s x f c) := by
  unfold State.placed
  repeat' (first
    | with_reducible assumption
    | (refine id ?_; extract_lets +onlyGivenNames u1; clear_value u1)
    | with_reducible apply State.setFlight_kept)

theorem State.writeLanding_kept {x0 s : State} (x : Landing) (f : Flight) (addrs : List Nat) (c rank : Nat)
    (hk : Kept x0 s) : Kept x0 (State.writeLanding s x f addrs c rank) := by
  unfold State.writeLanding
  repeat' (first
    | with_reducible assumption
    | (refine id ?_; extract_lets +onlyGivenNames u1; first
        | ((refine (fun k1 : Kept x0 u1 => ?_) ?_) <;> [clear_value u1; subst u1])
        | clear_value u1)
    | with_reducible apply State.writeTimed_kept
    | with_reducible apply State.poisonAt_kept
    | with_reducible apply State.placed_kept
    | ((with_reducible apply Kept.ite) <;> intro _))

theorem State.landLine_kept {x0 s : State} (d c : Nat) (acc : State × Taken × List Landing) (x : Landing) (hacc : Kept x0 acc.1)
    : Kept x0 (State.landLine s d c acc x).1 := by
  unfold State.landLine
  repeat' (first
    | with_reducible assumption
    | (refine id ?_; extract_lets +onlyGivenNames u1; first
        | ((refine (fun k1 : Kept x0 u1 => ?_) ?_) <;> [clear_value u1; subst u1])
        | clear_value u1)
    | with_reducible apply State.setCore_kept
    | with_reducible apply State.writeLanding_kept
    | with_reducible apply State.count64_kept
    | split)

theorem State.formFrames_kept {x0 s : State} (d : Nat) (ls : List (List Landing)) (acc : State × List Frame) (hacc : Kept x0 acc.1) :
    KeptAll x0 ((s.formFrames d ls acc).map Prod.fst) := by
  induction ls generalizing acc with
  | nil => exact KeptAll.one hacc
  | cons l t ih =>
    unfold State.formFrames
    repeat' (first
      | with_reducible assumption
      | with_reducible apply ih
      | with_reducible apply State.setFlight_kept
      | exact KeptAll.nil
      | split)

theorem State.egress_kept {x0 s : State} (d c : Nat) (hk : Kept x0 s) : KeptAll x0 (State.egress s d c) := by
  unfold State.egress
  dsimp only
  split
  · exact KeptAll.one hk
  · split
    · exact KeptAll.nil
    · next s' fs e =>
      have h : Kept x0 s' := (State.formFrames_kept d _ (s, []) hk).fst e
      split
      · exact KeptAll.nil
      · refine KeptAll.one (Kept.foldl (Kept.foldl (State.setMesh_kept _ _ h) (fun t y ht => ?_)) (fun t f ht => State.routeFrame_kept _ _ ht))
        split
        · exact State.placed_kept _ _ _ ht
        · exact ht

theorem State.reportDue_kept {x0 s : State} (g c : Nat) (hk : Kept x0 s) : Kept x0 (State.reportDue s g c) := by
  unfold State.reportDue
  repeat' (first
    | with_reducible assumption
    | intro _
    | (refine id ?_; extract_lets +onlyGivenNames u1; first
        | ((refine (fun k1 : Kept x0 u1 => ?_) ?_) <;> [clear_value u1; subst u1])
        | clear_value u1)
    | with_reducible apply State.orBits_kept
    | with_reducible apply State.count64_kept
    | with_reducible apply State.setCore_kept
    | with_reducible apply Kept.foldl)

theorem State.portOutput_kept {x0 s : State} (g c : Nat) (acc : State × Nat) (o : VOut) (hacc : Kept x0 acc.1)
    : Kept x0 (State.portOutput s g c acc o).1 := by
  unfold State.portOutput
  repeat' (first
    | with_reducible assumption
    | intro _
    | (refine id ?_; extract_lets +onlyGivenNames u1; first
        | ((refine (fun k1 : Kept x0 u1 => ?_) ?_) <;> [clear_value u1; subst u1])
        | clear_value u1)
    | with_reducible apply State.setCore_kept
    | with_reducible apply State.writeTimed_kept
    | with_reducible apply State.poisonAt_kept
    | with_reducible apply Kept.foldl
    | ((with_reducible apply Kept.ite) <;> intro _))

theorem State.portCycle_kept {x0 s : State} (g c : Nat) (hk : Kept x0 s) : Kept x0 (State.portCycle s g c) := by
  unfold State.portCycle
  repeat' (first
    | with_reducible assumption
    | intro _
    | (refine id ?_; extract_lets +onlyGivenNames u1; first
        | ((refine (fun k1 : Kept x0 u1 => ?_) ?_) <;> [clear_value u1; subst u1])
        | clear_value u1)
    | with_reducible apply State.reportDue_kept
    | with_reducible apply State.setCore_kept
    | with_reducible apply State.portOutput_kept
    | with_reducible apply State.count64_kept
    | with_reducible apply Kept.foldl_fst
    | ((with_reducible apply Kept.ite) <;> intro _))

theorem State.portRun_kept {x0 s : State} (g cyc r3 : Nat) (hk : Kept x0 s) : Kept x0 (State.portRun s g cyc r3) := by
  induction r3 generalizing s g cyc with
  | zero =>
    unfold State.portRun
    repeat' (first
      | with_reducible assumption)
  | succ m ih =>
    unfold State.portRun
    repeat' (first
      | with_reducible assumption
      | (refine id ?_; extract_lets +onlyGivenNames u1; clear_value u1)
      | with_reducible apply ih
      | with_reducible apply State.portCycle_kept
      | ((with_reducible apply Kept.ite) <;> intro _))

theorem State.portTo_kept {x0 s : State} (g cyc : Nat) (hk : Kept x0 s) : Kept x0 (State.portTo s g cyc) := by
  unfold State.portTo
  repeat' (first
    | with_reducible assumption
    | with_reducible apply State.portRun_kept)

theorem State.landings_kept {x0 s : State} (d c : Nat) (hk : Kept x0 s) : Kept x0 (State.landings s d c) := by
  unfold State.landings
  extract_lets _ _ _ _ base
  split
  next s' _ wait e =>
    have h : Kept x0 s' := Kept.fst_eq e (Kept.foldl_fst (State.setMesh_kept _ _ hk) (fun _ _ ht => State.landLine_kept _ _ _ _ ht))
    have h' := State.setMesh_kept d { s'.mesh d with lands := (s'.mesh d).lands ++ wait } h
    exact (State.egress_kept d c h').getD h'

theorem State.meshCycle_kept {x0 s : State} (d c : Nat) (hk : Kept x0 s) : Kept x0 (State.meshCycle s d c) := by
  unfold State.meshCycle
  repeat' (first
    | with_reducible assumption
    | intro _
    | (refine id ?_; extract_lets +onlyGivenNames u1; first
        | ((refine (fun k1 : Kept x0 u1 => ?_) ?_) <;> [clear_value u1; subst u1])
        | clear_value u1)
    | with_reducible apply State.portTo_kept
    | with_reducible apply State.serveReads_kept
    | with_reducible apply State.links_kept
    | with_reducible apply State.landings_kept
    | with_reducible apply State.arrivals_kept
    | with_reducible apply State.setMesh_kept
    | with_reducible apply Kept.foldl)

theorem State.meshRun_kept {x0 s : State} (d r2 : Nat) (hk : Kept x0 s) : Kept x0 (State.meshRun s d r2) := by
  induction r2 generalizing s d with
  | zero =>
    unfold State.meshRun
    repeat' (first
      | with_reducible assumption)
  | succ m ih =>
    unfold State.meshRun
    repeat' (first
      | with_reducible assumption
      | with_reducible apply ih
      | with_reducible apply State.meshCycle_kept
      | ((with_reducible apply Kept.ite) <;> intro _))

theorem State.meshTo_kept {x0 s : State} (d cyc : Nat) (hk : Kept x0 s) : Kept x0 (State.meshTo s d cyc) := by
  unfold State.meshTo
  repeat' (first
    | with_reducible assumption
    | with_reducible apply State.meshRun_kept)

theorem State.caughtUp_kept {x0 s : State} (t a : Nat) (hk : Kept x0 s) : Kept x0 (State.caughtUp s t a) := by
  unfold State.caughtUp
  repeat' (first
    | with_reducible assumption
    | with_reducible apply State.meshTo_kept
    | ((with_reducible apply Kept.ite) <;> intro _))

end Sys2Proof.Machine
end

