-- ==== Sys2Proof/Laws/KeepDma.lean ====
section
/-!
SUPPORT. What the operations of Machine/Dma.lean keep (Laws/Keep.lean).
-/

namespace Sys2Proof.Machine

theorem State.startHere_kept {x0 s : State} (g t : Nat) (f : Flight) (hk : Kept x0 s) : Kept x0 (State.startHere s g t f) := by
  unfold State.startHere
  repeat' (first
    | with_reducible assumption
    | intro _
    | (refine id ?_; extract_lets +onlyGivenNames u1; first
        | ((refine (fun k1 : Kept x0 u1 => ?_) ?_) <;> [clear_value u1; subst u1])
        | clear_value u1)
    | with_reducible apply State.setFlight_kept
    | with_reducible apply State.setMesh_kept
    | with_reducible apply State.checkBounds_kept
    | with_reducible apply Kept.foldl)

theorem State.startFar_kept {x0 s : State} (g t : Nat) (f : Flight) (hk : Kept x0 s) : Kept x0 (State.startFar s g t f) := by
  unfold State.startFar
  repeat' (first
    | with_reducible assumption
    | intro _
    | (refine id ?_; extract_lets +onlyGivenNames u1; first
        | ((refine (fun k1 : Kept x0 u1 => ?_) ?_) <;> [clear_value u1; subst u1])
        | clear_value u1)
    | with_reducible apply State.setFlight_kept
    | with_reducible apply State.routeMsg_kept
    | with_reducible apply Kept.foldl
    | ((with_reducible apply Kept.ite) <;> intro _)
    | split)

theorem dmaItemStart_kept {x0 s : State} (g pos t : Nat) (hk : Kept x0 s) : Kept x0 (dmaItemStart g pos t s) := by
  unfold dmaItemStart
  repeat' (first
    | with_reducible assumption
    | (refine id ?_; extract_lets +onlyGivenNames u1; first
        | ((refine (fun k1 : Kept x0 u1 => ?_) ?_) <;> [clear_value u1; subst u1])
        | clear_value u1)
    | with_reducible apply State.meshTo_kept
    | with_reducible apply State.startFar_kept
    | with_reducible apply State.startHere_kept
    | ((with_reducible apply Kept.ite) <;> intro _)
    | split)

theorem dmaItemComplete_kept {x0 s : State} (g pos t : Nat) (hk : Kept x0 s) : Kept x0 (dmaItemComplete g pos t s) := by
  unfold dmaItemComplete
  repeat' (first
    | with_reducible assumption
    | (refine id ?_; extract_lets +onlyGivenNames u1; first
        | ((refine (fun k1 : Kept x0 u1 => ?_) ?_) <;> [clear_value u1; subst u1])
        | clear_value u1)
    | with_reducible apply State.meshTo_kept
    | with_reducible apply State.giveSignals_kept
    | with_reducible apply State.setFlight_kept
    | ((with_reducible apply Kept.ite) <;> intro _)
    | split)

theorem interlockRelease_kept {x0 s : State} (g pos e t : Nat) (hk : Kept x0 s) : Kept x0 (interlockRelease g pos e t s) := by
  unfold interlockRelease
  repeat' (first
    | with_reducible assumption
    | (refine id ?_; extract_lets +onlyGivenNames u1; first
        | ((refine (fun k1 : Kept x0 u1 => ?_) ?_) <;> [clear_value u1; subst u1])
        | clear_value u1)
    | with_reducible apply State.meshTo_kept
    | with_reducible apply State.setFlight_kept
    | with_reducible apply State.setCore_kept
    | with_reducible apply State.firing_kept
    | ((with_reducible apply Kept.ite) <;> intro _)
    | split)

theorem execDmaItemStart_kept {x0 s t0 : State} (d : Fin 8) (c : Fin 16) (pos t : Nat) (upset : List (BitVec 37)) (hk : Kept x0 s) (ek : execDmaItemStart d c pos t upset s = .next t0) : Kept x0 t0 := by
  unfold execDmaItemStart at ek
  rw [Host.Outcome.next.injEq] at ek; subst ek
  all_goals
    repeat' (first
      | with_reducible assumption
      | with_reducible apply dmaItemStart_kept
      | with_reducible apply State.upset_kept)

theorem execDmaItemComplete_kept {x0 s t0 : State} (d : Fin 8) (c : Fin 16) (pos t : Nat) (hk : Kept x0 s) (ek : execDmaItemComplete d c pos t s = .next t0) : Kept x0 t0 := by
  unfold execDmaItemComplete at ek
  rw [Host.Outcome.next.injEq] at ek; subst ek
  all_goals
    repeat' (first
      | with_reducible assumption
      | with_reducible apply dmaItemComplete_kept)

theorem execInterlockRelease_kept {x0 s t0 : State} (d : Fin 8) (c : Fin 16) (pos : Nat) (e : Fin 64) (t : Nat) (hk : Kept x0 s) (ek : execInterlockRelease d c pos e t s = .next t0) : Kept x0 t0 := by
  unfold execInterlockRelease at ek
  rw [Host.Outcome.next.injEq] at ek; subst ek
  all_goals
    repeat' (first
      | with_reducible assumption
      | with_reducible apply interlockRelease_kept)

end Sys2Proof.Machine
end

