-- ==== Sys2Proof/Laws/KeepMeter.lean ====
section
/-!
SUPPORT. What the operations of Machine/Meter.lean keep (Laws/Keep.lean).
-/

namespace Sys2Proof.Machine

theorem State.muAt_kept {x0 s : State} (tick : Nat) (hk : Kept x0 s) : Kept x0 (State.muAt s tick) := by
  unfold State.muAt
  repeat' (first
    | with_reducible assumption
    | with_reducible apply State.w64_kept)

theorem State.setMeter_kept {x0 s : State} (m : Meter) (hk : Kept x0 s) : Kept x0 (State.setMeter s m) := by
  unfold State.setMeter
  repeat' (first
    | with_reducible assumption
    | (unfold Kept; dsimp only; with_reducible apply Kept.fold))

theorem State.audit_kept {x0 s : State} (kind data : Nat) (hk : Kept x0 s) : Kept x0 (State.audit s kind data) := by
  unfold State.audit
  repeat' (first
    | with_reducible assumption
    | (refine id ?_; extract_lets +onlyGivenNames u1; clear_value u1)
    | with_reducible apply State.w64_kept
    | with_reducible apply State.setMeter_kept
    | ((with_reducible apply Kept.ite) <;> intro _))

theorem State.tapMacs_kept {x0 s : State} (d fmt width : Nat) (hk : Kept x0 s) : Kept x0 (State.tapMacs s d fmt width) := by
  unfold State.tapMacs
  repeat' (first
    | with_reducible assumption
    | (refine id ?_; extract_lets +onlyGivenNames u1; clear_value u1)
    | with_reducible apply State.setMeter_kept
    | ((with_reducible apply Kept.ite) <;> intro _))

theorem State.tapToken_kept {x0 s : State} (n : Nat) (hk : Kept x0 s) : Kept x0 (State.tapToken s n) := by
  unfold State.tapToken
  repeat' (first
    | with_reducible assumption
    | (refine id ?_; extract_lets +onlyGivenNames u1; clear_value u1)
    | with_reducible apply State.setMeter_kept
    | ((with_reducible apply Kept.ite) <;> intro _))

theorem State.latchDie_kept {x0 s : State} (d : Nat) (hk : Kept x0 s) : Kept x0 (State.latchDie s d) := by
  unfold State.latchDie
  repeat' (first
    | with_reducible assumption
    | (refine id ?_; extract_lets +onlyGivenNames u1; clear_value u1)
    | with_reducible apply State.setMeter_kept
    | split)

theorem State.closeInterval_kept {x0 s : State} (close tick : Nat) (late : List Nat) (missing : Bool)
    (hk : Kept x0 s) : Kept x0 (State.closeInterval s close tick late missing) := by
  unfold State.closeInterval
  repeat' (first
    | with_reducible assumption
    | intro _
    | (refine id ?_; extract_lets +onlyGivenNames u1; first
        | ((refine (fun k1 : Kept x0 u1 => ?_) ?_) <;> [clear_value u1; subst u1])
        | clear_value u1)
    | with_reducible apply State.muAt_kept
    | with_reducible apply State.latchDie_kept
    | with_reducible apply State.setMeter_kept
    | with_reducible apply State.set32_kept
    | with_reducible apply Kept.foldl
    | ((with_reducible apply Kept.ite) <;> intro _))

theorem State.closeEpoch_kept {x0 s : State} (tick newEpoch : Nat) (hk : Kept x0 s) : Kept x0 (State.closeEpoch s tick newEpoch) := by
  unfold State.closeEpoch
  repeat' (first
    | with_reducible assumption
    | (refine id ?_; extract_lets +onlyGivenNames u1; first
        | ((refine (fun k1 : Kept x0 u1 => ?_) ?_) <;> [clear_value u1; subst u1])
        | clear_value u1)
    | with_reducible apply State.closeInterval_kept
    | with_reducible apply State.setMeter_kept
    | ((with_reducible apply Kept.ite) <;> intro _))

theorem secondBoundary_kept {x0 s : State} (tick : Nat) (hk : Kept x0 s) : Kept x0 (secondBoundary tick s) := by
  unfold secondBoundary
  repeat' (first
    | with_reducible assumption
    | (refine id ?_; extract_lets +onlyGivenNames u1; first
        | ((refine (fun k1 : Kept x0 u1 => ?_) ?_) <;> [clear_value u1; subst u1])
        | clear_value u1)
    | with_reducible apply State.muAt_kept
    | with_reducible apply State.setMeter_kept
    | with_reducible apply State.closeInterval_kept
    | ((with_reducible apply Kept.ite) <;> intro _))

theorem lateClose_kept {x0 s : State} (tick : Nat) (hk : Kept x0 s) : Kept x0 (lateClose tick s) := by
  unfold lateClose
  repeat' (first
    | with_reducible assumption
    | (refine id ?_; extract_lets +onlyGivenNames u1; ((refine (fun k1 : Kept x0 u1 => ?_) ?_) <;> [clear_value u1; subst u1]))
    | with_reducible apply State.audit_kept
    | with_reducible apply State.closeInterval_kept
    | with_reducible apply State.count64_kept
    | ((with_reducible apply Kept.ite) <;> intro _))

theorem State.putHeld_kept {x0 s : State} (hk : Kept x0 s) : Kept x0 (State.putHeld s) := by
  unfold State.putHeld
  repeat' (first
    | with_reducible assumption
    | with_reducible apply State.sf32_kept)

theorem State.drawWide_kept {x0 s : State} (r1 : Nat) (hk : Kept x0 s) : Kept x0 (State.drawWide s r1).2 := by
  induction r1 generalizing s with
  | zero =>
    unfold State.drawWide
    repeat' (first
      | with_reducible assumption)
  | succ m ih =>
    unfold State.drawWide
    repeat' (first
      | with_reducible assumption
      | with_reducible apply ih
      | with_reducible apply State.drawn_kept)

theorem recordSeal_kept {x0 s : State} (energies : List Nat) (hk : Kept x0 s) : Kept x0 (recordSeal energies s) := by
  unfold recordSeal
  repeat' (first
    | with_reducible assumption
    | (refine id ?_; extract_lets +onlyGivenNames u1; first
        | ((refine (fun k1 : Kept x0 u1 => ?_) ?_) <;> [clear_value u1; subst u1])
        | clear_value u1)
    | with_reducible apply State.audit_kept
    | with_reducible apply State.setMeter_kept
    | with_reducible apply State.drawWide_kept
    | with_reducible apply State.count64_kept
    | with_reducible apply State.sf32_kept
    | with_reducible apply State.w64_kept
    | with_reducible apply State.postEvent_kept
    | with_reducible apply State.putHeld_kept
    | ((with_reducible apply Kept.ite) <;> intro _)
    | split)

theorem State.clearMeter_kept {x0 s : State} (hk : Kept x0 s) : Kept x0 (State.clearMeter s) := by
  unfold State.clearMeter
  repeat' (first
    | with_reducible assumption
    | intro _
    | (refine id ?_; extract_lets +onlyGivenNames u1; ((refine (fun k1 : Kept x0 u1 => ?_) ?_) <;> [clear_value u1; subst u1]))
    | with_reducible apply State.w64_kept
    | with_reducible apply State.w32_kept
    | with_reducible apply Kept.foldl)

theorem muPowerUp_kept {x0 s : State} (fault : Nat) (hk : Kept x0 s) : Kept x0 (muPowerUp fault s) := by
  unfold muPowerUp
  repeat' (first
    | with_reducible assumption
    | (refine id ?_; extract_lets +onlyGivenNames u1; first
        | ((refine (fun k1 : Kept x0 u1 => ?_) ?_) <;> [clear_value u1; subst u1])
        | clear_value u1)
    | with_reducible apply State.clearMeter_kept
    | with_reducible apply State.drawn_kept
    | with_reducible apply State.setMeter_kept
    | with_reducible apply State.audit_kept
    | with_reducible apply State.set32_kept
    | ((with_reducible apply Kept.ite) <;> intro _))

theorem muClockSwitch_kept {x0 s : State} (own : Bool) (tick : Nat) (hk : Kept x0 s) : Kept x0 (muClockSwitch own tick s) := by
  unfold muClockSwitch
  repeat' (first
    | with_reducible assumption
    | (refine id ?_; extract_lets +onlyGivenNames u1; first
        | ((refine (fun k1 : Kept x0 u1 => ?_) ?_) <;> [clear_value u1; subst u1])
        | clear_value u1)
    | with_reducible apply State.muAt_kept
    | with_reducible apply State.setMeter_kept
    | with_reducible apply State.audit_kept
    | with_reducible apply State.sf32_kept
    | ((with_reducible apply Kept.ite) <;> intro _))

theorem vddMuRemoval_kept {x0 s : State} (hk : Kept x0 s) : Kept x0 (vddMuRemoval s) := by
  unfold vddMuRemoval
  repeat' (first
    | with_reducible assumption
    | with_reducible apply State.setMeter_kept
    | with_reducible apply State.clearMeter_kept)

theorem State.muAnswer_kept {x0 s : State} (d : Desc) (ok : Bool) (data : List Byte) (r0 r1 : Nat)
    (hk : Kept x0 s) : Kept x0 (State.muAnswer s d ok data r0 r1) := by
  unfold State.muAnswer
  repeat' (first
    | with_reducible assumption
    | (refine id ?_; extract_lets +onlyGivenNames u1; ((refine (fun k1 : Kept x0 u1 => ?_) ?_) <;> [clear_value u1; subst u1]))
    | with_reducible apply State.complete_kept
    | with_reducible apply State.emit_kept
    | ((with_reducible apply Kept.ite) <;> intro _))

theorem muRecords_kept {x0 s : State} (d : Desc) (hk : Kept x0 s) : Kept x0 (muRecords d s) := by
  unfold muRecords
  repeat' (first
    | with_reducible assumption
    | (refine id ?_; extract_lets +onlyGivenNames u1; first
        | ((refine (fun k1 : Kept x0 u1 => ?_) ?_) <;> [clear_value u1; subst u1])
        | clear_value u1)
    | with_reducible apply State.muAnswer_kept
    | with_reducible apply State.putHeld_kept
    | with_reducible apply State.setMeter_kept
    | ((with_reducible apply Kept.ite) <;> intro _))

theorem muAudit_kept {x0 s : State} (d : Desc) (hk : Kept x0 s) : Kept x0 (muAudit d s) := by
  unfold muAudit
  repeat' (first
    | with_reducible assumption
    | (refine id ?_; extract_lets +onlyGivenNames u1; clear_value u1)
    | with_reducible apply State.muAnswer_kept)

theorem muText_kept {x0 s : State} (d : Desc) (text : List Byte) (hk : Kept x0 s) : Kept x0 (muText d text s) := by
  unfold muText
  repeat' (first
    | with_reducible assumption
    | with_reducible apply State.muAnswer_kept)

theorem execMuPowerUp_kept {x0 s t0 : State} (fault : Fin 3) (hk : Kept x0 s) (ek : execMuPowerUp fault s = .next t0) : Kept x0 t0 := by
  unfold execMuPowerUp at ek
  rw [Host.Outcome.next.injEq] at ek; subst ek
  all_goals
    repeat' (first
      | with_reducible assumption
      | with_reducible apply muPowerUp_kept)

theorem execMuClockSwitch_kept {x0 s t0 : State} (own : Bool) (tick : Nat) (hk : Kept x0 s) (ek : execMuClockSwitch own tick s = .next t0) : Kept x0 t0 := by
  unfold execMuClockSwitch at ek
  rw [Host.Outcome.next.injEq] at ek; subst ek
  all_goals
    repeat' (first
      | with_reducible assumption
      | with_reducible apply muClockSwitch_kept)

theorem execSecondBoundary_kept {x0 s t0 : State} (tick : Nat) (hk : Kept x0 s) (ek : execSecondBoundary tick s = .next t0) : Kept x0 t0 := by
  unfold execSecondBoundary at ek
  rw [Host.Outcome.next.injEq] at ek; subst ek
  all_goals
    repeat' (first
      | with_reducible assumption
      | with_reducible apply secondBoundary_kept)

theorem execLateClose_kept {x0 s t0 : State} (tick : Nat) (hk : Kept x0 s) (ek : execLateClose tick s = .next t0) : Kept x0 t0 := by
  unfold execLateClose at ek
  rw [Host.Outcome.next.injEq] at ek; subst ek
  all_goals
    repeat' (first
      | with_reducible assumption
      | with_reducible apply lateClose_kept)

theorem execRecordSeal_kept {x0 s t0 : State} (energies : List Nat) (hk : Kept x0 s) (ek : execRecordSeal energies s = .next t0) : Kept x0 t0 := by
  unfold execRecordSeal at ek
  rw [Host.Outcome.next.injEq] at ek; subst ek
  all_goals
    repeat' (first
      | with_reducible assumption
      | with_reducible apply recordSeal_kept)

theorem execVddMuRemoval_kept {x0 s t0 : State} (hk : Kept x0 s) (ek : execVddMuRemoval s = .next t0) : Kept x0 t0 := by
  unfold execVddMuRemoval at ek
  rw [Host.Outcome.next.injEq] at ek; subst ek
  all_goals
    repeat' (first
      | with_reducible assumption
      | with_reducible apply vddMuRemoval_kept)

theorem execMuRecords_kept {x0 s t0 : State} (d : Desc) (hk : Kept x0 s) (ek : execMuRecords d s = .next t0) : Kept x0 t0 := by
  unfold execMuRecords at ek
  rw [Host.Outcome.next.injEq] at ek; subst ek
  all_goals
    repeat' (first
      | with_reducible assumption
      | with_reducible apply muRecords_kept)

theorem execMuAudit_kept {x0 s t0 : State} (d : Desc) (hk : Kept x0 s) (ek : execMuAudit d s = .next t0) : Kept x0 t0 := by
  unfold execMuAudit at ek
  rw [Host.Outcome.next.injEq] at ek; subst ek
  all_goals
    repeat' (first
      | with_reducible assumption
      | with_reducible apply muAudit_kept)

theorem execMuCert_kept {x0 s t0 : State} (d : Desc) (hk : Kept x0 s) (ek : execMuCert d s = .next t0) : Kept x0 t0 := by
  unfold execMuCert at ek
  rw [Host.Outcome.next.injEq] at ek; subst ek
  all_goals
    repeat' (first
      | with_reducible assumption
      | with_reducible apply muText_kept)

theorem execMuCalReport_kept {x0 s t0 : State} (d : Desc) (hk : Kept x0 s) (ek : execMuCalReport d s = .next t0) : Kept x0 t0 := by
  unfold execMuCalReport at ek
  rw [Host.Outcome.next.injEq] at ek; subst ek
  all_goals
    repeat' (first
      | with_reducible assumption
      | with_reducible apply muText_kept)

end Sys2Proof.Machine
end

