-- ==== Sys2Proof/Laws/KeepRamp.lean ====
section
/-!
SUPPORT. What the operations of Machine/Ramp.lean keep (Laws/Keep.lean).
-/

namespace Sys2Proof.Machine

theorem State.setRamp_kept {x0 s : State} (d : Nat) (r : Ramp) (hk : Kept x0 s) : Kept x0 (State.setRamp s d r) := by
  unfold State.setRamp
  repeat' (first
    | with_reducible assumption
    | (unfold Kept; dsimp only; with_reducible apply Kept.fold))

theorem State.rampTo_kept {x0 s : State} (d t : Nat) (hk : Kept x0 s) : Kept x0 (State.rampTo s d t) := by
  unfold State.rampTo
  repeat' (first
    | with_reducible assumption
    | (refine id ?_; extract_lets +onlyGivenNames u1; clear_value u1)
    | with_reducible apply State.setRamp_kept
    | with_reducible apply State.sf32_kept
    | with_reducible apply State.count64_kept)

theorem State.rampEngine_kept {x0 s : State} (d t : Nat) (hk : Kept x0 s) : Kept x0 (State.rampEngine s d t) := by
  unfold State.rampEngine
  repeat' (first
    | with_reducible assumption
    | (refine id ?_; extract_lets +onlyGivenNames u1; first
        | ((refine (fun k1 : Kept x0 u1 => ?_) ?_) <;> [clear_value u1; subst u1])
        | clear_value u1)
    | with_reducible apply State.rampTo_kept
    | with_reducible apply State.setRamp_kept)

theorem State.rampVector_kept {x0 s : State} (d c t last : Nat) (hk : Kept x0 s) : Kept x0 (State.rampVector s d c t last) := by
  unfold State.rampVector
  repeat' (first
    | with_reducible assumption
    | (refine id ?_; extract_lets +onlyGivenNames u1; first
        | ((refine (fun k1 : Kept x0 u1 => ?_) ?_) <;> [clear_value u1; subst u1])
        | clear_value u1)
    | with_reducible apply State.rampTo_kept
    | with_reducible apply State.setRamp_kept)

end Sys2Proof.Machine
end

