-- ==== Sys2Proof/Laws/KeepMatrix.lean ====
section
/-!
SUPPORT. What the operations of Machine/Matrix.lean keep (Laws/Keep.lean).
-/

namespace Sys2Proof.Machine

theorem prescan_kept {x0 s : State} (g e t : Nat) (hk : Kept x0 s) : Kept x0 (prescan g e t s) := by
  unfold prescan
  repeat' (first
    | with_reducible assumption
    | (refine id ?_; extract_lets +onlyGivenNames u1; first
        | ((refine (fun k1 : Kept x0 u1 => ?_) ?_) <;> [clear_value u1; subst u1])
        | clear_value u1)
    | with_reducible apply State.meshTo_kept
    | with_reducible apply State.setCore_kept
    | with_reducible apply State.scanTo_kept
    | with_reducible apply State.checkBounds_kept
    | ((with_reducible apply Kept.ite) <;> intro _)
    | split)

theorem passStart_kept {x0 s : State} (g e t : Nat) (hk : Kept x0 s) : Kept x0 (passStart g e t s) := by
  unfold passStart
  repeat' (first
    | with_reducible assumption
    | (refine id ?_; extract_lets +onlyGivenNames u1; first
        | ((refine (fun k1 : Kept x0 u1 => ?_) ?_) <;> [clear_value u1; subst u1])
        | clear_value u1)
    | with_reducible apply State.scanTo_kept
    | with_reducible apply State.meshTo_kept
    | with_reducible apply State.setCore_kept
    | with_reducible apply State.count64_kept
    | with_reducible apply State.checkBounds_kept
    | ((with_reducible apply Kept.ite) <;> intro _)
    | split)

theorem State.passEnd_kept {x0 s : State} (g e : Nat) (p : PassRun) (hk : Kept x0 s) : Kept x0 (State.passEnd s g e p) := by
  unfold State.passEnd
  repeat' (first
    | with_reducible assumption
    | (refine id ?_; extract_lets +onlyGivenNames u1; first
        | ((refine (fun k1 : Kept x0 u1 => ?_) ?_) <;> [clear_value u1; subst u1])
        | clear_value u1)
    | with_reducible apply State.orBits_kept
    | with_reducible apply State.count64_kept
    | with_reducible apply State.setCore_kept
    | split)

theorem accumulationCycle_kept {x0 s : State} (g e t : Nat) (hk : Kept x0 s) : Kept x0 (accumulationCycle g e t s) := by
  unfold accumulationCycle
  repeat' (first
    | with_reducible assumption
    | (refine id ?_; extract_lets +onlyGivenNames u1; clear_value u1)
    | with_reducible apply State.setCore_kept
    | with_reducible apply State.rampEngine_kept
    | with_reducible apply State.tapMacs_kept
    | with_reducible apply State.recordStopAt_kept
    | with_reducible apply State.passEnd_kept
    | ((with_reducible apply Kept.ite) <;> intro _)
    | split)

theorem drainStart_kept {x0 s : State} (g e t : Nat) (hk : Kept x0 s) : Kept x0 (drainStart g e t s) := by
  unfold drainStart
  repeat' (first
    | with_reducible assumption
    | (refine id ?_; extract_lets +onlyGivenNames u1; clear_value u1)
    | with_reducible apply State.setCore_kept
    | ((with_reducible apply Kept.ite) <;> intro _)
    | split)

theorem State.writeTile_kept {x0 s : State} (g e : Nat) (td : TileDrain) (card cyc : Nat)
    (hk : Kept x0 s) : Kept x0 (State.writeTile s g e td card cyc) := by
  unfold State.writeTile
  repeat' (first
    | with_reducible assumption
    | intro _
    | (refine id ?_; extract_lets +onlyGivenNames u1; clear_value u1)
    | with_reducible apply State.writeTimed_kept
    | with_reducible apply Kept.foldl)

theorem State.flushTiles_kept {x0 s : State} (g cyc : Nat) (hk : Kept x0 s) : Kept x0 (State.flushTiles s g cyc) := by
  unfold State.flushTiles
  repeat' (first
    | with_reducible assumption
    | intro _
    | with_reducible apply State.writeTile_kept
    | with_reducible apply Kept.foldl
    | split)

theorem tileComplete_kept {x0 s : State} (g e t : Nat) (hk : Kept x0 s) : Kept x0 (tileComplete g e t s) := by
  unfold tileComplete
  repeat' (first
    | with_reducible assumption
    | (refine id ?_; extract_lets +onlyGivenNames u1; first
        | ((refine (fun k1 : Kept x0 u1 => ?_) ?_) <;> [clear_value u1; subst u1])
        | clear_value u1)
    | with_reducible apply State.writeTile_kept
    | with_reducible apply State.checkBounds_kept
    | with_reducible apply State.orBits_kept
    | with_reducible apply State.count64_kept
    | with_reducible apply State.setCore_kept
    | with_reducible apply State.giveSignals_kept
    | with_reducible apply State.fenceCore_kept
    | with_reducible apply State.flushTiles_kept
    | with_reducible apply State.abortStep_kept
    | ((with_reducible apply Kept.ite) <;> intro _)
    | split)

theorem execPrescan_kept {x0 s t0 : State} (d : Fin 8) (c : Fin 16) (e : Fin 64) (t : Nat) (upset : List (BitVec 37)) (hk : Kept x0 s) (ek : execPrescan d c e t upset s = .next t0) : Kept x0 t0 := by
  unfold execPrescan at ek
  rw [Host.Outcome.next.injEq] at ek; subst ek
  all_goals
    repeat' (first
      | with_reducible assumption
      | with_reducible apply prescan_kept
      | with_reducible apply State.upset_kept)

theorem execPassStart_kept {x0 s t0 : State} (d : Fin 8) (c : Fin 16) (e : Fin 64) (t : Nat) (upset : List (BitVec 37)) (hk : Kept x0 s) (ek : execPassStart d c e t upset s = .next t0) : Kept x0 t0 := by
  unfold execPassStart at ek
  rw [Host.Outcome.next.injEq] at ek; subst ek
  all_goals
    repeat' (first
      | with_reducible assumption
      | with_reducible apply passStart_kept
      | with_reducible apply State.upset_kept)

theorem execAccumulationCycle_kept {x0 s t0 : State} (d : Fin 8) (c : Fin 16) (e : Fin 64) (t : Nat) (hk : Kept x0 s) (ek : execAccumulationCycle d c e t s = .next t0) : Kept x0 t0 := by
  unfold execAccumulationCycle at ek
  rw [Host.Outcome.next.injEq] at ek; subst ek
  all_goals
    repeat' (first
      | with_reducible assumption
      | with_reducible apply accumulationCycle_kept)

theorem execDrainStart_kept {x0 s t0 : State} (d : Fin 8) (c : Fin 16) (e : Fin 64) (t : Nat) (hk : Kept x0 s) (ek : execDrainStart d c e t s = .next t0) : Kept x0 t0 := by
  unfold execDrainStart at ek
  rw [Host.Outcome.next.injEq] at ek; subst ek
  all_goals
    repeat' (first
      | with_reducible assumption
      | with_reducible apply drainStart_kept)

theorem execTileComplete_kept {x0 s t0 : State} (d : Fin 8) (c : Fin 16) (e : Fin 64) (t : Nat) (hk : Kept x0 s) (ek : execTileComplete d c e t s = .next t0) : Kept x0 t0 := by
  unfold execTileComplete at ek
  rw [Host.Outcome.next.injEq] at ek; subst ek
  all_goals
    repeat' (first
      | with_reducible assumption
      | with_reducible apply tileComplete_kept)

end Sys2Proof.Machine
end

