-- ==== Sys2Proof/Laws/KeepVector.lean ====
section
/-!
SUPPORT. What the operations of Machine/Vector.lean keep (Laws/Keep.lean).
-/

namespace Sys2Proof.Machine

theorem groupEntry_kept {x0 s : State} (g t : Nat) (hk : Kept x0 s) : Kept x0 (groupEntry g t s) := by
  unfold groupEntry
  repeat' (first
    | with_reducible assumption
    | intro _
    | (refine id ?_; extract_lets +onlyGivenNames u1; first
        | ((refine (fun k1 : Kept x0 u1 => ?_) ?_) <;> [clear_value u1; subst u1])
        | clear_value u1)
    | with_reducible apply State.portTo_kept
    | with_reducible apply State.meshTo_kept
    | with_reducible apply State.rampVector_kept
    | with_reducible apply State.setCore_kept
    | with_reducible apply State.checkBounds_kept
    | with_reducible apply Kept.foldl
    | ((with_reducible apply Kept.ite) <;> intro _)
    | split)

theorem groupOutput_kept {x0 s : State} (g t : Nat) (hk : Kept x0 s) : Kept x0 (groupOutput g t s) := by
  unfold groupOutput
  repeat' (first
    | with_reducible assumption
    | (refine id ?_; extract_lets +onlyGivenNames u1; first
        | ((refine (fun k1 : Kept x0 u1 => ?_) ?_) <;> [clear_value u1; subst u1])
        | clear_value u1)
    | with_reducible apply State.portTo_kept
    | with_reducible apply State.meshTo_kept
    | with_reducible apply State.giveSignals_kept
    | with_reducible apply State.setFlight_kept
    | ((with_reducible apply Kept.ite) <;> intro _)
    | split)

theorem execGroupEntry_kept {x0 s t0 : State} (d : Fin 8) (c : Fin 16) (t : Nat) (upset : List (BitVec 37)) (hk : Kept x0 s) (ek : execGroupEntry d c t upset s = .next t0) : Kept x0 t0 := by
  unfold execGroupEntry at ek
  rw [Host.Outcome.next.injEq] at ek; subst ek
  all_goals
    repeat' (first
      | with_reducible assumption
      | with_reducible apply groupEntry_kept
      | with_reducible apply State.upset_kept)

theorem execGroupOutput_kept {x0 s t0 : State} (d : Fin 8) (c : Fin 16) (t : Nat) (hk : Kept x0 s) (ek : execGroupOutput d c t s = .next t0) : Kept x0 t0 := by
  unfold execGroupOutput at ek
  rw [Host.Outcome.next.injEq] at ek; subst ek
  all_goals
    repeat' (first
      | with_reducible assumption
      | with_reducible apply groupOutput_kept)

end Sys2Proof.Machine
end

