-- ==== Sys2Proof/Laws/KeepHeld.lean ====
section
/-!
SUPPORT. What the operations of Machine/Held.lean keep (Laws/Keep.lean).
-/

namespace Sys2Proof.Machine

theorem State.seeHold_kept {x0 s : State} (d t : Nat) (hk : Kept x0 s) : Kept x0 (State.seeHold s d t) := by
  unfold State.seeHold
  repeat' (first
    | with_reducible assumption
    | with_reducible apply State.setDie_kept
    | split)

theorem State.recordHold_kept {x0 s : State} (d t : Nat) (hk : Kept x0 s) : Kept x0 (State.recordHold s d t) := by
  unfold State.recordHold
  repeat' (first
    | with_reducible assumption
    | (refine id ?_; extract_lets +onlyGivenNames u1; first
        | ((refine (fun k1 : Kept x0 u1 => ?_) ?_) <;> [clear_value u1; subst u1])
        | clear_value u1)
    | with_reducible apply State.setDie_kept
    | with_reducible apply State.count64_kept
    | with_reducible apply State.clr32_kept
    | with_reducible apply State.w64_kept
    | split)

end Sys2Proof.Machine
end

