-- ==== Sys2Proof/Laws/KeepTocheas.lean ====
section
/-!
SUPPORT. What the operations of Machine/Tocheas.lean keep (Laws/Keep.lean).
-/

namespace Sys2Proof.Machine

theorem State.setPort_kept {x0 s : State} (p : Nat) (v : Port) (hk : Kept x0 s) : Kept x0 (State.setPort s p v) := by
  unfold State.setPort
  repeat' (first
    | with_reducible assumption
    | (unfold Kept; dsimp only; with_reducible apply Kept.fold))

theorem State.setPortPower_kept {x0 s : State} (p x : Nat) (hk : Kept x0 s) : Kept x0 (State.setPortPower s p x) := by
  unfold State.setPortPower
  repeat' (first
    | with_reducible assumption
    | with_reducible apply State.sf64_kept)

theorem State.portFlag_kept {x0 s : State} (p i : Nat) (hk : Kept x0 s) : Kept x0 (State.portFlag s p i) := by
  unfold State.portFlag
  repeat' (first
    | with_reducible assumption
    | with_reducible apply State.sf64_kept)

theorem State.deal_kept {x0 s : State} (p : Nat) (seq : Option Nat) (hk : Kept x0 s) : Kept x0 (State.deal s p seq) := by
  unfold State.deal
  repeat' (first
    | with_reducible assumption
    | (refine id ?_; extract_lets +onlyGivenNames u1; clear_value u1)
    | with_reducible apply State.setPort_kept)

theorem State.sendLink_kept {x0 s : State} (p : Nat) (nak : Bool) (spareOp : Nat) (hk : Kept x0 s) : Kept x0 (State.sendLink s p nak spareOp) := by
  unfold State.sendLink
  repeat' (first
    | with_reducible assumption
    | (refine id ?_; extract_lets +onlyGivenNames u1; first
        | ((refine (fun k1 : Kept x0 u1 => ?_) ?_) <;> [clear_value u1; subst u1])
        | clear_value u1)
    | with_reducible apply State.deal_kept
    | with_reducible apply State.emit_kept
    | with_reducible apply State.setPort_kept)

theorem State.emitUnit_kept {x0 s : State} (p seq : Nat) (u : FlowUnit) (hk : Kept x0 s) : Kept x0 (State.emitUnit s p seq u) := by
  unfold State.emitUnit
  repeat' (first
    | with_reducible assumption
    | (refine id ?_; extract_lets +onlyGivenNames u1; first
        | ((refine (fun k1 : Kept x0 u1 => ?_) ?_) <;> [clear_value u1; subst u1])
        | clear_value u1)
    | with_reducible apply State.deal_kept
    | with_reducible apply State.emit_kept
    | with_reducible apply State.setPort_kept)

theorem State.trySend_kept {x0 s : State} (p : Nat) (u : FlowUnit) (hk : Kept x0 s) : Kept x0 (State.trySend s p u).1 := by
  unfold State.trySend
  repeat' (first
    | with_reducible assumption
    | (refine id ?_; extract_lets +onlyGivenNames u1; clear_value u1)
    | with_reducible apply State.setPort_kept
    | with_reducible apply State.portFlag_kept
    | with_reducible apply State.emitUnit_kept
    | ((with_reducible apply Kept.ite) <;> intro _)
    | split)

theorem State.sendWaiting_kept {x0 s : State} (p : Nat) (blocked : List Nat) (r3 : List FlowUnit)
    (hk : Kept x0 s) : Kept x0 (State.sendWaiting s p blocked r3).1 := by
  induction r3 generalizing s p blocked with
  | nil =>
    unfold State.sendWaiting
    repeat' (first
      | with_reducible assumption)
  | cons m ms ih =>
    unfold State.sendWaiting
    repeat' (first
      | with_reducible assumption
      | (refine id ?_; extract_lets +onlyGivenNames u1; ((refine (fun k1 : Kept x0 u1.1 => ?_) ?_) <;> [clear_value u1; subst u1]))
      | with_reducible apply ih
      | with_reducible apply State.trySend_kept
      | with_reducible refine Kept.fst_eq (by with_reducible assumption) ?_
      | split)

theorem State.pumpPort_kept {x0 s : State} (p : Nat) (hk : Kept x0 s) : Kept x0 (State.pumpPort s p) := by
  unfold State.pumpPort
  repeat' (first
    | with_reducible assumption
    | (refine id ?_; extract_lets +onlyGivenNames u1; first
        | ((refine (fun k1 : Kept x0 u1.1 => ?_) ?_) <;> [clear_value u1; subst u1])
        | clear_value u1)
    | with_reducible apply State.sendWaiting_kept
    | with_reducible apply State.setPort_kept)

theorem State.queueUnit_kept {x0 s : State} (p : Nat) (u : FlowUnit) (hk : Kept x0 s) : Kept x0 (State.queueUnit s p u) := by
  unfold State.queueUnit
  repeat' (first
    | with_reducible assumption
    | with_reducible apply State.pumpPort_kept
    | with_reducible apply State.setPort_kept)

theorem State.startRetrain_kept {x0 s : State} (p : Nat) (hk : Kept x0 s) : Kept x0 (State.startRetrain s p) := by
  unfold State.startRetrain
  repeat' (first
    | with_reducible assumption
    | with_reducible apply State.setPort_kept)

theorem State.resend_kept {x0 s : State} (p start : Nat) (hk : Kept x0 s) : Kept x0 (State.resend s p start) := by
  unfold State.resend
  repeat' (first
    | with_reducible assumption
    | intro _
    | with_reducible apply State.emitUnit_kept
    | with_reducible apply Kept.foldl)

theorem State.replayFrom_kept {x0 s : State} (p start : Nat) (hk : Kept x0 s) : Kept x0 (State.replayFrom s p start) := by
  unfold State.replayFrom
  repeat' (first
    | with_reducible assumption
    | (refine id ?_; extract_lets +onlyGivenNames u1; first
        | ((refine (fun k1 : Kept x0 u1 => ?_) ?_) <;> [clear_value u1; subst u1])
        | clear_value u1)
    | with_reducible apply State.count64_kept
    | with_reducible apply State.portFlag_kept
    | with_reducible apply State.resend_kept
    | with_reducible apply State.setPort_kept
    | with_reducible apply State.startRetrain_kept
    | ((with_reducible apply Kept.ite) <;> intro _))

theorem State.takeAck_kept {x0 s : State} (p ack : Nat) (hk : Kept x0 s) : Kept x0 (State.takeAck s p ack) := by
  unfold State.takeAck
  repeat' (first
    | with_reducible assumption
    | (refine id ?_; extract_lets +onlyGivenNames u1; clear_value u1)
    | with_reducible apply State.setPort_kept
    | ((with_reducible apply Kept.ite) <;> intro _))

theorem State.takeGrant_kept {x0 s : State} (p v g : Nat) (hk : Kept x0 s) : Kept x0 (State.takeGrant s p v g) := by
  unfold State.takeGrant
  repeat' (first
    | with_reducible assumption
    | (refine id ?_; extract_lets +onlyGivenNames u1; clear_value u1)
    | with_reducible apply State.setPort_kept
    | ((with_reducible apply Kept.ite) <;> intro _))

theorem State.takeNak_kept {x0 s : State} (p start : Nat) (hk : Kept x0 s) : Kept x0 (State.takeNak s p start) := by
  unfold State.takeNak
  repeat' (first
    | with_reducible assumption
    | (refine id ?_; extract_lets +onlyGivenNames u1; clear_value u1)
    | with_reducible apply State.replayFrom_kept
    | with_reducible apply State.startRetrain_kept
    | ((with_reducible apply Kept.ite) <;> intro _))

theorem State.takeRet_kept {x0 s : State} (p bits : Nat) (hk : Kept x0 s) : Kept x0 (State.takeRet s p bits) := by
  unfold State.takeRet
  repeat' (first
    | with_reducible assumption
    | (refine id ?_; extract_lets +onlyGivenNames u1; clear_value u1)
    | with_reducible apply State.takeAck_kept
    | with_reducible apply State.takeGrant_kept
    | ((with_reducible apply Kept.ite) <;> intro _))

theorem State.discardUnit_kept {x0 s : State} (p : Nat) (hk : Kept x0 s) : Kept x0 (State.discardUnit s p) := by
  unfold State.discardUnit
  repeat' (first
    | with_reducible assumption
    | (refine id ?_; extract_lets +onlyGivenNames u1; first
        | ((refine (fun k1 : Kept x0 u1 => ?_) ?_) <;> [clear_value u1; subst u1])
        | clear_value u1)
    | with_reducible apply State.count64_kept
    | with_reducible apply State.sendLink_kept
    | with_reducible apply State.setPort_kept
    | ((with_reducible apply Kept.ite) <;> intro _))

theorem State.takeHour_kept {x0 s : State} (p arrived opened len : Nat) (coupled : Bool)
    (hk : Kept x0 s) : Kept x0 (State.takeHour s p arrived opened len coupled) := by
  unfold State.takeHour
  repeat' (first
    | with_reducible assumption
    | (refine id ?_; extract_lets +onlyGivenNames u1; first
        | ((refine (fun k1 : Kept x0 u1 => ?_) ?_) <;> [clear_value u1; subst u1])
        | clear_value u1)
    | with_reducible apply State.setPort_kept
    | with_reducible apply State.set32_kept
    | with_reducible apply State.postEvent_kept
    | ((with_reducible apply Kept.ite) <;> intro _))

theorem State.takePower_kept {x0 s : State} (p far : Nat) (hk : Kept x0 s) : Kept x0 (State.takePower s p far) := by
  unfold State.takePower
  repeat' (first
    | with_reducible assumption
    | (refine id ?_; extract_lets +onlyGivenNames u1; clear_value u1)
    | with_reducible apply State.sendLink_kept
    | with_reducible apply State.setPortPower_kept
    | with_reducible apply State.setPort_kept
    | ((with_reducible apply Kept.ite) <;> intro _))

theorem State.setLane_kept {x0 s : State} (l x : Nat) (hk : Kept x0 s) : Kept x0 (State.setLane s l x) := by
  unfold State.setLane
  repeat' (first
    | with_reducible assumption
    | with_reducible apply State.sf64_kept)

theorem State.portGone_kept {x0 s : State} (p : Nat) (hk : Kept x0 s) : Kept x0 (State.portGone s p) := by
  unfold State.portGone
  repeat' (first
    | with_reducible assumption
    | (refine id ?_; extract_lets +onlyGivenNames u1; first
        | ((refine (fun k1 : Kept x0 u1 => ?_) ?_) <;> [clear_value u1; subst u1])
        | clear_value u1)
    | with_reducible apply State.setPort_kept
    | with_reducible apply State.postEvent_kept
    | with_reducible apply State.portFlag_kept)

theorem State.applyChange_kept {x0 s : State} (p : Nat) (c : LaneChange) (hk : Kept x0 s) : Kept x0 (State.applyChange s p c) := by
  unfold State.applyChange
  repeat' (first
    | with_reducible assumption
    | intro _
    | (refine id ?_; extract_lets +onlyGivenNames u1; first
        | ((refine (fun k1 : Kept x0 u1 => ?_) ?_) <;> [clear_value u1; subst u1])
        | clear_value u1)
    | with_reducible apply State.count64_kept
    | with_reducible apply State.setLane_kept
    | with_reducible apply State.setPort_kept
    | with_reducible apply State.pumpPort_kept
    | with_reducible apply State.sendLink_kept
    | with_reducible apply State.portFlag_kept
    | with_reducible apply State.sf64_kept
    | with_reducible apply State.portGone_kept
    | with_reducible apply Kept.foldl
    | ((with_reducible apply Kept.ite) <;> intro _))

theorem State.beginChange_kept {x0 s : State} (p lane : Nat) (hk : Kept x0 s) : Kept x0 (State.beginChange s p lane) := by
  unfold State.beginChange
  repeat' (first
    | with_reducible assumption
    | (refine id ?_; extract_lets +onlyGivenNames u1; clear_value u1)
    | with_reducible apply State.sendLink_kept
    | with_reducible apply State.setPort_kept)

theorem State.nextChange_kept {x0 s : State} (p : Nat) (hk : Kept x0 s) : Kept x0 (State.nextChange s p) := by
  unfold State.nextChange
  repeat' (first
    | with_reducible assumption
    | (refine id ?_; extract_lets +onlyGivenNames u1; clear_value u1)
    | with_reducible apply State.beginChange_kept
    | with_reducible apply State.setPort_kept
    | ((with_reducible apply Kept.ite) <;> intro _)
    | split)

theorem State.takeSpareOp_kept {x0 s : State} (p op lane spare seqAt farEnd : Nat)
    (hk : Kept x0 s) : Kept x0 (State.takeSpareOp s p op lane spare seqAt farEnd) := by
  unfold State.takeSpareOp
  repeat' (first
    | with_reducible assumption
    | (refine id ?_; extract_lets +onlyGivenNames u1; clear_value u1)
    | with_reducible apply State.sendLink_kept
    | with_reducible apply State.setPort_kept
    | ((with_reducible apply Kept.ite) <;> intro _)
    | split)

theorem State.countFec_kept {x0 s : State} (p corrected uncorr : Nat) (hk : Kept x0 s) : Kept x0 (State.countFec s p corrected uncorr) := by
  unfold State.countFec
  repeat' (first
    | with_reducible assumption
    | with_reducible apply State.count64_kept)

theorem takeLinkUnit_kept {x0 s : State} (p x : Nat) (hk : Kept x0 s) : Kept x0 (takeLinkUnit p x s) := by
  unfold takeLinkUnit
  repeat' (first
    | with_reducible assumption
    | intro _
    | (refine id ?_; extract_lets +onlyGivenNames u1; ((refine (fun k1 : Kept x0 u1 => ?_) ?_) <;> [clear_value u1; subst u1]))
    | with_reducible apply State.discardUnit_kept
    | with_reducible apply State.portFlag_kept
    | with_reducible apply State.takeAck_kept
    | with_reducible apply State.takeRet_kept
    | with_reducible apply State.takeGrant_kept
    | with_reducible apply State.takeHour_kept
    | with_reducible apply State.takePower_kept
    | with_reducible apply State.takeSpareOp_kept
    | with_reducible apply State.takeNak_kept
    | with_reducible apply State.pumpPort_kept
    | with_reducible apply Kept.foldl
    | ((with_reducible apply Kept.ite) <;> intro _))

theorem tclLink_kept {x0 s : State} (p x corrected uncorr : Nat) (hk : Kept x0 s) : Kept x0 (tclLink p x corrected uncorr s) := by
  unfold tclLink
  repeat' (first
    | with_reducible assumption
    | with_reducible apply takeLinkUnit_kept
    | with_reducible apply State.countFec_kept
    | ((with_reducible apply Kept.ite) <;> intro _))

theorem linkUnitTimer_kept {x0 s : State} (p : Nat) (hk : Kept x0 s) : Kept x0 (linkUnitTimer p s) := by
  unfold linkUnitTimer
  repeat' (first
    | with_reducible assumption
    | with_reducible apply State.sendLink_kept
    | ((with_reducible apply Kept.ite) <;> intro _))

theorem tclAckTimer_kept {x0 s : State} (p : Nat) (hk : Kept x0 s) : Kept x0 (tclAckTimer p s) := by
  unfold tclAckTimer
  repeat' (first
    | with_reducible assumption
    | with_reducible apply State.sendLink_kept
    | ((with_reducible apply Kept.ite) <;> intro _))

theorem nakRepeatTimer_kept {x0 s : State} (p : Nat) (hk : Kept x0 s) : Kept x0 (nakRepeatTimer p s) := by
  unfold nakRepeatTimer
  repeat' (first
    | with_reducible assumption
    | with_reducible apply State.sendLink_kept
    | ((with_reducible apply Kept.ite) <;> intro _))

theorem silentLossReplay_kept {x0 s : State} (p : Nat) (hk : Kept x0 s) : Kept x0 (silentLossReplay p s) := by
  unfold silentLossReplay
  repeat' (first
    | with_reducible assumption
    | with_reducible apply State.replayFrom_kept
    | ((with_reducible apply Kept.ite) <;> intro _)
    | split)

theorem portRetrainComplete_kept {x0 s : State} (p : Nat) (ok : Bool) (hk : Kept x0 s) : Kept x0 (portRetrainComplete p ok s) := by
  unfold portRetrainComplete
  repeat' (first
    | with_reducible assumption
    | intro _
    | (refine id ?_; extract_lets +onlyGivenNames u1; first
        | ((refine (fun k1 : Kept x0 u1 => ?_) ?_) <;> [clear_value u1; subst u1])
        | clear_value u1)
    | with_reducible apply State.count64_kept
    | with_reducible apply State.portFlag_kept
    | with_reducible apply State.setPort_kept
    | with_reducible apply State.pumpPort_kept
    | with_reducible apply State.sendLink_kept
    | with_reducible apply State.resend_kept
    | with_reducible apply State.portGone_kept
    | with_reducible apply Kept.elim
    | ((with_reducible apply Kept.ite) <;> intro _))

theorem tclLaneFailure_kept {x0 s : State} (lane : Nat) (hk : Kept x0 s) : Kept x0 (tclLaneFailure lane s) := by
  unfold tclLaneFailure
  repeat' (first
    | with_reducible assumption
    | with_reducible apply State.beginChange_kept
    | (refine id ?_; extract_lets +onlyGivenNames u1; clear_value u1)
    | with_reducible apply State.sendLink_kept
    | with_reducible apply State.setPort_kept
    | ((with_reducible apply Kept.ite) <;> intro _)
    | split)

theorem laneReplacementComplete_kept {x0 s : State} (p : Nat) (hk : Kept x0 s) : Kept x0 (laneReplacementComplete p s) := by
  unfold laneReplacementComplete
  repeat' (first
    | with_reducible assumption
    | with_reducible apply State.nextChange_kept
    | with_reducible apply State.applyChange_kept
    | ((with_reducible apply Kept.ite) <;> intro _)
    | split)

theorem sleepIdleExpiry_kept {x0 s : State} (p : Nat) (hk : Kept x0 s) : Kept x0 (sleepIdleExpiry p s) := by
  unfold sleepIdleExpiry
  repeat' (first
    | with_reducible assumption
    | (refine id ?_; extract_lets +onlyGivenNames u1; first
        | ((refine (fun k1 : Kept x0 u1 => ?_) ?_) <;> [clear_value u1; subst u1])
        | clear_value u1)
    | with_reducible apply State.setPort_kept
    | with_reducible apply State.sendLink_kept
    | ((with_reducible apply Kept.ite) <;> intro _))

theorem sleepEntryComplete_kept {x0 s : State} (p : Nat) (hk : Kept x0 s) : Kept x0 (sleepEntryComplete p s) := by
  unfold sleepEntryComplete
  repeat' (first
    | with_reducible assumption
    | with_reducible apply State.setPortPower_kept
    | ((with_reducible apply Kept.ite) <;> intro _))

theorem portWakeComplete_kept {x0 s : State} (p : Nat) (hk : Kept x0 s) : Kept x0 (portWakeComplete p s) := by
  unfold portWakeComplete
  repeat' (first
    | with_reducible assumption
    | with_reducible apply State.pumpPort_kept
    | with_reducible apply State.setPort_kept
    | with_reducible apply State.setPortPower_kept
    | ((with_reducible apply Kept.ite) <;> intro _))

theorem execTclLink_kept {x0 s t0 : State} (p : Fin 12) (bits : BitVec 2048) (corrected uncorr : Nat) (hk : Kept x0 s) (ek : execTclLink p bits corrected uncorr s = .next t0) : Kept x0 t0 := by
  unfold execTclLink at ek
  rw [Host.Outcome.next.injEq] at ek; subst ek
  all_goals
    repeat' (first
      | with_reducible assumption
      | with_reducible apply tclLink_kept)

theorem execLinkUnitTimer_kept {x0 s t0 : State} (p : Fin 12) (hk : Kept x0 s) (ek : execLinkUnitTimer p s = .next t0) : Kept x0 t0 := by
  unfold execLinkUnitTimer at ek
  rw [Host.Outcome.next.injEq] at ek; subst ek
  all_goals
    repeat' (first
      | with_reducible assumption
      | with_reducible apply linkUnitTimer_kept)

theorem execTclAckTimer_kept {x0 s t0 : State} (p : Fin 12) (hk : Kept x0 s) (ek : execTclAckTimer p s = .next t0) : Kept x0 t0 := by
  unfold execTclAckTimer at ek
  rw [Host.Outcome.next.injEq] at ek; subst ek
  all_goals
    repeat' (first
      | with_reducible assumption
      | with_reducible apply tclAckTimer_kept)

theorem execNakRepeatTimer_kept {x0 s t0 : State} (p : Fin 12) (hk : Kept x0 s) (ek : execNakRepeatTimer p s = .next t0) : Kept x0 t0 := by
  unfold execNakRepeatTimer at ek
  rw [Host.Outcome.next.injEq] at ek; subst ek
  all_goals
    repeat' (first
      | with_reducible assumption
      | with_reducible apply nakRepeatTimer_kept)

theorem execSilentLossReplay_kept {x0 s t0 : State} (p : Fin 12) (hk : Kept x0 s) (ek : execSilentLossReplay p s = .next t0) : Kept x0 t0 := by
  unfold execSilentLossReplay at ek
  rw [Host.Outcome.next.injEq] at ek; subst ek
  all_goals
    repeat' (first
      | with_reducible assumption
      | with_reducible apply silentLossReplay_kept)

theorem execPortRetrainComplete_kept {x0 s t0 : State} (p : Fin 12) (ok : Bool) (hk : Kept x0 s) (ek : execPortRetrainComplete p ok s = .next t0) : Kept x0 t0 := by
  unfold execPortRetrainComplete at ek
  rw [Host.Outcome.next.injEq] at ek; subst ek
  all_goals
    repeat' (first
      | with_reducible assumption
      | with_reducible apply portRetrainComplete_kept)

theorem execTclLaneFailure_kept {x0 s t0 : State} (lane : Fin 104) (hk : Kept x0 s) (ek : execTclLaneFailure lane s = .next t0) : Kept x0 t0 := by
  unfold execTclLaneFailure at ek
  rw [Host.Outcome.next.injEq] at ek; subst ek
  all_goals
    repeat' (first
      | with_reducible assumption
      | with_reducible apply tclLaneFailure_kept)

theorem execLaneReplacementComplete_kept {x0 s t0 : State} (p : Fin 12) (hk : Kept x0 s) (ek : execLaneReplacementComplete p s = .next t0) : Kept x0 t0 := by
  unfold execLaneReplacementComplete at ek
  rw [Host.Outcome.next.injEq] at ek; subst ek
  all_goals
    repeat' (first
      | with_reducible assumption
      | with_reducible apply laneReplacementComplete_kept)

theorem execSleepIdleExpiry_kept {x0 s t0 : State} (p : Fin 12) (hk : Kept x0 s) (ek : execSleepIdleExpiry p s = .next t0) : Kept x0 t0 := by
  unfold execSleepIdleExpiry at ek
  rw [Host.Outcome.next.injEq] at ek; subst ek
  all_goals
    repeat' (first
      | with_reducible assumption
      | with_reducible apply sleepIdleExpiry_kept)

theorem execSleepEntryComplete_kept {x0 s t0 : State} (p : Fin 12) (hk : Kept x0 s) (ek : execSleepEntryComplete p s = .next t0) : Kept x0 t0 := by
  unfold execSleepEntryComplete at ek
  rw [Host.Outcome.next.injEq] at ek; subst ek
  all_goals
    repeat' (first
      | with_reducible assumption
      | with_reducible apply sleepEntryComplete_kept)

theorem execPortWakeComplete_kept {x0 s t0 : State} (p : Fin 12) (hk : Kept x0 s) (ek : execPortWakeComplete p s = .next t0) : Kept x0 t0 := by
  unfold execPortWakeComplete at ek
  rw [Host.Outcome.next.injEq] at ek; subst ek
  all_goals
    repeat' (first
      | with_reducible assumption
      | with_reducible apply portWakeComplete_kept)

end Sys2Proof.Machine
end

