-- ==== Sys2Proof/Laws/KeepRoute.lean ====
section
/-!
SUPPORT. What the operations of Machine/Route.lean keep (Laws/Keep.lean).
-/

namespace Sys2Proof.Machine

theorem State.countUnreachable_kept {x0 s : State} (hk : Kept x0 s) : Kept x0 (State.countUnreachable s) := by
  unfold State.countUnreachable
  repeat' (first
    | with_reducible assumption
    | with_reducible apply State.count64_kept
    | with_reducible apply State.set32_kept)

theorem State.countRouteErr_kept {x0 s : State} (hk : Kept x0 s) : Kept x0 (State.countRouteErr s) := by
  unfold State.countRouteErr
  repeat' (first
    | with_reducible assumption
    | with_reducible apply State.count64_kept
    | with_reducible apply State.set32_kept)

theorem State.lateDrop_kept {x0 s : State} (hk : Kept x0 s) : Kept x0 (State.lateDrop s) := by
  unfold State.lateDrop
  repeat' (first
    | with_reducible assumption
    | with_reducible apply State.count64_kept)

theorem State.setTxn_kept {x0 s : State} (tag : Nat) (v : Option Txn) (hk : Kept x0 s) : Kept x0 (State.setTxn s tag v) := by
  unfold State.setTxn
  repeat' (first
    | with_reducible assumption
    | with_reducible apply State.sf64_kept
    | ((with_reducible apply Kept.ite) <;> intro _)
    | (unfold Kept; dsimp only; with_reducible apply Kept.fold))

theorem State.reportLines_kept {x0 s : State} (d die tag part gen r6 r7 : Nat)
    (hk : Kept x0 s) : Kept x0 (State.reportLines s d die tag part gen r6 r7) := by
  induction r6 generalizing s d die tag part gen r7 with
  | zero =>
    unfold State.reportLines
    repeat' (first
      | with_reducible assumption)
  | succ m ih =>
    unfold State.reportLines
    repeat' (first
      | with_reducible assumption
      | (refine id ?_; extract_lets +onlyGivenNames u1; clear_value u1)
      | with_reducible apply ih
      | with_reducible apply State.routeMsg_kept
      | ((with_reducible apply Kept.ite) <;> intro _))

theorem State.endTxn_kept {x0 s : State} (tag : Nat) (failed : Bool) (hk : Kept x0 s) : Kept x0 (State.endTxn s tag failed) := by
  unfold State.endTxn
  repeat' (first
    | with_reducible assumption
    | (refine id ?_; extract_lets +onlyGivenNames u1; first
        | ((refine (fun k1 : Kept x0 u1 => ?_) ?_) <;> [clear_value u1; subst u1])
        | clear_value u1)
    | with_reducible apply State.setTxn_kept
    | with_reducible apply State.reportLines_kept
    | ((with_reducible apply Kept.ite) <;> intro _)
    | split
    | (unfold Kept; dsimp only; with_reducible apply Kept.fold))

theorem State.stopFor_kept {x0 s : State} (n status : Nat) (hk : Kept x0 s) : Kept x0 (State.stopFor s n status) := by
  unfold State.stopFor
  repeat' (first
    | with_reducible assumption
    | with_reducible apply State.recordStop_kept
    | ((with_reducible apply Kept.ite) <;> intro _))

theorem State.quarantined_kept {x0 s : State} (tag : Nat) (hk : Kept x0 s) : Kept x0 (State.quarantined s tag) := by
  unfold State.quarantined
  repeat' (first
    | with_reducible assumption
    | (unfold Kept; dsimp only; with_reducible apply Kept.fold))

theorem State.endPartTxns_kept {x0 s : State} (n : Nat) (hk : Kept x0 s) : Kept x0 (State.endPartTxns s n) := by
  unfold State.endPartTxns
  repeat' (first
    | with_reducible assumption
    | intro _
    | (refine id ?_; extract_lets +onlyGivenNames u1; first
        | ((refine (fun k1 : Kept x0 u1 => ?_) ?_) <;> [clear_value u1; subst u1])
        | clear_value u1)
    | with_reducible apply State.quarantined_kept
    | with_reducible apply State.setTxn_kept
    | with_reducible apply Kept.foldl
    | (unfold Kept; dsimp only; with_reducible apply Kept.fold))

theorem State.takeResponse_kept {x0 s : State} (u : FlowUnit) (hk : Kept x0 s) : Kept x0 (State.takeResponse s u) := by
  unfold State.takeResponse
  repeat' (first
    | with_reducible assumption
    | intro _
    | (refine id ?_; extract_lets +onlyGivenNames u1; first
        | ((refine (fun k1 : Kept x0 u1 => ?_) ?_) <;> [clear_value u1; subst u1])
        | clear_value u1)
    | with_reducible apply State.sf64_kept
    | with_reducible apply State.stopFor_kept
    | with_reducible apply State.lateDrop_kept
    | with_reducible apply State.endTxn_kept
    | with_reducible apply State.routeFrame_kept
    | with_reducible apply State.setTxn_kept
    | with_reducible apply Kept.elim
    | ((with_reducible apply Kept.ite) <;> intro _)
    | split)

theorem State.sendResponse_kept {x0 s : State} (u : FlowUnit) (hk : Kept x0 s) : Kept x0 (State.sendResponse s u) := by
  unfold State.sendResponse
  repeat' (first
    | with_reducible assumption
    | with_reducible apply State.takeResponse_kept
    | with_reducible apply State.queueUnit_kept
    | with_reducible apply State.countUnreachable_kept
    | with_reducible apply State.countRouteErr_kept
    | split)

theorem State.endAnswered_kept {x0 s : State} (u : FlowUnit) (hk : Kept x0 s) : Kept x0 (State.endAnswered s u) := by
  unfold State.endAnswered
  repeat' (first
    | with_reducible assumption
    | (unfold Kept; dsimp only; with_reducible apply Kept.fold)
    | ((with_reducible apply Kept.ite) <;> intro _))

theorem State.refuseUnit_kept {x0 s : State} (u : FlowUnit) (code : Nat) (hk : Kept x0 s) : Kept x0 (State.refuseUnit s u code) := by
  unfold State.refuseUnit
  repeat' (first
    | with_reducible assumption
    | with_reducible apply State.endAnswered_kept
    | (refine id ?_; extract_lets +onlyGivenNames u1; ((refine (fun k1 : Kept x0 u1 => ?_) ?_) <;> [clear_value u1; subst u1]))
    | with_reducible apply State.sendResponse_kept
    | ((with_reducible apply Kept.ite) <;> intro _)
    | (unfold Kept; dsimp only; with_reducible apply Kept.fold))

theorem State.sendReport_kept {x0 s : State} (u : FlowUnit) (die : Nat) (hk : Kept x0 s) : Kept x0 (State.sendReport s u die) := by
  unfold State.sendReport
  repeat' (first
    | with_reducible assumption
    | with_reducible apply State.sendResponse_kept)

theorem State.deliverWrite_kept {x0 s : State} (u : FlowUnit) (t : Nat) (hk : Kept x0 s) : Kept x0 (State.deliverWrite s u t) := by
  unfold State.deliverWrite
  repeat' (first
    | with_reducible assumption
    | intro _
    | (refine id ?_; extract_lets +onlyGivenNames u1; first
        | ((refine (fun k1 : Kept x0 u1 => ?_) ?_) <;> [clear_value u1; subst u1])
        | clear_value u1)
    | with_reducible apply State.refuseUnit_kept
    | with_reducible apply State.boundFault_kept
    | with_reducible apply State.storeAt_kept
    | with_reducible apply State.sendReport_kept
    | with_reducible apply Kept.foldl
    | ((with_reducible apply Kept.ite) <;> intro _)
    | split)

theorem State.deliverRead_kept {x0 s : State} (u : FlowUnit) (t : Nat) (hk : Kept x0 s) : Kept x0 (State.deliverRead s u t) := by
  unfold State.deliverRead
  repeat' (first
    | with_reducible assumption
    | intro _
    | (refine id ?_; extract_lets +onlyGivenNames u1; first
        | ((refine (fun k1 : Kept x0 u1 => ?_) ?_) <;> [clear_value u1; subst u1])
        | clear_value u1)
    | with_reducible apply State.refuseUnit_kept
    | with_reducible apply State.boundFault_kept
    | with_reducible apply State.caughtUp_kept
    | with_reducible apply State.noticed_kept
    | with_reducible apply State.sendResponse_kept
    | with_reducible apply Kept.foldl
    | split)

theorem State.signalAt_kept {x0 s : State} (n g index kind op value t : Nat)
    (hk : Kept x0 s) : Kept x0 (State.signalAt s n g index kind op value t) := by
  unfold State.signalAt
  repeat' (first
    | with_reducible assumption
    | (refine id ?_; extract_lets +onlyGivenNames u1; clear_value u1)
    | with_reducible apply State.signalHere_kept
    | with_reducible apply State.recordStop_kept
    | with_reducible apply State.rasLast_kept
    | with_reducible apply State.set32_kept
    | ((with_reducible apply Kept.ite) <;> intro _))

theorem State.deliverSignal_kept {x0 s : State} (u : FlowUnit) (t : Nat) (hk : Kept x0 s) : Kept x0 (State.deliverSignal s u t) := by
  unfold State.deliverSignal
  repeat' (first
    | with_reducible assumption
    | with_reducible apply State.refuseUnit_kept
    | with_reducible apply State.signalAt_kept
    | split)

theorem State.deliverReduce_kept {x0 s : State} (u : FlowUnit) (item rank : Nat) (result : Bool) (t : Nat)
    (hk : Kept x0 s) : Kept x0 (State.deliverReduce s u item rank result t) := by
  unfold State.deliverReduce
  repeat' (first
    | with_reducible assumption
    | intro _
    | (refine id ?_; extract_lets +onlyGivenNames u1; first
        | ((refine (fun k1 : Kept x0 u1 => ?_) ?_) <;> [clear_value u1; subst u1])
        | clear_value u1)
    | with_reducible apply State.shareResult_kept
    | with_reducible apply State.addOperand_kept
    | with_reducible apply State.sendReport_kept
    | with_reducible apply Kept.foldl
    | ((with_reducible apply Kept.ite) <;> intro _)
    | split)

theorem State.deliverRequest_kept {x0 s : State} (u : FlowUnit) (item rank : Nat) (result : Bool) (t : Nat)
    (hk : Kept x0 s) : Kept x0 (State.deliverRequest s u item rank result t) := by
  unfold State.deliverRequest
  repeat' (first
    | with_reducible assumption
    | with_reducible apply State.endAnswered_kept
    | with_reducible apply State.refuseUnit_kept
    | with_reducible apply State.deliverWrite_kept
    | with_reducible apply State.deliverRead_kept
    | with_reducible apply State.deliverSignal_kept
    | with_reducible apply State.deliverReduce_kept
    | ((with_reducible apply Kept.ite) <;> intro _)
    | split
    | (unfold Kept; dsimp only; with_reducible apply Kept.fold))

theorem State.sendRequest_kept {x0 s : State} (u : FlowUnit) (t : Nat) (hk : Kept x0 s) : Kept x0 (State.sendRequest s u t) := by
  unfold State.sendRequest
  repeat' (first
    | with_reducible assumption
    | with_reducible apply State.deliverRequest_kept
    | with_reducible apply State.queueUnit_kept
    | with_reducible apply State.takeResponse_kept
    | with_reducible apply State.countUnreachable_kept
    | with_reducible apply State.countRouteErr_kept
    | split)

theorem State.passUnit_kept {x0 s : State} (p : Nat) (x : PoolUnit) (t : Nat) (hk : Kept x0 s) : Kept x0 (State.passUnit s p x t).1 := by
  unfold State.passUnit
  repeat' (first
    | with_reducible assumption
    | intro _
    | ((fail_if_success have := @kf0); refine id ?_; extract_lets +onlyGivenNames u1; (refine (fun kf0 : ∀ u a1, Kept x0 u → Kept x0 (u1 u a1) => ?_) ?_) <;> [clear_value u1; subst u1])
    | (refine id ?_; extract_lets +onlyGivenNames u1; clear_value u1)
    | with_reducible apply kf0
    | with_reducible apply State.refuseUnit_kept
    | with_reducible apply State.countUnreachable_kept
    | with_reducible apply State.countRouteErr_kept
    | with_reducible apply State.deliverRequest_kept
    | with_reducible apply State.takeResponse_kept
    | with_reducible apply State.count64_kept
    | with_reducible apply State.portFlag_kept
    | with_reducible apply State.trySend_kept
    | ((with_reducible apply Kept.ite) <;> intro _)
    | split)

theorem State.passList_kept {x0 s : State} (p v t : Nat) (r4 : List PoolUnit) (hk : Kept x0 s) : Kept x0 (State.passList s p v t r4).1 := by
  induction r4 generalizing s p v t with
  | nil =>
    unfold State.passList
    repeat' (first
      | with_reducible assumption)
  | cons m ms ih =>
    unfold State.passList
    repeat' (first
      | with_reducible assumption
      | (refine id ?_; extract_lets +onlyGivenNames u1; ((refine (fun k1 : Kept x0 u1.1 => ?_) ?_) <;> [clear_value u1; subst u1]))
      | with_reducible apply ih
      | with_reducible apply State.passUnit_kept
      | split)

theorem State.passPool_kept {x0 s : State} (p v t : Nat) (hk : Kept x0 s) : Kept x0 (State.passPool s p v t) := by
  unfold State.passPool
  repeat' (first
    | with_reducible assumption
    | (refine id ?_; extract_lets +onlyGivenNames u1; first
        | ((refine (fun k1 : Kept x0 u1.1 => ?_) ?_) <;> [clear_value u1; subst u1])
        | clear_value u1)
    | with_reducible apply State.passList_kept
    | with_reducible apply State.setPort_kept)

theorem unitArrives_kept {x0 s : State} (kind p x item rank : Nat) (result : Bool) (t : Nat)
    (hk : Kept x0 s) : Kept x0 (unitArrives kind p x item rank result t s) := by
  unfold unitArrives
  repeat' (first
    | with_reducible assumption
    | (refine id ?_; extract_lets +onlyGivenNames u1; first
        | ((refine (fun k1 : Kept x0 u1 => ?_) ?_) <;> [clear_value u1; subst u1])
        | clear_value u1)
    | with_reducible apply State.discardUnit_kept
    | with_reducible apply State.takeRet_kept
    | with_reducible apply State.setPort_kept
    | with_reducible apply State.passPool_kept
    | with_reducible apply State.sendLink_kept
    | with_reducible apply State.pumpPort_kept
    | ((with_reducible apply Kept.ite) <;> intro _))

theorem State.rerouteLost_kept {x0 s : State} (t : Nat) (hk : Kept x0 s) : Kept x0 (State.rerouteLost s t) := by
  unfold State.rerouteLost
  repeat' (first
    | with_reducible assumption
    | intro _
    | (refine id ?_; extract_lets +onlyGivenNames u1; first
        | ((refine (fun k1 : Kept x0 u1 => ?_) ?_) <;> [clear_value u1; subst u1])
        | clear_value u1)
    | with_reducible apply State.sendRequest_kept
    | with_reducible apply State.sendResponse_kept
    | with_reducible apply State.setPort_kept
    | with_reducible apply State.passPool_kept
    | with_reducible apply Kept.foldl
    | ((with_reducible apply Kept.ite) <;> intro _))

theorem unitRelease_kept {x0 s : State} (p v t : Nat) (hk : Kept x0 s) : Kept x0 (unitRelease p v t s) := by
  unfold unitRelease
  repeat' (first
    | with_reducible assumption
    | (refine id ?_; extract_lets +onlyGivenNames u1; first
        | ((refine (fun k1 : Kept x0 u1 => ?_) ?_) <;> [clear_value u1; subst u1])
        | clear_value u1)
    | with_reducible apply State.passPool_kept
    | with_reducible apply State.setPort_kept
    | ((with_reducible apply Kept.ite) <;> intro _)
    | split)

theorem portWake_kept {x0 s : State} (p : Nat) (signalled : Bool) (hk : Kept x0 s) : Kept x0 (portWake p signalled s) := by
  unfold portWake
  repeat' (first
    | with_reducible assumption
    | with_reducible apply State.sendLink_kept
    | with_reducible apply State.emit_kept
    | with_reducible apply State.setPort_kept
    | with_reducible apply State.setPortPower_kept
    | ((with_reducible apply Kept.ite) <;> intro _))

theorem State.waitTxn_kept {x0 s : State} (key cond : Nat) (hk : Kept x0 s) : Kept x0 (State.waitTxn s key cond) := by
  unfold State.waitTxn
  repeat' (first
    | with_reducible assumption
    | (refine id ?_; extract_lets +onlyGivenNames u1; ((refine (fun k1 : Kept x0 u1 => ?_) ?_) <;> [clear_value u1; subst u1]))
    | with_reducible apply State.count64_kept
    | with_reducible apply State.sf64_kept
    | ((with_reducible apply Kept.ite) <;> intro _)
    | (unfold Kept; dsimp only; with_reducible apply Kept.fold))

theorem State.waitOver_kept {x0 s : State} (key : Nat) (hk : Kept x0 s) : Kept x0 (State.waitOver s key) := by
  unfold State.waitOver
  repeat' (first
    | with_reducible assumption
    | (unfold Kept; dsimp only; with_reducible apply Kept.fold))

theorem State.flushUnit_kept {x0 s : State} (tag : Nat) (last : Bool) (t : Nat) (hk : Kept x0 s) : Kept x0 (State.flushUnit s tag last t) := by
  unfold State.flushUnit
  repeat' (first
    | with_reducible assumption
    | (refine id ?_; extract_lets +onlyGivenNames u1; clear_value u1)
    | with_reducible apply State.sendRequest_kept
    | with_reducible apply State.setTxn_kept
    | split)

theorem State.packLines_kept {x0 s : State} (tag t : Nat) (r3 : List (Nat × List Byte))
    (hk : Kept x0 s) : Kept x0 (State.packLines s tag t r3).1 := by
  induction r3 generalizing s tag t with
  | nil =>
    unfold State.packLines
    repeat' (first
      | with_reducible assumption)
  | cons m ms ih =>
    unfold State.packLines
    repeat' (first
      | with_reducible assumption
      | (refine id ?_; extract_lets +onlyGivenNames u1; first
        | ((refine (fun k1 : Kept x0 u1 => ?_) ?_) <;> [clear_value u1; subst u1])
        | clear_value u1)
      | with_reducible apply ih
      | with_reducible apply State.flushUnit_kept
      | with_reducible apply State.setTxn_kept
      | ((with_reducible apply Kept.ite) <;> intro _)
      | split)

theorem State.stageFrame_kept {x0 s : State} (f : Frame) (hk : Kept x0 s) : Kept x0 (State.stageFrame s f) := by
  unfold State.stageFrame
  repeat' (first
    | with_reducible assumption
    | intro _
    | with_reducible apply State.store_kept
    | with_reducible apply Kept.foldl
    | ((with_reducible apply Kept.ite) <;> intro _))

theorem State.drainIn_kept {x0 s : State} (k t r3 : Nat) (hk : Kept x0 s) : Kept x0 (State.drainIn s k t r3) := by
  induction r3 generalizing s k t with
  | zero =>
    unfold State.drainIn
    repeat' (first
      | with_reducible assumption)
  | succ m ih =>
    unfold State.drainIn
    repeat' (first
      | with_reducible assumption
      | intro _
      | ((fail_if_success have := @kf0); refine id ?_; extract_lets +onlyGivenNames u1; (refine (fun kf0 : ∀ u, Kept x0 u → Kept x0 (u1 u) => ?_) ?_) <;> [clear_value u1; subst u1])
      | (refine id ?_; extract_lets +onlyGivenNames u1; first
        | ((refine (fun k1 : Kept x0 u1.1 => ?_) ?_) <;> [clear_value u1; subst u1])
        | clear_value u1)
      | with_reducible apply kf0
      | with_reducible apply ih
      | with_reducible apply State.freeEntry_kept
      | with_reducible apply State.setModEnd_kept
      | with_reducible apply State.stageFrame_kept
      | with_reducible apply State.routeFrame_kept
      | with_reducible apply State.packLines_kept
      | ((with_reducible apply Kept.ite) <;> intro _)
      | split)

theorem State.openNew_kept {x0 s : State} (x : Txn) (hk : Kept x0 s) : Kept x0 (State.openNew s x).1 := by
  unfold State.openNew
  repeat' (first
    | with_reducible assumption
    | (refine id ?_; extract_lets +onlyGivenNames u1; clear_value u1)
    | with_reducible apply State.setTxn_kept)

theorem txnStartFrame_kept {x0 s : State} (term t : Nat) (hk : Kept x0 s) : Kept x0 (txnStartFrame term t s) := by
  unfold txnStartFrame
  repeat' (first
    | with_reducible assumption
    | (refine id ?_; extract_lets +onlyGivenNames u1; first
        | ((refine (fun k1 : Kept x0 u1 => ?_) ?_) <;> [clear_value u1; subst u1])
        | ((refine (fun k1 : Kept x0 u1.1 => ?_) ?_) <;> [clear_value u1; subst u1])
        | clear_value u1)
    | with_reducible apply State.drainIn_kept
    | with_reducible apply State.sf64_kept
    | with_reducible apply State.freeEntry_kept
    | with_reducible apply State.setModEnd_kept
    | with_reducible apply State.stopFor_kept
    | with_reducible apply State.waitOver_kept
    | with_reducible apply State.waitTxn_kept
    | with_reducible apply State.openNew_kept
    | ((with_reducible apply Kept.ite) <;> intro _)
    | split
    | (unfold Kept; dsimp only; with_reducible apply Kept.fold))

theorem txnStartRead_kept {x0 s : State} (g pos n line t : Nat) (hk : Kept x0 s) : Kept x0 (txnStartRead g pos n line t s) := by
  unfold txnStartRead
  repeat' (first
    | with_reducible assumption
    | (refine id ?_; extract_lets +onlyGivenNames u1; first
        | ((refine (fun k1 : Kept x0 u1.1 => ?_) ?_) <;> [clear_value u1; subst u1])
        | clear_value u1)
    | with_reducible apply State.stopFor_kept
    | with_reducible apply State.sf64_kept
    | with_reducible apply State.waitTxn_kept
    | with_reducible apply State.openNew_kept
    | with_reducible apply State.waitOver_kept
    | with_reducible apply State.sendRequest_kept
    | ((with_reducible apply Kept.ite) <;> intro _)
    | split)

theorem partialUnitFlush_kept {x0 s : State} (tag : Nat) (last : Bool) (t : Nat) (hk : Kept x0 s) : Kept x0 (partialUnitFlush tag last t s) := by
  unfold partialUnitFlush
  repeat' (first
    | with_reducible assumption
    | with_reducible apply State.flushUnit_kept)

theorem txnTimeout_kept {x0 s : State} (tag : Nat) (hk : Kept x0 s) : Kept x0 (txnTimeout tag s) := by
  unfold txnTimeout
  repeat' (first
    | with_reducible assumption
    | (refine id ?_; extract_lets +onlyGivenNames u1; ((refine (fun k1 : Kept x0 u1 => ?_) ?_) <;> [clear_value u1; subst u1]))
    | with_reducible apply State.sf64_kept
    | with_reducible apply State.quarantined_kept
    | with_reducible apply State.endTxn_kept
    | with_reducible apply State.stopFor_kept
    | with_reducible apply State.count64_kept
    | split)

theorem quarantineExpiry_kept {x0 s : State} (tag : Nat) (hk : Kept x0 s) : Kept x0 (quarantineExpiry tag s) := by
  unfold quarantineExpiry
  repeat' (first
    | with_reducible assumption
    | (unfold Kept; dsimp only; with_reducible apply Kept.fold))

theorem execTclWrite_kept {x0 s t0 : State} (p : Fin 12) (bits : BitVec 2048) (t : Nat) (hk : Kept x0 s) (ek : execTclWrite p bits t s = .next t0) : Kept x0 t0 := by
  unfold execTclWrite at ek
  rw [Host.Outcome.next.injEq] at ek; subst ek
  all_goals
    repeat' (first
      | with_reducible assumption
      | with_reducible apply unitArrives_kept)

theorem execTclReadReq_kept {x0 s t0 : State} (p : Fin 12) (bits : BitVec 2048) (t : Nat) (hk : Kept x0 s) (ek : execTclReadReq p bits t s = .next t0) : Kept x0 t0 := by
  unfold execTclReadReq at ek
  rw [Host.Outcome.next.injEq] at ek; subst ek
  all_goals
    repeat' (first
      | with_reducible assumption
      | with_reducible apply unitArrives_kept)

theorem execTclSignal_kept {x0 s t0 : State} (p : Fin 12) (bits : BitVec 2048) (t : Nat) (hk : Kept x0 s) (ek : execTclSignal p bits t s = .next t0) : Kept x0 t0 := by
  unfold execTclSignal at ek
  rw [Host.Outcome.next.injEq] at ek; subst ek
  all_goals
    repeat' (first
      | with_reducible assumption
      | with_reducible apply unitArrives_kept)

theorem execTclReduceData_kept {x0 s t0 : State} (p : Fin 12) (bits : BitVec 2048) (item rank : Nat) (result : Bool) (t : Nat) (hk : Kept x0 s) (ek : execTclReduceData p bits item rank result t s = .next t0) : Kept x0 t0 := by
  unfold execTclReduceData at ek
  rw [Host.Outcome.next.injEq] at ek; subst ek
  all_goals
    repeat' (first
      | with_reducible assumption
      | with_reducible apply unitArrives_kept)

theorem execTclReadData_kept {x0 s t0 : State} (p : Fin 12) (bits : BitVec 2048) (t : Nat) (hk : Kept x0 s) (ek : execTclReadData p bits t s = .next t0) : Kept x0 t0 := by
  unfold execTclReadData at ek
  rw [Host.Outcome.next.injEq] at ek; subst ek
  all_goals
    repeat' (first
      | with_reducible assumption
      | with_reducible apply unitArrives_kept)

theorem execTclWriteReport_kept {x0 s t0 : State} (p : Fin 12) (bits : BitVec 2048) (t : Nat) (hk : Kept x0 s) (ek : execTclWriteReport p bits t s = .next t0) : Kept x0 t0 := by
  unfold execTclWriteReport at ek
  rw [Host.Outcome.next.injEq] at ek; subst ek
  all_goals
    repeat' (first
      | with_reducible assumption
      | with_reducible apply unitArrives_kept)

theorem execTclErrorRsp_kept {x0 s t0 : State} (p : Fin 12) (bits : BitVec 2048) (t : Nat) (hk : Kept x0 s) (ek : execTclErrorRsp p bits t s = .next t0) : Kept x0 t0 := by
  unfold execTclErrorRsp at ek
  rw [Host.Outcome.next.injEq] at ek; subst ek
  all_goals
    repeat' (first
      | with_reducible assumption
      | with_reducible apply unitArrives_kept)

theorem execPortWake_kept {x0 s t0 : State} (p : Fin 12) (signalled : Bool) (hk : Kept x0 s) (ek : execPortWake p signalled s = .next t0) : Kept x0 t0 := by
  unfold execPortWake at ek
  rw [Host.Outcome.next.injEq] at ek; subst ek
  all_goals
    repeat' (first
      | with_reducible assumption
      | with_reducible apply portWake_kept)

theorem execUnitRelease_kept {x0 s t0 : State} (p : Fin 12) (vc : Fin 4) (t : Nat) (hk : Kept x0 s) (ek : execUnitRelease p vc t s = .next t0) : Kept x0 t0 := by
  unfold execUnitRelease at ek
  rw [Host.Outcome.next.injEq] at ek; subst ek
  all_goals
    repeat' (first
      | with_reducible assumption
      | with_reducible apply unitRelease_kept)

theorem execTxnStart_kept {x0 s t0 : State} (x : TxnSource) (t : Nat) (hk : Kept x0 s) (ek : execTxnStart x t s = .next t0) : Kept x0 t0 := by
  unfold execTxnStart at ek
  (try split at ek) <;> first | (rw [Host.Outcome.next.injEq] at ek; subst ek) | simp only [reduceCtorEq] at ek
  all_goals
    repeat' (first
      | with_reducible assumption
      | with_reducible apply txnStartFrame_kept
      | with_reducible apply txnStartRead_kept)

theorem execPartialUnitFlush_kept {x0 s t0 : State} (tag : Nat) (last : Bool) (t : Nat) (hk : Kept x0 s) (ek : execPartialUnitFlush tag last t s = .next t0) : Kept x0 t0 := by
  unfold execPartialUnitFlush at ek
  rw [Host.Outcome.next.injEq] at ek; subst ek
  all_goals
    repeat' (first
      | with_reducible assumption
      | with_reducible apply partialUnitFlush_kept)

theorem execTxnTimeout_kept {x0 s t0 : State} (tag : Nat) (hk : Kept x0 s) (ek : execTxnTimeout tag s = .next t0) : Kept x0 t0 := by
  unfold execTxnTimeout at ek
  rw [Host.Outcome.next.injEq] at ek; subst ek
  all_goals
    repeat' (first
      | with_reducible assumption
      | with_reducible apply txnTimeout_kept)

theorem execQuarantineExpiry_kept {x0 s t0 : State} (tag : Nat) (hk : Kept x0 s) (ek : execQuarantineExpiry tag s = .next t0) : Kept x0 t0 := by
  unfold execQuarantineExpiry at ek
  rw [Host.Outcome.next.injEq] at ek; subst ek
  all_goals
    repeat' (first
      | with_reducible assumption
      | with_reducible apply quarantineExpiry_kept)

end Sys2Proof.Machine
end

