-- ==== Sys2Proof/Laws/KeepFabric.lean ====
section
/-!
SUPPORT. What the operations of Machine/Fabric.lean keep (Laws/Keep.lean).
-/

namespace Sys2Proof.Machine

theorem State.sendAck_kept {x0 s : State} (k lanes : Nat) (hk : Kept x0 s) : Kept x0 (State.sendAck s k lanes) := by
  unfold State.sendAck
  repeat' (first
    | with_reducible assumption
    | (refine id ?_; extract_lets +onlyGivenNames u1; clear_value u1)
    | with_reducible apply State.sendPlain_kept
    | with_reducible apply State.setModEnd_kept)

theorem State.sendNak_kept {x0 s : State} (k lanes : Nat) (may : Bool) (hk : Kept x0 s) : Kept x0 (State.sendNak s k lanes may) := by
  unfold State.sendNak
  repeat' (first
    | with_reducible assumption
    | (refine id ?_; extract_lets +onlyGivenNames u1; clear_value u1)
    | with_reducible apply State.sendPlain_kept
    | ((with_reducible apply Kept.ite) <;> intro _))

theorem State.discardItem_kept {x0 s : State} (k lanes : Nat) (badCheck may : Bool)
    (hk : Kept x0 s) : Kept x0 (State.discardItem s k lanes badCheck may) := by
  unfold State.discardItem
  repeat' (first
    | with_reducible assumption
    | with_reducible apply State.sendNak_kept
    | with_reducible apply State.count64_kept
    | ((with_reducible apply Kept.ite) <;> intro _))

theorem State.takeFrame_kept {x0 s : State} (k t : Nat) (f : Frame) (land : State → State) (hland : ∀ u, Kept x0 u → Kept x0 (land u))
    (hk : Kept x0 s) : Kept x0 (State.takeFrame s k t f land) := by
  unfold State.takeFrame
  repeat' (first
    | with_reducible assumption
    | (refine id ?_; extract_lets +onlyGivenNames u1; first
        | ((refine (fun k1 : Kept x0 u1 => ?_) ?_) <;> [clear_value u1; subst u1])
        | clear_value u1)
    | with_reducible apply hland
    | with_reducible apply State.freeEntry_kept
    | with_reducible apply State.sendFrame_kept
    | with_reducible apply State.setModEnd_kept
    | with_reducible apply State.drainIn_kept
    | with_reducible apply State.routeFrame_kept
    | ((with_reducible apply Kept.ite) <;> intro _)
    | split)

theorem frameArrives_kept {x0 s : State} (kind k x t : Nat) (may : Bool) (land : Frame → State → State) (hland : ∀ v0 u, Kept x0 u → Kept x0 (land v0 u))
    (hk : Kept x0 s) : Kept x0 (frameArrives kind k x t may land s) := by
  unfold frameArrives
  repeat' (first
    | with_reducible assumption
    | intro _
    | (refine id ?_; extract_lets +onlyGivenNames u1; first
        | ((refine (fun k1 : Kept x0 u1 => ?_) ?_) <;> [clear_value u1; subst u1])
        | clear_value u1)
    | with_reducible apply hland
    | with_reducible apply State.discardItem_kept
    | with_reducible apply State.setModEnd_kept
    | with_reducible apply State.takeFrame_kept
    | with_reducible apply State.sendAck_kept
    | ((with_reducible apply Kept.ite) <;> intro _))

theorem msgArrives_kept {x0 s : State} (kind k x : Nat) (may : Bool) (land : Msg → State → State) (hland : ∀ v0 u, Kept x0 u → Kept x0 (land v0 u))
    (hk : Kept x0 s) : Kept x0 (msgArrives kind k x may land s) := by
  unfold msgArrives
  dsimp only
  repeat' (first
    | with_reducible assumption
    | with_reducible apply hland
    | with_reducible apply State.discardItem_kept
    | with_reducible apply State.setModEnd_kept
    | with_reducible apply State.sendMsg_kept
    | with_reducible apply State.routeMsg_kept
    | with_reducible apply State.freeEntry_kept
    | with_reducible apply State.sendAck_kept
    | ((with_reducible apply Kept.ite) <;> intro _)
    | split)

theorem plainArrives_kept {x0 s : State} (kind k x : Nat) (take : Msg → State → State) (htake : ∀ v0 u, Kept x0 u → Kept x0 (take v0 u))
    (hk : Kept x0 s) : Kept x0 (plainArrives kind k x take s) := by
  unfold plainArrives
  repeat' (first
    | with_reducible assumption
    | (refine id ?_; extract_lets +onlyGivenNames u1; clear_value u1)
    | with_reducible apply htake
    | with_reducible apply State.count64_kept
    | ((with_reducible apply Kept.ite) <;> intro _))

theorem State.staleLines_kept {x0 s : State} (d : Nat) (f : Frame) (hk : Kept x0 s) : Kept x0 (State.staleLines s d f) := by
  unfold State.staleLines
  repeat' (first
    | with_reducible assumption
    | (refine id ?_; extract_lets +onlyGivenNames u1; clear_value u1)
    | with_reducible apply State.count32_kept
    | ((with_reducible apply Kept.ite) <;> intro _))

theorem State.landLineAt_kept {x0 s : State} (t : Nat) (l : Nat × List Byte × Bool) (hk : Kept x0 s) : Kept x0 (State.landLineAt s t l) := by
  unfold State.landLineAt
  repeat' (first
    | with_reducible assumption
    | (refine id ?_; extract_lets +onlyGivenNames u1; ((refine (fun k1 : Kept x0 u1 => ?_) ?_) <;> [clear_value u1; subst u1]))
    | with_reducible apply State.storeAt_kept
    | with_reducible apply State.poisonAt_kept
    | ((with_reducible apply Kept.ite) <;> intro _))

theorem State.landed_kept {x0 s : State} (d : Nat) (f : Frame) (n : Nat) (hk : Kept x0 s) : Kept x0 (State.landed s d f n) := by
  unfold State.landed
  repeat' (first
    | with_reducible assumption
    | (refine id ?_; extract_lets +onlyGivenNames u1; clear_value u1)
    | with_reducible apply State.setDie_kept
    | with_reducible apply State.reportLines_kept
    | ((with_reducible apply Kept.ite) <;> intro _))

theorem landWrite_kept {x0 s : State} (d t : Nat) (f : Frame) (hk : Kept x0 s) : Kept x0 (landWrite d t f s) := by
  unfold landWrite
  repeat' (first
    | with_reducible assumption
    | intro _
    | (refine id ?_; extract_lets +onlyGivenNames u1; first
        | ((refine (fun k1 : Kept x0 u1 => ?_) ?_) <;> [clear_value u1; subst u1])
        | clear_value u1)
    | with_reducible apply State.staleLines_kept
    | with_reducible apply State.boundFaultAt_kept
    | with_reducible apply State.landLineAt_kept
    | with_reducible apply State.landed_kept
    | with_reducible apply Kept.foldl
    | with_reducible apply Kept.elim
    | ((with_reducible apply Kept.ite) <;> intro _))

theorem State.lineCame_kept {x0 s : State} (g n t : Nat) (y : Flight) (r i : Nat) (l : Nat × List Byte × Bool)
    (hk : Kept x0 s) : Kept x0 (State.lineCame s g n t y r i l) := by
  unfold State.lineCame
  repeat' (first
    | with_reducible assumption
    | intro _
    | (refine id ?_; extract_lets +onlyGivenNames u1; first
        | ((refine (fun k1 : Kept x0 u1 => ?_) ?_) <;> [clear_value u1; subst u1])
        | clear_value u1)
    | with_reducible apply State.setFlight_kept
    | with_reducible apply State.checkBounds_kept
    | with_reducible apply State.writeTimed_kept
    | with_reducible apply State.poisonAt_kept
    | with_reducible apply Kept.foldl
    | ((with_reducible apply Kept.ite) <;> intro _))

theorem landRead_kept {x0 s : State} (d t : Nat) (f : Frame) (hk : Kept x0 s) : Kept x0 (landRead d t f s) := by
  unfold landRead
  repeat' (first
    | with_reducible assumption
    | intro _
    | (refine id ?_; extract_lets +onlyGivenNames u1; first
        | ((refine (fun k1 : Kept x0 u1 => ?_) ?_) <;> [clear_value u1; subst u1])
        | clear_value u1)
    | with_reducible apply State.lateDrop_kept
    | with_reducible apply State.lineCame_kept
    | with_reducible apply State.setFlight_kept
    | with_reducible apply Kept.foldl
    | ((with_reducible apply Kept.ite) <;> intro _)
    | split)

theorem landReduce_kept {x0 s : State} (d t : Nat) (f : Frame) (hk : Kept x0 s) : Kept x0 (landReduce d t f s) := by
  unfold landReduce
  repeat' (first
    | with_reducible assumption
    | intro _
    | (refine id ?_; extract_lets +onlyGivenNames u1; clear_value u1)
    | with_reducible apply State.ringSend_kept
    | with_reducible apply State.placeResult_kept
    | with_reducible apply State.addOperand_kept
    | with_reducible apply Kept.foldl
    | ((with_reducible apply Kept.ite) <;> intro _)
    | split)

theorem State.drainReduce_kept {x0 s : State} (k t : Nat) (hk : Kept x0 s) : Kept x0 (State.drainReduce s k t) := by
  unfold State.drainReduce
  repeat' (first
    | with_reducible assumption
    | intro _
    | (refine id ?_; extract_lets +onlyGivenNames u1; clear_value u1)
    | with_reducible apply State.freeEntry_kept
    | with_reducible apply landReduce_kept
    | with_reducible apply State.setModEnd_kept
    | with_reducible apply Kept.foldl
    | ((with_reducible apply Kept.ite) <;> intro _))

theorem State.drainDie_kept {x0 s : State} (d t : Nat) (hk : Kept x0 s) : Kept x0 (State.drainDie s d t) := by
  unfold State.drainDie
  repeat' (first
    | with_reducible assumption
    | intro _
    | with_reducible apply State.drainReduce_kept
    | with_reducible apply Kept.foldl)

theorem landSignal_kept {x0 s : State} (k lc t : Nat) (m : Msg) (hk : Kept x0 s) : Kept x0 (landSignal k lc t m s) := by
  unfold landSignal
  repeat' (first
    | with_reducible assumption
    | (refine id ?_; extract_lets +onlyGivenNames u1; clear_value u1)
    | with_reducible apply State.signalHere_kept
    | with_reducible apply State.stopFor_kept
    | with_reducible apply State.sf64_kept
    | with_reducible apply State.sendRequest_kept
    | ((with_reducible apply Kept.ite) <;> intro _)
    | split)

theorem landReadReq_kept {x0 s : State} (d t : Nat) (m : Msg) (hk : Kept x0 s) : Kept x0 (landReadReq d t m s) := by
  unfold landReadReq
  repeat' (first
    | with_reducible assumption
    | intro _
    | (refine id ?_; extract_lets +onlyGivenNames u1; first
        | ((refine (fun k1 : Kept x0 u1 => ?_) ?_) <;> [clear_value u1; subst u1])
        | clear_value u1)
    | with_reducible apply State.boundFaultAt_kept
    | with_reducible apply State.noticed_kept
    | with_reducible apply State.caughtUp_kept
    | with_reducible apply State.routeFrame_kept
    | with_reducible apply Kept.foldl
    | with_reducible apply Kept.elim
    | ((with_reducible apply Kept.ite) <;> intro _))

theorem State.settleReports_kept {x0 s : State} (d t : Nat) (hk : Kept x0 s) : Kept x0 (State.settleReports s d t) := by
  unfold State.settleReports
  repeat' (first
    | with_reducible assumption
    | intro _
    | (refine id ?_; extract_lets +onlyGivenNames u1; clear_value u1)
    | with_reducible apply State.fullyComplete_kept
    | with_reducible apply Kept.foldl
    | ((with_reducible apply Kept.ite) <;> intro _))

theorem landReport_kept {x0 s : State} (d t : Nat) (m : Msg) (hk : Kept x0 s) : Kept x0 (landReport d t m s) := by
  unfold landReport
  repeat' (first
    | with_reducible assumption
    | (refine id ?_; extract_lets +onlyGivenNames u1; clear_value u1)
    | with_reducible apply State.lateDrop_kept
    | with_reducible apply State.setFlight_kept
    | with_reducible apply State.settleReports_kept
    | ((with_reducible apply Kept.ite) <;> intro _)
    | split)

theorem landHour_kept {x0 s : State} (k : Nat) (m : Msg) (hk : Kept x0 s) : Kept x0 (landHour k m s) := by
  unfold landHour
  repeat' (first
    | with_reducible assumption
    | (refine id ?_; extract_lets +onlyGivenNames u1; clear_value u1)
    | with_reducible apply State.setDie_kept
    | ((with_reducible apply Kept.ite) <;> intro _))

theorem takeCredit_kept {x0 s : State} (k : Nat) (m : Msg) (hk : Kept x0 s) : Kept x0 (takeCredit k m s) := by
  unfold takeCredit
  repeat' (first
    | with_reducible assumption
    | (refine id ?_; extract_lets +onlyGivenNames u1; clear_value u1)
    | with_reducible apply State.pump_kept
    | with_reducible apply State.setModEnd_kept)

theorem takeModAck_kept {x0 s : State} (k : Nat) (m : Msg) (hk : Kept x0 s) : Kept x0 (takeModAck k m s) := by
  unfold takeModAck
  repeat' (first
    | with_reducible assumption
    | (refine id ?_; extract_lets +onlyGivenNames u1; clear_value u1)
    | with_reducible apply State.pump_kept
    | with_reducible apply State.setModEnd_kept)

theorem State.resendMod_kept {x0 s : State} (k lanes start : Nat) (hk : Kept x0 s) : Kept x0 (State.resendMod s k lanes start) := by
  unfold State.resendMod
  repeat' (first
    | with_reducible assumption
    | intro _
    | (refine id ?_; extract_lets +onlyGivenNames u1; clear_value u1)
    | with_reducible apply State.emit_kept
    | with_reducible apply Kept.foldl
    | ((with_reducible apply Kept.ite) <;> intro _))

theorem State.retrainMod_kept {x0 s : State} (k : Nat) (hk : Kept x0 s) : Kept x0 (State.retrainMod s k) := by
  unfold State.retrainMod
  repeat' (first
    | with_reducible assumption
    | (refine id ?_; extract_lets +onlyGivenNames u1; first
        | ((refine (fun k1 : Kept x0 u1 => ?_) ?_) <;> [clear_value u1; subst u1])
        | clear_value u1)
    | with_reducible apply State.setModEnd_kept)

theorem takeModNak_kept {x0 s : State} (k : Nat) (m : Msg) (hk : Kept x0 s) : Kept x0 (takeModNak k m s) := by
  unfold takeModNak
  repeat' (first
    | with_reducible assumption
    | (refine id ?_; extract_lets +onlyGivenNames u1; first
        | ((refine (fun k1 : Kept x0 u1 => ?_) ?_) <;> [clear_value u1; subst u1])
        | clear_value u1)
    | with_reducible apply State.setModEnd_kept
    | with_reducible apply State.resendMod_kept
    | with_reducible apply State.count64_kept
    | with_reducible apply State.set32_kept
    | with_reducible apply State.retrainMod_kept
    | ((with_reducible apply Kept.ite) <;> intro _))

theorem d2dAckTimer_kept {x0 s : State} (k : Nat) (hk : Kept x0 s) : Kept x0 (d2dAckTimer k s) := by
  unfold d2dAckTimer
  repeat' (first
    | with_reducible assumption
    | (refine id ?_; extract_lets +onlyGivenNames u1; ((refine (fun k1 : Kept x0 u1 => ?_) ?_) <;> [clear_value u1; subst u1]))
    | with_reducible apply State.sendAck_kept
    | ((with_reducible apply Kept.ite) <;> intro _))

theorem State.moduleOut_kept {x0 s : State} (k : Nat) (hk : Kept x0 s) : Kept x0 (State.moduleOut s k) := by
  unfold State.moduleOut
  repeat' (first
    | with_reducible assumption
    | intro _
    | ((fail_if_success have := @kf0); refine id ?_; extract_lets +onlyGivenNames u1; (refine (fun kf0 : ∀ u a1, Kept x0 u → Kept x0 (u1 u a1) => ?_) ?_) <;> [clear_value u1; subst u1])
    | (refine id ?_; extract_lets +onlyGivenNames u1; first
        | ((refine (fun k1 : Kept x0 u1 => ?_) ?_) <;> [clear_value u1; subst u1])
        | clear_value u1)
    | with_reducible apply kf0
    | with_reducible apply State.setModEnd_kept
    | with_reducible apply State.clr32_kept
    | with_reducible apply State.set32_kept
    | with_reducible apply State.postEvent_kept
    | with_reducible apply State.abortStep_kept
    | with_reducible apply Kept.foldl
    | ((with_reducible apply Kept.ite) <;> intro _))

theorem State.switchRoutes_kept {x0 s : State} (nodes : List Nat) (hk : Kept x0 s) : Kept x0 (State.switchRoutes s nodes) := by
  unfold State.switchRoutes
  repeat' (first
    | with_reducible assumption
    | intro _
    | (refine id ?_; extract_lets +onlyGivenNames u1; clear_value u1)
    | with_reducible apply State.sf32_kept
    | with_reducible apply Kept.foldl
    | ((with_reducible apply Kept.ite) <;> intro _))

theorem d2dRetrainComplete_kept {x0 s : State} (k : Nat) (ok : Bool) (hk : Kept x0 s) : Kept x0 (d2dRetrainComplete k ok s) := by
  unfold d2dRetrainComplete
  repeat' (first
    | with_reducible assumption
    | intro _
    | ((fail_if_success have := @kf0); refine id ?_; extract_lets +onlyGivenNames u1; (refine (fun kf0 : ∀ u a1, Kept x0 u → Kept x0 (u1 u a1) => ?_) ?_) <;> [clear_value u1; subst u1])
    | ((fail_if_success have := @kf1); refine id ?_; extract_lets +onlyGivenNames u1; (refine (fun kf1 : ∀ u a1, Kept x0 u → Kept x0 (u1 u a1) => ?_) ?_) <;> [clear_value u1; subst u1])
    | ((fail_if_success have := @kf2); refine id ?_; extract_lets +onlyGivenNames u1; (refine (fun kf2 : ∀ u a1, Kept x0 u → Kept x0 (u1 u a1) => ?_) ?_) <;> [clear_value u1; subst u1])
    | (refine id ?_; extract_lets +onlyGivenNames u1; first
        | ((refine (fun k1 : Kept x0 u1 => ?_) ?_) <;> [clear_value u1; subst u1])
        | clear_value u1)
    | with_reducible apply kf0
    | with_reducible apply kf1
    | with_reducible apply kf2
    | with_reducible apply State.count64_kept
    | with_reducible apply State.set32_kept
    | with_reducible apply State.setModEnd_kept
    | with_reducible apply State.resendMod_kept
    | with_reducible apply State.pump_kept
    | with_reducible apply State.moduleOut_kept
    | with_reducible apply Kept.elim
    | ((with_reducible apply Kept.ite) <;> intro _))

theorem State.putRoles_kept {x0 s : State} (k : Nat) (roles : List Nat) (hk : Kept x0 s) : Kept x0 (State.putRoles s k roles) := by
  unfold State.putRoles
  repeat' (first
    | with_reducible assumption
    | intro _
    | ((fail_if_success have := @kf0); refine id ?_; extract_lets +onlyGivenNames u1; (refine (fun kf0 : ∀ u a1, Kept x0 u → Kept x0 (u1 u a1) => ?_) ?_) <;> [clear_value u1; subst u1])
    | (refine id ?_; extract_lets +onlyGivenNames u1; clear_value u1)
    | with_reducible apply kf0
    | with_reducible apply State.wWide_kept
    | with_reducible apply State.w32_kept)

theorem d2dLaneFailure_kept {x0 s : State} (k lane : Nat) (hk : Kept x0 s) : Kept x0 (d2dLaneFailure k lane s) := by
  unfold d2dLaneFailure
  repeat' (first
    | with_reducible assumption
    | intro _
    | ((fail_if_success have := @kf0); refine id ?_; extract_lets +onlyGivenNames u1; (refine (fun kf0 : ∀ u a1, Kept x0 u → Kept x0 (u1 u a1) => ?_) ?_) <;> [clear_value u1; subst u1])
    | (refine id ?_; extract_lets +onlyGivenNames u1; first
        | ((refine (fun k1 : Kept x0 u1 => ?_) ?_) <;> [clear_value u1; subst u1])
        | clear_value u1)
    | with_reducible apply kf0
    | with_reducible apply State.count64_kept
    | with_reducible apply State.set32_kept
    | with_reducible apply State.putRoles_kept
    | with_reducible apply State.moduleOut_kept
    | ((with_reducible apply Kept.ite) <;> intro _)
    | split)

theorem execD2dWrite_kept {x0 s t0 : State} (k : Fin 52) (bits : BitVec 2304) (may : Bool) (t : Nat) (hk : Kept x0 s) (ek : execD2dWrite k bits may t s = .next t0) : Kept x0 t0 := by
  unfold execD2dWrite at ek
  rw [Host.Outcome.next.injEq] at ek; subst ek
  all_goals
    repeat' (first
      | with_reducible assumption
      | intro _
      | with_reducible apply State.drainDie_kept
      | with_reducible apply frameArrives_kept
      | with_reducible apply landWrite_kept
      | with_reducible apply State.seeHold_kept)

theorem execD2dReadData_kept {x0 s t0 : State} (k : Fin 52) (bits : BitVec 2304) (may : Bool) (t : Nat) (hk : Kept x0 s) (ek : execD2dReadData k bits may t s = .next t0) : Kept x0 t0 := by
  unfold execD2dReadData at ek
  rw [Host.Outcome.next.injEq] at ek; subst ek
  all_goals
    repeat' (first
      | with_reducible assumption
      | intro _
      | with_reducible apply State.drainDie_kept
      | with_reducible apply frameArrives_kept
      | with_reducible apply landRead_kept
      | with_reducible apply State.seeHold_kept)

theorem execD2dReduceData_kept {x0 s t0 : State} (k : Fin 52) (bits : BitVec 2304) (may : Bool) (t : Nat) (hk : Kept x0 s) (ek : execD2dReduceData k bits may t s = .next t0) : Kept x0 t0 := by
  unfold execD2dReduceData at ek
  rw [Host.Outcome.next.injEq] at ek; subst ek
  all_goals
    repeat' (first
      | with_reducible assumption
      | intro _
      | with_reducible apply State.drainDie_kept
      | with_reducible apply frameArrives_kept
      | with_reducible apply landReduce_kept
      | with_reducible apply State.seeHold_kept)

theorem execD2dSignal_kept {x0 s t0 : State} (k : Fin 52) (bits : BitVec 256) (lc : Fin 128) (may : Bool) (t : Nat) (hk : Kept x0 s) (ek : execD2dSignal k bits lc may t s = .next t0) : Kept x0 t0 := by
  unfold execD2dSignal at ek
  rw [Host.Outcome.next.injEq] at ek; subst ek
  all_goals
    repeat' (first
      | with_reducible assumption
      | intro _
      | with_reducible apply State.drainDie_kept
      | with_reducible apply msgArrives_kept
      | with_reducible apply landSignal_kept
      | with_reducible apply State.seeHold_kept)

theorem execD2dReadReq_kept {x0 s t0 : State} (k : Fin 52) (bits : BitVec 256) (may : Bool) (t : Nat) (hk : Kept x0 s) (ek : execD2dReadReq k bits may t s = .next t0) : Kept x0 t0 := by
  unfold execD2dReadReq at ek
  rw [Host.Outcome.next.injEq] at ek; subst ek
  all_goals
    repeat' (first
      | with_reducible assumption
      | intro _
      | with_reducible apply State.drainDie_kept
      | with_reducible apply msgArrives_kept
      | with_reducible apply landReadReq_kept)

theorem execD2dWriteReport_kept {x0 s t0 : State} (k : Fin 52) (bits : BitVec 256) (may : Bool) (t : Nat) (hk : Kept x0 s) (ek : execD2dWriteReport k bits may t s = .next t0) : Kept x0 t0 := by
  unfold execD2dWriteReport at ek
  rw [Host.Outcome.next.injEq] at ek; subst ek
  all_goals
    repeat' (first
      | with_reducible assumption
      | intro _
      | with_reducible apply State.drainDie_kept
      | with_reducible apply msgArrives_kept
      | with_reducible apply landReport_kept
      | with_reducible apply State.seeHold_kept)

theorem execD2dCredit_kept {x0 s t0 : State} (k : Fin 52) (bits : BitVec 256) (hk : Kept x0 s) (ek : execD2dCredit k bits s = .next t0) : Kept x0 t0 := by
  unfold execD2dCredit at ek
  rw [Host.Outcome.next.injEq] at ek; subst ek
  all_goals
    repeat' (first
      | with_reducible assumption
      | intro _
      | with_reducible apply plainArrives_kept
      | with_reducible apply takeCredit_kept
      | with_reducible apply State.seeHold_kept)

theorem execD2dAck_kept {x0 s t0 : State} (k : Fin 52) (bits : BitVec 256) (hk : Kept x0 s) (ek : execD2dAck k bits s = .next t0) : Kept x0 t0 := by
  unfold execD2dAck at ek
  rw [Host.Outcome.next.injEq] at ek; subst ek
  all_goals
    repeat' (first
      | with_reducible assumption
      | intro _
      | with_reducible apply plainArrives_kept
      | with_reducible apply takeModAck_kept)

theorem execD2dNak_kept {x0 s t0 : State} (k : Fin 52) (bits : BitVec 256) (hk : Kept x0 s) (ek : execD2dNak k bits s = .next t0) : Kept x0 t0 := by
  unfold execD2dNak at ek
  rw [Host.Outcome.next.injEq] at ek; subst ek
  all_goals
    repeat' (first
      | with_reducible assumption
      | intro _
      | with_reducible apply plainArrives_kept
      | with_reducible apply takeModNak_kept)

theorem execD2dHour_kept {x0 s t0 : State} (k : Fin 52) (bits : BitVec 256) (may : Bool) (hk : Kept x0 s) (ek : execD2dHour k bits may s = .next t0) : Kept x0 t0 := by
  unfold execD2dHour at ek
  rw [Host.Outcome.next.injEq] at ek; subst ek
  all_goals
    repeat' (first
      | with_reducible assumption
      | intro _
      | with_reducible apply msgArrives_kept
      | with_reducible apply landHour_kept)

theorem execD2dIdle_kept {x0 s t0 : State} (k : Fin 52) (bits : BitVec 256) (hk : Kept x0 s) (ek : execD2dIdle k bits s = .next t0) : Kept x0 t0 := by
  unfold execD2dIdle at ek
  rw [Host.Outcome.next.injEq] at ek; subst ek
  all_goals
    repeat' (first
      | with_reducible assumption
      | intro _
      | with_reducible apply plainArrives_kept)

theorem execD2dAckTimer_kept {x0 s t0 : State} (k : Fin 52) (hk : Kept x0 s) (ek : execD2dAckTimer k s = .next t0) : Kept x0 t0 := by
  unfold execD2dAckTimer at ek
  rw [Host.Outcome.next.injEq] at ek; subst ek
  all_goals
    repeat' (first
      | with_reducible assumption
      | with_reducible apply d2dAckTimer_kept)

theorem execD2dRetrainComplete_kept {x0 s t0 : State} (k : Fin 52) (ok : Bool) (hk : Kept x0 s) (ek : execD2dRetrainComplete k ok s = .next t0) : Kept x0 t0 := by
  unfold execD2dRetrainComplete at ek
  rw [Host.Outcome.next.injEq] at ek; subst ek
  all_goals
    repeat' (first
      | with_reducible assumption
      | with_reducible apply d2dRetrainComplete_kept)

theorem execD2dLaneFailure_kept {x0 s t0 : State} (k : Fin 52) (lane : Fin 64) (hk : Kept x0 s) (ek : execD2dLaneFailure k lane s = .next t0) : Kept x0 t0 := by
  unfold execD2dLaneFailure at ek
  rw [Host.Outcome.next.injEq] at ek; subst ek
  all_goals
    repeat' (first
      | with_reducible assumption
      | with_reducible apply d2dLaneFailure_kept)

end Sys2Proof.Machine
end

