-- ==== Sys2Proof/Laws/KeepRings.lean ====
section
/-!
SUPPORT. What the operations of Machine/Rings.lean keep (Laws/Keep.lean).
-/

namespace Sys2Proof.Machine

theorem createRing_kept {x0 s : State} (d : Desc) (hk : Kept x0 s) : Kept x0 (createRing d s) := by
  unfold createRing
  repeat' (first
    | with_reducible assumption
    | (refine id ?_; extract_lets +onlyGivenNames u1; first
        | ((refine (fun k1 : Kept x0 u1 => ?_) ?_) <;> [clear_value u1; subst u1])
        | clear_value u1)
    | with_reducible apply State.setRing_kept
    | with_reducible apply State.complete_kept
    | ((with_reducible apply Kept.ite) <;> intro _)
    | (unfold Kept; dsimp only; with_reducible apply Kept.fold))

theorem deleteRing_kept {x0 s : State} (d : Desc) (hk : Kept x0 s) : Kept x0 (deleteRing d s) := by
  unfold deleteRing
  repeat' (first
    | with_reducible assumption
    | (refine id ?_; extract_lets +onlyGivenNames u1; first
        | ((refine (fun k1 : Kept x0 u1 => ?_) ?_) <;> [clear_value u1; subst u1])
        | clear_value u1)
    | with_reducible apply State.setRing_kept
    | with_reducible apply State.complete_kept
    | ((with_reducible apply Kept.ite) <;> intro _))

theorem resetRing_kept {x0 s : State} (d : Desc) (hk : Kept x0 s) : Kept x0 (resetRing d s) := by
  unfold resetRing
  repeat' (first
    | with_reducible assumption
    | (refine id ?_; extract_lets +onlyGivenNames u1; first
        | ((refine (fun k1 : Kept x0 u1 => ?_) ?_) <;> [clear_value u1; subst u1])
        | clear_value u1)
    | with_reducible apply State.setRing_kept
    | with_reducible apply State.complete_kept
    | ((with_reducible apply Kept.ite) <;> intro _))

theorem doorbell_kept {x0 s : State} (rid off v : Nat) (hk : Kept x0 s) : Kept x0 (doorbell rid off v s) := by
  unfold doorbell
  repeat' (first
    | with_reducible assumption
    | (refine id ?_; extract_lets +onlyGivenNames u1; first
        | ((refine (fun k1 : Kept x0 u1 => ?_) ?_) <;> [clear_value u1; subst u1])
        | clear_value u1)
    | with_reducible apply State.capture_kept
    | with_reducible apply State.setRing_kept
    | with_reducible apply State.set32_kept
    | with_reducible apply State.postEvent_kept
    | ((with_reducible apply Kept.ite) <;> intro _))

theorem descriptorTake_kept {x0 s : State} (rid : Nat) (d : Desc) (hk : Kept x0 s) : Kept x0 (descriptorTake rid d s) := by
  unfold descriptorTake
  repeat' (first
    | with_reducible assumption
    | (refine id ?_; extract_lets +onlyGivenNames u1; first
        | ((refine (fun k1 : Kept x0 u1 => ?_) ?_) <;> [clear_value u1; subst u1])
        | clear_value u1)
    | with_reducible apply State.setRing_kept
    | with_reducible apply State.complete_kept
    | ((with_reducible apply Kept.ite) <;> intro _))

theorem State.putEvent_kept {x0 s : State} (e : EventRec) (hk : Kept x0 s) : Kept x0 (State.putEvent s e) := by
  unfold State.putEvent
  repeat' (first
    | with_reducible assumption
    | (refine id ?_; extract_lets +onlyGivenNames u1; clear_value u1)
    | with_reducible apply State.announce_kept
    | with_reducible apply State.setRing_kept
    | with_reducible apply State.emit_kept)

theorem eventWrite_kept {x0 s : State} (hk : Kept x0 s) : Kept x0 (eventWrite s) := by
  unfold eventWrite
  repeat' (first
    | with_reducible assumption
    | (refine id ?_; extract_lets +onlyGivenNames u1; first
        | ((refine (fun k1 : Kept x0 u1 => ?_) ?_) <;> [clear_value u1; subst u1])
        | clear_value u1)
    | with_reducible apply State.count64_kept
    | with_reducible apply State.putEvent_kept
    | ((with_reducible apply Kept.ite) <;> intro _)
    | split
    | (unfold Kept; dsimp only; with_reducible apply Kept.fold))

theorem msixHoldoffExpiry_kept {x0 s : State} (rid : Nat) (hk : Kept x0 s) : Kept x0 (msixHoldoffExpiry rid s) := by
  unfold msixHoldoffExpiry
  repeat' (first
    | with_reducible assumption
    | (refine id ?_; extract_lets +onlyGivenNames u1; clear_value u1)
    | with_reducible apply State.sendVector_kept
    | with_reducible apply State.setRing_kept
    | ((with_reducible apply Kept.ite) <;> intro _))

theorem execCreateRing_kept {x0 s t0 : State} (d : Desc) (hk : Kept x0 s) (ek : execCreateRing d s = .next t0) : Kept x0 t0 := by
  unfold execCreateRing at ek
  rw [Host.Outcome.next.injEq] at ek; subst ek
  all_goals
    repeat' (first
      | with_reducible assumption
      | with_reducible apply createRing_kept)

theorem execDeleteRing_kept {x0 s t0 : State} (d : Desc) (hk : Kept x0 s) (ek : execDeleteRing d s = .next t0) : Kept x0 t0 := by
  unfold execDeleteRing at ek
  rw [Host.Outcome.next.injEq] at ek; subst ek
  all_goals
    repeat' (first
      | with_reducible assumption
      | with_reducible apply deleteRing_kept)

theorem execResetRing_kept {x0 s t0 : State} (d : Desc) (hk : Kept x0 s) (ek : execResetRing d s = .next t0) : Kept x0 t0 := by
  unfold execResetRing at ek
  rw [Host.Outcome.next.injEq] at ek; subst ek
  all_goals
    repeat' (first
      | with_reducible assumption
      | with_reducible apply resetRing_kept)

theorem execDoorbell_kept {x0 s t0 : State} (rid : Fin 256) (off : Nat) (v : BitVec 32) (hk : Kept x0 s) (ek : execDoorbell rid off v s = .next t0) : Kept x0 t0 := by
  unfold execDoorbell at ek
  rw [Host.Outcome.next.injEq] at ek; subst ek
  all_goals
    repeat' (first
      | with_reducible assumption
      | with_reducible apply doorbell_kept)

theorem execDescriptorTake_kept {x0 s t0 : State} (rid : Fin 66) (d : Desc) (hk : Kept x0 s) (ek : execDescriptorTake rid d s = .next t0) : Kept x0 t0 := by
  unfold execDescriptorTake at ek
  rw [Host.Outcome.next.injEq] at ek; subst ek
  all_goals
    repeat' (first
      | with_reducible assumption
      | with_reducible apply descriptorTake_kept)

theorem execEventWrite_kept {x0 s t0 : State} (hk : Kept x0 s) (ek : execEventWrite s = .next t0) : Kept x0 t0 := by
  unfold execEventWrite at ek
  rw [Host.Outcome.next.injEq] at ek; subst ek
  all_goals
    repeat' (first
      | with_reducible assumption
      | with_reducible apply eventWrite_kept)

theorem execMsixHoldoffExpiry_kept {x0 s t0 : State} (rid : Fin 256) (hk : Kept x0 s) (ek : execMsixHoldoffExpiry rid s = .next t0) : Kept x0 t0 := by
  unfold execMsixHoldoffExpiry at ek
  rw [Host.Outcome.next.injEq] at ek; subst ek
  all_goals
    repeat' (first
      | with_reducible assumption
      | with_reducible apply msixHoldoffExpiry_kept)

end Sys2Proof.Machine
end

