-- ==== Sys2Proof/Laws/KeepHostIf.lean ====
section
/-!
SUPPORT. What the operations of Machine/HostIf.lean keep (Laws/Keep.lean).
-/

namespace Sys2Proof.Machine

theorem State.forget_kept {x0 s : State} (p : Nat → Bool) (hk : Kept x0 s) : Kept x0 (State.forget s p) := by
  unfold State.forget
  repeat' (first
    | with_reducible assumption
    | (refine id ?_; extract_lets +onlyGivenNames u1; clear_value u1)
    | (unfold Kept; dsimp only; with_reducible apply Kept.fold))

theorem State.deleteRings_kept {x0 s : State} (p : Nat → Bool) (hk : Kept x0 s) : Kept x0 (State.deleteRings s p) := by
  unfold State.deleteRings
  repeat' (first
    | with_reducible assumption
    | (unfold Kept; dsimp only; with_reducible apply Kept.fold))

theorem State.resetMsix_kept {x0 s : State} (hk : Kept x0 s) : Kept x0 (State.resetMsix s) := by
  unfold State.resetMsix
  repeat' (first
    | with_reducible assumption
    | intro _
    | (refine id ?_; extract_lets +onlyGivenNames u1; first
        | ((refine (fun k1 : Kept x0 u1 => ?_) ?_) <;> [clear_value u1; subst u1])
        | clear_value u1)
    | with_reducible apply State.w32_kept
    | with_reducible apply Kept.foldl
    | (unfold Kept; dsimp only; with_reducible apply Kept.fold))

theorem State.hostReset_kept {x0 s : State} (hk : Kept x0 s) : Kept x0 (State.hostReset s) := by
  unfold State.hostReset
  repeat' (first
    | with_reducible assumption
    | intro _
    | (refine id ?_; extract_lets +onlyGivenNames u1; first
        | ((refine (fun k1 : Kept x0 u1 => ?_) ?_) <;> [clear_value u1; subst u1])
        | clear_value u1)
    | with_reducible apply State.deleteRings_kept
    | with_reducible apply State.forget_kept
    | with_reducible apply State.sf64_kept
    | with_reducible apply State.sf32_kept
    | with_reducible apply State.resetMsix_kept
    | with_reducible apply State.recordStop_kept
    | with_reducible apply Kept.foldl
    | ((with_reducible apply Kept.ite) <;> intro _)
    | (unfold Kept; dsimp only; with_reducible apply Kept.fold))

theorem State.endpointReset_kept {x0 s : State} (hk : Kept x0 s) : Kept x0 (State.endpointReset s) := by
  unfold State.endpointReset
  repeat' (first
    | with_reducible assumption
    | (refine id ?_; extract_lets +onlyGivenNames u1; ((refine (fun k1 : Kept x0 u1 => ?_) ?_) <;> [clear_value u1; subst u1]))
    | with_reducible apply State.hostReset_kept
    | with_reducible apply State.w64_kept
    | with_reducible apply State.w32_kept)

theorem State.startHost_kept {x0 s : State} (hk : Kept x0 s) : Kept x0 (State.startHost s) := by
  unfold State.startHost
  repeat' (first
    | with_reducible assumption
    | (refine id ?_; extract_lets +onlyGivenNames u1; first
        | ((refine (fun k1 : Kept x0 u1 => ?_) ?_) <;> [clear_value u1; subst u1])
        | clear_value u1)
    | with_reducible apply State.setRing_kept
    | with_reducible apply State.sf32_kept
    | ((with_reducible apply Kept.ite) <;> intro _)
    | (unfold Kept; dsimp only; with_reducible apply Kept.fold))

theorem enable_kept {x0 s : State} (on : Bool) (hk : Kept x0 s) : Kept x0 (enable on s) := by
  unfold enable
  repeat' (first
    | with_reducible assumption
    | (refine id ?_; extract_lets +onlyGivenNames u1; first
        | ((refine (fun k1 : Kept x0 u1 => ?_) ?_) <;> [clear_value u1; subst u1])
        | clear_value u1)
    | with_reducible apply State.sf32_kept
    | with_reducible apply State.startHost_kept
    | with_reducible apply State.hostReset_kept
    | ((with_reducible apply Kept.ite) <;> intro _))

theorem hostInterfaceReady_kept {x0 s : State} (hk : Kept x0 s) : Kept x0 (hostInterfaceReady s) := by
  unfold hostInterfaceReady
  repeat' (first
    | with_reducible assumption
    | (refine id ?_; extract_lets +onlyGivenNames u1; first
        | ((refine (fun k1 : Kept x0 u1 => ?_) ?_) <;> [clear_value u1; subst u1])
        | clear_value u1)
    | with_reducible apply State.sf32_kept
    | with_reducible apply State.startHost_kept
    | ((with_reducible apply Kept.ite) <;> intro _)
    | (unfold Kept; dsimp only; with_reducible apply Kept.fold))

theorem State.setLink_kept {x0 s : State} (up : Bool) (hk : Kept x0 s) : Kept x0 (State.setLink s up) := by
  unfold State.setLink
  repeat' (first
    | with_reducible assumption
    | (unfold Kept; dsimp only; with_reducible apply Kept.fold))

theorem perstN_kept {x0 s : State} (hk : Kept x0 s) : Kept x0 (perstN s) := by
  unfold perstN
  repeat' (first
    | with_reducible assumption
    | (refine id ?_; extract_lets +onlyGivenNames u1; first
        | ((refine (fun k1 : Kept x0 u1 => ?_) ?_) <;> [clear_value u1; subst u1])
        | clear_value u1)
    | with_reducible apply State.endpointReset_kept
    | with_reducible apply State.setLink_kept
    | (unfold Kept; dsimp only; with_reducible apply Kept.fold))

theorem pcieLinkUp_kept {x0 s : State} (hk : Kept x0 s) : Kept x0 (pcieLinkUp s) := by
  unfold pcieLinkUp
  repeat' (first
    | with_reducible assumption
    | with_reducible apply State.setLink_kept
    | ((with_reducible apply Kept.ite) <;> intro _))

theorem configRequest_kept {x0 s : State} (hk : Kept x0 s) : Kept x0 (configRequest s) := by
  unfold configRequest
  repeat' (first
    | with_reducible assumption
    | (refine id ?_; extract_lets +onlyGivenNames u1; clear_value u1)
    | with_reducible apply State.emit_kept
    | ((with_reducible apply Kept.ite) <;> intro _))

theorem errValid_kept {x0 s : State} (hk : Kept x0 s) : Kept x0 (errValid s) := by
  unfold errValid
  repeat' (first
    | with_reducible assumption
    | with_reducible apply State.sf32_kept)

theorem netAddress_kept {x0 s : State} (d : Desc) (hk : Kept x0 s) : Kept x0 (netAddress d s) := by
  unfold netAddress
  repeat' (first
    | with_reducible assumption
    | (refine id ?_; extract_lets +onlyGivenNames u1; first
        | ((refine (fun k1 : Kept x0 u1 => ?_) ?_) <;> [clear_value u1; subst u1])
        | clear_value u1)
    | with_reducible apply State.complete_kept
    | ((with_reducible apply Kept.ite) <;> intro _)
    | (unfold Kept; dsimp only; with_reducible apply Kept.fold))

theorem netWindow_kept {x0 s : State} (d : Desc) (hk : Kept x0 s) : Kept x0 (netWindow d s) := by
  unfold netWindow
  repeat' (first
    | with_reducible assumption
    | (refine id ?_; extract_lets +onlyGivenNames u1; first
        | ((refine (fun k1 : Kept x0 u1 => ?_) ?_) <;> [clear_value u1; subst u1])
        | clear_value u1)
    | with_reducible apply State.complete_kept
    | with_reducible apply State.drawn_kept
    | ((with_reducible apply Kept.ite) <;> intro _)
    | (unfold Kept; dsimp only; with_reducible apply Kept.fold))

theorem netClose_kept {x0 s : State} (d : Desc) (hk : Kept x0 s) : Kept x0 (netClose d s) := by
  unfold netClose
  repeat' (first
    | with_reducible assumption
    | (refine id ?_; extract_lets +onlyGivenNames u1; clear_value u1)
    | with_reducible apply State.complete_kept
    | ((with_reducible apply Kept.ite) <;> intro _)
    | (unfold Kept; dsimp only; with_reducible apply Kept.fold))

theorem State.rdmaError_kept {x0 s : State} (port : Nat) (hk : Kept x0 s) : Kept x0 (State.rdmaError s port) := by
  unfold State.rdmaError
  repeat' (first
    | with_reducible assumption
    | with_reducible apply State.emit_kept
    | with_reducible apply State.count64_kept)

theorem rdmaWrite_kept {x0 s : State} (port qpn peer rkey off : Nat) (data : List Byte)
    (hk : Kept x0 s) : Kept x0 (rdmaWrite port qpn peer rkey off data s) := by
  unfold rdmaWrite
  repeat' (first
    | with_reducible assumption
    | with_reducible apply State.rdmaError_kept
    | with_reducible apply State.emit_kept
    | with_reducible apply State.store_kept
    | ((with_reducible apply Kept.ite) <;> intro _)
    | split)

theorem rdmaRead_kept {x0 s : State} (port qpn peer rkey off len : Nat) (hk : Kept x0 s) : Kept x0 (rdmaRead port qpn peer rkey off len s) := by
  unfold rdmaRead
  repeat' (first
    | with_reducible assumption
    | with_reducible apply State.rdmaError_kept
    | with_reducible apply State.emit_kept
    | ((with_reducible apply Kept.ite) <;> intro _)
    | split)

theorem reach_kept {x0 s : State} (port fam addr kind : Nat) (hk : Kept x0 s) : Kept x0 (reach port fam addr kind s) := by
  unfold reach
  repeat' (first
    | with_reducible assumption
    | with_reducible apply State.emit_kept
    | ((with_reducible apply Kept.ite) <;> intro _)
    | split)

theorem unsupportedFrame_kept {x0 s : State} (port : Nat) (hk : Kept x0 s) : Kept x0 (unsupportedFrame port s) := by
  unfold unsupportedFrame
  repeat' (first
    | with_reducible assumption
    | with_reducible apply State.count64_kept
    | ((with_reducible apply Kept.ite) <;> intro _))

theorem execEnable_kept {x0 s t0 : State} (on : Bool) (hk : Kept x0 s) (ek : execEnable on s = .next t0) : Kept x0 t0 := by
  unfold execEnable at ek
  rw [Host.Outcome.next.injEq] at ek; subst ek
  all_goals
    repeat' (first
      | with_reducible assumption
      | with_reducible apply enable_kept)

theorem execHostInterfaceReady_kept {x0 s t0 : State} (hk : Kept x0 s) (ek : execHostInterfaceReady s = .next t0) : Kept x0 t0 := by
  unfold execHostInterfaceReady at ek
  rw [Host.Outcome.next.injEq] at ek; subst ek
  all_goals
    repeat' (first
      | with_reducible assumption
      | with_reducible apply hostInterfaceReady_kept)

theorem execErrValid_kept {x0 s t0 : State} (hk : Kept x0 s) (ek : execErrValid s = .next t0) : Kept x0 t0 := by
  unfold execErrValid at ek
  rw [Host.Outcome.next.injEq] at ek; subst ek
  all_goals
    repeat' (first
      | with_reducible assumption
      | with_reducible apply errValid_kept)

theorem execFunctionLevelReset_kept {x0 s t0 : State} (hk : Kept x0 s) (ek : execFunctionLevelReset s = .next t0) : Kept x0 t0 := by
  unfold execFunctionLevelReset at ek
  rw [Host.Outcome.next.injEq] at ek; subst ek
  all_goals
    repeat' (first
      | with_reducible assumption
      | with_reducible apply State.endpointReset_kept)

theorem execHotReset_kept {x0 s t0 : State} (hk : Kept x0 s) (ek : execHotReset s = .next t0) : Kept x0 t0 := by
  unfold execHotReset at ek
  rw [Host.Outcome.next.injEq] at ek; subst ek
  all_goals
    repeat' (first
      | with_reducible assumption
      | with_reducible apply State.endpointReset_kept
      | with_reducible apply State.setLink_kept)

theorem execLinkDisable_kept {x0 s t0 : State} (hk : Kept x0 s) (ek : execLinkDisable s = .next t0) : Kept x0 t0 := by
  unfold execLinkDisable at ek
  rw [Host.Outcome.next.injEq] at ek; subst ek
  all_goals
    repeat' (first
      | with_reducible assumption
      | with_reducible apply State.endpointReset_kept
      | with_reducible apply State.setLink_kept)

theorem execLinkDown_kept {x0 s t0 : State} (hk : Kept x0 s) (ek : execLinkDown s = .next t0) : Kept x0 t0 := by
  unfold execLinkDown at ek
  rw [Host.Outcome.next.injEq] at ek; subst ek
  all_goals
    repeat' (first
      | with_reducible assumption
      | with_reducible apply State.endpointReset_kept
      | with_reducible apply State.setLink_kept)

theorem execPerstN_kept {x0 s t0 : State} (hk : Kept x0 s) (ek : execPerstN s = .next t0) : Kept x0 t0 := by
  unfold execPerstN at ek
  rw [Host.Outcome.next.injEq] at ek; subst ek
  all_goals
    repeat' (first
      | with_reducible assumption
      | with_reducible apply perstN_kept)

theorem execPerstNRelease_kept {x0 s t0 : State} (hk : Kept x0 s) (ek : execPerstNRelease s = .next t0) : Kept x0 t0 := by
  unfold execPerstNRelease at ek
  rw [Host.Outcome.next.injEq] at ek; subst ek
  all_goals
    repeat' (first
      | with_reducible assumption
      | (unfold Kept; dsimp only; with_reducible apply Kept.fold))

theorem execPcieLinkUp_kept {x0 s t0 : State} (hk : Kept x0 s) (ek : execPcieLinkUp s = .next t0) : Kept x0 t0 := by
  unfold execPcieLinkUp at ek
  rw [Host.Outcome.next.injEq] at ek; subst ek
  all_goals
    repeat' (first
      | with_reducible assumption
      | with_reducible apply pcieLinkUp_kept)

theorem execConfigRequest_kept {x0 s t0 : State} (hk : Kept x0 s) (ek : execConfigRequest s = .next t0) : Kept x0 t0 := by
  unfold execConfigRequest at ek
  rw [Host.Outcome.next.injEq] at ek; subst ek
  all_goals
    repeat' (first
      | with_reducible assumption
      | with_reducible apply configRequest_kept)

theorem execNetAddress_kept {x0 s t0 : State} (d : Desc) (hk : Kept x0 s) (ek : execNetAddress d s = .next t0) : Kept x0 t0 := by
  unfold execNetAddress at ek
  rw [Host.Outcome.next.injEq] at ek; subst ek
  all_goals
    repeat' (first
      | with_reducible assumption
      | with_reducible apply netAddress_kept)

theorem execNetWindow_kept {x0 s t0 : State} (d : Desc) (hk : Kept x0 s) (ek : execNetWindow d s = .next t0) : Kept x0 t0 := by
  unfold execNetWindow at ek
  rw [Host.Outcome.next.injEq] at ek; subst ek
  all_goals
    repeat' (first
      | with_reducible assumption
      | with_reducible apply netWindow_kept)

theorem execNetClose_kept {x0 s t0 : State} (d : Desc) (hk : Kept x0 s) (ek : execNetClose d s = .next t0) : Kept x0 t0 := by
  unfold execNetClose at ek
  rw [Host.Outcome.next.injEq] at ek; subst ek
  all_goals
    repeat' (first
      | with_reducible assumption
      | with_reducible apply netClose_kept)

theorem execRdmaWrite_kept {x0 s t0 : State} (port : Fin 2) (qpn peer rkey off : Nat) (data : List Byte) (hk : Kept x0 s) (ek : execRdmaWrite port qpn peer rkey off data s = .next t0) : Kept x0 t0 := by
  unfold execRdmaWrite at ek
  rw [Host.Outcome.next.injEq] at ek; subst ek
  all_goals
    repeat' (first
      | with_reducible assumption
      | with_reducible apply rdmaWrite_kept)

theorem execRdmaRead_kept {x0 s t0 : State} (port : Fin 2) (qpn peer rkey off len : Nat) (hk : Kept x0 s) (ek : execRdmaRead port qpn peer rkey off len s = .next t0) : Kept x0 t0 := by
  unfold execRdmaRead at ek
  rw [Host.Outcome.next.injEq] at ek; subst ek
  all_goals
    repeat' (first
      | with_reducible assumption
      | with_reducible apply rdmaRead_kept)

theorem execArp_kept {x0 s t0 : State} (port : Fin 2) (addr : Nat) (hk : Kept x0 s) (ek : execArp port addr s = .next t0) : Kept x0 t0 := by
  unfold execArp at ek
  rw [Host.Outcome.next.injEq] at ek; subst ek
  all_goals
    repeat' (first
      | with_reducible assumption
      | with_reducible apply reach_kept)

theorem execNeighbourDiscovery_kept {x0 s t0 : State} (port : Fin 2) (addr : Nat) (hk : Kept x0 s) (ek : execNeighbourDiscovery port addr s = .next t0) : Kept x0 t0 := by
  unfold execNeighbourDiscovery at ek
  rw [Host.Outcome.next.injEq] at ek; subst ek
  all_goals
    repeat' (first
      | with_reducible assumption
      | with_reducible apply reach_kept)

theorem execEchoRequest_kept {x0 s t0 : State} (port : Fin 2) (six : Bool) (addr : Nat) (hk : Kept x0 s) (ek : execEchoRequest port six addr s = .next t0) : Kept x0 t0 := by
  unfold execEchoRequest at ek
  (try split at ek) <;> first | (rw [Host.Outcome.next.injEq] at ek; subst ek) | simp only [reduceCtorEq] at ek
  all_goals
    repeat' (first
      | with_reducible assumption
      | with_reducible apply reach_kept)

theorem execUnsupportedFrame_kept {x0 s t0 : State} (port : Fin 2) (hk : Kept x0 s) (ek : execUnsupportedFrame port s = .next t0) : Kept x0 t0 := by
  unfold execUnsupportedFrame at ek
  rw [Host.Outcome.next.injEq] at ek; subst ek
  all_goals
    repeat' (first
      | with_reducible assumption
      | with_reducible apply unsupportedFrame_kept)

end Sys2Proof.Machine
end

