-- ==== Sys2Proof/Laws/KeepMeasure.lean ====
section
/-!
SUPPORT. What the operations of Machine/Measure.lean keep (Laws/Keep.lean).
-/

namespace Sys2Proof.Machine

theorem State.publish_kept {x0 s : State} (hk : Kept x0 s) : Kept x0 (State.publish s) := by
  unfold State.publish
  repeat' (first
    | with_reducible assumption
    | (refine id ?_; extract_lets +onlyGivenNames u1; clear_value u1)
    | (unfold Kept; dsimp only; with_reducible apply Kept.fold))

end Sys2Proof.Machine
end

