-- ==== Sys2Proof/Laws/KeepLoader.lean ====
section
/-!
SUPPORT. What the operations of Machine/Loader.lean keep (Laws/Keep.lean).
-/

namespace Sys2Proof.Machine

theorem State.setLoads_kept {x0 s : State} (l : List Load) (hk : Kept x0 s) : Kept x0 (State.setLoads s l) := by
  unfold State.setLoads
  repeat' (first
    | with_reducible assumption
    | with_reducible apply State.sf32_kept
    | (unfold Kept; dsimp only; with_reducible apply Kept.fold))

theorem State.putLoad_kept {x0 s : State} (l : Load) (hk : Kept x0 s) : Kept x0 (State.putLoad s l) := by
  unfold State.putLoad
  repeat' (first
    | with_reducible assumption
    | with_reducible apply State.setLoads_kept)

theorem State.endLoad_kept {x0 s : State} (l : Load) (status r0 r1 : Nat) (hk : Kept x0 s) : Kept x0 (State.endLoad s l status r0 r1) := by
  unfold State.endLoad
  repeat' (first
    | with_reducible assumption
    | (refine id ?_; extract_lets +onlyGivenNames u1; ((refine (fun k1 : Kept x0 u1 => ?_) ?_) <;> [clear_value u1; subst u1]))
    | with_reducible apply State.setLoads_kept
    | with_reducible apply State.count64_kept
    | with_reducible apply State.complete_kept
    | ((with_reducible apply Kept.ite) <;> intro _))

theorem State.consumed_kept {x0 s : State} (k : Nat) (hk : Kept x0 s) : Kept x0 (State.consumed s k) := by
  unfold State.consumed
  repeat' (first
    | with_reducible assumption
    | (refine id ?_; extract_lets +onlyGivenNames u1; first
        | ((refine (fun k1 : Kept x0 u1 => ?_) ?_) <;> [clear_value u1; subst u1])
        | clear_value u1)
    | with_reducible apply State.sf64_kept
    | (unfold Kept; dsimp only; with_reducible apply Kept.fold))

theorem State.buildMulticast_kept {x0 s : State} (n : Nat) (needs : List (Nat × (Nat × Nat) × Nat)) (hk : Kept x0 s) :
    KeptAll x0 (State.buildMulticast s n needs) := by
  unfold State.buildMulticast
  refine KeptAll.rounds (KeptAll.one (Kept.foldl hk (fun t _ ht => Kept.foldl ht (fun u _ hu => ?_)))) (fun _ _ hu => KeptAll.map (fun _ => State.wWide_kept _ _ _ hu))
  exact Kept.ite (fun _ => State.wWide_kept _ _ _ hu) (fun _ => hu)

theorem State.buildPeers_kept {x0 s : State} (n : Nat) (job : JobPlacement) (hk : Kept x0 s) : Kept x0 (State.buildPeers s n job) := by
  unfold State.buildPeers
  repeat' (first
    | with_reducible assumption
    | intro _
    | with_reducible apply State.w32_kept
    | with_reducible apply Kept.foldl)

theorem State.clearLoad_kept {x0 s : State} (l : Load) (b : List Byte) (k : Nat) (hk : Kept x0 s) : Kept x0 (State.clearLoad s l b k) := by
  unfold State.clearLoad
  repeat' (first
    | with_reducible assumption
    | intro _
    | with_reducible apply State.store_kept
    | with_reducible apply Kept.foldl
    | split)

theorem State.failLate_kept {x0 s : State} (l : Load) (b : List Byte) (k status step sec die : Nat)
    (hk : Kept x0 s) : Kept x0 (State.failLate s l b k status step sec die) := by
  unfold State.failLate
  repeat' (first
    | with_reducible assumption
    | with_reducible apply State.endLoad_kept
    | with_reducible apply State.set32_kept
    | with_reducible apply State.clearLoad_kept)

theorem State.arriveSection_kept {x0 s : State} (l : Load) (b : List Byte) (p : Section × Nat)
    (hk : Kept x0 s) : Kept x0 (State.arriveSection s l b p).1 := by
  unfold State.arriveSection
  repeat' (first
    | with_reducible assumption
    | with_reducible apply State.store_kept
    | split)

theorem State.clearWindows_kept {x0 s : State} (n : Nat) (hk : Kept x0 s) : Kept x0 (State.clearWindows s n) := by
  unfold State.clearWindows
  repeat' (first
    | with_reducible assumption
    | intro _
    | (refine id ?_; extract_lets +onlyGivenNames u1; first
        | ((refine (fun k1 : Kept x0 u1 => ?_) ?_) <;> [clear_value u1; subst u1])
        | clear_value u1)
    | with_reducible apply State.putFlag_kept
    | with_reducible apply State.putCtr_kept
    | with_reducible apply Kept.foldl)

theorem State.stageStreams_kept {x0 s : State} (n : Nat) (secs : List Section) (hk : Kept x0 s) : Kept x0 (State.stageStreams s n secs) := by
  unfold State.stageStreams
  repeat' (first
    | with_reducible assumption
    | intro _
    | (refine id ?_; extract_lets +onlyGivenNames u1; clear_value u1)
    | with_reducible apply State.stage_kept
    | with_reducible apply Kept.foldl
    | split)

theorem State.finishProgram_kept {x0 s : State} (l : Load) (b : List Byte) (hk : Kept x0 s) : Kept x0 (State.finishProgram s l b) := by
  unfold State.finishProgram
  extract_lets +onlyGivenNames n secs k bad
  have hb : Kept x0 bad := State.failLate_kept _ _ _ _ _ _ _ hk
  clear_value bad
  split
  · extract_lets +onlyGivenNames byCore s1
    have h1 : Kept x0 s1 := State.buildPeers_kept _ _ hk
    clear_value s1
    refine Kept.ite (fun _ => hb) (fun _ => ?_)
    split
    · exact hb
    · next u e =>
      have hu : Kept x0 u := KeptAll.get e (KeptAll.bind (fun _ => State.buildMulticast_kept _ _ h1))
      extract_lets +onlyGivenNames s2 s3 s4 img
      have h2 : Kept x0 s2 := Kept.foldl hu (fun t p ht => by
        split
        · exact State.store_kept _ _ ht
        · exact ht)
      clear_value s2
      have h3 : Kept x0 s3 := State.stageStreams_kept _ _ (State.clearWindows_kept _ h2)
      exact State.putLoad_kept _ (Kept.fold h3)
  · exact hb

theorem State.finishOther_kept {x0 s : State} (l : Load) (b : List Byte) (hk : Kept x0 s) : Kept x0 (State.finishOther s l b) := by
  unfold State.finishOther
  repeat' (first
    | with_reducible assumption
    | (refine id ?_; extract_lets +onlyGivenNames u1; first
        | ((refine (fun k1 : Kept x0 u1 => ?_) ?_) <;> [clear_value u1; subst u1])
        | clear_value u1)
    | with_reducible apply State.endLoad_kept
    | split
    | (unfold Kept; dsimp only; with_reducible apply Kept.fold))

theorem State.advanceLoad_kept {x0 s : State} (l : Load) (new : List Byte) (last : Bool)
    (hk : Kept x0 s) : Kept x0 (State.advanceLoad s l new last) := by
  unfold State.advanceLoad
  repeat' (first
    | with_reducible assumption
    | intro _
    | (refine id ?_; extract_lets +onlyGivenNames u1; first
        | ((refine (fun k1 : Kept x0 u1 => ?_) ?_) <;> [clear_value u1; subst u1])
        | ((refine (fun k1 : Kept x0 u1.1 => ?_) ?_) <;> [clear_value u1; subst u1])
        | clear_value u1)
    | with_reducible apply State.consumed_kept
    | with_reducible apply State.putLoad_kept
    | with_reducible apply State.endLoad_kept
    | with_reducible apply State.emit_kept
    | with_reducible apply State.arriveSection_kept
    | with_reducible apply State.failLate_kept
    | with_reducible apply State.finishProgram_kept
    | with_reducible apply State.finishOther_kept
    | with_reducible apply Kept.foldl_fst
    | ((with_reducible apply Kept.ite) <;> intro _)
    | with_reducible refine Kept.fst_eq (by with_reducible assumption) ?_
    | split)

theorem State.rechoose_kept {x0 s : State} (n : Nat) (hk : Kept x0 s) : Kept x0 (State.rechoose s n) := by
  unfold State.rechoose
  repeat' (first
    | with_reducible assumption
    | intro _
    | (refine id ?_; extract_lets +onlyGivenNames u1; clear_value u1)
    | with_reducible apply State.chooseIdle_kept
    | with_reducible apply Kept.foldl
    | ((with_reducible apply Kept.ite) <;> intro _))

theorem takeLoad_kept {x0 s : State} (rid : Nat) (own : List (Nat × Nat)) (d : Desc) (src : HostRead) (job : JobPlacement)
    (hk : Kept x0 s) : Kept x0 (takeLoad rid own d src job s) := by
  unfold takeLoad
  repeat' (first
    | with_reducible assumption
    | (refine id ?_; extract_lets +onlyGivenNames u1; first
        | ((refine (fun k1 : Kept x0 u1 => ?_) ?_) <;> [clear_value u1; subst u1])
        | clear_value u1)
    | with_reducible apply State.complete_kept
    | with_reducible apply State.count64_kept
    | with_reducible apply State.rechoose_kept
    | with_reducible apply State.setLoads_kept
    | with_reducible apply State.advanceLoad_kept
    | with_reducible apply State.endLoad_kept
    | ((with_reducible apply Kept.ite) <;> intro _)
    | split)

theorem State.firmwareWrite_kept {x0 s : State} (rid cmdId : Nat) (b : List Byte)
    (hk : Kept x0 s) : Kept x0 (State.firmwareWrite s rid cmdId b) := by
  unfold State.firmwareWrite
  repeat' (first
    | with_reducible assumption
    | (refine id ?_; extract_lets +onlyGivenNames u1; clear_value u1)
    | with_reducible apply State.complete_kept
    | split
    | (unfold Kept; dsimp only; with_reducible apply Kept.fold))

theorem State.repairWait_kept {x0 s : State} (hk : Kept x0 s) : Kept x0 (State.repairWait s) := by
  unfold State.repairWait
  repeat' (first
    | with_reducible assumption
    | with_reducible apply State.sf32_kept)

theorem State.abandonRepair_kept {x0 s : State} (r : Repair) (hk : Kept x0 s) : Kept x0 (State.abandonRepair s r) := by
  unfold State.abandonRepair
  repeat' (first
    | with_reducible assumption
    | intro _
    | (refine id ?_; extract_lets +onlyGivenNames u1; first
        | ((refine (fun k1 : Kept x0 u1 => ?_) ?_) <;> [clear_value u1; subst u1])
        | clear_value u1)
    | with_reducible apply State.repairWait_kept
    | with_reducible apply State.set32_kept
    | with_reducible apply State.recordStop_kept
    | with_reducible apply Kept.foldl
    | (unfold Kept; dsimp only; with_reducible apply Kept.fold))

theorem State.rewrite_kept {x0 s : State} (r : Repair) (stored : List Byte) (hk : Kept x0 s) : Kept x0 (State.rewrite s r stored) := by
  unfold State.rewrite
  repeat' (first
    | with_reducible assumption
    | intro _
    | (refine id ?_; extract_lets +onlyGivenNames u1; first
        | ((refine (fun k1 : Kept x0 u1 => ?_) ?_) <;> [clear_value u1; subst u1])
        | clear_value u1)
    | with_reducible apply State.repairWait_kept
    | with_reducible apply State.store_kept
    | with_reducible apply State.count64_kept
    | with_reducible apply State.setPart_kept
    | with_reducible apply State.abandonRepair_kept
    | with_reducible apply Kept.foldl
    | ((with_reducible apply Kept.ite) <;> intro _)
    | split
    | (unfold Kept; dsimp only; with_reducible apply Kept.fold))

theorem State.askRepairs_kept {x0 s : State} (r1 : Nat) (hk : Kept x0 s) : Kept x0 (State.askRepairs s r1) := by
  induction r1 generalizing s with
  | zero =>
    unfold State.askRepairs
    repeat' (first
      | with_reducible assumption)
  | succ m ih =>
    unfold State.askRepairs
    repeat' (first
      | with_reducible assumption
      | (refine id ?_; extract_lets +onlyGivenNames u1; first
        | ((refine (fun k1 : Kept x0 u1 => ?_) ?_) <;> [clear_value u1; subst u1])
        | clear_value u1)
      | with_reducible apply ih
      | with_reducible apply State.complete_kept
      | split
      | (unfold Kept; dsimp only; with_reducible apply Kept.fold))

theorem State.openRepairs_kept {x0 s : State} (a len : Nat) (hk : Kept x0 s) : Kept x0 (State.openRepairs s a len) := by
  unfold State.openRepairs
  repeat' (first
    | with_reducible assumption
    | intro _
    | (refine id ?_; extract_lets +onlyGivenNames u1; first
        | ((refine (fun k1 : Kept x0 u1 => ?_) ?_) <;> [clear_value u1; subst u1])
        | clear_value u1)
    | with_reducible apply State.setPart_kept
    | with_reducible apply State.askRepairs_kept
    | with_reducible apply State.repairWait_kept
    | with_reducible apply Kept.foldl
    | split
    | (unfold Kept; dsimp only; with_reducible apply Kept.fold))

theorem State.advanceOther_kept {x0 s : State} (l : Load) (new : List Byte) (hk : Kept x0 s) : Kept x0 (State.advanceOther s l new) := by
  unfold State.advanceOther
  repeat' (first
    | with_reducible assumption
    | intro _
    | ((fail_if_success have := @kf0); refine id ?_; extract_lets +onlyGivenNames u1; (refine (fun kf0 : ∀ u, Kept x0 u → Kept x0 (u1 u) => ?_) ?_) <;> [clear_value u1; subst u1])
    | (refine id ?_; extract_lets +onlyGivenNames u1; first
        | ((refine (fun k1 : Kept x0 u1 => ?_) ?_) <;> [clear_value u1; subst u1])
        | clear_value u1)
    | with_reducible apply kf0
    | with_reducible apply State.consumed_kept
    | with_reducible apply State.setLoads_kept
    | with_reducible apply State.putLoad_kept
    | with_reducible apply State.firmwareWrite_kept
    | with_reducible apply State.complete_kept
    | with_reducible apply State.rewrite_kept
    | ((with_reducible apply Kept.ite) <;> intro _)
    | split)

theorem imageFeed_kept {x0 s : State} (d : Desc) (hk : Kept x0 s) : Kept x0 (imageFeed d s) := by
  unfold imageFeed
  repeat' (first
    | with_reducible assumption
    | (refine id ?_; extract_lets +onlyGivenNames u1; first
        | ((refine (fun k1 : Kept x0 u1 => ?_) ?_) <;> [clear_value u1; subst u1])
        | clear_value u1)
    | with_reducible apply State.complete_kept
    | with_reducible apply State.advanceLoad_kept
    | with_reducible apply State.advanceOther_kept
    | ((with_reducible apply Kept.ite) <;> intro _)
    | split)

theorem feedTimeout_kept {x0 s : State} (off : Nat) (hk : Kept x0 s) : Kept x0 (feedTimeout off s) := by
  unfold feedTimeout
  repeat' (first
    | with_reducible assumption
    | (refine id ?_; extract_lets +onlyGivenNames u1; clear_value u1)
    | with_reducible apply State.complete_kept
    | with_reducible apply State.setLoads_kept
    | with_reducible apply State.endLoad_kept
    | with_reducible apply State.failLate_kept
    | ((with_reducible apply Kept.ite) <;> intro _)
    | split)

theorem trustKey_kept {x0 s : State} (d : Desc) (key : HostRead) (hk : Kept x0 s) : Kept x0 (trustKey d key s) := by
  unfold trustKey
  repeat' (first
    | with_reducible assumption
    | intro _
    | ((fail_if_success have := @kf0); refine id ?_; extract_lets +onlyGivenNames u1; (refine (fun kf0 : ∀ a0 u, Kept x0 u → Kept x0 (u1 a0 u) => ?_) ?_) <;> [clear_value u1; subst u1])
    | ((fail_if_success have := @kf1); refine id ?_; extract_lets +onlyGivenNames u1; (refine (fun kf1 : ∀ a0, Kept x0 (u1 a0) => ?_) ?_) <;> [clear_value u1; subst u1])
    | (refine id ?_; extract_lets +onlyGivenNames u1; clear_value u1)
    | with_reducible apply kf0
    | with_reducible apply kf1
    | with_reducible apply State.complete_kept
    | with_reducible apply State.sf32_kept
    | ((with_reducible apply Kept.ite) <;> intro _)
    | split
    | (unfold Kept; dsimp only; with_reducible apply Kept.fold))

theorem baseUnload_kept {x0 s : State} (d : Desc) (hk : Kept x0 s) : Kept x0 (baseUnload d s) := by
  unfold baseUnload
  repeat' (first
    | with_reducible assumption
    | (refine id ?_; extract_lets +onlyGivenNames u1; first
        | ((refine (fun k1 : Kept x0 u1 => ?_) ?_) <;> [clear_value u1; subst u1])
        | clear_value u1)
    | with_reducible apply State.complete_kept
    | with_reducible apply State.publish_kept
    | ((with_reducible apply Kept.ite) <;> intro _)
    | (unfold Kept; dsimp only; with_reducible apply Kept.fold))

theorem repairRequest_kept {x0 s : State} (d : Desc) (hk : Kept x0 s) : Kept x0 (repairRequest d s) := by
  unfold repairRequest
  repeat' (first
    | with_reducible assumption
    | (refine id ?_; extract_lets +onlyGivenNames u1; first
        | ((refine (fun k1 : Kept x0 u1 => ?_) ?_) <;> [clear_value u1; subst u1])
        | clear_value u1)
    | with_reducible apply State.complete_kept
    | with_reducible apply State.askRepairs_kept
    | ((with_reducible apply Kept.ite) <;> intro _)
    | (unfold Kept; dsimp only; with_reducible apply Kept.fold))

theorem imageRepair_kept {x0 s : State} (d : Desc) (src : HostRead) (hk : Kept x0 s) : Kept x0 (imageRepair d src s) := by
  unfold imageRepair
  repeat' (first
    | with_reducible assumption
    | intro _
    | ((fail_if_success have := @kf0); refine id ?_; extract_lets +onlyGivenNames u1; (refine (fun kf0 : ∀ a0 u, Kept x0 u → Kept x0 (u1 a0 u) => ?_) ?_) <;> [clear_value u1; subst u1])
    | (refine id ?_; extract_lets +onlyGivenNames u1; clear_value u1)
    | with_reducible apply kf0
    | with_reducible apply State.complete_kept
    | with_reducible apply State.setLoads_kept
    | with_reducible apply State.rewrite_kept
    | with_reducible apply State.consumed_kept
    | ((with_reducible apply Kept.ite) <;> intro _)
    | split)

theorem firmwareUpdate_kept {x0 s : State} (d : Desc) (src : HostRead) (hk : Kept x0 s) : Kept x0 (firmwareUpdate d src s) := by
  unfold firmwareUpdate
  repeat' (first
    | with_reducible assumption
    | intro _
    | ((fail_if_success have := @kf0); refine id ?_; extract_lets +onlyGivenNames u1; (refine (fun kf0 : ∀ a0 u, Kept x0 u → Kept x0 (u1 a0 u) => ?_) ?_) <;> [clear_value u1; subst u1])
    | (refine id ?_; extract_lets +onlyGivenNames u1; clear_value u1)
    | with_reducible apply kf0
    | with_reducible apply State.complete_kept
    | with_reducible apply State.setLoads_kept
    | with_reducible apply State.firmwareWrite_kept
    | with_reducible apply State.consumed_kept
    | ((with_reducible apply Kept.ite) <;> intro _)
    | split)

theorem rewriteComplete_kept {x0 s : State} (id : Nat) (stored : List Byte) (hk : Kept x0 s) : Kept x0 (rewriteComplete id stored s) := by
  unfold rewriteComplete
  repeat' (first
    | with_reducible assumption
    | with_reducible apply State.rewrite_kept
    | with_reducible apply State.consumed_kept
    | ((with_reducible apply Kept.ite) <;> intro _)
    | split)

theorem loadComplete_kept {x0 s : State} (part : Nat) (hk : Kept x0 s) : Kept x0 (loadComplete part s) := by
  unfold loadComplete
  repeat' (first
    | with_reducible assumption
    | with_reducible apply State.endLoad_kept
    | ((with_reducible apply Kept.ite) <;> intro _)
    | split)

theorem State.loadsApply_kept {x0 s : State} (h : Nat) (hk : Kept x0 s) : Kept x0 (State.loadsApply s h) := by
  unfold State.loadsApply
  repeat' (first
    | with_reducible assumption
    | intro _
    | (refine id ?_; extract_lets +onlyGivenNames u1; first
        | ((refine (fun k1 : Kept x0 u1 => ?_) ?_) <;> [clear_value u1; subst u1])
        | clear_value u1)
    | with_reducible apply State.setPstate_kept
    | with_reducible apply State.sf32_kept
    | with_reducible apply State.w32_kept
    | with_reducible apply State.setPart_kept
    | with_reducible apply Kept.foldl
    | ((with_reducible apply Kept.ite) <;> intro _)
    | split
    | (unfold Kept; dsimp only; with_reducible apply Kept.fold))

theorem State.idleCore_kept {x0 s : State} (g : Nat) (hk : Kept x0 s) : Kept x0 (State.idleCore s g) := by
  unfold State.idleCore
  repeat' (first
    | with_reducible assumption
    | (refine id ?_; extract_lets +onlyGivenNames u1; first
        | ((refine (fun k1 : Kept x0 u1 => ?_) ?_) <;> [clear_value u1; subst u1])
        | clear_value u1)
    | with_reducible apply State.emptyCore_kept
    | with_reducible apply State.setCore_kept
    | with_reducible apply State.setSeqPos_kept
    | with_reducible apply State.setSeqState_kept)

theorem unloadPart_kept {x0 s : State} (n : Nat) (d : Desc) (hk : Kept x0 s) : Kept x0 (unloadPart n d s) := by
  unfold unloadPart
  repeat' (first
    | with_reducible assumption
    | intro _
    | (refine id ?_; extract_lets +onlyGivenNames u1; first
        | ((refine (fun k1 : Kept x0 u1 => ?_) ?_) <;> [clear_value u1; subst u1])
        | clear_value u1)
    | with_reducible apply State.complete_kept
    | with_reducible apply State.idleCore_kept
    | with_reducible apply State.stage_kept
    | with_reducible apply State.unstage_kept
    | with_reducible apply State.endLoad_kept
    | with_reducible apply State.setPart_kept
    | with_reducible apply State.sf32_kept
    | with_reducible apply State.publish_kept
    | with_reducible apply State.setPstate_kept
    | with_reducible apply Kept.foldl
    | ((with_reducible apply Kept.ite) <;> intro _)
    | (unfold Kept; dsimp only; with_reducible apply Kept.fold))

theorem adapterUnload_kept {x0 s : State} (n : Nat) (d : Desc) (hk : Kept x0 s) : Kept x0 (adapterUnload n d s) := by
  unfold adapterUnload
  repeat' (first
    | with_reducible assumption
    | (refine id ?_; extract_lets +onlyGivenNames u1; clear_value u1)
    | with_reducible apply State.complete_kept
    | ((with_reducible apply Kept.ite) <;> intro _)
    | (unfold Kept; dsimp only; with_reducible apply Kept.fold))

theorem stopPart_kept {x0 s : State} (n : Nat) (d : Desc) (hk : Kept x0 s) : Kept x0 (stopPart n d s) := by
  unfold stopPart
  repeat' (first
    | with_reducible assumption
    | (refine id ?_; extract_lets +onlyGivenNames u1; clear_value u1)
    | with_reducible apply State.complete_kept
    | with_reducible apply State.setPart_kept
    | ((with_reducible apply Kept.ite) <;> intro _))

theorem State.scatter_kept {x0 s : State} (r1 : List (Nat × Nat)) (r2 : List Byte) (hk : Kept x0 s) : Kept x0 (State.scatter s r1 r2) := by
  induction r1 generalizing s r2 with
  | nil =>
    unfold State.scatter
    repeat' (first
      | with_reducible assumption)
  | cons m ms ih =>
    unfold State.scatter
    repeat' (first
      | with_reducible assumption
      | (refine id ?_; extract_lets +onlyGivenNames u1; clear_value u1)
      | with_reducible apply ih
      | with_reducible apply State.emit_kept
      | ((with_reducible apply Kept.ite) <;> intro _))

theorem exportData_kept {x0 s : State} (n : Nat) (d : Desc) (list : Option (List (Nat × Nat)))
    (hk : Kept x0 s) : Kept x0 (exportData n d list s) := by
  unfold exportData
  repeat' (first
    | with_reducible assumption
    | intro _
    | ((fail_if_success have := @kf0); refine id ?_; extract_lets +onlyGivenNames u1; (refine (fun kf0 : ∀ a0 u, Kept x0 u → Kept x0 (u1 a0 u) => ?_) ?_) <;> [clear_value u1; subst u1])
    | ((fail_if_success have := @kf1); refine id ?_; extract_lets +onlyGivenNames u1; (refine (fun kf1 : ∀ u, Kept x0 u → Kept x0 (u1 u) => ?_) ?_) <;> [clear_value u1; subst u1])
    | (refine id ?_; extract_lets +onlyGivenNames u1; first
        | ((refine (fun k1 : Kept x0 u1 => ?_) ?_) <;> [clear_value u1; subst u1])
        | clear_value u1)
    | with_reducible apply kf0
    | with_reducible apply kf1
    | with_reducible apply State.complete_kept
    | with_reducible apply State.noticed_kept
    | with_reducible apply State.store_kept
    | with_reducible apply State.scatter_kept
    | ((with_reducible apply Kept.ite) <;> intro _)
    | split)

theorem execTrustKey_kept {x0 s t0 : State} (d : Desc) (key : HostRead) (hk : Kept x0 s) (ek : execTrustKey d key s = .next t0) : Kept x0 t0 := by
  unfold execTrustKey at ek
  rw [Host.Outcome.next.injEq] at ek; subst ek
  all_goals
    repeat' (first
      | with_reducible assumption
      | with_reducible apply trustKey_kept)

theorem execImageFeed_kept {x0 s t0 : State} (d : Desc) (hk : Kept x0 s) (ek : execImageFeed d s = .next t0) : Kept x0 t0 := by
  unfold execImageFeed at ek
  rw [Host.Outcome.next.injEq] at ek; subst ek
  all_goals
    repeat' (first
      | with_reducible assumption
      | with_reducible apply imageFeed_kept)

theorem execFeedTimeout_kept {x0 s t0 : State} (off : Nat) (hk : Kept x0 s) (ek : execFeedTimeout off s = .next t0) : Kept x0 t0 := by
  unfold execFeedTimeout at ek
  rw [Host.Outcome.next.injEq] at ek; subst ek
  all_goals
    repeat' (first
      | with_reducible assumption
      | with_reducible apply feedTimeout_kept)

theorem execBaseLoad_kept {x0 s t0 : State} (d : Desc) (src : HostRead) (hk : Kept x0 s) (ek : execBaseLoad d src s = .next t0) : Kept x0 t0 := by
  unfold execBaseLoad at ek
  rw [Host.Outcome.next.injEq] at ek; subst ek
  all_goals
    repeat' (first
      | with_reducible assumption
      | with_reducible apply takeLoad_kept)

theorem execBaseUnload_kept {x0 s t0 : State} (d : Desc) (hk : Kept x0 s) (ek : execBaseUnload d s = .next t0) : Kept x0 t0 := by
  unfold execBaseUnload at ek
  rw [Host.Outcome.next.injEq] at ek; subst ek
  all_goals
    repeat' (first
      | with_reducible assumption
      | with_reducible apply baseUnload_kept)

theorem execRepairRequest_kept {x0 s t0 : State} (d : Desc) (hk : Kept x0 s) (ek : execRepairRequest d s = .next t0) : Kept x0 t0 := by
  unfold execRepairRequest at ek
  rw [Host.Outcome.next.injEq] at ek; subst ek
  all_goals
    repeat' (first
      | with_reducible assumption
      | with_reducible apply repairRequest_kept)

theorem execImageRepair_kept {x0 s t0 : State} (d : Desc) (src : HostRead) (hk : Kept x0 s) (ek : execImageRepair d src s = .next t0) : Kept x0 t0 := by
  unfold execImageRepair at ek
  rw [Host.Outcome.next.injEq] at ek; subst ek
  all_goals
    repeat' (first
      | with_reducible assumption
      | with_reducible apply imageRepair_kept)

theorem execFirmwareUpdate_kept {x0 s t0 : State} (d : Desc) (src : HostRead) (hk : Kept x0 s) (ek : execFirmwareUpdate d src s = .next t0) : Kept x0 t0 := by
  unfold execFirmwareUpdate at ek
  rw [Host.Outcome.next.injEq] at ek; subst ek
  all_goals
    repeat' (first
      | with_reducible assumption
      | with_reducible apply firmwareUpdate_kept)

theorem execRewriteComplete_kept {x0 s t0 : State} (id : Nat) (stored : List Byte) (hk : Kept x0 s) (ek : execRewriteComplete id stored s = .next t0) : Kept x0 t0 := by
  unfold execRewriteComplete at ek
  rw [Host.Outcome.next.injEq] at ek; subst ek
  all_goals
    repeat' (first
      | with_reducible assumption
      | with_reducible apply rewriteComplete_kept)

theorem execPlaceCheck_kept {x0 s t0 : State} (n : Fin 64) (d : Desc) (src : HostRead) (hk : Kept x0 s) (ek : execPlaceCheck n d src s = .next t0) : Kept x0 t0 := by
  unfold execPlaceCheck at ek
  rw [Host.Outcome.next.injEq] at ek; subst ek
  all_goals
    repeat' (first
      | with_reducible assumption
      | with_reducible apply takeLoad_kept)

theorem execLoadImage_kept {x0 s t0 : State} (n : Fin 64) (d : Desc) (src : HostRead) (job : JobPlacement) (hk : Kept x0 s) (ek : execLoadImage n d src job s = .next t0) : Kept x0 t0 := by
  unfold execLoadImage at ek
  rw [Host.Outcome.next.injEq] at ek; subst ek
  all_goals
    repeat' (first
      | with_reducible assumption
      | with_reducible apply takeLoad_kept)

theorem execAdapterLoad_kept {x0 s t0 : State} (n : Fin 64) (d : Desc) (src : HostRead) (hk : Kept x0 s) (ek : execAdapterLoad n d src s = .next t0) : Kept x0 t0 := by
  unfold execAdapterLoad at ek
  rw [Host.Outcome.next.injEq] at ek; subst ek
  all_goals
    repeat' (first
      | with_reducible assumption
      | with_reducible apply takeLoad_kept)

theorem execAdapterUnload_kept {x0 s t0 : State} (n : Fin 64) (d : Desc) (hk : Kept x0 s) (ek : execAdapterUnload n d s = .next t0) : Kept x0 t0 := by
  unfold execAdapterUnload at ek
  rw [Host.Outcome.next.injEq] at ek; subst ek
  all_goals
    repeat' (first
      | with_reducible assumption
      | with_reducible apply adapterUnload_kept)

theorem execUnloadImage_kept {x0 s t0 : State} (n : Fin 64) (d : Desc) (hk : Kept x0 s) (ek : execUnloadImage n d s = .next t0) : Kept x0 t0 := by
  unfold execUnloadImage at ek
  rw [Host.Outcome.next.injEq] at ek; subst ek
  all_goals
    repeat' (first
      | with_reducible assumption
      | with_reducible apply unloadPart_kept)

theorem execLoadComplete_kept {x0 s t0 : State} (n : Fin 64) (hk : Kept x0 s) (ek : execLoadComplete n s = .next t0) : Kept x0 t0 := by
  unfold execLoadComplete at ek
  rw [Host.Outcome.next.injEq] at ek; subst ek
  all_goals
    repeat' (first
      | with_reducible assumption
      | with_reducible apply loadComplete_kept)

theorem execStopPart_kept {x0 s t0 : State} (n : Fin 64) (d : Desc) (hk : Kept x0 s) (ek : execStopPart n d s = .next t0) : Kept x0 t0 := by
  unfold execStopPart at ek
  rw [Host.Outcome.next.injEq] at ek; subst ek
  all_goals
    repeat' (first
      | with_reducible assumption
      | with_reducible apply stopPart_kept)

theorem execExportData_kept {x0 s t0 : State} (n : Fin 64) (d : Desc) (list : Option (List (Nat × Nat))) (hk : Kept x0 s) (ek : execExportData n d list s = .next t0) : Kept x0 t0 := by
  unfold execExportData at ek
  rw [Host.Outcome.next.injEq] at ek; subst ek
  all_goals
    repeat' (first
      | with_reducible assumption
      | with_reducible apply exportData_kept)

end Sys2Proof.Machine
end

