-- ==== Sys2Proof/Laws/KeepServing.lean ====
section
/-!
SUPPORT. What the operations of Machine/Serving.lean keep (Laws/Keep.lean).
-/

namespace Sys2Proof.Machine

theorem State.setServe_kept {x0 s : State} (n : Nat) (v : Option Serve) (hk : Kept x0 s) : Kept x0 (State.setServe s n v) := by
  unfold State.setServe
  repeat' (first
    | with_reducible assumption
    | (unfold Kept; dsimp only; with_reducible apply Kept.fold))

theorem State.setRequests_kept {x0 s : State} (l : List Request) (hk : Kept x0 s) : Kept x0 (State.setRequests s l) := by
  unfold State.setRequests
  repeat' (first
    | with_reducible assumption
    | (unfold Kept; dsimp only; with_reducible apply Kept.fold))

theorem State.invTempOf_kept {x0 s : State} (r : Request) (hk : Kept x0 s) : Kept x0 (State.invTempOf s r).2 := by
  unfold State.invTempOf
  repeat' (first
    | with_reducible assumption
    | (refine id ?_; extract_lets +onlyGivenNames u1; clear_value u1)
    | with_reducible apply State.drawn_kept
    | split)

theorem State.storeAll_kept {x0 s : State} (n off : Nat) (bs : List Byte) (hk : Kept x0 s) : Kept x0 (State.storeAll s n off bs) := by
  unfold State.storeAll
  repeat' (first
    | with_reducible assumption
    | intro _
    | with_reducible apply State.store_kept
    | with_reducible apply Kept.foldl)

theorem State.writeRecords_kept {x0 s : State} (n : Nat) (v : Serve) (l : List Request) (hk : Kept x0 s) : Kept x0 (State.writeRecords s n v l) := by
  unfold State.writeRecords
  repeat' (first
    | with_reducible assumption
    | intro _
    | (refine id ?_; extract_lets +onlyGivenNames u1; first
        | ((refine (fun k1 : Kept x0 u1 => ?_) ?_) <;> [clear_value u1; subst u1])
        | ((refine (fun k1 : Kept x0 u1.2 => ?_) ?_) <;> [clear_value u1; subst u1])
        | clear_value u1)
    | with_reducible apply State.invTempOf_kept
    | with_reducible apply State.storeAll_kept
    | with_reducible apply Kept.foldl
    | split)

theorem State.patchStep_kept {x0 s : State} (n k : Nat) (hk : Kept x0 s) : Kept x0 (State.patchStep s n k) := by
  unfold State.patchStep
  repeat' (first
    | with_reducible assumption
    | intro _
    | with_reducible apply State.store_kept
    | with_reducible apply Kept.foldl
    | ((with_reducible apply Kept.ite) <;> intro _))

theorem State.patchOne_kept {x0 s : State} (n : Nat) (e : PatchEntry) (hk : Kept x0 s) : KeptAll x0 (State.patchOne s n e) := by
  unfold State.patchOne
  split
  · exact KeptAll.nil
  · split
    · exact KeptAll.nil
    · exact KeptAll.map (fun _ => State.store_kept _ _ hk)

theorem State.patchAll_kept {x0 s : State} (n : Nat) (l : List PatchEntry) (hk : Kept x0 s) : Kept x0 (State.patchAll s n l) :=
  Kept.foldl hk (fun _ _ ht => (State.patchOne_kept _ _ ht).getD ht)

theorem State.endRequest_kept {x0 s : State} (r : Request) (status reason : Nat)
    (hk : Kept x0 s) : Kept x0 (State.endRequest s r status reason) := by
  unfold State.endRequest
  repeat' (first
    | with_reducible assumption
    | (refine id ?_; extract_lets +onlyGivenNames u1; first
        | ((refine (fun k1 : Kept x0 u1 => ?_) ?_) <;> [clear_value u1; subst u1])
        | clear_value u1)
    | with_reducible apply State.count64_kept
    | with_reducible apply State.set32_kept
    | with_reducible apply State.complete_kept
    | ((with_reducible apply Kept.ite) <;> intro _)
    | (unfold Kept; dsimp only; with_reducible apply Kept.fold))

theorem State.finishRequests_kept {x0 s : State} (n : Nat) (hk : Kept x0 s) : Kept x0 (State.finishRequests s n) := by
  unfold State.finishRequests
  repeat' (first
    | with_reducible assumption
    | intro _
    | with_reducible apply State.endRequest_kept
    | with_reducible apply Kept.foldl
    | ((with_reducible apply Kept.ite) <;> intro _))

theorem State.stopRequests_kept {x0 s : State} (n : Nat) (hk : Kept x0 s) : Kept x0 (State.stopRequests s n) := by
  unfold State.stopRequests
  repeat' (first
    | with_reducible assumption
    | (refine id ?_; extract_lets +onlyGivenNames u1; ((refine (fun k1 : Kept x0 u1 => ?_) ?_) <;> [clear_value u1; subst u1]))
    | with_reducible apply State.setRequests_kept
    | with_reducible apply State.setServe_kept
    | with_reducible apply State.finishRequests_kept
    | split)

theorem submit_kept {x0 s : State} (d : Desc) (prompt : HostRead) (tick : Nat) (hk : Kept x0 s) : Kept x0 (submit d prompt tick s) := by
  unfold submit
  repeat' (first
    | with_reducible assumption
    | intro _
    | ((fail_if_success have := @kf0); refine id ?_; extract_lets +onlyGivenNames u1; (refine (fun kf0 : ∀ a0 a1 u, Kept x0 u → Kept x0 (u1 a0 a1 u) => ?_) ?_) <;> [clear_value u1; subst u1])
    | (refine id ?_; extract_lets +onlyGivenNames u1; first
        | ((refine (fun k1 : Kept x0 u1 => ?_) ?_) <;> [clear_value u1; subst u1])
        | clear_value u1)
    | with_reducible apply kf0
    | with_reducible apply State.complete_kept
    | with_reducible apply State.count64_kept
    | with_reducible apply State.set32_kept
    | with_reducible apply State.setRequests_kept
    | with_reducible apply State.sf64_kept
    | with_reducible apply State.endRequest_kept
    | ((with_reducible apply Kept.ite) <;> intro _)
    | split)

theorem cancel_kept {x0 s : State} (d : Desc) (hk : Kept x0 s) : Kept x0 (cancel d s) := by
  unfold cancel
  repeat' (first
    | with_reducible assumption
    | intro _
    | ((fail_if_success have := @kf0); refine id ?_; extract_lets +onlyGivenNames u1; (refine (fun kf0 : ∀ a0 u, Kept x0 u → Kept x0 (u1 a0 u) => ?_) ?_) <;> [clear_value u1; subst u1])
    | ((fail_if_success have := @kf1); refine id ?_; extract_lets +onlyGivenNames u1; (refine (fun kf1 : ∀ a0 u, Kept x0 u → Kept x0 (u1 a0 u) => ?_) ?_) <;> [clear_value u1; subst u1])
    | ((fail_if_success have := @kf2); refine id ?_; extract_lets +onlyGivenNames u1; (refine (fun kf2 : ∀ u, Kept x0 u → Kept x0 (u1 u) => ?_) ?_) <;> [clear_value u1; subst u1])
    | (refine id ?_; extract_lets +onlyGivenNames u1; clear_value u1)
    | with_reducible apply kf0
    | with_reducible apply kf1
    | with_reducible apply kf2
    | with_reducible apply State.complete_kept
    | with_reducible apply State.setRequests_kept
    | with_reducible apply State.setServe_kept
    | with_reducible apply State.endRequest_kept
    | with_reducible apply State.finishRequests_kept
    | ((with_reducible apply Kept.ite) <;> intro _)
    | split
    | (unfold Kept; dsimp only; with_reducible apply Kept.fold))

theorem State.readHead_kept {x0 s : State} (heads : List (Nat × Nat)) (r : Request) (hk : Kept x0 s) : Kept x0 (State.readHead s heads r).1 := by
  unfold State.readHead
  repeat' (first
    | with_reducible assumption
    | (refine id ?_; extract_lets +onlyGivenNames u1; clear_value u1)
    | with_reducible apply State.capture_kept
    | with_reducible apply State.drawn_kept
    | split)

theorem stepBoundary_kept {x0 s : State} (n t tick fit : Nat) (heads : List (Nat × Nat))
    (hk : Kept x0 s) : Kept x0 (stepBoundary n t tick fit heads s) := by
  unfold stepBoundary
  repeat' (first
    | with_reducible assumption
    | intro _
    | (refine id ?_; extract_lets +onlyGivenNames u1; first
        | ((refine (fun k1 : Kept x0 u1 => ?_) ?_) <;> [clear_value u1; subst u1])
        | ((refine (fun k1 : Kept x0 u1.1 => ?_) ?_) <;> [clear_value u1; subst u1])
        | clear_value u1)
    | with_reducible apply State.addCtr_kept
    | with_reducible apply State.readHead_kept
    | with_reducible apply State.set32_kept
    | with_reducible apply State.setServe_kept
    | with_reducible apply State.writeRecords_kept
    | with_reducible apply State.count64_kept
    | with_reducible apply Kept.foldl
    | with_reducible apply Kept.foldl_fst
    | ((with_reducible apply Kept.ite) <;> intro _)
    | split)

theorem State.refuseAll_kept {x0 s : State} (l : List (Request × Nat × Nat)) (hk : Kept x0 s) : Kept x0 (State.refuseAll s l) := by
  unfold State.refuseAll
  repeat' (first
    | with_reducible assumption
    | intro _
    | with_reducible apply State.endRequest_kept
    | with_reducible apply Kept.foldl)

theorem State.serveWindow_kept {x0 s : State} (n h tick : Nat) (ends : Bool) (hk : Kept x0 s) : Kept x0 (State.serveWindow s n h tick ends) := by
  unfold State.serveWindow
  repeat' (first
    | with_reducible assumption
    | intro _
    | ((fail_if_success have := @kf0); refine id ?_; extract_lets +onlyGivenNames u1; (refine (fun kf0 : ∀ u a1 a2 a3 a4, Kept x0 u → Kept x0 (u1 u a1 a2 a3 a4) => ?_) ?_) <;> [clear_value u1; subst u1])
    | (refine id ?_; extract_lets +onlyGivenNames u1; first
        | ((refine (fun k1 : Kept x0 u1 => ?_) ?_) <;> [clear_value u1; subst u1])
        | clear_value u1)
    | with_reducible apply kf0
    | with_reducible apply State.refuseAll_kept
    | with_reducible apply State.setRequests_kept
    | with_reducible apply State.count64_kept
    | with_reducible apply State.setServe_kept
    | with_reducible apply State.finishRequests_kept
    | with_reducible apply State.patchAll_kept
    | with_reducible apply State.patchStep_kept
    | ((with_reducible apply Kept.ite) <;> intro _)
    | split)

theorem State.serveReclaim_kept {x0 s : State} (n : Nat) (hk : Kept x0 s) : Kept x0 (State.serveReclaim s n) := by
  unfold State.serveReclaim
  repeat' (first
    | with_reducible assumption
    | (refine id ?_; extract_lets +onlyGivenNames u1; clear_value u1)
    | with_reducible apply State.setServe_kept
    | ((with_reducible apply Kept.ite) <;> intro _)
    | split)

theorem State.serveReissue_kept {x0 s : State} (n : Nat) (hk : Kept x0 s) : Kept x0 (State.serveReissue s n) := by
  unfold State.serveReissue
  repeat' (first
    | with_reducible assumption
    | (refine id ?_; extract_lets +onlyGivenNames u1; ((refine (fun k1 : Kept x0 u1 => ?_) ?_) <;> [clear_value u1; subst u1]))
    | with_reducible apply State.setRequests_kept
    | with_reducible apply State.setServe_kept
    | with_reducible apply State.finishRequests_kept
    | with_reducible apply State.writeRecords_kept
    | split)

theorem State.loseBlock_kept {x0 s : State} (n d off : Nat) (hk : Kept x0 s) : Kept x0 (State.loseBlock s n d off) := by
  unfold State.loseBlock
  repeat' (first
    | with_reducible assumption
    | (refine id ?_; extract_lets +onlyGivenNames u1; first
        | ((refine (fun k1 : Kept x0 u1 => ?_) ?_) <;> [clear_value u1; subst u1])
        | clear_value u1)
    | with_reducible apply State.setRequests_kept
    | with_reducible apply State.setServe_kept
    | with_reducible apply State.abortStep_kept
    | ((with_reducible apply Kept.ite) <;> intro _)
    | split)

theorem State.serveLevels_kept {x0 s : State} (hk : Kept x0 s) : Kept x0 (State.serveLevels s) := by
  unfold State.serveLevels
  repeat' (first
    | with_reducible assumption
    | intro _
    | (refine id ?_; extract_lets +onlyGivenNames u1; first
        | ((refine (fun k1 : Kept x0 u1 => ?_) ?_) <;> [clear_value u1; subst u1])
        | clear_value u1)
    | with_reducible apply State.sf64_kept
    | with_reducible apply State.w64_kept
    | with_reducible apply Kept.foldl
    | split)

theorem State.writeRecord_kept {x0 s : State} (n : Nat) (x : TokenRec) (hk : Kept x0 s) : Kept x0 (State.writeRecord s n x) := by
  unfold State.writeRecord
  repeat' (first
    | with_reducible assumption
    | (refine id ?_; extract_lets +onlyGivenNames u1; ((refine (fun k1 : Kept x0 u1 => ?_) ?_) <;> [clear_value u1; subst u1]))
    | with_reducible apply State.emit_kept
    | with_reducible apply State.setRequests_kept
    | with_reducible apply State.tapToken_kept
    | split)

theorem tokenRecordsWrite_kept {x0 s : State} (n : Nat) (hk : Kept x0 s) : Kept x0 (tokenRecordsWrite n s) := by
  unfold tokenRecordsWrite
  repeat' (first
    | with_reducible assumption
    | intro _
    | with_reducible apply State.finishRequests_kept
    | with_reducible apply State.setServe_kept
    | with_reducible apply State.writeRecord_kept
    | with_reducible apply Kept.foldl
    | split)

theorem startPart_kept {x0 s : State} (n : Nat) (d : Desc) (hk : Kept x0 s) : Kept x0 (startPart n d s) := by
  unfold startPart
  repeat' (first
    | with_reducible assumption
    | with_reducible apply State.patchStep_kept
    | intro _
    | ((fail_if_success have := @kf0); refine id ?_; extract_lets +onlyGivenNames u1; (refine (fun kf0 : ∀ u, Kept x0 u → Kept x0 (u1 u) => ?_) ?_) <;> [clear_value u1; subst u1])
    | (refine id ?_; extract_lets +onlyGivenNames u1; clear_value u1)
    | with_reducible apply kf0
    | with_reducible apply State.complete_kept
    | with_reducible apply State.setPart_kept
    | with_reducible apply State.setServe_kept
    | with_reducible apply State.drawn_kept
    | with_reducible apply State.writeRecords_kept
    | ((with_reducible apply Kept.ite) <;> intro _)
    | split)

theorem State.completeStop_kept {x0 s : State} (n status : Nat) (forced : Bool)
    (hk : Kept x0 s) : Kept x0 (State.completeStop s n status forced) := by
  unfold State.completeStop
  repeat' (first
    | with_reducible assumption
    | with_reducible apply State.complete_kept
    | with_reducible apply State.setPart_kept
    | split)

theorem State.returnLoaded_kept {x0 s : State} (n : Nat) (forced : Bool) (hk : Kept x0 s) : Kept x0 (State.returnLoaded s n forced) := by
  unfold State.returnLoaded
  repeat' (first
    | with_reducible assumption
    | intro _
    | (refine id ?_; extract_lets +onlyGivenNames u1; ((refine (fun k1 : Kept x0 u1 => ?_) ?_) <;> [clear_value u1; subst u1]))
    | with_reducible apply State.idleCore_kept
    | with_reducible apply State.setPstate_kept
    | with_reducible apply State.stopRequests_kept
    | with_reducible apply State.completeStart_kept
    | with_reducible apply State.completeStop_kept
    | with_reducible apply Kept.foldl)

theorem streamEnd_kept {x0 s : State} (n : Nat) (hk : Kept x0 s) : Kept x0 (streamEnd n s) := by
  unfold streamEnd
  repeat' (first
    | with_reducible assumption
    | with_reducible apply State.returnLoaded_kept
    | ((with_reducible apply Kept.ite) <;> intro _))

theorem State.restoreFlags_kept {x0 s : State} (n : Nat) (hk : Kept x0 s) : Kept x0 (State.restoreFlags s n) := by
  unfold State.restoreFlags
  repeat' (first
    | with_reducible assumption
    | intro _
    | (refine id ?_; extract_lets +onlyGivenNames u1; ((refine (fun k1 : Kept x0 u1 => ?_) ?_) <;> [clear_value u1; subst u1]))
    | with_reducible apply State.makeCopies_kept
    | with_reducible apply State.putFlag_kept
    | with_reducible apply State.putCtr_kept
    | with_reducible apply State.set32_kept
    | with_reducible apply Kept.foldl
    | split)

theorem State.abandonStep_kept {x0 s : State} (n : Nat) (hk : Kept x0 s) : Kept x0 (State.abandonStep s n) := by
  unfold State.abandonStep
  repeat' (first
    | with_reducible assumption
    | intro _
    | (refine id ?_; extract_lets +onlyGivenNames u1; ((refine (fun k1 : Kept x0 u1 => ?_) ?_) <;> [clear_value u1; subst u1]))
    | with_reducible apply State.emptyCore_kept
    | with_reducible apply State.restoreFlags_kept
    | with_reducible apply State.endPartTxns_kept
    | with_reducible apply State.setServe_kept
    | with_reducible apply Kept.foldl
    | split)

theorem forcedStop_kept {x0 s : State} (n : Nat) (hk : Kept x0 s) : Kept x0 (forcedStop n s) := by
  unfold forcedStop
  repeat' (first
    | with_reducible assumption
    | with_reducible apply State.returnLoaded_kept
    | with_reducible apply State.abandonStep_kept
    | ((with_reducible apply Kept.ite) <;> intro _)
    | split)

theorem patchSet_kept {x0 s : State} (n : Nat) (d : Desc) (list : HostRead) (hk : Kept x0 s) : Kept x0 (patchSet n d list s) := by
  unfold patchSet
  repeat' (first
    | with_reducible assumption
    | intro _
    | ((fail_if_success have := @kf0); refine id ?_; extract_lets +onlyGivenNames u1; (refine (fun kf0 : ∀ a0, Kept x0 (u1 a0) => ?_) ?_) <;> [clear_value u1; subst u1])
    | (refine id ?_; extract_lets +onlyGivenNames u1; clear_value u1)
    | with_reducible apply kf0
    | with_reducible apply State.complete_kept
    | ((with_reducible apply Kept.ite) <;> intro _)
    | split
    | (unfold Kept; dsimp only; with_reducible apply Kept.fold))

theorem State.applyPatches_kept {x0 s : State} (h : Nat) (hk : Kept x0 s) : Kept x0 (State.applyPatches s h) := by
  unfold State.applyPatches
  refine Kept.foldl hk (fun t p ht => ?_)
  extract_lets +onlyGivenNames n st gone
  have hg : ∀ u, Kept x0 u → Kept x0 (gone u) := fun u hu => Kept.fold hu
  clear_value gone
  refine Kept.ite (fun _ => ht) (fun _ => Kept.ite (fun _ => State.complete_kept _ _ _ _ _ (hg t ht)) (fun _ => Kept.ite (fun _ => ht) (fun _ => ?_)))
  split
  · next u e =>
    exact State.complete_kept _ _ _ _ _ (hg u (KeptAll.get e (KeptAll.rounds (KeptAll.one ht) (fun _ _ hv => State.patchOne_kept _ _ hv))))
  · exact State.complete_kept _ _ _ _ _ (hg t ht)

theorem patchTimeout_kept {x0 s : State} (n : Nat) (hk : Kept x0 s) : Kept x0 (patchTimeout n s) := by
  unfold patchTimeout
  repeat' (first
    | with_reducible assumption
    | with_reducible apply State.complete_kept
    | split
    | (unfold Kept; dsimp only; with_reducible apply Kept.fold))

theorem execSubmit_kept {x0 s t0 : State} (d : Desc) (prompt : HostRead) (tick : Nat) (hk : Kept x0 s) (ek : execSubmit d prompt tick s = .next t0) : Kept x0 t0 := by
  unfold execSubmit at ek
  rw [Host.Outcome.next.injEq] at ek; subst ek
  all_goals
    repeat' (first
      | with_reducible assumption
      | with_reducible apply submit_kept)

theorem execCancel_kept {x0 s t0 : State} (d : Desc) (hk : Kept x0 s) (ek : execCancel d s = .next t0) : Kept x0 t0 := by
  unfold execCancel at ek
  rw [Host.Outcome.next.injEq] at ek; subst ek
  all_goals
    repeat' (first
      | with_reducible assumption
      | with_reducible apply cancel_kept)

theorem execStepBoundary_kept {x0 s t0 : State} (n : Fin 64) (t tick fit : Nat) (heads : List (Nat × Nat)) (hk : Kept x0 s) (ek : execStepBoundary n t tick fit heads s = .next t0) : Kept x0 t0 := by
  unfold execStepBoundary at ek
  rw [Host.Outcome.next.injEq] at ek; subst ek
  all_goals
    repeat' (first
      | with_reducible assumption
      | with_reducible apply stepBoundary_kept)

theorem execTokenRecordsWrite_kept {x0 s t0 : State} (n : Fin 64) (hk : Kept x0 s) (ek : execTokenRecordsWrite n s = .next t0) : Kept x0 t0 := by
  unfold execTokenRecordsWrite at ek
  rw [Host.Outcome.next.injEq] at ek; subst ek
  all_goals
    repeat' (first
      | with_reducible assumption
      | with_reducible apply tokenRecordsWrite_kept)

theorem execStartPart_kept {x0 s t0 : State} (n : Fin 64) (d : Desc) (hk : Kept x0 s) (ek : execStartPart n d s = .next t0) : Kept x0 t0 := by
  unfold execStartPart at ek
  rw [Host.Outcome.next.injEq] at ek; subst ek
  all_goals
    repeat' (first
      | with_reducible assumption
      | with_reducible apply startPart_kept)

theorem execStreamEnd_kept {x0 s t0 : State} (n : Fin 64) (hk : Kept x0 s) (ek : execStreamEnd n s = .next t0) : Kept x0 t0 := by
  unfold execStreamEnd at ek
  rw [Host.Outcome.next.injEq] at ek; subst ek
  all_goals
    repeat' (first
      | with_reducible assumption
      | with_reducible apply streamEnd_kept)

theorem execForcedStop_kept {x0 s t0 : State} (n : Fin 64) (hk : Kept x0 s) (ek : execForcedStop n s = .next t0) : Kept x0 t0 := by
  unfold execForcedStop at ek
  rw [Host.Outcome.next.injEq] at ek; subst ek
  all_goals
    repeat' (first
      | with_reducible assumption
      | with_reducible apply forcedStop_kept)

theorem execPatchSet_kept {x0 s t0 : State} (n : Fin 64) (d : Desc) (list : HostRead) (hk : Kept x0 s) (ek : execPatchSet n d list s = .next t0) : Kept x0 t0 := by
  unfold execPatchSet at ek
  rw [Host.Outcome.next.injEq] at ek; subst ek
  all_goals
    repeat' (first
      | with_reducible assumption
      | with_reducible apply patchSet_kept)

theorem execPatchTimeout_kept {x0 s t0 : State} (n : Fin 64) (hk : Kept x0 s) (ek : execPatchTimeout n s = .next t0) : Kept x0 t0 := by
  unfold execPatchTimeout at ek
  rw [Host.Outcome.next.injEq] at ek; subst ek
  all_goals
    repeat' (first
      | with_reducible assumption
      | with_reducible apply patchTimeout_kept)

end Sys2Proof.Machine
end

