-- ==== Sys2Proof/Laws/KeepRas.lean ====
section
/-!
SUPPORT. What the operations of Machine/Ras.lean keep (Laws/Keep.lean).
-/

namespace Sys2Proof.Machine

theorem shmReadRequest_kept {x0 s : State} (d off n : Nat) (upset : List (BitVec 37))
    (hk : Kept x0 s) : Kept x0 (shmReadRequest d off n upset s) := by
  unfold shmReadRequest
  repeat' (first
    | with_reducible assumption
    | (refine id ?_; extract_lets +onlyGivenNames u1; first
        | ((refine (fun k1 : Kept x0 u1 => ?_) ?_) <;> [clear_value u1; subst u1])
        | clear_value u1)
    | with_reducible apply State.noticed_kept
    | with_reducible apply State.upset_kept
    | with_reducible apply State.emit_kept)

theorem scrubRead_kept {x0 s : State} (d region off : Nat) (upset : List (BitVec 37))
    (hk : Kept x0 s) : Kept x0 (scrubRead d region off upset s) := by
  unfold scrubRead
  repeat' (first
    | with_reducible assumption
    | (refine id ?_; extract_lets +onlyGivenNames u1; first
        | ((refine (fun k1 : Kept x0 u1 => ?_) ?_) <;> [clear_value u1; subst u1])
        | clear_value u1)
    | with_reducible apply State.upset_kept
    | with_reducible apply State.scrubIdle_kept
    | ((with_reducible apply Kept.ite) <;> intro _))

theorem State.shmError_kept {x0 s : State} (d off a : Nat) (hk : Kept x0 s) : Kept x0 (State.shmError s d off a) := by
  unfold State.shmError
  repeat' (first
    | with_reducible assumption
    | intro _
    | (refine id ?_; extract_lets +onlyGivenNames u1; first
        | ((refine (fun k1 : Kept x0 u1 => ?_) ?_) <;> [clear_value u1; subst u1])
        | clear_value u1)
    | with_reducible apply State.abortStep_kept
    | with_reducible apply State.openRepairs_kept
    | with_reducible apply State.loseBlock_kept
    | with_reducible apply State.recordStop_kept
    | with_reducible apply Kept.foldl
    | ((with_reducible apply Kept.ite) <;> intro _)
    | split)

theorem eccUncorrectable_kept {x0 s : State} (d region off : Nat) (feed : Bool)
    (hk : Kept x0 s) : Kept x0 (eccUncorrectable d region off feed s) := by
  unfold eccUncorrectable
  repeat' (first
    | with_reducible assumption
    | (refine id ?_; extract_lets +onlyGivenNames u1; first
        | ((refine (fun k1 : Kept x0 u1 => ?_) ?_) <;> [clear_value u1; subst u1])
        | clear_value u1)
    | with_reducible apply State.setSelfErr_kept
    | with_reducible apply State.setPoison_kept
    | with_reducible apply State.rasLast_kept
    | with_reducible apply State.count64_kept
    | with_reducible apply State.set32_kept
    | with_reducible apply State.scheduleRemap_kept
    | with_reducible apply State.memoryEvent_kept
    | with_reducible apply State.shmError_kept
    | with_reducible apply State.abortStep_kept
    | ((with_reducible apply Kept.ite) <;> intro _)
    | split
    | (unfold Kept; dsimp only; with_reducible apply Kept.fold))

theorem repairAbandon_kept {x0 s : State} (id : Nat) (hk : Kept x0 s) : Kept x0 (repairAbandon id s) := by
  unfold repairAbandon
  repeat' (first
    | with_reducible assumption
    | with_reducible apply State.abandonRepair_kept
    | split)

theorem State.journal_kept {x0 s : State} (time step kind unit result count detail : Nat)
    (hk : Kept x0 s) : Kept x0 (State.journal s time step kind unit result count detail) := by
  unfold State.journal
  repeat' (first
    | with_reducible assumption
    | (refine id ?_; extract_lets +onlyGivenNames u1; first
        | ((refine (fun k1 : Kept x0 u1 => ?_) ?_) <;> [clear_value u1; subst u1])
        | clear_value u1)
    | with_reducible apply State.set32_kept
    | with_reducible apply State.sf32_kept
    | with_reducible apply State.wWide_kept
    | ((with_reducible apply Kept.ite) <;> intro _))

theorem State.setFuses_kept {x0 s : State} (f : Fuses) (hk : Kept x0 s) : Kept x0 (State.setFuses s f) := by
  unfold State.setFuses
  repeat' (first
    | with_reducible assumption
    | (unfold Kept; dsimp only; with_reducible apply Kept.fold))

theorem State.blow_kept {x0 s : State} (w : FuseWord) (hk : Kept x0 s) : Kept x0 (State.blow s w) := by
  unfold State.blow
  repeat' (first
    | with_reducible assumption
    | (refine id ?_; extract_lets +onlyGivenNames u1; clear_value u1)
    | with_reducible apply State.setFuses_kept
    | with_reducible apply State.setDie_kept
    | split)

theorem State.blowWords_kept {x0 s : State} (ws : List FuseWord) (v : FuseSupply) (hk : Kept x0 s) : Kept x0 (State.blowWords s ws v).1 := by
  unfold State.blowWords
  repeat' (first
    | with_reducible assumption
    | intro _
    | (refine id ?_; extract_lets +onlyGivenNames u1; first
        | ((refine (fun k1 : Kept x0 u1 => ?_) ?_) <;> [clear_value u1; subst u1])
        | clear_value u1)
    | with_reducible apply State.blow_kept
    | with_reducible apply Kept.foldl
    | split
    | (unfold Kept; dsimp only; with_reducible apply Kept.fold))

theorem State.fieldSettled_kept {x0 s : State} (hk : Kept x0 s) : Kept x0 (State.fieldSettled s) := by
  unfold State.fieldSettled
  repeat' (first
    | with_reducible assumption
    | intro _
    | (refine id ?_; extract_lets +onlyGivenNames u1; first
        | ((refine (fun k1 : Kept x0 u1 => ?_) ?_) <;> [clear_value u1; subst u1])
        | clear_value u1)
    | with_reducible apply State.setDie_kept
    | with_reducible apply Kept.foldl
    | ((with_reducible apply Kept.ite) <;> intro _)
    | (unfold Kept; dsimp only; with_reducible apply Kept.fold))

theorem State.raiseVfuse_kept {x0 s : State} (who : Option Nat) (hk : Kept x0 s) : Kept x0 (State.raiseVfuse s who) := by
  unfold State.raiseVfuse
  repeat' (first
    | with_reducible assumption
    | with_reducible apply State.emit_kept
    | (unfold Kept; dsimp only; with_reducible apply Kept.fold))

theorem State.dropVfuse_kept {x0 s : State} (hk : Kept x0 s) : Kept x0 (State.dropVfuse s) := by
  unfold State.dropVfuse
  repeat' (first
    | with_reducible assumption
    | with_reducible apply State.emit_kept
    | (unfold Kept; dsimp only; with_reducible apply Kept.fold))

theorem State.burn_kept {x0 s : State} (marks : Bool) (more : List FuseWord) (vfuse : FuseSupply) (time : Nat)
    (hk : Kept x0 s) : Kept x0 (State.burn s marks more vfuse time) := by
  unfold State.burn
  repeat' (first
    | with_reducible assumption
    | intro _
    | (refine id ?_; extract_lets +onlyGivenNames u1; first
        | ((refine (fun k1 : Kept x0 u1 => ?_) ?_) <;> [clear_value u1; subst u1])
        | clear_value u1)
    | with_reducible apply State.blowWords_kept
    | with_reducible apply State.fieldSettled_kept
    | with_reducible apply State.journal_kept
    | with_reducible apply Kept.foldl)

theorem fieldFuseWrite_kept {x0 s : State} (vfuse : FuseSupply) (time : Nat) (hk : Kept x0 s) : Kept x0 (fieldFuseWrite vfuse time s) := by
  unfold fieldFuseWrite
  repeat' (first
    | with_reducible assumption
    | (refine id ?_; extract_lets +onlyGivenNames u1; ((refine (fun k1 : Kept x0 u1 => ?_) ?_) <;> [clear_value u1; subst u1]))
    | with_reducible apply State.raiseVfuse_kept
    | with_reducible apply State.dropVfuse_kept
    | with_reducible apply State.burn_kept
    | ((with_reducible apply Kept.ite) <;> intro _))

theorem vfuseCheck_kept {x0 s : State} (hk : Kept x0 s) : Kept x0 (vfuseCheck s) := by
  unfold vfuseCheck
  repeat' (first
    | with_reducible assumption
    | with_reducible apply State.dropVfuse_kept
    | with_reducible apply State.complete_kept
    | split)

theorem execShmReadRequest_kept {x0 s t0 : State} (d : Fin 8) (off : BitVec 32) (lines : Nat) (upset : List (BitVec 37)) (hk : Kept x0 s) (ek : execShmReadRequest d off lines upset s = .next t0) : Kept x0 t0 := by
  unfold execShmReadRequest at ek
  rw [Host.Outcome.next.injEq] at ek; subst ek
  all_goals
    repeat' (first
      | with_reducible assumption
      | with_reducible apply shmReadRequest_kept)

theorem execScrubRead_kept {x0 s t0 : State} (d : Fin 8) (region : Fin 3) (off : BitVec 32) (upset : List (BitVec 37)) (hk : Kept x0 s) (ek : execScrubRead d region off upset s = .next t0) : Kept x0 t0 := by
  unfold execScrubRead at ek
  rw [Host.Outcome.next.injEq] at ek; subst ek
  all_goals
    repeat' (first
      | with_reducible assumption
      | with_reducible apply scrubRead_kept)

theorem execEccUncorrectable_kept {x0 s t0 : State} (d : Fin 8) (region : Fin 3) (off : BitVec 32) (feed : Bool) (hk : Kept x0 s) (ek : execEccUncorrectable d region off feed s = .next t0) : Kept x0 t0 := by
  unfold execEccUncorrectable at ek
  rw [Host.Outcome.next.injEq] at ek; subst ek
  all_goals
    repeat' (first
      | with_reducible assumption
      | with_reducible apply eccUncorrectable_kept)

theorem execRepairAbandon_kept {x0 s t0 : State} (id : Nat) (hk : Kept x0 s) (ek : execRepairAbandon id s = .next t0) : Kept x0 t0 := by
  unfold execRepairAbandon at ek
  rw [Host.Outcome.next.injEq] at ek; subst ek
  all_goals
    repeat' (first
      | with_reducible assumption
      | with_reducible apply repairAbandon_kept)

theorem execFieldFuseWrite_kept {x0 s t0 : State} (vfuse : FuseSupply) (time : Nat) (hk : Kept x0 s) (ek : execFieldFuseWrite vfuse time s = .next t0) : Kept x0 t0 := by
  unfold execFieldFuseWrite at ek
  rw [Host.Outcome.next.injEq] at ek; subst ek
  all_goals
    repeat' (first
      | with_reducible assumption
      | with_reducible apply fieldFuseWrite_kept)

theorem execVfuseCheck_kept {x0 s t0 : State} (hk : Kept x0 s) (ek : execVfuseCheck s = .next t0) : Kept x0 t0 := by
  unfold execVfuseCheck at ek
  rw [Host.Outcome.next.injEq] at ek; subst ek
  all_goals
    repeat' (first
      | with_reducible assumption
      | with_reducible apply vfuseCheck_kept)

end Sys2Proof.Machine
end

