-- ==== Sys2Proof/Laws/KeepHolds.lean ====
section
/-!
SUPPORT. What the operations of Machine/Holds.lean keep (Laws/Keep.lean).
-/

namespace Sys2Proof.Machine

theorem State.completeAll_kept {x0 s : State} (n status : Nat) (hk : Kept x0 s) : Kept x0 (State.completeAll s n status) := by
  unfold State.completeAll
  repeat' (first
    | with_reducible assumption
    | intro _
    | (refine id ?_; extract_lets +onlyGivenNames u1; first
        | ((refine (fun k1 : Kept x0 u1 => ?_) ?_) <;> [clear_value u1; subst u1])
        | clear_value u1)
    | with_reducible apply State.completeStop_kept
    | with_reducible apply State.completeStart_kept
    | with_reducible apply State.complete_kept
    | with_reducible apply State.endLoad_kept
    | with_reducible apply Kept.foldl
    | (unfold Kept; dsimp only; with_reducible apply Kept.fold))

theorem State.stoppedEvent_kept {x0 s : State} (n status : Nat) (hk : Kept x0 s) : Kept x0 (State.stoppedEvent s n status) := by
  unfold State.stoppedEvent
  repeat' (first
    | with_reducible assumption
    | with_reducible apply State.postEvent_kept)

theorem State.stopFault_kept {x0 s : State} (n status : Nat) (hk : Kept x0 s) : Kept x0 (State.stopFault s n status) := by
  unfold State.stopFault
  repeat' (first
    | with_reducible assumption
    | intro _
    | (refine id ?_; extract_lets +onlyGivenNames u1; first
        | ((refine (fun k1 : Kept x0 u1 => ?_) ?_) <;> [clear_value u1; subst u1])
        | clear_value u1)
    | with_reducible apply State.setPart_kept
    | with_reducible apply State.idleCore_kept
    | with_reducible apply State.set32_kept
    | with_reducible apply State.setPstate_kept
    | with_reducible apply State.clr32_kept
    | with_reducible apply State.stoppedEvent_kept
    | with_reducible apply State.stopRequests_kept
    | with_reducible apply State.completeAll_kept
    | with_reducible apply Kept.foldl
    | ((with_reducible apply Kept.ite) <;> intro _))

theorem holdStart_kept {x0 s : State} (d t : Nat) (hk : Kept x0 s) : Kept x0 (holdStart d t s) := by
  unfold holdStart
  repeat' (first
    | with_reducible assumption
    | (refine id ?_; extract_lets +onlyGivenNames u1; first
        | ((refine (fun k1 : Kept x0 u1 => ?_) ?_) <;> [clear_value u1; subst u1])
        | clear_value u1)
    | with_reducible apply State.meshTo_kept
    | with_reducible apply State.set32_kept
    | with_reducible apply State.setDie_kept
    | ((with_reducible apply Kept.ite) <;> intro _)
    | split)

theorem holdEnd_kept {x0 s : State} (d t : Nat) (hk : Kept x0 s) : Kept x0 (holdEnd d t s) := by
  unfold holdEnd
  repeat' (first
    | with_reducible assumption
    | (refine id ?_; extract_lets +onlyGivenNames u1; first
        | ((refine (fun k1 : Kept x0 u1 => ?_) ?_) <;> [clear_value u1; subst u1])
        | clear_value u1)
    | with_reducible apply State.settleReports_kept
    | with_reducible apply State.recordHold_kept
    | with_reducible apply State.setDie_kept
    | ((with_reducible apply Kept.ite) <;> intro _))

theorem holdLong_kept {x0 s : State} (d t : Nat) (hk : Kept x0 s) : Kept x0 (holdLong d t s) := by
  unfold holdLong
  repeat' (first
    | with_reducible assumption
    | (refine id ?_; extract_lets +onlyGivenNames u1; clear_value u1)
    | with_reducible apply State.postEvent_kept
    | with_reducible apply State.set32_kept
    | with_reducible apply State.w64_kept
    | with_reducible apply State.seeHold_kept
    | ((with_reducible apply Kept.ite) <;> intro _)
    | split)

theorem execHoldStart_kept {x0 s t0 : State} (d : Fin 8) (t : Nat) (hk : Kept x0 s) (ek : execHoldStart d t s = .next t0) : Kept x0 t0 := by
  unfold execHoldStart at ek
  rw [Host.Outcome.next.injEq] at ek; subst ek
  all_goals
    repeat' (first
      | with_reducible assumption
      | with_reducible apply holdStart_kept)

theorem execHoldEnd_kept {x0 s t0 : State} (d : Fin 8) (t : Nat) (hk : Kept x0 s) (ek : execHoldEnd d t s = .next t0) : Kept x0 t0 := by
  unfold execHoldEnd at ek
  rw [Host.Outcome.next.injEq] at ek; subst ek
  all_goals
    repeat' (first
      | with_reducible assumption
      | with_reducible apply holdEnd_kept)

theorem execHoldLong_kept {x0 s t0 : State} (d : Fin 8) (t : Nat) (hk : Kept x0 s) (ek : execHoldLong d t s = .next t0) : Kept x0 t0 := by
  unfold execHoldLong at ek
  rw [Host.Outcome.next.injEq] at ek; subst ek
  all_goals
    repeat' (first
      | with_reducible assumption
      | with_reducible apply holdLong_kept)

end Sys2Proof.Machine
end

