-- ==== Sys2Proof/Laws/KeepSecurity.lean ====
section
/-!
SUPPORT. What the operations of Machine/Security.lean keep (Laws/Keep.lean).
-/

namespace Sys2Proof.Machine

theorem State.countReset_kept {x0 s : State} (dom time : Nat) (hk : Kept x0 s) : Kept x0 (State.countReset s dom time) := by
  unfold State.countReset
  repeat' (first
    | with_reducible assumption
    | (refine id ?_; extract_lets +onlyGivenNames u1; first
        | ((refine (fun k1 : Kept x0 u1 => ?_) ?_) <;> [clear_value u1; subst u1])
        | clear_value u1)
    | with_reducible apply State.count64_kept
    | with_reducible apply State.journal_kept
    | ((with_reducible apply Kept.ite) <;> intro _)
    | split)

theorem State.logAlarm_kept {x0 s : State} (entry : Nat) (hk : Kept x0 s) : Kept x0 (State.logAlarm s entry) := by
  unfold State.logAlarm
  repeat' (first
    | with_reducible assumption
    | (refine id ?_; extract_lets +onlyGivenNames u1; first
        | ((refine (fun k1 : Kept x0 u1 => ?_) ?_) <;> [clear_value u1; subst u1])
        | clear_value u1)
    | with_reducible apply State.sf32_kept
    | with_reducible apply State.wWide_kept
    | with_reducible apply State.set32_kept
    | with_reducible apply State.count64_kept
    | ((with_reducible apply Kept.ite) <;> intro _)
    | (unfold Kept; dsimp only; with_reducible apply Kept.fold))

theorem State.showFuses_kept {x0 s : State} (hk : Kept x0 s) : Kept x0 (State.showFuses s) := by
  unfold State.showFuses
  repeat' (first
    | with_reducible assumption
    | (refine id ?_; extract_lets +onlyGivenNames u1; first
        | ((refine (fun k1 : Kept x0 u1 => ?_) ?_) <;> [clear_value u1; subst u1])
        | clear_value u1)
    | with_reducible apply State.w64_kept
    | with_reducible apply State.sf32_kept)

theorem State.readFuses_kept {x0 s : State} (vfuse : Bool) (hk : Kept x0 s) : Kept x0 (State.readFuses s vfuse) := by
  unfold State.readFuses
  repeat' (first
    | with_reducible assumption
    | intro _
    | (refine id ?_; extract_lets +onlyGivenNames u1; first
        | ((refine (fun k1 : Kept x0 u1 => ?_) ?_) <;> [clear_value u1; subst u1])
        | clear_value u1)
    | with_reducible apply State.raiseVfuse_kept
    | with_reducible apply State.blow_kept
    | with_reducible apply State.dropVfuse_kept
    | with_reducible apply State.showFuses_kept
    | with_reducible apply Kept.foldl
    | ((with_reducible apply Kept.ite) <;> intro _)
    | (unfold Kept; dsimp only; with_reducible apply Kept.fold))

theorem fuseProgram_kept {x0 s : State} (d : Desc) (vfuse : FuseSupply) (hk : Kept x0 s) : Kept x0 (fuseProgram d vfuse s) := by
  unfold fuseProgram
  repeat' (first
    | with_reducible assumption
    | intro _
    | ((fail_if_success have := @kf0); refine id ?_; extract_lets +onlyGivenNames u1; (refine (fun kf0 : ∀ a0 u, Kept x0 u → Kept x0 (u1 a0 u) => ?_) ?_) <;> [clear_value u1; subst u1])
    | (refine id ?_; extract_lets +onlyGivenNames u1; first
        | ((refine (fun k1 : Kept x0 u1 => ?_) ?_) <;> [clear_value u1; subst u1])
        | clear_value u1)
    | with_reducible apply kf0
    | with_reducible apply State.complete_kept
    | with_reducible apply State.raiseVfuse_kept
    | with_reducible apply State.blowWords_kept
    | with_reducible apply State.set32_kept
    | with_reducible apply State.dropVfuse_kept
    | ((with_reducible apply Kept.ite) <;> intro _)
    | with_reducible refine Kept.fst_eq (by with_reducible assumption) ?_
    | split)

theorem State.deriveKeys_kept {x0 s : State} (hk : Kept x0 s) : Kept x0 (State.deriveKeys s) := by
  unfold State.deriveKeys
  repeat' (first
    | with_reducible assumption
    | (unfold Kept; dsimp only; with_reducible apply Kept.fold))

theorem State.eraseKeys_kept {x0 s : State} (all : Bool) (hk : Kept x0 s) : Kept x0 (State.eraseKeys s all) := by
  unfold State.eraseKeys
  repeat' (first
    | with_reducible assumption
    | (refine id ?_; extract_lets +onlyGivenNames u1; clear_value u1)
    | (unfold Kept; dsimp only; with_reducible apply Kept.fold))

theorem State.emptyQueues_kept {x0 s : State} (k : Nat) (hk : Kept x0 s) : Kept x0 (State.emptyQueues s k) := by
  unfold State.emptyQueues
  repeat' (first
    | with_reducible assumption
    | intro _
    | (refine id ?_; extract_lets +onlyGivenNames u1; first
        | ((refine (fun k1 : Kept x0 u1 => ?_) ?_) <;> [clear_value u1; subst u1])
        | clear_value u1)
    | with_reducible apply State.setModEnd_kept
    | with_reducible apply State.freeEntry_kept
    | with_reducible apply Kept.foldl)

theorem State.scrub_kept {x0 s : State} (hk : Kept x0 s) : Kept x0 (State.scrub s) := by
  unfold State.scrub
  repeat' (first
    | with_reducible assumption
    | intro _
    | (refine id ?_; extract_lets +onlyGivenNames u1; first
        | ((refine (fun k1 : Kept x0 u1 => ?_) ?_) <;> [clear_value u1; subst u1])
        | clear_value u1)
    | with_reducible apply State.endPartTxns_kept
    | with_reducible apply State.emptyQueues_kept
    | with_reducible apply State.setCore_kept
    | with_reducible apply State.sf32_kept
    | with_reducible apply Kept.foldl
    | (unfold Kept; dsimp only; with_reducible refine Kept.sub ?_ ?_ ?_ ?_ ?_ ?_ ?_ ?_ ?_)
    | exact List.nil_sublist _
    | exact List.filter_sublist)

theorem State.scrubEpoch_kept {x0 s : State} (tick kind data : Nat) (hk : Kept x0 s) : Kept x0 (State.scrubEpoch s tick kind data) := by
  unfold State.scrubEpoch
  repeat' (first
    | with_reducible assumption
    | (refine id ?_; extract_lets +onlyGivenNames u1; first
        | ((refine (fun k1 : Kept x0 u1 => ?_) ?_) <;> [clear_value u1; subst u1])
        | clear_value u1)
    | with_reducible apply State.audit_kept
    | with_reducible apply State.closeEpoch_kept
    | with_reducible apply State.w64_kept
    | with_reducible apply State.scrub_kept)

theorem State.completeRing_kept {x0 s : State} (rid status : Nat) (hk : Kept x0 s) : Kept x0 (State.completeRing s rid status) := by
  unfold State.completeRing
  repeat' (first
    | with_reducible assumption
    | intro _
    | with_reducible apply State.complete_kept
    | with_reducible apply Kept.foldl)

theorem tenantSwitch_kept {x0 s : State} (d : Desc) (hk : Kept x0 s) : Kept x0 (tenantSwitch d s) := by
  unfold tenantSwitch
  repeat' (first
    | with_reducible assumption
    | intro _
    | (refine id ?_; extract_lets +onlyGivenNames u1; first
        | ((refine (fun k1 : Kept x0 u1 => ?_) ?_) <;> [clear_value u1; subst u1])
        | clear_value u1)
    | with_reducible apply State.complete_kept
    | with_reducible apply State.completeRing_kept
    | with_reducible apply State.deleteRings_kept
    | with_reducible apply State.forget_kept
    | with_reducible apply Kept.foldl
    | ((with_reducible apply Kept.ite) <;> intro _)
    | (unfold Kept; dsimp only; with_reducible apply Kept.fold))

theorem State.tenantEnd_kept {x0 s : State} (cmdId tick : Nat) (bad : Bool) (hk : Kept x0 s) : Kept x0 (State.tenantEnd s cmdId tick bad) := by
  unfold State.tenantEnd
  repeat' (first
    | with_reducible assumption
    | (refine id ?_; extract_lets +onlyGivenNames u1; first
        | ((refine (fun k1 : Kept x0 u1 => ?_) ?_) <;> [clear_value u1; subst u1])
        | clear_value u1)
    | with_reducible apply State.scrubEpoch_kept
    | with_reducible apply State.sf32_kept
    | with_reducible apply State.postEvent_kept
    | with_reducible apply State.publish_kept
    | with_reducible apply State.complete_kept
    | (unfold Kept; dsimp only; with_reducible apply Kept.fold))

theorem attestLog_kept {x0 s : State} (d : Desc) (hk : Kept x0 s) : Kept x0 (attestLog d s) := by
  unfold attestLog
  repeat' (first
    | with_reducible assumption
    | (refine id ?_; extract_lets +onlyGivenNames u1; clear_value u1)
    | with_reducible apply State.complete_kept
    | with_reducible apply State.emit_kept
    | ((with_reducible apply Kept.ite) <;> intro _))

theorem State.spdm_kept {x0 s : State} (code p1 p2 : Nat) (body : List Byte) (hk : Kept x0 s) : Kept x0 (State.spdm s code p1 p2 body) := by
  unfold State.spdm
  repeat' (first
    | with_reducible assumption
    | (refine id ?_; extract_lets +onlyGivenNames u1; clear_value u1)
    | with_reducible apply State.emit_kept)

theorem State.spdmError_kept {x0 s : State} (code : Nat) (hk : Kept x0 s) : Kept x0 (State.spdmError s code) := by
  unfold State.spdmError
  repeat' (first
    | with_reducible assumption
    | with_reducible apply State.spdm_kept)

theorem State.spdmFree_kept {x0 s : State} (n : Nat) (hk : Kept x0 s) : Kept x0 (State.spdmFree s n).2 := by
  unfold State.spdmFree
  repeat' (first
    | with_reducible assumption
    | with_reducible apply State.drawWide_kept)

theorem State.spdmGate_kept {x0 s : State} (slot : Nat) (hk : Kept x0 s) : KeptAll x0 (State.spdmGate s slot) := by
  unfold State.spdmGate
  repeat' (first
    | with_reducible assumption
    | with_reducible apply State.spdmError_kept
    | with_reducible exact KeptAll.nil
    | with_reducible apply KeptAll.one
    | split)

theorem getVersion_kept {x0 s : State} (hk : Kept x0 s) : Kept x0 (getVersion s) := by
  unfold getVersion
  repeat' (first
    | with_reducible assumption
    | (refine id ?_; extract_lets +onlyGivenNames u1; first
        | ((refine (fun k1 : Kept x0 u1 => ?_) ?_) <;> [clear_value u1; subst u1])
        | clear_value u1)
    | with_reducible apply State.emit_kept
    | ((with_reducible apply Kept.ite) <;> intro _)
    | (unfold Kept; dsimp only; with_reducible apply Kept.fold))

theorem getCapabilities_kept {x0 s : State} (hk : Kept x0 s) : Kept x0 (getCapabilities s) := by
  unfold getCapabilities
  repeat' (first
    | with_reducible assumption
    | (refine id ?_; extract_lets +onlyGivenNames u1; clear_value u1)
    | with_reducible apply State.spdmError_kept
    | with_reducible apply State.spdmFree_kept
    | with_reducible apply State.spdm_kept
    | ((with_reducible apply Kept.ite) <;> intro _)
    | (unfold Kept; dsimp only; with_reducible apply Kept.fold))

theorem negotiateAlgorithms_kept {x0 s : State} (common : Bool) (hk : Kept x0 s) : Kept x0 (negotiateAlgorithms common s) := by
  unfold negotiateAlgorithms
  repeat' (first
    | with_reducible assumption
    | (refine id ?_; extract_lets +onlyGivenNames u1; first
        | ((refine (fun k1 : Kept x0 u1 => ?_) ?_) <;> [clear_value u1; subst u1])
        | clear_value u1)
    | with_reducible apply State.spdmError_kept
    | with_reducible apply State.spdm_kept
    | ((with_reducible apply Kept.ite) <;> intro _)
    | (unfold Kept; dsimp only; with_reducible apply Kept.fold))

theorem getDigests_kept {x0 s : State} (hk : Kept x0 s) : Kept x0 (getDigests s) := by
  unfold getDigests
  repeat' (first
    | with_reducible assumption
    | with_reducible apply State.spdmError_kept
    | with_reducible apply State.spdm_kept
    | ((with_reducible apply Kept.ite) <;> intro _))

theorem getCertificate_kept {x0 s : State} (slot off len : Nat) (hk : Kept x0 s) : Kept x0 (getCertificate slot off len s) := by
  unfold getCertificate
  repeat' (first
    | with_reducible assumption
    | (refine id ?_; extract_lets +onlyGivenNames u1; clear_value u1)
    | with_reducible apply State.spdmGate_kept
    | with_reducible apply State.spdmError_kept
    | with_reducible apply State.spdm_kept
    | ((with_reducible apply Kept.ite) <;> intro _)
    | with_reducible refine KeptAll.get (by with_reducible assumption) ?_
    | split)

theorem spdmChallenge_kept {x0 s : State} (slot : Nat) (summary : Bool) (context : List Byte)
    (hk : Kept x0 s) : Kept x0 (spdmChallenge slot summary context s) := by
  unfold spdmChallenge
  repeat' (first
    | with_reducible assumption
    | with_reducible apply State.spdmGate_kept
    | with_reducible apply State.spdmFree_kept
    | with_reducible apply State.spdm_kept
    | with_reducible refine KeptAll.get (by with_reducible assumption) ?_
    | split)

theorem getMeasurements_kept {x0 s : State} (index : Nat) (signed : Bool) (context : List Byte)
    (hk : Kept x0 s) : Kept x0 (getMeasurements index signed context s) := by
  unfold getMeasurements
  repeat' (first
    | with_reducible assumption
    | (refine id ?_; extract_lets +onlyGivenNames u1; clear_value u1)
    | with_reducible apply State.spdmGate_kept
    | with_reducible apply State.spdmError_kept
    | with_reducible apply State.spdmFree_kept
    | with_reducible apply State.spdm_kept
    | ((with_reducible apply Kept.ite) <;> intro _)
    | with_reducible refine KeptAll.get (by with_reducible assumption) ?_
    | split)

theorem keyExchange_kept {x0 s : State} (slot reqId : Nat) (summary : Bool) (hk : Kept x0 s) : Kept x0 (keyExchange slot reqId summary s) := by
  unfold keyExchange
  repeat' (first
    | with_reducible assumption
    | (refine id ?_; extract_lets +onlyGivenNames u1; clear_value u1)
    | with_reducible apply State.spdmGate_kept
    | with_reducible apply State.spdmError_kept
    | with_reducible apply State.spdmFree_kept
    | with_reducible apply State.spdm_kept
    | ((with_reducible apply Kept.ite) <;> intro _)
    | with_reducible refine KeptAll.get (by with_reducible assumption) ?_
    | split
    | (unfold Kept; dsimp only; with_reducible apply Kept.fold))

theorem State.endSession_kept {x0 s : State} (id : Nat) (hk : Kept x0 s) : Kept x0 (State.endSession s id) := by
  unfold State.endSession
  repeat' (first
    | with_reducible assumption
    | (unfold Kept; dsimp only; with_reducible apply Kept.fold))

theorem spdmFinish_kept {x0 s : State} (id : Nat) (ok : Bool) (hk : Kept x0 s) : Kept x0 (spdmFinish id ok s) := by
  unfold spdmFinish
  repeat' (first
    | with_reducible assumption
    | with_reducible apply State.spdmError_kept
    | with_reducible apply State.endSession_kept
    | with_reducible apply State.spdm_kept
    | ((with_reducible apply Kept.ite) <;> intro _)
    | (unfold Kept; dsimp only; with_reducible apply Kept.fold))

theorem spdmHeartbeat_kept {x0 s : State} (id : Nat) (late : Bool) (hk : Kept x0 s) : Kept x0 (spdmHeartbeat id late s) := by
  unfold spdmHeartbeat
  repeat' (first
    | with_reducible assumption
    | with_reducible apply State.spdmError_kept
    | with_reducible apply State.endSession_kept
    | with_reducible apply State.spdm_kept
    | ((with_reducible apply Kept.ite) <;> intro _))

theorem keyUpdate_kept {x0 s : State} (id op tag : Nat) (hk : Kept x0 s) : Kept x0 (keyUpdate id op tag s) := by
  unfold keyUpdate
  repeat' (first
    | with_reducible assumption
    | with_reducible apply State.spdmError_kept
    | with_reducible apply State.spdm_kept
    | ((with_reducible apply Kept.ite) <;> intro _))

theorem endSession_kept {x0 s : State} (id : Nat) (hk : Kept x0 s) : Kept x0 (endSession id s) := by
  unfold endSession
  repeat' (first
    | with_reducible assumption
    | with_reducible apply State.spdmError_kept
    | with_reducible apply State.spdm_kept
    | with_reducible apply State.endSession_kept
    | ((with_reducible apply Kept.ite) <;> intro _))

theorem execTenantSwitch_kept {x0 s t0 : State} (d : Desc) (hk : Kept x0 s) (ek : execTenantSwitch d s = .next t0) : Kept x0 t0 := by
  unfold execTenantSwitch at ek
  rw [Host.Outcome.next.injEq] at ek; subst ek
  all_goals
    repeat' (first
      | with_reducible assumption
      | with_reducible apply tenantSwitch_kept)

theorem execAttestLog_kept {x0 s t0 : State} (d : Desc) (hk : Kept x0 s) (ek : execAttestLog d s = .next t0) : Kept x0 t0 := by
  unfold execAttestLog at ek
  rw [Host.Outcome.next.injEq] at ek; subst ek
  all_goals
    repeat' (first
      | with_reducible assumption
      | with_reducible apply attestLog_kept)

theorem execFuseProgram_kept {x0 s t0 : State} (d : Desc) (vfuse : FuseSupply) (hk : Kept x0 s) (ek : execFuseProgram d vfuse s = .next t0) : Kept x0 t0 := by
  unfold execFuseProgram at ek
  rw [Host.Outcome.next.injEq] at ek; subst ek
  all_goals
    repeat' (first
      | with_reducible assumption
      | with_reducible apply fuseProgram_kept)

theorem execGetVersion_kept {x0 s t0 : State} (hk : Kept x0 s) (ek : execGetVersion s = .next t0) : Kept x0 t0 := by
  unfold execGetVersion at ek
  rw [Host.Outcome.next.injEq] at ek; subst ek
  all_goals
    repeat' (first
      | with_reducible assumption
      | with_reducible apply getVersion_kept)

theorem execGetCapabilities_kept {x0 s t0 : State} (hk : Kept x0 s) (ek : execGetCapabilities s = .next t0) : Kept x0 t0 := by
  unfold execGetCapabilities at ek
  rw [Host.Outcome.next.injEq] at ek; subst ek
  all_goals
    repeat' (first
      | with_reducible assumption
      | with_reducible apply getCapabilities_kept)

theorem execNegotiateAlgorithms_kept {x0 s t0 : State} (common : Bool) (hk : Kept x0 s) (ek : execNegotiateAlgorithms common s = .next t0) : Kept x0 t0 := by
  unfold execNegotiateAlgorithms at ek
  rw [Host.Outcome.next.injEq] at ek; subst ek
  all_goals
    repeat' (first
      | with_reducible assumption
      | with_reducible apply negotiateAlgorithms_kept)

theorem execGetDigests_kept {x0 s t0 : State} (hk : Kept x0 s) (ek : execGetDigests s = .next t0) : Kept x0 t0 := by
  unfold execGetDigests at ek
  rw [Host.Outcome.next.injEq] at ek; subst ek
  all_goals
    repeat' (first
      | with_reducible assumption
      | with_reducible apply getDigests_kept)

theorem execGetCertificate_kept {x0 s t0 : State} (slot : Fin 16) (off len : BitVec 16) (hk : Kept x0 s) (ek : execGetCertificate slot off len s = .next t0) : Kept x0 t0 := by
  unfold execGetCertificate at ek
  rw [Host.Outcome.next.injEq] at ek; subst ek
  all_goals
    repeat' (first
      | with_reducible assumption
      | with_reducible apply getCertificate_kept)

theorem execSpdmChallenge_kept {x0 s t0 : State} (slot : Fin 16) (summary : Bool) (context : BitVec 64) (hk : Kept x0 s) (ek : execSpdmChallenge slot summary context s = .next t0) : Kept x0 t0 := by
  unfold execSpdmChallenge at ek
  rw [Host.Outcome.next.injEq] at ek; subst ek
  all_goals
    repeat' (first
      | with_reducible assumption
      | with_reducible apply spdmChallenge_kept)

theorem execGetMeasurements_kept {x0 s t0 : State} (index : BitVec 8) (signed : Bool) (context : BitVec 64) (hk : Kept x0 s) (ek : execGetMeasurements index signed context s = .next t0) : Kept x0 t0 := by
  unfold execGetMeasurements at ek
  rw [Host.Outcome.next.injEq] at ek; subst ek
  all_goals
    repeat' (first
      | with_reducible assumption
      | with_reducible apply getMeasurements_kept)

theorem execKeyExchange_kept {x0 s t0 : State} (slot : Fin 16) (reqId : BitVec 16) (summary : Bool) (hk : Kept x0 s) (ek : execKeyExchange slot reqId summary s = .next t0) : Kept x0 t0 := by
  unfold execKeyExchange at ek
  rw [Host.Outcome.next.injEq] at ek; subst ek
  all_goals
    repeat' (first
      | with_reducible assumption
      | with_reducible apply keyExchange_kept)

theorem execSpdmFinish_kept {x0 s t0 : State} (id : BitVec 32) (ok : Bool) (hk : Kept x0 s) (ek : execSpdmFinish id ok s = .next t0) : Kept x0 t0 := by
  unfold execSpdmFinish at ek
  rw [Host.Outcome.next.injEq] at ek; subst ek
  all_goals
    repeat' (first
      | with_reducible assumption
      | with_reducible apply spdmFinish_kept)

theorem execSpdmHeartbeat_kept {x0 s t0 : State} (id : BitVec 32) (late : Bool) (hk : Kept x0 s) (ek : execSpdmHeartbeat id late s = .next t0) : Kept x0 t0 := by
  unfold execSpdmHeartbeat at ek
  rw [Host.Outcome.next.injEq] at ek; subst ek
  all_goals
    repeat' (first
      | with_reducible assumption
      | with_reducible apply spdmHeartbeat_kept)

theorem execKeyUpdate_kept {x0 s t0 : State} (id : BitVec 32) (op tag : BitVec 8) (hk : Kept x0 s) (ek : execKeyUpdate id op tag s = .next t0) : Kept x0 t0 := by
  unfold execKeyUpdate at ek
  rw [Host.Outcome.next.injEq] at ek; subst ek
  all_goals
    repeat' (first
      | with_reducible assumption
      | with_reducible apply keyUpdate_kept)

theorem execEndSession_kept {x0 s t0 : State} (id : BitVec 32) (hk : Kept x0 s) (ek : execEndSession id s = .next t0) : Kept x0 t0 := by
  unfold execEndSession at ek
  rw [Host.Outcome.next.injEq] at ek; subst ek
  all_goals
    repeat' (first
      | with_reducible assumption
      | with_reducible apply endSession_kept)

end Sys2Proof.Machine
end

