-- ==== Sys2Proof/Laws/KeepDawn.lean ====
section
/-!
SUPPORT. What the operations of Machine/Dawn.lean keep (Laws/Keep.lean).
-/

namespace Sys2Proof.Machine

theorem State.resetAll_kept {x0 s : State} (cold : Bool) (hk : Kept x0 s) : Kept x0 (State.resetAll s cold) := by
  unfold State.resetAll
  repeat' (first
    | with_reducible assumption
    | intro _
    | (refine id ?_; extract_lets +onlyGivenNames u1; first
        | ((refine (fun k1 : Kept x0 u1 => ?_) ?_) <;> [clear_value u1; subst u1])
        | clear_value u1)
    | with_reducible apply State.w32_kept
    | with_reducible apply State.sf32_kept
    | with_reducible apply State.setDie_kept
    | with_reducible apply Kept.foldl
    | split
    | (unfold Kept; dsimp only; with_reducible refine Kept.sub ?_ ?_ ?_ ?_ ?_ ?_ ?_ ?_ ?_)
    | exact List.nil_sublist _
    | exact List.filter_sublist)

theorem State.setDawnCount_kept {x0 s : State} (key n : Nat) (hk : Kept x0 s) : Kept x0 (State.setDawnCount s key n) := by
  unfold State.setDawnCount
  repeat' (first
    | with_reducible assumption
    | (unfold Kept; dsimp only; with_reducible apply Kept.fold))

theorem State.dawnRecord_kept {x0 s : State} (x : DawnIn) (step kind unit r detail : Nat)
    (hk : Kept x0 s) : Kept x0 (State.dawnRecord s x step kind unit r detail) := by
  unfold State.dawnRecord
  repeat' (first
    | with_reducible assumption
    | (refine id ?_; extract_lets +onlyGivenNames u1; first
        | ((refine (fun k1 : Kept x0 u1 => ?_) ?_) <;> [clear_value u1; subst u1])
        | clear_value u1)
    | with_reducible apply State.setDawnCount_kept
    | with_reducible apply State.journal_kept
    | with_reducible apply State.count32_kept
    | ((with_reducible apply Kept.ite) <;> intro _)
    | split
    | (unfold Kept; dsimp only; with_reducible apply Kept.fold))

theorem State.setDawnDie_kept {x0 s : State} (d code : Nat) (hk : Kept x0 s) : Kept x0 (State.setDawnDie s d code) := by
  unfold State.setDawnDie
  repeat' (first
    | with_reducible assumption
    | (refine id ?_; extract_lets +onlyGivenNames u1; first
        | ((refine (fun k1 : Kept x0 u1 => ?_) ?_) <;> [clear_value u1; subst u1])
        | clear_value u1)
    | with_reducible apply State.sf32_kept
    | with_reducible apply State.setDie_kept
    | ((with_reducible apply Kept.ite) <;> intro _))

theorem State.setModule_kept {x0 s : State} (k x : Nat) (hk : Kept x0 s) : Kept x0 (State.setModule s k x) := by
  unfold State.setModule
  repeat' (first
    | with_reducible assumption
    | intro _
    | ((fail_if_success have := @kf0); refine id ?_; extract_lets +onlyGivenNames u1; (refine (fun kf0 : ∀ u a1, Kept x0 u → Kept x0 (u1 u a1) => ?_) ?_) <;> [clear_value u1; subst u1])
    | with_reducible apply kf0
    | with_reducible apply State.w32_kept
    | with_reducible apply State.putRoles_kept)

theorem State.moduleAbsent_kept {x0 s : State} (k : Nat) (hk : Kept x0 s) : Kept x0 (State.moduleAbsent s k) := by
  unfold State.moduleAbsent
  repeat' (first
    | with_reducible assumption
    | intro _
    | ((fail_if_success have := @kf0); refine id ?_; extract_lets +onlyGivenNames u1; (refine (fun kf0 : ∀ u a1, Kept x0 u → Kept x0 (u1 u a1) => ?_) ?_) <;> [clear_value u1; subst u1])
    | (refine id ?_; extract_lets +onlyGivenNames u1; clear_value u1)
    | with_reducible apply kf0
    | with_reducible apply State.clr32_kept
    | with_reducible apply State.set32_kept
    | with_reducible apply State.setModEnd_kept)

theorem State.trainPort_kept {x0 s : State} (p r : Nat) (hk : Kept x0 s) : Kept x0 (State.trainPort s p r) := by
  unfold State.trainPort
  repeat' (first
    | with_reducible assumption
    | intro _
    | (refine id ?_; extract_lets +onlyGivenNames u1; first
        | ((refine (fun k1 : Kept x0 u1 => ?_) ?_) <;> [clear_value u1; subst u1])
        | clear_value u1)
    | with_reducible apply State.setLane_kept
    | with_reducible apply State.w32_kept
    | with_reducible apply State.sf64_kept
    | with_reducible apply Kept.foldl
    | with_reducible apply Kept.foldl_fst
    | split)

theorem State.spares_kept {x0 s : State} (hk : Kept x0 s) : Kept x0 (State.spares s) := by
  unfold State.spares
  repeat' (first
    | with_reducible assumption
    | intro _
    | (refine id ?_; extract_lets +onlyGivenNames u1; clear_value u1)
    | with_reducible apply State.setLane_kept
    | with_reducible apply Kept.foldl)

theorem State.applyConfig_kept {x0 s : State} (rec' : Nat) (hk : Kept x0 s) : Kept x0 (State.applyConfig s rec') := by
  unfold State.applyConfig
  repeat' (first
    | with_reducible assumption
    | intro _
    | (refine id ?_; extract_lets +onlyGivenNames u1; first
        | ((refine (fun k1 : Kept x0 u1 => ?_) ?_) <;> [clear_value u1; subst u1])
        | clear_value u1)
    | with_reducible apply State.w64_kept
    | with_reducible apply State.sf32_kept
    | with_reducible apply Kept.foldl
    | (unfold Kept; dsimp only; with_reducible apply Kept.fold))

theorem State.avsSteps_kept {x0 s : State} (rail cur dest r4 : Nat) (hk : Kept x0 s) : Kept x0 (State.avsSteps s rail cur dest r4) := by
  induction r4 generalizing s rail cur dest with
  | zero =>
    unfold State.avsSteps
    repeat' (first
      | with_reducible assumption)
  | succ m ih =>
    unfold State.avsSteps
    repeat' (first
      | with_reducible assumption
      | (refine id ?_; extract_lets +onlyGivenNames u1; clear_value u1)
      | with_reducible apply ih
      | with_reducible apply State.emit_kept
      | ((with_reducible apply Kept.ite) <;> intro _))

theorem State.commandVolt_kept {x0 s : State} (d code : Nat) (hk : Kept x0 s) : Kept x0 (State.commandVolt s d code) := by
  unfold State.commandVolt
  repeat' (first
    | with_reducible assumption
    | (refine id ?_; extract_lets +onlyGivenNames u1; clear_value u1)
    | with_reducible apply State.sf32_kept
    | with_reducible apply State.avsSteps_kept)

theorem State.mapEngines_kept {x0 s : State} (d : Nat) (hk : Kept x0 s) : Kept x0 (State.mapEngines s d) := by
  unfold State.mapEngines
  repeat' (first
    | with_reducible assumption
    | intro _
    | with_reducible apply State.w32_kept
    | with_reducible apply Kept.foldl)

theorem State.stepBegin_kept {x0 s : State} (x : DawnIn) (kind step : Nat) (hk : Kept x0 s) : Kept x0 (State.stepBegin s x kind step) := by
  unfold State.stepBegin
  repeat' (first
    | with_reducible assumption
    | intro _
    | (refine id ?_; extract_lets +onlyGivenNames u1; first
        | ((refine (fun k1 : Kept x0 u1 => ?_) ?_) <;> [clear_value u1; subst u1])
        | clear_value u1)
    | with_reducible apply State.sf32_kept
    | with_reducible apply State.readFuses_kept
    | with_reducible apply State.applyConfig_kept
    | with_reducible apply State.emit_kept
    | with_reducible apply State.commandVolt_kept
    | with_reducible apply State.setModule_kept
    | with_reducible apply State.setDie_kept
    | with_reducible apply State.mapEngines_kept
    | with_reducible apply State.chooseIdle_kept
    | with_reducible apply State.spares_kept
    | with_reducible apply Kept.foldl
    | ((with_reducible apply Kept.ite) <;> intro _)
    | split
    | (unfold Kept; dsimp only; with_reducible apply Kept.fold))

theorem State.stepEffect_kept {x0 s : State} (step kind unit r : Nat) (hk : Kept x0 s) : Kept x0 (State.stepEffect s step kind unit r) := by
  unfold State.stepEffect
  repeat' (first
    | with_reducible assumption
    | (refine id ?_; extract_lets +onlyGivenNames u1; clear_value u1)
    | with_reducible apply State.setDawnDie_kept
    | with_reducible apply State.moduleAbsent_kept
    | with_reducible apply State.setModule_kept
    | ((with_reducible apply Kept.ite) <;> intro _)
    | (unfold Kept; dsimp only; with_reducible apply Kept.fold))

theorem State.stepEnd_kept {x0 s : State} (step : Nat) (port : Nat → Nat) (hk : Kept x0 s) : Kept x0 (State.stepEnd s step port) := by
  unfold State.stepEnd
  repeat' (first
    | with_reducible assumption
    | intro _
    | with_reducible apply State.deriveKeys_kept
    | with_reducible apply State.setDie_kept
    | with_reducible apply State.trainPort_kept
    | with_reducible apply Kept.foldl
    | split)

theorem State.mainFalls_kept {x0 s : State} (hk : Kept x0 s) : Kept x0 (State.mainFalls s) := by
  unfold State.mainFalls
  repeat' (first
    | with_reducible assumption
    | (unfold Kept; dsimp only; with_reducible apply Kept.fold))

theorem State.dawnFailed_kept {x0 s : State} (x : DawnIn) (step : Nat) (hk : Kept x0 s) : Kept x0 (State.dawnFailed s x step) := by
  unfold State.dawnFailed
  repeat' (first
    | with_reducible assumption
    | (refine id ?_; extract_lets +onlyGivenNames u1; ((refine (fun k1 : Kept x0 u1 => ?_) ?_) <;> [clear_value u1; subst u1]))
    | with_reducible apply State.sf32_kept
    | with_reducible apply State.journal_kept
    | with_reducible apply State.mainFalls_kept
    | with_reducible apply State.emit_kept)

theorem State.dawnStep_kept {x0 s : State} (x : DawnIn) (fails : List DawnFail) (kind step : Nat)
    (hk : Kept x0 s) : Kept x0 (State.dawnStep s x fails kind step).1 := by
  unfold State.dawnStep
  repeat' (first
    | with_reducible assumption
    | intro _
    | (refine id ?_; extract_lets +onlyGivenNames u1; first
        | ((refine (fun k1 : Kept x0 u1 => ?_) ?_) <;> [clear_value u1; subst u1])
        | clear_value u1)
    | with_reducible apply State.sf32_kept
    | with_reducible apply State.stepBegin_kept
    | with_reducible apply State.stepEffect_kept
    | with_reducible apply State.journal_kept
    | with_reducible apply State.dawnRecord_kept
    | with_reducible apply State.stepEnd_kept
    | with_reducible apply Kept.foldl
    | ((with_reducible apply Kept.ite) <;> intro _))

theorem State.killStep_kept {x0 s : State} (x : DawnIn) (hk : Kept x0 s) : KeptAll x0 (State.killStep s x) := by
  unfold State.killStep
  repeat' (first
    | with_reducible assumption
    | (refine id ?_; extract_lets +onlyGivenNames u1; ((refine (fun k1 : Kept x0 u1 => ?_) ?_) <;> [clear_value u1; subst u1]))
    | with_reducible apply State.emit_kept
    | with_reducible apply State.clr32_kept
    | with_reducible apply State.blow_kept
    | with_reducible exact KeptAll.nil
    | with_reducible apply KeptAll.one
    | split)

theorem State.raiseMain_kept {x0 s : State} (hk : Kept x0 s) : Kept x0 (State.raiseMain s) := by
  unfold State.raiseMain
  repeat' (first
    | with_reducible assumption
    | with_reducible apply State.emit_kept
    | ((with_reducible apply Kept.ite) <;> intro _)
    | (unfold Kept; dsimp only; with_reducible apply Kept.fold))

theorem State.killGate_kept {x0 s : State} (x : DawnIn) (k : Nat) (hk : Kept x0 s) : KeptAll x0 (State.killGate s x k) := by
  unfold State.killGate
  repeat' (first
    | with_reducible assumption
    | with_reducible apply State.killStep_kept
    | with_reducible apply KeptAll.one
    | split)

theorem State.dawnSteps_kept {x0 s : State} (x : DawnIn) (fails : List DawnFail) (kind : Nat) (r4 : List Nat)
    (hk : Kept x0 s) : Kept x0 (State.dawnSteps s x fails kind r4).1 := by
  induction r4 generalizing s x fails kind with
  | nil =>
    unfold State.dawnSteps
    repeat' (first
      | with_reducible assumption
      | with_reducible apply State.sf32_kept)
  | cons m ms ih =>
    unfold State.dawnSteps
    repeat' (first
      | with_reducible assumption
      | (refine id ?_; extract_lets +onlyGivenNames u1; first
        | ((refine (fun k1 : Kept x0 u1 => ?_) ?_) <;> [clear_value u1; subst u1])
        | clear_value u1)
      | with_reducible apply ih
      | with_reducible apply State.sf32_kept
      | with_reducible apply State.raiseMain_kept
      | with_reducible apply State.killGate_kept
      | with_reducible apply State.dawnFailed_kept
      | with_reducible apply State.dawnStep_kept
      | ((with_reducible apply Kept.ite) <;> intro _)
      | with_reducible refine Kept.fst_eq (by with_reducible assumption) ?_
      | with_reducible refine KeptAll.get (by with_reducible assumption) ?_
      | split
      | (unfold Kept; dsimp only; with_reducible apply Kept.fold))

theorem State.dawnBegin_kept {x0 s : State} (kind : Nat) (hk : Kept x0 s) : Kept x0 (State.dawnBegin s kind) := by
  unfold State.dawnBegin
  repeat' (first
    | with_reducible assumption
    | (refine id ?_; extract_lets +onlyGivenNames u1; first
        | ((refine (fun k1 : Kept x0 u1 => ?_) ?_) <;> [clear_value u1; subst u1])
        | clear_value u1)
    | with_reducible apply State.w32_kept
    | with_reducible apply State.sf32_kept
    | with_reducible apply State.journal_kept
    | with_reducible apply State.audit_kept
    | split
    | (unfold Kept; dsimp only; with_reducible apply Kept.fold))

theorem State.runDawn_kept {x0 s : State} (x : DawnIn) (kind : Nat) (hk : Kept x0 s) : Kept x0 (State.runDawn s x kind) := by
  unfold State.runDawn
  repeat' (first
    | with_reducible assumption
    | (refine id ?_; extract_lets +onlyGivenNames u1; first
        | ((refine (fun k1 : Kept x0 u1 => ?_) ?_) <;> [clear_value u1; subst u1])
        | clear_value u1)
    | with_reducible apply State.w32_kept
    | with_reducible apply State.dawnSteps_kept
    | with_reducible apply State.dawnBegin_kept
    | ((with_reducible apply Kept.ite) <;> intro _)
    | (unfold Kept; dsimp only; with_reducible apply Kept.fold))

theorem State.resumeDawn_kept {x0 s : State} (x : DawnIn) (hk : Kept x0 s) : Kept x0 (State.resumeDawn s x) := by
  unfold State.resumeDawn
  repeat' (first
    | with_reducible assumption
    | (refine id ?_; extract_lets +onlyGivenNames u1; first
        | ((refine (fun k1 : Kept x0 u1 => ?_) ?_) <;> [clear_value u1; subst u1])
        | clear_value u1)
    | with_reducible apply State.dawnSteps_kept
    | with_reducible apply State.dawnBegin_kept
    | ((with_reducible apply Kept.ite) <;> intro _)
    | (unfold Kept; dsimp only; with_reducible apply Kept.fold))

theorem State.resetPackage_kept {x0 s : State} (cold : Bool) (time : Nat) (hk : Kept x0 s) : Kept x0 (State.resetPackage s cold time) := by
  unfold State.resetPackage
  repeat' (first
    | with_reducible assumption
    | (refine id ?_; extract_lets +onlyGivenNames u1; first
        | ((refine (fun k1 : Kept x0 u1 => ?_) ?_) <;> [clear_value u1; subst u1])
        | clear_value u1)
    | with_reducible apply State.resetAll_kept
    | with_reducible apply State.audit_kept
    | with_reducible apply State.countReset_kept
    | with_reducible apply State.clr32_kept
    | ((with_reducible apply Kept.ite) <;> intro _)
    | (unfold Kept; dsimp only; with_reducible apply Kept.fold))

theorem State.startDawn_kept {x0 s : State} (x : DawnIn) (kind : Nat) (hk : Kept x0 s) : Kept x0 (State.startDawn s x kind) := by
  unfold State.startDawn
  repeat' (first
    | with_reducible assumption
    | with_reducible apply State.runDawn_kept
    | with_reducible apply State.raiseMain_kept
    | ((with_reducible apply Kept.ite) <;> intro _)
    | (unfold Kept; dsimp only; with_reducible apply Kept.fold))

theorem State.freePins_kept {x0 s : State} (hk : Kept x0 s) : Kept x0 (State.freePins s) := by
  unfold State.freePins
  repeat' (first
    | with_reducible assumption
    | (refine id ?_; extract_lets +onlyGivenNames u1; ((refine (fun k1 : Kept x0 u1 => ?_) ?_) <;> [clear_value u1; subst u1]))
    | with_reducible apply State.clr32_kept
    | with_reducible apply State.startDawn_kept
    | split
    | (unfold Kept; dsimp only; with_reducible apply Kept.fold))

theorem State.warmStart_kept {x0 s : State} (x : DawnIn) (time : Nat) (hk : Kept x0 s) : Kept x0 (State.warmStart s x time) := by
  unfold State.warmStart
  repeat' (first
    | with_reducible assumption
    | (refine id ?_; extract_lets +onlyGivenNames u1; ((refine (fun k1 : Kept x0 u1 => ?_) ?_) <;> [clear_value u1; subst u1]))
    | with_reducible apply State.resetPackage_kept
    | with_reducible apply State.sf32_kept
    | with_reducible apply State.runDawn_kept
    | ((with_reducible apply Kept.ite) <;> intro _))

theorem porN_kept {x0 s : State} (x : Option DawnIn) (time : Nat) (hk : Kept x0 s) : Kept x0 (porN x time s) := by
  unfold porN
  repeat' (first
    | with_reducible assumption
    | with_reducible apply State.startDawn_kept
    | (refine id ?_; extract_lets +onlyGivenNames u1; first
        | ((refine (fun k1 : Kept x0 u1 => ?_) ?_) <;> [clear_value u1; subst u1])
        | clear_value u1)
    | with_reducible apply State.resetPackage_kept
    | with_reducible apply State.runDawn_kept
    | ((with_reducible apply Kept.ite) <;> intro _)
    | split
    | (unfold Kept; dsimp only; with_reducible apply Kept.fold))

theorem warmResetN_kept {x0 s : State} (x : DawnIn) (time : Nat) (hk : Kept x0 s) : Kept x0 (warmResetN x time s) := by
  unfold warmResetN
  repeat' (first
    | with_reducible assumption
    | with_reducible apply State.startDawn_kept
    | with_reducible apply State.resetPackage_kept
    | with_reducible apply State.warmStart_kept
    | ((with_reducible apply Kept.ite) <;> intro _))

theorem dawnWatchdogExpiry_kept {x0 s : State} (kind unit : Nat) (x : DawnIn) (time : Nat)
    (hk : Kept x0 s) : Kept x0 (dawnWatchdogExpiry kind unit x time s) := by
  unfold dawnWatchdogExpiry
  repeat' (first
    | with_reducible assumption
    | (refine id ?_; extract_lets +onlyGivenNames u1; first
        | ((refine (fun k1 : Kept x0 u1 => ?_) ?_) <;> [clear_value u1; subst u1])
        | clear_value u1)
    | with_reducible apply State.dawnRecord_kept
    | with_reducible apply State.count64_kept
    | with_reducible apply State.warmStart_kept
    | ((with_reducible apply Kept.ite) <;> intro _)
    | (unfold Kept; dsimp only; with_reducible apply Kept.fold))

theorem failedDawnRestart_kept {x0 s : State} (x : DawnIn) (hk : Kept x0 s) : Kept x0 (failedDawnRestart x s) := by
  unfold failedDawnRestart
  repeat' (first
    | with_reducible assumption
    | with_reducible apply State.startDawn_kept
    | with_reducible apply State.runDawn_kept
    | with_reducible apply State.resetAll_kept
    | ((with_reducible apply Kept.ite) <;> intro _))

theorem State.writeRoutes_kept {x0 s : State} (base : Nat) (l : List Byte) (hk : Kept x0 s) : Kept x0 (State.writeRoutes s base l) := by
  unfold State.writeRoutes
  repeat' (first
    | with_reducible assumption
    | intro _
    | with_reducible apply State.w32_kept
    | with_reducible apply Kept.foldl)

theorem State.burnMarks_kept {x0 s : State} (more : List FuseWord) (vfuse : FuseSupply) (time : Nat)
    (hk : Kept x0 s) : Kept x0 (State.burnMarks s more vfuse time) := by
  unfold State.burnMarks
  repeat' (first
    | with_reducible assumption
    | (refine id ?_; extract_lets +onlyGivenNames u1; first
        | ((refine (fun k1 : Kept x0 u1 => ?_) ?_) <;> [clear_value u1; subst u1])
        | clear_value u1)
    | with_reducible apply State.dropVfuse_kept
    | with_reducible apply State.burn_kept
    | with_reducible apply State.raiseVfuse_kept
    | ((with_reducible apply Kept.ite) <;> intro _)
    | (unfold Kept; dsimp only; with_reducible apply Kept.fold))

theorem State.lateSteps_kept {x0 s : State} (x : DawnIn) (hk : Kept x0 s) : Kept x0 (State.lateSteps s x) := by
  unfold State.lateSteps
  repeat' (first
    | with_reducible assumption
    | (refine id ?_; extract_lets +onlyGivenNames u1; first
        | ((refine (fun k1 : Kept x0 u1 => ?_) ?_) <;> [clear_value u1; subst u1])
        | clear_value u1)
    | with_reducible apply State.dawnStep_kept
    | with_reducible apply State.w32_kept)

theorem State.startHours_kept {x0 s : State} (t : Nat) (hk : Kept x0 s) : Kept x0 (State.startHours s t) := by
  unfold State.startHours
  repeat' (first
    | with_reducible assumption
    | intro _
    | (refine id ?_; extract_lets +onlyGivenNames u1; clear_value u1)
    | with_reducible apply State.setDie_kept
    | with_reducible apply State.w64_kept
    | with_reducible apply Kept.foldl
    | ((with_reducible apply Kept.ite) <;> intro _))

theorem State.dawnCarried_kept {x0 s : State} (hk : Kept x0 s) : Kept x0 (State.dawnCarried s) := by
  unfold State.dawnCarried
  repeat' (first
    | with_reducible assumption
    | (refine id ?_; extract_lets +onlyGivenNames u1; first
        | ((refine (fun k1 : Kept x0 u1 => ?_) ?_) <;> [clear_value u1; subst u1])
        | clear_value u1)
    | with_reducible apply State.sf32_kept
    | (unfold Kept; dsimp only; with_reducible apply Kept.fold))

theorem State.tellAlarms_kept {x0 s : State} (hk : Kept x0 s) : Kept x0 (State.tellAlarms s) := by
  unfold State.tellAlarms
  repeat' (first
    | with_reducible assumption
    | intro _
    | (refine id ?_; extract_lets +onlyGivenNames u1; first
        | ((refine (fun k1 : Kept x0 u1 => ?_) ?_) <;> [clear_value u1; subst u1])
        | clear_value u1)
    | with_reducible apply State.postEvent_kept
    | with_reducible apply Kept.foldl
    | (unfold Kept; dsimp only; with_reducible apply Kept.fold))

theorem State.wokenUp_kept {x0 s : State} (hk : Kept x0 s) : Kept x0 (State.wokenUp s) := by
  unfold State.wokenUp
  repeat' (first
    | with_reducible assumption
    | (unfold Kept; dsimp only; with_reducible apply Kept.fold))

theorem dawnDone_kept {x0 s : State} (x : DawnIn) (map : List (Nat × Nat × Nat × Nat)) (cut : List Nat) (t tick : Nat) (hk : Kept x0 s) :
    Kept x0 (dawnDone x map cut t tick s) := by
  unfold dawnDone
  repeat' (first
    | with_reducible assumption
    | (refine id ?_; extract_lets +onlyGivenNames u1; first
        | ((refine (fun k1 : Kept x0 u1 => ?_) ?_) <;> [clear_value u1; subst u1])
        | clear_value u1)
    | with_reducible apply State.writeRoutes_kept
    | with_reducible apply State.startHours_kept
    | with_reducible apply State.burnMarks_kept
    | with_reducible apply State.dawnCarried_kept
    | with_reducible apply State.journal_kept
    | with_reducible apply State.sf32_kept
    | with_reducible apply State.set32_kept
    | with_reducible apply State.audit_kept
    | with_reducible apply State.closeInterval_kept
    | with_reducible apply State.postEvent_kept
    | with_reducible apply State.publish_kept
    | with_reducible apply State.tellAlarms_kept
    | with_reducible apply State.lateSteps_kept
    | with_reducible apply State.wokenUp_kept
    | ((with_reducible apply Kept.ite) <;> intro _))

theorem execPorN_kept {x0 s t0 : State} (x : Option DawnIn) (time : Nat) (hk : Kept x0 s) (ek : execPorN x time s = .next t0) : Kept x0 t0 := by
  unfold execPorN at ek
  rw [Host.Outcome.next.injEq] at ek; subst ek
  all_goals
    repeat' (first
      | with_reducible assumption
      | with_reducible apply porN_kept)

theorem execWarmResetN_kept {x0 s t0 : State} (x : DawnIn) (time : Nat) (hk : Kept x0 s) (ek : execWarmResetN x time s = .next t0) : Kept x0 t0 := by
  unfold execWarmResetN at ek
  rw [Host.Outcome.next.injEq] at ek; subst ek
  all_goals
    repeat' (first
      | with_reducible assumption
      | with_reducible apply warmResetN_kept)

theorem execDawnWatchdogExpiry_kept {x0 s t0 : State} (kind : Fin 7) (unit : Fin 240) (x : DawnIn) (time : Nat) (hk : Kept x0 s) (ek : execDawnWatchdogExpiry kind unit x time s = .next t0) : Kept x0 t0 := by
  unfold execDawnWatchdogExpiry at ek
  rw [Host.Outcome.next.injEq] at ek; subst ek
  all_goals
    repeat' (first
      | with_reducible assumption
      | with_reducible apply dawnWatchdogExpiry_kept)

theorem execFailedDawnRestart_kept {x0 s t0 : State} (x : DawnIn) (hk : Kept x0 s) (ek : execFailedDawnRestart x s = .next t0) : Kept x0 t0 := by
  unfold execFailedDawnRestart at ek
  rw [Host.Outcome.next.injEq] at ek; subst ek
  all_goals
    repeat' (first
      | with_reducible assumption
      | with_reducible apply failedDawnRestart_kept)

theorem execDawnDone_kept {x0 s t0 : State} (x : DawnIn) (map : List (Nat × Nat × Nat × Nat)) (cut : List Nat) (t tick : Nat) (hk : Kept x0 s) (ek : execDawnDone x map cut t tick s = .next t0) : Kept x0 t0 := by
  unfold execDawnDone at ek
  rw [Host.Outcome.next.injEq] at ek; subst ek
  all_goals
    repeat' (first
      | with_reducible assumption
      | with_reducible apply dawnDone_kept)

end Sys2Proof.Machine
end

