-- ==== Sys2Proof/Laws/KeepResets.lean ====
section
/-!
SUPPORT. What the operations of Machine/Resets.lean keep (Laws/Keep.lean).
-/

namespace Sys2Proof.Machine

theorem State.joinDie_kept {x0 s : State} (d : Nat) (hk : Kept x0 s) : Kept x0 (State.joinDie s d) := by
  unfold State.joinDie
  repeat' (first
    | with_reducible assumption
    | (refine id ?_; extract_lets +onlyGivenNames u1; clear_value u1)
    | with_reducible apply State.setDie_kept)

theorem State.resetCore_kept {x0 s : State} (g : Nat) (hk : Kept x0 s) : Kept x0 (State.resetCore s g) := by
  unfold State.resetCore
  repeat' (first
    | with_reducible assumption
    | intro _
    | (refine id ?_; extract_lets +onlyGivenNames u1; first
        | ((refine (fun k1 : Kept x0 u1 => ?_) ?_) <;> [clear_value u1; subst u1])
        | clear_value u1)
    | with_reducible apply State.idleCore_kept
    | with_reducible apply State.w32_kept
    | with_reducible apply Kept.foldl
    | (unfold Kept; dsimp only; with_reducible refine Kept.sub ?_ ?_ ?_ ?_ ?_ ?_ ?_ ?_ ?_)
    | exact List.Sublist.refl _
    | exact List.filter_sublist)

theorem State.clearFabric_kept {x0 s : State} (d : Nat) (hk : Kept x0 s) : Kept x0 (State.clearFabric s d) := by
  unfold State.clearFabric
  repeat' (first
    | with_reducible assumption
    | intro _
    | (refine id ?_; extract_lets +onlyGivenNames u1; first
        | ((refine (fun k1 : Kept x0 u1 => ?_) ?_) <;> [clear_value u1; subst u1])
        | clear_value u1)
    | with_reducible apply State.setDie_kept
    | with_reducible apply State.emptyQueues_kept
    | with_reducible apply Kept.foldl
    | (unfold Kept; dsimp only; with_reducible refine Kept.sub ?_ ?_ ?_ ?_ ?_ ?_ ?_ ?_ ?_)
    | exact List.Sublist.refl _
    | exact List.filter_sublist)

theorem State.restageHeld_kept {x0 s : State} (d : Nat) (hk : Kept x0 s) : Kept x0 (State.restageHeld s d) := by
  unfold State.restageHeld
  repeat' (first
    | with_reducible assumption
    | intro _
    | (refine id ?_; extract_lets +onlyGivenNames u1; clear_value u1)
    | with_reducible apply State.stage_kept
    | with_reducible apply State.setDie_kept
    | with_reducible apply Kept.foldl
    | ((with_reducible apply Kept.ite) <;> intro _))

theorem State.rewriteCore_kept {x0 s : State} (g : Nat) (hk : Kept x0 s) : Kept x0 (State.rewriteCore s g) := by
  unfold State.rewriteCore
  repeat' (first
    | with_reducible assumption
    | (refine id ?_; extract_lets +onlyGivenNames u1; clear_value u1)
    | with_reducible apply State.openRepairs_kept)

theorem State.resetDomain_kept {x0 s : State} (dom d k slot : Nat) (cmd : Option Nat) (t time : Nat)
    (hk : Kept x0 s) : Kept x0 (State.resetDomain s dom d k slot cmd t time) := by
  unfold State.resetDomain
  repeat' (first
    | with_reducible assumption
    | intro _
    | (refine id ?_; extract_lets +onlyGivenNames u1; first
        | ((refine (fun k1 : Kept x0 u1 => ?_) ?_) <;> [clear_value u1; subst u1])
        | clear_value u1)
    | with_reducible apply State.countReset_kept
    | with_reducible apply State.abortStep_kept
    | with_reducible apply State.restageHeld_kept
    | with_reducible apply State.makeCopies_kept
    | with_reducible apply State.recordHold_kept
    | with_reducible apply State.clearFabric_kept
    | with_reducible apply State.setDie_kept
    | with_reducible apply State.rewriteCore_kept
    | with_reducible apply State.resetCore_kept
    | with_reducible apply Kept.foldl
    | ((with_reducible apply Kept.ite) <;> intro _)
    | (unfold Kept; dsimp only; with_reducible apply Kept.fold))

theorem State.fabricFault_kept {x0 s : State} (d t time : Nat) (hk : Kept x0 s) : Kept x0 (State.fabricFault s d t time) := by
  unfold State.fabricFault
  repeat' (first
    | with_reducible assumption
    | (refine id ?_; extract_lets +onlyGivenNames u1; first
        | ((refine (fun k1 : Kept x0 u1 => ?_) ?_) <;> [clear_value u1; subst u1])
        | clear_value u1)
    | with_reducible apply State.resetDomain_kept
    | ((with_reducible apply Kept.ite) <;> intro _)
    | split
    | (unfold Kept; dsimp only; with_reducible apply Kept.fold))

theorem domainResetComplete_kept {x0 s : State} (dom d k slot : Nat) (pass : Bool)
    (hk : Kept x0 s) : Kept x0 (domainResetComplete dom d k slot pass s) := by
  unfold domainResetComplete
  repeat' (first
    | with_reducible assumption
    | intro _
    | (refine id ?_; extract_lets +onlyGivenNames u1; first
        | ((refine (fun k1 : Kept x0 u1 => ?_) ?_) <;> [clear_value u1; subst u1])
        | clear_value u1)
    | with_reducible apply State.joinDie_kept
    | with_reducible apply State.clr32_kept
    | with_reducible apply State.sf32_kept
    | with_reducible apply State.complete_kept
    | with_reducible apply Kept.foldl
    | ((with_reducible apply Kept.ite) <;> intro _)
    | split
    | (unfold Kept; dsimp only; with_reducible apply Kept.fold))

theorem xingFault_kept {x0 s : State} (d : Nat) (k : Option Nat) (skew t time : Nat) (hk : Kept x0 s) : Kept x0 (xingFault d k skew t time s) := by
  unfold xingFault
  repeat' (first
    | with_reducible assumption
    | (refine id ?_; extract_lets +onlyGivenNames u1; first
        | ((refine (fun k1 : Kept x0 u1 => ?_) ?_) <;> [clear_value u1; subst u1])
        | clear_value u1)
    | with_reducible apply State.fabricFault_kept
    | with_reducible apply State.sf32_kept
    | with_reducible apply State.set32_kept
    | ((with_reducible apply Kept.ite) <;> intro _)
    | split)

theorem resetCmd_kept {x0 s : State} (d : Desc) (hk : Kept x0 s) : Kept x0 (resetCmd d s) := by
  unfold resetCmd
  repeat' (first
    | with_reducible assumption
    | intro _
    | ((fail_if_success have := @kf0); refine id ?_; extract_lets +onlyGivenNames u1; (refine (fun kf0 : ∀ a0, Kept x0 (u1 a0) => ?_) ?_) <;> [clear_value u1; subst u1])
    | (refine id ?_; extract_lets +onlyGivenNames u1; first
        | ((refine (fun k1 : Kept x0 u1 => ?_) ?_) <;> [clear_value u1; subst u1])
        | clear_value u1)
    | with_reducible apply kf0
    | with_reducible apply State.complete_kept
    | with_reducible apply State.setPart_kept
    | with_reducible apply Kept.foldl
    | ((with_reducible apply Kept.ite) <;> intro _)
    | (unfold Kept; dsimp only; with_reducible apply Kept.fold))

theorem fenceSlot_kept {x0 s : State} (d : Desc) (hk : Kept x0 s) : Kept x0 (fenceSlot d s) := by
  unfold fenceSlot
  repeat' (first
    | with_reducible assumption
    | (refine id ?_; extract_lets +onlyGivenNames u1; clear_value u1)
    | with_reducible apply State.complete_kept
    | with_reducible apply State.fenceCore_kept
    | ((with_reducible apply Kept.ite) <;> intro _)
    | split)

theorem dawnRetry_kept {x0 s : State} (d : Desc) (hk : Kept x0 s) : Kept x0 (dawnRetry d s) := by
  unfold dawnRetry
  repeat' (first
    | with_reducible assumption
    | (refine id ?_; extract_lets +onlyGivenNames u1; clear_value u1)
    | with_reducible apply State.complete_kept
    | with_reducible apply State.setDawnCount_kept
    | ((with_reducible apply Kept.ite) <;> intro _)
    | split
    | (unfold Kept; dsimp only; with_reducible apply Kept.fold))

theorem State.pendJob_kept {x0 s : State} (j : JobChange) (hk : Kept x0 s) : Kept x0 (State.pendJob s j) := by
  unfold State.pendJob
  repeat' (first
    | with_reducible assumption
    | with_reducible apply State.set32_kept
    | (unfold Kept; dsimp only; with_reducible apply Kept.fold))

theorem jobAbort_kept {x0 s : State} (d : Desc) (hk : Kept x0 s) : Kept x0 (jobAbort d s) := by
  unfold jobAbort
  repeat' (first
    | with_reducible assumption
    | (refine id ?_; extract_lets +onlyGivenNames u1; clear_value u1)
    | with_reducible apply State.complete_kept
    | with_reducible apply State.pendJob_kept
    | ((with_reducible apply Kept.ite) <;> intro _))

theorem jobResume_kept {x0 s : State} (d : Desc) (hk : Kept x0 s) : Kept x0 (jobResume d s) := by
  unfold jobResume
  repeat' (first
    | with_reducible assumption
    | (refine id ?_; extract_lets +onlyGivenNames u1; clear_value u1)
    | with_reducible apply State.complete_kept
    | with_reducible apply State.pendJob_kept
    | ((with_reducible apply Kept.ite) <;> intro _))

theorem State.applyJobs_kept {x0 s : State} (h : Nat) (hk : Kept x0 s) : Kept x0 (State.applyJobs s h) := by
  unfold State.applyJobs
  repeat' (first
    | with_reducible assumption
    | intro _
    | (refine id ?_; extract_lets +onlyGivenNames u1; first
        | ((refine (fun k1 : Kept x0 u1 => ?_) ?_) <;> [clear_value u1; subst u1])
        | clear_value u1)
    | with_reducible apply State.clr32_kept
    | with_reducible apply State.endPartTxns_kept
    | with_reducible apply State.sf32_kept
    | with_reducible apply State.complete_kept
    | with_reducible apply State.setPart_kept
    | with_reducible apply State.suspendStep_kept
    | with_reducible apply State.set32_kept
    | with_reducible apply Kept.foldl
    | ((with_reducible apply Kept.ite) <;> intro _)
    | (unfold Kept; dsimp only; with_reducible apply Kept.fold))

theorem fenceDrained_kept {x0 s : State} (n : Nat) (hk : Kept x0 s) : Kept x0 (fenceDrained n s) := by
  unfold fenceDrained
  repeat' (first
    | with_reducible assumption
    | (refine id ?_; extract_lets +onlyGivenNames u1; first
        | ((refine (fun k1 : Kept x0 u1 => ?_) ?_) <;> [clear_value u1; subst u1])
        | clear_value u1)
    | with_reducible apply State.setPart_kept
    | with_reducible apply State.postEvent_kept
    | with_reducible apply State.complete_kept
    | ((with_reducible apply Kept.ite) <;> intro _)
    | split)

theorem jobAbortTimeout_kept {x0 s : State} (n : Nat) (hk : Kept x0 s) : Kept x0 (jobAbortTimeout n s) := by
  unfold jobAbortTimeout
  repeat' (first
    | with_reducible assumption
    | (refine id ?_; extract_lets +onlyGivenNames u1; clear_value u1)
    | with_reducible apply State.recordStop_kept
    | ((with_reducible apply Kept.ite) <;> intro _))

theorem hangStop_kept {x0 s : State} (d t time : Nat) (hk : Kept x0 s) : Kept x0 (hangStop d t time s) := by
  unfold hangStop
  repeat' (first
    | with_reducible assumption
    | intro _
    | (refine id ?_; extract_lets +onlyGivenNames u1; first
        | ((refine (fun k1 : Kept x0 u1 => ?_) ?_) <;> [clear_value u1; subst u1])
        | clear_value u1)
    | with_reducible apply State.w64_kept
    | with_reducible apply State.postEvent_kept
    | with_reducible apply State.fabricFault_kept
    | with_reducible apply State.stopFault_kept
    | with_reducible apply State.setDie_kept
    | with_reducible apply Kept.foldl
    | ((with_reducible apply Kept.ite) <;> intro _)
    | split)

theorem watchdogExpiry_kept {x0 s : State} (which : Nat) (x : DawnIn) (time : Nat) (hk : Kept x0 s) : Kept x0 (watchdogExpiry which x time s) := by
  unfold watchdogExpiry
  repeat' (first
    | with_reducible assumption
    | (refine id ?_; extract_lets +onlyGivenNames u1; ((refine (fun k1 : Kept x0 u1 => ?_) ?_) <;> [clear_value u1; subst u1]))
    | with_reducible apply State.count64_kept
    | with_reducible apply State.journal_kept
    | with_reducible apply State.warmStart_kept
    | ((with_reducible apply Kept.ite) <;> intro _))

theorem vddAonRemoval_kept {x0 s : State} (hk : Kept x0 s) : Kept x0 (vddAonRemoval s) := by
  unfold vddAonRemoval
  repeat' (first
    | with_reducible assumption
    | (refine id ?_; extract_lets +onlyGivenNames u1; ((refine (fun k1 : Kept x0 u1 => ?_) ?_) <;> [clear_value u1; subst u1]))
    | with_reducible apply State.emit_kept
    | ((with_reducible apply Kept.ite) <;> intro _)
    | (unfold Kept; dsimp only; with_reducible refine Kept.sub ?_ ?_ ?_ ?_ ?_ ?_ ?_ ?_ ?_)
    | exact List.nil_sublist _
    | exact List.filter_sublist)

theorem execResetDomain_kept {x0 s t0 : State} (d : Desc) (hk : Kept x0 s) (ek : execResetDomain d s = .next t0) : Kept x0 t0 := by
  unfold execResetDomain at ek
  rw [Host.Outcome.next.injEq] at ek; subst ek
  all_goals
    repeat' (first
      | with_reducible assumption
      | with_reducible apply resetCmd_kept)

theorem execDomainResetComplete_kept {x0 s t0 : State} (dom : Fin 4) (d : Fin 8) (k : Fin 4) (slot : Fin 5) (pass : Bool) (hk : Kept x0 s) (ek : execDomainResetComplete dom d k slot pass s = .next t0) : Kept x0 t0 := by
  unfold execDomainResetComplete at ek
  rw [Host.Outcome.next.injEq] at ek; subst ek
  all_goals
    repeat' (first
      | with_reducible assumption
      | with_reducible apply domainResetComplete_kept)

theorem execXingFault_kept {x0 s t0 : State} (d : Fin 8) (k : Option (Fin 4)) (skew t time : Nat) (hk : Kept x0 s) (ek : execXingFault d k skew t time s = .next t0) : Kept x0 t0 := by
  unfold execXingFault at ek
  rw [Host.Outcome.next.injEq] at ek; subst ek
  all_goals
    repeat' (first
      | with_reducible assumption
      | with_reducible apply xingFault_kept)

theorem execFenceSlot_kept {x0 s t0 : State} (d : Desc) (hk : Kept x0 s) (ek : execFenceSlot d s = .next t0) : Kept x0 t0 := by
  unfold execFenceSlot at ek
  rw [Host.Outcome.next.injEq] at ek; subst ek
  all_goals
    repeat' (first
      | with_reducible assumption
      | with_reducible apply fenceSlot_kept)

theorem execDawnRetry_kept {x0 s t0 : State} (d : Desc) (hk : Kept x0 s) (ek : execDawnRetry d s = .next t0) : Kept x0 t0 := by
  unfold execDawnRetry at ek
  rw [Host.Outcome.next.injEq] at ek; subst ek
  all_goals
    repeat' (first
      | with_reducible assumption
      | with_reducible apply dawnRetry_kept)

theorem execJobAbort_kept {x0 s t0 : State} (d : Desc) (hk : Kept x0 s) (ek : execJobAbort d s = .next t0) : Kept x0 t0 := by
  unfold execJobAbort at ek
  rw [Host.Outcome.next.injEq] at ek; subst ek
  all_goals
    repeat' (first
      | with_reducible assumption
      | with_reducible apply jobAbort_kept)

theorem execJobResume_kept {x0 s t0 : State} (d : Desc) (hk : Kept x0 s) (ek : execJobResume d s = .next t0) : Kept x0 t0 := by
  unfold execJobResume at ek
  rw [Host.Outcome.next.injEq] at ek; subst ek
  all_goals
    repeat' (first
      | with_reducible assumption
      | with_reducible apply jobResume_kept)

theorem execFenceDrained_kept {x0 s t0 : State} (n : Fin 64) (hk : Kept x0 s) (ek : execFenceDrained n s = .next t0) : Kept x0 t0 := by
  unfold execFenceDrained at ek
  rw [Host.Outcome.next.injEq] at ek; subst ek
  all_goals
    repeat' (first
      | with_reducible assumption
      | with_reducible apply fenceDrained_kept)

theorem execJobAbortTimeout_kept {x0 s t0 : State} (n : Fin 64) (hk : Kept x0 s) (ek : execJobAbortTimeout n s = .next t0) : Kept x0 t0 := by
  unfold execJobAbortTimeout at ek
  rw [Host.Outcome.next.injEq] at ek; subst ek
  all_goals
    repeat' (first
      | with_reducible assumption
      | with_reducible apply jobAbortTimeout_kept)

theorem execHangStop_kept {x0 s t0 : State} (d : Fin 8) (t time : Nat) (hk : Kept x0 s) (ek : execHangStop d t time s = .next t0) : Kept x0 t0 := by
  unfold execHangStop at ek
  rw [Host.Outcome.next.injEq] at ek; subst ek
  all_goals
    repeat' (first
      | with_reducible assumption
      | with_reducible apply hangStop_kept)

theorem execWatchdogExpiry_kept {x0 s t0 : State} (which : Fin 2) (x : DawnIn) (time : Nat) (hk : Kept x0 s) (ek : execWatchdogExpiry which x time s = .next t0) : Kept x0 t0 := by
  unfold execWatchdogExpiry at ek
  rw [Host.Outcome.next.injEq] at ek; subst ek
  all_goals
    repeat' (first
      | with_reducible assumption
      | with_reducible apply watchdogExpiry_kept)

theorem execVddAonRemoval_kept {x0 s t0 : State} (hk : Kept x0 s) (ek : execVddAonRemoval s = .next t0) : Kept x0 t0 := by
  unfold execVddAonRemoval at ek
  rw [Host.Outcome.next.injEq] at ek; subst ek
  all_goals
    repeat' (first
      | with_reducible assumption
      | with_reducible apply vddAonRemoval_kept)

end Sys2Proof.Machine
end

