-- ==== Sys2Proof/Laws/KeepPower.lean ====
section
/-!
SUPPORT. What the operations of Machine/Power.lean keep (Laws/Keep.lean).
-/

namespace Sys2Proof.Machine

theorem State.writeEvents_kept {x0 s : State} (hk : Kept x0 s) : Kept x0 (State.writeEvents s) := by
  unfold State.writeEvents
  repeat' (first
    | with_reducible assumption
    | intro _
    | with_reducible apply eventWrite_kept
    | with_reducible apply Kept.foldl)

theorem State.stopDies_kept {x0 s : State} (t : Nat) (hk : Kept x0 s) : Kept x0 (State.stopDies s t) := by
  unfold State.stopDies
  repeat' (first
    | with_reducible assumption
    | intro _
    | (refine id ?_; extract_lets +onlyGivenNames u1; first
        | ((refine (fun k1 : Kept x0 u1 => ?_) ?_) <;> [clear_value u1; subst u1])
        | clear_value u1)
    | with_reducible apply State.recordHold_kept
    | with_reducible apply State.setDie_kept
    | with_reducible apply Kept.foldl
    | ((with_reducible apply Kept.ite) <;> intro _))

theorem State.leaveCoupled_kept {x0 s : State} (hk : Kept x0 s) : Kept x0 (State.leaveCoupled s) := by
  unfold State.leaveCoupled
  repeat' (first
    | with_reducible assumption
    | (unfold Kept; dsimp only; with_reducible apply Kept.fold))

theorem State.slip_kept {x0 s : State} (hk : Kept x0 s) : Kept x0 (State.slip s) := by
  unfold State.slip
  repeat' (first
    | with_reducible assumption
    | (refine id ?_; extract_lets +onlyGivenNames u1; ((refine (fun k1 : Kept x0 u1 => ?_) ?_) <;> [clear_value u1; subst u1]))
    | with_reducible apply State.set32_kept
    | with_reducible apply State.leaveCoupled_kept
    | with_reducible apply State.postEvent_kept)

theorem State.enterMidnight_kept {x0 s : State} (hk : Kept x0 s) : Kept x0 (State.enterMidnight s) := by
  unfold State.enterMidnight
  repeat' (first
    | with_reducible assumption
    | (refine id ?_; extract_lets +onlyGivenNames u1; first
        | ((refine (fun k1 : Kept x0 u1 => ?_) ?_) <;> [clear_value u1; subst u1])
        | clear_value u1)
    | with_reducible apply State.resetAll_kept
    | with_reducible apply State.sf32_kept
    | with_reducible apply State.emit_kept
    | with_reducible apply State.postEvent_kept
    | with_reducible apply State.audit_kept
    | (unfold Kept; dsimp only; with_reducible apply Kept.fold))

theorem sleepCmd_kept {x0 s : State} (target : DuskFor) (d : Desc) (hk : Kept x0 s) : Kept x0 (sleepCmd target d s) := by
  unfold sleepCmd
  repeat' (first
    | with_reducible assumption
    | (refine id ?_; extract_lets +onlyGivenNames u1; clear_value u1)
    | with_reducible apply State.complete_kept
    | with_reducible apply State.set32_kept
    | ((with_reducible apply Kept.ite) <;> intro _)
    | (unfold Kept; dsimp only; with_reducible apply Kept.fold))

theorem State.keepWake_kept {x0 s : State} (src : Nat) (hk : Kept x0 s) : Kept x0 (State.keepWake s src) := by
  unfold State.keepWake
  repeat' (first
    | with_reducible assumption
    | ((with_reducible apply Kept.ite) <;> intro _)
    | (unfold Kept; dsimp only; with_reducible apply Kept.fold))

theorem State.wakeBy_kept {x0 s : State} (src : Nat) (x : DawnIn) (hk : Kept x0 s) : Kept x0 (State.wakeBy s src x) := by
  unfold State.wakeBy
  repeat' (first
    | with_reducible assumption
    | with_reducible apply State.startDawn_kept
    | (refine id ?_; extract_lets +onlyGivenNames u1; first
        | ((refine (fun k1 : Kept x0 u1 => ?_) ?_) <;> [clear_value u1; subst u1])
        | clear_value u1)
    | with_reducible apply State.keepWake_kept
    | with_reducible apply State.set32_kept
    | with_reducible apply State.runDawn_kept
    | with_reducible apply State.raiseMain_kept
    | ((with_reducible apply Kept.ite) <;> intro _)
    | (unfold Kept; dsimp only; with_reducible apply Kept.fold))

theorem State.nextWake_kept {x0 s : State} (x : DawnIn) (hk : Kept x0 s) : Kept x0 (State.nextWake s x) := by
  unfold State.nextWake
  repeat' (first
    | with_reducible assumption
    | with_reducible apply State.wakeBy_kept
    | split)

theorem wakeCmd_kept {x0 s : State} (d : Desc) (x : DawnIn) (hk : Kept x0 s) : Kept x0 (wakeCmd d x s) := by
  unfold wakeCmd
  repeat' (first
    | with_reducible assumption
    | (refine id ?_; extract_lets +onlyGivenNames u1; clear_value u1)
    | with_reducible apply State.complete_kept
    | with_reducible apply State.wakeBy_kept
    | ((with_reducible apply Kept.ite) <;> intro _)
    | (unfold Kept; dsimp only; with_reducible apply Kept.fold))

theorem wakeN_kept {x0 s : State} (x : DawnIn) (hk : Kept x0 s) : Kept x0 (wakeN x s) := by
  unfold wakeN
  repeat' (first
    | with_reducible assumption
    | with_reducible apply State.wakeBy_kept
    | ((with_reducible apply Kept.ite) <;> intro _))

theorem wakeTimerExpiry_kept {x0 s : State} (x : DawnIn) (hk : Kept x0 s) : Kept x0 (wakeTimerExpiry x s) := by
  unfold wakeTimerExpiry
  repeat' (first
    | with_reducible assumption
    | with_reducible apply State.wakeBy_kept
    | ((with_reducible apply Kept.ite) <;> intro _))

theorem wakeReferenceTimeout_kept {x0 s : State} (hk : Kept x0 s) : Kept x0 (wakeReferenceTimeout s) := by
  unfold wakeReferenceTimeout
  repeat' (first
    | with_reducible assumption
    | with_reducible apply State.complete_kept
    | ((with_reducible apply Kept.ite) <;> intro _)
    | split
    | (unfold Kept; dsimp only; with_reducible apply Kept.fold))

theorem twilightWakeComplete_kept {x0 s : State} (bad : List Nat) (tick : Nat) (hk : Kept x0 s) : Kept x0 (twilightWakeComplete bad tick s) := by
  unfold twilightWakeComplete
  repeat' (first
    | with_reducible assumption
    | intro _
    | (refine id ?_; extract_lets +onlyGivenNames u1; first
        | ((refine (fun k1 : Kept x0 u1 => ?_) ?_) <;> [clear_value u1; subst u1])
        | clear_value u1)
    | with_reducible apply State.sf32_kept
    | with_reducible apply State.avsSteps_kept
    | with_reducible apply State.postEvent_kept
    | with_reducible apply State.joinDie_kept
    | with_reducible apply State.audit_kept
    | with_reducible apply State.closeInterval_kept
    | with_reducible apply State.complete_kept
    | with_reducible apply Kept.foldl
    | ((with_reducible apply Kept.ite) <;> intro _)
    | split
    | (unfold Kept; dsimp only; with_reducible apply Kept.fold))

theorem State.duskRecord_kept {x0 s : State} (whole : Bool) (dom time tick : Nat) (vfuse : FuseSupply)
    (hk : Kept x0 s) : Kept x0 (State.duskRecord s whole dom time tick vfuse) := by
  unfold State.duskRecord
  repeat' (first
    | with_reducible assumption
    | (refine id ?_; extract_lets +onlyGivenNames u1; ((refine (fun k1 : Kept x0 u1 => ?_) ?_) <;> [clear_value u1; subst u1]))
    | with_reducible apply State.burnMarks_kept
    | with_reducible apply State.journal_kept
    | with_reducible apply State.closeInterval_kept
    | ((with_reducible apply Kept.ite) <;> intro _))

theorem duskDrainEnd_kept {x0 s : State} (t tick time : Nat) (vfuse : FuseSupply) (bad : Bool) (x : DawnIn)
    (hk : Kept x0 s) : Kept x0 (duskDrainEnd t tick time vfuse bad x s) := by
  unfold duskDrainEnd
  repeat' (first
    | with_reducible assumption
    | (refine id ?_; extract_lets +onlyGivenNames u1; first
        | ((refine (fun k1 : Kept x0 u1 => ?_) ?_) <;> [clear_value u1; subst u1])
        | clear_value u1)
    | with_reducible apply State.tenantEnd_kept
    | with_reducible apply State.writeEvents_kept
    | with_reducible apply State.duskRecord_kept
    | with_reducible apply State.resetDomain_kept
    | with_reducible apply State.complete_kept
    | with_reducible apply State.resetPackage_kept
    | with_reducible apply State.runDawn_kept
    | with_reducible apply State.stopDies_kept
    | ((with_reducible apply Kept.ite) <;> intro _)
    | split
    | (unfold Kept; dsimp only; with_reducible apply Kept.fold))

theorem powerStateEntered_kept {x0 s : State} (x : DawnIn) (hk : Kept x0 s) : Kept x0 (powerStateEntered x s) := by
  unfold powerStateEntered
  repeat' (first
    | with_reducible assumption
    | intro _
    | (refine id ?_; extract_lets +onlyGivenNames u1; first
        | ((refine (fun k1 : Kept x0 u1 => ?_) ?_) <;> [clear_value u1; subst u1])
        | clear_value u1)
    | with_reducible apply State.avsSteps_kept
    | with_reducible apply State.postEvent_kept
    | with_reducible apply State.audit_kept
    | with_reducible apply State.sf32_kept
    | with_reducible apply State.leaveCoupled_kept
    | with_reducible apply State.nextWake_kept
    | with_reducible apply State.complete_kept
    | with_reducible apply State.enterMidnight_kept
    | with_reducible apply Kept.foldl
    | ((with_reducible apply Kept.ite) <;> intro _)
    | split
    | (unfold Kept; dsimp only; with_reducible apply Kept.fold))

theorem referenceLost_kept {x0 s : State} (hk : Kept x0 s) : Kept x0 (referenceLost s) := by
  unfold referenceLost
  repeat' (first
    | with_reducible assumption
    | intro _
    | (refine id ?_; extract_lets +onlyGivenNames u1; first
        | ((refine (fun k1 : Kept x0 u1 => ?_) ?_) <;> [clear_value u1; subst u1])
        | clear_value u1)
    | with_reducible apply State.set32_kept
    | with_reducible apply State.clr32_kept
    | with_reducible apply State.portGone_kept
    | with_reducible apply State.postEvent_kept
    | with_reducible apply State.slip_kept
    | with_reducible apply Kept.foldl
    | ((with_reducible apply Kept.ite) <;> intro _))

theorem referenceRestored_kept {x0 s : State} (x : DawnIn) (hk : Kept x0 s) : Kept x0 (referenceRestored x s) := by
  unfold referenceRestored
  repeat' (first
    | with_reducible assumption
    | (refine id ?_; extract_lets +onlyGivenNames u1; first
        | ((refine (fun k1 : Kept x0 u1 => ?_) ?_) <;> [clear_value u1; subst u1])
        | clear_value u1)
    | with_reducible apply State.set32_kept
    | with_reducible apply State.clr32_kept
    | with_reducible apply State.nextWake_kept
    | with_reducible apply State.postEvent_kept
    | ((with_reducible apply Kept.ite) <;> intro _))

theorem powerGoodRise_kept {x0 s : State} (x : DawnIn) (hk : Kept x0 s) : Kept x0 (powerGoodRise x s) := by
  unfold powerGoodRise
  repeat' (first
    | with_reducible assumption
    | with_reducible apply State.resumeDawn_kept
    | ((with_reducible apply Kept.ite) <;> intro _)
    | (unfold Kept; dsimp only; with_reducible apply Kept.fold))

theorem droopTrip_kept {x0 s : State} (d t : Nat) (hk : Kept x0 s) : Kept x0 (droopTrip d t s) := by
  unfold droopTrip
  repeat' (first
    | with_reducible assumption
    | (refine id ?_; extract_lets +onlyGivenNames u1; first
        | ((refine (fun k1 : Kept x0 u1 => ?_) ?_) <;> [clear_value u1; subst u1])
        | clear_value u1)
    | with_reducible apply State.count64_kept
    | (unfold Kept; dsimp only; with_reducible apply Kept.fold))

theorem droopRelease_kept {x0 s : State} (d t : Nat) (hk : Kept x0 s) : Kept x0 (droopRelease d t s) := by
  unfold droopRelease
  repeat' (first
    | with_reducible assumption
    | (refine id ?_; extract_lets +onlyGivenNames u1; first
        | ((refine (fun k1 : Kept x0 u1 => ?_) ?_) <;> [clear_value u1; subst u1])
        | clear_value u1)
    | with_reducible apply State.count64_kept
    | ((with_reducible apply Kept.ite) <;> intro _)
    | split
    | (unfold Kept; dsimp only; with_reducible apply Kept.fold))

theorem guardTrip_kept {x0 s : State} (fast slow : Nat) (hk : Kept x0 s) : Kept x0 (guardTrip fast slow s) := by
  unfold guardTrip
  repeat' (first
    | with_reducible assumption
    | (refine id ?_; extract_lets +onlyGivenNames u1; first
        | ((refine (fun k1 : Kept x0 u1 => ?_) ?_) <;> [clear_value u1; subst u1])
        | clear_value u1)
    | with_reducible apply State.sf64_kept
    | with_reducible apply State.count64_kept
    | with_reducible apply State.set32_kept
    | ((with_reducible apply Kept.ite) <;> intro _)
    | (unfold Kept; dsimp only; with_reducible apply Kept.fold))

theorem execTwilight_kept {x0 s t0 : State} (d : Desc) (hk : Kept x0 s) (ek : execTwilight d s = .next t0) : Kept x0 t0 := by
  unfold execTwilight at ek
  rw [Host.Outcome.next.injEq] at ek; subst ek
  all_goals
    repeat' (first
      | with_reducible assumption
      | with_reducible apply sleepCmd_kept)

theorem execMidnight_kept {x0 s t0 : State} (d : Desc) (hk : Kept x0 s) (ek : execMidnight d s = .next t0) : Kept x0 t0 := by
  unfold execMidnight at ek
  rw [Host.Outcome.next.injEq] at ek; subst ek
  all_goals
    repeat' (first
      | with_reducible assumption
      | with_reducible apply sleepCmd_kept)

theorem execWakeCmd_kept {x0 s t0 : State} (d : Desc) (x : DawnIn) (hk : Kept x0 s) (ek : execWakeCmd d x s = .next t0) : Kept x0 t0 := by
  unfold execWakeCmd at ek
  rw [Host.Outcome.next.injEq] at ek; subst ek
  all_goals
    repeat' (first
      | with_reducible assumption
      | with_reducible apply wakeCmd_kept)

theorem execWakeN_kept {x0 s t0 : State} (x : DawnIn) (hk : Kept x0 s) (ek : execWakeN x s = .next t0) : Kept x0 t0 := by
  unfold execWakeN at ek
  rw [Host.Outcome.next.injEq] at ek; subst ek
  all_goals
    repeat' (first
      | with_reducible assumption
      | with_reducible apply wakeN_kept)

theorem execWakeTimerExpiry_kept {x0 s t0 : State} (x : DawnIn) (hk : Kept x0 s) (ek : execWakeTimerExpiry x s = .next t0) : Kept x0 t0 := by
  unfold execWakeTimerExpiry at ek
  rw [Host.Outcome.next.injEq] at ek; subst ek
  all_goals
    repeat' (first
      | with_reducible assumption
      | with_reducible apply wakeTimerExpiry_kept)

theorem execWakeReferenceTimeout_kept {x0 s t0 : State} (hk : Kept x0 s) (ek : execWakeReferenceTimeout s = .next t0) : Kept x0 t0 := by
  unfold execWakeReferenceTimeout at ek
  rw [Host.Outcome.next.injEq] at ek; subst ek
  all_goals
    repeat' (first
      | with_reducible assumption
      | with_reducible apply wakeReferenceTimeout_kept)

theorem execTwilightWakeComplete_kept {x0 s t0 : State} (bad : List (Fin 8)) (tick : Nat) (hk : Kept x0 s) (ek : execTwilightWakeComplete bad tick s = .next t0) : Kept x0 t0 := by
  unfold execTwilightWakeComplete at ek
  rw [Host.Outcome.next.injEq] at ek; subst ek
  all_goals
    repeat' (first
      | with_reducible assumption
      | with_reducible apply twilightWakeComplete_kept)

theorem execDuskDrainEnd_kept {x0 s t0 : State} (t tick time : Nat) (vfuse : FuseSupply) (bad : Bool) (x : DawnIn) (hk : Kept x0 s) (ek : execDuskDrainEnd t tick time vfuse bad x s = .next t0) : Kept x0 t0 := by
  unfold execDuskDrainEnd at ek
  rw [Host.Outcome.next.injEq] at ek; subst ek
  all_goals
    repeat' (first
      | with_reducible assumption
      | with_reducible apply duskDrainEnd_kept)

theorem execPowerStateEntered_kept {x0 s t0 : State} (x : DawnIn) (hk : Kept x0 s) (ek : execPowerStateEntered x s = .next t0) : Kept x0 t0 := by
  unfold execPowerStateEntered at ek
  rw [Host.Outcome.next.injEq] at ek; subst ek
  all_goals
    repeat' (first
      | with_reducible assumption
      | with_reducible apply powerStateEntered_kept)

theorem execReferenceLost_kept {x0 s t0 : State} (hk : Kept x0 s) (ek : execReferenceLost s = .next t0) : Kept x0 t0 := by
  unfold execReferenceLost at ek
  rw [Host.Outcome.next.injEq] at ek; subst ek
  all_goals
    repeat' (first
      | with_reducible assumption
      | with_reducible apply referenceLost_kept)

theorem execReferenceRestored_kept {x0 s t0 : State} (x : DawnIn) (hk : Kept x0 s) (ek : execReferenceRestored x s = .next t0) : Kept x0 t0 := by
  unfold execReferenceRestored at ek
  rw [Host.Outcome.next.injEq] at ek; subst ek
  all_goals
    repeat' (first
      | with_reducible assumption
      | with_reducible apply referenceRestored_kept)

theorem execPowerGoodRise_kept {x0 s t0 : State} (x : DawnIn) (hk : Kept x0 s) (ek : execPowerGoodRise x s = .next t0) : Kept x0 t0 := by
  unfold execPowerGoodRise at ek
  rw [Host.Outcome.next.injEq] at ek; subst ek
  all_goals
    repeat' (first
      | with_reducible assumption
      | with_reducible apply powerGoodRise_kept)

theorem execDroopTrip_kept {x0 s t0 : State} (d : Fin 8) (t : Nat) (hk : Kept x0 s) (ek : execDroopTrip d t s = .next t0) : Kept x0 t0 := by
  unfold execDroopTrip at ek
  rw [Host.Outcome.next.injEq] at ek; subst ek
  all_goals
    repeat' (first
      | with_reducible assumption
      | with_reducible apply droopTrip_kept)

theorem execDroopRelease_kept {x0 s t0 : State} (d : Fin 8) (t : Nat) (hk : Kept x0 s) (ek : execDroopRelease d t s = .next t0) : Kept x0 t0 := by
  unfold execDroopRelease at ek
  rw [Host.Outcome.next.injEq] at ek; subst ek
  all_goals
    repeat' (first
      | with_reducible assumption
      | with_reducible apply droopRelease_kept)

theorem execGuardTrip_kept {x0 s t0 : State} (fast slow : Nat) (hk : Kept x0 s) (ek : execGuardTrip fast slow s = .next t0) : Kept x0 t0 := by
  unfold execGuardTrip at ek
  rw [Host.Outcome.next.injEq] at ek; subst ek
  all_goals
    repeat' (first
      | with_reducible assumption
      | with_reducible apply guardTrip_kept)

end Sys2Proof.Machine
end

