-- ==== Sys2Proof/Laws/KeepAlarms.lean ====
section
/-!
SUPPORT. What the operations of Machine/Alarms.lean keep (Laws/Keep.lean).
-/

namespace Sys2Proof.Machine

theorem State.logTrips_kept {x0 s : State} (x : AlarmIn) (policy state : Nat) (hk : Kept x0 s) : Kept x0 (State.logTrips s x policy state).2 := by
  unfold State.logTrips
  repeat' (first
    | with_reducible assumption
    | intro _
    | (refine id ?_; extract_lets +onlyGivenNames u1; clear_value u1)
    | with_reducible apply State.logAlarm_kept
    | with_reducible apply Kept.foldl_snd
    | split)

theorem State.killUds_kept {x0 s : State} (vfuse : Bool) (hk : Kept x0 s) : Kept x0 (State.killUds s vfuse) := by
  unfold State.killUds
  repeat' (first
    | with_reducible assumption
    | with_reducible apply State.set32_kept
    | with_reducible apply State.blow_kept
    | ((with_reducible apply Kept.ite) <;> intro _))

theorem State.stopForAlarm_kept {x0 s : State} (hk : Kept x0 s) : Kept x0 (State.stopForAlarm s) := by
  unfold State.stopForAlarm
  repeat' (first
    | with_reducible assumption
    | intro _
    | (refine id ?_; extract_lets +onlyGivenNames u1; first
        | ((refine (fun k1 : Kept x0 u1 => ?_) ?_) <;> [clear_value u1; subst u1])
        | clear_value u1)
    | with_reducible apply State.setDie_kept
    | with_reducible apply State.stopFault_kept
    | with_reducible apply State.endRequest_kept
    | with_reducible apply Kept.foldl
    | ((with_reducible apply Kept.ite) <;> intro _))

theorem State.completeOwed_kept {x0 s : State} (hk : Kept x0 s) : Kept x0 (State.completeOwed s) := by
  unfold State.completeOwed
  repeat' (first
    | with_reducible assumption
    | intro _
    | (refine id ?_; extract_lets +onlyGivenNames u1; ((refine (fun k1 : Kept x0 u1 => ?_) ?_) <;> [clear_value u1; subst u1]))
    | with_reducible apply State.complete_kept
    | with_reducible apply State.completeRing_kept
    | with_reducible apply Kept.foldl)

theorem State.alarmNoon_kept {x0 s : State} (x : AlarmIn) (policy : Nat) (entries : List Nat)
    (hk : Kept x0 s) : Kept x0 (State.alarmNoon s x policy entries) := by
  unfold State.alarmNoon
  repeat' (first
    | with_reducible assumption
    | intro _
    | (refine id ?_; extract_lets +onlyGivenNames u1; first
        | ((refine (fun k1 : Kept x0 u1 => ?_) ?_) <;> [clear_value u1; subst u1])
        | clear_value u1)
    | with_reducible apply State.stopForAlarm_kept
    | with_reducible apply State.eraseKeys_kept
    | with_reducible apply State.journal_kept
    | with_reducible apply State.completeOwed_kept
    | with_reducible apply State.postEvent_kept
    | with_reducible apply State.writeEvents_kept
    | with_reducible apply State.scrubEpoch_kept
    | with_reducible apply State.audit_kept
    | with_reducible apply State.enterMidnight_kept
    | with_reducible apply State.warmStart_kept
    | with_reducible apply Kept.foldl
    | ((with_reducible apply Kept.ite) <;> intro _)
    | (unfold Kept; dsimp only; with_reducible apply Kept.fold))

theorem State.alarm_kept {x0 s : State} (x : AlarmIn) (hk : Kept x0 s) : Kept x0 (State.alarm s x) := by
  unfold State.alarm
  repeat' (first
    | with_reducible assumption
    | intro _
    | ((fail_if_success have := @kf0); refine id ?_; extract_lets +onlyGivenNames u1; (refine (fun kf0 : ∀ u, Kept x0 u → Kept x0 (u1 u) => ?_) ?_) <;> [clear_value u1; subst u1])
    | (refine id ?_; extract_lets +onlyGivenNames u1; first
        | ((refine (fun k1 : Kept x0 u1 => ?_) ?_) <;> [clear_value u1; subst u1])
        | clear_value u1)
    | with_reducible apply kf0
    | with_reducible apply State.logTrips_kept
    | with_reducible apply State.killUds_kept
    | with_reducible apply State.audit_kept
    | with_reducible apply State.alarmNoon_kept
    | with_reducible apply State.eraseKeys_kept
    | with_reducible apply State.complete_kept
    | with_reducible apply State.enterMidnight_kept
    | with_reducible apply State.dawnFailed_kept
    | with_reducible apply Kept.foldl
    | ((with_reducible apply Kept.ite) <;> intro _)
    | with_reducible refine Kept.snd_eq (by with_reducible assumption) ?_
    | split
    | (unfold Kept; dsimp only; with_reducible apply Kept.fold)
    | (unfold Kept; dsimp only; with_reducible refine Kept.sub ?_ ?_ ?_ ?_ ?_ ?_ ?_ ?_ ?_)
    | exact List.Sublist.refl _
    | exact List.nil_sublist _)

theorem fuseShadowCheck_kept {x0 s : State} (finding : Option AlarmIn) (hk : Kept x0 s) : Kept x0 (fuseShadowCheck finding s) := by
  unfold fuseShadowCheck
  repeat' (first
    | with_reducible assumption
    | with_reducible apply State.alarm_kept
    | ((with_reducible apply Kept.ite) <;> intro _)
    | split)

theorem powerGoodFall_kept {x0 s : State} (rail mv : Nat) (x : AlarmIn) (hk : Kept x0 s) : Kept x0 (powerGoodFall rail mv x s) := by
  unfold powerGoodFall
  repeat' (first
    | with_reducible assumption
    | (refine id ?_; extract_lets +onlyGivenNames u1; first
        | ((refine (fun k1 : Kept x0 u1 => ?_) ?_) <;> [clear_value u1; subst u1])
        | clear_value u1)
    | with_reducible apply State.alarm_kept
    | ((with_reducible apply Kept.ite) <;> intro _)
    | (unfold Kept; dsimp only; with_reducible apply Kept.fold))

theorem State.thermTrip_kept {x0 s : State} (time : Nat) (x : DawnIn) (hk : Kept x0 s) : Kept x0 (State.thermTrip s time x) := by
  unfold State.thermTrip
  repeat' (first
    | with_reducible assumption
    | (refine id ?_; extract_lets +onlyGivenNames u1; first
        | ((refine (fun k1 : Kept x0 u1 => ?_) ?_) <;> [clear_value u1; subst u1])
        | clear_value u1)
    | with_reducible apply State.dawnFailed_kept
    | with_reducible apply State.emit_kept
    | with_reducible apply State.enterMidnight_kept
    | ((with_reducible apply Kept.ite) <;> intro _)
    | (unfold Kept; dsimp only; with_reducible apply Kept.fold))

theorem State.thermalEvent_kept {x0 s : State} (kind d sensor reading : Nat)
    (hk : Kept x0 s) : Kept x0 (State.thermalEvent s kind d sensor reading) := by
  unfold State.thermalEvent
  repeat' (first
    | with_reducible assumption
    | with_reducible apply State.postEvent_kept)

theorem State.storeTemps_kept {x0 s : State} (d : Nat) (readings averages ages : List Nat)
    (hk : Kept x0 s) : Kept x0 (State.storeTemps s d readings averages ages) := by
  unfold State.storeTemps
  repeat' (first
    | with_reducible assumption
    | intro _
    | (refine id ?_; extract_lets +onlyGivenNames u1; first
        | ((refine (fun k1 : Kept x0 u1 => ?_) ?_) <;> [clear_value u1; subst u1])
        | clear_value u1)
    | with_reducible apply State.sf64_kept
    | with_reducible apply Kept.foldl
    | ((with_reducible apply Kept.ite) <;> intro _)
    | (unfold Kept; dsimp only; with_reducible apply Kept.fold))

theorem State.hotSensors_kept {x0 s : State} (d time : Nat) (readings : List Nat)
    (hk : Kept x0 s) : Kept x0 (State.hotSensors s d time readings).2 := by
  unfold State.hotSensors
  repeat' (first
    | with_reducible assumption
    | intro _
    | ((fail_if_success have := @kf0); refine id ?_; extract_lets +onlyGivenNames u1; (refine (fun kf0 : ∀ a0, Kept x0 (u1 a0) => ?_) ?_) <;> [clear_value u1; subst u1])
    | (refine id ?_; extract_lets +onlyGivenNames u1; clear_value u1)
    | with_reducible apply kf0
    | with_reducible apply Kept.foldl_snd
    | split
    | (unfold Kept; dsimp only; with_reducible apply Kept.fold))

theorem temperatureSample_kept {x0 s : State} (d : Nat) (readings averages ages : List Nat) (time : Nat) (x : AlarmIn)
    (hk : Kept x0 s) : Kept x0 (temperatureSample d readings averages ages time x s) := by
  unfold temperatureSample
  repeat' (first
    | with_reducible assumption
    | (refine id ?_; extract_lets +onlyGivenNames u1; first
        | ((refine (fun k1 : Kept x0 u1 => ?_) ?_) <;> [clear_value u1; subst u1])
        | clear_value u1)
    | with_reducible apply State.storeTemps_kept
    | with_reducible apply State.set32_kept
    | with_reducible apply State.thermalEvent_kept
    | with_reducible apply State.hotSensors_kept
    | with_reducible apply State.alarm_kept
    | with_reducible apply State.thermTrip_kept
    | ((with_reducible apply Kept.ite) <;> intro _)
    | split
    | (unfold Kept; dsimp only; with_reducible apply Kept.fold))

theorem debugGrant_kept {x0 s : State} (tick : Nat) (hk : Kept x0 s) : Kept x0 (debugGrant tick s) := by
  unfold debugGrant
  repeat' (first
    | with_reducible assumption
    | (refine id ?_; extract_lets +onlyGivenNames u1; first
        | ((refine (fun k1 : Kept x0 u1 => ?_) ?_) <;> [clear_value u1; subst u1])
        | clear_value u1)
    | with_reducible apply State.completeOwed_kept
    | with_reducible apply State.scrubEpoch_kept
    | with_reducible apply State.postEvent_kept
    | with_reducible apply State.set32_kept
    | ((with_reducible apply Kept.ite) <;> intro _)
    | (unfold Kept; dsimp only; with_reducible apply Kept.fold))

theorem challengeExpiry_kept {x0 s : State} (hk : Kept x0 s) : Kept x0 (challengeExpiry s) := by
  unfold challengeExpiry
  repeat' (first
    | with_reducible assumption
    | (unfold Kept; dsimp only; with_reducible apply Kept.fold))

theorem execAlarmTrip_kept {x0 s t0 : State} (x : AlarmIn) (hk : Kept x0 s) (ek : execAlarmTrip x s = .next t0) : Kept x0 t0 := by
  unfold execAlarmTrip at ek
  rw [Host.Outcome.next.injEq] at ek; subst ek
  all_goals
    repeat' (first
      | with_reducible assumption
      | with_reducible apply State.alarm_kept)

theorem execFuseShadowCheck_kept {x0 s t0 : State} (finding : Option AlarmIn) (hk : Kept x0 s) (ek : execFuseShadowCheck finding s = .next t0) : Kept x0 t0 := by
  unfold execFuseShadowCheck at ek
  rw [Host.Outcome.next.injEq] at ek; subst ek
  all_goals
    repeat' (first
      | with_reducible assumption
      | with_reducible apply fuseShadowCheck_kept)

theorem execPowerGoodFall_kept {x0 s t0 : State} (rail : Fin 18) (mv : Nat) (x : AlarmIn) (hk : Kept x0 s) (ek : execPowerGoodFall rail mv x s = .next t0) : Kept x0 t0 := by
  unfold execPowerGoodFall at ek
  rw [Host.Outcome.next.injEq] at ek; subst ek
  all_goals
    repeat' (first
      | with_reducible assumption
      | with_reducible apply powerGoodFall_kept)

theorem execTemperatureSample_kept {x0 s t0 : State} (d : Fin 9) (readings averages ages : List Nat) (time : Nat) (x : AlarmIn) (hk : Kept x0 s) (ek : execTemperatureSample d readings averages ages time x s = .next t0) : Kept x0 t0 := by
  unfold execTemperatureSample at ek
  rw [Host.Outcome.next.injEq] at ek; subst ek
  all_goals
    repeat' (first
      | with_reducible assumption
      | with_reducible apply temperatureSample_kept)

theorem execDebugGrant_kept {x0 s t0 : State} (tick : Nat) (hk : Kept x0 s) (ek : execDebugGrant tick s = .next t0) : Kept x0 t0 := by
  unfold execDebugGrant at ek
  rw [Host.Outcome.next.injEq] at ek; subst ek
  all_goals
    repeat' (first
      | with_reducible assumption
      | with_reducible apply debugGrant_kept)

theorem execChallengeExpiry_kept {x0 s t0 : State} (hk : Kept x0 s) (ek : execChallengeExpiry s = .next t0) : Kept x0 t0 := by
  unfold execChallengeExpiry at ek
  rw [Host.Outcome.next.injEq] at ek; subst ek
  all_goals
    repeat' (first
      | with_reducible assumption
      | with_reducible apply challengeExpiry_kept)

end Sys2Proof.Machine
end

