-- ==== Sys2Proof/Laws/KeepWrites.lean ====
section
/-!
SUPPORT. What the operations of Machine/Writes.lean keep (Laws/Keep.lean).
-/

namespace Sys2Proof.Machine

theorem State.boundReject_kept {x0 s : State} (d : Nat) (hk : Kept x0 s) : Kept x0 (State.boundReject s d) := by
  unfold State.boundReject
  repeat' (first
    | with_reducible assumption
    | with_reducible apply State.set32_kept)

theorem State.memberReject_kept {x0 s : State} (n : Nat) (hk : Kept x0 s) : Kept x0 (State.memberReject s n) := by
  unfold State.memberReject
  repeat' (first
    | with_reducible assumption
    | with_reducible apply State.set32_kept)

theorem State.ignoredWrite_kept {x0 s : State} (planned : Bool) (a : Nat) (hk : Kept x0 s) : KeptAll x0 (State.ignoredWrite s planned a) := by
  unfold State.ignoredWrite
  repeat' (first
    | with_reducible assumption
    | with_reducible apply State.memberReject_kept
    | with_reducible apply State.set32_kept
    | with_reducible apply State.boundReject_kept
    | with_reducible exact KeptAll.nil
    | with_reducible apply KeptAll.one
    | split)

theorem State.armCapture_kept {x0 s : State} (g : Nat) (hk : Kept x0 s) : Kept x0 (State.armCapture s g) := by
  unfold State.armCapture
  repeat' (first
    | with_reducible assumption
    | intro _
    | (refine id ?_; extract_lets +onlyGivenNames u1; first
        | ((refine (fun k1 : Kept x0 u1 => ?_) ?_) <;> [clear_value u1; subst u1])
        | clear_value u1)
    | with_reducible apply State.w32_kept
    | with_reducible apply State.sf64_kept
    | with_reducible apply Kept.foldl)

theorem State.stageHourLen_kept {x0 s : State} (v : Nat) (hk : Kept x0 s) : Kept x0 (State.stageHourLen s v) := by
  unfold State.stageHourLen
  repeat' (first
    | with_reducible assumption
    | (refine id ?_; extract_lets +onlyGivenNames u1; clear_value u1)
    | with_reducible apply State.set32_kept
    | with_reducible apply State.stage_kept
    | ((with_reducible apply Kept.ite) <;> intro _))

theorem State.writeStaged_kept {x0 s : State} (planned : Bool) (a v : Nat) (hk : Kept x0 s) : Kept x0 (State.writeStaged s planned a v) := by
  unfold State.writeStaged
  repeat' (first
    | with_reducible assumption
    | (refine id ?_; extract_lets +onlyGivenNames u1; clear_value u1)
    | with_reducible apply State.ignoredWrite_kept
    | with_reducible apply State.stageHourLen_kept
    | with_reducible apply State.stage_kept
    | ((with_reducible apply Kept.ite) <;> intro _)
    | with_reducible refine KeptAll.get (by with_reducible assumption) ?_
    | split)

theorem State.writeNow_kept {x0 s : State} (planned : Bool) (a v : Nat) (hk : Kept x0 s) : Kept x0 (State.writeNow s planned a v) := by
  unfold State.writeNow
  repeat' (first
    | with_reducible assumption
    | (refine id ?_; extract_lets +onlyGivenNames u1; first
        | ((refine (fun k1 : Kept x0 u1 => ?_) ?_) <;> [clear_value u1; subst u1])
        | clear_value u1)
    | with_reducible apply State.ignoredWrite_kept
    | with_reducible apply State.w32_kept
    | with_reducible apply State.armCapture_kept
    | ((with_reducible apply Kept.ite) <;> intro _)
    | with_reducible refine KeptAll.get (by with_reducible assumption) ?_
    | with_reducible exact KeptAll.nil
    | split)

theorem State.writeReg_kept {x0 s : State} (a v : Nat) (hk : Kept x0 s) : Kept x0 (State.writeReg s a v) := by
  unfold State.writeReg
  repeat' (first
    | with_reducible assumption
    | with_reducible apply State.writeStaged_kept
    | with_reducible apply State.writeNow_kept)

theorem State.writeRegs_kept {x0 s : State} (a v r3 : Nat) (hk : Kept x0 s) : Kept x0 (State.writeRegs s a v r3) := by
  induction r3 generalizing s a v with
  | zero =>
    unfold State.writeRegs
    repeat' (first
      | with_reducible assumption)
  | succ m ih =>
    unfold State.writeRegs
    repeat' (first
      | with_reducible assumption
      | with_reducible apply ih
      | with_reducible apply State.writeReg_kept)

end Sys2Proof.Machine
end

