-- ==== Sys2Proof/Laws/KeepAccess.lean ====
section
/-!
SUPPORT. What the operations of Machine/Access.lean keep (Laws/Keep.lean).
-/

namespace Sys2Proof.Machine

theorem State.sendPending_kept {x0 s : State} (v : Nat) (hk : Kept x0 s) : Kept x0 (State.sendPending s v) := by
  unfold State.sendPending
  repeat' (first
    | with_reducible assumption
    | (refine id ?_; extract_lets +onlyGivenNames u1; clear_value u1)
    | with_reducible apply State.sendVector_kept
    | with_reducible apply State.clr32_kept
    | ((with_reducible apply Kept.ite) <;> intro _))

theorem State.putRegister_kept {x0 s : State} (a v : Nat) (hk : Kept x0 s) : Kept x0 (State.putRegister s a v) := by
  unfold State.putRegister
  repeat' (first
    | with_reducible assumption
    | with_reducible apply enable_kept
    | with_reducible apply errValid_kept
    | with_reducible apply State.writeReg_kept
    | with_reducible apply State.sendPending_kept
    | ((with_reducible apply Kept.ite) <;> intro _)
    | split)

theorem State.putRegisters_kept {x0 s : State} (a : Nat) (r2 : List Nat) (hk : Kept x0 s) : Kept x0 (State.putRegisters s a r2) := by
  induction r2 generalizing s a with
  | nil =>
    unfold State.putRegisters
    repeat' (first
      | with_reducible assumption)
  | cons m ms ih =>
    unfold State.putRegisters
    repeat' (first
      | with_reducible assumption
      | with_reducible apply ih
      | with_reducible apply State.putRegister_kept)

theorem State.latchHigh_kept {x0 s : State} (which v : Nat) (hk : Kept x0 s) : Kept x0 (State.latchHigh s which v) := by
  unfold State.latchHigh
  repeat' (first
    | with_reducible assumption
    | (refine id ?_; extract_lets +onlyGivenNames u1; clear_value u1)
    | split
    | (unfold Kept; dsimp only; with_reducible apply Kept.fold))

theorem State.getRegisters_kept {x0 s : State} (a k t tick : Nat) (hk : Kept x0 s) : Kept x0 (State.getRegisters s a k t tick).2 := by
  unfold State.getRegisters
  repeat' (first
    | with_reducible assumption
    | with_reducible apply State.latchHigh_kept
    | split)

theorem State.getMemory_kept {x0 s : State} (a len t : Nat) (hk : Kept x0 s) : Kept x0 (State.getMemory s a len t).2 := by
  unfold State.getMemory
  repeat' (first
    | with_reducible assumption
    | intro _
    | (refine id ?_; extract_lets +onlyGivenNames u1; first
        | ((refine (fun k1 : Kept x0 u1 => ?_) ?_) <;> [clear_value u1; subst u1])
        | clear_value u1)
    | with_reducible apply State.caughtUp_kept
    | with_reducible apply State.noticed_kept
    | with_reducible apply Kept.foldl)

theorem State.putMemory_kept {x0 s : State} (a t : Nat) (bs : List Byte) (r4 : Nat) (hk : Kept x0 s) : Kept x0 (State.putMemory s a t bs r4) := by
  induction r4 generalizing s a t bs with
  | zero =>
    unfold State.putMemory
    repeat' (first
      | with_reducible assumption)
  | succ m ih =>
    unfold State.putMemory
    repeat' (first
      | with_reducible assumption
      | (refine id ?_; extract_lets +onlyGivenNames u1; first
        | ((refine (fun k1 : Kept x0 u1 => ?_) ?_) <;> [clear_value u1; subst u1])
        | clear_value u1)
      | with_reducible apply ih
      | with_reducible apply State.storeAt_kept
      | ((with_reducible apply Kept.ite) <;> intro _))

theorem State.unitsSeen_kept {x0 s : State} (d t : Nat) (hk : Kept x0 s) : Kept x0 (State.unitsSeen s d t) := by
  unfold State.unitsSeen
  exact Kept.foldl (State.meshTo_kept _ _ hk) (fun _ _ k => State.portTo_kept _ _ k)

theorem State.loadSeen_kept {x0 s : State} (a t : Nat) (hk : Kept x0 s) : Kept x0 (State.loadSeen s a t) := by
  unfold State.loadSeen
  repeat' (first
    | with_reducible assumption
    | (refine id ?_; extract_lets +onlyGivenNames u1; clear_value u1)
    | with_reducible apply State.rampTo_kept
    | with_reducible apply State.unitsSeen_kept
    | ((with_reducible apply Kept.ite) <;> intro _))

theorem State.getDevice_kept {x0 s : State} (a len t tick : Nat) (hk : Kept x0 s) : Kept x0 (State.getDevice s a len t tick).2 := by
  unfold State.getDevice
  repeat' (first
    | with_reducible assumption
    | with_reducible apply State.drawWide_kept
    | with_reducible apply State.getMemory_kept
    | with_reducible apply State.getRegisters_kept
    | with_reducible apply State.loadSeen_kept
    | split)

theorem State.putBroadcast_kept {x0 s : State} (region off t : Nat) (bs : List Byte)
    (hk : Kept x0 s) : Kept x0 (State.putBroadcast s region off t bs) := by
  unfold State.putBroadcast
  repeat' (first
    | with_reducible assumption
    | intro _
    | (refine id ?_; extract_lets +onlyGivenNames u1; clear_value u1)
    | with_reducible apply State.storeAt_kept
    | with_reducible apply State.putRegisters_kept
    | with_reducible apply Kept.foldl
    | ((with_reducible apply Kept.ite) <;> intro _)
    | (unfold Kept; dsimp only; with_reducible apply Kept.fold))

theorem State.putDevice_kept {x0 s : State} (req a t : Nat) (bs : List Byte) (hk : Kept x0 s) : Kept x0 (State.putDevice s req a t bs) := by
  unfold State.putDevice
  repeat' (first
    | with_reducible assumption
    | with_reducible apply State.putMemory_kept
    | with_reducible apply State.writeRegion3_kept
    | with_reducible apply State.seeHold_kept
    | with_reducible apply State.putRegisters_kept
    | with_reducible apply State.loadSeen_kept
    | with_reducible apply State.putBroadcast_kept
    | ((with_reducible apply Kept.ite) <;> intro _)
    | split)

theorem State.readBell_kept {x0 s : State} (off len : Nat) (hk : Kept x0 s) : Kept x0 (State.readBell s off len) := by
  unfold State.readBell
  repeat' (first
    | with_reducible assumption
    | (refine id ?_; extract_lets +onlyGivenNames u1; first
        | ((refine (fun k1 : Kept x0 u1 => ?_) ?_) <;> [clear_value u1; subst u1])
        | clear_value u1)
    | with_reducible apply State.capture_kept
    | with_reducible apply State.emit_kept
    | ((with_reducible apply Kept.ite) <;> intro _))

theorem State.writeBell_kept {x0 s : State} (off : Nat) (bs : List Byte) (hk : Kept x0 s) : Kept x0 (State.writeBell s off bs) := by
  unfold State.writeBell
  repeat' (first
    | with_reducible assumption
    | (refine id ?_; extract_lets +onlyGivenNames u1; ((refine (fun k1 : Kept x0 u1 => ?_) ?_) <;> [clear_value u1; subst u1]))
    | with_reducible apply doorbell_kept
    | with_reducible apply State.capture_kept
    | ((with_reducible apply Kept.ite) <;> intro _))

theorem State.readBy_kept {x0 s : State} (v : Via) (len t tick : Nat) (hk : Kept x0 s) : Kept x0 (State.readBy s v len t tick) := by
  unfold State.readBy
  repeat' (first
    | with_reducible assumption
    | (refine id ?_; extract_lets +onlyGivenNames u1; clear_value u1)
    | with_reducible apply State.emit_kept
    | with_reducible apply State.capture_kept
    | with_reducible apply State.readBell_kept
    | with_reducible apply State.getDevice_kept
    | ((with_reducible apply Kept.ite) <;> intro _)
    | split)

theorem State.writeBy_kept {x0 s : State} (v : Via) (bs : List Byte) (t : Nat) (hk : Kept x0 s) : Kept x0 (State.writeBy s v bs t) := by
  unfold State.writeBy
  repeat' (first
    | with_reducible assumption
    | with_reducible apply State.capture_kept
    | with_reducible apply State.writeBell_kept
    | with_reducible apply State.putDevice_kept
    | ((with_reducible apply Kept.ite) <;> intro _)
    | split)

theorem stagingAccess_kept {x0 s : State} (off len : Nat) (w : Option (List Byte)) (hk : Kept x0 s) : Kept x0 (stagingAccess off len w s) := by
  unfold stagingAccess
  repeat' (first
    | with_reducible assumption
    | (refine id ?_; extract_lets +onlyGivenNames u1; clear_value u1)
    | with_reducible apply State.readBy_kept
    | with_reducible apply State.writeBy_kept
    | split)

theorem State.putPart_kept {x0 s : State} (a w : Nat) (wide : Bool) (v : Nat) (hk : Kept x0 s) : Kept x0 (State.putPart s a w wide v) := by
  unfold State.putPart
  repeat' (first
    | with_reducible assumption
    | with_reducible apply State.putRegisters_kept)

theorem lowWordRead_kept {x0 s : State} (which v t : Nat) (hk : Kept x0 s) : Kept x0 (lowWordRead which v t s) := by
  unfold lowWordRead
  repeat' (first
    | with_reducible assumption
    | (refine id ?_; extract_lets +onlyGivenNames u1; clear_value u1)
    | with_reducible apply State.emit_kept
    | with_reducible apply State.latchHigh_kept)

theorem flagWrite_kept {x0 s : State} (req d off t : Nat) (bs : List Byte) (hk : Kept x0 s) : Kept x0 (flagWrite req d off t bs s) := by
  unfold flagWrite
  repeat' (first
    | with_reducible assumption
    | with_reducible apply State.writeBy_kept)

theorem execStagingAccess_kept {x0 s t0 : State} (off : BitVec 29) (len : Nat) (w : Option (List Byte)) (hk : Kept x0 s) (ek : execStagingAccess off len w s = .next t0) : Kept x0 t0 := by
  unfold execStagingAccess at ek
  rw [Host.Outcome.next.injEq] at ek; subst ek
  all_goals
    repeat' (first
      | with_reducible assumption
      | with_reducible apply stagingAccess_kept)

theorem execServiceAccess_kept {x0 s t0 : State} (v : Via) (len : Nat) (w : Option (List Byte)) (t tick : Nat) (upset : List (BitVec 37)) (hk : Kept x0 s) (ek : execServiceAccess v len w t tick upset s = .next t0) : Kept x0 t0 := by
  unfold execServiceAccess at ek
  (try split at ek) <;> first | (rw [Host.Outcome.next.injEq] at ek; subst ek) | simp only [reduceCtorEq] at ek
  all_goals
    repeat' (first
      | with_reducible assumption
      | with_reducible apply State.readBy_kept
      | with_reducible apply State.upset_kept
      | with_reducible apply State.writeBy_kept)

theorem execBroadcastWrite_kept {x0 s t0 : State} (req : Fin 32) (region : Fin 16) (off : BitVec 32) (bs : List Byte) (t : Nat) (hk : Kept x0 s) (ek : execBroadcastWrite req region off bs t s = .next t0) : Kept x0 t0 := by
  unfold execBroadcastWrite at ek
  rw [Host.Outcome.next.injEq] at ek; subst ek
  all_goals
    repeat' (first
      | with_reducible assumption
      | with_reducible apply State.writeBy_kept)

theorem State.stillSet_kept {x0 s : State} (v : Via) (req a len bits : Nat) (hk : Kept x0 s) : Kept x0 (State.stillSet s v req a len bits) := by
  unfold State.stillSet
  repeat' (first
    | with_reducible assumption
    | intro _
    | (refine id ?_; extract_lets +onlyGivenNames u1; clear_value u1)
    | with_reducible apply State.orBits_kept
    | with_reducible apply Kept.foldl
    | ((with_reducible apply Kept.ite) <;> intro _)
    | split)

theorem execRegisterWrite_kept {x0 s t0 : State} (v : Via) (wide : Bool) (x meets : BitVec 64) (hk : Kept x0 s) (ek : execRegisterWrite v wide x meets s = .next t0) : Kept x0 t0 := by
  unfold execRegisterWrite at ek
  (try split at ek) <;> first | (rw [Host.Outcome.next.injEq] at ek; subst ek) | simp only [reduceCtorEq] at ek
  all_goals
    repeat' (first
      | with_reducible assumption
      | with_reducible apply State.stillSet_kept
      | with_reducible apply State.writeBy_kept)

theorem execLowWordRead_kept {x0 s t0 : State} (which : Fin 3) (v : BitVec 64) (t : Nat) (hk : Kept x0 s) (ek : execLowWordRead which v t s = .next t0) : Kept x0 t0 := by
  unfold execLowWordRead at ek
  rw [Host.Outcome.next.injEq] at ek; subst ek
  all_goals
    repeat' (first
      | with_reducible assumption
      | with_reducible apply lowWordRead_kept)

theorem execFlagWrite_kept {x0 s t0 : State} (req : Fin 32) (d : Fin 8) (c : Fin 4) (n : Fin 256) (bs : List Byte) (t : Nat) (hk : Kept x0 s) (ek : execFlagWrite req d c n bs t s = .next t0) : Kept x0 t0 := by
  unfold execFlagWrite at ek
  rw [Host.Outcome.next.injEq] at ek; subst ek
  all_goals
    repeat' (first
      | with_reducible assumption
      | with_reducible apply flagWrite_kept)

theorem execCounterValueWrite_kept {x0 s t0 : State} (req : Fin 32) (d : Fin 8) (c : Fin 4) (n : Fin 256) (bs : List Byte) (t : Nat) (hk : Kept x0 s) (ek : execCounterValueWrite req d c n bs t s = .next t0) : Kept x0 t0 := by
  unfold execCounterValueWrite at ek
  rw [Host.Outcome.next.injEq] at ek; subst ek
  all_goals
    repeat' (first
      | with_reducible assumption
      | with_reducible apply flagWrite_kept)

theorem execCounterAdd_kept {x0 s t0 : State} (req : Fin 32) (d : Fin 8) (c : Fin 4) (n : Fin 256) (bs : List Byte) (t : Nat) (hk : Kept x0 s) (ek : execCounterAdd req d c n bs t s = .next t0) : Kept x0 t0 := by
  unfold execCounterAdd at ek
  rw [Host.Outcome.next.injEq] at ek; subst ek
  all_goals
    repeat' (first
      | with_reducible assumption
      | with_reducible apply flagWrite_kept)

theorem execHourCtlWrite_kept {x0 s t0 : State} (v : BitVec 32) (hk : Kept x0 s) (ek : execHourCtlWrite v s = .next t0) : Kept x0 t0 := by
  unfold execHourCtlWrite at ek
  rw [Host.Outcome.next.injEq] at ek; subst ek
  all_goals
    repeat' (first
      | with_reducible assumption
      | with_reducible apply State.putRegister_kept)

theorem execPartMemberWrite_kept {x0 s t0 : State} (n : Fin 64) (w : Fin 4) (v : BitVec 32) (hk : Kept x0 s) (ek : execPartMemberWrite n w v s = .next t0) : Kept x0 t0 := by
  unfold execPartMemberWrite at ek
  rw [Host.Outcome.next.injEq] at ek; subst ek
  all_goals
    repeat' (first
      | with_reducible assumption
      | with_reducible apply State.putRegister_kept)

theorem execPbbWrite_kept {x0 s t0 : State} (d : Fin 8) (n : Fin 64) (which : Fin 3) (w : Fin 2) (wide : Bool) (v : BitVec 64) (hk : Kept x0 s) (ek : execPbbWrite d n which w wide v s = .next t0) : Kept x0 t0 := by
  unfold execPbbWrite at ek
  (try split at ek) <;> first | (rw [Host.Outcome.next.injEq] at ek; subst ek) | simp only [reduceCtorEq] at ek
  all_goals
    repeat' (first
      | with_reducible assumption
      | with_reducible apply State.putPart_kept)

theorem execFlagwinWrite_kept {x0 s t0 : State} (d : Fin 8) (n : Fin 64) (w : Fin 2) (wide : Bool) (v : BitVec 64) (hk : Kept x0 s) (ek : execFlagwinWrite d n w wide v s = .next t0) : Kept x0 t0 := by
  unfold execFlagwinWrite at ek
  rw [Host.Outcome.next.injEq] at ek; subst ek
  all_goals
    repeat' (first
      | with_reducible assumption
      | with_reducible apply State.putPart_kept)

theorem execCoreStreamWrite_kept {x0 s t0 : State} (d : Fin 8) (c : Fin 16) (w : Fin 2) (wide : Bool) (v : BitVec 64) (hk : Kept x0 s) (ek : execCoreStreamWrite d c w wide v s = .next t0) : Kept x0 t0 := by
  unfold execCoreStreamWrite at ek
  rw [Host.Outcome.next.injEq] at ek; subst ek
  all_goals
    repeat' (first
      | with_reducible assumption
      | with_reducible apply State.putPart_kept)

theorem execMcastEntryWrite_kept {x0 s t0 : State} (d : Fin 8) (e : Fin 256) (w : Fin 8) (wide : Bool) (v : BitVec 64) (hk : Kept x0 s) (ek : execMcastEntryWrite d e w wide v s = .next t0) : Kept x0 t0 := by
  unfold execMcastEntryWrite at ek
  rw [Host.Outcome.next.injEq] at ek; subst ek
  all_goals
    repeat' (first
      | with_reducible assumption
      | with_reducible apply State.putPart_kept)

theorem execPeerEntryWrite_kept {x0 s t0 : State} (n : Fin 64) (e : Fin 1024) (v : BitVec 32) (hk : Kept x0 s) (ek : execPeerEntryWrite n e v s = .next t0) : Kept x0 t0 := by
  unfold execPeerEntryWrite at ek
  rw [Host.Outcome.next.injEq] at ek; subst ek
  all_goals
    repeat' (first
      | with_reducible assumption
      | with_reducible apply State.putRegister_kept)

theorem execSwapTable_kept {x0 s t0 : State} (v : BitVec 32) (hk : Kept x0 s) (ek : execSwapTable v s = .next t0) : Kept x0 t0 := by
  unfold execSwapTable at ek
  rw [Host.Outcome.next.injEq] at ek; subst ek
  all_goals
    repeat' (first
      | with_reducible assumption
      | with_reducible apply State.putRegister_kept)

theorem execIlkFirstRearm_kept {x0 s t0 : State} (d : Fin 8) (c : Fin 16) (hk : Kept x0 s) (ek : execIlkFirstRearm d c s = .next t0) : Kept x0 t0 := by
  unfold execIlkFirstRearm at ek
  rw [Host.Outcome.next.injEq] at ek; subst ek
  all_goals
    repeat' (first
      | with_reducible assumption
      | with_reducible apply State.putRegister_kept)

theorem execArmCapture_kept {x0 s t0 : State} (d : Fin 8) (c : Fin 16) (w : Fin 2) (wide : Bool) (v : BitVec 64) (hk : Kept x0 s) (ek : execArmCapture d c w wide v s = .next t0) : Kept x0 t0 := by
  unfold execArmCapture at ek
  rw [Host.Outcome.next.injEq] at ek; subst ek
  all_goals
    repeat' (first
      | with_reducible assumption
      | with_reducible apply State.putPart_kept)

end Sys2Proof.Machine
end

