-- ==== Sys2Proof/Laws/KeepHourSteps.lean ====
section
/-!
SUPPORT. What the operations of Machine/HourSteps.lean keep (Laws/Keep.lean).
-/

namespace Sys2Proof.Machine

theorem State.resolved_kept {x0 s : State} (b : Bool) (hk : Kept x0 s) : Kept x0 (State.resolved s b) := by
  unfold State.resolved
  repeat' (first
    | with_reducible assumption
    | with_reducible apply State.set32_kept
    | ((with_reducible apply Kept.ite) <;> intro _))

theorem State.applyWords_kept {x0 s : State} (a r2 : Nat) (hk : Kept x0 s) : Kept x0 (State.applyWords s a r2) := by
  induction r2 generalizing s a with
  | zero =>
    unfold State.applyWords
    repeat' (first
      | with_reducible assumption)
  | succ m ih =>
    unfold State.applyWords
    repeat' (first
      | with_reducible assumption
      | with_reducible apply ih
      | with_reducible apply State.applyWord_kept
      | ((with_reducible apply Kept.ite) <;> intro _))

theorem State.dropWords_kept {x0 s : State} (a r2 : Nat) (hk : Kept x0 s) : Kept x0 (State.dropWords s a r2) := by
  induction r2 generalizing s a with
  | zero =>
    unfold State.dropWords
    repeat' (first
      | with_reducible assumption)
  | succ m ih =>
    unfold State.dropWords
    repeat' (first
      | with_reducible assumption
      | with_reducible apply ih
      | with_reducible apply State.unstage_kept)

theorem State.applyWhere_kept {x0 s : State} (p : Nat → Bool) (hk : Kept x0 s) : Kept x0 (State.applyWhere s p) := by
  unfold State.applyWhere
  repeat' (first
    | with_reducible assumption
    | intro _
    | with_reducible apply State.applyWord_kept
    | with_reducible apply Kept.foldl
    | ((with_reducible apply Kept.ite) <;> intro _))

theorem State.reportDigests_kept {x0 s : State} (hk : Kept x0 s) : Kept x0 (State.reportDigests s) := by
  unfold State.reportDigests
  repeat' (first
    | with_reducible assumption
    | intro _
    | (refine id ?_; extract_lets +onlyGivenNames u1; ((refine (fun k1 : Kept x0 u1 => ?_) ?_) <;> [clear_value u1; subst u1]))
    | with_reducible apply State.postEvent_kept
    | with_reducible apply Kept.foldl
    | ((with_reducible apply Kept.ite) <;> intro _)
    | (unfold Kept; dsimp only; with_reducible apply Kept.fold))

theorem State.spareTakes_kept {x0 s : State} (g : Nat) (hk : Kept x0 s) : Kept x0 (State.spareTakes s g) := by
  unfold State.spareTakes
  repeat' (first
    | with_reducible assumption
    | (refine id ?_; extract_lets +onlyGivenNames u1; first
        | ((refine (fun k1 : Kept x0 u1 => ?_) ?_) <;> [clear_value u1; subst u1])
        | clear_value u1)
    | with_reducible apply State.set32_kept
    | with_reducible apply State.sf32_kept
    | with_reducible apply State.countReset_kept
    | with_reducible apply State.resetCore_kept
    | with_reducible apply State.setDie_kept
    | with_reducible apply State.rewriteCore_kept
    | with_reducible apply State.setCore_kept
    | with_reducible apply State.setSeqPos_kept
    | with_reducible apply State.setSeqState_kept
    | ((with_reducible apply Kept.ite) <;> intro _)
    | (unfold Kept; dsimp only; with_reducible refine Kept.sub ?_ ?_ ?_ ?_ ?_ ?_ ?_ ?_ ?_)
    | exact List.Sublist.refl _
    | exact List.filter_sublist)

theorem State.advanceGen_kept {x0 s : State} (n : Nat) (hk : Kept x0 s) : Kept x0 (State.advanceGen s n) := by
  unfold State.advanceGen
  repeat' (first
    | with_reducible assumption
    | (refine id ?_; extract_lets +onlyGivenNames u1; first
        | ((refine (fun k1 : Kept x0 u1 => ?_) ?_) <;> [clear_value u1; subst u1])
        | clear_value u1)
    | with_reducible apply State.setPart_kept
    | with_reducible apply State.endPartTxns_kept
    | with_reducible apply State.sf32_kept
    | ((with_reducible apply Kept.ite) <;> intro _))

theorem State.stopNow_kept {x0 s : State} (n : Nat) (hk : Kept x0 s) : Kept x0 (State.stopNow s n) := by
  unfold State.stopNow
  repeat' (first
    | with_reducible assumption
    | (refine id ?_; extract_lets +onlyGivenNames u1; first
        | ((refine (fun k1 : Kept x0 u1 => ?_) ?_) <;> [clear_value u1; subst u1])
        | clear_value u1)
    | with_reducible apply State.stopFault_kept
    | with_reducible apply State.clr32_kept
    | with_reducible apply State.returnLoaded_kept
    | with_reducible apply State.abandonStep_kept
    | with_reducible apply State.setPart_kept
    | ((with_reducible apply Kept.ite) <;> intro _)
    | split)

theorem State.dieFences_kept {x0 s : State} (on : Nat → Bool) (hk : Kept x0 s) : Kept x0 (State.dieFences s on) := by
  unfold State.dieFences
  repeat' (first
    | with_reducible assumption
    | intro _
    | (refine id ?_; extract_lets +onlyGivenNames u1; first
        | ((refine (fun k1 : Kept x0 u1 => ?_) ?_) <;> [clear_value u1; subst u1])
        | clear_value u1)
    | with_reducible apply State.fenceCore_kept
    | with_reducible apply State.spareTakes_kept
    | with_reducible apply State.applyRemaps_kept
    | with_reducible apply Kept.foldl
    | ((with_reducible apply Kept.ite) <;> intro _)
    | (unfold Kept; dsimp only; with_reducible apply Kept.fold))

theorem State.windowFences_kept {x0 s : State} (on : Nat → Bool) (hk : Kept x0 s) : Kept x0 (State.windowFences s on) := by
  unfold State.windowFences
  repeat' (first
    | with_reducible assumption
    | intro _
    | (refine id ?_; extract_lets +onlyGivenNames u1; ((refine (fun k1 : Kept x0 u1 => ?_) ?_) <;> [clear_value u1; subst u1]))
    | with_reducible apply State.resolved_kept
    | with_reducible apply State.dieFences_kept
    | with_reducible apply State.advanceGen_kept
    | with_reducible apply State.stopNow_kept
    | with_reducible apply Kept.foldl)

theorem State.moveTrim_kept {x0 s : State} (d : Nat) (k : Int) (hk : Kept x0 s) : Kept x0 (State.moveTrim s d k) := by
  unfold State.moveTrim
  repeat' (first
    | with_reducible assumption
    | (refine id ?_; extract_lets +onlyGivenNames u1; first
        | ((refine (fun k1 : Kept x0 u1 => ?_) ?_) <;> [clear_value u1; subst u1])
        | clear_value u1)
    | with_reducible apply State.set32_kept
    | with_reducible apply State.sf32_kept
    | ((with_reducible apply Kept.ite) <;> intro _))

theorem State.trimStep_kept {x0 s : State} (x : HourIn) (d : Nat) (hk : Kept x0 s) : Kept x0 (State.trimStep s x d) := by
  unfold State.trimStep
  repeat' (first
    | with_reducible assumption
    | (refine id ?_; extract_lets +onlyGivenNames u1; first
        | ((refine (fun k1 : Kept x0 u1 => ?_) ?_) <;> [clear_value u1; subst u1])
        | clear_value u1)
    | with_reducible apply State.moveTrim_kept
    | ((with_reducible apply Kept.ite) <;> intro _)
    | (unfold Kept; dsimp only; with_reducible apply Kept.fold))

theorem State.capLoop_kept {x0 s : State} (x : HourIn) (hk : Kept x0 s) : Kept x0 (State.capLoop s x).1 := by
  unfold State.capLoop
  repeat' (first
    | with_reducible assumption
    | (refine id ?_; extract_lets +onlyGivenNames u1; clear_value u1)
    | with_reducible apply State.set32_kept
    | with_reducible apply State.count64_kept
    | with_reducible apply State.postEvent_kept
    | ((with_reducible apply Kept.ite) <;> intro _)
    | split
    | (unfold Kept; dsimp only; with_reducible apply Kept.fold))

theorem State.commandVolts_kept {x0 s : State} (code : Nat) (hk : Kept x0 s) : Kept x0 (State.commandVolts s code) := by
  unfold State.commandVolts
  repeat' (first
    | with_reducible assumption
    | intro _
    | with_reducible apply State.commandVolt_kept
    | with_reducible apply Kept.foldl
    | ((with_reducible apply Kept.ite) <;> intro _))

theorem State.raiseCode_kept {x0 s : State} (x : HourIn) (f f' : Nat) (cut : Bool) (hk : Kept x0 s) : Kept x0 (State.raiseCode s x f f' cut) := by
  unfold State.raiseCode
  repeat' (first
    | with_reducible assumption
    | (refine id ?_; extract_lets +onlyGivenNames u1; first
        | ((refine (fun k1 : Kept x0 u1 => ?_) ?_) <;> [clear_value u1; subst u1])
        | clear_value u1)
    | with_reducible apply State.sf32_kept
    | with_reducible apply State.commandVolts_kept
    | with_reducible apply State.clr32_kept
    | ((with_reducible apply Kept.ite) <;> intro _)
    | (unfold Kept; dsimp only; with_reducible apply Kept.fold))

theorem State.settleCode_kept {x0 s : State} (x : HourIn) (f f' : Nat) (cut : Bool) (hk : Kept x0 s) : Kept x0 (State.settleCode s x f f' cut) := by
  unfold State.settleCode
  repeat' (first
    | with_reducible assumption
    | (refine id ?_; extract_lets +onlyGivenNames u1; first
        | ((refine (fun k1 : Kept x0 u1 => ?_) ?_) <;> [clear_value u1; subst u1])
        | clear_value u1)
    | with_reducible apply State.raiseCode_kept
    | with_reducible apply State.sf32_kept
    | ((with_reducible apply Kept.ite) <;> intro _)
    | (unfold Kept; dsimp only; with_reducible apply Kept.fold))

theorem State.reportPower_kept {x0 s : State} (x : HourIn) (hk : Kept x0 s) : Kept x0 (State.reportPower s x) := by
  unfold State.reportPower
  repeat' (first
    | with_reducible assumption
    | (refine id ?_; extract_lets +onlyGivenNames u1; first
        | ((refine (fun k1 : Kept x0 u1 => ?_) ?_) <;> [clear_value u1; subst u1])
        | clear_value u1)
    | with_reducible apply State.sf64_kept
    | with_reducible apply State.sf32_kept
    | with_reducible apply State.count64_kept
    | ((with_reducible apply Kept.ite) <;> intro _)
    | (unfold Kept; dsimp only; with_reducible apply Kept.fold))

theorem State.windowPower_kept {x0 s : State} (x : HourIn) (hk : Kept x0 s) : Kept x0 (State.windowPower s x) := by
  unfold State.windowPower
  repeat' (first
    | with_reducible assumption
    | intro _
    | (refine id ?_; extract_lets +onlyGivenNames u1; first
        | ((refine (fun k1 : Kept x0 u1 => ?_) ?_) <;> [clear_value u1; subst u1])
        | clear_value u1)
    | with_reducible apply State.applyWhere_kept
    | with_reducible apply State.trimStep_kept
    | with_reducible apply State.capLoop_kept
    | with_reducible apply State.resolved_kept
    | with_reducible apply State.reportPower_kept
    | with_reducible apply State.settleCode_kept
    | with_reducible apply Kept.foldl)

theorem State.windowMembers_kept {x0 s : State} (hk : Kept x0 s) : Kept x0 (State.windowMembers s).1 := by
  unfold State.windowMembers
  repeat' (first
    | with_reducible assumption
    | intro _
    | (refine id ?_; extract_lets +onlyGivenNames u1; first
        | ((refine (fun k1 : Kept x0 u1 => ?_) ?_) <;> [clear_value u1; subst u1])
        | clear_value u1)
    | with_reducible apply State.resolved_kept
    | with_reducible apply State.memberReject_kept
    | with_reducible apply State.dropWords_kept
    | with_reducible apply State.applyWords_kept
    | with_reducible apply State.setPstate_kept
    | with_reducible apply State.idleCore_kept
    | with_reducible apply Kept.foldl
    | with_reducible apply Kept.foldl_fst
    | split)

theorem State.applyRanges_kept {x0 s : State} (d : Nat) (regs : List (Nat × Nat)) (fit : Nat → Bool) (span : Nat → Nat × Nat)
    (hk : Kept x0 s) : Kept x0 (State.applyRanges s d regs fit span) := by
  unfold State.applyRanges
  repeat' (first
    | with_reducible assumption
    | intro _
    | (refine id ?_; extract_lets +onlyGivenNames u1; clear_value u1)
    | with_reducible apply State.boundReject_kept
    | with_reducible apply State.dropWords_kept
    | with_reducible apply State.applyWords_kept
    | with_reducible apply Kept.foldl
    | ((with_reducible apply Kept.ite) <;> intro _))

theorem State.windowRanges_kept {x0 s : State} (d : Nat) (hk : Kept x0 s) : Kept x0 (State.windowRanges s d) := by
  unfold State.windowRanges
  repeat' (first
    | with_reducible assumption
    | (refine id ?_; extract_lets +onlyGivenNames u1; first
        | ((refine (fun k1 : Kept x0 u1 => ?_) ?_) <;> [clear_value u1; subst u1])
        | clear_value u1)
    | with_reducible apply State.applyRanges_kept)

theorem State.windowParts_kept {x0 s : State} (k : Nat) (hk : Kept x0 s) : Kept x0 (State.windowParts s k).1 := by
  unfold State.windowParts
  repeat' (first
    | with_reducible assumption
    | intro _
    | with_reducible apply State.windowMembers_kept
    | with_reducible apply State.windowRanges_kept
    | with_reducible apply State.applyJobs_kept
    | with_reducible apply State.loadsApply_kept
    | with_reducible apply Kept.foldl)

theorem State.overBits_kept {x0 s : State} (n : Nat) (hk : Kept x0 s) : Kept x0 (State.overBits s n) := by
  unfold State.overBits
  repeat' (first
    | with_reducible assumption
    | intro _
    | (refine id ?_; extract_lets +onlyGivenNames u1; first
        | ((refine (fun k1 : Kept x0 u1 => ?_) ?_) <;> [clear_value u1; subst u1])
        | clear_value u1)
    | with_reducible apply State.w64_kept
    | with_reducible apply State.postEvent_kept
    | with_reducible apply State.sf32_kept
    | with_reducible apply Kept.foldl
    | ((with_reducible apply Kept.ite) <;> intro _))

theorem State.freeSlots_kept {x0 s : State} (hk : Kept x0 s) : Kept x0 (State.freeSlots s) := by
  unfold State.freeSlots
  repeat' (first
    | with_reducible assumption
    | intro _
    | (refine id ?_; extract_lets +onlyGivenNames u1; first
        | ((refine (fun k1 : Kept x0 u1 => ?_) ?_) <;> [clear_value u1; subst u1])
        | clear_value u1)
    | with_reducible apply State.complete_kept
    | with_reducible apply Kept.foldl
    | (unfold Kept; dsimp only; with_reducible apply Kept.fold))

theorem State.windowQuotas_kept {x0 s : State} (hk : Kept x0 s) : Kept x0 (State.windowQuotas s) := by
  unfold State.windowQuotas
  repeat' (first
    | with_reducible assumption
    | intro _
    | (refine id ?_; extract_lets +onlyGivenNames u1; first
        | ((refine (fun k1 : Kept x0 u1 => ?_) ?_) <;> [clear_value u1; subst u1])
        | clear_value u1)
    | with_reducible apply State.resolved_kept
    | with_reducible apply State.w64_kept
    | with_reducible apply State.dropWords_kept
    | with_reducible apply State.serveReclaim_kept
    | with_reducible apply State.overBits_kept
    | with_reducible apply State.freeSlots_kept
    | with_reducible apply Kept.foldl
    | ((with_reducible apply Kept.ite) <;> intro _))

theorem State.swapTables_kept {x0 s : State} (hk : Kept x0 s) : Kept x0 (State.swapTables s) := by
  unfold State.swapTables
  repeat' (first
    | with_reducible assumption
    | intro _
    | with_reducible apply State.set32_kept
    | with_reducible apply State.w32_kept
    | with_reducible apply Kept.foldl)

theorem State.leaveModules_kept {x0 s : State} (nodes : List Nat) (hk : Kept x0 s) : Kept x0 (State.leaveModules s nodes) := by
  unfold State.leaveModules
  repeat' (first
    | with_reducible assumption
    | with_reducible apply State.switchRoutes_kept
    | ((with_reducible apply Kept.ite) <;> intro _))

theorem State.windowRoutes_kept {x0 s : State} (on : Nat → Bool) (t : Nat) (hk : Kept x0 s) : Kept x0 (State.windowRoutes s on t) := by
  unfold State.windowRoutes
  repeat' (first
    | with_reducible assumption
    | (refine id ?_; extract_lets +onlyGivenNames u1; first
        | ((refine (fun k1 : Kept x0 u1 => ?_) ?_) <;> [clear_value u1; subst u1])
        | clear_value u1)
    | with_reducible apply State.resolved_kept
    | with_reducible apply State.swapTables_kept
    | with_reducible apply State.leaveModules_kept
    | with_reducible apply State.applyWhere_kept
    | with_reducible apply State.unstage_kept
    | with_reducible apply State.rerouteLost_kept
    | ((with_reducible apply Kept.ite) <;> intro _))

theorem State.writeList_kept {x0 s : State} (now : List (Bool × Nat × Nat)) (hk : Kept x0 s) : Kept x0 (State.writeList s now) := by
  unfold State.writeList
  repeat' (first
    | with_reducible assumption
    | intro _
    | with_reducible apply State.writeNow_kept
    | with_reducible apply Kept.foldl)

theorem State.castOn_kept {x0 s : State} (d t : Nat) (casts : List (Nat × List Byte)) (hk : Kept x0 s) : Kept x0 (State.castOn s d t casts) := by
  unfold State.castOn
  repeat' (first
    | with_reducible assumption
    | intro _
    | with_reducible apply State.writeRegion3_kept
    | with_reducible apply Kept.foldl
    | ((with_reducible apply Kept.ite) <;> intro _))

theorem State.windowRest_kept {x0 s : State} (on : Nat → Bool) (now : List (Bool × Nat × Nat)) (t : Nat)
    (hk : Kept x0 s) : Kept x0 (State.windowRest s on now t) := by
  unfold State.windowRest
  repeat' (first
    | with_reducible assumption
    | intro _
    | (refine id ?_; extract_lets +onlyGivenNames u1; first
        | ((refine (fun k1 : Kept x0 u1 => ?_) ?_) <;> [clear_value u1; subst u1])
        | clear_value u1)
    | with_reducible apply State.writeList_kept
    | with_reducible apply State.applyWhere_kept
    | with_reducible apply State.castOn_kept
    | with_reducible apply Kept.foldl
    | ((with_reducible apply Kept.ite) <;> intro _)
    | (unfold Kept; dsimp only; with_reducible apply Kept.fold))

theorem State.holdBack_kept {x0 s : State} (k w : Nat) (now : List (Bool × Nat × Nat)) (d : Nat)
    (hk : Kept x0 s) : Kept x0 (State.holdBack s k w now d) := by
  unfold State.holdBack
  repeat' (first
    | with_reducible assumption
    | (refine id ?_; extract_lets +onlyGivenNames u1; first
        | ((refine (fun k1 : Kept x0 u1 => ?_) ?_) <;> [clear_value u1; subst u1])
        | clear_value u1)
    | with_reducible apply State.setDie_kept
    | (unfold Kept; dsimp only; with_reducible refine Kept.sub ?_ ?_ ?_ ?_ ?_ ?_ ?_ ?_ ?_)
    | exact List.Sublist.refl _
    | exact List.filter_sublist)

theorem State.heldSteps_kept {x0 s : State} (d t : Nat) (x : LateSet) (hk : Kept x0 s) : Kept x0 (State.heldSteps s d t x) := by
  unfold State.heldSteps
  repeat' (first
    | with_reducible assumption
    | intro _
    | ((fail_if_success have := @kf0); refine id ?_; extract_lets +onlyGivenNames u1; (refine (fun kf0 : ∀ u a1, Kept x0 u → Kept x0 (u1 u a1) => ?_) ?_) <;> [clear_value u1; subst u1])
    | (refine id ?_; extract_lets +onlyGivenNames u1; first
        | ((refine (fun k1 : Kept x0 u1 => ?_) ?_) <;> [clear_value u1; subst u1])
        | clear_value u1)
    | with_reducible apply kf0
    | with_reducible apply State.stage_kept
    | with_reducible apply State.setDie_kept
    | with_reducible apply State.windowRanges_kept
    | with_reducible apply State.dieFences_kept
    | with_reducible apply State.leaveModules_kept
    | with_reducible apply State.applyWhere_kept
    | with_reducible apply State.castOn_kept
    | with_reducible apply State.writeList_kept
    | with_reducible apply Kept.foldl
    | split
    | (unfold Kept; dsimp only; with_reducible refine Kept.sub ?_ ?_ ?_ ?_ ?_ ?_ ?_ ?_ ?_)
    | exact List.Sublist.refl _
    | exact List.filter_sublist)

end Sys2Proof.Machine
end

