-- ==== Sys2Proof/Laws/KeepChangeSet.lean ====
section
/-!
SUPPORT. What the operations of Machine/ChangeSet.lean keep (Laws/Keep.lean).
-/

namespace Sys2Proof.Machine

theorem State.asWritten_kept {x0 s : State} (l : List (Nat × Nat)) (hk : Kept x0 s) : Kept x0 (State.asWritten s l) := by
  unfold State.asWritten
  repeat' (first
    | with_reducible assumption
    | intro _
    | with_reducible apply State.w32_kept
    | with_reducible apply Kept.foldl)

theorem State.planWaits_kept {x0 s : State} (hk : Kept x0 s) : Kept x0 (State.planWaits s) := by
  unfold State.planWaits
  repeat' (first
    | with_reducible assumption
    | intro _
    | (refine id ?_; extract_lets +onlyGivenNames u1; clear_value u1)
    | with_reducible apply State.sf32_kept
    | with_reducible apply Kept.foldl
    | ((with_reducible apply Kept.ite) <;> intro _))

theorem changeSet_kept {x0 s : State} (d : Desc) (list placement : HostRead) (hk : Kept x0 s) : Kept x0 (changeSet d list placement s) := by
  unfold changeSet
  repeat' (first
    | with_reducible assumption
    | intro _
    | ((fail_if_success have := @kf0); refine id ?_; extract_lets +onlyGivenNames u1; (refine (fun kf0 : ∀ a0, Kept x0 (u1 a0) => ?_) ?_) <;> [clear_value u1; subst u1])
    | (refine id ?_; extract_lets +onlyGivenNames u1; clear_value u1)
    | with_reducible apply kf0
    | with_reducible apply State.complete_kept
    | with_reducible apply State.planWaits_kept
    | ((with_reducible apply Kept.ite) <;> intro _)
    | split
    | (unfold Kept; dsimp only; with_reducible apply Kept.fold))

theorem plannedTimeout_kept {x0 s : State} (hk : Kept x0 s) : Kept x0 (plannedTimeout s) := by
  unfold plannedTimeout
  repeat' (first
    | with_reducible assumption
    | with_reducible apply State.planWaits_kept
    | with_reducible apply State.complete_kept
    | split
    | (unfold Kept; dsimp only; with_reducible apply Kept.fold))

theorem State.stageSet_kept {x0 s : State} (direct : List Nat) (c : ChangeSet) (hk : Kept x0 s) : Kept x0 (State.stageSet s direct c) := by
  unfold State.stageSet
  repeat' (first
    | with_reducible assumption
    | intro _
    | (refine id ?_; extract_lets +onlyGivenNames u1; clear_value u1)
    | with_reducible apply State.writeStaged_kept
    | with_reducible apply State.resolved_kept
    | with_reducible apply Kept.foldl)

theorem execChangeSet_kept {x0 s t0 : State} (d : Desc) (list placement : HostRead) (hk : Kept x0 s) (ek : execChangeSet d list placement s = .next t0) : Kept x0 t0 := by
  unfold execChangeSet at ek
  rw [Host.Outcome.next.injEq] at ek; subst ek
  all_goals
    repeat' (first
      | with_reducible assumption
      | with_reducible apply changeSet_kept)

theorem execPlannedTimeout_kept {x0 s t0 : State} (hk : Kept x0 s) (ek : execPlannedTimeout s = .next t0) : Kept x0 t0 := by
  unfold execPlannedTimeout at ek
  rw [Host.Outcome.next.injEq] at ek; subst ek
  all_goals
    repeat' (first
      | with_reducible assumption
      | with_reducible apply plannedTimeout_kept)

end Sys2Proof.Machine
end

