-- ==== Sys2Proof/Laws/KeepHour.lean ====
section
/-!
SUPPORT. What the operations of Machine/Hour.lean keep (Laws/Keep.lean).
-/

namespace Sys2Proof.Machine

theorem State.linkPrimaries_kept {x0 s : State} (hk : Kept x0 s) : Kept x0 (State.linkPrimaries s) := by
  unfold State.linkPrimaries
  repeat' (first
    | with_reducible assumption
    | intro _
    | with_reducible apply State.sendLink_kept
    | with_reducible apply Kept.foldl
    | ((with_reducible apply Kept.ite) <;> intro _))

theorem State.announceHour_kept {x0 s : State} (k : Nat) (hk : Kept x0 s) : Kept x0 (State.announceHour s k) := by
  unfold State.announceHour
  repeat' (first
    | with_reducible assumption
    | with_reducible apply State.linkPrimaries_kept
    | ((with_reducible apply Kept.ite) <;> intro _)
    | (unfold Kept; dsimp only; with_reducible apply Kept.fold))

theorem State.resumeCore_kept {x0 s : State} (k g : Nat) (hk : Kept x0 s) : Kept x0 (State.resumeCore s k g) := by
  unfold State.resumeCore
  repeat' (first
    | with_reducible assumption
    | (refine id ?_; extract_lets +onlyGivenNames u1; clear_value u1)
    | with_reducible apply State.refill_kept
    | ((with_reducible apply Kept.ite) <;> intro _)
    | split)

theorem State.dieWindow_kept {x0 s : State} (d k t w : Nat) (hk : Kept x0 s) : Kept x0 (State.dieWindow s d k t w) := by
  unfold State.dieWindow
  repeat' (first
    | with_reducible assumption
    | intro _
    | (refine id ?_; extract_lets +onlyGivenNames u1; first
        | ((refine (fun k1 : Kept x0 u1 => ?_) ?_) <;> [clear_value u1; subst u1])
        | clear_value u1)
    | with_reducible apply State.routeMsg_kept
    | with_reducible apply State.scrubWindow_kept
    | with_reducible apply State.setDie_kept
    | with_reducible apply State.resumeCore_kept
    | with_reducible apply Kept.foldl)

theorem State.lateWindow_kept {x0 s : State} (d k t : Nat) (hk : Kept x0 s) : Kept x0 (State.lateWindow s d k t) := by
  unfold State.lateWindow
  repeat' (first
    | with_reducible assumption
    | (refine id ?_; extract_lets +onlyGivenNames u1; first
        | ((refine (fun k1 : Kept x0 u1 => ?_) ?_) <;> [clear_value u1; subst u1])
        | clear_value u1)
    | with_reducible apply State.dieWindow_kept
    | with_reducible apply State.heldSteps_kept
    | split
    | (unfold Kept; dsimp only; with_reducible apply Kept.fold))

theorem State.sendArrive_kept {x0 s : State} (d k : Nat) (hk : Kept x0 s) : Kept x0 (State.sendArrive s d k) := by
  unfold State.sendArrive
  repeat' (first
    | with_reducible assumption
    | with_reducible apply State.routeMsg_kept)

theorem State.lateArrival_kept {x0 s : State} (hk : Kept x0 s) : Kept x0 (State.lateArrival s) := by
  unfold State.lateArrival
  repeat' (first
    | with_reducible assumption
    | with_reducible apply State.count32_kept
    | with_reducible apply State.set32_kept)

theorem State.firstArrival_kept {x0 s : State} (k : Nat) (hk : Kept x0 s) : Kept x0 (State.firstArrival s k) := by
  unfold State.firstArrival
  repeat' (first
    | with_reducible assumption
    | intro _
    | (refine id ?_; extract_lets +onlyGivenNames u1; first
        | ((refine (fun k1 : Kept x0 u1 => ?_) ?_) <;> [clear_value u1; subst u1])
        | clear_value u1)
    | with_reducible apply State.setServe_kept
    | with_reducible apply Kept.foldl
    | ((with_reducible apply Kept.ite) <;> intro _)
    | split
    | (unfold Kept; dsimp only; with_reducible apply Kept.fold))

theorem hourArrival_kept {x0 s : State} (d t : Nat) (hk : Kept x0 s) : Kept x0 (hourArrival d t s) := by
  unfold hourArrival
  repeat' (first
    | with_reducible assumption
    | (refine id ?_; extract_lets +onlyGivenNames u1; first
        | ((refine (fun k1 : Kept x0 u1 => ?_) ?_) <;> [clear_value u1; subst u1])
        | clear_value u1)
    | with_reducible apply State.announceHour_kept
    | with_reducible apply State.firstArrival_kept
    | with_reducible apply State.meshTo_kept
    | with_reducible apply State.setDie_kept
    | with_reducible apply State.sendArrive_kept
    | with_reducible apply State.lateWindow_kept
    | with_reducible apply State.latchDie_kept
    | with_reducible apply State.lateArrival_kept
    | ((with_reducible apply Kept.ite) <;> intro _))

theorem State.adopt_kept {x0 s : State} (k : Nat) (hk : Kept x0 s) : Kept x0 (State.adopt s k) := by
  unfold State.adopt
  repeat' (first
    | with_reducible assumption
    | intro _
    | (refine id ?_; extract_lets +onlyGivenNames u1; first
        | ((refine (fun k1 : Kept x0 u1 => ?_) ?_) <;> [clear_value u1; subst u1])
        | clear_value u1)
    | with_reducible apply State.setDie_kept
    | with_reducible apply State.setPart_kept
    | with_reducible apply State.setServe_kept
    | with_reducible apply State.w64_kept
    | with_reducible apply Kept.foldl
    | ((with_reducible apply Kept.ite) <;> intro _)
    | split
    | (unfold Kept; dsimp only; with_reducible apply Kept.fold))

theorem State.checkSlip_kept {x0 s : State} (k : Nat) (hk : Kept x0 s) : Kept x0 (State.checkSlip s k) := by
  unfold State.checkSlip
  repeat' (first
    | with_reducible assumption
    | with_reducible apply State.slip_kept
    | ((with_reducible apply Kept.ite) <;> intro _))

theorem State.takeSnapshot_kept {x0 s : State} (k fin n : Nat) (hk : Kept x0 s) : Kept x0 (State.takeSnapshot s k fin n) := by
  unfold State.takeSnapshot
  repeat' (first
    | with_reducible assumption
    | intro _
    | (refine id ?_; extract_lets +onlyGivenNames u1; first
        | ((refine (fun k1 : Kept x0 u1 => ?_) ?_) <;> [clear_value u1; subst u1])
        | clear_value u1)
    | with_reducible apply State.setPart_kept
    | with_reducible apply State.setDie_kept
    | with_reducible apply Kept.foldl
    | ((with_reducible apply Kept.ite) <;> intro _)
    | (unfold Kept; dsimp only; with_reducible apply Kept.fold))

theorem State.awaitRewrite_kept {x0 s : State} (n : Nat) (hk : Kept x0 s) : Kept x0 (State.awaitRewrite s n) := by
  unfold State.awaitRewrite
  repeat' (first
    | with_reducible assumption
    | with_reducible apply State.setPart_kept
    | with_reducible apply State.set32_kept
    | ((with_reducible apply Kept.ite) <;> intro _))

theorem State.armCore_kept {x0 s : State} (k g pos : Nat) (hk : Kept x0 s) : Kept x0 (State.armCore s k g pos) := by
  unfold State.armCore
  repeat' (first
    | with_reducible assumption
    | with_reducible apply State.setSeqPos_kept
    | with_reducible apply State.setSeqState_kept
    | with_reducible apply State.setCore_kept)

theorem State.joinFor_kept {x0 s : State} (n : Nat) (hk : Kept x0 s) : Kept x0 (State.joinFor s n) := by
  unfold State.joinFor
  repeat' (first
    | with_reducible assumption
    | ((with_reducible apply Kept.ite) <;> intro _)
    | (unfold Kept; dsimp only; with_reducible apply Kept.fold))

theorem State.serveFrom_kept {x0 s : State} (k n : Nat) (hk : Kept x0 s) : Kept x0 (State.serveFrom s k n) := by
  unfold State.serveFrom
  repeat' (first
    | with_reducible assumption
    | with_reducible apply State.setServe_kept
    | split)

theorem State.startCore_kept {x0 s : State} (k g : Nat) (hk : Kept x0 s) : Kept x0 (State.startCore s k g) := by
  unfold State.startCore
  repeat' (first
    | with_reducible assumption
    | (refine id ?_; extract_lets +onlyGivenNames u1; ((refine (fun k1 : Kept x0 u1 => ?_) ?_) <;> [clear_value u1; subst u1]))
    | with_reducible apply State.idleCore_kept
    | with_reducible apply State.setSeqState_kept
    | with_reducible apply State.armCore_kept
    | ((with_reducible apply Kept.ite) <;> intro _))

theorem State.runStart_kept {x0 s : State} (k n : Nat) (hk : Kept x0 s) : Kept x0 (State.runStart s k n) := by
  unfold State.runStart
  repeat' (first
    | with_reducible assumption
    | intro _
    | with_reducible apply State.joinFor_kept
    | with_reducible apply State.serveFrom_kept
    | with_reducible apply State.startCore_kept
    | with_reducible apply State.setPstate_kept
    | with_reducible apply Kept.foldl)

theorem State.startAtHour_kept {x0 s : State} (k n : Nat) (hk : Kept x0 s) : Kept x0 (State.startAtHour s k n).1 := by
  unfold State.startAtHour
  repeat' (first
    | with_reducible assumption
    | (refine id ?_; extract_lets +onlyGivenNames u1; clear_value u1)
    | with_reducible apply State.completeStart_kept
    | with_reducible apply State.runStart_kept
    | split)

theorem State.reissueStep_kept {x0 s : State} (k n : Nat) (hk : Kept x0 s) : Kept x0 (State.reissueStep s k n) := by
  unfold State.reissueStep
  repeat' (first
    | with_reducible assumption
    | intro _
    | (refine id ?_; extract_lets +onlyGivenNames u1; first
        | ((refine (fun k1 : Kept x0 u1 => ?_) ?_) <;> [clear_value u1; subst u1])
        | clear_value u1)
    | with_reducible apply State.restoreFlags_kept
    | with_reducible apply State.emptyCore_kept
    | with_reducible apply State.setCore_kept
    | with_reducible apply State.armCore_kept
    | with_reducible apply State.setSeqPos_kept
    | with_reducible apply State.setSeqState_kept
    | with_reducible apply State.clr32_kept
    | with_reducible apply State.serveReissue_kept
    | with_reducible apply State.setPart_kept
    | with_reducible apply Kept.foldl
    | ((with_reducible apply Kept.ite) <;> intro _)
    | split
    | (unfold Kept; dsimp only; with_reducible apply Kept.fold))

theorem State.openSlots_kept {x0 s : State} (hk : Kept x0 s) : Kept x0 (State.openSlots s) := by
  unfold State.openSlots
  repeat' (first
    | with_reducible assumption
    | (unfold Kept; dsimp only; with_reducible apply Kept.fold))

theorem State.windowServe_kept {x0 s : State} (k tick fin : Nat) (ends joined : List Nat)
    (hk : Kept x0 s) : Kept x0 (State.windowServe s k tick fin ends joined) := by
  unfold State.windowServe
  repeat' (first
    | with_reducible assumption
    | intro _
    | (refine id ?_; extract_lets +onlyGivenNames u1; ((refine (fun k1 : Kept x0 u1 => ?_) ?_) <;> [clear_value u1; subst u1]))
    | with_reducible apply State.serveWindow_kept
    | with_reducible apply State.applyPatches_kept
    | with_reducible apply State.openSlots_kept
    | with_reducible apply State.returnLoaded_kept
    | with_reducible apply State.startCore_kept
    | with_reducible apply State.startAtHour_kept
    | with_reducible apply State.reissueStep_kept
    | with_reducible apply State.awaitRewrite_kept
    | with_reducible apply State.takeSnapshot_kept
    | with_reducible apply State.serveLevels_kept
    | with_reducible apply Kept.foldl
    | with_reducible apply Kept.foldl_fst
    | ((with_reducible apply Kept.ite) <;> intro _))

theorem State.openWindow_kept {x0 s : State} (k : Nat) (x : HourIn) (t : Nat) (hk : Kept x0 s) : Kept x0 (State.openWindow s k x t) := by
  unfold State.openWindow
  repeat' (first
    | with_reducible assumption
    | intro _
    | (refine id ?_; extract_lets +onlyGivenNames u1; first
        | ((refine (fun k1 : Kept x0 u1 => ?_) ?_) <;> [clear_value u1; subst u1])
        | clear_value u1)
    | with_reducible apply State.complete_kept
    | with_reducible apply State.stageSet_kept
    | with_reducible apply State.closeInterval_kept
    | with_reducible apply State.reportDigests_kept
    | with_reducible apply State.w64_kept
    | with_reducible apply State.holdBack_kept
    | with_reducible apply State.windowPower_kept
    | with_reducible apply State.windowFences_kept
    | with_reducible apply State.windowParts_kept
    | with_reducible apply State.windowServe_kept
    | with_reducible apply State.windowRest_kept
    | with_reducible apply State.windowRoutes_kept
    | with_reducible apply State.windowQuotas_kept
    | with_reducible apply State.sf32_kept
    | with_reducible apply State.planWaits_kept
    | with_reducible apply State.dieWindow_kept
    | with_reducible apply State.publish_kept
    | with_reducible apply State.linkPrimaries_kept
    | with_reducible apply Kept.foldl
    | ((with_reducible apply Kept.ite) <;> intro _)
    | (unfold Kept; dsimp only; with_reducible apply Kept.fold))

theorem swapWindowOpen_kept {x0 s : State} (x : HourIn) (t : Nat) (hk : Kept x0 s) : Kept x0 (swapWindowOpen x t s) := by
  unfold swapWindowOpen
  repeat' (first
    | with_reducible assumption
    | (refine id ?_; extract_lets +onlyGivenNames u1; first
        | ((refine (fun k1 : Kept x0 u1 => ?_) ?_) <;> [clear_value u1; subst u1])
        | clear_value u1)
    | with_reducible apply State.adopt_kept
    | with_reducible apply State.openWindow_kept
    | with_reducible apply State.checkSlip_kept
    | ((with_reducible apply Kept.ite) <;> intro _)
    | (unfold Kept; dsimp only; with_reducible apply Kept.fold))

theorem arriveLimitExpiry_kept {x0 s : State} (x : HourIn) (t : Nat) (hk : Kept x0 s) : Kept x0 (arriveLimitExpiry x t s) := by
  unfold arriveLimitExpiry
  repeat' (first
    | with_reducible assumption
    | intro _
    | (refine id ?_; extract_lets +onlyGivenNames u1; first
        | ((refine (fun k1 : Kept x0 u1 => ?_) ?_) <;> [clear_value u1; subst u1])
        | clear_value u1)
    | with_reducible apply State.adopt_kept
    | with_reducible apply State.lateArrival_kept
    | with_reducible apply State.openWindow_kept
    | with_reducible apply State.checkSlip_kept
    | with_reducible apply Kept.foldl
    | ((with_reducible apply Kept.ite) <;> intro _)
    | (unfold Kept; dsimp only; with_reducible apply Kept.fold))

theorem execHourArrival_kept {x0 s t0 : State} (d : Fin 8) (t : Nat) (hk : Kept x0 s) (ek : execHourArrival d t s = .next t0) : Kept x0 t0 := by
  unfold execHourArrival at ek
  rw [Host.Outcome.next.injEq] at ek; subst ek
  all_goals
    repeat' (first
      | with_reducible assumption
      | with_reducible apply hourArrival_kept)

theorem execSwapWindowOpen_kept {x0 s t0 : State} (x : HourIn) (t : Nat) (hk : Kept x0 s) (ek : execSwapWindowOpen x t s = .next t0) : Kept x0 t0 := by
  unfold execSwapWindowOpen at ek
  rw [Host.Outcome.next.injEq] at ek; subst ek
  all_goals
    repeat' (first
      | with_reducible assumption
      | with_reducible apply swapWindowOpen_kept)

theorem execArriveLimitExpiry_kept {x0 s t0 : State} (x : HourIn) (t : Nat) (hk : Kept x0 s) (ek : execArriveLimitExpiry x t s = .next t0) : Kept x0 t0 := by
  unfold execArriveLimitExpiry at ek
  rw [Host.Outcome.next.injEq] at ek; subst ek
  all_goals
    repeat' (first
      | with_reducible assumption
      | with_reducible apply arriveLimitExpiry_kept)

end Sys2Proof.Machine
end

