-- ==== Sys2Proof/Laws/KeepJtag.lean ====
section
/-!
SUPPORT. What the operations of Machine/Jtag.lean keep (Laws/Keep.lean).
-/

namespace Sys2Proof.Machine

theorem State.captured_kept {x0 s : State} (bits data : Nat) (hk : Kept x0 s) : Kept x0 (State.captured s bits data) := by
  unfold State.captured
  repeat' (first
    | with_reducible assumption
    | with_reducible apply State.emit_kept)

theorem State.selectIr_kept {x0 s : State} (op : Nat) (hk : Kept x0 s) : Kept x0 (State.selectIr s op) := by
  unfold State.selectIr
  repeat' (first
    | with_reducible assumption
    | with_reducible apply State.freePins_kept
    | with_reducible apply State.clr32_kept
    | with_reducible apply State.captured_kept
    | (unfold Kept; dsimp only; with_reducible apply Kept.fold))

theorem State.bypass_kept {x0 s : State} (hk : Kept x0 s) : Kept x0 (State.bypass s) := by
  unfold State.bypass
  repeat' (first
    | with_reducible assumption
    | with_reducible apply State.captured_kept
    | with_reducible apply State.selectIr_kept)

theorem State.closedIr_kept {x0 s : State} (hk : Kept x0 s) : Kept x0 (State.closedIr s) := by
  unfold State.closedIr
  repeat' (first
    | with_reducible assumption
    | with_reducible apply State.set32_kept
    | with_reducible apply State.bypass_kept)

theorem State.debugIr_kept {x0 s : State} (op : Nat) (act : State → State) (hact : ∀ u, Kept x0 u → Kept x0 (act u))
    (hk : Kept x0 s) : Kept x0 (State.debugIr s op act) := by
  unfold State.debugIr
  repeat' (first
    | with_reducible assumption
    | with_reducible apply hact
    | with_reducible apply State.selectIr_kept
    | with_reducible apply State.closedIr_kept
    | ((with_reducible apply Kept.ite) <;> intro _))

theorem trstN_kept {x0 s : State} (hk : Kept x0 s) : Kept x0 (trstN s) := by
  unfold trstN
  repeat' (first
    | with_reducible assumption
    | with_reducible apply State.freePins_kept
    | with_reducible apply State.clr32_kept
    | (unfold Kept; dsimp only; with_reducible apply Kept.fold))

theorem State.pinIr_kept {x0 s : State} (op : Nat) (act : State → State) (hact : ∀ u, Kept x0 u → Kept x0 (act u))
    (hk : Kept x0 s) : Kept x0 (State.pinIr s op act) := by
  unfold State.pinIr
  repeat' (first
    | with_reducible assumption
    | with_reducible apply State.captured_kept
    | (refine id ?_; extract_lets +onlyGivenNames u1; ((refine (fun k1 : Kept x0 u1 => ?_) ?_) <;> [clear_value u1; subst u1]))
    | with_reducible apply hact
    | with_reducible apply State.set32_kept
    | with_reducible apply State.selectIr_kept
    | with_reducible apply State.emit_kept
    | with_reducible apply State.bypass_kept
    | ((with_reducible apply Kept.ite) <;> intro _))

theorem State.scanCells_kept {x0 s : State} (levels cells : Nat) (hk : Kept x0 s) : Kept x0 (State.scanCells s levels cells) := by
  unfold State.scanCells
  repeat' (first
    | with_reducible assumption
    | (refine id ?_; extract_lets +onlyGivenNames u1; first
        | ((refine (fun k1 : Kept x0 u1 => ?_) ?_) <;> [clear_value u1; subst u1])
        | clear_value u1)
    | with_reducible apply State.captured_kept
    | (unfold Kept; dsimp only; with_reducible apply Kept.fold))

theorem statusRead_kept {x0 s : State} (shift : Nat) (hk : Kept x0 s) : Kept x0 (statusRead shift s) := by
  unfold statusRead
  repeat' (first
    | with_reducible assumption
    | (refine id ?_; extract_lets +onlyGivenNames u1; ((refine (fun k1 : Kept x0 u1 => ?_) ?_) <;> [clear_value u1; subst u1]))
    | with_reducible apply State.selectIr_kept
    | with_reducible apply State.writeReg_kept
    | with_reducible apply State.captured_kept)

theorem journalRead_kept {x0 s : State} (index : Nat) (hk : Kept x0 s) : Kept x0 (journalRead index s) := by
  unfold journalRead
  repeat' (first
    | with_reducible assumption
    | (refine id ?_; extract_lets +onlyGivenNames u1; first
        | ((refine (fun k1 : Kept x0 u1 => ?_) ?_) <;> [clear_value u1; subst u1])
        | clear_value u1)
    | with_reducible apply State.selectIr_kept
    | with_reducible apply State.captured_kept
    | with_reducible apply State.drawn_kept
    | (unfold Kept; dsimp only; with_reducible apply Kept.fold))

theorem meterRead_kept {x0 s : State} (sel : Nat) (hk : Kept x0 s) : Kept x0 (meterRead sel s) := by
  unfold meterRead
  repeat' (first
    | with_reducible assumption
    | (refine id ?_; extract_lets +onlyGivenNames u1; first
        | ((refine (fun k1 : Kept x0 u1 => ?_) ?_) <;> [clear_value u1; subst u1])
        | clear_value u1)
    | with_reducible apply State.selectIr_kept
    | with_reducible apply State.captured_kept
    | with_reducible apply State.drawn_kept
    | (unfold Kept; dsimp only; with_reducible apply Kept.fold))

theorem debugChallenge_kept {x0 s : State} (hk : Kept x0 s) : Kept x0 (debugChallenge s) := by
  unfold debugChallenge
  repeat' (first
    | with_reducible assumption
    | (refine id ?_; extract_lets +onlyGivenNames u1; first
        | ((refine (fun k1 : Kept x0 u1 => ?_) ?_) <;> [clear_value u1; subst u1])
        | clear_value u1)
    | with_reducible apply State.closedIr_kept
    | with_reducible apply State.selectIr_kept
    | with_reducible apply State.captured_kept
    | with_reducible apply State.drawWide_kept
    | ((with_reducible apply Kept.ite) <;> intro _)
    | (unfold Kept; dsimp only; with_reducible apply Kept.fold))

theorem debugResponse_kept {x0 s : State} (bytes : List Byte) (hk : Kept x0 s) : Kept x0 (debugResponse bytes s) := by
  unfold debugResponse
  repeat' (first
    | with_reducible assumption
    | (refine id ?_; extract_lets +onlyGivenNames u1; first
        | ((refine (fun k1 : Kept x0 u1 => ?_) ?_) <;> [clear_value u1; subst u1])
        | clear_value u1)
    | with_reducible apply State.closedIr_kept
    | with_reducible apply State.selectIr_kept
    | with_reducible apply State.eraseKeys_kept
    | with_reducible apply State.stopForAlarm_kept
    | with_reducible apply State.sf32_kept
    | ((with_reducible apply Kept.ite) <;> intro _)
    | (unfold Kept; dsimp only; with_reducible apply Kept.fold))

theorem jtagAccess_kept {x0 s : State} (window : Nat) (hk : Kept x0 s) : Kept x0 (jtagAccess window s) := by
  unfold jtagAccess
  repeat' (first
    | with_reducible assumption
    | intro _
    | (refine id ?_; extract_lets +onlyGivenNames u1; first
        | ((refine (fun k1 : Kept x0 u1 => ?_) ?_) <;> [clear_value u1; subst u1])
        | clear_value u1)
    | with_reducible apply State.debugIr_kept
    | with_reducible apply State.drawn_kept
    | with_reducible apply State.captured_kept
    | ((with_reducible apply Kept.ite) <;> intro _)
    | (unfold Kept; dsimp only; with_reducible apply Kept.fold))

theorem jtagAccessComplete_kept {x0 s : State} (t tick : Nat) (hk : Kept x0 s) : Kept x0 (jtagAccessComplete t tick s) := by
  unfold jtagAccessComplete
  repeat' (first
    | with_reducible assumption
    | intro _
    | ((fail_if_success have := @kf0); refine id ?_; extract_lets +onlyGivenNames u1; (refine (fun kf0 : ∀ u a1 a2, Kept x0 u → Kept x0 (u1 u a1 a2) => ?_) ?_) <;> [clear_value u1; subst u1])
    | with_reducible apply kf0
    | with_reducible apply State.set32_kept
    | with_reducible apply State.w64_kept
    | with_reducible apply State.putDevice_kept
    | with_reducible apply State.getDevice_kept
    | ((with_reducible apply Kept.ite) <;> intro _)
    | split
    | (unfold Kept; dsimp only; with_reducible apply Kept.fold))

theorem dieBist_kept {x0 s : State} (x : Nat) (hk : Kept x0 s) : Kept x0 (dieBist x s) := by
  unfold dieBist
  repeat' (first
    | with_reducible assumption
    | intro _
    | ((fail_if_success have := @kf0); refine id ?_; extract_lets +onlyGivenNames u1; (refine (fun kf0 : ∀ u a1, Kept x0 u → Kept x0 (u1 u a1) => ?_) ?_) <;> [clear_value u1; subst u1])
    | (refine id ?_; extract_lets +onlyGivenNames u1; first
        | ((refine (fun k1 : Kept x0 u1 => ?_) ?_) <;> [clear_value u1; subst u1])
        | clear_value u1)
    | with_reducible apply kf0
    | with_reducible apply State.debugIr_kept
    | with_reducible apply State.captured_kept
    | with_reducible apply State.set32_kept
    | ((with_reducible apply Kept.ite) <;> intro _)
    | (unfold Kept; dsimp only; with_reducible apply Kept.fold))

theorem dieBistComplete_kept {x0 s : State} (pass : Bool) (t time : Nat) (hk : Kept x0 s) : Kept x0 (dieBistComplete pass t time s) := by
  unfold dieBistComplete
  repeat' (first
    | with_reducible assumption
    | (refine id ?_; extract_lets +onlyGivenNames u1; first
        | ((refine (fun k1 : Kept x0 u1 => ?_) ?_) <;> [clear_value u1; subst u1])
        | clear_value u1)
    | with_reducible apply State.journal_kept
    | with_reducible apply State.resetDomain_kept
    | split
    | (unfold Kept; dsimp only; with_reducible apply Kept.fold)
    | (unfold Kept; dsimp only; with_reducible refine Kept.sub ?_ ?_ ?_ ?_ ?_ ?_ ?_ ?_ ?_)
    | exact List.Sublist.refl _
    | exact List.filter_sublist)

theorem State.production_kept {x0 s t0 : State} (name : String) (hk : Kept x0 s) (ek : s.production name = .next t0) : Kept x0 t0 := by
  unfold State.production at ek
  split at ek
  · rw [Host.Outcome.next.injEq] at ek
    exact ek ▸ State.closedIr_kept hk
  · simp only [reduceCtorEq] at ek

theorem execTrstN_kept {x0 s t0 : State} (hk : Kept x0 s) (ek : execTrstN s = .next t0) : Kept x0 t0 := by
  unfold execTrstN at ek
  rw [Host.Outcome.next.injEq] at ek; subst ek
  all_goals
    repeat' (first
      | with_reducible assumption
      | with_reducible apply trstN_kept)

theorem execJtagBypass_kept {x0 s t0 : State} (hk : Kept x0 s) (ek : execJtagBypass s = .next t0) : Kept x0 t0 := by
  unfold execJtagBypass at ek
  rw [Host.Outcome.next.injEq] at ek; subst ek
  all_goals
    repeat' (first
      | with_reducible assumption
      | with_reducible apply State.bypass_kept)

theorem execIdcode_kept {x0 s t0 : State} (hk : Kept x0 s) (ek : execIdcode s = .next t0) : Kept x0 t0 := by
  unfold execIdcode at ek
  rw [Host.Outcome.next.injEq] at ek; subst ek
  all_goals
    repeat' (first
      | with_reducible assumption
      | with_reducible apply State.captured_kept
      | with_reducible apply State.selectIr_kept)

theorem execSamplePreload_kept {x0 s t0 : State} (levels cells : BitVec 1212) (hk : Kept x0 s) (ek : execSamplePreload levels cells s = .next t0) : Kept x0 t0 := by
  unfold execSamplePreload at ek
  rw [Host.Outcome.next.injEq] at ek; subst ek
  all_goals
    repeat' (first
      | with_reducible assumption
      | with_reducible apply State.scanCells_kept
      | with_reducible apply State.selectIr_kept)

theorem execExtest_kept {x0 s t0 : State} (levels cells : BitVec 1212) (hk : Kept x0 s) (ek : execExtest levels cells s = .next t0) : Kept x0 t0 := by
  unfold execExtest at ek
  rw [Host.Outcome.next.injEq] at ek; subst ek
  all_goals
    repeat' (first
      | with_reducible assumption
      | intro _
      | with_reducible apply State.pinIr_kept
      | with_reducible apply State.scanCells_kept)

theorem execClamp_kept {x0 s t0 : State} (hk : Kept x0 s) (ek : execClamp s = .next t0) : Kept x0 t0 := by
  unfold execClamp at ek
  rw [Host.Outcome.next.injEq] at ek; subst ek
  all_goals
    repeat' (first
      | with_reducible assumption
      | intro _
      | with_reducible apply State.pinIr_kept
      | with_reducible apply State.captured_kept)

theorem execHighz_kept {x0 s t0 : State} (hk : Kept x0 s) (ek : execHighz s = .next t0) : Kept x0 t0 := by
  unfold execHighz at ek
  rw [Host.Outcome.next.injEq] at ek; subst ek
  all_goals
    repeat' (first
      | with_reducible assumption
      | intro _
      | with_reducible apply State.pinIr_kept
      | with_reducible apply State.captured_kept)

theorem execExtestPulse_kept {x0 s t0 : State} (levels cells : BitVec 1212) (hk : Kept x0 s) (ek : execExtestPulse levels cells s = .next t0) : Kept x0 t0 := by
  unfold execExtestPulse at ek
  rw [Host.Outcome.next.injEq] at ek; subst ek
  all_goals
    repeat' (first
      | with_reducible assumption
      | intro _
      | with_reducible apply State.pinIr_kept
      | with_reducible apply State.scanCells_kept)

theorem execExtestTrain_kept {x0 s t0 : State} (levels cells : BitVec 1212) (hk : Kept x0 s) (ek : execExtestTrain levels cells s = .next t0) : Kept x0 t0 := by
  unfold execExtestTrain at ek
  rw [Host.Outcome.next.injEq] at ek; subst ek
  all_goals
    repeat' (first
      | with_reducible assumption
      | intro _
      | with_reducible apply State.pinIr_kept
      | with_reducible apply State.scanCells_kept)

theorem execStatusRead_kept {x0 s t0 : State} (shift : BitVec 32) (hk : Kept x0 s) (ek : execStatusRead shift s = .next t0) : Kept x0 t0 := by
  unfold execStatusRead at ek
  rw [Host.Outcome.next.injEq] at ek; subst ek
  all_goals
    repeat' (first
      | with_reducible assumption
      | with_reducible apply statusRead_kept)

theorem execJournalRead_kept {x0 s t0 : State} (index : Fin 1024) (hk : Kept x0 s) (ek : execJournalRead index s = .next t0) : Kept x0 t0 := by
  unfold execJournalRead at ek
  rw [Host.Outcome.next.injEq] at ek; subst ek
  all_goals
    repeat' (first
      | with_reducible assumption
      | with_reducible apply journalRead_kept)

theorem execMeterRead_kept {x0 s t0 : State} (sel : BitVec 24) (hk : Kept x0 s) (ek : execMeterRead sel s = .next t0) : Kept x0 t0 := by
  unfold execMeterRead at ek
  rw [Host.Outcome.next.injEq] at ek; subst ek
  all_goals
    repeat' (first
      | with_reducible assumption
      | with_reducible apply meterRead_kept)

theorem execDebugChallenge_kept {x0 s t0 : State} (hk : Kept x0 s) (ek : execDebugChallenge s = .next t0) : Kept x0 t0 := by
  unfold execDebugChallenge at ek
  rw [Host.Outcome.next.injEq] at ek; subst ek
  all_goals
    repeat' (first
      | with_reducible assumption
      | with_reducible apply debugChallenge_kept)

theorem execDebugResponse_kept {x0 s t0 : State} (bytes : List Byte) (hk : Kept x0 s) (ek : execDebugResponse bytes s = .next t0) : Kept x0 t0 := by
  unfold execDebugResponse at ek
  rw [Host.Outcome.next.injEq] at ek; subst ek
  all_goals
    repeat' (first
      | with_reducible assumption
      | with_reducible apply debugResponse_kept)

theorem execJtagAccess_kept {x0 s t0 : State} (window : BitVec 108) (hk : Kept x0 s) (ek : execJtagAccess window s = .next t0) : Kept x0 t0 := by
  unfold execJtagAccess at ek
  rw [Host.Outcome.next.injEq] at ek; subst ek
  all_goals
    repeat' (first
      | with_reducible assumption
      | with_reducible apply jtagAccess_kept)

theorem execJtagAccessComplete_kept {x0 s t0 : State} (t tick : Nat) (hk : Kept x0 s) (ek : execJtagAccessComplete t tick s = .next t0) : Kept x0 t0 := by
  unfold execJtagAccessComplete at ek
  rw [Host.Outcome.next.injEq] at ek; subst ek
  all_goals
    repeat' (first
      | with_reducible assumption
      | with_reducible apply jtagAccessComplete_kept)

theorem execDieBist_kept {x0 s t0 : State} (x : BitVec 16) (hk : Kept x0 s) (ek : execDieBist x s = .next t0) : Kept x0 t0 := by
  unfold execDieBist at ek
  rw [Host.Outcome.next.injEq] at ek; subst ek
  all_goals
    repeat' (first
      | with_reducible assumption
      | with_reducible apply dieBist_kept)

theorem execDieBistComplete_kept {x0 s t0 : State} (pass : Bool) (t time : Nat) (hk : Kept x0 s) (ek : execDieBistComplete pass t time s = .next t0) : Kept x0 t0 := by
  unfold execDieBistComplete at ek
  rw [Host.Outcome.next.injEq] at ek; subst ek
  all_goals
    repeat' (first
      | with_reducible assumption
      | with_reducible apply dieBistComplete_kept)

theorem execScanIod_kept {x0 s t0 : State} (hk : Kept x0 s) (ek : execScanIod s = .next t0) : Kept x0 t0 := State.production_kept _ hk ek

theorem execScanCd_kept {x0 s t0 : State} (hk : Kept x0 s) (ek : execScanCd s = .next t0) : Kept x0 t0 := State.production_kept _ hk ek

theorem execFuseProd_kept {x0 s t0 : State} (hk : Kept x0 s) (ek : execFuseProd s = .next t0) : Kept x0 t0 := State.production_kept _ hk ek

end Sys2Proof.Machine
end

