-- ==== Sys2Proof/Laws/Reg.lean ====
section
/-!
SUPPORT. Laws of register words and fields: what was written reads back, every other word and field reads as before.
-/

namespace Sys2Proof.Machine

variable (s : State)

theorem State.r32_lt (a : Nat) : s.r32 a < 2 ^ 32 := (Tab.get Reg.resetWord s.regs a).isLt

/-- Words are equal where the register tables are. -/
theorem State.r32_congr (t : State) (h : t.regs = s.regs) (a : Nat) : t.r32 a = s.r32 a := by unfold State.r32; rw [h]

@[simp] theorem State.r32_w32_same (a v : Nat) : (s.w32 a v).r32 a = v % 2 ^ 32 := by
  unfold State.r32
  rw [State.w32_regs, Tab.get_put_same]
  exact BitVec.toNat_ofNat v 32

theorem State.r32_w32_other (a v b : Nat) (h : b ≠ a) : (s.w32 a v).r32 b = s.r32 b := by
  unfold State.r32
  rw [State.w32_regs, Tab.get_put_other _ _ _ _ _ h]

theorem State.r32_w32 (a v b : Nat) : (s.w32 a v).r32 b = if b = a then v % 2 ^ 32 else s.r32 b := by
  split
  · next h => subst h; exact State.r32_w32_same s b v
  · next h => exact State.r32_w32_other s a v b h

theorem State.r64_lt (a : Nat) : s.r64 a < 2 ^ 64 := by
  have h1 := s.r32_lt a
  have h2 := s.r32_lt (a + 4)
  unfold State.r64
  omega

@[simp] theorem State.r64_w64_same (a v : Nat) : (s.w64 a v).r64 a = v % 2 ^ 64 := by
  unfold State.r64 State.w64
  rw [State.r32_w32_other _ _ _ a (by omega), State.r32_w32_same, State.r32_w32_same]
  have h : (2 : Nat) ^ 64 = 2 ^ 32 * 2 ^ 32 := by norm_num
  rw [h, Nat.mod_mul, Nat.mod_mod]

theorem State.r32_w64_other (a v b : Nat) (h : b ≠ a) (h4 : b ≠ a + 4) : (s.w64 a v).r32 b = s.r32 b := by
  unfold State.w64
  rw [State.r32_w32_other _ _ _ _ h4, State.r32_w32_other _ _ _ _ h]

theorem State.r64_w64_other (a v b : Nat) (h : b + 8 ≤ a ∨ a + 8 ≤ b) : (s.w64 a v).r64 b = s.r64 b := by
  unfold State.r64
  rw [State.r32_w64_other _ _ _ _ (by omega) (by omega), State.r32_w64_other _ _ _ _ (by omega) (by omega)]

theorem State.r64_w32_other (a v b : Nat) (h : b ≠ a) (h4 : b + 4 ≠ a) : (s.w32 a v).r64 b = s.r64 b := by
  unfold State.r64
  rw [State.r32_w32_other _ _ _ _ h, State.r32_w32_other _ _ _ _ h4]

/-! ## Fields -/

theorem State.r32_sf32_same (a lo w x : Nat) (h : lo + w ≤ 32) : (s.sf32 a lo w x).r32 a = setFld (s.r32 a) lo w x := by
  unfold State.sf32
  rw [State.r32_w32_same]
  exact Nat.mod_eq_of_lt (setFld_lt _ _ _ _ _ (s.r32_lt a) h)

theorem State.r32_sf32_other (a lo w x b : Nat) (h : b ≠ a) : (s.sf32 a lo w x).r32 b = s.r32 b := State.r32_w32_other s _ _ _ h

theorem State.f32_sf32_same (a lo w x : Nat) (h : lo + w ≤ 32) : (s.sf32 a lo w x).f32 a lo w = x % 2 ^ w := by
  unfold State.f32
  rw [State.r32_sf32_same _ _ _ _ _ h, fld_setFld_same]

theorem State.f32_sf32_field (a lo w x lo' w' : Nat) (h : lo + w ≤ 32) (hd : lo + w ≤ lo' ∨ lo' + w' ≤ lo) :
    (s.sf32 a lo w x).f32 a lo' w' = s.f32 a lo' w' := by
  unfold State.f32
  rw [State.r32_sf32_same _ _ _ _ _ h, fld_setFld_other _ _ _ _ _ _ hd]

theorem State.f32_sf32_other (a lo w x b lo' w' : Nat) (h : b ≠ a) : (s.sf32 a lo w x).f32 b lo' w' = s.f32 b lo' w' := by
  unfold State.f32
  rw [State.r32_sf32_other _ _ _ _ _ _ h]

theorem State.r64_sf64_same (a lo w x : Nat) (h : lo + w ≤ 64) : (s.sf64 a lo w x).r64 a = setFld (s.r64 a) lo w x := by
  unfold State.sf64
  rw [State.r64_w64_same]
  exact Nat.mod_eq_of_lt (setFld_lt _ _ _ _ _ (s.r64_lt a) h)

theorem State.f64_sf64_same (a lo w x : Nat) (h : lo + w ≤ 64) : (s.sf64 a lo w x).f64 a lo w = x % 2 ^ w := by
  unfold State.f64
  rw [State.r64_sf64_same _ _ _ _ _ h, fld_setFld_same]

theorem State.f64_sf64_field (a lo w x lo' w' : Nat) (h : lo + w ≤ 64) (hd : lo + w ≤ lo' ∨ lo' + w' ≤ lo) :
    (s.sf64 a lo w x).f64 a lo' w' = s.f64 a lo' w' := by
  unfold State.f64
  rw [State.r64_sf64_same _ _ _ _ _ h, fld_setFld_other _ _ _ _ _ _ hd]

theorem State.r32_sf64_other (a lo w x b : Nat) (h : b ≠ a) (h4 : b ≠ a + 4) : (s.sf64 a lo w x).r32 b = s.r32 b :=
  State.r32_w64_other s _ _ _ h h4

theorem State.f64_sf64_other (a lo w x b lo' w' : Nat) (h : b + 8 ≤ a ∨ a + 8 ≤ b) : (s.sf64 a lo w x).f64 b lo' w' = s.f64 b lo' w' := by
  unfold State.f64 State.sf64
  rw [State.r64_w64_other _ _ _ _ h]

/-- A bit set reads 1. -/
theorem State.bitAt_set32_same (a i : Nat) (h : i < 32) : bitAt ((s.set32 a i).r32 a) i = true := by
  unfold State.set32 bitAt
  rw [State.r32_sf32_same _ _ _ _ _ (by omega), fld_setFld_same]
  rfl

theorem State.bitAt_clr32_same (a i : Nat) (h : i < 32) : bitAt ((s.clr32 a i).r32 a) i = false := by
  unfold State.clr32 bitAt
  rw [State.r32_sf32_same _ _ _ _ _ (by omega), fld_setFld_same]
  rfl

theorem State.bitAt_set32_other (a i j : Nat) (h : i < 32) (hj : j ≠ i) : bitAt ((s.set32 a i).r32 a) j = bitAt (s.r32 a) j := by
  unfold State.set32 bitAt
  rw [State.r32_sf32_same _ _ _ _ _ (by omega), fld_setFld_other _ _ _ _ _ _ (by omega)]

theorem State.r32_set32_other (a i b : Nat) (h : b ≠ a) : (s.set32 a i).r32 b = s.r32 b := State.r32_sf32_other s _ _ _ _ _ h

theorem State.r32_clr32_other (a i b : Nat) (h : b ≠ a) : (s.clr32 a i).r32 b = s.r32 b := State.r32_sf32_other s _ _ _ _ _ h

/-! ## Wide registers -/

theorem State.r32_wWide_other (a n v b : Nat) (h : b < a ∨ a + 4 * n ≤ b) : (s.wWide a n v).r32 b = s.r32 b := by
  induction n generalizing s a v with
  | zero => rfl
  | succ n ih =>
    unfold State.wWide
    rw [ih _ _ _ (by omega), State.r32_w32_other _ _ _ _ (by omega)]

theorem State.rWide_congr (t : State) (a n : Nat) (h : ∀ b, a ≤ b → b < a + 4 * n → t.r32 b = s.r32 b) : t.rWide a n = s.rWide a n := by
  induction n generalizing a with
  | zero => rfl
  | succ n ih =>
    unfold State.rWide
    rw [h a (by omega) (by omega), ih (a + 4) (fun b h1 h2 => h b (by omega) (by omega))]

theorem State.rWide_wWide_same (a n v : Nat) : (s.wWide a n v).rWide a n = v % 2 ^ (32 * n) := by
  induction n generalizing s a v with
  | zero => simp [State.rWide, Nat.mod_one]
  | succ n ih =>
    unfold State.rWide State.wWide
    rw [ih, State.r32_wWide_other _ _ _ _ _ (by omega), State.r32_w32_same, Nat.mod_mod]
    have e : 32 * (n + 1) = 32 + 32 * n := by ring
    rw [e, Nat.pow_add, Nat.mod_mul]

/-! ## Updates that write no register -/

@[simp] theorem State.r32_stage (a v b : Nat) : (s.stage a v).r32 b = s.r32 b := rfl
@[simp] theorem State.r32_unstage (a b : Nat) : (s.unstage a).r32 b = s.r32 b := rfl
@[simp] theorem State.r32_wrByte (a : Nat) (x : Byte) (b : Nat) : (s.wrByte a x).r32 b = s.r32 b := rfl
@[simp] theorem State.r32_setPoison (a : Nat) (x : Bool) (b : Nat) : (s.setPoison a x).r32 b = s.r32 b := rfl
@[simp] theorem State.r32_putFlag (k : Nat) (x : Bool) (b : Nat) : (s.putFlag k x).r32 b = s.r32 b := rfl
@[simp] theorem State.r32_putCtr (k v b : Nat) : (s.putCtr k v).r32 b = s.r32 b := rfl
@[simp] theorem State.r32_setDie (d : Nat) (v : DieState) (b : Nat) : (s.setDie d v).r32 b = s.r32 b := rfl
@[simp] theorem State.r32_setPart (n : Nat) (v : PartState) (b : Nat) : (s.setPart n v).r32 b = s.r32 b := rfl
@[simp] theorem State.r32_setCore (g : Nat) (v : CoreState) (b : Nat) : (s.setCore g v).r32 b = s.r32 b := rfl
@[simp] theorem State.r32_setRing (rid : Nat) (v : Ring) (b : Nat) : (s.setRing rid v).r32 b = s.r32 b := rfl
@[simp] theorem State.r32_setModEnd (k : Nat) (v : ModEnd) (b : Nat) : (s.setModEnd k v).r32 b = s.r32 b := rfl
@[simp] theorem State.r32_setPort (p : Nat) (v : Port) (b : Nat) : (s.setPort p v).r32 b = s.r32 b := rfl
@[simp] theorem State.r32_setMeter (m : Meter) (b : Nat) : (s.setMeter m).r32 b = s.r32 b := rfl
@[simp] theorem State.r32_setServe (n : Nat) (v : Option Serve) (b : Nat) : (s.setServe n v).r32 b = s.r32 b := rfl
@[simp] theorem State.r32_setRequests (l : List Request) (b : Nat) : (s.setRequests l).r32 b = s.r32 b := rfl
@[simp] theorem State.r32_setRamp (d : Nat) (r : Ramp) (b : Nat) : (s.setRamp d r).r32 b = s.r32 b := rfl
@[simp] theorem State.r32_emit (o : Output) (b : Nat) : (s.emit o).r32 b = s.r32 b := rfl
@[simp] theorem State.r32_drawn (b : Nat) : s.drawn.r32 b = s.r32 b := rfl

/-! ## Staged words -/

@[simp] theorem State.stagedAt_stage_same (a v : Nat) : (s.stage a v).stagedAt a = some (BitVec.ofNat 32 v) := by
  unfold State.stagedAt
  rw [State.stage_staged, Tab.get_put_same]

theorem State.stagedAt_stage_other (a v b : Nat) (h : b ≠ a) : (s.stage a v).stagedAt b = s.stagedAt b := by
  unfold State.stagedAt
  rw [State.stage_staged, Tab.get_put_other _ _ _ _ _ h]

@[simp] theorem State.stagedAt_unstage_same (a : Nat) : (s.unstage a).stagedAt a = none := by
  unfold State.stagedAt
  rw [State.unstage_staged, Tab.get_put_same]

theorem State.stagedAt_unstage_other (a b : Nat) (h : b ≠ a) : (s.unstage a).stagedAt b = s.stagedAt b := by
  unfold State.stagedAt
  rw [State.unstage_staged, Tab.get_put_other _ _ _ _ _ h]

/-! ## Register updates write registers alone -/

theorem State.w32_shape (a v : Nat) : s.w32 a v = { s with regs := (s.w32 a v).regs } := rfl
theorem State.w64_shape (a v : Nat) : s.w64 a v = { s with regs := (s.w64 a v).regs } := rfl
theorem State.sf32_shape (a lo w x : Nat) : s.sf32 a lo w x = { s with regs := (s.sf32 a lo w x).regs } := rfl
theorem State.sf64_shape (a lo w x : Nat) : s.sf64 a lo w x = { s with regs := (s.sf64 a lo w x).regs } := rfl
theorem State.set32_shape (a i : Nat) : s.set32 a i = { s with regs := (s.set32 a i).regs } := rfl
theorem State.clr32_shape (a i : Nat) : s.clr32 a i = { s with regs := (s.clr32 a i).regs } := rfl
theorem State.orBits_shape (a b : Nat) : s.orBits a b = { s with regs := (s.orBits a b).regs } := rfl
theorem State.count32_shape (a lo w k : Nat) : s.count32 a lo w k = { s with regs := (s.count32 a lo w k).regs } := rfl
theorem State.count64_shape (a lo w k : Nat) : s.count64 a lo w k = { s with regs := (s.count64 a lo w k).regs } := rfl

theorem State.wWide_shape (a n v : Nat) : s.wWide a n v = { s with regs := (s.wWide a n v).regs } := by
  induction n generalizing s a v with
  | zero => rfl
  | succ n ih =>
    unfold State.wWide
    rw [ih, State.w32_shape]

end Sys2Proof.Machine
end

