-- ==== Sys2Proof/Laws/Send.lean ====
section
/-!
SUPPORT. What the shared operations that send something leave alone: messages, completions, events and error captures touch their
own registers, the rings and queues of the host interface, and what has been sent.
-/

namespace Sys2Proof.Machine

variable (s : State)

/-! ## sendVector -/

theorem State.sendVector_shape (v : Nat) : ∃ r o, s.sendVector v = { s with regs := r, out := s.out ++ o } := by
  unfold State.sendVector
  split
  · exact ⟨s.regs, [], by simp⟩
  · split
    · exact ⟨(s.set32 _ _).regs, [], by rw [List.append_nil]; rfl⟩
    · exact ⟨s.regs, [.msix v], rfl⟩

@[simp] theorem State.sendVector_staged (v : Nat) : (s.sendVector v).staged = s.staged := by
  obtain ⟨_, _, e⟩ := State.sendVector_shape s v
  rw [e]

@[simp] theorem State.sendVector_mem (v : Nat) : (s.sendVector v).mem = s.mem := by
  obtain ⟨_, _, e⟩ := State.sendVector_shape s v
  rw [e]

@[simp] theorem State.sendVector_poison (v : Nat) : (s.sendVector v).poison = s.poison := by
  obtain ⟨_, _, e⟩ := State.sendVector_shape s v
  rw [e]

@[simp] theorem State.sendVector_flags (v : Nat) : (s.sendVector v).flags = s.flags := by
  obtain ⟨_, _, e⟩ := State.sendVector_shape s v
  rw [e]

@[simp] theorem State.sendVector_ctrs (v : Nat) : (s.sendVector v).ctrs = s.ctrs := by
  obtain ⟨_, _, e⟩ := State.sendVector_shape s v
  rw [e]

@[simp] theorem State.sendVector_host (v : Nat) : (s.sendVector v).host = s.host := by
  obtain ⟨_, _, e⟩ := State.sendVector_shape s v
  rw [e]

@[simp] theorem State.sendVector_hour (v : Nat) : (s.sendVector v).hour = s.hour := by
  obtain ⟨_, _, e⟩ := State.sendVector_shape s v
  rw [e]

@[simp] theorem State.sendVector_dies (v : Nat) : (s.sendVector v).dies = s.dies := by
  obtain ⟨_, _, e⟩ := State.sendVector_shape s v
  rw [e]

@[simp] theorem State.sendVector_parts (v : Nat) : (s.sendVector v).parts = s.parts := by
  obtain ⟨_, _, e⟩ := State.sendVector_shape s v
  rw [e]

@[simp] theorem State.sendVector_cores (v : Nat) : (s.sendVector v).cores = s.cores := by
  obtain ⟨_, _, e⟩ := State.sendVector_shape s v
  rw [e]

@[simp] theorem State.sendVector_selfErr (v : Nat) : (s.sendVector v).selfErr = s.selfErr := by
  obtain ⟨_, _, e⟩ := State.sendVector_shape s v
  rw [e]

@[simp] theorem State.sendVector_soft (v : Nat) : (s.sendVector v).soft = s.soft := by
  obtain ⟨_, _, e⟩ := State.sendVector_shape s v
  rw [e]

@[simp] theorem State.sendVector_past (v : Nat) : (s.sendVector v).past = s.past := by
  obtain ⟨_, _, e⟩ := State.sendVector_shape s v
  rw [e]

@[simp] theorem State.sendVector_mods (v : Nat) : (s.sendVector v).mods = s.mods := by
  obtain ⟨_, _, e⟩ := State.sendVector_shape s v
  rw [e]

@[simp] theorem State.sendVector_groups (v : Nat) : (s.sendVector v).groups = s.groups := by
  obtain ⟨_, _, e⟩ := State.sendVector_shape s v
  rw [e]

@[simp] theorem State.sendVector_combines (v : Nat) : (s.sendVector v).combines = s.combines := by
  obtain ⟨_, _, e⟩ := State.sendVector_shape s v
  rw [e]

@[simp] theorem State.sendVector_ports (v : Nat) : (s.sendVector v).ports = s.ports := by
  obtain ⟨_, _, e⟩ := State.sendVector_shape s v
  rw [e]

@[simp] theorem State.sendVector_txns (v : Nat) : (s.sendVector v).txns = s.txns := by
  obtain ⟨_, _, e⟩ := State.sendVector_shape s v
  rw [e]

@[simp] theorem State.sendVector_quarantine (v : Nat) : (s.sendVector v).quarantine = s.quarantine := by
  obtain ⟨_, _, e⟩ := State.sendVector_shape s v
  rw [e]

@[simp] theorem State.sendVector_items (v : Nat) : (s.sendVector v).items = s.items := by
  obtain ⟨_, _, e⟩ := State.sendVector_shape s v
  rw [e]

@[simp] theorem State.sendVector_txnWaits (v : Nat) : (s.sendVector v).txnWaits = s.txnWaits := by
  obtain ⟨_, _, e⟩ := State.sendVector_shape s v
  rw [e]

@[simp] theorem State.sendVector_txnLast (v : Nat) : (s.sendVector v).txnLast = s.txnLast := by
  obtain ⟨_, _, e⟩ := State.sendVector_shape s v
  rw [e]

@[simp] theorem State.sendVector_answered (v : Nat) : (s.sendVector v).answered = s.answered := by
  obtain ⟨_, _, e⟩ := State.sendVector_shape s v
  rw [e]

@[simp] theorem State.sendVector_config (v : Nat) : (s.sendVector v).config = s.config := by
  obtain ⟨_, _, e⟩ := State.sendVector_shape s v
  rw [e]

@[simp] theorem State.sendVector_meter (v : Nat) : (s.sendVector v).meter = s.meter := by
  obtain ⟨_, _, e⟩ := State.sendVector_shape s v
  rw [e]

@[simp] theorem State.sendVector_sec (v : Nat) : (s.sendVector v).sec = s.sec := by
  obtain ⟨_, _, e⟩ := State.sendVector_shape s v
  rw [e]

@[simp] theorem State.sendVector_power (v : Nat) : (s.sendVector v).power = s.power := by
  obtain ⟨_, _, e⟩ := State.sendVector_shape s v
  rw [e]

@[simp] theorem State.sendVector_dawn (v : Nat) : (s.sendVector v).dawn = s.dawn := by
  obtain ⟨_, _, e⟩ := State.sendVector_shape s v
  rw [e]

@[simp] theorem State.sendVector_jtag (v : Nat) : (s.sendVector v).jtag = s.jtag := by
  obtain ⟨_, _, e⟩ := State.sendVector_shape s v
  rw [e]

@[simp] theorem State.sendVector_loader (v : Nat) : (s.sendVector v).loader = s.loader := by
  obtain ⟨_, _, e⟩ := State.sendVector_shape s v
  rw [e]

@[simp] theorem State.sendVector_serving (v : Nat) : (s.sendVector v).serving = s.serving := by
  obtain ⟨_, _, e⟩ := State.sendVector_shape s v
  rw [e]

@[simp] theorem State.sendVector_freeCount (v : Nat) : (s.sendVector v).freeCount = s.freeCount := by
  obtain ⟨_, _, e⟩ := State.sendVector_shape s v
  rw [e]

@[simp] theorem State.sendVector_pending (v : Nat) : (s.sendVector v).pending = s.pending := by
  obtain ⟨_, _, e⟩ := State.sendVector_shape s v
  rw [e]

/-! ## announce -/

theorem State.announce_shape (rid : Nat) : ∃ r o h, s.announce rid = { s with regs := r, out := s.out ++ o, host := h } := by
  unfold State.announce
  simp only []
  split
  · exact ⟨s.regs, [], (s.setRing rid _).host, by rw [List.append_nil]; rfl⟩
  · obtain ⟨r, o, e⟩ := State.sendVector_shape (s.setRing rid { s.ring rid with heldOff := decide (0 < (s.ring rid).holdoff), unannounced := false })
      (s.ring rid).vector
    exact ⟨r, o, _, e⟩

@[simp] theorem State.announce_staged (rid : Nat) : (s.announce rid).staged = s.staged := by
  obtain ⟨_, _, _, e⟩ := State.announce_shape s rid
  rw [e]

@[simp] theorem State.announce_mem (rid : Nat) : (s.announce rid).mem = s.mem := by
  obtain ⟨_, _, _, e⟩ := State.announce_shape s rid
  rw [e]

@[simp] theorem State.announce_poison (rid : Nat) : (s.announce rid).poison = s.poison := by
  obtain ⟨_, _, _, e⟩ := State.announce_shape s rid
  rw [e]

@[simp] theorem State.announce_flags (rid : Nat) : (s.announce rid).flags = s.flags := by
  obtain ⟨_, _, _, e⟩ := State.announce_shape s rid
  rw [e]

@[simp] theorem State.announce_ctrs (rid : Nat) : (s.announce rid).ctrs = s.ctrs := by
  obtain ⟨_, _, _, e⟩ := State.announce_shape s rid
  rw [e]

@[simp] theorem State.announce_hour (rid : Nat) : (s.announce rid).hour = s.hour := by
  obtain ⟨_, _, _, e⟩ := State.announce_shape s rid
  rw [e]

@[simp] theorem State.announce_dies (rid : Nat) : (s.announce rid).dies = s.dies := by
  obtain ⟨_, _, _, e⟩ := State.announce_shape s rid
  rw [e]

@[simp] theorem State.announce_parts (rid : Nat) : (s.announce rid).parts = s.parts := by
  obtain ⟨_, _, _, e⟩ := State.announce_shape s rid
  rw [e]

@[simp] theorem State.announce_cores (rid : Nat) : (s.announce rid).cores = s.cores := by
  obtain ⟨_, _, _, e⟩ := State.announce_shape s rid
  rw [e]

@[simp] theorem State.announce_selfErr (rid : Nat) : (s.announce rid).selfErr = s.selfErr := by
  obtain ⟨_, _, _, e⟩ := State.announce_shape s rid
  rw [e]

@[simp] theorem State.announce_soft (rid : Nat) : (s.announce rid).soft = s.soft := by
  obtain ⟨_, _, _, e⟩ := State.announce_shape s rid
  rw [e]

@[simp] theorem State.announce_past (rid : Nat) : (s.announce rid).past = s.past := by
  obtain ⟨_, _, _, e⟩ := State.announce_shape s rid
  rw [e]

@[simp] theorem State.announce_mods (rid : Nat) : (s.announce rid).mods = s.mods := by
  obtain ⟨_, _, _, e⟩ := State.announce_shape s rid
  rw [e]

@[simp] theorem State.announce_groups (rid : Nat) : (s.announce rid).groups = s.groups := by
  obtain ⟨_, _, _, e⟩ := State.announce_shape s rid
  rw [e]

@[simp] theorem State.announce_combines (rid : Nat) : (s.announce rid).combines = s.combines := by
  obtain ⟨_, _, _, e⟩ := State.announce_shape s rid
  rw [e]

@[simp] theorem State.announce_ports (rid : Nat) : (s.announce rid).ports = s.ports := by
  obtain ⟨_, _, _, e⟩ := State.announce_shape s rid
  rw [e]

@[simp] theorem State.announce_txns (rid : Nat) : (s.announce rid).txns = s.txns := by
  obtain ⟨_, _, _, e⟩ := State.announce_shape s rid
  rw [e]

@[simp] theorem State.announce_quarantine (rid : Nat) : (s.announce rid).quarantine = s.quarantine := by
  obtain ⟨_, _, _, e⟩ := State.announce_shape s rid
  rw [e]

@[simp] theorem State.announce_items (rid : Nat) : (s.announce rid).items = s.items := by
  obtain ⟨_, _, _, e⟩ := State.announce_shape s rid
  rw [e]

@[simp] theorem State.announce_txnWaits (rid : Nat) : (s.announce rid).txnWaits = s.txnWaits := by
  obtain ⟨_, _, _, e⟩ := State.announce_shape s rid
  rw [e]

@[simp] theorem State.announce_txnLast (rid : Nat) : (s.announce rid).txnLast = s.txnLast := by
  obtain ⟨_, _, _, e⟩ := State.announce_shape s rid
  rw [e]

@[simp] theorem State.announce_answered (rid : Nat) : (s.announce rid).answered = s.answered := by
  obtain ⟨_, _, _, e⟩ := State.announce_shape s rid
  rw [e]

@[simp] theorem State.announce_config (rid : Nat) : (s.announce rid).config = s.config := by
  obtain ⟨_, _, _, e⟩ := State.announce_shape s rid
  rw [e]

@[simp] theorem State.announce_meter (rid : Nat) : (s.announce rid).meter = s.meter := by
  obtain ⟨_, _, _, e⟩ := State.announce_shape s rid
  rw [e]

@[simp] theorem State.announce_sec (rid : Nat) : (s.announce rid).sec = s.sec := by
  obtain ⟨_, _, _, e⟩ := State.announce_shape s rid
  rw [e]

@[simp] theorem State.announce_power (rid : Nat) : (s.announce rid).power = s.power := by
  obtain ⟨_, _, _, e⟩ := State.announce_shape s rid
  rw [e]

@[simp] theorem State.announce_dawn (rid : Nat) : (s.announce rid).dawn = s.dawn := by
  obtain ⟨_, _, _, e⟩ := State.announce_shape s rid
  rw [e]

@[simp] theorem State.announce_jtag (rid : Nat) : (s.announce rid).jtag = s.jtag := by
  obtain ⟨_, _, _, e⟩ := State.announce_shape s rid
  rw [e]

@[simp] theorem State.announce_loader (rid : Nat) : (s.announce rid).loader = s.loader := by
  obtain ⟨_, _, _, e⟩ := State.announce_shape s rid
  rw [e]

@[simp] theorem State.announce_serving (rid : Nat) : (s.announce rid).serving = s.serving := by
  obtain ⟨_, _, _, e⟩ := State.announce_shape s rid
  rw [e]

@[simp] theorem State.announce_freeCount (rid : Nat) : (s.announce rid).freeCount = s.freeCount := by
  obtain ⟨_, _, _, e⟩ := State.announce_shape s rid
  rw [e]

@[simp] theorem State.announce_pending (rid : Nat) : (s.announce rid).pending = s.pending := by
  obtain ⟨_, _, _, e⟩ := State.announce_shape s rid
  rw [e]

/-! ## writeCompl -/

theorem State.writeCompl_shape (cq : Nat) (c : Compl) : ∃ r o h, s.writeCompl cq c = { s with regs := r, out := s.out ++ o, host := h } := by
  unfold State.writeCompl
  simp only []
  split
  · exact ⟨s.regs, [], (s.setRing cq _).host, by rw [List.append_nil]; rfl⟩
  · obtain ⟨r, o, h, e⟩ := State.announce_shape
      ((s.emit (.hostWrite ((s.ring cq).base + 32 * (s.ring cq).tail) 32 (s.complEntry c (s.ring cq).phase))).setRing cq (s.ring cq).wrote) cq
    refine ⟨r, (.hostWrite ((s.ring cq).base + 32 * (s.ring cq).tail) 32 (s.complEntry c (s.ring cq).phase)) :: o, h, ?_⟩
    rw [e]
    simp only [State.setRing_out, State.emit_out, List.append_assoc, List.singleton_append]
    rfl

@[simp] theorem State.writeCompl_staged (cq : Nat) (c : Compl) : (s.writeCompl cq c).staged = s.staged := by
  obtain ⟨_, _, _, e⟩ := State.writeCompl_shape s cq c
  rw [e]

@[simp] theorem State.writeCompl_mem (cq : Nat) (c : Compl) : (s.writeCompl cq c).mem = s.mem := by
  obtain ⟨_, _, _, e⟩ := State.writeCompl_shape s cq c
  rw [e]

@[simp] theorem State.writeCompl_poison (cq : Nat) (c : Compl) : (s.writeCompl cq c).poison = s.poison := by
  obtain ⟨_, _, _, e⟩ := State.writeCompl_shape s cq c
  rw [e]

@[simp] theorem State.writeCompl_flags (cq : Nat) (c : Compl) : (s.writeCompl cq c).flags = s.flags := by
  obtain ⟨_, _, _, e⟩ := State.writeCompl_shape s cq c
  rw [e]

@[simp] theorem State.writeCompl_ctrs (cq : Nat) (c : Compl) : (s.writeCompl cq c).ctrs = s.ctrs := by
  obtain ⟨_, _, _, e⟩ := State.writeCompl_shape s cq c
  rw [e]

@[simp] theorem State.writeCompl_hour (cq : Nat) (c : Compl) : (s.writeCompl cq c).hour = s.hour := by
  obtain ⟨_, _, _, e⟩ := State.writeCompl_shape s cq c
  rw [e]

@[simp] theorem State.writeCompl_dies (cq : Nat) (c : Compl) : (s.writeCompl cq c).dies = s.dies := by
  obtain ⟨_, _, _, e⟩ := State.writeCompl_shape s cq c
  rw [e]

@[simp] theorem State.writeCompl_parts (cq : Nat) (c : Compl) : (s.writeCompl cq c).parts = s.parts := by
  obtain ⟨_, _, _, e⟩ := State.writeCompl_shape s cq c
  rw [e]

@[simp] theorem State.writeCompl_cores (cq : Nat) (c : Compl) : (s.writeCompl cq c).cores = s.cores := by
  obtain ⟨_, _, _, e⟩ := State.writeCompl_shape s cq c
  rw [e]

@[simp] theorem State.writeCompl_selfErr (cq : Nat) (c : Compl) : (s.writeCompl cq c).selfErr = s.selfErr := by
  obtain ⟨_, _, _, e⟩ := State.writeCompl_shape s cq c
  rw [e]

@[simp] theorem State.writeCompl_soft (cq : Nat) (c : Compl) : (s.writeCompl cq c).soft = s.soft := by
  obtain ⟨_, _, _, e⟩ := State.writeCompl_shape s cq c
  rw [e]

@[simp] theorem State.writeCompl_past (cq : Nat) (c : Compl) : (s.writeCompl cq c).past = s.past := by
  obtain ⟨_, _, _, e⟩ := State.writeCompl_shape s cq c
  rw [e]

@[simp] theorem State.writeCompl_mods (cq : Nat) (c : Compl) : (s.writeCompl cq c).mods = s.mods := by
  obtain ⟨_, _, _, e⟩ := State.writeCompl_shape s cq c
  rw [e]

@[simp] theorem State.writeCompl_groups (cq : Nat) (c : Compl) : (s.writeCompl cq c).groups = s.groups := by
  obtain ⟨_, _, _, e⟩ := State.writeCompl_shape s cq c
  rw [e]

@[simp] theorem State.writeCompl_combines (cq : Nat) (c : Compl) : (s.writeCompl cq c).combines = s.combines := by
  obtain ⟨_, _, _, e⟩ := State.writeCompl_shape s cq c
  rw [e]

@[simp] theorem State.writeCompl_ports (cq : Nat) (c : Compl) : (s.writeCompl cq c).ports = s.ports := by
  obtain ⟨_, _, _, e⟩ := State.writeCompl_shape s cq c
  rw [e]

@[simp] theorem State.writeCompl_txns (cq : Nat) (c : Compl) : (s.writeCompl cq c).txns = s.txns := by
  obtain ⟨_, _, _, e⟩ := State.writeCompl_shape s cq c
  rw [e]

@[simp] theorem State.writeCompl_quarantine (cq : Nat) (c : Compl) : (s.writeCompl cq c).quarantine = s.quarantine := by
  obtain ⟨_, _, _, e⟩ := State.writeCompl_shape s cq c
  rw [e]

@[simp] theorem State.writeCompl_items (cq : Nat) (c : Compl) : (s.writeCompl cq c).items = s.items := by
  obtain ⟨_, _, _, e⟩ := State.writeCompl_shape s cq c
  rw [e]

@[simp] theorem State.writeCompl_txnWaits (cq : Nat) (c : Compl) : (s.writeCompl cq c).txnWaits = s.txnWaits := by
  obtain ⟨_, _, _, e⟩ := State.writeCompl_shape s cq c
  rw [e]

@[simp] theorem State.writeCompl_txnLast (cq : Nat) (c : Compl) : (s.writeCompl cq c).txnLast = s.txnLast := by
  obtain ⟨_, _, _, e⟩ := State.writeCompl_shape s cq c
  rw [e]

@[simp] theorem State.writeCompl_answered (cq : Nat) (c : Compl) : (s.writeCompl cq c).answered = s.answered := by
  obtain ⟨_, _, _, e⟩ := State.writeCompl_shape s cq c
  rw [e]

@[simp] theorem State.writeCompl_config (cq : Nat) (c : Compl) : (s.writeCompl cq c).config = s.config := by
  obtain ⟨_, _, _, e⟩ := State.writeCompl_shape s cq c
  rw [e]

@[simp] theorem State.writeCompl_meter (cq : Nat) (c : Compl) : (s.writeCompl cq c).meter = s.meter := by
  obtain ⟨_, _, _, e⟩ := State.writeCompl_shape s cq c
  rw [e]

@[simp] theorem State.writeCompl_sec (cq : Nat) (c : Compl) : (s.writeCompl cq c).sec = s.sec := by
  obtain ⟨_, _, _, e⟩ := State.writeCompl_shape s cq c
  rw [e]

@[simp] theorem State.writeCompl_power (cq : Nat) (c : Compl) : (s.writeCompl cq c).power = s.power := by
  obtain ⟨_, _, _, e⟩ := State.writeCompl_shape s cq c
  rw [e]

@[simp] theorem State.writeCompl_dawn (cq : Nat) (c : Compl) : (s.writeCompl cq c).dawn = s.dawn := by
  obtain ⟨_, _, _, e⟩ := State.writeCompl_shape s cq c
  rw [e]

@[simp] theorem State.writeCompl_jtag (cq : Nat) (c : Compl) : (s.writeCompl cq c).jtag = s.jtag := by
  obtain ⟨_, _, _, e⟩ := State.writeCompl_shape s cq c
  rw [e]

@[simp] theorem State.writeCompl_loader (cq : Nat) (c : Compl) : (s.writeCompl cq c).loader = s.loader := by
  obtain ⟨_, _, _, e⟩ := State.writeCompl_shape s cq c
  rw [e]

@[simp] theorem State.writeCompl_serving (cq : Nat) (c : Compl) : (s.writeCompl cq c).serving = s.serving := by
  obtain ⟨_, _, _, e⟩ := State.writeCompl_shape s cq c
  rw [e]

@[simp] theorem State.writeCompl_freeCount (cq : Nat) (c : Compl) : (s.writeCompl cq c).freeCount = s.freeCount := by
  obtain ⟨_, _, _, e⟩ := State.writeCompl_shape s cq c
  rw [e]

@[simp] theorem State.writeCompl_pending (cq : Nat) (c : Compl) : (s.writeCompl cq c).pending = s.pending := by
  obtain ⟨_, _, _, e⟩ := State.writeCompl_shape s cq c
  rw [e]

/-! ## complete -/

theorem State.complete_shape (rid cmdId status r0 r1 : Nat) :
    ∃ r o h, s.complete rid cmdId status r0 r1 = { s with regs := r, out := s.out ++ o, host := h } := by
  unfold State.complete
  simp only []
  split
  · exact ⟨s.regs, [], s.host, by simp⟩
  · split
    · obtain ⟨r, o, h, e⟩ := State.writeCompl_shape (s.setRing rid { s.ring rid with taken := (s.ring rid).taken.erase cmdId })
        ((s.setRing rid { s.ring rid with taken := (s.ring rid).taken.erase cmdId }).cqOf rid) ⟨rid, cmdId, status, r0, r1⟩
      exact ⟨r, o, h, e⟩
    · exact ⟨s.regs, [], (s.setRing rid _).host, by rw [List.append_nil]; rfl⟩

@[simp] theorem State.complete_staged (rid cmdId status r0 r1 : Nat) : (s.complete rid cmdId status r0 r1).staged = s.staged := by
  obtain ⟨_, _, _, e⟩ := State.complete_shape s rid cmdId status r0 r1
  rw [e]

@[simp] theorem State.complete_mem (rid cmdId status r0 r1 : Nat) : (s.complete rid cmdId status r0 r1).mem = s.mem := by
  obtain ⟨_, _, _, e⟩ := State.complete_shape s rid cmdId status r0 r1
  rw [e]

@[simp] theorem State.complete_poison (rid cmdId status r0 r1 : Nat) : (s.complete rid cmdId status r0 r1).poison = s.poison := by
  obtain ⟨_, _, _, e⟩ := State.complete_shape s rid cmdId status r0 r1
  rw [e]

@[simp] theorem State.complete_flags (rid cmdId status r0 r1 : Nat) : (s.complete rid cmdId status r0 r1).flags = s.flags := by
  obtain ⟨_, _, _, e⟩ := State.complete_shape s rid cmdId status r0 r1
  rw [e]

@[simp] theorem State.complete_ctrs (rid cmdId status r0 r1 : Nat) : (s.complete rid cmdId status r0 r1).ctrs = s.ctrs := by
  obtain ⟨_, _, _, e⟩ := State.complete_shape s rid cmdId status r0 r1
  rw [e]

@[simp] theorem State.complete_hour (rid cmdId status r0 r1 : Nat) : (s.complete rid cmdId status r0 r1).hour = s.hour := by
  obtain ⟨_, _, _, e⟩ := State.complete_shape s rid cmdId status r0 r1
  rw [e]

@[simp] theorem State.complete_dies (rid cmdId status r0 r1 : Nat) : (s.complete rid cmdId status r0 r1).dies = s.dies := by
  obtain ⟨_, _, _, e⟩ := State.complete_shape s rid cmdId status r0 r1
  rw [e]

@[simp] theorem State.complete_parts (rid cmdId status r0 r1 : Nat) : (s.complete rid cmdId status r0 r1).parts = s.parts := by
  obtain ⟨_, _, _, e⟩ := State.complete_shape s rid cmdId status r0 r1
  rw [e]

@[simp] theorem State.complete_cores (rid cmdId status r0 r1 : Nat) : (s.complete rid cmdId status r0 r1).cores = s.cores := by
  obtain ⟨_, _, _, e⟩ := State.complete_shape s rid cmdId status r0 r1
  rw [e]

@[simp] theorem State.complete_selfErr (rid cmdId status r0 r1 : Nat) : (s.complete rid cmdId status r0 r1).selfErr = s.selfErr := by
  obtain ⟨_, _, _, e⟩ := State.complete_shape s rid cmdId status r0 r1
  rw [e]

@[simp] theorem State.complete_soft (rid cmdId status r0 r1 : Nat) : (s.complete rid cmdId status r0 r1).soft = s.soft := by
  obtain ⟨_, _, _, e⟩ := State.complete_shape s rid cmdId status r0 r1
  rw [e]

@[simp] theorem State.complete_past (rid cmdId status r0 r1 : Nat) : (s.complete rid cmdId status r0 r1).past = s.past := by
  obtain ⟨_, _, _, e⟩ := State.complete_shape s rid cmdId status r0 r1
  rw [e]

@[simp] theorem State.complete_mods (rid cmdId status r0 r1 : Nat) : (s.complete rid cmdId status r0 r1).mods = s.mods := by
  obtain ⟨_, _, _, e⟩ := State.complete_shape s rid cmdId status r0 r1
  rw [e]

@[simp] theorem State.complete_groups (rid cmdId status r0 r1 : Nat) : (s.complete rid cmdId status r0 r1).groups = s.groups := by
  obtain ⟨_, _, _, e⟩ := State.complete_shape s rid cmdId status r0 r1
  rw [e]

@[simp] theorem State.complete_combines (rid cmdId status r0 r1 : Nat) : (s.complete rid cmdId status r0 r1).combines = s.combines := by
  obtain ⟨_, _, _, e⟩ := State.complete_shape s rid cmdId status r0 r1
  rw [e]

@[simp] theorem State.complete_ports (rid cmdId status r0 r1 : Nat) : (s.complete rid cmdId status r0 r1).ports = s.ports := by
  obtain ⟨_, _, _, e⟩ := State.complete_shape s rid cmdId status r0 r1
  rw [e]

@[simp] theorem State.complete_txns (rid cmdId status r0 r1 : Nat) : (s.complete rid cmdId status r0 r1).txns = s.txns := by
  obtain ⟨_, _, _, e⟩ := State.complete_shape s rid cmdId status r0 r1
  rw [e]

@[simp] theorem State.complete_quarantine (rid cmdId status r0 r1 : Nat) : (s.complete rid cmdId status r0 r1).quarantine = s.quarantine := by
  obtain ⟨_, _, _, e⟩ := State.complete_shape s rid cmdId status r0 r1
  rw [e]

@[simp] theorem State.complete_items (rid cmdId status r0 r1 : Nat) : (s.complete rid cmdId status r0 r1).items = s.items := by
  obtain ⟨_, _, _, e⟩ := State.complete_shape s rid cmdId status r0 r1
  rw [e]

@[simp] theorem State.complete_txnWaits (rid cmdId status r0 r1 : Nat) : (s.complete rid cmdId status r0 r1).txnWaits = s.txnWaits := by
  obtain ⟨_, _, _, e⟩ := State.complete_shape s rid cmdId status r0 r1
  rw [e]

@[simp] theorem State.complete_txnLast (rid cmdId status r0 r1 : Nat) : (s.complete rid cmdId status r0 r1).txnLast = s.txnLast := by
  obtain ⟨_, _, _, e⟩ := State.complete_shape s rid cmdId status r0 r1
  rw [e]

@[simp] theorem State.complete_answered (rid cmdId status r0 r1 : Nat) : (s.complete rid cmdId status r0 r1).answered = s.answered := by
  obtain ⟨_, _, _, e⟩ := State.complete_shape s rid cmdId status r0 r1
  rw [e]

@[simp] theorem State.complete_config (rid cmdId status r0 r1 : Nat) : (s.complete rid cmdId status r0 r1).config = s.config := by
  obtain ⟨_, _, _, e⟩ := State.complete_shape s rid cmdId status r0 r1
  rw [e]

@[simp] theorem State.complete_meter (rid cmdId status r0 r1 : Nat) : (s.complete rid cmdId status r0 r1).meter = s.meter := by
  obtain ⟨_, _, _, e⟩ := State.complete_shape s rid cmdId status r0 r1
  rw [e]

@[simp] theorem State.complete_sec (rid cmdId status r0 r1 : Nat) : (s.complete rid cmdId status r0 r1).sec = s.sec := by
  obtain ⟨_, _, _, e⟩ := State.complete_shape s rid cmdId status r0 r1
  rw [e]

@[simp] theorem State.complete_power (rid cmdId status r0 r1 : Nat) : (s.complete rid cmdId status r0 r1).power = s.power := by
  obtain ⟨_, _, _, e⟩ := State.complete_shape s rid cmdId status r0 r1
  rw [e]

@[simp] theorem State.complete_dawn (rid cmdId status r0 r1 : Nat) : (s.complete rid cmdId status r0 r1).dawn = s.dawn := by
  obtain ⟨_, _, _, e⟩ := State.complete_shape s rid cmdId status r0 r1
  rw [e]

@[simp] theorem State.complete_jtag (rid cmdId status r0 r1 : Nat) : (s.complete rid cmdId status r0 r1).jtag = s.jtag := by
  obtain ⟨_, _, _, e⟩ := State.complete_shape s rid cmdId status r0 r1
  rw [e]

@[simp] theorem State.complete_loader (rid cmdId status r0 r1 : Nat) : (s.complete rid cmdId status r0 r1).loader = s.loader := by
  obtain ⟨_, _, _, e⟩ := State.complete_shape s rid cmdId status r0 r1
  rw [e]

@[simp] theorem State.complete_serving (rid cmdId status r0 r1 : Nat) : (s.complete rid cmdId status r0 r1).serving = s.serving := by
  obtain ⟨_, _, _, e⟩ := State.complete_shape s rid cmdId status r0 r1
  rw [e]

@[simp] theorem State.complete_freeCount (rid cmdId status r0 r1 : Nat) : (s.complete rid cmdId status r0 r1).freeCount = s.freeCount := by
  obtain ⟨_, _, _, e⟩ := State.complete_shape s rid cmdId status r0 r1
  rw [e]

@[simp] theorem State.complete_pending (rid cmdId status r0 r1 : Nat) : (s.complete rid cmdId status r0 r1).pending = s.pending := by
  obtain ⟨_, _, _, e⟩ := State.complete_shape s rid cmdId status r0 r1
  rw [e]

/-! ## postEvent -/

theorem State.postEvent_shape (type part source data : Nat) :
    ∃ r h, s.postEvent type part source data = { s with regs := r, host := h } := by
  unfold State.postEvent
  simp only []
  rw [State.count64_shape s]
  generalize (s.count64 Reg.hstEvtCount 0 32 1).regs = r
  split
  · exact ⟨r, _, rfl⟩
  · rw [State.set32_shape, State.count64_shape]
    exact ⟨_, _, rfl⟩

@[simp] theorem State.postEvent_staged (type part source data : Nat) : (s.postEvent type part source data).staged = s.staged := by
  obtain ⟨_, _, e⟩ := State.postEvent_shape s type part source data
  rw [e]

@[simp] theorem State.postEvent_mem (type part source data : Nat) : (s.postEvent type part source data).mem = s.mem := by
  obtain ⟨_, _, e⟩ := State.postEvent_shape s type part source data
  rw [e]

@[simp] theorem State.postEvent_poison (type part source data : Nat) : (s.postEvent type part source data).poison = s.poison := by
  obtain ⟨_, _, e⟩ := State.postEvent_shape s type part source data
  rw [e]

@[simp] theorem State.postEvent_flags (type part source data : Nat) : (s.postEvent type part source data).flags = s.flags := by
  obtain ⟨_, _, e⟩ := State.postEvent_shape s type part source data
  rw [e]

@[simp] theorem State.postEvent_ctrs (type part source data : Nat) : (s.postEvent type part source data).ctrs = s.ctrs := by
  obtain ⟨_, _, e⟩ := State.postEvent_shape s type part source data
  rw [e]

@[simp] theorem State.postEvent_hour (type part source data : Nat) : (s.postEvent type part source data).hour = s.hour := by
  obtain ⟨_, _, e⟩ := State.postEvent_shape s type part source data
  rw [e]

@[simp] theorem State.postEvent_dies (type part source data : Nat) : (s.postEvent type part source data).dies = s.dies := by
  obtain ⟨_, _, e⟩ := State.postEvent_shape s type part source data
  rw [e]

@[simp] theorem State.postEvent_parts (type part source data : Nat) : (s.postEvent type part source data).parts = s.parts := by
  obtain ⟨_, _, e⟩ := State.postEvent_shape s type part source data
  rw [e]

@[simp] theorem State.postEvent_cores (type part source data : Nat) : (s.postEvent type part source data).cores = s.cores := by
  obtain ⟨_, _, e⟩ := State.postEvent_shape s type part source data
  rw [e]

@[simp] theorem State.postEvent_selfErr (type part source data : Nat) : (s.postEvent type part source data).selfErr = s.selfErr := by
  obtain ⟨_, _, e⟩ := State.postEvent_shape s type part source data
  rw [e]

@[simp] theorem State.postEvent_soft (type part source data : Nat) : (s.postEvent type part source data).soft = s.soft := by
  obtain ⟨_, _, e⟩ := State.postEvent_shape s type part source data
  rw [e]

@[simp] theorem State.postEvent_past (type part source data : Nat) : (s.postEvent type part source data).past = s.past := by
  obtain ⟨_, _, e⟩ := State.postEvent_shape s type part source data
  rw [e]

@[simp] theorem State.postEvent_mods (type part source data : Nat) : (s.postEvent type part source data).mods = s.mods := by
  obtain ⟨_, _, e⟩ := State.postEvent_shape s type part source data
  rw [e]

@[simp] theorem State.postEvent_groups (type part source data : Nat) : (s.postEvent type part source data).groups = s.groups := by
  obtain ⟨_, _, e⟩ := State.postEvent_shape s type part source data
  rw [e]

@[simp] theorem State.postEvent_combines (type part source data : Nat) : (s.postEvent type part source data).combines = s.combines := by
  obtain ⟨_, _, e⟩ := State.postEvent_shape s type part source data
  rw [e]

@[simp] theorem State.postEvent_ports (type part source data : Nat) : (s.postEvent type part source data).ports = s.ports := by
  obtain ⟨_, _, e⟩ := State.postEvent_shape s type part source data
  rw [e]

@[simp] theorem State.postEvent_txns (type part source data : Nat) : (s.postEvent type part source data).txns = s.txns := by
  obtain ⟨_, _, e⟩ := State.postEvent_shape s type part source data
  rw [e]

@[simp] theorem State.postEvent_quarantine (type part source data : Nat) : (s.postEvent type part source data).quarantine = s.quarantine := by
  obtain ⟨_, _, e⟩ := State.postEvent_shape s type part source data
  rw [e]

@[simp] theorem State.postEvent_items (type part source data : Nat) : (s.postEvent type part source data).items = s.items := by
  obtain ⟨_, _, e⟩ := State.postEvent_shape s type part source data
  rw [e]

@[simp] theorem State.postEvent_txnWaits (type part source data : Nat) : (s.postEvent type part source data).txnWaits = s.txnWaits := by
  obtain ⟨_, _, e⟩ := State.postEvent_shape s type part source data
  rw [e]

@[simp] theorem State.postEvent_txnLast (type part source data : Nat) : (s.postEvent type part source data).txnLast = s.txnLast := by
  obtain ⟨_, _, e⟩ := State.postEvent_shape s type part source data
  rw [e]

@[simp] theorem State.postEvent_answered (type part source data : Nat) : (s.postEvent type part source data).answered = s.answered := by
  obtain ⟨_, _, e⟩ := State.postEvent_shape s type part source data
  rw [e]

@[simp] theorem State.postEvent_config (type part source data : Nat) : (s.postEvent type part source data).config = s.config := by
  obtain ⟨_, _, e⟩ := State.postEvent_shape s type part source data
  rw [e]

@[simp] theorem State.postEvent_meter (type part source data : Nat) : (s.postEvent type part source data).meter = s.meter := by
  obtain ⟨_, _, e⟩ := State.postEvent_shape s type part source data
  rw [e]

@[simp] theorem State.postEvent_sec (type part source data : Nat) : (s.postEvent type part source data).sec = s.sec := by
  obtain ⟨_, _, e⟩ := State.postEvent_shape s type part source data
  rw [e]

@[simp] theorem State.postEvent_power (type part source data : Nat) : (s.postEvent type part source data).power = s.power := by
  obtain ⟨_, _, e⟩ := State.postEvent_shape s type part source data
  rw [e]

@[simp] theorem State.postEvent_dawn (type part source data : Nat) : (s.postEvent type part source data).dawn = s.dawn := by
  obtain ⟨_, _, e⟩ := State.postEvent_shape s type part source data
  rw [e]

@[simp] theorem State.postEvent_jtag (type part source data : Nat) : (s.postEvent type part source data).jtag = s.jtag := by
  obtain ⟨_, _, e⟩ := State.postEvent_shape s type part source data
  rw [e]

@[simp] theorem State.postEvent_loader (type part source data : Nat) : (s.postEvent type part source data).loader = s.loader := by
  obtain ⟨_, _, e⟩ := State.postEvent_shape s type part source data
  rw [e]

@[simp] theorem State.postEvent_serving (type part source data : Nat) : (s.postEvent type part source data).serving = s.serving := by
  obtain ⟨_, _, e⟩ := State.postEvent_shape s type part source data
  rw [e]

@[simp] theorem State.postEvent_freeCount (type part source data : Nat) : (s.postEvent type part source data).freeCount = s.freeCount := by
  obtain ⟨_, _, e⟩ := State.postEvent_shape s type part source data
  rw [e]

@[simp] theorem State.postEvent_out (type part source data : Nat) : (s.postEvent type part source data).out = s.out := by
  obtain ⟨_, _, e⟩ := State.postEvent_shape s type part source data
  rw [e]

@[simp] theorem State.postEvent_pending (type part source data : Nat) : (s.postEvent type part source data).pending = s.pending := by
  obtain ⟨_, _, e⟩ := State.postEvent_shape s type part source data
  rw [e]

/-! ## capture -/

theorem State.capture_shape (addr requester kind : Nat) (w : Bool) :
    ∃ r h, s.capture addr requester kind w = { s with regs := r, host := h } := by
  unfold State.capture
  simp only []
  split
  · rw [State.set32_shape, State.count32_shape]
    exact ⟨_, s.host, rfl⟩
  · obtain ⟨r, h, e⟩ := State.postEvent_shape ((s.w64 Reg.hstErrAddr (addr % 2 ^ 40)).w32 Reg.hstErrInfo
      (2 ^ 31 + requester % 32 * 2 ^ 8 + kind % 16 * 2 ^ 4 + (if w then 1 else 0))) 0x000A 0xFF 8
      (addr % 2 ^ 40 + (2 ^ 31 + requester % 32 * 2 ^ 8 + kind % 16 * 2 ^ 4 + (if w then 1 else 0)) * 2 ^ 64)
    rw [e, State.w64_shape, State.w32_shape]
    exact ⟨r, h, rfl⟩

@[simp] theorem State.capture_staged (addr requester kind : Nat) (w : Bool) : (s.capture addr requester kind w).staged = s.staged := by
  obtain ⟨_, _, e⟩ := State.capture_shape s addr requester kind w
  rw [e]

@[simp] theorem State.capture_mem (addr requester kind : Nat) (w : Bool) : (s.capture addr requester kind w).mem = s.mem := by
  obtain ⟨_, _, e⟩ := State.capture_shape s addr requester kind w
  rw [e]

@[simp] theorem State.capture_poison (addr requester kind : Nat) (w : Bool) : (s.capture addr requester kind w).poison = s.poison := by
  obtain ⟨_, _, e⟩ := State.capture_shape s addr requester kind w
  rw [e]

@[simp] theorem State.capture_flags (addr requester kind : Nat) (w : Bool) : (s.capture addr requester kind w).flags = s.flags := by
  obtain ⟨_, _, e⟩ := State.capture_shape s addr requester kind w
  rw [e]

@[simp] theorem State.capture_ctrs (addr requester kind : Nat) (w : Bool) : (s.capture addr requester kind w).ctrs = s.ctrs := by
  obtain ⟨_, _, e⟩ := State.capture_shape s addr requester kind w
  rw [e]

@[simp] theorem State.capture_hour (addr requester kind : Nat) (w : Bool) : (s.capture addr requester kind w).hour = s.hour := by
  obtain ⟨_, _, e⟩ := State.capture_shape s addr requester kind w
  rw [e]

@[simp] theorem State.capture_dies (addr requester kind : Nat) (w : Bool) : (s.capture addr requester kind w).dies = s.dies := by
  obtain ⟨_, _, e⟩ := State.capture_shape s addr requester kind w
  rw [e]

@[simp] theorem State.capture_parts (addr requester kind : Nat) (w : Bool) : (s.capture addr requester kind w).parts = s.parts := by
  obtain ⟨_, _, e⟩ := State.capture_shape s addr requester kind w
  rw [e]

@[simp] theorem State.capture_cores (addr requester kind : Nat) (w : Bool) : (s.capture addr requester kind w).cores = s.cores := by
  obtain ⟨_, _, e⟩ := State.capture_shape s addr requester kind w
  rw [e]

@[simp] theorem State.capture_selfErr (addr requester kind : Nat) (w : Bool) : (s.capture addr requester kind w).selfErr = s.selfErr := by
  obtain ⟨_, _, e⟩ := State.capture_shape s addr requester kind w
  rw [e]

@[simp] theorem State.capture_soft (addr requester kind : Nat) (w : Bool) : (s.capture addr requester kind w).soft = s.soft := by
  obtain ⟨_, _, e⟩ := State.capture_shape s addr requester kind w
  rw [e]

@[simp] theorem State.capture_past (addr requester kind : Nat) (w : Bool) : (s.capture addr requester kind w).past = s.past := by
  obtain ⟨_, _, e⟩ := State.capture_shape s addr requester kind w
  rw [e]

@[simp] theorem State.capture_mods (addr requester kind : Nat) (w : Bool) : (s.capture addr requester kind w).mods = s.mods := by
  obtain ⟨_, _, e⟩ := State.capture_shape s addr requester kind w
  rw [e]

@[simp] theorem State.capture_groups (addr requester kind : Nat) (w : Bool) : (s.capture addr requester kind w).groups = s.groups := by
  obtain ⟨_, _, e⟩ := State.capture_shape s addr requester kind w
  rw [e]

@[simp] theorem State.capture_combines (addr requester kind : Nat) (w : Bool) : (s.capture addr requester kind w).combines = s.combines := by
  obtain ⟨_, _, e⟩ := State.capture_shape s addr requester kind w
  rw [e]

@[simp] theorem State.capture_ports (addr requester kind : Nat) (w : Bool) : (s.capture addr requester kind w).ports = s.ports := by
  obtain ⟨_, _, e⟩ := State.capture_shape s addr requester kind w
  rw [e]

@[simp] theorem State.capture_txns (addr requester kind : Nat) (w : Bool) : (s.capture addr requester kind w).txns = s.txns := by
  obtain ⟨_, _, e⟩ := State.capture_shape s addr requester kind w
  rw [e]

@[simp] theorem State.capture_quarantine (addr requester kind : Nat) (w : Bool) : (s.capture addr requester kind w).quarantine = s.quarantine := by
  obtain ⟨_, _, e⟩ := State.capture_shape s addr requester kind w
  rw [e]

@[simp] theorem State.capture_items (addr requester kind : Nat) (w : Bool) : (s.capture addr requester kind w).items = s.items := by
  obtain ⟨_, _, e⟩ := State.capture_shape s addr requester kind w
  rw [e]

@[simp] theorem State.capture_txnWaits (addr requester kind : Nat) (w : Bool) : (s.capture addr requester kind w).txnWaits = s.txnWaits := by
  obtain ⟨_, _, e⟩ := State.capture_shape s addr requester kind w
  rw [e]

@[simp] theorem State.capture_txnLast (addr requester kind : Nat) (w : Bool) : (s.capture addr requester kind w).txnLast = s.txnLast := by
  obtain ⟨_, _, e⟩ := State.capture_shape s addr requester kind w
  rw [e]

@[simp] theorem State.capture_answered (addr requester kind : Nat) (w : Bool) : (s.capture addr requester kind w).answered = s.answered := by
  obtain ⟨_, _, e⟩ := State.capture_shape s addr requester kind w
  rw [e]

@[simp] theorem State.capture_config (addr requester kind : Nat) (w : Bool) : (s.capture addr requester kind w).config = s.config := by
  obtain ⟨_, _, e⟩ := State.capture_shape s addr requester kind w
  rw [e]

@[simp] theorem State.capture_meter (addr requester kind : Nat) (w : Bool) : (s.capture addr requester kind w).meter = s.meter := by
  obtain ⟨_, _, e⟩ := State.capture_shape s addr requester kind w
  rw [e]

@[simp] theorem State.capture_sec (addr requester kind : Nat) (w : Bool) : (s.capture addr requester kind w).sec = s.sec := by
  obtain ⟨_, _, e⟩ := State.capture_shape s addr requester kind w
  rw [e]

@[simp] theorem State.capture_power (addr requester kind : Nat) (w : Bool) : (s.capture addr requester kind w).power = s.power := by
  obtain ⟨_, _, e⟩ := State.capture_shape s addr requester kind w
  rw [e]

@[simp] theorem State.capture_dawn (addr requester kind : Nat) (w : Bool) : (s.capture addr requester kind w).dawn = s.dawn := by
  obtain ⟨_, _, e⟩ := State.capture_shape s addr requester kind w
  rw [e]

@[simp] theorem State.capture_jtag (addr requester kind : Nat) (w : Bool) : (s.capture addr requester kind w).jtag = s.jtag := by
  obtain ⟨_, _, e⟩ := State.capture_shape s addr requester kind w
  rw [e]

@[simp] theorem State.capture_loader (addr requester kind : Nat) (w : Bool) : (s.capture addr requester kind w).loader = s.loader := by
  obtain ⟨_, _, e⟩ := State.capture_shape s addr requester kind w
  rw [e]

@[simp] theorem State.capture_serving (addr requester kind : Nat) (w : Bool) : (s.capture addr requester kind w).serving = s.serving := by
  obtain ⟨_, _, e⟩ := State.capture_shape s addr requester kind w
  rw [e]

@[simp] theorem State.capture_freeCount (addr requester kind : Nat) (w : Bool) : (s.capture addr requester kind w).freeCount = s.freeCount := by
  obtain ⟨_, _, e⟩ := State.capture_shape s addr requester kind w
  rw [e]

@[simp] theorem State.capture_out (addr requester kind : Nat) (w : Bool) : (s.capture addr requester kind w).out = s.out := by
  obtain ⟨_, _, e⟩ := State.capture_shape s addr requester kind w
  rw [e]

@[simp] theorem State.capture_pending (addr requester kind : Nat) (w : Bool) : (s.capture addr requester kind w).pending = s.pending := by
  obtain ⟨_, _, e⟩ := State.capture_shape s addr requester kind w
  rw [e]

/-! ## Registers -/

theorem State.r32_sendVector (v b : Nat) (h : b < Reg.msixPba ∨ Reg.msixPba + 0x20 ≤ b) : (s.sendVector v).r32 b = s.r32 b := by
  unfold State.sendVector
  split
  · rfl
  · split
    · exact State.r32_set32_other _ _ _ _ (by omega)
    · rfl

theorem State.r32_announce (rid b : Nat) (h : b < Reg.msixPba ∨ Reg.msixPba + 0x20 ≤ b) : (s.announce rid).r32 b = s.r32 b := by
  unfold State.announce
  simp only []
  split
  · rfl
  · rw [State.r32_sendVector _ _ _ h]; rfl

theorem State.r32_writeCompl (cq : Nat) (c : Compl) (b : Nat) (h : b < Reg.msixPba ∨ Reg.msixPba + 0x20 ≤ b) :
    (s.writeCompl cq c).r32 b = s.r32 b := by
  unfold State.writeCompl
  simp only []
  split
  · rfl
  · rw [State.r32_announce _ _ _ h]; rfl

/-- A completion writes no register but the pending bits. -/
theorem State.r32_complete (rid cmdId status r0 r1 b : Nat) (h : b < Reg.msixPba ∨ Reg.msixPba + 0x20 ≤ b) :
    (s.complete rid cmdId status r0 r1).r32 b = s.r32 b := by
  unfold State.complete
  simp only []
  split
  · rfl
  · split
    · rw [State.r32_writeCompl _ _ _ _ h]; rfl
    · rfl

/-- An event writes HST_EVT_COUNT and HST_STATUS alone. -/
theorem State.r32_postEvent (type part source data b : Nat) (h1 : b ≠ Reg.hstEvtCount) (h2 : b ≠ Reg.hstEvtCount + 4) (h3 : b ≠ Reg.hstStatus) :
    (s.postEvent type part source data).r32 b = s.r32 b := by
  have e1 : ∀ u : State, ∀ lo w k, (u.count64 Reg.hstEvtCount lo w k).r32 b = u.r32 b := fun u lo w k =>
    State.r32_sf64_other u _ _ _ _ _ h1 h2
  have e2 : ∀ u : State, (u.set32 Reg.hstStatus 3).r32 b = u.r32 b := fun u => State.r32_set32_other u _ _ _ h3
  have e3 : ∀ (u : State) (x : HostIf), ({ u with host := x } : State).r32 b = u.r32 b := fun _ _ => rfl
  unfold State.postEvent
  simp only []
  split <;> simp only [e1, e2, e3]

end Sys2Proof.Machine
end

