-- ==== Sys2Proof/Laws/Told.lean ====
section
/-!
SUPPORT. That a completion is written, and what it leaves alone, in the terms of the statements (Safety.lean).
-/

namespace Sys2Proof.Machine

variable (s : State)

theorem State.SameBytes.of_mem {s t : State} (h : t.mem = s.mem) (hp : t.poison = s.poison) : s.SameBytes t := by
  intro a
  unfold State.rdByte State.poisoned
  rw [h, hp]
  exact ⟨rfl, rfl⟩

theorem State.SameBytes.refl : s.SameBytes s := fun _ => ⟨rfl, rfl⟩

theorem State.SameBytes.trans {s t u : State} (h : s.SameBytes t) (g : t.SameBytes u) : s.SameBytes u :=
  fun a => ⟨(g a).1.trans (h a).1, (g a).2.trans (h a).2⟩

theorem State.SameRegsBut.trans {s t u : State} {f : Nat → Bool} (h : s.SameRegsBut t f) (g : t.SameRegsBut u f) : s.SameRegsBut u f :=
  fun a ha => (g a ha).trans (h a ha)

theorem State.SameRegsBut.of_regs {s t : State} {f : Nat → Bool} (h : t.regs = s.regs) : s.SameRegsBut t f :=
  fun a _ => State.r32_congr s t h a

theorem toldRegs_false {a : Nat} (h : toldRegs a = false) : a < Reg.msixPba ∨ Reg.msixPba + 0x20 ≤ a := by
  unfold toldRegs at h
  simp only [Bool.and_eq_false_iff, decide_eq_false_iff_not] at h
  omega

theorem State.sameRegs_complete (rid cmdId status r0 r1 : Nat) : s.SameRegsBut (s.complete rid cmdId status r0 r1) toldRegs :=
  fun _ h => State.r32_complete s _ _ _ _ _ _ (toldRegs_false h)

theorem State.sameRegs_postEvent (type part source data : Nat) : s.SameRegsBut (s.postEvent type part source data) eventRegs := by
  intro a h
  simp only [eventRegs, Bool.or_eq_false_iff, beq_eq_false_iff_ne, ne_eq] at h
  exact State.r32_postEvent s _ _ _ _ _ h.1.1 h.1.2 h.2

theorem State.sameBytes_complete (rid cmdId status r0 r1 : Nat) : s.SameBytes (s.complete rid cmdId status r0 r1) :=
  State.SameBytes.of_mem (by simp) (by simp)

theorem State.sameBytes_postEvent (type part source data : Nat) : s.SameBytes (s.postEvent type part source data) :=
  State.SameBytes.of_mem (by simp) (by simp)

theorem State.sameBytes_capture (addr requester kind : Nat) (w : Bool) : s.SameBytes (s.capture addr requester kind w) :=
  State.SameBytes.of_mem (by simp) (by simp)

/-- A capture writes its own registers and those of its event. -/
theorem State.sameRegs_capture (addr requester kind : Nat) (w : Bool) : s.SameRegsBut (s.capture addr requester kind w) captureRegs := by
  intro a h
  simp only [captureRegs, Bool.or_eq_false_iff, beq_eq_false_iff_ne, ne_eq] at h
  obtain ⟨⟨⟨he, h1⟩, h2⟩, h3⟩ := h
  unfold State.capture
  simp only []
  split
  · unfold State.count32
    rw [State.r32_sf32_other _ _ _ _ _ _ h3, State.r32_set32_other _ _ _ _ h3]
  · rw [State.sameRegs_postEvent _ _ _ _ _ a he, State.r32_w32_other _ _ _ _ h3, State.r32_w64_other _ _ _ _ h1 h2]

theorem State.TellsOnly.refl : s.TellsOnly s := rfl

theorem State.TellsOnly.trans {s t u : State} (h : s.TellsOnly t) (g : t.TellsOnly u) : s.TellsOnly u := by
  unfold State.TellsOnly at *
  rw [g, h]

theorem State.TellsOnly.of_eq {s t : State} (r : Tab W32) (h : HostIf) (o : List Output) (e : t = { s with regs := r, host := h, out := o }) :
    s.TellsOnly t := by
  subst e; rfl

theorem State.tellsOnly_complete (rid cmdId status r0 r1 : Nat) : s.TellsOnly (s.complete rid cmdId status r0 r1) := by
  obtain ⟨r, o, h, e⟩ := State.complete_shape s rid cmdId status r0 r1
  exact State.TellsOnly.of_eq r h _ e

theorem State.tellsOnly_announce (rid : Nat) : s.TellsOnly (s.announce rid) := by
  obtain ⟨r, o, h, e⟩ := State.announce_shape s rid
  exact State.TellsOnly.of_eq r h _ e

theorem State.tellsOnly_postEvent (type part source data : Nat) : s.TellsOnly (s.postEvent type part source data) := by
  obtain ⟨r, h, e⟩ := State.postEvent_shape s type part source data
  exact State.TellsOnly.of_eq r h s.out e

theorem State.tellsOnly_capture (addr requester kind : Nat) (w : Bool) : s.TellsOnly (s.capture addr requester kind w) := by
  obtain ⟨r, h, e⟩ := State.capture_shape s addr requester kind w
  exact State.TellsOnly.of_eq r h s.out e

theorem State.tellsOnly_setRing (rid : Nat) (v : Ring) : s.TellsOnly (s.setRing rid v) := rfl

/-- What a capture leaves where none was held (R350). -/
theorem State.capture_new (addr requester kind : Nat) (w : Bool) (h : bitAt (s.r32 Reg.hstErrInfo) 31 = false) :
    (s.capture addr requester kind w).r64 Reg.hstErrAddr = addr % 2 ^ 40
      ∧ (s.capture addr requester kind w).r32 Reg.hstErrInfo
        = 2 ^ 31 + requester % 32 * 2 ^ 8 + kind % 16 * 2 ^ 4 + (if w then 1 else 0) := by
  have e : s.capture addr requester kind w
      = ((s.w64 Reg.hstErrAddr (addr % 2 ^ 40)).w32 Reg.hstErrInfo
          (2 ^ 31 + requester % 32 * 2 ^ 8 + kind % 16 * 2 ^ 4 + (if w then 1 else 0))).postEvent 0x000A 0xFF 8
          (addr % 2 ^ 40 + (2 ^ 31 + requester % 32 * 2 ^ 8 + kind % 16 * 2 ^ 4 + (if w then 1 else 0)) * 2 ^ 64) := by
    unfold State.capture
    simp only [h, Bool.false_eq_true, if_false]
  rw [e]
  have hp := fun (u : State) (x : Nat) => State.sameRegs_postEvent u 0x000A 0xFF 8 x
  constructor
  · unfold State.r64
    rw [hp _ _ _ (by decide), hp _ _ _ (by decide), State.r32_w32_other _ _ _ _ (by decide), State.r32_w32_other _ _ _ _ (by decide)]
    have := State.r64_w64_same s Reg.hstErrAddr (addr % 2 ^ 40)
    unfold State.r64 at this
    rw [this, Nat.mod_eq_of_lt (lt_of_lt_of_le (Nat.mod_lt _ (by norm_num)) (by norm_num))]
  · rw [hp _ _ _ (by decide), State.r32_w32_same]
    cases w <;> simp only [if_true, if_false, Bool.false_eq_true] <;> omega

/-- An event changes the event queue of the host interface and nothing else there. -/
theorem State.postEvent_host (type part source data : Nat) :
    ∃ r q e l, s.postEvent type part source data = { s with regs := r, host := { s.host with evSeq := q, events := e, evLost := l } } := by
  unfold State.postEvent
  simp only []
  rw [State.count64_shape s]
  generalize (s.count64 Reg.hstEvtCount 0 32 1).regs = r
  split
  · exact ⟨r, _, _, s.host.evLost, rfl⟩
  · rw [State.set32_shape, State.count64_shape]
    exact ⟨_, _, s.host.events, _, rfl⟩

theorem State.capture_host (addr requester kind : Nat) (w : Bool) :
    ∃ r q e l, s.capture addr requester kind w = { s with regs := r, host := { s.host with evSeq := q, events := e, evLost := l } } := by
  unfold State.capture
  simp only []
  split
  · rw [State.set32_shape, State.count32_shape]
    exact ⟨_, s.host.evSeq, s.host.events, s.host.evLost, rfl⟩
  · obtain ⟨r, q, ev, l, e⟩ := State.postEvent_host ((s.w64 Reg.hstErrAddr (addr % 2 ^ 40)).w32 Reg.hstErrInfo
      (2 ^ 31 + requester % 32 * 2 ^ 8 + kind % 16 * 2 ^ 4 + (if w then 1 else 0))) 0x000A 0xFF 8
      (addr % 2 ^ 40 + (2 ^ 31 + requester % 32 * 2 ^ 8 + kind % 16 * 2 ^ 4 + (if w then 1 else 0)) * 2 ^ 64)
    rw [e, State.w64_shape, State.w32_shape]
    exact ⟨r, q, ev, l, rfl⟩

@[simp] theorem State.ring_postEvent (type part source data q : Nat) : (s.postEvent type part source data).ring q = s.ring q := by
  obtain ⟨r, a, b, c, e⟩ := State.postEvent_host s type part source data
  rw [e]; rfl

@[simp] theorem State.ring_capture (addr requester kind q : Nat) (w : Bool) : (s.capture addr requester kind w).ring q = s.ring q := by
  obtain ⟨r, a, b, c, e⟩ := State.capture_host s addr requester kind w
  rw [e]; rfl

/-- A completion changes the rings of the host interface and nothing else there. -/
theorem State.announce_host (rid : Nat) : ∃ r o k, s.announce rid = { s with regs := r, out := s.out ++ o, host := { s.host with rings := k } } := by
  unfold State.announce
  simp only []
  split
  · exact ⟨s.regs, [], (s.setRing rid { s.ring rid with unannounced := true }).host.rings, by rw [List.append_nil]; rfl⟩
  · obtain ⟨r, o, e⟩ := State.sendVector_shape (s.setRing rid { s.ring rid with heldOff := decide (0 < (s.ring rid).holdoff), unannounced := false })
      (s.ring rid).vector
    rw [e]
    exact ⟨r, o, _, rfl⟩

theorem State.complete_host (rid cmdId status r0 r1 : Nat) :
    ∃ r o k, s.complete rid cmdId status r0 r1 = { s with regs := r, out := s.out ++ o, host := { s.host with rings := k } } := by
  unfold State.complete
  simp only []
  split
  · exact ⟨s.regs, [], s.host.rings, by rw [List.append_nil]⟩
  · split
    · unfold State.writeCompl
      simp only []
      split
      · exact ⟨s.regs, [], _, by rw [List.append_nil]; rfl⟩
      · obtain ⟨r, o, k, e⟩ := State.announce_host _ _
        rw [e]
        exact ⟨r, [_] ++ o, k, by rw [← List.append_assoc]; rfl⟩
    · exact ⟨s.regs, [], _, by rw [List.append_nil]; rfl⟩

/-! ## Rings -/

@[simp] theorem State.ring_setRing_same (rid : Nat) (v : Ring) : (s.setRing rid v).ring rid = v := Tab.get_put_same _ _ _ _

theorem State.ring_setRing_other (rid q : Nat) (v : Ring) (h : q ≠ rid) : (s.setRing rid v).ring q = s.ring q := Tab.get_put_other _ _ _ _ _ h

theorem State.ring_setRing (rid q : Nat) (v : Ring) : (s.setRing rid v).ring q = if q = rid then v else s.ring q := Tab.get_put _ _ _ _ _

@[simp] theorem State.ring_sendVector (v q : Nat) : (s.sendVector v).ring q = s.ring q := by
  obtain ⟨r, o, e⟩ := State.sendVector_shape s v
  rw [e]; rfl

theorem State.ring_announce_other (rid q : Nat) (h : q ≠ rid) : (s.announce rid).ring q = s.ring q := by
  unfold State.announce
  simp only []
  split
  · exact State.ring_setRing_other _ _ _ _ h
  · rw [State.ring_sendVector, State.ring_setRing_other _ _ _ _ h]

theorem State.ring_writeCompl_other (cq q : Nat) (c : Compl) (h : q ≠ cq) : (s.writeCompl cq c).ring q = s.ring q := by
  unfold State.writeCompl
  simp only []
  split
  · exact State.ring_setRing_other _ _ _ _ h
  · rw [State.ring_announce_other _ _ _ h, State.ring_setRing_other _ _ _ _ h]
    rfl

/-- A completion changes no ring but the command's own and its completion ring. -/
theorem State.ring_complete_other (rid cmdId status r0 r1 q : Nat) (h : q ≠ rid) (h2 : q ≠ s.cqOf rid) :
    (s.complete rid cmdId status r0 r1).ring q = s.ring q := by
  unfold State.complete
  simp only []
  split
  · rfl
  · have e : (s.setRing rid { s.ring rid with taken := (s.ring rid).taken.erase cmdId }).cqOf rid = s.cqOf rid := by
      unfold State.cqOf
      rw [State.ring_setRing_same]
    rw [e]
    split
    · rw [State.ring_writeCompl_other _ _ _ _ h2, State.ring_setRing_other _ _ _ _ h]
    · exact State.ring_setRing_other _ _ _ _ h

/-! ## Completions -/

/-- A completion entry is what a ring that is not in ERROR is given. -/
theorem State.out_writeCompl (cq : Nat) (c : Compl) (h : (s.ring cq).error = false) :
    Output.hostWrite ((s.ring cq).base + 32 * (s.ring cq).tail) 32 (s.complEntry c (s.ring cq).phase) ∈ (s.writeCompl cq c).out := by
  unfold State.writeCompl
  simp only [h, Bool.false_eq_true, if_false]
  obtain ⟨r, o, k, e⟩ := State.announce_shape
    ((s.emit (.hostWrite ((s.ring cq).base + 32 * (s.ring cq).tail) 32 (s.complEntry c (s.ring cq).phase))).setRing cq (s.ring cq).wrote) cq
  rw [e]
  simp

theorem State.complEntry_fields (c : Compl) (p : Bool) :
    fld (s.complEntry c p) 0 32 = c.cmdId % 2 ^ 32 ∧ fld (s.complEntry c p) 32 8 = c.status % 2 ^ 8 ∧ fld (s.complEntry c p) 40 8 = c.rid % 2 ^ 8
      ∧ fld (s.complEntry c p) 128 64 = c.r0 % 2 ^ 64 ∧ fld (s.complEntry c p) 192 56 = c.r1 % 2 ^ 56 := by
  have hh : s.hourCount < 2 ^ 64 := State.r64_lt s _
  revert hh
  unfold fld State.complEntry
  generalize s.hourCount = h
  generalize (s.ring c.rid).head = hd
  cases p <;> simp only [if_true, if_false, Bool.false_eq_true] <;> omega

/-- A command that can be told is told. -/
theorem State.told_complete (rid cmdId status r0 r1 : Nat) (h : s.CanTell rid) (hg : cmdId ≠ gone) :
    s.Told (s.complete rid cmdId status r0 r1) rid cmdId status r0 r1 := by
  obtain ⟨hl, hc, he, hn⟩ := h
  let u := s.setRing rid { s.ring rid with taken := (s.ring rid).taken.erase cmdId }
  have hq : u.cqOf rid = s.cqOf rid := by
    show (s.setRing rid _).cqOf rid = _
    unfold State.cqOf
    rw [State.ring_setRing_same]
  have hr : u.ring (s.cqOf rid) = s.ring (s.cqOf rid) := State.ring_setRing_other _ _ _ _ hn
  have e : s.complete rid cmdId status r0 r1 = u.writeCompl (s.cqOf rid) ⟨rid, cmdId, status, r0, r1⟩ := by
    unfold State.complete
    simp only []
    rw [if_neg (by simp [hl, hg])]
    show (if (u.ring (u.cqOf rid)).live then u.writeCompl (u.cqOf rid) ⟨rid, cmdId, status, r0, r1⟩ else u) = _
    rw [hq, hr, if_pos hc]
  have ho := State.out_writeCompl u (s.cqOf rid) ⟨rid, cmdId, status, r0, r1⟩ (by rw [hr]; exact he)
  have hf := State.complEntry_fields u ⟨rid, cmdId, status, r0, r1⟩ (u.ring (s.cqOf rid)).phase
  rw [hr] at ho hf
  rw [e]
  exact ⟨_, ho, hf.1, hf.2.1, hf.2.2.1, hf.2.2.2.1, hf.2.2.2.2⟩

end Sys2Proof.Machine

theorem Sys2Proof.Desc.cmdId_ne_gone (d : Sys2Proof.Desc) : d.cmdId ≠ Sys2Proof.Machine.gone := by
  have h := Sys2Proof.fld_lt d.toNat 32 32
  show Sys2Proof.fld d.toNat 32 32 ≠ 2 ^ 32
  omega
end

