-- ==== Sys2Proof/Laws/Records.lean ====
section
/-!
SUPPORT. Laws of the records by number: what was put reads back, every other record as before.
-/

namespace Sys2Proof.Machine

variable (s : State)

@[simp] theorem State.die_setDie_same (d : Nat) (v : DieState) : (s.setDie d v).die d = v := Tab.get_put_same _ _ _ _
theorem State.die_setDie_other (d e : Nat) (v : DieState) (h : e ≠ d) : (s.setDie d v).die e = s.die e := Tab.get_put_other _ _ _ _ _ h
@[simp] theorem State.part_setPart_same (n : Nat) (v : PartState) : (s.setPart n v).part n = v := Tab.get_put_same _ _ _ _
theorem State.part_setPart_other (n m : Nat) (v : PartState) (h : m ≠ n) : (s.setPart n v).part m = s.part m := Tab.get_put_other _ _ _ _ _ h
@[simp] theorem State.core_setCore_same (g : Nat) (v : CoreState) : (s.setCore g v).core g = v := Tab.get_put_same _ _ _ _
theorem State.core_setCore_other (g x : Nat) (v : CoreState) (h : x ≠ g) : (s.setCore g v).core x = s.core x := Tab.get_put_other _ _ _ _ _ h
@[simp] theorem State.modEnd_setModEnd_same (k : Nat) (v : ModEnd) : (s.setModEnd k v).modEnd k = v := Tab.get_put_same _ _ _ _
theorem State.modEnd_setModEnd_other (k j : Nat) (v : ModEnd) (h : j ≠ k) : (s.setModEnd k v).modEnd j = s.modEnd j := Tab.get_put_other _ _ _ _ _ h
@[simp] theorem State.port_setPort_same (p : Nat) (v : Port) : (s.setPort p v).port p = v := Tab.get_put_same _ _ _ _
theorem State.port_setPort_other (p q : Nat) (v : Port) (h : q ≠ p) : (s.setPort p v).port q = s.port q := Tab.get_put_other _ _ _ _ _ h
@[simp] theorem State.flag_putFlag_same (k : Nat) (b : Bool) : (s.putFlag k b).flag k = b := Tab.get_put_same _ _ _ _
theorem State.flag_putFlag_other (k j : Nat) (b : Bool) (h : j ≠ k) : (s.putFlag k b).flag j = s.flag j := Tab.get_put_other _ _ _ _ _ h
@[simp] theorem State.ctr_putCtr_same (k v : Nat) : (s.putCtr k v).ctr k = v % 2 ^ 32 := by
  unfold State.ctr State.putCtr
  rw [Tab.get_put_same]
  exact BitVec.toNat_ofNat v 32
theorem State.ctr_putCtr_other (k v j : Nat) (h : j ≠ k) : (s.putCtr k v).ctr j = s.ctr j := by
  unfold State.ctr State.putCtr
  rw [Tab.get_put_other _ _ _ _ _ h]

end Sys2Proof.Machine
end

