-- ==== Sys2Proof/WellFormed.lean ====
section
/-!
DEFINITION. Operands in the ranges that the spec's fields and units give them. A command outside them is no command that the
surroundings can send; exec is total all the same.
-/

namespace Sys2Proof

/-- A BAR0 offset lies in its 32 MiB, a BAR2 offset in its 1 MiB; a device address has 40 bits and a requester code 5 (Tables 0-4, 13-2, R350). -/
def Via.wellFormed (v : Via) : Bool :=
  match v with
  | .bar0 off => decide (off < 2 ^ 25)
  | .bar2 off => decide (off < 2 ^ 20)
  | .device r a => decide (r < 32) && decide (a < 2 ^ 40)

/-- A read of at least one byte, or a write of at least one, that ends at or below `size`. -/
def spanOk (off len : Nat) (w : Option (List Byte)) (size : Nat) : Bool :=
  match w with
  | none => decide (0 < len) && decide (off + len ≤ size)
  | some bs => decide (0 < bs.length) && decide (off + bs.length ≤ size)

/-- A failing unit names a step, a kind and a number of Tables 17-4 and 17-5. -/
def DawnFail.wellFormed (f : DawnFail) : Bool := decide (1 ≤ f.step) && decide (f.step ≤ 14) && decide (f.kind ≤ 6) && decide (f.unit < 2 ^ 12)

/-- What a Dawn meets is in range: its failing units, its 14 step times, a record of 4,096 bytes, the offsets of 32 crossings, physical
engines of core slots, and rows of its dies. -/
def DawnIn.wellFormed (x : DawnIn) : Bool :=
  x.fails.all DawnFail.wellFormed && x.again.all DawnFail.wellFormed && x.times.length == 14 && decide (x.record < 2 ^ 32768)
    && x.offsets.all (fun l => l.length == 32) && x.engFaults.all (fun e => decide (e.1 < 160) && decide (e.2 < 66))
    && x.rows.all (fun e => decide (e.1 < 8) && decide (e.2 / 2 ^ 36 = e.1))

/-- A word of a die's memories (Table 0-4): its device address divided by 8. -/
def memoryWord (w : BitVec 37) : Bool := decide (w.toNat / 2 ^ 33 < 8) && decide (w.toNat / 2 ^ 29 % 16 < 3)

/-- The entries of a job's placement have the numbers and fields of Table 12-7, and its groups those of R206. -/
def JobPlacement.wellFormed (x : JobPlacement) : Bool :=
  x.peers.all (fun e => decide (e.1 < 1024) && decide (e.2 < 2 ^ 32)) && x.groups.all (fun e => decide (e.1 < 2 ^ 16) && e.2.all (fun p => decide (p < 4096)))

/-- What an alarm meets is in range. -/
def AlarmIn.wellFormed (x : AlarmIn) : Bool := x.dawn.wellFormed

/-- The operands of a command are in range. -/
def Instr.wellFormed (i : Instr) : Bool :=
  match i with
  | .createRing _ => true
  | .deleteRing _ => true
  | .resetRing _ => true
  | .changeSet _ _ _ => true
  | .netAddress _ => true
  | .netWindow _ => true
  | .netClose _ => true
  | .twilight _ => true
  | .midnight _ => true
  | .wakeCmd _ x => x.wellFormed
  | .resetDomain _ => true
  | .fenceSlot _ => true
  | .jobAbort _ => true
  | .jobResume _ => true
  | .dawnRetry _ => true
  | .tenantSwitch _ => true
  | .attestLog _ => true
  | .fuseProgram _ _ => true
  | .firmwareUpdate _ _ => true
  | .muRecords _ => true
  | .muAudit _ => true
  | .muCert _ => true
  | .muCalReport _ => true
  | .trustKey _ _ => true
  | .imageFeed _ => true
  | .baseLoad _ _ => true
  | .baseUnload _ => true
  | .repairRequest _ => true
  | .imageRepair _ _ => true
  | .placeCheck _ _ _ => true
  | .loadImage _ _ _ job => job.wellFormed
  | .unloadImage _ _ => true
  | .adapterLoad _ _ _ => true
  | .adapterUnload _ _ => true
  | .startPart _ _ => true
  | .stopPart _ _ => true
  | .exportData _ _ list => (match list with | some l => l.all (fun e => e.1 < 2 ^ 64 && e.2 < 2 ^ 64) | none => true)
  | .patchSet _ _ _ => true
  | .submit _ _ _ => true
  | .cancel _ => true
  | .doorbell _ _ _ => true
  | .descriptorTake _ _ => true
  | .eventWrite => true
  | .msixHoldoffExpiry _ => true
  | .enable _ => true
  | .hostInterfaceReady => true
  | .errValid => true
  | .functionLevelReset => true
  | .hotReset => true
  | .linkDisable => true
  | .linkDown => true
  | .perstN => true
  | .configRequest => true
  | .stagingAccess off len w => spanOk (off.toNat) len w (2 ^ 29)
  | .serviceAccess v len w _ _ upset => v.wellFormed && spanOk 0 len w (2 ^ 40) && upset.all memoryWord
  | .broadcastWrite _ _ _ bs _ => !bs.isEmpty
  | .registerWrite v _ _ _ => v.wellFormed
  | .lowWordRead _ _ _ => true
  | .flagWrite _ _ _ _ bs _ => !bs.isEmpty
  | .counterValueWrite _ _ _ _ bs _ => !bs.isEmpty
  | .counterAdd _ _ _ _ bs _ => !bs.isEmpty
  | .hourCtlWrite _ => true
  | .partMemberWrite _ _ _ => true
  | .pbbWrite _ _ _ _ _ _ => true
  | .flagwinWrite _ _ _ _ _ => true
  | .coreStreamWrite _ _ _ _ _ => true
  | .mcastEntryWrite _ _ _ _ _ => true
  | .peerEntryWrite _ _ _ => true
  | .swapTable _ => true
  | .ilkFirstRearm _ _ => true
  | .armCapture _ _ _ _ _ => true
  | .hourArrival _ _ => true
  | .swapWindowOpen x _ => x.power < 2 ^ 16 && x.mhz < 2 ^ 16
  | .arriveLimitExpiry x _ => x.power < 2 ^ 16 && x.mhz < 2 ^ 16
  | .plannedTimeout => true
  | .patchTimeout _ => true
  | .forcedStop _ => true
  | .jobAbortTimeout _ => true
  | .repairAbandon _ => true
  | .cardFetch _ _ _ upset => upset.all memoryWord
  | .nopCard _ _ _ => true
  | .matmul _ _ _ => true
  | .vectorCard _ _ _ => true
  | .moveCard _ _ _ => true
  | .multicast _ _ _ => true
  | .reduceCard _ _ _ => true
  | .digestCard _ _ _ => true
  | .hourMark _ _ _ => true
  | .cardLocalCompletion _ _ pos _ => pos < 2 ^ 24
  | .streamEnd _ => true
  | .prescan _ _ _ _ upset => upset.all memoryWord
  | .passStart _ _ _ _ upset => upset.all memoryWord
  | .accumulationCycle _ _ _ _ => true
  | .drainStart _ _ _ _ => true
  | .tileComplete _ _ _ _ => true
  | .groupEntry _ _ _ upset => upset.all memoryWord
  | .groupOutput _ _ _ => true
  | .dmaItemStart _ _ pos _ upset => decide (pos < 2 ^ 24) && upset.all memoryWord
  | .dmaItemComplete _ _ pos _ => pos < 2 ^ 24
  | .shmReadRequest _ off lines upset => 0 < lines && off.toNat + 32 * lines ≤ 2 ^ 32 && upset.all memoryWord
  | .interlockRelease _ _ pos _ _ => pos < 2 ^ 24
  | .scrubRead _ _ off upset => off.toNat % 32 == 0 && upset.all memoryWord
  | .eccUncorrectable _ _ off _ => off.toNat % 8 == 0
  | .rewriteComplete _ _ => true
  | .fieldFuseWrite _ _ => true
  | .vfuseCheck => true
  | .holdStart _ _ => true
  | .holdEnd _ _ => true
  | .holdLong _ _ => true
  | .hangStop _ _ _ => true
  | .watchdogExpiry _ x _ => x.wellFormed
  | .xingFault _ _ _ _ _ => true
  | .d2dLaneFailure _ _ => true
  | .d2dRetrainComplete _ _ => true
  | .d2dAckTimer _ => true
  | .d2dWrite _ _ _ _ => true
  | .d2dReadData _ _ _ _ => true
  | .d2dReduceData _ _ _ _ => true
  | .d2dSignal _ _ _ _ _ => true
  | .d2dReadReq _ _ _ _ => true
  | .d2dWriteReport _ _ _ _ => true
  | .d2dCredit _ _ => true
  | .d2dAck _ _ => true
  | .d2dNak _ _ => true
  | .d2dHour _ _ _ => true
  | .d2dIdle _ _ => true
  | .tclWrite _ _ _ => true
  | .tclReadReq _ _ _ => true
  | .tclSignal _ _ _ => true
  | .tclReduceData _ _ _ rank _ _ => rank < 4096
  | .tclReadData _ _ _ => true
  | .tclWriteReport _ _ _ => true
  | .tclErrorRsp _ _ _ => true
  | .tclLink _ _ _ _ => true
  | .unitRelease _ _ _ => true
  | .linkUnitTimer _ => true
  | .tclAckTimer _ => true
  | .nakRepeatTimer _ => true
  | .silentLossReplay _ => true
  | .portRetrainComplete _ _ => true
  | .tclLaneFailure _ => true
  | .laneReplacementComplete _ => true
  | .txnStart x _ => (match x with | .frame _ => true | .read _ pos _ _ => decide (pos < 2 ^ 24))
  | .partialUnitFlush tag _ _ => tag < 2 ^ 14
  | .txnTimeout tag => tag < 2 ^ 14
  | .quarantineExpiry tag => tag < 2 ^ 14
  | .sleepIdleExpiry _ => true
  | .sleepEntryComplete _ => true
  | .portWake _ _ => true
  | .portWakeComplete _ => true
  | .stepBoundary _ _ _ _ heads => heads.all (fun e => e.1 < 2 ^ 32)
  | .tokenRecordsWrite _ => true
  | .loadComplete _ => true
  | .feedTimeout off => off % 4096 == 0 && off < 2 ^ 29
  | .powerStateEntered x => x.wellFormed
  | .duskDrainEnd _ _ _ _ _ x => x.wellFormed
  | .wakeN x => x.wellFormed
  | .wakeTimerExpiry x => x.wellFormed
  | .referenceLost => true
  | .referenceRestored x => x.wellFormed
  | .droopTrip _ _ => true
  | .droopRelease _ _ => true
  | .guardTrip _ _ => true
  | .temperatureSample d readings averages ages _ x => x.wellFormed && readings.length == (if d = 8 then 8 else 24) && (d == 8 || (averages.length == 20 && ages.length == 20))
  | .powerGoodFall _ mv x => mv < 2 ^ 12 && x.wellFormed
  | .porN x _ => (match x with | some y => y.wellFormed | none => true)
  | .warmResetN x _ => x.wellFormed
  | .dawnWatchdogExpiry _ _ x _ => x.wellFormed
  | .failedDawnRestart x => x.wellFormed
  | .fenceDrained _ => true
  | .alarmTrip x => x.wellFormed && !x.trips.isEmpty
  | .fuseShadowCheck finding => (match finding with | some y => y.wellFormed && !y.trips.isEmpty | none => true)
  | .debugGrant _ => true
  | .challengeExpiry => true
  | .getVersion => true
  | .getCapabilities => true
  | .negotiateAlgorithms _ => true
  | .getDigests => true
  | .getCertificate _ _ _ => true
  | .spdmChallenge _ _ _ => true
  | .getMeasurements _ _ _ => true
  | .keyExchange _ _ _ => true
  | .spdmFinish _ _ => true
  | .spdmHeartbeat _ _ => true
  | .keyUpdate _ _ _ => true
  | .endSession _ => true
  | .muPowerUp _ => true
  | .muClockSwitch _ _ => true
  | .secondBoundary _ => true
  | .lateClose _ => true
  | .recordSeal energies => energies.length == 16
  | .trstN => true
  | .jtagBypass => true
  | .idcode => true
  | .samplePreload _ _ => true
  | .extest _ _ => true
  | .clamp => true
  | .highz => true
  | .extestPulse _ _ => true
  | .extestTrain _ _ => true
  | .statusRead _ => true
  | .journalRead _ => true
  | .meterRead _ => true
  | .debugChallenge => true
  | .debugResponse bytes => bytes.length == 193
  | .jtagAccess _ => true
  | .jtagAccessComplete _ _ => true
  | .dieBist _ => true
  | .dieBistComplete _ _ _ => true
  | .scanIod => true
  | .scanCd => true
  | .fuseProd => true
  | .rdmaWrite _ qpn _ rkey _ data => qpn < 2 ^ 24 && rkey < 2 ^ 32 && !data.isEmpty
  | .rdmaRead _ qpn _ rkey _ len => qpn < 2 ^ 24 && rkey < 2 ^ 32 && 0 < len
  | .arp _ addr => addr < 2 ^ 32
  | .neighbourDiscovery _ addr => addr < 2 ^ 128
  | .echoRequest _ six addr => addr < (if six then 2 ^ 128 else 2 ^ 32)
  | .unsupportedFrame _ => true
  | .dawnDone x map cut _ _ => x.wellFormed && (map.map (·.1)).Nodup && cut.all (fun p => decide (p < 4096))
      && map.all (fun e => decide (e.1 < 4096) && decide (e.2.1 < 16) && decide (e.2.2.1 < 16) && decide (e.2.2.2 < 16))
  | .twilightWakeComplete bad _ => bad.Nodup
  | .domainResetComplete dom _ _ _ _ => dom != 0
  | .powerGoodRise x => x.wellFormed
  | .perstNRelease => true
  | .pcieLinkUp => true
  | .vddAonRemoval => true
  | .vddMuRemoval => true
  | .wakeReferenceTimeout => true

end Sys2Proof
end

