-- ==== Sys2Proof/Tests/Slice0.lean ====
section
/-!
SUPPORT. Tests: the checks of WellFormed refuse an ill-formed term each, the spec's worked examples, and a witness for the
hypotheses of every clause of every statement.
-/

set_option Elab.async false

namespace Sys2Proof.Tests

open Sys2Proof Sys2Proof.Machine

/-- A descriptor from its byte offsets and values. -/
def dsc (l : List (Nat × Nat)) : Desc := BitVec.ofNat 512 (l.map (fun x => x.2 * 2 ^ (8 * x.1))).sum

/-- A host interface that runs: rings 0, 1, 65, 66, 128, 129 and 130 are there, empty, of 16 entries. -/
def wHostIf : HostIf :=
  { running := true, resetting := false
    rings := [(0, { live := true, log2 := 4, cq := 128, base := 0x1000 }), (1, { live := true, log2 := 4, cq := 129, base := 0x2000 }),
      (65, { live := true, log2 := 4, cq := 130, base := 0x3000 }), (66, { live := true, log2 := 4, base := 0x4000 }),
      (128, { live := true, log2 := 4, base := 0x5000 }), (129, { live := true, log2 := 4, base := 0x6000 }),
      (130, { live := true, log2 := 4, base := 0x7000 })] }

/-- The reset part with that host interface, in Noon. -/
def wNoon : State := { State.reset with host := wHostIf }.sf32 Reg.dawnStatus 28 2 1

/-- The state that an outcome carries. -/
def nx (o : Host.Outcome State Fault Refusal) : State := match o with | .next t => t | _ => {}

/-- A Dawn that meets nothing, and an alarm handling of some trips. -/
def wDawn : DawnIn := ⟨[], [], [], 0, true, true, [], [], []⟩
def wAlarm (l : List AlarmTrip) : AlarmIn := ⟨l, 0, 0, 0, true, wDawn⟩

/-- In Twilight with the reference present; in Midnight; and with partition 0 RUNNING on the 16 cores of die 0. -/
def wTwilight : State := (wNoon.sf32 Reg.pwrState 0 2 1).set32 Reg.clkRef 0
def wMidnight : State := wNoon.sf32 Reg.pwrState 0 2 2
def wRun : State := (wNoon.w32 (Reg.topPartMember 0) 0xFFFF).setPstate 0 3

/-- A number from byte offsets and values. -/
def num (l : List (Nat × Nat)) : Nat := (l.map (fun x => x.2 * 2 ^ (8 * x.1))).sum

/-- Core 0 of that partition runs its stream, with a card at the head of its queue. -/
def wCard (card : Nat) : State := (wRun.setSeqState 0 1).setCore 0 { queue := [(0, card)] }

/-- Where no write is on its way, every byte stands. -/
theorem still_of (s : State) (h : s.past = []) (c a n : Nat) : s.Still c a n := by
  intro p hp; rw [h] at hp; exact absurd hp List.not_mem_nil

/-- Where no word is stored with an error, every word is sound. -/
theorem sound_of (s : State) (h : s.soft = []) (a n : Nat) : s.Sound a n := by
  intro x _ _; unfold State.isSoft; rw [h]; rfl

/-- Die 7 held since cycle 5; and die 0, with a card that waits for an external flag. -/
def wHold : State := wNoon.setDie 7 { run := false, hold := some ⟨2, 1, 0, 0, 5, none⟩ }
def wWait : State := wCard (num [(0, 0), (16, 2 ^ 63 + 2 ^ 59 + 5 * 2 ^ 40)])
def wHeld : State := wWait.setDie 0 { run := false, hold := some ⟨0, 0, 0, 0, 5, none⟩ }

/-- A frame and a message with SEQ 0, as they arrive. -/
def wFrame (f : Frame) : BitVec 2304 := BitVec.ofNat 2304 (f.wire 0)
def wMsg (m : Msg) : BitVec 256 := BitVec.ofNat 256 (m.wire 0)

/-- The partition with the first MiB of region 0 of die 0 and all the engine buffers as its own; and with one card of core 0 in flight. -/
def wShm : State := (wRun.w64 (Reg.cdPbbShm 0 0) (2 ^ 16)).w64 (Reg.cdPbbCore 0 0) (2 ^ 16 + 64 * 2 ^ 48)
def wFly (f : Flight) : State := wRun.setCore 0 { seq := 1, flights := [f] }

/-- A MOVE card of one line to offset 64 of the partition's memory, from die 1; and from core 1 of die 0. -/
def wAway : Nat := num [(0, 3), (80, 16 * 2 ^ 44), (88, 32), (112, 64), (120, 32)]
def wMove : Nat := num [(0, 3), (80, 2 ^ 44), (88, 32), (112, 64), (120, 32)]

/-- A MATMUL card of one INT8 pass of engine 0; and its core with that engine's record. -/
def wMm : Nat := num [(0, 1), (87, 0x80), (88, 32), (119, 0x80), (120, 32), (152, 32), (208, 1), (224, 32), (226, 0x44)]
def wEng (s : State) (card : Nat) (x : Engine) : State := s.setCore 0 { seq := 1, flights := [{ card := card }], engines := [(0, x)] }

/-- Port 0 trained with all its quads, toward package 1; and units as they arrive with sequence number 0, and a LINK unit. -/
def wPort : State :=
  (((wShm.w32 (Reg.tclPortCfg 0) 0x80FFFFFF).w64 (Reg.tclPortStatus 0) (0xFFFFFF * 2 ^ 32)).w32 Reg.rteTableAct 0x808C).w32 (Reg.rtePort 0) (2 ^ 20)
def wUnit (u : FlowUnit) : BitVec 2048 := BitVec.ofNat 2048 (unitWire 0 (u.header 0 0 0) u.data)
def wLink (data : Nat) : BitVec 2048 := BitVec.ofNat 2048 (unitWire linkPrefix (({ kind := 7, src := 8 } : FlowUnit).header 0 0 0) data)

/-- That state with entry 0 of the partition's peer table on package 1 and a quota of four transactions. -/
def wPeer : State := (wPort.w32 (Reg.rtePeer 0 0) (2 ^ 31 + 1)).w64 (Reg.topPartQuota 0) (4 * 2 ^ 46)

/-- Noon with both Ethernet ports configured; and with debug open. -/
def wNet : State := { wNoon with config := defaultConfig - 0xFFFF * 2 ^ 832 }
def wOpen : State := { wNoon.set32 Reg.jtagStatus 3 with power := { mainGood := true } }

/-- A port without own grants has 32-bit counts. -/
theorem counts_of (x : Port) (h : x.wantSeq < 2 ^ 32) (g : x.grant = []) : x.Counts :=
  ⟨h, fun _ => by unfold Port.grantOf; rw [g]; exact (by decide : (256 : Nat) < 2 ^ 32)⟩

/-- Noon with the responder's keys and all negotiated; and with that session. -/
def wSpdm : State := { wNoon.set32 Reg.secStatus 0 with sec := { version := true, caps := true, algs := true, keys := true } }

/-- A program image of one stream with one HOUR_MARK card, and a base image of one section. Their signatures are r = s = H(M) under a
key chosen for it, which ECDSA verifies like any other. -/
def wProgram : List Byte := leBytes 4352 (num [
  (0, 0x11000000000000000180000000600000006101000001494E5645),
  (48, 0xC09D9D94AE7FD02371CABF436A29F6E3D7C4C0F769E9CD62672DAC3582492D0400000000000000000000000000000000),
  (96, 0x35F51C270C2513C4F63B421127384AD5DC70AAB9E0B3F13CAFD22D2EAE226F53D8FD80B88AD07FCBBE0CEDF956A7E5BD),
  (144, 0x973416AAB10927E529D97B040B43979B6C),
  (192, 0xFFC89417ACD1587FE1264C801F4A5E6A52FF0F3DE1E7A23AC842B1C6E022F62E46CE661DE5E5A11AA48ACC14B927D595),
  (240, 0xFFC89417ACD1587FE1264C801F4A5E6A52FF0F3DE1E7A23AC842B1C6E022F62E46CE661DE5E5A11AA48ACC14B927D595),
  (288, 0x10001000100002810000101000000000000000000000000000000000000000000000000000000000000000000),
  (384, 0x10000000000000001000),
  (576, 0x10000000000000001000000030000000000),
  (624, 0x4493AB3E8583E9D31B7DA6EC4F39B0E0270ACF5635A5F76240A7D31903FAA7500000000000001000000000000000000),
  (672, 0x39DD14F2315297151F376A00E9420924),
  (4096, 0x20107)])
def wBase : List Byte := leBytes 4128 (num [
  (0, 0x10200000000000000180000000600000006101010001494E5645),
  (48, 0x9BB73AFE731789809B02D627C65B4E3342101AF9A60707B2F17014BAEDECBA0400000000000000000000000000000000),
  (96, 0x564C69553DC3412C2C4B7E567537D528E745CFB6856FCDAD516A531201717D3AC804538A8A49F51D547321D82B3E25CD),
  (144, 0x5860D316550CCBC7F67B073E3E1BC1154C),
  (192, 0x5063E76A54A85DE7D24AA8D0E458483A3C737A1E2007AE60689E48535D54EE777202CA1C36748FB29D602866F0E0E826),
  (240, 0x5063E76A54A85DE7D24AA8D0E458483A3C737A1E2007AE60689E48535D54EE777202CA1C36748FB29D602866F0E0E826),
  (288, 0x1000000000000000101000000000000000000000000000000000000000000000000000000000000000000),
  (336, 0x3),
  (576, 0x2000000000000000200003030000000001),
  (624, 0x36A38F06534B00282F9B076EFC719EE25B0ECBB67B0EE090731231EFFE17A07900000000000000200000000000000000),
  (672, 0x7F9BA3FBEED0EB9E3365804D40A422D9),
  (4096, 0x201F1E1D1C1B1A191817161514131211100F0E0D0C0B0A090807060504030201)])

/-- A state that trusts the key of an image. -/
def wTrust (s : State) (b : List Byte) : State := { s with sec := { s.sec with trust := [(0, some (sha384 (imgKey b)))] } }

/-- The partition CONFIGURED with its ranges, for that program; and the ranges of the COMMON level for that base. -/
def wConf : State := wTrust (wShm.setPstate 0 1) wProgram
def wCommon : State := wTrust (wNoon.w64 (Reg.cdCommonShm 0) (2 ^ 16)) wBase

/-- A resident image with one section of four bytes, and the 64 KiB unit's CRCs. -/
def wSection : Section :=
  { type := 1, convert := 0, codec := 0, srcFmt := 0, dstFmt := 0, role := 3, level := 0, buf := 0, srcLen := 4, rawLen := 4, rows := 0, cols := 0,
    lc := 0, engine := 0, off := 0, dstLen := 4, digest := [] }
def wImage (crcs : List (Nat × Nat)) : Image :=
  { kind := 0, part := 0, slot := 0, dieMask := 0, sigAlg := 1, keyFp := [], digest := [], program := [], content := [], hour := 0,
    reissuable := false, lcCount := 1, slots := 4, rank := 0, baseRef := [], slotBase := 0, slotSize := 0, sections := [wSection], starts := [0],
    extents := [⟨0, 0, 4⟩], crcs := crcs, retain := false }

/-- Partition 0 LOADED with that image, and with an adapter in slot 0. -/
def wAdapted : State := { wShm.setPstate 0 2 with loader := { images := [wImage [], { wImage [] with kind := 2 }] } }

/-- A repair of that image's unit. -/
def wRepair (crcs : List (Nat × Nat)) : State := { wShm with loader := { repairs := [⟨3, 0, 0, 0, true⟩], images := [wImage crcs] } }

/-- The serving engine of partition 0 at a step boundary, with a record and a request. -/
def wServe (l : List TokenRec) : Serve :=
  { slots := 1, rows := 64, maxCtx := 128, vocab := 2, stepHours := 1, prepNc := 0, flags := 0, stops := [], readyCtr := 0, outCtr := 1,
    slotArea := 256, prefillArea := 512, treeNodes := 1, mapOff := 0, mapLen := 0, blockBytes := [32, 0, 0, 0, 0, 0, 0, 0], nb := 0, key0 := 0, key1 := 0, nodes := [],
    step := 0, boundary := 0, clock := 0, plan := none, view := none, records := l }
def wReq (state : ReqState) : Request :=
  { cmdId := 7, part := 0, share := false, cache := false, greedy := true, adapter := 0xFFFF, tag := 0, maxNew := 4, prompt := [1], temp := 0,
    seed := 0, outAddr := 4096, outLog2 := 4, topK := 0, deadline := 0, headAddr := 8192, takenAt := 0, state := state, matched := [],
    blocks := [], slot := some 0, freed := false, rows := 1, now := 0, tokens := [], written := 0, head := 0, held := none, cancel := false,
    ending := if state = .ending then some 0 else none }
def wServing (l : List TokenRec) (rs : List Request) : State :=
  { (wShm.w64 (Reg.cdFlagwin 0 0) (16 * 2 ^ 40)).putCtr (flagKey 0 0 1) 16 with
    serving := { parts := [(0, some (wServe l))], requests := rs }, meter := { powered := true } }

/-- The serving table of that engine in the partition's memory. -/
def wTable : State :=
  (wShm.setPstate 0 2 |>.w64 (Reg.cdFlagwin 0 0) (16 * 2 ^ 40)).store 0 (leBytes 256 (num [(0, 0x01565253), (4, 1), (6, 64), (8, 128), (12, 2),
    (16, 1), (26, 0), (27, 1), (64, 256), (72, 512), (88, 320), (96, 32)]))
/-- Witness of `StepRunsTheFrontCommand`. -/
theorem test_stepRunsTheFrontCommand_0 : ∃ (s : State) (c : Instr) (rest : List Instr), (s.pending = c :: rest) :=
  ⟨({ State.reset with pending := [.eventWrite, .enable true] } : State), .eventWrite, [.enable true], by decide +kernel⟩

/-- Witness of `StepRunsTheFrontCommand`. -/
theorem test_stepRunsTheFrontCommand_1 : ∃ (s : State), (s.pending = []) :=
  ⟨State.reset, by decide +kernel⟩

/-- Witness of `EveryCommandEndsInANextState`. -/
theorem test_everyCommandEndsInANextState_0 : ∃ (c : Instr) (s : State), (c.production = false ∨ s.sec.shadow.prodLock = true) :=
  ⟨.scanIod, wNoon, by decide +kernel⟩

/-- Witness of `EveryCommandEndsInANextState`. -/
theorem test_everyCommandEndsInANextState_1 : ∃ (c : Instr) (s : State), (c.production = true) ∧ (s.sec.shadow.prodLock = false) :=
  ⟨.scanIod, ({ State.reset with sec := { shadow := { prodLock := false } } } : State), by decide +kernel, by decide +kernel⟩

/-- Witness of `EveryStepKeepsTheCanonicalForm`. -/
theorem test_everyStepKeepsTheCanonicalForm_0 : ∃ (s : State) (t : State), (s.Canonical) ∧ (step s = .next t) :=
  ⟨({ State.reset with mem := [(5, 1)], pending := [.eventWrite] } : State), ({ State.reset with mem := [(5, 1)] } : State), ⟨by decide +kernel, by decide +kernel, by decide +kernel, by decide +kernel, by decide +kernel, by decide +kernel, by decide +kernel⟩, rfl⟩

/-- Witness of `EveryStepTakesOneCommand`. -/
theorem test_everyStepTakesOneCommand_0 : ∃ (s : State) (t : State), (step s = .next t) :=
  ⟨({ State.reset with pending := [.eventWrite] } : State), State.reset, rfl⟩

/-- Witness of `RingCommandsChangeTheirRing`. -/
theorem test_ringCommandsChangeTheirRing_0 : ∃ (s : State) (d : Desc), (d.zero 13 16 = true) ∧ (d.zero 24 64 = true) ∧ (4 ≤ d.f 9 1)
    ∧ (d.f 9 1 ≤ 16) ∧ ((1 ≤ d.f 8 1 ∧ d.f 8 1 ≤ 65 ∧ d.f 11 1 = 0 ∧ d.f 12 1 = 0 ∧ 128 ≤ d.f 10 1
    ∧ (s.ring (d.f 10 1)).live = true) ∨ ((d.f 8 1 = 66 ∨ 129 ≤ d.f 8 1) ∧ d.f 10 1 = 0)) ∧ ((s.ring (d.f 8 1)).live = false)
    ∧ (d.f 16 8 % 4096 = 0) ∧ (s.CanTell 0) :=
  ⟨wNoon, (dsc [(8, 2), (9, 4), (10, 128)]), by decide +kernel, by decide +kernel, by decide +kernel, by decide +kernel, by decide +kernel, by decide +kernel, by decide +kernel, ⟨by decide +kernel, by decide +kernel, by decide +kernel, by decide +kernel⟩⟩

/-- Witness of `RingCommandsChangeTheirRing`. -/
theorem test_ringCommandsChangeTheirRing_0_c : ∃ (s : State) (d : Desc), (d.zero 13 16 = true) ∧ (d.zero 24 64 = true) ∧ (4 ≤ d.f 9 1)
    ∧ (d.f 9 1 ≤ 16) ∧ ((1 ≤ d.f 8 1 ∧ d.f 8 1 ≤ 65 ∧ d.f 11 1 = 0 ∧ d.f 12 1 = 0 ∧ 128 ≤ d.f 10 1
    ∧ (s.ring (d.f 10 1)).live = true) ∨ ((d.f 8 1 = 66 ∨ 129 ≤ d.f 8 1) ∧ d.f 10 1 = 0)) ∧ ((s.ring (d.f 8 1)).live = false)
    ∧ (d.f 16 8 % 4096 = 0) ∧ (s.CanTell 0) :=
  ⟨wNoon, (dsc [(8, 255), (9, 16), (11, 7)]), by decide +kernel, by decide +kernel, by decide +kernel, by decide +kernel, by decide +kernel, by decide +kernel, by decide +kernel, ⟨by decide +kernel, by decide +kernel, by decide +kernel, by decide +kernel⟩⟩

/-- Witness of `RingCommandsChangeTheirRing`. -/
theorem test_ringCommandsChangeTheirRing_1 : ∃ (s : State) (d : Desc), (d.zero 9 64 = true) ∧ (d.f 8 1 ≠ 0) ∧ (d.f 8 1 ≠ 128)
    ∧ ((s.ring (d.f 8 1)).live = true) ∧ ((s.ring (d.f 8 1)).head = (s.ring (d.f 8 1)).tail) ∧ ((s.ring (d.f 8 1)).taken = [])
    ∧ ((128 ≤ d.f 8 1 → s.owed (d.f 8 1) = 0 ∧ ∀ q, q < 66 → (s.ring q).live = true → s.cqOf q ≠ d.f 8 1)) ∧ (s.CanTell 0) :=
  ⟨wNoon, (dsc [(8, 65)]), by decide +kernel, by decide +kernel, by decide +kernel, by decide +kernel, by decide +kernel, by decide +kernel, by decide +kernel, ⟨by decide +kernel, by decide +kernel, by decide +kernel, by decide +kernel⟩⟩

/-- Witness of `RingCommandsChangeTheirRing`. -/
theorem test_ringCommandsChangeTheirRing_1_e : ∃ (s : State) (d : Desc), (d.zero 9 64 = true) ∧ (d.f 8 1 ≠ 0) ∧ (d.f 8 1 ≠ 128)
    ∧ ((s.ring (d.f 8 1)).live = true) ∧ ((s.ring (d.f 8 1)).head = (s.ring (d.f 8 1)).tail) ∧ ((s.ring (d.f 8 1)).taken = [])
    ∧ ((128 ≤ d.f 8 1 → s.owed (d.f 8 1) = 0 ∧ ∀ q, q < 66 → (s.ring q).live = true → s.cqOf q ≠ d.f 8 1)) ∧ (s.CanTell 0) :=
  ⟨({ wNoon with host := { wHostIf with rings := [(0, { live := true, log2 := 4, cq := 128 }), (128, { live := true, log2 := 4 }), (129, { live := true, log2 := 4 })] } } : State), (dsc [(8, 129)]), by decide +kernel, by decide +kernel, by decide +kernel, by decide +kernel, by decide +kernel, by decide +kernel, by decide +kernel, ⟨by decide +kernel, by decide +kernel, by decide +kernel, by decide +kernel⟩⟩

/-- Witness of `RingCommandsChangeTheirRing`. -/
theorem test_ringCommandsChangeTheirRing_2 : ∃ (s : State) (d : Desc), (d.zero 9 64 = true) ∧ (d.f 8 1 ≠ 0) ∧ (d.f 8 1 ≠ 128)
    ∧ ((s.ring (d.f 8 1)).live = true) ∧ ((128 ≤ d.f 8 1 → s.owed (d.f 8 1) = 0)) ∧ (s.CanTell 0) :=
  ⟨wNoon, (dsc [(8, 66)]), by decide +kernel, by decide +kernel, by decide +kernel, by decide +kernel, by decide +kernel, ⟨by decide +kernel, by decide +kernel, by decide +kernel, by decide +kernel⟩⟩

/-- Witness of `DoorbellsMoveTheirRingAndTakingMovesItsHead`. -/
theorem test_doorbellsMoveTheirRingAndTakingMovesItsHead_0 : ∃ (s : State) (rid : Fin 256) (v : BitVec 32), ((s.ring rid).live = true)
    ∧ (v.toNat < 2 ^ 16) ∧ ((if rid.val ≤ 65 then v.toNat < 2 ^ (s.ring rid).log2
    ∧ ((s.ring rid).tail + 2 ^ (s.ring rid).log2 - (s.ring rid).head) % 2 ^ (s.ring rid).log2 ≤ (v.toNat + 2 ^ (s.ring rid).log2 - (s.ring rid).head) % 2 ^ (s.ring rid).log2 else v.toNat < 2 ^ (s.ring rid).log2
    ∧ (v.toNat + 2 ^ (s.ring rid).log2 - (s.ring rid).head) % 2 ^ (s.ring rid).log2 ≤ ((s.ring rid).tail + 2 ^ (s.ring rid).log2 - (s.ring rid).head) % 2 ^ (s.ring rid).log2)) :=
  ⟨wNoon, 1, 15, by decide +kernel, by decide +kernel, by decide +kernel⟩

/-- Witness of `DoorbellsMoveTheirRingAndTakingMovesItsHead`. -/
theorem test_doorbellsMoveTheirRingAndTakingMovesItsHead_0_c : ∃ (s : State) (rid : Fin 256) (v : BitVec 32), ((s.ring rid).live = true)
    ∧ (v.toNat < 2 ^ 16) ∧ ((if rid.val ≤ 65 then v.toNat < 2 ^ (s.ring rid).log2
    ∧ ((s.ring rid).tail + 2 ^ (s.ring rid).log2 - (s.ring rid).head) % 2 ^ (s.ring rid).log2 ≤ (v.toNat + 2 ^ (s.ring rid).log2 - (s.ring rid).head) % 2 ^ (s.ring rid).log2 else v.toNat < 2 ^ (s.ring rid).log2
    ∧ (v.toNat + 2 ^ (s.ring rid).log2 - (s.ring rid).head) % 2 ^ (s.ring rid).log2 ≤ ((s.ring rid).tail + 2 ^ (s.ring rid).log2 - (s.ring rid).head) % 2 ^ (s.ring rid).log2)) :=
  ⟨wNoon, 129, 0, by decide +kernel, by decide +kernel, by decide +kernel⟩

/-- Witness of `DoorbellsMoveTheirRingAndTakingMovesItsHead`. -/
theorem test_doorbellsMoveTheirRingAndTakingMovesItsHead_1 : ∃ (s : State) (rid : Fin 256) (v : BitVec 32), ((s.ring rid).live = true)
    ∧ ((2 ^ 16 ≤ v.toNat ∨ (if rid.val ≤ 65 then 2 ^ (s.ring rid).log2 ≤ v.toNat ∨ (v.toNat + 2 ^ (s.ring rid).log2 - (s.ring rid).head) % 2 ^ (s.ring rid).log2 < ((s.ring rid).tail + 2 ^ (s.ring rid).log2 - (s.ring rid).head) % 2 ^ (s.ring rid).log2 else ((s.ring rid).tail + 2 ^ (s.ring rid).log2 - (s.ring rid).head) % 2 ^ (s.ring rid).log2 < (v.toNat + 2 ^ (s.ring rid).log2 - (s.ring rid).head) % 2 ^ (s.ring rid).log2)))
    ∧ (bitAt (s.r32 Reg.hstErrInfo) 31 = false) :=
  ⟨wNoon, 1, 16, by decide +kernel, by decide +kernel, by decide +kernel⟩

/-- Witness of `DoorbellsMoveTheirRingAndTakingMovesItsHead`. -/
theorem test_doorbellsMoveTheirRingAndTakingMovesItsHead_1_e : ∃ (s : State) (rid : Fin 256) (v : BitVec 32), ((s.ring rid).live = true)
    ∧ ((2 ^ 16 ≤ v.toNat ∨ (if rid.val ≤ 65 then 2 ^ (s.ring rid).log2 ≤ v.toNat ∨ (v.toNat + 2 ^ (s.ring rid).log2 - (s.ring rid).head) % 2 ^ (s.ring rid).log2 < ((s.ring rid).tail + 2 ^ (s.ring rid).log2 - (s.ring rid).head) % 2 ^ (s.ring rid).log2 else ((s.ring rid).tail + 2 ^ (s.ring rid).log2 - (s.ring rid).head) % 2 ^ (s.ring rid).log2 < (v.toNat + 2 ^ (s.ring rid).log2 - (s.ring rid).head) % 2 ^ (s.ring rid).log2)))
    ∧ (bitAt (s.r32 Reg.hstErrInfo) 31 = false) :=
  ⟨wNoon, 129, 1, by decide +kernel, by decide +kernel, by decide +kernel⟩

/-- Witness of `DoorbellsMoveTheirRingAndTakingMovesItsHead`. -/
theorem test_doorbellsMoveTheirRingAndTakingMovesItsHead_1_f : ∃ (s : State) (rid : Fin 256) (v : BitVec 32), ((s.ring rid).live = true)
    ∧ ((2 ^ 16 ≤ v.toNat ∨ (if rid.val ≤ 65 then 2 ^ (s.ring rid).log2 ≤ v.toNat ∨ (v.toNat + 2 ^ (s.ring rid).log2 - (s.ring rid).head) % 2 ^ (s.ring rid).log2 < ((s.ring rid).tail + 2 ^ (s.ring rid).log2 - (s.ring rid).head) % 2 ^ (s.ring rid).log2 else ((s.ring rid).tail + 2 ^ (s.ring rid).log2 - (s.ring rid).head) % 2 ^ (s.ring rid).log2 < (v.toNat + 2 ^ (s.ring rid).log2 - (s.ring rid).head) % 2 ^ (s.ring rid).log2)))
    ∧ (bitAt (s.r32 Reg.hstErrInfo) 31 = false) :=
  ⟨wNoon, 66, 0x10000, by decide +kernel, by decide +kernel, by decide +kernel⟩

/-- Witness of `DoorbellsMoveTheirRingAndTakingMovesItsHead`. -/
theorem test_doorbellsMoveTheirRingAndTakingMovesItsHead_2 : ∃ (s : State) (rid : Fin 66) (d : Desc), (s.host.running = true)
    ∧ ((s.ring rid).live = true) ∧ ((s.ring rid).head ≠ (s.ring rid).tail) ∧ ((s.ring rid).error = false) ∧ (s.CanTell rid)
    ∧ (s.owed (s.cqOf rid) < (s.ring (s.cqOf rid)).freeSlots) ∧ ((bitAt (d.f 1 1) 0 = false ∨ (s.ring rid).taken = []))
    ∧ (s.host.sets.length < 64) ∧ (s.loader.loads.length < 4) ∧ (s.f32 Reg.pwrState 0 2 ≠ 1) ∧ (s.power.dusk = none)
    ∧ (opcodeKnown rid (d.f 0 1) = true) ∧ (d.f 1 1 ≤ 1) ∧ (d.zero 2 4 = true)
    ∧ ((∀ n, (1 ≤ rid.val ∧ rid.val ≤ 64 ∧ n = rid.val - 1) ∨ (rid.val = 65 ∧ n = d.f 8 1 ∧ n < 64) → bitAt (s.r32 (Reg.topPartJob n)) 4 = false)) :=
  ⟨(wNoon.setRing 1 { wNoon.ring 1 with tail := 15 }), 1, (dsc [(0, 8), (1, 1)]), by decide +kernel, by decide +kernel, by decide +kernel, by decide +kernel, ⟨by decide +kernel, by decide +kernel, by decide +kernel, by decide +kernel⟩, by decide +kernel, by decide +kernel, by decide +kernel, by decide +kernel, by decide +kernel, by decide +kernel, by decide +kernel, by decide +kernel, by decide +kernel, by rintro n (⟨_, _, rfl⟩ | ⟨h, _⟩) <;> first | decide +kernel | exact absurd h (by decide +kernel)⟩

/-- Witness of `DoorbellsMoveTheirRingAndTakingMovesItsHead`. -/
theorem test_doorbellsMoveTheirRingAndTakingMovesItsHead_2_h : ∃ (s : State) (rid : Fin 66) (d : Desc), (s.host.running = true)
    ∧ ((s.ring rid).live = true) ∧ ((s.ring rid).head ≠ (s.ring rid).tail) ∧ ((s.ring rid).error = false) ∧ (s.CanTell rid)
    ∧ (s.owed (s.cqOf rid) < (s.ring (s.cqOf rid)).freeSlots) ∧ ((bitAt (d.f 1 1) 0 = false ∨ (s.ring rid).taken = []))
    ∧ (s.host.sets.length < 64) ∧ (s.loader.loads.length < 4) ∧ (s.f32 Reg.pwrState 0 2 ≠ 1) ∧ (s.power.dusk = none)
    ∧ (opcodeKnown rid (d.f 0 1) = true) ∧ (d.f 1 1 ≤ 1) ∧ (d.zero 2 4 = true)
    ∧ ((∀ n, (1 ≤ rid.val ∧ rid.val ≤ 64 ∧ n = rid.val - 1) ∨ (rid.val = 65 ∧ n = d.f 8 1 ∧ n < 64) → bitAt (s.r32 (Reg.topPartJob n)) 4 = false)) :=
  ⟨(wNoon.setRing 65 { wNoon.ring 65 with tail := 1 }), 65, (dsc [(0, 1), (8, 63)]), by decide +kernel, by decide +kernel, by decide +kernel, by decide +kernel, ⟨by decide +kernel, by decide +kernel, by decide +kernel, by decide +kernel⟩, by decide +kernel, by decide +kernel, by decide +kernel, by decide +kernel, by decide +kernel, by decide +kernel, by decide +kernel, by decide +kernel, by decide +kernel, by intro n h; have e : (dsc [(0, 1), (8, 63)]).f 8 1 = 63 := by { decide +kernel }; rw [e] at h; rcases h with h | h; { exact absurd h.2.1 (by decide +kernel) }; { have h' := h.2.1; subst h'; decide +kernel }⟩

/-- Witness of `DoorbellsMoveTheirRingAndTakingMovesItsHead`. -/
theorem test_doorbellsMoveTheirRingAndTakingMovesItsHead_3 : ∃ (s : State) (rid : Fin 66) (d : Desc), (s.host.running = true)
    ∧ ((s.ring rid).live = true) ∧ ((s.ring rid).head ≠ (s.ring rid).tail) ∧ ((s.ring rid).error = false) ∧ (s.CanTell rid)
    ∧ (s.owed (s.cqOf rid) < (s.ring (s.cqOf rid)).freeSlots) ∧ ((bitAt (d.f 1 1) 0 = false ∨ (s.ring rid).taken = []))
    ∧ (s.host.sets.length < 64) ∧ (s.loader.loads.length < 4) ∧ (s.f32 Reg.pwrState 0 2 ≠ 1) ∧ (s.power.dusk = none)
    ∧ (opcodeKnown rid (d.f 0 1) = false) :=
  ⟨(wNoon.setRing 0 { wNoon.ring 0 with tail := 1 }), 0, (dsc [(0, 0x3E)]), by decide +kernel, by decide +kernel, by decide +kernel, by decide +kernel, ⟨by decide +kernel, by decide +kernel, by decide +kernel, by decide +kernel⟩, by decide +kernel, by decide +kernel, by decide +kernel, by decide +kernel, by decide +kernel, by decide +kernel, by decide +kernel⟩

/-- Witness of `EventsAreWrittenInOrderAndAnnounced`. -/
theorem test_eventsAreWrittenInOrderAndAnnounced_0 : ∃ (s : State) (e : EventRec) (rest : List EventRec), (s.host.running = true)
    ∧ ((s.ring 66).live = true) ∧ ((s.ring 66).error = false) ∧ (0 < (s.ring 66).freeSlots) ∧ ((s.ring 66).tail < 2 ^ (s.ring 66).log2)
    ∧ (s.host.evLost = 0) ∧ (s.host.events = e :: rest) :=
  ⟨({ wNoon with host := { wHostIf with events := [⟨7, 6, 255, 3, 9⟩] } } : State), ⟨7, 6, 255, 3, 9⟩, [], by decide +kernel, by decide +kernel, by decide +kernel, by decide +kernel, by decide +kernel, by decide +kernel, by decide +kernel⟩

/-- Witness of `EventsAreWrittenInOrderAndAnnounced`. -/
theorem test_eventsAreWrittenInOrderAndAnnounced_1 : ∃ (s : State), (s.host.running = true) ∧ ((s.ring 66).live = true)
    ∧ ((s.ring 66).error = false) ∧ (0 < (s.ring 66).freeSlots) ∧ ((s.ring 66).tail < 2 ^ (s.ring 66).log2) ∧ (0 < s.host.evLost) :=
  ⟨({ wNoon with host := { wHostIf with evLost := 1 } } : State), by decide +kernel, by decide +kernel, by decide +kernel, by decide +kernel, by decide +kernel, by decide +kernel⟩

/-- Witness of `EventsAreWrittenInOrderAndAnnounced`. -/
theorem test_eventsAreWrittenInOrderAndAnnounced_2 : ∃ (s : State) (rid : Fin 256), ((s.ring rid).heldOff = true)
    ∧ ((s.ring rid).unannounced = true) ∧ (s.host.msixEnable = true) ∧ (s.host.msixMask = false)
    ∧ (bitAt (s.r32 (Reg.msixEntry ((s.ring rid).vector % 256) + 12)) 0 = false) :=
  ⟨((({ wNoon with host := { wHostIf with msixEnable := true } } : State).setRing 129 { live := true, vector := 255, heldOff := true, unannounced := true }).w32 (Reg.msixEntry 255 + 12) 0), 129, by decide +kernel, by decide +kernel, by decide +kernel, by decide +kernel, by decide +kernel⟩

/-- Witness of `EventsAreWrittenInOrderAndAnnounced`. -/
theorem test_eventsAreWrittenInOrderAndAnnounced_3 : ∃ (s : State) (rid : Fin 256), ((s.ring rid).heldOff = true)
    ∧ ((s.ring rid).unannounced = false) :=
  ⟨(wNoon.setRing 66 { live := true, heldOff := true }), 66, by decide +kernel, by decide +kernel⟩

/-- Witness of `MemoryIsReadAndWrittenByAddress`. -/
theorem test_memoryIsReadAndWrittenByAddress_3_w : ∃ (off : BitVec 29) (b : List Byte), (off.toNat + b.length ≤ 0x1C000000) :=
  ⟨0x1BFFFFFF, [1], by decide +kernel⟩

/-- Witness of `MemoryIsReadAndWrittenByAddress`. -/
theorem test_memoryIsReadAndWrittenByAddress_5_w : ∃ (s : State) (a : Nat), (9 ≤ addrDie a) ∧ (addrDie a ≤ 13)
    ∧ (bitAt (s.r32 Reg.hstErrInfo) 31 = false) :=
  ⟨wNoon, (9 * 2 ^ 36), by decide +kernel, by decide +kernel, by decide +kernel⟩

/-- Witness of `MemoryIsReadAndWrittenByAddress`. -/
theorem test_memoryIsReadAndWrittenByAddress_5_h : ∃ (s : State) (a : Nat), (9 ≤ addrDie a) ∧ (addrDie a ≤ 13)
    ∧ (bitAt (s.r32 Reg.hstErrInfo) 31 = false) :=
  ⟨wNoon, (14 * 2 ^ 36 - 4), by decide +kernel, by decide +kernel, by decide +kernel⟩

/-- Witness of `MemoryIsReadAndWrittenByAddress`. -/
theorem test_memoryIsReadAndWrittenByAddress_0 : ∃ (s : State) (d : Nat) (g : Nat) (off : Nat) (len : Nat) (n : Nat), (d < 8) ∧ (g < 3)
    ∧ (off < regionSize d g) ∧ (off + len ≤ regionSize d g) ∧ ((s.die d).cond ≠ .absent) ∧ (bitAt s.sec.shadow.partRules 1 = false)
    ∧ ((s.mesh d).idle = true) ∧ (s.Still (s.engCycle d n) (d * 2 ^ 36 + g * 2 ^ 32 + off) len) :=
  ⟨wNoon, 7, 2, (2 ^ 27 - 4), 4, 9, by decide +kernel, by decide +kernel, by decide +kernel, by decide +kernel, by decide +kernel, by decide +kernel, by decide +kernel, still_of _ rfl _ _ _⟩

/-- Witness of `MemoryIsReadAndWrittenByAddress`. -/
theorem test_memoryIsReadAndWrittenByAddress_1 : ∃ (s : State) (d : Nat) (g : Nat) (off : Nat) (len : Nat) (n : Nat), (d < 8) ∧ (g < 3)
    ∧ (off < regionSize d g) ∧ (off + len ≤ regionSize d g) ∧ ((s.die d).cond ≠ .absent) ∧ (bitAt s.sec.shadow.partRules 1 = false)
    ∧ ((s.mesh d).idle = true) ∧ (s.Still (s.engCycle d n) (d * 2 ^ 36 + g * 2 ^ 32 + off) len) ∧ (s.Sound (d * 2 ^ 36 + g * 2 ^ 32 + off) len) :=
  ⟨wNoon, 7, 2, (2 ^ 27 - 4), 4, 9, by decide +kernel, by decide +kernel, by decide +kernel, by decide +kernel, by decide +kernel, by decide +kernel, by decide +kernel, still_of _ rfl _ _ _, sound_of _ rfl _ _⟩

/-- Witness of `MemoryIsReadAndWrittenByAddress`. -/
theorem test_memoryIsReadAndWrittenByAddress_2 : ∃ (s : State) (d : Nat) (g : Nat) (off : Nat) (n : Nat) (b : List Byte), (d < 8) ∧ (g < 3)
    ∧ (off < regionSize d g) ∧ (off + b.length ≤ regionSize d g) ∧ ((s.die d).cond ≠ .absent) ∧ (s.Still (s.landStamp d n) (d * 2 ^ 36 + g * 2 ^ 32 + off) b.length) :=
  ⟨wNoon, 0, 0, (2 ^ 32 - 3), 9, [1, 2, 3], by decide +kernel, by decide +kernel, by decide +kernel, by decide +kernel, by decide +kernel, still_of _ rfl _ _ _⟩

/-- Witness of `MemoryIsReadAndWrittenByAddress`. -/
theorem test_memoryIsReadAndWrittenByAddress_3 : ∃ (s : State) (off : BitVec 29) (len : Nat), (off.toNat + len ≤ 0x1C000000) ∧ (bitAt s.sec.shadow.partRules 1 = false)
    ∧ (s.Sound (8 * 2 ^ 36 + off.toNat) len) :=
  ⟨wNoon, 0x1BFFFFFC, 4, by decide +kernel, by decide +kernel, sound_of _ rfl _ _⟩

/-- Witness of `MemoryIsReadAndWrittenByAddress`. -/
theorem test_memoryIsReadAndWrittenByAddress_5 : ∃ (s : State) (off : BitVec 32) (b : List Byte) (n : Nat), (off.toNat + b.length ≤ 2 ^ 32)
    ∧ (∀ d, d < 8 → s.Still (s.landStamp d n) (d * 2 ^ 36 + off.toNat) b.length) :=
  ⟨wNoon, 0xFFFFFFFF, [1], 9, by decide +kernel, fun _ _ => still_of _ rfl _ _ _⟩

/-- Witness of `StagedRegisterWritesWaitForTheHour`. -/
theorem test_stagedRegisterWritesWaitForTheHour_0 : ∃ (s : State) (n : Fin 64), (s.locked n = false) :=
  ⟨wNoon, 63, by decide +kernel⟩

/-- Witness of `StagedRegisterWritesWaitForTheHour`. -/
theorem test_stagedRegisterWritesWaitForTheHour_1 : ∃ (s : State) (d : Fin 8) (n : Fin 64) (k : Fin 3), ((s.die d).cond ≠ .absent)
    ∧ ((k ≠ 2 → s.locked n = false)) ∧ ((k = 2 → s.dieBusy d = false)) :=
  ⟨wNoon, 7, 63, 1, by decide +kernel, by decide +kernel, by decide +kernel⟩

/-- Witness of `StagedRegisterWritesWaitForTheHour`. -/
theorem test_stagedRegisterWritesWaitForTheHour_1_d : ∃ (s : State) (d : Fin 8) (n : Fin 64) (k : Fin 3), ((s.die d).cond ≠ .absent)
    ∧ ((k ≠ 2 → s.locked n = false)) ∧ ((k = 2 → s.dieBusy d = false)) :=
  ⟨wNoon, 7, 63, 2, by decide +kernel, by decide +kernel, by decide +kernel⟩

/-- Witness of `StagedRegisterWritesWaitForTheHour`. -/
theorem test_stagedRegisterWritesWaitForTheHour_2 : ∃ (s : State) (d : Fin 8) (n : Fin 64), ((s.die d).cond ≠ .absent) ∧ (s.locked n = false) :=
  ⟨wNoon, 7, 63, by decide +kernel, by decide +kernel⟩

/-- Witness of `StagedRegisterWritesWaitForTheHour`. -/
theorem test_stagedRegisterWritesWaitForTheHour_3 : ∃ (s : State) (d : Fin 8) (c : Fin 16), ((s.die d).cond ≠ .absent)
    ∧ ((∀ n, s.owner (16 * d.val + c.val) = some n → s.loadedOrRunning n = false)) :=
  ⟨wNoon, 7, 15, by decide +kernel, by intro n h; have e : wNoon.owner (16 * (7 : Fin 8).val + (15 : Fin 16).val) = none := by { decide +kernel }; exact absurd (e.symm.trans h) (by simp)⟩

/-- Witness of `StagedRegisterWritesWaitForTheHour`. -/
theorem test_stagedRegisterWritesWaitForTheHour_5 : ∃ (s : State) (v : BitVec 32), (12 ≤ v.toNat % 32) ∧ (v.toNat % 32 ≤ 24)
    ∧ ((∀ n, n < 64 → s.loadedOrRunning n = false)) ∧ (v.toNat % 32 ≠ fld (s.nextWord Reg.topHourCtl) 0 5) :=
  ⟨wNoon, 12, by decide +kernel, by decide +kernel, by decide +kernel, by decide +kernel⟩

/-- Witness of `StagedRegisterWritesWaitForTheHour`. -/
theorem test_stagedRegisterWritesWaitForTheHour_5_h : ∃ (s : State) (v : BitVec 32), (12 ≤ v.toNat % 32) ∧ (v.toNat % 32 ≤ 24)
    ∧ ((∀ n, n < 64 → s.loadedOrRunning n = false)) ∧ (v.toNat % 32 ≠ fld (s.nextWord Reg.topHourCtl) 0 5) :=
  ⟨wNoon, 24, by decide +kernel, by decide +kernel, by decide +kernel, by decide +kernel⟩

/-- Witness of `RegisterWritesAndReadsThatActAtOnce`. -/
theorem test_registerWritesAndReadsThatActAtOnce_0 : ∃ (s : State) (d : Fin 8) (e : Fin 256), ((s.die d).cond ≠ .absent)
    ∧ (s.loadedOrRunning (s.mcastOwner d e) = false) :=
  ⟨wNoon, 7, 255, by decide +kernel, by decide +kernel⟩

/-- Witness of `RegisterWritesAndReadsThatActAtOnce`. -/
theorem test_registerWritesAndReadsThatActAtOnce_1 : ∃ (s : State) (n : Fin 64), (s.loadedOrRunning n = false) :=
  ⟨wNoon, 63, by decide +kernel⟩

/-- Witness of `RegisterWritesAndReadsThatActAtOnce`. -/
theorem test_registerWritesAndReadsThatActAtOnce_2 : ∃ (off : Nat) (r : RegRow) (x : Nat), (0x800000 ≤ off) ∧ (off < 0xD00000) ∧ (off % 4 = 0)
    ∧ (Reg.find (Reg.iodBase + off) = some (r, x)) ∧ (wordMask r.rwh x = 0) :=
  ⟨0x900000, ⟨4456448, 4096, 64, 4, 1024, 4, 3204452351, 0, 0, 0⟩, 0, by decide +kernel, by decide +kernel, by decide +kernel, by decide +kernel, by decide +kernel⟩

/-- Witness of `RegisterWritesAndReadsThatActAtOnce`. -/
theorem test_registerWritesAndReadsThatActAtOnce_3 : ∃ (s : State) (d : Fin 8), ((s.die d).cond ≠ .absent) :=
  ⟨wNoon, 7, by decide +kernel⟩

/-- Witness of `RegisterWritesAndReadsThatActAtOnce`. -/
theorem test_registerWritesAndReadsThatActAtOnce_4 : ∃ (s : State) (d : Fin 8) (v : BitVec 64), ((s.die d).cond ≠ .absent)
    ∧ (bitAt v.toNat 31 = true) :=
  ⟨wNoon, 7, 0x80000000, by decide +kernel, by decide +kernel⟩

/-- Witness of `FlagFileCycleGivesOneResultInAnyOrder`. -/
theorem test_flagFileCycleGivesOneResultInAnyOrder_0_w : ∃ (s : State) (d : Fin 8) (now : Nat), ((s.die d).cond ≠ .absent) ∧ ((s.die d).flagT ≠ now) :=
  ⟨wNoon, 7, 1, by decide +kernel, by decide +kernel⟩

/-- Witness of `FlagFileCycleGivesOneResultInAnyOrder`. -/
theorem test_flagFileCycleGivesOneResultInAnyOrder_3 : ∃ (s : State) (u : State) (t : State) (u' : State) (t' : State) (r : Fin 32) (d : Fin 8) (c : Fin 4) (n : Fin 256) (now : Nat), ((s.die d).cond ≠ .absent)
    ∧ ((s.die d).flagT ≠ now) ∧ (exec (.flagWrite r d c n [1] now) s = .next u) ∧ (exec (.flagWrite r d c n [0] now) u = .next t)
    ∧ (exec (.flagWrite r d c n [0] now) s = .next u') ∧ (exec (.flagWrite r d c n [1] now) u' = .next t') :=
  ⟨wNoon, (nx (exec (.flagWrite 0 0 0 0 [1] 1) wNoon)), (nx (exec (.flagWrite 0 0 0 0 [0] 1) (nx (exec (.flagWrite 0 0 0 0 [1] 1) wNoon)))), (nx (exec (.flagWrite 0 0 0 0 [0] 1) wNoon)), (nx (exec (.flagWrite 0 0 0 0 [1] 1) (nx (exec (.flagWrite 0 0 0 0 [0] 1) wNoon)))), 0, 0, 0, 0, 1, by decide +kernel, by decide +kernel, rfl, rfl, rfl, rfl⟩

/-- Witness of `FlagFileCycleGivesOneResultInAnyOrder`. -/
theorem test_flagFileCycleGivesOneResultInAnyOrder_5 : ∃ (s : State) (u : State) (t : State) (u' : State) (t' : State) (r : Fin 32) (d : Fin 8) (c : Fin 4) (n : Fin 256) (now : Nat) (b0 : Byte) (b1 : Byte) (b2 : Byte) (b3 : Byte) (a0 : Byte) (a1 : Byte) (a2 : Byte) (a3 : Byte), ((s.die d).cond ≠ .absent)
    ∧ ((s.die d).flagT ≠ now) ∧ (exec (.counterValueWrite r d c n [b0, b1, b2, b3] now) s = .next u)
    ∧ (exec (.counterAdd r d c n [a0, a1, a2, a3] now) u = .next t) ∧ (exec (.counterAdd r d c n [a0, a1, a2, a3] now) s = .next u')
    ∧ (exec (.counterValueWrite r d c n [b0, b1, b2, b3] now) u' = .next t') :=
  ⟨wNoon, (nx (exec (.counterValueWrite 0 0 0 0 [1, 2, 3, 4] 1) wNoon)), (nx (exec (.counterAdd 0 0 0 0 [255, 255, 255, 255] 1) (nx (exec (.counterValueWrite 0 0 0 0 [1, 2, 3, 4] 1) wNoon)))), (nx (exec (.counterAdd 0 0 0 0 [255, 255, 255, 255] 1) wNoon)), (nx (exec (.counterValueWrite 0 0 0 0 [1, 2, 3, 4] 1) (nx (exec (.counterAdd 0 0 0 0 [255, 255, 255, 255] 1) wNoon)))), 0, 0, 0, 0, 1, 1, 2, 3, 4, 255, 255, 255, 255, by decide +kernel, by decide +kernel, rfl, rfl, rfl, rfl⟩

/-- Witness of `FlagFileCycleGivesOneResultInAnyOrder`. -/
theorem test_flagFileCycleGivesOneResultInAnyOrder_0 : ∃ (s : State) (d : Fin 8) (n : Fin 256) (b : List Byte), ((s.die d).cond ≠ .absent)
    ∧ (b ≠ []) ∧ (n.val + b.length ≤ 256) :=
  ⟨wNoon, 7, 255, [1], by decide +kernel, by decide +kernel, by decide +kernel⟩

/-- Witness of `FlagFileCycleGivesOneResultInAnyOrder`. -/
theorem test_flagFileCycleGivesOneResultInAnyOrder_1 : ∃ (s : State) (d : Fin 8) (n : Fin 256) (b : List Byte), ((s.die d).cond ≠ .absent)
    ∧ (b ≠ []) ∧ (b.length % 4 = 0) ∧ (4 * n.val + b.length ≤ 1024) :=
  ⟨wNoon, 7, 254, [1, 2, 3, 4, 5, 6, 7, 8], by decide +kernel, by decide +kernel, by decide +kernel, by decide +kernel⟩

/-- Witness of `DiesArriveAndTheWindowOpens`. -/
theorem test_diesArriveAndTheWindowOpens_3 : ∃ (s : State), (s.inNoon = true) ∧ (s.diesIn ≠ []) ∧ (s.diesIn.all s.waitsAt = true)
    ∧ (s.hour.joining = false) ∧ (s.hourPorts = []) ∧ (s.hour.opened + 1 < 2 ^ 64) :=
  ⟨({ wNoon with dies := (List.range 8).map (fun d => (d, { atHour := some 1, run := false })) } : State), by decide +kernel, by decide +kernel, by decide +kernel, by decide +kernel, by decide +kernel, by decide +kernel⟩

/-- Witness of `DiesArriveAndTheWindowOpens`. -/
theorem test_diesArriveAndTheWindowOpens_4 : ∃ (s : State), (s.inNoon = true) ∧ (s.diesIn.any s.waitsAt = true) ∧ (s.hour.joining = false)
    ∧ (s.hourPorts = []) ∧ (s.hour.opened + 1 < 2 ^ 64) :=
  ⟨(wNoon.setDie 7 { atHour := some 1, run := false }), by decide +kernel, by decide +kernel, by decide +kernel, by decide +kernel, by decide +kernel⟩

/-- Witness of `DiesArriveAndTheWindowOpens`. -/
theorem test_diesArriveAndTheWindowOpens_0 : ∃ (s : State) (y : State) (d : Fin 8) (now : Nat), (s.inNoon = true) ∧ (s.dieIn d = true)
    ∧ ((s.die d).run = true) ∧ (y = s.meshTo d (s.engCycle d now - (s.schedCount d now - ((s.die d).lastHour + 1) * s.hourLen))) ∧ (s.schedCount d now < ((s.die d).lastHour + 1) * s.hourLen) :=
  ⟨wNoon, (wNoon.meshTo (7 : Fin 8) (wNoon.engCycle (7 : Fin 8) (65535 : Nat) - (wNoon.schedCount (7 : Fin 8) (65535 : Nat) - ((wNoon.die (7 : Fin 8)).lastHour + 1) * wNoon.hourLen))), 7, 65535, by decide +kernel, by decide +kernel, by decide +kernel, rfl, by decide +kernel⟩

/-- Witness of `DiesArriveAndTheWindowOpens`. -/
theorem test_diesArriveAndTheWindowOpens_1 : ∃ (s : State) (y : State) (d : Fin 8) (now : Nat), (s.inNoon = true) ∧ (s.dieIn d = true)
    ∧ ((s.die d).run = true) ∧ (y = s.meshTo d (s.engCycle d now - (s.schedCount d now - ((s.die d).lastHour + 1) * s.hourLen))) ∧ (((s.die d).lastHour + 1) * s.hourLen ≤ s.schedCount d now)
    ∧ (s.hour.opened ≤ (s.die d).lastHour) :=
  ⟨wNoon, (wNoon.meshTo (7 : Fin 8) (wNoon.engCycle (7 : Fin 8) (65536 : Nat) - (wNoon.schedCount (7 : Fin 8) (65536 : Nat) - ((wNoon.die (7 : Fin 8)).lastHour + 1) * wNoon.hourLen))), 7, 65536, by decide +kernel, by decide +kernel, by decide +kernel, rfl, by decide +kernel, by decide +kernel⟩

/-- Witness of `DiesArriveAndTheWindowOpens`. -/
theorem test_diesArriveAndTheWindowOpens_2 : ∃ (s : State) (y : State) (d : Fin 8) (now : Nat), (s.inNoon = true) ∧ (s.dieIn d = true)
    ∧ ((s.die d).run = true) ∧ (y = s.meshTo d (s.engCycle d now - (s.schedCount d now - ((s.die d).lastHour + 1) * s.hourLen))) ∧ (((s.die d).lastHour + 1) * s.hourLen ≤ s.schedCount d now)
    ∧ ((s.die d).lastHour < s.hour.opened) ∧ (∀ z, z ∈ (s.die d).held → ∀ w, w ∈ z.now → addrDie w.2.1 = d.val) :=
  ⟨({ wNoon with hour := { opened := 1 } } : State), (({ wNoon with hour := { opened := 1 } } : State).meshTo (7 : Fin 8) (({ wNoon with hour := { opened := 1 } } : State).engCycle (7 : Fin 8) (65536 : Nat) - (({ wNoon with hour := { opened := 1 } } : State).schedCount (7 : Fin 8) (65536 : Nat) - ((({ wNoon with hour := { opened := 1 } } : State).die (7 : Fin 8)).lastHour + 1) * ({ wNoon with hour := { opened := 1 } } : State).hourLen))), 7, 65536, by decide +kernel, by decide +kernel, by decide +kernel, rfl, by decide +kernel, by decide +kernel, fun _ h => absurd (show _ ∈ ([] : List _) from h) List.not_mem_nil⟩

/-- Witness of `ChangeSetsWaitForTheirHour`. -/
theorem test_changeSetsWaitForTheirHour_0 : ∃ (s : State) (d : Desc) (b : List Byte), (1 ≤ d.f 16 2) ∧ (d.f 16 2 ≤ 256) ∧ (d.zero 18 24 = true)
    ∧ (d.zero 32 64 = true) ∧ (bitAt (d.f 1 1) 1 = false) ∧ (d.f 8 8 % 16 = 0) ∧ (d.f 8 8 + 16 * d.f 16 2 ≤ 2 ^ 64)
    ∧ ((regEntries b (d.f 16 2)).all entryOk = true) ∧ (d.f 24 8 = 0 ∨ s.hour.opened < d.f 24 8) :=
  ⟨wNoon, (dsc [(0, 4), (16, 1)]), [0, 0, 0x90, 0, 0x8F, 0, 0, 0, 5, 0, 0, 0, 0, 0, 0, 0], by decide +kernel, by decide +kernel, by decide +kernel, by decide +kernel, by decide +kernel, by decide +kernel, by decide +kernel, by decide +kernel, by decide +kernel⟩

/-- Witness of `ChangeSetsWaitForTheirHour`. -/
theorem test_changeSetsWaitForTheirHour_1 : ∃ (s : State) (d : Desc) (b : List Byte), (1 ≤ d.f 16 2) ∧ (d.f 16 2 ≤ 256) ∧ (d.zero 18 24 = true)
    ∧ (d.zero 32 64 = true) ∧ (bitAt (d.f 1 1) 1 = false) ∧ (d.f 8 8 % 16 = 0) ∧ (d.f 8 8 + 16 * d.f 16 2 ≤ 2 ^ 64)
    ∧ ((regEntries b (d.f 16 2)).all entryOk = true) ∧ (d.f 24 8 ≠ 0) ∧ (d.f 24 8 ≤ s.hour.opened) ∧ (s.CanTell 0) :=
  ⟨({ wNoon with hour := { opened := 5 } } : State), (dsc [(0, 4), (16, 1), (24, 5)]), [0, 0, 0x90, 0, 0x8F, 0, 0, 0, 5, 0, 0, 0, 0, 0, 0, 0], by decide +kernel, by decide +kernel, by decide +kernel, by decide +kernel, by decide +kernel, by decide +kernel, by decide +kernel, by decide +kernel, by decide +kernel, by decide +kernel, ⟨by decide +kernel, by decide +kernel, by decide +kernel, by decide +kernel⟩⟩

/-- Witness of `ChangeSetsWaitForTheirHour`. -/
theorem test_changeSetsWaitForTheirHour_2 : ∃ (s : State) (d : Desc) (b : List Byte), (1 ≤ d.f 16 2) ∧ (d.f 16 2 ≤ 256) ∧ (d.zero 18 24 = true)
    ∧ (d.zero 32 64 = true) ∧ (bitAt (d.f 1 1) 1 = false) ∧ (d.f 8 8 % 16 = 0) ∧ (d.f 8 8 + 16 * d.f 16 2 ≤ 2 ^ 64)
    ∧ ((regEntries b (d.f 16 2)).all entryOk = false) ∧ (s.CanTell 0) :=
  ⟨wNoon, (dsc [(0, 4), (16, 256)]), [], by decide +kernel, by decide +kernel, by decide +kernel, by decide +kernel, by decide +kernel, by decide +kernel, by decide +kernel, by decide +kernel, ⟨by decide +kernel, by decide +kernel, by decide +kernel, by decide +kernel⟩⟩

/-- Witness of `ChangeSetsWaitForTheirHour`. -/
theorem test_changeSetsWaitForTheirHour_3 : ∃ (s : State) (c : ChangeSet), (s.host.sets.find? (fun c => c.planned && decide (max c.target (c.takenAt + 1) + 4096 ≤ s.hourCount)) = some c)
    ∧ (c.cmdId < 2 ^ 32) ∧ (s.CanTell 0) :=
  ⟨((({ wNoon with host := { wHostIf with sets := [⟨7, true, 0, [], 0⟩] } } : State)).w64 Reg.topHourCount 4097), ⟨7, true, 0, [], 0⟩, by decide +kernel, by decide +kernel, ⟨by decide +kernel, by decide +kernel, by decide +kernel, by decide +kernel⟩⟩

/-- Witness of `SleepAndWakeCommandsBeginTheirTransitions`. -/
theorem test_sleepAndWakeCommandsBeginTheirTransitions_4 : ∃ (s : State) (d : Desc), (s.inTwilight = true) ∧ (s.power.dusk = none)
    ∧ (s.power.waking = none) ∧ (s.power.thermTrip = false) ∧ (bitAt (s.r32 Reg.clkRef) 0 = true) ∧ (d.zero 8 64 = true) ∧ (s.power.wakeCmd = none) :=
  ⟨wTwilight, (dsc [(0, 18)]), by decide +kernel, by decide +kernel, by decide +kernel, by decide +kernel, by decide +kernel, by decide +kernel, by decide +kernel⟩

/-- Witness of `SleepAndWakeCommandsBeginTheirTransitions`. -/
theorem test_sleepAndWakeCommandsBeginTheirTransitions_5 : ∃ (s : State), (s.inTwilight = true) ∧ (s.power.dusk = none) ∧ (s.power.waking = none)
    ∧ (s.power.thermTrip = false) ∧ (bitAt (s.r32 Reg.clkRef) 0 = true) ∧ (bitAt (s.r32 Reg.pwrWake) 0 = true) :=
  ⟨(wTwilight.set32 Reg.pwrWake 0), by decide +kernel, by decide +kernel, by decide +kernel, by decide +kernel, by decide +kernel, by decide +kernel⟩

/-- Witness of `SleepAndWakeCommandsBeginTheirTransitions`. -/
theorem test_sleepAndWakeCommandsBeginTheirTransitions_6 : ∃ (s : State), (s.inTwilight = true) ∧ (s.power.dusk = none) ∧ (s.power.waking = none)
    ∧ (s.power.thermTrip = false) ∧ (bitAt (s.r32 Reg.clkRef) 0 = true) ∧ (bitAt (s.r32 Reg.pwrWake) 1 = true) ∧ (s.f32 Reg.pwrWake 8 24 ≠ 0) :=
  ⟨(wTwilight.set32 Reg.pwrWake 1).sf32 Reg.pwrWake 8 24 1, by decide +kernel, by decide +kernel, by decide +kernel, by decide +kernel, by decide +kernel, by decide +kernel, by decide +kernel⟩

/-- Witness of `SleepAndWakeCommandsBeginTheirTransitions`. -/
theorem test_sleepAndWakeCommandsBeginTheirTransitions_7 : ∃ (s : State) (id : Nat), (s.power.wakeCmd = some id) ∧ (id < 2 ^ 32)
    ∧ (s.power.waking = none) ∧ (bitAt (s.r32 Reg.clkRef) 0 = false) ∧ (s.CanTell 0) :=
  ⟨({ wTwilight.clr32 Reg.clkRef 0 with power := { wakeCmd := some 7 } } : State), 7, by decide +kernel, by decide +kernel, by decide +kernel, by decide +kernel, ⟨by decide +kernel, by decide +kernel, by decide +kernel, by decide +kernel⟩⟩

/-- Witness of `SleepAndWakeCommandsBeginTheirTransitions`. -/
theorem test_sleepAndWakeCommandsBeginTheirTransitions_0 : ∃ (s : State) (d : Desc), (d.zero 8 64 = true) ∧ (s.anyLoad = false) ∧ (s.power.dusk = none)
    ∧ (s.power.waking = none) ∧ (s.power.wakeCmd = none) ∧ (s.anyRunning = false) ∧ (s.inNoon = true) :=
  ⟨wNoon, (dsc [(0, 16)]), by decide +kernel, by decide +kernel, by decide +kernel, by decide +kernel, by decide +kernel, by decide +kernel, by decide +kernel⟩

/-- Witness of `SleepAndWakeCommandsBeginTheirTransitions`. -/
theorem test_sleepAndWakeCommandsBeginTheirTransitions_1 : ∃ (s : State) (d : Desc), (d.zero 8 64 = true) ∧ (s.anyLoad = false) ∧ (s.power.dusk = none)
    ∧ (s.power.waking = none) ∧ (s.power.wakeCmd = none) ∧ (s.anyRunning = false) ∧ (s.inNoon = true ∨ s.inTwilight = true) :=
  ⟨wTwilight, (dsc [(0, 16)]), by decide +kernel, by decide +kernel, by decide +kernel, by decide +kernel, by decide +kernel, by decide +kernel, by decide +kernel⟩

/-- Witness of `SleepAndWakeCommandsBeginTheirTransitions`. -/
theorem test_sleepAndWakeCommandsBeginTheirTransitions_2 : ∃ (s : State) (d : Desc), (d.zero 8 64 = true) ∧ (s.anyLoad = false) ∧ (s.power.dusk = none)
    ∧ (s.power.waking = none) ∧ (s.power.wakeCmd = none) ∧ (s.anyRunning = true) ∧ (s.CanTell 0) :=
  ⟨wRun, (dsc [(0, 16)]), by decide +kernel, by decide +kernel, by decide +kernel, by decide +kernel, by decide +kernel, by decide +kernel, ⟨by decide +kernel, by decide +kernel, by decide +kernel, by decide +kernel⟩⟩

/-- Witness of `TransitionsBetweenPowerStatesComplete`. -/
theorem test_transitionsBetweenPowerStatesComplete_0 : ∃ (s : State) (k : Dusk), (s.power.dusk = some k) ∧ (k.drained = false)
    ∧ (k.target = .twilight ∨ k.target = .midnight) ∧ (s.txnList = []) :=
  ⟨({ wNoon with power := { dusk := some ⟨.twilight, 7, false⟩ } } : State), ⟨.twilight, 7, false⟩, by decide +kernel, by decide +kernel, by decide +kernel, by decide +kernel⟩

/-- Witness of `TransitionsBetweenPowerStatesComplete`. -/
theorem test_transitionsBetweenPowerStatesComplete_0_c : ∃ (s : State) (k : Dusk), (s.power.dusk = some k) ∧ (k.drained = false)
    ∧ (k.target = .twilight ∨ k.target = .midnight) ∧ (s.txnList = []) :=
  ⟨({ wNoon with power := { dusk := some ⟨.midnight, 7, false⟩ } } : State), ⟨.midnight, 7, false⟩, by decide +kernel, by decide +kernel, by decide +kernel, by decide +kernel⟩

/-- Witness of `TransitionsBetweenPowerStatesComplete`. -/
theorem test_transitionsBetweenPowerStatesComplete_1 : ∃ (s : State) (k : Dusk), (s.power.dusk = some k) ∧ (k.drained = true)
    ∧ (s.power.wakes = []) ∧ (k.target = .twilight) :=
  ⟨({ wNoon with power := { dusk := some ⟨.twilight, 7, true⟩ } } : State), ⟨.twilight, 7, true⟩, by decide +kernel, by decide +kernel, by decide +kernel, by decide +kernel⟩

/-- Witness of `TransitionsBetweenPowerStatesComplete`. -/
theorem test_transitionsBetweenPowerStatesComplete_2 : ∃ (s : State) (k : Dusk), (s.power.dusk = some k) ∧ (k.drained = true)
    ∧ (s.power.wakes = []) ∧ (k.target = .midnight) :=
  ⟨({ wNoon with power := { dusk := some ⟨.midnight, 7, true⟩ } } : State), ⟨.midnight, 7, true⟩, by decide +kernel, by decide +kernel, by decide +kernel, by decide +kernel⟩

/-- Witness of `TransitionsBetweenPowerStatesComplete`. -/
theorem test_transitionsBetweenPowerStatesComplete_3 : ∃ (s : State) (src : Nat), (s.power.waking = some src) ∧ (s.inTwilight = true) :=
  ⟨({ wTwilight with power := { waking := some 1 } } : State), 1, by decide +kernel, by decide +kernel⟩

/-- Witness of `ReferencePowerGoodDroopAndGuardEvents`. -/
theorem test_referencePowerGoodDroopAndGuardEvents_0 : ∃ (s : State), (bitAt (s.r32 Reg.clkRef) 0 = true) :=
  ⟨wTwilight, by decide +kernel⟩

/-- Witness of `ReferencePowerGoodDroopAndGuardEvents`. -/
theorem test_referencePowerGoodDroopAndGuardEvents_1 : ∃ (s : State), (bitAt (s.r32 Reg.clkRef) 0 = false) ∧ (s.power.wakes = []) :=
  ⟨(wTwilight.clr32 Reg.clkRef 0), by decide +kernel, by decide +kernel⟩

/-- Witness of `ReferencePowerGoodDroopAndGuardEvents`. -/
theorem test_referencePowerGoodDroopAndGuardEvents_2 : ∃ (s : State), (s.power.mainEn = true) ∧ (s.power.waitGood = false) :=
  ⟨({ wMidnight with power := { mainEn := true } } : State), by decide +kernel, by decide +kernel⟩

/-- Witness of `ReferencePowerGoodDroopAndGuardEvents`. -/
theorem test_referencePowerGoodDroopAndGuardEvents_4 : ∃ (s : State) (d : Fin 8) (now : Nat) (x : Droop), (Tab.get (fun _ => none) s.power.droop d = some x)
    ∧ (x.last + 32 ≤ now) :=
  ⟨({ wNoon with power := { droop := [(7, some ⟨100, 120⟩)] } } : State), 7, 152, ⟨100, 120⟩, by decide +kernel, by decide +kernel⟩

/-- Witness of `ReferencePowerGoodDroopAndGuardEvents`. -/
theorem test_referencePowerGoodDroopAndGuardEvents_5 : ∃ (s : State) (fast : Nat) (slow : Nat), (fast ≤ 4800)
    ∧ (slow ≤ 2 * min 2200 (max 600 (s.f32 Reg.pwrCap 0 12))) :=
  ⟨wNoon, 4800, 1200, by decide +kernel, by decide +kernel⟩

/-- Witness of `ReferencePowerGoodDroopAndGuardEvents`. -/
theorem test_referencePowerGoodDroopAndGuardEvents_6 : ∃ (s : State) (fast : Nat) (slow : Nat), (4800 < fast ∨ 2 * min 2200 (max 600 (s.f32 Reg.pwrCap 0 12)) < slow) :=
  ⟨wNoon, 4801, 0, by decide +kernel⟩

/-- Witness of `ReferencePowerGoodDroopAndGuardEvents`. -/
theorem test_referencePowerGoodDroopAndGuardEvents_6_h : ∃ (s : State) (fast : Nat) (slow : Nat), (4800 < fast ∨ 2 * min 2200 (max 600 (s.f32 Reg.pwrCap 0 12)) < slow) :=
  ⟨wNoon, 0, 4401, by decide +kernel⟩

/-- Witness of `DieHoldsStopAndRecord`. -/
theorem test_dieHoldsStopAndRecord_3_w : ∃ (s : State) (d : Fin 8) (now : Nat) (h : Hold), ((s.die d).hold = some h)
    ∧ (max 1 (s.f32 (Reg.fabHoldCtl d) 16 16) * s.noonMHz < now - h.since) :=
  ⟨wHold, 7, (5 + 65535 * 4000), ⟨2, 1, 0, 0, 5, none⟩, by decide +kernel, by decide +kernel⟩

/-- Witness of `DieHoldsStopAndRecord`. -/
theorem test_dieHoldsStopAndRecord_0 : ∃ (s : State) (y : State) (d : Fin 8) (now : Nat) (k : Nat) (m : Nat) (c : Nat) (card : Nat) (rest : List (Nat × Nat × Nat × Nat)), (s.dieRuns d now = true)
    ∧ ((s.die d).hold = none) ∧ (y = s.meshTo d (s.engCycle d now)) ∧ (y.holders d now = (k, m, c, card) :: rest) :=
  ⟨wWait, (wWait.meshTo (0 : Fin 8) (wWait.engCycle (0 : Fin 8) (5 : Nat))), 0, 5, 0, 0, 0, 0, [], by decide +kernel, by decide +kernel, rfl, by decide +kernel⟩

/-- Witness of `DieHoldsStopAndRecord`. -/
theorem test_dieHoldsStopAndRecord_1 : ∃ (s : State) (d : Fin 8) (now : Nat), ((s.meshTo d (s.engCycle d now)).holders d now = [] ∨ s.dieRuns d now = false ∨ (s.die d).hold ≠ none) :=
  ⟨wNoon, 7, 5, by decide +kernel⟩

/-- Witness of `DieHoldsStopAndRecord`. -/
theorem test_dieHoldsStopAndRecord_2 : ∃ (s : State) (y : State) (d : Fin 8) (now : Nat) (h : Hold), ((s.die d).hold ≠ none) ∧ (y = s.settleReports d now)
    ∧ ((y.die d).hold = some h) ∧ (y.holders d now = []) :=
  ⟨wHold, (wHold.settleReports (7 : Fin 8) (9 : Nat)), 7, 9, ⟨2, 1, 0, 0, 5, none⟩, by decide +kernel, rfl, by decide +kernel, by decide +kernel⟩

/-- Witness of `DieHoldsStopAndRecord`. -/
theorem test_dieHoldsStopAndRecord_3 : ∃ (s : State) (y : State) (d : Fin 8) (now : Nat) (h : Hold), ((s.die d).hold ≠ none) ∧ (y = s.settleReports d now)
    ∧ ((y.die d).hold = some h) ∧ (y.holders d now ≠ []) :=
  ⟨wHeld, (wHeld.settleReports (0 : Fin 8) (9 : Nat)), 0, 9, ⟨0, 0, 0, 0, 5, none⟩, by decide +kernel, rfl, by decide +kernel, by decide +kernel⟩

/-- Witness of `DieHoldsStopAndRecord`. -/
theorem test_dieHoldsStopAndRecord_5 : ∃ (s : State) (d : Fin 8) (now : Nat) (h : Hold), ((s.die d).hold = some h) ∧ (now - h.since ≤ max 1 (s.f32 (Reg.fabHoldCtl d) 16 16) * s.noonMHz) :=
  ⟨wHold, 7, 6, ⟨2, 1, 0, 0, 5, none⟩, by decide +kernel, by decide +kernel⟩

/-- Witness of `DomainResetsFencesAndHangs`. -/
theorem test_domainResetsFencesAndHangs_0 : ∃ (s : State) (d : Desc), (d.f 8 1 = 2) ∧ (d.f 9 1 < 8) ∧ (d.zero 10 64 = true)
    ∧ ((s.die (d.f 9 1)).cond ≠ .absent) ∧ ((∀ n, n < 64 → s.pstate n ≠ 3 ∨ s.hasCoreOn n (d.f 9 1) = false)) ∧ (s.power.dusk = none)
    ∧ (s.power.resets = []) :=
  ⟨wNoon, (dsc [(8, 2), (9, 7)]), by decide +kernel, by decide +kernel, by decide +kernel, by decide +kernel, by decide +kernel, by decide +kernel, by decide +kernel⟩

/-- Witness of `DomainResetsFencesAndHangs`. -/
theorem test_domainResetsFencesAndHangs_1 : ∃ (s : State) (d : Desc), (d.f 8 1 = 2) ∧ (d.f 9 1 < 8) ∧ (d.zero 10 64 = true)
    ∧ ((s.die (d.f 9 1)).cond ≠ .absent) ∧ ((∃ n, n < 64 ∧ s.pstate n = 3 ∧ s.hasCoreOn n (d.f 9 1) = true)) ∧ (s.CanTell 0) :=
  ⟨wRun, (dsc [(8, 2), (9, 0)]), by decide +kernel, by decide +kernel, by decide +kernel, by decide +kernel, ⟨0, by decide +kernel, by decide +kernel, by decide +kernel⟩, ⟨by decide +kernel, by decide +kernel, by decide +kernel, by decide +kernel⟩⟩

/-- Witness of `DomainResetsFencesAndHangs`. -/
theorem test_domainResetsFencesAndHangs_2 : ∃ (s : State) (d : Fin 8) (id : Nat), (id < 2 ^ 32) ∧ (s.CanTell 0)
    ∧ (s.power.resets = [⟨2, d, 0, 0, some id⟩]) :=
  ⟨({ wNoon with power := { resets := [⟨2, 7, 0, 0, some 9⟩] } } : State), 7, 9, by decide +kernel, ⟨by decide +kernel, by decide +kernel, by decide +kernel, by decide +kernel⟩, by decide +kernel⟩

/-- Witness of `DomainResetsFencesAndHangs`. -/
theorem test_domainResetsFencesAndHangs_3 : ∃ (s : State) (d : Fin 8) (k : Fin 4) (slot : Fin 5) (id : Nat), (id < 2 ^ 32) ∧ (s.CanTell 0)
    ∧ (s.power.resets = [⟨1, d, k, slot, some id⟩]) ∧ (bitAt (s.r32 (Reg.cdSlotMap d k)) (15 + slot.val) = true) :=
  ⟨({ wNoon.set32 (Reg.cdSlotMap 7 3) 19 with power := { resets := [⟨1, 7, 3, 4, some 9⟩] } } : State), 7, 3, 4, 9, by decide +kernel, ⟨by decide +kernel, by decide +kernel, by decide +kernel, by decide +kernel⟩, by decide +kernel, by decide +kernel⟩

/-- Witness of `DomainResetsFencesAndHangs`. -/
theorem test_domainResetsFencesAndHangs_4 : ∃ (skew : Nat), (skew ≤ 192) :=
  ⟨192, by decide +kernel⟩

/-- Witness of `DomainResetsFencesAndHangs`. -/
theorem test_domainResetsFencesAndHangs_6 : ∃ (s : State) (d : Desc) (g : Nat) (rest : List Nat), (d.f 9 1 < 8) ∧ (d.f 10 1 < 4) ∧ (d.f 11 1 < 5)
    ∧ (d.zero 8 9 = true) ∧ (d.zero 12 64 = true) ∧ ((s.die (d.f 9 1)).cond ≠ .absent)
    ∧ (s.scopeCores 1 (d.f 9 1) (d.f 10 1) (d.f 11 1) = g :: rest) ∧ ((s.core g).fenced = false)
    ∧ (bitAt (s.r32 (Reg.cdSlotMap (d.f 9 1) (d.f 10 1))) (15 + d.f 11 1) = false) ∧ (s.CanTell 0) :=
  ⟨wNoon, (dsc [(9, 7), (10, 3), (11, 0)]), 124, [], by decide +kernel, by decide +kernel, by decide +kernel, by decide +kernel, by decide +kernel, by decide +kernel, by decide +kernel, by decide +kernel, by decide +kernel, ⟨by decide +kernel, by decide +kernel, by decide +kernel, by decide +kernel⟩⟩

/-- Witness of `DomainResetsFencesAndHangs`. -/
theorem test_domainResetsFencesAndHangs_5 : ∃ (s : State) (x : Option (Fin 4)) (skew : Nat), (x = none ∨ 192 < skew) ∧ (s.power.resets = [])
    ∧ (s.power.faultAt = none) :=
  ⟨wNoon, none, 193, by decide +kernel, by decide +kernel, by decide +kernel⟩

/-- Witness of `DomainResetsFencesAndHangs`. -/
theorem test_domainResetsFencesAndHangs_7 : ∃ (s : State) (d : Fin 8) (now : Nat) (h : Hold), ((s.die d).hold = some h) ∧ (now - h.hung.getD h.since < max 1 (s.f32 Reg.dawnHangCtl 0 16) * 1000 * s.noonMHz) :=
  ⟨wHold, 7, 6, ⟨2, 1, 0, 0, 5, none⟩, by decide +kernel, by decide +kernel⟩

/-- Witness of `DomainResetsFencesAndHangs`. -/
theorem test_domainResetsFencesAndHangs_8 : ∃ (s : State) (d : Fin 8) (now : Nat) (h : Hold), ((s.die d).hold = some h) ∧ (max 1 (s.f32 Reg.dawnHangCtl 0 16) * 1000 * s.noonMHz ≤ now - h.hung.getD h.since)
    ∧ (s.hangOwners d now ≠ []) :=
  ⟨wHeld, 0, (5 + 65535 * 1000 * 4000), ⟨0, 0, 0, 0, 5, none⟩, by decide +kernel, by decide +kernel, by decide +kernel⟩

/-- Witness of `DomainResetsFencesAndHangs`. -/
theorem test_domainResetsFencesAndHangs_9 : ∃ (s : State) (d : Fin 8) (now : Nat) (h : Hold), ((s.die d).hold = some h) ∧ (max 1 (s.f32 Reg.dawnHangCtl 0 16) * 1000 * s.noonMHz ≤ now - h.hung.getD h.since)
    ∧ (s.hangOwners d now = []) ∧ (h.hung ≠ none) ∧ (s.power.resets = []) ∧ (s.power.faultAt = none) :=
  ⟨(wNoon.setDie 7 { run := false, hold := some ⟨2, 1, 0, 0, 5, some 6⟩ }), 7, (6 + 65535 * 1000 * 4000), ⟨2, 1, 0, 0, 5, some 6⟩, by decide +kernel, by decide +kernel, by decide +kernel, by decide +kernel, by decide +kernel, by decide +kernel⟩

/-- Witness of `JobAbortsFencesAndDawnRetries`. -/
theorem test_jobAbortsFencesAndDawnRetries_0 : ∃ (s : State) (d : Desc), (d.f 8 1 < 64) ∧ (d.zero 10 24 = true) ∧ (d.zero 32 64 = true)
    ∧ (d.f 9 1 = (s.gen (d.f 8 1) + 1) % 16) ∧ (2 ≤ s.pstate (d.f 8 1)) ∧ (s.hour.opened < d.f 24 8) :=
  ⟨wRun, (dsc [(8, 0), (9, 1), (24, 1)]), by decide +kernel, by decide +kernel, by decide +kernel, by decide +kernel, by decide +kernel, by decide +kernel⟩

/-- Witness of `JobAbortsFencesAndDawnRetries`. -/
theorem test_jobAbortsFencesAndDawnRetries_1 : ∃ (s : State) (d : Desc), (d.f 8 1 < 64) ∧ (d.zero 10 24 = true) ∧ (d.zero 32 64 = true)
    ∧ (d.f 9 1 = (s.gen (d.f 8 1) + 1) % 16) ∧ (2 ≤ s.pstate (d.f 8 1)) ∧ (s.hour.opened < d.f 24 8) ∧ (s.fencedJob (d.f 8 1) = true)
    ∧ ((s.part (d.f 8 1)).drained = true) :=
  ⟨(wRun.set32 (Reg.topPartJob 0) 4).setPart 0 { drained := true }, (dsc [(8, 0), (9, 1), (24, 1)]), by decide +kernel, by decide +kernel, by decide +kernel, by decide +kernel, by decide +kernel, by decide +kernel, by decide +kernel, by decide +kernel⟩

/-- Witness of `JobAbortsFencesAndDawnRetries`. -/
theorem test_jobAbortsFencesAndDawnRetries_2 : ∃ (s : State) (d : Desc), (d.f 8 1 < 64) ∧ (d.zero 10 24 = true) ∧ (d.zero 32 64 = true)
    ∧ (d.f 9 1 = s.gen (d.f 8 1)) ∧ (s.CanTell 0) :=
  ⟨wNoon, (dsc [(8, 63), (9, 0)]), by decide +kernel, by decide +kernel, by decide +kernel, by decide +kernel, ⟨by decide +kernel, by decide +kernel, by decide +kernel, by decide +kernel⟩⟩

/-- Witness of `JobAbortsFencesAndDawnRetries`. -/
theorem test_jobAbortsFencesAndDawnRetries_3 : ∃ (s : State) (n : Fin 64) (id : Nat), (s.fencedJob n = true) ∧ ((s.part n).drained = false)
    ∧ ((∀ e ∈ s.txnList, e.2.part ≠ n.val)) ∧ ((s.part n).fenceCmd = some id) ∧ (id < 2 ^ 32) ∧ (s.CanTell 0) :=
  ⟨(wRun.set32 (Reg.topPartJob 0) 4).setPart 0 { fenceCmd := some 7 }, 0, 7, by decide +kernel, by decide +kernel, by decide +kernel, by decide +kernel, by decide +kernel, ⟨by decide +kernel, by decide +kernel, by decide +kernel, by decide +kernel⟩⟩

/-- Witness of `JobAbortsFencesAndDawnRetries`. -/
theorem test_jobAbortsFencesAndDawnRetries_4 : ∃ (s : State) (n : Fin 64), (s.suspended n = true) ∧ (1 < s.span n)
    ∧ ((s.part n).jobAborted = false) ∧ (s.fencedJob n = false) ∧ ((s.part n).stop = none) ∧ ((∀ j ∈ s.hour.jobs, j.part ≠ n.val))
    ∧ ((s.part n).abortedAt + 4096 ≤ s.hourCount) :=
  ⟨((wRun.set32 (Reg.topPartJob 0) 6).sf32 (Reg.topPartJob 0) 16 13 2).w64 Reg.topHourCount 4096, 0, by decide +kernel, by decide +kernel, by decide +kernel, by decide +kernel, by decide +kernel, by decide +kernel, by decide +kernel⟩

/-- Witness of `JobAbortsFencesAndDawnRetries`. -/
theorem test_jobAbortsFencesAndDawnRetries_5 : ∃ (s : State) (n : Fin 64), (s.suspended n = true) ∧ (1 < s.span n)
    ∧ ((s.part n).jobAborted = false) ∧ (s.fencedJob n = false) ∧ ((s.part n).stop = none) ∧ ((∀ j ∈ s.hour.jobs, j.part ≠ n.val))
    ∧ (s.hourCount < (s.part n).abortedAt + 4096) :=
  ⟨((wRun.set32 (Reg.topPartJob 0) 6).sf32 (Reg.topPartJob 0) 16 13 2).w64 Reg.topHourCount 4095, 0, by decide +kernel, by decide +kernel, by decide +kernel, by decide +kernel, by decide +kernel, by decide +kernel, by decide +kernel⟩

/-- Witness of `JobAbortsFencesAndDawnRetries`. -/
theorem test_jobAbortsFencesAndDawnRetries_6 : ∃ (s : State) (d : Desc), (1 ≤ d.f 8 1) ∧ (d.f 8 1 ≤ 14) ∧ (d.f 9 1 ≤ 6) ∧ (d.f 10 2 < 2 ^ 12)
    ∧ (d.zero 13 64 = true) ∧ (s.CanTell 0) ∧ (d.f 12 1 = 0) :=
  ⟨wNoon, (dsc [(8, 14), (9, 6), (10, 0xFFF)]), by decide +kernel, by decide +kernel, by decide +kernel, by decide +kernel, by decide +kernel, ⟨by decide +kernel, by decide +kernel, by decide +kernel, by decide +kernel⟩, by decide +kernel⟩

/-- Witness of `JobAbortsFencesAndDawnRetries`. -/
theorem test_jobAbortsFencesAndDawnRetries_7 : ∃ (s : State) (d : Desc), (1 ≤ d.f 8 1) ∧ (d.f 8 1 ≤ 14) ∧ (d.f 9 1 ≤ 6) ∧ (d.f 10 2 < 2 ^ 12)
    ∧ (d.zero 13 64 = true) ∧ (s.CanTell 0) ∧ (d.f 12 1 = 1) ∧ (stepMarks (d.f 8 1) = true) :=
  ⟨wNoon, (dsc [(8, 13), (9, 0), (12, 1)]), by decide +kernel, by decide +kernel, by decide +kernel, by decide +kernel, by decide +kernel, ⟨by decide +kernel, by decide +kernel, by decide +kernel, by decide +kernel⟩, by decide +kernel, by decide +kernel⟩

/-- Witness of `ResetsOfThePackageBeginADawn`. -/
theorem test_resetsOfThePackageBeginADawn_0 : ∃ (s : State), (s.power.porLow = false) :=
  ⟨wNoon, by decide +kernel⟩

/-- Witness of `ResetsOfThePackageBeginADawn`. -/
theorem test_resetsOfThePackageBeginADawn_1 : ∃ (s : State), (s.power.thermTrip = false) ∧ (s.power.porLow = true → s.pinsHeld = false) :=
  ⟨wNoon, by decide +kernel, by decide +kernel⟩

/-- Witness of `ResetsOfThePackageBeginADawn`. -/
theorem test_resetsOfThePackageBeginADawn_6 : ∃ (s : State), (s.power.porLow = true) ∧ (s.pinsHeld = true) ∧ (s.power.thermTrip = false) :=
  ⟨({ wNoon.set32 Reg.jtagStatus 2 with power := { porLow := true } } : State), by decide +kernel, by decide +kernel, by decide +kernel⟩

/-- Witness of `ResetsOfThePackageBeginADawn`. -/
theorem test_resetsOfThePackageBeginADawn_7 : ∃ (s : State), (s.power.porLow = false) ∧ (s.pinsHeld = true) ∧ (s.power.thermTrip = false)
    ∧ (s.dawn.failedRow < 3) :=
  ⟨(wMidnight.set32 Reg.jtagStatus 2), by decide +kernel, by decide +kernel, by decide +kernel, by decide +kernel⟩

/-- Witness of `ResetsOfThePackageBeginADawn`. -/
theorem test_resetsOfThePackageBeginADawn_2 : ∃ (s : State), (s.power.porLow = false) ∧ (s.pinsHeld = false) ∧ (s.power.thermTrip = false)
    ∧ (s.dawn.failedRow < 3) :=
  ⟨({ wNoon with dawn := { failedRow := 2 } } : State), by decide +kernel, by decide +kernel, by decide +kernel, by decide +kernel⟩

/-- Witness of `ResetsOfThePackageBeginADawn`. -/
theorem test_resetsOfThePackageBeginADawn_3 : ∃ (s : State), (s.f32 Reg.dawnStatus 28 2 = 0) ∧ (s.r32 Reg.dawnSeq ≠ 0) ∧ (s.pinsHeld = false)
    ∧ (s.power.porLow = false) ∧ (s.dawn.failedRow < 2) :=
  ⟨({ State.reset.w32 Reg.dawnSeq 1 with dawn := { failedRow := 1 } } : State), by decide +kernel, by decide +kernel, by decide +kernel, by decide +kernel, by decide +kernel⟩

/-- Witness of `ResetsOfThePackageBeginADawn`. -/
theorem test_resetsOfThePackageBeginADawn_4 : ∃ (s : State), (s.f32 Reg.dawnStatus 28 2 = 2) ∧ (s.dawn.failedRow < 3) ∧ (s.pinsHeld = false)
    ∧ (s.power.porLow = false) ∧ (s.power.thermTrip = false) :=
  ⟨({ wNoon.sf32 Reg.dawnStatus 28 2 2 with dawn := { failedRow := 2 } } : State), by decide +kernel, by decide +kernel, by decide +kernel, by decide +kernel, by decide +kernel⟩

/-- Witness of `ResetsOfThePackageBeginADawn`. -/
theorem test_resetsOfThePackageBeginADawn_5 : ∃ (s : State), (s.inNoon = true) ∧ (s.dawn.failedRow < 3) :=
  ⟨wNoon, by decide +kernel, by decide +kernel⟩

/-- Witness of `DawnEndsInNoon`. -/
theorem test_dawnEndsInNoon_0 : ∃ (s : State), (s.f32 Reg.dawnStatus 28 2 = 0) ∧ (s.f32 Reg.dawnStatus 24 4 = 14) ∧ (s.f32 Reg.dawnStatus 30 2 ≠ 2) :=
  ⟨(State.reset.sf32 Reg.dawnStatus 24 4 14), by decide +kernel, by decide +kernel, by decide +kernel⟩

/-- Witness of `DawnEndsInNoon`. -/
theorem test_dawnEndsInNoon_1 : ∃ (s : State), (s.f32 Reg.dawnStatus 28 2 ≠ 0 ∨ s.f32 Reg.dawnStatus 24 4 ≠ 14) :=
  ⟨(State.reset.sf32 Reg.dawnStatus 24 4 13), by decide +kernel⟩

/-- Witness of `DawnEndsInNoon`: the identifiers 0 (the package's own), 5 (not in the map) and 7 (cut out). -/
theorem test_dawnEndsInNoon_2 : ∃ (s : State) (map : List (Nat × Nat × Nat × Nat)) (cut : List Nat), (0 = s.f64 Reg.rteSelf 0 12)
    ∧ (5 ≠ s.f64 Reg.rteSelf 0 12) ∧ (∀ e, e ∈ map → e.1 ≠ 5) ∧ (7 ≠ s.f64 Reg.rteSelf 0 12) ∧ (7 ∈ cut)
    ∧ (∀ e, e ∈ map → e.1 = 7 → [e.2.1, e.2.2.1, e.2.2.2] ≠ (List.range 3).map (fun k => s.f64 Reg.rteSelf (16 + 4 * k) 4)) :=
  ⟨State.reset, [(7, 1, 0, 0)], [7], by decide +kernel, by decide +kernel, by decide +kernel, by decide +kernel, by decide +kernel, by decide +kernel⟩

/-- The routes of the worked example of 12_system_topology.md (Table 12-8): from (2,9,2) to (8,9,2) by skip hops, and with package 661
cut by primary hops and the bridge at (4,9,2); a path that turns at the cut package has no route. -/
theorem test_routesOfTheWorkedExample :
    let r := toriEntry [16, 16, 16] [true, true, true]
    r [] [2, 9, 2] [8, 9, 2] = 0x86 ∧ r [] [6, 9, 2] [8, 9, 2] = 0x80 ∧ r [[5, 9, 2]] [2, 9, 2] [8, 9, 2] = 0x80
      ∧ r [[5, 9, 2]] [4, 9, 2] [8, 9, 2] = 0x86 ∧ r [[5, 9, 2]] [2, 9, 2] [5, 3, 2] = 0 ∧ r [[5, 9, 2]] [1, 3, 2] [5, 9, 7] = 0
      ∧ r [] [0, 0, 0] [8, 0, 0] = 0x86 := by decide +kernel

/-- A cut that nothing bridges opens the line (R319, Table 12-3), and a bridge takes the class of the primary ring (R320). -/
theorem test_cutsWithoutSkipPorts :
    toriEntry [16, 16, 16] [false, false, false] [[5, 9, 2]] [4, 9, 2] [6, 9, 2] = 0x81
      ∧ portRoute [16, 16, 16] [false, false, false] [[5, 9, 2]] [0, 9, 2] 1 = 1 ∧ portRoute [16, 16, 16] [true, true, true] [[5, 9, 2]] [0, 9, 2] 1 = 0x81
      ∧ portRoute [16, 16, 16] [true, true, true] [[5, 9, 2]] [4, 9, 2] 6 = 1 := by decide +kernel

/-- Witness of `AlarmsAreLoggedAndEndNoon`. -/
theorem test_alarmsAreLoggedAndEndNoon_0 : ∃ (s : State) (x : AlarmIn) (y : AlarmTrip), (s.alarmState = 2) ∧ (x.trips = [y])
    ∧ (policyRank (s.policyOf y.cls) ≠ 2) :=
  ⟨wMidnight, (wAlarm [⟨4, 0, 1⟩]), ⟨4, 0, 1⟩, by decide +kernel, by decide +kernel, by decide +kernel⟩

/-- Witness of `AlarmsAreLoggedAndEndNoon`. -/
theorem test_alarmsAreLoggedAndEndNoon_1 : ∃ (s : State) (x : AlarmIn), (s.alarmState = 0) ∧ (x.trips ≠ []) :=
  ⟨wNoon, (wAlarm [⟨0, 0, 1⟩]), by decide +kernel, by decide +kernel⟩

/-- Witness of `AlarmsAreLoggedAndEndNoon`. -/
theorem test_alarmsAreLoggedAndEndNoon_3 : ∃ (s : State), (s.alarmState ≤ 1) :=
  ⟨wTwilight, by decide +kernel⟩

/-- Witness of `AlarmsAreLoggedAndEndNoon`. -/
theorem test_alarmsAreLoggedAndEndNoon_4 : ∃ (s : State), (2 ≤ s.alarmState) :=
  ⟨wMidnight, by decide +kernel⟩

/-- Witness of `AlarmsAreLoggedAndEndNoon`. -/
theorem test_alarmsAreLoggedAndEndNoon_5 : ∃ (s : State), (s.alarmState = 2) :=
  ⟨wMidnight, by decide +kernel⟩

/-- Witness of `AlarmsAreLoggedAndEndNoon`. -/
theorem test_alarmsAreLoggedAndEndNoon_6 : ∃ (s : State) (rail : Fin 18), (s.power.mainEn = true) ∧ (s.alarmState = 0)
    ∧ (s.power.waitGood = false) ∧ ((rail.val < 16 → (s.die (rail.val / 2)).cond ≠ .absent)) :=
  ⟨({ wNoon with power := { mainEn := true } } : State), 17, by decide +kernel, by decide +kernel, by decide +kernel, by decide +kernel⟩

/-- Witness of `AlarmsAreLoggedAndEndNoon`. -/
theorem test_alarmsAreLoggedAndEndNoon_6_h : ∃ (s : State) (rail : Fin 18), (s.power.mainEn = true) ∧ (s.alarmState = 0)
    ∧ (s.power.waitGood = false) ∧ ((rail.val < 16 → (s.die (rail.val / 2)).cond ≠ .absent)) :=
  ⟨({ wNoon with power := { mainEn := true } } : State), 15, by decide +kernel, by decide +kernel, by decide +kernel, by decide +kernel⟩

/-- Witness of `TemperatureSamplesAndDebugGrants`. -/
theorem test_temperatureSamplesAndDebugGrants_0 : ∃ (s : State) (d : Fin 8) (r : List Nat), (s.alarmState = 0) ∧ ((s.die d).cond ≠ .absent)
    ∧ (r.length = 24) ∧ ((∀ v ∈ r, v < s.throttleAt)) ∧ (s.power.throttled = false) ∧ ((∀ e ∈ s.power.temps, e.2 < s.throttleAt)) :=
  ⟨wNoon, 7, (List.replicate 24 139), by decide +kernel, by decide +kernel, by decide +kernel, by decide +kernel, by decide +kernel, by decide +kernel⟩

/-- Witness of `TemperatureSamplesAndDebugGrants`. -/
theorem test_temperatureSamplesAndDebugGrants_1 : ∃ (s : State) (r : List Nat), (s.alarmState = 2) ∧ ((∀ v ∈ r, v < 220)) :=
  ⟨wMidnight, [219], by decide +kernel, by decide +kernel⟩

/-- Witness of `TemperatureSamplesAndDebugGrants`. -/
theorem test_temperatureSamplesAndDebugGrants_2 : ∃ (s : State), (s.sec.granting = true) :=
  ⟨({ wNoon with sec := { granting := true } } : State), by decide +kernel⟩

/-- Witness of `TemperatureSamplesAndDebugGrants`. -/
theorem test_temperatureSamplesAndDebugGrants_3 : ∃ (s : State), (s.sec.granting = false) :=
  ⟨wNoon, by decide +kernel⟩

set_option maxRecDepth 100000 in
/-- Witness of `FramesLandOnTheirDie`. -/
theorem test_framesLandOnTheirDie_0 : ∃ (s : State) (k : Fin 52) (x : BitVec 2304) (now : Nat), (k.val < 32) ∧ (s.NextFrame k 0 x.toNat)
    ∧ (s.NoneWaits (k.val / 4)) ∧ (fld x.toNat 188 4 = s.gen (fld x.toNat 192 6)) ∧ (∀ i, i < 8 → bitAt x.toNat (180 + i) = true → s.lineOk (fld x.toNat 192 6) true (lineAt (k.val / 4) x.toNat i) = true
    ∧ s.Still (s.landStamp (k.val / 4) now) (lineAt (k.val / 4) x.toNat i) 32) :=
  ⟨wShm, 2, (wFrame { lmask := 129, data := 5 }), 9, by decide +kernel, by unfold State.NextFrame; decide +kernel, by unfold State.NoneWaits; decide +kernel, by decide +kernel, fun i h _ => ⟨by revert i; decide +kernel, still_of _ rfl _ _ _⟩⟩

set_option maxRecDepth 100000 in
/-- Witness of `FramesLandOnTheirDie`. -/
theorem test_framesLandOnTheirDie_1 : ∃ (s : State) (k : Fin 52) (x : BitVec 2304), (k.val < 32) ∧ (s.NextFrame k 0 x.toNat) ∧ (s.NoneWaits (k.val / 4))
    ∧ (fld x.toNat 188 4 ≠ s.gen (fld x.toNat 192 6)) :=
  ⟨wShm, 2, (wFrame { lmask := 129, gen := 3 }), by decide +kernel, by unfold State.NextFrame; decide +kernel, by unfold State.NoneWaits; decide +kernel, by decide +kernel⟩

set_option maxRecDepth 100000 in
/-- Witness of `FramesLandOnTheirDie`. -/
theorem test_framesLandOnTheirDie_2 : ∃ (s : State) (k : Fin 52) (x : BitVec 2304) (g : Nat) (n : Nat) (y : Flight), (k.val < 32) ∧ (s.NextFrame k 1 x.toNat)
    ∧ (s.NoneWaits (k.val / 4)) ∧ (fld x.toNat 188 4 = s.gen (fld x.toNat 192 6)) ∧ (s.tagHolder (k.val / 4) (fld x.toNat 164 16) = some (g, y, n))
    ∧ ((s.core g).Numbered) :=
  ⟨(wFly { tags := [(7, 4)], awaited := [(4, 3)] }), 1, (wFrame { kind := 1, lmask := 3, tag := 7 }), 0, 4, { tags := [(7, 4)], awaited := [(4, 3)] }, by decide +kernel, by unfold State.NextFrame; decide +kernel, by unfold State.NoneWaits; decide +kernel, by decide +kernel, by decide +kernel, ⟨by decide +kernel, by decide +kernel⟩⟩

set_option maxRecDepth 100000 in
/-- Witness of `FramesLandOnTheirDie`. -/
theorem test_framesLandOnTheirDie_3 : ∃ (s : State) (k : Fin 52) (x : BitVec 2304), (k.val < 32) ∧ (s.NextFrame k 1 x.toNat) ∧ (s.NoneWaits (k.val / 4))
    ∧ (s.tagHolder (k.val / 4) (fld x.toNat 164 16) = none) :=
  ⟨wRun, 1, (wFrame { kind := 1, lmask := 3, tag := 7 }), by decide +kernel, by unfold State.NextFrame; decide +kernel, by unfold State.NoneWaits; decide +kernel, by decide +kernel⟩

set_option maxRecDepth 100000 in
/-- Witness of `FramesLandOnTheirDie`. -/
theorem test_framesLandOnTheirDie_4 : ∃ (s : State) (k : Fin 52) (x : BitVec 2304) (now : Nat) (g : Nat) (n : Nat) (i : Nat) (y : Flight) (p : Nat × Nat) (q : Nat × Nat), (k.val < 32)
    ∧ (s.NextFrame k 1 x.toNat) ∧ (s.NoneWaits (k.val / 4)) ∧ (fld x.toNat 188 4 = s.gen (fld x.toNat 192 6)) ∧ (s.tagHolder (k.val / 4) (fld x.toNat 164 16) = some (g, y, n))
    ∧ ((s.core g).Numbered) ∧ (fld x.toNat 180 8 = 1) ∧ ((s.withMarks k (wireSeq x.toNat) (Frame.ofWire x.toNat)).tail = 0) ∧ (descRemote (cardDesc y.card 0) = false)
    ∧ (dmaSources y.card = [p]) ∧ (dmaTargets y.card = [(0, q)]) ∧ (dstOffDie g y.card q = false) ∧ (sourceLine y.card n p (lineAt (fld x.toNat 204 4) x.toNat 0) = some i)
    ∧ (∀ j, j < lineBytes y.card i → itemAddr y.card 1 n q (32 * i + j) = itemAddr y.card 1 n q (32 * i) + j) ∧ (∀ j, j < lineBytes y.card i → s.mayAccess (s.ownerN g) true (itemAddr y.card 1 n q (32 * i + j)) = true)
    ∧ (s.Still (s.landStamp (k.val / 4) now) (itemAddr y.card 1 n q (32 * i)) 32) ∧ (g / 16 = k.val / 4) :=
  ⟨(wShm.setCore 0 { seq := 1, flights := [{ card := wAway, tags := [(7, 0)], awaited := [(0, 1)] }] }), 1, (wFrame { kind := 1, src := 1, lmask := 1, tag := 7, data := 5 }), 9, 0, 0, 0, { card := wAway, tags := [(7, 0)], awaited := [(0, 1)] }, (16, 0), (0, 0), by decide +kernel, by unfold State.NextFrame; decide +kernel, by unfold State.NoneWaits; decide +kernel, by decide +kernel, by decide +kernel, ⟨by decide +kernel, by decide +kernel⟩, by decide +kernel, by decide +kernel, by decide +kernel, by decide +kernel, by decide +kernel, by decide +kernel, by decide +kernel, by decide +kernel, by decide +kernel, still_of _ rfl _ _ _, by decide +kernel⟩

set_option maxRecDepth 100000 in
/-- Witness of `FramesLandOnTheirDie`. -/
theorem test_framesLandOnTheirDie_5 : ∃ (s : State) (k : Fin 52) (x : BitVec 2304) (f : Frame) (m : RedMark) (gr : Group), (k.val < 32)
    ∧ (s.NextFrame k 2 x.toNat) ∧ (s.NoneWaits (k.val / 4)) ∧ (fld x.toNat 188 4 = s.gen (fld x.toNat 192 6)) ∧ (fld x.toNat 180 8 = 1)
    ∧ (f = s.withMarks k (wireSeq x.toNat) (Frame.ofWire x.toNat)) ∧ (f.red = some m) ∧ (f.tail = 0) ∧ (s.groupOf (fld x.toNat 192 6) m.group = some gr)
    ∧ (m.target = k.val / 4) ∧ (m.result = false) ∧ (s.takesFrame (k.val / 4) f = true) ∧ (1 < gr.need m.level (k.val / 4)) ∧ (s.combines.find? (fun c => c.part == gr.part && c.group == gr.group && c.item == m.item && c.line == fld x.toNat 108 32 / 32 && c.level == m.level && c.place == k.val / 4) = none) :=
  ⟨(({ wShm with groups := [⟨0, 1, [0], 0, [0, 16], [0]⟩] } : State).setModEnd 32 { replayF := [(0, { kind := 2, lmask := 1, data := 5, red := some ⟨1, 0, 0, 2, false, 0⟩ })] }), 2, (wFrame { kind := 2, lmask := 1, data := 5 }), ((({ wShm with groups := [⟨0, 1, [0], 0, [0, 16], [0]⟩] } : State).setModEnd 32 { replayF := [(0, { kind := 2, lmask := 1, data := 5, red := some ⟨1, 0, 0, 2, false, 0⟩ })] }).withMarks (2 : Fin 52) (wireSeq (wFrame { kind := 2, lmask := 1, data := 5 }).toNat) (Frame.ofWire (wFrame { kind := 2, lmask := 1, data := 5 }).toNat)), ⟨1, 0, 0, 2, false, 0⟩, ⟨0, 1, [0], 0, [0, 16], [0]⟩, by decide +kernel, by unfold State.NextFrame; decide +kernel, by unfold State.NoneWaits; decide +kernel, by decide +kernel, by decide +kernel, rfl, by decide +kernel, by decide +kernel, by decide +kernel, by decide +kernel, by decide +kernel, by decide +kernel, by decide +kernel, by decide +kernel⟩

set_option maxRecDepth 100000 in
/-- Witness of `FramesLandOnTheirDie`. -/
theorem test_framesLandOnTheirDie_6 : ∃ (s : State) (k : Fin 52) (x : BitVec 2304) (f : Frame) (m : RedMark) (gr : Group), (k.val < 32)
    ∧ (s.NextFrame k 2 x.toNat) ∧ (s.NoneWaits (k.val / 4)) ∧ (fld x.toNat 188 4 = s.gen (fld x.toNat 192 6)) ∧ (fld x.toNat 180 8 = 1)
    ∧ (f = s.withMarks k (wireSeq x.toNat) (Frame.ofWire x.toNat)) ∧ (f.red = some m) ∧ (f.tail = 0) ∧ (s.groupOf (fld x.toNat 192 6) m.group = some gr)
    ∧ (m.target ≠ k.val / 4) :=
  ⟨(({ wShm with groups := [⟨0, 1, [0], 0, [0, 16], [0]⟩] } : State).setModEnd 32 { replayF := [(0, { kind := 2, lmask := 1, data := 5, red := some ⟨1, 0, 0, 2, false, 1⟩ })] }), 2, (wFrame { kind := 2, lmask := 1, data := 5 }), ((({ wShm with groups := [⟨0, 1, [0], 0, [0, 16], [0]⟩] } : State).setModEnd 32 { replayF := [(0, { kind := 2, lmask := 1, data := 5, red := some ⟨1, 0, 0, 2, false, 1⟩ })] }).withMarks (2 : Fin 52) (wireSeq (wFrame { kind := 2, lmask := 1, data := 5 }).toNat) (Frame.ofWire (wFrame { kind := 2, lmask := 1, data := 5 }).toNat)), ⟨1, 0, 0, 2, false, 1⟩, ⟨0, 1, [0], 0, [0, 16], [0]⟩, by decide +kernel, by unfold State.NextFrame; decide +kernel, by unfold State.NoneWaits; decide +kernel, by decide +kernel, by decide +kernel, rfl, by decide +kernel, by decide +kernel, by decide +kernel, by decide +kernel⟩

set_option maxRecDepth 100000 in
/-- Witness of `FramesLandOnTheirDie`. -/
theorem test_framesLandOnTheirDie_7 : ∃ (s : State) (k : Fin 52) (x : BitVec 2304), ((s.modEnd k).outOfService = false) ∧ ((s.modEnd k).retraining = false)
    ∧ (s.joinLive k = true) ∧ (k.val < 32 → s.NoneWaits (k.val / 4)) ∧ (frameCheck x.toNat = false) :=
  ⟨wRun, 2, (wFrame {} + 1), by decide +kernel, by decide +kernel, by decide +kernel, fun _ => by unfold State.NoneWaits; decide +kernel, by decide +kernel⟩

/-- Witness of `MessagesLandOnTheirDie`. -/
theorem test_messagesLandOnTheirDie_4 : ∃ (s : State) (k : Fin 52) (x : BitVec 256), (s.NextMsg k 6 x.toNat) ∧ (k.val < 32) :=
  ⟨wRun, 31, (wMsg { kind := 6, dest := 7, src := 8, body := 5 }), by unfold State.NextMsg; decide +kernel, by decide +kernel⟩

/-- Witness of `MessagesLandOnTheirDie`. -/
theorem test_messagesLandOnTheirDie_5 : ∃ (s : State) (k : Fin 52) (x : BitVec 256), (s.NextMsg k 6 x.toNat) ∧ (32 ≤ k.val) ∧ (k.val < 48)
    ∧ (fld x.toNat 200 4 = 8) :=
  ⟨wRun, 32, (wMsg { kind := 6, dest := 8, src := 0, body := 5 }), by unfold State.NextMsg; decide +kernel, by decide +kernel, by decide +kernel, by decide +kernel⟩

/-- Witness of `MessagesLandOnTheirDie`. -/
theorem test_messagesLandOnTheirDie_6 : ∃ (s : State) (k : Fin 52) (x : BitVec 256), ((s.modEnd k).outOfService = false)
    ∧ (msgCheck x.toNat = true) :=
  ⟨wRun, 51, (wMsg { kind := 8 }), by decide +kernel, by decide +kernel⟩

set_option maxRecDepth 100000 in
/-- Witness of `MessagesLandOnTheirDie`. -/
theorem test_messagesLandOnTheirDie_0 : ∃ (s : State) (k : Fin 52) (x : BitVec 256) (key : Nat), (k.val < 32) ∧ (s.NextMsg k 0 x.toNat)
    ∧ (s.NoneWaits (k.val / 4)) ∧ (fld x.toNat 50 4 = s.gen (fld x.toNat 44 6)) ∧ (key = flagKey (k.val / 4) (fld x.toNat 40 2) (fld x.toNat 32 8)) :=
  ⟨wRun, 0, (wMsg { body := 2 ^ 42 + 2 ^ 32 * 255 + 9 }), (flagKey ((0 : Fin 52).val / 4) (fld (wMsg { body := 2 ^ 42 + 2 ^ 32 * 255 + 9 }).toNat 40 2) (fld (wMsg { body := 2 ^ 42 + 2 ^ 32 * 255 + 9 }).toNat 32 8)), by decide +kernel, by unfold State.NextMsg; decide +kernel, by unfold State.NoneWaits; decide +kernel, by decide +kernel, rfl⟩

set_option maxRecDepth 100000 in
/-- Witness of `MessagesLandOnTheirDie`. -/
theorem test_messagesLandOnTheirDie_1 : ∃ (s : State) (k : Fin 52) (x : BitVec 256) (now : Nat), (k.val < 32) ∧ (s.NextMsg k 1 x.toNat)
    ∧ (s.NoneWaits (k.val / 4)) ∧ (fld x.toNat 58 4 = s.gen (fld x.toNat 52 6)) ∧ (fld x.toNat 62 8 = 0) ∧ (s.lineOk (fld x.toNat 52 6) false (k.val / 4 * 2 ^ 36 + fld x.toNat 0 36) = true)
    ∧ ((s.mesh (k.val / 4)).idle = true) ∧ (s.Still (s.engCycle (k.val / 4) now) (k.val / 4 * 2 ^ 36 + fld x.toNat 0 36) 32) ∧ (s.Sound (k.val / 4 * 2 ^ 36 + fld x.toNat 0 36) 32) :=
  ⟨wShm, 0, (wMsg { kind := 1, src := 8, body := 2 ^ 20 - 32 + 2 ^ 36 * 4095 }), 9, by decide +kernel, by unfold State.NextMsg; decide +kernel, by unfold State.NoneWaits; decide +kernel, by decide +kernel, by decide +kernel, by decide +kernel, by decide +kernel, still_of _ rfl _ _ _, sound_of _ rfl _ _⟩

set_option maxRecDepth 100000 in
/-- Witness of `MessagesLandOnTheirDie`. -/
theorem test_messagesLandOnTheirDie_2 : ∃ (s : State) (k : Fin 52) (x : BitVec 256) (g : Nat) (n : Nat) (y : Flight), (k.val < 32)
    ∧ (s.NextMsg k 2 x.toNat) ∧ (s.NoneWaits (k.val / 4)) ∧ (fld x.toNat 34 4 = s.gen (fld x.toNat 28 6)) ∧ (s.tagHolder (k.val / 4) (fld x.toNat 0 16) = some (g, y, n))
    ∧ (fld x.toNat 16 12 < Tab.get (fun _ => 0) y.awaited n) :=
  ⟨(wFly { tags := [(7, 4)], awaited := [(4, 3)] }), 1, (wMsg { kind := 2, body := 2 * 2 ^ 16 + 7 }), 0, 4, { tags := [(7, 4)], awaited := [(4, 3)] }, by decide +kernel, by unfold State.NextMsg; decide +kernel, by unfold State.NoneWaits; decide +kernel, by decide +kernel, by decide +kernel, by decide +kernel⟩

set_option maxRecDepth 100000 in
/-- Witness of `MessagesLandOnTheirDie`. -/
theorem test_messagesLandOnTheirDie_3 : ∃ (s : State) (k : Fin 52) (x : BitVec 256), (k.val < 32) ∧ (s.NextMsg k 2 x.toNat) ∧ (s.NoneWaits (k.val / 4))
    ∧ (s.tagHolder (k.val / 4) (fld x.toNat 0 16) = none) :=
  ⟨wRun, 1, (wMsg { kind := 2, body := 2 * 2 ^ 16 + 7 }), by decide +kernel, by unfold State.NextMsg; decide +kernel, by unfold State.NoneWaits; decide +kernel, by decide +kernel⟩

/-- Witness of `ModulesAcknowledgeReplayRetrainAndNarrow`. -/
theorem test_modulesAcknowledgeReplayRetrainAndNarrow_3 : ∃ (s : State) (k : Fin 52), ((s.modEnd k).up = true) ∧ (0 < (s.modEnd k).gotF)
    ∧ ((s.modEnd k).gotM = 0) :=
  ⟨(wRun.setModEnd 0 { gotF := 1 }), 0, by decide +kernel, by decide +kernel, by decide +kernel⟩

/-- Witness of `ModulesAcknowledgeReplayRetrainAndNarrow`. -/
theorem test_modulesAcknowledgeReplayRetrainAndNarrow_4 : ∃ (s : State) (k : Fin 52), ((s.modEnd k).retraining = true) :=
  ⟨(wRun.setModEnd 0 { retraining := true }), 0, by decide +kernel⟩

/-- Witness of `ModulesAcknowledgeReplayRetrainAndNarrow`. -/
theorem test_modulesAcknowledgeReplayRetrainAndNarrow_5 : ∃ (s : State) (k : Fin 52), ((s.modEnd k).retraining = true)
    ∧ (1 ≤ (s.modEnd k).failedRetrains) :=
  ⟨(wRun.setModEnd 51 { retraining := true, failedRetrains := 1 }), 51, by decide +kernel, by decide +kernel⟩

/-- Witness of `ModulesAcknowledgeReplayRetrainAndNarrow`. -/
theorem test_modulesAcknowledgeReplayRetrainAndNarrow_6 : ∃ (s : State) (k : Fin 52) (lane : Fin 64) (sp : Nat) (rest : List Nat), ((s.modEnd k).outOfService = false)
    ∧ ((s.laneRoles k).getD lane 3 ≤ 1) ∧ (lanesOf (s.laneRoles k) 2 = sp :: rest) :=
  ⟨(wRun.wWide (endLanes 0) 4 (2 * 4 ^ 63)), 0, 0, 63, [], by decide +kernel, by decide +kernel, by decide +kernel⟩

set_option maxRecDepth 100000 in
/-- Witness of `ModulesAcknowledgeReplayRetrainAndNarrow`. -/
theorem test_modulesAcknowledgeReplayRetrainAndNarrow_0 : ∃ (s : State) (k : Fin 52) (x : BitVec 256), ((s.modEnd k).outOfService = false)
    ∧ (msgCheck x.toNat = true) ∧ (wireSeq x.toNat = 0) ∧ ((s.modEnd k).reqE = []) ∧ ((s.modEnd k).rspE = []) ∧ ((s.modEnd k).ctlE = [])
    ∧ ((s.modEnd k).ctlW = []) ∧ (fld x.toNat 208 4 = 3) :=
  ⟨wRun, 0, (wMsg { kind := 3, body := 3 * 2 ^ 32 + 17 }), by decide +kernel, by decide +kernel, by decide +kernel, by decide +kernel, by decide +kernel, by decide +kernel, by decide +kernel, by decide +kernel⟩

set_option maxRecDepth 100000 in
/-- Witness of `ModulesAcknowledgeReplayRetrainAndNarrow`. -/
theorem test_modulesAcknowledgeReplayRetrainAndNarrow_1 : ∃ (s : State) (k : Fin 52) (x : BitVec 256), ((s.modEnd k).outOfService = false)
    ∧ (msgCheck x.toNat = true) ∧ (wireSeq x.toNat = 0) ∧ ((s.modEnd k).reqE = []) ∧ ((s.modEnd k).rspE = []) ∧ ((s.modEnd k).ctlE = [])
    ∧ ((s.modEnd k).ctlW = []) ∧ (fld x.toNat 208 4 = 4) :=
  ⟨(wRun.setModEnd 0 { replayM := [(5, {})] }), 0, (wMsg { kind := 4, body := 4096 + 5 }), by decide +kernel, by decide +kernel, by decide +kernel, by decide +kernel, by decide +kernel, by decide +kernel, by decide +kernel, by decide +kernel⟩

set_option maxRecDepth 100000 in
/-- Witness of `ModulesAcknowledgeReplayRetrainAndNarrow`. -/
theorem test_modulesAcknowledgeReplayRetrainAndNarrow_2 : ∃ (s : State) (k : Fin 52) (x : BitVec 256), ((s.modEnd k).outOfService = false)
    ∧ (msgCheck x.toNat = true) ∧ (wireSeq x.toNat = 0) ∧ ((s.modEnd k).reqE = []) ∧ ((s.modEnd k).rspE = []) ∧ ((s.modEnd k).ctlE = [])
    ∧ ((s.modEnd k).ctlW = []) ∧ (fld x.toNat 208 4 = 5) ∧ ((s.modEnd k).retraining = false) ∧ (fld x.toNat 12 1 = 0) ∧ (∃ f, (fld x.toNat 0 12, f) ∈ (s.modEnd k).replayF)
    ∧ ((s.modEnd k).nakF.2 < 15) :=
  ⟨(wRun.setModEnd 0 { replayF := [(5, {})], nakF := (5, 14) }), 0, (wMsg { kind := 5, body := 5 }), by decide +kernel, by decide +kernel, by decide +kernel, by decide +kernel, by decide +kernel, by decide +kernel, by decide +kernel, by decide +kernel, by decide +kernel, by decide +kernel, ⟨{}, by decide +kernel⟩, by decide +kernel⟩

/-- Witness of `CardsIssueToTheirUnits`. -/
theorem test_cardsIssueToTheirUnits_0 : ∃ (s : State) (d : Fin 8) (c : Fin 16) (t : Nat) (card : Nat), (s.Ready (16 * d.val + c.val) card t)
    ∧ (s.WaitsHold card t) ∧ (quietCard card 0) ∧ (cardOp card = 1) :=
  ⟨(wCard (num [(0, 1)])), 0, 0, 5, (num [(0, 1)]), ⟨by decide +kernel, ⟨[], by decide +kernel⟩, by decide +kernel, by decide +kernel, by decide +kernel⟩, by unfold State.WaitsHold; decide +kernel, by unfold quietCard; decide +kernel, by decide +kernel⟩

/-- Witness of `CardsIssueToTheirUnits`. -/
theorem test_cardsIssueToTheirUnits_1 : ∃ (s : State) (d : Fin 8) (c : Fin 16) (t : Nat) (card : Nat), (s.Ready (16 * d.val + c.val) card t)
    ∧ (s.WaitsHold card t) ∧ (quietCard card 0) ∧ (cardOp card = 2) :=
  ⟨(wCard (num [(0, 2)])), 0, 0, 5, (num [(0, 2)]), ⟨by decide +kernel, ⟨[], by decide +kernel⟩, by decide +kernel, by decide +kernel, by decide +kernel⟩, by unfold State.WaitsHold; decide +kernel, by unfold quietCard; decide +kernel, by decide +kernel⟩

/-- Witness of `CardsIssueToTheirUnits`. -/
theorem test_cardsIssueToTheirUnits_2 : ∃ (s : State) (d : Fin 8) (c : Fin 16) (t : Nat) (card : Nat), (s.Ready (16 * d.val + c.val) card t)
    ∧ (s.WaitsHold card t) ∧ (quietCard card 0) ∧ (cardOp card = 3) :=
  ⟨(wCard (num [(0, 3)])), 0, 0, 5, (num [(0, 3)]), ⟨by decide +kernel, ⟨[], by decide +kernel⟩, by decide +kernel, by decide +kernel, by decide +kernel⟩, by unfold State.WaitsHold; decide +kernel, by unfold quietCard; decide +kernel, by decide +kernel⟩

/-- Witness of `CardsIssueToTheirUnits`. -/
theorem test_cardsIssueToTheirUnits_3 : ∃ (s : State) (d : Fin 8) (c : Fin 16) (t : Nat) (card : Nat), (s.Ready (16 * d.val + c.val) card t)
    ∧ (s.WaitsHold card t) ∧ (quietCard card 0) ∧ (cardOp card = 4) :=
  ⟨(wCard (num [(0, 4)])), 0, 0, 5, (num [(0, 4)]), ⟨by decide +kernel, ⟨[], by decide +kernel⟩, by decide +kernel, by decide +kernel, by decide +kernel⟩, by unfold State.WaitsHold; decide +kernel, by unfold quietCard; decide +kernel, by decide +kernel⟩

/-- Witness of `CardsIssueToTheirUnits`. -/
theorem test_cardsIssueToTheirUnits_4 : ∃ (s : State) (d : Fin 8) (c : Fin 16) (t : Nat) (card : Nat), (s.Ready (16 * d.val + c.val) card t)
    ∧ (s.WaitsHold card t) ∧ (quietCard card 0) ∧ (cardOp card = 5) :=
  ⟨(wCard (num [(0, 5)])), 0, 0, 5, (num [(0, 5)]), ⟨by decide +kernel, ⟨[], by decide +kernel⟩, by decide +kernel, by decide +kernel, by decide +kernel⟩, by unfold State.WaitsHold; decide +kernel, by unfold quietCard; decide +kernel, by decide +kernel⟩

/-- Witness of `SequencerCardsCompleteInTheirIssueCycle`. -/
theorem test_sequencerCardsCompleteInTheirIssueCycle_0 : ∃ (s : State) (d : Fin 8) (c : Fin 16) (t : Nat) (card : Nat), (s.Ready (16 * d.val + c.val) card t)
    ∧ (s.WaitsHold card t) ∧ ((s.core (16 * d.val + c.val)).Numbered) ∧ (quietCard card 0) ∧ (quietCard card 1) ∧ (quietCard card 3)
    ∧ (cardOp card = 0) :=
  ⟨(wCard (num [(2, 6)])), 0, 0, 5, (num [(2, 6)]), ⟨by decide +kernel, ⟨[], by decide +kernel⟩, by decide +kernel, by decide +kernel, by decide +kernel⟩, by unfold State.WaitsHold; decide +kernel, by unfold CoreState.Numbered; decide +kernel, by unfold quietCard; decide +kernel, by unfold quietCard; decide +kernel, by unfold quietCard; decide +kernel, by decide +kernel⟩

/-- Witness of `SequencerCardsCompleteInTheirIssueCycle`. -/
theorem test_sequencerCardsCompleteInTheirIssueCycle_1 : ∃ (s : State) (d : Fin 8) (c : Fin 16) (t : Nat) (card : Nat) (acc : _), (s.Ready (16 * d.val + c.val) card t)
    ∧ (s.WaitsHold card t) ∧ ((s.core (16 * d.val + c.val)).Numbered) ∧ (quietCard card 0) ∧ (quietCard card 1) ∧ (quietCard card 3)
    ∧ (cardOp card = 6) ∧ (acc = ((s.core (16 * d.val + c.val)).layers.find? (fun x => x.1 == bodyF card 0 16)).elim 0 (·.2))
    ∧ ((s.core (16 * d.val + c.val)).unfolded.Pairwise (fun x y => x.1 < y.1))
    ∧ ((∀ x, x ∈ (s.core (16 * d.val + c.val)).unfolded → x.1 < s.seqPos (16 * d.val + c.val))) :=
  ⟨(wCard (num [(0, 6)])), 0, 0, 5, (num [(0, 6)]), 0, ⟨by decide +kernel, ⟨[], by decide +kernel⟩, by decide +kernel, by decide +kernel, by decide +kernel⟩, by unfold State.WaitsHold; decide +kernel, by unfold CoreState.Numbered; decide +kernel, by unfold quietCard; decide +kernel, by unfold quietCard; decide +kernel, by unfold quietCard; decide +kernel, by decide +kernel, by decide +kernel, by decide +kernel, by decide +kernel⟩

/-- Witness of `SequencerCardsCompleteInTheirIssueCycle`. -/
theorem test_sequencerCardsCompleteInTheirIssueCycle_2 : ∃ (s : State) (d : Fin 8) (c : Fin 16) (t : Nat) (card : Nat), (s.Ready (16 * d.val + c.val) card t)
    ∧ (s.WaitsHold card t) ∧ ((s.core (16 * d.val + c.val)).Numbered) ∧ (quietCard card 0) ∧ (quietCard card 1) ∧ (quietCard card 3)
    ∧ (cardOp card = 7) :=
  ⟨(wCard (num [(0, 7)])), 0, 0, 5, (num [(0, 7)]), ⟨by decide +kernel, ⟨[], by decide +kernel⟩, by decide +kernel, by decide +kernel, by decide +kernel⟩, by unfold State.WaitsHold; decide +kernel, by unfold CoreState.Numbered; decide +kernel, by unfold quietCard; decide +kernel, by unfold quietCard; decide +kernel, by unfold quietCard; decide +kernel, by decide +kernel⟩

set_option maxRecDepth 100000 in
/-- Witness of `WaitsConsumeBlockAndLoseGrants`. -/
theorem test_waitsConsumeBlockAndLoseGrants_0 : ∃ (s : State) (d : Fin 8) (c : Fin 16) (g : Nat) (t : Nat) (card : Nat) (w : Nat), (g = 16 * d.val + c.val)
    ∧ (w = cardWait card 0) ∧ (s.Ready g card t) ∧ ((s.core g).Numbered) ∧ (cardOp card = 0) ∧ (quietCard card 1) ∧ (quietCard card 3)
    ∧ (∀ i, 0 < i → i < 4 → waitValid (cardWait card i) = false) ∧ (quietCard card 0) ∧ (waitValid w = true) ∧ ((s.die (waitKey w / 1024)).flagT ≠ t)
    ∧ (waitConsume w = true) ∧ (fld w 60 3 = 0) ∧ (s.flag (waitKey w) = true) ∧ (((s.lowerGrants g t).grantWaits card t [0, 1, 2, 3]).2 = none) :=
  ⟨((wCard (num [(16, 2 ^ 63 + 2 ^ 58)])).putFlag (waitKey 0) true), 0, 0, 0, 5, (num [(16, 2 ^ 63 + 2 ^ 58)]), (cardWait (num [(16, 2 ^ 63 + 2 ^ 58)]) 0), by decide +kernel, rfl, ⟨by decide +kernel, ⟨[], by decide +kernel⟩, by decide +kernel, by decide +kernel, by decide +kernel⟩, ⟨by decide +kernel, by decide +kernel⟩, by decide +kernel, by unfold quietCard; decide +kernel, by unfold quietCard; decide +kernel, by intro i _ _; have h : i = 1 ∨ i = 2 ∨ i = 3 := (by omega); rcases h with rfl | rfl | rfl <;> decide +kernel, by unfold quietCard; decide +kernel, by decide +kernel, by decide +kernel, by decide +kernel, by decide +kernel, by decide +kernel, by decide +kernel⟩

set_option maxRecDepth 100000 in
/-- Witness of `WaitsConsumeBlockAndLoseGrants`. -/
theorem test_waitsConsumeBlockAndLoseGrants_1 : ∃ (s : State) (d : Fin 8) (c : Fin 16) (g : Nat) (t : Nat) (card : Nat) (w : Nat), (g = 16 * d.val + c.val)
    ∧ (w = cardWait card 0) ∧ (s.Ready g card t) ∧ ((s.core g).Numbered) ∧ (cardOp card = 0) ∧ (quietCard card 1) ∧ (quietCard card 3)
    ∧ (∀ i, 0 < i → i < 4 → waitValid (cardWait card i) = false) ∧ (quietCard card 0) ∧ (waitValid w = true) ∧ ((s.die (waitKey w / 1024)).flagT ≠ t)
    ∧ (waitConsume w = true) ∧ (fld w 60 3 = 2) ∧ (ctrCond 2 (s.ctr (waitKey w)) (fld w 0 32) = true) ∧ (((s.lowerGrants g t).grantWaits card t [0, 1, 2, 3]).2 = none) :=
  ⟨((wCard (num [(16, 2 ^ 63 + 2 ^ 61 + 2 ^ 58 + 5)])).putCtr (waitKey 0) 5), 0, 0, 0, 5, (num [(16, 2 ^ 63 + 2 ^ 61 + 2 ^ 58 + 5)]), (cardWait (num [(16, 2 ^ 63 + 2 ^ 61 + 2 ^ 58 + 5)]) 0), by decide +kernel, rfl, ⟨by decide +kernel, ⟨[], by decide +kernel⟩, by decide +kernel, by decide +kernel, by decide +kernel⟩, ⟨by decide +kernel, by decide +kernel⟩, by decide +kernel, by unfold quietCard; decide +kernel, by unfold quietCard; decide +kernel, by intro i _ _; have h : i = 1 ∨ i = 2 ∨ i = 3 := (by omega); rcases h with rfl | rfl | rfl <;> decide +kernel, by unfold quietCard; decide +kernel, by decide +kernel, by decide +kernel, by decide +kernel, by decide +kernel, by decide +kernel, by decide +kernel⟩

set_option maxRecDepth 100000 in
/-- Witness of `WaitsConsumeBlockAndLoseGrants`. -/
theorem test_waitsConsumeBlockAndLoseGrants_2 : ∃ (s : State) (d : Fin 8) (c : Fin 16) (g : Nat) (t : Nat) (card : Nat) (w : Nat), (g = 16 * d.val + c.val)
    ∧ (w = cardWait card 0) ∧ (s.Ready g card t) ∧ ((s.core g).Numbered) ∧ (cardOp card = 0) ∧ (quietCard card 1) ∧ (quietCard card 3)
    ∧ (∀ i, 0 < i → i < 4 → waitValid (cardWait card i) = false) ∧ (quietCard card 0) ∧ (waitValid w = true) ∧ ((s.die (waitKey w / 1024)).flagT ≠ t)
    ∧ (waitExt w = false) ∧ (fld w 60 3 = 0) ∧ (s.flag (waitKey w) = false) ∧ ((s.core g).blocked = none) :=
  ⟨(wCard (num [(16, 2 ^ 63 + 2 ^ 58)])), 0, 0, 0, 5, (num [(16, 2 ^ 63 + 2 ^ 58)]), (cardWait (num [(16, 2 ^ 63 + 2 ^ 58)]) 0), by decide +kernel, rfl, ⟨by decide +kernel, ⟨[], by decide +kernel⟩, by decide +kernel, by decide +kernel, by decide +kernel⟩, ⟨by decide +kernel, by decide +kernel⟩, by decide +kernel, by unfold quietCard; decide +kernel, by unfold quietCard; decide +kernel, by intro i _ _; have h : i = 1 ∨ i = 2 ∨ i = 3 := (by omega); rcases h with rfl | rfl | rfl <;> decide +kernel, by unfold quietCard; decide +kernel, by decide +kernel, by decide +kernel, by decide +kernel, by decide +kernel, by decide +kernel, by decide +kernel⟩

set_option maxRecDepth 100000 in
/-- Witness of `WaitsConsumeBlockAndLoseGrants`. -/
theorem test_waitsConsumeBlockAndLoseGrants_3 : ∃ (s : State) (d : Fin 8) (c : Fin 16) (g : Nat) (t : Nat) (card : Nat) (w : Nat), (g = 16 * d.val + c.val)
    ∧ (w = cardWait card 0) ∧ (s.Ready g card t) ∧ ((s.core g).Numbered) ∧ (cardOp card = 0) ∧ (quietCard card 1) ∧ (quietCard card 3)
    ∧ (∀ i, 0 < i → i < 4 → waitValid (cardWait card i) = false) ∧ (waitValid w = true) ∧ (waitConsume w = true) ∧ (fld w 60 3 = 0)
    ∧ (s.evalFlag (waitKey w) t = true) ∧ (s.grantedFlag (waitKey w) t = false) ∧ (s.signalsFit g card 0 = true) :=
  ⟨(((wCard (num [(16, 2 ^ 63 + 2 ^ 58)])).putFlag (waitKey 0) true).consumeFlag (waitKey 0) 5), 0, 0, 0, 5, (num [(16, 2 ^ 63 + 2 ^ 58)]), (cardWait (num [(16, 2 ^ 63 + 2 ^ 58)]) 0), by decide +kernel, rfl, ⟨by decide +kernel, ⟨[], by decide +kernel⟩, by decide +kernel, by decide +kernel, by decide +kernel⟩, ⟨by decide +kernel, by decide +kernel⟩, by decide +kernel, by unfold quietCard; decide +kernel, by unfold quietCard; decide +kernel, by intro i _ _; have h : i = 1 ∨ i = 2 ∨ i = 3 := (by omega); rcases h with rfl | rfl | rfl <;> decide +kernel, by decide +kernel, by decide +kernel, by decide +kernel, by decide +kernel, by decide +kernel, by decide +kernel⟩

set_option maxRecDepth 100000 in
/-- Witness of `WaitsConsumeBlockAndLoseGrants`. -/
theorem test_waitsConsumeBlockAndLoseGrants_4 : ∃ (s : State) (d : Fin 8) (c : Fin 16) (g : Nat) (t : Nat) (card : Nat) (w : Nat), (g = 16 * d.val + c.val)
    ∧ (w = cardWait card 0) ∧ (s.Ready g card t) ∧ ((s.core g).Numbered) ∧ (cardOp card = 0) ∧ (quietCard card 1) ∧ (quietCard card 3)
    ∧ (∀ i, 0 < i → i < 4 → waitValid (cardWait card i) = false) ∧ (waitValid w = false) ∧ (bitAt (cardSignal card 0) 63 = true) ∧ (fld (cardSignal card 0) 61 2 = 0)
    ∧ (bitAt (cardSignal card 0) 60 = false) ∧ (fld (cardSignal card 0) 51 7 / 16 = d.val) ∧ (fld (cardSignal card 0) 58 1 = 0) ∧ (∀ i, 0 < i → i < 4 → bitAt (cardSignal card i) 63 = false)
    ∧ ((s.die d).flagT ≠ t) :=
  ⟨(wCard (num [(48, 2 ^ 63)])), 0, 0, 0, 5, (num [(48, 2 ^ 63)]), (cardWait (num [(48, 2 ^ 63)]) 0), by decide +kernel, rfl, ⟨by decide +kernel, ⟨[], by decide +kernel⟩, by decide +kernel, by decide +kernel, by decide +kernel⟩, ⟨by decide +kernel, by decide +kernel⟩, by decide +kernel, by unfold quietCard; decide +kernel, by unfold quietCard; decide +kernel, by intro i _ _; have h : i = 1 ∨ i = 2 ∨ i = 3 := (by omega); rcases h with rfl | rfl | rfl <;> decide +kernel, by decide +kernel, by decide +kernel, by decide +kernel, by decide +kernel, by decide +kernel, by decide +kernel, by intro i _ _; have h : i = 1 ∨ i = 2 ∨ i = 3 := (by omega); rcases h with rfl | rfl | rfl <;> decide +kernel, by decide +kernel⟩

set_option maxRecDepth 100000 in
/-- Witness of `CardsAreFetchedAndCompleteLocally`. -/
theorem test_cardsAreFetchedAndCompleteLocally_0 : ∃ (s : State) (y : State) (d : Fin 8) (c : Fin 16) (g : Nat) (t : Nat) (p : Nat) (r : Nat) (a : Nat) (x : Nat) (k : Nat) (rest : List (Nat × Nat)) (up : List (BitVec 37)), (g = 16 * d.val + c.val)
    ∧ (y = s.upset up) ∧ (s.dieRuns d t = true) ∧ ((s.core g).asked = (p, r) :: rest) ∧ ((s.core g).queue.length < 16) ∧ (a = s.cardAddr g p)
    ∧ (k = hops (sliceNode (addrOffset a / 2 ^ 28)) (coreNode c)) ∧ (x = r + 2 * k + (if s.countAt d (r + 2 * k) % 16 = 15 then 1 else 0))
    ∧ (x + 2 * k + 9 ≤ s.engCycle d t) ∧ (y.MayRead (s.ownerN g) ((List.range 256).map (a + ·))) :=
  ⟨(wShm.setCore 0 { asked := [(0, 0)] }), ((wShm.setCore 0 { asked := [(0, 0)] }).upset ([])), 0, 0, 0, 5000, 0, 0, ((wShm.setCore 0 { asked := [(0, 0)] }).cardAddr (0 : Nat) (0 : Nat)), ((0 : Nat) + 2 * (hops (sliceNode (addrOffset ((wShm.setCore 0 { asked := [(0, 0)] }).cardAddr (0 : Nat) (0 : Nat)) / 2 ^ 28)) (coreNode (0 : Fin 16))) + (if (wShm.setCore 0 { asked := [(0, 0)] }).countAt (0 : Fin 8) ((0 : Nat) + 2 * (hops (sliceNode (addrOffset ((wShm.setCore 0 { asked := [(0, 0)] }).cardAddr (0 : Nat) (0 : Nat)) / 2 ^ 28)) (coreNode (0 : Fin 16)))) % 16 = 15 then 1 else 0)), (hops (sliceNode (addrOffset ((wShm.setCore 0 { asked := [(0, 0)] }).cardAddr (0 : Nat) (0 : Nat)) / 2 ^ 28)) (coreNode (0 : Fin 16))), [], [], by decide +kernel, rfl, by decide +kernel, by decide +kernel, by decide +kernel, rfl, rfl, rfl, by decide +kernel, by unfold State.MayRead; decide +kernel⟩

set_option maxRecDepth 100000 in
/-- Witness of `CardsAreFetchedAndCompleteLocally`. -/
theorem test_cardsAreFetchedAndCompleteLocally_1 : ∃ (s : State) (y : State) (d : Fin 8) (c : Fin 16) (g : Nat) (t : Nat) (p : Nat) (r : Nat) (a : Nat) (x : Nat) (k : Nat) (rest : List (Nat × Nat)) (up : List (BitVec 37)) (i : _), (g = 16 * d.val + c.val)
    ∧ (y = s.upset up) ∧ (s.dieRuns d t = true) ∧ ((s.core g).asked = (p, r) :: rest) ∧ ((s.core g).queue.length < 16) ∧ (a = s.cardAddr g p)
    ∧ (k = hops (sliceNode (addrOffset a / 2 ^ 28)) (coreNode c)) ∧ (x = r + 2 * k + (if s.countAt d (r + 2 * k) % 16 = 15 then 1 else 0))
    ∧ (x + 2 * k + 9 ≤ s.engCycle d t) ∧ (i < 256) ∧ (s.mayAccess (s.ownerN g) false (a + i) = false) :=
  ⟨(wRun.setCore 0 { asked := [(0, 0)] }), ((wRun.setCore 0 { asked := [(0, 0)] }).upset ([])), 0, 0, 0, 5000, 0, 0, ((wRun.setCore 0 { asked := [(0, 0)] }).cardAddr (0 : Nat) (0 : Nat)), ((0 : Nat) + 2 * (hops (sliceNode (addrOffset ((wRun.setCore 0 { asked := [(0, 0)] }).cardAddr (0 : Nat) (0 : Nat)) / 2 ^ 28)) (coreNode (0 : Fin 16))) + (if (wRun.setCore 0 { asked := [(0, 0)] }).countAt (0 : Fin 8) ((0 : Nat) + 2 * (hops (sliceNode (addrOffset ((wRun.setCore 0 { asked := [(0, 0)] }).cardAddr (0 : Nat) (0 : Nat)) / 2 ^ 28)) (coreNode (0 : Fin 16)))) % 16 = 15 then 1 else 0)), (hops (sliceNode (addrOffset ((wRun.setCore 0 { asked := [(0, 0)] }).cardAddr (0 : Nat) (0 : Nat)) / 2 ^ 28)) (coreNode (0 : Fin 16))), [], [], 0, by decide +kernel, rfl, by decide +kernel, by decide +kernel, by decide +kernel, rfl, rfl, rfl, by decide +kernel, by decide +kernel, by decide +kernel⟩

set_option maxRecDepth 100000 in
/-- Witness of `CardsAreFetchedAndCompleteLocally`. -/
theorem test_cardsAreFetchedAndCompleteLocally_2 : ∃ (s : State) (d : Fin 8) (c : Fin 16) (g : Nat) (pos : Nat) (t : Nat) (f : Flight), (g = 16 * d.val + c.val)
    ∧ (s.dieRuns d t = true) ∧ ((s.core g).Numbered) ∧ ((s.core g).flights.find? (fun y => y.pos == pos && y.localAt.isNone) = some f)
    ∧ ((s.core g).workDone f (s.engCycle d t) = true) ∧ (quietCard f.card 3) ∧ (f.reported = true) ∧ (quietCard f.card 1) ∧ (cardOp f.card ≠ 6) :=
  ⟨(wFly { done := 1 }), 0, 0, 0, 0, 0, { done := 1 }, by decide +kernel, by decide +kernel, ⟨by decide +kernel, by decide +kernel⟩, by decide +kernel, by decide +kernel, by unfold quietCard; decide +kernel, by decide +kernel, by unfold quietCard; decide +kernel, by decide +kernel⟩

set_option maxRecDepth 100000 in
/-- Witness of `CardsAreFetchedAndCompleteLocally`. -/
theorem test_cardsAreFetchedAndCompleteLocally_3 : ∃ (s : State) (d : Fin 8) (c : Fin 16) (g : Nat) (pos : Nat) (t : Nat) (f : Flight), (g = 16 * d.val + c.val)
    ∧ (s.dieRuns d t = true) ∧ ((s.core g).Numbered) ∧ ((s.core g).flights.find? (fun y => y.pos == pos && y.localAt.isNone) = some f)
    ∧ ((s.core g).workDone f (s.engCycle d t) = true) ∧ (quietCard f.card 3) ∧ (f.reported = false) ∧ (quietCard f.card 1) :=
  ⟨(wFly { done := 1, awaited := [(0, 1)] }), 0, 0, 0, 0, 0, { done := 1, awaited := [(0, 1)] }, by decide +kernel, by decide +kernel, ⟨by decide +kernel, by decide +kernel⟩, by decide +kernel, by decide +kernel, by unfold quietCard; decide +kernel, by decide +kernel, by unfold quietCard; decide +kernel⟩

set_option maxRecDepth 100000 in
/-- Witness of `CardsAreFetchedAndCompleteLocally`. -/
theorem test_cardsAreFetchedAndCompleteLocally_4 : ∃ (s : State) (d : Fin 8) (c : Fin 16) (g : Nat) (pos : Nat) (t : Nat) (f : Flight), (g = 16 * d.val + c.val)
    ∧ (s.dieRuns d t = true) ∧ ((s.core g).Numbered) ∧ ((s.core g).flights.find? (fun y => y.pos == pos && y.localAt.isNone) = some f)
    ∧ ((s.core g).workDone f (s.engCycle d t) = true) ∧ (quietCard f.card 3) ∧ (bitAt (cardSignal f.card 0) 63 = true) ∧ (fld (cardSignal f.card 0) 61 2 = 1)
    ∧ (bitAt (cardSignal f.card 0) 60 = false) ∧ (fld (cardSignal f.card 0) 51 7 / 16 = d.val) ∧ (fld (cardSignal f.card 0) 58 1 = 0)
    ∧ (∀ i, 0 < i → i < 4 → bitAt (cardSignal f.card i) 63 = false) ∧ ((s.die d).flagT ≠ t) :=
  ⟨(wFly { done := 1, card := num [(48, 2 ^ 63 + 2 ^ 61)] }), 0, 0, 0, 0, 9, { done := 1, card := num [(48, 2 ^ 63 + 2 ^ 61)] }, by decide +kernel, by decide +kernel, ⟨by decide +kernel, by decide +kernel⟩, by decide +kernel, by decide +kernel, by unfold quietCard; decide +kernel, by decide +kernel, by decide +kernel, by decide +kernel, by decide +kernel, by decide +kernel, by intro i _ _; have h : i = 1 ∨ i = 2 ∨ i = 3 := (by omega); rcases h with rfl | rfl | rfl <;> decide +kernel, by decide +kernel⟩

set_option maxRecDepth 100000 in
/-- Witness of `CardsKeepRisingNumbers`. -/
theorem test_cardsKeepRisingNumbers_1 : ∃ (s : State) (d : Fin 8) (c : Fin 16) (t : Nat) (pos : Nat) (up : List (BitVec 37)) (i : _), (∀ g, (s.core g).Numbered)
    ∧ (i ∈ [Instr.cardFetch d c t up, .nopCard d c t, .matmul d c t, .vectorCard d c t, .moveCard d c t, .multicast d c t, .reduceCard d c t, .digestCard d c t, .hourMark d c t, .cardLocalCompletion d c pos t]) :=
  ⟨State.reset, 0, 0, 5, 0, [], (Instr.nopCard 0 0 5), fun g => ⟨List.Pairwise.nil, fun f hf => by cases hf⟩, by decide +kernel⟩

set_option maxRecDepth 100000 in
/-- Witness of `PassesScanAndStart`. -/
theorem test_passesScanAndStart_0 : ∃ (s : State) (y : State) (d : Fin 8) (c : Fin 16) (e : Fin 64) (g : Nat) (t : Nat) (n : Nat) (r : Nat) (q : Nat) (f : Flight) (up : List (BitVec 37)), (g = 16 * d.val + c.val)
    ∧ (y = (s.upset up).meshTo d (s.engCycle d t)) ∧ (y.dieRuns d t = true) ∧ ((y.core g).nextPass e = some (f, n)) ∧ (mmScans f.card n = true)
    ∧ (((y.core g).eng e).scan = none) ∧ ((y.core g).scanFrom g e f n = some r) ∧ (q = max (max ((y.core g).eng e).scanFree ((y.core g).eng e).lastS) (max (f.issue + 1) r))
    ∧ (q ≤ s.engCycle d t) ∧ (∀ k, k < 2 → ∀ b, b < scanBlocks f.card → ∀ l, scaleAddrs g e f.card k n b = some l → y.MayRead (y.ownerN g) l) :=
  ⟨(wEng wShm (num [(0, 1), (208, 1), (224, 32), (226, 0x11), (227, 0x10)]) { run := some 0 }), (((wEng wShm (num [(0, 1), (208, 1), (224, 32), (226, 0x11), (227, 0x10)]) { run := some 0 }).upset ([])).meshTo (0 : Fin 8) ((wEng wShm (num [(0, 1), (208, 1), (224, 32), (226, 0x11), (227, 0x10)]) { run := some 0 }).engCycle (0 : Fin 8) (9 : Nat))), 0, 0, 0, 0, 9, 0, 0, (max (max (((((wEng wShm (num [(0, 1), (208, 1), (224, 32), (226, 0x11), (227, 0x10)]) { run := some 0 }).upset ([])).meshTo (0 : Fin 8) ((wEng wShm (num [(0, 1), (208, 1), (224, 32), (226, 0x11), (227, 0x10)]) { run := some 0 }).engCycle (0 : Fin 8) (9 : Nat))).core (0 : Nat)).eng (0 : Fin 64)).scanFree (((((wEng wShm (num [(0, 1), (208, 1), (224, 32), (226, 0x11), (227, 0x10)]) { run := some 0 }).upset ([])).meshTo (0 : Fin 8) ((wEng wShm (num [(0, 1), (208, 1), (224, 32), (226, 0x11), (227, 0x10)]) { run := some 0 }).engCycle (0 : Fin 8) (9 : Nat))).core (0 : Nat)).eng (0 : Fin 64)).lastS) (max (({ card := num [(0, 1), (208, 1), (224, 32), (226, 0x11), (227, 0x10)] } : Flight).issue + 1) (0 : Nat))), { card := num [(0, 1), (208, 1), (224, 32), (226, 0x11), (227, 0x10)] }, [], by decide +kernel, rfl, by decide +kernel, by decide +kernel, by decide +kernel, by decide +kernel, by decide +kernel, rfl, by decide +kernel, by unfold State.MayRead; decide +kernel⟩

set_option maxRecDepth 100000 in
/-- Witness of `PassesScanAndStart`. -/
theorem test_passesScanAndStart_1 : ∃ (s : State) (y : State) (d : Fin 8) (c : Fin 16) (e : Fin 64) (g : Nat) (t : Nat) (n : Nat) (r : Nat) (q : Nat) (f : Flight) (up : List (BitVec 37)) (k : _) (l : _) (a : _), (g = 16 * d.val + c.val)
    ∧ (y = (s.upset up).meshTo d (s.engCycle d t)) ∧ (y.dieRuns d t = true) ∧ ((y.core g).nextPass e = some (f, n)) ∧ (mmScans f.card n = true)
    ∧ (((y.core g).eng e).scan = none) ∧ ((y.core g).scanFrom g e f n = some r) ∧ (q = max (max ((y.core g).eng e).scanFree ((y.core g).eng e).lastS) (max (f.issue + 1) r))
    ∧ (q ≤ s.engCycle d t) ∧ (k < 2) ∧ (∃ b, b < scanBlocks f.card ∧ scaleAddrs g e f.card k n b = some l) ∧ (a ∈ l) ∧ (y.mayAccess (y.ownerN g) false a = false) :=
  ⟨(wEng wRun (num [(0, 1), (208, 1), (224, 32), (226, 0x11), (227, 0x10)]) { run := some 0 }), (((wEng wRun (num [(0, 1), (208, 1), (224, 32), (226, 0x11), (227, 0x10)]) { run := some 0 }).upset ([])).meshTo (0 : Fin 8) ((wEng wRun (num [(0, 1), (208, 1), (224, 32), (226, 0x11), (227, 0x10)]) { run := some 0 }).engCycle (0 : Fin 8) (9 : Nat))), 0, 0, 0, 0, 9, 0, 0, (max (max (((((wEng wRun (num [(0, 1), (208, 1), (224, 32), (226, 0x11), (227, 0x10)]) { run := some 0 }).upset ([])).meshTo (0 : Fin 8) ((wEng wRun (num [(0, 1), (208, 1), (224, 32), (226, 0x11), (227, 0x10)]) { run := some 0 }).engCycle (0 : Fin 8) (9 : Nat))).core (0 : Nat)).eng (0 : Fin 64)).scanFree (((((wEng wRun (num [(0, 1), (208, 1), (224, 32), (226, 0x11), (227, 0x10)]) { run := some 0 }).upset ([])).meshTo (0 : Fin 8) ((wEng wRun (num [(0, 1), (208, 1), (224, 32), (226, 0x11), (227, 0x10)]) { run := some 0 }).engCycle (0 : Fin 8) (9 : Nat))).core (0 : Nat)).eng (0 : Fin 64)).lastS) (max (({ card := num [(0, 1), (208, 1), (224, 32), (226, 0x11), (227, 0x10)] } : Flight).issue + 1) (0 : Nat))), { card := num [(0, 1), (208, 1), (224, 32), (226, 0x11), (227, 0x10)] }, [], 0, ((scaleAddrs 0 0 (num [(0, 1), (208, 1), (224, 32), (226, 0x11), (227, 0x10)]) 0 0 0).getD []), (itemAddr (num [(0, 1), (208, 1), (224, 32), (226, 0x11), (227, 0x10)]) 0 0 (0, 0) (scaleOff 1 0)), by decide +kernel, rfl, by decide +kernel, by decide +kernel, by decide +kernel, by decide +kernel, by decide +kernel, rfl, by decide +kernel, by decide +kernel, ⟨0, by decide +kernel, by decide +kernel⟩, by decide +kernel, by decide +kernel⟩

set_option maxRecDepth 100000 in
/-- Witness of `PassesScanAndStart`. -/
theorem test_passesScanAndStart_2 : ∃ (s : State) (g : Nat) (e : Nat) (cyc : Nat) (f : Flight) (p : Prescan) (x : _), (p.reads.length < scanBlocks f.card)
    ∧ (p.at' ≤ cyc) ∧ (x = s.scanCycle g e cyc f p) ∧ (∀ k, k < 2 → (s.core g).feedBanks g e k cyc = [] ∧ (s.core g).fillBanks e k cyc = []) :=
  ⟨wRun, 0, 0, 1, { card := num [(0, 1), (208, 1), (224, 32), (226, 0x11), (227, 0x10)] }, ⟨0, 0, 1, 1, []⟩, (wRun.scanCycle (0 : Nat) (0 : Nat) (1 : Nat) ({ card := num [(0, 1), (208, 1), (224, 32), (226, 0x11), (227, 0x10)] } : Flight) (⟨0, 0, 1, 1, []⟩ : Prescan)), by decide +kernel, by decide +kernel, rfl, by decide +kernel⟩

set_option maxRecDepth 100000 in
/-- Witness of `PassesScanAndStart`. -/
theorem test_passesScanAndStart_3 : ∃ (s : State) (g : Nat) (e : Nat) (cyc : Nat) (f : Flight) (p : Prescan) (x : _), (p.reads.length < scanBlocks f.card)
    ∧ (p.at' ≤ cyc) ∧ (x = s.scanCycle g e cyc f p) ∧ (∃ k a l, k < 2 ∧ scaleAddrs g e f.card k p.iter p.reads.length = some (a :: l)
    ∧ bufferBank a ∈ (s.core g).feedBanks g e k cyc ++ (s.core g).fillBanks e k cyc) :=
  ⟨(wRun.setCore 0 { fills := [(1, 0, bufferBank (itemAddr (num [(0, 1), (208, 1), (224, 32), (226, 0x11), (227, 0x10)]) 0 0 (0, 0) (scaleOff 1 0)))] }), 0, 0, 1, { card := num [(0, 1), (208, 1), (224, 32), (226, 0x11), (227, 0x10)] }, ⟨0, 0, 1, 1, []⟩, ((wRun.setCore 0 { fills := [(1, 0, bufferBank (itemAddr (num [(0, 1), (208, 1), (224, 32), (226, 0x11), (227, 0x10)]) 0 0 (0, 0) (scaleOff 1 0)))] }).scanCycle (0 : Nat) (0 : Nat) (1 : Nat) ({ card := num [(0, 1), (208, 1), (224, 32), (226, 0x11), (227, 0x10)] } : Flight) (⟨0, 0, 1, 1, []⟩ : Prescan)), by decide +kernel, by decide +kernel, rfl, ⟨0, _, _, by decide +kernel, rfl, by decide +kernel⟩⟩

set_option maxRecDepth 100000 in
/-- Witness of `PassesScanAndStart`. -/
theorem test_passesScanAndStart_4 : ∃ (s : State) (y : State) (d : Fin 8) (c : Fin 16) (e : Fin 64) (g : Nat) (t : Nat) (n : Nat) (e1 : Nat) (fT : Nat) (b : Nat) (p : Nat) (st : Nat) (f : Flight) (up : List (BitVec 37)), (g = 16 * d.val + c.val)
    ∧ (y = ((s.upset up).meshTo d (s.engCycle d t)).scanTo g e (s.engCycle d t)) ∧ (y.dieRuns d t = true) ∧ ((y.core g).nextPass e = some (f, n))
    ∧ (((y.core g).eng e).terms f n = some (e1, fT, b, p)) ∧ (((y.core g).eng e).cur = none) ∧ (((y.core g).eng e).bankBusy f.card n = false)
    ∧ (st = (if ((y.core g).eng e).relAt = 0 then max (max e1 fT) (max b p) else max (max (max e1 fT) (max b p)) (((y.core g).eng e).relAt + 4 + mmS f.card)))
    ∧ (st ≤ s.engCycle d t) ∧ ((y.core g).heldKinds f n (some e.val) [0, 1, 2] (st - 4 - mmS f.card) = []) ∧ (y.MayRead (y.ownerN g) ((List.range (descRun (cardDesc f.card 0))).map (itemAddr f.card 0 n (g, e.val))))
    ∧ (y.MayRead (y.ownerN g) ((List.range (descRun (cardDesc f.card 1))).map (itemAddr f.card 1 n (g, e.val)))) :=
  ⟨(wEng wShm wMm { run := some 0 }), ((((wEng wShm wMm { run := some 0 }).upset ([])).meshTo (0 : Fin 8) ((wEng wShm wMm { run := some 0 }).engCycle (0 : Fin 8) (9 : Nat))).scanTo (0 : Nat) (0 : Fin 64) ((wEng wShm wMm { run := some 0 }).engCycle (0 : Fin 8) (9 : Nat))), 0, 0, 0, 0, 9, 0, 0, 4, 0, 0, ((if ((((((wEng wShm wMm { run := some 0 }).upset ([])).meshTo (0 : Fin 8) ((wEng wShm wMm { run := some 0 }).engCycle (0 : Fin 8) (9 : Nat))).scanTo (0 : Nat) (0 : Fin 64) ((wEng wShm wMm { run := some 0 }).engCycle (0 : Fin 8) (9 : Nat))).core (0 : Nat)).eng (0 : Fin 64)).relAt = 0 then max (max (0 : Nat) (4 : Nat)) (max (0 : Nat) (0 : Nat)) else max (max (max (0 : Nat) (4 : Nat)) (max (0 : Nat) (0 : Nat))) (((((((wEng wShm wMm { run := some 0 }).upset ([])).meshTo (0 : Fin 8) ((wEng wShm wMm { run := some 0 }).engCycle (0 : Fin 8) (9 : Nat))).scanTo (0 : Nat) (0 : Fin 64) ((wEng wShm wMm { run := some 0 }).engCycle (0 : Fin 8) (9 : Nat))).core (0 : Nat)).eng (0 : Fin 64)).relAt + 4 + mmS ({ card := wMm } : Flight).card))), { card := wMm }, [], by decide +kernel, rfl, by decide +kernel, by decide +kernel, by decide +kernel, by decide +kernel, by decide +kernel, rfl, by decide +kernel, by decide +kernel, by unfold State.MayRead; decide +kernel, by unfold State.MayRead; decide +kernel⟩

set_option maxRecDepth 100000 in
/-- Witness of `PassesScanAndStart`. -/
theorem test_passesScanAndStart_5 : ∃ (s : State) (y : State) (d : Fin 8) (c : Fin 16) (e : Fin 64) (g : Nat) (t : Nat) (n : Nat) (e1 : Nat) (fT : Nat) (b : Nat) (p : Nat) (st : Nat) (f : Flight) (up : List (BitVec 37)) (k : _) (i : _), (g = 16 * d.val + c.val)
    ∧ (y = ((s.upset up).meshTo d (s.engCycle d t)).scanTo g e (s.engCycle d t)) ∧ (y.dieRuns d t = true) ∧ ((y.core g).nextPass e = some (f, n))
    ∧ (((y.core g).eng e).terms f n = some (e1, fT, b, p)) ∧ (((y.core g).eng e).cur = none) ∧ (((y.core g).eng e).bankBusy f.card n = false)
    ∧ (st = (if ((y.core g).eng e).relAt = 0 then max (max e1 fT) (max b p) else max (max (max e1 fT) (max b p)) (((y.core g).eng e).relAt + 4 + mmS f.card)))
    ∧ (st ≤ s.engCycle d t) ∧ ((y.core g).heldKinds f n (some e.val) [0, 1, 2] (st - 4 - mmS f.card) = []) ∧ (k < 2) ∧ (i < descRun (cardDesc f.card k))
    ∧ (y.mayAccess (y.ownerN g) false (itemAddr f.card k n (g, e.val) i) = false) :=
  ⟨(wEng wRun wMm { run := some 0 }), ((((wEng wRun wMm { run := some 0 }).upset ([])).meshTo (0 : Fin 8) ((wEng wRun wMm { run := some 0 }).engCycle (0 : Fin 8) (9 : Nat))).scanTo (0 : Nat) (0 : Fin 64) ((wEng wRun wMm { run := some 0 }).engCycle (0 : Fin 8) (9 : Nat))), 0, 0, 0, 0, 9, 0, 0, 4, 0, 0, ((if ((((((wEng wRun wMm { run := some 0 }).upset ([])).meshTo (0 : Fin 8) ((wEng wRun wMm { run := some 0 }).engCycle (0 : Fin 8) (9 : Nat))).scanTo (0 : Nat) (0 : Fin 64) ((wEng wRun wMm { run := some 0 }).engCycle (0 : Fin 8) (9 : Nat))).core (0 : Nat)).eng (0 : Fin 64)).relAt = 0 then max (max (0 : Nat) (4 : Nat)) (max (0 : Nat) (0 : Nat)) else max (max (max (0 : Nat) (4 : Nat)) (max (0 : Nat) (0 : Nat))) (((((((wEng wRun wMm { run := some 0 }).upset ([])).meshTo (0 : Fin 8) ((wEng wRun wMm { run := some 0 }).engCycle (0 : Fin 8) (9 : Nat))).scanTo (0 : Nat) (0 : Fin 64) ((wEng wRun wMm { run := some 0 }).engCycle (0 : Fin 8) (9 : Nat))).core (0 : Nat)).eng (0 : Fin 64)).relAt + 4 + mmS ({ card := wMm } : Flight).card))), { card := wMm }, [], 1, 31, by decide +kernel, rfl, by decide +kernel, by decide +kernel, by decide +kernel, by decide +kernel, by decide +kernel, rfl, by decide +kernel, by decide +kernel, by decide +kernel, by decide +kernel, by decide +kernel⟩

/-- Witness of `PassesAccumulateAndEnd`. -/
theorem test_passesAccumulateAndEnd_0 : ∃ (s : State) (d : Fin 8) (c : Fin 16) (e : Fin 64) (t : Nat) (p : PassRun) (f : Flight), (s.Accumulating (16 * d.val + c.val) e t p f)
    ∧ ((s.cycled (16 * d.val + c.val) e f p).trap = (((s.core (16 * d.val + c.val)).eng e).bankOf ((s.core (16 * d.val + c.val)).eng e).passNo).trap)
    ∧ (p.cyc + 1 < p.len) :=
  ⟨(wEng wShm wMm { cur := some ⟨0, 0, 0, 32, 0, true⟩ }), 0, 0, 0, 9, ⟨0, 0, 0, 32, 0, true⟩, { card := wMm }, by unfold State.Accumulating; decide +kernel, by decide +kernel, by decide +kernel⟩

/-- Witness of `PassesAccumulateAndEnd`. -/
theorem test_passesAccumulateAndEnd_1 : ∃ (s : State) (d : Fin 8) (c : Fin 16) (e : Fin 64) (t : Nat) (p : PassRun) (f : Flight), (s.Accumulating (16 * d.val + c.val) e t p f)
    ∧ ((s.cycled (16 * d.val + c.val) e f p).trap = (((s.core (16 * d.val + c.val)).eng e).bankOf ((s.core (16 * d.val + c.val)).eng e).passNo).trap)
    ∧ (p.cyc + 1 = p.len) :=
  ⟨(wEng wShm wMm { cur := some ⟨0, 0, 0, 32, 31, true⟩ }), 0, 0, 0, 90, ⟨0, 0, 0, 32, 31, true⟩, { card := wMm }, by unfold State.Accumulating; decide +kernel, by decide +kernel, by decide +kernel⟩

set_option maxRecDepth 100000 in
/-- Witness of `PassesAccumulateAndEnd`. -/
theorem test_passesAccumulateAndEnd_2 : ∃ (s : State) (d : Fin 8) (c : Fin 16) (e : Fin 64) (t : Nat) (p : PassRun) (f : Flight) (i : Fin 32) (j : Fin 32) (x : Cell) (v : _), (s.Accumulating (16 * d.val + c.val) e t p f)
    ∧ (p.cyc + 1 < p.len) ∧ (mmA f.card = 4) ∧ (mmB f.card = 4) ∧ (bodyF f.card 168 2 ≠ 2) ∧ ((((s.core (16 * d.val + c.val)).eng e).bankOf ((s.core (16 * d.val + c.val)).eng e).passNo).anchor = 0)
    ∧ ((padTo {} 1024 (((s.core (16 * d.val + c.val)).eng e).bankOf ((s.core (16 * d.val + c.val)).eng e).passNo).cells)[32 * i.val + j.val]? = some x)
    ∧ (x.lat = false) ∧ (s.mayAccess (s.ownerN (16 * d.val + c.val)) false (itemAddr f.card 0 p.iter (16 * d.val + c.val, e.val) (32 * p.cyc + i.val)) = true)
    ∧ (s.mayAccess (s.ownerN (16 * d.val + c.val)) false (itemAddr f.card 1 p.iter (16 * d.val + c.val, e.val) (32 * p.cyc + j.val)) = true)
    ∧ (v = x.v + sext (s.asOf (feedCycle f.card 0 p.s (32 * p.cyc + i.val)) (itemAddr f.card 0 p.iter (16 * d.val + c.val, e.val) (32 * p.cyc + i.val))).toNat 8 * sext (s.asOf (feedCycle f.card 1 p.s (32 * p.cyc + j.val)) (itemAddr f.card 1 p.iter (16 * d.val + c.val, e.val) (32 * p.cyc + j.val))).toNat 8)
    ∧ (-(2 ^ 47) ≤ v) ∧ (v ≤ 2 ^ 47 - 1) :=
  ⟨((wEng wShm wMm { cur := some ⟨0, 0, 0, 32, 0, true⟩ }).wrByte (2 * 2 ^ 32) 255), 0, 0, 0, 9, ⟨0, 0, 0, 32, 0, true⟩, { card := wMm }, 0, 0, {}, 1, by unfold State.Accumulating; decide +kernel, by decide +kernel, by decide +kernel, by decide +kernel, by decide +kernel, by decide +kernel, by decide +kernel, by decide +kernel, by decide +kernel, by decide +kernel, by decide +kernel, by decide +kernel, by decide +kernel⟩

set_option maxRecDepth 100000 in
/-- Witness of `TilesDrainAndAreChecked`. -/
theorem test_tilesDrainAndAreChecked_0 : ∃ (s : State) (d : Fin 8) (c : Fin 16) (e : Fin 64) (g : Nat) (t : Nat) (st : Nat) (x : Engine) (w : DrainWait) (rest : List DrainWait) (f : Flight) (b : _) (o : _), (g = 16 * d.val + c.val)
    ∧ (s.dieRuns d t = true) ∧ (x = (s.core g).eng e) ∧ (x.toDrain = w :: rest) ∧ ((s.core g).flight w.seq = some f) ∧ (st = max w.fin x.convFree)
    ∧ (st ≤ s.engCycle d t) ∧ (b = x.bankOf w.bank) ∧ (o = b.drain (mmOut f.card) (sext (bodyF f.card 171 8) 8) (bodyF f.card 180 1 == 1) (fun r k => if bodyF f.card 179 1 = 1 then some (srValue (bodyF f.card 64 32) f.pos e w.iter r k) else none)) :=
  ⟨(wEng wShm wMm { toDrain := [⟨0, 0, 0, 0, 0⟩] }), 0, 0, 0, (16 * (0 : Fin 8).val + (0 : Fin 16).val), 9, (max (⟨0, 0, 0, 0, 0⟩ : DrainWait).fin (((wEng wShm wMm { toDrain := [⟨0, 0, 0, 0, 0⟩] }).core (16 * (0 : Fin 8).val + (0 : Fin 16).val)).eng (0 : Fin 64)).convFree), (((wEng wShm wMm { toDrain := [⟨0, 0, 0, 0, 0⟩] }).core (16 * (0 : Fin 8).val + (0 : Fin 16).val)).eng (0 : Fin 64)), ⟨0, 0, 0, 0, 0⟩, [], { card := wMm }, _, _, rfl, by decide +kernel, rfl, by decide +kernel, by decide +kernel, rfl, by decide +kernel, rfl, rfl⟩

set_option maxRecDepth 100000 in
/-- Witness of `TilesDrainAndAreChecked`. -/
theorem test_tilesDrainAndAreChecked_1 : ∃ (s : State) (d : Fin 8) (c : Fin 16) (e : Fin 64) (g : Nat) (t : Nat) (n : Nat) (td : TileDrain) (rest : List TileDrain) (f : Flight), (g = 16 * d.val + c.val)
    ∧ (s.dieRuns d t = true) ∧ (((s.core g).eng e).drains = td :: rest) ∧ ((s.core g).flight td.seq = some f) ∧ (td.start + 32 + td.len ≤ s.engCycle d t)
    ∧ (n = s.ownerN g) ∧ (td.fails = 0) ∧ (td.ownError = false) ∧ (td.poisoned = false) ∧ (quietCard f.card 2) ∧ ((td.bytes.length + 31) / 32 ≤ td.len)
    ∧ (∀ i, i < td.bytes.length → s.mayAccess n true (itemAddr f.card 2 td.iter (g, e.val) i) = true) :=
  ⟨(wEng wShm wMm { drains := [⟨0, 0, 0, 32, [1, 2], 0, false, false, 0, 0, false, false⟩] }), 0, 0, 0, (16 * (0 : Fin 8).val + (0 : Fin 16).val), 64, ((wEng wShm wMm { drains := [⟨0, 0, 0, 32, [1, 2], 0, false, false, 0, 0, false, false⟩] }).ownerN (16 * (0 : Fin 8).val + (0 : Fin 16).val)), ⟨0, 0, 0, 32, [1, 2], 0, false, false, 0, 0, false, false⟩, [], { card := wMm }, rfl, by decide +kernel, by decide +kernel, by decide +kernel, by decide +kernel, rfl, by decide +kernel, by decide +kernel, by decide +kernel, by unfold quietCard; decide +kernel, by decide +kernel, by decide +kernel⟩

set_option maxRecDepth 100000 in
/-- Witness of `TilesDrainAndAreChecked`. -/
theorem test_tilesDrainAndAreChecked_2 : ∃ (s : State) (d : Fin 8) (c : Fin 16) (e : Fin 64) (g : Nat) (t : Nat) (n : Nat) (td : TileDrain) (rest : List TileDrain) (f : Flight), (g = 16 * d.val + c.val)
    ∧ (s.dieRuns d t = true) ∧ (((s.core g).eng e).drains = td :: rest) ∧ ((s.core g).flight td.seq = some f) ∧ (td.start + 32 + td.len ≤ s.engCycle d t)
    ∧ (n = s.ownerN g) ∧ (0 < td.fails) ∧ (s.signalsFit g f.card 2 = true) :=
  ⟨(wEng wShm wMm { drains := [⟨0, 0, 0, 32, [1, 2], 0, false, false, 1, 0, false, false⟩] }), 0, 0, 0, (16 * (0 : Fin 8).val + (0 : Fin 16).val), 64, ((wEng wShm wMm { drains := [⟨0, 0, 0, 32, [1, 2], 0, false, false, 1, 0, false, false⟩] }).ownerN (16 * (0 : Fin 8).val + (0 : Fin 16).val)), ⟨0, 0, 0, 32, [1, 2], 0, false, false, 1, 0, false, false⟩, [], { card := wMm }, rfl, by decide +kernel, by decide +kernel, by decide +kernel, by decide +kernel, rfl, by decide +kernel, by decide +kernel⟩

set_option maxRecDepth 100000 in
/-- Witness of `VectorGroupsEnterAndLeave`. -/
theorem test_vectorGroupsEnterAndLeave_0 : ∃ (s : State) (y : State) (d : Fin 8) (c : Fin 16) (g : Nat) (t : Nat) (n : Nat) (k : Nat) (cyc : Nat) (f : Flight) (once : Tab (List Byte)) (up : List (BitVec 37)), (g = 16 * d.val + c.val)
    ∧ (cyc = s.engCycle d t) ∧ (s.dieRuns d t = true) ∧ (y = ((s.upset up).meshTo d cyc).portTo g (cyc + 1)) ∧ (y.dieRuns d t = true)
    ∧ ((y.core g).nextGroup = some (f, n, k)) ∧ ((y.core g).vec.due ≤ cyc) ∧ (n = 0 → k = 0 → f.issue < cyc) ∧ ((y.core g).groupHeld f n k cyc = false)
    ∧ ((y.core g).vec.holdCount < 4) ∧ (k = 0 → ∀ i, i < 4 → ∀ w, slotUse f.card i = some w → (w = false → y.MayRead (y.ownerN g) ((List.range (descRun (cardDesc f.card i))).map (itemAddr f.card i n (g, 0))))
    ∧ (w = true → ∀ b, b < descRun (cardDesc f.card i) → y.mayAccess (y.ownerN g) true (itemAddr f.card i n (g, 0) b) = true)) ∧ (once = (if n = 0
    ∧ k = 0 then y.readOnce g f.card cyc else (y.core g).vec.bcast)) ∧ (∃ slot, vRole f.card 4 = some slot) ∧ (isMx (vTypeOut f.card) = false)
    ∧ (vRedOp f.card = 0) :=
  ⟨(wShm.setCore 0 { seq := 1, flights := [{ card := num [(0, 2), (246, 0x20), (249, 0x30)] }], vec := { run := some 0, group := 1 } }), ((((wShm.setCore 0 { seq := 1, flights := [{ card := num [(0, 2), (246, 0x20), (249, 0x30)] }], vec := { run := some 0, group := 1 } }).upset ([])).meshTo (0 : Fin 8) ((wShm.setCore 0 { seq := 1, flights := [{ card := num [(0, 2), (246, 0x20), (249, 0x30)] }], vec := { run := some 0, group := 1 } }).engCycle (0 : Fin 8) (9 : Nat))).portTo (16 * (0 : Fin 8).val + (0 : Fin 16).val) (((wShm.setCore 0 { seq := 1, flights := [{ card := num [(0, 2), (246, 0x20), (249, 0x30)] }], vec := { run := some 0, group := 1 } }).engCycle (0 : Fin 8) (9 : Nat)) + 1)), 0, 0, (16 * (0 : Fin 8).val + (0 : Fin 16).val), 9, 0, 1, ((wShm.setCore 0 { seq := 1, flights := [{ card := num [(0, 2), (246, 0x20), (249, 0x30)] }], vec := { run := some 0, group := 1 } }).engCycle (0 : Fin 8) (9 : Nat)), { card := num [(0, 2), (246, 0x20), (249, 0x30)] }, ((if (0 : Nat) = 0 ∧ (1 : Nat) = 0 then ((((wShm.setCore 0 { seq := 1, flights := [{ card := num [(0, 2), (246, 0x20), (249, 0x30)] }], vec := { run := some 0, group := 1 } }).upset ([])).meshTo (0 : Fin 8) ((wShm.setCore 0 { seq := 1, flights := [{ card := num [(0, 2), (246, 0x20), (249, 0x30)] }], vec := { run := some 0, group := 1 } }).engCycle (0 : Fin 8) (9 : Nat))).portTo (16 * (0 : Fin 8).val + (0 : Fin 16).val) (((wShm.setCore 0 { seq := 1, flights := [{ card := num [(0, 2), (246, 0x20), (249, 0x30)] }], vec := { run := some 0, group := 1 } }).engCycle (0 : Fin 8) (9 : Nat)) + 1)).readOnce (16 * (0 : Fin 8).val + (0 : Fin 16).val) ({ card := num [(0, 2), (246, 0x20), (249, 0x30)] } : Flight).card ((wShm.setCore 0 { seq := 1, flights := [{ card := num [(0, 2), (246, 0x20), (249, 0x30)] }], vec := { run := some 0, group := 1 } }).engCycle (0 : Fin 8) (9 : Nat)) else (((((wShm.setCore 0 { seq := 1, flights := [{ card := num [(0, 2), (246, 0x20), (249, 0x30)] }], vec := { run := some 0, group := 1 } }).upset ([])).meshTo (0 : Fin 8) ((wShm.setCore 0 { seq := 1, flights := [{ card := num [(0, 2), (246, 0x20), (249, 0x30)] }], vec := { run := some 0, group := 1 } }).engCycle (0 : Fin 8) (9 : Nat))).portTo (16 * (0 : Fin 8).val + (0 : Fin 16).val) (((wShm.setCore 0 { seq := 1, flights := [{ card := num [(0, 2), (246, 0x20), (249, 0x30)] }], vec := { run := some 0, group := 1 } }).engCycle (0 : Fin 8) (9 : Nat)) + 1)).core (16 * (0 : Fin 8).val + (0 : Fin 16).val)).vec.bcast)), [], rfl, rfl, by decide +kernel, rfl, by decide +kernel, by decide +kernel, by decide +kernel, by decide +kernel, by decide +kernel, by decide +kernel, fun h => absurd h (by decide), rfl, ⟨0, by decide +kernel⟩, by decide +kernel, by decide +kernel⟩

set_option maxRecDepth 100000 in
/-- Witness of `VectorGroupsEnterAndLeave`. -/
theorem test_vectorGroupsEnterAndLeave_1 : ∃ (s : State) (y : State) (d : Fin 8) (c : Fin 16) (g : Nat) (t : Nat) (cyc : Nat) (c0 : Nat) (o : VOut) (f : Flight), (g = 16 * d.val + c.val)
    ∧ (cyc = s.engCycle d t) ∧ (s.dieRuns d t = true) ∧ (y = s.meshTo d cyc) ∧ ((y.core g).vec.outs = [o]) ∧ ((y.core g).flight o.seq = some f)
    ∧ (o.offered = false) ∧ (∀ h, h ∈ (y.core g).flights → cardOp h.card = 2 → quietCard h.card 2) ∧ (c0 = max (y.core g).vec.portAt o.due)
    ∧ (c0 ≤ cyc) ∧ ((offerLines c0 o.lines (y.core g) 0).2.2.2 = []) ∧ (∀ l, l ∈ o.lines → ∀ i, i < l.2.length → y.mayAccess (y.ownerN g) true (l.1 + i) = true)
    ∧ (∀ p, p ∈ y.past → ∀ l, l ∈ o.lines → l.1 ≤ p.addr → p.addr < l.1 + l.2.length → p.cyc ≤ c0) ∧ (o.lines.Pairwise (fun l m => l.1 + l.2.length ≤ m.1 ∨ m.1 + m.2.length ≤ l.1)) :=
  ⟨(wShm.setCore 0 { seq := 1, flights := [{ card := 2 }], vec := { outs := [⟨0, 0, 0, false, true, false, 0, [(0, [1, 2]), (32, [3])], 0, 0, [], true, false⟩] } }), ((wShm.setCore 0 { seq := 1, flights := [{ card := 2 }], vec := { outs := [⟨0, 0, 0, false, true, false, 0, [(0, [1, 2]), (32, [3])], 0, 0, [], true, false⟩] } }).meshTo (0 : Fin 8) ((wShm.setCore 0 { seq := 1, flights := [{ card := 2 }], vec := { outs := [⟨0, 0, 0, false, true, false, 0, [(0, [1, 2]), (32, [3])], 0, 0, [], true, false⟩] } }).engCycle (0 : Fin 8) (9 : Nat))), 0, 0, (16 * (0 : Fin 8).val + (0 : Fin 16).val), 9, ((wShm.setCore 0 { seq := 1, flights := [{ card := 2 }], vec := { outs := [⟨0, 0, 0, false, true, false, 0, [(0, [1, 2]), (32, [3])], 0, 0, [], true, false⟩] } }).engCycle (0 : Fin 8) (9 : Nat)), (max (((wShm.setCore 0 { seq := 1, flights := [{ card := 2 }], vec := { outs := [⟨0, 0, 0, false, true, false, 0, [(0, [1, 2]), (32, [3])], 0, 0, [], true, false⟩] } }).meshTo (0 : Fin 8) ((wShm.setCore 0 { seq := 1, flights := [{ card := 2 }], vec := { outs := [⟨0, 0, 0, false, true, false, 0, [(0, [1, 2]), (32, [3])], 0, 0, [], true, false⟩] } }).engCycle (0 : Fin 8) (9 : Nat))).core (16 * (0 : Fin 8).val + (0 : Fin 16).val)).vec.portAt (⟨0, 0, 0, false, true, false, 0, [(0, [1, 2]), (32, [3])], 0, 0, [], true, false⟩ : VOut).due), ⟨0, 0, 0, false, true, false, 0, [(0, [1, 2]), (32, [3])], 0, 0, [], true, false⟩, { card := 2 }, rfl, rfl, by decide +kernel, rfl, by decide +kernel, by decide +kernel, by decide +kernel, by unfold quietCard; decide +kernel, rfl, by decide +kernel, by decide +kernel, by decide +kernel, by decide +kernel, by decide +kernel⟩

set_option maxRecDepth 100000 in
/-- Witness of `VectorGroupsEnterAndLeave`. -/
theorem test_vectorGroupsEnterAndLeave_2 : ∃ (s : State) (y : State) (d : Fin 8) (c : Fin 16) (g : Nat) (t : Nat) (cyc : Nat) (f : Flight), (g = 16 * d.val + c.val)
    ∧ (cyc = s.engCycle d t) ∧ (s.dieRuns d t = true) ∧ (y = s.meshTo d cyc) ∧ ((y.core g).vec.outs = []) ∧ ((y.core g).Numbered) ∧ ((y.core g).iterDone cyc = some f)
    ∧ (quietCard f.card 2) :=
  ⟨(wShm.setCore 0 { seq := 1, flights := [{ card := 2 }], vec := { run := some 0 } }), ((wShm.setCore 0 { seq := 1, flights := [{ card := 2 }], vec := { run := some 0 } }).meshTo (0 : Fin 8) ((wShm.setCore 0 { seq := 1, flights := [{ card := 2 }], vec := { run := some 0 } }).engCycle (0 : Fin 8) (9 : Nat))), 0, 0, (16 * (0 : Fin 8).val + (0 : Fin 16).val), 9, ((wShm.setCore 0 { seq := 1, flights := [{ card := 2 }], vec := { run := some 0 } }).engCycle (0 : Fin 8) (9 : Nat)), { card := 2 }, rfl, rfl, by decide +kernel, rfl, by decide +kernel, ⟨by decide +kernel, by decide +kernel⟩, by decide +kernel, by unfold quietCard; decide +kernel⟩

set_option maxRecDepth 100000 in
/-- Witness of `VectorGroupsEnterAndLeave`. -/
theorem test_vectorGroupsEnterAndLeave_3 : ∃ (s : State) (y : State) (d : Fin 8) (c : Fin 16) (g : Nat) (t : Nat) (cyc : Nat) (f : Flight), (g = 16 * d.val + c.val)
    ∧ (cyc = s.engCycle d t) ∧ (s.dieRuns d t = true) ∧ (y = s.meshTo d cyc) ∧ ((y.core g).vec.outs = []) ∧ ((y.core g).Numbered) ∧ ((y.core g).iterDone cyc = some f)
    ∧ (bitAt (cardSignal f.card 0) 63 = true) ∧ (fld (cardSignal f.card 0) 61 2 = 2) ∧ (bitAt (cardSignal f.card 0) 60 = false) ∧ (fld (cardSignal f.card 0) 51 7 / 16 = d.val)
    ∧ (fld (cardSignal f.card 0) 58 1 = 0) ∧ (∀ i, 0 < i → i < 4 → bitAt (cardSignal f.card i) 63 = false) ∧ ((y.die d).flagT ≠ t) :=
  ⟨(wShm.setCore 0 { seq := 1, flights := [{ card := num [(0, 2), (48, 2 ^ 63 + 2 ^ 62)] }], vec := { run := some 0 } }), ((wShm.setCore 0 { seq := 1, flights := [{ card := num [(0, 2), (48, 2 ^ 63 + 2 ^ 62)] }], vec := { run := some 0 } }).meshTo (0 : Fin 8) ((wShm.setCore 0 { seq := 1, flights := [{ card := num [(0, 2), (48, 2 ^ 63 + 2 ^ 62)] }], vec := { run := some 0 } }).engCycle (0 : Fin 8) (9 : Nat))), 0, 0, (16 * (0 : Fin 8).val + (0 : Fin 16).val), 9, ((wShm.setCore 0 { seq := 1, flights := [{ card := num [(0, 2), (48, 2 ^ 63 + 2 ^ 62)] }], vec := { run := some 0 } }).engCycle (0 : Fin 8) (9 : Nat)), { card := num [(0, 2), (48, 2 ^ 63 + 2 ^ 62)] }, rfl, rfl, by decide +kernel, rfl, by decide +kernel, ⟨by decide +kernel, by decide +kernel⟩, by decide +kernel, by decide +kernel, by decide +kernel, by decide +kernel, by decide +kernel, by decide +kernel, by intro i _ _; have h : i = 1 ∨ i = 2 ∨ i = 3 := (by omega); rcases h with rfl | rfl | rfl <;> decide +kernel, by decide +kernel⟩

set_option maxRecDepth 100000 in
/-- Witness of `MoverItemsStartAndComplete`. -/
theorem test_moverItemsStartAndComplete_0 : ∃ (s : State) (y : State) (d : Fin 8) (c : Fin 16) (g : Nat) (pos : Nat) (t : Nat) (cyc : Nat) (f : Flight) (up : List (BitVec 37)), (g = 16 * d.val + c.val)
    ∧ (cyc = s.engCycle d t) ∧ (y = (s.upset up).meshTo d cyc) ∧ (y.dieRuns d t = true) ∧ ((y.core g).flightAt pos = some f) ∧ ((y.core g).flight f.seq = some f)
    ∧ (cardOp f.card = 3) ∧ (isSpread f.card = false) ∧ (descRemote (cardDesc f.card 0) = false) ∧ (f.started < cardIters f.card) ∧ (f.issue < cyc)
    ∧ ((y.core g).heldKinds f f.started none [0, 1] cyc = []) ∧ ((y.core g).moverTurn f cyc = true) ∧ (descLc (cardDesc f.card 0) / 16 = d.val)
    ∧ (0 < descRun (cardDesc f.card 0)) ∧ (y.MayRead (y.ownerN g) ((List.range (descRun (cardDesc f.card 0))).map (itemAddr f.card 0 f.started (descLc (cardDesc f.card 0), descEng (cardDesc f.card 0)))))
    ∧ (descRemote (cardDesc f.card 1) = false → descLc (cardDesc f.card 1) / 16 = d.val → ∀ i, i < descRun (cardDesc f.card 1) → y.mayAccess (y.ownerN g) true (itemAddr f.card 1 f.started (descLc (cardDesc f.card 1), descEng (cardDesc f.card 1)) i) = true) :=
  ⟨(wShm.setCore 0 { seq := 1, flights := [{ card := num [(0, 3), (88, 32)] }] }), (((wShm.setCore 0 { seq := 1, flights := [{ card := num [(0, 3), (88, 32)] }] }).upset ([])).meshTo (0 : Fin 8) ((wShm.setCore 0 { seq := 1, flights := [{ card := num [(0, 3), (88, 32)] }] }).engCycle (0 : Fin 8) (9 : Nat))), 0, 0, 0, 0, 9, ((wShm.setCore 0 { seq := 1, flights := [{ card := num [(0, 3), (88, 32)] }] }).engCycle (0 : Fin 8) (9 : Nat)), { card := num [(0, 3), (88, 32)] }, [], by decide +kernel, rfl, rfl, by decide +kernel, by decide +kernel, by decide +kernel, by decide +kernel, by decide +kernel, by decide +kernel, by decide +kernel, by decide +kernel, by decide +kernel, by decide +kernel, by decide +kernel, by decide +kernel, by unfold State.MayRead; decide +kernel, by decide +kernel⟩

set_option maxRecDepth 100000 in
/-- Witness of `MoverItemsStartAndComplete`. -/
theorem test_moverItemsStartAndComplete_1 : ∃ (s : State) (y : State) (d : Fin 8) (c : Fin 16) (g : Nat) (pos : Nat) (t : Nat) (cyc : Nat) (f : Flight) (up : List (BitVec 37)) (k : _), (g = 16 * d.val + c.val)
    ∧ (cyc = s.engCycle d t) ∧ (y = (s.upset up).meshTo d cyc) ∧ (y.dieRuns d t = true) ∧ ((y.core g).flightAt pos = some f) ∧ ((y.core g).flight f.seq = some f)
    ∧ (cardOp f.card = 3) ∧ (isSpread f.card = false) ∧ (descRemote (cardDesc f.card 0) = false) ∧ (f.started < cardIters f.card) ∧ (f.issue < cyc)
    ∧ ((y.core g).heldKinds f f.started none [0, 1] cyc = []) ∧ ((y.core g).moverTurn f cyc = true) ∧ (descLc (cardDesc f.card 0) / 16 ≠ d.val)
    ∧ (y.freeTag d = some k) :=
  ⟨(((wShm.w32 (Reg.topPartMember 0) 0x1FFFF).w64 (Reg.cdPbbShm 1 0) (2 ^ 16)).setCore 0 { seq := 1, flights := [{ card := num [(0, 3), (86, 1), (88, 32)] }] }), (((((wShm.w32 (Reg.topPartMember 0) 0x1FFFF).w64 (Reg.cdPbbShm 1 0) (2 ^ 16)).setCore 0 { seq := 1, flights := [{ card := num [(0, 3), (86, 1), (88, 32)] }] }).upset ([])).meshTo (0 : Fin 8) ((((wShm.w32 (Reg.topPartMember 0) 0x1FFFF).w64 (Reg.cdPbbShm 1 0) (2 ^ 16)).setCore 0 { seq := 1, flights := [{ card := num [(0, 3), (86, 1), (88, 32)] }] }).engCycle (0 : Fin 8) (9 : Nat))), 0, 0, 0, 0, 9, ((((wShm.w32 (Reg.topPartMember 0) 0x1FFFF).w64 (Reg.cdPbbShm 1 0) (2 ^ 16)).setCore 0 { seq := 1, flights := [{ card := num [(0, 3), (86, 1), (88, 32)] }] }).engCycle (0 : Fin 8) (9 : Nat)), { card := num [(0, 3), (86, 1), (88, 32)] }, [], 0, by decide +kernel, rfl, rfl, by decide +kernel, by decide +kernel, by decide +kernel, by decide +kernel, by decide +kernel, by decide +kernel, by decide +kernel, by decide +kernel, by decide +kernel, by decide +kernel, by decide +kernel, by decide +kernel⟩

set_option maxRecDepth 100000 in
/-- Witness of `MoverItemsStartAndComplete`. -/
theorem test_moverItemsStartAndComplete_2 : ∃ (s : State) (g : Nat) (cyc : Nat) (i : Nat) (left : Nat) (f : Flight) (r : SrcRead) (p : Nat × Nat) (bytes : List Byte), ((s.core g).flight r.seq = some f)
    ∧ (r.core = g) ∧ (cardOp f.card = 3) ∧ ((dmaSources f.card)[r.copy]? = some p) ∧ (left = Tab.get (fun _ => 0) f.unread r.iter)
    ∧ (bytes = (lineAddrs f.card 0 r.iter p i).map (s.readAsOf (s.ownerN g) cyc)) :=
  ⟨(wShm.setCore 0 { seq := 1, flights := [{ card := wMove, started := 1, unread := [(0, 1)], unplaced := [(0, 1)] }] }), 0, 9, 0, (Tab.get (fun _ => 0) ({ card := wMove, started := 1, unread := [(0, 1)], unplaced := [(0, 1)] } : Flight).unread (⟨0, 0, 0, 0, 0, []⟩ : SrcRead).iter), { card := wMove, started := 1, unread := [(0, 1)], unplaced := [(0, 1)] }, ⟨0, 0, 0, 0, 0, []⟩, (1, 0), ((lineAddrs ({ card := wMove, started := 1, unread := [(0, 1)], unplaced := [(0, 1)] } : Flight).card 0 (⟨0, 0, 0, 0, 0, []⟩ : SrcRead).iter (1, 0) (0 : Nat)).map ((wShm.setCore 0 { seq := 1, flights := [{ card := wMove, started := 1, unread := [(0, 1)], unplaced := [(0, 1)] }] }).readAsOf ((wShm.setCore 0 { seq := 1, flights := [{ card := wMove, started := 1, unread := [(0, 1)], unplaced := [(0, 1)] }] }).ownerN (0 : Nat)) (9 : Nat))), by decide +kernel, by decide +kernel, by decide +kernel, by decide +kernel, rfl, rfl⟩

set_option maxRecDepth 100000 in
/-- Witness of `MoverItemsStartAndComplete`. -/
theorem test_moverItemsStartAndComplete_3 : ∃ (s : State) (x : Landing) (f : Flight) (addrs : List Nat) (cyc : Nat), ((s.core x.core).flight x.seq = some f)
    ∧ (addrs.length = x.bytes.length) ∧ (addrs.Pairwise (· ≠ ·)) ∧ (∀ a, a ∈ addrs → s.mayAccess (s.ownerN x.core) true a = true) ∧ (∀ p, p ∈ s.past → p.addr ∈ addrs → p.cyc ≤ cyc) :=
  ⟨(wShm.setCore 0 { seq := 1, flights := [{ card := wMove, started := 1, unread := [(0, 1)], unplaced := [(0, 1)] }] }), ⟨0, 0, 0, 0, 0, [1, 2], false, 5, 0⟩, { card := wMove, started := 1, unread := [(0, 1)], unplaced := [(0, 1)] }, [64, 65], 9, by decide +kernel, by decide +kernel, by decide +kernel, by decide +kernel, by decide +kernel⟩

set_option maxRecDepth 100000 in
/-- Witness of `MoverItemsStartAndComplete`. -/
theorem test_moverItemsStartAndComplete_4 : ∃ (s : State) (x : Landing) (f : Flight) (addrs : List Nat) (a : _), ((s.core x.core).flight x.seq = some f)
    ∧ (addrs.length = x.bytes.length) ∧ (addrs.Pairwise (· ≠ ·)) ∧ (∀ a, a ∈ addrs → s.mayAccess (s.ownerN x.core) true a = true) ∧ (a ∉ addrs) :=
  ⟨(wShm.setCore 0 { seq := 1, flights := [{ card := wMove, started := 1, unread := [(0, 1)], unplaced := [(0, 1)] }] }), ⟨0, 0, 0, 0, 0, [1, 2], false, 5, 0⟩, { card := wMove, started := 1, unread := [(0, 1)], unplaced := [(0, 1)] }, [64, 65], 66, by decide +kernel, by decide +kernel, by decide +kernel, by decide +kernel, by decide +kernel⟩

set_option maxRecDepth 100000 in
/-- Witness of `MoverItemsStartAndComplete`. -/
theorem test_moverItemsStartAndComplete_5 : ∃ (s : State) (x : Landing) (f : Flight) (addrs : List Nat) (a : _), ((s.core x.core).flight x.seq = some f)
    ∧ (addrs.length = x.bytes.length) ∧ (addrs.Pairwise (· ≠ ·)) ∧ (∀ a, a ∈ addrs → s.mayAccess (s.ownerN x.core) true a = true) ∧ (x.bad = true)
    ∧ (a ∈ addrs) :=
  ⟨(wShm.setCore 0 { seq := 1, flights := [{ card := wMove, started := 1, unread := [(0, 1)], unplaced := [(0, 1)] }] }), ⟨0, 0, 0, 0, 0, [1, 2], true, 5, 0⟩, { card := wMove, started := 1, unread := [(0, 1)], unplaced := [(0, 1)] }, [64, 65], 65, by decide +kernel, by decide +kernel, by decide +kernel, by decide +kernel, by decide +kernel, by decide +kernel⟩

set_option maxRecDepth 100000 in
/-- Witness of `MoverItemsStartAndComplete`. -/
theorem test_moverItemsStartAndComplete_6 : ∃ (s : State) (x : Landing) (f : Flight) (addrs : List Nat), ((s.core x.core).flight x.seq = some f)
    ∧ (addrs.length = x.bytes.length) ∧ (addrs.Pairwise (· ≠ ·)) ∧ (∀ a, a ∈ addrs → s.mayAccess (s.ownerN x.core) true a = true) :=
  ⟨(wShm.setCore 0 { seq := 1, flights := [{ card := wMove, started := 1, unread := [(0, 1)], unplaced := [(0, 1)] }] }), ⟨0, 0, 0, 0, 0, [1, 2], false, 5, 0⟩, { card := wMove, started := 1, unread := [(0, 1)], unplaced := [(0, 1)] }, [64, 65], by decide +kernel, by decide +kernel, by decide +kernel, by decide +kernel⟩

set_option maxRecDepth 100000 in
/-- Witness of `MoverItemsStartAndComplete`. -/
theorem test_moverItemsStartAndComplete_7 : ∃ (s : State) (y : State) (d : Fin 8) (c : Fin 16) (g : Nat) (pos : Nat) (t : Nat) (cyc : Nat) (f : Flight) (z : Flight), (g = 16 * d.val + c.val)
    ∧ (cyc = s.engCycle d t) ∧ (y = s.meshTo d cyc) ∧ (y.dieRuns d t = true) ∧ ((y.core g).flightAt pos = some f) ∧ ((y.core g).flight f.seq = some f)
    ∧ (((y.meshTo d (cyc + 1)).core g).flightAt pos = some z) ∧ (3 ≤ cardOp f.card) ∧ (cardOp f.card ≤ 5) ∧ (f.done < f.started) ∧ (z.itemEnded g f.done cyc = true)
    ∧ (quietCard f.card 2) :=
  ⟨(wShm.setCore 0 { seq := 1, flights := [{ card := num [(0, 3), (88, 2)], started := 1, placedAt := [(0, 3)] }] }), ((wShm.setCore 0 { seq := 1, flights := [{ card := num [(0, 3), (88, 2)], started := 1, placedAt := [(0, 3)] }] }).meshTo (0 : Fin 8) ((wShm.setCore 0 { seq := 1, flights := [{ card := num [(0, 3), (88, 2)], started := 1, placedAt := [(0, 3)] }] }).engCycle (0 : Fin 8) (9 : Nat))), 0, 0, 0, 0, 9, ((wShm.setCore 0 { seq := 1, flights := [{ card := num [(0, 3), (88, 2)], started := 1, placedAt := [(0, 3)] }] }).engCycle (0 : Fin 8) (9 : Nat)), { card := num [(0, 3), (88, 2)], started := 1, placedAt := [(0, 3)] }, { card := num [(0, 3), (88, 2)], started := 1, placedAt := [(0, 3)] }, by decide +kernel, rfl, rfl, by decide +kernel, by decide +kernel, by decide +kernel, by decide +kernel, by decide +kernel, by decide +kernel, by decide +kernel, by decide +kernel, by unfold quietCard; decide +kernel⟩

set_option maxRecDepth 100000 in
/-- Witness of `MoverItemsStartAndComplete`. -/
theorem test_moverItemsStartAndComplete_8 : ∃ (s : State) (y : State) (d : Fin 8) (c : Fin 16) (g : Nat) (pos : Nat) (n : Nat) (since : Nat) (r : Nat) (t : Nat) (cyc : Nat) (e : Fin 64) (f : Flight) (l : List Nat) (held : Nat → List Nat), (g = 16 * d.val + c.val)
    ∧ (cyc = s.engCycle d t) ∧ (y = s.meshTo d cyc) ∧ (y.dieRuns d t = true) ∧ ((y.core g).flightAt pos = some f) ∧ ((y.core g).nextItem f e = some (n, since))
    ∧ (Tab.get (fun _ => none) f.begun (releaseKey n (keyEng f.card e)) = none) ∧ (∀ x, held x = (y.core g).heldKinds f n (if cardOp f.card = 1 then some e.val else none) (upto 4 (fun i => (slotUse f.card i).isSome)) x)
    ∧ (since < r) ∧ (r ≤ cyc) ∧ (held r = []) ∧ (∀ x, since ≤ x → x < r → held x ≠ []) ∧ (l = held (r - 1)) ∧ ((y.core g).fired.1 ≠ r) :=
  ⟨(wShm.setCore 0 { seq := 2, flights := [{ card := num [(0, 3), (80, 64), (88, 32), (120, 32)], relAt := [(itemKey 1 0 0, some 5)] }, { seq := 1, pos := 1, card := num [(0, 3), (88, 32), (112, 128), (120, 32)] }] }), ((wShm.setCore 0 { seq := 2, flights := [{ card := num [(0, 3), (80, 64), (88, 32), (120, 32)], relAt := [(itemKey 1 0 0, some 5)] }, { seq := 1, pos := 1, card := num [(0, 3), (88, 32), (112, 128), (120, 32)] }] }).meshTo (0 : Fin 8) ((wShm.setCore 0 { seq := 2, flights := [{ card := num [(0, 3), (80, 64), (88, 32), (120, 32)], relAt := [(itemKey 1 0 0, some 5)] }, { seq := 1, pos := 1, card := num [(0, 3), (88, 32), (112, 128), (120, 32)] }] }).engCycle (0 : Fin 8) (9 : Nat))), 0, 0, 0, 1, 0, 1, 5, 9, ((wShm.setCore 0 { seq := 2, flights := [{ card := num [(0, 3), (80, 64), (88, 32), (120, 32)], relAt := [(itemKey 1 0 0, some 5)] }, { seq := 1, pos := 1, card := num [(0, 3), (88, 32), (112, 128), (120, 32)] }] }).engCycle (0 : Fin 8) (9 : Nat)), 0, { seq := 1, pos := 1, card := num [(0, 3), (88, 32), (112, 128), (120, 32)] }, [1], _, by decide +kernel, rfl, rfl, by decide +kernel, by decide +kernel, by decide +kernel, by decide +kernel, fun _ => rfl, by decide +kernel, by decide +kernel, by decide +kernel, by intro x _ _; have h : x = 1 ∨ x = 2 ∨ x = 3 ∨ x = 4 := (by omega); rcases h with rfl | rfl | rfl | rfl <;> decide +kernel, by decide +kernel, by decide +kernel⟩

set_option maxRecDepth 100000 in
/-- Witness of `LinkUnitsCarryAcksGrantsAndHours`. -/
theorem test_linkUnitsCarryAcksGrantsAndHours_0 : ∃ (s : State) (p : Fin 12) (x : BitVec 2048), (s.portIn p = true)
    ∧ (unitGood x.toNat linkPrefix = true) ∧ (unitF x.toNat 220 4 = 7) ∧ (unitSound x.toNat = true) ∧ (fld x.toNat 664 1384 = 0)
    ∧ (unitF x.toNat 188 15 / 8 = s.neighbour p) ∧ (unitF x.toNat 89 3 = 0) ∧ (fld x.toNat 322 2 = 0) ∧ (fld x.toNat 350 2 = 0)
    ∧ (fld x.toNat 328 5 = s.f32 Reg.topHourCtl 0 5) ∧ ((s.port p).waiting = []) ∧ (bitAt x.toNat 320 = false) :=
  ⟨wPort, 0, (wLink (wPort.f32 Reg.topHourCtl 0 5 * 2 ^ 72 + 5)), by decide +kernel, by decide +kernel, by decide +kernel, by decide +kernel, by decide +kernel, by decide +kernel, by decide +kernel, by decide +kernel, by decide +kernel, by decide +kernel, by decide +kernel, by decide +kernel⟩

set_option maxRecDepth 100000 in
/-- Witness of `LinkUnitsCarryAcksGrantsAndHours`. -/
theorem test_linkUnitsCarryAcksGrantsAndHours_1 : ∃ (s : State) (p : Fin 12) (x : BitVec 2048), (s.portIn p = true)
    ∧ (unitGood x.toNat linkPrefix = true) ∧ (unitF x.toNat 220 4 = 7) ∧ (unitSound x.toNat = true) ∧ (fld x.toNat 664 1384 = 0)
    ∧ (unitF x.toNat 188 15 / 8 = s.neighbour p) ∧ (unitF x.toNat 89 3 = 0) ∧ (fld x.toNat 322 2 = 0) ∧ (fld x.toNat 350 2 = 0)
    ∧ (fld x.toNat 328 5 = s.f32 Reg.topHourCtl 0 5) ∧ ((s.port p).waiting = []) ∧ (bitAt x.toNat 320 = true) ∧ ((s.port p).got = 0)
    ∧ ((s.port p).retraining = false) ∧ ((s.port p).replays.2 < 15) ∧ ((∀ e, e ∈ (s.port p).replay → seqGe (linkF x.toNat 32 4) e.1 = false))
    ∧ ((∃ e, e ∈ (s.port p).replay ∧ e.1 = linkF x.toNat 36 4)) :=
  ⟨(wPort.setPort 0 { replay := [(5, {})] }), 0, (wLink (wPort.f32 Reg.topHourCtl 0 5 * 2 ^ 72 + 2 ^ 64 + 5 * 2 ^ 32 + 4)), by decide +kernel, by decide +kernel, by decide +kernel, by decide +kernel, by decide +kernel, by decide +kernel, by decide +kernel, by decide +kernel, by decide +kernel, by decide +kernel, by decide +kernel, by decide +kernel, by decide +kernel, by decide +kernel, by decide +kernel, by decide +kernel, ⟨(5, {}), by decide +kernel, by decide +kernel⟩⟩

/-- Witness of `LinkUnitsCarryAcksGrantsAndHours`. -/
theorem test_linkUnitsCarryAcksGrantsAndHours_2 : ∃ (s : State) (p : Fin 12), (s.portIn p = true) ∧ ((s.port p).Counts) :=
  ⟨wPort, 0, by decide +kernel, counts_of _ (by decide +kernel) (by decide +kernel)⟩

/-- Witness of `LinkUnitsCarryAcksGrantsAndHours`. -/
theorem test_linkUnitsCarryAcksGrantsAndHours_3 : ∃ (s : State) (p : Fin 12), (s.portIn p = true) ∧ ((s.port p).Counts) ∧ (0 < (s.port p).got) :=
  ⟨(wPort.setPort 0 { got := 1 }), 0, by decide +kernel, counts_of _ (by decide +kernel) (by decide +kernel), by decide +kernel⟩

/-- Witness of `LinkUnitsCarryAcksGrantsAndHours`. -/
theorem test_linkUnitsCarryAcksGrantsAndHours_4 : ∃ (s : State) (p : Fin 12), (s.portIn p = true) ∧ ((s.port p).Counts)
    ∧ ((s.port p).nakOpen = true) :=
  ⟨(wPort.setPort 0 { nakOpen := true }), 0, by decide +kernel, counts_of _ (by decide +kernel) (by decide +kernel), by decide +kernel⟩

set_option maxRecDepth 100000 in
/-- Witness of `LinkUnitsCarryAcksGrantsAndHours`. -/
theorem test_linkUnitsCarryAcksGrantsAndHours_5 : ∃ (s : State) (p : Fin 12) (e : Nat × FlowUnit) (rest : List (Nat × FlowUnit)) (n : Nat), (s.portIn p = true)
    ∧ ((s.port p).retraining = false) ∧ ((s.port p).got = 0) ∧ ((s.port p).replay = e :: rest)
    ∧ (n = (if (s.port p).replays.1 = e.1 then (s.port p).replays.2 + 1 else 1)) :=
  ⟨(wPort.setPort 0 { replay := [(5, {})], replays := (5, 2) }), 0, (5, {}), [], 3, by decide +kernel, by decide +kernel, by decide +kernel, by decide +kernel, by decide +kernel⟩

/-- Witness of `PortsRetrainChangeLanesAndSleep`. -/
theorem test_portsRetrainChangeLanesAndSleep_0 : ∃ (s : State) (p : Fin 12), ((s.port p).retraining = true) ∧ ((s.port p).waiting = [])
    ∧ ((s.port p).replay = []) :=
  ⟨(wPort.setPort 0 { retraining := true }), 0, by decide +kernel, by decide +kernel, by decide +kernel⟩

/-- Witness of `PortsRetrainChangeLanesAndSleep`. -/
theorem test_portsRetrainChangeLanesAndSleep_1 : ∃ (s : State) (p : Fin 12), ((s.port p).retraining = true) ∧ ((s.port p).failedRetrains = 0) :=
  ⟨(wPort.setPort 0 { retraining := true }), 0, by decide +kernel, by decide +kernel⟩

/-- Witness of `PortsRetrainChangeLanesAndSleep`. -/
theorem test_portsRetrainChangeLanesAndSleep_2 : ∃ (s : State) (p : Fin 12), ((s.port p).retraining = true) ∧ (1 ≤ (s.port p).failedRetrains)
    ∧ (s.host.events.length < 4096) :=
  ⟨(wPort.setPort 0 { retraining := true, failedRetrains := 1 }), 0, by decide +kernel, by decide +kernel, by decide +kernel⟩

/-- Witness of `PortsRetrainChangeLanesAndSleep`. -/
theorem test_portsRetrainChangeLanesAndSleep_3 : ∃ (s : State) (lane : Fin 104) (p : Nat), (s.lanePort lane = some p) ∧ ((s.port p).change = none)
    ∧ ((s.port p).Counts) :=
  ⟨wPort, 0, 0, by decide +kernel, by decide +kernel, counts_of _ (by decide +kernel) (by decide +kernel)⟩

/-- Witness of `PortsRetrainChangeLanesAndSleep`. -/
theorem test_portsRetrainChangeLanesAndSleep_4 : ∃ (s : State) (p : Fin 12) (c : LaneChange), ((s.port p).change = some c) ∧ (c.paused = true)
    ∧ (c.spare < 104) ∧ (c.lane < 104) ∧ (c.spare ≠ c.lane) ∧ (c.lane % 26 < 24) ∧ ((s.port p).waiting = [])
    ∧ ((s.port p).lanesDue = []) ∧ ((s.port p).Counts) :=
  ⟨(wPort.setPort 0 { change := some ⟨0, 24, 0, true, true⟩ }), 0, ⟨0, 24, 0, true, true⟩, by decide +kernel, by decide +kernel, by decide +kernel, by decide +kernel, by decide +kernel, by decide +kernel, by decide +kernel, by decide +kernel, counts_of _ (by decide +kernel) (by decide +kernel)⟩

/-- Witness of `PortsRetrainChangeLanesAndSleep`. -/
theorem test_portsRetrainChangeLanesAndSleep_5 : ∃ (s : State) (p : Fin 12), ((s.port p).Counts)
    ∧ ((s.setPort p { s.port p with idle := true }).maySleep p = true) ∧ ((s.port p).power = 0) :=
  ⟨wPort, 0, counts_of _ (by decide +kernel) (by decide +kernel), by decide +kernel, by decide +kernel⟩

/-- Witness of `PortsRetrainChangeLanesAndSleep`. -/
theorem test_portsRetrainChangeLanesAndSleep_6 : ∃ (s : State) (p : Fin 12), ((s.port p).Counts) ∧ (s.portPower p = 1) :=
  ⟨(wPort.setPortPower 0 1), 0, counts_of _ (by decide +kernel) (by decide +kernel), by decide +kernel⟩

/-- Witness of `PortsRetrainChangeLanesAndSleep`. -/
theorem test_portsRetrainChangeLanesAndSleep_7 : ∃ (s : State) (p : Fin 12) (b : _), ((s.port p).Counts) ∧ (s.portPower p = 2)
    ∧ (b = true ∨ s.unitFor p = true) :=
  ⟨(wPort.setPortPower 0 2), 0, true, counts_of _ (by decide +kernel) (by decide +kernel), by decide +kernel, by decide +kernel⟩

/-- Witness of `PortsRetrainChangeLanesAndSleep`. -/
theorem test_portsRetrainChangeLanesAndSleep_8 : ∃ (s : State) (p : Fin 12), ((s.port p).Counts) ∧ (s.portPower p = 3) ∧ ((s.port p).waiting = []) :=
  ⟨(wPort.setPortPower 0 3), 0, counts_of _ (by decide +kernel) (by decide +kernel), by decide +kernel, by decide +kernel⟩

set_option maxRecDepth 100000 in
/-- Witness of `RequestUnitsAreServedAtTheirTarget`. -/
theorem test_requestUnitsAreServedAtTheirTarget_2 : ∃ (s : State) (p : Fin 12) (x : BitVec 2048) (t : Nat) (u : FlowUnit) (g : _) (w : _), (u = FlowUnit.ofWire x.toNat)
    ∧ (s.Delivers p x.toNat) ∧ (s.Serves u) ∧ (s.NextUnit p 2 x.toNat) ∧ (s.coreOf u.dpart u.lc = some g) ∧ ((s.die (g / 16)).flagT ≠ t)
    ∧ (w = s.r64 (Reg.cdFlagwin (g / 16) u.dpart)) ∧ (fld u.data 40 1 = 0) ∧ (fld u.data 32 8 < fld w 8 9) ∧ (fld w 0 8 + fld w 8 9 ≤ 256) :=
  ⟨(wPort.w64 (Reg.cdFlagwin 0 0) (16 * 2 ^ 8 + 16 * 2 ^ 40)), 0, (wUnit { kind := 2, src := 8, data := 15 * 2 ^ 32 }), 9, { kind := 2, src := 8, data := 15 * 2 ^ 32 }, 0, _, by decide +kernel, by unfold State.Delivers; decide +kernel, by unfold State.Serves; decide +kernel, by unfold State.NextUnit; decide +kernel, by decide +kernel, by decide +kernel, rfl, by decide +kernel, by decide +kernel, by decide +kernel⟩

set_option maxRecDepth 100000 in
/-- Witness of `RequestUnitsAreServedAtTheirTarget`. -/
theorem test_requestUnitsAreServedAtTheirTarget_3 : ∃ (s : State) (p : Fin 12) (x : BitVec 2048) (t : Nat) (u : FlowUnit) (g : _) (w : _), (u = FlowUnit.ofWire x.toNat)
    ∧ (s.Delivers p x.toNat) ∧ (s.Serves u) ∧ (s.NextUnit p 2 x.toNat) ∧ (s.coreOf u.dpart u.lc = some g) ∧ ((s.die (g / 16)).flagT ≠ t)
    ∧ (w = s.r64 (Reg.cdFlagwin (g / 16) u.dpart)) ∧ (fld u.data 40 1 = 1) ∧ (fld u.data 32 8 < fld w 40 9) ∧ (fld w 32 8 + fld w 40 9 ≤ 256) :=
  ⟨(wPort.w64 (Reg.cdFlagwin 0 0) (16 * 2 ^ 8 + 16 * 2 ^ 40)), 0, (wUnit { kind := 2, src := 8, data := 2 ^ 40 + 15 * 2 ^ 32 }), 9, { kind := 2, src := 8, data := 2 ^ 40 + 15 * 2 ^ 32 }, 0, _, by decide +kernel, by unfold State.Delivers; decide +kernel, by unfold State.Serves; decide +kernel, by unfold State.NextUnit; decide +kernel, by decide +kernel, by decide +kernel, rfl, by decide +kernel, by decide +kernel, by decide +kernel⟩

set_option maxRecDepth 100000 in
/-- Witness of `RequestUnitsAreServedAtTheirTarget`. -/
theorem test_requestUnitsAreServedAtTheirTarget_0 : ∃ (s : State) (p : Fin 12) (x : BitVec 2048) (t : Nat) (u : FlowUnit) (b : Nat → Nat), (u = FlowUnit.ofWire x.toNat)
    ∧ (s.Delivers p x.toNat) ∧ (s.Serves u) ∧ (s.NextUnit p 0 x.toNat) ∧ (∀ i, i < 7 → bitAt u.lmask i = true → s.targetAddr u.dpart u.lc u.level (u.addr + 32 * i) = some (b i)
    ∧ s.lineOk u.dpart true (b i) = true ∧ s.Still (s.landStamp (addrDie (b i)) t) (b i) 32) :=
  ⟨wPort, 0, (wUnit { src := 8, lmask := 1, data := 5 }), 9, { src := 8, lmask := 1, data := 5 }, (fun _ => 0), by decide +kernel, by unfold State.Delivers; decide +kernel, by unfold State.Serves; decide +kernel, by unfold State.NextUnit; decide +kernel, fun i h h2 => ⟨by revert i; decide +kernel, by revert i; decide +kernel, still_of _ rfl _ _ _⟩⟩

set_option maxRecDepth 100000 in
/-- Witness of `RequestUnitsAreServedAtTheirTarget`. -/
theorem test_requestUnitsAreServedAtTheirTarget_1 : ∃ (s : State) (p : Fin 12) (x : BitVec 2048) (t : Nat) (u : FlowUnit) (a : _) (q : _) (h : _), (u = FlowUnit.ofWire x.toNat)
    ∧ (s.Delivers p x.toNat) ∧ (s.Serves u) ∧ (s.NextUnit p 1 x.toNat) ∧ (u.count = 0) ∧ (s.targetAddr u.dpart u.lc u.level u.addr = some a)
    ∧ (s.lineOk u.dpart false a = true) ∧ (s.Settled (s.targetDie u) t) ∧ (s.Sound a 32) ∧ (h = { kind := 4, vc := 2, dest := u.src, src := s.pkgId * 8 + s.targetDie u, dpart := u.spart, spart := u.dpart, gen := u.gen, tag := u.tag, addr := u.addr, lmask := 1, last := 1, data := leNat (s.rdBytesAt t a 32) })
    ∧ (s.routeOf none h = .port q) :=
  ⟨wPort, 0, (wUnit { kind := 1, src := 8 }), 9, { kind := 1, src := 8 }, 0, 0, _, by decide +kernel, by unfold State.Delivers; decide +kernel, by unfold State.Serves; decide +kernel, by unfold State.NextUnit; decide +kernel, by decide +kernel, by decide +kernel, by decide +kernel, Or.inl (by decide +kernel), sound_of _ rfl _ _, rfl, by decide +kernel⟩

set_option maxRecDepth 100000 in
/-- Witness of `RequestUnitsAreServedAtTheirTarget`. -/
theorem test_requestUnitsAreServedAtTheirTarget_4 : ∃ (s : State) (p : Fin 12) (x : BitVec 2048) (u : FlowUnit) (item : _) (gr : _) (D : _), (u = FlowUnit.ofWire x.toNat)
    ∧ (s.Delivers p x.toNat) ∧ (s.Serves u) ∧ (s.NextUnit p 3 x.toNat) ∧ (s.groupOf u.dpart u.group = some gr) ∧ (u.lmask = 1) ∧ (D = s.combineDie gr item (u.addr / 32) (s.targetDie u)) :=
  ⟨({ wPort with groups := [⟨0, 1, [0, 1], 0, [0, 16], [0, 0]⟩] } : State), 0, (wUnit { kind := 3, src := 8, lmask := 1, group := 1 }), { kind := 3, src := 8, lmask := 1, group := 1 }, 0, ⟨0, 1, [0, 1], 0, [0, 16], [0, 0]⟩, (({ wPort with groups := [⟨0, 1, [0, 1], 0, [0, 16], [0, 0]⟩] } : State).combineDie (⟨0, 1, [0, 1], 0, [0, 16], [0, 0]⟩) 0 (({ kind := 3, src := 8, lmask := 1, group := 1 } : FlowUnit).addr / 32) (({ wPort with groups := [⟨0, 1, [0, 1], 0, [0, 16], [0, 0]⟩] } : State).targetDie ({ kind := 3, src := 8, lmask := 1, group := 1 } : FlowUnit))), by decide +kernel, by unfold State.Delivers; decide +kernel, by unfold State.Serves; decide +kernel, by unfold State.NextUnit; decide +kernel, by decide +kernel, by decide +kernel, rfl⟩

set_option maxRecDepth 100000 in
/-- Witness of `ResponsesEndTransactionsAndPoolsRelease`. -/
theorem test_responsesEndTransactionsAndPoolsRelease_0 : ∃ (s : State) (p : Fin 12) (x : BitVec 2048) (u : FlowUnit) (y : _), (u = FlowUnit.ofWire x.toNat)
    ∧ (s.Delivers p x.toNat) ∧ (s.txn u.tag = some y) ∧ (y.gen = u.gen) ∧ (s.NextUnit p 4 x.toNat) ∧ (y.head.kind = 1) :=
  ⟨({ wPort with txns := [(7, some ⟨0, 0, 0, 3, { kind := 1 }, 1, [], false⟩)] } : State), 0, (wUnit { kind := 4, vc := 2, src := 8, tag := 7, lmask := 1, last := 1 }), { kind := 4, vc := 2, src := 8, tag := 7, lmask := 1, last := 1 }, ⟨0, 0, 0, 3, { kind := 1 }, 1, [], false⟩, by decide +kernel, by unfold State.Delivers; decide +kernel, by decide +kernel, by decide +kernel, by unfold State.NextUnit; decide +kernel, by decide +kernel⟩

set_option maxRecDepth 100000 in
/-- Witness of `ResponsesEndTransactionsAndPoolsRelease`. -/
theorem test_responsesEndTransactionsAndPoolsRelease_1 : ∃ (s : State) (p : Fin 12) (x : BitVec 2048) (u : FlowUnit) (y : _), (u = FlowUnit.ofWire x.toNat)
    ∧ (s.Delivers p x.toNat) ∧ (s.txn u.tag = some y) ∧ (y.gen = u.gen) ∧ (s.NextUnit p 5 x.toNat) ∧ (y.head.kind ≠ 1) :=
  ⟨({ wPort with txns := [(7, some ⟨0, 0, 0, 3, {}, 1, [], true⟩)] } : State), 0, (wUnit { kind := 5, vc := 2, src := 8, tag := 7, last := 1 }), { kind := 5, vc := 2, src := 8, tag := 7, last := 1 }, ⟨0, 0, 0, 3, {}, 1, [], true⟩, by decide +kernel, by unfold State.Delivers; decide +kernel, by decide +kernel, by decide +kernel, by unfold State.NextUnit; decide +kernel, by decide +kernel⟩

set_option maxRecDepth 100000 in
/-- Witness of `ResponsesEndTransactionsAndPoolsRelease`. -/
theorem test_responsesEndTransactionsAndPoolsRelease_2 : ∃ (s : State) (p : Fin 12) (x : BitVec 2048) (u : FlowUnit) (y : _) (st : _), (u = FlowUnit.ofWire x.toNat)
    ∧ (s.Delivers p x.toNat) ∧ (s.txn u.tag = some y) ∧ (y.gen = u.gen) ∧ (s.NextUnit p 6 x.toNat) ∧ (u.tag ≠ 0xFFFF)
    ∧ (errorStop u.count = some st) ∧ (s.fencedJob y.part = false) ∧ ((s.part y.part).stop = none) :=
  ⟨({ wPort with txns := [(7, some ⟨0, 0, 0, 3, {}, 1, [], true⟩)] } : State), 0, (wUnit { kind := 6, vc := 2, src := 8, tag := 7, count := 3 }), { kind := 6, vc := 2, src := 8, tag := 7, count := 3 }, ⟨0, 0, 0, 3, {}, 1, [], true⟩, 0x51, by decide +kernel, by unfold State.Delivers; decide +kernel, by decide +kernel, by decide +kernel, by unfold State.NextUnit; decide +kernel, by decide +kernel, by decide +kernel, by decide +kernel, by decide +kernel⟩

set_option maxRecDepth 100000 in
/-- Witness of `ResponsesEndTransactionsAndPoolsRelease`. -/
theorem test_responsesEndTransactionsAndPoolsRelease_3 : ∃ (s : State) (p : Fin 12) (x : BitVec 2048) (u : FlowUnit), (u = FlowUnit.ofWire x.toNat)
    ∧ (s.Delivers p x.toNat) ∧ (s.txn u.tag = none) ∧ (s.NextUnit p 5 x.toNat) :=
  ⟨wPort, 0, (wUnit { kind := 5, vc := 2, src := 8, tag := 7 }), { kind := 5, vc := 2, src := 8, tag := 7 }, by decide +kernel, by unfold State.Delivers; decide +kernel, by decide +kernel, by unfold State.NextUnit; decide +kernel⟩

/-- Witness of `ResponsesEndTransactionsAndPoolsRelease`. -/
theorem test_responsesEndTransactionsAndPoolsRelease_4 : ∃ (s : State) (p : Fin 12) (v : Fin 4) (y : PoolUnit) (w : Nat), ((∀ z, z ∈ (s.port p).pool → z.unit.vc = v.val → z.passed = true))
    ∧ ((s.port p).pool.find? (fun z => z.unit.vc == v.val) = some y) ∧ (w ≠ v.val) ∧ ((s.port p).lentOf w = 0) ∧ ((s.port p).held w < 192)
    ∧ ((s.port p).grantOf w = ((s.port p).releasedOf w + 256) % 2 ^ 32) :=
  ⟨(wPort.setPort 0 { pool := [⟨{}, true, 0, 0, false⟩] }), 0, 0, ⟨{}, true, 0, 0, false⟩, 3, by decide +kernel, by decide +kernel, by decide +kernel, by decide +kernel, by decide +kernel, by decide +kernel⟩

/-- Witness of `TransactionsOpenFlushAndExpire`. -/
theorem test_transactionsOpenFlushAndExpire_2 : ∃ (s : State) (term : Fin 20) (f : Frame) (grp : Nat), ((s.modEnd (32 + term.val)).inQ = [(f, grp)])
    ∧ (f.gen = s.gen f.part) ∧ (f.remote = 1) ∧ (s.openTxn f = none) ∧ (s.fencedJob f.part = false) ∧ (s.peerEntry f.part f.peer = none)
    ∧ ((s.part f.part).stop = none) :=
  ⟨(wPort.setModEnd 32 { inQ := [({ remote := 1, lmask := 1 }, 0)] }), 0, { remote := 1, lmask := 1 }, 0, by decide +kernel, by decide +kernel, by decide +kernel, by decide +kernel, by decide +kernel, by decide +kernel, by decide +kernel⟩

set_option maxRecDepth 100000 in
/-- Witness of `TransactionsOpenFlushAndExpire`. -/
theorem test_transactionsOpenFlushAndExpire_3 : ∃ (s : State) (g : Fin 128) (pos : Nat) (n : Nat) (q : Nat) (dieTag : Nat) (dpart : Nat) (pkg : Nat) (off : Nat) (f : Flight) (h : FlowUnit), ((s.core g).flightAt pos = some f)
    ∧ (cardOp f.card = 3) ∧ (isSpread f.card = false) ∧ (descRemote (cardDesc f.card 0) = true) ∧ (0 < descRun (cardDesc f.card 0))
    ∧ (descRun (cardDesc f.card 0) ≤ 32) ∧ (f.tags.find? (fun x => x.2 == n) = some (dieTag, n)) ∧ (Tab.get (fun _ => 0) f.awaited n ≠ 0)
    ∧ (s.fencedJob (s.ownerN g) = false) ∧ (s.peerEntry (s.ownerN g) (descPeer (cardDesc f.card 0)) = some (dpart, pkg))
    ∧ (s.txnBlock (s.ownerN g) pkg = 0) ∧ (descLevel (cardDesc f.card 0) ≠ 2)
    ∧ (off = itemOffset (cardDesc f.card 0) (itemQ f.card 0 n (descEng (cardDesc f.card 0))) 0)
    ∧ ((∀ e, e ∈ s.txnList → e.2.head.kind = 1 → e.2.die ≠ g.val / 16))
    ∧ (h = { kind := 1, dest := pkg * 8, src := s.pkgId * 8 + g.val / 16, dpart := dpart, spart := s.ownerN g, gen := s.gen (s.ownerN g), lc := descLc (cardDesc f.card 0), level := descLevel (cardDesc f.card 0), addr := off, count := 0, last := 1, tag := s.freePkgTag })
    ∧ (s.routeOf none h = .port q) :=
  ⟨(wPeer.setCore 0 { seq := 1, flights := [{ card := num [(0, 3), (87, 0x20), (88, 32)], tags := [(9, 0)], awaited := [(0, 1)] }] }), 0, 0, 0, 0, 9, 0, 1, 0, { card := num [(0, 3), (87, 0x20), (88, 32)], tags := [(9, 0)], awaited := [(0, 1)] }, _, by decide +kernel, by decide +kernel, by decide +kernel, by decide +kernel, by decide +kernel, by decide +kernel, by decide +kernel, by decide +kernel, by decide +kernel, by decide +kernel, by decide +kernel, by decide +kernel, by decide +kernel, by decide +kernel, rfl, by decide +kernel⟩

set_option maxRecDepth 100000 in
/-- Witness of `TransactionsOpenFlushAndExpire`. -/
theorem test_transactionsOpenFlushAndExpire_4 : ∃ (s : State) (tag : Nat) (q : Nat) (a : Nat) (last : Bool) (x : Txn) (b : List Byte) (l : List (Nat × List Byte)) (h : FlowUnit), (s.txn tag = some x)
    ∧ (x.buf = (a, b) :: l)
    ∧ (h = { x.head with addr := a, lmask := 2 ^ x.buf.length - 1, last := if last then 1 else 0, data := leNat (x.buf.map (·.2)).flatten })
    ∧ (s.routeOf none h = .port q) :=
  ⟨({ wPort with txns := [(7, some ⟨0, 0, 0, 3, { dest := 8 }, 1, [(0, [1])], false⟩)] } : State), 7, 0, 0, true, ⟨0, 0, 0, 3, { dest := 8 }, 1, [(0, [1])], false⟩, [1], [], _, by decide +kernel, by decide +kernel, rfl, by decide +kernel⟩

/-- Witness of `TransactionsOpenFlushAndExpire`. -/
theorem test_transactionsOpenFlushAndExpire_5 : ∃ (s : State) (tag : Nat) (x : Txn), (s.txn tag = some x) ∧ ((s.part x.part).stop = none)
    ∧ (s.fencedJob x.part = false) :=
  ⟨({ wPort with txns := [(7, some ⟨0, 0, 0, 3, {}, 1, [], true⟩)] } : State), 7, ⟨0, 0, 0, 3, {}, 1, [], true⟩, by decide +kernel, by decide +kernel, by decide +kernel⟩

set_option maxRecDepth 100000 in
/-- Witness of `TransactionsOpenFlushAndExpire`. -/
theorem test_transactionsOpenFlushAndExpire_0 : ∃ (s : State) (term : Fin 20) (f : Frame) (grp : Nat) (dpart : _) (pkg : _), ((s.modEnd (32 + term.val)).inQ = [(f, grp)])
    ∧ (f.gen = s.gen f.part) ∧ (f.remote = 1) ∧ (s.openTxn f = none) ∧ (s.fencedJob f.part = false) ∧ (s.peerEntry f.part f.peer = some (dpart, pkg))
    ∧ (s.startBlock term f.part pkg = 0) ∧ (f.lmask = 1) ∧ (pkg < 2 ^ 12) :=
  ⟨(wPeer.setModEnd 32 { inQ := [({ remote := 1, lmask := 1 }, 0)] }), 0, { remote := 1, lmask := 1 }, 0, 0, 1, by decide +kernel, by decide +kernel, by decide +kernel, by decide +kernel, by decide +kernel, by decide +kernel, by decide +kernel, by decide +kernel, by decide +kernel⟩

set_option maxRecDepth 100000 in
/-- Witness of `TransactionsOpenFlushAndExpire`. -/
theorem test_transactionsOpenFlushAndExpire_1 : ∃ (s : State) (term : Fin 20) (f : Frame) (grp : Nat) (dpart : _) (pkg : _) (k : _) (a : _) (lo : _), ((s.modEnd (32 + term.val)).inQ = [(f, grp)])
    ∧ (f.gen = s.gen f.part) ∧ (f.remote = 1) ∧ (s.openTxn f = none) ∧ (s.fencedJob f.part = false) ∧ (s.peerEntry f.part f.peer = some (dpart, pkg))
    ∧ ((k, a, lo) ∈ [(1, Reg.tclTxnCount1, 32), (2, Reg.tclTxnCount0, 0), (3, Reg.tclTxnCount0, 32)]) ∧ (s.startBlock term f.part pkg = k)
    ∧ (Tab.get (fun _ => 0) s.txnWaits term ≠ k) :=
  ⟨((wPeer.w64 (Reg.topPartQuota 0) 0).setModEnd 32 { inQ := [({ remote := 1, lmask := 1 }, 0)] }), 0, { remote := 1, lmask := 1 }, 0, 0, 1, 1, Reg.tclTxnCount1, 32, by decide +kernel, by decide +kernel, by decide +kernel, by decide +kernel, by decide +kernel, by decide +kernel, by decide +kernel, by decide +kernel, by decide +kernel⟩

/-- Witness of `HostInterfaceStartsResetsAndLinks`. -/
theorem test_hostInterfaceStartsResetsAndLinks_0 : ∃ (s : State), (bitAt (s.r32 Reg.hstCtl) 0 = false) ∧ (s.host.resetting = false)
    ∧ (4 ≤ s.r64 Reg.hstAdminSq % 32) ∧ (s.r64 Reg.hstAdminSq % 32 ≤ 16) ∧ (4 ≤ s.r64 Reg.hstAdminCq % 32) ∧ (s.r64 Reg.hstAdminCq % 32 ≤ 16) :=
  ⟨(wNoon.w64 Reg.hstAdminSq 4).w64 Reg.hstAdminCq 16, by decide +kernel, by decide +kernel, by decide +kernel, by decide +kernel, by decide +kernel, by decide +kernel⟩

/-- Witness of `HostInterfaceStartsResetsAndLinks`. -/
theorem test_hostInterfaceStartsResetsAndLinks_1 : ∃ (s : State), (bitAt (s.r32 Reg.hstCtl) 0 = false) ∧ (s.host.resetting = false)
    ∧ (s.r64 Reg.hstAdminSq % 32 < 4 ∨ 16 < s.r64 Reg.hstAdminSq % 32 ∨ s.r64 Reg.hstAdminCq % 32 < 4 ∨ 16 < s.r64 Reg.hstAdminCq % 32) :=
  ⟨(wNoon.w64 Reg.hstAdminSq 4).w64 Reg.hstAdminCq 17, by decide +kernel, by decide +kernel, by decide +kernel⟩

/-- Witness of `HostInterfaceStartsResetsAndLinks`. -/
theorem test_hostInterfaceStartsResetsAndLinks_2 : ∃ (s : State), (bitAt (s.r32 Reg.hstCtl) 0 = true) :=
  ⟨(wNoon.w32 Reg.hstCtl 1), by decide +kernel⟩

/-- Witness of `HostInterfaceStartsResetsAndLinks`. -/
theorem test_hostInterfaceStartsResetsAndLinks_9 : ∃ (s : State), (s.host.perst = false) :=
  ⟨wNoon, by decide +kernel⟩

/-- Witness of `HostInterfaceStartsResetsAndLinks`. -/
theorem test_hostInterfaceStartsResetsAndLinks_10 : ∃ (s : State), (s.host.perst = true) :=
  ⟨({ wNoon with host := { perst := true } } : State), by decide +kernel⟩

/-- Witness of `HostInterfaceStartsResetsAndLinks`. -/
theorem test_hostInterfaceStartsResetsAndLinks_11 : ∃ (s : State), (s.host.resetting = true) ∧ (s.host.linkUp = true)
    ∧ (bitAt (s.r32 Reg.hstCtl) 0 = false) :=
  ⟨({ wNoon with host := {} } : State), by decide +kernel, by decide +kernel, by decide +kernel⟩

/-- Witness of `HostInterfaceStartsResetsAndLinks`. -/
theorem test_hostInterfaceStartsResetsAndLinks_12 : ∃ (s : State), (s.host.linkUp = true) ∧ (fld (s.r32 Reg.dawnStatus) 28 2 = 0)
    ∧ (4 ≤ fld (s.r32 Reg.dawnStatus) 24 4) :=
  ⟨(State.reset.sf32 Reg.dawnStatus 24 4 4), by decide +kernel, by decide +kernel, by decide +kernel⟩

/-- Witness of `HostInterfaceStartsResetsAndLinks`. -/
theorem test_hostInterfaceStartsResetsAndLinks_13 : ∃ (s : State), (s.host.linkUp = true) ∧ (fld (s.r32 Reg.dawnStatus) 28 2 = 1) :=
  ⟨wNoon, by decide +kernel, by decide +kernel⟩

/-- Witness of `NetworkWindowsAndRequests`. -/
theorem test_networkWindowsAndRequests_0 : ∃ (s : State) (d : Desc), (s.CanTell 0) ∧ (netAddressStatus d = 0) :=
  ⟨wNoon, (dsc [(9, 4), (10, 24), (11, 255), (16, 5)]), ⟨by decide +kernel, by decide +kernel, by decide +kernel, by decide +kernel⟩, by decide +kernel⟩

/-- Witness of `NetworkWindowsAndRequests`. -/
theorem test_networkWindowsAndRequests_1 : ∃ (s : State) (d : Desc), (s.CanTell 0) ∧ (netWindowStatus d s = 0) :=
  ⟨wNoon, (dsc [(36, 4096)]), ⟨by decide +kernel, by decide +kernel, by decide +kernel, by decide +kernel⟩, by decide +kernel⟩

/-- Witness of `NetworkWindowsAndRequests`. -/
theorem test_networkWindowsAndRequests_2 : ∃ (s : State) (d : Desc), (s.CanTell 0) ∧ (d.zero 12 64 = true)
    ∧ ((∃ w, w ∈ s.host.windows ∧ w.port = d.f 8 1 ∧ w.qpn = d.f 9 3)) :=
  ⟨({ wNoon with host := { wHostIf with windows := [⟨0, 3, 1, 0, 0, 4096, 5, 6⟩] } } : State), (dsc [(9, 5)]), ⟨by decide +kernel, by decide +kernel, by decide +kernel, by decide +kernel⟩, by decide +kernel, ⟨⟨0, 3, 1, 0, 0, 4096, 5, 6⟩, by decide +kernel, by decide +kernel, by decide +kernel⟩⟩

/-- Witness of `NetworkWindowsAndRequests`. -/
theorem test_networkWindowsAndRequests_3 : ∃ (s : State) (p : Fin 2) (qpn : Nat) (peer : Nat) (rkey : Nat) (off : Nat) (w : NetWindow) (data : List Byte), (s.netUp p = true)
    ∧ (s.rdmaWindow p qpn peer rkey off data.length 0 = some w) :=
  ⟨({ wNet with host := { wHostIf with windows := [⟨0, 3, 1, 0, 0, 4096, 5, 6⟩] } } : State), 0, 5, 1, 6, 4095, ⟨0, 3, 1, 0, 0, 4096, 5, 6⟩, [9], by decide +kernel, by decide +kernel⟩

/-- Witness of `NetworkWindowsAndRequests`. -/
theorem test_networkWindowsAndRequests_4 : ∃ (s : State) (p : Fin 2) (qpn : Nat) (peer : Nat) (rkey : Nat) (off : Nat) (data : List Byte), (s.netUp p = true)
    ∧ (s.rdmaWindow p qpn peer rkey off data.length 0 = none) :=
  ⟨({ wNet with host := { wHostIf with windows := [⟨0, 3, 1, 0, 0, 4096, 5, 6⟩] } } : State), 0, 5, 1, 6, 4096, [9], by decide +kernel, by decide +kernel⟩

/-- Witness of `NetworkWindowsAndRequests`. -/
theorem test_networkWindowsAndRequests_5 : ∃ (s : State) (p : Fin 2) (qpn : Nat) (peer : Nat) (rkey : Nat) (off : Nat) (len : Nat) (w : NetWindow), (s.netUp p = true)
    ∧ (s.rdmaWindow p qpn peer rkey off len 1 = some w) :=
  ⟨({ wNet with host := { wHostIf with windows := [⟨0, 3, 1, 0, 0, 4096, 5, 6⟩] } } : State), 0, 5, 1, 6, 4095, 1, ⟨0, 3, 1, 0, 0, 4096, 5, 6⟩, by decide +kernel, by decide +kernel⟩

/-- Witness of `NetworkWindowsAndRequests`. -/
theorem test_networkWindowsAndRequests_6 : ∃ (s : State) (p : Fin 2) (a : NetAddr), (s.netUp p = true)
    ∧ (Tab.get (fun _ => none) s.host.netAddrs (2 * p.val) = some a) :=
  ⟨({ wNet with host := { wHostIf with netAddrs := [(0, some ⟨24, 255, 0, 5⟩)] } } : State), 0, ⟨24, 255, 0, 5⟩, by decide +kernel, by decide +kernel⟩

/-- Witness of `NetworkWindowsAndRequests`. -/
theorem test_networkWindowsAndRequests_7 : ∃ (s : State) (p : Fin 2) (a : NetAddr), (s.netUp p = true)
    ∧ (Tab.get (fun _ => none) s.host.netAddrs (2 * p.val + 1) = some a) :=
  ⟨({ wNet with host := { wHostIf with netAddrs := [(1, some ⟨64, 255, 0, 5⟩)] } } : State), 0, ⟨64, 255, 0, 5⟩, by decide +kernel, by decide +kernel⟩

/-- Witness of `NetworkWindowsAndRequests`. -/
theorem test_networkWindowsAndRequests_8 : ∃ (s : State) (p : Fin 2) (a : NetAddr) (six : Bool), (s.netUp p = true)
    ∧ (Tab.get (fun _ => none) s.host.netAddrs (2 * p.val + (if six then 1 else 0)) = some a) :=
  ⟨({ wNet with host := { wHostIf with netAddrs := [(1, some ⟨64, 255, 0, 5⟩)] } } : State), 0, ⟨64, 255, 0, 5⟩, true, by decide +kernel, by decide +kernel⟩

/-- Witness of `NetworkWindowsAndRequests`. -/
theorem test_networkWindowsAndRequests_9 : ∃ (s : State) (p : Fin 2) (a : NetAddr) (x : _), (s.netUp p = true)
    ∧ (Tab.get (fun _ => none) s.host.netAddrs (2 * p.val) = some a) ∧ (x ≠ a.address) :=
  ⟨({ wNet with host := { wHostIf with netAddrs := [(0, some ⟨24, 255, 0, 5⟩)] } } : State), 0, ⟨24, 255, 0, 5⟩, 6, by decide +kernel, by decide +kernel, by decide +kernel⟩

/-- Witness of `NetworkWindowsAndRequests`. -/
theorem test_networkWindowsAndRequests_10 : ∃ (s : State) (p : Fin 2), (s.netUp p = true) :=
  ⟨wNet, 0, by decide +kernel⟩

/-- Witness of `TestPortSelectsReadsAndDrivesPins`. -/
theorem test_testPortSelectsReadsAndDrivesPins_4 : ∃ (s : State), (s.power.pinned = none) ∧ (s.jtag.index < 1024) :=
  ⟨wNoon, by decide +kernel, by decide +kernel⟩

/-- Witness of `TestPortSelectsReadsAndDrivesPins`. -/
theorem test_testPortSelectsReadsAndDrivesPins_5 : ∃ (s : State) (k : Nat) (x : DawnIn) (i : _), (s.power.pinned = some (k, x)) ∧ (k < 2)
    ∧ (i ∈ [Instr.jtagBypass, .idcode, .trstN]) ∧ (s.jtag.ir = 3) :=
  ⟨({ wMidnight with power := { pinned := some (1, wDawn) }, jtag := { ir := 3 } } : State), 1, wDawn, Instr.trstN, by decide +kernel, by decide +kernel, by decide +kernel, by decide +kernel⟩

/-- Witness of `TestPortSelectsReadsAndDrivesPins`. -/
theorem test_testPortSelectsReadsAndDrivesPins_7 : ∃ (s : State) (levels : BitVec 1212) (cells : BitVec 1212) (i : _) (op : _), (s.power.pinned = none) ∧ (s.alarmState = 2 ∨ fld (s.r32 Reg.dawnStatus) 28 2 = 2 ∨ s.power.porLow = true)
    ∧ ((i, op) ∈ [(Instr.extest levels cells, 3), (.extestPulse levels cells, 6), (.extestTrain levels cells, 7)]) :=
  ⟨wMidnight, 1, 1, (Instr.extest 1 1), 3, by decide +kernel, by decide +kernel, by decide +kernel⟩

/-- Witness of `TestPortSelectsReadsAndDrivesPins`. -/
theorem test_testPortSelectsReadsAndDrivesPins_8 : ∃ (s : State) (i : _) (op : _), (s.power.pinned = none) ∧ (s.alarmState = 2 ∨ fld (s.r32 Reg.dawnStatus) 28 2 = 2 ∨ s.power.porLow = true)
    ∧ ((i, op) ∈ [(Instr.clamp, 4), (.highz, 5)]) :=
  ⟨(wNoon.sf32 Reg.dawnStatus 28 2 2), Instr.clamp, 4, by decide +kernel, by decide +kernel, by decide +kernel⟩

/-- Witness of `TestPortSelectsReadsAndDrivesPins`. -/
theorem test_testPortSelectsReadsAndDrivesPins_9 : ∃ (s : State) (levels : BitVec 1212) (cells : BitVec 1212) (i : _), (s.power.pinned = none) ∧ (s.alarmState ≠ 2)
    ∧ (fld (s.r32 Reg.dawnStatus) 28 2 ≠ 2) ∧ (s.power.porLow = false)
    ∧ (i ∈ [Instr.extest levels cells, .extestPulse levels cells, .extestTrain levels cells, .clamp, .highz]) :=
  ⟨wNoon, 1, 1, (Instr.extest 1 1), by decide +kernel, by decide +kernel, by decide +kernel, by decide +kernel, by decide +kernel⟩

/-- Witness of `TestPortSelectsReadsAndDrivesPins`. -/
theorem test_testPortSelectsReadsAndDrivesPins_10 : ∃ (s : State) (i : _), (s.sec.shadow.prodLock = true) ∧ (s.power.pinned = none)
    ∧ (i ∈ [Instr.scanIod, .scanCd, .fuseProd]) :=
  ⟨wNoon, Instr.fuseProd, by decide +kernel, by decide +kernel, by decide +kernel⟩

/-- Witness of `DebugGrantsAccessesAndBist`. -/
theorem test_debugGrantsAccessesAndBist_0 : ∃ (s : State), (s.debugLock < 2) ∧ (s.power.pinned = none) ∧ (s.grantFails ≠ 3) :=
  ⟨wNoon, by decide +kernel, by decide +kernel, by decide +kernel⟩

/-- Witness of `DebugGrantsAccessesAndBist`. -/
theorem test_debugGrantsAccessesAndBist_1 : ∃ (s : State) (bytes : _), (s.debugLock < 2) ∧ (s.power.pinned = none) ∧ (s.debugLock = 1) ∧ (s.grantFails < 3)
    ∧ (s.sec.granting = false) ∧ (s.responseOk bytes = false) :=
  ⟨wNoon, [], by decide +kernel, by decide +kernel, by decide +kernel, by decide +kernel, by decide +kernel, by decide +kernel⟩

/-- Witness of `DebugGrantsAccessesAndBist`, but for what an open constant of Config answers. -/
theorem test_debugGrantsAccessesAndBist_2 : ∃ (s : State), (s.debugLock < 2) ∧ (s.power.pinned = none) ∧ (s.debugLock = 1) ∧ (s.grantFails < 3) ∧ (s.sec.granting = false) :=
  ⟨wNoon, by decide +kernel, by decide +kernel, by decide +kernel, by decide +kernel, by decide +kernel⟩

/-- Witness of `DebugGrantsAccessesAndBist`. -/
theorem test_debugGrantsAccessesAndBist_3 : ∃ (s : State) (x : BitVec 108), (s.debugOpen = true) ∧ (s.jtag.access = none) ∧ (s.power.pinned = none)
    ∧ (fld x.toNat 106 2 = 1 ∨ fld x.toNat 106 2 = 2) :=
  ⟨wOpen, (2 ^ 106), by decide +kernel, by decide +kernel, by decide +kernel, by decide +kernel⟩

/-- Witness of `DebugGrantsAccessesAndBist`. -/
theorem test_debugGrantsAccessesAndBist_4 : ∃ (s : State) (a : Nat) (data : Nat) (w : Bool), (s.jtag.access = some (a, w, data))
    ∧ (s.accessBad a w = true) :=
  ⟨({ wNoon with jtag := { access := some (4, true, 5) } } : State), 4, 5, true, by decide +kernel, by decide +kernel⟩

/-- Witness of `DebugGrantsAccessesAndBist`. -/
theorem test_debugGrantsAccessesAndBist_7 : ∃ (s : State) (x : BitVec 16), (s.debugOpen = true) ∧ (s.jtag.running = none) ∧ (s.power.pinned = none) ∧ (fld x.toNat 0 4 < 8)
    ∧ (fld x.toNat 4 2 ≤ 1) ∧ (bitAt x.toNat 6 = true) ∧ (s.dieHeld (fld x.toNat 0 4) = false) ∧ (s.dieDark (fld x.toNat 0 4) = false) :=
  ⟨wOpen, (2 ^ 6 + 2 ^ 4 + 7), by decide +kernel, by decide +kernel, by decide +kernel, by decide +kernel, by decide +kernel, by decide +kernel, by decide +kernel, by decide +kernel⟩

/-- Witness of `DebugGrantsAccessesAndBist`. -/
theorem test_debugGrantsAccessesAndBist_8 : ∃ (s : State) (x : BitVec 16), (s.debugOpen = true) ∧ (s.jtag.running = none) ∧ (s.power.pinned = none) ∧ (fld x.toNat 0 4 < 8)
    ∧ (fld x.toNat 4 2 ≤ 1) ∧ (bitAt x.toNat 6 = true) ∧ (s.dieHeld (fld x.toNat 0 4) = true) :=
  ⟨(wRun.set32 Reg.jtagStatus 3), (2 ^ 6 + 2 ^ 4), by decide +kernel, by decide +kernel, by decide +kernel, by decide +kernel, by decide +kernel, by decide +kernel, by decide +kernel⟩

/-- Witness of `DebugGrantsAccessesAndBist`. -/
theorem test_debugGrantsAccessesAndBist_9 : ∃ (s : State) (d : Nat) (kind : Nat), (s.jtag.running = some (d, kind)) ∧ (d < 8) :=
  ⟨({ wNoon with jtag := { running := some (7, 1) } } : State), 7, 1, by decide +kernel, by decide +kernel⟩

/-- Witness of `DebugGrantsAccessesAndBist`. -/
theorem test_debugGrantsAccessesAndBist_10 : ∃ (s : State) (bytes : List Byte) (x : BitVec 108) (y : BitVec 16) (i : _), (s.debugLock = 2 ∨ s.debugLock = 3) ∧ (s.power.pinned = none)
    ∧ (i ∈ [Instr.debugChallenge, .debugResponse bytes, .jtagAccess x, .dieBist y]) :=
  ⟨({ wNoon with sec := { shadow := { debugLock := 2 } } } : State), [], 0, 0, Instr.debugChallenge, by decide +kernel, by decide +kernel, by decide +kernel⟩

set_option maxRecDepth 100000 in
/-- Witness of `DebugGrantsAccessesAndBist`. -/
theorem test_debugGrantsAccessesAndBist_5 : ∃ (s : State) (a : Nat) (data : Nat) (t : Nat) (w : Bool) (b : _), (s.jtag.access = some (a, w, data))
    ∧ (s.accessBad a w = false) ∧ (place a = .memory b) ∧ (addrDie a ≠ 14) ∧ (w = true) ∧ (addrDie a < 8 → s.Still (s.landStamp (addrDie a) t) a 8) :=
  ⟨({ wOpen with jtag := { access := some (8, true, 5) } } : State), 8, 5, 9, true, 8, by decide +kernel, by decide +kernel, by decide +kernel, by decide +kernel, by decide +kernel, fun _ => still_of _ rfl _ _ _⟩

set_option maxRecDepth 100000 in
/-- Witness of `DebugGrantsAccessesAndBist`. -/
theorem test_debugGrantsAccessesAndBist_6 : ∃ (s : State) (a : Nat) (data : Nat) (t : Nat) (w : Bool) (b : _), (s.jtag.access = some (a, w, data))
    ∧ (s.accessBad a w = false) ∧ (place a = .memory b) ∧ (addrDie a ≠ 14) ∧ (w = false) ∧ (s.Sound a 8) ∧ (addrDie a < 8 → s.Settled (addrDie a) t) :=
  ⟨({ wOpen with jtag := { access := some (8, false, 5) } } : State), 8, 5, 9, false, 8, by decide +kernel, by decide +kernel, by decide +kernel, by decide +kernel, by decide +kernel, sound_of _ rfl _ _, fun _ => Or.inl (by decide +kernel)⟩

/-- Witness of `TenantSwitchAttestLogAndFuses`. -/
theorem test_tenantSwitchAttestLogAndFuses_0 : ∃ (s : State) (d : Desc), (d.zero 8 64 = true) ∧ (s.inNoon = true)
    ∧ ((∀ n, n < 64 → s.pstate n ≠ 3)) ∧ (s.anyLoad = false) ∧ (s.power.dusk = none) :=
  ⟨wNoon, (dsc [(0, 16)]), by decide +kernel, by decide +kernel, by decide +kernel, by decide +kernel, by decide +kernel⟩

/-- Witness of `TenantSwitchAttestLogAndFuses`. -/
theorem test_tenantSwitchAttestLogAndFuses_1 : ∃ (s : State) (d : Desc) (data : List Byte), (d.zero 20 64 = true) ∧ (s.CanTell 0)
    ∧ (data = s.snapBlocks measureIndices ++ (s.sec.snap.adapters.map (fun x => x.2.2)).flatten) ∧ (data.length ≤ d.f 16 4) :=
  ⟨wNoon, (dsc [(16, 65536)]), _, by decide +kernel, ⟨by decide +kernel, by decide +kernel, by decide +kernel, by decide +kernel⟩, rfl, by decide +kernel⟩

/-- Witness of `TenantSwitchAttestLogAndFuses`. -/
theorem test_tenantSwitchAttestLogAndFuses_2 : ∃ (s : State) (d : Desc) (data : List Byte), (d.zero 20 64 = true) ∧ (s.CanTell 0)
    ∧ (data = s.snapBlocks measureIndices ++ (s.sec.snap.adapters.map (fun x => x.2.2)).flatten) ∧ (d.f 16 4 < data.length) :=
  ⟨wNoon, (dsc []), _, by decide +kernel, ⟨by decide +kernel, by decide +kernel, by decide +kernel, by decide +kernel⟩, rfl, by decide +kernel⟩

/-- Witness of `TenantSwitchAttestLogAndFuses`. -/
theorem test_tenantSwitchAttestLogAndFuses_3 : ∃ (s : State), (s.CanTell 0) ∧ (s.sec.fuses.protLock = true) :=
  ⟨({ wNoon with sec := { fuses := { protLock := true } } } : State), ⟨by decide +kernel, by decide +kernel, by decide +kernel, by decide +kernel⟩, by decide +kernel⟩

/-- Witness of `TenantSwitchAttestLogAndFuses`. -/
theorem test_tenantSwitchAttestLogAndFuses_4 : ∃ (s : State) (d : Desc), (s.CanTell 0) ∧ (s.sec.fuses.protLock = false)
    ∧ ((∀ n, n < 64 → s.pstate n ≠ 3)) ∧ (s.sec.writing = none) ∧ (d.zero 9 16 = true) ∧ (d.f 8 1 < 8)
    ∧ (d.f 16 48 < 2 ^ (s.sec.fuses.field (d.f 8 1)).2) ∧ (Nat.land (d.f 16 48) (s.sec.fuses.field (d.f 8 1)).1 = (s.sec.fuses.field (d.f 8 1)).1)
    ∧ ((3 ≤ d.f 8 1 → d.f 8 1 ≤ 6 → (s.sec.fuses.field (d.f 8 1)).1 = 0 ∨ d.f 16 48 = (s.sec.fuses.field (d.f 8 1)).1)) :=
  ⟨wNoon, (dsc [(8, 1), (16, 3)]), ⟨by decide +kernel, by decide +kernel, by decide +kernel, by decide +kernel⟩, by decide +kernel, by decide +kernel, by decide +kernel, by decide +kernel, by decide +kernel, by decide +kernel, by decide +kernel, by decide +kernel⟩

set_option maxRecDepth 100000 in
/-- Witness of `TenantSwitchAttestLogAndFuses`. -/
theorem test_tenantSwitchAttestLogAndFuses_5 : ∃ (s : State) (d : Desc) (w : _) (ws : _), (s.CanTell 0) ∧ (s.sec.fuses.protLock = false)
    ∧ (∀ n, n < 64 → s.pstate n ≠ 3) ∧ (s.sec.writing = none) ∧ (d.zero 9 16 = true) ∧ (d.f 8 1 < 8) ∧ (d.f 16 48 < 2 ^ (s.sec.fuses.field (d.f 8 1)).2)
    ∧ (Nat.land (d.f 16 48) (s.sec.fuses.field (d.f 8 1)).1 = (s.sec.fuses.field (d.f 8 1)).1) ∧ (3 ≤ d.f 8 1 → d.f 8 1 ≤ 6 → (s.sec.fuses.field (d.f 8 1)).1 = 0 ∨ d.f 16 48 = (s.sec.fuses.field (d.f 8 1)).1)
    ∧ (s.sec.fuses.wordsOf (d.f 8 1) (d.f 16 48) = w :: ws) :=
  ⟨wNoon, (dsc [(8, 1), (16, 3)]), (FuseWord.field 1 0 3), [], ⟨by decide +kernel, by decide +kernel, by decide +kernel, by decide +kernel⟩, by decide +kernel, by decide +kernel, by decide +kernel, by decide +kernel, by decide +kernel, by decide +kernel, by decide +kernel, by decide +kernel, by decide +kernel⟩

/-- Witness of `TheResponderNegotiatesAndReports`. -/
theorem test_theResponderNegotiatesAndReports_0 : ∃ (s : State), (bitAt (s.r32 Reg.secStatus) 0 = true) ∧ ((s.inNoon = true ∨ s.inTwilight = true)) :=
  ⟨(wNoon.set32 Reg.secStatus 0), by decide +kernel, by decide +kernel⟩

set_option maxRecDepth 100000 in
/-- Witness of `TheResponderNegotiatesAndReports`. -/
theorem test_theResponderNegotiatesAndReports_1 : ∃ (s : State), (bitAt (s.r32 Reg.secStatus) 0 = true)
    ∧ ((s.inNoon = true ∨ s.inTwilight = true)) ∧ (s.sec.version = true) :=
  ⟨wSpdm, by decide +kernel, by decide +kernel, by decide +kernel⟩

set_option maxRecDepth 100000 in
/-- Witness of `TheResponderNegotiatesAndReports`. -/
theorem test_theResponderNegotiatesAndReports_2 : ∃ (s : State), (bitAt (s.r32 Reg.secStatus) 0 = true)
    ∧ ((s.inNoon = true ∨ s.inTwilight = true)) ∧ (s.sec.version = true) ∧ (s.sec.caps = true) :=
  ⟨wSpdm, by decide +kernel, by decide +kernel, by decide +kernel, by decide +kernel⟩

set_option maxRecDepth 100000 in
/-- Witness of `TheResponderNegotiatesAndReports`. -/
theorem test_theResponderNegotiatesAndReports_4 : ∃ (s : State), (s.SpdmOpen) :=
  ⟨wSpdm, by unfold State.SpdmOpen; decide +kernel⟩

set_option maxRecDepth 100000 in
/-- Witness of `TheResponderNegotiatesAndReports`, but for what an open constant of Config answers. -/
theorem test_theResponderNegotiatesAndReports_5 : ∃ (s : State), (s.SpdmKeys) :=
  ⟨wSpdm, by unfold State.SpdmKeys State.SpdmOpen; decide +kernel⟩

set_option maxRecDepth 100000 in
/-- Witness of `TheResponderNegotiatesAndReports`. -/
theorem test_theResponderNegotiatesAndReports_6 : ∃ (s : State), (s.SpdmKeys) :=
  ⟨wSpdm, by unfold State.SpdmKeys State.SpdmOpen; decide +kernel⟩

set_option maxRecDepth 100000 in
/-- Witness of `TheResponderNegotiatesAndReports`. -/
theorem test_theResponderNegotiatesAndReports_9 : ∃ (s : State) (i : BitVec 8), (s.SpdmKeys) ∧ (i.toNat ∈ measureIndices) :=
  ⟨wSpdm, 5, by unfold State.SpdmKeys State.SpdmOpen; decide +kernel, by decide +kernel⟩

set_option maxRecDepth 100000 in
/-- Witness of `TheResponderNegotiatesAndReports`. -/
theorem test_theResponderNegotiatesAndReports_10 : ∃ (s : State) (i : BitVec 8), (s.SpdmKeys) ∧ (i ≠ 0) ∧ (i ≠ 255) ∧ (i.toNat ∉ measureIndices) :=
  ⟨wSpdm, 200, by unfold State.SpdmKeys State.SpdmOpen; decide +kernel, by decide +kernel, by decide +kernel, by decide +kernel⟩

set_option maxRecDepth 100000 in
/-- Witness of `TheResponderNegotiatesAndReports`. -/
theorem test_theResponderNegotiatesAndReports_11 : ∃ (s : State) (slot : Fin 16) (off : BitVec 16) (len : BitVec 16) (index : BitVec 8) (b : Bool) (c : BitVec 64) (i : Instr), (s.SpdmOpen)
    ∧ (s.sec.fuses.udsKill = true) ∧ (i = .getCertificate slot off len ∨ i = .spdmChallenge slot b c ∨ i = .getMeasurements index b c) :=
  ⟨({ wSpdm with sec := { wSpdm.sec with fuses := { udsKill := true } } } : State), 0, 0, 0, 0, true, 0, (Instr.getCertificate 0 0 0), by unfold State.SpdmOpen; decide +kernel, by decide +kernel, by decide +kernel⟩

set_option maxRecDepth 100000 in
/-- Witness of `SessionsOpenLiveAndEnd`. -/
theorem test_sessionsOpenLiveAndEnd_0 : ∃ (s : State), (s.SpdmKeys) ∧ (s.sec.sessions.length < 4) :=
  ⟨wSpdm, by unfold State.SpdmKeys State.SpdmOpen; decide +kernel, by decide +kernel⟩

set_option maxRecDepth 100000 in
/-- Witness of `SessionsOpenLiveAndEnd`. -/
theorem test_sessionsOpenLiveAndEnd_1 : ∃ (s : State), (s.SpdmKeys) ∧ (4 ≤ s.sec.sessions.length) :=
  ⟨({ wSpdm with sec := { wSpdm.sec with sessions := [⟨1, true⟩, ⟨2, true⟩, ⟨3, true⟩, ⟨4, false⟩] } } : State), by unfold State.SpdmKeys State.SpdmOpen; decide +kernel, by decide +kernel⟩

set_option maxRecDepth 100000 in
/-- Witness of `SessionsOpenLiveAndEnd`. -/
theorem test_sessionsOpenLiveAndEnd_2 : ∃ (s : State) (id : BitVec 32), (s.spdmUp = true)
    ∧ ((∃ x, x ∈ s.sec.sessions ∧ x.id = id.toNat ∧ x.finished = false)) :=
  ⟨({ wSpdm with sec := { wSpdm.sec with sessions := [⟨4, false⟩] } } : State), 4, by decide +kernel, ⟨⟨4, false⟩, by decide +kernel, by decide +kernel, by decide +kernel⟩⟩

set_option maxRecDepth 100000 in
/-- Witness of `SessionsOpenLiveAndEnd`. -/
theorem test_sessionsOpenLiveAndEnd_4 : ∃ (s : State) (id : BitVec 32), (s.spdmUp = true)
    ∧ ((∃ x, x ∈ s.sec.sessions ∧ x.id = id.toNat ∧ x.finished = true)) :=
  ⟨({ wSpdm with sec := { wSpdm.sec with sessions := [⟨4, true⟩] } } : State), 4, by decide +kernel, ⟨⟨4, true⟩, by decide +kernel, by decide +kernel, by decide +kernel⟩⟩

set_option maxRecDepth 100000 in
/-- Witness of `SessionsOpenLiveAndEnd`. -/
theorem test_sessionsOpenLiveAndEnd_6 : ∃ (s : State) (id : BitVec 32) (op : BitVec 8), (s.spdmUp = true)
    ∧ ((∃ x, x ∈ s.sec.sessions ∧ x.id = id.toNat ∧ x.finished = true)) ∧ (1 ≤ op.toNat) ∧ (op.toNat ≤ 3) :=
  ⟨({ wSpdm with sec := { wSpdm.sec with sessions := [⟨4, true⟩] } } : State), 4, 1, by decide +kernel, ⟨⟨4, true⟩, by decide +kernel, by decide +kernel, by decide +kernel⟩, by decide +kernel, by decide +kernel⟩

/-- Witness of `IntervalsCloseAndRecordsAreSealed`. -/
theorem test_intervalsCloseAndRecordsAreSealed_0 : ∃ (s : State), (s.meter.powered = false) :=
  ⟨State.reset, by decide +kernel⟩

/-- Witness of `IntervalsCloseAndRecordsAreSealed`. -/
theorem test_intervalsCloseAndRecordsAreSealed_2 : ∃ (s : State) (own : Bool) (tick : Nat), (s.meter.powered = true) ∧ (s.meter.Counts)
    ∧ (tick < 2 ^ 64) ∧ (bitAt (s.r32 Reg.muStatus) 4 ≠ own) :=
  ⟨({ wNoon with meter := { powered := true } } : State), true, 9, by decide +kernel, by unfold Meter.Counts; decide +kernel, by decide +kernel, by decide +kernel⟩

/-- Witness of `IntervalsCloseAndRecordsAreSealed`. -/
theorem test_intervalsCloseAndRecordsAreSealed_3 : ∃ (s : State) (tick : Nat), (s.meter.powered = true) ∧ (s.meter.Counts) ∧ (tick < 2 ^ 64)
    ∧ ((∀ c, c ∈ s.meter.closed → c.waiting = [])) ∧ (s.inNoon = true) :=
  ⟨({ wNoon with meter := { powered := true } } : State), 9, by decide +kernel, by unfold Meter.Counts; decide +kernel, by decide +kernel, by decide +kernel, by decide +kernel⟩

/-- Witness of `IntervalsCloseAndRecordsAreSealed`. -/
theorem test_intervalsCloseAndRecordsAreSealed_4 : ∃ (s : State) (tick : Nat), (s.meter.powered = true) ∧ (s.meter.Counts) ∧ (tick < 2 ^ 64)
    ∧ ((∀ c, c ∈ s.meter.closed → c.waiting = [])) ∧ (s.inNoon = false) :=
  ⟨({ wTwilight with meter := { powered := true } } : State), 9, by decide +kernel, by unfold Meter.Counts; decide +kernel, by decide +kernel, by decide +kernel, by decide +kernel⟩

/-- Witness of `IntervalsCloseAndRecordsAreSealed`. -/
theorem test_intervalsCloseAndRecordsAreSealed_5 : ∃ (s : State) (tick : Nat), (s.meter.powered = true) ∧ (s.meter.Counts) ∧ (tick < 2 ^ 64)
    ∧ ((∀ c, c ∈ s.meter.closed → c.waiting = [])) ∧ (s.meter.due = true) :=
  ⟨({ wNoon with meter := { powered := true, due := true } } : State), 9, by decide +kernel, by unfold Meter.Counts; decide +kernel, by decide +kernel, by decide +kernel, by decide +kernel⟩

/-- Witness of `IntervalsCloseAndRecordsAreSealed`. -/
theorem test_intervalsCloseAndRecordsAreSealed_6 : ∃ (s : State) (c : Closed) (rest : List Closed), (s.meter.powered = true)
    ∧ (s.meter.closed = c :: rest) ∧ (c.waiting = []) ∧ (s.meter.lost = 0) ∧ (s.host.events.length < 4096) ∧ (c.number < 2 ^ 64) :=
  ⟨({ wNoon with meter := { powered := true, closed := [⟨0, 0, 1, 0, 9, 0, 0, [], [], []⟩] } } : State), ⟨0, 0, 1, 0, 9, 0, 0, [], [], []⟩, [], by decide +kernel, by decide +kernel, by decide +kernel, by decide +kernel, by decide +kernel, by decide +kernel⟩

/-- Witness of `TheMeterAnswersItsDescriptors`. -/
theorem test_theMeterAnswersItsDescriptors_0 : ∃ (s : State) (d : Desc) (rs : _), (s.CanTell 0) ∧ (d.zero 26 28 = true) ∧ (d.zero 32 64 = true)
    ∧ (1 ≤ d.f 24 2) ∧ (d.f 24 2 ≤ 64) ∧ (rs = (s.meter.records.filter (fun r => decide (d.f 16 8 ≤ r.number))).take (d.f 24 2)) :=
  ⟨({ wNoon with meter := { records := [⟨7, 5, false⟩] } } : State), (dsc [(24, 64), (28, 1024)]), _, ⟨by decide +kernel, by decide +kernel, by decide +kernel, by decide +kernel⟩, by decide +kernel, by decide +kernel, by decide +kernel, by decide +kernel, rfl⟩

/-- Witness of `TheMeterAnswersItsDescriptors`. -/
theorem test_theMeterAnswersItsDescriptors_1 : ∃ (s : State) (d : Desc) (es : _), (s.CanTell 0) ∧ (d.zero 26 28 = true) ∧ (d.zero 32 64 = true)
    ∧ (1 ≤ d.f 24 2) ∧ (d.f 24 2 ≤ 1024) ∧ (es = (s.meter.audit.filter (fun e => decide (d.f 16 8 ≤ e.1))).take (d.f 24 2)) :=
  ⟨({ wNoon with meter := { audit := [(7, 5)] } } : State), (dsc [(24, 1024), (28, 32)]), _, ⟨by decide +kernel, by decide +kernel, by decide +kernel, by decide +kernel⟩, by decide +kernel, by decide +kernel, by decide +kernel, by decide +kernel, rfl⟩

/-- Witness of `TheMeterAnswersItsDescriptors`. -/
theorem test_theMeterAnswersItsDescriptors_2 : ∃ (s : State) (d : Desc), (s.CanTell 0) ∧ (d.zero 16 28 = true) ∧ (d.zero 32 64 = true) :=
  ⟨wNoon, (dsc [(8, 4096), (28, 1024)]), ⟨by decide +kernel, by decide +kernel, by decide +kernel, by decide +kernel⟩, by decide +kernel, by decide +kernel⟩

/-- Witness of `TheMeterAnswersItsDescriptors`. -/
theorem test_theMeterAnswersItsDescriptors_3 : ∃ (s : State) (d : Desc), (s.CanTell 0) ∧ (d.zero 16 28 = true) ∧ (d.zero 32 64 = true) :=
  ⟨wNoon, (dsc [(8, 4096), (28, 1024)]), ⟨by decide +kernel, by decide +kernel, by decide +kernel, by decide +kernel⟩, by decide +kernel, by decide +kernel⟩

/-- Witness of `ErrorsAreCorrectedPoisonedAndRecorded`. -/
theorem test_errorsAreCorrectedPoisonedAndRecorded_5_w : ∃ (s : State) (r : Repair), (r ∈ s.loader.repairs)
    ∧ ((∀ x, x ∈ s.loader.repairs → x.id = r.id → x = r)) ∧ (r.since + 4096 ≤ s.hourCount) :=
  ⟨({ wNoon.w64 Reg.topHourCount 4096 with loader := { repairs := [⟨3, 1, 0, 0, true⟩] } } : State), ⟨3, 1, 0, 0, true⟩, by decide +kernel, by decide +kernel, by decide +kernel⟩

/-- Witness of `ErrorsAreCorrectedPoisonedAndRecorded`. -/
theorem test_errorsAreCorrectedPoisonedAndRecorded_8 : ∃ (s : State), (s.sec.writing = some none) :=
  ⟨({ wNoon with sec := { writing := some none } } : State), by decide +kernel⟩

/-- Witness of `ErrorsAreCorrectedPoisonedAndRecorded`. -/
theorem test_errorsAreCorrectedPoisonedAndRecorded_9_w : ∃ (s : State) (d : Desc), (s.sec.writing = some (some d.cmdId)) ∧ (s.CanTell 0) :=
  ⟨({ wNoon with sec := { writing := some (some 7) } } : State), (dsc [(4, 7)]), by decide +kernel, ⟨by decide +kernel, by decide +kernel, by decide +kernel, by decide +kernel⟩⟩

set_option maxRecDepth 100000 in
/-- Witness of `ErrorsAreCorrectedPoisonedAndRecorded`. -/
theorem test_errorsAreCorrectedPoisonedAndRecorded_0 : ∃ (d : Fin 8) (off : BitVec 32) (a : Nat), (a = d.val * 2 ^ 36 + off.toNat / 32 * 32) :=
  ⟨7, 0xFFFFFFFF, ((7 : Fin 8).val * 2 ^ 36 + (0xFFFFFFFF : BitVec 32).toNat / 32 * 32), rfl⟩

set_option maxRecDepth 100000 in
/-- Witness of `ErrorsAreCorrectedPoisonedAndRecorded`. -/
theorem test_errorsAreCorrectedPoisonedAndRecorded_1 : ∃ (s : State) (d : Fin 8) (off : BitVec 32) (n : Nat) (a : Nat), (a = d.val * 2 ^ 36 + off.toNat / 32 * 32)
    ∧ (s.Sound a (32 * n)) :=
  ⟨wNoon, 2, 96, 2, ((2 : Fin 8).val * 2 ^ 36 + (96 : BitVec 32).toNat / 32 * 32), rfl, sound_of _ rfl _ _⟩

set_option maxRecDepth 100000 in
/-- Witness of `ErrorsAreCorrectedPoisonedAndRecorded`. -/
theorem test_errorsAreCorrectedPoisonedAndRecorded_2 : ∃ (s : State) (d : Fin 8) (off : BitVec 32) (n : Nat) (a : Nat) (w : BitVec 37), (a = d.val * 2 ^ 36 + off.toNat / 32 * 32)
    ∧ (s.soft = []) ∧ (s.poisoned (8 * w.toNat) = false) ∧ (a ≤ 8 * w.toNat) ∧ (8 * w.toNat < a + 32 * n) ∧ (addrDie (8 * w.toNat) = d.val) :=
  ⟨wNoon, 0, 0xFFFFFFDF, 3, ((0 : Fin 8).val * 2 ^ 36 + (0xFFFFFFDF : BitVec 32).toNat / 32 * 32), 0x1FFFFFF8, rfl, by decide +kernel, by decide +kernel, by decide +kernel, by decide +kernel, by decide +kernel⟩

set_option maxRecDepth 100000 in
/-- Witness of `ErrorsAreCorrectedPoisonedAndRecorded`. -/
theorem test_errorsAreCorrectedPoisonedAndRecorded_3 : ∃ (s : State) (d : Fin 8) (region : Fin 3) (off : BitVec 32) (a : Nat) (key : Nat) (p : Nat), (a = d.val * 2 ^ 36 + region.val * 2 ^ 32 + off.toNat)
    ∧ (key = scrubUnit (s.physical a)) ∧ (p = s.scrubAt d key) ∧ (bitAt (s.r32 (Reg.cdRasCtl d)) 8 = false ∨ lineInUnit a ≠ p) :=
  ⟨(wNoon.set32 (Reg.cdRasCtl 0) 256), 0, 2, (BitVec.ofNat 32 (2 ^ 27 - 1)), ((0 : Fin 8).val * 2 ^ 36 + (2 : Fin 3).val * 2 ^ 32 + (BitVec.ofNat 32 (2 ^ 27 - 1)).toNat), (scrubUnit ((wNoon.set32 (Reg.cdRasCtl 0) 256).physical ((0 : Fin 8).val * 2 ^ 36 + (2 : Fin 3).val * 2 ^ 32 + (BitVec.ofNat 32 (2 ^ 27 - 1)).toNat))), ((wNoon.set32 (Reg.cdRasCtl 0) 256).scrubAt (0 : Fin 8) (scrubUnit ((wNoon.set32 (Reg.cdRasCtl 0) 256).physical ((0 : Fin 8).val * 2 ^ 36 + (2 : Fin 3).val * 2 ^ 32 + (BitVec.ofNat 32 (2 ^ 27 - 1)).toNat)))), rfl, rfl, rfl, by decide +kernel⟩

set_option maxRecDepth 100000 in
/-- Witness of `ErrorsAreCorrectedPoisonedAndRecorded`. -/
theorem test_errorsAreCorrectedPoisonedAndRecorded_4 : ∃ (s : State) (d : Fin 8) (region : Fin 3) (off : BitVec 32) (a : Nat) (key : Nat) (p : Nat), (a = d.val * 2 ^ 36 + region.val * 2 ^ 32 + off.toNat)
    ∧ (key = scrubUnit (s.physical a)) ∧ (p = s.scrubAt d key) ∧ (bitAt (s.r32 (Reg.cdRasCtl d)) 8 = true) ∧ (lineInUnit a = p) ∧ (s.soft = [])
    ∧ (p + 1 < unitLines key) :=
  ⟨(wNoon.set32 (Reg.cdRasCtl 0) 256), 0, 0, 31, ((0 : Fin 8).val * 2 ^ 36 + (0 : Fin 3).val * 2 ^ 32 + (31 : BitVec 32).toNat), (scrubUnit ((wNoon.set32 (Reg.cdRasCtl 0) 256).physical ((0 : Fin 8).val * 2 ^ 36 + (0 : Fin 3).val * 2 ^ 32 + (31 : BitVec 32).toNat))), ((wNoon.set32 (Reg.cdRasCtl 0) 256).scrubAt (0 : Fin 8) (scrubUnit ((wNoon.set32 (Reg.cdRasCtl 0) 256).physical ((0 : Fin 8).val * 2 ^ 36 + (0 : Fin 3).val * 2 ^ 32 + (31 : BitVec 32).toNat)))), rfl, rfl, rfl, by decide +kernel, by decide +kernel, by decide +kernel, by decide +kernel⟩

set_option maxRecDepth 100000 in
/-- Witness of `ErrorsAreCorrectedPoisonedAndRecorded`. -/
theorem test_errorsAreCorrectedPoisonedAndRecorded_5 : ∃ (s : State) (d : Fin 8) (region : Fin 3) (off : BitVec 32) (a : Nat) (key : Nat) (p : Nat) (w : BitVec 37) (row : Nat), (a = d.val * 2 ^ 36 + region.val * 2 ^ 32 + off.toNat)
    ∧ (key = scrubUnit (s.physical a)) ∧ (p = s.scrubAt d key) ∧ (bitAt (s.r32 (Reg.cdRasCtl d)) 8 = true) ∧ (lineInUnit a = p) ∧ (s.soft = [])
    ∧ (p + 1 < unitLines key) ∧ (s.poisoned (8 * w.toNat) = false) ∧ (addrDie (8 * w.toNat) = d.val) ∧ (scrubUnit (s.physical (8 * w.toNat)) = key)
    ∧ (lineInUnit (8 * w.toNat) = p) ∧ (row = (rowOf (s.physical (8 * w.toNat))).1) :=
  ⟨(wNoon.set32 (Reg.cdRasCtl 0) 256), 0, 0, 31, ((0 : Fin 8).val * 2 ^ 36 + (0 : Fin 3).val * 2 ^ 32 + (31 : BitVec 32).toNat), (scrubUnit ((wNoon.set32 (Reg.cdRasCtl 0) 256).physical ((0 : Fin 8).val * 2 ^ 36 + (0 : Fin 3).val * 2 ^ 32 + (31 : BitVec 32).toNat))), ((wNoon.set32 (Reg.cdRasCtl 0) 256).scrubAt (0 : Fin 8) (scrubUnit ((wNoon.set32 (Reg.cdRasCtl 0) 256).physical ((0 : Fin 8).val * 2 ^ 36 + (0 : Fin 3).val * 2 ^ 32 + (31 : BitVec 32).toNat)))), 3, ((rowOf ((wNoon.set32 (Reg.cdRasCtl 0) 256).physical (8 * (3 : BitVec 37).toNat))).1), rfl, rfl, rfl, by decide +kernel, by decide +kernel, by decide +kernel, by decide +kernel, by decide +kernel, by decide +kernel, by decide +kernel, by decide +kernel, rfl⟩

set_option maxRecDepth 100000 in
/-- Witness of `ErrorsAreCorrectedPoisonedAndRecorded`. -/
theorem test_errorsAreCorrectedPoisonedAndRecorded_6 : ∃ (s : State) (d : Fin 8) (region : Fin 3) (off : BitVec 32) (a : Nat) (key : Nat) (p : Nat), (a = d.val * 2 ^ 36 + region.val * 2 ^ 32 + off.toNat)
    ∧ (key = scrubUnit (s.physical a)) ∧ (p = s.scrubAt d key) ∧ (bitAt (s.r32 (Reg.cdRasCtl d)) 8 = true) ∧ (lineInUnit a = p) ∧ (s.soft = [])
    ∧ (p + 1 = unitLines key) :=
  ⟨((wNoon.set32 (Reg.cdRasCtl 0) 256).setDie 0 { scrubIdle := [(0, 2 ^ 23 - 1)] }), 0, 0, 0x0FFFFFFF, ((0 : Fin 8).val * 2 ^ 36 + (0 : Fin 3).val * 2 ^ 32 + (0x0FFFFFFF : BitVec 32).toNat), (scrubUnit (((wNoon.set32 (Reg.cdRasCtl 0) 256).setDie 0 { scrubIdle := [(0, 2 ^ 23 - 1)] }).physical ((0 : Fin 8).val * 2 ^ 36 + (0 : Fin 3).val * 2 ^ 32 + (0x0FFFFFFF : BitVec 32).toNat))), (((wNoon.set32 (Reg.cdRasCtl 0) 256).setDie 0 { scrubIdle := [(0, 2 ^ 23 - 1)] }).scrubAt (0 : Fin 8) (scrubUnit (((wNoon.set32 (Reg.cdRasCtl 0) 256).setDie 0 { scrubIdle := [(0, 2 ^ 23 - 1)] }).physical ((0 : Fin 8).val * 2 ^ 36 + (0 : Fin 3).val * 2 ^ 32 + (0x0FFFFFFF : BitVec 32).toNat)))), rfl, rfl, rfl, by decide +kernel, by decide +kernel, by decide +kernel, by decide +kernel⟩

set_option maxRecDepth 100000 in
/-- Witness of `ErrorsAreCorrectedPoisonedAndRecorded`. -/
theorem test_errorsAreCorrectedPoisonedAndRecorded_9 : ∃ (s : State), (s.sec.writing = none) ∧ (∀ d, d < 8 → (s.die d).fieldRows.length ≤ 512)
    ∧ (s.markTime = false) :=
  ⟨wNoon, by decide +kernel, by decide +kernel, by decide +kernel⟩

set_option maxRecDepth 100000 in
/-- Witness of `ErrorsAreCorrectedPoisonedAndRecorded`. -/
theorem test_errorsAreCorrectedPoisonedAndRecorded_10 : ∃ (s : State), (s.sec.writing = none) ∧ (∀ d, d < 8 → (s.die d).fieldRows.length ≤ 512)
    ∧ (s.markTime = true) :=
  ⟨({ wNoon with power := { dusk := some ⟨.midnight, 7, true⟩ } } : State), by decide +kernel, by decide +kernel, by decide +kernel⟩

set_option maxRecDepth 100000 in
/-- Witness of `ErrorsAreCorrectedPoisonedAndRecorded`. -/
theorem test_errorsAreCorrectedPoisonedAndRecorded_11 : ∃ (s : State) (k : Nat) (w : FuseWord), (s.sec.writing = none) ∧ (∀ d, d < 8 → (s.die d).fieldRows.length ≤ 512)
    ∧ (s.markTime = false) ∧ (s.fieldWords[k]? = some w) :=
  ⟨(wNoon.setDie 0 { unrecorded := [5] }), 0, (FuseWord.row 0 5), by decide +kernel, by decide +kernel, by decide +kernel, by decide +kernel⟩

set_option maxRecDepth 100000 in
/-- Witness of `ErrorsAreCorrectedPoisonedAndRecorded`. -/
theorem test_errorsAreCorrectedPoisonedAndRecorded_12 : ∃ (s : State), (s.sec.writing = none) ∧ (∀ d, d < 8 → (s.die d).fieldRows.length ≤ 512) :=
  ⟨wNoon, by decide +kernel, by decide +kernel⟩

/-- Witness of `KeysFeedsFirmwareAndRepairs`. -/
theorem test_keysFeedsFirmwareAndRepairs_0 : ∃ (s : State) (d : Desc), (s.CanTell 0) ∧ (d.zero 10 16 = true) ∧ (d.zero 28 64 = true)
    ∧ (d.f 8 1 ≤ 15) ∧ (s.loadsClosed = none) ∧ ((∀ n, n < 64 → s.loadedOrRunning n = false)) ∧ ((∀ l, l ∈ s.loader.loads → l.counts = false))
    ∧ (d.f 9 1 = 1) :=
  ⟨wNoon, (dsc [(9, 1)]), ⟨by decide +kernel, by decide +kernel, by decide +kernel, by decide +kernel⟩, by decide +kernel, by decide +kernel, by decide +kernel, by decide +kernel, by decide +kernel, by decide +kernel, by decide +kernel⟩

/-- Witness of `KeysFeedsFirmwareAndRepairs`. -/
theorem test_keysFeedsFirmwareAndRepairs_1 : ∃ (s : State) (d : Desc) (key : HostRead) (b : _), (s.CanTell 0) ∧ (d.zero 10 16 = true)
    ∧ (d.zero 28 64 = true) ∧ (d.f 8 1 ≤ 15) ∧ (s.loadsClosed = none) ∧ ((∀ n, n < 64 → s.loadedOrRunning n = false))
    ∧ ((∀ l, l ∈ s.loader.loads → l.counts = false)) ∧ (d.f 9 1 = 0) ∧ ((d.f 24 4 = 97 ∨ d.f 24 4 = 1952)) ∧ (d.f 16 8 + d.f 24 4 ≤ 2 ^ 64)
    ∧ (key = .bytes b)
    ∧ (bitAt s.sec.shadow.partRules 6 = false ∨ (∃ i, i < 4 ∧ Tab.get (fun _ => 0) s.sec.shadow.pins i ≠ 0 ∧ leBytes 48 (Tab.get (fun _ => 0) s.sec.shadow.pins i) = sha384 (b.take (d.f 24 4)))) :=
  ⟨wNoon, (dsc [(24, 97)]), (HostRead.bytes [1]), [1], ⟨by decide +kernel, by decide +kernel, by decide +kernel, by decide +kernel⟩, by decide +kernel, by decide +kernel, by decide +kernel, by decide +kernel, by decide +kernel, by decide +kernel, by decide +kernel, by decide +kernel, by decide +kernel, by decide +kernel, Or.inl (by decide +kernel)⟩

/-- Witness of `KeysFeedsFirmwareAndRepairs`. -/
theorem test_keysFeedsFirmwareAndRepairs_2 : ∃ (s : State) (d : Desc) (key : HostRead) (b : _), (s.CanTell 0) ∧ (d.zero 10 16 = true)
    ∧ (d.zero 28 64 = true) ∧ (d.f 8 1 ≤ 15) ∧ (s.loadsClosed = none) ∧ ((∀ n, n < 64 → s.loadedOrRunning n = false))
    ∧ ((∀ l, l ∈ s.loader.loads → l.counts = false)) ∧ (d.f 9 1 = 0) ∧ ((d.f 24 4 = 97 ∨ d.f 24 4 = 1952)) ∧ (d.f 16 8 + d.f 24 4 ≤ 2 ^ 64)
    ∧ (key = .bytes b) ∧ (bitAt s.sec.shadow.partRules 6 = true)
    ∧ ((∀ i, i < 4 → Tab.get (fun _ => 0) s.sec.shadow.pins i = 0 ∨ leBytes 48 (Tab.get (fun _ => 0) s.sec.shadow.pins i) ≠ sha384 (b.take (d.f 24 4)))) :=
  ⟨({ wNoon with sec := { shadow := { partRules := 64 } } } : State), (dsc [(24, 1952)]), (HostRead.bytes [1]), [1], ⟨by decide +kernel, by decide +kernel, by decide +kernel, by decide +kernel⟩, by decide +kernel, by decide +kernel, by decide +kernel, by decide +kernel, by decide +kernel, by decide +kernel, by decide +kernel, by decide +kernel, by decide +kernel, by decide +kernel, by decide +kernel, by decide +kernel⟩

/-- Witness of `KeysFeedsFirmwareAndRepairs`. -/
theorem test_keysFeedsFirmwareAndRepairs_3 : ∃ (s : State) (d : Desc) (l : Load), (s.loader.loads.find? (fun l => l.feed && l.ready.isNone && l.desc.f 20 4 == d.f 8 4) = some l)
    ∧ (s.CanTell 0) ∧ (d.zero 16 64 = true) ∧ (d.f 12 4 ≤ l.desc.f 32 4) ∧ (l.counts = true) ∧ (l.got.length + d.f 12 4 < 64) :=
  ⟨({ wNoon with loader := { loads := [⟨1, 0, dsc [(0, 2), (32, 4096)], [], true, none, ⟨[], []⟩⟩] } } : State), (dsc [(12, 63)]), ⟨1, 0, dsc [(0, 2), (32, 4096)], [], true, none, ⟨[], []⟩⟩, by decide +kernel, ⟨by decide +kernel, by decide +kernel, by decide +kernel, by decide +kernel⟩, by decide +kernel, by decide +kernel, by decide +kernel, by decide +kernel⟩

/-- Witness of `KeysFeedsFirmwareAndRepairs`. -/
theorem test_keysFeedsFirmwareAndRepairs_4 : ∃ (s : State) (d : Desc) (l : Load), (s.loader.loads.find? (fun l => l.feed && l.ready.isNone && l.desc.f 20 4 == d.f 8 4) = some l)
    ∧ (s.CanTell l.rid) ∧ (l.cmdId < 2 ^ 32) ∧ (l.counts = true) ∧ (l.got.length < 64) :=
  ⟨({ wNoon with loader := { loads := [⟨0, 9, dsc [(0, 0x3A), (32, 4096)], [], true, none, ⟨[], []⟩⟩] } } : State), (dsc []), ⟨0, 9, dsc [(0, 0x3A), (32, 4096)], [], true, none, ⟨[], []⟩⟩, by decide +kernel, ⟨by decide +kernel, by decide +kernel, by decide +kernel, by decide +kernel⟩, by decide +kernel, by decide +kernel, by decide +kernel⟩

/-- Witness of `KeysFeedsFirmwareAndRepairs`. -/
theorem test_keysFeedsFirmwareAndRepairs_5 : ∃ (s : State) (d : Desc) (b : List Byte) (st : _), (s.CanTell 0) ∧ (sourceOk d [] = true)
    ∧ (d.f 18 1 = 0) ∧ (wraps d = false) ∧ (s.firmwareCheck b = (st, none)) :=
  ⟨wNoon, (dsc [(16, 1)]), [], 0x49, ⟨by decide +kernel, by decide +kernel, by decide +kernel, by decide +kernel⟩, by decide +kernel, by decide +kernel, by decide +kernel, by decide +kernel⟩

/-- Witness of `KeysFeedsFirmwareAndRepairs`, but for what an open constant of Config answers. -/
theorem test_keysFeedsFirmwareAndRepairs_6 : ∃ (s : State) (d : Desc), (s.CanTell 0) ∧ (sourceOk d [] = true) ∧ (d.f 18 1 = 0) ∧ (wraps d = false) :=
  ⟨wNoon, (dsc [(16, 1)]), ⟨by decide +kernel, by decide +kernel, by decide +kernel, by decide +kernel⟩, by decide +kernel, by decide +kernel, by decide +kernel⟩

/-- Witness of `KeysFeedsFirmwareAndRepairs`. -/
theorem test_keysFeedsFirmwareAndRepairs_7 : ∃ (s : State) (d : Desc), (d.zero 8 64 = true)
    ∧ ((∀ r, r ∈ s.loader.repairs → r.asked = true ∨ (s.repairImage r).any (fun x => x.1.retain) = true)) :=
  ⟨wNoon, (dsc [(0, 0x23)]), by decide +kernel, by decide +kernel⟩

/-- Witness of `KeysFeedsFirmwareAndRepairs`. -/
theorem test_keysFeedsFirmwareAndRepairs_8 : ∃ (s : State) (d : Desc) (r : _), (d.zero 8 64 = true) ∧ (s.CanTell 0) ∧ (s.loader.requests = [])
    ∧ (s.loader.repairs.find? (fun r => !r.asked && !((s.repairImage r).any (fun x => x.1.retain))) = some r) :=
  ⟨({ wNoon with loader := { repairs := [⟨3, 0, 0, 0, false⟩] } } : State), (dsc []), ⟨3, 0, 0, 0, false⟩, by decide +kernel, ⟨by decide +kernel, by decide +kernel, by decide +kernel, by decide +kernel⟩, by decide +kernel, by decide +kernel⟩

/-- Witness of `KeysFeedsFirmwareAndRepairs`. -/
theorem test_keysFeedsFirmwareAndRepairs_9 : ∃ (s : State) (d : Desc) (r : Repair) (i : Image) (x : Section) (b : List Byte) (bs : List Byte) (e : Extent) (u : Nat × List Byte) (c : Instr), (((c = .imageRepair d (.bytes b) ∧ sourceOk d [(40, 44)] = true ∧ d.f 18 1 = 0 ∧ wraps d = false ∧ d.f 40 4 = r.id) ∨ (c = .rewriteComplete r.id (b.take x.srcLen) ∧ i.retain = true)))
    ∧ (s.loader.repairs.find? (fun y => y.id == r.id) = some r) ∧ (s.repairImage r = some (i, x))
    ∧ (s.rebuild i.part x (b.take x.srcLen) = some bs) ∧ (i.extents.find? (fun e => e.sec == r.sec) = some e)
    ∧ ((unitPieces e.base bs).find? (fun u => u.1 == r.unit) = some u) ∧ (crc64 u.2 = Tab.get (fun _ => 0) i.crcs (pieceKey r.sec r.unit)) :=
  ⟨(wRepair [(pieceKey 0 0, crc64 [1, 2, 3, 4])]), (dsc [(16, 1), (40, 3)]), ⟨3, 0, 0, 0, true⟩, (wImage [(pieceKey 0 0, crc64 [1, 2, 3, 4])]), wSection, [1, 2, 3, 4], [1, 2, 3, 4], ⟨0, 0, 4⟩, (0, [1, 2, 3, 4]), (Instr.imageRepair (dsc [(16, 1), (40, 3)]) (.bytes [1, 2, 3, 4])), Or.inl ⟨rfl, by decide +kernel, by decide +kernel, by decide +kernel, by decide +kernel⟩, by decide +kernel, by decide +kernel, by decide +kernel, by decide +kernel, by decide +kernel, by decide +kernel⟩

/-- Witness of `KeysFeedsFirmwareAndRepairs`. -/
theorem test_keysFeedsFirmwareAndRepairs_10 : ∃ (s : State) (d : Desc) (r : Repair) (i : Image) (x : Section) (b : List Byte) (bs : List Byte) (e : Extent) (u : Nat × List Byte) (c : Instr), (((c = .imageRepair d (.bytes b) ∧ sourceOk d [(40, 44)] = true ∧ d.f 18 1 = 0 ∧ wraps d = false ∧ d.f 40 4 = r.id) ∨ (c = .rewriteComplete r.id (b.take x.srcLen) ∧ i.retain = true)))
    ∧ (s.loader.repairs.find? (fun y => y.id == r.id) = some r) ∧ (s.repairImage r = some (i, x))
    ∧ (s.rebuild i.part x (b.take x.srcLen) = some bs) ∧ (i.extents.find? (fun e => e.sec == r.sec) = some e)
    ∧ ((unitPieces e.base bs).find? (fun u => u.1 == r.unit) = some u) ∧ (crc64 u.2 ≠ Tab.get (fun _ => 0) i.crcs (pieceKey r.sec r.unit)) :=
  ⟨(wRepair []), (dsc [(16, 1), (40, 3)]), ⟨3, 0, 0, 0, true⟩, (wImage []), wSection, [1, 2, 3, 4], [1, 2, 3, 4], ⟨0, 0, 4⟩, (0, [1, 2, 3, 4]), (Instr.imageRepair (dsc [(16, 1), (40, 3)]) (.bytes [1, 2, 3, 4])), Or.inl ⟨rfl, by decide +kernel, by decide +kernel, by decide +kernel, by decide +kernel⟩, by decide +kernel, by decide +kernel, by decide +kernel, by decide +kernel, by decide +kernel, by decide +kernel⟩

/-- Witness of `LoadsAreTakenCheckedAndCompleted`. -/
theorem test_loadsAreTakenCheckedAndCompleted_5 : ∃ (s : State) (n : Fin 64) (l : Load) (img : Image) (r0 : Nat) (r1 : Nat), (s.loader.loads.find? (fun l => l.rid == n.val + 1 && l.ready.isSome && l.kind == 0) = some l)
    ∧ (l.ready = some (img, r0, r1)) ∧ ((s.program n).isSome = true) ∧ (s.loadedOrRunning n = true) ∧ (s.CanTell (n.val + 1)) ∧ (l.cmdId < 2 ^ 32) :=
  ⟨({ wShm.setPstate 0 2 with loader := { loads := [⟨1, 0, dsc [(0, 2)], [], false, some (wImage [], 5, 6), ⟨[], []⟩⟩], images := [wImage []] } } : State), 0, ⟨1, 0, dsc [(0, 2)], [], false, some (wImage [], 5, 6), ⟨[], []⟩⟩, (wImage []), 5, 6, by decide +kernel, by decide +kernel, by decide +kernel, by decide +kernel, ⟨by decide +kernel, by decide +kernel, by decide +kernel, by decide +kernel⟩, by decide +kernel⟩

set_option maxRecDepth 100000 in
/-- Witness of `LoadsAreTakenCheckedAndCompleted`. -/
theorem test_loadsAreTakenCheckedAndCompleted_0 : ∃ (s : State) (u : State) (d : Desc) (src : HostRead) (n : Fin 64) (job : JobPlacement) (rid : Nat) (c : Instr), ((c = .loadImage n d src job
    ∧ d.f 0 1 = 2 ∧ rid = n.val + 1 ∧ sourceOk d [] = true ∧ u = s.rechoose n) ∨ (job = ⟨[], []⟩ ∧ u = s ∧ ((c = .placeCheck n d src
    ∧ d.f 0 1 = 1 ∧ rid = n.val + 1 ∧ sourceOk d [] = true) ∨ (c = .adapterLoad n d src ∧ d.f 0 1 = 4 ∧ rid = n.val + 1 ∧ sourceOk d [(40, 42)] = true
    ∧ (∃ p, s.program n = some p ∧ d.f 40 2 < p.slots)) ∨ (c = .baseLoad d src ∧ d.f 0 1 = 0x3A ∧ rid = 0 ∧ sourceOk d [(40, 41)] = true
    ∧ d.f 40 1 ≠ 0 ∧ ∀ k, k < 8 → bitAt (d.f 40 1) k = true → s.dieAbsent k = false)))) ∧ (s.step1 rid d = none) ∧ (wraps d = false)
    ∧ (d.f 18 1 = 1) ∧ (s.feedOk d = true) :=
  ⟨wConf, wConf, (dsc [(0, 1), (18, 1), (32, 4096)]), HostRead.failed, 0, ⟨[], []⟩, 1, (Instr.placeCheck 0 (dsc [(0, 1), (18, 1), (32, 4096)]) .failed), Or.inr ⟨rfl, rfl, Or.inl ⟨rfl, by decide +kernel, by decide +kernel, by decide +kernel⟩⟩, by decide +kernel, by decide +kernel, by decide +kernel, by decide +kernel⟩

set_option maxRecDepth 100000 in
/-- Witness of `LoadsAreTakenCheckedAndCompleted`. -/
theorem test_loadsAreTakenCheckedAndCompleted_1 : ∃ (s : State) (u : State) (d : Desc) (src : HostRead) (n : Fin 64) (job : JobPlacement) (rid : Nat) (c : Instr) (b : List Byte) (l : Load) (st : _) (step : _) (sec : _) (die : _), ((c = .loadImage n d src job
    ∧ d.f 0 1 = 2 ∧ rid = n.val + 1 ∧ sourceOk d [] = true ∧ u = s.rechoose n) ∨ (job = ⟨[], []⟩ ∧ u = s ∧ ((c = .placeCheck n d src
    ∧ d.f 0 1 = 1 ∧ rid = n.val + 1 ∧ sourceOk d [] = true) ∨ (c = .adapterLoad n d src ∧ d.f 0 1 = 4 ∧ rid = n.val + 1 ∧ sourceOk d [(40, 42)] = true
    ∧ (∃ p, s.program n = some p ∧ d.f 40 2 < p.slots)) ∨ (c = .baseLoad d src ∧ d.f 0 1 = 0x3A ∧ rid = 0 ∧ sourceOk d [(40, 41)] = true
    ∧ d.f 40 1 ≠ 0 ∧ ∀ k, k < 8 → bitAt (d.f 40 1) k = true → s.dieAbsent k = false)))) ∧ (s.step1 rid d = none) ∧ (wraps d = false)
    ∧ (d.f 18 1 = 0) ∧ (src = .bytes b) ∧ (l = ⟨rid, d.cmdId, d, [], false, none, job⟩) ∧ (64 ≤ b.length) ∧ (headerOk l.kind b = true)
    ∧ (imgLen b ≤ b.length) ∧ (imgManEnd b ≤ b.length) ∧ (s.CanTell rid) ∧ (u.preChecks l b = some (st, step, sec, die)) :=
  ⟨(wShm.setPstate 0 1), (wShm.setPstate 0 1), (dsc [(0, 1), (16, 1)]), (HostRead.bytes wProgram), 0, ⟨[], []⟩, 1, (Instr.placeCheck 0 (dsc [(0, 1), (16, 1)]) (.bytes wProgram)), wProgram, ⟨1, 0, (dsc [(0, 1), (16, 1)]), [], false, none, ⟨[], []⟩⟩, 0x40, 3, 0xFFFF, 0xFF, Or.inr ⟨rfl, rfl, Or.inl ⟨rfl, by decide +kernel, by decide +kernel, by decide +kernel⟩⟩, by decide +kernel, by decide +kernel, by decide +kernel, rfl, rfl, by decide +kernel, by decide +kernel, by decide +kernel, by decide +kernel, ⟨by decide +kernel, by decide +kernel, by decide +kernel, by decide +kernel⟩, by decide +kernel⟩

set_option maxRecDepth 100000 in
/-- Witness of `LoadsAreTakenCheckedAndCompleted`. -/
theorem test_loadsAreTakenCheckedAndCompleted_2 : ∃ (s : State) (u : State) (d : Desc) (src : HostRead) (n : Fin 64) (job : JobPlacement) (rid : Nat) (c : Instr) (b : List Byte) (l : Load), ((c = .loadImage n d src job
    ∧ d.f 0 1 = 2 ∧ rid = n.val + 1 ∧ sourceOk d [] = true ∧ u = s.rechoose n) ∨ (job = ⟨[], []⟩ ∧ u = s ∧ ((c = .placeCheck n d src
    ∧ d.f 0 1 = 1 ∧ rid = n.val + 1 ∧ sourceOk d [] = true) ∨ (c = .adapterLoad n d src ∧ d.f 0 1 = 4 ∧ rid = n.val + 1 ∧ sourceOk d [(40, 42)] = true
    ∧ (∃ p, s.program n = some p ∧ d.f 40 2 < p.slots)) ∨ (c = .baseLoad d src ∧ d.f 0 1 = 0x3A ∧ rid = 0 ∧ sourceOk d [(40, 41)] = true
    ∧ d.f 40 1 ≠ 0 ∧ ∀ k, k < 8 → bitAt (d.f 40 1) k = true → s.dieAbsent k = false)))) ∧ (s.step1 rid d = none) ∧ (wraps d = false)
    ∧ (d.f 18 1 = 0) ∧ (src = .bytes b) ∧ (l = ⟨rid, d.cmdId, d, [], false, none, job⟩) ∧ (64 ≤ b.length) ∧ (headerOk l.kind b = true)
    ∧ (imgLen b ≤ b.length) ∧ (imgManEnd b ≤ b.length) ∧ (s.CanTell rid) ∧ (d.f 0 1 = 1) ∧ (s.preChecks l b = none) :=
  ⟨wConf, wConf, (dsc [(0, 1), (16, 1)]), (HostRead.bytes wProgram), 0, ⟨[], []⟩, 1, (Instr.placeCheck 0 (dsc [(0, 1), (16, 1)]) (.bytes wProgram)), wProgram, ⟨1, 0, (dsc [(0, 1), (16, 1)]), [], false, none, ⟨[], []⟩⟩, Or.inr ⟨rfl, rfl, Or.inl ⟨rfl, by decide +kernel, by decide +kernel, by decide +kernel⟩⟩, by decide +kernel, by decide +kernel, by decide +kernel, rfl, rfl, by decide +kernel, by decide +kernel, by decide +kernel, by decide +kernel, ⟨by decide +kernel, by decide +kernel, by decide +kernel, by decide +kernel⟩, by decide +kernel, by decide +kernel⟩

set_option maxRecDepth 100000 in
/-- Witness of `LoadsAreTakenCheckedAndCompleted`. -/
theorem test_loadsAreTakenCheckedAndCompleted_3 : ∃ (s : State) (u : State) (d : Desc) (src : HostRead) (n : Fin 64) (job : JobPlacement) (rid : Nat) (c : Instr) (b : List Byte) (l : Load), ((c = .loadImage n d src job
    ∧ d.f 0 1 = 2 ∧ rid = n.val + 1 ∧ sourceOk d [] = true ∧ u = s.rechoose n) ∨ (job = ⟨[], []⟩ ∧ u = s ∧ ((c = .placeCheck n d src
    ∧ d.f 0 1 = 1 ∧ rid = n.val + 1 ∧ sourceOk d [] = true) ∨ (c = .adapterLoad n d src ∧ d.f 0 1 = 4 ∧ rid = n.val + 1 ∧ sourceOk d [(40, 42)] = true
    ∧ (∃ p, s.program n = some p ∧ d.f 40 2 < p.slots)) ∨ (c = .baseLoad d src ∧ d.f 0 1 = 0x3A ∧ rid = 0 ∧ sourceOk d [(40, 41)] = true
    ∧ d.f 40 1 ≠ 0 ∧ ∀ k, k < 8 → bitAt (d.f 40 1) k = true → s.dieAbsent k = false)))) ∧ (s.step1 rid d = none) ∧ (wraps d = false)
    ∧ (d.f 18 1 = 0) ∧ (src = .bytes b) ∧ (l = ⟨rid, d.cmdId, d, [], false, none, job⟩) ∧ (64 ≤ b.length) ∧ (headerOk l.kind b = true)
    ∧ (imgLen b ≤ b.length) ∧ (imgManEnd b ≤ b.length) ∧ (s.CanTell rid) ∧ (d.f 0 1 = 4 ∨ rid = 0) ∧ (s.preChecks l b = none) ∧ (gapsOk b = true)
    ∧ (∀ p, p ∈ imgSections b → s.sectionStatus l.part b p = none) :=
  ⟨wCommon, wCommon, (dsc [(0, 0x3A), (16, 1), (40, 1)]), (HostRead.bytes wBase), 0, ⟨[], []⟩, 0, (Instr.baseLoad (dsc [(0, 0x3A), (16, 1), (40, 1)]) (.bytes wBase)), wBase, ⟨0, 0, (dsc [(0, 0x3A), (16, 1), (40, 1)]), [], false, none, ⟨[], []⟩⟩, Or.inr ⟨rfl, rfl, Or.inr (Or.inr ⟨rfl, by decide +kernel, by decide +kernel, by decide +kernel, by decide +kernel, by decide +kernel⟩)⟩, by decide +kernel, by decide +kernel, by decide +kernel, rfl, rfl, by decide +kernel, by decide +kernel, by decide +kernel, by decide +kernel, ⟨by decide +kernel, by decide +kernel, by decide +kernel, by decide +kernel⟩, by decide +kernel, by decide +kernel, by decide +kernel, by decide +kernel⟩

set_option maxRecDepth 100000 in
/-- Witness of `LoadsAreTakenCheckedAndCompleted`. -/
theorem test_loadsAreTakenCheckedAndCompleted_4 : ∃ (s : State) (u : State) (d : Desc) (src : HostRead) (n : Fin 64) (job : JobPlacement) (rid : Nat) (c : Instr) (b : List Byte) (l : Load) (y : _) (rel : _) (raw : _), ((c = .loadImage n d src job
    ∧ d.f 0 1 = 2 ∧ rid = n.val + 1 ∧ sourceOk d [] = true ∧ u = s.rechoose n) ∨ (job = ⟨[], []⟩ ∧ u = s ∧ ((c = .placeCheck n d src
    ∧ d.f 0 1 = 1 ∧ rid = n.val + 1 ∧ sourceOk d [] = true) ∨ (c = .adapterLoad n d src ∧ d.f 0 1 = 4 ∧ rid = n.val + 1 ∧ sourceOk d [(40, 42)] = true
    ∧ (∃ p, s.program n = some p ∧ d.f 40 2 < p.slots)) ∨ (c = .baseLoad d src ∧ d.f 0 1 = 0x3A ∧ rid = 0 ∧ sourceOk d [(40, 41)] = true
    ∧ d.f 40 1 ≠ 0 ∧ ∀ k, k < 8 → bitAt (d.f 40 1) k = true → s.dieAbsent k = false)))) ∧ (s.step1 rid d = none) ∧ (wraps d = false)
    ∧ (d.f 18 1 = 0) ∧ (src = .bytes b) ∧ (l = ⟨rid, d.cmdId, d, [], false, none, job⟩) ∧ (64 ≤ b.length) ∧ (headerOk l.kind b = true)
    ∧ (imgLen b ≤ b.length) ∧ (imgManEnd b ≤ b.length) ∧ (s.CanTell rid) ∧ (d.f 0 1 = 2) ∧ (rid ≠ 0) ∧ (y = u.buildPeers n job) ∧ (u.preChecks l b = none) ∧ (gapsOk b = true)
    ∧ (∀ p, p ∈ imgSections b → u.sectionStatus n b p = none) ∧ (u.programStreams n b true = some rel) ∧ (u.programStreams n b false = some raw)
    ∧ (y.externalsOk n raw = true) ∧ (∀ p, p ∈ rel → y.peersOk n p.2 = true) ∧ (((y.multicastNeeds n (rel.map (fun p => ((y.coreOf n p.1).getD 0, p.2)))).bind (y.buildMulticast n)).isSome = true) :=
  ⟨wConf, (wConf.rechoose 0), (dsc [(0, 2), (16, 1)]), (HostRead.bytes wProgram), 0, ⟨[], []⟩, 1, (Instr.loadImage 0 (dsc [(0, 2), (16, 1)]) (.bytes wProgram) ⟨[], []⟩), wProgram, ⟨1, 0, (dsc [(0, 2), (16, 1)]), [], false, none, ⟨[], []⟩⟩, ((wConf.rechoose 0).buildPeers 0 ⟨[], []⟩), [(0, [0x20107])], [(0, [0x20107])], Or.inl ⟨rfl, by decide +kernel, by decide +kernel, by decide +kernel, rfl⟩, by decide +kernel, by decide +kernel, by decide +kernel, rfl, rfl, by decide +kernel, by decide +kernel, by decide +kernel, by decide +kernel, ⟨by decide +kernel, by decide +kernel, by decide +kernel, by decide +kernel⟩, by decide +kernel, by decide +kernel, rfl, by decide +kernel, by decide +kernel, by decide +kernel, by decide +kernel, by decide +kernel, by decide +kernel, by decide +kernel, by decide +kernel⟩

/-- Witness of `PartitionsUnloadStopAndExport`. -/
theorem test_partitionsUnloadStopAndExport_0 : ∃ (s : State) (n : Fin 64) (d : Desc), (d.zero 8 64 = true) ∧ ((s.pstate n = 2 ∨ s.pstate n = 4))
    ∧ (s.CanTell (n.val + 1)) :=
  ⟨(wShm.setPstate 0 2), 0, (dsc [(0, 3)]), by decide +kernel, by decide +kernel, ⟨by decide +kernel, by decide +kernel, by decide +kernel, by decide +kernel⟩⟩

/-- Witness of `PartitionsUnloadStopAndExport`. -/
theorem test_partitionsUnloadStopAndExport_1 : ∃ (s : State) (d : Desc), (d.zero 9 64 = true) ∧ (s.CanTell 0)
    ∧ ((∀ n p k b, n < 64 → 2 ≤ s.pstate n → s.program n = some p → k < 8 → bitAt (d.f 8 1) k = true → s.hasCoreOn n k = true → s.base k = some b → b.digest ≠ p.baseRef))
    ∧ ((∀ l, l ∈ s.loader.loads → l.counts = true → l.kind = 1 → ∀ k, k < 8 → bitAt (d.f 8 1) k = true → bitAt (l.desc.f 40 1) k = false)) :=
  ⟨wNoon, (dsc [(8, 1)]), by decide +kernel, ⟨by decide +kernel, by decide +kernel, by decide +kernel, by decide +kernel⟩, fun n _ _ _ h1 h2 => absurd h2 ((by decide +kernel : ∀ n, n < 64 → ¬ 2 ≤ State.pstate wNoon n) n h1), by decide +kernel⟩

/-- Witness of `PartitionsUnloadStopAndExport`. -/
theorem test_partitionsUnloadStopAndExport_2 : ∃ (s : State) (n : Fin 64) (d : Desc), (d.zero 10 64 = true)
    ∧ ((∀ p, s.program n = some p → d.f 8 2 < p.slots)) ∧ ((s.adapter n (d.f 8 2)).isSome = true)
    ∧ ((∀ x, x ∈ s.loader.unloads → x.1 = n.val → x.2.1 ≠ d.f 8 2)) :=
  ⟨wAdapted, 0, (dsc []), by decide +kernel, fun p h => (Option.some.inj ((show State.program wAdapted 0 = some (wImage []) from (by decide +kernel)).symm.trans h)) ▸ (by decide +kernel : Desc.f (dsc []) 8 2 < (wImage []).slots), by decide +kernel, by decide +kernel⟩

/-- Witness of `PartitionsUnloadStopAndExport`. -/
theorem test_partitionsUnloadStopAndExport_3 : ∃ (s : State) (n : Fin 64) (d : Desc), (d.zero 8 64 = true) ∧ (s.pstate n = 3)
    ∧ ((s.part n).stopCmd = none) :=
  ⟨wRun, 0, (dsc [(0, 6)]), by decide +kernel, by decide +kernel, by decide +kernel⟩

/-- Witness of `PartitionsUnloadStopAndExport`. -/
theorem test_partitionsUnloadStopAndExport_4 : ∃ (s : State) (n : Fin 64) (d : Desc) (g : Nat) (a : Nat), (s.coreOf n (d.f 27 1) = some g)
    ∧ (s.CanTell (n.val + 1)) ∧ ((s.pstate n = 2 ∨ s.pstate n = 4)) ∧ (d.f 18 1 ≤ 1) ∧ (d.f 19 1 ≤ 2) ∧ (d.f 24 1 ≤ 0xB)
    ∧ (pubKnown (d.f 25 1) = true) ∧ (d.f 26 1 ≤ 3) ∧ (d.zero 28 32 = true) ∧ (d.zero 56 64 = true)
    ∧ (d.f 32 8 + layoutSize (d.f 24 1) (d.f 19 1) (d.f 40 8) (d.f 48 8) ≤ s.levelBound n (g / 16) (d.f 26 1))
    ∧ ((d.f 18 1 = 1 → d.f 20 4 + pubSize (d.f 25 1) (d.f 19 1) (d.f 40 8) (d.f 48 8) ≤ stagingOpen))
    ∧ ((d.f 18 1 = 0 → d.f 16 2 ≠ 0 ∧ d.f 8 8 + 16 * d.f 16 2 ≤ 2 ^ 64))
    ∧ (a = levelAddr (d.f 26 1) g 0 0 (s.levelBase n (g / 16) (d.f 26 1) + d.f 32 8)) ∧ (bitAt s.sec.shadow.partRules 0 = true) :=
  ⟨({ wShm.setPstate 0 2 with sec := { shadow := { partRules := 1 } } } : State), 0, (dsc [(18, 1), (24, 4), (25, 4), (40, 1), (48, 32)]), 0, _, by decide +kernel, ⟨by decide +kernel, by decide +kernel, by decide +kernel, by decide +kernel⟩, by decide +kernel, by decide +kernel, by decide +kernel, by decide +kernel, by decide +kernel, by decide +kernel, by decide +kernel, by decide +kernel, by decide +kernel, by decide +kernel, by decide +kernel, rfl, by decide +kernel⟩

set_option maxRecDepth 100000 in
/-- Witness of `PartitionsUnloadStopAndExport`. -/
theorem test_partitionsUnloadStopAndExport_5 : ∃ (s : State) (n : Fin 64) (d : Desc) (g : Nat) (a : Nat) (c : _), (s.coreOf n (d.f 27 1) = some g)
    ∧ (s.CanTell (n.val + 1)) ∧ (s.pstate n = 2 ∨ s.pstate n = 4) ∧ (d.f 18 1 ≤ 1) ∧ (d.f 19 1 ≤ 2) ∧ (d.f 24 1 ≤ 0xB) ∧ (pubKnown (d.f 25 1) = true)
    ∧ (d.f 26 1 ≤ 3) ∧ (d.zero 28 32 = true) ∧ (d.zero 56 64 = true) ∧ (d.f 32 8 + layoutSize (d.f 24 1) (d.f 19 1) (d.f 40 8) (d.f 48 8) ≤ s.levelBound n (g / 16) (d.f 26 1))
    ∧ (d.f 18 1 = 1 → d.f 20 4 + pubSize (d.f 25 1) (d.f 19 1) (d.f 40 8) (d.f 48 8) ≤ stagingOpen) ∧ (d.f 18 1 = 0 → d.f 16 2 ≠ 0
    ∧ d.f 8 8 + 16 * d.f 16 2 ≤ 2 ^ 64) ∧ (a = levelAddr (d.f 26 1) g 0 0 (s.levelBase n (g / 16) (d.f 26 1) + d.f 32 8)) ∧ (bitAt s.sec.shadow.partRules 0 = false)
    ∧ (s.Sound a (layoutSize (d.f 24 1) (d.f 19 1) (d.f 40 8) (d.f 48 8))) ∧ (c = exportTensor (d.f 24 1) (d.f 25 1) (d.f 19 1) (d.f 40 8) (d.f 48 8) (s.rdBytes a (layoutSize (d.f 24 1) (d.f 19 1) (d.f 40 8) (d.f 48 8))))
    ∧ (d.f 18 1 = 1) :=
  ⟨(wShm.setPstate 0 2), 0, (dsc [(18, 1), (24, 4), (25, 4), (40, 1), (48, 32)]), 0, _, _, by decide +kernel, ⟨by decide +kernel, by decide +kernel, by decide +kernel, by decide +kernel⟩, by decide +kernel, by decide +kernel, by decide +kernel, by decide +kernel, by decide +kernel, by decide +kernel, by decide +kernel, by decide +kernel, by decide +kernel, by decide +kernel, by decide +kernel, rfl, by decide +kernel, sound_of _ rfl _ _, rfl, by decide +kernel⟩

set_option maxRecDepth 100000 in
/-- Witness of `PartitionsUnloadStopAndExport`. -/
theorem test_partitionsUnloadStopAndExport_6 : ∃ (s : State) (n : Fin 64) (d : Desc) (g : Nat) (a : Nat) (list : Option (List (Nat × Nat))) (c : _) (x : _) (k : _), (s.coreOf n (d.f 27 1) = some g)
    ∧ (s.CanTell (n.val + 1)) ∧ (s.pstate n = 2 ∨ s.pstate n = 4) ∧ (d.f 18 1 ≤ 1) ∧ (d.f 19 1 ≤ 2) ∧ (d.f 24 1 ≤ 0xB) ∧ (pubKnown (d.f 25 1) = true)
    ∧ (d.f 26 1 ≤ 3) ∧ (d.zero 28 32 = true) ∧ (d.zero 56 64 = true) ∧ (d.f 32 8 + layoutSize (d.f 24 1) (d.f 19 1) (d.f 40 8) (d.f 48 8) ≤ s.levelBound n (g / 16) (d.f 26 1))
    ∧ (d.f 18 1 = 1 → d.f 20 4 + pubSize (d.f 25 1) (d.f 19 1) (d.f 40 8) (d.f 48 8) ≤ stagingOpen) ∧ (d.f 18 1 = 0 → d.f 16 2 ≠ 0
    ∧ d.f 8 8 + 16 * d.f 16 2 ≤ 2 ^ 64) ∧ (a = levelAddr (d.f 26 1) g 0 0 (s.levelBase n (g / 16) (d.f 26 1) + d.f 32 8)) ∧ (bitAt s.sec.shadow.partRules 0 = false)
    ∧ (s.Sound a (layoutSize (d.f 24 1) (d.f 19 1) (d.f 40 8) (d.f 48 8))) ∧ (c = exportTensor (d.f 24 1) (d.f 25 1) (d.f 19 1) (d.f 40 8) (d.f 48 8) (s.rdBytes a (layoutSize (d.f 24 1) (d.f 19 1) (d.f 40 8) (d.f 48 8))))
    ∧ (d.f 18 1 = 0) ∧ (list = some [(x, k)]) ∧ (x + k ≤ 2 ^ 64) ∧ (c.bytes.length ≤ k) ∧ (c.bytes ≠ []) :=
  ⟨(wShm.setPstate 0 2), 0, (dsc [(16, 1), (24, 4), (25, 4), (40, 1), (48, 32)]), 0, _, (some [(4096, 4096)]), _, 4096, 4096, by decide +kernel, ⟨by decide +kernel, by decide +kernel, by decide +kernel, by decide +kernel⟩, by decide +kernel, by decide +kernel, by decide +kernel, by decide +kernel, by decide +kernel, by decide +kernel, by decide +kernel, by decide +kernel, by decide +kernel, by decide +kernel, by decide +kernel, rfl, by decide +kernel, sound_of _ rfl _ _, rfl, by decide +kernel, by decide +kernel, by decide +kernel, by decide +kernel, by decide +kernel⟩

/-- Witness of `RequestsAreSubmittedAndCancelled`. -/
theorem test_requestsAreSubmittedAndCancelled_0 : ∃ (s : State) (d : Desc) (n : Nat), (n = d.f 8 1) ∧ (submitFieldsOk d = true) ∧ (s.CanTell 65)
    ∧ ((∀ r, r ∈ s.serving.requests → r.part = n → r.cmdId ≠ d.cmdId)) ∧ (d.f 16 8 % 4 = 0) ∧ (d.f 40 8 % 4096 = 0) ∧ (d.f 56 8 % 8 = 0)
    ∧ ((s.pstate n ≠ 3 ∨ s.serve n = none)) :=
  ⟨wNoon, (dsc [(0, 16), (8, 0), (9, 4), (10, 0xFFFF), (12, 4), (24, 1), (48, 4)]), 0, by decide +kernel, by decide +kernel, ⟨by decide +kernel, by decide +kernel, by decide +kernel, by decide +kernel⟩, by decide +kernel, by decide +kernel, by decide +kernel, by decide +kernel, by decide +kernel⟩

/-- Witness of `RequestsAreSubmittedAndCancelled`. -/
theorem test_requestsAreSubmittedAndCancelled_1 : ∃ (s : State) (d : Desc) (n : Nat) (v : _), (n = d.f 8 1) ∧ (submitFieldsOk d = true)
    ∧ (s.CanTell 65) ∧ ((∀ r, r ∈ s.serving.requests → r.part = n → r.cmdId ≠ d.cmdId)) ∧ (d.f 16 8 % 4 = 0) ∧ (d.f 40 8 % 4096 = 0)
    ∧ (d.f 56 8 % 8 = 0) ∧ (s.pstate n = 3) ∧ (s.serve n = some v) ∧ (topKOk (some v) (d.f 50 2) = true) ∧ (s.slotOpen n (d.f 10 2) = true)
    ∧ (v.maxCtx ≤ d.f 24 4) :=
  ⟨(wServing [] []), (dsc [(0, 16), (8, 0), (9, 4), (10, 0xFFFF), (12, 4), (24, 128), (48, 4)]), 0, (wServe []), by decide +kernel, by decide +kernel, ⟨by decide +kernel, by decide +kernel, by decide +kernel, by decide +kernel⟩, by decide +kernel, by decide +kernel, by decide +kernel, by decide +kernel, by decide +kernel, by decide +kernel, by decide +kernel, by decide +kernel, by decide +kernel⟩

set_option maxRecDepth 100000 in
/-- Witness of `RequestsAreSubmittedAndCancelled`. -/
theorem test_requestsAreSubmittedAndCancelled_2 : ∃ (s : State) (d : Desc) (n : Nat) (v : _), (n = d.f 8 1) ∧ (submitFieldsOk d = true)
    ∧ (s.CanTell 65) ∧ ((∀ r, r ∈ s.serving.requests → r.part = n → r.cmdId ≠ d.cmdId)) ∧ (d.f 16 8 % 4 = 0) ∧ (d.f 40 8 % 4096 = 0)
    ∧ (d.f 56 8 % 8 = 0) ∧ (s.pstate n = 3) ∧ (s.serve n = some v) ∧ (topKOk (some v) (d.f 50 2) = true) ∧ (s.slotOpen n (d.f 10 2) = true)
    ∧ (d.f 24 4 < v.maxCtx) ∧ (4096 ≤ s.serving.requests.length) :=
  ⟨(wServing [] (List.replicate 4096 (wReq .queued))), (dsc [(0, 16), (8, 0), (9, 4), (10, 0xFFFF), (12, 4), (24, 1), (48, 4)]), 0, (wServe []), by decide +kernel, by decide +kernel, ⟨by decide +kernel, by decide +kernel, by decide +kernel, by decide +kernel⟩, by decide +kernel, by decide +kernel, by decide +kernel, by decide +kernel, by decide +kernel, by decide +kernel, by decide +kernel, by decide +kernel, by decide +kernel, by decide +kernel⟩

/-- Witness of `RequestsAreSubmittedAndCancelled`. -/
theorem test_requestsAreSubmittedAndCancelled_3 : ∃ (s : State) (d : Desc) (n : Nat) (v : _), (n = d.f 8 1) ∧ (submitFieldsOk d = true)
    ∧ (s.CanTell 65) ∧ ((∀ r, r ∈ s.serving.requests → r.part = n → r.cmdId ≠ d.cmdId)) ∧ (d.f 16 8 % 4 = 0) ∧ (d.f 40 8 % 4096 = 0)
    ∧ (d.f 56 8 % 8 = 0) ∧ (s.pstate n = 3) ∧ (s.serve n = some v) ∧ (topKOk (some v) (d.f 50 2) = true) ∧ (s.slotOpen n (d.f 10 2) = true)
    ∧ (d.f 24 4 < v.maxCtx) ∧ (s.serving.requests.length < 4096) ∧ (s.f64 (Reg.topPartQuota n) 24 13 < (s.requestsOf n).length + 1) :=
  ⟨(wServing [] []).w64 (Reg.topPartQuota 0) 0, (dsc [(0, 16), (8, 0), (9, 4), (10, 0xFFFF), (12, 4), (24, 1), (48, 4)]), 0, (wServe []), by decide +kernel, by decide +kernel, ⟨by decide +kernel, by decide +kernel, by decide +kernel, by decide +kernel⟩, by decide +kernel, by decide +kernel, by decide +kernel, by decide +kernel, by decide +kernel, by decide +kernel, by decide +kernel, by decide +kernel, by decide +kernel, by decide +kernel, by decide +kernel⟩

/-- Witness of `RequestsAreSubmittedAndCancelled`. -/
theorem test_requestsAreSubmittedAndCancelled_4 : ∃ (s : State) (d : Desc) (prompt : HostRead) (n : Nat) (v : _) (b : _), (n = d.f 8 1)
    ∧ (submitFieldsOk d = true) ∧ (s.CanTell 65) ∧ ((∀ r, r ∈ s.serving.requests → r.part = n → r.cmdId ≠ d.cmdId)) ∧ (d.f 16 8 % 4 = 0)
    ∧ (d.f 40 8 % 4096 = 0) ∧ (d.f 56 8 % 8 = 0) ∧ (s.pstate n = 3) ∧ (s.serve n = some v) ∧ (topKOk (some v) (d.f 50 2) = true)
    ∧ (s.slotOpen n (d.f 10 2) = true) ∧ (d.f 24 4 < v.maxCtx) ∧ (s.serving.requests.length < 4096)
    ∧ ((s.requestsOf n).length + 1 ≤ s.f64 (Reg.topPartQuota n) 24 13) ∧ (prompt = .bytes b) :=
  ⟨(wServing [] []).w64 (Reg.topPartQuota 0) (4 * 2 ^ 24), (dsc [(0, 16), (8, 0), (9, 4), (10, 0xFFFF), (12, 4), (24, 1), (48, 4)]), (HostRead.bytes [1, 0, 0, 0]), 0, (wServe []), [1, 0, 0, 0], by decide +kernel, by decide +kernel, ⟨by decide +kernel, by decide +kernel, by decide +kernel, by decide +kernel⟩, by decide +kernel, by decide +kernel, by decide +kernel, by decide +kernel, by decide +kernel, by decide +kernel, by decide +kernel, by decide +kernel, by decide +kernel, by decide +kernel, by decide +kernel, by decide +kernel⟩

/-- Witness of `RequestsAreSubmittedAndCancelled`. -/
theorem test_requestsAreSubmittedAndCancelled_5 : ∃ (s : State) (d : Desc) (n : Nat) (id : Nat), (n = d.f 8 1) ∧ (id = d.f 12 4) ∧ (n < 64)
    ∧ (d.zero 9 12 = true) ∧ (d.zero 16 64 = true) ∧ (s.CanTell 65) ∧ ((∀ r, r ∈ s.serving.requests → r.part = n → r.cmdId ≠ id)) :=
  ⟨(wServing [] []), (dsc [(12, 7)]), 0, 7, by decide +kernel, by decide +kernel, by decide +kernel, by decide +kernel, by decide +kernel, ⟨by decide +kernel, by decide +kernel, by decide +kernel, by decide +kernel⟩, by decide +kernel⟩

/-- Witness of `RequestsAreSubmittedAndCancelled`. -/
theorem test_requestsAreSubmittedAndCancelled_6 : ∃ (s : State) (d : Desc) (n : Nat) (id : Nat) (r : _), (n = d.f 8 1) ∧ (id = d.f 12 4)
    ∧ (n < 64) ∧ (d.zero 9 12 = true) ∧ (d.zero 16 64 = true) ∧ (s.CanTell 65) ∧ ((s.requestsOf n).find? (fun r => r.cmdId == id) = some r)
    ∧ (r.state = .queued) ∧ ((∀ v, s.serve n = some v → v.plan = none)) :=
  ⟨(wServing [] [wReq .queued]), (dsc [(12, 7)]), 0, 7, (wReq .queued), by decide +kernel, by decide +kernel, by decide +kernel, by decide +kernel, by decide +kernel, ⟨by decide +kernel, by decide +kernel, by decide +kernel, by decide +kernel⟩, by decide +kernel, by decide +kernel, fun v h => (Option.some.inj ((show State.serve (wServing [] [wReq .queued]) 0 = some (wServe []) from (by decide +kernel)).symm.trans h)) ▸ rfl⟩

/-- Witness of `RequestsAreSubmittedAndCancelled`. -/
theorem test_requestsAreSubmittedAndCancelled_7 : ∃ (s : State) (d : Desc) (n : Nat) (id : Nat) (r : _), (n = d.f 8 1) ∧ (id = d.f 12 4)
    ∧ (n < 64) ∧ (d.zero 9 12 = true) ∧ (d.zero 16 64 = true) ∧ (s.CanTell 65) ∧ ((s.requestsOf n).find? (fun r => r.cmdId == id) = some r)
    ∧ ((r.state = .prefill ∨ r.state = .decode ∨ r.state = .paused)) ∧ (r.ending ≠ some 0x55) :=
  ⟨(wServing [] [wReq .decode]), (dsc [(12, 7)]), 0, 7, (wReq .decode), by decide +kernel, by decide +kernel, by decide +kernel, by decide +kernel, by decide +kernel, ⟨by decide +kernel, by decide +kernel, by decide +kernel, by decide +kernel⟩, by decide +kernel, by decide +kernel, by decide +kernel⟩

/-- Witness of `StepsArePreparedAndTokensWritten`. -/
theorem test_stepsArePreparedAndTokensWritten_0 : ∃ (s : State) (n : Fin 64) (c : Nat) (v : Serve), (s.serve n = some v) ∧ (s.pstate n = 3)
    ∧ (v.plan = none) ∧ (s.suspended n = false) ∧ ((∀ d, d ∈ s.diesOf n → s.ctr (s.ctr0 n d v.outCtr) = s.coresOn n d
    ∧ (s.die d).flagT ≠ c ∧ s.f64 (Reg.cdFlagwin d n) 32 8 + v.outCtr < 256 ∧ s.f64 (Reg.cdFlagwin d n) 32 8 + v.readyCtr < 256 ∧ s.levelBase n d 0 + v.slotArea + 64 * v.slots ≤ 2 ^ 36 ∧ s.levelBase n d 0 + v.prefillArea + 16 * v.rows ≤ 2 ^ 36))
    ∧ (v.outCtr ≠ v.readyCtr) ∧ ((v.slotArea + 64 * v.slots ≤ v.prefillArea ∨ v.prefillArea + 16 * v.rows ≤ v.slotArea)) :=
  ⟨(wServing [] []), 0, 9, (wServe []), by decide +kernel, by decide +kernel, by decide +kernel, by decide +kernel, by decide +kernel, by decide +kernel, by decide +kernel⟩

/-- Witness of `StepsArePreparedAndTokensWritten`. -/
theorem test_stepsArePreparedAndTokensWritten_1 : ∃ (s : State) (n : Fin 64) (v : Serve) (x : TokenRec) (r : Request) (t : _), (s.serve n = some v)
    ∧ (v.records = [x]) ∧ (s.requestsOf n = [r]) ∧ (r.cmdId = x.cmdId) ∧ (exec (.tokenRecordsWrite n) s = .next t) ∧ (s.meter.powered = true) :=
  ⟨(wServing [⟨7, 1, 0, 0, false⟩] [wReq .decode]), 0, (wServe [⟨7, 1, 0, 0, false⟩]), ⟨7, 1, 0, 0, false⟩, (wReq .decode), (nx (exec (.tokenRecordsWrite 0) (wServing [⟨7, 1, 0, 0, false⟩] [wReq .decode]))), by decide +kernel, by decide +kernel, by decide +kernel, by decide +kernel, rfl, by decide +kernel⟩

/-- Witness of `StepsArePreparedAndTokensWritten`. -/
theorem test_stepsArePreparedAndTokensWritten_6 : ∃ (s : State) (n : Fin 64) (v : Serve) (x : TokenRec) (r : Request), (s.serve n = some v)
    ∧ (v.records = [x]) ∧ (s.requestsOf n = [r]) ∧ (r.cmdId = x.cmdId) ∧ (r.state ≠ .ending) :=
  ⟨(wServing [⟨7, 1, 0, 0, false⟩] [wReq .decode]), 0, (wServe [⟨7, 1, 0, 0, false⟩]), ⟨7, 1, 0, 0, false⟩, (wReq .decode), by decide +kernel, by decide +kernel, by decide +kernel, by decide +kernel, by decide +kernel⟩

/-- Witness of `StepsArePreparedAndTokensWritten`. -/
theorem test_stepsArePreparedAndTokensWritten_7 : ∃ (s : State) (n : Fin 64) (v : Serve) (x : TokenRec) (r : Request) (st : _), (s.serve n = some v)
    ∧ (v.records = [x]) ∧ (s.requestsOf n = [r]) ∧ (r.cmdId = x.cmdId) ∧ (r.state = .ending) ∧ (r.ending = some st) ∧ (s.CanTell 65)
    ∧ (r.cmdId < 2 ^ 32) :=
  ⟨(wServing [⟨7, 1, 0, 0, true⟩] [wReq .ending]), 0, (wServe [⟨7, 1, 0, 0, true⟩]), ⟨7, 1, 0, 0, true⟩, (wReq .ending), 0, by decide +kernel, by decide +kernel, by decide +kernel, by decide +kernel, by decide +kernel, by decide +kernel, ⟨by decide +kernel, by decide +kernel, by decide +kernel, by decide +kernel⟩, by decide +kernel⟩

set_option maxRecDepth 100000 in
/-- Witness of `StepsArePreparedAndTokensWritten`. -/
theorem test_stepsArePreparedAndTokensWritten_3 : ∃ (s : State) (n : Fin 64) (v : Serve) (x : TokenRec) (r : Request) (t : _), (s.serve n = some v)
    ∧ (v.records = [x]) ∧ (s.requestsOf n = [r]) ∧ (r.cmdId = x.cmdId) ∧ (exec (.tokenRecordsWrite n) s = .next t) :=
  ⟨(wServing [⟨7, 1, 0, 0, false⟩] [wReq .decode]), 0, (wServe [⟨7, 1, 0, 0, false⟩]), ⟨7, 1, 0, 0, false⟩, (wReq .decode), (nx (exec (.tokenRecordsWrite 0) (wServing [⟨7, 1, 0, 0, false⟩] [wReq .decode]))), by decide +kernel, by decide +kernel, by decide +kernel, by decide +kernel, rfl⟩

/-- Witness of `PartitionsStartEndStopAndArePatched`. -/
theorem test_partitionsStartEndStopAndArePatched_0 : ∃ (s : State) (n : Fin 64) (d : Desc), (d.zero 8 24 = true) ∧ (d.zero 32 64 = true)
    ∧ (s.pstate n = 2) ∧ ((s.part n).startCmd = none) ∧ (s.servingTable n = none) :=
  ⟨(wShm.setPstate 0 2), 0, (dsc [(0, 7)]), by decide +kernel, by decide +kernel, by decide +kernel, by decide +kernel, by decide +kernel⟩

/-- Witness of `PartitionsStartEndStopAndArePatched`. -/
theorem test_partitionsStartEndStopAndArePatched_1 : ∃ (s : State) (n : Fin 64) (d : Desc), (d.zero 8 24 = true) ∧ (d.zero 32 64 = true)
    ∧ (s.pstate n = 2) ∧ ((s.part n).startCmd = none) ∧ (s.servingTable n = some none) ∧ (s.CanTell (n.val + 1)) :=
  ⟨(wShm.setPstate 0 2).store 0 (leBytes 4 0x01565253), 0, (dsc [(0, 7)]), by decide +kernel, by decide +kernel, by decide +kernel, by decide +kernel, by decide +kernel, ⟨by decide +kernel, by decide +kernel, by decide +kernel, by decide +kernel⟩⟩

/-- Witness of `PartitionsStartEndStopAndArePatched`. -/
theorem test_partitionsStartEndStopAndArePatched_2 : ∃ (s : State) (n : Fin 64) (d : Desc) (v : _), (d.zero 8 24 = true) ∧ (d.zero 32 64 = true)
    ∧ (s.pstate n = 2) ∧ ((s.part n).startCmd = none) ∧ (s.servingTable n = some (some v)) :=
  ⟨wTable, 0, (dsc [(0, 7)]), (wServe []), by decide +kernel, by decide +kernel, by decide +kernel, by decide +kernel, by decide +kernel⟩

/-- Witness of `PartitionsStartEndStopAndArePatched`. -/
theorem test_partitionsStartEndStopAndArePatched_3 : ∃ (s : State) (n : Fin 64) (c : Instr) (forced : Bool), (s.pstate n = 3)
    ∧ (((c = .streamEnd n ∧ forced = false ∧ ∀ g, g ∈ s.lcs n → s.coreEnded g = true) ∨ (c = .forcedStop n ∧ forced = true ∧ ∃ id a, (s.part n).stopCmd = some (id, a) ∧ a + 4096 < s.hourCount))) :=
  ⟨wRun, 0, (Instr.streamEnd 0), false, by decide +kernel, Or.inl ⟨rfl, rfl, by decide +kernel⟩⟩

/-- Witness of `PartitionsStartEndStopAndArePatched`. -/
theorem test_partitionsStartEndStopAndArePatched_3_f : ∃ (s : State) (n : Fin 64) (c : Instr) (forced : Bool), (s.pstate n = 3)
    ∧ (((c = .streamEnd n ∧ forced = false ∧ ∀ g, g ∈ s.lcs n → s.coreEnded g = true) ∨ (c = .forcedStop n ∧ forced = true ∧ ∃ id a, (s.part n).stopCmd = some (id, a) ∧ a + 4096 < s.hourCount))) :=
  ⟨((wRun.setPart 0 { stopCmd := some (7, 0) }).w64 Reg.topHourCount 4097), 0, (Instr.forcedStop 0), true, by decide +kernel, Or.inr ⟨rfl, rfl, 7, 0, by decide +kernel, by decide +kernel⟩⟩

/-- Witness of `PartitionsStartEndStopAndArePatched`. -/
theorem test_partitionsStartEndStopAndArePatched_4 : ∃ (s : State) (n : Fin 64) (d : Desc), (1 ≤ d.f 16 2) ∧ (d.f 16 2 ≤ 1024)
    ∧ (d.zero 18 24 = true) ∧ (d.zero 32 64 = true) ∧ (d.f 8 8 % 16 = 0) ∧ (d.f 8 8 + 16 * d.f 16 2 ≤ 2 ^ 64) ∧ (2 ≤ s.pstate n) :=
  ⟨wRun, 0, (dsc [(16, 1)]), by decide +kernel, by decide +kernel, by decide +kernel, by decide +kernel, by decide +kernel, by decide +kernel, by decide +kernel⟩

/-- Witness of `PartitionsStartEndStopAndArePatched`. -/
theorem test_partitionsStartEndStopAndArePatched_5 : ∃ (s : State) (n : Fin 64) (p : _), (s.host.patches.find? (fun p => p.rid == n.val + 1 && decide (p.target + 4096 ≤ s.hourCount)) = some p)
    ∧ (s.CanTell (n.val + 1)) ∧ (p.cmdId < 2 ^ 32) :=
  ⟨({ wNoon.w64 Reg.topHourCount 4096 with host := { wHostIf with rings := wHostIf.rings ++ [(1, { live := true, log2 := 4, cq := 129 })], patches := [⟨1, 7, 0, [], 0⟩] } } : State), 0, ⟨1, 7, 0, [], 0⟩, by decide +kernel, ⟨by decide +kernel, by decide +kernel, by decide +kernel, by decide +kernel⟩, by decide +kernel⟩

/-- Witness of `ReservedAdminOpcodesCompleteWithBadOpcode`. -/
theorem test_reservedAdminOpcodesCompleteWithBadOpcode_0 : ∃ (s : State) (d : Desc), (0x24 ≤ d.f 0 1) ∧ (d.f 0 1 ≤ 0x2F) ∧ (s.host.running = true)
    ∧ ((s.ring 0).live = true) ∧ ((s.ring 0).head ≠ (s.ring 0).tail) ∧ ((s.ring 0).error = false) ∧ (s.CanTell 0)
    ∧ (s.owed 128 < (s.ring 128).freeSlots) ∧ ((bitAt (d.f 1 1) 0 = false ∨ (s.ring 0).taken = [])) ∧ (s.f32 Reg.pwrState 0 2 ≠ 1)
    ∧ (s.power.dusk = none) :=
  ⟨(wNoon.setRing 0 { live := true, log2 := 4, cq := 128, base := 0x1000, tail := 1 }), (dsc [(0, 0x24)]), by decide +kernel, by decide +kernel, by decide +kernel, by decide +kernel, by decide +kernel, by decide +kernel, ⟨by decide +kernel, by decide +kernel, by decide +kernel, by decide +kernel⟩, by decide +kernel, by decide +kernel, by decide +kernel, by decide +kernel⟩


/-! ## WellFormed: an ill-formed term for each check -/

/-- A Dawn that meets nothing, with its fourteen step times. -/
def wTimes : DawnIn := { wDawn with times := List.replicate 14 0 }

/-- A BAR0 offset beyond 32 MiB, a device address of 41 bits, a requester of 6 bits, and accesses without a byte or past the end. -/
theorem test_wellFormed_access :
    ([.registerWrite (.bar0 (2 ^ 25)) false 0 0, .registerWrite (.device 0 (2 ^ 40)) false 0 0, .registerWrite (.device 32 0) false 0 0,
      .serviceAccess (.device 0 0) 0 none 0 0 [], .serviceAccess (.device 0 0) 1 (some []) 0 0 [], .serviceAccess (.device 0 0) 1 none 0 0 [2 ^ 36], .stagingAccess (BitVec.ofNat 29 (2 ^ 29 - 1)) 2 none,
      .stagingAccess 0 0 (some []), .broadcastWrite 0 0 0 [] 0, .flagWrite 0 0 0 0 [] 0, .counterValueWrite 0 0 0 0 [] 0,
      .counterAdd 0 0 0 0 [] 0] : List Instr).all (fun i => !i.wellFormed) = true := by decide +kernel

/-- A Dawn without its step times, with a failing unit of step 0, step 15, kind 7 or unit 4,096, with a fault of core slot 160
or of engine 66, and with a row of another die; and every command that carries a Dawn. -/
theorem test_wellFormed_dawn :
    ([.wakeN wDawn, .wakeN { wTimes with fails := [⟨0, 0, 0, false, 0⟩] }, .wakeN { wTimes with fails := [⟨15, 0, 0, false, 0⟩] },
      .wakeN { wTimes with again := [⟨1, 7, 0, false, 0⟩] }, .wakeN { wTimes with again := [⟨1, 0, 4096, false, 0⟩] },
      .wakeN { wTimes with engFaults := [(160, 0)] }, .wakeN { wTimes with engFaults := [(0, 66)] }, .wakeN { wTimes with rows := [(1, 0)] },
      .wakeN { wTimes with offsets := [[0]] }, .wakeCmd 0 wDawn, .watchdogExpiry 0 wDawn 0, .powerStateEntered wDawn,
      .duskDrainEnd 0 0 0 .whole false wDawn, .wakeTimerExpiry wDawn, .referenceRestored wDawn, .porN (some wDawn) 0, .warmResetN wDawn 0,
      .dawnWatchdogExpiry 0 0 wDawn 0, .failedDawnRestart wDawn, .dawnDone wDawn [] [] 0 0, .powerGoodRise wDawn,
      .alarmTrip (wAlarm [⟨0, 0, 0⟩]), .powerGoodFall 0 0 (wAlarm [])] : List Instr).all (fun i => !i.wellFormed) = true := by decide +kernel

/-- A record of 4,097 bytes. -/
theorem test_wellFormed_record : (Instr.wakeN { wTimes with record := 1 <<< 32768 }).wellFormed = false := by decide +kernel

/-- Alarms and shadow findings without a trip, a rail of 13 bits, readings of the wrong number, and system maps with an
identifier of 13 bits, one twice, a coordinate of 5 bits, and a cut of an identifier of 13 bits. -/
theorem test_wellFormed_alarms :
    ([.alarmTrip { wAlarm [] with dawn := wTimes }, .fuseShadowCheck (some { wAlarm [] with dawn := wTimes }),
      .powerGoodFall 0 4096 { wAlarm [] with dawn := wTimes }, .temperatureSample 8 [] [] [] 0 { wAlarm [] with dawn := wTimes },
      .temperatureSample 0 (List.replicate 24 0) [] [] 0 { wAlarm [] with dawn := wTimes }, .dawnDone wTimes [(4096, 0, 0, 0)] [] 0 0, .dawnDone wTimes [(0, 0, 0, 0), (0, 1, 0, 0)] [] 0 0,
      .dawnDone wTimes [(0, 16, 0, 0)] [] 0 0, .dawnDone wTimes [] [4096] 0 0,
      .twilightWakeComplete [0, 0] 0, .domainResetComplete 0 0 0 0 true] : List Instr).all (fun i => !i.wellFormed) = true := by decide +kernel

/-- Card positions of 25 bits, lines past the end of a level, and offsets that are not aligned. -/
theorem test_wellFormed_cores :
    ([.cardLocalCompletion 0 0 (2 ^ 24) 0, .dmaItemStart 0 0 (2 ^ 24) 0 [], .dmaItemComplete 0 0 (2 ^ 24) 0, .interlockRelease 0 0 (2 ^ 24) 0 0,
      .txnStart (.read 0 (2 ^ 24) 0 0) 0, .shmReadRequest 0 0 0 [], .shmReadRequest 0 0xFFFFFFE0 2 [], .scrubRead 0 0 1 [],
      .eccUncorrectable 0 0 4 false, .swapWindowOpen ⟨2 ^ 16, 0, [], [], 0⟩ 0, .swapWindowOpen ⟨0, 2 ^ 16, [], [], 0⟩ 0,
      .arriveLimitExpiry ⟨2 ^ 16, 0, [], [], 0⟩ 0, .exportData 0 0 (some [(2 ^ 64, 0)]), .stepBoundary 0 0 0 0 [(2 ^ 32, 0)]] :
      List Instr).all (fun i => !i.wellFormed) = true := by decide +kernel

/-- A peer entry of number 1,024, a package of 13 bits, ranks of 13 bits, tags of 15, feed offsets that are not aligned or lie outside staging, and the rest. -/
theorem test_wellFormed_links :
    ([.loadImage 0 0 .failed ⟨[(1024, 0)], []⟩, .loadImage 0 0 .failed ⟨[], [(0, [4096])]⟩, .tclReduceData 0 0 0 4096 false 0, .partialUnitFlush (2 ^ 14) true 0,
      .txnTimeout (2 ^ 14), .quarantineExpiry (2 ^ 14), .feedTimeout 1, .feedTimeout (2 ^ 29), .recordSeal [], .debugResponse [],
      .rdmaWrite 0 (2 ^ 24) 0 0 0 [0], .rdmaWrite 0 0 0 (2 ^ 32) 0 [0], .rdmaWrite 0 0 0 0 0 [], .rdmaRead 0 (2 ^ 24) 0 0 0 1,
      .rdmaRead 0 0 0 (2 ^ 32) 0 1, .rdmaRead 0 0 0 0 0 0, .arp 0 (2 ^ 32), .neighbourDiscovery 0 (2 ^ 128), .echoRequest 0 false (2 ^ 32),
      .echoRequest 0 true (2 ^ 128)] : List Instr).all (fun i => !i.wellFormed) = true := by decide +kernel

/-- Terms that are well formed. -/
theorem test_wellFormed_good :
    ([.wakeN wTimes, .registerWrite (.bar0 (2 ^ 25 - 1)) false 0 0, .serviceAccess (.device 31 0) 1 (some [0]) 0 0 [2 ^ 33], .scrubRead 0 2 32 [],
      .echoRequest 1 true (2 ^ 128 - 1), .alarmTrip { wAlarm [⟨0, 0, 0⟩] with dawn := wTimes }] : List Instr).all Instr.wellFormed = true := by
  decide +kernel

/-- No row of the table has bits: no word spells a command, and the queue stays as it is. -/
theorem test_decode : decodeTableWord 16 5 = none ∧ State.reset.withFetchWord 16 5 = State.reset := ⟨rfl, rfl⟩

/-! ## The spec's worked examples -/

/-- R277: the check value of crc64 over "123456789". -/
theorem test_crc64 : crc64 [0x31, 0x32, 0x33, 0x34, 0x35, 0x36, 0x37, 0x38, 0x39] = 0x6C40DF5F0B497347 := by decide +kernel

/-- FIPS 180-4's SHA-384 of "abc", by which R356, R357 and R501 hash. -/
theorem test_sha384 : leNat (sha384 [0x61, 0x62, 0x63]).reverse =
    0xCB00753F45A35E8BB5A03D699AC65007272C32AB0EDED1631A8B605A43FF5BED8086072BA1E7CC2358BAECA134C825A7 := by decide +kernel

/-- 06: offset 0x1_2345_6A00 of the interleaved view lies on CD5 at 0x2468_AC00. -/
theorem test_interleave : interleave 0x123456A00 = 5 * 2 ^ 36 + 0x2468AC00 := by decide +kernel

/-- 07: core memory and operand buffer of LC21, and the fields of that card's DESC0 and SIGNAL0. -/
theorem test_addresses : levelAddr 1 21 0 0 0x500000 = 0x110F500000 ∧ levelAddr 2 21 0 0 0 = 0x1202800000
    ∧ descLevel 0x8001500000000000 = 2 ∧ descLc 0x8001500000000000 = 21 ∧ descBuf 0x8001500000000000 = 0
    ∧ fld 0xA4A0002900000001 61 2 = 1 ∧ fld 0xA4A0002900000001 51 7 = 20 ∧ fld 0xA4A0002900000001 32 8 = 41 := by decide +kernel

/-- 09: the hold record of 3,000 cycles of an external wait of core 2 at card 900. -/
theorem test_hold : holdRecord ⟨0, 0, 2, 900, 0, none⟩ 3000 = 0x8020000BB8000384 := by decide +kernel

/-- 21: values after reset. -/
theorem test_reset_values : State.reset.r32 Reg.topId = 0x00010100 ∧ State.reset.r32 (Reg.cdSlotMap 7 3) = 0x4688
    ∧ State.reset.r64 Reg.tclCtl = 0x03E80000640400C8 := by decide +kernel

/-- 14: RELAYOUT of a B operand of 8,192 x 2,048 in MXFP4. -/
theorem test_relayout_size : layoutSize 1 1 8192 2048 = 8912896 := by decide +kernel

/-- 15: NB of the example decoder, on one die. -/
theorem test_blocks : (wRun.w64 (Reg.cdPbbShm 0 0) (2048 * 2 ^ 16 + 1040 * 2 ^ 32)).blockCount 0 [152064, 0, 0, 0, 0, 0, 0, 0] = 7171 := by
  decide +kernel

/-- 03: the cell of Table 3-10 in cycle 48 under SAT and under SHIFT, and its rounding in cycle 32. -/
theorem test_long_sum :
    ((({ cells := [{ v := 0x6C0000000091 }], anchor := -20 } : Bank).cycle .sat [[.fin 36 20]] []).cells.map (·.v) = [2 ^ 47 - 1])
    ∧ ((({ cells := [{ v := 0x6C0000000091 }], anchor := -20 } : Bank).cycle .shift [[.fin 36 20]] []).cells.map (·.v) = [0x9000000001])
    ∧ ((({ cells := [{ v := 0x6C0000000090 }], anchor := -20 } : Bank).cycle .sat [[.fin 3 (-22)]] []).cells.map (·.v) = [0x6C0000000091]) := by
  decide +kernel

/-- 04: S of MXFP4, and the tiles of Table 4-4 in FP8 E4M3, BF16 and FP32. -/
theorem test_matrix_times : feedS 1 = 9 ∧ drainLen 6 = 32 ∧ drainLen 8 = 64 ∧ drainLen 10 = 128 := by decide +kernel

/-- 03: an MXINT8 element of -2.0 takes the largest finite magnitude with its sign (R92 item 6). -/
theorem test_mxint8 : toMxElem 5 (-2) 0 none = (0x81, true) ∧ toMxElem 5 (-1) 0 none = (0xC0, false) := by decide +kernel

/-- 09: from node (0, 0) to (1, 2), even lines go along the row first and odd lines along the column (R243). -/
theorem test_paths : linePath (0, 0) (1, 2) 0 = [1, 1, 2] ∧ linePath (0, 0) (1, 2) 1 = [2, 1, 1] ∧ linePath (0, 0) (0, 2) 1 = [1, 1] := by
  decide +kernel

/-- RFC 8878: a frame of one raw block; and XXH64 of no bytes. -/
theorem test_zstd : Zstd.decode [0x28, 0xB5, 0x2F, 0xFD, 0x20, 3, 0x19, 0, 0, 0x61, 0x62, 0x63] = some [0x61, 0x62, 0x63]
    ∧ Zstd.xxh64 [] = 0xEF46DB3751D8E999 := by decide +kernel

/-- FIPS 202's SHAKE256 of no bytes. -/
theorem test_shake : Keccak.shake 136 8 [] = [0x46, 0xB9, 0xDD, 0x2B, 0x0B, 0xA8, 0x8D, 0x13] := by decide +kernel

end Sys2Proof.Tests
end

/-! The scope of the model (00_scope.md): the step, and accesses of registers and memories by address. -/

section

namespace Sys2Proof

/-! ## Register addresses

A register word stands at an offset of region 15 of a die or of the IOD; what an address names follows from die and offset. -/

theorem addrDie_dieBase {d off : Nat} (ho : off < 2 ^ 32) : addrDie (Reg.dieBase d + off) = d := by
  unfold addrDie Reg.dieBase
  omega

theorem addrRegion_dieBase {d off : Nat} (ho : off < 2 ^ 32) : addrRegion (Reg.dieBase d + off) = 15 := by
  unfold addrRegion Reg.dieBase
  omega

theorem addrOffset_dieBase {d off : Nat} (ho : off < 2 ^ 32) : addrOffset (Reg.dieBase d + off) = off := by
  unfold addrOffset Reg.dieBase
  omega

theorem iodBase_eq_dieBase : Reg.iodBase = Reg.dieBase 8 := rfl

theorem Reg.find_dieBase {d off : Nat} (hd : d < 8) (ho : off < 2 ^ 32) :
    Reg.find (Reg.dieBase d + off) = RegRow.find Reg.dieRows off := by
  simp only [Reg.find, addrRegion_dieBase ho, addrDie_dieBase ho, addrOffset_dieBase ho, ne_eq, not_true_eq_false, if_false, if_neg (Nat.ne_of_lt hd),
    if_pos hd]

theorem Reg.find_iodBase {off : Nat} (ho : off < 2 ^ 32) : Reg.find (Reg.iodBase + off) = RegRow.find Reg.iodRows off := by
  simp only [iodBase_eq_dieBase, Reg.find, addrRegion_dieBase ho, addrDie_dieBase ho, addrOffset_dieBase ho, ne_eq, not_true_eq_false, if_false, if_true]

/-- The first offset behind the registers of a row with one index at most. -/
def RegRow.limit (r : RegRow) : Nat := r.base + if r.s1 = 0 then r.bytes else r.s1 * r.n1

theorem RegRow.within_eq_none_of_limit_le {r : RegRow} {off : Nat} (h2 : r.s2 = 0) (h : r.limit ≤ off) : r.within off = none := by
  unfold RegRow.limit at h
  unfold RegRow.within
  split at h
  · next h1 => simp only [h1, h2, if_true, if_neg (show ¬off < r.base by omega), if_neg (show ¬off - r.base < r.bytes by omega)]
  · next h1 =>
    have hx : ¬(off - r.base) / r.s1 < r.n1 := by
      rw [Nat.div_lt_iff_lt_mul (Nat.pos_of_ne_zero h1), Nat.mul_comm]
      omega
    simp only [h1, h2, if_true, if_false, hx, lt_irrefl, ite_self]

theorem RegRow.find_append_of_within_none {l m : List RegRow} {off : Nat} (h : ∀ r ∈ l, r.within off = none) :
    RegRow.find (l ++ m) off = RegRow.find m off := by
  induction l with
  | nil => rfl
  | cons r t ih =>
    rw [List.cons_append, RegRow.find, h r (List.mem_cons_self ..)]
    exact ih (fun x hx => h x (List.mem_cons_of_mem _ hx))

/-- An offset behind every row of a table before row `k` falls in that row, where the row covers it. -/
theorem RegRow.find_of_take {l : List RegRow} {r : RegRow} (k b : Nat) {off x : Nat} (hk : l[k]? = some r)
    (ht : ∀ y ∈ l.take k, y.s2 = 0 ∧ y.limit ≤ b) (hb : b ≤ off) (hw : r.within off = some x) : RegRow.find l off = some (r, x) := by
  have hl : l = l.take k ++ r :: l.drop (k + 1) := by
    obtain ⟨hlt, hr⟩ := List.getElem?_eq_some_iff.1 hk
    rw [← hr, List.cons_getElem_drop_succ, List.take_append_drop]
  rw [hl, RegRow.find_append_of_within_none fun y hy => RegRow.within_eq_none_of_limit_le (ht y hy).1 ((ht y hy).2.trans hb), RegRow.find, hw]

/-- The word at byte offset `x` of register `n` of a row with one index. -/
theorem RegRow.within_of_index {r : RegRow} {n x : Nat} (h2 : r.s2 = 0) (hn : n < r.n1) (hx : x < r.bytes) (hs : r.bytes ≤ r.s1) :
    r.within (r.base + r.s1 * n + x) = some x := by
  have hpos : 0 < r.s1 := by omega
  have he : r.base + r.s1 * n + x - r.base = x + r.s1 * n := by omega
  have hd : (x + r.s1 * n) / r.s1 = n := by rw [Nat.add_mul_div_left _ _ hpos, Nat.div_eq_of_lt (by omega), Nat.zero_add]
  have hm : (x + r.s1 * n) % r.s1 = x := by rw [Nat.add_mul_mod_self_left, Nat.mod_eq_of_lt (by omega)]
  simp only [RegRow.within, if_neg (show ¬r.base + r.s1 * n + x < r.base by omega), he, hd, hm, if_neg (Nat.ne_of_gt hpos), hn, h2, hx, if_true]

/-! Rows of Tables 21-4 and 21-5 that the statements name. -/

/-- The row of TOP_PART_MEMBER_n. -/
abbrev Reg.memberRow : RegRow := ⟨0x10000, 0x100, 64, 0, 1, 16, 0, 0xFFFFFFFFFFFFFFFFFFFFFFFFFFFFFFFF, 0, 0⟩

/-- The row of CD_PBB_SHM_n. -/
abbrev Reg.pbbShmRow : RegRow := ⟨0x1000, 0x20, 64, 0, 1, 8, 0, 0x1FFF1FFF1FFF, 0, 0⟩

/-- The row of CD_PBB_CORE_n. -/
abbrev Reg.pbbCoreRow : RegRow := ⟨0x1008, 0x20, 64, 0, 1, 8, 0, 0x7F007F03FF03FF, 0, 0⟩

/-- The row of CD_COMMON_SHM. -/
abbrev Reg.commonShmRow : RegRow := ⟨0x18, 0, 1, 0, 1, 8, 0, 0x1FFF1FFF, 0, 0⟩

/-- The row of CD_FLAGWIN_n. -/
abbrev Reg.flagwinRow : RegRow := ⟨0x1010, 0x20, 64, 0, 1, 8, 0, 0x1FFFF0001FFFF, 0, 0⟩

/-- The row of CORE_STREAM_c. -/
abbrev Reg.streamRow : RegRow := ⟨0x1000000, 0x10000, 16, 0, 1, 8, 0, 0x1FFFFFF00FFFFFF, 0, 0⟩

/-- The row of FAB_MCAST_t. -/
abbrev Reg.mcastRow : RegRow := ⟨0x101000, 0x20, 256, 0, 1, 32, 0xFFFFFFF800000000000FFFFFFFFFFFFFFFFFFFFFFFFFFFFFFFFFFFFFFFFFFFFF, 0, 0, 0⟩

/-- The row of CORE_ILK_FIRST_c. -/
abbrev Reg.ilkFirstRow : RegRow := ⟨0x1000048, 0x10000, 16, 0, 1, 8, 0, 0, 0x8000000000000000, 0⟩

/-- The row of CORE_DIGEST_CAP_CTL_c. -/
abbrev Reg.digestCapCtlRow : RegRow := ⟨0x1000058, 0x10000, 16, 0, 1, 8, 0x80FFFFFFFFFFFFFF, 0, 0, 0⟩

/-- The row of RTE_PEER_n_e. -/
abbrev Reg.peerRow : RegRow := ⟨0x440000, 0x1000, 64, 4, 1024, 4, 0xBF000FFF, 0, 0, 0⟩

/-- The row of RTE_CTL. -/
abbrev Reg.rteCtlRow : RegRow := ⟨0x400008, 0, 1, 0, 1, 4, 0, 1, 0, 0⟩

/-- The row of TOP_HOUR_CTL. -/
abbrev Reg.hourCtlRow : RegRow := ⟨0x10, 0, 1, 0, 1, 4, 0x1FF00, 0x1F, 0, 0x4010⟩

/-- The row of TOP_ID. -/
abbrev Reg.topIdRow : RegRow := ⟨0, 0, 1, 0, 1, 4, 0, 0, 0, 0x10100⟩

theorem Reg.find_topPartMember (n : Fin 64) (w : Fin 4) : Reg.find (Reg.topPartMember n + 4 * w)
    = some (Reg.memberRow, 4 * w.val) := by
  have ha : Reg.topPartMember n + 4 * w = Reg.iodBase + (0x10000 + 0x100 * n + 4 * w) := by unfold Reg.topPartMember Reg.iodBase; omega
  rw [ha, Reg.find_iodBase (by omega)]
  exact RegRow.find_of_take 5 0x10000 rfl (by decide) (by omega) (RegRow.within_of_index rfl n.2 (by simp only; omega) (by decide))

theorem Reg.find_cdPbbShm (d : Fin 8) (n : Fin 64) : Reg.find (Reg.cdPbbShm d n) = some (Reg.pbbShmRow, 0) := by
  rw [Reg.cdPbbShm, Nat.add_assoc, Reg.find_dieBase d.2 (by omega)]
  exact RegRow.find_of_take 14 0x1000 rfl (by decide) (by omega) (RegRow.within_of_index (r := Reg.pbbShmRow) (x := 0) rfl n.2 (by decide) (by decide))

theorem Reg.dieFind_pbbCore : ∀ n : Fin 64, RegRow.find Reg.dieRows (0x1008 + 0x20 * n) = some (Reg.pbbCoreRow, 0) := by
  decide +kernel

theorem Reg.find_cdPbbCore (d : Fin 8) (n : Fin 64) : Reg.find (Reg.cdPbbCore d n) = some (Reg.pbbCoreRow, 0) := by
  rw [Reg.cdPbbCore, Nat.add_assoc, Reg.find_dieBase d.2 (by omega), Reg.dieFind_pbbCore]

theorem Reg.find_cdCommonShm (d : Fin 8) : Reg.find (Reg.cdCommonShm d) = some (Reg.commonShmRow, 0) := by
  rw [Reg.cdCommonShm, Reg.find_dieBase d.2 (by omega)]
  rfl

theorem Reg.dieFind_flagwin : ∀ (n : Fin 64) (w : Fin 2),
    RegRow.find Reg.dieRows (0x1010 + 0x20 * n + 4 * w) = some (Reg.flagwinRow, 4 * w.val) := by
  decide +kernel

theorem Reg.find_cdFlagwin (d : Fin 8) (n : Fin 64) (w : Fin 2) :
    Reg.find (Reg.cdFlagwin d n + 4 * w) = some (Reg.flagwinRow, 4 * w.val) := by
  rw [Reg.cdFlagwin, Nat.add_assoc, Nat.add_assoc, ← Nat.add_assoc 0x1010, Reg.find_dieBase d.2 (by omega), Reg.dieFind_flagwin]

theorem Reg.find_coreStream (d : Fin 8) (c : Fin 16) (w : Fin 2) :
    Reg.find (Reg.coreStream d c + 4 * w) = some (Reg.streamRow, 4 * w.val) := by
  rw [Reg.coreStream, Nat.add_assoc, Nat.add_assoc, ← Nat.add_assoc 0x1000000, Reg.find_dieBase d.2 (by omega)]
  exact RegRow.find_of_take 27 0x1000000 rfl (by decide) (by omega) (RegRow.within_of_index rfl c.2 (by simp only; omega) (by decide))

theorem Reg.find_fabMcast (d : Fin 8) (e : Fin 256) (w : Fin 8) : Reg.find (Reg.fabMcast d e + 4 * w)
    = some (Reg.mcastRow, 4 * w.val) := by
  rw [Reg.fabMcast, Nat.add_assoc, Nat.add_assoc, ← Nat.add_assoc 0x101000, Reg.find_dieBase d.2 (by omega)]
  exact RegRow.find_of_take 21 0x101000 rfl (by decide) (by omega) (RegRow.within_of_index rfl e.2 (by simp only; omega) (by decide))

theorem Reg.dieFind_ilkFirst : ∀ c : Fin 16, RegRow.find Reg.dieRows (0x1000048 + 0x10000 * c + 4)
    = some (Reg.ilkFirstRow, 4) := by
  decide +kernel

theorem Reg.find_coreIlkFirst (d : Fin 8) (c : Fin 16) :
    Reg.find (Reg.coreIlkFirst d c + 4) = some (Reg.ilkFirstRow, 4) := by
  rw [Reg.coreIlkFirst, Nat.add_assoc, Nat.add_assoc, ← Nat.add_assoc 0x1000048, Reg.find_dieBase d.2 (by omega), Reg.dieFind_ilkFirst]

theorem Reg.dieFind_digestCapCtl : ∀ c : Fin 16, RegRow.find Reg.dieRows (0x1000058 + 0x10000 * c + 4)
    = some (Reg.digestCapCtlRow, 4) := by
  decide +kernel

theorem Reg.find_coreDigestCapCtl (d : Fin 8) (c : Fin 16) :
    Reg.find (Reg.coreDigestCapCtl d c + 4) = some (Reg.digestCapCtlRow, 4) := by
  rw [Reg.coreDigestCapCtl, Nat.add_assoc, Nat.add_assoc, ← Nat.add_assoc 0x1000058, Reg.find_dieBase d.2 (by omega), Reg.dieFind_digestCapCtl]

theorem Reg.find_rtePeer (n : Fin 64) (e : Fin 1024) :
    Reg.find (Reg.rtePeer n e) = some (Reg.peerRow, 0) := by
  have ha : Reg.rtePeer n e = Reg.iodBase + (0x440000 + 0x1000 * n + 4 * e) := by unfold Reg.rtePeer Reg.iodBase; omega
  rw [ha, Reg.find_iodBase (by omega)]
  refine RegRow.find_of_take 45 0x440000 rfl (by decide) (by omega) ?_
  have he : 0x440000 + 0x1000 * n.val + 4 * e.val - 0x440000 = 4 * e + 0x1000 * n := by omega
  have hn : (4 * e.val + 0x1000 * n.val) / 0x1000 = n := by omega
  have hm : (4 * e.val + 0x1000 * n.val) % 0x1000 = 4 * e := by omega
  have hq : 4 * e.val / 4 = e := by omega
  simp only [RegRow.within, if_neg (show ¬0x440000 + 0x1000 * n.val + 4 * e.val < 0x440000 by omega), he, hn, hm, n.2, if_true]
  simp

theorem Reg.find_rteCtl : Reg.find Reg.rteCtl = some (Reg.rteCtlRow, 0) := by decide +kernel

theorem Reg.find_topHourCtl : Reg.find Reg.topHourCtl = some (Reg.hourCtlRow, 0) := by decide +kernel

theorem Reg.find_topId : Reg.find Reg.topId = some (Reg.topIdRow, 0) := by decide +kernel

end Sys2Proof

namespace Sys2Proof.Machine

/-! ## The step -/

theorem step_of_cons {s : State} {c : Instr} {rest : List Instr} (h : s.pending = c :: rest) : step s = exec c { s with pending := rest } := by
  rw [step, h]

theorem step_of_nil {s : State} (h : s.pending = []) : step s = .next s := by rw [step, h]

/-- Settles O1: a step is exec of the front command, and an empty queue idles. -/
theorem stepRunsTheFrontCommand : Obligations.StepRunsTheFrontCommand :=
  ⟨fun _ _ _ => step_of_cons, fun _ => step_of_nil⟩

/-- Whatever the command, exec keeps what its meaning keeps: the queue, what has been sent, the free values drawn and the canonical
form. -/
theorem exec_kept {x s t : State} {i : Instr} (hk : Kept x s) (ek : exec i s = .next t) : Kept x t := by
  cases i with
  | createRing d => exact execCreateRing_kept _ hk ek
  | deleteRing d => exact execDeleteRing_kept _ hk ek
  | resetRing d => exact execResetRing_kept _ hk ek
  | changeSet d list placement => exact execChangeSet_kept _ _ _ hk ek
  | netAddress d => exact execNetAddress_kept _ hk ek
  | netWindow d => exact execNetWindow_kept _ hk ek
  | netClose d => exact execNetClose_kept _ hk ek
  | twilight d => exact execTwilight_kept _ hk ek
  | midnight d => exact execMidnight_kept _ hk ek
  | wakeCmd d x => exact execWakeCmd_kept _ _ hk ek
  | resetDomain d => exact execResetDomain_kept _ hk ek
  | fenceSlot d => exact execFenceSlot_kept _ hk ek
  | jobAbort d => exact execJobAbort_kept _ hk ek
  | jobResume d => exact execJobResume_kept _ hk ek
  | dawnRetry d => exact execDawnRetry_kept _ hk ek
  | tenantSwitch d => exact execTenantSwitch_kept _ hk ek
  | attestLog d => exact execAttestLog_kept _ hk ek
  | fuseProgram d vfuse => exact execFuseProgram_kept _ _ hk ek
  | firmwareUpdate d src => exact execFirmwareUpdate_kept _ _ hk ek
  | muRecords d => exact execMuRecords_kept _ hk ek
  | muAudit d => exact execMuAudit_kept _ hk ek
  | muCert d => exact execMuCert_kept _ hk ek
  | muCalReport d => exact execMuCalReport_kept _ hk ek
  | trustKey d key => exact execTrustKey_kept _ _ hk ek
  | imageFeed d => exact execImageFeed_kept _ hk ek
  | baseLoad d src => exact execBaseLoad_kept _ _ hk ek
  | baseUnload d => exact execBaseUnload_kept _ hk ek
  | repairRequest d => exact execRepairRequest_kept _ hk ek
  | imageRepair d src => exact execImageRepair_kept _ _ hk ek
  | placeCheck n d src => exact execPlaceCheck_kept _ _ _ hk ek
  | loadImage n d src job => exact execLoadImage_kept _ _ _ _ hk ek
  | unloadImage n d => exact execUnloadImage_kept _ _ hk ek
  | adapterLoad n d src => exact execAdapterLoad_kept _ _ _ hk ek
  | adapterUnload n d => exact execAdapterUnload_kept _ _ hk ek
  | startPart n d => exact execStartPart_kept _ _ hk ek
  | stopPart n d => exact execStopPart_kept _ _ hk ek
  | exportData n d list => exact execExportData_kept _ _ _ hk ek
  | patchSet n d list => exact execPatchSet_kept _ _ _ hk ek
  | submit d prompt tick => exact execSubmit_kept _ _ _ hk ek
  | cancel d => exact execCancel_kept _ hk ek
  | doorbell rid off v => exact execDoorbell_kept _ _ _ hk ek
  | descriptorTake rid d => exact execDescriptorTake_kept _ _ hk ek
  | eventWrite => exact execEventWrite_kept hk ek
  | msixHoldoffExpiry rid => exact execMsixHoldoffExpiry_kept _ hk ek
  | enable on => exact execEnable_kept _ hk ek
  | hostInterfaceReady => exact execHostInterfaceReady_kept hk ek
  | errValid => exact execErrValid_kept hk ek
  | functionLevelReset => exact execFunctionLevelReset_kept hk ek
  | hotReset => exact execHotReset_kept hk ek
  | linkDisable => exact execLinkDisable_kept hk ek
  | linkDown => exact execLinkDown_kept hk ek
  | perstN => exact execPerstN_kept hk ek
  | configRequest => exact execConfigRequest_kept hk ek
  | stagingAccess off len w => exact execStagingAccess_kept _ _ _ hk ek
  | serviceAccess v len w t tick upset => exact execServiceAccess_kept _ _ _ _ _ _ hk ek
  | broadcastWrite req region off bs t => exact execBroadcastWrite_kept _ _ _ _ _ hk ek
  | registerWrite v wide x meets => exact execRegisterWrite_kept _ _ _ _ hk ek
  | lowWordRead which v t => exact execLowWordRead_kept _ _ _ hk ek
  | flagWrite req d c n bs t => exact execFlagWrite_kept _ _ _ _ _ _ hk ek
  | counterValueWrite req d c n bs t => exact execCounterValueWrite_kept _ _ _ _ _ _ hk ek
  | counterAdd req d c n bs t => exact execCounterAdd_kept _ _ _ _ _ _ hk ek
  | hourCtlWrite v => exact execHourCtlWrite_kept _ hk ek
  | partMemberWrite n w v => exact execPartMemberWrite_kept _ _ _ hk ek
  | pbbWrite d n which w wide v => exact execPbbWrite_kept _ _ _ _ _ _ hk ek
  | flagwinWrite d n w wide v => exact execFlagwinWrite_kept _ _ _ _ _ hk ek
  | coreStreamWrite d c w wide v => exact execCoreStreamWrite_kept _ _ _ _ _ hk ek
  | mcastEntryWrite d e w wide v => exact execMcastEntryWrite_kept _ _ _ _ _ hk ek
  | peerEntryWrite n e v => exact execPeerEntryWrite_kept _ _ _ hk ek
  | swapTable v => exact execSwapTable_kept _ hk ek
  | ilkFirstRearm d c => exact execIlkFirstRearm_kept _ _ hk ek
  | armCapture d c w wide v => exact execArmCapture_kept _ _ _ _ _ hk ek
  | hourArrival d t => exact execHourArrival_kept _ _ hk ek
  | swapWindowOpen x t => exact execSwapWindowOpen_kept _ _ hk ek
  | arriveLimitExpiry x t => exact execArriveLimitExpiry_kept _ _ hk ek
  | plannedTimeout => exact execPlannedTimeout_kept hk ek
  | patchTimeout n => exact execPatchTimeout_kept _ hk ek
  | forcedStop n => exact execForcedStop_kept _ hk ek
  | jobAbortTimeout n => exact execJobAbortTimeout_kept _ hk ek
  | repairAbandon id => exact execRepairAbandon_kept _ hk ek
  | cardFetch d c t upset => exact execCardFetch_kept _ _ _ _ hk ek
  | nopCard d c t => exact execNopCard_kept _ _ _ hk ek
  | matmul d c t => exact execMatmul_kept _ _ _ hk ek
  | vectorCard d c t => exact execVectorCard_kept _ _ _ hk ek
  | moveCard d c t => exact execMoveCard_kept _ _ _ hk ek
  | multicast d c t => exact execMulticast_kept _ _ _ hk ek
  | reduceCard d c t => exact execReduceCard_kept _ _ _ hk ek
  | digestCard d c t => exact execDigestCard_kept _ _ _ hk ek
  | hourMark d c t => exact execHourMark_kept _ _ _ hk ek
  | cardLocalCompletion d c pos t => exact execCardLocalCompletion_kept _ _ _ _ hk ek
  | streamEnd n => exact execStreamEnd_kept _ hk ek
  | prescan d c e t upset => exact execPrescan_kept _ _ _ _ _ hk ek
  | passStart d c e t upset => exact execPassStart_kept _ _ _ _ _ hk ek
  | accumulationCycle d c e t => exact execAccumulationCycle_kept _ _ _ _ hk ek
  | drainStart d c e t => exact execDrainStart_kept _ _ _ _ hk ek
  | tileComplete d c e t => exact execTileComplete_kept _ _ _ _ hk ek
  | groupEntry d c t upset => exact execGroupEntry_kept _ _ _ _ hk ek
  | groupOutput d c t => exact execGroupOutput_kept _ _ _ hk ek
  | dmaItemStart d c pos t upset => exact execDmaItemStart_kept _ _ _ _ _ hk ek
  | dmaItemComplete d c pos t => exact execDmaItemComplete_kept _ _ _ _ hk ek
  | shmReadRequest d off lines upset => exact execShmReadRequest_kept _ _ _ _ hk ek
  | interlockRelease d c pos e t => exact execInterlockRelease_kept _ _ _ _ _ hk ek
  | scrubRead d region off upset => exact execScrubRead_kept _ _ _ _ hk ek
  | eccUncorrectable d region off feed => exact execEccUncorrectable_kept _ _ _ _ hk ek
  | rewriteComplete id stored => exact execRewriteComplete_kept _ _ hk ek
  | fieldFuseWrite vfuse time => exact execFieldFuseWrite_kept _ _ hk ek
  | vfuseCheck => exact execVfuseCheck_kept hk ek
  | holdStart d t => exact execHoldStart_kept _ _ hk ek
  | holdEnd d t => exact execHoldEnd_kept _ _ hk ek
  | holdLong d t => exact execHoldLong_kept _ _ hk ek
  | hangStop d t time => exact execHangStop_kept _ _ _ hk ek
  | watchdogExpiry which x time => exact execWatchdogExpiry_kept _ _ _ hk ek
  | xingFault d k skew t time => exact execXingFault_kept _ _ _ _ _ hk ek
  | d2dLaneFailure k lane => exact execD2dLaneFailure_kept _ _ hk ek
  | d2dRetrainComplete k ok => exact execD2dRetrainComplete_kept _ _ hk ek
  | d2dAckTimer k => exact execD2dAckTimer_kept _ hk ek
  | d2dWrite k bits may t => exact execD2dWrite_kept _ _ _ _ hk ek
  | d2dReadData k bits may t => exact execD2dReadData_kept _ _ _ _ hk ek
  | d2dReduceData k bits may t => exact execD2dReduceData_kept _ _ _ _ hk ek
  | d2dSignal k bits lc may t => exact execD2dSignal_kept _ _ _ _ _ hk ek
  | d2dReadReq k bits may t => exact execD2dReadReq_kept _ _ _ _ hk ek
  | d2dWriteReport k bits may t => exact execD2dWriteReport_kept _ _ _ _ hk ek
  | d2dCredit k bits => exact execD2dCredit_kept _ _ hk ek
  | d2dAck k bits => exact execD2dAck_kept _ _ hk ek
  | d2dNak k bits => exact execD2dNak_kept _ _ hk ek
  | d2dHour k bits may => exact execD2dHour_kept _ _ _ hk ek
  | d2dIdle k bits => exact execD2dIdle_kept _ _ hk ek
  | tclWrite p bits t => exact execTclWrite_kept _ _ _ hk ek
  | tclReadReq p bits t => exact execTclReadReq_kept _ _ _ hk ek
  | tclSignal p bits t => exact execTclSignal_kept _ _ _ hk ek
  | tclReduceData p bits item rank result t => exact execTclReduceData_kept _ _ _ _ _ _ hk ek
  | tclReadData p bits t => exact execTclReadData_kept _ _ _ hk ek
  | tclWriteReport p bits t => exact execTclWriteReport_kept _ _ _ hk ek
  | tclErrorRsp p bits t => exact execTclErrorRsp_kept _ _ _ hk ek
  | tclLink p bits corrected uncorr => exact execTclLink_kept _ _ _ _ hk ek
  | unitRelease p vc t => exact execUnitRelease_kept _ _ _ hk ek
  | linkUnitTimer p => exact execLinkUnitTimer_kept _ hk ek
  | tclAckTimer p => exact execTclAckTimer_kept _ hk ek
  | nakRepeatTimer p => exact execNakRepeatTimer_kept _ hk ek
  | silentLossReplay p => exact execSilentLossReplay_kept _ hk ek
  | portRetrainComplete p ok => exact execPortRetrainComplete_kept _ _ hk ek
  | tclLaneFailure lane => exact execTclLaneFailure_kept _ hk ek
  | laneReplacementComplete p => exact execLaneReplacementComplete_kept _ hk ek
  | txnStart x t => exact execTxnStart_kept _ _ hk ek
  | partialUnitFlush tag last t => exact execPartialUnitFlush_kept _ _ _ hk ek
  | txnTimeout tag => exact execTxnTimeout_kept _ hk ek
  | quarantineExpiry tag => exact execQuarantineExpiry_kept _ hk ek
  | sleepIdleExpiry p => exact execSleepIdleExpiry_kept _ hk ek
  | sleepEntryComplete p => exact execSleepEntryComplete_kept _ hk ek
  | portWake p signalled => exact execPortWake_kept _ _ hk ek
  | portWakeComplete p => exact execPortWakeComplete_kept _ hk ek
  | stepBoundary n t tick fit heads => exact execStepBoundary_kept _ _ _ _ _ hk ek
  | tokenRecordsWrite n => exact execTokenRecordsWrite_kept _ hk ek
  | loadComplete n => exact execLoadComplete_kept _ hk ek
  | feedTimeout off => exact execFeedTimeout_kept _ hk ek
  | powerStateEntered x => exact execPowerStateEntered_kept _ hk ek
  | duskDrainEnd t tick time vfuse bad x => exact execDuskDrainEnd_kept _ _ _ _ _ _ hk ek
  | wakeN x => exact execWakeN_kept _ hk ek
  | wakeTimerExpiry x => exact execWakeTimerExpiry_kept _ hk ek
  | referenceLost => exact execReferenceLost_kept hk ek
  | referenceRestored x => exact execReferenceRestored_kept _ hk ek
  | droopTrip d t => exact execDroopTrip_kept _ _ hk ek
  | droopRelease d t => exact execDroopRelease_kept _ _ hk ek
  | guardTrip fast slow => exact execGuardTrip_kept _ _ hk ek
  | temperatureSample d readings averages ages time x => exact execTemperatureSample_kept _ _ _ _ _ _ hk ek
  | powerGoodFall rail mv x => exact execPowerGoodFall_kept _ _ _ hk ek
  | porN x time => exact execPorN_kept _ _ hk ek
  | warmResetN x time => exact execWarmResetN_kept _ _ hk ek
  | dawnWatchdogExpiry kind unit x time => exact execDawnWatchdogExpiry_kept _ _ _ _ hk ek
  | failedDawnRestart x => exact execFailedDawnRestart_kept _ hk ek
  | fenceDrained n => exact execFenceDrained_kept _ hk ek
  | alarmTrip x => exact execAlarmTrip_kept _ hk ek
  | fuseShadowCheck finding => exact execFuseShadowCheck_kept _ hk ek
  | debugGrant tick => exact execDebugGrant_kept _ hk ek
  | challengeExpiry => exact execChallengeExpiry_kept hk ek
  | getVersion => exact execGetVersion_kept hk ek
  | getCapabilities => exact execGetCapabilities_kept hk ek
  | negotiateAlgorithms common => exact execNegotiateAlgorithms_kept _ hk ek
  | getDigests => exact execGetDigests_kept hk ek
  | getCertificate slot off len => exact execGetCertificate_kept _ _ _ hk ek
  | spdmChallenge slot summary context => exact execSpdmChallenge_kept _ _ _ hk ek
  | getMeasurements index signed context => exact execGetMeasurements_kept _ _ _ hk ek
  | keyExchange slot reqId summary => exact execKeyExchange_kept _ _ _ hk ek
  | spdmFinish id ok => exact execSpdmFinish_kept _ _ hk ek
  | spdmHeartbeat id late => exact execSpdmHeartbeat_kept _ _ hk ek
  | keyUpdate id op tag => exact execKeyUpdate_kept _ _ _ hk ek
  | endSession id => exact execEndSession_kept _ hk ek
  | muPowerUp fault => exact execMuPowerUp_kept _ hk ek
  | muClockSwitch own tick => exact execMuClockSwitch_kept _ _ hk ek
  | secondBoundary tick => exact execSecondBoundary_kept _ hk ek
  | lateClose tick => exact execLateClose_kept _ hk ek
  | recordSeal energies => exact execRecordSeal_kept _ hk ek
  | trstN => exact execTrstN_kept hk ek
  | jtagBypass => exact execJtagBypass_kept hk ek
  | idcode => exact execIdcode_kept hk ek
  | samplePreload levels cells => exact execSamplePreload_kept _ _ hk ek
  | extest levels cells => exact execExtest_kept _ _ hk ek
  | clamp => exact execClamp_kept hk ek
  | highz => exact execHighz_kept hk ek
  | extestPulse levels cells => exact execExtestPulse_kept _ _ hk ek
  | extestTrain levels cells => exact execExtestTrain_kept _ _ hk ek
  | statusRead shift => exact execStatusRead_kept _ hk ek
  | journalRead index => exact execJournalRead_kept _ hk ek
  | meterRead sel => exact execMeterRead_kept _ hk ek
  | debugChallenge => exact execDebugChallenge_kept hk ek
  | debugResponse bytes => exact execDebugResponse_kept _ hk ek
  | jtagAccess window => exact execJtagAccess_kept _ hk ek
  | jtagAccessComplete t tick => exact execJtagAccessComplete_kept _ _ hk ek
  | dieBist x => exact execDieBist_kept _ hk ek
  | dieBistComplete pass t time => exact execDieBistComplete_kept _ _ _ hk ek
  | scanIod => exact execScanIod_kept hk ek
  | scanCd => exact execScanCd_kept hk ek
  | fuseProd => exact execFuseProd_kept hk ek
  | rdmaWrite port qpn peer rkey off data => exact execRdmaWrite_kept _ _ _ _ _ _ hk ek
  | rdmaRead port qpn peer rkey off len => exact execRdmaRead_kept _ _ _ _ _ _ hk ek
  | arp port addr => exact execArp_kept _ _ hk ek
  | neighbourDiscovery port addr => exact execNeighbourDiscovery_kept _ _ hk ek
  | echoRequest port six addr => exact execEchoRequest_kept _ _ _ hk ek
  | unsupportedFrame port => exact execUnsupportedFrame_kept _ hk ek
  | dawnDone x map cut t tick => exact execDawnDone_kept _ _ _ _ _ hk ek
  | twilightWakeComplete bad tick => exact execTwilightWakeComplete_kept _ _ hk ek
  | domainResetComplete dom d k slot pass => exact execDomainResetComplete_kept _ _ _ _ _ hk ek
  | powerGoodRise x => exact execPowerGoodRise_kept _ hk ek
  | perstNRelease => exact execPerstNRelease_kept hk ek
  | pcieLinkUp => exact execPcieLinkUp_kept hk ek
  | vddAonRemoval => exact execVddAonRemoval_kept hk ek
  | vddMuRemoval => exact execVddMuRemoval_kept hk ek
  | wakeReferenceTimeout => exact execWakeReferenceTimeout_kept hk ek
/-- Settles O4: seen from the state with the queue's rest, the front command keeps queue, outputs and free values. -/
theorem everyStepTakesOneCommand : Obligations.EveryStepTakesOneCommand := by
  intro s t h
  cases hp : s.pending with
  | nil =>
    rw [step_of_nil hp, Host.Outcome.next.injEq] at h
    subst h
    exact ⟨hp, List.prefix_rfl, le_rfl⟩
  | cons c rest =>
    rw [step_of_cons hp] at h
    obtain ⟨-, hfree, hout, hpending⟩ := exec_kept (Kept.refl { s with pending := rest }) h
    exact ⟨hpending, hout, hfree⟩

/-! ## What an address locks

One register word falls under one lock at most: that of a partition's membership, bounds or peer table, of a core's stream, of a multicast
entry, or of a die's common range. -/

theorem memberOf_dieBase {d off : Nat} (hd : d < 8) (ho : off < 2 ^ 32) : memberOf (Reg.dieBase d + off) = none := by
  unfold memberOf Reg.dieBase Reg.topPartMember
  rw [if_neg (by omega)]

theorem peerOf_dieBase {d off : Nat} (hd : d < 8) (ho : off < 2 ^ 32) : peerOf (Reg.dieBase d + off) = none := by
  unfold peerOf Reg.dieBase Reg.rtePeer
  rw [if_neg (by omega)]

theorem boundOf_dieBase {d off : Nat} (ho : off < 2 ^ 32) : boundOf (Reg.dieBase d + off)
    = if d < 8 ∧ 0x1000 ≤ off ∧ off < 0x1800 ∧ (off - 0x1000) % 0x20 < 0x18 then some (d, (off - 0x1000) / 0x20) else none := by
  simp only [boundOf, addrRegion_dieBase ho, addrDie_dieBase ho, addrOffset_dieBase ho, true_and]

theorem streamOf_dieBase {d off : Nat} (ho : off < 2 ^ 32) : streamOf (Reg.dieBase d + off)
    = if d < 8 ∧ 0x1000000 ≤ off ∧ off < 0x1100000 ∧ off % 0x10000 < 8 then some (16 * d + (off - 0x1000000) / 0x10000) else none := by
  simp only [streamOf, addrRegion_dieBase ho, addrDie_dieBase ho, addrOffset_dieBase ho, true_and]

theorem mcastOf_dieBase {d off : Nat} (ho : off < 2 ^ 32) : mcastOf (Reg.dieBase d + off)
    = if d < 8 ∧ 0x101000 ≤ off ∧ off < 0x103000 then some (d, (off - 0x101000) / 0x20) else none := by
  simp only [mcastOf, addrRegion_dieBase ho, addrDie_dieBase ho, addrOffset_dieBase ho, true_and]

theorem commonOf_dieBase {d off : Nat} (ho : off < 2 ^ 32) : commonOf (Reg.dieBase d + off)
    = if d < 8 ∧ 0x18 ≤ off ∧ off < 0x20 then some d else none := by
  simp only [commonOf, addrRegion_dieBase ho, addrDie_dieBase ho, addrOffset_dieBase ho, true_and]

theorem captureOf_dieBase {d off : Nat} (ho : off < 2 ^ 32) : captureOf (Reg.dieBase d + off)
    = if d < 8 ∧ 0x1000000 ≤ off ∧ off < 0x1100000 ∧ 0x58 ≤ off % 0x10000 ∧ off % 0x10000 < 0x60 then some (16 * d + (off - 0x1000000) / 0x10000)
      else none := by
  simp only [captureOf, addrRegion_dieBase ho, addrDie_dieBase ho, addrOffset_dieBase ho, true_and]

/-! ### The lock that holds, by what the address names -/

section

variable (s : State) {a : Nat}

theorem State.ignoredWrite_of_member {n : Nat} (h1 : memberOf a = some n) (h : s.locked n = false) : s.ignoredWrite false a = none := by
  simp [State.ignoredWrite, h1, h]

theorem State.ignoredWrite_of_peer {n : Nat} (h1 : memberOf a = none) (h2 : peerOf a = some n) (h : s.loadedOrRunning n = false) :
    s.ignoredWrite false a = none := by
  simp [State.ignoredWrite, h1, h2, h]

theorem State.ignoredWrite_of_bound {d n : Nat} (h1 : memberOf a = none) (h2 : peerOf a = none) (h3 : boundOf a = some (d, n))
    (h : s.locked n = false) : s.ignoredWrite false a = none := by
  simp [State.ignoredWrite, h1, h2, h3, h]

theorem State.ignoredWrite_of_stream {g : Nat} (h1 : memberOf a = none) (h2 : peerOf a = none) (h3 : boundOf a = none) (h4 : streamOf a = some g)
    (h : ∀ n, s.owner g = some n → s.loadedOrRunning n = false) : s.ignoredWrite false a = none := by
  cases hown : s.owner g with
  | none => simp [State.ignoredWrite, h1, h2, h3, h4, hown]
  | some n => simp [State.ignoredWrite, h1, h2, h3, h4, hown, h n hown]

theorem State.ignoredWrite_of_mcast {d e : Nat} (h1 : memberOf a = none) (h2 : peerOf a = none) (h3 : boundOf a = none) (h4 : streamOf a = none)
    (h5 : mcastOf a = some (d, e)) (h : s.loadedOrRunning (s.mcastOwner d e) = false) : s.ignoredWrite false a = none := by
  simp [State.ignoredWrite, h1, h2, h3, h4, h5, h]

theorem State.ignoredWrite_of_common {d : Nat} (h1 : memberOf a = none) (h2 : peerOf a = none) (h3 : boundOf a = none) (h4 : streamOf a = none)
    (h5 : mcastOf a = none) (h6 : commonOf a = some d) (h : s.dieBusy d = false) : s.ignoredWrite false a = none := by
  simp [State.ignoredWrite, h1, h2, h3, h4, h5, h6, h]

theorem State.ignoredWrite_of_none (h1 : memberOf a = none) (h2 : peerOf a = none) (h3 : boundOf a = none) (h4 : streamOf a = none)
    (h5 : mcastOf a = none) (h6 : commonOf a = none) : s.ignoredWrite false a = none := by
  simp [State.ignoredWrite, h1, h2, h3, h4, h5, h6]

end

/-! ### The locks of the registers that the statements name -/

/-- A word of the IOD outside the membership masks and the peer tables falls under no lock. -/
theorem State.ignoredWrite_iod (s : State) {off : Nat} (ho : off < 2 ^ 32) (hm : off < 0x10000 ∨ 0x14000 ≤ off)
    (hp : off < 0x440000 ∨ 0x480000 ≤ off) : s.ignoredWrite false (Reg.iodBase + off) = none := by
  refine s.ignoredWrite_of_none ?_ ?_ ?_ ?_ ?_ ?_
  · unfold memberOf Reg.iodBase Reg.topPartMember
    rw [if_neg (by omega)]
  · unfold peerOf Reg.iodBase Reg.rtePeer
    rw [if_neg (by omega)]
  · rw [iodBase_eq_dieBase, boundOf_dieBase ho, if_neg (by omega)]
  · rw [iodBase_eq_dieBase, streamOf_dieBase ho, if_neg (by omega)]
  · rw [iodBase_eq_dieBase, mcastOf_dieBase ho, if_neg (by omega)]
  · rw [iodBase_eq_dieBase, commonOf_dieBase ho, if_neg (by omega)]

theorem captureOf_iod {off : Nat} (ho : off < 2 ^ 32) : captureOf (Reg.iodBase + off) = none := by
  rw [iodBase_eq_dieBase, captureOf_dieBase ho, if_neg (by omega)]

theorem State.ignoredWrite_member (s : State) (n : Fin 64) (w : Fin 4) (h : s.locked n = false) :
    s.ignoredWrite false (Reg.topPartMember n + 4 * w.val) = none := by
  refine s.ignoredWrite_of_member (n := n.val) ?_ h
  unfold memberOf Reg.topPartMember
  rw [if_pos (by omega)]
  congr 1
  omega

theorem State.ignoredWrite_peer (s : State) (n : Fin 64) (e : Fin 1024) (h : s.loadedOrRunning n = false) :
    s.ignoredWrite false (Reg.rtePeer n e) = none := by
  refine s.ignoredWrite_of_peer (n := n.val) ?_ ?_ h
  · unfold memberOf Reg.topPartMember Reg.rtePeer
    rw [if_neg (by omega)]
  · unfold peerOf Reg.rtePeer
    rw [if_pos (by omega)]
    congr 1
    omega

/-- The words of CD_PBB_SHM_n, CD_PBB_CORE_n and CD_FLAGWIN_n fall under the lock of partition `n`. -/
theorem State.ignoredWrite_bound (s : State) (d : Fin 8) (n : Fin 64) {y : Nat} (hy : y < 0x18) (h : s.locked n = false) :
    s.ignoredWrite false (Reg.dieBase d + (0x1000 + 0x20 * n.val + y)) = none := by
  have ho : 0x1000 + 0x20 * n.val + y < 2 ^ 32 := by omega
  refine s.ignoredWrite_of_bound (d := d) (n := n) (memberOf_dieBase d.2 ho) (peerOf_dieBase d.2 ho) ?_ h
  rw [boundOf_dieBase ho, if_pos (by omega)]
  congr 2
  omega

theorem State.ignoredWrite_stream (s : State) (d : Fin 8) (c : Fin 16) (w : Fin 2)
    (h : ∀ n, s.owner (16 * d.val + c.val) = some n → s.loadedOrRunning n = false) :
    s.ignoredWrite false (Reg.dieBase d + (0x1000000 + 0x10000 * c.val + 4 * w.val)) = none := by
  have ho : 0x1000000 + 0x10000 * c.val + 4 * w.val < 2 ^ 32 := by omega
  refine s.ignoredWrite_of_stream (memberOf_dieBase d.2 ho) (peerOf_dieBase d.2 ho) ?_ ?_ h
  · rw [boundOf_dieBase ho, if_neg (by omega)]
  · rw [streamOf_dieBase ho, if_pos (by omega)]
    congr 1
    omega

theorem State.ignoredWrite_mcast (s : State) (d : Fin 8) (e : Fin 256) (w : Fin 8) (h : s.loadedOrRunning (s.mcastOwner d e) = false) :
    s.ignoredWrite false (Reg.dieBase d + (0x101000 + 0x20 * e.val + 4 * w.val)) = none := by
  have ho : 0x101000 + 0x20 * e.val + 4 * w.val < 2 ^ 32 := by omega
  refine s.ignoredWrite_of_mcast (d := d) (e := e) (memberOf_dieBase d.2 ho) (peerOf_dieBase d.2 ho) ?_ ?_ ?_ h
  · rw [boundOf_dieBase ho, if_neg (by omega)]
  · rw [streamOf_dieBase ho, if_neg (by omega)]
  · rw [mcastOf_dieBase ho, if_pos (by omega)]
    congr 2
    omega

theorem State.ignoredWrite_common (s : State) (d : Fin 8) (h : s.dieBusy d = false) : s.ignoredWrite false (Reg.cdCommonShm d) = none := by
  have ho : 0x18 < 2 ^ 32 := by decide
  refine s.ignoredWrite_of_common (d := d) (memberOf_dieBase d.2 ho) (peerOf_dieBase d.2 ho) ?_ ?_ ?_ ?_ h
  · rw [Reg.cdCommonShm, boundOf_dieBase ho, if_neg (by omega)]
  · rw [Reg.cdCommonShm, streamOf_dieBase ho, if_neg (by omega)]
  · rw [Reg.cdCommonShm, mcastOf_dieBase ho, if_neg (by omega)]
  · rw [Reg.cdCommonShm, commonOf_dieBase ho, if_pos (by omega)]

/-- The words of the capture control and of CORE_ILK_FIRST fall under no lock. -/
theorem State.ignoredWrite_coreFree (s : State) (d : Fin 8) {off : Nat} (h1 : 0x1000000 ≤ off) (h2 : off < 0x1100000) (h : 8 ≤ off % 0x10000) :
    s.ignoredWrite false (Reg.dieBase d + off) = none := by
  have ho : off < 2 ^ 32 := by omega
  refine s.ignoredWrite_of_none (memberOf_dieBase d.2 ho) (peerOf_dieBase d.2 ho) ?_ ?_ ?_ ?_
  · rw [boundOf_dieBase ho, if_neg (by omega)]
  · rw [streamOf_dieBase ho, if_neg (by omega)]
  · rw [mcastOf_dieBase ho, if_neg (by omega)]
  · rw [commonOf_dieBase ho, if_neg (by omega)]

/-! ## Writing a register word -/

/-- A write of a register without writable bits changes nothing. -/
theorem State.writeReg_readOnly (s : State) {a x : Nat} {r : RegRow} (v : Nat) (hf : Reg.find a = some (r, x)) (h1 : r.rw = 0) (h2 : r.w1c = 0)
    (h3 : r.rwh = 0) : s.writeReg a v = s := by
  simp [State.writeReg, State.writeNow, State.writeStaged, hf, h1, h2, h3]

/-- A write of a register of RWH fields that nothing locks stages the writable bits of the word. -/
theorem State.writeReg_staged (s : State) {a x : Nat} {r : RegRow} (v : Nat) (hf : Reg.find a = some (r, x)) (h1 : r.rw = 0) (h2 : r.w1c = 0)
    (hm : wordMask r.rwh x ≠ 0) (ha : a ≠ Reg.topHourCtl) (hi : s.ignoredWrite false a = none) :
    s.writeReg a v = s.stage a (BitVec.ofNat 32 v &&& wordMask r.rwh x).toNat := by
  have h3 : r.rwh ≠ 0 := by
    rintro h
    exact hm (by rw [h]; simp [wordMask])
  simp only [State.writeReg, State.writeNow, State.writeStaged, hf, h1, h2, h3, hm, ha, hi, and_self, if_true, if_false]

/-- The word that RW and W1C bits have after a write of `v`. -/
def writtenWord (r : RegRow) (x : Nat) (cur v : W32) : W32 :=
  (cur &&& ~~~wordMask r.rw x ||| v &&& wordMask r.rw x) &&& ~~~(v &&& wordMask r.w1c x)

/-- A word without W1C bits takes the RW bits of what is written. -/
theorem writtenWord_rw {r : RegRow} {x : Nat} {m : W32} (cur v : W32) (h : wordMask r.rw x = m) (h1 : wordMask r.w1c x = 0#32) :
    writtenWord r x cur v = v &&& m ||| cur &&& ~~~m := by
  rw [writtenWord, h, h1, BitVec.and_zero, BitVec.not_zero, BitVec.and_allOnes, BitVec.or_comm]

/-- A field of a word as the field cut out. -/
theorem fld_toNat (x : W32) (lo w : Nat) : fld x.toNat lo w = (x.extractLsb' lo w).toNat := by
  rw [BitVec.extractLsb'_toNat, Nat.shiftRight_eq_div_pow]
  rfl

/-- A field inside the mask takes what is written. -/
theorem fld_masked {m : W32} {lo w : Nat} (cur v : W32) (h : m.extractLsb' lo w = BitVec.allOnes w) (h' : (~~~m).extractLsb' lo w = 0#w) :
    fld (v &&& m ||| cur &&& ~~~m).toNat lo w = fld v.toNat lo w := by
  rw [fld_toNat, fld_toNat, BitVec.extractLsb'_or, BitVec.extractLsb'_and, BitVec.extractLsb'_and, h, h', BitVec.and_allOnes, BitVec.and_zero,
    BitVec.or_zero]

/-- A field outside the mask stays. -/
theorem fld_unmasked {m : W32} {lo w : Nat} (cur v : W32) (h : m.extractLsb' lo w = 0#w) (h' : (~~~m).extractLsb' lo w = BitVec.allOnes w) :
    fld (v &&& m ||| cur &&& ~~~m).toNat lo w = fld cur.toNat lo w := by
  rw [fld_toNat, fld_toNat, BitVec.extractLsb'_or, BitVec.extractLsb'_and, BitVec.extractLsb'_and, h, h', BitVec.and_allOnes, BitVec.and_zero,
    BitVec.zero_or]

/-- The RW and W1C bits of a register that nothing locks act at once. -/
theorem State.writeNow_eq (s : State) {a x : Nat} {r : RegRow} (v : Nat) (hf : Reg.find a = some (r, x)) (hw : r.rw ≠ 0 ∨ r.w1c ≠ 0)
    (hi : r.rw ≠ 0 → s.ignoredWrite false a = none) (hc : captureOf a = none) :
    s.writeNow false a v = s.w32 a (writtenWord r x (BitVec.ofNat 32 (s.r32 a)) (BitVec.ofNat 32 v)).toNat := by
  have hg : (if r.rw = 0 then none else s.ignoredWrite false a) = none := by
    split
    · rfl
    · next h => exact hi h
  simp only [State.writeNow, hf, hg, hc, if_neg (show ¬(r.rw = 0 ∧ r.w1c = 0) by tauto)]
  rfl

/-- A word without RWH bits, outside TOP_HOUR_CTL, stages nothing. -/
theorem State.writeStaged_eq_self (s : State) {a x : Nat} {r : RegRow} (v : Nat) (hf : Reg.find a = some (r, x)) (hm : wordMask r.rwh x = 0)
    (ha : a ≠ Reg.topHourCtl) (hi : r.rwh ≠ 0 → s.ignoredWrite false a = none) : s.writeStaged false a v = s := by
  by_cases h : r.rwh = 0
  · simp [State.writeStaged, hf, h]
  · simp [State.writeStaged, hf, h, hm, ha, hi h]

/-- The registers with no action of their own beside taking the word: those below the host interface and those behind its MSI-X table. -/
theorem State.putRegister_eq_writeReg (s : State) {a : Nat} (v : Nat) (hA : s.onAbsent a = false) (h : a < Reg.hstCtl ∨ Reg.msixPba ≤ a) :
    s.putRegister a v = s.writeReg a v := by
  have h1 : ¬a = Reg.hstCtl := by unfold Reg.hstCtl Reg.msixPba at *; omega
  have h2 : ¬a = Reg.hstErrInfo := by unfold Reg.hstCtl Reg.hstErrInfo Reg.msixPba at *; omega
  have h3 : ¬(Reg.hstAdminSq ≤ a ∧ a < Reg.hstAdminCq + 8) := by unfold Reg.hstCtl Reg.hstAdminSq Reg.hstAdminCq Reg.msixPba at *; omega
  have h4 : maskOf a = none := by
    unfold maskOf
    rw [if_neg]
    unfold Reg.hstCtl Reg.msixEntry Reg.msixPba at *
    omega
  simp [State.putRegister, hA, h1, h2, h3, h4]

theorem State.onAbsent_of_present (s : State) {a : Nat} (h : (s.die (addrDie a)).cond ≠ .absent) : s.onAbsent a = false := by
  simp [State.onAbsent, State.dieAbsent, h]

theorem State.onAbsent_iod (s : State) {a : Nat} (h : Reg.iodBase ≤ a) : s.onAbsent a = false := by
  have : ¬addrDie a < 8 := by unfold addrDie Reg.iodBase at *; omega
  simp [State.onAbsent, this]

/-- A register word of a present die takes what is written to it. -/
theorem State.putRegister_die (s : State) (d : Fin 8) {off : Nat} (v : Nat) (ho : off < 2 ^ 32) (hd : (s.die d).cond ≠ .absent) :
    s.putRegister (Reg.dieBase d + off) v = s.writeReg (Reg.dieBase d + off) v := by
  refine s.putRegister_eq_writeReg v (s.onAbsent_of_present (by rwa [addrDie_dieBase ho])) (Or.inl ?_)
  unfold Reg.dieBase Reg.hstCtl
  omega

/-- A word of an IOD register outside the host interface takes what is written to it. -/
theorem State.putRegister_iod (s : State) {off : Nat} (v : Nat) (h : off < 0x100000 ∨ 0x102000 ≤ off) :
    s.putRegister (Reg.iodBase + off) v = s.writeReg (Reg.iodBase + off) v := by
  refine s.putRegister_eq_writeReg v (s.onAbsent_iod (by omega)) ?_
  unfold Reg.iodBase Reg.hstCtl Reg.msixPba
  omega

/-- A write of one word of a register of several. -/
theorem State.putPart_one (s : State) (a w v : Nat) : s.putPart a w false v = s.putRegister (a + 4 * w) (v % 2 ^ 32) := rfl

theorem ofNat_toNat_mod (v : BitVec 64) : BitVec.ofNat 32 (v.toNat % 2 ^ 32) = v.setWidth 32 := by
  apply BitVec.eq_of_toNat_eq
  simp

/-- A write of one word of a die's register that stages its RWH bits. -/
theorem State.putPart_staged (s : State) (d : Fin 8) {off w x : Nat} {r : RegRow} (v : BitVec 64) (ho : off + 4 * w < 2 ^ 32)
    (hd : (s.die d).cond ≠ .absent) (hf : Reg.find (Reg.dieBase d + (off + 4 * w)) = some (r, x)) (h1 : r.rw = 0) (h2 : r.w1c = 0)
    (hm : wordMask r.rwh x ≠ 0) (hi : s.ignoredWrite false (Reg.dieBase d + (off + 4 * w)) = none) :
    s.putPart (Reg.dieBase d + off) w false v.toNat = s.stage (Reg.dieBase d + off + 4 * w) (v.setWidth 32 &&& wordMask r.rwh x).toNat := by
  have ha : Reg.dieBase d + (off + 4 * w) ≠ Reg.topHourCtl := by unfold Reg.dieBase Reg.topHourCtl; omega
  rw [State.putPart_one, Nat.add_assoc, s.putRegister_die d _ ho hd, s.writeReg_staged _ hf h1 h2 hm ha hi, ofNat_toNat_mod]

/-- What staging one word leaves: that word staged, every other staged word and everything else as it was. -/
theorem State.stage_frame (s : State) (a : Nat) (v : W32) :
    s.stage a v.toNat = { s with staged := (s.stage a v.toNat).staged }
      ∧ ∀ b, (s.stage a v.toNat).stagedAt b = if b = a then some v else s.stagedAt b := by
  refine ⟨rfl, fun b => ?_⟩
  split
  · next h =>
    subst h
    rw [State.stagedAt_stage_same, BitVec.ofNat_toNat, BitVec.setWidth_eq]
  · next h => exact State.stagedAt_stage_other s a _ b h

/-! ## Writes that wait for the Hour -/

theorem State.exec_partMemberWrite (s : State) (n : Fin 64) (w : Fin 4) (v : BitVec 32) (h : s.locked n = false) :
    exec (.partMemberWrite n w v) s = .next (s.stage (Reg.topPartMember n + 4 * w.val) v.toNat) := by
  have ha : Reg.topPartMember n + 4 * w.val = Reg.iodBase + (0x10000 + 0x100 * n.val + 4 * w.val) := by
    unfold Reg.topPartMember Reg.iodBase
    omega
  have hne : Reg.topPartMember n + 4 * w.val ≠ Reg.topHourCtl := by
    unfold Reg.topPartMember Reg.topHourCtl
    omega
  have hm : ∀ w : Fin 4, wordMask Reg.memberRow.rwh (4 * w.val) = BitVec.allOnes 32 := by decide
  have e : s.putRegister (Reg.topPartMember n + 4 * w.val) v.toNat = s.writeReg (Reg.topPartMember n + 4 * w.val) v.toNat := by
    rw [ha]
    exact s.putRegister_iod _ (Or.inl (by omega))
  show Host.Outcome.next (s.putRegister (Reg.topPartMember n + 4 * w.val) v.toNat) = _
  rw [e, s.writeReg_staged _ (Reg.find_topPartMember n w) rfl rfl (by rw [hm]; decide) hne (s.ignoredWrite_member n w h), hm,
    BitVec.ofNat_toNat, BitVec.setWidth_eq, BitVec.and_allOnes]

/-- The address that PBB_WRITE names. -/
def pbbAddr (d n : Nat) (k : Fin 3) : Nat := if k = 0 then Reg.cdPbbShm d n else if k = 1 then Reg.cdPbbCore d n else Reg.cdCommonShm d

theorem State.exec_pbbWrite (s : State) (d : Fin 8) (n : Fin 64) (k : Fin 3) (v : BitVec 64) (hd : (s.die d).cond ≠ .absent)
    (hl : k ≠ 2 → s.locked n = false) (hb : k = 2 → s.dieBusy d = false) :
    exec (.pbbWrite d n k 0 false v) s
      = .next (s.stage (pbbAddr d n k) (v.setWidth 32 &&& if k = 1 then 0x03FF03FF else 0x1FFF1FFF).toNat) := by
  show Host.Outcome.next (s.putPart (pbbAddr d n k) 0 false v.toNat) = _
  match k with
  | 0 =>
    have e := s.putPart_staged (off := 0x1000 + 0x20 * n.val) (w := 0) d v (by omega) hd
      (by rw [Nat.mul_zero, Nat.add_zero, ← Nat.add_assoc]; exact Reg.find_cdPbbShm d n) rfl rfl (by decide)
      (s.ignoredWrite_bound d n (y := 0) (by decide) (hl (by decide)))
    simp only [Nat.mul_zero, Nat.add_zero, ← Nat.add_assoc] at e
    rw [pbbAddr, if_pos rfl, Reg.cdPbbShm, e, show wordMask Reg.pbbShmRow.rwh 0 = 0x1FFF1FFF by decide, if_neg (by decide)]
  | 1 =>
    have e := s.putPart_staged (off := 0x1008 + 0x20 * n.val) (w := 0) d v (by omega) hd
      (by rw [Nat.mul_zero, Nat.add_zero, ← Nat.add_assoc]; exact Reg.find_cdPbbCore d n) rfl rfl (by decide)
      (by rw [show 0x1008 + 0x20 * n.val + 4 * 0 = 0x1000 + 0x20 * n.val + 8 by omega]
          exact s.ignoredWrite_bound d n (by decide) (hl (by decide)))
    simp only [Nat.mul_zero, Nat.add_zero, ← Nat.add_assoc] at e
    rw [pbbAddr, if_neg (by decide), if_pos rfl, Reg.cdPbbCore, e, show wordMask Reg.pbbCoreRow.rwh 0 = 0x03FF03FF by decide, if_pos rfl]
  | 2 =>
    have e := s.putPart_staged (off := 0x18) (w := 0) d v (by decide) hd (Reg.find_cdCommonShm d) rfl rfl (by decide)
      (s.ignoredWrite_common d (hb rfl))
    rw [Nat.mul_zero, Nat.add_zero] at e
    rw [pbbAddr, if_neg (by decide), if_neg (by decide), Reg.cdCommonShm, e, show wordMask Reg.commonShmRow.rwh 0 = 0x1FFF1FFF by decide,
      if_neg (by decide)]

theorem State.exec_flagwinWrite (s : State) (d : Fin 8) (n : Fin 64) (w : Fin 2) (v : BitVec 64) (hd : (s.die d).cond ≠ .absent)
    (h : s.locked n = false) :
    exec (.flagwinWrite d n w false v) s = .next (s.stage (Reg.cdFlagwin d n + 4 * w.val) (v.setWidth 32 &&& 0x0001FFFF).toNat) := by
  have hm : ∀ w : Fin 2, wordMask Reg.flagwinRow.rwh (4 * w.val) = 0x0001FFFF := by decide
  have hf := Reg.find_cdFlagwin d n w
  rw [Reg.cdFlagwin, Nat.add_assoc, Nat.add_assoc, ← Nat.add_assoc 0x1010] at hf
  have e := s.putPart_staged d v (by omega) hd hf rfl rfl (by rw [hm]; decide)
    (by rw [show 0x1010 + 0x20 * n.val + 4 * w.val = 0x1000 + 0x20 * n.val + (0x10 + 4 * w.val) by omega]
        exact s.ignoredWrite_bound d n (by omega) h)
  rw [hm, ← Nat.add_assoc] at e
  exact congrArg _ e

theorem State.exec_coreStreamWrite (s : State) (d : Fin 8) (c : Fin 16) (w : Fin 2) (v : BitVec 64) (hd : (s.die d).cond ≠ .absent)
    (h : ∀ n, s.owner (16 * d.val + c.val) = some n → s.loadedOrRunning n = false) :
    exec (.coreStreamWrite d c w false v) s
      = .next (s.stage (Reg.coreStream d c + 4 * w.val) (v.setWidth 32 &&& if w = 0 then 0x00FFFFFF else 0x01FFFFFF).toNat) := by
  have hm : ∀ w : Fin 2, wordMask Reg.streamRow.rwh (4 * w.val) = if w = 0 then 0x00FFFFFF else 0x01FFFFFF := by decide
  have hm0 : ∀ w : Fin 2, wordMask Reg.streamRow.rwh (4 * w.val) ≠ 0 := by decide
  have hf := Reg.find_coreStream d c w
  rw [Reg.coreStream, Nat.add_assoc, Nat.add_assoc, ← Nat.add_assoc 0x1000000] at hf
  have e := s.putPart_staged d v (by omega) hd hf rfl rfl (hm0 w) (s.ignoredWrite_stream d c w h)
  rw [hm, ← Nat.add_assoc] at e
  exact congrArg _ e

theorem State.exec_swapTable (s : State) (v : BitVec 32) : exec (.swapTable v) s = .next (s.stage Reg.rteCtl (v &&& 1).toNat) := by
  show Host.Outcome.next (s.putRegister Reg.rteCtl v.toNat) = _
  have hm : wordMask Reg.rteCtlRow.rwh 0 = 1 := by decide
  have hi : s.ignoredWrite false Reg.rteCtl = none := s.ignoredWrite_iod (off := 0x400008) (by decide) (by decide) (by decide)
  have e : s.putRegister Reg.rteCtl v.toNat = s.writeReg Reg.rteCtl v.toNat := s.putRegister_iod (off := 0x400008) _ (by decide)
  rw [e, s.writeReg_staged _ Reg.find_rteCtl rfl rfl (by decide) (by decide) hi, hm, BitVec.ofNat_toNat, BitVec.setWidth_eq]

/-! ### TOP_HOUR_CTL -/

/-- TOP_HOUR_CTL after COUPLED and ARRIVE_LIMIT have been written. -/
def hourCtlWord (cur v : W32) : W32 := v &&& 0x1FF00 ||| cur &&& ~~~0x1FF00

/-- HOUR_LEN_LOG2 stays when COUPLED and ARRIVE_LIMIT are written. -/
theorem fld_hourCtlWord_len (cur v : W32) : fld (hourCtlWord cur v).toNat 0 5 = fld cur.toNat 0 5 := fld_unmasked _ _ (by decide) (by decide)

/-- COUPLED and ARRIVE_LIMIT take what is written. -/
theorem fld_hourCtlWord_limits (cur v : W32) : fld (hourCtlWord cur v).toNat 8 9 = fld v.toNat 8 9 := fld_masked _ _ (by decide) (by decide)

theorem State.ignoredWrite_hourCtl (s : State) : s.ignoredWrite false Reg.topHourCtl = none :=
  s.ignoredWrite_iod (off := 0x10) (by decide) (by decide) (by decide)

theorem State.writeNow_hourCtl (s : State) (v : BitVec 32) :
    s.writeNow false Reg.topHourCtl v.toNat = s.w32 Reg.topHourCtl (hourCtlWord (BitVec.ofNat 32 (s.r32 Reg.topHourCtl)) v).toNat := by
  rw [hourCtlWord, s.writeNow_eq _ Reg.find_topHourCtl (Or.inl (by decide)) (fun _ => s.ignoredWrite_hourCtl) (captureOf_iod (off := 0x10) (by decide)),
    writtenWord_rw _ _ (m := 0x1FF00) (by decide) (by decide), BitVec.ofNat_toNat, BitVec.setWidth_eq]

theorem State.ofNat_r32 (s : State) (a : Nat) : (BitVec.ofNat 32 (s.r32 a)).toNat = s.r32 a := Nat.mod_eq_of_lt (s.r32_lt a)

/-- Writing COUPLED and ARRIVE_LIMIT leaves the HOUR_LEN_LOG2 that will stand after the next Hour. -/
theorem State.nextLen_writeNow (s : State) (v : BitVec 32) :
    fld ((s.writeNow false Reg.topHourCtl v.toNat).nextWord Reg.topHourCtl) 0 5 = fld (s.nextWord Reg.topHourCtl) 0 5 := by
  have hp : (s.writeNow false Reg.topHourCtl v.toNat).pendingAt Reg.topHourCtl = s.pendingAt Reg.topHourCtl := by rw [s.writeNow_hourCtl]; rfl
  unfold State.nextWord
  rw [hp]
  cases s.pendingAt Reg.topHourCtl with
  | some y => rfl
  | none =>
    show fld ((s.writeNow false Reg.topHourCtl v.toNat).r32 Reg.topHourCtl) 0 5 = _
    rw [s.writeNow_hourCtl, State.r32_w32_same, Nat.mod_eq_of_lt (BitVec.isLt _), fld_hourCtlWord_len, State.ofNat_r32]

/-- Writing TOP_HOUR_CTL leaves the state of every partition. -/
theorem State.loadedOrRunning_writeNow (s : State) (v : BitVec 32) (n : Nat) :
    (s.writeNow false Reg.topHourCtl v.toNat).loadedOrRunning n = s.loadedOrRunning n := by
  have h : Reg.topPartStatus n ≠ Reg.topHourCtl := by unfold Reg.topPartStatus Reg.topHourCtl; omega
  unfold State.loadedOrRunning State.pstate State.f32
  rw [s.writeNow_hourCtl, State.r32_w32_other _ _ _ _ h]

theorem State.exec_hourCtlWrite (s : State) (v : BitVec 32) (h1 : 12 ≤ v.toNat % 32) (h2 : v.toNat % 32 ≤ 24)
    (hl : ∀ n, n < 64 → s.loadedOrRunning n = false) (hn : v.toNat % 32 ≠ fld (s.nextWord Reg.topHourCtl) 0 5) :
    exec (.hourCtlWrite v) s = .next ((s.w32 Reg.topHourCtl (hourCtlWord (BitVec.ofNat 32 (s.r32 Reg.topHourCtl)) v).toNat).stage
      Reg.topHourCtl (v.toNat % 32)) := by
  have hany : ¬(v.toNat % 32 < 12 ∨ 24 < v.toNat % 32
      ∨ (List.range 64).any (s.writeNow false Reg.topHourCtl v.toNat).loadedOrRunning = true) := by
    have : (List.range 64).any (s.writeNow false Reg.topHourCtl v.toNat).loadedOrRunning = false :=
      List.any_eq_false.2 fun n hm => by rw [s.loadedOrRunning_writeNow, hl n (List.mem_range.1 hm)]; decide
    rintro (h | h | h)
    · omega
    · omega
    · exact Bool.false_ne_true (this.symm.trans h)
  have hst : (s.writeNow false Reg.topHourCtl v.toNat).writeStaged false Reg.topHourCtl v.toNat
      = (s.writeNow false Reg.topHourCtl v.toNat).stage Reg.topHourCtl (v.toNat % 32) := by
    simp only [State.writeStaged, Reg.find_topHourCtl, State.ignoredWrite_hourCtl, State.stageHourLen, s.nextLen_writeNow, if_neg hn, if_neg hany]
    rfl
  have e : s.putRegister Reg.topHourCtl v.toNat = s.writeReg Reg.topHourCtl v.toNat := s.putRegister_iod (off := 0x10) _ (by decide)
  show Host.Outcome.next (s.putRegister Reg.topHourCtl v.toNat) = _
  rw [e, State.writeReg, hst, s.writeNow_hourCtl]

/-- Settles O10: each command stages one word, and TOP_HOUR_CTL's RW fields act at once. -/
theorem stagedRegisterWritesWaitForTheHour : Obligations.StagedRegisterWritesWaitForTheHour := by
  refine ⟨fun s n w v h => ?_, fun s d n k v hd hl hb => ?_, fun s d n w v hd h => ?_, fun s d c w v hd h => ?_, fun s v => ?_,
    fun s v h1 h2 hl hn => ?_⟩
  · exact ⟨_, s.exec_partMemberWrite n w v h, s.stage_frame _ v⟩
  · exact ⟨_, s.exec_pbbWrite d n k v hd hl hb, s.stage_frame _ _⟩
  · exact ⟨_, s.exec_flagwinWrite d n w v hd h, s.stage_frame _ _⟩
  · exact ⟨_, s.exec_coreStreamWrite d c w v hd h, s.stage_frame _ _⟩
  · exact ⟨_, s.exec_swapTable v, s.stage_frame _ _⟩
  · refine ⟨_, s.exec_hourCtlWrite v h1 h2 hl hn, rfl, ?_, fun b hb => ?_, ?_, ?_, fun b hb => ?_⟩
    · rw [State.stagedAt_stage_same]
      congr 1
      apply BitVec.eq_of_toNat_eq
      rw [BitVec.toNat_ofNat, BitVec.toNat_and]
      exact (Nat.mod_eq_of_lt (by omega)).trans (Nat.and_two_pow_sub_one_eq_mod v.toNat 5).symm
    · rw [State.stagedAt_stage_other _ _ _ _ hb]
      rfl
    · rw [State.f32, State.f32, State.r32_stage, State.r32_w32_same, Nat.mod_eq_of_lt (BitVec.isLt _), fld_hourCtlWord_len, State.ofNat_r32]
    · rw [State.f32, State.r32_stage, State.r32_w32_same, Nat.mod_eq_of_lt (BitVec.isLt _), fld_hourCtlWord_limits]
    · rw [State.r32_stage, State.r32_w32_other _ _ _ _ (by simpa using hb)]

/-! ## Register writes that act at once -/

/-- What writing one register word leaves: every other word and everything else as it was. -/
theorem State.w32_frame (s : State) (a : Nat) (v : W32) :
    s.w32 a v.toNat = { s with regs := (s.w32 a v.toNat).regs } ∧ (s.w32 a v.toNat).r32 a = v.toNat
      ∧ s.SameRegsBut (s.w32 a v.toNat) (fun b => b == a) := by
  refine ⟨rfl, ?_, fun b hb => s.r32_w32_other _ _ _ (by simpa using hb)⟩
  rw [State.r32_w32_same, Nat.mod_eq_of_lt v.isLt]

/-- A write of a register of RW and W1C bits alone. -/
theorem State.writeReg_now (s : State) {a x : Nat} {r : RegRow} (v : Nat) (hf : Reg.find a = some (r, x)) (hw : r.rw ≠ 0 ∨ r.w1c ≠ 0)
    (hh : r.rwh = 0) (hi : r.rw ≠ 0 → s.ignoredWrite false a = none) (hc : captureOf a = none) :
    s.writeReg a v = s.w32 a (writtenWord r x (BitVec.ofNat 32 (s.r32 a)) (BitVec.ofNat 32 v)).toNat := by
  rw [State.writeReg, s.writeNow_eq v hf hw hi hc]
  simp [State.writeStaged, hf, hh]

theorem State.exec_mcastEntryWrite (s : State) (d : Fin 8) (e : Fin 256) (w : Fin 8) (v : BitVec 64) (hd : (s.die d).cond ≠ .absent)
    (h : s.loadedOrRunning (s.mcastOwner d e) = false) :
    exec (.mcastEntryWrite d e w false v) s = .next (s.w32 (Reg.fabMcast d e + 4 * w.val)
      (writtenWord Reg.mcastRow (4 * w.val) (BitVec.ofNat 32 (s.r32 (Reg.fabMcast d e + 4 * w.val))) (v.setWidth 32)).toNat) := by
  have hf := Reg.find_fabMcast d e w
  have hi := s.ignoredWrite_mcast d e w h
  have ha : Reg.dieBase d + (0x101000 + 0x20 * e.val + 4 * w.val) = Reg.fabMcast d e + 4 * w.val := by
    rw [Reg.fabMcast, Nat.add_assoc, Nat.add_assoc, Nat.add_assoc]
  have hc : captureOf (Reg.fabMcast d e + 4 * w.val) = none := by rw [← ha, captureOf_dieBase (by omega), if_neg (by omega)]
  have hp := s.putRegister_die (off := 0x101000 + 0x20 * e.val + 4 * w.val) d (v.toNat % 2 ^ 32) (by omega) hd
  rw [ha] at hi hp
  show Host.Outcome.next (s.putPart (Reg.fabMcast d e) w.val false v.toNat) = _
  rw [s.putPart_one, hp, s.writeReg_now _ hf (Or.inl (by decide)) rfl (fun _ => hi) hc, ofNat_toNat_mod]

theorem State.exec_peerEntryWrite (s : State) (n : Fin 64) (e : Fin 1024) (v : BitVec 32) (h : s.loadedOrRunning n = false) :
    exec (.peerEntryWrite n e v) s
      = .next (s.w32 (Reg.rtePeer n e) (writtenWord Reg.peerRow 0 (BitVec.ofNat 32 (s.r32 (Reg.rtePeer n e))) v).toNat) := by
  have ha : Reg.rtePeer n e = Reg.iodBase + (0x440000 + 0x1000 * n.val + 4 * e.val) := by
    unfold Reg.rtePeer Reg.iodBase
    omega
  have hc : captureOf (Reg.rtePeer n e) = none := by rw [ha, captureOf_iod (by omega)]
  have hp : s.putRegister (Reg.rtePeer n e) v.toNat = s.writeReg (Reg.rtePeer n e) v.toNat := by
    rw [ha]
    exact s.putRegister_iod _ (Or.inr (by omega))
  show Host.Outcome.next (s.putRegister (Reg.rtePeer n e) v.toNat) = _
  rw [hp, s.writeReg_now _ (Reg.find_rtePeer n e) (Or.inl (by decide)) rfl (fun _ => s.ignoredWrite_peer n e h) hc, BitVec.ofNat_toNat,
    BitVec.setWidth_eq]

theorem State.exec_ilkFirstRearm (s : State) (d : Fin 8) (c : Fin 16) (hd : (s.die d).cond ≠ .absent) :
    exec (.ilkFirstRearm d c) s = .next (s.w32 (Reg.coreIlkFirst d c + 4)
      (writtenWord Reg.ilkFirstRow 4 (BitVec.ofNat 32 (s.r32 (Reg.coreIlkFirst d c + 4))) 0x80000000).toNat) := by
  have ha : Reg.dieBase d + (0x1000048 + 0x10000 * c.val + 4) = Reg.coreIlkFirst d c + 4 := by
    rw [Reg.coreIlkFirst, Nat.add_assoc, Nat.add_assoc, Nat.add_assoc]
  have hc : captureOf (Reg.coreIlkFirst d c + 4) = none := by rw [← ha, captureOf_dieBase (by omega), if_neg (by omega)]
  have hp := s.putRegister_die (off := 0x1000048 + 0x10000 * c.val + 4) d (2 ^ 31) (by omega) hd
  rw [ha] at hp
  show Host.Outcome.next (s.putRegister (Reg.coreIlkFirst d c + 4) (2 ^ 31)) = _
  rw [hp, s.writeReg_now _ (Reg.find_coreIlkFirst d c) (Or.inr (by decide)) rfl (fun h => absurd rfl h) hc,
    show BitVec.ofNat 32 (2 ^ 31) = 0x80000000 by decide]

/-- Clearing VALID of CORE_ILK_FIRST leaves the other bits of its word. -/
theorem writtenWord_ilkFirst (n : Nat) (hn : n < 2 ^ 32) : (writtenWord Reg.ilkFirstRow 4 (BitVec.ofNat 32 n) 0x80000000).toNat = n % 2 ^ 31 := by
  have h1 : wordMask Reg.ilkFirstRow.rw 4 = 0#32 := by decide
  have h2 : wordMask Reg.ilkFirstRow.w1c 4 = 0x80000000 := by decide
  rw [writtenWord, h1, h2, BitVec.and_zero, BitVec.or_zero, BitVec.not_zero, BitVec.and_allOnes, BitVec.toNat_and, BitVec.toNat_ofNat, Nat.mod_eq_of_lt hn]
  exact Nat.and_two_pow_sub_one_eq_mod n 31

/-! ### Arming a capture -/

theorem State.r32_clearRounds (s : State) (f : Nat → Nat) (k b : Nat) :
    ((List.range k).foldl (fun s i => s.w32 (f i) 0) s).r32 b = if (List.range k).any (fun i => b == f i) then 0 else s.r32 b := by
  induction k with
  | zero => rfl
  | succ k ih =>
    rw [List.range_succ, List.foldl_append, List.any_append]
    simp only [List.foldl_cons, List.foldl_nil, State.r32_w32, ih, List.any_cons, List.any_nil, Bool.or_false]
    by_cases h : b = f k <;> simp [h]

theorem State.clearRounds_shape (s : State) (f : Nat → Nat) (k : Nat) :
    (List.range k).foldl (fun s i => s.w32 (f i) 0) s = { s with regs := ((List.range k).foldl (fun s i => s.w32 (f i) 0) s).regs } := by
  induction k with
  | zero => rfl
  | succ k ih =>
    rw [List.range_succ, List.foldl_append]
    simp only [List.foldl_cons, List.foldl_nil]
    rw [ih]
    rfl

/-- A write of 1 to ARM takes the RW bits and clears what was captured. -/
theorem State.writeReg_arm (s : State) {a x g : Nat} {r : RegRow} (v : Nat) (hf : Reg.find a = some (r, x)) (hrw : r.rw ≠ 0) (hh : r.rwh = 0)
    (hi : s.ignoredWrite false a = none) (hc : captureOf a = some g) (ha : a % 8 = 4) (hv : bitAt v 31 = true) :
    s.writeReg a v = (s.w32 a (writtenWord r x (BitVec.ofNat 32 (s.r32 a)) (BitVec.ofNat 32 v)).toNat).armCapture g := by
  simp only [State.writeReg, State.writeNow, State.writeStaged, hf, hi, hc, hh, hv, ha, if_neg hrw, if_neg (show ¬(r.rw = 0 ∧ r.w1c = 0) by tauto),
    and_self, if_true]
  rfl

theorem State.exec_armCapture (s : State) (d : Fin 8) (c : Fin 16) (v : BitVec 64) (hd : (s.die d).cond ≠ .absent)
    (hv : bitAt v.toNat 31 = true) :
    exec (.armCapture d c 1 false v) s = .next ((s.w32 (Reg.coreDigestCapCtl d c + 4) (writtenWord Reg.digestCapCtlRow 4
      (BitVec.ofNat 32 (s.r32 (Reg.coreDigestCapCtl d c + 4))) (v.setWidth 32)).toNat).armCapture (16 * d.val + c.val)) := by
  have ha : Reg.dieBase d + (0x1000058 + 0x10000 * c.val + 4) = Reg.coreDigestCapCtl d c + 4 := by
    rw [Reg.coreDigestCapCtl, Nat.add_assoc, Nat.add_assoc, Nat.add_assoc]
  have hc : captureOf (Reg.coreDigestCapCtl d c + 4) = some (16 * d.val + c.val) := by
    rw [← ha, captureOf_dieBase (by omega), if_pos (by omega)]
    congr 1
    omega
  have hi := s.ignoredWrite_coreFree d (off := 0x1000058 + 0x10000 * c.val + 4) (by omega) (by omega) (by omega)
  have hp := s.putRegister_die (off := 0x1000058 + 0x10000 * c.val + 4) d (v.toNat % 2 ^ 32) (by omega) hd
  have h8 : (Reg.coreDigestCapCtl d c + 4) % 8 = 4 := by
    unfold Reg.coreDigestCapCtl Reg.dieBase
    omega
  have hv' : bitAt (v.toNat % 2 ^ 32) 31 = true := by
    rw [bitAt_eq, Nat.testBit_mod_two_pow, ← bitAt_eq, hv]
    rfl
  rw [ha] at hi hp
  show Host.Outcome.next (s.putRegister (Reg.coreDigestCapCtl d c + 4) (v.toNat % 2 ^ 32)) = _
  rw [hp, s.writeReg_arm _ (Reg.find_coreDigestCapCtl d c) (by decide) rfl hi hc h8 hv', ofNat_toNat_mod]

/-- The word of ARM and SELECT after ARM has been written 1 (bits 24 to 30 hold COUNT). -/
theorem armWord (cur : W32) (v : BitVec 64) (hv : bitAt v.toNat 31 = true) :
    (writtenWord Reg.digestCapCtlRow 4 cur (v.setWidth 32)).toNat / 2 ^ 31 = 1
      ∧ (writtenWord Reg.digestCapCtlRow 4 cur (v.setWidth 32)).toNat % 2 ^ 24 = v.toNat % 2 ^ 24 := by
  rw [writtenWord_rw _ _ (m := 0x80FFFFFF) (by decide) (by decide)]
  have h1 : fld (v.setWidth 32 &&& 0x80FFFFFF ||| cur &&& ~~~0x80FFFFFF).toNat 31 1 = fld (v.setWidth 32).toNat 31 1 :=
    fld_masked _ _ (by decide) (by decide)
  have h2 : fld (v.setWidth 32 &&& 0x80FFFFFF ||| cur &&& ~~~0x80FFFFFF).toNat 0 24 = fld (v.setWidth 32).toNat 0 24 :=
    fld_masked _ _ (by decide) (by decide)
  have hlt := (v.setWidth 32 &&& 0x80FFFFFF ||| cur &&& ~~~0x80FFFFFF : W32).isLt
  generalize (v.setWidth 32 &&& 0x80FFFFFF ||| cur &&& ~~~0x80FFFFFF : W32).toNat = y at *
  simp only [bitAt, fld, beq_iff_eq, BitVec.toNat_setWidth] at *
  omega

/-- The state of a capture's registers after arming: COUNT and every VALID bit read 0, and no other word changes (R281). -/
theorem State.armCapture_frame (s : State) (d : Fin 8) (c : Fin 16) :
    s.armCapture (16 * d.val + c.val) = { s with regs := (s.armCapture (16 * d.val + c.val)).regs }
      ∧ (s.armCapture (16 * d.val + c.val)).r32 (Reg.coreDigestCapCtl d c + 4)
        = s.r32 (Reg.coreDigestCapCtl d c + 4) / 2 ^ 31 * 2 ^ 31 + s.r32 (Reg.coreDigestCapCtl d c + 4) % 2 ^ 24
      ∧ (∀ i, i < 64 → (s.armCapture (16 * d.val + c.val)).r32 (Reg.coreDigestCap d c i + 8) = 0)
      ∧ s.SameRegsBut (s.armCapture (16 * d.val + c.val)) (fun b => b == Reg.coreDigestCapCtl d c + 4
          || (List.range 64).any (fun i => b == Reg.coreDigestCap d c i + 8)) := by
  have hd : (16 * d.val + c.val) / 16 = d := by omega
  have hc : (16 * d.val + c.val) % 16 = c := by omega
  have e : s.armCapture (16 * d.val + c.val) = ((List.range 64).foldl (fun s i => s.w32 (Reg.coreDigestCap d c i + 8) 0) s).sf64
      (Reg.coreDigestCapCtl d c) 56 7 0 := by
    unfold State.armCapture
    simp only [hd, hc]
  have hr := s.r32_clearRounds (fun i => Reg.coreDigestCap d c i + 8) 64
  have hs := s.clearRounds_shape (fun i => Reg.coreDigestCap d c i + 8) 64
  rw [e]
  generalize (List.range 64).foldl (fun s i => s.w32 (Reg.coreDigestCap d c i + 8) 0) s = u at *
  have hout : ∀ b, (∀ i, b ≠ Reg.coreDigestCap d c i + 8) → u.r32 b = s.r32 b := fun b hb => by
    rw [hr, if_neg]
    simpa using fun i _ => hb i
  have hlo := hout (Reg.coreDigestCapCtl d c) (fun i => by unfold Reg.coreDigestCapCtl Reg.coreDigestCap; omega)
  have hhi := hout (Reg.coreDigestCapCtl d c + 4) (fun i => by unfold Reg.coreDigestCapCtl Reg.coreDigestCap; omega)
  have hl := s.r32_lt (Reg.coreDigestCapCtl d c)
  have hh := s.r32_lt (Reg.coreDigestCapCtl d c + 4)
  have h64 : setFld (u.r64 (Reg.coreDigestCapCtl d c)) 56 7 0 = s.r32 (Reg.coreDigestCapCtl d c)
      + 2 ^ 32 * (s.r32 (Reg.coreDigestCapCtl d c + 4) / 2 ^ 31 * 2 ^ 31 + s.r32 (Reg.coreDigestCapCtl d c + 4) % 2 ^ 24) := by
    rw [setFld_eq, State.r64, hlo, hhi]
    omega
  refine ⟨by rw [State.sf64_shape, hs], ?_, fun i hi => ?_, fun b hb => ?_⟩
  · rw [State.sf64, State.w64, State.r32_w32_same, h64]
    omega
  · rw [State.r32_sf64_other, hr, if_pos]
    · simpa using ⟨i, hi, rfl⟩
    · unfold Reg.coreDigestCapCtl Reg.coreDigestCap; omega
    · unfold Reg.coreDigestCapCtl Reg.coreDigestCap; omega
  · simp only [Bool.or_eq_false_iff, beq_eq_false_iff_ne] at hb
    by_cases h : b = Reg.coreDigestCapCtl d c
    · rw [h, State.sf64, State.w64, State.r32_w32_other _ _ _ _ (by omega), State.r32_w32_same, h64]
      omega
    · rw [State.r32_sf64_other _ _ _ _ _ _ h hb.1, hr, if_neg (by rw [hb.2]; decide)]

/-! ## Accesses of one register word of the IOD -/

/-- An address with a register stands in region 15 of a die or of the IOD. -/
theorem Reg.find_some_place {a x : Nat} {r : RegRow} (hf : Reg.find a = some (r, x)) : addrRegion a = 15 ∧ addrDie a ≤ 8 := by
  unfold Reg.find at hf
  split at hf
  · cases hf
  · next hr =>
    split at hf
    · next h => exact ⟨not_not.1 hr, le_of_eq h⟩
    · split at hf
      · next h => exact ⟨not_not.1 hr, le_of_lt h⟩
      · cases hf

theorem place_register {a x : Nat} {r : RegRow} (hf : Reg.find a = some (r, x)) : place a = .register a := by
  obtain ⟨hr, hd⟩ := Reg.find_some_place hf
  have h40 : ¬2 ^ 40 ≤ a := by unfold addrDie at hd; omega
  simp only [place, hr, hf, if_neg h40, if_neg (show ¬addrDie a = 14 by omega), if_neg (show ¬addrDie a = 15 by omega),
    if_neg (show ¬8 < addrDie a by omega), if_true]

/-- An access of one register word acts (R17). -/
theorem accessKind_register {a x : Nat} {r : RegRow} (req : Nat) (write : Bool) (hf : Reg.find a = some (r, x)) (ha : a % 4 = 0) :
    accessKind req a 4 write = none := by
  simp [accessKind, place_register hf, wordsExist, hf, ha]

theorem wordsOf_leBytes_four (n : Nat) : wordsOf (leBytes 4 n) = [n % 2 ^ 32] := by
  show [leNat (leBytes 4 n)] = _
  rw [leNat_leBytes, show 256 ^ 4 = 2 ^ 32 by decide]

theorem State.loadSeen_iod (s : State) {a : Nat} (t : Nat) (h : addrDie a = 8) : s.loadSeen a t = s := by simp [State.loadSeen, h]

section

variable (s : State) {v : Via} {req a x : Nat} {r : RegRow}

/-- A write of one register word of the IOD that its way allows. -/
theorem State.writeBy_iodWord (n t : Nat) (hv : ∀ o, v ≠ .bar2 o) (hres : s.resolve v = (req, a)) (hbar : barAccessOk v 4 = true)
    (hd : addrDie a = 8) (hf : Reg.find a = some (r, x)) (ha : a % 4 = 0) : s.writeBy v (leBytes 4 n) t = s.putRegister a (n % 2 ^ 32) := by
  have hput : s.putDevice req a t (leBytes 4 n) = s.putRegister a (n % 2 ^ 32) := by
    simp only [State.putDevice, place_register hf, s.loadSeen_iod t hd, wordsOf_leBytes_four]
    rfl
  cases v with
  | bar2 o => exact absurd rfl (hv o)
  | bar0 o => simp [State.writeBy, hres, hbar, accessKind_register req true hf ha, hput]
  | device q b => simp [State.writeBy, hres, hbar, accessKind_register req true hf ha, hput]

/-- A read of one register word of the IOD that its way allows. -/
theorem State.readBy_iodWord (t tick : Nat) (hv : ∀ o, v ≠ .bar2 o) (hres : s.resolve v = (req, a)) (hbar : barAccessOk v 4 = true)
    (hd : addrDie a = 8) (hf : Reg.find a = some (r, x)) (ha : a % 4 = 0) :
    s.readBy v 4 t tick = (s.getRegisters a 1 t tick).2.emit (.readData 4 (s.getRegisters a 1 t tick).1) := by
  have hview : viewAddr a = a := by simp [viewAddr, hd]
  have habs : s.onAbsent a = false := by simp [State.onAbsent, hd]
  have hget : s.getDevice a 4 t tick = s.getRegisters a 1 t tick := by simp [State.getDevice, hview, habs, place_register hf, s.loadSeen_iod t hd]
  cases v with
  | bar2 o => exact absurd rfl (hv o)
  | bar0 o => simp [State.readBy, hres, hbar, accessKind_register req false hf ha, place_register hf, hget]
  | device q b => simp [State.readBy, hres, hbar, accessKind_register req false hf ha, place_register hf, hget]

/-- The W1C bits that the hardware sets in the cycle of a write of one register word of the IOD (R20). -/
theorem State.stillSet_iodWord (n : Nat) (hbar : barAccessOk v 4 = true) (hd : addrDie a = 8) (hf : Reg.find a = some (r, x)) (ha : a % 4 = 0) :
    s.stillSet v req a 4 n = s.orBits a (BitVec.ofNat 32 (n % 2 ^ 32) &&& wordMask r.w1c x).toNat := by
  have habs : s.onAbsent a = false := by simp [State.onAbsent, hd]
  simp only [State.stillSet, hbar, accessKind_register req true hf ha, place_register hf, wordsOf_leBytes_four, List.zipIdx_cons, List.zipIdx_nil,
    List.foldl_cons, List.foldl_nil, Nat.mul_zero, Nat.add_zero, hf, habs]
  rfl

/-- REGISTER_WRITE of one register word of the IOD: the register takes the word, and bits that meet the write end set. -/
theorem State.exec_registerWrite_iodWord (y m : BitVec 64) (hv : ∀ o, v ≠ .bar2 o) (hres : s.resolve v = (req, a)) (hbar : barAccessOk v 4 = true)
    (hd : addrDie a = 8) (hf : Reg.find a = some (r, x)) (ha : a % 4 = 0) :
    exec (.registerWrite v false y m) s
      = .next ((s.putRegister a (y.toNat % 2 ^ 32)).orBits a (m.setWidth 32 &&& wordMask r.w1c x).toNat) := by
  have e := State.stillSet_iodWord (s.putRegister a (y.toNat % 2 ^ 32)) (req := req) m.toNat hbar hd hf ha
  rw [ofNat_toNat_mod, ← s.writeBy_iodWord y.toNat 0 hv hres hbar hd hf ha] at e
  rw [← s.writeBy_iodWord y.toNat 0 hv hres hbar hd hf ha, ← e]
  show Host.Outcome.next ((s.writeBy v (leBytes 4 y.toNat) 0).stillSet v (s.resolve v).1 (s.resolve v).2 4 m.toNat) = _
  rw [hres]

end

/-! ### TOP_ID -/

/-- A read of TOP_ID answers its word. -/
theorem State.exec_read_topId (s : State) (r n tick : Nat) (u : List (BitVec 37)) :
    exec (.serviceAccess (.device r Reg.topId) 4 none n tick u) s = .next ((s.upset u).emit (.readData 4 (s.r32 Reg.topId))) := by
  have hread : (s.upset u).readWord Reg.topId = s.r32 Reg.topId := by
    have h1 : wordMask Reg.topIdRow.rwh 0 = 0#32 := by decide
    have h2 : (s.upset u).r32 Reg.topId = s.r32 Reg.topId := rfl
    simp only [State.readWord, Reg.find_topId]
    rw [h2]
    cases (s.upset u).pendingAt Reg.topId with
    | none => exact s.ofNat_r32 _
    | some y => simp only [h1, BitVec.not_zero, BitVec.and_allOnes, BitVec.and_zero, BitVec.or_zero, s.ofNat_r32]
  have hat : (s.upset u).readWordAt n Reg.topId = s.r32 Reg.topId := by
    rw [State.readWordAt, if_neg (fun h => absurd h.1 (by decide)), if_neg (fun h => absurd h.1 (by decide)),
      if_neg (fun h => absurd h.1 (by decide)), hread]
  have hget : (s.upset u).getRegisters Reg.topId 1 n tick = (s.r32 Reg.topId, s.upset u) := by
    have hl : ((s.upset u).latching n tick).find? (fun x => x.1 == Reg.topId || x.1 + 4 == Reg.topId) = none := by
      simp [State.latching, Reg.topHourCount, Reg.clkAonTick, Reg.muTick, Reg.topId]
    simp [State.getRegisters, hl, hat]
  have e := (s.upset u).readBy_iodWord (v := .device r Reg.topId) n tick nofun rfl rfl (by decide) Reg.find_topId (by decide)
  rw [hget] at e
  exact congrArg _ e

/-- A write of TOP_ID leaves every register word. -/
theorem State.exec_write_topId (s : State) (r : Nat) (v m : BitVec 64) :
    exec (.registerWrite (.device r Reg.topId) false v m) s = .next (s.orBits Reg.topId 0) := by
  have hw : m.setWidth 32 &&& wordMask Reg.topIdRow.w1c 0 = 0#32 := by
    rw [show wordMask Reg.topIdRow.w1c 0 = 0#32 by decide, BitVec.and_zero]
  have hp : s.putRegister Reg.topId (v.toNat % 2 ^ 32) = s := by
    rw [show Reg.topId = Reg.iodBase + 0 from rfl, s.putRegister_iod _ (Or.inl (by decide))]
    exact s.writeReg_readOnly _ Reg.find_topId rfl rfl rfl
  rw [s.exec_registerWrite_iodWord (v := .device r Reg.topId) (a := Reg.topId) v m nofun rfl rfl (by decide) Reg.find_topId (by decide), hw, hp]
  rfl

/-- What setting bits of a register word leaves. -/
theorem State.orBits_frame (s : State) (a : Nat) (v : W32) :
    s.orBits a v.toNat = { s with regs := (s.orBits a v.toNat).regs } ∧ (s.orBits a v.toNat).r32 a = (BitVec.ofNat 32 (s.r32 a) ||| v).toNat
      ∧ s.SameRegsBut (s.orBits a v.toNat) (fun b => b == a) := by
  refine ⟨rfl, ?_, fun b hb => s.r32_w32_other _ _ _ (by simpa using hb)⟩
  have e : Nat.lor (s.r32 a) v.toNat = (BitVec.ofNat 32 (s.r32 a) ||| v).toNat := by
    rw [BitVec.toNat_or, s.ofNat_r32]
    rfl
  rw [State.orBits, State.r32_w32_same, e, Nat.mod_eq_of_lt (BitVec.isLt _)]

/-- Settles O59: TOP_ID's reset word is 0x10100, and its register has no writable bit. -/
theorem topIdReportsTheContractVersion : Obligations.TopIdReportsTheContractVersion := by
  have hreset : State.reset.r32 Reg.topId = 0x10100 := by decide +kernel
  refine ⟨fun r n tick u => ⟨_, _, State.exec_read_topId _ r n tick u, rfl, rfl, ?_⟩, fun s r v m => ⟨_, s.exec_write_topId r v m, fun a => ?_⟩⟩
  · rw [hreset]
    decide
  · obtain ⟨-, hsame, hother⟩ := s.orBits_frame Reg.topId 0#32
    by_cases h : a = Reg.topId
    · rw [h]
      exact hsame.trans (by rw [BitVec.or_zero, s.ofNat_r32])
    · exact hother a (by simpa using h)

/-! ### Words of the power, Dawn, security and meter blocks -/

/-- What a write of a word without RWH bits leaves: the RW and W1C bits as written, everything else as it was. -/
theorem State.writeReg_frame (s : State) {a x : Nat} {r : RegRow} (v : Nat) (hf : Reg.find a = some (r, x)) (hm : wordMask r.rwh x = 0)
    (ha : a ≠ Reg.topHourCtl) (hi : ∀ u : State, u.ignoredWrite false a = none) (hc : captureOf a = none) :
    s.writeReg a v = { s with regs := (s.writeReg a v).regs }
      ∧ (s.writeReg a v).r32 a = (writtenWord r x (BitVec.ofNat 32 (s.r32 a)) (BitVec.ofNat 32 v)).toNat
      ∧ s.SameRegsBut (s.writeReg a v) (fun b => b == a) := by
  have e : s.writeReg a v = s.writeNow false a v := State.writeStaged_eq_self _ v hf hm ha (fun _ => hi _)
  by_cases hw : r.rw = 0 ∧ r.w1c = 0
  · have hs : s.writeNow false a v = s := by simp [State.writeNow, hf, hw]
    have h0 : ∀ x, wordMask 0 x = 0#32 := fun x => by simp [wordMask]
    rw [e, hs, writtenWord, hw.1, hw.2, h0, BitVec.and_zero, BitVec.or_zero, BitVec.not_zero, BitVec.and_allOnes, BitVec.and_allOnes, s.ofNat_r32]
    exact ⟨rfl, rfl, fun _ _ => rfl⟩
  · rw [e, s.writeNow_eq v hf (by tauto) (fun _ => hi s) hc]
    exact s.w32_frame a _

theorem State.exec_registerWrite_bar0 (s : State) {off x : Nat} {r : RegRow} (v m : BitVec 64) (h1 : 0x800000 ≤ off) (h2 : off < 0xD00000)
    (h4 : off % 4 = 0) (hf : Reg.find (Reg.iodBase + off) = some (r, x)) :
    exec (.registerWrite (.bar0 off) false v m) s = .next ((s.writeReg (Reg.iodBase + off) (v.toNat % 2 ^ 32)).orBits (Reg.iodBase + off)
      (m.setWidth 32 &&& wordMask r.w1c x).toNat) := by
  have hd : addrDie (Reg.iodBase + off) = 8 := by rw [iodBase_eq_dieBase, addrDie_dieBase (by omega)]
  have hres : s.resolve (.bar0 off) = (reqHost, Reg.iodBase + off) := by rw [State.resolve, if_pos (by omega)]
  rw [s.exec_registerWrite_iodWord (v := .bar0 off) v m nofun hres (by simp [barAccessOk, h4]) hd hf (by unfold Reg.iodBase; omega),
    s.putRegister_iod _ (Or.inr (by omega))]

/-- Settles O11: each write acts on its register words alone, and the latching read on its latch. -/
theorem registerWritesAndReadsThatActAtOnce : Obligations.RegisterWritesAndReadsThatActAtOnce := by
  refine ⟨fun s d e w v hd h => ?_, fun s n e v h => ?_, fun s off v m r x h1 h2 h4 hf hm => ?_, fun s d c hd => ?_, fun s d c v hd hv => ?_,
    fun s v n => ?_⟩
  · refine ⟨_, s.exec_mcastEntryWrite d e w v hd h, ?_⟩
    have hmask : ∀ w : Fin 8, wordMask Reg.mcastRow.rw (4 * w.val)
        = if w < 5 then 0xFFFFFFFF else if w = 5 then 0x000FFFFF else if w = 6 then 0 else 0xFFFFFFF8 := by decide
    have hw1c : ∀ w : Fin 8, wordMask Reg.mcastRow.w1c (4 * w.val) = 0#32 := by decide
    rw [← writtenWord_rw _ _ (hmask w) (hw1c w)]
    exact s.w32_frame _ _
  · refine ⟨_, s.exec_peerEntryWrite n e v h, ?_⟩
    rw [← writtenWord_rw (r := Reg.peerRow) (x := 0) _ _ (by decide) (by decide)]
    exact s.w32_frame _ _
  · obtain ⟨hs, hr, ho⟩ := s.writeReg_frame (v.toNat % 2 ^ 32) hf hm (by unfold Reg.iodBase Reg.topHourCtl; omega)
      (fun u => u.ignoredWrite_iod (by omega) (by omega) (by omega)) (captureOf_iod (by omega))
    obtain ⟨hs', hr', ho'⟩ := (s.writeReg (Reg.iodBase + off) (v.toNat % 2 ^ 32)).orBits_frame (Reg.iodBase + off)
      (m.setWidth 32 &&& wordMask r.w1c x)
    refine ⟨_, s.exec_registerWrite_bar0 v m h1 h2 h4 hf, ?_, ?_, ho.trans ho'⟩
    · rw [hs', hs]
    · rw [hr', hr, ofNat_toNat_mod, BitVec.ofNat_toNat, BitVec.setWidth_eq]
      rfl
  · refine ⟨_, s.exec_ilkFirstRearm d c hd, ?_⟩
    rw [← writtenWord_ilkFirst _ (s.r32_lt _)]
    exact s.w32_frame _ _
  · refine ⟨_, s.exec_armCapture d c v hd hv, ?_⟩
    obtain ⟨hw, hwr, hwo⟩ := s.w32_frame (Reg.coreDigestCapCtl d c + 4)
      (writtenWord Reg.digestCapCtlRow 4 (BitVec.ofNat 32 (s.r32 (Reg.coreDigestCapCtl d c + 4))) (v.setWidth 32))
    obtain ⟨ha, har, hac, hao⟩ := (s.w32 (Reg.coreDigestCapCtl d c + 4)
      (writtenWord Reg.digestCapCtlRow 4 (BitVec.ofNat 32 (s.r32 (Reg.coreDigestCapCtl d c + 4))) (v.setWidth 32)).toNat).armCapture_frame d c
    obtain ⟨h31, h24⟩ := armWord (BitVec.ofNat 32 (s.r32 (Reg.coreDigestCapCtl d c + 4))) v hv
    refine ⟨?_, ?_, fun i hi => ?_, fun b hb => ?_⟩
    · rw [ha, hw]
    · rw [har, hwr, h31, h24, Nat.one_mul]
    · rw [hac i hi]
      rfl
    · rw [hao b hb]
      simp only [Bool.or_eq_false_iff] at hb
      exact hwo b hb.1
  · exact ⟨_, s.hourCountAt n, rfl, by simp [State.hourCountAt, State.windowOpen], rfl, rfl, rfl⟩

/-! ## Memory addresses -/

theorem regionSize_le (d g : Nat) : regionSize d g ≤ 2 ^ 32 := by
  unfold regionSize
  split_ifs <;> decide

section

variable {d g off : Nat}

theorem addrDie_region (hg : g < 16) (ho : off < 2 ^ 32) : addrDie (d * 2 ^ 36 + g * 2 ^ 32 + off) = d := by
  unfold addrDie
  omega

theorem addrRegion_region (hg : g < 16) (ho : off < 2 ^ 32) : addrRegion (d * 2 ^ 36 + g * 2 ^ 32 + off) = g := by
  unfold addrRegion
  omega

theorem addrOffset_region (ho : off < 2 ^ 32) : addrOffset (d * 2 ^ 36 + g * 2 ^ 32 + off) = off := by
  unfold addrOffset
  omega

/-- An address inside the populated size of a memory region of a die, or of staging SRAM, names a byte of that memory. -/
theorem place_of_populated {a : Nat} (h8 : addrDie a ≤ 8) (hg : addrRegion a < 3) (hio : addrDie a = 8 → addrRegion a = 0)
    (ho : addrOffset a < regionSize (addrDie a) (addrRegion a)) : place a = .memory a := by
  have h40 : ¬2 ^ 40 ≤ a := by unfold addrDie at h8; omega
  simp only [place, if_neg h40, ho, if_neg (show ¬addrDie a = 14 by omega), if_neg (show ¬addrDie a = 15 by omega),
    if_neg (show ¬8 < addrDie a by omega), if_neg (show ¬addrRegion a = 15 by omega), if_neg (show ¬addrRegion a = 3 by omega),
    if_neg (show ¬3 < addrRegion a by omega), if_neg (show ¬(addrDie a = 8 ∧ addrRegion a ≠ 0) by omega), if_true]

theorem place_region (hd : d < 8 ∨ d = 8 ∧ g = 0) (hg : g < 3) (ho : off < regionSize d g) :
    place (d * 2 ^ 36 + g * 2 ^ 32 + off) = .memory (d * 2 ^ 36 + g * 2 ^ 32 + off) := by
  have h32 := lt_of_lt_of_le ho (regionSize_le d g)
  have h1 := addrDie_region (d := d) (by omega : g < 16) h32
  have h2 := addrRegion_region (d := d) (by omega : g < 16) h32
  have h3 := addrOffset_region (d := d) (g := g) h32
  generalize d * 2 ^ 36 + g * 2 ^ 32 + off = a at h1 h2 h3 ⊢
  subst h1 h2 h3
  exact place_of_populated (by omega) hg (by omega) ho

/-- An access inside the populated size acts; the host keeps below the converter's own area of staging SRAM (R362). -/
theorem accessKind_of_populated {req a len : Nat} (write : Bool) (hp : place a = .memory a) (h14 : addrDie a ≠ 14)
    (hlen : addrOffset a + len ≤ regionSize (addrDie a) (addrRegion a)) (hhost : addrDie a = 8 → addrOffset a + len ≤ stagingOpen) :
    accessKind req a len write = none := by
  simp only [accessKind, hp, if_neg h14, if_neg (Nat.not_lt.2 hlen),
    if_neg (show ¬(req = reqHost ∧ addrDie a = 8 ∧ stagingOpen < addrOffset a + len) from fun h => Nat.not_lt.2 (hhost h.2.1) h.2.2)]

theorem accessKind_region {req len : Nat} (write : Bool) (hd : d < 8 ∨ d = 8 ∧ g = 0) (hg : g < 3) (ho : off < regionSize d g)
    (hlen : off + len ≤ regionSize d g) (hhost : d = 8 → off + len ≤ stagingOpen) :
    accessKind req (d * 2 ^ 36 + g * 2 ^ 32 + off) len write = none := by
  have h32 := lt_of_lt_of_le ho (regionSize_le d g)
  have hp := place_region hd hg ho
  have h1 := addrDie_region (d := d) (by omega : g < 16) h32
  have h2 := addrRegion_region (d := d) (by omega : g < 16) h32
  have h3 := addrOffset_region (d := d) (g := g) h32
  generalize d * 2 ^ 36 + g * 2 ^ 32 + off = a at hp h1 h2 h3 ⊢
  subst h1 h2 h3
  exact accessKind_of_populated write hp (by omega) hlen hhost

/-- Addresses outside the interleaved view name themselves. -/
theorem viewAddr_eq_self {a : Nat} (h : addrDie a ≠ 14) : viewAddr a = a := by rw [viewAddr, if_neg h]

end

/-! ## Reading memory -/

/-- Nothing is under way on the die: its DMA lines have nothing left to do before a cycle. -/
theorem State.meshTo_of_idle (s : State) {d : Nat} (cyc : Nat) (h : (s.mesh d).idle = true) : s.meshTo d cyc = s := by
  unfold State.meshTo
  cases cyc - (s.mesh d).upTo with
  | zero => rfl
  | succ n => rw [State.meshRun, if_pos h]

theorem State.asOf_of_still (s : State) {c a n x : Nat} (h : s.Still c a n) (h1 : a ≤ x) (h2 : x < a + n) : s.asOf c x = s.rdByte x := by
  have he : s.past.filter (fun p => p.addr == x && decide (c < p.cyc)) = [] := by
    rw [List.filter_eq_nil_iff]
    intro p hp
    by_cases hx : p.addr = x
    · have := (h p hp (by omega) (by omega)).1
      simp [hx, this]
    · simp [hx]
  rw [State.asOf, he]
  rfl

theorem State.rdBytes_eq_map (s : State) (a n : Nat) : s.rdBytes a n = (List.range n).map (fun i => s.rdByte (a + i)) := by
  induction n generalizing a with
  | zero => rfl
  | succ n ih =>
    rw [State.rdBytes, ih, List.range_succ_eq_map, List.map_cons, List.map_map]
    congr 1
    exact List.map_congr_left fun i _ => by rw [Function.comp_apply, Nat.succ_eq_add_one, Nat.add_assoc, Nat.add_comm 1]

/-- A fold whose rounds leave the state as it is. -/
theorem foldl_eq_self {α β : Type} {f : β → α → β} {l : List α} {b : β} (h : ∀ a, a ∈ l → f b a = b) : l.foldl f b = b :=
  List.foldlRecOn l f (motive := fun c => c = b) rfl (fun _ hc a ha => by rw [hc, h a ha])

/-- A read of bytes that stand, on dies with nothing to do before it, answers them; what it finds is noticed. -/
theorem State.getMemory_eq (s : State) (a len t : Nat) (hview : ∀ i, i < len → viewAddr (a + i) = a + i)
    (hcaught : ∀ i, i < len → s.caughtUp t (addrDie (a + i) * 2 ^ 36) = s) (hread : ∀ i, i < len → s.rdBytesAt t (a + i) 1 = [s.rdByte (a + i)]) :
    s.getMemory a len t = (s.rdBytes a len, s.noticed ((List.range len).map (fun i => a + i))) := by
  have hmap : (List.range len).map (fun i => viewAddr (a + i)) = (List.range len).map (fun i => a + i) :=
    List.map_congr_left fun i hi => hview i (List.mem_range.1 hi)
  have hfold : ((((List.range len).map (fun i => a + i)).map addrDie).eraseDups).foldl (fun s d => s.caughtUp t (d * 2 ^ 36)) s = s := by
    refine foldl_eq_self fun d hd => ?_
    simp only [List.mem_eraseDups, List.mem_map, List.mem_range] at hd
    obtain ⟨_, ⟨i, hi, rfl⟩, rfl⟩ := hd
    exact hcaught i hi
  have hbytes : (((List.range len).map (fun i => a + i)).map (fun x => s.rdBytesAt t x 1)).flatten = s.rdBytes a len := by
    have h1 : ((List.range len).map (fun i => a + i)).map (fun x => s.rdBytesAt t x 1) = (List.range len).map (fun i => [s.rdByte (a + i)]) := by
      rw [List.map_map]
      exact List.map_congr_left fun i hi => hread i (List.mem_range.1 hi)
    rw [h1, s.rdBytes_eq_map, ← List.flatMap_def]
    exact (List.map_eq_flatMap ..).symm
  simp only [State.getMemory, hmap, hfold, hbytes]

/-! ### Errors that a read finds -/

/-- Nothing but registers, the host interface and the records of dies differs. -/
def State.RecordsOnly (s t : State) : Prop := t = { s with regs := t.regs, host := t.host, dies := t.dies }

theorem State.RecordsOnly.refl (s : State) : s.RecordsOnly s := rfl

theorem State.RecordsOnly.trans {s t u : State} (h : s.RecordsOnly t) (g : t.RecordsOnly u) : s.RecordsOnly u := by
  unfold State.RecordsOnly at *
  rw [g, h]

theorem State.RecordsOnly.postEvent {s t : State} (h : s.RecordsOnly t) (type part source data : Nat) :
    s.RecordsOnly (t.postEvent type part source data) := by
  obtain ⟨r, x, e⟩ := t.postEvent_shape type part source data
  rw [e]
  exact h.trans rfl

theorem State.RecordsOnly.regs {s t u : State} (h : s.RecordsOnly t) (e : u = { t with regs := u.regs }) : s.RecordsOnly u := by
  rw [e]
  exact h.trans rfl

theorem State.RecordsOnly.setDie {s t : State} (h : s.RecordsOnly t) (d : Nat) (v : DieState) : s.RecordsOnly (t.setDie d v) := h.trans rfl

theorem State.recordsOnly_scheduleRemap (s : State) (d row : Nat) : s.RecordsOnly (s.scheduleRemap d row) := by
  have hs := State.RecordsOnly.refl s
  unfold State.scheduleRemap
  simp only [State.memoryEvent]
  split_ifs
  · exact hs
  · exact (hs.regs (State.set32_shape ..)).postEvent ..
  · exact ((hs.setDie _ _).regs (State.set32_shape ..)).postEvent ..
  · exact (hs.setDie _ _).regs (State.set32_shape ..)

theorem State.recordsOnly_eccCorrected (s : State) (d a : Nat) : s.RecordsOnly (s.eccCorrected d a) := by
  have hcounted : s.RecordsOnly (((s.set32 (Reg.cdMemStatus d) 5).count64 (Reg.cdRasCount d) 32 32 1).rasLast d 1 (a / 8 * 8)) :=
    (((State.RecordsOnly.refl s).regs (State.set32_shape ..)).regs (State.count64_shape ..)).regs (State.w64_shape ..)
  unfold State.eccCorrected
  simp only []
  split_ifs
  · exact (hcounted.setDie _ _).trans (State.recordsOnly_scheduleRemap _ _ _)
  · exact hcounted.setDie _ _

/-- What a read notices goes to the records of the errors, to registers and to events (R173). -/
theorem State.recordsOnly_noticed (s : State) (addrs : List Nat) : s.RecordsOnly (s.noticed addrs) := by
  unfold State.noticed
  split_ifs
  · exact State.RecordsOnly.refl s
  · exact List.foldlRecOn _ _ (motive := s.RecordsOnly) (State.RecordsOnly.refl s) fun _ h _ _ => h.trans (State.recordsOnly_eccCorrected _ _ _)

theorem State.isSoft_word (s : State) (a : Nat) : s.isSoft (8 * (a / 8)) = s.isSoft a := by
  unfold State.isSoft
  rw [Nat.mul_div_cancel_left _ (by decide)]

/-- A read of sound words notices nothing. -/
theorem State.noticed_of_sound (s : State) {a n : Nat} (h : s.Sound a n) : s.noticed ((List.range n).map (fun i => a + i)) = s := by
  unfold State.noticed
  split_ifs
  · rfl
  · refine foldl_eq_self fun w hw => ?_
    simp only [List.mem_filter, List.mem_eraseDups, List.mem_map, List.mem_range] at hw
    obtain ⟨⟨_, ⟨i, hi, rfl⟩, rfl⟩, hsoft⟩ := hw
    rw [s.isSoft_word, h (a + i) (by omega) (by omega)] at hsoft
    exact absurd hsoft (by decide)

/-! ### Reads by a requester -/

/-- A read of memory that acts answers the bytes. -/
theorem State.readBy_memory (s : State) {req a len t tick : Nat} (hp : place a = .memory a) (hk : accessKind req a len false = none)
    (hl : bitAt s.sec.shadow.partRules 1 = false) (hv : viewAddr a = a) (ha : s.onAbsent a = false) :
    s.readBy (.device req a) len t tick = (s.getMemory a len t).2.emit (.readData len (leNat (s.getMemory a len t).1)) := by
  have hget : s.getDevice a len t tick = (leNat (s.getMemory a len t).1, (s.getMemory a len t).2) := by simp [State.getDevice, hv, ha, hp]
  have hlive : s.liveRead a len = false := by simp [State.liveRead, hl]
  simp [State.readBy, State.resolve, barAccessOk, hk, hp, hlive, hget]

/-- A read of bytes of a die that stand, with nothing of its DMA movers under way. -/
theorem State.getMemory_die (s : State) {d g off len t : Nat} (hd : d < 8) (hg : g < 3) (hlen : off + len ≤ regionSize d g)
    (hm : (s.mesh d).idle = true) (hs : s.Still (s.engCycle d t) (d * 2 ^ 36 + g * 2 ^ 32 + off) len) :
    s.getMemory (d * 2 ^ 36 + g * 2 ^ 32 + off) len t = (s.rdBytes (d * 2 ^ 36 + g * 2 ^ 32 + off) len,
      s.noticed ((List.range len).map (fun i => d * 2 ^ 36 + g * 2 ^ 32 + off + i))) := by
  have h32 := regionSize_le d g
  have hdie : ∀ i, i < len → addrDie (d * 2 ^ 36 + g * 2 ^ 32 + off + i) = d := fun i hi => by
    rw [Nat.add_assoc]
    exact addrDie_region (by omega) (by omega)
  refine s.getMemory_eq _ _ _ (fun i hi => viewAddr_eq_self ?_) (fun i hi => ?_) (fun i hi => ?_)
  · rw [hdie i hi]
    omega
  · have hb : addrDie (d * 2 ^ 36) = d := by unfold addrDie; omega
    rw [hdie i hi, State.caughtUp, hb, if_pos hd, s.meshTo_of_idle _ hm]
  · rw [State.rdBytesAt, hdie i hi, if_neg (by omega)]
    simp only [List.range_one, List.map_cons, List.map_nil, Nat.add_zero]
    rw [s.asOf_of_still hs (by omega) (by omega)]

/-- A read of bytes of staging SRAM. -/
theorem State.getMemory_staging (s : State) {off len t : Nat} (hlen : off + len ≤ 2 ^ 32) :
    s.getMemory (8 * 2 ^ 36 + off) len t = (s.rdBytes (8 * 2 ^ 36 + off) len, s.noticed ((List.range len).map (fun i => 8 * 2 ^ 36 + off + i))) := by
  have hdie : ∀ i, i < len → addrDie (8 * 2 ^ 36 + off + i) = 8 := fun i hi => by unfold addrDie; omega
  refine s.getMemory_eq _ _ _ (fun i hi => viewAddr_eq_self ?_) (fun i hi => ?_) (fun i hi => ?_)
  · rw [hdie i hi]
    decide
  · have hb : addrDie (8 * 2 ^ 36) = 8 := by decide
    rw [hdie i hi, State.caughtUp, hb, if_neg (by decide)]
  · rw [State.rdBytesAt, hdie i hi, if_pos le_rfl]
    rfl

/-! ## Writing memory -/

theorem State.wrBytes_shape (s : State) (a : Nat) (b : List Byte) : s.wrBytes a b = { s with mem := (s.wrBytes a b).mem } := by
  induction b generalizing s a with
  | nil => rfl
  | cons y t ih =>
    rw [State.wrBytes, ih]
    rfl

theorem State.wrBytes_past (s : State) (l : List Past) (a : Nat) (b : List Byte) :
    ({ s with past := l } : State).wrBytes a b = { s.wrBytes a b with past := l } := by
  induction b generalizing s a with
  | nil => rfl
  | cons y t ih => exact ih (s.wrByte a y) (a + 1)

/-- A write that no later write stands behind stores its byte. -/
theorem State.putTimed_of_last (s : State) {cyc a : Nat} (b : Byte)
    (h : ∀ p, p ∈ s.past → p.addr = a → p.cyc ≤ cyc ∧ p.rank ≤ rankOther) :
    s.putTimed cyc rankOther a b = { s.wrByte a b with past := ⟨a, cyc, rankOther, s.rdByte a⟩ :: s.past } := by
  have he : s.past.filter (fun p => p.addr == a && (decide (cyc < p.cyc) || (cyc == p.cyc && decide (rankOther < p.rank)))) = [] := by
    rw [List.filter_eq_nil_iff]
    intro p hp
    by_cases hx : p.addr = a
    · obtain ⟨hc, hr⟩ := h p hp hx
      simp [hx, hc, hr]
    · simp [hx]
  simp only [State.putTimed, he, List.getLast?_nil]

/-- The rounds of a write into bytes on which no write is on its way store the bytes, and note each as past. -/
theorem State.putRounds_of_still (s : State) {cyc a : Nat} (b : List Byte) (k : Nat) (h : s.Still cyc (a + k) b.length) :
    ∃ l, (b.zipIdx k).foldl (fun s x => s.putTimed cyc rankOther (a + x.2) x.1) s = { s.wrBytes (a + k) b with past := l ++ s.past }
      ∧ ∀ p, p ∈ l → a + k ≤ p.addr ∧ p.addr < a + k + b.length := by
  induction b generalizing s k with
  | nil => exact ⟨[], rfl, nofun⟩
  | cons y t ih =>
    rw [List.length_cons] at h ⊢
    have hput := s.putTimed_of_last (cyc := cyc) (a := a + k) y (fun p hp hx => h p hp (by omega) (by omega))
    have hstill : State.Still { s.wrByte (a + k) y with past := ⟨a + k, cyc, rankOther, s.rdByte (a + k)⟩ :: s.past } cyc (a + (k + 1)) t.length := by
      intro p hp h1 h2
      rcases List.mem_cons.1 hp with rfl | hp
      · exact ⟨le_rfl, le_rfl⟩
      · exact h p hp (by omega) (by omega)
    obtain ⟨l, hl, hin⟩ := ih _ (k + 1) hstill
    refine ⟨l ++ [⟨a + k, cyc, rankOther, s.rdByte (a + k)⟩], ?_, fun p hp => ?_⟩
    · rw [List.zipIdx_cons, List.foldl_cons, hput, hl, State.wrBytes_past, List.append_assoc]
      rfl
    · rcases List.mem_append.1 hp with hp | hp
      · have := hin p hp
        omega
      · rw [List.mem_singleton.1 hp]
        exact ⟨le_rfl, by simp only; omega⟩

theorem State.setPoisonWords_shape (s : State) (a : Nat) (b : Bool) (n : Nat) :
    s.setPoisonWords a b n = { s with poison := (s.setPoisonWords a b n).poison, soft := (s.setPoisonWords a b n).soft,
                                      selfErr := (s.setPoisonWords a b n).selfErr } := by
  induction n generalizing s a with
  | zero => rfl
  | succ n ih =>
    rw [State.setPoisonWords, ih]
    rfl

/-- Clearing the marks of `n` words from word `w` on. -/
theorem State.poisoned_clearWords (s : State) (w n x : Nat) :
    (s.setPoisonWords (w * 8) false n).poisoned (8 * x) = (s.poisoned (8 * x) && !(decide (w ≤ x) && decide (x < w + n))) := by
  induction n generalizing s w with
  | zero =>
    have h : (decide (w ≤ x) && decide (x < w + 0)) = false := by
      simp only [Bool.and_eq_false_iff, decide_eq_false_iff_not]
      omega
    rw [State.setPoisonWords, h, Bool.not_false, Bool.and_true]
  | succ n ih =>
    rw [State.setPoisonWords, show w * 8 + 8 = (w + 1) * 8 by omega, ih, State.poisoned_setPoison]
    by_cases hx : x = w
    · subst hx
      simp
    · rw [if_neg (by omega)]
      congr 2
      rw [Bool.eq_iff_iff]
      simp only [Bool.and_eq_true, decide_eq_true_eq]
      omega

/-- Nothing but memory, its marks and the writes of late differs. -/
def State.MemoryOnly (s t : State) : Prop :=
  t = { s with mem := t.mem, poison := t.poison, selfErr := t.selfErr, soft := t.soft, past := t.past }

theorem State.MemoryOnly.trans {s t u : State} (h : s.MemoryOnly t) (g : t.MemoryOnly u) : s.MemoryOnly u := by
  unfold State.MemoryOnly at *
  rw [g, h]

theorem State.MemoryOnly.landStamp_eq {s t : State} (h : s.MemoryOnly t) (d n : Nat) : t.landStamp d n = s.landStamp d n := by
  rw [h]
  rfl

/-- `t` is the state after the bytes `b` have been stored at `a`: they read back, every other byte stays, the marks of the words covered
whole are clear, and nothing else differs (R174). -/
structure State.Stored (s t : State) (a : Nat) (b : List Byte) : Prop where
  bytes : t.rdBytes a b.length = b
  others : s.SameBytesBut t a b.length
  marks : ∀ x, t.poisoned (8 * x) = (s.poisoned (8 * x) && !(decide (a ≤ 8 * x) && decide (8 * x + 8 ≤ a + b.length)))
  frame : s.MemoryOnly t

/-- Bytes in memory, their words rewritten and the marks of the whole ones cleared, are stored. -/
theorem State.Stored.of_mem {s u : State} {a : Nat} {b : List Byte} (c d : Nat) (h : u = { s with mem := (s.wrBytes a b).mem, past := u.past }) :
    s.Stored ((u.rewritten c d).setPoisonWords (ceilDiv a 8 * 8) false ((a + b.length) / 8 - ceilDiv a 8)) a b
      ∧ ((u.rewritten c d).setPoisonWords (ceilDiv a 8 * 8) false ((a + b.length) / 8 - ceilDiv a 8)).past = u.past := by
  have hmem : u.mem = (s.wrBytes a b).mem := by rw [h]
  have hpoison : u.poison = s.poison := by rw [h]
  have hbyte : ∀ x, ((u.rewritten c d).setPoisonWords (ceilDiv a 8 * 8) false ((a + b.length) / 8 - ceilDiv a 8)).rdByte x
      = (s.wrBytes a b).rdByte x := fun x => by
    rw [State.rdByte_setPoisonWords, State.rdByte_rewritten]
    unfold State.rdByte
    rw [hmem]
  refine ⟨⟨?_, fun x hx => ?_, fun x => ?_, ?_⟩, ?_⟩
  · rw [State.rdBytes_congr (s.wrBytes a b) _ a _ (fun x _ _ => hbyte x), State.rdBytes_wrBytes_same]
  · rw [hbyte, State.rdByte_wrBytes_other s a b x hx]
  · have hu : (u.rewritten c d).poisoned (8 * x) = s.poisoned (8 * x) := by
      unfold State.poisoned
      rw [State.rewritten_poison, hpoison]
    rw [State.poisoned_clearWords, hu]
    congr 2
    rw [Bool.eq_iff_iff]
    simp only [Bool.and_eq_true, decide_eq_true_eq]
    unfold ceilDiv
    omega
  · rw [State.setPoisonWords_shape, h]
    rfl
  · rw [State.setPoisonWords_shape]
    rfl

/-- A store to staging SRAM. -/
theorem State.stored_store (s : State) (a : Nat) (b : List Byte) : s.Stored (s.store a b) a b ∧ (s.store a b).past = s.past := by
  have h := State.Stored.of_mem (u := s.wrBytes a b) (s := s) (a := a) (b := b) a (a + b.length - 1) (by rw [s.wrBytes_shape])
  have hp : (s.wrBytes a b).past = s.past := by rw [s.wrBytes_shape]
  exact ⟨h.1, h.2.trans hp⟩

/-- A store into bytes of a die on which no write is on its way; what it notes as past lies at the bytes stored. -/
theorem State.stored_storeAt (s : State) {t a : Nat} {b : List Byte} (hd : addrDie a < 8) (hs : s.Still (s.landStamp (addrDie a) t) a b.length) :
    s.Stored (s.storeAt t a b) a b ∧ ∃ l, (s.storeAt t a b).past = l ++ s.past ∧ ∀ p, p ∈ l → a ≤ p.addr ∧ p.addr < a + b.length := by
  obtain ⟨l, hl, hin⟩ := s.putRounds_of_still (a := a) b 0 hs
  have hu : ({ s.wrBytes a b with past := l ++ s.past } : State) = { s with mem := (s.wrBytes a b).mem, past := l ++ s.past } := by
    rw [s.wrBytes_shape]
  obtain ⟨hst, hpast⟩ := State.Stored.of_mem (u := { s.wrBytes a b with past := l ++ s.past }) a (a + b.length - 1) hu
  have e : s.storeAt t a b = (({ s.wrBytes a b with past := l ++ s.past } : State).rewritten a (a + b.length - 1)).setPoisonWords (ceilDiv a 8 * 8)
      false ((a + b.length) / 8 - ceilDiv a 8) := by
    rw [State.storeAt, if_neg (by omega)]
    simp only [hl, Nat.add_zero]
  rw [e]
  exact ⟨hst, l, hpast, hin⟩

/-! ### Writes by a requester -/

/-- A write of memory outside the interleaved view that acts stores the bytes. -/
theorem State.writeBy_memory (s : State) {req a t : Nat} {b : List Byte} (hp : place a = .memory a) (hk : accessKind req a b.length true = none)
    (h14 : addrDie a ≠ 14) (ha : s.onAbsent a = false) : s.writeBy (.device req a) b t = s.storeAt t a b := by
  have hput : s.putMemory a t b (b.length / 512 + 2) = s.storeAt t a b := by
    rw [show b.length / 512 + 2 = b.length / 512 + 1 + 1 from rfl, State.putMemory, if_pos h14, ha]
    rfl
  simp [State.writeBy, State.resolve, barAccessOk, hk, State.putDevice, hp, hput]

/-- What a broadcast to the memory of several dies leaves (R15): on each the bytes, and every other byte as it was. -/
theorem State.stored_onDies (s : State) (l : List Nat) (off n : Nat) (b : List Byte) (hl : l.Nodup) (h8 : ∀ d, d ∈ l → d < 8)
    (hoff : off + b.length ≤ 2 ^ 32) (ho : off < 2 ^ 32) (hs : ∀ d, d ∈ l → s.Still (s.landStamp d n) (d * 2 ^ 36 + off) b.length) :
    ∃ t, l.foldl (fun s d => s.storeAt n (d * 2 ^ 36 + off) b) s = t ∧ (∀ d, d ∈ l → t.rdBytes (d * 2 ^ 36 + off) b.length = b)
      ∧ (∀ x, (∀ d, d ∈ l → x < d * 2 ^ 36 + off ∨ d * 2 ^ 36 + off + b.length ≤ x) → t.rdByte x = s.rdByte x)
      ∧ s.MemoryOnly t := by
  induction l generalizing s with
  | nil => exact ⟨s, rfl, nofun, fun _ _ => rfl, rfl⟩
  | cons d l ih =>
    have hd := h8 d (List.mem_cons_self ..)
    have hdie : addrDie (d * 2 ^ 36 + off) = d := by unfold addrDie; omega
    obtain ⟨hnot, hnodup⟩ := List.nodup_cons.1 hl
    obtain ⟨hst, p, hpast, hin⟩ := s.stored_storeAt (t := n) (a := d * 2 ^ 36 + off) (b := b) (by omega)
      (by rw [hdie]; exact hs d (List.mem_cons_self ..))
    rw [List.foldl_cons]
    generalize s.storeAt n (d * 2 ^ 36 + off) b = u at hst hpast ⊢
    have hstill : ∀ e, e ∈ l → u.Still (u.landStamp e n) (e * 2 ^ 36 + off) b.length := by
      intro e he q hq h1 h2
      rw [hst.frame.landStamp_eq]
      rw [hpast] at hq
      rcases List.mem_append.1 hq with hq | hq
      · have hne : e ≠ d := fun h => hnot (h ▸ he)
        have := hin q hq
        omega
      · exact hs e (List.mem_cons_of_mem _ he) q hq h1 h2
    obtain ⟨t, ht, hbytes, hothers, hframe⟩ := ih u hnodup (fun e he => h8 e (List.mem_cons_of_mem _ he)) hstill
    refine ⟨t, ht, fun e he => ?_, fun x hx => ?_, hst.frame.trans hframe⟩
    · rcases List.mem_cons.1 he with rfl | he
      · refine Eq.trans (State.rdBytes_congr _ t _ _ fun x h1 h2 => hothers x fun e' he' => ?_) hst.bytes
        have hne : e' ≠ e := fun h => hnot (h ▸ he')
        omega
      · exact hbytes e he
    · rw [hothers x fun e he => hx e (List.mem_cons_of_mem _ he)]
      exact hst.others x (hx d (List.mem_cons_self ..))

/-! ## MemoryIsReadAndWrittenByAddress -/

theorem State.onAbsent_region (s : State) {d g off : Nat} (hg : g < 16) (ho : off < 2 ^ 32) (hd : (s.die d).cond ≠ .absent) :
    s.onAbsent (d * 2 ^ 36 + g * 2 ^ 32 + off) = false :=
  s.onAbsent_of_present (by rwa [addrDie_region hg ho])

theorem State.rdBytes_upset (s : State) (u : List (BitVec 37)) (a n : Nat) : (s.upset u).rdBytes a n = s.rdBytes a n :=
  State.rdBytes_congr s _ a n fun _ _ _ => rfl

/-- A service-path read of a die's memory answers its bytes, and notes what it finds. -/
theorem State.exec_readDie (s : State) (r d g off len n tick : Nat) (u : List (BitVec 37)) (hd : d < 8) (hg : g < 3) (ho : off < regionSize d g)
    (hlen : off + len ≤ regionSize d g) (hp : (s.die d).cond ≠ .absent) (hl : bitAt s.sec.shadow.partRules 1 = false)
    (hm : (s.mesh d).idle = true) (hs : s.Still (s.engCycle d n) (d * 2 ^ 36 + g * 2 ^ 32 + off) len) :
    exec (.serviceAccess (.device r (d * 2 ^ 36 + g * 2 ^ 32 + off)) len none n tick u) s
      = .next (((s.upset u).noticed ((List.range len).map (fun i => d * 2 ^ 36 + g * 2 ^ 32 + off + i))).emit
          (.readData len (s.rdNat (d * 2 ^ 36 + g * 2 ^ 32 + off) len))) := by
  have h32 := lt_of_lt_of_le ho (regionSize_le d g)
  have hview : viewAddr (d * 2 ^ 36 + g * 2 ^ 32 + off) = d * 2 ^ 36 + g * 2 ^ 32 + off :=
    viewAddr_eq_self (by rw [addrDie_region (by omega) h32]; omega)
  have e := (s.upset u).readBy_memory (req := r) (t := n) (tick := tick) (place_region (Or.inl hd) hg ho)
    (accessKind_region false (Or.inl hd) hg ho hlen (by omega)) hl hview (State.onAbsent_region _ (by omega) h32 hp)
  rw [State.getMemory_die (s.upset u) hd hg hlen hm hs, s.rdBytes_upset] at e
  exact congrArg Host.Outcome.next e

/-- A service-path write of a die's memory stores its bytes. -/
theorem State.exec_writeDie (s : State) (r d g off n tick len : Nat) (b : List Byte) (u : List (BitVec 37)) (hd : d < 8) (hg : g < 3)
    (ho : off < regionSize d g) (hlen : off + b.length ≤ regionSize d g) (hp : (s.die d).cond ≠ .absent) :
    exec (.serviceAccess (.device r (d * 2 ^ 36 + g * 2 ^ 32 + off)) len (some b) n tick u) s
      = .next ((s.upset u).storeAt n (d * 2 ^ 36 + g * 2 ^ 32 + off) b) := by
  have h32 := lt_of_lt_of_le ho (regionSize_le d g)
  have h14 : addrDie (d * 2 ^ 36 + g * 2 ^ 32 + off) ≠ 14 := by rw [addrDie_region (by omega) h32]; omega
  exact congrArg Host.Outcome.next ((s.upset u).writeBy_memory (place_region (Or.inl hd) hg ho) (accessKind_region true (Or.inl hd) hg ho hlen (by omega)) h14
    (State.onAbsent_region _ (by omega) h32 hp))

section

variable {off : BitVec 29}

theorem place_staging (off : BitVec 29) : place (8 * 2 ^ 36 + off.toNat) = .memory (8 * 2 ^ 36 + off.toNat) :=
  place_region (d := 8) (g := 0) (Or.inr ⟨rfl, rfl⟩) (by decide) off.isLt

theorem accessKind_staging {len : Nat} (write : Bool) (h : off.toNat + len ≤ 0x1C000000) :
    accessKind reqHost (8 * 2 ^ 36 + off.toNat) len write = none :=
  accessKind_region (d := 8) (g := 0) write (Or.inr ⟨rfl, rfl⟩) (by decide) off.isLt (h.trans (by decide)) (fun _ => h)

theorem addrDie_staging (off : BitVec 29) : addrDie (8 * 2 ^ 36 + off.toNat) = 8 := by
  have := off.isLt
  unfold addrDie
  omega

theorem State.onAbsent_staging (s : State) (off : BitVec 29) : s.onAbsent (8 * 2 ^ 36 + off.toNat) = false := by
  rw [State.onAbsent, addrDie_staging]
  rfl

/-- A read of staging SRAM answers its bytes, and notes what it finds. -/
theorem State.exec_readStaging (s : State) (off : BitVec 29) {len : Nat} (h : off.toNat + len ≤ 0x1C000000)
    (hl : bitAt s.sec.shadow.partRules 1 = false) :
    exec (.stagingAccess off len none) s = .next ((s.noticed ((List.range len).map (fun i => 8 * 2 ^ 36 + off.toNat + i))).emit
      (.readData len (s.rdNat (8 * 2 ^ 36 + off.toNat) len))) := by
  have e := s.readBy_memory (t := 0) (tick := 0) (place_staging off) (accessKind_staging false h) hl
    (viewAddr_eq_self (by rw [addrDie_staging]; decide)) (s.onAbsent_staging off)
  rw [s.getMemory_staging (h.trans (by decide))] at e
  exact congrArg Host.Outcome.next e

/-- A write of staging SRAM stores its bytes. -/
theorem State.exec_writeStaging (s : State) (off : BitVec 29) (len : Nat) {b : List Byte} (h : off.toNat + b.length ≤ 0x1C000000) :
    exec (.stagingAccess off len (some b)) s = .next (s.store (8 * 2 ^ 36 + off.toNat) b) := by
  have e := s.writeBy_memory (t := 0) (place_staging off) (accessKind_staging true h) (by rw [addrDie_staging]; decide)
    (s.onAbsent_staging off)
  rw [State.storeAt, addrDie_staging, if_pos le_rfl] at e
  exact congrArg Host.Outcome.next e

end

theorem place_broadcast {a : Nat} (h : a < 2 ^ 40) (hd : addrDie a = 15) (hg : addrRegion a = 0) : place a = .broadcast 0 (addrOffset a) := by
  simp only [place, hd, hg, if_neg (Nat.not_le.2 h), if_neg (show ¬(15 : Nat) = 14 by decide), if_true, true_or]

/-- A broadcast to region 0 that acts stores on every present die (R15). -/
theorem State.writeBy_broadcast (s : State) {req a t : Nat} {b : List Byte} (h : a < 2 ^ 40) (hd : addrDie a = 15) (hg : addrRegion a = 0)
    (hlen : addrOffset a + b.length ≤ 2 ^ 32) :
    s.writeBy (.device req a) b t
      = ((List.range 8).filter (fun d => !s.dieAbsent d)).foldl (fun s d => s.storeAt t (d * 2 ^ 36 + addrOffset a) b) s := by
  have hp := place_broadcast h hd hg
  have hk : accessKind req a b.length true = none := by simp only [accessKind, hp, if_true, if_pos hlen]; rfl
  simp [State.writeBy, State.resolve, barAccessOk, hk, State.putDevice, hp, State.putBroadcast]

theorem State.exec_broadcastWrite (s : State) (r : Fin 32) (off : BitVec 32) (b : List Byte) (n : Nat) (hlen : off.toNat + b.length ≤ 2 ^ 32) :
    exec (.broadcastWrite r 0 off b n) s
      = .next (((List.range 8).filter (fun d => !s.dieAbsent d)).foldl (fun s d => s.storeAt n (d * 2 ^ 36 + off.toNat) b) s) := by
  have h1 := addrDie_region (d := 15) (g := 0) (by decide) off.isLt
  have h2 := addrRegion_region (d := 15) (g := 0) (by decide) off.isLt
  have h3 := addrOffset_region (d := 15) (g := 0) off.isLt
  have h40 : 15 * 2 ^ 36 + 0 * 2 ^ 32 + off.toNat < 2 ^ 40 := by
    have := off.isLt
    omega
  have e := s.writeBy_broadcast (req := r) (t := n) h40 h1 h2 (b := b) (by rwa [h3])
  rw [h3] at e
  exact congrArg Host.Outcome.next e

/-- An address of DIE 9 to 13 is reserved. -/
theorem place_reservedDie {a : Nat} (h1 : 9 ≤ addrDie a) (h2 : addrDie a ≤ 13) : place a = .reserved 0 := by
  have h40 : ¬2 ^ 40 ≤ a := by unfold addrDie at h2; omega
  rw [place, if_neg h40, if_neg (by omega), if_neg (by omega), if_pos (by omega)]

/-- A read of a reserved DIE answers zeros and is captured. -/
theorem State.exec_readReservedDie (s : State) (r a len n tick : Nat) (u : List (BitVec 37)) (h1 : 9 ≤ addrDie a) (h2 : addrDie a ≤ 13) :
    exec (.serviceAccess (.device r a) len none n tick u) s = .next (((s.upset u).capture a r 0 false).emit (.readData len 0)) := by
  have hk : accessKind r a len false = some 0 := by simp only [accessKind, place_reservedDie h1 h2]
  have e : (s.upset u).readBy (.device r a) len n tick = ((s.upset u).capture a r 0 false).emit (.readData len 0) := by
    simp [State.readBy, State.resolve, barAccessOk, hk, captureAddr]
  exact congrArg Host.Outcome.next e

/-- Settles O9: reads answer the bytes at the address, writes store there alone, and a reserved DIE is captured. -/
theorem memoryIsReadAndWrittenByAddress : Obligations.MemoryIsReadAndWrittenByAddress := by
  refine ⟨fun s r d g off len n tick u hd hg ho hlen hp hl hm hs => ⟨?_, fun hsound => ?_⟩,
    fun s r d g off n tick len b u hd hg ho hlen hp hs => ?_, fun s off len h hl hsound => ?_, fun s off len b h => ?_,
    fun s r off b n hlen hs => ?_, fun s r a len n tick u h1 h2 h31 => ?_⟩
  · have hrec := State.recordsOnly_noticed (s.upset u) ((List.range len).map (fun i => d * 2 ^ 36 + g * 2 ^ 32 + off + i))
    refine ⟨_, s.exec_readDie r d g off len n tick u hd hg ho hlen hp hl hm hs, ?_, ?_⟩
    · rw [State.emit_out, hrec]
      rfl
    · refine State.SameBytes.of_mem ?_ ?_
      · rw [State.emit_mem, hrec]
        rfl
      · rw [State.emit_poison, hrec]
        rfl
  · rw [s.exec_readDie r d g off len n tick [] hd hg ho hlen hp hl hm hs, show s.upset [] = s from rfl, s.noticed_of_sound hsound]
    rfl
  · have h32 := lt_of_lt_of_le ho (regionSize_le d g)
    have hdie := addrDie_region (d := d) (by omega : g < 16) h32
    obtain ⟨hst, -⟩ := (s.upset u).stored_storeAt (t := n) (a := d * 2 ^ 36 + g * 2 ^ 32 + off) (b := b) (by omega) (by rw [hdie]; exact hs)
    exact ⟨_, s.exec_writeDie r d g off n tick len b u hd hg ho hlen hp, hst.bytes, hst.others, hst.marks, hst.frame⟩
  · rw [s.exec_readStaging off h hl, s.noticed_of_sound hsound]
    rfl
  · obtain ⟨hst, hpast⟩ := s.stored_store (8 * 2 ^ 36 + off.toNat) b
    refine ⟨_, s.exec_writeStaging off len h, hst.bytes, hst.others, ?_⟩
    have hframe := hst.frame
    rw [State.MemoryOnly, hpast] at hframe
    exact hframe
  · have hmem : ∀ d, d ∈ (List.range 8).filter (fun d => !s.dieAbsent d) ↔ d < 8 ∧ (s.die d).cond ≠ .absent := fun d => by
      simp [State.dieAbsent]
    obtain ⟨t, ht, hbytes, hothers, hframe⟩ := s.stored_onDies ((List.range 8).filter (fun d => !s.dieAbsent d)) off.toNat n b
      (List.nodup_range.filter _) (fun d hd => ((hmem d).1 hd).1) hlen off.isLt (fun d hd => hs d ((hmem d).1 hd).1)
    refine ⟨t, by rw [s.exec_broadcastWrite r off b n hlen, ht], fun d hd hp => hbytes d ((hmem d).2 ⟨hd, hp⟩),
      fun x hx => hothers x fun d hd => hx d ((hmem d).1 hd).1 ((hmem d).1 hd).2, hframe⟩
  · obtain ⟨haddr, hinfo⟩ := (s.upset u).capture_new a r 0 false h31
    have h40 : a < 2 ^ 40 := by unfold addrDie at h2; omega
    refine ⟨_, s.exec_readReservedDie r a len n tick u h1 h2, ?_, haddr.trans (Nat.mod_eq_of_lt h40), ?_, ?_, ?_,
      (State.tellsOnly_capture _ _ _ _ _).trans rfl, State.sameRegs_capture (s.upset u) a r 0 false⟩
    · rw [State.emit_out, State.capture_out]
      rfl
    · rw [State.r32_emit, hinfo, bitAt, fld, beq_iff_eq]
      simp only [Bool.false_eq_true, if_false]
      omega
    · rw [State.f32, State.r32_emit, hinfo, fld]
      simp only [Bool.false_eq_true, if_false]
      omega
    · rw [State.f32, State.r32_emit, hinfo, fld]
      simp only [Bool.false_eq_true, if_false]
      omega

end Sys2Proof.Machine
end

/-! The Hour, change sets, the reference and the end of a Dawn (02_the_hour_and_partitions.md, 16_clocks_power_sleep.md,
17_dawn_resets_recovery.md). -/

section

namespace Sys2Proof.Machine

/-! ## Steps that write register words alone -/

/-- Nothing but the register words that `f` names differs. -/
def State.WordsOnly (s t : State) (f : Nat → Bool) : Prop := t = { s with regs := t.regs } ∧ s.SameRegsBut t f

section

variable {s t u : State} {f : Nat → Bool}

theorem State.WordsOnly.refl (s : State) (f : Nat → Bool) : s.WordsOnly s f := ⟨rfl, fun _ _ => rfl⟩

theorem State.WordsOnly.trans (h : s.WordsOnly t f) (g : t.WordsOnly u f) : s.WordsOnly u f := by
  refine ⟨?_, h.2.trans g.2⟩
  rw [g.1, h.1]

theorem State.wordsOnly_w32 (s : State) (v : Nat) {a : Nat} (ha : f a = true) : s.WordsOnly (s.w32 a v) f := by
  refine ⟨rfl, fun b hb => State.r32_w32_other s a v b ?_⟩
  rintro rfl
  exact Bool.false_ne_true (hb.symm.trans ha)

theorem State.wordsOnly_w64 (s : State) (v : Nat) {a : Nat} (ha : f a = true) (h4 : f (a + 4) = true) : s.WordsOnly (s.w64 a v) f :=
  (s.wordsOnly_w32 _ ha).trans (State.wordsOnly_w32 _ _ h4)

theorem State.WordsOnly.foldl {α : Type} {g : State → α → State} (l : List α) (hg : ∀ (u : State) x, x ∈ l → u.WordsOnly (g u x) f) :
    s.WordsOnly (l.foldl g s) f :=
  List.foldlRecOn l g (motive := fun u => s.WordsOnly u f) (.refl s f) fun u hu x hx => hu.trans (hg u x hx)

end

/-! ## Change sets (R54, R61, R345) -/

/-- The words of TOP_PART_STATUS of the 64 partitions. -/
def partStatusRegs (a : Nat) : Bool := (List.range 64).any (fun n => a == Reg.topPartStatus n)

/-- PLANNED_WAIT stands in TOP_PART_STATUS. -/
theorem State.wordsOnly_planWaits (s : State) : s.WordsOnly s.planWaits partStatusRegs := by
  refine State.WordsOnly.foldl _ fun u n hn => ?_
  have hreg : partStatusRegs (Reg.topPartStatus n) = true := List.any_eq_true.2 ⟨n, hn, beq_self_eq_true _⟩
  dsimp only
  split
  · exact .refl u _
  · exact u.wordsOnly_w32 _ hreg

/-- Bytes of a descriptor that are 0 are 0 in every part. -/
theorem desc_zero_sub {d : Desc} {b e b' e' : Nat} (h : d.zero b e = true) (hb : b ≤ b') (he : e' ≤ e) : d.zero b' e' = true := by
  simp only [Desc.zero, Desc.f, beq_iff_eq] at h ⊢
  refine Nat.eq_of_testBit_eq fun j => ?_
  have hz := congrArg (fun n => Nat.testBit n (8 * (b' - b) + j)) h
  simp only [testBit_fld, Nat.zero_testBit, Bool.and_eq_false_iff, decide_eq_false_iff_not] at hz ⊢
  rw [show 8 * b + (8 * (b' - b) + j) = 8 * b' + j by omega] at hz
  rcases hz with hj | hbit
  · exact .inl (by omega)
  · exact .inr hbit

/-- The state in which a change set waits behind those that already wait. -/
def State.addSet (s : State) (c : ChangeSet) : State := { s with host := { s.host with sets := s.host.sets ++ [c] } }

section

variable {s : State} {d : Desc} {b : List Byte} {p : HostRead}

/-- A set that is not planned, and whose descriptor keeps its layout, completes with 0x14 or 0x60, or waits. -/
theorem changeSet_of_layout (h1 : 1 ≤ d.f 16 2) (h2 : d.f 16 2 ≤ 256) (hz : d.zero 18 24 = true) (hz' : d.zero 32 64 = true)
    (hplan : bitAt (d.f 1 1) 1 = false) (hal : d.f 8 8 % 16 = 0) (hend : d.f 8 8 + 16 * d.f 16 2 ≤ 2 ^ 64) :
    changeSet d (.bytes b) p s
      = if (regEntries b (d.f 16 2)).all entryOk = false then s.complete 0 d.cmdId 0x14 0 0
        else if d.f 24 8 ≠ 0 ∧ d.f 24 8 ≤ s.hour.opened then s.complete 0 d.cmdId 0x60 0 0
        else (s.addSet ⟨d.cmdId, false, d.f 24 8, regEntries b (d.f 16 2), s.hour.opened⟩).planWaits := by
  have hlow : d.zero 32 40 = true := desc_zero_sub hz' (by omega) (by omega)
  have hhigh : d.zero 40 64 = true := desc_zero_sub hz' (by omega) (by omega)
  have hany : (regEntries b (d.f 16 2)).any (fun e => !entryOk e) = !(regEntries b (d.f 16 2)).all entryOk := by
    rw [List.all_eq_not_any_not, Bool.not_not]
  simp only [changeSet, hplan, hz, hlow, hhigh, hal, hany, Bool.not_true, Bool.false_eq_true, Bool.not_false, and_false, or_false, ne_eq,
    not_true_eq_false, false_or, if_false, Bool.not_eq_true']
  rw [if_neg (by omega), if_neg (by omega)]
  rfl

end

/-- What is read of the rings is read of them alone. -/
theorem State.CanTell.of_rings {s t : State} {rid : Nat} (h : s.CanTell rid) (e : t.host.rings = s.host.rings) : t.CanTell rid := by
  simp only [State.CanTell, State.cqOf, State.ring, e] at h ⊢
  exact h

theorem State.sets_complete (s : State) (rid cmdId status r0 r1 : Nat) : (s.complete rid cmdId status r0 r1).host.sets = s.host.sets := by
  obtain ⟨r, o, k, e⟩ := s.complete_host rid cmdId status r0 r1
  rw [e]

/-- A change set that completes with a status is told, and does not wait. -/
theorem State.refuses_complete (s : State) (d : Desc) (status : Nat) (h : s.CanTell 0) :
    s.Told (s.complete 0 d.cmdId status 0 0) 0 d.cmdId status 0 0 ∧ (s.complete 0 d.cmdId status 0 0).host.sets = s.host.sets
      ∧ s.TellsOnly (s.complete 0 d.cmdId status 0 0) ∧ s.SameRegsBut (s.complete 0 d.cmdId status 0 0) toldRegs :=
  ⟨s.told_complete 0 d.cmdId status 0 0 h d.cmdId_ne_gone, s.sets_complete 0 d.cmdId status 0 0, s.tellsOnly_complete 0 d.cmdId status 0 0,
    s.sameRegs_complete 0 d.cmdId status 0 0⟩

/-- A set that waits changes the list of sets and PLANNED_WAIT alone. -/
theorem State.waits_addSet (s : State) (c : ChangeSet) :
    (s.addSet c).planWaits.host.sets = s.host.sets ++ [c]
      ∧ (s.addSet c).planWaits = { s with host := { s.host with sets := (s.addSet c).planWaits.host.sets }, regs := (s.addSet c).planWaits.regs }
      ∧ s.SameRegsBut (s.addSet c).planWaits partStatusRegs := by
  obtain ⟨hshape, hregs⟩ := (s.addSet c).wordsOnly_planWaits
  have hsets : (s.addSet c).planWaits.host.sets = s.host.sets ++ [c] := by rw [hshape]; rfl
  refine ⟨hsets, ?_, hregs⟩
  rw [hsets]
  exact hshape

/-- PLANNED_TIMEOUT ends the first overdue planned set. -/
theorem plannedTimeout_some {s : State} {c : ChangeSet}
    (hc : s.host.sets.find? (fun c => c.planned && decide (max c.target (c.takenAt + 1) + 4096 ≤ s.hourCount)) = some c) :
    plannedTimeout s = (({ s with host := { s.host with sets := s.host.sets.erase c } }).complete 0 c.cmdId 0x61 0 0).planWaits := by
  simp only [plannedTimeout, hc]

/-- Settles O14: the three outcomes of CHANGE_SET are the branches of `changeSet_of_layout`, and PLANNED_TIMEOUT tells before it settles
PLANNED_WAIT. -/
theorem changeSetsWaitForTheirHour : Obligations.ChangeSetsWaitForTheirHour := by
  refine ⟨fun s d b p h1 h2 hz hz' hplan hal hend => ?_, fun s c hc hid htell => ?_⟩
  · have he : exec (.changeSet d (.bytes b) p) s = .next _ :=
      congrArg Host.Outcome.next (changeSet_of_layout (s := s) (b := b) (p := p) h1 h2 hz hz' hplan hal hend)
    rw [he]
    refine ⟨fun hok htarget => ?_, fun hok hnz hpast htell => ?_, fun hbad htell => ?_⟩
    · rw [if_neg (by simp [hok]), if_neg (by omega)]
      exact ⟨_, rfl, s.waits_addSet _⟩
    · rw [if_neg (by simp [hok]), if_pos ⟨hnz, hpast⟩]
      exact ⟨_, rfl, s.refuses_complete d _ htell⟩
    · rw [if_pos hbad]
      exact ⟨_, rfl, s.refuses_complete d _ htell⟩
  · refine ⟨_, congrArg Host.Outcome.next (plannedTimeout_some hc), ?_⟩
    let u : State := { s with host := { s.host with sets := s.host.sets.erase c } }
    obtain ⟨hshape, hregs⟩ := (u.complete 0 c.cmdId 0x61 0 0).wordsOnly_planWaits
    have htold := u.told_complete 0 c.cmdId 0x61 0 0 (htell.of_rings rfl) (Nat.ne_of_lt hid)
    have hout := congrArg State.out hshape
    have hhost := congrArg State.host hshape
    refine ⟨?_, ?_, ?_, fun a ha => ?_⟩
    · obtain ⟨e, hmem, hfields⟩ := htold
      exact ⟨e, hout ▸ hmem, hfields⟩
    · exact (congrArg HostIf.sets hhost).trans (u.sets_complete ..)
    · have htells : u.TellsOnly (u.complete 0 c.cmdId 0x61 0 0).planWaits :=
        (u.tellsOnly_complete ..).trans (State.TellsOnly.of_eq _ _ _ hshape)
      exact State.TellsOnly.trans (t := u) rfl htells
    · simp only [Bool.or_eq_false_iff] at ha
      exact (hregs a ha.2).trans (u.sameRegs_complete 0 c.cmdId 0x61 0 0 a ha.1)

/-! ## The reference, the rails, droop and the guard (R67, R417, R420, R427, R428) -/

section

variable (s : State)

theorem State.f64_count64_same (a lo w k : Nat) (h : lo + w ≤ 64) : (s.count64 a lo w k).f64 a lo w = min (s.f64 a lo w + k) (2 ^ w - 1) := by
  have hle := satAdd_le w (s.f64 a lo w) k
  have hpos := Nat.two_pow_pos w
  rw [State.count64, State.f64_sf64_same _ _ _ _ _ h, Nat.mod_eq_of_lt (by omega), satAdd]

/-- The words of a 64-bit register. -/
theorem pairOf_words (a : Nat) : pairOf a a = true ∧ pairOf a (a + 4) = true := by simp [pairOf]

theorem State.wordsOnly_sf64 (a lo w x : Nat) : s.WordsOnly (s.sf64 a lo w x) (pairOf a) :=
  s.wordsOnly_w64 _ (pairOf_words a).1 (pairOf_words a).2

theorem State.wordsOnly_sf32 (a lo w x : Nat) : s.WordsOnly (s.sf32 a lo w x) (fun b => b == a) := s.wordsOnly_w32 _ (beq_self_eq_true a)

/-- Four low bits one after the other. -/
theorem fld_setFld_nibble (n b0 b1 b2 b3 : Nat) :
    fld (setFld (setFld (setFld (setFld n 0 1 b0) 1 1 b1) 2 1 b2) 3 1 b3) 0 4 = b0 % 2 + 2 * (b1 % 2) + 4 * (b2 % 2) + 8 * (b3 % 2) := by
  simp only [setFld_eq, fld]
  omega

/-! ### The reference -/

/-- The status of the reference after its loss. -/
def State.holdover : State := (((s.clr32 Reg.clkRef 0).set32 Reg.clkRef 1).set32 Reg.clkRef 2).set32 Reg.clkRef 3

theorem State.holdover_status : fld (s.holdover.r32 Reg.clkRef) 0 4 = 0xE := by
  simp only [State.holdover, State.set32, State.clr32]
  rw [State.r32_sf32_same _ _ _ _ _ (by decide), State.r32_sf32_same _ _ _ _ _ (by decide), State.r32_sf32_same _ _ _ _ _ (by decide),
    State.r32_sf32_same _ _ _ _ _ (by decide), fld_setFld_nibble]

theorem State.wordsOnly_holdover : s.WordsOnly s.holdover (fun b => b == Reg.clkRef) :=
  (((s.wordsOnly_sf32 ..).trans (State.wordsOnly_sf32 ..)).trans (State.wordsOnly_sf32 ..)).trans (State.wordsOnly_sf32 ..)

/-- The registers that a port's end writes: its status and those of the event. -/
def portRegs (a : Nat) : Bool := eventRegs a || (List.range 12).any (fun p => pairOf (Reg.tclPortStatus p) a)

/-- Nothing but the ports, the event queue and their registers differs. -/
def State.PortsOnly (s t : State) : Prop := t = { s with regs := t.regs, host := t.host, ports := t.ports } ∧ s.SameRegsBut t portRegs

theorem State.PortsOnly.trans {s t u : State} (h : s.PortsOnly t) (g : t.PortsOnly u) : s.PortsOnly u := by
  refine ⟨?_, h.2.trans g.2⟩
  rw [g.1, h.1]

theorem State.portsOnly_postEvent (type part source data : Nat) : s.PortsOnly (s.postEvent type part source data) := by
  refine ⟨?_, fun a ha => s.sameRegs_postEvent type part source data a (Bool.or_eq_false_iff.1 ha).1⟩
  obtain ⟨r, h, e⟩ := s.postEvent_shape type part source data
  rw [e]

theorem State.portsOnly_portGone {p : Nat} (hp : p < 12) : s.PortsOnly (s.portGone p) := by
  have hport : ∀ (u : State) x, s.PortsOnly (s.setPort p x) := fun _ _ => ⟨rfl, fun _ _ => rfl⟩
  have hflag : ∀ u : State, u.PortsOnly (u.portFlag p 6) := fun u => by
    obtain ⟨hshape, hregs⟩ := u.wordsOnly_sf64 (Reg.tclPortStatus p) 6 1 1
    refine ⟨by rw [State.portFlag, hshape], fun a ha => hregs a ?_⟩
    have hany := (Bool.or_eq_false_iff.1 ha).2
    rw [List.any_eq_false] at hany
    simpa using hany p (List.mem_range.2 hp)
  exact ((hport s _).trans (hflag _)).trans (State.portsOnly_postEvent ..)

/-- The ports in service lose lock. -/
def State.loseLock : State := (List.range 12).foldl (fun s p => if s.portIn p then s.portGone p else s) s

theorem State.portsOnly_loseLock : s.PortsOnly s.loseLock := by
  refine List.foldlRecOn _ _ (motive := s.PortsOnly) ⟨rfl, fun _ _ => rfl⟩ fun u hu p hp => ?_
  split
  · exact hu.trans (u.portsOnly_portGone (List.mem_range.1 hp))
  · exact hu

/-- SLIP: the package leaves the coupled system, with the bit and its event (R67). -/
theorem State.slip_shape : ∃ r h, s.slip = { s with regs := r, host := h, hour := { s.hour with left := true, joining := false } } := by
  obtain ⟨r, h, e⟩ := (s.set32 Reg.topHourStatus 4).postEvent_shape 0x0008 0xFF 8 ((s.set32 Reg.topHourStatus 4).r32 Reg.topHourStatus)
  refine ⟨r, h, ?_⟩
  rw [State.slip, e, State.set32_shape]
  rfl

theorem State.bitAt_slip : bitAt (s.slip.r32 Reg.topHourStatus) 4 = true := by
  have hpost : s.slip.r32 Reg.topHourStatus = (s.set32 Reg.topHourStatus 4).r32 Reg.topHourStatus :=
    State.sameRegs_postEvent _ _ _ _ _ _ (by decide)
  rw [hpost]
  exact s.bitAt_set32_same _ _ (by decide)

theorem State.r32_slip_clkRef : s.slip.r32 Reg.clkRef = s.r32 Reg.clkRef :=
  (State.sameRegs_postEvent _ _ _ _ _ _ (by decide)).trans (s.r32_set32_other _ _ _ (by decide))

/-- REFERENCE_LOST with the reference present, step by step. -/
theorem referenceLost_eq (h : bitAt (s.r32 Reg.clkRef) 0 = true) :
    referenceLost s = (if s.coupled then s.holdover.loseLock.slip else s.holdover.loseLock).postEvent 0x0102 0xFF 8 0 := by
  have hc : s.holdover.loseLock.coupled = s.coupled := by
    unfold State.coupled
    rw [s.holdover.portsOnly_loseLock.2 _ (by decide), s.wordsOnly_holdover.2 _ (by decide)]
  simp only [referenceLost, h, Bool.not_true, Bool.false_eq_true, if_false]
  rw [← hc]
  rfl

/-- The reference's loss changes the ports, the event queue and, in a coupled package, its part in the Hours. -/
theorem referenceLost_shape (h : bitAt (s.r32 Reg.clkRef) 0 = true) : ∃ r k p, referenceLost s
    = { s with regs := r, host := k, ports := p, hour := if s.coupled then { s.hour with left := true, joining := false } else s.hour } := by
  have hlock : s.holdover.loseLock = { s with
      regs := s.holdover.loseLock.regs, host := s.holdover.loseLock.host, ports := s.holdover.loseLock.ports } := by
    rw [s.holdover.portsOnly_loseLock.1, s.wordsOnly_holdover.1]
  rw [referenceLost_eq s h]
  obtain ⟨r, k, e⟩ := State.postEvent_shape (if s.coupled then s.holdover.loseLock.slip else s.holdover.loseLock) 0x0102 0xFF 8 0
  refine ⟨r, k, s.holdover.loseLock.ports, e.trans ?_⟩
  split
  · obtain ⟨r', k', hslip⟩ := s.holdover.loseLock.slip_shape
    rw [hslip, hlock]
  · rw [hlock]

theorem referenceLost_clkRef (h : bitAt (s.r32 Reg.clkRef) 0 = true) : fld ((referenceLost s).r32 Reg.clkRef) 0 4 = 0xE := by
  have hlock := s.holdover.portsOnly_loseLock.2 Reg.clkRef (by decide)
  rw [referenceLost_eq s h, State.sameRegs_postEvent _ _ _ _ _ _ (by decide)]
  split
  · rw [State.r32_slip_clkRef, hlock, s.holdover_status]
  · rw [hlock, s.holdover_status]

theorem referenceLost_slip (h : bitAt (s.r32 Reg.clkRef) 0 = true) (hc : s.coupled = true) :
    bitAt ((referenceLost s).r32 Reg.topHourStatus) 4 = true := by
  rw [referenceLost_eq s h, if_pos hc, State.sameRegs_postEvent _ _ _ _ _ _ (by decide), State.bitAt_slip]

/-- The status of the reference after its return. -/
def State.relocked : State := (((s.set32 Reg.clkRef 0).clr32 Reg.clkRef 1).clr32 Reg.clkRef 2).set32 Reg.clkRef 4

theorem State.relocked_status : fld (s.relocked.r32 Reg.clkRef) 0 3 = 1 ∧ bitAt (s.relocked.r32 Reg.clkRef) 4 = true := by
  refine ⟨?_, State.bitAt_set32_same _ _ _ (by decide)⟩
  simp only [State.relocked, State.set32, State.clr32]
  rw [State.r32_sf32_same _ _ _ _ _ (by decide), State.r32_sf32_same _ _ _ _ _ (by decide), State.r32_sf32_same _ _ _ _ _ (by decide),
    State.r32_sf32_same _ _ _ _ _ (by decide), fld_setFld_other _ _ _ _ _ _ (by decide)]
  simp only [setFld_eq, fld]
  omega

theorem State.wordsOnly_relocked : s.WordsOnly s.relocked (fun b => b == Reg.clkRef) :=
  (((s.wordsOnly_sf32 ..).trans (State.wordsOnly_sf32 ..)).trans (State.wordsOnly_sf32 ..)).trans (State.wordsOnly_sf32 ..)

/-- REFERENCE_RESTORED with no wake source waiting tells of the reference's return and does no more. -/
theorem referenceRestored_eq (x : DawnIn) (h : bitAt (s.r32 Reg.clkRef) 0 = false) (hw : s.power.wakes = []) :
    referenceRestored x s = s.relocked.postEvent 0x0102 0xFF 8 1 := by
  have hwakes : (s.relocked.postEvent 0x0102 0xFF 8 1).power.wakes = [] := by
    rw [State.postEvent_power, s.wordsOnly_relocked.1]
    exact hw
  simp only [referenceRestored, h, Bool.false_eq_true, if_false]
  change State.nextWake (s.relocked.postEvent 0x0102 0xFF 8 1) x = _
  rw [State.nextWake, hwakes]

theorem referenceRestored_effect (x : DawnIn) (h : bitAt (s.r32 Reg.clkRef) 0 = false) (hw : s.power.wakes = []) :
    fld ((referenceRestored x s).r32 Reg.clkRef) 0 3 = 1 ∧ bitAt ((referenceRestored x s).r32 Reg.clkRef) 4 = true
      ∧ referenceRestored x s = { s with regs := (referenceRestored x s).regs, host := (referenceRestored x s).host }
      ∧ s.SameRegsBut (referenceRestored x s) (fun a => a == Reg.clkRef || eventRegs a) := by
  have hclk := s.relocked.sameRegs_postEvent 0x0102 0xFF 8 1 Reg.clkRef (by decide)
  obtain ⟨r, k, e⟩ := s.relocked.postEvent_shape 0x0102 0xFF 8 1
  rw [referenceRestored_eq s x h hw, hclk]
  refine ⟨s.relocked_status.1, s.relocked_status.2, ?_, fun a ha => ?_⟩
  · rw [e, s.wordsOnly_relocked.1]
  · obtain ⟨ha, hev⟩ := Bool.or_eq_false_iff.1 ha
    exact (State.sameRegs_postEvent _ _ _ _ _ a hev).trans (s.wordsOnly_relocked.2 a ha)

/-! ### Droop and the guard -/

theorem State.exists_regs_count64 (a lo w k : Nat) : ∃ r, s.count64 a lo w k = { s with regs := r } := ⟨_, rfl⟩

theorem State.f64_congr (t : State) (h : t.regs = s.regs) (a lo w : Nat) : t.f64 a lo w = s.f64 a lo w := by
  rw [State.f64, State.f64, State.r64, State.r64, s.r32_congr t h, s.r32_congr t h]

theorem droopTrip_effect (d now : Nat) :
    (droopTrip d now s).f64 (Reg.cdClkCount d) 48 16 = min (s.f64 (Reg.cdClkCount d) 48 16 + 1) (2 ^ 16 - 1)
      ∧ ((Tab.get (fun _ => none) (droopTrip d now s).power.droop d).map Droop.last) = some now
      ∧ droopTrip d now s = { s with
          regs := (droopTrip d now s).regs
          power := { s.power with droop := (droopTrip d now s).power.droop, trips := (droopTrip d now s).power.trips } }
      ∧ s.SameRegsBut (droopTrip d now s) (pairOf (Reg.cdClkCount d)) := by
  have hregs : (droopTrip d now s).regs = (s.count64 (Reg.cdClkCount d) 48 16 1).regs := by simp only [droopTrip]
  refine ⟨?_, ?_, ?_, fun a ha => ?_⟩
  · rw [State.f64_congr _ _ hregs, State.f64_count64_same _ _ _ _ _ (by decide)]
  · simp only [droopTrip, Tab.get_put_same, Option.map_some]
    split <;> rfl
  · obtain ⟨r, hr⟩ := s.exists_regs_count64 (Reg.cdClkCount d) 48 16 1
    simp only [droopTrip, hr]
  · rw [State.r32_congr _ _ hregs]
    exact (s.wordsOnly_sf64 ..).2 a ha

/-- DROOP_RELEASE 32 cycles after the last trip counts the stretched cycles and ends the stretch. -/
theorem droopRelease_effect {d now : Nat} {x : Droop} (hx : Tab.get (fun _ => none) s.power.droop d = some x) (hnow : x.last + 32 ≤ now) :
    Tab.get (fun _ => none) (droopRelease d now s).power.droop d = none
      ∧ (droopRelease d now s).f64 (Reg.cdClkCount d) 24 24 = min (s.f64 (Reg.cdClkCount d) 24 24 + (x.last - x.first + 48)) (2 ^ 24 - 1)
      ∧ droopRelease d now s = { s with
          regs := (droopRelease d now s).regs
          power := { s.power with droop := (droopRelease d now s).power.droop } }
      ∧ s.SameRegsBut (droopRelease d now s) (pairOf (Reg.cdClkCount d)) := by
  have hcase : ¬now < x.last + 32 := Nat.not_lt.2 hnow
  have hregs : (droopRelease d now s).regs = (s.count64 (Reg.cdClkCount d) 24 24 (x.last - x.first + 48)).regs := by
    simp only [droopRelease, hx, hcase, if_false]
  refine ⟨?_, ?_, ?_, fun a ha => ?_⟩
  · simp only [droopRelease, hx, hcase, if_false, Tab.get_put_same]
  · rw [State.f64_congr _ _ hregs, State.f64_count64_same _ _ _ _ _ (by decide)]
  · obtain ⟨r, hr⟩ := s.exists_regs_count64 (Reg.cdClkCount d) 24 24 (x.last - x.first + 48)
    simp only [droopRelease, hx, hcase, if_false, hr]
  · rw [State.r32_congr _ _ hregs]
    exact (s.wordsOnly_sf64 ..).2 a ha

/-- The fast average as it is reported. -/
theorem State.f64_pwrPower (fast : Nat) : (s.sf64 Reg.pwrPower 16 16 (min fast 0xFFFF)).f64 Reg.pwrPower 16 16 = min fast 0xFFFF := by
  rw [State.f64_sf64_same _ _ _ _ _ (by decide)]
  omega

/-- CAP in force stands apart from the word that reports the averages. -/
theorem State.capW_report (fast : Nat) :
    (s.sf64 Reg.pwrPower 16 16 (min fast 0xFFFF)).capW = min 2200 (max 600 (s.f32 Reg.pwrCap 0 12)) := by
  rw [State.capW, State.f32, State.f32, (s.wordsOnly_sf64 Reg.pwrPower 16 16 _).2 _ (by decide)]

theorem guardTrip_below {fast slow : Nat} (hf : fast ≤ 4800) (hs : slow ≤ 2 * min 2200 (max 600 (s.f32 Reg.pwrCap 0 12))) :
    guardTrip fast slow s = s.sf64 Reg.pwrPower 16 16 (min fast 0xFFFF) := by
  simp only [guardTrip, s.capW_report]
  rw [if_pos (by simp only [hf, hs, decide_true, Bool.and_self])]

/-- The guard acts. -/
def State.guarded : State := (({ s with power := { s.power with guard := true } }).set32 Reg.pwrStatus 3).count64 Reg.pwrCount 16 16 1

theorem guardTrip_above {fast slow : Nat} (h : 4800 < fast ∨ 2 * min 2200 (max 600 (s.f32 Reg.pwrCap 0 12)) < slow) :
    guardTrip fast slow s = (s.sf64 Reg.pwrPower 16 16 (min fast 0xFFFF)).guarded := by
  simp only [guardTrip, s.capW_report]
  rw [if_neg (by simp only [Bool.and_eq_true, decide_eq_true_eq]; omega)]
  rfl

theorem State.guarded_shape : ∃ r, s.guarded = { s with regs := r, power := { s.power with guard := true } } := by
  obtain ⟨r, hr⟩ := (({ s with power := { s.power with guard := true } } : State).set32 Reg.pwrStatus 3).exists_regs_count64 Reg.pwrCount 16 16 1
  exact ⟨r, hr⟩

theorem State.guarded_effect (u : State) : bitAt (u.guarded.r32 Reg.pwrStatus) 3 = true
    ∧ u.guarded.f64 Reg.pwrCount 16 16 = min (u.f64 Reg.pwrCount 16 16 + 1) (2 ^ 16 - 1)
    ∧ u.SameRegsBut u.guarded (fun a => a == Reg.pwrStatus || pairOf Reg.pwrCount a) := by
  let v : State := ({ u with power := { u.power with guard := true } }).set32 Reg.pwrStatus 3
  have hcount : ∀ a, pairOf Reg.pwrCount a = false → u.guarded.r32 a = v.r32 a := (v.wordsOnly_sf64 Reg.pwrCount 16 16 _).2
  have hset : ∀ a, a ≠ Reg.pwrStatus → v.r32 a = u.r32 a := fun a => State.r32_set32_other _ _ _ _
  refine ⟨?_, ?_, fun a ha => ?_⟩
  · rw [hcount _ (by decide)]
    exact State.bitAt_set32_same _ _ _ (by decide)
  · have hwas : v.f64 Reg.pwrCount 16 16 = u.f64 Reg.pwrCount 16 16 := by
      rw [State.f64, State.f64, State.r64, State.r64, hset _ (by decide), hset _ (by decide)]
    rw [← hwas]
    exact v.f64_count64_same _ _ _ _ (by decide)
  · obtain ⟨ha, hpair⟩ := Bool.or_eq_false_iff.1 ha
    exact (hcount a hpair).trans (hset a (by simpa using ha))

theorem guardTrip_above_effect {fast slow : Nat} (h : 4800 < fast ∨ 2 * min 2200 (max 600 (s.f32 Reg.pwrCap 0 12)) < slow) :
    (guardTrip fast slow s).f64 Reg.pwrPower 16 16 = min fast 0xFFFF ∧ (guardTrip fast slow s).power.guard = true
      ∧ bitAt ((guardTrip fast slow s).r32 Reg.pwrStatus) 3 = true
      ∧ (guardTrip fast slow s).f64 Reg.pwrCount 16 16 = min (s.f64 Reg.pwrCount 16 16 + 1) (2 ^ 16 - 1)
      ∧ guardTrip fast slow s = { s with regs := (guardTrip fast slow s).regs, power := { s.power with guard := true } }
      ∧ s.SameRegsBut (guardTrip fast slow s) (fun a => pairOf Reg.pwrPower a || a == Reg.pwrStatus || pairOf Reg.pwrCount a) := by
  obtain ⟨hu, hother⟩ := s.wordsOnly_sf64 Reg.pwrPower 16 16 (min fast 0xFFFF)
  have hfast := s.f64_pwrPower fast
  rw [guardTrip_above s h]
  generalize s.sf64 Reg.pwrPower 16 16 (min fast 0xFFFF) = u at hu hother hfast ⊢
  obtain ⟨hstatus, hcount, hregs⟩ := State.guarded_effect u
  obtain ⟨r, hshape⟩ := u.guarded_shape
  have hframe : u.guarded = { s with regs := r, power := { s.power with guard := true } } := by rw [hshape, hu]
  refine ⟨?_, by rw [hframe], hstatus, hcount.trans ?_, by rw [hframe], fun a ha => ?_⟩
  · rw [← hfast, State.f64, State.f64, State.r64, State.r64, hregs _ (by decide), hregs _ (by decide)]
  · rw [State.f64, State.f64, State.r64, State.r64, hother _ (by decide), hother _ (by decide)]
  · obtain ⟨ha, hcnt⟩ := Bool.or_eq_false_iff.1 ha
    obtain ⟨hpow, hst⟩ := Bool.or_eq_false_iff.1 ha
    exact (hregs a (by simp only [hst, hcnt, Bool.or_self])).trans (hother a hpow)

end

/-- Settles O17: each event's effect, from the words it writes and what it leaves alone. -/
theorem referencePowerGoodDroopAndGuardEvents : Obligations.ReferencePowerGoodDroopAndGuardEvents := by
  refine ⟨fun s h => ?_, fun s x h hw => ⟨_, rfl, referenceRestored_effect s x h hw⟩, fun s x hmain hwait => ?_,
    fun s d now => ⟨_, rfl, droopTrip_effect s d now⟩, fun s d now x hx hnow => ?_, fun s fast slow => ⟨fun hf hs => ?_, fun h => ?_⟩⟩
  · obtain ⟨r, k, p, e⟩ := referenceLost_shape s h
    refine ⟨referenceLost s, rfl, referenceLost_clkRef s h, State.SameBytes.of_mem ?_ ?_, ?_, ?_, ?_, ?_, ?_⟩
    iterate 6 rw [e]
    split
    · next hc => exact ⟨by rw [e, if_pos hc], by rw [e, if_pos hc], referenceLost_slip s h hc⟩
    · next hc => rw [e, if_neg hc]
  · refine congrArg Host.Outcome.next ?_
    simp [powerGoodRise, State.resumeDawn, hmain, hwait]
  · exact ⟨_, rfl, droopRelease_effect s hx hnow⟩
  · refine ⟨_, congrArg Host.Outcome.next (guardTrip_below s hf hs), (s.f64_pwrPower fast).trans (by omega), s.wordsOnly_sf64 ..⟩
  · exact ⟨_, rfl, guardTrip_above_effect s h⟩

/-! ## The end of a Dawn (R44, R438, R440) -/

/-- The registers of events, and those of the journal, the security block, the meter and the test port. -/
def bookRegs (a : Nat) : Bool := eventRegs a || decide (Reg.dawnJournalHead ≤ a)

theorem bookRegs_of_le {a : Nat} (h : Reg.dawnJournalHead ≤ a) : bookRegs a = true := by simp [bookRegs, h]

theorem bookRegs_between {a : Nat} (h : 0x8F00200000 ≤ a) (h' : a < Reg.dawnJournalHead) : bookRegs a = false := by
  refine Bool.or_eq_false_iff.2 ⟨?_, decide_eq_false (Nat.not_le.2 h')⟩
  simp only [eventRegs, Reg.hstEvtCount, Reg.hstStatus, Bool.or_eq_false_iff, beq_eq_false_iff_ne]
  omega

/-- What is put on record differs and nothing else: events, journal, fuses, meter, audit log and measurements. -/
structure State.BooksOnly (s t : State) : Prop where
  shape : t = { s with
    regs := t.regs, dies := t.dies, host := t.host, out := t.out, meter := t.meter, sec := t.sec, dawn := { s.dawn with marks := t.dawn.marks } }
  die : ∀ d, t.die d = { s.die d with
    fieldRows := (t.die d).fieldRows, fusedHoles := (t.die d).fusedHoles, unrecorded := (t.die d).unrecorded }
  regs : s.SameRegsBut t bookRegs

section

variable {s t u : State}

theorem State.BooksOnly.refl (s : State) : s.BooksOnly s := ⟨rfl, fun _ => rfl, fun _ _ => rfl⟩

theorem State.BooksOnly.mem (h : s.BooksOnly t) : t.mem = s.mem := by rw [h.shape]

theorem State.BooksOnly.poison (h : s.BooksOnly t) : t.poison = s.poison := by rw [h.shape]

theorem State.BooksOnly.failedRow (h : s.BooksOnly t) : t.dawn.failedRow = s.dawn.failedRow := by rw [h.shape]

theorem State.BooksOnly.trans (h : s.BooksOnly t) (g : t.BooksOnly u) : s.BooksOnly u where
  shape := by rw [g.shape, h.shape]
  die d := by rw [g.die, h.die]
  regs := h.regs.trans g.regs

/-- A change of the registers of the books, of the host interface, the meter, the security block and what has been sent. -/
theorem State.BooksOnly.of_shape {r : Tab W32} {k : HostIf} {o : List Output} {m : Meter} {c : Security}
    (e : t = { s with regs := r, host := k, out := o, meter := m, sec := c }) (h : s.SameRegsBut t bookRegs) : s.BooksOnly t := by
  subst e
  exact ⟨rfl, fun _ => rfl, h⟩

theorem State.BooksOnly.of_words {f : Nat → Bool} (h : s.WordsOnly t f) (hf : ∀ a, f a = true → bookRegs a = true) : s.BooksOnly t := by
  refine .of_shape (r := t.regs) h.1 fun a ha => h.2 a ?_
  cases hfa : f a with
  | false => rfl
  | true => exact absurd ha (by rw [hf a hfa]; decide)

theorem State.BooksOnly.foldl {α : Type} {g : State → α → State} (l : List α) (hg : ∀ (u : State) x, x ∈ l → u.BooksOnly (g u x)) :
    s.BooksOnly (l.foldl g s) :=
  List.foldlRecOn l g (motive := s.BooksOnly) (.refl s) fun u hu x hx => hu.trans (hg u x hx)

end

section

variable (s : State)

theorem State.booksOnly_w32 (v : Nat) {a : Nat} (h : Reg.dawnJournalHead ≤ a) : s.BooksOnly (s.w32 a v) :=
  .of_words (s.wordsOnly_w32 v (beq_self_eq_true a)) fun b hb => by rw [← beq_iff_eq.1 hb]; exact bookRegs_of_le h

theorem State.booksOnly_sf32 (lo w x : Nat) {a : Nat} (h : Reg.dawnJournalHead ≤ a) : s.BooksOnly (s.sf32 a lo w x) := s.booksOnly_w32 _ h

theorem State.booksOnly_w64 (v : Nat) {a : Nat} (h : Reg.dawnJournalHead ≤ a) : s.BooksOnly (s.w64 a v) :=
  (s.booksOnly_w32 _ h).trans (State.booksOnly_w32 _ _ (h.trans (Nat.le_add_right a 4)))

theorem State.booksOnly_wWide (n v : Nat) {a : Nat} (h : Reg.dawnJournalHead ≤ a) : s.BooksOnly (s.wWide a n v) := by
  refine .of_shape (s.wWide_shape a n v) fun b hb => s.r32_wWide_other a n v b (.inl ?_)
  simp only [bookRegs, Bool.or_eq_false_iff, decide_eq_false_iff_not] at hb
  omega

theorem State.booksOnly_setMeter (m : Meter) : s.BooksOnly (s.setMeter m) := .of_shape rfl fun _ _ => rfl

theorem State.booksOnly_sec (c : Security) : s.BooksOnly { s with sec := c } := .of_shape rfl fun _ _ => rfl

theorem State.booksOnly_postEvent (type part source data : Nat) : s.BooksOnly (s.postEvent type part source data) := by
  obtain ⟨r, h, e⟩ := s.postEvent_shape type part source data
  exact .of_shape e fun a ha => s.sameRegs_postEvent type part source data a (Bool.or_eq_false_iff.1 ha).1

/-! ### The journal and the fuses (R441, R443) -/

theorem State.booksOnly_journal (time step kind unit result count detail : Nat) :
    s.BooksOnly (s.journal time step kind unit result count detail) := by
  have hentry : Reg.dawnJournalHead ≤ Reg.dawnJournal (s.f32 Reg.dawnJournalHead 0 10) := by
    unfold Reg.dawnJournalHead Reg.dawnJournal
    omega
  unfold State.journal
  extract_lets h a x u v
  have hu : s.BooksOnly u := by
    unfold u
    split
    · exact .refl s
    · exact s.booksOnly_sf32 _ _ _ le_rfl
  have hv : u.BooksOnly v := (u.booksOnly_wWide 4 x hentry).trans (State.booksOnly_sf32 _ _ _ _ le_rfl)
  exact (hu.trans hv).trans (v.booksOnly_sf32 _ _ _ (by decide))

/-- The record of a die with other fields of its repair fuses. -/
theorem State.booksOnly_setDie (d : Nat) (rows holes more : List Nat) :
    s.BooksOnly (s.setDie d { s.die d with fieldRows := rows, fusedHoles := holes, unrecorded := more }) := by
  refine ⟨rfl, fun e => ?_, fun _ _ => rfl⟩
  by_cases h : e = d
  · subst h
    rw [State.die_setDie_same]
  · rw [State.die_setDie_other _ _ _ _ h]

theorem State.booksOnly_blow (w : FuseWord) : s.BooksOnly (s.blow w) := by
  cases w with
  | row d r => exact s.booksOnly_setDie d _ _ _
  | hole d h => exact s.booksOnly_setDie d _ _ _
  | field n i v => exact s.booksOnly_sec _
  | lane l => exact s.booksOnly_sec _
  | mark key => exact s.booksOnly_sec _
  | svn t => exact s.booksOnly_sec _
  | udsKill => exact s.booksOnly_sec _

theorem State.booksOnly_blowWords (ws : List FuseWord) (v : FuseSupply) : s.BooksOnly (s.blowWords ws v).1 := by
  have hblow : ∀ l : List FuseWord, s.BooksOnly (l.foldl State.blow s) := fun l => .foldl l fun u w _ => u.booksOnly_blow w
  unfold State.blowWords
  cases v with
  | absent => exact .refl s
  | whole => exact hblow ws
  | cut k =>
    dsimp only
    split
    · exact hblow ws
    · exact (hblow _).trans (State.booksOnly_sec _ _)

theorem State.booksOnly_fieldSettled : s.BooksOnly s.fieldSettled := by
  unfold State.fieldSettled
  extract_lets u
  have hu : s.BooksOnly u := .foldl _ fun v d _ => by
    dsimp only
    split
    · exact .refl v
    · exact v.booksOnly_setDie d _ _ _
  clear_value u
  exact hu.trans ⟨rfl, fun _ => rfl, fun _ _ => rfl⟩

theorem State.booksOnly_burn (marks : Bool) (more : List FuseWord) (v : FuseSupply) (time : Nat) : s.BooksOnly (s.burn marks more v time) := by
  unfold State.burn
  extract_lets keys u made
  have hmade : u.BooksOnly (made.foldl (fun s k => s.journal time (k / 2 ^ 16) (k / 2 ^ 12 % 16) (k % 2 ^ 12) 5 3 0) u) :=
    .foldl _ fun w k _ => w.booksOnly_journal ..
  exact ((s.booksOnly_blowWords _ _).trans hmade).trans (State.booksOnly_fieldSettled _)

theorem State.booksOnly_burnMarks (more : List FuseWord) (v : FuseSupply) (time : Nat) : s.BooksOnly (s.burnMarks more v time) := by
  unfold State.burnMarks
  split
  · exact .refl s
  · have hraise : s.BooksOnly (s.raiseVfuse none) := .of_shape rfl fun _ _ => rfl
    have hdrop : ∀ u : State, u.BooksOnly u.dropVfuse := fun u => .of_shape rfl fun _ _ => rfl
    exact ((hraise.trans (State.booksOnly_burn ..)).trans (hdrop _)).trans (State.booksOnly_sec _ _)

/-! ### The meter (R496, R500) -/

theorem State.booksOnly_muAt (tick : Nat) : s.BooksOnly (s.muAt tick) := s.booksOnly_w64 _ (by decide)

theorem State.booksOnly_audit (kind data : Nat) : s.BooksOnly (s.audit kind data) := by
  have hcount : Reg.dawnJournalHead ≤ Reg.muAuditCount kind := by unfold Reg.dawnJournalHead Reg.muAuditCount; omega
  unfold State.audit
  split
  · exact .refl s
  · exact (s.booksOnly_setMeter _).trans (State.booksOnly_w64 _ _ hcount)

theorem State.booksOnly_latchDie (d : Nat) : s.BooksOnly (s.latchDie d) := by
  unfold State.latchDie
  dsimp only
  split
  · exact .refl s
  · exact s.booksOnly_setMeter _

theorem State.booksOnly_closeInterval (close tick : Nat) (late : List Nat) (missing : Bool) :
    s.BooksOnly (s.closeInterval close tick late missing) := by
  unfold State.closeInterval
  extract_lets u v m now flags c w
  have hu : s.BooksOnly u := s.booksOnly_muAt tick
  split
  · exact hu
  · have hv : u.BooksOnly v := .foldl _ fun x d _ => x.booksOnly_latchDie d
    exact ((hu.trans hv).trans (v.booksOnly_setMeter _)).trans (w.booksOnly_sf32 _ _ _ (by decide))

theorem State.booksOnly_publish : s.BooksOnly s.publish := s.booksOnly_sec _

theorem State.booksOnly_tellAlarms : s.BooksOnly s.tellAlarms := by
  have htold : s.BooksOnly (s.sec.newAlarms.foldl (fun s e => s.postEvent 0x0120 0xFF 8 e) s) := .foldl _ fun u e _ => u.booksOnly_postEvent ..
  exact htold.trans (State.booksOnly_sec _ _)

/-! ### The routing tables (R317, R319, R326) -/

/-- The word that holds the entries of four packages. -/
def routeWordOf (l : List Byte) (i : Nat) : Nat := leNat ((List.range 4).map (fun j => l.getD (4 * i + j) 0))

theorem routeWordOf_lt (l : List Byte) (i : Nat) : routeWordOf l i < 2 ^ 32 := by
  have h := leNat_lt ((List.range 4).map (fun j => l.getD (4 * i + j) 0))
  simpa [routeWordOf] using h

theorem State.r32_writeWords (base n b : Nat) (f : Nat → Nat) : ((List.range n).foldl (fun s i => s.w32 (base + 4 * i) (f i)) s).r32 b
    = if base ≤ b ∧ b < base + 4 * n ∧ (b - base) % 4 = 0 then f ((b - base) / 4) % 2 ^ 32 else s.r32 b := by
  induction n with
  | zero => rw [if_neg (by omega)]; rfl
  | succ n ih =>
    rw [List.range_succ, List.foldl_append, List.foldl_cons, List.foldl_nil, State.r32_w32]
    split
    · next h => rw [if_pos (by omega), h, show (base + 4 * n - base) / 4 = n by omega]
    · next h =>
      rw [ih]
      by_cases hb : base ≤ b ∧ b < base + 4 * n ∧ (b - base) % 4 = 0
      · rw [if_pos hb, if_pos (by omega)]
      · rw [if_neg hb, if_neg (by omega)]

theorem State.r32_writeRoutes (l : List Byte) (base b : Nat) : (s.writeRoutes base l).r32 b
    = if base ≤ b ∧ b < base + 4096 ∧ (b - base) % 4 = 0 then routeWordOf l ((b - base) / 4) else s.r32 b := by
  rw [← Nat.mod_eq_of_lt (routeWordOf_lt l _)]
  exact s.r32_writeWords base 1024 b (routeWordOf l)

theorem State.writeRoutes_shape (l : List Byte) (base : Nat) : ∃ r, s.writeRoutes base l = { s with regs := r } := by
  have h : s.WordsOnly (s.writeRoutes base l) (fun _ => true) := State.WordsOnly.foldl _ fun u i _ => u.wordsOnly_w32 _ rfl
  exact ⟨_, h.1⟩

/-- The table stands in effect and staged. -/
def State.routesInstalled (l : List Byte) : State := (s.writeRoutes Reg.rteTableAct l).writeRoutes Reg.rteTableStg l

theorem State.routesInstalled_shape (l : List Byte) : ∃ r, s.routesInstalled l = { s with regs := r } := by
  obtain ⟨r, h⟩ := s.writeRoutes_shape l Reg.rteTableAct
  obtain ⟨r', h'⟩ := (s.writeRoutes Reg.rteTableAct l).writeRoutes_shape l Reg.rteTableStg
  exact ⟨r', by rw [State.routesInstalled, h', h]⟩

theorem State.r32_routesInstalled_act (l : List Byte) {i : Nat} (hi : i < 1024) :
    (s.routesInstalled l).r32 (Reg.rteTableAct + 4 * i) = routeWordOf l i := by
  unfold Reg.rteTableAct
  rw [State.routesInstalled, State.r32_writeRoutes, if_neg (by unfold Reg.rteTableStg; omega), State.r32_writeRoutes,
    if_pos (by unfold Reg.rteTableAct; omega)]
  congr 1
  unfold Reg.rteTableAct
  omega

theorem State.r32_routesInstalled_stg (l : List Byte) {i : Nat} (hi : i < 1024) :
    (s.routesInstalled l).r32 (Reg.rteTableStg + 4 * i) = routeWordOf l i := by
  rw [State.routesInstalled, State.r32_writeRoutes, if_pos (by omega)]
  congr 1
  omega

/-- The entry of an identifier in the table that the firmware computes. -/
theorem State.routeTable_getD (map : List (Nat × Nat × Nat × Nat)) (cut : List Nat) {id : Nat} (h : id < 4096) :
    ∃ sizes skips, (s.routeTable map cut).getD id 0
      = BitVec.ofNat 8 (if id = s.f64 Reg.rteSelf 0 12 then 2 ^ 7 + 12 else match map.find? (fun e => e.1 == id) with
        | none => 0
        | some e => toriEntry sizes skips ((map.filter (fun e => cut.contains e.1)).map (fun e => [e.2.1, e.2.2.1, e.2.2.2]))
            ((List.range 3).map (fun k => s.f64 Reg.rteSelf (16 + 4 * k) 4)) [e.2.1, e.2.2.1, e.2.2.2]) := by
  rw [State.routeTable, List.getD_eq_getElem?_getD, List.getElem?_map, List.getElem?_range h]
  exact ⟨_, _, rfl⟩

/-- A package that is cut out, and is not the one that routes, has no route. -/
theorem toriEntry_of_cut (sizes : List Nat) (skips : List Bool) {cut : List (List Nat)} {c dest : List Nat} (h : dest ≠ c) (hc : dest ∈ cut) :
    toriEntry sizes skips cut c dest = 0 := by
  rw [toriEntry, if_neg h, if_pos (List.contains_iff_mem.2 hc)]

theorem State.routeTable_self (map : List (Nat × Nat × Nat × Nat)) (cut : List Nat) {id : Nat} (h : id < 4096) (hs : id = s.f64 Reg.rteSelf 0 12) :
    (s.routeTable map cut).getD id 0 = 0x8C := by
  obtain ⟨sizes, skips, e⟩ := s.routeTable_getD map cut h
  rw [e, if_pos hs]
  rfl

theorem State.routeTable_unmapped {map : List (Nat × Nat × Nat × Nat)} (cut : List Nat) {id : Nat} (h : id < 4096)
    (hs : id ≠ s.f64 Reg.rteSelf 0 12) (hm : ∀ e, e ∈ map → e.1 ≠ id) : (s.routeTable map cut).getD id 0 = 0 := by
  obtain ⟨sizes, skips, e⟩ := s.routeTable_getD map cut h
  have hnone : map.find? (fun e => e.1 == id) = none := List.find?_eq_none.2 fun x hx => by simpa using hm x hx
  rw [e, if_neg hs, hnone]
  rfl

theorem State.routeTable_cut {map : List (Nat × Nat × Nat × Nat)} {cut : List Nat} {id : Nat} (h : id < 4096)
    (hs : id ≠ s.f64 Reg.rteSelf 0 12) (hc : id ∈ cut)
    (hp : ∀ e, e ∈ map → e.1 = id → [e.2.1, e.2.2.1, e.2.2.2] ≠ (List.range 3).map (fun k => s.f64 Reg.rteSelf (16 + 4 * k) 4)) :
    (s.routeTable map cut).getD id 0 = 0 := by
  obtain ⟨sizes, skips, e⟩ := s.routeTable_getD map cut h
  rw [e, if_neg hs]
  cases hf : map.find? (fun e => e.1 == id) with
  | none => rfl
  | some x =>
    have hx : x ∈ map := List.mem_of_find?_eq_some hf
    have hid : x.1 = id := by simpa using List.find?_some hf
    have hgone : [x.2.1, x.2.2.1, x.2.2.2] ∈ (map.filter (fun e => cut.contains e.1)).map (fun e => [e.2.1, e.2.2.1, e.2.2.2]) :=
      List.mem_map.2 ⟨x, List.mem_filter.2 ⟨hx, List.contains_iff_mem.2 (hid ▸ hc)⟩, rfl⟩
    exact congrArg (BitVec.ofNat 8) (toriEntry_of_cut sizes skips (hp x hx hid) hgone)

/-! ### The Hour starts (R44, R438) -/

/-- A die at the start of the Hour, in noon cycle `t`. -/
def DieState.started (x : DieState) (t : Nat) : DieState :=
  { x with run := true, t0 := t, e0 := 0, s0 := 0, winEng := 0, winGap := 0, atHour := none, lastHour := 0, hold := none }

/-- Die `d` starts unless it is absent. -/
def State.startDie (t : Nat) (s : State) (d : Nat) : State := if s.dieAbsent d then s else s.setDie d ((s.die d).started t)

/-- Of the first `n` dies those that are not absent have started. -/
theorem State.startDies (t n : Nat) : (List.range n).foldl (State.startDie t) s = { s with dies := ((List.range n).foldl (State.startDie t) s).dies }
    ∧ ∀ d, ((List.range n).foldl (State.startDie t) s).die d = if d < n ∧ (s.die d).cond ≠ .absent then (s.die d).started t else s.die d := by
  induction n with
  | zero => exact ⟨rfl, fun d => by rw [if_neg (by omega)]; rfl⟩
  | succ n ih =>
    obtain ⟨hshape, hdie⟩ := ih
    rw [List.range_succ, List.foldl_append, List.foldl_cons, List.foldl_nil]
    generalize (List.range n).foldl (State.startDie t) s = v at hshape hdie ⊢
    have hn : v.die n = s.die n := by rw [hdie, if_neg (by omega)]
    have hlt : ∀ d, d ≠ n → (d < n + 1 ↔ d < n) := fun d hd => by omega
    by_cases ha : (s.die n).cond = .absent
    · rw [State.startDie, if_pos (by simp [State.dieAbsent, hn, ha])]
      refine ⟨hshape, fun d => ?_⟩
      rw [hdie]
      by_cases hd : d = n
      · simp [hd, ha]
      · simp only [hlt d hd]
    · rw [State.startDie, if_neg (by simp [State.dieAbsent, hn, ha]), hn]
      refine ⟨by rw [hshape]; rfl, fun d => ?_⟩
      by_cases hd : d = n
      · subst hd
        rw [State.die_setDie_same, if_pos ⟨by omega, ha⟩]
      · rw [State.die_setDie_other _ _ _ _ hd, hdie]
        simp only [hlt d hd]

theorem State.startHours_shape (t : Nat) : ∃ x, s.startHours t = { s.w64 Reg.topHourCount 0 with dies := x } :=
  ⟨_, ((s.w64 Reg.topHourCount 0).startDies t 8).1⟩

theorem State.die_startHours (t d : Nat) (hd : d < 8) (h : (s.die d).cond ≠ .absent) : (s.startHours t).die d = (s.die d).started t :=
  (((s.w64 Reg.topHourCount 0).startDies t 8).2 d).trans (if_pos ⟨hd, h⟩)

/-- The state of the Hour, the trust keys and the Dawn with which a Dawn ends, once DAWN_STATUS says DONE. -/
def State.dawnEnded (t : Nat) : State := (s.startHours t).dawnCarried.sf32 Reg.dawnStatus 28 2 1

/-- PWR_STATE reads Noon, after a Dawn that was no wake. -/
def State.noonSet : State := (s.sf32 Reg.pwrState 0 3 0).sf32 Reg.pwrState 8 3 4

/-- DAWN_DONE installs the routes, burns the marks, starts the Hour and sets Noon; the rest goes into the books. -/
theorem dawnDone_steps (x : DawnIn) (map : List (Nat × Nat × Nat × Nat)) (cut : List Nat) (now tick : Nat) (h1 : s.f32 Reg.dawnStatus 28 2 = 0)
    (h2 : s.f32 Reg.dawnStatus 24 4 = 14) (h3 : s.f32 Reg.dawnStatus 30 2 ≠ 2) :
    ∃ a b, (s.routesInstalled (s.routeTable map cut)).BooksOnly a ∧ (a.dawnEnded now).BooksOnly b
      ∧ b.noonSet.BooksOnly (dawnDone x map cut now tick s) := by
  refine ⟨_, _, State.booksOnly_burnMarks _ (s.routesInstalled (s.routeTable map cut)).svnWords
      (if x.vfuse then .whole else .absent) (dawnTime x 14),
    (State.booksOnly_journal _ (dawnTime x 14) 14 0 0 0 0 0).trans (State.booksOnly_journal _ (dawnTime x 14) 15 0 0 0 0 0), ?_⟩
  unfold State.f32 at h1 h2 h3
  simp only [dawnDone, h1, h2, h3, ne_eq, not_true_eq_false, or_self, if_false]
  exact ((((((State.booksOnly_sf32 _ _ _ _ (by decide)).trans (State.booksOnly_closeInterval _ 5 tick [] false)).trans
    (State.booksOnly_audit _ 0x05 0)).trans (State.booksOnly_publish _)).trans (State.booksOnly_postEvent _ _ _ _ _)).trans
    (State.booksOnly_tellAlarms _))

/-- What a Dawn carries into Noon is the Hour's joining, the trust keys, their count and the record of the Dawn. -/
theorem State.dawnCarried_shape : ∃ h c k r, s.dawnCarried = { s with
      regs := r, hour := h, sec := c, dawn := { s.dawn with failedRow := 0, kept := k } }
    ∧ ∀ a, a ≠ Reg.ldrStatus → s.dawnCarried.r32 a = s.r32 a := by
  simp only [State.dawnCarried, State.sf32]
  refine ⟨_, _, _, _, rfl, fun a ha => ?_⟩
  exact State.r32_w32_other s _ _ a ha

theorem State.dawnEnded_effect (t : Nat) : (s.dawnEnded t).dies = (s.startHours t).dies ∧ (s.dawnEnded t).mem = s.mem
    ∧ (s.dawnEnded t).poison = s.poison ∧ (s.dawnEnded t).dawn.failedRow = 0
    ∧ ∀ a, a ≠ Reg.dawnStatus → a ≠ Reg.ldrStatus → (s.dawnEnded t).r32 a = (s.w64 Reg.topHourCount 0).r32 a := by
  obtain ⟨x, e⟩ := s.startHours_shape t
  obtain ⟨h, c, k, r, hshape, hregs⟩ := (s.startHours t).dawnCarried_shape
  have hcount : ∀ a, (s.startHours t).r32 a = (s.w64 Reg.topHourCount 0).r32 a := State.r32_congr _ _ (by rw [e])
  refine ⟨?_, ?_, ?_, ?_, fun a h1 h2 => ?_⟩
  · rw [State.dawnEnded, State.sf32, State.w32_dies, hshape]
  · rw [State.dawnEnded, State.sf32, State.w32_mem, hshape, e, State.w64, State.w32_mem, State.w32_mem]
  · rw [State.dawnEnded, State.sf32, State.w32_poison, hshape, e, State.w64, State.w32_poison, State.w32_poison]
  · rw [State.dawnEnded, State.sf32, State.w32_dawn, hshape]
  · rw [State.dawnEnded, State.r32_sf32_other _ _ _ _ _ _ h1, hregs a h2, hcount]

theorem State.r32_noonSet {a : Nat} (h : a ≠ Reg.pwrState) : s.noonSet.r32 a = s.r32 a := by
  rw [State.noonSet, State.r32_sf32_other _ _ _ _ _ _ h, State.r32_sf32_other _ _ _ _ _ _ h]

theorem State.noonSet_frame : s.noonSet.dies = s.dies ∧ s.noonSet.mem = s.mem ∧ s.noonSet.poison = s.poison := by
  simp only [State.noonSet, State.sf32, State.w32_dies, State.w32_mem, State.w32_poison, and_self]

theorem State.noonSet_pwrState : s.noonSet.f32 Reg.pwrState 0 3 = 0 := by
  rw [State.noonSet, State.f32_sf32_field _ _ _ _ _ _ _ (by decide) (by decide), State.f32_sf32_same _ _ _ _ _ (by decide), Nat.zero_mod]

/-- The chain of `dawnDone_steps`: the routes and the books lead to `a`, the Hour's start and the books to `b`, Noon and the books to `t`. -/
structure DawnChain (s : State) (l : List Byte) (now : Nat) (a b t : State) : Prop where
  burnt : (s.routesInstalled l).BooksOnly a
  ended : (a.dawnEnded now).BooksOnly b
  noon : b.noonSet.BooksOnly t

section

variable {s} {l : List Byte} {now : Nat} {a b t : State} (h : DawnChain s l now a b t)

include h

theorem DawnChain.r32_of_noon {r : Nat} (hr : bookRegs r = false) (hp : r ≠ Reg.pwrState) : t.r32 r = (a.dawnEnded now).r32 r := by
  rw [h.noon.regs r hr, b.r32_noonSet hp, h.ended.regs r hr]

theorem DawnChain.r32_of_routes {r : Nat} (hr : bookRegs r = false) (hp : r ≠ Reg.pwrState) (hd : r ≠ Reg.dawnStatus) (hl : r ≠ Reg.ldrStatus)
    (hc : r ≠ Reg.topHourCount) (hc4 : r ≠ Reg.topHourCount + 4) : t.r32 r = (s.routesInstalled l).r32 r := by
  obtain ⟨-, -, -, -, hwords⟩ := a.dawnEnded_effect now
  rw [h.r32_of_noon hr hp, hwords r hd hl, State.r32_w64_other _ _ _ _ hc hc4, h.burnt.regs r hr]

theorem DawnChain.dawnStatus : t.f32 Reg.dawnStatus 28 2 = 1 := by
  rw [State.f32, h.r32_of_noon (by decide) (by decide)]
  exact State.f32_sf32_same _ _ _ _ _ (by decide)

theorem DawnChain.pwrState : t.f32 Reg.pwrState 0 3 = 0 := by
  rw [State.f32, h.noon.regs _ (by decide)]
  exact b.noonSet_pwrState

theorem DawnChain.inNoon : t.inNoon = true := by
  have hp := h.pwrState
  have hlow : t.f32 Reg.pwrState 0 2 = 0 := by
    unfold State.f32 fld at hp ⊢
    omega
  rw [State.inNoon, hlow, h.dawnStatus]
  rfl

theorem DawnChain.hourCount : t.hourCount = 0 := by
  obtain ⟨-, -, -, -, hwords⟩ := a.dawnEnded_effect now
  rw [State.hourCount, State.r64, h.r32_of_noon (by decide) (by decide), h.r32_of_noon (by decide) (by decide),
    hwords _ (by decide) (by decide), hwords _ (by decide) (by decide)]
  exact a.r64_w64_same Reg.topHourCount 0

theorem DawnChain.failedRow : t.dawn.failedRow = 0 := by
  obtain ⟨-, -, -, hrow, -⟩ := a.dawnEnded_effect now
  exact h.noon.failedRow.trans (h.ended.failedRow.trans hrow)

theorem DawnChain.sameBytes : s.SameBytes t := by
  obtain ⟨r, hs⟩ := s.routesInstalled_shape l
  obtain ⟨-, hmem, hpoison, -, -⟩ := a.dawnEnded_effect now
  obtain ⟨-, hm, hp⟩ := b.noonSet_frame
  refine State.SameBytes.of_mem ?_ ?_
  · rw [h.noon.mem, hm, h.ended.mem, hmem, h.burnt.mem, hs]
  · rw [h.noon.poison, hp, h.ended.poison, hpoison, h.burnt.poison, hs]

theorem DawnChain.die {d : Nat} (hd : d < 8) (hc : (s.die d).cond ≠ .absent) :
    (t.die d).run = true ∧ (t.die d).t0 = now ∧ (t.die d).s0 = 0 ∧ (t.die d).lastHour = 0 := by
  have hsame : (s.routesInstalled l).die d = s.die d := by
    obtain ⟨r, e⟩ := s.routesInstalled_shape l
    rw [e]
    rfl
  have hcond : (a.die d).cond ≠ .absent := by
    rw [h.burnt.die, hsame]
    exact hc
  have hstart : (a.dawnEnded now).die d = (a.die d).started now := by
    obtain ⟨hdies, -⟩ := a.dawnEnded_effect now
    rw [State.die, hdies]
    exact a.die_startHours now d hd hcond
  have hnoon : b.noonSet.die d = b.die d := by rw [State.die, b.noonSet_frame.1, State.die]
  rw [h.noon.die, hnoon, h.ended.die, hstart]
  exact ⟨rfl, rfl, rfl, rfl⟩

theorem DawnChain.routes {i : Nat} (hi : i < 1024) :
    t.r32 (Reg.rteTableAct + 4 * i) = routeWordOf l i ∧ t.r32 (Reg.rteTableStg + 4 * i) = routeWordOf l i := by
  have hplain : ∀ r, 0x8F00401000 ≤ r → r < 0x8F00403000 → t.r32 r = (s.routesInstalled l).r32 r := fun r h1 h2 => by
    refine h.r32_of_routes ?_ ?_ ?_ ?_ ?_ ?_
    · exact bookRegs_between (by omega) (by unfold Reg.dawnJournalHead; omega)
    · unfold Reg.pwrState; omega
    · unfold Reg.dawnStatus; omega
    · unfold Reg.ldrStatus; omega
    · unfold Reg.topHourCount; omega
    · unfold Reg.topHourCount; omega
  rw [hplain _ (by unfold Reg.rteTableAct; omega) (by unfold Reg.rteTableAct; omega),
    hplain _ (by unfold Reg.rteTableStg; omega) (by unfold Reg.rteTableStg; omega)]
  exact ⟨s.r32_routesInstalled_act l hi, s.r32_routesInstalled_stg l hi⟩

end

theorem dawnDone_elsewhere (x : DawnIn) (map : List (Nat × Nat × Nat × Nat)) (cut : List Nat) (now tick : Nat)
    (h : s.f32 Reg.dawnStatus 28 2 ≠ 0 ∨ s.f32 Reg.dawnStatus 24 4 ≠ 14) : dawnDone x map cut now tick s = s := by
  simp only [dawnDone]
  exact if_pos h

end

/-- Settles O22: the end of step 14 by its chain of steps, and the entries of the table one by one. -/
theorem dawnEndsInNoon : Obligations.DawnEndsInNoon := by
  refine ⟨fun s x map cut now tick h1 h2 h3 => ?_, fun s map cut id hid => ⟨s.routeTable_self map cut hid, s.routeTable_unmapped cut hid,
    s.routeTable_cut hid⟩, fun s x map cut now tick h => congrArg Host.Outcome.next (dawnDone_elsewhere s x map cut now tick h)⟩
  obtain ⟨a, b, hburnt, hended, hnoon⟩ := dawnDone_steps s x map cut now tick h1 h2 h3
  have h : DawnChain s (s.routeTable map cut) now a b (dawnDone x map cut now tick s) := ⟨hburnt, hended, hnoon⟩
  exact ⟨_, rfl, h.dawnStatus, h.pwrState, h.inNoon, h.hourCount, h.failedRow, h.sameBytes, fun d hd hc => h.die hd hc, fun i hi => h.routes hi⟩

/-! ## A late die (R49) -/

/-- In Noon the window of Hour 1 has opened without die 7, which holds a broadcast write to region 3 at offset 0x4000, behind the flags of
its four clusters: its byte names flag 0x2000 of the package, which is set and lies behind those of the eight dies. TOP_HOUR_LATE
counts one late die so far. -/
def strayCast : State :=
  (({ flags := [(0x2000, true)], hour := { opened := 1 }, dies := [(7, { held := [⟨1, 32, [], [], [(0x4000, [1])], []⟩] })] } : State).sf32
    Reg.dawnStatus 28 2 1).w32 Reg.topHourLate 1

/-- Die 7 arrives late, the second die to do so. Its held write then sets flag 0x2000 again, the coalesced set is marked in bit 0 of
CD_FLAG_STATUS of a die 8, and the word at that address is TOP_HOUR_LATE. -/
theorem r32_topHourLate_strayCast : (hourArrival 7 65536 strayCast).r32 Reg.topHourLate = 3 := by decide +kernel

/-- Refutes O13: nothing in the statement bounds the broadcast writes held for a late die to the flag file (Table 8-1), and one behind
it, on die 7, falls on the word of TOP_HOUR_LATE, which then holds 3 where the statement says 2. -/
theorem not_diesArriveAndTheWindowOpens : ¬ Obligations.DiesArriveAndTheWindowOpens := by
  rintro ⟨harrival, -, -⟩
  obtain ⟨-, -, hlate⟩ := harrival strayCast _ 7 65536 (by decide +kernel) (by decide +kernel) (by decide +kernel) rfl
  have hnow : ∀ z, z ∈ (strayCast.die (7 : Fin 8)).held → ∀ w, w ∈ z.now → addrDie w.2.1 = (7 : Fin 8).val := by decide +kernel
  obtain ⟨t, ht, -, -, -, -, hcount, -⟩ := hlate (by decide +kernel) (by decide +kernel) hnow
  obtain rfl : hourArrival 7 65536 strayCast = t := Host.Outcome.next.inj ht
  rw [State.meshTo_of_idle _ _ (by decide +kernel)] at hcount
  exact absurd (r32_topHourLate_strayCast.symm.trans hcount) (by decide +kernel)

end Sys2Proof.Machine
end

/-! Number formats, accumulator banks and the passes of the matrix engines (03_number_formats_and_accumulation.md,
04_matrix_engine.md). -/

section

namespace Sys2Proof.Machine

/-! ## The engines and the cards in flight of a core -/

section

variable (c : CoreState)

@[simp] theorem CoreState.eng_setEng_same (e : Nat) (x : Engine) : (c.setEng e x).eng e = x := Tab.get_put_same _ _ _ _

theorem CoreState.eng_setEng_other {e y : Nat} (x : Engine) (h : y ≠ e) : (c.setEng e x).eng y = c.eng y := Tab.get_put_other _ _ _ _ _ h

variable {c}

theorem CoreState.seq_of_flight {q : Nat} {f : Flight} (h : c.flight q = some f) : f.seq = q := by
  have hq := List.find?_some h
  simpa using hq

/-- The card in flight of a number is the one put there. -/
theorem CoreState.flight_setFlight_same {f f' : Flight} (h : c.flight f'.seq = some f) : (c.setFlight f').flight f'.seq = some f' := by
  unfold CoreState.flight CoreState.setFlight at *
  rw [List.find?_map]
  have hcomp : ((fun y : Flight => y.seq == f'.seq) ∘ fun x => if x.seq = f'.seq then f' else x) = fun x => x.seq == f'.seq := by
    funext x
    by_cases hx : x.seq = f'.seq <;> simp [hx]
  have hf : f.seq = f'.seq := by simpa using List.find?_some h
  rw [hcomp, h, Option.map_some, if_pos hf]

theorem CoreState.flight_setFlight_other {f : Flight} {q : Nat} (h : q ≠ f.seq) : (c.setFlight f).flight q = c.flight q := by
  unfold CoreState.flight CoreState.setFlight
  rw [List.find?_map]
  have hcomp : ((fun y : Flight => y.seq == q) ∘ fun x => if x.seq = f.seq then f else x) = fun x => x.seq == q := by
    funext x
    by_cases hx : x.seq = f.seq
    · simp [hx]
    · simp [hx]
  rw [hcomp]
  cases hx : c.flights.find? (fun x => x.seq == q) with
  | none => rfl
  | some x =>
    have hs : x.seq = q := by simpa using List.find?_some hx
    rw [Option.map_some, if_neg (hs ▸ h)]

end

/-- Of a core nothing differs but engine `e`, its card in flight `seq`, and what stands beside engines, cards, vector engine and queue. -/
def CoreState.Beside (c v : CoreState) (e seq : Nat) : Prop :=
  (∀ x, x ≠ e → v.eng x = c.eng x) ∧ (∀ q, q ≠ seq → v.flight q = c.flight q) ∧ v.vec = c.vec ∧ v.queue = c.queue

theorem CoreState.beside_setEng (c : CoreState) (e seq : Nat) (x : Engine) : c.Beside (c.setEng e x) e seq :=
  ⟨fun _ h => c.eng_setEng_other x h, fun _ _ => rfl, rfl, rfl⟩

theorem CoreState.Beside.trans {c v w : CoreState} {e seq : Nat} (h : c.Beside v e seq) (k : v.Beside w e seq) : c.Beside w e seq := by
  obtain ⟨he, hf, hv, hq⟩ := h
  obtain ⟨ke, kf, kv, kq⟩ := k
  exact ⟨fun x hx => (ke x hx).trans (he x hx), fun q hx => (kf q hx).trans (hf q hx), kv.trans hv, kq.trans hq⟩

theorem CoreState.beside_setFlight (c : CoreState) (e : Nat) {f : Flight} {seq : Nat} (h : f.seq = seq) : c.Beside (c.setFlight f) e seq :=
  ⟨fun _ _ => rfl, fun _ hq => CoreState.flight_setFlight_other (h ▸ hq), rfl, rfl⟩

/-- The die of a package logical core. -/
theorem die_of_core (d : Fin 8) (c : Fin 16) : (16 * d.val + c.val) / 16 = d.val := by omega

/-- Its die-local number. -/
theorem local_of_core (d : Fin 8) (c : Fin 16) : (16 * d.val + c.val) % 16 = c.val := by omega

theorem State.core_congr {s t : State} (h : t.cores = s.cores) (g : Nat) : t.core g = s.core g := by unfold State.core; rw [h]

theorem State.onlyEngine_of_beside {s u : State} {g e seq : Nat} (hother : ∀ k, k ≠ g → u.core k = s.core k)
    (h : (s.core g).Beside (u.core g) e seq) : s.OnlyEngine u g e seq := ⟨hother, h⟩

/-- A step that replaces one core, and of it one engine and its card in flight. -/
theorem State.onlyEngine_of_core {s u : State} {g e seq : Nat} {v : CoreState} (hu : u.cores = (s.setCore g v).cores)
    (h : (s.core g).Beside v e seq) : s.OnlyEngine u g e seq := by
  have hcore : ∀ k, u.core k = (s.setCore g v).core k := State.core_congr hu
  refine State.onlyEngine_of_beside (fun k hk => (hcore k).trans (s.core_setCore_other g k v hk)) ?_
  rwa [hcore g, State.core_setCore_same]

/-! ## The banks of an engine -/

section

variable (x : Engine) (i : Nat) (b : Bank)

theorem Engine.putBank_eq : x.putBank i b
    = { x with bank0 := if i % 2 = 0 then b else x.bank0, bank1 := if i % 2 = 0 then x.bank1 else b } := by
  unfold Engine.putBank
  split <;> rfl

@[simp] theorem Engine.bankOf_putBank_same : (x.putBank i b).bankOf i = b := by
  unfold Engine.bankOf Engine.putBank
  split <;> rfl

/-- The other bank. -/
@[simp] theorem Engine.bankOf_putBank_succ : (x.putBank i b).bankOf (i + 1) = x.bankOf (i + 1) := by
  unfold Engine.bankOf Engine.putBank
  have : (i + 1) % 2 = 0 ↔ i % 2 ≠ 0 := by omega
  by_cases h : i % 2 = 0 <;> simp [this, h]

end

/-! ## Register words of an engine -/

theorem State.SameRegsBut.mono {s t : State} {f k : Nat → Bool} (h : s.SameRegsBut t f) (hf : ∀ a, f a = true → k a = true) :
    s.SameRegsBut t k := fun a ha => h a (by
  by_contra hfa
  exact Bool.false_ne_true (ha.symm.trans (hf a (by simpa using hfa))))

theorem State.WordsOnly.mono {s t : State} {f k : Nat → Bool} (h : s.WordsOnly t f) (hf : ∀ a, f a = true → k a = true) : s.WordsOnly t k :=
  ⟨h.1, h.2.mono hf⟩

theorem State.wordsOnly_count64 (s : State) (a lo w k : Nat) : s.WordsOnly (s.count64 a lo w k) (pairOf a) := s.wordsOnly_sf64 a lo w _

theorem State.wordsOnly_orBits (s : State) (a bits : Nat) : s.WordsOnly (s.orBits a bits) (fun b => b == a) :=
  s.wordsOnly_w32 _ (beq_self_eq_true a)

theorem pairOf_false {b a : Nat} (h : a ≠ b) (h4 : a ≠ b + 4) : pairOf b a = false := by simp [pairOf, h, h4]

theorem State.r64_of_sameRegs {s t : State} {f : Nat → Bool} (h : s.SameRegsBut t f) {a : Nat} (ha : f a = false) (h4 : f (a + 4) = false) :
    t.r64 a = s.r64 a := by
  unfold State.r64
  rw [h a ha, h _ h4]

theorem State.f64_of_sameRegs {s t : State} {f : Nat → Bool} (h : s.SameRegsBut t f) {a : Nat} (ha : f a = false) (h4 : f (a + 4) = false)
    (lo w : Nat) : t.f64 a lo w = s.f64 a lo w := by
  unfold State.f64
  rw [State.r64_of_sameRegs h ha h4]

/-- A count that fills its register. -/
theorem State.r64_count64_full (s : State) (a k : Nat) : (s.count64 a 0 64 k).r64 a = min (s.r64 a + k) (2 ^ 64 - 1) := by
  have hfull : ∀ u : State, u.f64 a 0 64 = u.r64 a := fun u => by
    unfold State.f64 fld
    rw [pow_zero, Nat.div_one, Nat.mod_eq_of_lt (u.r64_lt a)]
  rw [← hfull, State.f64_count64_same _ _ _ _ _ (by decide), hfull]

theorem State.r32_orBits_same (s : State) {a bits : Nat} (h : bits < 2 ^ 32) : (s.orBits a bits).r32 a = Nat.lor (s.r32 a) bits := by
  unfold State.orBits
  rw [State.r32_w32_same]
  exact Nat.mod_eq_of_lt (Nat.or_lt_two_pow (s.r32_lt a) h)

theorem Reg.engAccCount0_eq (d c e : Nat) : Reg.engAccCount0 d c e = Reg.engAccStatus d c e + 8 := by
  unfold Reg.engAccCount0 Reg.engAccStatus; omega
theorem Reg.engAccCount1_eq (d c e : Nat) : Reg.engAccCount1 d c e = Reg.engAccStatus d c e + 16 := by
  unfold Reg.engAccCount1 Reg.engAccStatus; omega
theorem Reg.engPassCount_eq (d c e : Nat) : Reg.engPassCount d c e = Reg.engAccStatus d c e + 24 := by
  unfold Reg.engPassCount Reg.engAccStatus; omega
theorem Reg.engDrainStall_eq (d c e : Nat) : Reg.engDrainStall d c e = Reg.engAccStatus d c e + 32 := by
  unfold Reg.engDrainStall Reg.engAccStatus; omega
theorem Reg.engPrescanStall_eq (d c e : Nat) : Reg.engPrescanStall d c e = Reg.engAccStatus d c e + 40 := by
  unfold Reg.engPrescanStall Reg.engAccStatus; omega

end Sys2Proof.Machine
end

section

namespace Sys2Proof.Machine

/-! ## What an accumulation cycle tells the meter and the limiter (R421, R494) -/

/-- The registers of a die's limiter. -/
def rampRegs (d a : Nat) : Bool := pairOf (Reg.cdClkCount d) a || a == Reg.cdRamp d

/-- Nothing but the meter, the power state and the limiter's registers of die `d` differs. -/
def State.TapsOnly (s u : State) (d : Nat) : Prop :=
  u = { s with meter := u.meter, power := u.power, regs := u.regs } ∧ s.SameRegsBut u (rampRegs d)

theorem State.TapsOnly.trans {s t u : State} {d : Nat} (h : s.TapsOnly t d) (k : t.TapsOnly u d) : s.TapsOnly u d := by
  refine ⟨?_, h.2.trans k.2⟩
  rw [k.1, h.1]

theorem State.tapsOnly_tapMacs (s : State) (d fmt width : Nat) : s.TapsOnly (s.tapMacs d fmt width) d := by
  unfold State.tapMacs
  split
  · exact ⟨rfl, fun _ _ => rfl⟩
  · exact ⟨rfl, fun _ _ => rfl⟩

theorem State.WordsOnly.tapsOnly {s t : State} {d : Nat} (h : s.WordsOnly t (rampRegs d)) : s.TapsOnly t d := by
  refine ⟨?_, h.2⟩
  rw [h.1]

theorem State.tapsOnly_setRamp (s : State) (d : Nat) (r : Ramp) : s.TapsOnly (s.setRamp d r) d := ⟨rfl, fun _ _ => rfl⟩

theorem State.tapsOnly_rampTo (s : State) (d t : Nat) : s.TapsOnly (s.rampTo d t) d := by
  have hcount : ∀ (u : State) k, u.TapsOnly (u.count64 (Reg.cdClkCount d) 0 24 k) d := fun u k =>
    ((u.wordsOnly_count64 _ _ _ _).mono fun a ha => by simp [rampRegs, ha]).tapsOnly
  have hload : ∀ (u : State) x, u.TapsOnly (u.sf32 (Reg.cdRamp d) 0 11 x) d := fun u x =>
    ((u.wordsOnly_sf32 _ _ _ _).mono fun a ha => by simp [rampRegs, ha]).tapsOnly
  exact ((s.tapsOnly_setRamp d _).trans (hcount _ _)).trans (hload _ _)

theorem State.tapsOnly_rampEngine (s : State) (d t : Nat) : s.TapsOnly (s.rampEngine d t) d :=
  (s.tapsOnly_rampTo d t).trans (State.tapsOnly_setRamp _ _ _)

theorem rampRegs_false {d a : Nat} (h : Reg.dieBase d + 0x38 ≤ a) : rampRegs d a = false := by
  have h1 : a ≠ Reg.cdClkCount d := by unfold Reg.cdClkCount; omega
  have h2 : a ≠ Reg.cdClkCount d + 4 := by unfold Reg.cdClkCount; omega
  have h3 : a ≠ Reg.cdRamp d := by unfold Reg.cdRamp; omega
  simp [rampRegs, pairOf_false h1 h2, h3]

/-! ## The end of a pass (R99, R100) -/

/-- What a pass has left in ENG_ACC_STATUS and in the counts of its engine. -/
def State.passReported (s : State) (d c e : Nat) (b : Bank) : State :=
  ((s.orBits (Reg.engAccStatus d c e) b.passBits).count64 (Reg.engAccCount0 d c e) 0 64 b.passTrunc).count64 (Reg.engAccCount1 d c e) 8 24 b.ovf

/-- The registers of an engine's accumulator. -/
def accRegs (d c e a : Nat) : Bool :=
  a == Reg.engAccStatus d c e || pairOf (Reg.engAccCount0 d c e) a || pairOf (Reg.engAccCount1 d c e) a

theorem Bank.passBits_lt (b : Bank) : b.passBits < 2 ^ 32 := by
  unfold Bank.passBits
  split_ifs <;> decide

section

variable (s : State) (d c e : Nat) (b : Bank)

theorem State.wordsOnly_passReported : s.WordsOnly (s.passReported d c e b) (accRegs d c e) :=
  (((s.wordsOnly_orBits _ _).mono fun a ha => by simp only [accRegs, ha, Bool.true_or]).trans
    ((State.wordsOnly_count64 _ _ _ _ _).mono fun a ha => by simp only [accRegs, ha, Bool.true_or, Bool.or_true])).trans
      ((State.wordsOnly_count64 _ _ _ _ _).mono fun a ha => by simp only [accRegs, ha, Bool.or_true])

theorem State.passReported_status : (s.passReported d c e b).r32 (Reg.engAccStatus d c e) = Nat.lor (s.r32 (Reg.engAccStatus d c e)) b.passBits := by
  unfold State.passReported
  rw [Reg.engAccCount0_eq, Reg.engAccCount1_eq, (State.wordsOnly_count64 _ _ _ _ _).2 _ (pairOf_false (by omega) (by omega)),
    (State.wordsOnly_count64 _ _ _ _ _).2 _ (pairOf_false (by omega) (by omega)), State.r32_orBits_same _ b.passBits_lt]

theorem State.passReported_roundings : (s.passReported d c e b).r64 (Reg.engAccCount0 d c e)
    = min (s.r64 (Reg.engAccCount0 d c e) + b.passTrunc) (2 ^ 64 - 1) := by
  unfold State.passReported
  rw [Reg.engAccCount0_eq, Reg.engAccCount1_eq, State.r64_of_sameRegs (State.wordsOnly_count64 _ _ _ _ _).2
    (pairOf_false (by omega) (by omega)) (pairOf_false (by omega) (by omega)), State.r64_count64_full,
    State.r64_of_sameRegs (s.wordsOnly_orBits _ _).2 (by simp) (by simp; omega)]

theorem State.passReported_overflows : (s.passReported d c e b).f64 (Reg.engAccCount1 d c e) 8 24
    = min (s.f64 (Reg.engAccCount1 d c e) 8 24 + b.ovf) (2 ^ 24 - 1) := by
  unfold State.passReported
  rw [State.f64_count64_same _ _ _ _ _ (by decide), Reg.engAccCount0_eq, Reg.engAccCount1_eq,
    State.f64_of_sameRegs (State.wordsOnly_count64 _ _ _ _ _).2 (pairOf_false (by omega) (by omega)) (pairOf_false (by omega) (by omega)),
    State.f64_of_sameRegs (s.wordsOnly_orBits _ _).2 (by simp) (by simp; omega)]

end

/-- A bank whose pass has been reported. -/
def Bank.reported (b : Bank) : Bank :=
  { b with passTrunc := 0, ovf := 0, sat := false, shift := false, trap := false, infSeen := false, nanSeen := false }

/-- An engine whose pass `p` has ended: its bank waits for a drain of `len` cycles, or stays open. -/
def Engine.passEnded (x : Engine) (p : PassRun) (len : Nat) : Engine :=
  let y := { x.putBank x.passNo (x.bankOf x.passNo).reported with cur := none, carry := (x.bankOf x.passNo).anchor, open' := !p.drains }
  if p.drains then { y with passNo := x.passNo + 1, toDrain := x.toDrain ++ [⟨p.seq, p.iter, x.passNo, p.s + p.len, len⟩] } else y

section

variable (x : Engine) (p : PassRun) (len : Nat)

theorem Engine.passEnded_fields : (x.passEnded p len).cur = none ∧ (x.passEnded p len).carry = (x.bankOf x.passNo).anchor
    ∧ (x.passEnded p len).bankOf x.passNo = (x.bankOf x.passNo).reported := by
  have hbank := x.bankOf_putBank_same x.passNo (x.bankOf x.passNo).reported
  unfold Engine.passEnded
  split
  · exact ⟨rfl, rfl, hbank⟩
  · exact ⟨rfl, rfl, hbank⟩

theorem Engine.passEnded_of_drains (h : p.drains = true) : (x.passEnded p len).passNo = x.passNo + 1 ∧ (x.passEnded p len).open' = false
    ∧ (x.passEnded p len).toDrain = x.toDrain ++ [⟨p.seq, p.iter, x.passNo, p.s + p.len, len⟩] := by
  simp [Engine.passEnded, h]

theorem Engine.passEnded_of_stays (h : p.drains = false) : (x.passEnded p len).passNo = x.passNo ∧ (x.passEnded p len).open' = true
    ∧ (x.passEnded p len).toDrain = x.toDrain := by
  simp [Engine.passEnded, Engine.putBank_eq, h]

end

/-- The core of an engine whose pass has ended; a card that leaves its last chain open has done one more of its works. -/
def CoreState.passEnded (c : CoreState) (e : Nat) (p : PassRun) (f : Flight) : CoreState :=
  let v := c.setEng e ((c.eng e).passEnded p (drainLen (mmOut f.card)))
  if !p.drains && p.iter + 1 == cardIters f.card then v.setFlight { f with done := f.done + 1 } else v

theorem State.passEnd_eq (s : State) {g e : Nat} {p : PassRun} {f : Flight} (h : (s.core g).flight p.seq = some f) :
    s.passEnd g e p = (s.passReported (g / 16) (g % 16) e (((s.core g).eng e).bankOf ((s.core g).eng e).passNo)).setCore g
      ((s.core g).passEnded e p f) := by
  have hset : ∀ x, ((s.core g).setEng e x).flight p.seq = some f := fun _ => h
  unfold State.passEnd
  simp only [h, hset]
  rfl

theorem CoreState.passEnded_eng (c : CoreState) (e : Nat) (p : PassRun) (f : Flight) :
    (c.passEnded e p f).eng e = (c.eng e).passEnded p (drainLen (mmOut f.card)) := by
  unfold CoreState.passEnded
  split
  · exact CoreState.eng_setEng_same _ _ _
  · exact CoreState.eng_setEng_same _ _ _

theorem CoreState.beside_passEnded {c : CoreState} (e : Nat) {p : PassRun} {f : Flight} (h : c.flight p.seq = some f) :
    c.Beside (c.passEnded e p f) e p.seq := by
  unfold CoreState.passEnded
  split
  · exact (c.beside_setEng e _ _).trans (CoreState.beside_setFlight _ e (show f.seq = p.seq from CoreState.seq_of_flight h))
  · exact c.beside_setEng e _ _

/-! ## One accumulation cycle (R83, R84, R95) -/

/-- The addresses of the operand bytes of an accumulation cycle. -/
def State.cycleReads (s : State) (g e : Nat) (f : Flight) (p : PassRun) : List Nat :=
  ((cycleSteps f.card p.cyc).map (fun k => (s.operandAt g e f.card 0 p.iter p.s k).2 ++ (s.operandAt g e f.card 1 p.iter p.s k).2)).flatten

/-- The bank of R83 with the poison marks that the cycle's operands have met. -/
def State.cycledMarked (s : State) (g e : Nat) (f : Flight) (p : PassRun) : Bank :=
  { s.cycled g e f p with
    poisoned := (s.cycled g e f p).poisoned || (s.cycleReads g e f p).any (fun a => s.poisoned a)
    ownError := (s.cycled g e f p).ownError || (s.cycleReads g e f p).any (fun a => Tab.get (fun _ => false) s.selfErr (a / 8)) }

/-- An engine after an accumulation cycle of pass `p` that leaves bank `b`. -/
def Engine.cycled (x : Engine) (p : PassRun) (b : Bank) : Engine := { x.putBank x.passNo b with cur := some { p with cyc := p.cyc + 1 } }

theorem Engine.cycled_passNo (x : Engine) (p : PassRun) (b : Bank) : (x.cycled p b).passNo = x.passNo := by
  unfold Engine.cycled
  rw [Engine.putBank_eq]

theorem Engine.bankOf_cycled (x : Engine) (p : PassRun) (b : Bank) : (x.cycled p b).bankOf x.passNo = b := x.bankOf_putBank_same _ _

theorem Engine.bankOf_cycled_succ (x : Engine) (p : PassRun) (b : Bank) : (x.cycled p b).bankOf (x.passNo + 1) = x.bankOf (x.passNo + 1) :=
  x.bankOf_putBank_succ _ _

theorem Engine.cycled_toDrain (x : Engine) (p : PassRun) (b : Bank) : (x.cycled p b).toDrain = x.toDrain := by
  unfold Engine.cycled
  rw [Engine.putBank_eq]

/-- The core after an accumulation cycle of pass `p` of engine `e` that leaves bank `b`. -/
def CoreState.cycled (c : CoreState) (e : Nat) (p : PassRun) (b : Bank) : CoreState :=
  { c.setEng e ((c.eng e).cycled p b) with
    trapped := match c.trapped with | some y => some y | none => if b.trap then some (p.s + p.cyc) else none }

/-- The wider of a card's input formats (R494). -/
def macFmt (card : Nat) : Nat := if fmtWidth (mmB card) ≤ fmtWidth (mmA card) then mmA card else mmB card

/-- The width of a card's rate class. -/
def macWidth (card : Nat) : Nat := match mmRate card with | .bits4 => 4 | .bits8 => 8 | .bits16 => 16

/-- The state after the bank, the meter's tap and the limiter have had their accumulation cycle. -/
def State.cycleTapped (s : State) (g e t : Nat) (f : Flight) (p : PassRun) : State :=
  ((s.setCore g ((s.core g).cycled e p (s.cycledMarked g e f p))).tapMacs (g / 16) (macFmt f.card) (macWidth f.card)).rampEngine (g / 16) t

/-- The same, with a stop recorded where the cycle brought an overflow under TRAP (R88). -/
def State.cycleStopped (s : State) (g e t : Nat) (f : Flight) (p : PassRun) : State :=
  let w := s.cycleTapped g e t f p
  if (s.cycled g e f p).trap && !(((s.core g).eng e).bankOf ((s.core g).eng e).passNo).trap then w.recordStopAt (some t) (w.ownerN g) 0x53 .fault else w

theorem State.cycled_eq (s : State) (g e : Nat) (f : Flight) (p : PassRun) :
    s.cycled g e f p = 
      (let reads := (cycleSteps f.card p.cyc).map (fun k => (s.operandAt g e f.card 0 p.iter p.s k, s.operandAt g e f.card 1 p.iter p.s k))
       let b := ((s.core g).eng e).bankOf ((s.core g).eng e).passNo
       let ks := cycleProducts (reads.map (fun r => (r.1.1, r.2.1)))
       if reads.isEmpty then b else b.cycle (ovfPolicy (bodyF f.card 168 2) (mmInt f.card)) ks.1 ks.2) := by
  unfold State.cycled
  simp only [List.map_map, List.isEmpty_iff, List.map_eq_nil_iff]
  rfl

/-- An accumulation cycle, and behind the last one the end of the pass. -/
theorem accumulationCycle_eq {s : State} {g e t : Nat} {p : PassRun} {f : Flight} (h : s.Accumulating g e t p f) :
    accumulationCycle g e t s = if p.cyc + 1 < p.len then s.cycleStopped g e t f p
      else (s.cycleStopped g e t f p).passEnd g e { p with cyc := p.cyc + 1 } := by
  obtain ⟨hrun, hcur, hf, hcyc⟩ := h
  unfold accumulationCycle
  extract_lets d c x b
  split
  next hnone => exact absurd (hnone.symm.trans hcur) nofun
  next p' hp' =>
  obtain rfl : p' = p := Option.some.inj (hp'.symm.trans hcur)
  split
  next hnone => exact absurd (hnone.symm.trans hf) nofun
  next f' hf' =>
  obtain rfl : f' = f := Option.some.inj (hf'.symm.trans hf)
  rw [if_neg (by simp [d, hrun, hcyc])]
  extract_lets reads addrs own wa wb rate
  dsimp -zeta only
  extract_lets +onlyGivenNames b1
  have hb1 : b1 = s.cycled g e f' p' := by rw [State.cycled_eq]
  have haddrs : addrs = s.cycleReads g e f' p' := by
    show (List.map (fun r => r.1.2 ++ r.2.2) reads).flatten = _
    rw [List.map_map]
    rfl
  clear_value b1 addrs
  subst hb1 haddrs
  rfl

section

variable {s : State} {g e t : Nat} {p : PassRun} {f : Flight}

theorem State.tapsOnly_cycleTapped (s : State) (g e t : Nat) (f : Flight) (p : PassRun) :
    (s.setCore g ((s.core g).cycled e p (s.cycledMarked g e f p))).TapsOnly (s.cycleTapped g e t f p) (g / 16) :=
  (State.tapsOnly_tapMacs _ _ _ _).trans (State.tapsOnly_rampEngine _ _ _)

theorem State.cycleTapped_cores (s : State) (g e t : Nat) (f : Flight) (p : PassRun) :
    (s.cycleTapped g e t f p).cores = (s.setCore g ((s.core g).cycled e p (s.cycledMarked g e f p))).cores := by
  rw [(s.tapsOnly_cycleTapped g e t f p).1]

theorem State.core_cycleTapped (s : State) (g e t : Nat) (f : Flight) (p : PassRun) :
    (s.cycleTapped g e t f p).core g = (s.core g).cycled e p (s.cycledMarked g e f p) := by
  rw [State.core_congr (s.cycleTapped_cores g e t f p), State.core_setCore_same]

/-- Nothing but the cores, the meter, the power state and register words that `k` names differs. -/
def State.PassOnly (s u : State) (k : Nat → Bool) : Prop :=
  u = { s with cores := u.cores, meter := u.meter, power := u.power, regs := u.regs } ∧ s.SameRegsBut u k

theorem State.passOnly_cycleTapped (s : State) (g e t : Nat) (f : Flight) (p : PassRun) :
    s.PassOnly (s.cycleTapped g e t f p) (rampRegs (g / 16)) := by
  obtain ⟨hshape, hregs⟩ := s.tapsOnly_cycleTapped g e t f p
  refine ⟨?_, hregs⟩
  rw [hshape]
  rfl

@[simp] theorem CoreState.cycled_eng (c : CoreState) (e : Nat) (p : PassRun) (b : Bank) : (c.cycled e p b).eng e = (c.eng e).cycled p b :=
  CoreState.eng_setEng_same c e _

theorem CoreState.beside_cycled (c : CoreState) (e seq : Nat) (p : PassRun) (b : Bank) : c.Beside (c.cycled e p b) e seq :=
  c.beside_setEng e seq ((c.eng e).cycled p b)

/-- Without a new overflow under TRAP no stop is recorded. -/
theorem State.cycleStopped_of_trap (h : (s.cycled g e f p).trap = (((s.core g).eng e).bankOf ((s.core g).eng e).passNo).trap) :
    s.cycleStopped g e t f p = s.cycleTapped g e t f p := by
  unfold State.cycleStopped
  rw [h, Bool.and_not_self]
  rfl

/-- The pass goes on. -/
theorem accumulationCycle_goes_on (h : s.Accumulating g e t p f)
    (htrap : (s.cycled g e f p).trap = (((s.core g).eng e).bankOf ((s.core g).eng e).passNo).trap) (hlt : p.cyc + 1 < p.len) :
    ∃ u x y z, accumulationCycle g e t s = u ∧ (u.core g).eng e = x ∧ x.cur = some { p with cyc := p.cyc + 1 }
      ∧ x.passNo = ((s.core g).eng e).passNo ∧ x.bankOf x.passNo = { s.cycled g e f p with poisoned := y, ownError := z }
      ∧ x.bankOf (x.passNo + 1) = ((s.core g).eng e).bankOf (x.passNo + 1) ∧ s.OnlyEngine u g e p.seq ∧ s.PassOnly u (rampRegs (g / 16)) := by
  refine ⟨_, _, (s.cycledMarked g e f p).poisoned, (s.cycledMarked g e f p).ownError, rfl, rfl, ?_⟩
  rw [accumulationCycle_eq h, if_pos hlt, State.cycleStopped_of_trap htrap, State.core_cycleTapped, CoreState.cycled_eng, Engine.cycled_passNo]
  exact ⟨rfl, rfl, Engine.bankOf_cycled _ _ _, Engine.bankOf_cycled_succ _ _ _,
    State.onlyEngine_of_core (s.cycleTapped_cores g e t f p) ((s.core g).beside_cycled e _ p _), s.passOnly_cycleTapped g e t f p⟩

/-- The last cycle of a pass: what it has brought is reported, and the pass ends in the core. -/
theorem accumulationCycle_last (h : s.Accumulating g e t p f)
    (htrap : (s.cycled g e f p).trap = (((s.core g).eng e).bankOf ((s.core g).eng e).passNo).trap) (hlast : p.cyc + 1 = p.len) :
    accumulationCycle g e t s = ((s.cycleTapped g e t f p).passReported (g / 16) (g % 16) e (s.cycledMarked g e f p)).setCore g
      (((s.core g).cycled e p (s.cycledMarked g e f p)).passEnded e { p with cyc := p.cyc + 1 } f) := by
  have hcore := s.core_cycleTapped g e t f p
  have hf : ((s.cycleTapped g e t f p).core g).flight p.seq = some f := by
    rw [hcore]
    exact h.2.2.1
  rw [accumulationCycle_eq h, if_neg (by omega), State.cycleStopped_of_trap htrap, State.passEnd_eq _ (p := { p with cyc := p.cyc + 1 }) hf, hcore,
    CoreState.cycled_eng, Engine.cycled_passNo, Engine.bankOf_cycled]

/-- The words that the last cycle of a pass writes. -/
def passEndRegs (d c e a : Nat) : Bool := rampRegs d a || accRegs d c e a

theorem State.engAccStatus_beyond_ramp (d c e : Nat) : Reg.dieBase d + 0x38 ≤ Reg.engAccStatus d c e := by unfold Reg.engAccStatus; omega

end

end Sys2Proof.Machine
end

section

namespace Sys2Proof.Machine

section

variable {s w : State} {d c e g : Nat} {b : Bank} {v : CoreState}

/-- The registers after the end of a pass, whatever core state has been put in place. -/
theorem State.passReported_regs (h : s.SameRegsBut w (rampRegs d)) {u : State} (hu : u.regs = (w.passReported d c e b).regs) :
    u.r32 (Reg.engAccStatus d c e) = Nat.lor (s.r32 (Reg.engAccStatus d c e)) b.passBits
      ∧ u.r64 (Reg.engAccCount0 d c e) = min (s.r64 (Reg.engAccCount0 d c e) + b.passTrunc) (2 ^ 64 - 1)
      ∧ u.f64 (Reg.engAccCount1 d c e) 8 24 = min (s.f64 (Reg.engAccCount1 d c e) 8 24 + b.ovf) (2 ^ 24 - 1)
      ∧ s.SameRegsBut u (passEndRegs d c e) := by
  have hbeyond := State.engAccStatus_beyond_ramp d c e
  have hsame : ∀ a, u.r32 a = (w.passReported d c e b).r32 a := fun a => by unfold State.r32; rw [hu]
  have hsame64 : ∀ a, u.r64 a = (w.passReported d c e b).r64 a := fun a => by unfold State.r64; rw [hsame, hsame]
  refine ⟨?_, ?_, ?_, ?_⟩
  · rw [hsame, State.passReported_status, h _ (rampRegs_false hbeyond)]
  · rw [hsame64, State.passReported_roundings, Reg.engAccCount0_eq,
      State.r64_of_sameRegs h (rampRegs_false (by omega)) (rampRegs_false (by omega))]
  · unfold State.f64
    rw [hsame64]
    show State.f64 _ _ _ _ = min (State.f64 _ _ _ _ + _) _
    rw [State.passReported_overflows, Reg.engAccCount1_eq,
      State.f64_of_sameRegs h (rampRegs_false (by omega)) (rampRegs_false (by omega))]
  · exact (h.mono fun a ha => by simp [passEndRegs, ha]).trans
      (.trans ((w.wordsOnly_passReported d c e b).2.mono fun a ha => by simp [passEndRegs, ha]) fun a _ => hsame a)

theorem State.shape_passReported {k : Nat → Bool} (h : s.PassOnly w k) {u : State} (hu : u = (w.passReported d c e b).setCore g v) :
    u = { s with cores := u.cores, meter := u.meter, power := u.power, regs := u.regs } := by
  rw [hu, (w.wordsOnly_passReported d c e b).1, h.1]
  rfl

theorem State.cores_passReported : (w.passReported d c e b).cores = w.cores := by rw [(w.wordsOnly_passReported d c e b).1]

end

section

variable {s : State} {g e t : Nat} {p : PassRun} {f : Flight}

/-- The pass ends. -/
theorem accumulationCycle_ends (h : s.Accumulating g e t p f)
    (htrap : (s.cycled g e f p).trap = (((s.core g).eng e).bankOf ((s.core g).eng e).passNo).trap) (hlast : p.cyc + 1 = p.len) :
    ∃ u x, accumulationCycle g e t s = u ∧ (u.core g).eng e = x ∧ x.cur = none ∧ x.carry = (s.cycled g e f p).anchor
      ∧ (x.bankOf ((s.core g).eng e).passNo).cells = (s.cycled g e f p).cells
      ∧ (x.bankOf ((s.core g).eng e).passNo).checks = (s.cycled g e f p).checks
      ∧ (p.drains = true → x.passNo = ((s.core g).eng e).passNo + 1 ∧ x.open' = false ∧ x.toDrain = ((s.core g).eng e).toDrain
          ++ [⟨p.seq, p.iter, ((s.core g).eng e).passNo, p.s + p.len, drainLen (mmOut f.card)⟩])
      ∧ (p.drains = false → x.passNo = ((s.core g).eng e).passNo ∧ x.open' = true ∧ x.toDrain = ((s.core g).eng e).toDrain)
      ∧ u.r32 (Reg.engAccStatus (g / 16) (g % 16) e) = Nat.lor (s.r32 (Reg.engAccStatus (g / 16) (g % 16) e)) (s.cycled g e f p).passBits
      ∧ u.r64 (Reg.engAccCount0 (g / 16) (g % 16) e)
        = min (s.r64 (Reg.engAccCount0 (g / 16) (g % 16) e) + (s.cycled g e f p).passTrunc) (2 ^ 64 - 1)
      ∧ u.f64 (Reg.engAccCount1 (g / 16) (g % 16) e) 8 24
        = min (s.f64 (Reg.engAccCount1 (g / 16) (g % 16) e) 8 24 + (s.cycled g e f p).ovf) (2 ^ 24 - 1)
      ∧ s.OnlyEngine u g e p.seq ∧ s.PassOnly u (passEndRegs (g / 16) (g % 16) e) := by
  have hpass := s.passOnly_cycleTapped g e t f p
  have hf : ((s.core g).cycled e p (s.cycledMarked g e f p)).flight p.seq = some f := h.2.2.1
  have hcores := s.cycleTapped_cores g e t f p
  have hbits : (s.cycledMarked g e f p).passBits = (s.cycled g e f p).passBits := rfl
  have htrunc : (s.cycledMarked g e f p).passTrunc = (s.cycled g e f p).passTrunc := rfl
  have hovf : (s.cycledMarked g e f p).ovf = (s.cycled g e f p).ovf := rfl
  have hcells : (s.cycledMarked g e f p).reported.cells = (s.cycled g e f p).cells := rfl
  have hchecks : (s.cycledMarked g e f p).reported.checks = (s.cycled g e f p).checks := rfl
  have hanchor : (s.cycledMarked g e f p).anchor = (s.cycled g e f p).anchor := rfl
  rw [accumulationCycle_last h htrap hlast, ← hcells, ← hchecks, ← hanchor, ← hbits, ← htrunc, ← hovf]
  generalize s.cycledMarked g e f p = b at *
  generalize s.cycleTapped g e t f p = w at *
  obtain ⟨hstatus, hround, hover, hregs⟩ := State.passReported_regs (c := g % 16) (e := e) (b := b) hpass.2 (u := (w.passReported (g / 16) (g % 16) e b).setCore g
      (((s.core g).cycled e p b).passEnded e { p with cyc := p.cyc + 1 } f)) rfl
  obtain ⟨hcur, hcarry, hbank⟩ := (((s.core g).eng e).cycled p b).passEnded_fields { p with cyc := p.cyc + 1 } (drainLen (mmOut f.card))
  rw [Engine.cycled_passNo, Engine.bankOf_cycled] at hbank
  rw [Engine.cycled_passNo, Engine.bankOf_cycled] at hcarry
  refine ⟨_, _, rfl, rfl, ?_⟩
  rw [State.core_setCore_same, CoreState.passEnded_eng, CoreState.cycled_eng]
  refine ⟨hcur, hcarry, congrArg _ hbank, congrArg _ hbank, fun hd => ?_, fun hd => ?_, hstatus, hround, hover, ?_, ?_, hregs⟩
  · have hends := Engine.passEnded_of_drains (((s.core g).eng e).cycled p b) { p with cyc := p.cyc + 1 } (drainLen (mmOut f.card)) hd
    rwa [Engine.cycled_passNo, Engine.cycled_toDrain] at hends
  · have hstays := Engine.passEnded_of_stays (((s.core g).eng e).cycled p b) { p with cyc := p.cyc + 1 } (drainLen (mmOut f.card)) hd
    rwa [Engine.cycled_passNo, Engine.cycled_toDrain] at hstays
  · refine State.onlyEngine_of_beside (fun k hk => ?_) ?_
    · rw [State.core_setCore_other _ _ _ _ hk, State.core_congr State.cores_passReported, State.core_congr hcores, State.core_setCore_other _ _ _ _ hk]
    · rw [State.core_setCore_same]
      exact ((s.core g).beside_cycled e _ p b).trans (CoreState.beside_passEnded e (p := { p with cyc := p.cyc + 1 }) hf)
  · exact State.shape_passReported hpass rfl

end

end Sys2Proof.Machine
end

section

namespace Sys2Proof.Machine

/-! ## A cell of an INT8 pass (R70, R83, R84, R104) -/

theorem sext8_bounds (n : Nat) : -128 ≤ sext n 8 ∧ sext n 8 ≤ 127 := by
  unfold sext
  split
  · omega
  · omega

/-- A product of two INT8 elements. -/
theorem sext8_mul_bounds (m n : Nat) : -(2 ^ 14) ≤ sext m 8 * sext n 8 ∧ sext m 8 * sext n 8 ≤ 2 ^ 14 := by
  obtain ⟨hm, hm'⟩ := sext8_bounds m
  obtain ⟨hn, hn'⟩ := sext8_bounds n
  constructor
  · nlinarith
  · nlinarith

theorem mulVal_fin (a b e e' : Int) : mulVal (.fin a e) (.fin b e') = .fin (a * b) (e + e') := by simp [mulVal, Val.fin]

theorem Special.step_finite (x : Special) : x.step .finite = x := by cases x <;> rfl

theorem toUnits_zero (m : Int) : toUnits m 0 0 = (m, false) := by simp [toUnits, pow2]

/-- A cell takes one whole product as it is where neither the product nor the sum leaves the cell's range. -/
theorem cellAdd_whole {c : Cell} {m : Int} (hlat : c.lat = false) (hm : accMin ≤ m) (hm' : m ≤ accMax) (hs : accMin ≤ c.v + m)
    (hs' : c.v + m ≤ accMax) : cellAdd c 0 [.fin m 0] = { c with v := c.v + m } := by
  have htry : cellTry c 0 [.fin m 0] = (c.v + m, 0, none) := by
    simp [cellTry, hlat, Val.fin, toUnits_zero, not_lt.mpr hm, not_lt.mpr hm', not_lt.mpr hs, not_lt.mpr hs']
  unfold cellAdd
  rw [htry]
  simp [Val.fin, Special.step_finite]

theorem ovfPolicy_of_ne_shift {n : Nat} (h : n ≠ 2) : ovfPolicy n true ≠ .shift := by
  unfold ovfPolicy
  split
  · nofun
  · exact absurd rfl h
  · nofun
  · nofun

/-- Without SHIFT each cell takes its own products. -/
theorem Bank.cells_cycle {b : Bank} {pol : OvfPolicy} (hpol : pol ≠ .shift) {ps : List (List Val)} (ks : List (List Val)) {i : Nat} {x : Cell} {q : List Val}
    (hx : (padTo {} 1024 b.cells)[i]? = some x) (hq : ps[i]? = some q) : (b.cycle pol ps ks).cells[i]? = some (cellAdd x b.anchor q) := by
  have hzip : ((padTo {} 1024 b.cells).zip ps)[i]? = some (x, q) := List.getElem?_zip_eq_some.mpr ⟨hx, hq⟩
  unfold Bank.cycle
  simp only [if_neg hpol, List.getElem?_map, hzip, Option.map_some]

theorem cycleProducts_cell (a b : List Val) {i j : Nat} (hi : i < 32) (hj : j < 32) {u v : Val} (hu : a[i]? = some u) (hv : b[j]? = some v) :
    (cycleProducts [(a, b)]).1[32 * i + j]? = some [mulVal u v] := by
  have hrow : (32 * i + j) / 32 = i := by omega
  have hcol : (32 * i + j) % 32 = j := by omega
  simp [cycleProducts, List.getElem?_range (show 32 * i + j < 1024 by omega), hrow, hcol, hu, hv]

section

variable {card slot : Nat} (hfmt : mmFmt card slot = 4)

include hfmt

/-- An INT8 element: the byte at its place, as the feed read it. -/
theorem State.operandAt_int8 (s : State) (g e n st k : Nat) {i : Nat} (hi : i < 32) :
    (s.operandAt g e card slot n st k).1[i]? = some (.fin (sext (s.readAsOf (s.ownerN g) (feedCycle card slot st (32 * k + i))
      (itemAddr card slot n (g, e) (32 * k + i))).toNat 8) 0) := by
  have hbit : (32 * 8 * k + 8 * i) / 8 = 32 * k + i := by omega
  have hrest : 32 * 8 * k % 8 = 0 := by omega
  have hbyte : ∀ b : Byte, b.toNat % 256 = b.toNat := fun b => Nat.mod_eq_of_lt b.isLt
  unfold State.operandAt
  simp [-Nat.reduceMul, hfmt, List.getElem?_range hi, elemPlace, fmtWidth, isMx, fieldAddrs, hbit, hrest, leNat, decodeElem, isIntFmt, hbyte]

end

theorem State.readAsOf_of_mayAccess {s : State} {n c a : Nat} (h : s.mayAccess n false a = true) : s.readAsOf n c a = s.asOf c a := if_pos h

section

variable {card : Nat} (hA : mmA card = 4) (hB : mmB card = 4)

include hA hB

theorem cycleSteps_int8 (j : Nat) : cycleSteps card j = [j] := by simp [cycleSteps, mmRate, hA, hB, fmtWidth]

theorem mmInt_int8 : mmInt card = true := by simp [mmInt, hA, hB, isIntFmt]

end

section

variable {s : State} {g e : Nat} {f : Flight} {p : PassRun} {i j : Nat} {x : Cell}

/-- A cell of an INT8 pass that does not shift, after an accumulation cycle. -/
theorem State.cells_cycled_int8 (hA : mmA f.card = 4) (hB : mmB f.card = 4) (hpol : bodyF f.card 168 2 ≠ 2)
    (hanchor : (((s.core g).eng e).bankOf ((s.core g).eng e).passNo).anchor = 0) (hi : i < 32) (hj : j < 32)
    (hx : (padTo {} 1024 (((s.core g).eng e).bankOf ((s.core g).eng e).passNo).cells)[32 * i + j]? = some x)
    (ha : s.mayAccess (s.ownerN g) false (itemAddr f.card 0 p.iter (g, e) (32 * p.cyc + i)) = true)
    (hb : s.mayAccess (s.ownerN g) false (itemAddr f.card 1 p.iter (g, e) (32 * p.cyc + j)) = true) :
    (s.cycled g e f p).cells[32 * i + j]? = some (cellAdd x 0 [.fin
      (sext (s.asOf (feedCycle f.card 0 p.s (32 * p.cyc + i)) (itemAddr f.card 0 p.iter (g, e) (32 * p.cyc + i))).toNat 8
        * sext (s.asOf (feedCycle f.card 1 p.s (32 * p.cyc + j)) (itemAddr f.card 1 p.iter (g, e) (32 * p.cyc + j))).toNat 8) 0]) := by
  have hpolicy := ovfPolicy_of_ne_shift hpol
  have hfmtA : mmFmt f.card 0 = 4 := by simp [mmFmt, hA]
  have hfmtB : mmFmt f.card 1 = 4 := by simp [mmFmt, hB]
  unfold State.cycled
  simp only [cycleSteps_int8 hA hB, mmInt_int8 hA hB, List.map_cons, List.map_nil, if_neg (List.cons_ne_nil _ _)]
  rw [Bank.cells_cycle hpolicy _ hx (cycleProducts_cell _ _ hi hj (s.operandAt_int8 hfmtA g e p.iter p.s p.cyc hi)
      (s.operandAt_int8 hfmtB g e p.iter p.s p.cyc hj)),
    hanchor, mulVal_fin, State.readAsOf_of_mayAccess ha, State.readAsOf_of_mayAccess hb, add_zero]

end

/-! ## The cells while a pass goes on -/

theorem State.cores_recordStopAt (s : State) (t : Option Nat) (n status : Nat) (k : StopKind) : (s.recordStopAt t n status k).cores = s.cores := by
  unfold State.recordStopAt
  extract_lets
  split
  · split
    · rfl
    · rfl
  · rfl

theorem State.core_cycleStopped (s : State) (g e t : Nat) (f : Flight) (p : PassRun) :
    (s.cycleStopped g e t f p).core g = (s.core g).cycled e p (s.cycledMarked g e f p) := by
  rw [← s.core_cycleTapped g e t f p]
  unfold State.cycleStopped
  extract_lets w
  split
  · exact State.core_congr (State.cores_recordStopAt _ _ _ _ _) g
  · rfl

theorem accumulationCycle_cells {s : State} {g e t : Nat} {p : PassRun} {f : Flight} (h : s.Accumulating g e t p f) (hlt : p.cyc + 1 < p.len) :
    ((((accumulationCycle g e t s).core g).eng e).bankOf ((s.core g).eng e).passNo).cells = (s.cycled g e f p).cells := by
  rw [accumulationCycle_eq h, if_pos hlt, State.core_cycleStopped, CoreState.cycled_eng, Engine.bankOf_cycled]
  rfl

/-- Settles O34: the last cycle ends the pass behind the cycle that the others are; a whole product in range enters its cell exactly. -/
theorem passesAccumulateAndEnd : Obligations.PassesAccumulateAndEnd := by
  unfold Obligations.PassesAccumulateAndEnd
  refine ⟨fun s d c e t p f h htrap => ⟨fun hlt => ?_, fun hlast => ?_⟩, fun s d c e t p f i j x h hlt hA hB hpol hanchor hx hlat ha hb v hv hmin hmax => ?_⟩
  · obtain ⟨u, x, y, z, hu, hx, hcur, hno, hbank, hother, honly, hshape, hregs⟩ := accumulationCycle_goes_on h htrap hlt
    rw [die_of_core] at hregs
    exact ⟨u, x, y, z, congrArg _ hu, hx, hcur, hno, hbank, hother, honly, hshape, hregs⟩
  · obtain ⟨u, x, hu, hx, hcur, hcarry, hcells, hchecks, hdrains, hstays, hstatus, hround, hover, honly, hshape, hregs⟩ :=
      accumulationCycle_ends h htrap hlast
    rw [die_of_core, local_of_core] at hstatus hround hover hregs
    refine ⟨u, x, congrArg _ hu, hx, hcur, hcarry, hcells, hchecks, hdrains, hstays, hstatus, hround, hover, honly, hshape,
      hregs.mono fun a ha => ?_⟩
    simpa only [passEndRegs, rampRegs, accRegs, Bool.or_assoc] using ha
  · have hprod := sext8_mul_bounds
      (s.asOf (feedCycle f.card 0 p.s (32 * p.cyc + i.val)) (itemAddr f.card 0 p.iter (16 * d.val + c.val, e.val) (32 * p.cyc + i.val))).toNat
      (s.asOf (feedCycle f.card 1 p.s (32 * p.cyc + j.val)) (itemAddr f.card 1 p.iter (16 * d.val + c.val, e.val) (32 * p.cyc + j.val))).toNat
    refine ⟨_, rfl, ?_⟩
    subst hv
    rw [accumulationCycle_cells h hlt, State.cells_cycled_int8 hA hB hpol hanchor i.isLt j.isLt hx ha hb,
      cellAdd_whole hlat (by unfold accMin; omega) (by unfold accMax; omega) hmin hmax]

end Sys2Proof.Machine
end

/-! What an access check reads and leaves (06_memory_hierarchy.md R167, R171, R173). -/

section

namespace Sys2Proof.Machine

/-! ## The registers of a partition's ranges -/

/-- The registers that say what a partition may access: the ranges on each compute die, and the partitions' cores. -/
def grantRegs (a : Nat) : Prop :=
  (∃ d, d < 8 ∧ Reg.dieBase d + 0x18 ≤ a ∧ a < Reg.dieBase d + 0x2000) ∨ (Reg.topPartMember 0 ≤ a ∧ a < Reg.topPartMember 0 + 0x4100)

section

variable {s t : State} {k : Nat → Bool} (h : s.SameRegsBut t k) (hk : ∀ a, grantRegs a → k a = false) {n : Nat} (hn : n ≤ 64)

include h hk hn

theorem State.members_of_grants : t.members n = s.members n :=
  State.rWide_congr s t _ 4 fun b h1 h2 => h b (hk b (Or.inr (by unfold Reg.topPartMember at *; omega)))

omit hn in
theorem State.f64_range_of_grants {d : Nat} (hd : d < 8) {a : Nat} (ha : Reg.dieBase d + 0x18 ≤ a) (ha' : a + 4 < Reg.dieBase d + 0x2000)
    (lo w : Nat) : t.f64 a lo w = s.f64 a lo w :=
  State.f64_of_sameRegs h (hk _ (Or.inl ⟨d, hd, ha, by omega⟩)) (hk _ (Or.inl ⟨d, hd, by omega, ha'⟩)) lo w

/-- What a partition may access depends on the registers of its ranges alone. -/
theorem State.mayAccess_of_grants (w : Bool) (a : Nat) : t.mayAccess n w a = s.mayAccess n w a := by
  have hmem := State.members_of_grants h hk hn
  unfold State.mayAccess State.hasCoreOn
  simp only [hmem]
  by_cases hd : 8 ≤ addrDie a
  · simp [hd]
  · have hrange := fun {r} => State.f64_range_of_grants h hk (d := addrDie a) (by omega) (a := r)
    have hshm := hrange (r := Reg.cdPbbShm (addrDie a) n) (by unfold Reg.cdPbbShm; omega) (by unfold Reg.cdPbbShm; omega)
    have hcore := hrange (r := Reg.cdPbbCore (addrDie a) n) (by unfold Reg.cdPbbCore; omega) (by unfold Reg.cdPbbCore; omega)
    have hcommon := hrange (r := Reg.cdCommonShm (addrDie a)) (by unfold Reg.cdCommonShm; omega) (by unfold Reg.cdCommonShm; omega)
    simp only [hshm, hcore, hcommon]

omit hn in
theorem State.ownerN_of_grants (g : Nat) : t.ownerN g = s.ownerN g := by
  have : ∀ i ∈ List.range 64, bitAt (t.members i) g = bitAt (s.members i) g := fun i hi => by
    rw [State.members_of_grants h hk (by have := List.mem_range.1 hi; omega)]
  unfold State.ownerN State.owner
  rw [List.find?_congr this]

end

theorem State.ownerN_le (s : State) (g : Nat) : s.ownerN g ≤ 64 := by
  unfold State.ownerN State.owner
  cases h : (List.range 64).find? (fun n => bitAt (s.members n) g) with
  | none => exact le_rfl
  | some n => exact (List.mem_range.1 (List.mem_of_find?_eq_some h)).le

theorem State.addrDie_of_mayAccess {s : State} {n a : Nat} {w : Bool} (h : s.mayAccess n w a = true) : addrDie a < 8 := by
  by_contra hd
  simp [State.mayAccess, not_lt.1 hd] at h

/-! ## Registers that an error in memory writes -/

/-- The registers that errors in the memories of the compute dies write. -/
def faultRegs (a : Nat) : Bool := (List.range 8).any (fun d => rasRegs d a)

theorem faultRegs_of_ras {d a : Nat} (hd : d < 8) (h : rasRegs d a = true) : faultRegs a = true :=
  List.any_eq_true.2 ⟨d, List.mem_range.2 hd, h⟩

theorem rasRegs_false {d a : Nat} (hd : a < Reg.cdMemStatus d ∨ Reg.cdMemStatus d + 0x18 ≤ a) (he : eventRegs a = false) : rasRegs d a = false := by
  unfold rasRegs
  rw [he, Bool.or_false, Bool.and_eq_false_iff, decide_eq_false_iff_not, decide_eq_false_iff_not]
  omega

theorem eventRegs_false {a : Nat} (h : a < Reg.hstStatus ∨ Reg.hstEvtCount + 4 < a) : eventRegs a = false := by
  simp only [eventRegs, Bool.or_eq_false_iff, beq_eq_false_iff_ne]
  unfold Reg.hstStatus Reg.hstEvtCount at *
  omega

theorem faultRegs_false {a : Nat} (hd : ∀ d, d < 8 → a < Reg.cdMemStatus d ∨ Reg.cdMemStatus d + 0x18 ≤ a)
    (he : a < Reg.hstStatus ∨ Reg.hstEvtCount + 4 < a) : faultRegs a = false := by
  simp only [faultRegs, List.any_eq_false, List.mem_range]
  intro d hlt
  rw [rasRegs_false (hd d hlt) (eventRegs_false he)]
  decide

theorem faultRegs_of_grants {a : Nat} (h : grantRegs a) : faultRegs a = false := by
  unfold grantRegs Reg.topPartMember Reg.dieBase at h
  refine faultRegs_false (fun d hd => ?_) ?_
  · unfold Reg.cdMemStatus Reg.dieBase
    omega
  · unfold Reg.hstStatus Reg.hstEvtCount
    omega

theorem State.sameRegs_memoryEvent (s : State) (d part : Nat) : s.SameRegsBut (s.memoryEvent d part) (rasRegs d) :=
  (s.sameRegs_postEvent _ _ _ _).mono fun a ha => by simp [rasRegs, ha]

section

variable (s : State) {d a : Nat}

theorem rasRegs_of_le (h : Reg.cdMemStatus d ≤ a) (h' : a < Reg.cdMemStatus d + 0x18) : rasRegs d a = true := by
  simp only [rasRegs, Bool.or_eq_true, Bool.and_eq_true, decide_eq_true_eq]
  exact Or.inl ⟨h, h'⟩

theorem State.wordsOnly_memStatus (i : Nat) : s.WordsOnly (s.set32 (Reg.cdMemStatus d) i) (rasRegs d) :=
  s.wordsOnly_w32 _ (rasRegs_of_le le_rfl (by omega))

theorem State.wordsOnly_rasLast (type : Nat) : s.WordsOnly (s.rasLast d type a) (rasRegs d) := by
  have hreg : Reg.cdRasLast d = Reg.cdMemStatus d + 0x10 := by unfold Reg.cdRasLast Reg.cdMemStatus; omega
  exact s.wordsOnly_w64 _ (rasRegs_of_le (by omega) (by omega)) (rasRegs_of_le (by omega) (by omega))

theorem State.wordsOnly_rasCount (lo w k : Nat) : s.WordsOnly (s.count64 (Reg.cdRasCount d) lo w k) (rasRegs d) := by
  have hreg : Reg.cdRasCount d = Reg.cdMemStatus d + 0x8 := by unfold Reg.cdRasCount Reg.cdMemStatus; omega
  exact s.wordsOnly_w64 _ (rasRegs_of_le (by omega) (by omega)) (rasRegs_of_le (by omega) (by omega))

theorem State.sameRegs_scheduleRemap (row : Nat) : s.SameRegsBut (s.scheduleRemap d row) (rasRegs d) := by
  unfold State.scheduleRemap
  simp only []
  split_ifs
  · exact fun _ _ => rfl
  · exact (s.wordsOnly_memStatus 7).2.trans (State.sameRegs_memoryEvent _ _ _)
  · exact (State.wordsOnly_memStatus (s.setDie d _) 7).2.trans (State.sameRegs_memoryEvent _ _ _)
  · exact (State.wordsOnly_memStatus (s.setDie d _) 4).2

theorem State.sameRegs_eccCorrected : s.SameRegsBut (s.eccCorrected d a) (rasRegs d) := by
  have hset : ∀ (u : State) x, u.SameRegsBut (u.setDie d x) (rasRegs d) := fun u x => .of_regs rfl
  unfold State.eccCorrected
  extract_lets c row x r v
  have hcounted : s.SameRegsBut c (rasRegs d) := (((s.wordsOnly_memStatus 5).trans (State.wordsOnly_rasCount _ 32 32 1)).trans
    (State.wordsOnly_rasLast _ 1)).2
  have hv : s.SameRegsBut v (rasRegs d) := hcounted.trans (hset c _)
  split_ifs
  · exact hv.trans (v.sameRegs_scheduleRemap row)
  · exact hv

/-- A read of words without an error notices none. -/
theorem State.noticed_of_not_soft {addrs : List Nat} (h : ∀ a, a ∈ addrs → s.isSoft a = false) : s.noticed addrs = s := by
  unfold State.noticed
  split_ifs
  · rfl
  · refine foldl_eq_self fun w hw => ?_
    simp only [List.mem_filter, List.mem_eraseDups, List.mem_map] at hw
    obtain ⟨⟨x, hx, rfl⟩, hsoft⟩ := hw
    rw [s.isSoft_word, h x hx] at hsoft
    exact absurd hsoft (by decide)

theorem State.sameRegs_noticed {addrs : List Nat} (h : ∀ a, a ∈ addrs → addrDie a < 8) : s.SameRegsBut (s.noticed addrs) faultRegs := by
  unfold State.noticed
  split_ifs
  · exact fun _ _ => rfl
  · refine List.foldlRecOn _ _ (motive := fun u => s.SameRegsBut u faultRegs) (fun _ _ => rfl) fun u hu w hw => hu.trans ?_
    simp only [List.mem_filter, List.mem_eraseDups, List.mem_map] at hw
    obtain ⟨⟨x, hx, rfl⟩, -⟩ := hw
    have hdie : addrDie (8 * (x / 8)) < 8 := by
      have := h x hx
      unfold addrDie at *
      omega
    exact u.sameRegs_eccCorrected.mono fun _ => faultRegs_of_ras hdie

end

/-! ## The check of an access -/

/-- Nothing but registers, the host interface and the records of dies and partitions differs. -/
def State.ChecksOnly (s t : State) : Prop := t = { s with regs := t.regs, host := t.host, dies := t.dies, parts := t.parts }

theorem State.ChecksOnly.trans {s t u : State} (h : s.ChecksOnly t) (k : t.ChecksOnly u) : s.ChecksOnly u := by
  unfold State.ChecksOnly at *
  rw [k, h]

theorem State.RecordsOnly.checksOnly {s t : State} (h : s.RecordsOnly t) : s.ChecksOnly t := by
  unfold State.RecordsOnly State.ChecksOnly at *
  rw [h]

theorem State.RecordsOnly.part {s t : State} (h : s.RecordsOnly t) (n : Nat) : t.part n = s.part n := by
  unfold State.RecordsOnly at h
  rw [h]
  rfl

section

variable (s : State) (t : Option Nat) (n status : Nat) (k : StopKind)

/-- The record of a stop goes to one partition. -/
theorem State.recordStopAt_shape : s.recordStopAt t n status k = { s with parts := (s.recordStopAt t n status k).parts } := by
  unfold State.recordStopAt
  extract_lets
  split
  · split
    · rfl
    · rfl
  · rfl

theorem State.stop_recordStopAt : ((s.recordStopAt t n status k).part n).stop ≠ none := by
  have hset : ∀ v, (s.setPart n v).part n = v := fun v => Tab.get_put_same _ _ _ _
  unfold State.recordStopAt
  extract_lets p
  split
  next x _ hp =>
    split
    · rw [hset]; nofun
    · exact hp ▸ nofun
  · rw [hset]; nofun

theorem State.stop_recordStopAt_other {m : Nat} (hm : (s.part m).stop ≠ none) : ((s.recordStopAt t n status k).part m).stop ≠ none := by
  by_cases h : m = n
  · subst h
    exact s.stop_recordStopAt t m status k
  · have hset : ∀ v, (s.setPart n v).part m = s.part m := fun v => Tab.get_put_other _ _ _ _ _ h
    unfold State.recordStopAt
    extract_lets p
    split
    · split
      · rwa [hset]
      · exact hm
    · rwa [hset]

end

section

variable (s : State) (t : Option Nat) (n a : Nat)

/-- What a bound fault writes before it records the stop. -/
def State.boundTold : State := ((s.set32 (Reg.cdMemStatus (addrDie a % 8)) 2).rasLast (addrDie a % 8) 3 a).memoryEvent (addrDie a % 8) n

theorem State.recordsOnly_boundTold : s.RecordsOnly (s.boundTold n a) :=
  (((State.RecordsOnly.refl s).regs (State.set32_shape ..)).regs (State.w64_shape ..)).postEvent ..

theorem State.sameRegs_boundTold : s.SameRegsBut (s.boundTold n a) faultRegs :=
  (((s.wordsOnly_memStatus 2).trans (State.wordsOnly_rasLast _ 3)).2.trans (State.sameRegs_memoryEvent _ _ _)).mono fun _ =>
    faultRegs_of_ras (by omega)

theorem State.checksOnly_boundFaultAt : s.ChecksOnly (s.boundFaultAt t n a) := by
  refine (s.recordsOnly_boundTold n a).checksOnly.trans ?_
  show State.ChecksOnly _ ((s.boundTold n a).recordStopAt t n 0x51 .fault)
  unfold State.ChecksOnly
  rw [State.recordStopAt_shape]

theorem State.sameRegs_boundFaultAt : s.SameRegsBut (s.boundFaultAt t n a) faultRegs := by
  refine (s.sameRegs_boundTold n a).trans ?_
  show State.SameRegsBut _ ((s.boundTold n a).recordStopAt t n 0x51 .fault) _
  rw [State.recordStopAt_shape]
  exact fun _ _ => rfl

end

section

variable (s : State) (t n : Nat)

theorem State.checksOnly_checkBounds (write : Bool) (addrs : List Nat) : s.ChecksOnly (s.checkBounds t n write addrs) := by
  have hread : s.ChecksOnly (if write then s else s.noticed (addrs.filter (s.mayAccess n false))) := by
    split
    · rfl
    · exact (s.recordsOnly_noticed _).checksOnly
  unfold State.checkBounds
  extract_lets s'
  split
  · exact hread.trans (s'.checksOnly_boundFaultAt _ _ _)
  · exact hread

theorem State.sameRegs_checkBounds (write : Bool) (addrs : List Nat) : s.SameRegsBut (s.checkBounds t n write addrs) faultRegs := by
  have hread : s.SameRegsBut (if write then s else s.noticed (addrs.filter (s.mayAccess n false))) faultRegs := by
    split
    · exact fun _ _ => rfl
    · exact s.sameRegs_noticed fun a ha => State.addrDie_of_mayAccess (List.mem_filter.1 ha).2
  unfold State.checkBounds
  extract_lets s'
  split
  · exact hread.trans (s'.sameRegs_boundFaultAt _ _ _)
  · exact hread

/-- An access outside the partition's ranges has it record a stop (R171). -/
theorem State.stop_checkBounds {write : Bool} {addrs : List Nat} {a : Nat} (ha : a ∈ addrs) (hno : s.mayAccess n write a = false) :
    ((s.checkBounds t n write addrs).part n).stop ≠ none := by
  unfold State.checkBounds
  extract_lets s'
  split
  · exact State.stop_recordStopAt _ _ _ _ _
  next hnone =>
    have hall := List.find?_eq_none.1 hnone a ha
    simp [hno] at hall

/-- A recorded stop stays recorded. -/
theorem State.stop_checkBounds_other (write : Bool) (addrs : List Nat) {m : Nat} (hm : (s.part m).stop ≠ none) :
    ((s.checkBounds t n write addrs).part m).stop ≠ none := by
  have hread : ((if write then s else s.noticed (addrs.filter (s.mayAccess n false))).part m).stop ≠ none := by
    split
    · exact hm
    · rwa [(s.recordsOnly_noticed _).part m]
  unfold State.checkBounds
  extract_lets s'
  split
  next b _ =>
    refine State.stop_recordStopAt_other (s'.boundTold n b) _ _ _ _ ?_
    rwa [(s'.recordsOnly_boundTold n b).part m]
  · exact hread

/-- A read of sound words inside the ranges leaves everything as it is. -/
theorem State.checkBounds_of_mayRead {addrs : List Nat} (h : s.MayRead n addrs) : s.checkBounds t n false addrs = s := by
  have hfind : addrs.find? (fun a => !s.mayAccess n false a) = none := List.find?_eq_none.2 fun a ha => by simp [(h a ha).1]
  unfold State.checkBounds
  simp only [hfind]
  exact s.noticed_of_not_soft fun a ha => (h a (List.mem_filter.1 ha).1).2

/-- A write inside the ranges finds no fault. -/
theorem State.checkBounds_of_mayWrite {addrs : List Nat} (h : ∀ a, a ∈ addrs → s.mayAccess n true a = true) :
    s.checkBounds t n true addrs = s := by
  have hfind : addrs.find? (fun a => !s.mayAccess n true a) = none := List.find?_eq_none.2 fun a ha => by simp [h a ha]
  unfold State.checkBounds
  simp only [hfind]
  rfl

end

theorem State.ChecksOnly.sameBytes {s t : State} (h : s.ChecksOnly t) : s.SameBytes t := by
  unfold State.ChecksOnly at h
  rw [h]
  exact State.SameBytes.of_mem rfl rfl

theorem State.ChecksOnly.core {s t : State} (h : s.ChecksOnly t) (g : Nat) : t.core g = s.core g := by
  unfold State.ChecksOnly at h
  rw [h]
  rfl

end Sys2Proof.Machine
end

/-! PRESCAN (04_matrix_engine.md R105, R114). -/

section

namespace Sys2Proof.Machine

/-! ## The scale reads of a PRESCAN -/

section

variable {s : State} {g e cyc : Nat} {f : Flight} {p : Prescan}

/-- A scan in a cycle of its own loses the cycle, or reads the scale lines of one more block position. -/
theorem State.scanCycle_cases (hlen : p.reads.length < scanBlocks f.card) (hat : p.at' ≤ cyc) :
    s.scanCycle g e cyc f p = { p with at' := cyc + 1 }
      ∨ ∃ r, s.scanCycle g e cyc f p = { p with at' := cyc + 1, fin := cyc + 1, reads := p.reads ++ [r] } := by
  unfold State.scanCycle
  extract_lets c b lost part one
  rw [if_neg (by simp [b]; omega)]
  split
  · exact Or.inl rfl
  · exact Or.inr ⟨_, rfl⟩

/-- Where neither the feed nor a fill has a bank of the buffers, the scan reads. -/
theorem State.scanCycle_reads (hlen : p.reads.length < scanBlocks f.card) (hat : p.at' ≤ cyc)
    (hfree : ∀ k, k < 2 → (s.core g).feedBanks g e k cyc = [] ∧ (s.core g).fillBanks e k cyc = []) :
    s.scanCycle g e cyc f p = { p with at' := cyc + 1, fin := cyc + 1, reads := p.reads ++ [
      ((scaleAddrs g e f.card 0 p.iter p.reads.length).map (List.map (fun a => (s.readAsOf (s.ownerN g) cyc a).toNat)),
        (scaleAddrs g e f.card 1 p.iter p.reads.length).map (List.map (fun a => (s.readAsOf (s.ownerN g) cyc a).toNat)))] } := by
  unfold State.scanCycle
  extract_lets c b lost part one
  have hlost : ∀ k, k < 2 → lost k = false := fun k hk => by
    obtain ⟨hfeed, hfill⟩ := hfree k hk
    show (match scaleAddrs g e f.card k p.iter b with | some (a :: _) => _ | _ => _) = false
    split
    · rw [show c.feedBanks g e k cyc = [] from hfeed, show c.fillBanks e k cyc = [] from hfill]
      rfl
    · rfl
  rw [if_neg (by simp [b]; omega), hlost 0 (by decide), hlost 1 (by decide)]
  rfl

/-- Where the feed or a fill has the bank of a scale line, the scan loses the cycle. -/
theorem State.scanCycle_loses (hlen : p.reads.length < scanBlocks f.card) (hat : p.at' ≤ cyc) {k a : Nat} {l : List Nat} (hk : k < 2)
    (hl : scaleAddrs g e f.card k p.iter p.reads.length = some (a :: l))
    (hbank : bufferBank a ∈ (s.core g).feedBanks g e k cyc ++ (s.core g).fillBanks e k cyc) :
    s.scanCycle g e cyc f p = { p with at' := cyc + 1 } := by
  unfold State.scanCycle
  extract_lets c b lost part one
  have hlost : lost k = true := by
    show (match scaleAddrs g e f.card k p.iter p.reads.length with | some (a :: _) => _ | _ => _) = true
    rw [hl]
    exact List.contains_iff_mem.2 hbank
  have hor : (lost 0 || lost 1) = true := by
    obtain rfl | rfl : k = 0 ∨ k = 1 := by omega
    · rw [hlost, Bool.true_or]
    · rw [hlost, Bool.or_true]
  rw [if_neg (by simp [b]; omega), if_pos hor]

/-- How far a scan that began at `q` has come before cycle `cyc`. -/
structure Scanned (q cyc B : Nat) (p : Prescan) : Prop where
  length : p.reads.length ≤ B
  began : q + p.reads.length ≤ p.fin
  ended : p.fin ≤ p.at'
  upTo : p.at' ≤ cyc
  whole : p.reads.length = B ∨ p.at' = cyc

theorem State.scanned_scanCycle {q : Nat} (h : Scanned q cyc (scanBlocks f.card) p) (hlen : p.reads.length < scanBlocks f.card) :
    Scanned q (cyc + 1) (scanBlocks f.card) (s.scanCycle g e cyc f p) ∧ (s.scanCycle g e cyc f p).seq = p.seq
      ∧ (s.scanCycle g e cyc f p).iter = p.iter := by
  obtain ⟨-, hbegan, hended, hupto, -⟩ := h
  obtain heq | ⟨r, heq⟩ := s.scanCycle_cases (g := g) (e := e) hlen hupto
  · rw [heq]
    exact ⟨⟨hlen.le, hbegan, by dsimp only; omega, le_rfl, Or.inr rfl⟩, rfl, rfl⟩
  · rw [heq]
    refine ⟨⟨?_, ?_, le_rfl, le_rfl, Or.inr rfl⟩, rfl, rfl⟩
    · simpa using hlen
    · simp only [List.length_append, List.length_singleton]
      omega

theorem State.scanned_scanRun {q : Nat} (n : Nat) (h : Scanned q cyc (scanBlocks f.card) p) :
    Scanned q (cyc + n) (scanBlocks f.card) (s.scanRun g e f n cyc p) ∧ (s.scanRun g e f n cyc p).seq = p.seq
      ∧ (s.scanRun g e f n cyc p).iter = p.iter := by
  induction n generalizing cyc p with
  | zero => exact ⟨h, rfl, rfl⟩
  | succ n ih =>
    unfold State.scanRun
    split
    next hfull =>
      obtain ⟨hlen, hbegan, hended, hupto, -⟩ := h
      exact ⟨⟨hlen, hbegan, hended, by omega, Or.inl (le_antisymm hlen hfull)⟩, rfl, rfl⟩
    next hmore =>
      obtain ⟨hnext, hseq, hiter⟩ := s.scanned_scanCycle (g := g) (e := e) h (not_le.1 hmore)
      obtain ⟨hrun, hseq', hiter'⟩ := ih hnext
      rw [Nat.add_right_comm] at hrun
      exact ⟨hrun, hseq'.trans hseq, hiter'.trans hiter⟩

end

/-! ## A scan that begins -/

theorem State.scanTo_eq {s : State} {g e cyc : Nat} {p : Prescan} {f : Flight} (hscan : ((s.core g).eng e).scan = some p)
    (hf : (s.core g).flight p.seq = some f) :
    s.scanTo g e cyc = s.setCore g ((s.core g).setEng e { (s.core g).eng e with scan := some (s.scanRun g e f (cyc - p.at') p.at' p) }) := by
  unfold State.scanTo
  simp only [hscan, hf]

/-- The scale reads of a pass go to the core. -/
theorem State.scanTo_shape (s : State) (g e cyc : Nat) : s.scanTo g e cyc = { s with cores := (s.scanTo g e cyc).cores } := by
  unfold State.scanTo
  extract_lets c
  split
  · rfl
  · split
    · rfl
    · rfl

/-- The addresses of the scale bytes that PRESCAN of pass `n` reads. -/
def scanReads (g e card n : Nat) : List Nat :=
  ((List.range (scanBlocks card)).map (fun b => ((scaleAddrs g e card 0 n b).getD []) ++ ((scaleAddrs g e card 1 n b).getD []))).flatten

theorem mem_scanReads {g e card n a : Nat} :
    a ∈ scanReads g e card n ↔ ∃ k l, k < 2 ∧ (∃ b, b < scanBlocks card ∧ scaleAddrs g e card k n b = some l) ∧ a ∈ l := by
  simp only [scanReads, List.mem_flatten, List.mem_map, List.mem_range]
  constructor
  · rintro ⟨_, ⟨b, hb, rfl⟩, ha⟩
    obtain h | h := List.mem_append.1 ha
    · cases hs : scaleAddrs g e card 0 n b with
      | none => rw [hs] at h; exact absurd h List.not_mem_nil
      | some l => rw [hs] at h; exact ⟨0, l, by decide, ⟨b, hb, hs⟩, h⟩
    · cases hs : scaleAddrs g e card 1 n b with
      | none => rw [hs] at h; exact absurd h List.not_mem_nil
      | some l => rw [hs] at h; exact ⟨1, l, by decide, ⟨b, hb, hs⟩, h⟩
  · rintro ⟨k, l, hk, ⟨b, hb, hs⟩, ha⟩
    refine ⟨_, ⟨b, hb, rfl⟩, List.mem_append.2 ?_⟩
    obtain rfl | rfl : k = 0 ∨ k = 1 := by omega
    · exact Or.inl (by rw [hs]; exact ha)
    · exact Or.inr (by rw [hs]; exact ha)

/-- A scan that begins in cycle `q`. -/
def Prescan.start (f : Flight) (n q : Nat) : Prescan := { seq := f.seq, iter := n, at' := q, fin := q }

/-- The state in which engine `e` has begun the scan of pass `n` in cycle `q`. -/
def State.scanBegun (s : State) (g e : Nat) (f : Flight) (n q : Nat) : State :=
  s.setCore g ((s.core g).setEng e { (s.core g).eng e with scan := some (Prescan.start f n q) })

theorem CoreState.flight_of_nextPass {c : CoreState} {e n : Nat} {f : Flight} (h : c.nextPass e = some (f, n)) : c.flight f.seq = some f := by
  unfold CoreState.nextPass at h
  split at h
  · exact absurd h nofun
  next q _ =>
    split at h
    next f' hf =>
      obtain ⟨rfl, -⟩ := Prod.mk.inj (Option.some.inj h)
      rwa [CoreState.seq_of_flight hf]
    · exact absurd h nofun

section

variable {s y : State} {g e t n r q cyc : Nat} {f : Flight}

theorem prescan_eq (hcyc : cyc = s.engCycle (g / 16) t) (hy : y = s.meshTo (g / 16) cyc) (hrun : y.dieRuns (g / 16) t = true)
    (hnext : (y.core g).nextPass e = some (f, n)) (hscans : mmScans f.card n = true) (hnone : ((y.core g).eng e).scan = none)
    (hr : (y.core g).scanFrom g e f n = some r) (hq : q = max (max ((y.core g).eng e).scanFree ((y.core g).eng e).lastS) (max (f.issue + 1) r))
    (hle : q ≤ cyc) :
    prescan g e t s = ((y.scanBegun g e f n q).checkBounds t (y.ownerN g) false (scanReads g e f.card n)).scanTo g e cyc := by
  subst hcyc hy hq
  unfold prescan
  simp only [hnext, hr, hscans, hnone, hrun]
  rw [if_neg (by simp; omega)]
  rfl

theorem State.eng_scanBegun : ((y.scanBegun g e f n q).core g).eng e = { (y.core g).eng e with scan := some (Prescan.start f n q) } := by
  unfold State.scanBegun
  rw [State.core_setCore_same, CoreState.eng_setEng_same]

theorem State.flight_scanBegun (seq : Nat) : ((y.scanBegun g e f n q).core g).flight seq = (y.core g).flight seq := by
  unfold State.scanBegun
  rw [State.core_setCore_same]
  rfl

/-- A scan begun and made up to a cycle before which it has done nothing. -/
theorem State.scanTo_scanBegun (hnext : (y.core g).nextPass e = some (f, n)) (hle : q ≤ cyc) :
    ∃ p, (y.scanBegun g e f n q).scanTo g e cyc = (y.scanBegun g e f n q).setCore g
        (((y.scanBegun g e f n q).core g).setEng e { (y.core g).eng e with scan := some p })
      ∧ Scanned q cyc (scanBlocks f.card) p ∧ p.seq = f.seq ∧ p.iter = n := by
  have hscan : (((y.scanBegun g e f n q).core g).eng e).scan = some (Prescan.start f n q) := by rw [State.eng_scanBegun]
  have hflight : ((y.scanBegun g e f n q).core g).flight (Prescan.start f n q).seq = some f := by
    rw [State.flight_scanBegun]
    exact CoreState.flight_of_nextPass hnext
  have hstart : Scanned q q (scanBlocks f.card) (Prescan.start f n q) := ⟨Nat.zero_le _, le_rfl, le_rfl, le_rfl, Or.inr rfl⟩
  obtain ⟨hscanned, hseq, hiter⟩ := (y.scanBegun g e f n q).scanned_scanRun (g := g) (e := e) (cyc - q) hstart
  rw [Nat.add_sub_cancel' hle] at hscanned
  refine ⟨_, ?_, hscanned, hseq, hiter⟩
  rw [State.scanTo_eq hscan hflight, State.eng_scanBegun]
  rfl

/-- PRESCAN whose scale lines the partition may read. -/
theorem State.prescan_reads (hnext : (y.core g).nextPass e = some (f, n)) (hle : q ≤ cyc)
    (hread : y.MayRead (y.ownerN g) (scanReads g e f.card n)) :
    ∃ u p, ((y.scanBegun g e f n q).checkBounds t (y.ownerN g) false (scanReads g e f.card n)).scanTo g e cyc = u
      ∧ (u.core g).eng e = { (y.core g).eng e with scan := some p } ∧ Scanned q cyc (scanBlocks f.card) p ∧ p.seq = f.seq ∧ p.iter = n
      ∧ y.OnlyEngine u g e f.seq ∧ (u.core g).flights = (y.core g).flights ∧ u = { y with cores := u.cores } := by
  obtain ⟨p, heq, hscanned, hseq, hiter⟩ := State.scanTo_scanBegun (y := y) (g := g) (e := e) hnext hle
  have hcheck : (y.scanBegun g e f n q).checkBounds t (y.ownerN g) false (scanReads g e f.card n) = y.scanBegun g e f n q :=
    State.checkBounds_of_mayRead _ _ _ hread
  have hbegun : (y.scanBegun g e f n q).core g = (y.core g).setEng e { (y.core g).eng e with scan := some (Prescan.start f n q) } :=
    y.core_setCore_same _ _
  refine ⟨_, p, rfl, ?_⟩
  rw [hcheck, heq]
  refine ⟨?_, hscanned, hseq, hiter, State.onlyEngine_of_beside (fun k hk => ?_) ?_, ?_, rfl⟩
  · rw [State.core_setCore_same, CoreState.eng_setEng_same]
  · rw [State.core_setCore_other _ _ _ _ hk]
    exact y.core_setCore_other _ _ _ hk
  · rw [State.core_setCore_same, hbegun]
    exact ((y.core g).beside_setEng e _ _).trans (CoreState.beside_setEng _ e _ _)
  · rw [State.core_setCore_same, hbegun]
    rfl

/-- PRESCAN with a scale byte outside the partition's ranges. -/
theorem State.prescan_faults {a : Nat} (ha : a ∈ scanReads g e f.card n) (hno : y.mayAccess (y.ownerN g) false a = false) :
    ∃ u, ((y.scanBegun g e f n q).checkBounds t (y.ownerN g) false (scanReads g e f.card n)).scanTo g e cyc = u
      ∧ (u.part (y.ownerN g)).stop ≠ none ∧ y.SameBytes u := by
  have hstop := (y.scanBegun g e f n q).stop_checkBounds t (y.ownerN g) ha hno
  have hbytes : y.SameBytes ((y.scanBegun g e f n q).checkBounds t (y.ownerN g) false (scanReads g e f.card n)) :=
    (State.SameBytes.of_mem rfl rfl).trans (State.checksOnly_checkBounds (y.scanBegun g e f n q) t (y.ownerN g) false _).sameBytes
  refine ⟨_, rfl, ?_⟩
  rw [State.scanTo_shape]
  exact ⟨hstop, hbytes.trans (State.SameBytes.of_mem rfl rfl)⟩

end

end Sys2Proof.Machine
end

/-! The start of a pass (04_matrix_engine.md R111 to R113, R121, R228). -/

section

namespace Sys2Proof.Machine

/-! ## Stamps of items -/

theorem doneBy_stampAt_same (t : Tab (Option Nat)) (k cyc : Nat) : doneBy (stampAt t k cyc) k cyc = true := by
  simp [doneBy, stampAt, Tab.get_put_same]

theorem doneBy_stampAt_other (t : Tab (Option Nat)) {k j : Nat} (x cyc : Nat) (h : j ≠ k) : doneBy (stampAt t k x) j cyc = doneBy t j cyc := by
  simp [doneBy, stampAt, Tab.get_put_other _ _ _ _ _ h]

theorem itemKey_ne {i j : Nat} (e n : Nat) (h : i ≠ j) : itemKey i e n ≠ itemKey j e n := by
  unfold itemKey
  omega

/-! ## The counts of a pass start -/

/-- The registers of an engine that a pass start counts in. -/
def passRegs (d c e a : Nat) : Bool :=
  pairOf (Reg.engPassCount d c e) a || pairOf (Reg.engDrainStall d c e) a || pairOf (Reg.engPrescanStall d c e) a

/-- The state in which a pass has been counted, and the cycles that its bank and its PRESCAN held it. -/
def State.passCounted (s : State) (d c e drain scan : Nat) : State :=
  ((s.count64 (Reg.engPassCount d c e) 0 64 1).count64 (Reg.engDrainStall d c e) 0 64 drain).count64 (Reg.engPrescanStall d c e) 0 64 scan

section

variable (s : State) (d c e drain scan : Nat)

theorem State.wordsOnly_passCounted : s.WordsOnly (s.passCounted d c e drain scan) (passRegs d c e) :=
  (((s.wordsOnly_count64 _ _ _ _).mono fun a ha => by simp only [passRegs, ha, Bool.true_or]).trans
    ((State.wordsOnly_count64 _ _ _ _ _).mono fun a ha => by simp only [passRegs, ha, Bool.true_or, Bool.or_true])).trans
      ((State.wordsOnly_count64 _ _ _ _ _).mono fun a ha => by simp only [passRegs, ha, Bool.or_true])

theorem State.r64_count64_other (lo w k : Nat) {a b : Nat} (h : b + 4 < a ∨ a + 4 < b) : (s.count64 a lo w k).r64 b = s.r64 b :=
  State.r64_of_sameRegs (s.wordsOnly_count64 a lo w k).2 (pairOf_false (by omega) (by omega)) (pairOf_false (by omega) (by omega))

theorem State.r64_passCounted :
    (s.passCounted d c e drain scan).r64 (Reg.engPassCount d c e) = min (s.r64 (Reg.engPassCount d c e) + 1) (2 ^ 64 - 1)
      ∧ (s.passCounted d c e drain scan).r64 (Reg.engDrainStall d c e) = min (s.r64 (Reg.engDrainStall d c e) + drain) (2 ^ 64 - 1)
      ∧ (s.passCounted d c e drain scan).r64 (Reg.engPrescanStall d c e) = min (s.r64 (Reg.engPrescanStall d c e) + scan) (2 ^ 64 - 1) := by
  unfold State.passCounted
  rw [Reg.engPassCount_eq, Reg.engDrainStall_eq, Reg.engPrescanStall_eq]
  refine ⟨?_, ?_, ?_⟩
  · rw [State.r64_count64_other _ _ _ _ (by omega), State.r64_count64_other _ _ _ _ (by omega), State.r64_count64_full]
  · rw [State.r64_count64_other _ _ _ _ (by omega), State.r64_count64_full, State.r64_count64_other _ _ _ _ (by omega)]
  · rw [State.r64_count64_full, State.r64_count64_other _ _ _ _ (by omega), State.r64_count64_other _ _ _ _ (by omega)]

end

theorem passRegs_false {d c e a : Nat} (h : a < Reg.engPassCount d c e ∨ Reg.engPrescanStall d c e + 4 < a) : passRegs d c e a = false := by
  rw [Reg.engPassCount_eq, Reg.engPrescanStall_eq] at h
  simp only [passRegs, Bool.or_eq_false_iff, Reg.engPassCount_eq, Reg.engDrainStall_eq, Reg.engPrescanStall_eq]
  exact ⟨⟨pairOf_false (by omega) (by omega), pairOf_false (by omega) (by omega)⟩, pairOf_false (by omega) (by omega)⟩

theorem passRegs_of_grants {d c e a : Nat} (hc : c < 16) (he : e < 64) (h : grantRegs a) : passRegs d c e a = false := by
  unfold grantRegs Reg.topPartMember Reg.dieBase at h
  refine passRegs_false ?_
  unfold Reg.engPassCount Reg.engPrescanStall Reg.dieBase
  omega

/-! ## The engine and its card as a pass starts -/

/-- Engine `x` as it starts pass `n` of card `f` in cycle `st`; `p` is the end of the pass's PRESCAN. -/
def Engine.started (x : Engine) (f : Flight) (n st p : Nat) : Engine :=
  Engine.putBank { x with
    cur := some ⟨f.seq, n, st, mmT f.card, 0, mmDrains f.card n⟩, lastS := st, lastE := st + mmT f.card, ran := true, scanFree := max x.scanFree p,
    run := if n + 1 == cardIters f.card then x.wait else x.run, wait := if n + 1 == cardIters f.card then none else x.wait,
    iter := if n + 1 == cardIters f.card then 0 else n + 1 } x.passNo (x.startBank f.card n)

section

variable (x : Engine) (f : Flight) (n st p : Nat)

theorem Engine.started_fields : (x.started f n st p).cur = some ⟨f.seq, n, st, mmT f.card, 0, mmDrains f.card n⟩
    ∧ (x.started f n st p).lastS = st ∧ (x.started f n st p).lastE = st + mmT f.card ∧ (x.started f n st p).passNo = x.passNo := by
  simp [Engine.started, Engine.putBank_eq]

theorem Engine.bankOf_started : (x.started f n st p).bankOf x.passNo = x.startBank f.card n
    ∧ (x.started f n st p).bankOf (x.passNo + 1) = x.bankOf (x.passNo + 1) :=
  ⟨Engine.bankOf_putBank_same _ _ _, Engine.bankOf_putBank_succ _ _ _⟩

theorem Engine.started_last (h : n + 1 = cardIters f.card) :
    (x.started f n st p).run = x.wait ∧ (x.started f n st p).wait = none ∧ (x.started f n st p).iter = 0 := by
  simp [Engine.started, Engine.putBank_eq, h]

theorem Engine.started_more (h : n + 1 ≠ cardIters f.card) :
    (x.started f n st p).run = x.run ∧ (x.started f n st p).wait = x.wait ∧ (x.started f n st p).iter = n + 1 := by
  simp [Engine.started, Engine.putBank_eq, h]

end

/-- The card whose pass `n` engine `e` starts in cycle `st`: its operand items count as read from the feed's last lines on (R228). -/
def Flight.feeds (f : Flight) (e n st : Nat) : Flight :=
  { f with readAt := stampAt (stampAt f.readAt (itemKey 0 e n) (feedReadAt f.card 0 st)) (itemKey 1 e n) (feedReadAt f.card 1 st) }

theorem Flight.doneBy_feeds (f : Flight) (e n st : Nat) : doneBy (f.feeds e n st).readAt (itemKey 0 e n) (feedReadAt f.card 0 st) = true
    ∧ doneBy (f.feeds e n st).readAt (itemKey 1 e n) (feedReadAt f.card 1 st) = true := by
  refine ⟨?_, doneBy_stampAt_same _ _ _⟩
  exact (doneBy_stampAt_other _ _ _ (itemKey_ne e n (by decide))).trans (doneBy_stampAt_same _ _ _)

/-- The core as its engine `e` starts a pass. -/
def CoreState.passStarted (c : CoreState) (e : Nat) (f : Flight) (n st p : Nat) : CoreState :=
  (c.setEng e ((c.eng e).started f n st p)).setFlight (f.feeds e n st)

section

variable {c : CoreState} {f : Flight} (e n st p : Nat)

theorem CoreState.eng_passStarted : (c.passStarted e f n st p).eng e = (c.eng e).started f n st p := c.eng_setEng_same e _

theorem CoreState.beside_passStarted : c.Beside (c.passStarted e f n st p) e f.seq :=
  (c.beside_setEng e _ _).trans (CoreState.beside_setFlight _ e rfl)

theorem CoreState.flight_passStarted (h : c.flight f.seq = some f) : (c.passStarted e f n st p).flight f.seq = some (f.feeds e n st) :=
  CoreState.flight_setFlight_same (c := c.setEng e ((c.eng e).started f n st p)) (f' := f.feeds e n st) h

end

/-! ## PASS_START -/

/-- The byte addresses of the operand item in a slot that pass `n` of engine `e` of core `g` reads. -/
def operandReads (g e card slot n : Nat) : List Nat := (List.range (descRun (cardDesc card slot))).map (itemAddr card slot n (g, e))

/-- The state with the start of a pass of engine `e` entered and counted. -/
def State.passStarted (y : State) (g e : Nat) (f : Flight) (n st p drain scan : Nat) : State :=
  (y.setCore g ((y.core g).passStarted e f n st p)).passCounted (g / 16) (g % 16) e drain scan

section

variable {s y : State} {g e t n e1 fT b p st cyc : Nat} {f : Flight}

theorem Engine.startAt_of_terms {x : Engine} (h : x.terms f n = some (e1, fT, b, p))
    (hst : st = if x.relAt = 0 then max (max e1 fT) (max b p) else max (max (max e1 fT) (max b p)) (x.relAt + 4 + mmS f.card)) :
    x.startAt f n = some st := by
  unfold Engine.startAt
  rw [h, hst]
  rfl

/-- Nothing but the cores and register words that `k` names differs. -/
def State.CoresOnly (s u : State) (k : Nat → Bool) : Prop := u = { s with cores := u.cores, regs := u.regs } ∧ s.SameRegsBut u k

theorem State.CoresOnly.isSoft {u : State} {k : Nat → Bool} (h : s.CoresOnly u k) (a : Nat) : u.isSoft a = s.isSoft a := by
  rw [h.1]
  rfl

theorem State.CoresOnly.sameBytes {u : State} {k : Nat → Bool} (h : s.CoresOnly u k) : s.SameBytes u := by
  rw [h.1]
  exact State.SameBytes.of_mem rfl rfl

theorem State.cores_passStarted (y : State) (g e : Nat) (f : Flight) (n st p drain scan : Nat) :
    (y.passStarted g e f n st p drain scan).cores = (y.setCore g ((y.core g).passStarted e f n st p)).cores := by
  unfold State.passStarted
  rw [(State.wordsOnly_passCounted _ _ _ _ _ _).1]

theorem State.core_passStarted (y : State) (g e : Nat) (f : Flight) (n st p drain scan : Nat) :
    (y.passStarted g e f n st p drain scan).core g = (y.core g).passStarted e f n st p := by
  rw [State.core_congr (y.cores_passStarted g e f n st p drain scan), State.core_setCore_same]

/-- The start of a pass, before its operands are checked, writes the core and the counts. -/
theorem State.coresOnly_passStarted (y : State) (g e : Nat) (f : Flight) (n st p drain scan : Nat) :
    y.CoresOnly (y.passStarted g e f n st p drain scan) (passRegs (g / 16) (g % 16) e) := by
  have hcount := (y.setCore g ((y.core g).passStarted e f n st p)).wordsOnly_passCounted (g / 16) (g % 16) e drain scan
  refine ⟨?_, hcount.2⟩
  rw [y.cores_passStarted g e f n st p drain scan]
  exact hcount.1

/-- A pass start changes nothing that says what a partition may read. -/
theorem State.passStarted_grants (he : e < 64) (f : Flight) (n st p drain scan : Nat) {m : Nat} (hm : m ≤ 64) :
    (y.passStarted g e f n st p drain scan).ownerN g = y.ownerN g
      ∧ ∀ a, (y.passStarted g e f n st p drain scan).mayAccess m false a = y.mayAccess m false a := by
  have hregs := (y.coresOnly_passStarted g e f n st p drain scan).2
  have hgrants : ∀ a, grantRegs a → passRegs (g / 16) (g % 16) e a = false := fun a => passRegs_of_grants (by omega) he
  exact ⟨State.ownerN_of_grants hregs hgrants g, State.mayAccess_of_grants hregs hgrants hm false⟩

/-- Nor does the check of an operand. -/
theorem State.checkBounds_grants (z : State) (t g : Nat) (l : List Nat) :
    let v := z.checkBounds t (z.ownerN g) false l
    v.ownerN g = z.ownerN g ∧ ∀ a, v.mayAccess (z.ownerN g) false a = z.mayAccess (z.ownerN g) false a := by
  have hregs := z.sameRegs_checkBounds t (z.ownerN g) false l
  exact ⟨State.ownerN_of_grants hregs (fun a => faultRegs_of_grants) g,
    State.mayAccess_of_grants hregs (fun a => faultRegs_of_grants) (z.ownerN_le g) false⟩

/-- Operands that the partition may read: their check leaves the state as it is. -/
theorem State.operands_read (he : e < 64) (drain scan : Nat) (hA : y.MayRead (y.ownerN g) (operandReads g e f.card 0 n))
    (hB : y.MayRead (y.ownerN g) (operandReads g e f.card 1 n)) :
    let z := y.passStarted g e f n st p drain scan
    let v := z.checkBounds t (z.ownerN g) false (operandReads g e f.card 0 n)
    v.checkBounds t (v.ownerN g) false (operandReads g e f.card 1 n) = z := by
  intro z v
  obtain ⟨howner, haccess⟩ := State.passStarted_grants (y := y) (g := g) he f n st p drain scan (y.ownerN_le g)
  have hmay : ∀ l, y.MayRead (y.ownerN g) l → z.MayRead (z.ownerN g) l := fun l hl a ha => by
    rw [(y.coresOnly_passStarted g e f n st p drain scan).isSoft, howner, haccess]
    exact hl a ha
  have hv : v = z := z.checkBounds_of_mayRead t _ (hmay _ hA)
  rw [hv]
  exact z.checkBounds_of_mayRead t _ (hmay _ hB)

/-- An operand byte outside the partition's ranges has the partition record a stop. -/
theorem State.operands_fault (he : e < 64) (drain scan : Nat) {k a : Nat} (hk : k < 2) (ha : a ∈ operandReads g e f.card k n)
    (hno : y.mayAccess (y.ownerN g) false a = false) :
    let z := y.passStarted g e f n st p drain scan
    let v := z.checkBounds t (z.ownerN g) false (operandReads g e f.card 0 n)
    ((v.checkBounds t (v.ownerN g) false (operandReads g e f.card 1 n)).part (y.ownerN g)).stop ≠ none := by
  intro z v
  obtain ⟨howner, haccess⟩ := State.passStarted_grants (y := y) (g := g) he f n st p drain scan (y.ownerN_le g)
  obtain ⟨hvowner, hvaccess⟩ := z.checkBounds_grants t g (operandReads g e f.card 0 n)
  have hz : z.mayAccess (z.ownerN g) false a = false := by rw [howner, haccess]; exact hno
  rw [← howner]
  obtain rfl | rfl : k = 0 ∨ k = 1 := by omega
  · exact v.stop_checkBounds_other _ _ _ _ (z.stop_checkBounds t _ ha hz)
  · have hv : v.mayAccess (z.ownerN g) false a = false := (hvaccess a).trans hz
    rw [← hvowner] at hv ⊢
    exact v.stop_checkBounds t _ ha hv

/-- The operands' check keeps the cores and the bytes of memory. -/
theorem State.operands_frame (z : State) (t g : Nat) (l0 l1 : List Nat) :
    let v := z.checkBounds t (z.ownerN g) false l0
    z.ChecksOnly (v.checkBounds t (v.ownerN g) false l1) := by
  intro v
  exact (z.checksOnly_checkBounds t _ false l0).trans (v.checksOnly_checkBounds t _ false l1)

section

variable (hcyc : cyc = s.engCycle (g / 16) t) (hy : y = (s.meshTo (g / 16) cyc).scanTo g e cyc) (hrun : y.dieRuns (g / 16) t = true)
  (hnext : (y.core g).nextPass e = some (f, n)) (hterms : ((y.core g).eng e).terms f n = some (e1, fT, b, p))
  (hcur : ((y.core g).eng e).cur = none) (hbusy : ((y.core g).eng e).bankBusy f.card n = false)
  (hst : st = if ((y.core g).eng e).relAt = 0 then max (max e1 fT) (max b p)
    else max (max (max e1 fT) (max b p)) (((y.core g).eng e).relAt + 4 + mmS f.card))
  (hle : st ≤ cyc) (hheld : (y.core g).heldKinds f n (some e) [0, 1, 2] (st - 4 - mmS f.card) = [])

include hcyc hy hrun hnext hterms hcur hbusy hst hle hheld

theorem passStart_eq :
    passStart g e t s =
      let z := y.passStarted g e f n st p (b - max e1 fT) (p - max (max e1 fT) b)
      let v := z.checkBounds t (z.ownerN g) false (operandReads g e f.card 0 n)
      v.checkBounds t (v.ownerN g) false (operandReads g e f.card 1 n) := by
  have hpass : (y.core g).passHeld f n e (st - 4 - mmS f.card) = false := by rw [CoreState.passHeld, hheld]; rfl
  have hstart := Engine.startAt_of_terms hterms hst
  clear hst
  subst hcyc hy
  unfold passStart
  simp only [hnext, hterms, hstart, hrun, hcur, hbusy, hpass]
  rw [if_neg (by simp; omega)]
  rfl

/-- A pass starts. -/
theorem passStart_starts (he : e < 64) (hA : y.MayRead (y.ownerN g) (operandReads g e f.card 0 n))
    (hB : y.MayRead (y.ownerN g) (operandReads g e f.card 1 n)) :
    ∃ u, passStart g e t s = u ∧ (u.core g).eng e = ((y.core g).eng e).started f n st p
      ∧ (u.core g).flight f.seq = some (f.feeds e n st)
      ∧ u.r64 (Reg.engPassCount (g / 16) (g % 16) e) = min (y.r64 (Reg.engPassCount (g / 16) (g % 16) e) + 1) (2 ^ 64 - 1)
      ∧ u.r64 (Reg.engDrainStall (g / 16) (g % 16) e)
        = min (y.r64 (Reg.engDrainStall (g / 16) (g % 16) e) + (b - max e1 fT)) (2 ^ 64 - 1)
      ∧ u.r64 (Reg.engPrescanStall (g / 16) (g % 16) e)
        = min (y.r64 (Reg.engPrescanStall (g / 16) (g % 16) e) + (p - max (max e1 fT) b)) (2 ^ 64 - 1)
      ∧ y.OnlyEngine u g e f.seq ∧ y.CoresOnly u (passRegs (g / 16) (g % 16) e) := by
  have heq := (passStart_eq hcyc hy hrun hnext hterms hcur hbusy hst hle hheld).trans (State.operands_read he _ _ hA hB)
  obtain ⟨hcount, hdrain, hscan⟩ := (y.setCore g ((y.core g).passStarted e f n st p)).r64_passCounted (g / 16) (g % 16) e
    (b - max e1 fT) (p - max (max e1 fT) b)
  have hcores := y.cores_passStarted g e f n st p (b - max e1 fT) (p - max (max e1 fT) b)
  refine ⟨_, heq, ?_, ?_, hcount, hdrain, hscan, State.onlyEngine_of_core hcores (CoreState.beside_passStarted e n st p),
    y.coresOnly_passStarted g e f n st p _ _⟩
  · rw [State.core_passStarted, CoreState.eng_passStarted]
  · rw [State.core_passStarted]
    exact CoreState.flight_passStarted e n st p (CoreState.flight_of_nextPass hnext)

/-- A pass starts whose operands lie outside the partition's ranges. -/
theorem passStart_faults (he : e < 64) {k a : Nat} (hk : k < 2) (ha : a ∈ operandReads g e f.card k n)
    (hno : y.mayAccess (y.ownerN g) false a = false) :
    ∃ u, passStart g e t s = u ∧ (u.part (y.ownerN g)).stop ≠ none ∧ y.SameBytes u
      ∧ (u.core g).eng e = ((y.core g).eng e).started f n st p := by
  have heq := passStart_eq hcyc hy hrun hnext hterms hcur hbusy hst hle hheld
  have hframe := State.operands_frame (y.passStarted g e f n st p (b - max e1 fT) (p - max (max e1 fT) b)) t g
    (operandReads g e f.card 0 n) (operandReads g e f.card 1 n)
  refine ⟨_, heq, State.operands_fault he _ _ hk ha hno, (y.coresOnly_passStarted g e f n st p _ _).sameBytes.trans hframe.sameBytes, ?_⟩
  rw [hframe.core g, State.core_passStarted, CoreState.eng_passStarted]

end

end

/-- Settles O33: the scan by an invariant of its cycles, the start of a pass by its engine's fields; what may be read depends on registers
that neither writes. -/
theorem passesScanAndStart : Obligations.PassesScanAndStart := by
  unfold Obligations.PassesScanAndStart
  refine ⟨?_, fun s g e cyc f p hlen hat x hx => ?_, ?_⟩
  · rintro s y d c e g t n r q f up rfl hy hrun hnext hscans hnone hr hq hle
    have heq := prescan_eq (s := s.upset up) (e := e) (t := t) (by rw [die_of_core]; rfl) (by rw [die_of_core]; exact hy) (by rw [die_of_core]; exact hrun)
      hnext hscans hnone hr hq hle
    refine ⟨fun hread => ?_, fun k l a hk hl ha hno => ?_⟩
    · have hmay : y.MayRead (y.ownerN (16 * d.val + c.val)) (scanReads (16 * d.val + c.val) e f.card n) := fun a ha => by
        obtain ⟨k, l, hk, ⟨b, hb, hs⟩, hal⟩ := mem_scanReads.1 ha
        exact hread k hk b hb l hs a hal
      obtain ⟨u, p, hu, heng, ⟨hlen, hbegan, hended, hupto, hwhole⟩, hseq, hiter, honly, hflights, hshape⟩ :=
        State.prescan_reads (t := t) hnext hle hmay
      exact ⟨u, p, congrArg _ (heq.trans hu), heng, hseq, hiter, hlen, by omega, hupto, hbegan, hended, hwhole, honly, hflights, hshape⟩
    · obtain ⟨u, hu, hstop, hbytes⟩ := State.prescan_faults (t := t) (q := q) (cyc := s.engCycle d t) (mem_scanReads.2 ⟨k, l, hk, hl, ha⟩) hno
      exact ⟨u, congrArg _ (heq.trans hu), hstop, hbytes⟩
  · subst hx
    refine ⟨State.scanCycle_reads hlen hat, ?_⟩
    rintro ⟨k, a, l, hk, hl, hbank⟩
    exact State.scanCycle_loses hlen hat hk hl hbank
  · rintro s y d c e g t n e1 fT b p st f up rfl hy hrun hnext hterms hcur hbusy hst hle hheld
    have hcyc : s.engCycle d t = (s.upset up).engCycle ((16 * d.val + c.val) / 16) t := by rw [die_of_core]; rfl
    have hy' : y = ((s.upset up).meshTo ((16 * d.val + c.val) / 16) (s.engCycle d t)).scanTo (16 * d.val + c.val) e (s.engCycle d t) := by
      rw [die_of_core]; exact hy
    have hrun' : y.dieRuns ((16 * d.val + c.val) / 16) t = true := by rw [die_of_core]; exact hrun
    refine ⟨fun hA hB => ?_, fun k i hk hi hno => ?_⟩
    · obtain ⟨u, hu, heng, hflight, hcount, hdrain, hscan, honly, hshape, hregs⟩ :=
        passStart_starts hcyc hy' hrun' hnext hterms hcur hbusy hst hle hheld e.isLt hA hB
      obtain ⟨hcur', hlastS, hlastE, hno⟩ := ((y.core (16 * d.val + c.val)).eng e).started_fields f n st p
      obtain ⟨hbank, hother⟩ := ((y.core (16 * d.val + c.val)).eng e).bankOf_started f n st p
      rw [die_of_core, local_of_core] at hcount hdrain hscan hregs
      rw [← hno] at hbank hother
      exact ⟨u, _, congrArg _ hu, heng, hcur', hlastS, hlastE, hbank, hno, hother, Engine.started_last _ f n st p, Engine.started_more _ f n st p,
        ⟨_, hflight, f.doneBy_feeds e n st⟩, hcount, hdrain, hscan, honly, hshape, hregs⟩
    · obtain ⟨u, hu, hstop, hbytes, heng⟩ := passStart_faults hcyc hy' hrun' hnext hterms hcur hbusy hst hle hheld e.isLt hk
        (List.mem_map.2 ⟨i, List.mem_range.2 hi, rfl⟩) hno
      exact ⟨u, congrArg _ hu, hstop, hbytes, by rw [heng]; exact (Engine.started_fields _ f n st p).1⟩

end Sys2Proof.Machine
end

/-! Drains (04_matrix_engine.md R89, R108, R110, R158). -/

section

namespace Sys2Proof.Machine

/-! ## The lines that a drain books at the write lane -/

/-- What books lines in the landing queues leaves engines, cards, vector engine and queue of the core. -/
def CoreState.PortOnly (c v : CoreState) : Prop :=
  v.engines = c.engines ∧ v.flights = c.flights ∧ v.vec = c.vec ∧ v.queue = c.queue

theorem CoreState.PortOnly.trans {c v w : CoreState} (h : c.PortOnly v) (k : v.PortOnly w) : c.PortOnly w :=
  ⟨k.1.trans h.1, k.2.1.trans h.2.1, k.2.2.1.trans h.2.2.1, k.2.2.2.trans h.2.2.2⟩

theorem CoreState.PortOnly.eng {c v : CoreState} (h : c.PortOnly v) (e : Nat) : v.eng e = c.eng e := by
  unfold CoreState.eng
  rw [h.1]

theorem CoreState.PortOnly.beside {c v : CoreState} (h : c.PortOnly v) (e seq : Nat) : c.Beside v e seq := by
  have heng := h.eng
  obtain ⟨-, hflights, hvec, hqueue⟩ := h
  refine ⟨fun x _ => heng x, fun q _ => ?_, hvec, hqueue⟩
  unfold CoreState.flight
  rw [hflights]

theorem CoreState.portOnly_settle (c : CoreState) (cyc : Nat) : c.PortOnly (c.settle cyc) := ⟨rfl, rfl, rfl, rfl⟩

/-- The core with engine lines booked, each in a cycle and a bank. -/
def CoreState.enterLines (c : CoreState) (f : Nat → Nat × Nat) (l : List Nat) : CoreState :=
  l.foldl (fun c i => c.enterLine (f i).1 (f i).2 true) c

section

variable (c : CoreState) (f : Nat → Nat × Nat) (l : List Nat)

theorem CoreState.portOnly_enterLines : c.PortOnly (c.enterLines f l) :=
  List.foldlRecOn l _ (motive := c.PortOnly) ⟨rfl, rfl, rfl, rfl⟩ fun _ h _ _ => h.trans ⟨rfl, rfl, rfl, rfl⟩

theorem CoreState.landed_enterLines : (c.enterLines f l).landed = c.landed ++ l.map (fun i => ((f i).1, (f i).2, true)) := by
  unfold CoreState.enterLines
  induction l generalizing c with
  | nil => exact (List.append_nil _).symm
  | cons i l ih =>
    rw [List.foldl_cons, ih]
    exact List.append_assoc _ _ _

end

/-! ## DRAIN_START -/

/-- The tile that the drain `w` of bank `b` brings in cycle `st`, converted as card `f` says (R89, R97). -/
def Bank.tile (b : Bank) (f : Flight) (e : Nat) (w : DrainWait) (st : Nat) : TileDrain :=
  let o := b.drain (mmOut f.card) (sext (bodyF f.card 171 8) 8) (bodyF f.card 180 1 == 1) (fun r k =>
    if bodyF f.card 179 1 = 1 then some (srValue (bodyF f.card 64 32) f.pos e w.iter r k) else none)
  ⟨w.seq, w.iter, st, drainLen (mmOut f.card), o.bytes, o.sats, o.nan, b.checkSkip, if b.checkSkip then 0 else b.checkFails, b.trunc, b.poisoned,
    b.ownError⟩

/-- Engine `x` after the drain `w` of card `f` has started in cycle `st`, with `rest` still to drain. -/
def Engine.draining (x : Engine) (f : Flight) (e : Nat) (w : DrainWait) (rest : List DrainWait) (st : Nat) : Engine :=
  { x.putBank w.bank {} with
    toDrain := rest, drains := x.drains ++ [(x.bankOf w.bank).tile f e w st], convFree := st + drainLen (mmOut f.card)
    free0 := if w.bank % 2 = 0 then st + drainLen (mmOut f.card) else x.free0
    free1 := if w.bank % 2 = 1 then st + drainLen (mmOut f.card) else x.free1 }

/-- Cycle and bank in which line `i` of the tile enters the write port. -/
def laneLine (g e : Nat) (f : Flight) (w : DrainWait) (st i : Nat) : Nat × Nat :=
  (st + 32 + drainLen (mmOut f.card) - tileLines (mmOut f.card) + i, bankOf (itemAddr f.card 2 w.iter (g, e) (32 * i)))

/-- The core as its engine `e` starts to drain. -/
def CoreState.draining (c : CoreState) (g e : Nat) (f : Flight) (w : DrainWait) (rest : List DrainWait) (st settled : Nat) : CoreState :=
  ((c.settle settled).setEng e ((c.eng e).draining f e w rest st)).enterLines (laneLine g e f w st) (List.range (tileLines (mmOut f.card)))

section

variable (c : CoreState) (g e : Nat) (f : Flight) (w : DrainWait) (rest : List DrainWait) (st settled : Nat)

theorem CoreState.eng_draining : (c.draining g e f w rest st settled).eng e = (c.eng e).draining f e w rest st := by
  unfold CoreState.draining
  rw [(CoreState.portOnly_enterLines _ _ _).eng, CoreState.eng_setEng_same]

theorem CoreState.beside_draining : c.Beside (c.draining g e f w rest st settled) e w.seq :=
  (((c.portOnly_settle settled).beside e _).trans (CoreState.beside_setEng _ e _ _)).trans ((CoreState.portOnly_enterLines _ _ _).beside e _)

theorem CoreState.flights_draining : (c.draining g e f w rest st settled).flights = c.flights :=
  (CoreState.portOnly_enterLines ((c.settle settled).setEng e _) _ _).2.1

theorem CoreState.landed_draining {i : Nat} (hi : i < tileLines (mmOut f.card)) :
    ((laneLine g e f w st i).1, (laneLine g e f w st i).2, true) ∈ (c.draining g e f w rest st settled).landed := by
  unfold CoreState.draining
  rw [CoreState.landed_enterLines]
  exact List.mem_append_right _ (List.mem_map.2 ⟨i, List.mem_range.2 hi, rfl⟩)

end

theorem drainStart_eq {s : State} {g e t st : Nat} {w : DrainWait} {rest : List DrainWait} {f : Flight} (hrun : s.dieRuns (g / 16) t = true)
    (hw : ((s.core g).eng e).toDrain = w :: rest) (hf : (s.core g).flight w.seq = some f) (hst : st = max w.fin ((s.core g).eng e).convFree)
    (hle : st ≤ s.engCycle (g / 16) t) :
    drainStart g e t s = s.setCore g ((s.core g).draining g e f w rest st ((s.mesh (g / 16)).settled (s.engCycle (g / 16) t))) := by
  subst hst
  unfold drainStart
  simp only [hw, hf, hrun]
  rw [if_neg (by simp; omega)]
  rfl

end Sys2Proof.Machine
end

/-! Bytes written at stamps, and the lines of a tile (04_matrix_engine.md R108, R160, R171). -/

section

namespace Sys2Proof.Machine

/-! ## One byte -/

theorem State.MemoryOnly.refl (s : State) : s.MemoryOnly s := rfl

theorem State.MemoryOnly.mayAccess {s u : State} (h : s.MemoryOnly u) (n : Nat) (w : Bool) (a : Nat) : u.mayAccess n w a = s.mayAccess n w a := by
  unfold State.MemoryOnly at h
  rw [h]
  rfl

theorem State.memoryOnly_putTimed (s : State) (cyc rank a : Nat) (b : Byte) : s.MemoryOnly (s.putTimed cyc rank a b) := by
  unfold State.putTimed
  extract_lets later
  split
  · rfl
  · rfl

theorem State.memoryOnly_writeByteTimed (s : State) (n cyc rank a : Nat) (b : Byte) : s.MemoryOnly (s.writeByteTimed n cyc rank a b) := by
  unfold State.writeByteTimed
  split_ifs
  · rfl
  · exact (s.memoryOnly_putTimed cyc rank a b).trans rfl
  · exact (s.memoryOnly_putTimed cyc rank a b).trans rfl

theorem State.rdByte_putTimed_other (s : State) (cyc rank a : Nat) (b : Byte) {x : Nat} (h : x ≠ a) :
    (s.putTimed cyc rank a b).rdByte x = s.rdByte x := by
  unfold State.putTimed
  extract_lets later
  split
  · exact s.rdByte_wrByte_other a b x h
  · rfl

theorem State.rdByte_writeByteTimed_other (s : State) (n cyc rank a : Nat) (b : Byte) {x : Nat} (h : x ≠ a) :
    (s.writeByteTimed n cyc rank a b).rdByte x = s.rdByte x := by
  unfold State.writeByteTimed
  split_ifs
  · rfl
  · rw [State.rdByte_setPoison, s.rdByte_putTimed_other _ _ _ _ h]
  · rw [State.rdByte_rewritten, s.rdByte_putTimed_other _ _ _ _ h]

/-- A byte written at a stamp and rank stands: no write of a later cycle, or of higher rank in its own, has come before it. -/
def State.Latest (s : State) (cyc rank a : Nat) : Prop := ∀ p, p ∈ s.past → p.addr = a → p.cyc < cyc ∨ p.cyc = cyc ∧ p.rank ≤ rank

theorem State.putTimed_of_latest {s : State} {cyc rank a : Nat} (b : Byte) (h : s.Latest cyc rank a) :
    s.putTimed cyc rank a b = { s.wrByte a b with past := ⟨a, cyc, rank, s.rdByte a⟩ :: s.past } := by
  have hnone : s.past.filter (fun p => p.addr == a && (decide (cyc < p.cyc) || (cyc == p.cyc && decide (rank < p.rank)))) = [] := by
    rw [List.filter_eq_nil_iff]
    intro p hp
    by_cases hx : p.addr = a
    · have := h p hp hx
      simp only [hx, beq_self_eq_true, Bool.true_and, Bool.or_eq_true, Bool.and_eq_true, decide_eq_true_eq, beq_iff_eq]
      omega
    · simp [hx]
  simp only [State.putTimed, hnone, List.getLast?_nil]

/-- Where the partition may write, a byte that stands is stored and noted as past. -/
theorem State.writeByteTimed_of_latest {s : State} {n cyc rank a : Nat} (b : Byte) (hmay : s.mayAccess n true a = true)
    (h : s.Latest cyc rank a) : (s.writeByteTimed n cyc rank a b).rdByte a = b
      ∧ (s.writeByteTimed n cyc rank a b).past = ⟨a, cyc, rank, s.rdByte a⟩ :: s.past := by
  have hnot : ¬(!s.mayAccess n true a) = true := by simp [hmay]
  unfold State.writeByteTimed
  rw [if_neg hnot, State.putTimed_of_latest b h]
  split_ifs
  · exact ⟨s.rdByte_wrByte_same a b, rfl⟩
  · exact ⟨s.rdByte_wrByte_same a b, rfl⟩

/-! ## Bytes one after the other -/

/-- A byte to be written: its stamp, its address and its value. -/
abbrev StampedByte : Type := Nat × Nat × Byte

/-- The state with bytes written one after the other, each at its stamp. -/
def State.writeStamped (s : State) (n rank : Nat) (ws : List StampedByte) : State :=
  ws.foldl (fun s w => s.writeByteTimed n w.1 rank w.2.1 w.2.2) s

section

variable (s : State) (n rank : Nat)

theorem State.memoryOnly_writeStamped (ws : List StampedByte) : s.MemoryOnly (s.writeStamped n rank ws) :=
  List.foldlRecOn ws _ (motive := s.MemoryOnly) (.refl s) fun u h _ _ => h.trans (u.memoryOnly_writeByteTimed _ _ _ _ _)

theorem State.rdByte_writeStamped_other {ws : List StampedByte} {x : Nat} (h : ∀ w, w ∈ ws → x ≠ w.2.1) :
    (s.writeStamped n rank ws).rdByte x = s.rdByte x :=
  List.foldlRecOn ws _ (motive := fun u : State => u.rdByte x = s.rdByte x) rfl fun u hu w hw =>
    (u.rdByte_writeByteTimed_other _ _ _ _ _ (h w hw)).trans hu

/-- Of bytes written at rising stamps, with nothing later before them, the last one at each address stands. -/
theorem State.rdByte_writeStamped_last {ws : List StampedByte} (hord : ws.Pairwise (fun v w => v.1 ≤ w.1))
    (hmay : ∀ w, w ∈ ws → s.mayAccess n true w.2.1 = true) (hlatest : ∀ w, w ∈ ws → s.Latest w.1 rank w.2.1) {i : Nat} {w : StampedByte}
    (hi : ws[i]? = some w) (hlast : ∀ j v, i < j → ws[j]? = some v → v.2.1 ≠ w.2.1) : (s.writeStamped n rank ws).rdByte w.2.1 = w.2.2 := by
  induction ws generalizing s i with
  | nil => exact absurd hi nofun
  | cons v ws ih =>
    obtain ⟨hfirst, hord⟩ := List.pairwise_cons.1 hord
    obtain ⟨hbyte, hpast⟩ := State.writeByteTimed_of_latest v.2.2 (hmay v (List.mem_cons_self ..)) (hlatest v (List.mem_cons_self ..))
    show ((s.writeByteTimed n v.1 rank v.2.1 v.2.2).writeStamped n rank ws).rdByte w.2.1 = w.2.2
    cases i with
    | zero =>
      obtain rfl : v = w := Option.some.inj hi
      rw [State.rdByte_writeStamped_other, hbyte]
      intro x hx
      obtain ⟨j, hj⟩ := List.mem_iff_getElem?.1 hx
      exact (hlast (j + 1) x (Nat.succ_pos j) hj).symm
    | succ i =>
      refine ih _ hord (fun x hx => ?_) (fun x hx p hp hpx => ?_) hi fun j x hij hj => hlast (j + 1) x (Nat.succ_lt_succ hij) hj
      · rw [(s.memoryOnly_writeByteTimed _ _ _ _ _).mayAccess]
        exact hmay x (List.mem_cons_of_mem _ hx)
      · rw [hpast] at hp
        obtain rfl | hp := List.mem_cons.1 hp
        · have := hfirst x hx
          dsimp only
          omega
        · exact hlatest x (List.mem_cons_of_mem _ hx) p hp hpx

end

/-! ## The lines of a tile -/

/-- The bytes of a tile in the order of its lines: line `i` of them is written from cycle `first + i` on. -/
def tileWrites (g e card : Nat) (td : TileDrain) (first : Nat) : List StampedByte :=
  (List.range td.bytes.length).map (fun m => (first + m / 32 + 1, itemAddr card 2 td.iter (g, e) m, td.bytes.getD m 0))

/-- A range in pieces of 32. -/
theorem range_lines (len k : Nat) :
    (List.range k).flatMap (fun i => (List.range (min 32 (len - 32 * i))).map (32 * i + ·)) = List.range (min len (32 * k)) := by
  induction k with
  | zero => simp
  | succ k ih =>
    rw [List.range_succ, List.flatMap_append, ih, List.flatMap_singleton]
    by_cases h : 32 * k ≤ len
    · rw [Nat.min_eq_right h, ← List.range_add]
      congr 1
      omega
    · have hnone : len - 32 * k = 0 := by omega
      rw [hnone, Nat.min_eq_left (show len ≤ 32 * k by omega), Nat.min_eq_left (show len ≤ 32 * (k + 1) by omega)]
      simp

/-- One line of a tile, byte by byte. -/
theorem zipWith_line {α : Type} (f : Nat → Byte → α) (bs : List Byte) (i : Nat) :
    (List.range ((bs.drop (32 * i)).take 32).length).zipWith (fun j b => f (32 * i + j) b) ((bs.drop (32 * i)).take 32)
      = (List.range (min 32 (bs.length - 32 * i))).map (fun j => f (32 * i + j) (bs.getD (32 * i + j) 0)) := by
  have hlen : ((bs.drop (32 * i)).take 32).length = min 32 (bs.length - 32 * i) := by rw [List.length_take, List.length_drop]
  refine List.ext_getElem (by simp) fun j h1 h2 => ?_
  have hj : j < min 32 (bs.length - 32 * i) := by simpa using h2
  have hb : 32 * i + j < bs.length := by omega
  simp [List.getD_eq_getElem?_getD, List.getElem?_eq_getElem hb]

theorem State.writeTimed_eq (s : State) (n cyc rank : Nat) (w : List (Nat × Byte)) :
    s.writeTimed n cyc rank w = s.writeStamped n rank (w.map (fun x => (cyc, x.1, x.2))) := by
  unfold State.writeTimed State.writeStamped
  rw [List.foldl_map]

theorem State.MemoryOnly.ownerN {s u : State} (h : s.MemoryOnly u) (g : Nat) : u.ownerN g = s.ownerN g := by
  unfold State.MemoryOnly at h
  rw [h]
  rfl

/-- Lists of bytes written one after the other for a core's partition. -/
theorem State.foldl_writeStamped {α : Type} (s : State) (g rank : Nat) (l : List α) (f : α → List StampedByte) :
    l.foldl (fun s x => s.writeStamped (s.ownerN g) rank (f x)) s = s.writeStamped (s.ownerN g) rank (l.flatMap f) := by
  induction l generalizing s with
  | nil => rfl
  | cons x l ih =>
    rw [List.foldl_cons, ih, (s.memoryOnly_writeStamped _ _ _).ownerN, List.flatMap_cons]
    exact List.foldl_append.symm

/-- Line `i` of a tile. -/
theorem tileWrites_line (g e card : Nat) (td : TileDrain) (first i : Nat) :
    ((List.range ((td.bytes.drop (32 * i)).take 32).length).zipWith (fun j b => (itemAddr card 2 td.iter (g, e) (32 * i + j), b))
        ((td.bytes.drop (32 * i)).take 32)).map (fun x => (first + i + 1, x.1, x.2))
      = ((List.range (min 32 (td.bytes.length - 32 * i))).map (32 * i + ·)).map
        (fun m => (first + m / 32 + 1, itemAddr card 2 td.iter (g, e) m, td.bytes.getD m 0)) := by
  rw [zipWith_line (fun m b => (itemAddr card 2 td.iter (g, e) m, b)), List.map_map, List.map_map]
  refine List.map_congr_left fun j hj => ?_
  have hline : (32 * i + j) / 32 = i := by
    have := List.mem_range.1 hj
    omega
  simp [hline]

theorem State.memoryOnly_writeTile (s : State) (g e : Nat) (td : TileDrain) (card cyc : Nat) : s.MemoryOnly (s.writeTile g e td card cyc) := by
  unfold State.writeTile
  extract_lets first
  refine List.foldlRecOn _ _ (motive := s.MemoryOnly) (.refl s) fun u h i _ => h.trans ?_
  dsimp only
  rw [State.writeTimed_eq]
  exact u.memoryOnly_writeStamped _ _ _

/-- A whole tile is written byte by byte in the order of its lines. -/
theorem State.writeTile_eq (s : State) (g e : Nat) (td : TileDrain) (card : Nat) (hlen : ceilDiv td.bytes.length 32 ≤ td.len) :
    s.writeTile g e td card (td.start + 32 + td.len)
      = s.writeStamped (s.ownerN g) e (tileWrites g e card td (td.start + 32 + td.len - ceilDiv td.bytes.length 32)) := by
  have hlines : td.bytes.length ≤ 32 * ceilDiv td.bytes.length 32 := by unfold ceilDiv; omega
  unfold State.writeTile
  extract_lets first
  have hall : (List.range (ceilDiv td.bytes.length 32)).filter (fun i => decide (first + i < td.start + 32 + td.len))
      = List.range (ceilDiv td.bytes.length 32) := List.filter_eq_self.2 fun i hi => by
    have := List.mem_range.1 hi
    simp only [decide_eq_true_eq, first]
    omega
  have hline := tileWrites_line g e card td first
  simp only [hall, State.writeTimed_eq, hline, State.foldl_writeStamped]
  rw [← List.map_flatMap, range_lines, Nat.min_eq_left hlines]
  rfl

end Sys2Proof.Machine
end

/-! A tile that is complete (03_number_formats_and_accumulation.md R97, R99, R100; 04_matrix_engine.md R108, R117). -/

section

namespace Sys2Proof.Machine

/-! ## What a tile reports -/

/-- The bits of ENG_ACC_STATUS that a tile sets (Table 3-14). -/
def TileDrain.bits (td : TileDrain) : Nat :=
  (if td.skip then 2 ^ 11 else 0) + (if 0 < td.fails then 2 ^ 10 else 0) + (if 0 < td.sats then 2 ^ 9 else 0) + (if td.nan then 2 ^ 8 else 0)

theorem TileDrain.bits_lt (td : TileDrain) : td.bits < 2 ^ 32 := by
  unfold TileDrain.bits
  split_ifs <;> decide

theorem TileDrain.bits_of_fails {td : TileDrain} (h : td.fails = 0) :
    td.bits = (if td.skip then 2 ^ 11 else 0) + (if 0 < td.sats then 2 ^ 9 else 0) + (if td.nan then 2 ^ 8 else 0) := by
  simp [TileDrain.bits, h]

/-- The bit of a failed comparison. -/
theorem TileDrain.bitAt_bits {td : TileDrain} (h : 0 < td.fails) : bitAt td.bits 10 = true := by
  unfold TileDrain.bits
  rw [if_pos h]
  split_ifs <;> decide

/-- The registers of an engine in which a tile is reported. -/
def tileRegs (d c e a : Nat) : Bool := a == Reg.engAccStatus d c e || pairOf (Reg.engAccCount1 d c e) a

/-- The state with a tile's status bits set, and its failed comparison and its saturations counted. -/
def State.tileReported (s : State) (d c e : Nat) (td : TileDrain) : State :=
  ((s.orBits (Reg.engAccStatus d c e) td.bits).count64 (Reg.engAccCount1 d c e) 0 8 (if 0 < td.fails then 1 else 0)).count64
    (Reg.engAccCount1 d c e) 32 32 td.sats

section

variable (s : State) (d c e : Nat) (td : TileDrain)

theorem State.f64_count64_field (a lo w k lo' w' : Nat) (h : lo + w ≤ 64) (hd : lo + w ≤ lo' ∨ lo' + w' ≤ lo) :
    (s.count64 a lo w k).f64 a lo' w' = s.f64 a lo' w' := s.f64_sf64_field a lo w _ lo' w' h hd

theorem State.wordsOnly_tileReported : s.WordsOnly (s.tileReported d c e td) (tileRegs d c e) :=
  (((s.wordsOnly_orBits _ _).mono fun a ha => by simp only [tileRegs, ha, Bool.true_or]).trans
    ((State.wordsOnly_count64 _ _ _ _ _).mono fun a ha => by simp only [tileRegs, ha, Bool.or_true])).trans
      ((State.wordsOnly_count64 _ _ _ _ _).mono fun a ha => by simp only [tileRegs, ha, Bool.or_true])

theorem State.r32_tileReported : (s.tileReported d c e td).r32 (Reg.engAccStatus d c e) = Nat.lor (s.r32 (Reg.engAccStatus d c e)) td.bits := by
  unfold State.tileReported
  rw [Reg.engAccCount1_eq, (State.wordsOnly_count64 _ _ _ _ _).2 _ (pairOf_false (by omega) (by omega)),
    (State.wordsOnly_count64 _ _ _ _ _).2 _ (pairOf_false (by omega) (by omega)), State.r32_orBits_same _ td.bits_lt]

theorem State.f64_orBits_count1 (bits lo w : Nat) :
    (s.orBits (Reg.engAccStatus d c e) bits).f64 (Reg.engAccCount1 d c e) lo w = s.f64 (Reg.engAccCount1 d c e) lo w :=
  State.f64_of_sameRegs (s.wordsOnly_orBits _ _).2 (by rw [Reg.engAccCount1_eq]; simp) (by rw [Reg.engAccCount1_eq]; simp; omega) lo w

theorem State.fails_tileReported : (s.tileReported d c e td).f64 (Reg.engAccCount1 d c e) 0 8
    = min (s.f64 (Reg.engAccCount1 d c e) 0 8 + (if 0 < td.fails then 1 else 0)) (2 ^ 8 - 1) := by
  unfold State.tileReported
  rw [State.f64_count64_field _ _ _ _ _ _ _ (by decide) (by decide), State.f64_count64_same _ _ _ _ _ (by decide), State.f64_orBits_count1]

theorem State.sats_tileReported : (s.tileReported d c e td).f64 (Reg.engAccCount1 d c e) 32 32
    = min (s.f64 (Reg.engAccCount1 d c e) 32 32 + td.sats) (2 ^ 32 - 1) := by
  unfold State.tileReported
  rw [State.f64_count64_same _ _ _ _ _ (by decide), State.f64_count64_field _ _ _ _ _ _ _ (by decide) (by decide), State.f64_orBits_count1]

end

/-! ## The core and the card of a tile -/

/-- A card whose tile `td` of engine `e` is complete. -/
def Flight.tiled (f : Flight) (e : Nat) (td : TileDrain) : Flight :=
  let tiles := Tab.get (fun _ => 0) f.awaited td.iter + 1
  { f.record td.iter 2 (engRank f.card e) td.bytes with
    done := f.done + 1, relAt := stampAt f.relAt (itemKey 2 e td.iter) (td.start + 32 + td.len)
    awaited := Tab.put (fun _ => 0) f.awaited td.iter (if tiles == mmEngines f.card then 0 else tiles) }

/-- The core of an engine whose tile is complete, with `rest` still in its converter. -/
def CoreState.tiled (c : CoreState) (e : Nat) (f : Flight) (td : TileDrain) (rest : List TileDrain) : CoreState :=
  (c.setEng e { c.eng e with drains := rest }).setFlight (f.tiled e td)

section

variable {c : CoreState} {e : Nat} {f : Flight} {td : TileDrain} {rest : List TileDrain} (h : c.flight td.seq = some f)

theorem CoreState.eng_tiled : (c.tiled e f td rest).eng e = { c.eng e with drains := rest } := c.eng_setEng_same e _

include h

theorem CoreState.flight_tiled : (c.tiled e f td rest).flight td.seq = some (f.tiled e td) := by
  have hseq : (f.tiled e td).seq = td.seq := CoreState.seq_of_flight (f := f) h
  rw [← hseq]
  exact CoreState.flight_setFlight_same (c := c.setEng e { c.eng e with drains := rest }) (f' := f.tiled e td)
    (f := f) (by rw [hseq]; exact h)

theorem CoreState.beside_tiled : c.Beside (c.tiled e f td rest) e td.seq :=
  (c.beside_setEng e _ _).trans (CoreState.beside_setFlight _ e (show (f.tiled e td).seq = td.seq from CoreState.seq_of_flight (f := f) h))

end

/-! ## Signals of the iteration -/

/-- A card without signals of a WHEN gives none, and needs no room for them. -/
theorem State.signalsFit_of_quiet (s : State) (g : Nat) {card when' : Nat} (h : quietCard card when') : s.signalsFit g card when' = true := by
  have hends : s.signalEnds g card when' = [] := by
    unfold State.signalEnds
    rw [List.filterMap_eq_nil_iff]
    intro i hi
    cases hv : bitAt (cardSignal card i) 63 with
    | false => simp [hv]
    | true => simp [hv, h i (List.mem_range.1 hi) hv]
  unfold State.signalsFit State.signalLack
  rw [hends]
  rfl

theorem State.giveSignals_of_quiet (s : State) (g t : Nat) {card when' : Nat} (h : quietCard card when') : s.giveSignals g card when' t = s := by
  unfold State.giveSignals
  refine foldl_eq_self fun i hi => if_neg ?_
  cases hv : bitAt (cardSignal card i) 63 with
  | false => simp
  | true => simp [h i (List.mem_range.1 hi) hv]

/-! ## TILE_COMPLETE -/

/-- The addresses of a tile's bytes. -/
def tileAddrs (g e card : Nat) (td : TileDrain) : List Nat := (List.range td.bytes.length).map (itemAddr card 2 td.iter (g, e))

/-- The state in which a tile has been written. -/
def State.tileWritten (s : State) (g e t : Nat) (f : Flight) (td : TileDrain) : State :=
  (s.checkBounds t (s.ownerN g) true (tileAddrs g e f.card td)).writeTile g e td f.card (td.start + 32 + td.len)

/-- The state in which a tile has been written and reported and its item released, the card's signals not yet given. -/
def State.tileDone (s : State) (g e t : Nat) (f : Flight) (td : TileDrain) (rest : List TileDrain) : State :=
  ((s.tileWritten g e t f td).tileReported (g / 16) (g % 16) e td).setCore g ((s.core g).tiled e f td rest)

/-- The same with the signals of an iteration that is whole given. -/
def State.tileSignalled (s : State) (g e t : Nat) (f : Flight) (td : TileDrain) (rest : List TileDrain) : State :=
  if Tab.get (fun _ => 0) f.awaited td.iter + 1 == mmEngines f.card then (s.tileDone g e t f td rest).giveSignals g f.card 2 t
  else s.tileDone g e t f td rest

section

variable {s : State} {g e t : Nat} {td : TileDrain} {rest : List TileDrain} {f : Flight}

theorem State.core_tileWritten : (s.tileWritten g e t f td).core g = s.core g := by
  have hcores : (s.tileWritten g e t f td).cores = (s.checkBounds t (s.ownerN g) true (tileAddrs g e f.card td)).cores := by
    unfold State.tileWritten
    rw [State.memoryOnly_writeTile]
  rw [State.core_congr hcores]
  exact (s.checksOnly_checkBounds t _ true _).core g

theorem State.core_tileReported : ((s.tileWritten g e t f td).tileReported (g / 16) (g % 16) e td).core g = s.core g := by
  have hcores : ((s.tileWritten g e t f td).tileReported (g / 16) (g % 16) e td).cores = (s.tileWritten g e t f td).cores := by
    rw [(State.wordsOnly_tileReported _ _ _ _ td).1]
  rw [State.core_congr hcores, State.core_tileWritten]

theorem tileComplete_eq (hrun : s.dieRuns (g / 16) t = true) (hdrains : ((s.core g).eng e).drains = td :: rest)
    (hf : (s.core g).flight td.seq = some f) (hle : td.start + 32 + td.len ≤ s.engCycle (g / 16) t) (hfit : s.signalsFit g f.card 2 = true) :
    tileComplete g e t s =
      if 0 < td.fails || td.ownError then ((s.tileSignalled g e t f td rest).flushTiles g (td.start + 32 + td.len)).fenceCore g
      else if td.poisoned then (s.tileSignalled g e t f td rest).abortStep (s.ownerN g) else s.tileSignalled g e t f td rest := by
  have hcore := State.core_tileReported (s := s) (g := g) (e := e) (t := t) (f := f) (td := td)
  unfold tileComplete
  extract_lets d cl c x
  split
  next hnil => exact absurd (hnil.symm.trans hdrains) nofun
  next td' rest' hcons =>
  obtain ⟨rfl, rfl⟩ := List.cons.inj (hcons.symm.trans hdrains)
  split
  next hnone => exact absurd (hnone.symm.trans hf) nofun
  next f' hf' =>
  obtain rfl : f' = f := Option.some.inj (hf'.symm.trans hf)
  rw [if_neg (by simp [d, hrun, hfit]; omega)]
  extract_lets addrs written flagged failed reported tiles whole recorded tiled done signalled
  have hreported : reported.core g = s.core g := hcore
  have hdone : done = s.tileDone g e t f' td' rest' := by
    show reported.setCore g (((reported.core g).setEng e { x with drains := rest' }).setFlight tiled) = _
    rw [hreported]
    rfl
  have hsignalled : signalled = s.tileSignalled g e t f' td' rest' := by
    unfold State.tileSignalled
    rw [← hdone]
  rw [hsignalled]

end

end Sys2Proof.Machine
end

/-! A tile that is written and passes its comparison (03_number_formats_and_accumulation.md R96, R99; 04_matrix_engine.md R108). -/

section

namespace Sys2Proof.Machine

/-- Nothing but the cores, memory with its marks and the writes of late, and register words that `k` names differs. -/
def State.TileOnly (s u : State) (k : Nat → Bool) : Prop :=
  u = { s with cores := u.cores, regs := u.regs, mem := u.mem, poison := u.poison, selfErr := u.selfErr, soft := u.soft, past := u.past } ∧ s.SameRegsBut u k

section

variable {s : State} {g e t : Nat} {td : TileDrain} {rest : List TileDrain} {f : Flight}

theorem State.regs_tileDone : (s.tileDone g e t f td rest).regs = ((s.tileWritten g e t f td).tileReported (g / 16) (g % 16) e td).regs := rfl

theorem State.r32_tileDone (a : Nat) :
    (s.tileDone g e t f td rest).r32 a = ((s.tileWritten g e t f td).tileReported (g / 16) (g % 16) e td).r32 a := by
  unfold State.r32
  rw [State.regs_tileDone]

theorem State.f64_tileDone (a lo w : Nat) :
    (s.tileDone g e t f td rest).f64 a lo w = ((s.tileWritten g e t f td).tileReported (g / 16) (g % 16) e td).f64 a lo w :=
  State.f64_of_sameRegs (f := fun _ => false) (fun _ _ => State.r32_tileDone _) rfl rfl lo w

theorem State.mem_tileDone : (s.tileDone g e t f td rest).mem = (s.tileWritten g e t f td).mem := by
  unfold State.tileDone
  rw [State.setCore_mem, (State.wordsOnly_tileReported _ _ _ _ td).1]

theorem State.rdByte_tileDone (a : Nat) : (s.tileDone g e t f td rest).rdByte a = (s.tileWritten g e t f td).rdByte a := by
  unfold State.rdByte
  rw [State.mem_tileDone]

theorem State.core_tileDone : (s.tileDone g e t f td rest).core g = (s.core g).tiled e f td rest := State.core_setCore_same _ _ _

/-- A tile whose place the partition may write: the check leaves the state as it is. -/
theorem State.tileWritten_of_mayWrite (hmay : ∀ a, a ∈ tileAddrs g e f.card td → s.mayAccess (s.ownerN g) true a = true) :
    s.tileWritten g e t f td = s.writeTile g e td f.card (td.start + 32 + td.len) := by
  unfold State.tileWritten
  rw [s.checkBounds_of_mayWrite t _ hmay]

section

variable (hmem : s.MemoryOnly (s.tileWritten g e t f td))

include hmem

/-- With the tile written, what it reports and leaves of the state. -/
theorem State.tileOnly_tileDone : s.TileOnly (s.tileDone g e t f td rest) (tileRegs (g / 16) (g % 16) e) := by
  have hwords := (s.tileWritten g e t f td).wordsOnly_tileReported (g / 16) (g % 16) e td
  refine ⟨?_, fun a ha => ?_⟩
  · have hshape : ∀ v w : State, s.MemoryOnly v → w = { v with regs := w.regs } → ∀ c u, u = w.setCore g c →
        u = { s with cores := u.cores, regs := u.regs, mem := u.mem, poison := u.poison, selfErr := u.selfErr, soft := u.soft, past := u.past } :=
      fun v w hv hw c u hu => by rw [hu, hw, hv]; rfl
    exact hshape _ _ hmem hwords.1 _ _ rfl
  · rw [State.r32_tileDone, hwords.2 a ha]
    unfold State.r32
    rw [hmem]

theorem State.onlyEngine_tileDone (hf : (s.core g).flight td.seq = some f) : s.OnlyEngine (s.tileDone g e t f td rest) g e td.seq := by
  have hcores : ((s.tileWritten g e t f td).tileReported (g / 16) (g % 16) e td).cores = s.cores := by
    rw [(State.wordsOnly_tileReported _ _ _ _ td).1, hmem]
  refine State.onlyEngine_of_beside (fun k hk => ?_) ?_
  · unfold State.tileDone
    rw [State.core_setCore_other _ _ _ _ hk, State.core_congr hcores]
  · rw [State.core_tileDone]
    exact CoreState.beside_tiled hf

theorem State.tileDone_reports :
    (s.tileDone g e t f td rest).r32 (Reg.engAccStatus (g / 16) (g % 16) e) = Nat.lor (s.r32 (Reg.engAccStatus (g / 16) (g % 16) e)) td.bits
      ∧ (s.tileDone g e t f td rest).f64 (Reg.engAccCount1 (g / 16) (g % 16) e) 32 32
        = min (s.f64 (Reg.engAccCount1 (g / 16) (g % 16) e) 32 32 + td.sats) (2 ^ 32 - 1) := by
  have hregs : s.SameRegsBut (s.tileWritten g e t f td) (fun _ => false) := .of_regs (by rw [hmem])
  rw [State.r32_tileDone, State.f64_tileDone, State.r32_tileReported, State.sats_tileReported, hregs _ rfl, State.f64_of_sameRegs hregs rfl rfl]
  exact ⟨rfl, rfl⟩

end

end

/-! ## The bytes of a tile -/

section

variable {s : State} {g e : Nat} {td : TileDrain} {card : Nat} (hlen : ceilDiv td.bytes.length 32 ≤ td.len)

include hlen

/-- A byte outside the tile's place stays. -/
theorem State.rdByte_writeTile_other {a : Nat} (ha : ∀ i, i < td.bytes.length → a ≠ itemAddr card 2 td.iter (g, e) i) :
    (s.writeTile g e td card (td.start + 32 + td.len)).rdByte a = s.rdByte a := by
  rw [s.writeTile_eq g e td card hlen]
  refine s.rdByte_writeStamped_other _ _ fun w hw => ?_
  obtain ⟨i, hi, rfl⟩ := List.mem_map.1 hw
  exact ha i (List.mem_range.1 hi)

/-- The last byte of the tile at each address stands, where no write of a cycle behind the tile's first has come before it. -/
theorem State.rdByte_writeTile (hmay : ∀ i, i < td.bytes.length → s.mayAccess (s.ownerN g) true (itemAddr card 2 td.iter (g, e) i) = true)
    (hpast : ∀ p, p ∈ s.past → (∃ i, i < td.bytes.length ∧ p.addr = itemAddr card 2 td.iter (g, e) i)
      → p.cyc ≤ td.start + 32 + td.len - ceilDiv td.bytes.length 32)
    {i : Nat} {b : Byte} (hb : td.bytes[i]? = some b)
    (hlast : ∀ j, i < j → j < td.bytes.length → itemAddr card 2 td.iter (g, e) j ≠ itemAddr card 2 td.iter (g, e) i) :
    (s.writeTile g e td card (td.start + 32 + td.len)).rdByte (itemAddr card 2 td.iter (g, e) i) = b := by
  obtain ⟨hi, hget⟩ := List.getElem?_eq_some_iff.1 hb
  rw [s.writeTile_eq g e td card hlen]
  generalize hfirst : td.start + 32 + td.len - ceilDiv td.bytes.length 32 = first at *
  have hat : (tileWrites g e card td first)[i]? = some (first + i / 32 + 1, itemAddr card 2 td.iter (g, e) i, b) := by
    simp [tileWrites, List.getElem?_range hi, List.getD_eq_getElem?_getD, hb]
  refine s.rdByte_writeStamped_last _ _ ?_ (fun w hw => ?_) (fun w hw p hp hpw => ?_) hat fun j v hij hv => ?_
  · unfold tileWrites
    refine List.Pairwise.map _ (fun m k hmk => ?_) List.pairwise_lt_range
    have : m / 32 ≤ k / 32 := Nat.div_le_div_right hmk.le
    dsimp only
    omega
  · obtain ⟨m, hm, rfl⟩ := List.mem_map.1 hw
    exact hmay m (List.mem_range.1 hm)
  · obtain ⟨m, hm, rfl⟩ := List.mem_map.1 hw
    have := hpast p hp ⟨m, List.mem_range.1 hm, hpw⟩
    dsimp only
    omega
  · obtain ⟨m, hm, rfl⟩ := List.mem_map.1 (List.mem_of_getElem? hv)
    obtain ⟨hj, hvj⟩ := List.getElem?_eq_some_iff.1 hv
    have hmj : (tileWrites g e card td first)[j].2.1 = itemAddr card 2 td.iter (g, e) j := by simp [tileWrites]
    have hjlen : j < td.bytes.length := by simpa [tileWrites] using hj
    rw [hvj] at hmj
    exact hmj ▸ hlast j hij hjlen

end

end Sys2Proof.Machine
end

/-! What the signals of a card and the failure of a core leave of an engine's registers (R196, R260, R447). -/

section

namespace Sys2Proof.Machine

/-! ## The registers below those of the engines -/

/-- The registers of a die or of the IOD below those of the matrix engines. -/
def lowRegs (a : Nat) : Bool := decide (a % 2 ^ 32 < 0x3000000)

/-- Every register word from those of the engines up reads as before. -/
abbrev State.LowOnly (s u : State) : Prop := s.SameRegsBut u lowRegs

theorem lowRegs_die {d x a : Nat} (h : a = Reg.dieBase d + x) (hx : x < 0x3000000) : lowRegs a = true := by
  unfold lowRegs Reg.dieBase at *
  rw [decide_eq_true_eq]
  omega

theorem lowRegs_engine {d c e a : Nat} (hc : c < 16) (he : e < 64) (h : Reg.engAccStatus d c e ≤ a) (h' : a < Reg.engAccStatus d c e + 0x100) :
    lowRegs a = false := by
  unfold lowRegs Reg.engAccStatus Reg.dieBase at *
  rw [decide_eq_false_iff_not]
  omega

theorem State.LowOnly.refl (s : State) : s.LowOnly s := fun _ _ => rfl

theorem State.LowOnly.foldl {α : Type} {f : State → α → State} {l : List α} {s : State} (h : ∀ u x, x ∈ l → State.LowOnly u (f u x)) : s.LowOnly (l.foldl f s) :=
  List.foldlRecOn l f (motive := s.LowOnly) (.refl s) fun u hu x hx => State.SameRegsBut.trans hu (h u x hx)

theorem lowRegs_of_event {a : Nat} (h : eventRegs a = true) : lowRegs a = true := by
  simp only [eventRegs, Bool.or_eq_true, beq_iff_eq] at h
  unfold Reg.hstEvtCount Reg.hstStatus at h
  unfold lowRegs
  rw [decide_eq_true_eq]
  omega

theorem lowRegs_of_fault {a : Nat} (h : faultRegs a = true) : lowRegs a = true := by
  obtain ⟨d, -, hd⟩ := List.any_eq_true.1 h
  unfold rasRegs at hd
  rw [Bool.or_eq_true, Bool.and_eq_true, decide_eq_true_eq, decide_eq_true_eq] at hd
  obtain hd | he := hd
  · unfold Reg.cdMemStatus at hd
    exact lowRegs_die (d := d) (x := a - Reg.dieBase d) (by omega) (by omega)
  · exact lowRegs_of_event he

section

variable (s : State)

theorem State.lowOnly_sf32 {a : Nat} (h : lowRegs a = true) (lo w x : Nat) : s.LowOnly (s.sf32 a lo w x) := (s.wordsOnly_w32 _ h).2

theorem State.lowOnly_sf64 {a : Nat} (h : lowRegs a = true) (h4 : lowRegs (a + 4) = true) (lo w x : Nat) : s.LowOnly (s.sf64 a lo w x) :=
  (s.wordsOnly_w64 _ h h4).2

theorem State.lowOnly_postEvent (type part source data : Nat) : s.LowOnly (s.postEvent type part source data) :=
  (s.sameRegs_postEvent type part source data).mono fun _ => lowRegs_of_event

/-! ## Flag files -/

theorem State.regs_copyWindows (d n : Nat) : (s.copyWindows d n).regs = s.regs := by
  unfold State.copyWindows
  split <;> rfl

theorem State.regs_makeCopies (p : Nat × Nat × Nat → Bool) : (s.makeCopies p).regs = s.regs := by
  unfold State.makeCopies
  extract_lets l
  split
  · rfl
  · exact List.foldlRecOn l _ (motive := fun u : State => u.regs = s.regs) rfl fun u hu e _ => (u.regs_copyWindows _ _).trans hu

theorem State.regs_flagCycle (d t : Nat) : (s.flagCycle d t).regs = s.regs := by
  unfold State.flagCycle
  split
  · rfl
  · exact s.regs_makeCopies _

theorem State.lowOnly_setFlagCell (k : Nat) (x : FlagCell) : s.LowOnly (s.setFlagCell k x) := by
  have hstatus : lowRegs (Reg.cdFlagStatus (k / 1024)) = true := lowRegs_die rfl (by decide)
  have hcount : lowRegs (Reg.cdFlagCount (k / 1024) (k % 1024 / 256)) = true := lowRegs_die (Nat.add_assoc _ _ _) (by omega)
  have hcount4 : lowRegs (Reg.cdFlagCount (k / 1024) (k % 1024 / 256) + 4) = true :=
    lowRegs_die (d := k / 1024) (x := 0x60 + 0x8 * (k % 1024 / 256) + 4) (by unfold Reg.cdFlagCount; omega) (by omega)
  unfold State.setFlagCell
  extract_lets d c old cells celled put y counted
  have hput : s.LowOnly put := .of_regs rfl
  have hcounted : s.LowOnly counted := hput.trans (put.lowOnly_sf64 hcount hcount4 _ _ _)
  split_ifs
  · exact hput
  · exact hcounted.trans (counted.lowOnly_sf32 hstatus _ _ _)
  · exact hcounted.trans (counted.lowOnly_sf32 hstatus _ _ _)

theorem State.lowOnly_signalHere (k kind op value t : Nat) : s.LowOnly (s.signalHere k kind op value t) := by
  have hcycle : s.LowOnly (s.flagCycle (k / 1024) t) := .of_regs (s.regs_flagCycle _ _)
  unfold State.signalHere
  split
  · exact hcycle.trans (State.lowOnly_setFlagCell _ _ _)
  · exact hcycle.trans (.of_regs rfl)

/-! ## Module ends -/

theorem lowRegs_endStatus {k : Nat} (h : k < 32) : lowRegs (endStatus k) = true := by
  unfold endStatus
  rw [if_pos h]
  exact lowRegs_die (d := k / 4) (x := 0x201020 + 0x40 * (k % 4)) (by unfold Reg.d2dModStatus; omega) (by omega)

section

variable {k : Nat} (hk : k < 32)

include hk

theorem State.lowOnly_pumpM (n : Nat) : s.LowOnly (s.pumpM k n) := by
  induction n generalizing s with
  | zero => exact .refl s
  | succ n ih =>
    unfold State.pumpM
    extract_lets x u
    have hu : s.LowOnly u := .of_regs rfl
    split
    · exact hu
    · extract_lets q y
      split_ifs
      · exact hu
      · exact hu.trans (u.lowOnly_sf32 (lowRegs_endStatus hk) _ _ _)
      · exact hu.trans (State.SameRegsBut.trans (.of_regs rfl) (ih _))

theorem State.lowOnly_pumpF (q n : Nat) : s.LowOnly (s.pumpF k q n) := by
  induction n generalizing s with
  | zero => exact .refl s
  | succ n ih =>
    unfold State.pumpF
    extract_lets x
    split
    · exact .refl s
    · extract_lets y z
      split_ifs
      · exact .refl s
      · exact s.lowOnly_sf32 (lowRegs_endStatus hk) _ _ _
      · exact State.SameRegsBut.trans (.of_regs rfl) (ih _)

theorem State.lowOnly_pump : s.LowOnly (s.pump k) := by
  unfold State.pump
  extract_lets u v
  have hu : s.LowOnly u := s.lowOnly_pumpM hk _
  have hv : s.LowOnly v := hu.trans (u.lowOnly_pumpF hk 1 _)
  exact hv.trans (v.lowOnly_pumpF hk 0 _)

theorem State.lowOnly_sendMsg (m : Msg) : s.LowOnly (s.sendMsg k m) := by
  unfold State.sendMsg
  split
  · exact .of_regs rfl
  · extract_lets x y
    have hput : s.LowOnly (s.setModEnd k y) := .of_regs rfl
    exact hput.trans (State.lowOnly_pump _ hk)

end

/-- A compute die sends by a module end of its own. -/
theorem State.routeEnd_lt {n : Nat} (hn : n < 8) (x traffic : Nat) : s.routeEnd n x traffic < 32 := by
  unfold State.routeEnd
  extract_lets m
  have hm : m < 4 := fld_lt _ _ 2
  rw [if_neg (by omega)]
  omega

/-- The signals of a card leave the engines' registers as they are. -/
theorem State.lowOnly_giveSignals {g : Nat} (hg : g < 128) (card when' t : Nat) : s.LowOnly (s.giveSignals g card when' t) := by
  refine State.LowOnly.foldl fun u i _ => ?_
  dsimp only
  split
  · unfold State.giveSignal
    extract_lets lc n body
    split
    · exact u.lowOnly_signalHere _ _ _ _ _
    · exact u.lowOnly_sendMsg (u.routeEnd_lt (by omega) _ _) _
  · exact .refl u

/-! ## The failure of a core -/

theorem State.regs_recordStop (n status : Nat) (k : StopKind) : (s.recordStop n status k).regs = s.regs := by
  unfold State.recordStop
  rw [State.recordStopAt_shape]

theorem State.lowOnly_suspendStep {n : Nat} (hn : n < 64) : s.LowOnly (s.suspendStep n) := by
  have hjob : lowRegs (Reg.topPartJob n) = true := by
    unfold lowRegs Reg.topPartJob
    rw [decide_eq_true_eq]
    omega
  unfold State.suspendStep
  split_ifs
  · exact .refl s
  · exact .of_regs (s.regs_recordStop _ _ _)
  · extract_lets was serving served flagged p
    have hserved : s.LowOnly served := .of_regs rfl
    exact (hserved.trans (served.lowOnly_sf32 hjob _ _ _)).trans (.of_regs rfl)

theorem State.lowOnly_abortStep {n : Nat} (hn : n < 64) : s.LowOnly (s.abortStep n) := by
  unfold State.abortStep
  extract_lets u
  have hu : s.LowOnly u := s.lowOnly_suspendStep hn
  split
  · exact hu.trans (u.lowOnly_postEvent _ _ _ _)
  · exact hu

theorem State.lowOnly_failPart {own : Option Nat} (hown : ∀ n, own = some n → n < 64) (spare bound : Bool) : s.LowOnly (s.failPart own spare bound) := by
  unfold State.failPart
  split
  · exact .refl s
  next n =>
    extract_lets u
    have hu : s.LowOnly u := by
      show State.LowOnly s (if spare then s else _)
      split
      · exact .refl s
      · exact .of_regs (s.regs_recordStop _ _ _)
    split
    · exact hu.trans (.of_regs rfl)
    · exact hu.trans (u.lowOnly_abortStep (hown n rfl))

theorem State.owner_lt {g n : Nat} (h : s.owner g = some n) : n < 64 := List.mem_range.1 (List.mem_of_find?_eq_some h)

theorem State.regs_emptyCore (g : Nat) : (s.emptyCore g).regs = s.regs := by
  unfold State.emptyCore State.dropLines
  extract_lets m
  split <;> rfl

theorem State.lowOnly_fenceCore (g : Nat) : s.LowOnly (s.fenceCore g) := by
  have hmap : lowRegs (Reg.cdSlotMap (g / 16) (g % 16 / 4)) = true :=
    lowRegs_die (d := g / 16) (x := 0x40 + 0x4 * (g % 16 / 4)) (by unfold Reg.cdSlotMap; omega) (by omega)
  unfold State.fenceCore
  extract_lets d k slot c mapR spare own bound emptied core fenced mapped told hour
  split
  · exact .refl s
  · have hfenced : s.LowOnly fenced := .of_regs (s.regs_emptyCore g)
    have hmapped : s.LowOnly mapped := hfenced.trans (fenced.lowOnly_sf32 hmap _ _ _)
    have htold : s.LowOnly told := hmapped.trans (mapped.lowOnly_postEvent _ _ _ _)
    exact (htold.trans (.of_regs rfl)).trans (State.lowOnly_failPart _ (fun n hn => s.owner_lt hn) _ _)

end

end Sys2Proof.Machine
end

/-! The tiles of a core: their drain, their place in memory and a comparison that fails (03_number_formats_and_accumulation.md R97;
04_matrix_engine.md R89, R108, R117). -/

section

namespace Sys2Proof.Machine

/-! ## A core that is fenced -/

section

variable (s : State)

theorem State.memoryOnly_flushTiles (g cyc : Nat) : s.MemoryOnly (s.flushTiles g cyc) := by
  unfold State.flushTiles
  refine List.foldlRecOn _ _ (motive := s.MemoryOnly) (.refl s) fun u hu e _ => hu.trans ?_
  refine List.foldlRecOn _ _ (motive := u.MemoryOnly) (.refl u) fun v hv td _ => hv.trans ?_
  split
  · exact v.memoryOnly_writeTile _ _ _ _ _
  · exact .refl v

theorem State.cores_postEvent (type part source data : Nat) : (s.postEvent type part source data).cores = s.cores := by
  obtain ⟨r, h, heq⟩ := s.postEvent_shape type part source data
  rw [heq]

theorem State.cores_suspendStep (n : Nat) : (s.suspendStep n).cores = s.cores := by
  unfold State.suspendStep
  split_ifs
  · rfl
  · exact s.cores_recordStopAt _ _ _ _
  · rfl

theorem State.cores_abortStep (n : Nat) : (s.abortStep n).cores = s.cores := by
  unfold State.abortStep
  extract_lets u
  have hu : u.cores = s.cores := s.cores_suspendStep n
  split
  · exact (u.cores_postEvent _ _ _ _).trans hu
  · exact hu

theorem State.cores_failPart (own : Option Nat) (spare bound : Bool) : (s.failPart own spare bound).cores = s.cores := by
  unfold State.failPart
  split
  · rfl
  next n =>
    extract_lets u
    have hu : u.cores = s.cores := by
      show (if spare then s else s.recordStop n 0x50 .fault).cores = _
      split
      · rfl
      · exact s.cores_recordStopAt _ _ _ _
    split
    · exact hu
    · exact (u.cores_abortStep n).trans hu

/-- A core that has failed is fenced. -/
theorem State.fenced_fenceCore (g : Nat) : ((s.fenceCore g).core g).fenced = true := by
  unfold State.fenceCore
  extract_lets d k slot c mapR spare own bound emptied core fenced mapped told hour
  split
  next h => exact h
  · have hfenced : (fenced.core g).fenced = true := by rw [State.core_setCore_same]
    have hmapped : mapped.cores = fenced.cores := by rw [show mapped = _ from fenced.set32_shape mapR (15 + slot)]
    have htold : told.cores = mapped.cores := mapped.cores_postEvent _ _ _ _
    clear_value told mapped fenced
    have hlast : ∀ x, ({ told with hour := x } : State).cores = fenced.cores := fun _ => htold.trans hmapped
    rw [State.core_congr ((State.cores_failPart _ own spare bound).trans (hlast _)), hfenced]

end

/-! ## A tile whose comparison fails -/

section

variable {s : State} {g e t : Nat} {td : TileDrain} {rest : List TileDrain} {f : Flight}

theorem State.lowOnly_tileWritten : s.LowOnly (s.tileWritten g e t f td) := by
  have hcheck := (s.sameRegs_checkBounds t (s.ownerN g) true (tileAddrs g e f.card td)).mono fun _ => lowRegs_of_fault
  refine State.SameRegsBut.trans hcheck (.of_regs ?_)
  unfold State.tileWritten
  rw [State.memoryOnly_writeTile]

theorem State.lowOnly_tileSignalled (hg : g < 128) : (s.tileDone g e t f td rest).LowOnly (s.tileSignalled g e t f td rest) := by
  unfold State.tileSignalled
  split
  · exact State.lowOnly_giveSignals _ hg _ _ _
  · exact .refl _

/-- What follows the report of a tile leaves the engine's registers as they are. -/
theorem State.lowOnly_tileFenced (hg : g < 128) (cyc : Nat) :
    (s.tileDone g e t f td rest).LowOnly (((s.tileSignalled g e t f td rest).flushTiles g cyc).fenceCore g) := by
  have hflush : (s.tileSignalled g e t f td rest).LowOnly ((s.tileSignalled g e t f td rest).flushTiles g cyc) :=
    .of_regs (by rw [State.memoryOnly_flushTiles])
  exact (State.lowOnly_tileSignalled hg).trans (hflush.trans (State.lowOnly_fenceCore _ g))

theorem bitAt_lor (m n i : Nat) : bitAt (Nat.lor m n) i = (bitAt m i || bitAt n i) := by
  rw [bitAt_eq, bitAt_eq, bitAt_eq]
  exact Nat.testBit_or m n i

/-- A failed comparison is marked and counted, and fences the core. -/
theorem State.tileFenced_reports (hg : g < 128) (he : e < 64) (hfails : 0 < td.fails) (cyc : Nat) {u : State}
    (hu : u = ((s.tileSignalled g e t f td rest).flushTiles g cyc).fenceCore g) :
    (u.core g).fenced = true ∧ bitAt (u.r32 (Reg.engAccStatus (g / 16) (g % 16) e)) 10 = true
      ∧ u.f64 (Reg.engAccCount1 (g / 16) (g % 16) e) 0 8 = min (s.f64 (Reg.engAccCount1 (g / 16) (g % 16) e) 0 8 + 1) (2 ^ 8 - 1) := by
  have hlow : (s.tileDone g e t f td rest).LowOnly u := hu ▸ State.lowOnly_tileFenced hg cyc
  have hengine : ∀ x, x < 0x100 → lowRegs (Reg.engAccStatus (g / 16) (g % 16) e + x) = false := fun x hx =>
    lowRegs_engine (d := g / 16) (c := g % 16) (e := e) (by omega) he (Nat.le_add_right _ _) (by omega)
  have hstatus : lowRegs (Reg.engAccStatus (g / 16) (g % 16) e) = false := lowRegs_engine (by omega) he le_rfl (by omega)
  have hcount : Reg.engAccCount1 (g / 16) (g % 16) e = Reg.engAccStatus (g / 16) (g % 16) e + 16 := Reg.engAccCount1_eq _ _ _
  have hcount0 : lowRegs (Reg.engAccCount1 (g / 16) (g % 16) e) = false := by rw [hcount]; exact hengine 16 (by decide)
  have hcount4 : lowRegs (Reg.engAccCount1 (g / 16) (g % 16) e + 4) = false := by
    rw [hcount, Nat.add_assoc]; exact hengine 20 (by decide)
  refine ⟨hu ▸ State.fenced_fenceCore _ g, ?_, ?_⟩
  · rw [hlow _ hstatus, State.r32_tileDone, State.r32_tileReported, bitAt_lor, TileDrain.bitAt_bits hfails, Bool.or_true]
  · rw [State.f64_of_sameRegs hlow hcount0 hcount4, State.f64_tileDone, State.fails_tileReported, if_pos hfails,
      State.f64_of_sameRegs State.lowOnly_tileWritten hcount0 hcount4]

end

/-! ## A tile that passes -/

section

variable {s : State} {g e t : Nat} {td : TileDrain} {rest : List TileDrain} {f : Flight}

/-- A tile without a failed comparison and without poison, of a card that signals nothing with an iteration. -/
theorem tileComplete_of_passes (hrun : s.dieRuns (g / 16) t = true) (hdrains : ((s.core g).eng e).drains = td :: rest)
    (hf : (s.core g).flight td.seq = some f) (hle : td.start + 32 + td.len ≤ s.engCycle (g / 16) t) (hfails : td.fails = 0)
    (hown : td.ownError = false) (hpoison : td.poisoned = false) (hquiet : quietCard f.card 2) :
    tileComplete g e t s = s.tileDone g e t f td rest := by
  have hsignalled : s.tileSignalled g e t f td rest = s.tileDone g e t f td rest := by
    unfold State.tileSignalled
    rw [State.giveSignals_of_quiet _ _ _ hquiet, ite_self]
  rw [tileComplete_eq hrun hdrains hf hle (s.signalsFit_of_quiet g hquiet), hsignalled]
  simp [hfails, hown, hpoison]

end

/-- Settles O35: the drain by its engine and the lines it books; the tile by its bytes in the order of their stamps; of a failed
comparison, all that follows it writes registers below the engines'. -/
theorem tilesDrainAndAreChecked : Obligations.TilesDrainAndAreChecked := by
  unfold Obligations.TilesDrainAndAreChecked
  refine ⟨?_, ?_⟩
  · rintro s d c e g t st x w rest f rfl hrun rfl hw hf hst hle b o rfl rfl
    have heq := drainStart_eq (by rw [die_of_core]; exact hrun) hw hf hst (by rw [die_of_core]; exact hle)
    refine ⟨_, congrArg Host.Outcome.next heq, ?_⟩
    rw [State.core_setCore_same, CoreState.eng_draining]
    exact ⟨rfl, fun i hi => CoreState.landed_draining _ _ _ _ _ _ _ _ hi, State.onlyEngine_of_core rfl (CoreState.beside_draining ..),
      CoreState.flights_draining .., rfl⟩
  · rintro s d c e g t n td rest f rfl hrun hdrains hf hle rfl
    have hrun' : s.dieRuns ((16 * d.val + c.val) / 16) t = true := by rw [die_of_core]; exact hrun
    have hle' : td.start + 32 + td.len ≤ s.engCycle ((16 * d.val + c.val) / 16) t := by rw [die_of_core]; exact hle
    refine ⟨fun hfails hown hpoison hquiet hlen hmay => ?_, fun hfails hfit => ?_⟩
    · have heq := tileComplete_of_passes hrun' hdrains hf hle' hfails hown hpoison hquiet
      have hwritten : s.tileWritten (16 * d.val + c.val) e t f td = s.writeTile (16 * d.val + c.val) e td f.card (td.start + 32 + td.len) :=
        State.tileWritten_of_mayWrite fun a ha => by
          obtain ⟨i, hi, rfl⟩ := List.mem_map.1 ha
          exact hmay i (List.mem_range.1 hi)
      have hmem : s.MemoryOnly (s.tileWritten (16 * d.val + c.val) e t f td) := by
        rw [hwritten]
        exact s.memoryOnly_writeTile _ _ _ _ _
      obtain ⟨hstatus, hsats⟩ := State.tileDone_reports (rest := rest) hmem
      obtain ⟨hshape, hregs⟩ := State.tileOnly_tileDone (rest := rest) hmem
      rw [die_of_core, local_of_core] at hstatus hsats hregs
      rw [TileDrain.bits_of_fails hfails] at hstatus
      have hcoreu := State.core_tileDone (s := s) (g := 16 * d.val + c.val) (e := e) (t := t) (f := f) (td := td) (rest := rest)
      have hbyte := fun a => (State.rdByte_tileDone (s := s) (g := 16 * d.val + c.val) (e := e) (t := t) (f := f) (td := td) (rest := rest) a).trans
        (congrArg (State.rdByte · a) hwritten)
      have honly := State.onlyEngine_tileDone (rest := rest) hmem hf
      generalize s.tileDone (16 * d.val + c.val) e t f td rest = u at *
      refine ⟨u, congrArg Host.Outcome.next heq, fun hpast i b hb hlast => (hbyte _).trans ?_, fun a ha => (hbyte a).trans ?_, ?_,
        ⟨f.tiled e td, ?_, rfl, doneBy_stampAt_same _ _ _⟩, hstatus, hsats, honly, hshape, hregs⟩
      · exact State.rdByte_writeTile hlen hmay hpast hb hlast
      · exact State.rdByte_writeTile_other hlen ha
      · rw [hcoreu, CoreState.eng_tiled]
      · rw [hcoreu]
        exact CoreState.flight_tiled hf
    · have heq := tileComplete_eq hrun' hdrains hf hle' hfit
      rw [if_pos (by simp [hfails])] at heq
      obtain ⟨hfenced, hbit, hcount⟩ := State.tileFenced_reports (s := s) (g := 16 * d.val + c.val) (t := t) (rest := rest) (f := f) (by omega) e.isLt hfails _ rfl
      rw [die_of_core, local_of_core] at hbit hcount
      exact ⟨_, congrArg Host.Outcome.next heq, hfenced, hbit, hcount⟩

end Sys2Proof.Machine
end

/-! Cards as their units take them (04_matrix_engine.md R106; 05_vector_engine.md R141; 07_layer_cards.md R193). -/

section

namespace Sys2Proof.Machine

/-! ## The engines of a mask -/

theorem mem_maskEngines {m e : Nat} : e ∈ maskEngines m ↔ e < 64 ∧ bitAt m e = true := by
  unfold maskEngines upto
  rw [List.mem_filter, List.mem_range]

theorem nodup_maskEngines (m : Nat) : (maskEngines m).Nodup := List.nodup_range.filter _

theorem CoreState.foldl_setEng_shape (F : Engine → Engine) (c : CoreState) (l : List Nat) :
    l.foldl (fun v e => v.setEng e (F (v.eng e))) c = { c with engines := (l.foldl (fun v e => v.setEng e (F (v.eng e))) c).engines } :=
  List.foldlRecOn l _ (motive := fun v : CoreState => v = { c with engines := v.engines }) rfl fun v hv e _ => by
    unfold CoreState.setEng
    rw [hv]

/-- A change made to each engine of a list once. -/
theorem CoreState.eng_foldl_setEng (F : Engine → Engine) (c : CoreState) {l : List Nat} (hl : l.Nodup) (x : Nat) :
    (l.foldl (fun v e => v.setEng e (F (v.eng e))) c).eng x = if x ∈ l then F (c.eng x) else c.eng x := by
  induction l generalizing c with
  | nil => simp
  | cons e l ih =>
    obtain ⟨he, hl⟩ := List.nodup_cons.1 hl
    rw [List.foldl_cons, ih _ hl]
    by_cases hx : x = e
    · subst hx
      rw [if_neg he, if_pos List.mem_cons_self, CoreState.eng_setEng_same]
    · rw [CoreState.eng_setEng_other _ _ hx]
      simp [hx]

/-! ## The place of a card -/

/-- An engine with card number `q` taken: the card runs, or else waits. -/
def Engine.taking (q : Nat) (x : Engine) : Engine := if x.run = none then { x with run := some q, iter := 0 } else { x with wait := some q }

/-- The vector engine with card number `q` taken. -/
def VectorEngine.taking (q : Nat) (x : VectorEngine) : VectorEngine :=
  if x.run = none then { x with run := some q, iter := 0, group := 0 } else { x with wait := some q }

section

variable (c : CoreState) {card : Nat} (q : Nat)

theorem CoreState.place_matmul (h : cardOp card = 1) :
    c.place card q = (maskEngines (cardEngMask card)).foldl (fun v e => v.setEng e ((v.eng e).taking q)) c := by
  unfold CoreState.place Engine.taking
  simp only [h, if_true, Option.isNone_iff_eq_none]

theorem CoreState.place_vector (h : cardOp card = 2) : c.place card q = { c with vec := c.vec.taking q } := by
  unfold CoreState.place VectorEngine.taking
  simp [h]

theorem CoreState.place_other (h1 : cardOp card ≠ 1) (h2 : cardOp card ≠ 2) : c.place card q = c := by
  unfold CoreState.place
  rw [if_neg h1, if_neg h2]

theorem CoreState.vec_place_matmul (h : cardOp card = 1) : (c.place card q).vec = c.vec := by
  rw [c.place_matmul q h, CoreState.foldl_setEng_shape (Engine.taking q)]

theorem CoreState.eng_place_matmul (h : cardOp card = 1) (e : Nat) :
    (c.place card q).eng e = if e < 64 ∧ bitAt (cardEngMask card) e = true then (c.eng e).taking q else c.eng e := by
  rw [c.place_matmul q h, CoreState.eng_foldl_setEng (Engine.taking q) c (nodup_maskEngines _)]
  simp only [mem_maskEngines]

variable (card)

/-- Whatever the card, its place is among the engines. -/
theorem CoreState.place_shape : c.place card q = { c with engines := (c.place card q).engines, vec := (c.place card q).vec } := by
  by_cases h1 : cardOp card = 1
  · rw [c.place_matmul q h1]
    conv_lhs => rw [CoreState.foldl_setEng_shape (Engine.taking q)]
    rw [← c.place_matmul q h1, c.vec_place_matmul q h1]
  by_cases h2 : cardOp card = 2
  · rw [c.place_vector q h2]
  · rw [c.place_other q h1 h2]

end

/-! ## The core that issues a card -/

/-- The core with flight `f` of the card issued in cycle `cyc`, and the requests `asks` that follow it. -/
def CoreState.issuing (c : CoreState) (f : Flight) (asks : List (Nat × Nat)) (card cyc : Nat) : CoreState :=
  CoreState.place { c with
    seq := c.seq + 1, flights := keepFlights cyc c.flights ++ [f], lastIssue := some cyc, fresh := min 16 (c.fresh + 1), queue := c.queue.drop 1,
    asked := c.asked ++ asks, blocked := none, fetchFrom := none,
    reduceSeq := if cardOp card = 5 then Tab.put (fun _ => 0) c.reduceSeq (bodyF card 8 16) (f.base + cardIters card) else c.reduceSeq } card f.seq

section

variable (c : CoreState) (f : Flight) (asks : List (Nat × Nat)) (card cyc : Nat)

theorem CoreState.issuing_taken :
    (c.issuing f asks card cyc).seq = c.seq + 1 ∧ (c.issuing f asks card cyc).queue = c.queue.drop 1
      ∧ (c.issuing f asks card cyc).lastIssue = some cyc ∧ f ∈ (c.issuing f asks card cyc).flights := by
  unfold CoreState.issuing
  rw [CoreState.place_shape]
  exact ⟨rfl, rfl, rfl, List.mem_append_right _ (List.mem_singleton_self f)⟩

theorem CoreState.reduceSeq_issuing (h : cardOp card = 5) :
    (c.issuing f asks card cyc).reduceSeq = Tab.put (fun _ => 0) c.reduceSeq (bodyF card 8 16) (f.base + cardIters card) := by
  unfold CoreState.issuing
  rw [CoreState.place_shape]
  exact if_pos h

theorem CoreState.issuing_other (h1 : cardOp card ≠ 1) (h2 : cardOp card ≠ 2) :
    (c.issuing f asks card cyc).engines = c.engines ∧ (c.issuing f asks card cyc).vec = c.vec := by
  unfold CoreState.issuing
  rw [CoreState.place_other _ _ h1 h2]
  exact ⟨rfl, rfl⟩

theorem CoreState.issuing_vector (h : cardOp card = 2) :
    (c.issuing f asks card cyc).engines = c.engines ∧ (c.issuing f asks card cyc).vec = c.vec.taking f.seq := by
  unfold CoreState.issuing
  rw [CoreState.place_vector _ _ h]
  exact ⟨rfl, rfl⟩

theorem CoreState.issuing_matmul (h : cardOp card = 1) :
    (c.issuing f asks card cyc).vec = c.vec ∧ ∀ e, (c.issuing f asks card cyc).eng e =
      if e < 64 ∧ bitAt (cardEngMask card) e = true then (c.eng e).taking f.seq else c.eng e :=
  ⟨CoreState.vec_place_matmul _ _ h, CoreState.eng_place_matmul _ _ h⟩

end

end Sys2Proof.Machine
end

/-! The firings that end with a card's issue (08_flags_ordering_interlocks.md R235, R236). -/

section

namespace Sys2Proof.Machine

/-! ## The register words of a core's sequencer -/

section

variable (d c : Nat)

theorem Reg.coreSeqStatus_eq : Reg.coreSeqStatus d c = Reg.coreStream d c + 0x8 := by unfold Reg.coreSeqStatus Reg.coreStream; omega
theorem Reg.coreSeqCount_eq : Reg.coreSeqCount d c = Reg.coreStream d c + 0x10 := by unfold Reg.coreSeqCount Reg.coreStream; omega
theorem Reg.coreIlkCount0_eq : Reg.coreIlkCount0 d c = Reg.coreStream d c + 0x30 := by unfold Reg.coreIlkCount0 Reg.coreStream; omega
theorem Reg.coreIlkCount1_eq : Reg.coreIlkCount1 d c = Reg.coreStream d c + 0x38 := by unfold Reg.coreIlkCount1 Reg.coreStream; omega
theorem Reg.coreIlkCycles_eq : Reg.coreIlkCycles d c = Reg.coreStream d c + 0x40 := by unfold Reg.coreIlkCycles Reg.coreStream; omega
theorem Reg.coreIlkFirst_eq : Reg.coreIlkFirst d c = Reg.coreStream d c + 0x48 := by unfold Reg.coreIlkFirst Reg.coreStream; omega
theorem Reg.coreIlkLast_eq : Reg.coreIlkLast d c = Reg.coreStream d c + 0x50 := by unfold Reg.coreIlkLast Reg.coreStream; omega

end

/-- The register words that count and record a core's firings. -/
def ilkRegs (g a : Nat) : Bool :=
  decide (Reg.coreStream (g / 16) (g % 16) + 0x30 ≤ a) && decide (a < Reg.coreStream (g / 16) (g % 16) + 0x58)

section

variable {g a : Nat}

theorem ilkRegs_iff : ilkRegs g a = true ↔ Reg.coreStream (g / 16) (g % 16) + 0x30 ≤ a ∧ a < Reg.coreStream (g / 16) (g % 16) + 0x58 := by
  simp [ilkRegs]

theorem ilkRegs_false (h : a < Reg.coreStream (g / 16) (g % 16) + 0x30 ∨ Reg.coreStream (g / 16) (g % 16) + 0x58 ≤ a) : ilkRegs g a = false := by
  rw [← Bool.not_eq_true, ilkRegs_iff]
  omega

/-- Besides the words of its firings, a core's sequencer writes those of its position and count. -/
theorem issueRegs_of_words (h : ilkRegs g a = true ∨ Reg.coreStream (g / 16) (g % 16) + 0x8 ≤ a ∧ a < Reg.coreStream (g / 16) (g % 16) + 0x18) :
    issueRegs g a = true := by
  rw [ilkRegs_iff] at h
  simp only [issueRegs, Bool.or_eq_true, Bool.and_eq_true, decide_eq_true_eq]
  omega

/-- The members of the partitions stand elsewhere. -/
theorem ilkRegs_of_grants (hg : g < 128) (h : grantRegs a) : ilkRegs g a = false := by
  unfold grantRegs Reg.topPartMember Reg.dieBase at h
  refine ilkRegs_false ?_
  unfold Reg.coreStream Reg.dieBase
  omega

end

/-! ## Firings -/

/-- Nothing but the firings of core `g`, with the register words that count and record them, differs. -/
def State.FiringsOnly (s u : State) (g : Nat) : Prop :=
  s.CoresOnly u (ilkRegs g) ∧ (∀ h, h ≠ g → u.core h = s.core h) ∧ u.core g = { s.core g with fired := (u.core g).fired }

section

variable {s t u : State} {g : Nat}

theorem State.FiringsOnly.of_words (h : s.WordsOnly t (ilkRegs g)) : s.FiringsOnly t g := by
  obtain ⟨hshape, hregs⟩ := h
  have hcore : ∀ k, t.core k = s.core k := State.core_congr (by rw [hshape])
  refine ⟨⟨?_, hregs⟩, fun k _ => hcore k, by rw [hcore g]⟩
  rw [hshape]

theorem State.FiringsOnly.refl (s : State) (g : Nat) : s.FiringsOnly s g := .of_words (.refl s _)

theorem State.FiringsOnly.trans (h : s.FiringsOnly t g) (k : t.FiringsOnly u g) : s.FiringsOnly u g := by
  obtain ⟨⟨hshape, hregs⟩, hother, hcore⟩ := h
  obtain ⟨⟨kshape, kregs⟩, kother, kcore⟩ := k
  refine ⟨⟨?_, hregs.trans kregs⟩, fun x hx => (kother x hx).trans (hother x hx), ?_⟩
  · rw [kshape, hshape]
  · rw [kcore, hcore]

theorem State.firingsOnly_setCore (s : State) (g : Nat) (x : Nat × List Fired × Nat) : s.FiringsOnly (s.setCore g { s.core g with fired := x }) g :=
  ⟨⟨rfl, fun _ _ => rfl⟩, fun _ hk => s.core_setCore_other g _ _ hk, by rw [State.core_setCore_same]⟩

section

variable (s) {b : Nat} (h : ilkRegs g b = true) (h4 : ilkRegs g (b + 4) = true)

include h h4

theorem State.firingsOnly_w64 (v : Nat) : s.FiringsOnly (s.w64 b v) g := .of_words (s.wordsOnly_w64 v h h4)

theorem State.firingsOnly_count64 (lo w k : Nat) : s.FiringsOnly (s.count64 b lo w k) g := s.firingsOnly_w64 h h4 _

end

theorem State.firingsOnly_firing (s : State) (g cyc kind slot delay pos : Nat) : s.FiringsOnly (s.firing g cyc kind slot delay pos) g := by
  have hilk : ∀ {b : Nat}, Reg.coreStream (g / 16) (g % 16) + 0x30 ≤ b ∧ b < Reg.coreStream (g / 16) (g % 16) + 0x54 →
      ilkRegs g b = true ∧ ilkRegs g (b + 4) = true := fun hb => ⟨ilkRegs_iff.2 (by omega), ilkRegs_iff.2 (by omega)⟩
  obtain ⟨h0, h04⟩ := hilk (b := Reg.coreIlkCount0 (g / 16) (g % 16)) (by rw [Reg.coreIlkCount0_eq]; omega)
  obtain ⟨h1, h14⟩ := hilk (b := Reg.coreIlkCount1 (g / 16) (g % 16)) (by rw [Reg.coreIlkCount1_eq]; omega)
  obtain ⟨hcyc, hcyc4⟩ := hilk (b := Reg.coreIlkCycles (g / 16) (g % 16)) (by rw [Reg.coreIlkCycles_eq]; omega)
  obtain ⟨hfirst, hfirst4⟩ := hilk (b := Reg.coreIlkFirst (g / 16) (g % 16)) (by rw [Reg.coreIlkFirst_eq]; omega)
  obtain ⟨hlast, hlast4⟩ := hilk (b := Reg.coreIlkLast (g / 16) (g % 16)) (by rw [Reg.coreIlkLast_eq]; omega)
  unfold State.firing
  extract_lets d c counted timed x was now entered recorded
  have hcounted : s.FiringsOnly counted g := by
    show s.FiringsOnly (if kind = 0 then _ else _) g
    split_ifs
    · exact s.firingsOnly_count64 h0 h04 _ _ _
    · exact s.firingsOnly_count64 h1 h14 _ _ _
    · exact s.firingsOnly_count64 h1 h14 _ _ _
    · exact s.firingsOnly_count64 h0 h04 _ _ _
  have htimed : s.FiringsOnly timed g := hcounted.trans (counted.firingsOnly_count64 hcyc hcyc4 _ _ _)
  have hentered : s.FiringsOnly entered g := htimed.trans (timed.firingsOnly_setCore g _)
  have hrecorded : s.FiringsOnly recorded g := hentered.trans (entered.firingsOnly_w64 hlast hlast4 _)
  split_ifs
  · exact .refl s g
  · exact hrecorded
  · exact hrecorded.trans (recorded.firingsOnly_w64 hfirst hfirst4 _)

theorem State.firingsOnly_unblock (s : State) (g pos cyc : Nat) : s.FiringsOnly (s.unblock g pos cyc) g := by
  unfold State.unblock
  split
  · exact .refl s g
  · split
    · exact s.firingsOnly_firing g _ _ _ _ _
    · exact (s.firingsOnly_firing g _ _ _ _ _).trans (State.firingsOnly_firing _ g _ _ _ _ _)

end

/-! ## What the firings leave -/

section

variable {s u : State} {g : Nat} (h : s.FiringsOnly u g)

include h

theorem State.FiringsOnly.seqState : u.seqState g = s.seqState g := by
  unfold State.seqState State.f32
  rw [h.1.2 _ (ilkRegs_false (by rw [Reg.coreSeqStatus_eq]; omega))]

theorem State.FiringsOnly.r64_count : u.r64 (Reg.coreSeqCount (g / 16) (g % 16)) = s.r64 (Reg.coreSeqCount (g / 16) (g % 16)) :=
  State.r64_of_sameRegs h.1.2 (ilkRegs_false (by rw [Reg.coreSeqCount_eq]; omega)) (ilkRegs_false (by rw [Reg.coreSeqCount_eq]; omega))

/-- Which core an LC names depends on the members of the partition alone (R205). -/
theorem State.FiringsOnly.resolveTargets (hg : g < 128) {n : Nat} (hn : n ≤ 64) (card : Nat) : u.resolveTargets n card = s.resolveTargets n card := by
  unfold State.resolveTargets State.coreOf State.lcs
  rw [State.members_of_grants h.1.2 (fun _ => ilkRegs_of_grants hg) hn]

end

end Sys2Proof.Machine
end

/-! A card that issues (07_layer_cards.md R192, R193, R200, R203-R206). -/

section

namespace Sys2Proof.Machine

/-! ## The stream behind a card (R185, R186) -/

/-- The state with a card issued at `pos` counted, and the stream of core `g` behind it. -/
def State.advanced (s : State) (g pos card : Nat) : State :=
  let s := s.count64 (Reg.coreSeqCount (g / 16) (g % 16)) 0 64 1
  if cardEnd card then (if cardWrap card then s.setSeqPos g 0 else (s.setSeqPos g (pos + 1)).setSeqState g 3) else s.setSeqPos g (pos + 1)

section

variable (s : State) (g pos card : Nat)

theorem State.seqPos_setSeqPos : (s.setSeqPos g pos).seqPos g = pos % 2 ^ 24 := s.f32_sf32_same _ _ _ _ (by decide)

theorem State.seqPos_setSeqState (x : Nat) : (s.setSeqState g x).seqPos g = s.seqPos g :=
  s.f32_sf32_field _ _ _ _ _ _ (by decide) (.inr (by decide))

theorem State.seqState_setSeqState (x : Nat) : (s.setSeqState g x).seqState g = x % 2 ^ 2 := s.f32_sf32_same _ _ _ _ (by decide)

theorem State.seqState_setSeqPos : (s.setSeqPos g pos).seqState g = s.seqState g :=
  s.f32_sf32_field _ _ _ _ _ _ (by decide) (.inl (by decide))

theorem State.seqPos_advanced : (s.advanced g pos card).seqPos g = if cardEnd card && cardWrap card then 0 else (pos + 1) % 2 ^ 24 := by
  unfold State.advanced
  cases cardEnd card <;> cases cardWrap card <;> simp [State.seqPos_setSeqPos, State.seqPos_setSeqState]

/-- Behind a card of a running stream. -/
theorem State.seqState_advanced (h : s.seqState g = 1) : (s.advanced g pos card).seqState g = afterCard card := by
  have hcount : (s.count64 (Reg.coreSeqCount (g / 16) (g % 16)) 0 64 1).seqState g = 1 := by
    rw [← h]
    unfold State.seqState State.f32 State.count64
    rw [State.r32_sf64_other, Reg.coreSeqStatus_eq]
    · rw [Reg.coreSeqStatus_eq, Reg.coreSeqCount_eq]; omega
    · rw [Reg.coreSeqStatus_eq, Reg.coreSeqCount_eq]; omega
  unfold State.advanced afterCard
  cases cardEnd card <;> cases cardWrap card <;> simp [State.seqState_setSeqPos, State.seqState_setSeqState, hcount]

theorem State.wordsOnly_setSeqPos (x : Nat) : s.WordsOnly (s.setSeqPos g x) (fun a => a == Reg.coreSeqStatus (g / 16) (g % 16)) :=
  s.wordsOnly_sf32 _ _ _ _

theorem State.wordsOnly_setSeqState (x : Nat) : s.WordsOnly (s.setSeqState g x) (fun a => a == Reg.coreSeqStatus (g / 16) (g % 16)) :=
  s.wordsOnly_sf32 _ _ _ _

/-- With the card counted, the word of position and state alone is written. -/
theorem State.wordsOnly_advanced_count :
    (s.count64 (Reg.coreSeqCount (g / 16) (g % 16)) 0 64 1).WordsOnly (s.advanced g pos card) (fun a => a == Reg.coreSeqStatus (g / 16) (g % 16)) := by
  unfold State.advanced
  extract_lets u
  split_ifs
  · exact u.wordsOnly_setSeqPos g 0
  · exact (u.wordsOnly_setSeqPos g _).trans (State.wordsOnly_setSeqState _ g 3)
  · exact u.wordsOnly_setSeqPos g _

theorem State.r64_advanced :
    (s.advanced g pos card).r64 (Reg.coreSeqCount (g / 16) (g % 16)) = min (s.r64 (Reg.coreSeqCount (g / 16) (g % 16)) + 1) (2 ^ 64 - 1) := by
  have hother : ∀ x, x ≠ 0x8 → (Reg.coreStream (g / 16) (g % 16) + x == Reg.coreSeqStatus (g / 16) (g % 16)) = false := fun x hx => by
    rw [Reg.coreSeqStatus_eq, beq_eq_false_iff_ne]
    omega
  rw [← State.r64_count64_full]
  refine State.r64_of_sameRegs (s.wordsOnly_advanced_count g pos card).2 ?_ ?_
  · rw [Reg.coreSeqCount_eq]
    exact hother _ (by decide)
  · rw [Reg.coreSeqCount_eq, Nat.add_assoc]
    exact hother _ (by decide)

theorem State.wordsOnly_advanced : s.WordsOnly (s.advanced g pos card) (issueRegs g) := by
  refine ((s.wordsOnly_count64 _ 0 64 1).mono fun a ha => ?_).trans ((s.wordsOnly_advanced_count g pos card).mono fun a ha => ?_)
  · rw [pairOf, Bool.or_eq_true, beq_iff_eq, beq_iff_eq, Reg.coreSeqCount_eq] at ha
    exact issueRegs_of_words (.inr (by omega))
  · rw [beq_iff_eq, Reg.coreSeqStatus_eq] at ha
    exact issueRegs_of_words (.inr (by omega))

end

/-! ## The card in flight -/

/-- The flight of the next card of core `g`, at `pos` of partition `n`'s stream, issued in cycle `cyc`. -/
def State.nextFlight (s : State) (n g pos card cyc : Nat) : Flight :=
  { seq := (s.core g).seq, pos := pos, card := s.resolveTargets n card, issue := cyc, step := (s.core g).step, gen := s.gen n,
    base := Tab.get (fun _ => 0) (s.core g).reduceSeq (bodyF card 8 16), remote := s.crossesDie g (s.resolveTargets n card) }

/-- The position that core `g` requests as the card at `pos` issues (R186). -/
def State.nextAsks (s : State) (g pos cyc : Nat) : List (Nat × Nat) :=
  match askPos (s.streamWraps g) (s.streamLen g) pos 16 with | some p => [(p, cyc)] | none => []

/-- The state in which the firings that held core `g`'s next card have ended. -/
def State.unheld (s : State) (g t : Nat) : State := s.unblock g (s.seqPos g) (s.engCycle (g / 16) t)

/-- The flight of that card. -/
def State.flightIssued (s : State) (g card t : Nat) : Flight :=
  (s.unheld g t).nextFlight (s.ownerN g) g (s.seqPos g) card (s.engCycle (g / 16) t)

/-- Core `g` with that card issued. -/
def State.coreIssued (s : State) (g card t : Nat) : CoreState :=
  ((s.unheld g t).core g).issuing (s.flightIssued g card t) ((s.unheld g t).nextAsks g (s.seqPos g) (s.engCycle (g / 16) t)) card (s.engCycle (g / 16) t)

section

variable (s : State) (g card t : Nat)

theorem State.firingsOnly_unheld : s.FiringsOnly (s.unheld g t) g := s.firingsOnly_unblock g _ _

theorem State.core_unheld : (s.unheld g t).core g = { s.core g with fired := ((s.unheld g t).core g).fired } := (s.firingsOnly_unheld g t).2.2

theorem State.seq_flightIssued : (s.flightIssued g card t).seq = (s.core g).seq := by
  unfold State.flightIssued State.nextFlight
  rw [State.core_unheld]

theorem State.base_flightIssued : (s.flightIssued g card t).base = Tab.get (fun _ => 0) (s.core g).reduceSeq (bodyF card 8 16) := by
  unfold State.flightIssued State.nextFlight
  rw [State.core_unheld]

theorem State.card_flightIssued (hg : g < 128) : (s.flightIssued g card t).card = s.resolveTargets (s.ownerN g) card :=
  (s.firingsOnly_unheld g t).resolveTargets hg (s.ownerN_le g) card

/-! ## The units -/

theorem State.coreIssued_matmul (h : cardOp card = 1) :
    (s.coreIssued g card t).vec = (s.core g).vec ∧ ∀ e, (s.coreIssued g card t).eng e =
      if e < 64 ∧ bitAt (cardEngMask card) e = true then ((s.core g).eng e).taking (s.core g).seq else (s.core g).eng e := by
  rw [← s.seq_flightIssued g card t]
  unfold State.coreIssued
  rw [State.core_unheld]
  exact CoreState.issuing_matmul _ _ _ _ _ h

theorem State.coreIssued_vector (h : cardOp card = 2) :
    (s.coreIssued g card t).engines = (s.core g).engines ∧ (s.coreIssued g card t).vec = (s.core g).vec.taking (s.core g).seq := by
  rw [← s.seq_flightIssued g card t]
  unfold State.coreIssued
  rw [State.core_unheld]
  exact CoreState.issuing_vector _ _ _ _ _ h

theorem State.coreIssued_other (h1 : cardOp card ≠ 1) (h2 : cardOp card ≠ 2) :
    (s.coreIssued g card t).engines = (s.core g).engines ∧ (s.coreIssued g card t).vec = (s.core g).vec := by
  unfold State.coreIssued
  rw [State.core_unheld]
  exact CoreState.issuing_other _ _ _ _ _ h1 h2

theorem State.reduceSeq_coreIssued (h : cardOp card = 5) :
    Tab.get (fun _ => 0) (s.coreIssued g card t).reduceSeq (bodyF card 8 16)
      = Tab.get (fun _ => 0) (s.core g).reduceSeq (bodyF card 8 16) + cardIters card := by
  rw [← s.base_flightIssued g card t, State.coreIssued, CoreState.reduceSeq_issuing _ _ _ _ _ h, Tab.get_put_same]

end

/-! ## The issue -/

section

variable {s : State} {g card : Nat} (t : Nat) (hquiet : quietCard card 0)

include hquiet

/-- A card that gives no signal as it issues. -/
theorem State.issued_of_quiet :
    s.issued g (s.seqPos g) card t = ((s.unheld g t).setCore g (s.coreIssued g card t)).advanced g (s.seqPos g) card :=
  State.giveSignals_of_quiet _ g t hquiet

theorem State.cores_issued : (s.issued g (s.seqPos g) card t).cores = ((s.unheld g t).setCore g (s.coreIssued g card t)).cores := by
  rw [State.issued_of_quiet t hquiet, (State.wordsOnly_advanced _ g _ card).1]

theorem State.core_issued : (s.issued g (s.seqPos g) card t).core g = s.coreIssued g card t :=
  (State.core_congr (State.cores_issued t hquiet) g).trans (State.core_setCore_same _ _ _)

theorem State.core_issued_other {k : Nat} (hk : k ≠ g) : (s.issued g (s.seqPos g) card t).core k = s.core k :=
  ((State.core_congr (State.cores_issued t hquiet) k).trans (State.core_setCore_other _ _ _ _ hk)).trans ((s.firingsOnly_unheld g t).2.1 k hk)

theorem State.coresOnly_issued : s.CoresOnly (s.issued g (s.seqPos g) card t) (issueRegs g) := by
  obtain ⟨⟨hshape, hregs⟩, -⟩ := s.firingsOnly_unheld g t
  obtain ⟨hadvanced, hwritten⟩ := ((s.unheld g t).setCore g (s.coreIssued g card t)).wordsOnly_advanced g (s.seqPos g) card
  rw [← State.issued_of_quiet t hquiet] at hadvanced hwritten
  refine ⟨?_, (hregs.mono fun _ ha => issueRegs_of_words (.inl ha)).trans hwritten⟩
  rw [hadvanced, hshape]
  rfl

theorem State.seqState_issued (h : s.seqState g = 1) : (s.issued g (s.seqPos g) card t).seqState g = afterCard card := by
  rw [State.issued_of_quiet t hquiet]
  exact State.seqState_advanced _ g _ card ((s.firingsOnly_unheld g t).seqState.trans h)

theorem State.issued_takes (hg : g < 128) : s.Issued (s.issued g (s.seqPos g) card t) g card t := by
  obtain ⟨hseq, hqueue, hlast, hflight⟩ := ((s.unheld g t).core g).issuing_taken (s.flightIssued g card t)
    ((s.unheld g t).nextAsks g (s.seqPos g) (s.engCycle (g / 16) t)) card (s.engCycle (g / 16) t)
  have hcore := s.core_unheld g t
  unfold State.Issued
  rw [State.core_issued t hquiet]
  refine ⟨?_, ?_, hlast, ⟨_, hflight, s.seq_flightIssued g card t, rfl, rfl, s.card_flightIssued g card t hg⟩, ?_, ?_,
    fun k => State.core_issued_other t hquiet, (State.coresOnly_issued t hquiet).sameBytes, (State.coresOnly_issued t hquiet).2⟩
  · exact hseq.trans (by rw [hcore])
  · exact hqueue.trans (by rw [hcore])
  · rw [State.issued_of_quiet t hquiet, State.seqPos_advanced]
  · rw [State.issued_of_quiet t hquiet, State.r64_advanced]
    exact congrArg (fun x => min (x + 1) (2 ^ 64 - 1)) (s.firingsOnly_unheld g t).r64_count

end

/-! ## The conditions of R192 -/

section

variable {s : State} {g card t : Nat}

theorem State.seqState_of_mayIssue (h : s.mayIssue g t = true) : s.seqState g = 1 := by
  unfold State.mayIssue State.streamGoes at h
  rw [Bool.and_eq_true] at h
  obtain ⟨-, h⟩ := h
  cases ho : s.owner g with
  | none => simp [ho] at h
  | some n =>
    simp only [ho, Bool.and_eq_true, beq_iff_eq] at h
    obtain ⟨⟨⟨⟨⟨hstate, -⟩, -⟩, -⟩, -⟩, -⟩ := h
    exact hstate

theorem State.headCard_of_ready (h : s.Ready g card t) : s.headCard g = some card := by
  obtain ⟨-, ⟨rest, hqueue⟩, -⟩ := h
  unfold State.headCard
  rw [hqueue]
  exact if_pos rfl

theorem State.openWait_of_waitsHold (h : s.WaitsHold card t) (ext : Bool) : s.openWait card t ext = none := by
  unfold State.openWait
  rw [List.find?_eq_none]
  intro i hi hopen
  simp only [Bool.and_eq_true, Bool.not_eq_true'] at hopen
  obtain ⟨⟨hvalid, -⟩, hfails⟩ := hopen
  exact Bool.false_ne_true (hfails.symm.trans (h i (List.mem_range.1 hi) hvalid).1)

/-- Waits that do not consume need no grant. -/
theorem State.grantWaits_of_unconsumed (x : State) {l : List Nat}
    (h : ∀ i, i ∈ l → waitValid (cardWait card i) = true → waitConsume (cardWait card i) = false) : x.grantWaits card t l = (x, none) := by
  induction l with
  | nil => rfl
  | cons i l ih =>
    have hi := h i List.mem_cons_self
    have hskip : (!waitValid (cardWait card i) || !waitConsume (cardWait card i)) = true := by
      cases hv : waitValid (cardWait card i) with
      | false => rfl
      | true => rw [hi hv]; rfl
    unfold State.grantWaits
    rw [if_pos hskip]
    exact ih fun j hj => h j (List.mem_cons_of_mem _ hj)

theorem State.grantWaits_of_waitsHold (h : s.WaitsHold card t) (x : State) : x.grantWaits card t [0, 1, 2, 3] = (x, none) :=
  x.grantWaits_of_unconsumed fun i hi hv => (h i (List.mem_range.1 (show i ∈ List.range 4 from hi)) hv).2

/-- The card at the head of a queue issues. -/
theorem State.tryIssue_of_ready (hready : s.Ready g card t) (hwaits : s.WaitsHold card t) (hquiet : quietCard card 0) :
    s.tryIssue g (cardOp card) t = (s.issued g (s.seqPos g) card t, some (s.seqPos g, (s.core g).seq, card)) := by
  have hhead := State.headCard_of_ready hready
  obtain ⟨hmay, -, hgap, haccepts, hdrain⟩ := hready
  have hfence : (needsDrain card && !(s.core g).allDone (s.engCycle (g / 16) t)) = false := by
    cases hn : needsDrain card with
    | false => rfl
    | true => rw [hdrain hn]; rfl
  unfold State.tryIssue
  simp only [hhead, Option.getD_some, hmay, hgap, haccepts, hfence, State.openWait_of_waitsHold hwaits, s.signalsFit_of_quiet g hquiet,
    State.grantWaits_of_waitsHold hwaits]
  simp

theorem issueUnit_of_ready {op : Nat} (hop : cardOp card = op) (hready : s.Ready g card t) (hwaits : s.WaitsHold card t) (hquiet : quietCard card 0) :
    issueUnit op g t s = s.issued g (s.seqPos g) card t := by
  rw [← hop, issueUnit, State.tryIssue_of_ready hready hwaits hquiet]

end

/-- Settles O28: a ready card issues at once; the core as it has issued the card differs among its units by the card's opcode. -/
theorem cardsIssueToTheirUnits : Obligations.CardsIssueToTheirUnits := by
  unfold Obligations.CardsIssueToTheirUnits
  intro s d c t card hready hwaits hquiet
  have hunit := fun op (hop : cardOp card = op) => issueUnit_of_ready hop hready hwaits hquiet
  have hissued := State.issued_takes (s := s) (g := 16 * d.val + c.val) t hquiet (by omega)
  have hshape := (State.coresOnly_issued (s := s) (g := 16 * d.val + c.val) t hquiet).1
  have hstate := State.seqState_issued t hquiet (State.seqState_of_mayIssue hready.1)
  have hcore := State.core_issued (s := s) (g := 16 * d.val + c.val) t hquiet
  have hother := s.coreIssued_other (16 * d.val + c.val) card t
  rw [← hcore] at hother
  refine ⟨fun hop => ?_, fun hop => ?_, fun hop => ?_, fun hop => ?_, fun hop => ?_⟩
  · obtain ⟨hvec, heng⟩ := s.coreIssued_matmul (16 * d.val + c.val) card t hop
    rw [← hcore] at hvec heng
    exact ⟨_, congrArg Host.Outcome.next (hunit _ hop), hissued, hshape, hstate, hvec, heng⟩
  · obtain ⟨hengines, hvec⟩ := s.coreIssued_vector (16 * d.val + c.val) card t hop
    rw [← hcore] at hengines hvec
    exact ⟨_, congrArg Host.Outcome.next (hunit _ hop), hissued, hshape, hstate, hengines, hvec⟩
  · exact ⟨_, congrArg Host.Outcome.next (hunit _ hop), hissued, hshape, hstate, hother (by omega) (by omega)⟩
  · exact ⟨_, congrArg Host.Outcome.next (hunit _ hop), hissued, hshape, hstate, hother (by omega) (by omega)⟩
  · obtain ⟨hengines, hvec⟩ := hother (by omega) (by omega)
    have hreduce := s.reduceSeq_coreIssued (16 * d.val + c.val) card t hop
    rw [← hcore] at hreduce
    exact ⟨_, congrArg Host.Outcome.next (hunit _ hop), hissued, hshape, hstate, hengines, hvec, hreduce⟩

end Sys2Proof.Machine
end

/-! The write port of the vector engine (05_vector_engine.md R142, R143, R147, R148; 06_memory_hierarchy.md R158, R160). -/

section

namespace Sys2Proof.Machine

/-! ## What a group reports as it leaves the pack stage -/

theorem nodup_eraseDups : ∀ l : List Nat, l.eraseDups.Nodup
  | [] => by simp
  | a :: l => by
    rw [List.eraseDups_cons, List.nodup_cons]
    exact ⟨by simp, nodup_eraseDups (l.filter fun b => !b == a)⟩
termination_by l => l.length
decreasing_by simpa using Nat.lt_succ_of_le (List.length_filter_le _ l)

/-- A sum of different powers of two holds the bit of each. -/
theorem bitAt_sum_two_pow {l : List Nat} (hl : l.Nodup) {b : Nat} (hb : b ∈ l) : bitAt ((l.map (2 ^ ·)).sum) b = true := by
  have hperm : (l.toFinset.sort (· ≤ ·)).Perm l := (Finset.sort_perm_toList _ _).trans (List.toFinset_toList hl)
  rw [bitAt_eq, ← Nat.mem_bitIndices, ← (hperm.map _).sum_eq, Nat.bitIndices_sum_map_two_pow (Finset.sortedLT_sort _)]
  exact hperm.mem_iff.2 hb

/-- The registers in which the vector engine of a core reports a group. -/
def vecRegs (d c a : Nat) : Bool := a == Reg.vecStatus d c || pairOf (Reg.vecCount0 d c) a || pairOf (Reg.vecCount1 d c) a

/-- The state in which the group of an output has been reported (R147, R148). -/
def State.groupReported (s : State) (d c : Nat) (o : VOut) : State :=
  (((s.orBits (Reg.vecStatus d c) ((o.bits.eraseDups.map (2 ^ ·)).sum)).count64 (Reg.vecCount0 d c) 0 64 (if o.group then 1 else 0)).count64
    (Reg.vecCount1 d c) 32 32 o.trunc).count64 (Reg.vecCount1 d c) 0 32 o.sat

theorem Reg.vecCount0_eq (d c : Nat) : Reg.vecCount0 d c = Reg.vecStatus d c + 8 := by unfold Reg.vecCount0 Reg.vecStatus; omega
theorem Reg.vecCount1_eq (d c : Nat) : Reg.vecCount1 d c = Reg.vecStatus d c + 16 := by unfold Reg.vecCount1 Reg.vecStatus; omega

theorem vecRegs_of_grants {d c a : Nat} (hc : c < 16) (h : grantRegs a) : vecRegs d c a = false := by
  unfold grantRegs Reg.topPartMember Reg.dieBase at h
  simp only [vecRegs, Bool.or_eq_false_iff, beq_eq_false_iff_ne, Reg.vecCount0_eq, Reg.vecCount1_eq]
  unfold Reg.vecStatus Reg.dieBase
  exact ⟨⟨by omega, pairOf_false (by omega) (by omega)⟩, pairOf_false (by omega) (by omega)⟩

section

variable (s : State) (d c : Nat) (o : VOut)

theorem State.wordsOnly_groupReported : s.WordsOnly (s.groupReported d c o) (vecRegs d c) :=
  ((((s.wordsOnly_orBits _ _).mono fun a ha => by simp only [vecRegs, ha, Bool.true_or]).trans
    ((State.wordsOnly_count64 _ _ _ _ _).mono fun a ha => by simp only [vecRegs, ha, Bool.true_or, Bool.or_true])).trans
      ((State.wordsOnly_count64 _ _ _ _ _).mono fun a ha => by simp only [vecRegs, ha, Bool.or_true])).trans
        ((State.wordsOnly_count64 _ _ _ _ _).mono fun a ha => by simp only [vecRegs, ha, Bool.or_true])

theorem State.bitAt_orBits {a bits b : Nat} (hb : b < 32) (h : bitAt bits b = true) : bitAt ((s.orBits a bits).r32 a) b = true := by
  rw [State.orBits, State.r32_w32_same, bitAt_eq, Nat.testBit_mod_two_pow, ← bitAt_eq, bitAt_lor, h]
  simp [hb]

theorem State.bitAt_groupReported {b : Nat} (h : b ∈ o.bits) (hb : b < 32) :
    bitAt ((s.groupReported d c o).r32 (Reg.vecStatus d c)) b = true := by
  have hcount : ∀ (u : State) x, x = 8 ∨ x = 16 → ∀ lo w k,
      (u.count64 (Reg.vecStatus d c + x) lo w k).r32 (Reg.vecStatus d c) = u.r32 (Reg.vecStatus d c) := fun u x hx lo w k =>
    (u.wordsOnly_count64 _ lo w k).2 _ (pairOf_false (by omega) (by omega))
  unfold State.groupReported
  rw [Reg.vecCount0_eq, Reg.vecCount1_eq, hcount _ _ (.inr rfl), hcount _ _ (.inr rfl), hcount _ _ (.inl rfl)]
  exact s.bitAt_orBits hb (bitAt_sum_two_pow (nodup_eraseDups _) (List.mem_eraseDups.2 h))

theorem State.groups_groupReported : (s.groupReported d c o).r64 (Reg.vecCount0 d c)
    = min (s.r64 (Reg.vecCount0 d c) + (if o.group then 1 else 0)) (2 ^ 64 - 1) := by
  unfold State.groupReported
  rw [Reg.vecCount0_eq, Reg.vecCount1_eq, State.r64_count64_other _ _ _ _ (by omega), State.r64_count64_other _ _ _ _ (by omega),
    State.r64_count64_full, State.r64_of_sameRegs (s.wordsOnly_orBits _ _).2 (by simp) (by simp; omega)]

theorem State.lanes_groupReported :
    (s.groupReported d c o).f64 (Reg.vecCount1 d c) 32 32 = min (s.f64 (Reg.vecCount1 d c) 32 32 + o.trunc) (2 ^ 32 - 1)
      ∧ (s.groupReported d c o).f64 (Reg.vecCount1 d c) 0 32 = min (s.f64 (Reg.vecCount1 d c) 0 32 + o.sat) (2 ^ 32 - 1) := by
  have hbefore : ∀ bits k lo w, ((s.orBits (Reg.vecStatus d c) bits).count64 (Reg.vecCount0 d c) 0 64 k).f64 (Reg.vecCount1 d c) lo w
      = s.f64 (Reg.vecCount1 d c) lo w := fun bits k lo w => by
    rw [Reg.vecCount0_eq, Reg.vecCount1_eq, State.f64_of_sameRegs (State.wordsOnly_count64 _ _ _ _ _).2 (pairOf_false (by omega) (by omega))
      (pairOf_false (by omega) (by omega)), State.f64_of_sameRegs (s.wordsOnly_orBits _ _).2 (by simp) (by simp; omega)]
  unfold State.groupReported
  constructor
  · rw [State.f64_count64_field _ _ _ _ _ _ _ (by decide) (by decide), State.f64_count64_same _ _ _ _ _ (by decide), hbefore]
  · rw [State.f64_count64_same _ _ _ _ _ (by decide), State.f64_count64_field _ _ _ _ _ _ _ (by decide) (by decide), hbefore]

end

/-! ## Lines offered to the write port -/

/-- The core with `l` for what its vector engine has still to write. -/
def CoreState.withOuts (x : CoreState) (l : List VOut) : CoreState := { x with vec := { x.vec with outs := l } }

section

variable (c : Nat) (x : CoreState)

theorem CoreState.queueRun_withOuts (l : List VOut) (b n q : Nat) : (x.withOuts l).queueRun b n c q = x.queueRun b n c q := by
  induction n generalizing c q with
  | zero => rfl
  | succ n ih => exact ih (c + 1) (q - 1 + x.entered b c)

theorem CoreState.admits_withOuts (l : List VOut) (b : Nat) : (x.withOuts l).admits b c = x.admits b c := by
  have hqueued : (x.withOuts l).queued b c = x.queued b c := by
    unfold CoreState.queued
    simp only [CoreState.queueRun_withOuts]
    rfl
  unfold CoreState.admits
  rw [hqueued]
  rfl

theorem offerLine_withOuts (l : List VOut) (n a : Nat) :
    offerLine (x.withOuts l) c n a = ((offerLine x c n a).1.withOuts l, (offerLine x c n a).2) := by
  have hfree : (x.withOuts l).freeSlots c = x.freeSlots c := rfl
  unfold offerLine
  rw [hfree, CoreState.admits_withOuts]
  split
  · rfl
  · rfl

/-- Which lines enter does not depend on what the vector engine has to write. -/
theorem offerLines_withOuts (l : List VOut) (lines : List (Nat × List Byte)) (n : Nat) :
    offerLines c lines (x.withOuts l) n = ((offerLines c lines x n).1.withOuts l, (offerLines c lines x n).2) := by
  induction lines generalizing x n with
  | nil => rfl
  | cons a lines ih =>
    simp only [offerLines, offerLine_withOuts, ih]
    split
    · rfl
    · rfl

/-- Where none waits, every line offered is written. -/
theorem offerLines_of_none_waits {lines : List (Nat × List Byte)} {n : Nat} (h : (offerLines c lines x n).2.2.2 = []) :
    (offerLines c lines x n).2.2.1 = lines := by
  induction lines generalizing x n with
  | nil => rfl
  | cons a lines ih =>
    simp only [offerLines] at h ⊢
    split at h
    next hin => rw [if_pos hin]; exact congrArg _ (ih _ h)
    · exact absurd h (List.cons_ne_nil _ _)

theorem portOnly_offerLine (n a : Nat) : x.PortOnly (offerLine x c n a).1 := by
  unfold offerLine
  split
  · exact ⟨rfl, rfl, rfl, rfl⟩
  · exact ⟨rfl, rfl, rfl, rfl⟩

theorem portOnly_offerLines (lines : List (Nat × List Byte)) (n : Nat) : x.PortOnly (offerLines c lines x n).1 := by
  induction lines generalizing x n with
  | nil => exact ⟨rfl, rfl, rfl, rfl⟩
  | cons a lines ih =>
    have h := (portOnly_offerLine c x n a.1).trans (ih (offerLine x c n a.1).1 (n + 1))
    simp only [offerLines]
    split
    · exact h
    · exact h

end

end Sys2Proof.Machine
end

/-! The lines that the vector engine writes (05_vector_engine.md R143; 06_memory_hierarchy.md R160, R171, R174). -/

section

namespace Sys2Proof.Machine

/-! ## Writes of late -/

theorem State.mem_past_writeByteTimed (s : State) (n cyc rank a : Nat) (b : Byte) {p : Past} (h : p ∈ (s.writeByteTimed n cyc rank a b).past) :
    p.addr = a ∨ p ∈ s.past := by
  have hput : p ∈ (s.putTimed cyc rank a b).past → p.addr = a ∨ p ∈ s.past := fun hp => by
    unfold State.putTimed at hp
    extract_lets later at hp
    split at hp
    · obtain rfl | hp := List.mem_cons.1 hp
      · exact .inl rfl
      · exact .inr hp
    next l hl =>
      have hla : l.addr = a := by
        have hmem := List.mem_of_getLast? hl
        simp only [later, List.mem_filter, Bool.and_eq_true, beq_iff_eq] at hmem
        exact hmem.2.1
      simp only [List.mem_flatten, List.mem_map] at hp
      obtain ⟨_, ⟨q, hq, rfl⟩, hp⟩ := hp
      split at hp
      next hql =>
        simp only [List.mem_cons, List.not_mem_nil, or_false] at hp
        obtain rfl | rfl := hp
        · exact .inl ((congrArg Past.addr hql).trans hla)
        · exact .inl rfl
      · exact .inr (List.mem_singleton.1 hp ▸ hq)
  unfold State.writeByteTimed at h
  split_ifs at h
  · exact .inr h
  · exact hput h
  · exact hput h

theorem State.mem_past_writeStamped (s : State) (n rank : Nat) (ws : List StampedByte) {p : Past} (h : p ∈ (s.writeStamped n rank ws).past) :
    (∃ w, w ∈ ws ∧ p.addr = w.2.1) ∨ p ∈ s.past := by
  induction ws generalizing s with
  | nil => exact .inr h
  | cons w ws ih =>
    obtain ⟨v, hv, hp⟩ | hp := ih (s.writeByteTimed n w.1 rank w.2.1 w.2.2) h
    · exact .inl ⟨v, List.mem_cons_of_mem _ hv, hp⟩
    · exact (s.mem_past_writeByteTimed n w.1 rank w.2.1 w.2.2 hp).imp (fun hw => ⟨w, List.mem_cons_self, hw⟩) id

/-- Marks of poison touch neither a byte nor the writes of late. -/
theorem State.poisonAt_keeps (s : State) (addrs : List Nat) :
    s.MemoryOnly (s.poisonAt addrs) ∧ (∀ a, (s.poisonAt addrs).rdByte a = s.rdByte a) ∧ (s.poisonAt addrs).past = s.past := by
  unfold State.poisonAt
  refine List.foldlRecOn addrs _ (motive := fun u : State => s.MemoryOnly u ∧ (∀ a, u.rdByte a = s.rdByte a) ∧ u.past = s.past)
    ⟨.refl s, fun _ => rfl, rfl⟩ fun u hu a _ => ?_
  obtain ⟨hshape, hbytes, hpast⟩ := hu
  exact ⟨hshape.trans rfl, hbytes, hpast⟩

/-! ## One line -/

/-- The bytes of a line, one after the other, all at one stamp. -/
def lineStamped (cyc : Nat) (l : Nat × List Byte) : List StampedByte :=
  (((List.range l.2.length).map (l.1 + ·)).zip l.2).map (fun x => (cyc, x.1, x.2))

theorem lineStamped_getElem? (cyc : Nat) (l : Nat × List Byte) (i : Nat) : (lineStamped cyc l)[i]? = l.2[i]?.map (fun b => (cyc, l.1 + i, b)) := by
  unfold lineStamped
  by_cases hi : i < l.2.length
  · simp [hi]
  · simp [List.getElem?_eq_none (not_lt.1 hi)]
    omega

theorem mem_lineStamped {cyc : Nat} {l : Nat × List Byte} {w : StampedByte} (h : w ∈ lineStamped cyc l) :
    w.1 = cyc ∧ ∃ i, i < l.2.length ∧ w.2.1 = l.1 + i := by
  obtain ⟨i, hi⟩ := List.mem_iff_getElem?.1 h
  rw [lineStamped_getElem?, Option.map_eq_some_iff] at hi
  obtain ⟨b, hb, rfl⟩ := hi
  exact ⟨rfl, i, (List.getElem?_eq_some_iff.1 hb).1, rfl⟩

/-- A line of an output written at a stamp, the poison mark with it (R143, R174). -/
def State.lineWritten (s : State) (n cyc : Nat) (bad : Bool) (l : Nat × List Byte) : State :=
  let addrs := (List.range l.2.length).map (l.1 + ·)
  let u := s.writeTimed n cyc rankVector (addrs.zip l.2)
  if bad then u.poisonAt (addrs.filter (u.mayAccess n true)) else u

section

variable (s : State) (n cyc : Nat) (bad : Bool) (l : Nat × List Byte)

theorem State.lineWritten_keeps :
    let u := s.writeStamped n rankVector (lineStamped cyc l)
    u.MemoryOnly (s.lineWritten n cyc bad l) ∧ (∀ a, (s.lineWritten n cyc bad l).rdByte a = u.rdByte a)
      ∧ (s.lineWritten n cyc bad l).past = u.past := by
  unfold State.lineWritten
  simp only [State.writeTimed_eq]
  split
  · exact State.poisonAt_keeps _ _
  · exact ⟨.refl _, fun _ => rfl, rfl⟩

theorem State.memoryOnly_lineWritten : s.MemoryOnly (s.lineWritten n cyc bad l) :=
  (s.memoryOnly_writeStamped n rankVector _).trans (s.lineWritten_keeps n cyc bad l).1

theorem State.rdByte_lineWritten_other {a : Nat} (h : a < l.1 ∨ l.1 + l.2.length ≤ a) : (s.lineWritten n cyc bad l).rdByte a = s.rdByte a := by
  rw [(s.lineWritten_keeps n cyc bad l).2.1]
  refine s.rdByte_writeStamped_other n rankVector fun w hw => ?_
  obtain ⟨-, i, hi, hwi⟩ := mem_lineStamped hw
  omega

theorem State.mem_past_lineWritten {p : Past} (h : p ∈ (s.lineWritten n cyc bad l).past) :
    (l.1 ≤ p.addr ∧ p.addr < l.1 + l.2.length) ∨ p ∈ s.past := by
  rw [(s.lineWritten_keeps n cyc bad l).2.2] at h
  refine (s.mem_past_writeStamped n rankVector _ h).imp_left fun hw => ?_
  obtain ⟨w, hw, hp⟩ := hw
  obtain ⟨-, i, hi, hwi⟩ := mem_lineStamped hw
  omega

/-- A line that the partition may write and that nothing later has met stands. -/
theorem State.rdBytes_lineWritten (hmay : ∀ i, i < l.2.length → s.mayAccess n true (l.1 + i) = true)
    (hpast : ∀ p, p ∈ s.past → l.1 ≤ p.addr → p.addr < l.1 + l.2.length → p.cyc < cyc) :
    (s.lineWritten n cyc bad l).rdBytes l.1 l.2.length = l.2 := by
  rw [State.rdBytes_eq_map]
  refine List.ext_getElem? fun i => ?_
  by_cases hi : i < l.2.length
  · have hat : (lineStamped cyc l)[i]? = some (cyc, l.1 + i, l.2[i]) := by
      rw [lineStamped_getElem?, List.getElem?_eq_getElem hi, Option.map_some]
    rw [List.getElem?_map, List.getElem?_range hi, Option.map_some, List.getElem?_eq_getElem hi, (s.lineWritten_keeps n cyc bad l).2.1]
    refine congrArg some (s.rdByte_writeStamped_last n rankVector ?_ (fun w hw => ?_) (fun w hw p hp hpw => ?_) hat fun j v hij hv => ?_)
    · exact List.Pairwise.map _ (fun _ _ _ => le_rfl) (List.pairwise_of_forall fun _ _ => trivial)
    · obtain ⟨-, m, hm, hwm⟩ := mem_lineStamped hw
      exact hwm ▸ hmay m hm
    · obtain ⟨hwcyc, m, hm, hwm⟩ := mem_lineStamped hw
      exact .inl (hwcyc ▸ hpast p hp (by omega) (by omega))
    · rw [lineStamped_getElem?, Option.map_eq_some_iff] at hv
      obtain ⟨b, -, rfl⟩ := hv
      dsimp only
      omega
  · rw [List.getElem?_eq_none (by simpa using hi), List.getElem?_eq_none (not_lt.1 hi)]

end

/-! ## The lines of an output -/

/-- Two lines without a byte in common. -/
def LinesApart (l m : Nat × List Byte) : Prop := l.1 + l.2.length ≤ m.1 ∨ m.1 + m.2.length ≤ l.1

/-- Lines written one after the other. -/
def State.linesWritten (s : State) (n cyc : Nat) (bad : Bool) (lines : List (Nat × List Byte)) : State :=
  lines.foldl (fun u l => u.lineWritten n cyc bad l) s

section

variable (s : State) (n cyc : Nat) (bad : Bool)

theorem State.memoryOnly_linesWritten (lines : List (Nat × List Byte)) : s.MemoryOnly (s.linesWritten n cyc bad lines) :=
  List.foldlRecOn lines _ (motive := s.MemoryOnly) (.refl s) fun u hu l _ => hu.trans (u.memoryOnly_lineWritten n cyc bad l)

theorem State.rdByte_linesWritten_other {lines : List (Nat × List Byte)} {a : Nat} (h : ∀ l, l ∈ lines → a < l.1 ∨ l.1 + l.2.length ≤ a) :
    (s.linesWritten n cyc bad lines).rdByte a = s.rdByte a :=
  List.foldlRecOn lines _ (motive := fun u : State => u.rdByte a = s.rdByte a) rfl fun u hu l hl =>
    (u.rdByte_lineWritten_other n cyc bad l (h l hl)).trans hu

/-- Each of some lines apart stands with the bytes it brings. -/
theorem State.rdBytes_linesWritten {lines : List (Nat × List Byte)} (hapart : lines.Pairwise LinesApart)
    (hmay : ∀ l, l ∈ lines → ∀ i, i < l.2.length → s.mayAccess n true (l.1 + i) = true)
    (hpast : ∀ p, p ∈ s.past → ∀ l, l ∈ lines → l.1 ≤ p.addr → p.addr < l.1 + l.2.length → p.cyc < cyc) {l : Nat × List Byte} (hl : l ∈ lines) :
    (s.linesWritten n cyc bad lines).rdBytes l.1 l.2.length = l.2 := by
  induction lines generalizing s with
  | nil => exact absurd hl List.not_mem_nil
  | cons m lines ih =>
    obtain ⟨hm, hapart⟩ := List.pairwise_cons.1 hapart
    show ((s.lineWritten n cyc bad m).linesWritten n cyc bad lines).rdBytes l.1 l.2.length = l.2
    obtain rfl | hl := List.mem_cons.1 hl
    · rw [State.rdBytes_congr (s.lineWritten n cyc bad l)]
      · exact s.rdBytes_lineWritten n cyc bad l (hmay l List.mem_cons_self) fun p hp => hpast p hp l List.mem_cons_self
      · intro x h1 h2
        refine State.rdByte_linesWritten_other _ n cyc bad fun k hk => ?_
        have := hm k hk
        unfold LinesApart at this
        omega
    · refine ih _ hapart (fun k hk i hi => ?_) (fun p hp k hk h1 h2 => ?_) hl
      · rw [(s.memoryOnly_lineWritten n cyc bad m).mayAccess]
        exact hmay k (List.mem_cons_of_mem _ hk) i hi
      · obtain hin | hp := s.mem_past_lineWritten n cyc bad m hp
        · have := hm k hk
          unfold LinesApart at this
          omega
        · exact hpast p hp k (List.mem_cons_of_mem _ hk) h1 h2

end

end Sys2Proof.Machine
end

/-! The cycles of the vector engine's write port (05_vector_engine.md R142, R143, R147, R148; 06_memory_hierarchy.md R158). -/

section

namespace Sys2Proof

section

variable {α : Type} {k : Nat} {l : Tab α} (h : ∀ e ∈ l, e.1 ≠ k)

include h

theorem Tab.erase_of_absent : Tab.erase k l = l := by
  induction l with
  | nil => rfl
  | cons e l ih => simp [Tab.erase, h e List.mem_cons_self, ih fun x hx => h x (List.mem_cons_of_mem _ hx)]

theorem Tab.erase_insert (v : α) : Tab.erase k (Tab.insert k v l) = l := by
  induction l with
  | nil => simp [Tab.insert, Tab.erase]
  | cons e l ih =>
    by_cases hk : k < e.1
    · rw [Tab.insert, if_pos hk, Tab.erase, if_pos rfl]
      exact Tab.erase_of_absent h
    · rw [Tab.insert, if_neg hk, Tab.erase, if_neg (h e List.mem_cons_self), ih fun x hx => h x (List.mem_cons_of_mem _ hx)]

end

/-- Of two values put at one key the later stands. -/
theorem Tab.put_put {α : Type} [DecidableEq α] (d : Nat → α) (l : Tab α) (k : Nat) (v w : α) : Tab.put d (Tab.put d l k v) k w = Tab.put d l k w := by
  have herase : Tab.erase k (Tab.put d l k v) = Tab.erase k l := by
    unfold Tab.put
    split
    · exact Tab.erase_of_absent (Tab.ne_of_mem_erase l k)
    · exact Tab.erase_insert (Tab.ne_of_mem_erase l k) v
  conv_lhs => rw [Tab.put, herase]
  rw [Tab.put]

end Sys2Proof

namespace Sys2Proof.Machine

/-! ## What the write port changes -/

section

variable {s t u : State} {k : Nat → Bool}

theorem State.TileOnly.trans (h : s.TileOnly t k) (h' : t.TileOnly u k) : s.TileOnly u k := by
  obtain ⟨hshape, hregs⟩ := h
  obtain ⟨hshape', hregs'⟩ := h'
  refine ⟨?_, hregs.trans hregs'⟩
  rw [hshape', hshape]

theorem State.WordsOnly.tileOnly (h : s.WordsOnly t k) : s.TileOnly t k := by
  refine ⟨?_, h.2⟩
  rw [h.1]

theorem State.MemoryOnly.tileOnly (h : s.MemoryOnly t) : s.TileOnly t k := by
  unfold State.MemoryOnly at h
  refine ⟨?_, .of_regs (by rw [h])⟩
  rw [h]

theorem State.tileOnly_setCore (s : State) (g : Nat) (c : CoreState) (k : Nat → Bool) : s.TileOnly (s.setCore g c) k := ⟨rfl, fun _ _ => rfl⟩

theorem State.MemoryOnly.core (h : s.MemoryOnly t) (g : Nat) : t.core g = s.core g := State.core_congr (by rw [h]) g

theorem State.WordsOnly.core (h : s.WordsOnly t k) (g : Nat) : t.core g = s.core g := State.core_congr (by rw [h.1]) g

theorem State.WordsOnly.rdByte (h : s.WordsOnly t k) (a : Nat) : t.rdByte a = s.rdByte a := by
  rw [h.1]
  rfl

end

theorem State.setCore_setCore (s : State) (g : Nat) (x y : CoreState) : (s.setCore g x).setCore g y = s.setCore g y := by
  unfold State.setCore
  rw [Tab.put_put]

theorem State.rdByte_setCore (s : State) (g : Nat) (x : CoreState) (a : Nat) : (s.setCore g x).rdByte a = s.rdByte a := rfl

theorem State.mayAccess_setCore (s : State) (g : Nat) (x : CoreState) (n : Nat) (w : Bool) (a : Nat) :
    (s.setCore g x).mayAccess n w a = s.mayAccess n w a := rfl

/-! ## One output whose lines all enter in one cycle -/

/-- A card whose output `o` has been written and is seen from cycle `cyc` on: the iteration's last line, and the item's release with it. -/
def Flight.outputDone (f : Flight) (o : VOut) (cyc : Nat) : Flight :=
  let f := { f with placedAt := Tab.put (fun _ => 0) f.placedAt o.iter (max cyc (Tab.get (fun _ => 0) f.placedAt o.iter)) }
  if o.last then { f with relAt := stampAt f.relAt (itemKey o.slot 0 o.iter) cyc } else f

theorem Flight.outputDone_fields (f : Flight) (o : VOut) (cyc : Nat) : (f.outputDone o cyc).seq = f.seq ∧ (f.outputDone o cyc).card = f.card
    ∧ (o.last = true → doneBy (f.outputDone o cyc).relAt (itemKey o.slot 0 o.iter) cyc = true) := by
  cases h : o.last with
  | false => simp [Flight.outputDone, h]
  | true => simp [Flight.outputDone, h, doneBy_stampAt_same]

/-- The core with the lines of its one output entered in cycle `c`. -/
def CoreState.outputEntered (x : CoreState) (c : Nat) (o : VOut) : CoreState := (offerLines c o.lines x 0).1.withOuts []

/-- The same with the card told, and the cycle of the write port done. -/
def CoreState.outputTaken (x : CoreState) (c : Nat) (o : VOut) (f : Flight) : CoreState :=
  let y := (x.outputEntered c o).setFlight (f.outputDone o (c + 1))
  { y with vec := { y.vec with outs := [], portAt := c + 1 } }

/-- The state in which output `o` of core `g` has been reported, its lines have entered in cycle `c` and are written. -/
def State.outputWritten (s : State) (g c : Nat) (o : VOut) : State :=
  ((s.groupReported (g / 16) (g % 16) o).setCore g ((s.core g).outputEntered c o)).linesWritten (s.ownerN g) (c + 1) o.poisoned o.lines

/-- The same with the card told, and the cycle of the write port done. -/
def State.outputTaken (s : State) (g c : Nat) (o : VOut) (f : Flight) : State :=
  (s.outputWritten g c o).setCore g ((s.core g).outputTaken c o f)

section

variable (x : CoreState) (c : Nat) (o : VOut) (f : Flight)

theorem CoreState.outputEntered_keeps : (x.outputEntered c o).engines = x.engines ∧ (x.outputEntered c o).flights = x.flights := by
  obtain ⟨hengines, hflights, -, -⟩ := portOnly_offerLines c x o.lines 0
  exact ⟨hengines, hflights⟩

theorem CoreState.flights_outputTaken : (x.outputTaken c o f).flights = (x.setFlight (f.outputDone o (c + 1))).flights :=
  congrArg (List.map _) (x.outputEntered_keeps c o).2

theorem CoreState.flight_outputTaken (h : x.flight o.seq = some f) : (x.outputTaken c o f).flight o.seq = some (f.outputDone o (c + 1)) := by
  have hseq : (f.outputDone o (c + 1)).seq = o.seq := (f.outputDone_fields o _).1.trans (CoreState.seq_of_flight h)
  have hset : (x.setFlight (f.outputDone o (c + 1))).flight o.seq = some (f.outputDone o (c + 1)) :=
    hseq ▸ CoreState.flight_setFlight_same (hseq ▸ h)
  unfold CoreState.flight at hset ⊢
  rw [CoreState.flights_outputTaken]
  exact hset

end

section

variable (s : State) (g c : Nat) (o : VOut) (f : Flight)

theorem State.memoryOnly_outputWritten :
    ((s.groupReported (g / 16) (g % 16) o).setCore g ((s.core g).outputEntered c o)).MemoryOnly (s.outputWritten g c o) :=
  State.memoryOnly_linesWritten _ _ _ _ _

theorem State.tileOnly_outputWritten : s.TileOnly (s.outputWritten g c o) (vecRegs (g / 16) (g % 16)) :=
  ((s.wordsOnly_groupReported (g / 16) (g % 16) o).tileOnly.trans (State.tileOnly_setCore _ g _ _)).trans
    (s.memoryOnly_outputWritten g c o).tileOnly

theorem State.tileOnly_outputTaken : s.TileOnly (s.outputTaken g c o f) (vecRegs (g / 16) (g % 16)) :=
  (s.tileOnly_outputWritten g c o).trans (State.tileOnly_setCore _ g _ _)

theorem State.core_outputWritten : (s.outputWritten g c o).core g = (s.core g).outputEntered c o := by
  rw [(s.memoryOnly_outputWritten g c o).core, State.core_setCore_same]

theorem State.core_outputTaken : (s.outputTaken g c o f).core g = (s.core g).outputTaken c o f := State.core_setCore_same _ _ _

theorem State.core_outputTaken_other {h : Nat} (hh : h ≠ g) : (s.outputTaken g c o f).core h = s.core h := by
  unfold State.outputTaken
  rw [State.core_setCore_other _ _ _ _ hh, (s.memoryOnly_outputWritten g c o).core, State.core_setCore_other _ _ _ _ hh,
    (s.wordsOnly_groupReported _ _ o).core]

theorem State.r32_outputTaken (a : Nat) : (s.outputTaken g c o f).r32 a = (s.groupReported (g / 16) (g % 16) o).r32 a := by
  have hregs : (s.outputWritten g c o).regs = (s.groupReported (g / 16) (g % 16) o).regs := by
    rw [(s.memoryOnly_outputWritten g c o)]
    rfl
  exact State.r32_congr _ _ hregs a

theorem State.f64_outputTaken (a lo w : Nat) : (s.outputTaken g c o f).f64 a lo w = (s.groupReported (g / 16) (g % 16) o).f64 a lo w :=
  State.f64_of_sameRegs (f := fun _ => false) (fun b _ => s.r32_outputTaken g c o f b) rfl rfl lo w

theorem State.r64_outputTaken (a : Nat) : (s.outputTaken g c o f).r64 a = (s.groupReported (g / 16) (g % 16) o).r64 a :=
  State.r64_of_sameRegs (f := fun _ => false) (fun b _ => s.r32_outputTaken g c o f b) rfl rfl

/-- The status bits and counts of the output's group. -/
theorem State.outputTaken_reports :
    (∀ b, b ∈ o.bits → b < 32 → bitAt ((s.outputTaken g c o f).r32 (Reg.vecStatus (g / 16) (g % 16))) b = true)
      ∧ (s.outputTaken g c o f).r64 (Reg.vecCount0 (g / 16) (g % 16))
        = min (s.r64 (Reg.vecCount0 (g / 16) (g % 16)) + (if o.group then 1 else 0)) (2 ^ 64 - 1)
      ∧ (s.outputTaken g c o f).f64 (Reg.vecCount1 (g / 16) (g % 16)) 32 32
        = min (s.f64 (Reg.vecCount1 (g / 16) (g % 16)) 32 32 + o.trunc) (2 ^ 32 - 1)
      ∧ (s.outputTaken g c o f).f64 (Reg.vecCount1 (g / 16) (g % 16)) 0 32
        = min (s.f64 (Reg.vecCount1 (g / 16) (g % 16)) 0 32 + o.sat) (2 ^ 32 - 1) := by
  simp only [State.r32_outputTaken, State.r64_outputTaken, State.f64_outputTaken]
  exact ⟨fun b => s.bitAt_groupReported _ _ o, s.groups_groupReported _ _ o, s.lanes_groupReported _ _ o⟩

/-- A byte outside the lines stays. -/
theorem State.rdByte_outputTaken_other {a : Nat} (h : ∀ l, l ∈ o.lines → a < l.1 ∨ l.1 + l.2.length ≤ a) :
    (s.outputTaken g c o f).rdByte a = s.rdByte a := by
  rw [State.outputTaken, State.rdByte_setCore, State.outputWritten, State.rdByte_linesWritten_other _ _ _ _ h, State.rdByte_setCore,
    (s.wordsOnly_groupReported (g / 16) (g % 16) o).rdByte]

/-- A report changes nothing that says what a partition may access. -/
theorem State.groupReported_grants : (s.groupReported (g / 16) (g % 16) o).ownerN g = s.ownerN g
    ∧ ∀ w a, (s.groupReported (g / 16) (g % 16) o).mayAccess (s.ownerN g) w a = s.mayAccess (s.ownerN g) w a := by
  have hregs := (s.wordsOnly_groupReported (g / 16) (g % 16) o).2
  have hgrants : ∀ a, grantRegs a → vecRegs (g / 16) (g % 16) a = false := fun a => vecRegs_of_grants (by omega)
  exact ⟨State.ownerN_of_grants hregs hgrants g, State.mayAccess_of_grants hregs hgrants (s.ownerN_le g)⟩

theorem State.rdBytes_outputTaken (hapart : o.lines.Pairwise LinesApart)
    (hmay : ∀ l, l ∈ o.lines → ∀ i, i < l.2.length → s.mayAccess (s.ownerN g) true (l.1 + i) = true)
    (hpast : ∀ p, p ∈ s.past → ∀ l, l ∈ o.lines → l.1 ≤ p.addr → p.addr < l.1 + l.2.length → p.cyc ≤ c) {l : Nat × List Byte}
    (hl : l ∈ o.lines) : (s.outputTaken g c o f).rdBytes l.1 l.2.length = l.2 := by
  have hsame : ((s.groupReported (g / 16) (g % 16) o).setCore g ((s.core g).outputEntered c o)).past = s.past := by
    rw [State.setCore_past, (s.wordsOnly_groupReported (g / 16) (g % 16) o).1]
  rw [State.outputTaken, State.rdBytes_congr (s.outputWritten g c o) _ _ _ fun a _ _ => State.rdByte_setCore _ _ _ a]
  refine State.rdBytes_linesWritten _ (s.ownerN g) (c + 1) o.poisoned hapart (fun m hm i hi => ?_)
    (fun p hp m hm h1 h2 => Nat.lt_succ_of_le (hpast p (hsame ▸ hp) m hm h1 h2)) hl
  rw [State.mayAccess_setCore, (s.groupReported_grants g o).2]
  exact hmay m hm i hi

end

/-! ## Cycles of the write port -/

section

variable {s : State} {g c cyc : Nat} {o : VOut} {f : Flight}

theorem State.reportDue_of_one (houts : (s.core g).vec.outs = [o]) (hdue : o.due ≤ c) (hnew : o.offered = false) :
    s.reportDue g c = (s.groupReported (g / 16) (g % 16) o).setCore g ((s.core g).withOuts [{ o with offered := true }]) := by
  have hcore := (s.wordsOnly_groupReported (g / 16) (g % 16) o).core g
  unfold State.reportDue
  simp only [houts, hdue, hnew, decide_true, Bool.not_false, Bool.and_self, List.filter_cons_of_pos, List.filter_nil, List.foldl_cons, List.foldl_nil,
    List.map_cons, List.map_nil, if_true]
  show (s.groupReported (g / 16) (g % 16) o).setCore g (((s.groupReported (g / 16) (g % 16) o).core g).withOuts _) = _
  rw [hcore]

/-- The core as its card is told what an output has written in cycle `c`, with `rest` of its lines still to enter. -/
def CoreState.outputTold (y : CoreState) (c : Nat) (o : VOut) (rest : List (Nat × List Byte)) : CoreState :=
  let y := { y with vec := { y.vec with outs := if rest.isEmpty then y.vec.outs else y.vec.outs ++ [{ o with lines := rest }] } }
  match y.flight o.seq with
  | none => y
  | some f =>
    let f := if rest.isEmpty then { f with placedAt := Tab.put (fun _ => 0) f.placedAt o.iter (max (c + 1) (Tab.get (fun _ => 0) f.placedAt o.iter)) } else f
    y.setFlight (if rest.isEmpty && o.last then { f with relAt := stampAt f.relAt (itemKey o.slot 0 o.iter) (c + 1) } else f)

theorem State.portOutput_eq (s s' : State) (g c n : Nat) (o : VOut) :
    (s.portOutput g c (s', n) o).1 =
      let w := (s'.setCore g (offerLines c o.lines (s'.core g) n).1).linesWritten (s.ownerN g) (c + 1) o.poisoned
        (offerLines c o.lines (s'.core g) n).2.2.1
      w.setCore g ((w.core g).outputTold c o (offerLines c o.lines (s'.core g) n).2.2.2) := by
  rfl

theorem CoreState.outputTold_of_whole {y : CoreState} (h : y.flight o.seq = some f) : y.outputTold c o [] = y.setFlight (f.outputDone o (c + 1)) := by
  have hflight : CoreState.flight { y with vec := { y.vec with outs := y.vec.outs } } o.seq = some f := h
  unfold CoreState.outputTold
  simp only [List.isEmpty_nil, if_true, Bool.true_and, hflight]
  rfl

theorem State.ownerN_setCore (s : State) (g : Nat) (x : CoreState) (h : Nat) : (s.setCore g x).ownerN h = s.ownerN h := rfl

/-- An output whose lines all enter in one cycle. -/
theorem State.portOutput_of_enters {n : Nat} (hf : (s.core g).flight o.seq = some f) (hrest : (offerLines c o.lines (s.core g) n).2.2.2 = []) :
    (s.portOutput g c (s, n) o).1 =
      let x := (offerLines c o.lines (s.core g) n).1
      ((s.setCore g x).linesWritten (s.ownerN g) (c + 1) o.poisoned o.lines).setCore g (x.setFlight (f.outputDone o (c + 1))) := by
  have hflight : (offerLines c o.lines (s.core g) n).1.flight o.seq = some f := by
    unfold CoreState.flight at hf ⊢
    rw [(portOnly_offerLines c (s.core g) o.lines n).2.1]
    exact hf
  rw [State.portOutput_eq, hrest, offerLines_of_none_waits c (s.core g) hrest]
  dsimp only
  rw [(State.memoryOnly_linesWritten _ _ _ _ _).core, State.core_setCore_same, CoreState.outputTold_of_whole hflight]

/-- The one output of a core, whose lines all enter in the cycle. -/
theorem State.portCycle_of_one (houts : (s.core g).vec.outs = [o]) (hdue : o.due ≤ c) (hnew : o.offered = false)
    (hf : (s.core g).flight o.seq = some f) (hrest : (offerLines c o.lines (s.core g) 0).2.2.2 = []) :
    s.portCycle g c = s.outputTaken g c o f := by
  have hreport := State.reportDue_of_one houts hdue hnew
  unfold State.portCycle
  extract_lets s1 x due later _ s2 s3 y s4
  have hx : x = (s.core g).withOuts [{ o with offered := true }] := by
    show s1.core g = _
    rw [show s1 = _ from hreport, State.core_setCore_same]
  have hs2 : s2 = (s.groupReported (g / 16) (g % 16) o).setCore g ((s.core g).withOuts []) := by
    show s1.setCore g (x.withOuts []) = _
    rw [hx, show s1 = _ from hreport, State.setCore_setCore]
    rfl
  have hdues : due = [{ o with offered := true }] := by
    show sortBy _ (x.vec.outs.filter _) = _
    rw [hx]
    simp [CoreState.withOuts, hdue, sortBy, putBy]
  have hlater : later = [] := by
    show x.vec.outs.filter _ = _
    rw [hx]
    simp [CoreState.withOuts, hdue]
  have hcore2 : s2.core g = (s.core g).withOuts [] := by rw [hs2, State.core_setCore_same]
  have howner2 : s2.ownerN g = s.ownerN g := by rw [hs2, State.ownerN_setCore, (s.groupReported_grants g o).1]
  have hentered : (offerLines c o.lines (s2.core g) 0).1 = (s.core g).outputEntered c o := by rw [hcore2, offerLines_withOuts]; rfl
  have hs3 : s3 = (s.outputWritten g c o).setCore g (((s.core g).outputEntered c o).setFlight (f.outputDone o (c + 1))) := by
    have hwaits : (offerLines c o.lines (s2.core g) 0).2.2.2 = [] := by rw [hcore2, offerLines_withOuts]; exact hrest
    have hflight : (s2.core g).flight o.seq = some f := by rw [hcore2]; exact hf
    show (due.foldl (s2.portOutput g c) (s2, 0)).1 = _
    rw [hdues]
    refine (State.portOutput_of_enters (o := { o with offered := true }) hflight hwaits).trans ?_
    dsimp only
    rw [hentered, howner2, hs2, State.setCore_setCore]
    rfl
  have hy : y = ((s.core g).outputEntered c o).setFlight (f.outputDone o (c + 1)) := by
    show s3.core g = _
    rw [hs3, State.core_setCore_same]
  have hs4 : s4 = s3 := by
    show (if y.vec.outs.isEmpty then s3 else _) = s3
    rw [hy]
    rfl
  show s4.setCore g { s4.core g with vec := { y.vec with outs := y.vec.outs ++ later, portAt := c + 1 } } = _
  rw [hs4, hlater, hy, hs3, State.setCore_setCore, State.core_setCore_same]
  rfl

/-- A write port without an output has nothing to do. -/
theorem State.portTo_of_empty (houts : (s.core g).vec.outs = []) : s.portTo g cyc = s := by
  unfold State.portTo
  cases cyc - (s.core g).vec.portAt with
  | zero => rfl
  | succ n => simp [State.portRun, houts]

/-- The write port of a core with one output, all of whose lines enter in their first cycle. -/
theorem State.portTo_of_one (houts : (s.core g).vec.outs = [o]) (hnew : o.offered = false) (hf : (s.core g).flight o.seq = some f)
    (hc : c = max (s.core g).vec.portAt o.due) (hle : c < cyc) (hrest : (offerLines c o.lines (s.core g) 0).2.2.2 = []) :
    s.portTo g cyc = s.outputTaken g c o f := by
  have hcycle := State.portCycle_of_one houts (by omega) hnew hf hrest
  have hafter : ((s.outputTaken g c o f).core g).vec.outs = [] := by rw [State.core_outputTaken]; rfl
  have hfirst : max (s.core g).vec.portAt (min cyc o.due) = c := by omega
  unfold State.portTo
  obtain ⟨n, hn⟩ : ∃ n, cyc - (s.core g).vec.portAt = n + 1 := ⟨cyc - (s.core g).vec.portAt - 1, by omega⟩
  have hgoes : ¬cyc ≤ (s.core g).vec.portAt := by omega
  rw [hn]
  simp only [State.portRun, houts, List.map_cons, List.map_nil, List.foldl_cons, List.foldl_nil, hfirst, List.isEmpty_cons, hgoes, hle.not_ge,
    decide_false, Bool.or_self, Bool.false_eq_true, if_false]
  rw [hcycle]
  cases n with
  | zero => rfl
  | succ n => simp [State.portRun, hafter]

end

end Sys2Proof.Machine
end

/-! GROUP_OUTPUT (05_vector_engine.md R142, R143, R147, R148; 07_layer_cards.md R197). -/

section

namespace Sys2Proof.Machine

/-! ## Iterations whose outputs are written (R197) -/

/-- The state in which the iteration of core `g` that is done in cycle `cyc`, if there is one, has given its signals. -/
def State.iterationGiven (s : State) (g t cyc : Nat) : State :=
  match (s.core g).iterDone cyc with
  | none => s
  | some f => if s.signalsFit g f.card 2 then (s.setFlight g { f with done := f.done + 1 }).giveSignals g f.card 2 t else s

/-- Nothing differs but the cards in flight of core `g`. -/
def State.FlightsOnly (s u : State) (g : Nat) : Prop :=
  u = { s with cores := u.cores } ∧ (∀ h, h ≠ g → u.core h = s.core h) ∧ u.core g = { s.core g with flights := (u.core g).flights }

section

variable {s u : State} {g t cyc : Nat} {f : Flight}

theorem groupOutput_eq (hrun : s.dieRuns (g / 16) t = true) (hcyc : cyc = s.engCycle (g / 16) t) :
    groupOutput g t s = ((s.meshTo (g / 16) cyc).portTo g (cyc + 1)).iterationGiven g t cyc := by
  subst hcyc
  have hgoes : ¬(!s.dieRuns (g / 16) t) = true := by simp [hrun]
  unfold groupOutput
  dsimp only
  rw [if_neg hgoes]
  rfl

theorem CoreState.mem_of_iterDone {c : CoreState} (h : c.iterDone cyc = some f) : f ∈ c.flights ∧ cardOp f.card = 2 := by
  have hf := List.find?_some h
  simp only [Bool.and_eq_true, beq_iff_eq] at hf
  obtain ⟨⟨⟨⟨⟨hop, -⟩, -⟩, -⟩, -⟩, -⟩ := hf
  exact ⟨List.mem_of_find?_eq_some h, hop⟩

theorem State.flightsOnly_setFlight (s : State) (g : Nat) (f : Flight) : s.FlightsOnly (s.setFlight g f) g := by
  refine ⟨rfl, fun h hh => State.core_setCore_other _ _ _ _ hh, ?_⟩
  unfold State.setFlight
  rw [State.core_setCore_same]
  rfl

theorem State.core_setFlight (s : State) (g : Nat) (f : Flight) : (s.setFlight g f).core g = (s.core g).setFlight f := State.core_setCore_same _ _ _

theorem State.iterationGiven_of_quiet (h : (s.core g).iterDone cyc = some f) (hquiet : quietCard f.card 2) :
    s.iterationGiven g t cyc = s.setFlight g { f with done := f.done + 1 } := by
  unfold State.iterationGiven
  rw [h]
  dsimp only
  rw [if_pos (s.signalsFit_of_quiet g hquiet), State.giveSignals_of_quiet _ g t hquiet]

/-- An iteration that is done, of a core whose cards give no signals with it, is counted in its card and changes nothing else. -/
theorem State.iterationGiven_counts (hquiet : ∀ f, f ∈ (s.core g).flights → cardOp f.card = 2 → quietCard f.card 2) :
    s.FlightsOnly (s.iterationGiven g t cyc) g
      ∧ ∀ q f, (s.core g).flight q = some f → (∀ x, x ∈ (s.core g).flights → x.seq = q → x = f) →
        ∃ n, ((s.iterationGiven g t cyc).core g).flight q = some { f with done := n } := by
  cases hdone : (s.core g).iterDone cyc with
  | none =>
    have heq : s.iterationGiven g t cyc = s := by unfold State.iterationGiven; rw [hdone]
    rw [heq]
    exact ⟨⟨rfl, fun _ _ => rfl, rfl⟩, fun q f hf _ => ⟨f.done, hf⟩⟩
  | some x =>
    obtain ⟨hmem, hop⟩ := CoreState.mem_of_iterDone hdone
    rw [State.iterationGiven_of_quiet hdone (hquiet x hmem hop)]
    refine ⟨State.flightsOnly_setFlight _ _ _, fun q f hf hunique => ?_⟩
    rw [State.core_setFlight]
    by_cases hq : x.seq = q
    · obtain rfl := hunique x hmem hq
      subst hq
      exact ⟨_, CoreState.flight_setFlight_same (f' := { x with done := x.done + 1 }) hf⟩
    · exact ⟨f.done, (CoreState.flight_setFlight_other (f := { x with done := x.done + 1 }) (Ne.symm hq)).trans hf⟩

theorem CoreState.mem_setFlight {c : CoreState} {x : Flight} (h : x ∈ (c.setFlight f).flights) : x = f ∨ (x ∈ c.flights ∧ x.seq ≠ f.seq) := by
  obtain ⟨y, hy, rfl⟩ := List.mem_map.1 h
  by_cases hseq : y.seq = f.seq
  · exact .inl (if_pos hseq)
  · rw [if_neg hseq]
    exact .inr ⟨hy, hseq⟩

theorem CoreState.mem_of_flight {c : CoreState} {q : Nat} (h : c.flight q = some f) : f ∈ c.flights := List.mem_of_find?_eq_some h

/-- Numbered cards are found by their numbers. -/
theorem CoreState.flight_of_mem {c : CoreState} (hnum : c.Numbered) (hf : f ∈ c.flights) : c.flight f.seq = some f := by
  obtain ⟨hrise, -⟩ := hnum
  unfold CoreState.flight
  generalize c.flights = l at hf hrise
  induction l with
  | nil => exact absurd hf List.not_mem_nil
  | cons x l ih =>
    obtain ⟨hx, hrise⟩ := List.pairwise_cons.1 hrise
    obtain rfl | hf := List.mem_cons.1 hf
    · exact List.find?_cons_of_pos (beq_self_eq_true _)
    · rw [List.find?_cons_of_neg (by simpa using (hx f hf).ne)]
      exact ih hf hrise

end

end Sys2Proof.Machine
end

/-! A signal given on its own die (07_layer_cards.md R196; 08_flags_ordering_interlocks.md R220). -/

section

namespace Sys2Proof.Machine

/-! ## The flag file -/

/-- Nothing but the flags, the records of dies and partitions, the copies of windows, and registers differs. -/
def State.FlagsOnly (s u : State) : Prop :=
  u = { s with flags := u.flags, dies := u.dies, parts := u.parts, hour := u.hour, regs := u.regs }

section

variable {s t u : State}


theorem State.FlagsOnly.trans (h : s.FlagsOnly t) (h' : t.FlagsOnly u) : s.FlagsOnly u := by
  unfold State.FlagsOnly at *
  rw [h', h]

theorem State.FlagsOnly.core (h : s.FlagsOnly u) (g : Nat) : u.core g = s.core g := State.core_congr (by rw [h]) g

theorem State.FlagsOnly.ctrs (h : s.FlagsOnly u) : u.ctrs = s.ctrs := by rw [h]

theorem State.FlagsOnly.sameBytes (h : s.FlagsOnly u) : s.SameBytes u := .of_mem (by rw [h]) (by rw [h])

end

section

variable (s : State)

theorem State.makeCopies_keeps (p : Nat × Nat × Nat → Bool) : s.FlagsOnly (s.makeCopies p) ∧ (s.makeCopies p).flags = s.flags
    ∧ (s.makeCopies p).dies = s.dies := by
  have hcopy : ∀ (u : State) d n, u.FlagsOnly (u.copyWindows d n) ∧ (u.copyWindows d n).flags = u.flags ∧ (u.copyWindows d n).dies = u.dies :=
    fun u d n => by
      unfold State.copyWindows
      split
      · exact ⟨rfl, rfl, rfl⟩
      · exact ⟨rfl, rfl, rfl⟩
  unfold State.makeCopies
  extract_lets l
  split
  · exact ⟨rfl, rfl, rfl⟩
  · refine List.foldlRecOn l _ (motive := fun u : State => s.FlagsOnly u ∧ u.flags = s.flags ∧ u.dies = s.dies) ⟨rfl, rfl, rfl⟩ fun u hu e _ => ?_
    obtain ⟨hshape, hflags, hdies⟩ := hu
    obtain ⟨hshape', hflags', hdies'⟩ := hcopy u e.1 e.2.1
    exact ⟨hshape.trans hshape', hflags'.trans hflags, hdies'.trans hdies⟩

/-- A new cycle of a flag file: no flag changes and no cell of it has an operation yet. -/
theorem State.flagCycle_new {d t : Nat} (h : (s.die d).flagT ≠ t) : s.FlagsOnly (s.flagCycle d t) ∧ (s.flagCycle d t).flags = s.flags
    ∧ ((s.flagCycle d t).die d).flagCells = [] := by
  unfold State.flagCycle
  rw [if_neg h]
  extract_lets u
  obtain ⟨hshape, hflags, -⟩ := s.makeCopies_keeps (fun e => e.1 == d && decide (e.2.2 ≤ t))
  exact ⟨hshape.trans rfl, hflags, congrArg DieState.flagCells (Tab.get_put_same _ _ _ _)⟩

theorem State.WordsOnly.flagsOnly {s u : State} {f : Nat → Bool} (h : s.WordsOnly u f) : s.FlagsOnly u ∧ ∀ k, u.flag k = s.flag k := by
  obtain ⟨hshape, -⟩ := h
  unfold State.FlagsOnly State.flag
  rw [hshape]
  exact ⟨rfl, fun _ => rfl⟩

theorem State.setFlagCell_keeps (k : Nat) (x : FlagCell) : s.FlagsOnly (s.setFlagCell k x)
    ∧ ∀ j, (s.setFlagCell k x).flag j = if j = k then x.result else s.flag j := by
  have hput : ∀ (v : DieState) j, ((s.setDie (k / 1024) v).putFlag k x.result).flag j = if j = k then x.result else s.flag j := fun v j =>
    Tab.get_put _ _ _ _ _
  have hwords : ∀ {u v : State} {f}, s.FlagsOnly u ∧ (∀ j, u.flag j = if j = k then x.result else s.flag j) → u.WordsOnly v f →
      s.FlagsOnly v ∧ ∀ j, v.flag j = if j = k then x.result else s.flag j := fun hu huv => by
    obtain ⟨hshape, hflag⟩ := huv.flagsOnly
    exact ⟨hu.1.trans hshape, fun j => (hflag j).trans (hu.2 j)⟩
  unfold State.setFlagCell
  extract_lets d c old _ celled put y counted
  have hcell : s.FlagsOnly put ∧ ∀ j, put.flag j = if j = k then x.result else s.flag j := ⟨rfl, hput _⟩
  have hcounted := hwords (v := counted) hcell (put.wordsOnly_sf64 (Reg.cdFlagCount d c) 32 32 _)
  split_ifs
  · exact hcell
  · exact hwords hcounted (counted.wordsOnly_sf32 (Reg.cdFlagStatus d) _ _ _)
  · exact hwords hcounted (counted.wordsOnly_sf32 (Reg.cdFlagStatus d) _ _ _)

/-- The first operation on a flag in a cycle is what the flag becomes. -/
theorem State.updFlag_first {k t : Nat} (b : Bool) (h : (s.die (k / 1024)).flagT ≠ t) : s.FlagsOnly (s.updFlag k t b)
    ∧ ∀ j, (s.updFlag k t b).flag j = if j = k then b else s.flag j := by
  obtain ⟨hshape, hflags, hcells⟩ := s.flagCycle_new h
  have hcell : (s.flagCycle (k / 1024) t).flagCell k = ⟨s.flag k, s.flag k, 0, 0⟩ := by
    have hflag : (s.flagCycle (k / 1024) t).flag k = s.flag k := by
      unfold State.flag
      rw [hflags]
    unfold State.flagCell
    rw [hcells, ← hflag]
    rfl
  unfold State.updFlag
  extract_lets u x
  obtain ⟨hshape', hflag'⟩ := u.setFlagCell_keeps k (if b then { x with sets := x.sets + 1 } else { x with clears := x.clears + 1 })
  refine ⟨hshape.trans hshape', fun j => (hflag' j).trans ?_⟩
  have hx : x = ⟨s.flag k, s.flag k, 0, 0⟩ := hcell
  have hrest : u.flag j = s.flag j := by
    unfold State.flag
    rw [show u.flags = s.flags from hflags]
  rw [hx, hrest]
  cases b with
  | false => rfl
  | true => rfl

end

/-! ## A card whose first signal alone is valid -/

theorem entryKey_die {lc index : Nat} (hi : index < 256) : entryKey lc index / 1024 = lc / 16 := by
  unfold entryKey flagKey
  omega

section

variable (s : State) {g card when' : Nat} (hwhen : fld (cardSignal card 0) 61 2 = when') (hvalid : bitAt (cardSignal card 0) 63 = true)
  (hrest : ∀ i, 0 < i → i < 4 → bitAt (cardSignal card i) 63 = false) (hnear : bitAt (cardSignal card 0) 60 = false)
  (hdie : fld (cardSignal card 0) 51 7 / 16 = g / 16)

include hrest hnear hdie in
/-- A signal on its own die needs no room on the way. -/
theorem State.signalsFit_of_near : s.signalsFit g card when' = true := by
  have hends : s.signalEnds g card when' = [] := by
    unfold State.signalEnds
    rw [List.filterMap_eq_nil_iff]
    intro i hi
    cases i with
    | zero => simp [hnear, hdie]
    | succ i => simp [hrest (i + 1) (Nat.succ_pos i) (List.mem_range.1 hi)]
  unfold State.signalsFit State.signalLack
  rw [hends]
  rfl

include hwhen hvalid hrest in
theorem State.giveSignals_of_first (t : Nat) : s.giveSignals g card when' t = s.giveSignal g (cardSignal card 0) t := by
  have hfour : List.range 4 = [0, 1, 2, 3] := rfl
  unfold State.giveSignals
  simp [hfour, hvalid, hwhen, hrest]

include hwhen hvalid hrest hnear hdie in
/-- A flag that the signal sets or clears first in its cycle. -/
theorem State.giveSignals_flag {t : Nat} (hkind : fld (cardSignal card 0) 58 1 = 0) (hnew : (s.die (g / 16)).flagT ≠ t) :
    s.FlagsOnly (s.giveSignals g card when' t) ∧ ∀ k, (s.giveSignals g card when' t).flag k =
      if k = entryKey (fld (cardSignal card 0) 51 7) (fld (cardSignal card 0) 32 8) then fld (cardSignal card 0) 59 1 == 0 else s.flag k := by
  have hkey : entryKey (fld (cardSignal card 0) 51 7) (fld (cardSignal card 0) 32 8) / 1024 = g / 16 := (entryKey_die (fld_lt _ _ _)).trans hdie
  have hgive : s.giveSignals g card when' t
      = s.updFlag (entryKey (fld (cardSignal card 0) 51 7) (fld (cardSignal card 0) 32 8)) t (fld (cardSignal card 0) 59 1 == 0) := by
    rw [s.giveSignals_of_first hwhen hvalid hrest t, State.giveSignal]
    simp [hnear, hdie, hkind, State.signalHere]
  rw [hgive]
  exact s.updFlag_first _ (by rw [hkey]; exact hnew)

end

end Sys2Proof.Machine
end

/-! GROUP_ENTRY (05_vector_engine.md R126, R141, R142, R143, R229). -/

section

namespace Sys2Proof.Machine

/-! ## What a group gives -/

/-- A card with an element output, without MX blocks and without a reduction, gives one output a group. -/
theorem groupOuts_of_element {card slot : Nat} (hout : vRole card 4 = some slot) (hmx : isMx (vTypeOut card) = false) (hred : vRedOp card = 0)
    (g seq pos n k cyc : Nat) (blocks : List (List Block × VEv)) (red : RedRun) (scales : List Byte) (bad : Bool) :
    ∃ o, (groupOuts g card seq pos n k cyc blocks red scales bad).1 = [o] ∧ o.seq = seq ∧ o.iter = n ∧ o.due = cyc + 7 + vLambda card
      ∧ o.offered = false ∧ o.slot = slot ∧ o.last = (k + 1 == vGroups card)
      ∧ o.lines = placeBytes g card slot n (8 * k * 4 * vWidth (vTypeOut card))
        (vPack card n k pos (blocks.map (fun b => (b.1[vOutSrc card]?).getD (constBlock 0 0 false)))).1 := by
  unfold groupOuts
  simp only [hout, hmx, hred, if_true, Option.isSome_some, Option.getD_some, Bool.false_and, Bool.false_eq_true, if_false, List.isEmpty_nil,
    List.append_nil, Bool.not_false, Bool.and_true]
  exact ⟨_, rfl, rfl, rfl, rfl, rfl, rfl, rfl, rfl⟩

/-- Recording bytes for the digest leaves the rest of the card. -/
theorem Flight.records_keep (l : List (Nat × List Byte)) (n : Nat) (f : Flight) :
    (l.foldl (fun f x => f.record n x.1 0 x.2) f).seq = f.seq ∧ (l.foldl (fun f x => f.record n x.1 0 x.2) f).started = f.started :=
  List.foldlRecOn l _ (motive := fun v : Flight => v.seq = f.seq ∧ v.started = f.started) ⟨rfl, rfl⟩ fun _ h _ _ => h

/-- The vector engine as group `k` of iteration `n` of a card enters in cycle `cyc`, with its outputs, reduction and scale bytes. -/
def VectorEngine.entered (v : VectorEngine) (card n k cyc : Nat) (once : Tab (List Byte)) (outs : List VOut) (red : RedRun) (scales : List Byte) :
    VectorEngine :=
  let lastG := k + 1 == vGroups card
  let lastI := n + 1 == cardIters card
  { v with
    due := cyc + vCycles card, outs := v.outs ++ outs, red := red, scales := scales, bcast := if lastG && lastI then [] else once,
    group := if lastG then 0 else k + 1, iter := if lastG then (if lastI then 0 else n + 1) else n,
    run := if lastG && lastI then v.wait else v.run, wait := if lastG && lastI then none else v.wait,
    movedAt := if lastG && lastI && v.wait.isSome then some cyc else v.movedAt }

section

variable (v : VectorEngine) (card n k cyc : Nat) (once : Tab (List Byte)) (outs : List VOut) (red : RedRun) (scales : List Byte)

theorem VectorEngine.entered_next (h : k + 1 ≠ vGroups card) :
    (v.entered card n k cyc once outs red scales).group = k + 1 ∧ (v.entered card n k cyc once outs red scales).iter = n
      ∧ (v.entered card n k cyc once outs red scales).run = v.run ∧ (v.entered card n k cyc once outs red scales).bcast = once := by
  simp [VectorEngine.entered, h]

theorem VectorEngine.entered_iteration (h : k + 1 = vGroups card) (hn : n + 1 ≠ cardIters card) :
    (v.entered card n k cyc once outs red scales).group = 0 ∧ (v.entered card n k cyc once outs red scales).iter = n + 1
      ∧ (v.entered card n k cyc once outs red scales).run = v.run ∧ (v.entered card n k cyc once outs red scales).bcast = once := by
  simp [VectorEngine.entered, h, hn]

theorem VectorEngine.entered_card (h : k + 1 = vGroups card) (hn : n + 1 = cardIters card) :
    (v.entered card n k cyc once outs red scales).group = 0 ∧ (v.entered card n k cyc once outs red scales).iter = 0
      ∧ (v.entered card n k cyc once outs red scales).run = v.wait ∧ (v.entered card n k cyc once outs red scales).wait = none := by
  simp [VectorEngine.entered, h, hn]

end

/-! ## The items of an iteration -/

/-- The state in which the items of iteration `n` of a card of core `g` have been checked at noon cycle `t` (R171). -/
def State.itemsChecked (s : State) (g t card n : Nat) : State :=
  (upto 4 (fun i => (slotUse card i).isSome)).foldl (fun s i =>
    s.checkBounds t (s.ownerN g) (slotUse card i == some true) ((List.range (descRun (cardDesc card i))).map (itemAddr card i n (g, 0)))) s

/-- The items of iteration `n` of a card lie where partition `m` may read and write them. -/
def State.ItemsOpen (s : State) (m g card n : Nat) : Prop :=
  ∀ i, i < 4 → ∀ w, slotUse card i = some w →
    (w = false → s.MayRead m ((List.range (descRun (cardDesc card i))).map (itemAddr card i n (g, 0))))
      ∧ (w = true → ∀ b, b < descRun (cardDesc card i) → s.mayAccess m true (itemAddr card i n (g, 0) b) = true)

theorem State.itemsChecked_of_open {s : State} {g card n : Nat} (t : Nat) (h : s.ItemsOpen (s.ownerN g) g card n) :
    s.itemsChecked g t card n = s := by
  refine foldl_eq_self fun i hi => ?_
  rw [upto, List.mem_filter, List.mem_range, Option.isSome_iff_exists] at hi
  obtain ⟨hlt, w, hw⟩ := hi
  obtain ⟨hread, hwrite⟩ := h i hlt w hw
  rw [hw]
  cases w with
  | false => exact s.checkBounds_of_mayRead t _ (hread rfl)
  | true =>
    refine s.checkBounds_of_mayWrite t _ fun a ha => ?_
    obtain ⟨b, hb, rfl⟩ := List.mem_map.1 ha
    exact hwrite rfl b (List.mem_range.1 hb)

/-! ## The limiter -/

/-- Which bytes a partition may access depends on its cores and the ranges of the byte's die alone. -/
theorem State.mayAccess_congr {s u : State} {n a : Nat} (hmem : u.members n = s.members n)
    (hrange : ∀ r, r ∈ [Reg.cdPbbShm (addrDie a) n, Reg.cdPbbCore (addrDie a) n, Reg.cdCommonShm (addrDie a)] → u.r64 r = s.r64 r) (w : Bool) :
    u.mayAccess n w a = s.mayAccess n w a := by
  have hfield : ∀ r, r ∈ [Reg.cdPbbShm (addrDie a) n, Reg.cdPbbCore (addrDie a) n, Reg.cdCommonShm (addrDie a)] →
      ∀ lo x, u.f64 r lo x = s.f64 r lo x := fun r hr lo x => by
    unfold State.f64
    rw [hrange r hr]
  have hshm := hfield (Reg.cdPbbShm (addrDie a) n) (by simp)
  have hcore := hfield (Reg.cdPbbCore (addrDie a) n) (by simp)
  have hcommon := hfield (Reg.cdCommonShm (addrDie a)) (by simp)
  unfold State.mayAccess State.hasCoreOn
  simp only [hmem, hshm, hcore, hcommon]

section

variable {s u : State} {d : Nat} (h : s.SameRegsBut u (rampRegs d))

include h

theorem State.members_of_ramp (n : Nat) : u.members n = s.members n := by
  refine State.rWide_congr s u _ 4 fun b h1 h2 => h b ?_
  have hfar : b ≠ Reg.cdRamp d ∧ b ≠ Reg.cdClkCount d ∧ b ≠ Reg.cdClkCount d + 4 := by
    unfold Reg.topPartMember Reg.cdRamp Reg.cdClkCount Reg.dieBase at *
    omega
  obtain ⟨hramp, hclk, hclk4⟩ := hfar
  simp [rampRegs, pairOf_false hclk hclk4, hramp]

/-- The limiter of a die changes nothing that says what a partition may access. -/
theorem State.ramp_grants (g : Nat) : u.ownerN g = s.ownerN g ∧
    ∀ w a, u.mayAccess (s.ownerN g) w a = s.mayAccess (s.ownerN g) w a := by
  have hrange : ∀ x a, (x = 0x18 ∨ 0x1000 ≤ x ∧ x < 0x2000) →
      rampRegs d (Reg.dieBase (addrDie a) + x) = false ∧
      rampRegs d (Reg.dieBase (addrDie a) + x + 4) = false :=
    fun x a hx => by
      unfold rampRegs pairOf Reg.cdRamp Reg.cdClkCount Reg.dieBase
      simp only [Bool.or_eq_false_iff, beq_eq_false_iff_ne]
      omega
  have hn := s.ownerN_le g
  refine ⟨?_, fun w a => State.mayAccess_congr (State.members_of_ramp h _) (fun r hr => ?_) w⟩
  · have hmem : ∀ i ∈ List.range 64, bitAt (u.members i) g = bitAt (s.members i) g := fun i _ => by
      rw [State.members_of_ramp h i]
    unfold State.ownerN State.owner
    rw [List.find?_congr hmem]
  · have hr64 : ∀ x, (x = 0x18 ∨ 0x1000 ≤ x ∧ x < 0x2000) → r = Reg.dieBase (addrDie a) + x → u.r64 r = s.r64 r := fun x hx hrx =>
      hrx ▸ State.r64_of_sameRegs h (hrange x a hx).1 (hrange x a hx).2
    simp only [List.mem_cons, List.not_mem_nil, or_false] at hr
    obtain rfl | rfl | rfl := hr
    · exact hr64 (0x1000 + 0x20 * s.ownerN g) (by omega) (by unfold Reg.cdPbbShm; omega)
    · exact hr64 (0x1008 + 0x20 * s.ownerN g) (by omega) (by unfold Reg.cdPbbCore; omega)
    · exact hr64 0x18 (by omega) rfl

end

/-- Nothing but the power state and the limiter's registers of die `d` differs. -/
def State.RampOnly (s u : State) (d : Nat) : Prop := u = { s with regs := u.regs, power := u.power } ∧ s.SameRegsBut u (rampRegs d)

theorem State.RampOnly.trans {s t u : State} {d : Nat} (h : s.RampOnly t d) (h' : t.RampOnly u d) : s.RampOnly u d := by
  obtain ⟨hshape, hregs⟩ := h
  obtain ⟨hshape', hregs'⟩ := h'
  refine ⟨?_, hregs.trans hregs'⟩
  rw [hshape', hshape]

theorem State.WordsOnly.rampOnly {s u : State} {d : Nat} (h : s.WordsOnly u (rampRegs d)) : s.RampOnly u d := by
  refine ⟨?_, h.2⟩
  rw [h.1]

theorem State.rampOnly_setRamp (s : State) (d : Nat) (r : Ramp) : s.RampOnly (s.setRamp d r) d := ⟨rfl, fun _ _ => rfl⟩

theorem State.rampOnly_rampVector (s : State) (d c t last : Nat) : s.RampOnly (s.rampVector d c t last) d := by
  have hcount : ∀ (u : State) k, u.RampOnly (u.count64 (Reg.cdClkCount d) 0 24 k) d := fun u k =>
    ((u.wordsOnly_count64 _ _ _ _).mono fun a ha => by simp [rampRegs, ha]).rampOnly
  have hload : ∀ (u : State) x, u.RampOnly (u.sf32 (Reg.cdRamp d) 0 11 x) d := fun u x =>
    ((u.wordsOnly_sf32 _ _ _ _).mono fun a ha => by simp [rampRegs, ha]).rampOnly
  have hto : s.RampOnly (s.rampTo d t) d := ((s.rampOnly_setRamp d _).trans (hcount _ _)).trans (hload _ _)
  exact hto.trans (State.rampOnly_setRamp _ _ _)

/-- Items that are open to the partition are open as a group has entered and the limiter has counted it. -/
theorem State.itemsChecked_of_ramp {y u : State} {g d card n : Nat} {v : CoreState} (t : Nat) (hramp : (y.setCore g v).RampOnly u d)
    (hopen : y.ItemsOpen (y.ownerN g) g card n) : u.itemsChecked g t card n = u := by
  obtain ⟨hshape, hregs⟩ := hramp
  obtain ⟨howner, haccess⟩ := State.ramp_grants hregs g
  rw [State.ownerN_setCore] at howner haccess
  have hsoft : ∀ a, u.isSoft a = y.isSoft a := fun a => by
    rw [hshape]
    rfl
  have hmay : ∀ w a, u.mayAccess (y.ownerN g) w a = y.mayAccess (y.ownerN g) w a := fun w a => by
    rw [haccess, State.mayAccess_setCore]
  refine State.itemsChecked_of_open t ?_
  rw [howner]
  intro i hi w hw
  obtain ⟨hread, hwrite⟩ := hopen i hi w hw
  refine ⟨fun h a ha => ?_, fun h b hb => ?_⟩
  · rw [hmay, hsoft]
    exact hread h a ha
  · rw [hmay]
    exact hwrite h b hb

/-! ## The entry of a group -/

section

variable {s y : State} {g t n k cyc : Nat} {f : Flight} {once : Tab (List Byte)}

theorem CoreState.flight_of_nextGroup {c : CoreState} (h : c.nextGroup = some (f, n, k)) : c.flight f.seq = some f := by
  unfold CoreState.nextGroup at h
  split at h
  · exact absurd h nofun
  next q hq =>
    split at h
    next x hx =>
      obtain ⟨rfl, -, -⟩ : x = f ∧ c.vec.iter = n ∧ c.vec.group = k := by simpa using h
      exact CoreState.seq_of_flight hx ▸ hx
    · exact absurd h nofun

/-- Core `c` with vector engine `v`, the reads `r` of it and flight `f`. -/
def CoreState.withGroup (c : CoreState) (v : VectorEngine) (r : List (Nat × Nat)) (f : Flight) : CoreState :=
  CoreState.setFlight { c with vec := v, vecReads := r } f

variable (hcyc : cyc = s.engCycle (g / 16) t) (hgoes : s.dieRuns (g / 16) t = true) (hy : y = (s.meshTo (g / 16) cyc).portTo g (cyc + 1))
  (hrun : y.dieRuns (g / 16) t = true) (hnext : (y.core g).nextGroup = some (f, n, k)) (hdue : (y.core g).vec.due ≤ cyc)
  (hissue : n = 0 → k = 0 → f.issue < cyc) (hheld : (y.core g).groupHeld f n k cyc = false) (hroom : (y.core g).vec.holdCount < 4)
  (honce : once = if n = 0 ∧ k = 0 then y.readOnce g f.card cyc else (y.core g).vec.bcast)

include hcyc hgoes hy hrun hnext hdue hissue hheld hroom honce

/-- A group enters: the core moves on and the limiter counts it. -/
theorem groupEntry_eq (hopen : k = 0 → y.ItemsOpen (y.ownerN g) g f.card n) : ∃ bad r x f', f'.seq = f.seq ∧ f'.started = f.started + 1
    ∧ x = groupOuts g f.card f.seq f.pos n k cyc (y.vGroup g f.card n k cyc once) (y.core g).vec.red (y.core g).vec.scales bad
    ∧ groupEntry g t s = (y.setCore g (((y.core g).settle ((y.mesh (g / 16)).settled cyc)).withGroup
      ((y.core g).vec.entered f.card n k cyc once x.1 x.2.2.1 x.2.2.2) r f')).rampVector (g / 16) (g % 16) t (t + 6 + vLambda f.card) := by
  have hfirst : (n == 0 && k == 0) = decide (n = 0 ∧ k = 0) := by cases n <;> cases k <;> rfl
  subst hcyc
  unfold groupEntry
  extract_lets d cyc s1 c v settled
  have hs1 : s1 = y := by
    show (if s.dieRuns d t then _ else s) = y
    rw [if_pos hgoes, hy]
  have hc : c = y.core g := by show s1.core g = _; rw [hs1]
  clear_value s1 c
  subst hs1 hc
  rw [hnext]
  dsimp -zeta only
  extract_lets card due first read lines addr onceAddrs bad lastG lastI v' own stamps f1 f2 c' z
  have hready : ¬(!s1.dieRuns d t || decide (cyc < due) || (s1.core g).groupHeld f n k cyc
      || ((vRole card 4).isSome && decide (4 ≤ v.holdCount))) = true := by
    have hlate : due ≤ cyc := by
      show (if n = 0 ∧ k = 0 then max v.due (f.issue + 1) else v.due) ≤ cyc
      split
      next h => exact max_le hdue (hissue h.1 h.2)
      · exact hdue
    simp only [show (s1.core g).groupHeld f n k cyc = false from hheld, hlate.not_gt, show s1.dieRuns d t = true from hrun,
      Nat.not_le.2 (show v.holdCount < 4 from hroom), decide_false]
    simp
  rw [if_neg hready]
  have hread : read = once := by
    show (if first = true then _ else _) = once
    rw [honce, show first = decide (n = 0 ∧ k = 0) from hfirst]
    by_cases h : n = 0 ∧ k = 0
    · rw [if_pos h, if_pos (decide_eq_true h)]
    · rw [if_neg h, if_neg (by simpa using h)]
  clear_value read
  subst hread
  obtain ⟨hseq, hstarted⟩ := f1.records_keep
    (groupOuts g card f.seq f.pos n k cyc (s1.vGroup g card n k cyc read) v.red v.scales bad).2.1 n
  have hramp : (s1.setCore g (c'.setFlight f2)).RampOnly z d := State.rampOnly_rampVector _ _ _ _ _
  have hchecked : (if k = 0 then z.itemsChecked g t card n else z) = z := by
    split
    next hk => exact State.itemsChecked_of_ramp t hramp (hopen hk)
    · rfl
  exact ⟨bad, c'.vecReads, _, f2, hseq, hstarted, rfl, hchecked⟩

end

end Sys2Proof.Machine
end

/-! The vector engine's groups: their entry, their outputs and the iterations that they end (05_vector_engine.md R141 to R148). -/

section

namespace Sys2Proof.Machine

/-! ## The groups of a core -/

section

variable {s y : State} {g t cyc c0 : Nat} {o : VOut} {f : Flight}

/-- The write port through a cycle by which all lines of the core's one output have entered, where no card signals with an iteration. -/
theorem groupOutput_writes (hgoes : s.dieRuns (g / 16) t = true) (hcyc : cyc = s.engCycle (g / 16) t) (hy : y = s.meshTo (g / 16) cyc)
    (houts : (y.core g).vec.outs = [o]) (hf : (y.core g).flight o.seq = some f) (hnew : o.offered = false)
    (hquiet : ∀ h, h ∈ (y.core g).flights → cardOp h.card = 2 → quietCard h.card 2) (hc : c0 = max (y.core g).vec.portAt o.due) (hle : c0 ≤ cyc)
    (hrest : (offerLines c0 o.lines (y.core g) 0).2.2.2 = []) :
    (y.outputTaken g c0 o f).FlightsOnly (groupOutput g t s) g
      ∧ ∃ n, ((groupOutput g t s).core g).flight o.seq = some { f.outputDone o (c0 + 1) with done := n } := by
  have hcore := y.core_outputTaken g c0 o f
  obtain ⟨hseq, hcard, -⟩ := f.outputDone_fields o (c0 + 1)
  have hoseq : (f.outputDone o (c0 + 1)).seq = o.seq := hseq.trans (CoreState.seq_of_flight hf)
  have hmem : ∀ x, x ∈ ((y.outputTaken g c0 o f).core g).flights →
      x = f.outputDone o (c0 + 1) ∨ (x ∈ (y.core g).flights ∧ x.seq ≠ o.seq) := fun x hx => by
    rw [hcore, CoreState.flights_outputTaken] at hx
    rw [← hoseq]
    exact CoreState.mem_setFlight hx
  rw [groupOutput_eq hgoes hcyc, ← hy, State.portTo_of_one houts hnew hf hc (Nat.lt_succ_of_le hle) hrest]
  obtain ⟨honly, hcount⟩ := State.iterationGiven_counts (s := y.outputTaken g c0 o f) (g := g) (t := t) (cyc := cyc) fun x hx hop => by
    obtain rfl | ⟨hx, -⟩ := hmem x hx
    · rw [hcard] at hop ⊢
      exact hquiet f (CoreState.mem_of_flight hf) hop
    · exact hquiet x hx hop
  refine ⟨honly, hcount o.seq (f.outputDone o (c0 + 1)) ?_ fun x hx hxseq => ?_⟩
  · rw [hcore]
    exact CoreState.flight_outputTaken _ _ _ _ hf
  · obtain h | ⟨-, h⟩ := hmem x hx
    · exact h
    · exact absurd hxseq h

/-- With nothing to write, an iteration that is done gives its signals. -/
theorem groupOutput_signals (hgoes : s.dieRuns (g / 16) t = true) (hcyc : cyc = s.engCycle (g / 16) t) (hy : y = s.meshTo (g / 16) cyc)
    (houts : (y.core g).vec.outs = []) (hdone : (y.core g).iterDone cyc = some f) (hfit : y.signalsFit g f.card 2 = true) :
    groupOutput g t s = (y.setFlight g { f with done := f.done + 1 }).giveSignals g f.card 2 t := by
  rw [groupOutput_eq hgoes hcyc, ← hy, State.portTo_of_empty houts]
  unfold State.iterationGiven
  rw [hdone]
  exact if_pos hfit

theorem State.FlightsOnly.rdByte {u : State} (h : s.FlightsOnly u g) (a : Nat) : u.rdByte a = s.rdByte a := by
  rw [h.1]
  rfl

theorem State.FlightsOnly.r32 {u : State} (h : s.FlightsOnly u g) (a : Nat) : u.r32 a = s.r32 a := State.r32_congr _ _ (by rw [h.1]) a

theorem State.FlightsOnly.wide {u : State} (h : s.FlightsOnly u g) : (∀ a, u.r64 a = s.r64 a) ∧ ∀ a lo w, u.f64 a lo w = s.f64 a lo w :=
  ⟨fun _ => State.r64_of_sameRegs (f := fun _ => false) (fun a _ => h.r32 a) rfl rfl,
    fun _ => State.f64_of_sameRegs (f := fun _ => false) (fun a _ => h.r32 a) rfl rfl⟩

theorem State.FlightsOnly.tileOnly {u : State} (h : s.FlightsOnly u g) (k : Nat → Bool) : s.TileOnly u k := by
  refine ⟨?_, fun a _ => h.r32 a⟩
  rw [h.1]

theorem State.FlightsOnly.sameFlag {u : State} (h : s.FlightsOnly u g) : u.ctrs = s.ctrs ∧ s.SameBytes u ∧ (∀ k, u.flag k = s.flag k)
    ∧ ∀ d, u.die d = s.die d := by
  rw [h.1]
  exact ⟨rfl, .of_mem rfl rfl, fun _ => rfl, fun _ => rfl⟩

/-- A card of numbered ones with one more iteration done. -/
theorem State.flight_iterated (hnum : (y.core g).Numbered) (hf : f ∈ (y.core g).flights) :
    ((y.setFlight g { f with done := f.done + 1 }).core g).flight f.seq = some { f with done := f.done + 1 } := by
  rw [State.core_setFlight]
  exact CoreState.flight_setFlight_same (f := f) (f' := { f with done := f.done + 1 }) (CoreState.flight_of_mem (f := f) hnum hf)

end

/-- Settles O36: a group's entry by its one output and the vector engine's next place; the write port by the one cycle in which all lines of
an output enter; an iteration that is done by its card's signals. -/
theorem vectorGroupsEnterAndLeave : Obligations.VectorGroupsEnterAndLeave := by
  unfold Obligations.VectorGroupsEnterAndLeave
  refine ⟨?_, ?_, ?_⟩
  · intro s y d c g t n k cyc f once up hg hcyc hgoes hy hrun hnext hdue hissue hheld hroom hopen honce ⟨slot, hout⟩ hmx hred
    have hexec : exec (.groupEntry d c t up) s = .next (groupEntry g t (s.upset up)) := by rw [hg]; rfl
    have hd : g / 16 = d.val := by rw [hg, die_of_core]
    rw [← hd] at hcyc hgoes hy hrun ⊢
    obtain ⟨bad, r, x, f', hseq, hstarted, hx, heq⟩ := groupEntry_eq (s := s.upset up) hcyc hgoes hy hrun hnext hdue hissue hheld hroom honce hopen
    obtain ⟨o, ho, hoseq, hoiter, hodue, hooffered, hoslot, holast, holines⟩ := groupOuts_of_element hout hmx hred g f.seq f.pos n k cyc
      (y.vGroup g f.card n k cyc once) (y.core g).vec.red (y.core g).vec.scales bad
    rw [← hx] at ho
    have hflight : ((y.core g).settle ((y.mesh (g / 16)).settled cyc)).flight f'.seq = some f := by
      rw [hseq]
      exact CoreState.flight_of_nextGroup hnext
    generalize hv : CoreState.withGroup _ _ r f' = v at heq
    obtain ⟨hshape, hregs⟩ := (y.setCore g v).rampOnly_rampVector (g / 16) (g % 16) t (t + 6 + vLambda f.card)
    rw [heq] at hexec
    generalize State.rampVector _ _ _ _ _ = u at *
    have hcores : u.cores = (y.setCore g v).cores := by rw [hshape]
    have hcore : u.core g = v := by rw [State.core_congr hcores, State.core_setCore_same]
    refine ⟨u, _, o, hexec, rfl, ?_⟩
    rw [hcore, ← hv]
    refine ⟨rfl, congrArg _ ho, hoseq, hoiter, hodue, hooffered, hoslot ▸ hout.symm, holast, hoslot ▸ holines, VectorEngine.entered_next _ _ _ _ _ _ _ _ _,
      VectorEngine.entered_iteration _ _ _ _ _ _ _ _ _, VectorEngine.entered_card _ _ _ _ _ _ _ _ _, ⟨f', ?_, hstarted⟩, rfl, fun h hh => ?_, ?_, hregs⟩
    · rw [← hseq]
      exact CoreState.flight_setFlight_same hflight
    · rw [State.core_congr hcores, State.core_setCore_other _ _ _ _ hh]
    · rw [hshape]
      rfl
  · intro s y d c g t cyc c0 o f hg hcyc hgoes hy houts hf hnew hquiet hc hle hrest hmay hpast hapart
    have hexec : exec (.groupOutput d c t) s = .next (groupOutput g t s) := by rw [hg]; rfl
    have hd : g / 16 = d.val := by rw [hg, die_of_core]
    have hl : g % 16 = c.val := by rw [hg, local_of_core]
    rw [← hd] at hcyc hgoes hy
    rw [← hd, ← hl]
    obtain ⟨honly, m, hflight⟩ := groupOutput_writes hgoes hcyc hy houts hf hnew hquiet hc hle hrest
    obtain ⟨hbits, hgroups, htrunc, hsat⟩ := y.outputTaken_reports g c0 o f
    obtain ⟨hshape, hregs⟩ := (y.tileOnly_outputTaken g c0 o f).trans (honly.tileOnly _)
    obtain ⟨hr64, hf64⟩ := honly.wide
    obtain ⟨-, hother, hcore⟩ := id honly
    rw [State.core_outputTaken] at hcore
    refine ⟨_, hexec, fun l hl => ?_, fun a ha => ?_, ?_, fun b hb hlt => ?_, (hr64 _).trans hgroups, (hf64 _ _ _).trans htrunc,
      (hf64 _ _ _).trans hsat, fun hlast => ⟨_, hflight, (f.outputDone_fields o (c0 + 1)).2.2 hlast⟩, ?_, fun h hh => ?_, hshape, hregs⟩
    · rw [State.rdBytes_congr _ _ _ _ fun x _ _ => honly.rdByte x, y.rdBytes_outputTaken g c0 o f hapart hmay hpast hl]
    · rw [honly.rdByte, y.rdByte_outputTaken_other g c0 o f ha]
    · rw [hcore]
      rfl
    · rw [honly.r32]
      exact hbits b hb hlt
    · rw [hcore]
      exact ((y.core g).outputEntered_keeps c0 o).1
    · rw [hother h hh, State.core_outputTaken_other _ _ _ _ _ hh]
  · intro s y d c g t cyc f hg hcyc hgoes hy houts hnum hdone
    have hexec : exec (.groupOutput d c t) s = .next (groupOutput g t s) := by rw [hg]; rfl
    have hd : g / 16 = d.val := by rw [hg, die_of_core]
    rw [← hd] at hcyc hgoes hy ⊢
    have hflight := State.flight_iterated hnum (CoreState.mem_of_iterDone hdone).1
    have honly := y.flightsOnly_setFlight g { f with done := f.done + 1 }
    have hgives := groupOutput_signals hgoes hcyc hy houts hdone
    refine ⟨fun hquiet => ?_, fun hvalid hwhen hnear hdie hkind hrest hnew => ?_⟩
    · have heq := (hgives (y.signalsFit_of_quiet _ hquiet)).trans (State.giveSignals_of_quiet _ _ t hquiet)
      refine ⟨_, hexec.trans (congrArg _ heq), hflight, fun q hq => ?_, honly.2.1, honly.1⟩
      rw [State.core_setFlight]
      exact CoreState.flight_setFlight_other (f := { f with done := f.done + 1 }) hq
    · have heq := hgives (y.signalsFit_of_near hrest hnear hdie)
      obtain ⟨hctrs, hbytes, hflags, hdies⟩ := honly.sameFlag
      obtain ⟨hfile, hflag⟩ := State.giveSignals_flag (t := t) (y.setFlight g { f with done := f.done + 1 }) hwhen hvalid hrest hnear hdie hkind
        (by rw [hdies]; exact hnew)
      refine ⟨_, hexec.trans (congrArg _ heq), ?_, fun k => ?_, hfile.ctrs.trans hctrs, hbytes.trans hfile.sameBytes⟩
      · rw [hfile.core]
        exact hflight
      · rw [hflag, hflags]

end Sys2Proof.Machine
end

/-! Frames that arrive on a die (09_fabric_and_die_links.md R252, R255, R261). -/

section

namespace Sys2Proof.Machine

/-! ## A line behind the end of its die -/

/-- Partition 0 has core 0 of die 1 and the first MiB of that die's shared memory. At noon cycle 0 die 0 is in its engine cycle 1, die 1 in
its cycle 0; the first byte of die 1's memory has a write of cycle 2 on its way. -/
def overrunState : State :=
  (({ dies := [(0, { e0 := 1 })], past := [⟨2 ^ 36, 2, 0, 0⟩] } : State).w32 (Reg.topPartMember 0) (2 ^ 16)).w64 (Reg.cdPbbShm 1 0) (2 ^ 16)

/-- A WRITE frame of partition 0 with line 1 alone, 5 in its first byte. Its region is 15 and its address the last line there, so that line
1 stands behind die 0, at the first address of die 1. -/
def overrunFrame : Frame := { lmask := 2, tag := 0xFFFF, region := 15, addr := 2 ^ 32 - 32, data := 5 * 2 ^ 256 }

/-- The frame on the wire. -/
def overrunBits : BitVec 2304 := BitVec.ofNat 2304 (overrunFrame.wire 0)

-- Evaluating the frame's CRC over 284 bytes recurses deeply.
set_option maxRecDepth 100000

theorem lineAt_overrunBits : lineAt 0 overrunBits.toNat 1 = 2 ^ 36 := by decide +kernel

theorem lmask_overrunBits : ∀ i, i < 8 → bitAt overrunBits.toNat (180 + i) = true → i = 1 := by decide +kernel

/-- The write of cycle 2 is within what die 0's stamp lets stand. -/
theorem still_overrunState : overrunState.Still (overrunState.landStamp 0 0) (2 ^ 36) 32 := by
  intro p hp _ _
  obtain rfl : p = ⟨2 ^ 36, 2, 0, 0⟩ := List.mem_singleton.1 hp
  decide +kernel

/-- The line is stamped by die 1's cycle 0, before the write of cycle 2, which therefore stands. -/
theorem rdBytes_overrun : ∀ t, exec (.d2dWrite 2 overrunBits false 0) overrunState = .next t → t.rdBytes (2 ^ 36) 1 = [0] := by
  intro t ht
  obtain rfl := Host.Outcome.next.inj ht
  decide +kernel

theorem lineLen_overrunBits : overrunState.lineLen 2 overrunBits.toNat 1 = 32 := by decide +kernel

theorem data_overrunBits : (leBytes 32 (fld overrunBits.toNat 512 256)).take 1 = [5] := by decide +kernel

theorem State.take_one_rdBytes (s : State) (a n : Nat) : (s.rdBytes a (n + 1)).take 1 = s.rdBytes a 1 := rfl

/-- Refutes O25: the statement lets a line of a frame run over the end of its die, where the memory of the next die stamps it by that die's
own cycle; with a later write there the line does not stand. -/
theorem not_framesLandOnTheirDie : ¬ Obligations.FramesLandOnTheirDie := by
  rintro ⟨hwrite, -⟩
  obtain ⟨hlands, -⟩ := hwrite overrunState 2 overrunBits false 0 (by decide) (by unfold State.NextFrame; decide +kernel)
    (by unfold State.NoneWaits; decide +kernel)
  obtain ⟨t, ht, -, hbytes, -⟩ := hlands (by decide +kernel) fun i hi hbit => by
    obtain rfl := lmask_overrunBits i hi hbit
    exact ⟨by decide +kernel, still_overrunState⟩
  have hline : t.rdBytes (lineAt 0 overrunBits.toNat 1) (overrunState.lineLen 2 overrunBits.toNat 1)
      = (leBytes 32 (fld overrunBits.toNat 512 256)).take (overrunState.lineLen 2 overrunBits.toNat 1) := hbytes 1 (by decide) (by decide +kernel)
  rw [lineAt_overrunBits, lineLen_overrunBits] at hline
  have hfirst : ([0] : List Byte) = [5] := calc
    [0] = t.rdBytes (2 ^ 36) 1 := (rdBytes_overrun t ht).symm
    _ = (t.rdBytes (2 ^ 36) 32).take 1 := (t.take_one_rdBytes (2 ^ 36) 31).symm
    _ = ((leBytes 32 (fld overrunBits.toNat 512 256)).take 32).take 1 := by rw [hline]
    _ = [5] := by rw [List.take_take, ← data_overrunBits]; rfl
  exact absurd hfirst (by decide)

end Sys2Proof.Machine
end

/-! Cards that are fetched and cards whose work is done (07_layer_cards.md R186, R198, R199). -/

section

namespace Sys2Proof.Machine

/-! ## CARD_FETCH -/

section

variable {s : State} {g t p r x : Nat} {rest : List (Nat × Nat)}

/-- Device addresses of the card at position `p` of core `g`'s stream. -/
def State.cardBytes (s : State) (g p : Nat) : List Nat := (List.range 256).map (s.cardAddr g p + ·)

/-- Core `g` with the card at `p` in its queue, as its bytes stood at the slice in cycle `x` (R186). -/
def State.cardJoined (s : State) (g p x : Nat) (rest : List (Nat × Nat)) : State :=
  s.setCore g { s.core g with
    asked := rest, queue := (s.core g).queue ++ [(p, leNat ((s.cardBytes g p).map (s.readAsOf (s.ownerN g) x)))], fetchFrom := none }

/-- Cycles for which only the queue held the issue of the next card. -/
def CoreState.fetchStall (c : CoreState) (cyc : Nat) : Nat :=
  match c.fetchFrom with
  | some z => cyc - z
  | none => 0

theorem CoreState.fetchStall_eq (c : CoreState) (cyc : Nat) : c.fetchStall cyc = c.fetchFrom.elim 0 (fun z => cyc - z) := by
  unfold CoreState.fetchStall
  cases c.fetchFrom with
  | none => rfl
  | some z => rfl

/-- A request that has been under way for its hops brings its card where the queue has room. -/
theorem cardFetch_eq {k : Nat} (hrun : s.dieRuns (g / 16) t = true) (hasked : (s.core g).asked = (p, r) :: rest)
    (hroom : (s.core g).queue.length < 16) (hk : k = hops (sliceNode (addrOffset (s.cardAddr g p) / 2 ^ 28)) (coreNode (g % 16)))
    (hx : x = r + 2 * k + (if s.countAt (g / 16) (r + 2 * k) % 16 = 15 then 1 else 0)) (hdue : x + 2 * k + 9 ≤ s.engCycle (g / 16) t) :
    cardFetch g t s = ((s.cardJoined g p x rest).checkBounds t (s.ownerN g) false (s.cardBytes g p)).count64
      (Reg.coreSeqStall (g / 16) (g % 16)) 0 64 ((s.core g).fetchStall (s.engCycle (g / 16) t)) := by
  unfold cardFetch
  extract_lets d cyc c
  rw [show c.asked = _ from hasked]
  simp only
  rw [← hk]
  have hlate : (if s.countAt (g / 16) (r + 2 * k) % 16 = 15 then 1 else 0) = x - (r + 2 * k) := by omega
  rw [show (if s.countAt d (r + 2 * k) % 16 = 15 then 1 else 0) = _ from hlate, show r + 2 * k + (x - (r + 2 * k)) = x by omega, if_neg]
  · rfl
  · simp only [d, cyc, c, hrun, Bool.not_true, Bool.false_or, Bool.or_eq_true, decide_eq_true_eq]
    omega

theorem State.mayRead_cardJoined {n : Nat} {addrs : List Nat} (h : s.MayRead n addrs) : (s.cardJoined g p x rest).MayRead n addrs := h

theorem State.core_cardJoined : (s.cardJoined g p x rest).core g = { s.core g with
    asked := rest, queue := (s.core g).queue ++ [(p, leNat ((s.cardBytes g p).map (s.readAsOf (s.ownerN g) x)))], fetchFrom := none } :=
  s.core_setCore_same _ _

theorem State.core_cardJoined_other {h : Nat} (hh : h ≠ g) : (s.cardJoined g p x rest).core h = s.core h := s.core_setCore_other _ _ _ hh

/-- A card that the partition may read joins the queue with its bytes, and the stall is counted. -/
theorem State.cardJoined_reads {u : State} {stall : Nat} (h : s.MayRead (s.ownerN g) (s.cardBytes g p))
    (hu : u = ((s.cardJoined g p x rest).checkBounds t (s.ownerN g) false (s.cardBytes g p)).count64 (Reg.coreSeqStall (g / 16) (g % 16)) 0 64 stall) :
    u.core g = { s.core g with
        asked := rest, queue := (s.core g).queue ++ [(p, leNat ((s.cardBytes g p).map (s.asOf x)))], fetchFrom := none }
      ∧ (∀ h, h ≠ g → u.core h = s.core h)
      ∧ u.r64 (Reg.coreSeqStall (g / 16) (g % 16)) = min (s.r64 (Reg.coreSeqStall (g / 16) (g % 16)) + stall) (2 ^ 64 - 1)
      ∧ u = { s with cores := u.cores, regs := u.regs } ∧ s.SameRegsBut u (pairOf (Reg.coreSeqStall (g / 16) (g % 16))) := by
  have hbytes : (s.cardBytes g p).map (s.readAsOf (s.ownerN g) x) = (s.cardBytes g p).map (s.asOf x) :=
    List.map_congr_left fun a ha => State.readAsOf_of_mayAccess (h a ha).1
  rw [State.checkBounds_of_mayRead _ _ _ (State.mayRead_cardJoined h)] at hu
  have hwords : (s.cardJoined g p x rest).WordsOnly u (pairOf (Reg.coreSeqStall (g / 16) (g % 16))) := hu ▸ State.wordsOnly_count64 _ _ _ _ _
  have hstall : u.r64 (Reg.coreSeqStall (g / 16) (g % 16)) = _ := hu ▸ State.r64_count64_full (s.cardJoined g p x rest) _ stall
  refine ⟨?_, fun h hh => ?_, hstall, ?_, hwords.2⟩
  · rw [hwords.core, State.core_cardJoined, hbytes]
  · rw [hwords.core, State.core_cardJoined_other hh]
  · rw [hwords.1]
    rfl

/-- What is checked behind a joined card and counted after it leaves the card's request done, every byte and every other core. -/
theorem State.cardJoined_checked {u v : State} {a stall : Nat} (hchecks : (s.cardJoined g p x rest).ChecksOnly v) (hu : u = v.count64 a 0 64 stall) :
    (u.core g).asked = rest ∧ u.parts = v.parts ∧ s.SameBytes u ∧ ∀ h, h ≠ g → u.core h = s.core h := by
  have hwords : v.WordsOnly u (pairOf a) := hu ▸ v.wordsOnly_count64 _ _ _ _
  refine ⟨?_, ?_, ?_, fun h hh => ?_⟩
  · rw [hwords.core, hchecks.core, State.core_cardJoined]
  · rw [hwords.1]
  · exact hchecks.sameBytes.trans (.of_mem (by rw [hwords.1]) (by rw [hwords.1]))
  · rw [hwords.core, hchecks.core, State.core_cardJoined_other hh]

/-- A byte of the card outside the ranges stops the partition; the card's request is done all the same. -/
theorem State.cardJoined_faults {u : State} {stall a : Nat} (ha : a ∈ s.cardBytes g p) (hno : s.mayAccess (s.ownerN g) false a = false)
    (hu : u = ((s.cardJoined g p x rest).checkBounds t (s.ownerN g) false (s.cardBytes g p)).count64 (Reg.coreSeqStall (g / 16) (g % 16)) 0 64 stall) :
    (u.core g).asked = rest ∧ (u.part (s.ownerN g)).stop ≠ none ∧ s.SameBytes u ∧ ∀ h, h ≠ g → u.core h = s.core h := by
  obtain ⟨hasked, hparts, hrest⟩ := State.cardJoined_checked (State.checksOnly_checkBounds _ t (s.ownerN g) false (s.cardBytes g p)) hu
  refine ⟨hasked, ?_, hrest⟩
  rw [State.part, hparts]
  exact State.stop_checkBounds _ t (s.ownerN g) ha hno

end

/-! ## Completion -/

section

variable {s : State} {g cyc t : Nat} {f : Flight}

/-- The capture writes words of the core's sequencer alone. -/
theorem State.wordsOnly_captureDigest (s : State) (g : Nat) (f : Flight) : s.WordsOnly (s.captureDigest g f) (issueRegs g) := by
  have hctl : ∀ a, pairOf (Reg.coreDigestCapCtl (g / 16) (g % 16)) a = true → issueRegs g a = true := fun a ha => by
    simp only [pairOf, Bool.or_eq_true, beq_iff_eq] at ha
    simp only [issueRegs, Bool.or_eq_true, Bool.and_eq_true, decide_eq_true_eq]
    unfold Reg.coreDigestCapCtl at ha
    unfold Reg.coreStream
    omega
  unfold State.captureDigest
  extract_lets d c ctl v i cap w
  split_ifs with hout hfull
  · exact .refl s _
  all_goals
    have hi : i < 64 := by
      simp only [Bool.or_eq_true, decide_eq_true_eq, not_or] at hout
      omega
    have hcap : ∀ a, Reg.coreDigestCap d c i ≤ a → a ≤ Reg.coreDigestCap d c i + 8 → issueRegs g a = true := fun a ha ha' => by
      simp only [issueRegs, Bool.or_eq_true, Bool.and_eq_true, decide_eq_true_eq]
      unfold Reg.coreDigestCap at ha ha'
      simp only [d, c] at ha ha'
      unfold Reg.coreStream
      omega
    have hw : s.WordsOnly w (issueRegs g) :=
      ((s.wordsOnly_w64 _ (hcap _ (by omega) (by omega)) (hcap _ (by omega) (by omega))).trans
        (State.wordsOnly_w32 _ _ (hcap _ (by omega) (by omega)))).trans ((State.wordsOnly_sf64 _ _ _ _ _).mono hctl)
  · exact hw.trans ((State.wordsOnly_sf64 _ _ _ _ _).mono hctl)
  · exact hw

/-- Core `g` with its card `f` locally complete. -/
abbrev Flight.localDone (f : Flight) (cyc : Nat) : Flight := { f with localAt := some cyc }

/-- Core `g` with its card `f` locally and fully complete. -/
abbrev Flight.fullDone (f : Flight) (cyc : Nat) : Flight := { f with localAt := some cyc, fullAt := some cyc }

/-- The card of core `g` whose work is done reaches local completion where its signals find room. -/
theorem cardLocalCompletion_eq {pos : Nat} (hcyc : cyc = s.engCycle (g / 16) t) (hrun : s.dieRuns (g / 16) t = true)
    (hf : (s.core g).flights.find? (fun y => y.pos == pos && y.localAt.isNone) = some f) (hdone : (s.core g).workDone f cyc = true)
    (hfit : s.signalsFit g f.card 1 = true) (hfit3 : s.signalsFit g f.card 3 = true) :
    cardLocalCompletion g pos t s = s.locallyComplete g f.seq cyc t := by
  unfold cardLocalCompletion
  extract_lets d c
  rw [show c.flights.find? _ = _ from hf]
  simp [d, c, hrun, ← hcyc, hdone, hfit, hfit3]

/-- A core whose card `f` is fully complete: its digest joins those not yet folded, but for a DIGEST card (R207, R277). -/
def CoreState.fullyDone (c : CoreState) (f : Flight) (cyc : Nat) : CoreState :=
  if cardOp f.card = 6 then c.setFlight { f with fullAt := some cyc }
  else { c.setFlight { f with fullAt := some cyc } with unfolded := c.unfolded ++ [(f.pos, f.digest)] }

theorem CoreState.flights_fullyDone (c : CoreState) (f : Flight) (cyc : Nat) :
    (c.fullyDone f cyc).flights = (c.setFlight { f with fullAt := some cyc }).flights := by
  unfold CoreState.fullyDone
  split_ifs
  · rfl
  · rfl

theorem CoreState.flight_fullyDone {c : CoreState} (h : c.flight f.seq = some f) :
    (c.fullyDone f cyc).flight f.seq = some { f with fullAt := some cyc } := by
  unfold CoreState.flight
  rw [CoreState.flights_fullyDone]
  exact CoreState.flight_setFlight_same (f' := { f with fullAt := some cyc }) h

theorem CoreState.flight_fullyDone_other {c : CoreState} {q : Nat} (h : q ≠ f.seq) : (c.fullyDone f cyc).flight q = c.flight q := by
  unfold CoreState.flight
  rw [CoreState.flights_fullyDone]
  exact CoreState.flight_setFlight_other (f := { f with fullAt := some cyc }) h

/-- Full completion with no ACKED signal. -/
theorem State.fullyComplete_of_quiet (hf : (s.core g).flight f.seq = some f) (hquiet : quietCard f.card 3) :
    let u := s.fullyComplete g f.seq cyc t
    s.CoresOnly u (issueRegs g) ∧ u.core g = (s.core g).fullyDone f cyc ∧ ∀ h, h ≠ g → u.core h = s.core h := by
  have hcapture : ∀ v : State, s.CoresOnly v (issueRegs g) → v.core g = (s.core g).fullyDone f cyc → (∀ h, h ≠ g → v.core h = s.core h) →
      let u := v.captureDigest g { f with fullAt := some cyc }
      s.CoresOnly u (issueRegs g) ∧ u.core g = (s.core g).fullyDone f cyc ∧ ∀ h, h ≠ g → u.core h = s.core h := fun v hv hcore hother => by
    have hwords := v.wordsOnly_captureDigest g { f with fullAt := some cyc }
    exact ⟨⟨by rw [hwords.1, hv.1], hv.2.trans hwords.2⟩, (hwords.core g).trans hcore, fun h hh => (hwords.core h).trans (hother h hh)⟩
  unfold State.fullyComplete
  rw [hf]
  simp only [State.giveSignals_of_quiet _ g t hquiet]
  split_ifs with hop
  · refine hcapture _ ⟨rfl, fun _ _ => rfl⟩ ?_ fun h hh => s.core_setCore_other g h _ hh
    unfold CoreState.fullyDone
    rw [if_pos hop, State.core_setFlight]
  · refine hcapture _ ⟨rfl, fun _ _ => rfl⟩ ?_ fun h hh => ?_
    · unfold CoreState.fullyDone
      rw [if_neg hop, State.core_setCore_same, State.core_setFlight]
      rfl
    · rw [State.core_setCore_other _ _ _ _ hh]
      exact s.core_setCore_other g h _ hh

/-- Local completion of a card all of whose lines have been reported, with no COMPLETE signal. -/
theorem State.locallyComplete_reported (hf : (s.core g).flight f.seq = some f) (hquiet : quietCard f.card 1) (hquiet3 : quietCard f.card 3)
    (hrep : f.reported = true) : let u := s.locallyComplete g f.seq cyc t
    s.CoresOnly u (issueRegs g) ∧ u.core g = ((s.core g).setFlight (f.localDone cyc)).fullyDone (f.localDone cyc) cyc
      ∧ ∀ h, h ≠ g → u.core h = s.core h := by
  have hlocal : ((s.setFlight g (f.localDone cyc)).core g).flight f.seq = some (f.localDone cyc) := by
    rw [State.core_setFlight]
    exact CoreState.flight_setFlight_same (f' := f.localDone cyc) hf
  obtain ⟨honly, hcore, hother⟩ := State.fullyComplete_of_quiet (f := f.localDone cyc) (cyc := cyc) (t := t) hlocal hquiet3
  unfold State.locallyComplete
  rw [hf]
  simp only [State.giveSignals_of_quiet _ g t hquiet, hrep, if_true]
  refine ⟨⟨?_, honly.2⟩, ?_, fun h hh => (hother h hh).trans (s.core_setCore_other g h _ hh)⟩
  · exact honly.1
  · rw [← State.core_setFlight]
    exact hcore

/-- Local completion of a card with reports outstanding, with no COMPLETE signal. -/
theorem State.locallyComplete_awaiting (hf : (s.core g).flight f.seq = some f) (hquiet : quietCard f.card 1) (hrep : f.reported = false) :
    s.locallyComplete g f.seq cyc t = s.setFlight g (f.localDone cyc) := by
  unfold State.locallyComplete
  rw [hf]
  simp only [State.giveSignals_of_quiet _ g t hquiet, hrep]
  rfl

/-- Local completion of a card whose one signal sets or clears a flag of its die. -/
theorem State.locallyComplete_signals (hf : (s.core g).flight f.seq = some f) (hquiet3 : quietCard f.card 3)
    (hvalid : bitAt (cardSignal f.card 0) 63 = true) (hwhen : fld (cardSignal f.card 0) 61 2 = 1) (hnear : bitAt (cardSignal f.card 0) 60 = false)
    (hdie : fld (cardSignal f.card 0) 51 7 / 16 = g / 16) (hkind : fld (cardSignal f.card 0) 58 1 = 0)
    (hrest : ∀ i, 0 < i → i < 4 → bitAt (cardSignal f.card i) 63 = false) (hnew : (s.die (g / 16)).flagT ≠ t) :
    let u := s.locallyComplete g f.seq cyc t
    (∃ h, h ∈ (u.core g).flights ∧ h.seq = f.seq ∧ h.localAt = some cyc)
      ∧ (∀ k, u.flag k = if k = entryKey (fld (cardSignal f.card 0) 51 7) (fld (cardSignal f.card 0) 32 8)
        then fld (cardSignal f.card 0) 59 1 == 0 else s.flag k)
      ∧ u.ctrs = s.ctrs ∧ s.SameBytes u := by
  have hlocal : ((s.setFlight g (f.localDone cyc)).core g).flight f.seq = some (f.localDone cyc) := by
    rw [State.core_setFlight]
    exact CoreState.flight_setFlight_same (f' := f.localDone cyc) hf
  obtain ⟨hfile, hflag⟩ := State.giveSignals_flag (t := t) (s.setFlight g (f.localDone cyc)) hwhen hvalid hrest hnear hdie hkind hnew
  generalize hv : (s.setFlight g (f.localDone cyc)).giveSignals g f.card 1 t = v at hfile hflag
  rw [← hfile.core] at hlocal
  have hbytes : s.SameBytes v := hfile.sameBytes
  unfold State.locallyComplete
  rw [hf]
  simp only [hv]
  split_ifs
  · obtain ⟨honly, hcore, -⟩ := State.fullyComplete_of_quiet (f := f.localDone cyc) (cyc := cyc) (t := t) hlocal hquiet3
    have hshape := honly.1
    refine ⟨⟨f.fullDone cyc, ?_, rfl, rfl⟩, fun k => ?_, ?_, hbytes.trans honly.sameBytes⟩
    · rw [hcore]
      exact CoreState.mem_of_flight (CoreState.flight_fullyDone hlocal)
    · refine Eq.trans ?_ (hflag k)
      unfold State.flag
      rw [hshape]
    · rw [hshape]
      exact hfile.ctrs
  · exact ⟨⟨f.localDone cyc, CoreState.mem_of_flight hlocal, rfl, rfl⟩, hflag, hfile.ctrs, hbytes⟩

end

/-- Settles O31: the fetch by the card that joins the queue and the check of its bytes; completion by the card's last stamps and its one
signal. -/
theorem cardsAreFetchedAndCompleteLocally : Obligations.CardsAreFetchedAndCompleteLocally := by
  unfold Obligations.CardsAreFetchedAndCompleteLocally
  refine ⟨?_, ?_⟩
  · intro s y d c g t p r a x k rest up hg hy hrun hasked hroom ha hk hx hdue
    have hexec : exec (.cardFetch d c t up) s = .next (cardFetch g t y) := by rw [hg, hy]; rfl
    have hd : g / 16 = d.val := by rw [hg, die_of_core]
    have hl : g % 16 = c.val := by rw [hg, local_of_core]
    have heq := cardFetch_eq (s := y) (g := g) (t := t) (p := p) (r := r) (x := x) (rest := rest) (k := k) (by rw [hy, hd]; exact hrun)
      (by rw [hy]; exact hasked) (by rw [hy]; exact hroom) (by rw [hl, hk, ha, hy]; rfl) (by rw [hx, hd, hy]; rfl) (by rw [hd, hy]; exact hdue)
    have hbytes : y.cardBytes g p = (List.range 256).map (a + ·) := by rw [ha, hy]; rfl
    rw [heq] at hexec
    rw [← hd, ← hl]
    refine ⟨fun hread => ?_, fun i hi hno => ?_⟩
    · obtain ⟨hcore, hother, hstall, hshape, hregs⟩ := State.cardJoined_reads (s := y) (g := g) (t := t) (p := p) (x := x) (rest := rest)
        (stall := (y.core g).fetchStall (y.engCycle (g / 16) t)) (by rw [hbytes, hy]; rw [hy] at hread; exact hread) rfl
      rw [CoreState.fetchStall_eq] at hexec hcore hother hstall hshape hregs
      refine ⟨_, hexec, ?_, ?_, ?_, hshape, ?_⟩
      · rw [hcore, hbytes, List.map_map, hy]
        rfl
      · subst hy
        exact hother
      · subst hy
        exact hstall
      · subst hy
        exact hregs
    · obtain ⟨hcore, hstop, hsame, hother⟩ := State.cardJoined_faults (s := y) (g := g) (t := t) (p := p) (x := x) (rest := rest) (a := a + i)
        (stall := (y.core g).fetchStall (y.engCycle (g / 16) t)) (by rw [hbytes]; exact List.mem_map_of_mem (List.mem_range.2 hi)) (by rw [hy]; exact hno) rfl
      subst hy
      exact ⟨_, hexec, hcore, hstop, hsame, hother⟩
  · intro s d c g pos t f hg hrun hnum hf hdone hquiet3
    have hexec : exec (.cardLocalCompletion d c pos t) s = .next (cardLocalCompletion g pos t s) := by rw [hg]; rfl
    have hd : g / 16 = d.val := by rw [hg, die_of_core]
    rw [← hd] at hrun hdone ⊢
    have hflight : (s.core g).flight f.seq = some f := CoreState.flight_of_mem hnum (List.mem_of_find?_eq_some hf)
    have hdue : s.signalsFit g f.card 1 = true → cardLocalCompletion g pos t s = s.locallyComplete g f.seq (s.engCycle (g / 16) t) t := fun hfit =>
      cardLocalCompletion_eq rfl hrun hf hdone hfit (s.signalsFit_of_quiet g hquiet3)
    refine ⟨fun hrep hquiet hop => ?_, fun hrep hquiet => ?_, fun hvalid hwhen hnear hdie hkind hrest hnew => ?_⟩
    · obtain ⟨honly, hcore, hother⟩ := State.locallyComplete_reported (cyc := s.engCycle (g / 16) t) (t := t) hflight hquiet hquiet3 hrep
      rw [hdue (s.signalsFit_of_quiet g hquiet)] at hexec
      have hlocal : ((s.core g).setFlight (f.localDone (s.engCycle (g / 16) t))).flight f.seq = some (f.localDone (s.engCycle (g / 16) t)) :=
        CoreState.flight_setFlight_same (f' := f.localDone (s.engCycle (g / 16) t)) hflight
      refine ⟨_, hexec, ?_, fun q hq => ?_, ?_, hother, honly.1, honly.2⟩
      · rw [hcore]
        exact CoreState.flight_fullyDone hlocal
      · rw [hcore, CoreState.flight_fullyDone_other (f := f.localDone _) hq]
        exact CoreState.flight_setFlight_other (f := f.localDone _) hq
      · rw [hcore, CoreState.fullyDone, if_neg hop]
        rfl
    · rw [hdue (s.signalsFit_of_quiet g hquiet), State.locallyComplete_awaiting hflight hquiet hrep] at hexec
      refine ⟨_, hexec, ?_, fun q hq => ?_, ?_, fun h hh => s.core_setCore_other g h _ hh, rfl⟩
      · rw [State.core_setFlight]
        exact CoreState.flight_setFlight_same (f' := f.localDone _) hflight
      · rw [State.core_setFlight]
        exact CoreState.flight_setFlight_other (f := f.localDone _) hq
      · rw [State.core_setFlight]
        rfl
    · rw [hdue (s.signalsFit_of_near hrest hnear hdie)] at hexec
      exact ⟨_, hexec, State.locallyComplete_signals hflight hquiet3 hvalid hwhen hnear hdie hkind hrest hnew⟩

end Sys2Proof.Machine
end

/-! Errors in the memories: what a correction reports and a remap changes, the scrubber, uncorrectable words and the field fuses
(06_memory_hierarchy.md R173-R180, R376, R537, R538). -/

section

namespace Sys2Proof.Machine

/-! ## What later errors keep of a die's error registers (Table 6-12) -/

section

variable {s t u : State} {d : Nat}

/-- The seen bits of CD_MEM_STATUS stay, CD_RAS_COUNT and CD_RAS_LAST stand. -/
def State.RasKept (s t : State) (d : Nat) : Prop :=
  (∀ i, bitAt (s.r32 (Reg.cdMemStatus d)) i = true → bitAt (t.r32 (Reg.cdMemStatus d)) i = true)
    ∧ t.r64 (Reg.cdRasCount d) = s.r64 (Reg.cdRasCount d) ∧ t.r64 (Reg.cdRasLast d) = s.r64 (Reg.cdRasLast d)

theorem State.RasKept.refl (s : State) (d : Nat) : s.RasKept s d := ⟨fun _ h => h, rfl, rfl⟩

theorem State.RasKept.trans (h : s.RasKept t d) (g : t.RasKept u d) : s.RasKept u d :=
  ⟨fun i hi => g.1 i (h.1 i hi), g.2.1.trans h.2.1, g.2.2.trans h.2.2⟩

/-- A step that writes none of the die's error registers keeps them. -/
theorem State.RasKept.of_sameRegs {f : Nat → Bool} (h : s.SameRegsBut t f) (hf : ∀ a, Reg.cdMemStatus d ≤ a → a < Reg.cdMemStatus d + 0x18 → f a = false) :
    s.RasKept t d := by
  have hcount : Reg.cdRasCount d = Reg.cdMemStatus d + 8 := by unfold Reg.cdRasCount Reg.cdMemStatus; omega
  have hlast : Reg.cdRasLast d = Reg.cdMemStatus d + 16 := by unfold Reg.cdRasLast Reg.cdMemStatus; omega
  refine ⟨fun i hi => ?_, State.r64_of_sameRegs h (hf _ ?_ ?_) (hf _ ?_ ?_), State.r64_of_sameRegs h (hf _ ?_ ?_) (hf _ ?_ ?_)⟩
  · rwa [h _ (hf _ le_rfl (by omega))]
  all_goals omega

theorem State.RasKept.of_regs (h : t.regs = s.regs) : s.RasKept t d :=
  .of_sameRegs (f := fun _ => false) (.of_regs h) fun _ _ _ => rfl

theorem eventRegs_of_die {a : Nat} (hd : d < 8) (h : Reg.cdMemStatus d ≤ a) (h' : a < Reg.cdMemStatus d + 0x18) : eventRegs a = false := by
  refine eventRegs_false ?_
  unfold Reg.cdMemStatus Reg.dieBase at *
  unfold Reg.hstStatus Reg.hstEvtCount
  omega

theorem State.rasKept_set32 (s : State) (d : Nat) {i : Nat} (hi : i < 32) : s.RasKept (s.set32 (Reg.cdMemStatus d) i) d := by
  have hother : ∀ b, b ≠ Reg.cdMemStatus d → (s.set32 (Reg.cdMemStatus d) i).r32 b = s.r32 b := fun b hb => s.r32_set32_other _ _ _ hb
  refine ⟨fun j hj => ?_, ?_, ?_⟩
  · rcases eq_or_ne j i with rfl | hne
    · exact s.bitAt_set32_same _ _ hi
    · rwa [s.bitAt_set32_other _ _ _ hi hne]
  · unfold State.r64 Reg.cdRasCount
    rw [hother _ (by unfold Reg.cdMemStatus; omega), hother _ (by unfold Reg.cdMemStatus; omega)]
  · unfold State.r64 Reg.cdRasLast
    rw [hother _ (by unfold Reg.cdMemStatus; omega), hother _ (by unfold Reg.cdMemStatus; omega)]

theorem State.rasKept_memoryEvent (s : State) (part : Nat) (hd : d < 8) : s.RasKept (s.memoryEvent d part) d :=
  .of_sameRegs (s.sameRegs_postEvent _ _ _ _) fun _ => eventRegs_of_die hd

/-- What a remap that is scheduled does: nothing for a queued row; behind the spares of its macro, a record and a report; else a place in
the queue. -/
theorem State.scheduleRemap_cases (s : State) (d row : Nat) :
    s.scheduleRemap d row = s
      ∨ (∃ v, (v = s ∨ ∃ l, v = s.setDie d { s.die d with exhausted := l }) ∧ s.scheduleRemap d row = (v.set32 (Reg.cdMemStatus d) 7).memoryEvent d 0xFF)
      ∨ ∃ k, s.scheduleRemap d row = (s.setDie d { s.die d with remapQ := (s.die d).remapQ ++ [row], sparesUsed := k }).set32 (Reg.cdMemStatus d) 4 := by
  unfold State.scheduleRemap
  extract_lets x key used s₁
  split_ifs
  · exact .inl rfl
  · refine .inr (.inl ⟨s₁, ?_, rfl⟩)
    unfold s₁
    split_ifs
    · exact .inl rfl
    · exact .inr ⟨_, rfl⟩
  · exact .inr (.inr ⟨_, rfl⟩)

theorem State.rasKept_set32_of_regs {v : State} (h : v.regs = s.regs) {i : Nat} (hi : i < 32) : s.RasKept (v.set32 (Reg.cdMemStatus d) i) d :=
  (State.RasKept.of_regs h).trans (v.rasKept_set32 d hi)

/-- A remap that is scheduled, or that finds no spare, keeps what the die's registers tell of errors. -/
theorem State.rasKept_scheduleRemap (s : State) (row : Nat) (hd : d < 8) : s.RasKept (s.scheduleRemap d row) d := by
  obtain h | ⟨v, hv, h⟩ | ⟨k, h⟩ := s.scheduleRemap_cases d row
  · rw [h]
    exact .refl s d
  · have hregs : v.regs = s.regs := by
      rcases hv with rfl | ⟨l, rfl⟩
      · rfl
      · exact State.setDie_regs ..
    rw [h]
    exact (State.rasKept_set32_of_regs hregs (by decide)).trans (State.rasKept_memoryEvent _ _ hd)
  · rw [h]
    exact State.rasKept_set32_of_regs (State.setDie_regs ..) (by decide)

theorem State.die_set32 (s : State) (a i x : Nat) : (s.set32 a i).die x = s.die x := by
  rw [State.set32_shape]
  rfl

theorem State.die_memoryEvent (s : State) (d part x : Nat) : (s.memoryEvent d part).die x = s.die x := by
  unfold State.memoryEvent
  obtain ⟨r, h, e⟩ := s.postEvent_shape 0x0006 part d (s.r64 (Reg.cdRasLast d) + s.r32 (Reg.cdMemStatus d) * 2 ^ 64)
  rw [e]
  rfl

/-- Of the dies' records a remap touches its queue, the spares taken and the macros without any, all of its own die. -/
def State.RemapsOnly (s t : State) (d : Nat) : Prop :=
  t.die d = { s.die d with remapQ := (t.die d).remapQ, sparesUsed := (t.die d).sparesUsed, exhausted := (t.die d).exhausted }
    ∧ ∀ x, x ≠ d → t.die x = s.die x

theorem State.remapsOnly_of_dies {t u : State} (h : s.RemapsOnly t d) (hu : ∀ x, u.die x = t.die x) : s.RemapsOnly u d := by
  unfold State.RemapsOnly
  simp only [hu]
  exact h

theorem State.remapsOnly_scheduleRemap (s : State) (d row : Nat) : s.RemapsOnly (s.scheduleRemap d row) d := by
  have hself : s.RemapsOnly s d := ⟨rfl, fun _ _ => rfl⟩
  obtain h | ⟨v, hv, h⟩ | ⟨k, h⟩ := s.scheduleRemap_cases d row
  · rwa [h]
  · have hdie : s.RemapsOnly v d := by
      rcases hv with rfl | ⟨l, rfl⟩
      · exact hself
      · exact ⟨by rw [s.die_setDie_same], fun x hx => s.die_setDie_other d x _ hx⟩
    rw [h]
    exact State.remapsOnly_of_dies hdie fun x => (State.die_memoryEvent _ d _ x).trans (State.die_set32 _ _ _ x)
  · rw [h]
    refine State.remapsOnly_of_dies (t := s.setDie d { s.die d with remapQ := (s.die d).remapQ ++ [row], sparesUsed := k }) ?_ fun x => State.die_set32 _ _ _ x
    exact ⟨by rw [s.die_setDie_same], fun x hx => s.die_setDie_other d x _ hx⟩

/-- A row that is not queued goes behind the queue where its macro has a spare, and REMAP_PENDING tells of it (R176, R178). -/
theorem State.scheduleRemap_spare {row : Nat} (hq : row ∉ (s.die d).remapQ)
    (hspare : Tab.get (fun _ => 0) (s.die d).sparesUsed (macroOf row) < spareRows (macroOf row)) :
    ((s.scheduleRemap d row).die d).remapQ = (s.die d).remapQ ++ [row] ∧ bitAt ((s.scheduleRemap d row).r32 (Reg.cdMemStatus d)) 4 = true := by
  unfold State.scheduleRemap
  simp only [List.contains_eq_mem, hq, decide_false, Bool.false_eq_true, if_false, Nat.not_le.2 hspare]
  refine ⟨?_, State.bitAt_set32_same _ _ _ (by decide)⟩
  rw [State.die_set32, s.die_setDie_same]

end

/-! ## A corrected error (R173, R176) -/

section

variable {s : State} {d a : Nat}

/-- The registers of die `d` tell of an error of TYPE `type` in the word at `a`. -/
theorem State.rasLast_fields (s : State) (d : Nat) {type : Nat} (ht : type < 4) (ha : a < 2 ^ 40) :
    (s.rasLast d type a).f64 (Reg.cdRasLast d) 62 2 = type ∧ (s.rasLast d type a).f64 (Reg.cdRasLast d) 0 40 = a := by
  have hlevel : addrLevel a < 4 := by unfold addrLevel; omega
  have hr : (s.rasLast d type a).r64 (Reg.cdRasLast d) = (type * 2 ^ 62 + addrLevel a * 2 ^ 60 + a % 2 ^ 40) % 2 ^ 64 := s.r64_w64_same _ _
  unfold State.f64 fld
  rw [hr]
  generalize addrLevel a = l at hlevel
  omega

/-- The state in which an error of TYPE `type` in the word at `a` is reported: bit `i` of CD_MEM_STATUS, the count at bit `lo` of CD_RAS_COUNT and
CD_RAS_LAST (R182, Table 6-12). -/
def State.errorTold (s : State) (d i lo w type a : Nat) : State :=
  ((s.set32 (Reg.cdMemStatus d) i).count64 (Reg.cdRasCount d) lo w 1).rasLast d type (a / 8 * 8)

variable {i lo w type : Nat}

theorem State.wordsOnly_errorTold (s : State) (d i lo w type a : Nat) : s.WordsOnly (s.errorTold d i lo w type a) (rasRegs d) :=
  ((s.wordsOnly_memStatus i).trans (State.wordsOnly_rasCount _ lo w 1)).trans (State.wordsOnly_rasLast _ type)

theorem State.r32_errorTold_other (s : State) (d i lo w type a : Nat) {b : Nat} (hb : b ≠ Reg.cdMemStatus d) (hb' : b < Reg.cdMemStatus d + 8) :
    (s.errorTold d i lo w type a).r32 b = s.r32 b := by
  have hbase : Reg.cdRasCount d = Reg.cdMemStatus d + 8 ∧ Reg.cdRasLast d = Reg.cdMemStatus d + 16 := by
    unfold Reg.cdMemStatus Reg.cdRasCount Reg.cdRasLast
    omega
  unfold State.errorTold State.rasLast
  rw [State.r32_w64_other _ _ _ _ (by omega) (by omega)]
  unfold State.count64
  rw [State.r32_sf64_other _ _ _ _ _ _ (by omega) (by omega), State.r32_set32_other _ _ _ _ hb]

/-- A report of an error, with error registers kept since, reads as one. -/
theorem State.errorTold_reads {t : State} (hi : i < 32) (hw : lo + w ≤ 64) (ht : type < 4) (ha : a < 2 ^ 40) (h : (s.errorTold d i lo w type a).RasKept t d) :
    bitAt (t.r32 (Reg.cdMemStatus d)) i = true ∧ t.f64 (Reg.cdRasCount d) lo w = min (s.f64 (Reg.cdRasCount d) lo w + 1) (2 ^ w - 1)
      ∧ t.f64 (Reg.cdRasLast d) 62 2 = type ∧ t.f64 (Reg.cdRasLast d) 0 40 = a / 8 * 8 := by
  obtain ⟨hbits, hcount, hlast⟩ := h
  have hbase : Reg.cdRasCount d = Reg.cdMemStatus d + 8 ∧ Reg.cdRasLast d = Reg.cdMemStatus d + 16 := by
    unfold Reg.cdMemStatus Reg.cdRasCount Reg.cdRasLast
    omega
  have hf : ∀ (v w : State) {b : Nat}, v.r64 b = w.r64 b → ∀ lo k, v.f64 b lo k = w.f64 b lo k := fun v w b e lo k => by
    unfold State.f64
    rw [e]
  refine ⟨hbits i ?_, ?_, ?_, ?_⟩
  · unfold State.errorTold State.rasLast
    rw [State.r32_w64_other _ _ _ _ (by omega) (by omega)]
    unfold State.count64
    rw [State.r32_sf64_other _ _ _ _ _ _ (by omega) (by omega)]
    exact s.bitAt_set32_same _ _ hi
  · rw [hf _ _ hcount]
    have hrest : (s.errorTold d i lo w type a).r64 (Reg.cdRasCount d)
        = ((s.set32 (Reg.cdMemStatus d) i).count64 (Reg.cdRasCount d) lo w 1).r64 (Reg.cdRasCount d) :=
      State.r64_w64_other _ _ _ _ (by omega)
    have hsame : (s.set32 (Reg.cdMemStatus d) i).r64 (Reg.cdRasCount d) = s.r64 (Reg.cdRasCount d) := (s.rasKept_set32 d hi).2.1
    rw [hf _ _ hrest, State.f64_count64_same _ _ _ _ _ hw, hf _ _ hsame]
  · rw [hf _ _ hlast]
    exact (State.rasLast_fields _ d ht (by omega)).1
  · rw [hf _ _ hlast]
    exact (State.rasLast_fields _ d ht (by omega)).2

/-- The state in which a correction of the word at `a` is reported (R173). -/
def State.correctionTold (s : State) (d a : Nat) : State := s.errorTold d 5 32 32 1 a

theorem State.wordsOnly_correctionTold (s : State) (d a : Nat) : s.WordsOnly (s.correctionTold d a) (rasRegs d) := s.wordsOnly_errorTold _ _ _ _ _ _

/-- The row that a corrected error in the word at `a` counts, by physical place. -/
def State.errRow (s : State) (a : Nat) : Nat := (rowOf (s.physical a)).1

/-- The state with a corrected error in the word at `a` reported and counted in its row (R173, R176). -/
def State.correctionCounted (s : State) (d a : Nat) : State :=
  (s.correctionTold d a).setDie d { s.die d with rowErrs := (countRow (s.die d).rowErrs (s.errRow a)).1 }

/-- The words of CD_SLOT_MAP are none of those an error writes. -/
theorem State.slotOf_of_ras {t : State} (h : s.SameRegsBut t (rasRegs d)) (g : Nat) : t.slotOf g = s.slotOf g := by
  unfold State.slotOf State.f32
  rw [h _ (rasRegs_false ?_ (eventRegs_false ?_))]
  · unfold Reg.cdSlotMap Reg.cdMemStatus Reg.dieBase
    omega
  · unfold Reg.cdSlotMap Reg.dieBase Reg.hstStatus Reg.hstEvtCount
    omega

theorem State.physical_of_ras {t : State} (h : s.SameRegsBut t (rasRegs d)) (a : Nat) : t.physical a = s.physical a := by
  unfold State.physical
  simp only [State.slotOf_of_ras h]

theorem State.die_correctionTold (s : State) (d a x : Nat) : (s.correctionTold d a).die x = s.die x := by
  unfold State.die
  rw [(s.wordsOnly_correctionTold d a).1]

/-- A corrected error is reported and counted, and its row is scheduled for remap from the threshold on. -/
theorem State.eccCorrected_eq (s : State) (d a : Nat) :
    s.eccCorrected d a = if max 1 (s.f32 (Reg.cdRasCtl d) 12 4) ≤ (countRow (s.die d).rowErrs (s.errRow a)).2
      then (s.correctionCounted d a).scheduleRemap d (s.errRow a) else s.correctionCounted d a := by
  have hrow : (rowOf ((s.correctionTold d a).physical a)).1 = s.errRow a := by
    rw [State.physical_of_ras (s.wordsOnly_correctionTold d a).2]
    rfl
  have hctl : (s.correctionCounted d a).f32 (Reg.cdRasCtl d) 12 4 = s.f32 (Reg.cdRasCtl d) 12 4 := by
    unfold State.f32 State.correctionCounted
    rw [State.r32_setDie]
    unfold State.correctionTold
    rw [s.r32_errorTold_other]
    all_goals
      unfold Reg.cdRasCtl Reg.cdMemStatus
      omega
  unfold State.eccCorrected
  extract_lets s₁ row x r s₂
  have hx : x = s.die d := s.die_correctionTold d a d
  have hr : r = countRow (s.die d).rowErrs (s.errRow a) := by
    unfold r
    rw [hx, show row = s.errRow a from hrow]
  have hs₂ : s₂ = s.correctionCounted d a := by
    unfold s₂ State.correctionCounted
    rw [hr, hx]
    rfl
  rw [hs₂, hr, show row = s.errRow a from hrow, hctl]

/-- Of the dies' records a corrected error touches those of its die: the rows it counts and what a remap records. -/
def State.CountsOnly (s t : State) (d : Nat) : Prop :=
  t.die d = { s.die d with
      rowErrs := (t.die d).rowErrs, remapQ := (t.die d).remapQ, sparesUsed := (t.die d).sparesUsed, exhausted := (t.die d).exhausted }
    ∧ ∀ x, x ≠ d → t.die x = s.die x

theorem State.die_correctionCounted_same (s : State) (d a : Nat) :
    (s.correctionCounted d a).die d = { s.die d with rowErrs := (countRow (s.die d).rowErrs (s.errRow a)).1 } := State.die_setDie_same _ _ _

theorem State.die_correctionCounted_other (s : State) (d a : Nat) {x : Nat} (hx : x ≠ d) : (s.correctionCounted d a).die x = s.die x :=
  (State.die_setDie_other _ _ _ _ hx).trans (s.die_correctionTold d a x)

theorem State.eccCorrected_dies (s : State) (d a : Nat) :
    s.CountsOnly (s.eccCorrected d a) d ∧ ((s.eccCorrected d a).die d).rowErrs = (countRow (s.die d).rowErrs (s.errRow a)).1 := by
  have hcounted := s.die_correctionCounted_same d a
  have hother := fun x (hx : x ≠ d) => s.die_correctionCounted_other d a hx
  rw [s.eccCorrected_eq]
  split_ifs
  · obtain ⟨hdie, hrest⟩ := (s.correctionCounted d a).remapsOnly_scheduleRemap d (s.errRow a)
    refine ⟨⟨?_, fun x hx => (hrest x hx).trans (hother x hx)⟩, ?_⟩
    · rw [hdie, hcounted]
    · rw [hdie, hcounted]
  · exact ⟨⟨by rw [hcounted], hother⟩, by rw [hcounted]⟩

theorem State.corrected_eccCorrected (s : State) (hd : d < 8) (ha : a < 2 ^ 40) : s.Corrected (s.eccCorrected d a) d a := by
  have hcounted : (s.correctionTold d a).RasKept (s.correctionCounted d a) d := .of_regs (State.setDie_regs ..)
  refine State.errorTold_reads (s := s) (by decide) (by decide) (by decide) ha ?_
  change (s.correctionTold d a).RasKept _ d
  rw [s.eccCorrected_eq]
  split_ifs
  · exact hcounted.trans (State.rasKept_scheduleRemap _ _ hd)
  · exact hcounted

theorem State.errorOnly_of_records {t : State} (h : s.RecordsOnly t) (hdies : ∀ x, x ≠ d → t.die x = s.die x) (hregs : s.SameRegsBut t (rasRegs d)) :
    s.ErrorOnly t d := by
  refine ⟨?_, hdies, hregs⟩
  rw [h]

theorem State.errorOnly_eccCorrected (s : State) (d a : Nat) : s.ErrorOnly (s.eccCorrected d a) d :=
  State.errorOnly_of_records (s.recordsOnly_eccCorrected d a) (s.eccCorrected_dies d a).1.2 s.sameRegs_eccCorrected

/-- A row whose count reaches the threshold is queued where it is not yet and its macro has a spare. -/
theorem State.eccCorrected_remap (hn : max 1 (s.f32 (Reg.cdRasCtl d) 12 4) ≤ (countRow (s.die d).rowErrs (s.errRow a)).2)
    (hq : s.errRow a ∉ (s.die d).remapQ)
    (hspare : Tab.get (fun _ => 0) (s.die d).sparesUsed (macroOf (s.errRow a)) < spareRows (macroOf (s.errRow a))) :
    ((s.eccCorrected d a).die d).remapQ = (s.die d).remapQ ++ [s.errRow a] ∧ bitAt ((s.eccCorrected d a).r32 (Reg.cdMemStatus d)) 4 = true := by
  have hcounted := s.die_correctionCounted_same d a
  have hremap := State.scheduleRemap_spare (s := s.correctionCounted d a) (d := d) (row := s.errRow a) (by rwa [hcounted]) (by rwa [hcounted])
  rw [s.eccCorrected_eq, if_pos hn]
  rwa [hcounted] at hremap

end

/-! ## Reads that find a word stored with an error (R173) -/

section

variable {s t : State} {d : Nat} {w : BitVec 37}

/-- One word of sound memory that comes to be stored with a single-bit error. -/
theorem State.soft_upset_one (hsoft : s.soft = []) (hp : s.poisoned (8 * w.toNat) = false) : (s.upset [w]).soft = [(w.toNat, true)] := by
  unfold State.upset
  simp only [List.foldl_cons, List.foldl_nil, hp, hsoft]
  rfl

theorem State.isSoft_of_soft {n a : Nat} (h : s.soft = [(n, true)]) : s.isSoft a = decide (a / 8 = n) := by
  unfold State.isSoft
  rw [h]
  rcases eq_or_ne (a / 8) n with rfl | hne
  · simp [Tab.get]
  · simp [Tab.get, hne, hne.symm]

/-- A read of the one word stored with an error corrects and reports it. -/
theorem State.noticed_one {n : Nat} {addrs : List Nat} (h : s.soft = [(n, true)]) (hn : n ∈ addrs.map (· / 8)) :
    s.noticed addrs = s.eccCorrected (addrDie (8 * n)) (8 * n) := by
  have hsoft : (fun w => s.isSoft (8 * w)) = (· == n) := funext fun x => by
    rw [State.isSoft_of_soft h, Nat.mul_div_cancel_left _ (by decide)]
    rfl
  have hcount : ((addrs.map (· / 8)).eraseDups).count n = 1 :=
    List.count_eq_one_of_mem (nodup_eraseDups _) (List.mem_eraseDups.2 hn)
  unfold State.noticed
  rw [if_neg (by rw [h]; simp), hsoft, List.filter_beq, hcount, List.replicate_one, List.foldl_cons, List.foldl_nil]

theorem State.corrected_congr {a : Nat} {v u : State} (h : v.Corrected t d a) (hv : v.regs = s.regs) (hu : u.regs = t.regs) : s.Corrected u d a := by
  have hr : ∀ b, u.r32 b = t.r32 b := fun b => State.r32_congr t u hu b
  have hcount : ∀ b lo k, u.f64 b lo k = t.f64 b lo k := fun b lo k => State.f64_congr t u hu b lo k
  unfold State.Corrected
  rw [hr, hcount, hcount, hcount, ← State.f64_congr s v hv]
  exact h

theorem shmReadRequest_out (d off n : Nat) (up : List (BitVec 37)) (s : State) :
    (shmReadRequest d off n up s).out
        = s.out ++ [.readData (32 * n) (leNat (s.rdBytes (d * 2 ^ 36 + off / 32 * 32) (32 * n)))]
      ∧ s.SameBytes (shmReadRequest d off n up s) := by
  have hrecords := (s.upset up).recordsOnly_noticed ((List.range (4 * n)).map (fun i => d * 2 ^ 36 + off / 32 * 32 + 8 * i))
  unfold shmReadRequest
  extract_lets a v
  change (s.upset up).RecordsOnly v at hrecords
  have hmem : v.mem = s.mem := by rw [hrecords]; rfl
  have hpoison : v.poison = s.poison := by rw [hrecords]; rfl
  have hout : v.out = s.out := by rw [hrecords]; rfl
  have hbytes : s.SameBytes v := .of_mem hmem hpoison
  refine ⟨?_, hbytes.trans (.of_mem rfl rfl)⟩
  unfold State.emit
  rw [hout, s.rdBytes_congr v a (32 * n) fun x _ _ => (hbytes x).1]

/-- The bytes of whole lines, by the first of each word. -/
theorem words_sound {a n : Nat} (h : s.Sound a (32 * n)) : ∀ x, x ∈ (List.range (4 * n)).map (fun i => a + 8 * i) → s.isSoft x = false := by
  simp only [List.mem_map, List.mem_range]
  rintro x ⟨i, hi, rfl⟩
  exact h _ (by omega) (by omega)

theorem shmReadRequest_sound {d off n : Nat} (h : s.Sound (d * 2 ^ 36 + off / 32 * 32) (32 * n)) :
    shmReadRequest d off n [] s = s.emit (.readData (32 * n) (leNat (s.rdBytes (d * 2 ^ 36 + off / 32 * 32) (32 * n)))) := by
  unfold shmReadRequest
  extract_lets a v
  rw [show v = s from State.noticed_of_not_soft s (words_sound h)]

theorem shmReadRequest_one {off n a : Nat} (ha : a = d * 2 ^ 36 + off / 32 * 32) (hsoft : s.soft = []) (hp : s.poisoned (8 * w.toNat) = false)
    (hlo : a ≤ 8 * w.toNat) (hhi : 8 * w.toNat < a + 32 * n) (hdie : addrDie (8 * w.toNat) = d) :
    ∃ o, shmReadRequest d off n [w] s = ((s.upset [w]).eccCorrected d (8 * w.toNat)).emit o := by
  have hmem : w.toNat ∈ ((List.range (4 * n)).map (fun i => a + 8 * i)).map (· / 8) := by
    simp only [List.mem_map, List.mem_range, exists_exists_and_eq_and]
    exact ⟨w.toNat - a / 8, by omega, by omega⟩
  have hnoticed := State.noticed_one (State.soft_upset_one hsoft hp) hmem
  rw [hdie, ha] at hnoticed
  unfold shmReadRequest
  extract_lets x v
  rw [show v = _ from hnoticed]
  exact ⟨_, rfl⟩

/-- The state after a correction in the one word stored with an error, with an output behind it. -/
theorem State.corrects_emit {v : State} {o : Output} (hsoft : s.soft = []) (hp : s.poisoned (8 * w.toNat) = false) (hd : d < 8)
    (hv : v = (s.upset [w]).eccCorrected d (8 * w.toNat)) :
    s.Corrected (v.emit o) d (8 * w.toNat) ∧ (v.emit o).isSoft (8 * w.toNat) = true ∧ s.ErrorOnly (v.emit o) d := by
  have hcorrected := State.corrected_eccCorrected (s.upset [w]) hd (show 8 * w.toNat < 2 ^ 40 by omega)
  obtain ⟨hshape, hdies, hregs⟩ := State.errorOnly_eccCorrected (s.upset [w]) d (8 * w.toNat)
  have hrecords := (s.upset [w]).recordsOnly_eccCorrected d (8 * w.toNat)
  rw [← hv] at hcorrected hshape hdies hregs hrecords
  have hsoft' : (v.emit o).soft = [(w.toNat, true)] := by
    rw [hrecords]
    exact State.soft_upset_one hsoft hp
  refine ⟨State.corrected_congr hcorrected rfl rfl, ?_, ?_, hdies, hregs⟩
  · rw [State.isSoft_of_soft hsoft']
    simp
  · rw [hshape]
    rfl

end

/-! ## The scrubber's walk (R175, R176) -/

section

variable {s t : State} {d key : Nat}

theorem unitLines_pos (key : Nat) : 0 < unitLines key := by
  unfold unitLines unitBytes
  split_ifs <;> decide

/-- The state after the walk of a unit has moved on by a line in an idle bank cycle. -/
def State.walked (s : State) (d key : Nat) : State :=
  s.setDie d { s.die d with
    scrubIdle := Tab.put (fun _ => 0) (s.die d).scrubIdle key ((Tab.get (fun _ => 0) (s.die d).scrubIdle key + 1) % unitLines key) }

theorem State.scrubIdle_eq (s : State) (d key : Nat) : s.scrubIdle d key = (s.scrubUnitBy d key 1).walked d key := rfl

theorem State.die_walked (s : State) (d key : Nat) :
    (s.walked d key).die d = { s.die d with
      scrubIdle := Tab.put (fun _ => 0) (s.die d).scrubIdle key ((Tab.get (fun _ => 0) (s.die d).scrubIdle key + 1) % unitLines key) } :=
  s.die_setDie_same d _

theorem State.die_walked_other (s : State) (d key : Nat) {x : Nat} (hx : x ≠ d) : (s.walked d key).die x = s.die x := s.die_setDie_other d x _ hx

/-- The walk of a unit goes on to its next line, and from its last to its first. -/
theorem State.scrubAt_walked (s : State) (d key : Nat) :
    (s.walked d key).scrubAt d key = if s.scrubAt d key + 1 < unitLines key then s.scrubAt d key + 1 else 0 := by
  have hpos := unitLines_pos key
  unfold State.scrubAt
  rw [s.die_walked, Tab.get_put_same, Nat.add_mod_mod, ← Nat.add_assoc]
  generalize (s.die d).scrubWin * windowLines key + Tab.get (fun _ => 0) (s.die d).scrubIdle key = p
  split_ifs with hlt
  · rw [Nat.add_mod, Nat.mod_eq_of_lt (show 1 < unitLines key by omega), Nat.mod_eq_of_lt hlt]
  · have hlast : p % unitLines key + 1 = unitLines key := by
      have := Nat.mod_lt p hpos
      omega
    have hdiv := Nat.div_add_mod p (unitLines key)
    rw [show p + 1 = unitLines key * (p / unitLines key + 1) by rw [Nat.mul_add]; omega, Nat.mul_mod_right]

theorem State.scrubAt_walked_other (s : State) (d : Nat) {key k : Nat} (hk : k ≠ key) : (s.walked d key).scrubAt d k = s.scrubAt d k := by
  unfold State.scrubAt
  rw [s.die_walked, Tab.get_put_other _ _ _ _ _ hk]

theorem State.scrubAt_of_counts (h : s.CountsOnly t d) (k : Nat) : t.scrubAt d k = s.scrubAt d k := by
  unfold State.scrubAt
  rw [h.1]

/-- The scrubber finds nothing in memory without an error. -/
theorem State.scrubLines_of_sound (h : s.soft = []) (line k : Nat) : s.scrubLines d key line k = s := by
  unfold State.scrubLines
  rw [h]
  rfl

theorem State.scrubUnitBy_of_sound (h : s.soft = []) (hlt : s.scrubAt d key + 1 < unitLines key) : s.scrubUnitBy d key 1 = s := by
  unfold State.scrubUnitBy
  extract_lets p n
  rw [if_pos hlt, State.scrubLines_of_sound h]

theorem State.scrubUnitBy_end (h : s.soft = []) (hlast : s.scrubAt d key + 1 = unitLines key) : s.scrubUnitBy d key 1 = s.scrubWrap d key := by
  unfold State.scrubUnitBy
  extract_lets p n
  rw [if_neg (show ¬ p + 1 < n from hlast.not_lt), State.scrubLines_of_sound h, State.scrubLines_of_sound]
  exact h

/-- An entry noted for the pass of its unit. -/
def RowErr.noted (e : RowErr) (row : Nat) : RowErr := if e.row = row then { e with inPass := true } else e

/-- The state with word `n` of die `d` written back corrected and its row noted for the pass. -/
def State.writtenBack (s : State) (d n : Nat) : State :=
  let x := s.die d
  let s := s.setDie d { x with rowErrs := x.rowErrs.map (fun e => if e.row = (rowOf (s.physical (8 * n))).1 then { e with inPass := true } else e) }
  { s with soft := Tab.put (fun _ => false) s.soft n false }

theorem State.scrubLines_eq (s : State) (d key line k : Nat) :
    s.scrubLines d key line k = ((s.soft.map (·.1)).filter (fun w => addrDie (8 * w) == d && scrubUnit (s.physical (8 * w)) == key
      && decide (line ≤ lineInUnit (8 * w)) && decide (lineInUnit (8 * w) < line + k))).foldl
        (fun s w => (s.eccCorrected d (8 * w)).writtenBack d w) s := rfl

/-- The scrubber corrects and writes back the one word stored with an error in the lines it reads. -/
theorem State.scrubLines_one {n line k : Nat} (h : s.soft = [(n, true)]) (hdie : addrDie (8 * n) = d) (hkey : scrubUnit (s.physical (8 * n)) = key)
    (hlo : line ≤ lineInUnit (8 * n)) (hhi : lineInUnit (8 * n) < line + k) : s.scrubLines d key line k = (s.eccCorrected d (8 * n)).writtenBack d n := by
  have hhit : (addrDie (8 * n) == d && scrubUnit (s.physical (8 * n)) == key && decide (line ≤ lineInUnit (8 * n))
      && decide (lineInUnit (8 * n) < line + k)) = true := by
    simp only [hdie, hkey, beq_self_eq_true, Bool.true_and, Bool.and_eq_true, decide_eq_true_eq]
    exact ⟨hlo, hhi⟩
  rw [State.scrubLines_eq]
  simp only [h, List.map_cons, List.map_nil, List.filter_cons, List.filter_nil, hhit, if_true, List.foldl_cons, List.foldl_nil]

theorem State.errRow_eccCorrected (s : State) (d a b : Nat) : (s.eccCorrected d a).errRow b = s.errRow b := by
  unfold State.errRow
  rw [State.physical_of_ras s.sameRegs_eccCorrected]

end

/-! ## A line that the scrubber reads (R175) -/

section

variable {s : State} {d region off a key p : Nat} {up : List (BitVec 37)}

theorem scrubRead_waits (ha : a = d * 2 ^ 36 + region * 2 ^ 32 + off) (hkey : key = scrubUnit (s.physical a)) (hp : p = s.scrubAt d key)
    (h : bitAt (s.r32 (Reg.cdRasCtl d)) 8 = false ∨ lineInUnit a ≠ p) : scrubRead d region off up s = s.upset up := by
  unfold scrubRead
  extract_lets v b k
  have hk : k = key := by rw [hkey, ha]; rfl
  have hat : v.scrubAt d k = p := by rw [hk, hp]; rfl
  have hno : ¬ (bitAt (v.r32 (Reg.cdRasCtl d)) 8 && lineInUnit b == v.scrubAt d k) = true := by
    rw [hat, show v.r32 (Reg.cdRasCtl d) = s.r32 (Reg.cdRasCtl d) from rfl, show b = a from ha.symm]
    rcases h with h | h <;> simp [h]
  rw [if_neg hno]

theorem scrubRead_reads (ha : a = d * 2 ^ 36 + region * 2 ^ 32 + off) (hkey : key = scrubUnit (s.physical a)) (hp : p = s.scrubAt d key)
    (hidle : bitAt (s.r32 (Reg.cdRasCtl d)) 8 = true) (hline : lineInUnit a = p) : scrubRead d region off up s = (s.upset up).scrubIdle d key := by
  unfold scrubRead
  extract_lets v b k
  have hk : k = key := by rw [hkey, ha]; rfl
  have hat : v.scrubAt d k = p := by rw [hk, hp]; rfl
  have hyes : (bitAt (v.r32 (Reg.cdRasCtl d)) 8 && lineInUnit b == v.scrubAt d k) = true := by
    rw [hat, show v.r32 (Reg.cdRasCtl d) = s.r32 (Reg.cdRasCtl d) from rfl, show b = a from ha.symm, hidle, hline]
    simp
  rw [if_pos hyes, hk]

/-- Where nothing is stored with an error the walk alone moves on. -/
theorem State.scrubIdle_sound (hsoft : s.soft = []) (hp : p = s.scrubAt d key) (hlt : p + 1 < unitLines key) : s.scrubIdle d key = s.walked d key := by
  rw [State.scrubIdle_eq, State.scrubUnitBy_of_sound hsoft (hp ▸ hlt)]

theorem State.walked_moves (s : State) (hp : p = s.scrubAt d key) (hlt : p + 1 < unitLines key) :
    (s.walked d key).scrubAt d key = p + 1 := by
  rw [State.scrubAt_walked, ← hp, if_pos hlt]

theorem State.scrubAt_wrap (s : State) (d key k : Nat) : (s.scrubWrap d key).scrubAt d k = s.scrubAt d k := by
  unfold State.scrubAt State.scrubWrap
  rw [s.die_setDie_same]

theorem State.rowErrs_wrap (s : State) (d key : Nat) :
    ((s.scrubWrap d key).die d).rowErrs = (s.die d).rowErrs.filterMap (fun e => if scrubUnit e.row = key then
      (if e.inPass then some { e with inPass := false } else none) else some e) := by
  unfold State.scrubWrap
  rw [s.die_setDie_same]
  simp only [beq_iff_eq]
  induction (s.die d).rowErrs with
  | nil => rfl
  | cons e l ih =>
    rw [List.filterMap_cons, List.filter_cons]
    by_cases hkey : scrubUnit e.row = key
    · cases e.inPass <;> simp [hkey, ih]
    · simp [hkey, ih]

/-- Behind the last line of its unit the walk ends a pass. -/
theorem State.scrubIdle_end (hsoft : s.soft = []) (hp : p = s.scrubAt d key) (hlast : p + 1 = unitLines key) :
    let t := s.scrubIdle d key
    t.scrubAt d key = 0
      ∧ (t.die d).rowErrs = (s.die d).rowErrs.filterMap (fun e => if scrubUnit e.row = key then
          (if e.inPass then some { e with inPass := false } else none) else some e)
      ∧ t = { s with dies := t.dies } ∧ ∀ x, x ≠ d → t.die x = s.die x := by
  rw [State.scrubIdle_eq, State.scrubUnitBy_end hsoft (hp ▸ hlast)]
  refine ⟨?_, ?_, rfl, fun x hx => ?_⟩
  · rw [State.scrubAt_walked, State.scrubAt_wrap, ← hp, if_neg (by omega)]
  · rw [State.die_walked]
    exact s.rowErrs_wrap d key
  · rw [State.die_walked_other _ _ _ hx]
    exact s.die_setDie_other d x _ hx

end

/-! ## An error that the scrubber finds (R175, R176) -/

section

variable {s : State} {d n row key : Nat}

/-- What the scrubber leaves once it has corrected an error: noted for the pass and written back, and the walk one line on. -/
def State.scrubbed (s : State) (d n key : Nat) : State := (s.writtenBack d n).walked d key

section

variable (v : State)

theorem State.die_writtenBack : (v.writtenBack d n).die d = { v.die d with rowErrs := (v.die d).rowErrs.map (·.noted (v.errRow (8 * n))) } := v.die_setDie_same d _

theorem State.die_writtenBack_other {x : Nat} (hx : x ≠ d) : (v.writtenBack d n).die x = v.die x := v.die_setDie_other d x _ hx

theorem State.die_scrubbed : (v.scrubbed d n key).die d = { v.die d with
    rowErrs := (v.die d).rowErrs.map (·.noted (v.errRow (8 * n)))
    scrubIdle := Tab.put (fun _ => 0) (v.die d).scrubIdle key ((Tab.get (fun _ => 0) (v.die d).scrubIdle key + 1) % unitLines key) } := by
  unfold State.scrubbed
  rw [State.die_walked, v.die_writtenBack]

theorem State.die_scrubbed_other {x : Nat} (hx : x ≠ d) : (v.scrubbed d n key).die x = v.die x := by
  unfold State.scrubbed
  rw [State.die_walked_other _ _ _ hx, v.die_writtenBack_other hx]

theorem State.regs_scrubbed : (v.scrubbed d n key).regs = v.regs := rfl

theorem State.isSoft_scrubbed : (v.scrubbed d n key).isSoft (8 * n) = false := by
  unfold State.isSoft
  rw [Nat.mul_div_cancel_left _ (by decide)]
  exact Tab.get_put_same (fun _ => false) v.soft n false

theorem State.scrubAt_scrubbed (hlt : v.scrubAt d key + 1 < unitLines key) : (v.scrubbed d n key).scrubAt d key = v.scrubAt d key + 1 := by
  have hback : (v.writtenBack d n).scrubAt d key = v.scrubAt d key := by
    unfold State.scrubAt
    rw [v.die_writtenBack]
  unfold State.scrubbed
  rw [State.scrubAt_walked, hback, if_pos hlt]

variable {v}

theorem State.errorOnly_scrubbed (hrecords : s.RecordsOnly v) (hdies : ∀ x, x ≠ d → v.die x = s.die x) (hregs : s.SameRegsBut v (rasRegs d)) :
    s.ErrorOnly (v.scrubbed d n key) d ∧ (v.scrubbed d n key).out = s.out := by
  refine ⟨⟨?_, fun x hx => ?_, hregs⟩, ?_⟩
  · rw [hrecords]
    rfl
  · rw [v.die_scrubbed_other hx, hdies x hx]
  · rw [hrecords]
    rfl

end

/-- A row that the table holds counts one more. -/
theorem countRow_of_find {l : List RowErr} {e : RowErr} (h : l.find? (fun e => e.row == row) = some e) :
    countRow l row = (l.map (fun y => if y.row = row then { y with count := y.count + 1 } else y), e.count + 1) := by
  unfold countRow
  rw [h]

theorem find_map_of_row {l : List RowErr} {f : RowErr → RowErr} (hf : ∀ y, (f y).row = y.row) :
    (l.map f).find? (fun e => e.row == row) = (l.find? (fun e => e.row == row)).map f := by
  rw [List.find?_map]
  congr 2
  funext y
  simp [hf]

theorem RowErr.row_noted (e : RowErr) (row : Nat) : (e.noted row).row = e.row := by
  unfold RowErr.noted
  split_ifs <;> rfl

/-- The entry of the row that the scrubber found counts one more and is noted for the pass. -/
theorem State.entry_scrubbed {v : State} {e : RowErr} (h : (s.die d).rowErrs.find? (fun e => e.row == row) = some e)
    (hv : (v.die d).rowErrs = (countRow (s.die d).rowErrs row).1) (hr : v.errRow (8 * n) = row) :
    ∃ e', ((v.scrubbed d n key).die d).rowErrs.find? (fun e => e.row == row) = some e' ∧ e'.count = e.count + 1 ∧ e'.inPass = true := by
  have hrow : e.row = row := by simpa using List.find?_some h
  rw [State.die_scrubbed, hv, hr, countRow_of_find h]
  simp only
  rw [find_map_of_row (fun y => y.row_noted _), find_map_of_row (fun y => by split_ifs <;> rfl), h]
  refine ⟨_, rfl, ?_, ?_⟩
  · simp [RowErr.noted, hrow]
  · simp [RowErr.noted, hrow]

/-- The scrubber's read of the line that holds the one word stored with an error. -/
theorem State.scrubIdle_one {p : Nat} (h : s.soft = [(n, true)]) (hp : p = s.scrubAt d key) (hlt : p + 1 < unitLines key) (hdie : addrDie (8 * n) = d)
    (hkey : scrubUnit (s.physical (8 * n)) = key) (hline : lineInUnit (8 * n) = p) :
    s.scrubIdle d key = (s.eccCorrected d (8 * n)).scrubbed d n key := by
  have hstep : s.scrubUnitBy d key 1 = s.scrubLines d key p 1 := by
    unfold State.scrubUnitBy
    rw [← hp]
    exact if_pos hlt
  rw [State.scrubIdle_eq, hstep, State.scrubLines_one h hdie hkey (by rw [hline]) (by omega)]
  rfl

theorem State.errorOnly_of_upset {t : State} {up : List (BitVec 37)} (h : (s.upset up).ErrorOnly t d) : s.ErrorOnly t d := by
  refine ⟨?_, h.2⟩
  rw [h.1]
  rfl

variable {v : State}

/-- What a correction by the scrubber tells and leaves, for the state `v` right after the correction. -/
theorem State.scrubbed_told {w : BitVec 37} {p : Nat} (hv : v = (s.upset [w]).eccCorrected d (8 * w.toNat)) (hd : d < 8) (hp : p = s.scrubAt d key)
    (hlt : p + 1 < unitLines key) :
    let t := v.scrubbed d w.toNat key
    s.Corrected t d (8 * w.toNat) ∧ t.isSoft (8 * w.toNat) = false ∧ t.scrubAt d key = p + 1 ∧ s.ErrorOnly t d ∧ t.out = s.out := by
  have hcorrected := State.corrected_eccCorrected (s.upset [w]) hd (show 8 * w.toNat < 2 ^ 40 by omega)
  have hrecords := (s.upset [w]).recordsOnly_eccCorrected d (8 * w.toNat)
  have hcounts := ((s.upset [w]).eccCorrected_dies d (8 * w.toNat)).1
  have hregs : (s.upset [w]).SameRegsBut _ (rasRegs d) := (s.upset [w]).sameRegs_eccCorrected (a := 8 * w.toNat)
  rw [← hv] at hcorrected hrecords hcounts hregs
  have hat : v.scrubAt d key = p := (State.scrubAt_of_counts hcounts key).trans hp.symm
  obtain ⟨herror, hout⟩ := State.errorOnly_scrubbed (n := w.toNat) (key := key) hrecords hcounts.2 hregs
  refine ⟨State.corrected_congr hcorrected rfl v.regs_scrubbed, v.isSoft_scrubbed, ?_, State.errorOnly_of_upset herror, hout⟩
  rw [v.scrubAt_scrubbed (by rwa [hat]), hat]

/-- What a correction by the scrubber does to a row that the table holds, for the state `v` right after the correction. -/
theorem State.scrubbed_counts {w : BitVec 37} {e : RowErr} (hv : v = (s.upset [w]).eccCorrected d (8 * w.toNat)) (hrow : row = s.errRow (8 * w.toNat))
    (he : (s.die d).rowErrs.find? (fun e => e.row == row) = some e) :
    let t := v.scrubbed d w.toNat key
    (∃ e', (t.die d).rowErrs.find? (fun e => e.row == row) = some e' ∧ e'.count = e.count + 1 ∧ e'.inPass = true)
      ∧ (max 1 (s.f32 (Reg.cdRasCtl d) 12 4) ≤ e.count + 1 → row ∉ (s.die d).remapQ
        → Tab.get (fun _ => 0) (s.die d).sparesUsed (macroOf row) < spareRows (macroOf row)
        → (t.die d).remapQ = (s.die d).remapQ ++ [row] ∧ bitAt (t.r32 (Reg.cdMemStatus d)) 4 = true) := by
  have hrows := ((s.upset [w]).eccCorrected_dies d (8 * w.toNat)).2
  have herr := (s.upset [w]).errRow_eccCorrected d (8 * w.toNat) (8 * w.toNat)
  have hremap := State.eccCorrected_remap (s := s.upset [w]) (d := d) (a := 8 * w.toNat)
  rw [← hv] at hrows herr hremap
  have hrow' : (s.upset [w]).errRow (8 * w.toNat) = row := hrow.symm
  rw [hrow'] at hrows herr hremap
  refine ⟨State.entry_scrubbed he hrows herr, fun hn hq hspare => ?_⟩
  obtain ⟨hqueue, hbit⟩ := hremap (by
    rw [show (countRow ((s.upset [w]).die d).rowErrs row).2 = e.count + 1 from congrArg Prod.snd (countRow_of_find he)]
    exact hn) hq hspare
  rw [State.r32_congr _ _ v.regs_scrubbed, v.die_scrubbed]
  exact ⟨hqueue, hbit⟩

end

/-! ## Steps of partitions, the loader and the host interface (R376, R405, R447) -/

/-- The registers from those of the package up, behind the ones of the compute dies. -/
def topRegs (a : Nat) : Bool := decide (Reg.topId ≤ a)

/-- No byte or mark of memory differs, and no register of a compute die. -/
def State.BesideDies (s t : State) : Prop := t.mem = s.mem ∧ t.poison = s.poison ∧ s.SameRegsBut t topRegs

section

variable {s t u : State}

theorem State.BesideDies.refl (s : State) : s.BesideDies s := ⟨rfl, rfl, fun _ _ => rfl⟩

theorem State.BesideDies.trans (h : s.BesideDies t) (g : t.BesideDies u) : s.BesideDies u :=
  ⟨g.1.trans h.1, g.2.1.trans h.2.1, h.2.2.trans g.2.2⟩

theorem State.BesideDies.foldl {α : Type} {f : State → α → State} {l : List α} (h : ∀ u x, State.BesideDies u (f u x)) : s.BesideDies (l.foldl f s) :=
  List.foldlRecOn l f (motive := s.BesideDies) (.refl s) fun u hu x _ => hu.trans (h u x)

theorem State.BesideDies.of_eq (hm : t.mem = s.mem) (hp : t.poison = s.poison) (hr : t.regs = s.regs) : s.BesideDies t := ⟨hm, hp, .of_regs hr⟩

theorem State.besideDies_w32 (s : State) {a : Nat} (ha : Reg.topId ≤ a) (v : Nat) : s.BesideDies (s.w32 a v) :=
  ⟨rfl, rfl, (s.wordsOnly_w32 v (f := topRegs) (decide_eq_true ha)).2⟩

theorem topRegs_of_event {a : Nat} (h : eventRegs a = true) : topRegs a = true := by
  simp only [eventRegs, Bool.or_eq_true, beq_iff_eq] at h
  unfold Reg.hstEvtCount Reg.hstStatus at h
  unfold topRegs Reg.topId
  rw [decide_eq_true_eq]
  omega

theorem topRegs_of_told {a : Nat} (h : toldRegs a = true) : topRegs a = true := by
  simp only [toldRegs, Bool.and_eq_true, decide_eq_true_eq] at h
  unfold Reg.msixPba at h
  unfold topRegs Reg.topId
  rw [decide_eq_true_eq]
  omega

theorem topRegs_of_ras {d a : Nat} (hd : d < 8) (h : Reg.cdMemStatus d ≤ a) (h' : a < Reg.cdMemStatus d + 0x18) : topRegs a = false := by
  unfold Reg.cdMemStatus Reg.dieBase at *
  unfold topRegs Reg.topId
  rw [decide_eq_false_iff_not]
  omega

/-- Such a step keeps what a die's registers tell of errors. -/
theorem State.BesideDies.rasKept (h : s.BesideDies t) {d : Nat} (hd : d < 8) : s.RasKept t d := .of_sameRegs h.2.2 fun _ => topRegs_of_ras hd

theorem State.besideDies_postEvent (s : State) (type part source data : Nat) : s.BesideDies (s.postEvent type part source data) :=
  ⟨State.postEvent_mem .., State.postEvent_poison .., (s.sameRegs_postEvent _ _ _ _).mono fun _ => topRegs_of_event⟩

theorem State.besideDies_complete (s : State) (rid cmdId status r0 r1 : Nat) : s.BesideDies (s.complete rid cmdId status r0 r1) := by
  obtain ⟨r, o, k, e⟩ := s.complete_host rid cmdId status r0 r1
  exact ⟨by rw [e], by rw [e], (s.sameRegs_complete _ _ _ _ _).mono fun _ => topRegs_of_told⟩

theorem State.besideDies_recordStop (s : State) (n status : Nat) (k : StopKind) : s.BesideDies (s.recordStop n status k) := by
  unfold State.recordStop
  rw [State.recordStopAt_shape]
  exact .of_eq rfl rfl rfl

/-- The abort of a step goes to its partition, the serving engine's plan, its job register and an event. -/
theorem State.suspendStep_shape (s : State) (n : Nat) :
    ∃ v r p, s.suspendStep n = { s with serving := v, regs := r, parts := p } ∧ s.BesideDies (s.suspendStep n) := by
  unfold State.suspendStep
  split_ifs
  · exact ⟨_, _, _, rfl, .refl s⟩
  · exact ⟨s.serving, s.regs, (s.recordStop n 0x54 .fault).parts, State.recordStopAt_shape .., s.besideDies_recordStop _ _ _⟩
  · refine ⟨_, _, _, rfl, ?_⟩
    refine State.BesideDies.trans (t := ({ s with serving := _ } : State).set32 (Reg.topPartJob n) 6) ?_ (.of_eq rfl rfl rfl)
    exact State.BesideDies.trans (.of_eq rfl rfl rfl) (State.besideDies_w32 _ (by unfold Reg.topId Reg.topPartJob; omega) _)

theorem State.abortStep_shape (s : State) (n : Nat) :
    ∃ v r p h, s.abortStep n = { s with serving := v, regs := r, parts := p, host := h } ∧ s.BesideDies (s.abortStep n) := by
  obtain ⟨v, r, p, hshape, hbeside⟩ := s.suspendStep_shape n
  unfold State.abortStep
  extract_lets u
  change u = _ at hshape
  change s.BesideDies u at hbeside
  clear_value u
  split
  · obtain ⟨r', h, e⟩ := u.postEvent_shape 0x0111 n 8 (n + (s.gen n + 1) % 16 * 2 ^ 8 + s.hourCount * 2 ^ 64)
    refine ⟨v, r', p, h, ?_, hbeside.trans (u.besideDies_postEvent _ _ _ _)⟩
    rw [e, hshape]
  · exact ⟨v, r, p, s.host, hshape, hbeside⟩

theorem State.besideDies_abortStep (s : State) (n : Nat) : s.BesideDies (s.abortStep n) :=
  let ⟨_, _, _, _, _, h⟩ := s.abortStep_shape n
  h

theorem State.besideDies_loader (s : State) (l : Loader) : s.BesideDies { s with loader := l } := .of_eq rfl rfl rfl

theorem State.besideDies_repairWait (s : State) : s.BesideDies s.repairWait := s.besideDies_w32 (by decide) _

theorem State.besideDies_askRepairs (k : Nat) : ∀ s : State, s.BesideDies (s.askRepairs k) := by
  induction k with
  | zero => exact .refl
  | succ k ih =>
    intro s
    unfold State.askRepairs
    split
    · exact ((s.besideDies_loader _).trans (State.besideDies_complete _ _ _ _ _ _)).trans (ih _)
    · exact .refl s

theorem State.besideDies_openRepairs (s : State) (a len : Nat) : s.BesideDies (s.openRepairs a len) := by
  unfold State.openRepairs
  extract_lets hits t
  refine State.BesideDies.trans (t := t) (.foldl fun u h => ?_) ((State.besideDies_repairWait _).trans (State.besideDies_askRepairs _ _))
  split
  · exact .refl u
  · exact (u.besideDies_loader _).trans (.foldl fun v n => .of_eq rfl rfl rfl)

theorem State.besideDies_loseBlock (s : State) (n d off : Nat) : s.BesideDies (s.loseBlock n d off) := by
  unfold State.loseBlock
  split
  · exact .refl s
  next v _ =>
    extract_lets bytes b hit planned any s₁ cut s₂
    have hs₂ : s.BesideDies s₂ := .of_eq rfl rfl rfl
    split
    · exact .refl s
    · split
      · exact hs₂.trans (s₂.besideDies_abortStep n)
      · exact hs₂

/-- What follows an error in shared memory touches no memory and no register of a die. -/
theorem State.besideDies_shmError (s : State) (d off a : Nat) : s.BesideDies (s.shmError d off a) := by
  unfold State.shmError
  extract_lets lines meets imgs common kv users aborted
  have haborted : s.BesideDies aborted := .foldl fun u n => u.besideDies_abortStep n
  split
  · exact haborted.trans (.foldl fun u l => u.besideDies_openRepairs l 32)
  · split
    · exact .refl s
    · split
      · exact s.besideDies_loseBlock _ _ _
      · split
        · exact s.besideDies_recordStop _ _ _
        · exact .refl s

/-- Outside images, the common range and the ranges of partitions nothing follows. -/
theorem State.shmError_quiet {d off a : Nat} (himg : s.loader.images = []) (hcommon : s.levelBound 0 d 3 = 0) (hown : s.rangeOwner d off = none) :
    s.shmError d off a = s := by
  unfold State.shmError
  extract_lets lines meets imgs common kv users aborted
  have himgs : imgs = [] := by
    unfold imgs
    rw [himg]
    rfl
  have hno : ¬ (!imgs.isEmpty || common) = true := by
    unfold common
    rw [himgs, hcommon]
    simp
  rw [if_neg hno, hown]

end

/-! ## An uncorrectable word (R174, R180, R181) -/

section

variable {s t v : State} {d a part row region off g : Nat} {feed : Bool}

/-- The state with the word at `a` of die `d` marked as poisoned. -/
def State.marked (s : State) (a : Nat) : State := (s.setPoison a true).setSelfErr a true

/-- The state with an uncorrectable error in the word at `a` of die `d` marked and recorded, its event told to `part` and its row given to the
remap (R180). -/
def State.uncorrected (s : State) (d a part row : Nat) : State := (((s.marked a).errorTold d 6 16 16 2 a).memoryEvent d part).scheduleRemap d row

/-- The state in which core `g` is one of those to fence at the next Hour. -/
def State.listFence (s : State) (g : Nat) : State := { s with hour := { s.hour with toFence := s.hour.toFence ++ [g] } }

/-- The state in which core `g` is fenced at the next Hour, unless it is or will be, and its partition's step is aborted (Table 6-7). -/
def State.fencesAtHour (s : State) (g : Nat) : State :=
  if (s.core g).fenced ∨ s.hour.toFence.contains g then s
  else match (s.listFence g).owner g with
    | some n => (s.listFence g).abortStep n
    | none => s.listFence g

theorem eccUncorrectable_eq (ha : a = d * 2 ^ 36 + region * 2 ^ 32 + off) : ∃ part row, eccUncorrectable d region off feed s
    = if region = 0 then (s.uncorrected d a part row).shmError d off a
      else if region = 2 ∧ feed then s.uncorrected d a part row
      else (s.uncorrected d a part row).fencesAtHour (16 * d + coreOfOffset region off) := by
  subst ha
  exact ⟨_, _, rfl⟩

theorem State.recordsOnly_uncorrected (s : State) (d a part row : Nat) : (s.marked a).RecordsOnly (s.uncorrected d a part row) := by
  have htold : (s.marked a).RecordsOnly ((s.marked a).errorTold d 6 16 16 2 a) := (State.RecordsOnly.refl _).regs ((s.marked a).wordsOnly_errorTold _ _ _ _ _ _).1
  exact (htold.postEvent _ _ _ _).trans (State.recordsOnly_scheduleRemap _ _ _)

theorem State.rasKept_uncorrected (s : State) (a part row : Nat) (hd : d < 8) : ((s.marked a).errorTold d 6 16 16 2 a).RasKept (s.uncorrected d a part row) d :=
  (State.rasKept_memoryEvent _ part hd).trans (State.rasKept_scheduleRemap _ row hd)

theorem State.sameRegs_uncorrected (s : State) (d a part row : Nat) : s.SameRegsBut (s.uncorrected d a part row) (rasRegs d) := by
  have hmarked : s.SameRegsBut (s.marked a) (rasRegs d) := .of_regs rfl
  exact ((hmarked.trans ((s.marked a).wordsOnly_errorTold _ _ _ _ _ _).2).trans (State.sameRegs_memoryEvent _ _ _)).trans (State.sameRegs_scheduleRemap _ row)

theorem State.r32_marked (s : State) (a b : Nat) : (s.marked a).r32 b = s.r32 b := rfl

theorem State.f64_marked (s : State) (a b lo w : Nat) : (s.marked a).f64 b lo w = s.f64 b lo w := rfl

/-- The fence of a core at the next Hour touches no memory and no register of a die. -/
theorem State.besideDies_fencesAtHour (s : State) (g : Nat) : s.BesideDies (s.fencesAtHour g) := by
  unfold State.fencesAtHour
  split
  · exact .refl s
  · have hlist : s.BesideDies (s.listFence g) := .of_eq rfl rfl rfl
    split
    · exact hlist.trans (State.besideDies_abortStep _ _)
    · exact hlist

theorem State.fencesAtHour_new (hf : (s.core g).fenced = false) (hn : g ∉ s.hour.toFence) :
    (s.fencesAtHour g).hour = { s.hour with toFence := s.hour.toFence ++ [g] } ∧ (s.fencesAtHour g).core g = s.core g := by
  unfold State.fencesAtHour
  rw [if_neg (by simp [hf, hn])]
  split
  next n _ =>
    obtain ⟨x, r, p, h, e, -⟩ := (s.listFence g).abortStep_shape n
    rw [e]
    exact ⟨rfl, rfl⟩
  · exact ⟨rfl, rfl⟩

/-- What the marks, the counters and the memory show of the error, for a state that later steps beside the dies have left. -/
theorem State.uncorrected_shows (hd : d < 8) (ha : a < 2 ^ 40) (hv : v = s.uncorrected d a part row) (h : v.BesideDies t) :
    (t.poisoned a = true ∧ (∀ x, x / 8 ≠ a / 8 → t.poisoned x = s.poisoned x) ∧ t.f64 (Reg.cdRasLast d) 62 2 = 2
        ∧ t.f64 (Reg.cdRasLast d) 0 40 = a / 8 * 8)
      ∧ (∀ x, t.rdByte x = s.rdByte x) ∧ bitAt (t.r32 (Reg.cdMemStatus d)) 6 = true
      ∧ t.f64 (Reg.cdRasCount d) 16 16 = min (s.f64 (Reg.cdRasCount d) 16 16 + 1) (2 ^ 16 - 1) := by
  have hrecords := s.recordsOnly_uncorrected d a part row
  have hkept := s.rasKept_uncorrected a part row hd
  rw [← hv] at hrecords hkept
  obtain ⟨hbit, hcount, htype, haddr⟩ := State.errorTold_reads (s := s.marked a) (by decide) (by decide) (by decide) ha (hkept.trans (h.rasKept hd))
  have hmarks : t.poison = Tab.put (fun _ => false) s.poison (a / 8) true := by
    rw [h.2.1, hrecords]
    rfl
  have hmem : t.mem = s.mem := by
    rw [h.1, hrecords]
    rfl
  refine ⟨⟨?_, fun x hx => ?_, htype, haddr⟩, fun x => ?_, hbit, hcount⟩
  · unfold State.poisoned
    rw [hmarks, Tab.get_put_same]
  · unfold State.poisoned
    rw [hmarks, Tab.get_put_other _ _ _ _ _ hx]
  · unfold State.rdByte
    rw [hmem]

theorem State.besideDies_outcome (feed : Bool)
    (ht : t = if region = 0 then v.shmError d off a else if region = 2 ∧ feed then v else v.fencesAtHour (16 * d + coreOfOffset region off)) :
    v.BesideDies t := by
  rw [ht]
  split
  · exact v.besideDies_shmError _ _ _
  · split
    · exact .refl v
    · exact v.besideDies_fencesAtHour _

/-- The ranges of partitions on a die are none of what an error writes. -/
theorem State.rangeOwner_of_ras (hd : d < 8) (h : s.SameRegsBut t (rasRegs d)) (off : Nat) : t.rangeOwner d off = s.rangeOwner d off := by
  have hk : ∀ b, grantRegs b → rasRegs d b = false := fun b hb => Bool.eq_false_iff.2 fun hras =>
    Bool.false_ne_true ((faultRegs_of_grants hb).symm.trans (faultRegs_of_ras hd hras))
  have hmembers : ∀ n, n < 64 → t.members n = s.members n := fun n hn => State.members_of_grants h hk hn.le
  have hrange : ∀ n, n < 64 → ∀ lo w, t.f64 (Reg.cdPbbShm d n) lo w = s.f64 (Reg.cdPbbShm d n) lo w := fun n hn lo w =>
    State.f64_range_of_grants h hk hd (by unfold Reg.cdPbbShm; omega) (by unfold Reg.cdPbbShm; omega) lo w
  unfold State.rangeOwner State.hasCoreOn State.levelBase State.levelBound
  refine List.find?_congr fun n hn => ?_
  rw [List.mem_range] at hn
  simp only [hmembers n hn, hrange n hn]

theorem State.commonBound_of_ras (hd : d < 8) (h : s.SameRegsBut t (rasRegs d)) : t.levelBound 0 d 3 = s.levelBound 0 d 3 := by
  have hk : ∀ b, grantRegs b → rasRegs d b = false := fun b hb => Bool.eq_false_iff.2 fun hras =>
    Bool.false_ne_true ((faultRegs_of_grants hb).symm.trans (faultRegs_of_ras hd hras))
  unfold State.levelBound
  simp only
  rw [State.f64_range_of_grants h hk hd (by unfold Reg.cdCommonShm; omega) (by unfold Reg.cdCommonShm; omega)]

/-- Outside images, the common range and the ranges of partitions an error in shared memory is marked and recorded, and that is all. -/
theorem State.uncorrected_quiet (hd : d < 8) (hv : v = s.uncorrected d a part row) (himg : s.loader.images = []) (hcommon : s.levelBound 0 d 3 = 0)
    (hown : s.rangeOwner d off = none) : v.shmError d off a = v
      ∧ v = { s with poison := v.poison, selfErr := v.selfErr, soft := v.soft, regs := v.regs, dies := v.dies, host := v.host }
      ∧ s.SameRegsBut v (rasRegs d) := by
  have hrecords := s.recordsOnly_uncorrected d a part row
  have hregs := s.sameRegs_uncorrected d a part row
  rw [← hv] at hrecords hregs
  have himgs : v.loader.images = [] := by
    rw [hrecords]
    exact himg
  refine ⟨State.shmError_quiet himgs ((State.commonBound_of_ras hd hregs).trans hcommon) ((State.rangeOwner_of_ras hd hregs off).trans hown), ?_, hregs⟩
  rw [hrecords]
  rfl

end

/-! ## A repair that is abandoned (R376) -/

section

variable {s : State} {r : Repair}

/-- A cause to stop that names no cycle: the first stands. -/
theorem State.part_recordStop_same (s : State) (n status : Nat) (k : StopKind) :
    ((s.recordStop n status k).part n).stop = some ((s.part n).stop.getD (status, k)) := by
  unfold State.recordStop State.recordStopAt
  extract_lets p
  split
  next x y h =>
    rw [if_neg (by simp), show (s.part n).stop = some (x, y) from h]
    rfl
  next h =>
    rw [State.part_setPart_same, show (s.part n).stop = none from h]
    rfl

theorem State.part_recordStop_other (s : State) {n m : Nat} (status : Nat) (k : StopKind) (h : m ≠ n) :
    (s.recordStop n status k).part m = s.part m := by
  unfold State.recordStop State.recordStopAt
  extract_lets p
  split
  · rw [if_neg (by simp)]
  · exact s.part_setPart_other _ _ _ h

/-- Every partition of a list has its cause to stop: the one it had, or this one. -/
theorem State.stop_foldl_recordStop (status : Nat) (k : StopKind) (l : List Nat) : ∀ (s : State) (n : Nat),
    ((l.foldl (fun s n => s.recordStop n status k) s).part n).stop
      = if n ∈ l then some ((s.part n).stop.getD (status, k)) else (s.part n).stop := by
  induction l with
  | nil => exact fun _ _ => rfl
  | cons m l ih =>
    intro s n
    rw [List.foldl_cons, ih]
    rcases eq_or_ne n m with rfl | hne
    · rw [s.part_recordStop_same]
      simp
    · rw [s.part_recordStop_other status k hne]
      simp [hne]

theorem State.foldl_recordStop_shape (s : State) (status : Nat) (k : StopKind) (l : List Nat) :
    l.foldl (fun s n => s.recordStop n status k) s = { s with parts := (l.foldl (fun s n => s.recordStop n status k) s).parts } := by
  refine List.foldlRecOn l _ (motive := fun u : State => u = { s with parts := u.parts }) rfl fun u hu n _ => ?_
  have hstop : u.recordStop n status k = { u with parts := (u.recordStop n status k).parts } := State.recordStopAt_shape ..
  rw [hstop, hu]

/-- The state in which repair `r` is gone and LDR_STATUS tells of it. -/
def State.repairGone (s : State) (r : Repair) : State :=
  (({ s with loader := { s.loader with repairs := s.loader.repairs.filter (fun x => x.id != r.id) } } : State).set32 Reg.ldrStatus 5).repairWait

theorem State.wordsOnly_repairGone (s : State) (r : Repair) :
    ({ s with loader := { s.loader with repairs := s.loader.repairs.filter (fun x => x.id != r.id) } } : State).WordsOnly (s.repairGone r)
      (fun a => a == Reg.ldrStatus) :=
  (State.wordsOnly_w32 _ _ (by simp)).trans (State.wordsOnly_w32 _ _ (by simp))

theorem State.repairGone_status (s : State) (r : Repair) : bitAt ((s.repairGone r).r32 Reg.ldrStatus) 5 = true := by
  unfold State.repairGone State.repairWait
  rw [State.r32_sf32_same _ _ _ _ _ (by decide), bitAt_eq, testBit_setFld, if_neg (by decide), ← bitAt_eq]
  exact State.bitAt_set32_same _ _ _ (by decide)

/-- The partitions that stop where a repair is abandoned. -/
def State.repairStops (s : State) (r : Repair) : List Nat :=
  match s.repairImage r with
  | some (i, _) => s.repairParts i
  | none => []

theorem State.abandonRepair_eq (s : State) (r : Repair) :
    s.abandonRepair r = (s.repairStops r).foldl (fun s n => s.recordStop n 0x52 .fault) (s.repairGone r) := rfl

theorem repairAbandon_eq (hr : r ∈ s.loader.repairs) (hid : ∀ x, x ∈ s.loader.repairs → x.id = r.id → x = r) (hold : r.since + 4096 ≤ s.hourCount) :
    repairAbandon r.id s = s.abandonRepair r := by
  have hfind : s.loader.repairs.find? (fun x => x.id == r.id && decide (x.since + 4096 ≤ s.hourCount)) = some r := by
    obtain ⟨x, hx⟩ := Option.isSome_iff_exists.1 (List.find?_isSome (p := fun x => x.id == r.id && decide (x.since + 4096 ≤ s.hourCount)).2
      ⟨r, hr, by simp [hold]⟩)
    have hsame : x.id = r.id := by
      have := List.find?_some hx
      simp only [Bool.and_eq_true, beq_iff_eq] at this
      exact this.1
    rw [hx, hid x (List.mem_of_find?_eq_some hx) hsame]
  unfold repairAbandon
  rw [hfind]

theorem State.abandonRepair_effect (s : State) (r : Repair) :
    let t := s.abandonRepair r
    t.loader = { s.loader with repairs := s.loader.repairs.filter (fun x => x.id != r.id) }
      ∧ bitAt (t.r32 Reg.ldrStatus) 5 = true
      ∧ (∀ i x, s.repairImage r = some (i, x) → ∀ n, n ∈ s.repairParts i → (t.part n).stop = some ((s.part n).stop.getD (0x52, .fault)))
      ∧ t = { s with loader := t.loader, regs := t.regs, parts := t.parts } ∧ s.SameRegsBut t (fun a => a == Reg.ldrStatus) := by
  obtain ⟨hgone, hregs⟩ := s.wordsOnly_repairGone r
  have hstatus := s.repairGone_status r
  rw [s.abandonRepair_eq]
  have hshape := (s.repairGone r).foldl_recordStop_shape 0x52 .fault (s.repairStops r)
  have hstops := State.stop_foldl_recordStop 0x52 .fault (s.repairStops r) (s.repairGone r)
  generalize (s.repairStops r).foldl (fun s n => s.recordStop n 0x52 .fault) (s.repairGone r) = t at hshape hstops
  have hparts : ∀ n, (s.repairGone r).part n = s.part n := fun n => by
    rw [hgone]
    rfl
  have hwords : t.regs = (s.repairGone r).regs := by rw [hshape]
  refine ⟨?_, ?_, fun i x hi n hn => ?_, ?_, ?_⟩
  · rw [hshape, hgone]
  · rwa [State.r32_congr _ _ hwords]
  · have hmem : n ∈ s.repairStops r := by
      unfold State.repairStops
      rwa [hi]
    rw [hstops, if_pos hmem, hparts]
  · rw [hshape, hgone]
  · intro a ha
    rw [State.r32_congr _ _ hwords]
    exact hregs a ha

end

/-! ## VFUSE out of range (R537) -/

section

variable {s : State}

/-- A FUSE_PROGRAM whose VFUSE does not come in range completes with STATE_CONFLICT, and VFUSE_EN falls. -/
theorem vfuseCheck_tells {d : Desc} (hw : s.sec.writing = some (some d.cmdId)) (h : s.CanTell 0) :
    let t := vfuseCheck s
    t.sec = { s.sec with writing := none } ∧ s.Told t 0 d.cmdId 0x24 0 0 ∧ .land 1 false ∈ t.out
      ∧ t = { s with sec := t.sec, regs := t.regs, host := t.host, out := t.out } ∧ s.SameRegsBut t toldRegs := by
  have htold := s.dropVfuse.told_complete 0 d.cmdId 0x24 0 0 (h.of_rings rfl) d.cmdId_ne_gone
  have hregs := s.dropVfuse.sameRegs_complete 0 d.cmdId 0x24 0 0
  obtain ⟨r, o, k, e⟩ := s.dropVfuse.complete_host 0 d.cmdId 0x24 0 0
  have heq : vfuseCheck s = s.dropVfuse.complete 0 d.cmdId 0x24 0 0 := by
    unfold vfuseCheck
    rw [hw]
  rw [heq]
  generalize s.dropVfuse.complete 0 d.cmdId 0x24 0 0 = t at htold hregs e
  refine ⟨?_, htold, ?_, ?_, hregs⟩
  · rw [e]
    rfl
  · rw [e]
    exact List.mem_append_left _ (List.mem_append_right _ (List.mem_singleton.2 rfl))
  · rw [e]
    rfl

end

/-! ## The marks of Table 17-5 in the fuses (R443) -/

section

variable {f g : Fuses} {key : Nat}

theorem setBit_of_bitAt {n i : Nat} (h : bitAt n i = true) : setBit n i = n := by
  refine Nat.eq_of_testBit_eq fun j => ?_
  rw [← bitAt_eq, ← bitAt_eq]
  rcases eq_or_ne j i with rfl | hne
  · rw [bitAt_setBit_same, h]
  · rw [bitAt_setBit_other _ _ _ hne]

theorem bitAt_of_setBit {n i : Nat} (h : setBit n i = n) : bitAt n i = true := by
  rw [← h, bitAt_setBit_same]

/-- A list with an entry that it holds once. -/
def withUnit (l : List Nat) (u : Nat) : List Nat := if l.contains u then l else l ++ [u]

theorem mem_withUnit {l : List Nat} {u x : Nat} : x ∈ withUnit l u ↔ x ∈ l ∨ x = u := by
  unfold withUnit
  split_ifs with h
  · rw [List.contains_iff_mem] at h
    exact ⟨.inl, fun hx => hx.elim id fun e => e ▸ h⟩
  · simp

theorem withUnit_of_mem {l : List Nat} {u : Nat} (h : u ∈ l) : withUnit l u = l := if_pos (List.contains_iff_mem.2 h)

/-- A mark sets one field of the fuses, by its step and the kind of its unit. -/
theorem Fuses.mark_cases (key : Nat) :
    (∀ f : Fuses, f.mark key = { f with copyMgmt := true }) ∨ (∀ f : Fuses, f.mark key = { f with altLoop := true })
      ∨ (∀ f : Fuses, f.mark key = { f with copyDisp := true })
      ∨ (∀ f : Fuses, f.mark key = { f with altDivider := setBit f.altDivider (key % 2 ^ 12) })
      ∨ (∀ f : Fuses, f.mark key = { f with moduleOos := withUnit f.moduleOos (key % 2 ^ 12) })
      ∨ (∀ f : Fuses, f.mark key = { f with slotFailed := withUnit f.slotFailed (key % 2 ^ 12) })
      ∨ (∀ f : Fuses, f.mark key = { f with dieAbsent := setBit f.dieAbsent (key % 2 ^ 12) }) := by
  unfold Fuses.mark
  simp only
  generalize key / 2 ^ 16 = step
  generalize key / 2 ^ 12 % 16 = kind
  by_cases h2 : step = 2
  · exact .inl fun f => by subst h2; rfl
  by_cases h4 : step = 4
  · exact .inr (.inl fun f => by subst h4; rfl)
  by_cases h13 : step = 13
  · exact .inr (.inr (.inl fun f => by subst h13; rfl))
  by_cases h6 : step = 6
  · exact .inr (.inr (.inr (.inl fun f => by subst h6; rfl)))
  by_cases h7 : step = 7
  · exact .inr (.inr (.inr (.inr (.inl fun f => by subst h7; rfl))))
  by_cases h3 : kind = 3
  · exact .inr (.inr (.inr (.inr (.inr (.inl fun f => by subst h3; simp [withUnit])))))
  · exact .inr (.inr (.inr (.inr (.inr (.inr fun f => by simp)))))

/-- A mark of a core slot names it in the fuses. -/
theorem Fuses.mark_slot (h : key / 2 ^ 16 ∉ [2, 4, 6, 7, 13]) (h3 : key / 2 ^ 12 % 16 = 3) (f : Fuses) :
    f.mark key = { f with slotFailed := withUnit f.slotFailed (key % 2 ^ 12) } := by
  simp only [List.mem_cons, List.not_mem_nil, or_false, not_or] at h
  obtain ⟨h2, h4, h6, h7, h13⟩ := h
  unfold Fuses.mark
  simp only
  generalize key / 2 ^ 16 = step at *
  rw [h3]
  simp [withUnit]

/-- Every mark of `f` stands in `g`. -/
def Fuses.MarksIn (f g : Fuses) : Prop :=
  (f.copyMgmt = true → g.copyMgmt = true) ∧ (f.altLoop = true → g.altLoop = true) ∧ (f.copyDisp = true → g.copyDisp = true)
    ∧ (∀ i, bitAt f.altDivider i = true → bitAt g.altDivider i = true) ∧ (∀ u, u ∈ f.moduleOos → u ∈ g.moduleOos)
    ∧ (∀ u, u ∈ f.slotFailed → u ∈ g.slotFailed) ∧ ∀ i, bitAt f.dieAbsent i = true → bitAt g.dieAbsent i = true

theorem bitAt_setBit_of {n i j : Nat} (h : bitAt n i = true) : bitAt (setBit n j) i = true := by
  rcases eq_or_ne i j with rfl | hne
  · exact bitAt_setBit_same _ _
  · rwa [bitAt_setBit_other _ _ _ hne]

theorem Fuses.marksIn_mark (f : Fuses) (key : Nat) : f.MarksIn (f.mark key) := by
  obtain h | h | h | h | h | h | h := Fuses.mark_cases key
  all_goals
    rw [h]
    simp +contextual [Fuses.MarksIn, mem_withUnit, bitAt_setBit_of]

/-- The fuses have the mark of a key: marking it again changes nothing. -/
def Fuses.Marked (f : Fuses) (key : Nat) : Prop := f.mark key = f

theorem Fuses.marked_mark (f : Fuses) (key : Nat) : (f.mark key).Marked key := by
  unfold Fuses.Marked
  obtain h | h | h | h | h | h | h := Fuses.mark_cases key
  all_goals rw [h, h]
  · rw [setBit_of_bitAt (bitAt_setBit_same _ _)]
  · rw [withUnit_of_mem (mem_withUnit.2 (.inr rfl))]
  · rw [withUnit_of_mem (mem_withUnit.2 (.inr rfl))]
  · rw [setBit_of_bitAt (bitAt_setBit_same _ _)]

theorem mem_of_withUnit {l : List Nat} {u : Nat} (h : withUnit l u = l) : u ∈ l := by
  rw [← h]
  exact mem_withUnit.2 (.inr rfl)

theorem Fuses.Marked.mono (h : f.Marked key) (hg : f.MarksIn g) : g.Marked key := by
  obtain ⟨hmgmt, hloop, hdisp, hdiv, hmod, hslot, hdie⟩ := hg
  unfold Fuses.Marked at *
  obtain hk | hk | hk | hk | hk | hk | hk := Fuses.mark_cases key
  all_goals rw [hk] at h ⊢
  · rw [← hmgmt (congrArg Fuses.copyMgmt h).symm]
  · rw [← hloop (congrArg Fuses.altLoop h).symm]
  · rw [← hdisp (congrArg Fuses.copyDisp h).symm]
  · rw [setBit_of_bitAt (hdiv _ (bitAt_of_setBit (congrArg Fuses.altDivider h)))]
  · rw [withUnit_of_mem (hmod _ (mem_of_withUnit (congrArg Fuses.moduleOos h)))]
  · rw [withUnit_of_mem (hslot _ (mem_of_withUnit (congrArg Fuses.slotFailed h)))]
  · rw [setBit_of_bitAt (hdie _ (bitAt_of_setBit (congrArg Fuses.dieAbsent h)))]

theorem Fuses.slotFailed_of_marked (h : f.Marked key) (hstep : key / 2 ^ 16 ∉ [2, 4, 6, 7, 13]) (hkind : key / 2 ^ 12 % 16 = 3) :
    key % 2 ^ 12 ∈ f.slotFailed := by
  unfold Fuses.Marked at h
  rw [Fuses.mark_slot hstep hkind] at h
  exact mem_of_withUnit (congrArg Fuses.slotFailed h)

theorem Fuses.lanes_mark (f : Fuses) (key : Nat) : (f.mark key).lanes = f.lanes := by
  obtain h | h | h | h | h | h | h := Fuses.mark_cases key
  all_goals rw [h]

end

/-! ## Fuse words that are blown (R178, R179, R538) -/

/-- A field of fuses for `cap` entries with an entry blown. -/
def withEntry (cap : Nat) (l : List Nat) (x : Nat) : List Nat := if l.contains x then l else (l ++ [x]).take cap

/-- A field of fuses for `cap` entries holds an entry, or has no room for it. -/
def HoldsOrFull (cap : Nat) (l : List Nat) (x : Nat) : Prop := x ∈ l ∨ cap ≤ l.length

section

variable {cap x y : Nat} {l : List Nat}

theorem full_withEntry (h : cap ≤ l.length) : cap ≤ (withEntry cap l x).length := by
  unfold withEntry
  split_ifs
  · exact h
  · rw [List.length_take, List.length_append, List.length_singleton]
    omega

theorem holdsOrFull_withEntry (h : HoldsOrFull cap l y) : HoldsOrFull cap (withEntry cap l x) y := by
  rcases Nat.lt_or_ge l.length cap with hroom | hfull
  · have hy : y ∈ l := h.resolve_right (by omega)
    refine .inl ?_
    unfold withEntry
    split_ifs
    · exact hy
    · rw [List.take_of_length_le (by rw [List.length_append, List.length_singleton]; omega)]
      exact List.mem_append_left _ hy
  · exact .inr (full_withEntry hfull)

theorem holdsOrFull_blown : HoldsOrFull cap (withEntry cap l x) x := by
  rcases Nat.lt_or_ge l.length cap with hroom | hfull
  · refine .inl ?_
    unfold withEntry
    split_ifs with h
    · exact List.contains_iff_mem.1 h
    · rw [List.take_of_length_le (by rw [List.length_append, List.length_singleton]; omega)]
      exact List.mem_append_right _ (List.mem_singleton.2 rfl)
  · exact .inr (full_withEntry hfull)

theorem length_withEntry_le (h : l.length ≤ cap) : (withEntry cap l x).length ≤ cap := by
  unfold withEntry
  split_ifs
  · exact h
  · rw [List.length_take]
    exact Nat.min_le_left _ _

end

section

variable {s t u : State} {w x : FuseWord}

/-- Nothing but the fuses, those of the dies among them, differs. -/
def State.FusesOnly (s t : State) : Prop :=
  t = { s with sec := { s.sec with fuses := t.sec.fuses }, dies := t.dies }
    ∧ ∀ d, t.die d = { s.die d with fieldRows := (t.die d).fieldRows, fusedHoles := (t.die d).fusedHoles }

theorem State.FusesOnly.refl (s : State) : s.FusesOnly s := ⟨rfl, fun _ => rfl⟩

theorem State.FusesOnly.trans (h : s.FusesOnly t) (g : t.FusesOnly u) : s.FusesOnly u := by
  refine ⟨?_, fun d => ?_⟩
  · rw [g.1, h.1]
  · rw [g.2, h.2]

theorem State.fusesOnly_setDie (s : State) (d : Nat) (rows holes : List Nat) :
    s.FusesOnly (s.setDie d { s.die d with fieldRows := rows, fusedHoles := holes }) := by
  refine ⟨rfl, fun e => ?_⟩
  rcases eq_or_ne e d with rfl | hne
  · rw [s.die_setDie_same]
  · rw [s.die_setDie_other _ _ _ hne]

theorem State.fusesOnly_setFuses (s : State) (f : Fuses) : s.FusesOnly (s.setFuses f) := ⟨rfl, fun _ => rfl⟩

theorem State.fusesOnly_blow (s : State) (w : FuseWord) : s.FusesOnly (s.blow w) := by
  cases w with
  | row d r => exact s.fusesOnly_setDie d _ _
  | hole d h => exact s.fusesOnly_setDie d _ _
  | field n i v => exact s.fusesOnly_setFuses _
  | lane l => exact s.fusesOnly_setFuses _
  | mark key => exact s.fusesOnly_setFuses _
  | svn t => exact s.fusesOnly_setFuses _
  | udsKill => exact s.fusesOnly_setFuses _

theorem State.fusesOnly_blowAll (s : State) (ws : List FuseWord) : s.FusesOnly (ws.foldl State.blow s) :=
  List.foldlRecOn ws _ (motive := s.FusesOnly) (.refl s) fun u hu w _ => hu.trans (u.fusesOnly_blow w)

theorem State.fieldRows_blow (s : State) (w : FuseWord) (d : Nat) :
    ((s.blow w).die d).fieldRows = (s.die d).fieldRows ∨ ∃ r, ((s.blow w).die d).fieldRows = withEntry 512 (s.die d).fieldRows r := by
  cases w with
  | row e r =>
    unfold State.blow
    rcases eq_or_ne d e with rfl | hne
    · exact .inr ⟨r, by simp only [s.die_setDie_same]; rfl⟩
    · exact .inl (by simp only [s.die_setDie_other _ _ _ hne])
  | hole e h =>
    unfold State.blow
    rcases eq_or_ne d e with rfl | hne
    · exact .inl (by simp only [s.die_setDie_same])
    · exact .inl (by simp only [s.die_setDie_other _ _ _ hne])
  | _ => exact .inl rfl

theorem State.fusedHoles_blow (s : State) (w : FuseWord) (d : Nat) :
    ((s.blow w).die d).fusedHoles = (s.die d).fusedHoles ∨ ∃ r, ((s.blow w).die d).fusedHoles = withEntry 64 (s.die d).fusedHoles r := by
  cases w with
  | row e r =>
    unfold State.blow
    rcases eq_or_ne d e with rfl | hne
    · exact .inl (by simp only [s.die_setDie_same])
    · exact .inl (by simp only [s.die_setDie_other _ _ _ hne])
  | hole e h =>
    unfold State.blow
    rcases eq_or_ne d e with rfl | hne
    · exact .inr ⟨h, by simp only [s.die_setDie_same]; rfl⟩
    · exact .inl (by simp only [s.die_setDie_other _ _ _ hne])
  | _ => exact .inl rfl

/-- A lane stands in the fuses after a word where it stood before or where the word is that lane. -/
theorem State.lanes_blow (s : State) (w : FuseWord) (l : Nat) :
    l ∈ (s.blow w).sec.fuses.lanes ↔ l ∈ s.sec.fuses.lanes ∨ w = .lane l := by
  cases w with
  | lane k =>
    change l ∈ withUnit s.sec.fuses.lanes k ↔ _
    rw [mem_withUnit, FuseWord.lane.injEq, eq_comm (a := l)]
  | mark key =>
    change l ∈ (s.sec.fuses.mark key).lanes ↔ _
    rw [Fuses.lanes_mark]
    simp
  | field n i v =>
    change l ∈ (s.sec.fuses.blowField n _).lanes ↔ _
    unfold Fuses.blowField
    simp only
    split <;> simp
  | svn k =>
    unfold State.blow
    simp only
    split_ifs <;> simp [State.setFuses]
  | _ => simp [State.blow, State.setDie, State.setFuses]

theorem Fuses.marksIn_refl (f : Fuses) : f.MarksIn f := ⟨id, id, id, fun _ => id, fun _ => id, fun _ => id, fun _ => id⟩

theorem State.marksIn_blow (s : State) (w : FuseWord) : s.sec.fuses.MarksIn (s.blow w).sec.fuses := by
  cases w with
  | mark key => exact s.sec.fuses.marksIn_mark key
  | field n i v =>
    change s.sec.fuses.MarksIn (s.sec.fuses.blowField n _)
    unfold Fuses.blowField
    simp only
    split <;> exact Fuses.marksIn_refl _
  | svn k =>
    unfold State.blow
    simp only
    split_ifs <;> exact Fuses.marksIn_refl _
  | _ => exact Fuses.marksIn_refl _

/-- What a fuse word says is held, as far as its field has room. -/
def State.Held (s : State) : FuseWord → Prop
  | .row d r => HoldsOrFull 512 (s.die d).fieldRows r
  | .hole d h => HoldsOrFull 64 (s.die d).fusedHoles h
  | .lane l => l ∈ s.sec.fuses.lanes
  | .mark key => s.sec.fuses.Marked key
  | _ => True

theorem State.held_blow (h : s.Held w) (x : FuseWord) : (s.blow x).Held w := by
  cases w with
  | row d r =>
    rcases s.fieldRows_blow x d with e | ⟨k, e⟩
    · exact (congrArg (HoldsOrFull 512 · r) e).mpr h
    · exact (congrArg (HoldsOrFull 512 · r) e).mpr (holdsOrFull_withEntry h)
  | hole d r =>
    rcases s.fusedHoles_blow x d with e | ⟨k, e⟩
    · exact (congrArg (HoldsOrFull 64 · r) e).mpr h
    · exact (congrArg (HoldsOrFull 64 · r) e).mpr (holdsOrFull_withEntry h)
  | lane l => exact (s.lanes_blow x l).2 (.inl h)
  | mark key => exact h.mono (s.marksIn_blow x)
  | _ => trivial

theorem State.held_blown (s : State) (w : FuseWord) : (s.blow w).Held w := by
  cases w with
  | row d r =>
    change HoldsOrFull 512 ((s.setDie d { s.die d with fieldRows := withEntry 512 (s.die d).fieldRows r }).die d).fieldRows r
    rw [s.die_setDie_same]
    exact holdsOrFull_blown
  | hole d r =>
    change HoldsOrFull 64 ((s.setDie d { s.die d with fusedHoles := withEntry 64 (s.die d).fusedHoles r }).die d).fusedHoles r
    rw [s.die_setDie_same]
    exact holdsOrFull_blown
  | lane l => exact (s.lanes_blow _ l).2 (.inr rfl)
  | mark key => exact s.sec.fuses.marked_mark key
  | _ => trivial

theorem State.held_blowAll_of_held (ws : List FuseWord) (h : s.Held w) : (ws.foldl State.blow s).Held w :=
  List.foldlRecOn ws _ (motive := fun u : State => u.Held w) h fun _ hu x _ => State.held_blow hu x

theorem State.held_blowAll (ws : List FuseWord) : ∀ s : State, w ∈ ws → (ws.foldl State.blow s).Held w := by
  induction ws with
  | nil => exact fun _ h => absurd h List.not_mem_nil
  | cons x ws ih =>
    intro s h
    rw [List.foldl_cons]
    rcases List.mem_cons.1 h with rfl | hw
    · exact State.held_blowAll_of_held ws (s.held_blown w)
    · exact ih _ hw

theorem State.lanes_blowAll (l : Nat) (ws : List FuseWord) : ∀ s : State,
    l ∈ (ws.foldl State.blow s).sec.fuses.lanes ↔ l ∈ s.sec.fuses.lanes ∨ FuseWord.lane l ∈ ws := by
  induction ws with
  | nil => simp
  | cons x ws ih =>
    intro s
    rw [List.foldl_cons, ih, s.lanes_blow, List.mem_cons, or_assoc, eq_comm (a := x)]

theorem State.rows_blowAll_le (ws : List FuseWord) (d : Nat) (h : (s.die d).fieldRows.length ≤ 512) :
    ((ws.foldl State.blow s).die d).fieldRows.length ≤ 512 := by
  refine List.foldlRecOn ws _ (motive := fun u : State => (u.die d).fieldRows.length ≤ 512) h fun u hu x _ => ?_
  rcases u.fieldRows_blow x d with e | ⟨k, e⟩
  · rw [e]
    exact hu
  · rw [e]
    exact length_withEntry_le hu

end

/-! ## The field writes (R178, R179, R296, R443, R538) -/

section

variable {s t u : State} {d : Nat} {ws : List FuseWord}

theorem State.row_mem_fieldWords (hd : d < 8) {r : Nat} (hr : r ∈ (s.die d).unrecorded) (hn : r ∉ (s.die d).fieldRows) :
    FuseWord.row d r ∈ s.fieldWords := by
  refine List.mem_append_left _ (List.mem_flatten.2 ⟨_, List.mem_map.2 ⟨d, List.mem_range.2 hd, rfl⟩, ?_⟩)
  exact List.mem_append_left _ (List.mem_map.2 ⟨r, List.mem_filter.2 ⟨hr, by simp [hn]⟩, rfl⟩)

theorem State.hole_mem_fieldWords (hd : d < 8) {h : Nat} (hh : h ∈ (s.die d).holes) (hn : h ∉ (s.die d).fusedHoles) :
    FuseWord.hole d h ∈ s.fieldWords := by
  refine List.mem_append_left _ (List.mem_flatten.2 ⟨_, List.mem_map.2 ⟨d, List.mem_range.2 hd, rfl⟩, ?_⟩)
  exact List.mem_append_right _ (List.mem_map.2 ⟨h, List.mem_filter.2 ⟨hh, by simp [hn]⟩, rfl⟩)

theorem State.lane_mem_fieldWords {l : Nat} :
    FuseWord.lane l ∈ s.fieldWords ↔ l < 104 ∧ s.f64 (Reg.tclLaneMap (l / 26)) (2 * (l % 26)) 2 = 2 ∧ l ∉ s.sec.fuses.lanes := by
  unfold State.fieldWords upto
  simp [List.mem_flatten]

/-- Rows and holes that wait are held once all words have been blown, as far as their fields have room. -/
theorem State.held_row (hsub : ∀ w, w ∈ s.fieldWords → w ∈ ws) (hd : d < 8) {r : Nat} (hr : r ∈ (s.die d).unrecorded) :
    (ws.foldl State.blow s).Held (.row d r) := by
  by_cases hn : r ∈ (s.die d).fieldRows
  · exact State.held_blowAll_of_held ws (.inl hn)
  · exact State.held_blowAll ws s (hsub _ (State.row_mem_fieldWords hd hr hn))

theorem State.held_hole (hsub : ∀ w, w ∈ s.fieldWords → w ∈ ws) (hd : d < 8) {h : Nat} (hh : h ∈ (s.die d).holes) :
    (ws.foldl State.blow s).Held (.hole d h) := by
  by_cases hn : h ∈ (s.die d).fusedHoles
  · exact State.held_blowAll_of_held ws (.inl hn)
  · exact State.held_blowAll ws s (hsub _ (State.hole_mem_fieldWords hd hh hn))

/-! ### What no longer waits -/

/-- A die's record once the rows that its field holds, or has no room for, no longer wait. -/
def DieState.settled (x : DieState) : DieState :=
  if x.unrecorded.isEmpty then x
  else { x with unrecorded := if x.fieldRows.length < 512 then x.unrecorded.filter (fun r => !x.fieldRows.contains r) else [] }

theorem DieState.settled_fields (x : DieState) : x.settled = { x with unrecorded := x.settled.unrecorded } := by
  unfold DieState.settled
  split_ifs <;> rfl

/-- Where every row that waits is in the field, or the field is full, none waits any more. -/
theorem DieState.unrecorded_settled {x : DieState} (h : ∀ r, r ∈ x.unrecorded → HoldsOrFull 512 x.fieldRows r) : x.settled.unrecorded = [] := by
  unfold DieState.settled
  split_ifs with hempty hroom
  · exact List.isEmpty_iff.1 hempty
  · refine List.filter_eq_nil_iff.2 fun r hr => ?_
    have hin : r ∈ x.fieldRows := (h r hr).resolve_right (by omega)
    simp [hin]
  · rfl

/-- The state with die `d` settled. -/
def State.settleDie (s : State) (d : Nat) : State :=
  let x := s.die d
  if x.unrecorded.isEmpty then s
  else s.setDie d { x with unrecorded := if x.fieldRows.length < 512 then x.unrecorded.filter (fun r => !x.fieldRows.contains r) else [] }

theorem State.die_settleDie (s : State) (d : Nat) : (s.settleDie d).die d = (s.die d).settled := by
  unfold State.settleDie DieState.settled
  extract_lets x
  split_ifs
  · rfl
  · exact s.die_setDie_same _ _
  · exact s.die_setDie_same _ _

theorem State.die_settleDie_other (s : State) {d e : Nat} (h : e ≠ d) : (s.settleDie d).die e = s.die e := by
  unfold State.settleDie
  extract_lets x
  split_ifs
  · rfl
  · exact s.die_setDie_other _ _ _ h
  · exact s.die_setDie_other _ _ _ h

theorem State.settleDie_shape (s : State) (d : Nat) : s.settleDie d = { s with dies := (s.settleDie d).dies } := by
  unfold State.settleDie
  extract_lets x
  split_ifs <;> rfl

theorem State.die_settleDies (l : List Nat) : ∀ (s : State) (e : Nat), l.Nodup →
    (l.foldl State.settleDie s).die e = if e ∈ l then (s.die e).settled else s.die e := by
  induction l with
  | nil => exact fun _ _ _ => rfl
  | cons d l ih =>
    intro s e hl
    obtain ⟨hd, hl⟩ := List.nodup_cons.1 hl
    rw [List.foldl_cons, ih _ _ hl]
    rcases eq_or_ne e d with rfl | hne
    · rw [if_neg hd, s.die_settleDie]
      simp
    · rw [s.die_settleDie_other hne]
      simp [hne]

theorem State.settleDies_shape (s : State) (l : List Nat) : l.foldl State.settleDie s = { s with dies := (l.foldl State.settleDie s).dies } := by
  refine List.foldlRecOn l _ (motive := fun u : State => u = { s with dies := u.dies }) rfl fun u hu d _ => ?_
  rw [u.settleDie_shape d, hu]

/-- The state in which the marks that the fuses have no longer wait. -/
def State.dropMarks (s : State) : State :=
  { s with dawn := { s.dawn with marks := s.dawn.marks.filter (fun k => s.sec.fuses.mark k != s.sec.fuses) } }

theorem State.fieldSettled_eq (s : State) : s.fieldSettled = ((List.range 8).foldl State.settleDie s).dropMarks := by
  delta State.fieldSettled State.settleDie
  generalize List.foldl _ s (List.range 8) = v
  rfl

theorem State.dropMarks_shape (h : t = { s with dies := t.dies }) : t.dropMarks = { s.dropMarks with dies := t.dies } := by
  rw [h]
  rfl

/-- Nothing but the fuse work that waits differs: rows of dies and marks. -/
theorem State.fieldSettled_shape (s : State) : s.fieldSettled = { s.dropMarks with dies := s.fieldSettled.dies } := by
  have hshape := State.dropMarks_shape (s.settleDies_shape (List.range 8))
  rw [s.fieldSettled_eq]
  generalize (List.range 8).foldl State.settleDie s = v at hshape
  exact hshape

theorem State.die_fieldSettled (s : State) (hd : d < 8) : s.fieldSettled.die d = (s.die d).settled := by
  have hdie : ∀ v : State, v.dropMarks.die d = v.die d := fun _ => rfl
  rw [s.fieldSettled_eq, hdie, State.die_settleDies _ _ _ List.nodup_range, if_pos (List.mem_range.2 hd)]

/-! ### The journal of the marks -/

theorem State.journal_shape (s : State) (time step kind unit result count detail : Nat) :
    s.journal time step kind unit result count detail = { s with regs := (s.journal time step kind unit result count detail).regs } := by
  unfold State.journal
  extract_lets h a x u v
  have hu : u = { s with regs := u.regs } := by
    unfold u
    split_ifs
    · rfl
    · exact State.set32_shape ..
  have hv : v = { s with regs := v.regs } := by
    have hwide : v = { u.wWide a 4 x with regs := v.regs } := State.sf32_shape ..
    rw [hwide, State.wWide_shape, hu]
  clear_value v
  rw [State.sf32_shape, hv]

theorem State.journals_shape {s : State} {time : Nat} (l : List Nat) :
    l.foldl (fun s k => s.journal time (k / 2 ^ 16) (k / 2 ^ 12 % 16) (k % 2 ^ 12) 5 3 0) s
      = { s with regs := (l.foldl (fun s k => s.journal time (k / 2 ^ 16) (k / 2 ^ 12 % 16) (k % 2 ^ 12) 5 3 0) s).regs } := by
  refine List.foldlRecOn l _ (motive := fun u : State => u = { s with regs := u.regs }) rfl fun u hu k _ => ?_
  rw [u.journal_shape, hu]

end

section

variable {s B t : State} {time : Nat} {ws : List FuseWord}

/-- The marks that a field write makes. -/
def State.marksDue (s : State) : List Nat := if s.markTime then s.dawn.marks else []

/-- The fuse words of a field write, in their order. -/
def State.wordsDue (s : State) : List FuseWord := s.fieldWords ++ s.marksDue.map FuseWord.mark

/-- The state with the marks that `s` was to make and the fuses of `B` have in the journal. -/
def State.marksTold (B s : State) (time : Nat) : State :=
  (s.marksDue.filter (fun k => B.sec.fuses.mark k == B.sec.fuses)).foldl
    (fun s k => s.journal time (k / 2 ^ 16) (k / 2 ^ 12 % 16) (k % 2 ^ 12) 5 3 0) B

theorem State.marksTold_shape (B s : State) (time : Nat) : B.marksTold s time = { B with regs := (B.marksTold s time).regs } := State.journals_shape _

theorem State.marksTold_of_none (B : State) (h : s.markTime = false) (time : Nat) : B.marksTold s time = B := by
  unfold State.marksTold State.marksDue
  rw [h]
  rfl

/-- A field write blows its words, tells of the marks it made and settles what waits (R178, R443). -/
theorem fieldFuseWrite_eq {v : FuseSupply} (hw : s.sec.writing = none) (hv : v ≠ .absent) :
    fieldFuseWrite v time s
      = ((((s.raiseVfuse none).blowWords s.wordsDue v).1.marksTold s time).fieldSettled).dropVfuse := by
  have hwords : s.wordsDue = s.wordsDue ++ [] := (List.append_nil _).symm
  unfold fieldFuseWrite
  rw [hw]
  simp only [Option.isSome_none, Bool.false_eq_true, if_false, hv]
  rw [hwords]
  rfl

theorem fieldFuseWrite_absent (hw : s.sec.writing = none) :
    fieldFuseWrite .absent time s = { s with out := s.out ++ [.land 1 true], sec := { s.sec with writing := some none } } := by
  unfold fieldFuseWrite
  rw [hw]
  rfl

/-- The state behind the words of a field write, with VFUSE_EN high again lowered: what it did to the fuses stands. -/
theorem State.settled_shape (hshape : B = { s.raiseVfuse none with
      sec := { (s.raiseVfuse none).sec with fuses := B.sec.fuses, record := B.sec.record }, dies := B.dies }) (hw : s.sec.writing = none) (ht : t = ((B.marksTold s time).fieldSettled).dropVfuse) :
    t.out = s.out ++ [.land 1 true, .land 1 false] ∧ t.sec = { s.sec with fuses := B.sec.fuses, record := B.sec.record }
      ∧ t.dawn = { s.dawn with marks := s.dawn.marks.filter (fun k => B.sec.fuses.mark k != B.sec.fuses) }
      ∧ t = { s with out := t.out, dawn := t.dawn, sec := t.sec, dies := t.dies, regs := (B.marksTold s time).regs }
      ∧ ∀ d, d < 8 → t.die d = (B.die d).settled := by
  have hdies : ∀ d, d < 8 → t.die d = (B.die d).settled := fun d hd => by
    have hdrop : ∀ v : State, v.dropVfuse.die d = v.die d := fun _ => rfl
    rw [ht, hdrop, State.die_fieldSettled _ hd, B.marksTold_shape s time]
    rfl
  have htold := B.marksTold_shape s time
  generalize B.marksTold s time = J at ht htold
  have hsettled := J.fieldSettled_shape
  generalize J.fieldSettled = F at ht hsettled
  have hsec : B.sec = { s.sec with writing := some none, fuses := B.sec.fuses, record := B.sec.record } := by
    rw [hshape]
    rfl
  have hF : t = { B with
      out := B.out ++ [.land 1 false], sec := { B.sec with writing := none }, dies := F.dies, regs := J.regs
      dawn := { B.dawn with marks := B.dawn.marks.filter (fun k => B.sec.fuses.mark k != B.sec.fuses) } } := by
    rw [ht, hsettled, htold]
    rfl
  have hout : B.out = s.out ++ [.land 1 true] := by
    rw [hshape]
    rfl
  have hdawn : B.dawn = s.dawn := by
    rw [hshape]
    rfl
  refine ⟨?_, ?_, ?_, ?_, hdies⟩
  · rw [hF, hout, List.append_assoc]
    rfl
  · rw [hF]
    change { B.sec with writing := none } = _
    rw [hsec, ← hw]
  · rw [hF, hdawn]
  · rw [hF, hshape]
    rfl

/-- What a whole write leaves of the fuses and the dies: every word that was due is held, as far as its field has room. -/
theorem State.blown_whole (hB : B = s.wordsDue.foldl State.blow (s.raiseVfuse none)) (hlen : ∀ d, d < 8 → (s.die d).fieldRows.length ≤ 512) :
    (∀ l, l < 104 → (l ∈ B.sec.fuses.lanes ↔ l ∈ s.sec.fuses.lanes ∨ s.f64 (Reg.tclLaneMap (l / 26)) (2 * (l % 26)) 2 = 2))
      ∧ (∀ key, key ∈ s.marksDue → B.sec.fuses.Marked key)
      ∧ ∀ d, d < 8 → (B.die d).settled.unrecorded = []
        ∧ (∀ r, r ∈ (s.die d).unrecorded → r ∈ (B.die d).settled.fieldRows ∨ (B.die d).settled.fieldRows.length = 512)
        ∧ ∀ h, h ∈ (s.die d).holes → h ∈ (B.die d).settled.fusedHoles ∨ 64 ≤ (B.die d).settled.fusedHoles.length := by
  have hsub : ∀ w, w ∈ (s.raiseVfuse none).fieldWords → w ∈ s.wordsDue := fun w hw => List.mem_append_left _ hw
  have honly := (s.raiseVfuse none).fusesOnly_blowAll s.wordsDue
  have hlanes := fun l => State.lanes_blowAll l s.wordsDue (s.raiseVfuse none)
  have hmarks : ∀ key, key ∈ s.marksDue → (s.wordsDue.foldl State.blow (s.raiseVfuse none)).Held (.mark key) := fun key hkey =>
    State.held_blowAll _ _ (List.mem_append_right _ (List.mem_map_of_mem hkey))
  have hrows := fun d (hd : d < 8) => State.rows_blowAll_le (s := s.raiseVfuse none) s.wordsDue d (hlen d hd)
  have hrow := fun d (hd : d < 8) r hr => State.held_row (s := s.raiseVfuse none) (d := d) (r := r) hsub hd hr
  have hhole := fun d (hd : d < 8) h hh => State.held_hole (s := s.raiseVfuse none) (d := d) (h := h) hsub hd hh
  rw [← hB] at honly hlanes hmarks hrows hrow hhole
  refine ⟨fun l hl => (hlanes l).trans (or_congr_right' fun hn => ?_), hmarks, fun d hd => ?_⟩
  · have hmem : FuseWord.lane l ∈ s.wordsDue ↔ FuseWord.lane l ∈ s.fieldWords := by
      unfold State.wordsDue
      simp
    rw [hmem, State.lane_mem_fieldWords]
    exact ⟨fun h => h.2.1, fun h => ⟨hl, h, hn⟩⟩
  · have hdie := honly.2 d
    have hwaits : (B.die d).unrecorded = (s.die d).unrecorded := by
      rw [hdie]
      rfl
    have hfields := (B.die d).settled_fields
    have hsame : (B.die d).settled.fieldRows = (B.die d).fieldRows ∧ (B.die d).settled.fusedHoles = (B.die d).fusedHoles := by
      rw [hfields]
      exact ⟨rfl, rfl⟩
    refine ⟨DieState.unrecorded_settled fun r hr => hrow d hd r (by rwa [hwaits] at hr), fun r hr => ?_, fun h hh => ?_⟩
    · rw [hsame.1]
      exact (hrow d hd r hr).imp id fun hfull => le_antisymm (hrows d hd) hfull
    · rw [hsame.2]
      exact hhole d hd h hh

/-- A whole field write. -/
theorem fieldFuseWrite_whole (hw : s.sec.writing = none) (hlen : ∀ d, d < 8 → (s.die d).fieldRows.length ≤ 512) :
    let t := fieldFuseWrite .whole time s
    t.out = s.out ++ [.land 1 true, .land 1 false] ∧ t.sec = { s.sec with fuses := t.sec.fuses }
      ∧ t.dawn = { s.dawn with marks := s.dawn.marks.filter (fun k => t.sec.fuses.mark k != t.sec.fuses) }
      ∧ (∀ l, l < 104 → (l ∈ t.sec.fuses.lanes ↔ l ∈ s.sec.fuses.lanes ∨ s.f64 (Reg.tclLaneMap (l / 26)) (2 * (l % 26)) 2 = 2))
      ∧ (∀ key, key ∈ s.marksDue → t.sec.fuses.Marked key)
      ∧ (∀ d, d < 8 → (t.die d).unrecorded = []
        ∧ (∀ r, r ∈ (s.die d).unrecorded → r ∈ (t.die d).fieldRows ∨ (t.die d).fieldRows.length = 512)
        ∧ ∀ h, h ∈ (s.die d).holes → h ∈ (t.die d).fusedHoles ∨ 64 ≤ (t.die d).fusedHoles.length)
      ∧ t = { s with out := t.out, dawn := t.dawn, sec := t.sec, dies := t.dies, regs := t.regs }
      ∧ (s.markTime = false → t.regs = s.regs) := by
  intro t
  obtain ⟨B, hB⟩ : ∃ B, B = s.wordsDue.foldl State.blow (s.raiseVfuse none) := ⟨_, rfl⟩
  have ht : t = ((B.marksTold s time).fieldSettled).dropVfuse := by
    rw [hB]
    exact fieldFuseWrite_eq hw (by decide)
  have hshape := ((s.raiseVfuse none).fusesOnly_blowAll s.wordsDue).1
  obtain ⟨hlanes, hmarks, hdies⟩ := State.blown_whole hB hlen
  rw [← hB] at hshape
  have hrecord : B.sec.record = s.sec.record := by
    rw [hshape]
    rfl
  have hregs : B.regs = s.regs := by
    rw [hshape]
    rfl
  obtain ⟨hout, hsec, hdawn, hall, hdie⟩ := State.settled_shape (t := t) (time := time) (hshape.trans (by rw [hrecord]; rfl)) hw ht
  have hfuses : t.sec.fuses = B.sec.fuses := by rw [hsec]
  clear_value t
  refine ⟨hout, ?_, ?_, ?_, ?_, fun d hd => ?_, ?_, fun hno => ?_⟩
  · rw [hfuses, hsec, hrecord]
  · rw [hfuses, hdawn]
  · rwa [hfuses]
  · rwa [hfuses]
  · rw [hdie d hd]
    exact hdies d hd
  · rw [hall]
  · rw [hall, State.marksTold_of_none B hno, hregs]

/-- A field write whose word `k` is interrupted. -/
theorem fieldFuseWrite_cut {k : Nat} {w : FuseWord} (hw : s.sec.writing = none) (hno : s.markTime = false) (hk : s.fieldWords[k]? = some w) :
    let t := fieldFuseWrite (.cut k) time s
    t.sec = { s.sec with fuses := t.sec.fuses, record := s.sec.record ++ [w] } ∧ (k = 0 → t.sec.fuses = s.sec.fuses)
      ∧ t = { s with out := t.out, dawn := t.dawn, sec := t.sec, dies := t.dies } := by
  intro t
  obtain ⟨A, hA⟩ : ∃ A, A = (s.wordsDue.take k).foldl State.blow (s.raiseVfuse none) := ⟨_, rfl⟩
  have hwords : s.wordsDue = s.fieldWords := by
    unfold State.wordsDue State.marksDue
    rw [hno]
    exact List.append_nil _
  have hcut : ((s.raiseVfuse none).blowWords s.wordsDue (.cut k)).1 = { A with sec := { A.sec with record := A.sec.record ++ [w] } } := by
    unfold State.blowWords
    simp only
    rw [hA, hwords, hk]
  have ht : t = (((({ A with sec := { A.sec with record := A.sec.record ++ [w] } } : State).marksTold s time)).fieldSettled).dropVfuse := by
    rw [← hcut]
    exact fieldFuseWrite_eq hw (by nofun)
  have hshape := ((s.raiseVfuse none).fusesOnly_blowAll (s.wordsDue.take k)).1
  rw [← hA] at hshape
  have hrecord : A.sec.record = s.sec.record := by
    rw [hshape]
    rfl
  have hregs : A.regs = s.regs := by
    rw [hshape]
    rfl
  have hzero : k = 0 → A.sec.fuses = s.sec.fuses := by
    rintro rfl
    rw [hA]
    rfl
  obtain ⟨-, hsec, -, hall, -⟩ := State.settled_shape (t := t) (time := time)
    (show ({ A with sec := { A.sec with record := A.sec.record ++ [w] } } : State) = _ by rw [hshape]) hw ht
  have hfuses : t.sec.fuses = A.sec.fuses := by rw [hsec]
  clear_value t
  refine ⟨?_, fun h => hfuses.trans (hzero h), ?_⟩
  · rw [hfuses, hsec, hrecord]
  · rw [hall, State.marksTold_of_none _ hno, hregs]

end

/-! ## The parts of the obligation -/

section

variable {s : State} {d : Fin 8} {region : Fin 3} {off : BitVec 32} {a key p : Nat}

/-- A line that the scrubber reads in memory without an error, not the last of its unit. -/
theorem scrubRead_sound (ha : a = d.val * 2 ^ 36 + region.val * 2 ^ 32 + off.toNat) (hkey : key = scrubUnit (s.physical a)) (hp : p = s.scrubAt d key)
    (hidle : bitAt (s.r32 (Reg.cdRasCtl d)) 8 = true) (hline : lineInUnit a = p) (hsoft : s.soft = []) (hlt : p + 1 < unitLines key) :
    ∃ t, exec (.scrubRead d region off []) s = .next t ∧ t.scrubAt d key = p + 1 ∧ (∀ k, k ≠ key → t.scrubAt d k = s.scrubAt d k)
      ∧ t.die d = { s.die d with scrubIdle := (t.die d).scrubIdle } ∧ (∀ x, x ≠ d.val → t.die x = s.die x) ∧ t = { s with dies := t.dies } := by
  have hread : scrubRead d region off.toNat [] s = s.walked d key :=
    (scrubRead_reads (up := []) ha hkey hp hidle hline).trans (State.scrubIdle_sound hsoft hp hlt)
  refine ⟨s.walked d key, congrArg Host.Outcome.next hread, s.walked_moves hp hlt, fun k hk => s.scrubAt_walked_other d hk, ?_,
    fun x hx => s.die_walked_other d key hx, rfl⟩
  rw [s.die_walked]

/-- The line that holds the one word stored with an error. -/
theorem scrubRead_corrects {w : BitVec 37} {row : Nat} (ha : a = d.val * 2 ^ 36 + region.val * 2 ^ 32 + off.toNat)
    (hkey : key = scrubUnit (s.physical a)) (hp : p = s.scrubAt d key) (hidle : bitAt (s.r32 (Reg.cdRasCtl d)) 8 = true) (hline : lineInUnit a = p)
    (hsoft : s.soft = []) (hlt : p + 1 < unitLines key) (hpoison : s.poisoned (8 * w.toNat) = false) (hdie : addrDie (8 * w.toNat) = d.val)
    (hunit : scrubUnit (s.physical (8 * w.toNat)) = key) (hat : lineInUnit (8 * w.toNat) = p) (hrow : row = (rowOf (s.physical (8 * w.toNat))).1) :
    ∃ t, exec (.scrubRead d region off [w]) s = .next t ∧ s.Corrected t d (8 * w.toNat) ∧ t.isSoft (8 * w.toNat) = false
      ∧ t.scrubAt d key = p + 1 ∧ s.ErrorOnly t d ∧ t.out = s.out
      ∧ ∀ e, (s.die d).rowErrs.find? (fun e => e.row == row) = some e
        → (∃ e', (t.die d).rowErrs.find? (fun e => e.row == row) = some e' ∧ e'.count = e.count + 1 ∧ e'.inPass = true)
          ∧ (max 1 (s.f32 (Reg.cdRasCtl d) 12 4) ≤ e.count + 1 → row ∉ (s.die d).remapQ
            → Tab.get (fun _ => 0) (s.die d).sparesUsed (macroOf row) < spareRows (macroOf row)
            → (t.die d).remapQ = (s.die d).remapQ ++ [row] ∧ bitAt (t.r32 (Reg.cdMemStatus d)) 4 = true) := by
  obtain ⟨v, hv⟩ : ∃ v, v = (s.upset [w]).eccCorrected d (8 * w.toNat) := ⟨_, rfl⟩
  have hread : scrubRead d region off.toNat [w] s = v.scrubbed d w.toNat key := by
    rw [scrubRead_reads ha hkey hp hidle hline, hv]
    exact State.scrubIdle_one (State.soft_upset_one hsoft hpoison) hp hlt hdie hunit hat
  obtain ⟨hcorrected, hsound, hmoved, herror, hout⟩ := State.scrubbed_told hv d.isLt hp hlt
  exact ⟨v.scrubbed d w.toNat key, congrArg Host.Outcome.next hread, hcorrected, hsound, hmoved, herror, hout,
    fun e he => State.scrubbed_counts hv hrow he⟩

/-- The last line of a unit in memory without an error. -/
theorem scrubRead_ends (ha : a = d.val * 2 ^ 36 + region.val * 2 ^ 32 + off.toNat) (hkey : key = scrubUnit (s.physical a)) (hp : p = s.scrubAt d key)
    (hidle : bitAt (s.r32 (Reg.cdRasCtl d)) 8 = true) (hline : lineInUnit a = p) (hsoft : s.soft = []) (hlast : p + 1 = unitLines key) :
    ∃ t, exec (.scrubRead d region off []) s = .next t ∧ t.scrubAt d key = 0
      ∧ (t.die d).rowErrs = (s.die d).rowErrs.filterMap (fun e => if scrubUnit e.row = key then
          (if e.inPass then some { e with inPass := false } else none) else some e)
      ∧ t = { s with dies := t.dies } ∧ ∀ x, x ≠ d.val → t.die x = s.die x :=
  ⟨s.scrubIdle d key, congrArg Host.Outcome.next (scrubRead_reads (up := []) ha hkey hp hidle hline), State.scrubIdle_end hsoft hp hlast⟩

/-- An uncorrectable word. -/
theorem eccUncorrectable_effect (s : State) (d : Fin 8) (region : Fin 3) (off : BitVec 32) (feed : Bool) :
    ∃ t, exec (.eccUncorrectable d region off feed) s = .next t
      ∧ (∀ a, a = d.val * 2 ^ 36 + region.val * 2 ^ 32 + off.toNat → t.poisoned a = true ∧ (∀ x, x / 8 ≠ a / 8 → t.poisoned x = s.poisoned x)
        ∧ t.f64 (Reg.cdRasLast d) 62 2 = 2 ∧ t.f64 (Reg.cdRasLast d) 0 40 = a / 8 * 8)
      ∧ (∀ x, t.rdByte x = s.rdByte x) ∧ bitAt (t.r32 (Reg.cdMemStatus d)) 6 = true
      ∧ t.f64 (Reg.cdRasCount d) 16 16 = min (s.f64 (Reg.cdRasCount d) 16 16 + 1) (2 ^ 16 - 1)
      ∧ (∀ g, (region.val = 1 ∧ off.toNat < 16 * 0x3000000 ∧ g = 16 * d.val + off.toNat / 0x3000000)
            ∨ (region.val = 2 ∧ feed = false ∧ off.toNat < 16 * 2 ^ 23 ∧ g = 16 * d.val + off.toNat / 2 ^ 23)
          → (s.core g).fenced = false → g ∉ s.hour.toFence → t.hour = { s.hour with toFence := s.hour.toFence ++ [g] } ∧ t.core g = s.core g)
      ∧ (region.val = 0 → s.loader.images = [] → s.levelBound 0 d 3 = 0 → s.rangeOwner d off.toNat = none
          → t = { s with poison := t.poison, selfErr := t.selfErr, soft := t.soft, regs := t.regs, dies := t.dies, host := t.host }
            ∧ s.SameRegsBut t (rasRegs d)) := by
  obtain ⟨a, ha⟩ : ∃ a, a = d.val * 2 ^ 36 + region.val * 2 ^ 32 + off.toNat := ⟨_, rfl⟩
  obtain ⟨part, row, heq⟩ := eccUncorrectable_eq (s := s) (feed := feed) ha
  obtain ⟨v, hv⟩ : ∃ v, v = s.uncorrected d a part row := ⟨_, rfl⟩
  rw [← hv] at heq
  obtain ⟨t, ht⟩ : ∃ t, t = eccUncorrectable d region off.toNat feed s := ⟨_, rfl⟩
  have houtcome := ht.trans heq
  have hlt : a < 2 ^ 40 := by
    have := d.isLt
    have := region.isLt
    omega
  obtain ⟨hmarks, hbytes, hbit, hcount⟩ := State.uncorrected_shows d.isLt hlt hv (State.besideDies_outcome feed houtcome)
  refine ⟨t, congrArg Host.Outcome.next ht.symm, fun b hb => ?_, hbytes, hbit, hcount, fun g hg hf hn => ?_, fun hzero himg hcommon hown => ?_⟩
  · rw [hb, ← ha]
    exact hmarks
  · have hrecords := s.recordsOnly_uncorrected d a part row
    rw [← hv] at hrecords
    have hhour : v.hour = s.hour := by
      rw [hrecords]
      rfl
    have hcore : v.core g = s.core g := by
      rw [hrecords]
      rfl
    have hgoes : t = v.fencesAtHour g := by
      rw [houtcome]
      rcases hg with ⟨hr, -, rfl⟩ | ⟨hr, rfl, -, rfl⟩
      · rw [if_neg (by omega), if_neg (by omega), coreOfOffset, if_pos hr]
      · rw [if_neg (by omega), if_neg (by simp), coreOfOffset, if_neg (by omega)]
    obtain ⟨hfence, hsame⟩ := State.fencesAtHour_new (s := v) (g := g) (by rwa [hcore]) (by rwa [hhour])
    rw [hgoes, hfence, hsame, hhour, hcore]
    exact ⟨rfl, rfl⟩
  · obtain ⟨hquiet, hshape, hregs⟩ := State.uncorrected_quiet d.isLt hv himg hcommon hown
    have hstays : t = v := by
      rw [houtcome, if_pos hzero, hquiet]
    rw [hstays]
    exact ⟨hshape, hregs⟩

end

/-- Settles O52: a read and the scrubber by the one word stored with an error, the uncorrectable word by what later steps beside the dies keep,
the field write by the words that it blows. -/
theorem errorsAreCorrectedPoisonedAndRecorded : Obligations.ErrorsAreCorrectedPoisonedAndRecorded := by
  unfold Obligations.ErrorsAreCorrectedPoisonedAndRecorded
  refine ⟨?_, ?_, eccUncorrectable_effect, ?_, ?_, ?_⟩
  · intro s d off n a up ha
    subst ha
    obtain ⟨hout, hbytes⟩ := shmReadRequest_out d off.toNat n up s
    refine ⟨⟨_, rfl, hout, hbytes⟩, fun hsound => congrArg Host.Outcome.next (shmReadRequest_sound hsound), fun w hsoft hp hlo hhi hdie => ?_⟩
    obtain ⟨o, heq⟩ := shmReadRequest_one rfl hsoft hp hlo hhi hdie
    exact ⟨_, congrArg Host.Outcome.next heq, State.corrects_emit hsoft hp d.isLt rfl⟩
  · intro s d region off a key p ha hkey hp
    refine ⟨fun hwait up => congrArg Host.Outcome.next (scrubRead_waits ha hkey hp hwait), fun hidle hline hsoft => ⟨fun hlt => ?_, ?_, fun hlast => ?_⟩⟩
    · exact scrubRead_sound ha hkey hp hidle hline hsoft hlt
    · intro w row hlt hpoison hdie hunit hat hrow
      exact scrubRead_corrects ha hkey hp hidle hline hsoft hlt hpoison hdie hunit hat hrow
    · exact scrubRead_ends ha hkey hp hidle hline hsoft hlast
  · intro s r hr hid hold
    exact ⟨s.abandonRepair r, congrArg Host.Outcome.next (repairAbandon_eq hr hid hold), s.abandonRepair_effect r⟩
  · intro s time hw hlen
    refine ⟨fun hno => ?_, fun hmarks => ?_, fun k w hno hk => ?_, congrArg Host.Outcome.next (fieldFuseWrite_absent hw)⟩
    · obtain ⟨hout, hsec, hdawn, hlanes, -, hdies, hshape, hregs⟩ := fieldFuseWrite_whole (time := time) hw hlen
      refine ⟨fieldFuseWrite .whole time s, rfl, hout, hsec, ?_, hlanes, hdies, ?_⟩
      · rw [hdawn]
      · rw [hregs hno] at hshape
        exact hshape
    · obtain ⟨-, -, hdawn, -, hmarked, hdies, hshape, -⟩ := fieldFuseWrite_whole (time := time) hw hlen
      have hdue : s.marksDue = s.dawn.marks := if_pos hmarks
      rw [hdue] at hmarked
      refine ⟨fieldFuseWrite .whole time s, rfl, ?_, fun key hkey => ⟨hmarked key hkey, fun hstep hkind => ?_⟩, fun d hd => (hdies d hd).1, hshape⟩
      · rw [hdawn, List.filter_eq_nil_iff.2 fun key hkey => ?_]
        have hsame : _ = _ := hmarked key hkey
        simp [hsame]
      · exact Fuses.slotFailed_of_marked (hmarked key hkey) hstep hkind
    · exact ⟨fieldFuseWrite (.cut k) time s, rfl, fieldFuseWrite_cut hw hno hk⟩
  · intro s
    refine ⟨fun hw => congrArg Host.Outcome.next ?_, fun d hw htell => ⟨vfuseCheck s, rfl, vfuseCheck_tells hw htell⟩⟩
    unfold vfuseCheck
    rw [hw]
    rfl

end Sys2Proof.Machine
end

/-! What a module end's sending touches: its own record, its registers and what leaves the device (09_fabric_and_die_links.md R252-R256). -/

section

namespace Sys2Proof.Machine

/-- Nothing but registers, module ends and what the device sends differs. -/
def State.LinkOnly (s t : State) : Prop := t = { s with regs := t.regs, mods := t.mods, out := t.out }

theorem State.LinkOnly.trans {s t u : State} (h : s.LinkOnly t) (g : t.LinkOnly u) : s.LinkOnly u := by
  unfold State.LinkOnly at *
  rw [g, h]

theorem State.LinkOnly.foldl {α : Type} {f : State → α → State} (l : List α) (s : State) (h : ∀ (u : State) x, u.LinkOnly (f u x)) :
    s.LinkOnly (l.foldl f s) :=
  List.foldlRecOn l f (motive := s.LinkOnly) rfl fun u hu x _ => State.LinkOnly.trans hu (h u x)

theorem State.LinkOnly.core {s t : State} (h : s.LinkOnly t) (g : Nat) : t.core g = s.core g := State.core_congr (by rw [h]) g

section

variable (s : State) (k : Nat)

theorem State.linkOnly_pumpM (n : Nat) : s.LinkOnly (s.pumpM k n) := by
  induction n generalizing s with
  | zero => exact rfl
  | succ n ih =>
    unfold State.pumpM
    extract_lets x u
    have hu : s.LinkOnly u := rfl
    split
    · exact hu
    · extract_lets q y
      split_ifs
      · exact hu
      · exact hu.trans rfl
      · refine hu.trans (State.LinkOnly.trans ?_ (ih _))
        exact rfl

theorem State.linkOnly_pumpF (q n : Nat) : s.LinkOnly (s.pumpF k q n) := by
  induction n generalizing s with
  | zero => exact rfl
  | succ n ih =>
    unfold State.pumpF
    extract_lets x
    split
    · exact rfl
    · extract_lets y z
      split_ifs
      · exact rfl
      · exact rfl
      · refine State.LinkOnly.trans ?_ (ih _)
        exact rfl

theorem State.linkOnly_pump : s.LinkOnly (s.pump k) :=
  ((s.linkOnly_pumpM k _).trans (State.linkOnly_pumpF _ k 1 _)).trans (State.linkOnly_pumpF _ k 0 _)

theorem State.linkOnly_sendFrame (f : Frame) : s.LinkOnly (s.sendFrame k f) := by
  unfold State.sendFrame
  extract_lets x y
  have hput : s.LinkOnly (s.setModEnd k y) := rfl
  exact hput.trans (State.linkOnly_pump _ k)

theorem State.linkOnly_sendMsg (m : Msg) : s.LinkOnly (s.sendMsg k m) := by
  unfold State.sendMsg
  split
  · exact rfl
  · extract_lets x y
    have hput : s.LinkOnly (s.setModEnd k y) := rfl
    exact hput.trans (State.linkOnly_pump _ k)

end

end Sys2Proof.Machine

end

/-! What the lines of the DMA movers and the write ports leave of a die: its clock (log entry 7). -/

section

namespace Sys2Proof.Machine

/-- A die beside the lines under way on it. -/
def DieState.beside (x : DieState) : DieState := { x with mesh := {} }

/-- No die differs in anything but the lines under way on it. -/
def State.MeshesOnly (s t : State) : Prop := ∀ e, (t.die e).beside = (s.die e).beside

section

variable {s t u : State}

theorem State.MeshesOnly.refl (s : State) : s.MeshesOnly s := fun _ => rfl

theorem State.MeshesOnly.trans (h : s.MeshesOnly t) (h' : t.MeshesOnly u) : s.MeshesOnly u := fun e => (h' e).trans (h e)

theorem State.meshesOnly_of_dies (h : t.dies = s.dies) : s.MeshesOnly t := fun e => by rw [State.die, h, State.die]

theorem State.MemoryOnly.meshesOnly (h : s.MemoryOnly t) : s.MeshesOnly t := State.meshesOnly_of_dies (by rw [h])

theorem State.LinkOnly.meshesOnly (h : s.LinkOnly t) : s.MeshesOnly t := State.meshesOnly_of_dies (by rw [h])

theorem State.MeshesOnly.foldl {α : Type} {f : State → α → State} (l : List α) (s : State) (h : ∀ (u : State) x, u.MeshesOnly (f u x)) :
    s.MeshesOnly (l.foldl f s) :=
  List.foldlRecOn l f (motive := s.MeshesOnly) (.refl s) fun u hu x _ => State.MeshesOnly.trans hu (h u x)

/-- A fold that carries more than the state. -/
theorem State.MeshesOnly.foldl_fst {α β : Type} {f : State × β → α → State × β} (l : List α) (x : State × β)
    (h : ∀ y a, State.MeshesOnly y.1 (f y a).1) : State.MeshesOnly x.1 (l.foldl f x).1 :=
  List.foldlRecOn l f (motive := fun y => State.MeshesOnly x.1 y.1) (.refl _) fun y hy a _ => State.MeshesOnly.trans hy (h y a)

/-- The engine cycle does not depend on the lines under way. -/
theorem State.MeshesOnly.engCycle (h : s.MeshesOnly t) (d n : Nat) : t.engCycle d n = s.engCycle d n := by
  have hd := h d
  simp only [DieState.beside, DieState.mk.injEq] at hd
  obtain ⟨-, hrun, ht0, he0, -⟩ := hd
  simp only [State.engCycle, hrun, ht0, he0]

end

variable (s : State)

theorem State.meshesOnly_setMesh (d : Nat) (m : Mesh) : s.MeshesOnly (s.setMesh d m) := by
  intro e
  unfold State.setMesh
  by_cases h : e = d
  · subst h
    rw [State.die_setDie_same]
    rfl
  · rw [State.die_setDie_other _ _ _ _ h]

theorem State.meshesOnly_setCore (g : Nat) (x : CoreState) : s.MeshesOnly (s.setCore g x) := .refl s

theorem State.meshesOnly_setFlight (g : Nat) (f : Flight) : s.MeshesOnly (s.setFlight g f) := .refl s

theorem State.meshesOnly_count64 (a lo w k : Nat) : s.MeshesOnly (s.count64 a lo w k) := .refl s

theorem State.meshesOnly_orBits (a bits : Nat) : s.MeshesOnly (s.orBits a bits) := .refl s

theorem State.memoryOnly_writeTimed (n cyc rank : Nat) (w : List (Nat × Byte)) : s.MemoryOnly (s.writeTimed n cyc rank w) :=
  List.foldlRecOn w _ (motive := s.MemoryOnly) (.refl s) fun u hu x _ => hu.trans (u.memoryOnly_writeByteTimed n cyc rank x.1 x.2)

theorem State.memoryOnly_poisonAt (addrs : List Nat) : s.MemoryOnly (s.poisonAt addrs) := (s.poisonAt_keeps addrs).1

/-! ## The write ports of the vector engines -/

theorem State.meshesOnly_reportDue (g c : Nat) : s.MeshesOnly (s.reportDue g c) := by
  unfold State.reportDue
  extract_lets d cl outs new u x
  have hu : s.MeshesOnly u := .foldl new s fun v _ => ((v.meshesOnly_orBits _ _).trans (State.meshesOnly_count64 _ _ _ _ _)).trans
    ((State.meshesOnly_count64 _ _ _ _ _).trans (State.meshesOnly_count64 _ _ _ _ _))
  exact hu.trans (u.meshesOnly_setCore _ _)

theorem State.meshesOnly_portOutput (g c : Nat) (acc : State × Nat) (o : VOut) : acc.1.MeshesOnly (s.portOutput g c acc o).1 := by
  obtain ⟨u, n⟩ := acc
  rw [State.portOutput_eq]
  exact State.meshesOnly_of_dies (by rw [State.setCore_dies, (State.memoryOnly_linesWritten _ _ _ _ _)]; rfl)

theorem State.meshesOnly_portCycle (g c : Nat) : s.MeshesOnly (s.portCycle g c) := by
  unfold State.portCycle
  extract_lets u x due later vec v w y z
  have hu : s.MeshesOnly u := s.meshesOnly_reportDue g c
  have hv : u.MeshesOnly v := u.meshesOnly_setCore _ _
  have hw : v.MeshesOnly w := .foldl_fst due (v, 0) (v.meshesOnly_portOutput g c)
  have hz : w.MeshesOnly z := by
    unfold z
    split
    · exact .refl w
    · exact w.meshesOnly_count64 _ _ _ _
  exact ((hu.trans hv).trans (hw.trans hz)).trans (z.meshesOnly_setCore _ _)

theorem State.meshesOnly_portRun (g cyc n : Nat) : s.MeshesOnly (s.portRun g cyc n) := by
  induction n generalizing s with
  | zero => exact .refl s
  | succ n ih =>
    unfold State.portRun
    extract_lets v c
    split_ifs
    · exact .refl s
    · exact .refl s
    · exact (s.meshesOnly_portCycle g c).trans (ih _)

/-! ## Lines that are read -/

theorem State.meshesOnly_ringSend (part d line : Nat) (m : RedMark) (bytes : List Byte) (bad : Bool) :
    s.MeshesOnly (s.ringSend part d line m bytes bad) := (s.linkOnly_sendFrame _ _).meshesOnly

theorem State.meshesOnly_sendReduce (x : Group) (d line peer : Nat) (m : RedMark) (bytes : List Byte) (bad : Bool) :
    s.MeshesOnly (s.sendReduce x d line peer m bytes bad) := (s.linkOnly_sendFrame _ _).meshesOnly

theorem State.meshesOnly_placeResult (x : Group) (d item line cyc : Nat) (bytes : List Byte) (bad : Bool) :
    s.MeshesOnly (s.placeResult x d item line cyc bytes bad) := by
  unfold State.placeResult
  refine .foldl _ s fun u g => ?_
  split
  · exact .refl u
  · extract_lets n run f v m
    have hv : u.MeshesOnly v := u.meshesOnly_setFlight g f
    exact hv.trans (v.meshesOnly_setMesh d _)

theorem State.meshesOnly_shareResult (x : Group) (d item line cyc : Nat) (bytes : List Byte) (bad : Bool) :
    s.MeshesOnly (s.shareResult x d item line cyc bytes bad) :=
  (s.meshesOnly_placeResult x d item line cyc bytes bad).trans (.foldl _ _ fun u _ => u.meshesOnly_ringSend _ _ _ _ _ _)

theorem State.meshesOnly_addOperand (x : Group) (item line level place : Nat) (o : RedOp) (fuel : Nat) :
    s.MeshesOnly (s.addOperand x item line level place o fuel) := by
  induction fuel generalizing s level o with
  | zero => exact .refl s
  | succ fuel ih =>
    unfold State.addOperand
    extract_lets isC ops rest wait sorted bad u
    have hwait : s.MeshesOnly wait := .refl s
    split
    · exact hwait
    · split
      · exact hwait
      · extract_lets inRank r chosen v point pkg
        have hu : s.MeshesOnly u := .refl s
        have hv : u.MeshesOnly v := by
          unfold v
          split
          · exact u.meshesOnly_count64 _ _ _ _
          · exact .refl u
        refine (hu.trans hv).trans ?_
        split_ifs
        · exact ih _ _ _
        · exact v.meshesOnly_ringSend _ _ _ _ _ _
        · exact ih _ _ _
        · exact v.meshesOnly_sendReduce _ _ _ _ _ _ _
        · exact (State.MeshesOnly.foldl _ v fun w _ => w.meshesOnly_sendReduce _ _ _ _ _ _ _).trans (State.meshesOnly_shareResult _ _ _ _ _ _ _ _)

theorem State.meshesOnly_lineRead (d c : Nat) (r : SrcRead) (f : Flight) (i : Nat) : s.MeshesOnly (s.lineRead d c r f i) := by
  unfold State.lineRead
  extract_lets card n g part src addrs bytes bad from' at' k left f' u line all here v
  have hu : s.MeshesOnly u := s.meshesOnly_setFlight g f'
  refine hu.trans ?_
  have hv : u.MeshesOnly v := by
    unfold v
    split_ifs
    · exact .refl u
    · split
      · exact u.meshesOnly_setMesh _ _
      · exact .refl u
    · exact .foldl here u fun w _ => w.meshesOnly_setMesh _ _
  split_ifs
  · split
    · exact u.meshesOnly_addOperand _ _ _ _ _ _ _
    · exact .refl u
  · refine hv.trans (.foldl _ v fun w dest => ?_)
    split
    · exact w.meshesOnly_setMesh _ _
    · exact .refl w

theorem State.meshesOnly_serveRead (d c : Nat) (acc : State × Grants) (r : SrcRead) : acc.1.MeshesOnly (s.serveRead d c acc r).1 := by
  unfold State.serveRead
  extract_lets u
  split
  · exact .refl u
  · split
    · exact u.meshesOnly_setMesh _ _
    · extract_lets src
      split
      next got left waits x _ =>
      extract_lets v w
      have hv : u.MeshesOnly v := .foldl got u fun y i => by
        split
        · exact y.meshesOnly_lineRead _ _ _ _ _
        · exact .refl y
      have hw : v.MeshesOnly w := by
        unfold w
        split
        · exact v.meshesOnly_count64 _ _ _ _
        · exact .refl v
      refine (hv.trans hw).trans ?_
      split
      · exact .refl w
      · exact w.meshesOnly_setMesh _ _

theorem State.meshesOnly_serveReads (d c : Nat) : s.MeshesOnly (s.serveReads d c) := by
  unfold State.serveReads
  extract_lets rs
  exact (s.meshesOnly_setMesh d _).trans (.foldl_fst rs (s.setMesh d { s.mesh d with reads := [] }, {}) (s.meshesOnly_serveRead d c))

/-! ## Lines that land, and lines that leave the die -/

theorem State.meshesOnly_writeLanding (x : Landing) (f : Flight) (addrs : List Nat) (c rank : Nat) :
    s.MeshesOnly (s.writeLanding x f addrs c rank) := by
  unfold State.writeLanding
  extract_lets n u v
  have hu : s.MeshesOnly u := (s.memoryOnly_writeTimed n (c + 1) rank _).meshesOnly
  have hv : u.MeshesOnly v := by
    unfold v
    split
    · exact (u.memoryOnly_poisonAt _).meshesOnly
    · exact .refl u
  exact hu.trans (hv.trans (.refl v))

theorem State.meshesOnly_landLine (d c : Nat) (acc : State × Taken × List Landing) (x : Landing) :
    acc.1.MeshesOnly (s.landLine d c acc x).1 := by
  obtain ⟨u, tk, wait⟩ := acc
  unfold State.landLine
  dsimp only
  split
  · exact .refl u
  · split_ifs
    · exact (u.meshesOnly_setCore _ _).trans (State.meshesOnly_writeLanding _ _ _ _ _ _)
    · exact u.meshesOnly_count64 _ _ _ _
    · exact u.meshesOnly_writeLanding _ _ _ _ _
    · exact .refl u
    · exact (u.meshesOnly_setCore _ _).trans (State.meshesOnly_writeLanding _ _ _ _ _ _)
    · exact .refl u

theorem State.meshesOnly_formFrames (d : Nat) (ls : List (List Landing)) (acc : State × List Frame) {r : State × List Frame}
    (h : s.formFrames d ls acc = some r) : acc.1.MeshesOnly r.1 := by
  induction ls generalizing acc with
  | nil => exact (Option.some.inj h) ▸ .refl _
  | cons l t ih =>
    unfold State.formFrames at h
    split at h
    · exact ih _ h
    · split at h
      · exact ih _ h
      · split at h
        · have hu := ih _ h
          exact hu
        · split at h
          · cases h
          · exact (State.meshesOnly_setFlight _ _ _).trans (ih (_, _) h)

theorem State.meshesOnly_egress (d c : Nat) {t : State} (h : s.egress d c = some t) : s.MeshesOnly t := by
  unfold State.egress at h
  dsimp only at h
  split at h
  · exact (Option.some.inj h) ▸ .refl s
  · split at h
    · cases h
    · next u fs hform =>
      split at h
      · cases h
      · obtain rfl := Option.some.inj h
        refine (s.meshesOnly_formFrames d _ _ hform).trans ((u.meshesOnly_setMesh d _).trans (State.MeshesOnly.trans (.foldl _ _ fun v x => ?_)
          (.foldl fs _ fun v f => (v.linkOnly_sendFrame _ f).meshesOnly)))
        split
        · exact v.meshesOnly_setFlight _ _
        · exact .refl v

theorem State.meshesOnly_landings (d c : Nat) : s.MeshesOnly (s.landings d c) := by
  unfold State.landings
  extract_lets m out due order base
  have hbase : s.MeshesOnly base := s.meshesOnly_setMesh d _
  have hlands := State.MeshesOnly.foldl_fst (sortBy order due) (base, ({} : Taken), ([] : List Landing)) (s.meshesOnly_landLine d c)
  split
  next u _ wait heq =>
  rw [heq] at hlands
  extract_lets lines v
  have hv : s.MeshesOnly v := hbase.trans (hlands.trans (u.meshesOnly_setMesh d _))
  cases hout : v.egress d c with
  | none => exact hv
  | some w => exact hv.trans (v.meshesOnly_egress d c hout)

/-! ## The cycles up to a command -/

theorem State.meshesOnly_meshCycle (d c : Nat) : s.MeshesOnly (s.meshCycle d c) := by
  unfold State.meshCycle
  extract_lets u v
  have hu : s.MeshesOnly u := .foldl _ s fun w k => w.meshesOnly_portRun _ _ _
  have harrive : u.MeshesOnly (u.arrivals d c) := u.meshesOnly_setMesh d _
  have hland := State.meshesOnly_landings (u.arrivals d c) d c
  have hlink : ((u.arrivals d c).landings d c).MeshesOnly (((u.arrivals d c).landings d c).links d c) :=
    (State.meshesOnly_setMesh _ d _).trans (State.meshesOnly_count64 _ _ _ _ _)
  have hread : (((u.arrivals d c).landings d c).links d c).MeshesOnly v := State.meshesOnly_serveReads _ d c
  exact hu.trans (harrive.trans (hland.trans (hlink.trans (hread.trans (v.meshesOnly_setMesh d _)))))

theorem State.meshesOnly_meshRun (d n : Nat) : s.MeshesOnly (s.meshRun d n) := by
  induction n generalizing s with
  | zero => exact .refl s
  | succ n ih =>
    unfold State.meshRun
    split
    · exact .refl s
    · exact (s.meshesOnly_meshCycle d _).trans (ih _)

/-- The cycles of the movers' lines leave every die's clock. -/
theorem State.meshesOnly_meshTo (d cyc : Nat) : s.MeshesOnly (s.meshTo d cyc) := s.meshesOnly_meshRun d _

theorem State.engCycle_meshTo (d cyc n : Nat) : (s.meshTo d cyc).engCycle d n = s.engCycle d n := (s.meshesOnly_meshTo d cyc).engCycle d n

end Sys2Proof.Machine

end

/-! A line of a MOVE that its source's memory reads (07_layer_cards.md R204; 06_memory_hierarchy.md R155). -/

section

namespace Sys2Proof.Machine

/-- The flight after line `i` of its item's source copy has been read in cycle `c`: the line is held, and with the last one the item
counts as read. -/
def Flight.lineHeld (f : Flight) (n copy c i : Nat) (bytes : List Byte) : Flight :=
  let left := Tab.get (fun _ => 0) f.unread n - 1
  { f with
    fetched := Tab.put (fun _ => []) f.fetched (fetchKey n copy)
      (putLine (Tab.get (fun _ => []) f.fetched (fetchKey n copy)) (descRun (cardDesc f.card 0)) i bytes),
    unread := Tab.put (fun _ => 0) f.unread n left, readAt := if left = 0 then stampAt f.readAt (itemKey 0 0 n) (c + 1) else f.readAt }

section

variable (f : Flight) (n copy c i : Nat) (bytes : List Byte)

theorem Flight.held_lineHeld : (f.lineHeld n copy c i bytes).held n copy = putLine (f.held n copy) (descRun (cardDesc f.card 0)) i bytes :=
  Tab.get_put_same _ _ _ _

theorem Flight.unread_lineHeld :
    Tab.get (fun _ => 0) (f.lineHeld n copy c i bytes).unread n = Tab.get (fun _ => 0) f.unread n - 1 := Tab.get_put_same _ _ _ _

/-- With its last line the item counts as read from the next cycle on. -/
theorem Flight.read_lineHeld (h : Tab.get (fun _ => 0) f.unread n = 1) :
    doneBy (f.lineHeld n copy c i bytes).readAt (itemKey 0 0 n) (c + 1) = true := by
  have hleft : Tab.get (fun _ => 0) f.unread n - 1 = 0 := by omega
  unfold Flight.lineHeld
  dsimp only
  rw [if_pos hleft]
  exact doneBy_stampAt_same _ _ _

end

/-- Nothing but dies differs, and what has joined the lines under way on die `d` is line `i` of card `q` of core `g`. -/
structure State.LineSent (s t : State) (d g q i : Nat) (bytes : List Byte) : Prop where
  shape : t = { s with dies := t.dies }
  hops : ∀ x, x ∈ (t.mesh d).hops → x ∈ (s.mesh d).hops ∨ (x.core = g ∧ x.seq = q ∧ x.line = i ∧ x.bytes = bytes)
  lands : ∀ x, x ∈ (t.mesh d).lands → x ∈ (s.mesh d).lands ∨ (x.core = g ∧ x.seq = q ∧ x.line = i ∧ x.bytes = bytes)

section

variable {s t u : State} {d g q i : Nat} {bytes : List Byte}

theorem State.LineSent.refl (s : State) : s.LineSent s d g q i bytes := ⟨rfl, fun _ h => .inl h, fun _ h => .inl h⟩

theorem State.LineSent.trans (h : s.LineSent t d g q i bytes) (k : t.LineSent u d g q i bytes) : s.LineSent u d g q i bytes where
  shape := by rw [k.shape, h.shape]
  hops x hx := (k.hops x hx).elim (h.hops x) .inr
  lands x hx := (k.lands x hx).elim (h.lands x) .inr

theorem State.LineSent.foldl {α : Type} {f : State → α → State} (l : List α) (s : State)
    (h : ∀ (v : State) x, v.LineSent (f v x) d g q i bytes) : s.LineSent (l.foldl f s) d g q i bytes :=
  List.foldlRecOn l f (motive := fun v => s.LineSent v d g q i bytes) (.refl s) fun v hv x _ => hv.trans (h v x)

theorem State.mesh_setMesh (s : State) (d : Nat) (m : Mesh) : (s.setMesh d m).mesh d = m := by
  rw [State.mesh, State.setMesh, State.die_setDie_same]

theorem Mesh.mem_hops_send {m : Mesh} {y x : MeshLine} (h : x ∈ (m.send y).hops) : x ∈ m.hops ∨ x = { y with ord := m.next } := by
  unfold Mesh.send at h
  dsimp only at h
  split at h
  · exact .inl h
  · exact (List.mem_append.1 h).imp id List.mem_singleton.1

theorem Mesh.mem_lands_send {m : Mesh} {y : MeshLine} {x : Landing} (h : x ∈ (m.send y).lands) :
    x ∈ m.lands ∨ x = ⟨y.core, y.seq, y.iter, y.line, y.copy, y.bytes, y.bad, y.at', m.next⟩ := by
  unfold Mesh.send at h
  dsimp only at h
  split at h
  · exact (List.mem_append.1 h).imp id List.mem_singleton.1
  · exact .inl h

theorem State.lineSent_send (s : State) (d : Nat) (x : MeshLine) :
    s.LineSent (s.setMesh d ((s.mesh d).send x)) d x.core x.seq x.line x.bytes where
  shape := rfl
  hops y hy := by
    rw [State.mesh_setMesh] at hy
    refine (Mesh.mem_hops_send hy).imp id ?_
    rintro rfl
    exact ⟨rfl, rfl, rfl, rfl⟩
  lands y hy := by
    rw [State.mesh_setMesh] at hy
    refine (Mesh.mem_lands_send hy).imp id ?_
    rintro rfl
    exact ⟨rfl, rfl, rfl, rfl⟩

end

/-- A line of a MOVE is held in its flight and goes on its way; nothing else changes. -/
theorem State.lineRead_of_move (s : State) (d c : Nat) {r : SrcRead} {f : Flight} {p : Nat × Nat} (i : Nat) (hop : cardOp f.card = 3)
    (hsrc : (dmaSources f.card)[r.copy]? = some p) :
    let bytes := (lineAddrs f.card 0 r.iter p i).map (s.readAsOf (s.ownerN r.core) c)
    (s.setFlight r.core (f.lineHeld r.iter r.copy c i bytes)).LineSent (s.lineRead d c r f i) d r.core r.seq i bytes := by
  have h5 : cardOp f.card ≠ 5 := by omega
  have h4 : cardOp f.card ≠ 4 := by omega
  obtain rfl : (dmaSources f.card)[r.copy]?.getD (r.core, 0) = p := by rw [hsrc, Option.getD_some]
  unfold State.lineRead
  extract_lets sent card n g part src addrs bytes bad from' at' k left f' u line all here v
  rw [if_neg h5]
  have hv : u.LineSent v d g r.seq i bytes := by
    unfold v
    rw [if_neg h4]
    exact .foldl here u fun w x => w.lineSent_send d (line _ _ _)
  refine hv.trans (.foldl _ v fun w dest => ?_)
  split
  · exact w.lineSent_send d (line _ _ _)
  · exact .refl w

/-- The lines of a MOVE at their source: held as they stood, and on their way to the target. -/
theorem moveLine_read {s : State} (d : Nat) (cyc i : Nat) {f : Flight} {r : SrcRead} {p : Nat × Nat} (hf : (s.core r.core).flight r.seq = some f)
    (hop : cardOp f.card = 3) (hsrc : (dmaSources f.card)[r.copy]? = some p) :
    let bytes := (lineAddrs f.card 0 r.iter p i).map (s.readAsOf (s.ownerN r.core) cyc)
    let t := s.lineRead d cyc r f i
    (t.core r.core).flight r.seq = some (f.lineHeld r.iter r.copy cyc i bytes)
      ∧ (∀ q, q ≠ r.seq → (t.core r.core).flight q = (s.core r.core).flight q) ∧ s.SameBytes t
      ∧ (∀ x, x ∈ (t.mesh d).hops → x ∈ (s.mesh d).hops ∨ (x.core = r.core ∧ x.seq = r.seq ∧ x.line = i ∧ x.bytes = bytes))
      ∧ (∀ x, x ∈ (t.mesh d).lands → x ∈ (s.mesh d).lands ∨ (x.core = r.core ∧ x.seq = r.seq ∧ x.line = i ∧ x.bytes = bytes)) := by
  intro bytes t
  obtain ⟨hshape, hhops, hlands⟩ : (s.setFlight r.core (f.lineHeld r.iter r.copy cyc i bytes)).LineSent t d r.core r.seq i bytes :=
    s.lineRead_of_move d cyc i hop hsrc
  have hseq : (f.lineHeld r.iter r.copy cyc i bytes).seq = r.seq := (CoreState.seq_of_flight hf :)
  have hcore : t.core r.core = (s.core r.core).setFlight (f.lineHeld r.iter r.copy cyc i bytes) := by
    rw [← State.core_setFlight]
    exact State.core_congr (by rw [hshape]) _
  refine ⟨?_, fun q hq => ?_, fun a => ?_, hhops, hlands⟩
  · rw [hcore, ← hseq]
    exact CoreState.flight_setFlight_same (hseq.symm ▸ hf)
  · rw [hcore]
    exact CoreState.flight_setFlight_other (hseq.symm ▸ hq)
  · rw [hshape]
    exact ⟨rfl, rfl⟩

end Sys2Proof.Machine

end

/-! A line that stands at its target (06_memory_hierarchy.md R160, R174; 07_layer_cards.md R198). -/

section

namespace Sys2Proof.Machine

/-- The flight after one more line of an item stands at its target from cycle `c` on. -/
def Flight.placed (f : Flight) (n c : Nat) : Flight :=
  let left := Tab.get (fun _ => 0) f.unplaced n - 1
  let last := max c (Tab.get (fun _ => 0) f.placedAt n)
  { f with unplaced := Tab.put (fun _ => 0) f.unplaced n left, placedAt := Tab.put (fun _ => 0) f.placedAt n last,
           relAt := if left == 0 && Tab.get (fun _ => 0) f.awaited n == 0 then stampAt f.relAt (itemKey 1 0 n) last else f.relAt }

section

variable {f : Flight} {n c : Nat}

theorem Flight.unplaced_placed : Tab.get (fun _ => 0) (f.placed n c).unplaced n = Tab.get (fun _ => 0) f.unplaced n - 1 :=
  Tab.get_put_same _ _ _ _

/-- With its last line, and no report outstanding, the item is released. -/
theorem Flight.released_placed (hlast : Tab.get (fun _ => 0) f.unplaced n = 1) (hawaited : Tab.get (fun _ => 0) f.awaited n = 0)
    (hbefore : Tab.get (fun _ => 0) f.placedAt n ≤ c) : doneBy (f.placed n c).relAt (itemKey 1 0 n) c = true := by
  unfold Flight.placed
  dsimp only
  rw [hlast, hawaited, max_eq_left hbefore]
  exact doneBy_stampAt_same _ _ _

end

theorem State.poisoned_poisonAt (s : State) {addrs : List Nat} {a : Nat} (h : a ∈ addrs) : (s.poisonAt addrs).poisoned a = true := by
  have hkeep : ∀ (l : List Nat) (u : State), u.poisoned a = true → (u.poisonAt l).poisoned a = true := fun l u hu =>
    List.foldlRecOn l _ (motive := fun v : State => v.poisoned a = true) hu fun v hv b _ => by
      rw [State.poisoned_setPoison]
      split
      · rfl
      · exact hv
  induction addrs generalizing s with
  | nil => exact absurd h List.not_mem_nil
  | cons b l ih =>
    obtain rfl | h := List.mem_cons.1 h
    · refine hkeep l (s.setPoison a true) ?_
      rw [State.poisoned_setPoison, if_pos rfl]
    · exact ih _ h

/-- The bytes of a landing written, with the poison mark where it carries one. -/
def State.landingWritten (s : State) (x : Landing) (addrs : List Nat) (c rank : Nat) : State :=
  let u := s.writeTimed (s.ownerN x.core) (c + 1) rank (addrs.zip x.bytes)
  if x.bad then u.poisonAt (addrs.filter (u.mayAccess (s.ownerN x.core) true)) else u

section

variable (s : State) (x : Landing) (f : Flight) (addrs : List Nat) (c rank : Nat)

theorem State.writeLanding_eq : s.writeLanding x f addrs c rank = (s.landingWritten x addrs c rank).setFlight x.core (f.placed x.iter (c + 1)) := rfl

/-- The bytes of a landing, each with its address and its stamp. -/
def landStamped (x : Landing) (addrs : List Nat) (c : Nat) : List StampedByte := (addrs.zip x.bytes).map (fun y => (c + 1, y.1, y.2))

theorem State.landingWritten_keeps :
    let u := s.writeStamped (s.ownerN x.core) rank (landStamped x addrs c)
    u.MemoryOnly (s.landingWritten x addrs c rank) ∧ ∀ a, (s.landingWritten x addrs c rank).rdByte a = u.rdByte a := by
  unfold State.landingWritten
  simp only [State.writeTimed_eq]
  split
  · exact ⟨(State.poisonAt_keeps _ _).1, (State.poisonAt_keeps _ _).2.1⟩
  · exact ⟨.refl _, fun _ => rfl⟩

theorem State.memoryOnly_landingWritten : s.MemoryOnly (s.landingWritten x addrs c rank) :=
  (s.memoryOnly_writeStamped _ _ _).trans (s.landingWritten_keeps x addrs c rank).1

theorem State.rdByte_writeLanding (a : Nat) :
    (s.writeLanding x f addrs c rank).rdByte a = (s.writeStamped (s.ownerN x.core) rank (landStamped x addrs c)).rdByte a :=
  (s.landingWritten_keeps x addrs c rank).2 a

variable {x addrs c}

theorem mem_landStamped {w : StampedByte} (h : w ∈ landStamped x addrs c) : w.1 = c + 1 ∧ w.2.1 ∈ addrs := by
  obtain ⟨y, hy, rfl⟩ := List.mem_map.1 h
  exact ⟨rfl, (List.of_mem_zip hy).1⟩

variable {s}

/-- A landing leaves every byte beside its own. -/
theorem State.rdByte_writeLanding_other {a : Nat} (h : a ∉ addrs) : (s.writeLanding x f addrs c rank).rdByte a = s.rdByte a := by
  rw [State.rdByte_writeLanding]
  refine s.rdByte_writeStamped_other _ rank fun w hw => ?_
  rintro rfl
  exact h (mem_landStamped hw).2

/-- What nothing later has met stands as it landed. -/
theorem State.map_rdByte_writeLanding (hlen : addrs.length = x.bytes.length) (hapart : addrs.Pairwise (· ≠ ·))
    (hmay : ∀ a, a ∈ addrs → s.mayAccess (s.ownerN x.core) true a = true) (hpast : ∀ p, p ∈ s.past → p.addr ∈ addrs → p.cyc ≤ c) :
    addrs.map (s.writeLanding x f addrs c rank).rdByte = x.bytes := by
  refine List.ext_getElem (by rw [List.length_map, hlen]) fun i hi hb => ?_
  have ha : i < addrs.length := by rwa [List.length_map] at hi
  have hat : (landStamped x addrs c)[i]? = some (c + 1, addrs[i], x.bytes[i]) := by simp [landStamped, ha, hb]
  rw [List.getElem_map, State.rdByte_writeLanding]
  refine s.rdByte_writeStamped_last _ rank ?_ (fun w hw => hmay _ (mem_landStamped hw).2) (fun w hw p hp hpw => ?_) hat fun j v hij hv => ?_
  · exact List.Pairwise.map _ (fun _ _ _ => le_rfl) (List.pairwise_of_forall fun _ _ => trivial)
  · obtain ⟨hcyc, hmem⟩ := mem_landStamped hw
    have hp := hpast p hp (hpw ▸ hmem)
    omega
  · obtain ⟨hj, rfl⟩ := List.getElem?_eq_some_iff.1 hv
    have hja : j < addrs.length := by
      simp only [landStamped, List.length_map, List.length_zip] at hj
      omega
    simpa [landStamped] using (List.pairwise_iff_getElem.1 hapart i j ha hja hij).symm

/-- A poisoned line marks the words it is written to. -/
theorem State.poisoned_writeLanding (hbad : x.bad = true) {a : Nat} (ha : a ∈ addrs) (hmay : s.mayAccess (s.ownerN x.core) true a = true) :
    (s.writeLanding x f addrs c rank).poisoned a = true := by
  show (s.landingWritten x addrs c rank).poisoned a = true
  unfold State.landingWritten
  dsimp only
  rw [if_pos hbad]
  refine State.poisoned_poisonAt _ (List.mem_filter.2 ⟨ha, ?_⟩)
  rwa [(s.memoryOnly_writeTimed _ _ _ _).mayAccess]

theorem State.flight_writeLanding (hf : (s.core x.core).flight x.seq = some f) :
    ((s.writeLanding x f addrs c rank).core x.core).flight x.seq = some (f.placed x.iter (c + 1)) := by
  have hseq : (f.placed x.iter (c + 1)).seq = x.seq := (CoreState.seq_of_flight hf :)
  rw [State.writeLanding_eq, State.core_setFlight, (s.memoryOnly_landingWritten x addrs c rank).core, ← hseq]
  exact CoreState.flight_setFlight_same (hseq.symm ▸ hf)

end

end Sys2Proof.Machine

end

/-! A MOVE item that asks its source (07_layer_cards.md R193, R204; 06_memory_hierarchy.md R155, R163; 09_fabric_and_die_links.md R260). -/

section

namespace Sys2Proof.Machine

/-! ## The item of a MOVE -/

section

variable {card : Nat} (hop : cardOp card = 3) (hspread : isSpread card = false)

include hop hspread

theorem itemCopies_of_move (slot : Nat) : itemCopies card slot = [(descLc (cardDesc card slot), descEng (cardDesc card slot))] := by
  simp [itemCopies, hop, hspread]

theorem dmaSources_of_move : dmaSources card = [(descLc (cardDesc card 0), descEng (cardDesc card 0))] := by
  simp [dmaSources, hspread, itemCopies_of_move hop hspread]

theorem dmaTargets_of_move : dmaTargets card = [(0, (descLc (cardDesc card 1), descEng (cardDesc card 1)))] := by
  simp [dmaTargets, hspread, itemCopies_of_move hop hspread]

/-- Each of its lines comes to stand at one place: its target, or the egress queue toward it. -/
theorem itemPlaces_of_move (g : Nat) : itemPlaces g card = 1 := by
  unfold itemPlaces
  rw [dmaTargets_of_move hop hspread, dmaSources_of_move hop hspread]
  cases h : dstOffDie g card (descLc (cardDesc card 1), descEng (cardDesc card 1)) <;>
    simp [h, List.eraseDups_cons]

end

theorem itemLen_eq (card : Nat) : itemLen card = (descRun (cardDesc card 0) + 31) / 32 := rfl

theorem Mesh.reads_wake (m : Mesh) (cyc : Nat) : (m.wake cyc).reads = m.reads := by
  unfold Mesh.wake
  split <;> rfl

/-! ## DMA_ITEM_START -/

section

variable {s : State} {g pos t : Nat} {f : Flight}

/-- An item that nothing holds, of the card whose turn it is, starts. -/
theorem dmaItemStart_of_free {y : State} (hy : y = s.meshTo (g / 16) (s.engCycle (g / 16) t)) (hrun : y.dieRuns (g / 16) t = true)
    (hf : (y.core g).flightAt pos = some f) (hop : cardOp f.card = 3) (hleft : f.started < cardIters f.card)
    (hissue : f.issue < s.engCycle (g / 16) t) (hheld : (y.core g).heldKinds f f.started none [0, 1] (s.engCycle (g / 16) t) = [])
    (hturn : (y.core g).moverTurn f (s.engCycle (g / 16) t) = true) :
    dmaItemStart g pos t s = if srcOffDie g f.card then y.startFar g t f else y.startHere g t f := by
  have hmover : isMover f.card = true := by simp [isMover, hop]
  unfold dmaItemStart
  dsimp only
  rw [← hy, hf]
  dsimp only
  rw [hheld, hrun, hmover, hturn, if_neg]
  simp only [Bool.not_true, Bool.false_or, List.isEmpty_nil, Bool.or_false, Bool.or_eq_true, decide_eq_true_eq]
  omega

end

/-! ## A source on the core's own die -/

/-- The flight after an item with its source on core `g`'s die has sent its first request in cycle `cyc`. -/
def Flight.askedHere (f : Flight) (g cyc : Nat) : Flight :=
  { f with
    started := f.started + 1, begun := stampAt f.begun f.started cyc, lastBegun := cyc,
    unread := Tab.put (fun _ => 0) f.unread f.started (itemLen f.card * (dmaSources f.card).length),
    unplaced := Tab.put (fun _ => 0) f.unplaced f.started (itemLen f.card * itemPlaces g f.card),
    awaited := Tab.put (fun _ => 0) f.awaited f.started (itemLen f.card * itemReports g f.card) }

/-- The read of the next item of a MOVE of core `g` at its source. -/
def Flight.sourceRead (f : Flight) (g cyc : Nat) : SrcRead :=
  { core := g, seq := f.seq, iter := f.started, copy := 0
    from' := cyc + 2 * hops (coreNode (g % 16))
      (homeNode (itemAddr f.card 0 f.started (descLc (cardDesc f.card 0), descEng (cardDesc f.card 0)) 0))
    todo := List.range (itemLen f.card) }

/-- A die's mesh with one more read. -/
def Mesh.withRead (m : Mesh) (cyc : Nat) (r : SrcRead) : Mesh := { m.wake cyc with reads := (m.wake cyc).reads ++ [r] }

/-- What the records of cores and dies say nothing of: ranges and marks of memory. -/
theorem State.access_of_records {s t : State} (h : t = { s with cores := t.cores, dies := t.dies }) :
    (∀ g, t.ownerN g = s.ownerN g) ∧ (∀ n w a, t.mayAccess n w a = s.mayAccess n w a) ∧ ∀ a, t.isSoft a = s.isSoft a := by
  rw [h]
  exact ⟨fun _ => rfl, fun _ _ _ => rfl, fun _ => rfl⟩

/-- An item inside its partition's ranges has its lines counted, and its read stands at the source. -/
theorem State.startHere_of_move {y : State} {g t : Nat} {f : Flight} (hop : cardOp f.card = 3) (hspread : isSpread f.card = false)
    (hsome : 0 < descRun (cardDesc f.card 0))
    (hread : y.MayRead (y.ownerN g) ((List.range (descRun (cardDesc f.card 0))).map
      (itemAddr f.card 0 f.started (descLc (cardDesc f.card 0), descEng (cardDesc f.card 0)))))
    (hwrite : dstOffDie g f.card (descLc (cardDesc f.card 1), descEng (cardDesc f.card 1)) = false → ∀ i, i < descRun (cardDesc f.card 1)
      → y.mayAccess (y.ownerN g) true (itemAddr f.card 1 f.started (descLc (cardDesc f.card 1), descEng (cardDesc f.card 1)) i) = true) :
    y.startHere g t f = (y.setFlight g (f.askedHere g (y.engCycle (g / 16) t))).setMesh (g / 16)
      ((y.mesh (g / 16)).withRead (y.engCycle (g / 16) t) (f.sourceRead g (y.engCycle (g / 16) t))) := by
  have hlines : List.range (itemLen f.card) ≠ [] := by
    rw [itemLen_eq, Ne, List.range_eq_nil]
    omega
  unfold State.startHere
  extract_lets d cyc card n srcs lines f' u read m v part all w
  have hv : v = u.setMesh d ((y.mesh d).withRead cyc (f.sourceRead g cyc)) := by
    unfold v
    have hreads : (((List.range srcs.length).zip srcs).map read).filter (fun r => !r.todo.isEmpty) = [f.sourceRead g cyc] := by
      unfold srcs
      rw [dmaSources_of_move hop hspread]
      simp only [List.length_singleton, List.range_one, List.zip_cons_cons, List.zip_nil_right, List.map_cons, List.map_nil]
      rw [List.filter_cons_of_pos]
      · rfl
      · simpa [read, lines] using hlines
    rw [hreads]
    rfl
  have hshape : v = { y with cores := v.cores, dies := v.dies } := by rw [hv]; rfl
  obtain ⟨howner, hmay, hsoft⟩ := State.access_of_records hshape
  have hpart : part = y.ownerN g := howner g
  have hw : w = v := by
    unfold w srcs
    rw [dmaSources_of_move hop hspread]
    refine v.checkBounds_of_mayRead t part fun a ha => ?_
    rw [hmay, hsoft, hpart]
    exact hread a ha
  have hall : ∀ x, x ∈ (dmaTargets card).filter (fun x => !dstOffDie g card x.2) → v.checkBounds t part true (all 1 x.2) = v := by
    intro x hx
    rw [dmaTargets_of_move hop hspread, List.mem_filter, List.mem_singleton] at hx
    obtain ⟨rfl, hhere⟩ := hx
    refine v.checkBounds_of_mayWrite t part fun a ha => ?_
    obtain ⟨i, hi, rfl⟩ := List.mem_map.1 ha
    rw [hmay, hpart]
    exact hwrite (by simpa using hhere) i (List.mem_range.1 hi)
  rw [hw, foldl_eq_self hall, hv]
  rfl

/-! ## A source on another die -/

/-- The flight after an item with its source on another die has taken `tag` and awaits its lines. -/
def Flight.askedFar (f : Flight) (tag cyc : Nat) : Flight :=
  { f with
    started := f.started + 1, begun := stampAt f.begun f.started cyc, lastBegun := cyc,
    awaited := Tab.put (fun _ => 0) f.awaited f.started (itemLen f.card * (dmaSources f.card).length), tags := f.tags ++ [(tag, f.started)] }

/-- With a free tag, what the die sends and the core's own card are all that differs. -/
theorem State.startFar_of_tag {y : State} {g t tag : Nat} {f : Flight} (htag : y.freeTag (g / 16) = some tag) :
    (y.setFlight g (f.askedFar tag (y.engCycle (g / 16) t))).LinkOnly (y.startFar g t f) := by
  unfold State.startFar
  dsimp only
  rw [htag]
  dsimp only
  split
  · exact rfl
  · exact .foldl _ _ fun u p => .foldl _ u fun v m => v.linkOnly_sendMsg _ m

end Sys2Proof.Machine

end

/-! DMA_ITEM_START of a MOVE card (07_layer_cards.md R193, R204). -/

section

namespace Sys2Proof.Machine

theorem srcOffDie_of_move {card : Nat} (g : Nat) (hop : cardOp card = 3) (hremote : descRemote (cardDesc card 0) = false) :
    srcOffDie g card = true ↔ descLc (cardDesc card 0) / 16 ≠ g / 16 := by
  simp [srcOffDie, hop, hremote]

section

variable {s y : State} {d : Fin 8} {c : Fin 16} {g pos t cyc : Nat} {f : Flight} {up : List (BitVec 37)} (hg : g = 16 * d.val + c.val)
  (hcyc : cyc = s.engCycle d t) (hy : y = (s.upset up).meshTo d cyc)

include hg hcyc hy

/-- What comes before the command leaves the die's engine cycle. -/
theorem engCycle_of_startSeen : y.engCycle (g / 16) t = cyc := by
  subst hg
  rw [die_of_core, hy, State.engCycle_meshTo, hcyc]
  rfl

theorem exec_dmaItemStart (hrun : y.dieRuns d t = true) (hf : (y.core g).flightAt pos = some f) (hop : cardOp f.card = 3)
    (hleft : f.started < cardIters f.card) (hissue : f.issue < cyc) (hheld : (y.core g).heldKinds f f.started none [0, 1] cyc = [])
    (hturn : (y.core g).moverTurn f cyc = true) :
    exec (.dmaItemStart d c pos t up) s = .next (if srcOffDie g f.card then y.startFar g t f else y.startHere g t f) := by
  have hd : g / 16 = d.val := by omega
  have hnow : (s.upset up).engCycle (g / 16) t = cyc := by rw [hcyc, hd]; rfl
  have hstart := dmaItemStart_of_free (s := s.upset up) (g := g) (pos := pos) (t := t) (f := f) (y := y) (by rw [hnow, hd, hy]) (by rwa [hd]) hf hop
    hleft (by rwa [hnow]) (by rwa [hnow]) (by rwa [hnow])
  rw [← hstart, hg]
  rfl

/-- An item with its source on its own die: its lines are counted, and a read of them waits at the source. -/
theorem moveItem_starts_here (hrun : y.dieRuns d t = true) (hf : (y.core g).flightAt pos = some f) (hflight : (y.core g).flight f.seq = some f)
    (hop : cardOp f.card = 3) (hspread : isSpread f.card = false) (hremote : descRemote (cardDesc f.card 0) = false)
    (hleft : f.started < cardIters f.card) (hissue : f.issue < cyc) (hheld : (y.core g).heldKinds f f.started none [0, 1] cyc = [])
    (hturn : (y.core g).moverTurn f cyc = true) (hhere : descLc (cardDesc f.card 0) / 16 = d.val) (hsome : 0 < descRun (cardDesc f.card 0))
    (hread : y.MayRead (y.ownerN g) ((List.range (descRun (cardDesc f.card 0))).map
      (itemAddr f.card 0 f.started (descLc (cardDesc f.card 0), descEng (cardDesc f.card 0)))))
    (hwrite : descRemote (cardDesc f.card 1) = false → descLc (cardDesc f.card 1) / 16 = d.val → ∀ i, i < descRun (cardDesc f.card 1)
      → y.mayAccess (y.ownerN g) true (itemAddr f.card 1 f.started (descLc (cardDesc f.card 1), descEng (cardDesc f.card 1)) i) = true) :
    ∃ u f', exec (.dmaItemStart d c pos t up) s = .next u ∧ (u.core g).flight f.seq = some f' ∧ f'.started = f.started + 1
      ∧ Tab.get (fun _ => 0) f'.unread f.started = (descRun (cardDesc f.card 0) + 31) / 32
      ∧ Tab.get (fun _ => 0) f'.unplaced f.started = (descRun (cardDesc f.card 0) + 31) / 32
      ∧ (u.mesh d).reads = (y.mesh d).reads ++ [{
        core := g, seq := f.seq, iter := f.started, copy := 0
        from' := cyc + 2 * hops (coreNode c) (homeNode (itemAddr f.card 0 f.started (descLc (cardDesc f.card 0), descEng (cardDesc f.card 0)) 0))
        todo := List.range ((descRun (cardDesc f.card 0) + 31) / 32) }]
      ∧ (∀ h, h ≠ g → u.core h = y.core h) ∧ (∀ k, k ≠ d.val → u.die k = y.die k) ∧ u = { y with cores := u.cores, dies := u.dies } := by
  have hd : g / 16 = d.val := by omega
  have hc : g % 16 = c.val := by omega
  have hnow : y.engCycle (g / 16) t = cyc := engCycle_of_startSeen hg hcyc hy
  have hexec := exec_dmaItemStart hg hcyc hy hrun hf hop hleft hissue hheld hturn
  have hnear : ¬srcOffDie g f.card = true := fun h => (srcOffDie_of_move g hop hremote).1 h (hhere.trans hd.symm)
  have hdst : dstOffDie g f.card (descLc (cardDesc f.card 1), descEng (cardDesc f.card 1)) = false →
      descRemote (cardDesc f.card 1) = false ∧ descLc (cardDesc f.card 1) / 16 = d.val := by
    simp [dstOffDie, hd]
  rw [if_neg hnear, State.startHere_of_move hop hspread hsome hread fun h => hwrite (hdst h).1 (hdst h).2, hnow, hd] at hexec
  have hone : (dmaSources f.card).length = 1 := by rw [dmaSources_of_move hop hspread, List.length_singleton]
  refine ⟨_, f.askedHere g cyc, hexec, ?_, rfl, ?_, ?_, ?_, fun h hh => ?_, fun k hk => ?_, rfl⟩
  · show ((y.setFlight g (f.askedHere g cyc)).core g).flight (f.askedHere g cyc).seq = _
    rw [State.core_setFlight]
    exact CoreState.flight_setFlight_same hflight
  · rw [Flight.askedHere, Tab.get_put_same, hone, Nat.mul_one, itemLen_eq]
  · rw [Flight.askedHere, Tab.get_put_same, itemPlaces_of_move hop hspread, Nat.mul_one, itemLen_eq]
  · rw [State.mesh_setMesh, Mesh.withRead, Mesh.reads_wake, Flight.sourceRead, hc, itemLen_eq]
  · exact y.core_setCore_other _ _ _ hh
  · exact State.die_setDie_other _ _ _ _ hk

/-- An item with its source on another die takes the lowest free tag and awaits its lines. -/
theorem moveItem_starts_far (hrun : y.dieRuns d t = true) (hf : (y.core g).flightAt pos = some f) (hflight : (y.core g).flight f.seq = some f)
    (hop : cardOp f.card = 3) (hspread : isSpread f.card = false) (hremote : descRemote (cardDesc f.card 0) = false)
    (hleft : f.started < cardIters f.card) (hissue : f.issue < cyc) (hheld : (y.core g).heldKinds f f.started none [0, 1] cyc = [])
    (hturn : (y.core g).moverTurn f cyc = true) (k : Nat) (hthere : descLc (cardDesc f.card 0) / 16 ≠ d.val) (htag : y.freeTag d = some k) :
    ∃ u f', exec (.dmaItemStart d c pos t up) s = .next u ∧ (u.core g).flight f.seq = some f' ∧ f'.started = f.started + 1
      ∧ f'.tags = f.tags ++ [(k, f.started)] ∧ Tab.get (fun _ => 0) f'.awaited f.started = (descRun (cardDesc f.card 0) + 31) / 32
      ∧ (∀ h, h ≠ g → u.core h = y.core h) ∧ y.SameBytes u ∧ u.flags = y.flags ∧ u.ctrs = y.ctrs := by
  have hd : g / 16 = d.val := by omega
  have hexec := exec_dmaItemStart hg hcyc hy hrun hf hop hleft hissue hheld hturn
  rw [if_pos ((srcOffDie_of_move g hop hremote).2 (hd ▸ hthere))] at hexec
  have hsent := State.startFar_of_tag (y := y) (g := g) (t := t) (f := f) (hd ▸ htag)
  have hcore := hsent.core
  have hone : (dmaSources f.card).length = 1 := by rw [dmaSources_of_move hop hspread, List.length_singleton]
  have hbeside : y.SameBytes (y.startFar g t f) ∧ (y.startFar g t f).flags = y.flags ∧ (y.startFar g t f).ctrs = y.ctrs := by
    rw [hsent]
    exact ⟨fun _ => ⟨rfl, rfl⟩, rfl, rfl⟩
  refine ⟨_, f.askedFar k (y.engCycle (g / 16) t), hexec, ?_, rfl, rfl, ?_, fun h hh => ?_, hbeside⟩
  · rw [hcore, State.core_setFlight]
    exact CoreState.flight_setFlight_same (f' := f.askedFar k _) hflight
  · rw [Flight.askedFar, Tab.get_put_same, hone, Nat.mul_one, itemLen_eq]
  · rw [hcore]
    exact y.core_setCore_other _ _ _ hh

end

end Sys2Proof.Machine

end

/-! The end of a DMA item (07_layer_cards.md R197, R198; 10_determinism.md R277). -/

section

namespace Sys2Proof.Machine

/-! ## What an item that ends adds to the digest string -/

theorem Flight.endItem_fields (f : Flight) : f.endItem.seq = f.seq ∧ f.endItem.done = f.done + 1 := by
  unfold Flight.endItem
  extract_lets n run r
  exact List.foldlRecOn _ _ (motive := fun v : Flight => v.seq = f.seq ∧ v.done = f.done + 1) ⟨rfl, rfl⟩ fun v hv i _ => hv

/-- Of one source copy, the bytes it held. -/
theorem Flight.wrote_endItem (f : Flight) (hone : (dmaSources f.card).length = 1) :
    Tab.get (fun _ => []) f.endItem.wrote ((f.done * 4 + 1) * 64)
      = Tab.get (fun _ => []) f.wrote ((f.done * 4 + 1) * 64) ++ (f.held f.done 0).take (descRun (cardDesc f.card 0)) := by
  unfold Flight.endItem
  extract_lets n run r
  have hr : r = ({ f with done := n + 1 } : Flight).record n 1 0 ((f.held n 0).take run) := by
    unfold r
    rw [hone, List.range_one, List.foldl_cons, List.foldl_nil]
    rfl
  rw [hr]
  exact Tab.get_put_same _ _ _ _

/-! ## DMA_ITEM_COMPLETE -/

section

variable {s y : State} {g pos t cyc : Nat} {f z : Flight}

/-- An item that stands at every target is counted; a card without signals of its items gives none. -/
theorem dmaItemComplete_of_ended (hcyc : cyc = s.engCycle (g / 16) t) (hy : y = s.meshTo (g / 16) cyc) (hrun : y.dieRuns (g / 16) t = true)
    (hf : (y.core g).flightAt pos = some f) (hz : ((y.meshTo (g / 16) (cyc + 1)).core g).flightAt pos = some z)
    (hop : isMover f.card = true) (hopen : f.done < f.started) (hended : z.itemEnded g f.done cyc = true) (hquiet : quietCard f.card 2) :
    dmaItemComplete g pos t s = y.setFlight g f.endItem := by
  unfold dmaItemComplete
  dsimp only
  rw [← hcyc, ← hy, hf, hz]
  dsimp only
  rw [hrun, hop, hended, y.signalsFit_of_quiet g hquiet, if_neg, State.giveSignals_of_quiet _ g t hquiet]
  simpa using hopen

/-- DMA_ITEM_COMPLETE counts the item and adds its bytes to the digest string. -/
theorem moverItem_completes {d : Fin 8} {c : Fin 16} (hg : g = 16 * d.val + c.val) (hcyc : cyc = s.engCycle d t) (hy : y = s.meshTo d cyc)
    (hrun : y.dieRuns d t = true) (hf : (y.core g).flightAt pos = some f) (hflight : (y.core g).flight f.seq = some f)
    (hz : ((y.meshTo d (cyc + 1)).core g).flightAt pos = some z) (h3 : 3 ≤ cardOp f.card) (h5 : cardOp f.card ≤ 5) (hopen : f.done < f.started)
    (hended : z.itemEnded g f.done cyc = true) (hquiet : quietCard f.card 2) :
    ∃ u f', exec (.dmaItemComplete d c pos t) s = .next u ∧ (u.core g).flight f.seq = some f' ∧ f'.done = f.done + 1
      ∧ ((dmaSources f.card).length = 1 → Tab.get (fun _ => []) f'.wrote ((f.done * 4 + 1) * 64)
        = Tab.get (fun _ => []) f.wrote ((f.done * 4 + 1) * 64) ++ (f.held f.done 0).take (descRun (cardDesc f.card 0)))
      ∧ (∀ q, q ≠ f.seq → (u.core g).flight q = (y.core g).flight q) ∧ (∀ h, h ≠ g → u.core h = y.core h) ∧ u = { y with cores := u.cores } := by
  have hd : g / 16 = d.val := by omega
  have hmover : isMover f.card = true := by
    simp only [isMover, Bool.or_eq_true, beq_iff_eq]
    omega
  have hdone := dmaItemComplete_of_ended (s := s) (y := y) (g := g) (pos := pos) (t := t) (cyc := cyc) (f := f) (z := z)
    (by rwa [hd]) (by rwa [hd]) (by rwa [hd]) hf (by rwa [hd]) hmover hopen hended hquiet
  obtain ⟨hseq, hcount⟩ := f.endItem_fields
  refine ⟨y.setFlight g f.endItem, f.endItem, ?_, ?_, hcount, f.wrote_endItem, fun q hq => ?_, fun h hh => y.core_setCore_other _ _ _ hh, rfl⟩
  · rw [← hdone, hg]
    rfl
  · rw [State.core_setFlight, ← hseq]
    exact CoreState.flight_setFlight_same (hseq.symm ▸ hflight)
  · rw [State.core_setFlight]
    exact CoreState.flight_setFlight_other (hseq.symm ▸ hq)

end

end Sys2Proof.Machine

end

/-! INTERLOCK_RELEASE (08_flags_ordering_interlocks.md R228-R230, R235, R236). -/

section

namespace Sys2Proof.Machine

/-! ## The kinds for which items are held -/

/-- A kind for which a range interlock holds an item (Table 8-10): neither a wait nor a flag. -/
def RangeKind (k : Nat) : Prop := 1 ≤ k ∧ k ≤ 4 ∨ k = 6

theorem CoreState.rangeKind_of_holds {c : CoreState} {y : Flight} {slot n cyc k : Nat} {copy : Nat × Nat} {write : Bool}
    (h : k ∈ c.holds y slot n copy write cyc) : RangeKind k := by
  unfold CoreState.holds at h
  extract_lets ext span earlier later one back named unread ringNext at h
  obtain h | h := List.mem_append.1 h
  · obtain ⟨l, hl, hk⟩ := List.mem_flatten.1 h
    obtain ⟨x, -, rfl⟩ := List.mem_map.1 hl
    obtain ⟨m, hm, hk⟩ := List.mem_flatten.1 hk
    obtain ⟨⟨sl, i, cp, w⟩, -, rfl⟩ := List.mem_map.1 hm
    unfold one at hk
    dsimp only at hk
    split_ifs at hk <;> simp_all [RangeKind]
  · unfold ringNext at h
    split_ifs at h <;> simp_all [RangeKind]

theorem CoreState.rangeKind_of_heldKinds {c : CoreState} {y : Flight} {n cyc k : Nat} {eng : Option Nat} {slots : List Nat}
    (h : k ∈ c.heldKinds y n eng slots cyc) : RangeKind k := by
  unfold CoreState.heldKinds at h
  obtain ⟨l, hl, hk⟩ := List.mem_flatten.1 h
  obtain ⟨slot, -, rfl⟩ := List.mem_map.1 hl
  split at hk
  · exact absurd hk List.not_mem_nil
  · obtain ⟨m, hm, hk⟩ := List.mem_flatten.1 hk
    obtain ⟨cp, -, rfl⟩ := List.mem_map.1 hm
    exact CoreState.rangeKind_of_holds hk

/-- The lowest of some kinds is one of them. -/
theorem rangeKind_minKind {l : List Nat} (hsome : l ≠ []) (h : ∀ k, k ∈ l → RangeKind k) : RangeKind (minKind l) := by
  obtain ⟨hmem, hle⟩ := List.min?_eq_some_iff.1 (show (7 :: l).min? = some (minKind l) from rfl)
  obtain ⟨k, hk⟩ := List.exists_mem_of_ne_nil l hsome
  have hlow := hle k (List.mem_cons_of_mem _ hk)
  have hkind := h k hk
  refine h _ ((List.mem_cons.1 hmem).resolve_left fun h7 => ?_)
  unfold RangeKind at hkind
  omega

/-! ## A firing that ends alone in its cycle -/

/-- The state with a firing of a kind counted, and the cycles for which it held. -/
def State.firingCounted (s : State) (g kind delay : Nat) : State :=
  let s := if kind = 0 then s.count64 (Reg.coreIlkCount0 (g / 16) (g % 16)) 32 32 1
    else if kind = 5 then s.count64 (Reg.coreIlkCount1 (g / 16) (g % 16)) 0 32 1
    else if kind = 6 then s.count64 (Reg.coreIlkCount1 (g / 16) (g % 16)) 32 32 1
    else s.count64 (Reg.coreIlkCount0 (g / 16) (g % 16)) 0 32 1
  s.count64 (Reg.coreIlkCycles (g / 16) (g % 16)) 0 64 delay

/-- The state with the only firing of its cycle entered in its core, and in the register of the last one. -/
def State.firingEntered (s : State) (g cyc : Nat) (x : Fired) : State :=
  (s.setCore g { s.core g with fired := (cyc, [x], s.r64 (Reg.coreIlkFirst (g / 16) (g % 16))) }).w64 (Reg.coreIlkLast (g / 16) (g % 16)) x.record

section

variable (s : State) {g cyc kind slot delay pos : Nat}

theorem State.core_firingCounted (h : Nat) : (s.firingCounted g kind delay).core h = s.core h := by
  have hcount : ∀ (u : State) a lo w k, (u.count64 a lo w k).core h = u.core h := fun u a lo w k => (u.wordsOnly_count64 a lo w k).core h
  unfold State.firingCounted
  extract_lets u
  rw [hcount]
  unfold u
  split_ifs
  · exact hcount _ _ _ _ _
  · exact hcount _ _ _ _ _
  · exact hcount _ _ _ _ _
  · exact hcount _ _ _ _ _

/-- The only firing of its cycle is the last one, and the first where none was recorded. -/
theorem State.firing_of_alone (hdelay : delay ≠ 0) (hfirst : (s.core g).fired.1 ≠ cyc) :
    s.firing g cyc kind slot delay pos =
      if bitAt ((s.firingCounted g kind delay).r64 (Reg.coreIlkFirst (g / 16) (g % 16))) 63
      then (s.firingCounted g kind delay).firingEntered g cyc ⟨pos, slot, kind, delay⟩
      else ((s.firingCounted g kind delay).firingEntered g cyc ⟨pos, slot, kind, delay⟩).w64 (Reg.coreIlkFirst (g / 16) (g % 16))
        (Fired.record ⟨pos, slot, kind, delay⟩) := by
  unfold State.firing
  rw [if_neg hdelay]
  extract_lets counted timed x was now entered recorded
  have hcounted : s.firingCounted g kind delay = timed := rfl
  have hx : x = s.core g := by
    unfold x
    rw [← hcounted, State.core_firingCounted]
  have hnow : now = [⟨pos, slot, kind, delay⟩] := by
    unfold now
    rw [hx, if_neg hfirst]
    rfl
  have hwas : was = timed.r64 (Reg.coreIlkFirst (g / 16) (g % 16)) := by
    unfold was
    rw [hx, decide_eq_false hfirst, Bool.false_and]
    rfl
  have hrecorded : recorded = timed.firingEntered g cyc ⟨pos, slot, kind, delay⟩ := by
    unfold recorded entered
    rw [hnow, hwas]
    rfl
  rw [hcounted, hrecorded, hwas, hnow]
  rfl

variable {s}

theorem Fired.record_eq (x : Fired) (hkind : RangeKind x.kind) :
    x.record = 2 ^ 63 + x.kind * 2 ^ 60 + x.slot * 2 ^ 58 + min x.delay 0xFFFFFF * 2 ^ 24 + x.pos % 2 ^ 24 := by
  have h5 : x.kind ≠ 5 := by
    unfold RangeKind at hkind
    omega
  rw [Fired.record, if_neg h5]

theorem Fired.record_lt (x : Fired) (hkind : RangeKind x.kind) (hslot : x.slot < 4) : x.record < 2 ^ 64 := by
  rw [x.record_eq hkind]
  unfold RangeKind at hkind
  omega

theorem State.r64_firingEntered_last (u : State) (x : Fired) (h : x.record < 2 ^ 64) :
    (u.firingEntered g cyc x).r64 (Reg.coreIlkLast (g / 16) (g % 16)) = x.record := by
  rw [State.firingEntered, State.r64_w64_same, Nat.mod_eq_of_lt h]

theorem State.r64_firingEntered_other (u : State) (x : Fired) {a : Nat} (h : a + 8 ≤ Reg.coreIlkLast (g / 16) (g % 16)) :
    (u.firingEntered g cyc x).r64 a = u.r64 a := by
  rw [State.firingEntered, State.r64_w64_other _ _ _ _ (.inl h)]
  rfl

/-! The registers of a core's firings stand one behind the other. -/

theorem State.r64_firingCounted_first :
    (s.firingCounted g kind delay).r64 (Reg.coreIlkFirst (g / 16) (g % 16)) = s.r64 (Reg.coreIlkFirst (g / 16) (g % 16)) := by
  have hcycles : Reg.coreIlkCycles (g / 16) (g % 16) + 4 < Reg.coreIlkFirst (g / 16) (g % 16) := by
    rw [Reg.coreIlkCycles_eq, Reg.coreIlkFirst_eq]; omega
  have hcount1 : Reg.coreIlkCount1 (g / 16) (g % 16) + 4 < Reg.coreIlkFirst (g / 16) (g % 16) := by
    rw [Reg.coreIlkCount1_eq, Reg.coreIlkFirst_eq]; omega
  have hcount0 : Reg.coreIlkCount0 (g / 16) (g % 16) + 4 < Reg.coreIlkFirst (g / 16) (g % 16) := by
    rw [Reg.coreIlkCount0_eq, Reg.coreIlkFirst_eq]; omega
  rw [State.firingCounted, State.r64_count64_other _ _ _ _ (.inr hcycles)]
  split_ifs
  · exact s.r64_count64_other _ _ _ (.inr hcount0)
  · exact s.r64_count64_other _ _ _ (.inr hcount1)
  · exact s.r64_count64_other _ _ _ (.inr hcount1)
  · exact s.r64_count64_other _ _ _ (.inr hcount0)

theorem State.r64_firingCounted_cycles : (s.firingCounted g kind delay).r64 (Reg.coreIlkCycles (g / 16) (g % 16))
    = min (s.r64 (Reg.coreIlkCycles (g / 16) (g % 16)) + delay) (2 ^ 64 - 1) := by
  have hcount1 : Reg.coreIlkCount1 (g / 16) (g % 16) + 4 < Reg.coreIlkCycles (g / 16) (g % 16) := by
    rw [Reg.coreIlkCount1_eq, Reg.coreIlkCycles_eq]; omega
  have hcount0 : Reg.coreIlkCount0 (g / 16) (g % 16) + 4 < Reg.coreIlkCycles (g / 16) (g % 16) := by
    rw [Reg.coreIlkCount0_eq, Reg.coreIlkCycles_eq]; omega
  rw [State.firingCounted, State.r64_count64_full]
  congr 2
  split_ifs
  · exact s.r64_count64_other _ _ _ (.inr hcount0)
  · exact s.r64_count64_other _ _ _ (.inr hcount1)
  · exact s.r64_count64_other _ _ _ (.inr hcount1)
  · exact s.r64_count64_other _ _ _ (.inr hcount0)

/-- The count of a kind does not stand among the cycles. -/
theorem State.f64_firingCounted_remote : (s.firingCounted g 6 delay).f64 (Reg.coreIlkCount1 (g / 16) (g % 16)) 32 32
    = min (s.f64 (Reg.coreIlkCount1 (g / 16) (g % 16)) 32 32 + 1) (2 ^ 32 - 1) := by
  have hcycles : Reg.coreIlkCount1 (g / 16) (g % 16) + 4 < Reg.coreIlkCycles (g / 16) (g % 16) := by
    rw [Reg.coreIlkCount1_eq, Reg.coreIlkCycles_eq]; omega
  rw [← State.f64_count64_same _ _ 32 32 1 (by decide), State.f64, State.firingCounted, State.r64_count64_other _ _ _ _ (.inl hcycles)]
  rfl

theorem State.f64_firingCounted_data (hkind : 1 ≤ kind ∧ kind ≤ 4) : (s.firingCounted g kind delay).f64 (Reg.coreIlkCount0 (g / 16) (g % 16)) 0 32
    = min (s.f64 (Reg.coreIlkCount0 (g / 16) (g % 16)) 0 32 + 1) (2 ^ 32 - 1) := by
  have hcycles : Reg.coreIlkCount0 (g / 16) (g % 16) + 4 < Reg.coreIlkCycles (g / 16) (g % 16) := by
    rw [Reg.coreIlkCount0_eq, Reg.coreIlkCycles_eq]; omega
  rw [← State.f64_count64_same _ _ 0 32 1 (by decide), State.f64, State.firingCounted, State.r64_count64_other _ _ _ _ (.inl hcycles),
    if_neg (by omega), if_neg (by omega), if_neg (by omega)]
  rfl

section

variable (hdelay : delay ≠ 0) (hfirst : (s.core g).fired.1 ≠ cyc)

include hdelay hfirst

/-- Below the registers of the first and the last firing, the counts alone. -/
theorem State.r64_firing_counts {a : Nat} (h : a + 8 ≤ Reg.coreIlkFirst (g / 16) (g % 16)) :
    (s.firing g cyc kind slot delay pos).r64 a = (s.firingCounted g kind delay).r64 a := by
  have hlast : a + 8 ≤ Reg.coreIlkLast (g / 16) (g % 16) := by
    rw [Reg.coreIlkFirst_eq] at h
    rw [Reg.coreIlkLast_eq]
    omega
  rw [s.firing_of_alone hdelay hfirst]
  split
  · exact State.r64_firingEntered_other _ _ hlast
  · rw [State.r64_w64_other _ _ _ _ (.inl h), State.r64_firingEntered_other _ _ hlast]

theorem State.r64_firing_last (h : Fired.record ⟨pos, slot, kind, delay⟩ < 2 ^ 64) :
    (s.firing g cyc kind slot delay pos).r64 (Reg.coreIlkLast (g / 16) (g % 16)) = Fired.record ⟨pos, slot, kind, delay⟩ := by
  have hbefore : Reg.coreIlkFirst (g / 16) (g % 16) + 8 ≤ Reg.coreIlkLast (g / 16) (g % 16) := by
    rw [Reg.coreIlkFirst_eq, Reg.coreIlkLast_eq]
  rw [s.firing_of_alone hdelay hfirst]
  split
  · exact State.r64_firingEntered_last _ _ h
  · rw [State.r64_w64_other _ _ _ _ (.inr hbefore), State.r64_firingEntered_last _ _ h]

/-- The first firing stays. -/
theorem State.r64_firing_first (h : Fired.record ⟨pos, slot, kind, delay⟩ < 2 ^ 64) :
    (s.firing g cyc kind slot delay pos).r64 (Reg.coreIlkFirst (g / 16) (g % 16)) =
      if bitAt (s.r64 (Reg.coreIlkFirst (g / 16) (g % 16))) 63 then s.r64 (Reg.coreIlkFirst (g / 16) (g % 16))
      else Fired.record ⟨pos, slot, kind, delay⟩ := by
  have hbefore : Reg.coreIlkFirst (g / 16) (g % 16) + 8 ≤ Reg.coreIlkLast (g / 16) (g % 16) := by
    rw [Reg.coreIlkFirst_eq, Reg.coreIlkLast_eq]
  rw [s.firing_of_alone hdelay hfirst, State.r64_firingCounted_first]
  split
  · rw [State.r64_firingEntered_other _ _ hbefore, State.r64_firingCounted_first]
  · rw [State.r64_w64_same, Nat.mod_eq_of_lt h]

/-- What a firing that ends alone in its cycle writes into the registers of its core. -/
theorem State.firing_registers (hkind : RangeKind kind) (hslot : slot < 4) :
    let u := s.firing g cyc kind slot delay pos
    let last := Reg.coreIlkLast (g / 16) (g % 16)
    let first := Reg.coreIlkFirst (g / 16) (g % 16)
    let cycles := Reg.coreIlkCycles (g / 16) (g % 16)
    let count0 := Reg.coreIlkCount0 (g / 16) (g % 16)
    let count1 := Reg.coreIlkCount1 (g / 16) (g % 16)
    u.r64 last = 2 ^ 63 + kind * 2 ^ 60 + slot * 2 ^ 58 + min delay 0xFFFFFF * 2 ^ 24 + pos % 2 ^ 24
      ∧ (bitAt (s.r64 first) 63 = false → u.r64 first = u.r64 last) ∧ (bitAt (s.r64 first) 63 = true → u.r64 first = s.r64 first)
      ∧ u.r64 cycles = min (s.r64 cycles + delay) (2 ^ 64 - 1)
      ∧ (kind = 6 → u.f64 count1 32 32 = min (s.f64 count1 32 32 + 1) (2 ^ 32 - 1))
      ∧ (kind < 5 → u.f64 count0 0 32 = min (s.f64 count0 0 32 + 1) (2 ^ 32 - 1)) := by
  intro u last first cycles count0 count1
  have hlt := Fired.record_lt ⟨pos, slot, kind, delay⟩ hkind hslot
  have hlast : u.r64 last = Fired.record ⟨pos, slot, kind, delay⟩ := State.r64_firing_last hdelay hfirst hlt
  have hfirst' := State.r64_firing_first hdelay hfirst hlt
  have hcounts : ∀ {a}, a + 8 ≤ first → u.r64 a = (s.firingCounted g kind delay).r64 a := State.r64_firing_counts hdelay hfirst
  refine ⟨hlast.trans (Fired.record_eq _ hkind), fun h => ?_, fun h => hfirst'.trans (if_pos h), ?_, ?_, fun h => ?_⟩
  · rw [hlast]
    exact hfirst'.trans (if_neg (by rw [h]; decide))
  · rw [hcounts (by unfold cycles first; rw [Reg.coreIlkCycles_eq, Reg.coreIlkFirst_eq])]
    exact State.r64_firingCounted_cycles
  · rintro rfl
    rw [State.f64, hcounts (by unfold count1 first; rw [Reg.coreIlkCount1_eq, Reg.coreIlkFirst_eq]; omega)]
    exact State.f64_firingCounted_remote
  · rw [State.f64, hcounts (by unfold count0 first; rw [Reg.coreIlkCount0_eq, Reg.coreIlkFirst_eq]; omega)]
    unfold RangeKind at hkind
    exact State.f64_firingCounted_data (by omega)

end

end

/-! ## The item that is released -/

/-- The first cycle, from `since` on, for which a test holds. -/
theorem find?_cycle {p : Nat → Bool} {since r cyc : Nat} (hr : since ≤ r) (hle : r ≤ cyc) (hp : p r = true)
    (hbefore : ∀ x, since ≤ x → x < r → p x = false) : ((List.range (cyc + 1 - since)).map (since + ·)).find? p = some r := by
  have hat : since + (r - since) = r := by omega
  have hfind : (List.range (cyc + 1 - since)).find? (p ∘ (since + ·)) = some (r - since) := by
    refine List.find?_range_eq_some.2 ⟨?_, List.mem_range.2 (by omega), fun j hj => ?_⟩
    · rwa [Function.comp_apply, hat]
    · rw [Function.comp_apply, hbefore (since + j) (by omega) (by omega)]
      rfl
  rw [List.find?_map, hfind, Option.map_some, hat]

/-- The state with the release of item `n` of a flight noted in cycle `r`, and with its engine for a MATMUL card. -/
def State.releaseNoted (s : State) (g e n r : Nat) (f : Flight) : State :=
  let s := s.setFlight g { f with begun := stampAt f.begun (releaseKey n (keyEng f.card e)) r }
  if cardOp f.card = 1 then s.setCore g ((s.core g).setEng e { (s.core g).eng e with relAt := r }) else s

section

variable (s : State) (g e n r : Nat) (f : Flight)

theorem State.releaseNoted_shape : s.releaseNoted g e n r f = { s with cores := (s.releaseNoted g e n r f).cores } := by
  unfold State.releaseNoted
  split <;> rfl

theorem State.core_releaseNoted_other {h : Nat} (hh : h ≠ g) : (s.releaseNoted g e n r f).core h = s.core h := by
  unfold State.releaseNoted
  split
  · exact (State.core_setCore_other _ _ _ _ hh).trans (s.core_setCore_other _ _ _ hh)
  · exact s.core_setCore_other _ _ _ hh

theorem State.fired_releaseNoted : ((s.releaseNoted g e n r f).core g).fired = (s.core g).fired := by
  unfold State.releaseNoted
  split
  · rw [State.core_setCore_same, State.core_setFlight]
    rfl
  · rw [State.core_setFlight]
    rfl

theorem State.engine_releaseNoted (hop : cardOp f.card = 1) : (((s.releaseNoted g e n r f).core g).eng e).relAt = r := by
  unfold State.releaseNoted
  rw [if_pos hop, State.core_setCore_same, CoreState.eng_setEng_same]

theorem State.engines_releaseNoted (hop : cardOp f.card ≠ 1) : ((s.releaseNoted g e n r f).core g).engines = (s.core g).engines := by
  unfold State.releaseNoted
  rw [if_neg hop, State.core_setFlight]
  rfl

end

/-- The slot that a firing is recorded for: the first whose copies are held for the kind. -/
def CoreState.releaseSlot (c : CoreState) (f : Flight) (n : Nat) (eng : Option Nat) (x kind : Nat) : Nat :=
  ((upto 4 (fun i => (slotUse f.card i).isSome)).find? (fun i => (c.heldKinds f n eng [i] x).contains kind)).getD 0

theorem CoreState.releaseSlot_lt (c : CoreState) (f : Flight) (n : Nat) (eng : Option Nat) (x kind : Nat) : c.releaseSlot f n eng x kind < 4 := by
  unfold CoreState.releaseSlot
  cases h : (upto 4 (fun i => (slotUse f.card i).isSome)).find? (fun i => (c.heldKinds f n eng [i] x).contains kind) with
  | none => decide
  | some i => exact List.mem_range.1 (List.mem_filter.1 (List.mem_of_find?_eq_some h)).1

/-! ## The command -/

section

variable {s y : State} {g pos t n since r cyc e : Nat} {f : Flight} {held : Nat → List Nat}

/-- An item held until cycle `r` is released then: the firing counts under the kind that released last. -/
theorem interlockRelease_of_held (hcyc : cyc = s.engCycle (g / 16) t) (hy : y = s.meshTo (g / 16) cyc) (hrun : y.dieRuns (g / 16) t = true)
    (hf : (y.core g).flightAt pos = some f) (hnext : (y.core g).nextItem f e = some (n, since))
    (hnew : Tab.get (fun _ => none) f.begun (releaseKey n (keyEng f.card e)) = none)
    (hheld : ∀ x, held x = (y.core g).heldKinds f n (if cardOp f.card = 1 then some e else none) (upto 4 (fun i => (slotUse f.card i).isSome)) x)
    (hsince : since < r) (hle : r ≤ cyc) (hfree : held r = []) (hbefore : ∀ x, since ≤ x → x < r → held x ≠ []) :
    interlockRelease g pos e t s = (y.releaseNoted g e n r f).firing g r (minKind (held (r - 1)))
      ((y.core g).releaseSlot f n (if cardOp f.card = 1 then some e else none) (r - 1) (minKind (held (r - 1)))) (r - since) pos := by
  have hfind : ((List.range (cyc + 1 - since)).map (since + ·)).find? (fun x => ((y.core g).heldKinds f n (if cardOp f.card = 1 then some e else none)
      (upto 4 (fun i => (slotUse f.card i).isSome)) x).isEmpty) = some r := by
    refine find?_cycle hsince.le hle ?_ fun x hx hxr => ?_
    · rw [← hheld, hfree]
      rfl
    · rw [← hheld, List.isEmpty_eq_false_iff]
      exact hbefore x hx hxr
  have hgoes : ¬(!y.dieRuns (g / 16) t || (Tab.get (fun _ => none) f.begun (releaseKey n (keyEng f.card e))).isSome || decide (r ≤ since)) = true := by
    rw [hrun, hnew, decide_eq_false (by omega)]
    decide
  unfold interlockRelease
  dsimp only
  rw [← hcyc, ← hy, hf]
  dsimp only
  rw [hnext]
  dsimp only
  rw [hfind]
  dsimp only
  rw [if_neg hgoes, ← hheld]
  rfl

/-- INTERLOCK_RELEASE counts and records the firing that ends, and changes nothing but its core and its registers. -/
theorem heldItem_released {d : Fin 8} {c : Fin 16} {e : Fin 64} {l : List Nat} (hg : g = 16 * d.val + c.val) (hcyc : cyc = s.engCycle d t)
    (hy : y = s.meshTo d cyc) (hrun : y.dieRuns d t = true) (hf : (y.core g).flightAt pos = some f)
    (hnext : (y.core g).nextItem f e = some (n, since)) (hnew : Tab.get (fun _ => none) f.begun (releaseKey n (keyEng f.card e)) = none)
    (hheld : ∀ x, held x = (y.core g).heldKinds f n (if cardOp f.card = 1 then some e.val else none) (upto 4 (fun i => (slotUse f.card i).isSome)) x)
    (hsince : since < r) (hle : r ≤ cyc) (hfree : held r = []) (hbefore : ∀ x, since ≤ x → x < r → held x ≠ []) (hl : l = held (r - 1))
    (halone : (y.core g).fired.1 ≠ r) :
    ∃ u slot, exec (.interlockRelease d c pos e t) s = .next u ∧ slot < 4
      ∧ u.r64 (Reg.coreIlkLast d c) = 2 ^ 63 + minKind l * 2 ^ 60 + slot * 2 ^ 58 + min (r - since) 0xFFFFFF * 2 ^ 24 + pos % 2 ^ 24
      ∧ (bitAt (y.r64 (Reg.coreIlkFirst d c)) 63 = false → u.r64 (Reg.coreIlkFirst d c) = u.r64 (Reg.coreIlkLast d c))
      ∧ (bitAt (y.r64 (Reg.coreIlkFirst d c)) 63 = true → u.r64 (Reg.coreIlkFirst d c) = y.r64 (Reg.coreIlkFirst d c))
      ∧ u.r64 (Reg.coreIlkCycles d c) = min (y.r64 (Reg.coreIlkCycles d c) + (r - since)) (2 ^ 64 - 1)
      ∧ (minKind l = 6 → u.f64 (Reg.coreIlkCount1 d c) 32 32 = min (y.f64 (Reg.coreIlkCount1 d c) 32 32 + 1) (2 ^ 32 - 1))
      ∧ (minKind l < 5 → u.f64 (Reg.coreIlkCount0 d c) 0 32 = min (y.f64 (Reg.coreIlkCount0 d c) 0 32 + 1) (2 ^ 32 - 1))
      ∧ (cardOp f.card = 1 → ((u.core g).eng e).relAt = r) ∧ (cardOp f.card ≠ 1 → (u.core g).engines = (y.core g).engines)
      ∧ (∀ h, h ≠ g → u.core h = y.core h) ∧ u = { y with cores := u.cores, regs := u.regs } ∧ y.SameRegsBut u (issueRegs g) := by
  have hd : g / 16 = d.val := by omega
  have hc : g % 16 = c.val := by omega
  have hkinds : RangeKind (minKind l) := by
    refine rangeKind_minKind (hl ▸ hbefore (r - 1) (by omega) (by omega)) fun k hk => ?_
    rw [hl, hheld] at hk
    exact CoreState.rangeKind_of_heldKinds hk
  have hrel := interlockRelease_of_held (s := s) (y := y) (g := g) (pos := pos) (t := t) (by rwa [hd]) (by rwa [hd]) (by rwa [hd]) hf hnext hnew hheld
    hsince hle hfree hbefore
  rw [← hl] at hrel
  have hslot := (y.core g).releaseSlot_lt f n (if cardOp f.card = 1 then some e.val else none) (r - 1) (minKind l)
  have hnoted : (y.releaseNoted g e n r f) = { y with cores := (y.releaseNoted g e n r f).cores } := y.releaseNoted_shape g e n r f
  have hregs : ∀ a, (y.releaseNoted g e n r f).r64 a = y.r64 a := fun a => by rw [hnoted]; rfl
  have hfields : ∀ a lo w, (y.releaseNoted g e n r f).f64 a lo w = y.f64 a lo w := fun a lo w => by rw [hnoted]; rfl
  obtain ⟨⟨hshape, hsame⟩, hother, hcore⟩ := State.firingsOnly_firing (y.releaseNoted g e n r f) g r (minKind l)
    ((y.core g).releaseSlot f n (if cardOp f.card = 1 then some e.val else none) (r - 1) (minKind l)) (r - since) pos
  have hwritten := State.firing_registers (s := y.releaseNoted g e n r f) (g := g) (cyc := r) (delay := r - since) (pos := pos) (by omega)
    (by rwa [State.fired_releaseNoted]) hkinds hslot
  simp only [hregs, hfields, hd, hc] at hwritten
  obtain ⟨hlast, hfirst, hfirst', hcycles, hcount1, hcount0⟩ := hwritten
  refine ⟨_, _, ?_, hslot, hlast, hfirst, hfirst', hcycles, hcount1, hcount0, fun hop => ?_, fun hop => ?_, fun h hh => ?_, ?_, ?_⟩
  · rw [← hrel, hg]
    rfl
  · rw [hcore]
    exact y.engine_releaseNoted g e n r f hop
  · rw [hcore]
    exact y.engines_releaseNoted g e n r f hop
  · rw [hother h hh, y.core_releaseNoted_other g e n r f hh]
  · rw [hshape, hnoted]
  · have hstart : y.SameRegsBut (y.releaseNoted g e n r f) (ilkRegs g) := .of_regs (by rw [hnoted])
    exact (hstart.trans hsame).mono fun a ha => issueRegs_of_words (.inl ha)

end

/-! ## The obligation -/

/-- Settles O37: what comes before a command touches of the dies their meshes alone, so the engine cycle stands; an item's start, a line's
read, a line's landing, an item's end and a release each change what their own lemma says. -/
theorem moverItemsStartAndComplete : Obligations.MoverItemsStartAndComplete := by
  unfold Obligations.MoverItemsStartAndComplete
  refine ⟨?_, ?_, ?_, ?_, ?_⟩
  · intro s y d c g pos t cyc f up hg hcyc hy hrun hf hflight hop hspread hremote hleft hissue hheld hturn
    refine ⟨fun hhere hsome hread hwrite => ?_, fun k hthere htag => ?_⟩
    · exact moveItem_starts_here hg hcyc hy hrun hf hflight hop hspread hremote hleft hissue hheld hturn hhere hsome hread hwrite
    · exact moveItem_starts_far hg hcyc hy hrun hf hflight hop hspread hremote hleft hissue hheld hturn k hthere htag
  · intro s d g cyc i left f r p bytes hf hg hop hsrc hleft hbytes
    subst hg hbytes
    obtain ⟨hheld, hother, hsame, hhops, hlands⟩ := moveLine_read d cyc i hf hop hsrc
    refine ⟨_, hheld, f.held_lineHeld _ _ _ _ _, ?_, fun h1 => ?_, hother, hsame, hhops, hlands⟩
    · rw [hleft]
      exact f.unread_lineHeld _ _ _ _ _
    · exact f.read_lineHeld _ _ _ _ _ (hleft ▸ h1)
  · intro s x f addrs cyc rank hf hlen hapart hmay
    exact ⟨s.map_rdByte_writeLanding f rank hlen hapart hmay, fun a ha => s.rdByte_writeLanding_other f rank ha,
      fun hbad a ha => s.poisoned_writeLanding f rank hbad ha (hmay a ha), _, s.flight_writeLanding f rank hf, Flight.unplaced_placed,
      Flight.released_placed⟩
  · intro s y d c g pos t cyc f z hg hcyc hy hrun hf hflight hz h3 h5 hopen hended hquiet
    exact moverItem_completes hg hcyc hy hrun hf hflight hz h3 h5 hopen hended hquiet
  · intro s y d c g pos n since r t cyc e f l held hg hcyc hy hrun hf hnext hnew hheld hsince hle hfree hbefore hl halone
    exact heldItem_released hg hcyc hy hrun hf hnext hnew hheld hsince hle hfree hbefore hl halone

end Sys2Proof.Machine

end

/-! Cards that complete in their issue cycle (07_layer_cards.md R193, R198; 10_determinism.md R277, R281). -/

section

open Sys2Proof

namespace Sys2Proof.Machine

/-! ## The digest capture -/

/-- The register words of a core's digest capture (R281). -/
def capRegs (g a : Nat) : Bool :=
  let b := Reg.coreStream (g / 16) (g % 16)
  (decide (b + 0x58 ≤ a) && decide (a < b + 0x60)) || (decide (b + 0x100 ≤ a) && decide (a < b + 0x500))

theorem capRegs_iff {g a : Nat} : capRegs g a = true ↔
    (Reg.coreStream (g / 16) (g % 16) + 0x58 ≤ a ∧ a < Reg.coreStream (g / 16) (g % 16) + 0x60)
      ∨ (Reg.coreStream (g / 16) (g % 16) + 0x100 ≤ a ∧ a < Reg.coreStream (g / 16) (g % 16) + 0x500) := by
  simp [capRegs]

/-- The words of a core's position, count and firings are none of its capture's. -/
theorem capRegs_false {g a : Nat} (h : a < Reg.coreStream (g / 16) (g % 16) + 0x58 ∨ Reg.coreStream (g / 16) (g % 16) + 0x500 ≤ a) :
    capRegs g a = false := by
  rw [← Bool.not_eq_true, capRegs_iff]
  omega

theorem issueRegs_of_cap {g a : Nat} (h : capRegs g a = true) : issueRegs g a = true := by
  rw [capRegs_iff] at h
  simp only [issueRegs, Bool.or_eq_true, Bool.and_eq_true, decide_eq_true_eq]
  omega

theorem capRegs_ctl {g a : Nat} (h : pairOf (Reg.coreDigestCapCtl (g / 16) (g % 16)) a = true) : capRegs g a = true := by
  simp only [pairOf, Bool.or_eq_true, beq_iff_eq] at h
  rw [capRegs_iff]
  unfold Reg.coreDigestCapCtl at h
  unfold Reg.coreStream
  omega

theorem State.capturedOnly_captureDigest (s : State) (g : Nat) (f : Flight) : s.WordsOnly (s.captureDigest g f) (capRegs g) := by
  unfold State.captureDigest
  extract_lets d c ctl v i cap w
  split_ifs with hout hfull
  · exact .refl s _
  all_goals
    have hi : i < 64 := by
      simp only [Bool.or_eq_true, decide_eq_true_eq, not_or] at hout
      omega
    have hcap : ∀ a, Reg.coreDigestCap d c i ≤ a → a ≤ Reg.coreDigestCap d c i + 8 → capRegs g a = true := fun a ha ha' => by
      rw [capRegs_iff]
      unfold Reg.coreDigestCap at ha ha'
      simp only [d, c] at ha ha'
      unfold Reg.coreStream
      omega
    have hw : s.WordsOnly w (capRegs g) :=
      ((s.wordsOnly_w64 _ (hcap _ (by omega) (by omega)) (hcap _ (by omega) (by omega))).trans
        (State.wordsOnly_w32 _ _ (hcap _ (by omega) (by omega)))).trans ((State.wordsOnly_sf64 _ _ _ _ _).mono fun _ => capRegs_ctl)
  · exact hw.trans ((State.wordsOnly_sf64 _ _ _ _ _).mono fun _ => capRegs_ctl)
  · exact hw

/-! ## Completion in the issue cycle -/

/-- A core whose card `f` is locally and fully complete in cycle `cyc`. -/
def CoreState.completedNow (c : CoreState) (f : Flight) (cyc : Nat) : CoreState :=
  if cardOp f.card = 6 then c.setFlight (f.fullDone cyc)
  else { c.setFlight (f.fullDone cyc) with unfolded := c.unfolded ++ [(f.pos, f.digest)] }

section

variable {c : CoreState} {f : Flight} {cyc : Nat}

theorem CoreState.setFlight_setFlight {f' : Flight} (h : f'.seq = f.seq) : (c.setFlight f).setFlight f' = c.setFlight f' := by
  unfold CoreState.setFlight
  simp only [List.map_map]
  congr 1
  refine List.map_congr_left fun x _ => ?_
  by_cases hx : x.seq = f.seq <;> simp [hx, h]

theorem CoreState.fullyDone_localDone :
    (c.setFlight (f.localDone cyc)).fullyDone (f.localDone cyc) cyc = c.completedNow f cyc := by
  unfold CoreState.fullyDone CoreState.completedNow
  rw [CoreState.setFlight_setFlight (f := f.localDone cyc) (f' := { f.localDone cyc with fullAt := some cyc }) rfl]
  rfl

theorem CoreState.completedNow_shape : c.completedNow f cyc
    = { c with flights := (c.setFlight (f.fullDone cyc)).flights, unfolded := (c.completedNow f cyc).unfolded } := by
  unfold CoreState.completedNow
  split_ifs <;> rfl

theorem CoreState.unfolded_completedNow (h : cardOp f.card ≠ 6) : (c.completedNow f cyc).unfolded = c.unfolded ++ [(f.pos, f.digest)] := by
  unfold CoreState.completedNow
  rw [if_neg h]

theorem CoreState.unfolded_completedNow_digest (h : cardOp f.card = 6) : (c.completedNow f cyc).unfolded = c.unfolded := by
  unfold CoreState.completedNow
  rw [if_pos h]
  rfl

theorem CoreState.mem_completedNow (h : f ∈ c.flights) : f.fullDone cyc ∈ (c.completedNow f cyc).flights := by
  rw [CoreState.completedNow_shape]
  exact List.mem_map.2 ⟨f, h, if_pos rfl⟩

end

/-- What a state changes that completes card `f` of core `g` in its issue cycle. -/
structure State.CompletesNow (s u : State) (g : Nat) (f : Flight) (cyc : Nat) : Prop where
  shape : u = { s with cores := u.cores, regs := u.regs }
  regs : s.SameRegsBut u (capRegs g)
  core : u.core g = (s.core g).completedNow f cyc
  other : ∀ h, h ≠ g → u.core h = s.core h

/-- A card without COMPLETE and ACKED signals and without reports to come. -/
theorem State.completesNow_of_quiet {s : State} {g t : Nat} {f : Flight} (hf : (s.core g).flight f.seq = some f) (hrep : f.reported = true)
    (hquiet : quietCard f.card 1) (hquiet3 : quietCard f.card 3) :
    s.CompletesNow (s.completeNow g f.seq t) g f (s.engCycle (g / 16) t) := by
  obtain ⟨honly, hcore, hother⟩ := State.locallyComplete_reported (cyc := s.engCycle (g / 16) t) (t := t) hf hquiet hquiet3 hrep
  refine ⟨honly.1, ?_, hcore.trans CoreState.fullyDone_localDone, hother⟩
  have hlocal : ((s.setFlight g (f.localDone (s.engCycle (g / 16) t))).core g).flight f.seq = some (f.localDone (s.engCycle (g / 16) t)) := by
    rw [State.core_setFlight]
    exact CoreState.flight_setFlight_same (f' := f.localDone (s.engCycle (g / 16) t)) hf
  have hcapture : ∀ (v : State) (x : Flight), v.regs = s.regs → s.SameRegsBut (v.captureDigest g x) (capRegs g) := fun v x hv =>
    State.SameRegsBut.trans (.of_regs hv) (v.capturedOnly_captureDigest g x).2
  unfold State.completeNow State.locallyComplete
  rw [hf]
  simp only [State.giveSignals_of_quiet _ g t hquiet, hrep, if_true]
  unfold State.fullyComplete
  rw [hlocal]
  simp only [State.giveSignals_of_quiet _ g t hquiet3]
  split_ifs
  · exact hcapture _ _ rfl
  · exact hcapture _ _ rfl

/-! ## The issue of a card that completes at once -/

theorem keepFlights_sublist (cyc : Nat) (l : List Flight) : (keepFlights cyc l).Sublist l := List.dropWhile_sublist _

/-- A core that issues its next card keeps its cards numbered. -/
theorem CoreState.numbered_issuing {c : CoreState} {f : Flight} (h : c.Numbered) (hf : f.seq = c.seq) (asks : List (Nat × Nat)) (card cyc : Nat) :
    (c.issuing f asks card cyc).Numbered := by
  obtain ⟨hrise, hbelow⟩ := h
  have hkept : ∀ x, x ∈ keepFlights cyc c.flights → x.seq < c.seq := fun x hx => hbelow x ((keepFlights_sublist cyc c.flights).subset hx)
  unfold CoreState.issuing
  rw [CoreState.place_shape]
  refine ⟨List.pairwise_append.2 ⟨hrise.sublist (keepFlights_sublist _ _), List.pairwise_singleton _ _, fun x hx y hy => ?_⟩, fun x hx => ?_⟩
  · rw [List.mem_singleton.1 hy, hf]
    exact hkept x hx
  · obtain hx | hx := List.mem_append.1 hx
    · exact Nat.lt_succ_of_lt (hkept x hx)
    · rw [List.mem_singleton.1 hx, hf]
      exact Nat.lt_succ_self _

section

variable {s u : State} {g card t : Nat}

theorem State.Numbered_unheld (h : (s.core g).Numbered) : ((s.unheld g t).core g).Numbered := by
  rw [State.core_unheld]
  exact h

/-- The flight of the card that has just issued is found by its number. -/
theorem State.flight_coreIssued (h : (s.core g).Numbered) :
    (s.coreIssued g card t).flight (s.flightIssued g card t).seq = some (s.flightIssued g card t) :=
  CoreState.flight_of_mem (CoreState.numbered_issuing (State.Numbered_unheld h) rfl _ _ _) (CoreState.issuing_taken _ _ _ _ _).2.2.2

theorem State.resolveTargets_other (n : Nat) (h : cardOp card ≠ 4) : s.resolveTargets n card = card := if_neg h

/-- What is changed of core `g` beside its queue, its position and its count leaves its card issued. -/
theorem State.Issued.beside {x : State} (h : s.Issued x g card t) (hseq : (u.core g).seq = (x.core g).seq) (hqueue : (u.core g).queue = (x.core g).queue)
    (hlast : (u.core g).lastIssue = (x.core g).lastIssue)
    (hflight : ∀ f, f ∈ (x.core g).flights → ∃ f', f' ∈ (u.core g).flights ∧ f'.seq = f.seq ∧ f'.pos = f.pos ∧ f'.issue = f.issue ∧ f'.card = f.card)
    (hother : ∀ k, k ≠ g → u.core k = x.core k) (hbytes : x.SameBytes u) (hpos : u.seqPos g = x.seqPos g)
    (hcount : u.r64 (Reg.coreSeqCount (g / 16) (g % 16)) = x.r64 (Reg.coreSeqCount (g / 16) (g % 16))) (hregs : x.SameRegsBut u (issueRegs g)) :
    s.Issued u g card t := by
  obtain ⟨iseq, iqueue, ilast, ⟨f, hf, fseq, fpos, fissue, fcard⟩, ipos, icount, iother, ibytes, iregs⟩ := h
  obtain ⟨f', hf', sseq, spos, sissue, scard⟩ := hflight f hf
  exact ⟨hseq.trans iseq, hqueue.trans iqueue, hlast.trans ilast,
    ⟨f', hf', sseq.trans fseq, spos.trans fpos, sissue.trans fissue, scard.trans fcard⟩, hpos.trans ipos, hcount.trans icount,
    fun k hk => (hother k hk).trans (iother k hk), ibytes.trans hbytes, iregs.trans hregs⟩

/-- Registers but those of the capture hold the stream's state. -/
theorem State.seqWords_of_cap (h : s.SameRegsBut u (capRegs g)) :
    u.r32 (Reg.coreSeqStatus (g / 16) (g % 16)) = s.r32 (Reg.coreSeqStatus (g / 16) (g % 16))
      ∧ u.r64 (Reg.coreSeqCount (g / 16) (g % 16)) = s.r64 (Reg.coreSeqCount (g / 16) (g % 16)) := by
  refine ⟨h _ (capRegs_false ?_), State.r64_of_sameRegs h (capRegs_false ?_) (capRegs_false ?_)⟩
  · rw [Reg.coreSeqStatus_eq]; omega
  · rw [Reg.coreSeqCount_eq]; omega
  · rw [Reg.coreSeqCount_eq]; omega

/-- A card that completes in the cycle of its issue has issued. -/
theorem State.Issued.completes {x : State} {f : Flight} {cyc : Nat} (h : s.Issued x g card t) (hdone : x.CompletesNow u g f cyc)
    (hf : (x.core g).flight f.seq = some f) (hnum : (x.core g).Numbered) : s.Issued u g card t := by
  obtain ⟨hstatus, hcount⟩ := State.seqWords_of_cap hdone.regs
  have hcore := hdone.core
  rw [CoreState.completedNow_shape] at hcore
  refine h.beside (by rw [hcore]) (by rw [hcore]) (by rw [hcore]) (fun y hy => ?_) hdone.other ?_ ?_ hcount (hdone.regs.mono fun _ => issueRegs_of_cap)
  · by_cases hseq : y.seq = f.seq
    · have hyf : y = f := Option.some.inj ((CoreState.flight_of_mem hnum hy).symm.trans (hseq ▸ hf))
      rw [hcore, hyf]
      exact ⟨f.fullDone cyc, List.mem_map.2 ⟨f, CoreState.mem_of_flight hf, if_pos rfl⟩, rfl, rfl, rfl, rfl⟩
    · rw [hcore]
      exact ⟨y, List.mem_map.2 ⟨y, hy, if_neg hseq⟩, rfl, rfl, rfl, rfl⟩
  · rw [hdone.shape]
    exact .of_mem rfl rfl
  · unfold State.seqPos State.f32
    rw [hstatus]

end

end Sys2Proof.Machine
end

/-! NOP, DIGEST and HOUR_MARK cards (07_layer_cards.md R207 to R210). -/

section

open Sys2Proof

namespace Sys2Proof.Machine

section

variable {s : State} {g card t : Nat}

/-! ## A card that issues and completes -/

/-- A core that issues a card keeps its step, its digests and its wait for the Hour. -/
theorem State.coreIssued_keeps (s : State) (g card t : Nat) :
    (s.coreIssued g card t).step = (s.core g).step ∧ (s.coreIssued g card t).markPos = (s.core g).markPos
      ∧ (s.coreIssued g card t).unfolded = (s.core g).unfolded ∧ (s.coreIssued g card t).layers = (s.core g).layers
      ∧ (s.coreIssued g card t).closed = (s.core g).closed ∧ (s.coreIssued g card t).alignHour = (s.core g).alignHour := by
  unfold State.coreIssued CoreState.issuing
  rw [CoreState.place_shape, State.core_unheld]
  exact ⟨rfl, rfl, rfl, rfl, rfl, rfl⟩

/-- A card that has just issued has written nothing yet. -/
theorem State.digest_flightIssued (hg : g < 128) (h : cardOp card ≠ 4) :
    (s.flightIssued g card t).digest
      = crc64 (leBytes 3 (s.seqPos g) ++ leBytes 1 (cardOp card) ++ leBytes 4 (cardIters card - 1)) := by
  have hcard : (s.flightIssued g card t).card = card := (s.card_flightIssued g card t hg).trans (State.resolveTargets_other _ h)
  have hpos : (s.flightIssued g card t).pos = s.seqPos g := rfl
  have hwrote : (s.flightIssued g card t).wrote = [] := rfl
  unfold Flight.digest
  rw [hcard, hpos, hwrote, List.map_nil, List.flatten_nil, List.append_nil]

theorem State.engCycle_of_dies {u : State} (h : u.dies = s.dies) (d : Nat) : u.engCycle d t = s.engCycle d t := by
  unfold State.engCycle State.die
  rw [h]

/-- What the issue of a ready card leaves for its completion: `x` is the state in which the card has issued. -/
structure State.JustIssued (s x : State) (g card t : Nat) : Prop where
  issued : s.Issued x g card t
  shape : x = { s with cores := x.cores, regs := x.regs }
  core : x.core g = s.coreIssued g card t
  state : x.seqState g = afterCard card
  flight : (x.core g).flight (s.core g).seq = some (s.flightIssued g card t)
  numbered : (x.core g).Numbered

theorem State.justIssued (hstate : s.seqState g = 1) (hnum : (s.core g).Numbered) (hquiet : quietCard card 0) (hg : g < 128) :
    s.JustIssued (s.issued g (s.seqPos g) card t) g card t := by
  have hcore := State.core_issued (s := s) (g := g) t hquiet
  refine ⟨State.issued_takes t hquiet hg, (State.coresOnly_issued t hquiet).1, hcore,
    State.seqState_issued t hquiet hstate, ?_, ?_⟩
  · rw [hcore, ← s.seq_flightIssued g card t]
    exact State.flight_coreIssued hnum
  · rw [hcore]
    exact CoreState.numbered_issuing (State.Numbered_unheld hnum) rfl _ _ _

/-- The card of that number completes in the cycle of its issue. -/
theorem State.completesNow_of_flight (hg : g < 128) (hop : cardOp card ≠ 4)
    (hquiet : quietCard card 1) (hquiet3 : quietCard card 3) {y : State} {f : Flight} (hdies : y.dies = s.dies)
    (hf : (y.core g).flight (s.core g).seq = some f) (hcard : f.card = (s.flightIssued g card t).card) (hwaits : f.awaited = []) :
    y.CompletesNow (y.completeNow g (s.core g).seq t) g f (s.engCycle (g / 16) t) := by
  have hseq : f.seq = (s.core g).seq := CoreState.seq_of_flight hf
  have hplain : f.card = card := hcard.trans ((s.card_flightIssued g card t hg).trans (State.resolveTargets_other _ hop))
  rw [← State.engCycle_of_dies hdies (g / 16), ← hseq]
  refine State.completesNow_of_quiet (hseq ▸ hf) ?_ (hplain ▸ hquiet) (hplain ▸ hquiet3)
  unfold Flight.reported
  rw [hwaits]
  rfl

/-- The card that has issued is in flight, complete, in the state that completes it. -/
theorem State.CompletesNow.shows {y u : State} {f : Flight} {cyc q : Nat} (h : y.CompletesNow u g f cyc) (hf : (y.core g).flight q = some f) :
    f.fullDone cyc ∈ (u.core g).flights := by
  rw [h.core]
  exact CoreState.mem_completedNow (CoreState.mem_of_flight hf)

/-- A card that has just issued completes at once. -/
theorem State.JustIssued.completes {x : State} (hj : s.JustIssued x g card t) (hg : g < 128) (hop : cardOp card ≠ 4)
    (hquiet : quietCard card 1) (hquiet3 : quietCard card 3) :
    x.CompletesNow (x.completeNow g (s.core g).seq t) g (s.flightIssued g card t) (s.engCycle (g / 16) t)
      ∧ s.Issued (x.completeNow g (s.core g).seq t) g card t := by
  have hdone := State.completesNow_of_flight hg hop hquiet hquiet3 (by rw [hj.shape]) hj.flight rfl rfl
  refine ⟨hdone, hj.issued.completes hdone ?_ hj.numbered⟩
  rw [s.seq_flightIssued g card t]
  exact hj.flight

theorem issueRegs_of_grants (hg : g < 128) {a : Nat} (h : grantRegs a) : issueRegs g a = false := by
  rw [← Bool.not_eq_true]
  simp only [issueRegs, Bool.or_eq_true, Bool.and_eq_true, decide_eq_true_eq]
  unfold Reg.coreStream Reg.dieBase
  obtain ⟨d, hd, h1, h2⟩ | ⟨h1, h2⟩ := h
  · unfold Reg.dieBase at h1 h2
    omega
  · unfold Reg.topPartMember at h1 h2
    omega

theorem State.Issued.gen {x : State} (h : s.Issued x g card t) (hg : g < 128) : x.gen (x.ownerN g) = s.gen (s.ownerN g) := by
  obtain ⟨-, -, -, -, -, -, -, -, hregs⟩ := h
  have hle := s.ownerN_le g
  rw [State.ownerN_of_grants hregs fun _ => issueRegs_of_grants hg]
  unfold State.gen State.f32
  rw [hregs _ (issueRegs_of_grants hg (.inr ?_))]
  unfold Reg.topPartJob Reg.topPartMember
  omega

theorem State.seqState_of_cap {y u : State} (h : y.SameRegsBut u (capRegs g)) : u.seqState g = y.seqState g := by
  unfold State.seqState State.f32
  rw [(State.seqWords_of_cap h).1]

/-! ## NOP -/

/-- NOP issues and completes, and its digest joins those not yet folded. -/
theorem issueNop_of_ready (hready : s.Ready g card t) (hwaits : s.WaitsHold card t) (hquiet : quietCard card 0) (hop : cardOp card = 0) :
    issueNop g t s = (s.issued g (s.seqPos g) card t).completeNow g (s.core g).seq t := by
  unfold issueNop
  rw [← hop, State.tryIssue_of_ready hready hwaits hquiet]

/-! ## DIGEST -/

theorem insertPos_last {x : Nat × Nat} {l : List (Nat × Nat)} (h : ∀ y, y ∈ l → y.1 < x.1) : insertPos x l = l ++ [x] := by
  induction l with
  | nil => rfl
  | cons y l ih =>
    have hy := h y List.mem_cons_self
    unfold insertPos
    rw [if_neg (by omega), ih fun z hz => h z (List.mem_cons_of_mem _ hz)]
    rfl

/-- Digests that came in stream order stand in it already. -/
theorem foldl_insertPos {l acc : List (Nat × Nat)} (h : (acc ++ l).Pairwise (fun x y => x.1 < y.1)) :
    l.foldl (fun l x => insertPos x l) acc = acc ++ l := by
  induction l generalizing acc with
  | nil => simp
  | cons x l ih =>
    have hlast : ∀ y, y ∈ acc → y.1 < x.1 := fun y hy => (List.pairwise_append.1 h).2.2 y hy x List.mem_cons_self
    rw [List.foldl_cons, insertPos_last hlast, ih (by simpa using h)]
    simp

/-- The digest that a DIGEST card gives its layer. -/
def CoreState.foldedValue (c : CoreState) (card : Nat) : Nat :=
  crc64 (leBytes 8 ((c.layers.find? (fun x => x.1 == bodyF card 0 16)).elim 0 (·.2)) ++ (c.unfolded.map (fun x => leBytes 8 x.2)).flatten)

/-- A core whose DIGEST card has folded its digests. -/
theorem CoreState.foldDigest_eq {c : CoreState} {pos card gen : Nat} (hrise : c.unfolded.Pairwise (fun x y => x.1 < y.1))
    (hbelow : ∀ x, x ∈ c.unfolded → x.1 < pos) :
    c.foldDigest pos card gen =
      if bodyF card 16 1 = 1 then { c with
        unfolded := [], layers := c.layers.filter (fun x => x.1 != bodyF card 0 16)
        closed := c.closed ++ [⟨bodyF card 0 16, c.step, gen, c.foldedValue card⟩] }
      else { c with unfolded := [], layers := c.layers.filter (fun x => x.1 != bodyF card 0 16) ++ [(bodyF card 0 16, c.foldedValue card)] } := by
  have hall : c.unfolded.filter (fun x => decide (x.1 < pos)) = c.unfolded := List.filter_eq_self.2 fun x hx => decide_eq_true (hbelow x hx)
  unfold CoreState.foldDigest CoreState.foldedValue
  simp only [hall, foldl_insertPos (acc := []) (l := c.unfolded) hrise, List.nil_append]
  cases c.layers.find? (fun x => x.1 == bodyF card 0 16) with
  | none => rfl
  | some x => rfl

theorem CoreState.foldDigest_shape (c : CoreState) (pos card gen : Nat) : c.foldDigest pos card gen = { c with
    unfolded := (c.foldDigest pos card gen).unfolded, layers := (c.foldDigest pos card gen).layers, closed := (c.foldDigest pos card gen).closed } := by
  unfold CoreState.foldDigest
  extract_lets layer acc ds folded rest
  split_ifs
  · rfl
  · rfl

theorem find_filter_ne (l : List (Nat × Nat)) (k : Nat) : (l.filter (fun x => x.1 != k)).find? (fun x => x.1 == k) = none := by
  rw [List.find?_eq_none]
  intro x hx
  have := (List.mem_filter.1 hx).2
  simpa using this

theorem issueDigest_of_ready (hready : s.Ready g card t) (hwaits : s.WaitsHold card t) (hquiet : quietCard card 0) (hop : cardOp card = 6) :
    issueDigest g t s = ((s.issued g (s.seqPos g) card t).setCore g (((s.issued g (s.seqPos g) card t).core g).foldDigest (s.seqPos g) card
      ((s.issued g (s.seqPos g) card t).gen ((s.issued g (s.seqPos g) card t).ownerN g)))).completeNow g (s.core g).seq t := by
  unfold issueDigest
  rw [← hop, State.tryIssue_of_ready hready hwaits hquiet]

/-! ## HOUR_MARK -/

/-- A core whose HOUR_MARK card, in flight as `f`, has opened its step at `pos` (R208). -/
def CoreState.stepOpened (c : CoreState) (f : Flight) (pos card : Nat) : CoreState :=
  CoreState.setFlight { c with step := bodyF card 0 32, markPos := pos } { f with step := bodyF card 0 32 }

/-- The state in which core `g`'s capture has ended where it is armed for a step before `step` (R281). -/
def State.captureEnded (s : State) (g step : Nat) : State :=
  let ctl := Reg.coreDigestCapCtl (g / 16) (g % 16)
  if bitAt (s.r64 ctl) 63 && decide (s.f64 ctl 24 32 < step) then s.sf64 ctl 63 1 0 else s

theorem State.capturedOnly_captureEnded (s : State) (g step : Nat) : s.WordsOnly (s.captureEnded g step) (capRegs g) := by
  unfold State.captureEnded
  dsimp only
  split_ifs
  · exact (s.wordsOnly_sf64 _ _ _ _).mono fun _ => capRegs_ctl
  · exact .refl s _

/-- The state in which core `g`'s HOUR_MARK card has opened its step (R208). -/
def State.stepOpened (s : State) (g : Nat) (f : Flight) (pos card : Nat) : State :=
  ((s.setCore g { s.core g with step := bodyF card 0 32, markPos := pos }).captureEnded g (bodyF card 0 32)).setFlight g
    { f with step := bodyF card 0 32 }

/-- The state in which a stream waits behind an aligned HOUR_MARK for the next Hour's start (R209). -/
def State.aligned (s : State) (g t : Nat) : State :=
  (s.setCore g { s.core g with alignHour := some (ceilDiv (s.schedCount (g / 16) t) s.hourLen) }).setSeqState g 2

/-- Nothing of a state differs in which a step has been opened but the core and its capture. -/
theorem State.stepOpened_effect (x : State) (g : Nat) (f : Flight) (pos card : Nat) :
    x.stepOpened g f pos card = { x with cores := (x.stepOpened g f pos card).cores, regs := (x.stepOpened g f pos card).regs }
      ∧ x.SameRegsBut (x.stepOpened g f pos card) (capRegs g) ∧ (x.stepOpened g f pos card).core g = (x.core g).stepOpened f pos card
      ∧ ∀ h, h ≠ g → (x.stepOpened g f pos card).core h = x.core h := by
  unfold State.stepOpened
  generalize hy : x.setCore g { x.core g with step := bodyF card 0 32, markPos := pos } = y
  have hz := y.capturedOnly_captureEnded g (bodyF card 0 32)
  generalize y.captureEnded g (bodyF card 0 32) = z at hz
  have hcore := hz.core
  obtain ⟨hshape, hregs⟩ := hz
  have hother : ∀ h, h ≠ g → z.core h = x.core h := fun h hh => (hcore h).trans (hy ▸ x.core_setCore_other g h _ hh)
  refine ⟨?_, State.SameRegsBut.trans (.of_regs (by rw [← hy]; rfl)) hregs, ?_, fun h hh => (z.core_setCore_other g h _ hh).trans (hother h hh)⟩
  · unfold State.setFlight State.setCore
    rw [hshape, ← hy]
    rfl
  · rw [State.core_setFlight, hcore, ← hy, State.core_setCore_same]
    rfl

theorem issueHourMark_of_ready (hready : s.Ready g card t) (hwaits : s.WaitsHold card t) (hquiet : quietCard card 0) (hop : cardOp card = 7)
    {f : Flight} (hf : ((s.issued g (s.seqPos g) card t).core g).flight (s.core g).seq = some f) {z : State}
    (hz : ((s.issued g (s.seqPos g) card t).stepOpened g f (s.seqPos g) card).completeNow g (s.core g).seq t = z) :
    issueHourMark g t s = if bodyF card 32 1 = 1 ∧ z.seqState g = 1 then z.aligned g t else z := by
  subst hz
  have hkeep : ∀ v : State, v.cores = ((s.issued g (s.seqPos g) card t).setCore g { (s.issued g (s.seqPos g) card t).core g with
      step := bodyF card 0 32, markPos := s.seqPos g }).cores → (v.core g).flight (s.core g).seq = some f := fun v hv => by
    rw [State.core_congr hv, State.core_setCore_same]
    exact hf
  unfold issueHourMark
  rw [← hop, State.tryIssue_of_ready hready hwaits hquiet]
  dsimp only
  rw [hkeep _ (by split_ifs <;> rfl)]
  change (if (decide (bodyF card 32 1 = 1) && State.seqState (.completeNow (State.stepOpened _ g f _ card) g _ t) g == 1) = true
    then State.aligned (.completeNow (State.stepOpened _ g f _ card) g _ t) g t else .completeNow (State.stepOpened _ g f _ card) g _ t) = _
  simp only [Bool.and_eq_true, decide_eq_true_eq, beq_iff_eq]

/-- What a core keeps whose stream waits for the Hour. -/
theorem State.aligned_effect (z : State) (g t : Nat) :
    z.aligned g t = { z with cores := (z.aligned g t).cores, regs := (z.aligned g t).regs }
      ∧ z.SameRegsBut (z.aligned g t) (fun a => a == Reg.coreSeqStatus (g / 16) (g % 16)) ∧ (z.aligned g t).seqState g = 2
      ∧ (z.aligned g t).seqPos g = z.seqPos g
      ∧ (z.aligned g t).core g = { z.core g with alignHour := some (ceilDiv (z.schedCount (g / 16) t) z.hourLen) }
      ∧ ∀ h, h ≠ g → (z.aligned g t).core h = z.core h := by
  unfold State.aligned
  generalize hv : { z.core g with alignHour := some (ceilDiv (z.schedCount (g / 16) t) z.hourLen) } = v
  have hwords := (z.setCore g v).wordsOnly_setSeqState g 2
  have hcore := hwords.core
  refine ⟨?_, State.SameRegsBut.trans (.of_regs rfl) hwords.2, State.seqState_setSeqState _ g 2, State.seqPos_setSeqState _ g 2,
    (hcore g).trans (State.core_setCore_same _ _ _), fun h hh => (hcore h).trans (State.core_setCore_other _ _ _ _ hh)⟩
  generalize (z.setCore g v).setSeqState g 2 = u at hwords
  rw [hwords.1]
  rfl

theorem State.Issued.aligns {z : State} (h : s.Issued z g card t) : s.Issued (z.aligned g t) g card t := by
  obtain ⟨hshape, hregs, -, hpos, hcore, hother⟩ := z.aligned_effect g t
  refine h.beside (by rw [hcore]) (by rw [hcore]) (by rw [hcore]) (fun f hf => ⟨f, by rw [hcore]; exact hf, rfl, rfl, rfl, rfl⟩) hother ?_ hpos ?_
    (hregs.mono fun a ha => ?_)
  · rw [hshape]
    exact .of_mem rfl rfl
  · refine State.r64_of_sameRegs hregs ?_ ?_
    · rw [beq_eq_false_iff_ne, Reg.coreSeqStatus_eq, Reg.coreSeqCount_eq]
      omega
    · rw [beq_eq_false_iff_ne, Reg.coreSeqStatus_eq, Reg.coreSeqCount_eq]
      omega
  · rw [beq_iff_eq, Reg.coreSeqStatus_eq] at ha
    exact issueRegs_of_words (.inr (by omega))

theorem hourMark_elsewhere (hg : g < 128) : issueRegs g Reg.topHourCtl = false := by
  rw [← Bool.not_eq_true]
  simp only [issueRegs, Bool.or_eq_true, Bool.and_eq_true, decide_eq_true_eq]
  unfold Reg.topHourCtl Reg.coreStream Reg.dieBase
  omega

/-- A core in which a step has been opened keeps its queue and its numbers. -/
theorem State.Issued.opens {x : State} {f : Flight} {pos : Nat} (h : s.Issued x g card t) (hf : (x.core g).flight f.seq = some f)
    (hnum : (x.core g).Numbered) : s.Issued (x.stepOpened g f pos card) g card t := by
  obtain ⟨hshape, hregs, hcore, hother⟩ := x.stepOpened_effect g f pos card
  obtain ⟨hstatus, hcount⟩ := State.seqWords_of_cap hregs
  refine h.beside (by rw [hcore]; rfl) (by rw [hcore]; rfl) (by rw [hcore]; rfl) (fun y hy => ?_) hother ?_ ?_ hcount
    (hregs.mono fun _ => issueRegs_of_cap)
  · rw [hcore]
    by_cases hseq : y.seq = f.seq
    · have hyf : y = f := Option.some.inj ((CoreState.flight_of_mem hnum hy).symm.trans (hseq ▸ hf))
      rw [hyf]
      exact ⟨{ f with step := bodyF card 0 32 }, List.mem_map.2 ⟨f, CoreState.mem_of_flight hf, if_pos rfl⟩, rfl, rfl, rfl, rfl⟩
    · exact ⟨y, List.mem_map.2 ⟨y, hy, if_neg hseq⟩, rfl, rfl, rfl, rfl⟩
  · rw [hshape]
    exact .of_mem rfl rfl
  · unfold State.seqPos State.f32
    rw [hstatus]

/-- A replaced card in flight of the same number leaves the cards numbered. -/
theorem CoreState.numbered_setFlight {c : CoreState} (h : c.Numbered) (f : Flight) : (c.setFlight f).Numbered := by
  obtain ⟨hrise, hbelow⟩ := h
  have hseq : ∀ x : Flight, (if x.seq = f.seq then f else x).seq = x.seq := fun x => by
    split_ifs with hx
    · exact hx.symm
    · rfl
  refine ⟨List.pairwise_map.2 (hrise.imp fun {x y} hxy => ?_), fun x hx => ?_⟩
  · rw [hseq, hseq]
    exact hxy
  · obtain ⟨y, hy, rfl⟩ := List.mem_map.1 hx
    rw [hseq]
    exact hbelow y hy

end

end Sys2Proof.Machine
end

/-! The sequencer's own cards (07_layer_cards.md R193, R207 to R210). -/

section

open Sys2Proof

namespace Sys2Proof.Machine

section

variable {s : State} {g card t : Nat}

/-- What a state keeps of one that completes a card: `y`'s words of the stream and `y`'s shape. -/
theorem State.CompletesNow.keeps {y u : State} {f : Flight} {cyc : Nat} (h : y.CompletesNow u g f cyc)
    (hy : y = { s with cores := y.cores, regs := y.regs }) :
    u = { s with cores := u.cores, regs := u.regs } ∧ u.seqState g = y.seqState g
      ∧ (u.core g).engines = (y.core g).engines ∧ (u.core g).vec = (y.core g).vec ∧ (u.core g).step = (y.core g).step
      ∧ (u.core g).markPos = (y.core g).markPos ∧ (u.core g).layers = (y.core g).layers ∧ (u.core g).closed = (y.core g).closed
      ∧ (u.core g).alignHour = (y.core g).alignHour := by
  have hcore := h.core
  rw [CoreState.completedNow_shape] at hcore
  refine ⟨?_, State.seqState_of_cap h.regs, ?_⟩
  · rw [h.shape, hy]
  · rw [hcore]
    exact ⟨rfl, rfl, rfl, rfl, rfl, rfl, rfl⟩

theorem nopCard_completes (hg : g < 128) (hready : s.Ready g card t) (hwaits : s.WaitsHold card t) (hnum : (s.core g).Numbered)
    (hquiet : quietCard card 0) (hquiet1 : quietCard card 1) (hquiet3 : quietCard card 3) (hop : cardOp card = 0) :
    ∃ u f, issueNop g t s = u ∧ s.Issued u g card t ∧ u = { s with cores := u.cores, regs := u.regs } ∧ u.seqState g = afterCard card
      ∧ f ∈ (u.core g).flights ∧ f.seq = (s.core g).seq ∧ f.localAt = some (s.engCycle (g / 16) t) ∧ f.fullAt = some (s.engCycle (g / 16) t)
      ∧ (u.core g).unfolded = (s.core g).unfolded
        ++ [(s.seqPos g, crc64 (leBytes 3 (s.seqPos g) ++ leBytes 1 0 ++ leBytes 4 (cardIters card - 1)))]
      ∧ (u.core g).layers = (s.core g).layers ∧ (u.core g).engines = (s.core g).engines ∧ (u.core g).vec = (s.core g).vec
      ∧ (u.core g).step = (s.core g).step := by
  have hj := State.justIssued (t := t) (State.seqState_of_mayIssue hready.1) hnum hquiet hg
  generalize hx : s.issued g (s.seqPos g) card t = x at hj
  obtain ⟨hdone, hissued⟩ := hj.completes hg (by omega) hquiet1 hquiet3
  obtain ⟨hshape, hstate, hengines, hvec, hstep, -, hlayers, -, -⟩ := hdone.keeps hj.shape
  obtain ⟨kstep, -, kunfolded, klayers, -, -⟩ := s.coreIssued_keeps g card t
  obtain ⟨oengines, ovec⟩ := s.coreIssued_other g card t (by omega) (by omega)
  have hcard : (s.flightIssued g card t).card = card := (s.card_flightIssued g card t hg).trans (State.resolveTargets_other _ (by omega))
  refine ⟨_, _, (issueNop_of_ready hready hwaits hquiet hop).trans (by rw [hx]), hissued, hshape,
    hstate.trans hj.state, hdone.shows hj.flight, s.seq_flightIssued g card t, rfl, rfl, ?_, ?_, ?_, ?_, ?_⟩
  · rw [hdone.core, CoreState.unfolded_completedNow (by rw [hcard]; omega), hj.core, kunfolded, State.digest_flightIssued hg (by omega), hop]
    rfl
  · rw [hlayers, hj.core, klayers]
  · rw [hengines, hj.core, oengines]
  · rw [hvec, hj.core, ovec]
  · rw [hstep, hj.core, kstep]

/-- The layer digests behind a DIGEST card, and those that CLOSE has reported. -/
theorem CoreState.foldDigest_reports {c : CoreState} {pos gen : Nat} (hrise : c.unfolded.Pairwise (fun x y => x.1 < y.1))
    (hbelow : ∀ x, x ∈ c.unfolded → x.1 < pos) :
    (c.foldDigest pos card gen).unfolded = []
      ∧ (bodyF card 16 1 = 1 → (c.foldDigest pos card gen).closed = c.closed ++ [⟨bodyF card 0 16, c.step, gen, c.foldedValue card⟩]
        ∧ (c.foldDigest pos card gen).layers.find? (fun x => x.1 == bodyF card 0 16) = none)
      ∧ (bodyF card 16 1 = 0 → (c.foldDigest pos card gen).closed = c.closed
        ∧ (c.foldDigest pos card gen).layers.find? (fun x => x.1 == bodyF card 0 16) = some (bodyF card 0 16, c.foldedValue card)) := by
  rw [CoreState.foldDigest_eq hrise hbelow]
  refine ⟨by split_ifs <;> rfl, fun h => ?_, fun h => ?_⟩
  · rw [if_pos h]
    exact ⟨rfl, find_filter_ne _ _⟩
  · rw [if_neg (by omega)]
    refine ⟨rfl, ?_⟩
    dsimp only
    rw [List.find?_append, find_filter_ne]
    simp

theorem digestCard_completes (hg : g < 128) (hready : s.Ready g card t) (hwaits : s.WaitsHold card t) (hnum : (s.core g).Numbered)
    (hquiet : quietCard card 0) (hquiet1 : quietCard card 1) (hquiet3 : quietCard card 3) (hop : cardOp card = 6)
    (hrise : (s.core g).unfolded.Pairwise (fun x y => x.1 < y.1)) (hbelow : ∀ x, x ∈ (s.core g).unfolded → x.1 < s.seqPos g) :
    ∃ u f v, issueDigest g t s = u ∧ s.Issued u g card t ∧ u = { s with cores := u.cores, regs := u.regs } ∧ u.seqState g = afterCard card
      ∧ f ∈ (u.core g).flights ∧ f.seq = (s.core g).seq ∧ f.localAt = some (s.engCycle (g / 16) t) ∧ f.fullAt = some (s.engCycle (g / 16) t)
      ∧ v = (s.core g).foldedValue card ∧ (u.core g).unfolded = [] ∧ (u.core g).engines = (s.core g).engines ∧ (u.core g).vec = (s.core g).vec
      ∧ (bodyF card 16 1 = 1 → (u.core g).closed = (s.core g).closed ++ [⟨bodyF card 0 16, (s.core g).step, s.gen (s.ownerN g), v⟩]
        ∧ (u.core g).layers.find? (fun x => x.1 == bodyF card 0 16) = none)
      ∧ (bodyF card 16 1 = 0 → (u.core g).closed = (s.core g).closed
        ∧ (u.core g).layers.find? (fun x => x.1 == bodyF card 0 16) = some (bodyF card 0 16, v)) := by
  have hj := State.justIssued (t := t) (State.seqState_of_mayIssue hready.1) hnum hquiet hg
  have hexec := issueDigest_of_ready hready hwaits hquiet hop
  generalize hx : s.issued g (s.seqPos g) card t = x at hj hexec
  rw [hj.issued.gen hg] at hexec
  obtain ⟨kstep, -, kunfolded, klayers, kclosed, -⟩ := s.coreIssued_keeps g card t
  obtain ⟨oengines, ovec⟩ := s.coreIssued_other g card t (by omega) (by omega)
  rw [← hj.core] at kstep kunfolded klayers kclosed oengines ovec
  have hvalue : (x.core g).foldedValue card = (s.core g).foldedValue card := by
    unfold CoreState.foldedValue
    rw [kunfolded, klayers]
  obtain ⟨hunfolded, hclose, hopen⟩ := CoreState.foldDigest_reports (card := card) (pos := s.seqPos g) (gen := s.gen (s.ownerN g))
    (kunfolded ▸ hrise) (kunfolded ▸ hbelow)
  have hfold := (x.core g).foldDigest_shape (s.seqPos g) card (s.gen (s.ownerN g))
  generalize (x.core g).foldDigest (s.seqPos g) card (s.gen (s.ownerN g)) = v at hexec hunfolded hclose hopen hfold
  have hycore : (x.setCore g v).core g = v := x.core_setCore_same g v
  have hyflight : ((x.setCore g v).core g).flight (s.core g).seq = some (s.flightIssued g card t) := by
    rw [hycore, hfold]
    exact hj.flight
  have hynum : ((x.setCore g v).core g).Numbered := by
    rw [hycore, hfold]
    exact hj.numbered
  have hyshape : x.setCore g v = { s with cores := (x.setCore g v).cores, regs := (x.setCore g v).regs } := by
    rw [hj.shape]
    rfl
  have hyissued : s.Issued (x.setCore g v) g card t := by
    refine hj.issued.beside (by rw [hycore, hfold]) (by rw [hycore, hfold]) (by rw [hycore, hfold]) (fun f hf => ⟨f, ?_, rfl, rfl, rfl, rfl⟩)
      (fun h hh => x.core_setCore_other g h v hh) (.of_mem rfl rfl) rfl rfl (.of_regs rfl)
    rw [hycore, hfold]
    exact hf
  have hdone := State.completesNow_of_flight hg (by omega) hquiet1 hquiet3 (by rw [hyshape]) hyflight rfl rfl
  obtain ⟨hshape, hstate, hengines, hvec, -, -, hlayers, hclosed, -⟩ := hdone.keeps hyshape
  have hcard : (s.flightIssued g card t).card = card := (s.card_flightIssued g card t hg).trans (State.resolveTargets_other _ (by omega))
  refine ⟨_, _, _, hexec, hyissued.completes hdone ?_ hynum, hshape, hstate.trans hj.state, hdone.shows hyflight, s.seq_flightIssued g card t,
    rfl, rfl, rfl, ?_, ?_, ?_, fun h => ?_, fun h => ?_⟩
  · rw [s.seq_flightIssued g card t]
    exact hyflight
  · rw [hdone.core, CoreState.unfolded_completedNow_digest (by rw [hcard, hop]), hycore, hunfolded]
  · rw [hengines, hycore, hfold, oengines]
  · rw [hvec, hycore, hfold, ovec]
  · rw [hclosed, hlayers, hycore, ← hvalue, ← kstep, ← kclosed]
    exact hclose h
  · rw [hclosed, hlayers, hycore, ← hvalue, ← kclosed]
    exact hopen h

theorem hourMark_completes (hg : g < 128) (hready : s.Ready g card t) (hwaits : s.WaitsHold card t) (hnum : (s.core g).Numbered)
    (hquiet : quietCard card 0) (hquiet1 : quietCard card 1) (hquiet3 : quietCard card 3) (hop : cardOp card = 7) :
    ∃ u f, issueHourMark g t s = u ∧ s.Issued u g card t ∧ u = { s with cores := u.cores, regs := u.regs }
      ∧ f ∈ (u.core g).flights ∧ f.seq = (s.core g).seq ∧ f.localAt = some (s.engCycle (g / 16) t) ∧ f.fullAt = some (s.engCycle (g / 16) t)
      ∧ (u.core g).step = bodyF card 0 32 ∧ (u.core g).markPos = s.seqPos g
      ∧ (u.core g).engines = (s.core g).engines ∧ (u.core g).vec = (s.core g).vec
      ∧ (bodyF card 32 1 = 1 → afterCard card = 1 → u.seqState g = 2
        ∧ (u.core g).alignHour = some (ceilDiv (s.schedCount (g / 16) t) s.hourLen))
      ∧ (bodyF card 32 1 = 0 ∨ afterCard card = 3 → u.seqState g = afterCard card ∧ (u.core g).alignHour = (s.core g).alignHour) := by
  have hj := State.justIssued (t := t) (State.seqState_of_mayIssue hready.1) hnum hquiet hg
  have hexec := fun z hz => issueHourMark_of_ready hready hwaits hquiet hop hj.flight (z := z) hz
  generalize hx : s.issued g (s.seqPos g) card t = x at hj hexec
  obtain ⟨-, -, -, -, -, kalign⟩ := s.coreIssued_keeps g card t
  obtain ⟨oengines, ovec⟩ := s.coreIssued_other g card t (by omega) (by omega)
  rw [← hj.core] at kalign oengines ovec
  have hseq := s.seq_flightIssued g card t
  have hfl : (x.core g).flight (s.flightIssued g card t).seq = some (s.flightIssued g card t) := by
    rw [hseq]
    exact hj.flight
  obtain ⟨yshape, yregs, ycore, -⟩ := x.stepOpened_effect g (s.flightIssued g card t) (s.seqPos g) card
  have yissued := hj.issued.opens (pos := s.seqPos g) hfl hj.numbered
  generalize x.stepOpened g (s.flightIssued g card t) (s.seqPos g) card = y at hexec yshape yregs ycore yissued
  have hyshape : y = { s with cores := y.cores, regs := y.regs } := by
    rw [yshape, hj.shape]
  have hyflight : (y.core g).flight (s.core g).seq = some { s.flightIssued g card t with step := bodyF card 0 32 } := by
    rw [ycore, ← hseq]
    exact CoreState.flight_setFlight_same (f' := { s.flightIssued g card t with step := bodyF card 0 32 }) hfl
  have hynum : (y.core g).Numbered := by
    rw [ycore]
    exact CoreState.numbered_setFlight (c := { x.core g with step := bodyF card 0 32, markPos := s.seqPos g }) hj.numbered _
  have hdone := State.completesNow_of_flight hg (by omega) hquiet1 hquiet3 (by rw [hyshape]) hyflight rfl rfl
  obtain ⟨hshape, hstate, hengines, hvec, hstep, hmark, -, -, halign⟩ := hdone.keeps hyshape
  have hissued := yissued.completes hdone (by rw [show Flight.seq _ = _ from hseq]; exact hyflight) hynum
  have hshows := hdone.shows hyflight
  replace hexec := hexec _ rfl
  generalize y.completeNow g (s.core g).seq t = z at *
  rw [ycore] at hengines hvec hstep hmark halign
  have hafter : z.seqState g = afterCard card := by
    rw [hstate, State.seqState_of_cap yregs, hj.state]
  have hhour : z.hourLen = s.hourLen := by
    obtain ⟨-, -, -, -, -, -, -, -, hregs⟩ := hissued
    unfold State.hourLen State.f32
    rw [hregs _ (hourMark_elsewhere hg)]
  have hcount : z.schedCount (g / 16) t = s.schedCount (g / 16) t := by
    rw [hshape]
    rfl
  by_cases hwaitsHour : bodyF card 32 1 = 1 ∧ z.seqState g = 1
  · rw [if_pos hwaitsHour] at hexec
    obtain ⟨ushape, -, ustate, -, ucore, -⟩ := z.aligned_effect g t
    have uissued := hissued.aligns
    generalize z.aligned g t = u at *
    refine ⟨_, Flight.fullDone { s.flightIssued g card t with step := bodyF card 0 32 } _, hexec, uissued, ?_, by rw [ucore]; exact hshows, hseq, rfl, rfl, ?_, ?_, ?_, ?_, fun _ _ => ⟨ustate, ?_⟩, fun h => ?_⟩
    · rw [ushape, hshape]
    · rw [ucore]
      exact hstep
    · rw [ucore]
      exact hmark
    · rw [ucore]
      exact hengines.trans oengines
    · rw [ucore]
      exact hvec.trans ovec
    · rw [ucore, hhour, hcount]
    · omega
  · rw [if_neg hwaitsHour] at hexec
    refine ⟨_, _, hexec, hissued, hshape, hshows, hseq, rfl, rfl, hstep, hmark, hengines.trans oengines, hvec.trans ovec, fun h h' => ?_, fun _ => ?_⟩
    · exact absurd ⟨h, hafter.trans h'⟩ hwaitsHour
    · exact ⟨hafter, halign.trans kalign⟩

end

/-- Settles O29: a ready card of the sequencer's own issues, and its work is done in the same cycle. -/
theorem sequencerCardsCompleteInTheirIssueCycle : Obligations.SequencerCardsCompleteInTheirIssueCycle := by
  unfold Obligations.SequencerCardsCompleteInTheirIssueCycle
  intro s d c t card hready hwaits hnum hquiet hquiet1 hquiet3
  have hg : 16 * d.val + c.val < 128 := by omega
  have hd := die_of_core d c
  refine ⟨fun hop => ?_, fun hop acc hacc hrise hbelow => ?_, fun hop => ?_⟩
  · obtain ⟨u, f, hexec, h⟩ := nopCard_completes hg hready hwaits hnum hquiet hquiet1 hquiet3 hop
    rw [hd] at h
    exact ⟨u, f, congrArg Host.Outcome.next hexec, h⟩
  · obtain ⟨u, f, v, hexec, h⟩ := digestCard_completes hg hready hwaits hnum hquiet hquiet1 hquiet3 hop hrise hbelow
    rw [hd] at h
    unfold CoreState.foldedValue at h
    rw [← hacc] at h
    exact ⟨u, f, v, congrArg Host.Outcome.next hexec, h⟩
  · obtain ⟨u, f, hexec, h⟩ := hourMark_completes hg hready hwaits hnum hquiet hquiet1 hquiet3 hop
    rw [hd] at h
    exact ⟨u, f, congrArg Host.Outcome.next hexec, h⟩

end Sys2Proof.Machine
end

/-! The flag files in the grant phase of a cycle (08_flags_ordering_interlocks.md R220). -/

section

open Sys2Proof

namespace Sys2Proof.Machine

/-- Nothing but flags, counters and the records of their files differs: no register, and no engine cycle of a die. -/
def State.FilesOnly (s u : State) : Prop :=
  u = { s with flags := u.flags, ctrs := u.ctrs, dies := u.dies, parts := u.parts, hour := { s.hour with copies := u.hour.copies } }
    ∧ ∀ d t, u.engCycle d t = s.engCycle d t

section

variable {s t u : State}

/-- A counter's value behind consumptions alone. -/
theorem CtrCell.result_granted (a x : Nat) : (CtrCell.mk a (x % 2 ^ 32) 0 none).result = x % 2 ^ 32 := by
  unfold CtrCell.result
  rw [Nat.add_zero, Nat.mod_mod]

theorem State.FilesOnly.refl (s : State) : s.FilesOnly s := ⟨rfl, fun _ _ => rfl⟩

theorem State.FilesOnly.trans (h : s.FilesOnly t) (k : t.FilesOnly u) : s.FilesOnly u := by
  obtain ⟨hshape, hcycle⟩ := h
  obtain ⟨kshape, kcycle⟩ := k
  refine ⟨?_, fun d n => (kcycle d n).trans (hcycle d n)⟩
  rw [kshape, hshape]

theorem State.FilesOnly.core (h : s.FilesOnly u) (g : Nat) : u.core g = s.core g := State.core_congr (by rw [h.1]) g

theorem State.FilesOnly.regs (h : s.FilesOnly u) : u.regs = s.regs := by rw [h.1]

theorem State.FilesOnly.sameBytes (h : s.FilesOnly u) : s.SameBytes u := by
  rw [h.1]
  exact .of_mem rfl rfl

theorem State.engCycle_setDie (s : State) {d : Nat} {v : DieState} (hrun : v.run = (s.die d).run) (he : v.e0 = (s.die d).e0)
    (ht : v.t0 = (s.die d).t0) (e n : Nat) : (s.setDie d v).engCycle e n = s.engCycle e n := by
  have hdie : (s.setDie d v).die e = if e = d then v else s.die e := Tab.get_put _ _ _ _ _
  unfold State.engCycle
  rw [hdie]
  by_cases h : e = d
  · subst h
    simp only [if_true, hrun, he, ht]
  · rw [if_neg h]

/-- The record of a die's flag file changes. -/
theorem State.filesOnly_setDie (s : State) {d : Nat} {v : DieState} (hrun : v.run = (s.die d).run) (he : v.e0 = (s.die d).e0)
    (ht : v.t0 = (s.die d).t0) : s.FilesOnly (s.setDie d v) :=
  ⟨rfl, s.engCycle_setDie hrun he ht⟩

theorem State.filesOnly_makeCopies (s : State) (p : Nat × Nat × Nat → Bool) : s.FilesOnly (s.makeCopies p)
    ∧ (s.makeCopies p).flags = s.flags ∧ (s.makeCopies p).ctrs = s.ctrs := by
  have hcopy : ∀ (u : State) d n, u.FilesOnly (u.copyWindows d n) ∧ (u.copyWindows d n).flags = u.flags ∧ (u.copyWindows d n).ctrs = u.ctrs :=
    fun u d n => by
      unfold State.copyWindows
      split
      · exact ⟨.refl u, rfl, rfl⟩
      · exact ⟨⟨rfl, fun _ _ => rfl⟩, rfl, rfl⟩
  unfold State.makeCopies
  extract_lets l
  split
  · exact ⟨.refl s, rfl, rfl⟩
  · refine List.foldlRecOn l _ (motive := fun u : State => s.FilesOnly u ∧ u.flags = s.flags ∧ u.ctrs = s.ctrs)
      ⟨⟨rfl, fun _ _ => rfl⟩, rfl, rfl⟩ fun u hu e _ => ?_
    obtain ⟨hfiles, hflags, hctrs⟩ := hu
    obtain ⟨hfiles', hflags', hctrs'⟩ := hcopy u e.1 e.2.1
    exact ⟨hfiles.trans hfiles', hflags'.trans hflags, hctrs'.trans hctrs⟩

/-- A cycle of a flag file begins, or goes on. -/
theorem State.filesOnly_flagCycle (s : State) (d t : Nat) : s.FilesOnly (s.flagCycle d t) ∧ (s.flagCycle d t).flags = s.flags
    ∧ (s.flagCycle d t).ctrs = s.ctrs := by
  unfold State.flagCycle
  split_ifs
  · exact ⟨.refl s, rfl, rfl⟩
  · extract_lets u
    obtain ⟨hfiles, hflags, hctrs⟩ := s.filesOnly_makeCopies (fun e => e.1 == d && decide (e.2.2 ≤ t))
    exact ⟨hfiles.trans (u.filesOnly_setDie rfl rfl rfl), hflags, hctrs⟩

section

variable (s) {k n : Nat} (h : (s.die (k / 1024)).flagT ≠ n)

include h

/-- The cell of a flag that no operation of the new cycle has met. -/
theorem State.flagCell_new : (s.flagCycle (k / 1024) n).flagCell k = ⟨s.flag k, s.flag k, 0, 0⟩ := by
  obtain ⟨-, hflags, hcells⟩ := s.flagCycle_new h
  have hflag : (s.flagCycle (k / 1024) n).flag k = s.flag k := by
    unfold State.flag
    rw [hflags]
  unfold State.flagCell
  rw [hcells, ← hflag]
  rfl

/-- The cell of a counter that no operation of the new cycle has met. -/
theorem State.ctrCell_new : (s.flagCycle (k / 1024) n).ctrCell k = ⟨s.ctr k, s.ctr k, 0, none⟩ := by
  obtain ⟨-, -, hctrs⟩ := s.filesOnly_flagCycle (k / 1024) n
  have hctr : (s.flagCycle (k / 1024) n).ctr k = s.ctr k := by
    unfold State.ctr
    rw [hctrs]
  have hcells : ((s.flagCycle (k / 1024) n).die (k / 1024)).ctrCells = [] := by
    unfold State.flagCycle
    rw [if_neg h]
    exact congrArg DieState.ctrCells (Tab.get_put_same _ _ _ _)
  unfold State.ctrCell
  rw [hcells, ← hctr]
  rfl

theorem State.evalFlag_new : s.evalFlag k n = s.flag k := congrArg FlagCell.start (s.flagCell_new h)
theorem State.grantedFlag_new : s.grantedFlag k n = s.flag k := congrArg FlagCell.granted (s.flagCell_new h)
theorem State.evalCtr_new : s.evalCtr k n = s.ctr k := congrArg CtrCell.start (s.ctrCell_new h)
theorem State.grantedCtr_new : s.grantedCtr k n = s.ctr k := congrArg CtrCell.granted (s.ctrCell_new h)

/-- The first consumption of a flag in its cycle clears it (R220). -/
theorem State.consumeFlag_first : s.FilesOnly (s.consumeFlag k n) ∧ (s.consumeFlag k n).ctrs = s.ctrs
    ∧ ∀ j, (s.consumeFlag k n).flag j = if j = k then false else s.flag j := by
  obtain ⟨hfiles, hflags, hctrs⟩ := s.filesOnly_flagCycle (k / 1024) n
  unfold State.consumeFlag
  extract_lets u
  have hcell : u.flagCell k = ⟨s.flag k, s.flag k, 0, 0⟩ := s.flagCell_new h
  obtain ⟨v, hset⟩ : ∃ v, u.setFlagCell k { u.flagCell k with granted := false }
      = (u.setDie (k / 1024) { u.die (k / 1024) with flagCells := v }).putFlag k false := by
    unfold State.setFlagCell
    rw [hcell]
    exact ⟨_, rfl⟩
  rw [hset]
  have hdie := u.filesOnly_setDie (d := k / 1024) (v := { u.die (k / 1024) with flagCells := v }) rfl rfl rfl
  refine ⟨(hfiles.trans hdie).trans ⟨rfl, fun _ _ => rfl⟩, hctrs, fun j => ?_⟩
  rw [show s.flag j = u.flag j by unfold State.flag; rw [← hflags]]
  exact Tab.get_put (fun _ => false) _ k j false

omit h in
/-- What a counter becomes by the first operation of its cycle. -/
theorem State.setCtrCell_first (x : CtrCell) : s.FilesOnly ((s.flagCycle (k / 1024) n).setCtrCell k x)
    ∧ ((s.flagCycle (k / 1024) n).setCtrCell k x).flags = s.flags
    ∧ ∀ j, ((s.flagCycle (k / 1024) n).setCtrCell k x).ctr j = if j = k then x.result else s.ctr j := by
  obtain ⟨hfiles, hflags, hctrs⟩ := s.filesOnly_flagCycle (k / 1024) n
  generalize s.flagCycle (k / 1024) n = u at *
  have hcell := u.filesOnly_setDie (d := k / 1024)
    (v := { u.die (k / 1024) with ctrCells := Tab.put (fun _ => none) (u.die (k / 1024)).ctrCells (k % 1024) (some x) }) rfl rfl rfl
  refine ⟨(hfiles.trans hcell).trans ⟨rfl, fun _ _ => rfl⟩, hflags, fun j => ?_⟩
  have hresult : x.result < 2 ^ 32 := Nat.mod_lt _ (Nat.two_pow_pos 32)
  have hget : (u.setCtrCell k x).ctr j = (if j = k then BitVec.ofNat 32 x.result else Tab.get (fun _ => (0 : W32)) u.ctrs j).toNat :=
    congrArg BitVec.toNat (Tab.get_put _ _ _ _ _)
  rw [hget, hctrs]
  split_ifs
  · rw [BitVec.toNat_ofNat, Nat.mod_eq_of_lt hresult]
  · rfl

/-- The first consumption of a counter in its cycle subtracts its VALUE (R220). -/
theorem State.consumeCtr_first {v : Nat} (hv : v < 2 ^ 32) : s.FilesOnly (s.consumeCtr k n v) ∧ (s.consumeCtr k n v).flags = s.flags
    ∧ ∀ j, (s.consumeCtr k n v).ctr j = if j = k then (s.ctr j + 2 ^ 32 - v) % 2 ^ 32 else s.ctr j := by
  have hcell := s.ctrCell_new h
  obtain ⟨hfiles, hflags, hctr⟩ := s.setCtrCell_first (k := k) (n := n) ⟨s.ctr k, (s.ctr k + 2 ^ 32 - v % 2 ^ 32) % 2 ^ 32, 0, none⟩
  have heq : s.consumeCtr k n v = (s.flagCycle (k / 1024) n).setCtrCell k ⟨s.ctr k, (s.ctr k + 2 ^ 32 - v % 2 ^ 32) % 2 ^ 32, 0, none⟩ := by
    unfold State.consumeCtr
    dsimp only
    rw [hcell]
  rw [heq]
  refine ⟨hfiles, hflags, fun j => (hctr j).trans ?_⟩
  by_cases hj : j = k
  · subst hj
    rw [if_pos rfl, if_pos rfl, CtrCell.result_granted, Nat.mod_eq_of_lt hv]
  · simp only [if_neg hj]

/-- The first addition to a counter in its cycle (R221). -/
theorem State.addCtr_first (v : Nat) : s.FilesOnly (s.addCtr k n v) ∧ (s.addCtr k n v).flags = s.flags
    ∧ ∀ j, (s.addCtr k n v).ctr j = if j = k then (s.ctr j + v) % 2 ^ 32 else s.ctr j := by
  obtain ⟨hfiles, hflags, hctr⟩ := s.setCtrCell_first (k := k) (n := n) ⟨s.ctr k, s.ctr k, v, none⟩
  have heq : s.addCtr k n v = (s.flagCycle (k / 1024) n).setCtrCell k ⟨s.ctr k, s.ctr k, v, none⟩ := by
    unfold State.addCtr
    dsimp only
    rw [s.ctrCell_new h]
    rw [Nat.zero_add]
  rw [heq]
  refine ⟨hfiles, hflags, fun j => (hctr j).trans ?_⟩
  by_cases hj : j = k
  · subst hj
    simp only [if_true]
    rfl
  · simp only [if_neg hj]

end

end

end Sys2Proof.Machine
end

/-! Waits that consume, block or lose, and the signal of a card's issue (07_layer_cards.md R194 to R196; 08_flags_ordering_interlocks.md
R220, R235). -/

section

open Sys2Proof

namespace Sys2Proof.Machine

section

variable {s : State} {g card t : Nat}

/-! ## A card whose first wait alone is valid -/

theorem State.fence_of_ready (hready : s.Ready g card t) : (needsDrain card && !(s.core g).allDone (s.engCycle (g / 16) t)) = false := by
  obtain ⟨-, -, -, -, hdrain⟩ := hready
  cases hn : needsDrain card with
  | false => rfl
  | true => rw [hdrain hn]; rfl

section

variable (hrest : ∀ i, 0 < i → i < 4 → waitValid (cardWait card i) = false)

include hrest

theorem State.openWait_of_holds (h : waitValid (cardWait card 0) = true → s.waitHolds (cardWait card 0) t = true) (ext : Bool) :
    s.openWait card t ext = none := by
  unfold State.openWait
  rw [List.find?_eq_none]
  intro i hi
  cases i with
  | zero =>
    cases hv : waitValid (cardWait card 0) with
    | false => simp [hv]
    | true => simp [h hv]
  | succ i => simp [hrest (i + 1) (Nat.succ_pos i) (List.mem_range.1 hi)]

omit hrest in
/-- An internal wait that does not hold. -/
theorem State.openWait_of_open (hvalid : waitValid (cardWait card 0) = true) (hext : waitExt (cardWait card 0) = false)
    (h : s.waitHolds (cardWait card 0) t = false) : s.openWait card t false = some 0 := by
  unfold State.openWait
  rw [show List.range 4 = [0, 1, 2, 3] from rfl, List.find?_cons_of_pos (by simp [hvalid, hext, h])]

/-- The grant of that wait: it is consumed, or loses. -/
theorem State.grantWaits_first (x : State) (hvalid : waitValid (cardWait card 0) = true) (hconsume : waitConsume (cardWait card 0) = true) :
    x.grantWaits card t [0, 1, 2, 3] = if x.waitGranted (cardWait card 0) t = true then (x.consume (cardWait card 0) t, none) else (x, some 0) := by
  have hnone : ∀ y : State, y.grantWaits card t [1, 2, 3] = (y, none) := fun y => y.grantWaits_of_unconsumed fun i hi hv => by
    have hlt := List.mem_range.1 (show i ∈ List.range 4 from List.mem_cons_of_mem 0 hi)
    have hpos : 0 < i := by
      simp only [List.mem_cons, List.not_mem_nil, or_false] at hi
      omega
    exact absurd (hv.symm.trans (hrest i hpos hlt)) (by decide)
  rw [State.grantWaits]
  simp [hvalid, hconsume, hnone]

theorem State.grantWaits_none (x : State) (hvalid : waitValid (cardWait card 0) = false) : x.grantWaits card t [0, 1, 2, 3] = (x, none) :=
  x.grantWaits_of_unconsumed fun i hi hv => by
    have hlt := List.mem_range.1 (show i ∈ List.range 4 from hi)
    obtain rfl | hpos := Nat.eq_zero_or_pos i
    · exact absurd (hv.symm.trans hvalid) (by decide)
    · exact absurd (hv.symm.trans (hrest i hpos hlt)) (by decide)

end

/-! ## The outcomes of the issue -/

/-- A card that is granted its waits issues behind its grants. -/
theorem State.tryIssue_of_granted (hready : s.Ready g card t) (hopen : ∀ ext, s.openWait card t ext = none)
    (hfit : s.signalsFit g card 0 = true) (hlower : ((s.lowerGrants g t).grantWaits card t [0, 1, 2, 3]).2 = none) {s' : State}
    (hgrant : s.grantWaits card t [0, 1, 2, 3] = (s', none)) :
    s.tryIssue g (cardOp card) t = (s'.issued g (s.seqPos g) card t, some (s.seqPos g, (s.core g).seq, card)) := by
  have hhead := State.headCard_of_ready hready
  have hfence := State.fence_of_ready hready
  obtain ⟨hmay, -, hgap, haccepts, -⟩ := hready
  obtain ⟨y, i, hy⟩ : ∃ y i, (s.lowerGrants g t).grantWaits card t [0, 1, 2, 3] = (y, i) := ⟨_, _, rfl⟩
  rw [hy] at hlower
  subst hlower
  unfold State.tryIssue
  simp [hhead, hmay, hgap, haccepts, hfence, hopen, hfit, hy, hgrant]

/-- The state in which a card's grant has been lost in its slot 0. -/
def State.grantLost (s : State) (g card t : Nat) : State :=
  if waitExt (cardWait card 0) = true then s.contested g (cardWait card 0)
  else (s.contested g (cardWait card 0)).blockIssue g 0 0 (s.engCycle (g / 16) t)

/-- A card that loses the grant of its first wait, to a lower core or to a consumption before it, stays. -/
theorem State.tryIssue_of_lost (hready : s.Ready g card t) (hopen : ∀ ext, s.openWait card t ext = none) (hfit : s.signalsFit g card 0 = true)
    (hlower : ((s.lowerGrants g t).grantWaits card t [0, 1, 2, 3]).2 = some 0 ∨ ((s.lowerGrants g t).grantWaits card t [0, 1, 2, 3]).2 = none)
    (hgrant : (s.grantWaits card t [0, 1, 2, 3]).2 = some 0) : s.tryIssue g (cardOp card) t = (s.grantLost g card t, none) := by
  have hhead := State.headCard_of_ready hready
  have hfence := State.fence_of_ready hready
  obtain ⟨hmay, -, hgap, haccepts, -⟩ := hready
  obtain ⟨y, i, hy⟩ : ∃ y i, (s.lowerGrants g t).grantWaits card t [0, 1, 2, 3] = (y, i) := ⟨_, _, rfl⟩
  obtain ⟨z, j, hz⟩ : ∃ z j, s.grantWaits card t [0, 1, 2, 3] = (z, j) := ⟨_, _, rfl⟩
  rw [hz] at hgrant
  subst hgrant
  rw [hy] at hlower
  unfold State.tryIssue State.grantLost
  obtain rfl | rfl := hlower
  · simp [hhead, hmay, hgap, haccepts, hfence, hopen, hfit, hy]
  · simp [hhead, hmay, hgap, haccepts, hfence, hopen, hfit, hy, hz]

/-- A card behind an internal wait that does not hold is blocked. -/
theorem State.tryIssue_of_openWait (hready : s.Ready g card t) {i : Nat} (hopen : s.openWait card t false = some i) :
    s.tryIssue g (cardOp card) t = (s.blockIssue g 0 i (s.engCycle (g / 16) t), none) := by
  have hhead := State.headCard_of_ready hready
  obtain ⟨hmay, -, hgap, haccepts, -⟩ := hready
  unfold State.tryIssue
  simp [hhead, hmay, hgap, haccepts, hopen]

/-! ## A NOP behind its grants -/

/-- Consumptions granted before it do not show in a card that issues. -/
theorem State.FilesOnly.issued {s' u : State} (h : s.FilesOnly s') (hu : s'.Issued u g card t) (hop : cardOp card ≠ 4) : s.Issued u g card t := by
  have hcores : ∀ k, s'.core k = s.core k := h.core
  have hregs := h.regs
  obtain ⟨iseq, iqueue, ilast, ⟨f, hf, fseq, fpos, fissue, fcard⟩, ipos, icount, iother, ibytes, iregs⟩ := hu
  have hpos : s'.seqPos g = s.seqPos g := by
    unfold State.seqPos State.f32 State.r32
    rw [hregs]
  have hcount : ∀ a, s'.r64 a = s.r64 a := fun a => by
    unfold State.r64 State.r32
    rw [hregs]
  rw [hcores] at iseq iqueue fseq
  rw [h.2] at ilast fissue
  rw [hpos] at fpos ipos
  rw [hcount] at icount
  rw [State.resolveTargets_other _ hop] at fcard
  refine ⟨iseq, iqueue, ilast, ⟨f, hf, fseq, fpos, fissue, ?_⟩, ipos, icount, fun k hk => (iother k hk).trans (hcores k),
    h.sameBytes.trans ibytes, State.SameRegsBut.trans (.of_regs hregs) iregs⟩
  rw [State.resolveTargets_other _ hop]
  exact fcard

theorem nopCard_granted (hg : g < 128) (hready : s.Ready g card t) (hnum : (s.core g).Numbered) (hquiet : quietCard card 0)
    (hquiet1 : quietCard card 1) (hquiet3 : quietCard card 3) (hop : cardOp card = 0) (hopen : ∀ ext, s.openWait card t ext = none)
    (hlower : ((s.lowerGrants g t).grantWaits card t [0, 1, 2, 3]).2 = none) {s' : State} (hgrant : s.grantWaits card t [0, 1, 2, 3] = (s', none))
    (hfiles : s.FilesOnly s') :
    ∃ u, issueNop g t s = u ∧ s.Issued u g card t ∧ u = { s' with cores := u.cores, regs := u.regs } := by
  have hpos : s'.seqPos g = s.seqPos g := by
    unfold State.seqPos State.f32 State.r32
    rw [hfiles.regs]
  have hstate : s'.seqState g = 1 := by
    rw [← State.seqState_of_mayIssue hready.1]
    unfold State.seqState State.f32 State.r32
    rw [hfiles.regs]
  have hcore := hfiles.core g
  have hj := State.justIssued (t := t) hstate (hcore ▸ hnum) hquiet hg
  obtain ⟨hdone, hissued⟩ := hj.completes hg (by omega) hquiet1 hquiet3
  rw [hpos, hcore] at hdone hissued
  have hexec : issueNop g t s = (s'.issued g (s.seqPos g) card t).completeNow g (s.core g).seq t := by
    unfold issueNop
    rw [← hop, State.tryIssue_of_granted hready hopen (s.signalsFit_of_quiet g hquiet) hlower hgrant]
  refine ⟨_, hexec, hfiles.issued hissued (by omega), ?_⟩
  have hshape := hj.shape
  rw [hpos] at hshape
  rw [hdone.shape, hshape]

/-! ## A card that stays -/

theorem State.blockIssue_none (h : (s.core g).blocked = none) (kind slot cyc : Nat) :
    s.blockIssue g kind slot cyc = s.setCore g { s.core g with blocked := some { kind := kind, slot := slot, since := cyc } } := by
  unfold State.blockIssue
  rw [h]

/-- A card that is blocked, or blocked for another reason, leaves the queue and the cards in flight. -/
theorem State.blockIssue_keeps (s : State) (g kind slot cyc : Nat) : s.CoresOnly (s.blockIssue g kind slot cyc) (ilkRegs g)
    ∧ (∀ h, h ≠ g → (s.blockIssue g kind slot cyc).core h = s.core h)
    ∧ (s.blockIssue g kind slot cyc).core g = { s.core g with
      fired := ((s.blockIssue g kind slot cyc).core g).fired, blocked := ((s.blockIssue g kind slot cyc).core g).blocked } := by
  have hset : ∀ (u : State) b, s.FiringsOnly u g → s.CoresOnly (u.setCore g { u.core g with blocked := b }) (ilkRegs g)
      ∧ (∀ h, h ≠ g → (u.setCore g { u.core g with blocked := b }).core h = s.core h)
      ∧ (u.setCore g { u.core g with blocked := b }).core g = { s.core g with
        fired := ((u.setCore g { u.core g with blocked := b }).core g).fired
        blocked := ((u.setCore g { u.core g with blocked := b }).core g).blocked } := fun u b hu => by
    obtain ⟨⟨hshape, hregs⟩, hother, hcore⟩ := hu
    refine ⟨⟨?_, hregs⟩, fun h hh => (u.core_setCore_other g h _ hh).trans (hother h hh), ?_⟩
    · unfold State.setCore
      rw [hshape]
    · rw [State.core_setCore_same, hcore]
  unfold State.blockIssue
  split
  · exact hset s _ (.refl s g)
  · split_ifs
    · exact hset s _ (.refl s g)
    · exact hset s _ (.refl s g)
    · exact hset _ _ (s.firingsOnly_firing g _ _ _ _ _)

/-- The registers of die `d`'s flag file: CONTESTED and COALESCED, and their counts. -/
def contestRegs (d q a : Nat) : Bool := a == Reg.cdFlagStatus d || pairOf (Reg.cdFlagCount d q) a

theorem State.wordsOnly_contested (s : State) (g w : Nat) : s.WordsOnly (s.contested g w) (contestRegs (g / 16) (fld w 50 7 % 16 / 4)) :=
  ((s.wordsOnly_sf32 _ _ _ _).mono fun a ha => by simp only [contestRegs, Bool.or_eq_true]; exact .inl ha).trans
    ((State.wordsOnly_count64 _ _ _ _ _).mono fun a ha => by simp only [contestRegs, Bool.or_eq_true]; exact .inr ha)

/-- CONTESTED is set and counted (R237). -/
theorem State.contested_counts (s : State) (g w : Nat) :
    bitAt ((s.contested g w).r32 (Reg.cdFlagStatus (g / 16))) 1 = true
      ∧ (s.contested g w).f64 (Reg.cdFlagCount (g / 16) (fld w 50 7 % 16 / 4)) 0 32
        = min (s.f64 (Reg.cdFlagCount (g / 16) (fld w 50 7 % 16 / 4)) 0 32 + 1) (2 ^ 32 - 1) := by
  generalize hq : fld w 50 7 % 16 / 4 = q
  have hcell : Reg.cdFlagStatus (g / 16) ≠ Reg.cdFlagCount (g / 16) q ∧ Reg.cdFlagStatus (g / 16) ≠ Reg.cdFlagCount (g / 16) q + 4 := by
    unfold Reg.cdFlagStatus Reg.cdFlagCount
    omega
  unfold State.contested
  rw [hq]
  constructor
  · rw [(State.wordsOnly_count64 _ _ _ _ _).2 _ (pairOf_false hcell.1 hcell.2)]
    exact s.bitAt_set32_same _ _ (by decide)
  · rw [State.f64_count64_same _ _ _ _ _ (by decide)]
    refine congrArg (fun x => min (x + 1) (2 ^ 32 - 1)) (State.f64_of_sameRegs (s.wordsOnly_sf32 _ _ _ _).2 ?_ ?_ _ _)
    · simpa using hcell.1.symm
    · simpa using hcell.2.symm

/-- A lost grant leaves the card where it is and is counted. -/
theorem State.grantLost_counts (hg : g < 128) (card t : Nat) :
    ((s.grantLost g card t).core g).seq = (s.core g).seq ∧ ((s.grantLost g card t).core g).queue = (s.core g).queue
      ∧ ((s.grantLost g card t).core g).flights = (s.core g).flights ∧ bitAt ((s.grantLost g card t).r32 (Reg.cdFlagStatus (g / 16))) 1 = true
      ∧ (s.grantLost g card t).f64 (Reg.cdFlagCount (g / 16) (fld (cardWait card 0) 50 7 % 16 / 4)) 0 32
        = min (s.f64 (Reg.cdFlagCount (g / 16) (fld (cardWait card 0) 50 7 % 16 / 4)) 0 32 + 1) (2 ^ 32 - 1)
      ∧ s.grantLost g card t = { s with cores := (s.grantLost g card t).cores, regs := (s.grantLost g card t).regs } := by
  have hwords := s.wordsOnly_contested g (cardWait card 0)
  obtain ⟨hbit, hcount⟩ := s.contested_counts g (cardWait card 0)
  have hcore := hwords.core g
  have hshape := hwords.1
  unfold State.grantLost
  generalize s.contested g (cardWait card 0) = u at *
  split_ifs
  · rw [hcore]
    refine ⟨rfl, rfl, rfl, hbit, hcount, ?_⟩
    rw [hshape]
  · obtain ⟨⟨kshape, kregs⟩, -, kcore⟩ := u.blockIssue_keeps g 0 0 (s.engCycle (g / 16) t)
    generalize u.blockIssue g 0 0 (s.engCycle (g / 16) t) = v at *
    have hrange : ∀ a, Reg.dieBase (g / 16) + 0x18 ≤ a ∧ a < Reg.dieBase (g / 16) + 0x2000 → ilkRegs g a = false := fun a ha =>
      ilkRegs_of_grants hg (.inl ⟨g / 16, by omega, ha⟩)
    have hq : fld (cardWait card 0) 50 7 % 16 / 4 < 4 := by omega
    rw [kcore, hcore]
    refine ⟨rfl, rfl, rfl, ?_, ?_, ?_⟩
    · rw [kregs _ (hrange _ (by unfold Reg.cdFlagStatus; omega))]
      exact hbit
    · rw [State.f64_of_sameRegs kregs (hrange _ (by unfold Reg.cdFlagCount; omega)) (hrange _ (by unfold Reg.cdFlagCount; omega))]
      exact hcount
    · rw [kshape, hshape]

/-! ## A card whose issue signals -/

/-- The state in which a card has issued and its signals are to be given. -/
def State.issuedMute (s : State) (g card t : Nat) : State := ((s.unheld g t).setCore g (s.coreIssued g card t)).advanced g (s.seqPos g) card

theorem State.issued_eq (s : State) (g card t : Nat) :
    s.issued g (s.seqPos g) card t = (s.issuedMute g card t).giveSignals g card 0 t := rfl

theorem State.issuedMute_keeps (s : State) (g card t : Nat) : s.CoresOnly (s.issuedMute g card t) (issueRegs g)
    ∧ (s.issuedMute g card t).core g = s.coreIssued g card t ∧ ∀ h, h ≠ g → (s.issuedMute g card t).core h = s.core h := by
  obtain ⟨⟨hshape, hregs⟩, hother, -⟩ := s.firingsOnly_unheld g t
  have hwords := ((s.unheld g t).setCore g (s.coreIssued g card t)).wordsOnly_advanced g (s.seqPos g) card
  have hcore := hwords.core
  obtain ⟨hadvanced, hwritten⟩ := hwords
  refine ⟨⟨?_, (hregs.mono fun _ ha => issueRegs_of_words (.inl ha)).trans hwritten⟩, (hcore g).trans (State.core_setCore_same _ _ _),
    fun h hh => ((hcore h).trans (State.core_setCore_other _ _ _ _ hh)).trans (hother h hh)⟩
  change s.issuedMute g card t = _ at hadvanced
  rw [hadvanced, hshape]
  rfl

theorem nopCard_signals (hg : g < 128) (hready : s.Ready g card t) (hnum : (s.core g).Numbered) (hquiet1 : quietCard card 1)
    (hquiet3 : quietCard card 3) (hop : cardOp card = 0) (hwaits : ∀ i, i < 4 → waitValid (cardWait card i) = false)
    (hvalid : bitAt (cardSignal card 0) 63 = true) (hwhen : fld (cardSignal card 0) 61 2 = 0) (hnear : bitAt (cardSignal card 0) 60 = false)
    (hdie : fld (cardSignal card 0) 51 7 / 16 = g / 16) (hkind : fld (cardSignal card 0) 58 1 = 0)
    (hrest : ∀ i, 0 < i → i < 4 → bitAt (cardSignal card i) 63 = false) (hnew : (s.die (g / 16)).flagT ≠ t) :
    ∃ u, issueNop g t s = u ∧ (u.core g).seq = (s.core g).seq + 1
      ∧ (∀ k, u.flag k = if k = entryKey (fld (cardSignal card 0) 51 7) (fld (cardSignal card 0) 32 8)
          then fld (cardSignal card 0) 59 1 == 0 else s.flag k)
      ∧ u.ctrs = s.ctrs ∧ s.SameBytes u ∧ ∀ h, h ≠ g → u.core h = s.core h := by
  have hgrants : ∀ x : State, x.grantWaits card t [0, 1, 2, 3] = (x, none) := fun x =>
    x.grantWaits_none (fun i _ hi => hwaits i hi) (hwaits 0 (by decide))
  have hissue := State.tryIssue_of_granted hready
    (State.openWait_of_holds (fun i _ hi => hwaits i hi) fun h => absurd (h.symm.trans (hwaits 0 (by decide))) (by decide))
    (s.signalsFit_of_near hrest hnear hdie) (congrArg Prod.snd (hgrants _)) (hgrants s)
  obtain ⟨honly, hcore, hother⟩ := s.issuedMute_keeps g card t
  have hflagS : ∀ k, (s.issuedMute g card t).flag k = s.flag k := fun k => by
    unfold State.flag
    rw [honly.1]
  have hnewM : ((s.issuedMute g card t).die (g / 16)).flagT ≠ t := by
    unfold State.die
    rw [honly.1]
    exact hnew
  obtain ⟨hfiles, hflag⟩ := State.giveSignals_flag _ hwhen hvalid hrest hnear hdie hkind hnewM
  rw [s.issued_eq] at hissue
  generalize hx : (s.issuedMute g card t).giveSignals g card 0 t = x at hissue hfiles hflag
  have hxcore : x.core g = s.coreIssued g card t := (hfiles.core g).trans hcore
  have hflight : (x.core g).flight (s.flightIssued g card t).seq = some (s.flightIssued g card t) := by
    rw [hxcore]
    exact State.flight_coreIssued hnum
  have hplain : (s.flightIssued g card t).card = card := (s.card_flightIssued g card t hg).trans (State.resolveTargets_other _ (by omega))
  have hdone := State.completesNow_of_quiet (t := t) hflight rfl (by rw [hplain]; exact hquiet1) (by rw [hplain]; exact hquiet3)
  rw [s.seq_flightIssued g card t] at hdone
  have hexec : issueNop g t s = x.completeNow g (s.core g).seq t := by
    unfold issueNop
    rw [← hop, hissue]
  refine ⟨_, hexec, ?_, fun k => ?_, ?_, ?_, fun h hh => ?_⟩
  · rw [hdone.core, CoreState.completedNow_shape, hxcore, State.coreIssued, (CoreState.issuing_taken _ _ _ _ _).1, State.core_unheld]
  · have hkeep : (x.completeNow g (s.core g).seq t).flag k = x.flag k := by
      unfold State.flag
      rw [hdone.shape]
    rw [hkeep, hflag, hflagS]
  · rw [hdone.shape]
    exact hfiles.ctrs.trans (by rw [honly.1])
  · refine (honly.sameBytes.trans hfiles.sameBytes).trans ?_
    rw [hdone.shape]
    exact .of_mem rfl rfl
  · exact (hdone.other h hh).trans ((hfiles.core h).trans (hother h hh))

end

/-- Settles O30: the outcomes are those of the grant phase, of the evaluation phase and of the card's own signal. -/
theorem waitsConsumeBlockAndLoseGrants : Obligations.WaitsConsumeBlockAndLoseGrants := by
  unfold Obligations.WaitsConsumeBlockAndLoseGrants
  intro s d c g t card w hg hw hready hnum hop hquiet1 hquiet3 hrest
  subst hw
  have hg' : g < 128 := by omega
  have hd : g / 16 = d.val := by omega
  have hexec : exec (.nopCard d c t) s = .next (issueNop g t s) := by
    rw [hg]
    rfl
  refine ⟨fun hquiet hvalid hnew => ⟨fun hconsume hcond hset hlower => ?_, fun hconsume hcond hset hlower => ?_, fun hext hcond hset hblocked => ?_⟩,
    fun hvalid hconsume hcond heval hgranted hfit => ?_, fun hvalid hsig hwhen hnear hdie hkind hothers hnew => ?_⟩
  · have hholds : s.waitHolds (cardWait card 0) t = true := by
      simp only [State.waitHolds, hcond, if_true, s.evalFlag_new hnew, hset]
    have hgrant : s.waitGranted (cardWait card 0) t = true := by
      simp only [State.waitGranted, hcond, if_true, s.grantedFlag_new hnew, hset]
    have hconsumed : s.consume (cardWait card 0) t = s.consumeFlag (waitKey (cardWait card 0)) t := if_pos hcond
    obtain ⟨hfiles, hctrs, hflag⟩ := s.consumeFlag_first hnew
    obtain ⟨u, hu, hissued, hshape⟩ := nopCard_granted hg' hready hnum hquiet hquiet1 hquiet3 hop
      (State.openWait_of_holds hrest fun _ => hholds) hlower ((State.grantWaits_first hrest s hvalid hconsume).trans (if_pos hgrant))
      (hconsumed ▸ hfiles)
    rw [hconsumed] at hshape
    refine ⟨u, hexec.trans (congrArg _ hu), hissued, fun k => ?_, ?_, ?_⟩
    · rw [← hflag k]
      unfold State.flag
      rw [hshape]
    · rw [hshape]
      exact hctrs
    · rw [hshape, hfiles.1, hctrs]
  · have hholds : s.waitHolds (cardWait card 0) t = true := by
      simp only [State.waitHolds, hcond, s.evalCtr_new hnew, hset]
      rfl
    have hgrant : s.waitGranted (cardWait card 0) t = true := by
      simp only [State.waitGranted, hcond, s.grantedCtr_new hnew, hset]
      rfl
    have hconsumed : s.consume (cardWait card 0) t = s.consumeCtr (waitKey (cardWait card 0)) t (fld (cardWait card 0) 0 32) := by
      unfold State.consume
      rw [if_neg (by omega)]
    obtain ⟨hfiles, hflags, hctr⟩ := s.consumeCtr_first hnew (fld_lt (cardWait card 0) 0 32)
    obtain ⟨u, hu, hissued, hshape⟩ := nopCard_granted hg' hready hnum hquiet hquiet1 hquiet3 hop
      (State.openWait_of_holds hrest fun _ => hholds) hlower ((State.grantWaits_first hrest s hvalid hconsume).trans (if_pos hgrant))
      (hconsumed ▸ hfiles)
    rw [hconsumed] at hshape
    refine ⟨u, hexec.trans (congrArg _ hu), hissued, fun k => ?_, ?_, ?_⟩
    · rw [← hctr k]
      unfold State.ctr
      rw [hshape]
    · rw [hshape]
      exact hflags
    · rw [hshape, hfiles.1, hflags]
  · have hopen : s.waitHolds (cardWait card 0) t = false := by
      simp only [State.waitHolds, hcond, if_true, s.evalFlag_new hnew, hset]
    have hblock : issueNop g t s = s.setCore g { s.core g with blocked := some { kind := 0, slot := 0, since := s.engCycle d t } } := by
      unfold issueNop
      rw [← hop, State.tryIssue_of_openWait hready (State.openWait_of_open hvalid hext hopen), hop, ← hd, ← State.blockIssue_none hblocked]
    exact ⟨_, hexec.trans (congrArg _ hblock), s.core_setCore_same g _, fun h hh => s.core_setCore_other g h _ hh, rfl⟩
  · have hholds : s.waitHolds (cardWait card 0) t = true := by
      simp only [State.waitHolds, hcond, if_true, heval]
    have hlost : (s.grantWaits card t [0, 1, 2, 3]).2 = some 0 := by
      rw [State.grantWaits_first hrest s hvalid hconsume, if_neg]
      simp only [State.waitGranted, hcond, if_true, hgranted]
      decide
    have hlower : ((s.lowerGrants g t).grantWaits card t [0, 1, 2, 3]).2 = some 0
        ∨ ((s.lowerGrants g t).grantWaits card t [0, 1, 2, 3]).2 = none := by
      rw [State.grantWaits_first hrest _ hvalid hconsume]
      split_ifs
      · exact .inr rfl
      · exact .inl rfl
    have hstay : issueNop g t s = s.grantLost g card t := by
      unfold issueNop
      rw [← hop, State.tryIssue_of_lost hready (State.openWait_of_holds hrest fun _ => hholds) hfit hlower hlost]
    have hcounts := State.grantLost_counts (s := s) hg' card t
    rw [hd] at hcounts
    exact ⟨_, hexec.trans (congrArg _ hstay), hcounts⟩
  · have hwaits : ∀ i, i < 4 → waitValid (cardWait card i) = false := fun i hi => by
      obtain rfl | hpos := Nat.eq_zero_or_pos i
      · exact hvalid
      · exact hrest i hpos hi
    obtain ⟨u, hu, h⟩ := nopCard_signals hg' hready hnum hquiet1 hquiet3 hop hwaits hsig hwhen hnear (hdie.trans hd.symm) hkind hothers
      (by rw [hd]; exact hnew)
    exact ⟨u, hexec.trans (congrArg _ hu), h⟩

end Sys2Proof.Machine
end

/-! The numbers of the cards in flight (07_layer_cards.md R192, R198). -/

section

open Sys2Proof

namespace Sys2Proof.Machine

/-- The cards in flight of every core are numbered. -/
def State.AllNumbered (s : State) : Prop := ∀ g, (s.core g).Numbered

section

variable {s u : State} {g : Nat}

/-! ## What leaves the cores -/

theorem State.AllNumbered.of_cores (h : s.AllNumbered) (e : u.cores = s.cores) : u.AllNumbered := fun g => by
  rw [State.core_congr e g]
  exact h g

/-- A core that changes beside its cards in flight keeps them numbered. -/
theorem CoreState.Numbered.of_flights {c v : CoreState} (h : c.Numbered) (hflights : v.flights = c.flights) (hseq : v.seq = c.seq) : v.Numbered := by
  unfold CoreState.Numbered
  rw [hflights, hseq]
  exact h

theorem State.AllNumbered.setCore (h : s.AllNumbered) {v : CoreState} (hv : v.Numbered) : (s.setCore g v).AllNumbered := fun k => by
  by_cases hk : k = g
  · rw [hk, State.core_setCore_same]
    exact hv
  · rw [State.core_setCore_other _ _ _ _ hk]
    exact h k

theorem State.AllNumbered.of_words {f : Nat → Bool} (h : s.AllNumbered) (hu : s.WordsOnly u f) : u.AllNumbered := h.of_cores (by rw [hu.1])

theorem State.AllNumbered.setFlight (h : s.AllNumbered) (f : Flight) : (s.setFlight g f).AllNumbered :=
  h.setCore (CoreState.numbered_setFlight (h g) f)

theorem State.AllNumbered.of_firings (h : s.AllNumbered) (hu : s.FiringsOnly u g) : u.AllNumbered := fun k => by
  obtain ⟨-, hother, hcore⟩ := hu
  by_cases hk : k = g
  · rw [hk, hcore]
    exact h g
  · rw [hother k hk]
    exact h k

theorem State.cores_flagCycle (s : State) (d t : Nat) : (s.flagCycle d t).cores = s.cores := by
  rw [(s.filesOnly_flagCycle d t).1.1]

theorem State.cores_setFlagCell (s : State) (k : Nat) (x : FlagCell) : (s.setFlagCell k x).cores = s.cores := by
  rw [(s.setFlagCell_keeps k x).1]

theorem State.cores_consume (s : State) (w t : Nat) : (s.consume w t).cores = s.cores := by
  unfold State.consume State.consumeFlag State.consumeCtr
  split_ifs
  · exact (State.cores_setFlagCell _ _ _).trans (s.cores_flagCycle _ t)
  · exact s.cores_flagCycle _ t

theorem State.cores_grantWaits (s : State) (card t : Nat) (l : List Nat) : (s.grantWaits card t l).1.cores = s.cores := by
  induction l generalizing s with
  | nil => rfl
  | cons i l ih =>
    unfold State.grantWaits
    extract_lets w
    split_ifs
    · exact ih s
    · exact (ih _).trans (s.cores_consume w t)
    · rfl

theorem State.cores_signalHere (s : State) (k kind op value t : Nat) : (s.signalHere k kind op value t).cores = s.cores := by
  unfold State.signalHere State.updFlag State.addCtr
  dsimp only
  split
  · exact (State.cores_setFlagCell _ _ _).trans (s.cores_flagCycle _ t)
  · exact s.cores_flagCycle _ t

theorem State.cores_giveSignal (s : State) (g sig t : Nat) : (s.giveSignal g sig t).cores = s.cores := by
  unfold State.giveSignal
  dsimp only
  split
  · exact s.cores_signalHere _ _ _ _ t
  · unfold State.routeMsg
    rw [s.linkOnly_sendMsg]

theorem State.cores_giveSignals (s : State) (g card when' t : Nat) : (s.giveSignals g card when' t).cores = s.cores :=
  List.foldlRecOn (List.range 4) _ (motive := fun u : State => u.cores = s.cores) rfl fun u hu i _ => by
    dsimp only
    split_ifs
    · exact (u.cores_giveSignal g _ t).trans hu
    · exact hu

/-! ## Issue -/

theorem State.AllNumbered.issued (h : s.AllNumbered) (g pos card t : Nat) : (s.issued g pos card t).AllNumbered := by
  have hy := h.of_firings (s.firingsOnly_unblock g pos (s.engCycle (g / 16) t))
  generalize hz : s.unblock g pos (s.engCycle (g / 16) t) = y at hy
  have hissue : s.issued g pos card t
      = ((y.setCore g ((y.core g).issuing (y.nextFlight (s.ownerN g) g pos card (s.engCycle (g / 16) t)) (y.nextAsks g pos (s.engCycle (g / 16) t))
          card (s.engCycle (g / 16) t))).advanced g pos card).giveSignals g card 0 t := by
    rw [← hz]
    rfl
  rw [hissue]
  exact ((hy.setCore (CoreState.numbered_issuing (hy g) rfl _ _ _)).of_words (State.wordsOnly_advanced _ g pos card)).of_cores
    (State.cores_giveSignals _ g card 0 t)

theorem State.AllNumbered.blockIssue (h : s.AllNumbered) (g kind slot cyc : Nat) : (s.blockIssue g kind slot cyc).AllNumbered := fun k => by
  obtain ⟨-, hother, hcore⟩ := s.blockIssue_keeps g kind slot cyc
  by_cases hk : k = g
  · rw [hk, hcore]
    exact h g
  · rw [hother k hk]
    exact h k

/-- Whatever becomes of the next card, the cards in flight are numbered. -/
theorem State.AllNumbered.tryIssue (h : s.AllNumbered) (g op t : Nat) : (s.tryIssue g op t).1.AllNumbered := by
  have hblock : ∀ (b : Bool) k i, (if b = true then s.blockIssue g k i (s.engCycle (g / 16) t) else s).AllNumbered := fun b k i => by
    split_ifs
    · exact h.blockIssue g k i _
    · exact h
  have hlost : ∀ (b : Bool) w i, (if b = true then s.contested g w else (s.contested g w).blockIssue g 0 i (s.engCycle (g / 16) t)).AllNumbered :=
    fun b w i => by
      have hw := h.of_words (s.wordsOnly_contested g w)
      split_ifs
      · exact hw
      · exact hw.blockIssue g 0 i _
  unfold State.tryIssue
  extract_lets cyc c pos inQueue card fence
  split
  · exact h
  split
  · exact hblock inQueue 0 _
  split
  · exact hblock inQueue 5 0
  split
  · exact h
  split
  · exact h.setCore ((h g).of_flights rfl rfl)
  split
  · exact hlost _ _ _
  split
  · rename_i y hy
    have hcores := s.cores_grantWaits card t [0, 1, 2, 3]
    rw [hy] at hcores
    exact (h.of_cores hcores).issued g pos card t
  · exact hlost _ _ _

/-! ## Completion -/

theorem State.AllNumbered.fullyComplete (h : s.AllNumbered) (g seq cyc t : Nat) : (s.fullyComplete g seq cyc t).AllNumbered := by
  unfold State.fullyComplete
  split
  · exact h
  · rename_i f _
    extract_lets x y c z
    have hy : y.AllNumbered := (h.setFlight (g := g) { f with fullAt := some cyc }).of_cores (State.cores_giveSignals _ g f.card 3 t)
    have hz : z.AllNumbered := by
      change State.AllNumbered (if _ then _ else _)
      split_ifs
      · exact hy
      · exact hy.setCore ((hy g).of_flights rfl rfl)
    exact hz.of_words (z.wordsOnly_captureDigest g f)

theorem State.AllNumbered.locallyComplete (h : s.AllNumbered) (g seq cyc t : Nat) : (s.locallyComplete g seq cyc t).AllNumbered := by
  unfold State.locallyComplete
  split
  · exact h
  · rename_i f _
    extract_lets x y
    have hy : y.AllNumbered := (h.setFlight (g := g) { f with localAt := some cyc }).of_cores (State.cores_giveSignals _ g f.card 1 t)
    split_ifs
    · exact hy.fullyComplete g seq cyc t
    · exact hy

/-! ## The sequencer's commands -/

theorem State.AllNumbered.cardFetch (h : s.AllNumbered) (g t : Nat) : (cardFetch g t s).AllNumbered := by
  unfold Machine.cardFetch
  extract_lets d cyc c stall n
  split
  · exact h
  · extract_lets hop late addrs card x
    split_ifs
    · exact h
    · have hx : x.AllNumbered := fun k => by
        rw [(State.checksOnly_checkBounds _ t n false addrs).core k]
        revert k
        exact h.setCore ((h g).of_flights rfl rfl)
      exact hx.of_words (x.wordsOnly_count64 _ _ _ _)

/-- A card that issues and completes in its cycle, or does not issue. -/
theorem State.AllNumbered.issueNop (h : s.AllNumbered) (g t : Nat) : (issueNop g t s).AllNumbered := by
  have htry := h.tryIssue g 0 t
  unfold Machine.issueNop
  split
  · rename_i x pos q card hx
    rw [hx] at htry
    exact htry.locallyComplete g q _ t
  · rename_i x hx
    rw [hx] at htry
    exact htry

theorem State.AllNumbered.issueDigest (h : s.AllNumbered) (g t : Nat) : (issueDigest g t s).AllNumbered := by
  have htry := h.tryIssue g 6 t
  unfold Machine.issueDigest
  split
  · rename_i x pos q card hx
    rw [hx] at htry
    have hfold : ((x.core g).foldDigest pos card (x.gen (x.ownerN g))).Numbered := by
      rw [CoreState.foldDigest_shape]
      exact (htry g).of_flights rfl rfl
    exact (htry.setCore hfold).locallyComplete g q _ t
  · rename_i x hx
    rw [hx] at htry
    exact htry

theorem State.AllNumbered.issueHourMark (h : s.AllNumbered) (g t : Nat) : (issueHourMark g t s).AllNumbered := by
  have htry := h.tryIssue g 7 t
  unfold Machine.issueHourMark
  split
  · rename_i x pos q card hx
    rw [hx] at htry
    extract_lets step core a ctl b c z
    have ha : a.AllNumbered := htry.setCore ((htry g).of_flights rfl rfl)
    have hb : b.AllNumbered := by
      change State.AllNumbered (if _ then _ else _)
      split_ifs
      · exact ha.of_words (a.wordsOnly_sf64 _ _ _ _)
      · exact ha
    have hc : c.AllNumbered := by
      change State.AllNumbered (match (b.core g).flight q with | some f => b.setFlight g { f with step := step } | none => b)
      split
      · exact hb.setFlight _
      · exact hb
    have hz : z.AllNumbered := hc.locallyComplete g q _ t
    clear_value z
    split
    · refine State.AllNumbered.of_words ?_ (State.wordsOnly_setSeqState _ g 2)
      exact hz.setCore ((hz g).of_flights rfl rfl)
    · exact hz
  · rename_i x hx
    rw [hx] at htry
    exact htry

theorem State.AllNumbered.cardLocalCompletion (h : s.AllNumbered) (g pos t : Nat) : (cardLocalCompletion g pos t s).AllNumbered := by
  unfold Machine.cardLocalCompletion
  extract_lets d c
  split
  · exact h
  · split_ifs
    · exact h
    · exact h.locallyComplete g _ _ t

end

/-- Settles O32: no core has a card in flight at reset, and each command of the sequencer keeps the cards numbered. -/
theorem cardsKeepRisingNumbers : Obligations.CardsKeepRisingNumbers := by
  unfold Obligations.CardsKeepRisingNumbers
  refine ⟨fun g => ⟨List.Pairwise.nil, fun f hf => absurd hf List.not_mem_nil⟩, fun s d c t pos up hnum i hi => ?_⟩
  have h : s.AllNumbered := hnum
  have hunit : ∀ op, (issueUnit op (16 * d + c) t s).AllNumbered := fun op => h.tryIssue _ op t
  simp only [List.mem_cons, List.not_mem_nil, or_false] at hi
  obtain rfl | rfl | rfl | rfl | rfl | rfl | rfl | rfl | rfl | rfl := hi
  · exact ⟨_, rfl, State.AllNumbered.cardFetch (s := s.upset up) (h.of_cores rfl) _ t⟩
  · exact ⟨_, rfl, h.issueNop _ t⟩
  · exact ⟨_, rfl, hunit 1⟩
  · exact ⟨_, rfl, hunit 2⟩
  · exact ⟨_, rfl, hunit 3⟩
  · exact ⟨_, rfl, hunit 4⟩
  · exact ⟨_, rfl, hunit 5⟩
  · exact ⟨_, rfl, h.issueDigest _ t⟩
  · exact ⟨_, rfl, h.issueHourMark _ t⟩
  · exact ⟨_, rfl, h.cardLocalCompletion _ pos t⟩

end Sys2Proof.Machine
end

/-! START and patch sets (07_layer_cards.md R185, R212; 14_model_images_and_loading.md R369; 15_serving_engine.md R380 to R383). -/

section

open Sys2Proof

namespace Sys2Proof.Machine

/-! ## Bytes that are written -/

/-- Nothing but the bytes that `f` names, and the marks of their words, differs. -/
def State.BytesOnly (s t : State) (f : Nat → Prop) : Prop :=
  t = { s with mem := t.mem, poison := t.poison, selfErr := t.selfErr, soft := t.soft } ∧ ∀ x, ¬ f x → t.rdByte x = s.rdByte x

section

variable {s t u : State} {f k : Nat → Prop}

theorem State.BytesOnly.refl (s : State) (f : Nat → Prop) : s.BytesOnly s f := ⟨rfl, fun _ _ => rfl⟩

theorem State.BytesOnly.trans (h : s.BytesOnly t f) (g : t.BytesOnly u f) : s.BytesOnly u f := by
  obtain ⟨hshape, hbytes⟩ := h
  obtain ⟨gshape, gbytes⟩ := g
  refine ⟨?_, fun x hx => (gbytes x hx).trans (hbytes x hx)⟩
  rw [gshape, hshape]

theorem State.BytesOnly.mono (h : s.BytesOnly t f) (hf : ∀ x, f x → k x) : s.BytesOnly t k := ⟨h.1, fun x hx => h.2 x fun hfx => hx (hf x hfx)⟩

theorem State.BytesOnly.regs (h : s.BytesOnly t f) : t.regs = s.regs := by rw [h.1]

theorem State.BytesOnly.foldl {α : Type} {g : State → α → State} (l : List α)
    (hg : ∀ (u : State) x, x ∈ l → s.BytesOnly u f → u.BytesOnly (g u x) f) : s.BytesOnly (l.foldl g s) f :=
  List.foldlRecOn l g (motive := fun u => s.BytesOnly u f) (.refl s f) fun u hu x hx => hu.trans (hg u x hx hu)

theorem State.bytesOnly_store (s : State) (a : Nat) (b : List Byte) : s.BytesOnly (s.store a b) (fun x => a ≤ x ∧ x < a + b.length) := by
  refine ⟨?_, fun x hx => s.rdByte_store_other a b x (by omega)⟩
  unfold State.store State.rewritten
  rw [State.setPoisonWords_shape, State.wrBytes_shape]

/-- A byte of a store reads back. -/
theorem State.rdByte_store_same (s : State) (a : Nat) (b : List Byte) (i : Nat) (h : i < b.length) : (s.store a b).rdByte (a + i) = b[i] := by
  simp only [State.store, State.rdByte_setPoisonWords, State.rdByte_rewritten]
  exact s.rdByte_wrBytes_same a b i h

end

/-! ## The records of a step without requests (R382) -/

section

variable (s : State) (n : Nat)

/-- The bytes at a program-relative offset on the dies that partition `n` uses. -/
def State.onDies (off len x : Nat) : Prop := ∃ e, e ∈ s.diesOf n ∧ s.shmAddr n e off ≤ x ∧ x < s.shmAddr n e off + len

variable {s n}

theorem State.shmAddr_add (e off i : Nat) : s.shmAddr n e (off + i) = s.shmAddr n e off + i := by
  unfold State.shmAddr
  omega

/-- Where a partition's memory lies depends on registers alone. -/
theorem State.shmAddr_of_regs {t : State} (h : t.regs = s.regs) (e off : Nat) : t.shmAddr n e off = s.shmAddr n e off := by
  unfold State.shmAddr State.levelBase
  simp only [s.f64_congr t h]

theorem State.diesOf_of_regs {t : State} (h : t.regs = s.regs) : t.diesOf n = s.diesOf n := by
  unfold State.diesOf State.hasCoreOn State.members
  rw [State.rWide_congr s t _ 4 fun b _ _ => State.r32_congr s t h b]

theorem State.lcs_of_regs {t : State} (h : t.regs = s.regs) : t.lcs n = s.lcs n := by
  unfold State.lcs State.members
  rw [State.rWide_congr s t _ 4 fun b _ _ => State.r32_congr s t h b]

theorem State.stream_of_regs {t : State} (h : t.regs = s.regs) (g : Nat) : t.streamLen g = s.streamLen g ∧ t.cardAddr g 0 = s.cardAddr g 0 := by
  unfold State.streamLen State.cardAddr
  rw [s.f64_congr t h, s.f64_congr t h]
  exact ⟨rfl, rfl⟩

theorem State.BytesOnly.shmAddr {t : State} {f : Nat → Prop} (h : s.BytesOnly t f) (e off : Nat) : t.shmAddr n e off = s.shmAddr n e off :=
  State.shmAddr_of_regs h.regs e off

theorem State.BytesOnly.diesOf {t : State} {f : Nat → Prop} (h : s.BytesOnly t f) : t.diesOf n = s.diesOf n := State.diesOf_of_regs h.regs

theorem State.bytesOnly_storeAll (off : Nat) (b : List Byte) : s.BytesOnly (s.storeAll n off b) (s.onDies n off b.length) := by
  refine .foldl _ fun u e he hu => ?_
  rw [hu.shmAddr]
  exact (u.bytesOnly_store _ b).mono fun x hx => ⟨e, he, hx⟩

/-- Records of one size, written one behind the other. -/
theorem State.bytesOnly_storeRecords {off size count : Nat} {b : List Byte} (hb : b.length ≤ size) :
    s.BytesOnly ((List.range count).foldl (fun u i => u.storeAll n (off + size * i) b) s) (s.onDies n off (size * count)) := by
  refine .foldl _ fun u i hi hu => (State.bytesOnly_storeAll _ b).mono fun x hx => ?_
  obtain ⟨e, he, hlow, hhigh⟩ := hx
  rw [hu.diesOf] at he
  rw [hu.shmAddr, State.shmAddr_add] at hlow hhigh
  have hend : size * i + size ≤ size * count := by
    rw [← Nat.mul_succ]
    exact Nat.mul_le_mul_left size (List.mem_range.1 hi)
  exact ⟨e, he, by omega, by omega⟩

theorem State.writeRecords_nil (v : Serve) : s.writeRecords n v [] =
    (List.range v.rows).foldl (fun u i => u.storeAll n (v.prefillArea + 16 * i) (prefillRecord none))
      ((List.range v.slots).foldl (fun u i => u.storeAll n (v.slotArea + 64 * i) (slotRecord none 0)) s) := rfl

/-- The records of a step without requests are written in their two areas. -/
theorem State.bytesOnly_writeRecords_nil (v : Serve) : s.BytesOnly (s.writeRecords n v [])
    (fun x => s.onDies n v.slotArea (64 * v.slots) x ∨ s.onDies n v.prefillArea (16 * v.rows) x) := by
  rw [State.writeRecords_nil]
  have hslots := s.bytesOnly_storeRecords (n := n) (off := v.slotArea) (size := 64) (count := v.slots) (b := slotRecord none 0) (by decide)
  refine (hslots.mono fun x hx => .inl hx).trans
    ((State.bytesOnly_storeRecords (size := 16) (b := prefillRecord none) (by decide)).mono fun x hx => .inr ?_)
  obtain ⟨e, he, hrange⟩ := hx
  rw [hslots.diesOf] at he
  rw [hslots.shmAddr] at hrange
  exact ⟨e, he, hrange⟩

/-! ## STEP of card 0 of every stream (R383) -/

/-- The bytes of STEP of card 0 of partition `n`'s streams. -/
def State.stepBytes (s : State) (n x : Nat) : Prop := ∃ g, g ∈ s.lcs n ∧ s.streamLen g ≠ 0 ∧ s.cardAddr g 0 + 208 ≤ x ∧ x < s.cardAddr g 0 + 212

theorem State.rdByte_store_zero {a x : Nat} (h : s.rdByte x = 0 ∨ a ≤ x ∧ x < a + 4) : (s.store a (leBytes 4 0)).rdByte x = 0 := by
  by_cases hx : a ≤ x ∧ x < a + 4
  · have hzero : ∀ i (hi : i < (leBytes 4 0).length), (leBytes 4 0)[i] = 0 := by decide
    have hi : x - a < (leBytes 4 0).length := by
      rw [length_leBytes]
      omega
    rw [← hzero (x - a) hi, ← s.rdByte_store_same a _ _ hi, Nat.add_sub_cancel' hx.1]
  · rw [s.rdByte_store_other a _ x (by rw [length_leBytes]; omega)]
    exact h.resolve_right hx

/-- One stream of a step 0. -/
theorem State.stepStored {u : State} {g : Nat} (hu : s.BytesOnly u (s.stepBytes n)) (hg : g ∈ s.lcs n) :
    u.BytesOnly (if u.streamLen g = 0 then u else u.store (u.cardAddr g 0 + 208) (leBytes 4 0)) (s.stepBytes n)
      ∧ ∀ x, (u.rdByte x = 0 ∨ s.streamLen g ≠ 0 ∧ s.cardAddr g 0 + 208 ≤ x ∧ x < s.cardAddr g 0 + 212) →
        (if u.streamLen g = 0 then u else u.store (u.cardAddr g 0 + 208) (leBytes 4 0)).rdByte x = 0 := by
  obtain ⟨hlen, haddr⟩ := State.stream_of_regs hu.regs g
  rw [hlen, haddr]
  split_ifs with hno
  · exact ⟨.refl u _, fun x hx => hx.resolve_right fun h => h.1 hno⟩
  · refine ⟨(u.bytesOnly_store _ _).mono fun x hx => ⟨g, hg, hno, hx.1, ?_⟩, fun x hx => State.rdByte_store_zero (hx.imp_right fun h => ?_)⟩
    · rw [length_leBytes] at hx
      omega
    · omega

theorem State.patchStep_zero : s.BytesOnly (s.patchStep n 0) (s.stepBytes n) ∧ ∀ x, s.stepBytes n x → (s.patchStep n 0).rdByte x = 0 := by
  have hfold : ∀ (l : List Nat), (∀ g, g ∈ l → g ∈ s.lcs n) → ∀ u : State, s.BytesOnly u (s.stepBytes n) →
      s.BytesOnly (l.foldl (fun u g => if u.streamLen g = 0 then u else u.store (u.cardAddr g 0 + 208) (leBytes 4 0)) u) (s.stepBytes n)
        ∧ ∀ x, (u.rdByte x = 0 ∨ ∃ g, g ∈ l ∧ s.streamLen g ≠ 0 ∧ s.cardAddr g 0 + 208 ≤ x ∧ x < s.cardAddr g 0 + 212) →
          (l.foldl (fun u g => if u.streamLen g = 0 then u else u.store (u.cardAddr g 0 + 208) (leBytes 4 0)) u).rdByte x = 0 := fun l => by
    induction l with
    | nil => exact fun _ u hu => ⟨hu, fun x hx => hx.resolve_right fun ⟨g, hg, _⟩ => absurd hg List.not_mem_nil⟩
    | cons g l ih =>
      intro hl u hu
      obtain ⟨honly, hzero⟩ := State.stepStored hu (hl g List.mem_cons_self)
      obtain ⟨ihonly, ihzero⟩ := ih (fun x hx => hl x (List.mem_cons_of_mem g hx)) _ (hu.trans honly)
      refine ⟨ihonly, fun x hx => ihzero x ?_⟩
      obtain hx | ⟨k, hk, hrange⟩ := hx
      · exact .inl (hzero x (.inl hx))
      · obtain rfl | hk := List.mem_cons.1 hk
        · exact .inl (hzero x (.inr hrange))
        · exact .inr ⟨k, hk, hrange⟩
  obtain ⟨honly, hzero⟩ := hfold (s.lcs n) (fun _ h => h) s (.refl s _)
  exact ⟨honly, fun x hx => hzero x (.inr hx)⟩

/-! ## START (R369, R380) -/

/-- Partition `n` with its START recorded for its Hour. -/
def State.startRecorded (s : State) (n : Nat) (d : Desc) : PartState :=
  { s.part n with startCmd := some d.cmdId, startAt := if d.f 24 8 ≤ s.hourCount then 0 else d.f 24 8 }

/-- The serving partition that a START reads, with its prefix key drawn (log entry 4). -/
def State.keyed (s : State) (v : Serve) : Serve := { v with key0 := s.freeNat 64, key1 := s.drawn.freeNat 64 }

/-- The state in which the serving partition `v` has its records written for a step without requests. -/
def State.served (s : State) (n : Nat) (v : Serve) : State := ((s.drawn.drawn.setServe n (some v)).writeRecords n v []).patchStep n 0

variable {d : Desc} (hz : d.zero 8 24 = true) (hz' : d.zero 32 64 = true) (hstate : s.pstate n = 2) (hidle : (s.part n).startCmd = none)

include hz hz' hstate hidle

theorem startPart_plain (h : s.servingTable n = none) : startPart n d s = (s.setServe n none).setPart n (s.startRecorded n d) := by
  unfold startPart
  simp only [hz, hz', hstate, hidle, h]
  rfl

theorem startPart_badTable (h : s.servingTable n = some none) : startPart n d s = s.complete (n + 1) d.cmdId 0x46 0 0 := by
  unfold startPart
  simp only [hz, hz', hstate, hidle, h]
  rfl

theorem startPart_table {v : Serve} (h : s.servingTable n = some (some v)) :
    startPart n d s = (s.served n (s.keyed v)).setPart n
      { s.part n with startCmd := some d.cmdId, startAt := if d.f 24 8 ≤ (s.served n (s.keyed v)).hourCount then 0 else d.f 24 8 } := by
  unfold startPart
  simp only [hz, hz', hstate, hidle, h]
  rfl

end

section

variable {s : State} {n : Nat}

theorem State.onDies_of_regs {t : State} (h : t.regs = s.regs) (off len x : Nat) : t.onDies n off len x ↔ s.onDies n off len x := by
  unfold State.onDies
  simp only [State.diesOf_of_regs h, State.shmAddr_of_regs h]

theorem State.stepBytes_of_regs {t : State} (h : t.regs = s.regs) (x : Nat) : t.stepBytes n x ↔ s.stepBytes n x := by
  unfold State.stepBytes
  simp only [State.stream_of_regs h, State.lcs_of_regs h]

/-- What the records of a START without requests leave. -/
theorem State.served_effect (v : Serve) : (s.drawn.drawn.setServe n (some v)).BytesOnly (s.served n v)
      (fun x => (s.onDies n v.slotArea (64 * v.slots) x ∨ s.onDies n v.prefillArea (16 * v.rows) x) ∨ s.stepBytes n x)
    ∧ ∀ x, s.stepBytes n x → (s.served n v).rdByte x = 0 := by
  unfold State.served
  generalize hz : s.drawn.drawn.setServe n (some v) = z
  have hregs : z.regs = s.regs := by rw [← hz]; rfl
  have hwrite := z.bytesOnly_writeRecords_nil (n := n) v
  generalize z.writeRecords n v [] = w at hwrite
  obtain ⟨honly, hzero⟩ := w.patchStep_zero (n := n)
  have hstep := fun x => w.stepBytes_of_regs (n := n) (s := s) (hwrite.regs.trans hregs) x
  refine ⟨(hwrite.mono fun x hx => .inl ?_).trans (honly.mono fun x hx => .inr ((hstep x).1 hx)), fun x hx => hzero x ((hstep x).2 hx)⟩
  rw [State.onDies_of_regs hregs, State.onDies_of_regs hregs] at hx
  exact hx

theorem State.freeNat_lt (s : State) (w : Nat) : s.freeNat w < 2 ^ w := Nat.mod_lt _ (Nat.two_pow_pos w)

theorem State.serve_setServe_same (s : State) (n : Nat) (v : Option Serve) : (s.setServe n v).serve n = v := Tab.get_put_same _ _ _ _

theorem State.serve_setServe_other (s : State) {n m : Nat} (h : m ≠ n) (v : Option Serve) : (s.setServe n v).serve m = s.serve m :=
  Tab.get_put_other _ _ _ _ _ h

/-- A byte outside an area of every die that the partition uses. -/
theorem State.not_onDies {off len x : Nat} (h : ∀ e, e ∈ s.diesOf n → x < s.shmAddr n e off ∨ s.shmAddr n e (off + len) ≤ x) :
    ¬ s.onDies n off len x := fun ⟨e, he, hlow, hhigh⟩ => by
  have := h e he
  rw [State.shmAddr_add] at this
  omega

/-! ## Patch sets (R212, R346) -/

theorem patchSet_waits {d : Desc} {b : List Byte} (h1 : 1 ≤ d.f 16 2) (h2 : d.f 16 2 ≤ 1024) (hz : d.zero 18 24 = true) (hz' : d.zero 32 64 = true)
    (hal : d.f 8 8 % 16 = 0) (hend : d.f 8 8 + 16 * d.f 16 2 ≤ 2 ^ 64) (hstate : 2 ≤ s.pstate n) :
    patchSet n d (.bytes b) s = { s with host := { s.host with patches := s.host.patches ++
      [⟨n + 1, d.cmdId, if d.f 24 8 ≤ s.hourCount then s.hourCount + 1 else d.f 24 8, patchEntries b (d.f 16 2), s.hourCount⟩] } } := by
  unfold patchSet
  simp only [hz, hz', hal]
  rw [if_neg (by simp; omega), if_neg (by omega), if_neg (by omega)]

/-- The oldest overdue patch set of a partition is told that it timed out. -/
theorem patchTimeout_tells {p : PatchSet} (hp : s.host.patches.find? (fun p => p.rid == n + 1 && decide (p.target + 4096 ≤ s.hourCount)) = some p)
    (htell : s.CanTell (n + 1)) (hid : p.cmdId < 2 ^ 32) :
    s.Told (patchTimeout n s) (n + 1) p.cmdId 0x62 0 0 ∧ (patchTimeout n s).host.patches = s.host.patches.erase p
      ∧ s.TellsOnly (patchTimeout n s) ∧ s.SameRegsBut (patchTimeout n s) toldRegs := by
  have hrid : p.rid = n + 1 := by
    have := List.find?_some hp
    simp only [Bool.and_eq_true, beq_iff_eq] at this
    exact this.1
  have heq : patchTimeout n s = ({ s with host := { s.host with patches := s.host.patches.erase p } }).complete (n + 1) p.cmdId 0x62 0 0 := by
    unfold patchTimeout
    rw [hp, ← hrid]
  rw [heq]
  generalize hu : ({ s with host := { s.host with patches := s.host.patches.erase p } } : State) = u
  have hrings : u.host.rings = s.host.rings := by rw [← hu]
  have htold := u.told_complete (n + 1) p.cmdId 0x62 0 0 (htell.of_rings hrings) (Nat.ne_of_lt hid)
  obtain ⟨r, o, k, e⟩ := u.complete_host (n + 1) p.cmdId 0x62 0 0
  refine ⟨?_, ?_, ?_, ?_⟩
  · subst hu
    exact htold
  · rw [e, ← hu]
  · rw [e, ← hu]
    rfl
  · exact State.SameRegsBut.trans (.of_regs (by rw [← hu])) (u.sameRegs_complete (n + 1) p.cmdId 0x62 0 0)

end

end Sys2Proof.Machine
end

/-! A partition that returns to LOADED (07_layer_cards.md R185; 14_model_images_and_loading.md R369; 15_serving_engine.md R406). -/

section

open Sys2Proof

namespace Sys2Proof.Machine

/-! ## Completions told one after another -/

/-- A ring of which the same can be told. -/
def Ring.Like (x y : Ring) : Prop := y.live = x.live ∧ y.base = x.base ∧ y.cq = x.cq ∧ y.error = x.error

theorem Ring.Like.refl (x : Ring) : x.Like x := ⟨rfl, rfl, rfl, rfl⟩

theorem Ring.Like.trans {x y z : Ring} (h : x.Like y) (k : y.Like z) : x.Like z := by
  obtain ⟨h1, h2, h3, h4⟩ := h
  obtain ⟨k1, k2, k3, k4⟩ := k
  exact ⟨k1.trans h1, k2.trans h2, k3.trans h3, k4.trans h4⟩

theorem Ring.like_wrote (x : Ring) : x.Like x.wrote := by
  unfold Ring.wrote
  split_ifs
  · exact ⟨rfl, rfl, rfl, rfl⟩
  · exact ⟨rfl, rfl, rfl, rfl⟩

/-- Memory stays, what has been sent stays sent, and of every ring the same can be told. -/
structure State.Replies (s t : State) : Prop where
  mem : t.mem = s.mem
  poison : t.poison = s.poison
  ring : ∀ q, (s.ring q).Like (t.ring q)
  out : ∀ o, o ∈ s.out → o ∈ t.out

section

variable {s t u : State}

theorem State.Replies.refl (s : State) : s.Replies s := ⟨rfl, rfl, fun _ => .refl _, fun _ ho => ho⟩

theorem State.Replies.trans (h : s.Replies t) (k : t.Replies u) : s.Replies u :=
  ⟨k.mem.trans h.mem, k.poison.trans h.poison, fun q => (h.ring q).trans (k.ring q), fun o ho => k.out o (h.out o ho)⟩

theorem State.Replies.of_host (hmem : t.mem = s.mem) (hpoison : t.poison = s.poison) (hhost : t.host = s.host) (hout : t.out = s.out) : s.Replies t :=
  ⟨hmem, hpoison, fun q => by unfold State.ring; rw [hhost]; exact .refl _, fun o ho => by rw [hout]; exact ho⟩

theorem State.Replies.sameBytes (h : s.Replies t) : s.SameBytes t := .of_mem h.mem h.poison

theorem State.like_setRing {rid : Nat} {v : Ring} (h : (s.ring rid).Like v) (q : Nat) : (s.ring q).Like ((s.setRing rid v).ring q) := by
  rw [State.ring_setRing]
  split_ifs with hq
  · exact hq ▸ h
  · exact .refl _

theorem State.like_announce (s : State) (rid q : Nat) : (s.ring q).Like ((s.announce rid).ring q) := by
  unfold State.announce
  dsimp only
  split_ifs
  · exact State.like_setRing (by exact ⟨rfl, rfl, rfl, rfl⟩) q
  · rw [State.ring_sendVector]
    exact State.like_setRing (by exact ⟨rfl, rfl, rfl, rfl⟩) q

theorem State.like_writeCompl (s : State) (cq q : Nat) (c : Compl) : (s.ring q).Like ((s.writeCompl cq c).ring q) := by
  unfold State.writeCompl
  dsimp only
  split_ifs
  · exact State.like_setRing (by exact ⟨rfl, rfl, rfl, rfl⟩) q
  · exact (State.like_setRing (s := s.emit _) (Ring.like_wrote _) q).trans (State.like_announce _ cq q)

theorem State.replies_complete (s : State) (rid cmdId status r0 r1 : Nat) : s.Replies (s.complete rid cmdId status r0 r1) := by
  obtain ⟨r, o, k, e⟩ := s.complete_host rid cmdId status r0 r1
  refine ⟨by rw [e], by rw [e], fun q => ?_, fun x hx => ?_⟩
  · unfold State.complete
    dsimp only
    split_ifs
    · exact .refl _
    · exact (State.like_setRing (by exact ⟨rfl, rfl, rfl, rfl⟩) q).trans (State.like_writeCompl _ _ q _)
    · exact State.like_setRing (by exact ⟨rfl, rfl, rfl, rfl⟩) q
  · rw [e]
    exact List.mem_append_left o hx

theorem State.Replies.cqOf (h : s.Replies t) (rid : Nat) : t.cqOf rid = s.cqOf rid := by
  unfold State.cqOf
  rw [(h.ring rid).2.2.1]

theorem State.Replies.canTell (h : s.Replies t) {rid : Nat} (htell : s.CanTell rid) : t.CanTell rid := by
  obtain ⟨hlive, hcq, herror, hne⟩ := htell
  unfold State.CanTell
  rw [h.cqOf, (h.ring rid).1, (h.ring (s.cqOf rid)).1, (h.ring (s.cqOf rid)).2.2.2]
  exact ⟨hlive, hcq, herror, hne⟩

/-- A completion told on the way from `s` to `t` stands among what `t` has sent. -/
theorem State.Replies.tells {rid id status r0 r1 : Nat} (h : s.Replies u) (k : (u.complete rid id status r0 r1).Replies t) (htell : s.CanTell rid)
    (hid : id < 2 ^ 32) : ∃ k e, Output.hostWrite ((s.ring (s.cqOf rid)).base + 32 * k) 32 e ∈ t.out ∧ fld e 0 32 = id ∧ fld e 32 8 = status % 2 ^ 8
      ∧ fld e 40 8 = rid % 2 ^ 8 ∧ fld e 128 64 = r0 % 2 ^ 64 := by
  obtain ⟨e, hmem, hcmd, hstatus, hrid, hr0, -⟩ := u.told_complete rid id status r0 r1 (h.canTell htell) (Nat.ne_of_lt hid)
  rw [h.cqOf, (h.ring (s.cqOf rid)).2.1] at hmem
  exact ⟨_, e, k.out _ hmem, hcmd.trans (Nat.mod_eq_of_lt hid), hstatus, hrid, hr0⟩

theorem State.Replies.completes {rid id status r0 r1 : Nat} (h : s.Replies u) (k : (u.complete rid id status r0 r1).Replies t) (htell : s.CanTell rid)
    (hid : id < 2 ^ 32) : s.Completes t rid id status := by
  obtain ⟨k, e, hmem, hcmd, hstatus, hrid, -⟩ := h.tells k htell hid
  exact ⟨k, e, hmem, by rw [hcmd, Nat.mod_eq_of_lt hid], hstatus, hrid⟩

end

/-! ## The states of partitions and streams -/

/-- The register words of the partitions, and of the states of the cores' sequencers. -/
def stateReg (a : Nat) : Prop :=
  (Reg.topPartMember 0 ≤ a ∧ a < Reg.topPartMember 0 + 0x4100) ∨ ∃ g, g < 128 ∧ a = Reg.coreSeqStatus (g / 16) (g % 16)

/-- The word of a sequencer lies in its die's registers. -/
theorem stateReg_range {a : Nat} (h : stateReg a) : (Reg.topPartMember 0 ≤ a ∧ a < Reg.topPartMember 0 + 0x4100)
    ∨ ∃ d, d < 8 ∧ Reg.dieBase d + 0x1000000 ≤ a ∧ a < Reg.dieBase d + 0x1100000 := by
  obtain h | ⟨g, hg, rfl⟩ := h
  · exact .inl h
  · exact .inr ⟨g / 16, by omega, by unfold Reg.coreSeqStatus; omega, by unfold Reg.coreSeqStatus; omega⟩

/-- Nothing that is answered to the host changes a core, nor the state of a partition or of a stream. -/
structure State.Answers (s t : State) : Prop where
  replies : s.Replies t
  cores : t.cores = s.cores
  words : ∀ a, stateReg a → t.r32 a = s.r32 a

section

variable {s t u : State}

theorem State.Answers.refl (s : State) : s.Answers s := ⟨.refl s, rfl, fun _ _ => rfl⟩

theorem State.Answers.trans (h : s.Answers t) (k : t.Answers u) : s.Answers u :=
  ⟨h.replies.trans k.replies, k.cores.trans h.cores, fun a ha => (k.words a ha).trans (h.words a ha)⟩

/-- Records of partitions and of the serving engine are none of the cores' nor of the host's. -/
theorem State.Answers.of_records (h : t = { s with parts := t.parts, serving := t.serving }) : s.Answers t := by
  refine ⟨.of_host ?_ ?_ ?_ ?_, ?_, fun a _ => State.r32_congr s t ?_ a⟩
  all_goals rw [h]

theorem State.Answers.of_words {f : Nat → Bool} (h : s.WordsOnly t f) (hf : ∀ a, stateReg a → f a = false) : s.Answers t := by
  obtain ⟨hshape, hregs⟩ := h
  refine ⟨.of_host ?_ ?_ ?_ ?_, ?_, fun a ha => hregs a (hf a ha)⟩
  all_goals rw [hshape]

theorem State.answers_complete (s : State) (rid cmdId status r0 r1 : Nat) : s.Answers (s.complete rid cmdId status r0 r1) := by
  refine ⟨s.replies_complete rid cmdId status r0 r1, ?_, fun a ha => s.sameRegs_complete rid cmdId status r0 r1 a ?_⟩
  · rw [s.tellsOnly_complete rid cmdId status r0 r1]
  · unfold toldRegs
    rw [Bool.and_eq_false_iff, decide_eq_false_iff_not, decide_eq_false_iff_not]
    have hrange := stateReg_range ha
    unfold Reg.topPartMember Reg.dieBase at hrange
    unfold Reg.msixPba
    omega

theorem State.Answers.pstate (h : s.Answers t) {m : Nat} (hm : m < 64) : t.pstate m = s.pstate m := by
  unfold State.pstate State.f32
  rw [h.words _ (.inl ?_)]
  unfold Reg.topPartStatus Reg.topPartMember
  omega

theorem State.Answers.seqState (h : s.Answers t) {g : Nat} (hg : g < 128) : t.seqState g = s.seqState g := by
  unfold State.seqState State.f32
  rw [h.words _ (.inr ⟨g, hg, rfl⟩)]

/-! ## The ends of requests (R406) -/

/-- The registers of the serving engine that the end of a request counts in. -/
def endRegs (a : Nat) : Bool := decide (Reg.srvStatus ≤ a) && decide (a < Reg.srvStatus + 0x20)

theorem endRegs_false {a : Nat} (h : stateReg a) : endRegs a = false := by
  unfold endRegs
  rw [Bool.and_eq_false_iff, decide_eq_false_iff_not, decide_eq_false_iff_not]
  have hrange := stateReg_range h
  unfold Reg.topPartMember Reg.dieBase at hrange
  unfold Reg.srvStatus
  omega

/-- A request ends: it is counted, no longer active, and its SUBMIT completes. -/
theorem State.endRequest_eq (s : State) (r : Request) (status why : Nat) :
    ∃ z r0 r1, s.endRequest r status why = z.complete 65 r.cmdId status r0 r1 ∧ s.Answers z ∧ z.parts = s.parts
      ∧ z.serving.parts = s.serving.parts ∧ z.serving.requests = s.serving.requests.filter (fun x => !(x.part == r.part && x.cmdId == r.cmdId)) := by
  unfold State.endRequest
  extract_lets x a b c d e r0 r1
  have hcount : ∀ (v : State) (x lo w : Nat), Reg.srvStatus ≤ x ∧ x + 4 < Reg.srvStatus + 0x20 → v.WordsOnly (v.count64 x lo w 1) endRegs :=
    fun v x lo w hx => (v.wordsOnly_count64 x lo w 1).mono fun k hk => by
      simp only [pairOf, Bool.or_eq_true, beq_iff_eq] at hk
      simp only [endRegs, Bool.and_eq_true, decide_eq_true_eq]
      omega
  have hset : ∀ (v : State) (i : Nat), v.WordsOnly (v.set32 Reg.srvStatus i) endRegs := fun v i =>
    (v.wordsOnly_sf32 Reg.srvStatus i 1 1).mono fun k hk => by
      rw [beq_iff_eq] at hk
      simp only [endRegs, Bool.and_eq_true, decide_eq_true_eq]
      omega
  have hif : ∀ (p : Prop) [Decidable p] (v w : State), v.WordsOnly w endRegs → v.WordsOnly (if p then w else v) endRegs := fun p _ v w h => by
    split_ifs
    · exact h
    · exact .refl v _
  have hb : a.WordsOnly b endRegs := hif _ a _ (hcount a Reg.srvCount0 32 32 (by decide))
  have hc : b.WordsOnly c endRegs := hif _ b _ (hcount b Reg.srvCount0 0 16 (by decide))
  have hd : c.WordsOnly d endRegs := hif _ c _ (hset c 2)
  have he : d.WordsOnly e endRegs := hif _ d _ ((hset d 1).trans (hcount _ Reg.srvCount1 16 16 (by decide)))
  have hwords : a.WordsOnly e endRegs := ((hb.trans hc).trans hd).trans he
  have ha : s.Answers a := .of_records rfl
  refine ⟨e, r0, r1, rfl, ha.trans (.of_words hwords fun x => endRegs_false), ?_, ?_, ?_⟩
  all_goals rw [hwords.1]

/-- Ends of requests, each where its condition holds. -/
def State.endSome (s : State) (c : Request → Bool) (l : List Request) : State :=
  l.foldl (fun u r => if c r = true then u.endRequest r (r.ending.getD 0) 0 else u) s

theorem State.endSome_keeps (s : State) (c : Request → Bool) (l : List Request) : s.Answers (s.endSome c l) ∧ (s.endSome c l).parts = s.parts := by
  refine List.foldlRecOn l _ (motive := fun u : State => s.Answers u ∧ u.parts = s.parts) ⟨.refl s, rfl⟩ fun u hu r _ => ?_
  obtain ⟨hanswers, hparts⟩ := hu
  split_ifs
  · obtain ⟨z, r0, r1, heq, hz, hzparts, -⟩ := u.endRequest_eq r (r.ending.getD 0) 0
    rw [heq]
    refine ⟨(hanswers.trans hz).trans (z.answers_complete 65 _ _ _ _), ?_⟩
    rw [z.tellsOnly_complete 65 _ _ _ _]
    exact hzparts.trans hparts
  · exact ⟨hanswers, hparts⟩

/-- Where every request of the list ends, each is told and none stays active. -/
theorem State.endSome_all {c : Request → Bool} {l : List Request} (hc : ∀ r, r ∈ l → c r = true) (s : State) :
    (s.endSome c l).serving.requests = s.serving.requests.filter (fun x => !(l.any (fun r => x.part == r.part && x.cmdId == r.cmdId)))
      ∧ ∀ r, r ∈ l → ∃ z r0 r1, s.Replies z ∧ (z.complete 65 r.cmdId (r.ending.getD 0) r0 r1).Replies (s.endSome c l) := by
  induction l generalizing s with
  | nil => exact ⟨(List.filter_eq_self.2 fun _ _ => rfl).symm, fun r hr => absurd hr List.not_mem_nil⟩
  | cons r l ih =>
    have hstep : s.endSome c (r :: l) = (s.endRequest r (r.ending.getD 0) 0).endSome c l := by
      unfold State.endSome
      rw [List.foldl_cons, if_pos (hc r List.mem_cons_self)]
    obtain ⟨z, r0, r1, heq, hz, -, -, hrequests⟩ := s.endRequest_eq r (r.ending.getD 0) 0
    obtain ⟨ihrequests, ihtold⟩ := ih (fun x hx => hc x (List.mem_cons_of_mem r hx)) (s.endRequest r (r.ending.getD 0) 0)
    have hserving : (s.endRequest r (r.ending.getD 0) 0).serving = z.serving := by rw [heq, z.tellsOnly_complete 65 _ _ _ _]
    have hreplies : s.Replies (s.endRequest r (r.ending.getD 0) 0) := heq ▸ hz.replies.trans (z.replies_complete 65 _ _ _ _)
    rw [hstep]
    refine ⟨?_, fun x hx => ?_⟩
    · rw [ihrequests, hserving, hrequests, List.filter_filter]
      refine List.filter_congr fun x _ => ?_
      rw [List.any_cons, Bool.not_or, Bool.and_comm]
    · obtain rfl | hx := List.mem_cons.1 hx
      · exact ⟨z, r0, r1, hz.replies, heq ▸ (State.endSome_keeps _ c l).1.replies⟩
      · obtain ⟨w, w0, w1, hw, hrest⟩ := ihtold x hx
        exact ⟨w, w0, w1, hreplies.trans hw, hrest⟩

/-- A request of partition `n` that ends with its STOP. -/
def Request.stopped (n : Nat) (r : Request) : Request :=
  if r.part = n ∧ r.state ≠ .ending then { r with state := .ending, freed := true, ending := some 0x32, held := none } else r

theorem Request.part_stopped (n : Nat) (r : Request) : (r.stopped n).part = r.part := by
  unfold Request.stopped
  split_ifs
  · rfl
  · rfl

theorem Request.state_stopped {n : Nat} {r : Request} (h : r.part = n) : (r.stopped n).state = .ending := by
  unfold Request.stopped
  split_ifs with hs
  · rfl
  · exact not_not.1 fun hne => hs ⟨h, hne⟩

/-- The state in which every active request of partition `n` is to end, and what was prepared is withdrawn. -/
def State.stopping (s : State) (n : Nat) : State :=
  match s.serve n with
  | some v => (s.setRequests (s.serving.requests.map (Request.stopped n))).setServe n (some { v with plan := none })
  | none => s.setRequests (s.serving.requests.map (Request.stopped n))

theorem State.stopRequests_eq (s : State) (n : Nat) : s.stopRequests n = (s.stopping n).finishRequests n := by
  unfold State.stopRequests State.stopping
  have hserve : ∀ l, (s.setRequests l).serve n = s.serve n := fun _ => rfl
  dsimp only
  rw [hserve]
  cases s.serve n with
  | none => rfl
  | some v => rfl

theorem State.stopping_keeps (s : State) (n : Nat) : s.Answers (s.stopping n) ∧ (s.stopping n).parts = s.parts
    ∧ (s.stopping n).serving.requests = s.serving.requests.map (Request.stopped n)
    ∧ ∀ v, s.serve n = some v → (s.stopping n).serve n = some { v with plan := none } := by
  unfold State.stopping
  cases hserve : s.serve n with
  | none => exact ⟨.of_records rfl, rfl, rfl, fun v hv => absurd hv (by simp)⟩
  | some v =>
    refine ⟨.of_records rfl, rfl, rfl, fun w hw => ?_⟩
    obtain rfl := Option.some.inj hw
    exact State.serve_setServe_same _ _ _

theorem State.finishRequests_eq (s : State) (n : Nat) : ∃ c, s.finishRequests n = s.endSome c (s.requestsOf n)
    ∧ ∀ v, s.serve n = some v → v.records = [] → ∀ r : Request, r.state = .ending → c r = true := by
  refine ⟨fun r => decide (r.state = .ending ∧
    (!(match s.serve n with | some v => v.records.map (fun (x : TokenRec) => x.cmdId) | none => []).contains r.cmdId) = true), ?_, fun v hv hrec r hr => ?_⟩
  · unfold State.finishRequests State.endSome
    simp only [decide_eq_true_eq] <;> rfl
  · rw [hv]
    simp [hrec, hr]

theorem State.stopRequests_keeps (s : State) (n : Nat) : s.Answers (s.stopRequests n) ∧ (s.stopRequests n).parts = s.parts := by
  obtain ⟨hanswers, hparts, -, -⟩ := s.stopping_keeps n
  obtain ⟨c, heq, -⟩ := (s.stopping n).finishRequests_eq n
  obtain ⟨kanswers, kparts⟩ := (s.stopping n).endSome_keeps c ((s.stopping n).requestsOf n)
  rw [State.stopRequests_eq, heq]
  exact ⟨hanswers.trans kanswers, kparts.trans hparts⟩

/-- Requests of a serving partition with no record to write end with its STOP. -/
theorem State.stopRequests_ends {n : Nat} {v : Serve} (hv : s.serve n = some v) (hrec : v.records = []) :
    (s.stopRequests n).serving.requests = s.serving.requests.filter (fun r => r.part != n)
      ∧ ∀ r, r ∈ s.requestsOf n → r.state ≠ .ending →
        ∃ z r0 r1, s.Replies z ∧ (z.complete 65 r.cmdId 0x32 r0 r1).Replies (s.stopRequests n) := by
  obtain ⟨hanswers, -, hrequests, hserve⟩ := s.stopping_keeps n
  obtain ⟨c, heq, hc⟩ := (s.stopping n).finishRequests_eq n
  have hof : (s.stopping n).requestsOf n = (s.serving.requests.map (Request.stopped n)).filter (fun r => r.part == n) := by
    unfold State.requestsOf
    rw [hrequests]
  have hall : ∀ r, r ∈ (s.stopping n).requestsOf n → c r = true := fun r hr => by
    rw [hof, List.mem_filter, List.mem_map] at hr
    obtain ⟨⟨x, hx, rfl⟩, hpart⟩ := hr
    rw [Request.part_stopped, beq_iff_eq] at hpart
    exact hc _ (hserve v hv) hrec _ (Request.state_stopped hpart)
  obtain ⟨hleft, htold⟩ := (s.stopping n).endSome_all hall
  rw [State.stopRequests_eq, heq]
  refine ⟨?_, fun r hr hstate => ?_⟩
  · have hkept : ∀ x, x ∈ s.serving.requests.map (Request.stopped n) →
        (!((s.stopping n).requestsOf n).any (fun r => x.part == r.part && x.cmdId == r.cmdId)) = (x.part != n) := fun x hx => by
      rw [hof]
      by_cases hn : x.part = n
      · have hself : x ∈ (s.serving.requests.map (Request.stopped n)).filter (fun r => r.part == n) := List.mem_filter.2 ⟨hx, by simp [hn]⟩
        rw [List.any_eq_true.2 ⟨x, hself, by simp⟩]
        simp [hn]
      · have hnone : ((s.serving.requests.map (Request.stopped n)).filter (fun r => r.part == n)).any (fun r => x.part == r.part && x.cmdId == r.cmdId)
            = false := by
          rw [List.any_eq_false]
          intro r hr
          have hpart := (List.mem_filter.1 hr).2
          rw [beq_iff_eq] at hpart
          simp [hpart, hn]
        rw [hnone]
        simp [hn]
    rw [hleft, hrequests, List.filter_congr hkept, List.filter_map]
    refine (List.map_congr_left fun x hx => ?_).trans ((List.map_id _).trans (List.filter_congr fun x _ => ?_))
    · have hpart := (List.mem_filter.1 hx).2
      simp only [Function.comp_apply, Request.part_stopped, bne_iff_ne] at hpart
      exact if_neg fun h => hpart h.1
    · simp only [Function.comp_apply, Request.part_stopped]
  · obtain ⟨hmem, hpart⟩ := List.mem_filter.1 hr
    rw [beq_iff_eq] at hpart
    have hstopped : r.stopped n = { r with state := .ending, freed := true, ending := some 0x32, held := none } := if_pos ⟨hpart, hstate⟩
    obtain ⟨z, r0, r1, hz, hrest⟩ := htold (r.stopped n) (by
      rw [hof]
      exact List.mem_filter.2 ⟨List.mem_map_of_mem hmem, by rw [Request.part_stopped, hpart, beq_self_eq_true]⟩)
    rw [hstopped] at hrest
    exact ⟨z, r0, r1, hanswers.replies.trans hz, hrest⟩

end

end Sys2Proof.Machine
end

/-! The end of a partition's run (07_layer_cards.md R185; 14_model_images_and_loading.md R369; 15_serving_engine.md R406). -/

section

open Sys2Proof

namespace Sys2Proof.Machine

/-! ## Idle cores -/

/-- Nothing but cores, dies and the register words that `f` names differs, and of the cores only those of the list. -/
structure State.IdlesOnly (s t : State) (l : List Nat) (f : Nat → Bool) : Prop where
  shape : t = { s with cores := t.cores, dies := t.dies, regs := t.regs }
  regs : s.SameRegsBut t f
  other : ∀ g, g ∉ l → t.core g = s.core g

section

variable {s t u : State} {l : List Nat} {f : Nat → Bool}

theorem State.IdlesOnly.trans (h : s.IdlesOnly t l f) (k : t.IdlesOnly u l f) : s.IdlesOnly u l f :=
  ⟨by rw [k.shape, h.shape], h.regs.trans k.regs, fun g hg => (k.other g hg).trans (h.other g hg)⟩

theorem State.IdlesOnly.replies (h : s.IdlesOnly t l f) : s.Replies t := by
  refine .of_host ?_ ?_ ?_ ?_
  all_goals rw [h.shape]

theorem State.core_dropLines (s : State) (g k : Nat) : (s.dropLines g).core k = s.core k := by
  unfold State.dropLines
  dsimp only
  split_ifs
  · rfl
  · rfl

theorem State.idlesOnly_emptyCore (s : State) (g : Nat) : s.IdlesOnly (s.emptyCore g) [g] (fun _ => false)
    ∧ (s.emptyCore g).core g = (s.core g).emptied := by
  have hshape : s.emptyCore g = { s with cores := (s.emptyCore g).cores, dies := (s.emptyCore g).dies, regs := (s.emptyCore g).regs }
      ∧ (s.emptyCore g).regs = s.regs := by
    unfold State.emptyCore State.dropLines
    dsimp only
    split_ifs
    · exact ⟨rfl, rfl⟩
    · exact ⟨rfl, rfl⟩
  refine ⟨⟨hshape.1, .of_regs hshape.2, fun k hk => ?_⟩, (State.core_dropLines _ g g).trans (s.core_setCore_same g _)⟩
  exact (State.core_dropLines _ g k).trans (s.core_setCore_other g k _ (by simpa using hk))

/-- The word of core `g`'s sequencer state and position. -/
def seqWord (g a : Nat) : Bool := a == Reg.coreSeqStatus (g / 16) (g % 16)

theorem seqWord_other {g h : Nat} (hg : g < 128) (hh : h < 128) (hne : g ≠ h) : seqWord g (Reg.coreSeqStatus (h / 16) (h % 16)) = false := by
  unfold seqWord
  rw [beq_eq_false_iff_ne]
  unfold Reg.coreSeqStatus Reg.dieBase
  omega

/-- An idle core has no card, and its stream is IDLE. -/
theorem State.idleCore_effect (s : State) (g : Nat) : s.IdlesOnly (s.idleCore g) [g] (seqWord g)
    ∧ ((s.idleCore g).core g).flights = [] ∧ ((s.idleCore g).core g).queue = [] ∧ (s.idleCore g).seqState g = 0 := by
  obtain ⟨hempty, hcore⟩ := s.idlesOnly_emptyCore g
  unfold State.idleCore
  extract_lets u c y
  rw [show s.emptyCore g = u from rfl] at hempty hcore
  have hstate := y.wordsOnly_setSeqState g 0
  have hwords := hstate.trans ((y.setSeqState g 0).wordsOnly_setSeqPos g 0)
  have hycore : y.core g = { u.core g with
      t0 := 0, fresh := 0, lastIssue := none, alignHour := none, trapped := none, step := 0, markPos := 0, reduceSeq := [], layers := [], unfolded := [] } :=
    u.core_setCore_same g _
  refine ⟨⟨?_, (hempty.regs.mono fun _ ha => absurd ha Bool.false_ne_true).trans hwords.2, fun k hk => ?_⟩, ?_, ?_, ?_⟩
  · have hy : y = { u with cores := y.cores } := rfl
    rw [hwords.1, hy, hempty.shape]
  · rw [hwords.core, show y.core k = u.core k from u.core_setCore_other g k _ (by simpa using hk)]
    exact hempty.other k hk
  · rw [hwords.core, hycore, hcore]
    rfl
  · rw [hwords.core, hycore, hcore]
    rfl
  · rw [State.seqState_setSeqPos]
    exact State.seqState_setSeqState _ g 0

theorem State.IdlesOnly.widen {f' : Nat → Bool} {l' : List Nat} (h : s.IdlesOnly t l f) (hl : ∀ g, g ∈ l → g ∈ l') (hf : ∀ a, f a = true → f' a = true) :
    s.IdlesOnly t l' f' :=
  ⟨h.shape, h.regs.mono hf, fun g hg => h.other g fun hmem => hg (hl g hmem)⟩

theorem State.IdlesOnly.foldl {F : State → Nat → State} (hF : ∀ (u : State) g, g ∈ l → u.IdlesOnly (F u g) l f) (s : State) :
    s.IdlesOnly (l.foldl F s) l f :=
  List.foldlRecOn l F (motive := fun u : State => s.IdlesOnly u l f) ⟨rfl, fun _ _ => rfl, fun _ _ => rfl⟩ fun _ hu g hg => hu.trans (hF _ g hg)

/-- The words of the sequencers of a list of cores. -/
def seqWords (l : List Nat) (a : Nat) : Bool := l.any (fun g => seqWord g a)

theorem State.idleCores_only (l : List Nat) (s : State) : s.IdlesOnly (l.foldl (fun u g => u.idleCore g) s) l (seqWords l) :=
  State.IdlesOnly.foldl (fun u g hg => (u.idleCore_effect g).1.widen (fun k hk => by rw [List.mem_singleton.1 hk]; exact hg)
    fun _ ha => List.any_eq_true.2 ⟨g, hg, ha⟩) s

/-- Every core of the list is idle. -/
theorem State.idleCores_idle {l : List Nat} (hl : ∀ g, g ∈ l → g < 128) (s : State) : ∀ g, g ∈ l →
    ((l.foldl (fun u g => u.idleCore g) s).core g).flights = [] ∧ ((l.foldl (fun u g => u.idleCore g) s).core g).queue = []
      ∧ (l.foldl (fun u g => u.idleCore g) s).seqState g = 0 := by
  induction l generalizing s with
  | nil => exact fun g hg => absurd hg List.not_mem_nil
  | cons k l ih =>
    intro g hg
    rw [List.foldl_cons]
    by_cases hgl : g ∈ l
    · exact ih (fun x hx => hl x (List.mem_cons_of_mem k hx)) (s.idleCore k) g hgl
    · obtain rfl : g = k := (List.mem_cons.1 hg).resolve_right hgl
      have honly := State.idleCores_only l (s.idleCore g)
      obtain ⟨-, hflights, hqueue, hstate⟩ := s.idleCore_effect g
      have hword : seqWords l (Reg.coreSeqStatus (g / 16) (g % 16)) = false := by
        refine List.any_eq_false.2 fun h hh => ?_
        rw [seqWord_other (hl h (List.mem_cons_of_mem g hh)) (hl g List.mem_cons_self) fun he => hgl (he ▸ hh)]
        exact Bool.false_ne_true
      rw [honly.other g hgl]
      refine ⟨hflights, hqueue, ?_⟩
      unfold State.seqState State.f32 at hstate ⊢
      rw [honly.regs _ hword, hstate]

/-! ## The state of the partition -/

theorem seqWords_status {l : List Nat} (hl : ∀ g, g ∈ l → g < 128) (m : Nat) : seqWords l (Reg.topPartStatus m) = false := by
  refine List.any_eq_false.2 fun g hg => ?_
  have hlt := hl g hg
  unfold seqWord
  rw [beq_iff_eq]
  unfold Reg.topPartStatus Reg.coreSeqStatus Reg.dieBase
  omega

theorem State.lt_of_mem_lcs {n g : Nat} (h : g ∈ s.lcs n) : g < 128 := List.mem_range.1 (List.mem_filter.1 h).1

theorem State.pstate_setPstate (s : State) (n x m : Nat) : (s.setPstate n x).pstate m = if m = n then x % 2 ^ 3 else s.pstate m := by
  unfold State.pstate State.setPstate
  split_ifs with h
  · subst h
    exact s.f32_sf32_same _ _ _ _ (by decide)
  · unfold State.f32
    rw [State.r32_sf32_other]
    unfold Reg.topPartStatus
    omega

theorem State.lcs_setPstate (s : State) (n x m : Nat) : (s.setPstate n x).lcs m = s.lcs m := by
  have hmembers : (s.setPstate n x).members m = s.members m := State.rWide_congr s _ _ 4 fun b h1 h2 => by
    unfold Reg.topPartMember at h1 h2
    refine State.r32_sf32_other _ _ _ _ _ _ ?_
    unfold Reg.topPartStatus
    omega
  unfold State.lcs
  rw [hmembers]

/-- The state with the cores of partition `n` idle and the partition LOADED. -/
def State.idled (s : State) (n : Nat) : State := (s.lcs n).foldl (fun u g => u.idleCore g) (s.setPstate n 2)

theorem State.idled_effect (s : State) (n : Nat) : s.Replies (s.idled n) ∧ (s.idled n).parts = s.parts ∧ (s.idled n).serving = s.serving
    ∧ (∀ m, (s.idled n).pstate m = if m = n then 2 else s.pstate m)
    ∧ (∀ g, g ∈ s.lcs n → ((s.idled n).core g).flights = [] ∧ ((s.idled n).core g).queue = [] ∧ (s.idled n).seqState g = 0)
    ∧ ∀ g, g ∉ s.lcs n → (s.idled n).core g = s.core g := by
  have hlt : ∀ g, g ∈ s.lcs n → g < 128 := fun g => State.lt_of_mem_lcs
  have honly := State.idleCores_only (s.lcs n) (s.setPstate n 2)
  have hidle := State.idleCores_idle hlt (s.setPstate n 2)
  have hset : s.WordsOnly (s.setPstate n 2) (fun a => a == Reg.topPartStatus n) := s.wordsOnly_sf32 _ _ _ _
  change (s.setPstate n 2).IdlesOnly (s.idled n) _ _ at honly
  refine ⟨.trans (.of_host ?_ ?_ ?_ ?_) honly.replies, ?_, ?_, fun m => ?_, hidle, fun g hg => (honly.other g hg).trans (hset.core g)⟩
  · rw [hset.1]
  · rw [hset.1]
  · rw [hset.1]
  · rw [hset.1]
  · rw [honly.shape, hset.1]
  · rw [honly.shape, hset.1]
  · refine Eq.trans ?_ (s.pstate_setPstate n 2 m)
    unfold State.pstate State.f32
    rw [honly.regs _ (seqWords_status hlt m)]

/-! ## START and STOP complete -/

/-- A START that ran completes, and is no longer recorded. -/
theorem State.completeStart_effect (s : State) (n : Nat) : s.Answers (s.completeStart n 0) ∧ (s.completeStart n 0).serving = s.serving
    ∧ ((s.completeStart n 0).part n).startCmd = none ∧ ((s.completeStart n 0).part n).stopCmd = (s.part n).stopCmd
    ∧ ∀ id, (s.part n).startCmd = some id → ∃ z, s.Replies z ∧ s.completeStart n 0 = z.complete (n + 1) id 0 0 0 := by
  unfold State.completeStart partRing
  cases hstart : (s.part n).startCmd with
  | none => exact ⟨.refl s, rfl, hstart, rfl, fun id hid => absurd hid (by simp)⟩
  | some id =>
    dsimp only
    generalize hz : s.setPart n { s.part n with startCmd := none } = z
    have hanswers : s.Answers z := .of_records (by rw [← hz]; rfl)
    have hpart : z.part n = { s.part n with startCmd := none } := hz ▸ s.part_setPart_same n _
    have hkeep : (z.complete (n + 1) id 0 0 0).part n = z.part n := by
      unfold State.part
      rw [z.tellsOnly_complete (n + 1) id 0 0 0]
    rw [hkeep, hpart]
    refine ⟨hanswers.trans (z.answers_complete _ _ _ _ _), ?_, rfl, rfl, fun x hx => ?_⟩
    · rw [z.tellsOnly_complete (n + 1) id 0 0 0, ← hz]
      rfl
    · obtain rfl := Option.some.inj hx
      exact ⟨z, hanswers.replies, rfl⟩

/-- A STOP that waited completes, and is no longer recorded. -/
theorem State.completeStop_effect (s : State) (n : Nat) (forced : Bool) : s.Answers (s.completeStop n 0 forced)
    ∧ (s.completeStop n 0 forced).serving = s.serving
    ∧ ((s.completeStop n 0 forced).part n).stopCmd = none ∧ ((s.completeStop n 0 forced).part n).startCmd = (s.part n).startCmd
    ∧ ∀ id a, (s.part n).stopCmd = some (id, a) →
      ∃ z, s.Replies z ∧ s.completeStop n 0 forced = z.complete (n + 1) id 0 (if forced then 1 else 0) 0 := by
  unfold State.completeStop partRing
  cases hstop : (s.part n).stopCmd with
  | none => exact ⟨.refl s, rfl, hstop, rfl, fun id a hid => absurd hid (by simp)⟩
  | some x =>
    obtain ⟨id, a⟩ := x
    dsimp only
    generalize hz : s.setPart n { s.part n with stopCmd := none } = z
    have hanswers : s.Answers z := .of_records (by rw [← hz]; rfl)
    have hpart : z.part n = { s.part n with stopCmd := none } := hz ▸ s.part_setPart_same n _
    have hkeep : (z.complete (n + 1) id 0 (if forced then 1 else 0) 0).part n = z.part n := by
      unfold State.part
      rw [z.tellsOnly_complete (n + 1) id 0 _ 0]
    rw [hkeep, hpart]
    refine ⟨hanswers.trans (z.answers_complete _ _ _ _ _), ?_, rfl, rfl, fun y b hy => ?_⟩
    · rw [z.tellsOnly_complete (n + 1) id 0 _ 0, ← hz]
      rfl
    · obtain ⟨rfl, rfl⟩ := Prod.mk.inj (Option.some.inj hy)
      exact ⟨z, hanswers.replies, rfl⟩

/-- What a partition's return to LOADED leaves (R185, R369, R406). -/
structure State.Returned (s t : State) (n : Nat) (forced : Bool) : Prop where
  replies : s.Replies t
  pstate : ∀ m, m < 64 → t.pstate m = if m = n then 2 else s.pstate m
  start : (t.part n).startCmd = none
  stop : (t.part n).stopCmd = none
  startTold : ∀ id, (s.part n).startCmd = some id → ∃ z, s.Replies z ∧ (z.complete (n + 1) id 0 0 0).Replies t
  stopTold : ∀ id a, (s.part n).stopCmd = some (id, a) →
    ∃ z, s.Replies z ∧ (z.complete (n + 1) id 0 (if forced then 1 else 0) 0).Replies t
  idle : ∀ g, g ∈ s.lcs n → (t.core g).flights = [] ∧ (t.core g).queue = [] ∧ t.seqState g = 0
  other : ∀ g, g ∉ s.lcs n → t.core g = s.core g
  requests : ∀ v, s.serve n = some v → v.records = [] → t.serving.requests = s.serving.requests.filter (fun r => r.part != n)
  ended : ∀ v r, s.serve n = some v → v.records = [] → r ∈ s.requestsOf n → r.state ≠ .ending →
    ∃ z r0 r1, s.Replies z ∧ (z.complete 65 r.cmdId 0x32 r0 r1).Replies t

theorem State.returnLoaded_eq (s : State) (n : Nat) (forced : Bool) :
    s.returnLoaded n forced = (((s.idled n).completeStop n 0 forced).completeStart n 0).stopRequests n := rfl

theorem State.returned (s : State) (n : Nat) (forced : Bool) : s.Returned (s.returnLoaded n forced) n forced := by
  obtain ⟨hidled, iparts, iserving, ipstate, iidle, iother⟩ := s.idled_effect n
  rw [State.returnLoaded_eq]
  generalize s.idled n = a at *
  obtain ⟨hstop, pserving, pstop, pstart, ptold⟩ := a.completeStop_effect n forced
  generalize a.completeStop n 0 forced = b at *
  obtain ⟨hstart, qserving, qstart, qstop, qtold⟩ := b.completeStart_effect n
  generalize b.completeStart n 0 = c at *
  obtain ⟨hend, eparts⟩ := c.stopRequests_keeps n
  have hserving : c.serving = s.serving := qserving.trans (pserving.trans iserving)
  have hserve : c.serve n = s.serve n := by unfold State.serve; rw [hserving]
  have hof : c.requestsOf n = s.requestsOf n := by unfold State.requestsOf; rw [hserving]
  have hpart : a.part n = s.part n := by unfold State.part; rw [iparts]
  have hlast : (c.stopRequests n).part n = c.part n := by unfold State.part; rw [eparts]
  have hall : a.Answers (c.stopRequests n) := (hstop.trans hstart).trans hend
  have hcores := fun g => State.core_congr hall.cores g
  refine ⟨hidled.trans hall.replies, fun m hm => (hall.pstate hm).trans (ipstate m), ?_, ?_, fun id hid => ?_, fun id x hid => ?_,
    fun g hg => ?_, fun g hg => (hcores g).trans (iother g hg), fun v hv hrec => ?_, fun v r hv hrec hr hstate => ?_⟩
  · rw [hlast, qstart]
  · rw [hlast, qstop, pstop]
  · obtain ⟨z, hz, heq⟩ := qtold id (pstart.trans (hpart.symm ▸ hid))
    exact ⟨z, (hidled.trans hstop.replies).trans hz, heq ▸ hend.replies⟩
  · obtain ⟨z, hz, heq⟩ := ptold id x (hpart.symm ▸ hid)
    exact ⟨z, hidled.trans hz, heq ▸ hstart.replies.trans hend.replies⟩
  · rw [hcores, hall.seqState (State.lt_of_mem_lcs hg)]
    exact iidle g hg
  · rw [← hserving]
    exact (State.stopRequests_ends (hserve.trans hv) hrec).1
  · obtain ⟨z, r0, r1, hz, hrest⟩ := (State.stopRequests_ends (hserve.trans hv) hrec).2 r (hof.symm ▸ hr) hstate
    exact ⟨z, r0, r1, ((hidled.trans hstop.replies).trans hstart.replies).trans hz, hrest⟩

end

end Sys2Proof.Machine
end

/-! STREAM_END and FORCED_STOP (07_layer_cards.md R185; 14_model_images_and_loading.md R369). -/

section

open Sys2Proof

namespace Sys2Proof.Machine

section

variable {s t u : State} {n : Nat}

/-! ## A step in flight that is abandoned (R369) -/

/-- What a forced STOP abandons first: nothing that the host is told of, and no state of a partition or a stream. -/
structure State.Abandons (s t : State) (n : Nat) : Prop where
  replies : s.Replies t
  words : ∀ a, stateReg a → t.r32 a = s.r32 a
  other : ∀ g, g ∉ s.lcs n → t.core g = s.core g
  part : ∃ x, t.part n = { s.part n with snapshot := x }
  requests : t.serving.requests = s.serving.requests
  serve : t.serve n = s.serve n ∨ ∃ v, s.serve n = some v ∧ t.serve n = some { v with plan := none }

theorem State.Abandons.refl (s : State) (n : Nat) : s.Abandons s n :=
  ⟨.refl s, fun _ _ => rfl, fun _ _ => rfl, ⟨(s.part n).snapshot, rfl⟩, rfl, .inl rfl⟩

theorem State.part_copyWindows (s : State) (d m n : Nat) : ∃ x, (s.copyWindows d m).part n = { s.part n with snapshot := x } := by
  unfold State.copyWindows
  split
  · exact ⟨(s.part n).snapshot, rfl⟩
  · by_cases hm : n = m
    · subst hm
      exact ⟨_, s.part_setPart_same n _⟩
    · exact ⟨(s.part n).snapshot, s.part_setPart_other m n _ hm⟩

theorem State.part_makeCopies (s : State) (p : Nat × Nat × Nat → Bool) (n : Nat) : ∃ x, (s.makeCopies p).part n = { s.part n with snapshot := x } := by
  unfold State.makeCopies
  extract_lets l
  split_ifs
  · exact ⟨(s.part n).snapshot, rfl⟩
  · refine List.foldlRecOn l _ (motive := fun u : State => ∃ x, u.part n = { s.part n with snapshot := x }) ⟨(s.part n).snapshot, rfl⟩ fun u hu e _ => ?_
    obtain ⟨x, hx⟩ := hu
    obtain ⟨y, hy⟩ := u.part_copyWindows e.1 e.2.1 n
    exact ⟨y, by rw [hy, hx]⟩

/-- The word that tells of a die's flag file (R237). -/
def flagStatusRegs (a : Nat) : Bool := (List.range 8).any (fun d => a == Reg.cdFlagStatus d)

theorem State.mem_diesOf_lt {d : Nat} (h : d ∈ s.diesOf n) : d < 8 := List.mem_range.1 (List.mem_filter.1 h).1

/-- The flag windows written back change flags, counters, copies and the words that tell of them. -/
theorem State.restoreFlags_effect (s : State) (n : Nat) :
    s.restoreFlags n = { s with flags := (s.restoreFlags n).flags, ctrs := (s.restoreFlags n).ctrs, dies := (s.restoreFlags n).dies
                                parts := (s.restoreFlags n).parts, hour := (s.restoreFlags n).hour, regs := (s.restoreFlags n).regs }
      ∧ s.SameRegsBut (s.restoreFlags n) flagStatusRegs ∧ ∃ x, (s.restoreFlags n).part n = { s.part n with snapshot := x } := by
  obtain ⟨⟨hcopies, -⟩, -, -⟩ := s.filesOnly_makeCopies (fun e => e.2.1 == n)
  have hpart := s.part_makeCopies (fun e => e.2.1 == n) n
  unfold State.restoreFlags
  extract_lets a
  rw [show s.makeCopies (fun e => e.2.1 == n) = a from rfl] at hcopies hpart
  split
  · refine ⟨?_, .of_regs ?_, hpart⟩
    all_goals rw [hcopies]
  · extract_lets b c
    have hb : b = { a with flags := b.flags } := List.foldlRecOn _ _ (motive := fun v : State => v = { a with flags := v.flags }) rfl fun v hv e _ => by
      rw [hv]
      rfl
    have hc : c = { b with ctrs := c.ctrs } := List.foldlRecOn _ _ (motive := fun v : State => v = { b with ctrs := v.ctrs }) rfl fun v hv e _ => by
      rw [hv]
      rfl
    have hwords : c.WordsOnly ((c.diesOf n).foldl (fun s d => s.set32 (Reg.cdFlagStatus d) 2) c) flagStatusRegs := .foldl _ fun v d hd =>
      (v.wordsOnly_sf32 _ _ _ _).mono fun x hx => List.any_eq_true.2 ⟨d, List.mem_range.2 (State.mem_diesOf_lt hd), hx⟩
    refine ⟨?_, State.SameRegsBut.trans (.of_regs ?_) hwords.2, ?_⟩
    · rw [hwords.1, hc, hb, hcopies]
    · rw [hc, hb, hcopies]
    · have hsame : ((c.diesOf n).foldl (fun s d => s.set32 (Reg.cdFlagStatus d) 2) c).part n = a.part n := by
        unfold State.part
        rw [hwords.1, hc, hb]
      rw [hsame]
      exact hpart

theorem State.setTxn_effect (s : State) (tag : Nat) (v : Option Txn) :
    s.setTxn tag v = { s with txns := (s.setTxn tag v).txns, regs := (s.setTxn tag v).regs }
      ∧ s.SameRegsBut (s.setTxn tag v) (pairOf Reg.tclTxnStatus) := by
  unfold State.setTxn
  extract_lets a m b
  have hb : a.WordsOnly b (pairOf Reg.tclTxnStatus) := a.wordsOnly_sf64 _ _ _ _
  have hmost : a.WordsOnly (if b.f64 Reg.tclTxnStatus 32 15 < m then b.sf64 Reg.tclTxnStatus 32 15 m else b) (pairOf Reg.tclTxnStatus) := by
    split_ifs
    · exact hb.trans (b.wordsOnly_sf64 _ _ _ _)
    · exact hb
  refine ⟨?_, State.SameRegsBut.trans (.of_regs rfl) hmost.2⟩
  rw [hmost.1]

/-- The transactions of a partition end among the records of transactions alone. -/
theorem State.endPartTxns_effect (s : State) (n : Nat) :
    s.endPartTxns n = { s with txns := (s.endPartTxns n).txns, quarantine := (s.endPartTxns n).quarantine, items := (s.endPartTxns n).items
                               regs := (s.endPartTxns n).regs }
      ∧ s.SameRegsBut (s.endPartTxns n) (pairOf Reg.tclTxnStatus) := by
  unfold State.endPartTxns
  extract_lets tags a
  have ha : a = { s with txns := a.txns, quarantine := a.quarantine, regs := a.regs } ∧ s.SameRegsBut a (pairOf Reg.tclTxnStatus) := by
    refine List.foldlRecOn tags _ (motive := fun u : State => u = { s with txns := u.txns, quarantine := u.quarantine, regs := u.regs }
      ∧ s.SameRegsBut u (pairOf Reg.tclTxnStatus)) ⟨rfl, fun _ _ => rfl⟩ fun u hu tag _ => ?_
    obtain ⟨hshape, hregs⟩ := hu
    obtain ⟨hshape', hregs'⟩ := u.setTxn_effect tag none
    refine ⟨?_, hregs.trans (hregs'.trans (.of_regs rfl))⟩
    unfold State.quarantined
    rw [hshape', hshape]
  refine ⟨?_, ha.2⟩
  rw [ha.1]

theorem stateReg_elsewhere {a : Nat} (h : stateReg a) : flagStatusRegs a = false ∧ pairOf Reg.tclTxnStatus a = false := by
  have hrange := stateReg_range h
  unfold Reg.topPartMember Reg.dieBase at hrange
  refine ⟨List.any_eq_false.2 fun d hd => ?_, pairOf_false ?_ ?_⟩
  · have hlt := List.mem_range.1 hd
    rw [beq_iff_eq]
    unfold Reg.cdFlagStatus Reg.dieBase
    omega
  · unfold Reg.tclTxnStatus
    omega
  · unfold Reg.tclTxnStatus
    omega

/-- The state with the cores of partition `n` empty, its transactions ended and its flag windows written back. -/
def State.withdrawn (s : State) (n : Nat) : State := (((s.lcs n).foldl (fun u g => u.emptyCore g) s).endPartTxns n).restoreFlags n

theorem State.abandonStep_eq (s : State) (n : Nat) : s.abandonStep n =
    match (s.withdrawn n).serve n with
    | some v => (s.withdrawn n).setServe n (some { v with plan := none })
    | none => s.withdrawn n := rfl

theorem State.withdrawn_abandons (s : State) (n : Nat) : s.Abandons (s.withdrawn n) n ∧ (s.withdrawn n).serving = s.serving := by
  have hempty : s.IdlesOnly ((s.lcs n).foldl (fun u g => u.emptyCore g) s) (s.lcs n) (fun _ => false) :=
    State.IdlesOnly.foldl (fun u g hg => (u.idlesOnly_emptyCore g).1.widen (fun k hk => by rw [List.mem_singleton.1 hk]; exact hg) fun _ h => h) s
  unfold State.withdrawn
  generalize (s.lcs n).foldl (fun u g => u.emptyCore g) s = a at hempty
  obtain ⟨bshape, bregs⟩ := a.endPartTxns_effect n
  generalize a.endPartTxns n = b at *
  obtain ⟨cshape, cregs, x, hx⟩ := b.restoreFlags_effect n
  generalize b.restoreFlags n = c at *
  have hserving : c.serving = s.serving := by rw [cshape, bshape, hempty.shape]
  refine ⟨⟨.of_host ?_ ?_ ?_ ?_, fun k hk => ?_, fun g hg => (State.core_congr ?_ g).trans (hempty.other g hg), ⟨x, ?_⟩, by rw [hserving], .inl ?_⟩, hserving⟩
  · rw [cshape, bshape, hempty.shape]
  · rw [cshape, bshape, hempty.shape]
  · rw [cshape, bshape, hempty.shape]
  · rw [cshape, bshape, hempty.shape]
  · obtain ⟨hflag, htxn⟩ := stateReg_elsewhere hk
    exact ((cregs k hflag).trans (bregs k htxn)).trans (hempty.regs k rfl)
  · rw [cshape, bshape]
  · have hsame : b.part n = s.part n := by
      unfold State.part
      rw [bshape, hempty.shape]
    rw [hx, hsame]
  · unfold State.serve
    rw [hserving]

theorem State.abandonStep_abandons (s : State) (n : Nat) : s.Abandons (s.abandonStep n) n := by
  obtain ⟨h, hserving⟩ := s.withdrawn_abandons n
  have hserve : (s.withdrawn n).serve n = s.serve n := by
    unfold State.serve
    rw [hserving]
  rw [State.abandonStep_eq, hserve]
  generalize s.withdrawn n = w at h
  cases hv : s.serve n with
  | none => exact h
  | some v =>
    exact ⟨h.replies.trans (.of_host rfl rfl rfl rfl), h.words, h.other, h.part, h.requests, .inr ⟨v, hv, State.serve_setServe_same _ _ _⟩⟩

theorem State.Abandons.lcs (h : s.Abandons t n) (hn : n < 64) : t.lcs n = s.lcs n := by
  have hmembers : t.members n = s.members n := State.rWide_congr s _ _ 4 fun b h1 h2 => h.words b (.inl (by
    unfold Reg.topPartMember at *
    omega))
  unfold State.lcs
  rw [hmembers]

/-- A partition that returns to LOADED behind an abandoned step. -/
theorem State.Abandons.returned {forced : Bool} (h : s.Abandons u n) (hn : n < 64) (k : u.Returned t n forced) : s.Returned t n forced := by
  obtain ⟨x, hpart⟩ := h.part
  have hlcs := h.lcs hn
  have hof : u.requestsOf n = s.requestsOf n := by unfold State.requestsOf; rw [h.requests]
  have hserve : ∀ v, s.serve n = some v → v.records = [] → ∃ w, u.serve n = some w ∧ w.records = [] := fun v hv hrec => by
    obtain he | ⟨w, hw, he⟩ := h.serve
    · exact ⟨v, he.trans hv, hrec⟩
    · obtain rfl := Option.some.inj (hw.symm.trans hv)
      exact ⟨_, he, hrec⟩
  refine ⟨h.replies.trans k.replies, fun m hm => (k.pstate m hm).trans ?_, k.start, k.stop, fun id hid => ?_, fun id a hid => ?_,
    fun g hg => k.idle g (hlcs.symm ▸ hg), fun g hg => (k.other g (hlcs.symm ▸ hg)).trans (h.other g hg), fun v hv hrec => ?_,
    fun v r hv hrec hr hstate => ?_⟩
  · split_ifs
    · rfl
    · unfold State.pstate State.f32
      rw [h.words _ (.inl ?_)]
      unfold Reg.topPartStatus Reg.topPartMember
      omega
  · obtain ⟨z, hz, hrest⟩ := k.startTold id (by rw [hpart]; exact hid)
    exact ⟨z, h.replies.trans hz, hrest⟩
  · obtain ⟨z, hz, hrest⟩ := k.stopTold id a (by rw [hpart]; exact hid)
    exact ⟨z, h.replies.trans hz, hrest⟩
  · obtain ⟨w, hw, hwrec⟩ := hserve v hv hrec
    rw [k.requests w hw hwrec, h.requests]
  · obtain ⟨w, hw, hwrec⟩ := hserve v hv hrec
    obtain ⟨z, r0, r1, hz, hrest⟩ := k.ended w r hw hwrec (hof.symm ▸ hr) hstate
    exact ⟨z, r0, r1, h.replies.trans hz, hrest⟩

/-- The two commands after which a partition is LOADED again. -/
theorem exec_returned {c : Instr} {n : Fin 64} {forced : Bool} (hstate : s.pstate n = 3)
    (hc : (c = .streamEnd n ∧ forced = false ∧ ∀ g, g ∈ s.lcs n → s.coreEnded g = true)
      ∨ (c = .forcedStop n ∧ forced = true ∧ ∃ id a, (s.part n).stopCmd = some (id, a) ∧ a + 4096 < s.hourCount)) :
    ∃ t, exec c s = .next t ∧ s.Returned t n forced := by
  obtain ⟨rfl, rfl, hended⟩ | ⟨rfl, rfl, id, a, hstop, hlate⟩ := hc
  · have heq : streamEnd n s = s.returnLoaded n false := if_pos ⟨hstate, List.all_eq_true.2 hended⟩
    exact ⟨_, congrArg Host.Outcome.next heq, s.returned n false⟩
  · have heq : forcedStop n s = (s.abandonStep n).returnLoaded n true := by
      unfold forcedStop
      rw [hstop]
      exact if_pos ⟨hstate, hlate⟩
    exact ⟨_, congrArg Host.Outcome.next heq, (s.abandonStep_abandons n).returned n.isLt (State.returned _ n true)⟩

end

/-- Settles O58: START by what its table is, the two ends of a run by what a return to LOADED leaves, and patch sets. -/
theorem partitionsStartEndStopAndArePatched : Obligations.PartitionsStartEndStopAndArePatched := by
  unfold Obligations.PartitionsStartEndStopAndArePatched
  refine ⟨fun s n d hz hz' hstate hidle => ⟨fun htable => ?_, fun htable htell => ?_, fun v htable => ?_⟩, fun s n c forced hstate hc => ?_,
    fun s n d => ⟨fun b h1 h2 hz hz' hal hend hstate => ?_, fun p hp htell hid => ?_⟩⟩
  · refine ⟨_, congrArg Host.Outcome.next (startPart_plain hz hz' hstate hidle htable), State.part_setPart_same _ _ _,
      fun m hm => State.part_setPart_other _ _ _ _ hm, State.serve_setServe_same _ _ _, fun m hm => State.serve_setServe_other _ hm _, rfl, rfl⟩
  · exact ⟨_, congrArg Host.Outcome.next (startPart_badTable hz hz' hstate hidle htable),
      s.told_complete _ _ _ _ _ htell d.cmdId_ne_gone, s.tellsOnly_complete _ _ _ _ _, s.sameRegs_complete _ _ _ _ _⟩
  · obtain ⟨⟨hshape, hbytes⟩, hzero⟩ := s.served_effect (n := n) (s.keyed v)
    have hexec := startPart_table hz hz' hstate hidle htable
    generalize s.served n (s.keyed v) = u at *
    have hparts : u.parts = s.parts := by rw [hshape]; rfl
    have hserving : u.serving = (s.setServe n (some (s.keyed v))).serving := by rw [hshape]; rfl
    have hhour : u.hourCount = s.hourCount := by
      unfold State.hourCount State.r64
      rw [s.r32_congr u (by rw [hshape]; rfl), s.r32_congr u (by rw [hshape]; rfl)]
    have hserve : ∀ m, u.serve m = (s.setServe n (some (s.keyed v))).serve m := fun m => by unfold State.serve; rw [hserving]
    rw [hhour] at hexec
    refine ⟨_, s.freeNat 64, s.drawn.freeNat 64, congrArg Host.Outcome.next hexec, s.freeNat_lt 64, s.drawn.freeNat_lt 64,
      u.part_setPart_same n _, fun m hm => ?_, ?_, fun m hm => ?_, fun x hareas hcards => ?_, fun g j hg hlen hj => ?_, ?_⟩
    · rw [u.part_setPart_other _ _ _ hm]
      unfold State.part
      rw [hparts]
    · exact (hserve n).trans (s.serve_setServe_same n _)
    · exact (hserve m).trans (s.serve_setServe_other hm _)
    · refine hbytes x fun hx => ?_
      obtain (hx | hx) | ⟨g, hg, hlen, hlow, hhigh⟩ := hx
      · exact State.not_onDies (fun e he => (hareas e he).1) hx
      · exact State.not_onDies (fun e he => (hareas e he).2) hx
      · have := hcards g hg hlen
        omega
    · exact hzero _ ⟨g, hg, hlen, by omega, by omega⟩
    · rw [hshape]
      rfl
  · obtain ⟨t, hexec, h⟩ := exec_returned hstate hc
    refine ⟨t, hexec, (h.pstate n n.isLt).trans (if_pos rfl), fun m hm hne => (h.pstate m hm).trans (if_neg hne), h.start, h.stop,
      fun id hid hlt htell => ?_, fun id a hid hlt htell => ?_, h.idle, h.other, fun v r hv hrec hr hrstate hlt htell => ?_, h.requests, h.replies.sameBytes⟩
    · obtain ⟨z, hz, hrest⟩ := h.startTold id hid
      exact hz.completes hrest htell hlt
    · obtain ⟨z, hz, hrest⟩ := h.stopTold id a hid
      obtain ⟨k, e, hmem, hcmd, hstatus, -, hr0⟩ := hz.tells hrest htell hlt
      refine ⟨k, e, hmem, hcmd, hstatus, hr0.trans ?_⟩
      cases forced with
      | false => rfl
      | true => rfl
    · obtain ⟨z, r0, r1, hz, hrest⟩ := h.ended v r hv hrec hr hrstate
      exact hz.completes hrest htell hlt
  · exact congrArg Host.Outcome.next (patchSet_waits h1 h2 hz hz' hal hend hstate)
  · exact ⟨_, rfl, patchTimeout_tells hp htell hid⟩

end Sys2Proof.Machine
end

/-! What a port's sending touches, and what it keeps: the sequence it expects, the units that wait, and those in its replay buffer
(11_tocheas_link_layer.md R287, R289, R293). -/

section

open Sys2Proof

namespace Sys2Proof.Machine

section

variable {s t u : State}

/-! ## Frames -/

/-- Nothing but the package's network differs: registers, module ends, ports, transactions and what the device sends. -/
def State.NetOnly (s t : State) : Prop :=
  t = { s with regs := t.regs, mods := t.mods, out := t.out, ports := t.ports, txns := t.txns, items := t.items }

theorem State.NetOnly.trans (h : s.NetOnly t) (k : t.NetOnly u) : s.NetOnly u := by
  unfold State.NetOnly at *
  rw [k, h]

theorem State.NetOnly.sameBytes (h : s.NetOnly t) : s.SameBytes t := .of_mem (by rw [h]) (by rw [h])

theorem State.LinkOnly.netOnly (h : s.LinkOnly t) : s.NetOnly t := by
  unfold State.LinkOnly at h
  unfold State.NetOnly
  rw [h]

theorem State.WordsOnly.netOnly {f : Nat → Bool} (h : s.WordsOnly t f) : s.NetOnly t := by
  unfold State.NetOnly
  rw [h.1]

/-- A predicate of flow units that HOPS does not enter. -/
def HopBlind (f : FlowUnit → Prop) : Prop := ∀ r n, f r → f { r with hops := n }

/-- The unit is at the port: it waits there, or is in its replay buffer. -/
def Port.Has (x : Port) (f : FlowUnit → Prop) : Prop := ∃ r, f r ∧ (r ∈ x.waiting ∨ ∃ k, (k, r) ∈ x.replay)

/-- Only the network differs, each port expects the unit that it expected, and keeps what waits there and what it may have to send
again. -/
structure State.Sends (s t : State) : Prop where
  frame : s.NetOnly t
  want : ∀ q, (t.port q).wantSeq = (s.port q).wantSeq
  waiting : ∀ q, (t.port q).waiting = (s.port q).waiting
  replay : ∀ q e, e ∈ (s.port q).replay → e ∈ (t.port q).replay

/-- Only the network differs, each port expects the unit that it expected, and no unit that is to go out on a port is lost. -/
structure State.Nets (s t : State) : Prop where
  frame : s.NetOnly t
  want : ∀ q, (t.port q).wantSeq = (s.port q).wantSeq
  has : ∀ q f, HopBlind f → (s.port q).Has f → (t.port q).Has f

theorem State.Sends.trans (h : s.Sends t) (k : t.Sends u) : s.Sends u :=
  ⟨h.frame.trans k.frame, fun q => (k.want q).trans (h.want q), fun q => (k.waiting q).trans (h.waiting q),
    fun q e he => k.replay q e (h.replay q e he)⟩

theorem State.Nets.trans (h : s.Nets t) (k : t.Nets u) : s.Nets u :=
  ⟨h.frame.trans k.frame, fun q => (k.want q).trans (h.want q), fun q f hf he => k.has q f hf (h.has q f hf he)⟩

theorem State.Sends.nets (h : s.Sends t) : s.Nets t := by
  refine ⟨h.frame, h.want, fun q f _ he => ?_⟩
  obtain ⟨r, hr, hwait | ⟨k, hk⟩⟩ := he
  · exact ⟨r, hr, .inl (by rwa [h.waiting q])⟩
  · exact ⟨r, hr, .inr ⟨k, h.replay q _ hk⟩⟩

/-- The ports stay. -/
theorem State.NetOnly.sends (h : s.NetOnly t) (hp : t.ports = s.ports) : s.Sends t := by
  have hport : ∀ q, t.port q = s.port q := fun q => by rw [State.port, hp, State.port]
  exact ⟨h, fun q => by rw [hport], fun q => by rw [hport], fun q e he => by rwa [hport]⟩

theorem State.Sends.refl (s : State) : s.Sends s := State.NetOnly.sends rfl rfl

theorem State.LinkOnly.sends (h : s.LinkOnly t) : s.Sends t := h.netOnly.sends (by rw [h])

theorem State.WordsOnly.sends {f : Nat → Bool} (h : s.WordsOnly t f) : s.Sends t := h.netOnly.sends (by rw [h.1])

/-! ## One port's record -/

/-- What holds of the port's new record and of its old one, and of every other with itself, holds of each port before and after. -/
theorem State.port_setPort_rel (s : State) (p : Nat) (x : Port) (R : Port → Port → Prop) (hx : R (s.port p) x) (hrefl : ∀ y, R y y) (q : Nat) :
    R (s.port q) ((s.setPort p x).port q) := by
  by_cases hq : q = p
  · subst hq
    rwa [State.port_setPort_same]
  · rw [State.port_setPort_other _ _ _ _ hq]
    exact hrefl _

theorem State.sends_setPort (s : State) (p : Nat) (x : Port) (hw : x.wantSeq = (s.port p).wantSeq) (hq : x.waiting = (s.port p).waiting)
    (hr : ∀ e, e ∈ (s.port p).replay → e ∈ x.replay) : s.Sends (s.setPort p x) :=
  ⟨rfl, s.port_setPort_rel p x (fun y z => z.wantSeq = y.wantSeq) hw fun _ => rfl,
    s.port_setPort_rel p x (fun y z => z.waiting = y.waiting) hq fun _ => rfl,
    s.port_setPort_rel p x (fun y z => ∀ e, e ∈ y.replay → e ∈ z.replay) hr fun _ _ he => he⟩

theorem State.nets_setPort (s : State) (p : Nat) (x : Port) (hw : x.wantSeq = (s.port p).wantSeq)
    (hr : ∀ f, HopBlind f → (s.port p).Has f → x.Has f) : s.Nets (s.setPort p x) :=
  ⟨rfl, s.port_setPort_rel p x (fun y z => z.wantSeq = y.wantSeq) hw fun _ => rfl,
    s.port_setPort_rel p x (fun y z => ∀ f, HopBlind f → y.Has f → z.Has f) hr fun _ _ _ he => he⟩

/-! ## Sending -/

theorem State.sends_emit (s : State) (o : Output) : s.Sends (s.emit o) := State.NetOnly.sends rfl rfl

theorem State.sends_deal (s : State) (p : Nat) (seq : Option Nat) : s.Sends (s.deal p seq) :=
  s.sends_setPort p _ rfl rfl fun _ he => he

theorem State.sends_sendLink (s : State) (p : Nat) (nak : Bool) (op : Nat) : s.Sends (s.sendLink p nak op) :=
  ((s.sends_emit _).trans (State.sends_deal _ p none)).trans (State.sends_setPort _ p _ rfl rfl fun _ he => he)

theorem State.sends_emitUnit (s : State) (p seq : Nat) (h : FlowUnit) : s.Sends (s.emitUnit p seq h) :=
  ((s.sends_emit _).trans (State.sends_deal _ p _)).trans (State.sends_setPort _ p _ rfl rfl fun _ he => he)

/-- A unit that is sent is in the replay buffer with the hop counted; one that is not leaves the queues as they are (R289, R293). -/
theorem State.sends_trySend (s : State) (p : Nat) (r : FlowUnit) : s.Sends (s.trySend p r).1
    ∧ ((s.trySend p r).2 = true → ∃ k, (k, { r with hops := r.hops + 1 }) ∈ ((s.trySend p r).1.port p).replay) := by
  generalize hy : s.trySend p r = y
  unfold State.trySend at hy
  extract_lets x r' seq z at hy
  split_ifs at hy
  · subst hy
    exact ⟨s.sends_setPort p _ rfl rfl fun _ he => he, nofun⟩
  · subst hy
    exact ⟨.refl s, nofun⟩
  · subst hy
    exact ⟨(s.wordsOnly_sf64 _ _ _ _).sends, nofun⟩
  · subst hy
    have hput : s.Sends (s.setPort p z) := s.sends_setPort p z rfl rfl fun e he => List.mem_append_left _ he
    have hemit := (s.setPort p z).sends_emitUnit p seq r'
    refine ⟨hput.trans hemit, fun _ => ⟨seq, hemit.replay p _ ?_⟩⟩
    rw [State.port_setPort_same]
    exact List.mem_append_right _ (List.mem_singleton_self _)

/-- Of the waiting units each still waits or is in the replay buffer (R292). -/
theorem State.sends_sendWaiting (p : Nat) (l : List FlowUnit) (s : State) (blocked : List Nat) : s.Sends (s.sendWaiting p blocked l).1
    ∧ ∀ f, HopBlind f → ∀ r, r ∈ l → f r → ∃ r', f r'
        ∧ (r' ∈ (s.sendWaiting p blocked l).2 ∨ ∃ k, (k, r') ∈ ((s.sendWaiting p blocked l).1.port p).replay) := by
  induction l generalizing s blocked with
  | nil => exact ⟨.refl s, nofun⟩
  | cons x l ih =>
    have kept : ∀ (u : State) (b : List Nat), ∀ f, HopBlind f → ∀ r, r ∈ x :: l → f r → ∃ r', f r'
        ∧ (r' ∈ x :: (u.sendWaiting p b l).2 ∨ ∃ k, (k, r') ∈ ((u.sendWaiting p b l).1.port p).replay) := by
      intro u b f hf r hr hfr
      rcases List.mem_cons.1 hr with rfl | hr
      · exact ⟨r, hfr, .inl (List.mem_cons_self ..)⟩
      · obtain ⟨r', hfr', hin⟩ := (ih u b).2 f hf r hr hfr
        exact ⟨r', hfr', hin.imp_left (List.mem_cons_of_mem _)⟩
    unfold State.sendWaiting
    split
    · exact ⟨(ih s blocked).1, kept s blocked⟩
    · obtain ⟨htry, hsent⟩ := s.sends_trySend p x
      split
      next u hu =>
        rw [hu] at htry hsent
        refine ⟨htry.trans (ih u blocked).1, fun f hf r hr hfr => ?_⟩
        rcases List.mem_cons.1 hr with rfl | hr
        · obtain ⟨k, hk⟩ := hsent rfl
          exact ⟨_, hf r _ hfr, .inr ⟨k, (ih u blocked).1.replay p _ hk⟩⟩
        · exact (ih u blocked).2 f hf r hr hfr
      next u hu =>
        rw [hu] at htry
        exact ⟨htry.trans (ih u _).1, kept u _⟩

/-- What port `p` can send is sent; nothing is lost. -/
theorem State.nets_pumpPort (s : State) (p : Nat) : s.Nets (s.pumpPort p) := by
  obtain ⟨hsend, hkeep⟩ := State.sends_sendWaiting p (s.port p).waiting s []
  unfold State.pumpPort
  extract_lets r
  refine ⟨hsend.frame.trans rfl, fun q => ?_, fun q f hf he => ?_⟩
  · by_cases hq : q = p
    · subst hq
      rw [State.port_setPort_same]
      exact hsend.want q
    · rw [State.port_setPort_other _ _ _ _ hq]
      exact hsend.want q
  · by_cases hq : q = p
    · subst hq
      rw [State.port_setPort_same]
      obtain ⟨x, hx, hwait | ⟨k, hk⟩⟩ := he
      · exact hkeep f hf x hwait hx
      · exact ⟨x, hx, .inr ⟨k, hsend.replay q _ hk⟩⟩
    · rw [State.port_setPort_other _ _ _ _ hq]
      exact hsend.nets.has q f hf he

/-- A unit that enters the queue of a port waits there or is in its replay buffer. -/
theorem State.nets_queueUnit (s : State) (p : Nat) (r : FlowUnit) : s.Nets (s.queueUnit p r)
    ∧ ∀ f, HopBlind f → f r → ((s.queueUnit p r).port p).Has f := by
  unfold State.queueUnit
  have hput : s.Nets (s.setPort p { s.port p with waiting := (s.port p).waiting ++ [r] }) := by
    refine s.nets_setPort p _ rfl fun f _ he => ?_
    obtain ⟨x, hx, hin⟩ := he
    exact ⟨x, hx, hin.imp_left (List.mem_append_left _)⟩
  have hpump := State.nets_pumpPort (s.setPort p { s.port p with waiting := (s.port p).waiting ++ [r] }) p
  refine ⟨hput.trans hpump, fun f hf hr => hpump.has p f hf ?_⟩
  rw [State.port_setPort_same]
  exact ⟨r, hr, .inl (List.mem_append_right _ (List.mem_singleton_self _))⟩

/-! ## Responses that leave, or end here (R297, R301) -/

theorem State.nets_reportLines (d die tag part gen n : Nat) (s : State) (lines : Nat) : s.Nets (s.reportLines d die tag part gen n lines) := by
  induction n generalizing s lines with
  | zero => exact (State.Sends.refl s).nets
  | succ n ih =>
    unfold State.reportLines
    split_ifs
    · exact (State.Sends.refl s).nets
    · exact (s.linkOnly_sendMsg _ _).sends.nets.trans (ih _ _)

theorem State.nets_setTxn (s : State) (tag : Nat) (v : Option Txn) : s.Nets (s.setTxn tag v) := by
  have hshape := (s.setTxn_effect tag v).1
  refine (State.NetOnly.sends ?_ ?_).nets
  · unfold State.NetOnly
    rw [hshape]
  · rw [hshape]

theorem State.nets_endTxn (s : State) (tag : Nat) (failed : Bool) : s.Nets (s.endTxn tag failed) := by
  have items : ∀ (u : State) l, u.Nets { u with items := l } := fun u l =>
    (State.NetOnly.sends (s := u) (t := { u with items := l }) rfl rfl).nets
  unfold State.endTxn
  split
  · exact (State.Sends.refl s).nets
  next x _ =>
    have hset := s.nets_setTxn tag none
    extract_lets u mine i i' rest v
    split_ifs
    · exact hset
    · exact hset.trans (items _ _)
    · exact hset.trans (items _ _)
    · exact (hset.trans (items _ _)).trans (State.nets_reportLines _ _ _ _ _ _ _ _)

/-- A WRITE_REPORT on its way, or taken here. -/
theorem State.nets_sendReport (s : State) (r : FlowUnit) (die : Nat) : s.Nets (s.sendReport r die) := by
  have hlate : s.Nets s.lateDrop := (s.wordsOnly_count64 _ _ _ _).sends.nets
  have htake : ∀ y : FlowUnit, y.kind = 5 → s.Nets (s.takeResponse y) := fun y hy => by
    unfold State.takeResponse
    rw [if_neg (by omega)]
    split
    · exact hlate
    · split_ifs
      · exact hlate
      · exact hlate
      · exact s.nets_endTxn _ _
  unfold State.sendReport State.sendResponse
  split
  · exact htake _ rfl
  · exact htake _ rfl
  · exact (s.nets_queueUnit _ _).1
  · exact ((s.wordsOnly_sf32 _ _ _ _).sends.trans (State.wordsOnly_count64 _ _ _ _ _).sends).nets
  · exact ((s.wordsOnly_sf32 _ _ _ _).sends.trans (State.wordsOnly_count64 _ _ _ _ _).sends).nets

/-! ## The arrival of the expected unit (R293) -/

theorem Port.lend_kept (x : Port) (v : Nat) : (x.lend v).wantSeq = x.wantSeq ∧ (x.lend v).pool = x.pool := by
  obtain ⟨l, g, h⟩ : ∃ l g, x.lend v = { x with lent := l, grant := g } := ⟨_, _, rfl⟩
  rw [h]
  exact ⟨rfl, rfl⟩

theorem Port.lendAll_kept (x : Port) (n : Nat) : (x.lendAll n).wantSeq = x.wantSeq ∧ (x.lendAll n).pool = x.pool := by
  induction n generalizing x with
  | zero => exact ⟨rfl, rfl⟩
  | succ n ih =>
    unfold Port.lendAll
    refine ⟨(ih _).1.trans ?_, (ih _).2.trans ?_⟩
    · rw [(Port.lend_kept _ 3).1, (Port.lend_kept _ 2).1, (Port.lend_kept _ 1).1, (Port.lend_kept _ 0).1]
    · rw [(Port.lend_kept _ 3).2, (Port.lend_kept _ 2).2, (Port.lend_kept _ 1).2, (Port.lend_kept _ 0).2]

/-- The record of a port that has accepted the unit it expected: the unit joins the pool (R289, R293). -/
def Port.accepts (y : Port) (x : PoolUnit) : Port :=
  { y with
    wantSeq := (y.wantSeq + 1) % 2 ^ 32
    got := y.got + 1
    nakOpen := false
    idle := false
    pool := y.pool ++ [x] }

/-- RET fields change no pool, and not the unit expected (R285). -/
theorem State.takeRet_effect (s : State) (p x : Nat) : s.takeRet p x = { s with ports := (s.takeRet p x).ports }
    ∧ ((s.takeRet p x).port p).wantSeq = (s.port p).wantSeq ∧ ((s.takeRet p x).port p).pool = (s.port p).pool := by
  unfold State.takeRet State.takeAck State.takeGrant
  dsimp only
  split_ifs
  · exact ⟨rfl, rfl, rfl⟩
  · exact ⟨rfl, by rw [State.port_setPort_same], by rw [State.port_setPort_same]⟩
  · exact ⟨rfl, by rw [State.port_setPort_same], by rw [State.port_setPort_same]⟩
  · exact ⟨rfl, rfl, rfl⟩
  · exact ⟨rfl, rfl, rfl⟩

/-- Behind units that have been passed on, the unit that has arrived last is the one that is passed (R292). -/
theorem State.passList_last (s : State) (p v t : Nat) (l : List PoolUnit) (x : PoolUnit) (hl : ∀ y, y ∈ l → y.unit.vc = v → y.passed = true)
    (hx : x.passed = false) (hv : x.unit.vc = v) : (s.passList p v t (l ++ [x])).1 = (s.passUnit p x t).1 := by
  induction l with
  | nil =>
    rw [List.nil_append, State.passList, if_neg (by simp [hx, hv])]
    extract_lets y
    split_ifs
    · rfl
    · rfl
  | cons z l ih =>
    have hz : (z.passed || z.unit.vc != v) = true := by
      by_cases h : z.unit.vc = v
      · simp [hl z (List.mem_cons_self ..) h]
      · simp [h]
    rw [List.cons_append, State.passList, if_pos hz]
    exact ih fun y hy => hl y (List.mem_cons_of_mem _ hy)

/-- A request unit that its port expects and its package delivers acts on the state with the port's record moved on; what follows is
network only (R289, R292, R301, R315). -/
theorem State.requestArrives (s : State) {p kind x t : Nat} {h : FlowUnit} (item rank : Nat) (result : Bool) (hu : h = FlowUnit.ofWire x)
    (hn : s.NextUnit p kind x) (hd : s.Delivers p x) (hk : kind < 4) (hs : s.Serves h) :
    ∃ z : State, z = { s with ports := z.ports } ∧ (z.port p).wantSeq = ((s.port p).wantSeq + 1) % 2 ^ 32
      ∧ (z.deliverRequest h item rank result t).Nets (unitArrives kind p x item rank result t s) := by
  subst hu
  obtain ⟨hin, hgood, hsound, hkind, -⟩ := hn
  obtain ⟨hroute, hleft, hpool⟩ := hd
  have hrequest : isRequest (FlowUnit.ofWire x).kind = true := by
    unfold isRequest
    exact decide_eq_true (by rw [show (FlowUnit.ofWire x).kind = unitF x 220 4 from rfl, hkind]; exact hk)
  have hok : (unitF x 220 4 != 7 && unitGood x (s.port p).wantSeq && unitSound x) = true := by
    rw [hkind, hgood, hsound, Bool.and_true, Bool.and_true, bne_iff_ne]
    omega
  generalize hy : (s.port p).accepts ⟨FlowUnit.ofWire x, false, item, rank, result⟩ = y
  have hput : (s.setPort p (y.lendAll lendRuns)).port p = y.lendAll lendRuns := s.port_setPort_same p _
  obtain ⟨hshape, hwant, hzpool⟩ := (s.setPort p (y.lendAll lendRuns)).takeRet_effect p x
  have hywant : y.wantSeq = ((s.port p).wantSeq + 1) % 2 ^ 32 := by rw [← hy]; rfl
  have hypool : y.pool = (s.port p).pool ++ [⟨FlowUnit.ofWire x, false, item, rank, result⟩] := by rw [← hy]; rfl
  rw [hput, (y.lendAll_kept _).1, hywant] at hwant
  rw [hput, (y.lendAll_kept _).2, hypool] at hzpool
  have harrive : unitArrives kind p x item rank result t s
      = ((if 64 ≤ ((((s.setPort p (y.lendAll lendRuns)).takeRet p x).passPool p (FlowUnit.ofWire x).vc t).port p).got
          then (((s.setPort p (y.lendAll lendRuns)).takeRet p x).passPool p (FlowUnit.ofWire x).vc t).sendLink p false 0
          else ((s.setPort p (y.lendAll lendRuns)).takeRet p x).passPool p (FlowUnit.ofWire x).vc t)).pumpPort p := by
    have hkind' : (FlowUnit.ofWire x).kind = kind := hkind
    unfold unitArrives
    rw [← hy]
    simp only [hin, hok, hkind', Bool.not_true, Bool.false_eq_true, if_false, ne_eq, not_true_eq_false]
    rfl
  rw [harrive]
  generalize (s.setPort p (y.lendAll lendRuns)).takeRet p x = z at hshape hwant hzpool ⊢
  have hz : z = { s with ports := z.ports } := hshape.trans (by unfold State.setPort; rfl)
  refine ⟨z, hz, hwant, ?_⟩
  have hpass : (z.passPool p (FlowUnit.ofWire x).vc t)
      = (z.deliverRequest (FlowUnit.ofWire x) item rank result t).setPort p
          { (z.deliverRequest (FlowUnit.ofWire x) item rank result t).port p with
            pool := State.passList z p (FlowUnit.ofWire x).vc t (z.port p).pool |>.2 } := by
    have hdeliver : (z.passUnit p ⟨FlowUnit.ofWire x, false, item, rank, result⟩ t).1
        = z.deliverRequest (FlowUnit.ofWire x) item rank result t := by
      have hroute' : z.routeOf (some p) (FlowUnit.ofWire x) = .deliver := by
        rw [hz]
        exact hroute
      have hleft' : z.leftJob (FlowUnit.ofWire x).dpart = false := by
        rw [hz]
        exact hleft
      unfold State.passUnit
      simp only [hroute', hleft', hrequest, if_true, Bool.false_eq_true, if_false]
    have hlist := z.passList_last p (FlowUnit.ofWire x).vc t (s.port p).pool ⟨FlowUnit.ofWire x, false, item, rank, result⟩ hpool rfl rfl
    have hr : (z.passList p (FlowUnit.ofWire x).vc t (z.port p).pool).1 = z.deliverRequest (FlowUnit.ofWire x) item rank result t := by
      rw [hzpool, hlist, hdeliver]
    unfold State.passPool
    dsimp only
    rw [hr]
  rw [hpass]
  generalize z.deliverRequest (FlowUnit.ofWire x) item rank result t = w
  generalize (z.passList p (FlowUnit.ofWire x).vc t (z.port p).pool).2 = l
  have hset : w.Nets (w.setPort p { w.port p with pool := l }) :=
    (w.sends_setPort p { w.port p with pool := l } rfl rfl fun _ he => he).nets
  generalize w.setPort p { w.port p with pool := l } = v at hset ⊢
  have hack : v.Nets (if 64 ≤ (v.port p).got then v.sendLink p false 0 else v) := by
    split_ifs
    · exact (v.sends_sendLink p false 0).nets
    · exact (State.Sends.refl v).nets
  exact (hset.trans hack).trans (State.nets_pumpPort _ p)

end

end Sys2Proof.Machine

end

/-! Requests at their target (11_tocheas_link_layer.md R297, R301; 12_system_topology.md R308; 07_layer_cards.md R206). -/

section

open Sys2Proof

namespace Sys2Proof.Machine

section

variable {s t u : State} {h : FlowUnit}

/-- A request that its target serves is delivered (R301). -/
theorem State.deliverRequest_of_serves (item rank : Nat) (result : Bool) (t : Nat) (hs : s.Serves h) :
    s.deliverRequest h item rank result t = if h.kind = 0 then s.deliverWrite h t else if h.kind = 1 then s.deliverRead h t
      else if h.kind = 2 then s.deliverSignal h t else s.deliverReduce h item rank result t := by
  obtain ⟨hrefusal, hanswered⟩ := hs
  unfold State.deliverRequest
  rw [if_neg (by simp [hanswered]), hrefusal]

/-! ## WRITE -/

/-- Remote offsets of a level lie one after the other in memory (R308). -/
theorem State.targetAddr_linear (s : State) (n lc level : Nat) : ∃ c, ∀ off a, s.targetAddr n lc level off = some a → a = c + off := by
  unfold State.targetAddr
  cases s.coreOf n lc with
  | none => exact ⟨0, nofun⟩
  | some g =>
    dsimp only
    split
    · refine ⟨g / 16 * 2 ^ 36 + s.f64 (Reg.cdPbbShm (g / 16) n) 0 13 * 2 ^ 20, fun off a ha => ?_⟩
      have := (Option.ite_none_right_eq_some.1 ha).2
      simp only [Option.some.injEq] at this
      omega
    · split
      · refine ⟨g / 16 * 2 ^ 36 + 2 ^ 32 + g % 16 * 0x3000000 + s.f64 (Reg.cdPbbCore (g / 16) n) 0 10 * 2 ^ 16, fun off a ha => ?_⟩
        have := (Option.ite_none_right_eq_some.1 ha).2
        simp only [Option.some.injEq] at this
        omega
      · split
        · refine ⟨g / 16 * 2 ^ 36 + 2 * 2 ^ 32 + g % 16 * 2 ^ 23 + s.f64 (Reg.cdPbbCore (g / 16) n) 32 7 * 2 ^ 10, fun off a ha => ?_⟩
          have := (Option.ite_none_right_eq_some.1 ha).2
          simp only [Option.some.injEq] at this
          omega
        · refine ⟨g / 16 * 2 ^ 36 + s.f64 (Reg.cdCommonShm (g / 16)) 0 13 * 2 ^ 20, fun off a ha => ?_⟩
          have := (Option.ite_none_right_eq_some.1 ha).2
          simp only [Option.some.injEq] at this
          omega

/-- Lines stored one after the other, each at a place of its own on which no write is on its way (R174). -/
theorem State.stored_lines (s : State) (l : List Nat) (b : Nat → Nat) (y : Nat → List Byte) (n : Nat)
    (hapart : l.Pairwise fun i j => b i + 32 ≤ b j ∨ b j + 32 ≤ b i) (hlen : ∀ i, i ∈ l → (y i).length = 32)
    (hd : ∀ i, i ∈ l → addrDie (b i) < 8) (hs : ∀ i, i ∈ l → s.Still (s.landStamp (addrDie (b i)) n) (b i) 32) :
    s.MemoryOnly (l.foldl (fun s i => s.storeAt n (b i) (y i)) s)
      ∧ (∀ i, i ∈ l → (l.foldl (fun s i => s.storeAt n (b i) (y i)) s).rdBytes (b i) 32 = y i)
      ∧ ∀ x, (∀ i, i ∈ l → x < b i ∨ b i + 32 ≤ x) → (l.foldl (fun s i => s.storeAt n (b i) (y i)) s).rdByte x = s.rdByte x := by
  induction l generalizing s with
  | nil => exact ⟨rfl, nofun, fun _ _ => rfl⟩
  | cons i l ih =>
    obtain ⟨hi, hl⟩ := List.pairwise_cons.1 hapart
    have h32 := hlen i (List.mem_cons_self ..)
    obtain ⟨hst, p, hpast, hin⟩ := s.stored_storeAt (t := n) (a := b i) (b := y i) (hd i (List.mem_cons_self ..))
      (by rw [h32]; exact hs i (List.mem_cons_self ..))
    rw [List.foldl_cons]
    generalize s.storeAt n (b i) (y i) = v at hst hpast ⊢
    have hstill : ∀ j, j ∈ l → v.Still (v.landStamp (addrDie (b j)) n) (b j) 32 := by
      intro j hj q hq h1 h2
      rw [hst.frame.landStamp_eq]
      rw [hpast] at hq
      rcases List.mem_append.1 hq with hq | hq
      · have := hin q hq
        have := hi j hj
        omega
      · exact hs j (List.mem_cons_of_mem _ hj) q hq h1 h2
    obtain ⟨hframe, hbytes, hothers⟩ := ih v hl (fun j hj => hlen j (List.mem_cons_of_mem _ hj)) (fun j hj => hd j (List.mem_cons_of_mem _ hj)) hstill
    refine ⟨hst.frame.trans hframe, fun j hj => ?_, fun x hx => ?_⟩
    · rcases List.mem_cons.1 hj with rfl | hj
      · refine Eq.trans (State.rdBytes_congr _ _ _ _ fun x h1 h2 => hothers x fun k hk => ?_) (h32 ▸ hst.bytes)
        have := hi k hk
        omega
      · exact hbytes j hj
    · rw [hothers x fun j hj => hx j (List.mem_cons_of_mem _ hj)]
      exact hst.others x (by rw [h32]; exact hx i (List.mem_cons_self ..))

/-- What a WRITE whose lines are in range leaves before its report: the lines of LMASK stored, and nothing else (R297, R308). -/
theorem State.deliverWrite_effect (b : Nat → Nat) (n : Nat)
    (hb : ∀ i, i < 7 → bitAt h.lmask i = true → s.targetAddr h.dpart h.lc h.level (h.addr + 32 * i) = some (b i)
      ∧ s.lineOk h.dpart true (b i) = true ∧ s.Still (s.landStamp (addrDie (b i)) n) (b i) 32) :
    ∃ v, s.MemoryOnly v ∧ v.Nets (s.deliverWrite h n)
      ∧ (∀ i, i < 7 → bitAt h.lmask i = true → v.rdBytes (b i) 32 = leBytes 32 (fld h.data (256 * i) 256))
      ∧ ∀ x, (∀ i, i < 7 → bitAt h.lmask i = true → x < b i ∨ b i + 32 ≤ x) → v.rdByte x = s.rdByte x := by
  have hmem : ∀ i, i ∈ maskLines h.lmask 7 ↔ i < 7 ∧ bitAt h.lmask i = true := fun i => by
    unfold maskLines upto
    rw [List.mem_filter, List.mem_range]
  obtain ⟨c, hc⟩ := s.targetAddr_linear h.dpart h.lc h.level
  have hline : ∀ i, i ∈ maskLines h.lmask 7 → b i = c + (h.addr + 32 * i) := fun i hi =>
    hc _ _ (hb i ((hmem i).1 hi).1 ((hmem i).1 hi).2).1
  have hnodup : (maskLines h.lmask 7).Nodup := List.nodup_range.filter _
  have hapart : (maskLines h.lmask 7).Pairwise fun i j => b i + 32 ≤ b j ∨ b j + 32 ≤ b i := by
    refine List.Pairwise.imp_of_mem ?_ hnodup
    intro i j hi hj hne
    rw [hline i hi, hline j hj]
    omega
  have hdie : ∀ i, i ∈ maskLines h.lmask 7 → addrDie (b i) < 8 := fun i hi => by
    have hok := (hb i ((hmem i).1 hi).1 ((hmem i).1 hi).2).2.1
    unfold State.lineOk at hok
    exact State.addrDie_of_mayAccess (Bool.and_eq_true_iff.1 hok).1
  obtain ⟨hframe, hbytes, hothers⟩ := s.stored_lines (maskLines h.lmask 7) b (fun i => leBytes 32 (fld h.data (256 * i) 256)) n hapart
    (fun i _ => length_leBytes ..) hdie fun i hi => (hb i ((hmem i).1 hi).1 ((hmem i).1 hi).2).2.2
  have hlines : (payloadLines h.addr h.lmask 7 h.data).map (fun l => (s.targetAddr h.dpart h.lc h.level l.1, l.2))
      = (maskLines h.lmask 7).map (fun i => (some (b i), leBytes 32 (fld h.data (256 * i) 256))) := by
    unfold payloadLines
    rw [List.map_map]
    refine List.map_congr_left fun i hi => ?_
    simp only [Function.comp]
    rw [(hb i ((hmem i).1 hi).1 ((hmem i).1 hi).2).1]
  refine ⟨_, hframe, ?_, fun i h7 hi => hbytes i ((hmem i).2 ⟨h7, hi⟩), fun x hx => hothers x fun i hi => hx i ((hmem i).1 hi).1 ((hmem i).1 hi).2⟩
  unfold State.deliverWrite
  rw [hlines]
  dsimp only
  split
  next l hl =>
    obtain ⟨i, hi, rfl⟩ := List.mem_map.1 (List.mem_of_find?_eq_some hl)
    have hbad := List.find?_some hl
    simp only [(hb i ((hmem i).1 hi).1 ((hmem i).1 hi).2).2.1, Bool.not_true, Bool.false_eq_true] at hbad
  next =>
    rw [List.foldl_map]
    split_ifs
    · exact State.nets_sendReport _ _ _
    · exact (State.Sends.refl _).nets

/-! ## READ_REQ -/

/-- Four words of a line that holds no error. -/
theorem State.noticed_line {a : Nat} (hs : s.Sound a 32) : s.noticed (lineWords [a]) = s := by
  refine s.noticed_of_not_soft fun x hx => ?_
  simp only [lineWords, List.map_cons, List.map_nil, List.flatten_cons, List.flatten_nil, List.append_nil, List.mem_cons, List.not_mem_nil,
    or_false] at hx
  exact hs x (by omega) (by omega)

/-- A die whose movers have done what they do before a time has nothing to catch up. -/
theorem State.caughtUp_of_settled {d n : Nat} (hs : s.Settled d n) : s.caughtUp n (d * 2 ^ 36) = s := by
  have hdie : addrDie (d * 2 ^ 36) = d := by unfold addrDie; omega
  unfold State.caughtUp
  rw [hdie]
  split_ifs
  · rcases hs with hidle | hdone
    · exact s.meshTo_of_idle _ hidle
    · unfold State.meshTo
      rw [Nat.sub_eq_zero_of_le hdone]
      rfl
  · rfl

/-- A readable line is answered with a READ_DATA unit on the response's way (R297). -/
theorem State.deliverRead_effect {a q n : Nat} {r : FlowUnit} (hcount : h.count = 0)
    (ha : s.targetAddr h.dpart h.lc h.level h.addr = some a) (hok : s.lineOk h.dpart false a = true) (hsettled : s.Settled (s.targetDie h) n)
    (hsound : s.Sound a 32)
    (hr : r = { kind := 4, vc := 2, dest := h.src, src := s.pkgId * 8 + s.targetDie h, dpart := h.spart, spart := h.dpart, gen := h.gen,
                tag := h.tag, addr := h.addr, lmask := 1, last := 1, data := leNat (s.rdBytesAt n a 32) })
    (hroute : s.routeOf none r = .port q) : s.deliverRead h n = s.queueUnit q (s.withVc none q r) := by
  have haddrs : (List.range (h.count + 1)).map (fun i => s.targetAddr h.dpart h.lc h.level (h.addr + 32 * i)) = [some a] := by
    rw [hcount]
    simp [ha]
  unfold State.deliverRead
  rw [haddrs]
  simp only [List.find?_cons, hok, Bool.not_true, List.find?_nil, s.caughtUp_of_settled hsettled, List.filterMap_cons, List.filterMap_nil,
    Option.map_some, id, s.noticed_line hsound]
  have hunits : readDataUnits
      { kind := 4, vc := 2, dest := h.src, src := s.pkgId * 8 + s.targetDie h, dpart := h.spart, spart := h.dpart, gen := h.gen,
        tag := h.tag } ([s.rdBytesAt n a 32].length + 1) h.addr [s.rdBytesAt n a 32] = [r] := by
    rw [hr]
    simp [readDataUnits]
  rw [hunits]
  simp only [List.foldl_cons, List.foldl_nil]
  unfold State.sendResponse
  rw [hroute]

/-! ## SIGNAL -/

/-- A signal inside the partition's window acts on its entry (R218, R223). -/
theorem State.deliverSignal_effect {g : Nat} (n : Nat) (hcore : s.coreOf h.dpart h.lc = some g) :
    (fld h.data 40 1 = 0 → fld h.data 32 8 < fld (s.r64 (Reg.cdFlagwin (g / 16) h.dpart)) 8 9 → s.deliverSignal h n
        = s.updFlag (flagKey (g / 16) (g % 16 / 4) (fld (s.r64 (Reg.cdFlagwin (g / 16) h.dpart)) 0 8 + fld h.data 32 8)) n (fld h.data 41 1 == 0))
      ∧ (fld h.data 40 1 = 1 → fld h.data 32 8 < fld (s.r64 (Reg.cdFlagwin (g / 16) h.dpart)) 40 9 → s.deliverSignal h n
        = s.addCtr (flagKey (g / 16) (g % 16 / 4) (fld (s.r64 (Reg.cdFlagwin (g / 16) h.dpart)) 32 8 + fld h.data 32 8)) n (fld h.data 0 32)) := by
  refine ⟨fun hk hlt => ?_, fun hk hlt => ?_⟩
  all_goals
    unfold State.deliverSignal State.signalAt State.signalHere
    rw [hcore]
    simp [hk, hlt]

theorem flagKey_die {d c i : Nat} (hc : c < 4) (hi : i < 256) : flagKey d c i / 1024 = d := by
  unfold flagKey
  omega

/-! ## REDUCE_DATA -/

/-- A state in which a result line reaches members of a list on die `d`: each one's lines have landed, only their cores and the die's
lines differ (R206). -/
structure State.Places (s t : State) (x : Group) (d item line : Nat) (bytes : List Byte) (l : List Nat) : Prop where
  frame : t = { s with cores := t.cores, dies := t.dies }
  dies : ∀ k, k ≠ d → t.die k = s.die k
  cores : ∀ g, g ∉ l → t.core g = s.core g
  keeps : ∀ y, y ∈ (s.mesh d).lands → y ∈ (t.mesh d).lands
  lands : ∀ g f, g ∈ l → s.reduceCard x g item = some f → ∃ y, y ∈ (t.mesh d).lands ∧ y.core = g ∧ y.seq = f.seq ∧ y.iter = item - f.base
    ∧ y.line = line ∧ y.bytes = bytes.take (descRun (cardDesc f.card 1) - 32 * line)

/-- A result line reaches one member. -/
def State.placeAt (s : State) (x : Group) (d item line cyc : Nat) (bytes : List Byte) (bad : Bool) (g : Nat) : State :=
  match s.reduceCard x g item with
  | none => s
  | some f =>
    let n := item - f.base
    let run := descRun (cardDesc f.card 1)
    let f := { f with fetched := Tab.put (fun _ => []) f.fetched (n * 8192) (putLine (Tab.get (fun _ => []) f.fetched (n * 8192)) run line bytes) }
    let s := s.setFlight g f
    let m := (s.die d).mesh.wake cyc
    s.setDie d { s.die d with mesh := { m with
      next := m.next + 1, lands := m.lands ++ [⟨g, f.seq, n, line, 0, bytes.take (run - 32 * line), bad, cyc, m.next⟩] } }

theorem State.placeResult_eq (s : State) (x : Group) (d item line cyc : Nat) (bytes : List Byte) (bad : Bool) :
    s.placeResult x d item line cyc bytes bad = (x.onDie d).foldl (fun s g => s.placeAt x d item line cyc bytes bad g) s := rfl

theorem Mesh.lands_wake (m : Mesh) (cyc : Nat) : (m.wake cyc).lands = m.lands := by
  unfold Mesh.wake
  split_ifs
  · rfl
  · rfl

/-- One more member. -/
theorem State.Places.place {x : Group} {d item line : Nat} {bytes : List Byte} {l : List Nat} (h : s.Places t x d item line bytes l) {g : Nat}
    (hg : g ∉ l) (cyc : Nat) (bad : Bool) : s.Places (t.placeAt x d item line cyc bytes bad g) x d item line bytes (l ++ [g]) := by
  have hcard : t.reduceCard x g item = s.reduceCard x g item := by
    unfold State.reduceCard
    rw [h.cores g hg]
  unfold State.placeAt
  rw [hcard]
  cases hc : s.reduceCard x g item with
  | none =>
    refine ⟨h.frame, h.dies, fun k hk => h.cores k fun hl => hk (List.mem_append_left _ hl), h.keeps, fun k f hk hf => ?_⟩
    rcases List.mem_append.1 hk with hk | hk
    · exact h.lands k f hk hf
    · rw [List.mem_singleton.1 hk, hc] at hf
      exact nomatch hf
  | some f =>
    dsimp only
    generalize ({ f with fetched := _ } : Flight) = y
    have hlands : ((t.die d).mesh.wake cyc).lands = (t.mesh d).lands := Mesh.lands_wake _ _
    rw [show (t.setFlight g y).die d = t.die d from rfl]
    generalize (t.die d).mesh.wake cyc = m at hlands
    refine ⟨?_, fun k hk => ?_, fun k hk => ?_, fun z hz => ?_, fun k f' hk hf' => ?_⟩
    · rw [h.frame]
      rfl
    · exact (State.die_setDie_other _ _ _ _ hk).trans (h.dies k hk)
    · have hne : k ≠ g := fun e => hk (e ▸ List.mem_append_right _ (List.mem_singleton_self _))
      exact (State.core_setCore_other _ _ _ _ hne).trans (h.cores k fun hl => hk (List.mem_append_left _ hl))
    · unfold State.mesh
      rw [State.die_setDie_same, hlands]
      exact List.mem_append_left _ (h.keeps z hz)
    · unfold State.mesh
      rw [State.die_setDie_same, hlands]
      rcases List.mem_append.1 hk with hk | hk
      · obtain ⟨z, hz, hrest⟩ := h.lands k f' hk hf'
        exact ⟨z, List.mem_append_left _ hz, hrest⟩
      · rw [List.mem_singleton.1 hk] at hf' ⊢
        obtain rfl := Option.some.inj (hc.symm.trans hf')
        exact ⟨_, List.mem_append_right _ (List.mem_singleton_self _), rfl, rfl, rfl, rfl, rfl⟩

theorem State.places_placeResult (s : State) (x : Group) (d item line cyc : Nat) (bytes : List Byte) (bad : Bool) :
    s.Places (s.placeResult x d item line cyc bytes bad) x d item line bytes (x.onDie d) := by
  have hnodup : (x.onDie d).Nodup := (List.nodup_range.filter _).filter _
  rw [State.placeResult_eq]
  generalize x.onDie d = members at hnodup ⊢
  induction members using List.reverseRecOn with
  | nil => exact ⟨rfl, fun _ _ => rfl, fun _ _ => rfl, fun _ hy => hy, nofun⟩
  | append_singleton l g ih =>
    obtain ⟨hl, -, hapart⟩ := List.nodup_append.1 hnodup
    rw [List.foldl_append, List.foldl_cons, List.foldl_nil]
    exact (ih hl).place (fun hg => hapart g hg g (List.mem_singleton_self _) rfl) cyc bad

/-- A result line at its combining die is with the members there, and on its way to the others (R258, R273). -/
theorem State.deliverReduce_effect {item rank n : Nat} {gr : Group} (hgroup : s.groupOf h.dpart h.group = some gr) (hmask : h.lmask = 1) :
    ∃ v, s.Places v gr (s.combineDie gr item (h.addr / 32) (s.targetDie h)) item (h.addr / 32) (leBytes 32 (fld h.data 0 256))
        (gr.onDie (s.combineDie gr item (h.addr / 32) (s.targetDie h))) ∧ v.Nets (s.deliverReduce h item rank true n) := by
  have hlines : payloadLines h.addr h.lmask 7 h.data = [(h.addr, leBytes 32 (fld h.data 0 256))] := by
    rw [hmask]
    rfl
  refine ⟨_, s.places_placeResult gr _ item (h.addr / 32) (s.engCycle (s.combineDie gr item (h.addr / 32) (s.targetDie h)) n) _ false, ?_⟩
  unfold State.deliverReduce
  rw [hgroup, hlines]
  simp only [List.foldl_cons, List.foldl_nil, if_true]
  unfold State.shareResult
  generalize s.placeResult gr (s.combineDie gr item (h.addr / 32) (s.targetDie h)) item (h.addr / 32) _ _ false = v
  have hring : ∀ l : List Nat, v.Nets (l.foldl (fun s p => s.ringSend gr.part (s.combineDie gr item (h.addr / 32) (s.targetDie h)) (h.addr / 32)
      ⟨gr.group, item, 0, 3, true, p⟩ (leBytes 32 (fld h.data 0 256)) false) v) := fun l =>
    (State.LinkOnly.foldl l v fun w p => w.linkOnly_sendFrame _ _).sends.nets
  split_ifs
  · exact (State.LinkOnly.foldl _ v fun w p => w.linkOnly_sendFrame _ _).sends.nets.trans (State.nets_sendReport _ _ _)
  · exact (State.LinkOnly.foldl _ v fun w p => w.linkOnly_sendFrame _ _).sends.nets

end

/-- Settles O40: the expected unit acts on the state whose port has accepted it (`requestArrives`), each KIND by its own effect, and what
follows, a report or a unit on its way, is network only. -/
theorem requestUnitsAreServedAtTheirTarget : Obligations.RequestUnitsAreServedAtTheirTarget := by
  unfold Obligations.RequestUnitsAreServedAtTheirTarget
  intro s p x t u hu hd hs
  have hkind : ∀ k, s.NextUnit p k x.toNat → u.kind = k := fun k hn => by
    rw [hu]
    exact hn.2.2.2.1
  refine ⟨fun b hn hb => ?_, fun a q r hn hcount ha hok hsettled hsound hr hroute => ?_, fun g w hn hcore hnew hw => ?_,
    fun item rank gr D hn hgroup hmask hD => ?_⟩
  · obtain ⟨z, hz, hwant, hnets⟩ := s.requestArrives (t := t) 0 0 false hu hn hd (by decide) hs
    have hzs : z.Serves u := by rw [hz]; exact hs
    rw [z.deliverRequest_of_serves 0 0 false t hzs, if_pos (hkind 0 hn)] at hnets
    obtain ⟨v, hframe, hdone, hbytes, hothers⟩ := z.deliverWrite_effect (h := u) b t (by rw [hz]; exact hb)
    have hall := hdone.trans hnets
    refine ⟨_, rfl, ?_, fun i h7 hi => ?_, fun a ha => ?_, ?_⟩
    · rw [hall.want, ← hwant, State.port, hframe, State.port]
    · exact (State.rdBytes_congr _ _ _ _ fun x _ _ => (hall.frame.sameBytes x).1).trans (hbytes i h7 hi)
    · rw [(hall.frame.sameBytes a).1, hothers a ha, hz]
      rfl
    · rw [hall.frame, hframe, hz]
      exact ⟨rfl, rfl, rfl, rfl⟩
  · obtain ⟨z, hz, hwant, hnets⟩ := s.requestArrives (t := t) 0 0 false hu hn hd (by decide) hs
    have hzs : z.Serves u := by rw [hz]; exact hs
    rw [z.deliverRequest_of_serves 0 0 false t hzs, if_neg (by rw [hkind 1 hn]; decide), if_pos (hkind 1 hn),
      z.deliverRead_effect (q := q) (r := r) hcount (by rw [hz]; exact ha) (by rw [hz]; exact hok) (by rw [hz]; exact hsettled)
        (by rw [hz]; exact hsound) (by rw [hr, hz]; rfl) (by rw [hz]; exact hroute)] at hnets
    obtain ⟨hqueue, hhas⟩ := z.nets_queueUnit q (z.withVc none q r)
    have hall := hqueue.trans hnets
    refine ⟨_, rfl, (hall.want p).trans hwant, ?_, ?_, ?_⟩
    · have hblind : HopBlind fun y => y.kind = 4 ∧ y.dest = u.src ∧ y.tag = u.tag ∧ y.dpart = u.spart ∧ y.gen = u.gen ∧ y.addr = u.addr
          ∧ y.lmask = 1 ∧ y.last = 1 ∧ y.data = leNat (s.rdBytesAt t a 32) := fun _ _ hy => hy
      refine hnets.has q _ hblind (hhas _ hblind ?_)
      rw [hr]
      exact ⟨rfl, rfl, rfl, rfl, rfl, rfl, rfl, rfl, rfl⟩
    · have hbytes := hall.frame.sameBytes
      rw [hz] at hbytes
      exact hbytes
    · rw [hall.frame, hz]
      exact ⟨rfl, rfl, rfl, rfl⟩
  · obtain ⟨z, hz, hwant, hnets⟩ := s.requestArrives (t := t) 0 0 false hu hn hd (by decide) hs
    have hzs : z.Serves u := by rw [hz]; exact hs
    have hk2 := hkind 2 hn
    rw [z.deliverRequest_of_serves 0 0 false t hzs, if_neg (by omega), if_neg (by omega), if_pos hk2] at hnets
    obtain ⟨hflag, hctr⟩ := z.deliverSignal_effect (h := u) t (by rw [hz]; exact hcore)
    have hword : z.r64 (Reg.cdFlagwin (g / 16) u.dpart) = w := by rw [hw, hz]; rfl
    have hznew : (z.die (g / 16)).flagT ≠ t := by rw [hz]; exact hnew
    rw [hword] at hflag hctr
    refine ⟨fun h40 hlt hfit => ?_, fun h40 hlt hfit => ?_⟩
    · have hkey := flagKey_die (d := g / 16) (c := g % 16 / 4) (i := fld w 0 8 + fld u.data 32 8) (by omega) (by omega)
      rw [hflag h40 hlt] at hnets
      obtain ⟨hframe, hvalue⟩ := z.updFlag_first (fld u.data 41 1 == 0) (by rw [hkey]; exact hznew)
      generalize z.updFlag _ _ _ = v at hframe hvalue hnets
      refine ⟨_, rfl, ?_, fun k => ?_, ?_, ?_, ?_⟩
      · rw [hnets.want, ← hwant, State.port, hframe, State.port]
      · refine Eq.trans ?_ ((hvalue k).trans ?_)
        · rw [State.flag, hnets.frame, State.flag]
        · rw [hz]
          rfl
      · rw [hnets.frame, hframe, hz]
      · exact (State.SameBytes.of_mem (by rw [hframe, hz]) (by rw [hframe, hz])).trans hnets.frame.sameBytes
      · rw [hnets.frame, hframe, hz]
    · have hkey := flagKey_die (d := g / 16) (c := g % 16 / 4) (i := fld w 32 8 + fld u.data 32 8) (by omega) (by omega)
      rw [hctr h40 hlt] at hnets
      obtain ⟨hframe, hflags, hvalue⟩ := z.addCtr_first (k := flagKey (g / 16) (g % 16 / 4) (fld w 32 8 + fld u.data 32 8)) (n := t)
        (by rw [hkey]; exact hznew) (fld u.data 0 32)
      generalize z.addCtr _ _ _ = v at hframe hflags hvalue hnets
      refine ⟨_, rfl, ?_, fun k => ?_, ?_, ?_, ?_⟩
      · rw [hnets.want, ← hwant, State.port, hframe.1, State.port]
      · refine Eq.trans ?_ ((hvalue k).trans ?_)
        · rw [State.ctr, hnets.frame, State.ctr]
        · rw [hz]
          rfl
      · rw [hnets.frame, hflags, hz]
      · exact (State.SameBytes.of_mem (by rw [hframe.1, hz]) (by rw [hframe.1, hz])).trans hnets.frame.sameBytes
      · rw [hnets.frame, hframe.1, hz]
  · obtain ⟨z, hz, hwant, hnets⟩ := s.requestArrives (t := t) item rank true hu hn hd (by decide) hs
    have hzs : z.Serves u := by rw [hz]; exact hs
    have hk3 := hkind 3 hn
    rw [z.deliverRequest_of_serves item rank true t hzs, if_neg (by omega), if_neg (by omega), if_neg (by omega)] at hnets
    obtain ⟨v, hplaces, hdone⟩ := z.deliverReduce_effect (h := u) (item := item) (rank := rank) (n := t) (gr := gr) (by rw [hz]; exact hgroup) hmask
    have hzD : z.combineDie gr item (u.addr / 32) (z.targetDie u) = D := by
      rw [hD, hz]
      rfl
    rw [hzD] at hplaces
    have hall := hdone.trans hnets
    have hdie : ∀ k, (unitArrives 3 p x.toNat item rank true t s).die k = v.die k := fun k => by rw [State.die, hall.frame, State.die]
    have hcard : ∀ g, z.reduceCard gr g item = s.reduceCard gr g item := fun g => by
      rw [hz]
      rfl
    refine ⟨_, rfl, ?_, fun g f hg hf => ?_, fun g hg => ?_, fun k hk => ?_, ?_, ?_⟩
    · rw [hall.want, ← hwant, State.port, hplaces.frame, State.port]
    · obtain ⟨l, hl, hcore, hseq, hiter, hline, hbytes⟩ := hplaces.lands g f hg ((hcard g).trans hf)
      exact ⟨l, by rw [State.mesh, hdie]; exact hl, hcore, hseq, hiter, hline, hbytes⟩
    · have hnot : g ∉ gr.onDie D := fun hin => hg (by simpa using (List.mem_filter.1 (List.mem_filter.1 hin).1).2)
      refine Eq.trans ?_ ((hplaces.cores g hnot).trans ?_)
      · rw [State.core, hall.frame, State.core]
      · rw [hz]
        rfl
    · rw [hdie, hplaces.dies k hk, hz]
      rfl
    · exact (State.SameBytes.of_mem (by rw [hplaces.frame, hz]) (by rw [hplaces.frame, hz])).trans hall.frame.sameBytes
    · rw [hall.frame, hplaces.frame, hz]
      exact ⟨rfl, rfl⟩

end Sys2Proof.Machine

end

/-! What the checks of a load read (14_model_images_and_loading.md R364 to R366; 07_layer_cards.md R211): the placement registers, the
images, the trust table, and of the cores and dies which are there. Bytes that were written and the loads in progress do not enter. -/

section

open Sys2Proof

namespace Sys2Proof.Machine

/-- The words of LDR_STATUS and LDR_COUNT. -/
def ldrRegs (a : Nat) : Bool := a == Reg.ldrStatus || a == Reg.ldrCount || a == Reg.ldrCount + 4

/-- A register of a block below the loader's. -/
theorem ldrRegs_below {a : Nat} (h : a % 2 ^ 36 < 0xF00600000) : ldrRegs a = false := by
  unfold ldrRegs Reg.ldrStatus Reg.ldrCount
  simp only [Bool.or_eq_false_iff, beq_eq_false_iff_ne]
  omega

/-- The words behind the first four of a 32-byte entry. -/
theorem ldrRegs_entry {a : Nat} (h : 16 ≤ a % 32) : ldrRegs a = false := by
  unfold ldrRegs Reg.ldrStatus Reg.ldrCount
  simp only [Bool.or_eq_false_iff, beq_eq_false_iff_ne]
  omega

/-- The checks of a load read the same in both states. -/
structure State.Views (s t : State) : Prop where
  words : s.SameRegsBut t ldrRegs
  cores : t.cores = s.cores
  dies : t.dies = s.dies
  sec : t.sec = s.sec
  program : ∀ n, t.program n = s.program n

section

variable {s t u : State} {n : Nat}

theorem State.Views.refl (s : State) : s.Views s := ⟨fun _ _ => rfl, rfl, rfl, rfl, fun _ => rfl⟩

theorem State.Views.trans (h : s.Views t) (k : t.Views u) : s.Views u :=
  ⟨h.words.trans k.words, k.cores.trans h.cores, k.dies.trans h.dies, k.sec.trans h.sec,
    fun n => (k.program n).trans (h.program n)⟩

theorem State.MemoryOnly.views (h : s.MemoryOnly t) : s.Views t := by
  rw [h]
  exact ⟨fun _ _ => rfl, rfl, rfl, rfl, fun _ => rfl⟩

theorem State.Views.w32 (h : s.Views t) (a v : Nat) : (s.w32 a v).Views (t.w32 a v) := by
  refine ⟨fun b hb => ?_, h.cores, h.dies, h.sec, h.program⟩
  rw [State.r32_w32, State.r32_w32, h.words b hb]

theorem State.Views.wWide (h : s.Views t) (a k v : Nat) : (s.wWide a k v).Views (t.wWide a k v) := by
  induction k generalizing s t a v with
  | zero => exact h
  | succ k ih => exact ih (h.w32 a _) _ _

/-- The same steps on both sides. -/
theorem State.Views.foldl {α : Type} {f : State → α → State} (l : List α) (h : s.Views t) (hf : ∀ (u v : State) x, u.Views v → (f u x).Views (f v x)) :
    (l.foldl f s).Views (l.foldl f t) := by
  induction l generalizing s t with
  | nil => exact h
  | cons x l ih => exact ih (hf s t x h)

end

section

variable {s t : State} {n : Nat} (h : s.Views t) (hn : n < 64)

include h

/-! ## Registers -/

theorem State.Views.r32 {a : Nat} (ha : a % 2 ^ 36 < 0xF00600000) : t.r32 a = s.r32 a := h.words a (ldrRegs_below ha)

theorem State.Views.f32 {a : Nat} (ha : a % 2 ^ 36 < 0xF00600000) (lo w : Nat) : t.f32 a lo w = s.f32 a lo w := by
  unfold State.f32
  rw [h.r32 ha]

theorem State.Views.f64 {a : Nat} (ha : a % 2 ^ 36 < 0xF00500000) (lo w : Nat) : t.f64 a lo w = s.f64 a lo w :=
  State.f64_of_sameRegs h.words (ldrRegs_below (by omega)) (ldrRegs_below (by omega)) lo w

theorem State.Views.mcastWord (d i : Nat) : t.r32 (Reg.fabMcast d i + 28) = s.r32 (Reg.fabMcast d i + 28) :=
  h.words _ (ldrRegs_entry (by unfold Reg.fabMcast Reg.dieBase; omega))

theorem State.Views.core (g : Nat) : t.core g = s.core g := State.core_congr h.cores g

theorem State.Views.die (d : Nat) : t.die d = s.die d := by unfold State.die; rw [h.dies]

theorem State.Views.slotAt (k : Nat) : t.slotAt n k = s.slotAt n k := by
  unfold State.slotAt
  rw [h.program]

include hn

theorem State.Views.members : t.members n = s.members n :=
  State.rWide_congr s t _ 4 fun b h1 h2 => h.r32 (by unfold Reg.topPartMember at h1 h2; omega)

theorem State.Views.lcs : t.lcs n = s.lcs n := by
  unfold State.lcs
  rw [h.members hn]

theorem State.Views.coreOf (k : Nat) : t.coreOf n k = s.coreOf n k := by
  unfold State.coreOf
  rw [h.lcs hn]

theorem State.Views.hasCoreOn (d : Nat) : t.hasCoreOn n d = s.hasCoreOn n d := by
  unfold State.hasCoreOn
  rw [h.members hn]

theorem State.Views.levelBase (d level : Nat) : t.levelBase n d level = s.levelBase n d level := by
  unfold State.levelBase
  rw [h.f64 (by unfold Reg.cdPbbShm Reg.dieBase; omega), h.f64 (by unfold Reg.cdPbbCore Reg.dieBase; omega),
    h.f64 (by unfold Reg.cdPbbCore Reg.dieBase; omega), h.f64 (by unfold Reg.cdCommonShm Reg.dieBase; omega)]

theorem State.Views.levelBound (d level : Nat) : t.levelBound n d level = s.levelBound n d level := by
  unfold State.levelBound
  rw [h.f64 (by unfold Reg.cdPbbShm Reg.dieBase; omega), h.f64 (by unfold Reg.cdPbbCore Reg.dieBase; omega),
    h.f64 (by unfold Reg.cdPbbCore Reg.dieBase; omega), h.f64 (by unfold Reg.cdCommonShm Reg.dieBase; omega)]

theorem State.Views.flagwin (d lo w : Nat) : t.f64 (Reg.cdFlagwin d n) lo w = s.f64 (Reg.cdFlagwin d n) lo w :=
  h.f64 (by unfold Reg.cdFlagwin Reg.dieBase; omega) lo w

theorem State.Views.sectionCore (kind : Nat) (x : Section) : t.sectionCore kind n x = s.sectionCore kind n x := by
  unfold State.sectionCore
  rw [h.coreOf hn]

theorem State.Views.sectionBase (slot g : Nat) (x : Section) : t.sectionBase n slot g x = s.sectionBase n slot g x := by
  unfold State.sectionBase
  rw [h.levelBase hn]

/-! ## Placement (R366) -/

theorem State.Views.budget (d level : Nat) : t.budget n d level = s.budget n d level := by
  unfold State.budget
  simp only [h.levelBound hn, h.flagwin hn, h.mcastWord]
  rw [h.f64 (by unfold Reg.cdPbbShm Reg.dieBase; omega)]

theorem State.Views.extentsOn (kind : Nat) (b : List Byte) (d level : Nat) : t.extentsOn kind n b d level = s.extentsOn kind n b d level := by
  unfold State.extentsOn
  simp only [h.sectionCore hn, h.hasCoreOn hn]

theorem State.Views.dryEntry (kind size : Nat) (b : List Byte) (d level mask : Nat) :
    t.dryEntry kind n size b d level mask = s.dryEntry kind n size b d level mask := by
  have hholes : ∀ a c, t.holeBytes d a c = s.holeBytes d a c := fun a c => by
    unfold State.holeBytes
    rw [h.die]
  unfold State.dryEntry State.placesOn
  simp only [h.extentsOn hn, h.levelBase hn, h.budget hn, hholes]

theorem State.Views.dryReport (kind size : Nat) (b : List Byte) (mask : Nat) : t.dryReport kind n size b mask = s.dryReport kind n size b mask := by
  unfold State.dryReport
  simp only [h.dryEntry hn]

/-! ## Steps 3, 5 and 6 -/

theorem State.Views.step5 (hbase : ∀ d, t.base d = s.base d) (kind : Nat) (b : List Byte) : t.step5 kind n b = s.step5 kind n b := by
  unfold State.step5
  rw [h.r32 (a := Reg.topId) (by decide), h.f32 (a := Reg.topHourCtl) (by decide), h.program]
  simp only [h.coreOf hn, hbase]

theorem State.Views.preChecks (hbase : ∀ d, t.base d = s.base d) {l : Load} (hl : l.part = n) (b : List Byte) : t.preChecks l b = s.preChecks l b := by
  have hstep3 : t.step3 l.kind b = s.step3 l.kind b := by
    unfold State.step3
    rw [h.sec]
  have hshort : ∀ kind size mask, t.shortDie kind n size b mask = s.shortDie kind n size b mask := fun kind size mask => by
    unfold State.shortDie
    simp only [h.dryEntry hn]
  have hunserved : t.unserved l.kind n b = s.unserved l.kind n b := by
    unfold State.unserved
    simp only [h.lcs hn, h.core]
  have hfit : t.coresFit l.kind n b = s.coresFit l.kind n b := by
    unfold State.coresFit
    simp only [h.lcs hn, h.sectionCore hn]
  unfold State.preChecks
  simp only [hl, hstep3, h.step5 hn hbase, h.slotAt, hshort, hunserved, hfit]

/-! ## Streams (R18, R190 to R206) -/

theorem State.Views.cardOk (own card : Nat) : t.cardOk n own card = s.cardOk n own card := by
  have hwait : ∀ w, t.waitOk n own w = s.waitOk n own w := fun w => by
    unfold State.waitOk
    simp only [h.coreOf hn]
  have hsignal : ∀ x, t.signalOk n x = s.signalOk n x := fun x => by
    unfold State.signalOk
    simp only [h.coreOf hn]
  have hrole : ∀ i, t.roleOk n own card i = s.roleOk n own card i := fun i => by
    unfold State.roleOk
    simp only [h.coreOf hn]
  have hextent : ∀ i, t.extentOk n card i = s.extentOk n card i := fun i => by
    unfold State.extentOk
    simp only [h.coreOf hn, h.levelBound hn]
  have hmove : t.moveOk n own card = s.moveOk n own card := by
    unfold State.moveOk
    simp only [h.coreOf hn]
  unfold State.cardOk State.bodyOk
  simp only [hwait, hsignal, hrole, hextent, hmove]

theorem State.Views.streamOk (own w : Nat) (cards : List Nat) : t.streamOk n own w cards = s.streamOk n own w cards := by
  have hcards : t.cardOk n own = s.cardOk n own := funext fun c => h.cardOk hn own c
  have hslices : ∀ card k, t.sliceCounts n own card k = s.sliceCounts n own card k := fun card k => by
    unfold State.sliceCounts
    simp only [h.coreOf hn, h.levelBase hn]
  unfold State.streamOk State.serviceFree
  simp only [hcards, hslices]

theorem State.Views.sectionStatus (b : List Byte) (p : Section × Nat) : t.sectionStatus n b p = s.sectionStatus n b p := by
  have hplaced : t.streamPlaced n p.1 = s.streamPlaced n p.1 := by
    unfold State.streamPlaced
    simp only [h.coreOf hn, h.budget hn]
  unfold State.sectionStatus
  simp only [hplaced, h.streamOk hn]

/-! ## Relocation (R211, R218) -/

theorem State.Views.relocCard (card : Nat) : t.relocCard n card = s.relocCard n card := by
  have hindex : ∀ g kind i, t.relocIndex n g kind i = s.relocIndex n g kind i := fun g kind i => by
    unfold State.relocIndex
    simp only [h.flagwin hn]
  unfold State.relocCard
  simp only [h.coreOf hn, h.levelBase hn, hindex]

theorem State.Views.sectionBytes (b : List Byte) (p : Section × Nat) : t.sectionBytes n b p = s.sectionBytes n b p := by
  unfold State.sectionBytes
  rw [show t.relocCard n = s.relocCard n from funext fun c => h.relocCard hn c]

theorem State.Views.badElements (b : List Byte) : t.badElements n b = s.badElements n b := by
  unfold State.badElements
  simp only [h.sectionBytes hn]

theorem State.Views.programStreams (b : List Byte) (reloc : Bool) : t.programStreams n b reloc = s.programStreams n b reloc := by
  unfold State.programStreams
  rw [show t.relocCard n = s.relocCard n from funext fun c => h.relocCard hn c]

theorem State.Views.sectionDest {l : Load} (hl : l.part = n) (x : Section) : t.sectionDest l x = s.sectionDest l x := by
  unfold State.sectionDest
  simp only [hl, h.sectionCore hn, h.sectionBase hn, h.slotAt]

theorem State.Views.writtenBy {l : Load} (hl : l.part = n) (b : List Byte) (k : Nat) : t.writtenBy l b k = s.writtenBy l b k := by
  unfold State.writtenBy
  simp only [h.sectionDest hn hl]

/-! ## Tables (R211, R233, R246, R318) -/

theorem State.Views.externalsOk (streams : List (Nat × List Nat)) : t.externalsOk n streams = s.externalsOk n streams := by
  unfold State.externalsOk State.signalTarget
  simp only [h.coreOf hn]

theorem State.Views.multicastNeeds (streams : List (Nat × List Nat)) : t.multicastNeeds n streams = s.multicastNeeds n streams := by
  unfold State.multicastNeeds State.resolveTargets
  simp only [h.coreOf hn]

theorem State.Views.peersOk (cards : List Nat) : t.peersOk n cards = s.peersOk n cards := by
  have hpeer : ∀ x lo, t.r32 (Reg.rtePeer n (fld x lo 10)) = s.r32 (Reg.rtePeer n (fld x lo 10)) := fun x lo => by
    have := fld_lt x lo 10
    exact h.r32 (by unfold Reg.rtePeer; omega)
  unfold State.peersOk descPeer
  simp only [hpeer]

omit hn in
theorem State.Views.buildPeers (job : JobPlacement) : (s.buildPeers n job).Views (t.buildPeers n job) :=
  h.foldl _ fun _ _ _ huv => huv.w32 _ _

end

/-- The state without the multicast entries of a partition. -/
def State.mcastCleared (s : State) (n : Nat) : State :=
  (List.range 8).foldl (fun s d => (List.range 256).foldl (fun s i =>
    if bitAt (s.r32 (Reg.fabMcast d i + 28)) 31 && fld (s.r32 (Reg.fabMcast d i + 28)) 25 6 == n then s.wWide (Reg.fabMcast d i) 8 0 else s) s) s

/-- The state with one multicast entry more, where its die has a free one. -/
def State.mcastAdded (s : State) (n : Nat) (x : Nat × (Nat × Nat) × Nat) : Option State :=
  ((List.range 256).find? (fun i => !bitAt (s.r32 (Reg.fabMcast x.1 i + 28)) 31)).map (fun i =>
    s.wWide (Reg.fabMcast x.1 i) 8 (2 ^ 255 + n * 2 ^ 249 + (6 * x.2.1.1 + x.2.1.2) * 2 ^ 243 + x.2.2 * 2 ^ 227 + treeMasks x.2.1 x.2.2))

theorem State.buildMulticast_eq (s : State) (n : Nat) (needs : List (Nat × (Nat × Nat) × Nat)) :
    s.buildMulticast n needs = needs.foldl (fun acc x => acc.bind fun u => u.mcastAdded n x) (some (s.mcastCleared n)) := rfl

theorem foldl_bind_none {α β : Type} (f : β → α → Option β) (l : List α) :
    l.foldl (fun acc x => acc.bind fun y => f y x) none = none := by
  induction l with
  | nil => rfl
  | cons x l ih => exact ih

section

variable {s t : State} {n : Nat}

theorem State.Views.mcastCleared (h : s.Views t) : (s.mcastCleared n).Views (t.mcastCleared n) := by
  refine h.foldl _ fun u v d huv => huv.foldl _ fun u v i huv => ?_
  rw [huv.mcastWord]
  split_ifs
  · exact huv.wWide _ _ _
  · exact huv

/-- An entry that fits in one state fits in the other, and the states it leaves read the same. -/
theorem State.Views.mcastAdded {u : State} (h : s.Views t) {x : Nat × (Nat × Nat) × Nat} (hu : s.mcastAdded n x = some u) :
    ∃ v, t.mcastAdded n x = some v ∧ u.Views v := by
  unfold State.mcastAdded at *
  simp only [h.mcastWord]
  obtain ⟨i, hi, rfl⟩ := Option.map_eq_some_iff.1 hu
  rw [hi]
  exact ⟨_, rfl, h.wWide _ _ _⟩

theorem State.Views.buildMulticast (h : s.Views t) {u : State} {needs : List (Nat × (Nat × Nat) × Nat)} (hu : s.buildMulticast n needs = some u) :
    ∃ v, t.buildMulticast n needs = some v ∧ u.Views v := by
  have hclear := h.mcastCleared (n := n)
  rw [State.buildMulticast_eq] at hu ⊢
  generalize s.mcastCleared n = a at hu hclear
  generalize t.mcastCleared n = b at hclear ⊢
  induction needs generalizing a b with
  | nil => exact ⟨b, rfl, Option.some.inj hu ▸ hclear⟩
  | cons x needs ih =>
    rw [List.foldl_cons, Option.bind_some] at hu ⊢
    cases hx : a.mcastAdded n x with
    | none =>
      rw [hx, foldl_bind_none] at hu
      exact nomatch hu
    | some c =>
      obtain ⟨e, he, hce⟩ := hclear.mcastAdded hx
      rw [hx] at hu
      rw [he]
      exact ih c hu e hce

end

end Sys2Proof.Machine

end

/-! Loads that read an image from host memory, and their end (14_model_images_and_loading.md R364 to R372). -/

section

open Sys2Proof

namespace Sys2Proof.Machine

/-! ## The end of a load (R369, R372) -/

/-- A load that has ended: the list of loads without it, and the command told. -/
structure State.Ended (s t : State) (l : Load) (status r0 r1 : Nat) : Prop where
  told : s.Told t l.rid l.cmdId status r0 r1
  bytes : s.SameBytes t
  out : ∀ o, o ∈ s.out → o ∈ t.out
  frame : t = { s with loader := t.loader, regs := t.regs, host := t.host, out := t.out }
  loader : t.loader = { s.loader with loads := s.loader.loads.filter (fun x => !(x.rid == l.rid && x.desc == l.desc)) }
  words : s.SameRegsBut t (fun a => toldRegs a || ldrRegs a)
  quiet : status = 0 → s.SameRegsBut t (fun a => toldRegs a || a == Reg.ldrStatus)
  count : status ≠ 0 → l.counts = true → t.f64 Reg.ldrCount 0 8 = min (s.f64 Reg.ldrCount 0 8 + 1) 255

section

variable {s t u z : State} {l : Load} {b : List Byte} {n : Nat}

theorem State.Told.of_host {rid cmdId status r0 r1 : Nat} (h : s.Told t rid cmdId status r0 r1) (hh : s.host = u.host) :
    u.Told t rid cmdId status r0 r1 := by
  unfold State.Told State.cqOf State.ring at *
  rw [← hh]
  exact h

theorem State.loader_complete (s : State) (rid cmdId status r0 r1 : Nat) : (s.complete rid cmdId status r0 r1).loader = s.loader := by
  obtain ⟨r, o, k, e⟩ := s.complete_host rid cmdId status r0 r1
  rw [e]

/-- What was written before a command completes stays, and the command is told. -/
theorem State.ended_complete {status r0 r1 : Nat} (hframe : t = { s with loader := t.loader, regs := t.regs })
    (hloader : t.loader = { s.loader with loads := s.loader.loads.filter (fun x => !(x.rid == l.rid && x.desc == l.desc)) })
    (hwords : s.SameRegsBut t ldrRegs) (hquiet : status = 0 → s.SameRegsBut t (fun a => a == Reg.ldrStatus))
    (hcount : status ≠ 0 → l.counts = true → t.f64 Reg.ldrCount 0 8 = min (s.f64 Reg.ldrCount 0 8 + 1) 255)
    (htell : s.CanTell l.rid) (hid : l.cmdId ≠ gone) : s.Ended (t.complete l.rid l.cmdId status r0 r1) l status r0 r1 := by
  have hhost : t.host = s.host := by rw [hframe]
  have hreplies := t.replies_complete l.rid l.cmdId status r0 r1
  have hsame := t.sameRegs_complete l.rid l.cmdId status r0 r1
  have hout : t.out = s.out := by rw [hframe]
  refine ⟨(t.told_complete _ _ _ _ _ (htell.of_rings (by rw [hhost])) hid).of_host hhost, ?_, fun o ho => hreplies.out o (hout ▸ ho), ?_,
    (t.loader_complete ..).trans hloader, ?_, fun h0 => ?_, fun h0 hc => ?_⟩
  · exact (State.SameBytes.of_mem (by rw [hframe]) (by rw [hframe])).trans hreplies.sameBytes
  · obtain ⟨r, o, k, e⟩ := t.complete_host l.rid l.cmdId status r0 r1
    rw [e, hframe]
  · exact (hwords.mono fun a ha => by rw [ha, Bool.or_true]).trans (hsame.mono fun a ha => by rw [ha, Bool.true_or])
  · exact ((hquiet h0).mono fun a ha => by rw [ha, Bool.or_true]).trans (hsame.mono fun a ha => by rw [ha, Bool.true_or])
  · rw [State.f64_of_sameRegs hsame (by decide) (by decide)]
    exact hcount h0 hc

/-- The list of loads, and what ACTIVE counts of it (Table 14-10). -/
theorem State.setLoads_effect (s : State) (x : List Load) :
    s.setLoads x = { s with loader := { s.loader with loads := x }, regs := (s.setLoads x).regs }
      ∧ s.SameRegsBut (s.setLoads x) (fun a => a == Reg.ldrStatus)
      ∧ (s.setLoads x).f32 Reg.ldrStatus 0 3 = (x.filter Load.counts).length % 8 := by
  have h := State.wordsOnly_sf32 { s with loader := { s.loader with loads := x } } Reg.ldrStatus 0 3 (x.filter Load.counts).length
  exact ⟨h.1, h.2, State.f32_sf32_same _ _ _ _ _ (by decide)⟩

theorem State.ended_endLoad (status r0 r1 : Nat) (htell : s.CanTell l.rid) (hid : l.cmdId ≠ gone) :
    s.Ended (s.endLoad l status r0 r1) l status r0 r1 := by
  obtain ⟨hshape, hquiet, -⟩ := s.setLoads_effect (s.loader.loads.filter (fun x => !(x.rid == l.rid && x.desc == l.desc)))
  unfold State.endLoad
  generalize s.setLoads (s.loader.loads.filter (fun x => !(x.rid == l.rid && x.desc == l.desc))) = a at hshape hquiet ⊢
  have hwords : s.SameRegsBut a ldrRegs := hquiet.mono fun c hc => by
    unfold ldrRegs
    rw [hc]
    rfl
  have hframe : a = { s with loader := a.loader, regs := a.regs } := by rw [hshape]
  have hloader : a.loader = { s.loader with loads := s.loader.loads.filter (fun x => !(x.rid == l.rid && x.desc == l.desc)) } := by rw [hshape]
  have hsame : a.f64 Reg.ldrCount 0 8 = s.f64 Reg.ldrCount 0 8 := State.f64_of_sameRegs hquiet (by decide) (by decide) 0 8
  dsimp only
  split_ifs with hc
  · have hb := a.wordsOnly_count64 Reg.ldrCount 0 8 1
    have hb8 := a.f64_count64_same Reg.ldrCount 0 8 1 (by decide)
    generalize a.count64 Reg.ldrCount 0 8 1 = c at hb hb8
    refine State.ended_complete ?_ ?_ ?_ (fun h0 => absurd h0 hc.1) (fun _ _ => ?_) htell hid
    · rw [hb.1, hframe]
    · rw [hb.1]
      exact hloader
    · refine hwords.trans (hb.2.mono fun x hx => ?_)
      unfold pairOf at hx
      unfold ldrRegs
      rcases Bool.or_eq_true_iff.1 hx with hx | hx
      · rw [hx, Bool.or_true, Bool.true_or]
      · rw [hx, Bool.or_true]
    · rw [hb8, hsame]
      rfl
  · exact State.ended_complete hframe hloader hwords (fun _ => hquiet) (fun h0 hcounts => absurd ⟨h0, hcounts⟩ hc) htell hid

/-! ## What the checks say (R364) -/

/-- A check that fails gives a status other than OK. -/
theorem State.preChecks_status {st step sec die : Nat} (h : s.preChecks l b = some (st, step, sec, die)) : st ≠ 0 := by
  have hstep3 : ∀ kind x, s.step3 kind b = some x → x ≠ 0 := fun kind x hx => by
    unfold State.step3 at hx
    dsimp only at hx
    split_ifs at hx
    all_goals
      obtain rfl := Option.some.inj hx
      decide
  have hstep5 : ∀ kind m x, s.step5 kind m b = some x → x.1 ≠ 0 := fun kind m x hx => by
    unfold State.step5 at hx
    dsimp only at hx
    split at hx
    · cases hx
      decide
    · split at hx
      · cases hx
        decide
      · split at hx
        · cases hx
          decide
        · split at hx
          · cases hx
            decide
          · split at hx
            · obtain ⟨i, -, rfl⟩ := Option.map_eq_some_iff.1 hx
              exact Nat.succ_ne_zero _
            · split at hx
              · split at hx
                · cases hx
                  decide
                · split at hx
                  · cases hx
                    decide
                  · split at hx
                    · cases hx
                      decide
                    · cases hx
              · cases hx
  unfold State.preChecks at h
  dsimp only at h
  split at h
  · cases h
    decide
  · split at h
    · next hx =>
      cases h
      exact hstep3 _ _ hx
    · split at h
      · cases h
        decide
      · split at h
        · cases h
          decide
        · split at h
          · next hx =>
            cases h
            exact hstep5 _ _ _ hx
          · split at h
            · cases h
              decide
            · split at h
              · cases h
                decide
              · split at h
                · cases h
                · cases h
                  decide

theorem State.badSection_of_preChecks (h : s.preChecks l b = none) : badSection l.kind b = none := by
  cases hbad : badSection l.kind b with
  | none => rfl
  | some i =>
    unfold State.preChecks at h
    dsimp only at h
    rw [hbad] at h
    split at h
    · cases h
    · split at h
      · cases h
      · split at h
        · cases h
        · cases h

/-- What step 4 says of a section (R357, R364). -/
theorem section_of_badSection {kind i : Nat} {p : Section × Nat} (h : badSection kind b = none) (hp : (imgSections b)[i]? = some p) :
    typeFits kind p.1.type = true ∧ p.2 + p.1.srcLen ≤ imgLen b := by
  unfold badSection at h
  dsimp only at h
  have hi := List.find?_eq_none.1 h i (List.mem_range.2 (List.getElem?_eq_some_iff.1 hp).1)
  rw [hp] at hi
  obtain ⟨x, at'⟩ := p
  simp only [Bool.not_eq_true, Bool.or_eq_false_iff, Bool.not_eq_false'] at hi
  have hok := hi.1
  unfold sectionOk at hok
  simp only [Bool.and_eq_true, decide_eq_true_eq] at hok
  exact ⟨by tauto, by tauto⟩

/-! ## An image that has come whole (R364) -/

/-- One section that has arrived, unless one before it failed. -/
def State.arriveStep (l : Load) (b : List Byte) (acc : State × Option (Nat × Nat)) (i : Nat) : State × Option (Nat × Nat) :=
  match acc.2, (imgSections b)[i]? with
  | none, some p => ((acc.1.arriveSection l b p).1, (acc.1.arriveSection l b p).2.map (fun st => (st, i)))
  | _, _ => acc

/-- The sections that end within the bytes at hand. -/
def dueSections (b : List Byte) : List Nat :=
  (List.range (imgSections b).length).filter fun i => match (imgSections b)[i]? with
    | some (x, at') => decide (at' + x.srcLen ≤ b.length)
    | none => false

/-- The state in which the report of the dry run has been sent, where the descriptor names a place for it (R367). -/
def State.reported (s : State) (l : Load) (b : List Byte) : State :=
  if l.desc.f 24 8 != 0 then s.emit (.hostWrite (l.desc.f 24 8) 2048 (s.dryReport l.kind l.part (s.slotAt l.part l.slot).2 b l.mask)) else s

/-- What comes of a load whose image has come whole: the checks fail, a placement check ends, or the sections arrive (R364, R367). -/
theorem State.advanceLoad_of_whole (hgot : l.got = []) (hlen : 64 ≤ b.length) (hhead : headerOk l.kind b = true)
    (hwhole : imgLen b ≤ b.length) (hman : imgManEnd b ≤ b.length) :
    (∀ st step sec die, (s.consumed b.length).preChecks l b = some (st, step, sec, die) → s.advanceLoad l b true
        = (if step = 6 then (s.consumed b.length).reported l b else s.consumed b.length).endLoad l st 0 (failAt step sec die))
      ∧ ((s.consumed b.length).preChecks l b = none → (l.op = 1 ∧ l.rid ≠ 0)
        → s.advanceLoad l b true = ((s.consumed b.length).reported l b).endLoad l 0 0 0)
      ∧ ∀ v, (s.consumed b.length).preChecks l b = none → ¬ (l.op = 1 ∧ l.rid ≠ 0) → gapsOk b = true
        → (dueSections b).foldl (State.arriveStep l b) ((s.consumed b.length).reported l b, none) = (v, none)
        → s.advanceLoad l b true = if l.kind = 0 then v.finishProgram l b else v.finishOther l b := by
  unfold State.advanceLoad
  simp only [hgot, List.nil_append, hhead, Nat.not_lt.2 hlen, Nat.not_lt.2 hwhole, Nat.not_lt.2 hman, List.length_nil, Bool.not_true,
    decide_false, Bool.and_false, Bool.or_false, Bool.false_eq_true, if_false, Nat.zero_lt_succ, decide_true, Bool.true_or, if_true]
  refine ⟨fun st step sec die hpre => ?_, fun hpre hop => ?_, fun v hpre hop hgaps hv => ?_⟩
  · unfold State.reported
    by_cases hstep : step = 6
    · simp [hpre, hstep]
    · simp [hpre, hstep]
  · simp only [hpre, if_pos hop]
    unfold State.reported
    simp
  · simp only [hpre, if_neg hop, hgaps, Bool.and_true, Bool.true_and]
    erw [hv] <;> rfl

/-! ## Sections that arrive (step 7) -/

theorem State.arriveSection_effect {p : Section × Nat} (h : s.sectionStatus l.part b p = none) :
    (s.arriveSection l b p).2 = none ∧ s.MemoryOnly (s.arriveSection l b p).1 := by
  unfold State.arriveSection
  rw [h]
  dsimp only
  split_ifs
  · exact ⟨rfl, rfl⟩
  · split
    · exact ⟨rfl, (State.stored_store _ _ _).1.frame⟩
    · exact ⟨rfl, rfl⟩

/-- Sections that pass step 7 arrive one after the other; only memory changes. -/
theorem State.arrive_all (hn : l.part < 64) (is : List Nat) (hlt : ∀ i, i ∈ is → i < (imgSections b).length) (s : State)
    (hs : ∀ p, p ∈ imgSections b → s.sectionStatus l.part b p = none) :
    ∃ v, is.foldl (State.arriveStep l b) (s, none) = (v, none) ∧ s.MemoryOnly v := by
  induction is generalizing s with
  | nil => exact ⟨s, rfl, rfl⟩
  | cons i is ih =>
    have hi := List.getElem?_eq_getElem (hlt i (List.mem_cons_self ..))
    obtain ⟨hnone, hmem⟩ := State.arriveSection_effect (hs _ (List.getElem_mem (hlt i (List.mem_cons_self ..))))
    rw [List.foldl_cons]
    generalize (imgSections b)[i]'_ = p at hi hnone hmem
    have hstep : State.arriveStep l b (s, none) i = ((s.arriveSection l b p).1, none) := by
      unfold State.arriveStep
      rw [hi]
      simp only [hnone, Option.map_none]
    rw [hstep]
    generalize (s.arriveSection l b p).1 = w at hmem
    obtain ⟨v, hv, hwv⟩ := ih (fun j hj => hlt j (List.mem_cons_of_mem _ hj)) w fun q hq => by
      rw [hmem.views.sectionStatus hn]
      exact hs q hq
    exact ⟨v, hv, hmem.trans hwv⟩

/-- Of a whole image whose entries are in range every section is due. -/
theorem dueSections_of_whole {kind : Nat} (hbad : badSection kind b = none) (hwhole : imgLen b ≤ b.length) :
    dueSections b = List.range (imgSections b).length := by
  unfold dueSections
  refine List.filter_eq_self.2 fun i hi => ?_
  have hp := List.getElem?_eq_getElem (List.mem_range.1 hi)
  have hend := (section_of_badSection hbad hp).2
  rw [hp]
  exact decide_eq_true (hend.trans hwhole)

/-- The one section of an image is stored at its place. -/
theorem State.arriveStep_single {p : Section × Nat} {a : Nat} {bs : List Byte} {k : Nat} (hsec : imgSections b = [p])
    (hok : s.sectionStatus l.part b p = none) (htype : p.1.type ≠ 0) (ha : s.sectionDest l p.1 = some a)
    (hbs : s.sectionBytes l.part b p = some (bs, k)) : State.arriveStep l b (s, none) 0 = (s.store a bs, none) := by
  have harrive : s.arriveSection l b p = (s.store a bs, none) := by
    unfold State.arriveSection
    rw [hok, ha, hbs]
    simp [htype]
  unfold State.arriveStep
  rw [hsec]
  simp [harrive]

/-! ## Before the checks -/

/-- A load joins the loads in progress and its image has come: what the host is told of, and the images, stay. -/
structure State.Fed (s z : State) (l : Load) : Prop where
  frame : z = { s with regs := z.regs, out := z.out
                       loader := { s.loader with loads := s.loader.loads ++ [l], bytesIn := z.loader.bytesIn } }
  words : s.SameRegsBut z ldrRegs
  count : z.f64 Reg.ldrCount 0 8 = s.f64 Reg.ldrCount 0 8
  out : ∀ o, o ∈ s.out → o ∈ z.out

theorem State.Fed.views (h : s.Fed z l) : s.Views z := by
  refine ⟨h.words, ?_, ?_, ?_, fun n => ?_⟩
  all_goals rw [h.frame]
  rfl

theorem State.Fed.base (h : s.Fed z l) (d : Nat) : z.base d = s.base d := by
  rw [h.frame]
  rfl

theorem State.fed_consumed (s : State) (l : Load) (k : Nat) : s.Fed ((s.setLoads (s.loader.loads ++ [l])).consumed k) l := by
  obtain ⟨hshape, hquiet, -⟩ := s.setLoads_effect (s.loader.loads ++ [l])
  generalize s.setLoads (s.loader.loads ++ [l]) = a at hshape hquiet
  have hb : ∀ x y, State.WordsOnly x (x.sf64 Reg.ldrCount 24 40 y) (pairOf Reg.ldrCount) := fun x y => x.wordsOnly_sf64 _ _ _ _
  unfold State.consumed
  dsimp only
  generalize min ((a.loader.bytesIn + k) / 2 ^ 20) (2 ^ 40 - 1) = m
  generalize hc : ({ a with loader := { a.loader with bytesIn := a.loader.bytesIn + k } } : State) = c
  have hsame : a.SameRegsBut c ldrRegs := by
    rw [← hc]
    exact fun _ _ => rfl
  have hcount : c.f64 Reg.ldrCount 0 8 = a.f64 Reg.ldrCount 0 8 := by
    rw [← hc]
    rfl
  have hshape' : c = { s with regs := c.regs, loader := { s.loader with loads := s.loader.loads ++ [l], bytesIn := c.loader.bytesIn } } := by
    rw [← hc, hshape]
  obtain ⟨hd, hwords⟩ := hb c m
  have hfield := State.f64_sf64_field c Reg.ldrCount 24 40 m 0 8 (by decide) (by decide)
  generalize c.sf64 Reg.ldrCount 24 40 m = e at hd hwords hfield
  refine ⟨?_, ?_, ?_, fun o ho => ?_⟩
  · rw [hd, hshape']
  · refine (hquiet.mono fun x hx => ?_).trans (hsame.trans (hwords.mono fun x hx => ?_))
    · unfold ldrRegs
      rw [hx]
      rfl
    · unfold pairOf at hx
      unfold ldrRegs
      rcases Bool.or_eq_true_iff.1 hx with hx | hx
      · rw [hx, Bool.or_true, Bool.true_or]
      · rw [hx, Bool.or_true]
  · rw [hfield, hcount]
    exact State.f64_of_sameRegs hquiet (by decide) (by decide) 0 8
  · rw [hd, hshape']
    exact ho

theorem State.Fed.reported (h : s.Fed z l) : s.Fed (z.reported l b) l
    ∧ (l.desc.f 24 8 ≠ 0 → .hostWrite (l.desc.f 24 8) 2048 (z.dryReport l.kind l.part (z.slotAt l.part l.slot).2 b l.mask) ∈ (z.reported l b).out) := by
  unfold State.reported
  split_ifs with hreport
  · refine ⟨⟨?_, h.words, h.count, fun o ho => List.mem_append_left _ (h.out o ho)⟩, fun _ => List.mem_append_right _ (List.mem_singleton_self _)⟩
    unfold State.emit
    rw [h.frame]
  · exact ⟨h, fun hne => absurd (by simpa using hne) hreport⟩

end

end Sys2Proof.Machine

end

/-! How a load is taken, and what finishes it (14_model_images_and_loading.md R361, R368 to R371; 17_dawn_resets_recovery.md R432). -/

section

open Sys2Proof

namespace Sys2Proof.Machine

section

variable {s t u v z : State} {l : Load} {b : List Byte} {n : Nat}

/-! ## The idle slots chosen again (R432) -/

/-- The words of CD_SLOT_MAP. -/
def slotMapRegs (a : Nat) : Bool := (List.range 32).any (fun x => a == Reg.cdSlotMap (x / 4) (x % 4))

theorem slotMapRegs_false {a : Nat} (h : 0x100 ≤ a % 2 ^ 36 - 0xF00000000) : slotMapRegs a = false := by
  refine List.any_eq_false.2 fun x hx => ?_
  have hlt := List.mem_range.1 hx
  rw [beq_iff_eq]
  unfold Reg.cdSlotMap Reg.dieBase
  omega

/-- Only which slots of the clusters are idle differs. -/
structure State.Chosen (s u : State) : Prop where
  frame : u = { s with cores := u.cores, dies := u.dies, regs := u.regs }
  words : s.SameRegsBut u slotMapRegs

theorem State.Chosen.refl (s : State) : s.Chosen s := ⟨rfl, fun _ _ => rfl⟩

theorem State.Chosen.trans (h : s.Chosen t) (k : t.Chosen u) : s.Chosen u := ⟨by rw [k.frame, h.frame], h.words.trans k.words⟩

theorem State.WordsOnly.chosen (h : s.WordsOnly t slotMapRegs) : s.Chosen t := ⟨by rw [h.1], h.2⟩

theorem State.chosen_setCore (s : State) (g : Nat) (c : CoreState) : s.Chosen (s.setCore g c) := ⟨rfl, fun _ _ => rfl⟩

theorem State.chosen_chooseIdle (s : State) {d k : Nat} (hr : slotMapRegs (Reg.cdSlotMap d k) = true) : s.Chosen (s.chooseIdle d k) := by
  have hfield : ∀ (u : State) lo w x, u.Chosen (u.sf32 (Reg.cdSlotMap d k) lo w x) := fun u lo w x =>
    State.WordsOnly.chosen (u.wordsOnly_w32 _ hr)
  have hdie : ∀ x, s.Chosen (s.setDie d x) := fun x => ⟨rfl, fun _ _ => rfl⟩
  unfold State.chooseIdle
  dsimp only
  refine List.foldlRecOn _ _ (motive := s.Chosen) (((hdie _).trans (hfield _ _ _ _)).trans (hfield _ _ _ _)) fun u hu j _ => ?_
  split
  · exact (hu.trans (u.chosen_setCore _ _)).trans (hfield _ _ _ _)
  · exact hu.trans (u.chosen_setCore _ _)

theorem State.chosen_rechoose (s : State) (n : Nat) : s.Chosen (s.rechoose n) := by
  unfold State.rechoose
  refine List.foldlRecOn _ _ (motive := s.Chosen) (.refl s) fun u hu x hx => ?_
  dsimp only
  split_ifs
  · exact hu.trans (u.chosen_chooseIdle (List.any_eq_true.2 ⟨x, hx, beq_self_eq_true _⟩))
  · exact hu

/-! ## A load is taken (R361, R368) -/

/-- The state in which a load's checks begin. -/
def State.chosen (s : State) (rid : Nat) (d : Desc) : State := if rid ≠ 0 ∧ d.f 0 1 = 2 then s.rechoose (rid - 1) else s

theorem State.chosen_chosen (s : State) (rid : Nat) (d : Desc) : s.Chosen (s.chosen rid d) := by
  unfold State.chosen
  split_ifs
  · exact s.chosen_rechoose _
  · exact .refl s

/-- The fields of a load's descriptor are in range (R368 to R371). -/
structure State.Loadable (s : State) (rid : Nat) (own : List (Nat × Nat)) (d : Desc) : Prop where
  source : sourceOk d own = true
  feed : d.f 18 1 = 1 → s.feedOk d = true
  base : rid = 0 → d.f 40 1 ≠ 0 ∧ ∀ k, k < 8 → bitAt (d.f 40 1) k = true → s.dieAbsent k = false
  adapter : rid ≠ 0 → d.f 0 1 = 4 → ∃ p, s.program (rid - 1) = some p ∧ d.f 40 2 < p.slots
  space : wraps d = false
  state : s.step1 rid d = none

section

variable {rid : Nat} {own : List (Nat × Nat)} {d : Desc} {src : HostRead} {job : JobPlacement}

/-- No field of a loadable descriptor is out of range. -/
theorem State.Loadable.field (h : s.Loadable rid own d) :
    (!(sourceOk d own) || (d.f 18 1 == 1 && !(s.feedOk d))
      || (rid == 0 && (d.f 40 1 == 0 || (upto 8 (fun k => bitAt (d.f 40 1) k)).any s.dieAbsent))
      || (rid != 0 && d.f 0 1 == 4 && s.loadedOrRunning (rid - 1)
        && (s.program (rid - 1)).elim true fun p => decide (p.slots ≤ d.f 40 2))) = false := by
  have hfeed : (d.f 18 1 == 1 && !(s.feedOk d)) = false := by
    by_cases h1 : d.f 18 1 = 1
    · rw [h.feed h1, Bool.not_true, Bool.and_false]
    · rw [beq_eq_false_iff_ne.2 h1, Bool.false_and]
  have hbase : (rid == 0 && (d.f 40 1 == 0 || (upto 8 (fun k => bitAt (d.f 40 1) k)).any s.dieAbsent)) = false := by
    by_cases h0 : rid = 0
    · obtain ⟨hmask, hthere⟩ := h.base h0
      have hany : (upto 8 (fun k => bitAt (d.f 40 1) k)).any s.dieAbsent = false := by
        refine List.any_eq_false.2 fun k hk => ?_
        obtain ⟨hk8, hbit⟩ := List.mem_filter.1 hk
        rw [hthere k (List.mem_range.1 hk8) hbit]
        exact Bool.false_ne_true
      rw [hany, beq_eq_false_iff_ne.2 hmask, Bool.or_false, Bool.and_false]
    · rw [beq_eq_false_iff_ne.2 h0, Bool.false_and]
  have hadapter : (rid != 0 && d.f 0 1 == 4 && s.loadedOrRunning (rid - 1)
      && (s.program (rid - 1)).elim true fun p => decide (p.slots ≤ d.f 40 2)) = false := by
    by_cases h4 : rid ≠ 0 ∧ d.f 0 1 = 4
    · obtain ⟨p, hp, hslot⟩ := h.adapter h4.1 h4.2
      rw [hp, Option.elim_some, decide_eq_false (not_le.2 hslot), Bool.and_false]
    · have : (rid != 0 && d.f 0 1 == 4) = false := by
        rw [← Bool.not_eq_true, Bool.and_eq_true, bne_iff_ne, beq_iff_eq]
        exact h4
      rw [this, Bool.false_and, Bool.false_and]
  rw [h.source, hfeed, hbase, hadapter]
  rfl

/-- A load that reads a feed joins the loads in progress (R361). -/
theorem takeLoad_feed (h : s.Loadable rid own d) (hfeed : d.f 18 1 = 1) :
    takeLoad rid own d src job s
      = (s.chosen rid d).setLoads ((s.chosen rid d).loader.loads ++ [⟨rid, d.cmdId, d, [], true, none, job⟩]) := by
  have hfield := h.field
  unfold takeLoad
  dsimp only
  rw [if_neg]
  · simp only [h.space, hfeed, h.state, Bool.not_true, Bool.false_and, Bool.or_false, Bool.false_eq_true, if_false, beq_self_eq_true, if_true]
    rfl
  · rw [Bool.not_eq_true, ← hfield]
    cases s.program (rid - 1) <;> rfl

/-- One that reads an image from host memory goes through the checks at once (R364). -/
theorem takeLoad_bytes (h : s.Loadable rid own d) (hfeed : d.f 18 1 = 0) (hsrc : src = .bytes b) :
    takeLoad rid own d src job s
      = ((s.chosen rid d).setLoads ((s.chosen rid d).loader.loads ++ [⟨rid, d.cmdId, d, [], false, none, job⟩])).advanceLoad
          ⟨rid, d.cmdId, d, [], false, none, job⟩ b true := by
  have hfield := h.field
  subst hsrc
  unfold takeLoad
  dsimp only
  rw [if_neg]
  · have hbad : (HostRead.bytes b == HostRead.badList) = false := rfl
    simp only [h.space, hfeed, h.state, hbad, Bool.and_false, Bool.or_false, Bool.false_eq_true, if_false]
    rfl
  · rw [Bool.not_eq_true, ← hfield]
    cases s.program (rid - 1) <;> rfl

end

/-! ## The end of a load of another kind (R370, R371) -/

/-- An image that is no program becomes resident, and its load ends (R369). -/
theorem State.finishOther_effect (hn : l.part < 64) (hk : l.kind ≠ 0) (htell : v.CanTell l.rid) (hid : l.cmdId ≠ gone) :
    ∃ w img, w = { v with loader := { v.loader with
          images := v.loader.images ++ [img]
          opening := if l.kind = 2 then v.loader.opening ++ [(l.part, l.slot)] else v.loader.opening } }
      ∧ img.kind = l.kind ∧ img.digest = sha384 (imgMessage b) ∧ (l.kind ≠ 1 → img.part = l.part) ∧ (l.kind = 2 → img.slot = l.slot)
      ∧ (l.kind = 1 → img.dieMask = l.desc.f 40 1)
      ∧ w.Ended (v.finishOther l b) l 0 (v.writtenBy l b (imgSections b).length) (v.badElements l.part b) := by
  generalize himg : v.imageOf l b (List.replicate 48 0) = img
  have hkind : img.kind = l.kind := by rw [← himg]; rfl
  have hdigest : img.digest = sha384 (imgMessage b) := by rw [← himg]; rfl
  have hpart : l.kind ≠ 1 → img.part = l.part := fun h => by rw [← himg]; exact if_neg h
  have hslot : l.kind = 2 → img.slot = l.slot := fun h => by rw [← himg]; exact if_pos h
  have hmask : l.kind = 1 → img.dieMask = l.desc.f 40 1 := fun h => by rw [← himg]; exact if_pos h
  refine ⟨_, img, rfl, hkind, hdigest, hpart, hslot, hmask, ?_⟩
  unfold State.finishOther
  rw [himg]
  dsimp only
  generalize hw : ({ v with loader := _ } : State) = w
  have hviews : v.Views w := by
    rw [← hw]
    refine ⟨fun _ _ => rfl, rfl, rfl, rfl, fun n => ?_⟩
    have hother : (img.kind == 0 && img.part == n) = false := by rw [hkind, beq_eq_false_iff_ne.2 hk, Bool.false_and]
    show (v.loader.images ++ [img]).find? _ = _
    rw [List.find?_append]
    simp only [List.find?_singleton, hother, Bool.false_eq_true, if_false, Option.or_none]
    rfl
  have hring : w.CanTell l.rid := htell.of_rings (by rw [← hw])
  rw [hviews.writtenBy hn rfl, hviews.badElements hn]
  exact w.ended_endLoad 0 _ _ hring hid

/-! ## A program's tables (R211, R369) -/

/-- Registers above those that say where partitions are placed: multicast entries, peer tables. -/
def upperRegs (a : Nat) : Bool := decide (0xF00100000 ≤ a % 2 ^ 36)

theorem State.wordsOnly_wWide (s : State) {f : Nat → Bool} (a k x : Nat) (hf : ∀ i, i < k → f (a + 4 * i) = true) :
    s.WordsOnly (s.wWide a k x) f := by
  induction k generalizing s a x with
  | zero => exact .refl s f
  | succ k ih =>
    refine (s.wordsOnly_w32 _ (hf 0 (Nat.succ_pos k))).trans (ih _ _ _ fun i hi => ?_)
    rw [show a + 4 + 4 * i = a + 4 * (i + 1) by omega]
    exact hf (i + 1) (by omega)

theorem State.wordsOnly_mcast (s : State) {d i : Nat} (hi : i < 256) (x : Nat) : s.WordsOnly (s.wWide (Reg.fabMcast d i) 8 x) upperRegs := by
  refine s.wordsOnly_wWide _ _ _ fun j hj => decide_eq_true ?_
  unfold Reg.fabMcast Reg.dieBase
  omega

theorem State.wordsOnly_buildPeers (s : State) (hn : n < 64) (job : JobPlacement) : s.WordsOnly (s.buildPeers n job) upperRegs := by
  refine State.WordsOnly.foldl _ fun u e he => u.wordsOnly_w32 _ (decide_eq_true ?_)
  have := List.mem_range.1 he
  unfold Reg.rtePeer
  omega

theorem State.wordsOnly_buildMulticast {needs : List (Nat × (Nat × Nat) × Nat)} (h : s.buildMulticast n needs = some t) :
    s.WordsOnly t upperRegs := by
  have hclear : s.WordsOnly (s.mcastCleared n) upperRegs := by
    refine State.WordsOnly.foldl _ fun u d _ => State.WordsOnly.foldl _ fun u i hi => ?_
    split_ifs
    · exact u.wordsOnly_mcast (List.mem_range.1 hi) 0
    · exact .refl u _
  rw [State.buildMulticast_eq] at h
  generalize s.mcastCleared n = a at h hclear
  induction needs generalizing a with
  | nil => exact Option.some.inj h ▸ hclear
  | cons x needs ih =>
    rw [List.foldl_cons, Option.bind_some] at h
    cases hx : a.mcastAdded n x with
    | none =>
      rw [hx, foldl_bind_none] at h
      exact nomatch h
    | some c =>
      rw [hx] at h
      unfold State.mcastAdded at hx
      obtain ⟨i, hi, rfl⟩ := Option.map_eq_some_iff.1 hx
      exact ih _ h (hclear.trans (a.wordsOnly_mcast (List.mem_range.1 (List.mem_of_find?_eq_some hi)) _))

/-- The cores of a partition do not depend on the tables. -/
theorem State.coreOf_buildPeers (s : State) (hn : n < 64) (job : JobPlacement) (k : Nat) : (s.buildPeers n job).coreOf n k = s.coreOf n k := by
  obtain ⟨-, hwords⟩ := s.wordsOnly_buildPeers hn job
  have hmembers : (s.buildPeers n job).members n = s.members n := State.rWide_congr s _ _ 4 fun c h1 h2 => hwords c (decide_eq_false (by
    unfold Reg.topPartMember at h1 h2
    omega))
  unfold State.coreOf State.lcs
  rw [hmembers]

/-- The loader's records and the state of a partition stay. -/
def State.KeepsLoads (s t : State) (n : Nat) : Prop := t.loader = s.loader ∧ t.pstate n = s.pstate n

theorem State.KeepsLoads.trans (h : s.KeepsLoads t n) (k : t.KeepsLoads u n) : s.KeepsLoads u n := ⟨k.1.trans h.1, k.2.trans h.2⟩

theorem State.KeepsLoads.of_regs (h : t.loader = s.loader) (hr : t.regs = s.regs) : s.KeepsLoads t n :=
  ⟨h, by unfold State.pstate State.f32; rw [State.r32_congr s t hr]⟩

theorem State.MemoryOnly.keepsLoads (h : s.MemoryOnly t) : s.KeepsLoads t n := .of_regs (by rw [h]) (by rw [h])

theorem State.keepsLoads_upper (hn : n < 64) (h : s.WordsOnly t upperRegs) : s.KeepsLoads t n := by
  refine ⟨by rw [h.1], ?_⟩
  unfold State.pstate State.f32
  rw [h.2 _ (decide_eq_false (by unfold Reg.topPartStatus; omega))]

theorem State.KeepsLoads.foldl {α : Type} {f : State → α → State} (x : List α) (hf : ∀ (u : State) y, u.KeepsLoads (f u y) n) (s : State) :
    s.KeepsLoads (x.foldl f s) n :=
  List.foldlRecOn x f (motive := fun u => s.KeepsLoads u n) ⟨rfl, rfl⟩ fun u hu y _ => hu.trans (hf u y)

theorem State.keepsLoads_clearWindows (s : State) (m : Nat) : s.KeepsLoads (s.clearWindows m) n := by
  refine .foldl _ (fun u d => .foldl _ (fun v c => ?_) u) s
  have hflags : ∀ (w : State) k, w.KeepsLoads (w.putFlag k false) n := fun w k => ⟨rfl, rfl⟩
  have hctrs : ∀ (w : State) k, w.KeepsLoads (w.putCtr k 0) n := fun w k => ⟨rfl, rfl⟩
  exact State.KeepsLoads.trans (.foldl _ (fun w i => hflags w _) v) (.foldl _ (fun w i => hctrs w _) _)

theorem State.keepsLoads_stageStreams (s : State) (m : Nat) (x : List Section) : s.KeepsLoads (s.stageStreams m x) n := by
  refine .foldl _ (fun u g => ?_) s
  dsimp only
  split
  · exact ⟨rfl, rfl⟩
  · exact ⟨rfl, rfl⟩

/-- With its tables built a program's load waits for the window in which its registers apply (R369). -/
theorem State.finishProgram_eq {rel raw : List (Nat × List Nat)} (hn : l.part < 64)
    (hrel : v.programStreams l.part b true = some rel) (hraw : v.programStreams l.part b false = some raw)
    (hext : (v.buildPeers l.part l.job).externalsOk l.part raw = true)
    (hpeers : ∀ p, p ∈ rel → (v.buildPeers l.part l.job).peersOk l.part p.2 = true)
    (hm : ((v.buildPeers l.part l.job).multicastNeeds l.part (rel.map fun p => ((v.coreOf l.part p.1).getD 0, p.2))).bind
      ((v.buildPeers l.part l.job).buildMulticast l.part) = some u) :
    ∃ w img r0 r1, v.finishProgram l b = w.putLoad { l with got := [], ready := some (img, r0, r1) } ∧ img.kind = l.kind
      ∧ (l.kind ≠ 1 → img.part = l.part) ∧ img.digest = sha384 (imgMessage b) ∧ v.KeepsLoads w l.part := by
  obtain ⟨needs, -, hbuilt⟩ := Option.bind_eq_some_iff.1 hm
  have hu : v.KeepsLoads u l.part := State.keepsLoads_upper hn ((v.wordsOnly_buildPeers hn l.job).trans (State.wordsOnly_buildMulticast hbuilt))
  have hall : (rel.all fun p => (v.buildPeers l.part l.job).peersOk l.part p.2) = true := List.all_eq_true.2 hpeers
  unfold State.finishProgram
  simp only [hrel, hraw, hext, hall, hm, Bool.not_true, Bool.or_self, Bool.false_eq_true, if_false]
  refine ⟨_, _, _, _, rfl, rfl, fun h => if_neg h, rfl, ?_⟩
  have hgroups : ∀ (w : State) x, w.KeepsLoads { w with groups := x } l.part := fun w x => ⟨rfl, rfl⟩
  refine hu.trans (State.KeepsLoads.trans ?_ (((State.keepsLoads_clearWindows _ _).trans (State.keepsLoads_stageStreams _ _ _)).trans (hgroups _ _)))
  refine .foldl _ (fun w p => ?_) u
  split
  · exact (State.stored_store _ _ _).1.frame.keepsLoads
  · exact ⟨rfl, rfl⟩

/-- A load replaced in the list of those in progress. -/
theorem State.putLoad_effect {w : State} {l' : Load} (hn : n < 64) (hmem : l ∈ w.loader.loads) (hrid : l'.rid = l.rid) (hdesc : l'.desc = l.desc) :
    l' ∈ (w.putLoad l').loader.loads ∧ (w.putLoad l').loader.images = w.loader.images ∧ (w.putLoad l').pstate n = w.pstate n := by
  unfold State.putLoad
  obtain ⟨hshape, hwords, -⟩ := w.setLoads_effect (w.loader.loads.map (fun x => if x.rid = l'.rid ∧ x.desc = l'.desc then l' else x))
  have hreg : (Reg.topPartStatus n == Reg.ldrStatus) = false := by
    rw [beq_eq_false_iff_ne]
    unfold Reg.topPartStatus Reg.ldrStatus
    omega
  refine ⟨?_, ?_, ?_⟩
  · rw [hshape]
    exact List.mem_map.2 ⟨l, hmem, if_pos ⟨hrid.symm, hdesc.symm⟩⟩
  · rw [hshape]
  · unfold State.pstate State.f32
    rw [hwords _ hreg]

end

end Sys2Proof.Machine

end

/-! LOAD, PLACE_CHECK, ADAPTER_LOAD, BASE_LOAD and LOAD_COMPLETE (14_model_images_and_loading.md R361 to R372). -/

section

open Sys2Proof

namespace Sys2Proof.Machine

section

variable {s t u v y z : State} {l : Load} {b : List Byte} {n : Fin 64} {d : Desc} {src : HostRead} {job : JobPlacement} {rid : Nat} {c : Instr}

/-- The command `c` is a load with its fields in range, and `u` the state in which its checks begin. -/
def State.LoadCommand (s u : State) (d : Desc) (src : HostRead) (n : Fin 64) (job : JobPlacement) (rid : Nat) (c : Instr) : Prop :=
  (c = .loadImage n d src job ∧ d.f 0 1 = 2 ∧ rid = n.val + 1 ∧ sourceOk d [] = true ∧ u = s.rechoose n)
    ∨ (job = ⟨[], []⟩ ∧ u = s ∧ ((c = .placeCheck n d src ∧ d.f 0 1 = 1 ∧ rid = n.val + 1 ∧ sourceOk d [] = true)
      ∨ (c = .adapterLoad n d src ∧ d.f 0 1 = 4 ∧ rid = n.val + 1 ∧ sourceOk d [(40, 42)] = true ∧ (∃ p, s.program n = some p ∧ d.f 40 2 < p.slots))
      ∨ (c = .baseLoad d src ∧ d.f 0 1 = 0x3A ∧ rid = 0 ∧ sourceOk d [(40, 41)] = true ∧ d.f 40 1 ≠ 0
        ∧ ∀ k, k < 8 → bitAt (d.f 40 1) k = true → s.dieAbsent k = false)))

/-- The four commands in one: each is taken as a load, from the state in which its checks begin. -/
theorem State.LoadCommand.taken (h : s.LoadCommand u d src n job rid c) (hstep : s.step1 rid d = none) (hwraps : wraps d = false)
    (hfeed : d.f 18 1 = 1 → s.feedOk d = true) :
    ∃ own, exec c s = .next (takeLoad rid own d src job s) ∧ s.Loadable rid own d ∧ u = s.chosen rid d := by
  unfold State.chosen
  rcases h with ⟨rfl, hop, rfl, hsource, rfl⟩ | ⟨rfl, rfl, ⟨rfl, hop, rfl, hsource⟩ | ⟨rfl, hop, rfl, hsource, hslot⟩ | ⟨rfl, hop, rfl, hsource, hmask, hthere⟩⟩
  · exact ⟨[], rfl, ⟨hsource, hfeed, nofun, fun _ h4 => by omega, hwraps, hstep⟩, (if_pos ⟨Nat.succ_ne_zero _, hop⟩).symm⟩
  · exact ⟨[], rfl, ⟨hsource, hfeed, nofun, fun _ h4 => by omega, hwraps, hstep⟩, (if_neg fun h2 => by omega).symm⟩
  · exact ⟨_, rfl, ⟨hsource, hfeed, nofun, fun _ _ => hslot, hwraps, hstep⟩, (if_neg fun h2 => by omega).symm⟩
  · exact ⟨_, rfl, ⟨hsource, hfeed, fun _ => ⟨hmask, hthere⟩, fun h0 => absurd rfl h0, hwraps, hstep⟩, (if_neg fun h2 => h2.1 rfl).symm⟩

theorem State.LoadCommand.numbers (h : s.LoadCommand u d src n job rid c) : rid - 1 < 64 ∧ isLoad rid (d.f 0 1) = true
    ∧ (rid = 0 ∧ d.f 0 1 = 0x3A ∨ rid = n.val + 1 ∧ (d.f 0 1 = 1 ∨ d.f 0 1 = 2 ∨ d.f 0 1 = 4)) := by
  have hn := n.isLt
  unfold isLoad
  rcases h with ⟨-, hop, rfl, -⟩ | ⟨-, -, ⟨-, hop, rfl, -⟩ | ⟨-, hop, rfl, -⟩ | ⟨-, hop, rfl, -⟩⟩
  · exact ⟨by omega, by simp [hop], .inr ⟨rfl, .inr (.inl hop)⟩⟩
  · exact ⟨by omega, by simp [hop], .inr ⟨rfl, .inl hop⟩⟩
  · exact ⟨by omega, by simp [hop], .inr ⟨rfl, .inr (.inr hop)⟩⟩
  · exact ⟨by omega, by simp [hop], .inl ⟨rfl, hop⟩⟩

theorem State.LoadCommand.same (h : s.LoadCommand u d src n job rid c) (hop : d.f 0 1 ≠ 2) : u = s := by
  rcases h with ⟨-, h2, -⟩ | ⟨-, hu, -⟩
  · exact absurd h2 hop
  · exact hu

/-! ## The end of a load, seen from before it was taken -/

theorem State.Chosen.loader (h : s.Chosen u) : u.loader = s.loader := by rw [h.frame]

theorem State.Chosen.host (h : s.Chosen u) : u.host = s.host := by rw [h.frame]

theorem State.Chosen.sameBytes (h : s.Chosen u) : s.SameBytes u := .of_mem (by rw [h.frame]) (by rw [h.frame])

theorem State.Fed.host (h : s.Fed z l) : z.host = s.host := by rw [h.frame]

theorem State.Fed.sameBytes (h : s.Fed z l) : s.SameBytes z := .of_mem (by rw [h.frame]) (by rw [h.frame])

theorem State.Fed.loads (h : s.Fed z l) : z.loader.loads = s.loader.loads ++ [l] := by rw [h.frame]

theorem State.Fed.images (h : s.Fed z l) : z.loader.images = s.loader.images ∧ z.loader.opening = s.loader.opening := by
  rw [h.frame]
  exact ⟨rfl, rfl⟩

/-- The load is no longer among those in progress. -/
theorem loads_without (x : List Load) (l : Load) : (x ++ [l]).filter (fun x => !(x.rid == l.rid && x.desc == l.desc))
    = x.filter (fun x => !(x.rid == l.rid && x.desc == l.desc)) := by
  rw [List.filter_append]
  simp

/-- A load that ends in its checks has told so, and left memory and the images (R364, R372). -/
theorem State.Fed.ended {status r0 r1 : Nat} (hc : s.Chosen u) (hz : u.Fed z l) (he : z.Ended t l status r0 r1) :
    s.Told t l.rid l.cmdId status r0 r1 ∧ s.SameBytes t
      ∧ t.loader.loads = s.loader.loads.filter (fun x => !(x.rid == l.rid && x.desc == l.desc)) ∧ t.loader.images = s.loader.images
      ∧ (status ≠ 0 → l.counts = true → t.f64 Reg.ldrCount 0 8 = min (s.f64 Reg.ldrCount 0 8 + 1) 255) := by
  refine ⟨he.told.of_host (hz.host.trans hc.host), (hc.sameBytes.trans hz.sameBytes).trans he.bytes, ?_, ?_, fun h0 hcount => ?_⟩
  · rw [he.loader]
    show z.loader.loads.filter _ = _
    rw [hz.loads, loads_without, hc.loader]
  · rw [he.loader]
    show z.loader.images = _
    rw [hz.images.1, hc.loader]
  · rw [he.count h0 hcount, hz.count]
    rw [State.f64_of_sameRegs hc.words (slotMapRegs_false (by decide)) (slotMapRegs_false (by decide))]

/-! ## An image whose checks pass -/

/-- Every section of an image whose checks pass arrives (R364). -/
theorem State.Fed.arrived (hz : u.Fed z l) (hn : l.part < 64) (hbad : badSection l.kind b = none) (hwhole : imgLen b ≤ b.length)
    (hs : ∀ p, p ∈ imgSections b → u.sectionStatus l.part b p = none) :
    ∃ v, (dueSections b).foldl (State.arriveStep l b) (z.reported l b, none) = (v, none) ∧ (z.reported l b).MemoryOnly v := by
  rw [dueSections_of_whole hbad hwhole]
  refine State.arrive_all hn _ (fun i hi => List.mem_range.1 hi) _ fun p hp => ?_
  rw [hz.reported.1.views.sectionStatus hn]
  exact hs p hp

section

variable (hgot : l.got = []) (hlen : 64 ≤ b.length) (hhead : headerOk l.kind b = true) (hwhole : imgLen b ≤ b.length)
  (hman : imgManEnd b ≤ b.length) (hn : l.part < 64) (hpass : s.preChecks l b = none) (hgaps : gapsOk b = true)
  (hsections : ∀ p, p ∈ imgSections b → s.sectionStatus l.part b p = none) (hop : ¬ (l.op = 1 ∧ l.rid ≠ 0))

include hgot hlen hhead hwhole hman hn hpass hgaps hsections hop

/-- A load whose checks pass, and whose sections are right, is finished from a state in which they have arrived. -/
theorem State.advanceLoad_arrived : ∃ y v, s.Fed y l ∧ y.MemoryOnly v
    ∧ (dueSections b).foldl (State.arriveStep l b) (y, none) = (v, none)
    ∧ (s.setLoads (s.loader.loads ++ [l])).advanceLoad l b true = if l.kind = 0 then v.finishProgram l b else v.finishOther l b := by
  have hz := s.fed_consumed l b.length
  have hpre := hz.views.preChecks hn hz.base rfl b
  obtain ⟨v, hv, hstored⟩ := hz.arrived hn (State.badSection_of_preChecks hpass) hwhole hsections
  obtain ⟨-, -, hplaced⟩ := State.advanceLoad_of_whole (s := s.setLoads (s.loader.loads ++ [l])) hgot hlen hhead hwhole hman
  exact ⟨_, v, hz.reported.1, hstored, hv, hplaced v (hpre.trans hpass) hop hgaps hv⟩

/-- An adapter or a base becomes resident, and its load ends (R370, R371). -/
theorem State.advanceLoad_other (hk : l.kind = 1 ∨ l.kind = 2) (htell : s.CanTell l.rid) (hid : l.cmdId ≠ gone) :
    ∃ t img, (s.setLoads (s.loader.loads ++ [l])).advanceLoad l b true = t ∧ t.loader.images = s.loader.images ++ [img] ∧ img.kind = l.kind
      ∧ img.digest = sha384 (imgMessage b) ∧ (l.kind ≠ 1 → img.part = l.part) ∧ (l.kind = 2 → img.slot = l.slot)
      ∧ (l.kind = 1 → img.dieMask = l.desc.f 40 1)
      ∧ t.loader.opening = (if l.kind = 2 then s.loader.opening ++ [(l.part, l.slot)] else s.loader.opening)
      ∧ s.Told t l.rid l.cmdId 0 (s.writtenBy l b (imgSections b).length) (s.badElements l.part b)
      ∧ ∀ p a bs k, imgSections b = [p] → s.sectionDest l p.1 = some a → s.sectionBytes l.part b p = some (bs, k)
        → t.rdBytes a bs.length = bs ∧ s.SameBytesBut t a bs.length := by
  have hk0 : l.kind ≠ 0 := by omega
  have hbad := State.badSection_of_preChecks hpass
  obtain ⟨y, v, hy, hstored, hv, hadvance⟩ := State.advanceLoad_arrived hgot hlen hhead hwhole hman hn hpass hgaps hsections hop
  have hviews := hy.views.trans hstored.views
  have hhost : v.host = s.host := by rw [hstored, hy.frame]
  obtain ⟨w, img, hw, hkind, hdigest, hpart, hslot, hmask, he⟩ := v.finishOther_effect (b := b) hn hk0 (htell.of_rings (by rw [hhost])) hid
  rw [if_neg hk0] at hadvance
  rw [hviews.writtenBy hn rfl, hviews.badElements hn] at he
  have hvloader : v.loader = y.loader := by rw [hstored]
  have hwhost : w.host = s.host := by rw [hw, ← hhost]
  refine ⟨_, img, hadvance, ?_, hkind, hdigest, hpart, hslot, hmask, ?_, he.told.of_host hwhost, fun p a bs k hsec ha hbs => ?_⟩
  · rw [he.loader, hw]
    show v.loader.images ++ [img] = _
    rw [hvloader, hy.images.1]
  · rw [he.loader, hw]
    show (if l.kind = 2 then v.loader.opening ++ [(l.part, l.slot)] else v.loader.opening) = _
    rw [hvloader, hy.images.2]
  · have hp : p ∈ imgSections b := by rw [hsec]; exact List.mem_singleton_self p
    have htype : p.1.type ≠ 0 := by
      have hfits := (section_of_badSection (i := 0) hbad (by rw [hsec]; rfl)).1
      intro h0
      rw [h0] at hfits
      rcases hk with hk | hk
      · rw [hk] at hfits
        exact absurd hfits (by decide)
      · rw [hk] at hfits
        exact absurd hfits (by decide)
    have hstep := State.arriveStep_single (s := y) hsec ((hy.views.sectionStatus hn b p).trans (hsections p hp)) htype
      ((hy.views.sectionDest hn rfl p.1).trans ha) ((hy.views.sectionBytes hn b p).trans hbs)
    have hone : v = y.store a bs := by
      rw [dueSections_of_whole hbad hwhole, hsec] at hv
      exact (congrArg Prod.fst (hv.symm.trans hstep))
    obtain ⟨hin, hothers, -, -⟩ := (y.stored_store a bs).1
    rw [← hone] at hin hothers
    have hwbytes : v.SameBytes w := .of_mem (by rw [hw]) (by rw [hw])
    have hbytes := hwbytes.trans he.bytes
    refine ⟨(State.rdBytes_congr _ _ _ _ fun x _ _ => (hbytes x).1).trans hin, fun x hx => ?_⟩
    exact (hbytes x).1.trans ((hothers x hx).trans (hy.sameBytes x).1)

/-- A program's tables are built, and its load waits for the window in which its registers apply (R211, R369). -/
theorem State.advanceLoad_program (hk : l.kind = 0) {rel raw : List (Nat × List Nat)} (hrel : s.programStreams l.part b true = some rel)
    (hraw : s.programStreams l.part b false = some raw) (hext : (s.buildPeers l.part l.job).externalsOk l.part raw = true)
    (hpeers : ∀ p, p ∈ rel → (s.buildPeers l.part l.job).peersOk l.part p.2 = true)
    (hfit : (((s.buildPeers l.part l.job).multicastNeeds l.part (rel.map fun p => ((s.coreOf l.part p.1).getD 0, p.2))).bind
      ((s.buildPeers l.part l.job).buildMulticast l.part)).isSome = true) :
    ∃ t x img r0 r1, (s.setLoads (s.loader.loads ++ [l])).advanceLoad l b true = t ∧ x ∈ t.loader.loads ∧ x.rid = l.rid ∧ x.desc = l.desc
      ∧ x.ready = some (img, r0, r1) ∧ img.kind = 0 ∧ img.part = l.part ∧ img.digest = sha384 (imgMessage b)
      ∧ t.loader.images = s.loader.images ∧ t.pstate l.part = s.pstate l.part := by
  obtain ⟨y, v, hy, hstored, hv, hadvance⟩ := State.advanceLoad_arrived hgot hlen hhead hwhole hman hn hpass hgaps hsections hop
  have hviews := hy.views.trans hstored.views
  have hbuilt := hviews.buildPeers (n := l.part) l.job
  obtain ⟨m, hm⟩ := Option.isSome_iff_exists.1 hfit
  obtain ⟨needs, hneeds, hmulticast⟩ := Option.bind_eq_some_iff.1 hm
  obtain ⟨m', hm', -⟩ := hbuilt.buildMulticast hmulticast
  have hbind : ((v.buildPeers l.part l.job).multicastNeeds l.part (rel.map fun p => ((v.coreOf l.part p.1).getD 0, p.2))).bind
      ((v.buildPeers l.part l.job).buildMulticast l.part) = some m' := by
    simp only [hviews.coreOf hn, hbuilt.multicastNeeds hn, hneeds, Option.bind_some, hm']
  have hmem : l ∈ v.loader.loads := by
    rw [show v.loader = y.loader by rw [hstored], hy.loads]
    exact List.mem_append_right _ (List.mem_singleton_self l)
  obtain ⟨w, img, r0, r1, hfinish, hkind, hpart, hdigest, hkeeps⟩ := State.finishProgram_eq (v := v) (b := b) hn ((hviews.programStreams hn b true).trans hrel)
    ((hviews.programStreams hn b false).trans hraw) ((hbuilt.externalsOk hn raw).trans hext)
    (fun p hp => (hbuilt.peersOk hn p.2).trans (hpeers p hp)) hbind
  obtain ⟨hloader, hpstate⟩ := hkeeps
  obtain ⟨hin, himages, hstate⟩ := State.putLoad_effect (w := w) (l := l) (l' := { l with got := [], ready := some (img, r0, r1) }) hn
    (by rw [hloader]; exact hmem) rfl rfl
  rw [if_pos hk, hfinish] at hadvance
  refine ⟨_, _, img, r0, r1, hadvance, hin, rfl, rfl, rfl, hkind.trans hk, hpart (by omega), hdigest, ?_, ?_⟩
  · rw [himages, hloader, show v.loader = y.loader by rw [hstored], hy.images.1]
  · rw [hstate, hpstate]
    exact hviews.f32 (by unfold Reg.topPartStatus; omega) 0 3

end

end

/-! ## The statement -/

/-- LOAD_COMPLETE (R369). -/
theorem loadComplete_ready (s : State) (n : Fin 64) {l : Load} {img : Image} {r0 r1 : Nat}
    (hfind : s.loader.loads.find? (fun l => l.rid == n.val + 1 && l.ready.isSome && l.kind == 0) = some l) (hready : l.ready = some (img, r0, r1))
    (hprogram : (s.program n).isSome = true) (hstate : s.loadedOrRunning n = true) : exec (.loadComplete n) s = .next (s.endLoad l 0 r0 r1) := by
  show Host.Outcome.next (loadComplete n s) = _
  unfold loadComplete
  rw [hfind]
  dsimp only
  rw [hready]
  simp [hprogram, hstate]

/-- Settles O54: every check reads the same before and after the bytes that a load writes (`State.Views`); one that fails ends the load,
else the sections arrive one after the other and the image, or the tables, are in place. -/
theorem loadsAreTakenCheckedAndCompleted : Obligations.LoadsAreTakenCheckedAndCompleted := by
  unfold Obligations.LoadsAreTakenCheckedAndCompleted
  refine ⟨fun s u d src n job rid c hc hstep hwraps => ⟨fun hfeed hfeedOk => ?_, ?_⟩,
    fun s n l img r0 r1 hfind hready hprogram hstate htell hid => ?_⟩
  · obtain ⟨own, hexec, hload, rfl⟩ := State.LoadCommand.taken hc hstep hwraps fun _ => hfeedOk
    have hchosen := s.chosen_chosen rid d
    rw [hexec, takeLoad_feed hload hfeed]
    generalize s.chosen rid d = u at hchosen
    obtain ⟨hshape, hwords, hactive⟩ := u.setLoads_effect (u.loader.loads ++ [⟨rid, d.cmdId, d, [], true, none, job⟩])
    generalize u.setLoads (u.loader.loads ++ [⟨rid, d.cmdId, d, [], true, none, job⟩]) = t at hshape hwords hactive
    have hloader : t.loader = { u.loader with loads := u.loader.loads ++ [⟨rid, d.cmdId, d, [], true, none, job⟩] } := by rw [hshape]
    refine ⟨t, rfl, ?_, ?_, ?_, hwords⟩
    · rw [hloader, hchosen.loader]
    · rw [hactive, hloader]
    · rw [hshape]
  · intro b l hfeed hsrc hl hlen hhead hwhole hman htell
    obtain ⟨own, hexec, hload, hu⟩ := State.LoadCommand.taken hc hstep hwraps fun h1 => absurd h1 (by omega)
    obtain ⟨hn, hcounts, hnumbers⟩ := State.LoadCommand.numbers hc
    have hchosen : s.Chosen u := hu ▸ s.chosen_chosen rid d
    have hpart : l.part = rid - 1 := by rw [hl]; rfl
    have hpn : rid ≠ 0 → l.part = n.val := fun h0 => by
      rcases hnumbers with ⟨hzero, -⟩ | ⟨hnext, -⟩
      · exact absurd hzero h0
      · rw [hpart, hnext, Nat.add_sub_cancel]
    have hrid : l.rid = rid := by rw [hl]
    have hcmd : l.cmdId = d.cmdId := by rw [hl]
    have hdesc : l.desc = d := by rw [hl]
    have hjob : l.job = job := by rw [hl]
    have hgot : l.got = [] := by rw [hl]
    have hop : l.op = d.f 0 1 := by rw [hl]; rfl
    have hid : l.cmdId ≠ gone := hcmd ▸ d.cmdId_ne_gone
    have hln : l.part < 64 := hpart ▸ hn
    have hlc : l.counts = true := by rw [hl]; exact hcounts
    rw [hexec, takeLoad_bytes hload hfeed hsrc, ← hl, ← hu]
    have hz := u.fed_consumed l b.length
    have hring : ∀ w : State, w.host = u.host → w.CanTell l.rid := fun w hw => by
      rw [hrid]
      exact htell.of_rings (by rw [hw, hchosen.host])
    have hpre : ((u.setLoads (u.loader.loads ++ [l])).consumed b.length).preChecks l b = u.preChecks l b :=
      hz.views.preChecks hln hz.base rfl b
    obtain ⟨hfailed, hchecked, -⟩ := State.advanceLoad_of_whole (s := u.setLoads (u.loader.loads ++ [l])) hgot hlen hhead hwhole hman
    refine ⟨fun st step sec die hfail => ?_, fun h1 hpass => ?_, fun h4 hpass hgaps hsections => ?_,
      fun y rel raw h2 h0 hy hpass hgaps hsections hrel hraw hext hpeers hfit => ?_⟩
    · rw [hfailed st step sec die (hpre.trans hfail)]
      generalize (u.setLoads (u.loader.loads ++ [l])).consumed b.length = z at hz
      have hy : u.Fed (if step = 6 then z.reported l b else z) l := by
        split_ifs
        · exact hz.reported.1
        · exact hz
      generalize (if step = 6 then z.reported l b else z) = y at hy
      obtain ⟨htold, hbytes, hloads, himages, hcount⟩ := hy.ended hchosen (y.ended_endLoad st 0 (failAt step sec die) (hring y hy.host) hid)
      rw [hrid, hcmd] at htold
      rw [hrid, hdesc] at hloads
      exact ⟨_, rfl, htold, hbytes, hloads, himages, hcount (State.preChecks_status hfail) hlc⟩
    · have hrid1 : rid = n.val + 1 := by omega
      obtain rfl := State.LoadCommand.same hc (by omega)
      have hkind : l.kind = 0 := by
        unfold Load.kind
        rw [hrid, hop, if_neg (by omega), if_neg (by omega)]
      have hmask : l.mask = 255 := by
        unfold Load.mask
        rw [hkind, if_neg (by decide)]
      rw [hchecked (hpre.trans hpass) ⟨hop.trans h1, by omega⟩]
      generalize (u.setLoads (u.loader.loads ++ [l])).consumed b.length = z at hz
      obtain ⟨hy, hreport⟩ := hz.reported (b := b)
      have he := (z.reported l b).ended_endLoad 0 0 0 (hring _ hy.host) hid
      obtain ⟨htold, hbytes, hloads, himages, -⟩ := hy.ended hchosen he
      rw [hrid, hcmd] at htold
      rw [hrid, hdesc] at hloads
      refine ⟨_, rfl, htold, hbytes, fun h24 => ?_, hloads, himages⟩
      have hsent := he.out _ (hreport (by rw [hdesc]; exact h24))
      rw [hdesc, hkind, hmask, hz.views.dryReport hln, hz.views.slotAt, hpn (by omega)] at hsent
      exact hsent
    · obtain rfl := State.LoadCommand.same hc (by omega)
      have hkind : l.kind = if rid = 0 then 1 else 2 := by
        unfold Load.kind
        rw [hrid, hop]
        split_ifs
        all_goals omega
      obtain ⟨t, img, hadvance, himages, hk, hdigest, hpart', hslot, hmask, hopening, htold, hstored⟩ :=
        State.advanceLoad_other hgot hlen hhead hwhole hman hln hpass hgaps hsections (by omega) (by rw [hkind]; split_ifs <;> decide)
          (hring u rfl) hid
      rw [hrid, hcmd] at htold
      refine ⟨t, img, congrArg _ hadvance, himages, hk, hdigest, fun h0 => ?_, fun h0 => ?_, htold, hstored⟩
      · rw [if_neg h0] at hkind
        have hls : l.slot = d.f 40 2 := by rw [hl]; rfl
        rw [hopening, if_pos hkind, hpart' (by omega), hslot hkind, hpn h0, hls]
        exact ⟨rfl, rfl, rfl⟩
      · rw [if_pos h0] at hkind
        rw [hopening, if_neg (by omega), hmask hkind, hdesc]
        exact ⟨rfl, rfl⟩
    · have hrid1 : rid = n.val + 1 := by omega
      replace hpn := hpn h0
      have hkind : l.kind = 0 := by
        unfold Load.kind
        rw [hrid, hop, if_neg (by omega), if_neg (by omega)]
      have hcore : ∀ k, y.coreOf n k = u.coreOf n k := fun k => by
        rw [hy]
        exact u.coreOf_buildPeers n.isLt job k
      simp only [hcore] at hfit
      rw [← hpn] at hy hsections hrel hraw hext hpeers hfit
      rw [hy, ← hjob] at hext hpeers hfit
      obtain ⟨t, x, img, r0, r1, hadvance, hx, hxrid, hxdesc, hready, hk, hip, hdigest, himages, hstate⟩ :=
        State.advanceLoad_program hgot hlen hhead hwhole hman hln hpass hgaps hsections (by omega) hkind hrel hraw hext hpeers hfit
      refine ⟨t, x, img, r0, r1, congrArg _ hadvance, hx, hxrid.trans hrid, hxdesc.trans hdesc, hready, hk, hip.trans hpn, hdigest, ?_, ?_⟩
      · rw [himages, hchosen.loader]
      · rw [← hpn, hstate]
        unfold State.pstate State.f32
        rw [hchosen.words _ (slotMapRegs_false (by unfold Reg.topPartStatus; omega))]
  · have hwhich := List.find?_some hfind
    simp only [Bool.and_eq_true, beq_iff_eq] at hwhich
    obtain ⟨⟨hrid, -⟩, -⟩ := hwhich
    have he := s.ended_endLoad 0 r0 r1 (l := l) (by rw [hrid]; exact htell) (Nat.ne_of_lt hid)
    have htold := he.told
    rw [hrid] at htold
    exact ⟨_, loadComplete_ready s n hfind hready hprogram hstate, htold, he.loader, he.frame, he.quiet rfl⟩

end Sys2Proof.Machine

end
